-- ==== Sys2Proof/Word.lean ====
section
/-! DEFINITION. The word types of the model and nothing else: bytes, 64-bit words, Lanyard flits, 512-bit vectors, and
the finite table that holds sparse state (registers, memory, queues, objects by number). -/

namespace Sys2Proof

/-- A byte. -/
abbrev Byte := BitVec 8
/-- A sequence of bytes in memory order. -/
abbrev Bytes := List Byte
/-- A 64-bit word: scalar registers, control registers, MMIO registers. -/
abbrev Word := BitVec 64
/-- A 32-bit Lanyard flit or instruction word (R233, R91). -/
abbrev Flit := BitVec 32
/-- A 512-bit vector (R88, R198). -/
abbrev Vec := BitVec 512
/-- A sparse table: pairs of a key and a value, keys strictly rising, no entry equal to what an absent key reads as. -/
abbrev Tab (α : Type) := List (Nat × α)
/-- What the host answers to one read of its memory: its bytes, or `none` for a host error (R429: an Unsupported
Request, a Completer Abort, a completion timeout or poisoned data). -/
abbrev HostAns := Option Bytes

end Sys2Proof
end

