-- ==== Sys2Proof/Syntax.lean ====
section
/-! DEFINITION. The commands of the module: one constructor of `Instr` for each row of spec/opcode_table.json, in the
table's order. The table gives the rows no operand fields; the operands below are those the rules give each command. -/

namespace Sys2Proof

/-- The transport of a Dictionary request (R622). -/
inductive Via where
  /-- The PCIe mailbox of function 0 (R623). -/
  | mailbox
  /-- The management Ethernet protocol (R626). -/
  | ethernet
deriving DecidableEq, Repr

/-- Which core issues an instruction, and whether it issues as the second instruction of the open bundle (R97). -/
structure Issue where
  core : Nat
  second : Bool
deriving DecidableEq, Repr

/-- The size of a scalar access (R105). -/
inductive Size where
  | b | h | w | d
deriving DecidableEq, Repr

/-- The size of an unsigned load: the manual defines no LDU.D (R96). -/
inductive ULoad where
  | b | h | w
deriving DecidableEq, Repr

/-- The lanes of a vector integer instruction (R96). -/
inductive Lane where
  | int8 | int32
deriving DecidableEq, Repr

/-- The conversions of VCVT (R104). -/
inductive Cvt where
  | f32ToBf16 | f32ToF16 | bf16ToF32 | f16ToF32 | bf16ToF16 | f16ToBf16
deriving DecidableEq, Repr

/-- What a register write names (R615, R394): a Dictionary object, or a register of a function's BAR. `answer` is the
host's answer to a read of host memory that the write starts, if it starts one. -/
inductive WriteTarget where
  | object (via : Via) (index sub : Nat) (data : Bytes) (answer : HostAns)
  | mmio (fn bar offset width : Nat) (value : Word)
  | vfEnable (port : Nat) (on : Bool)
deriving DecidableEq, Repr

/-- What the rail sensors measured over the frame that ends (R61, R66), in µJ: the module, and each die in order. -/
structure Measured where
  total : Nat
  dies : List Nat
deriving DecidableEq, Repr

/-- One sample of the input and the rails (R540): input voltage in units of 10 mV, input power in W, and each rail's current in units
of 0.1 A. -/
structure PowerSample where
  inputV : Nat
  inputW : Nat
  rails : List Nat
deriving DecidableEq, Repr

/-- The 100 ns samples of one 2 µs window (R540), oldest first. -/
structure Window where
  samples : List PowerSample
deriving DecidableEq, Repr

abbrev SReg := Fin 64
abbrev VReg := Fin 32

/-- What the FEC decoder found (R471, R478, R515): how many of the codewords that end with a flit it corrected, how many of them it could
not correct, and whether the flit lies in one that it could not. A codeword spans more than one flit. -/
structure Fec where
  corrected : Nat
  uncorrectable : Nat
  inBad : Bool
deriving DecidableEq, Repr

/-- The commands, in the order of spec/opcode_table.json. -/
inductive Instr where
  | registerWrite (t : WriteTarget)
  | domainRequest (via : Via) (value : BitVec 32)
  | domainTransitionDone (dom : Nat) (trained : Bool)
  | heldDomainRequest (dom : Nat)
  | memoryHoldWrite (via : Via) (sub : Nat) (value : BitVec 32)
  | memoryHoldLowEntry (cluster : Nat)
  | selfPolicyDomainOff (dom : Nat)
  | frameEdge (m : Measured)
  | freeRunEntry (m : Measured)
  | oscillatorBoundary (m : Measured)
  | nominalPeriodWrite (via : Via) (value : BitVec 32)
  | frameCounterPreset (via : Via) (value : BitVec 64)
  | grantWrite (via : Via) (bight : Option Nat) (value : BitVec 32)
  | policyModeWrite (via : Via) (value : BitVec 8)
  | launch (queue : Nat) (answer : HostAns)
  | openCopyDone (queue seq : Nat) (answer : HostAns)
  | add (i : Issue) (rd rs1 rs2 : SReg)
  | sub (i : Issue) (rd rs1 rs2 : SReg)
  | and (i : Issue) (rd rs1 rs2 : SReg)
  | or (i : Issue) (rd rs1 rs2 : SReg)
  | xor (i : Issue) (rd rs1 rs2 : SReg)
  | shl (i : Issue) (rd rs1 rs2 : SReg)
  | shr (i : Issue) (rd rs1 rs2 : SReg)
  | sra (i : Issue) (rd rs1 rs2 : SReg)
  | cmp (i : Issue) (rd rs1 rs2 : SReg) (func : BitVec 8)
  | sel (i : Issue) (rd rs1 rs2 : SReg)
  | popc (i : Issue) (rd rs1 : SReg)
  | clz (i : Issue) (rd rs1 : SReg)
  | addi (i : Issue) (rd rs1 : SReg) (imm : BitVec 14)
  | mul (i : Issue) (rd rs1 rs2 : SReg)
  | mulh (i : Issue) (rd rs1 rs2 : SReg)
  | mulhu (i : Issue) (rd rs1 rs2 : SReg)
  | div (i : Issue) (rd rs1 rs2 : SReg)
  | divu (i : Issue) (rd rs1 rs2 : SReg)
  | rem (i : Issue) (rd rs1 rs2 : SReg)
  | remu (i : Issue) (rd rs1 rs2 : SReg)
  | beq (i : Issue) (rs1 rs2 : SReg) (imm : BitVec 14)
  | bne (i : Issue) (rs1 rs2 : SReg) (imm : BitVec 14)
  | blt (i : Issue) (rs1 rs2 : SReg) (imm : BitVec 14)
  | bge (i : Issue) (rs1 rs2 : SReg) (imm : BitVec 14)
  | j (i : Issue) (imm : BitVec 14)
  | jal (i : Issue) (rd : SReg) (imm : BitVec 14)
  | jr (i : Issue) (rs1 : SReg)
  | loop (i : Issue) (n m : Nat)
  | ld (i : Issue) (size : Size) (rd rs1 : SReg) (imm : BitVec 14)
  | ldu (i : Issue) (size : ULoad) (rd rs1 : SReg) (imm : BitVec 14)
  | st (i : Issue) (size : Size) (rs2 rs1 : SReg) (imm : BitVec 14)
  | vld (i : Issue) (vd : VReg) (rs1 : SReg) (imm : BitVec 14)
  | vst (i : Issue) (vs : VReg) (rs1 : SReg) (imm : BitVec 14)
  | vldPi (i : Issue) (vd : VReg) (rs1 : SReg) (imm : BitVec 14)
  | vstPi (i : Issue) (vs : VReg) (rs1 : SReg) (imm : BitVec 14)
  | vldBc (i : Issue) (vd : VReg) (rs1 : SReg) (imm : BitVec 14)
  | amoadd (i : Issue) (rd rs1 rs2 : SReg)
  | amoswap (i : Issue) (rd rs1 rs2 : SReg)
  | amomax (i : Issue) (rd rs1 rs2 : SReg)
  | amocas (i : Issue) (rd rs1 rs2 : SReg)
  | vfma (i : Issue) (vd va vb vc : VReg)
  | vadd (i : Issue) (vd va vb : VReg)
  | vsub (i : Issue) (vd va vb : VReg)
  | vmul (i : Issue) (vd va vb : VReg)
  | vmin (i : Issue) (vd va vb : VReg)
  | vmax (i : Issue) (vd va vb : VReg)
  | vcmp (i : Issue) (vd va vb : VReg) (func : BitVec 6)
  | vaddi (i : Issue) (lane : Lane) (vd va vb : VReg)
  | vand (i : Issue) (vd va vb : VReg)
  | vshl (i : Issue) (lane : Lane) (vd va vb : VReg)
  | vmuli (i : Issue) (lane : Lane) (vd va vb : VReg)
  | vsel (i : Issue) (lane : Lane) (vd va vb vc : VReg)
  | vredsum (i : Issue) (vd va : VReg)
  | vredmax (i : Issue) (vd va : VReg)
  | vperm (i : Issue) (vd va vb : VReg)
  | vbcast (i : Issue) (vd va vb : VReg)
  | vcvt (i : Issue) (kind : Cvt) (vd va vb : VReg)
  | vpackMx (i : Issue) (elem : BitVec 4) (vd va vb : VReg)
  | xexp2 (i : Issue) (vd va : VReg)
  | xlog2 (i : Issue) (vd va : VReg)
  | xrcp (i : Issue) (vd va : VReg)
  | xrsqrt (i : Issue) (vd va : VReg)
  | xsqrt (i : Issue) (vd va : VReg)
  | xsinpi (i : Issue) (vd va : VReg)
  | xcospi (i : Issue) (vd va : VReg)
  | xtanh (i : Issue) (vd va : VReg)
  | send (i : Issue) (handle : BitVec 8) (vs : VReg)
  | recv (i : Issue) (vd : VReg) (handle : BitVec 8)
  | qpush (i : Issue) (q : BitVec 2) (vs : VReg) (word : Flit)
  | qpop (i : Issue) (vd : VReg) (q : BitVec 2) (word : Flit)
  | csrr (i : Issue) (rd : SReg) (csr : BitVec 12)
  | csrw (i : Issue) (csr : BitVec 12) (rs1 : SReg)
  | cbar (i : Issue) (mask : BitVec 16)
  | fenceFar (i : Issue)
  | isync (i : Issue)
  | ebreak (i : Issue)
  | illegalInsn (i : Issue) (word : Flit)
  | halt (i : Issue)
  | farAccessDone (core req : Nat)
  | stallLimit (core : Nat) (word : Flit)
  | fault (n : Nat)
  | tileGo (i : Issue) (value : Word)
  | tileStart (cluster : Nat)
  | tileComplete (cluster : Nat)
  | vectorArrival (n : Nat)
  | deadLetter (n : Nat)
  | clockRatioChange (half div : Nat)
  | ack (n : Nat) (bad : Bool)
  | lash (via : Via) (addr : BitVec 64) (answer : HostAns)
  | lashComplete (bight : Nat)
  | hedgeWrite (via : Via) (bight : Nat) (value : BitVec 32)
  | functionLevelReset (fn : Nat)
  | flrFunction0
  | relash (queue : Nat)
  | prepare (bight half : Nat)
  | quiesce (bight : Nat)
  | drainLimit (bight : Nat)
  | commitBoundary (bight : Nat)
  | switch (bight : Nat)
  | resume (bight : Nat)
  | cancel (bight : Nat)
  | clear (bight half : Nat)
  | bightRelease (via : Via) (value : BitVec 16)
  | releaseComplete (bight : Nat)
  | idleLow (bight : Nat)
  | sramWriteBack (cluster bank : Nat)
  | prunerRead (cluster bank : Nat)
  | memerr (n : Nat)
  | selfPolicyRetire (region : Nat)
  | retire (via : Via) (value : BitVec 32)
  | flipArm (cluster : Nat) (value : Word)
  | selfPolicyHbmLow (stack : Nat)
  | gateRelease (group : Nat)
  | hbmWriteBack (group : Nat)
  | patrolRead (group : Nat)
  | refreshSample (group : Nat) (halfDegrees : Int)
  | gateSetting (via : Via) (value : BitVec 64)
  | contextTableWrite (via : Via) (value : BitVec 64)
  | batchClose (fn : Nat)
  | heldFaultWrite (fn : Nat)
  | faultRingEnable (fn : Nat) (value : Word)
  | faultRetry (fn : Nat) (tag : BitVec 32)
  | faultFail (fn : Nat) (tag : BitVec 32)
  | invalidateDrain (value : Word)
  | invalidateAbort (value : Word)
  | invalidationComplete
  | accessNotification (die counter : Nat)
  | inboundRequest (port : Nat)
  | inboundCloseDrain (via : Via) (window : Nat)
  | inboundCloseAbort (via : Via) (window : Nat)
  | outboundClose (via : Via) (window : Nat)
  | apertureAccess (fn offset len : Nat) (data : Option Bytes)
  | irqCauseClear (fn : Nat) (value : Word)
  | functionPortWrite (via : Via) (fn : Nat) (value : BitVec 8)
  | objectTableWrite (via : Via) (value : BitVec 64)
  | queueCreate (via : Via) (addr : BitVec 64) (answer : HostAns)
  | queueDestroy (via : Via) (addr : BitVec 64) (answer : HostAns)
  | queueStop (via : Via) (addr : BitVec 64) (answer : HostAns)
  | queueStart (via : Via) (addr : BitVec 64) (answer : HostAns)
  | doorbell (fn localQ : Nat) (value : Word)
  | descriptorFetch (queue : Nat) (answer : HostAns)
  | run (queue : Nat)
  | move (queue : Nat)
  | sendCommand (queue : Nat)
  | recvCommand (queue : Nat)
  | wait (queue : Nat)
  | signal (queue : Nat)
  | commitGroup (queue : Nat)
  | commitRequest (queue seq : Nat)
  | commit (bight : Nat)
  | kill (bight : Nat)
  | killComplete (queue seq : Nat)
  | abort (via : Via) (value : BitVec 64)
  | sliceEnd (bight : Nat)
  | switchDone (bight : Nat) (answer : HostAns)
  | holdCeiling (queue seq : Nat)
  | fenceCreate (via : Via) (addr : BitVec 64) (answer : HostAns)
  | fenceDestroy (via : Via) (addr : BitVec 64) (answer : HostAns)
  | errorFenceWrite (via : Via) (bight : Nat) (value : BitVec 16)
  | contextTeardown (via : Via) (addr : BitVec 64) (answer : HostAns)
  | teardownComplete (asid : Nat)
  | pcieLinkDown (port : Nat)
  | trainingDone (port width firstLane : Nat)
  | trainingTimeout (port : Nat)
  | downRetry (port : Nat)
  | linkErrorDown (port : Nat)
  | flitReceived (port : Nat) (flit : Bytes) (fec : Fec)
  | replayTimeout (port : Nat)
  | readReq (port : Nat)
  | write (port : Nat)
  | readData (port : Nat)
  | writeDone (port : Nat)
  | notReadyResend (req : Nat)
  | reduce (port : Nat)
  | commitNotice (port : Nat)
  | withdraw (port : Nat)
  | abandon (port : Nat)
  | pace (port : Nat)
  | paceNoticeExpiry (group member : Nat)
  | paceHoldLimit (group : Nat)
  | txKeyWrite (via : Via) (port slot : Nat) (key : Bytes)
  | rxKeyWrite (via : Via) (port slot : Nat) (key : Bytes)
  | transmitSelection (via : Via) (port : Nat) (value : BitVec 8)
  | receiveSlotInvalidate (via : Via) (port : Nat) (value : BitVec 8)
  | slotArm (via : Via) (slot : BitVec 8)
  | slotFree (via : Via) (slot : BitVec 8)
  | slotAbort (via : Via) (slot : BitVec 8)
  | handoffRegionWrite (via : Via) (value : BitVec 64)
  | offer (port : Nat)
  | taken (port : Nat)
  | release (port : Nat)
  | handoffResend (slot : Nat)
  | handoffTimeout (slot : Nat)
  | heldTimeout (slot : Nat)
  | queryRepeat (slot : Nat)
  | prefetchCopyDone (slot : Nat) (answer : HostAns)
  | verdict (via : Via) (value : BitVec 64)
  | zeroizeDone (slot : Nat)
  | reportRemove (via : Via) (value : BitVec 16)
  | powerWindow (w : Window)
  | limit (n : Nat)
  | trimRun
  | trim (mhz : Nat)
  | capWrite (via : Via) (value : BitVec 32)
  | fixedFrequencyWrite (via : Via) (value : BitVec 8)
  | droop (half cycles : Nat)
  | wearUnit (die : Nat)
  | junctionSample (halfDegrees : List Int)
  | thermal (n : Nat)
  | trip (location : Nat) (halfDegrees : Int)
  | supplySample (centivolts : Nat)
  | reefEnter
  | reefExit
  | supplyReset
  | inputSwitchOn
  | supplyGood (nonce : Bytes)
  | bootGo (port : Nat) (value : Word)
  | imageVerified
  | ready (failedStacks : BitVec 32)
  | debugDisable (via : Via) (value : BitVec 32)
  | reportRequest (via : Via) (nonce : Bytes)
  | reportReady
  | measure (via : Via) (request : Bytes)
  | measureDone (answer : HostAns)
  | keyWrite (via : Via) (slot gen : Nat) (key : Bytes)
  | keyOwnerWrite (via : Via) (slot : Nat) (value : BitVec 8)
  | keyZeroize (via : Via) (slot : Nat) (value : BitVec 8)
  | keyErase (slot gen : Nat)
  | keyRotation (via : Via) (slot : Nat) (request : Bytes)
  | frameMove (slot : Nat)
  | rotationComplete (slot : Nat)
  | tenantRemoval (via : Via) (value : BitVec 16)
  | mboxRead (port index sub len : Nat) (bufferOk : Bool)
  | mboxWrite (port index sub len : Nat) (buffer answer : HostAns)
  | mboxDescribe (port index sub len : Nat)
  | datagramRead (datagram : Bytes)
  | datagramWrite (datagram : Bytes)
  | datagramDescribe (datagram : Bytes)
  | modbusReadHolding (conn address count : Nat)
  | modbusReadInput (conn address count : Nat)
  | networkConfigWrite (via : Via) (sub : Nat) (value : BitVec 32)
  | managementKeyWrite (via : Via) (keyId : Nat) (key : Bytes)
  | counterSnapshot (via : Via) (value : BitVec 8)
  | perst
  | perstPort1
  | resetIn
  | watchdog
  | dictionaryReset (via : Via) (value : BitVec 32)
  | rootstockEntry
  | rootstockExit (via : Via) (value : BitVec 8)
  | eventLogRemove (via : Via) (value : BitVec 16)
  | fetchException (core : Nat)
  | pcieCompletion (req : Nat) (answer : HostAns)
  | completionTimeout (req : Nat)
  | errorsWindowExpiry
  | resetInRelease
  | sgmiiAutoNegotiation (link : Bool) (mbps : Nat)
  | modbusConnection (conn : Nat)
  | modbusOtherFunctionCode (conn code : Nat)
  | mboxCommandOutOfRange (port op index sub len : Nat)
deriving DecidableEq, Repr

end Sys2Proof
end

