-- ==== Sys2Proof/Decode.lean ====
section
/-! DEFINITION. The commands that words spell. No row of the table gives a bit of an encoding: the commands reach the
module as register writes, packets, pins and events, and no word spells one. -/

namespace Sys2Proof

/-- The command that the low `nbits` bits of `w` spell by the table's bits: none, since no row gives bits. -/
def decodeTableWord (_nbits _w : Nat) : Option Instr := none

end Sys2Proof
end

