-- ==== Sys2Proof/Config.lean ====
section
/-! DEFINITION. The values the spec leaves open. Each constant below is opaque: nothing can evaluate it or prove a
value of it, so a claim about it holds for every value. The assumption log names each group. -/

namespace Sys2Proof.Config

/-- A fresh free value for each argument (State.fresh supplies the argument and is advanced at each use). -/
opaque freeWord : Nat → Word
/-- A fresh free natural number. -/
opaque freeNat : Nat → Nat
/-- A fresh free byte string. -/
opaque freeBytes : Nat → Bytes

/-! ### Results of core instructions that the spec names without stating them (log 5) -/

/-- CMP: the integer compare's result, a function of its two operands and its function field. -/
opaque cmp : Nat → Word → Word → Word
/-- SEL: whether the first operand is the one selected, from the old destination and the two operands. -/
opaque selFirst : Word → Word → Word → Bool
/-- A scalar shift by 64 or more: kind (0 SHL, 1 SHR, 2 SRA), value, amount. -/
opaque shiftBeyond : Nat → Word → Word → Word
/-- A vector lane shift by the lane width or more: lane width, value and amount of the lane. -/
opaque laneShiftBeyond : Nat → BitVec 32 → BitVec 32 → BitVec 32
/-- VCMP: the FP32 compare's lane result from the two lanes and the function field. -/
opaque vcmp : Nat → BitVec 32 → BitVec 32 → BitVec 32
/-- VMIN, VMAX, VREDMAX: whether a NaN operand makes the result NaN (IEEE 754-2019 has both kinds of operation). -/
opaque minMaxNaN : Bool
/-- AMOMAX: whether the words are compared as signed numbers. -/
opaque amoMaxSigned : Bool
/-- VREDMAX: whether the lanes are FP32 (otherwise INT32, signed). -/
opaque redMaxFloat : Bool
/-- VSEL: whether a lane takes va's value, from va's, vb's and vc's lanes. -/
opaque vselFirst : BitVec 32 → BitVec 32 → BitVec 32 → Bool
/-- VPERM: the source lane of each result lane, from the control vector. -/
opaque permLane : Vec → Nat → Nat
/-- VBCAST: the lane of va that is copied to every lane, from the vb field. -/
opaque bcastLane : Nat → Nat
/-- VCVT: the half of the destination that the sixteen converted 16-bit lanes do not fill, and which half of va a
widening conversion reads. -/
opaque vcvtRest : Vec → Vec → BitVec 256
opaque vcvtHigh : Nat → Bool
/-- VPACK.MX: the block scale, the choice between the two codes that enclose a lane's value, the code of a lane that is not
finite, and what the rest of the vector holds, from the element type and the two source vectors. -/
opaque packScale : Nat → Vec → Vec → Nat
opaque packPick : Nat → Nat → BitVec 32 → Nat
opaque packSpecial : Nat → Nat → BitVec 32 → Nat
opaque vpackRest : Nat → Vec → Vec → Vec
/-- The transcendental functions that the spec bounds by 2 ulp: which of the values within that bound is taken, and the result
for an input without a finite result: operation (0 XEXP2, 1 XLOG2, 5 XSINPI, 6 XCOSPI, 7 XTANH) and lane. -/
opaque xuPick : Nat → BitVec 32 → Nat
opaque xuSpecial : Nat → BitVec 32 → BitVec 32
/-- XRCP, XRSQRT: which of the values within 1 ulp of the exact result is taken, by its place among them. -/
opaque rcpPick : BitVec 32 → Nat
opaque rsqrtPick : BitVec 32 → Nat
/-- XRCP, XRSQRT of an input that has no finite result: a zero, an infinity, a NaN, and for XRSQRT a negative number. -/
opaque rcpSpecial : BitVec 32 → BitVec 32
opaque rsqrtSpecial : BitVec 32 → BitVec 32
/-- The CL_FFLAGS bits that a lane of a transcendental or of VCVT sets: operation (0 XEXP2 to 7 XTANH, 8 VCVT) and lane. -/
opaque xuFlags : Nat → BitVec 32 → BitVec 5
/-- Underflow: whether tininess is detected after rounding (IEEE 754-2019 allows both). -/
opaque tinyAfter : Bool
/-- VFMA of a zero, an infinity and a quiet NaN: whether it signals invalid (IEEE 754-2019 leaves it open). -/
opaque fmaQuietInvalid : Bool
/-- VCMP: whether the function field's predicate signals invalid on a quiet NaN. -/
opaque vcmpSignals : Nat → Bool
/-- Branches and jumps: whether the offset counts from the instruction after the branch (otherwise from the branch). -/
opaque branchFromNext : Bool
/-- LOOP inside two active loops: whether the outermost loop is the one lost (otherwise the new one is). -/
opaque loopDropsOuter : Bool
/-- LOOP with a count of zero: the program counter after it. -/
opaque loopZeroPc : Word → Word
/-- The unit field of a fault report for an exception that R126 gives no unit: cause and program counter. -/
opaque systemUnit : Nat → Word → Nat
/-- The DMA stream, 0 to 7, that carries a command's transfer, from queue and sequence number. -/
opaque streamOf : Nat → Nat → Nat

/-- The sub-cause of a bus error from an HBM stack that is OFF (R34, R126 lists none). -/
opaque stackOffSub : Nat
/-- The member that carries piece i of a transfer spread over N members: queue, sequence number, piece, N. -/
opaque spreadOf : Nat → Nat → Nat → Nat → Nat
/-- The order of the 36 symbols of an HBM code word in the code polynomial (R321): each symbol has an exponent of its own below 36,
which one is open. `rsPlace i` is that of symbol i, where symbols 0 to 31 are the data and 32 to 35 the check symbols. -/
opaque rsOrder : Equiv.Perm (Fin 36)
def rsPlace (i : Nat) : Nat := if h : i < 36 then rsOrder ⟨i, h⟩ else i

/-- How the check bits of a word differ from valid ones when the carry flow of a relash writes it for a word of a retired row block
(R276, R303, R306; log 213). -/
opaque lostCheck : Nat → BitVec 17

/-- The payload flit of a DOMAIN message (R239): whether it goes back to the management processor, the domain, and the state's code. -/
opaque domainFlit : Bool → Nat → Nat → BitVec 32

end Sys2Proof.Config
end

