-- ==== Sys2Proof/Machine/Tab.lean ====
section
/-! DEFINITION. Sparse tables in one canonical form (keys strictly rising, no entry equal to the value an absent key
reads as), and byte memory as such a table whose absent bytes read zero. -/

namespace Sys2Proof

/-- The entry of key `k`, if there is one. -/
def Tab.find? {α : Type} : Tab α → Nat → Option α
  | [], _ => none
  | (j, v) :: t, k => if j = k then some v else Tab.find? t k

/-- What key `k` reads as, when absent keys read `d`. -/
def Tab.look {α : Type} (d : α) (t : Tab α) (k : Nat) : α := (Tab.find? t k).getD d

/-- The table without key `k`. -/
def Tab.erase {α : Type} : Tab α → Nat → Tab α
  | [], _ => []
  | (j, v) :: t, k => if j = k then Tab.erase t k else (j, v) :: Tab.erase t k

/-- The table with `v` at key `k`, its keys still rising. -/
def Tab.set {α : Type} : Tab α → Nat → α → Tab α
  | [], k, v => [(k, v)]
  | (j, w) :: t, k, v =>
    if k < j then (k, v) :: (j, w) :: t
    else if k = j then (k, v) :: t
    else (j, w) :: Tab.set t k v

/-- The table with `v` at key `k`, where absent keys read `d`: no entry equal to `d` is kept. -/
def Tab.put {α : Type} [DecidableEq α] (d : α) (t : Tab α) (k : Nat) (v : α) : Tab α :=
  if v = d then Tab.erase t k else Tab.set t k v

/-- The keys that have an entry. -/
def Tab.keys {α : Type} (t : Tab α) : List Nat := t.map (·.1)

/-- The values of the entries, in key order. -/
def Tab.vals {α : Type} (t : Tab α) : List α := t.map (·.2)

/-- Every entry changed by `f`. -/
def Tab.mapVals {α β : Type} (f : Nat → α → β) (t : Tab α) : Tab β := t.map fun e => (e.1, f e.1 e.2)

/-- Every entry changed by `f`, entries that become the default `d` removed. -/
def Tab.mapPut {α : Type} [DecidableEq α] (d : α) (f : Nat → α → α) (t : Tab α) : Tab α :=
  (Tab.mapVals f t).filter fun e => decide (e.2 ≠ d)

/-- The keys rise strictly from just above `lo`. -/
def Tab.risingFrom {α : Type} : Option Nat → Tab α → Bool
  | _, [] => true
  | lo, (j, _) :: t => lo.all (decide <| · < j) && Tab.risingFrom (some j) t

/-- The canonical form: keys strictly rising, no entry equal to the default. -/
def Tab.wf {α : Type} [DecidableEq α] (d : α) (t : Tab α) : Bool :=
  Tab.risingFrom none t && t.all fun e => decide (e.2 ≠ d)

/-! ### Byte memory (R10, R32, R34: a byte that nothing has written reads zero) -/

/-- The canonical form of memory. -/
def Memory.wf (m : Tab Byte) : Bool := Tab.wf 0 m

/-- The byte at an address. -/
def Memory.byte (m : Tab Byte) (a : Nat) : Byte := Tab.look 0 m a

/-- Memory with one byte written. -/
def Memory.setByte (m : Tab Byte) (a : Nat) (b : Byte) : Tab Byte := Tab.put 0 m a b

/-- The `n` bytes from an address. -/
def Memory.read (m : Tab Byte) (a n : Nat) : Bytes := (List.range n).map fun i => Memory.byte m (a + i)

/-- Memory with bytes written from an address upwards. -/
def Memory.write : Tab Byte → Nat → Bytes → Tab Byte
  | m, _, [] => m
  | m, a, b :: bs => Memory.write (Memory.setByte m a b) (a + 1) bs

/-- Memory with the `n` bytes from an address zero. -/
def Memory.clear (m : Tab Byte) (a n : Nat) : Tab Byte := m.filter fun e => ! (decide (a ≤ e.1) && decide (e.1 < a + n))

end Sys2Proof
end

