-- ==== Sys2Proof/Machine/Bits.lean ====
section
/-! DEFINITION. Bit fields, byte order (R14: little-endian everywhere), sign extension and rounding of quotients. -/

namespace Sys2Proof

/-- The field of `w` bits from bit `lo` of a number. -/
def fieldN (x lo w : Nat) : Nat := x / 2 ^ lo % 2 ^ w

/-- Bit `i` of a number. -/
def bitN (x i : Nat) : Bool := x.testBit i

/-- The number that bytes spell, least significant byte first (R14). -/
def leNat : Bytes → Nat
  | [] => 0
  | b :: bs => b.toNat + 256 * leNat bs

/-- The `n` bytes of a number, least significant first (R14). -/
def leBytes : Nat → Nat → Bytes
  | 0, _ => []
  | n + 1, x => BitVec.ofNat 8 x :: leBytes n (x / 256)

/-- The `n` bytes of a number, most significant first. -/
def beBytes (n x : Nat) : Bytes := (leBytes n x).reverse

/-- The number that bytes spell, most significant byte first. -/
def beNat (b : Bytes) : Nat := leNat b.reverse

/-- `n` bytes of `b` from offset `o`; bytes past the end read zero. -/
def slice (b : Bytes) (o n : Nat) : Bytes := (List.range n).map fun i => b.getD (o + i) 0

/-- The little-endian field of `n` bytes at offset `o`. -/
def leAt (b : Bytes) (o n : Nat) : Nat := leNat (slice b o n)

/-- All bytes zero. -/
def allZero (b : Bytes) : Bool := b.all (· == 0)

/-- `b` with `d` in place of its bytes from offset `o`. -/
def splice (b : Bytes) (o : Nat) (d : Bytes) : Bytes := b.take o ++ d ++ b.drop (o + d.length)

/-- A `w`-bit field read as a two's-complement number. -/
def sext (w x : Nat) : Int := if x % 2 ^ w < 2 ^ (w - 1) then (x % 2 ^ w : Int) else (x % 2 ^ w : Int) - 2 ^ w

/-- The 64-bit word of an integer, modulo 2^64. -/
def wordOfInt (x : Int) : Word := BitVec.ofInt 64 x

/-- The quotient rounded to the nearest integer, an exact tie to the even one (R69). -/
def divNearest (a b : Nat) : Nat :=
  let q := a / b
  let r := a % b
  if 2 * r < b then q else if b < 2 * r then q + 1 else if q % 2 = 0 then q else q + 1

/-- The quotient rounded up. -/
def divUp (a b : Nat) : Nat := (a + b - 1) / b

/-- A saturating count. -/
def satAdd (max x n : Nat) : Nat := min max (x + n)

/-- The list with its `i`-th element changed. -/
def modifyAt {α : Type} (f : α → α) : List α → Nat → List α
  | [], _ => []
  | a :: t, 0 => f a :: t
  | a :: t, i + 1 => a :: modifyAt f t i

/-- The list without its `i`-th element. -/
def dropAt {α : Type} : List α → Nat → List α
  | [], _ => []
  | _ :: t, 0 => t
  | a :: t, i + 1 => a :: dropAt t i

/-- The list without `x`. -/
def without (l : List Nat) (x : Nat) : List Nat := l.filter (· != x)

/-- The list with `x` in it, once. -/
def withOne (l : List Nat) (x : Nat) : List Nat := if l.contains x then l else l ++ [x]

/-- A vector as its sixteen 32-bit lanes, lane 0 in the low bits. -/
def lanes32 (v : Vec) : List (BitVec 32) := (List.range 16).map fun i => v.extractLsb' (32 * i) 32

/-- A vector as lanes of `w` bits. -/
def lanesOf (w : Nat) (v : Vec) : List (BitVec w) := (List.range (512 / w)).map fun i => v.extractLsb' (w * i) w

/-- A vector from its lanes of `w` bits. -/
def ofLanes {w : Nat} : List (BitVec w) → Vec
  | [] => 0
  | b :: bs => (b.setWidth 512) ||| (ofLanes bs <<< w)

/-- A vector from 64 bytes. -/
def vecOfBytes (b : Bytes) : Vec := BitVec.ofNat 512 (leNat b)

/-- The 64 bytes of a vector. -/
def vecBytes (v : Vec) : Bytes := leBytes 64 v.toNat

/-- A word from bytes, zero-extended. -/
def wordOfBytes (b : Bytes) : Word := BitVec.ofNat 64 (leNat b)

/-- The eight bytes of a word. -/
def wordBytes (w : Word) : Bytes := leBytes 8 w.toNat

/-- Bits set in a 64-bit map, ascending. -/
def bitsOf (w : BitVec 64) : List Nat := (List.range 64).filter fun i => w.getLsbD i

/-- XOR of all bytes' integers in a list. -/
def xorAll (l : List Nat) : Nat := l.foldl (· ^^^ ·) 0

end Sys2Proof
end

