-- ==== Sys2Proof/Machine/Geometry.lean ====
section
/-! DEFINITION. Where things are: core, cluster, half-die and die numbers, attachments, the physical address map, hop
latencies and gate routers. -/

namespace Sys2Proof.Machine

/-! ### Numbering (R9, R18, R24) -/

def coreX (id : Nat) : Nat := id % 128
def coreY (id : Nat) : Nat := id / 128
/-- The core at mesh position (x, y) (R9). -/
def coreAt (x y : Nat) : Nat := 128 * y + x
/-- The place of a core within its cluster (R9). -/
def coreK (id : Nat) : Nat := 4 * (coreY id % 4) + coreX id % 4
/-- The cluster of a core (R9). -/
def clusterOf (id : Nat) : Nat := 32 * (coreY id / 4) + coreX id / 4
/-- Core `k` of cluster `c` (R9). -/
def coreOf (c k : Nat) : Nat := coreAt (4 * (c % 32) + k % 4) (4 * (c / 32) + k / 4)
/-- The sixteen cores of a cluster. -/
def coresOf (c : Nat) : List Nat := (List.range 16).map (coreOf c)
def clusterX (c : Nat) : Nat := c % 32
def clusterY (c : Nat) : Nat := c / 32
def clusterAt (x y : Nat) : Nat := 32 * y + x
/-- The die of a cluster (R9, R18). -/
def dieOfCluster (c : Nat) : Nat := 4 * (clusterY c / 4) + clusterX c / 8
/-- The half-die 2d + s of a cluster, s = 0 west (R9, R28). -/
def halfOfCluster (c : Nat) : Nat := 2 * dieOfCluster c + (if clusterX c % 8 < 4 then 0 else 1)
/-- The half-die of a router. -/
def halfOfRouter (r : Nat) : Nat := halfOfCluster (clusterOf r)
/-- The clusters of a half-die. -/
def clustersOfHalf (h : Nat) : List Nat := (List.range 512).filter fun c => halfOfCluster c == h
/-- The router at half-die coordinates (u, v) (R219). -/
def routerAt (h u v : Nat) : Nat :=
  let d := h / 2
  coreAt (32 * (d % 4) + 16 * (h % 2) + u) (16 * (d / 4) + v)

/-! ### Domain indices (R28) -/

def domHalf (h : Nat) : Nat := 512 + h
def domStack (st : Nat) : Nat := 544 + st
def domPort (p : Nat) : Nat := 576 + p
def domDie (d : Nat) : Nat := 624 + d
def domMgmt : Nat := 640

/-- The kinds of power domain (R28). -/
inductive DomKind where
  | cluster (c : Nat) | half (h : Nat) | stack (st : Nat) | port (p : Nat) | die (d : Nat) | mgmt | none
deriving DecidableEq, Repr

/-- What a domain index names (R28). -/
def domKind (i : Nat) : DomKind :=
  if i < 512 then .cluster i
  else if i < 544 then .half (i - 512)
  else if i < 576 then .stack (i - 544)
  else if i < 624 then .port (i - 576)
  else if i < 640 then .die (i - 624)
  else if i = 640 then .mgmt
  else .none

/-! ### Attachments (R19 to R21) -/

/-- The die of link block b (R19). -/
def dieOfBlock (b : Nat) : Nat := [0, 1, 2, 3, 7, 11, 15, 14, 13, 12, 8, 4].getD b 0
def dieOfPort (p : Nat) : Nat := dieOfBlock (p / 4)
/-- The half-die a link port attaches to (R21). -/
def halfOfPort (p : Nat) : Nat :=
  let d := dieOfPort p
  let east := if d = 7 ∨ d = 11 then 1 else if d = 4 ∨ d = 8 then 0 else if p % 4 < 2 then 0 else 1
  2 * d + east
/-- The half-die a stack attaches to (R20): stack 2d + s attaches to half-die 2d + s. -/
def halfOfStack (st : Nat) : Nat := st
def stackOfGroup (g : Nat) : Nat := g / 2
def halfOfGroup (g : Nat) : Nat := halfOfStack (stackOfGroup g)
def dieOfGroup (g : Nat) : Nat := halfOfGroup g / 2
/-- The half-die a PCIe port attaches to (R19, R219). -/
def halfOfPcie (p : Nat) : Nat := if p = 0 then 0 else 7
/-- The die of a domain index (R28). -/
def dieOfDomain (i : Nat) : Nat :=
  match domKind i with
  | .cluster c => dieOfCluster c
  | .half h => h / 2
  | .stack st => halfOfStack st / 2
  | .port p => dieOfPort p
  | .die d => d
  | .mgmt => 0
  | .none => 0
/-- The half-die a domain needs ON (R30). -/
def halfOfDomain (i : Nat) : Option Nat :=
  match domKind i with
  | .cluster c => some (halfOfCluster c)
  | .stack st => some (halfOfStack st)
  | .port p => some (halfOfPort p)
  | _ => Option.none

/-! ### Addresses (R10, R11, R315) -/

def hbmLimit : Nat := 0x018000000000
def sramBase : Nat := 0x400000000000
def sramStride : Nat := 0x08000000
def sramUsed : Nat := 0x06000000
def groupBytes : Nat := 0x600000000

/-- What a module physical address names. -/
inductive Region where
  | hbm (group : Nat)
  | sram (cluster : Nat)
  | mmio
  | reserved
deriving DecidableEq, Repr

/-- The region of a module physical address (R10, R11). -/
def regionOf (a : Nat) : Region :=
  if a < hbmLimit then .hbm (a / groupBytes)
  else if a < sramBase then .reserved
  else if a < sramBase + 512 * sramStride then
    if (a - sramBase) % sramStride < sramUsed then .sram ((a - sramBase) / sramStride) else .reserved
  else if a < 0x700000000000 then .reserved
  else if a < 0x1000000000000 then .mmio
  else .reserved

/-- The physical address of offset `o` in cluster `c`'s SRAM. -/
def sramAddr (c o : Nat) : Nat := sramBase + (sramStride * c + o)

/-- The SRAM bank, 0 to 23, of an offset in a cluster's stride (R26, R106): one bank per core's local memory, eight banks of
shared memory chosen by address bits [8:6]. -/
def sramBank (o : Nat) : Nat := if o < 0x04000000 then o / 0x400000 else 16 + o / 64 % 8

/-- The channel of an HBM offset (R316). -/
def hbmChannel (o : Nat) : Nat := (o / 256 % 16) ^^^ (o / 65536 % 16)

/-! ### Hops (R22) and paths (R223) -/

/-- The latency in cycles of an east-west hop from column x to x + 1 (R22). -/
def hopX (x : Nat) : Nat := if x % 32 = 15 then 2 else if x % 32 = 31 then 4 else 1
/-- The latency of a north-south hop from row y to y + 1 (R22). -/
def hopY (y : Nat) : Nat := if y % 16 = 15 then 4 else 1

/-- The neighbour of a router through a mesh output (1 N, 2 E, 3 S, 4 W), the input it enters there, and the hop's latency;
none at the module's edge. -/
def neighbour (r out : Nat) : Option (Nat × Nat × Nat) :=
  let x := coreX r
  let y := coreY r
  match out with
  | 1 => if y = 0 then none else some (coreAt x (y - 1), 3, hopY (y - 1))
  | 2 => if x ≥ 127 then none else some (coreAt (x + 1) y, 4, hopX x)
  | 3 => if y ≥ 63 then none else some (coreAt x (y + 1), 1, hopY y)
  | 4 => if x = 0 then none else some (coreAt (x - 1) y, 2, hopX (x - 1))
  | _ => none

/-- The mesh output that leads from a router to its neighbour on a path. -/
def outTowards (a b : Nat) : Nat :=
  if coreX a < coreX b then 2 else if coreX b < coreX a then 4 else if coreY a < coreY b then 3 else 1

/-- The latency of the hop from a router to its neighbour on a path (R22). -/
def hopLatency (a b : Nat) : Nat := match neighbour a (outTowards a b) with | some (_, _, l) => l | none => 1

/-- The numbers from `a` to `b`, both included, in the direction of travel. -/
def walkTo (a b : Nat) : List Nat :=
  if a ≤ b then (List.range (b - a + 1)).map (a + ·) else (List.range (a - b + 1)).map (a - ·)

/-- The routers from `a` to `b`, first along x, then along y (R223). -/
def pathXY (a b : Nat) : List Nat :=
  (walkTo (coreX a) (coreX b)).map (fun x => coreAt x (coreY a)) ++
    ((walkTo (coreY a) (coreY b)).drop 1).map (fun y => coreAt (coreX b) y)

/-- The routers from `a` to `b`, first along y, then along x (R356). -/
def pathYX (a b : Nat) : List Nat :=
  (walkTo (coreY a) (coreY b)).map (fun y => coreAt (coreX a) y) ++
    ((walkTo (coreX a) (coreX b)).drop 1).map (fun x => coreAt x (coreY b))

/-- The distance between two routers. -/
def manhattan (a b : Nat) : Nat :=
  ((coreX a : Int) - coreX b).natAbs + ((coreY a : Int) - coreY b).natAbs

/-! ### Gate routers (R219) -/

/-- The link ports of a half-die, ascending (R219). -/
def portsOfHalf (h : Nat) : List Nat := (List.range 48).filter fun p => halfOfPort p == h

/-- The gate routers of channel group g. -/
def gatesOfGroup (g : Nat) : List Nat :=
  (List.range 8).map fun i => routerAt (halfOfGroup g) (2 * i + 1) (if g % 2 = 0 then 2 else 13)

/-- The gate routers of link port p. -/
def gatesOfPort (p : Nat) : List Nat :=
  let q := (portsOfHalf (halfOfPort p)).findIdx (· == p)
  [routerAt (halfOfPort p) (4 * q + 1) 7, routerAt (halfOfPort p) (4 * q + 3) 7]

/-- The gate routers of PCIe port p. -/
def gatesOfPcie (p : Nat) : List Nat := [routerAt (halfOfPcie p) 7 10, routerAt (halfOfPcie p) 9 10]

/-- The walker gate of half-die h (R356). -/
def walkerGate (h : Nat) : Nat := routerAt h 0 8

/-- The D-port routers of a cluster: cores 0, 5, 10, 15 (R197). -/
def dRouter (c q : Nat) : Nat := coreOf c (5 * q)

/-! ### Lanyard stops (R232) -/

def stopHalf (h : Nat) : Nat := 0x200 + h
def stopGroup (g : Nat) : Nat := 0x220 + g
def stopPort (p : Nat) : Nat := 0x260 + p
def stopDie (d : Nat) : Nat := 0x290 + d
def stopPcie (p : Nat) : Nat := 0x2A0 + p
def stopMgmt : Nat := 0x2A2
def stopAll : Nat := 0x3FF

/-- The power domain of a Lanyard stop; none for a reserved address (R232). -/
def domainOfStop (a : Nat) : Option Nat :=
  if a < 0x200 then some a
  else if a < 0x220 then some (domHalf (a - 0x200))
  else if a < 0x260 then some (domStack (stackOfGroup (a - 0x220)))
  else if a < 0x290 then some (domPort (a - 0x260))
  else if a < 0x2A0 then some (domDie (a - 0x290))
  else if a = 0x2A0 then some (domDie 0)
  else if a = 0x2A1 then some (domDie 3)
  else if a = 0x2A2 then some domMgmt
  else none

end Sys2Proof.Machine
end

