-- ==== Sys2Proof/Machine/BlocksModule.lean ====
section
/-! DEFINITION. The module-wide blocks of the state: fuses, supply and boot, frame, power domains, energy, power and heat,
logs, Rootstock, the Dictionary's own objects and the two management transports. Every field's docstring reads
`content | width | rule | value at reset`. -/

namespace Sys2Proof.Machine

/-- A power domain's state (R29: 0 OFF, 1 LOW, 2 ON, 3 CHANGING). -/
inductive DomState where
  | off | low | on | changing
deriving DecidableEq, Repr

/-- One power domain. -/
structure Domain where
  /-- reported state | 2 bits | R29 | OFF (management domain 640: ON from supply good) -/
  state : DomState := .off
  /-- state the transition in progress leads to | 2 bits | R35 | OFF -/
  target : DomState := .off
  /-- state the transition in progress left | 2 bits | R35 | OFF -/
  origin : DomState := .off
  /-- requests held while CHANGING, in arrival order | list of states | R36 | empty -/
  held : List DomState := []
deriving DecidableEq, Repr

/-- What test and the fuses fix for one module; it survives every reset. DESIGN CHOICE values (log 4). -/
structure Fuses where
  /-- ordering grade, 0 NG48-H, 1 NG48-M, 2 NG48-L | UINT8 | R633 | instance value, DESIGN CHOICE 0 -/
  grade : Nat := 0
  /-- graded-out clusters, ascending | 512 bits | R4 | instance value, DESIGN CHOICE none -/
  gradedOut : List Nat := []
  /-- silicon revision | UINT8 | R633 | instance value, DESIGN CHOICE 0 -/
  revision : Nat := 0
  /-- management MAC address | 6 bytes | R633 | instance value, DESIGN CHOICE zero -/
  mac : Bytes := List.replicate 6 0
  /-- RSA identity modulus, big-endian | 384 bytes | R573 | instance value, DESIGN CHOICE zero -/
  rsaModulus : Bytes := List.replicate 384 0
  /-- sealed private exponent of the RSA identity key, big-endian | 384 bytes | R573 | instance value, DESIGN CHOICE zero -/
  rsaPrivate : Bytes := List.replicate 384 0
  /-- SLH-DSA identity public key | 48 bytes | R573 | instance value, DESIGN CHOICE zero -/
  slhPub : Bytes := List.replicate 48 0
  /-- sealed SLH-DSA identity private key: SK.seed, then SK.prf | 48 bytes | R573 | instance value, DESIGN CHOICE zero -/
  slhPrivate : Bytes := List.replicate 48 0
  /-- RSA certificate chain | bytes | R575 | instance value, DESIGN CHOICE empty -/
  rsaChain : Bytes := []
  /-- SLH-DSA certificate chain | bytes | R575 | instance value, DESIGN CHOICE empty -/
  slhChain : Bytes := []
  /-- digest of the firmware-signing RSA modulus | 384 bits | R579 | instance value, DESIGN CHOICE zero -/
  fwRsaDigest : BitVec 384 := 0
  /-- digest of the firmware-signing SLH-DSA key | 384 bits | R579 | instance value, DESIGN CHOICE zero -/
  fwSlhDigest : BitVec 384 := 0
  /-- digest of the debug-signing RSA modulus | 384 bits | R586 | instance value, DESIGN CHOICE zero -/
  dbgRsaDigest : BitVec 384 := 0
  /-- digest of the debug-signing SLH-DSA key | 384 bits | R586 | instance value, DESIGN CHOICE zero -/
  dbgSlhDigest : BitVec 384 := 0
  /-- debug-signing RSA modulus in the boot ROM | bytes | R586 | instance value, DESIGN CHOICE empty -/
  dbgRsaKey : Bytes := []
  /-- debug-signing SLH-DSA key in the boot ROM | bytes | R586 | instance value, DESIGN CHOICE empty -/
  dbgSlhKey : Bytes := []
  /-- boot ROM digest | 384 bits | R582 | instance value, DESIGN CHOICE zero -/
  romDigest : BitVec 384 := 0
  /-- blown steps of the rollback fuse, 0 to 64 | 64 bits | R583 | instance value, DESIGN CHOICE 0 -/
  rollback : Nat := 0
  /-- debug-disable fuse | 1 bit | R589 | instance value, DESIGN CHOICE not blown -/
  debugDisabled : Bool := false
  /-- blown wear units U_d of die d | 4,096 bits each | R554 | instance value, DESIGN CHOICE 0 -/
  wear : Tab Nat := []
  /-- CORE voltage in mV, key 8 × die + operating point (0 for 2,800 down to 6 for 1,200 MHz) | table | R545 | instance value, DESIGN CHOICE 0 -/
  voltage : Tab Nat := []
  /-- energy coefficient in pJ of one unit of an activity on die d, key 65,536 × d + the activity's code | table | R64 | instance value, DESIGN CHOICE 0 -/
  coef : Tab Nat := []
  /-- static power in mW of one ON cluster of die d at a clock in MHz and a voltage in mV, key 2^24 × d + 2^12 × clock + voltage | table | R64, R74 | instance value, DESIGN CHOICE 0 -/
  staticMw : Tab Nat := []
  /-- fused row-block retirements, as the low 22 bits of 0x5012.00 | list | R307 | instance value, DESIGN CHOICE none -/
  retired : List Nat := []
  /-- the fuse map's rows: bank (24 × cluster + bank), spare row 0 to 15, row it replaces | list | R291, R314 | instance value, DESIGN CHOICE none -/
  spareRows : List (Nat × Nat × Nat) := []
  /-- the fuse map's bit-columns: bank, spare column 0 to 7, bit-column it replaces | list | R291, R314 | instance value, DESIGN CHOICE none -/
  spareColumns : List (Nat × Nat × Nat) := []
deriving DecidableEq, Repr

/-- The supply input and the reset line. -/
structure Supply where
  /-- the last four input samples, newest first, in units of 10 mV | 4 × 16 bits | R563 | zero -/
  samples : List Nat := [0, 0, 0, 0]
  /-- consecutive 1 µs samples at or above 48.0 V | count | R566, R640 | 0 -/
  goodCount : Nat := 0
  /-- the input switch is in charge mode | 1 bit | R664 | set -/
  charging : Bool := true
  /-- the converters other than the management one run | 1 bit | R664 | clear -/
  converters : Bool := false
  /-- supply good has been met since the last reset | 1 bit | R640 | clear -/
  good : Bool := false
  /-- RESET_IN# is low | 1 bit | R671 | clear -/
  resetInLow : Bool := false
  /-- the module is held in reset | 1 bit | R637, R640 | set -/
  inReset : Bool := true
  /-- cause of the last reset; the latch survives every reset but SUPPLY | UINT8 | R637, R638 | 1 SUPPLY -/
  cause : Nat := 1
deriving DecidableEq, Repr

/-- The state field of SC_BOOT_STATUS (R576). -/
inductive BootState where
  | reset | waitImage | loading | verifying | starting | ready | rejected
deriving DecidableEq, Repr

/-- The boot registers and what the image and token left. -/
structure Boot where
  /-- SC_BOOT_STATUS state | 8 bits | R576 | RESET -/
  state : BootState := .reset
  /-- a thermal trip before READY has stopped the power-up sequence | 1 bit | R644 | clear -/
  halted : Bool := false
  /-- SC_BOOT_IMAGE | 64 bits | R576 | 0 -/
  image : Word := 0
  /-- SC_BOOT_LEN | 64 bits | R576 | 0 -/
  len : Word := 0
  /-- SC_BOOT_TOKEN | 64 bits | R576 | 0 -/
  token : Word := 0
  /-- SC_BOOT_NONCE, drawn at each reset | 32 bytes | R576 | zero until supply good draws it, DESIGN CHOICE -/
  nonce : Bytes := List.replicate 32 0
  /-- reject code | 8 bits | R580 | 0 -/
  reject : Nat := 0
  /-- token result | 8 bits | R588 | 0 -/
  tokenResult : Nat := 0
  /-- vendor-debug state | 1 bit | R584 | production -/
  vendorDebug : Bool := false
  /-- SCOPE in force | 32 bits | R587 | 0 -/
  scope : BitVec 32 := 0
  /-- PCIe port on which GO was written | 1 bit | R577 | 0 -/
  goPort : Nat := 0
  /-- request of the image's host read that is under way | optional | R577 | none -/
  imageRead : Option Nat := none
  /-- request of the token's host read that is under way | optional | R577 | none -/
  tokenRead : Option Nat := none
  /-- image as the host gave it; none after a host error | bytes, optional | R577 | none -/
  imageData : HostAns := none
  /-- token as the host gave it; none after a host error | bytes, optional | R577 | none -/
  tokenData : HostAns := none
  /-- time the last step of the rollback fuse was blown, or READY reached, ns | time | R583 | 0 -/
  stepAt : Nat := 0
  /-- FW_VERSION of the running image | 32 bits | R578 | 0 -/
  fwVersion : BitVec 32 := 0
  /-- SVN of the running image | 8 bits | R578 | 0 -/
  svn : Nat := 0
  /-- FLOOR of the running image | 8 bits | R578 | 0 -/
  floor : Nat := 0
  /-- BUILD_ID of the running image | 64 bits | R578 | 0 -/
  buildId : Word := 0
  /-- image digest | 384 bits | R582 | 0 -/
  imageDigest : BitVec 384 := 0
deriving DecidableEq, Repr

/-- The frame. Times are in ns. -/
structure Frame where
  /-- locked | 1 bit | R49, R82 | 0 -/
  locked : Bool := false
  /-- free-run bit | 1 bit | R51 | 0 -/
  freeRun : Bool := false
  /-- the last frame ended in free-run entry | 1 bit | R82 | 0 -/
  lastFreeEntry : Bool := false
  /-- period estimate P, ns | 32 bits | R49 | 10,000,000 (the nominal period) -/
  period : Nat := 10000000
  /-- nominal period, µs | UINT32 | R49, R82 | 10,000 -/
  nominalUs : Nat := 10000
  /-- a lock has occurred since reset | 1 bit | R49 | clear -/
  everLocked : Bool := false
  /-- frame counter | 48 bits | R54 | 0 -/
  counter : BitVec 48 := 0
  /-- preset waiting for the next boundary | 48 bits, optional | R55 | none -/
  preset : Option (BitVec 48) := none
  /-- time of the last boundary (of supply good before the first), ns | time | R49, R50 | 0 -/
  boundaryAt : Nat := 0
  /-- times of the last three edges, newest first, ns | times | R52 | none -/
  edges : List Nat := []
  /-- last accepted intervals, newest first, at most four, ns | times | R49 | none -/
  intervals : List Nat := []
  /-- an early edge was ignored in the current frame | 1 bit | R53 | clear -/
  earlyNow : Bool := false
  /-- an early edge was ignored in the frame before | 1 bit | R53 | clear -/
  earlyBefore : Bool := false
  /-- ignored early edges, 0x2013.01 | UINT32 | R50 | 0 -/
  earlyEdges : BitVec 32 := 0
  /-- free-run entries, 0x2013.02 | UINT32 | R51 | 0 -/
  freeEntries : BitVec 32 := 0
  /-- dropped debt, 0x2013.03 | UINT32 | R63 | 0 -/
  droppedDebt : BitVec 32 := 0
  /-- self-policy mode in force | 1 bit | R79 | 0 host-policy -/
  selfPolicy : Bool := false
  /-- policies written and not yet in force, each with its write time; none once a boundary has come too soon for it | list | R79, R60 | none -/
  policyNext : List (Nat × Option Nat) := []
deriving DecidableEq, Repr

/-- Module-level energy. Grants in mJ (none: unlimited), energies in pJ. -/
structure Energy where
  /-- module grant in force, none unlimited | UINT32 | R59 | 0xFFFF_FFFF unlimited -/
  grant : Option Nat := none
  /-- grants written and not yet in force, each with its write time; none once a boundary has come too soon for it | list | R60 | none -/
  grantNext : List (Option Nat × Option Nat) := []
  /-- effective module grant in the current frame, none unlimited | UINT32 | R62 | unlimited -/
  effective : Option Nat := none
  /-- measured module energy in the last frame | pJ | R82 | 0, DESIGN CHOICE: the spec gives none -/
  measured : Nat := 0
  /-- base reserve E_base | pJ | R61 | 0 (the first boundary writes 150 W × P) -/
  base : Nat := 0
  /-- the first boundary after reset has passed | 1 bit | R61 | clear -/
  pastFirst : Bool := false
  /-- debt of the module | pJ | R63 | 0 -/
  debt : Nat := 0
  /-- energy charged in this frame to bights since released | pJ | R61 | 0 -/
  releasedCharged : Nat := 0
  /-- modelled energy charged in this frame to bights since released, by die, pJ | count each | R61, R67 | 0 -/
  releasedModel : Tab Nat := []
  /-- activity of each cluster, router, HBM controller and link port, key 65,536 × its code + the activity's code | count each | R64 | 0 -/
  counts : Tab Nat := []
  /-- modelled energy of each die in the current frame | pJ | R66 | 0 -/
  dieModel : Tab Nat := []
  /-- scale factors s_d, 14 fraction bits | UINT16 × 16 | R66 | 0x4000 -/
  scale : Tab Nat := []
  /-- dies whose factor was clamped in the last frame | UINT16 | R66 | 0 -/
  clamped : BitVec 16 := 0
deriving DecidableEq, Repr

/-- Power, supply events, wear and heat. Temperatures in half degrees. -/
structure Power where
  /-- base clock f_B, MHz | UINT16 | R544, R571 | 2,500, the base clock (T_cap is 1 at reset) -/
  baseMhz : Nat := 2500
  /-- clock changes announced and not yet reached, oldest first: target MHz and target base-cycle count | list | R544 | none -/
  clockNext : List (Nat × Nat) := []
  /-- T_cap | 0 to 7 | R549 | 1 -/
  tCap : Nat := 1
  /-- time of the last change of T_cap, ns | time | R549 | 0 -/
  tCapAt : Nat := 0
  /-- the Trim controller has run since READY | 1 bit | R549 | clear -/
  trimRan : Bool := false
  /-- T_th | 0 to 7 | R560 | 0 -/
  tTh : Nat := 0
  /-- time of the last change of T_th, ns | time | R560 | 0 -/
  tThAt : Nat := 0
  /-- consecutive 100 µs samples with some half-die at 95 °C or above | count | R560 | 0 -/
  hotSamples : Nat := 0
  /-- consecutive 100 µs samples with every half-die at 92 °C or below | count | R560 | 0 -/
  coolSamples : Nat := 0
  /-- rises of T_th, 0x3031.00 | UINT32 | R560 | 0 -/
  tThRises : BitVec 32 := 0
  /-- power cap in W, none no cap | UINT32 | R550 | 0xFFFF_FFFF none -/
  cap : Option Nat := none
  /-- CAP_UNMET | 1 bit | R550 | 0 -/
  capUnmet : Bool := false
  /-- time of the last LIMIT message, ns | time, optional | R549 | none -/
  limitAt : Option Nat := none
  /-- a LIMIT message has arrived since the controller's last run | 1 bit | R549 | clear -/
  limitSeen : Bool := false
  /-- stress of each die since READY, in quarters of a nanosecond at the reference | count each | R554 | 0 -/
  stress : Tab Nat := []
  /-- wear units that each die has begun since READY | count each | R554 | 0 -/
  begun : Tab Nat := []
  /-- sharing steps in force, newest first: the bight raised at each | list | R551 | none -/
  shareSteps : List Nat := []
  /-- fixed-frequency mode selected, 0x3002.00 | 1 bit | R553 | 0 -/
  fixedFreq : Bool := false
  /-- boost permit, 0x3003.00 | 1 bit | R559 | 1 -/
  boostPermit : Bool := true
  /-- boost is not permitted before this time, ns | time | R566, R568 | 0 -/
  boostAfter : Nat := 0
  /-- excursion account in units of 0.2 µs | 0 to 50,000 | R541 | 50,000, full -/
  excursion : Nat := 50000
  /-- limiter reduction of every bight's duty under P_in,max | 1/16 units | R542 | 0 -/
  inputRed : Nat := 0
  /-- limiter reduction of the duty of the bights of die d | 1/16 units | R542 | 0 -/
  dieRed : Tab Nat := []
  /-- limiter reduction of the memory factor of die d's groups | 1/16 units | R542 | 0 -/
  memRed : Tab Nat := []
  /-- activity of each rail's limiter over the last 64 windows | 64 bits each | R542 | 0 -/
  limiterHistory : Tab (BitVec 64) := []
  /-- activity of the P_in,max limiter over the last 64 windows | 64 bits | R542 | 0 -/
  inputHistory : BitVec 64 := 0
  /-- limiter-active windows per rail, 0x3021, saturating | UINT32 each | R571 | 0 -/
  limiterWindows : Tab Nat := []
  /-- windows above P_in,max, 0x3022.00, saturating | UINT32 | R571 | 0 -/
  inputWindows : Nat := 0
  /-- rails whose limit without action was logged in this frame | list | R647 | none -/
  railLogged : List Nat := []
  /-- rail currents of the last window, 0x3020 | UINT16 each, 0.1 A | R540 | 0, DESIGN CHOICE: the spec gives none -/
  railCurrent : Tab Nat := []
  /-- the window means of the input power over the last 10 ms, newest first: when the window ended, and the sum and number of its samples | list | R549 | none -/
  inputLog : List (Nat × Nat × Nat) := []
  /-- mean input voltage of the last window | UINT16, 10 mV | R540 | 0, DESIGN CHOICE: the spec gives none -/
  inputV : Nat := 0
  /-- mean input power of the last frame, 0x3001.02 | UINT32, W | R571 | 0, DESIGN CHOICE: the spec gives none -/
  meanFrame : Nat := 0
  /-- sum and number of the input power samples of the current frame | W, samples | R571 | 0, 0 -/
  frameSum : Nat × Nat := (0, 0)
  /-- REEF | 1 bit | R564 | 0 -/
  reef : Bool := false
  /-- time the Reef in progress began, ns | time | R564 | 0 -/
  reefAt : Nat := 0
  /-- lowest V_f of the Reef in progress, 10 mV | UINT16 | R571 | 0xFFFF -/
  reefLow : Nat := 0xFFFF
  /-- Reef entries, 0x3010.02 | UINT32 | R564 | 0 -/
  reefEntries : BitVec 32 := 0
  /-- time in Reef, 0x3010.03, saturating | UINT32, µs | R571 | 0 -/
  reefTime : Nat := 0
  /-- duration of the last Reef, 0x3010.04 | UINT32, µs | R571 | 0 -/
  reefLast : Nat := 0
  /-- lowest V_f in the last Reef, 0x3010.05 | UINT16, 10 mV | R571 | 0xFFFF -/
  reefLastLow : Nat := 0xFFFF
  /-- readings of the junction sensors, last sample: cluster c, and 512 + h for the router block of half-die h | half degrees each | R560 | 0, DESIGN CHOICE: the spec gives none -/
  sensors : Tab Int := []
  /-- half-die temperatures, last sample | half degrees | R560 | 0, DESIGN CHOICE: the spec gives none -/
  halfTemp : Tab Int := []
  /-- half-die clock dividers r (absent: 1) | 1, 2 or 4 | R199, R561 | 1 -/
  divider : Tab Nat := []
  /-- base cycle of the last divider change of each half-die, and the cycles of its own clock until then | two counters each | R304 | 0 -/
  bankMark : Tab (Nat × Nat) := []
  /-- consecutive samples of half-die h at 100 °C or below while clocked down | count | R561 | 0 -/
  coolHalf : Tab Nat := []
  /-- fixed-frequency thermal duty cap of half-die h in 1/16 (absent: 16) | 4, 8 or 16 | R561 | 16 -/
  thermalCap : Tab Nat := []
  /-- stretched cycles of half-die h, 0x3050, saturating | UINT32 each | R543 | 0 -/
  stretched : Tab Nat := []
  /-- guard step in force on die d | 0 to 7 | R555, R558 | what the fused wear gives (log 218) -/
  guardStep : Tab Nat := []
  /-- dies whose CORE and SRAM rails a thermal trip has dropped | list | R562 | none -/
  railsDropped : List Nat := []
  /-- consecutive time every half-die and stack has read 85 °C or below, in 100 µs samples | count | R655 | 0 -/
  coolAll : Nat := 0
deriving DecidableEq, Repr

/-- Logs, Rootstock and the counters of the errors range. -/
structure Errors where
  /-- event log, oldest first: stamp, SEQ, EVENT, ARG | at most 256 × 16 bytes | R647 | empty -/
  events : List (BitVec 24 × BitVec 16 × BitVec 16 × BitVec 64) := []
  /-- SEQ of the next event | 16 bits | R647 | 0, DESIGN CHOICE: the spec gives none -/
  nextEvent : BitVec 16 := 0
  /-- entries replaced, 0x8020.03 | UINT32 | R647 | 0 -/
  replaced : BitVec 32 := 0
  /-- fault log, newest first: stamp, TYPE, payload flits | at most 64 × 32 bytes | R648 | empty -/
  faults : List (BitVec 24 × Nat × List Flit) := []
  /-- fault log select, 0x8030.00 | UINT8 | R658 | 0 -/
  faultSelect : Nat := 0
  /-- FAULT and DEAD_LETTER messages, 0x8030.02 | UINT32 | R658 | 0 -/
  faultTotal : BitVec 32 := 0
  /-- in Rootstock | 1 bit | R650 | clear -/
  rootstock : Bool := false
  /-- an entry to Rootstock is in progress | 1 bit | R655 | clear -/
  entering : Bool := false
  /-- Rootstock cause bits: ERRORS, TRIP, IMAGE | 3 bits | R650 | 0 -/
  causes : BitVec 3 := 0
  /-- time Rootstock was entered, ns | time | R647 | 0 -/
  rootstockAt : Nat := 0
  /-- Rootstock entries, 0x8001.02 | UINT32 | R658 | 0 -/
  entries : BitVec 32 := 0
  /-- threshold, 0x8010.00 | UINT16 | R649 | 16 -/
  threshold : Nat := 16
  /-- window, 0x8010.01 | UINT16, ms | R649 | 1,000 -/
  windowMs : Nat := 1000
  /-- times of the counted uncorrectable reads in the window, newest first, ns | list | R649 | empty -/
  countedAt : List Nat := []
deriving DecidableEq, Repr

/-- One management key (R627, R633). -/
structure MgmtKey where
  /-- the key, none when not set | 32 bytes, optional | R633 | none -/
  key : Option Bytes := none
  /-- COUNTER of the last request accepted | 64 bits, optional | R627 | none -/
  lastCounter : Option Nat := none
  /-- the request last accepted | bytes | R629 | empty -/
  lastRequest : Bytes := []
  /-- the cached response to it | bytes | R629 | empty -/
  lastResponse : Bytes := []
  /-- COUNTER of the next response | 64 bits | R627 | 1 -/
  nextResponse : Nat := 1
deriving DecidableEq, Repr

/-- The Dictionary's own objects and its three transports. -/
structure Dict where
  /-- expert enable of the mailbox, 0x1015.01 | UINT8 | R618 | 0 -/
  expertMbox : Bool := false
  /-- expert enable of Ethernet, 0x1015.02 | UINT8 | R618 | 0 -/
  expertEth : Bool := false
  /-- labels 0x1030.01 to .04 | UINT32 each | R634 | 0 -/
  labels : Tab Nat := []
  /-- IPv4 address, 0x1011.01 | UINT32 | R630 | 0 -/
  ip : Nat := 0
  /-- prefix length, 0x1011.02 | UINT8 | R633 | 24 -/
  prefixLen : Nat := 24
  /-- default gateway, 0x1011.03 | UINT32 | R633 | 0 -/
  gateway : Nat := 0
  /-- UDP port, 0x1011.04 | UINT16 | R633 | 48,211 -/
  udpPort : Nat := 48211
  /-- Modbus TCP enabled, 0x1011.05 | UINT8 | R633 | 1 -/
  modbusEnabled : Bool := true
  /-- management keys 0 to 3 | 4 keys | R633 | none set -/
  keys : Tab MgmtKey := []
  /-- 0x1017.01 to .04: accepted, dropped, resent, Modbus requests answered | UINT32 each | R633 | 0 -/
  counters : Tab Nat := []
  /-- open Modbus connections | at most 4 | R631 | none -/
  modbusConns : List Nat := []
  /-- Modbus registers that change every 1 ms, as they were last taken: address and value | 16 bits each | R632 | none taken -/
  modbusSnap : Tab Nat := []
  /-- SGMII link at 1,000 Mb/s | 1 bit | R675 | clear, DESIGN CHOICE: no negotiation has happened -/
  sgmiiUp : Bool := false
  /-- MG_MBOX_STATUS sequence | 16 bits | R623 | 0 -/
  mboxSeq : BitVec 16 := 0
  /-- MG_MBOX_STATUS length returned | 16 bits | R623 | 0 -/
  mboxLen : Nat := 0
  /-- MG_MBOX_STATUS OVERRUN | 1 bit | R625 | 0 -/
  mboxOverrun : Bool := false
  /-- MG_MBOX_STATUS status code | 8 bits | R621 | 0 -/
  mboxStatus : Nat := 0
  /-- MG_MBOX_STATUS state: 0 idle, 1 busy, 2 done | 8 bits | R623 | 0 idle -/
  mboxState : Nat := 0
  /-- MG_MBOX_DATA | 64 bits | R623 | 0 -/
  mboxData : Word := 0
  /-- MG_MBOX_BUF | 64 bits | R623 | 0 -/
  mboxBuf : Word := 0
  /-- status of the last Dictionary write of each transport (0 mailbox, 1 Ethernet) | 8 bits each | R621 | 0 -/
  lastStatus : Tab Nat := []
  /-- activity counts, key 16 × die + subindex | 64 bits each | R635 | 0 -/
  activity : Tab Nat := []
  /-- activity counts at the last snapshot, 0x9010 + d | UINT64 each | R635 | 0 -/
  snapshot : Tab Nat := []
  /-- snapshots taken, 0x9000.02 | UINT32 | R635 | 0, DESIGN CHOICE: the spec gives none -/
  snapshots : BitVec 32 := 0
deriving DecidableEq, Repr

/-- A frame that a rotation moves (R600): its context, its page, the level and address of its leaf, which of the leaf's frames it is,
where it begins, and the code words moved so far. -/
structure Moving where
  asid : Nat
  va : Nat
  level : Nat
  addr : Nat
  idx : Nat
  start : Nat
  done : Nat := 0
deriving DecidableEq, Repr

/-- One HBM key slot (R594, R598 to R602). -/
structure KeySlot where
  /-- owner function, none when unowned | UINT8 | R610 | 0xFF none -/
  owner : Option Nat := none
  /-- key of generation 0 | 64 bytes, optional | R594 | empty -/
  key0 : Option (BitVec 512) := none
  /-- key of generation 1 | 64 bytes, optional | R594 | empty -/
  key1 : Option (BitVec 512) := none
  /-- references held on generation 0 | count | R594 | 0 -/
  refs0 : Nat := 0
  /-- references held on generation 1 | count | R594 | 0 -/
  refs1 : Nat := 0
  /-- write generation W_s | 1 bit | R594 | 0 -/
  gen : Bool := false
  /-- ROTATING | 1 bit | R602 | 0 -/
  rotating : Bool := false
  /-- RETIRING | 1 bit | R602 | 0 -/
  retiring : Bool := false
  /-- ASIDs listed by the rotation in progress | at most 16 | R599 | none -/
  asids : List Nat := []
  /-- frames a held write has put ahead of the walk: ASID and leaf address, with which frame | list | R601 | none -/
  ahead : List (Nat × Nat) := []
  /-- frame that the rotation is moving | optional | R600 | none -/
  moving : Option Moving := none
  /-- zeroize requested for generation 0, and when, ns | time, optional | R598 | none -/
  erase0 : Option Nat := none
  /-- zeroize requested for generation 1, and when, ns | time, optional | R598 | none -/
  erase1 : Option Nat := none
  /-- frames moved by the last rotation | UINT32 | R610 | 0 -/
  moved : BitVec 32 := 0
  /-- unkeyed accesses | UINT32 | R597 | 0 -/
  unkeyed : BitVec 32 := 0
deriving DecidableEq, Repr

/-- A measurement that runs (R592): bight, kind, index, ASID, virtual address, length. -/
structure Measurement where
  bight : Nat
  kind : Nat
  index : Nat
  asid : Nat
  va : Nat
  len : Nat
deriving DecidableEq, Repr

/-- A tenant removal that runs (R605). -/
structure Removal where
  fn : Nat
  abort : Bool
  /-- when its invalidations were issued, ns | time | R605 | none -/
  since : Nat
  /-- its bights still being released | list | R605 | none -/
  bights : List Nat
deriving DecidableEq, Repr

/-- Attestation, measurement, keys and tenant removal. -/
structure Security where
  /-- key slots 0 to 63 | 64 slots | R594 | empty, unowned -/
  slots : Tab KeySlot := []
  /-- SEQ, reports produced since reset | 32 bits | R591 | 0 -/
  reportSeq : BitVec 32 := 0
  /-- the report being generated (its body before signature), none when none | bytes, optional | R590 | none -/
  generating : Option Bytes := none
  /-- the report last produced | bytes | R590 | empty -/
  report : Bytes := []
  /-- 0x7021.00 state: 0 none, 1 generating, 2 ready | 8 bits | R610 | 0 -/
  reportState : Nat := 0
  /-- the measurement that runs | optional | R592 | none -/
  measuring : Option Measurement := none
  /-- 0x7031.00 sequence, bight, result | 8 bits each | R593 | 0 -/
  measureSeq : BitVec 8 := 0
  measureBight : Nat := 0
  measureResult : Nat := 0
  /-- the removal that runs | optional | R605 | none -/
  removal : Option Removal := none
  /-- 0x7041.00 sequence, function, state, result | 8 bits each | R610 | 0 -/
  removalSeq : BitVec 8 := 0
  removalFn : Nat := 0
  removalState : Nat := 0
  removalResult : Nat := 0
  /-- late requests, 0x7042.00 | UINT32 | R606 | 0 -/
  late : BitVec 32 := 0
deriving DecidableEq, Repr

end Sys2Proof.Machine
end

