-- ==== Sys2Proof/Machine/BlocksCompute.lean ====
section
/-! DEFINITION. The compute and memory blocks of the state: cores, matrix engines, routers and circuits, the Lanyard, SRAM
protection, HBM controllers and port gates. Every field's docstring reads `content | width | rule | value at reset`. -/

namespace Sys2Proof.Machine

/-- What a core does. -/
inductive CoreRun where
  /-- no command has started it -/
  | idle
  | running
  /-- it has executed HALT (R90) -/
  | halted
  /-- it has raised an exception (R123) -/
  | excepted
  /-- halted for the debugger by EBREAK in vendor-debug (R126) -/
  | debug
  /-- stopped by a kill or a relash (R453, R273) -/
  | stopped
deriving DecidableEq, Repr

/-- Why a core's next instruction has not issued (R120 and R86, R106, R107). -/
inductive Stall where
  | credit | empty | full | barrier | farSlots | fault | fence | tileQueue | wake
  /-- a register that it names waits for a far load (R99); its unit -/
  | operand (unit : Nat)
deriving DecidableEq, Repr

/-- A hardware loop (R96): whether the bundle of its LOOP has ended, the first address of its body, bundles of its body,
bundles of it done in this pass, passes left. -/
structure Loop where
  armed : Bool
  start : Word
  bundles : Nat
  done : Nat
  left : Nat
deriving DecidableEq, Repr

/-- Where a load's data go. -/
inductive LoadDest where
  | none
  | scalar (rd : Nat) (signed : Bool)
  | vector (vd : Nat)
  | broadcast (vd : Nat)
deriving DecidableEq, Repr

/-- What the issue rule remembers of the first instruction of the open bundle (R97). -/
structure Slot0 where
  /-- unit: 0 ALU0, 1 ALU1, 2 BR, 3 LSU, 4 VEC, 5 XU, 6 NET, 7 system, 8 ALU0 or ALU1 -/
  unit : Nat
  integer : Bool
  /-- registers written: scalar n is n, vector n is 64 + n -/
  writes : List Nat
deriving DecidableEq, Repr

/-- What of a core an exception of an earlier far load takes back (R121). -/
structure Regs where
  s : Tab Word
  v : Tab Vec
  loops : List Loop
  openBundle : Bool
  slot0 : Option Slot0
  instret : Word
  fflags : BitVec 5
  frm : BitVec 2
  stallLimit : BitVec 32
deriving DecidableEq, Repr

/-- An outstanding far access of a core (R107). -/
structure FarAccess where
  /-- request number; none while it waits on a fault (R86) or for its frame (R601) -/
  req : Option Nat
  store : Bool
  /-- virtual address -/
  va : Nat
  len : Nat
  data : Bytes
  dest : LoadDest
  /-- program counter of the instruction that made it -/
  pc : Word
  /-- for a load: the core's registers, flags, loops and count as the instruction found them (R121) -/
  before : Option Regs := none
deriving DecidableEq, Repr

/-- One core (R88, R127). A core that holds the defaults is not listed. -/
structure Core where
  /-- what the core does | enumeration | R88, R90, R123 | idle -/
  run : CoreRun := .idle
  /-- scalar registers s1 to s63 (absent: 0) | 64 × 64 bits | R88 | 0 -/
  s : Tab Word := []
  /-- vector registers v0 to v31 (absent: 0) | 32 × 512 bits | R88 | 0 -/
  v : Tab Vec := []
  /-- program counter | 64 bits | R88 | 0, DESIGN CHOICE: the spec gives none before a RUN -/
  pc : Word := 0
  /-- active loops, innermost first, each with its start, its end and the passes left | stack of at most two | R96 | empty -/
  loops : List Loop := []
  /-- first instruction of the open bundle | optional | R97 | none -/
  slot0 : Option Slot0 := none
  /-- a bundle is open (has issued its first instruction) | 1 bit | R97 | clear -/
  openBundle : Bool := false
  /-- CL_INSTRET | 64 bits | R127 | 0 -/
  instret : Word := 0
  /-- CL_FFLAGS, five sticky flags | 5 bits | R127 | 0 -/
  fflags : BitVec 5 := 0
  /-- CL_FRM | 2 bits | R127 | 0 nearest-even -/
  frm : BitVec 2 := 0
  /-- CL_STALL_LIMIT | 32 bits | R127 | 0 -/
  stallLimit : BitVec 32 := 0
  /-- the next instruction, when it has been tried and has not issued: no other issues before it | optional | R99 | none -/
  held : Option Instr := none
  /-- why that instruction has not issued, and since which bight cycle | optional | R120 | none -/
  stall : Option (Stall × Nat) := none
  /-- mask of the CBAR the core has reached | 16 bits, optional | R108 | none -/
  barrier : Option (BitVec 16) := none
  /-- the barrier of the CBAR the core waits at has released it | 1 bit | R108 | clear -/
  released : Bool := false
  /-- credits used of each sending handle (absent: 0) | count each | R111 | 0 used -/
  creditsUsed : Tab Nat := []
  /-- injection registers that hold a vector | 512 bits each | R112 | empty -/
  inject : Tab Vec := []
  /-- injection registers filled in this bight cycle, whose vectors may leave from the next on | 512 bits each | R213 | empty -/
  injectNext : Tab Vec := []
  /-- ejection buffers, oldest first | 1 or 2 × 512 bits each | R111 | empty -/
  eject : Tab (List Vec) := []
  /-- pending credits of each receiving handle | count each | R214 | 0 -/
  pendingCredit : Tab Nat := []
  /-- receiving handles whose count of pending credits rises with the next bight cycle, one for each RECV | list | R214 | none -/
  creditNext : List Nat := []
  /-- operand queue 0 (A), oldest first | 16 × 512 bits | R118 | empty -/
  q0 : List Vec := []
  /-- operand queue 1 (W), oldest first | 16 × 512 bits | R118 | empty -/
  q1 : List Vec := []
  /-- operand queue 2 (O), oldest first | 16 × 512 bits | R118 | empty -/
  q2 : List Vec := []
  /-- outstanding far accesses, oldest first | at most 8 loads and 16 stores | R107 | none -/
  far : List FarAccess := []
  /-- first failed far store: virtual address and sub-cause | optional | R122 | none -/
  storeError : Option (Nat × Nat) := none
  /-- staging set, MX_TD_ registers by offset | 13 × 64 bits | R177 | 0 -/
  staging : Tab Word := []
  /-- instruction buffer, last filled first: 64-byte blocks of the local memory, each with the words that its fill was given, none for an uncorrectable one | at most 256 × 64 bytes | R95, R303 | empty -/
  ibuf : List (Nat × List (Option Word)) := []
deriving DecidableEq, Repr

/-- An accumulator of a plane (R162, R156): exact sum, term count and the six flag bits of R156. -/
structure Acc where
  sum : Int := 0
  terms : Nat := 0
  underTerm : Bool := false
  inexactTerm : Bool := false
  ovfTerm : Bool := false
  negInf : Bool := false
  posInf : Bool := false
  nanSeen : Bool := false
deriving DecidableEq, Repr

/-- The states of a plane (R162, R177): 0 FREE, 1 ACCUMULATING, 2 HELD, 3 DRAINING. -/
inductive PlaneState where
  | free | accumulating | held | draining
deriving DecidableEq, Repr

/-- One accumulator plane (R162). -/
structure Plane where
  /-- state | 2 bits | R162 | FREE -/
  state : PlaneState := .free
  /-- accumulators, key 128 × row + column (absent: zero) | 128 × 128 | R162 | zero -/
  acc : Tab Acc := []
  /-- anchor of the tile that started it | 16 bits signed and beyond | R162 | 0 -/
  anchor : Int := 0
  /-- grid: wide | 1 bit | R162 | narrow -/
  wide : Bool := false
  /-- M, N and dataflow of the tile that left it HELD | 8, 8, 2 bits | R163 | 0 -/
  m : Nat := 0
  n : Nat := 0
  dataflow : Nat := 0
  /-- entries of the drain that core k has been given, by k | counts | R185 | 0 -/
  drained : Tab Nat := []
deriving DecidableEq, Repr

/-- A tile in the tile queue or running (R179): its staging set at MX_TILE_GO, its TAG and the core that issued it. -/
structure Tile where
  regs : Tab Word
  tag : BitVec 16
  core : Nat
  /-- its products have been formed (TILE_START) -/
  started : Bool := false
deriving DecidableEq, Repr

/-- One matrix engine (R162, R177). -/
structure Engine where
  /-- plane 0 | plane | R162 | FREE -/
  plane0 : Plane := {}
  /-- plane 1 | plane | R162 | FREE -/
  plane1 : Plane := {}
  /-- tile queue, oldest first, and the tile that runs | 8 entries | R179 | empty -/
  queue : List Tile := []
  /-- MX_TILES_DONE | 64 bits | R177 | 0 -/
  tilesDone : Word := 0
  /-- MX_ACC_STATUS | 9 bits | R158 | 0 -/
  accStatus : BitVec 9 := 0
  /-- MX_LAST_ANCHOR | 16 bits | R177 | 0 -/
  lastAnchor : BitVec 16 := 0
  /-- MX_STATUS TAG of the last completed tile | 16 bits | R177 | 0 -/
  lastTag : BitVec 16 := 0
  /-- MX_FEED_STALL cycles | 64 bits | R177 | 0 -/
  feedStall : Word := 0
  /-- cycle of the RUN from which the array waits for late entries of its next tile | count, optional | R191 | none -/
  lateSince : Option Nat := none
  /-- it has reported a failure that ends the command | 1 bit | R180, R187, R189 | clear -/
  failed : Bool := false
  /-- internal feed buffers: entries taken from core k's queue q, key 2 × k + q, oldest first | entries | R173 | empty -/
  feed : Tab (List Vec) := []
  /-- dataflow of the tile last started | 2 bits | R194 | 0 -/
  lastDataflow : Nat := 0
deriving DecidableEq, Repr

/-- One bank of a router's tables for one bight (R269). -/
structure Bank where
  bight : Nat
  shape : Nat
  x0 : Nat
  y0 : Nat
  /-- schedule period L -/
  period : Nat
  /-- logical router ID y':x' -/
  logical : Nat
  /-- program table, L × 64 bits (R208) -/
  ptab : List (BitVec 64)
  /-- handle table, 256 × 16 bits (R210) -/
  htab : List (BitVec 16)
deriving DecidableEq, Repr

/-- One router (R211, R242). -/
structure Router where
  /-- active bank; none while not owned | tables | R269, R242 | none -/
  bank : Option Bank := none
  /-- inactive bank loaded by prepare | tables, optional | R269 | none -/
  next : Option Bank := none
  /-- bight that has claimed the router in a lash or in prepare | optional | R201, R268 | none -/
  claim : Option Nat := none
  /-- program inputs N, E, S, W (keys 1 to 4) that hold a vector | 512 bits each | R211 | empty -/
  input : Tab Vec := []
  /-- credit bits present at inputs 1 to 4 | 1 bit each | R211 | clear -/
  credit : List Nat := []
  /-- program and transit entries whose parity bit fails: program index, or 4,096 + transit index | list | R231 | none -/
  badParity : List Nat := []
  /-- dead letters at this router, RT_STATUS [31:16], saturating | 16 bits | R242 | 0 -/
  deadLetters : Nat := 0
  /-- TABLE_PARITY | 1 bit | R242 | 0 -/
  parityFlag : Bool := false
  /-- OVERRUN | 1 bit | R242 | 0 -/
  overrunFlag : Bool := false
deriving DecidableEq, Repr

/-- A program vector or credit bit on a hop (R211): where it goes, and the bight cycle from which it is present. -/
structure Flight where
  bight : Nat
  router : Nat
  /-- input of the router it arrives at: 1 N, 2 E, 3 S, 4 W -/
  port : Nat
  vec : Option Vec
  credit : Bool
  due : Nat
deriving DecidableEq, Repr

/-- One direction of a laid circuit (R222, R223): the routers of its path, the first slot of each of its slot sets, and
its transit period divider. -/
structure Lay where
  path : List Nat
  slots : List Nat
  rdiv : Nat
deriving DecidableEq, Repr

/-- A circuit pair (R222). -/
structure Circuit where
  /-- bight that holds it; 256 for a walker circuit (R356) -/
  owner : Nat
  /-- laid by prepare and inactive until switchover (R268) -/
  inactive : Bool
  /-- kind: 0 channel group, 1 link port, 2 PCIe port, 3 D port, 4 walker -/
  kind : Nat
  /-- channel group, link port, PCIe port or target λ -/
  target : Nat
  /-- source router and circuit number there -/
  src : Nat
  srcNum : Nat
  /-- target router and circuit number there -/
  dst : Nat
  dstNum : Nat
  out : Lay
  back : Lay
  /-- slots per transit period in each direction -/
  slotsOut : Nat
  slotsBack : Nat
  /-- credits held by the source and by the target end -/
  creditsOut : Nat
  creditsBack : Nat
  /-- credits of the out and of the back direction that their receiving ends have still to return (R222) -/
  returnOut : Nat := 0
  returnBack : Nat := 0
deriving DecidableEq, Repr

/-- One direction of a circuit pair (R222): its source and target routers with the circuit numbers there, and whether it runs from
the target to the source. -/
structure CircRef where
  src : Nat
  srcNum : Nat
  dst : Nat
  dstNum : Nat
  back : Bool
deriving DecidableEq, Repr

/-- Where a request is that a circuit carries: on its way, at its target, or its answer has left the target. -/
inductive ReqStage where
  | away
  | there
  | answered
deriving DecidableEq, Repr

/-- A request that stands for an access which a step of the model makes (log 186): no such request; one that waits or is on its way;
one that is over, its result kept for the step; one whose result a step has taken. -/
inductive StepUse where
  | no | waits | passed | used
deriving DecidableEq, Repr

/-- What became of a request. -/
inductive ReqResult where
  | pending
  | data (d : Bytes)
  | stored
  /-- bus error with the sub-cause of R126 -/
  | busError (sub : Nat)
  | hostError
  | refused
  | linkDown
  /-- it, or the answer to it, was a dead letter (R229) -/
  | lost
deriving DecidableEq, Repr

/-- A transit vector (R198, R222). -/
structure TransitVec where
  /-- its circuit pair as it was laid when the vector was sent (R225, R273) -/
  circuit : Circuit
  /-- it goes from the target to the source -/
  back : Bool
  /-- where it stands: 0 at the sending port, i in the transit input, or the crossing's FIFO, of router i of the path -/
  hop : Nat
  /-- the valid vector's request, or the answer to it; none for an invalid vector, which only carries credits -/
  req : Option Nat
  /-- what an answer brings -/
  result : ReqResult := .pending
  /-- the 4-bit field: credits returned for the paired circuit -/
  credits : Nat := 0
deriving DecidableEq, Repr

/-- A Lanyard message in flight (R233, R239). -/
structure LanMsg where
  ty : Nat
  dest : Nat
  src : Nat
  high : Bool
  payload : List Flit
  /-- time it was sent, ns (R125) -/
  at' : Nat := 0
deriving DecidableEq, Repr

/-- The mesh and the Lanyard. -/
structure Mesh where
  /-- routers by ID | 8,192 routers | R24, R242 | empty tables -/
  routers : Tab Router := []
  /-- program vectors and credits on hops | list | R211 | none -/
  flights : List Flight := []
  /-- circuits, oldest first | list | R222, R356 | none -/
  circuits : List Circuit := []
  /-- transit vectors at the sending ports and on their way, oldest first | list | R222 | none -/
  transit : List TransitVec := []
  /-- clock changes of half-dies that wait for their crossing circuits: half-die, divider, and the base cycle at which the transit period of the slower half has passed | list | R225 | none -/
  ratioNext : List (Nat × Nat × Nat) := []
  /-- τ_0 in thousandths of a base cycle | counter | R200 | 0 -/
  tau0 : Nat := 0
  /-- dead letters since reset, 0x4E00.00 | UINT32 | R243 | 0 -/
  deadLetters : BitVec 32 := 0
  /-- SCHED_FAULT reports since reset, 0x4E00.01 | UINT32 | R243 | 0 -/
  schedFaults : BitVec 32 := 0
  /-- circuit re-lays, 0x4E02.00 | UINT32 | R225 | 0 -/
  relays : BitVec 32 := 0
  /-- Lanyard retransmissions, 0x4E03.00 | UINT32 | R236 | 0 -/
  retransmissions : BitVec 32 := 0
  /-- drops at unpowered stops, 0x4E03.01 | UINT32 | R238 | 0 -/
  dropsUnpowered : BitVec 32 := 0
  /-- drops for check or reserved fields, 0x4E03.02 | UINT32 | R238 | 0 -/
  dropsCheck : BitVec 32 := 0
  /-- Lanyard messages in flight, oldest first | list | R233 | none -/
  lan : List LanMsg := []
  /-- the model's own record of the messages that took effect as they were sent, newest first | list | R233, R234 (log 180) | none -/
  carried : List LanMsg := []
deriving DecidableEq, Repr

/-- SRAM protection. Banks are keyed by 24 × cluster + bank; words by word address (physical address / 8). -/
structure Sram where
  /-- CL_FLIP_LO of cluster c | 64 bits each | R312 | 0 -/
  flipLo : Tab Word := []
  /-- CL_FLIP_HI of cluster c | 64 bits each | R312 | 0 -/
  flipHi : Tab Word := []
  /-- pending write-backs: bank and word address, oldest first | list | R299 | none -/
  writeBacks : List (Nat × Nat) := []
  /-- next word of each bank's Pruner engine | 19 bits each | R300, R302 | 0 -/
  pruner : Tab Nat := []
  /-- completed passes of bank 0 of cluster 0, 0x5010.02 | UINT32 | R314 | 0 -/
  passes : BitVec 32 := 0
  /-- retired row blocks: code of 0x5012.00 and FUSED | at most 64 | R308 | the fused ones -/
  retired : List (Nat × Bool) := []
  /-- retirement candidates since reset, newest first; the first is 0x5014.00 | list of 22-bit codes | R309 | none -/
  candidates : List Nat := []
  /-- corrected reads, 0x5000.01, saturating | UINT32 | R314 | 0 -/
  corrected : Nat := 0
  /-- uncorrectable reads, 0x5000.02, saturating | UINT32 | R314 | 0 -/
  uncorrectable : Nat := 0
  /-- refused narrow writes, 0x5000.03 | UINT32 | R298 | 0 -/
  refusedNarrow : BitVec 32 := 0
  /-- cancelled write-backs, 0x5000.04 | UINT32 | R299 | 0 -/
  cancelled : BitVec 32 := 0
  /-- corrected reads not sent, 0x5000.05 | UINT32 | R304 | 0 -/
  notSent : BitVec 32 := 0
  /-- last uncorrectable read, 0x5001.00 | 48 bits | R314 | 0 -/
  lastBad : Nat := 0
  /-- bank cycle of the last corrected message of each bank | counter each | R304 | none -/
  lastMsg : Tab Nat := []
  /-- words the Pruner found uncorrectable and nothing has written since | list of word addresses | R305 | none -/
  prunerSeen : List Nat := []
  /-- words whose Pruner report on its way is to count | list of word addresses | R305 | none -/
  prunerDue : List Nat := []
  /-- words found uncorrectable since reset, with whether a full write followed | list | R309 | none -/
  history : List (Nat × Bool) := []
  /-- words found uncorrectable again after a full write, whose report is on its way | list of word addresses | R309 | none -/
  refound : List Nat := []
  /-- words reported uncorrectable since reset | list of word addresses | R309 | none -/
  reported : List Nat := []
  /-- clusters whose banks' fuse map is applied | list | R291 | none -/
  spared : List Nat := []
deriving DecidableEq, Repr

/-- The settings of a master at a port gate (R335). -/
structure GateSetting where
  /-- floor F, GB/s | 0 to 1,024 | R335 | 0 -/
  floor : Nat := 0
  /-- weight w | 0 to 255 | R335 | 1 -/
  weight : Nat := 1
  /-- ceiling C, GB/s, 0 none | 0 to 1,024 | R335 | 0 -/
  ceiling : Nat := 0
  /-- class-0 permit | 1 bit | R335 | clear -/
  class0 : Bool := false
  /-- floor bucket, 1/12,800 byte | count | R340 | 0, DESIGN CHOICE: the spec gives no fill at reset -/
  floorBucket : Nat := 0
  /-- ceiling bucket, 1/12,800 byte | count | R340 | 0, DESIGN CHOICE: the spec gives no fill at reset -/
  ceilBucket : Nat := 0
  /-- time the buckets were last refilled, ns | time | R340 | 0 -/
  filledAt : Nat := 0
  /-- deficit of weighted sharing, bytes | count | R340 | 0 -/
  deficit : Nat := 0
deriving DecidableEq, Repr

/-- One channel group: controller and port gate. -/
structure Group where
  /-- requests waiting at the gate, oldest first | request numbers | R340, R341 | none -/
  queue : List Nat := []
  /-- master last released under weighted sharing | 9 bits | R340 | 0, DESIGN CHOICE: the spec gives none -/
  lastMaster : Nat := 0
  /-- settings and buckets of each master (absent: the defaults) | 307 masters | R335 | defaults -/
  masters : Tab GateSetting := []
  /-- bytes released for class 0 to 3, 0x5100 + g .01 to .04 | 48 bits each | R345 | 0 -/
  bytes : Tab Nat := []
  /-- deadline misses of class 1, 0x5100 + g .05 | UINT32 | R339 | 0 -/
  miss1 : BitVec 32 := 0
  /-- deadline misses of class 2, 0x5100 + g .06 | UINT32 | R339 | 0 -/
  miss2 : BitVec 32 := 0
  /-- frame in which a class 1 miss was last logged | 48 bits, optional | R339 | none -/
  missLogged : Option (BitVec 48) := none
  /-- stack temperature of the last sample, half degrees | 16 bits | R329 | 0, DESIGN CHOICE: the spec gives none -/
  temp : Int := 0
  /-- row of the refresh table in force, 0 to 4 | 3 bits | R329 | 0, below 85 °C -/
  row : Nat := 0
  /-- consecutive 1 ms samples at least 3 °C below the row's lower bound | count | R329 | 0 -/
  coolSamples : Nat := 0
  /-- corrected reads, 0x5100 + g .0A, saturating | UINT32 | R346 | 0 -/
  corrected : Nat := 0
  /-- uncorrectable reads, 0x5100 + g .0B, saturating | UINT32 | R346 | 0 -/
  uncorrectable : Nat := 0
  /-- class-0 demotions, 0x5100 + g .0C | UINT32 | R336 | 0 -/
  demotions : BitVec 32 := 0
  /-- floors scaled, 0x5100 + g .0E | 1 bit | R343 | 0 -/
  floorsScaled : Bool := false
  /-- corrected reads not sent, 0x5100 + g .0F | UINT32 | R327 | 0 -/
  notSent : BitVec 32 := 0
  /-- on-die ECC reports, 0x5100 + g .10 | UINT32 | R346 | 0 -/
  onDie : BitVec 32 := 0
  /-- severity code last reported by the on-die ECC of each channel | 8 bits each | R327 | 0 -/
  severity : Tab Nat := []
  /-- next code word of the patrol | 29 bits | R325 | 0, DESIGN CHOICE: the spec gives no start -/
  patrol : Nat := 0
  /-- pending write-backs, code-word numbers, oldest first | list | R324 | none -/
  writeBacks : List Nat := []
  /-- code words the patrol reported and nothing has written since | list | R328 | none -/
  patrolSeen : List Nat := []
  /-- code words whose patrol report on its way is to count | list | R328 | none -/
  patrolDue : List Nat := []
  /-- base cycle of the last corrected message | counter, optional | R327 | none -/
  lastMsg : Option Nat := none
  /-- releases of the last 1 µs, newest first: time, ns, and bytes | list | R331 | none -/
  released : List (Nat × Nat) := []
  /-- time a request was last served, ns | time | R319 | 0 -/
  servedAt : Nat := 0
deriving DecidableEq, Repr

/-- The HBM blocks common to all groups. -/
structure Hbm where
  /-- channel groups 0 to 63 | 64 groups | R315 | defaults -/
  groups : Tab Group := []
  /-- stacks that failed training, 0x5084.00 | 32 bits | R320 | 0 -/
  failed : BitVec 32 := 0
  /-- readback select, 0x5081.00 | UINT16 | R346 | 0 -/
  select : Nat := 0
deriving DecidableEq, Repr

end Sys2Proof.Machine
end

