-- ==== Sys2Proof/Machine/BlocksHost.lean ====
section
/-! DEFINITION. The host-side blocks of the state: translation, faults and windows, functions, queues, commands and fences,
bights, memory requests, link ports, pace groups, handoff slots and what the module has sent. Every field's docstring
reads `content | width | rule | value at reset`. -/

namespace Sys2Proof.Machine

/-- A cached leaf (R358, R359): the cache that holds it, its tag, the leaf and what its context entry said. -/
structure CacheEntry where
  /-- cache: 8 × cluster + stream below 4,096; 4,096 + cluster far; 4,608 + port; 4,656 + die the die cache -/
  cache : Nat
  asid : Nat
  /-- level of the leaf: 0, 1 or 2 -/
  level : Nat
  /-- virtual address divided by the page size -/
  page : Nat
  leaf : BitVec 128
  function : Nat
  accEn : Bool
  /-- the tables it was read from have gone without a change by host software: it is used while it is cached (R358, R374) -/
  pinned : Bool := false
deriving DecidableEq, Repr

/-- A cached non-leaf entry (R358): the die whose walk cache holds it and the entry. -/
structure WalkEntry where
  die : Nat
  asid : Nat
  level : Nat
  prefixBits : Nat
  entry : BitVec 128
  /-- address of the entry -/
  addr : Nat := 0
  /-- as for a cached leaf -/
  pinned : Bool := false
deriving DecidableEq, Repr

/-- Who makes an access that may fault (R364): a DMA stream, a core, or an inbound window, whose request came through a port. -/
inductive Requester where
  | stream (cluster stream : Nat)
  | core (core : Nat)
  | window (port win : Nat)
deriving DecidableEq, Repr

/-- A walk that waits for a table read (R318, R357, R360): its requester, where it is, and its command. -/
structure Walking where
  requester : Requester
  asid : Nat
  page : Nat
  cmd : Option (Nat × Nat)
deriving DecidableEq, Repr

/-- A pending fault (R364, R365, R370). -/
structure PendFault where
  fn : Nat
  /-- resolution tag; none while the fault is held for ring space -/
  tag : Option (BitVec 32)
  requester : Requester
  page : Nat
  asid : Nat
  va : Nat
  reason : Nat
  write : Bool
  bight : Option Nat
  queue : Nat
  seq : Nat
  stamp : BitVec 24
  /-- further link ports at which requests of the window wait for it (R363, R364) -/
  ports : List Nat := []
deriving DecidableEq, Repr

/-- Why an invalidation was issued (R376). -/
inductive InvOrigin where
  /-- through MG_INV_CTRL, with its sequence number -/
  | control (seq : BitVec 16)
  | window (w : Nat)
  | reset
  | teardown (asid : Nat)
  | removal
deriving DecidableEq, Repr

/-- An invalidation that has removed its entries and waits for the requests that used them (R377 to R379). -/
structure Invalidation where
  origin : InvOrigin
  abort : Bool
  /-- requests that used the old translation and have not finished -/
  waits : List Nat
  /-- frames that a rotation was moving in its scope: key slot and address of the leaf (R603) -/
  moves : List (Nat × Nat) := []
  /-- cores whose failed far store it waits for until that is no longer to be reported (R122, R378) -/
  cores : List Nat := []
  /-- commands that it kills and that have not been killed: queue, sequence number -/
  kills : List (Nat × Nat)
deriving DecidableEq, Repr

/-- An access counter (R381). -/
structure Counter where
  asid : Nat
  region : Nat
  count : Nat
deriving DecidableEq, Repr

/-- An inbound window (R384, R388, R504). -/
structure InWindow where
  /-- state: 0 closed, 1 open, 3 closing | UINT8 | R388 | 0 -/
  state : Nat := 0
  /-- permitted source module | UINT16 | R388 | 0xFFFF any -/
  source : Nat := 0xFFFF
  /-- ASID | UINT16 | R388 | 0 -/
  asid : Nat := 0
  /-- BASE | UINT64 | R388 | 0 -/
  base : Nat := 0
  /-- length, bytes | UINT64 | R388 | 0 -/
  length : Nat := 0
  /-- permissions and class | UINT8 | R388 | 0 -/
  perm : BitVec 8 := 0
  /-- reduction port, 0xFF none | UINT8 | R504 | 0xFF -/
  redPort : Nat := 0xFF
deriving DecidableEq, Repr

/-- An outbound window (R384, R388). -/
structure OutWindow where
  /-- state: 0 closed, 1 open | UINT8 | R388 | 0 -/
  state : Nat := 0
  /-- destination module | UINT16 | R388 | 0 -/
  dest : Nat := 0
  /-- inbound window number there | UINT8 | R388 | 0 -/
  window : Nat := 0
  /-- link-port mask | UINT64 | R388 | 0 -/
  ports : BitVec 64 := 0
  /-- length, bytes | UINT64 | R388 | 0 -/
  length : Nat := 0
deriving DecidableEq, Repr

/-- Translation. -/
structure Xlat where
  /-- 0x5200.00 context-table address and EN | UINT64 | R388 | 0 -/
  contextTable : Word := 0
  /-- 0x5220.00 object-table address and EN | UINT64 | R433 | 0 -/
  objectTable : Word := 0
  /-- cached leaves, most recently used first | stream, far, port and die caches | R358 | empty -/
  cache : List CacheEntry := []
  /-- cached non-leaf entries, most recently used first | 1,024 per die | R358 | empty -/
  walkCache : List WalkEntry := []
  /-- walks that wait for a table read | list | R357, R360 | none -/
  walking : List Walking := []
  /-- pending and held faults, oldest first | list | R364, R370 | none -/
  faults : List PendFault := []
  /-- MG_INV_ADDR | 64 bits | R375 | 0 -/
  invAddr : Word := 0
  /-- sequence of the last invalidation issued | 16 bits | R375 | 0 -/
  invIssued : BitVec 16 := 0
  /-- sequence of the last invalidation completed | 16 bits | R375 | 0 -/
  invDone : BitVec 16 := 0
  /-- DROPPED | 1 bit | R375 | 0 -/
  invDropped : Bool := false
  /-- invalidations not yet complete, oldest first | at most 16 of the host | R376 | none -/
  invs : List Invalidation := []
  /-- access counters of each die, most recently incremented first | 1,024 per die | R381 | free -/
  counters : Tab (List Counter) := []
  /-- access-counter threshold, 0x5210.00 | UINT32 | R388 | 32,768 -/
  threshold : Nat := 32768
  /-- fault entries written, 0x5201.01 | UINT32 | R388 | 0 -/
  entriesWritten : BitVec 32 := 0
  /-- overflow events, 0x5201.02 | UINT32 | R388 | 0 -/
  overflows : BitVec 32 := 0
  /-- resolutions ignored, 0x5201.03 | UINT32 | R388 | 0 -/
  ignored : BitVec 32 := 0
  /-- walks started, 0x5201.04 | UINT32 | R388 | 0 -/
  walks : BitVec 32 := 0
  /-- inbound requests refused, 0x5201.05 | UINT32 | R388 | 0 -/
  refused : BitVec 32 := 0
  /-- invalidations completed, 0x5201.06 | UINT32 | R388 | 0 -/
  completed : BitVec 32 := 0
  /-- inbound windows | 256 windows | R384 | closed, defaults -/
  inbound : Tab InWindow := []
  /-- outbound windows | 256 windows | R384 | closed, defaults -/
  outbound : Tab OutWindow := []
deriving DecidableEq, Repr

/-- An MSI-X vector's table entry (R395): address, data and vector control. -/
structure Msix where
  addr : Word := 0
  data : BitVec 32 := 0
  control : BitVec 32 := 0
deriving DecidableEq, Repr

/-- One module function (R390, R395). -/
structure Fn where
  /-- PCIe port of a virtual function, 0x1020.n | 1 bit | R391 | 0 -/
  port : Nat := 0
  /-- MG_FN_APER, 0x1021.n | 64 bits | R395 | 0 -/
  aper : Word := 0
  /-- MG_IRQ_CAUSE | 6 bits | R395 | 0 -/
  irqCause : BitVec 6 := 0
  /-- MG_ERRCNT [63:48] malformed descriptors, saturating | 16 bits | R395 | 0 -/
  errMalformed : BitVec 16 := 0
  /-- MG_ERRCNT [47:32] doorbells dropped, saturating | 16 bits | R395 | 0 -/
  errDoorbell : BitVec 16 := 0
  /-- MG_ERRCNT [31:16] signals ignored as out of order, saturating | 16 bits | R395 | 0 -/
  errSignal : BitVec 16 := 0
  /-- MG_ERRCNT [15:0] aperture writes dropped, saturating | 16 bits | R395 | 0 -/
  errAperture : BitVec 16 := 0
  /-- MG_FN_BSEL | 8 bits | R395 | 0 -/
  bsel : BitVec 8 := 0
  /-- MSI-X table | 64 × 16 bytes | R395 | 0 -/
  msix : Tab Msix := []
  /-- MSI-X pending bits | 64 bits | R395 | 0 -/
  pba : Word := 0
  /-- MG_FRING_BASE | 64 bits | R367 | 0 -/
  ringBase : Word := 0
  /-- MG_FRING_PROD | 32 bits | R367 | 0 -/
  ringProd : BitVec 32 := 0
  /-- MG_FRING_CONS | 32 bits | R367 | 0 -/
  ringCons : BitVec 32 := 0
  /-- MG_FRING_PADDR | 64 bits | R367 | 0 -/
  ringPaddr : Word := 0
  /-- MG_FRING_STAT [63:32] overflow events, saturating | 32 bits | R367 | 0 -/
  ringOverflow : BitVec 32 := 0
  /-- an overflow has been counted since the ring was last not full | 1 bit | R370 | clear -/
  ringOverflowed : Bool := false
  /-- MG_NOTIFY_DROP | 32 bits | R367 | 0 -/
  notifyDrop : BitVec 32 := 0
  /-- next resolution tag | 32 bits | R366 | 1 -/
  nextTag : BitVec 32 := 1
  /-- entries in the open batch, and when it opened, ns; none when no batch is open | count, time | R369 | none -/
  batch : Option (Nat × Nat) := none
deriving DecidableEq, Repr

/-- A host access through a function's BAR2 (R397): a read, or with data a write. -/
structure HostAccess where
  fn : Nat
  /-- the PCIe port it came through -/
  port : Nat
  offset : Nat
  len : Nat
  data : Option Bytes
deriving DecidableEq, Repr

/-- A register write that follows writes through BAR2 in PCIe order: a resolution of a fault, with FAIL or RETRY, and a write of
MG_INV_CTRL with MG_INV_ADDR as it then was (R371, R372, R375, R377). -/
inductive RegWait where
  | resolve (fn : Nat) (tag : BitVec 32) (fail : Bool)
  | inv (abort : Bool) (addr v : Word)
deriving DecidableEq, Repr

/-- The functions and the two PCIe ports. -/
structure HostIf where
  /-- functions 0 to 63 | 64 functions | R390 | defaults -/
  fns : Tab Fn := []
  /-- PCIe ports whose link is up | 2 bits | R389, R429 | both up, DESIGN CHOICE: the spec gives none -/
  linkUp : List Nat := [0, 1]
  /-- host accesses through BAR2 that wait at a gate, oldest first | list | R318, R397 | none -/
  apertureWaiting : List HostAccess := []
  /-- register writes that wait for the writes through BAR2 before them, oldest first | list | R372, R377 | none -/
  regWaiting : List RegWait := []
  /-- records whose operation waits at the context table's gate, oldest first: kind, record | list | R318, R433 | none -/
  recordWaiting : List (Nat × Bytes) := []
  /-- PCIe ports whose VF Enable is set | 2 bits | R391 | clear -/
  vfEnabled : List Nat := []
  /-- 0x4201.00 sequence | 8 bits | R433 | 0 -/
  opSeq : BitVec 8 := 0
  /-- 0x4201.00 kind | 8 bits | R433 | 0 -/
  opKind : Nat := 0
  /-- 0x4201.00 result code | 8 bits | R405 | 0 -/
  opResult : Nat := 0
  /-- malformed descriptors, 0x4202.01 | UINT32 | R433 | 0 -/
  malformed : BitVec 32 := 0
  /-- signals ignored, 0x4202.02 | UINT32 | R433 | 0 -/
  signalsIgnored : BitVec 32 := 0
  /-- doorbells dropped, 0x4202.03 | UINT32 | R433 | 0 -/
  doorbellsDropped : BitVec 32 := 0
  /-- errors attached to no fence, 0x4202.04 | UINT32 | R424 | 0 -/
  loose : BitVec 32 := 0
  /-- fence select, 0x4211.00 | UINT16 | R433 | 0 -/
  fenceSelect : Nat := 0
  /-- ASIDs whose teardown runs, with the bights its map names | list | R431 | none -/
  teardowns : Tab (List Nat) := []
  /-- ASIDs whose teardown is still killing commands | list | R431 | none -/
  tearKills : List Nat := []
  /-- functions whose function-level reset runs | list | R427 | none -/
  flr : List Nat := []
  /-- functions whose function-level reset waits for the end of their removal | list | R607 | none -/
  flrDue : List Nat := []
  /-- 0x4231.00 sequence | 8 bits | R470 | 0 -/
  abortSeq : BitVec 8 := 0
  /-- 0x4231.00 result code | 8 bits | R467 | 0 -/
  abortResult : Nat := 0
  /-- commits, 0x4232.01 | UINT32 | R470 | 0 -/
  commits : BitVec 32 := 0
  /-- re-runs, 0x4232.02 | UINT32 | R470 | 0 -/
  reruns : BitVec 32 := 0
  /-- TOO_LATE results, 0x4232.03 | UINT32 | R470 | 0 -/
  tooLate : BitVec 32 := 0
deriving DecidableEq, Repr

/-- The kind-specific fields of a descriptor (R412, R494, R450, R266). -/
inductive Payload where
  | run (entry : Nat) (args : Bytes)
  | move (src dst len lambda : Nat)
  | send (src len mode nDst pkt lambda : Nat) (dst : List Nat)
  | recv (window op nSrc rtype out slots inLen outVa : Nat) (seed : BitVec 64) (iBase iRow rowLen : Nat)
      (anchor : Int) (grid : Nat)
  | wait (fence value : Nat)
  | signal (fence : Nat) (value : Nat)
  | relash (rec : Bytes)
  | commitGroup (expect : Nat)
deriving DecidableEq, Repr

/-- A write entry of an object list (R438). -/
structure WriteEntry where
  object : Nat
  overwrite : Bool
  va : Nat
  length : Nat
deriving DecidableEq, Repr

/-- A live entry of an object list (R438). -/
structure LiveEntry where
  region : Nat
  offset : Nat
  length : Nat
deriving DecidableEq, Repr

/-- Where a command stands. -/
inductive Phase where
  /-- fetched and checked, not launched -/
  | waiting
  /-- launched, its COPY entries not yet copied (R443) -/
  | opening
  /-- a RUN on the bight's run list (R457) -/
  | listed
  | running
  /-- finished; its commit request is in the commit register (R445) -/
  | requested
  /-- finished with GROUP set, held by its commit group (R449) -/
  | held
  /-- killed; the kill is not complete (R453) -/
  | killing
  /-- ended without committing; its completion waits for its turn (R416) -/
  | ended
  /-- committed; its completion waits for its turn (R416) -/
  | committed
deriving DecidableEq, Repr

/-- How far one piece of a transfer has come. -/
inductive PieceState where
  | toRead
  /-- a read request is out -/
  | reading (req : Nat)
  | toWrite (data : Bytes)
  /-- a write request is out -/
  | writing (req : Nat)
  /-- stopped at a translation fault; the next stage is a read (false) or a write (true) -/
  | faulted (write : Bool) (data : Bytes)
  | done
deriving DecidableEq, Repr

/-- One piece of a DMA transfer: at most 4 KiB, within one 4 KiB block at each end. -/
structure Piece where
  src : Nat
  dst : Nat
  len : Nat
  /-- carry index of the member and stream that carry it -/
  iota : Nat
  stream : Nat
  state : PieceState
deriving DecidableEq, Repr

/-- A contributor entry of a RECV (R499). -/
structure Contributor where
  epoch : BitVec 48
  source : Nat
  /-- link port on which its packets arrive -/
  port : Nat := 0
  /-- attempt of the accepted notice -/
  notice : Option Nat := none
  /-- highest attempt of an accepted WITHDRAW -/
  withdrawn : Option Nat := none
  /-- newest attempt seen in a write (R521) -/
  newest : Option Nat := none
deriving DecidableEq, Repr

/-- A reduction slot: the chunk, the contributors that have added to it (source × 2^48 + epoch) and its element accumulators (R505 to R507). -/
structure Chunk where
  index : Nat
  added : List Nat
  /-- partial elements, as the bytes of R503 -/
  data : Bytes
deriving DecidableEq, Repr

/-- The state a RECV keeps through kills (R454). -/
structure RecvState where
  contributors : List Contributor := []
  chunks : List Chunk := []
  completed : List Nat := []
  /-- reduction slots it claimed: port and number (R504) -/
  claim : Option (Nat × Nat) := none
  /-- handoff slot it is the handoff RECV of (R520) -/
  slot : Option Nat := none
  /-- layers already prefetched, and those whose copy is wanted again (R523) -/
  copied : List Nat := []
deriving DecidableEq, Repr

/-- A fetched command (R411, R442 to R456). -/
structure Cmd where
  /-- sequence number, modulo 2^36 | 36 bits -/
  seq : Nat
  flags : BitVec 8
  cls : Nat
  deadline : BitVec 24
  est : Nat
  /-- fence signalled at completion with the incarnation it is bound to (R425); none for 0xFFFF -/
  fence : Option (Nat × Nat)
  fenceValue : Nat
  objlist : Nat
  payload : Payload
  /-- incarnation of the WFENCE or SFENCE it is bound to (R425) -/
  bound : Nat := 0
  phase : Phase := .waiting
  writes : List WriteEntry := []
  live : List LiveEntry := []
  saveVa : Nat := 0
  /-- objects it holds (R434) -/
  holds : List Nat := []
  /-- COPY entries still to be copied at its launch (R443) -/
  copies : List WriteEntry := []
  pieces : List Piece := []
  /-- (module, window, port) triples it wrote to in this attempt (R497, R498) -/
  peers : List (Nat × Nat × Nat) := []
  /-- it has written through a TGT 3 leaf, in this attempt or an earlier one (R501) -/
  sender : Bool := false
  recv : RecvState := {}
  /-- predicted energy, µJ (R71) -/
  pred : Nat := 0
  /-- its own work has begun since its last start (a RUN's cores have started, a transfer has been cut into pieces) -/
  begun : Bool := false
  /-- launched, and not yet completed (R455: it stays launched through a re-run) -/
  launched : Bool := false
  /-- energy charged, pJ (R68, R70) -/
  charged : Nat := 0
  /-- of that, what was charged before its launch, pJ (R73) -/
  preCharged : Nat := 0
  /-- energy charged in the current frame, pJ (R73) -/
  frameCharged : Nat := 0
  reruns : Nat := 0
  attempt : Nat := 0
  /-- broken: break code and DETAIL when it ended without committing -/
  code : Nat := 0
  detail : BitVec 24 := 0
  /-- re-run after the kill in progress -/
  rerun : Bool := false
  /-- time its launch test first failed, ns (R77) -/
  failedAt : Option Nat := none
  /-- time a pre-emption or relash first waited for it (R465) -/
  holdSince : Option Nat := none
  /-- its queue has been reset or torn down: it receives no completion entry (R414) -/
  gone : Bool := false
  /-- it has been resident before and its live ranges are saved (R459) -/
  saved : Bool := false
  /-- MX_ACC_STATUS or reduction flags ORed (R414) -/
  acc : BitVec 9 := 0
deriving DecidableEq, Repr

/-- A queue (R404 to R409). -/
structure Queue where
  /-- owner function | 6 bits | R404 | none before a create -/
  fn : Nat
  /-- local index | 8 bits | R404 | none before a create -/
  localQ : Nat
  /-- context | 12 bits | R404 | none before a create -/
  asid : Nat
  /-- bight | 8 bits | R404 | none before a create -/
  bight : Nat
  /-- ring of 2^size entries | 6 to 16 | R404 | none before a create -/
  size : Nat
  /-- completion vector | 6 bits | R404 | none before a create -/
  vector : Nat
  /-- descriptor ring, host address | 64 bits | R404 | none before a create -/
  ring : Nat
  /-- completion ring, host address | 64 bits | R404 | none before a create -/
  cring : Nat
  /-- HEAD_MIRROR | 64 bits | R404 | none before a create -/
  headMirror : Nat
  /-- RUNNING | 1 bit | R405 | set at a create -/
  running : Bool := true
  /-- HEAD | 32 bits | R405 | 0 at a create -/
  head : BitVec 32 := 0
  /-- TAIL | 32 bits | R405 | 0 at a create -/
  tail : BitVec 32 := 0
  /-- next sequence number | 36 bits | R405, R411 | 0 at a create -/
  next : Nat := 0
  /-- members of the open commit group that have ended and completed | count | R450 | 0 at a create -/
  groupDone : Nat := 0
  /-- commands fetched and not completed, oldest first | list | R411 | empty -/
  cmds : List Cmd := []
deriving DecidableEq, Repr

/-- A fence (R417 to R419). -/
structure Fence where
  /-- fence word | 64 bits | R418 | INITIAL at a create -/
  word : Word
  /-- last value before it broke | 64 bits | R425 | INITIAL at a create -/
  last : Word
  /-- owner context | 12 bits | R419 | none before a create -/
  asid : Nat
  /-- FLAGS: [2] IRQ, [1] STRICT | 8 bits | R419 | none before a create -/
  flags : BitVec 8
  /-- vector | 8 bits | R419 | none before a create -/
  vector : Nat
  /-- mirror, host address | 64 bits | R419 | none before a create -/
  mirror : Nat
  /-- SHARE | 64 bits | R419 | none before a create -/
  share : Word
  /-- in existence (false: destroyed, its word still readable) | 1 bit | R425 | set at a create -/
  live : Bool := true
  /-- how often the number has been created | count | R425 | 1 at the first create -/
  incarnation : Nat
deriving DecidableEq, Repr

/-- The states of a bight (R288). -/
inductive BightState where
  | free | lashing | lashed | prepare | quiesce | switchover | releasing
deriving DecidableEq, Repr

/-- What waits at a bight's commit register (R444 to R468), in order of arrival. -/
inductive RegEntry where
  | commit (queue seq : Nat)
  | kill (queue seq code : Nat) (detail : BitVec 24) (rerun : Bool)
deriving DecidableEq, Repr

/-- A placement: shape, origin and what the image says of the shape. -/
structure Place where
  shape : Nat := 0
  x0 : Nat := 0
  y0 : Nat := 0
  w : Nat := 0
  h : Nat := 0
  /-- λ of each hole -/
  holes : List Nat := []
  /-- schedule period L -/
  period : Nat := 0
  groups : BitVec 64 := 0
  ports : BitVec 64 := 0
deriving DecidableEq, Repr

/-- A relash under way (R266 to R275). -/
structure Relash where
  queue : Nat
  seq : Nat
  target : Place
  kill : Bool
  drainLimit : Nat
  /-- time quiesce began, ns -/
  quiesceAt : Option Nat := none
  /-- time of the commit boundary, ns -/
  boundaryAt : Option Nat := none
  /-- the banks have switched, and RESUME is due -/
  switched : Bool := false
  /-- the placement that the bight leaves at RESUME, from the switch of the banks on -/
  left : Option Place := none
  /-- cancelled in prepare, and the prepared state is being undone -/
  cancelled : Bool := false
deriving DecidableEq, Repr

/-- One bight (R244, R288, R82, R470). -/
structure Bight where
  /-- state | UINT8 | R288 | 0 free -/
  state : BightState := .free
  /-- current placement | shape, rectangle, holes, groups, ports | R288 | zero -/
  place : Place := {}
  /-- owner function | UINT8 | R262 | 0 -/
  owner : Nat := 0
  /-- IDLE_LOW | 1 bit | R257 | 0 -/
  idleLowOk : Bool := false
  /-- VF_RELASH | 1 bit | R257 | 0 -/
  vfRelash : Bool := false
  /-- CARRY_LOCAL, 64 KiB units | UINT16 | R257 | 0 -/
  carryLocal : Nat := 0
  /-- CARRY_SHARED, 64 KiB units | UINT16 | R257 | 0 -/
  carryShared : Nat := 0
  /-- family image address | UINT64 | R288 | 0 -/
  family : Nat := 0
  /-- hedge | UINT32 | R264 | 0 -/
  hedge : BitVec 32 := 0
  /-- relash under way | optional | R267 | none -/
  relash : Option Relash := none
  /-- half-dies whose clear for a release or reset is due | list | R265, R279, R287 | none -/
  clearing : List Nat := []
  /-- what follows the relash in progress: 0 nothing, 1 a reset (R265), 2 a release (R279) | 2 bits | R265, R279 | 0 -/
  due : Nat := 0
  /-- completed relashes | UINT32 | R288 | 0 -/
  relashes : BitVec 32 := 0
  /-- T_relash of the last relash, ns | UINT32 | R288 | 0 -/
  tRelash : Nat := 0
  /-- idle time of R286, µs | UINT32 | R288 | 100 -/
  idleTime : Nat := 100
  /-- relash sequence number | 24 bits | R288 | 0 -/
  relashSeq : BitVec 24 := 0
  /-- result code of the last relash | 8 bits | R288 | 0 -/
  relashResult : Nat := 0
  /-- members are LOW under R286 | 1 bit | R286 | clear -/
  idleLow : Bool := false
  /-- time of the lash or of the last end of a command, ns; the bight may be idle since, ns | time | R286 | 0 -/
  idleSince : Nat := 0
  /-- error fence with the incarnation it is bound to, none when none | UINT16 | R424 | 0xFFFF none -/
  errorFence : Option (Nat × Nat) := none
  /-- slice length S, µs | UINT32 | R470 | 0 -/
  slice : Nat := 0
  /-- hold ceiling H_c, frames | UINT8 | R470 | 2 -/
  holdCeiling : Nat := 2
  /-- pre-emptions | UINT32 | R470 | 0 -/
  preempts : BitVec 32 := 0
  /-- duration of the last switch, ns | UINT32 | R470 | 0 -/
  lastSwitch : Nat := 0
  /-- hold-ceiling aborts | UINT32 | R470 | 0 -/
  holdAborts : BitVec 32 := 0
  /-- commit register, oldest first | list | R444 | empty -/
  creg : List RegEntry := []
  /-- run list: launched RUNs that are not resident, in order: queue, sequence | list | R457 | empty -/
  runList : List (Nat × Nat) := []
  /-- resident RUN and the time it became resident | optional | R457 | none -/
  resident : Option (Nat × Nat × Nat) := none
  /-- switch in progress: outgoing RUN to save (if any), incoming RUN, start time | optional | R459 | none -/
  switching : Option (Option (Nat × Nat) × (Nat × Nat) × Nat) := none
  /-- bight cycles since the resident RUN's cores started | count | R127, R128 | 0 -/
  ran : Nat := 0
  /-- schedule counter σ: bight cycles since its last start | count | R203 | 0 -/
  sigma : Nat := 0
  /-- grant G_b, none unlimited, mJ | UINT32 | R82 | 0xFFFF_FFFF unlimited -/
  grant : Option Nat := none
  /-- grants written and not yet in force, each with its write time; none once a boundary has come too soon for it | list | R60 | none -/
  grantNext : List (Option Nat × Option Nat) := []
  /-- effective grant, none unlimited, mJ | UINT32 | R62 | unlimited -/
  effective : Option Nat := none
  /-- effective grant of the last frame, none unlimited, mJ | UINT32 | R609 | unlimited -/
  lastEffective : Option Nat := none
  /-- energy charged in the current frame, pJ | count | R65 | 0 -/
  charged : Nat := 0
  /-- modelled energy charged in the current frame, by die, pJ | count each | R65, R67 | 0 -/
  model : Tab Nat := []
  /-- claims of commands that completed in this frame, pJ | count | R74 | 0 -/
  claimsDone : Nat := 0
  /-- debt, pJ | count | R63 | 0 -/
  debt : Nat := 0
  /-- restated energy in the last frame, pJ | UINT32 in mJ | R67 | 0 -/
  restated : Nat := 0
  /-- length of the last frame, ns | time | R69 | 0 -/
  lastFrame : Nat := 0
  /-- correction ratio, 16 fraction bits | UINT32 | R70 | 0x0001_0000 -/
  ratio : Nat := 0x10000
  /-- fallback estimate, µJ | UINT32 | R82 | 0 -/
  fallback : Nat := 0
  /-- self-policy weight | UINT16 | R82 | 1 -/
  weight : Nat := 1
  /-- frames that ended with debt | UINT32 | R82 | 0 -/
  debtFrames : BitVec 32 := 0
  /-- self-policy sharing level | 0 to 5 | R551 | 0 -/
  shareLevel : Nat := 0
  /-- Trim floor, 0x3200 + b .00 | UINT8, 0 to 7 | R548, R571 | 0 -/
  trimFloor : Nat := 0
  /-- fine counters enabled, 0x7050 | 1 bit | R608 | 0 -/
  fineCounters : Bool := false
  /-- program digest | 384 bits, optional | R591 | none -/
  program : Option (BitVec 384) := none
  /-- weight digests 0 to 3, each with the bytes measured | 384 bits and UINT64 each, optional | R591 | none -/
  weights : Tab (BitVec 384 × Nat) := []
deriving DecidableEq, Repr

/-- Who waits for a memory request. -/
inductive Owner where
  /-- piece of a command's transfer; index of the piece, and the address it goes to for a SEND -/
  | piece (queue seq index : Nat)
  | far (core : Nat)
  /-- a request received on a link port (48: the port has gone down since): request tag, source module, inbound window and
  offset -/
  | inbound (port tag source window offset : Nat)
  /-- a host access through BAR2 -/
  | aperture (fn : Nat)
  /-- a prefetch copy, a live save or another transfer whose data nobody waits for -/
  | none
deriving DecidableEq, Repr

/-- Where a memory request goes. -/
inductive Target where
  | hbm (addr : Nat)
  | host (fn port addr : Nat)
  /-- outbound window, offset in it, port it left through (48 none yet) and its packet's tag -/
  | remote (win offset port tag : Nat)
deriving DecidableEq, Repr

/-- An outstanding memory request (R317, R336, R429, R491). -/
structure Req where
  id : Nat
  owner : Owner
  target : Target
  write : Bool
  len : Nat
  data : Bytes := []
  /-- master at the port gate (R334), class and deadline (R336) -/
  master : Nat := 306
  cls : Nat := 3
  deadline : BitVec 24 := 0
  /-- encryption slot and generation, when the frame is encrypted (R355) -/
  key : Option (Nat × Bool) := none
  /-- its packet is a REDUCE -/
  reduce : Bool := false
  /-- ASID and virtual page it was translated from -/
  asid : Nat := 0
  page : Nat := 0
  /-- inbound window it came through, 256 none -/
  window : Nat := 256
  /-- waits 1 µs after NOT_READY, and when NOT_READY was first answered (R492) -/
  notReady : Option Nat := none
  resend : Bool := false
  /-- function of R349, whose keys the access may use (R597) -/
  fn : Nat := 0
  /-- command that pays: bight, queue, sequence; none for the base reserve (R65, R493) -/
  pay : Option (Nat × Nat × Nat) := none
  /-- EPOCH and ATTEMPT of an inbound packet (R481) -/
  epoch : Nat := 0
  attempt : Nat := 0
  /-- it outlived the erase of its key in a tenant removal (R606) -/
  late : Bool := false
  /-- circuit that carries it, none for a request that takes no circuit (R222, R248), and where it is -/
  circ : Option CircRef := none
  stage : ReqStage := .there
  /-- it stands for an access of a step, which takes its result (log 186) -/
  step : StepUse := .no
  /-- agent that its MEMERR names, where its owner does not tell (R304, R327) -/
  asAgent : Option Nat := none
  /-- bight that pays where no command does (R65) -/
  forBight : Option Nat := none
  /-- whose walk or step it is for (R360) -/
  stepBy : Option Requester := none
  result : ReqResult := .pending
deriving DecidableEq, Repr

/-- A link key slot (R484, R486). -/
structure LinkKey where
  key : Bytes
  /-- next COUNTER (transmit) or last accepted plus one (receive) -/
  counter : Nat := 0
deriving DecidableEq, Repr

/-- A packet (R481): header bytes and payload in the clear. -/
structure Packet where
  header : Bytes
  payload : Bytes
  /-- looped back inside the port: it took no credits (R488) -/
  loop : Bool := false
  /-- command that pays for sending it: bight, queue, sequence; none for the base reserve (R65) -/
  pay : Option (Nat × Nat × Nat) := none
deriving DecidableEq, Repr

/-- One link port (R472 to R487, R515). -/
structure Port where
  /-- state code: 0 OFF, 1 TRAINING, 2 UP, 3 DEGRADED, 4 DOWN | 3 bits | R472 | 0 OFF -/
  state : Nat := 0
  /-- lanes in use | 0, 2, 4 or 8 | R515 | 0 -/
  width : Nat := 0
  /-- first lane in use | 0 or 4 | R471 | 0 -/
  firstLane : Nat := 0
  /-- REKEY_DUE | 1 bit | R487 | 0 -/
  rekeyDue : Bool := false
  /-- transmit key slots 0 and 1 | 36 bytes each, optional | R486 | not valid -/
  tx : Tab LinkKey := []
  /-- receive key slots 0 and 1 | 36 bytes each, optional | R486 | not valid -/
  rx : Tab LinkKey := []
  /-- transmit selection | 1 bit | R515 | 0 -/
  txSel : Nat := 0
  /-- SEQ of the next data flit sent | 12 bits | R477 | 0, DESIGN CHOICE: the spec gives none -/
  txSeq : Nat := 0
  /-- SEQ expected in the next data flit received | 12 bits | R478 | 0, DESIGN CHOICE: the spec gives none -/
  rxSeq : Nat := 0
  /-- a NAK has been sent for the present gap | 1 bit | R478 | clear -/
  nakSent : Bool := false
  /-- payload stream of packets sent that no flit carries yet, fewer than 240 bytes | bytes | R483 | empty -/
  packing : Bytes := []
  /-- replay buffer, oldest first: SEQ and flit | at most 1,024 flits | R477 | empty -/
  replay : List (Nat × Bytes) := []
  /-- replays in a row that have not advanced ACK | count | R479 | 0 -/
  replays : Nat := 0
  /-- time ACK last advanced or a flit was first left unacknowledged, ns | time | R478 | 0 -/
  ackAt : Nat := 0
  /-- payload bytes received and not yet a whole packet | bytes | R483 | empty -/
  stream : Bytes := []
  /-- received packets of VC 0 to 3, oldest first | 64, 64, 128 and 16 KiB | R475 | empty -/
  rxq : Tab (List Packet) := []
  /-- packets of VC 0 to 3 waiting to be sent, oldest first | list | R476 | empty -/
  txq : Tab (List Packet) := []
  /-- credits held for VC 0 to 3, 16-byte units | UINT16 each | R475 | 0 -/
  credits : Tab Nat := []
  /-- credits to return for VC 0 to 3 in the next flit | UINT16 each | R474 | 0 -/
  owed : Tab Nat := []
  /-- retransmitted flits | UINT32 | R515 | 0 -/
  retransmissions : BitVec 32 := 0
  /-- FEC codewords corrected | UINT32 | R515 | 0 -/
  fecCorrected : BitVec 32 := 0
  /-- FEC codewords uncorrectable | UINT32 | R515 | 0 -/
  fecBad : BitVec 32 := 0
  /-- tag failures, replays and packets without a key | UINT32 | R515 | 0 -/
  rejected : BitVec 32 := 0
  /-- entries to DOWN | UINT32 | R515 | 0 -/
  downs : BitVec 32 := 0
  /-- free reduction slots | UINT16 | R515 | 1,024 -/
  freeSlots : Nat := 1024
  /-- tag of the next request packet | 16 bits | R481 | 0, DESIGN CHOICE: the spec gives none -/
  nextTag : Nat := 0
deriving DecidableEq, Repr

/-- A member's standing notice (R511): rate and low 32 bits of its frame counter. -/
structure Notice where
  rate : Nat
  frame : BitVec 32
deriving DecidableEq, Repr

/-- One pace group (R509 to R513, R515). -/
structure PaceGroup where
  /-- policy | UINT8 | R511 | 3 Auto -/
  policy : Nat := 3
  /-- local bight map | 4 × UINT64 | R515 | 0 -/
  bights : BitVec 256 := 0
  /-- member count | UINT8 | R515 | 0 -/
  count : Nat := 0
  /-- ports on which notices leave | UINT64 | R515 | 0 -/
  ports : BitVec 64 := 0
  /-- hold limit, frames | UINT8 | R515 | 4 -/
  holdLimit : Nat := 4
  /-- fabric group number | UINT16 | R515 | 0 -/
  number : Nat := 0
  /-- member module numbers (absent: 0xFFFF) | 64 × UINT16 | R515 | 0xFFFF -/
  members : Tab Nat := []
  /-- standing notices by member index | list | R511 | none -/
  notices : Tab Notice := []
  /-- rate last sent, MHz | 16 bits, optional | R510 | none -/
  sentRate : Option Nat := none
  /-- frame boundaries since the last PACE while below 2,500 MHz | 0 to 7 | R510 | 0 -/
  since : Nat := 0
  /-- frame of the newest notice, from which a hold counts | 48 bits, optional | R511 | none -/
  holdFrom : Option (BitVec 48) := none
  /-- the hold has lasted its limit | 1 bit | R511 | clear -/
  holdOver : Bool := false
  /-- the Hold policy holds the group's launches in this frame | 1 bit | R511 | clear -/
  hold : Bool := false
  /-- limit in force under Match, MHz | 16 bits, optional | R511 | none -/
  limit : Option Nat := none
deriving DecidableEq, Repr

/-- One handoff slot (R516 to R529). -/
structure Slot where
  /-- entry as held by the module | 64 bytes | R517 | zero -/
  entry : Bytes := List.replicate 64 0
  /-- state code | 4 bits | R518 | 0 IDLE -/
  state : Nat := 0
  /-- ZEROIZING | 1 bit | R517 | 0 -/
  zeroizing : Bool := false
  /-- time the slot's timer last restarted, ns | time | R529 | 0 -/
  timerAt : Nat := 0
  /-- state that QUERY was entered from | 4 bits | R528 | 0 -/
  before : Nat := 0
  /-- an OFFER is kept, with its sender slot | 8 bits, optional | R527 | none -/
  offer : Option Nat := none
  /-- pushing command's attempt, carried in OFFER | 8 bits | R525 | 0 -/
  attempt : Nat := 0
  /-- peer's slot number | 8 bits | R525 | 0xFF unknown -/
  peerSlot : Nat := 0xFF
  /-- time the slot's packet was last sent by its entry or by a resend, ns | time | R528 | 0 -/
  sentAt : Nat := 0
  /-- transitions that wait for report-queue space, oldest first: report kind, state after it, break code | list | R530 | none -/
  waiting : List (Nat × Nat × Nat) := []
  /-- handoff RECV: queue, sequence | optional | R520 | none -/
  recv : Option (Nat × Nat) := none
deriving DecidableEq, Repr

/-- The handoff block. -/
structure Handoff where
  /-- 0x6500.00 region address and EN | UINT64 | R538 | 0 -/
  region : Word := 0
  /-- slots | 256 slots | R516 | IDLE -/
  slots : Tab Slot := []
  /-- 0x6503.00 last operation | UINT32 | R538 | 0 -/
  lastOp : BitVec 32 := 0
  /-- packets matching no slot, 0x6504.01 | UINT32 | R538 | 0 -/
  unmatched : BitVec 32 := 0
  /-- matched packets ignored, 0x6504.02 | UINT32 | R538 | 0 -/
  ignored : BitVec 32 := 0
  /-- QUERY reports posted, 0x6504.03 | UINT32 | R538 | 0 -/
  queries : BitVec 32 := 0
  /-- transitions delayed, 0x6504.04 | UINT32 | R538 | 0 -/
  delayed : BitVec 32 := 0
  /-- report queue, oldest first: sequence and report | at most 64 × 16 bytes | R530 | empty -/
  reports : List (BitVec 16 × Bytes) := []
  /-- sequence of the next report | 16 bits | R538 | 0, DESIGN CHOICE: the spec gives none -/
  nextReport : BitVec 16 := 0
  /-- slot select, 0x6511.00 | UINT8 | R538 | 0 -/
  select : Nat := 0
  /-- slots whose ARM waits for the stack of the handoff region, oldest first | list | R318, R519 | none -/
  armWaiting : List Nat := []
deriving DecidableEq, Repr

/-- The fabric block. -/
structure Fabric where
  /-- module number, 0x6000.01 | UINT16 | R488 | 0xFFFF -/
  number : Nat := 0xFFFF
  /-- link ports | 48 ports | R472 | defaults -/
  ports : Tab Port := []
  /-- NOT_READY resends, 0x6003.01 | UINT32 | R515 | 0 -/
  resends : BitVec 32 := 0
  /-- notices and withdraws ignored, 0x6003.02 | UINT32 | R515 | 0 -/
  ignored : BitVec 32 := 0
  /-- packets dropped for DST or reserved TYPE, 0x6003.03 | UINT32 | R515 | 0 -/
  dropped : BitVec 32 := 0
  /-- pace groups | 16 groups | R509 | defaults -/
  pace : Tab PaceGroup := []
deriving DecidableEq, Repr

/-- The bights and the lash objects. -/
structure Bights where
  /-- bights by number | 256 bights | R244 | free -/
  tab : Tab Bight := []
  /-- 0x4011.00 sequence | 8 bits | R288 | 0 -/
  opSeq : BitVec 8 := 0
  /-- 0x4011.00 bight | 8 bits | R288 | 0 -/
  opBight : Nat := 0
  /-- 0x4011.00 operation | 8 bits | R288 | 0 -/
  opKind : Nat := 0
  /-- 0x4011.00 result code | 8 bits | R288 | 0 -/
  opResult : Nat := 0
  /-- lash requests whose image lies in a stack that is not ON, oldest first | 64 bytes each | R258, R318 | none -/
  lashWaiting : List Bytes := []
deriving DecidableEq, Repr

/-- What the module has sent outside itself. -/
inductive Sent where
  /-- an MSI-X message of a function's vector: address and data -/
  | msix (fn vector : Nat) (addr : Word) (data : BitVec 32)
  /-- a write to host memory on behalf of a function -/
  | host (fn port addr : Nat) (data : Bytes)
  /-- a read of host memory on behalf of a function -/
  | hostRead (fn port addr len : Nat)
  /-- an AER report of a host error on a function -/
  | aer (fn : Nat)
  /-- a data flit on a link port -/
  | flit (port : Nat) (data : Bytes)
  /-- a management Ethernet datagram -/
  | datagram (data : Bytes)
  /-- a Modbus TCP response: connection and response PDU -/
  | modbus (conn : Nat) (pdu : Bytes)
  /-- completion of a host access: none is Unsupported Request; poisoned or not -/
  | completion (fn : Nat) (poisoned : Bool) (data : Option Bytes)
deriving DecidableEq, Repr

end Sys2Proof.Machine
end

