-- ==== Sys2Proof/Machine/State.lean ====
section
/-! DEFINITION. The state of the module, what can stop a command, and the state right after reset. Every field's docstring
reads `content | width | rule | value at reset`; the blocks' own fields are in the three Blocks files. -/

namespace Sys2Proof.Machine

/-- Reasons for a step to stop with a fault. The spec gives every command of the table an effect in every state, and its own
failures (bus errors, translation faults, refusals, kills) are effects on the state, so this type has no member: nothing
raises a fault. Safe: no run is cut short. -/
inductive Fault where
deriving DecidableEq, Repr

/-- Reasons for a step to refuse a command. -/
inductive Refusal where
  /-- raised by an arm of `exec` whose command has no meaning yet; safe, since the run stops there -/
  | notModelled (mnemonic : String)
deriving DecidableEq, Repr

/-- The module. -/
structure State where
  /-- commands waiting, first in first out | list of commands | model's own | empty -/
  pending : List Instr := []
  /-- time since the start, ns | counter | R48 | 0 -/
  now : Nat := 0
  /-- number of free values used so far | counter | model's own (log 3) | 0, DESIGN CHOICE -/
  fresh : Nat := 0
  /-- fuses and what test fixed | block | R4, R579 | instance values -/
  fuses : Fuses := {}
  /-- supply and reset line | block | R563, R640 | in reset, cause SUPPLY -/
  supply : Supply := {}
  /-- boot registers | block | R576 | RESET -/
  boot : Boot := {}
  /-- power domains by index | 641 domains | R28 | OFF -/
  domains : Tab Domain := []
  /-- memory-hold bits, one per cluster: clusters whose bit is set | 512 bits | R38 | clear -/
  memHold : List Nat := []
  /-- frame | block | R49 | unlocked, counter 0 -/
  frame : Frame := {}
  /-- module energy | block | R59 | unlimited -/
  energy : Energy := {}
  /-- power, supply events and heat | block | R571 | as its fields -/
  power : Power := {}
  /-- logs and Rootstock | block | R647 | empty -/
  errors : Errors := {}
  /-- Object Dictionary and its transports | block | R633 | as its fields -/
  dict : Dict := {}
  /-- keys, measurements, removal | block | R610 | as its fields -/
  security : Security := {}
  /-- cores by physical core ID | 8,192 cores | R88 | idle -/
  cores : Tab Core := []
  /-- matrix engines by cluster | 512 engines | R177 | idle -/
  engines : Tab Engine := []
  /-- mesh and Lanyard | block | R211 | empty -/
  mesh : Mesh := {}
  /-- SRAM protection | block | R292 | as its fields -/
  sram : Sram := {}
  /-- HBM controllers and gates | block | R315 | as its fields -/
  hbm : Hbm := {}
  /-- translation, faults, windows | block | R347 | as its fields -/
  xlat : Xlat := {}
  /-- host interface | block | R389 | as its fields -/
  host : HostIf := {}
  /-- queues by number | 4,096 queues | R404 | none exists -/
  queues : Tab Queue := []
  /-- fences by number | 65,535 fences | R417 | none exists -/
  fences : Tab Fence := []
  /-- bights | block | R244 | all free -/
  bights : Bights := {}
  /-- link ports, pace groups | block | R471 | as its fields -/
  fabric : Fabric := {}
  /-- handoff slots and reports | block | R516 | as its fields -/
  handoff : Handoff := {}
  /-- HBM and SRAM contents by module physical address, zero where not listed | bytes | R10, R32, R34 | zero -/
  mem : List Host.Cell := []
  /-- SRAM check bits that differ from the valid ones, by word address | 17 bits each | R292 | all valid -/
  sramCheck : Tab (BitVec 17) := []
  /-- HBM check symbols that differ from the valid ones, by code-word number | 64 bits each | R321 | all valid -/
  hbmCheck : Tab (BitVec 64) := []
  /-- outstanding memory requests, oldest first | list | R317, R341 | none -/
  reqs : List Req := []
  /-- number of the next request | counter | model's own (log 11) | 0 -/
  nextReq : Nat := 0
  /-- what the module has sent outside itself, newest first | list | model's own (log 10) | none -/
  sent : List Sent := []
deriving DecidableEq, Repr

/-- The module right after reset: no supply, every field at its reset value, no command waiting. The boot sequence of R640
to R641 (the commands SUPPLY_GOOD, BOOT_GO, IMAGE_VERIFIED and READY) leads from here to READY. -/
def State.reset : State := {}

end Sys2Proof.Machine
end

