-- ==== Sys2Proof/Machine/Ops.lean ====
section
/-! DEFINITION. The named operations on the state that the commands share: reading and changing one object of a table, free
values, time stamps, logs, interrupts, host writes, Lanyard messages and power domains. -/

namespace Sys2Proof.Machine

/-- What a meaning answers. -/
abbrev Out := Host.Outcome State Fault Refusal

/-! ### Objects of the tables -/

def State.domain (s : State) (i : Nat) : Domain := Tab.look {} s.domains i
def State.setDomain (s : State) (i : Nat) (d : Domain) : State := { s with domains := Tab.put {} s.domains i d }
def State.core (s : State) (k : Nat) : Core := Tab.look {} s.cores k
def State.setCore (s : State) (k : Nat) (c : Core) : State := { s with cores := Tab.put {} s.cores k c }
def State.modCore (s : State) (k : Nat) (f : Core → Core) : State := s.setCore k (f (s.core k))
def State.engine (s : State) (c : Nat) : Engine := Tab.look {} s.engines c
def State.setEngine (s : State) (c : Nat) (e : Engine) : State := { s with engines := Tab.put {} s.engines c e }
def State.modEngine (s : State) (c : Nat) (f : Engine → Engine) : State := s.setEngine c (f (s.engine c))
def State.router (s : State) (r : Nat) : Router := Tab.look {} s.mesh.routers r
def State.setRouter (s : State) (r : Nat) (x : Router) : State :=
  { s with mesh := { s.mesh with routers := Tab.put {} s.mesh.routers r x } }
def State.modRouter (s : State) (r : Nat) (f : Router → Router) : State := s.setRouter r (f (s.router r))
def State.group (s : State) (g : Nat) : Group := Tab.look {} s.hbm.groups g
def State.setGroup (s : State) (g : Nat) (x : Group) : State :=
  { s with hbm := { s.hbm with groups := Tab.put {} s.hbm.groups g x } }
def State.modGroup (s : State) (g : Nat) (f : Group → Group) : State := s.setGroup g (f (s.group g))
def State.fn (s : State) (n : Nat) : Fn := Tab.look {} s.host.fns n
def State.setFn (s : State) (n : Nat) (x : Fn) : State :=
  { s with host := { s.host with fns := Tab.put {} s.host.fns n x } }
def State.modFn (s : State) (n : Nat) (f : Fn → Fn) : State := s.setFn n (f (s.fn n))
def State.bight (s : State) (b : Nat) : Bight := Tab.look {} s.bights.tab b
def State.setBight (s : State) (b : Nat) (x : Bight) : State :=
  { s with bights := { s.bights with tab := Tab.put {} s.bights.tab b x } }
def State.modBight (s : State) (b : Nat) (f : Bight → Bight) : State := s.setBight b (f (s.bight b))
def State.queue? (s : State) (q : Nat) : Option Queue := Tab.find? s.queues q
def State.setQueue (s : State) (q : Nat) (x : Queue) : State := { s with queues := Tab.set s.queues q x }
/-- The queue changed by `f`, when it exists. -/
def State.modQueue (s : State) (q : Nat) (f : Queue → Queue) : State :=
  match s.queue? q with
  | some x => s.setQueue q (f x)
  | none => s
def State.fence? (s : State) (f : Nat) : Option Fence := Tab.find? s.fences f
def State.setFence (s : State) (f : Nat) (x : Fence) : State := { s with fences := Tab.set s.fences f x }
def State.port (s : State) (p : Nat) : Port := Tab.look {} s.fabric.ports p
def State.setPort (s : State) (p : Nat) (x : Port) : State :=
  { s with fabric := { s.fabric with ports := Tab.put {} s.fabric.ports p x } }
def State.modPort (s : State) (p : Nat) (f : Port → Port) : State := s.setPort p (f (s.port p))
def State.pace (s : State) (i : Nat) : PaceGroup := Tab.look {} s.fabric.pace i
def State.setPace (s : State) (i : Nat) (x : PaceGroup) : State :=
  { s with fabric := { s.fabric with pace := Tab.put {} s.fabric.pace i x } }
def State.slot (s : State) (i : Nat) : Slot := Tab.look {} s.handoff.slots i
def State.setSlot (s : State) (i : Nat) (x : Slot) : State :=
  { s with handoff := { s.handoff with slots := Tab.put {} s.handoff.slots i x } }
def State.modSlot (s : State) (i : Nat) (f : Slot → Slot) : State := s.setSlot i (f (s.slot i))
def State.keySlot (s : State) (i : Nat) : KeySlot := Tab.look {} s.security.slots i
def State.setKeySlot (s : State) (i : Nat) (x : KeySlot) : State :=
  { s with security := { s.security with slots := Tab.put {} s.security.slots i x } }
def State.modKeySlot (s : State) (i : Nat) (f : KeySlot → KeySlot) : State := s.setKeySlot i (f (s.keySlot i))
def State.inWin (s : State) (w : Nat) : InWindow := Tab.look {} s.xlat.inbound w
def State.setInWin (s : State) (w : Nat) (x : InWindow) : State :=
  { s with xlat := { s.xlat with inbound := Tab.put {} s.xlat.inbound w x } }
def State.outWin (s : State) (w : Nat) : OutWindow := Tab.look {} s.xlat.outbound w
def State.setOutWin (s : State) (w : Nat) (x : OutWindow) : State :=
  { s with xlat := { s.xlat with outbound := Tab.put {} s.xlat.outbound w x } }

/-- The command of a queue with a sequence number, among those fetched and not completed. -/
def Queue.cmd? (q : Queue) (seq : Nat) : Option Cmd := q.cmds.find? fun c => c.seq == seq
def State.cmd? (s : State) (q seq : Nat) : Option Cmd := (s.queue? q).bind (·.cmd? seq)
/-- The command changed by `f`. -/
def Queue.modCmd (q : Queue) (seq : Nat) (f : Cmd → Cmd) : Queue :=
  { q with cmds := q.cmds.map fun c => if c.seq == seq then f c else c }
def State.modCmd (s : State) (q seq : Nat) (f : Cmd → Cmd) : State := s.modQueue q (·.modCmd seq f)

/-! ### Free values and what is sent -/

/-- A free natural number, different at each use (log 3). -/
def State.freeNat (s : State) : Nat × State := (Config.freeNat s.fresh, { s with fresh := s.fresh + 1 })
/-- A free word, different at each use (log 3). -/
def State.freeWord (s : State) : Word × State := (Config.freeWord s.fresh, { s with fresh := s.fresh + 1 })
/-- Free bytes, different at each use (log 3). -/
def State.freeBytes (s : State) : Bytes × State := (Config.freeBytes s.fresh, { s with fresh := s.fresh + 1 })

/-- Record something sent. -/
def State.send (s : State) (x : Sent) : State := { s with sent := x :: s.sent }

/-! ### Frame phase and stamps (R56 to R58) -/

/-- The phase (R56). -/
def State.phase (s : State) : Nat := min (65536 * (s.now - s.frame.boundaryAt) / s.frame.period) 0xFFFF

/-- The frame time stamp (R57). -/
def State.stamp (s : State) : BitVec 24 :=
  BitVec.ofNat 24 (s.frame.counter.toNat % 256 * 65536 + s.phase)

/-- Whether stamp a lies before stamp b (R58). -/
def stampBefore (a b : BitVec 24) : Bool := let d := (b - a).toNat; decide (1 ≤ d) && decide (d ≤ 2 ^ 23 - 1)

/-! ### Logs (R647, R648) -/

/-- Write an event log entry; a full log loses its oldest entry, which is counted (R647). -/
def State.event (s : State) (code : Nat) (arg : Nat) : State :=
  let e := s.errors
  let entry := (s.stamp, e.nextEvent, BitVec.ofNat 16 code, BitVec.ofNat 64 arg)
  let full := decide (256 ≤ e.events.length)
  { s with errors := { e with
      events := (if full then e.events.drop 1 else e.events) ++ [entry]
      nextEvent := e.nextEvent + 1
      replaced := if full then e.replaced + 1 else e.replaced } }

/-- Record a FAULT or DEAD_LETTER message in the fault log (R648). -/
def State.logFault (s : State) (ty : Nat) (payload : List Flit) : State :=
  { s with errors := { s.errors with
      faults := ((s.stamp, ty, payload) :: s.errors.faults).take 64
      faultTotal := s.errors.faultTotal + 1 } }

/-! ### Host interface (R392, R395, R396) -/

/-- The PCIe port that function n uses (R392); function 0 is on both, and uses the first whose link is up where no PORT field
names one (R390, log 12). -/
def State.portOfFn (s : State) (n : Nat) : Nat :=
  if n = 0 then (if s.host.linkUp.contains 1 && !s.host.linkUp.contains 0 then 1 else 0) else (s.fn n).port

/-- A function is on a port whose link is up; function 0 is on both (R390, R391). -/
def State.fnUp (s : State) (n : Nat) : Bool := s.host.linkUp.contains (s.portOfFn n)

/-- The parts of some bytes at most `u` long that cross no multiple of `u`: address and length; the fuel bounds their number. -/
def cutParts (u : Nat) : Nat → Nat → Nat → List (Nat × Nat)
  | 0, _, _ => []
  | fuel + 1, a, n =>
    if n = 0 then []
    else
      let m := min n (u - a % u)
      (a, m) :: cutParts u fuel (a + m) (n - m)

/-- A write to host memory on behalf of function n through a port, in payloads of at most 512 bytes (R389, log 197); a port whose link
is down carries nothing. -/
def State.hostWriteVia (s : State) (n port addr : Nat) (d : Bytes) : State :=
  if s.host.linkUp.contains port then
    (cutParts 512 (d.length / 512 + 2) addr d.length).foldl (fun (s : State) e =>
      s.send (.host n port e.1 (slice d (e.1 - addr) e.2))) s
  else s

/-- An AER report of a host error on a function (R389, R429). -/
def State.aer (s : State) (fn : Nat) : State := s.send (.aer fn)

/-- A write to host memory on behalf of function n. -/
def State.hostWrite (s : State) (n addr : Nat) (d : Bytes) : State := s.hostWriteVia n (s.portOfFn n) addr d

/-- Raise MSI-X vector v of function n: a masked vector sets its pending bit (R395, as in the PCIe specification). -/
def State.irq (s : State) (n v : Nat) : State :=
  let e := Tab.look {} (s.fn n).msix v
  if e.control.getLsbD 0 then s.modFn n fun f => { f with pba := f.pba ||| (1 <<< v) }
  else if s.host.linkUp.contains (s.portOfFn n) then s.send (.msix n v e.addr e.data) else s

/-- Set bit `bit` of MG_IRQ_CAUSE of function n and raise the vector that carries it (R396). -/
def State.cause (s : State) (n bit : Nat) : State :=
  (s.modFn n fun f => { f with irqCause := f.irqCause ||| (1 <<< bit) }).irq n (if bit = 1 then 1 else 0)

/-- A module event: bit [5] of function 0 (R396). -/
def State.moduleEvent (s : State) : State := s.cause 0 5

/-- A saturating 16-bit count. -/
def satInc16 (x : BitVec 16) : BitVec 16 := if x = 0xFFFF then x else x + 1
/-- A saturating 32-bit count. -/
def satInc32 (x : BitVec 32) : BitVec 32 := if x = 0xFFFFFFFF then x else x + 1

/-! ### Power domains (R29 to R36) -/

def State.dom (s : State) (i : Nat) : DomState := (s.domain i).state
def State.domIs (s : State) (i : Nat) (d : DomState) : Bool := s.dom i == d
def State.clusterOn (s : State) (c : Nat) : Bool := s.domIs c .on
/-- The SRAM of cluster c answers: its domain is LOW or ON (R33). -/
def State.sramLive (s : State) (c : Nat) : Bool := s.domIs c .low || s.domIs c .on
/-- The stack answers or holds requests: it is LOW, ON, or CHANGING between the two (R34, R318). -/
def State.stackHeld (s : State) (st : Nat) : Bool :=
  let d := s.domain (domStack st)
  match d.state with
  | .low | .on => true
  | .changing => (d.origin != .off) && (d.target != .off)
  | .off => false

/-- The value a domain is at, or is on its way to once its held requests are applied (R36). -/
def Domain.final (d : Domain) : DomState :=
  match d.held.getLast? with
  | some x => x
  | none => if d.state = .changing then d.target else d.state

/-- A domain that stands still starts towards a state (R35, R36); a request for the state it has changes nothing. -/
def Domain.start (d : Domain) (x : DomState) : Domain :=
  if d.state = x then d else { d with state := .changing, target := x, origin := d.state }

/-- A domain request arrives (R36): it is held while the domain is CHANGING and while earlier requests are held, else applied. -/
def Domain.request (d : Domain) (x : DomState) : Domain :=
  if d.state = .changing ∨ d.held ≠ [] then { d with held := d.held ++ [x] } else d.start x

/-- Disarm a cluster's flip mask (R313). -/
def State.disarm (s : State) (c : Nat) : State :=
  { s with sram := { s.sram with
    flipHi := Tab.put 0 s.sram.flipHi c (Tab.look 0 s.sram.flipHi c &&& 0x7FFFFFFFFFFFFFFF) } }

/-! ### Placements (R245 to R250) -/

def Place.isHole (p : Place) (lam : Nat) : Bool := p.holes.contains lam
/-- The λ of every member, ascending: its position is the carry index (R249). -/
def Place.members (p : Place) : List Nat := (List.range (p.w * p.h)).filter fun l => !p.isHole l
/-- The physical cluster of logical index λ (R249). -/
def Place.cluster (p : Place) (lam : Nat) : Nat := clusterAt (p.x0 + lam % p.w) (p.y0 + lam / p.w)
def Place.memberClusters (p : Place) : List Nat := p.members.map p.cluster
/-- Every cluster of the rectangle, holes included. -/
def Place.rectangle (p : Place) : List Nat := (List.range (p.w * p.h)).map p.cluster
/-- Every router of the rectangle. -/
def Place.routers (p : Place) : List Nat := p.rectangle.flatMap coresOf
/-- The logical router ID y':x' of a router of the rectangle (R215). -/
def Place.logical (p : Place) (r : Nat) : Nat := (coreY r - 4 * p.y0) * 128 + (coreX r - 4 * p.x0)
/-- λ of a cluster of the rectangle. -/
def Place.lambdaOf (p : Place) (c : Nat) : Nat := p.w * (clusterY c - p.y0) + (clusterX c - p.x0)
def Place.holdsGroup (p : Place) (g : Nat) : Bool := p.groups.getLsbD g
def Place.holdsPort (p : Place) (n : Nat) : Bool := p.ports.getLsbD n

/-! ### The Lanyard (R233, R238) -/

/-- The header flit of a message, CHECK being the XOR of the seven nibbles above it (R233). -/
def lanHeader (m : LanMsg) : Flit :=
  let h : Nat := (m.ty % 16) * 2 ^ 28 + (m.dest % 1024) * 2 ^ 18 + (m.src % 1024) * 2 ^ 8 + m.payload.length * 32 +
    (if m.high then 16 else 0)
  BitVec.ofNat 32 (h + xorAll ((List.range 7).map fun i => fieldN h (4 * i + 4) 4))

/-- Put a message on the Lanyard (R233). -/
def State.lanSend (s : State) (ty dest src : Nat) (high : Bool) (payload : List Flit) : State :=
  { s with mesh := { s.mesh with lan := s.mesh.lan ++ [{ ty, dest, src, high, payload, at' := s.now }] } }

/-- The n-th message in flight may be the next to arrive (R235): no earlier one of its priority waits from its source to its
destination, and a normal one lets the high-priority ones to its destination pass. -/
def State.lanNext (s : State) (n : Nat) (m : LanMsg) : Bool :=
  ((s.mesh.lan.take n).all fun k => !(k.src == m.src && k.dest == m.dest && k.high == m.high)) &&
    (m.high || s.mesh.lan.all fun k => !(k.high && k.dest == m.dest))

/-- The n-th message in flight, when it may arrive now, and the state without it. -/
def State.lanTake (s : State) (n : Nat) : Option (LanMsg × State) :=
  (s.mesh.lan[n]?).bind fun m =>
    if s.lanNext n m then some (m, { s with mesh := { s.mesh with lan := dropAt s.mesh.lan n } }) else none

/-- Whether a destination stop is powered (R28, R238): its domain is ON, or LOW for a channel group or cluster. The management
processor always is. -/
def State.stopPowered (s : State) (a : Nat) : Bool :=
  match domainOfStop a with
  | some i => i == domMgmt || s.domIs i .on || s.domIs i .low
  | none => a == stopAll

/-- A message that takes effect as it is sent, since it arrives within 400 ns (R234; log 180), is recorded; one for an unpowered
stop is dropped and counted (R238). What its destination does follows at the place that sends it. -/
def State.lanCarry (s : State) (ty dest src : Nat) (payload : List Flit) : State :=
  { s with mesh :=
      if s.stopPowered dest then
        { s.mesh with carried := { ty, dest, src, high := false, payload, at' := s.now } :: s.mesh.carried }
      else { s.mesh with dropsUnpowered := s.mesh.dropsUnpowered + 1 } }

/-- The two-bit code of a domain state (R29). -/
def domCode : DomState → Nat
  | .off => 0
  | .low => 1
  | .on => 2
  | .changing => 3

/-- The stop of a domain that its DOMAIN messages go to (R232, R239). -/
def stopOfDomain (i : Nat) : Nat :=
  match domKind i with
  | .cluster c => c
  | .half h => stopHalf h
  | .stack st => stopGroup (2 * st)
  | .port p => stopPort p
  | .die d => stopDie d
  | _ => stopMgmt

/-- A DOMAIN message between the management processor and the stop of a domain, whose one payload flit is open (R239, log 180). -/
def State.domainMsg (s : State) (back : Bool) (i : Nat) (x : DomState) : State :=
  let m : LanMsg := { ty := 7, dest := if back then stopMgmt else stopOfDomain i, src := if back then stopOfDomain i else stopMgmt,
                      high := false, payload := [Config.domainFlit back i (domCode x)], at' := s.now }
  { s with mesh := { s.mesh with carried := m :: s.mesh.carried } }

/-- A domain changes to `d`: a DOMAIN message starts its transition (R239), and a cluster that so leaves LOW or ON disarms its flip
mask (R313). A cluster that leaves OFF has its rails set again (R562, log 217). -/
def State.moveDom (s : State) (i : Nat) (d : Domain) : State :=
  let o := s.domain i
  let s := s.setDomain i d
  let s := if o.state != .changing && d.state == .changing then s.domainMsg false i d.target else s
  let s := if decide (i < 512) && o.state == .off && d.state == .changing then
      { s with power := { s.power with railsDropped := without s.power.railsDropped (dieOfCluster i) } }
    else s
  if decide (i < 512) && (o.state == .low || o.state == .on) && d.state == .changing then s.disarm i else s

def State.reqDom (s : State) (i : Nat) (x : DomState) : State := s.moveDom i ((s.domain i).request x)

/-- The two halves of a word as flits, the low one first. -/
def wordFlits (w : Word) : List Flit := [w.extractLsb' 0 32, w.extractLsb' 32 32]

/-- The stop that speaks for a bight: its first member's cluster. -/
def State.stopOfBight (s : State) (b : Nat) : Nat := (s.bight b).place.memberClusters.headD 0

/-! ### Whether the module is up -/

/-- The module has reached READY since its last reset (R576, R641). -/
def State.isReady (s : State) : Bool := s.boot.state == .ready && !s.supply.inReset

/-- The policy mode in force is self-policy (R79). -/
def State.selfPolicy (s : State) : Bool := s.frame.selfPolicy

end Sys2Proof.Machine
end

