-- ==== Sys2Proof/Machine/DictOps.lean ====
section
/-! DEFINITION. How the Object Dictionary answers a write: open transports, writers, levels and status codes (R611 to R622). -/

namespace Sys2Proof.Machine

/-! ### Status codes (R621) -/

def dOk : Nat := 0x00
def dNoObject : Nat := 0x01
def dNoSubindex : Nat := 0x02
def dAccess : Nat := 0x03
def dLength : Nat := 0x04
def dRange : Nat := 0x05
def dRefused : Nat := 0x06
def dLevel : Nat := 0x07
def dTransport : Nat := 0x08
def dBusy : Nat := 0x09
def dHostError : Nat := 0x0A

/-- A transport's number in the tables of the state. -/
def viaNum : Via → Nat
  | .mailbox => 0
  | .ethernet => 1

/-- The Dictionary serves a transport (R619, R630, R675). -/
def State.dictOpen (s : State) (v : Via) : Bool :=
  s.isReady && (match v with
    | .mailbox => s.host.linkUp.contains 0 || s.host.linkUp.contains 1
    | .ethernet => decide (s.dict.ip ≠ 0) && s.dict.sgmiiUp)

/-- The expert enable of a transport (R618). -/
def State.expertOn (s : State) (v : Via) : Bool :=
  match v with
  | .mailbox => s.dict.expertMbox
  | .ethernet => s.dict.expertEth

/-- An object of a level answers a request of a transport (R618, R619). -/
def State.levelOk (s : State) (v : Via) (expert : Bool) : Bool := !expert || (s.expertOn v && !s.errors.rootstock)

/-- Record the status with which a transport's request ended; a request that resets the module leaves none. -/
def State.noteStatus (s : State) (v : Via) (st : Nat) : State :=
  if s.supply.inReset then s else { s with dict := { s.dict with lastStatus := Tab.set s.dict.lastStatus (viaNum v) st } }

/-- Read a record of `n` bytes from the host memory of function 0, through its port (R258, R405, R419, R430). -/
def State.readRecord (s : State) (addr n : Nat) : State := s.send (.hostRead 0 (s.portOfFn 0) addr n)

/-- What a write of an object does once the checks before its own have passed: a status and the state. -/
abbrev Act := State → Nat × State

/-- The checks of R621 that come before an object's own: the transport, then the level. -/
def State.guardWrite (s : State) (v : Via) (eth expert : Bool) (act : Act) : Nat × State :=
  if v = .ethernet ∧ eth = false then (dTransport, s)
  else if !s.levelOk v expert then (dLevel, s)
  else act s

/-- A write of an object by a command of its own: it has no effect while the transport is closed. -/
def State.objWrite (s : State) (v : Via) (eth expert : Bool) (act : Act) : State :=
  if s.dictOpen v then
    let (st, s') := s.guardWrite v eth expert act
    s'.noteStatus v st
  else s

end Sys2Proof.Machine
end

