-- ==== Sys2Proof/Machine/Crypto.lean ====
section
/-! DEFINITION. The functions of external standards that the spec names, written out from those standards: SHA-2 (FIPS 180-4), HMAC
and MGF1, AES-256 (FIPS 197) in XTS (IEEE 1619) and in GCM (SP 800-38D), and RSASSA-PSS (RFC 8017) (R484, R572, R580, R595, R627; log
6). -/

namespace Sys2Proof.Crypto

/-! ### SHA-2 -/

/-- The constants of FIPS 180-4, section 4.2.3, sixteen at a time: the first 64 bits of the fractional parts of the cube roots of
the first eighty primes. -/
def shaK0 : List Nat :=
  [0x428a2f98d728ae22, 0x7137449123ef65cd, 0xb5c0fbcfec4d3b2f, 0xe9b5dba58189dbbc,
    0x3956c25bf348b538, 0x59f111f1b605d019, 0x923f82a4af194f9b, 0xab1c5ed5da6d8118,
    0xd807aa98a3030242, 0x12835b0145706fbe, 0x243185be4ee4b28c, 0x550c7dc3d5ffb4e2,
    0x72be5d74f27b896f, 0x80deb1fe3b1696b1, 0x9bdc06a725c71235, 0xc19bf174cf692694]
def shaK1 : List Nat :=
  [0xe49b69c19ef14ad2, 0xefbe4786384f25e3, 0x0fc19dc68b8cd5b5, 0x240ca1cc77ac9c65,
    0x2de92c6f592b0275, 0x4a7484aa6ea6e483, 0x5cb0a9dcbd41fbd4, 0x76f988da831153b5,
    0x983e5152ee66dfab, 0xa831c66d2db43210, 0xb00327c898fb213f, 0xbf597fc7beef0ee4,
    0xc6e00bf33da88fc2, 0xd5a79147930aa725, 0x06ca6351e003826f, 0x142929670a0e6e70]
def shaK2 : List Nat :=
  [0x27b70a8546d22ffc, 0x2e1b21385c26c926, 0x4d2c6dfc5ac42aed, 0x53380d139d95b3df,
    0x650a73548baf63de, 0x766a0abb3c77b2a8, 0x81c2c92e47edaee6, 0x92722c851482353b,
    0xa2bfe8a14cf10364, 0xa81a664bbc423001, 0xc24b8b70d0f89791, 0xc76c51a30654be30,
    0xd192e819d6ef5218, 0xd69906245565a910, 0xf40e35855771202a, 0x106aa07032bbd1b8]
def shaK3 : List Nat :=
  [0x19a4c116b8d2d0c8, 0x1e376c085141ab53, 0x2748774cdf8eeb99, 0x34b0bcb5e19b48a8,
    0x391c0cb3c5c95a63, 0x4ed8aa4ae3418acb, 0x5b9cca4f7763e373, 0x682e6ff3d6b2b8a3,
    0x748f82ee5defb2fc, 0x78a5636f43172f60, 0x84c87814a1f0ab72, 0x8cc702081a6439ec,
    0x90befffa23631e28, 0xa4506cebde82bde9, 0xbef9a3f7b2c67915, 0xc67178f2e372532b]
def shaK4 : List Nat :=
  [0xca273eceea26619c, 0xd186b8c721c0c207, 0xeada7dd6cde0eb1e, 0xf57d4f7fee6ed178,
    0x06f067aa72176fba, 0x0a637dc5a2c898a6, 0x113f9804bef90dae, 0x1b710b35131c471b,
    0x28db77f523047d84, 0x32caab7b40c72493, 0x3c9ebe0a15c9bebc, 0x431d67c49c100d4c,
    0x4cc5d4becb3e42b6, 0x597f299cfc657e2a, 0x5fcb6fab3ad6faec, 0x6c44198c4a475817]

/-- The first states of SHA-512 and SHA-384 (FIPS 180-4, section 5.3): fractional parts of the square roots of the first eight primes
and of the next eight. -/
def shaStart512 : List Nat :=
  [0x6a09e667f3bcc908, 0xbb67ae8584caa73b, 0x3c6ef372fe94f82b, 0xa54ff53a5f1d36f1,
    0x510e527fade682d1, 0x9b05688c2b3e6c1f, 0x1f83d9abfb41bd6b, 0x5be0cd19137e2179]
def shaStart384 : List Nat :=
  [0xcbbb9d5dc1059ed8, 0x629a292a367cd507, 0x9159015a3070dd17, 0x152fecd8f70e5939,
    0x67332667ffc00b31, 0x8eb44a8768581511, 0xdb0c2e0d64f98fa7, 0x47b5481dbefa4fa4]

/-- The round constants as words of `w` bits: those of SHA-256 are the first 32 bits of the first 64 of them. -/
def shaK (w : Nat) : List (BitVec w) :=
  (if w = 64 then shaK0 ++ shaK1 ++ shaK2 ++ shaK3 ++ shaK4 else shaK0 ++ shaK1 ++ shaK2 ++ shaK3).map fun x =>
    BitVec.ofNat w (x / 2 ^ (64 - w))

/-- Three rotations, or two rotations and a shift, joined by XOR. -/
def rot3 {w : Nat} (a b c : Nat) (x : BitVec w) : BitVec w := x.rotateRight a ^^^ x.rotateRight b ^^^ x.rotateRight c
def rot2 {w : Nat} (a b c : Nat) (x : BitVec w) : BitVec w := x.rotateRight a ^^^ x.rotateRight b ^^^ x >>> c

/-- The four functions of a word (FIPS 180-4, sections 4.1.2 and 4.1.3): Σ0, Σ1, σ0, σ1. -/
def bigSigma0 {w : Nat} (x : BitVec w) : BitVec w := if w = 64 then rot3 28 34 39 x else rot3 2 13 22 x
def bigSigma1 {w : Nat} (x : BitVec w) : BitVec w := if w = 64 then rot3 14 18 41 x else rot3 6 11 25 x
def smallSigma0 {w : Nat} (x : BitVec w) : BitVec w := if w = 64 then rot2 1 8 7 x else rot2 7 18 3 x
def smallSigma1 {w : Nat} (x : BitVec w) : BitVec w := if w = 64 then rot2 19 61 6 x else rot2 17 19 10 x

/-- The message schedule, latest word first: `n` words more. -/
def shaSchedule {w : Nat} : Nat → List (BitVec w) → List (BitVec w)
  | 0, l => l
  | n + 1, l =>
    shaSchedule n ((smallSigma1 (l.getD 1 0) + l.getD 6 0 + smallSigma0 (l.getD 14 0) + l.getD 15 0) :: l)

/-- One round: a constant and a word of the schedule. -/
def shaRound {w : Nat} (h : List (BitVec w)) (kw : BitVec w × BitVec w) : List (BitVec w) :=
  match h with
  | [a, b, c, d, e, f, g, i] =>
    let t := i + bigSigma1 e + ((e &&& f) ^^^ (~~~e &&& g)) + kw.1 + kw.2
    [t + bigSigma0 a + ((a &&& b) ^^^ (a &&& c) ^^^ (b &&& c)), a, b, c, d + t, e, f, g]
  | h => h

/-- Sixteen big-endian words of a block. -/
def shaWords (w : Nat) (b : Bytes) : List (BitVec w) :=
  (List.range 16).map fun i => BitVec.ofNat w (beNat (slice b (w / 8 * i) (w / 8)))

/-- A block is taken in. -/
def shaBlock {w : Nat} (h : List (BitVec w)) (b : Bytes) : List (BitVec w) :=
  let k := shaK w
  let sched := (shaSchedule (k.length - 16) (shaWords w b).reverse).reverse
  List.zipWith (· + ·) h ((k.zip sched).foldl shaRound h)

/-- A message with its padding: a one bit, zeros, and its length in bits, to whole blocks of 16 words. -/
def shaPad (w : Nat) (m : Bytes) : Bytes :=
  let block := 2 * w
  let n := m.length + 1 + w / 4
  m ++ [0x80] ++ List.replicate ((block - n % block) % block) 0 ++ beBytes (w / 4) (8 * m.length)

/-- The bytes of a state after a message. -/
def sha2 (w : Nat) (start : List (BitVec w)) (m : Bytes) : Bytes :=
  let p := shaPad w m
  let h := (List.range (p.length / (2 * w))).foldl (fun h i => shaBlock h (slice p (2 * w * i) (2 * w))) start
  h.flatMap fun x => beBytes (w / 8) x.toNat

/-- SHA-256 of a byte string. -/
@[irreducible] def sha256 (m : Bytes) : Bytes := sha2 32 (shaStart512.map fun x => BitVec.ofNat 32 (x / 2 ^ 32)) m
/-- SHA-512 of a byte string. -/
@[irreducible] def sha512 (m : Bytes) : Bytes := sha2 64 (shaStart512.map (BitVec.ofNat 64)) m
/-- SHA-384 of a byte string, its first byte the most significant. -/
@[irreducible] def sha384 (m : Bytes) : BitVec 384 :=
  BitVec.ofNat 384 (beNat ((sha2 64 (shaStart384.map (BitVec.ofNat 64)) m).take 48))

/-- The 48 bytes of a SHA-384 digest, in the order in which the algorithm gives them. -/
def digestBytes (d : BitVec 384) : Bytes := beBytes 48 d.toNat
/-- SHA-384 as bytes. -/
def sha384Bytes (m : Bytes) : Bytes := digestBytes (sha384 m)

/-- XOR of two byte strings. -/
def xorBytes (a b : Bytes) : Bytes := List.zipWith (· ^^^ ·) a b

/-- HMAC with SHA-512 (FIPS 198-1), of a key of at most a block. -/
def hmacSha512 (key m : Bytes) : Bytes :=
  let pad := fun (x : Byte) => xorBytes (slice key 0 128) (List.replicate 128 x)
  sha512 (pad 0x5C ++ sha512 (pad 0x36 ++ m))

/-- MGF1 (RFC 8017, appendix B.2.1) with a hash of `hLen` bytes: `n` bytes. -/
def mgf1 (hash : Bytes → Bytes) (hLen : Nat) (seed : Bytes) (n : Nat) : Bytes :=
  ((List.range (divUp n hLen)).flatMap fun i => hash (seed ++ beBytes 4 i)).take n

/-! ### AES-256 -/

/-- Multiplication by x in GF(2^8) (FIPS 197, section 4.3). -/
def xtime (a : Byte) : Byte := (a <<< 1) ^^^ (if a.getLsbD 7 then 0x1B else 0)

/-- Multiplication in GF(2^8), over the low `n` bits of the first factor. -/
def gfMul : Nat → Nat → Byte → Byte
  | 0, _, _ => 0
  | n + 1, a, b => (if a % 2 = 1 then b else 0) ^^^ gfMul n (a / 2) (xtime b)

def gfSquare (a : Byte) : Byte := gfMul 8 a.toNat a

/-- The inverse in GF(2^8), zero of zero: the power 254. -/
def gfInv (a : Byte) : Byte :=
  (List.range 6).foldl (fun p _ => gfMul 8 a.toNat (gfSquare p)) a |> gfSquare

/-- SubBytes of one byte and its inverse (FIPS 197, sections 5.1.1 and 5.3.2). -/
def subByte (a : Byte) : Byte :=
  let b := gfInv a
  b ^^^ b.rotateLeft 1 ^^^ b.rotateLeft 2 ^^^ b.rotateLeft 3 ^^^ b.rotateLeft 4 ^^^ 0x63
def invSubByte (a : Byte) : Byte := gfInv (a.rotateLeft 1 ^^^ a.rotateLeft 3 ^^^ a.rotateLeft 6 ^^^ 0x05)

/-- The sixteen bytes of a block permuted: byte r of column c comes from column c + r (ShiftRows), or c - r (InvShiftRows). -/
def shiftRows (inverse : Bool) (s : Bytes) : Bytes :=
  (List.range 16).map fun i => s.getD (i % 4 + 4 * ((i / 4 + (if inverse then 4 - i % 4 else i % 4)) % 4)) 0

/-- MixColumns, or its inverse, by the first row of its matrix (FIPS 197, sections 5.1.3 and 5.3.3). -/
def mixColumns (row : List Nat) (s : Bytes) : Bytes :=
  (List.range 16).map fun i =>
    (List.range 4).foldl (fun x j => x ^^^ gfMul 4 (row.getD ((j + 4 - i % 4) % 4) 0) (s.getD (i / 4 * 4 + j) 0)) 0

/-- Key expansion, latest word first: `n` words more of a key of eight; `i` is the next word's number (FIPS 197, section 5.2). -/
def keyWords : Nat → Nat → List Bytes → List Bytes
  | 0, _, l => l
  | n + 1, i, l =>
    let t := l.getD 0 []
    let t := if i % 8 = 0 then
        xorBytes ((t.drop 1 ++ t.take 1).map subByte) [(List.range (i / 8 - 1)).foldl (fun x _ => xtime x) 1, 0, 0, 0]
      else if i % 8 = 4 then t.map subByte
      else t
    keyWords n (i + 1) (xorBytes (l.getD 7 []) t :: l)

/-- The fifteen round keys of a 32-byte key. -/
def roundKeys (key : Bytes) : List Bytes :=
  let w := (keyWords 52 8 (((List.range 8).map fun i => slice key (4 * i) 4).reverse)).reverse.flatten
  (List.range 15).map fun i => slice w (16 * i) 16

/-- AES-256 of a block of 16 bytes (FIPS 197, section 5.1). -/
@[irreducible] def aesEncrypt (key block : Bytes) : Bytes :=
  let k := roundKeys key
  let last := (List.range 13).foldl (fun s i =>
    xorBytes (mixColumns [2, 3, 1, 1] (shiftRows false (s.map subByte))) (k.getD (i + 1) [])) (xorBytes block (k.getD 0 []))
  xorBytes (shiftRows false (last.map subByte)) (k.getD 14 [])

/-- The inverse of AES-256 (FIPS 197, section 5.3). -/
@[irreducible] def aesDecrypt (key block : Bytes) : Bytes :=
  let k := roundKeys key
  let last := (List.range 13).foldl (fun s i =>
    mixColumns [14, 11, 13, 9] (xorBytes ((shiftRows true s).map invSubByte) (k.getD (13 - i) []))) (xorBytes block (k.getD 14 []))
  xorBytes ((shiftRows true last).map invSubByte) (k.getD 0 [])

/-! ### XTS (IEEE 1619) -/

/-- Multiplication of a tweak by the primitive element: the block is a little-endian number. -/
def xtsNext (t : Bytes) : Bytes :=
  let n := leNat t
  leBytes 16 (if n < 2 ^ 127 then 2 * n else (2 * n % 2 ^ 128) ^^^ 0x87)

/-- `n` blocks of a data unit with their tweaks, the first one given. -/
def xtsBlocks (cipher : Bytes → Bytes) : Nat → Bytes → Bytes → Bytes
  | 0, _, _ => []
  | n + 1, t, d => xorBytes (cipher (xorBytes (slice d 0 16) t)) t ++ xtsBlocks cipher n (xtsNext t) (d.drop 16)

/-- The first tweak of the data unit of a number: the key's second half enciphers it (R594, R595). -/
def xtsTweak (key : Vec) (unit : Nat) : Bytes := aesEncrypt (slice (vecBytes key) 32 32) (leBytes 16 unit)

/-- AES-256-XTS of one code word (R595): key, data and tweak key in that order, number of the unit, data. -/
def xtsEncrypt (key : Vec) (unit : Nat) (data : Vec) : Vec :=
  vecOfBytes (xtsBlocks (aesEncrypt (slice (vecBytes key) 0 32)) 4 (xtsTweak key unit) (vecBytes data))
def xtsDecrypt (key : Vec) (unit : Nat) (data : Vec) : Vec :=
  vecOfBytes (xtsBlocks (aesDecrypt (slice (vecBytes key) 0 32)) 4 (xtsTweak key unit) (vecBytes data))

/-! ### GCM (SP 800-38D) -/

/-- Multiplication in GF(2^128): `n` bits of the first factor, from its most significant. -/
def gcmMul (x : BitVec 128) : Nat → BitVec 128 → BitVec 128 → BitVec 128
  | 0, z, _ => z
  | n + 1, z, v =>
    gcmMul x n (if x.getLsbD n then z ^^^ v else z) (if v.getLsbD 0 then (v >>> 1) ^^^ (0xE1#128 <<< 120) else v >>> 1)

/-- Zeros to whole blocks of 16 bytes. -/
def gcmPad (b : Bytes) : Bytes := b ++ List.replicate ((16 - b.length % 16) % 16) 0

/-- GHASH of whole blocks. -/
def ghash (h : BitVec 128) (b : Bytes) : BitVec 128 :=
  (List.range (b.length / 16)).foldl (fun y i => gcmMul (y ^^^ BitVec.ofNat 128 (beNat (slice b (16 * i) 16))) 128 0 h) 0

/-- The counter block of a 12-byte IV. -/
def gcmCounter (iv : Bytes) (n : Nat) : Bytes := slice iv 0 12 ++ beBytes 4 n

/-- Counter mode from the second counter block on. -/
def gcmCrypt (key iv d : Bytes) : Bytes :=
  xorBytes d ((List.range (divUp d.length 16)).flatMap fun i => aesEncrypt key (gcmCounter iv (i + 2)))

/-- The tag of associated data and ciphertext. -/
def gcmTag (key iv aad c : Bytes) : Bytes :=
  let h := BitVec.ofNat 128 (beNat (aesEncrypt key (List.replicate 16 0)))
  let s := ghash h (gcmPad aad ++ gcmPad c ++ beBytes 8 (8 * aad.length) ++ beBytes 8 (8 * c.length))
  xorBytes (beBytes 16 s.toNat) (aesEncrypt key (gcmCounter iv 1))

/-- AES-256-GCM: key, 12-byte IV, associated data, plaintext; the ciphertext followed by the 16-byte tag (R484, R627). -/
@[irreducible] def gcmSeal (key iv aad d : Bytes) : Bytes :=
  let c := gcmCrypt key iv d
  c ++ gcmTag key iv aad c

/-- AES-256-GCM: key, 12-byte IV, associated data, ciphertext with its tag; the plaintext, or none when the tag is wrong. -/
@[irreducible] def gcmOpen (key iv aad b : Bytes) : Option Bytes :=
  let c := b.take (b.length - 16)
  if b.length < 16 ∨ b.drop c.length ≠ gcmTag key iv aad c then none else some (gcmCrypt key iv c)

/-! ### RSASSA-PSS with SHA-384, MGF1 with SHA-384 and a 48-byte salt, of a 3,072-bit key (RFC 8017) -/

/-- A power modulo n, over the bits of the exponent from bit k - 1 down. -/
def powMod (base n e : Nat) : Nat → Nat
  | 0 => 1 % n
  | k + 1 =>
    let p := powMod base n (e / 2) k
    let p := p * p % n
    if e % 2 = 1 then p * base % n else p

def rsaExponent : Nat := 65537

/-- The hash of EMSA-PSS: eight zero bytes, the message's digest, the salt. -/
def pssHash (m salt : Bytes) : Bytes := sha384Bytes (List.replicate 8 0 ++ sha384Bytes m ++ salt)

/-- The most significant bit of a byte string cleared: the encoded message has 3,071 bits. -/
def clearTop : Bytes → Bytes
  | [] => []
  | b :: t => (b &&& 0x7F) :: t

/-- EMSA-PSS-ENCODE: the encoded message of 384 bytes. -/
def pssEncode (m salt : Bytes) : Bytes :=
  let h := pssHash m salt
  let db := List.replicate 286 0 ++ [1] ++ salt
  clearTop (xorBytes db (mgf1 sha384Bytes 48 h 335)) ++ h ++ [0xBC]

/-- EMSA-PSS-VERIFY. -/
def pssOk (m em : Bytes) : Bool :=
  let masked := slice em 0 335
  let h := slice em 335 48
  let db := clearTop (xorBytes masked (mgf1 sha384Bytes 48 h 335))
  em.getD 383 0 == 0xBC && !(em.getD 0 0).getLsbD 7 && allZero (slice db 0 286) && db.getD 286 0 == 1 &&
    h == pssHash m (slice db 287 48)

/-- RSASSA-PSS-VERIFY: modulus, message, signature. -/
@[irreducible] def rsaVerify (modulus m sig : Bytes) : Bool :=
  let n := beNat modulus
  sig.length == 384 && decide (beNat sig < n) && pssOk m (beBytes 384 (powMod (beNat sig) n rsaExponent 17))

/-- RSASSA-PSS-SIGN: modulus, private exponent, message, salt. -/
@[irreducible] def rsaSign (modulus priv m salt : Bytes) : Bytes :=
  beBytes 384 (powMod (beNat (pssEncode m salt)) (beNat modulus) (beNat priv) 3072)

/-! ### DER (X.690) -/

/-- A length. -/
def derLength (n : Nat) : Bytes :=
  if n < 128 then [BitVec.ofNat 8 n] else if n < 256 then [0x81, BitVec.ofNat 8 n] else 0x82 :: beBytes 2 n

/-- A value with its tag and length. -/
def derValue (tag : Byte) (b : Bytes) : Bytes := tag :: derLength b.length ++ b

/-- A non-negative INTEGER from big-endian bytes: no leading zero byte but one before a set top bit. -/
def derInteger (b : Bytes) : Bytes :=
  let d := b.dropWhile (· == 0)
  derValue 2 (if d.isEmpty || (d.getD 0 0).getLsbD 7 then 0 :: d else d)

/-- The SubjectPublicKeyInfo of an RSA key with exponent 65,537, under rsaEncryption (RFC 3279, section 2.3.1; log 219). -/
def rsaKeyInfo (modulus : Bytes) : Bytes :=
  let alg := derValue 0x30 (derValue 6 [0x2A, 0x86, 0x48, 0x86, 0xF7, 0x0D, 0x01, 0x01, 0x01] ++ [5, 0])
  derValue 0x30 (alg ++ derValue 3 (0 :: derValue 0x30 (derInteger modulus ++ derInteger [1, 0, 1])))

end Sys2Proof.Crypto
end

