-- ==== Sys2Proof/Machine/Energy.lean ====
section
/-! DEFINITION. Activity counts and the charging of modelled energy (R64, R65, R67, R635). Energies are in pJ. -/

namespace Sys2Proof.Machine

/-- Who pays for an activity (R65). -/
inductive Payer where
  /-- the base reserve -/
  | base
  /-- a bight, but no command of it -/
  | bight (b : Nat)
  | cmd (b queue seq : Nat)
deriving DecidableEq, Repr

/-- The scale factor of die d in force: 14 fraction bits, 1.0 where none has been computed (R66, R67). -/
def State.scaleOf (s : State) (d : Nat) : Nat := Tab.look 0x4000 s.energy.scale d

/-- Add to a count of a table. -/
def addAt (t : Tab Nat) (k n : Nat) : Tab Nat := Tab.put 0 t k (Tab.look 0 t k + n)

/-- Charge `e` pJ of modelled energy of die d to a payer, under the scale factor of the last frame (R65, R67, R68, R73). -/
def State.charge (s : State) (p : Payer) (d e : Nat) : State :=
  let pj := e * s.scaleOf d / 0x4000
  let toBight := fun (s : State) (b : Nat) =>
    s.modBight b fun x => { x with charged := x.charged + pj, model := addAt x.model d e }
  match p with
  | .base => s
  | .bight b => toBight s b
  | .cmd b q n =>
    (toBight s b).modCmd q n fun c => { c with charged := c.charged + pj, frameCharged := c.frameCharged + pj }

/-- Add to a die's modelled energy of the frame (R66). -/
def State.addModel (s : State) (d e : Nat) : State :=
  { s with energy := { s.energy with dieModel := addAt s.energy.dieModel d e } }

/-- What is counted of a cluster, router, HBM controller or link port (R64). -/
inductive Activity where
  /-- MACs of the A and W formats -/
  | macs (a w : Nat)
  /-- accesses of a width in bytes; a wider one is made of accesses of 64 bytes -/
  | sramRead (width : Nat)
  | sramWrite (width : Nat)
  /-- vectors on a hop of the program or the transit plane; a hop's kind is its latency (R22) -/
  | hop (transit : Bool) (latency : Nat)
  /-- HBM bytes of a class -/
  | hbm (cls : Nat)
  | link
  /-- entries written to the tables of a router (R278, log 211) -/
  | table
  /-- cycles in a domain state at a clock in MHz -/
  | cycles (state : DomState) (mhz : Nat)
deriving DecidableEq, Repr

/-- What counts. The cycles of a half-die are those of each of its routers. -/
inductive Meter where
  | cluster (c : Nat)
  | router (r : Nat)
  | half (h : Nat)
  | group (g : Nat)
  | port (p : Nat)
deriving DecidableEq, Repr

/-- The die whose energy model weights the counts of a meter (R64). -/
def Meter.die (u : Meter) : Nat :=
  match u with
  | .cluster c => dieOfCluster c
  | .router r => dieOfCluster (clusterOf r)
  | .half h => h / 2
  | .group g => dieOfGroup g
  | .port p => dieOfPort p

def Meter.code (u : Meter) : Nat :=
  match u with
  | .cluster c => c
  | .half h => 512 + h
  | .group g => 544 + g
  | .port p => 608 + p
  | .router r => 1024 + r

/-- The place of an activity among the counts of its meter; element types have 4-bit codes (R169). -/
def Activity.code (k : Activity) : Nat :=
  match k with
  | .macs a w => 16 * (a % 16) + w % 16
  | .sramRead n => 256 + min n 64
  | .sramWrite n => 384 + min n 64
  | .hop t l => 512 + (if t then 32 else 0) + l % 32
  | .hbm c => 576 + c % 4
  | .link => 580
  | .table => 581
  | .cycles st m => 4096 * (match st with | .off => 1 | .low => 2 | .on => 3 | .changing => 4) + m % 4096

/-- The MAC group of R635 for the element types of A and W: 1 FP4; 2 FP6, FP8 and INT8; 3 BF16 and FP16. -/
def macKind (a w : Nat) : Nat := if 9 ≤ a then 3 else if a = 0 ∧ w = 0 then 1 else 2

/-- The subindex of 0x9010 + d that an activity counts in (R635). -/
def Activity.subindex (k : Activity) : Option Nat :=
  match k with
  | .macs a w => some (macKind a w)
  | .sramRead _ => some 4
  | .sramWrite _ => some 5
  | .hop t _ => some (if t then 7 else 6)
  | .hbm _ => some 8
  | .link => some 9
  | .table => none
  | .cycles st _ => if st = .on then some 10 else none

/-- The die's own count of R635 increased. -/
def addCount (t : Tab Nat) (d n : Nat) (k : Activity) : Tab Nat :=
  match k.subindex with
  | some i => Tab.put 0 t (16 * d + i) ((Tab.look 0 t (16 * d + i) + n) % 2 ^ 64)
  | none => t

/-- Count `n` units of an activity at its meter and in the die's counts, add its modelled energy to the die's and charge it under
the scale factor of the last frame (R64, R65, R67, R635). -/
def State.activity (s : State) (u : Meter) (k : Activity) (n : Nat) (p : Payer) : State :=
  let d := u.die
  let e := n * Tab.look 0 s.fuses.coef (65536 * d + k.code)
  (({ s with
      dict := { s.dict with activity := addCount s.dict.activity d n k }
      energy := { s.energy with counts := addAt s.energy.counts (65536 * u.code + k.code) n } }).addModel d e).charge p d e

/-- `n` vectors pass every hop of a path on the transit plane (R64). -/
def State.pathActivity (s : State) (path : List Nat) (n : Nat) (p : Payer) : State :=
  (path.zip (path.drop 1)).foldl (fun (s : State) (e : Nat × Nat) =>
    s.activity (.router e.1) (.hop true (hopLatency e.1 e.2)) n p) s

end Sys2Proof.Machine
end

