-- ==== Sys2Proof/Machine/SramOps.lean ====
section
/-! DEFINITION. SRAM words and their product code (R289 to R313). The check bits of a word are held as their difference from
the valid check bits of its data, so the three syndromes are fields of that difference. -/

namespace Sys2Proof.Machine

/-- What decoding a word yields (R293): clean, corrected with the data bit flipped (none when a check bit was), or
uncorrectable. -/
inductive Decoded where
  | clean
  | corrected (bit : Option Nat)
  | bad
deriving DecidableEq, Repr

/-- The number of set bits of an 8-bit number. -/
def weight8 (x : Nat) : Nat := ((List.range 8).filter fun i => x.testBit i).length
/-- The lowest set bit of an 8-bit number. -/
def low8 (x : Nat) : Nat := ((List.range 8).find? fun i => x.testBit i).getD 0

/-- The parity of the bits of a number below 2^n. -/
def parity (n x : Nat) : Bool := ((List.range n).filter fun i => x.testBit i).length % 2 == 1

/-- The valid check bits of a data word: RP in [7:0], CP in [15:8], OP in [16] (R292). -/
def sramCheckOf (w : Word) : BitVec 17 :=
  let x := w.toNat
  let rp := (List.range 8).foldl (fun a r => a + (if parity 8 (fieldN x (8 * r) 8) then 2 ^ r else 0)) 0
  let cp := xorAll ((List.range 8).map fun r => fieldN x (8 * r) 8)
  let op := xor (parity 64 x) (xor (parity 8 rp) (parity 8 cp))
  BitVec.ofNat 17 (rp + 256 * cp + (if op then 65536 else 0))

/-- The syndromes of a word whose stored check bits differ from the valid ones by `disc`: sr, sc, so (R293). -/
def syndromes (disc : BitVec 17) : Nat × Nat × Bool :=
  (disc.toNat % 256, disc.toNat / 256 % 256, parity 17 disc.toNat)

/-- The decoding table of R293. -/
def sramDecode (disc : BitVec 17) : Decoded :=
  let (sr, sc, so) := syndromes disc
  match so, weight8 sr, weight8 sc with
  | false, 0, 0 => .clean
  | true, 1, 1 => .corrected (some (8 * low8 sr + low8 sc))
  | true, 1, 0 => .corrected none
  | true, 0, 1 => .corrected none
  | true, 0, 0 => .corrected none
  | _, _, _ => .bad

/-- The data that decoding delivers. -/
def Decoded.deliver (d : Decoded) (w : Word) : Option Word :=
  match d with
  | .clean | .corrected none => some w
  | .corrected (some i) => some (w ^^^ (1 <<< i))
  | .bad => none

/-- The agents of a MEMERR message (R304, R327). -/
def agentCore : Nat := 0
def agentEngine : Nat := 1
def agentDma : Nat := 2
def agentHost : Nat := 3
def agentLink : Nat := 4
def agentPruner : Nat := 5
def agentCarry : Nat := 6
def agentPatrol : Nat := 7
def agentTable : Nat := 8

/-- Address `wa` counts 8-byte words of the SRAM range. Its cluster, its offset and its bank. -/
def wordCluster (wa : Nat) : Nat := (8 * wa - sramBase) / sramStride
def wordOffset (wa : Nat) : Nat := (8 * wa - sramBase) % sramStride
def wordBank (wa : Nat) : Nat := sramBank (wordOffset wa)

/-- The retirement code of the row block of an offset, as in 0x5012.00 (R290, R306). -/
def blockCode (c o : Nat) : Nat :=
  if o < 0x04000000 then c * 8192 + (o / 0x400000) * 256 + o % 0x400000 / 0x10000
  else c * 8192 + 16 * 256 + (o - 0x04000000) / 0x80000

/-- The word lies in a retired row block (R306). -/
def State.retiredWord (s : State) (wa : Nat) : Bool :=
  let code := blockCode (wordCluster wa) (wordOffset wa)
  s.sram.retired.any fun e => e.1 == code

/-- The stored data bits and the check difference of a word. -/
def State.sramWord (s : State) (wa : Nat) : Word := wordOfBytes (Memory.read s.mem (8 * wa) 8)
def State.sramDisc (s : State) (wa : Nat) : BitVec 17 := Tab.look 0 s.sramCheck wa

/-- Store data bits and a check difference. -/
def State.putSram (s : State) (wa : Nat) (w : Word) (disc : BitVec 17) : State :=
  { s with mem := Memory.write s.mem (8 * wa) (wordBytes w), sramCheck := Tab.put 0 s.sramCheck wa disc }

/-- The base-cycle count (R200). -/
def State.baseCycle (s : State) : Nat := s.mesh.tau0 / 1000

/-- The divider r of half-die h (R199). -/
def State.divOf (s : State) (h : Nat) : Nat := Tab.look 1 s.power.divider h

/-- The bank cycles that the clusters of half-die h have had: base cycles over the divider, across its changes (R199, R304). -/
def State.bankCycle (s : State) (h : Nat) : Nat :=
  let m := Tab.look (0, 0) s.power.bankMark h
  m.2 + (s.baseCycle - m.1) / s.divOf h

/-- The MEMERR message of an SRAM read (R304). -/
def sramErr (kind agent wa : Nat) (disc : BitVec 17) : List Flit :=
  let a := 8 * wa
  let (sr, sc, so) := syndromes disc
  [BitVec.ofNat 32 (kind * 2 ^ 28 + agent * 2 ^ 24 + wordBank wa * 512 + wordCluster wa),
   BitVec.ofNat 32 (fieldN a 3 32),
   BitVec.ofNat 32 (fieldN a 35 13 * 2 ^ 19 + (if so then 65536 else 0) + sr * 256 + sc)]

/-- Count and report a corrected read: at most one message per 1,024 bank cycles of the bank (R298, R304). -/
def State.sramCorrected (s : State) (agent wa : Nat) (disc : BitVec 17) : State :=
  let c := wordCluster wa
  let key := 24 * c + wordBank wa
  let s := { s with sram := { s.sram with corrected := satAdd 0xFFFFFFFF s.sram.corrected 1 } }
  let cycle := s.bankCycle (halfOfCluster c)
  let due := match Tab.find? s.sram.lastMsg key with
    | some t => decide (t + 1024 ≤ cycle)
    | none => true
  if due then
    ({ s with sram := { s.sram with lastMsg := Tab.set s.sram.lastMsg key cycle } }).lanSend 9 stopMgmt c false
      (sramErr 1 agent wa disc)
  else { s with sram := { s.sram with notSent := s.sram.notSent + 1 } }

/-- What the find of an uncorrectable word leaves for its report: whether the Pruner found it in an earlier pass, with no write
since (R305), and whether it is found again after a full write (R309). -/
def Sram.foundBad (x : Sram) (agent wa : Nat) : Sram :=
  let fresh := agent == agentPruner && !x.prunerSeen.contains wa
  { x with
    prunerSeen := if fresh then wa :: x.prunerSeen else x.prunerSeen
    prunerDue := if fresh then wa :: x.prunerDue else x.prunerDue
    history := if x.history.any (fun e => e.1 == wa) then x.history else (wa, false) :: x.history
    refound := if x.history.contains (wa, true) then withOne x.refound wa else x.refound }

/-- Count and report an uncorrectable read (R304, R314). -/
def State.sramBad (s : State) (agent wa : Nat) (disc : BitVec 17) : State :=
  ({ s with sram := { s.sram.foundBad agent wa with
      uncorrectable := satAdd 0xFFFFFFFF s.sram.uncorrectable 1, lastBad := 8 * wa } }).lanSend 9 stopMgmt
    (wordCluster wa) false (sramErr 2 agent wa disc)

/-- Read one word (R293, R299, R306): the data delivered, or none for a bus error of sub-cause 1. A corrected read other than
a read-modify-write leaves a write-back pending. -/
def State.readSram (s : State) (agent : Nat) (rmw : Bool) (wa : Nat) : Option Word × State :=
  if s.retiredWord wa then (none, s)
  else
    let disc := s.sramDisc wa
    let dec := sramDecode disc
    let data := dec.deliver (s.sramWord wa)
    match dec with
    | .clean => (data, s)
    | .corrected _ =>
      let s := s.sramCorrected agent wa disc
      let key := (24 * wordCluster wa + wordBank wa, wa)
      (data, if rmw || s.sram.writeBacks.contains key then s
        else { s with sram := { s.sram with writeBacks := s.sram.writeBacks ++ [key] } })
    | .bad => (none, s.sramBad agent wa disc)

/-- The flip mask that a write of the agent to a bank takes, if its cluster's is armed for that bank (R312, R313). -/
def State.flipFor (s : State) (c bank : Nat) : Option (Word × BitVec 17) :=
  let hi := Tab.look 0 s.sram.flipHi c
  if hi.getLsbD 63 && (hi.toNat / 2 ^ 17 % 32 == bank) then
    some (Tab.look 0 s.sram.flipLo c, BitVec.ofNat 17 (hi.toNat % 2 ^ 17))
  else none

/-- Words that `p` picks have been written: they are no longer bad for the Pruner, and a full write followed their find (R305,
R309). -/
def Sram.written (x : Sram) (p : Nat → Bool) : Sram :=
  { x with
    prunerSeen := x.prunerSeen.filter fun w => !p w
    history := x.history.map fun (e : Nat × Bool) => if p e.1 then (e.1, true) else e }

/-- Write one whole word for an agent (R297, R299, R313): a pending write-back of the word is cancelled and counted, an armed
flip mask is taken (and stays armed under SCOPE [2] of vendor-debug, R587), and the word counts as written. A retired word is left as it is. -/
def State.writeSram (s : State) (wa : Nat) (w : Word) : State :=
  if s.retiredWord wa then s
  else
    let c := wordCluster wa
    let bank := wordBank wa
    let key := (24 * c + bank, wa)
    let s := if s.sram.writeBacks.contains key then
        { s with sram := { s.sram with
            writeBacks := s.sram.writeBacks.filter (· != key), cancelled := s.sram.cancelled + 1 } }
      else s
    let s := { s with sram := s.sram.written (· == wa) }
    match s.flipFor c bank with
    | none => s.putSram wa w 0
    | some (lo, hi) =>
      let stored := w ^^^ lo
      let s := if s.boot.vendorDebug && s.boot.scope.getLsbD 2 then s
        else { s with sram := { s.sram with
          flipHi := Tab.put 0 s.sram.flipHi c (Tab.look 0 s.sram.flipHi c &&& 0x7FFFFFFFFFFFFFFF) } }
      s.putSram wa stored (sramCheckOf stored ^^^ sramCheckOf w ^^^ hi)

/-- Write part of a word: bytes `d` from byte `o` of word `wa` (R297, R298). The answer says whether the write took place. -/
def State.writeSramPart (s : State) (agent wa o : Nat) (d : Bytes) : Bool × State :=
  if s.retiredWord wa then (false, s)
  else if d.length = 8 then (true, s.writeSram wa (wordOfBytes d))
  else
    match s.readSram agent true wa with
    | (some w, s) => (true, s.writeSram wa (wordOfBytes (splice (wordBytes w) o d)))
    | (none, s) => (false, { s with sram := { s.sram with refusedNarrow := s.sram.refusedNarrow + 1 } })

/-- The read-modify-write of an atomic on one word (R109, R297, R298): the old word, or none for a bus error of sub-cause 1. -/
def State.amoSram (s : State) (agent wa : Nat) (f : Word → Word) : Option Word × State :=
  if s.retiredWord wa then (none, s)
  else
    match s.readSram agent true wa with
    | (some w, s) => (some w, s.writeSram wa (f w))
    | (none, s) => (none, { s with sram := { s.sram with refusedNarrow := s.sram.refusedNarrow + 1 } })

/-- Read `n` words from word `wa`; none when any of them is uncorrectable. -/
def State.readSramWords (s : State) (agent : Nat) : Nat → Nat → Option (List Word) × State
  | _, 0 => (some [], s)
  | wa, n + 1 =>
    let (w, s1) := s.readSram agent false wa
    let (rest, s2) := State.readSramWords s1 agent (wa + 1) n
    (match w, rest with
      | some w, some l => some (w :: l)
      | _, _ => none, s2)

/-- Read `n` words from word `wa`, each of which may be uncorrectable. -/
def State.readEachSram (s : State) (agent : Nat) : Nat → Nat → List (Option Word) × State
  | _, 0 => ([], s)
  | wa, n + 1 =>
    let (w, s1) := s.readSram agent false wa
    let (rest, s2) := State.readEachSram s1 agent (wa + 1) n
    (w :: rest, s2)

/-- Read bytes of SRAM: none for a bus error of sub-cause 1. -/
def State.readSramBytes (s : State) (agent a n : Nat) : Option Bytes × State :=
  let first := a / 8
  let last := (a + n + 7) / 8
  let (ws, s) := s.readSramWords agent first (last - first)
  (ws.map fun l => ((l.flatMap wordBytes).drop (a % 8)).take n, s)

/-- Write bytes of SRAM word by word (R297, R298): the other words of a write are stored when one word's read fails. -/
def State.writeSramBytes (s : State) (agent : Nat) : Nat → Nat → Bytes → Bool × State
  | 0, _, _ => (true, s)
  | fuel + 1, a, d =>
    match d with
    | [] => (true, s)
    | _ =>
      let n := min d.length (8 - a % 8)
      let (ok, s1) := s.writeSramPart agent (a / 8) (a % 8) (d.take n)
      let (ok2, s2) := State.writeSramBytes s1 agent fuel (a + n) (d.drop n)
      (ok && ok2, s2)

/-- Clear `n` bytes of SRAM from address `a` (R311): data and check bits zero, retired row blocks left as they are, pending
write-backs of the words cancelled. -/
def State.clearSramRange (s : State) (c a n : Nat) : State :=
  let kept := fun (adr : Nat) => s.sram.retired.any fun e => e.1 == blockCode c ((adr - sramBase) % sramStride)
  let inside := fun (adr : Nat) => decide (a ≤ adr) && decide (adr < a + n) && !kept adr
  { s with
    mem := s.mem.filter fun e => !inside e.1
    sramCheck := s.sramCheck.filter fun e => !inside (8 * e.1)
    sram := { s.sram.written fun w => inside (8 * w) with
      writeBacks := s.sram.writeBacks.filter fun e => !inside (8 * e.2) } }

/-- Write-backs of the words of a range that a write now serves first are cancelled and counted (R299). -/
def State.cancelBacks (s : State) (c a n : Nat) : State :=
  let hit := s.sram.writeBacks.filter fun e => decide (a ≤ 8 * e.2) && decide (8 * e.2 < a + n) &&
    !(s.sram.retired.any fun r => r.1 == blockCode c ((8 * e.2 - sramBase) % sramStride))
  { s with sram := { s.sram with
      writeBacks := s.sram.writeBacks.filter fun e => !hit.contains e
      cancelled := s.sram.cancelled + BitVec.ofNat 32 hit.length } }

/-- A cluster's domain leaves OFF: its banks' fuse map is applied, whose effect is invisible (R291), and the row blocks retired at
test are retired (R307). -/
def State.applyFuses (s : State) (c : Nat) : State :=
  let fused := s.fuses.retired.filter fun k => k / 8192 == c && !(s.sram.retired.any fun e => e.1 == k)
  { s with sram := { s.sram with
      retired := s.sram.retired ++ fused.map fun k => (k, true)
      spared := withOne s.sram.spared c } }

/-- Clear all SRAM of a cluster and disarm its flip mask (R32, R311, R313). -/
def State.clearCluster (s : State) (c : Nat) : State :=
  let s := s.clearSramRange c (sramAddr c 0) sramUsed
  { s with sram := { s.sram with
    flipHi := Tab.put 0 s.sram.flipHi c (Tab.look 0 s.sram.flipHi c &&& 0x7FFFFFFFFFFFFFFF) } }

/-- Lose all SRAM of a cluster whose domain goes OFF (R32): nothing reads it before the clear of its way out of OFF, so the
contents are dropped at once, retired row blocks included. -/
def State.loseCluster (s : State) (c : Nat) : State :=
  let inside := fun (adr : Nat) => decide (sramAddr c 0 ≤ adr) && decide (adr < sramAddr c sramStride)
  { s with
    mem := s.mem.filter fun e => !inside e.1
    sramCheck := s.sramCheck.filter fun e => !inside (8 * e.1)
    sram := { s.sram with
      writeBacks := s.sram.writeBacks.filter fun e => !inside (8 * e.2)
      pruner := s.sram.pruner.filter fun e => e.1 / 24 != c
      spared := without s.sram.spared c
      flipHi := Tab.put 0 s.sram.flipHi c (Tab.look 0 s.sram.flipHi c &&& 0x7FFFFFFFFFFFFFFF) } }

end Sys2Proof.Machine
end

