-- ==== Sys2Proof/Machine/HbmOps.lean ====
section
/-! DEFINITION. HBM code words: the Reed-Solomon code of the controller, encryption, and reads and writes of bytes (R315 to
R328, R595). The check symbols of a code word are held as their difference from the valid ones of its data. -/

namespace Sys2Proof.Machine

/-! ### GF(2^16) with x^16 + x^12 + x^3 + x + 1 (R321) -/

/-- A polynomial times x. -/
def gfTwice (a : Nat) : Nat := let b := 2 * a; if b < 65536 then b else (b ^^^ 0x1100B)
/-- The product: `n` rounds over the bits of `b` from the lowest. -/
def gfMulAux : Nat → Nat → Nat → Nat
  | 0, _, _ => 0
  | n + 1, a, b => (if b % 2 = 1 then a else 0) ^^^ gfMulAux n (gfTwice a) (b / 2)
def gfMul (a b : Nat) : Nat := gfMulAux 16 a b
/-- α to the k. -/
def gfAlpha : Nat → Nat
  | 0 => 1
  | k + 1 => gfTwice (gfAlpha k)
/-- a to the 2^16 − 2, its inverse: the product of a^(2^i) for i = 1 to 15. -/
def gfInvAux : Nat → Nat → Nat
  | 0, _ => 1
  | n + 1, sq => let sq2 := gfMul sq sq; gfMul sq2 (gfInvAux n sq2)
def gfInv (a : Nat) : Nat := gfInvAux 15 a

/-- The 16-bit symbols of a check difference. -/
def checkSymbols (disc : BitVec 64) : List Nat := (List.range 4).map fun i => fieldN disc.toNat (16 * i) 16

/-- Syndrome j of a check difference: the sum of its symbols times α^(j × place) (R321). -/
def rsSyndrome (disc : BitVec 64) (j : Nat) : Nat :=
  xorAll ((checkSymbols disc).zipIdx.map fun e => gfMul e.1 (gfAlpha (j * Config.rsPlace (32 + e.2))))

/-- The single symbol error with these syndromes, if there is one: symbol and magnitude. -/
def rsOne (s0 s1 s2 s3 : Nat) : Option (Nat × Nat) :=
  (List.range 36).findSome? fun i =>
    let x := gfAlpha (Config.rsPlace i)
    if gfMul s0 x = s1 ∧ gfMul s1 x = s2 ∧ gfMul s2 x = s3 then some (i, s0) else none

/-- The pair of symbol errors with these syndromes, if there is one. -/
def rsTwo (s0 s1 s2 s3 : Nat) : Option (List (Nat × Nat)) :=
  (List.range 36).findSome? fun i =>
    (List.range i).findSome? fun j =>
      let x := gfAlpha (Config.rsPlace i)
      let y := gfAlpha (Config.rsPlace j)
      let e := gfMul (s1 ^^^ gfMul s0 y) (gfInv (x ^^^ y))
      let f := s0 ^^^ e
      let x2 := gfMul x x
      let y2 := gfMul y y
      if e ≠ 0 ∧ f ≠ 0 ∧ (gfMul e x2 ^^^ gfMul f y2) = s2 ∧ (gfMul e (gfMul x2 x) ^^^ gfMul f (gfMul y2 y)) = s3
      then some [(i, e), (j, f)] else none

/-- What decoding a code word yields (R322): the symbol errors corrected, or none when it is uncorrectable. -/
def hbmDecode (disc : BitVec 64) : Option (List (Nat × Nat)) :=
  let s0 := rsSyndrome disc 0
  let s1 := rsSyndrome disc 1
  let s2 := rsSyndrome disc 2
  let s3 := rsSyndrome disc 3
  if s0 = 0 ∧ s1 = 0 ∧ s2 = 0 ∧ s3 = 0 then some []
  else
    match rsOne s0 s1 s2 s3 with
    | some e => some [e]
    | none => rsTwo s0 s1 s2 s3

/-- Data symbols corrected (errors in check symbols change no data). -/
def hbmFlip (w : BitVec 512) (errs : List (Nat × Nat)) : BitVec 512 :=
  errs.foldl (fun w e => if e.1 < 32 then w ^^^ (BitVec.ofNat 512 e.2 <<< (16 * e.1)) else w) w

/-! ### Code words -/

/-- The group, and the code-word number within it, of code word `cw` (addresses divided by 64). -/
def cwGroup (cw : Nat) : Nat := 64 * cw / groupBytes
def cwOffset (cw : Nat) : Nat := 64 * cw % groupBytes

def State.hbmWord (s : State) (cw : Nat) : BitVec 512 := vecOfBytes (Memory.read s.mem (64 * cw) 64)
def State.hbmDisc (s : State) (cw : Nat) : BitVec 64 := Tab.look 0 s.hbmCheck cw
def State.putHbm (s : State) (cw : Nat) (w : BitVec 512) (disc : BitVec 64) : State :=
  { s with mem := Memory.write s.mem (64 * cw) (vecBytes w), hbmCheck := Tab.put 0 s.hbmCheck cw disc }

/-- The MEMERR message of an HBM read (R327). -/
def hbmErr (kind agent cw sev n : Nat) : List Flit :=
  let a := 64 * cw
  [BitVec.ofNat 32 (kind * 2 ^ 28 + agent * 2 ^ 24 + hbmChannel (cwOffset cw) * 512 + cwGroup cw),
   BitVec.ofNat 32 (fieldN a 3 32),
   BitVec.ofNat 32 (fieldN a 35 13 * 2 ^ 19 + sev * 256 + n)]

/-- Count and report a corrected read: at most one message per 1,024 controller cycles of the group (R327). The controller
clock is not stated; the base clock stands for it (log 13). -/
def State.hbmCorrected (s : State) (agent cw n : Nat) : State :=
  let g := cwGroup cw
  let x := s.group g
  let x := { x with corrected := satAdd 0xFFFFFFFF x.corrected 1 }
  let due := match x.lastMsg with
    | some t => decide (1024 ≤ s.baseCycle - t)
    | none => true
  if due then
    (s.setGroup g { x with lastMsg := some s.baseCycle }).lanSend 9 stopMgmt (stopGroup g) false
      (hbmErr 3 agent cw (Tab.look 0 x.severity (hbmChannel (cwOffset cw))) n)
  else s.setGroup g { x with notSent := x.notSent + 1 }

/-- Count and report an uncorrectable read (R327, R346); a patrol read of a word that it found in an earlier pass, with no write
since, is not to count again (R328). -/
def State.hbmBad (s : State) (agent cw : Nat) : State :=
  let g := cwGroup cw
  let x := s.group g
  let fresh := agent == agentPatrol && !x.patrolSeen.contains cw
  let x := { x with
    patrolSeen := if fresh then cw :: x.patrolSeen else x.patrolSeen
    patrolDue := if fresh then cw :: x.patrolDue else x.patrolDue }
  (s.setGroup g { x with uncorrectable := satAdd 0xFFFFFFFF x.uncorrectable 1 }).lanSend 9 stopMgmt (stopGroup g) false
    (hbmErr 4 agent cw (Tab.look 0 x.severity (hbmChannel (cwOffset cw))) 0)

/-- Read one code word as stored (R322, R324): none when uncorrectable. A corrected read other than a read-modify-write
leaves a write-back pending. -/
def State.readCw (s : State) (agent : Nat) (rmw : Bool) (cw : Nat) : Option (BitVec 512) × State :=
  match hbmDecode (s.hbmDisc cw) with
  | none => (none, s.hbmBad agent cw)
  | some [] => (some (s.hbmWord cw), s)
  | some errs =>
    let data := hbmFlip (s.hbmWord cw) errs
    let s := s.hbmCorrected agent cw errs.length
    let g := cwGroup cw
    (some data, if rmw || (s.group g).writeBacks.contains cw then s
      else s.modGroup g fun x => { x with writeBacks := x.writeBacks ++ [cw] })

/-- Write one code word: valid check symbols, a pending write-back cancelled, the patrol's memory of it cleared (R323, R324,
R328). -/
def State.writeCw (s : State) (cw : Nat) (w : BitVec 512) : State :=
  (s.modGroup (cwGroup cw) fun x =>
    { x with writeBacks := without x.writeBacks cw, patrolSeen := without x.patrolSeen cw }).putHbm cw w 0

/-! ### Encryption (R594 to R597) -/

/-- The key of a slot and generation. -/
def State.keyOf (s : State) (slot : Nat) (gen : Bool) : Option (BitVec 512) :=
  if gen then (s.keySlot slot).key1 else (s.keySlot slot).key0

/-- Whether an access of a function through a slot and generation is keyed (R597). -/
def State.keyed (s : State) (fn : Nat) (key : Option (Nat × Bool)) : Bool :=
  match key with
  | none => true
  | some (k, g) => (s.keyOf k g).isSome && (s.keySlot k).owner == some fn

/-- A stored code word as the requester sees it. The tweak is address bits [47:6] (R595). -/
def State.decryptCw (s : State) (key : Option (Nat × Bool)) (cw : Nat) (w : BitVec 512) : BitVec 512 :=
  match key.bind fun k => s.keyOf k.1 k.2 with
  | some k => Crypto.xtsDecrypt k cw w
  | none => w

def State.encryptCw (s : State) (key : Option (Nat × Bool)) (cw : Nat) (w : BitVec 512) : BitVec 512 :=
  match key.bind fun k => s.keyOf k.1 k.2 with
  | some k => Crypto.xtsEncrypt k cw w
  | none => w

/-! ### Bytes -/

/-- Read `n` code words from `cw`; none when one is uncorrectable. -/
def State.readCws (s : State) (agent : Nat) (key : Option (Nat × Bool)) : Nat → Nat → Option Bytes × State
  | _, 0 => (some [], s)
  | cw, n + 1 =>
    let (w, s1) := s.readCw agent false cw
    let (rest, s2) := State.readCws s1 agent key (cw + 1) n
    (match w, rest with
      | some w, some l => some (vecBytes (s.decryptCw key cw w) ++ l)
      | _, _ => none, s2)

/-- Read bytes of HBM; none for a bus error of sub-cause 4 (R326). -/
def State.readHbmBytes (s : State) (agent : Nat) (key : Option (Nat × Bool)) (a n : Nat) : Option Bytes × State :=
  let (d, s) := s.readCws agent key (a / 64) ((a + n + 63) / 64 - a / 64)
  (d.map fun l => (l.drop (a % 64)).take n, s)

/-- Write part of a code word (R323, R595): a whole aligned code word without a read, any other by a read-modify-write that
does not take place when its read is uncorrectable. -/
def State.writeCwPart (s : State) (agent : Nat) (key : Option (Nat × Bool)) (cw o : Nat) (d : Bytes) : Bool × State :=
  if d.length = 64 then (true, s.writeCw cw (s.encryptCw key cw (vecOfBytes d)))
  else
    match s.readCw agent true cw with
    | (some w, s) =>
      (true, s.writeCw cw (s.encryptCw key cw (vecOfBytes (splice (vecBytes (s.decryptCw key cw w)) o d))))
    | (none, s) => (false, s)

/-- Write bytes of HBM code word by code word (R323). -/
def State.writeHbmBytes (s : State) (agent : Nat) (key : Option (Nat × Bool)) : Nat → Nat → Bytes → Bool × State
  | 0, _, _ => (true, s)
  | fuel + 1, a, d =>
    match d with
    | [] => (true, s)
    | _ =>
      let n := min d.length (64 - a % 64)
      let (ok, s1) := s.writeCwPart agent key (a / 64) (a % 64) (d.take n)
      let (ok2, s2) := State.writeHbmBytes s1 agent key fuel (a + n) (d.drop n)
      (ok && ok2, s2)

/-- Lose and clear all of a stack (R34): zero data with valid check symbols, pending write-backs gone. -/
def State.clearStack (s : State) (st : Nat) : State :=
  let lo := 2 * st * groupBytes
  let hi := (2 * st + 2) * groupBytes
  let inside := fun (adr : Nat) => decide (lo ≤ adr) && decide (adr < hi)
  let quiet := fun (x : Group) => { x with writeBacks := [], patrolSeen := [] }
  (({ s with
    mem := s.mem.filter fun e => !inside e.1
    hbmCheck := s.hbmCheck.filter fun e => !inside (64 * e.1) }).modGroup (2 * st) quiet).modGroup (2 * st + 1) quiet

end Sys2Proof.Machine
end

