-- ==== Sys2Proof/Machine/PhysOps.lean ====
section
/-! DEFINITION. Reads and writes of module physical memory by any agent, with the bus errors of R12, R33, R34, R303, R326 and
R597. -/

namespace Sys2Proof.Machine

/-- Sub-causes of a bus error (R126). -/
def subSram : Nat := 1
def subReserved : Nat := 2
def subCluster : Nat := 3
def subHbm : Nat := 4
def subPoison : Nat := 5

/-- What an access meets before any data move: a bus error's sub-cause, or none (R12, R33, R34, R651). An access lies within
one region: it ends in the region where it begins. -/
def State.accessError (s : State) (a n : Nat) : Option Nat :=
  match regionOf a with
  | .hbm g =>
    if regionOf (a + (n - 1)) != .hbm g then some subReserved
    else if s.errors.rootstock then some Config.stackOffSub
    else if s.stackHeld (stackOfGroup g) then none else some Config.stackOffSub
  | .sram c =>
    if regionOf (a + (n - 1)) != .sram c then some subReserved
    else if s.sramLive c then none else some subCluster
  | .mmio | .reserved => some subReserved

/-- How a read that may wait at a gate ends: its data, a bus error or an uncorrectable word, or held (R318). -/
inductive Got (α : Type) where
  | ok (a : α)
  | bad
  | held
deriving DecidableEq, Repr

/-- The die whose counts an access adds to. -/
def dieOfAddr (a : Nat) : Nat :=
  match regionOf a with
  | .hbm g => dieOfGroup g
  | .sram c => dieOfCluster c
  | _ => 0

/-- Read physical memory for an agent: the bytes, or a bus error's sub-cause. -/
def State.physRead (s : State) (agent : Nat) (key : Option (Nat × Bool)) (p : Payer) (a n : Nat) :
    Except Nat Bytes × State :=
  match s.accessError a n with
  | some e => (.error e, s)
  | none =>
    match regionOf a with
    | .sram c =>
      let (d, s) := (s.activity (.cluster c) (.sramRead n) (divUp n 64) p).readSramBytes agent a n
      (match d with | some b => .ok b | none => .error subSram, s)
    | _ =>
      let (d, s) := s.readHbmBytes agent key a n
      (match d with | some b => .ok b | none => .error subHbm, s)

/-- Write physical memory for an agent: nothing, or a bus error's sub-cause. -/
def State.physWrite (s : State) (agent : Nat) (key : Option (Nat × Bool)) (p : Payer) (a : Nat) (d : Bytes) :
    Option Nat × State :=
  match s.accessError a d.length with
  | some e => (some e, s)
  | none =>
    match regionOf a with
    | .sram c =>
      let (ok, s) := (s.activity (.cluster c) (.sramWrite d.length) (divUp d.length 64) p).writeSramBytes agent d.length a d
      (if ok then none else some subSram, s)
    | _ =>
      let (ok, s) := s.writeHbmBytes agent key d.length a d
      (if ok then none else some subHbm, s)

/-- Count the bytes a group's gate releases in a class (R345, R635). -/
def State.gateBytes (s : State) (g cls n : Nat) (p : Payer) : State :=
  ((s.modGroup g fun x => { x with bytes := Tab.put 0 x.bytes cls ((Tab.look 0 x.bytes cls + n) % 2 ^ 48) })).activity
    (.group g) (.hbm cls) n p

/-- Wake a stack that a request finds in LOW (R318). -/
def State.wakeStack (s : State) (st : Nat) : State :=
  if s.domIs (domStack st) .low then s.reqDom (domStack st) .on else s

end Sys2Proof.Machine
end

