-- ==== Sys2Proof/Machine/GateOps.lean ====
section
/-! DEFINITION. The port gates of the channel groups: requests, settings, available capacity, buckets, class order, the release
rule, and accesses that pass a gate within one step (R318, R319, R329 to R345). -/

namespace Sys2Proof.Machine

/-! ### Requests -/

/-- Change a request. -/
def State.modReq (s : State) (id : Nat) (f : Req → Req) : State :=
  { s with reqs := s.reqs.map fun r => if r.id == id then f r else r }
def State.req? (s : State) (id : Nat) : Option Req := s.reqs.find? fun r => r.id == id
def State.dropReq (s : State) (id : Nat) : State := { s with reqs := s.reqs.filter fun r => r.id != id }
/-- Add a request, with the next request number. -/
def State.addReq (s : State) (r : Req) : Nat × State :=
  (s.nextReq, { s with reqs := s.reqs ++ [{ r with id := s.nextReq }], nextReq := s.nextReq + 1 })

/-! ### Circuits (R222) -/

/-- The name of one direction of a circuit. -/
def Circuit.ref (c : Circuit) (back : Bool) : CircRef :=
  { src := c.src, srcNum := c.srcNum, dst := c.dst, dstNum := c.dstNum, back }
def Circuit.named (c : Circuit) (x : CircRef) : Bool := c.ref x.back == x
def State.circuit? (s : State) (x : CircRef) : Option Circuit := s.mesh.circuits.find? fun c => c.named x
def State.modCircuit (s : State) (x : CircRef) (f : Circuit → Circuit) : State :=
  { s with mesh := { s.mesh with circuits := s.mesh.circuits.map fun c => if c.named x then f c else c } }

/-- The receiving end of a circuit is done with a vector: it has a credit to return (R222, R341). -/
def State.oweCredit (s : State) (x : CircRef) : State :=
  s.modCircuit x fun c =>
    if x.back then { c with returnBack := c.returnBack + 1 } else { c with returnOut := c.returnOut + 1 }

/-- The agent that a request's MEMERR names (R304, R334). -/
def Req.agent (r : Req) : Nat :=
  match r.asAgent, r.owner with
  | some a, _ => a
  | none, .piece _ _ _ => agentDma
  | none, .far _ => agentCore
  | none, .inbound _ _ _ _ _ => agentLink
  | none, .aperture _ => agentHost
  | none, .none => agentDma

/-- Who pays for a request (R65, R493). -/
def Req.payer (r : Req) : Payer :=
  match r.pay, r.forBight with
  | some (b, q, n), _ => .cmd b q n
  | none, some b => .bight b
  | none, none => .base

/-- Name a payer in a request. -/
def Req.paidBy (r : Req) (p : Payer) : Req :=
  match p with
  | .cmd b q n => { r with pay := some (b, q, n) }
  | .bight b => { r with forBight := some b }
  | .base => r

/-- A request did not succeed. -/
def ReqResult.failed : ReqResult → Bool
  | .pending => false
  | .data _ => false
  | .stored => false
  | _ => true

/-- A reference on a key generation is taken with each encrypted read and given up when its data are returned (R355). -/
def State.refKey (s : State) (r : Req) (up : Bool) : State :=
  match r.key with
  | some (k, g) =>
    if r.write then s
    else
      let f := fun (n : Nat) => if up then n + 1 else n - 1
      s.modKeySlot k fun x => if g then { x with refs1 := f x.refs1 } else { x with refs0 := f x.refs0 }
  | none => s

/-- A request's result is known: invalidations no longer wait for it, but for the report of a far store that failed, and its key's
reference is given up (R122, R355, R378). -/
def State.settle (s : State) (id : Nat) (res : ReqResult) : State :=
  match s.req? id with
  | none => s
  | some r =>
    let s := s.refKey r false
    let s := s.modReq id fun r => { r with result := res, key := none }
    let cores := match r.owner with
      | .far k => if r.write && res.failed then [k] else []
      | _ => []
    let ended := fun (v : Invalidation) =>
      if v.waits.contains id then { v with waits := without v.waits id, cores := v.cores ++ cores } else v
    { s with xlat := { s.xlat with invs := s.xlat.invs.map ended } }

/-- Put a request, or the answer to it, at the sending port of a circuit: one vector stands for it (log 189). -/
def State.sendVec (s : State) (c : Circuit) (back : Bool) (id : Nat) (res : ReqResult) : State :=
  { s with mesh := { s.mesh with
    transit := s.mesh.transit ++ [{ circuit := c, back, hop := 0, req := some id, result := res }] } }

/-- Queue a request at its group's port gate (R341). -/
def State.gateReq (s : State) (g id : Nat) : State := s.modGroup g fun x => { x with queue := x.queue ++ [id] }

/-- Take a request out of the queue of its gate: its circuit's credit is returned (R341). -/
def State.dequeue (s : State) (g : Nat) (r : Req) : State :=
  let s := s.modGroup g fun x => { x with queue := without x.queue r.id }
  match r.circ with
  | some x => s.oweCredit x
  | none => s

/-- Count an unkeyed access, or one that outlived its key in a tenant removal (R597, R606). -/
def State.countUnkeyed (s : State) (r : Req) : State :=
  if r.late then { s with security := { s.security with late := s.security.late + 1 } }
  else
    match r.key with
    | some (k, _) => s.modKeySlot k fun x => { x with unkeyed := x.unkeyed + 1 }
    | none => s

/-- Read or write module memory for a request: what it answers. -/
def State.accessNow (s : State) (r : Req) (a : Nat) : ReqResult × State :=
  if r.write then
    match s.physWrite r.agent r.key r.payer a r.data with
    | (none, s) => (.stored, s)
    | (some e, s) => (.busError e, s)
  else
    match s.physRead r.agent r.key r.payer a r.len with
    | (.ok d, s) => (.data d, s)
    | (.error e, s) => (.busError e, s)

/-- Carry out a request at its channel group: what it answers (R322, R323, R326, R597). -/
def State.accessHbm (s : State) (r : Req) (a : Nat) : ReqResult × State :=
  match s.accessError a r.len with
  | some e => (.busError e, s)
  | none =>
    if r.late || !s.keyed r.fn r.key then (.busError subPoison, s.countUnkeyed r) else s.accessNow r a

/-! ### Settings and capacity (R329, R331, R335, R343, R547) -/

/-- The module level (R548). -/
def State.tEff (s : State) : Nat := max s.power.tCap s.power.tTh

/-- The memory-cap factor of a channel group in sixteenths: Trim's, halved in Reef, less the limiter's reduction, which stops
at one half (R542, R547, R564). -/
def State.memFactor (s : State) (g : Nat) : Nat :=
  let trim := match s.tEff with | 7 => 8 | 6 => 12 | _ => 16
  let base := if s.power.reef then min trim 8 else trim
  max (min base 8) (base - Tab.look 0 s.power.memRed (dieOfGroup g))

/-- The settings of a master at a group; those of master 306 are fixed (R335). -/
def Group.setting (x : Group) (m : Nat) : GateSetting :=
  let g := Tab.look ({} : GateSetting) x.masters m
  if m = 306 then { g with floor := 1, weight := 0, ceiling := 8, class0 := true } else g

/-- The sum of the floors set at a group; the fixed floor of master 306 is not part of it, as in the worked example (R342). -/
def Group.floorSum (x : Group) : Nat :=
  ((List.filter (fun e : Nat × GateSetting => e.1 != 306) x.masters).map (·.2.floor)).sum

/-- Refresh factor in hundredths, thermal factor in eighths, of the refresh row (R329). -/
def refreshPct (row : Nat) : Nat := match row with | 0 => 97 | 1 => 94 | _ => 88
def thermalEighths (row : Nat) : Nat := match row with | 3 => 4 | 4 => 1 | _ => 8

/-- The gate's unit of rate and of its buckets: 1/12,800 GB/s and 1/12,800 byte, in which available capacities are whole. -/
def gateUnit : Nat := 12800

/-- The available capacity in the gate's unit (R331): 1,024 × hundredths × eighths × sixteenths. -/
def State.capacityFine (s : State) (g : Nat) : Nat :=
  1024 * refreshPct (s.group g).row * thermalEighths (s.group g).row * s.memFactor g
/-- The available capacity, rounded down to 1 GB/s. -/
def State.capacity (s : State) (g : Nat) : Nat := s.capacityFine g / gateUnit

/-- Set or clear the floor-scaled flag of a group; setting it writes an event log entry (R343). -/
def State.scaleFloors (s : State) (g : Nat) : State :=
  let x := s.group g
  let low := decide (s.capacityFine g < gateUnit * x.floorSum)
  let above := decide (gateUnit * x.floorSum < s.capacityFine g)
  if low && !x.floorsScaled then (s.setGroup g { x with floorsScaled := true }).event 0x0022 g
  else if above && x.floorsScaled then s.setGroup g { x with floorsScaled := false }
  else s

/-- Re-evaluate the floors of every group that has settings or is not in the first row. -/
def State.scaleAll (s : State) : State := (List.range 64).foldl (fun s g => s.scaleFloors g) s

/-- The floor in force, in the gate's unit: scaled by A_g / ΣF while the floors are scaled (R343). -/
def State.floorRate (s : State) (g f : Nat) : Nat :=
  let x := s.group g
  if x.floorsScaled then f * s.capacityFine g / x.floorSum else f * gateUnit

/-- The buckets of a master refilled up to a time: F and C bytes each nanosecond, at most 1 µs of them (R340). -/
def State.refill (s : State) (g : Nat) (v : GateSetting) (t : Nat) : GateSetting :=
  let f := s.floorRate g v.floor
  let c := v.ceiling * gateUnit
  let dt := t - v.filledAt
  { v with
    floorBucket := min (1000 * f) (v.floorBucket + f * dt)
    ceilBucket := min (1000 * c) (v.ceilBucket + c * dt)
    filledAt := max t v.filledAt }

/-- The master is under its floor for a request of `n` bytes: its floor bucket covers them (R340, log 185). -/
def GateSetting.underFloor (v : GateSetting) (n : Nat) : Bool := decide (n * gateUnit ≤ v.floorBucket)

/-- The master's ceiling permits a request of `n` bytes: there is none, or its bucket covers them (R335, R340, log 185). -/
def GateSetting.underCeiling (v : GateSetting) (n : Nat) : Bool := v.ceiling == 0 || decide (n * gateUnit ≤ v.ceilBucket)

/-- Take a request's bytes from a master's buckets, down to zero (R340). -/
def GateSetting.debit (v : GateSetting) (n : Nat) : GateSetting :=
  { v with floorBucket := v.floorBucket - n * gateUnit, ceilBucket := v.ceilBucket - n * gateUnit }

/-! ### The capacity of 1 µs (R331) -/

/-- The bytes that a group's gate may release in 1 µs. -/
def State.windowBytes (s : State) (g : Nat) : Nat := 1000 * s.capacityFine g / gateUnit

/-- The first time at which `n` more bytes keep every 1 µs within `cap`, given the releases newest first and the bytes of those
passed already. -/
def paceFrom (cap n now : Nat) : List (Nat × Nat) → Nat → Nat
  | [], _ => now
  | (t, b) :: rest, sum => if cap < sum + b + min n cap then max now (t + 1000) else paceFrom cap n now rest (sum + b)

/-- The first time, not before the newest release, at which the gate may release `n` bytes (R331). -/
def State.releaseTime (s : State) (g n : Nat) : Nat :=
  let l := (s.group g).released
  max ((l.head?.map (·.1)).getD 0) (paceFrom (s.windowBytes g) n s.now l 0)

/-- The releases that a later one has to look at, with a new one at time `t`. -/
def Group.noteRelease (x : Group) (now t n : Nat) : List (Nat × Nat) :=
  (t, n) :: x.released.filter fun e => decide (now < e.1 + 1000)

/-! ### The release rule (R336 to R340) -/

/-- The class a request is served in (R336). -/
def Group.classOf (x : Group) (r : Req) : Nat := if r.cls = 0 ∧ (x.setting r.master).class0 = false then 3 else r.cls

/-- Request a comes before request b in class order; `a` is in front of `b` when it is older (R338). -/
def classBefore (ca cb : Nat) (a b : Req) : Bool :=
  let dl := fun (c : Nat) => c = 1 ∨ c = 2
  if ca = 0 ∨ cb = 0 then decide (ca = 0) && decide (cb ≠ 0 ∨ a.id ≤ b.id)
  else if dl ca ∧ dl cb then
    if a.deadline = b.deadline then
      if ca ≠ cb then decide (ca < cb)
      else if a.master ≠ b.master then decide (a.master < b.master)
      else decide (a.id ≤ b.id)
    else stampBefore a.deadline b.deadline
  else if dl ca then true
  else if dl cb then false
  else decide (a.id ≤ b.id)

/-- The rank of weighted sharing (R340): class 0, then one deadline, then class 3. -/
def sameRank (ca cb : Nat) (a b : Req) : Bool :=
  if ca = 0 ∨ ca = 3 then ca == cb else (cb == 1 || cb == 2) && a.deadline == b.deadline

/-- The first of a list in class order. -/
def Group.firstOf (x : Group) (l : List Req) : Option Req :=
  l.foldl (fun acc r =>
    match acc with
    | none => some r
    | some a => if classBefore (x.classOf r) (x.classOf a) r a then some r else some a) none

/-- The requests waiting at a gate, oldest first. -/
def State.waitingReqs (s : State) (g : Nat) : List Req := (s.group g).queue.filterMap s.req?

/-- The oldest request of each master. -/
def headsOf (l : List Req) : List Req :=
  l.foldl (fun acc r => if acc.any fun a => a.master == r.master then acc else acc ++ [r]) []

/-- Deficit round-robin over the masters of the best rank, in ascending order from the one served last (R340, log 20): a
master goes on while its deficit covers its head; otherwise the next receives its quantum. -/
def drrPick (masters : Tab GateSetting) : Nat → Bool → List (Req × GateSetting) → Option Req × Tab GateSetting
  | 0, _, _ => (none, masters)
  | _, _, [] => (none, masters)
  | fuel + 1, first, (r, v) :: rest =>
    let v := if first then v else { v with deficit := v.deficit + v.weight * 256 }
    if r.len ≤ v.deficit then
      (some r, Tab.set masters r.master { v with deficit := v.deficit - r.len })
    else drrPick (Tab.set masters r.master v) fuel false (rest ++ [(r, v)])

/-- Put the list in cyclic order from the first master not below `m`. -/
def cyclic (m : Nat) (l : List Req) : List Req :=
  let sorted := l.mergeSort fun a b => decide (a.master ≤ b.master)
  (sorted.filter fun r => decide (m ≤ r.master)) ++ sorted.filter fun r => decide (r.master < m)

/-- The request that the gate of group g releases next out of the masters' heads, and the group with its buckets and deficits as
the release leaves them; none while R331 does not permit it (R340). -/
def State.pickOf (s : State) (g : Nat) (heads : List Req) : Option Req × Group :=
  let x0 := s.group g
  let masters := heads.foldl (fun t r => Tab.set t r.master (s.refill g (x0.setting r.master) s.now)) x0.masters
  let x := { x0 with masters := masters }
  let cfg := fun (r : Req) => Tab.look ({} : GateSetting) x.masters r.master
  let cand := heads.filter fun r => (cfg r).underCeiling r.len
  let go := fun (y : Group) (r : Req) =>
    if s.now < s.releaseTime g r.len then (none, x)
    else
      let v := Tab.look ({} : GateSetting) y.masters r.master
      (some r, { y with masters := Tab.set y.masters r.master (v.debit r.len), released := y.noteRelease s.now s.now r.len })
  match x.firstOf (cand.filter fun r => (cfg r).underFloor r.len) with
  | some r => go x r
  | none =>
    let rest := cand.filter fun r => decide (0 < (cfg r).weight)
    match x.firstOf rest with
    | none => (none, x)
    | some top =>
      let best := rest.filter fun r => sameRank (x.classOf top) (x.classOf r) top r
      let order := (cyclic x.lastMaster best).map fun r => (r, cfg r)
      let fuel := order.length * (2 + (best.map (·.len)).foldl max 0 / 256)
      match drrPick x.masters fuel (order.any fun e => e.1.master == x.lastMaster) order with
      | (some r, masters) => go { x with masters := masters, lastMaster := r.master } r
      | (none, masters) => (none, { x with masters := masters })

/-- The request that the gate releases next out of those that wait (R340). -/
def State.pickRelease (s : State) (g : Nat) : Option Req × Group := s.pickOf g (headsOf (s.waitingReqs g))

/-- Count a released request: bytes by class, a demotion, a missed deadline (R336, R339, R345). -/
def State.countRelease (s : State) (g : Nat) (r : Req) (p : Payer) : State :=
  let x := s.group g
  let c := x.classOf r
  let s := s.setGroup g { x with demotions := if r.cls = 0 ∧ c = 3 then x.demotions + 1 else x.demotions }
  let s := s.gateBytes g c r.len p
  if (c = 1 ∨ c = 2) ∧ stampBefore r.deadline s.stamp = true then
    let x := s.group g
    if c = 2 then s.setGroup g { x with miss2 := x.miss2 + 1 }
    else
      let s := s.setGroup g { x with miss1 := x.miss1 + 1, missLogged := some s.frame.counter }
      if x.missLogged = some s.frame.counter then s else s.event 0x0021 g
  else s

/-- Requests of a group may go on: its stack is ON (R318). -/
def State.groupOn (s : State) (g : Nat) : Bool := s.domIs (domStack (stackOfGroup g)) .on

/-- The gate releases a request, which leaves the group as `x` holds it, and the controller carries it out (R340, R345). -/
def State.serveReq (s : State) (g : Nat) (x : Group) (r : Req) : ReqResult × State :=
  let addr := match r.target with | .hbm a => a | _ => 0
  let (res, s) := (((s.setGroup g x).dequeue g r).countRelease g r r.payer).accessHbm r addr
  (res, s.modGroup g fun x => { x with servedAt := s.now })

/-! ### Accesses that a step of the model makes (R318, R331, R334 to R341, log 186)

Each is a request like any other. What is not there yet holds the step, which is tried again and then takes the results that have
come in the meantime. -/

/-- A request of the list stands for the same access. -/
def Req.same (r q : Req) : Bool :=
  q.target == r.target && q.master == r.master && q.write == r.write && q.len == r.len && q.data == r.data && q.pay == r.pay &&
    q.forBight == r.forBight && q.asAgent == r.asAgent && q.stepBy == r.stepBy

/-- An operation begins: the results that the one before it took are forgotten. -/
def State.forgetSteps (s : State) : State := { s with reqs := s.reqs.filter fun r => r.step != .used }

/-- An operation is held: it is tried again, and takes the same results again. -/
def State.keepSteps (s : State) : State :=
  { s with reqs := s.reqs.map fun r => if r.step == .used then { r with step := .passed } else r }

/-- The results of table reads that a requester's walk has taken are done with (R371). -/
def State.walkDone (s : State) (x : Requester) : State :=
  { s with reqs := s.reqs.filter fun r => !(r.step == .used && r.stepBy == some x && r.asAgent == some agentTable) }

/-- The result of a step's access is there: the step takes it. -/
def State.takeStep (s : State) (id : Nat) (res : ReqResult) : Option ReqResult × State :=
  (some res, (s.settle id res).modReq id fun r => { r with step := .used })

/-- The gate of a group is asked for a request that waits there: the step takes its result if the rule releases it now (R340). -/
def State.tryStep (s : State) (g : Nat) (r : Req) : Option ReqResult × State :=
  if r.circ.isSome || !(s.group g).queue.contains r.id || !s.groupOn g then (none, s)
  else
    match s.pickRelease g with
    | (some p, x) =>
      if p.id = r.id then
        let (res, s) := s.serveReq g x r
        s.takeStep r.id res
      else (none, s)
    | (none, _) => (none, s)

/-- A new access of a step: over a circuit, at a gate, or in SRAM, where it is done at once. -/
def State.newStep (s : State) (r : Req) (a : Nat) (x : Option CircRef) : Option ReqResult × State :=
  match x, x.bind s.circuit? with
  | some x, some c =>
    let (id, s) := s.addReq { r with step := .waits, circ := some x, stage := .away }
    (none, (s.refKey r true).sendVec c x.back id .pending)
  | _, _ =>
    match regionOf a with
    | .hbm g =>
      let r := { r with step := .waits }
      let (id, s) := s.addReq r
      (((s.refKey r true).gateReq g id).wakeStack (stackOfGroup g)).tryStep g { r with id }
    | _ =>
      let (id, s) := s.addReq r
      let (res, s) := s.accessNow r a
      s.takeStep id res

/-- A step that is held keeps what it has taken. -/
def orKeep (x : Option ReqResult × State) : Option ReqResult × State :=
  match x with
  | (some res, s) => (some res, s)
  | (none, s) => (none, s.keepSteps)

/-- An access that a step makes to module memory, over a circuit where one is named: its result, or none while the step is held. -/
def State.stepAccess (s : State) (r : Req) (a : Nat) (x : Option CircRef) : Option ReqResult × State :=
  match s.accessError a r.len with
  | some e => (some (.busError e), s)
  | none =>
    match s.reqs.find? fun q => q.step == .passed && r.same q with
    | some q => (some q.result, s.modReq q.id fun q => { q with step := .used })
    | none =>
      match s.reqs.find? fun q => q.step == .waits && r.same q with
      | some q => (match regionOf a with | .hbm g => orKeep (s.tryStep g q) | _ => (none, s.keepSteps))
      | none => orKeep (s.newStep r a x)

/-- A bight holds a channel group. -/
def State.bightHolds (s : State) (b g : Nat) : Bool := (s.bight b).state != .free && (s.bight b).place.holdsGroup g

/-! ### The module's own tables (R318, R401, R516) -/

/-- The request that stands for an access of the module itself, master 306 at class 3 (R334). -/
def ownReq (a n : Nat) : Req :=
  { id := 0, owner := .none, target := .hbm a, write := false, len := n, master := 306, cls := 3, asAgent := some agentTable }

/-- The parts of at most 256 bytes, the unit of R316, in which the module's own accesses go: address and length. -/
def ownParts (a n : Nat) : List (Nat × Nat) := cutParts 256 (n / 256 + 2) a n

/-- Read the parts of a table of the module's own. -/
def State.ownReads (p : Payer) : List (Nat × Nat) → State → Got Bytes × State
  | [], s => (.ok [], s)
  | (a, n) :: t, s =>
    match s.stepAccess ((ownReq a n).paidBy p) a none with
    | (none, s) => (.held, s)
    | (some (.data d), s) =>
      (match State.ownReads p t s with
        | (.ok l, s) => (.ok (d ++ l), s)
        | r => r)
    | (some _, s) => (.bad, s)

/-- Read bytes of a table of the module's own at the gate (R318, R334). -/
def State.ownRead (s : State) (p : Payer) (a n : Nat) : Got Bytes × State := State.ownReads p (ownParts a n) s

/-- The results of a step's accesses to some bytes are out of date: the bytes change. -/
def State.dropSteps (s : State) (a n : Nat) : State :=
  { s with reqs := s.reqs.filter fun r =>
      !((r.step == .passed || r.step == .used) && r.master == 306 &&
        (match r.target with | .hbm b => decide (a < b + r.len) && decide (b < a + n) | _ => false)) }

/-- Write one part of a table of the module's own: it goes on at once, or waits at its gate (R318). -/
def State.ownPut (s : State) (a : Nat) (d : Bytes) : State :=
  match s.accessError a d.length with
  | some _ => s
  | none =>
    let r := { ownReq a d.length with write := true, data := d }
    match regionOf a with
    | .hbm g =>
      let (id, s) := (s.dropSteps a d.length).addReq r
      (match ((s.gateReq g id).wakeStack (stackOfGroup g)).tryStep g { r with id } with
        | (some _, s) => s.dropReq id
        | (none, s) => s)
    | _ => (s.accessNow r a).2

/-- Write bytes of a table of the module's own (R318, R334). -/
def State.ownWrite (s : State) (a : Nat) (d : Bytes) : State :=
  (ownParts a d.length).foldl (fun (s : State) e => s.ownPut e.1 (slice d (e.1 - a) e.2)) s

/-- The stack of an address in HBM. -/
def stackOfAddr (a : Nat) : Option Nat := match regionOf a with | .hbm g => some (stackOfGroup g) | _ => none

/-- A write of the module's own that waits at its gate: where it goes. -/
def Req.ownDue (r : Req) : Option Nat :=
  match r.owner, r.target with
  | .none, .hbm a => if r.write && r.master == 306 && r.result == .pending then some a else none
  | _, _ => none

/-- Bytes of memory with the module's own writes that wait at a gate. -/
def State.withDue (s : State) (a : Nat) (d : Bytes) : Bytes :=
  d.mapIdx fun i b => s.reqs.foldl (fun b r =>
    match r.ownDue with
    | some e => if e ≤ a + i ∧ a + i < e + r.data.length then r.data.getD (a + i - e) b else b
    | none => b) b

end Sys2Proof.Machine
end

