-- ==== Sys2Proof/Machine/FenceOps.lean ====
section
/-! DEFINITION. Contexts, fences and completions (R348, R399, R414 to R425, R608, R645). -/

namespace Sys2Proof.Machine

/-! ### Break codes (R645) -/

def codeBusError : Nat := 0x0101
def codeCoreFault : Nat := 0x0102
def codeEngineConfig : Nat := 0x0103
def codeAccLimit : Nat := 0x0104
def codeAnchor : Nat := 0x0105
def codeSchedFault : Nat := 0x0106
def codeDeadLetter : Nat := 0x0107
def codeTranslation : Nat := 0x0108
def codeMalformed : Nat := 0x0201
def codeNotPermitted : Nat := 0x0202
def codeWrap : Nat := 0x0203
def codeOrder : Nat := 0x0204
def codeOwnerGone : Nat := 0x0205
def codeHostError : Nat := 0x0206
def codeObjectList : Nat := 0x0301
def codeUndeclared : Nat := 0x0302
def codeUnshadowed : Nat := 0x0303
def codeGroupAborted : Nat := 0x0304
def codeGroupMismatch : Nat := 0x0305
def codeGroupConflict : Nat := 0x0306
def codeAborted : Nat := 0x0307
def codeHoldCeiling : Nat := 0x0308
def codeRelashRefused : Nat := 0x0401
def codeRelashCancelled : Nat := 0x0402
def codeRemoteRefused : Nat := 0x0501
def codeLinkDown : Nat := 0x0502
def codeAbandoned : Nat := 0x0503
def codeCollective : Nat := 0x0504
def codeHandoffConfig : Nat := 0x0601
def codeHandoffIncomplete : Nat := 0x0602
def codeHandoffTimeout : Nat := 0x0603
def codeHandoffReverted : Nat := 0x0604
def codeHandoffLost : Nat := 0x0605
def codeHandoffAborted : Nat := 0x0606
def codeTrip : Nat := 0x0701
def codeRootstock : Nat := 0x0702

/-! ### Contexts (R348, R399) -/

/-- Address of the context table, and whether it is enabled (R388). -/
def State.ctxBase (s : State) : Nat := s.xlat.contextTable.toNat / 65536 % 2 ^ 32 * 65536
def State.ctxOn (s : State) : Bool := s.xlat.contextTable.getLsbD 0

/-- Bytes of a table of the module's own as they read, its own waiting writes included, without the read's effects: none for a bus
error. -/
def State.peek (s : State) (a n : Nat) : Option Bytes :=
  match s.accessError a n with
  | some _ => none
  | none => (match s.physRead agentTable none .base a n with | (.ok d, _) => some (s.withDue a d) | (.error _, _) => none)

/-- A context entry that is present is malformed (R352). -/
def contextBad (e : BitVec 128) : Bool :=
  let root := fieldN e.toNat 0 48
  fieldN e.toNat 48 16 != 0 || fieldN e.toNat 70 2 != 0 || fieldN e.toNat 74 54 != 0 || root % 131072 != 0 ||
    decide (hbmLimit < root + 131072)

/-- The owner function that the bytes of a context entry name; a malformed entry is not used (R15, R352, R399). -/
def ctxOwner (b : Bytes) : Option Nat :=
  let e := BitVec.ofNat 128 (leAt b 0 16)
  if e.getLsbD 72 && !contextBad e then some (fieldN e.toNat 64 6) else none

/-- The owner function of a context, none when the ASID is not a context (R399). -/
def State.contextFn (s : State) (asid : Nat) : Option Nat :=
  if s.ctxOn then (s.peek (s.ctxBase + 16 * asid) 16).bind ctxOwner else none

/-- The same by an access of the module at the table's gate (R318, R334): none while it is held there. -/
def State.readContext (s : State) (asid : Nat) : Option (Option Nat) × State :=
  if !s.ctxOn then (some none, s)
  else
    match s.ownRead .base (s.ctxBase + 16 * asid) 16 with
    | (.ok b, s) => (some (ctxOwner b), s)
    | (.bad, s) => (some none, s)
    | (.held, s) => (none, s)

/-- Whether the context has access counting enabled (R348). -/
def State.contextAcc (s : State) (asid : Nat) : Bool :=
  match s.peek (s.ctxBase + 16 * asid) 16 with
  | none => false
  | some e => (leAt e 9 1).testBit 1

/-! ### Fences -/

/-- The function may use the fence (R417): its owner context is the function's, or SHARE has its bit. -/
def State.mayUseFence (s : State) (fn f : Nat) : Bool :=
  match s.fence? f with
  | some x => x.live && (s.contextFn x.asid == some fn || x.share.getLsbD fn)
  | none => false

/-- The fence number with its present incarnation (R425). -/
def State.bindFence (s : State) (f : Nat) : Option (Nat × Nat) :=
  if f = 0xFFFF then none else (s.fence? f).map fun x => (f, x.incarnation)

def fenceBroken (w : Word) : Bool := w.getLsbD 63
/-- The word of a broken fence (R418). -/
def brokenWord (code : Nat) (detail : BitVec 24) : Word :=
  (1 <<< 63) ||| (detail.setWidth 64 <<< 32) ||| BitVec.ofNat 64 (code % 65536)

/-- DETAIL naming a command, a fence, an ASID (R418). -/
def detailCmd (q seq : Nat) : BitVec 24 := BitVec.ofNat 24 (1 * 2 ^ 22 + (q % 4096) * 1024 + seq % 1024)
def detailFence (f : Nat) : BitVec 24 := BitVec.ofNat 24 (2 * 2 ^ 22 + f % 65536)
def detailAsid (a : Nat) : BitVec 24 := BitVec.ofNat 24 (3 * 2 ^ 22 + a % 4096)

/-- The payload of a FENCE message (R426). -/
def fenceFlits (op f : Nat) (w : Word) : List Flit := BitVec.ofNat 32 (f % 65536 * 65536 + op * 256) :: wordFlits w

/-- A bight asks the management processor with a FENCE message to signal (1) or break (2) a fence (R421, R426). -/
def State.fenceMsg (s : State) (b op f : Nat) (w : Word) : State :=
  s.lanCarry 1 stopMgmt (s.stopOfBight b) (fenceFlits op f w)

/-- A WAIT of the queue waits for the fence (R422, R425). -/
def Queue.waitsFor (q : Queue) (f inc : Nat) : Bool :=
  q.cmds.any fun c => c.phase == .running && c.bound == inc && (match c.payload with | .wait g _ => g == f | _ => false)

/-- FENCE messages tell the bights of the WAITs that wait for a fence its word (R426). -/
def State.notifyWaits (s : State) (f inc : Nat) (w : Word) : State :=
  (List.filter (fun e : Nat × Queue => e.2.waitsFor f inc) s.queues).foldl (fun (s : State) (e : Nat × Queue) =>
    s.lanCarry 1 (s.stopOfBight e.2.bight) stopMgmt (fenceFlits 3 f w)) s

/-- A change of a fence word: it is written to the mirror and raises the fence's interrupt (R419). Writes go through the
function of the owner context; the bights on which a WAIT waits for it are told. -/
def State.fenceSet (s : State) (f : Nat) (x : Fence) (w : Word) : State :=
  let owner := (s.contextFn x.asid).getD 0
  let s := s.notifyWaits f x.incarnation w
  let s := s.setFence f { x with word := w, last := if fenceBroken w then x.last else w }
  let s := if x.mirror = 0 then s else s.hostWrite owner x.mirror (wordBytes w)
  if x.flags.getLsbD 2 then s.irq owner x.vector else s

/-- The fence of a number and incarnation, while it exists. -/
def State.liveFence (s : State) (f inc : Nat) : Option Fence :=
  match s.fence? f with
  | some x => if x.live && x.incarnation == inc then some x else none
  | none => none

/-- Break a fence; an already broken one stays as it is (R421). -/
def State.breakFence (s : State) (f inc code : Nat) (detail : BitVec 24) : State :=
  match s.liveFence f inc with
  | some x => if fenceBroken x.word then s else s.fenceSet f x (brokenWord code detail)
  | none => s

/-- A value reaches a fence (R420). -/
def State.signalFence (s : State) (f inc v fn q seq : Nat) : State :=
  match s.liveFence f inc with
  | none => s
  | some x =>
    if fenceBroken x.word then s
    else if 2 ^ 63 ≤ v then s.fenceSet f x (brokenWord codeWrap 0)
    else if x.word.toNat < v then s.fenceSet f x (BitVec.ofNat 64 v)
    else if v = x.word.toNat then s
    else if x.flags.getLsbD 1 then s.fenceSet f x (brokenWord codeOrder (detailCmd q seq))
    else
      let s := s.modFn fn fun g => { g with errSignal := satInc16 g.errSignal }
      { s with host := { s.host with signalsIgnored := s.host.signalsIgnored + 1 } }

/-- Count an error that no fence takes (R424). -/
def State.looseError (s : State) : State := { s with host := { s.host with loose := s.host.loose + 1 } }

/-- Break a bight's error fence; without one, or with a broken one, the failure is only counted (R424). -/
def State.breakErrorFence (s : State) (b code : Nat) (detail : BitVec 24) : State :=
  let x := s.bight b
  match x.errorFence with
  | none => s.looseError
  | some (f, inc) =>
    match s.liveFence f inc with
    | none => s.looseError
    | some y =>
      if fenceBroken y.word then s.looseError
      else
        let s := (s.breakFence f inc code detail).cause x.owner 2
        if x.owner = 0 then s else s.cause 0 2

/-- A command's fence breaks with a code, or the bight's error fence when it names none (R423): its bight tells the management
processor (R426). -/
def State.breakCmdFence (s : State) (b : Nat) (c : Cmd) (code : Nat) (detail : BitVec 24) : State :=
  match c.fence with
  | some (f, inc) => (s.fenceMsg b 2 f (brokenWord code detail)).breakFence f inc code detail
  | none => s.breakErrorFence b code detail

/-! ### Completions (R414 to R416, R608) -/

/-- The phase of a stamp rounded down as tenants see it (R608). -/
def State.coarsePhase (s : State) (ph : Nat) : Nat :=
  let k := ((List.range 17).find? fun k => decide (1000 * 65536 ≤ 2 ^ k * s.frame.period)).getD 16
  ph / 2 ^ k * 2 ^ k

/-- The stamp as tenants see it: exact when `fine` (R608). -/
def State.stampSeen (s : State) (fine : Bool) (st : BitVec 24) : BitVec 24 :=
  if fine then st else BitVec.ofNat 24 (st.toNat / 65536 * 65536 + s.coarsePhase (st.toNat % 65536))

/-- Whether a command ended signalled (false) or broken (true): its phase says. -/
def Cmd.broken (c : Cmd) : Bool := c.phase == .ended

/-- A WAIT without a fence of its own that a broken fence ended breaks nothing (R422): DETAIL of KIND 2 names that fence. -/
def Cmd.quiet (c : Cmd) : Bool := c.fence.isNone && c.detail.toNat / 2 ^ 22 == 2

/-- The 32-byte completion entry (R414). -/
def State.completionEntry (s : State) (qn : Nat) (q : Queue) (c : Cmd) : Bytes :=
  let uj := c.charged / 1000000
  let energy := if q.fn = 0 then uj else uj / 1000 * 1000
  let flags := (if c.reruns = 0 then 0 else 2) + (if c.seq / 2 ^ q.size % 2 = 0 then 1 else 0)
  leBytes 8 (qn * 2 ^ 36 + c.seq) ++ leBytes 8 (energy % 2 ^ 48) ++ leBytes 2 c.acc.toNat ++
    leBytes 1 (if c.broken then 1 else 0) ++ leBytes 1 flags ++ leBytes 2 (if c.broken then c.code else 0) ++
    leBytes 2 (min c.reruns 0xFFFF) ++ leBytes 4 (s.stampSeen (s.bight q.bight).fineCounters s.stamp).toNat ++ leBytes 4 0

/-- The fence update of a command's completion (R416, R420, R423): signalled, or broken with its break code. -/
def State.updateFence (s : State) (qn : Nat) (q : Queue) (c : Cmd) : State :=
  if c.broken then (if c.quiet then s else s.breakCmdFence q.bight c c.code c.detail)
  else
    match c.fence with
    | some (f, inc) =>
      (s.fenceMsg q.bight 1 f (BitVec.ofNat 64 c.fenceValue)).signalFence f inc c.fenceValue q.fn qn c.seq
    | none => s

/-- Complete one command (R416): the fence update with its mirror, the completion entry, the interrupt. -/
def State.completeCmd (s : State) (qn : Nat) (q : Queue) (c : Cmd) : State :=
  let s := s.updateFence qn q c
  let s := s.hostWrite q.fn (q.cring + 32 * (c.seq % 2 ^ q.size)) (s.completionEntry qn q c)
  if c.flags.getLsbD 2 then s.irq q.fn q.vector else s

/-- Complete the commands at the head of a queue that have committed or ended, in sequence order (R416); one whose queue was
reset or torn down breaks its fence and receives no completion entry (R414, R431). -/
def State.drainQueue : Nat → State → Nat → State
  | 0, s, _ => s
  | n + 1, s, qn =>
    match s.queue? qn with
    | none => s
    | some q =>
      match q.cmds with
      | [] => s
      | c :: rest =>
        if c.phase == .ended || c.phase == .committed then
          let s := if c.gone then s.updateFence qn q c else s.completeCmd qn q c
          let one := if c.flags.getLsbD 1 && c.broken && !c.gone then 1 else 0
          let s := s.modQueue qn fun x => { x with cmds := rest, groupDone := x.groupDone + one }
          State.drainQueue n (s.modBight q.bight fun x => { x with idleSince := s.now }) qn
        else s

def State.drain (s : State) (qn : Nat) : State :=
  State.drainQueue (((s.queue? qn).map (·.cmds.length)).getD 0) s qn

end Sys2Proof.Machine
end

