-- ==== Sys2Proof/Machine/LinkOps.lean ====
section
/-! DEFINITION. The link layer of the fabric ports: flits, credits, replay, packets and their encryption, entry to DOWN
(R471 to R488). -/

namespace Sys2Proof.Machine

/-! ### CRC-32C and flits (R474) -/

/-- One bit of the reflected CRC-32C register. -/
def crcBit (c : BitVec 32) : BitVec 32 := if c.getLsbD 0 then (c >>> 1) ^^^ 0x82F63B78 else c >>> 1
def crcByte (c : BitVec 32) (b : Byte) : BitVec 32 := (List.range 8).foldl (fun c _ => crcBit c) (c ^^^ b.setWidth 32)
/-- CRC-32C with the usual bit order and complements (polynomial 0x1EDC6F41; log 14). -/
def crc32c (d : Bytes) : BitVec 32 := ~~~(d.foldl crcByte 0xFFFFFFFF)

def flitIdle : Nat := 0
def flitData : Nat := 1
def flitNak : Nat := 2

/-- The 256 bytes of a flit (R474). -/
def makeFlit (ftype seq ack : Nat) (credit : List Nat) (payload : Bytes) : Bytes :=
  let body := leBytes 2 (ftype * 16384 + (if ftype = flitData then seq % 4096 else 0)) ++ leBytes 2 (ack % 4096) ++
    (List.range 4).flatMap (fun v => leBytes 2 (credit.getD v 0)) ++
    slice payload 0 240
  body ++ leBytes 4 (crc32c body).toNat

/-- The virtual channel of a packet type; none for a reserved type (R482, R525). -/
def vcOf (ty : Nat) : Option Nat :=
  match ty with
  | 0x01 | 0x02 => some 0
  | 0x03 | 0x04 => some 1
  | 0x08 => some 2
  | 0x0A | 0x0B | 0x0C | 0x0D | 0x10 | 0x11 | 0x12 => some 3
  | _ => none

/-- The receive buffer of a VC in 16-byte credits (R475). -/
def vcBuffer (v : Nat) : Nat := [4096, 4096, 8192, 1024].getD v 0

/-- The port carries packets: it is UP or DEGRADED (R472). -/
def Port.usable (p : Port) : Bool := p.state == 2 || p.state == 3
def State.portUsable (s : State) (p : Nat) : Bool := (s.port p).usable

/-! ### Packets (R481) -/

def pktUp : Nat := 2 ^ 47

/-- The fields of a packet before the port gives it a key slot and a COUNTER. -/
structure Header where
  ty : Nat
  len : Nat
  dst : Nat
  src : Nat
  tag : Nat := 0
  status : Nat := 0
  sub : Nat := 0
  offset : Nat := 0
  epoch : Nat := 0
  attempt : Nat := 0
  window : Nat := 0
deriving DecidableEq, Repr

/-- The 32 header bytes (R481). -/
def Header.bytes (h : Header) (keysel counter : Nat) : Bytes :=
  leBytes 1 h.ty ++ leBytes 1 keysel ++ leBytes 2 h.len ++ leBytes 2 h.dst ++ leBytes 2 h.src ++ leBytes 8 counter ++
    leBytes 8 (h.tag % 65536 * 2 ^ 48 + h.status % 16 * 2 ^ 44 + h.sub % 16 * 2 ^ 40 + h.offset % 2 ^ 40) ++
    leBytes 6 (h.epoch % 2 ^ 48) ++ leBytes 1 (h.attempt % 256) ++ leBytes 1 h.window

/-- A header read back from its bytes (R481). -/
def headerOf (b : Bytes) : Header :=
  let a := leAt b 0x10 8
  { ty := leAt b 0 1, len := leAt b 2 2, dst := leAt b 4 2, src := leAt b 6 2, tag := fieldN a 48 16,
    status := fieldN a 44 4, sub := fieldN a 40 4, offset := fieldN a 0 40, epoch := leAt b 0x18 6,
    attempt := leAt b 0x1E 1, window := leAt b 0x1F 1 }

def Packet.hdr (p : Packet) : Header := headerOf p.header

/-- The payload bytes a packet carries: a READ_REQ's LEN is the length it asks for (R482). -/
def carried (ty len : Nat) : Nat := if ty = 1 then 0 else len

/-- The credits of a packet of `n` payload bytes: 32 + n + 16 bytes in units of 16 (R483). -/
def pktCredits (n : Nat) : Nat := divUp (48 + n) 16

/-! ### Sending -/

/-- The AES-256-GCM IV: the salt, then COUNTER, most significant byte first (R484). -/
def linkIv (key : Bytes) (counter : Nat) : Bytes := slice key 32 4 ++ beBytes 8 counter

/-- What the ACK field carries: the SEQ of the last data flit received good and in order. -/
def Port.ackField (p : Port) : Nat := (p.rxSeq + 4095) % 4096

/-- The credits a flit returns, and the port after it has carried them. -/
def Port.takeOwed (p : Port) : List Nat × Port :=
  ((List.range 4).map fun v => Tab.look 0 p.owed v, { p with owed := [] })

/-- Credits to return for a packet of `len` payload bytes that has left the buffer of VC v (R475). -/
def State.owe (s : State) (n v len : Nat) : State :=
  s.modPort n fun p => { p with owed := Tab.put 0 p.owed v (Tab.look 0 p.owed v + pktCredits len) }

/-- Send an idle flit, which carries ACK and credits (R477). -/
def State.sendIdle (s : State) (n : Nat) : State :=
  let p := s.port n
  if p.usable then
    let (cr, p) := p.takeOwed
    (s.setPort n p).send (.flit n (makeFlit flitIdle 0 p.ackField cr []))
  else s

/-- Who pays for a packet (R65, R493). -/
def payerOf (p : Option (Nat × Nat × Nat)) : Payer :=
  match p with
  | some (b, q, n) => .cmd b q n
  | none => .base

/-- Send one data flit: it takes the next SEQ and stays in the replay buffer (R477). -/
def State.sendData (s : State) (n : Nat) (payload : Bytes) : State :=
  let p := s.port n
  let (cr, p) := p.takeOwed
  let f := makeFlit flitData p.txSeq p.ackField cr payload
  let p := { p with
    replay := p.replay ++ [(p.txSeq, f)], txSeq := (p.txSeq + 1) % 4096,
    ackAt := if p.replay.isEmpty then s.now else p.ackAt }
  (s.setPort n p).send (.flit n f)

/-- The whole 240-byte payloads at the front of a payload stream (R483). -/
def flitPieces (b : Bytes) : List Bytes := (List.range (b.length / 240)).map fun i => slice b (240 * i) 240

/-- Put bytes on a port's payload stream, at a 16-byte boundary, and send the flits that they fill (R483). -/
def State.packBytes (s : State) (n : Nat) (b : Bytes) : State :=
  let all := (s.port n).packing ++ b ++ List.replicate (16 * divUp b.length 16 - b.length) 0
  ((flitPieces all).foldl (fun s f => s.sendData n f) s).modPort n fun p => { p with packing := all.drop (240 * (all.length / 240)) }

/-- Send the flit that a port's payload stream has begun, its end filled with zeros (R483, log 15). -/
def State.flushFlit (s : State) (n : Nat) : State :=
  let p := s.port n
  if p.packing.isEmpty || !p.usable then s else (s.sendData n (slice p.packing 0 240)).modPort n fun p => { p with packing := [] }

/-- The port may send a packet: it is usable, its selected transmit slot is valid and below 2^48 packets, and the module has
a number (R486 to R488). -/
def State.maySend (s : State) (n : Nat) : Bool :=
  let p := s.port n
  p.usable && decide (s.fabric.number ≠ 0xFFFF) &&
    (match Tab.find? p.tx p.txSel with
      | some k => decide (k.counter < 2 ^ 48)
      | none => false)

/-- Count a packet on the selected transmit slot; at 2^47 packets REKEY_DUE is set and the physical function interrupted
(R484, R487). -/
def State.countPacket (s : State) (n : Nat) : State :=
  let p := s.port n
  match Tab.find? p.tx p.txSel with
  | none => s
  | some k =>
    let s := s.setPort n { p with tx := Tab.set p.tx p.txSel { k with counter := k.counter + 1 } }
    if k.counter + 1 = pktUp then (s.modPort n fun p => { p with rekeyDue := true }).moduleEvent else s

/-- Encrypt a packet under the selected slot and put it on the wire, or loop it back when it names the module itself (R484,
R488). Its bytes of payload stream are the link bytes that are counted and charged (R64, R65, R488). -/
def State.emitPacket (s : State) (n : Nat) (pk : Packet) : State :=
  let p := s.port n
  match Tab.find? p.tx p.txSel with
  | none => s
  | some k =>
    let h := pk.hdr
    let hb := h.bytes p.txSel k.counter
    let s := (s.countPacket n).activity (.port n) .link (16 * pktCredits pk.payload.length) (payerOf pk.pay)
    if h.dst = s.fabric.number then
      let v := (vcOf h.ty).getD 3
      s.modPort n fun p => { p with rxq := Tab.set p.rxq v (Tab.look [] p.rxq v ++ [{ header := hb, payload := pk.payload, loop := true }]) }
    else
      let sealed := Crypto.gcmSeal (slice k.key 0 32) (linkIv k.key k.counter) hb pk.payload
      let wire := hb ++ slice sealed 0 (pk.payload.length + 16)
      s.packBytes n wire

/-- Whether a packet may leave now: credits cover it and the replay buffer has room (R476, R477). -/
def Port.canTake (p : Port) (v : Nat) (pk : Packet) (loop : Bool) : Bool :=
  loop || (decide (pktCredits pk.payload.length ≤ Tab.look 0 p.credits v) &&
    decide (p.replay.length + divUp (p.packing.length + 16 * pktCredits pk.payload.length) 240 ≤ 1024))

/-- Send one waiting packet of VC v if it may leave. -/
def State.pumpVc (s : State) (n v : Nat) : Option State :=
  let p := s.port n
  match Tab.look [] p.txq v with
  | [] => none
  | pk :: rest =>
    let loop := decide (pk.hdr.dst = s.fabric.number)
    if s.maySend n && p.canTake v pk loop then
      let p := { p with
        txq := Tab.put [] p.txq v rest
        credits := if loop then p.credits
          else Tab.put 0 p.credits v (Tab.look 0 p.credits v - pktCredits pk.payload.length) }
      some ((s.setPort n p).emitPacket n pk)
    else none

/-- Send waiting packets until none may leave, VC 1 and VC 3 before VC 0 and VC 2 (R476). -/
def State.pump : Nat → State → Nat → State
  | 0, s, _ => s
  | fuel + 1, s, n =>
    match [1, 3, 0, 2].findSome? (fun v => s.pumpVc n v) with
    | some s' => State.pump fuel s' n
    | none => s

/-- Packets waiting at a port. -/
def Port.waiting (p : Port) : Nat := ((List.range 4).map fun v => (Tab.look [] p.txq v).length).sum

def State.pumpPort (s : State) (n : Nat) : State := State.pump (s.port n).waiting s n

/-- Hand a packet to a port (R476). -/
def State.sendPacket (s : State) (n : Nat) (h : Header) (payload : Bytes) (pay : Option (Nat × Nat × Nat) := none) : State :=
  let v := (vcOf h.ty).getD 3
  let pk : Packet := { header := h.bytes 0 0, payload, pay }
  (s.modPort n fun p => { p with txq := Tab.set p.txq v (Tab.look [] p.txq v ++ [pk]) }).pumpPort n

/-- Resend every unacknowledged flit in SEQ order, as it is stored (R478, R484). -/
def State.replayPort (s : State) (n : Nat) : State :=
  let p := s.port n
  let s := p.replay.foldl (fun s f => s.send (.flit n f.2)) s
  s.setPort n { p with
    retransmissions := p.retransmissions + BitVec.ofNat 32 p.replay.length, replays := p.replays + 1, ackAt := s.now }

/-! ### Outbound requests -/

/-- Retrain a port (R472): it starts training when its domain is ON. -/
def State.startTraining (s : State) (n : Nat) : State :=
  s.modPort n fun p => { p with state := 1, width := 0 }

/-- The numbers of the requests a port has sent and that have no response (R480); one that waits to be resent has had one
(R492). -/
def State.portReqs (s : State) (n : Nat) : List Nat :=
  s.reqs.filterMap fun r =>
    match r.target with
    | .remote _ _ p _ => if p == n && r.result == .pending && !r.resend then some r.id else none
    | _ => none

/-- The state of a port that carries no flits: its buffers are discarded; keys and counters are kept (R480). -/
def Port.emptied (p : Port) (st : Nat) : Port :=
  { p with
    state := st, width := 0, packing := [], replay := [], replays := 0, stream := [], rxq := [], txq := [], credits := [], owed := [],
    txSeq := 0, rxSeq := 0, nakSent := false }

/-- The requests of a port that carries no flits any more (R480): those sent through it end as LINK_DOWN, and those received
through it are completed without an answer. Nothing waits for one whose data nobody wants. -/
def State.loseRequests (s : State) (n : Nat) : State :=
  let ids := s.portReqs n
  let ends := fun (r : Req) => ids.contains r.id
  let reqs := (s.reqs.filter fun r => !(ends r && r.owner == .none)).map fun r =>
    let r := if ends r then { r with result := .linkDown } else r
    match r.owner with
    | .inbound p t src w o => if p = n then { r with owner := .inbound 48 t src w o } else r
    | _ => r
  { s with
    reqs := reqs
    xlat := { s.xlat with invs := s.xlat.invs.map fun v => { v with waits := v.waits.filter fun i => !ids.contains i } } }

/-- Entry to DOWN (R473, R480): counted, logged, reported to the physical function; buffers are discarded and the requests
sent through the port end as LINK_DOWN. -/
def State.portDown (s : State) (n : Nat) : State :=
  let s := (s.loseRequests n).modPort n fun p => { p.emptied 4 with downs := p.downs + 1 }
  (s.event 0x0030 n).moduleEvent

/-- A port whose domain goes OFF (R472, R486): no flits, keys zeroized. -/
def State.portOff (s : State) (n : Nat) : State :=
  (s.loseRequests n).modPort n fun p => { p.emptied 0 with tx := [], rx := [], rekeyDue := false }

end Sys2Proof.Machine
end

