-- ==== Sys2Proof/Machine/XlatOps.lean ====
section
/-! DEFINITION. Address translation: context entries, walks, caches, frame selection, and the fault ring (R347 to R373, R381,
R401 to R403, R434 to R436, R679). -/

namespace Sys2Proof.Machine

/-! ### Fault reasons (R362) -/

def rNotPresent : Nat := 1
def rRead : Nat := 2
def rWrite : Nat := 3
def rNoContext : Nat := 4
def rFunction : Nat := 5
def rMalformed : Nat := 6
def rUnreadable : Nat := 7
def rNotLashed : Nat := 8

/-! ### Who a cluster belongs to (R244, R245) -/

/-- The bight whose member a cluster is, if any. -/
def State.bightOfCluster (s : State) (c : Nat) : Option Nat :=
  (List.find? (fun e : Nat × Bight => e.2.state != .free && e.2.state != .lashing && e.2.place.memberClusters.contains c) s.bights.tab).map (·.1)

/-- The placements whose clusters a bight keeps: the one it has, and, while a relash runs, its target and, from the switchover to the
end, what it leaves (R37, R65, R268, R273). -/
def Bight.places (x : Bight) : List Place :=
  if x.state = .free then [] else x.place :: (match x.relash with | some r => r.target :: r.left.toList | none => [])

/-- The bight that is charged for a cluster while it is ON (R61, R65): the one whose member it is, or whose relash prepares it; a
bight that is being released is charged no longer. -/
def State.payingBight (s : State) (c : Nat) : Option Nat :=
  (List.find? (fun e : Nat × Bight => e.2.state != .lashing && e.2.state != .releasing &&
    e.2.places.any fun p => p.memberClusters.contains c) s.bights.tab).map (·.1)

/-- Who pays for what a cluster does by itself (R65). -/
def State.payerOfCluster (s : State) (c : Nat) : Payer :=
  if s.clusterOn c then (match s.payingBight c with | some b => .bight b | none => .base) else .base

/-! ### Objects (R401 to R403, R434) -/

def State.objBase (s : State) : Nat := s.xlat.objectTable.toNat / 65536 % 2 ^ 32 * 65536
def State.objOn (s : State) : Bool := s.xlat.objectTable.getLsbD 0

/-- An object-table entry. -/
structure ObjEntry where
  valid : Bool
  scratch : Bool
  fn : Nat
  asid : Nat
  csel : Bool
  isOpen : Bool
  queue : Nat
  seq : Nat
  /-- a reserved field is not zero: the entry is malformed (R15) -/
  malformed : Bool
deriving DecidableEq, Repr

def objOfBytes (b : Bytes) : ObjEntry :=
  let st := leAt b 8 8
  { valid := (leAt b 0 1).testBit 0, scratch := (leAt b 0 1).testBit 1, fn := leAt b 1 1 % 64, asid := leAt b 2 2 % 4096,
    csel := st.testBit 63, isOpen := st.testBit 62, queue := fieldN st 36 12, seq := fieldN st 0 36,
    malformed := leAt b 0 1 / 4 != 0 || leAt b 1 1 / 64 != 0 || leAt b 2 2 / 4096 != 0 || leAt b 4 4 != 0 || fieldN st 48 14 != 0 }

/-- The STATE word of an entry (R401). -/
def objState (csel isOpen : Bool) (q seq : Nat) : Word :=
  BitVec.ofNat 64 ((if csel then 2 ^ 63 else 0) + (if isOpen then 2 ^ 62 else 0) + q % 4096 * 2 ^ 36 + seq % 2 ^ 36)

/-- The entry as it stands, without the read's effects. -/
def State.object (s : State) (n : Nat) : ObjEntry :=
  objOfBytes (if s.objOn then (s.peek (s.objBase + 16 * n) 16).getD [] else [])

/-- Write the STATE word of an object (R403). -/
def State.setObject (s : State) (n : Nat) (w : Word) : State :=
  s.ownWrite (s.objBase + 16 * n + 8) (wordBytes w)

/-- The commands of a queue's open commit group: those with GROUP set since the last COMMIT-GROUP (R449). -/
def groupOf (cmds : List Cmd) : List Nat :=
  cmds.foldl (fun acc c =>
    match c.payload with
    | .commitGroup _ => if c.phase == .waiting then acc else []
    | _ => if c.flags.getLsbD 1 then acc ++ [c.seq] else acc) []

/-- Two commands of one queue belong to one commit group (R434, R449). -/
def State.sameGroup (s : State) (q seq1 seq2 : Nat) : Bool :=
  match s.queue? q with
  | none => false
  | some x =>
    let between := x.cmds.any fun c =>
      decide (min seq1 seq2 ≤ c.seq) && decide (c.seq ≤ max seq1 seq2) &&
        (match c.payload with | .commitGroup _ => true | _ => false)
    let grp := fun n => match x.cmd? n with | some c => c.flags.getLsbD 1 | none => false
    grp seq1 && grp seq2 && !between

/-- The command holds the object (R434). -/
def State.holdsObj (s : State) (o : ObjEntry) (q seq : Nat) : Bool :=
  o.isOpen && o.queue == q && (o.seq == seq || s.sameGroup q o.seq seq)

/-- The command still has to commit or end (R405, R427). -/
def Cmd.live? (c : Cmd) : Bool := !(c.phase == .ended || c.phase == .committed)

def Cmd.isRecv (c : Cmd) : Bool := match c.payload with | .recv .. => true | _ => false

/-- The launched RECV that holds an object, by itself or through its commit group: its bight, queue and sequence number (R434, R435,
R493). -/
def State.recvHolding (s : State) (o : ObjEntry) : Option (Nat × Nat × Nat) :=
  (s.queue? o.queue).bind fun q =>
    (q.cmds.find? fun c => c.isRecv && c.launched && c.live? && s.holdsObj o o.queue c.seq).map fun c => (q.bight, o.queue, c.seq)

/-! ### Walks (R348 to R352, R358 to R361) -/

/-- What a walk yields. -/
inductive WalkRes where
  | leaf (level : Nat) (leaf : BitVec 128) (fn : Nat) (accEn : Bool) (addr : Nat)
  | fault (reason : Nat)
  /-- a table read waits at its gate (R318, R357) -/
  | held
deriving DecidableEq, Repr

def pageBits (level : Nat) : Nat := [16, 21, 30, 39].getD level 39
def indexBits (level : Nat) : Nat := [5, 9, 9, 13].getD level 13
/-- The size of the table of a level in bytes (R350). -/
def tableSize (level : Nat) : Nat := 16 * 2 ^ indexBits level

def leafBit (e : BitVec 128) : Bool := e.getLsbD 1
def leafV (e : BitVec 128) : Bool := e.getLsbD 0
def leafF (e : BitVec 128) (lo w : Nat) : Nat := fieldN e.toNat lo w
def leafTgt (e : BitVec 128) : Nat := leafF e 14 2
def leafShadow (e : BitVec 128) : Bool := e.getLsbD 4
def leafEnc (e : BitVec 128) : Bool := e.getLsbD 35

/-- A non-zero reserved field, in an entry of any V (R351, R352, R353). -/
def entryReserved (e : BitVec 128) : Bool :=
  if leafBit e then leafF e 16 17 != 0 || leafF e 5 9 != 0 ||
    (leafTgt e == 1 && (leafF e 75 4 != 0 || (leafShadow e && leafF e 107 4 != 0)))
  else leafF e 103 25 != 0 || leafF e 2 62 != 0

/-- A frame of a leaf at a level is malformed (R352, R596). -/
def frameBad (e : BitVec 128) (level frame : Nat) : Bool :=
  let size := 2 ^ pageBits level
  let addr := frame * 65536
  frame % (size / 65536) != 0 ||
    (match leafTgt e with
      | 0 =>
        let inHbm := decide (addr + size ≤ hbmLimit)
        let inSram := decide (sramBase ≤ addr) && decide (addr + size ≤ sramBase + 512 * sramStride)
        !(inHbm || inSram) || (leafEnc e && !inHbm)
      | 1 => level == 2 || fieldN frame 11 4 != 0 || decide (sramUsed < fieldN frame 0 11 * 65536 + size) || leafEnc e
      | _ => leafEnc e)

/-- A present leaf is malformed (R352); `objOn` says whether the object table is in use. -/
def leafBad (e : BitVec 128) (level : Nat) (objOn : Bool) : Bool :=
  level == 3 || frameBad e level (leafF e 64 32) ||
    (if leafShadow e then leafTgt e == 3 || !objOn || frameBad e level (leafF e 96 32) else leafF e 96 32 != 0)

/-- Who an access is for, as translation sees it. -/
structure Who where
  asid : Nat
  /-- function to be checked against the context (streams and far accesses); none for window and aperture requests -/
  fn : Option Nat
  bight : Option Nat
  /-- command, when a command makes the access -/
  cmd : Option (Nat × Nat)
  direct : Bool := false
  requester : Requester
  /-- cache of its own and die -/
  cache : Nat
  die : Nat
  /-- master at the port gates, class and deadline of its accesses (R334, R336) -/
  master : Nat := 306
  cls : Nat := 3
  deadline : BitVec 24 := 0
  payer : Payer := .base
  /-- virtual page that the access translates -/
  page : Nat := 0
  /-- the module looks without an access of its own: nothing is counted and nothing waits -/
  peek : Bool := false
  /-- an inbound window request; a host aperture access -/
  inbound : Bool := false
  aperture : Bool := false
deriving DecidableEq, Repr

/-- The half-die that holds a requester, whose walker gate its table reads leave by (R356): for a host access, that of its PCIe port
(log 186). -/
def Who.half (w : Who) : Nat :=
  if w.aperture then halfOfPcie (if w.die = halfOfPcie 0 / 2 then 0 else 1)
  else
    match w.requester with
    | .stream c _ => halfOfCluster c
    | .core k => halfOfCluster (clusterOf k)
    | .window p _ => halfOfPort p

/-- The walker circuit from a half-die to a channel group (R356). -/
def State.walkerTo (s : State) (h g : Nat) : Option CircRef :=
  (s.mesh.circuits.find? fun c => c.kind == 4 && c.src == walkerGate h && c.target == g).map (·.ref false)

/-- A table read: a request of 64 bytes of the master on whose behalf the walk runs, at the class of the access (R357). -/
def Who.tableReq (w : Who) (a : Nat) : Req :=
  ({ id := 0, owner := .none, target := .hbm a, write := false, len := 64, master := w.master, cls := w.cls, deadline := w.deadline,
     asid := w.asid, page := w.page, asAgent := some agentTable, stepBy := some w.requester } : Req).paidBy w.payer

/-- Read the entry at an address of a table over the walker circuit (R356, R357): an uncorrectable word or a bus error makes the
table unreadable; the walk waits for the read, also where its stack is in LOW, which it wakes (R318), and where its circuit is not
laid (log 182). -/
def State.readEntry (s : State) (w : Who) (a : Nat) : Got Bytes × State :=
  if w.peek then
    match s.peek a 16 with
    | some b => (.ok b, s)
    | none => (.bad, s)
  else
    let a0 := a / 64 * 64
    let x := match regionOf a with | .hbm g => s.walkerTo w.half g | _ => none
    if x.isNone && (s.accessError a0 64).isNone then (.held, s.keepSteps)
    else
      match s.stepAccess (w.tableReq a0) a0 x with
      | (some (.data d), s) => (.ok (slice d (a - a0) 16), s)
      | (some _, s) => (.bad, s)
      | (none, s) => (.held, s)

/-- One table read (R357). -/
def State.readTable (s : State) (w : Who) (a : Nat) : Got (BitVec 128) × State :=
  match s.readEntry w a with
  | (.ok b, s) => (.ok (BitVec.ofNat 128 (leNat b)), s)
  | (.bad, s) => (.bad, s)
  | (.held, s) => (.held, s)

/-- Read an object-table entry as a table read of an access (R318, R679, log 186): with the table not in use every object reads as
V = 0; a read may meet an uncorrectable word or a bus error, or be held. -/
def State.readObject (s : State) (w : Who) (n : Nat) : Got ObjEntry × State :=
  if !s.objOn then (.ok (objOfBytes []), s)
  else
    match s.readEntry w (s.objBase + 16 * n) with
    | (.ok b, s) => (.ok (objOfBytes b), s)
    | (.bad, s) => (.bad, s)
    | (.held, s) => (.held, s)

/-- A free choice between two possibilities that differ (R374). -/
def State.either {α : Type} [DecidableEq α] (s : State) (a b : α) : α × State :=
  if a = b then (a, s) else let (n, s) := s.freeNat; (if n % 2 = 0 then a else b, s)

/-- A non-leaf entry through the walk cache (R358): a cached entry that memory no longer holds may or may not be used (R374); one
whose table cannot be read now, or has gone without a change by host software, is used. -/
def State.walkEntry (s : State) (w : Who) (level va a : Nat) : Got (BitVec 128) × State :=
  let prefixBits := va / 2 ^ pageBits level
  let cached := s.xlat.walkCache.find? fun e =>
    e.die == w.die && e.asid == w.asid && e.level == level && e.prefixBits == prefixBits
  match cached with
  | none => s.readTable w a
  | some e =>
    match if e.pinned then .bad else (s.readTable { w with peek := true } a).1 with
    | .ok fresh =>
      let (x, s') := s.either e.entry fresh
      if x = e.entry then (.ok x, s') else s'.readTable w a
    | _ => (.ok e.entry, s)

/-- Keep a non-leaf entry in the die's walk cache of 1,024 entries, least recently used out (R358, R359). -/
def State.cacheNonLeaf (s : State) (die asid level va addr : Nat) (e : BitVec 128) : State :=
  let pinned := s.xlat.walkCache.any fun w => w.addr == addr && w.entry == e && w.asid == asid && w.die == die && w.pinned
  let prefixBits := va / 2 ^ pageBits level
  let other := s.xlat.walkCache.filter fun w =>
    !(w.die == die && w.asid == asid && w.level == level && w.prefixBits == prefixBits)
  let mine := { die, asid, level, prefixBits, entry := e, addr, pinned } :: other.filter (·.die == die)
  { s with xlat := { s.xlat with walkCache := mine.take 1024 ++ other.filter (·.die != die) } }

/-- The walk from a level down: `n` levels remain below (R350). -/
def State.walkFrom (w : Who) (va fn : Nat) (accEn : Bool) : Nat → State → Nat → WalkRes × State
  | level, s, base =>
    let a := base + 16 * (va / 2 ^ pageBits level % 2 ^ indexBits level)
    match s.walkEntry w level va a with
    | (.bad, s) => (.fault rUnreadable, s)
    | (.held, s) => (.held, s)
    | (.ok e, s) =>
      if entryReserved e then (.fault rMalformed, s)
      else if !leafV e then (.fault rNotPresent, s)
      else if leafBit e then
        if leafBad e level s.objOn then (.fault rMalformed, s) else (.leaf level e fn accEn a, s)
      else
        match level with
        | 0 => (.fault rMalformed, s)
        | l + 1 =>
          let next := leafF e 64 39 * 512
          if next % tableSize l ≠ 0 ∨ hbmLimit < next + tableSize l then (.fault rMalformed, s)
          else State.walkFrom w va fn accEn l (s.cacheNonLeaf w.die w.asid (l + 1) va a e) next

/-- The reads of a walk (R349, R350): the context entry, then the tables. -/
def State.walkReads (s : State) (w : Who) (va : Nat) : WalkRes × State :=
  if !s.ctxOn then (.fault rNoContext, s)
  else
    match s.readTable w (s.ctxBase + 16 * w.asid) with
    | (.bad, s) => (.fault rUnreadable, s)
    | (.held, s) => (.held, s)
    | (.ok e, s) =>
      let fn := fieldN e.toNat 64 6
      if !e.getLsbD 72 then (.fault rNoContext, s)
      else if w.fn.any (· != fn) then (.fault rFunction, s)
      else if contextBad e then (.fault rMalformed, s)
      else State.walkFrom w va fn (e.getLsbD 73) 3 s (fieldN e.toNat 0 48)

/-- The walk that a requester waits for on a page. -/
def Walking.is (x : Walking) (w : Who) (va : Nat) : Bool := x.requester == w.requester && x.asid == w.asid && x.page == va / 65536

/-- A walk (R349, R350, R388): one that waits for a table read goes on when its access is tried again, and is counted once. -/
def State.walk (s : State) (w : Who) (va : Nat) : WalkRes × State :=
  if w.peek then s.walkReads w va
  else
    let w := { w with page := va / 65536 }
    let waits := s.xlat.walking.any fun x => x.is w va
    let s := if waits then s else { s with xlat := { s.xlat with walks := s.xlat.walks + 1 } }
    match s.walkReads w va with
    | (.held, s) =>
      (.held, if waits then s else { s with xlat := { s.xlat with
        walking := s.xlat.walking ++ [{ requester := w.requester, asid := w.asid, page := va / 65536, cmd := w.cmd }] } })
    | (r, s) =>
      (r, ({ s with xlat := { s.xlat with walking := s.xlat.walking.filter fun x => !x.is w va } }).walkDone w.requester)

/-- The die cache's number (R358). -/
def dieCache (d : Nat) : Nat := 4656 + d
def streamCache (c st : Nat) : Nat := 8 * c + st
def farCache (c : Nat) : Nat := 4096 + c
def portCache (p : Nat) : Nat := 4608 + p
/-- Entries of a cache (R358). -/
def cacheSize (n : Nat) : Nat := if n < 4656 then 128 else 16384

/-- The cached leaf for an access, in one cache. -/
def State.cached (s : State) (cache asid va : Nat) : Option CacheEntry :=
  s.xlat.cache.find? fun e => e.cache == cache && e.asid == asid && e.page == va / 2 ^ pageBits e.level

/-- Keep a leaf in a cache, least recently used out (R358, R359). -/
def State.cacheLeaf (s : State) (x : CacheEntry) : State :=
  let other := s.xlat.cache.filter fun e =>
    !(e.cache == x.cache && e.asid == x.asid && e.level == x.level && e.page == x.page)
  let mine := x :: other.filter (·.cache == x.cache)
  { s with xlat := { s.xlat with cache := mine.take (cacheSize x.cache) ++ other.filter (·.cache != x.cache) } }

def State.uncache (s : State) (cache asid va : Nat) : State :=
  { s with xlat := { s.xlat with cache := s.xlat.cache.filter fun e =>
    !(e.cache == cache && e.asid == asid && e.page == va / 2 ^ pageBits e.level) } }

/-- The access is permitted by a leaf (R362). -/
def permitted (leaf : BitVec 128) (write : Bool) : Bool := if write then leaf.getLsbD 3 else leaf.getLsbD 2

/-- How the module looks at the tables of a context without an access of its own. -/
def whoLooks (asid : Nat) : Who :=
  { asid, fn := none, bight := none, cmd := none, requester := .window 0 0, cache := 0, die := 0, peek := true }

/-- A cached leaf whose walk gives another entry now. -/
def State.leafLost (s : State) (e : CacheEntry) : Bool :=
  match (s.walk (whoLooks e.asid) (e.page * 2 ^ pageBits e.level)).1 with
  | .leaf level leaf _ _ _ => level != e.level || leaf != e.leaf
  | _ => true

/-- The tables of cached entries have gone without a change by host software, with the contents of a stack or with the table's
address: what the tables no longer give is used while it is cached (R34, R358, log 186). -/
def State.pinCaches (s : State) : State :=
  { s with xlat := { s.xlat with
      cache := s.xlat.cache.map fun e => if s.leafLost e then { e with pinned := true } else e
      walkCache := s.xlat.walkCache.map fun e =>
        if (s.peek e.addr 16).map (fun b => BitVec.ofNat 128 (leNat b)) = some e.entry then e else { e with pinned := true } } }

/-- The cached leaf that an access finds: in its own cache, then in the die cache (R358). -/
def State.hit (s : State) (w : Who) (va : Nat) : Option CacheEntry :=
  match s.cached w.cache w.asid va with
  | some e => some e
  | none => s.cached (dieCache w.die) w.asid va

/-- The access is neither denied by a cached leaf nor of another function than the leaf's. -/
def CacheEntry.usable (e : CacheEntry) (w : Who) (write : Bool) : Bool := permitted e.leaf write && !(w.fn.any (· != e.function))

/-- Discard the cached leaves of an access (R361). -/
def State.forget (s : State) (w : Who) (va : Nat) : State := (s.uncache w.cache w.asid va).uncache (dieCache w.die) w.asid va

/-- Keep the leaf of an access that has not faulted in its own cache, and in the die cache when it was walked for (R358, R359). -/
def State.keepLeaf (s : State) (w : Who) (x : Option (Bool × CacheEntry)) : State :=
  match x with
  | none => s
  | some (walked, e) => (if walked then s.cacheLeaf { e with cache := dieCache w.die } else s).cacheLeaf { e with cache := w.cache }

/-- The leaf of an access: its own cache, the die cache, then a walk (R358), with what is to be cached of it unless the access faults
(R359). A cached leaf that the tables no longer give may or may not be used (R374), but it is used while the tables cannot be read,
when the context table is not in use, and when the tables have gone without a change by host software (log 186); one that would fault
is discarded and walked again (R361). -/
def State.findLeaf (s : State) (w : Who) (va : Nat) (write : Bool) :
    (WalkRes × Option (Bool × CacheEntry)) × State :=
  let walkIn := fun (s : State) =>
    match s.walk w va with
    | (.leaf level leaf fn accEn a, s) =>
      ((WalkRes.leaf level leaf fn accEn a,
        some (true, ({ cache := w.cache, asid := w.asid, level, page := va / 2 ^ pageBits level, leaf, function := fn, accEn } : CacheEntry))), s)
    | (r, s) => ((r, none), s)
  match s.hit w va with
  | none => walkIn s
  | some e =>
    let fresh := (s.walk { w with peek := true } va).1
    let addr := match fresh with | .leaf _ _ _ _ a => a | _ => 0
    let old := WalkRes.leaf e.level e.leaf e.function e.accEn addr
    if e.usable w write then
      let (r, s') := s.either old (if fresh = .fault rUnreadable ∨ s.ctxOn = false ∨ e.pinned = true then old else fresh)
      if r = old then ((old, some (false, e)), s') else walkIn s'
    else walkIn (s.forget w va)

/-! ### The fault ring (R365 to R370) -/

/-- Entries of a function's ring; none when the ring is disabled (R367). -/
def Fn.ringSize (f : Fn) : Option Nat :=
  let n := f.ringBase.toNat % 16
  if f.ringBase.getLsbD 4 && decide (n ≤ 8) then some (256 * 2 ^ n) else none

/-- Free entries of the ring, modulo 2^32: it is full only when PROD − CONS equals its size (R368); zero when it is disabled. -/
def Fn.ringFree (f : Fn) : Nat :=
  match f.ringSize with
  | none => 0
  | some n => (BitVec.ofNat 32 n - (f.ringProd - f.ringCons)).toNat

/-- Close the open batch (R369): the producer value is written, then the translation interrupt is raised. -/
def State.closeBatch (s : State) (n : Nat) : State :=
  let f := s.fn n
  match f.batch with
  | none => s
  | some _ =>
    let s := s.setFn n { f with batch := none }
    let pa := f.ringPaddr.toNat / 8 * 8
    let s := if pa = 0 then s else s.hostWrite n pa (leBytes 8 f.ringProd.toNat)
    s.cause n 1

/-- Write one entry to a function's ring, which has space: the batch opens, or closes at its 256th entry or at a full ring
(R368, R369). -/
def State.ringWrite (s : State) (n : Nat) (entry : Bytes) : State :=
  let f := s.fn n
  let size := f.ringSize.getD 256
  let base := f.ringBase.toNat / 4096 * 4096
  let s := s.hostWrite n (base + 32 * (f.ringProd.toNat % size)) entry
  let count := (f.batch.map (·.1)).getD 0 + 1
  let at0 := (f.batch.map (·.2)).getD s.now
  let f := { f with ringProd := f.ringProd + 1, batch := some (count, at0) }
  let s := s.setFn n f
  if 256 ≤ count ∨ f.ringFree = 0 then s.closeBatch n else s

/-- KIND and SOURCE of a requester (R365). -/
def Requester.kind : Requester → Nat
  | .stream _ _ => 1
  | .core _ => 2
  | .window _ _ => 3
def Requester.source : Requester → Nat
  | .stream c st => c * 8 + st
  | .core k => k
  | .window p w => p * 256 + w

/-- The 32-byte fault-ring entry (R365, R608). -/
def State.faultEntry (s : State) (f : PendFault) (tag : BitVec 32) (delayed : Bool) : Bytes :=
  let fine := match f.bight with | some b => (s.bight b).fineCounters | none => false
  let st := s.stampSeen (f.fn == 0 || fine) f.stamp
  let flags := (if f.write then 1 else 0) + (if delayed then 2 else 0) + (if f.bight.isSome then 4 else 0)
  leBytes 8 (f.va % 2 ^ 52) ++ leBytes 4 tag.toNat ++ leBytes 2 f.asid ++ leBytes 1 f.requester.kind ++
    leBytes 1 f.reason ++ leBytes 2 f.requester.source ++ leBytes 1 (f.bight.getD 0) ++ leBytes 1 flags ++
    leBytes 4 st.toNat ++ leBytes 8 (f.queue * 2 ^ 36 + f.seq)

/-- Take the next resolution tag of a function: they count up from 1 and skip 0 (R366). -/
def State.takeTag (s : State) (n : Nat) : BitVec 32 × State :=
  let f := s.fn n
  let next := f.nextTag + 1
  (f.nextTag, s.setFn n { f with nextTag := if next = 0 then 1 else next })

/-- Faults of a function that wait for ring space. -/
def State.heldFaults (s : State) (n : Nat) : List PendFault := s.xlat.faults.filter fun f => f.fn == n && f.tag.isNone

/-- Two requesters are one (R364): an inbound window is one at whichever port its requests come. -/
def Requester.same (a b : Requester) : Bool :=
  match a, b with
  | .window _ v, .window _ w => v == w
  | _, _ => a == b

/-- A fault of the same requester and page joins a pending one, whose window then waits at a further port. -/
def PendFault.join (g f : PendFault) : PendFault :=
  match g.requester, f.requester with
  | .window p _, .window q _ => { g with ports := if p = q ∨ g.ports.contains q = true then g.ports else g.ports ++ [q] }
  | _, _ => g

/-- A fault arises (R364, R365, R370): it joins a pending fault of the same requester and page, or is written to the ring of
its function, or is held for ring space. -/
def State.addFault (s : State) (f : PendFault) : State :=
  let mine := fun (g : PendFault) => g.requester.same f.requester && g.page == f.page && g.asid == f.asid
  if s.xlat.faults.any mine then
    { s with xlat := { s.xlat with faults := s.xlat.faults.map fun g => if mine g then g.join f else g } }
  else if (s.fn f.fn).ringFree = 0 ∨ !(s.heldFaults f.fn).isEmpty then
    let s := { s with xlat := { s.xlat with faults := s.xlat.faults ++ [{ f with tag := none }] } }
    let x := s.fn f.fn
    if x.ringOverflowed ∨ 0 < x.ringFree then s
    else
      let s := s.setFn f.fn { x with ringOverflowed := true, ringOverflow := satInc32 x.ringOverflow }
      ({ s with xlat := { s.xlat with overflows := s.xlat.overflows + 1 } }).cause f.fn 1
  else
    let (tag, s) := s.takeTag f.fn
    let s := { s with xlat := { s.xlat with
      faults := s.xlat.faults ++ [{ f with tag := some tag }], entriesWritten := s.xlat.entriesWritten + 1 } }
    s.ringWrite f.fn (s.faultEntry f tag false)

/-- The fault of an access (R365): the function is that of R349. -/
def State.faultFor (s : State) (w : Who) (va : Nat) (write : Bool) (reason : Nat) : State :=
  let fn := match w.fn with | some n => n | none => (s.contextFn w.asid).getD 0
  let (q, seq) := if w.inbound then (0, 0) else w.cmd.getD (0, 0)
  let bight := if w.cmd.isSome then w.bight else none
  s.addFault {
    fn := fn, tag := none, requester := w.requester, page := va / 65536, asid := w.asid, va := va, reason := reason,
    write := write, bight := bight, queue := q, seq := seq, stamp := s.stamp }

/-! ### Access counters (R381, R382) -/

/-- The KIND 4 entry (R365, R382). -/
def State.notify (s : State) (fn die asid region : Nat) : State :=
  let f := s.fn fn
  if f.ringFree < 64 then s.setFn fn { f with notifyDrop := f.notifyDrop + 1 }
  else
    let entry := leBytes 8 (region * 2 ^ 21) ++ leBytes 4 0 ++ leBytes 2 asid ++ leBytes 1 4 ++ leBytes 1 0x10 ++
      leBytes 2 die ++ leBytes 1 0 ++ leBytes 1 0 ++ leBytes 4 (s.stampSeen (fn == 0) s.stamp).toNat ++ leBytes 8 0
    ({ s with xlat := { s.xlat with entriesWritten := s.xlat.entriesWritten + 1 } }).ringWrite fn entry

/-- Count an access (R381): the counter of its region on the die grows by the access's 64-byte units; the least recently
incremented counter is rebound when none is free. -/
def State.countAccess (s : State) (die asid va n : Nat) : State :=
  let region := va / 2 ^ 21
  let list := Tab.look [] s.xlat.counters die
  let mine := fun (c : Counter) => c.asid == asid && c.region == region
  let old := ((list.find? mine).map (·.count)).getD 0
  let rest := list.filter fun c => !mine c
  let x : Counter := { asid, region, count := old + divUp n 64 }
  { s with xlat := { s.xlat with counters := Tab.put [] s.xlat.counters die ((x :: rest).take 1024) } }

/-! ### Frame selection and the address reached (R353 to R355, R435, R436) -/

/-- Where a translated access goes. -/
inductive Dest where
  | phys (addr : Nat) (key : Option (Nat × Bool)) (fn : Nat)
  | host (fn port addr : Nat)
  | remote (win offset : Nat)
deriving DecidableEq, Repr

/-- What translating an access yields. -/
inductive Xres where
  | ok (d : Dest)
  | fault (reason : Nat)
  /-- the command is killed with a break code (R436) -/
  | kill (code : Nat)
  /-- refused to the sender (R435) -/
  | refused
  /-- it waits: a write for its frame to be moved (R601), or a table read at its gate (R318, R357) -/
  | hold
deriving DecidableEq, Repr

/-- Which frame of a SHADOW leaf an access uses (R435): 0, 1, or none with the reason. -/
def State.shadowFrame (s : State) (w : Who) (o : ObjEntry) (write : Bool) : Sum Xres Bool :=
  let committed := o.csel
  let holds := match w.cmd with | some (q, n) => s.holdsObj o q n | none => false
  if w.aperture then .inr committed
  else if w.inbound then
    if !write then .inr committed
    else if (s.recvHolding o).isSome then .inr (!committed)
    else .inl .refused
  else if holds then .inr (!committed)
  else if write then .inl (.kill codeUndeclared)
  else .inr committed

/-- Whether an access through a leaf with SHADOW 0 is allowed whatever its object (R436): a read, a write of a command with
DIRECT_WRITE, one that comes from outside, or one to remote memory. -/
def objectFree (w : Who) (leaf : BitVec 128) (write : Bool) : Bool := !write || w.direct || w.inbound || w.aperture || leafTgt leaf == 3

/-- The circuit over which a bight reaches a channel group (kind 0), a link port (1) or a PCIe port (2): one whose D port lies in
the cluster `near` before any other (R248; which of several is DESIGN CHOICE, log 189). -/
def State.circuitTo (s : State) (b kind target : Nat) (near : Option Nat) : Option CircRef :=
  let l := s.mesh.circuits.filter fun c => c.owner == b && !c.inactive && c.kind == kind && c.target == target
  (l.filter (fun c => near == some (clusterOf c.src)) ++ l).head?.map (·.ref false)

/-- The circuit between D ports over which a bight reaches the SRAM of a member, ridden in either direction: one whose other end lies
in the cluster `near` before any other (R222, R248, R255, log 189). -/
def State.circuitInto (s : State) (b cl : Nat) (near : Option Nat) : Option CircRef :=
  let l := s.mesh.circuits.filterMap fun c =>
    if c.owner != b || c.inactive || c.kind != 3 then none
    else if clusterOf c.dst = cl then some (clusterOf c.src, c.ref false)
    else if clusterOf c.src = cl then some (clusterOf c.dst, c.ref true)
    else none
  (l.filter (fun e => near == some e.1) ++ l).head?.map (·.2)

/-- The cluster whose D ports a requester uses. -/
def Requester.near : Requester → Option Nat
  | .stream cl _ => some cl
  | .core k => some (clusterOf k)
  | .window _ _ => none

/-- A bight's circuits lead to a target (R248). -/
def State.reaches (s : State) (b kind target : Nat) : Bool := (s.circuitTo b kind target none).isSome

/-- The usable ports of an outbound window for a bight, ascending (R489). -/
def State.usablePorts (s : State) (win : Nat) (b : Option Nat) : List Nat :=
  (bitsOf (s.outWin win).ports).filter fun p =>
    decide (p < 48) && s.portUsable p && (match b with
      | some b => (s.bight b).place.holdsPort p
      | none => true)

/-- The port that a packet leaves by: the offset's 4 KiB block chooses (R385, R489). -/
def State.portFor (s : State) (win offset : Nat) (b : Option Nat) : Option Nat :=
  let u := s.usablePorts win b
  u[offset / 4096 % u.length]?

/-- The address a frame leads to (R353, R354, R248, R385). -/
def State.frameDest (s : State) (w : Who) (leaf : BitVec 128) (level fn va n frame : Nat) (gen : Bool) : Xres :=
  let off := va % 2 ^ pageBits level
  let held := fun (g : Nat) => match w.bight with
    | some b => w.inbound || w.aperture || ((s.bight b).place.holdsGroup g && s.reaches b 0 g)
    | none => true
  let near := fun (cl : Nat) => match w.bight with
    | some b => w.inbound || w.aperture || w.requester.near == some cl || !(s.bight b).place.memberClusters.contains cl ||
        (s.circuitInto b cl w.requester.near).isSome
    | none => true
  match leafTgt leaf with
  | 0 =>
    let a := frame * 65536 + off
    (match regionOf a with
      | .hbm g =>
        if held g then .ok (.phys a (if leafEnc leaf then some (leafF leaf 36 6, gen) else none) fn)
        else .fault rNotLashed
      | .sram c => if near c then .ok (.phys a none fn) else .fault rNotLashed
      | _ => .ok (.phys a none fn))
  | 1 =>
    let b := fieldN frame 24 8
    let lam := fieldN frame 15 9
    let x := s.bight b
    let sameBight := match w.requester with
      | .window p _ => x.state != .free && x.place.holdsPort p
      | _ => w.bight == some b
    if sameBight && x.place.members.contains lam && near (x.place.cluster lam) then
      .ok (.phys (sramAddr (x.place.cluster lam) (fieldN frame 0 11 * 65536 + off)) none fn)
    else .fault rNotLashed
  | 2 =>
    let port := if fn = 0 then (if leaf.getLsbD 34 then 1 else 0) else s.portOfFn fn
    if w.bight.all fun b => w.inbound || w.aperture || s.reaches b 2 port then .ok (.host fn port (frame * 65536 + off))
    else .fault rNotLashed
  | _ =>
    let win := fieldN frame 24 8
    let o := fieldN frame 0 24 * 65536 + off
    let x := s.outWin win
    if x.state ≠ 1 ∨ x.length < o + n then .fault rNotPresent
    else if (s.portFor win o w.bight).any fun p => w.bight.all fun b => s.reaches b 1 p then .ok (.remote win o)
    else .fault rNotLashed

/-- A write that names the old generation of a rotating key slot is held, and its frame moves ahead of the walk (R601); while a frame
is being moved every access to it is held (R600). -/
def State.rotationHolds (s : State) (leaf : BitVec 128) (addr idx : Nat) (gen write : Bool) : Bool :=
  let k := s.keySlot (leafF leaf 36 6)
  leafEnc leaf && k.rotating && gen != k.gen && (write || k.moving.any fun m => m.addr == addr && m.idx == idx)

/-- Translate one access of `n` bytes within a page by the leaf that is found: the destination, or why it does not go on. -/
def State.translateBy (s : State) (w : Who) (va n : Nat) (write : Bool) : Xres × State :=
  let ((r, found), s) := s.findLeaf w va write
  let kept := fun (x : Xres × State) =>
    match x with
    | (.fault e, s) => (Xres.fault e, s)
    | (x, s) => (x, s.keepLeaf w found)
  kept <| match r with
  | .fault e => (.fault e, s)
  | .held => (.hold, s)
  | .leaf level leaf fn accEn addr =>
    if !permitted leaf write then (.fault (if write then rWrite else rRead), s)
    else
      let finish := fun (s : State) (frame : Nat) (gen : Bool) (idx : Nat) =>
        if s.rotationHolds leaf addr idx gen write then
          let k := leafF leaf 36 6
          let id := (w.asid * 2 ^ 52 + addr, idx)
          (Xres.hold, s.modKeySlot k fun x => { x with ahead := if x.ahead.contains id then x.ahead else x.ahead ++ [id] })
        else
          let d := s.frameDest w leaf level fn va n frame gen
          let s := match d with
            | .ok (.host _ _ _) =>
              if accEn && !leaf.getLsbD 33 then s.countAccess w.die w.asid va n else s
            | _ => s
          (d, s)
      let f0 := leafF leaf 64 32
      let f1 := leafF leaf 96 32
      if leafShadow leaf then
        match s.readObject w (leafF leaf 44 20) with
        | (.bad, s) => (.fault rUnreadable, s)
        | (.held, s) => (.hold, s)
        | (.ok o, s) =>
          if o.malformed then (.fault rMalformed, s)
          else
          (match s.shadowFrame w o write with
            | .inl x => (x, s)
            | .inr one => if one then finish s f1 (leaf.getLsbD 43) 1 else finish s f0 (leaf.getLsbD 42) 0)
      else if objectFree w leaf write then finish s f0 (leaf.getLsbD 42) 0
      else if leafF leaf 44 20 = 0 then (.kill codeUnshadowed, s)
      else
        match s.readObject w (leafF leaf 44 20) with
        | (.bad, s) => (.fault rUnreadable, s)
        | (.held, s) => (.hold, s)
        | (.ok o, s) =>
          if o.malformed then (.fault rMalformed, s)
          else if o.valid && o.scratch then finish s f0 (leaf.getLsbD 42) 0
          else (.kill codeUnshadowed, s)

/-- Translate one access of `n` bytes within a page. A fault that a cached leaf causes is reported only when the tables cause it, too
(R361); the caller writes it to the ring. -/
def State.translate (s : State) (w : Who) (va n : Nat) (write : Bool) : Xres × State :=
  match s.translateBy w va n write with
  | (.fault r, t) =>
    if (s.hit w va).any fun e => e.usable w write then (t.forget w va).translateBy w va n write else (.fault r, t)
  | x => x

/-- Discard the pending and held faults of a command (R373), and its walks. -/
def State.dropFaults (s : State) (q seq : Nat) : State :=
  { s with xlat := { s.xlat with
      faults := s.xlat.faults.filter fun f => !(f.queue == q && f.seq == seq && f.requester.kind != 3)
      walking := s.xlat.walking.filter fun x => x.cmd != some (q, seq) } }

/-- A stream waits for a walk or a fault that is not that of this access: it translates its requests in order (R360, R363). -/
def State.streamWaits (s : State) (w : Who) (va : Nat) : Bool :=
  (s.xlat.walking.any fun x => x.requester == w.requester && !(x.is w va && x.cmd == w.cmd)) ||
    s.xlat.faults.any fun f => f.requester == w.requester

end Sys2Proof.Machine
end

