-- ==== Sys2Proof/Machine/CmdOps.lean ====
section
/-! DEFINITION. Commands of queues: which one is active, the commit register, open versions, stopping a command's cores and
requests (R434, R442 to R445, R452 to R455). -/

namespace Sys2Proof.Machine

/-- The active command of a queue: its first that is neither held, committed nor ended (R442). -/
def Queue.active (q : Queue) : Option Cmd := q.cmds.find? fun c => c.live? && c.phase != .held

def State.active (s : State) (qn : Nat) : Option (Queue × Cmd) :=
  (s.queue? qn).bind fun q => q.active.map fun c => (q, c)

/-- A command is a RUN. -/
def Cmd.isRun (c : Cmd) : Bool := match c.payload with | .run .. => true | _ => false
/-- A command that the launch test does not bind (R72). -/
def Cmd.untested (c : Cmd) : Bool :=
  match c.payload with
  | .wait .. | .signal .. | .commitGroup .. | .relash .. => true
  | _ => false
def Cmd.direct (c : Cmd) : Bool := c.flags.getLsbD 0
def Cmd.grouped (c : Cmd) : Bool := c.flags.getLsbD 1

/-- A launched command that has not reached its end: it runs (R272). -/
def Cmd.running (c : Cmd) : Bool :=
  c.phase == .opening || c.phase == .listed || c.phase == .running || c.phase == .requested || c.phase == .killing

/-- Queues that run on a bight. -/
def State.queuesOf (s : State) (b : Nat) : List (Nat × Queue) := List.filter (fun e : Nat × Queue => e.2.bight == b) s.queues

/-- The commands of a bight with their queues. -/
def State.cmdsOf (s : State) (b : Nat) : List (Nat × Cmd) :=
  (s.queuesOf b).flatMap fun e => e.2.cmds.map fun c => (e.1, c)

/-- The bight has a running command (R76, R272). -/
def State.bightRuns (s : State) (b : Nat) : Bool := (s.cmdsOf b).any fun e => e.2.running

/-- The RUN that is resident on a bight: its queue, function and command. -/
def State.residentCmd (s : State) (b : Nat) : Option (Nat × Queue × Cmd) :=
  match (s.bight b).resident with
  | none => none
  | some (q, n, _) => (s.queue? q).bind fun x => (x.cmd? n).map fun c => (q, x, c)

/-! ### The commit register (R444 to R446, R468) -/

/-- The payload of a COMMIT message (R448). -/
def commitFlits (op b q seq : Nat) : List Flit :=
  [BitVec.ofNat 32 (op * 2 ^ 28 + b * 2 ^ 20 + q * 2 ^ 8), BitVec.ofNat 32 seq]

/-- The management processor answers a bight with a COMMIT message: commit done (2) or kill done (4) (R448, R453). -/
def State.commitMsg (s : State) (b op q seq : Nat) : State :=
  s.lanCarry 8 (s.stopOfBight b) stopMgmt (commitFlits op b q seq)

/-- Append a request to a bight's commit register (R445, R468): a COMMIT message brings it, a commit request (1) or a kill (3) from
the bight, an abort (5) from the PCIe stop of function 0 (R448). -/
def State.register (s : State) (b : Nat) (e : RegEntry) : State :=
  let s := match e with
    | .commit q seq => s.lanCarry 8 stopMgmt (s.stopOfBight b) (commitFlits 1 b q seq)
    | .kill q seq code _ _ =>
      if code = codeAborted then s.lanCarry 8 stopMgmt (stopPcie 0) (commitFlits 5 b q seq)
      else s.lanCarry 8 stopMgmt (s.stopOfBight b) (commitFlits 3 b q seq)
  s.modBight b fun x => { x with creg := x.creg ++ [e] }

/-- Ask for a command's kill with a break code (R452, R468): a command already ended, committed or being killed is left. -/
def State.requestKill (s : State) (q seq code : Nat) (detail : BitVec 24) (rerun : Bool) : State :=
  match s.queue? q with
  | none => s
  | some x =>
    match x.cmd? seq with
    | none => s
    | some c =>
      if c.live? && c.phase != .killing then s.register x.bight (.kill q seq code detail rerun) else s

/-- A command fails: it is killed without re-run and its fence breaks with the code, DETAIL naming it (R423, R452). -/
def State.failCmd (s : State) (q seq code : Nat) : State := s.requestKill q seq code (detailCmd q seq) false

/-- A command fails, also one whose kill for a re-run is under way: the re-run becomes an end (R459, R534). -/
def State.failAlways (s : State) (qn seq code : Nat) : State :=
  match s.cmd? qn seq with
  | some c =>
    if c.phase = .killing ∧ c.rerun then
      s.modCmd qn seq fun d => { d with rerun := false, code := code, detail := detailCmd qn seq }
    else s.failCmd qn seq code
  | none => s

/-! ### Open versions (R434, R443, R446, R453) -/

/-- Clear OPEN and the holder of an object, its CSEL toggled or not (R403). -/
def State.closeObject (s : State) (toggle : Bool) (n : Nat) : State :=
  let o := s.object n
  s.setObject n (objState (xor o.csel toggle) false 0 0)

/-- Close every object a command holds and forget them. -/
def State.closeObjects (s : State) (toggle : Bool) (q seq : Nat) : State :=
  match s.cmd? q seq with
  | none => s
  | some c => (c.holds.foldl (fun s n => s.closeObject toggle n) s).modCmd q seq fun c => { c with holds := [] }

/-- Every object of the write list is free or held by the command's own group (R442). -/
def State.objectsFree (s : State) (q : Nat) (c : Cmd) : Bool :=
  c.writes.all fun e =>
    let o := s.object e.object
    !o.isOpen || (o.queue == q && (o.seq == c.seq || (c.grouped && s.sameGroup q o.seq c.seq)))

/-- Set OPEN and the holder of every free object of the write list (R443); an object that the command's group, or the
command itself (R454), already holds keeps its open version. The answer says which COPY entries were opened anew. -/
def State.openObjects (s : State) (q : Nat) (c : Cmd) : List WriteEntry × State :=
  c.writes.foldl (fun (acc : List WriteEntry × State) e =>
    let o := acc.2.object e.object
    if o.isOpen then acc
    else
      let s := (acc.2.setObject e.object (objState o.csel true q c.seq)).modCmd q c.seq fun c =>
        { c with holds := c.holds ++ [e.object] }
      (if e.overwrite then acc.1 else acc.1 ++ [e], s)) ([], s)

/-! ### Cores of a bight -/

def State.bightCores (s : State) (b : Nat) : List Nat := (s.bight b).place.memberClusters.flatMap coresOf

/-- The engine as a command's start leaves it (R178). -/
def engineFresh : Engine := {}

/-- Stop a bight's cores and discard its engine state and route data (R117, R188, R453). A stopped core keeps no register: a
re-run starts from the state of R88. -/
def State.stopCores (s : State) (b : Nat) : State :=
  let pl := (s.bight b).place
  let s := (s.bightCores b).foldl (fun s k => s.setCore k { run := .stopped }) s
  let s := pl.memberClusters.foldl (fun s c => s.setEngine c engineFresh) s
  let s := pl.routers.foldl (fun s r => s.modRouter r fun x => { x with input := [], credit := [] }) s
  { s with mesh := { s.mesh with flights := s.mesh.flights.filter fun f => f.bight != b } }

/-! ### Requests -/

/-- A request belongs to a command: a piece of its transfer, a far access of a core of its bight, or an access of one of its steps. -/
def State.ownsReq (s : State) (q seq : Nat) (run : Bool) (b : Nat) (r : Req) : Bool :=
  match r.owner with
  | .piece q' n _ => q' == q && n == seq
  | .far k => run && (s.bight b).place.memberClusters.contains (clusterOf k)
  | .none => r.step != .no && r.pay == some (b, q, seq)
  | _ => false

/-- Take requests out of every gate queue: their circuits' credits are returned (R341). -/
def State.ungate (s : State) (ids : List Nat) : State :=
  let out := fun (_ : Nat) (g : Group) => { g with queue := g.queue.filter fun i => !ids.contains i }
  let queued := fun (r : Req) => (Tab.vals s.hbm.groups).any fun (g : Group) => g.queue.contains r.id
  let circs := s.reqs.filterMap fun r => if ids.contains r.id && queued r then r.circ else none
  circs.foldl (fun (s : State) x => s.oweCredit x) { s with hbm := { s.hbm with groups := Tab.mapPut {} out s.hbm.groups } }

/-- Abandon requests (R453): their data are discarded when they return. A write that still waits at its gate, or is on its way to
a link port, is dropped; a request whose result nobody has taken is forgotten, and so is an access of a step. -/
def State.abandonReqs (s : State) (p : Req → Bool) : State :=
  let over' := fun (r : Req) => r.result != .pending || r.step != .no ||
    (r.write && (match r.target with | .hbm _ => true | .remote .. => r.stage == .away | .host .. => false))
  let gone := s.reqs.filter fun r => p r && over' r
  let ids := gone.map (·.id)
  let s := gone.foldl (fun s r => s.refKey r false) s
  let s := s.ungate ids
  { s with
    reqs := (s.reqs.filter fun r => !ids.contains r.id).map fun r => if p r then { r with owner := .none } else r
    xlat := { s.xlat with invs := s.xlat.invs.map fun v => { v with waits := v.waits.filter fun i => !ids.contains i } } }

/-- A kill abandons the reads of the command and its writes to open frames; a direct-write command's writes in flight are
stored first (R453, R464). -/
def State.abandonCmd (s : State) (q : Nat) (c : Cmd) (b : Nat) : State :=
  s.abandonReqs fun r => s.ownsReq q c.seq c.isRun b r && !(c.direct && r.write)

/-- Requests of the command are still in flight (R464). -/
def State.cmdBusy (s : State) (q : Nat) (c : Cmd) (b : Nat) : Bool :=
  s.reqs.any fun r => s.ownsReq q c.seq c.isRun b r && (r.step == .no || r.step == .waits)

/-! ### Translation on behalf of a command -/

/-- Who a DMA stream's access is for. -/
def State.whoStream (s : State) (qn : Nat) (q : Queue) (c : Cmd) (iota st : Nat) : Who :=
  let pl := (s.bight q.bight).place
  let cl := pl.cluster (pl.members.getD iota 0)
  { asid := q.asid, fn := some q.fn, bight := some q.bight, cmd := some (qn, c.seq), direct := c.direct,
    requester := .stream cl st, cache := streamCache cl st, die := dieOfCluster cl, master := q.bight, cls := c.cls,
    deadline := c.deadline,
    payer := .cmd q.bight qn c.seq }

/-- Who a core's far access is for. -/
def whoCore (qn : Nat) (q : Queue) (c : Cmd) (core : Nat) : Who :=
  let cl := clusterOf core
  { asid := q.asid, fn := some q.fn, bight := some q.bight, cmd := some (qn, c.seq), direct := c.direct,
    requester := .core core, cache := farCache cl, die := dieOfCluster cl, master := q.bight, cls := c.cls,
    deadline := c.deadline,
    payer := .cmd q.bight qn c.seq }

/-- Send the packet of a remote request through a port (R385, R489). -/
def State.sendRemote (s : State) (r : Req) (win offset p : Nat) : State :=
  let x := s.outWin win
  let tag := (s.port p).nextTag
  let s := s.modPort p fun y => { y with nextTag := (tag + 1) % 65536 }
  let s := s.modReq r.id fun r => { r with target := .remote win offset p tag }
  let h : Header := { ty := if r.reduce then 8 else if r.write then 2 else 1, len := r.len, dst := x.dest, src := s.fabric.number,
                      tag, offset, epoch := r.epoch, attempt := r.attempt, window := x.window }
  s.sendPacket p h r.data r.pay

/-- The epoch field of a command: queue and sequence number (R481, R496). -/
def epochOf (q seq : Nat) : Nat := q * 2 ^ 36 + seq % 2 ^ 36

/-- Remember a (module, window, port) that a command wrote to (R497). -/
def State.notePeer (s : State) (q seq win id : Nat) : State :=
  match s.req? id with
  | some r =>
    (match r.target with
      | .remote _ _ p _ =>
        let e := ((s.outWin win).dest, (s.outWin win).window, p)
        s.modCmd q seq fun c =>
          let c := { c with sender := true }
          if c.peers.any fun x => x.1 == e.1 && x.2.1 == e.2.1 then c else { c with peers := c.peers ++ [e] }
      | _ => s)
  | none => s

end Sys2Proof.Machine
end

