-- ==== Sys2Proof/Machine/PowerOps.lean ====
section
/-! DEFINITION. Trim levels, base clock, issue duty and memory-cap factor (R544 to R553, R559, R561, R564). Rates are in
units of 0.5 MHz. -/

namespace Sys2Proof.Machine

/-! ### Means of the input power (R549, R571) -/

/-- The windows that ended in the last `t` ns: the sum and the number of their samples. -/
def State.inputOver (s : State) (t : Nat) : Nat × Nat :=
  (s.power.inputLog.filter fun e => decide (s.now < e.1 + t)).foldl (fun a e => (a.1 + e.2.1, a.2 + e.2.2)) (0, 0)

/-- The mean input power over the last `t` ns in W, rounded down. -/
def State.meanOver (s : State) (t : Nat) : Nat := (s.inputOver t).1 / (s.inputOver t).2

/-! ### Levels (R547, R548) -/

/-- The rate ceiling of a Trim level, in units of 0.5 MHz (R547). -/
def rateCeiling (level : Nat) : Nat := [5600, 5000, 4400, 3800, 3200, 2500, 1875, 1250].getD level 1250

/-- The level of bight b (R548): in host-policy mode sharing levels are 0 (R551). -/
def State.levelOf (s : State) (b : Nat) : Nat :=
  max s.tEff (max (s.bight b).trimFloor (if s.selfPolicy then (s.bight b).shareLevel else 0))

/-- Fixed-frequency mode acts: it is selected and the module is not in Reef (R553, R565). -/
def State.fixedActive (s : State) : Bool := s.power.fixedFreq && !s.power.reef

/-- Blown wear units of die d, the wear account, and the guard step (R554 to R556). -/
def State.wearOf (s : State) (d : Nat) : Nat := Tab.look 0 s.fuses.wear d
def State.wearAccount (s : State) : Nat := 3584 - ((List.range 16).map s.wearOf).foldl max 0
def State.guardOf (s : State) (d : Nat) : Nat := min 7 (s.wearOf d / 512)

/-- The clusters of a die: four rows of eight (R16). -/
def clustersOfDie (d : Nat) : List Nat := (List.range 512).filter fun c => dieOfCluster c == d

/-- The stress of a die in one nanosecond, in quarters of a nanosecond at the reference (R554). -/
def State.stressRate (s : State) (d : Nat) : Nat :=
  if (clustersOfDie d).all fun c => s.dom c == .off then 1
  else
    let t := max (Tab.look 0 s.power.halfTemp (2 * d)) (Tab.look 0 s.power.halfTemp (2 * d + 1))
    let k := if t < 170 then 2 else if t < 190 then 3 else 5
    if s.power.baseMhz = 2800 then 6 * k else 2 * k

/-- One wear unit: 86,400 s at the reference, in quarters of a nanosecond (R554). -/
def wearUnit : Nat := 4 * 86400 * 10 ^ 9

/-- A wear unit of a die begins: the stress since READY has used up those begun before it (R554). -/
def State.wearDue (s : State) (d : Nat) : Bool :=
  decide (Tab.look 0 s.power.begun d * wearUnit ≤ Tab.look 0 s.power.stress d)

/-- Boost is permitted (R559), 10 ms after a Reef at the earliest (R566). -/
def State.boostOk (s : State) : Bool :=
  s.power.boostPermit && decide (0 < s.wearAccount) && !s.power.fixedFreq && !s.power.reef && s.tEff == 0 &&
    decide (s.power.boostAfter ≤ s.now) && (List.range 32).all fun h => decide (Tab.look 0 s.power.halfTemp h < 170)

/-- The clock ceiling of the module level, MHz (R547). -/
def State.clockCeiling (s : State) : Nat :=
  match s.tEff with
  | 0 => if s.boostOk then 2800 else 2500
  | 1 => 2500
  | 2 => 2200
  | 3 => 1900
  | 4 => 1600
  | _ => 1250

/-- The lashed bights: those that hold a placement. -/
def State.lashedBights (s : State) : List Nat :=
  s.bights.tab.filterMap fun (e : Nat × Bight) =>
    if e.2.state = .free ∨ e.2.state = .lashing then none else some e.1

/-- The limit that the pace groups with the Match policy set on a bight, in units of 0.5 MHz (R511, R552). -/
def State.paceLimit (s : State) (b : Nat) : Option Nat :=
  (s.fabric.pace.filterMap fun (e : Nat × PaceGroup) =>
    if e.2.bights.getLsbD b then e.2.limit.map (2 * ·) else none).min?

/-- The rate R_b of a bight (R552), with the pace limits or without them. -/
def State.rateBy (s : State) (paced : Bool) (b : Nat) : Nat :=
  let r := rateCeiling (s.levelOf b)
  match (if paced then s.paceLimit b else none) with
  | some l => min r l
  | none => r

/-- The base clock that R552, R553 and R564 call for, MHz, with the pace limits or without them. -/
def State.clockBy (s : State) (paced : Bool) : Nat :=
  if s.power.reef then 1200
  else if s.power.fixedFreq then 2500
  else
    let ceil := s.clockCeiling
    let need := (s.lashedBights.map fun b => s.rateBy paced b).foldl max 0
    if s.lashedBights.isEmpty then ceil
    else min ceil (([1250, 1600, 1900, 2200, 2500, 2800].find? fun m => decide (need ≤ 2 * m)).getD 2800)

def State.wantedMhz (s : State) : Nat := s.clockBy true

/-! ### Bight rate and issue duty (R204, R546, R552) -/

/-- The half-dies that hold a router of the bight. -/
def State.halvesOf (s : State) (b : Nat) : List Nat := ((s.bight b).place.rectangle.map halfOfCluster).dedup
/-- The dies that hold a member of the bight. -/
def State.diesOf (s : State) (b : Nat) : List Nat := ((s.bight b).place.memberClusters.map dieOfCluster).dedup

/-- The divider of the bight rate: the largest of the half-dies that hold a router of the bight (R204). -/
def State.bightDiv (s : State) (b : Nat) : Nat := ((s.halvesOf b).map s.divOf).foldl max 1

/-- The issue duty of bight b in sixteenths at a base clock (R546, R552, R553, R561, R564); limiter reductions stop at 4/16 (R542). -/
def State.dutyBy (s : State) (paced : Bool) (mhz b : Nat) : Nat :=
  let fb2 := 2 * mhz
  let r := s.rateBy paced b
  let trim := min 16 (max 1 (16 * r * s.bightDiv b / fb2))
  let thermal := if s.fixedActive then ((s.halvesOf b).map fun h => Tab.look 16 s.power.thermalCap h).foldl min 16 else 16
  let reef := if s.power.reef then 8 else 16
  let capped := min trim (min thermal reef)
  let red := s.power.inputRed + ((s.diesOf b).map fun d => Tab.look 0 s.power.dieRed d).foldl max 0
  max (min capped 4) (capped - red)

/-- The issue duty of bight b in sixteenths (R546). -/
def State.dutyOf (s : State) (b : Nat) : Nat := s.dutyBy true s.power.baseMhz b

/-- The bight's effective rate in MHz, rounded down (R510, R513, R546). -/
def State.effectiveMhz (s : State) (b : Nat) : Nat := s.power.baseMhz * s.dutyOf b / (16 * s.bightDiv b)

/-- The effective rate that the bight would have without the pace limits, MHz (R511, log 215). -/
def State.unpacedMhz (s : State) (b : Nat) : Nat :=
  let f := s.clockBy false
  f * s.dutyBy false f b / (16 * s.bightDiv b)

/-! ### Voltage and static power (R74, R545) -/

/-- The clock of a half-die in MHz (R199). -/
def State.halfMhz (s : State) (h : Nat) : Nat := s.power.baseMhz / s.divOf h

/-- The entry of the voltage table for a clock: the lowest operating point that reaches it (R545; for a divided clock, log 168). -/
def pointOf (mhz : Nat) : Nat := ([2800, 2500, 2200, 1900, 1600, 1250, 1200].countP fun m => decide (mhz ≤ m)) - 1

/-- What R545 sets the CORE rail of die d to at a base clock, mV: the table's entry at the higher clock of its halves, and 6 mV a guard
step (R555). -/
def State.tableMv (s : State) (d mhz : Nat) : Nat :=
  Tab.look 0 s.fuses.voltage (8 * d + pointOf (max (mhz / s.divOf (2 * d)) (mhz / s.divOf (2 * d + 1)))) +
    6 * Tab.look 0 s.power.guardStep d

/-- The CORE voltage of die d in mV (R544, R545, R562): the voltage rises before the clock, as soon as a rise is announced, and falls
after it; a thermal trip drops the rail. -/
def State.coreMv (s : State) (d : Nat) : Nat :=
  if s.power.railsDropped.contains d then 0
  else (s.power.clockNext.map fun e => s.tableMv d e.1).foldl max (s.tableMv d s.power.baseMhz)

/-- The SRAM voltage of die d in mV (R539, R562). -/
def State.sramMv (s : State) (d : Nat) : Nat := if s.power.railsDropped.contains d then 0 else 750

/-- The modelled static power of an ON cluster in mW, which is also its energy in pJ each nanosecond (R64, R74). -/
def State.staticMw (s : State) (c : Nat) : Nat :=
  let d := dieOfCluster c
  Tab.look 0 s.fuses.staticMw (2 ^ 24 * d + 4096 * s.halfMhz (halfOfCluster c) + s.coreMv d)

/-! ### Changing the base clock (R544) -/

/-- The clock that will hold once every announced change has been reached. -/
def State.comingMhz (s : State) : Nat := ((s.power.clockNext.getLast?).map (·.1)).getD s.power.baseMhz

/-- The time, in ns past the first µs, within which the target of a change announced now lies: Reef is entered within 20 µs (R564), and
any other change takes effect within 100 µs (R550, R553; log 216). -/
def clockSlack (op : Nat) : Nat := if op = 2 then 18000 else 98000

/-- The target of a change announced now: a multiple of 16 base cycles at least 1 µs ahead; which one of those in time is free (R544). -/
def State.clockTarget (s : State) (op : Nat) : Nat × State :=
  let (n, s) := s.freeNat
  (16 * (divUp (s.mesh.tau0 + 1000 * s.power.baseMhz) 16000 + n % (clockSlack op * s.power.baseMhz / 16000)), s)

/-- Announce a change of the base clock in a POWER message broadcast by the management processor (R544, R570). -/
def State.announce (s : State) (op mhz : Nat) : State :=
  let (t, s) := s.clockTarget op
  let level := if op = 2 then 0 else s.tEff
  let flit := BitVec.ofNat 32 (op * 2 ^ 28 + level * 2 ^ 24 + t % 65536)
  ({ s with power := { s.power with clockNext := s.power.clockNext ++ [(mhz, t)] } }).lanSend 3 stopAll stopMgmt false [flit]

/-- Bring the base clock to what R552 and R553 call for: a change is announced when the clock that is coming differs. -/
def State.retune (s : State) : State := if s.wantedMhz = s.comingMhz then s else s.announce 1 s.wantedMhz

end Sys2Proof.Machine
end

