-- ==== Sys2Proof/Machine/FrameOps.lean ====
section
/-! DEFINITION. The frame boundary: counter, scale factors, restated energy, debt, grants, pace, and the launch test (R49 to
R81, R509 to R513). Energies are in pJ unless a name says mJ. -/

namespace Sys2Proof.Machine

def pjPerMj : Nat := 1000000000
def pjPerUj : Nat := 1000000

/-! ### The launch test (R71 to R78) -/

/-- The members of a bight's placement whose clusters are ON. -/
def State.onMembers (s : State) (b : Nat) : List Nat := (s.bight b).place.memberClusters.filter s.clusterOn

/-- The standing reserve of a bight: the modelled static energy of its ON clusters over one frame at the clock and voltage they
have now (R74). -/
def State.standing (s : State) (b : Nat) : Nat :=
  ((s.onMembers b).map fun c => s.staticMw c * s.frame.period * s.scaleOf (dieOfCluster c) / 0x4000).sum

/-- The claim of a command that has launched and not completed (R73). -/
def Cmd.claim (c : Cmd) : Nat := c.frameCharged + (c.pred * pjPerUj - (c.charged - c.preCharged))

/-- The claims of a bight: its launched commands, and those that completed in this frame (R74). -/
def State.claims (s : State) (b : Nat) : Nat :=
  (((s.cmdsOf b).filter fun e => e.2.launched).map fun e => e.2.claim).sum + (s.bight b).claimsDone

/-- What a bight's claims and standing reserve leave of a finite grant of `mj` millijoules with a debt: signed (R74). -/
def State.remaining (s : State) (b mj : Nat) : Int :=
  (mj * pjPerMj : Nat) - ((s.bight b).debt + s.standing b + s.claims b : Nat)

/-- The module's remaining energy under a finite effective grant (R74). -/
def State.moduleRemaining (s : State) (mj : Nat) : Int :=
  (mj * pjPerMj : Nat) - (s.energy.debt + ((s.lashedBights).map fun b => s.standing b + s.claims b).sum : Nat)

/-- The predicted energy of a command in µJ (R71). -/
def State.predict (s : State) (b : Nat) (c : Cmd) : Nat :=
  let x := s.bight b
  divUp ((if c.est = 0 then x.fallback else c.est) * x.ratio) 65536

/-- The state is that of a frame boundary: no time has passed since it (R76, R77). -/
def State.atBoundary (s : State) : Bool := s.now == s.frame.boundaryAt

/-- A Hold policy holds the bight's launches (R511). -/
def State.paceHeld (s : State) (b : Nat) : Bool :=
  List.any s.fabric.pace fun (e : Nat × PaceGroup) => e.2.hold && e.2.bights.getLsbD b

/-- The launch test (R74, R76): the predicted energy of a command that may launch. -/
def State.launchTest (s : State) (b : Nat) (c : Cmd) : Option Nat :=
  let pred := s.predict b c
  let pj := pred * pjPerUj
  if s.power.reef || s.errors.rootstock then none
  else if c.untested then some 0
  else if s.paceHeld b then none
  else
    let fits := fun (room : Option Int) => room.all fun r => decide ((pj : Int) ≤ r)
    let modOk := fits (s.energy.effective.map s.moduleRemaining)
    match (s.bight b).effective with
    | none => if modOk then some pred else none
    | some 0 => none
    | some mj =>
      if mj * pjPerMj < pj then if s.atBoundary && !s.bightRuns b then some pred else none
      else if decide ((pj : Int) ≤ s.remaining b mj) && modOk then some pred else none

/-- The correction ratio after a command with a non-zero estimate has completed (R70). -/
def ratioAfter (ratio chargedPj est : Nat) : Nat :=
  if est = 0 then ratio
  else
    let den := est * pjPerUj
    min 0x40000 (max 0x8000 (divNearest (7 * ratio * den + 65536 * chargedPj) (8 * den)))

/-! ### Scale factors and restated energy (R61, R66, R67) -/

/-- The scale factor of a die from its measured and modelled energy, and whether it was clamped; 14 fraction bits, rounded
down, clamped to 0.8 to 1.25 (R66). Without modelled and measured energy the factor is a free value of that range. -/
def State.factor (s : State) (measured modelled : Nat) : (Nat × Bool) × State :=
  if modelled = 0 ∧ measured = 0 then
    let (n, s) := s.freeNat
    ((13108 + n % 7373, false), s)
  else if measured * 5 < modelled * 4 then ((13107, true), s)
  else if modelled * 5 < measured * 4 then ((20480, true), s)
  else ((measured * 16384 / modelled, false), s)

/-- The scale factors at a boundary (R66): each die's, the bitmap of the clamped ones, and one event for all of them. -/
def State.scaleFactors (s : State) (m : Measured) : State :=
  let r := (List.range 16).foldl (fun (acc : State × Tab Nat × Nat) d =>
    let (s, t, bits) := acc
    let ((f, c), s) := s.factor (m.dies.getD d 0 * pjPerUj) (Tab.look 0 s.energy.dieModel d)
    (s, Tab.put 0x4000 t d f, if c then bits + 2 ^ d else bits)) (s, s.energy.scale, 0)
  let (s, t, bits) := r
  let s := { s with energy := { s.energy with scale := t, clamped := BitVec.ofNat 16 bits } }
  if bits = 0 then s else s.event 0x0003 bits

/-- Modelled energy by die under the factors now in force (R67). -/
def State.restate (s : State) (t : Tab Nat) : Nat := (t.map fun (e : Nat × Nat) => e.2 * s.scaleOf e.1 / 0x4000).sum

/-! ### Debt (R63) -/

/-- The debt that a frame leaves, and whether some of the excess was dropped: charged and carried energy against an effective
grant in mJ (R63). -/
def debtAfter (charged debt : Nat) (eff : Option Nat) : Nat × Bool :=
  match eff with
  | none => (0, false)
  | some mj =>
    let cap := mj * pjPerMj
    let excess := charged + debt - cap
    (min excess cap, decide (cap < excess))

/-- A bight at a boundary: restated energy, debt and the frame's counts begin anew (R63, R67, R69, R73). -/
def State.settleBight (s : State) (b length : Nat) : State :=
  let x := s.bight b
  let (debt, dropped) := debtAfter x.charged x.debt x.effective
  let s := s.setBight b { x with
    restated := s.restate x.model, lastFrame := length, lastEffective := x.effective, debt := debt,
    debtFrames := if debt = 0 then x.debtFrames else x.debtFrames + 1, charged := 0, model := [], claimsDone := 0 }
  let s := (s.queuesOf b).foldl (fun s e =>
    s.modQueue e.1 fun q => { q with cmds := q.cmds.map fun c => { c with frameCharged := 0 } }) s
  if dropped then { s with frame := { s.frame with droppedDebt := s.frame.droppedDebt + 1 } } else s

/-- Every bight and the module settled (R61 to R63, R67). A base reserve below zero, from clamped factors, is held at zero (DESIGN
CHOICE, log 167). -/
def State.settleFrame (s : State) (m : Measured) (length : Nat) : State :=
  let bs := s.lashedBights
  let charged := (bs.map fun b => (s.bight b).charged).sum + s.energy.releasedCharged
  let (debt, dropped) := debtAfter charged s.energy.debt s.energy.effective
  let s := s.scaleFactors m
  let s := bs.foldl (fun s b => s.settleBight b length) s
  let given := (bs.map fun b => (s.bight b).restated).sum + s.restate s.energy.releasedModel
  let measured := m.total * pjPerUj
  let base := if s.energy.pastFirst then measured - given else 150000 * s.frame.period
  { s with
    energy := { s.energy with
      measured := measured, base := base, pastFirst := true, debt := debt, releasedCharged := 0, dieModel := [],
      releasedModel := [] }
    frame := { s.frame with droppedDebt := if dropped then s.frame.droppedDebt + 1 else s.frame.droppedDebt } }

/-! ### Grants and policy (R60, R62, R79 to R81) -/

/-- A write takes effect at this boundary: it was made at least 100 µs before, or the boundary before this one came too soon for
it (R60). -/
def dueWrite (now : Nat) (t : Option Nat) : Bool := t.all fun t => decide (t + 100000 ≤ now)

/-- What a boundary does to writes that wait: the value in force, and the writes left for the next boundary (R60). -/
def takeEffect {α : Type} (now : Nat) (cur : α) (next : List (α × Option Nat)) : α × List (α × Option Nat) :=
  let due := next.filter fun e => dueWrite now e.2
  ((due.getLast?.map (·.1)).getD cur, (next.filter fun e => !dueWrite now e.2).map fun e => (e.1, none))

/-- Idle members of a bight are switched back ON (R285, R286). -/
def State.wakeMembers (s : State) (b : Nat) : State :=
  let x := s.bight b
  if x.idleLow then
    (x.place.memberClusters.foldl (fun s c => s.reqDom c .on) s).modBight b fun y => { y with idleLow := false }
  else s

/-- Grants and the policy mode as this boundary leaves them (R60, R79). -/
def State.applyWrites (s : State) : State :=
  let (pol, polNext) := takeEffect s.now (if s.frame.selfPolicy then 1 else 0) s.frame.policyNext
  let (g, gNext) := takeEffect s.now s.energy.grant s.energy.grantNext
  let s := { s with
    frame := { s.frame with selfPolicy := pol == 1, policyNext := polNext }
    energy := { s.energy with grant := g, grantNext := gNext } }
  let s := s.lashedBights.foldl (fun s b =>
    let x := s.bight b
    let (g, gNext) := takeEffect s.now x.grant x.grantNext
    s.setBight b { x with grant := g, grantNext := gNext }) s
  if s.selfPolicy then s else s.lashedBights.foldl (fun s b => s.wakeMembers b) s

/-- The effective grant of a bight in mJ (R62, R80, R81): `avail` is what a finite module grant leaves, `total` the sum of the
finite grants as written, `left` what those leave of the effective module grant in mJ, `weights` the sum of the weights that
share it. -/
def effectiveGrant (self : Bool) (avail : Option Nat) (total left weights : Nat) (x : Bight) : Option Nat :=
  match x.grant, avail with
  | some g, none => some g
  | some g, some a => some (if a < total * pjPerMj then g * a / (total * pjPerMj) else g)
  | none, none => if self && x.weight == 0 then some 0 else none
  | none, some _ => if self then some (left * x.weight / weights) else none

/-- The effective grants of the frame that begins (R62, R81). A bight that is lashed later in the frame has no limit until the
boundary that ends it (DESIGN CHOICE, log 166). -/
def State.effectiveGrants (s : State) : State :=
  let bs := s.lashedBights
  let total := (bs.filterMap fun b => (s.bight b).grant).sum
  let avail := s.energy.grant.map fun g => g * pjPerMj - s.energy.base
  let mod := avail.map (· / pjPerMj)
  let eff := effectiveGrant s.frame.selfPolicy avail total
  let left := mod.getD 0 - total
  let weights := (bs.map fun b => if (s.bight b).grant.isSome then 0 else (s.bight b).weight).sum
  let s := { s with energy := { s.energy with effective := mod } }
  bs.foldl (fun s b => s.modBight b fun x => { x with effective := eff left weights x }) s

/-! ### Pace groups (R509 to R513) -/

/-- The module's own rate for a group, MHz: the lowest effective rate among its lashed local bights (R510). -/
def State.ownRate (s : State) (x : PaceGroup) : Option Nat :=
  ((s.lashedBights.filter fun b => x.bights.getLsbD b).map s.effectiveMhz).min?

/-- A notice stands for 32 frames after its frame number (R511). -/
def State.standing? (s : State) (n : Notice) : Bool :=
  let age := (BitVec.ofNat 32 s.frame.counter.toNat - n.frame).toNat
  decide (age ≤ 32) || decide (2 ^ 31 ≤ age)

/-- The lowest rate among the standing notices (R511). -/
def State.noticeFloor (s : State) (x : PaceGroup) : Option Nat :=
  (x.notices.filterMap fun (e : Nat × Notice) => if decide (e.1 < x.count) && s.standing? e.2 then some e.2.rate else none).min?

/-- The group's floor: the module's own rate included (R511). -/
def State.paceFloor (s : State) (x : PaceGroup) : Option Nat :=
  match s.noticeFloor x, s.ownRate x with
  | some a, some b => some (min a b)
  | some a, none => some a
  | none, r => r

/-- The policy in force: Auto is Match in self-policy mode and Ignore in host-policy mode (R511). -/
def State.pacePolicy (s : State) (x : PaceGroup) : Nat :=
  if x.policy = 3 then if s.selfPolicy then 1 else 0 else x.policy

/-- The floor lies more than 1/8 below the module's own rate (R511). -/
def State.paceLow (s : State) (x : PaceGroup) : Bool :=
  match s.paceFloor x, s.ownRate x with
  | some f, some r => decide (8 * f < 7 * r)
  | _, _ => false

/-- A hold has lasted its limit since the newest notice (R511). -/
def State.holdSpent (s : State) (x : PaceGroup) : Bool :=
  match x.holdFrom with
  | some f => decide (x.holdLimit ≤ (s.frame.counter - f).toNat)
  | none => true

/-- The floor that Match limits a group's bights to (R511): the lowest standing notice, or the lowest rate that the module's own bights
of the group would have without the limit, since the limit must rise again when the notices do (R512, log 215). -/
def State.matchFloor (s : State) (x : PaceGroup) : Option Nat :=
  ((s.noticeFloor x).toList ++ (s.lashedBights.filter fun b => x.bights.getLsbD b).map s.unpacedMhz).min?

/-- What a group's policy does from this boundary (R511, R512). -/
def State.paceAct (s : State) (i : Nat) : State :=
  let x := s.pace i
  let on := decide (0 < x.count)
  let p := s.pacePolicy x
  s.setPace i { x with
    limit := if on && p == 1 then s.matchFloor x else none
    hold := on && p == 2 && s.paceLow x && !x.holdOver && !s.holdSpent x }

/-- The ports on which a group's notices may leave now. -/
def State.pacePorts (s : State) (x : PaceGroup) : List Nat := (bitsOf x.ports).filter fun p => decide (p < 48) && s.portUsable p

/-- The payload of a PACE message (R514): OP 1 to a port, OP 2 from it. -/
def paceFlits (op i rate member : Nat) (frame : BitVec 16) : List Flit :=
  [BitVec.ofNat 32 (op * 2 ^ 28 + i * 2 ^ 24 + rate % 65536), BitVec.ofNat 32 (member % 65536 * 65536 + frame.toNat)]

/-- A port sends the packet that a PACE message asks of it (R513, R514). -/
def State.paceAtPort (s : State) (p number member : Nat) (m : List Flit) : State :=
  s.sendPacket p { ty := 0x0D, len := 8, dst := member, src := s.fabric.number }
    (leBytes 2 number ++ leBytes 2 (fieldN (m.getD 0 0).toNat 0 16) ++ leBytes 4 s.frame.counter.toNat)

/-- One PACE packet to each other member (R510, R513, R514); which of the group's ports carries it is free. -/
def State.pacePackets (s : State) (i : Nat) (x : PaceGroup) (rate : Nat) : State :=
  let msg := paceFlits 1 i rate 0 (s.frame.counter.setWidth 16)
  let others := ((List.range x.count).map fun k => Tab.look 0xFFFF x.members k).filter fun m =>
    m != s.fabric.number && m != 0xFFFF
  others.foldl (fun s m =>
    let ports := s.pacePorts x
    let (n, s) := s.freeNat
    match ports[n % ports.length]? with
    | some p =>
      let s := s.lanCarry 2 (stopPort p) stopMgmt msg
      if s.stopPowered (stopPort p) then s.paceAtPort p x.number m msg else s
    | none => s) s

/-- A rate differs from the one last sent by 1/32 of it or more (R510). -/
def rateMoved (last : Option Nat) (rate : Nat) : Bool :=
  match last with
  | none => true
  | some r => decide (r ≤ 32 * ((rate : Int) - r).natAbs)

/-- Send a group's notices when they are due at this boundary (R510). -/
def State.paceSend (s : State) (i : Nat) : State :=
  let x := s.pace i
  match s.ownRate x with
  | none => s
  | some r =>
    if x.count = 0 then s
    else
      let since := if r < 2500 then x.since + 1 else 0
      if rateMoved x.sentRate r || decide (8 ≤ since) then
        (s.setPace i { x with sentRate := some r, since := 0 }).pacePackets i x r
      else s.setPace i { x with since := since }

/-- Pace at a boundary: the policies, then the notices. -/
def State.paceBoundary (s : State) : State :=
  let s := (Tab.keys s.fabric.pace).foldl (fun s i => s.paceAct i) s
  (Tab.keys s.fabric.pace).foldl (fun s i => s.paceSend i) s

/-! ### The boundary (R49 to R57) -/

/-- Entry to free-run: free-run bit, count, event with P, module event (R51, R53). -/
def State.enterFreeRun (s : State) : State :=
  let f := s.frame
  (({ s with frame := { f with
      locked := false, freeRun := true, freeEntries := f.freeEntries + 1, earlyNow := false, earlyBefore := false,
      edges := [], intervals := [] } }).event 0x0002 f.period).moduleEvent

/-- The means of the frame's input power, and the logs that go by frame (R571, R647). -/
def State.powerFrame (s : State) : State :=
  let (sum, n) := s.power.frameSum
  { s with power := { s.power with
      meanFrame := if n = 0 then s.power.meanFrame else sum / n, frameSum := (0, 0), railLogged := [] } }

/-- A frame boundary now (R53 to R55, R60 to R67, R79, R81, R510, R511): `entry` says that the frame that ends was the 1.5 P of
a free-run entry. The period estimate is already the new one. -/
def State.boundary (s : State) (m : Measured) (entry : Bool) : State :=
  let f := s.frame
  let length := s.now - f.boundaryAt
  let two := f.earlyNow && f.earlyBefore
  let s := { s with frame := { f with
    counter := f.preset.getD (f.counter + 1), preset := none, boundaryAt := s.now, lastFreeEntry := entry,
    earlyBefore := f.earlyNow, earlyNow := false } }
  let s := if two && s.frame.locked then s.enterFreeRun else s
  (((s.settleFrame m length).powerFrame.applyWrites).effectiveGrants).paceBoundary.retune

/-- Remember an edge that is watched for a lock (R52). -/
def State.noteEdge (s : State) : State :=
  { s with frame := { s.frame with edges := (s.now :: s.frame.edges).take 3 } }

/-- The mean of the last accepted intervals (R49). -/
def meanOf (l : List Nat) : Nat := l.sum / l.length

/-- Two intervals between 1 ms and 100 ms that differ by at most 1 % of the smaller (R52). -/
def matching (i1 i2 : Nat) : Bool :=
  let inRange := fun (i : Nat) => decide (1000000 ≤ i) && decide (i ≤ 100000000)
  inRange i1 && inRange i2 && decide (100 * ((i1 : Int) - i2).natAbs ≤ min i1 i2)

/-- The module is out of reset with its supply good, so that it keeps frames (R49, R640). -/
def State.framing (s : State) : Bool := s.supply.good && !s.supply.inReset

end Sys2Proof.Machine
end

