-- ==== Sys2Proof/Machine/Formats.lean ====
section
/-! DEFINITION. Number formats and anchored accumulation: element values, products and terms, the anchor, output conversion,
stochastic rounding and anchored partials (R129 to R157). A finite value is m × 2^e with integers m and e. -/

namespace Sys2Proof.Machine

/-! ### Elements (R129 to R134) -/

/-- The value of an element. -/
inductive Elem where
  | nan
  | inf (neg : Bool)
  | fin (m e : Int)
deriving DecidableEq, Repr

/-- Which encodings of a float layout are special: none, one NaN code (E4M3), or IEEE infinities and NaNs. -/
inductive Specials where
  | none | oneNan | ieee
deriving DecidableEq, Repr

/-- A float of `eb` exponent and `mb` mantissa bits (R130, R131). -/
def decodeFloat (eb mb bias : Nat) (sp : Specials) (x : Nat) : Elem :=
  let neg := x.testBit (eb + mb)
  let ex := fieldN x mb eb
  let man := fieldN x 0 mb
  let sg : Int := if neg then -1 else 1
  let top := decide (ex = 2 ^ eb - 1)
  match sp with
  | .oneNan =>
    if top ∧ man = 2 ^ mb - 1 then .nan
    else if ex = 0 then .fin (sg * man) (1 - bias - mb) else .fin (sg * (2 ^ mb + man)) ((ex : Int) - bias - mb)
  | .ieee =>
    if top ∧ man = 0 then .inf neg
    else if top then .nan
    else if ex = 0 then .fin (sg * man) (1 - bias - mb) else .fin (sg * (2 ^ mb + man)) ((ex : Int) - bias - mb)
  | .none => if ex = 0 then .fin (sg * man) (1 - bias - mb) else .fin (sg * (2 ^ mb + man)) ((ex : Int) - bias - mb)

/-- The value of an element code of a type (R129 to R133). -/
def decodeElem (ty x : Nat) : Elem :=
  match ty with
  | 0 => decodeFloat 2 1 1 .none x
  | 1 => decodeFloat 2 3 1 .none x
  | 2 => decodeFloat 3 2 3 .none x
  | 3 => decodeFloat 4 3 7 .oneNan x
  | 4 => decodeFloat 5 2 15 .ieee x
  | 5 => .fin (sext 8 x) (-6)
  | 8 => .fin (sext 8 x) 0
  | 9 => decodeFloat 8 7 127 .ieee x
  | _ => decodeFloat 5 10 15 .ieee x

/-- Bits of an element (R129). -/
def elemBits (ty : Nat) : Nat :=
  match ty with
  | 0 => 4
  | 1 | 2 => 6
  | 9 | 10 => 16
  | _ => 8

/-- A type is one of the MX types. -/
def isMx (ty : Nat) : Bool := decide (ty ≤ 5)
/-- A type code that is not reserved (R129). -/
def typeOk (ty : Nat) : Bool := decide (ty ≤ 5) || ty == 8 || ty == 9 || ty == 10
/-- The pairing rule (R137). -/
def pairOk (a w : Nat) : Bool := typeOk a && typeOk w && ((isMx a && isMx w) || a == w)
/-- An output code permitted for the types (R149). -/
def outOk (a out : Nat) : Bool := if a == 8 then out == 3 || out == 4 else out == 0 || out == 1 || out == 2 || out == 4

/-- The bytes that `n` elements of a type take (R135). -/
def elemBytes (ty n : Nat) : Nat := divUp (n * elemBits ty) 8

/-- The `n` element codes stored in bytes (R135). -/
def elemCodes (ty n : Nat) (b : Bytes) : List Nat :=
  let x := leNat b
  (List.range n).map fun i => fieldN x (elemBits ty * i) (elemBits ty)

/-! ### Products and terms (R138 to R143) -/

/-- Half-width of the window, as the largest magnitude it holds (R139, R140). -/
def windowMax (wide : Bool) : Nat := if wide then 2 ^ 159 - 1 else 2 ^ 127 - 1

/-- m × 2^k rounded to the nearest integer, ties to even (R139). -/
def roundShift (m k : Int) : Int :=
  if 0 ≤ k then m * 2 ^ k.toNat
  else
    let q : Int := divNearest m.natAbs (2 ^ (-k).toNat)
    if m < 0 then -q else q

/-- m × 2^k is an integer. -/
def exactShift (m k : Int) : Bool := decide (0 ≤ k) || decide (m.natAbs % 2 ^ (-k).toNat = 0)

/-- Clamp to ± max. -/
def clampInt (max : Nat) (x : Int) : Int := if (max : Int) < x then max else if x < -(max : Int) then -(max : Int) else x

/-- Add one product of two elements whose scales' exponents sum to `sc` (none: a scale is NaN) to an accumulator (R138 to
R141, R150). -/
def Acc.addProduct (wide : Bool) (anchor : Int) (sc : Option Int) (acc : Acc) (a w : Elem) : Acc :=
  let acc := { acc with terms := acc.terms + 1 }
  match sc, a, w with
  | none, _, _ => { acc with nanSeen := true }
  | some _, .nan, _ => { acc with nanSeen := true }
  | some _, _, .nan => { acc with nanSeen := true }
  | some _, .inf s, .inf t => if s = t then { acc with posInf := true } else { acc with negInf := true }
  | some _, .inf s, .fin m _ =>
    if m = 0 then { acc with nanSeen := true }
    else if s = decide (m < 0) then { acc with posInf := true } else { acc with negInf := true }
  | some _, .fin m _, .inf s =>
    if m = 0 then { acc with nanSeen := true }
    else if s = decide (m < 0) then { acc with posInf := true } else { acc with negInf := true }
  | some s, .fin m e, .fin n f =>
    let p := m * n
    let k := e + f + s - anchor
    let t := roundShift p k
    let c := clampInt (windowMax wide) t
    { acc with
      sum := acc.sum + c
      ovfTerm := acc.ovfTerm || decide (c ≠ t)
      inexactTerm := acc.inexactTerm || !exactShift p k
      underTerm := acc.underTerm || (decide (p ≠ 0) && decide (t = 0)) }

/-- The limit of R141. -/
def termLimit : Nat := 2 ^ 32 - 1

/-! ### The anchor (R144, R145, R147, R148) -/

/-- q and m of an MX type (R144). -/
def anchorQ (ty : Nat) : Int :=
  match ty with | 0 => -1 | 1 => -3 | 2 => -4 | 3 => -9 | 4 => -16 | _ => -6
def anchorM (ty : Nat) : Nat :=
  match ty with | 0 => 12 | 1 => 60 | 2 => 448 | 3 => 229376 | 4 => 3758096384 | _ => 128

/-- Bits in the binary representation of x. -/
def bitlen (x : Nat) : Nat := if x = 0 then 0 else Nat.log2 x + 1

/-- δ of a pair of MX types (R144). -/
def anchorDelta (a w : Nat) : Int := anchorQ a + anchorQ w - 111 + bitlen (anchorM a * anchorM w)

/-- The exponent of a scale byte; none for the NaN (R134). -/
def scaleExp (b : Nat) : Option Int := if b = 255 then none else some ((b : Int) - 127)

/-- σ_max of the scales of the rows and columns, block by block (R144, R145). -/
def sigmaMax (as ws : List (List Nat)) (blocks : Nat) : Int :=
  let best := fun (l : List (List Nat)) (b : Nat) =>
    (l.filterMap fun r => scaleExp (r.getD b 255)).foldl (fun (m : Option Int) x => some (match m with | some y => max x y | none => x)) none
  let all := (List.range blocks).filterMap fun b =>
    match best as b, best ws b with
    | some x, some y => some (x + y)
    | _, _ => none
  (all.foldl (fun (m : Option Int) x => some (match m with | some y => max x y | none => x)) none).getD (-254)

/-! ### Stochastic rounding (R153) -/

def mix64 (z : Word) : Word :=
  let z := (z ^^^ (z >>> 30)) * 0xBF58476D1CE4E5B9
  let z := (z ^^^ (z >>> 27)) * 0x94D049BB133111EB
  z ^^^ (z >>> 31)

/-- The draw of R153. -/
def draw (seed index : Word) : Nat := ((mix64 (seed ^^^ mix64 (index + 0x9E3779B97F4A7C15))) >>> 32).toNat

/-! ### Output conversion (R149 to R154) -/

/-- The flags of MX_ACC_STATUS that a conversion sets (R158). -/
def stOvfTerm : BitVec 9 := 0x001
def stOvfSum : BitVec 9 := 0x002
def stOvfOut : BitVec 9 := 0x004
def stInexactTerm : BitVec 9 := 0x008
def stUnderTerm : BitVec 9 := 0x010
def stInexactOut : BitVec 9 := 0x020
def stNanOut : BitVec 9 := 0x040
def stInfOut : BitVec 9 := 0x080
def stScaleNan : BitVec 9 := 0x100

/-- Round the magnitude a × 2^alpha to a float layout: the magnitude's bits without the sign, whether it is exact and whether
it overflowed to the largest finite value (R151, R154). `u` is the draw when rounding is stochastic. -/
def roundFloat (eb mb bias : Nat) (u : Option Nat) (a : Nat) (alpha : Int) : Nat × Bool × Bool :=
  let emin : Int := 1 - bias - mb
  let p : Int := (bitlen a : Int) - 1 + alpha
  let q : Int := max (p - mb) emin
  let (n, rem, den) :=
    if q ≤ alpha then (a * 2 ^ (alpha - q).toNat, 0, 1)
    else
      let d := 2 ^ (q - alpha).toNat
      (a / d, a % d, d)
  let up := match u with
    | none => decide (den < 2 * rem) || (decide (2 * rem = den) && decide (n % 2 = 1))
    | some u => decide (2 ^ 32 ≤ rem * 2 ^ 32 / den + u)
  let r := if rem = 0 then n else if up then n + 1 else n
  let bits := (q - emin).toNat * 2 ^ mb + r
  let big := (2 ^ eb - 1) * 2 ^ mb
  if big ≤ bits then (big - 1, false, true) else (bits, decide (rem = 0), false)

/-- Exponent bits, mantissa bits and bias of output codes 0 to 2 (R149). -/
def outLayout (out : Nat) : Nat × Nat × Nat :=
  match out with
  | 0 => (8, 23, 127)
  | 1 => (8, 7, 127)
  | _ => (5, 10, 15)

/-- The bits of the canonical quiet NaN and of +∞ of an output code (R150). -/
def outNan (out : Nat) : Nat := match out with | 0 => 0x7FC00000 | 1 => 0x7FC0 | _ => 0x7E00
def outInf (out : Nat) : Nat := match out with | 0 => 0x7F800000 | 1 => 0x7F80 | _ => 0x7C00

/-- Bytes of an output element (R193). -/
def outBytes (out : Nat) : Nat := match out with | 0 | 3 => 4 | 4 => 32 | _ => 2

/-- The anchored partial of an accumulator (R156), as a number of 256 bits. -/
def partialBits (anchor : Int) (wide : Bool) (acc : Acc) : Nat :=
  let bit := fun (b : Bool) (i : Nat) => if b then 2 ^ i else 0
  (BitVec.ofInt 192 acc.sum).toNat + (BitVec.ofInt 16 anchor).toNat * 2 ^ 192 + bit wide 208 + bit acc.nanSeen 209 +
    bit acc.posInf 210 + bit acc.negInf 211 + bit acc.ovfTerm 212 + bit acc.inexactTerm 213 + bit acc.underTerm 214 +
    acc.terms % 2 ^ 32 * 2 ^ 224

/-- An anchored partial read back: anchor, grid and accumulator; reserved bits ignored (R156). -/
def partialOf (x : Nat) : Int × Bool × Acc :=
  (sext 16 (fieldN x 192 16), x.testBit 208,
    { sum := sext 192 (fieldN x 0 192), terms := fieldN x 224 32, underTerm := x.testBit 214, inexactTerm := x.testBit 213,
      ovfTerm := x.testBit 212, negInf := x.testBit 211, posInf := x.testBit 210, nanSeen := x.testBit 209 })

/-- Two accumulators of one anchor and grid combined (R157). -/
def Acc.join (a b : Acc) : Acc :=
  { sum := a.sum + b.sum, terms := a.terms + b.terms, underTerm := a.underTerm || b.underTerm,
    inexactTerm := a.inexactTerm || b.inexactTerm, ovfTerm := a.ovfTerm || b.ovfTerm, negInf := a.negInf || b.negInf,
    posInf := a.posInf || b.posInf, nanSeen := a.nanSeen || b.nanSeen }

/-- The flags of MX_ACC_STATUS that the terms of accumulators set (R140, R143, R158). -/
def termFlags (l : List Acc) : BitVec 9 :=
  (if l.any (·.ovfTerm) then stOvfTerm else 0) ||| (if l.any (·.inexactTerm) then stInexactTerm else 0) |||
    (if l.any (·.underTerm) then stUnderTerm else 0)

/-- Convert a final sum to an output element: its bytes and the flags it sets (R142, R149 to R155). `u` is the draw when the
tile rounds stochastically. -/
def convertOut (out : Nat) (wide : Bool) (anchor : Int) (u : Option Nat) (acc : Acc) : Bytes × BitVec 9 :=
  if out = 4 then (leBytes 32 (partialBits anchor wide acc), 0)
  else
    let s := clampInt (windowMax wide) acc.sum
    let fsum := if s = acc.sum then 0 else stOvfSum
    if out = 3 then
      let c : Int := max (-2147483648) (min 2147483647 s)
      (leBytes 4 (BitVec.ofInt 32 c).toNat, fsum ||| (if c = s then 0 else stOvfOut))
    else
      let n := outBytes out
      if acc.nanSeen || (acc.posInf && acc.negInf) then (leBytes n (outNan out), fsum ||| stNanOut)
      else if acc.posInf then (leBytes n (outInf out), fsum ||| stInfOut)
      else if acc.negInf then (leBytes n (outInf out + 2 ^ (8 * n - 1)), fsum ||| stInfOut)
      else if s = 0 then (leBytes n 0, fsum)
      else
        let (eb, mb, bias) := outLayout out
        let (bits, same, big) := roundFloat eb mb bias u s.natAbs anchor
        let sign := if s < 0 then 2 ^ (8 * n - 1) else 0
        (leBytes n (sign + bits), fsum ||| (if same then 0 else stInexactOut) ||| (if big then stOvfOut else 0))

end Sys2Proof.Machine
end

