-- ==== Sys2Proof/Machine/HandoffOps.lean ====
section
/-! DEFINITION. Handoff slots: entries, states, reports, packets, zeroization and the transitions they share (R516 to R536). -/

namespace Sys2Proof.Machine

/-! ### Slot entries (R516, R517) -/

def stIdle : Nat := 0
def stArmed : Nat := 1
def stCommitted : Nat := 2
def stOffered : Nat := 3
def stTaken : Nat := 4
def stQuery : Nat := 5
def stReleased : Nat := 6
def stOwned : Nat := 7
def stWon : Nat := 8
def stLost : Nat := 9
def stFailed : Nat := 10

def slotTerminal (st : Nat) : Bool := decide (6 ≤ st) && decide (st ≤ 10)

def Slot.dir (x : Slot) : Nat := leAt x.entry 0 1 % 4
def Slot.peer (x : Slot) : Nat := leAt x.entry 2 2
def Slot.epoch (x : Slot) : Nat := leAt x.entry 4 4
def Slot.request (x : Slot) : Nat := leAt x.entry 8 8
def Slot.window (x : Slot) : Nat := leAt x.entry 0x10 1
def Slot.layers (x : Slot) : Nat := leAt x.entry 0x11 1
def Slot.asid (x : Slot) : Nat := leAt x.entry 0x12 2 % 4096
/-- LAYER_LEN in bytes. -/
def Slot.layerLen (x : Slot) : Nat := leAt x.entry 0x14 4 * 65536
def Slot.stateVa (x : Slot) : Nat := leAt x.entry 0x18 8
def Slot.bind (x : Slot) : Nat := leAt x.entry 0x20 8
def Slot.bindQueue (x : Slot) : Nat := fieldN x.bind 36 12
def Slot.bindSeq (x : Slot) : Nat := fieldN x.bind 0 36
def Slot.pfVa (x : Slot) : Nat := leAt x.entry 0x28 8
def Slot.pfLayers (x : Slot) : Nat := leAt x.entry 0x30 1
def Slot.timeout (x : Slot) : Nat := leAt x.entry 0x31 1
def Slot.fenceNo (x : Slot) : Nat := leAt x.entry 0x32 2
def Slot.heldMs (x : Slot) : Nat := leAt x.entry 0x34 2
def Slot.bight (x : Slot) : Nat := leAt x.entry 0x36 1
def Slot.fenceValue (x : Slot) : Nat := leAt x.entry 0x38 8
/-- The state range in bytes (R517). -/
def Slot.range (x : Slot) : Nat := x.layers * x.layerLen

def State.handoffBase (s : State) : Nat := s.handoff.region.toNat / 65536 % 2 ^ 32 * 65536
def State.handoffOn (s : State) : Bool := s.handoff.region.getLsbD 0

/-- The state a slot comes to once its waiting transitions are done: what a later event finds (R530, R531, log 111). -/
def Slot.ahead (x : Slot) : Nat := match x.waiting.getLast? with | some (_, st, _) => st | none => x.state

/-- The STATE byte of a slot (R517). -/
def Slot.stateByte (x : Slot) : Byte := BitVec.ofNat 8 ((if x.zeroizing then 128 else 0) + x.state)

/-- Put a slot in the module's own record and copy its state into the entry's STATE byte (R516). -/
def State.putSlot (s : State) (i : Nat) (x : Slot) : State :=
  let x := { x with entry := splice x.entry 1 [x.stateByte] }
  (s.setSlot i x).ownWrite (s.handoffBase + 64 * i + 1) [x.stateByte]

/-- Address of a slot's counter of layer l (R516). -/
def State.layerAddr (s : State) (i l : Nat) : Nat := s.handoffBase + 0x4000 + i * 0x400 + 4 * l
/-- A layer counter. -/
def State.layerCount (s : State) (i l : Nat) : Nat := leNat ((s.peek (s.layerAddr i l) 4).getD [0, 0, 0, 0])
def State.setLayer (s : State) (i l n : Nat) : State := s.ownWrite (s.layerAddr i l) (leBytes 4 n)
/-- Set every layer counter of a slot to zero. -/
def State.clearLayers (s : State) (i : Nat) : State :=
  s.ownWrite (s.layerAddr i 0) (List.replicate 1024 0)

/-! ### The slot fence (R535) -/

def State.slotSignal (s : State) (x : Slot) : State :=
  match s.bindFence x.fenceNo with
  | some (f, inc) => s.signalFence f inc x.fenceValue ((s.contextFn x.asid).getD 0) 0 0
  | none => s

def State.slotBreak (s : State) (x : Slot) (code : Nat) : State :=
  match s.bindFence x.fenceNo with
  | some (f, inc) => s.breakFence f inc code 0
  | none => s

/-! ### Reports (R530) -/

/-- The 16 bytes of a report (R530). -/
def reportBytes (i : Nat) (x : Slot) (kind : Nat) : Bytes :=
  leBytes 8 x.request ++ leBytes 4 x.epoch ++ leBytes 1 i ++ leBytes 1 kind ++ leBytes 2 x.peer

/-- The report queue has room for one more report. -/
def State.reportRoom (s : State) : Bool := decide (s.handoff.reports.length < 64)

/-- The reports of a transition: a sending slot that is WON without a local copy posts two, WON and NO_COPY (R530, R534). -/
def Slot.reportsOf (x : Slot) (kind : Nat) : Nat := if kind = 7 ∧ x.stateVa = 0 then 2 else 1

/-- The report queue has room for the reports of a transition. -/
def State.roomFor (s : State) (i kind : Nat) : Bool :=
  decide (s.handoff.reports.length + (s.slot i).reportsOf kind ≤ 64)

def State.postReport (s : State) (i kind : Nat) : State :=
  let h := s.handoff
  let queries := if kind = 6 then h.queries + 1 else h.queries
  { s with handoff := { h with
      reports := h.reports ++ [(h.nextReport, reportBytes i (s.slot i) kind)], nextReport := h.nextReport + 1,
      queries := queries } }

/-! ### Packets (R525, R526) -/

/-- The port a slot's packets leave by: the lowest usable one of the outbound window's mask, or of BIND. -/
def State.slotPort (s : State) (x : Slot) : Option Nat :=
  let mask := if x.dir = 1 then (s.outWin x.window).ports else BitVec.ofNat 64 (x.bind % 2 ^ 48)
  (bitsOf mask).find? fun p => decide (p < 48) && s.portUsable p

/-- Send a handoff packet of a slot: OFFER 0x10, TAKEN 0x11, RELEASE 0x12; without a port it is not sent (R526). An OFFER names the
window at the peer and the pushing command, and no receiver slot, which its sender does not know; the others leave the header's
fields zero (R481, R525). -/
def State.slotPacket (s : State) (i ty : Nat) : State :=
  let x := s.slot i
  match s.slotPort x with
  | none => s
  | some p =>
    let (snd, rcv) := if x.dir = 1 then (i, if ty = 0x10 then 0xFF else x.peerSlot) else (x.peerSlot, i)
    let payload := leBytes 8 x.request ++ leBytes 4 x.epoch ++ leBytes 1 snd ++ leBytes 1 rcv ++ leBytes 2 0
    let h : Header := { ty, len := 16, dst := x.peer, src := s.fabric.number,
                        epoch := if ty = 0x10 then epochOf x.bindQueue x.bindSeq else 0,
                        attempt := if ty = 0x10 then x.attempt else 0, window := if ty = 0x10 then (s.outWin x.window).window else 0 }
    s.sendPacket p h payload

/-! ### Zeroization (R534) -/

/-- The leaves of the pages of a virtual range in a context, as the tables give them, with the page's address. -/
def State.leavesOf (s : State) (asid va n : Nat) : List (Nat × Nat × BitVec 128) :=
  (List.range (divUp n 65536)).filterMap fun i =>
    match (s.walk (whoLooks asid) (va + 65536 * i)).1 with
    | .leaf level leaf _ _ _ => some (va + 65536 * i, level, leaf)
    | _ => none

/-- The local state range of a slot: its start and length; length 0 when a sending slot has no copy. -/
def Slot.local (x : Slot) : Nat × Nat := if x.dir = 1 ∧ x.stateVa = 0 then (0, 0) else (x.stateVa, x.range)

/-- The pages a slot zeroizes: the state range, and on the receiving side the prefetch target. -/
def State.slotPages (s : State) (x : Slot) : List (Nat × Nat × BitVec 128) :=
  let (a, n) := x.local
  s.leavesOf x.asid a n ++ (if x.dir = 2 && x.pfLayers != 0 then s.leavesOf x.asid x.pfVa (x.pfLayers * x.layerLen) else [])

/-- Begin to zeroize a slot: ZEROIZING is set and every command that holds an object of the pages is killed (R534). -/
def State.zeroize (s : State) (i : Nat) : State :=
  let x := s.slot i
  if x.dir = 1 && x.stateVa == 0 then s
  else
    let s := s.putSlot i { x with zeroizing := true }
    (s.slotPages x).foldl (fun s e =>
      let o := s.object (leafF e.2.2 44 20)
      if leafShadow e.2.2 && o.isOpen then s.failAlways o.queue o.seq codeHandoffLost else s) s

/-! ### Transitions (R527, R529 to R531) -/

/-- What a transition does once its report is posted, by the report's kind (R527, R529, R531, R535, R536). -/
def State.slotAct (s : State) (i kind code : Nat) : State :=
  let x := s.slot i
  match kind with
  | 1 => s.slotPacket i 0x10
  | 3 => s.slotPacket i 0x11
  | 4 => ((s.slotSignal x).slotPacket i 0x12).zeroize i
  | 5 => s.slotSignal x
  | 7 =>
    let s := s.slotBreak x code
    if x.stateVa ≠ 0 then s else s.postReport i 11
  | 8 => (s.slotBreak x code).zeroize i
  | 9 => (s.slotBreak x code).zeroize i
  | 10 => if code = codeHandoffAborted ∧ x.dir ≠ 2 then s.slotBreak x code else (s.slotBreak x code).zeroize i
  | _ => s

/-- A transition of a slot takes place: its report is posted, the slot comes to its new state and what the transition does
follows (R530). -/
def State.slotMove (s : State) (i kind st code : Nat) : State :=
  let s := s.postReport i kind
  let x := s.slot i
  let s := s.putSlot i { x with
    state := st, timerAt := s.now, before := if st = stQuery && x.state != stQuery then x.state else x.before
    sentAt := if kind = 1 || kind = 3 then s.now else x.sentAt }
  s.slotAct i kind code

/-- A transition of a slot with a report: while the report queue is full, or an earlier transition of the slot waits, it waits behind
that in the slot's old state (R530, log 111). -/
def State.slotGo (s : State) (i kind st code : Nat) : State :=
  if (s.slot i).waiting.isEmpty && s.roomFor i kind then s.slotMove i kind st code
  else
    let s := s.modSlot i fun x => { x with waiting := x.waiting ++ [(kind, st, code)] }
    { s with handoff := { s.handoff with delayed := s.handoff.delayed + 1 } }

/-- Let up to `n` delayed transitions of a slot take place in their order, while there is room for their reports (R530). -/
def State.slotDrain (s : State) (i : Nat) : Nat → State
  | 0 => s
  | n + 1 =>
    let s := State.slotDrain s i n
    match (s.slot i).waiting with
    | (kind, st, code) :: rest =>
      if s.roomFor i kind then (s.modSlot i fun x => { x with waiting := rest }).slotMove i kind st code else s
    | [] => s

/-- Let delayed transitions post their reports while there is room, in slot order (R530). -/
def State.slotWaiting (s : State) : State :=
  (Tab.keys s.handoff.slots).foldl (fun s i => s.slotDrain i (s.slot i).waiting.length) s

/-- The send slots bound to a command (R517). -/
def State.slotsBound (s : State) (q seq : Nat) : List Nat :=
  (Tab.keys s.handoff.slots).filter fun i =>
    let x := s.slot i
    x.dir == 1 && x.ahead == stArmed && x.bindQueue == q && x.bindSeq == seq

/-- The receive slots whose handoff RECV a command is (R520). -/
def State.slotsRecv (s : State) (q seq : Nat) : List Nat :=
  (Tab.keys s.handoff.slots).filter fun i => (s.slot i).recv == some (q, seq)

/-- The handoff side of a command's commit point (R527). -/
def State.slotCommit (s : State) (q seq attempt : Nat) : State :=
  let s := (s.slotsBound q seq).foldl (fun s i =>
    (s.modSlot i fun x => { x with attempt := attempt % 256 }).slotGo i 1 stOffered 0) s
  (s.slotsRecv q seq).foldl (fun s i =>
    let x := s.slot i
    if x.ahead = stArmed then
      if x.offer.isSome then s.slotGo i 3 stTaken 0 else s.slotGo i 2 stCommitted 0
    else s) s

/-- The handoff side of a command that ends without committing (R527). -/
def State.slotEnd (s : State) (q seq : Nat) : State :=
  let s := (s.slotsBound q seq).foldl (fun s i => s.slotGo i 10 stFailed codeHandoffAborted) s
  (s.slotsRecv q seq).foldl (fun s i =>
    if (s.slot i).ahead = stArmed then s.slotGo i 10 stFailed codeHandoffAborted else s) s

/-- An event ends a slot (R536): FAILED, OWNER_GONE, FAILED report, zeroization. -/
def State.slotGone (s : State) (i code : Nat) : State :=
  let x := s.slot i
  if x.ahead = stIdle ∨ slotTerminal x.ahead then s else s.slotGo i 10 stFailed code

end Sys2Proof.Machine
end

