-- ==== Sys2Proof/Machine/ReqOps.lean ====
section
/-! DEFINITION. Starting a translated access, over a circuit of its bight where it takes one, and what it meets at its target: the
port gate of a channel group, SRAM, host memory, or a link port (R197, R222, R248, R317, R334, R336, R341, R385, R389, R489). -/

namespace Sys2Proof.Machine

/-! ### The access -/

/-- What is common to the requests of one access: who makes it, who waits for it, its master and its deadline. -/
structure Access where
  who : Who
  owner : Owner
  master : Nat
  deadline : BitVec 24
  write : Bool
  reduce : Bool := false
  va : Nat
  len : Nat
  data : Bytes := []
deriving DecidableEq, Repr

/-- The request of an access, before it goes anywhere. -/
def Access.req (a : Access) (t : Target) (fn : Nat) (key : Option (Nat × Bool)) : Req :=
  { id := 0, owner := a.owner, target := t, write := a.write, len := a.len, data := a.data, master := a.master,
    cls := a.who.cls, deadline := a.deadline, key, reduce := a.reduce, asid := a.who.asid, page := a.va / 65536,
    fn, pay := (match a.who.payer with | .cmd b q n => some (b, q, n) | _ => none) }

/-- The epoch and attempt that a command's packets carry (R481, R496). -/
def State.epochOfWho (s : State) (w : Who) : Nat × Nat :=
  match w.cmd with
  | some (q, n) => (epochOf q n, ((s.cmd? q n).map (·.attempt)).getD 0)
  | none => (0, 0)

/-- The request of an access to the destination that translation found. -/
def State.reqFor (s : State) (a : Access) (d : Dest) : Req :=
  match d with
  | .phys addr key fn => a.req (.hbm addr) fn (match regionOf addr with | .hbm _ => key | _ => none)
  | .host fn port addr => a.req (.host fn port addr) fn none
  | .remote win off =>
    let (ep, att) := s.epochOfWho a.who
    { a.req (.remote win off 48 0) 0 none with epoch := ep, attempt := att }

/-- The bight whose circuits carry a request: that of a DMA transfer or far access (R248). -/
def Req.bight (r : Req) : Option Nat :=
  match r.owner with
  | .piece _ _ _ => r.pay.map (·.1)
  | .far _ => r.pay.map (·.1)
  | _ => none

/-! ### At its target (R12, R33, R318, R341, R389, R429, R489) -/

/-- A request has come to its target in module memory: a bus error and an SRAM access are over at once; an HBM access waits at its
gate and wakes a stack in LOW. -/
def State.landPhys (s : State) (r : Req) (addr : Nat) : Option ReqResult × State :=
  match s.accessError addr r.len with
  | some e => (some (.busError e), s)
  | none =>
    match regionOf addr with
    | .hbm g => (none, (s.gateReq g r.id).wakeStack (stackOfGroup g))
    | _ =>
      if r.write then
        match s.physWrite r.agent none r.payer addr r.data with
        | (none, s) => (some .stored, s)
        | (some e, s) => (some (.busError e), s)
      else
        match s.physRead r.agent none r.payer addr r.len with
        | (.ok d, s) => (some (.data d), s)
        | (.error e, s) => (some (.busError e), s)

/-- A request has come to a PCIe port: a write is posted (R389); a port whose link is down answers with a host error (R429). -/
def State.landHost (s : State) (r : Req) (fn port addr : Nat) : Option ReqResult × State :=
  if !s.host.linkUp.contains port then (some .hostError, s)
  else if r.write then (some .stored, s.hostWriteVia fn port addr r.data)
  else (none, s.send (.hostRead fn port addr r.len))

/-- The port that a request leaves by: the one its circuit leads to, or what its offset chooses; it leaves by another port of the
window when its own is down (R480, R489, R492). -/
def State.portOfReq (s : State) (r : Req) (win off : Nat) : Option Nat :=
  match r.circ.bind s.circuit? with
  | some c => if s.portUsable c.target then some c.target else s.portFor win off r.bight
  | none => s.portFor win off r.bight

/-- The virtual address of a request to a window's offset: it was translated from a page of which the offset keeps the low bits. -/
def Req.vaAt (r : Req) (off : Nat) : Nat := r.page * 65536 + off % 65536

/-- No port of a request's window is usable any more: it faults with NOT_LASHED where it was made (R489, log 196). A transfer's piece
stops at the fault and its request is forgotten; a far access stalls its core, and its request waits to be resent. -/
def State.faultRemote (s : State) (r : Req) (off : Nat) : Option ReqResult × State :=
  let va := r.vaAt off
  match r.owner with
  | .piece qn n i =>
    (match s.queue? qn with
      | some q =>
        (match q.cmd? n with
          | some c =>
            (match c.pieces[i]? with
              | some p =>
                let s := s.faultFor (s.whoStream qn q c p.iota p.stream) va r.write rNotLashed
                (none, (s.dropReq r.id).modCmd qn n fun c => { c with
                  pieces := modifyAt (fun (p : Piece) => { p with state := .faulted r.write r.data }) c.pieces i })
              | none => (some .linkDown, s))
          | none => (some .linkDown, s))
      | none => (some .linkDown, s))
  | .far core =>
    (match r.pay.bind fun e => (s.queue? e.2.1).bind fun q => (q.cmd? e.2.2).map fun c => (e.2.1, q, c) with
      | some (qn, q, c) =>
        let s := s.faultFor (whoCore qn q c core) va r.write rNotLashed
        let s := s.modReq r.id fun r => { r with resend := true, notReady := some (r.notReady.getD s.now) }
        (none, s.modCore core fun k => { k with stall := some (.fault, s.now) })
      | none => (some .linkDown, s))
  | _ => (some .linkDown, s)

/-- A request has come to a link port: its packet leaves; a command remembers where it has written (R489, R497). -/
def State.landRemote (s : State) (r : Req) (win off : Nat) : Option ReqResult × State :=
  match s.portOfReq r win off with
  | none => s.faultRemote r off
  | some p =>
    let s := s.sendRemote r win off p
    match r.bight, r.pay with
    | some _, some (_, q, n) => (none, if r.write then s.notePeer q n win r.id else s)
    | _, _ => (none, s)

/-- A request has come to its target: its result, where that is known at once. -/
def State.land (s : State) (r : Req) : Option ReqResult × State :=
  match r.target with
  | .hbm addr => s.landPhys r addr
  | .host fn port addr => s.landHost r fn port addr
  | .remote win off _ _ => s.landRemote r win off

/-! ### On its way (R197, R222, R248) -/

/-- The circuit of a bight that carries an access: none within the requester's own cluster, or to the SRAM of a cluster that is no
member, which no circuit reaches (R45, R248, log 189). -/
def State.circuitFor (s : State) (b : Option Nat) (t : Target) (near : Option Nat) : Option CircRef :=
  match b with
  | none => none
  | some b =>
    match t with
    | .hbm addr =>
      (match regionOf addr with
        | .hbm g => s.circuitTo b 0 g near
        | .sram c => if near = some c then none else s.circuitInto b c near
        | _ => none)
    | .host _ port _ => s.circuitTo b 2 port near
    | .remote win off _ _ => (s.portFor win off (some b)).bind fun p => s.circuitTo b 1 p near

/-- Start an access at the destination that translation found; the answer is its request number. It goes to its circuit's sending
port, or, where it takes no circuit, to its target at once. -/
def State.startAccess (s : State) (a : Access) (d : Dest) : Nat × State :=
  let r := s.reqFor a d
  let x := s.circuitFor r.bight r.target a.who.requester.near
  match x, x.bind s.circuit? with
  | some x, some c =>
    let (id, s) := s.addReq { r with circ := some x, stage := .away }
    (id, (s.refKey r true).sendVec c x.back id .pending)
  | _, _ =>
    let (id, s) := s.addReq r
    match (s.refKey r true).land { r with id := id } with
    | (some res, s) => (id, s.settle id res)
    | (none, s) => (id, s)

end Sys2Proof.Machine
end

