-- ==== Sys2Proof/Machine/CircuitOps.lean ====
section
/-! DEFINITION. The transit plane: slots, the lay of circuit pairs, gate routers and walker circuits (R219 to R226, R256,
R356). -/

namespace Sys2Proof.Machine

/-! ### Slots (R220, R221, R223) -/

/-- Transit slots in use, one bit for each of the 1,024 slots: mesh output `o` of router r at 4r + o − 1, what the D port of
router r sends at 32,768 + r, what it delivers at 40,960 + r. -/
abbrev Occ := Array (BitVec 1024)

def occEmpty : Occ := Array.replicate 49152 0
def Occ.used (o : Occ) (k j : Nat) : Bool := (o.getD k 0).getLsbD j
def Occ.take (o : Occ) (k j : Nat) : Occ := o.setIfInBounds k ((o.getD k 0) ||| (1 <<< j))

/-- A router has a D port (R197). -/
def hasDPort (r : Nat) : Bool := coreK r % 5 == 0

/-- What a lay that starts in slot j0 uses: the output of every hop i in slot j0 + i, the D ports at its ends, and the one delivery
in a slot of an end router that has a D port, to whichever port (R220, R221). -/
def layCells (path : List Nat) (dStart dEnd : Bool) (j0 : Nat) : List (Nat × Nat) :=
  let hops := path.zip (path.drop 1)
  (hops.zipIdx.map fun e => (4 * e.1.1 + outTowards e.1.1 e.1.2 - 1, (j0 + e.2) % 1024)) ++
    (if dStart then [(32768 + path.headD 0, j0 % 1024)] else []) ++
    (if dEnd || hasDPort (path.getLastD 0) then [(40960 + path.getLastD 0, (j0 + hops.length) % 1024)] else [])

/-- Try the slots from j0 upwards until `n` are reserved (R223). -/
def layFrom (path : List Nat) (dStart dEnd : Bool) : Nat → Nat → Nat → List Nat → Occ → Option (List Nat × Occ)
  | 0, _, n, got, o => if n = 0 then some (got, o) else none
  | fuel + 1, j0, n, got, o =>
    if n = 0 then some (got, o)
    else
      let cells := layCells path dStart dEnd j0
      if cells.any fun c => o.used c.1 c.2 then layFrom path dStart dEnd fuel (j0 + 1) n got o
      else layFrom path dStart dEnd fuel (j0 + 1) (n - 1) (got ++ [j0]) (cells.foldl (fun o c => o.take c.1 c.2) o)

/-- Whether a circuit starts and ends at a D port: kinds 0 to 2 run from a D port to a gate, 3 between D ports, 4 between
gates. -/
def dEnds (kind : Nat) : Bool × Bool := (kind != 4, kind == 3)

/-- The slots of one direction of a circuit. -/
def Lay.mark (l : Lay) (d : Bool × Bool) (o : Occ) : Occ :=
  l.slots.foldl (fun o j => (layCells l.path d.1 d.2 j).foldl (fun o c => o.take c.1 c.2) o) o

def Circuit.mark (c : Circuit) (o : Occ) : Occ := c.back.mark (dEnds c.kind).swap (c.out.mark (dEnds c.kind) o)

/-- The slots that the module's circuits use, inactive ones included (R268). -/
def State.occupancy (s : State) : Occ := s.mesh.circuits.foldl (fun o c => c.mark o) occEmpty

/-- The largest divider of the half-dies on a path (R224). -/
def State.pathDiv (s : State) (path : List Nat) : Nat := (path.map fun r => s.divOf (halfOfRouter r)).foldl max 1

/-- The half-dies on a path (R226). -/
def pathHalves (path : List Nat) : List Nat := (path.map halfOfRouter).dedup

/-- A circuit without its lay. -/
structure CircuitPlan where
  owner : Nat
  inactive : Bool
  kind : Nat
  target : Nat
  src : Nat
  srcNum : Nat
  dst : Nat
  dstNum : Nat
  nOut : Nat
  nBack : Nat

/-- Lay both directions of a pair over the paths that `route` gives (R223); none when slots are short. -/
def State.layPair (s : State) (route : Nat → Nat → List Nat) (p : CircuitPlan) (o : Occ) : Option (Circuit × Occ) :=
  let d := dEnds p.kind
  let there := route p.src p.dst
  let home := route p.dst p.src
  match layFrom there d.1 d.2 1024 0 p.nOut [] o with
  | none => none
  | some (a, o) =>
    match layFrom home d.2 d.1 1024 0 p.nBack [] o with
    | none => none
    | some (b, o) =>
      some ({ owner := p.owner, inactive := p.inactive, kind := p.kind, target := p.target, src := p.src, srcNum := p.srcNum,
              dst := p.dst, dstNum := p.dstNum, out := ⟨there, a, s.pathDiv there⟩, back := ⟨home, b, s.pathDiv home⟩,
              slotsOut := p.nOut, slotsBack := p.nBack, creditsOut := 8, creditsBack := 8 }, o)

/-! ### Gate routers (R219, R256) -/

/-- The gate routers of an attachment: of a channel group, a link port or a PCIe port. -/
def gatesOf (kind target : Nat) : List Nat :=
  match kind with
  | 0 => gatesOfGroup target
  | 1 => gatesOfPort target
  | _ => gatesOfPcie target

/-- Gate routers in the order in which they are tried from a source: ascending distance, then (v, u); the source itself is
passed over. -/
def gateOrder (src : Nat) (gates : List Nat) : List Nat :=
  (gates.filter (· != src)).mergeSort fun a b =>
    let da := manhattan src a
    let db := manhattan src b
    decide (da < db) || (da == db && (decide (coreY a % 16 < coreY b % 16) ||
      (coreY a % 16 == coreY b % 16 && decide (coreX a % 16 ≤ coreX b % 16))))

/-- The circuit numbers in use at the gate port of a router. -/
def gateNumbers (cs : List Circuit) (r : Nat) : List Nat :=
  cs.flatMap fun c =>
    (if c.kind != 3 && c.dst == r then [c.dstNum] else []) ++ (if c.kind == 4 && c.src == r then [c.srcNum] else [])

/-- The lowest free circuit number of a gate port. -/
def freeNumber (cs : List Circuit) (r : Nat) : Option Nat :=
  let u := gateNumbers cs r
  (List.range 256).find? fun n => !u.contains n

/-- How laying one circuit ends (R256). -/
inductive LayRes where
  | ok (c : Circuit) (o : Occ)
  | noCircuits
  | noSlots

/-- Lay a pair to an attachment, trying its gate routers in order (R256). -/
def State.layGates (s : State) (cs : List Circuit) (o : Occ) (p : CircuitPlan) : List Nat → Bool → LayRes
  | [], hadNumber => if hadNumber then .noSlots else .noCircuits
  | g :: rest, hadNumber =>
    match freeNumber cs g with
    | none => s.layGates cs o p rest hadNumber
    | some n =>
      match s.layPair pathXY { p with dst := g, dstNum := n } o with
      | some (c, o) => .ok c o
      | none => s.layGates cs o p rest true

/-- Lay one circuit of a bight (R256). -/
def State.layCircuit (s : State) (cs : List Circuit) (o : Occ) (p : CircuitPlan) : LayRes :=
  if p.kind = 3 then
    match s.layPair pathXY p o with
    | some (c, o) => .ok c o
    | none => .noSlots
  else s.layGates cs o p (gateOrder p.src (gatesOf p.kind p.target)) false

/-- Lay circuits in order; the first failure ends the lay with its result code (R258). -/
def State.layAll (s : State) : List CircuitPlan → List Circuit → Occ → Except Nat (List Circuit)
  | [], cs, _ => .ok cs
  | p :: rest, cs, o =>
    match s.layCircuit cs o p with
    | .ok c o => s.layAll rest (cs ++ [c]) o
    | .noCircuits => .error 0x09
    | .noSlots => .error 0x08

/-! ### Walker circuits (R356) -/

/-- A path crosses a half-die that is OFF or on its way there. -/
def State.crossesOff (s : State) (avoid : List Nat) (path : List Nat) : Bool :=
  (pathHalves path).any fun h => avoid.contains h || !s.domIs (domHalf h) .on

/-- The route of a walker circuit: along x first, unless that crosses a half-die that is OFF or about to be. -/
def State.walkerRoute (s : State) (avoid : List Nat) (a b : Nat) : List Nat :=
  if s.crossesOff avoid (pathXY a b) then pathYX a b else pathXY a b

/-- Lay the walker circuit of a half-die to a channel group: one slot each way, to the nearest gate router that takes it. -/
def State.layWalker (s : State) (avoid : List Nat) (cs : List Circuit) (o : Occ) (h g : Nat) : Option (Circuit × Occ) :=
  let src := walkerGate h
  match freeNumber cs src with
  | none => none
  | some n =>
    (gateOrder src (gatesOfGroup g)).findSome? fun dst =>
      match freeNumber cs dst with
      | none => none
      | some m =>
        let plan : CircuitPlan := { owner := 256, inactive := false, kind := 4, target := g, src, srcNum := n, dst, dstNum := m,
                                    nOut := 1, nBack := 1 }
        let route := s.walkerRoute avoid
        if s.crossesOff avoid (route src dst) || s.crossesOff avoid (route dst src) then none
        else s.layPair route plan o

/-- Lay the walker circuits that are missing, among the half-dies and groups given (R356): the circuits, and whether all of
them were laid. -/
def State.layWalkers (s : State) (avoid : List Nat) (halves groups : List Nat) : Bool × List Circuit :=
  let pairs := halves.flatMap fun h => groups.map fun g => (h, g)
  let r := pairs.foldl (fun (acc : Bool × List Circuit × Occ) p =>
    let (ok, cs, o) := acc
    if cs.any fun c => c.kind == 4 && c.src == walkerGate p.1 && c.target == p.2 then acc
    else
      match s.layWalker avoid cs o p.1 p.2 with
      | some (c, o) => (ok, cs ++ [c], o)
      | none => (false, cs, o)) (true, s.mesh.circuits, s.occupancy)
  (r.1, r.2.1)

/-- The half-dies that are ON, and the groups whose HBM PHY domain is not OFF. -/
def State.onHalves (s : State) : List Nat := (List.range 32).filter fun h => s.domIs (domHalf h) .on
def State.liveGroups (s : State) : List Nat := (List.range 64).filter fun g => !s.domIs (domStack (stackOfGroup g)) .off

/-- Put a list of circuits in place. -/
def State.setCircuits (s : State) (cs : List Circuit) : State := { s with mesh := { s.mesh with circuits := cs } }

/-- Lay the walker circuits of new ends (R356). -/
def State.addWalkers (s : State) (halves groups : List Nat) : State := s.setCircuits (s.layWalkers [] halves groups).2

/-- The walker circuits that come with new ends all find a path and free slots (R356). -/
def State.walkersFit (s : State) (halves groups : List Nat) : Bool := (s.layWalkers [] halves groups).1

/-- Withdraw the walker circuits of which a half-die or a group is an end. -/
def State.dropWalkers (s : State) (halves groups : List Nat) : State :=
  s.setCircuits (s.mesh.circuits.filter fun c =>
    !(c.kind == 4 && (groups.contains c.target || halves.any fun h => c.src == walkerGate h)))

/-- A circuit crosses a half-die. -/
def Circuit.crosses (c : Circuit) (h : Nat) : Bool := (pathHalves (c.out.path ++ c.back.path)).contains h

/-- The walker circuits that a half-die going OFF leaves without a lay are laid again around it (R356): the circuits, and
whether that is possible. -/
def State.avoidHalf (s : State) (h : Nat) : Bool × List Circuit :=
  let gone := s.mesh.circuits.filter fun c => c.kind == 4 && c.crosses h && c.src != walkerGate h && halfOfGroup c.target != h
  let kept := s.mesh.circuits.filter fun c => !(c.kind == 4 && (c.crosses h || c.src == walkerGate h))
  let occ := kept.foldl (fun o c => c.mark o) occEmpty
  let r := gone.foldl (fun (acc : Bool × List Circuit × Occ) c =>
    let (ok, cs, o) := acc
    match s.layWalker [h] cs o (halfOfRouter c.src) c.target with
    | some (c', o) => (ok, cs ++ [c'], o)
    | none => (false, cs, o)) (true, kept, occ)
  (r.1, r.2.1)

/-! ### Re-lay (R225) -/

/-- Lay every circuit that crosses a half-die's edge again, in order; one that finds no new slots keeps its own (R225). -/
def State.relayCrossing (s : State) (h : Nat) : State :=
  let crosses := fun (c : Circuit) => c.crosses h && decide (1 < (pathHalves (c.out.path ++ c.back.path)).length)
  let r := s.mesh.circuits.foldl (fun (acc : List Circuit × Nat) c =>
    if crosses c then
      let others := acc.1 ++ (s.mesh.circuits.drop (acc.1.length + 1))
      let occ := others.foldl (fun o c => c.mark o) occEmpty
      let plan : CircuitPlan := { owner := c.owner, inactive := c.inactive, kind := c.kind, target := c.target, src := c.src,
                                  srcNum := c.srcNum, dst := c.dst, dstNum := c.dstNum, nOut := c.slotsOut, nBack := c.slotsBack }
      let route := if c.kind = 4 then s.walkerRoute [] else pathXY
      match s.layPair route plan occ with
      | some (c', _) => (acc.1 ++ [{ c with out := c'.out, back := c'.back }], acc.2 + 1)
      | none => (acc.1 ++ [{ c with
          out := { c.out with rdiv := s.pathDiv c.out.path }, back := { c.back with rdiv := s.pathDiv c.back.path } }], acc.2 + 1)
    else (acc.1 ++ [c], acc.2)) ([], 0)
  { s with mesh := { s.mesh with circuits := r.1, relays := s.mesh.relays + BitVec.ofNat 32 r.2 } }

/-! ### Reading the transit table (R221) -/

/-- The input code (1 N to 4 W) by which router `b` is entered from `a`. -/
def inFrom (a b : Nat) : Nat := match outTowards a b with | 1 => 3 | 2 => 4 | 3 => 1 | _ => 2

def shlN (x n : Nat) : Nat := x * 2 ^ n

/-- RDIV of a half-die's entries on a lay: the slowest divider of the path over the half-die's own (R224). -/
def rdivCode (slow own : Nat) : Nat := match slow / own with | 4 => 2 | 2 => 1 | _ => 0

/-- What one direction of a circuit adds to entry j of router r's transit table. -/
def State.layEntry (s : State) (l : Lay) (numStart numEnd r j : Nat) : Nat :=
  let n := l.path.length
  match l.path.findIdx? (· == r) with
  | none => 0
  | some i =>
    if l.slots.any fun j0 => (j0 + i) % 1024 == j then
      let prev := l.path[i - 1]?.getD r
      let next := l.path[i + 1]?.getD r
      let div := shlN (rdivCode l.rdiv (s.divOf (halfOfRouter r))) 126
      let src := if i = 0 then 5 else inFrom prev r
      let out := if i + 1 < n then
          let o := outTowards r next
          shlN src (93 + 3 * o) + (if i = 0 then shlN numStart (56 + 8 * o) else 0)
        else 0
      let locIn := if i + 1 = n ∧ 0 < i then
          let p := inFrom prev r
          shlN 1 (107 + p) + shlN numEnd (24 + 8 * p)
        else 0
      div + out + locIn
    else 0

/-- Entry j of a router's transit table, as RT_TTAB shows it: the active circuits' (R221, R269). -/
def State.transitEntry (s : State) (r j : Nat) : BitVec 128 :=
  (s.mesh.circuits.filter (!·.inactive)).foldl (fun e c =>
    e ||| BitVec.ofNat 128 (s.layEntry c.out c.srcNum c.dstNum r j) ||| BitVec.ofNat 128 (s.layEntry c.back c.dstNum c.srcNum r j)) 0

/-- Free transit slots on the busiest mesh output of a half-die (R243). -/
def State.freeSlotsOf (s : State) (h : Nat) : Nat :=
  let o := s.occupancy
  let routers := (clustersOfHalf h).flatMap coresOf
  1024 - (routers.flatMap fun r => (List.range 4).map fun i =>
    ((List.range 1024).filter fun j => o.used (4 * r + i) j).length).foldl max 0

end Sys2Proof.Machine
end

