-- ==== Sys2Proof/Machine/DomainOps.lean ====
section
/-! DEFINITION. Power domains: which transitions the dependencies allow, what a finished transition does, and the domains that
lashes, relashes and memory-hold bits drive (R28 to R42, R44 to R47, R237, R356). -/

namespace Sys2Proof.Machine

/-! ### What depends on what (R30, R31, R37, R237) -/

def State.domOff (s : State) (i : Nat) : Bool := s.domIs i .off
def State.domOn (s : State) (i : Nat) : Bool := s.domIs i .on

/-- The stacks and link ports that attach to a half-die. -/
def stacksOfHalf (h : Nat) : List Nat := (List.range 32).filter fun st => halfOfStack st == h

/-- A lashed or lashing bight holds a router of the half-die, or a circuit that passes it (R31, R226). -/
def State.halfHeld (s : State) (h : Nat) : Bool :=
  (List.any s.bights.tab fun (e : Nat × Bight) => (e.2.places.any fun pl => pl.rectangle.any fun c => halfOfCluster c == h)) ||
    (List.any s.mesh.routers fun (e : Nat × Router) => (e.2.bank.isSome || e.2.claim.isSome) && halfOfRouter e.1 == h) ||
    s.mesh.circuits.any fun c => c.kind != 4 && c.crosses h

/-- A bight that is not free, or the target of its relash, holds the stack or the link port (R37). -/
def State.stackOfBight (s : State) (st : Nat) : Bool :=
  List.any s.bights.tab fun (e : Nat × Bight) =>
    e.2.places.any fun pl => pl.holdsGroup (2 * st) || pl.holdsGroup (2 * st + 1)
def State.portOfBight (s : State) (p : Nat) : Bool :=
  List.any s.bights.tab fun (e : Nat × Bight) => e.2.places.any fun pl => pl.holdsPort p

/-- The hubs of a Lanyard route between two dies: along the row first, or along the column first (R237). -/
def hubRoute (rowFirst : Bool) (a b : Nat) : List Nat :=
  let xs := walkTo (a % 4) (b % 4)
  let ys := walkTo (a / 4) (b / 4)
  if rowFirst then xs.map (fun x => 4 * (a / 4) + x) ++ ys.map (fun y => 4 * y + b % 4)
  else ys.map (fun y => 4 * y + a % 4) ++ xs.map (fun x => 4 * (b / 4) + x)

/-- With die d's uncore off, some pair of dies with uncores ON has no route through dies with uncores ON (R237). -/
def State.cutsLanyard (s : State) (d : Nat) : Bool :=
  let on := (List.range 16).filter fun e => e != d && s.domOn (domDie e)
  on.any fun a => on.any fun b =>
    let fine := fun (r : Bool) => (hubRoute r a b).all fun e => on.contains e
    !(fine true || fine false)

/-- The domains of a die other than its uncore (R28). -/
def domainsOfDie (d : Nat) : List Nat := (List.range 624).filter fun i => dieOfDomain i == d

/-- A domain may go to a state (R30, R31, R44): its dependencies hold. -/
def State.domLegal (s : State) (i : Nat) (x : DomState) : Bool :=
  match domKind i, x with
  | .cluster _, .off => true
  | .cluster c, .low => s.domOn (domHalf (halfOfCluster c))
  | .cluster c, .on =>
    s.domOn (domHalf (halfOfCluster c)) && !s.fuses.gradedOut.contains c &&
      (List.any s.bights.tab fun (e : Nat × Bight) => e.2.places.any fun pl => pl.memberClusters.contains c)
  | .half h, .on => s.domOn (domDie (h / 2))
  | .half h, .off =>
    (clustersOfHalf h).all (fun c => s.domOff c) && (stacksOfHalf h).all (fun st => s.domOff (domStack st)) &&
      (portsOfHalf h).all (fun p => s.domOff (domPort p)) && !s.halfHeld h && (s.avoidHalf h).1
  | .stack st, .off => !s.stackOfBight st
  | .stack st, .low => s.domOn (domHalf (halfOfStack st)) && !s.hbm.failed.getLsbD st
  | .stack st, .on => s.domOn (domHalf (halfOfStack st)) && !s.hbm.failed.getLsbD st
  | .port p, .off => !s.portOfBight p
  | .port p, .on => s.domOn (domHalf (halfOfPort p))
  | .die _, .on => true
  | .die d, .off => d != 0 && d != 3 && (domainsOfDie d).all (fun j => s.domOff j) && !s.cutsLanyard d
  | _, _ => false

/-- A Dictionary request leaves no walker circuit without a path or slots (R356): those that come with a half-die that goes ON, and
with a stack that leaves OFF, can all be laid. Those that cross a half-die going OFF are a matter of `domLegal` (R31). -/
def State.walkersLegal (s : State) (i : Nat) (x : DomState) : Bool :=
  match domKind i with
  | .half h => x != .on || s.domOn i || (s.setDomain i { s.domain i with state := .on }).walkersFit [h] s.liveGroups
  | .stack st => x == .off || !s.domOff i || s.walkersFit s.onHalves [2 * st, 2 * st + 1]
  | _ => true

/-- Drive a domain towards a state when its dependencies allow it and it is not on its way; in self-policy mode the module takes no
step that leaves a walker circuit without a path or slots (R356, log 182). -/
def State.drive (s : State) (i : Nat) (x : DomState) : State :=
  if (s.domain i).final = x then s
  else if s.domLegal i x && (!s.selfPolicy || s.walkersLegal i x) then s.reqDom i x else s

/-! ### What lashes and memory-hold bits need (R37, R38, R259, R268) -/

/-- The domains that a placement needs ON: uncores, half-dies, stacks, ports and members, in that order (R259, R30). -/
def State.needs (s : State) (b : Nat) (pl : Place) : List Nat :=
  let cs := s.mesh.circuits.filter fun c => c.owner == b
  let sts := (cs.filterMap fun c => if c.kind = 0 then some (stackOfGroup c.target) else none).dedup
  let ports := (cs.filterMap fun c => if c.kind = 1 then some c.target else none).dedup
  let halves := (pl.rectangle.map halfOfCluster ++ (cs.flatMap fun c => pathHalves (c.out.path ++ c.back.path)) ++
    sts.map halfOfStack ++ ports.map halfOfPort).dedup
  ((halves.map (· / 2)).dedup.map domDie) ++ halves.map domHalf ++ sts.map domStack ++ ports.map domPort ++
    pl.memberClusters

/-- Every domain that a placement needs is ON. -/
def State.needsMet (s : State) (b : Nat) (pl : Place) : Bool := (s.needs b pl).all fun i => s.domOn i

/-- The placement whose domains a bight is driving ON, if it is lashing or preparing. -/
def Bight.driving (x : Bight) : Option Place :=
  match x.state, x.relash with
  | .lashing, _ => some x.place
  | .prepare, some r => some r.target
  | _, _ => none

/-- A cluster whose memory-hold bit asks for LOW and that is not there: unlashed, OFF and not on its way (R38). -/
def State.holdDue (s : State) (c : Nat) : Bool :=
  s.memHold.contains c && (s.bightOfCluster c).isNone && (s.domain c).final == .off && !s.errors.rootstock

/-- Take every step towards what lashes and relashes need that the dependencies now allow (R30, R37, R38, R39). -/
def State.driveNeeds (s : State) : State :=
  let s := (Tab.keys s.bights.tab).foldl (fun s b =>
    match (s.bight b).driving with
    | some pl => (s.needs b pl).foldl (fun s i => s.drive i .on) s
    | none => s) s
  s.memHold.foldl (fun s c =>
    if s.holdDue c then
      let h := halfOfCluster c
      if s.domOn (domHalf h) then s else (s.drive (domDie (h / 2)) .on).drive (domHalf h) .on
    else s) s

/-! ### A transition finishes (R32, R34, R35, R320, R356, R472) -/

/-- The cores and the engine of a cluster lose their state with its ON state (R28). -/
def State.loseCompute (s : State) (c : Nat) : State :=
  (coresOf c).foldl (fun s k => s.setCore k {}) (s.setEngine c {})

/-- A cluster reaches a state (R32, R291, R302, R307, R311). -/
def State.clusterReached (s : State) (c : Nat) (from' into : DomState) : State :=
  let s := if from' = .on then s.loseCompute c else s
  if into = .off then s.loseCluster c
  else if from' = .off then
    let s := (s.applyFuses c).clearCluster c
    { s with sram := { s.sram with pruner := s.sram.pruner.filter fun (e : Nat × Nat) => e.1 / 24 != c } }
  else s

/-- The module's own writes that wait for a stack are given up: what they were to change is lost with it (R34). -/
def State.dropOwnWrites (s : State) (st : Nat) : State :=
  let mine := fun (r : Req) => match r.ownDue with | some a => stackOfAddr a == some st | none => false
  let ids := (s.reqs.filter mine).map (·.id)
  let s := s.ungate ids
  { s with reqs := s.reqs.filter fun r => !ids.contains r.id }

/-- A stack that left OFF is trained and cleared; one that fails stays OFF (R34, R320). -/
def State.stackReached (s : State) (st : Nat) (from' into : DomState) (trained : Bool) : State :=
  if into = .off then ((s.dropOwnWrites st).clearStack st).dropWalkers [] [2 * st, 2 * st + 1]
  else if from' = .off then
    if trained then ((s.clearStack st).addWalkers s.onHalves [2 * st, 2 * st + 1]).pinCaches
    else
      ({ s with hbm := { s.hbm with failed := s.hbm.failed ||| (1 <<< st) } }).event 0x0020 st
  else s

/-- A half-die reaches a state: its slot tables and registers are empty on leaving OFF, and its walker circuits are laid or
withdrawn (R35, R356); one that had found no path before is tried again (log 182). What the management processor holds for a router, the claim of a lash or prepare and the tables it is to
load there, stays (R259, R268). -/
def State.halfReached (s : State) (h : Nat) (into : DomState) : State :=
  let inHalf := fun (r : Nat) => halfOfRouter r == h
  let s := { s with mesh := { s.mesh with
    routers := s.mesh.routers.filterMap fun (e : Nat × Router) =>
      if !inHalf e.1 then some e
      else if e.2.claim.isNone then none
      else some (e.1, { claim := e.2.claim, next := e.2.next }) } }
  if into == .on then s.addWalkers s.onHalves s.liveGroups
  else
    let s := s.setCircuits (s.avoidHalf h).2
    s.dropWalkers [h] []

/-- A die uncore that goes OFF loses the die's shared translation cache and walk cache (R28, R358). -/
def State.dieReached (s : State) (d : Nat) (into : DomState) : State :=
  if into = .off then
    { s with xlat := { s.xlat with
        cache := s.xlat.cache.filter fun e => e.cache != dieCache d
        walkCache := s.xlat.walkCache.filter fun e => e.die != d
        counters := Tab.erase s.xlat.counters d } }
  else s

/-- Requests wait at a gate of the stack (R318). -/
def State.stackWaited (s : State) (st : Nat) : Bool :=
  !(s.group (2 * st)).queue.isEmpty || !(s.group (2 * st + 1)).queue.isEmpty

/-- The effects of a domain's reaching a state. -/
def State.domReached (s : State) (i : Nat) (from' into : DomState) (trained : Bool) : State :=
  match domKind i with
  | .cluster c => s.clusterReached c from' into
  | .stack st => s.stackReached st from' into trained
  | .half h => s.halfReached h into
  | .port p => if into = .on then s.startTraining p else s.portOff p
  | .die d => s.dieReached d into
  | _ => s

/-- A link port whose domain is no longer ON is in state OFF and carries nothing; its keys stay until the domain is OFF (R472, R486). -/
def State.portStop (s : State) (i : Nat) : State :=
  match domKind i with
  | .port p => if s.domOn i then s else (s.loseRequests p).modPort p fun x => x.emptied 0
  | _ => s

/-- Domain `i` leaves CHANGING (R35). -/
def State.domDone (s : State) (i : Nat) (trained : Bool) : State :=
  let d := s.domain i
  if d.state ≠ .changing then s
  else
    let failed := !trained && d.origin == .off && (match domKind i with | .stack _ => true | _ => false)
    let into : DomState := if failed then DomState.off else d.target
    let s := s.setDomain i { d with state := into, target := .off, origin := .off }
    let s := (s.domainMsg true i into).domReached i d.origin d.target trained
    let s := match domKind i with
      | .stack st => if into == DomState.low && s.stackWaited st && d.held.isEmpty then s.reqDom i .on else s
      | _ => s
    s.driveNeeds

/-- Switch a cluster that has left every bight to where R38 sends it. One that is held and whose half-die domain or die uncore is
not ON waits for these, which are switched ON first (R38, R39). -/
def State.settleCluster (s : State) (c : Nat) : State :=
  let h := halfOfCluster c
  if !s.memHold.contains c then s.reqDom c .off
  else if s.domOn (domHalf h) then s.reqDom c .low
  else ((s.reqDom c .off).drive (domDie (h / 2)) .on).drive (domHalf h) .on

end Sys2Proof.Machine
end

