-- ==== Sys2Proof/Machine/MeshOps.lean ====
section
/-! DEFINITION. The program plane: table entries, forwarding in one bight cycle, arrivals, ejection, credits, dead letters and
fault reports of routers (R203, R208 to R216, R227 to R231, R240, R241). -/

namespace Sys2Proof.Machine

/-! ### Reports -/

/-- CL_LCORE of a core or router in its bight (R127). -/
def Place.lcore (p : Place) (r : Nat) : Nat := 16 * p.lambdaOf (clusterOf r) + coreK r

/-- The payload of a fault report (R126, R240). -/
def faultPayload (lcore id cause unit sub : Nat) (pc value : Word) : List Flit :=
  [BitVec.ofNat 32 (lcore % 65536 * 65536 + id % 8192), BitVec.ofNat 32 (sub % 256 * 65536 + unit % 256 * 256 + cause % 256),
   pc.setWidth 32, (pc >>> 32).setWidth 32, value.setWidth 32, (value >>> 32).setWidth 32]

/-- The cause, sub-causes and unit of a router's report (R231). -/
def causeSched : Nat := 0x0D
def unitRouter : Nat := 9

/-- CL_LCORE of a router as a report of bight b gives it: 0xFFFF outside the bight's rectangle (R240). -/
def State.routerLcore (s : State) (b r : Nat) : Nat :=
  let p := (s.bight b).place
  if p.rectangle.contains (clusterOf r) then p.lcore r else 0xFFFF

/-- The bight that a router or core belongs to, if it lies in one's rectangle. -/
def State.bightOfRouter (s : State) (r : Nat) : Option Nat :=
  match (s.router r).bank with
  | some k => some k.bight
  | none => s.bightOfCluster (clusterOf r)

/-- A router of bight b reports SCHED_FAULT: sub-cause 1 OVERRUN, 2 parity; the entry index is the cause value (R231), 4,096 + j
for entry j of its transit table (DESIGN CHOICE, log 178). -/
def State.schedFault (s : State) (b r sub entry : Nat) : State :=
  s.lanSend 4 stopMgmt (stopHalf (halfOfRouter r)) false
    (faultPayload (s.routerLcore b r) r causeSched unitRouter sub 0 (BitVec.ofNat 64 entry))

/-- Why a core is fenced, as the reason of R241: 1 cluster not ON, 2 graded-out, 3 exception pending; none when it is not. -/
def State.fencedFor (s : State) (r : Nat) : Option Nat :=
  let c := clusterOf r
  if s.fuses.gradedOut.contains c then some 2
  else if !s.clusterOn c then some 1
  else if (s.core r).run = .excepted then some 3
  else none

/-- A DEAD_LETTER message (R241), counted at its router. -/
def State.deadLetterMsg (s : State) (b kind handle r entry reason : Nat) : State :=
  (s.modRouter r fun x => { x with deadLetters := satAdd 0xFFFF x.deadLetters 1 }).lanSend 5 stopMgmt
    (stopHalf (halfOfRouter r)) false
    [BitVec.ofNat 32 (b * 2 ^ 24 + kind * 2 ^ 21 + handle * 2 ^ 13 + r), BitVec.ofNat 32 entry, BitVec.ofNat 32 reason]

/-! ### Handles (R210) -/

def handleDefined (h : BitVec 16) : Bool := h.getLsbD 15
def handleRecv (h : BitVec 16) : Bool := h.getLsbD 14
def handleDepth (h : BitVec 16) : Nat := if h.getLsbD 13 then 2 else 1

/-- The handle-table entry of a core's handle; undefined where the router has no table. -/
def State.handle (s : State) (r h : Nat) : BitVec 16 :=
  match (s.router r).bank with
  | some k => k.htab.getD h 0
  | none => 0

/-! ### One table entry (R208) -/

def ptField (e : BitVec 64) (lo w : Nat) : Nat := fieldN e.toNat lo w
/-- The data source of output 1 N, 2 E, 3 S, 4 W. -/
def ptOut (e : BitVec 64) (o : Nat) : Nat := ptField e (62 - 3 * o) 3
/-- The credit source of an output. -/
def ptCr (e : BitVec 64) (o : Nat) : Nat := ptField e (50 - 3 * o) 3
def ptEjSrc (e : BitVec 64) : Nat := ptField e 35 3
def ptEj (e : BitVec 64) : Nat := ptField e 27 8
def ptInj (e : BitVec 64) : Nat := ptField e 19 8
def ptCreSrc (e : BitVec 64) : Nat := ptField e 16 3
def ptCre (e : BitVec 64) : Nat := ptField e 8 8
def ptCri (e : BitVec 64) : Nat := ptField e 0 8

/-- The vector of a data source at a router, which leaves it: an input, or the injection register (R211, R213). -/
def State.takeData (s : State) (r src inj : Nat) : Option Vec × State :=
  if src = 5 then
    (Tab.find? (s.core r).inject inj, s.modCore r fun k => { k with inject := Tab.erase k.inject inj })
  else
    (Tab.find? (s.router r).input src, s.modRouter r fun x => { x with input := Tab.erase x.input src })

/-- The credit bit of a credit source at a router, which leaves it: an input's bit, or a pending credit (R214). -/
def State.takeCredit (s : State) (r src cri : Nat) : Bool × State :=
  if src = 5 then
    let n := Tab.look 0 (s.core r).pendingCredit cri
    (decide (0 < n), s.modCore r fun k => { k with pendingCredit := Tab.put 0 k.pendingCredit cri (n - 1) })
  else
    ((s.router r).credit.contains src, s.modRouter r fun x => { x with credit := without x.credit src })

/-- The resident command pays for a bight's program plane (R65). -/
def State.bightPayer (s : State) (b : Nat) : Payer :=
  match (s.bight b).resident with
  | some (q, n, _) => .cmd b q n
  | none => .bight b

/-- The command that pays for a cluster's work. -/
def State.clusterPayer (s : State) (c : Nat) : Payer :=
  match s.payingBight c with
  | some b => s.bightPayer b
  | none => .base

/-- Put a vector or credit on the hop out of router r, to the next router whatever bight it belongs to (R211, log 17). -/
def State.putFlight (s : State) (b r out : Nat) (v : Option Vec) (credit : Bool) : State :=
  match neighbour r out with
  | none => s
  | some (r', port, lat) =>
    let f : Flight := { bight := b, router := r', port, vec := v, credit, due := (s.bight b).sigma + lat }
    let s := { s with mesh := { s.mesh with flights := s.mesh.flights ++ [f] } }
    if v.isSome then s.activity (.router r) (.hop false lat) 1 (s.bightPayer b) else s

/-- Ejection into the receiving handle's buffer: a dead letter at a fenced core, which gives the credit back (R116, R229); an
OVERRUN at a full buffer, which discards what it holds too (R212). -/
def State.ejectVec (s : State) (b r h entry : Nat) (v : Vec) : State :=
  match s.fencedFor r with
  | some reason =>
    (s.deadLetterMsg b 0 h r entry reason).modCore r fun k =>
      { k with pendingCredit := Tab.put 0 k.pendingCredit h (Tab.look 0 k.pendingCredit h + 1) }
  | none =>
    let q := Tab.look [] (s.core r).eject h
    if q.length < handleDepth (s.handle r h) then
      s.modCore r fun k => { k with eject := Tab.put [] k.eject h (q ++ [v]) }
    else
      ((s.modCore r fun k => { k with eject := Tab.erase k.eject h }).modRouter r fun x =>
        { x with overrunFlag := true }).schedFault b r 1 entry

/-- What one output of an entry drives. -/
def State.driveOut (s : State) (b r : Nat) (e : BitVec 64) (o : Nat) : State :=
  let s :=
    if ptOut e o = 0 then s
    else
      match s.takeData r (ptOut e o) (ptInj e) with
      | (some v, s) => s.putFlight b r o (some v) false
      | (none, s) => s
  if ptCr e o = 0 then s
  else
    match s.takeCredit r (ptCr e o) (ptCri e) with
    | (true, s) => s.putFlight b r o none true
    | (false, s) => s

/-- A router acts on one entry of its program table (R208, R211, R213, R214). -/
def State.useEntry (s : State) (b r i : Nat) (e : BitVec 64) : State :=
  let s := [1, 2, 3, 4].foldl (fun s o => s.driveOut b r e o) s
  let s :=
    if ptEjSrc e = 0 then s
    else
      match s.takeData r (ptEjSrc e) 0 with
      | (some v, s) => s.ejectVec b r (ptEj e) i v
      | (none, s) => s
  if ptCreSrc e = 0 then s
  else
    match s.takeCredit r (ptCreSrc e) 0 with
    | (true, s) => s.modCore r fun k =>
        { k with creditsUsed := Tab.put 0 k.creditsUsed (ptCre e) (Tab.look 0 k.creditsUsed (ptCre e) - 1) }
    | (false, s) => s

/-- A router of bight b in one bight cycle (R202, R203, R227, R231): an entry that fails parity counts as zero and is
reported. -/
def State.routerCycle (s : State) (b r : Nat) : State :=
  let x := s.router r
  match x.bank with
  | none => s
  | some k =>
    if k.bight ≠ b ∨ s.domIs (domHalf (halfOfRouter r)) .on = false then s
    else
      let i := (s.bight b).sigma % k.period
      if x.badParity.contains i then (s.setRouter r { x with parityFlag := true }).schedFault b r 2 i
      else
        let e := k.ptab.getD i 0
        if e = 0 then s else s.useEntry b r i e

/-! ### Arrivals (R211, R212) -/

/-- A vector or credit reaches its router's input. -/
def State.deliverFlight (s : State) (f : Flight) : State :=
  let x := s.router f.router
  let x := if f.credit then { x with credit := withOne x.credit f.port } else x
  match f.vec with
  | none => s.setRouter f.router x
  | some v =>
    match Tab.find? x.input f.port with
    | none => s.setRouter f.router { x with input := Tab.set x.input f.port v }
    | some _ =>
      let period := (x.bank.map (·.period)).getD 4
      (s.setRouter f.router { x with input := Tab.erase x.input f.port, overrunFlag := true }).schedFault f.bight f.router 1
        ((s.bight f.bight).sigma % period)

/-- Deliver every flight of a bight that is due. -/
def State.deliverDue (s : State) (b : Nat) : State :=
  let now := (s.bight b).sigma
  let due := s.mesh.flights.filter fun f => f.bight == b && decide (f.due ≤ now)
  let rest := s.mesh.flights.filter fun f => !(f.bight == b && decide (f.due ≤ now))
  due.foldl (fun s f => s.deliverFlight f) { s with mesh := { s.mesh with flights := rest } }

/-- What a core's SENDs and RECVs of this bight cycle did to its handles stands from the next cycle on (R213, R214). -/
def Core.nextCycle (k : Core) : Core :=
  { k with
    inject := k.injectNext.foldl (fun (t : Tab Vec) e => Tab.set t e.1 e.2) k.inject
    injectNext := []
    pendingCredit := k.creditNext.foldl (fun (t : Tab Nat) h => Tab.put 0 t h (Tab.look 0 t h + 1)) k.pendingCredit
    creditNext := [] }

/-- One bight cycle of bight b: what has arrived, then every router's entry, then σ moves on (R203, R211, R213, R214). A RUN that
is resident counts it (R127). -/
def State.bightCycle (s : State) (b : Nat) : State :=
  let s := s.deliverDue b
  let s := (s.bight b).place.routers.foldl (fun s r => s.routerCycle b r) s
  let s := (s.bightCores b).foldl (fun s k => s.modCore k Core.nextCycle) s
  s.modBight b fun x => { x with sigma := x.sigma + 1, ran := if x.resident.isSome then x.ran + 1 else x.ran }

end Sys2Proof.Machine
end

