-- ==== Sys2Proof/Machine/LashOps.lean ====
section
/-! DEFINITION. Lashing and relashing: the schedule family image, the checks, the tables and circuits of a placement, the carry
copy, and the steps that lash, relash, release and reset share (R201, R202, R209, R215 to R217, R244 to R288). -/

namespace Sys2Proof.Machine

/-! ### Result codes (R258) -/

def lashOk : Nat := 0x00
def lashMalformed : Nat := 0x01
def lashInUse : Nat := 0x02
def lashNotLashed : Nat := 0x03
def lashOutOfGrid : Nat := 0x04
def lashRouterOwned : Nat := 0x05
def lashGraded : Nat := 0x06
def lashClass : Nat := 0x07
def lashOverlap : Nat := 0x0A
def lashHedge : Nat := 0x0B
def lashResource : Nat := 0x0C
def lashNotPermitted : Nat := 0x0D
def lashCancelled : Nat := 0x0E
def lashUnreadable : Nat := 0x0F
def lashHeld : Nat := 0x10
def lashHostError : Nat := 0x11

/-! ### The family image (R251 to R255) -/

/-- A circuit entry (R255). -/
structure CircEntry where
  srcLambda : Nat
  dport : Nat
  dcirc : Nat
  kind : Nat
  target : Nat
  targetLambda : Nat
  slotsOut : Nat
  slotsIn : Nat
  tcirc : Nat
deriving DecidableEq, Repr

/-- A shape as the image gives it (R253, R254): for each logical router its program and handle tables. -/
structure ShapeData where
  w : Nat
  h : Nat
  holes : List Nat
  classMask : Nat
  period : Nat
  routers : List (List (BitVec 64) × List (BitVec 16))
  circs : List CircEntry
deriving DecidableEq, Repr

/-- Read `n` bytes of the image, which may cross from one channel group to the next: reads of master 306 (R334), held for a stack
in LOW (R258, R318). A relash's reads are paid by its bight (R65, R278). -/
def State.readImage (s : State) (pay : Payer) (a n : Nat) : Got Bytes × State :=
  let first := min n (groupBytes - a % groupBytes)
  if n = 0 then (.ok [], s)
  else
    match s.ownRead pay a first with
    | (.ok x, s) =>
      if first = n then (.ok x, s)
      else
        (match s.ownRead pay (a + first) (n - first) with
          | (.ok y, s) => (.ok (x ++ y), s)
          | r => r)
    | r => r

/-- A table of the image is 64-byte aligned and lies within it (R251). -/
def tableIn (off n len : Nat) : Bool := off % 64 == 0 && decide (off + n ≤ len)

/-- The header is well formed for a shape (R251, R252). -/
def headerOk (addr shape : Nat) (b : Bytes) : Bool :=
  let len := leAt b 0x10 8
  leAt b 0 4 == 0x4E474631 && leAt b 4 2 == 1 && decide (1 ≤ leAt b 6 1) && decide (leAt b 6 1 ≤ 32) && leAt b 7 1 == 0 &&
    leAt b 0x0C 4 == 0 && leAt b 0x18 8 == 0 && decide (shape < leAt b 6 1) && decide (addr + len ≤ hbmLimit) &&
    tableIn (leAt b 8 4) (64 * (shape + 1)) len

/-- The shape descriptor is well formed (R202, R253). -/
def shapeOk (len : Nat) (b : Bytes) : Bool :=
  let w := leAt b 0 1
  let h := leAt b 1 1
  let l := leAt b 8 2
  decide (1 ≤ w) && decide (w ≤ 32) && decide (1 ≤ h) && decide (h ≤ 16) && decide (leAt b 2 1 ≤ 64) && leAt b 3 1 == 0 &&
    l % 4 == 0 && decide (4 ≤ l) && decide (l ≤ 4096) && decide (leAt b 0x0A 2 ≤ 1024) && leAt b 0x0C 4 == 0 &&
    allZero (slice b 0x28 24) && tableIn (leAt b 0x10 8) (2 * leAt b 2 1) len &&
    tableIn (leAt b 0x18 8) (16 * w * h * (512 + 8 * l)) len && tableIn (leAt b 0x20 8) (16 * leAt b 0x0A 2) len

/-- A hole entry as λ, or none when it is malformed (R253). -/
def holeOf (w h x : Nat) : Option Nat :=
  let hx := fieldN x 4 5
  let hy := fieldN x 0 4
  if fieldN x 9 7 = 0 ∧ hx < w ∧ hy < h then some (w * hy + hx) else none

/-- A list rises strictly. -/
def rising : List Nat → Bool
  | a :: b :: t => decide (a < b) && rising (b :: t)
  | _ => true

def circOf (b : Bytes) : CircEntry :=
  { srcLambda := leAt b 0 2, dport := leAt b 2 1, dcirc := leAt b 3 1, kind := leAt b 4 1, target := leAt b 5 1,
    targetLambda := leAt b 6 2, slotsOut := leAt b 8 2, slotsIn := leAt b 0x0A 2, tcirc := leAt b 0x0C 1 }

/-- A circuit entry is well formed in a shape (R255, R258). -/
def circOk (w h : Nat) (holes : List Nat) (b : Bytes) : Bool :=
  let c := circOf b
  let inside := fun (l : Nat) => decide (l < w * h) && !holes.contains l
  let slots := fun (n : Nat) => decide (1 ≤ n) && decide (n ≤ 1024)
  inside c.srcLambda && decide (c.dport ≤ 3) && slots c.slotsOut && slots c.slotsIn && allZero (slice b 0x0D 3) &&
    (if c.kind = 3 then inside c.targetLambda && decide (c.target ≤ 3)
      else decide (c.kind ≤ 2) && c.targetLambda == 0 && c.tcirc == 0 && (c.kind != 2 || decide (c.target ≤ 1)))

/-- The sources named by a list of 3-bit fields are inputs 1 to 4, each named at most once; source 5 occurs at most once among
the outputs (R208, R209). -/
def sourcesOk (outs : List Nat) (extra : Nat) : Bool :=
  outs.all (fun x => decide (x ≤ 5)) && decide (extra ≤ 4) && decide ((outs.filter (· == 5)).length ≤ 1) &&
    [1, 2, 3, 4].all fun i => decide (((outs ++ [extra]).filter (· == i)).length ≤ 1)

/-- A program-table entry at index `i` under a handle table (R202, R208, R209). -/
def entryOk (htab : List (BitVec 16)) (i : Nat) (e : BitVec 64) : Bool :=
  let outs := [1, 2, 3, 4].map (ptOut e)
  let crs := [1, 2, 3, 4].map (ptCr e)
  let names := fun (used : Bool) (h : Nat) (recv : Bool) =>
    let x := htab.getD h 0
    if used then handleDefined x && handleRecv x == recv else h == 0
  if i % 4 = 3 then e == 0
  else
    fieldN e.toNat 62 2 == 0 && sourcesOk outs (ptEjSrc e) && sourcesOk crs (ptCreSrc e) &&
      names (ptEjSrc e != 0) (ptEj e) true && names (outs.contains 5) (ptInj e) false &&
      names (ptCreSrc e != 0) (ptCre e) false && names (crs.contains 5) (ptCri e) true

/-- A router record: its tables (R254). -/
def recordOf (l : Nat) (b : Bytes) : List (BitVec 64) × List (BitVec 16) :=
  ((List.range l).map fun i => BitVec.ofNat 64 (leAt b (512 + 8 * i) 8),
   (List.range 256).map fun i => BitVec.ofNat 16 (leAt b (2 * i) 2))

/-- A router record is well formed: reserved bits of the handle table, the entries, no handle in a hole (R209, R210, R254). -/
def recordOk (hole : Bool) (r : List (BitVec 64) × List (BitVec 16)) : Bool :=
  r.2.all (fun h => h.toNat % 2 ^ 13 == 0 && !(hole && handleDefined h)) &&
    (r.1.zipIdx.all fun e => entryOk r.2 e.2 e.1)

/-- λ of the router of record number `k` in a shape of width w (R254). -/
def lambdaOfRecord (w k : Nat) : Nat := w * (k / (4 * w) / 4) + k % (4 * w) / 4

/-- Read a list of records of the image. -/
def State.readRecords (s : State) (pay : Payer) (l : Nat) : Nat → Nat → Got (List (List (BitVec 64) × List (BitVec 16))) × State
  | _, 0 => (.ok [], s)
  | a, n + 1 =>
    match s.readImage pay a (512 + 8 * l) with
    | (.bad, s) => (.bad, s)
    | (.held, s) => (.held, s)
    | (.ok b, s) =>
      match State.readRecords s pay l (a + 512 + 8 * l) n with
      | (.ok t, s) => (.ok (recordOf l b :: t), s)
      | r => r

/-- How reading a shape of an image ends: with the shape, with a result code, or held for a stack. -/
inductive ShapeRead where
  | ok (d : ShapeData)
  | error (code : Nat)
  | held
deriving DecidableEq, Repr

/-- The shape that the parts of an image give, checked (R251 to R255, R258). -/
def shapeOf (d hb : Bytes) (rb : List (List (BitVec 64) × List (BitVec 16))) (cb : Bytes) : ShapeRead :=
  let w := leAt d 0 1
  let h := leAt d 1 1
  let hs := (List.range (leAt d 2 1)).map fun i => holeOf w h (leAt hb (2 * i) 2)
  let holes := hs.filterMap id
  let cs := (List.range (leAt d 0x0A 2)).map fun i => slice cb (16 * i) 16
  let good := hs.all (·.isSome) && rising holes && cs.all (circOk w h holes) &&
    (rb.zipIdx.all fun e => recordOk (holes.contains (lambdaOfRecord w e.2)) e.1)
  if good then
    .ok { w, h, holes, classMask := leAt d 4 4, period := leAt d 8 2, routers := rb, circs := cs.map circOf }
  else .error lashMalformed

/-- A part of an image that was not read: unreadable, or held. -/
def Got.shape {α : Type} (x : Got α) : ShapeRead := match x with | .held => .held | _ => .error lashUnreadable

/-- Read and check a shape of the image at `addr` (R251 to R255, R258): the shape, a result code, or held. -/
def State.readShape (s : State) (pay : Payer) (addr shape : Nat) : ShapeRead × State :=
  match s.readImage pay addr 32 with
  | (.ok hd, s) =>
    if !headerOk addr shape hd then (.error lashMalformed, s)
    else
      (match s.readImage pay (addr + leAt hd 8 4 + 64 * shape) 64 with
        | (.ok d, s) =>
          if !shapeOk (leAt hd 0x10 8) d then (.error lashMalformed, s)
          else
            (match s.readImage pay (addr + leAt d 0x10 8) (2 * leAt d 2 1) with
              | (.ok hb, s) =>
                (match s.readRecords pay (leAt d 8 2) (addr + leAt d 0x18 8) (16 * leAt d 0 1 * leAt d 1 1) with
                  | (.ok rb, s) =>
                    (match s.readImage pay (addr + leAt d 0x20 8) (16 * leAt d 0x0A 2) with
                      | (.ok cb, s) => (shapeOf d hb rb cb, s)
                      | (x, s) => (x.shape, s))
                  | (x, s) => (x.shape, s))
              | (x, s) => (x.shape, s))
        | (x, s) => (x.shape, s))
  | (x, s) => (x.shape, s)

/-! ### The checks on a placement (R258) -/

/-- The placement of a shape at an origin. -/
def ShapeData.place (d : ShapeData) (shape x0 y0 : Nat) (groups ports : BitVec 64) : Place :=
  { shape, x0, y0, w := d.w, h := d.h, holes := d.holes, period := d.period, groups, ports }

/-- The placement lies within a hedge: [31:24] X0, [23:16] Y0, [15:8] W, [7:0] H; W = 0 is the whole grid (R264, R288). -/
def Place.within (p : Place) (hedge : BitVec 32) : Bool :=
  let hx := fieldN hedge.toNat 24 8
  let hy := fieldN hedge.toNat 16 8
  let hw := fieldN hedge.toNat 8 8
  let hh := fieldN hedge.toNat 0 8
  hw == 0 || (decide (hx ≤ p.x0) && decide (p.x0 + p.w ≤ hx + hw) && decide (hy ≤ p.y0) && decide (p.y0 + p.h ≤ hy + hh))

/-- The offset class κ (R216). -/
def Place.kappa (p : Place) : Nat := 8 * (p.y0 % 4) + p.x0 % 8

/-- R245 holds of the placement. -/
def Place.inGrid (p : Place) : Bool :=
  decide (p.x0 + p.w ≤ 32) && decide (p.y0 + p.h ≤ 16) && !p.members.isEmpty

/-- A router is free for bight b: no other bight owns it or is prepared for it (R201). -/
def State.routerFree (s : State) (b r : Nat) : Bool :=
  let x := s.router r
  (x.bank.all fun k => k.bight == b) && (x.claim.all fun c => c == b)

/-- R270 is broken: a cluster is a current member and a target member under different carry indices. -/
def carryClash (cur new : Place) : Bool :=
  let old := cur.memberClusters
  (new.memberClusters.zipIdx).any fun e =>
    match old.findIdx? (· == e.1) with
    | some j => j != e.2
    | none => false

/-- The target of a circuit entry: the channel group, link port or PCIe port; none past the list (R247, R255). -/
def circTarget (groups ports : BitVec 64) (c : CircEntry) : Option Nat :=
  match c.kind with
  | 0 => (bitsOf groups)[c.target]?
  | 1 => (bitsOf ports)[c.target]?
  | _ => some c.target

/-- A circuit's stack cannot be switched ON, because it failed training, or its target lies past the list (R30, R255, R320). -/
def State.circBlocked (s : State) (groups ports : BitVec 64) (c : CircEntry) : Bool :=
  match circTarget groups ports c with
  | none => true
  | some t => c.kind == 0 && s.hbm.failed.getLsbD (stackOfGroup t)

/-- The checks of R258 from OUT_OF_GRID to RESOURCE (a failed stack in the GROUPS map included, R320), for bight b whose current placement, if any, is `cur`. -/
def State.checkPlace (s : State) (b : Nat) (cur : Option Place) (hedge : BitVec 32) (d : ShapeData) (p : Place) : Nat :=
  let mine := fun (c : Nat) => match cur with | some o => o.memberClusters.contains c | none => false
  if !p.inGrid then lashOutOfGrid
  else if !p.within hedge then lashHedge
  else if !d.classMask.testBit p.kappa then lashClass
  else if !p.routers.all (s.routerFree b) then lashRouterOwned
  else if p.memberClusters.any fun c => s.fuses.gradedOut.contains c then lashGraded
  else if p.memberClusters.any fun c => s.memHold.contains c && !mine c then lashHeld
  else if (match cur with | some o => carryClash o p | none => false) then lashOverlap
  else if (bitsOf p.groups).any (fun g => s.hbm.failed.getLsbD (stackOfGroup g)) ||
      (d.circs.any fun c => s.circBlocked p.groups p.ports c) then lashResource
  else lashOk

/-! ### Tables and circuits of a placement (R215, R256, R259, R268) -/

/-- The bank of a router of the placement (R215). -/
def bankOf (b : Nat) (d : ShapeData) (p : Place) (r : Nat) : Bank :=
  let k := 4 * p.w * (coreY r - 4 * p.y0) + (coreX r - 4 * p.x0)
  let rec' := d.routers.getD k ([], [])
  { bight := b, shape := p.shape, x0 := p.x0, y0 := p.y0, period := p.period, logical := p.logical r, ptab := rec'.1,
    htab := rec'.2 }

/-- Claim every router of a placement for a bight (R259, R268). -/
def State.claimRouters (s : State) (b : Nat) (p : Place) : State :=
  p.routers.foldl (fun s r => s.modRouter r fun x => { x with claim := some b }) s

/-- Load the inactive banks of some routers of a placement. The energy of a relash's table writes is the bight's (R278, log 211). -/
def State.loadBanks (s : State) (b : Nat) (d : ShapeData) (p : Place) (rs : List Nat) : State :=
  let pay := if (s.bight b).relash.isSome then Payer.bight b else .base
  rs.foldl (fun s r =>
    (s.modRouter r fun x => { x with next := some (bankOf b d p r) }).activity (.router r) .table (256 + p.period) pay) s

/-- The plans of a shape's circuits at a placement, inactive at first (R255, R268). -/
def circPlans (b : Nat) (d : ShapeData) (p : Place) : List CircuitPlan :=
  d.circs.map fun c =>
    { owner := b, inactive := true, kind := c.kind, target := (circTarget p.groups p.ports c).getD 0,
      src := dRouter (p.cluster c.srcLambda) c.dport, srcNum := c.dcirc,
      dst := if c.kind = 3 then dRouter (p.cluster c.targetLambda) c.target else 0,
      dstNum := if c.kind = 3 then c.tcirc else 0, nOut := c.slotsOut, nBack := c.slotsIn }

/-- Lay the circuits of a shape at a placement: the state with them, or a result code (R256). -/
def State.layShape (s : State) (b : Nat) (d : ShapeData) (p : Place) : Except Nat State :=
  match s.layAll (circPlans b d p) s.mesh.circuits s.occupancy with
  | .ok cs => .ok (s.setCircuits cs)
  | .error e => .error e

/-- Routers switch to their prepared bank: no vector or credit stands at their inputs, and their status is clear (R242, R269,
R273). -/
def State.switchBanks (s : State) (rs : List Nat) : State :=
  rs.foldl (fun s r => s.modRouter r fun x => { bank := x.next }) s

/-- A bight's inactive circuits become active, and its active ones are withdrawn (R273). -/
def State.switchCircuits (s : State) (b : Nat) : State :=
  s.setCircuits ((s.mesh.circuits.filter fun c => !(c.owner == b && !c.inactive)).map fun c =>
    if c.owner = b then { c with inactive := false } else c)

/-- Every circuit of a bight is withdrawn. -/
def State.dropCircuits (s : State) (b : Nat) (inactiveOnly : Bool) : State :=
  s.setCircuits (s.mesh.circuits.filter fun c => !(c.owner == b && (c.inactive || !inactiveOnly)))

/-- The half-dies of a placement's rectangle. -/
def Place.halves (p : Place) : List Nat := (p.rectangle.map halfOfCluster).dedup

/-- Routers that leave a bight: their tables are empty; their status stays until the next lash (R242, R279). -/
def State.freeRouters (s : State) (rs : List Nat) : State :=
  rs.foldl (fun s r => s.modRouter r fun x =>
    { x with bank := none, next := none, claim := none, input := [], credit := [], badParity := [] }) s

/-! ### Results -/

/-- Report a lash or release in 0x4011.00 and interrupt function 0 (R261, R279, R288). -/
def State.reportLash (s : State) (b kind result : Nat) : State :=
  ({ s with bights := { s.bights with
      opSeq := s.bights.opSeq + 1, opBight := b, opKind := kind, opResult := result } }).moduleEvent

/-- Record a relash result and break the RELASH command's fence (R274). -/
def State.refuseRelash (s : State) (b q seq result : Nat) : State :=
  (s.modBight b fun x => { x with relashResult := result, relashSeq := x.relashSeq + 1 }).failCmd q seq codeRelashRefused

/-- Cancel a relash in prepare (R274): its fence breaks and the prepared state is to be undone by the CANCEL messages. -/
def State.cancelRelash (s : State) (b result code : Nat) : State :=
  let x := s.bight b
  match x.relash with
  | some r =>
    if x.state = .prepare ∧ r.cancelled = false then
      (s.setBight b { x with relash := some { r with cancelled := true }, relashResult := result }).failCmd r.queue r.seq code
    else s
  | none => s

/-! ### The lash request (R257, R258) -/

/-- A range or reserved field of a lash request is wrong (R257). -/
def lashRequestBad (b : Bytes) : Bool :=
  decide (31 < leAt b 2 1) || decide (15 < leAt b 3 1) || decide (63 < leAt b 4 2) || decide (3 < leAt b 6 1) ||
    leAt b 7 1 != 0 || decide (2 ^ 48 ≤ leAt b 0x18 8) || decide (64 < leAt b 0x20 2) || decide (512 < leAt b 0x22 2) ||
    !allZero (slice b 0x28 24)

/-- A lash of a bight by a request that passed every check: routers claimed, banks loaded, circuits laid, domains driven; a
failed lay leaves the state as it was (R258, R259). -/
def State.beginLash (s : State) (b : Nat) (req : Bytes) (d : ShapeData) (p : Place) : State :=
  match s.layShape b d p with
  | .error e => s.reportLash b 1 e
  | .ok s =>
    let x : Bight := { state := .lashing, place := p, fineCounters := (s.bight b).fineCounters, owner := leAt req 4 2, idleLowOk := (leAt req 6 1).testBit 1,
                       vfRelash := (leAt req 6 1).testBit 0, carryLocal := leAt req 0x20 2, carryShared := leAt req 0x22 2,
                       family := leAt req 8 8,
                       hedge := BitVec.ofNat 32 (leAt req 0x24 1 * 2 ^ 24 + leAt req 0x25 1 * 2 ^ 16 +
                         leAt req 0x26 1 * 2 ^ 8 + leAt req 0x27 1) }
    (((s.setBight b x).claimRouters b p).loadBanks b d p p.routers).driveNeeds

/-- A lash request read from host memory (R258, R259); one whose image lies in a stack that is not ON waits for it (R258, R318). -/
def State.lashWith (s : State) (req : Bytes) : State :=
  let b := leAt req 0 1
  let addr := leAt req 8 8
  if (s.bight b).state ≠ .free then s.reportLash b 1 lashInUse
  else if addr % 65536 ≠ 0 ∨ hbmLimit ≤ addr then s.reportLash b 1 lashMalformed
  else
    match s.forgetSteps.readShape .base addr (leAt req 1 1) with
    | (.error e, s) => s.reportLash b 1 e
    | (.held, s) => { s with bights := { s.bights with lashWaiting := s.bights.lashWaiting ++ [req] } }
    | (.ok d, s) =>
      if lashRequestBad req then s.reportLash b 1 lashMalformed
      else
        let p := d.place (leAt req 1 1) (leAt req 2 1) (leAt req 3 1) (BitVec.ofNat 64 (leAt req 0x10 8))
          (BitVec.ofNat 64 (leAt req 0x18 8))
        let hedge := BitVec.ofNat 32 (leAt req 0x24 1 * 2 ^ 24 + leAt req 0x25 1 * 2 ^ 16 + leAt req 0x26 1 * 2 ^ 8 +
          leAt req 0x27 1)
        match s.checkPlace b none hedge d p with
        | 0 => s.beginLash b req d p
        | e => s.reportLash b 1 e

/-! ### The relash record (R266, R267) -/

/-- The target placement of a relash of bight x. -/
def relashTarget (x : Bight) (r : Bytes) (d : ShapeData) : Place :=
  let keep := (leAt r 3 1).testBit 1
  d.place (leAt r 0 1) (leAt r 1 1) (leAt r 2 1) (if keep then x.place.groups else BitVec.ofNat 64 (leAt r 8 8))
    (if keep then x.place.ports else BitVec.ofNat 64 (leAt r 0x10 8))

/-- Start preparing a relash that passed its checks (R268). -/
def State.beginRelash (s : State) (b q seq : Nat) (r : Bytes) (d : ShapeData) (p : Place) : State :=
  match s.layShape b d p with
  | .error e => s.refuseRelash b q seq e
  | .ok s =>
    let rel : Relash := { queue := q, seq, target := p, kill := (leAt r 3 1).testBit 0, drainLimit := leAt r 4 4 }
    let s := s.modBight b fun x => { x with relash := some rel, state := .prepare, relashSeq := x.relashSeq + 1 }
    ((s.modCmd q seq fun c => { c with begun := true }).claimRouters b p).driveNeeds

/-- The check phase of a relash (R263, R267). -/
def State.checkRelash (s : State) (b q seq fn : Nat) (r : Bytes) : State :=
  let x := s.bight b
  if fn ≠ 0 ∧ (x.owner ≠ fn ∨ x.vfRelash = false) then s.refuseRelash b q seq lashNotPermitted
  else if x.state ≠ .lashed ∨ x.due ≠ 0 then s.refuseRelash b q seq lashNotLashed
  else
    match s.forgetSteps.readShape (.bight b) x.family (leAt r 0 1) with
    | (.error e, s) => s.refuseRelash b q seq e
    | (.held, s) => s
    | (.ok d, s) =>
      let p := relashTarget x r d
      match s.checkPlace b (some x.place) x.hedge d p with
      | 0 => s.beginRelash b q seq r d p
      | e => s.refuseRelash b q seq e

/-- The routers of a relash's target that are in a half-die and not loaded yet. -/
def State.unloaded (s : State) (b : Nat) (p : Place) (h : Nat) : List Nat :=
  p.routers.filter fun r => halfOfRouter r == h && !((s.router r).next.any fun k => k.bight == b)

/-- Every router of the target has its inactive bank (R268). -/
def State.allLoaded (s : State) (b : Nat) (p : Place) : Bool :=
  p.routers.all fun r => (s.router r).next.any fun k => k.bight == b

/-- Undo the prepared state of a cancelled relash (R274, R287). -/
def State.undoRelash (s : State) (b : Nat) : State :=
  let x := s.bight b
  match x.relash with
  | none => s
  | some r =>
    let s := r.target.routers.foldl (fun s k => s.modRouter k fun y =>
      { y with next := none, claim := if y.claim = some b then none else y.claim }) s
    let s := s.dropCircuits b true
    let gone := r.target.memberClusters.filter fun c => !x.place.memberClusters.contains c
    let s := gone.foldl (fun s c => (s.clearCluster c).settleCluster c) s
    s.modBight b fun y => { y with relash := none, state := if y.state = .prepare then .lashed else y.state }

/-! ### Switchover (R270, R273, R276) -/

/-- A check difference that decodes as uncorrectable: the one given, or the smallest where it does not. -/
def badCheck (disc : BitVec 17) : BitVec 17 := if sramDecode disc == .bad then disc else 3

/-- Copy `n` bytes of SRAM from one cluster's range to another's: correctable words are written corrected, uncorrectable ones
uncorrectable, and so are those that lie in a retired row block, whose read is a bus error (R276, R303, R306; log 213). Retired words
are not written. -/
def State.carryRange (s : State) (b src dst n : Nat) : State :=
  let dc := (dst - sramBase) / sramStride
  let inSrc := fun (a : Nat) => decide (src ≤ a) && decide (a < src + n)
  let bytes := List.filter (fun (e : Nat × Byte) => inSrc e.1) s.mem
  let odd := (List.filter (fun (e : Nat × BitVec 17) => inSrc (8 * e.1)) s.sramCheck).map (·.1)
  let lost := if s.sram.retired.any (fun e => e.1 / 8192 == wordCluster (src / 8)) then
      (List.range (n / 8)).filter fun i => s.retiredWord (src / 8 + i)
    else []
  let s := (s.cancelBacks dc dst n).clearSramRange dc dst n
  let s := bytes.foldl (fun s e =>
    let a := dst + (e.1 - src)
    if s.retiredWord (e.1 / 8) || s.retiredWord (a / 8) then s else { s with mem := Memory.setByte s.mem a e.2 }) s
  let s := odd.foldl (fun s wa =>
    let wd := (dst + (8 * wa - src)) / 8
    if s.retiredWord wa || s.retiredWord wd then s
    else
      let raw := s.sramWord wa
      let disc := s.sramDisc wa
      match s.readSram agentCarry true wa with
      | (some w, s) => s.putSram wd w 0
      | (none, s) => s.putSram wd raw disc) s
  let s := lost.foldl (fun s i =>
    let wd := dst / 8 + i
    if s.retiredWord wd then s else s.putSram wd 0 (badCheck (Config.lostCheck wd))) s
  (s.activity (.cluster ((src - sramBase) / sramStride)) (.sramRead 64) (n / 64) (.bight b)).activity (.cluster dc)
    (.sramWrite 64) (n / 64) (.bight b)

/-- The mesh transfers of one member's four flows, one vector for every 64 bytes, which the bight pays (R65, R276, R278). -/
def State.carryFlows (s : State) (b sc dc : Nat) : State :=
  let x := s.bight b
  let n := (4 * (x.carryLocal * 65536) + x.carryShared * 65536 / 4) / 64
  (List.range 4).foldl (fun (s : State) q => s.pathActivity (pathXY (dRouter sc q) (dRouter dc q)) n (.bight b)) s

/-- The carry data of one member (R270). -/
def State.carryMember (s : State) (b sc dc : Nat) : State :=
  let x := s.bight b
  let s := s.carryFlows b sc dc
  let s := (List.range 16).foldl (fun s k =>
    s.carryRange b (sramAddr sc (k * 0x400000)) (sramAddr dc (k * 0x400000)) (x.carryLocal * 65536)) s
  s.carryRange b (sramAddr sc 0x04000000) (sramAddr dc 0x04000000) (x.carryShared * 65536)

/-- The carry copy: every carry index whose cluster changes (R270). -/
def State.carryCopy (s : State) (b : Nat) (cur new : Place) : State :=
  (cur.memberClusters.zip new.memberClusters).foldl (fun s e => if e.1 = e.2 then s else s.carryMember b e.1 e.2) s

/-- Bight m has stopped holding some channel groups: its settings at their gates return to their defaults (R335, R343). -/
def State.dropMaster (s : State) (m : Nat) (groups : List Nat) : State :=
  groups.foldl (fun s g => (s.modGroup g fun x => { x with masters := Tab.erase x.masters m }).scaleFloors g) s

/-- Switchover (R273): members of both rectangles stop, carry data move, target routers switch banks, and circuits change. -/
def State.switchover (s : State) (b : Nat) (r : Relash) : State :=
  let old := (s.bight b).place
  let new := r.target
  let s := s.stopCores b
  let s := (new.memberClusters.flatMap coresOf).foldl (fun s k => s.setCore k { run := .stopped }) s
  let s := s.carryCopy b old new
  let s := (s.switchBanks new.routers).switchCircuits b
  let s := s.dropMaster b ((bitsOf old.groups).filter fun g => !new.holdsGroup g)
  s.modBight b fun x => { x with place := new, relash := some { r with switched := true, left := some old } }

/-- After RESUME the routers and members that are not the target's leave the bight: the members are cleared (R38, R273, R280). -/
def State.leaveOld (s : State) (old new : Place) : State :=
  let s := s.freeRouters (old.routers.filter fun k => !new.routers.contains k)
  (old.memberClusters.filter fun c => !new.memberClusters.contains c).foldl (fun s c =>
    (s.clearCluster c).settleCluster c) s

/-! ### Release and reset (R265, R279) -/

/-- A release or reset of a bight's hardware is due: at once, or after the relash that is past prepare (R265, R279). `due` is 1
for a reset and 2 for a release. -/
def State.dueClear (s : State) (b due : Nat) : State :=
  let x := s.bight b
  let later := x.state == .quiesce || x.state == .switchover
  if later then s.setBight b { x with due := max x.due due }
  else
    s.setBight b { x with
      state := if due = 2 then .releasing else x.state
      clearing := x.place.halves
      due := 0 }

/-- No command of the bight is launched and unfinished. -/
def State.bightQuiet (s : State) (b : Nat) : Bool := !(s.cmdsOf b).any fun e => e.2.launched && e.2.live?

/-- Clear the SRAM of a bight's members in a half-die, and for a release its tables there (R265, R279, R287). -/
def State.clearHalf (s : State) (b h : Nat) : State :=
  let x := s.bight b
  let here := fun (c : Nat) => halfOfCluster c == h
  let s := (x.place.memberClusters.filter here).foldl (fun s c => s.clearCluster c) s
  let s :=
    if x.state = .releasing then
      let s := s.freeRouters (x.place.routers.filter fun r => halfOfRouter r == h)
      (x.place.memberClusters.filter here).foldl (fun s c => s.settleCluster c) (s.dropCircuits b false)
    else s
  s.modBight b fun y => { y with
    clearing := without y.clearing h
    sigma := if y.state != .releasing && without y.clearing h == [] then 0 else y.sigma }

/-- A measurement of a bight that is released ends as CANCELLED (R593). -/
def Security.cancelMeasure (x : Security) (b : Nat) : Security :=
  match x.measuring with
  | some m => if m.bight = b then { x with measuring := none, measureResult := 6 } else x
  | none => x

/-- A removal no longer waits for a bight that is free (R605). -/
def Security.dropBight (x : Security) (b : Nat) : Security :=
  { x with removal := x.removal.map fun (r : Removal) => { r with bights := without r.bights b } }

/-- The bight becomes free, its sharing steps with it; what was charged to it this frame stays counted as charged (R61, R82, R244, R279), and teardowns and
removals no longer wait for it. -/
def State.freeBight (s : State) (b : Nat) : State :=
  let x := s.bight b
  let model := List.foldl (fun (t : Tab Nat) (e : Nat × Nat) => addAt t e.1 e.2) s.energy.releasedModel x.model
  let s := { s with
    energy := { s.energy with releasedCharged := s.energy.releasedCharged + x.charged, releasedModel := model }
    power := { s.power with shareSteps := without s.power.shareSteps b }
    mesh := { s.mesh with flights := s.mesh.flights.filter fun f => f.bight != b }
    host := { s.host with teardowns := Tab.mapVals (fun (_ : Nat) (l : List Nat) => without l b) s.host.teardowns }
    security := (s.security.cancelMeasure b).dropBight b }
  (s.setBight b {}).dropMaster b (bitsOf x.place.groups)

/-! ### Function-level resets (R427) -/

/-- A function-level reset completes: its commands have ended and its bights are cleared (R427, R395). -/
def State.flrQuiet (s : State) (fn : Nat) : Bool :=
  (Tab.vals s.queues).all (fun (q : Queue) => q.fn != fn || q.cmds.all fun c => !c.gone) &&
    (Tab.vals s.bights.tab).all fun (x : Bight) => x.owner != fn || x.state == .free || (x.due == 0 && x.clearing.isEmpty)

/-- Report the function-level resets that are complete: bit [4] of function 0 (log 43). -/
def State.flrCheck (s : State) : State :=
  s.host.flr.foldl (fun (s : State) fn =>
    if s.flrQuiet fn then ({ s with host := { s.host with flr := without s.host.flr fn } }).cause 0 4 else s) s

end Sys2Proof.Machine
end

