-- ==== Sys2Proof/Machine/CommitOps.lean ====
section
/-! DEFINITION. How commands commit, are killed, re-run and end (R70, R416, R423, R444 to R456, R468, R497 to R502, R527). -/

namespace Sys2Proof.Machine

/-! ### What an end leaves behind -/

/-- The correction ratio and the claims as a completed command leaves them (R70, R74). A command that never launched leaves
the ratio as it is. -/
def State.settleCmd (s : State) (b : Nat) (c : Cmd) : State :=
  s.modBight b fun x => { x with
    ratio := if c.launched then ratioAfter x.ratio c.charged c.est else x.ratio
    claimsDone := x.claimsDone + c.frameCharged }

/-- The switch in progress when a RUN is no longer to be switched in (R458, R459): the next of the run list takes its place
while there is an outgoing RUN to save, unless that is the outgoing RUN itself. -/
def Bight.dropIncoming (x : Bight) (c : Nat × Nat) : Option (Option (Nat × Nat) × (Nat × Nat) × Nat) :=
  match x.switching with
  | some (o, i, t) =>
    if i = c then
      match o, (x.runList.filter (· != c)).head? with
      | some o, some i => if o = i then none else some (some o, i, t)
      | _, _ => none
    else some (o, i, t)
  | none => none

/-- Take a command off its bight's run list and out of residency (R457). -/
def State.retireRun (s : State) (b q seq : Nat) : State :=
  s.modBight b fun x => { x with
    runList := x.runList.filter (· != (q, seq))
    resident := match x.resident with | some (q', n, t) => if q' = q ∧ n = seq then none else some (q', n, t) | none => none
    switching := x.dropIncoming (q, seq) }

/-- The reduction slots of a REDUCE RECV return to its port (R504). -/
def State.freeChunks (s : State) (c : Cmd) : State :=
  match c.recv.claim with
  | some (p, slots) => s.modPort p fun y => { y with freeSlots := y.freeSlots + slots }
  | none => s

/-! ### Control packets of a command (R497, R498, R501) -/

/-- One control packet to every (module, window) that a command wrote to in this attempt. -/
def State.peerPackets (s : State) (ty q : Nat) (c : Cmd) : State :=
  c.peers.foldl (fun s e =>
    s.sendPacket e.2.2 { ty, len := 0, dst := e.1, src := s.fabric.number, epoch := epochOf q c.seq,
                         attempt := c.attempt % 256, window := e.2.1 } []
      ((s.queue? q).map fun x => (x.bight, q, c.seq))) s

/-- The commands at the head of a queue's list that its drain completes. -/
def Queue.drains (q : Queue) : List Cmd := q.cmds.takeWhile fun c => c.phase == .ended || c.phase == .committed

/-- Complete the commands at the head of a queue (R416); each that has committed then sends its notices (R497). -/
def State.drainSend (s : State) (qn : Nat) : State :=
  match s.queue? qn with
  | none => s
  | some q => (q.drains.filter fun c => c.phase == .committed).foldl (fun (s : State) c => s.peerPackets 0x0A qn c) (s.drain qn)

/-- A RECV that ends sends an ABANDON to the source of every contributor entry (R501). -/
def State.abandonSources (s : State) (b q : Nat) (c : Cmd) : State :=
  match c.payload with
  | .recv window .. =>
    c.recv.contributors.foldl (fun s e =>
      s.sendPacket e.port { ty := 0x0C, len := 0, dst := e.source, src := s.fabric.number, epoch := e.epoch.toNat,
                            attempt := (e.newest.getD 0) % 256, window } [] (some (b, q, c.seq))) s
  | _ => s

/-! ### Ending without committing (R423, R453) -/

/-- A command ends without committing and is not re-run: its open versions go, its slots fail, its peers are told, and its
queue's completions move on, its own with the break of its fence (R416, R423, R450, R501, R527). -/
def State.endCmd (s : State) (qn seq code : Nat) (detail : BitVec 24) : State :=
  match s.queue? qn with
  | none => s
  | some q =>
    match q.cmd? seq with
    | none => s
    | some c =>
      let b := q.bight
      let s := ((s.closeObjects false qn seq).retireRun b qn seq).dropFaults qn seq
      let s := ((s.freeChunks c).slotEnd qn seq).settleCmd b c
      let s := s.modCmd qn seq fun c => { c with
        phase := .ended, code := code, detail := detail, launched := false, frameCharged := 0, pieces := [], copies := [] }
      ((s.peerPackets 0x0C qn c).abandonSources b qn c).drainSend qn

/-- A command that has been fetched and not launched ends with a break code (R408, R440, R451, R469). -/
def State.endFetched (s : State) (q seq code : Nat) : State := s.endCmd q seq code (detailCmd q seq)

/-! ### Commit (R446, R447) -/

/-- The commit point of one command: CSEL toggles and OPEN clears on every object it holds; then its completion and, after
that, its notices (R403, R416, R446, R497, R527). -/
def State.commitCmd (s : State) (qn seq : Nat) : State :=
  match s.queue? qn with
  | none => s
  | some q =>
    match q.cmd? seq with
    | none => s
    | some c =>
      let b := q.bight
      let s := ((s.closeObjects true qn seq).retireRun b qn seq).freeChunks c
      let s := (s.settleCmd b c).modCmd qn seq fun c => { c with phase := .committed, launched := false, frameCharged := 0 }
      (s.drainSend qn).slotCommit qn seq c.attempt

/-- The members of the group that a COMMIT-GROUP decides, oldest first: the grouped commands before it (R449). -/
def groupMembers (q : Queue) (seq : Nat) : List Cmd :=
  (q.cmds.takeWhile fun c => c.seq != seq).filter fun c => c.grouped

/-- Take a commit request (R446, R449, R468): it is discarded when its command has been killed or has ended. -/
def State.takeCommit (s : State) (qn seq : Nat) : State :=
  match s.queue? qn with
  | none => s
  | some q =>
    match q.cmd? seq with
    | none => s
    | some c =>
      if c.phase ≠ .requested then s
      else
        let s := { s with host := { s.host with commits := s.host.commits + 1 } }
        let s := match c.payload with
          | .commitGroup _ =>
            let s := (groupMembers q seq).foldl (fun (s : State) (m : Cmd) => if m.phase = Phase.held then s.commitCmd qn m.seq else s) s
            s.modQueue qn fun x => { x with groupDone := 0 }
          | _ => s
        (s.commitCmd qn seq).commitMsg q.bight 2 qn seq

/-! ### Kill (R452 to R455, R464, R468) -/

/-- The command is the one whose cores run on its bight, or the one that is being switched in. -/
def State.isResident (s : State) (b q seq : Nat) : Bool :=
  (match (s.bight b).resident with | some (q', n, _) => q' == q && n == seq | none => false) ||
    (match (s.bight b).switching with | some (_, i, _) => i == (q, seq) | none => false)

/-- A re-run RUN keeps a place on the run list: the head, unless it is already on it (R455, R458). -/
def State.keepPlace (s : State) (b q seq : Nat) : State :=
  s.modBight b fun x => { x with
    runList := if x.runList.contains (q, seq) then x.runList else (q, seq) :: x.runList }

/-- A kill of a RUN that pre-emption, an abort or a relash asked for wins over an exception of the same moment: no report of a core
of the bight that was sent then arrives (R125, R465, log 200). -/
def State.killWins (s : State) (b code : Nat) (rerun : Bool) : State :=
  let mine := (s.bight b).place.memberClusters
  let lost := fun (m : LanMsg) => m.ty == 4 && m.at' == s.now && mine.contains m.src &&
    decide ((m.payload.getD 1 0).toNat % 256 ≤ 0x0B)
  if rerun || code == codeAborted || code == codeHoldCeiling then { s with mesh := { s.mesh with lan := s.mesh.lan.filter fun m => !lost m } } else s

/-- MX_ACC_STATUS over a bight (R414). -/
def State.accOf (s : State) (b : Nat) : BitVec 9 :=
  (s.bight b).place.memberClusters.foldl (fun a c => a ||| (s.engine c).accStatus) 0

/-- A kill reaches a command whose kill is under way: an abort, or the end of its owner, makes the end of a kill for a re-run
(R427, R467; DEDUCED, log 191). -/
def State.endRerun (s : State) (qn : Nat) (c : Cmd) (code : Nat) (detail : BitVec 24) : State :=
  if c.rerun && (code == codeAborted || code == codeOwnerGone) then
    s.modCmd qn c.seq fun d => { d with rerun := false, code := code, detail := detail }
  else s

/-- A kill is taken from the register (R453, R454): cores and engines stop, reads and writes to open frames are abandoned,
open versions are discarded, faults dropped. A RELASH command in prepare is cancelled with it (R274). -/
def State.takeKill (s : State) (qn seq code : Nat) (detail : BitVec 24) (rerun : Bool) : State :=
  match s.queue? qn with
  | none => s
  | some q =>
    match q.cmd? seq with
    | none => s
    | some c =>
      let b := q.bight
      if c.phase = .killing then s.endRerun qn c code detail
      else if !c.live? then s
      else
        let res := c.isRun && s.isResident b qn seq
        let acc := if res then s.accOf b else 0
        let s := if res then (s.killWins b code rerun).stopCores b else s
        let s := if c.isRun then
            let s := s.modBight b fun x => { x with
              resident := if res then none else x.resident
              switching := if rerun then x.switching else x.dropIncoming (qn, seq) }
            if rerun then s.keepPlace b qn seq else s.retireRun b qn seq
          else s
        let s := s.abandonCmd qn c b
        let s := if c.isRecv && rerun then s else s.closeObjects false qn seq
        let s := s.dropFaults qn seq
        let s := s.modCmd qn seq fun c => { c with
          phase := .killing, code := code, detail := detail, rerun := rerun, pieces := [], copies := [], acc := c.acc ||| acc }
        match (s.bight b).relash with
        | some r =>
          if r.queue = qn ∧ r.seq = seq ∧ (s.bight b).state = .prepare then
            s.modBight b fun x => { x with relash := some { r with cancelled := true }, relashResult := lashCancelled }
          else s
        | none => s

/-- A kill is complete (R453, R455, R464, R498): the command waits to start again, or ends. What the register still holds of the
attempt came after its kill and decides nothing, but for an abort and the end of its owner (R468, log 191). -/
def State.killDone (s : State) (qn seq : Nat) : State :=
  match s.queue? qn with
  | none => s
  | some q =>
    match q.cmd? seq with
    | none => s
    | some c =>
      if c.phase ≠ .killing ∨ s.cmdBusy qn c q.bight = true then s
      else if c.rerun then
        let s := (s.commitMsg q.bight 4 qn seq).peerPackets 0x0B qn c
        let s := { s with host := { s.host with reruns := s.host.reruns + 1 } }
        let stale := fun (e : RegEntry) => match e with
          | .kill q' n code _ _ => q' == qn && n == seq && code != codeAborted && code != codeOwnerGone
          | .commit q' n => q' == qn && n == seq
        let s := s.modBight q.bight fun x => { x with creg := x.creg.filter fun e => !stale e }
        s.modCmd qn seq fun c => { c with
          phase := .waiting, reruns := c.reruns + 1, attempt := c.attempt + 1, peers := [], begun := false, rerun := false,
          holdSince := none }
      else (s.commitMsg q.bight 4 qn seq).endCmd qn seq c.code c.detail

/-- Kill a command that may not have launched yet: one that has goes through the commit register, one that has not ends at
once (R452, R469). -/
def State.killAny (s : State) (qn seq code : Nat) (detail : BitVec 24) : State :=
  match s.cmd? qn seq with
  | none => s
  | some c => if c.phase = .waiting ∧ c.launched = false then s.endCmd qn seq code detail
    else s.requestKill qn seq code detail false

/-! ### Commit groups (R449, R450) -/

/-- A COMMIT-GROUP aborts its group: the open versions of held members go, their fences break with GROUP_ABORTED, and the
COMMIT-GROUP's breaks with `code` (R450). -/
def State.abortGroup (s : State) (qn : Nat) (q : Queue) (c : Cmd) (code : Nat) : State :=
  let s := (groupMembers q c.seq).foldl (fun (s : State) (m : Cmd) =>
    if m.phase = Phase.held then s.endCmd qn m.seq codeGroupAborted (detailCmd qn m.seq) else s) s
  (s.endCmd qn c.seq code (detailCmd qn c.seq)).modQueue qn fun x => { x with groupDone := 0 }

/-- Decide a COMMIT-GROUP (R450): it waits while a member is neither held nor ended. -/
def State.decideGroup (s : State) (qn : Nat) (q : Queue) (c : Cmd) (expect : Nat) : State :=
  let ms := groupMembers q c.seq
  let ready := ms.all fun m => m.phase == .held || m.phase == .ended
  let count := ms.length + q.groupDone
  let someEnded := decide (0 < q.groupDone) || ms.any fun m => m.phase == .ended
  if !ready then s
  else if count ≠ expect then s.abortGroup qn q c codeGroupMismatch
  else if someEnded then s.abortGroup qn q c codeGroupAborted
  else (s.modCmd qn c.seq fun c => { c with phase := .requested }).register q.bight (.commit qn c.seq)

/-! ### The start of a RUN's cores (R88, R127, R178, R459) -/

/-- The core address of the argument block. -/
def argAddr : Nat := 0x083FFFC0

/-- The state of a core at the start of a RUN (R88). -/
def coreStart (lcore clusters entry : Nat) : Core :=
  { run := .running, pc := BitVec.ofNat 64 entry,
    s := Tab.put 0 (Tab.put 0 (Tab.put 0 [] 1 (BitVec.ofNat 64 lcore)) 2 (BitVec.ofNat 64 argAddr)) 3 (BitVec.ofNat 64 clusters) }

/-- The cores of a bight start: argument block copied, every core and engine fresh, σ untouched, cycle counts from zero (R88,
R127, R178). MX_ACC_STATUS is cleared at the start of a RUN only, whose completion returns it: other kinds, which run beside a
resident RUN, leave it alone (R158, R178, R457; DEDUCED, log 173). -/
def State.startCores (s : State) (b q seq entry : Nat) (args : Bytes) : State :=
  let p := (s.bight b).place
  let pay := Payer.cmd b q seq
  let s := (s.bightCores b).foldl (fun s k =>
    let s := (s.physWrite agentDma none pay (sramAddr (clusterOf k) (coreK k * 0x400000 + 0x3FFFC0)) (slice args 0 64)).2
    s.setCore k (coreStart (p.lcore k) (p.w * p.h) entry)) s
  let s := p.memberClusters.foldl (fun s c => s.setEngine c {}) s
  let s := p.routers.foldl (fun s r => s.modRouter r fun x => { x with input := [], credit := [] }) s
  let s := { s with mesh := { s.mesh with flights := s.mesh.flights.filter fun f => f.bight != b } }
  (s.modBight b fun x => { x with
    resident := some (q, seq, s.now), runList := x.runList.filter (· != (q, seq)), switching := none, ran := 0 }).modCmd q seq
    fun c => { c with phase := .running, begun := true, acc := 0 }

/-- Every core of the bight has halted, its engines have drained without a failure, and no far access is out (R90, R180, R187,
R444). -/
def State.runFinished (s : State) (b : Nat) : Bool :=
  (s.bightCores b).all (fun k => (s.core k).run == .halted && (s.core k).far.isEmpty) &&
    (s.bight b).place.memberClusters.all fun c =>
      let e := s.engine c
      !e.failed && e.queue.isEmpty && e.plane0.state != .draining && e.plane1.state != .draining

end Sys2Proof.Machine
end

