-- ==== Sys2Proof/Machine/LaunchOps.lean ====
section
/-! DEFINITION. Launching a command: its object list, the conditions of a launch, opening and copying, and what is done for a
command whole in one step through translation (R261, R262, R408, R438 to R443, R451, R457, R495, R504, R520, R593). -/

namespace Sys2Proof.Machine

/-! ### Reads and writes through translation, whole in one step -/

/-- How such an access ends: done, to be tried again (it stopped at a fault, at a frame that moves, or at its gate), or with a break
code. -/
inductive VEnd (α : Type) where
  | ok (a : α)
  | fault
  | code (c : Nat)

/-- The request of such an access (R318, R333 to R341): of the command's master at its class and deadline. -/
def Who.accessReq (w : Who) (agent addr : Nat) (key : Option (Nat × Bool)) (fn n : Nat) (data : Option Bytes) : Req :=
  ({ id := 0, owner := .none, target := .hbm addr, write := data.isSome, len := n, data := data.getD [], master := w.master,
     cls := w.cls, deadline := w.deadline, key := (match regionOf addr with | .hbm _ => key | _ => none), asid := w.asid,
     page := w.page, fn, asAgent := some agent, stepBy := some w.requester } : Req).paidBy w.payer

/-- The parts of such accesses, read or written one after the other, each over the circuit of the command's bight where it takes one
(R197, R222, R248). -/
def State.physParts (w : Who) (agent : Nat) (key : Option (Nat × Bool)) (fn a : Nat) (data : Option Bytes) :
    List (Nat × Nat) → State → VEnd Bytes × State
  | [], s => (.ok [], s)
  | (b, n) :: t, s =>
    let r := w.accessReq agent b key fn n (data.map fun d => slice d (b - a) n)
    match s.stepAccess r b (s.circuitFor (if w.cmd.isSome then w.bight else none) r.target w.requester.near) with
    | (none, s) => (.fault, s)
    | (some (.data d), s) =>
      (match State.physParts w agent key fn a data t s with
        | (.ok l, s) => (.ok (d ++ l), s)
        | x => x)
    | (some .stored, s) => State.physParts w agent key fn a data t s
    | (some _, s) => (.code codeBusError, s)

/-- A read or write of physical memory by the module for a command, as a request that the step takes the result of (R318, R333 to
R341, R597); one of the module itself goes in parts (log 186). A look at what a head's list says makes no access (R78). -/
def State.physNow (s : State) (w : Who) (agent addr : Nat) (key : Option (Nat × Bool)) (fn n : Nat) (data : Option Bytes) :
    VEnd Bytes × State :=
  if w.peek then
    match s.physRead agent key w.payer addr n with
    | (.ok b, s) => (.ok b, s)
    | (.error _, s) => (.code codeBusError, s)
  else State.physParts w agent key fn addr data (if w.master = 306 then ownParts addr n else [(addr, n)]) s

/-- Read at a destination; `ans` holds what the host answers to the reads still to come (R429). -/
def State.readDest (s : State) (w : Who) (agent n : Nat) (d : Dest) (ans : HostAns) : VEnd (Bytes × HostAns) × State :=
  match d with
  | .phys a key fn =>
    (match s.physNow w agent a key fn n none with
      | (.ok b, s) => (.ok (b, ans), s)
      | (.fault, s) => (.fault, s)
      | (.code c, s) => (.code c, s))
  | .host fn port a =>
    if s.host.linkUp.contains port then
      let s := s.send (.hostRead fn port a n)
      match ans with
      | some b => (.ok (slice b 0 n, some (b.drop n)), s)
      | none => (.code codeHostError, s.aer fn)
    else (.code codeHostError, s)
  | .remote _ _ =>
    match ans with
    | some b => (.ok (slice b 0 n, some (b.drop n)), s)
    | none => (.code codeRemoteRefused, s)

/-- Write at a destination. -/
def State.writeDest (s : State) (w : Who) (agent : Nat) (d : Dest) (data : Bytes) : VEnd Unit × State :=
  match d with
  | .phys a key fn =>
    (match s.physNow w agent a key fn data.length (some data) with
      | (.ok _, s) => (.ok (), s)
      | (.fault, s) => (.fault, s)
      | (.code c, s) => (.code c, s))
  | .host fn port a =>
    if s.host.linkUp.contains port then (.ok (), s.hostWriteVia fn port a data) else (.code codeHostError, s)
  | .remote _ _ => (.code codeRemoteRefused, s)

/-- What translation answers, as such an access sees it: the destination, or how the access ends. -/
def State.xres (s : State) (w : Who) (va : Nat) (write : Bool) (x : Xres) : VEnd Dest × State :=
  match x with
  | .ok d => (.ok d, s)
  | .fault r => (.fault, s.faultFor w va write r)
  | .kill c => (.code c, s)
  | .refused => (.code codeRemoteRefused, s)
  | .hold => (.fault, s)

/-- The bytes to the end of the 4 KiB block of an address. -/
def blockRest (va n : Nat) : Nat := min n (4096 - va % 4096)

/-- Translate such an access: a stream that waits for another walk or fault holds it (R360, R363). -/
def State.virtDest (s : State) (w : Who) (va n : Nat) (write : Bool) : VEnd Dest × State :=
  if !w.peek && s.streamWaits w va then (.fault, s)
  else
    let (x, s) := s.translate w va n write
    s.xres w va write x

/-- Read `n` bytes at a virtual address, block by block. -/
def State.readVirt (w : Who) (agent : Nat) : Nat → State → Nat → Nat → HostAns → VEnd (Bytes × HostAns) × State
  | 0, s, _, _, ans => (.ok ([], ans), s)
  | fuel + 1, s, va, n, ans =>
    if n = 0 then (.ok ([], ans), s)
    else
      let m := blockRest va n
      let w := { w with page := va / 65536 }
      match s.virtDest w va m false with
      | (.fault, s) => (.fault, s)
      | (.code c, s) => (.code c, s)
      | (.ok d, s) =>
        match s.readDest w agent m d ans with
        | (.fault, s) => (.fault, s)
        | (.code c, s) => (.code c, s)
        | (.ok (b, ans), s) =>
          match State.readVirt w agent fuel s (va + m) (n - m) ans with
          | (.ok (b2, ans), s) => (.ok (b ++ b2, ans), s)
          | r => r

/-- Write bytes at a virtual address, block by block. -/
def State.writeVirt (w : Who) (agent : Nat) : Nat → State → Nat → Bytes → VEnd Unit × State
  | 0, s, _, _ => (.ok (), s)
  | fuel + 1, s, va, d =>
    match d with
    | [] => (.ok (), s)
    | _ =>
      let m := blockRest va d.length
      let w := { w with page := va / 65536 }
      match s.virtDest w va m true with
      | (.fault, s) => (.fault, s)
      | (.code c, s) => (.code c, s)
      | (.ok dst, s) =>
        match s.writeDest w agent dst (d.take m) with
        | (.ok _, s) => State.writeVirt w agent fuel s (va + m) (d.drop m)
        | r => r

/-- Blocks of 4 KiB that `n` bytes may touch. -/
def blocksOf (n : Nat) : Nat := n / 4096 + 2

/-! ### Object lists (R438 to R440) -/

/-- What an object list says. -/
structure ObjList where
  writes : List WriteEntry
  live : List LiveEntry
  saveVa : Nat
  saveLen : Nat
deriving DecidableEq, Repr

def writeEntryOf (b : Bytes) : WriteEntry :=
  { object := leAt b 0 4 % 2 ^ 20, overwrite := (leAt b 0 4).testBit 31, va := leAt b 8 8, length := leAt b 0x10 8 }

def liveEntryOf (b : Bytes) : LiveEntry := { region := leAt b 0 1, offset := leAt b 8 4, length := leAt b 0x0C 4 }

/-- The live volume per member (R439). -/
def liveVolume (l : List LiveEntry) : Nat := (l.map fun e => if e.region = 0 then 16 * e.length else e.length).sum

/-- A header is well formed (R438). -/
def listHeaderOk (h : Bytes) : Bool :=
  decide (leAt h 0 2 ≤ 1024) && decide (leAt h 2 2 ≤ 16) && leAt h 4 4 == 0 && leAt h 0x18 8 == 0 &&
    leAt h 8 8 % 65536 == 0 && (leAt h 2 2 != 0 || leAt h 8 8 == 0)

def writeEntryOk (b : Bytes) : Bool :=
  fieldN (leAt b 0 4) 20 11 == 0 && leAt b 4 4 == 0 && leAt b 8 8 % 65536 == 0 && leAt b 0x10 8 % 65536 == 0

def liveEntryOk (b : Bytes) : Bool :=
  let e := liveEntryOf b
  decide (e.region ≤ 1) && allZero (slice b 1 7) && e.offset % 64 == 0 && e.length % 64 == 0 && decide (64 ≤ e.length) &&
    decide (e.offset + e.length ≤ (if e.region = 0 then 0x400000 else 0x2000000))

/-- No two live ranges of one region overlap (R440). -/
def liveApart : List LiveEntry → Bool
  | [] => true
  | e :: t =>
    (t.all fun f => f.region != e.region || decide (e.offset + e.length ≤ f.offset) || decide (f.offset + f.length ≤ e.offset)) &&
      liveApart t

/-- The object of a write entry may be listed by a command of a context: its table entry is well formed, present, no SCRATCH
object and the context's; it may not be readable, or be held for its stack (R15, R318, R440, R679). -/
def State.listedOk (s : State) (w : Who) (n : Nat) : Got Bool × State :=
  match s.readObject w n with
  | (.bad, s) => (.bad, s)
  | (.held, s) => (.held, s)
  | (.ok o, s) => (.ok (n != 0 && !o.malformed && o.valid && !o.scratch && o.asid == w.asid), s)

/-- Every listed object may be listed. -/
def State.allListedOk (w : Who) : State → List WriteEntry → Got Bool × State
  | s, [] => (.ok true, s)
  | s, e :: t =>
    match s.listedOk w e.object with
    | (.bad, s) => (.bad, s)
    | (.held, s) => (.held, s)
    | (.ok false, s) => (.ok false, s)
    | (.ok true, s) => State.allListedOk w s t

/-- How the check of a save area ends: it is one, it is malformed, a walk of it faults or waits, or an entry cannot be read. -/
inductive SaveRes where
  | ok | malformed | held | bad
  | fault (va reason : Nat)

/-- A page of the save area is a leaf of a SCRATCH object of the context (R440, R679). -/
def State.savePageOk (s : State) (w : Who) (va : Nat) : SaveRes × State :=
  if !w.peek && s.streamWaits w va then (.held, s)
  else
    match s.findLeaf w va true with
    | ((.fault r, _), s) => if r = rNotPresent then (.malformed, s) else (.fault va r, s)
    | ((.held, _), s) => (.held, s)
    | ((.leaf _ leaf _ _ _, found), s) =>
      match (s.keepLeaf w found).readObject w (leafF leaf 44 20) with
      | (.bad, s) => (.bad, s)
      | (.held, s) => (.held, s)
      | (.ok o, s) =>
        (if leafF leaf 44 20 != 0 && !o.malformed && o.valid && o.scratch && o.asid == w.asid then .ok else .malformed, s)

/-- Every page of the save area is one, from page `va` on. -/
def State.saveAreaOk (w : Who) : Nat → State → Nat → SaveRes × State
  | 0, s, _ => (.ok, s)
  | n + 1, s, va =>
    match s.savePageOk w va with
    | (.ok, s) => State.saveAreaOk w n s (va + 65536)
    | r => r

/-- The last checks of a list that is well formed by itself: its save area, and its objects (R440, R679). -/
def State.listRefersOk (s : State) (w : Who) (o : ObjList) : VEnd ObjList × State :=
  match State.saveAreaOk w (if o.live.isEmpty then 0 else divUp o.saveLen 65536) s o.saveVa with
  | (.malformed, s) => (.code codeObjectList, s)
  | (.held, s) => (.fault, s)
  | (.bad, s) => (.code codeBusError, s)
  | (.fault va r, s) => (.fault, s.faultFor w va true r)
  | (.ok, s) =>
    match s.allListedOk w o.writes with
    | (.bad, s) => (.code codeBusError, s)
    | (.held, s) => (.fault, s)
    | (.ok false, s) => (.code codeObjectList, s)
    | (.ok true, s) => (.ok o, s)

/-- Read and check a command's object list as `w` (R438, R440); a command without one has an empty list. -/
def State.readListAs (s : State) (w : Who) (q : Queue) (c : Cmd) (ans : HostAns) : VEnd ObjList × State :=
  if c.objlist = 0 then (.ok { writes := [], live := [], saveVa := 0, saveLen := 0 }, s)
  else
    match State.readVirt w agentDma 2 s c.objlist 32 ans with
    | (.fault, s) => (.fault, s)
    | (.code e, s) => (.code e, s)
    | (.ok (h, ans), s) =>
      if !listHeaderOk h then (.code codeObjectList, s)
      else
        let nw := leAt h 0 2
        let nl := leAt h 2 2
        let n := 24 * nw + 16 * nl
        match State.readVirt w agentDma (blocksOf n) s (c.objlist + 32) n ans with
        | (.fault, s) => (.fault, s)
        | (.code e, s) => (.code e, s)
        | (.ok (b, _), s) =>
          let ws := (List.range nw).map fun i => slice b (24 * i) 24
          let ls := (List.range nl).map fun i => slice b (24 * nw + 16 * i) 16
          let o : ObjList := { writes := ws.map writeEntryOf, live := ls.map liveEntryOf, saveVa := leAt h 8 8,
                               saveLen := leAt h 0x10 8 }
          let members := (s.bight q.bight).place.members.length
          let good := ws.all writeEntryOk && ls.all liveEntryOk && decide ((o.writes.map (·.object)).Nodup) &&
            liveApart o.live && decide (members * liveVolume o.live ≤ o.saveLen)
          if good then s.listRefersOk w o else (.code codeObjectList, s)

/-- Read and check a command's object list: stream 0 of the first member does (R440). -/
def State.readList (s : State) (qn : Nat) (q : Queue) (c : Cmd) (ans : HostAns) : VEnd ObjList × State :=
  s.readListAs (s.whoStream qn q c 0 0) q c ans

/-! ### The conditions of a launch -/

/-- The commands of a bight may launch (R261, R271, R279). -/
def Bight.launches (x : Bight) : Bool :=
  (x.state == .lashed || (x.state == .prepare)) && x.due == 0 && x.clearing.isEmpty

/-- The queue's function may run commands on the bight (R262, R408). -/
def Bight.permits (x : Bight) (fn : Nat) : Bool := fn == 0 || fn == x.owner

/-- A command without GROUP lists an object that a commit group of its own queue holds (R451). -/
def State.groupConflict (s : State) (qn : Nat) (c : Cmd) : Bool :=
  !c.grouped && c.writes.any fun e =>
    let o := s.object e.object
    o.isOpen && o.queue == qn && (match s.cmd? qn o.seq with | some d => d.grouped | none => false)

/-- Element size of a reduction type (R503). -/
def elemSize (rtype : Nat) : Nat := [32, 4, 8, 4, 4, 2, 2].getD rtype 1

/-- A REDUCE RECV cannot run as it is configured (R495). -/
def State.collectiveBad (s : State) (c : Cmd) : Bool :=
  match c.payload with
  | .recv window 1 _ rtype _ _ inLen .. => (s.inWin window).redPort == 0xFF || inLen % elemSize rtype != 0
  | _ => false

/-- The reduction slots that a REDUCE RECV needs are free (R504). -/
def State.chunksFree (s : State) (c : Cmd) : Bool :=
  match c.payload with
  | .recv window 1 _ _ _ slots .. => decide (slots ≤ (s.port (s.inWin window).redPort).freeSlots)
  | _ => true

/-- The receive slot of a window that is neither IDLE nor terminal (R520). -/
def State.slotOnWindow (s : State) (window : Nat) : Option Nat :=
  (Tab.keys s.handoff.slots).find? fun i =>
    let x := s.slot i
    x.dir == 2 && x.window == window && x.state != stIdle && !slotTerminal x.state

/-- What a RECV is to a handoff slot (R520): nothing, its handoff RECV, or a command that may not run. -/
inductive HandoffRole where
  | none | recv (slot : Nat) | bad
deriving DecidableEq, Repr

def State.handoffRole (s : State) (c : Cmd) : HandoffRole :=
  match c.payload with
  | .recv window op nSrc _ _ _ inLen .. =>
    (match s.slotOnWindow window with
      | Option.none => .none
      | some i =>
        let x := s.slot i
        if x.state = stArmed ∧ op = 0 ∧ nSrc = 1 ∧ inLen = x.range then .recv i else .bad)
  | _ => .none

/-- A weight measurement that runs covers a SHADOW object of the write list (R593). -/
def State.measuredBlocks (s : State) (c : Cmd) : Bool :=
  match s.security.measuring with
  | some m =>
    if m.kind = 2 then
      let objs := (s.leavesOf m.asid m.va m.len).filterMap fun e =>
        if leafShadow e.2.2 then some (leafF e.2.2 44 20) else none
      c.writes.any fun e => objs.contains e.object
    else false
  | none => false

/-- A head whose objects, chunks and measurement allow it to launch (R442, R504, R593). -/
def State.unheld (s : State) (qn : Nat) (c : Cmd) : Bool := s.objectsFree qn c && s.chunksFree c && !s.measuredBlocks c

/-- The heads that wait for launch, with their queues. -/
def State.heads (s : State) : List (Nat × Queue × Cmd) :=
  s.queues.filterMap fun (e : Nat × Queue) =>
    match e.2.active with
    | some c => if c.phase = .waiting ∧ c.launched = false then some (e.1, e.2, c) else none
    | none => none

/-- A command with what its object list says. -/
def Cmd.withList (c : Cmd) (o : ObjList) : Cmd := { c with writes := o.writes, live := o.live, saveVa := o.saveVa }

/-- A head with its object list, when the module can know it now: it looks at it, or an earlier attempt has kept it. -/
def State.listed? (s : State) (qn : Nat) (q : Queue) (c : Cmd) : Option Cmd :=
  match (s.readListAs { s.whoStream qn q c 0 0 with peek := true } q c none).1 with
  | .ok o => some (c.withList o)
  | _ => if c.failedAt.isSome then some c else none

/-- Head c' failed its test in a frame that has ended, and before head c did if that one failed too (R77). -/
def State.waitedLonger (s : State) (c' c : Cmd) : Bool :=
  match c'.failedAt with
  | none => false
  | some a => decide (a < s.frame.boundaryAt) && c.failedAt.all fun b => decide (a < b)

/-- Another head must be tested before this one: at a boundary, an older failed head of the bight (R77); and under a finite
module grant that does not cover both, a head of a lower bight (R78). -/
def State.mustYield (s : State) (qn : Nat) (q : Queue) (c : Cmd) : Bool :=
  s.heads.any fun (qn', q', c') =>
    qn' != qn && (s.bight q'.bight).launches &&
      (s.listed? qn' q' c').any fun c' => s.unheld qn' c' &&
        (match s.launchTest q'.bight c', s.launchTest q.bight c with
          | some p', some p =>
            let both := match s.energy.effective with
              | none => true
              | some mj => decide ((((p + p') * pjPerUj : Nat) : Int) ≤ s.moduleRemaining mj)
            (s.atBoundary && q'.bight == q.bight && s.waitedLonger c' c) || (decide (q'.bight < q.bight) && !both)
          | _, _ => false)

/-! ### Starting a launched command -/

/-- The command's own work may begin: a RUN may become resident, any other kind runs (R443, R457). -/
def State.startKind (s : State) (qn : Nat) (c : Cmd) : State :=
  s.modCmd qn c.seq fun d => { d with phase := if c.isRun then .listed else .running }

/-- A RUN that launches joins its bight's run list, in launch order; one that runs again is on it (R457, R458). -/
def State.joinRunList (s : State) (qn : Nat) (q : Queue) (c : Cmd) : State :=
  if c.isRun then
    s.modBight q.bight fun x => { x with
      runList := if x.runList.contains (qn, c.seq) then x.runList else x.runList ++ [(qn, c.seq)] }
  else s

/-- A RECV takes its reduction slots and becomes the handoff RECV of its slot (R504, R520). -/
def State.startRecv (s : State) (qn : Nat) (c : Cmd) (role : HandoffRole) : State :=
  let s := match c.payload with
    | .recv window 1 _ _ _ slots .. =>
      let n := (s.inWin window).redPort
      (s.modPort n fun p => { p with freeSlots := p.freeSlots - slots }).modCmd qn c.seq fun d =>
        { d with recv := { d.recv with claim := some (n, slots) } }
    | _ => s
  match role with
  | .recv i => (s.modSlot i fun x => { x with recv := some (qn, c.seq) }).modCmd qn c.seq fun d =>
      { d with recv := { d.recv with slot := some i } }
  | _ => s

/-- Open the write list of a launched command; its work begins at once when nothing is to be copied (R443). -/
def State.openAndStart (s : State) (qn : Nat) (q : Queue) (c : Cmd) : State :=
  let (copies, s) := (s.joinRunList qn q c).openObjects qn c
  if copies.isEmpty then s.startKind qn c
  else s.modCmd qn c.seq fun d => { d with phase := .opening, copies := copies }

/-- Switch idle members back ON before a launch (R286); the answer says whether every member is ON. -/
def State.wakeBight (s : State) (b : Nat) : Bool × State :=
  let s := s.wakeMembers b
  ((s.bight b).place.memberClusters.all fun c => s.clusterOn c, s)

/-- Some queue of the bight has a head command that may launch: one that the launch test lets launch, or that runs again (R286,
R455). -/
def State.hasLaunchable (s : State) (b : Nat) : Bool :=
  (s.queuesOf b).any fun e =>
    match e.2.active with
    | some c => c.phase == .waiting && (c.launched || (s.launchTest b c).isSome)
    | none => false

/-- The head does not launch now: its object list and the time of its first failure are kept (R77). -/
def State.passOver (s : State) (qn : Nat) (c : Cmd) : State :=
  s.modCmd qn c.seq fun d => { d with
    failedAt := some (d.failedAt.getD s.now), writes := c.writes, live := c.live, saveVa := c.saveVa }

/-- A command launches: its prediction is fixed, its claim counts what is charged from now on, and its write list opens (R71, R73,
R443). A RECV that a slot on its window does not take ends when it would launch (R520). -/
def State.doLaunch (s : State) (qn : Nat) (q : Queue) (c : Cmd) (pred : Nat) (role : HandoffRole) : State :=
  let (awake, s) := s.wakeBight q.bight
  if !awake then s
  else
    if role = .bad then s.endFetched qn c.seq codeHandoffConfig
    else
    let s := s.modCmd qn c.seq fun d => { d with
      launched := true, pred := pred, preCharged := d.charged, failedAt := none, writes := c.writes, live := c.live, saveVa := c.saveVa }
    (s.startRecv qn c role).openAndStart qn q c

/-- A command waits for an ABORT invalidation before it runs again (R379). -/
def State.heldByInv (s : State) (q seq : Nat) : Bool := s.xlat.invs.any fun v => v.kills.contains (q, seq)

/-- A command of a function that may not command the bight ends (R408); a RELASH is refused, and its result is recorded (R263). -/
def State.notPermitted (s : State) (qn : Nat) (q : Queue) (c : Cmd) : State :=
  match c.payload with
  | .relash _ =>
    (s.modBight q.bight fun x => { x with relashResult := lashNotPermitted, relashSeq := x.relashSeq + 1 }).endFetched qn c.seq
      codeRelashRefused
  | _ => s.endFetched qn c.seq codeNotPermitted

/-- Launch a head that runs again (R455): its objects are read, and free or held by its group, no weight measurement covers one of them
(R593), and no ABORT invalidation holds it. -/
def State.relaunch (s : State) (qn : Nat) (q : Queue) (c : Cmd) : State :=
  let (awake, s) := s.wakeBight q.bight
  match State.allListedOk (s.whoStream qn q c 0 0) s c.writes with
  | (.held, s) => s
  | (.bad, s) => s.failCmd qn c.seq codeBusError
  | (.ok _, s) =>
    if awake && s.objectsFree qn c && !s.measuredBlocks c && !s.heldByInv qn c.seq then s.openAndStart qn q c else s

/-- Launch the head of a queue if everything allows it (R408, R440, R442, R451, R455, R495, R520). -/
def State.launchHead (s : State) (qn : Nat) (q : Queue) (c : Cmd) (ans : HostAns) : State :=
  let x := s.bight q.bight
  let s := s.forgetSteps
  if !x.launches then s
  else if !x.permits q.fn then s.notPermitted qn q c
  else if c.launched then s.relaunch qn q c
  else
    match s.readList qn q c ans with
    | (.fault, s) => s
    | (.code e, s) => s.endFetched qn c.seq e
    | (.ok o, s) =>
      let c := c.withList o
      let role := s.handoffRole c
      if s.groupConflict qn c then s.endFetched qn c.seq codeGroupConflict
      else if s.collectiveBad c then s.endFetched qn c.seq codeCollective
      else
        match s.launchTest q.bight c with
        | none => s.passOver qn c
        | some pred =>
          if !s.unheld qn c then s.passOver qn c
          else if s.mustYield qn q c then s
          else s.doLaunch qn q c pred role

/-! ### Copying committed frames to open frames (R443) -/

/-- What the leaf of a page of an object gives: the destinations of its committed and its open frame, nothing for a page that is
not the object's, a fault with whether a write meets it, or a wait. -/
inductive PageRes where
  | frames (committed opened : Dest)
  | other
  | fault (write : Bool) (reason : Nat)
  | held
deriving DecidableEq, Repr

/-- The frames of a page of an object by the leaf that is found. -/
def State.pageFramesBy (s : State) (w : Who) (va obj : Nat) : PageRes × State :=
  let kept := fun (x : PageRes × State) (found : Option (Bool × CacheEntry)) =>
    match x with
    | (.fault write e, s) => (PageRes.fault write e, s)
    | (x, s) => (x, s.keepLeaf w found)
  match s.findLeaf w va false with
  | ((.fault e, _), s) => (.fault false e, s)
  | ((.held, _), s) => (.held, s)
  | ((.leaf level leaf fn _ addr, found), s) =>
    (kept · found) <| if !leafShadow leaf || leafF leaf 44 20 != obj then (.other, s)
    else if !permitted leaf false then (.fault false rRead, s)
    else if !permitted leaf true then (.fault true rWrite, s)
    else
      match s.readObject w obj with
      | (.bad, s) => (.fault false rUnreadable, s)
      | (.held, s) => (.held, s)
      | (.ok o, s) =>
        if o.malformed then (.fault false rMalformed, s)
        else
        let frame := fun (one : Bool) => if one then leafF leaf 96 32 else leafF leaf 64 32
        let gen := fun (one : Bool) => leaf.getLsbD (if one then 43 else 42)
        let dest := fun (one : Bool) => s.frameDest w leaf level fn va 65536 (frame one) (gen one)
        if s.rotationHolds leaf addr (if o.csel then 1 else 0) (gen o.csel) false then (.held, s)
        else if s.rotationHolds leaf addr (if o.csel then 0 else 1) (gen (!o.csel)) true then
          let id := (w.asid * 2 ^ 52 + addr, if o.csel then 0 else 1)
          (.held, s.modKeySlot (leafF leaf 36 6) fun x =>
            { x with ahead := if x.ahead.contains id then x.ahead else x.ahead ++ [id] })
        else
          match dest o.csel, dest (!o.csel) with
          | .ok a, .ok b => (.frames a b, s)
          | .fault e, _ => (.fault false e, s)
          | _, .fault e => (.fault true e, s)
          | _, _ => (.held, s)

/-- The same, where a fault that a cached leaf causes is one only when the tables cause it, too (R361). -/
def State.pageFramesNow (s : State) (w : Who) (va obj : Nat) : PageRes × State :=
  match s.pageFramesBy w va obj with
  | (.fault write e, t) =>
    if (s.hit w va).any fun x => x.usable w false then (t.forget w va).pageFramesBy w va obj else (.fault write e, t)
  | x => x

/-- The destinations of the committed and the open frame of a page of an object, as a DMA stream of the command sees them. -/
def State.pageFrames (s : State) (w : Who) (va obj : Nat) : VEnd (Option (Dest × Dest)) × State :=
  if s.streamWaits w va then (.fault, s)
  else match s.pageFramesNow w va obj with
  | (.frames a b, s) => (.ok (some (a, b)), s)
  | (.other, s) => (.ok none, s)
  | (.fault write e, s) => (.fault, s.faultFor w va write e)
  | (.held, s) => (.fault, s)

/-- A destination `o` bytes further on. -/
def Dest.add (d : Dest) (o : Nat) : Dest :=
  match d with
  | .phys a k f => .phys (a + o) k f
  | .host f p a => .host f p (a + o)
  | .remote w x => .remote w (x + o)

/-- Copy 4 KiB blocks from one destination to another. -/
def State.copyBlocks (w : Who) (a b : Dest) : Nat → Nat → State → HostAns → VEnd HostAns × State
  | 0, _, s, ans => (.ok ans, s)
  | n + 1, o, s, ans =>
    match s.readDest w agentDma 4096 (a.add o) ans with
    | (.fault, s) => (.fault, s)
    | (.code c, s) => (.code c, s)
    | (.ok (d, ans), s) =>
      match s.writeDest w agentDma (b.add o) d with
      | (.ok _, s) => State.copyBlocks w a b n (o + 4096) s ans
      | (.fault, s) => (.fault, s)
      | (.code c, s) => (.code c, s)

/-- Copy the pages of one COPY entry. -/
def State.copyPages (w : Who) (obj : Nat) : Nat → Nat → State → HostAns → VEnd HostAns × State
  | 0, _, s, ans => (.ok ans, s)
  | n + 1, va, s, ans =>
    match s.pageFrames w va obj with
    | (.fault, s) => (.fault, s)
    | (.code c, s) => (.code c, s)
    | (.ok none, s) => State.copyPages w obj n (va + 65536) s ans
    | (.ok (some (a, b)), s) =>
      match State.copyBlocks { w with page := va / 65536 } a b 16 0 s ans with
      | (.ok ans, s) => State.copyPages w obj n (va + 65536) s ans
      | r => r

/-- Copy every COPY entry that is left. -/
def State.copyEntries (w : Who) : List WriteEntry → State → HostAns → VEnd HostAns × State
  | [], s, ans => (.ok ans, s)
  | e :: t, s, ans =>
    match State.copyPages w e.object (e.length / 65536) e.va s ans with
    | (.ok ans, s) => State.copyEntries w t s ans
    | r => r

/-! ### Live ranges (R439, R459) -/

/-- The ranges of one member in the order of the save area: physical address and length (R439). -/
def liveRanges (l : List LiveEntry) (cluster : Nat) : List (Nat × Nat) :=
  ((l.filter fun e => e.region == 0).flatMap fun e =>
    (List.range 16).map fun k => (sramAddr cluster (k * 0x400000 + e.offset), e.length)) ++
    (l.filter fun e => e.region == 1).map fun e => (sramAddr cluster (0x04000000 + e.offset), e.length)

/-- Save a list of ranges from a virtual address upwards. -/
def State.saveRanges (w : Who) : List (Nat × Nat) → Nat → State → VEnd Unit × State
  | [], _, s => (.ok (), s)
  | (a, n) :: t, va, s =>
    match s.physRead agentDma none w.payer a n with
    | (.error _, s) => (.code codeBusError, s)
    | (.ok d, s) =>
      match State.writeVirt w agentDma (blocksOf n) s va d with
      | (.ok _, s) => State.saveRanges w t (va + n) s
      | r => r

/-- Restore a list of ranges from a virtual address upwards. -/
def State.restoreRanges (w : Who) : List (Nat × Nat) → Nat → State → HostAns → VEnd HostAns × State
  | [], _, s, ans => (.ok ans, s)
  | (a, n) :: t, va, s, ans =>
    match State.readVirt w agentDma (blocksOf n) s va n ans with
    | (.fault, s) => (.fault, s)
    | (.code c, s) => (.code c, s)
    | (.ok (d, ans), s) => State.restoreRanges w t (va + n) (s.physWrite agentDma none w.payer a d).2 ans

/-- Save or restore the live ranges of a command on every member of its bight, member by member (R439, R459). -/
def State.moveLive (s0 : State) (qn : Nat) (q : Queue) (c : Cmd) (save : Bool) (ans : HostAns) : VEnd HostAns × State :=
  let p := (s0.bight q.bight).place
  let vol := liveVolume c.live
  (p.memberClusters.zipIdx).foldl (fun (acc : VEnd HostAns × State) e =>
    match acc with
    | (.ok ans, s) =>
      let w := s.whoStream qn q c e.2 0
      let va := c.saveVa + e.2 * vol
      if save then
        match State.saveRanges w (liveRanges c.live e.1) va s with
        | (.ok _, s) => (.ok ans, s)
        | (.fault, s) => (.fault, s)
        | (.code k, s) => (.code k, s)
      else State.restoreRanges w (liveRanges c.live e.1) va s ans
    | r => r) (.ok ans, s0)

end Sys2Proof.Machine
end

