-- ==== Sys2Proof/Machine/DmaOps.lean ====
section
/-! DEFINITION. The transfers of MOVE and SEND commands, the reduced output of a RECV, and when a command has finished (R363,
R371, R412, R429, R444, R445, R489, R491, R494, R496, R503 to R507). -/

namespace Sys2Proof.Machine

/-- A kill of the command waits in its bight's commit register: its own work goes no further. -/
def State.doomed (s : State) (b q seq : Nat) : Bool :=
  (s.bight b).creg.any fun e => match e with | .kill q' n _ _ _ => q' == q && n == seq | .commit _ _ => false

/-- Another RELASH of the bight has been checked, and has neither signalled nor broken its fence, which one of another queue does only
in its turn (R275, R416). -/
def State.relashAhead (s : State) (b q seq : Nat) : Bool :=
  (s.cmdsOf b).any fun e => !(e.1 == q && e.2.seq == seq) &&
    (if e.2.live? then e.2.begun || e.2.phase == .killing || s.doomed b e.1 e.2.seq else e.1 != q) &&
    (match e.2.payload with | .relash _ => true | _ => false)

/-- The command that a queue runs now: its active command, in its own work and with no kill waiting. -/
def State.working (s : State) (qn : Nat) : Option (Queue × Cmd) :=
  match s.active qn with
  | some (q, c) => if c.phase = .running ∧ s.doomed q.bight qn c.seq = false then some (q, c) else none
  | none => none

/-! ### Cutting a transfer into pieces (R412, R489, R494) -/

/-- Cut a transfer at the 4 KiB blocks of both ends: source, destination and length of each part. -/
def cutBlocks : Nat → Nat → Nat → Nat → List (Nat × Nat × Nat)
  | 0, _, _, _ => []
  | fuel + 1, src, dst, n =>
    if n = 0 then []
    else
      let m := min n (min (4096 - src % 4096) (4096 - dst % 4096))
      (src, dst, m) :: cutBlocks fuel (src + m) (dst + m) (n - m)

/-- The parts of one transfer. -/
def cutTransfer (src dst n : Nat) : List (Nat × Nat × Nat) := cutBlocks (2 * (n / 4096) + 3) src dst n

/-- The carry index of the member that a LAMBDA field names: none for a λ that is no member; the inner none is the spread over
all members (R412). -/
def Place.carrier (p : Place) (lam : Nat) : Option (Option Nat) :=
  if lam = 0xFFFF then some none
  else if p.members.contains lam then some (some (p.members.idxOf lam)) else none

/-- The pieces of a list of parts. Which member carries a piece of a spread transfer, and which stream carries a command, are
free (log 3). -/
def piecesOf (q seq members : Nat) (who : Option Nat) (parts : List (Nat × Nat × Nat)) : List Piece :=
  parts.zipIdx.map fun (e : (Nat × Nat × Nat) × Nat) =>
    { src := e.1.1, dst := e.1.2.1, len := e.1.2.2, state := .toRead,
      iota := who.getD (Config.spreadOf q seq e.2 members % members), stream := Config.streamOf q seq % 8 }

/-- The parts of a SEND: segment j to DST_j, or everything to every DST_j (R494). -/
def sendParts (src len mode nDst : Nat) (dst : List Nat) : List (Nat × Nat × Nat) :=
  (dst.take nDst).zipIdx.flatMap fun (e : Nat × Nat) =>
    if mode = 0 then cutTransfer (src + e.2 * (len / nDst)) e.1 (len / nDst) else cutTransfer src e.1 len

/-- The transfer begins: it is cut into pieces. A LAMBDA that names no member of the bight ends the command (log 40). -/
def State.beginTransfer (s : State) (qn : Nat) (q : Queue) (c : Cmd) (lambda : Nat) (parts : List (Nat × Nat × Nat)) : State :=
  let p := (s.bight q.bight).place
  match p.carrier lambda with
  | none => s.failCmd qn c.seq codeMalformed
  | some who => s.modCmd qn c.seq fun d => { d with
      begun := true, pieces := piecesOf qn c.seq p.members.length who parts }

/-! ### One stage of a piece -/

/-- A piece of a command, as it stands. -/
def State.piece? (s : State) (qn seq i : Nat) : Option Piece := (s.cmd? qn seq).bind fun c => c.pieces[i]?

def State.setPiece (s : State) (qn seq i : Nat) (x : PieceState) : State :=
  s.modCmd qn seq fun c => { c with pieces := modifyAt (fun (p : Piece) => { p with state := x }) c.pieces i }

/-- A fault of a requester is pending on the page of an address (R364). -/
def State.faultPending (s : State) (r : Requester) (asid va : Nat) : Bool :=
  s.xlat.faults.any fun f => f.requester == r && f.asid == asid && f.page == va / 65536

/-- An earlier piece of the same stream has stopped at a fault: the stream translates in order (R360, R363). -/
def streamStopped (l : List Piece) (i : Nat) (p : Piece) : Bool :=
  (l.take i).any fun e => e.iota == p.iota && e.stream == p.stream && (match e.state with | .faulted _ _ => true | _ => false)

/-- A piece holds a descriptor of its stream: its read or write has begun and it is not stored yet. -/
def Piece.inFlight (p : Piece) : Bool := match p.state with | .toRead => false | .done => false | _ => true

/-- Its packets are those of 4 KiB chunks: REDUCE (R505). -/
def Cmd.reduces (c : Cmd) : Bool := match c.payload with | .send _ _ _ _ pkt _ _ => pkt == 1 | _ => false

/-- The break code of a request that did not succeed (R429, R491); none while it waits or when it succeeded. -/
def ReqResult.failure : ReqResult → Option Nat
  | .busError _ => some codeBusError
  | .hostError => some codeHostError
  | .refused => some codeRemoteRefused
  | .linkDown => some codeLinkDown
  | _ => none

/-- Start a piece's read or write: a request goes out, or the stream stops at a fault, or the command fails. -/
def State.startPiece (s : State) (qn : Nat) (q : Queue) (c : Cmd) (i : Nat) (p : Piece) (write reduce : Bool) (data : Bytes) :
    State :=
  let w := s.whoStream qn q c p.iota p.stream
  let va := if write then p.dst else p.src
  let n := if write then data.length else p.len
  if s.streamWaits w va then s
  else
  let (x, s) := s.forgetSteps.translate w va n write
  match x with
  | .ok d =>
    let a : Access := { who := w, owner := .piece qn c.seq i, master := q.bight, deadline := c.deadline, write,
                        reduce, va, len := n, data }
    let (id, s) := s.startAccess a d
    s.setPiece qn c.seq i (if write then .writing id else .reading id)
  | .fault r => (s.faultFor w va write r).setPiece qn c.seq i (.faulted write data)
  | .kill k => s.failCmd qn c.seq k
  | .refused => s.failCmd qn c.seq codeRemoteRefused
  | .hold => s

/-- The pieces that a REDUCE packet joins: from `p` on, those that follow it within one 4 KiB chunk (R505). -/
def chunkRun : Piece → List Piece → List Piece
  | _, [] => []
  | p, e :: t => if e.dst = p.dst + p.len ∧ e.dst % 4096 ≠ 0 then e :: chunkRun e t else []

/-- The piece continues a chunk that an earlier piece begins. -/
def chunkFollows (l : List Piece) (i : Nat) (p : Piece) : Bool :=
  match l[i - 1]? with
  | some e => i != 0 && decide (p.dst = e.dst + e.len) && p.dst % 4096 != 0
  | none => false

/-- The transfers that a command has in flight on a stream of a member: the pieces that hold a descriptor, those of one REDUCE chunk
as one. -/
def Cmd.inFlight (c : Cmd) (iota stream : Nat) : Nat :=
  (c.pieces.zipIdx.filter fun e => e.1.inFlight && e.1.iota == iota && e.1.stream == stream &&
    !(c.reduces && chunkFollows c.pieces e.2 e.1)).length

/-- The four descriptors of a stream are in use (R27, log 183). -/
def State.streamFull (s : State) (b : Nat) (p : Piece) : Bool :=
  decide (4 ≤ ((s.cmdsOf b).map fun e => e.2.inFlight p.iota p.stream).sum)

/-- The data of a chunk's pieces once all of them have been read. -/
def chunkData : List Piece → Option Bytes
  | [] => some []
  | p :: t =>
    match p.state, chunkData t with
    | .toWrite d, some r => some (d ++ r)
    | _, _ => none

/-- Start the REDUCE packet of a chunk, whose first piece is `i`: once it has left, the `n` pieces after it in the chunk are done; where
it stops at a fault, the first piece keeps its own data `own`, and the chunk is put together again (R363, R505). -/
def State.startChunk (s : State) (qn : Nat) (q : Queue) (c : Cmd) (i n : Nat) (p : Piece) (own all : Bytes) : State :=
  let s := s.startPiece qn q c i p true true all
  match s.piece? qn c.seq i with
  | some x =>
    (match x.state with
      | .writing _ => (List.range n).foldl (fun s k => s.setPiece qn c.seq (i + 1 + k) .done) s
      | .faulted w _ => s.setPiece qn c.seq i (.faulted w own)
      | _ => s)
  | none => s

/-- One stage of piece `i` of a transfer. A piece that stopped at a fault of another command, which has been discarded with that
command, walks again (R364, R373). -/
def State.stepPiece (s : State) (qn : Nat) (q : Queue) (seq : Nat) (reduce : Bool) (i : Nat) : State :=
  match s.cmd? qn seq with
  | none => s
  | some c =>
    if c.phase ≠ .running ∨ s.doomed q.bight qn seq = true then s
    else
      match c.pieces[i]? with
      | none => s
      | some p =>
        match p.state with
        | .toRead =>
          if streamStopped c.pieces i p || (s.streamFull q.bight p && !(reduce && chunkFollows c.pieces i p)) then s
          else s.startPiece qn q c i p false false []
        | .reading id =>
          (match s.req? id with
            | none => s
            | some r =>
              match r.result with
              | .data d => (s.dropReq id).setPiece qn seq i (.toWrite d)
              | .pending => s
              | .stored => s
              | .lost => s
              | e => (s.dropReq id).failCmd qn seq (e.failure.getD codeBusError))
        | .toWrite d =>
          if streamStopped c.pieces i p then s
          else if reduce then
            if chunkFollows c.pieces i p then s
            else
              let rest := chunkRun p (c.pieces.drop (i + 1))
              (match chunkData (p :: rest) with
                | none => s
                | some all => s.startChunk qn q c i rest.length p d all)
          else s.startPiece qn q c i p true false d
        | .writing id =>
          (match s.req? id with
            | none => s
            | some r =>
              match r.result with
              | .stored => (s.dropReq id).setPiece qn seq i .done
              | .pending => s
              | .data _ => s
              | .lost => s
              | e => (s.dropReq id).failCmd qn seq (e.failure.getD codeBusError))
        | .faulted write d =>
          if s.faultPending (.stream ((s.bight q.bight).place.cluster ((s.bight q.bight).place.members.getD p.iota 0)) p.stream)
            q.asid (if write then p.dst else p.src) then s
          else s.setPiece qn seq i (if write then .toWrite d else .toRead)
        | .done => s

/-- One stage of every piece of a transfer, in order. -/
def State.stepTransfer (s : State) (qn : Nat) (q : Queue) (c : Cmd) (reduce : Bool) : State :=
  (List.range c.pieces.length).foldl (fun s i => s.stepPiece qn q c.seq reduce i) s

/-- Every piece has been stored at its destination. -/
def Cmd.moved (c : Cmd) : Bool := c.pieces.all fun p => p.state == .done

/-! ### The output of a REDUCE RECV (R142, R503, R507) -/

/-- The term flags of a chunk's anchored partials (R158). -/
def chunkTermFlags (data : Bytes) : BitVec 9 :=
  termFlags ((List.range (data.length / 32)).map fun i => (partialOf (leAt data (32 * i) 32)).2.2)

/-- The bytes that a complete chunk stores, where it stores them, and the flags it sets: those of its partials' terms and those of
their conversion (R507). -/
def chunkOutput (rtype out outVa seed iBase iRow rowLen index : Nat) (data : Bytes) : Nat × Bytes × BitVec 9 :=
  let e0 := index * 4096 / elemSize rtype
  if rtype = 0 ∧ out % 16 ≠ 4 then
    let n := data.length / 32
    let res := (List.range n).map fun i =>
      let e := e0 + i
      let (anchor, wide, acc) := partialOf (leAt data (32 * i) 32)
      let li := (iBase + e / rowLen * iRow + e % rowLen) % 2 ^ 64
      let u := if out / 16 = 1 then some (draw (BitVec.ofNat 64 seed) (BitVec.ofNat 64 li)) else none
      convertOut (out % 16) wide anchor u acc
    (outVa + e0 * outBytes (out % 16), res.flatMap (·.1), res.foldl (fun a r => a ||| r.2) (chunkTermFlags data))
  else (outVa + index * 4096, data, if rtype = 0 then chunkTermFlags data else 0)

/-- The chunks of a RECV that every source has added to and that have not been written yet. -/
def Cmd.readyChunks (c : Cmd) (nSrc : Nat) (chunks : List Chunk) : List Chunk :=
  chunks.filter fun k => decide (nSrc ≤ k.added.length) && !c.recv.completed.contains k.index

/-- Number of 4 KiB chunks of IN_LEN bytes. -/
def chunkCount (inLen : Nat) : Nat := divUp inLen 4096

/-- The accumulators at a window: they stand in the RECV's own record. -/
def Cmd.chunkList (c : Cmd) : List Chunk := c.recv.chunks

/-- Write one complete chunk of a REDUCE RECV through stream 0 of the member with carry index 0 (log 41). -/
def State.writeChunk (s : State) (qn : Nat) (q : Queue) (c : Cmd) (k : Chunk) : State :=
  match c.payload with
  | .recv _ _ _ rtype out _ _ outVa seed iBase iRow rowLen _ _ =>
    let (va, d, fl) := chunkOutput rtype out outVa seed.toNat iBase iRow rowLen k.index k.data
    (match State.writeVirt (s.whoStream qn q c 0 0) agentDma (blocksOf d.length) s.forgetSteps va d with
      | (.fault, s) => s
      | (.code e, s) => s.failCmd qn c.seq e
      | (.ok _, s) => s.modCmd qn c.seq fun x => { x with
          acc := x.acc ||| fl
          recv := { x.recv with
            completed := k.index :: x.recv.completed, chunks := x.recv.chunks.filter fun y => y.index != k.index } })
  | _ => s

/-! ### Finishing (R444, R445, R496) -/

/-- Every layer of a receive slot is complete (R521). -/
def State.layersDone (s : State) (i : Nat) : Bool :=
  (List.range (s.slot i).layers).all fun l => s.layerCount i l == (s.slot i).layerLen

/-- Every prefetch copy of a handoff RECV is done (R523). -/
def State.prefetched (s : State) (i : Nat) (c : Cmd) : Bool :=
  (List.range (s.slot i).pfLayers).all fun l => c.recv.copied.contains l

/-- Accepted commit notices of distinct epochs. -/
def Cmd.notices (c : Cmd) : Nat := (c.recv.contributors.filter fun e => e.notice.isSome).length

/-- The command has finished and may send its commit request (R444, R445, R496, R524). -/
def State.finished (s : State) (qn : Nat) (q : Queue) (c : Cmd) : Bool :=
  c.phase == .running && c.begun && !s.cmdBusy qn c q.bight && !s.doomed q.bight qn c.seq &&
    match c.payload with
    | .run _ _ =>
      (match (s.bight q.bight).resident with | some (q', n, _) => q' == qn && n == c.seq | none => false) &&
        s.runFinished q.bight
    | .move _ _ _ _ => c.moved
    | .send _ _ _ _ _ _ _ => c.moved
    | .recv _ op nSrc _ _ _ inLen .. =>
      decide (nSrc ≤ c.notices) && (op == 0 || decide (chunkCount inLen ≤ c.recv.completed.length)) &&
        match c.recv.slot with
        | some i => s.layersDone i && s.prefetched i c
        | none => true
    | .wait _ _ => true
    | .signal _ _ => true
    | .relash _ =>
      (match (s.bight q.bight).relash with | some r => !(r.queue == qn && r.seq == c.seq) | none => true)
    | .commitGroup _ => false

end Sys2Proof.Machine
end

