-- ==== Sys2Proof/Machine/InvOps.lean ====
section
/-! DEFINITION. Invalidations, closing windows, requests that come through windows, and the answers to them (R363, R374 to R388,
R435, R489 to R493, R498 to R501, R521). -/

namespace Sys2Proof.Machine

/-! ### Invalidations (R375 to R379) -/

/-- The scope of an invalidation. -/
inductive InvScope where
  /-- pages of 64 KiB of an ASID, from the first, so many -/
  | range (asid first count : Nat)
  | asid (asid : Nat)
  | all
  | window (w : Nat)
deriving DecidableEq, Repr

/-- The ASID that a scope names, if one, and its first page and the page after its last. -/
def State.scopePages (s : State) (x : InvScope) : Option Nat × Nat × Nat :=
  match x with
  | .range a f n => (some a, f, f + n)
  | .asid a => (some a, 0, 2 ^ 36)
  | .all => (none, 0, 2 ^ 36)
  | .window w =>
    let v := s.inWin w
    (some v.asid, v.base / 65536, (v.base + v.length) / 65536)

/-- Pages `lo` up to `hi` of an ASID meet a scope. -/
def State.inScope (s : State) (x : InvScope) (asid lo hi : Nat) : Bool :=
  let (a, f, l) := s.scopePages x
  (a == none || a == some asid) && decide (lo < l) && decide (f < hi)

/-- A cached leaf, or a cached non-leaf entry, meets a scope. -/
def State.leafInScope (s : State) (x : InvScope) (e : CacheEntry) : Bool :=
  let n := 2 ^ (pageBits e.level - 16)
  s.inScope x e.asid (e.page * n) ((e.page + 1) * n)

def State.entryInScope (s : State) (x : InvScope) (e : WalkEntry) : Bool :=
  let n := 2 ^ (pageBits e.level - 16)
  s.inScope x e.asid (e.prefixBits * n) ((e.prefixBits + 1) * n)

/-- An access counter's region meets a scope (R383). -/
def State.counterInScope (s : State) (x : InvScope) (c : Counter) : Bool :=
  s.inScope x c.asid (c.region * 32) ((c.region + 1) * 32)

/-- A far store has failed, and its core has still to report it (R122). -/
def State.storeUnreported (s : State) (r : Req) : Bool :=
  match r.owner with
  | .far _ => r.write && r.result.failed
  | _ => false

/-- An outstanding request used a translation in the scope (R378): it was translated from one of the cached entries that are
removed, or its own page lies in the scope, or it came through the window. A table read is part of a walk, which starts again
(R377). -/
def State.usedOld (s : State) (x : InvScope) (r : Req) : Bool :=
  r.result == .pending && r.asAgent != some agentTable &&
    match x with
    | .window w => r.window == w || s.inScope x r.asid r.page (r.page + 1)
    | _ => s.inScope x r.asid r.page (r.page + 1) ||
        s.xlat.cache.any fun e =>
          s.leafInScope x e && e.asid == r.asid && e.page == r.page / 2 ^ (pageBits e.level - 16)

/-- The command that waits for a request, if one does: queue and sequence number. -/
def State.cmdOfReq (s : State) (r : Req) : Option (Nat × Nat) :=
  match r.owner with
  | .piece q n _ => some (q, n)
  | .far k =>
    (s.bightOfCluster (clusterOf k)).bind fun b => (s.bight b).resident.map fun e => (e.1, e.2.1)
  | .none => if r.step == .no then none else r.pay.map (·.2)
  | _ => none

/-- Remove every cached entry in a scope, and release the counters in it (R377, R383). -/
def State.uncacheScope (s : State) (x : InvScope) : State :=
  { s with xlat := { s.xlat with
      cache := s.xlat.cache.filter fun e => !s.leafInScope x e
      walkCache := s.xlat.walkCache.filter fun e => !s.entryInScope x e
      counters := Tab.mapPut [] (fun (_ : Nat) (l : List Counter) => l.filter fun c => !s.counterInScope x c) s.xlat.counters } }

/-- A walk in a scope that is in progress is discarded: the table reads that it has made, or waits for, are of no use to it, and it
starts again (R377). -/
def State.restartWalks (s : State) (x : InvScope) : State :=
  let ids := (s.reqs.filter fun r => r.step != .no && r.asAgent == some agentTable && r.stepBy.isSome &&
    s.inScope x r.asid r.page (r.page + 1)).map (·.id)
  let s := s.ungate ids
  { s with reqs := s.reqs.filter fun r => !ids.contains r.id }

/-- The frames in a scope that rotations are moving (R603). -/
def State.movesIn (s : State) (x : InvScope) : List (Nat × Nat) :=
  s.security.slots.filterMap fun (e : Nat × KeySlot) =>
    e.2.moving.bind fun m =>
      let n := 2 ^ (pageBits m.level - 16)
      if s.inScope x m.asid (m.va / 65536) (m.va / 65536 + n) then some (e.1, m.addr) else none

/-- Answer a packet through a port that is still up: READ_DATA 3 or WRITE_DONE 4 (R480, R491). Its energy is paid as the request's
is (R493). -/
def State.respond (s : State) (port tag source window offset : Nat) (write : Bool) (status sub : Nat) (data : Bytes)
    (pay : Option (Nat × Nat × Nat)) : State :=
  if s.portUsable port then
    s.sendPacket port { ty := if write then 4 else 3, len := data.length, dst := source, src := s.fabric.number, tag, status,
                        sub, offset, window } data pay
  else s

/-- A request of another module that used an old translation is discarded and refused (R379). -/
def State.refuseReq (s : State) (r : Req) : State :=
  match r.owner with
  | .inbound port tag source window offset =>
    let s := ((s.ungate [r.id]).refKey r false).dropReq r.id
    s.respond port tag source window offset r.write 1 0 [] r.pay
  | _ => s

/-- Issue an invalidation (R376 to R379): its entries are removed at once; under DRAIN it waits for the requests that used
them, under ABORT it kills the commands of those requests and refuses those of other modules. -/
def State.invalidate (s : State) (origin : InvOrigin) (abort : Bool) (x : InvScope) : State :=
  let used := s.reqs.filter fun r => s.usedOld x r
  let cores := if abort then [] else (s.reqs.filterMap fun r =>
    match r.owner with
    | .far k => if s.storeUnreported r && s.inScope x r.asid r.page (r.page + 1) then some k else none
    | _ => none).dedup
  let moves := s.movesIn x
  let s := (s.uncacheScope x).restartWalks x
  if abort then
    let cmds := (used.filterMap fun r => s.cmdOfReq r).dedup
    let s := cmds.foldl (fun (s : State) (e : Nat × Nat) =>
      match s.cmd? e.1 e.2 with
      | some c =>
        if c.direct then s.requestKill e.1 e.2 codeAborted (detailCmd e.1 e.2) false else s.requestKill e.1 e.2 0 0 true
      | none => s) s
    let s := used.foldl (fun (s : State) r => s.refuseReq r) s
    { s with xlat := { s.xlat with invs := s.xlat.invs ++ [{ origin, abort, waits := [], moves, kills := cmds }] } }
  else
    { s with xlat := { s.xlat with invs := s.xlat.invs ++ [{ origin, abort, waits := used.map (·.id), moves, cores, kills := [] }] } }

/-- A kill that an invalidation asked for is done: it has been taken and completed, or came too late (R379, R468). -/
def State.killSettled (s : State) (e : Nat × Nat) : Bool :=
  match s.queue? e.1 with
  | none => true
  | some q =>
    !s.doomed q.bight e.1 e.2 && (match q.cmd? e.2 with | some c => c.phase != .killing | none => true)

/-- A core has a far store that failed to report (R122). -/
def State.storeDue (s : State) (k : Nat) : Bool := (s.core k).storeError.isSome || s.reqs.any fun r => r.owner == .far k && s.storeUnreported r

/-- A frame is still being moved (R603). -/
def State.stillMoving (s : State) (e : Nat × Nat) : Bool := (s.keySlot e.1).moving.any fun m => m.addr == e.2

/-- Everything that an invalidation waits for has happened (R378, R379, R603). -/
def State.invDue (s : State) (v : Invalidation) : Bool :=
  v.waits.isEmpty && (v.kills.all fun e => s.killSettled e) && !v.moves.any s.stillMoving && !v.cores.any s.storeDue

def InvOrigin.isControl (o : InvOrigin) : Bool := match o with | .control _ => true | _ => false

/-- The invalidation that completes next: those of the host in the order of their issue, the module's own in any (R376). -/
def State.nextInv (s : State) : List Invalidation → Bool → Option Invalidation
  | [], _ => none
  | v :: t, held =>
    if s.invDue v && !(v.origin.isControl && held) then some v else s.nextInv t (held || v.origin.isControl)

/-- The list without the first entry equal to `v`. -/
def dropInv (v : Invalidation) : List Invalidation → List Invalidation
  | [] => []
  | w :: t => if w = v then t else w :: dropInv v t

/-- Close an open inbound window (R387). -/
def State.closeInbound (s : State) (w : Nat) (abort : Bool) : State :=
  let x := s.inWin w
  if x.state = 1 then (s.setInWin w { x with state := 3 }).invalidate (.window w) abort (.window w) else s

/-! ### Inbound requests (R386, R489 to R493, R499) -/

/-- A RECV whose window this is and that holds, or will hold again, its open versions: queue, its function and command (R454,
R499). -/
def State.recvOn (s : State) (window : Nat) : Option (Nat × Queue × Cmd) :=
  (s.queues.flatMap fun (e : Nat × Queue) => e.2.cmds.filterMap fun c =>
    match c.payload with
    | .recv w .. => if w = window ∧ c.launched = true ∧ c.live? = true then some (e.1, e.2, c) else none
    | _ => none).head?

/-- The contributor's place in a RECV's list: source and epoch (R497, R499). -/
def RecvState.find (x : RecvState) (source epoch : Nat) : Option Contributor :=
  x.contributors.find? fun e => e.source == source && e.epoch == BitVec.ofNat 48 epoch

def RecvState.put (x : RecvState) (c : Contributor) : RecvState :=
  if x.contributors.any fun e => e.source == c.source && e.epoch == c.epoch then
    { x with contributors := x.contributors.map fun e => if e.source == c.source && e.epoch == c.epoch then c else e }
  else { x with contributors := x.contributors ++ [c] }

/-- Number of sources that a RECV expects. -/
def Cmd.nSrc (c : Cmd) : Nat := match c.payload with | .recv _ _ n .. => n | _ => 0

/-- A packet of an epoch reaches a RECV's window (R499): the RECV with an entry for it, or none when it would be one too many. -/
def Cmd.meet (c : Cmd) (source epoch port : Nat) : Option RecvState :=
  match c.recv.find source epoch with
  | some e => some (c.recv.put { e with port })
  | none =>
    if c.recv.contributors.length < c.nSrc then
      some (c.recv.put { epoch := BitVec.ofNat 48 epoch, source, port })
    else none

/-- Attempt a lies before attempt b (R497). -/
def attemptBefore (a b : Nat) : Bool := decide (1 ≤ (b + 256 - a) % 256) && decide ((b + 256 - a) % 256 ≤ 127)

/-- The bytes a stored write adds to the layer counters of a handoff (R521): the layers that its bytes land in. -/
def State.addLayers (s : State) (i offset len : Nat) : State :=
  let L := (s.slot i).layerLen
  (List.range (s.slot i).layers).foldl (fun (s : State) l =>
    let n := min (offset + len) ((l + 1) * L) - max offset (l * L)
    if n = 0 then s else s.setLayer i l (s.layerCount i l + n)) s

/-- Some layer counter exceeds its length (R521). -/
def State.layersOver (s : State) (i : Nat) : Bool :=
  (List.range (s.slot i).layers).any fun l => decide ((s.slot i).layerLen < s.layerCount i l)

/-- An attempt of a contributor has been withdrawn (R500, R522). -/
def RecvState.withdrew (x : RecvState) (source epoch attempt : Nat) : Bool :=
  match (x.find source epoch).bind (·.withdrawn) with
  | some w => !attemptBefore w (attempt % 256)
  | none => false

/-- A write of a handoff's contributor to the state range is counted, unless its attempt is not the newest or has been withdrawn; it
restarts the slot's timer (R521, R522, R529). Layers that count again from zero are to be copied again (R523). -/
def State.countHandoff (s : State) (q seq i source epoch attempt offset len : Nat) : State :=
  match s.cmd? q seq with
  | none => s
  | some c =>
    match c.recv.find source epoch with
    | none => s
    | some e =>
      let fresh := match e.newest with | some n => attemptBefore n (attempt % 256) | none => true
      let counted := fresh || e.newest == some (attempt % 256)
      let s := if fresh then
          let s := if e.newest.isSome then s.clearLayers i else s
          s.modCmd q seq fun c => { c with recv := { (c.recv.put { e with newest := some (attempt % 256) }) with
            copied := if e.newest.isSome then [] else c.recv.copied } }
        else s
      if !counted then s
      else
        let s := (s.addLayers i offset len).modSlot i fun x => { x with timerAt := s.now }
        if s.layersOver i then s.failAlways q seq codeHandoffConfig else s

/-- A handoff RECV counts a write of its contributor that has been stored in the state range (R521). -/
def State.noteStored (s : State) (r : Req) : State :=
  match r.owner with
  | .inbound _ _ source window offset =>
    (match s.recvOn window with
      | some (q, _, c) =>
        (match c.recv.slot with
          | some i =>
            if r.len = 0 ∨ (s.slot i).range ≤ offset ∨ c.recv.withdrew source r.epoch r.attempt = true then s
            else s.countHandoff q c.seq i source r.epoch r.attempt offset r.len
          | none => s)
      | none => s)
  | _ => s

/-- Packets of a VC at a port, oldest first. -/
def State.arrived (s : State) (port v : Nat) : List Packet := Tab.look [] (s.port port).rxq v

/-- A packet leaves its receive buffer: its credits are returned (R475), and a flit carries them. -/
def State.takePacket (s : State) (port v i : Nat) : State :=
  match (s.arrived port v)[i]? with
  | none => s
  | some pk =>
    let s := s.modPort port fun p => { p with rxq := Tab.put [] p.rxq v (dropAt (Tab.look [] p.rxq v) i) }
    if pk.loop then s else (s.owe port v pk.payload.length).sendIdle port

/-- Requests of a window at a port wait behind a pending fault (R363). -/
def State.windowHeld (s : State) (port window : Nat) : Bool :=
  s.xlat.faults.any fun f =>
    match f.requester with
    | .window p w => w == window && (p == port || f.ports.contains port)
    | _ => false

/-- The oldest request packet at a port that is not held: its place and the packet. -/
def State.nextInbound (s : State) (port : Nat) : Option (Nat × Packet) :=
  ((s.arrived port 0).zipIdx.find? fun e => !s.windowHeld port e.1.hdr.window).map fun e => (e.2, e.1)

/-- The command that holds the object a window address maps, when that is a RECV: it pays for the request (R493). -/
def State.inboundPayer (s : State) (asid va : Nat) : Option (Nat × Nat × Nat) :=
  match s.leavesOf asid (va / 65536 * 65536) 65536 with
  | (_, _, leaf) :: _ =>
    if leafShadow leaf then s.recvHolding (s.object (leafF leaf 44 20)) else none
  | [] => none

/-- Who an inbound request is for (R349, R358, R386). -/
def State.whoInbound (s : State) (port window va : Nat) : Who :=
  let x := s.inWin window
  { asid := x.asid, fn := none, bight := none, cmd := none, requester := .window port window, cache := portCache port,
    die := dieOfPort port, master := 258 + port, deadline := s.stamp, cls := fieldN x.perm.toNat 2 2, payer := payerOf (s.inboundPayer x.asid va), inbound := true }

/-- An inbound request is refused at its window, without a fault entry (R386). -/
def State.windowRefuses (s : State) (h : Header) (write : Bool) : Bool :=
  let x := s.inWin h.window
  x.state != 1 || (x.source != 0xFFFF && x.source != h.src) || decide (x.length < h.offset + h.len) ||
    !x.perm.getLsbD (if write then 1 else 0)

def State.countRefused (s : State) : State := { s with xlat := { s.xlat with refused := s.xlat.refused + 1 } }

/-- Start the access of an inbound request at the destination that translation found: its packet leaves the buffer. -/
def State.startInbound (s : State) (port i : Nat) (pk : Packet) (w : Who) (d : Dest) : State :=
  let h := pk.hdr
  let write := h.ty == 2
  let a : Access := { who := w, owner := .inbound port h.tag h.src h.window h.offset, master := 258 + port, deadline := s.stamp,
                      write, va := (s.inWin h.window).base + h.offset, len := h.len, data := pk.payload }
  let (id, s) := (s.takePacket port 0 i).startAccess a d
  s.modReq id fun r => { r with window := h.window, epoch := h.epoch, attempt := h.attempt }

/-- A write request and the RECV on its window (R435, R499): none for an epoch beyond its N_SRC. -/
def State.meetInbound (s : State) (port : Nat) (h : Header) : Option State :=
  if h.ty ≠ 2 then some s
  else
    match s.recvOn h.window with
    | none => some s
    | some (q, _, c) => (c.meet h.src h.epoch port).map fun x => s.modCmd q c.seq fun d => { d with recv := x }

/-- Serve the oldest request packet at a port that is not held (R386, R491, R499): refused, answered NOT_READY, faulting, held,
or started. -/
def State.serveInbound (s0 : State) (port : Nat) : State :=
  let s := s0.forgetSteps
  match s.nextInbound port with
  | none => s
  | some (i, pk) =>
    let h := pk.hdr
    let write := h.ty == 2
    let answer := fun (s : State) (status sub : Nat) =>
      (s.takePacket port 0 i).respond port h.tag h.src h.window h.offset write status sub [] (s.inboundPayer (s.inWin h.window).asid ((s.inWin h.window).base + h.offset))
    if s.windowRefuses h write then answer s.countRefused 1 0
    else
      let va := (s.inWin h.window).base + h.offset
      let w := s.whoInbound port h.window va
      match s.meetInbound port h with
      | none => answer s 1 0
      | some s =>
        let (x, s) := s.translate w va (max h.len 1) write
        match x with
        | .ok d => s.startInbound port i pk w d
        | .fault r => s.faultFor w va write r
        | .refused => answer s 3 0
        | .kill _ => answer s 1 0
        | .hold => s

/-- What a finished request answers: status and sub-cause (R491). -/
def ReqResult.status : ReqResult → Nat × Nat
  | .data _ => (0, 0)
  | .stored => (0, 0)
  | .busError sub => if sub = subSram ∨ sub = subHbm ∨ sub = subPoison then (2, sub) else (1, 0)
  | _ => (1, 0)

/-- Answer the oldest finished request of another module that came through a port: reads with READ_DATA, writes with WRITE_DONE
(R480, R490, R491, R521). -/
def State.answerInbound (s : State) (port : Nat) (write : Bool) : State :=
  let mine := fun (r : Req) => r.write == write && r.result != .pending && !r.reduce &&
    (match r.owner with | .inbound p _ _ _ _ => p == port || p == 48 | _ => false)
  match s.reqs.find? mine with
  | none => s
  | some r =>
    match r.owner with
    | .inbound p tag source window offset =>
      let (st, sub) := r.result.status
      let data := match r.result with | .data d => d | _ => []
      let s := if write && st == 0 then s.noteStored r else s
      (s.dropReq r.id).respond p tag source window offset write st sub data r.pay
    | _ => s

/-! ### Results of requests that the module made -/

/-- A host access through BAR2 is over (R294, R326, R397): a read completes with its data, as poisoned, or as Unsupported
Request; a write that was not stored is counted. -/
def State.endAperture (s : State) (r : Req) (fn : Nat) (res : ReqResult) : State :=
  let s := s.dropReq r.id
  if r.write then
    (match res with
      | .stored => s
      | _ => s.modFn fn fun f => { f with errAperture := satInc16 f.errAperture })
  else
    match res with
    | .data d => s.send (.completion fn false (some d))
    | .busError sub => s.send (.completion fn (sub == subSram || sub == subHbm || sub == subPoison)
        (if sub = subSram ∨ sub = subHbm ∨ sub = subPoison then some (List.replicate r.len 0) else none))
    | _ => s.send (.completion fn false none)

/-- What a request brings that outlived the erase of its keys in a removal (R606): poison, and it is counted. -/
def State.lateResult (s : State) (id : Nat) (res : ReqResult) : ReqResult × State :=
  match s.req? id, res with
  | some r, .data _ =>
    if r.late then (.busError subPoison, { s with security := { s.security with late := s.security.late + 1 } }) else (res, s)
  | _, _ => (res, s)

/-- The result of a request has arrived where it was made: a request that nobody waits for is forgotten, a host access is completed,
and any other keeps its result until its owner takes it. -/
def State.endReq (s : State) (id : Nat) (res : ReqResult) : State :=
  let (res, s) := s.lateResult id res
  let s := s.settle id res
  match s.req? id with
  | some r =>
    (match r.owner with
      | .none => if r.step = .waits then s.modReq id fun r => { r with step := .passed } else s.dropReq id
      | .aperture fn => s.endAperture r fn res
      | _ => s)
  | none => s

/-- The result of a request is known at its target: it goes back on the paired circuit, or is there at once where no circuit carries
it (R222). -/
def State.arriveReq (s : State) (id : Nat) (res : ReqResult) : State :=
  match s.req? id with
  | none => s
  | some r =>
    match r.circ with
    | none => s.endReq id res
    | some x =>
      if r.stage = .answered then s
      else
        match s.circuit? x with
        | some c => (s.modReq id fun r => { r with stage := .answered }).sendVec c (!x.back) id res
        | none => s.endReq id res

end Sys2Proof.Machine
end

