-- ==== Sys2Proof/Machine/Reduce.lean ====
section
/-! DEFINITION. The collective engines of the link ports: the combination of contributions and the chunks of a REDUCE RECV (R503 to
R506). -/

namespace Sys2Proof.Machine

/-! ### Elements (R503) -/

/-- Exponent and mantissa bits of the float of a reduction type: FP32 for 3 and 4, BF16 for 5 and 6. -/
def redFloat (rtype : Nat) : Nat × Nat := if rtype ≤ 4 then (8, 23) else (8, 7)

/-- A float element is a NaN. -/
def redNan (rtype x : Nat) : Bool :=
  let (eb, mb) := redFloat rtype
  fieldN x mb eb == 2 ^ eb - 1 && fieldN x 0 mb != 0

/-- The place of a float element in the order: −0 lies below +0 (R503). -/
def redKey (rtype x : Nat) : Int :=
  let (eb, mb) := redFloat rtype
  let mag : Int := fieldN x 0 (eb + mb)
  if bitN x (eb + mb) then -mag - 1 else mag

/-- The canonical quiet NaN of a reduction type (R150). -/
def redCanon (rtype : Nat) : Nat := outNan (if rtype ≤ 4 then 0 else 1)

/-- The maximum (types 3 and 5) or minimum (4 and 6) of two float elements (R503). -/
def redSelect (rtype a b : Nat) : Nat :=
  if redNan rtype a || redNan rtype b then redCanon rtype
  else if (rtype % 2 == 1) == decide (redKey rtype a < redKey rtype b) then b else a

/-- Two elements of a reduction type combined (R503). -/
def redJoin (rtype a b : Nat) : Nat :=
  match rtype with
  | 0 =>
    let (an, wide, x) := partialOf a
    partialBits an wide (x.join (partialOf b).2.2)
  | 1 => (a + b) % 2 ^ 32
  | 2 => (a + b) % 2 ^ 64
  | _ => redSelect rtype a b

/-- Two partials have more terms together than an element may (R141, R157). -/
def overTerms (a b : Nat) : Bool := decide (termLimit < (partialOf a).2.2.terms + (partialOf b).2.2.terms)

/-- One element by itself: a NaN becomes canonical, reserved bits of a partial are dropped. -/
def redAlone (rtype a : Nat) : Nat :=
  match rtype with
  | 0 => let (an, wide, x) := partialOf a; partialBits an wide x
  | 1 => a
  | 2 => a
  | _ => redSelect rtype a a

/-- The elements of a chunk. -/
def redElems (rtype : Nat) (d : Bytes) : List Nat :=
  let n := elemSize rtype
  (List.range (d.length / n)).map fun i => leAt d (n * i) n

def redBytes (rtype : Nat) (l : List Nat) : Bytes := l.flatMap (leBytes (elemSize rtype))

/-- A contribution added to what a chunk holds, if it holds anything. -/
def redAdd (rtype : Nat) (old : Option Bytes) (d : Bytes) : Bytes :=
  let l := (redElems rtype d).map (redAlone rtype)
  redBytes rtype (match old with
    | some o => (redElems rtype o).zipWith (redJoin rtype) l
    | none => l)

/-- A contribution takes some element of what a chunk holds over the term limit (R141, R157). -/
def termsOver (old : Option Bytes) (d : Bytes) : Bool :=
  match old with
  | some o => ((redElems 0 o).zipWith overTerms (redElems 0 d)).any id
  | none => false

/-- Every partial of a contribution has the RECV's anchor and grid (R503). -/
def partialsFit (anchor : Int) (grid : Nat) (d : Bytes) : Bool :=
  (redElems 0 d).all fun x =>
    let (an, wide, _) := partialOf x
    an == anchor && (if wide then 1 else 0) == grid

/-! ### Chunks (R505, R506) -/

/-- The chunk of an index, if it has one. -/
def RecvState.chunk (x : RecvState) (i : Nat) : Option Chunk := x.chunks.find? fun k => k.index == i

/-- A chunk is complete: all sources have added to it (R507). -/
def RecvState.chunkDone (x : RecvState) (nSrc i : Nat) : Bool :=
  x.completed.contains i || (match x.chunk i with | some k => decide (nSrc ≤ k.added.length) | none => false)

/-- The lowest chunk of `n` that is not complete (R505). -/
def RecvState.base (x : RecvState) (nSrc n : Nat) : Nat := ((List.range n).find? fun i => !x.chunkDone nSrc i).getD n

/-- A contributor's name in a chunk's list. -/
def redSource (source epoch : Nat) : Nat := source * 2 ^ 48 + epoch % 2 ^ 48

/-- Add a contribution to a chunk. -/
def RecvState.addChunk (x : RecvState) (rtype i who : Nat) (d : Bytes) : RecvState :=
  match x.chunk i with
  | some k =>
    let k' : Chunk := { index := i, added := k.added ++ [who], data := redAdd rtype (some k.data) d }
    { x with chunks := x.chunks.map fun e => if e.index = i then k' else e }
  | none => { x with chunks := x.chunks ++ [{ index := i, added := [who], data := redAdd rtype none d }] }

/-- What a REDUCE packet does at the RECV of its window: the status it is answered with, and the state (R499, R503, R505,
R506). -/
def State.reduceAt (s : State) (qn : Nat) (c : Cmd) (port : Nat) (h : Header) (d : Bytes) : Nat × State :=
  match c.payload with
  | .recv _ 1 nSrc rtype _ slots inLen _ _ _ _ _ anchor grid =>
    (match c.meet h.src h.epoch port with
      | none => (1, s)
      | some x =>
        let s := s.modCmd qn c.seq fun e => { e with recv := x }
        let i := h.offset / 4096
        let who := redSource h.src h.epoch
        if h.offset % 4096 ≠ 0 ∨ inLen ≤ h.offset ∨ h.len ≠ min 4096 (inLen - h.offset) then (1, s)
        else if x.chunkDone nSrc i || (match x.chunk i with | some k => k.added.contains who | none => false) then (0, s)
        else if x.base nSrc (chunkCount inLen) + slots ≤ i then (3, s)
        else if rtype = 0 ∧ partialsFit anchor grid d = false then (0, s.failAlways qn c.seq codeAnchor)
        else if rtype = 0 ∧ termsOver ((x.chunk i).map (·.data)) d = true then (0, s.failAlways qn c.seq codeAccLimit)
        else (0, s.modCmd qn c.seq fun e => { e with recv := x.addChunk rtype i who d }))
  | _ => (3, s)

/-- REDUCE at a port: the oldest packet of VC 2 is checked against its window and its reduction port, combined, and answered
(R386, R491, R504 to R506). -/
def State.serveReduce (s : State) (port : Nat) : State :=
  match (s.arrived port 2).zipIdx.find? fun e => !s.windowHeld port e.1.hdr.window with
  | none => s
  | some (pk, i) =>
    let h := pk.hdr
    let (st, s) : Nat × State :=
      if s.windowRefuses h true then (1, s.countRefused)
      else if (s.inWin h.window).redPort ≠ port then (1, s)
      else
        match s.recvOn h.window with
        | none => (3, s)
        | some (q, _, c) => s.reduceAt q c port h pk.payload
    (s.takePacket port 2 i).respond port h.tag h.src h.window h.offset true st 0 []
      ((s.recvOn h.window).map fun e => (e.2.1.bight, e.1, e.2.2.seq))

end Sys2Proof.Machine
end

