-- ==== Sys2Proof/Machine/LinkRx.lean ====
section
/-! DEFINITION. Receiving on a link port: flits, acknowledgements, replay, packets and what is done with them (R474 to R487, R491,
R492, R498 to R501, R513). -/

namespace Sys2Proof.Machine

/-! ### Replay (R477 to R479) -/

/-- Replay every unacknowledged flit; the sixteenth replay in a row that did not advance ACK takes the port down (R478,
R479). -/
def State.replayOrDown (s : State) (n : Nat) : State :=
  if 16 ≤ (s.port n).replays then s.portDown n
  else if (s.port n).replay.isEmpty then s
  else s.replayPort n

/-- The flits that an ACK leaves in the replay buffer: those after the one it names; all of them when it names none. -/
def ackRest (ack : Nat) : List (Nat × Bytes) → Option (List (Nat × Bytes))
  | [] => none
  | f :: t => if f.1 = ack then some t else ackRest ack t

/-- What every good flit carries (R477): the ACK and the credits; then waiting packets may leave. -/
def State.takeAck (s : State) (n ack : Nat) (credit : List Nat) : State :=
  let p := s.port n
  let p := { p with credits := (List.range 4).foldl (fun (t : Tab Nat) v =>
    Tab.put 0 t v (min 0xFFFF (Tab.look 0 t v + credit.getD v 0))) p.credits }
  let p := match ackRest ack p.replay with
    | some t => { p with replay := t, replays := 0, ackAt := s.now }
    | none => p
  s.setPort n p

/-! ### Packets (R481 to R485, R488) -/

/-- A packet that is not kept: its credits are returned. -/
def State.discardPacket (s : State) (n ty len : Nat) : State :=
  match vcOf ty with
  | some v => s.owe n v len
  | none => s

def State.countRejected (s : State) (n : Nat) : State := s.modPort n fun p => { p with rejected := p.rejected + 1 }

/-- Who pays for a packet that has arrived (R65, R493): the command that asked for it, or the bight whose RECV it is for. -/
def State.arrivalPayer (s : State) (n : Nat) (h : Header) : Payer :=
  match vcOf h.ty with
  | some 0 => payerOf (s.inboundPayer (s.inWin h.window).asid ((s.inWin h.window).base + h.offset))
  | some 1 =>
    payerOf ((s.reqs.find? fun r => match r.target with
      | .remote _ _ p t => p == n && t == h.tag && r.result == .pending
      | _ => false).bind fun r => r.pay)
  | some 2 => payerOf ((s.recvOn h.window).map fun e => (e.2.1.bight, e.1, e.2.2.seq))
  | _ => .base

/-- A packet whose bytes have all arrived (R482, R485, R488): rejected, dropped, or put into the buffer of its VC. -/
def State.acceptPacket (s : State) (n : Nat) (b : Bytes) : State :=
  let h := headerOf b
  let len := carried h.ty h.len
  let sel := leAt b 1 1 % 2
  let counter := leAt b 8 8
  match Tab.find? (s.port n).rx sel with
  | none => (s.countRejected n).portDown n
  | some k =>
    if counter < k.counter then (s.countRejected n).discardPacket n h.ty len
    else
      let hb := slice b 0 32
      match Crypto.gcmOpen (slice k.key 0 32) (linkIv k.key counter) hb (slice b 32 (len + 16)) with
      | none => ((s.countRejected n).event 0x0031 n).portDown n
      | some d =>
        let dropIt := fun (s : State) =>
          ({ s with fabric := { s.fabric with dropped := s.fabric.dropped + 1 } }).discardPacket n h.ty len
        if s.fabric.number = 0xFFFF ∨ h.dst ≠ s.fabric.number then dropIt s
        else
          let s := s.modPort n fun p => { p with rx := Tab.set p.rx sel { k with counter := counter + 1 } }
          match vcOf h.ty with
          | none => dropIt s
          | some v =>
            (s.activity (.port n) .link (16 * pktCredits len) (s.arrivalPayer n h)).modPort n fun p => { p with
              rxq := Tab.set p.rxq v (Tab.look [] p.rxq v ++ [{ header := hb, payload := d }]) }

/-- The bytes of payload stream that a packet takes (R483). -/
def packetSpan (b : Bytes) : Nat := 16 * pktCredits (carried (leAt b 0 1) (leAt b 2 2))

/-- Take every whole packet out of a port's payload stream (R483). A 16-byte unit that begins with TYPE 0 is filling (log 15). -/
def State.parsePackets : Nat → State → Nat → State
  | 0, s, _ => s
  | fuel + 1, s, n =>
    let b := (s.port n).stream
    if b.length < 32 ∧ (b.length < 16 ∨ leAt b 0 1 ≠ 0) then s
    else if leAt b 0 1 = 0 then State.parsePackets fuel (s.modPort n fun p => { p with stream := b.drop 16 }) n
    else if b.length < packetSpan b then s
    else
      State.parsePackets fuel ((s.modPort n fun p => { p with stream := b.drop (packetSpan b) }).acceptPacket n
        (b.take (packetSpan b))) n

/-! ### Flits (R474, R478) -/

/-- A gap in the flits: one NAK whose ACK field names the last good flit (R478). -/
def State.openGap (s : State) (n : Nat) : State :=
  let p := s.port n
  if p.nakSent then s
  else
    let (cr, q) := p.takeOwed
    (s.setPort n { q with nakSent := true }).send (.flit n (makeFlit flitNak 0 p.ackField cr []))

/-- A flit arrives whose CRC holds and whose codewords could be corrected. -/
def State.goodFlit (s : State) (n : Nat) (f : Bytes) : State :=
  let ts := leAt f 0 2
  let seq := ts % 4096
  let ack := leAt f 2 2 % 4096
  let credit := (List.range 4).map fun v => leAt f (4 + 2 * v) 2
  let p := s.port n
  match ts / 16384 with
  | 0 => (s.takeAck n ack credit).pumpPort n
  | 1 =>
    if seq = p.rxSeq then
      let s := (s.takeAck n ack credit).modPort n fun q => { q with
        rxSeq := (q.rxSeq + 1) % 4096, nakSent := false, stream := q.stream ++ slice f 12 240 }
      let s := State.parsePackets ((s.port n).stream.length / 16 + 1) s n
      (s.sendIdle n).pumpPort n
    else if (seq + 4096 - p.rxSeq) % 4096 < 2048 then s.openGap n
    else s.sendIdle n
  | 2 => ((s.takeAck n ack credit).replayOrDown n).pumpPort n
  | _ => s

end Sys2Proof.Machine
end

