-- ==== Sys2Proof/Machine/Links.lean ====
section
/-! DEFINITION. The commands of the fabric links, the collectives and the pace groups (R471 to R515). -/

namespace Sys2Proof.Machine

/-! ### Training and entry to DOWN (R472, R473) -/

/-- TRAINING_DONE port (R472, R473, R475): the port carries flits on `width` lanes from lane `firstLane`, with credits for the
partner's whole buffers. -/
def execTrainingDone (port width firstLane : Nat) (s : State) : Out :=
  .next (if (s.port port).state ≠ 1 then s
    else if firstLane = 0 ∨ (firstLane = 4 ∧ width ≠ 8) then
      s.modPort port fun p => { p with
        state := if width = 8 then 2 else 3, width := width, firstLane := firstLane,
        credits := (List.range 4).map fun v => (v, vcBuffer v) }
    else s)

/-- TRAINING_TIMEOUT port (R472): 100 ms without UP or DEGRADED. -/
def execTrainingTimeout (port : Nat) (s : State) : Out :=
  .next (if (s.port port).state = 1 then s.portDown port else s)

/-- DOWN_RETRY port (R472): training restarts 1 ms after entry to DOWN. -/
def execDownRetry (port : Nat) (s : State) : Out :=
  .next (if (s.port port).state = 4 then s.startTraining port else s)

/-- LINK_ERROR_DOWN port (R473): the corrected-symbol ratio has been over its limit for 10 ms. -/
def execLinkErrorDown (port : Nat) (s : State) : Out :=
  .next (if s.portUsable port then s.portDown port else s)

/-! ### Flits (R474, R478, R479) -/

/-- FLIT_RECEIVED port (R474, R478): a flit whose codeword could not be corrected or whose CRC fails opens a gap. -/
def execFlitReceived (port : Nat) (flit : Bytes) (fec : Fec) (s : State) : Out :=
  .next (if !s.portUsable port || flit.length != 256 then s
    else
      let s := s.modPort port fun p => { p with
        fecCorrected := p.fecCorrected + BitVec.ofNat 32 fec.corrected, fecBad := p.fecBad + BitVec.ofNat 32 fec.uncorrectable }
      if fec.inBad = true ∨ crc32c (slice flit 0 252) ≠ BitVec.ofNat 32 (leAt flit 252 4) then s.openGap port
      else s.goodFlit port flit)

/-- REPLAY_TIMEOUT port (R478, R479): no ACK has advanced for 4 µs while flits are unacknowledged. -/
def execReplayTimeout (port : Nat) (s : State) : Out :=
  .next (if s.portUsable port && !(s.port port).replay.isEmpty && decide ((s.port port).ackAt + 4000 ≤ s.now) then
      s.replayOrDown port
    else s)

/-! ### Remote requests (R490 to R492) -/

/-- READ_REQ port (R491): the oldest served READ_REQ of a port is answered. -/
def execReadReq (port : Nat) (s : State) : Out := .next (s.answerInbound port false)

/-- WRITE port (R490, R491): the oldest served WRITE of a port is answered, after its data are stored. -/
def execWrite (port : Nat) (s : State) : Out := .next (s.answerInbound port true)

/-- The packet at the head of a VC when it is of a type. -/
def State.headOf (s : State) (port v ty : Nat) : Option Packet :=
  match s.arrived port v with
  | pk :: _ => if pk.hdr.ty = ty then some pk else none
  | [] => none

/-- A request answered NOT_READY (R492): it is resent, or refused when it has been answered so for 2 frames. -/
def State.notReadyYet (s : State) (r : Req) : State :=
  let since := r.notReady.getD s.now
  if 2 * s.frame.period ≤ s.now - since then s.arriveReq r.id .refused
  else if r.owner = .none then s.arriveReq r.id .refused
  else s.modReq r.id fun x => { x with notReady := some since, resend := true }

/-- The response at the head of VC 1 (R491). A reserved status counts as REFUSED. -/
def State.takeResponse (s : State) (port : Nat) (write : Bool) : State :=
  match s.headOf port 1 (if write then 4 else 3) with
  | none => s
  | some pk =>
    let h := pk.hdr
    let s := s.takePacket port 1 0
    match s.reqs.find? fun r => r.write == write && r.result == .pending && r.stage == .there && !r.resend &&
        (match r.target with | .remote _ _ p t => p == port && t == h.tag | _ => false) with
    | none => s
    | some r =>
      match h.status with
      | 0 => s.arriveReq r.id (if write then .stored else .data (slice pk.payload 0 r.len))
      | 2 => s.arriveReq r.id (.busError h.sub)
      | 3 => s.notReadyYet r
      | _ => s.arriveReq r.id .refused

/-- READ_DATA port (R491). -/
def execReadData (port : Nat) (s : State) : Out := .next (s.takeResponse port false)

/-- WRITE_DONE port (R490, R491). -/
def execWriteDone (port : Nat) (s : State) : Out := .next (s.takeResponse port true)

/-- NOT_READY_RESEND req (R492): the request leaves again with the same offset and data. -/
def execNotReadyResend (req : Nat) (s : State) : Out :=
  .next (match s.req? req with
    | some r =>
      (match r.resend, r.target with
        | true, .remote win offset _ _ =>
          let s := { s with fabric := { s.fabric with resends := s.fabric.resends + 1 } }
          let s := s.modReq req fun x => { x with resend := false }
          (match s.portOfReq r win offset with
            | some p => s.sendRemote r win offset p
            | none =>
              match s.faultRemote r offset with
              | (some res, s) => s.arriveReq req res
              | (none, s) => s)
        | _, _ => s)
    | none => s)

/-- REDUCE port (R503 to R506). -/
def execReduce (port : Nat) (s : State) : Out := .next (s.serveReduce port)

/-! ### Cross-module commit (R497 to R501) -/

def State.countIgnored (s : State) : State := { s with fabric := { s.fabric with ignored := s.fabric.ignored + 1 } }

/-- The contributor entry that a control packet is for. -/
def State.contributorOf (s : State) (h : Header) : Option (Nat × Cmd × Contributor) :=
  match s.recvOn h.window with
  | some (q, _, c) => (c.recv.find h.src h.epoch).map fun e => (q, c, e)
  | none => none

def State.putContributor (s : State) (q seq : Nat) (e : Contributor) : State :=
  s.modCmd q seq fun c => { c with recv := c.recv.put e }

/-- A notice accepted by a handoff RECV (R524, R529): the slot's timer restarts; with a layer incomplete the RECV ends. -/
def State.noticeAtSlot (s : State) (q : Nat) (c : Cmd) : State :=
  match c.recv.slot with
  | none => s
  | some i =>
    let s := s.modSlot i fun x => { x with timerAt := s.now }
    if s.layersDone i then s else s.failAlways q c.seq codeHandoffIncomplete

/-- COMMIT_NOTICE port (R500): accepted unless a WITHDRAW of its attempt or a later one has been accepted. -/
def execCommitNotice (port : Nat) (s : State) : Out :=
  .next (match s.headOf port 3 0x0A with
    | none => s
    | some pk =>
      let h := pk.hdr
      let s := s.takePacket port 3 0
      match s.contributorOf h with
      | none => s.countIgnored
      | some (q, c, e) =>
        let open' := match e.withdrawn with | some w => attemptBefore w h.attempt | none => true
        if open' then (s.putContributor q c.seq { e with notice := some h.attempt }).noticeAtSlot q c
        else s.countIgnored)

/-- WITHDRAW port (R500): cancels an accepted notice, unless that is of a later attempt. -/
def execWithdraw (port : Nat) (s : State) : Out :=
  .next (match s.headOf port 3 0x0B with
    | none => s
    | some pk =>
      let h := pk.hdr
      let s := s.takePacket port 3 0
      match s.contributorOf h with
      | none => s.countIgnored
      | some (q, c, e) =>
        if (match e.notice with | some n => attemptBefore h.attempt n | none => false) then s.countIgnored
        else
          let w := match e.withdrawn with | some w => if attemptBefore h.attempt w then w else h.attempt | none => h.attempt
          s.putContributor q c.seq { e with notice := none, withdrawn := some w })

/-- The sending command of this module that an ABANDON names, which has written to other modules in this attempt or an earlier one
(R501). -/
def State.senderOf (s : State) (h : Header) : Option (Nat × Nat) :=
  let q := h.epoch / 2 ^ 36
  let n := h.epoch % 2 ^ 36
  match s.cmd? q n with
  | some c => if c.live? && c.sender then some (q, n) else none
  | none => none

/-- ABANDON port (R500, R501): it ends the RECV whose contributor sent it, or the sending command whose RECV sent it. -/
def execAbandon (port : Nat) (s : State) : Out :=
  .next (match s.headOf port 3 0x0C with
    | none => s
    | some pk =>
      let h := pk.hdr
      let s := s.takePacket port 3 0
      match s.contributorOf h with
      | some (q, c, _) => if c.phase = .requested then s else s.failAlways q c.seq codeAbandoned
      | none =>
        match s.senderOf h with
        | some (q, n) => s.failAlways q n codeAbandoned
        | none => s)

/-! ### Pace groups (R511, R513) -/

/-- Record a notice in one group (R511, R513): one whose frame lies before the standing notice is ignored. -/
def PaceGroup.note (x : PaceGroup) (source : Nat) (n : Notice) (now : BitVec 48) (standing : Notice → Bool) : PaceGroup :=
  let ks := (List.range x.count).filter fun k => Tab.look 0xFFFF x.members k == source
  ks.foldl (fun (y : PaceGroup) k =>
    let old := match Tab.find? y.notices k with | some o => standing o && decide (2 ^ 31 ≤ (n.frame - o.frame).toNat) | none => false
    if old then y
    else { y with notices := Tab.set y.notices k n, holdFrom := some now, holdOver := false }) x

/-- The frame number whose low 16 bits a PACE message carries (R514): the one nearest to the module's own (log 181). -/
def nearFrame (now : BitVec 48) (f : BitVec 16) : BitVec 32 := now.setWidth 32 + (f - now.setWidth 16).signExtend 32

/-- The management processor takes a PACE message of a port for group i (R511, R514). -/
def State.takePace (s : State) (i : Nat) (m : List Flit) : State :=
  let p0 := (m.getD 0 0).toNat
  let p1 := (m.getD 1 0).toNat
  let n : Notice := { rate := fieldN p0 0 16, frame := nearFrame s.frame.counter (BitVec.ofNat 16 p1) }
  s.setPace i ((s.pace i).note (fieldN p1 16 16) n s.frame.counter s.standing?)

/-- PACE port (R511, R513, R514): the port tells the management processor for each group of the packet's number. -/
def execPace (port : Nat) (s : State) : Out :=
  .next (match s.headOf port 3 0x0D with
    | none => s
    | some pk =>
      let s := s.takePacket port 3 0
      (List.range 16).foldl (fun (s : State) i =>
        if (s.pace i).count = 0 ∨ (s.pace i).number ≠ leAt pk.payload 0 2 then s
        else
          let m := paceFlits 2 i (leAt pk.payload 2 2) pk.hdr.src (BitVec.ofNat 16 (leAt pk.payload 4 4))
          (s.lanCarry 2 stopMgmt (stopPort port) m).takePace i m) s)

/-- PACE_NOTICE_EXPIRY group, member (R511): a notice that no longer stands is dropped. -/
def execPaceNoticeExpiry (group member : Nat) (s : State) : Out :=
  .next (match Tab.find? (s.pace group).notices member with
    | some n => if s.standing? n then s else s.setPace group { s.pace group with notices := Tab.erase (s.pace group).notices member }
    | none => s)

/-- PACE_HOLD_LIMIT group (R511): a hold has lasted its limit. -/
def execPaceHoldLimit (group : Nat) (s : State) : Out :=
  .next (if (s.pace group).hold && s.holdSpent (s.pace group) then
      s.setPace group { s.pace group with hold := false, holdOver := true }
    else s)

/-! ### Link keys (R484 to R487, R515) -/

/-- REKEY_DUE as the selected transmit slot has it (R487). -/
def State.noteRekey (s : State) (n : Nat) : State :=
  s.modPort n fun p => { p with rekeyDue := match Tab.find? p.tx p.txSel with
    | some k => decide (pktUp ≤ k.counter)
    | none => false }

/-- A write of 0x6100 + p .01 or .02 (R484, R486). -/
def putTxKey (n slot : Nat) (key : Bytes) : Act := fun s =>
  (dOk, ((s.modPort n fun p => { p with tx := Tab.set p.tx slot { key } }).noteRekey n).pumpPort n)

/-- TX_KEY_WRITE port, slot (R486). -/
def execTxKeyWrite (via : Via) (port slot : Nat) (key : Bytes) (s : State) : Out :=
  .next (s.objWrite via true true (putTxKey port slot key))

/-- A write of 0x6100 + p .03 or .04 (R486). -/
def putRxKey (n slot : Nat) (key : Bytes) : Act := fun s =>
  (dOk, s.modPort n fun p => { p with rx := Tab.set p.rx slot { key } })

/-- RX_KEY_WRITE port, slot (R486). -/
def execRxKeyWrite (via : Via) (port slot : Nat) (key : Bytes) (s : State) : Out :=
  .next (s.objWrite via true true (putRxKey port slot key))

/-- A write of 0x6100 + p .05 (R487). -/
def putTxSel (n : Nat) (v : BitVec 8) : Act := fun s =>
  (dOk, ((s.modPort n fun p => { p with txSel := v.toNat % 2 }).noteRekey n).pumpPort n)

/-- TRANSMIT_SELECTION port (R487). -/
def execTransmitSelection (via : Via) (port : Nat) (value : BitVec 8) (s : State) : Out :=
  .next (s.objWrite via true true (putTxSel port value))

/-- A write of 0x6100 + p .06 (R487): bits [1:0] invalidate receive slots 1 and 0. -/
def putRxInvalid (n : Nat) (v : BitVec 8) : Act := fun s =>
  (dOk, s.modPort n fun p =>
    let rx := if v.getLsbD 0 then Tab.erase p.rx 0 else p.rx
    { p with rx := if v.getLsbD 1 then Tab.erase rx 1 else rx })

/-- RECEIVE_SLOT_INVALIDATE port (R487). -/
def execReceiveSlotInvalidate (via : Via) (port : Nat) (value : BitVec 8) (s : State) : Out :=
  .next (s.objWrite via true true (putRxInvalid port value))

end Sys2Proof.Machine
end

