-- ==== Sys2Proof/Machine/Flags.lean ====
section
/-! DEFINITION. IEEE 754-2019 binary32 arithmetic with rounding by CL_FRM and the flags of CL_FFLAGS (R102 to R104, R127).
Each operation answers its result bits and the flags it raises. -/

namespace Sys2Proof.Machine

/-- CL_FFLAGS bits (R127). -/
def ffInvalid : BitVec 5 := 0x10
def ffDivZero : BitVec 5 := 0x08
def ffOverflow : BitVec 5 := 0x04
def ffUnderflow : BitVec 5 := 0x02
def ffInexact : BitVec 5 := 0x01

abbrev F32 := BitVec 32
/-- A result and the flags it raises. -/
abbrev FRes := F32 × BitVec 5

/-- The canonical quiet NaN (R102). -/
def qnan32 : F32 := 0x7FC00000

def f32Val (x : F32) : Elem := decodeFloat 8 23 127 .ieee x.toNat
def f32Neg (x : F32) : Bool := x.getLsbD 31
def f32Nan (x : F32) : Bool := f32Val x == .nan
/-- A signalling NaN: a NaN whose leading mantissa bit is clear. -/
def f32Snan (x : F32) : Bool := f32Nan x && !x.getLsbD 22
def f32Inf (neg : Bool) : F32 := if neg then 0xFF800000 else 0x7F800000
def f32Max (neg : Bool) : F32 := if neg then 0xFF7FFFFF else 0x7F7FFFFF
def f32Zero (neg : Bool) : F32 := if neg then 0x80000000 else 0
/-- Invalid when any operand is a signalling NaN. -/
def snanFlag (l : List F32) : BitVec 5 := if l.any f32Snan then ffInvalid else 0

/-- Whether the magnitude rounds up: rounding mode, sign, quotient odd, remainder against the unit, sticky bit below. -/
def roundsUp (rm : BitVec 2) (neg odd : Bool) (rem den : Nat) (sticky : Bool) : Bool :=
  let inexact := decide (rem ≠ 0) || sticky
  match rm.toNat with
  | 0 => decide (den < 2 * rem) || (decide (2 * rem = den) && (sticky || odd))
  | 1 => false
  | 2 => neg && inexact
  | _ => !neg && inexact

/-- Round (−1)^neg × (m × 2^e, plus a little more when `sticky`) with m > 0 to a float layout of `eb` exponent and `mb`
mantissa bits with overflow as in IEEE 754: the magnitude's bits and the flags. With `sticky` the caller gives more bits
than the layout holds. -/
def ieeeRound (eb mb bias : Nat) (rm : BitVec 2) (neg : Bool) (m : Nat) (e : Int) (sticky : Bool) : Nat × BitVec 5 :=
  let emin : Int := 1 - bias - mb
  let p : Int := (bitlen m : Int) - 1 + e
  let rnd := fun (q : Int) =>
    let (n, rem, den) := if q ≤ e then (m * 2 ^ (e - q).toNat, 0, 1)
      else (m / 2 ^ (q - e).toNat, m % 2 ^ (q - e).toNat, 2 ^ (q - e).toNat)
    (if roundsUp rm neg (decide (n % 2 = 1)) rem den sticky then n + 1 else n, decide (rem ≠ 0) || sticky)
  let q : Int := max (p - mb) emin
  let (r, inexact) := rnd q
  let bits := (q - emin).toNat * 2 ^ mb + r
  let top := (2 ^ eb - 1) * 2 ^ mb
  if top ≤ bits then
    let toInf := match rm.toNat with | 0 => true | 1 => false | 2 => neg | _ => !neg
    (if toInf then top else top - 1, ffOverflow ||| ffInexact)
  else
    let normal : Int := emin + mb
    let tiny := if Config.tinyAfter then decide (p < normal) && decide ((rnd (p - mb)).1 < 2 ^ (mb + 1) ∨ p + 1 < normal)
      else decide (p < normal)
    (bits, if inexact then (if tiny then ffUnderflow ||| ffInexact else ffInexact) else 0)

/-- A rounded FP32 result with its sign. -/
def f32Round (rm : BitVec 2) (neg : Bool) (m : Nat) (e : Int) (sticky : Bool) : FRes :=
  let (b, f) := ieeeRound 8 23 127 rm neg m e sticky
  (BitVec.ofNat 32 b ||| f32Zero neg, f)

/-- The result of an exact sum that is zero: +0, or −0 when rounding downward (IEEE 754-2019 6.3). -/
def zeroSum (rm : BitVec 2) : F32 := f32Zero (rm == 2)

/-- A signed exact value m × 2^e rounded; zero keeps the sign `zneg`. -/
def f32OfInt (rm : BitVec 2) (m e : Int) (zero : F32) : FRes :=
  if m = 0 then (zero, 0) else f32Round rm (decide (m < 0)) m.natAbs e false

/-- The exact sum of two finite values: mantissa and exponent. -/
def addExact (m e n f : Int) : Int × Int :=
  let q := min e f
  (m * 2 ^ (e - q).toNat + n * 2 ^ (f - q).toNat, q)

/-- Fused multiply-add a × b + c, rounded once (R102). -/
def f32Fma (rm : BitVec 2) (a b c : F32) : FRes :=
  let sp := xor (f32Neg a) (f32Neg b)
  match f32Val a, f32Val b, f32Val c with
  | .nan, _, _ | _, .nan, _ => (qnan32, snanFlag [a, b, c])
  | .inf _, .fin 0 _, .nan | .fin 0 _, .inf _, .nan =>
    (qnan32, snanFlag [c] ||| (if Config.fmaQuietInvalid then ffInvalid else 0))
  | _, _, .nan => (qnan32, snanFlag [c])
  | .inf _, .fin 0 _, _ | .fin 0 _, .inf _, _ => (qnan32, ffInvalid)
  | .inf _, _, .inf s | _, .inf _, .inf s => if s = sp then (f32Inf s, 0) else (qnan32, ffInvalid)
  | .inf _, _, .fin _ _ | _, .inf _, .fin _ _ => (f32Inf sp, 0)
  | .fin _ _, .fin _ _, .inf s => (f32Inf s, 0)
  | .fin m e, .fin n f, .fin k g =>
    let (x, q) := addExact (m * n) (e + f) k g
    let zero := if m * n = 0 ∧ k = 0 ∧ sp = f32Neg c then f32Zero sp else zeroSum rm
    f32OfInt rm x q zero

/-- The sum of two FP32 numbers (R102). -/
def f32Add (rm : BitVec 2) (a b : F32) : FRes :=
  match f32Val a, f32Val b with
  | .nan, _ | _, .nan => (qnan32, snanFlag [a, b])
  | .inf s, .inf t => if s = t then (f32Inf s, 0) else (qnan32, ffInvalid)
  | .inf s, .fin _ _ | .fin _ _, .inf s => (f32Inf s, 0)
  | .fin m e, .fin n f =>
    let (x, q) := addExact m e n f
    f32OfInt rm x q (if m = 0 ∧ n = 0 ∧ f32Neg a = f32Neg b then f32Zero (f32Neg a) else zeroSum rm)

/-- The difference: the second operand's sign changed, NaNs kept. -/
def f32Sub (rm : BitVec 2) (a b : F32) : FRes :=
  if f32Nan b then (qnan32, snanFlag [a, b]) else f32Add rm a (b ^^^ 0x80000000)

/-- The product of two FP32 numbers (R102). -/
def f32Mul (rm : BitVec 2) (a b : F32) : FRes :=
  let sp := xor (f32Neg a) (f32Neg b)
  match f32Val a, f32Val b with
  | .nan, _ | _, .nan => (qnan32, snanFlag [a, b])
  | .inf _, .fin 0 _ | .fin 0 _, .inf _ => (qnan32, ffInvalid)
  | .inf _, _ | _, .inf _ => (f32Inf sp, 0)
  | .fin m e, .fin n f => f32OfInt rm (m * n) (e + f) (f32Zero sp)

/-- A key that orders the non-NaN FP32 numbers, −0 below +0. -/
def f32Key (x : F32) : Int := if f32Neg x then -(x.toNat % 2 ^ 31 : Int) - 1 else (x.toNat % 2 ^ 31 : Int)

/-- Minimum or maximum (IEEE 754-2019 9.6): with a NaN operand either the canonical NaN or the other operand, as
Config.minMaxNaN says. -/
def f32MinMax (isMax : Bool) (a b : F32) : FRes :=
  let fl := snanFlag [a, b]
  match f32Nan a, f32Nan b with
  | true, true => (qnan32, fl)
  | true, false => (if Config.minMaxNaN then qnan32 else b, fl)
  | false, true => (if Config.minMaxNaN then qnan32 else a, fl)
  | false, false => (if decide (f32Key a ≤ f32Key b) = isMax then b else a, fl)

/-- A lane of VCMP: its result is the spec's to state and is not stated (log 5); a signalling NaN signals invalid. -/
def f32Cmp (func : Nat) (a b : F32) : FRes :=
  let quiet := if Config.vcmpSignals func && (f32Nan a || f32Nan b) then ffInvalid else 0
  (Config.vcmp func a b, snanFlag [a, b] ||| quiet)

/-! ### Conversions and roots (R104) -/

/-- A value converted to a float layout under nearest-even, NaN as the canonical quiet NaN of the layout. -/
def convertElem (eb mb bias : Nat) (neg : Bool) (x : Elem) : Nat :=
  let sign := if neg then 2 ^ (eb + mb) else 0
  match x with
  | .nan => (2 ^ eb - 1) * 2 ^ mb + 2 ^ (mb - 1)
  | .inf s => (if s then 2 ^ (eb + mb) else 0) + (2 ^ eb - 1) * 2 ^ mb
  | .fin m e => if m = 0 then sign else sign + (ieeeRound eb mb bias 0 neg m.natAbs e false).1

/-- A correctly rounded square root, nearest-even (R104). -/
def f32Sqrt (x : F32) : F32 :=
  match f32Val x with
  | .nan => qnan32
  | .inf s => if s then qnan32 else x
  | .fin m e =>
    if m = 0 then x
    else if m < 0 then qnan32
    else
      let k := if e % 2 = 0 then m.natAbs * 2 ^ 64 else m.natAbs * 2 ^ 65
      let e2 := if e % 2 = 0 then e - 64 else e - 65
      let r := Nat.sqrt k
      (f32Round 0 false r (e2 / 2) (decide (r * r ≠ k))).1

/-- The values within 1 ulp of (the exact value whose round toward zero is `t`): `t` and the next, and the one below when `t`
is exact. -/
def withinUlp (t : F32) (same : Bool) : List F32 := if same then [t, t + 1, t - 1] else [t, t + 1]

/-- XRCP: one of the values within 1 ulp of the reciprocal, an infinity where that lies beyond 2^128 (R104, log 5). -/
def f32Rcp (x : F32) : F32 :=
  match f32Val x with
  | .fin m e =>
    if m = 0 then Config.rcpSpecial x
    else
      let d := m.natAbs
      let n := 2 ^ 80 / d
      let (b, _) := f32Round 1 (decide (m < 0)) n (-e - 80) (decide (2 ^ 80 % d ≠ 0))
      let same := decide (2 ^ 80 % d = 0)
      let l := withinUlp b same
      if d < 2 ^ (-e - 128).toNat then f32Inf (decide (m < 0)) else l.getD (Config.rcpPick x % l.length) b
  | _ => Config.rcpSpecial x

/-- XRSQRT: one of the values within 1 ulp of the reciprocal square root (R104, log 5). -/
def f32Rsqrt (x : F32) : F32 :=
  match f32Val x with
  | .fin m e =>
    if m ≤ 0 then Config.rsqrtSpecial x
    else
      let e1 := if e % 2 = 0 then e else e - 1
      let d := if e % 2 = 0 then m.natAbs else 2 * m.natAbs
      let k := 2 ^ 160 / d
      let r := Nat.sqrt k
      let same := decide (r * r * d = 2 ^ 160)
      let (b, _) := f32Round 1 false r (-(e1 / 2) - 80) (!same)
      let l := withinUlp b same
      l.getD (Config.rsqrtPick x % l.length) b
  | _ => Config.rsqrtSpecial x

end Sys2Proof.Machine
end

