-- ==== Sys2Proof/Machine/Operands.lean ====
section
/-! DEFINITION. What every core instruction shares: registers, immediates, bundles, loops, fetch, stalls and exceptions (R88 to
R99, R120 to R126). -/

namespace Sys2Proof.Machine

/-! ### Registers (R88) -/

/-- A scalar register; s0 reads as zero. -/
def Core.reg (k : Core) (r : SReg) : Word := if r.val = 0 then 0 else Tab.look 0 k.s r.val
/-- Write a scalar register; s0 ignores writes. -/
def Core.setReg (k : Core) (r : SReg) (w : Word) : Core := if r.val = 0 then k else { k with s := Tab.put 0 k.s r.val w }
def Core.vreg (k : Core) (r : VReg) : Vec := Tab.look 0 k.v r.val
def Core.setV (k : Core) (r : VReg) (v : Vec) : Core := { k with v := Tab.put 0 k.v r.val v }

/-- Register names for the issue rule: scalar n is n, vector n is 64 + n; s0 is never written. -/
def sName (r : SReg) : Nat := r.val
def vName (r : VReg) : Nat := 64 + r.val

/-- Registers that an outstanding load will still write. -/
def LoadDest.names : LoadDest → List Nat
  | .none => []
  | .scalar r _ => [r]
  | .vector v => [64 + v]
  | .broadcast v => [64 + v]

/-- A register of the list waits for an outstanding far load: the operand is not ready (R96, R107). -/
def Core.waitsFor (k : Core) (names : List Nat) : Bool :=
  k.far.any fun f => f.dest.names.any fun n => n != 0 && names.contains n

/-! ### Immediates (R91, R92) -/

/-- The byte offset of a 14-bit immediate scaled by the access size. -/
def scaledImm (imm : BitVec 14) (scale : Nat) : Word := BitVec.ofInt 64 (imm.toInt * scale)

/-! ### Units (R96, R126) -/

def unitAlu0 : Nat := 0
def unitAlu1 : Nat := 1
def unitBr : Nat := 2
def unitLsu : Nat := 3
def unitVec : Nat := 4
def unitXu : Nat := 5
def unitNet : Nat := 6
/-- System instructions issue in slot 0 only and have no unit of their own. -/
def unitSys : Nat := 7
/-- Either scalar unit, for integer instructions. -/
def unitInt : Nat := 8

/-- What the issue rule needs to know of an instruction. -/
structure Insn where
  unit : Nat
  reads : List Nat
  writes : List Nat
  /-- it acts on more than the registers of its core -/
  acts : Bool := false
deriving DecidableEq, Repr

/-- The second instruction of a bundle (R97). -/
def Insn.pairs (b : Insn) (a : Slot0) : Bool :=
  a.unit != unitSys && b.unit != unitSys && (a.unit != b.unit || (a.integer && b.unit == unitInt)) &&
    !(b.reads.any fun r => r != 0 && a.writes.contains r) && !(b.writes.any fun r => r != 0 && a.writes.contains r)

/-! ### Loops (R96) -/

/-- `n` bundles of the outermost loop of the list have ended at program counter `pc`: the next program counter and the loops
that stay active. A loop that ends counts as its body's bundles for the loop around it. -/
def loopCount (pc : Word) : Nat → List Loop → Word × List Loop
  | _, [] => (pc, [])
  | n, l :: rest =>
    if !l.armed then
      let (_, rest') := loopCount pc n rest
      (pc, { l with armed := true, start := pc } :: rest')
    else if l.done + n < l.bundles then (pc, { l with done := l.done + n } :: rest)
    else if 1 < l.left then (l.start, { l with done := 0, left := l.left - 1 } :: rest)
    else loopCount pc l.bundles rest

/-- End the open bundle: loops advance and the program counter may go back to a loop's start. -/
def Core.closeBundle (k : Core) : Core :=
  if k.openBundle then
    let (pc, loops) := loopCount k.pc 1 k.loops
    { k with pc, loops, openBundle := false, slot0 := none }
  else k

/-! ### Fetch (R94) -/

/-- The core may fetch at a program counter: its own local memory, through either range. R91 aligns instructions to 4 and gives a
program counter that is not so aligned no exception: the core issues there (DESIGN CHOICE, log 171). -/
def fetchable (core : Nat) (pc : Word) : Bool :=
  let a := pc.toNat
  let own := coreK core * 0x400000
  (decide (own ≤ a) && decide (a < own + 0x400000)) || (decide (0x8000000 ≤ a) && decide (a < 0x8400000))

/-- The offset in a core's local memory that a program counter in either range names. -/
def localOffset (pc : Word) : Nat := pc.toNat % 0x400000

/-- A block comes into the instruction buffer; of a full one the block filled first leaves, unless it is block `keep` (R95; which one
leaves, log 170). -/
def Core.putBlock (k : Core) (keep b : Nat) (ws : List (Option Word)) : Core :=
  let oldest := (k.ibuf.reverse.find? fun e => e.1 != keep).map (·.1)
  { k with ibuf := (b, ws) :: (if k.ibuf.length < 256 then k.ibuf else k.ibuf.filter fun e => some e.1 != oldest) }

/-- Fill the instruction buffer with a block of the local memory that it does not hold: a read of SRAM like any other (R95, R293, R299,
R303, R304). Block `keep` stays. -/
def State.fillBlock (s : State) (core keep b : Nat) : State :=
  if (s.core core).ibuf.any fun e => e.1 == b then s
  else
    let c := clusterOf core
    let a := sramAddr c (coreK core * 0x400000 + 64 * b)
    let (ws, s) := (s.activity (.cluster c) (.sramRead 64) 1 (s.clusterPayer c)).readEachSram agentCore (a / 8) 8
    s.modCore core fun k => k.putBlock keep b ws

/-- The fetch at the program counter: its block and the next come into the buffer, which no store changes (R94, R95). -/
def State.fetchInto (s : State) (core : Nat) : State :=
  let pc := (s.core core).pc
  if fetchable core pc then
    let b := localOffset pc / 64
    (s.fillBlock core b b).fillBlock core b ((b + 1) % 65536)
  else s

/-- The word of 64 bits that the core has fetched at its program counter, none for an uncorrectable one (R95, R303). -/
def Core.fetched (k : Core) : Option Word :=
  ((k.ibuf.find? fun e => e.1 == localOffset k.pc / 64).bind fun e => e.2[localOffset k.pc % 64 / 8]?).getD (some 0)

/-- The instruction word that the core has fetched at its program counter (R91, R95). -/
def Core.insnWord (k : Core) : Flit :=
  ((k.fetched.getD 0) >>> (8 * (localOffset k.pc % 8))).setWidth 32

/-! ### Exceptions (R121 to R126) -/

def causeIllegal : Nat := 0x01
def causeMisaligned : Nat := 0x02
def causeBus : Nat := 0x03
def causeFarFault : Nat := 0x04
def causeFarStore : Nat := 0x05
def causeFetch : Nat := 0x06
def causeAtomic : Nat := 0x07
def causeStallLimit : Nat := 0x08
def causeUnbound : Nat := 0x09
def causeCsr : Nat := 0x0A
def causeBreak : Nat := 0x0B
def causeEngine : Nat := 0x0C

/-- A core raises an exception (R123, R124): no further instruction of it issues, and its cluster's stop sends a fault
report. The kill follows when the report reaches the management processor (R123, R124). -/
def State.raise (s : State) (core cause sub unit : Nat) (value : Word) : State :=
  let k := s.core core
  let lcore := match s.bightOfCluster (clusterOf core) with
    | some b => (s.bight b).place.lcore core
    | none => 0xFFFF
  (s.setCore core { k with run := .excepted, held := none, stall := none }).lanSend 4 stopMgmt (clusterOf core) false
    (faultPayload lcore core cause unit sub k.pc value)

/-- The unit in a report of an exception that R126 gives no unit (log 5). -/
def noUnit (cause : Nat) (pc : Word) : Nat := Config.systemUnit cause pc % 256

/-! ### Issue -/

/-- What an instruction does once it issues. -/
inductive Did where
  /-- it completes; the program counter goes to the target, or on by 4 -/
  | done (s : State) (target : Option Word)
  /-- it raises an exception -/
  | raise (s : State) (cause sub unit : Nat) (value : Word)
  /-- it cannot proceed (R99, R120) -/
  | stall (s : State) (why : Stall)
deriving DecidableEq, Repr

/-- Bight cycles that the running command has taken (R127). -/
def State.runCycles (s : State) (b : Nat) : Nat := (s.bight b).ran

/-- The core can take an instruction: it runs, its cluster is ON, and it is not held at a fault (R86, R90, R123, R228). -/
def State.coreReady (s : State) (core : Nat) : Bool :=
  let k := s.core core
  k.run == .running && s.clusterOn (clusterOf core) &&
    (match k.stall with
      | some (.fault, _) => false
      | some (.wake, _) => false
      | _ => true)

/-- The issue that names a stalled instruction: whether it was tried as a second does not matter (R99). -/
def lone (i : Issue) : Issue := { i with second := false }

/-- No other instruction of the core waits to issue before this one (R99). -/
def Core.mayIssue (k : Core) (c : Instr) : Bool := k.held.all fun h => h == c

/-- The core stalls at an instruction: the first bight cycle of its stall is kept, whatever it waits for (R99, R120). -/
def State.stallCore (s : State) (core : Nat) (c : Instr) (why : Stall) : State :=
  let b := (s.bightOfCluster (clusterOf core)).getD 256
  s.modCore core fun k => { k with held := some c, stall := some (why, (k.stall.map (·.2)).getD (s.runCycles b)) }

/-- The instruction issues as the second of the core's open bundle (R97); one that could not is the first of a new bundle. -/
def State.joins (s : State) (i : Issue) (insn : Insn) : Bool :=
  let k := s.core i.core
  i.second && k.openBundle && k.held.isNone && (match k.slot0 with | some a => insn.pairs a | none => false)

/-- The state in which the instruction is fetched: in the open bundle, or with that bundle ended, and with the instruction in the
buffer (R95 to R97). A taken branch does not end its bundle: the instruction that joins it is the one at the target (log 172). -/
def State.fetching (s : State) (i : Issue) (insn : Insn) : State :=
  (s.setCore i.core (if s.joins i insn then s.core i.core else (s.core i.core).closeBundle)).fetchInto i.core

/-- The core as the instruction finds it. -/
def State.issuer (s : State) (i : Issue) (insn : Insn) : Core := (s.fetching i insn).core i.core

/-- A far load of the core is out: its failure would be an exception of an earlier instruction (R107, R121). -/
def Core.loadsOut (k : Core) : Bool := k.far.any fun f => !f.store

/-- The instruction can start: the core takes instructions, none of the registers it names waits for a far load, and one that acts on
more than registers waits for every far load, whose exception would undo it (R121, log 44). -/
def State.starts (s : State) (i : Issue) (insn : Insn) : Bool :=
  s.coreReady i.core && !(s.core i.core).waitsFor (insn.reads ++ insn.writes) && !(insn.acts && (s.core i.core).loadsOut)

/-- The core after an instruction that completes (R91, R97, R127): `k` is the core with the instruction's own effect on it. -/
def Core.retire (k : Core) (insn : Insn) (joined : Bool) (pc : Word) : Core :=
  { k with
    pc, instret := k.instret + 1, held := none, stall := none, openBundle := true
    slot0 := if joined then none
      else some { unit := insn.unit, integer := insn.unit == unitInt, writes := insn.writes.filter (· != 0) } }

/-- Issue instruction `c` on a core (R94, R97 to R99, R121): as the second of the open bundle when it may pair, otherwise as the
first of a new one. While another instruction waits nothing happens; one that waits for a far load stalls, and one that raises an
exception waits for every earlier one, whose exception comes first (R121, log 44). -/
def State.issue (s : State) (i : Issue) (c : Instr) (insn : Insn) (body : State → Core → Did) : State :=
  let k := s.issuer i insn
  let s' := s.fetching i insn
  let raise := fun (t : State) (cause sub unit : Nat) (value : Word) =>
    if k.loadsOut then s'.stallCore i.core c (.operand insn.unit) else t.raise i.core cause sub unit value
  if !(s.coreReady i.core && (s.core i.core).mayIssue c) then s
  else if !s.starts i insn then s'.stallCore i.core c (.operand insn.unit)
  else if !fetchable i.core k.pc then raise s' causeFetch 0 7 k.pc
  else if k.fetched.isNone then raise s' causeBus subSram 7 k.pc
  else
    match body s' k with
    | .done t target => t.modCore i.core fun k' => k'.retire insn (s.joins i insn) (target.getD (k.pc + 4))
    | .raise t cause sub unit value => raise t cause sub unit value
    | .stall t why => t.stallCore i.core c why

/-- An instruction that only changes registers of its core. -/
def State.issueReg (s : State) (i : Issue) (c : Instr) (insn : Insn) (f : Core → Core) : State :=
  s.issue i c insn fun s k => .done (s.setCore i.core (f k)) none

/-- A scalar instruction of two sources and one result. -/
def State.issueAlu (s : State) (i : Issue) (c : Instr) (unit : Nat) (rd rs1 rs2 : SReg) (f : Word → Word → Word) : State :=
  s.issueReg i c { unit, reads := [sName rs1, sName rs2], writes := [sName rd] } fun k => k.setReg rd (f (k.reg rs1) (k.reg rs2))

/-- A vector instruction of the given sources and one result. -/
def State.issueVec (s : State) (i : Issue) (c : Instr) (unit : Nat) (vd : VReg) (vs : List VReg) (f : Core → Core × Vec) : State :=
  s.issueReg i c { unit, reads := vs.map vName, writes := [vName vd] } fun k => let (k', v) := f k; k'.setV vd v

/-- Sixteen FP32 lane results with their flags, gathered into a vector and CL_FFLAGS (R102). -/
def Core.withFlags (k : Core) (l : List FRes) : Core × Vec :=
  ({ k with fflags := l.foldl (fun f r => f ||| r.2) k.fflags }, ofLanes (l.map (·.1)))

end Sys2Proof.Machine
end

