-- ==== Sys2Proof/Machine/OwnerOps.lean ====
section
/-! DEFINITION. What happens when an owner goes: releases of bights, function-level resets, context teardowns and tenant
removals, each in steps that other commands finish (R265, R279, R427 to R432, R536, R604 to R607). -/

namespace Sys2Proof.Machine

/-- The command is the RELASH of a bight that is past prepare: it completes (R265, R274, R279). -/
def State.relashSwitches (s : State) (q seq : Nat) : Bool :=
  List.any s.bights.tab fun (e : Nat × Bight) =>
    (e.2.state == .quiesce || e.2.state == .switchover) &&
      (match e.2.relash with | some r => r.queue == q && r.seq == seq | none => false)

/-- Kill a command whatever it is doing, without re-run, because its owner is gone (R427, R431, R452, R605). A relash that is past
prepare completes, and its command with it (R274). -/
def State.killGone (s : State) (q seq : Nat) : State :=
  match s.cmd? q seq with
  | some c =>
    if s.relashSwitches q seq then s
    else if c.phase = .killing then s.failAlways q seq codeOwnerGone else s.killAny q seq codeOwnerGone (detailCmd q seq)
  | none => s

/-- Every command of a queue is killed. -/
def State.killQueue (s : State) (q : Nat) : State :=
  match s.queue? q with
  | some x => x.cmds.foldl (fun (s : State) c => s.killGone q c.seq) s
  | none => s

/-- Its commands receive no completion entry any more (R414). -/
def Queue.orphan (q : Queue) : Queue := { q with cmds := q.cmds.map fun c => { c with gone := true } }

/-- Break every unbroken fence whose owner context satisfies `p`, naming the context (R427, R431). -/
def State.breakOwned (s : State) (p : Nat → Bool) : State :=
  s.fences.foldl (fun (s : State) (e : Nat × Fence) =>
    if p e.2.asid then s.breakFence e.1 e.2.incarnation codeOwnerGone (detailAsid e.2.asid) else s) s

/-- End every handoff slot whose context satisfies `p` (R536). -/
def State.slotsGone (s : State) (p : Nat → Bool) : State :=
  (Tab.keys s.handoff.slots).foldl (fun (s : State) i => if p (s.slot i).asid then s.slotGone i codeOwnerGone else s) s

/-- An ASID is a context of a function. -/
def State.contextOf (s : State) (fn asid : Nat) : Bool := s.contextFn asid == some fn

/-! ### Releases (R279) -/

/-- The running and held commands of a bight are killed for a release or a reset of the bight (R265, R279). -/
def State.killBight (s : State) (b : Nat) : State :=
  (s.cmdsOf b).foldl (fun (s : State) (e : Nat × Cmd) =>
    if e.2.running || e.2.phase == .held || (e.2.launched && e.2.live?) then s.killGone e.1 e.2.seq else s) s

/-- A release of a bight begins (R279): running commands are killed, a relash in prepare is cancelled, and the clears fall due.
A lash still in progress ends as CANCELLED. -/
def State.beginRelease (s : State) (b : Nat) : State :=
  let s := if (s.bight b).state = .lashing then s.reportLash b 1 lashCancelled else s
  ((s.cancelRelash b lashCancelled codeRelashCancelled).killBight b).dueClear b 2

/-- A release of a bight is running or due. -/
def Bight.releaseBegun (x : Bight) : Bool := x.state == .releasing || x.due == 2

/-- Begin the release of every bight of a list that is not free and whose release has not begun. -/
def State.releaseAll (s : State) (l : List Nat) : State :=
  l.foldl (fun (s : State) b =>
    if (s.bight b).state = .free ∨ (s.bight b).releaseBegun = true then s else s.beginRelease b) s

/-! ### Function-level resets (R265, R427) -/

/-- The registers of a function as its reset leaves them: MSI-X, MG_IRQ_CAUSE and MG_ERRCNT at reset, the fault ring disabled. -/
def Fn.flr (f : Fn) : Fn :=
  { f with
    irqCause := 0, errMalformed := 0, errDoorbell := 0, errSignal := 0, errAperture := 0, msix := [], pba := 0,
    ringBase := f.ringBase &&& ~~~0x10, ringOverflowed := false, batch := none }

/-- Disable a function's fault ring and discard its pending and held faults. -/
def State.dropFnFaults (s : State) (fn : Nat) : State :=
  { s with xlat := { s.xlat with faults := s.xlat.faults.filter fun f => f.fn != fn } }

/-- The queues of a function. -/
def State.queuesOfFn (s : State) (fn : Nat) : List Nat :=
  (List.filter (fun e : Nat × Queue => e.2.fn == fn) s.queues).map (·.1)

/-- The queues whose context is an ASID. -/
def State.queuesOfAsid (s : State) (asid : Nat) : List Nat :=
  (List.filter (fun e : Nat × Queue => e.2.asid == asid) s.queues).map (·.1)

/-- The bights of a function that are not free. -/
def State.bightsOfFn (s : State) (fn : Nat) : List Nat :=
  (List.filter (fun e : Nat × Bight => e.2.state != .free && e.2.owner == fn) s.bights.tab).map (·.1)

/-- The bights of a function are reset (R265): running commands are killed, a relash in prepare is cancelled, and SRAM is
cleared, after a relash that is switching. A bight that is being lashed or released has nothing of it left to do. -/
def State.resetBight (s : State) (b : Nat) : State :=
  match (s.bight b).state with
  | .free | .lashing | .releasing => s
  | _ => ((s.cancelRelash b lashCancelled codeRelashCancelled).killBight b).dueClear b 1

/-- A relash of a bight in prepare is cancelled, and the fence of its command breaks at once (R274). -/
def State.cancelNow (s : State) (b : Nat) : State :=
  let x := s.bight b
  let s := s.cancelRelash b lashCancelled codeRelashCancelled
  match x.state, x.relash with
  | .prepare, some r =>
    (match (s.cmd? r.queue r.seq).bind (·.fence) with
      | some (f, inc) => if r.cancelled then s else s.breakFence f inc codeRelashCancelled (detailCmd r.queue r.seq)
      | none => s)
  | _, _ => s

/-- A function-level reset of a function begins (R274, R427): the relashes that it cancels break their fences before the function's
others break. -/
def State.beginFlr (s : State) (fn : Nat) : State :=
  let s := (s.bightsOfFn fn).foldl (fun (s : State) b => s.cancelNow b) s
  let s := (s.breakOwned (s.contextOf fn)).slotsGone (s.contextOf fn)
  let s := (s.queuesOfFn fn).foldl (fun (s : State) q =>
    (s.modQueue q fun x => { x.orphan with running := false, head := 0, tail := 0, next := 0, groupDone := 0 }).killQueue q) s
  let s := (s.bightsOfFn fn).foldl (fun (s : State) b => s.resetBight b) s
  let s := (s.dropFnFaults fn).modFn fn Fn.flr
  ({ s with host := { s.host with flr := withOne s.host.flr fn } }).flrCheck

/-! ### Teardowns and removals in progress -/

/-- Close every open inbound window whose ASID satisfies `p` (R387, R431). -/
def State.closeWindows (s : State) (p : Nat → Bool) (abort : Bool) : State :=
  (Tab.keys s.xlat.inbound).foldl (fun (s : State) w => if p (s.inWin w).asid then s.closeInbound w abort else s) s

/-- The kills of a teardown have been taken: every command of its queues has committed, has ended or is killed. A relash that is past
prepare completes first (R274, R431, log 214). -/
def State.tearKilled (s : State) (asid : Nat) : Bool :=
  (s.queuesOfAsid asid).all fun q => ((s.queue? q).map fun x => x.cmds.all fun c => !c.live? || c.phase == .killing).getD true

/-- The fences that a killed command would have signalled break (R431, step 3). -/
def State.breakWould (s : State) (q : Nat) (c : Cmd) : State :=
  if c.phase == .committed || c.code != codeOwnerGone then s
  else
    let s := match c.fence with
      | some (f, inc) => s.breakFence f inc codeOwnerGone (detailCmd q c.seq)
      | none => s
    match c.payload with
    | .signal f _ => s.breakFence f c.bound codeOwnerGone (detailCmd q c.seq)
    | _ => s

/-- Steps 3 and 4 of a teardown (R431): fences break, slots end, windows close, and the ASID is invalidated. -/
def State.teardownBreak (s : State) (asid : Nat) : State :=
  let s := (s.breakOwned (· == asid)).slotsGone (· == asid)
  let s := (s.queuesOfAsid asid).foldl (fun (s : State) q =>
    match s.queue? q with
    | some x => x.cmds.foldl (fun (s : State) c => s.breakWould q c) s
    | none => s) s
  (s.closeWindows (· == asid) false).invalidate (.teardown asid) false (.asid asid)

/-- The teardowns whose kills have all been taken go on (R431). -/
def State.teardownCheck (s : State) : State :=
  s.host.tearKills.foldl (fun (s : State) asid =>
    if s.tearKilled asid then
      ({ s with host := { s.host with tearKills := without s.host.tearKills asid } }).teardownBreak asid
    else s) s

/-- A teardown's invalidation is done: the bights that it names are released (R431, step 5). -/
def State.teardownStep (s : State) (asid : Nat) : State := s.releaseAll (Tab.look [] s.host.teardowns asid)

/-- An invalidation of the removal that runs is not complete. -/
def State.removalInv (s : State) : Bool := s.xlat.invs.any fun v => v.origin == .removal

/-- Key slots of a function that still hold a key. -/
def State.keyedSlots (s : State) (fn : Nat) : List Nat :=
  (List.filter (fun e : Nat × KeySlot => e.2.owner == some fn && (e.2.key0.isSome || e.2.key1.isSome)) s.security.slots).map (·.1)

/-- Clear the owner of every key slot of a function (R605, step 5). -/
def State.clearOwners (s : State) (fn : Nat) : State :=
  { s with security := { s.security with
      slots := Tab.mapPut {} (fun (_ : Nat) (k : KeySlot) => if k.owner == some fn then { k with owner := none } else k)
        s.security.slots } }

/-- No command of a function is left (R605). -/
def State.fnQuiet (s : State) (fn : Nat) : Bool := (s.queuesOfFn fn).all fun q => ((s.queue? q).map (·.cmds.isEmpty)).getD true

/-- The removal that runs goes on as far as it can (R605 to R607): once its invalidations are done and its keys erased, its
bights are released; once these are free and its commands gone, the result is written, and a function-level reset that waited
takes effect. -/
def State.removalStep (s : State) : State :=
  match s.security.removal with
  | none => s
  | some r =>
    if s.removalInv || !(s.keyedSlots r.fn).isEmpty then s
    else
      let s := (s.clearOwners r.fn).releaseAll r.bights
      match s.security.removal with
      | some r =>
        if r.bights.isEmpty && s.fnQuiet r.fn then
          let s := { s with security := { s.security with removal := none, removalState := 2, removalResult := 0 } }
          let s := s.cause 0 4
          if s.host.flrDue.contains r.fn then
            ({ s with host := { s.host with flrDue := without s.host.flrDue r.fn } }).beginFlr r.fn
          else s
        else s
      | none => s

/-- What waits for commands to end goes on: function-level resets and a removal. -/
def State.ownersGo (s : State) : State := s.flrCheck.teardownCheck.removalStep

end Sys2Proof.Machine
end

