-- ==== Sys2Proof/Machine/Xlat.lean ====
section
/-! DEFINITION. The commands of translation: table addresses, the fault ring and its resolutions, invalidations, access
notifications, windows and the aperture (R348, R364 to R388, R397, R679). -/

namespace Sys2Proof.Machine

/-! ### The registers of a function's block -/

/-- The host reaches a function's registers (R389, R576): the module is past READY and a port that serves the function has its
link up. -/
def State.regsOpen (s : State) (fn : Nat) : Bool :=
  s.isReady && (if fn = 0 then !s.host.linkUp.isEmpty else s.host.linkUp.contains (s.portOfFn fn))

/-- A register write of function `fn`: without effect while the registers are not reachable. -/
def State.regWrite (s : State) (fn : Nat) (act : State → State) : State := if s.regsOpen fn then act s else s

/-! ### Table addresses (R388, R433) -/

/-- Every bight is free. -/
def State.allFree (s : State) : Bool := (Tab.vals s.bights.tab).all fun (x : Bight) => x.state == .free

/-- An address register of the form [47:16] address, [0] EN, with its reserved bits clear (R15). -/
def tableReg (v : BitVec 64) : Word := BitVec.ofNat 64 (fieldN v.toNat 16 32 * 65536 + v.toNat % 2)

/-- The table of `n` bytes that a register value names lies in the HBM range. -/
def tableFits (v : BitVec 64) (n : Nat) : Bool := decide (fieldN v.toNat 16 32 * 65536 + n ≤ hbmLimit)

/-- A write of 0x5200.00 (R348, R388). -/
def putContextTable (v : BitVec 64) : Act := fun s =>
  if !tableFits v 65536 then (dRange, s)
  else if !s.allFree then (dRefused, s)
  else
    let t := { s with xlat := { s.xlat with contextTable := tableReg v } }
    (dOk, if t.ctxBase = s.ctxBase then t else t.pinCaches)

/-- CONTEXT_TABLE_WRITE (R388). -/
def execContextTableWrite (via : Via) (value : BitVec 64) (s : State) : Out :=
  .next (s.objWrite via false true (putContextTable value))

/-- A write of 0x5220.00 (R401, R433, R679). -/
def putObjectTable (v : BitVec 64) : Act := fun s =>
  if !tableFits v 0x1000000 then (dRange, s)
  else if !s.allFree then (dRefused, s)
  else (dOk, { s with xlat := { s.xlat with objectTable := tableReg v } })

/-- OBJECT_TABLE_WRITE (R433, R679). -/
def execObjectTableWrite (via : Via) (value : BitVec 64) (s : State) : Out :=
  .next (s.objWrite via false true (putObjectTable value))

/-! ### The fault ring (R367 to R370) -/

/-- BATCH_CLOSE fn (R369): 50 µs after its first entry the open batch closes. A batch that is full, or that fills the ring,
closes with the entry that does so. -/
def execBatchClose (fn : Nat) (s : State) : Out :=
  .next (match (s.fn fn).batch with
    | some (_, t) => if t + 50000 ≤ s.now then s.closeBatch fn else s
    | none => s)

/-- The ring of a function has space again: the next overflow counts anew (R370). -/
def State.ringRoom (s : State) (fn : Nat) : State :=
  if 0 < (s.fn fn).ringFree then s.modFn fn fun f => { f with ringOverflowed := false } else s

/-- HELD_FAULT_WRITE fn (R370): the oldest fault held for ring space is written with DELAYED set. -/
def execHeldFaultWrite (fn : Nat) (s : State) : Out :=
  .next (match s.heldFaults fn with
    | [] => s
    | f :: _ =>
      if (s.fn fn).ringFree = 0 then s
      else
        let (tag, s) := s.takeTag fn
        let s := { s with xlat := { s.xlat with
          faults := s.xlat.faults.map fun g => if g = f then { g with tag := some tag } else g
          entriesWritten := s.xlat.entriesWritten + 1 } }
        (s.ringWrite fn (s.faultEntry f tag true)).ringRoom fn)

/-- A write of MG_FRING_BASE (R367, R368): EN going from 0 to 1 sets the producer count to 0. -/
def State.putRingBase (s : State) (fn : Nat) (v : Word) : State :=
  (s.modFn fn fun f =>
    let rise := v.getLsbD 4 && !f.ringBase.getLsbD 4
    { f with ringBase := v &&& ~~~0xFE0, ringProd := if rise then 0 else f.ringProd }).ringRoom fn

/-- FAULT_RING_ENABLE fn (R367, R368): a write of MG_FRING_BASE with EN set. -/
def execFaultRingEnable (fn : Nat) (value : Word) (s : State) : Out :=
  .next (s.regWrite fn fun s => s.putRingBase fn (value ||| 0x10))

/-! ### Resolution (R371 to R373) -/

/-- A resolution that names no pending fault is ignored and counted (R371, R373). -/
def State.staleResolve (s : State) : State := { s with xlat := { s.xlat with ignored := s.xlat.ignored + 1 } }

/-- The pending fault of a tag in a function's ring. -/
def State.taggedFault (s : State) (fn : Nat) (tag : BitVec 32) : Option PendFault :=
  s.xlat.faults.find? fun f => f.fn == fn && f.tag == some tag

def State.dropFault (s : State) (f : PendFault) : State :=
  { s with xlat := { s.xlat with faults := s.xlat.faults.filter fun g => g != f } }

/-- A piece waits at a fault: it belongs to the stream and the page. -/
def Piece.waitsAt (p : Piece) (pl : Place) (f : PendFault) : Bool :=
  match p.state, f.requester with
  | .faulted w _, .stream c st =>
    pl.cluster (pl.members.getD p.iota 0) == c && p.stream == st && (if w then p.dst else p.src) / 65536 == f.page
  | _, _ => false

/-- The commands with pieces that wait at a fault (R364): queue and command. -/
def State.waitersOf (s : State) (f : PendFault) : List (Nat × Queue × Cmd) :=
  s.queues.flatMap fun (e : Nat × Queue) =>
    if e.2.asid = f.asid then
      (e.2.cmds.filter fun c => c.pieces.any fun p => p.waitsAt (s.bight e.2.bight).place f).map fun c => (e.1, e.2, c)
    else []

/-- A piece that waits at a fault goes back to the stage it stopped at. -/
def Piece.again (p : Piece) : Piece :=
  match p.state with
  | .faulted false _ => { p with state := .toRead }
  | .faulted true d => { p with state := .toWrite d }
  | _ => p

/-- The core that stalls at a fault walks again (R86). -/
def State.unfault (s : State) (core : Nat) : State :=
  s.modCore core fun k => match k.stall with
    | some (.fault, t) => { k with stall := some (.farSlots, t) }
    | _ => k

/-- RETRY of a fault (R371): its requester walks again. -/
def State.retryFault (s : State) (f : PendFault) : State :=
  let s := s.dropFault f
  match f.requester with
  | .stream _ _ =>
    (s.waitersOf f).foldl (fun (s : State) (e : Nat × Queue × Cmd) =>
      s.modCmd e.1 e.2.2.seq fun c => { c with
        pieces := c.pieces.map fun p => if p.waitsAt (s.bight e.2.1.bight).place f then p.again else p }) s
  | .core k => s.unfault k
  | .window _ _ => s

/-- The oldest request of a window at a port, which waits at a fault, is refused to its sender (R364, R371). -/
def State.refuseWindow (s : State) (port w : Nat) : State :=
  match (s.arrived port 0).zipIdx.find? fun e => e.1.hdr.window == w with
  | some (pk, i) =>
    let h := pk.hdr
    (s.takePacket port 0 i).respond port h.tag h.src h.window h.offset (h.ty == 2) 1 0 []
      (s.inboundPayer (s.inWin h.window).asid ((s.inWin h.window).base + h.offset))
  | none => s

/-- FAIL of a fault (R86, R371, R440, R443, R459): the commands that wait at it end, the core raises FAR_FAULT, or the request
is refused to its sender. -/
def State.failFault (s : State) (f : PendFault) : State :=
  let s := s.dropFault f
  match f.requester with
  | .stream _ _ =>
    let s := (s.waitersOf f).foldl (fun (s : State) (e : Nat × Queue × Cmd) =>
      if (e.1, e.2.2.seq) = (f.queue, f.seq) then s else s.failCmd e.1 e.2.2.seq codeTranslation) s
    (match s.cmd? f.queue f.seq with
      | some c =>
        if c.phase = .killing then s.failAlways f.queue f.seq codeTranslation
        else s.killAny f.queue f.seq codeTranslation (detailCmd f.queue f.seq)
      | none => s)
  | .core k => (s.unfault k).raise k causeFarFault 0 unitLsu (BitVec.ofNat 64 f.va)
  | .window port w => (withOne f.ports port).foldl (fun (s : State) p => s.refuseWindow p w) s

/-- Resolve the pending fault of a tag, with FAIL or RETRY (R371, R373). -/
def State.resolve (s : State) (fn : Nat) (tag : BitVec 32) (fail : Bool) : State :=
  match s.taggedFault fn tag with
  | some f => if fail then s.failFault f else s.retryFault f
  | none => s.staleResolve

/-! ### Invalidations (R375 to R380) -/

/-- The scope that a value of MG_INV_CTRL and MG_INV_ADDR name (R375). -/
def invScope (addr v : Word) : InvScope :=
  let asid := fieldN v.toNat 0 12
  match fieldN v.toNat 30 2 with
  | 0 => .range asid (fieldN addr.toNat 16 36) (fieldN v.toNat 32 32)
  | 1 => .asid asid
  | 2 => .all
  | _ => .window (fieldN v.toNat 12 8)

/-- An invalidation through MG_INV_CTRL is issued (R375, R376): the seventeenth outstanding one is dropped. -/
def State.issueInv (s : State) (abort : Bool) (addr v : Word) : State :=
  let out := (s.xlat.invs.filter fun x => x.origin.isControl).length
  if 16 ≤ out then { s with xlat := { s.xlat with invDropped := true } }
  else
    let seq := s.xlat.invIssued + 1
    ({ s with xlat := { s.xlat with invIssued := seq } }).invalidate (.control seq) abort (invScope addr v)

/-! ### Register writes behind writes through BAR2 (R372, R377) -/

/-- A write through BAR2 of a function that `p` holds of is not in memory yet. -/
def State.barWrites (s : State) (p : Nat → Bool) : Bool :=
  (s.reqs.any fun r => r.write && r.result == .pending && (match r.owner with | .aperture fn => p fn | _ => false)) ||
    s.host.apertureWaiting.any fun x => x.data.isSome && p x.fn

/-- A register write waits for writes through BAR2: a resolution for those of its function, an invalidation for all (R372, R377). -/
def State.regHeld (s : State) : RegWait → Bool
  | .resolve fn _ _ => s.barWrites (· == fn)
  | .inv _ _ _ => s.barWrites fun _ => true

/-- Carry out such a register write. -/
def State.doReg (s : State) : RegWait → State
  | .resolve fn tag fail => s.resolve fn tag fail
  | .inv abort addr v => s.issueInv abort addr v

/-- Take such a register write: it goes on at once, or waits in order (R372, R377, log 198). -/
def State.takeReg (s : State) (x : RegWait) : State :=
  if s.host.regWaiting.isEmpty && !s.regHeld x then s.doReg x
  else { s with host := { s.host with regWaiting := s.host.regWaiting ++ [x] } }

/-- A write of MG_FAULT_RESOLVE with ACTION RETRY or FAIL: one that names no pending fault is counted at once (R371 to R373). -/
def State.takeResolve (s : State) (fn : Nat) (tag : BitVec 32) (fail : Bool) : State :=
  if (s.taggedFault fn tag).isSome then s.takeReg (.resolve fn tag fail) else s.staleResolve

/-- A write of MG_INV_CTRL (R375, R377). -/
def State.putInvCtrl (s : State) (abort : Bool) (v : Word) : State := s.takeReg (.inv abort s.xlat.invAddr v)

/-- FAULT_RETRY fn, tag (R371 to R373). -/
def execFaultRetry (fn : Nat) (tag : BitVec 32) (s : State) : Out := .next (s.regWrite fn fun s => s.takeResolve fn tag false)

/-- FAULT_FAIL fn, tag (R86, R371, R373). -/
def execFaultFail (fn : Nat) (tag : BitVec 32) (s : State) : Out := .next (s.regWrite fn fun s => s.takeResolve fn tag true)

/-- INVALIDATE_DRAIN (R375 to R378). -/
def execInvalidateDrain (value : Word) (s : State) : Out := .next (s.regWrite 0 fun s => s.putInvCtrl false value)

/-- INVALIDATE_ABORT (R375 to R377, R379). -/
def execInvalidateAbort (value : Word) (s : State) : Out := .next (s.regWrite 0 fun s => s.putInvCtrl true value)

/-- What the end of an invalidation does (R376, R387). -/
def State.invEnded (s : State) (v : Invalidation) : State :=
  let s := { s with xlat := { s.xlat with completed := s.xlat.completed + 1 } }
  match v.origin with
  | .control seq => ({ s with xlat := { s.xlat with invDone := seq } }).cause 0 1
  | .window w => s.setInWin w { s.inWin w with state := 0 }
  | .reset => s
  | .teardown asid => s.teardownStep asid
  | .removal => s.removalStep

/-- INVALIDATION_COMPLETE (R376 to R379, R387): the first invalidation that has nothing left to wait for completes. -/
def execInvalidationComplete (s : State) : Out :=
  .next (match s.nextInv s.xlat.invs false with
    | some v => ({ s with xlat := { s.xlat with invs := dropInv v s.xlat.invs } }).invEnded v
    | none => s)

/-! ### Access counters (R381, R382) -/

/-- ACCESS_NOTIFICATION die, counter (R382): a counter that has reached the threshold is reset and notified. -/
def execAccessNotification (die counter : Nat) (s : State) : Out :=
  let list := Tab.look [] s.xlat.counters die
  .next (match list[counter]? with
    | some c =>
      if c.count < s.xlat.threshold then s
      else
        let list := modifyAt (fun (x : Counter) => { x with count := 0 }) list counter
        let s := { s with xlat := { s.xlat with counters := Tab.put [] s.xlat.counters die list } }
        s.notify ((s.contextFn c.asid).getD 0) die c.asid c.region
    | none => s)

/-! ### Windows (R384 to R387) -/

/-- INBOUND_REQUEST port (R363, R386, R491, R499): the oldest request at a link port that is not held is checked against its
window and translated, or refused. -/
def execInboundRequest (port : Nat) (s : State) : Out := .next (s.serveInbound port)

/-- A write of an inbound window's state (R384, R387, R388): 0 and 2 close it, 1 opens a closed one. -/
def putInState (w : Nat) (v : BitVec 8) : Act := fun s =>
  let x := s.inWin w
  match v.toNat with
  | 0 => (dOk, s.closeInbound w false)
  | 2 => (dOk, s.closeInbound w true)
  | 1 => if x.state = 3 then (dRefused, s) else (dOk, s.setInWin w { x with state := 1 })
  | _ => (dRange, s)

/-- INBOUND_CLOSE_DRAIN window (R387). -/
def execInboundCloseDrain (via : Via) (window : Nat) (s : State) : Out :=
  .next (s.objWrite via true false (putInState window 0))

/-- INBOUND_CLOSE_ABORT window (R387). -/
def execInboundCloseAbort (via : Via) (window : Nat) (s : State) : Out :=
  .next (s.objWrite via true false (putInState window 2))

/-- A write of an outbound window's state (R387, R388). -/
def putOutState (w : Nat) (v : BitVec 8) : Act := fun s =>
  if v.toNat ≤ 1 then (dOk, s.setOutWin w { s.outWin w with state := v.toNat }) else (dRange, s)

/-- OUTBOUND_CLOSE window (R387): no new request passes it. -/
def execOutboundClose (via : Via) (window : Nat) (s : State) : Out :=
  .next (s.objWrite via true false (putOutState window 0))

/-! ### The aperture (R397) -/

/-- Who a host access through BAR2 is for. -/
def State.whoAperture (s : State) (fn port asid : Nat) : Who :=
  let die := halfOfPcie port / 2
  { asid, fn := some fn, bight := none, cmd := none, requester := .core 0, cache := dieCache die, die, master := 256 + port,
    deadline := s.stamp, aperture := true }

/-- A host access that goes no further (R397). -/
def State.apertureMiss (s : State) (fn : Nat) (write : Bool) : State :=
  if write then s.modFn fn fun f => { f with errAperture := satInc16 f.errAperture } else s.send (.completion fn false none)

/-- A host access through BAR2 of a function, whose aperture is set: it goes on, misses, or waits (R318, R397, R601). -/
def State.aperture (s : State) (x : HostAccess) : State :=
  let f := s.fn x.fn
  let write := x.data.isSome
  let n := match x.data with | some d => d.length | none => x.len
  let port := x.port
  let va := fieldN f.aper.toNat 30 22 * 2 ^ 30 + x.offset
  let w := s.whoAperture x.fn port (fieldN f.aper.toNat 0 12)
  match s.forgetSteps.translate w va n write with
  | (.ok d, s) =>
    let a : Access := { who := w, owner := .aperture x.fn, master := 256 + port, deadline := s.stamp, write, va,
                        len := n, data := x.data.getD [] }
    let (id, s) := s.startAccess a d
    (match s.req? id with
      | some r => if r.result = .pending then s else s.arriveReq id r.result
      | none => s)
  | (.hold, s) => { s with host := { s.host with apertureWaiting := s.host.apertureWaiting ++ [x] } }
  | (_, s) => s.apertureMiss x.fn write

/-- The PCIe port that a host access of a function comes through: the function's; of function 0 either whose link is up, which the
command leaves open (R390, log 12). -/
def State.entryPort (s : State) (fn : Nat) : Nat × State :=
  if fn = 0 ∧ s.host.linkUp.contains 0 = true ∧ s.host.linkUp.contains 1 = true then
    let (n, s) := s.freeNat
    (n % 2, s)
  else (s.portOfFn fn, s)

/-- The size of BAR2 (R393): 64 GiB for function 0, 16 GiB for a virtual function. -/
def aperBytes (fn : Nat) : Nat := if fn = 0 then 2 ^ 36 else 2 ^ 34

/-- APERTURE_ACCESS fn, offset, len, data (R294, R326, R332, R334, R397): a host read, or with `data` a write, through BAR2, and with
both a length and data an AtomicOp, which completes as Unsupported Request (log 188). A host access lies within one 4 KiB block.
Before READY it completes as Unsupported Request (R576). An offset beyond the BAR is no access to the function (R393). -/
def execApertureAccess (fn offset len : Nat) (data : Option Bytes) (s : State) : Out :=
  let write := data.isSome
  let n := match data with | some d => d.length | none => len
  .next (if n == 0 || decide (4096 < offset % 4096 + n) || decide (aperBytes fn < offset + n) || !s.fnUp fn then s
    else if write && len != 0 then s.send (.completion fn false none)
    else if !s.isReady then (if write then s else s.send (.completion fn false none))
    else if !(s.fn fn).aper.getLsbD 63 then s.apertureMiss fn write
    else
      let (port, s) := s.entryPort fn
      s.aperture { fn, port, offset, len, data })

end Sys2Proof.Machine
end

