-- ==== Sys2Proof/Machine/Handoff.lean ====
section
/-! DEFINITION. The commands of the handoff: slot operations, packets, timers, verdicts, prefetch and zeroization (R516 to
R538). -/

namespace Sys2Proof.Machine

/-! ### Slot operations (R519) -/

def slotOk : Nat := 0x00
def slotMalformed : Nat := 0x01
def slotInUse : Nat := 0x02
def slotBadState : Nat := 0x09
def slotStale : Nat := 0x0A

/-- Write 0x6503.00: the slot, the operation, the state found and the result (R538). -/
def State.slotResult (s : State) (i op found result : Nat) : State :=
  let seq := fieldN s.handoff.lastOp.toNat 24 8 + 1
  { s with handoff := { s.handoff with
      lastOp := BitVec.ofNat 32 (seq % 256 * 2 ^ 24 + i * 2 ^ 16 + op * 4096 + found * 256 + result) } }

/-- The entry of a slot in the handoff region (R318, R516). -/
def State.slotEntry (s : State) (i : Nat) : Got Bytes × State :=
  if s.handoffOn then s.ownRead .base (s.handoffBase + 64 * i) 64 else (.bad, s)

/-- The fields of an entry are in range by themselves (R517). -/
def entryFieldsOk (x : Slot) : Bool :=
  let ctrl := leAt x.entry 0 1
  let send := x.dir == 1
  decide (ctrl < 4) && (x.dir == 1 || x.dir == 2) && x.peer != 0xFFFF && decide (1 ≤ x.layers) &&
    decide (leAt x.entry 0x12 2 < 4096) && decide (1 ≤ leAt x.entry 0x14 4) && decide (leAt x.entry 0x14 4 ≤ 65535) &&
    decide (x.bind < 2 ^ 48) && (if send then x.pfVa == 0 && x.pfLayers == 0 else decide (x.pfLayers ≤ x.layers)) &&
    decide (1 ≤ x.timeout) && decide (1 ≤ x.heldMs) && leAt x.entry 0x37 1 == 0 && decide (x.fenceValue < 2 ^ 63) &&
    (x.pfLayers == 0 || x.pfVa != 0)

/-- An entry is malformed for the module as it stands (R519). -/
def State.entryMalformed (s : State) (x : Slot) : Bool :=
  !entryFieldsOk x ||
    match s.contextFn x.asid with
    | none => true
    | some fn =>
      (x.fenceNo != 0xFFFF && !s.mayUseFence fn x.fenceNo) ||
        if x.dir = 1 then (s.outWin x.window).dest != x.peer || decide ((s.outWin x.window).length < x.range)
        else
          let w := s.inWin x.window
          w.asid != x.asid || w.base != x.stateVa || decide (w.length < x.range)

/-- ARM (R519); it waits while the stack of the handoff region is not ON (R318). -/
def State.slotArm (s : State) (i : Nat) : State :=
  let old := s.slot i
  let done := fun (s : State) (r : Nat) => s.slotResult i 1 old.state r
  match s.forgetSteps.slotEntry i with
  | (.bad, s) => done s slotMalformed
  | (.held, s) => { s with handoff := { s.handoff with armWaiting := s.handoff.armWaiting ++ [i] } }
  | (.ok b, s) =>
    let x : Slot := { entry := b, timerAt := s.now }
    if s.entryMalformed x then done s slotMalformed
    else if x.dir == 2 && (Tab.keys s.handoff.slots).any (fun j =>
        let y := s.slot j
        j != i && y.dir == 2 && y.window == x.window && y.state != stIdle && !slotTerminal y.state) then done s slotInUse
    else if old.state ≠ stIdle then done s slotBadState
    else done ((s.putSlot i { x with state := stArmed }).clearLayers i) slotOk

/-- FREE (R519). -/
def State.slotFree (s : State) (i : Nat) : State :=
  let x := s.slot i
  if slotTerminal x.state && !x.zeroizing then
    (s.putSlot i { x with state := stIdle }).slotResult i 2 x.state slotOk
  else s.slotResult i 2 x.state slotBadState

/-- ABORT (R519, R535). -/
def State.slotAbort (s : State) (i : Nat) : State :=
  let st := (s.slot i).ahead
  if st = stIdle ∨ slotTerminal st = true then s.slotResult i 3 st slotBadState
  else (s.slotGo i 10 stFailed codeHandoffAborted).slotResult i 3 st slotOk

/-- A write of 0x6501.00 (R519, R538, R654). -/
def putSlotOp (v : BitVec 16) : Act := fun s =>
  let i := v.toNat / 256
  match v.toNat % 16 with
  | 1 => if s.errors.rootstock then (dRefused, s) else (dOk, s.slotArm i)
  | 2 => (dOk, s.slotFree i)
  | 3 => (dOk, s.slotAbort i)
  | _ => (dRange, s)

/-- The value of 0x6501.00 that names a slot and an operation. -/
def slotOpWord (slot : BitVec 8) (op : BitVec 8) : BitVec 16 := slot ++ op

/-- SLOT_ARM slot (R519). -/
def execSlotArm (via : Via) (slot : BitVec 8) (s : State) : Out :=
  .next (s.objWrite via true false (putSlotOp (slotOpWord slot 1)))

/-- SLOT_FREE slot (R519). -/
def execSlotFree (via : Via) (slot : BitVec 8) (s : State) : Out :=
  .next (s.objWrite via true false (putSlotOp (slotOpWord slot 2)))

/-- SLOT_ABORT slot (R519, R535). -/
def execSlotAbort (via : Via) (slot : BitVec 8) (s : State) : Out :=
  .next (s.objWrite via true false (putSlotOp (slotOpWord slot 3)))

/-- A write of 0x6500.00 (R516, R538). -/
def putHandoffRegion (v : BitVec 64) : Act := fun s =>
  if !tableFits v 0x44000 then (dRange, s)
  else if (Tab.vals s.handoff.slots).any fun (x : Slot) => x.state != stIdle then (dRefused, s)
  else (dOk, { s with handoff := { s.handoff with region := tableReg v } })

/-- HANDOFF_REGION_WRITE (R538). -/
def execHandoffRegionWrite (via : Via) (value : BitVec 64) (s : State) : Out :=
  .next (s.objWrite via true true (putHandoffRegion value))

/-! ### Packets (R525 to R528) -/

/-- The slot that a handoff packet matches (R527): one in use, of the direction opposite to the sender's. -/
def State.slotOfPacket (s : State) (pk : Packet) (dir : Nat) : Option Nat :=
  (Tab.keys s.handoff.slots).find? fun i =>
    let x := s.slot i
    x.state != stIdle && x.dir == dir && x.peer == pk.hdr.src && x.request == leAt pk.payload 0 8 &&
      x.epoch == leAt pk.payload 8 4

def State.noSlot (s : State) : State := { s with handoff := { s.handoff with unmatched := s.handoff.unmatched + 1 } }
def State.slotIgnores (s : State) : State := { s with handoff := { s.handoff with ignored := s.handoff.ignored + 1 } }

/-- Take the handoff packet of a type at the head of VC 3 and act on the slot it matches. -/
def State.handoffPacket (s : State) (port ty dir : Nat) (act : State → Nat → Bytes → State) : State :=
  match s.headOf port 3 ty with
  | none => s
  | some pk =>
    let s := s.takePacket port 3 0
    match s.slotOfPacket pk dir with
    | none => s.noSlot
    | some i => act s i pk.payload

/-- A slot learns the number of the peer's slot from the first packet that gives it; later ones leave it, so that resent packets carry
the same payload (R528). -/
def Slot.meetPeer (x : Slot) (n : Nat) : Slot := if x.peerSlot = 0xFF then { x with peerSlot := n } else x

/-- A slot's packet goes again in answer to the peer's, unless the first is still to go, behind its report (R527, R530). -/
def State.slotAgain (s : State) (i ty : Nat) : State := if (s.slot i).waiting.isEmpty then s.slotPacket i ty else s

/-- An OFFER at a receive slot (R527, R529). -/
def State.takeOffer (s : State) (i : Nat) (d : Bytes) : State :=
  let x := s.slot i
  let snd := leAt d 0x0C 1
  let met := s.setSlot i (x.meetPeer snd)
  if x.ahead = stArmed then s.setSlot i { x.meetPeer snd with offer := some snd, timerAt := s.now }
  else if x.ahead = stCommitted then met.slotGo i 3 stTaken 0
  else if x.ahead = stTaken ∨ x.ahead = stQuery then met.slotAgain i 0x11
  else s.slotIgnores

/-- OFFER port (R527). -/
def execOffer (port : Nat) (s : State) : Out := .next (s.handoffPacket port 0x10 2 State.takeOffer)

/-- A TAKEN at a send slot (R527). -/
def State.takeTaken (s : State) (i : Nat) (d : Bytes) : State :=
  let x := s.slot i
  let met := s.setSlot i (x.meetPeer (leAt d 0x0D 1))
  if x.ahead = stOffered ∨ x.ahead = stQuery then met.slotGo i 4 stReleased 0
  else if x.ahead = stReleased then met.slotAgain i 0x12
  else s.slotIgnores

/-- TAKEN port (R527). -/
def execTaken (port : Nat) (s : State) : Out := .next (s.handoffPacket port 0x11 1 State.takeTaken)

/-- A RELEASE at a receive slot (R527). -/
def State.takeRelease (s : State) (i : Nat) (_ : Bytes) : State :=
  if (s.slot i).ahead = stTaken ∨ (s.slot i).ahead = stQuery then s.slotGo i 5 stOwned 0 else s.slotIgnores

/-- RELEASE port (R527). -/
def execRelease (port : Nat) (s : State) : Out := .next (s.handoffPacket port 0x12 2 State.takeRelease)

/-- HANDOFF_RESEND slot (R528): once 1 ms has passed since the last sending, the packet of the state, or of the state that QUERY left,
is sent again. -/
def execHandoffResend (slot : Nat) (s : State) : Out :=
  let x := s.slot slot
  let st := if x.state = stQuery then x.before else x.state
  let again := fun (ty : Nat) =>
    if x.sentAt + 1000000 ≤ s.now then (s.setSlot slot { x with sentAt := s.now }).slotPacket slot ty else s
  .next (if st = stOffered then again 0x10 else if st = stTaken then again 0x11 else s)

/-! ### Timers (R529) -/

/-- HANDOFF_TIMEOUT slot (R529): TIMEOUT frames without progress end the handoff RECV and the slot. -/
def execHandoffTimeout (slot : Nat) (s : State) : Out :=
  let x := s.slot slot
  .next (if x.dir == 2 && x.state == stArmed && x.waiting.isEmpty &&
        decide (x.timerAt + x.timeout * s.frame.period ≤ s.now) then
      let s := match x.recv with
        | some (q, n) => s.failAlways q n codeHandoffTimeout
        | none => s
      s.slotGo slot 9 stFailed codeHandoffTimeout
    else s)

/-- HELD ms have passed since the slot's timer restarted. -/
def State.heldOver (s : State) (x : Slot) : Bool := x.waiting.isEmpty && decide (x.timerAt + x.heldMs * 1000000 ≤ s.now)

/-- HELD_TIMEOUT slot (R529). -/
def execHeldTimeout (slot : Nat) (s : State) : Out :=
  let x := s.slot slot
  .next (if (x.state == stCommitted || x.state == stOffered || x.state == stTaken) && s.heldOver x then
      s.slotGo slot 6 stQuery 0
    else s)

/-- QUERY_REPEAT slot (R529). -/
def execQueryRepeat (slot : Nat) (s : State) : Out :=
  let x := s.slot slot
  .next (if x.state == stQuery && s.heldOver x then s.slotGo slot 6 stQuery 0 else s)

/-! ### Prefetch (R523) -/

/-- Copy blocks of 4 KiB from one virtual range to another. -/
def State.copyVirt (w : Who) : Nat → State → Nat → Nat → HostAns → VEnd HostAns × State
  | 0, s, _, _, ans => (.ok ans, s)
  | n + 1, s, src, dst, ans =>
    match State.readVirt w agentDma 2 s src 4096 ans with
    | (.fault, s) => (.fault, s)
    | (.code c, s) => (.code c, s)
    | (.ok (d, ans), s) =>
      match State.writeVirt w agentDma 2 s dst d with
      | (.fault, s) => (.fault, s)
      | (.code c, s) => (.code c, s)
      | (.ok _, s) => State.copyVirt w n s (src + 4096) (dst + 4096) ans

/-- The layer whose prefetch copy comes next (R523): the first that has not been copied, once it is complete. -/
def State.nextLayer (s : State) (i : Nat) (c : Cmd) : Option Nat :=
  match (List.range (s.slot i).pfLayers).find? fun l => !c.recv.copied.contains l with
  | some l => if s.layerCount i l = (s.slot i).layerLen then some l else none
  | none => none

/-- PREFETCH_COPY_DONE slot (R523): the copy of the next complete layer by the DMA engines of the RECV's bight, at its class and
cost, through stream 0 of its first member (log 41). -/
def execPrefetchCopyDone (slot : Nat) (answer : HostAns) (s : State) : Out :=
  .next (match (s.slot slot).recv with
    | none => s
    | some (qn, seq) =>
      match s.working qn with
      | none => s
      | some (q, c) =>
        if c.seq ≠ seq ∨ c.recv.slot ≠ some slot then s
        else
          match s.nextLayer slot c with
          | none => s
          | some l =>
            let x := s.slot slot
            let w := { s.whoStream qn q c 0 0 with asid := x.asid }
            let o := l * x.layerLen
            match State.copyVirt w (x.layerLen / 4096) s.forgetSteps (x.stateVa + o) (x.pfVa + o) answer with
            | (.fault, s) => s
            | (.code e, s) => s.failCmd qn seq e
            | (.ok _, s) => s.modCmd qn seq fun d => { d with recv := { d.recv with copied := d.recv.copied ++ [l] } })

/-! ### Verdicts (R531) -/

/-- What a verdict does to a slot in its state: nothing but an OK result, a transition (kind, state, break code), or a refusal. -/
inductive Verdict where
  | same | go (kind st code : Nat) | refuse
deriving DecidableEq, Repr

/-- The table of R531: `own` when this module is named as owner, `peer` when the other side is. -/
def Slot.verdict (x : Slot) (own peer : Bool) : Verdict :=
  let st := x.ahead
  let send := x.dir == 1
  if send && (st == stArmed || st == stOffered || st == stQuery) && own then .go 7 stWon codeHandoffReverted
  else if send && (st == stArmed || st == stOffered || st == stQuery) && peer then .go 8 stLost codeHandoffLost
  else if send && st == stReleased && peer then .same
  else if !send && (st == stCommitted || st == stTaken || st == stQuery) && own then .go 5 stOwned 0
  else if !send && (st == stArmed || st == stCommitted || st == stTaken || st == stQuery) && peer then .go 8 stLost codeHandoffLost
  else if !send && st == stOwned && own then .same
  else if (st == stWon && own) || (st == stLost && peer) || (st == stFailed && (if send then own else peer)) then .same
  else .refuse

/-- A verdict that keeps ownership here kills the bound command, if it has not committed; one that gives it away ends the handoff
RECV, if it runs (R531). -/
def State.verdictKills (s : State) (x : Slot) (kind : Nat) : State :=
  if x.dir = 1 then
    if kind = 7 then s.killAny x.bindQueue x.bindSeq codeHandoffReverted (detailCmd x.bindQueue x.bindSeq) else s
  else if kind = 8 then
    match x.recv with
    | some (q, n) => s.failAlways q n codeHandoffLost
    | none => s
  else s

/-- A write of 0x6502.00 (R519, R531). -/
def putVerdict (v : BitVec 64) : Act := fun s =>
  let i := fieldN v.toNat 56 8
  let owner := fieldN v.toNat 32 16
  let x := s.slot i
  let done := fun (s : State) (r : Nat) => (dOk, s.slotResult i 4 x.ahead r)
  match (if x.ahead = stIdle then .refuse else x.verdict (owner == s.fabric.number) (owner == x.peer)) with
  | .refuse => done s slotBadState
  | .same => if fieldN v.toNat 0 32 < x.epoch then done s slotStale else done s slotOk
  | .go kind st code =>
    if fieldN v.toNat 0 32 < x.epoch then done s slotStale
    else done ((s.slotGo i kind st code).verdictKills x kind) slotOk

/-- VERDICT (R531). -/
def execVerdict (via : Via) (value : BitVec 64) (s : State) : Out :=
  .next (s.objWrite via true false (putVerdict value))

/-! ### Zeroization and reports (R530, R534) -/

/-- The master of a zeroizing write (R534): the slot's BIGHT while it holds the channel group, otherwise the module's own, 306. -/
def State.zeroizer (s : State) (w : Who) (d : Dest) : Who :=
  match d with
  | .phys a _ _ => (match regionOf a with
    | .hbm g => if s.bightHolds w.master g then w else { w with master := 306 }
    | _ => { w with master := 306 })
  | _ => { w with master := 306 }

/-- Write zero to a list of 4 KiB blocks from a destination on; the answer says whether all have gone past their gates (R318). -/
def State.zeroBlocks (s : State) (w : Who) (d : Dest) : Nat → Bool × State
  | 0 => (true, s)
  | n + 1 =>
    match State.zeroBlocks s w d n with
    | (true, s) =>
      (match s.writeDest (s.zeroizer w (d.add (4096 * n))) agentDma (d.add (4096 * n)) (List.replicate 4096 0) with
        | (.fault, s) => (false, s)
        | (_, s) => (true, s))
    | r => r

/-- Write zero to one frame of a page of a slot: its number begins at bit `lo` of the leaf, its key generation is bit `gen`. A page
in SRAM is written in the bight that its leaf names (log 114). -/
def State.zeroFrame (s : State) (w : Who) (fn : Nat) (e : Nat × Nat × BitVec 128) (lo gen : Nat) : Bool × State :=
  let (va, level, leaf) := e
  let w := if leafTgt leaf = 1 then { w with bight := some (leafF leaf (lo + 24) 8) } else w
  match s.frameDest w leaf level fn va 65536 (leafF leaf lo 32) (leaf.getLsbD gen) with
  | .ok d => s.zeroBlocks w d 16
  | _ => (true, s)

/-- Write zero to the frames of one page of a slot: both of a SHADOW page, FRAME0 of any other (R534). -/
def State.zeroPage (s : State) (w : Who) (fn : Nat) (e : Nat × Nat × BitVec 128) : Bool × State :=
  match s.zeroFrame w fn e 64 42 with
  | (true, s) => if leafShadow e.2.2 then s.zeroFrame w fn e 96 43 else (true, s)
  | r => r

/-- Write zero to some pages of a slot. -/
def State.zeroPages (w : Who) (fn : Nat) : List (Nat × Nat × BitVec 128) → State → Bool × State
  | [], s => (true, s)
  | e :: t, s =>
    match s.zeroPage w fn e with
    | (true, s) => State.zeroPages w fn t s
    | r => r

/-- Who an access is for that the module makes by itself in a context: master 306, at class 3, on committed frames. -/
def whoModule (asid : Nat) : Who :=
  { asid, fn := none, bight := none, cmd := none, requester := .core 0, cache := 0, die := 0, aperture := true, cls := 3 }

/-- Who a slot's zeroizing writes are for (R534): the module itself, at class 3, as BIGHT where that holds the channel group. -/
def whoZeroize (x : Slot) : Who := { whoModule x.asid with master := x.bight }

/-- A command still holds an object of a slot's pages. -/
def State.slotHeld (s : State) (x : Slot) : Bool :=
  (s.slotPages x).any fun e => leafShadow e.2.2 && (s.object (leafF e.2.2 44 20)).isOpen

/-- The pages of a slot are written with zero; when every write has gone, ZEROIZING clears and ZEROIZED is reported (R534). -/
def State.zeroizeStep (s : State) (i : Nat) : State :=
  let x := s.slot i
  match State.zeroPages (whoZeroize x) ((s.contextFn x.asid).getD 0) (s.slotPages x) s.forgetSteps with
  | (true, s) => (s.putSlot i { x with zeroizing := false }).postReport i 12
  | (false, s) => s

/-- ZEROIZE_DONE slot (R534): the pages of the slot have been written with zero, after every command that held one of their
objects has been killed; ZEROIZED is reported once the report queue has space. A page in a stack that is not ON waits (R318). -/
def execZeroizeDone (slot : Nat) (s : State) : Out :=
  let x := s.slot slot
  .next (if x.zeroizing && s.reportRoom && !s.errors.rootstock && !s.slotHeld x then s.zeroizeStep slot else s)

/-- A write of 0x6510.02 (R530, R538): reports up to and including a sequence leave, and delayed transitions go on. -/
def putReportRemove (v : BitVec 16) : Act := fun s =>
  (dOk, ({ s with handoff := { s.handoff with
    reports := s.handoff.reports.filter fun (e : BitVec 16 × Bytes) => decide (2 ^ 15 ≤ (v - e.1).toNat) } }).slotWaiting)

/-- REPORT_REMOVE (R530). -/
def execReportRemove (via : Via) (value : BitVec 16) (s : State) : Out :=
  .next (s.objWrite via true false (putReportRemove value))

end Sys2Proof.Machine
end

