-- ==== Sys2Proof/Machine/TransitOps.lean ====
section
/-! DEFINITION. Vectors on the transit plane: sending ports and credits, slots, crossings, delivery, dead letters, parity of
transit-table entries, and the pause before a clock ratio changes (R197, R198, R221, R222, R224, R225, R227, R229, R231). -/

namespace Sys2Proof.Machine

/-! ### Slots (R200, R221, R224) -/

/-- One direction of a circuit. -/
def Circuit.lay (c : Circuit) (back : Bool) : Lay := if back then c.back else c.out
def TransitVec.lay (v : TransitVec) : Lay := v.circuit.lay v.back
def TransitVec.ref (v : TransitVec) : CircRef := v.circuit.ref v.back

/-- The slot counter of half-die h in base cycle t, when that is a transit cycle of a half-die that is ON (R200, R227). -/
def State.transitTau (s : State) (h t : Nat) : Option Nat :=
  let r := s.divOf h
  if s.domIs (domHalf h) .on && t % r == 0 && t / r % 4 == 3 then some (t / r) else none

/-- The lay uses the entry j of the router at place i of its path, in transit period p of its half-die (R221, R224). -/
def State.layUses (s : State) (l : Lay) (i j p : Nat) : Bool :=
  let h := halfOfRouter (l.path.getD i 0)
  p % 2 ^ rdivCode l.rdiv (s.divOf h) == 0 && l.slots.any fun j0 => (j0 + i) % 1024 == j

/-- In base cycle t the router at place i of a lay uses an entry of the lay; one that fails parity is all zero (R221, R231). -/
def State.slotOpen (s : State) (l : Lay) (i t : Nat) : Bool :=
  let r := l.path.getD i 0
  match s.transitTau (halfOfRouter r) t with
  | none => false
  | some tau =>
    let j := tau / 4 % 1024
    !(s.router r).badParity.contains (4096 + j) && s.layUses l i j (tau / 4096)

/-- The vectors of one circuit that place i of a path holds: 4 in the FIFO of a crossing between half-dies at different clocks, else
one in the transit input register (R224). -/
def State.placeRoom (s : State) (l : Lay) (i : Nat) : Nat :=
  let d := fun (k : Nat) => s.divOf (halfOfRouter (l.path.getD k 0))
  if 0 < i ∧ d (i - 1) ≠ d i then 4 else 1

/-- There is room at place i for a vector of a circuit, beside those given. -/
def State.roomAt (s : State) (l : Lay) (x : CircRef) (i : Nat) (vs : List TransitVec) : Bool :=
  decide ((vs.filter fun w => w.ref == x && w.hop == i).length < s.placeRoom l i)

/-! ### One transit cycle (R198, R222, R224, R225) -/

/-- The vectors in one base cycle: those that stay or have moved on, those that have moved, those that leave the plane, and the
places that one has left. -/
structure Moves where
  kept : List TransitVec := []
  moved : List TransitVec := []
  done : List TransitVec := []
  gone : List (CircRef × Nat) := []
deriving DecidableEq, Repr

/-- A vector's circuit has been withdrawn before it was sent, or has no hop: it goes to its end at once (log 189). -/
def State.stranded (s : State) (v : TransitVec) : Bool :=
  v.hop == 0 && ((s.circuit? v.ref).isNone || decide (v.lay.path.length < 2))

/-- A vector on its way in base cycle t: it moves one hop in a slot of its lay, one vector from one place, when there is room. -/
def State.moveVec (s : State) (t : Nat) (m : Moves) (v : TransitVec) : Moves :=
  let stay := { m with kept := m.kept ++ [v] }
  let left := (v.ref, v.hop)
  if s.stranded v then { m with done := m.done ++ [v] }
  else if v.hop = 0 ∨ m.gone.contains left = true ∨ s.slotOpen v.lay v.hop t = false then stay
  else if v.lay.path.length ≤ v.hop + 1 then { m with done := m.done ++ [v], gone := left :: m.gone }
  else if s.roomAt v.lay v.ref (v.hop + 1) m.kept then
    let w := { v with hop := v.hop + 1 }
    { m with kept := m.kept ++ [w], moved := m.moved ++ [w], gone := left :: m.gone }
  else stay

/-- New sends on a circuit are stopped: the clock ratio between two half-dies that it joins is about to change (R225). -/
def State.sendsStopped (s : State) (c : Circuit) : Bool :=
  s.mesh.ratioNext.any fun e => c.crosses e.1 && decide (1 < (pathHalves (c.out.path ++ c.back.path)).length)

/-- The credits that a circuit's port has to return in a vector's 4-bit field: those of the paired circuit (R198, R222). -/
def Circuit.owed (c : Circuit) (back : Bool) : Nat := min 15 (if back then c.returnOut else c.returnBack)

/-- The counters of a circuit after its port has sent: the returned credits, and one credit for a valid vector. -/
def Circuit.sent (c : Circuit) (back valid : Bool) : Circuit :=
  let n := if valid then 1 else 0
  if back then { c with returnOut := c.returnOut - c.owed back, creditsBack := c.creditsBack - n }
  else { c with returnBack := c.returnBack - c.owed back, creditsOut := c.creditsOut - n }

/-- The port holds a credit of the circuit and may send (R222, R225). -/
def State.holdsCredit (s : State) (c : Circuit) (back : Bool) : Bool :=
  decide (0 < (if back then c.creditsBack else c.creditsOut)) && !s.sendsStopped c

/-- The first vector of a list that stands at the sending port of a circuit goes onto its first hop, with the credits. -/
def leavePort (x : CircRef) (n : Nat) : List TransitVec → Option (TransitVec × List TransitVec)
  | [] => none
  | v :: t =>
    if v.ref = x ∧ v.hop = 0 then let w := { v with hop := 1, credits := n }; some (w, w :: t)
    else (leavePort x n t).map fun e => (e.1, v :: e.2)

/-- The energy of a valid vector's hop, which its request's payer pays (R64, R65). -/
def State.hopActivity (s : State) (v : TransitVec) : State :=
  match v.req.bind s.req? with
  | some r =>
    let a := v.lay.path.getD (v.hop - 1) 0
    s.activity (.router a) (.hop true (hopLatency a (v.lay.path.getD v.hop 0))) 1 r.payer
  | none => s

/-- The sending port of a circuit in base cycle t: in an active slot it sends its oldest vector while it holds a credit, otherwise an
invalid vector when it has credits to return. -/
def State.sendSlot (s : State) (t : Nat) (c : Circuit) (back : Bool) : State :=
  let l := c.lay back
  let x := c.ref back
  if decide (l.path.length < 2) || !s.slotOpen l 0 t || !s.roomAt l x 1 s.mesh.transit then s
  else
    match if s.holdsCredit c back then leavePort x (c.owed back) s.mesh.transit else none with
    | some (v, vs) =>
      (({ s with mesh := { s.mesh with transit := vs } }).modCircuit x fun c => c.sent back true).hopActivity v
    | none =>
      if c.owed back = 0 then s
      else
        let v : TransitVec := { circuit := c, back, hop := 1, req := none, credits := c.owed back }
        ({ s with mesh := { s.mesh with transit := s.mesh.transit ++ [v] } }).modCircuit x fun c => c.sent back false

/-! ### Delivery (R222, R229, R241) -/

/-- The credits that a vector brings are those of the paired circuit's sender. -/
def State.takeCredits (s : State) (v : TransitVec) : State :=
  if v.credits = 0 then s
  else s.modCircuit v.ref fun c =>
    if v.back then { c with creditsOut := c.creditsOut + v.credits } else { c with creditsBack := c.creditsBack + v.credits }

/-- The port at which a vector ends is a D port; a walker circuit joins two G ports (R356). -/
def TransitVec.atDPort (v : TransitVec) : Bool := (v.back && v.circuit.kind != 4) || v.circuit.kind == 3

/-- A vector is a dead letter at its end: the kind and reason of R241. A channel group whose stack is not ON is none: its gate holds a
request or answers it with a bus error (R34, R318). -/
def State.deadEnd (s : State) (v : TransitVec) : Option (Nat × Nat) :=
  let r := v.lay.path.getLastD 0
  if v.atDPort then if s.clusterOn (clusterOf r) then none else some (1, 1)
  else
    let on := match v.circuit.kind with
      | 1 => s.domIs (domPort v.circuit.target) .on
      | 2 => s.domIs (domDie (halfOfPcie v.circuit.target / 2)) .on
      | _ => true
    if on then none else some (2, 4)

/-- A request is given up: nobody waits for it, or its command will be killed (R229, R230); a step makes its access again. -/
def State.loseReq (s : State) (id : Nat) : State :=
  let s := s.settle id .lost
  match s.req? id with
  | some r => if r.owner = .none then s.dropReq id else s
  | none => s

/-- A dead letter of the transit plane: discarded, its credit returned, reported (R229, R241). -/
def State.deadVec (s : State) (v : TransitVec) (id j kind reason : Nat) : State :=
  let num := if v.back then v.circuit.srcNum else v.circuit.dstNum
  (((s.oweCredit v.ref).loseReq id).deadLetterMsg v.circuit.owner kind num (v.lay.path.getLastD 0) j reason)

/-- A vector leaves the plane: its credits, then what it carries. A channel group's gate keeps the credit until it releases the
request (R341). -/
def State.deliverVec (s : State) (j : Nat) (v : TransitVec) : State :=
  let s := s.takeCredits v
  match v.req with
  | none => s
  | some id =>
    match s.req? id with
    | none => s.oweCredit v.ref
    | some r =>
      match s.deadEnd v with
      | some (kind, reason) => s.deadVec v id j kind reason
      | none =>
        if v.result ≠ .pending then (s.oweCredit v.ref).endReq id v.result
        else if r.stage ≠ .away then s.oweCredit v.ref
        else
          let s := s.modReq id fun r => { r with stage := .there }
          match s.land { r with stage := .there } with
          | (some res, s) => (s.oweCredit v.ref).arriveReq id res
          | (none, s) => if v.circuit.kind = 0 ∨ v.circuit.kind = 4 then s else s.oweCredit v.ref

/-- The index of the entry that a router uses in base cycle t. -/
def State.entryIndex (s : State) (r t : Nat) : Nat := t / s.divOf (halfOfRouter r) / 4 % 1024

/-- The transit plane in base cycle t: what is on its way moves, the sending ports send, and what has come to an end is delivered. -/
def State.transitCycle (s : State) (t : Nat) : State :=
  let m := s.mesh.transit.foldl (fun m v => s.moveVec t m v) {}
  let s := { s with mesh := { s.mesh with transit := m.kept } }
  let s := m.moved.foldl (fun (s : State) v => s.hopActivity v) s
  let s := s.mesh.circuits.foldl (fun (s : State) c =>
    if c.inactive then s else (s.sendSlot t c false).sendSlot t c true) s
  m.done.foldl (fun (s : State) v => s.deliverVec (s.entryIndex (v.lay.path.getLastD 0) t) v) s

/-! ### Parity of transit-table entries (R231) -/

/-- The owners of the active circuits that use entry j of router r's transit table: bights, and 256 for a walker circuit. -/
def State.entryOwners (s : State) (r j : Nat) : List Nat :=
  (s.mesh.circuits.filterMap fun c =>
    let uses := fun (l : Lay) => match l.path.findIdx? (· == r) with | some i => s.layUses l i j 0 | none => false
    if !c.inactive && (uses c.out || uses c.back) then some c.owner else none).dedup

/-- A router whose transit entry of base cycle t fails parity: TABLE_PARITY and a report, with CL_LCORE 0xFFFF outside any bight
(R231, R240; log 178). -/
def State.transitCheck (s : State) (t r : Nat) : State :=
  match s.transitTau (halfOfRouter r) t with
  | none => s
  | some tau =>
    let j := tau / 4 % 1024
    if !(s.router r).badParity.contains (4096 + j) then s
    else
      (s.modRouter r fun x => { x with parityFlag := true }).schedFault ((s.bightOfRouter r).getD 256) r 2 (4096 + j)

/-! ### Clock ratios (R225, R561) -/

/-- The divider of half-die h changes: the circuits that cross its edges are laid again for the new ratio first (R225). -/
def State.changeRatio (s : State) (h div : Nat) : State :=
  let new := { s with power := { s.power with
    divider := Tab.put 1 s.power.divider h div
    bankMark := Tab.set s.power.bankMark h (s.baseCycle, s.bankCycle h) } }
  let laid := new.relayCrossing h
  { laid with power := { laid.power with
      coolHalf := if div = 1 then Tab.erase laid.power.coolHalf h else laid.power.coolHalf } }

/-- The circuits that cross between half-die h and another. -/
def State.crossingCircuits (s : State) (h : Nat) : List Circuit :=
  s.mesh.circuits.filter fun c => c.crosses h && decide (1 < (pathHalves (c.out.path ++ c.back.path)).length)

/-- The divider of half-die h is to change: after one transit period of the slower half in which the crossing circuits take no new
sends, or at once when no circuit crosses its edges (R225). -/
def State.beginRatio (s : State) (h div : Nat) : State :=
  match s.crossingCircuits h with
  | [] => s.changeRatio h div
  | l =>
    let slow := (l.map fun c => max (s.pathDiv c.out.path) (s.pathDiv c.back.path)).foldl max div
    { s with mesh := { s.mesh with ratioNext := s.mesh.ratioNext ++ [(h, div, s.baseCycle + 4096 * slow)] } }

/-- The clock changes whose pause is over (R225). -/
def State.ratiosDue (s : State) : State :=
  let due := s.mesh.ratioNext.filter fun e => decide (e.2.2 ≤ s.baseCycle)
  due.foldl (fun (s : State) e => s.changeRatio e.1 e.2.1)
    { s with mesh := { s.mesh with ratioNext := s.mesh.ratioNext.filter fun e => !decide (e.2.2 ≤ s.baseCycle) } }

/-- The transit plane in the base cycles between two counts, the routers with bad entries, and the clock changes that are due. -/
def State.tickTransit (s : State) (before after : Nat) : State :=
  ((List.range (after - before)).foldl (fun (s : State) i =>
    let t := before + 1 + i
    let s := (Tab.keys s.mesh.routers).foldl (fun (s : State) r => s.transitCheck t r) s
    s.transitCycle t) s).ratiosDue

end Sys2Proof.Machine
end

