-- ==== Sys2Proof/Machine/Mesh.lean ====
section
/-! DEFINITION. The commands of the mesh and the Lanyard: arrivals, clock ratios and acknowledgements (R204, R211, R212, R225,
R236, R238, R239, R561). -/

namespace Sys2Proof.Machine

/-- VECTOR_ARRIVAL n (R211, R212): the n-th program vector or credit on a hop reaches its router, once its bight has come to the
cycle from which it is present there. -/
def execVectorArrival (n : Nat) (s : State) : Out :=
  .next (match s.mesh.flights[n]? with
    | some f =>
      if f.due ≤ (s.bight f.bight).sigma then
        ({ s with mesh := { s.mesh with flights := dropAt s.mesh.flights n } }).deliverFlight f
      else s
    | none => s)

/-- The divider that R561 calls for on half-die h: 1 in fixed-frequency mode or after 10 ms at 100 °C or below, else at least
2 from 105 °C and 4 from 110 °C. -/
def State.wantedDiv (s : State) (h : Nat) : Nat :=
  let t := Tab.look 0 s.power.halfTemp h
  if s.fixedActive then 1
  else if 220 ≤ t then 4
  else if 210 ≤ t then max 2 (s.divOf h)
  else if 100 ≤ Tab.look 0 s.power.coolHalf h then 1
  else s.divOf h

/-- CLOCK_RATIO_CHANGE half div (R199, R225, R561): new sends stop for a transit period on the circuits that cross the half-die's
edges; they are laid again for the new ratio, then its divider changes. -/
def execClockRatioChange (half div : Nat) (s : State) : Out :=
  .next (if half < 32 ∧ div ≠ s.divOf half ∧ div = s.wantedDiv half ∧ s.mesh.ratioNext.all (fun e => e.1 != half) = true then
      s.beginRatio half div
    else s)

/-- An address of R232 that is a stop, or the broadcast address. -/
def stopKnown (a : Nat) : Bool := (domainOfStop a).isSome || a == stopAll

/-- ACK n bad (R236, R238, R239): the n-th message on the Lanyard is an acknowledgement and is taken; a message for an unpowered
or reserved stop is dropped and counted. With `bad` a flit of it failed its check and was sent again, which counts; whether that
cured it is free (log 3): if so the message goes on, if not it is dropped and counted. -/
def execAck (n : Nat) (bad : Bool) (s : State) : Out :=
  .next (match s.lanTake n with
    | none => s
    | some (m, s') =>
      let dropped := fun (s' : State) => { s' with mesh := { s'.mesh with dropsCheck := s'.mesh.dropsCheck + 1 } }
      if bad then
        let (k, s) := s.freeNat
        let s := { s with mesh := { s.mesh with retransmissions := s.mesh.retransmissions + 1 } }
        if k % 2 = 0 then s else dropped { s with mesh := { s.mesh with lan := s'.mesh.lan } }
      else if !stopKnown m.dest || (decide (0xA ≤ m.ty) && decide (m.ty ≤ 0xE)) then dropped s'
      else if !s.stopPowered m.dest then
        { s' with mesh := { s'.mesh with dropsUnpowered := s'.mesh.dropsUnpowered + 1 } }
      else if m.ty = 0xF then s'
      else s)

/-! ### RELASH messages (R287) -/

def relashPrepare : Nat := 1
def relashQuiesce : Nat := 2
def relashSwitch : Nat := 3
def relashResume : Nat := 4
def relashCancel : Nat := 5
def relashClear : Nat := 6

/-- The payload of a RELASH message for a bight as `x` and a placement: P0, the sequence number except for QUIESCE and CLEAR, and
for PREPARE the image and the carry ranges. -/
def relashFlits (op b : Nat) (x : Bight) (p : Place) : List Flit :=
  let p0 := BitVec.ofNat 32 (op * 2 ^ 28 + b * 2 ^ 20 + p.shape * 2 ^ 12 + p.x0 * 2 ^ 7 + p.y0 * 2 ^ 3)
  let seq := BitVec.ofNat 32 x.relashSeq.toNat
  if op = relashQuiesce ∨ op = relashClear then [p0]
  else if op = relashPrepare then
    [p0, seq, BitVec.ofNat 32 (x.family / 65536), BitVec.ofNat 32 (x.carryLocal * 65536 + x.carryShared)]
  else [p0, seq]

/-- The stops of a placement: those of its half-dies, whose routers hold the tables, and those of its members (R232, R287). -/
def Place.stops (p : Place) : List Nat := p.halves.map stopHalf ++ p.memberClusters

/-- A stop does the step that a RELASH message asks of it and acknowledges it: the low 16 bits of the ACK hold SRC and TYPE of the
message (R239, R287, log 208). A message for an unpowered stop is dropped (R238). -/
def State.relashMsg (s : State) (op b : Nat) (p : Place) (stop : Nat) : State :=
  let s := s.lanCarry 6 stop stopMgmt (relashFlits op b (s.bight b) p)
  if s.stopPowered stop then s.lanSend 0xF stopMgmt stop false [BitVec.ofNat 32 (stopMgmt * 16 + 6)] else s

/-- The same step at every stop of a list. The tables are a matter of the half-dies' stops alone; what cores and SRAM do is one of the
members' stops too (DESIGN CHOICE, log 212). -/
def State.relashAll (s : State) (op b : Nat) (p : Place) (stops : List Nat) : State :=
  stops.foldl (fun s a => s.relashMsg op b p a) s

/-- The stops of a placement in a half-die. -/
def Place.stopsIn (p : Place) (h : Nat) : List Nat := stopHalf h :: p.memberClusters.filter fun c => halfOfCluster c == h

end Sys2Proof.Machine
end

