-- ==== Sys2Proof/Machine/Lash.lean ====
section
/-! DEFINITION. The commands that lash, relash, release and idle a bight (R257 to R288). -/

namespace Sys2Proof.Machine

/-- A write of 0x4010.00 (R257, R258, R654): the lash request that the host's memory holds there. -/
def putLash (addr : Nat) (answer : HostAns) : Act := fun s =>
  if s.errors.rootstock then (dRefused, s)
  else
    let s := s.readRecord addr 64
    match answer with
    | none => (dOk, (s.aer 0).reportLash 0 3 lashHostError)
    | some req => (dOk, s.lashWith (slice req 0 64))

/-- LASH (R258): only through the physical function's mailbox. The request is read at `addr`; `answer` is what the host
answers. -/
def execLash (via : Via) (addr : BitVec 64) (answer : HostAns) (s : State) : Out :=
  .next (s.objWrite via false false (putLash addr.toNat answer))

/-- LASH_COMPLETE bight (R259, R261): every needed domain is ON. -/
def execLashComplete (bight : Nat) (s : State) : Out :=
  let x := s.bight bight
  .next (if x.state = .lashing ∧ s.needsMet bight x.place = true then
      let s := (s.relashAll relashPrepare bight x.place (x.place.halves.map stopHalf)).relashAll relashSwitch bight x.place
        x.place.stops
      let s := (s.switchBanks x.place.routers).switchCircuits bight
      let s := s.modBight bight fun y => { y with state := .lashed, sigma := 0, idleSince := s.now }
      (s.relashAll relashResume bight x.place x.place.stops).reportLash bight 1 lashOk
    else s)

/-- A write of 0x4100 + b .05 (R264, R288): only while the bight is LASHED, and the current rectangle must lie within. -/
def putHedge (b : Nat) (v : BitVec 32) : Act := fun s =>
  let x := s.bight b
  if x.state = .lashed ∧ x.place.within v = true then (dOk, s.setBight b { x with hedge := v }) else (dRefused, s)

/-- HEDGE_WRITE (R264). -/
def execHedgeWrite (via : Via) (bight : Nat) (value : BitVec 32) (s : State) : Out :=
  .next (s.objWrite via false true fun s => if bight < 256 then putHedge bight value s else (dNoObject, s))

/-- RELASH queue (R263, R267, R275): the launched RELASH of a queue is checked, and its prepare starts, once no other relash
of the bight is under way. -/
def execRelash (queue : Nat) (s : State) : Out :=
  .next (match s.active queue with
    | some (q, c) =>
      (match c.payload with
        | .relash rec' =>
          if c.phase = .running ∧ c.begun = false ∧ (s.bight q.bight).relash = none ∧ s.power.reef = false ∧
              s.relashAhead q.bight queue c.seq = false then
            s.checkRelash q.bight queue c.seq q.fn rec'
          else s
        | _ => s)
    | none => s)

/-- PREPARE bight, half (R268, R278, R287): the half-die's stop loads the inactive banks of the target; an image that cannot
be read any more refuses the relash (R274). -/
def execPrepare (bight half : Nat) (s : State) : Out :=
  let x := s.bight bight
  .next (match x.relash with
    | some r =>
      let rs := s.unloaded bight r.target half
      if x.state = .prepare ∧ r.cancelled = false ∧ s.power.reef = false ∧ rs ≠ [] ∧ s.domOn (domHalf half) = true then
        match s.forgetSteps.readShape (.bight bight) x.family r.target.shape with
        | (.error e, s) => s.cancelRelash bight e codeRelashRefused
        | (.held, s) => s
        | (.ok d, s) => (s.loadBanks bight d r.target rs).relashMsg relashPrepare bight r.target (stopHalf half)
      else s
    | none => s)

/-- The running commands of a bight other than its RELASH commands. -/
def State.otherRunning (s : State) (b : Nat) : List (Nat × Cmd) :=
  (s.cmdsOf b).filter fun e => e.2.running && (match e.2.payload with | .relash _ => false | _ => true)

/-- A relash kills the running commands that are not direct-write, to be run again (R271, R272, R452). -/
def State.relashKill (s : State) (b : Nat) : State :=
  (s.otherRunning b).foldl (fun s e => if e.2.direct then s else s.requestKill e.1 e.2.seq 0 0 true) s

/-- A direct-write command that a pre-emption or relash waits for: the wait began now, unless it began before (R465). -/
def State.holdWait (s : State) (q seq : Nat) : State :=
  s.modCmd q seq fun c => { c with holdSince := some (c.holdSince.getD s.now) }

/-- QUIESCE bight (R271): prepare is complete. -/
def execQuiesce (bight : Nat) (s : State) : Out :=
  let x := s.bight bight
  .next (match x.relash with
    | some r =>
      if x.state = .prepare ∧ r.cancelled = false ∧ s.power.reef = false ∧ s.allLoaded bight r.target = true ∧
          s.needsMet bight r.target = true then
        let s := s.setBight bight { x with state := .quiesce, relash := some { r with quiesceAt := some s.now } }
        let s := (s.otherRunning bight).foldl (fun s e => if e.2.direct then s.holdWait e.1 e.2.seq else s) s
        let s := s.relashAll relashQuiesce bight r.target (x.place.stops ++ r.target.stops).dedup
        if r.kill then s.relashKill bight else s
      else s
    | none => s)

/-- DRAIN_LIMIT bight (R271): the limit of a DRAIN expires. -/
def execDrainLimit (bight : Nat) (s : State) : Out :=
  let x := s.bight bight
  .next (match x.relash with
    | some r =>
      if x.state = .quiesce ∧ r.kill = false ∧ r.drainLimit ≠ 0 ∧
          (r.quiesceAt.getD s.now) + 1000 * r.drainLimit ≤ s.now then s.relashKill bight
      else s
    | none => s)

/-- COMMIT_BOUNDARY bight (R272): no command of the bight runs; switchover starts. -/
def execCommitBoundary (bight : Nat) (s : State) : Out :=
  let x := s.bight bight
  .next (match x.relash with
    | some r =>
      if x.state = .quiesce ∧ (s.otherRunning bight).isEmpty = true then
        s.setBight bight { x with state := .switchover, relash := some { r with boundaryAt := some s.now } }
      else s
    | none => s)

/-- SWITCH bight (R273, R287). -/
def execSwitch (bight : Nat) (s : State) : Out :=
  let x := s.bight bight
  .next (match x.relash with
    | some r =>
      if x.state = .switchover ∧ r.switched = false then
        (s.switchover bight r).relashAll relashSwitch bight r.target (x.place.stops ++ r.target.stops).dedup
      else s
    | none => s)

/-- RESUME bight (R273, R274, R288): σ starts at 0, launches resume, the RELASH command finishes, and what the bight leaves is cleared. -/
def execResume (bight : Nat) (s : State) : Out :=
  let x := s.bight bight
  .next (match x.relash with
    | some r =>
      if x.state = .switchover ∧ r.switched = true then
        let s := s.setBight bight { x with
          state := .lashed, relash := none, sigma := 0, relashes := x.relashes + 1, relashResult := lashOk,
          tRelash := s.now - (r.boundaryAt.getD s.now), idleSince := s.now }
        let s := (s.relashAll relashResume bight x.place x.place.stops).leaveOld (r.left.getD x.place) x.place
        if x.due = 0 then s else s.dueClear bight x.due
      else s
    | none => s)

/-- CANCEL bight (R274, R287): the inactive banks and the claims of a cancelled relash are discarded. -/
def execCancel (bight : Nat) (s : State) : Out :=
  .next (match (s.bight bight).relash with
    | some r =>
      if r.cancelled then (s.undoRelash bight).relashAll relashCancel bight r.target (r.target.halves.map stopHalf) else s
    | none => s)

/-- CLEAR bight, half (R265, R279, R287): the stop clears its members' SRAM, and for a release its tables, once no command of
the bight is being killed and no relash is being undone. -/
def execClear (bight half : Nat) (s : State) : Out :=
  let x := s.bight bight
  .next (if x.clearing.contains half && x.relash.isNone && s.bightQuiet bight then
      ((s.clearHalf bight half).relashAll relashClear bight x.place (x.place.stopsIn half)).ownersGo
    else s)

/-- A write of 0x4012.00 (R279, R288). -/
def putRelease (v : BitVec 16) : Act := fun s =>
  let b := v.toNat % 256
  let x := s.bight b
  if x.state = .free then (dOk, s.reportLash b 2 lashNotLashed)
  else if x.releaseBegun then (dOk, s)
  else (dOk, s.beginRelease b)

/-- BIGHT_RELEASE (R279). -/
def execBightRelease (via : Via) (value : BitVec 16) (s : State) : Out :=
  .next (s.objWrite via false false (putRelease value))

/-- RELEASE_COMPLETE bight (R279): every half-die has cleared. -/
def execReleaseComplete (bight : Nat) (s : State) : Out :=
  let x := s.bight bight
  .next (if x.state == .releasing && x.clearing.isEmpty && x.relash.isNone && s.bightQuiet bight then
      ((s.freeBight bight).reportLash bight 2 lashOk).ownersGo
    else s)

/-- IDLE_LOW bight (R286): in self-policy mode the members of a bight that has been idle for its idle time go LOW. -/
def execIdleLow (bight : Nat) (s : State) : Out :=
  let x := s.bight bight
  .next (if s.selfPolicy && x.idleLowOk && x.state == .lashed && x.idleTime != 0 && !x.idleLow && !s.bightRuns bight &&
        !s.hasLaunchable bight && decide (x.idleSince + 1000 * x.idleTime ≤ s.now) then
      let s := x.place.memberClusters.foldl (fun s c => s.reqDom c .low) s
      s.modBight bight fun y => { y with idleLow := true }
    else s)

end Sys2Proof.Machine
end

