-- ==== Sys2Proof/Machine/QueueOps.lean ====
section
/-! DEFINITION. Queue, fence and teardown records, doorbells, and reading descriptors (R404 to R425, R429 to R432, R494, R495). -/

namespace Sys2Proof.Machine

/-! ### Results of host-object operations (R405, R433) -/

def opOk : Nat := 0x00
def opMalformed : Nat := 0x01
def opInUse : Nat := 0x02
def opNotFound : Nat := 0x03
def opLimit : Nat := 0x04
def opContext : Nat := 0x05
def opBight : Nat := 0x06
def opBusy : Nat := 0x07
def opHostError : Nat := 0x08

/-- Report an operation in 0x4201.00: kind 1 queue, 2 fence, 3 teardown. -/
def State.reportOp (s : State) (kind code : Nat) : State :=
  { s with host := { s.host with opSeq := s.host.opSeq + 1, opKind := kind, opResult := code } }

/-- An ASID is being torn down (R431). -/
def State.torn (s : State) (asid : Nat) : Bool := (Tab.keys s.host.teardowns).contains asid

/-- A removal of the function runs (R605). -/
def State.removing (s : State) (fn : Nat) : Bool := match s.security.removal with | some r => r.fn == fn | none => false

/-! ### Queue records (R404, R405, R409) -/

/-- The record of a create breaks a range, an alignment or a reserved field. -/
def createBad (b : Bytes) : Bool :=
  decide (4096 ≤ leAt b 0 2) || leAt b 3 1 != 0 || decide (64 ≤ leAt b 4 1) || decide (4096 ≤ leAt b 6 2) ||
    decide (leAt b 9 1 < 6) || decide (16 < leAt b 9 1) || decide (leAt b 0xA 1 < 2) || decide (63 < leAt b 0xA 1) ||
    !allZero (slice b 0xB 5) || leAt b 0x10 8 % 4096 != 0 || leAt b 0x18 8 % 4096 != 0 || leAt b 0x20 8 % 8 != 0 ||
    !allZero (slice b 0x28 24)

/-- The queue that a create record describes. -/
def queueOf (b : Bytes) : Queue :=
  { fn := leAt b 4 1, localQ := leAt b 5 1, asid := leAt b 6 2, bight := leAt b 8 1, size := leAt b 9 1, vector := leAt b 0xA 1,
    ring := leAt b 0x10 8, cring := leAt b 0x18 8, headMirror := leAt b 0x20 8 }

/-- The function has a queue at a local index. -/
def State.localQueue (s : State) (fn i : Nat) : Option (Nat × Queue) :=
  List.find? (fun e : Nat × Queue => e.2.fn == fn && e.2.localQ == i) s.queues

/-- Create a queue (R405): the checks in order, and the queue RUNNING with nothing fetched. -/
def State.createQueue (s : State) (b : Bytes) : Option Nat × State :=
  let n := leAt b 0 2
  let q := queueOf b
  let x := s.bight q.bight
  if createBad b then (some opMalformed, s)
  else if (s.queue? n).isSome || (s.localQueue q.fn q.localQ).isSome then (some opInUse, s)
  else if 256 ≤ (s.queuesOfFn q.fn).length then (some opLimit, s)
  else
    match s.readContext q.asid with
    | (none, s) => (none, s)
    | (some owner, s) =>
      if owner ≠ some q.fn then (some opContext, s)
      else if x.state = .free ∨ (x.owner ≠ q.fn ∧ x.owner ≠ 0) then (some opBight, s)
      else if s.torn q.asid then (some opBusy, s)
      else (some opOk, s.setQueue n q)

/-- An operation on a queue that exists: only QUEUE is read of the record (R404). -/
def State.onQueue (s : State) (b : Bytes) (f : Nat → Queue → Nat × State) : Option Nat × State :=
  let n := leAt b 0 2
  let (code, s) : Nat × State :=
    if 4096 ≤ n then (opMalformed, s)
    else match s.queue? n with
      | none => (opNotFound, s)
      | some q => f n q
  (some code, s)

/-- Destroy a queue that is not RUNNING and has no command left, and whose context is not being torn down (R405, R409). -/
def State.destroyQueue (s : State) (b : Bytes) : Option Nat × State :=
  s.onQueue b fun n q =>
    if q.running || !q.cmds.isEmpty || s.torn q.asid then (opBusy, s) else (opOk, { s with queues := Tab.erase s.queues n })

/-- Stop a queue: fetching ends (R409). -/
def State.stopQueue (s : State) (b : Bytes) : Option Nat × State :=
  s.onQueue b fun n q => (opOk, s.setQueue n { q with running := false })

/-- Start a queue again (R409). -/
def State.startQueue (s : State) (b : Bytes) : Option Nat × State :=
  s.onQueue b fun n q => (opOk, s.setQueue n { q with running := true })

/-- The operation of a queue record (R404): its result, or none while it is held at the context table's gate. -/
def State.queueRecord (s : State) (b : Bytes) : Option Nat × State :=
  match leAt b 2 1 with
  | 1 => s.createQueue b
  | 2 => s.destroyQueue b
  | 3 => s.stopQueue b
  | 4 => s.startQueue b
  | _ => (some opMalformed, s)

/-! ### Doorbells (R407, R408) -/

/-- Count a dropped doorbell (R407, R433). -/
def State.dropDoorbell (s : State) (fn : Nat) : State :=
  let s := s.modFn fn fun f => { f with errDoorbell := satInc16 f.errDoorbell }
  { s with host := { s.host with doorbellsDropped := s.host.doorbellsDropped + 1 } }

/-- A doorbell's new TAIL is accepted (R407). -/
def Queue.takesTail (q : Queue) (t : BitVec 32) : Bool :=
  let d := (t - q.tail).toNat
  decide (0 < d) && decide (d + (q.tail - q.head).toNat ≤ 2 ^ q.size)

/-- Fetching goes on and doorbells are taken for a queue: neither its context nor its function is going (R431, R605). -/
def State.served (s : State) (q : Queue) : Bool := !s.torn q.asid && !s.removing q.fn

/-- The payload of a DOORBELL message (R410). -/
def doorbellFlits (q : Nat) (tail : BitVec 32) : List Flit := [BitVec.ofNat 32 (q * 2 ^ 20), tail]

/-- The management processor takes a DOORBELL message of function `fn` (R407, R410). -/
def State.takeDoorbell (s : State) (fn : Nat) (p : List Flit) : State :=
  let n := fieldN (p.getD 0 0).toNat 20 12
  let t := p.getD 1 0
  match s.queue? n with
  | some q => if s.served q && q.takesTail t then s.setQueue n { q with tail := t } else s.dropDoorbell fn
  | none => s.dropDoorbell fn

/-- A write of a doorbell slot (R407): the PCIe stop of the function's port sends the queue's DOORBELL message. -/
def State.ringDoorbell (s : State) (fn localQ : Nat) (t : BitVec 32) : State :=
  match s.localQueue fn localQ with
  | some (n, _) => (s.lanCarry 0 stopMgmt (stopPcie (s.portOfFn fn)) (doorbellFlits n t)).takeDoorbell fn (doorbellFlits n t)
  | none => s.dropDoorbell fn

/-! ### Descriptors (R411 to R413, R494, R495) -/

/-- A SEND's fields break their ranges, or bytes that are not named are not zero. -/
def sendBad (b : Bytes) : Bool :=
  let n := leAt b 0x31 1
  decide (1 < leAt b 0x30 1) || decide (n < 1) || decide (8 < n) || decide (1 < leAt b 0x32 1) || leAt b 0x33 1 != 0 ||
    !allZero (slice b 0x36 10) || leAt b 0x28 8 % (64 * max n 1) != 0 || !allZero (slice b (0x40 + 8 * n) (64 - 8 * n))

/-- A RECV's fields break their ranges, or bytes that are not named are not zero; the fields that R494 gives for a
REDUCE or for RTYPE 0 are checked there. -/
def recvBad (b : Bytes) : Bool :=
  let red := leAt b 0x21 1 == 1
  let rtype := leAt b 0x23 1
  decide (1 < leAt b 0x21 1) || decide (leAt b 0x22 1 < 1) || decide (64 < leAt b 0x22 1) || leAt b 0x25 1 != 0 ||
    !allZero (slice b 0x38 8) || leAt b 0x5F 1 != 0 || !allZero (slice b 0x60 32) || leAt b 0x58 4 == 0 ||
    (red && (decide (6 < rtype) || decide (leAt b 0x26 2 < 1) || decide (1024 < leAt b 0x26 2) || (rtype == 0 && (decide (1 < leAt b 0x24 1 / 16) || decide (4 < leAt b 0x24 1 % 16)))))

/-- A reserved field of a relash record is not zero (R266). -/
def relashRecordBad (r : Bytes) : Bool :=
  decide (31 < leAt r 1 1) || decide (15 < leAt r 2 1) || decide (3 < leAt r 3 1) || decide (2 ^ 48 ≤ leAt r 0x10 8) ||
    leAt r 0x18 8 != 0

/-- The kind-specific fields (R266, R412, R450, R494), or none when they are malformed or the kind is undefined. -/
def payloadOf (b : Bytes) : Option Payload :=
  let z := fun (o n : Nat) => allZero (slice b o n)
  match leAt b 0 1 with
  | 1 => if z 0x24 28 then some (.run (leAt b 0x20 4) (slice b 0x40 64)) else none
  | 2 => if z 0x3A 6 && z 0x40 64 then some (.move (leAt b 0x20 8) (leAt b 0x28 8) (leAt b 0x30 8) (leAt b 0x38 2)) else none
  | 3 =>
    if sendBad b then none
    else some (.send (leAt b 0x20 8) (leAt b 0x28 8) (leAt b 0x30 1) (leAt b 0x31 1) (leAt b 0x32 1) (leAt b 0x34 2)
      ((List.range (leAt b 0x31 1)).map fun j => leAt b (0x40 + 8 * j) 8))
  | 4 =>
    if recvBad b then none
    else some (.recv (leAt b 0x20 1) (leAt b 0x21 1) (leAt b 0x22 1) (leAt b 0x23 1) (leAt b 0x24 1) (leAt b 0x26 2)
      (leAt b 0x28 8) (leAt b 0x30 8) (BitVec.ofNat 64 (leAt b 0x40 8)) (leAt b 0x48 8) (leAt b 0x50 8) (leAt b 0x58 4)
      (sext 16 (leAt b 0x5C 2)) (leAt b 0x5E 1))
  | 5 =>
    if z 0x22 6 && z 0x30 16 && z 0x40 64 && decide (leAt b 0x28 8 < 2 ^ 63) then some (.wait (leAt b 0x20 2) (leAt b 0x28 8))
    else none
  | 6 => if z 0x22 6 && z 0x30 16 && z 0x40 64 then some (.signal (leAt b 0x20 2) (leAt b 0x28 8)) else none
  | 7 => if z 0x20 32 && !relashRecordBad (slice b 0x40 32) && z 0x60 32 then some (.relash (slice b 0x40 32)) else none
  | 8 => if z 0x22 30 && z 0x40 64 then some (.commitGroup (leAt b 0x20 2)) else none
  | _ => none

/-- The fence that a WAIT or a SIGNAL names. -/
def Payload.fence : Payload → Nat
  | .wait f _ => f
  | .signal f _ => f
  | _ => 0xFFFF

/-- A fence number that a queue of the function may name: none, or one it may use (R413, R417). -/
def State.fenceNameOk (s : State) (fn f : Nat) : Bool := f == 0xFFFF || s.mayUseFence fn f

/-- The common fields are well formed (R411, R413). -/
def commonOk (b : Bytes) : Bool :=
  decide (leAt b 1 1 < 8) && decide (leAt b 2 1 < 4) && leAt b 3 1 == 0 && leAt b 7 1 == 0 && leAt b 0xE 2 == 0 &&
    decide (leAt b 0x10 8 < 2 ^ 63)

/-- The command that a descriptor describes, with the fences it names bound (R411, R425); the answer says whether it is well
formed (R413). A malformed one keeps its own fence when that is usable, and has ended. -/
def State.commandOf (s : State) (fn n seq : Nat) (b : Bytes) : Bool × Cmd :=
  let p := payloadOf b
  let own := s.fenceNameOk fn (leAt b 0xC 2)
  let good := commonOk b && own && (match p with | some p => s.fenceNameOk fn p.fence | none => false)
  let pay := p.getD (.signal 0xFFFF 0)
  let c : Cmd :=
    { seq, flags := BitVec.ofNat 8 (leAt b 1 1), cls := leAt b 2 1 % 4, deadline := BitVec.ofNat 24 (leAt b 4 3),
      est := leAt b 8 4, fence := if own then s.bindFence (leAt b 0xC 2) else none, fenceValue := leAt b 0x10 8,
      objlist := leAt b 0x18 8, payload := pay, bound := ((s.bindFence pay.fence).map (·.2)).getD 0 }
  (good, if good then c else { c with phase := .ended, code := codeMalformed, detail := detailCmd n seq })

/-- A descriptor fetch meets a host error (R429): the queue stops, the bight's error fence breaks, and the function is told. -/
def State.fetchError (s : State) (n : Nat) (q : Queue) : State :=
  (((s.setQueue n { q with running := false }).aer q.fn).breakErrorFence q.bight codeHostError 0).cause q.fn 3

/-- A descriptor has been fetched (R406, R413): HEAD advances and is mirrored; the command joins its queue; a malformed one is
counted and completes in its turn. -/
def State.takeDescriptor (s : State) (n : Nat) (q : Queue) (b : Bytes) : State :=
  let (good, c) := s.commandOf q.fn n q.next b
  let head := q.head + 1
  let s := s.setQueue n { q with head, next := (q.next + 1) % 2 ^ 36, cmds := q.cmds ++ [c] }
  let s := if q.headMirror = 0 then s else s.hostWrite q.fn q.headMirror (leBytes 8 head.toNat)
  if good then s
  else
    let s := s.modFn q.fn fun f => { f with errMalformed := satInc16 f.errMalformed }
    ({ s with host := { s.host with malformed := s.host.malformed + 1 } }).drain n

/-! ### Fence records (R419, R425) -/

/-- The record of a fence create breaks a range, an alignment or a reserved field. -/
def fenceBad (b : Bytes) : Bool :=
  let flags := leAt b 3 1
  leAt b 0 2 == 0xFFFF || flags % 2 == 1 || decide (8 ≤ flags) || decide (4096 ≤ leAt b 4 2) ||
    (flags.testBit 2 && (decide (leAt b 6 1 < 2) || decide (63 < leAt b 6 1))) || leAt b 7 1 != 0 || leAt b 8 8 % 8 != 0 ||
    decide (2 ^ 63 ≤ leAt b 0x10 8)

/-- A fence exists. -/
def State.fenceLive (s : State) (f : Nat) : Bool := match s.fence? f with | some x => x.live | none => false

/-- Create a fence (R419, R425): its word holds INITIAL, which is mirrored before the result. -/
def State.createFence (s : State) (b : Bytes) : Option Nat × State :=
  let f := leAt b 0 2
  let asid := leAt b 4 2
  let w := BitVec.ofNat 64 (leAt b 0x10 8)
  if fenceBad b then (some opMalformed, s)
  else if s.fenceLive f then (some opInUse, s)
  else match s.readContext asid with
    | (none, s) => (none, s)
    | (some none, s) => (some opContext, s)
    | (some (some owner), s) =>
      if s.torn asid then (some opBusy, s)
      else
        let x : Fence := { word := w, last := w, asid, flags := BitVec.ofNat 8 (leAt b 3 1), vector := leAt b 6 1,
                           mirror := leAt b 8 8, share := BitVec.ofNat 64 (leAt b 0x18 8),
                           incarnation := ((s.fence? f).map (·.incarnation)).getD 0 + 1 }
        let s := s.setFence f x
        (some opOk, if x.mirror = 0 then s else s.hostWrite owner x.mirror (wordBytes w))

/-- Destroy a fence (R425): it breaks with OWNER_GONE unless it is broken, and its number is free. -/
def State.destroyFence (s : State) (b : Bytes) : Option Nat × State :=
  let f := leAt b 0 2
  if f = 0xFFFF then (some opMalformed, s)
  else if !s.fenceLive f then (some opNotFound, s)
  else match s.fence? f with
    | none => (some opNotFound, s)
    | some x =>
      let s := s.breakFence f x.incarnation codeOwnerGone (detailAsid x.asid)
      (some opOk, match s.fence? f with | some y => s.setFence f { y with live := false } | none => s)

/-- The operation of a fence record (R419): its result, or none while it is held at the context table's gate. -/
def State.fenceRecord (s : State) (b : Bytes) : Option Nat × State :=
  match leAt b 2 1 with
  | 1 => s.createFence b
  | 2 => s.destroyFence b
  | _ => (some opMalformed, s)

/-! ### Teardown records (R430, R431) -/

/-- The bights that a teardown record names. -/
def mapOf (b : Bytes) : List Nat := (List.range 256).filter fun i => (leAt b (0x20 + i / 8) 1).testBit (i % 8)

/-- Every mapped bight may be released by a teardown of a context of `fn` (R430). -/
def State.mapOk (s : State) (fn : Nat) (l : List Nat) : Bool :=
  l.all fun b => (s.bight b).state != .free && ((s.bight b).owner == fn || (s.bight b).owner == 0)

/-- A teardown begins (R431): its queues fetch no more, and their commands are killed without completion entries; what follows the
kills may follow at once. -/
def State.beginTeardown (s : State) (asid : Nat) (l : List Nat) : State :=
  let s := { s with host := { s.host with
    teardowns := Tab.set s.host.teardowns asid l, tearKills := withOne s.host.tearKills asid } }
  ((s.queuesOfAsid asid).foldl (fun (s : State) q => (s.modQueue q Queue.orphan).killQueue q) s).teardownCheck

/-- A teardown record (R430): its result, opOk where the teardown begins, or none while it is held at the context table's gate. -/
def State.teardownRecord (s : State) (b : Bytes) : Option Nat × State :=
  let asid := leAt b 0 2
  if 4096 ≤ asid ∨ allZero (slice b 2 30) = false then (some opMalformed, s)
  else match s.readContext asid with
    | (none, s) => (none, s)
    | (some none, s) => (some opContext, s)
    | (some (some fn), s) =>
      if !s.mapOk fn (mapOf b) then (some opBight, s)
      else if s.torn asid then (some opBusy, s)
      else (some opOk, s.beginTeardown asid (mapOf b))

/-! ### Taking records (R318, R405, R433) -/

/-- Carry out the operation of a record and report its result; a teardown that begins reports at its end, and an operation that is
held waits (R318). -/
def State.doRecord (s : State) (x : Nat × Bytes) : State :=
  let s := s.forgetSteps
  let (code, s) := match x.1 with
    | 1 => s.queueRecord x.2
    | 2 => s.fenceRecord x.2
    | _ => s.teardownRecord x.2
  match code with
  | none => { s with host := { s.host with recordWaiting := s.host.recordWaiting ++ [x] } }
  | some c => if x.1 = 3 ∧ c = opOk then s else s.reportOp x.1 c

/-- Take a record: behind those that wait (R433). -/
def State.takeRecord (s : State) (x : Nat × Bytes) : State :=
  if s.host.recordWaiting.isEmpty then s.doRecord x
  else { s with host := { s.host with recordWaiting := s.host.recordWaiting ++ [x] } }

/-- A record of a kind has been read from the host, or the read met a host error (R405, R429). -/
def State.gotRecord (s : State) (kind : Nat) (answer : HostAns) : State :=
  match answer with
  | none => (s.aer 0).reportOp kind opHostError
  | some b => s.takeRecord (kind, b)

/-- A write of 0x4200.00 (R405); in Rootstock a create or start is refused (R654). -/
def putQueueRecord (addr : Nat) (answer : HostAns) : Act := fun s =>
  let s := s.readRecord addr 64
  let op := answer.map fun b => leAt b 2 1
  if s.errors.rootstock ∧ (op = some 1 ∨ op = some 4) then (dRefused, s) else (dOk, s.gotRecord 1 answer)

/-- A write of 0x4210.00 (R419). -/
def putFenceRecord (addr : Nat) (answer : HostAns) : Act := fun s => (dOk, (s.readRecord addr 32).gotRecord 2 answer)

/-- A write of 0x4220.00 (R430). -/
def putTeardownRecord (addr : Nat) (answer : HostAns) : Act := fun s => (dOk, (s.readRecord addr 64).gotRecord 3 answer)

end Sys2Proof.Machine
end

