-- ==== Sys2Proof/Machine/Queues.lean ====
section
/-! DEFINITION. The commands of the host interface: function registers and ports, queues, doorbells, descriptor fetches, fences,
teardowns, resets of functions, and what comes back from host memory (R389 to R432). -/

namespace Sys2Proof.Machine

/-- A write of MG_IRQ_CAUSE (R395): a written 1 clears a bit. -/
def State.putIrqCause (s : State) (fn : Nat) (v : Word) : State :=
  s.modFn fn fun f => { f with irqCause := f.irqCause &&& ~~~(v.setWidth 6) }

/-- IRQ_CAUSE_CLEAR fn (R395). -/
def execIrqCauseClear (fn : Nat) (value : Word) (s : State) : Out :=
  .next (if fn < 64 then s.regWrite fn fun s => s.putIrqCause fn value else s)

/-- A write of 0x1020.n (R391, R433). -/
def putFunctionPort (fn : Nat) (v : BitVec 8) : Act := fun s =>
  if 1 < v.toNat then (dRange, s)
  else if !s.host.vfEnabled.isEmpty then (dRefused, s)
  else (dOk, s.modFn fn fun f => { f with port := v.toNat })

/-- FUNCTION_PORT_WRITE fn (R391). -/
def execFunctionPortWrite (via : Via) (fn : Nat) (value : BitVec 8) (s : State) : Out :=
  .next (if 1 ≤ fn ∧ fn ≤ 63 then s.objWrite via false true (putFunctionPort fn value) else s)

/-! ### Queues (R404 to R410) -/

/-- QUEUE_CREATE (R405): a write of 0x4200.00 whose record has OP 1. -/
def execQueueCreate (via : Via) (addr : BitVec 64) (answer : HostAns) (s : State) : Out :=
  .next (s.objWrite via false false (putQueueRecord addr.toNat answer))

/-- QUEUE_DESTROY (R405, R409): a write of 0x4200.00 whose record has OP 2. -/
def execQueueDestroy (via : Via) (addr : BitVec 64) (answer : HostAns) (s : State) : Out :=
  .next (s.objWrite via false false (putQueueRecord addr.toNat answer))

/-- QUEUE_STOP (R409): a write of 0x4200.00 whose record has OP 3. -/
def execQueueStop (via : Via) (addr : BitVec 64) (answer : HostAns) (s : State) : Out :=
  .next (s.objWrite via false false (putQueueRecord addr.toNat answer))

/-- QUEUE_START (R409): a write of 0x4200.00 whose record has OP 4. -/
def execQueueStart (via : Via) (addr : BitVec 64) (answer : HostAns) (s : State) : Out :=
  .next (s.objWrite via false false (putQueueRecord addr.toNat answer))

/-- DOORBELL fn, slot (R407). -/
def execDoorbell (fn localQ : Nat) (value : Word) (s : State) : Out :=
  .next (if decide (fn < 64) && decide (localQ < 256) then
      s.regWrite fn fun s => s.ringDoorbell fn localQ (value.setWidth 32) else s)

/-- The next descriptor of a queue may be fetched (R406, R431, R605). -/
def State.mayFetch (s : State) (q : Queue) : Bool :=
  s.isReady && q.running && q.head != q.tail && s.served q && (q.cmds.all fun c => !c.gone) &&
    s.fnUp q.fn

/-- DESCRIPTOR_FETCH queue (R406, R413, R429): the next descriptor is read from the queue's ring; `answer` is what the host
answers. -/
def execDescriptorFetch (queue : Nat) (answer : HostAns) (s : State) : Out :=
  .next (match s.queue? queue with
    | none => s
    | some q =>
      if !s.mayFetch q then s
      else
        let s := s.send (.hostRead q.fn (s.portOfFn q.fn) (q.ring + 128 * (q.head.toNat % 2 ^ q.size)) 128)
        match answer with
        | none => s.fetchError queue q
        | some b => s.takeDescriptor queue q (slice b 0 128))

/-! ### Fences (R417 to R425) -/

/-- FENCE_CREATE (R419): a write of 0x4210.00 whose record has OP 1. -/
def execFenceCreate (via : Via) (addr : BitVec 64) (answer : HostAns) (s : State) : Out :=
  .next (s.objWrite via false false (putFenceRecord addr.toNat answer))

/-- FENCE_DESTROY (R425): a write of 0x4210.00 whose record has OP 2. -/
def execFenceDestroy (via : Via) (addr : BitVec 64) (answer : HostAns) (s : State) : Out :=
  .next (s.objWrite via false false (putFenceRecord addr.toNat answer))

/-- A write of 0x4100 + b .0B (R424): every write to the objects of a free bight is refused (R288). -/
def putErrorFence (b : Nat) (v : BitVec 16) : Act := fun s =>
  let f := v.toNat
  if (s.bight b).state = .free then (dRefused, s)
  else if f = 0xFFFF then (dOk, s.modBight b fun x => { x with errorFence := none })
  else if s.mayUseFence (s.bight b).owner f = true then (dOk, s.modBight b fun x => { x with errorFence := s.bindFence f })
  else (dRefused, s)

/-- ERROR_FENCE_WRITE bight (R424). -/
def execErrorFenceWrite (via : Via) (bight : Nat) (value : BitVec 16) (s : State) : Out :=
  .next (if bight < 256 then s.objWrite via false false (putErrorFence bight value) else s)

/-! ### Context teardown (R430 to R432) -/

/-- CONTEXT_TEARDOWN (R430, R431). -/
def execContextTeardown (via : Via) (addr : BitVec 64) (answer : HostAns) (s : State) : Out :=
  .next (s.objWrite via false false (putTeardownRecord addr.toNat answer))

/-- Everything that a teardown waits for has happened (R431): its commands have ended, its invalidation is complete, and its
mapped bights are free. -/
def State.teardownDue (s : State) (asid : Nat) : Bool :=
  s.torn asid && !s.host.tearKills.contains asid && (Tab.look [] s.host.teardowns asid).isEmpty && !(s.xlat.invs.any fun v => v.origin == .teardown asid) &&
    (s.queuesOfAsid asid).all fun q => ((s.queue? q).map (·.cmds.isEmpty)).getD true

/-- TEARDOWN_COMPLETE asid (R431, R432): the queues are destroyed, and the result is written and reported. -/
def execTeardownComplete (asid : Nat) (s : State) : Out :=
  .next (if s.teardownDue asid then
      let s := { s with
        queues := List.filter (fun e : Nat × Queue => e.2.asid != asid) s.queues
        host := { s.host with teardowns := Tab.erase s.host.teardowns asid } }
      ((s.reportOp 3 opOk).cause 0 4).removalStep
    else s)

/-! ### Function-level resets (R427, R428, R607) -/

/-- FUNCTION_LEVEL_RESET fn (R265, R427, R607): while the function's removal runs it waits for the removal's end. -/
def execFunctionLevelReset (fn : Nat) (s : State) : Out :=
  .next (if decide (1 ≤ fn) && decide (fn ≤ 63) && s.regsOpen fn && !s.host.flr.contains fn then
      if s.removing fn then { s with host := { s.host with flrDue := withOne s.host.flrDue fn } } else s.beginFlr fn
    else s)

/-- FLR_FUNCTION_0 (R428): every function is reset, every bight released, every window closed, and every ASID invalidated. -/
def execFlrFunction0 (s : State) : Out :=
  .next (if s.regsOpen 0 then
      let s := (List.range 64).foldl (fun (s : State) fn =>
        if s.removing fn then { s with host := { s.host with flrDue := withOne s.host.flrDue fn } } else s.beginFlr fn) s
      let s := s.releaseAll (Tab.keys s.bights.tab)
      let s := s.closeWindows (fun _ => true) false
      let s := { s with xlat := { s.xlat with
        outbound := Tab.mapPut {} (fun (_ : Nat) (w : OutWindow) => { w with state := 0 }) s.xlat.outbound } }
      s.invalidate .reset false .all
    else s)

/-! ### Host memory (R429) -/

/-- A request is a read of host memory that has not been answered. -/
def Req.hostPending (r : Req) : Bool :=
  !r.write && r.result == .pending && r.stage == .there && (match r.target with | .host _ _ _ => true | _ => false)

/-- The function on whose behalf a request goes to the host. -/
def Req.hostFn (r : Req) : Nat := match r.target with | .host fn _ _ => fn | _ => 0

/-- The answer to a read of the boot ROM arrives (R577): a host error is reported (R429); with the last answer the state is
VERIFYING. -/
def State.bootArrive (s : State) (req : Nat) (answer : HostAns) : State :=
  let b := s.boot
  let image := b.imageRead == some req
  let token := b.tokenRead == some req
  if !image && !token then s
  else
    let b := if image then { b with imageRead := none, imageData := answer } else { b with tokenRead := none, tokenData := answer }
    let b := if b.imageRead.isNone && b.tokenRead.isNone && b.state == .loading then { b with state := .verifying } else b
    let s := if answer.isNone then s.aer 0 else s
    { s with boot := b }

/-- PCIE_COMPLETION req (R429): the completion of a read of host memory, with its data or with a host error. -/
def execPcieCompletion (req : Nat) (answer : HostAns) (s : State) : Out :=
  .next (match s.req? req with
    | some r =>
      if r.hostPending then
        (match answer with
          | some d => s.arriveReq req (.data (slice d 0 r.len))
          | none => (s.aer r.hostFn).arriveReq req .hostError)
      else s
    | none => s.bootArrive req answer)

/-- COMPLETION_TIMEOUT req (R429): a read of host memory gets no completion in time. -/
def execCompletionTimeout (req : Nat) (s : State) : Out :=
  .next (match s.req? req with
    | some r => if r.hostPending then (s.aer r.hostFn).arriveReq req .hostError else s
    | none => s.bootArrive req none)

/-- The link of a PCIe port is down (R429): the queues of the functions that use it stop (log 12), host reads through it end with a host error, and
host accesses that came through it are forgotten. -/
def State.pcieDown (s : State) (port : Nat) : State :=
  let on := fun (fn : Nat) => s.portOfFn fn == port
  let s := { s with
    host := { s.host with
      linkUp := without s.host.linkUp port
      apertureWaiting := s.host.apertureWaiting.filter fun x => x.port != port }
    queues := Tab.mapVals (fun (_ : Nat) (q : Queue) => if on q.fn then { q with running := false } else q) s.queues }
  let s := s.abandonReqs fun r => match r.owner with | .aperture _ => r.master == 256 + port | _ => false
  let lost := s.reqs.filter fun r => r.hostPending && (match r.target with | .host _ p _ => p == port | _ => false)
  let s := lost.foldl (fun (s : State) r => s.arriveReq r.id .hostError) s
  if s.boot.goPort = port then
    [s.boot.imageRead, s.boot.tokenRead].reduceOption.foldl (fun (s : State) r => s.bootArrive r none) s
  else s

/-- PCIE_LINK_DOWN port (R429). -/
def execPcieLinkDown (port : Nat) (s : State) : Out :=
  .next (if s.host.linkUp.contains port then s.pcieDown port else s)

end Sys2Proof.Machine
end

