-- ==== Sys2Proof/Machine/Sram.lean ====
section
/-! DEFINITION. The commands of SRAM protection: write-backs, the Pruner, error reports, row-block retirement and fault
injection (R299 to R313, R328, R649). -/

namespace Sys2Proof.Machine

/-- SRAM_WRITE_BACK cluster bank (R299): the oldest pending write-back of the bank stores the corrected word; it is never masked
(R313), and a row block retired since is left as it is (R306). -/
def execSramWriteBack (cluster bank : Nat) (s : State) : Out :=
  .next (match s.sram.writeBacks.find? fun e => e.1 == 24 * cluster + bank with
    | none => s
    | some e =>
      let wa := e.2
      let s := { s with sram := { s.sram with writeBacks := s.sram.writeBacks.filter (· != e) } }
      if s.retiredWord wa then s
      else
        let s := s.activity (.cluster cluster) (.sramWrite 8) 1 (s.payerOfCluster cluster)
        match (sramDecode (s.sramDisc wa)).deliver (s.sramWord wa) with
        | some w => s.putSram wa w 0
        | none => s)

/-! ### The Pruner (R300 to R302) -/

/-- The words of a bank. -/
def bankWords : Nat := 524288

/-- The word address of word `i` of a bank (R290). -/
def bankWord (c bank i : Nat) : Nat :=
  let o := if bank < 16 then bank * 0x400000 + 8 * i
    else 0x04000000 + 8 * i / 64 * 512 + (bank - 16) * 64 + 8 * i % 64
  sramAddr c o / 8

/-- The next word of a bank at or after word `i` whose row block is not retired; numbers from `bankWords` on belong to the next
pass. -/
def State.nextUnretired (s : State) (c bank i : Nat) : Option Nat :=
  (List.range 65).findSome? fun j =>
    let w := if j = 0 then i else (i / 8192 + j) * 8192
    if s.retiredWord (bankWord c bank (w % bankWords)) then none else some w

/-- The Pruner engines of a cluster run: its domain is LOW or ON, or changes between the two (R302). -/
def State.prunerRuns (s : State) (c : Nat) : Bool :=
  let d := s.domain c
  match d.state with
  | .low | .on => true
  | .changing => d.origin != .off && d.target != .off
  | .off => false

/-- PRUNER_READ cluster bank (R300 to R303): the engine of a bank reads and checks its next word. -/
def execPrunerRead (cluster bank : Nat) (s : State) : Out :=
  let key := 24 * cluster + bank
  .next (if decide (cluster < 512) && decide (bank < 24) && s.prunerRuns cluster then
      match s.nextUnretired cluster bank (Tab.look 0 s.sram.pruner key) with
      | none => s
      | some w =>
        let s := s.activity (.cluster cluster) (.sramRead 8) 1 (s.payerOfCluster cluster)
        let s := (s.readSram agentPruner false (bankWord cluster bank (w % bankWords))).2
        { s with sram := { s.sram with
            pruner := Tab.put 0 s.sram.pruner key ((w + 1) % bankWords)
            passes := if key = 0 ∧ bankWords ≤ w + 1 then s.sram.passes + 1 else s.sram.passes } }
    else s)

/-! ### Reports (R304, R305, R309, R328, R649) -/

/-- A row block becomes a retirement candidate: it is reported and the physical function interrupted (R309). -/
def State.addCandidate (s : State) (code : Nat) : State :=
  if s.sram.candidates.contains code || s.sram.retired.any (fun e => e.1 == code) then s
  else ({ s with sram := { s.sram with candidates := code :: s.sram.candidates } }).moduleEvent

/-- An uncorrectable word of SRAM has been reported (R309): four distinct words of its row block, or the word found again after a
full write, make the row block a candidate. -/
def State.noteBadWord (s : State) (wa : Nat) : State :=
  let code := blockCode (wordCluster wa) (wordOffset wa)
  let again := s.sram.refound.contains wa
  let s := { s with sram := { s.sram with refound := without s.sram.refound wa, reported := withOne s.sram.reported wa } }
  let words := (s.sram.reported.filter fun w => blockCode (wordCluster w) (wordOffset w) == code).length
  if again || decide (4 ≤ words) then s.addCandidate code else s

/-- The counted reads that lie in the window (R649). -/
def State.countedNow (s : State) : List Nat :=
  s.errors.countedAt.filter fun t => decide (s.now - t < s.errors.windowMs * 1000000)

/-- A cause of Rootstock arises (R650): its bit is set, and outside Rootstock an entry begins (R651). -/
def State.rootstockCause (s : State) (bit : Nat) : State :=
  let e := s.errors
  { s with errors := { e with causes := e.causes ||| (1 <<< bit), entering := e.entering || !e.rootstock } }

/-- Count an uncorrectable read for the Rootstock rule (R649). -/
def State.countBad (s : State) (addr : Nat) : State :=
  let s := s.event 0x0023 addr
  let l := s.now :: s.countedNow
  let s := { s with errors := { s.errors with countedAt := l } }
  if s.errors.threshold ≤ l.length then s.rootstockCause 0 else s

/-- The address that the last two flits of a MEMERR name (R304). -/
def memerrAddr (p1 p2 : Flit) : Nat := p1.toNat * 8 + fieldN p2.toNat 19 13 * 2 ^ 35

/-- MEMERR n (R304, R305, R309, R327, R328, R649): the n-th message in flight, a report of a read, reaches the management
processor. -/
def execMemerr (n : Nat) (s : State) : Out :=
  .next (match s.lanTake n with
    | none => s
    | some (m, s') =>
      if m.ty ≠ 9 then s
      else
        match m.payload with
        | p0 :: p1 :: p2 :: _ =>
          let kind := fieldN p0.toNat 28 4
          let agent := fieldN p0.toNat 24 4
          let a := memerrAddr p1 p2
          if kind = 2 then
            let wa := a / 8
            let s' := s'.noteBadWord wa
            if agent = agentPruner then
              if s'.sram.prunerDue.contains wa then
                ({ s' with sram := { s'.sram with prunerDue := s'.sram.prunerDue.erase wa } }).countBad a
              else s'
            else s'.countBad a
          else if kind = 4 then
            let cw := a / 64
            let g := cwGroup cw
            if agent = agentPatrol then
              if (s'.group g).patrolDue.contains cw then
                (s'.modGroup g fun x => { x with patrolDue := x.patrolDue.erase cw }).countBad a
              else s'
            else s'.countBad a
          else s'
        | _ => s')

/-! ### Retirement and fault injection (R306 to R313) -/

/-- Retire a row block (R307). -/
def State.retireBlock (s : State) (code : Nat) : State :=
  { s with sram := { s.sram with retired := s.sram.retired ++ [(code, false)] } }

/-- The row block may be retired: there is room beside those retired and those the fuses name, or it is one of them (R308). -/
def State.mayRetire (s : State) (code : Nat) : Bool :=
  let held := (s.sram.retired.map (·.1) ++ s.fuses.retired).dedup
  decide (held.length < 64) || held.contains code

/-- Retire it unless it is retired (R308). -/
def State.retireOnce (s : State) (code : Nat) : State :=
  if s.sram.retired.any fun e => e.1 == code then s else s.retireBlock code

/-- A cluster is a member of some bight (R309). -/
def State.isMember (s : State) (c : Nat) : Bool :=
  List.any s.bights.tab fun (e : Nat × Bight) => e.2.state != .free && e.2.place.memberClusters.contains c

/-- SELF_POLICY_RETIRE region (R309): in self-policy mode a candidate whose cluster is a member of no bight and has no
memory-hold bit is retired. -/
def execSelfPolicyRetire (region : Nat) (s : State) : Out :=
  let c := region / 8192
  .next (if s.selfPolicy && s.sram.candidates.contains region && !s.isMember c && !s.memHold.contains c && s.mayRetire region
    then s.retireOnce region else s)

/-- A write of 0x5012.00 (R307, R308, R314): reserved bits are ignored (R15). -/
def putRetire (v : BitVec 32) : Act := fun s =>
  let code := fieldN v.toNat 8 14 * 256 + fieldN v.toNat 0 6
  if 16 < fieldN v.toNat 8 5 then (dRefused, s)
  else if !s.mayRetire code then (dRefused, s)
  else (dOk, s.retireOnce code)

/-- RETIRE (R307, R308). -/
def execRetire (via : Via) (value : BitVec 32) (s : State) : Out := .next (s.objWrite via false true (putRetire value))

/-- A write of CL_FLIP_HI (R312, R313): reserved bits read as zero. -/
def State.putFlipHi (s : State) (c : Nat) (v : Word) : State :=
  { s with sram := { s.sram with flipHi := Tab.put 0 s.sram.flipHi c (v &&& 0x80000000003FFFFF) } }

/-- FLIP_ARM cluster value (R312, R313): a write of CL_FLIP_HI that leaves ARM set. -/
def execFlipArm (cluster : Nat) (value : Word) (s : State) : Out :=
  .next (if cluster < 512 then s.regWrite 0 fun s => s.putFlipHi cluster (value ||| 0x8000000000000000) else s)

end Sys2Proof.Machine
end

