-- ==== Sys2Proof/Machine/RootOps.lean ====
section
/-! DEFINITION. What stops the whole module's work: the actions of a thermal trip, the steps into and out of Rootstock, and the
end of a Reef (R562, R566, R568, R649 to R656). -/

namespace Sys2Proof.Machine

/-! ### Domains driven at once (R562, R651) -/

/-- A domain is taken to a state at once; requests held for it are dropped. -/
def State.forceDom (s : State) (i : Nat) (x : DomState) : State :=
  let d := s.domain i
  if d.state = x then s.setDomain i { state := x }
  else (s.setDomain i { state := x }).domReached i (if d.state = .changing then d.origin else d.state) x true

/-- Every cluster domain OFF, its SRAM lost (R562, R651). -/
def State.clustersOff (s : State) : State :=
  ((Tab.keys s.domains).filter fun i => decide (i < 512)).foldl (fun (s : State) i => s.forceDom i .off) s

/-- Every link port domain OFF, its keys zeroized (R486, R562, R651). -/
def State.portsOff (s : State) : State := (List.range 48).foldl (fun (s : State) p => (s.forceDom (domPort p) .off).portOff p) s

/-- Every HBM PHY domain that is ON, or on its way to ON, goes to LOW (R562, R651). -/
def State.stacksLow (s : State) : State :=
  (List.range 32).foldl (fun (s : State) st =>
    let d := s.domain (domStack st)
    if d.state = .on ∨ (d.state = .changing ∧ d.target = .on) then s.forceDom (domStack st) .low else s) s

/-! ### Every command ends (R562, R651) -/

/-- What a bight's commit register holds is taken, in order (R468). -/
def State.flushRegister (s : State) (b : Nat) : State :=
  ((s.bight b).creg).foldl (fun (s : State) e =>
    match e with
    | .commit q n => s.takeCommit q n
    | .kill q n code detail rerun => s.takeKill q n code detail rerun) (s.modBight b fun x => { x with creg := [] })

/-- Requests of a command that has ended are nobody's: what a direct-write command has in flight is still stored (R464). -/
def State.orphanReqs (s : State) (q seq : Nat) (run : Bool) (b : Nat) : State :=
  { s with reqs := s.reqs.map fun r => if s.ownsReq q seq run b r then { r with owner := .none } else r }

/-- A command that has neither committed nor ended ends now, without re-run; one that is being killed without re-run keeps its
code. -/
def State.endNow (s : State) (q seq code : Nat) : State :=
  match s.queue? q with
  | none => s
  | some x =>
    match x.cmd? seq with
    | none => s
    | some c =>
      if !c.live? then s
      else
        let s := s.takeKill q seq code (detailCmd q seq) false
        let s := s.orphanReqs q seq c.isRun x.bight
        if c.phase = .killing ∧ c.rerun = false then s.endCmd q seq c.code c.detail
        else s.endCmd q seq code (detailCmd q seq)

/-- The break code of a command that an entry to Rootstock kills: a RELASH in prepare is cancelled (R274, R651). -/
def State.rootCode (s : State) (b q seq code : Nat) : Nat :=
  match (s.bight b).relash with
  | some r => if r.queue = q ∧ r.seq = seq ∧ (s.bight b).state = .prepare then codeRelashCancelled else code
  | none => code

/-- Every fetched command that has not committed ends with a code; one whose commit request came first stays committed (R468,
R651). `running` limits this to commands that run (R562). -/
def State.endAll (s : State) (code : Nat) (running : Bool) : State :=
  let s := (Tab.keys s.bights.tab).foldl (fun (s : State) b => s.flushRegister b) s
  s.queues.foldl (fun (s : State) (e : Nat × Queue) =>
    (((s.queue? e.1).map (·.cmds)).getD []).foldl (fun (s : State) c =>
      if running && !(c.running || c.phase == .held || c.launched) then s
      else s.endNow e.1 c.seq (if running then code else s.rootCode e.2.bight e.1 c.seq code)) s) s

/-! ### The trip (R562) -/

/-- A POWER message with a temperature (R570). -/
def heatFlit (op level index : Nat) (t : Int) : Flit :=
  BitVec.ofNat 32 (op * 2 ^ 28 + level * 2 ^ 24 + index * 65536 + (BitVec.ofInt 16 t).toNat)

/-- The POWER TRIP messages of a trip: the die that detects it tells the management processor, which tells every stop (R562, R570).
A junction lies in die ⌊location / 2⌋, and so does stack location - 0x80. -/
def State.tripMessages (s : State) (location : Nat) (halfDegrees : Int) : State :=
  let m := [heatFlit 6 0 location halfDegrees]
  (s.lanCarry 3 stopMgmt (stopDie (location % 128 / 2)) m).lanCarry 3 stopAll stopMgmt m

/-- The actions of a thermal trip: CORE and SRAM rails dropped, clusters and link ports OFF, stacks LOW, and every running command
ended. -/
def State.tripActions (s : State) : State :=
  let s := ((s.endAll codeTrip true).clustersOff.portsOff).stacksLow
  { s with power := { s.power with railsDropped := List.range 16 } }

/-- A thermal trip at a location, 2d + s or 0x80 + stack (R330, R562, R644, R650). Before READY the power-up sequence stops. -/
def State.tripAt (s : State) (location : Nat) (halfDegrees : Int) : State :=
  let s := (s.tripMessages location halfDegrees).tripActions.event 0x0014 location
  let s := { s with power := { s.power with coolAll := 0 } }
  if s.isReady then s.rootstockCause 1 else { s with boot := { s.boot with halted := true } }

/-! ### The end of a Reef (R566, R568) -/

/-- Statistics and event log entry of the end of a Reef; boost waits 10 ms from here. -/
def State.reefEnds (s : State) : State :=
  let p := s.power
  let us := (s.now - p.reefAt) / 1000
  ({ s with power := { p with
      reef := false, reefTime := min 0xFFFFFFFF (p.reefTime + us), reefLast := min 0xFFFFFFFF us, reefLastLow := p.reefLow,
      boostAfter := s.now + 10000000 } }).event 0x0011 us

/-- V_f, in units of 10 mV: the mean of the last four samples (R563). -/
def State.vf (s : State) : Nat := s.supply.samples.sum / 4

/-- Enter Reef when it is called for (R564): V_f below 46.0 V, READY, in neither Reef nor Rootstock. -/
def State.enterReef (s : State) : State :=
  if s.isReady && !s.power.reef && !s.errors.rootstock && !s.errors.entering && decide (s.vf < 4600) then
    let s := { s with power := { s.power with
      reef := true, reefAt := s.now, reefLow := s.vf, reefEntries := s.power.reefEntries + 1 } }
    (s.announce 2 1200).scaleAll.event 0x0010 s.vf
  else s

/-! ### Rootstock (R651) -/

/-- Every queue is STOPPED, and bit [3] is set for each function that owns one (R651, step 1). -/
def State.stopQueues (s : State) : State :=
  let fns := ((Tab.vals s.queues).map fun (q : Queue) => q.fn).dedup
  let s := { s with queues := Tab.mapVals (fun (_ : Nat) (q : Queue) => { q with running := false }) s.queues }
  fns.foldl (fun (s : State) n => s.cause n 3) s

/-- A relash of a bight is cancelled or abandoned (R651, step 3): its command has already ended. CANCEL messages undo one in prepare
(R287). -/
def State.endRelash (s : State) (b : Nat) : State :=
  match (s.bight b).relash with
  | none => s
  | some r =>
    let s := if (s.bight b).state = .prepare then s.relashAll relashCancel b r.target (r.target.halves.map stopHalf) else s
    s.modBight b fun x => { x with relash := none, relashResult := lashCancelled }

/-- A bight is released without a clear of its SRAM (R651, step 4): routers, circuits and ownership go at once; CLEAR messages clear the
tables (R287). -/
def State.dropBight (s : State) (b : Nat) : State :=
  let mine := s.mesh.routers.filterMap fun (e : Nat × Router) =>
    if (e.2.bank.any fun k => k.bight == b) || (e.2.next.any fun k => k.bight == b) || e.2.claim == some b then some e.1 else none
  let s := if (s.bight b).state = .lashing then s.reportLash b 1 lashCancelled else s
  let p := (s.bight b).place
  let s := s.relashAll relashClear b p p.stops
  (((s.freeRouters mine).dropCircuits b false).freeBight b).reportLash b 2 lashOk

/-- Handoff slots that are not IDLE or terminal become FAILED; what they zeroize waits for the exit (R651, step 7). -/
def State.slotsFail (s : State) (code : Nat) : State :=
  (Tab.keys s.handoff.slots).foldl (fun (s : State) i =>
    s.slotGone i code) s

/-- The steps into Rootstock for ERRORS or TRIP (R651), in order. -/
def State.enterRootstock (s : State) (trip : Bool) : State :=
  let code := if trip then codeTrip else codeRootstock
  let s := s.stopQueues
  let s := s.endAll code false
  let s := (Tab.keys s.bights.tab).foldl (fun (s : State) b => s.endRelash b) s
  let s := (Tab.keys s.bights.tab).foldl (fun (s : State) b => if (s.bight b).state = .free then s else s.dropBight b) s
  let s := ({ s with memHold := [] }).clustersOff.portsOff.stacksLow
  let s := s.slotsFail code
  let s := if s.power.reef then s.reefEnds else s
  let s := { s with errors := { s.errors with
    rootstock := true, entering := false, rootstockAt := s.now, entries := s.errors.entries + 1 } }
  (s.event 0x0040 s.errors.causes.toNat).scaleAll.retune.ownersGo

end Sys2Proof.Machine
end

