-- ==== Sys2Proof/Machine/Hbm.lean ====
section
/-! DEFINITION. The commands of the HBM controllers and the port gates (R317 to R346). -/

namespace Sys2Proof.Machine

/-- SELF_POLICY_HBM_LOW stack (R319): in self-policy mode a stack that is ON, that no bight holds, and whose groups have served
no request for 1 ms goes to LOW. -/
def execSelfPolicyHbmLow (stack : Nat) (s : State) : Out :=
  let idle := fun (g : Nat) => decide ((s.group g).servedAt + 1000000 ≤ s.now)
  .next (if decide (stack < 32) && s.selfPolicy && s.domOn (domStack stack) && idle (2 * stack) && idle (2 * stack + 1) &&
      !s.stackWaited stack && !s.stackOfBight stack
    then s.reqDom (domStack stack) .low else s)

/-- GATE_RELEASE group (R318, R326, R333 to R345): the gate releases the request that its rule picks, and the controller carries
it out. A stack in LOW is woken; one that is OFF, or on its way into or out of OFF, answers its oldest request with a bus
error, as every group does in Rootstock (R34, R651). -/
def execGateRelease (group : Nat) (s : State) : Out :=
  let st := stackOfGroup group
  let d := s.domain (domStack st)
  .next (if 64 ≤ group ∨ (s.group group).queue = [] then s
    else if s.errors.rootstock || !s.stackHeld st then
      match s.waitingReqs group with
      | r :: _ => (s.dequeue group r).arriveReq r.id (.busError Config.stackOffSub)
      | [] => s
    else match d.state with
    | .on =>
      let (r, x) := s.pickRelease group
      (match r with
        | none => s.setGroup group x
        | some r =>
          let (res, s) := s.serveReq group x r
          s.arriveReq r.id res)
    | _ => s.wakeStack st)

/-- HBM_WRITE_BACK group (R324): the oldest corrected code word is written back. -/
def execHbmWriteBack (group : Nat) (s : State) : Out :=
  .next (match (s.group group).writeBacks with
    | [] => s
    | cw :: rest =>
      if s.groupOn group then
        let s := s.modGroup group fun x => { x with writeBacks := rest }
        match hbmDecode (s.hbmDisc cw) with
        | some errs => s.putHbm cw (hbmFlip (s.hbmWord cw) errs) 0
        | none => s
      else s)

/-- The code words of a group (R325). -/
def groupWords : Nat := 402653184

/-- The patrol's read of its next code word goes on: it is what the gate's rule releases now, behind what waits there (R334, R340); the
group as the release leaves it. -/
def State.patrolPasses (s : State) (g : Nat) : Option Group :=
  let r := { ownReq (64 * (g * groupWords + (s.group g).patrol)) 64 with id := s.nextReq }
  match s.pickOf g (headsOf (s.waitingReqs g ++ [r])) with
  | (some q, x) => if q.id = r.id then some x else none
  | (none, _) => none

/-- PATROL_READ group (R325, R326, R328, R334, R340): the patrol reads and checks its next code word, a read of master 306 at class 3
that the class counters leave out and which does not keep its stack awake (log 88), when the gate releases it; it pauses unless the
stack is ON. -/
def execPatrolRead (group : Nat) (s : State) : Out :=
  .next (if decide (group < 64) && s.groupOn group then
      match s.patrolPasses group with
      | none => s
      | some x =>
        let s := ((s.setGroup group x).readCw agentPatrol false (group * groupWords + x.patrol)).2
        s.modGroup group fun y => { y with patrol := (x.patrol + 1) % groupWords }
    else s)

/-! ### Temperature (R329, R330) -/

/-- The entry of the refresh table for a stack temperature in half degrees. -/
def refreshRow (t : Int) : Nat := if t < 170 then 0 else if t < 190 then 1 else if t < 210 then 2 else if t < 220 then 3 else 4

/-- The lower bound of an entry, in half degrees. -/
def rowBound (row : Nat) : Int := match row with | 1 => 170 | 2 => 190 | 3 => 210 | _ => 220

/-- A group after a temperature sample (R329): up at once, down by one entry after 100 samples at least 3 °C below. -/
def Group.sample (x : Group) (t : Int) : Group :=
  let x := { x with temp := t }
  if x.row < refreshRow t then { x with row := refreshRow t, coolSamples := 0 }
  else if x.row ≠ 0 ∧ t + 6 ≤ rowBound x.row then
    if 100 ≤ x.coolSamples + 1 then { x with row := x.row - 1, coolSamples := 0 } else { x with coolSamples := x.coolSamples + 1 }
  else { x with coolSamples := 0 }

/-- What the controller reads of the stack's on-die ECC with a sample (R327, R346): nothing, or a report of a channel with its
severity code, which the spec leaves to the stack: both are read from the free value `k` (log 187). -/
def Group.onDieReport (x : Group) (k : Nat) : Group :=
  if k % 2 = 0 then x else { x with onDie := x.onDie + 1, severity := Tab.put 0 x.severity (k / 2 % 16) (k / 32 % 256) }

/-- REFRESH_SAMPLE group halfDegrees (R329, R343, R346, R655): a controller samples its stack's temperature and reads the reports of
its on-die ECC. A stack that has come to 115 °C trips (R330). -/
def execRefreshSample (group : Nat) (halfDegrees : Int) (s : State) : Out :=
  .next (if 64 ≤ group ∨ s.domOff (domStack (stackOfGroup group)) = true then s
    else
      let old := (s.group group).temp
      let s := (s.modGroup group fun x => x.sample halfDegrees).scaleFloors group
      let (k, s) := s.freeNat
      let s := s.modGroup group fun x => x.onDieReport k
      let s := if 170 < halfDegrees then { s with power := { s.power with coolAll := 0 } } else s
      if 230 ≤ halfDegrees ∧ old < 230 then s.tripAt (0x80 + stackOfGroup group) halfDegrees else s)

/-! ### Settings (R335, R342, R344) -/

/-- A write of 0x5080.00 (R335, R342, R346). -/
def putGateSetting (v : BitVec 64) : Act := fun s =>
  let n := v.toNat
  let g := fieldN n 0 6
  let m := fieldN n 6 9
  let f := fieldN n 29 10
  let w := fieldN n 39 8
  let c := fieldN n 47 11
  let x := s.group g
  let old := x.setting m
  if 306 < m then (dRange, s)
  else if m = 306 then (dRefused, s)
  else if m < 256 ∧ s.bightHolds m g = false then (dRefused, s)
  else if (c ≠ 0 ∧ c < f) ∨ 1024 < f ∨ 1024 < c then (dRefused, s)
  else if 900 < x.floorSum - old.floor + f then (dRefused, s)
  else
    let v' := { s.refill g old s.now with floor := f, weight := w, ceiling := c, class0 := v.getLsbD 58 }
    (dOk, (s.setGroup g { x with masters := Tab.put {} x.masters m v' }).scaleFloors g)

/-- GATE_SETTING (R344, R346). -/
def execGateSetting (via : Via) (value : BitVec 64) (s : State) : Out := .next (s.objWrite via false true (putGateSetting value))

end Sys2Proof.Machine
end

