-- ==== Sys2Proof/Machine/Power.lean ====
section
/-! DEFINITION. The commands of power, supply events, wear and heat (R541 to R571). -/

namespace Sys2Proof.Machine

/-! ### Limiters (R541, R542) -/

/-- What a window's mean says of a limit: it exceeds it, it is below 90 % of it, or neither. -/
inductive Level where
  | above | middle | below
deriving DecidableEq, Repr

def limitLevel (value limit : Nat) : Level := if limit < value then .above else if 10 * value < 9 * limit then .below else .middle

/-- The sum over the samples of a window (R540): its mean exceeds a limit when the sum exceeds the limit once for each sample. -/
def windowSum (w : Window) (f : PowerSample → Nat) : Nat := (w.samples.map f).sum

/-- The worse of two levels. -/
def Level.worse (a b : Level) : Level :=
  match a, b with
  | .above, _ => .above
  | _, .above => .above
  | .middle, _ => .middle
  | _, .middle => .middle
  | _, _ => .below

/-- A limiter reduction after a window: two units more, one unit less, or as it was, up to `cap` units. -/
def Level.step (l : Level) (cap red : Nat) : Nat :=
  match l with
  | .above => min cap (red + 2)
  | .middle => red
  | .below => red - 1

/-- The current limit of a rail, in units of 0.1 A (R539). -/
def railLimit (i : Nat) : Nat :=
  if i < 64 then [6400, 1600, 1200, 600].getD (i % 4) 600 else if i < 76 then 450 else 120

/-- A rail whose limiter acts: CORE, SRAM and HBM rails (R542). -/
def railActs (i : Nat) : Bool := decide (i < 64) && i % 4 != 2

/-- Ones in the last 64 windows. -/
def ones (x : BitVec 64) : Nat := ((List.range 64).filter fun i => x.getLsbD i).length

/-- The index that a LIMIT message carries for the input limiter, which has no rail (log 60). -/
def inputIndex : Nat := 0xFF

/-- A POWER LIMIT message (R542, R570). -/
def State.sendLimit (s : State) (src index windows : Nat) : State :=
  s.lanSend 3 stopMgmt src false [BitVec.ofNat 32 (4 * 2 ^ 28 + index * 65536 + windows)]

/-- What one rail's limiter keeps of a window (R542, R571): its count, its history, a LIMIT message while it has been active in
32 of the last 64 windows, or the event of a limit without action. -/
def State.railWindow (s : State) (i : Nat) (l : Level) : State :=
  let p := s.power
  let hist := (Tab.look 0 p.limiterHistory i <<< 1) ||| (if l = .above then 1 else 0)
  let s := { s with power := { p with
    limiterHistory := Tab.put 0 p.limiterHistory i hist
    limiterWindows := if l = .above then Tab.put 0 p.limiterWindows i (satAdd 0xFFFFFFFF (Tab.look 0 p.limiterWindows i) 1)
      else p.limiterWindows } }
  if railActs i then
    if 32 ≤ ones hist then s.sendLimit (stopDie (i / 4)) i (ones hist) else s
  else if l = .above ∧ p.railLogged.contains i = false then
    ({ s with power := { s.power with railLogged := i :: s.power.railLogged } }).event 0x0013 i
  else s

/-- The input power and the excursion account after a window (R541, R542): `w` is the sum of its `n` samples. -/
def State.inputWindow (s : State) (w n : Nat) : State :=
  let p := s.power
  let l := limitLevel w (n * if 0 < p.excursion then 13500 else 11000)
  let hist := (p.inputHistory <<< 1) ||| (if l = .above then 1 else 0)
  let s := { s with power := { p with
    excursion := if 11000 * n < w then p.excursion - 10 else min 50000 (p.excursion + 1)
    inputRed := l.step 12 p.inputRed
    inputHistory := hist
    inputWindows := if l = .above then satAdd 0xFFFFFFFF p.inputWindows 1 else p.inputWindows
    inputLog := (s.now, w, n) :: p.inputLog.filter fun e => decide (s.now < e.1 + 10000000)
    frameSum := (p.frameSum.1 + w, p.frameSum.2 + n) } }
  if 32 ≤ ones hist then s.sendLimit stopMgmt inputIndex (ones hist) else s

/-- POWER_WINDOW (R540 to R542, R571): the means of the samples of a 2 µs window meet their limits; the reductions act from the next
one. -/
def execPowerWindow (w : Window) (s : State) : Out :=
  .next (if s.supply.inReset then s
    else
      let n := w.samples.length
      let rail := fun (i : Nat) => windowSum w fun x => x.rails.getD i 0
      let lev := fun (i : Nat) => limitLevel (rail i) (n * railLimit i)
      let s := s.inputWindow (windowSum w (·.inputW)) n
      let s := (List.range 77).foldl (fun (s : State) i => s.railWindow i (lev i)) s
      let s := (List.range 16).foldl (fun (s : State) d =>
        { s with power := { s.power with
            dieRed := Tab.put 0 s.power.dieRed d
              (((lev (4 * d)).worse (lev (4 * d + 1))).step 12 (Tab.look 0 s.power.dieRed d))
            memRed := Tab.put 0 s.power.memRed d ((lev (4 * d + 3)).step 8 (Tab.look 0 s.power.memRed d)) } }) s
      ({ s with power := { s.power with
        inputV := windowSum w (·.inputV) / n
        railCurrent := (List.range 77).foldl (fun (t : Tab Nat) i => Tab.put 0 t i (rail i / n)) [] } }).scaleAll)

/-- The OP of a POWER message. -/
def powerOp (m : LanMsg) : Nat := match m.payload with | p :: _ => fieldN p.toNat 28 4 | [] => 0

/-- Take the n-th message when it is a POWER message of an OP to the management processor (R570). -/
def State.takePower (s : State) (n op : Nat) : Option State :=
  match s.lanTake n with
  | some (m, s') => if m.ty = 3 ∧ powerOp m = op ∧ m.dest = stopMgmt then some s' else none
  | none => none

/-- LIMIT n (R542, R549): the n-th message reaches the management processor. -/
def execLimit (n : Nat) (s : State) : Out :=
  .next (match s.takePower n 4 with
    | some s => { s with power := { s.power with limitAt := some s.now, limitSeen := true } }
    | none => s)

/-! ### The Trim controller (R549 to R551) -/

/-- Set T_cap; a change is dated. -/
def State.setTCap (s : State) (t : Nat) : State :=
  if t = s.power.tCap then s else { s with power := { s.power with tCap := t, tCapAt := s.now } }

/-- The bight whose sharing level a step raises (R551): the lowest weight, then the highest number, of those below 5. -/
def State.shareNext (s : State) : Option Nat :=
  let c := s.lashedBights.filter fun b => decide ((s.bight b).shareLevel < 5)
  c.foldl (fun (best : Option Nat) b =>
    match best with
    | none => some b
    | some a => if (s.bight b).weight < (s.bight a).weight ∨ ((s.bight b).weight = (s.bight a).weight ∧ a < b) then some b
      else best) none

/-- A step that raises T_cap, or a sharing level first (R549, R551). -/
def State.trimUp (s : State) : State :=
  match (if s.selfPolicy then s.shareNext else none) with
  | some b =>
    let s := s.modBight b fun x => { x with shareLevel := x.shareLevel + 1 }
    { s with power := { s.power with shareSteps := b :: s.power.shareSteps } }
  | none => s.setTCap (min 7 (s.power.tCap + 1))

/-- A step that lowers T_cap, or undoes a sharing level first (R549, R551). -/
def State.trimDown (s : State) : State :=
  match s.power.shareSteps with
  | b :: rest =>
    (s.modBight b fun x => { x with shareLevel := x.shareLevel - 1 }) |> fun s =>
      { s with power := { s.power with shareSteps := rest } }
  | [] => s.setTCap (s.power.tCap - 1)

/-- Every sharing level is undone. -/
def State.dropShares (s : State) : State :=
  let s := s.power.shareSteps.foldl (fun (s : State) b => s.modBight b fun x => { x with shareLevel := x.shareLevel - 1 }) s
  { s with power := { s.power with shareSteps := [] } }

/-- CAP_UNMET (R550): T_cap is 7 and the 10 ms mean still exceeds the cap. -/
def State.noteUnmet (s : State) (cap : Nat) : State :=
  let unmet := s.power.tCap == 7 && decide (cap * (s.inputOver 10000000).2 < (s.inputOver 10000000).1)
  let s' := { s with power := { s.power with capUnmet := unmet } }
  if unmet && !s.power.capUnmet then (s'.event 0x0012 cap).moduleEvent else s'

/-- TRIM_RUN (R549 to R551): the controller's run, on the means of the input power over the last 1 ms and 10 ms. -/
def execTrimRun (s : State) : Out :=
  .next (if !s.isReady then s
    else
      let p := s.power
      let seen := p.limitSeen
      let quiet := match p.limitAt with | some t => decide (t + 10000000 ≤ s.now) | none => true
      let s := { s with power := { p with trimRan := true, limitSeen := false } }
      let s := if s.selfPolicy then s else s.dropShares
      let s := match p.cap with
        | none => (s.dropShares.setTCap 0) |> fun (s : State) => { s with power := { s.power with capUnmet := false } }
        | some c =>
          let s :=
            if c * (s.inputOver 1000000).2 < (s.inputOver 1000000).1 ∨ seen = true then s.trimUp
            else if 100 * (s.inputOver 10000000).1 < 85 * c * (s.inputOver 10000000).2 ∧ quiet = true ∧ p.tCapAt + 10000000 ≤ s.now then s.trimDown
            else s
          s.noteUnmet c
      s.retune.scaleAll)

/-- A write of 0x3001.00 (R550, R571). -/
def putCap (v : BitVec 32) : Act := fun s =>
  if v = 0xFFFFFFFF then (dOk, { s with power := { s.power with cap := none } })
  else if 1500 ≤ v.toNat ∧ v.toNat ≤ 13500 then (dOk, { s with power := { s.power with cap := some v.toNat } })
  else (dRange, s)

/-- CAP_WRITE (R550). -/
def execCapWrite (via : Via) (value : BitVec 32) (s : State) : Out := .next (s.objWrite via true false (putCap value))

/-! ### The base clock (R544, R553, R558) -/

/-- Take the announcement of a clock change off the Lanyard. -/
def dropAnnounce (arg : Nat) : List LanMsg → List LanMsg
  | [] => []
  | m :: t =>
    let p := (m.payload.head?.getD 0).toNat
    if m.ty = 3 ∧ m.dest = stopAll ∧ fieldN p 0 16 = arg ∧ fieldN p 28 4 ≤ 3 then t else m :: dropAnnounce arg t

/-- TRIM mhz (R544, R558): the base clock reaches the change announced first, at its target base cycle, in every half; from here
the guard steps apply. -/
def execTrim (mhz : Nat) (s : State) : Out :=
  .next (match s.power.clockNext with
    | (m, t) :: rest =>
      if m = mhz ∧ t ≤ s.baseCycle then
        let s := { s with
          power := { s.power with
            baseMhz := m, clockNext := rest
            guardStep := (List.range 16).foldl (fun (g : Tab Nat) d => Tab.put 0 g d (s.guardOf d)) [] }
          mesh := { s.mesh with lan := dropAnnounce (t % 65536) s.mesh.lan } }
        s
      else s
    | [] => s)

/-- A write of 0x3002.00 (R553): the mode changes with the clock that it calls for. -/
def putFixedFreq (v : BitVec 8) : Act := fun s =>
  if 1 < v.toNat then (dRange, s)
  else (dOk, ({ s with power := { s.power with fixedFreq := v.toNat == 1 } }).retune)

/-- FIXED_FREQUENCY_WRITE (R553). -/
def execFixedFrequencyWrite (via : Via) (value : BitVec 8) (s : State) : Out :=
  .next (s.objWrite via true false (putFixedFreq value))

/-! ### Droop and wear (R543, R554) -/

/-- DROOP half cycles (R543): the clock generators of the half-die's die stretch so many cycles. -/
def execDroop (half cycles : Nat) (s : State) : Out :=
  let d := half / 2
  let one := fun (t : Tab Nat) (h : Nat) => Tab.put 0 t h (satAdd 0xFFFFFFFF (Tab.look 0 t h) cycles)
  .next (if s.domOn (domHalf half) then
      { s with power := { s.power with stretched := one (one s.power.stretched (2 * d)) (2 * d + 1) } }
    else s)

/-- WEAR_UNIT die (R554): a unit that is due begins and its bit is blown; at 4,096 the counter saturates. -/
def execWearUnit (die : Nat) (s : State) : Out :=
  .next (if s.isReady && s.wearDue die then
      let s := { s with power := { s.power with begun := addAt s.power.begun die 1 } }
      ({ s with fuses := { s.fuses with wear := Tab.put 0 s.fuses.wear die (min 4096 (s.wearOf die + 1)) } }).retune
    else s)

/-! ### Heat (R560 to R562) -/

/-- The band of a temperature in half degrees (R570). -/
def thermalBand (t : Int) : Nat := if t < 184 then 0 else if t < 190 then 1 else if t < 210 then 2 else if t < 220 then 3 else 4

/-- One half-die's reading (R561, R570): a message when its band changes, the count of cool samples while it is clocked down or
capped, and in fixed-frequency mode its duty cap. -/
def State.halfSample (s : State) (h : Nat) (t : Int) : State :=
  let p := s.power
  let old := Tab.look 0 p.halfTemp h
  let slow := s.divOf h != 1 || Tab.look 16 p.thermalCap h != 16
  let cool := if slow && decide (t ≤ 200) then Tab.look 0 p.coolHalf h + 1 else 0
  let cap := Tab.look 16 p.thermalCap h
  let cap' :=
    if !s.fixedActive then 16
    else if 220 ≤ t then 4
    else if 210 ≤ t then min 8 cap
    else if 100 ≤ cool then 16
    else cap
  let s := { s with power := { p with
    halfTemp := Tab.put 0 p.halfTemp h t, coolHalf := Tab.put 0 p.coolHalf h cool
    thermalCap := Tab.put 16 p.thermalCap h cap' } }
  if thermalBand old = thermalBand t then s
  else s.lanSend 3 stopMgmt (stopDie (h / 2)) false [heatFlit 5 (thermalBand t) h t]

/-- T_th after a sample (R560): up after 1 ms with some half-die at 95 °C or above, down after 10 ms with every one at 92 °C or
below, 10 ms after its last change at the earliest. -/
def State.thermalLoop (s : State) (l : List Int) : State :=
  let p := s.power
  let hot := if l.any fun t => decide (190 ≤ t) then p.hotSamples + 1 else 0
  let cool := if l.all fun t => decide (t ≤ 184) then p.coolSamples + 1 else 0
  if 10 ≤ hot then
    if p.tTh < 7 then
      { s with power := { p with
          tTh := p.tTh + 1, tThAt := s.now, tThRises := p.tThRises + 1, hotSamples := 0, coolSamples := 0 } }
    else { s with power := { p with hotSamples := 0, coolSamples := 0 } }
  else if 100 ≤ cool ∧ p.tThAt + 10000000 ≤ s.now ∧ 0 < p.tTh then
    { s with power := { p with tTh := p.tTh - 1, tThAt := s.now, hotSamples := hot, coolSamples := cool } }
  else { s with power := { p with hotSamples := hot, coolSamples := cool } }

/-- The time for which everything has been cool (R655): 10 s at 85 °C or below clear the TRIP cause. -/
def State.coolDown (s : State) (l : List Int) : State :=
  let coolStacks := (List.range 64).all fun g => decide ((s.group g).temp ≤ 170)
  let n := if (l.all fun t => decide (t ≤ 170)) && coolStacks then s.power.coolAll + 1 else 0
  let s := { s with power := { s.power with coolAll := n } }
  if 100000 ≤ n then { s with errors := { s.errors with causes := s.errors.causes &&& 5 } } else s

/-- The junction sensors of a half-die: those of its 16 clusters and of its router block (R560). -/
def sensorsOf (h : Nat) : List Nat := (512 + h) :: (List.range 512).filter fun c => halfOfCluster c == h

/-- The temperature of a half-die: the maximum of its 17 sensors (R560). -/
def hottest (t : Tab Int) (h : Nat) : Int :=
  (sensorsOf h).foldl (fun m i => max m (Tab.look 0 t i)) (Tab.look 0 t (512 + h))

/-- JUNCTION_SAMPLE (R560 to R562, R655): every 100 µs the sensors are read, in half degrees, those of the 512 clusters and then those of
the 32 router blocks. A half-die that has come to 115 °C trips. -/
def execJunctionSample (halfDegrees : List Int) (s : State) : Out :=
  .next (if s.supply.inReset then s
    else
      let t := (List.range 544).foldl (fun (t : Tab Int) i => Tab.put 0 t i (halfDegrees.getD i 0)) []
      let l := (List.range 32).map (hottest t)
      let old := s.power.halfTemp
      let s := { s with power := { s.power with sensors := t } }
      let s := l.zipIdx.foldl (fun (s : State) e => s.halfSample e.2 e.1) s
      let s := ((s.thermalLoop l).coolDown l).retune.scaleAll
      match (List.range 32).find? fun h => decide (230 ≤ l.getD h 0) && decide (Tab.look 0 old h < 230) with
      | some h => s.tripAt h (l.getD h 0)
      | none => s)

/-- THERMAL n (R570): the n-th message, which reports a band, reaches the management processor. -/
def execThermal (n : Nat) (s : State) : Out := .next ((s.takePower n 5).getD s)

/-- TRIP location halfDegrees (R330, R562, R644, R650): a junction (location 2d + s) or stack (0x80 + stack) reads 115 °C or
above. -/
def execTrip (location : Nat) (halfDegrees : Int) (s : State) : Out :=
  .next (if s.supply.inReset || decide (halfDegrees < 230) then s else s.tripAt location halfDegrees)

/-! ### Supply events (R563 to R568) -/

/-- SUPPLY_SAMPLE centivolts (R563, R566, R571, R640, R664): the bulk node's voltage, in units of 10 mV, every 1 µs. -/
def execSupplySample (centivolts : Nat) (s : State) : Out :=
  let u := s.supply
  let u := { u with
    samples := centivolts :: u.samples.take 3, goodCount := if 4800 ≤ centivolts then u.goodCount + 1 else 0 }
  let u := if centivolts < 2000 then { u with charging := true, converters := false } else u
  let s := { s with supply := u }
  .next (if s.power.reef then { s with power := { s.power with reefLow := min s.power.reefLow s.vf } } else s)

/-- REEF_ENTER (R564). -/
def execReefEnter (s : State) : Out := .next s.enterReef

/-- REEF_EXIT (R566): every sample over 200 µs has been at 48.0 V or above. -/
def execReefExit (s : State) : Out :=
  .next (if s.power.reef && decide (200 ≤ s.supply.goodCount) && decide (4600 ≤ s.vf) then
      let s := s.reefEnds
      (s.announce 3 s.wantedMhz).scaleAll
    else s)

end Sys2Proof.Machine
end

