-- ==== Sys2Proof/Machine/Rootstock.lean ====
section
/-! DEFINITION. The commands of Rootstock and of the event log (R649 to R658). -/

namespace Sys2Proof.Machine

/-- The boot ROM's attestation report after a rejected image goes to host memory with REJECTED (R652), before this command. -/
def State.enterImage (s : State) : State :=
  let s := { s with errors := { s.errors with
    rootstock := true, entering := false, rootstockAt := s.now, entries := s.errors.entries + 1 } }
  s.event 0x0040 s.errors.causes.toNat

/-- ROOTSTOCK_ENTRY (R649 to R652): the entry that a cause has begun. -/
def execRootstockEntry (s : State) : Out :=
  let e := s.errors
  .next (if !e.entering then s
    else if e.causes.getLsbD 1 then s.enterRootstock true
    else if e.causes.getLsbD 0 then s.enterRootstock false
    else s.enterImage)

/-- ERRORS_WINDOW_EXPIRY (R649, R655): counted reads age out of the window; at zero the ERRORS cause clears. -/
def execErrorsWindowExpiry (s : State) : Out :=
  let l := s.countedNow
  .next { s with errors := { s.errors with
    countedAt := l, causes := if l.isEmpty then s.errors.causes &&& 6 else s.errors.causes } }

/-- A deferred zeroization at the exit (R656, steps 1 and 2): the pages are written with zero by master 306, ZEROIZING clears and
ZEROIZED is reported. With a full queue, or a page in a stack that is not ON yet, which the access switches ON, the slot stays
ZEROIZING and a later ZEROIZE_DONE ends it (DESIGN CHOICE, log 186). -/
def State.exitZeroize (s : State) (i : Nat) : State :=
  if (s.slot i).zeroizing && s.reportRoom then s.zeroizeStep i else s

/-- The steps of the exit (R656): zeroizations, T_th, the event and the cause bits, and a Reef if it is due. -/
def State.exitRootstock (s : State) : State :=
  let ms := (s.now - s.errors.rootstockAt) / 1000000
  let s := { s with errors := { s.errors with rootstock := false } }
  let s := (Tab.keys s.handoff.slots).foldl (fun (s : State) i => s.exitZeroize i) s
  let s := { s with power := { s.power with tTh := 0, tThAt := s.now } }
  let s := s.event 0x0041 ms
  ({ s with errors := { s.errors with causes := 0 } }).enterReef.retune.scaleAll

/-- A write of 0x8001.01 (R655, R656). -/
def putExit (v : BitVec 8) : Act := fun s =>
  if v ≠ 1 then (dRange, s)
  else if s.errors.entering then (dBusy, s)
  else if !s.errors.rootstock || s.errors.causes != 0 then (dRefused, s)
  else (dOk, s.exitRootstock)

/-- ROOTSTOCK_EXIT (R655, R656). -/
def execRootstockExit (via : Via) (value : BitVec 8) (s : State) : Out :=
  .next (s.objWrite via false false (putExit value))

/-- A write of 0x8020.02 (R658): entries up to and including a SEQ leave the event log. -/
def putEventRemove (v : BitVec 16) : Act := fun s =>
  (dOk, { s with errors := { s.errors with
    events := s.errors.events.filter fun (e : BitVec 24 × BitVec 16 × BitVec 16 × BitVec 64) =>
      decide (2 ^ 15 ≤ (v - e.2.1).toNat) } })

/-- EVENT_LOG_REMOVE (R658). -/
def execEventLogRemove (via : Via) (value : BitVec 16) (s : State) : Out :=
  .next (s.objWrite via false false (putEventRemove value))

end Sys2Proof.Machine
end

