-- ==== Sys2Proof/Machine/SlhDsa.lean ====
section
/-! DEFINITION. SLH-DSA-SHA2-192s as in FIPS 205: verification, and signing with the private seeds (R572, R573; log 6). -/

namespace Sys2Proof.Crypto

/-! ### Parameters of SLH-DSA-SHA2-192s (FIPS 205, section 11) -/

/-- Bytes of a node; levels of a tree; trees in the hypertree; levels and number of the FORS trees; WOTS+ chains. -/
def slhN : Nat := 24
def slhLevels : Nat := 9
def slhLayers : Nat := 7
def forsLevels : Nat := 14
def forsTrees : Nat := 17
def wotsLen : Nat := 51

/-! ### Addresses and hashes (FIPS 205, sections 4.2, 11.2) -/

/-- An address: layer, tree, type, and three words that the type gives a meaning. -/
structure Adrs where
  layer : Nat := 0
  tree : Nat := 0
  kind : Nat := 0
  a : Nat := 0
  b : Nat := 0
  c : Nat := 0
deriving DecidableEq, Repr

/-- The compressed form of an address, 22 bytes. -/
def Adrs.bytes (x : Adrs) : Bytes :=
  beBytes 1 x.layer ++ beBytes 8 x.tree ++ beBytes 1 x.kind ++ beBytes 4 x.a ++ beBytes 4 x.b ++ beBytes 4 x.c

def adrsWotsHash : Nat := 0
def adrsWotsPk : Nat := 1
def adrsTree : Nat := 2
def adrsForsTree : Nat := 3
def adrsForsRoots : Nat := 4
def adrsWotsPrf : Nat := 5
def adrsForsPrf : Nat := 6

/-- An address of another type: key pair `p`, chain or height `b`, hash or index `c`. -/
def Adrs.to (x : Adrs) (kind p b c : Nat) : Adrs := { x with kind, a := p, b, c }

/-- F and PRF: SHA-256 of the public seed in a block of 64 bytes, the address and a string. -/
def slhF (seed : Bytes) (x : Adrs) (m : Bytes) : Bytes := (sha256 (slice seed 0 24 ++ List.replicate 40 0 ++ x.bytes ++ m)).take slhN
/-- H and T: SHA-512 of the public seed in a block of 128 bytes, the address and a string. -/
def slhH (seed : Bytes) (x : Adrs) (m : Bytes) : Bytes := (sha512 (slice seed 0 24 ++ List.replicate 104 0 ++ x.bytes ++ m)).take slhN

/-- `n` digits of `b` bits of a byte string, from its first bit on (FIPS 205, algorithm 4). -/
def digits (b n : Nat) (x : Bytes) : List Nat :=
  (List.range n).map fun i => beNat x / 2 ^ (8 * x.length - b * (i + 1)) % 2 ^ b

/-! ### WOTS+ (FIPS 205, section 5) -/

/-- `n` steps of a chain from step i. -/
def wotsChain (seed : Bytes) (x : Adrs) : Nat → Nat → Bytes → Bytes
  | _, 0, m => m
  | i, n + 1, m => wotsChain seed x (i + 1) n (slhF seed { x with c := i } m)

/-- The 48 digits of a message and the three of its checksum. -/
def wotsDigits (m : Bytes) : List Nat :=
  let d := digits 4 48 m
  d ++ digits 4 3 (beBytes 2 (16 * (d.map fun v => 15 - v).sum))

/-- The public key from the ends of the chains. -/
def wotsKey (seed : Bytes) (x : Adrs) (ends : List Bytes) : Bytes := slhH seed (x.to adrsWotsPk x.a 0 0) ends.flatten

/-- The public key that a signature leads to; the address is that of the key pair. -/
def wotsFromSig (seed : Bytes) (x : Adrs) (sig m : Bytes) : Bytes :=
  let d := wotsDigits m
  wotsKey seed x ((List.range wotsLen).map fun i =>
    wotsChain seed { x with b := i } (d.getD i 0) (15 - d.getD i 0) (slice sig (slhN * i) slhN))

/-- The secret start of a chain. -/
def wotsSecret (secret seed : Bytes) (x : Adrs) (i : Nat) : Bytes := slhF seed (x.to adrsWotsPrf x.a i 0) secret

/-- The public key of the key pair of an address. -/
def wotsPublic (secret seed : Bytes) (x : Adrs) : Bytes :=
  wotsKey seed x ((List.range wotsLen).map fun i => wotsChain seed { x with b := i } 0 15 (wotsSecret secret seed x i))

/-- The signature of a message by the key pair of an address. -/
def wotsSign (secret seed : Bytes) (x : Adrs) (m : Bytes) : Bytes :=
  let d := wotsDigits m
  (List.range wotsLen).flatMap fun i => wotsChain seed { x with b := i } 0 (d.getD i 0) (wotsSecret secret seed x i)

/-! ### Trees (FIPS 205, sections 6 and 7) -/

/-- From a node of index i at height z up an authentication path of `n` nodes: `join` hashes two nodes for a height and an index. -/
def climb (join : Nat → Nat → Bytes → Bytes) (path : Bytes) : Nat → Nat → Nat → Bytes → Bytes
  | _, _, 0, node => node
  | i, z, n + 1, node =>
    let other := slice path (slhN * z) slhN
    climb join path (i / 2) (z + 1) n (join (z + 1) (i / 2) (if i % 2 = 0 then node ++ other else other ++ node))

/-- The node of index i at height z over the leaves of a tree. -/
def treeNode (join : Nat → Nat → Bytes → Bytes) (leaf : Nat → Bytes) : Nat → Nat → Bytes
  | 0, i => leaf i
  | z + 1, i => join (z + 1) i (treeNode join leaf z (2 * i) ++ treeNode join leaf z (2 * i + 1))

/-- The sibling of the ancestor of index i at height z. -/
def sibling (i z : Nat) : Nat := if i / 2 ^ z % 2 = 0 then i / 2 ^ z + 1 else i / 2 ^ z - 1

/-- Two nodes of the tree of an address joined. -/
def xmssJoin (seed : Bytes) (x : Adrs) (z i : Nat) (m : Bytes) : Bytes := slhH seed (x.to adrsTree 0 z i) m

/-- The root that an XMSS signature by key pair `i` leads to. -/
def xmssFromSig (seed : Bytes) (x : Adrs) (i : Nat) (sig m : Bytes) : Bytes :=
  climb (xmssJoin seed x) (slice sig (wotsLen * slhN) (slhLevels * slhN)) i 0 slhLevels
    (wotsFromSig seed (x.to adrsWotsHash i 0 0) (slice sig 0 (wotsLen * slhN)) m)

/-- A node of the XMSS tree of an address. -/
def xmssNode (secret seed : Bytes) (x : Adrs) (z i : Nat) : Bytes :=
  treeNode (xmssJoin seed x) (fun p => wotsPublic secret seed (x.to adrsWotsHash p 0 0)) z i

/-- The XMSS signature of a message by key pair `i`. -/
def xmssSign (secret seed : Bytes) (x : Adrs) (i : Nat) (m : Bytes) : Bytes :=
  wotsSign secret seed (x.to adrsWotsHash i 0 0) m ++
    (List.range slhLevels).flatMap fun z => xmssNode secret seed x z (sibling i z)

/-- Bytes of an XMSS signature. -/
def xmssLen : Nat := (wotsLen + slhLevels) * slhN

/-- The root that `n` layers of a hypertree signature lead to, from layer `l`, tree `t`, key pair `i`. -/
def hyperFromSig (seed : Bytes) : Nat → Nat → Nat → Nat → Bytes → Bytes → Bytes
  | 0, _, _, _, _, m => m
  | n + 1, l, t, i, sig, m =>
    hyperFromSig seed n (l + 1) (t / 2 ^ slhLevels) (t % 2 ^ slhLevels) (sig.drop xmssLen)
      (xmssFromSig seed { layer := l, tree := t } i (slice sig 0 xmssLen) m)

/-- A hypertree signature of `n` layers. -/
def hyperSign (secret seed : Bytes) : Nat → Nat → Nat → Nat → Bytes → Bytes
  | 0, _, _, _, _ => []
  | n + 1, l, t, i, m =>
    let x : Adrs := { layer := l, tree := t }
    let sig := xmssSign secret seed x i m
    sig ++ hyperSign secret seed n (l + 1) (t / 2 ^ slhLevels) (t % 2 ^ slhLevels) (xmssFromSig seed x i sig m)

/-! ### FORS (FIPS 205, section 8) -/

/-- Two nodes of the FORS trees of an address joined; indices run over all trees. -/
def forsJoin (seed : Bytes) (x : Adrs) (z i : Nat) (m : Bytes) : Bytes := slhH seed (x.to adrsForsTree x.a z i) m

/-- The leaf of a secret value. -/
def forsLeaf (seed : Bytes) (x : Adrs) (i : Nat) (value : Bytes) : Bytes := slhF seed (x.to adrsForsTree x.a 0 i) value
/-- A secret value. -/
def forsSecret (secret seed : Bytes) (x : Adrs) (i : Nat) : Bytes := slhF seed (x.to adrsForsPrf x.a 0 i) secret

/-- The index of the value of tree j that a digest selects, over all trees. -/
def forsIndex (md : Bytes) (j : Nat) : Nat := j * 2 ^ forsLevels + (digits forsLevels forsTrees md).getD j 0

/-- The public key that a FORS signature leads to. -/
def forsFromSig (seed : Bytes) (x : Adrs) (sig md : Bytes) : Bytes :=
  slhH seed (x.to adrsForsRoots x.a 0 0) ((List.range forsTrees).flatMap fun j =>
    let part := slice sig (j * (forsLevels + 1) * slhN) ((forsLevels + 1) * slhN)
    let i := forsIndex md j
    climb (forsJoin seed x) (part.drop slhN) i 0 forsLevels (forsLeaf seed x i (slice part 0 slhN)))

/-- A FORS signature of a digest. -/
def forsSign (secret seed : Bytes) (x : Adrs) (md : Bytes) : Bytes :=
  (List.range forsTrees).flatMap fun j =>
    let i := forsIndex md j
    forsSecret secret seed x i ++ (List.range forsLevels).flatMap fun z =>
      treeNode (forsJoin seed x) (fun p => forsLeaf seed x p (forsSecret secret seed x p)) z (sibling i z)

/-! ### Signatures (FIPS 205, sections 9 and 10) -/

/-- What a randomizer, a public key and a message select: the FORS digest, the tree and the key pair. -/
def slhSelect (r seed root m : Bytes) : Bytes × Nat × Nat :=
  let d := mgf1 sha512 64 (r ++ seed ++ sha512 (r ++ seed ++ root ++ m)) 39
  (slice d 0 30, beNat (slice d 30 7) % 2 ^ 54, beNat (slice d 37 2) % 2 ^ slhLevels)

/-- The pure form with an empty context string. -/
def slhPure (m : Bytes) : Bytes := [0, 0] ++ m

/-- Verification: public key (seed, then root), message, signature of 16,224 bytes. -/
@[irreducible] def slhVerify (key m sig : Bytes) : Bool :=
  let seed := slice key 0 slhN
  let root := slice key slhN slhN
  let r := slice sig 0 slhN
  let (md, tree, leaf) := slhSelect r seed root (slhPure m)
  let fors := forsFromSig seed (({ tree } : Adrs).to adrsForsTree leaf 0 0) (slice sig slhN 6120) md
  sig.length == 16224 && key.length == 48 && hyperFromSig seed slhLayers 0 tree leaf (slice sig 6144 10080) fors == root

/-- Signing: private seed and PRF key, public key, message, and the 24 random bytes of the hedged form. -/
@[irreducible] def slhSign (secret prf key m random : Bytes) : Bytes :=
  let seed := slice key 0 slhN
  let r := (hmacSha512 prf (random ++ slhPure m)).take slhN
  let (md, tree, leaf) := slhSelect r seed (slice key slhN slhN) (slhPure m)
  let x := ({ tree } : Adrs).to adrsForsTree leaf 0 0
  let fors := forsSign secret seed x md
  r ++ fors ++ hyperSign secret seed slhLayers 0 tree leaf (forsFromSig seed x fors md)

end Sys2Proof.Crypto
end

