-- ==== Sys2Proof/Machine/Attest.lean ====
section
/-! DEFINITION. Identity, images, debug tokens and attestation reports: what the boot ROM checks and what a report says (R572 to
R591). -/

namespace Sys2Proof.Machine

/-! ### Identity and signatures (R572 to R574) -/

/-- The DER SubjectPublicKeyInfo of the RSA identity key (R574). -/
def Fuses.rsaSpki (f : Fuses) : Bytes := Crypto.rsaKeyInfo f.rsaModulus

/-- The module ID (R574). -/
def Fuses.moduleId (f : Fuses) : Bytes := slice (Crypto.digestBytes (Crypto.sha384 (f.rsaSpki ++ f.slhPub))) 0 16

/-- Bytes of a signature pair (R572). -/
def pairLen : Nat := 384 + 16224

/-- The RSA part of a pair over a message (R572). -/
def rsaPartOk (modulus message pair : Bytes) : Bool := Crypto.rsaVerify modulus message (slice pair 0 384)

/-- The SLH-DSA part of a pair over a message: it signs the digest (R572). -/
def slhPartOk (key message pair : Bytes) : Bool :=
  Crypto.slhVerify key (Crypto.digestBytes (Crypto.sha384 message)) (slice pair 384 16224)

/-- A pair made with the identity keys over a message (R572, R573): the RSA part over the message, then the SLH-DSA part over its
digest; the salt of the one and the random bytes of the other are fresh (log 6). -/
def State.signPair (s : State) (message : Bytes) : Bytes × State :=
  let (salt, s) := s.freeBytes
  let (random, s) := s.freeBytes
  let f := s.fuses
  (Crypto.rsaSign f.rsaModulus f.rsaPrivate message (slice salt 0 48) ++
    Crypto.slhSign (slice f.slhPrivate 0 24) (slice f.slhPrivate 24 24) f.slhPub (Crypto.sha384Bytes message) (slice random 0 24), s)

/-! ### The image (R578, R580) -/

/-- Section i of an image's header: TYPE, OFFSET, LENGTH. -/
def imageSect (img : Bytes) (i : Nat) : Nat × Nat × Nat :=
  let e := slice img (0x20 + 16 * i) 16
  (leAt e 0 1, leAt e 4 4, leAt e 8 4)

/-- A reserved field of the image header is not zero (R578, R580). -/
def imageReservedBad (img : Bytes) : Bool :=
  !allZero (slice img 0x17 1) || !allZero (slice img 0xD0 48) || !allZero (slice img 0x280 384) ||
    (List.range 8).any fun i => !allZero (slice img (0x21 + 16 * i) 3) || !allZero (slice img (0x2C + 16 * i) 4)

/-- Two sections overlap. -/
def sectsOverlap (a b : Nat × Nat × Nat) : Bool :=
  decide (a.2.1 < b.2.1 + b.2.2) && decide (b.2.1 < a.2.1 + a.2.2)

/-- The sections lie within SIGNED_LEN and apart, and have the form of R578 (R580). -/
def sectsOk (img : Bytes) (n signed : Nat) : Bool :=
  let l := (List.range n).map fun i => imageSect img i
  (l.all fun e => decide (1 ≤ e.1) && decide (e.1 ≤ 5) && e.2.1 % 64 == 0 && decide (1024 ≤ e.2.1) &&
      decide (e.2.1 + e.2.2 ≤ signed)) &&
    decide (l.Pairwise fun a b => sectsOverlap a b = false) &&
    (List.range 8).all fun i => decide (i < n) || allZero (slice img (0x20 + 16 * i) 16)

/-- The header has the form of R578 (R580, FORMAT; log 70). -/
def imageFormatOk (img : Bytes) : Bool :=
  let signed := leAt img 0xC 4
  let n := leAt img 0x16 1
  leAt img 0 4 == 0x4E474657 && leAt img 4 2 == 1 && leAt img 6 2 == 0x4E30 && !imageReservedBad img &&
    decide (leAt img 0x14 1 ≤ 64) && decide (leAt img 0x15 1 ≤ leAt img 0x14 1) &&
    leAt img 8 4 == signed + pairLen && signed % 64 == 0 && decide (1024 ≤ signed) &&
    decide (1 ≤ n) && decide (n ≤ 8) && sectsOk img n signed

/-- The checks of R580 in their order: the reject code, 0 when the image passes. -/
def State.imageCheck (s : State) (len : Nat) (answer : HostAns) : Nat :=
  match answer with
  | none => 1
  | some b =>
    let img := slice b 0 len
    let message := slice img 0 (leAt img 0xC 4)
    let pair := slice img (leAt img 0xC 4) pairLen
    if leAt img 8 4 ≠ len ∨ 0x2000000 < len then 1
    else if !imageFormatOk img then 2
    else if Crypto.sha384 (slice img 0x100 384) ≠ s.fuses.fwRsaDigest ∨
        Crypto.sha384 (slice img 0xA0 48) ≠ s.fuses.fwSlhDigest then 3
    else if leAt img 0x14 1 < s.fuses.rollback then 4
    else if !rsaPartOk (slice img 0x100 384) message pair then 5
    else if !slhPartOk (slice img 0xA0 48) message pair then 6
    else 0

/-! ### The debug token (R584 to R588) -/

/-- The result of a token (R588). The boot ROM's key of a part that does not have its fused digest verifies nothing (R586; DESIGN
CHOICE, log 220: the table has no result of its own for that). -/
def State.tokenCheck (s : State) (t : Bytes) : Nat :=
  let header := slice t 0 64
  let pair := slice t 64 pairLen
  if s.fuses.debugDisabled then 6
  else if leAt t 0 4 ≠ 0x4E474454 ∨ leAt t 4 2 ≠ 1 ∨ leAt t 6 2 ≠ 0 ∨ leAt t 0x3C 4 ≠ 0 ∨ 8 ≤ leAt t 0x38 4 then 2
  else if slice t 8 16 ≠ s.fuses.moduleId ∨ slice t 0x18 32 ≠ s.boot.nonce then 3
  else if Crypto.sha384 s.fuses.dbgRsaKey ≠ s.fuses.dbgRsaDigest ∨ rsaPartOk s.fuses.dbgRsaKey header pair = false then 4
  else if Crypto.sha384 s.fuses.dbgSlhKey ≠ s.fuses.dbgSlhDigest ∨ slhPartOk s.fuses.dbgSlhKey header pair = false then 5
  else 1

/-- The state after a token has been judged: only result 1 gives vendor-debug, which holds until the next reset (R584, R588). -/
def State.takeToken (s : State) (t : Bytes) : State :=
  let r := s.tokenCheck t
  if r = 1 then
    { s with boot := { s.boot with tokenResult := 1, vendorDebug := true, scope := BitVec.ofNat 32 (leAt t 0x38 4) } }
  else { s with boot := { s.boot with tokenResult := r } }

/-! ### Reports (R590, R591) -/

/-- A cluster is good (R3, R4). -/
def Fuses.good (f : Fuses) (c : Nat) : Bool := !f.gradedOut.contains c

/-- The good-cluster count (R3). -/
def Fuses.goodCount (f : Fuses) : Nat := ((List.range 512).filter f.good).length

/-- Eight flags as a byte, the first in bit 0. -/
def packByte (l : List Bool) : Byte := BitVec.ofNat 8 (l.foldr (fun b n => 2 * n + b.toNat) 0)

/-- The good-cluster map, bit c for cluster c (R4). -/
def Fuses.goodMap (f : Fuses) : Bytes :=
  (List.range 64).map fun i => packByte ((List.range 8).map fun j => f.good (8 * i + j))

/-- The number of a bight's state (R288). -/
def Bight.stateCode (x : Bight) : Nat :=
  match x.state with
  | .free => 0
  | .lashing => 1
  | .lashed => 2
  | .prepare => 3
  | .quiesce => 4
  | .switchover => 5
  | .releasing => 6

/-- 0x4100 + b .01 (R288). -/
def Bight.placementWord (x : Bight) : Nat :=
  let p := x.place
  p.shape % 256 * 2 ^ 24 + p.x0 % 32 * 2 ^ 19 + p.y0 % 16 * 2 ^ 15 + (p.w - 1) % 32 * 2 ^ 10 + (p.h - 1) % 16 * 2 ^ 6

/-- A bight's record in a report (R591). -/
def bightRecord (b : Nat) (x : Bight) : Bytes :=
  let weight := fun (i : Nat) => Tab.find? x.weights i
  leBytes 1 b ++ leBytes 1 x.stateCode ++ leBytes 1 x.owner ++ [0] ++ leBytes 4 x.placementWord ++
    leBytes 8 x.place.groups.toNat ++ leBytes 8 x.place.ports.toNat ++
    [packByte (x.program.isSome :: (List.range 4).map fun i => (weight i).isSome)] ++ List.replicate 7 0 ++
    Crypto.digestBytes (x.program.getD 0) ++
    ((List.range 4).flatMap fun i => Crypto.digestBytes (((weight i).map (·.1)).getD 0)) ++
    ((List.range 4).flatMap fun i => leBytes 8 (((weight i).map (·.2)).getD 0)) ++ List.replicate 16 0

/-- Byte n of VF_MAP (R591). -/
def State.vfByte (s : State) (n : Nat) : Byte :=
  if n = 0 then 0 else packByte [(s.fn n).port == 1, false, false, false, false, false, false, s.host.vfEnabled.contains (s.fn n).port]

/-- The STATE byte of a report (R591). -/
def State.reportState (s : State) (rejected : Bool) : Byte :=
  packByte [s.boot.vendorDebug, s.fuses.debugDisabled, rejected || s.errors.causes.getLsbD 2, rejected || s.errors.rootstock,
    false, false, false, false]

/-- 0x2001.00 as it reads: the value last written (R79; log 71). -/
def State.policyValue (s : State) : Nat := ((s.frame.policyNext.getLast?).map (·.1)).getD s.frame.selfPolicy.toNat

/-- The 1,024-byte body of a report of `n` bight records (R591); `rejected` for the one that the boot ROM writes (R652). -/
def State.reportBody (s : State) (nonce : Bytes) (n : Nat) (rejected : Bool) : Bytes :=
  let b := leBytes 4 0x4E474152 ++ leBytes 2 1 ++ leBytes 2 n ++ leBytes 4 (1024 + 320 * n + pairLen) ++
    leBytes 4 (s.security.reportSeq + 1).toNat ++ slice nonce 0 32 ++ s.fuses.moduleId ++ leBytes 2 0x4E30 ++
    leBytes 1 s.fuses.grade ++ [0] ++ leBytes 2 s.fuses.goodCount ++ leBytes 2 0 ++ leBytes 8 s.frame.counter.toNat ++
    Crypto.digestBytes s.fuses.romDigest ++ (if rejected then List.replicate 48 0 else Crypto.digestBytes s.boot.imageDigest) ++
    leBytes 4 s.boot.fwVersion.toNat ++ leBytes 1 s.boot.svn ++ leBytes 1 s.fuses.rollback ++ [s.reportState rejected, 0] ++
    leBytes 4 (if s.boot.vendorDebug then s.boot.scope.toNat else 0) ++ leBytes 4 0 ++ s.fuses.goodMap ++
    ((List.range 64).map fun i => s.vfByte i) ++ leBytes 1 s.policyValue ++ List.replicate 7 0 ++
    ((List.range 64).map fun i => BitVec.ofNat 8 ((s.keySlot i).owner.getD 0xFF))
  slice b 0 1024

/-- The bights that have a record: none in Rootstock (R590). -/
def State.reportBights (s : State) : List (Nat × Bight) :=
  if s.errors.rootstock then [] else List.filter (fun e : Nat × Bight => e.2.state != .free) s.bights.tab

/-- A report up to its signature pair (R590, R591). -/
def State.reportMessage (s : State) (nonce : Bytes) : Bytes :=
  let l := s.reportBights
  s.reportBody nonce l.length false ++ l.flatMap fun e => bightRecord e.1 e.2

/-- The report that the boot ROM writes to host memory before it sets REJECTED, when the buffer is long enough (R652). -/
def State.bootReport (s : State) : State :=
  if s.boot.len.toNat % 2 ^ 26 < 17632 then s
  else
    let m := s.reportBody s.boot.nonce 0 true
    let (pair, s) := s.signPair m
    let s := s.hostWriteVia 0 s.boot.goPort (s.boot.image.toNat / 4096 * 4096) (m ++ pair)
    { s with security := { s.security with reportSeq := s.security.reportSeq + 1 } }

end Sys2Proof.Machine
end

