-- ==== Sys2Proof/Machine/Boot.lean ====
section
/-! DEFINITION. The commands of firmware push, of power-up and of attestation (R576 to R591, R641 to R643). -/

namespace Sys2Proof.Machine

/-- Bytes of the image that SC_BOOT_LEN names (R576). -/
def Boot.imageLen (b : Boot) : Nat := b.len.toNat % 2 ^ 26
/-- SC_BOOT_TOKEN names a token (R576). -/
def Boot.named (b : Boot) : Bool := decide (b.token.toNat / 4096 ≠ 0)

/-- A load starts (R577): the boot ROM reads the image, and any token of 16,672 bytes, from host memory through the port of the GO. -/
def State.startLoad (s : State) (port : Nat) : State :=
  let b := s.boot
  let read := fun (s : State) (addr : Word) (n : Nat) => s.send (.hostRead 0 port (addr.toNat / 4096 * 4096) n)
  let s := read s b.image b.imageLen
  let s := if b.named then read s b.token (64 + pairLen) else s
  { s with
    boot := { b with
      goPort := port, state := .loading, imageData := none, tokenData := none, imageRead := some s.nextReq
      tokenRead := if b.named then some (s.nextReq + 1) else none }
    nextReq := s.nextReq + 2 }

/-- A write of SC_BOOT_GO through a port (R577): it starts a load in WAIT_IMAGE or REJECTED, and is ignored in any other state
and after a thermal trip has stopped the sequence (R644). -/
def State.bootGo (s : State) (port : Nat) (value : Word) : State :=
  if value.getLsbD 0 && (s.boot.state == .waitImage || s.boot.state == .rejected) && !s.boot.halted then s.startLoad port else s

/-- BOOT_GO port value (R577). -/
def execBootGo (port : Nat) (value : Word) (s : State) : Out :=
  .next (if s.host.linkUp.contains port then s.bootGo port value else s)

/-- The token that a GO named, as the boot ROM read it: none when SC_BOOT_TOKEN names none (R576, R588). -/
def State.judgeToken (s : State) : State :=
  if s.boot.named then
    match s.boot.tokenData with
    | none => s
    | some t => s.takeToken t
  else { s with boot := { s.boot with tokenResult := 0 } }

/-- A host read of the load failed: of the image, or of a token that GO named (R580). -/
def Boot.loadFails (b : Boot) : Bool := b.imageData.isNone || (b.named && b.tokenData.isNone)

/-- The image passes: its fields and its digest are recorded, and it starts (R577, R582). -/
def State.acceptImage (s : State) (img : Bytes) : State :=
  { s with boot := { s.boot with
      state := .starting, imageData := none, tokenData := none
      fwVersion := BitVec.ofNat 32 (leAt img 0x10 4)
      svn := leAt img 0x14 1
      floor := leAt img 0x15 1
      buildId := wordOfBytes (slice img 0x18 8)
      imageDigest := Crypto.sha384 (slice img 0 (leAt img 0xC 4)) } }

/-- The image is rejected with a code: the boot ROM writes its report, and the module is to enter Rootstock (R581, R650, R652). -/
def State.rejectImage (s : State) (code : Nat) : State :=
  let s := s.bootReport
  ({ s with boot := { s.boot with state := .rejected, reject := code, imageData := none, tokenData := none } }).rootstockCause 2

/-- IMAGE_VERIFIED (R580 to R582, R588): the boot ROM, which is VERIFYING, has judged the token and the image that the host gave. -/
def execImageVerified (s : State) : Out :=
  .next (if s.boot.state ≠ .verifying ∨ s.boot.halted = true then s
    else
      let b := s.boot
      let s := s.judgeToken
      match if b.loadFails then 1 else s.imageCheck b.imageLen b.imageData with
      | 0 => s.acceptImage (slice (b.imageData.getD []) 0 b.imageLen)
      | code => s.rejectImage code)

/-- The domains as READY finds them (R40, R641, R642): die uncores and half-dies ON with empty slot tables, stacks trained and
LOW but for those whose training failed, clusters and link ports OFF. -/
def State.bringUp (s : State) (failed : BitVec 32) : State :=
  let s := (List.range 16).foldl (fun (s : State) d => s.forceDom (domDie d) .on) s
  let s := (List.range 32).foldl (fun (s : State) h => s.forceDom (domHalf h) .on) s
  (List.range 32).foldl (fun (s : State) st =>
    if failed.getLsbD st then s.stackReached st .off .low false else s.forceDom (domStack st) .low) s

/-- READY failedStacks (R583, R641 to R643, R647): `failedStacks` are the stacks whose full training failed. The rollback fuse's steps
follow in time (State.tickRollback). -/
def execReady (failedStacks : BitVec 32) (s : State) : Out :=
  .next (if s.boot.state ≠ .starting ∨ s.boot.halted = true ∨ s.supply.converters = false then s
    else
      let s := s.bringUp failedStacks
      let s := { s with
        boot := { s.boot with state := .ready, stepAt := s.now } }
      s.event 0x0001 s.supply.cause)

/-- A write of 0x7061.00 (R589). -/
def putDebugDisable (v : BitVec 32) : Act := fun s =>
  if v = 0x4E474444 then (dOk, { s with fuses := { s.fuses with debugDisabled := true } }) else (dRefused, s)

/-- DEBUG_DISABLE (R589). -/
def execDebugDisable (via : Via) (value : BitVec 32) (s : State) : Out :=
  .next (s.objWrite via true true (putDebugDisable value))

/-- A write of 0x7020.00 (R590): a snapshot is captured now. -/
def putReportRequest (nonce : Bytes) : Act := fun s =>
  if nonce.length ≠ 32 then (dLength, s)
  else if s.security.generating.isSome then (dBusy, s)
  else (dOk, { s with security := { s.security with generating := some (s.reportMessage nonce), reportState := 1, report := [] } })

/-- REPORT_REQUEST (R590). -/
def execReportRequest (via : Via) (nonce : Bytes) (s : State) : Out :=
  .next (s.objWrite via true false (putReportRequest nonce))

/-- REPORT_READY (R591): the identity keys sign the report, which replaces the previous one. -/
def execReportReady (s : State) : Out :=
  .next (match s.security.generating with
    | none => s
    | some m =>
      let (pair, s) := s.signPair m
      { s with security := { s.security with
        generating := none, reportState := 2, reportSeq := s.security.reportSeq + 1, report := m ++ pair } })

end Sys2Proof.Machine
end

