-- ==== Sys2Proof/Machine/EngineOps.lean ====
section
/-! DEFINITION. The matrix engine: its registers, the check of a tile, its reads, its products and its outputs (R161 to R189). -/

namespace Sys2Proof.Machine

/-! ### A tile's fields (R177) -/

def Tile.reg (t : Tile) (off : Nat) : Nat := (Tab.look 0 t.regs off).toNat
def Tile.ctrl (t : Tile) (lo w : Nat) : Nat := fieldN (t.reg 0) lo w
def Tile.dataflow (t : Tile) : Nat := t.ctrl 62 2
def Tile.accIn (t : Tile) : Nat := t.ctrl 60 2
def Tile.finish (t : Tile) : Bool := t.ctrl 59 1 == 1
def Tile.plane (t : Tile) : Nat := t.ctrl 58 1
def Tile.sparse (t : Tile) : Bool := t.ctrl 57 1 == 1
def Tile.aQueue (t : Tile) : Bool := t.ctrl 56 1 == 1
def Tile.wQueue (t : Tile) : Bool := t.ctrl 55 1 == 1
def Tile.oQueue (t : Tile) : Bool := t.ctrl 54 1 == 1
def Tile.anchorSrc (t : Tile) : Nat := t.ctrl 52 2
def Tile.round (t : Tile) : Nat := t.ctrl 50 2
def Tile.aType (t : Tile) : Nat := t.ctrl 46 4
def Tile.wType (t : Tile) : Nat := t.ctrl 42 4
def Tile.outType (t : Tile) : Nat := t.ctrl 38 4
def Tile.m (t : Tile) : Nat := t.ctrl 31 7 + 1
def Tile.n (t : Tile) : Nat := t.ctrl 24 7 + 1
def Tile.pin (t : Tile) : Int := sext 16 (t.ctrl 8 16)
def Tile.ser (t : Tile) : Bool := t.ctrl 7 1 == 1
def Tile.scanLen (t : Tile) : Nat := fieldN (t.reg 0x008) 32 32
def Tile.prodLen (t : Tile) : Nat := fieldN (t.reg 0x008) 0 32
def Tile.prodOff (t : Tile) : Nat := fieldN (t.reg 0x010) 0 32
/-- STRIDE and BASE of the register at an offset. -/
def Tile.stride (t : Tile) (off : Nat) : Nat := fieldN (t.reg off) 32 32
def Tile.base (t : Tile) (off : Nat) : Nat := fieldN (t.reg off) 0 32
/-- The grid: wide for BF16 and FP16 (R139). -/
def Tile.wide (t : Tile) : Bool := decide (9 ≤ t.aType)
def Tile.mx (t : Tile) : Bool := isMx t.aType
/-- The anchor comes from the scan (R144, R148). -/
def Tile.scans (t : Tile) : Bool := t.mx && t.anchorSrc == 0
/-- Elements of a column as stored: a compressed column holds half (R175). -/
def Tile.wElems (t : Tile) : Nat := if t.sparse then t.prodLen / 2 else t.prodLen
/-- Bytes of an output row (R185, R193). -/
def Tile.rowBytes (t : Tile) : Nat := t.n * outBytes t.outType

/-! ### The check (R137, R169, R174, R180) -/

/-- A region of rows a tile uses: base, stride, rows, first byte and bytes of each row. -/
structure TileRegion where
  base : Nat
  stride : Nat
  rows : Nat
  first : Nat
  bytes : Nat
deriving DecidableEq, Repr

/-- The regions a tile uses. -/
def Tile.regions (t : Tile) : List TileRegion :=
  let mk := fun (off rows first bytes : Nat) => (⟨t.base off, t.stride off, rows, first, bytes⟩ : TileRegion)
  let scaleFirst := if t.scans then 0 else t.prodOff / 32
  let scaleBytes := if t.scans then t.scanLen / 32 else t.prodLen / 32
  (if t.aQueue then [] else [mk 0x018 t.m 0 (elemBytes t.aType t.prodLen)]) ++
    (if t.wQueue then [] else [mk 0x020 t.n 0 (elemBytes t.wType t.wElems)]) ++
    (if t.mx then [mk 0x028 t.m scaleFirst scaleBytes, mk 0x030 t.n scaleFirst scaleBytes] else []) ++
    (if t.sparse then [mk 0x038 t.n 0 (t.prodLen / 8)] else []) ++
    (if t.finish && !t.oQueue then [mk 0x040 t.m 0 t.rowBytes] else []) ++
    (if t.accIn = 2 then [mk 0x048 t.m 0 (32 * t.n)] else [])

/-- Every byte of a region lies in the own cluster's range (R169, R180). -/
def TileRegion.ok (r : TileRegion) : Bool := decide (r.base + (r.rows - 1) * r.stride + r.first + r.bytes ≤ sramUsed)

/-- The registers that hold a base and a stride (R177). -/
def baseRegs : List Nat := [0x018, 0x020, 0x028, 0x030, 0x038, 0x040, 0x048]

/-- Every base and every stride is a multiple of 64 bytes and every base a core address of the own cluster, used by the tile or not
(R169; log 21). -/
def Tile.basesOk (t : Tile) : Bool := baseRegs.all fun r =>
  decide (t.base r % 64 = 0) && decide (t.stride r % 64 = 0) && decide (t.base r < sramUsed)

/-- A tile is malformed (R180). -/
def Tile.malformed (t : Tile) : Bool :=
  !pairOk t.aType t.wType || !outOk t.aType t.outType || decide (2 ≤ t.dataflow) || t.accIn == 3 || decide (2 ≤ t.round) ||
    (t.aType != 8 && (decide (2 ≤ t.anchorSrc) || (t.wide && t.anchorSrc == 0))) ||
    (t.mx && (decide (t.prodOff % 32 ≠ 0) || decide (t.prodLen % 32 ≠ 0) || decide (t.scanLen % 32 ≠ 0) ||
      decide (t.scanLen < t.prodOff + t.prodLen))) ||
    t.prodLen == 0 ||
    (t.sparse && !((t.aType == 0 || t.aType == 3 || t.aType == 4) && (t.wType == 0 || t.wType == 3 || t.wType == 4))) ||
    !t.basesOk || t.regions.any fun r => !r.ok

/-! ### Reports and kills (R189) -/

/-- The engine of a cluster sends a fault report as core k = 0 with unit 8 (R189). The command that runs does not finish: it is
killed when the report arrives (R124, R180). -/
def State.engineReport (s : State) (c cause sub : Nat) (value : Nat) : State :=
  let core := coreOf c 0
  let lcore := match s.bightOfCluster c with
    | some b => (s.bight b).place.lcore core
    | none => 0xFFFF
  (s.modEngine c fun e => { e with failed := true }).lanSend 4 stopMgmt c false (faultPayload lcore core cause 8 sub 0 (BitVec.ofNat 64 value))

/-- The command that runs on a cluster is killed with a break code, without a report. -/
def State.killOn (s : State) (c code : Nat) : State :=
  match s.bightOfCluster c with
  | none => s
  | some b =>
    match (s.bight b).resident with
    | some (q, n, _) => s.failCmd q n code
    | none => s

/-! ### Control registers (R177, R178) -/

/-- Bits a staging register keeps: reserved bits read zero (R15, R177). -/
def stagingMask (off : Nat) : Word :=
  if off = 0 then 0xFFFFFFFFFFFFFF80 else if off = 0x010 then 0xFFFFFFFF else BitVec.allOnes 64

/-- A staging register's offset. -/
def isStaging (off : Nat) : Bool := decide (off % 8 = 0) && decide (off ≤ 0x060)

def PlaneState.code : PlaneState → Nat
  | .free => 0
  | .accumulating => 1
  | .held => 2
  | .draining => 3

/-- Tiles that wait to start their products (R177, R179). -/
def Engine.waiting (e : Engine) : List Tile := e.queue.filter fun t => !t.started

def Engine.plane (e : Engine) (p : Nat) : Plane := if p = 0 then e.plane0 else e.plane1
def Engine.setPlane (e : Engine) (p : Nat) (x : Plane) : Engine := if p = 0 then { e with plane0 := x } else { e with plane1 := x }

/-- MX_STATUS (R177). -/
def Engine.status (e : Engine) : Word :=
  BitVec.ofNat 64 (e.lastTag.toNat * 65536 + e.waiting.length * 256 + e.plane1.state.code * 4 + e.plane0.state.code)

/-- A value that counts in steps of 2,500 unless the bight's fine counters are enabled (R128). -/
def State.coarse (s : State) (c : Nat) (x : Word) : Word :=
  let fine := match s.bightOfCluster c with | some b => (s.bight b).fineCounters | none => false
  if fine then x else BitVec.ofNat 64 (x.toNat / 2500 * 2500)

/-- The cycle of the RUN that a cluster counts (R127). -/
def State.clusterCycle (s : State) (c : Nat) : Nat := s.runCycles ((s.bightOfCluster c).getD 256)

/-- MX_FEED_STALL as counted: the waits that have ended, and the one that goes on (R177, R191). -/
def State.feedStalls (s : State) (c : Nat) : Word :=
  let e := s.engine c
  e.feedStall + (match e.lateSince with | some t => BitVec.ofNat 64 (s.clusterCycle c - t) | none => 0)

/-- The array finds the entries of its next tile late, from now on (R191). -/
def State.lateFrom (s : State) (c : Nat) : State :=
  s.modEngine c fun e => { e with lateSince := some (e.lateSince.getD (s.clusterCycle c)) }

/-- The array's wait for late entries is over (R191). -/
def State.lateDone (s : State) (c : Nat) : State :=
  s.modEngine c fun e => { e with feedStall := s.feedStalls c, lateSince := none }

/-- Read a register of the control window for a core; none for an offset not in the table (R177). The TAG field of the write-only
MX_TILE_GO reads a free value, and its reserved bits read as zero (R15). -/
def State.readMx (s : State) (core off : Nat) : Option Word × State :=
  let c := clusterOf core
  let e := s.engine c
  if isStaging off then (some (Tab.look 0 (s.core core).staging off), s)
  else
    match off with
    | 0x078 => let (w, s) := s.freeWord; (some (w &&& 0xFFFF), s)
    | 0x100 => (some e.status, s)
    | 0x108 => (some e.tilesDone, s)
    | 0x110 => (some (e.accStatus.setWidth 64), s)
    | 0x118 => (some (e.lastAnchor.setWidth 64), s)
    | 0x120 => (some (s.coarse c (s.feedStalls c)), s)
    | _ => (none, s)

/-- What a write to the control window does: it is done, it stalls on a full tile queue, or it is a bus error. -/
inductive MxWrite where
  | done (s : State)
  | full
  | error
deriving DecidableEq, Repr

/-- MX_TILE_GO: the core's staging set becomes a tile, checked on entry (R179, R180); a full queue stalls the write. -/
def State.tileGo (s : State) (core : Nat) (v : Word) : MxWrite :=
  let c := clusterOf core
  let e := s.engine c
  if 8 ≤ e.waiting.length then .full
  else
    let t : Tile := { regs := (s.core core).staging, tag := v.setWidth 16, core, started := false }
    if t.malformed then .done (s.engineReport c causeEngine 0 t.tag.toNat)
    else .done (s.setEngine c { e with queue := e.queue ++ [t] })

/-- Write a register of the control window for a core; a read-only register keeps its value (R177). -/
def State.writeMx (s : State) (core off : Nat) (v : Word) : MxWrite :=
  if isStaging off then
    .done (s.modCore core fun k => { k with staging := Tab.put 0 k.staging off (v &&& stagingMask off) })
  else
    match off with
    | 0x078 => s.tileGo core v
    | 0x100 | 0x108 | 0x110 | 0x118 | 0x120 => .done s
    | _ => .error

/-! ### Engine reads (R183, R189) -/

/-- Read bytes at a core address of the own cluster: the bytes, or the address of the first word that cannot be read. -/
def State.engineRead (s : State) (c a n : Nat) : Except Nat Bytes × State :=
  let p := sramAddr c a
  let (r, s) := s.physRead agentEngine none (s.clusterPayer c) p n
  match r with
  | .ok b => (.ok b, s)
  | .error _ =>
    let bad := (List.range ((p + n + 7) / 8 - p / 8)).find? fun i =>
      s.retiredWord (p / 8 + i) || sramDecode (s.sramDisc (p / 8 + i)) == .bad
    (.error (8 * (p / 8 + bad.getD 0) - sramAddr c 0), s)

/-- Read the rows of a region. -/
def State.engineRows (s : State) (c : Nat) (r : TileRegion) : Except Nat (List Bytes) × State :=
  (List.range r.rows).foldl (fun (acc : Except Nat (List Bytes) × State) i =>
    match acc.1 with
    | .error _ => acc
    | .ok l =>
      let (x, s) := acc.2.engineRead c (r.base + i * r.stride + r.first) r.bytes
      (match x with | .ok b => .ok (l ++ [b]) | .error a => .error a, s)) (.ok [], s)

/-! ### Queue feed (R172, R173) -/

/-- Rows that core k feeds of an operand of `rows` rows. -/
def feedRows (k rows : Nat) : Nat := min 8 (rows - 8 * k)
/-- Entries of 64 bytes in a row. -/
def entriesOf (rowBytes : Nat) : Nat := divUp rowBytes 64

def Core.opQueue (k : Core) (q : Nat) : List Vec := match q with | 0 => k.q0 | 1 => k.q1 | _ => k.q2
def Core.setOpQueue (k : Core) (q : Nat) (l : List Vec) : Core :=
  match q with | 0 => { k with q0 := l } | 1 => { k with q1 := l } | _ => { k with q2 := l }

/-- Entries that core k must give for an operand. -/
def feedNeed (k rows rowBytes : Nat) : Nat := feedRows k rows * entriesOf rowBytes

/-- Take entries from the cores' queue q into the feed buffers, up to what the tile needs (R173). -/
def State.takeFeed (s : State) (c q rows rowBytes : Nat) : State :=
  (List.range 16).foldl (fun s k =>
    let core := coreOf c k
    let e := s.engine c
    let have' := Tab.look [] e.feed (2 * k + q)
    let want := feedNeed k rows rowBytes - have'.length
    let l := (s.core core).opQueue q
    let s := s.modCore core fun x => x.setOpQueue q (l.drop want)
    s.setEngine c { s.engine c with feed := Tab.put [] e.feed (2 * k + q) (have' ++ l.take want) }) s

/-- Every core has given what the tile needs of queue q. -/
def Engine.fed (e : Engine) (q rows rowBytes : Nat) : Bool :=
  (List.range 16).all fun k => decide (feedNeed k rows rowBytes ≤ (Tab.look [] e.feed (2 * k + q)).length)

/-- The rows that the feed buffers hold, and the engine without those entries. -/
def Engine.fedRows (e : Engine) (q rows rowBytes : Nat) : List Bytes × Engine :=
  let row := fun (i : Nat) =>
    let k := i / 8
    let r := feedRows k rows
    let l := Tab.look [] e.feed (2 * k + q)
    (List.range (entriesOf rowBytes)).flatMap fun j => vecBytes (l.getD (j * r + i % 8) 0)
  let feed := (List.range 16).foldl (fun f k =>
    Tab.put [] f (2 * k + q) ((Tab.look [] f (2 * k + q)).drop (feedNeed k rows rowBytes))) e.feed
  ((List.range rows).map row, { e with feed := feed })

/-! ### Products (R138 to R146, R163, R176) -/

/-- A factor of a column: its K position within the product extent and its element; none only counts as a term. -/
abbrev Factor := Nat × Option Elem

/-- The factors of a dense column. -/
def denseCol (ty n : Nat) (b : Bytes) : List Factor := (elemCodes ty n b).zipIdx.map fun e => (e.2, some (decodeElem ty e.1))

/-- The factors of a compressed column (R175, R176): a group with two positions is the dense group with zeros elsewhere; one
with a repeated position gives two products, and four terms. -/
def sparseCol (ty n : Nat) (b meta' : Bytes) : List Factor :=
  let codes := elemCodes ty (n / 2) b
  let m := leNat meta'
  (List.range (n / 4)).flatMap fun g =>
    let i0 := fieldN m (4 * g) 2
    let i1 := fieldN m (4 * g + 2) 2
    let v0 := decodeElem ty (codes.getD (2 * g) 0)
    let v1 := decodeElem ty (codes.getD (2 * g + 1) 0)
    if i0 = i1 then [(4 * g + i0, some v0), (4 * g + i1, some v1), (4 * g, none), (4 * g, none)]
    else (List.range 4).map fun i => (4 * g + i, some (if i = i0 then v0 else if i = i1 then v1 else .fin 0 0))

/-- The scale exponent of block b; 0 where the types have no scales. -/
def scaleAt (mx : Bool) (scales : List Nat) (b : Nat) : Option Int := if mx then scaleExp (scales.getD b 255) else some 0

/-- Everything a tile's products come from. -/
structure TileData where
  /-- element values of each row of A -/
  a : List (List Elem)
  /-- factors of each column of W -/
  w : List (List Factor)
  /-- scale bytes over the product extent of each row and column -/
  as : List (List Nat)
  ws : List (List Nat)
  anchor : Int

/-- The accumulator of output (i, j) over the product extent. -/
def TileData.element (d : TileData) (mx wide : Bool) (i j : Nat) : Acc :=
  let row := (d.a.getD i []).toArray
  let as := (d.as.getD i []).toArray.toList
  let ws := d.ws.getD j []
  (d.w.getD j []).foldl (fun acc f =>
    match f.2 with
    | none => { acc with terms := acc.terms + 1 }
    | some w =>
      let sc := match scaleAt mx as (f.1 / 32), scaleAt mx ws (f.1 / 32) with
        | some x, some y => some (x + y)
        | _, _ => none
      acc.addProduct wide d.anchor sc (row.getD f.1 .nan) w) {}

/-! ### Starvation (R187) -/

/-- Every core of a cluster has halted. -/
def State.allHalted (s : State) (c : Nat) : Bool := (coresOf c).all fun k => (s.core k).run == .halted

/-- The next tile queued for a plane keeps its contents. -/
def Engine.keeps (e : Engine) (p : Nat) : Bool :=
  match e.waiting.find? fun t => t.plane == p with
  | some t => t.accIn == 1
  | none => false

/-- Discard a HELD plane that the next tile queued for it does not keep. -/
def Engine.discardHeld (e : Engine) (p : Nat) : Engine :=
  if (e.plane p).state = .held ∧ e.keeps p = false then e.setPlane p {} else e

/-- A plane still HELD when every core of the cluster has halted is discarded (R186), unless a queued tile takes it up in KEEP
mode first (log 174). -/
def State.dropHeld (s : State) (c : Nat) : State :=
  if s.allHalted c then s.modEngine c fun e => (e.discardHeld 0).discardHeld 1 else s

/-- A tile waits for queue entries or pops that will not come: the command is killed, with the tile's TAG in the report
(R187, R189). -/
def State.starve (s : State) (c : Nat) (t : Tile) : State :=
  if s.allHalted c then s.engineReport c causeEngine 0 t.tag.toNat else s

/-- A queue drain waits for pops: some core's queue 2 has no room for all that it is still owed (R187). -/
def State.drainWaits (s : State) (c : Nat) (t : Tile) : Bool :=
  let p := (s.engine c).plane t.plane
  p.state == .draining && t.oQueue && (List.range 16).any fun k =>
    decide (16 - (s.core (coreOf c k)).q2.length < feedNeed k t.m t.rowBytes - Tab.look 0 p.drained k)

/-- The next tile to start waits for entries that no queue holds. -/
def State.starved (s : State) (c : Nat) : Option Tile :=
  let e := s.engine c
  match e.waiting with
  | [] => none
  | t :: _ =>
    let total := fun (q rows rowBytes : Nat) => (List.range 16).any fun k =>
      decide ((Tab.look [] e.feed (2 * k + q)).length + ((s.core (coreOf c k)).opQueue q).length < feedNeed k rows rowBytes)
    if (t.aQueue && total 0 t.m (elemBytes t.aType t.prodLen)) || (t.wQueue && total 1 t.n (elemBytes t.wType t.wElems))
    then some t else none

end Sys2Proof.Machine
end

