-- ==== Sys2Proof/Machine/CoreMem.lean ====
section
/-! DEFINITION. Loads, stores and atomics of the cores (R83 to R87, R92, R96, R105 to R110, R122, R177). -/

namespace Sys2Proof.Machine

/-! ### Addresses (R83) -/

/-- What a core address names: an offset in the own cluster's stride, a register of the control window, a virtual address, or
nothing. -/
inductive CoreAddr where
  | own (offset : Nat)
  | control (offset : Nat)
  | far (va : Nat)
  | reserved
deriving DecidableEq, Repr

/-- The core address map (R83). -/
def coreAddr (core : Nat) (w : Word) : CoreAddr :=
  let a := w.toNat
  if a < 0x06000000 then .own a
  else if 0x08000000 ≤ a ∧ a < 0x08400000 then .own (coreK core * 0x400000 + (a - 0x08000000))
  else if 0x0C000000 ≤ a ∧ a < 0x0C008000 then .control (a - 0x0C000000)
  else if 2 ^ 63 ≤ a ∧ a < 2 ^ 63 + 2 ^ 52 then .far (a % 2 ^ 52)
  else .reserved

/-- Put loaded bytes into their destination: zero- or sign-extended, a whole vector, or 32 bits in every lane (R96). -/
def Core.land (k : Core) (d : LoadDest) (b : Bytes) : Core :=
  match d with
  | .none => k
  | .scalar rd signed =>
    let w := if signed then wordOfInt (sext (8 * b.length) (leNat b)) else wordOfBytes b
    if rd = 0 then k else { k with s := Tab.put 0 k.s rd w }
  | .vector vd => { k with v := Tab.put 0 k.v vd (vecOfBytes b) }
  | .broadcast vd => { k with v := Tab.put 0 k.v vd (ofLanes (List.replicate 16 (BitVec.ofNat 32 (leNat b)))) }

/-! ### Far accesses (R85 to R87, R107) -/

/-- An earlier access of the core to the same 64-byte block must come first (R107). -/
def Core.blocked (k : Core) (va : Nat) : Bool := k.far.any fun f => f.va / 64 == va / 64

/-- Every place for a far load or store is taken (R107). -/
def Core.farFull (k : Core) (store : Bool) : Bool :=
  let n := (k.far.filter fun f => f.store == store).length
  if store then decide (16 ≤ n) else decide (8 ≤ n)

/-- What an exception of a far load takes a core back to: its state when the load issued (R121). -/
def Core.regs (k : Core) : Regs :=
  { s := k.s, v := k.v, loops := k.loops, openBundle := k.openBundle, slot0 := k.slot0, instret := k.instret,
    fflags := k.fflags, frm := k.frm, stallLimit := k.stallLimit }

/-- A core with the registers of `r`. -/
def Core.withRegs (k : Core) (r : Regs) : Core :=
  { k with
    s := r.s, v := r.v, loops := r.loops, openBundle := r.openBundle, slot0 := r.slot0, instret := r.instret,
    fflags := r.fflags, frm := r.frm, stallLimit := r.stallLimit }

/-- A core as it was when it issued a far load that failed: what later instructions did to its registers is undone (R121; log
44). -/
def Core.back (k : Core) (f : FarAccess) : Core :=
  match f.before with
  | some r => { k.withRegs r with pc := f.pc }
  | none => { k with pc := f.pc }

/-- The data of far load `req` land in the core, and in what an exception of a later far load would take it back to (R107, R121). -/
def Core.landFar (k : Core) (req : Nat) (d : LoadDest) (b : Bytes) : Core :=
  let later := fun (f : FarAccess) => { f with before := f.before.map fun r => ((k.withRegs r).land d b).regs }
  let put := k.far.foldl (fun (acc : Bool × List FarAccess) f =>
    if acc.1 then (true, acc.2 ++ [later f]) else if f.req == some req then (true, acc.2) else (false, acc.2 ++ [f])) (false, [])
  { k.land d b with far := put.2 }

/-- A far access of a core (R86): it goes out, or the core stalls for a place, at a fault, or for a frame that moves. `post`
is what the instruction does to its core's registers when it issues. -/
def State.farAccess (s : State) (core : Nat) (store : Bool) (va len : Nat) (data : Bytes) (dest : LoadDest)
    (post : Core → Core) : Did :=
  let k := s.core core
  let b := (s.bightOfCluster (clusterOf core)).getD 256
  match s.residentCmd b with
  | none => .stall s .farSlots
  | some (qn, q, c) =>
    if k.farFull store || k.blocked va then .stall s .farSlots
    else
      let s := s.forgetSteps
      let w := whoCore qn q c core
      match s.translate w va len store with
      | (.ok d, s) =>
        let a : Access := { who := w, owner := .far core, master := b, deadline := c.deadline, write := store, va, len,
                            data }
        let (id, s) := s.startAccess a d
        let f : FarAccess := { req := some id, store, va, len, data, dest, pc := k.pc,
                               before := if store then none else some k.regs }
        .done (s.modCore core fun k => post { k with far := k.far ++ [f] }) none
      | (.fault r, s) => .stall (s.faultFor w va store r) .fault
      | (.kill code, s) => .stall (s.failCmd qn c.seq code) .wake
      | (.refused, s) => .raise s causeBus subReserved unitLsu (BitVec.ofNat 64 (2 ^ 63 + va))
      | (.hold, s) => .stall s .farSlots

/-! ### Loads and stores -/

/-- A bus error at a core address. -/
def busRaise (a : Word) (s : State) (sub : Nat) : Did := .raise s causeBus sub unitLsu a

/-- A load of `n` bytes at an offset of the own cluster. -/
def State.loadOwn (s : State) (core : Nat) (a : Word) (off n : Nat) (dest : LoadDest) (post : Core → Core) : Did :=
  let c := clusterOf core
  match s.physRead agentCore none (s.clusterPayer c) (sramAddr c off) n with
  | (.ok d, s) => .done (s.modCore core fun k => post (k.land dest d)) none
  | (.error e, s) => busRaise a s e

/-- A load of `n` bytes at a register of the control window: 64-bit scalar loads only (R84, R177). -/
def State.loadControl (s : State) (core : Nat) (a : Word) (off n : Nat) (scalar : Bool) (dest : LoadDest)
    (post : Core → Core) : Did :=
  if scalar && n == 8 then
    match s.readMx core off with
    | (some w, s) => .done (s.modCore core fun k => post (k.land dest (wordBytes w))) none
    | (none, s) => busRaise a s subReserved
  else busRaise a s subReserved

/-- A store of bytes at an offset of the own cluster. -/
def State.storeOwn (s : State) (core : Nat) (a : Word) (off : Nat) (d : Bytes) (post : Core → Core) : Did :=
  let c := clusterOf core
  match s.physWrite agentCore none (s.clusterPayer c) (sramAddr c off) d with
  | (none, s) => .done (s.modCore core post) none
  | (some e, s) => busRaise a s e

/-- A store at a register of the control window: 64-bit scalar stores only (R84, R177). -/
def State.storeControl (s : State) (core : Nat) (a : Word) (off : Nat) (d : Bytes) (scalar : Bool) (post : Core → Core) :
    Did :=
  if scalar && d.length == 8 then
    match s.writeMx core off (wordOfBytes d) with
    | .done s => .done (s.modCore core post) none
    | .full => .stall s .tileQueue
    | .error => busRaise a s subReserved
  else busRaise a s subReserved

/-- An access at a core address that is not aligned to `al` raises MISALIGNED; in the control window it is a bus error (R84,
R105). -/
def misaligned (core : Nat) (a : Word) (al : Nat) (s : State) : Did :=
  match coreAddr core a with
  | .control _ => busRaise a s subReserved
  | _ => .raise s causeMisaligned 0 unitLsu a

/-- A load of `n` bytes at a core address, aligned to `al` (R84, R105). -/
def State.loadAt (s : State) (core : Nat) (a : Word) (n al : Nat) (scalar : Bool) (dest : LoadDest)
    (post : Core → Core) : Did :=
  if a.toNat % al ≠ 0 then misaligned core a al s
  else
    match coreAddr core a with
    | .own off => s.loadOwn core a off n dest post
    | .control off => s.loadControl core a off n scalar dest post
    | .far va => s.farAccess core false va n [] dest post
    | .reserved => busRaise a s subReserved

/-- A store of bytes at a core address, aligned to `al` (R84, R105, R106). -/
def State.storeAt (s : State) (core : Nat) (a : Word) (d : Bytes) (al : Nat) (scalar : Bool) (post : Core → Core) : Did :=
  if a.toNat % al ≠ 0 then misaligned core a al s
  else
    match coreAddr core a with
    | .own off => s.storeOwn core a off d post
    | .control off => s.storeControl core a off d scalar post
    | .far va => s.farAccess core true va d.length d .none post
    | .reserved => busRaise a s subReserved

def sizeBytes : Size → Nat
  | .b => 1
  | .h => 2
  | .w => 4
  | .d => 8

/-- A scalar load (R92, R96). -/
def loadScalar (i : Issue) (c : Instr) (size : Size) (signed : Bool) (rd rs1 : SReg) (imm : BitVec 14) (s : State) : Out :=
  .next (s.issue i c { unit := unitLsu, reads := [sName rs1], writes := [sName rd] } fun s k =>
    let n := sizeBytes size
    s.loadAt i.core (k.reg rs1 + scaledImm imm n) n n true (.scalar rd.val signed) id)

/-- LD.B, LD.H, LD.W, LD.D (R96): sign-extended (log 19). -/
def execLd (i : Issue) (size : Size) (rd rs1 : SReg) (imm : BitVec 14) (s : State) : Out :=
  loadScalar i (.ld (lone i) size rd rs1 imm) size true rd rs1 imm s
def sizeOfU : ULoad → Size
  | .b => .b
  | .h => .h
  | .w => .w

/-- LDU.B, LDU.H, LDU.W (R96): zero-extended (log 19). -/
def execLdu (i : Issue) (size : ULoad) (rd rs1 : SReg) (imm : BitVec 14) (s : State) : Out :=
  loadScalar i (.ldu (lone i) size rd rs1 imm) (sizeOfU size) false rd rs1 imm s

/-- ST.B, ST.H, ST.W, ST.D (R96). -/
def execSt (i : Issue) (size : Size) (rs2 rs1 : SReg) (imm : BitVec 14) (s : State) : Out :=
  .next (s.issue i (.st (lone i) size rs2 rs1 imm)
      { unit := unitLsu, reads := [sName rs1, sName rs2], writes := [], acts := true } fun s k =>
    let n := sizeBytes size
    s.storeAt i.core (k.reg rs1 + scaledImm imm n) (leBytes n (k.reg rs2).toNat) n true id)

/-- VLD (R96, R105). -/
def execVld (i : Issue) (vd : VReg) (rs1 : SReg) (imm : BitVec 14) (s : State) : Out :=
  .next (s.issue i (.vld (lone i) vd rs1 imm) { unit := unitLsu, reads := [sName rs1], writes := [vName vd] } fun s k =>
    s.loadAt i.core (k.reg rs1 + scaledImm imm 64) 64 64 false (.vector vd.val) id)

/-- VST (R96, R105). -/
def execVst (i : Issue) (vs : VReg) (rs1 : SReg) (imm : BitVec 14) (s : State) : Out :=
  .next (s.issue i (.vst (lone i) vs rs1 imm) { unit := unitLsu, reads := [sName rs1, vName vs], writes := [], acts := true } fun s k =>
    s.storeAt i.core (k.reg rs1 + scaledImm imm 64) (vecBytes (k.vreg vs)) 64 false id)

/-- VLD.PI (R96): the base register grows by the immediate's byte offset after the access. -/
def execVldPi (i : Issue) (vd : VReg) (rs1 : SReg) (imm : BitVec 14) (s : State) : Out :=
  .next (s.issue i (.vldPi (lone i) vd rs1 imm)
      { unit := unitLsu, reads := [sName rs1], writes := [vName vd, sName rs1] } fun s k =>
    s.loadAt i.core (k.reg rs1) 64 64 false (.vector vd.val) fun c => c.setReg rs1 (k.reg rs1 + scaledImm imm 64))

/-- VST.PI (R96). -/
def execVstPi (i : Issue) (vs : VReg) (rs1 : SReg) (imm : BitVec 14) (s : State) : Out :=
  .next (s.issue i (.vstPi (lone i) vs rs1 imm)
      { unit := unitLsu, reads := [sName rs1, vName vs], writes := [sName rs1], acts := true } fun s k =>
    s.storeAt i.core (k.reg rs1) (vecBytes (k.vreg vs)) 64 false fun c => c.setReg rs1 (k.reg rs1 + scaledImm imm 64))

/-- VLD.BC (R96): 32 bits, aligned to their own size (R92), in every lane. -/
def execVldBc (i : Issue) (vd : VReg) (rs1 : SReg) (imm : BitVec 14) (s : State) : Out :=
  .next (s.issue i (.vldBc (lone i) vd rs1 imm) { unit := unitLsu, reads := [sName rs1], writes := [vName vd] } fun s k =>
    s.loadAt i.core (k.reg rs1 + scaledImm imm 4) 4 4 false (.broadcast vd.val) id)

/-! ### Atomics (R109) -/

/-- The read and the write of an atomic at an offset of the own cluster (R109). -/
def State.amoAt (s : State) (core : Nat) (a : Word) (rd : SReg) (f : Word → Word) : Did :=
  let c := clusterOf core
  let p := sramAddr c a.toNat
  match s.accessError p 8 with
  | some e => busRaise a s e
  | none =>
    let s := s.activity (.cluster c) (.sramRead 8) 1 (s.clusterPayer c)
    match s.amoSram agentCore (p / 8) f with
    | (none, s) => busRaise a s subSram
    | (some old, s) =>
      .done ((s.activity (.cluster c) (.sramWrite 8) 1 (s.clusterPayer c)).modCore core fun c => c.setReg rd old) none

/-- An atomic on an aligned 64-bit word of the own cluster's shared memory (R109): the old word goes to rd, the word that `f`
makes of the old rd, the old word and rs2 is stored (log 22). -/
def amoOp (i : Issue) (c : Instr) (rd rs1 rs2 : SReg) (f : Word → Word → Word → Word) (s : State) : Out :=
  .next (s.issue i c { unit := unitLsu, reads := [sName rs1, sName rs2, sName rd], writes := [sName rd], acts := true } fun s k =>
    let a := k.reg rs1
    let ok := a.toNat % 8 == 0 && decide (0x4000000 ≤ a.toNat) && decide (a.toNat < 0x6000000)
    if !ok then .raise s causeAtomic 0 unitLsu a
    else s.amoAt i.core a rd fun old => f (k.reg rd) old (k.reg rs2))

/-- AMOADD (R96, R109). -/
def execAmoadd (i : Issue) (rd rs1 rs2 : SReg) (s : State) : Out :=
  amoOp i (.amoadd (lone i) rd rs1 rs2) rd rs1 rs2 (fun _ old x => old + x) s
/-- AMOSWAP (R96, R109). -/
def execAmoswap (i : Issue) (rd rs1 rs2 : SReg) (s : State) : Out :=
  amoOp i (.amoswap (lone i) rd rs1 rs2) rd rs1 rs2 (fun _ _ x => x) s
/-- AMOMAX (R96, R109): signed or unsigned, which the spec does not state (log 5). -/
def execAmomax (i : Issue) (rd rs1 rs2 : SReg) (s : State) : Out :=
  amoOp i (.amomax (lone i) rd rs1 rs2) rd rs1 rs2 (fun _ old x =>
    if (if Config.amoMaxSigned then old.slt x else old.ult x) then x else old) s
/-- AMOCAS (R96, R109): the word is replaced by rs2 when it equals the old rd (log 22). -/
def execAmocas (i : Issue) (rd rs1 rs2 : SReg) (s : State) : Out :=
  amoOp i (.amocas (lone i) rd rs1 rs2) rd rs1 rs2 (fun expect old x => if old = expect then x else old) s

/-! ### Completion of far accesses (R107, R122, R491) -/

/-- What a far access's result is to its core: data or nothing, a bus error, or a host error. -/
def ReqResult.forCore : ReqResult → Option (Except Nat Bytes)
  | .pending => none
  | .data d => some (.ok d)
  | .stored => some (.ok [])
  | .busError e => some (.error e)
  | .hostError => none
  | .refused => some (.error subReserved)
  | .linkDown => some (.error subReserved)
  | .lost => none

/-- FAR_ACCESS_DONE core req: an outstanding far access completes (R107, R121, R122, R429, R491). A far load of host memory that
meets a host error ends its command with HOST_ERROR, as a DMA request does (DESIGN CHOICE, log 50). -/
def execFarAccessDone (core req : Nat) (s : State) : Out :=
  let k := s.core core
  match k.far.find? (fun f => f.req == some req), s.req? req with
  | some f, some r =>
    let rest := k.far.filter fun g => g.req != some req
    let gone := (s.dropReq req).setCore core { k with far := rest }
    .next (match r.result with
      | .pending => s
      | .hostError =>
        (match s.residentCmd ((s.bightOfCluster (clusterOf core)).getD 256) with
          | some (q, _, c) => gone.failCmd q c.seq codeHostError
          | none => gone)
      | res =>
        match res.forCore with
        | none => s
        | some (.ok d) => if f.store then gone else (s.dropReq req).setCore core (k.landFar req f.dest d)
        | some (.error e) =>
          if f.store then
            gone.modCore core fun k => { k with storeError := if k.storeError.isSome then k.storeError else some (f.va, e) }
          else if k.run ≠ .running then gone
          else (gone.modCore core fun k => k.back f).raise core causeBus e unitLsu (BitVec.ofNat 64 (2 ^ 63 + f.va)))
  | _, _ => .next s

/-- FENCE.FAR (R107, R122): it issues when every far access of the core has completed, and raises a recorded store failure. -/
def execFenceFar (i : Issue) (s : State) : Out :=
  .next (s.issue i (.fenceFar (lone i)) { unit := unitSys, reads := [], writes := [] } fun s k =>
    if !k.far.isEmpty then .stall s .fence
    else
      match k.storeError with
      | some (va, e) => .raise s causeFarStore e (noUnit causeFarStore k.pc) (BitVec.ofNat 64 va)
      | none => .done s none)

end Sys2Proof.Machine
end

