-- ==== Sys2Proof/Machine/CoreNet.lean ====
section
/-! DEFINITION. Network and system instructions of the cores, their exceptions and the reports of R230 and R240 (R95, R108,
R111 to R127, R230, R648). -/

namespace Sys2Proof.Machine

/-! ### Route handles (R111 to R116) -/

/-- The injection register of a handle holds a vector (R112). -/
def Core.injectFull (k : Core) (h : Nat) : Bool := (Tab.find? k.inject h).isSome || (Tab.find? k.injectNext h).isSome

/-- SEND handle, vs (R112, R115): the vector may leave from the next bight cycle on (R213). -/
def execSend (i : Issue) (handle : BitVec 8) (vs : VReg) (s : State) : Out :=
  .next (s.issue i (.send (lone i) handle vs) { unit := unitNet, reads := [vName vs], writes := [], acts := true } fun s k =>
    let h := handle.toNat
    let e := s.handle i.core h
    if !handleDefined e || handleRecv e then .raise s causeUnbound 0 unitNet (BitVec.ofNat 64 h)
    else if handleDepth e ≤ Tab.look 0 k.creditsUsed h ∨ k.injectFull h = true then .stall s .credit
    else .done (s.modCore i.core fun c => { c with
        injectNext := Tab.set c.injectNext h (k.vreg vs), creditsUsed := Tab.put 0 c.creditsUsed h (Tab.look 0 c.creditsUsed h + 1) })
      none)

/-- RECV vd, handle (R113, R115): the handle's pending credits rise in the next bight cycle (R214). -/
def execRecv (i : Issue) (vd : VReg) (handle : BitVec 8) (s : State) : Out :=
  .next (s.issue i (.recv (lone i) vd handle) { unit := unitNet, reads := [], writes := [vName vd], acts := true } fun s k =>
    let h := handle.toNat
    let e := s.handle i.core h
    if !handleDefined e || !handleRecv e then .raise s causeUnbound 0 unitNet (BitVec.ofNat 64 h)
    else
      match Tab.look [] k.eject h with
      | [] => .stall s .empty
      | v :: rest => .done (s.modCore i.core fun c => { c.setV vd v with
          eject := Tab.put [] c.eject h rest
          creditNext := c.creditNext ++ [h] }) none)

/-! ### Operand queues (R118) -/

/-- QPUSH q, vs (R118). -/
def execQpush (i : Issue) (q : BitVec 2) (vs : VReg) (word : Flit) (s : State) : Out :=
  .next (s.issue i (.qpush (lone i) q vs word) { unit := unitNet, reads := [vName vs], writes := [], acts := true } fun s k =>
    if 2 ≤ q.toNat then .raise s causeIllegal 0 unitNet (word.setWidth 64)
    else if 16 ≤ (k.opQueue q.toNat).length then .stall s .full
    else .done (s.modCore i.core fun c => c.setOpQueue q.toNat (c.opQueue q.toNat ++ [k.vreg vs])) none)

/-- QPOP vd (R118): it takes the oldest entry of queue 2. -/
def execQpop (i : Issue) (vd : VReg) (q : BitVec 2) (word : Flit) (s : State) : Out :=
  .next (s.issue i (.qpop (lone i) vd q word) { unit := unitNet, reads := [], writes := [vName vd], acts := true } fun s k =>
    if q.toNat ≠ 2 then .raise s causeIllegal 0 unitNet (word.setWidth 64)
    else
      match k.q2 with
      | [] => .stall s .empty
      | v :: rest => .done (s.modCore i.core fun c => { c.setV vd v with q2 := rest }) none)

/-! ### Control registers (R127, R128) -/

/-- CL_CYCLE as the core reads it: in steps of 2,500 unless fine counters are enabled (R128). -/
def State.cycleSeen (s : State) (core : Nat) : Word :=
  s.coarse (clusterOf core) (BitVec.ofNat 64 (s.runCycles ((s.bightOfCluster (clusterOf core)).getD 256)))

/-- The placement of a core's bight. -/
def State.placeOf (s : State) (core : Nat) : Place := (s.bight ((s.bightOfCluster (clusterOf core)).getD 256)).place

/-- A control register's value; none for a number not in the table (R127). -/
def State.csr (s : State) (core : Nat) (n : Nat) : Option Word :=
  let k := s.core core
  let p := s.placeOf core
  match n with
  | 0x000 => some (BitVec.ofNat 64 (p.lcore core % 65536))
  | 0x001 => some (BitVec.ofNat 64 (p.shape % 256 * 65536 + p.w % 256 * 256 + p.h % 256))
  | 0x010 => some (s.cycleSeen core)
  | 0x011 => some k.instret
  | 0x020 => some (k.fflags.setWidth 64)
  | 0x021 => some (k.frm.setWidth 64)
  | 0x022 => some (k.stallLimit.setWidth 64)
  | _ => none

/-- CSRR rd, csr (R127). -/
def execCsrr (i : Issue) (rd : SReg) (csr : BitVec 12) (s : State) : Out :=
  .next (s.issue i (.csrr (lone i) rd csr) { unit := unitSys, reads := [], writes := [sName rd] } fun s k =>
    match s.csr i.core csr.toNat with
    | some w => .done (s.modCore i.core fun c => c.setReg rd w) none
    | none => .raise s causeCsr 0 (noUnit causeCsr k.pc) (csr.setWidth 64))

/-- CSRW csr, rs1 (R127): reserved bits are not kept (R15). -/
def execCsrw (i : Issue) (csr : BitVec 12) (rs1 : SReg) (s : State) : Out :=
  .next (s.issue i (.csrw (lone i) csr rs1) { unit := unitSys, reads := [sName rs1], writes := [] } fun s k =>
    let w := k.reg rs1
    match csr.toNat with
    | 0x020 => .done (s.modCore i.core fun c => { c with fflags := w.setWidth 5 }) none
    | 0x021 => .done (s.modCore i.core fun c => { c with frm := w.setWidth 2 }) none
    | 0x022 => .done (s.modCore i.core fun c => { c with stallLimit := w.setWidth 32 }) none
    | _ => .raise s causeCsr 0 (noUnit causeCsr k.pc) (csr.setWidth 64))

/-! ### Barriers (R108) -/

/-- Every core that a mask names has reached its CBAR with that mask, `self` among them. -/
def State.allReached (s : State) (c self : Nat) (m : BitVec 16) : Bool :=
  (List.range 16).all fun j =>
    !m.getLsbD j || coreOf c j == self ||
      ((s.core (coreOf c j)).barrier == some m && !(s.core (coreOf c j)).released)

/-- Release every core of the cluster that waits at a barrier with the mask (R108). -/
def State.releaseBarrier (s : State) (c : Nat) (m : BitVec 16) : State :=
  (coresOf c).foldl (fun s k =>
    if (s.core k).barrier = some m ∧ !(s.core k).released then
      s.modCore k fun x => { x with released := true, stall := none }
    else s) s

/-- CBAR m (R108): the core waits until every named core has reached its CBAR with the same mask. -/
def execCbar (i : Issue) (mask : BitVec 16) (s : State) : Out :=
  .next (s.issue i (.cbar (lone i) mask) { unit := unitSys, reads := [], writes := [], acts := true } fun s k =>
    let c := clusterOf i.core
    let pass := fun (x : Core) => { x with barrier := none, released := false }
    if k.released && k.barrier == some mask then .done (s.modCore i.core pass) none
    else if s.allReached c i.core mask then .done ((s.releaseBarrier c mask).modCore i.core pass) none
    else .stall (s.modCore i.core fun x => { x with barrier := some mask, released := false }) .barrier)

/-! ### The rest of the system instructions -/

/-- ISYNC (R95): the instruction buffer is emptied, so that it is filled again from local memory. -/
def execIsync (i : Issue) (s : State) : Out :=
  .next (s.issue i (.isync (lone i)) { unit := unitSys, reads := [], writes := [] } fun s _ =>
    .done (s.modCore i.core fun c => { c with ibuf := [] }) none)

/-- EBREAK (R126, R587): in the vendor-debug state the core halts for the debugger, where SCOPE[0] grants it (log 199); otherwise
BREAK. -/
def execEbreak (i : Issue) (s : State) : Out :=
  .next (s.issue i (.ebreak (lone i)) { unit := unitSys, reads := [], writes := [] } fun s k =>
    if s.boot.vendorDebug && s.boot.scope.getLsbD 0 then .done (s.modCore i.core fun c => { c with run := .debug }) (some k.pc)
    else .raise s causeBreak 0 (noUnit causeBreak k.pc) k.pc)

/-- What follows a core's halt for its cluster: a HELD plane is discarded, and a tile that waits for queue entries that no
core will give, or a drain that no core will take, ends the command (R186, R187). -/
def State.afterHalt (s : State) (c : Nat) : State :=
  let s := s.dropHeld c
  match s.starved c with
  | some t => s.starve c t
  | none =>
    match (s.engine c).queue with
    | t :: _ => if s.drainWaits c t then s.starve c t else s
    | [] => s

/-- HALT (R90, R122, R186): it waits for the core's far accesses, whose failed store it raises, then ends the core's part. -/
def execHalt (i : Issue) (s : State) : Out :=
  .next (s.issue i (.halt (lone i)) { unit := unitSys, reads := [], writes := [] } fun s k =>
    if !k.far.isEmpty then .stall s .fence
    else
      match k.storeError with
      | some (va, e) => .raise s causeFarStore e (noUnit causeFarStore k.pc) (BitVec.ofNat 64 va)
      | none => .done ((s.modCore i.core fun c => { c with run := .halted }).afterHalt (clusterOf i.core)) none)

/-! ### Exceptions that are commands of their own -/

/-- The unit that the report of a stalled instruction names; the spec gives system instructions none (log 5). -/
def Stall.unit (w : Stall) (pc : Word) : Nat :=
  match w with
  | .credit | .empty | .full => unitNet
  | .farSlots | .fault | .tileQueue | .wake => unitLsu
  | .barrier | .fence => noUnit causeStallLimit pc
  | .operand u => if u = unitInt then unitAlu0 else if u = unitSys then noUnit causeStallLimit pc else u

/-- STALL_LIMIT core, word (R120): the instruction that has stalled for CL_STALL_LIMIT cycles raises the exception; `word` is its
instruction word. -/
def execStallLimit (core : Nat) (word : Flit) (s : State) : Out :=
  let k := s.core core
  let b := (s.bightOfCluster (clusterOf core)).getD 256
  .next (match k.stall with
    | some (w, t) =>
      if k.run = .running ∧ k.stallLimit ≠ 0 ∧ k.stallLimit.toNat ≤ s.runCycles b - t ∧ k.insnWord = word then
        s.raise core causeStallLimit 0 (w.unit k.pc) (word.setWidth 64)
      else s
    | none => s)

/-- ILLEGAL_INSN (R93): the word at the program counter, as the core has fetched it, is `word`, whose opcode or function value the
manual does not define. A core that has fetched another word goes by that one (R95). It names no register; its exception waits
for the core's far loads only (R121, log 44). -/
def execIllegalInsn (i : Issue) (word : Flit) (s : State) : Out :=
  let insn : Insn := { unit := unitSys, reads := [], writes := [] }
  .next (if (s.issuer i insn).insnWord == word then
      s.issue i (.illegalInsn (lone i) word) insn fun s k => .raise s causeIllegal 0 (noUnit causeIllegal k.pc) (word.setWidth 64)
    else s)

/-- FETCH_EXCEPTION core (R94): the core reaches a program counter outside its local memory. -/
def execFetchException (core : Nat) (s : State) : Out :=
  let k := (s.core core).closeBundle
  .next (if s.coreReady core && !fetchable core k.pc && !k.loadsOut then (s.setCore core k).raise core causeFetch 0 7 k.pc else s)

/-- MX_TILE_GO (R177, R179, R180): an aligned 64-bit store to its address in the control window. -/
def execTileGo (i : Issue) (value : Word) (s : State) : Out :=
  .next (s.issue i (.tileGo (lone i) value) { unit := unitLsu, reads := [], writes := [], acts := true } fun s _ =>
    match s.writeMx i.core 0x078 value with
    | .done s => .done s none
    | .full => .stall s .tileQueue
    | .error => .raise s causeBus subReserved unitLsu 0x0C000078)

/-! ### Reports at the management processor (R123, R124, R189, R230, R240, R648) -/

/-- The break code of a reported cause (R123, R189, R231). -/
def codeOfCause (cause : Nat) : Nat :=
  if cause = causeBus ∨ cause = causeFarStore then codeBusError
  else if cause = causeEngine then codeEngineConfig
  else if cause = causeSched then codeSchedFault
  else codeCoreFault

/-- Every core of a bight that runs stops (R123). -/
def State.haltBight (s : State) (b : Nat) : State :=
  (s.bightCores b).foldl (fun s k =>
    if (s.core k).run = .running then s.modCore k fun x => { x with run := .stopped } else s) s

/-- The bights whose commands a fault report is about: that of the core or router, or, for an entry of a transit table, those whose
circuits use the entry (R231, log 178). -/
def State.faultBights (s : State) (id cause value : Nat) : List Nat :=
  if cause = causeSched ∧ 4096 ≤ value then (s.entryOwners id (value - 4096)).filter fun b => decide (b < 256)
  else (s.bightOfRouter id).toList

/-- A reported cause ends the command that runs in a bight, unless it is already being killed (R123, R124). -/
def State.faultEnds (s : State) (b cause : Nat) : State :=
  match (s.bight b).resident with
  | none => s
  | some (q, n, _) =>
    match s.cmd? q n with
    | none => s
    | some c => if c.live? && c.phase != .killing then (s.haltBight b).failCmd q n (codeOfCause cause) else s

/-- A fault report reaches the management processor: it is recorded, and the first of a command ends it (R123, R124). -/
def State.faultArrives (s : State) (m : LanMsg) : State :=
  let s := s.logFault 4 m.payload
  let id := (m.payload.getD 0 0).toNat % 8192
  let cause := (m.payload.getD 1 0).toNat % 256
  let s := if cause = causeSched then
      { s with mesh := { s.mesh with schedFaults := s.mesh.schedFaults + 1 } } else s
  (s.faultBights id cause (m.payload.getD 4 0).toNat).foldl (fun (s : State) b => s.faultEnds b cause) s

/-- FAULT n: the n-th Lanyard message in flight, a fault report, is received (R124, R240). -/
def execFault (n : Nat) (s : State) : Out :=
  .next (match s.lanTake n with
    | some (m, s') => if m.ty = 4 then s'.faultArrives m else s
    | none => s)

/-- The request carried by a circuit that has this number at this router, if it was a dead letter of the bight (log 190). -/
def Req.lostAt (r : Req) (b router num : Nat) : Bool :=
  r.result == .lost && (r.pay.map (·.1)) == some b &&
    (match r.circ with
      | some x => (x.src == router && x.srcNum == num) || (x.dst == router && x.dstNum == num)
      | none => false)

/-- The command that a dead letter belongs to, queue and sequence number: of the program plane the bight's resident RUN, of the
transit plane the one whose request was lost on the circuit (R229, R230, R241). -/
def State.deadLetterCmd (s : State) (p0 : Nat) : Option (Nat × Nat) :=
  let b := p0 / 2 ^ 24
  if fieldN p0 21 3 = 0 then (s.bight b).resident.map fun e => (e.1, e.2.1)
  else (s.reqs.find? fun r => r.lostAt b (fieldN p0 0 13) (fieldN p0 13 8)).bind fun r => r.pay.map fun e => e.2

/-- A dead letter reaches the management processor (R230): it is recorded and counted; the first of a command that is not
being killed kills it and breaks the bight's error fence too. -/
def State.deadLetterArrives (s : State) (m : LanMsg) : State :=
  let s := s.logFault 5 m.payload
  let s := { s with mesh := { s.mesh with deadLetters := s.mesh.deadLetters + 1 } }
  let b := (m.payload.getD 0 0).toNat / 2 ^ 24
  match s.deadLetterCmd (m.payload.getD 0 0).toNat with
  | none => s
  | some (q, n) =>
    match s.cmd? q n with
    | none => s
    | some c =>
      let asked := (s.bight b).creg.any fun e => match e with
        | .kill q' n' _ _ _ => q' == q && n' == n
        | .commit _ _ => false
      if c.live? && c.phase != .killing && !asked then
        ((if c.isRun then s.haltBight b else s).failCmd q n codeDeadLetter).breakErrorFence b codeDeadLetter (detailCmd q n)
      else s

/-- DEAD_LETTER n (R230, R241). -/
def execDeadLetter (n : Nat) (s : State) : Out :=
  .next (match s.lanTake n with
    | some (m, s') => if m.ty = 5 then s'.deadLetterArrives m else s
    | none => s)

end Sys2Proof.Machine
end

