-- ==== Sys2Proof/Machine/Security.lean ====
section
/-! DEFINITION. The commands of measurement, of HBM keys and their rotation, and of tenant removal (R592 to R607). -/

namespace Sys2Proof.Machine

/-! ### Measurement (R592, R593) -/

/-- Write 0x7031.00 for a request that ends or starts now (R593). -/
def State.measureResult (s : State) (b result : Nat) : State :=
  { s with security := { s.security with
      measureSeq := s.security.measureSeq + 1, measureBight := b, measureResult := result } }

/-- The fields of a measurement request. -/
def measurementOf (r : Bytes) : Measurement :=
  { bight := leAt r 0 1, kind := leAt r 1 1, index := leAt r 2 1, asid := leAt r 4 2, va := leAt r 8 8, len := leAt r 0x10 8 }

/-- A measurement request breaks the layout of R592. -/
def measureBad (r : Bytes) : Bool :=
  let m := measurementOf r
  !allZero (slice r 3 1) || !allZero (slice r 6 2) || !allZero (slice r 0x18 8) || decide (3 < m.index) ||
    (match m.kind with
      | 1 => m.asid != 0 || m.va != 0 || m.len != 0
      | 2 => m.va == 0 || m.len == 0 || m.va % 65536 != 0 || m.len % 65536 != 0
      | _ => true)

/-- A SHADOW object of a range is OPEN (R593). -/
def State.openIn (s : State) (m : Measurement) : Bool :=
  (s.leavesOf m.asid m.va m.len).any fun e => leafShadow e.2.2 && (s.object (leafF e.2.2 44 20)).isOpen

/-- A write of 0x7030.00 (R592, R593, R654). -/
def putMeasure (r : Bytes) : Act := fun s =>
  let m := measurementOf r
  if r.length ≠ 32 then (dLength, s)
  else if s.errors.rootstock then (dRefused, s)
  else if measureBad r then (dOk, s.measureResult m.bight 1)
  else if (s.bight m.bight).state = .free then (dOk, s.measureResult m.bight 2)
  else if m.kind = 2 ∧ s.contextOf (s.bight m.bight).owner m.asid = false then (dOk, s.measureResult m.bight 1)
  else if s.security.measuring.isSome then (dOk, s.measureResult m.bight 3)
  else if m.kind = 2 ∧ s.openIn m = true then (dOk, s.measureResult m.bight 5)
  else
    let s := s.measureResult m.bight 0
    (dOk, { s with security := { s.security with measuring := some m } })

/-- MEASURE (R592). -/
def execMeasure (via : Via) (request : Bytes) (s : State) : Out := .next (s.objWrite via true true (putMeasure request))

/-- Who reads weights (R592): master 306 at class 3, which sees committed frames. -/
def whoMeasures (asid : Nat) : Who := whoModule asid

/-- The bytes of a weight measurement, in blocks of 4 KiB; none where a page is not present or not readable, or a word is
uncorrectable (R593). -/
def State.measureBytes (w : Who) : Nat → State → Nat → HostAns → Got Bytes × State
  | 0, s, _, _ => (.ok [], s)
  | n + 1, s, va, ans =>
    match s.translate w va 4096 false with
    | (.ok d, s) =>
      (match s.readDest w agentDma 4096 d ans with
        | (.ok (b, ans), s) =>
          (match State.measureBytes w n s (va + 4096) ans with
            | (.ok b2, s) => (.ok (b ++ b2), s)
            | r => r)
        | (.fault, s) => (.held, s)
        | (.code _, s) => (.bad, s))
    | (.hold, s) => (.held, s)
    | (_, s) => (.bad, s)

/-- The image's own length (R252), if its header can be read. -/
def State.measureProgram (s : State) (b : Nat) : Got Bytes × State :=
  let a := (s.bight b).family
  match s.readImage .base a 64 with
  | (.ok h, s) => s.readImage .base a (leAt h 0x10 8)
  | r => r

/-- MEASURE_DONE answer (R593): the measurement that runs ends; `answer` holds what the host returns for pages of its memory. -/
def execMeasureDone (answer : HostAns) (s : State) : Out :=
  .next (match s.security.measuring with
    | none => s
    | some m =>
      let (d, s) :=
        if m.kind = 1 then s.forgetSteps.measureProgram m.bight
        else if 2 ^ 52 < m.va + m.len then (Got.bad, s)
        else State.measureBytes (whoMeasures m.asid) (m.len / 4096) s.forgetSteps m.va answer
      let done := fun (s : State) (r : Nat) => { s with security := { s.security with measuring := none, measureResult := r
                                                                                      measureBight := m.bight } }
      match d with
      | .held => s
      | .bad => done s 4
      | .ok bytes =>
        done (s.modBight m.bight fun x =>
          if m.kind = 1 then { x with program := some (Crypto.sha384 bytes) }
          else { x with weights := Tab.set x.weights m.index (Crypto.sha384 bytes, m.len) }) 0)

/-! ### Key slots (R594 to R598) -/

def KeySlot.keyAt (k : KeySlot) (g : Bool) : Option (BitVec 512) := if g then k.key1 else k.key0
def KeySlot.refsAt (k : KeySlot) (g : Bool) : Nat := if g then k.refs1 else k.refs0

/-- A generation becomes empty; a request to zeroize it is met. -/
def KeySlot.drop (k : KeySlot) (g : Bool) : KeySlot :=
  if g then { k with key1 := none, erase1 := none } else { k with key0 := none, erase0 := none }

/-- A write of 0x7100 + s .01 or .02 (R598, R610). -/
def putKey (slot : Nat) (g : Bool) (key : Bytes) : Act := fun s =>
  let k := s.keySlot slot
  if key.length ≠ 64 then (dLength, s)
  else if (k.keyAt g).isSome then (dRefused, s)
  else if slice key 0 32 = slice key 32 32 then (dRefused, s)
  else
    let v := some (BitVec.ofNat 512 (leNat key))
    (dOk, s.setKeySlot slot (if g then { k with key1 := v } else { k with key0 := v }))

/-- An object of a key slot answers only for slots 0 to 63 (R610). -/
def State.slotWrite (s : State) (via : Via) (slot : Nat) (act : Act) : State :=
  s.objWrite via false true (if slot < 64 then act else fun s => (dNoObject, s))

/-- KEY_WRITE slot gen (R598). -/
def execKeyWrite (via : Via) (slot gen : Nat) (key : Bytes) (s : State) : Out :=
  .next (s.slotWrite via slot (if gen < 2 then putKey slot (gen == 1) key else fun s => (dNoSubindex, s)))

/-- A write of 0x7100 + s .00 (R598). -/
def putKeyOwner (slot : Nat) (v : BitVec 8) : Act := fun s =>
  let k := s.keySlot slot
  if v ≠ 0xFF ∧ 64 ≤ v.toNat then (dRange, s)
  else if k.key0.isSome || k.key1.isSome then (dRefused, s)
  else (dOk, s.setKeySlot slot { k with owner := if v = 0xFF then none else some v.toNat })

/-- KEY_OWNER_WRITE slot (R598). -/
def execKeyOwnerWrite (via : Via) (slot : Nat) (value : BitVec 8) (s : State) : Out :=
  .next (s.slotWrite via slot (putKeyOwner slot value))

/-- A write of 0x7100 + s .05 (R598): a request holds for a generation that holds a key. -/
def putZeroize (slot : Nat) (v : BitVec 8) : Act := fun s =>
  let k := s.keySlot slot
  if k.rotating then (dRefused, s)
  else
    (dOk, s.setKeySlot slot { k with
      erase0 := if v.getLsbD 0 && k.key0.isSome && k.erase0.isNone then some s.now else k.erase0
      erase1 := if v.getLsbD 1 && k.key1.isSome && k.erase1.isNone then some s.now else k.erase1 })

/-- KEY_ZEROIZE slot (R598). -/
def execKeyZeroize (via : Via) (slot : Nat) (value : BitVec 8) (s : State) : Out :=
  .next (s.slotWrite via slot (putZeroize slot value))

/-! ### Erasure (R598, R602, R605, R606) -/

/-- The reads that hold a reference to a generation. -/
def State.readsOf (s : State) (slot : Nat) (g : Bool) : List Nat :=
  (List.filter (fun r : Req => !r.write && r.key == some (slot, g) && r.result == .pending) s.reqs).map (·.id)

/-- Erase a generation; reads that still hold a reference to it deliver poison, those whose data are on their way back, too (R598). -/
def State.eraseKey (s : State) (slot : Nat) (g : Bool) : State :=
  let ids := s.readsOf slot g
  let s := (s.modKeySlot slot fun k => k.drop g).ungate ids
  let s := { s with mesh := { s.mesh with transit := s.mesh.transit.map fun v =>
      if v.result != .pending && v.req.any ids.contains then { v with result := .busError subPoison } else v } }
  ids.foldl (fun (s : State) id => s.arriveReq id (.busError subPoison)) s

/-- The requests that a removal's drain counter counts: those that use function n's translations and have not finished (R605). -/
def State.drainReqs (s : State) (n : Nat) : List Nat :=
  (List.filter (fun r : Req => r.fn == n && r.result == .pending) s.reqs).map (·.id)

/-- The drain counter (R605). -/
def State.drainCount (s : State) (n : Nat) : Nat :=
  (s.drainReqs n).length +
    ((Tab.vals s.security.slots).map fun (k : KeySlot) => if k.owner = some n then k.refs0 + k.refs1 else 0).sum

/-- Erase both generations of every key slot of a function; rotations of these are abandoned, and what is outstanding outlives
its keys (R605, R606). -/
def State.eraseOwned (s : State) (n : Nat) : State :=
  let s := { s with security := { s.security with
    slots := Tab.mapPut {} (fun (_ : Nat) (k : KeySlot) =>
      if k.owner == some n then
        { k with key0 := none, key1 := none, erase0 := none, erase1 := none, rotating := false, retiring := false,
                 asids := [], ahead := [], moving := none }
      else k) s.security.slots } }
  { s with reqs := s.reqs.map fun (r : Req) => if r.fn == n && r.result == .pending then { r with late := true } else r }

/-- The time for the erase of a removal under DRAIN has come (R605): the counter is zero, or 1 ms after its invalidations. -/
def State.removalErases (s : State) (n since : Nat) : Bool := s.drainCount n == 0 || decide (since + 1000000 ≤ s.now)

/-- The old generation of a rotation is erased and the rotation completes (R602). -/
def State.endRotation (s : State) (slot : Nat) : State :=
  let old := !(s.keySlot slot).gen
  let s := s.eraseKey slot old
  (s.modKeySlot slot fun k => { k with rotating := false, retiring := false, asids := [], ahead := [], moving := none }).cause 0 4

/-- A zeroized generation is due (R598): outside a rotation, at a count of zero or 1 ms after the request. -/
def State.zeroizeDue (s : State) (slot : Nat) (g : Bool) : Bool :=
  let k := s.keySlot slot
  !k.rotating &&
    match if g then k.erase1 else k.erase0 with
    | some t => k.refsAt g == 0 || decide (t + 1000000 ≤ s.now)
    | none => false

/-- KEY_ERASE slot gen (R598, R602, R605): a generation whose erase is due is erased. -/
def execKeyErase (slot gen : Nat) (s : State) : Out :=
  let g := gen == 1
  let k := s.keySlot slot
  let removed := match s.security.removal with
    | some r => if k.owner = some r.fn ∧ s.removalErases r.fn r.since = true then some r.fn else none
    | none => none
  .next (match removed with
    | some n => (s.eraseOwned n).removalStep
    | none =>
      if k.retiring && g != k.gen && k.refsAt g == 0 then s.endRotation slot
      else if s.zeroizeDue slot g then s.eraseKey slot g
      else s)

/-! ### Rotation (R599 to R603) -/

/-- A write of 0x7100 + s .04 (R599). -/
def putRotation (slot : Nat) (r : Bytes) : Act := fun s =>
  let k := s.keySlot slot
  let n := leAt r 0 1
  let asids := (List.range n).map fun i => leAt r (8 + 2 * i) 2
  if r.length ≠ 40 then (dLength, s)
  else if n = 0 ∨ 16 < n ∨ allZero (slice r 1 7) = false ∨ allZero (slice r (8 + 2 * n) (32 - 2 * n)) = false then (dRange, s)
  else if k.rotating || (k.keyAt (!k.gen)).isNone || !(asids.all fun a => k.owner.any fun f => s.contextOf f a) then (dRefused, s)
  else (dOk, s.setKeySlot slot { k with gen := !k.gen, rotating := true, retiring := false, asids, ahead := [], moving := none, moved := 0 })

/-- KEY_ROTATION slot (R599, R600). -/
def execKeyRotation (via : Via) (slot : Nat) (request : Bytes) (s : State) : Out :=
  .next (s.slotWrite via slot (putRotation slot request))

/-- The entry at an address of a table, as memory holds it (log 186); while its channel group is not ON a rotation waits for it
(R603). -/
def State.tableEntry (s : State) (a : Nat) : Got (BitVec 128) :=
  let on := match regionOf a with | .hbm g => s.groupOn g && (s.accessError a 16).isNone | _ => false
  if !on then .held
  else
    match s.peek a 16 with
    | some b => .ok (BitVec.ofNat 128 (leNat b))
    | none => .bad

/-- A leaf of a walk over a context's tables: its virtual address, its level, the address of its entry, and the entry. -/
structure FoundLeaf where
  va : Nat
  level : Nat
  addr : Nat
  leaf : BitVec 128
deriving DecidableEq, Repr

/-- One list after another; none where one of them is not known. -/
def joinAll {α : Type} (l : List (Option (List α))) : Option (List α) :=
  l.foldr (fun x acc => x.bind fun x => acc.map fun y => x ++ y) (some [])

/-- The present leaves below a table, in ascending virtual address (R350, R600); none while an entry has to be waited for. -/
def State.leavesBelow (s : State) : Nat → Nat → Nat → Option (List FoundLeaf)
  | level, base, va =>
    joinAll <| (List.range (2 ^ indexBits level)).map fun i =>
      let va := va + i * 2 ^ pageBits level
      let a := base + 16 * i
      match s.tableEntry a with
      | .held => none
      | .bad => some []
      | .ok e =>
        if entryReserved e || !leafV e then some []
        else if leafBit e then if leafBad e level s.objOn then some [] else some [{ va, level, addr := a, leaf := e }]
        else
          match level with
          | 0 => some []
          | l + 1 =>
            let next := leafF e 64 39 * 512
            if next % tableSize l ≠ 0 ∨ hbmLimit < next + tableSize l then some [] else State.leavesBelow s l next va

/-- The present leaves of a context (R349, R600); none while an entry has to be waited for. -/
def State.leavesOfContext (s : State) (asid : Nat) : Option (List FoundLeaf) :=
  if !s.ctxOn then some []
  else
    match s.tableEntry (s.ctxBase + 16 * asid) with
    | .held => none
    | .bad => some []
    | .ok e => if !e.getLsbD 72 || contextBad e then some [] else s.leavesBelow 3 (fieldN e.toNat 0 48) 0

/-- A frame that a rotation is to move: its context, its leaf, and which of the leaf's frames. -/
structure Move where
  asid : Nat
  at' : FoundLeaf
  idx : Nat
deriving DecidableEq, Repr

/-- The names of a frame in a slot's list of frames to move first (R601). -/
def Move.id (m : Move) : Nat × Nat := (m.asid * 2 ^ 52 + m.at'.addr, m.idx)

/-- The bit of a leaf's low word that holds the generation of a frame, and where the frame's number begins (R351). -/
def genBit (idx : Nat) : Nat := if idx = 0 then 42 else 43
def frameLo (idx : Nat) : Nat := if idx = 0 then 64 else 96

/-- The frames of a leaf that a rotation of a slot has still to move (R600). -/
def KeySlot.framesOf (k : KeySlot) (slot a : Nat) (l : FoundLeaf) : List Move :=
  if leafEnc l.leaf && leafF l.leaf 36 6 == slot then
    ((if leafShadow l.leaf then [0, 1] else [0]).filter fun i => l.leaf.getLsbD (genBit i) != k.gen).map fun i =>
      { asid := a, at' := l, idx := i }
  else []

/-- The frames that a rotation of a slot has still to move, in the order of its walk (R600); none while the walk has to wait for a
table in a channel group that is not ON (R603). -/
def State.movesLeft (s : State) (slot : Nat) : Option (List Move) :=
  let k := s.keySlot slot
  (joinAll (k.asids.map fun a => (s.leavesOfContext a).map fun l => l.map fun l => (a, l))).map fun l =>
    l.flatMap fun e => k.framesOf slot e.1 e.2

/-- The move that comes next (R600, R601): a frame that a held write waits for goes ahead of the walk. -/
def State.nextMove (s : State) (slot : Nat) : Option Move :=
  let l := (s.movesLeft slot).getD []
  match (s.keySlot slot).ahead.find? fun i => l.any fun m => m.id == i with
  | some i => List.find? (fun m : Move => m.id == i) l
  | none => l.head?

/-- The frame of a move, before a code word of it is moved. -/
def Move.begin (m : Move) : Moving :=
  { asid := m.asid, va := m.at'.va, level := m.at'.level, addr := m.at'.addr, idx := m.idx,
    start := leafF m.at'.leaf (frameLo m.idx) 32 * 65536 }

/-- The length of a frame. -/
def Moving.len (m : Moving) : Nat := 2 ^ pageBits m.level

/-- An access to a frame that was translated before its lock has not finished (R378, R600); the move's own are no such. -/
def State.frameBusy (s : State) (m : Moving) : Bool :=
  s.reqs.any fun r => r.result == .pending && !(r.master == 306 && r.step != .no) &&
    match r.target with
    | .hbm a => decide (m.start ≤ a) && decide (a < m.start + m.len)
    | _ => false

/-- Every channel group that a move needs is ON (R603). -/
def State.moveOn (s : State) (m : Moving) : Bool :=
  let on := fun (a : Nat) => match regionOf a with | .hbm g => s.groupOn g && (s.accessError a 1).isNone | _ => true
  on m.start && on m.addr

/-- The leaf of a frame that is being moved, while it names the frame (R603). -/
def State.movingLeaf (s : State) (slot : Nat) (m : Moving) : Option (BitVec 128) :=
  match s.tableEntry m.addr with
  | .ok e =>
    if leafV e && leafBit e && leafEnc e && leafF e 36 6 == slot && leafF e (frameLo m.idx) 32 * 65536 == m.start then some e
    else none
  | _ => none

/-- The request that reads, or with data writes, one code word of a frame under a generation: of master 306 at class 3 (R600). -/
def moveReq (slot fn : Nat) (g : Bool) (a : Nat) (data : Option Bytes) : Req :=
  { ownReq a 64 with key := some (slot, g), fn, write := data.isSome, data := data.getD [], asAgent := some agentDma }

/-- Read one code word under the old generation and write it back in place under the new (R600): the answer says whether that is done.
A code word that cannot be corrected stays as it is. -/
def State.moveWord (s : State) (slot fn : Nat) (g : Bool) (a : Nat) : Bool × State :=
  match s.forgetSteps.stepAccess (moveReq slot fn (!g) a none) a none with
  | (none, s) => (false, s)
  | (some (.data d), s) =>
    (match s.stepAccess (moveReq slot fn g a (some d)) a none with
      | (none, s) => (false, s)
      | (some _, s) => (true, s))
  | (some _, s) => (true, s)

/-- Move code words of a frame from the first that is left on, as far as the gate lets them go. -/
def State.moveWords (slot fn : Nat) (g : Bool) (start : Nat) : Nat → Nat → State → Nat × State
  | 0, i, s => (i, s)
  | n + 1, i, s =>
    match s.moveWord slot fn g (start + 64 * i) with
    | (true, s) => State.moveWords slot fn g start n (i + 1) s
    | (false, s) => (i, s)

/-- The end of a move (R600): the leaf's generation bit, and the cached entries go. -/
def State.endMove (s : State) (slot : Nat) (m : Moving) (leaf : BitVec 128) : State :=
  let bit : BitVec 128 := 1 <<< genBit m.idx
  let leaf := if (s.keySlot slot).gen then leaf ||| bit else leaf &&& ~~~bit
  let s := s.forgetSteps.ownWrite m.addr (leBytes 8 (leaf.toNat % 2 ^ 64))
  let s := s.uncacheScope (.range m.asid (m.va / 65536) (m.len / 65536))
  s.modKeySlot slot fun k => { k with
    moved := k.moved + 1, moving := none, ahead := k.ahead.filter fun i => i != (m.asid * 2 ^ 52 + m.addr, m.idx) }

/-- A frame that is being moved goes on (R600, R603): it waits for the accesses translated before its lock; one that has been withdrawn
is skipped. -/
def State.moveOnward (s : State) (slot : Nat) (m : Moving) : State :=
  let k := s.keySlot slot
  if !s.moveOn m then s
  else
    match s.movingLeaf slot m with
    | none => s.modKeySlot slot fun k => { k with moving := none }
    | some leaf =>
      if s.frameBusy m then s
      else
        let (done, s) := State.moveWords slot (k.owner.getD 0) k.gen m.start (m.len / 64 - m.done) m.done s
        if done = m.len / 64 then s.endMove slot m leaf
        else s.modKeySlot slot fun k => { k with moving := some { m with done } }

/-- FRAME_MOVE slot (R600, R601, R603): the move of a rotation's next frame begins, with its lock, or goes on. -/
def execFrameMove (slot : Nat) (s : State) : Out :=
  let k := s.keySlot slot
  .next (if !k.rotating || k.retiring then s
    else
      match k.moving with
      | some m => s.moveOnward slot m
      | none =>
        match s.nextMove slot with
        | none => s
        | some m =>
          let m := m.begin
          if s.moveOn m then
            (s.modKeySlot slot fun k => { k with moving := some m }).uncacheScope (.range m.asid (m.va / 65536) (m.len / 65536))
          else s)

/-- ROTATION_COMPLETE slot (R602): no frame is left to move, and the old generation retires; with no reference left it is erased. -/
def execRotationComplete (slot : Nat) (s : State) : Out :=
  let k := s.keySlot slot
  .next (if !k.rotating || k.retiring || k.moving.isSome || (s.movesLeft slot).any (fun l => !l.isEmpty) ||
      (s.movesLeft slot).isNone then s
    else if k.refsAt (!k.gen) = 0 then s.endRotation slot
    else s.setKeySlot slot { k with retiring := true })

/-! ### Tenant removal (R604 to R607) -/

/-- The contexts of a function. -/
def State.contextsOf (s : State) (fn : Nat) : List Nat := (List.range 4096).filter fun a => s.contextOf fn a

/-- Close the inbound windows whose ASID is a context of a function (R605, step 3). -/
def State.closeWindowsOf (s : State) (fn : Nat) (abort : Bool) : State :=
  (Tab.keys s.xlat.inbound).foldl (fun (s : State) w =>
    if s.contextOf fn (s.inWin w).asid then s.closeInbound w abort else s) s

/-- The steps of a removal up to the issue of its invalidations, and under ABORT the erase of the keys (R605). -/
def State.beginRemoval (s : State) (n : Nat) (abort : Bool) : State :=
  let s := (s.queuesOfFn n).foldl (fun (s : State) q => s.modQueue q fun x => { x with running := false }) s
  let s := s.modFn n fun f => { f with aper := f.aper &&& ~~~0x8000000000000000 }
  let s := s.breakOwned (s.contextOf n)
  let s := (s.queuesOfFn n).foldl (fun (s : State) q => s.killQueue q) s
  let s := (s.closeWindowsOf n abort).slotsGone (s.contextOf n)
  let s := (s.dropFnFaults n).modFn n fun f => { f with ringBase := f.ringBase &&& ~~~0x10, ringOverflowed := false, batch := none }
  let s := (s.contextsOf n).foldl (fun (s : State) a => s.invalidate .removal abort (.asid a)) s
  let s := { s with security := { s.security with
    removal := some { fn := n, abort, since := s.now, bights := s.bightsOfFn n }
    removalSeq := s.security.removalSeq + 1, removalFn := n, removalState := 1, removalResult := 0 } }
  (if abort then s.eraseOwned n else s).removalStep

/-- A write of 0x7040.00 (R604). -/
def putRemoval (v : BitVec 16) : Act := fun s =>
  let n := v.toNat % 64
  let refuse := fun (s : State) (r : Nat) =>
    (dRefused, { s with security := { s.security with removalSeq := s.security.removalSeq + 1, removalResult := r } })
  if n = 0 then refuse s 1
  else if s.security.removal.isSome then refuse s 3
  else (dOk, s.beginRemoval n (v.getLsbD 8))

/-- TENANT_REMOVAL (R604, R605). -/
def execTenantRemoval (via : Via) (value : BitVec 16) (s : State) : Out :=
  .next (s.objWrite via false false (putRemoval value))

end Sys2Proof.Machine
end

