-- ==== Sys2Proof/Machine/DictTable.lean ====
section
/-! DEFINITION. The object dictionary's table: every object with its type, access right and level, as the chapters list them
(R82, R243, R288, R314, R346, R388, R433, R470, R515, R538, R571, R610, R613, R633, R635, R658). -/

namespace Sys2Proof.Machine

/-- The object types (R613). -/
inductive Ty where
  | u8 | u16 | u32 | u64 | i16 | i32 | octet (n : Nat)
deriving DecidableEq, Repr

/-- The type code and the length in bytes (R613). -/
def Ty.code : Ty → Nat
  | .u8 => 1
  | .u16 => 2
  | .u32 => 3
  | .u64 => 4
  | .i16 => 5
  | .i32 => 6
  | .octet _ => 7

def Ty.len : Ty → Nat
  | .u8 => 1
  | .u16 => 2
  | .u32 => 4
  | .u64 => 8
  | .i16 => 2
  | .i32 => 4
  | .octet n => n

/-- The access rights that objects have (R614); no object of the manual is RWC. -/
inductive Rights where
  | ro | rw | wo
deriving DecidableEq, Repr

/-- The code of a right in a DESCRIBE (R624). -/
def Rights.code : Rights → Nat
  | .ro => 0
  | .rw => 1
  | .wo => 2

/-- A row of an object table: `count` indexes from `index` on, each with the subindices `lo` to `hi`. -/
structure ObjRow where
  index : Nat
  count : Nat
  lo : Nat
  hi : Nat
  ty : Ty
  acc : Rights
  expert : Bool
deriving DecidableEq, Repr

/-- Identity and communication (R3, R4, R391, R395, R633). -/
def rowsIdentity : List ObjRow := [
  ⟨0x1000, 1, 0x01, 0x01, .u16, .ro, false⟩, ⟨0x1000, 1, 0x02, 0x03, .u8, .ro, false⟩,
  ⟨0x1003, 1, 0x00, 0x00, .u16, .ro, false⟩, ⟨0x1003, 1, 0x01, 0x10, .u32, .ro, false⟩,
  ⟨0x1010, 1, 0x00, 0x00, .u16, .ro, false⟩,
  ⟨0x1011, 1, 0x01, 0x01, .u32, .rw, false⟩, ⟨0x1011, 1, 0x02, 0x02, .u8, .rw, false⟩,
  ⟨0x1011, 1, 0x03, 0x03, .u32, .rw, false⟩, ⟨0x1011, 1, 0x04, 0x04, .u16, .rw, false⟩,
  ⟨0x1011, 1, 0x05, 0x05, .u8, .rw, false⟩,
  ⟨0x1012, 1, 0x00, 0x00, .octet 6, .ro, false⟩,
  ⟨0x1014, 1, 0x01, 0x04, .octet 32, .wo, true⟩, ⟨0x1014, 1, 0x05, 0x05, .u8, .ro, false⟩,
  ⟨0x1015, 1, 0x01, 0x02, .u8, .rw, false⟩,
  ⟨0x1017, 1, 0x01, 0x04, .u32, .ro, false⟩,
  ⟨0x1020, 1, 0x01, 0x3F, .u8, .rw, true⟩, ⟨0x1021, 1, 0x00, 0x3F, .u64, .rw, true⟩,
  ⟨0x1030, 1, 0x01, 0x04, .u32, .rw, false⟩]

/-- Frame and energy (R82). -/
def rowsFrame : List ObjRow := [
  ⟨0x2001, 1, 0x00, 0x00, .u8, .rw, false⟩,
  ⟨0x2010, 1, 0x00, 0x00, .u64, .ro, false⟩, ⟨0x2010, 1, 0x01, 0x01, .u16, .ro, false⟩,
  ⟨0x2010, 1, 0x02, 0x02, .u32, .ro, false⟩,
  ⟨0x2011, 1, 0x00, 0x00, .u32, .rw, false⟩, ⟨0x2011, 1, 0x01, 0x01, .u32, .ro, false⟩,
  ⟨0x2012, 1, 0x00, 0x00, .u64, .wo, true⟩,
  ⟨0x2013, 1, 0x01, 0x03, .u32, .ro, true⟩,
  ⟨0x2020, 1, 0x00, 0x00, .u32, .rw, false⟩, ⟨0x2020, 1, 0x01, 0x02, .u32, .ro, false⟩,
  ⟨0x2021, 1, 0x00, 0x00, .u32, .ro, false⟩,
  ⟨0x2050, 1, 0x01, 0x10, .u16, .ro, true⟩, ⟨0x2051, 1, 0x00, 0x00, .u16, .ro, true⟩,
  ⟨0x2100, 256, 0x00, 0x00, .u32, .rw, false⟩, ⟨0x2100, 256, 0x01, 0x01, .u32, .ro, false⟩,
  ⟨0x2100, 256, 0x02, 0x02, .i32, .ro, true⟩, ⟨0x2100, 256, 0x03, 0x04, .u32, .ro, false⟩,
  ⟨0x2100, 256, 0x05, 0x05, .u32, .ro, true⟩, ⟨0x2100, 256, 0x06, 0x06, .u32, .rw, true⟩,
  ⟨0x2100, 256, 0x07, 0x07, .u16, .rw, false⟩, ⟨0x2100, 256, 0x08, 0x09, .u32, .ro, true⟩]

/-- Domains (R42, R45) and power (R571). -/
def rowsPower : List ObjRow := [
  ⟨0x3000, 1, 0x00, 0x00, .u32, .ro, false⟩,
  ⟨0x3001, 1, 0x00, 0x00, .u32, .rw, false⟩, ⟨0x3001, 1, 0x01, 0x02, .u32, .ro, false⟩,
  ⟨0x3002, 1, 0x00, 0x00, .u8, .rw, false⟩, ⟨0x3003, 1, 0x00, 0x00, .u8, .rw, true⟩,
  ⟨0x3004, 1, 0x00, 0x00, .u16, .ro, false⟩, ⟨0x3005, 1, 0x00, 0x00, .u32, .ro, true⟩,
  ⟨0x3010, 1, 0x01, 0x01, .u16, .ro, false⟩, ⟨0x3010, 1, 0x02, 0x03, .u32, .ro, false⟩,
  ⟨0x3010, 1, 0x04, 0x04, .u32, .ro, true⟩, ⟨0x3010, 1, 0x05, 0x05, .u16, .ro, true⟩,
  ⟨0x3020, 1, 0x01, 0x4D, .u16, .ro, true⟩, ⟨0x3021, 1, 0x01, 0x4D, .u32, .ro, true⟩,
  ⟨0x3022, 1, 0x00, 0x00, .u32, .ro, true⟩,
  ⟨0x3030, 1, 0x01, 0x20, .i16, .ro, false⟩, ⟨0x3031, 1, 0x00, 0x00, .u32, .ro, true⟩,
  ⟨0x3040, 1, 0x01, 0x10, .u16, .ro, false⟩, ⟨0x3041, 1, 0x01, 0x10, .u8, .ro, true⟩,
  ⟨0x3042, 1, 0x00, 0x00, .u16, .ro, false⟩, ⟨0x3050, 1, 0x01, 0x20, .u32, .ro, true⟩,
  ⟨0x3100, 1, 0x00, 0x00, .u8, .ro, false⟩, ⟨0x3100, 1, 0x01, 0x29, .u32, .ro, false⟩,
  ⟨0x3101, 1, 0x01, 0x10, .u32, .rw, false⟩, ⟨0x3102, 1, 0x00, 0x00, .u32, .wo, true⟩,
  ⟨0x3200, 256, 0x00, 0x00, .u8, .rw, false⟩, ⟨0x3200, 256, 0x01, 0x01, .u8, .ro, false⟩,
  ⟨0x3200, 256, 0x02, 0x02, .u8, .ro, true⟩]

/-- Bights (R288, R424, R470), host objects (R433), execution (R470) and the mesh (R243). -/
def rowsBights : List ObjRow := [
  ⟨0x4000, 1, 0x00, 0x00, .u16, .ro, false⟩, ⟨0x4001, 1, 0x01, 0x08, .u32, .ro, false⟩,
  ⟨0x4010, 1, 0x00, 0x00, .u64, .wo, false⟩, ⟨0x4011, 1, 0x00, 0x00, .u32, .ro, false⟩,
  ⟨0x4012, 1, 0x00, 0x00, .u16, .wo, false⟩,
  ⟨0x4100, 256, 0x00, 0x00, .u8, .ro, false⟩, ⟨0x4100, 256, 0x01, 0x01, .u32, .ro, false⟩,
  ⟨0x4100, 256, 0x02, 0x02, .u8, .ro, false⟩, ⟨0x4100, 256, 0x03, 0x04, .u64, .ro, false⟩,
  ⟨0x4100, 256, 0x05, 0x05, .u32, .rw, true⟩, ⟨0x4100, 256, 0x06, 0x06, .u32, .ro, false⟩,
  ⟨0x4100, 256, 0x07, 0x07, .u32, .ro, true⟩, ⟨0x4100, 256, 0x08, 0x08, .u32, .rw, true⟩,
  ⟨0x4100, 256, 0x09, 0x09, .u64, .ro, true⟩, ⟨0x4100, 256, 0x0A, 0x0A, .u32, .ro, true⟩,
  ⟨0x4100, 256, 0x0B, 0x0B, .u16, .rw, false⟩, ⟨0x4100, 256, 0x0C, 0x0C, .u32, .rw, false⟩,
  ⟨0x4100, 256, 0x0D, 0x0D, .u8, .rw, false⟩, ⟨0x4100, 256, 0x0E, 0x10, .u32, .ro, true⟩,
  ⟨0x4200, 1, 0x00, 0x00, .u64, .wo, false⟩, ⟨0x4201, 1, 0x00, 0x00, .u32, .ro, false⟩,
  ⟨0x4202, 1, 0x01, 0x04, .u32, .ro, true⟩, ⟨0x4203, 1, 0x00, 0x00, .u16, .ro, false⟩,
  ⟨0x4210, 1, 0x00, 0x00, .u64, .wo, false⟩, ⟨0x4211, 1, 0x00, 0x00, .u16, .rw, false⟩,
  ⟨0x4212, 1, 0x00, 0x00, .u64, .ro, false⟩, ⟨0x4212, 1, 0x01, 0x01, .u64, .ro, true⟩,
  ⟨0x4220, 1, 0x00, 0x00, .u64, .wo, false⟩,
  ⟨0x4230, 1, 0x00, 0x00, .u64, .wo, false⟩, ⟨0x4231, 1, 0x00, 0x00, .u32, .ro, false⟩,
  ⟨0x4232, 1, 0x01, 0x03, .u32, .ro, true⟩,
  ⟨0x4E00, 1, 0x00, 0x00, .u32, .ro, false⟩, ⟨0x4E00, 1, 0x01, 0x01, .u32, .ro, true⟩,
  ⟨0x4E01, 1, 0x01, 0x20, .u16, .ro, true⟩, ⟨0x4E02, 1, 0x00, 0x00, .u32, .ro, true⟩,
  ⟨0x4E03, 1, 0x00, 0x02, .u32, .ro, true⟩, ⟨0x4E04, 1, 0x01, 0x02, .u32, .ro, false⟩]

/-- SRAM (R314), HBM (R346), translation and windows (R388, R433). -/
def rowsMemory : List ObjRow := [
  ⟨0x5000, 1, 0x01, 0x02, .u32, .ro, false⟩, ⟨0x5000, 1, 0x03, 0x05, .u32, .ro, true⟩,
  ⟨0x5001, 1, 0x00, 0x00, .u64, .ro, true⟩, ⟨0x5010, 1, 0x01, 0x02, .u32, .ro, true⟩,
  ⟨0x5011, 1, 0x01, 0x02, .u32, .ro, true⟩, ⟨0x5012, 1, 0x00, 0x00, .u32, .wo, true⟩,
  ⟨0x5013, 1, 0x00, 0x00, .u8, .ro, false⟩, ⟨0x5013, 1, 0x01, 0x40, .u32, .ro, false⟩,
  ⟨0x5014, 1, 0x00, 0x00, .u32, .ro, true⟩,
  ⟨0x5080, 1, 0x00, 0x00, .u64, .wo, true⟩, ⟨0x5081, 1, 0x00, 0x00, .u16, .rw, true⟩,
  ⟨0x5082, 1, 0x00, 0x00, .u64, .ro, true⟩, ⟨0x5084, 1, 0x00, 0x00, .u32, .ro, false⟩,
  ⟨0x5100, 64, 0x01, 0x04, .u64, .ro, false⟩, ⟨0x5100, 64, 0x05, 0x06, .u32, .ro, true⟩,
  ⟨0x5100, 64, 0x07, 0x07, .i16, .ro, false⟩, ⟨0x5100, 64, 0x08, 0x09, .u8, .ro, false⟩,
  ⟨0x5100, 64, 0x0A, 0x0B, .u32, .ro, false⟩, ⟨0x5100, 64, 0x0C, 0x0C, .u32, .ro, true⟩,
  ⟨0x5100, 64, 0x0D, 0x0D, .u16, .ro, true⟩, ⟨0x5100, 64, 0x0E, 0x0E, .u8, .ro, true⟩,
  ⟨0x5100, 64, 0x0F, 0x10, .u32, .ro, true⟩,
  ⟨0x5200, 1, 0x00, 0x00, .u64, .rw, true⟩, ⟨0x5201, 1, 0x01, 0x06, .u32, .ro, true⟩,
  ⟨0x5210, 1, 0x00, 0x00, .u32, .rw, true⟩, ⟨0x5220, 1, 0x00, 0x00, .u64, .rw, true⟩,
  ⟨0x5400, 256, 0x00, 0x00, .u8, .rw, false⟩, ⟨0x5400, 256, 0x01, 0x02, .u16, .rw, false⟩,
  ⟨0x5400, 256, 0x03, 0x04, .u64, .rw, false⟩, ⟨0x5400, 256, 0x05, 0x05, .u8, .rw, false⟩,
  ⟨0x5500, 256, 0x00, 0x00, .u8, .rw, false⟩, ⟨0x5500, 256, 0x01, 0x01, .u16, .rw, false⟩,
  ⟨0x5500, 256, 0x02, 0x02, .u8, .rw, false⟩, ⟨0x5500, 256, 0x03, 0x04, .u64, .rw, false⟩]

/-- Links, collectives and pace (R515), the handoff (R538). -/
def rowsFabric : List ObjRow := [
  ⟨0x6000, 1, 0x01, 0x01, .u16, .rw, false⟩, ⟨0x6001, 1, 0x01, 0x30, .u8, .ro, false⟩,
  ⟨0x6002, 1, 0x01, 0x30, .u8, .ro, false⟩, ⟨0x6003, 1, 0x01, 0x03, .u32, .ro, true⟩,
  ⟨0x6100, 48, 0x01, 0x04, .octet 36, .wo, true⟩, ⟨0x6100, 48, 0x05, 0x05, .u8, .rw, true⟩,
  ⟨0x6100, 48, 0x06, 0x06, .u8, .wo, true⟩, ⟨0x6100, 48, 0x07, 0x07, .u64, .ro, true⟩,
  ⟨0x6100, 48, 0x08, 0x0B, .u32, .ro, true⟩, ⟨0x6100, 48, 0x0C, 0x0C, .u32, .ro, false⟩,
  ⟨0x6100, 48, 0x0D, 0x0D, .u16, .ro, true⟩,
  ⟨0x6300, 256, 0x00, 0x00, .u8, .rw, false⟩,
  ⟨0x6400, 16, 0x00, 0x00, .u8, .rw, false⟩, ⟨0x6400, 16, 0x01, 0x04, .u64, .rw, false⟩,
  ⟨0x6400, 16, 0x05, 0x05, .u8, .rw, false⟩, ⟨0x6400, 16, 0x06, 0x06, .u64, .rw, false⟩,
  ⟨0x6400, 16, 0x07, 0x07, .u16, .ro, false⟩, ⟨0x6400, 16, 0x08, 0x08, .u8, .rw, true⟩,
  ⟨0x6400, 16, 0x09, 0x09, .u16, .rw, false⟩, ⟨0x6400, 16, 0x10, 0x4F, .u16, .rw, false⟩,
  ⟨0x6500, 1, 0x00, 0x00, .u64, .rw, true⟩, ⟨0x6501, 1, 0x00, 0x00, .u16, .wo, false⟩,
  ⟨0x6502, 1, 0x00, 0x00, .u64, .wo, false⟩, ⟨0x6503, 1, 0x00, 0x00, .u32, .ro, false⟩,
  ⟨0x6504, 1, 0x01, 0x04, .u32, .ro, true⟩,
  ⟨0x6510, 1, 0x00, 0x00, .u32, .ro, false⟩, ⟨0x6510, 1, 0x01, 0x01, .octet 16, .ro, false⟩,
  ⟨0x6510, 1, 0x02, 0x02, .u16, .wo, false⟩,
  ⟨0x6511, 1, 0x00, 0x00, .u8, .rw, false⟩, ⟨0x6511, 1, 0x01, 0x01, .octet 64, .ro, false⟩]

/-- Security (R610). -/
def rowsSecurity : List ObjRow := [
  ⟨0x7000, 1, 0x01, 0x01, .octet 16, .ro, false⟩, ⟨0x7000, 1, 0x02, 0x03, .octet 48, .ro, false⟩,
  ⟨0x7000, 1, 0x04, 0x04, .octet 384, .ro, false⟩, ⟨0x7000, 1, 0x05, 0x05, .octet 48, .ro, false⟩,
  ⟨0x7001, 2, 0x00, 0x00, .u32, .ro, false⟩, ⟨0x7001, 2, 0x01, 0x30, .octet 1024, .ro, false⟩,
  ⟨0x7010, 1, 0x01, 0x01, .u32, .ro, false⟩, ⟨0x7010, 1, 0x02, 0x03, .u8, .ro, false⟩,
  ⟨0x7010, 1, 0x04, 0x05, .octet 48, .ro, false⟩, ⟨0x7010, 1, 0x06, 0x06, .u64, .ro, true⟩,
  ⟨0x7020, 1, 0x00, 0x00, .octet 32, .wo, false⟩, ⟨0x7021, 1, 0x00, 0x01, .u32, .ro, false⟩,
  ⟨0x7022, 1, 0x01, 0x62, .octet 1024, .ro, false⟩,
  ⟨0x7030, 1, 0x00, 0x00, .octet 32, .wo, true⟩, ⟨0x7031, 1, 0x00, 0x00, .u32, .ro, true⟩,
  ⟨0x7040, 1, 0x00, 0x00, .u16, .wo, false⟩, ⟨0x7041, 1, 0x00, 0x00, .u32, .ro, false⟩,
  ⟨0x7042, 1, 0x00, 0x00, .u32, .ro, true⟩, ⟨0x7050, 1, 0x01, 0x08, .u32, .rw, true⟩,
  ⟨0x7060, 1, 0x00, 0x00, .u8, .ro, false⟩, ⟨0x7060, 1, 0x01, 0x01, .u32, .ro, false⟩,
  ⟨0x7061, 1, 0x00, 0x00, .u32, .wo, true⟩, ⟨0x7062, 2, 0x00, 0x00, .u8, .ro, false⟩,
  ⟨0x7100, 64, 0x00, 0x00, .u8, .rw, true⟩, ⟨0x7100, 64, 0x01, 0x02, .octet 64, .wo, true⟩,
  ⟨0x7100, 64, 0x03, 0x03, .u8, .ro, true⟩, ⟨0x7100, 64, 0x04, 0x04, .octet 40, .wo, true⟩,
  ⟨0x7100, 64, 0x05, 0x05, .u8, .wo, true⟩, ⟨0x7100, 64, 0x06, 0x08, .u32, .ro, true⟩]

/-- Errors (R658) and counters (R635). -/
def rowsErrors : List ObjRow := [
  ⟨0x8000, 1, 0x01, 0x01, .u8, .ro, false⟩, ⟨0x8001, 1, 0x00, 0x00, .u8, .ro, false⟩,
  ⟨0x8001, 1, 0x01, 0x01, .u8, .wo, false⟩, ⟨0x8001, 1, 0x02, 0x02, .u32, .ro, false⟩,
  ⟨0x8002, 1, 0x00, 0x00, .u32, .wo, true⟩,
  ⟨0x8010, 1, 0x00, 0x01, .u16, .rw, true⟩, ⟨0x8010, 1, 0x02, 0x02, .u16, .ro, false⟩,
  ⟨0x8020, 1, 0x00, 0x00, .u32, .ro, false⟩, ⟨0x8020, 1, 0x01, 0x01, .octet 16, .ro, false⟩,
  ⟨0x8020, 1, 0x02, 0x02, .u16, .wo, false⟩, ⟨0x8020, 1, 0x03, 0x03, .u32, .ro, true⟩,
  ⟨0x8030, 1, 0x00, 0x00, .u8, .rw, false⟩, ⟨0x8030, 1, 0x01, 0x01, .octet 32, .ro, false⟩,
  ⟨0x8030, 1, 0x02, 0x02, .u32, .ro, false⟩,
  ⟨0x9000, 1, 0x01, 0x01, .u8, .wo, true⟩, ⟨0x9000, 1, 0x02, 0x02, .u32, .ro, true⟩,
  ⟨0x9010, 16, 0x01, 0x0A, .u64, .ro, true⟩]

/-- Every object of the dictionary. -/
def objRows : List ObjRow :=
  rowsIdentity ++ rowsFrame ++ rowsPower ++ rowsBights ++ rowsMemory ++ rowsFabric ++ rowsSecurity ++ rowsErrors

/-- A row holds an index. -/
def ObjRow.has (r : ObjRow) (index : Nat) : Bool := decide (r.index ≤ index) && decide (index < r.index + r.count)

/-- An index exists (R621). -/
def indexExists (index : Nat) : Bool := objRows.any fun r => r.has index

/-- The row of an object. -/
def objRow (index sub : Nat) : Option ObjRow :=
  objRows.find? fun r => r.has index && decide (r.lo ≤ sub) && decide (sub ≤ r.hi)

/-- The object, or the status with which a request that names no object ends (R621). -/
def findObj (index sub : Nat) : Except Nat ObjRow :=
  match objRow index sub with
  | some r => .ok r
  | none => .error (if indexExists index then dNoSubindex else dNoObject)

/-- The Ethernet transport may write an index (R622). -/
def ethMayWrite (index : Nat) : Bool :=
  index == 0x1030 || (decide (0x2000 ≤ index) && decide (index < 0x4000)) ||
    (decide (0x5400 ≤ index) && decide (index < 0x5600)) || (decide (0x6000 ≤ index) && decide (index < 0x7000)) ||
    (decide (0x7000 ≤ index) && decide (index < 0x8000) && index != 0x7040 &&
      !(decide (0x7100 ≤ index) && decide (index < 0x7140)))

/-- What DESCRIBE returns (R624). -/
def ObjRow.describe (r : ObjRow) : Word :=
  BitVec.ofNat 64 (r.ty.len * 2 ^ 32 + r.expert.toNat * 2 ^ 16 + r.acc.code * 256 + r.ty.code)

end Sys2Proof.Machine
end

