-- ==== Sys2Proof/Machine/Domains.lean ====
section
/-! DEFINITION. The commands of the power domains and memory-hold bits (R35 to R42, R654). -/

namespace Sys2Proof.Machine

/-- The states a Dictionary request may ask of a domain (R28, R41, R42). -/
def stateUsed (i : Nat) (x : DomState) : Bool :=
  match domKind i, x with
  | .stack _, .low => true
  | .stack _, _ => true
  | .half _, .low | .port _, .low | .die _, .low => false
  | .half _, _ | .port _, _ | .die _, _ => true
  | _, _ => false

/-- The state code of R29; 0b11 names none that can be requested. -/
def stateOfCode : Nat → Option DomState
  | 0 => some .off
  | 1 => some .low
  | 2 => some .on
  | _ => none

/-- A write to 0x3102.00 (R42, R356): refused, or applied in order. -/
def putDomainRequest (value : BitVec 32) : Act := fun s =>
  let i := fieldN value.toNat 0 10
  match stateOfCode (fieldN value.toNat 16 2) with
  | none => (dRefused, s)
  | some x =>
    if !stateUsed i x then (dRefused, s)
    else if s.errors.rootstock ∧ x = .on then (dRefused, s)
    else if !s.domLegal i x || !s.walkersLegal i x then (dRefused, s)
    else (dOk, (s.reqDom i x).portStop i)

/-- DOMAIN_REQUEST (R36, R41, R42, R654). -/
def execDomainRequest (via : Via) (value : BitVec 32) (s : State) : Out :=
  .next (s.objWrite via true true (putDomainRequest value))

/-- A lash ends before it is LASHED: everything done for it is undone, and its result is reported (R259, R320). -/
def State.undoLash (s : State) (b result : Nat) : State :=
  let p := (s.bight b).place
  let s := ((s.freeRouters p.routers).dropCircuits b false).freeBight b
  (p.memberClusters.foldl (fun (s : State) c => (s.clearCluster c).settleCluster c) s).reportLash b 1 result

/-- A stack has failed training: the lashes and relashes that need it are refused with RESOURCE (R274, R320). -/
def State.refuseFailed (s : State) (st : Nat) : State :=
  (Tab.keys s.bights.tab).foldl (fun (s : State) b =>
    let x := s.bight b
    match x.driving with
    | some pl =>
      if !(s.needs b pl).contains (domStack st) then s
      else if x.state = .lashing then s.undoLash b lashResource
      else s.cancelRelash b lashResource codeRelashRefused
    | none => s) s

/-- DOMAIN_TRANSITION_DONE dom trained (R35, R320): `trained` says whether a stack that leaves OFF trained. -/
def execDomainTransitionDone (dom : Nat) (trained : Bool) (s : State) : Out :=
  let t := s.domDone dom trained
  .next (match domKind dom with
    | .stack st => if t.hbm.failed.getLsbD st && !s.hbm.failed.getLsbD st then t.refuseFailed st else t
    | _ => t)

/-- HELD_DOMAIN_REQUEST dom (R36): the oldest request held for a domain is applied once it stands still; one whose
dependencies no longer hold is refused (R30, R356). -/
def execHeldDomainRequest (dom : Nat) (s : State) : Out :=
  let d := s.domain dom
  .next (match d.state, d.held with
    | .changing, _ => s
    | _, [] => s
    | _, x :: rest =>
      let s := s.setDomain dom { d with held := rest }
      if s.domLegal dom x && s.walkersLegal dom x then ((s.moveDom dom ((s.domain dom).start x)).portStop dom).driveNeeds else s)

/-- The memory-hold bitmap with word `sub` replaced (R41): subindex s holds clusters 32(s − 1) to 32(s − 1) + 31. -/
def holdWith (hold : List Nat) (sub : Nat) (v : BitVec 32) : List Nat :=
  let keep := hold.filter fun c => c / 32 + 1 != sub
  let set' := ((List.range 32).filter fun i => v.getLsbD i).map fun i => 32 * (sub - 1) + i
  ((keep ++ set').mergeSort fun a b => decide (a ≤ b))

/-- A write to 0x3101 (R38, R283): unlashed clusters whose bit is set and that are OFF enter LOW, those whose bit is cleared
in LOW go OFF. -/
def putMemoryHold (sub : Nat) (v : BitVec 32) : Act := fun s =>
  let old := s.memHold
  let s := { s with memHold := holdWith old sub v }
  let word := (List.range 32).map fun i => 32 * (sub - 1) + i
  let s := word.foldl (fun s c =>
    if (s.bightOfCluster c).isSome then s
    else if old.contains c && !s.memHold.contains c && (s.domain c).final == .low then s.reqDom c .off
    else s) s
  (dOk, word.foldl (fun s c =>
    if s.holdDue c && s.domOn (domHalf (halfOfCluster c)) then s.drive c .low else s) s.driveNeeds)

/-- MEMORY_HOLD_WRITE (R38, R41). -/
def execMemoryHoldWrite (via : Via) (sub : Nat) (value : BitVec 32) (s : State) : Out :=
  .next (s.objWrite via true false fun s =>
    if 1 ≤ sub ∧ sub ≤ 16 then putMemoryHold sub value s else (dNoSubindex, s))

/-- MEMORY_HOLD_LOW_ENTRY cluster (R38): a cluster that waited for its half-die and die uncore enters LOW. -/
def execMemoryHoldLowEntry (cluster : Nat) (s : State) : Out :=
  .next (if decide (cluster < 512) && s.holdDue cluster then s.drive cluster .low else s)

/-- SELF_POLICY_DOMAIN_OFF dom (R39): in self-policy mode a half-die or die uncore that nothing needs goes OFF. -/
def execSelfPolicyDomainOff (dom : Nat) (s : State) : Out :=
  let kind := match domKind dom with | .half _ | .die _ => true | _ => false
  .next (if s.selfPolicy && kind && s.domOn dom && s.domLegal dom .off then s.reqDom dom .off else s)

end Sys2Proof.Machine
end

