-- ==== Sys2Proof/Machine/Exec.lean ====
section
/-! DEFINITION. What runs on a bight: launch, the kinds of command, commit, kill, abort, residency and time slices (R72 to R80,
R88, R408, R412, R420, R422, R442 to R470, R494 to R508). Where a row names a moment, it has no effect in a state that is not
at that moment (log 42). -/

namespace Sys2Proof.Machine

/-! ### Launch -/

/-- LAUNCH queue (R72 to R80, R442, R443): the head of a queue is tested, and launches if everything allows it. `answer` is what
the host answers to reads of host memory on the way. -/
def execLaunch (queue : Nat) (answer : HostAns) (s : State) : Out :=
  .next (match s.active queue with
    | some (q, c) => if c.phase = .waiting then s.launchHead queue q c answer else s
    | none => s)

/-- OPEN_COPY_DONE queue, seq (R443): every COPY entry of a launched command has been copied, and its own work may begin. -/
def execOpenCopyDone (queue seq : Nat) (answer : HostAns) (s : State) : Out :=
  .next (match s.queue? queue with
    | none => s
    | some q =>
      match q.cmd? seq with
      | none => s
      | some c =>
        if c.phase ≠ .opening ∨ s.doomed q.bight queue seq = true then s
        else
          match State.copyEntries (s.whoStream queue q c 0 0) c.copies s.forgetSteps answer with
          | (.ok _, s) => (s.modCmd queue seq fun d => { d with copies := [] }).startKind queue c
          | (.fault, s) => s
          | (.code k, s) => s.failCmd queue seq k)

/-! ### RUN: residency and time slices (R88, R457 to R463) -/

/-- No switch begins in Reef, and cores run only on a bight that is not switching over (R463, R273). -/
def Bight.mayRun (x : Bight) : Bool := x.state == .lashed || x.state == .prepare || x.state == .quiesce

/-- RUN queue (R88, R457, R458): the launched RUN at the head of its bight's run list becomes resident. One whose live ranges
are saved has them restored first, by a switch. -/
def execRun (queue : Nat) (s : State) : Out :=
  .next (match s.active queue with
    | some (q, c) =>
      let x := s.bight q.bight
      (match c.payload with
        | .run entry args =>
          if c.phase = .listed ∧ x.runList.head? = some (queue, c.seq) ∧ x.resident = none ∧ x.switching = none ∧
              s.power.reef = false ∧ x.mayRun = true ∧ s.doomed q.bight queue c.seq = false then
            if c.saved then
              s.modBight q.bight fun y => { y with switching := some (none, (queue, c.seq), s.now) }
            else s.startCores q.bight queue c.seq entry args
          else s
        | _ => s)
    | none => s)

/-- SLICE_END bight (R458, R463 to R465): the resident RUN has had its slice and another RUN waits. A direct-write RUN is not
pre-empted: its slice stretches. -/
def execSliceEnd (bight : Nat) (s : State) : Out :=
  let x := s.bight bight
  .next (match x.resident, x.runList.head?, s.residentCmd bight with
    | some (q, seq, t), some head, some (_, _, c) =>
      if x.slice ≠ 0 ∧ t + 1000 * x.slice ≤ s.now ∧ s.power.reef = false ∧ x.switching = none ∧
          c.phase = .running ∧ s.doomed bight q seq = false then
        if c.direct then s.holdWait q seq
        else
          (s.requestKill q seq 0 0 true).modBight bight fun y => { y with
            runList := y.runList ++ [(q, seq)], preempts := y.preempts + 1, switching := some (some (q, seq), head, s.now) }
      else s
    | _, _, _ => s)

/-- The outgoing RUN of a switch whose live ranges are still to be saved: it has not ended (R459). -/
def State.outgoing (s : State) (o : Option (Nat × Nat)) : Option (Nat × Queue × Cmd) :=
  match o with
  | none => none
  | some (q, n) =>
    match s.queue? q with
    | none => none
    | some x => (x.cmd? n).bind fun c =>
      if (if c.phase == .killing then c.rerun else c.launched && c.live?) then some (q, x, c) else none

/-- The restore of the incoming RUN and the start of its cores (R459, R460). -/
def State.switchIn (s : State) (b : Nat) (i : Nat × Nat) (since : Nat) (answer : HostAns) : State :=
  match s.queue? i.1 with
  | none => s
  | some q =>
    match q.cmd? i.2 with
    | none => s
    | some c =>
      if c.phase ≠ .listed then s
      else
        let start := fun (s : State) =>
          match c.payload with
          | .run entry args =>
            (s.startCores b i.1 i.2 entry args).modBight b fun x => { x with lastSwitch := s.now - since }
          | _ => s
        if c.saved then
          match s.moveLive i.1 q c false answer with
          | (.ok _, s) => start s
          | (.fault, s) => s
          | (.code k, s) => s.failAlways i.1 i.2 k
        else start s

/-- SWITCH_DONE bight (R459 to R461): the outgoing RUN's live ranges have been saved, the incoming one's restored, and its cores
start. -/
def execSwitchDone (bight : Nat) (answer : HostAns) (s : State) : Out :=
  let x := s.bight bight
  .next (match x.switching, x.resident with
    | some (o, i, t), none =>
      if !x.mayRun then s
      else
        let s := s.forgetSteps
        match s.outgoing o with
        | none => s.switchIn bight i t answer
        | some (oq, q, c) =>
          match s.moveLive oq q c true answer with
          | (.ok ans, s) =>
            (((s.modCmd oq c.seq fun d => { d with saved := true }).modBight bight fun y => { y with
              switching := some (none, i, t) }).forgetSteps).switchIn bight i t ans
          | (.fault, s) => s
          | (.code k, s) => s.failAlways oq c.seq k
    | _, _ => s)

/-! ### The other kinds (R412, R420, R422, R450, R494) -/

/-- MOVE queue (R412): the transfer of the queue's running MOVE goes one stage on, on the bight's DMA engines. -/
def execMove (queue : Nat) (s : State) : Out :=
  .next (match s.working queue with
    | some (q, c) =>
      (match c.payload with
        | .move src dst len lambda =>
          if c.begun then s.stepTransfer queue q c false else s.beginTransfer queue q c lambda (cutTransfer src dst len)
        | _ => s)
    | none => s)

/-- SEND_COMMAND queue (R494, R505): the transfer of the queue's running SEND goes one stage on, with WRITE or REDUCE packets. -/
def execSendCommand (queue : Nat) (s : State) : Out :=
  .next (match s.working queue with
    | some (q, c) =>
      (match c.payload with
        | .send src len mode nDst pkt lambda dst =>
          if c.begun then s.stepTransfer queue q c (pkt == 1)
          else s.beginTransfer queue q c lambda (sendParts src len mode nDst dst)
        | _ => s)
    | none => s)

/-- RECV_COMMAND queue (R496, R507): the running RECV holds its window's objects; the complete chunks of a REDUCE are written to
OUT_VA. -/
def execRecvCommand (queue : Nat) (s : State) : Out :=
  .next (match s.working queue with
    | some (_q, c) =>
      (match c.payload with
        | .recv _ op nSrc .. =>
          let s := s.modCmd queue c.seq fun d => { d with begun := true }
          if op = 1 then
            (c.readyChunks nSrc c.recv.chunks).foldl (fun (s : State) k =>
              match s.working queue with
              | some (q, c) => s.writeChunk queue q c k
              | none => s) s
          else s
        | _ => s)
    | none => s)

/-- WAIT queue (R422, R425): the WAIT completes when its fence has reached its value, and ends when the fence is broken or
destroyed. One that names no fence waits until it is killed. -/
def execWait (queue : Nat) (s : State) : Out :=
  .next (match s.working queue with
    | some (_, c) =>
      (match c.payload with
        | .wait fence value =>
          let fail := fun (code : Nat) => s.endCmd queue c.seq code (detailFence fence)
          (match s.liveFence fence c.bound with
            | none => if fence = 0xFFFF then s else fail codeOwnerGone
            | some x =>
              if fenceBroken x.word then fail (x.word.toNat % 65536)
              else if value ≤ x.word.toNat then s.modCmd queue c.seq fun d => { d with begun := true }
              else s)
        | _ => s)
    | none => s)

/-- SIGNAL queue (R420, R425, R444): the value reaches the fence, and the SIGNAL has finished. -/
def execSignal (queue : Nat) (s : State) : Out :=
  .next (match s.working queue with
    | some (q, c) =>
      (match c.payload with
        | .signal fence value =>
          if c.begun then s
          else ((s.fenceMsg q.bight 1 fence (BitVec.ofNat 64 value)).signalFence fence c.bound value q.fn queue c.seq).modCmd queue
            c.seq fun d => { d with begun := true }
        | _ => s)
    | none => s)

/-- COMMIT_GROUP queue (R449, R450): the group is decided once every member is held or has ended. -/
def execCommitGroup (queue : Nat) (s : State) : Out :=
  .next (match s.working queue with
    | some (q, c) =>
      (match c.payload with
        | .commitGroup expect => s.decideGroup queue q c expect
        | _ => s)
    | none => s)

/-! ### Commit and kill (R445 to R455, R465, R467 to R469) -/

/-- A RUN that has finished leaves residency; with another RUN waiting the switch to it begins, unless the module is in Reef
(R458, R460, R463). -/
def State.leaveResidency (s : State) (b : Nat) : State :=
  s.modBight b fun x => { x with
    resident := none
    switching := match x.runList.head? with
      | some h => if s.power.reef then none else some (none, h, s.now)
      | none => none }

/-- COMMIT_REQUEST queue, seq (R444, R445, R449): a finished command sends its commit request, or is held by its group. -/
def execCommitRequest (queue seq : Nat) (s : State) : Out :=
  .next (match s.queue? queue with
    | none => s
    | some q =>
      match q.cmd? seq with
      | none => s
      | some c =>
        if !s.finished queue q c then s
        else
          let s := if c.isRun then
              (s.modCmd queue seq fun d => { d with acc := d.acc ||| s.accOf q.bight }).leaveResidency q.bight
            else s
          if c.grouped then s.modCmd queue seq fun d => { d with phase := .held }
          else (s.modCmd queue seq fun d => { d with phase := .requested }).register q.bight (.commit queue seq))

/-- COMMIT bight (R446, R447): the commit request at the head of the bight's commit register is taken. -/
def execCommit (bight : Nat) (s : State) : Out :=
  .next (match (s.bight bight).creg with
    | .commit q seq :: rest => ((s.modBight bight fun x => { x with creg := rest }).takeCommit q seq).ownersGo
    | _ => s)

/-- KILL bight (R453, R454, R468): the kill at the head of the bight's commit register is taken. -/
def execKill (bight : Nat) (s : State) : Out :=
  .next (match (s.bight bight).creg with
    | .kill q seq code detail rerun :: rest =>
      ((s.modBight bight fun x => { x with creg := rest }).takeKill q seq code detail rerun).ownersGo
    | _ => s)

/-- KILL_COMPLETE queue, seq (R453, R455, R464, R498). -/
def execKillComplete (queue seq : Nat) (s : State) : Out := .next (s.killDone queue seq).ownersGo

/-- The commit request of a queue's commit group, which command `seq` belongs to, is in the register (R449, R467). -/
def Queue.groupRequested (x : Queue) (seq : Nat) : Bool :=
  match (x.cmds.filter fun c => decide (seq < c.seq)).find? fun c => match c.payload with | .commitGroup _ => true | _ => false with
  | some c => c.phase == .requested
  | none => false

/-- What an abort finds (R467): its result code. -/
def State.abortCode (s : State) (q seq : Nat) : Nat :=
  match s.queue? q with
  | none => 0x03
  | some x =>
    match x.cmd? seq with
    | none => if seq < x.next then 0x08 else 0x03
    | some c =>
      if c.phase = .requested ∨ c.live? = false ∨ (c.phase = .held ∧ x.groupRequested seq = true) then 0x08 else 0x00

/-- A write of 0x4230.00 (R467 to R469): function 0 aborts a command. -/
def putAbort (v : BitVec 64) : Act := fun s =>
  let q := fieldN v.toNat 36 12
  let seq := fieldN v.toNat 0 36
  let code := s.abortCode q seq
  let s := { s with host := { s.host with
    abortSeq := s.host.abortSeq + 1, abortResult := code,
    tooLate := if code = 0x08 then s.host.tooLate + 1 else s.host.tooLate } }
  if code ≠ 0 then (dOk, s)
  else
    match s.cmd? q seq with
    | some c =>
      if c.phase = .killing then (dOk, s.failAlways q seq codeAborted)
      else (dOk, s.killAny q seq codeAborted (detailCmd q seq))
    | none => (dOk, s)

/-- ABORT (R467 to R469). -/
def execAbort (via : Via) (value : BitVec 64) (s : State) : Out := .next (s.objWrite via false false (putAbort value))

/-- HOLD_CEILING queue, seq (R465): a direct-write command still runs H_c × P after the first wait for it began. -/
def execHoldCeiling (queue seq : Nat) (s : State) : Out :=
  .next (match s.queue? queue with
    | none => s
    | some q =>
      match q.cmd? seq with
      | none => s
      | some c =>
        match c.holdSince with
        | none => s
        | some t =>
          let x := s.bight q.bight
          if c.direct ∧ c.running = true ∧ c.phase ≠ .killing ∧ c.phase ≠ .requested ∧
              s.doomed q.bight queue seq = false ∧ t + x.holdCeiling * s.frame.period ≤ s.now then
            (s.failCmd queue seq codeHoldCeiling).modBight q.bight fun y => { y with holdAborts := y.holdAborts + 1 }
          else s)

end Sys2Proof.Machine
end

