-- ==== Sys2Proof/Machine/Frame.lean ====
section
/-! DEFINITION. The commands of the frame, of the grants and of the policy mode (R49 to R60, R79). -/

namespace Sys2Proof.Machine

/-- An edge while the module is locked (R50): early ones are ignored and counted, others are frame boundaries. P is the mean of
the last four accepted intervals; while there are fewer since the lock, of those there are, the two of the lock included, rounded
down to 1 ns (DESIGN CHOICE, log 164). -/
def State.lockedEdge (s : State) (m : Measured) : State :=
  let f := s.frame
  let dt := s.now - f.boundaryAt
  if 8 * dt < 7 * f.period then { s with frame := { f with earlyEdges := f.earlyEdges + 1, earlyNow := true } }
  else if 2 * dt ≤ 3 * f.period then
    let l := (dt :: f.intervals).take 4
    ({ s with frame := { f with intervals := l, period := meanOf l } }).boundary m false
  else s

/-- An edge while the module is not locked (R52): the third of three matching ones locks. -/
def State.freeEdge (s : State) (m : Measured) : State :=
  match s.frame.edges with
  | [t3, t2, t1] =>
    let l := [t3 - t2, t2 - t1]
    if matching (t3 - t2) (t2 - t1) then
      ({ s with frame := { s.frame with
          locked := true, freeRun := false, everLocked := true, edges := [], intervals := l, period := meanOf l,
          earlyNow := false, earlyBefore := false } }).boundary m false
    else s
  | _ => s

/-- FRAME_EDGE (R48, R50, R52): a rising edge of FRAME_IN is detected. -/
def execFrameEdge (m : Measured) (s : State) : Out :=
  .next (if s.framing then
      if s.frame.locked then s.lockedEdge m else s.noteEdge.freeEdge m
    else s)

/-- FREE_RUN_ENTRY (R51): 1.5 P have passed since the boundary of a locked frame without an accepted edge. -/
def execFreeRunEntry (m : Measured) (s : State) : Out :=
  .next (if s.framing && s.frame.locked then s.enterFreeRun.boundary m true else s)

/-- OSCILLATOR_BOUNDARY (R49, R51, R53): P has passed since the last boundary while the module is not locked; before the first
lock the nominal period becomes P. -/
def execOscillatorBoundary (m : Measured) (s : State) : Out :=
  .next (if s.framing && !s.frame.locked then
      let p := if s.frame.everLocked || s.frame.freeRun then s.frame.period else 1000 * s.frame.nominalUs
      ({ s with frame := { s.frame with period := p } }).boundary m false
    else s)

/-- A write of 0x2011.00 (R49, R82). -/
def putNominal (v : BitVec 32) : Act := fun s =>
  if 1000 ≤ v.toNat ∧ v.toNat ≤ 100000 then (dOk, { s with frame := { s.frame with nominalUs := v.toNat } }) else (dRange, s)

/-- NOMINAL_PERIOD_WRITE (R49). -/
def execNominalPeriodWrite (via : Via) (value : BitVec 32) (s : State) : Out :=
  .next (s.objWrite via true false (putNominal value))

/-- A write of 0x2012.00 (R55): bits [63:48] must be zero. -/
def putPreset (v : BitVec 64) : Act := fun s =>
  if v.toNat < 2 ^ 48 then (dOk, { s with frame := { s.frame with preset := some (v.setWidth 48) } }) else (dRange, s)

/-- FRAME_COUNTER_PRESET (R55). -/
def execFrameCounterPreset (via : Via) (value : BitVec 64) (s : State) : Out :=
  .next (s.objWrite via true true (putPreset value))

/-- A grant as it is written: 0xFFFF_FFFF is unlimited (R59). -/
def grantOf (v : BitVec 32) : Option Nat := if v = 0xFFFFFFFF then none else some v.toNat

/-- A bight is lashed: it holds a placement (R82). -/
def State.isLashed (s : State) (b : Nat) : Bool := s.lashedBights.contains b

/-- A write of 0x2020.00 (R59, R60). -/
def putModuleGrant (v : BitVec 32) : Act := fun s =>
  (dOk, { s with energy := { s.energy with grantNext := s.energy.grantNext ++ [(grantOf v, some s.now)] } })

/-- A write of 0x2100 + b .00 (R59, R60, R82). -/
def putBightGrant (b : Nat) (v : BitVec 32) : Act := fun s =>
  if s.isLashed b then (dOk, s.modBight b fun x => { x with grantNext := x.grantNext ++ [(grantOf v, some s.now)] })
  else (dRefused, s)

/-- GRANT_WRITE (R60): the module's grant, or a bight's. -/
def execGrantWrite (via : Via) (bight : Option Nat) (value : BitVec 32) (s : State) : Out :=
  .next (s.objWrite via true false fun s =>
    match bight with
    | none => putModuleGrant value s
    | some b => if b < 256 then putBightGrant b value s else (dNoObject, s))

/-- A write of 0x2001.00 (R79). -/
def putPolicyMode (v : BitVec 8) : Act := fun s =>
  if v.toNat ≤ 1 then
    (dOk, { s with frame := { s.frame with policyNext := s.frame.policyNext ++ [(v.toNat, some s.now)] } })
  else (dRange, s)

/-- POLICY_MODE_WRITE (R79). -/
def execPolicyModeWrite (via : Via) (value : BitVec 8) (s : State) : Out :=
  .next (s.objWrite via true false (putPolicyMode value))

end Sys2Proof.Machine
end

