-- ==== Sys2Proof/Machine/DictRead.lean ====
section
/-! DEFINITION. What a read of each object of the dictionary returns (R82, R243, R288, R314, R346, R388, R433, R470, R515, R538,
R571, R610, R633, R635, R658). -/

namespace Sys2Proof.Machine

/-! ### Small encodings -/

/-- A grant as it reads: 0xFFFF_FFFF is unlimited (R59). -/
def grantWord (g : Option Nat) : Nat := g.getD 0xFFFFFFFF

/-- An energy in whole millijoules, to the nearest (R69), saturating in 32 bits. -/
def mjWord (pj : Nat) : Nat := min 0xFFFFFFFE (divNearest pj pjPerMj)

/-- A signed number in two's complement. -/
def twos (bits : Nat) (x : Int) : Nat := (x % (2 ^ bits : Nat)).toNat

/-- Half degrees as whole degrees, rounded down, as an INT16 (R571). -/
def wholeDegrees (t : Int) : Nat := twos 16 (t / 2)

/-- A bitmap word: bit i for the number base + i. -/
def bitmap (n base : Nat) (f : Nat → Bool) : Nat := ((List.range n).map fun i => if f (base + i) then 2 ^ i else 0).sum

/-- Fields of two bits. -/
def pairs (n base : Nat) (f : Nat → Nat) : Nat := ((List.range n).map fun i => f (base + i) % 4 * 4 ^ i).sum

/-- The two-bit code of a divider (R242). -/
def divCode (d : Nat) : Nat := match d with | 4 => 2 | 2 => 1 | _ => 0

/-- Power of an energy over a frame, in watts, to the nearest (R69). -/
def wattsOf (pj ns : Nat) : Nat := if ns = 0 then 0 else divNearest pj (1000 * ns)

/-! ### Identity and communication (R3, R4, R395, R633) -/

def State.numIdentity (s : State) (i sub : Nat) : Nat :=
  match i with
  | 0x1000 => (match sub with | 1 => 0x4E30 | 2 => s.fuses.grade | _ => s.fuses.revision)
  | 0x1003 => if sub = 0 then s.fuses.goodCount else bitmap 32 (32 * (sub - 1)) s.fuses.good
  | 0x1010 => 1
  | 0x1011 => (match sub with
      | 1 => s.dict.ip
      | 2 => s.dict.prefixLen
      | 3 => s.dict.gateway
      | 4 => s.dict.udpPort
      | _ => s.dict.modbusEnabled.toNat)
  | 0x1014 => bitmap 4 0 fun k => (Tab.look ({} : MgmtKey) s.dict.keys k).key.isSome
  | 0x1015 => if sub = 1 then s.dict.expertMbox.toNat else s.dict.expertEth.toNat
  | 0x1017 => Tab.look 0 s.dict.counters sub
  | 0x1020 => (s.fn sub).port
  | 0x1021 => (s.fn sub).aper.toNat
  | 0x1030 => Tab.look 0 s.dict.labels sub
  | _ => 0

/-! ### Frame and energy (R82) -/

/-- What a bight's grant leaves in millijoules, toward zero; 0x7FFF_FFFF when it is unlimited (R82). -/
def State.remainingWord (s : State) (b : Nat) : Nat :=
  match (s.bight b).effective with
  | none => 0x7FFFFFFF
  | some mj => twos 32 (max (-(2 ^ 31)) (min (2 ^ 31 - 1) ((s.remaining b mj).tdiv pjPerMj)))

def State.numBightEnergy (s : State) (b sub : Nat) : Nat :=
  let x := s.bight b
  if !s.isLashed b then 0
  else
    match sub with
    | 0 => grantWord (((x.grantNext.getLast?).map (·.1)).getD x.grant)
    | 1 => grantWord x.effective
    | 2 => s.remainingWord b
    | 3 => mjWord x.restated
    | 4 => wattsOf x.restated x.lastFrame
    | 5 => x.ratio
    | 6 => x.fallback
    | 7 => x.weight
    | 8 => x.debtFrames.toNat
    | _ => mjWord (s.standing b)

def State.numFrame (s : State) (i sub : Nat) : Nat :=
  let f := s.frame
  match i with
  | 0x2001 => s.policyValue
  | 0x2010 => (match sub with
      | 0 => f.counter.toNat
      | 1 => s.phase
      | _ => f.lastFreeEntry.toNat * 4 + f.freeRun.toNat * 2 + f.locked.toNat)
  | 0x2011 => if sub = 0 then f.nominalUs else f.period
  | 0x2013 => (match sub with | 1 => f.earlyEdges.toNat | 2 => f.freeEntries.toNat | _ => f.droppedDebt.toNat)
  | 0x2020 => (match sub with
      | 0 => grantWord (((s.energy.grantNext.getLast?).map (·.1)).getD s.energy.grant)
      | 1 => grantWord s.energy.effective
      | _ => mjWord s.energy.measured)
  | 0x2021 => mjWord s.energy.base
  | 0x2050 => s.scaleOf (sub - 1)
  | 0x2051 => s.energy.clamped.toNat
  | _ => s.numBightEnergy (i - 0x2100) sub

/-! ### Power and domains (R571, R45) -/

/-- 0x3000.00 (R571). -/
def State.powerStatus (s : State) : Nat :=
  let p := s.power
  s.tEff % 16 * 2 ^ 20 + p.tCap % 16 * 2 ^ 16 + p.tTh % 16 * 2 ^ 12 + p.reef.toNat * 128 +
    (decide (2500 < p.baseMhz)).toNat * 64 + s.fixedActive.toNat * 32 + p.capUnmet.toNat * 16 +
    (decide (p.excursion = 0)).toNat * 8

def State.numPower (s : State) (i sub : Nat) : Nat :=
  let p := s.power
  match i with
  | 0x3000 => s.powerStatus
  | 0x3001 => (match sub with | 0 => grantWord p.cap | 1 => s.meanOver 1000000 | _ => p.meanFrame)
  | 0x3002 => p.fixedFreq.toNat
  | 0x3003 => p.boostPermit.toNat
  | 0x3004 => p.baseMhz
  | 0x3005 => p.excursion / 5
  | 0x3010 => (match sub with
      | 1 => s.vf
      | 2 => p.reefEntries.toNat
      | 3 => p.reefTime
      | 4 => p.reefLast
      | _ => p.reefLastLow)
  | 0x3020 => Tab.look 0 p.railCurrent (sub - 1)
  | 0x3021 => Tab.look 0 p.limiterWindows (sub - 1)
  | 0x3022 => p.inputWindows
  | 0x3030 => wholeDegrees (Tab.look 0 p.halfTemp (sub - 1))
  | 0x3031 => p.tThRises.toNat
  | 0x3040 => s.wearOf (sub - 1)
  | 0x3041 => s.guardOf (sub - 1)
  | 0x3042 => s.wearAccount
  | 0x3050 => Tab.look 0 p.stretched (sub - 1)
  | 0x3100 => if sub = 0 then 41 else pairs 16 (16 * (sub - 1)) fun d => if d ≤ 640 then domCode (s.dom d) else 0
  | 0x3101 => bitmap 32 (32 * (sub - 1)) s.memHold.contains
  | _ =>
    let b := i - 0x3200
    if (s.bight b).state = .free then 0
    else
      match sub with
      | 0 => (s.bight b).trimFloor
      | 1 => s.levelOf b
      | _ => s.dutyOf b

/-! ### Bights, host objects, execution and the mesh (R243, R288, R433, R470) -/

def State.numBight (s : State) (b sub : Nat) : Nat :=
  let x := s.bight b
  if x.state = .free then 0
  else
    match sub with
    | 0x00 => x.stateCode
    | 0x01 => x.placementWord
    | 0x02 => x.owner
    | 0x03 => x.place.groups.toNat
    | 0x04 => x.place.ports.toNat
    | 0x05 => x.hedge.toNat
    | 0x06 => x.relashes.toNat
    | 0x07 => x.tRelash
    | 0x08 => x.idleTime
    | 0x09 => x.family
    | 0x0A => x.relashSeq.toNat * 256 + x.relashResult % 256
    | 0x0B => (match x.errorFence with
        | some (f, n) => if (s.fence? f).any fun y => y.live && y.incarnation == n then f else 0xFFFF
        | none => 0xFFFF)
    | 0x0C => x.slice
    | 0x0D => x.holdCeiling
    | 0x0E => x.preempts.toNat
    | 0x0F => x.lastSwitch
    | _ => x.holdAborts.toNat

/-- A selected fence, or none where a read of it is refused (R425). -/
def State.selectedFence (s : State) : Option Fence :=
  if 65534 < s.host.fenceSelect then none else s.fence? s.host.fenceSelect

def State.numHost (s : State) (i sub : Nat) : Nat :=
  let notFree := fun (b : Nat) => (s.bight b).state != .free
  match i with
  | 0x4000 => ((List.range 256).filter notFree).length
  | 0x4001 => bitmap 32 (32 * (sub - 1)) notFree
  | 0x4011 => s.bights.opSeq.toNat * 2 ^ 24 + s.bights.opBight % 256 * 2 ^ 16 + s.bights.opKind % 256 * 256 + s.bights.opResult % 256
  | 0x4201 => s.host.opSeq.toNat * 2 ^ 24 + s.host.opKind % 256 * 2 ^ 16 + s.host.opResult % 256
  | 0x4202 => (match sub with
      | 1 => s.host.malformed.toNat
      | 2 => s.host.signalsIgnored.toNat
      | 3 => s.host.doorbellsDropped.toNat
      | _ => s.host.loose.toNat)
  | 0x4203 => s.queues.length
  | 0x4211 => s.host.fenceSelect
  | 0x4212 => (match s.selectedFence with
      | some x => if sub = 1 ∧ fenceBroken x.word = true then x.last.toNat else x.word.toNat
      | none => 0)
  | 0x4231 => s.host.abortSeq.toNat * 2 ^ 24 + s.host.abortResult % 256
  | 0x4232 => (match sub with | 1 => s.host.commits.toNat | 2 => s.host.reruns.toNat | _ => s.host.tooLate.toNat)
  | 0x4E00 => if sub = 0 then s.mesh.deadLetters.toNat else s.mesh.schedFaults.toNat
  | 0x4E01 => s.freeSlotsOf (sub - 1)
  | 0x4E02 => s.mesh.relays.toNat
  | 0x4E03 => (match sub with
      | 0 => s.mesh.retransmissions.toNat
      | 1 => s.mesh.dropsUnpowered.toNat
      | _ => s.mesh.dropsCheck.toNat)
  | 0x4E04 => pairs 16 (16 * (sub - 1)) fun h => divCode (s.divOf h)
  | _ => s.numBight (i - 0x4100) sub

/-! ### SRAM, HBM and translation (R314, R346, R388) -/

/-- 0x5082.00: the settings of the selected master (R346); PRESENT for a master that exists at the group (log 72). -/
def State.gateReadback (s : State) : Nat :=
  let m := fieldN s.hbm.select 6 9
  let g := fieldN s.hbm.select 0 6
  let v := (s.group g).setting m
  let there := if m < 256 then s.bightHolds m g else decide (m ≤ 306)
  v.class0.toNat * 2 ^ 58 + v.ceiling * 2 ^ 47 + v.weight * 2 ^ 39 + v.floor % 1024 * 2 ^ 29 + there.toNat * 2 ^ 28 + m * 64 + g

/-- The refresh multiplier of a row (R329). -/
def refreshMul (row : Nat) : Nat := match row with | 0 => 1 | 1 => 2 | _ => 4

def State.numGroup (s : State) (g sub : Nat) : Nat :=
  let x := s.group g
  match sub with
  | 0x05 => x.miss1.toNat
  | 0x06 => x.miss2.toNat
  | 0x07 => wholeDegrees x.temp
  | 0x08 => refreshMul x.row
  | 0x09 => (decide (thermalEighths x.row = 1)).toNat * 2 + (decide (thermalEighths x.row ≤ 4)).toNat
  | 0x0A => x.corrected
  | 0x0B => x.uncorrectable
  | 0x0C => x.demotions.toNat
  | 0x0D => s.capacity g
  | 0x0E => x.floorsScaled.toNat
  | 0x0F => x.notSent.toNat
  | 0x10 => x.onDie.toNat
  | _ => Tab.look 0 x.bytes (sub - 1) % 2 ^ 48

def State.numInWindow (s : State) (w sub : Nat) : Nat :=
  let x := s.inWin w
  match sub with
  | 0 => x.state
  | 1 => x.source
  | 2 => x.asid
  | 3 => x.base
  | 4 => x.length
  | _ => x.perm.toNat

def State.numOutWindow (s : State) (w sub : Nat) : Nat :=
  let x := s.outWin w
  match sub with
  | 0 => x.state
  | 1 => x.dest
  | 2 => x.window
  | 3 => x.ports.toNat
  | _ => x.length

def State.numMemory (s : State) (i sub : Nat) : Nat :=
  match i with
  | 0x5000 => (match sub with
      | 1 => s.sram.corrected
      | 2 => s.sram.uncorrectable
      | 3 => s.sram.refusedNarrow.toNat
      | 4 => s.sram.cancelled.toNat
      | _ => s.sram.notSent.toNat)
  | 0x5001 => s.sram.lastBad
  | 0x5010 => if sub = 1 then 5369 else s.sram.passes.toNat
  | 0x5011 => if sub = 1 then s.fuses.spareRows.length else s.fuses.spareColumns.length
  | 0x5013 => if sub = 0 then s.sram.retired.length
      else (match s.sram.retired[sub - 1]? with
        | some (c, fused) => 2 ^ 31 + fused.toNat * 2 ^ 30 + c
        | none => 0)
  | 0x5014 => (match s.sram.candidates with | c :: _ => 2 ^ 31 + c | [] => 0)
  | 0x5081 => s.hbm.select
  | 0x5082 => s.gateReadback
  | 0x5084 => s.hbm.failed.toNat
  | 0x5200 => s.xlat.contextTable.toNat
  | 0x5201 => (match sub with
      | 1 => s.xlat.entriesWritten.toNat
      | 2 => s.xlat.overflows.toNat
      | 3 => s.xlat.ignored.toNat
      | 4 => s.xlat.walks.toNat
      | 5 => s.xlat.refused.toNat
      | _ => s.xlat.completed.toNat)
  | 0x5210 => s.xlat.threshold
  | 0x5220 => s.xlat.objectTable.toNat
  | _ =>
    if i < 0x5200 then s.numGroup (i - 0x5100) sub
    else if i < 0x5500 then s.numInWindow (i - 0x5400) sub
    else s.numOutWindow (i - 0x5500) sub

/-! ### Links, pace and the handoff (R515, R538) -/

/-- The COUNTER of the selected transmit slot (R515). -/
def Port.txCounter (p : Port) : Nat := ((Tab.find? p.tx p.txSel).map (·.counter)).getD 0

/-- 0x6001 of a port: SECURE is set while its selected transmit slot is valid (R515). -/
def Port.statusByte (p : Port) : Nat := (Tab.find? p.tx p.txSel).isSome.toNat * 16 + p.rekeyDue.toNat * 8 + p.state % 8

def State.numPort (s : State) (n sub : Nat) : Nat :=
  let p := s.port n
  match sub with
  | 0x05 => p.txSel
  | 0x07 => p.txCounter
  | 0x08 => p.retransmissions.toNat
  | 0x09 => p.fecCorrected.toNat
  | 0x0A => p.fecBad.toNat
  | 0x0B => p.rejected.toNat
  | 0x0C => p.downs.toNat
  | _ => p.freeSlots

def State.numPace (s : State) (i sub : Nat) : Nat :=
  let x := s.pace i
  match sub with
  | 0x00 => x.policy
  | 0x05 => x.count
  | 0x06 => x.ports.toNat
  | 0x07 => (s.paceFloor x).getD 0
  | 0x08 => x.holdLimit
  | 0x09 => x.number
  | _ => if sub < 5 then fieldN x.bights.toNat (64 * (sub - 1)) 64 else Tab.look 0xFFFF x.members (sub - 0x10)

def State.numFabric (s : State) (i sub : Nat) : Nat :=
  match i with
  | 0x6000 => s.fabric.number
  | 0x6001 => (s.port (sub - 1)).statusByte
  | 0x6002 => (s.port (sub - 1)).width
  | 0x6003 => (match sub with | 1 => s.fabric.resends.toNat | 2 => s.fabric.ignored.toNat | _ => s.fabric.dropped.toNat)
  | 0x6500 => s.handoff.region.toNat
  | 0x6503 => s.handoff.lastOp.toNat
  | 0x6504 => (match sub with
      | 1 => s.handoff.unmatched.toNat
      | 2 => s.handoff.ignored.toNat
      | 3 => s.handoff.queries.toNat
      | _ => s.handoff.delayed.toNat)
  | 0x6510 => ((s.handoff.reports.head?).map (·.1.toNat)).getD 0 * 2 ^ 16 + s.handoff.reports.length
  | 0x6511 => s.handoff.select
  | _ =>
    if i < 0x6300 then s.numPort (i - 0x6100) sub
    else if i < 0x6400 then (s.inWin (i - 0x6300)).redPort
    else s.numPace (i - 0x6400) sub

/-! ### Security, errors and counters (R610, R635, R658) -/

def KeySlot.status (k : KeySlot) : Nat :=
  k.rotating.toNat * 16 + k.retiring.toNat * 8 + k.gen.toNat * 4 + k.key1.isSome.toNat * 2 + k.key0.isSome.toNat

def State.numKeySlot (s : State) (i sub : Nat) : Nat :=
  let k := s.keySlot i
  match sub with
  | 0 => k.owner.getD 0xFF
  | 3 => k.status
  | 6 => k.refs0 + k.refs1
  | 7 => k.moved.toNat
  | _ => k.unkeyed.toNat

def State.numSecurity (s : State) (i sub : Nat) : Nat :=
  let x := s.security
  match i with
  | 0x7001 => s.fuses.rsaChain.length
  | 0x7002 => s.fuses.slhChain.length
  | 0x7010 => (match sub with
      | 1 => s.boot.fwVersion.toNat
      | 2 => s.boot.svn
      | 3 => s.fuses.rollback
      | _ => s.boot.buildId.toNat)
  | 0x7021 => if sub = 0 then x.reportSeq.toNat % 256 * 2 ^ 24 + x.reportState else x.report.length
  | 0x7031 => x.measureSeq.toNat * 2 ^ 24 + x.measureBight % 256 * 2 ^ 16 + x.measuring.isSome.toNat * 256 + x.measureResult % 256
  | 0x7041 => x.removalSeq.toNat * 2 ^ 24 + x.removalFn % 256 * 2 ^ 16 + x.removalState % 256 * 256 + x.removalResult % 256
  | 0x7042 => x.late.toNat
  | 0x7050 => bitmap 32 (32 * (sub - 1)) fun b => (s.bight b).fineCounters
  | 0x7060 => if sub = 0 then s.boot.vendorDebug.toNat else if s.boot.vendorDebug then s.boot.scope.toNat else 0
  | 0x7062 => s.boot.tokenResult
  | 0x7063 => s.fuses.debugDisabled.toNat
  | _ => s.numKeySlot (i - 0x7100) sub

def State.numErrors (s : State) (i sub : Nat) : Nat :=
  let e := s.errors
  match i with
  | 0x8000 => s.supply.cause
  | 0x8001 => if sub = 0 then e.rootstock.toNat * 128 + e.entering.toNat * 64 + e.causes.toNat else e.entries.toNat
  | 0x8010 => (match sub with | 0 => e.threshold | 1 => e.windowMs | _ => s.countedNow.length)
  | 0x8020 => (match sub with
      | 0 => ((e.events.head?).map (·.2.1.toNat)).getD 0 * 2 ^ 16 + e.events.length
      | _ => e.replaced.toNat)
  | 0x8030 => if sub = 0 then e.faultSelect else e.faultTotal.toNat
  | 0x9000 => s.dict.snapshots.toNat
  | _ => Tab.look 0 s.dict.snapshot (16 * (i - 0x9010) + sub)

/-- The number that an object of a numeric type holds. -/
def State.objNum (s : State) (i sub : Nat) : Nat :=
  if i < 0x2000 then s.numIdentity i sub
  else if i < 0x3000 then s.numFrame i sub
  else if i < 0x4000 then s.numPower i sub
  else if i < 0x5000 then s.numHost i sub
  else if i < 0x6000 then s.numMemory i sub
  else if i < 0x7000 then s.numFabric i sub
  else if i < 0x8000 then s.numSecurity i sub
  else s.numErrors i sub

/-! ### Octet strings -/

/-- The 16 bytes of an event log entry (R647). -/
def eventBytes (e : BitVec 24 × BitVec 16 × BitVec 16 × BitVec 64) : Bytes :=
  leBytes 4 e.1.toNat ++ leBytes 2 e.2.1.toNat ++ leBytes 2 e.2.2.1.toNat ++ leBytes 8 e.2.2.2.toNat

/-- The 32 bytes of a fault record (R648). -/
def faultBytes (e : BitVec 24 × Nat × List Flit) : Bytes :=
  slice (leBytes 4 e.1.toNat ++ leBytes 1 e.2.1 ++ leBytes 1 e.2.2.length ++ [0, 0] ++ e.2.2.flatMap fun f => leBytes 4 f.toNat) 0 32

/-- The bytes that an octet string holds (R530, R538, R573 to R575, R582, R590, R633, R647, R648). -/
def State.objOctets (s : State) (i sub : Nat) : Bytes :=
  match i with
  | 0x1012 => s.fuses.mac
  | 0x6510 => ((s.handoff.reports.head?).map (·.2)).getD []
  | 0x6511 => (s.slot s.handoff.select).entry
  | 0x7000 => (match sub with
      | 1 => s.fuses.moduleId
      | 2 => Crypto.digestBytes (Crypto.sha384 s.fuses.rsaSpki)
      | 3 => Crypto.digestBytes (Crypto.sha384 s.fuses.slhPub)
      | 4 => s.fuses.rsaModulus
      | _ => s.fuses.slhPub)
  | 0x7001 => slice s.fuses.rsaChain (1024 * (sub - 1)) 1024
  | 0x7002 => slice s.fuses.slhChain (1024 * (sub - 1)) 1024
  | 0x7010 => Crypto.digestBytes (if sub = 4 then s.boot.imageDigest else s.fuses.romDigest)
  | 0x7022 => slice s.security.report (1024 * (sub - 1)) 1024
  | 0x8020 => ((s.errors.events.head?).map eventBytes).getD []
  | 0x8030 => ((s.errors.faults[s.errors.faultSelect]?).map faultBytes).getD []
  | _ => []

/-- The value of an object as its bytes (R613). -/
def State.objValue (s : State) (r : ObjRow) (i sub : Nat) : Bytes :=
  match r.ty with
  | .octet n => slice (s.objOctets i sub) 0 n
  | t => leBytes t.len (s.objNum i sub)

/-- A read of an object (R614, R618, R621): its status and its value, empty unless the status is OK. -/
def State.dictRead (s : State) (v : Via) (i sub : Nat) : Nat × Bytes :=
  match findObj i sub with
  | .error e => (e, [])
  | .ok r =>
    if !s.levelOk v r.expert then (dLevel, [])
    else if r.acc = .wo then (dAccess, [])
    else if i = 0x4212 ∧ s.selectedFence.isNone = true then (dRefused, [])
    else (dOk, s.objValue r i sub)

/-- A DESCRIBE of an object (R618, R624): its status and the eight bytes of its description. -/
def State.dictDescribe (s : State) (v : Via) (i sub : Nat) : Nat × Bytes :=
  match findObj i sub with
  | .error e => (e, [])
  | .ok r => if !s.levelOk v r.expert then (dLevel, []) else (dOk, wordBytes r.describe)

end Sys2Proof.Machine
end

