-- ==== Sys2Proof/Machine/Reset.lean ====
section
/-! DEFINITION. The commands of resets, of the supply and of the two lines that the board drives (R637 to R640, R664, R671,
R675). -/

namespace Sys2Proof.Machine

/-! ### Reset (R637, R638) -/

/-- The module in reset for a cause: everything is lost but fuses and the cause latch (R638). The supply monitor, the input
switch and the reset line are not the module's to lose; the input must hold for 200 µs again (R640). Row blocks fused as
retired are retired (R307). The guard steps are those of the fused wear (R555, R558, log 218). -/
def State.resetFor (s : State) (cause : Nat) : State :=
  { State.reset with
    pending := s.pending
    now := s.now
    fresh := s.fresh
    nextReq := s.nextReq
    sent := s.sent
    fuses := s.fuses
    frame := { boundaryAt := s.now }
    power := { guardStep := (List.range 16).foldl (fun (g : Tab Nat) d => Tab.put 0 g d (s.guardOf d)) [] }
    sram := { retired := s.fuses.retired.map fun c => (c, true) }
    supply := { s.supply with goodCount := 0, good := false, inReset := true, cause } }

/-- Reset deasserts (R30, R576, R640, R641): the management domain and the die uncores of dies 0 and 3, which hold the PCIe
controllers, are ON, and the boot ROM waits for an image, with a fresh nonce. -/
def State.deassert (s : State) (nonce : Bytes) : State :=
  { s with
    supply := { s.supply with good := true, inReset := false }
    boot := { s.boot with state := .waitImage, nonce := slice nonce 0 32 }
    domains := Tab.set (Tab.set (Tab.set s.domains 624 { state := .on }) 627 { state := .on }) 640 { state := .on }
    frame := { s.frame with boundaryAt := s.now } }

/-- The input has been at or above 48.0 V for 200 µs (R640). -/
def State.supplyMet (s : State) : Bool := s.supply.inReset && decide (200 ≤ s.supply.goodCount)

/-- SUPPLY_GOOD nonce (R640): reset deasserts, unless RESET_IN# is low (R671). `nonce` is what the random source draws (R576). -/
def execSupplyGood (nonce : Bytes) (s : State) : Out :=
  .next (if s.supplyMet && !s.supply.resetInLow then s.deassert nonce else s)

/-- SUPPLY_RESET (R567, R637): the input falls below 40.0 V. -/
def execSupplyReset (s : State) : Out := .next (s.resetFor 1)

/-- INPUT_SWITCH_ON (R664). -/
def execInputSwitchOn (s : State) : Out :=
  .next (if s.supply.charging then { s with supply := { s.supply with charging := false, converters := true } } else s)

/-- PERST (R637): PERST# on PCIe port 0. -/
def execPerst (s : State) : Out := .next (s.resetFor 2)

/-- PERST_PORT_1 (R639): port 1 goes down as in R429 and trains again. -/
def execPerstPort1 (s : State) : Out :=
  .next ((s.pcieDown 1) |> fun s => { s with host := { s.host with linkUp := [0, 1].filter fun p => p == 1 || s.host.linkUp.contains p } })

/-- RESET_IN (R637, R671): RESET_IN# has been low for 10 µs. -/
def execResetIn (s : State) : Out :=
  .next ((s.resetFor 3) |> fun s => { s with supply := { s.supply with resetInLow := true } })

/-- RESET_IN_RELEASE (R671): RESET_IN# returns high; with supply good already met, reset deasserts. The nonce that is drawn is
free. -/
def execResetInRelease (s : State) : Out :=
  .next (if !s.supply.resetInLow then s
    else
      let s := { s with supply := { s.supply with resetInLow := false } }
      if s.supplyMet then
        let (nonce, s) := s.freeBytes
        s.deassert nonce
      else s)

/-- WATCHDOG (R637). -/
def execWatchdog (s : State) : Out := .next (if s.supply.inReset then s else s.resetFor 4)

/-- A write of 0x8002.00 (R637, R658). -/
def putReset (v : BitVec 32) : Act := fun s => if v = 0x4E475253 then (dOk, s.resetFor 5) else (dRefused, s)

/-- DICTIONARY_RESET (R637). -/
def execDictionaryReset (via : Via) (value : BitVec 32) (s : State) : Out :=
  .next (s.objWrite via false true (putReset value))

/-! ### The management port (R675) -/

/-- SGMII_AUTO_NEGOTIATION link mbps (R675): frames are carried only with link at 1,000 Mb/s. -/
def execSgmiiAutoNegotiation (link : Bool) (mbps : Nat) (s : State) : Out :=
  .next { s with dict := { s.dict with sgmiiUp := link && mbps == 1000 } }

/-- MOD_ALERT# is low (R672): from the start of a reset until READY, in Reef and in Rootstock. -/
def State.modAlertLow (s : State) : Bool := !s.isReady || s.power.reef || s.errors.rootstock

end Sys2Proof.Machine
end

