-- ==== Sys2Proof/Machine/DictWrite.lean ====
section
/-! DEFINITION. What a write of each object of the dictionary does, and the registers that the host writes (R82, R288, R314, R346,
R367, R375, R384, R388, R395, R433, R470, R515, R538, R571, R576, R610, R622, R633, R635, R658). -/

namespace Sys2Proof.Machine

/-! ### Identity and communication (R395, R618, R630, R633) -/

/-- A write of 0x1011 (R630, R633): a change closes every Modbus connection. -/
def putNetwork (sub : Nat) (v : Nat) : Act := fun s =>
  let d := s.dict
  let ok := match sub with
    | 2 => decide (8 ≤ v) && decide (v ≤ 30)
    | 4 => decide (v < 2 ^ 16)
    | _ => true
  if !ok then (dRange, s)
  else
    let d' := match sub with
      | 1 => { d with ip := v }
      | 2 => { d with prefixLen := v }
      | 3 => { d with gateway := v }
      | 4 => { d with udpPort := v }
      | _ => { d with modbusEnabled := v % 2 == 1 }
    (dOk, { s with dict := if d' = d then d else { d' with modbusConns := [] } })

/-- A write of 0x1014.01 to .04 (R627, R633): the key is set and its counters start again. -/
def putManagementKey (k : Nat) (key : Bytes) : Act := fun s =>
  if key.length ≠ 32 then (dLength, s)
  else (dOk, { s with dict := { s.dict with keys := Tab.set s.dict.keys k { key := some key } } })

/-- A flag that an object holds: 0 or 1. -/
def putFlag (v : Nat) (act : Bool → State → State) : Act := fun s => if 1 < v then (dRange, s) else (dOk, act (v == 1) s)

/-- A write of 0x1015 (R618). -/
def putExpert (sub v : Nat) : Act :=
  putFlag v fun b s => { s with dict := if sub = 1 then { s.dict with expertMbox := b } else { s.dict with expertEth := b } }

/-- A write of 0x1021.n (R395): reserved bits read as zero. -/
def putAper (fn : Nat) (v : BitVec 64) : Act := fun s =>
  (dOk, s.modFn fn fun f => { f with aper := v &&& 0x800FFFFFC0000FFF })

/-- A write of 0x1030 (R634). -/
def putLabel (sub v : Nat) : Act := fun s => (dOk, { s with dict := { s.dict with labels := Tab.put 0 s.dict.labels sub v } })

/-! ### Bights (R82, R286, R288, R470, R548) -/

/-- A write of a field of a lashed bight (R82). -/
def putLashed (b : Nat) (f : Bight → Bight) : Act := fun s => if s.isLashed b then (dOk, s.modBight b f) else (dRefused, s)

/-- A write of a field of a bight that is not free (R288, R571). -/
def putUsed (b : Nat) (f : Bight → Bight) : Act := fun s =>
  if (s.bight b).state = .free then (dRefused, s) else (dOk, s.modBight b f)

/-- A write of 0x3200 + b .00 (R548, R571). -/
def putTrimFloor (b v : Nat) : Act := fun s =>
  if 7 < v then (dRange, s)
  else
    let (st, s) := putUsed b (fun x => { x with trimFloor := v }) s
    (st, s.retune)

/-- A write of 0x3003.00 (R559). -/
def putBoostPermit (v : Nat) : Act := putFlag v fun b s => ({ s with power := { s.power with boostPermit := b } }).retune

/-- A write of 0x4100 + b .0D (R465, R470). -/
def putHoldCeiling (b v : Nat) : Act := fun s => if v = 0 then (dRange, s) else putUsed b (fun x => { x with holdCeiling := v }) s

/-- A write of 0x7050 (R608). -/
def putFineCounters (sub : Nat) (v : BitVec 32) : Act := fun s =>
  (dOk, (List.range 32).foldl (fun (s : State) i =>
    s.modBight (32 * (sub - 1) + i) fun x => { x with fineCounters := v.getLsbD i }) s)

/-! ### Windows (R384, R388, R495) -/

/-- A write of a field of an inbound window other than its state (R384, R388). -/
def putInWindow (w sub v : Nat) : Act := fun s =>
  let x := s.inWin w
  if (sub = 3 ∨ sub = 4) ∧ v % 65536 ≠ 0 then (dRange, s)
  else if x.state ≠ 0 then (dRefused, s)
  else
    (dOk, s.setInWin w (match sub with
      | 1 => { x with source := v }
      | 2 => { x with asid := v % 4096 }
      | 3 => { x with base := v }
      | 4 => { x with length := v }
      | _ => { x with perm := BitVec.ofNat 8 (v % 16) }))

/-- A write of a field of an outbound window other than its state (R384, R388). -/
def putOutWindow (w sub v : Nat) : Act := fun s =>
  let x := s.outWin w
  if sub = 4 ∧ (v % 65536 ≠ 0 ∨ 2 ^ 40 < v) then (dRange, s)
  else if x.state ≠ 0 then (dRefused, s)
  else
    (dOk, s.setOutWin w (match sub with
      | 1 => { x with dest := v }
      | 2 => { x with window := v }
      | 3 => { x with ports := BitVec.ofNat 64 (v % 2 ^ 48) }
      | _ => { x with length := v }))

/-- A write of 0x6300 + w (R495, R515). -/
def putReductionPort (w v : Nat) : Act := fun s =>
  if v = 0xFF ∨ v < 48 then (dOk, s.setInWin w { s.inWin w with redPort := v }) else (dRange, s)

/-! ### Pace groups (R509, R511, R515) -/

/-- A write of a field of a pace group. The notice of a member that is replaced stands no more, nor do those of another fabric group
(R511). -/
def putPace (i sub v : Nat) : Act := fun s =>
  let x := s.pace i
  let ok := fun (y : PaceGroup) => (dOk, s.setPace i y)
  match sub with
  | 0x00 => if 3 < v then (dRange, s) else ok { x with policy := v }
  | 0x05 => if 64 < v then (dRange, s) else ok { x with count := v }
  | 0x06 => ok { x with ports := BitVec.ofNat 64 (v % 2 ^ 48) }
  | 0x08 => if v = 0 then (dRange, s) else ok { x with holdLimit := v }
  | 0x09 => ok { x with number := v, notices := if v = x.number then x.notices else [] }
  | _ =>
    if sub < 5 then
      let lo := 64 * (sub - 1)
      let n := x.bights.toNat
      ok { x with bights := BitVec.ofNat 256 (n - fieldN n lo 64 * 2 ^ lo + v * 2 ^ lo) }
    else
      let k := sub - 0x10
      ok { x with
        members := Tab.put 0xFFFF x.members k v
        notices := if Tab.look 0xFFFF x.members k = v then x.notices else Tab.erase x.notices k }

/-! ### Selects, thresholds and counters (R346, R382, R433, R538, R635, R649, R658) -/

/-- A write of 0x8010 (R649, R658). -/
def putErrorWindow (sub v : Nat) : Act := fun s =>
  if sub = 0 then
    if v = 0 then (dRange, s) else (dOk, { s with errors := { s.errors with threshold := v } })
  else if 10 ≤ v ∧ v ≤ 60000 then (dOk, { s with errors := { s.errors with windowMs := v } })
  else (dRange, s)

/-- A write of 0x9000.01 (R635): every count is copied at one instant. -/
def putSnapshot (v : Nat) : Act := fun s =>
  if v = 1 then (dOk, { s with dict := { s.dict with
    snapshot := Tab.mapPut 0 (fun (_ : Nat) n => n % 2 ^ 64) s.dict.activity, snapshots := s.dict.snapshots + 1 } })
  else (dRange, s)

/-! ### All objects -/

/-- The write of an object of the ranges 0x1000 to 0x3FFF. -/
def actLow (i sub v : Nat) (d : Bytes) : Act :=
  match i with
  | 0x1011 => putNetwork sub v
  | 0x1014 => putManagementKey (sub - 1) d
  | 0x1015 => putExpert sub v
  | 0x1020 => putFunctionPort sub (BitVec.ofNat 8 v)
  | 0x1021 => putAper sub (BitVec.ofNat 64 v)
  | 0x1030 => putLabel sub v
  | 0x2001 => putPolicyMode (BitVec.ofNat 8 v)
  | 0x2011 => putNominal (BitVec.ofNat 32 v)
  | 0x2012 => putPreset (BitVec.ofNat 64 v)
  | 0x2020 => putModuleGrant (BitVec.ofNat 32 v)
  | 0x3001 => putCap (BitVec.ofNat 32 v)
  | 0x3002 => putFixedFreq (BitVec.ofNat 8 v)
  | 0x3003 => putBoostPermit v
  | 0x3101 => putMemoryHold sub (BitVec.ofNat 32 v)
  | 0x3102 => putDomainRequest (BitVec.ofNat 32 v)
  | _ =>
    if i < 0x3000 then
      let b := i - 0x2100
      match sub with
      | 0 => putBightGrant b (BitVec.ofNat 32 v)
      | 6 => putLashed b fun x => { x with fallback := v }
      | _ => putLashed b fun x => { x with weight := v }
    else putTrimFloor (i - 0x3200) v

/-- The write of an object of the ranges 0x4000 to 0x5FFF; `answer` is what the host answers where the write makes the module read
a record. -/
def actMid (i sub v : Nat) (answer : HostAns) : Act :=
  match i with
  | 0x4010 => putLash v answer
  | 0x4012 => putRelease (BitVec.ofNat 16 v)
  | 0x4200 => putQueueRecord v answer
  | 0x4210 => putFenceRecord v answer
  | 0x4211 => fun s => (dOk, { s with host := { s.host with fenceSelect := v } })
  | 0x4220 => putTeardownRecord v answer
  | 0x4230 => putAbort (BitVec.ofNat 64 v)
  | 0x5012 => putRetire (BitVec.ofNat 32 v)
  | 0x5080 => putGateSetting (BitVec.ofNat 64 v)
  | 0x5081 => fun s => (dOk, { s with hbm := { s.hbm with select := v % 2 ^ 15 } })
  | 0x5200 => putContextTable (BitVec.ofNat 64 v)
  | 0x5210 => fun s => if v = 0 then (dRange, s) else (dOk, { s with xlat := { s.xlat with threshold := v } })
  | 0x5220 => putObjectTable (BitVec.ofNat 64 v)
  | _ =>
    if i < 0x5000 then
      let b := i - 0x4100
      match sub with
      | 0x05 => putHedge b (BitVec.ofNat 32 v)
      | 0x08 => putUsed b fun x => { x with idleTime := v }
      | 0x0B => putErrorFence b (BitVec.ofNat 16 v)
      | 0x0C => putUsed b fun x => { x with slice := v }
      | _ => putHoldCeiling b v
    else if i < 0x5500 then
      if sub = 0 then putInState (i - 0x5400) (BitVec.ofNat 8 v) else putInWindow (i - 0x5400) sub v
    else if sub = 0 then putOutState (i - 0x5500) (BitVec.ofNat 8 v)
    else putOutWindow (i - 0x5500) sub v

/-- The write of an object of the range 0x6000. -/
def actFabric (i sub v : Nat) (d : Bytes) : Act :=
  match i with
  | 0x6000 => fun s => (dOk, { s with fabric := { s.fabric with number := v } })
  | 0x6500 => putHandoffRegion (BitVec.ofNat 64 v)
  | 0x6501 => putSlotOp (BitVec.ofNat 16 v)
  | 0x6502 => putVerdict (BitVec.ofNat 64 v)
  | 0x6510 => putReportRemove (BitVec.ofNat 16 v)
  | 0x6511 => fun s => (dOk, { s with handoff := { s.handoff with select := v } })
  | _ =>
    if i < 0x6300 then
      let p := i - 0x6100
      match sub with
      | 1 => putTxKey p 0 d
      | 2 => putTxKey p 1 d
      | 3 => putRxKey p 0 d
      | 4 => putRxKey p 1 d
      | 5 => putTxSel p (BitVec.ofNat 8 v)
      | _ => putRxInvalid p (BitVec.ofNat 8 v)
    else if i < 0x6400 then putReductionPort (i - 0x6300) v
    else putPace (i - 0x6400) sub v

/-- The write of an object of the ranges 0x7000 to 0x9FFF. -/
def actHigh (i sub v : Nat) (d : Bytes) : Act :=
  match i with
  | 0x7020 => putReportRequest d
  | 0x7030 => putMeasure d
  | 0x7040 => putRemoval (BitVec.ofNat 16 v)
  | 0x7050 => putFineCounters sub (BitVec.ofNat 32 v)
  | 0x7061 => putDebugDisable (BitVec.ofNat 32 v)
  | 0x8001 => putExit (BitVec.ofNat 8 v)
  | 0x8002 => putReset (BitVec.ofNat 32 v)
  | 0x8010 => putErrorWindow sub v
  | 0x8020 => putEventRemove (BitVec.ofNat 16 v)
  | 0x8030 => fun s => if 63 < v then (dRange, s) else (dOk, { s with errors := { s.errors with faultSelect := v } })
  | 0x9000 => putSnapshot v
  | _ =>
    let k := i - 0x7100
    match sub with
    | 0 => putKeyOwner k (BitVec.ofNat 8 v)
    | 1 => putKey k false d
    | 2 => putKey k true d
    | 4 => putRotation k d
    | _ => putZeroize k (BitVec.ofNat 8 v)

/-- The write of an object that may be written, with data of its type's length. -/
def objAct (i sub : Nat) (d : Bytes) (answer : HostAns) : Act :=
  let v := leNat d
  if i < 0x4000 then actLow i sub v d
  else if i < 0x6000 then actMid i sub v answer
  else if i < 0x7000 then actFabric i sub v d
  else actHigh i sub v d

/-- The checks of a write that come before its data are looked at (R621): its object, or the status. -/
def State.writable (s : State) (v : Via) (i sub len : Nat) : Except Nat ObjRow :=
  match findObj i sub with
  | .error e => .error e
  | .ok r =>
    if v = .ethernet ∧ ethMayWrite i = false then .error dTransport
    else if !s.levelOk v r.expert then .error dLevel
    else if r.acc = .ro then .error dAccess
    else if len ≠ r.ty.len then .error dLength
    else .ok r

/-! ### Vendor objects (R621, R622, R636, log 159) -/

/-- The index is one of the objects whose contents R636 leaves out of the manual, in the state in which they exist. -/
def State.vendorHas (s : State) (i : Nat) : Bool := s.boot.vendorDebug && decide (0xA000 ≤ i) && decide (i < 0xB000)

/-- How a request for such an object ends: with one of these statuses, and where it is OK with some data; which is open. -/
def State.vendorAnswer (s : State) (statuses : List Nat) : (Nat × Bytes) × State :=
  let (n, s) := s.freeNat
  let (d, s) := s.freeBytes
  let st := statuses.getD (n % statuses.length) dNoObject
  ((st, if st = dOk then d.take 1024 else []), s)

/-- The statuses that a READ of such an object may end with (R621). -/
def vendorReads : List Nat := [dNoObject, dNoSubindex, dLevel, dAccess, dBusy, dRefused, dOk]

/-- Those of a WRITE: the Ethernet transport writes none of them (R622). -/
def vendorWrites (v : Via) : List Nat :=
  match v with
  | .ethernet => [dNoObject, dNoSubindex, dTransport]
  | .mailbox => [dNoObject, dNoSubindex, dLevel, dAccess, dLength, dRange, dBusy, dRefused, dOk]

/-- A READ of an object, the vendor objects among them (R621, R636). -/
def State.objRead (s : State) (v : Via) (i sub : Nat) : (Nat × Bytes) × State :=
  if s.vendorHas i then s.vendorAnswer vendorReads else (s.dictRead v i sub, s)

/-- A DESCRIBE of an object, the vendor objects among them (R624, R636). -/
def State.objDescribe (s : State) (v : Via) (i sub : Nat) : (Nat × Bytes) × State :=
  if s.vendorHas i then
    let (r, s) := s.vendorAnswer [dNoObject, dNoSubindex, dLevel, dOk]
    ((r.1, if r.1 = dOk then leBytes 8 (leNat r.2) else []), s)
  else (s.dictDescribe v i sub, s)

/-- A write of an object (R614, R615, R621, R622): its status, and the state; what a vendor object does is open (log 159). -/
def State.dictWrite (s : State) (v : Via) (i sub : Nat) (d : Bytes) (answer : HostAns) : Nat × State :=
  if s.vendorHas i then
    let (r, s) := s.vendorAnswer (vendorWrites v)
    (r.1, s)
  else
    match s.writable v i sub d.length with
    | .error e => (e, s)
    | .ok _ => objAct i sub d answer s

/-! ### Registers (R312, R367, R375, R395, R576, R609, R623) -/

/-- The register as an access of 4 or 8 bytes leaves it (log 73). -/
def mergeWord (old : Word) (offset width : Nat) (v : Word) : Word :=
  if width = 8 then v
  else if offset % 8 = 0 then (old &&& 0xFFFFFFFF00000000) ||| (v &&& 0xFFFFFFFF)
  else (old &&& 0xFFFFFFFF) ||| (v <<< 32)

/-- The two words of an entry of the MSI-X table: address, then data and vector control. -/
def Msix.words (m : Msix) : Word × Word := (m.addr, m.control ++ m.data)

/-- A write of the MSI-X table (R395): unmasking a vector whose pending bit is set sends its message. -/
def State.putMsix (s : State) (fn offset width : Nat) (v : Word) : State :=
  let i := (offset - 0x2000) / 16
  let m := Tab.look ({} : Msix) (s.fn fn).msix i
  let m' : Msix :=
    if offset % 16 < 8 then { m with addr := mergeWord m.words.1 offset width v }
    else
      let w := mergeWord m.words.2 offset width v
      { m with data := w.setWidth 32, control := (w >>> 32).setWidth 32 &&& 1 }
  let s := s.modFn fn fun f => { f with msix := Tab.put {} f.msix i m' }
  if (s.fn fn).pba.getLsbD i && !m'.control.getLsbD 0 then
    (s.modFn fn fun f => { f with pba := f.pba &&& ~~~((1 : Word) <<< i) }).irq fn i
  else s

/-- A write of MG_FAULT_RESOLVE (R371): ACTION 0 and 3 resolve nothing and are counted. -/
def State.putResolve (s : State) (fn : Nat) (v : Word) : State :=
  match fieldN v.toNat 32 2 with
  | 1 => s.takeResolve fn (v.setWidth 32) false
  | 2 => s.takeResolve fn (v.setWidth 32) true
  | _ => s.staleResolve

/-- A write of MG_FRING_CONS (R367, R370): space in the ring lets the next overflow count anew. -/
def State.putRingCons (s : State) (fn : Nat) (v : Word) : State :=
  (s.modFn fn fun f => { f with ringCons := v.setWidth 32 }).ringRoom fn

/-- A write of a boot register by function 0 through a port (R576, R577). -/
def State.putBootReg (s : State) (port offset width : Nat) (v : Word) : State :=
  let b := s.boot
  match offset / 8 * 8 with
  | 0x48 => { s with boot := { b with image := mergeWord b.image offset width v &&& 0xFFFFFFFFFFFFF000 } }
  | 0x50 => { s with boot := { b with len := mergeWord b.len offset width v &&& 0x3FFFFFF } }
  | 0x58 => { s with boot := { b with token := mergeWord b.token offset width v &&& 0xFFFFFFFFFFFFF000 } }
  | 0x60 => s.bootGo port (mergeWord 0 offset width v)
  | _ => s

/-- A write of a register of function `fn`'s block (R395); read-only registers and offsets that the block lacks keep their
contents. A mailbox command has rows of its own. -/
def State.putFnReg (s : State) (fn port offset width : Nat) (v : Word) : State :=
  let f := s.fn fn
  if 0x8000 ≤ offset ∧ offset < 0x8800 then
    if offset % 8 = 0 then s.ringDoorbell fn ((offset - 0x8000) / 8) (v.setWidth 32) else s
  else if 0x2000 ≤ offset ∧ offset < 0x2400 then s.putMsix fn offset width v
  else
    match offset / 8 * 8 with
    | 0x0010 => s.putIrqCause fn (mergeWord 0 offset width v)
    | 0x0020 => s.modFn fn fun f => { f with bsel := (mergeWord (f.bsel.setWidth 64) offset width v).setWidth 8 }
    | 0x0800 => s.putRingBase fn (mergeWord f.ringBase offset width v)
    | 0x0810 => s.putRingCons fn (mergeWord (f.ringCons.setWidth 64) offset width v)
    | 0x0818 => s.modFn fn fun f => { f with ringPaddr := mergeWord f.ringPaddr offset width v &&& 0xFFFFFFFFFFFFFFF8 }
    | 0x0828 => s.putResolve fn (mergeWord 0 offset width v)
    | r =>
      if fn ≠ 0 then s
      else
        match r with
        | 0x0410 => { s with dict := { s.dict with mboxData := mergeWord s.dict.mboxData offset width v } }
        | 0x0418 => { s with dict := { s.dict with mboxBuf := mergeWord s.dict.mboxBuf offset width v &&& 0xFFFFFFFFFFFFFFC0 } }
        | 0x0840 => { s with xlat := { s.xlat with invAddr := mergeWord s.xlat.invAddr offset width v &&& 0x000FFFFFFFFF0000 } }
        | 0x0848 =>
          let w := mergeWord 0 offset width v
          s.putInvCtrl (w.getLsbD 29) w
        | _ => s.putBootReg port offset width v

/-- A write of a register of a cluster's block (R312, R313). -/
def State.putClusterReg (s : State) (c offset width : Nat) (v : Word) : State :=
  match offset / 8 * 8 with
  | 0x0200 => { s with sram := { s.sram with
      flipLo := Tab.put 0 s.sram.flipLo c (mergeWord (Tab.look 0 s.sram.flipLo c) offset width v) } }
  | 0x0208 => s.putFlipHi c (mergeWord (Tab.look 0 s.sram.flipHi c) offset width v)
  | _ => s

/-- A write of the MMIO range through BAR4 (R393, R394): function blocks and cluster blocks; router registers are read-only. -/
def State.putMmio (s : State) (port offset width : Nat) (v : Word) : State :=
  if offset < 0x400000 then s.putFnReg (offset / 65536) port (offset % 65536) width v
  else if 0x10000000 ≤ offset ∧ offset < 0x12000000 then
    s.putClusterReg ((offset - 0x10000000) / 65536) (offset % 65536) width v
  else s

/-- A host write through BAR0 or BAR4 of a function (R393, R576): before READY only function 0's boot registers take it. A write
of function 0 is taken as coming through the port that serves it (R390, log 12). -/
def State.hostRegWrite (s : State) (fn bar offset width : Nat) (v : Word) : State :=
  let port := s.portOfFn fn
  if !s.isReady then
    if fn = 0 ∧ bar = 0 ∧ s.supply.inReset = false ∧ s.fnUp fn = true then s.putBootReg port offset width v else s
  else if !s.regsOpen fn then s
  else if bar = 0 then (if offset < 65536 then s.putFnReg fn port offset width v else s)
  else if fn = 0 ∧ bar = 4 then s.putMmio port offset width v
  else s

/-- REGISTER_WRITE target (R391, R395, R615, R621): a write of an object, of a register, or of a port's VF Enable. -/
def execRegisterWrite (t : WriteTarget) (s : State) : Out :=
  match t with
  | .object via i sub d answer =>
    if s.dictOpen via then
      let (st, s') := s.dictWrite via i sub d answer
      .next (s'.noteStatus via st)
    else .next s
  | .mmio fn bar offset width v => .next (s.hostRegWrite fn bar offset width v)
  | .vfEnable port on =>
    .next (if s.isReady && s.host.linkUp.contains port then
        { s with host := { s.host with vfEnabled := if on then withOne s.host.vfEnabled port else without s.host.vfEnabled port } }
      else s)

end Sys2Proof.Machine
end

