-- ==== Sys2Proof/Machine/Dictionary.lean ====
section
/-! DEFINITION. The commands of the dictionary's three transports: the mailbox, the management Ethernet protocol and Modbus TCP (R611
to R636). -/

namespace Sys2Proof.Machine

/-! ### The mailbox (R623 to R625) -/

/-- Function 0's mailbox can be reached through a port. -/
def State.mboxOpen (s : State) (port : Nat) : Bool := s.isReady && s.host.linkUp.contains port

/-- A command ends (R623 to R625): its status, the length returned, and cause bit [0]. A command that resets the module leaves the
reset state. -/
def State.mboxDone (s : State) (seq : BitVec 16) (status len : Nat) : State :=
  if s.supply.inReset then s
  else
    ({ s with dict := { s.dict with mboxSeq := seq, mboxStatus := status, mboxLen := len, mboxState := 2 } }).cause 0 0
      |>.noteStatus .mailbox status

/-- A write of MG_MBOX_CMD through a port (R625): while the state is busy it is ignored and sets OVERRUN. The request passes
through busy to done within the command. -/
def State.mboxCommand (s : State) (port : Nat) (act : State → State) : State :=
  if !s.mboxOpen port then s
  else if s.dict.mboxState = 1 then { s with dict := { s.dict with mboxOverrun := true } }
  else act s

/-- Return the value of a READ or a DESCRIBE (R624): up to 8 bytes in MG_MBOX_DATA, more through the host buffer, whose write may
meet a host error. -/
def State.mboxReturn (s : State) (port : Nat) (r : Nat × Bytes) (bufferOk : Bool) : State :=
  let seq := s.dict.mboxSeq + 1
  let (status, d) := r
  if status ≠ dOk then s.mboxDone seq status 0
  else if d.length ≤ 8 then ({ s with dict := { s.dict with mboxData := wordOfBytes d } }).mboxDone seq dOk d.length
  else if bufferOk then (s.hostWriteVia 0 port s.dict.mboxBuf.toNat d).mboxDone seq dOk d.length
  else (s.aer 0).mboxDone seq dHostError 0

/-- The LENGTH of a command word is out of range (R625). -/
def lenBad (len : Nat) : Bool := decide (1024 < len)

/-- MBOX_READ port, index, sub, len (R624): `bufferOk` says whether the write of the host buffer succeeds. -/
def execMboxRead (port index sub len : Nat) (bufferOk : Bool) (s : State) : Out :=
  .next (s.mboxCommand port fun s =>
    if lenBad len then s.mboxReturn port (dRange, []) bufferOk
    else
      let (r, s) := s.objRead .mailbox index sub
      s.mboxReturn port r bufferOk)

/-- The data of a WRITE (R624): from MG_MBOX_DATA, or from the host buffer, whose read may meet a host error. -/
def State.mboxPayload (s : State) (len : Nat) (buffer : HostAns) : Option Bytes :=
  if len ≤ 8 then some (leBytes len s.dict.mboxData.toNat) else buffer.map fun b => slice b 0 len

/-- A WRITE of `len` bytes (R621, R624): a host error of the buffer's read is found after the checks that need no data. -/
def State.mboxWrite (s : State) (index sub len : Nat) (buffer answer : HostAns) : State :=
  let seq := s.dict.mboxSeq + 1
  if s.vendorHas index then
    let (r, s) := s.vendorAnswer (vendorWrites .mailbox)
    if r.1 = dOk ∧ (s.mboxPayload len buffer).isNone = true then (s.aer 0).mboxDone seq dHostError 0 else s.mboxDone seq r.1 0
  else
    match s.writable .mailbox index sub len with
    | .error e => s.mboxDone seq e 0
    | .ok _ =>
      match s.mboxPayload len buffer with
      | none => (s.aer 0).mboxDone seq dHostError 0
      | some d =>
        let (st, s) := objAct index sub d answer s
        s.mboxDone seq st 0

/-- MBOX_WRITE port, index, sub, len (R624): `buffer` is what the host answers to the read of the buffer, `answer` to the read of
the record that a write of some objects starts. -/
def execMboxWrite (port index sub len : Nat) (buffer answer : HostAns) (s : State) : Out :=
  .next (s.mboxCommand port fun s =>
    if lenBad len then s.mboxDone (s.dict.mboxSeq + 1) dRange 0 else s.mboxWrite index sub len buffer answer)

/-- MBOX_DESCRIBE port, index, sub, len (R624). -/
def execMboxDescribe (port index sub len : Nat) (s : State) : Out :=
  .next (s.mboxCommand port fun s =>
    if lenBad len then s.mboxReturn port (dRange, []) true
    else
      let (r, s) := s.objDescribe .mailbox index sub
      s.mboxReturn port r true)

/-- MBOX_COMMAND_OUT_OF_RANGE port, op, index, sub, len (R625): an OP other than 1 to 3 or a LENGTH above 1,024 ends with RANGE and
touches no object. -/
def execMboxCommandOutOfRange (port op _index _sub len : Nat) (s : State) : Out :=
  .next (if (1 ≤ op ∧ op ≤ 3) ∧ lenBad len = false then s
    else s.mboxCommand port fun s => s.mboxDone (s.dict.mboxSeq + 1) dRange 0)

/-! ### Management Ethernet (R626 to R629) -/

/-- The fields of a datagram's header (R626). -/
structure DgHeader where
  flags : Nat
  op : Nat
  index : Nat
  sub : Nat
  len : Nat
  counter : Nat
deriving DecidableEq, Repr

def dgHeader (b : Bytes) : DgHeader :=
  { flags := leAt b 3 1, op := leAt b 8 1, index := leAt b 0xA 2, sub := leAt b 0xC 1, len := leAt b 0xE 2, counter := leAt b 0x10 8 }

def DgHeader.isProtected (h : DgHeader) : Bool := h.flags.testBit 0
def DgHeader.keyId (h : DgHeader) : Nat := fieldN h.flags 2 2

/-- The form of a request is wrong (R629): MAGIC, VERSION, a reserved field, or the length. A response is no request. -/
def dgMalformed (b : Bytes) : Bool :=
  let h := dgHeader b
  leAt b 0 2 != 0x4E44 || leAt b 2 1 != 1 || decide (16 ≤ h.flags) || h.flags.testBit 1 || leAt b 0xD 1 != 0 ||
    decide (1024 < h.len) || b.length != 24 + h.len + (if h.isProtected then 16 else 0)

/-- The 96-bit IV (R627): direction 1 for requests, 2 for responses. -/
def dgIv (direction keyId counter : Nat) : Bytes := leBytes 1 0 ++ leBytes 1 direction ++ leBytes 1 keyId ++ leBytes 1 0 ++ beBytes 8 counter

def State.mgmtKey (s : State) (k : Nat) : MgmtKey := Tab.look {} s.dict.keys k

/-- What becomes of a datagram (R628, R629): it is dropped, answered again from the cache, or accepted with its data. -/
inductive DgFate where
  | drop
  | resend (response : Bytes)
  | accept (data : Bytes)
deriving DecidableEq, Repr

/-- A request names a basic object (R628). -/
def basicObject (index sub : Nat) : Bool := match objRow index sub with | some r => !r.expert | none => false

/-- The fate of a protected request (R627, R629). -/
def State.dgProtected (s : State) (b : Bytes) : DgFate :=
  let h := dgHeader b
  let k := s.mgmtKey h.keyId
  match k.key with
  | none => .drop
  | some key =>
    match Crypto.gcmOpen key (dgIv 1 h.keyId h.counter) (slice b 0 24) (b.drop 24) with
    | none => .drop
    | some d =>
      match k.lastCounter with
      | none => .accept d
      | some c =>
        if c < h.counter then .accept d
        else if h.counter = c ∧ b = k.lastRequest then .resend k.lastResponse
        else .drop

/-- The fate of a datagram (R628, R629). -/
def State.dgFate (s : State) (b : Bytes) : DgFate :=
  let h := dgHeader b
  if dgMalformed b then .drop
  else if h.isProtected then s.dgProtected b
  else if (h.op = 1 ∨ h.op = 3) ∧ basicObject h.index h.sub = true then .accept (slice b 24 h.len)
  else .drop

/-- Count in 0x1017 (R633). -/
def State.dgCount (s : State) (i : Nat) : State :=
  { s with dict := { s.dict with counters := Tab.put 0 s.dict.counters i ((Tab.look 0 s.dict.counters i + 1) % 2 ^ 32) } }

/-- The response to an accepted request (R626, R627): its bytes, and the state with the key's counters and cache moved on. -/
def State.dgRespond (s : State) (b : Bytes) (status : Nat) (data : Bytes) : State :=
  let h := dgHeader b
  let header := fun (counter : Nat) =>
    slice b 0 3 ++ leBytes 1 (h.flags ||| 2) ++ slice b 4 5 ++ leBytes 1 status ++ slice b 10 4 ++ leBytes 2 data.length ++
      leBytes 8 counter
  if !h.isProtected then s.send (.datagram (header 0 ++ data))
  else
    let k := s.mgmtKey h.keyId
    let hd := header k.nextResponse
    let r := hd ++ Crypto.gcmSeal (k.key.getD []) (dgIv 2 h.keyId k.nextResponse) hd data
    let k := { k with lastCounter := some h.counter, lastRequest := b, lastResponse := r, nextResponse := k.nextResponse + 1 }
    ({ s with dict := { s.dict with keys := Tab.set s.dict.keys h.keyId k } }).send (.datagram r)

/-- A datagram whose OP is `op` arrives: `act` answers an accepted request with a status, its data, and the state. -/
def State.dgServe (s : State) (op : Nat) (b : Bytes) (act : State → DgHeader → Bytes → Nat × Bytes × State) : State :=
  let h := dgHeader b
  if s.dictOpen .ethernet && h.op == op then
    match s.dgFate b with
    | .drop => s.dgCount 2
    | .resend r => (s.dgCount 3).send (.datagram r)
    | .accept d =>
      let (status, data, s) := act (s.dgCount 1) h d
      ((s.dgRespond b status data).noteStatus .ethernet status)
  else s

/-- DATAGRAM_READ (R626 to R629). -/
def execDatagramRead (datagram : Bytes) (s : State) : Out :=
  .next (s.dgServe 1 datagram fun s h _ =>
    let (r, s) := s.objRead .ethernet h.index h.sub
    (r.1, r.2, s))

/-- DATAGRAM_WRITE (R622, R626 to R629): no object that this transport writes reads a record of host memory. -/
def execDatagramWrite (datagram : Bytes) (s : State) : Out :=
  .next (s.dgServe 2 datagram fun s h d =>
    let (st, s) := s.dictWrite .ethernet h.index h.sub d none
    (st, [], s))

/-- DATAGRAM_DESCRIBE (R624, R626 to R629). -/
def execDatagramDescribe (datagram : Bytes) (s : State) : Out :=
  .next (s.dgServe 3 datagram fun s h _ =>
    let (r, s) := s.objDescribe .ethernet h.index h.sub
    (r.1, r.2, s))

/-! ### Modbus TCP (R630 to R632) -/

/-- The Modbus transport is open (R619, R630, R633). -/
def State.modbusOpen (s : State) : Bool := s.dictOpen .ethernet && s.dict.modbusEnabled

/-- The register map (R632): address, registers, object and subindex. -/
def modbusMap : List (Nat × Nat × Nat × Nat) := [
  (0, 3, 0x2010, 0), (3, 1, 0x2010, 1), (4, 1, 0x2010, 2), (5, 2, 0x2020, 0), (7, 2, 0x2020, 1), (9, 2, 0x2020, 2),
  (11, 2, 0x2021, 0), (13, 2, 0x3000, 0), (15, 2, 0x3001, 0), (17, 2, 0x3001, 1), (19, 2, 0x3001, 2), (21, 1, 0x3004, 0),
  (22, 1, 0x3010, 1), (23, 2, 0x3010, 2), (25, 2, 0x3010, 3), (27, 1, 0x3042, 0), (28, 1, 0x2001, 0), (30, 1, 0x4000, 0)]

/-- The highest half-die temperature (R632). -/
def State.hottest (s : State) : Nat :=
  wholeDegrees (((List.range 32).map fun h => Tab.look 0 s.power.halfTemp h).foldl max (Tab.look 0 s.power.halfTemp 0))

/-- A word of a value that takes `n` registers, the most significant first (R632). -/
def regWord (value n k : Nat) : Nat := value / 2 ^ (16 * (n - 1 - k)) % 2 ^ 16

/-- What the map gives for the register at an address at this moment; none where the map has none (R632). -/
def State.modbusNow (s : State) (a : Nat) : Option Nat :=
  if a = 29 then some s.hottest
  else if 1000 ≤ a ∧ a < 1512 then some (regWord (s.objNum (0x2100 + (a - 1000) / 2) 4) 2 (a % 2))
  else if 2000 ≤ a ∧ a < 2512 then some (regWord (s.objNum (0x2100 + (a - 2000) / 2) 3) 2 (a % 2))
  else
    match modbusMap.find? fun e => decide (e.1 ≤ a) && decide (a < e.1 + e.2.1) with
    | some (start, n, i, sub) => some (regWord (s.objNum i sub) n (a - start))
    | none => none

/-- The registers whose figures change every 1 ms. The others are figures of a frame, which change at its boundary (R632, log 146). -/
def modbusOften : List Nat := [3, 5, 6, 13, 14, 15, 16, 17, 18, 21, 22, 23, 24, 25, 26, 27, 28, 29, 30]

/-- The register at an address; none where the map has none (R632). -/
def State.modbusReg (s : State) (a : Nat) : Option Nat :=
  if modbusOften.contains a then (Tab.find? s.dict.modbusSnap a).or (s.modbusNow a) else s.modbusNow a

/-- Every 1 ms the registers that change so often are taken anew, in a module that is READY (R632). -/
def State.takeModbus (s : State) : State :=
  if s.isReady && s.now % 1000000 == 0 then
    { s with dict := { s.dict with modbusSnap := modbusOften.map fun a => (a, (s.modbusNow a).getD 0) } }
  else s

/-- The response PDU of an exception. -/
def modbusException (code ex : Nat) : Bytes := leBytes 1 (code + 128) ++ leBytes 1 ex

/-- Answer a Modbus request (R631, R633). -/
def State.modbusAnswer (s : State) (conn : Nat) (pdu : Bytes) : State := (s.dgCount 4).send (.modbus conn pdu)

/-- A read of registers by function code `code` (R631, R632): all of them from this one state. A count of zero is outside the range
that Modbus gives, as is one above 125 (log 74). -/
def State.modbusRead (s : State) (conn code address count : Nat) : State :=
  if !s.modbusOpen || !s.dict.modbusConns.contains conn then s
  else if count = 0 ∨ 125 < count then s.modbusAnswer conn (modbusException code 3)
  else
    let regs := (List.range count).map fun k => s.modbusReg (address + k)
    if regs.any Option.isNone then s.modbusAnswer conn (modbusException code 2)
    else s.modbusAnswer conn (leBytes 1 code ++ leBytes 1 (2 * count) ++ regs.flatMap fun r => beBytes 2 (r.getD 0))

/-- MODBUS_READ_HOLDING conn, address, count (R631). -/
def execModbusReadHolding (conn address count : Nat) (s : State) : Out := .next (s.modbusRead conn 3 address count)

/-- MODBUS_READ_INPUT conn, address, count (R631). -/
def execModbusReadInput (conn address count : Nat) (s : State) : Out := .next (s.modbusRead conn 4 address count)

/-- MODBUS_CONNECTION conn (R631): up to four connections are accepted. -/
def execModbusConnection (conn : Nat) (s : State) : Out :=
  .next (if s.modbusOpen && !s.dict.modbusConns.contains conn && decide (s.dict.modbusConns.length < 4) then
      { s with dict := { s.dict with modbusConns := s.dict.modbusConns ++ [conn] } }
    else s)

/-- MODBUS_OTHER_FUNCTION_CODE conn, code (R631). -/
def execModbusOtherFunctionCode (conn code : Nat) (s : State) : Out :=
  .next (if s.modbusOpen && s.dict.modbusConns.contains conn && code != 3 && code != 4 then
      s.modbusAnswer conn (modbusException code 1)
    else s)

/-! ### Objects of the transports themselves (R630, R633, R635) -/

/-- NETWORK_CONFIG_WRITE sub (R630, R633). -/
def execNetworkConfigWrite (via : Via) (sub : Nat) (value : BitVec 32) (s : State) : Out :=
  .next (if 1 ≤ sub ∧ sub ≤ 5 then s.objWrite via false false (putNetwork sub value.toNat)
    else s.objWrite via true false fun s => (dNoSubindex, s))

/-- MANAGEMENT_KEY_WRITE keyId (R633). -/
def execManagementKeyWrite (via : Via) (keyId : Nat) (key : Bytes) (s : State) : Out :=
  .next (if keyId < 4 then s.objWrite via false true (putManagementKey keyId key)
    else s.objWrite via true false fun s => (dNoSubindex, s))

/-- COUNTER_SNAPSHOT (R635). -/
def execCounterSnapshot (via : Via) (value : BitVec 8) (s : State) : Out :=
  .next (s.objWrite via false true (putSnapshot value.toNat))

end Sys2Proof.Machine
end

