-- ==== Sys2Proof/Machine/Engine.lean ====
section
/-! DEFINITION. Tiles of the matrix engine: their start, products and completion (R163 to R189). -/

namespace Sys2Proof.Machine

/-! ### Starting (R163, R165, R170 to R173, R181) -/

/-- A tile's element rows from their source: rows read from SRAM, rows taken from the feed buffers, `none` when the feed
buffers do not hold them yet, or the address of an unreadable word. -/
def State.tileRows (s : State) (c q off : Nat) (fromQueue : Bool) (t : Tile) (rows rowBytes : Nat) :
    Option (Except Nat (List Bytes)) × State :=
  if fromQueue then
    let s := s.takeFeed c q rows rowBytes
    let e := s.engine c
    if e.fed q rows rowBytes then
      let (l, e) := e.fedRows q rows rowBytes
      (some (.ok l), s.setEngine c e)
    else (none, s)
  else
    let (r, s) := s.engineRows c ⟨t.base off, t.stride off, rows, 0, rowBytes⟩
    (some r, s)

/-- Scale bytes of a tile's rows: what the scan or the products read (R171), with the product extent's own. -/
structure Scales where
  /-- over the scan extent when the tile scans, otherwise over the product extent -/
  read : List (List Nat)
  product : List (List Nat)

/-- Scale bytes of `n` blocks from block `first` on, of each row at a register's rows. -/
def State.scaleRows (s : State) (c off : Nat) (t : Tile) (rows first n : Nat) : Except Nat (List (List Nat)) × State :=
  match s.engineRows c ⟨t.base off, t.stride off, rows, first, n⟩ with
  | (.error a, s) => (.error a, s)
  | (.ok l, s) => (.ok (l.map fun b => b.map BitVec.toNat), s)

/-- Read the scales at a register's rows: the product extent's, and before them, for a tile that scans, the scan extent's (R192).
A tile without scales reads none. -/
def State.tileScales (s : State) (c off : Nat) (t : Tile) (rows : Nat) : Except Nat Scales × State :=
  if !t.mx then (.ok ⟨[], []⟩, s)
  else if t.scans then
    match s.scaleRows c off t rows 0 (t.scanLen / 32) with
    | (.error a, s) => (.error a, s)
    | (.ok read, s) =>
      match s.scaleRows c off t rows (t.prodOff / 32) (t.prodLen / 32) with
      | (.error a, s) => (.error a, s)
      | (.ok product, s) => (.ok ⟨read, product⟩, s)
  else
    match s.scaleRows c off t rows (t.prodOff / 32) (t.prodLen / 32) with
    | (.error a, s) => (.error a, s)
    | (.ok product, s) => (.ok ⟨product, product⟩, s)

/-- The anchor of a tile (R144 to R148). -/
def Tile.anchor (t : Tile) (as ws : List (List Nat)) : Int :=
  if t.aType = 8 then 0
  else if t.scans then sigmaMax as ws (t.scanLen / 32) + anchorDelta t.aType t.wType
  else t.pin

/-- The factors of each column from its bytes (R135, R175). -/
def Tile.columns (t : Tile) (w metas : List Bytes) : List (List Factor) :=
  if t.sparse then w.zipIdx.map fun e => sparseCol t.wType t.prodLen e.1 (metas.getD e.2 [])
  else w.map (denseCol t.wType t.prodLen)

/-- What the plane holds before the first term: LOAD's partials, or nothing, or what it held (R163). -/
inductive PlaneStart where
  | ready (acc : Tab Acc)
  /-- killed with a break code -/
  | kill (code : Nat)
  /-- an unreadable word at this address -/
  | unread (addr : Nat)

/-- Combine the anchored partials of a LOAD with a cleared plane (R157, R163). The sums of a narrow grid's partials are kept as they
stand, wider than its 160-bit accumulator or not (DESIGN CHOICE, log 175). -/
def State.loadPartials (s : State) (c : Nat) (t : Tile) (anchor : Int) : PlaneStart × State :=
  let (r, s) := s.engineRows c ⟨t.base 0x048, t.stride 0x048, t.m, 0, 32 * t.n⟩
  match r with
  | .error a => (.unread a, s)
  | .ok rows =>
    let cells := rows.zipIdx.flatMap fun (e : Bytes × Nat) =>
      (List.range t.n).map fun j => (128 * e.2 + j, partialOf (leNat (slice e.1 (32 * j) 32)))
    if cells.any fun (x : Nat × Int × Bool × Acc) => decide (x.2.1 ≠ anchor) || (x.2.2.1 != t.wide) then
      (.kill codeAnchor, s)
    else (.ready (cells.foldl (fun (p : Tab Acc) x => Tab.put {} p x.1 x.2.2.2) []), s)

/-- The plane as the tile finds it (R163, R165): none when the tile waits. A KEEP tile that differs from its plane in anchor or grid
and in M, N or dataflow too breaks with ANCHOR_MISMATCH (DESIGN CHOICE, log 176). -/
def State.planeStart (s : State) (c : Nat) (t : Tile) (anchor : Int) : PlaneStart × State :=
  let p := (s.engine c).plane t.plane
  match t.accIn with
  | 0 => (.ready [], s)
  | 1 =>
    if p.anchor ≠ anchor ∨ p.wide ≠ t.wide then (.kill codeAnchor, s)
    else if p.m ≠ t.m ∨ p.n ≠ t.n ∨ p.dataflow ≠ t.dataflow then (.kill codeEngineConfig, s)
    else (.ready p.acc, s)
  | _ => s.loadPartials c t anchor

/-- The products of a tile added to a plane (R138 to R143, R163). -/
def Tile.products (t : Tile) (d : TileData) (acc : Tab Acc) : Tab Acc × List Acc :=
  (List.range t.m).foldl (fun (st : Tab Acc × List Acc) i =>
    (List.range t.n).foldl (fun (st : Tab Acc × List Acc) j =>
      let x := d.element t.mx t.wide i j
      (Tab.put {} st.1 (128 * i + j) ((Tab.look {} st.1 (128 * i + j)).join x), x :: st.2)) st) (acc, [])

/-- The first unstarted tile of a cluster becomes started. -/
def markStarted : List Tile → List Tile
  | [] => []
  | t :: r => if t.started then t :: markStarted r else { t with started := true } :: r

/-- Form a tile's products: the plane becomes ACCUMULATING, or the command ends (R141, R163, R189). -/
def State.tileProducts (s : State) (c : Nat) (t : Tile) (a w metas : List Bytes) (as ws : Scales) : State :=
  let anchor := t.anchor as.read ws.read
  let nanScale := (as.read ++ ws.read).any fun l => l.contains 255
  let s := if nanScale then s.modEngine c fun e => { e with accStatus := e.accStatus ||| stScaleNan } else s
  match s.planeStart c t anchor with
  | (.kill code, s) => s.killOn c code
  | (.unread addr, s) => s.engineReport c causeBus 1 addr
  | (.ready acc0, s) =>
    let d : TileData := { a := a.map fun b => (elemCodes t.aType t.prodLen b).map (decodeElem t.aType),
                          w := t.columns w metas, as := as.product, ws := ws.product, anchor }
    let (acc, terms) := t.products d acc0
    let s := s.activity (.cluster c) (.macs t.aType t.wType) (t.m * t.n * t.prodLen) (s.clusterPayer c)
    if acc.any fun (e : Nat × Acc) => decide (termLimit < e.2.terms) then s.killOn c codeAccLimit
    else
      s.modEngine c fun e =>
        let p : Plane := { state := .accumulating, acc, anchor, wide := t.wide, m := t.m, n := t.n, dataflow := t.dataflow }
        { e.setPlane t.plane p with
          queue := markStarted e.queue, lastDataflow := t.dataflow, accStatus := e.accStatus ||| termFlags terms }

/-- Fetch a tile's operands and form its products; a tile whose queue entries have not all come keeps what has (R173). -/
def State.runTile (s : State) (c : Nat) (t : Tile) : State :=
  let report := fun (s : State) (addr : Nat) => s.engineReport c causeBus 1 addr
  let s := if t.aQueue then s.takeFeed c 0 t.m (elemBytes t.aType t.prodLen) else s
  let s := if t.wQueue then s.takeFeed c 1 t.n (elemBytes t.wType t.wElems) else s
  match s.tileRows c 0 0x018 t.aQueue t t.m (elemBytes t.aType t.prodLen) with
  | (none, _) => (s.lateFrom c).starve c t
  | (some (.error x), s') => report s' x
  | (some (.ok a), s1) =>
    match s1.tileRows c 1 0x020 t.wQueue t t.n (elemBytes t.wType t.wElems) with
    | (none, _) => (s.lateFrom c).starve c t
    | (some (.error x), s') => report s' x
    | (some (.ok w), s2) =>
      match (s2.lateDone c).tileScales c 0x028 t t.m with
      | (.error x, s') => report s' x
      | (.ok as, s3) =>
        match s3.tileScales c 0x030 t t.n with
        | (.error x, s') => report s' x
        | (.ok ws, s4) =>
          if t.sparse then
            match s4.engineRows c ⟨t.base 0x038, t.stride 0x038, t.n, 0, t.prodLen / 8⟩ with
            | (.error x, s') => report s' x
            | (.ok metas, s5) => s5.tileProducts c t a w metas as ws
          else s4.tileProducts c t a w [] as ws

/-- TILE_START cluster (R163, R165, R181, R182): the first tile that has not started does, when its plane and what it feeds on
are ready. -/
def execTileStart (cluster : Nat) (s : State) : Out :=
  let e := s.engine cluster
  .next (match e.waiting with
    | [] => s
    | t :: _ =>
      let p := e.plane t.plane
      if !s.clusterOn cluster then s
      else if t.ser && e.queue.any (·.started) then s
      else if t.accIn = 1 then
        (match p.state with
          | .free => s.killOn cluster codeEngineConfig
          | .held => s.runTile cluster t
          | _ => s)
      else if p.state = .free then s.runTile cluster t
      else s)

/-! ### Completion (R164, R184 to R187) -/

/-- The outputs of row i of a finished tile, with the flags that converting them sets (R149 to R155). -/
def Tile.outRow (t : Tile) (p : Plane) (i : Nat) : Bytes × BitVec 9 :=
  (List.range t.n).foldl (fun (acc : Bytes × BitVec 9) j =>
    let index := BitVec.ofNat 64 (t.reg 0x058 + i * t.reg 0x060 + j)
    let u := if t.round = 1 then some (draw (BitVec.ofNat 64 (t.reg 0x050)) index) else none
    let (b, f) := convertOut t.outType t.wide p.anchor u (Tab.look {} p.acc (128 * i + j))
    (acc.1 ++ b, acc.2 ||| f)) ([], 0)

/-- The 64-byte entries of a row under queue drain (R185). -/
def rowEntries (b : Bytes) : List Vec := (List.range (entriesOf b.length)).map fun j => vecOfBytes (slice b (64 * j) 64)

/-- Give each core the entries of its rows, as its queue 2 has room (R185). -/
def State.drainRows (s : State) (c : Nat) (t : Tile) (rows : List Bytes) : State :=
  (List.range 16).foldl (fun s k =>
    let all := ((rows.drop (8 * k)).take 8).flatMap rowEntries
    let p := (s.engine c).plane t.plane
    let done := Tab.look 0 p.drained k
    let core := coreOf c k
    let room := 16 - (s.core core).q2.length
    let give := (all.drop done).take room
    let s := s.modCore core fun x => { x with q2 := x.q2 ++ give }
    s.modEngine c fun e =>
      e.setPlane t.plane { e.plane t.plane with drained := Tab.put 0 (e.plane t.plane).drained k (done + give.length) }) s

/-- Every entry of a queue drain has been given. -/
def Plane.drainedAll (p : Plane) (rows : List Bytes) : Bool :=
  (List.range 16).all fun k => decide ((((rows.drop (8 * k)).take 8).flatMap rowEntries).length ≤ Tab.look 0 p.drained k)

/-- Write the output rows to SRAM (R185): none, or the address of a word that could not be written. -/
def State.writeRows (s : State) (c : Nat) (t : Tile) (rows : List Bytes) : Option Nat × State :=
  rows.zipIdx.foldl (fun (acc : Option Nat × State) (e : Bytes × Nat) =>
    match acc.1 with
    | some _ => acc
    | none =>
      let a := t.base 0x040 + e.2 * t.stride 0x040
      (match acc.2.physWrite agentEngine none (acc.2.clusterPayer c) (sramAddr c a) e.1 with
        | (none, s) => (none, s)
        | (some _, s) => (some a, s))) (none, s)

/-- The tile at the head of the queue completes and leaves its plane in a state (R184); a plane that it leaves HELD after the last
HALT is discarded (R186). -/
def State.tileDone (s : State) (c : Nat) (t : Tile) (p : Plane) (anchor : Int) : State :=
  (s.modEngine c fun e => { e.setPlane t.plane p with
    queue := e.queue.drop 1, tilesDone := e.tilesDone + 1, lastTag := t.tag, lastAnchor := BitVec.ofInt 16 anchor }).dropHeld c

/-- TILE_COMPLETE cluster (R158, R164, R184 to R187): the tile that runs leaves its plane HELD, or converts its outputs, which sets
their flags (log 201), writes them and leaves it FREE. -/
def execTileComplete (cluster : Nat) (s : State) : Out :=
  .next (match (s.engine cluster).queue with
    | [] => s
    | t :: _ =>
      let p := (s.engine cluster).plane t.plane
      if !t.started || !s.clusterOn cluster then s
      else if !t.finish then s.tileDone cluster t { p with state := .held } p.anchor
      else
        let out := (List.range t.m).map (t.outRow p)
        let rows := out.map (·.1)
        let flags := out.foldl (fun f r => f ||| r.2) (0 : BitVec 9)
        let s := s.modEngine cluster fun e => { e with accStatus := e.accStatus ||| flags }
        if t.oQueue then
          let s := s.modEngine cluster fun e => e.setPlane t.plane { p with state := .draining }
          let s := s.drainRows cluster t rows
          if ((s.engine cluster).plane t.plane).drainedAll rows then s.tileDone cluster t {} p.anchor
          else s.starve cluster t
        else
          match s.writeRows cluster t rows with
          | (none, s) => s.tileDone cluster t {} p.anchor
          | (some a, s) => s.engineReport cluster causeBus 1 a)

end Sys2Proof.Machine
end

