-- ==== Sys2Proof/Machine/Scalar.lean ====
section
/-! DEFINITION. The scalar instructions of the core: integer, multiply, divide, branch and loop (R96, R101). -/

namespace Sys2Proof.Machine

/-! ### Results -/

/-- A shift by the second operand; an amount of 64 or more has an unstated result (log 5). -/
def shiftBy (kind : Nat) (f : Word → Nat → Word) (a b : Word) : Word :=
  if b.toNat < 64 then f a b.toNat else Config.shiftBeyond kind a b

/-- The set bits of a word. -/
def popCount (w : Word) : Nat := ((List.range 64).filter fun i => w.getLsbD i).length
/-- The zero bits above the highest set bit. -/
def leadingZeros (w : Word) : Nat := if w = 0 then 64 else 63 - Nat.log2 w.toNat

/-- Signed division (R101), truncating toward zero (log 19). -/
def divSigned (a b : Word) : Word := if b = 0 then BitVec.allOnes 64 else BitVec.sdiv a b
def divUnsigned (a b : Word) : Word := if b = 0 then BitVec.allOnes 64 else BitVec.udiv a b
def remSigned (a b : Word) : Word := if b = 0 then a else BitVec.srem a b
def remUnsigned (a b : Word) : Word := if b = 0 then a else BitVec.umod a b

/-- The high 64 bits of a product. -/
def mulHigh (a b : Word) : Word := BitVec.ofInt 64 (a.toInt * b.toInt / 2 ^ 64)
def mulHighU (a b : Word) : Word := BitVec.ofNat 64 (a.toNat * b.toNat / 2 ^ 64)

/-- An instruction of the integer class, on either scalar unit (R96). -/
def intOp (i : Issue) (c : Instr) (rd rs1 rs2 : SReg) (f : Word → Word → Word) (s : State) : Out :=
  .next (s.issueAlu i c unitInt rd rs1 rs2 f)
/-- An instruction of the multiply or divide class, on ALU0 (R96). -/
def mulOp (i : Issue) (c : Instr) (rd rs1 rs2 : SReg) (f : Word → Word → Word) (s : State) : Out :=
  .next (s.issueAlu i c unitAlu0 rd rs1 rs2 f)

/-! ### Integer (R96, R101) -/

/-- ADD (R101). -/
def execAdd (i : Issue) (rd rs1 rs2 : SReg) (s : State) : Out := intOp i (.add (lone i) rd rs1 rs2) rd rs1 rs2 (· + ·) s
/-- SUB (R101). -/
def execSub (i : Issue) (rd rs1 rs2 : SReg) (s : State) : Out := intOp i (.sub (lone i) rd rs1 rs2) rd rs1 rs2 (· - ·) s
/-- AND (R96). -/
def execAnd (i : Issue) (rd rs1 rs2 : SReg) (s : State) : Out := intOp i (.and (lone i) rd rs1 rs2) rd rs1 rs2 (· &&& ·) s
/-- OR (R96). -/
def execOr (i : Issue) (rd rs1 rs2 : SReg) (s : State) : Out := intOp i (.or (lone i) rd rs1 rs2) rd rs1 rs2 (· ||| ·) s
/-- XOR (R96). -/
def execXor (i : Issue) (rd rs1 rs2 : SReg) (s : State) : Out := intOp i (.xor (lone i) rd rs1 rs2) rd rs1 rs2 (· ^^^ ·) s
/-- SHL (R96). -/
def execShl (i : Issue) (rd rs1 rs2 : SReg) (s : State) : Out :=
  intOp i (.shl (lone i) rd rs1 rs2) rd rs1 rs2 (shiftBy 0 (· <<< ·)) s
/-- SHR (R96). -/
def execShr (i : Issue) (rd rs1 rs2 : SReg) (s : State) : Out :=
  intOp i (.shr (lone i) rd rs1 rs2) rd rs1 rs2 (shiftBy 1 (· >>> ·)) s
/-- SRA (R96). -/
def execSra (i : Issue) (rd rs1 rs2 : SReg) (s : State) : Out :=
  intOp i (.sra (lone i) rd rs1 rs2) rd rs1 rs2 (shiftBy 2 BitVec.sshiftRight) s
/-- CMP (R96): the spec does not state its result (log 5). -/
def execCmp (i : Issue) (rd rs1 rs2 : SReg) (func : BitVec 8) (s : State) : Out :=
  intOp i (.cmp (lone i) rd rs1 rs2 func) rd rs1 rs2 (Config.cmp func.toNat) s
/-- SEL (R96): one of the two operands; the spec does not state which (log 5). -/
def execSel (i : Issue) (rd rs1 rs2 : SReg) (s : State) : Out :=
  .next (s.issueReg i (.sel (lone i) rd rs1 rs2)
      { unit := unitInt, reads := [sName rs1, sName rs2], writes := [sName rd] } fun k =>
    k.setReg rd (if Config.selFirst (k.reg rd) (k.reg rs1) (k.reg rs2) then k.reg rs1 else k.reg rs2))
/-- POPC (R96). -/
def execPopc (i : Issue) (rd rs1 : SReg) (s : State) : Out :=
  intOp i (.popc (lone i) rd rs1) rd rs1 0 (fun a _ => BitVec.ofNat 64 (popCount a)) s
/-- CLZ (R96). -/
def execClz (i : Issue) (rd rs1 : SReg) (s : State) : Out :=
  intOp i (.clz (lone i) rd rs1) rd rs1 0 (fun a _ => BitVec.ofNat 64 (leadingZeros a)) s
/-- ADDI (R91, R96): the immediate is signed and not scaled. -/
def execAddi (i : Issue) (rd rs1 : SReg) (imm : BitVec 14) (s : State) : Out :=
  intOp i (.addi (lone i) rd rs1 imm) rd rs1 0 (fun a _ => a + scaledImm imm 1) s

/-! ### Multiply and divide (R96, R101) -/

/-- MUL (R96, R101). -/
def execMul (i : Issue) (rd rs1 rs2 : SReg) (s : State) : Out := mulOp i (.mul (lone i) rd rs1 rs2) rd rs1 rs2 (· * ·) s
/-- MULH (R96). -/
def execMulh (i : Issue) (rd rs1 rs2 : SReg) (s : State) : Out := mulOp i (.mulh (lone i) rd rs1 rs2) rd rs1 rs2 mulHigh s
/-- MULHU (R96). -/
def execMulhu (i : Issue) (rd rs1 rs2 : SReg) (s : State) : Out := mulOp i (.mulhu (lone i) rd rs1 rs2) rd rs1 rs2 mulHighU s
/-- DIV (R101). -/
def execDiv (i : Issue) (rd rs1 rs2 : SReg) (s : State) : Out := mulOp i (.div (lone i) rd rs1 rs2) rd rs1 rs2 divSigned s
/-- DIVU (R101). -/
def execDivu (i : Issue) (rd rs1 rs2 : SReg) (s : State) : Out :=
  mulOp i (.divu (lone i) rd rs1 rs2) rd rs1 rs2 divUnsigned s
/-- REM (R101). -/
def execRem (i : Issue) (rd rs1 rs2 : SReg) (s : State) : Out := mulOp i (.rem (lone i) rd rs1 rs2) rd rs1 rs2 remSigned s
/-- REMU (R101). -/
def execRemu (i : Issue) (rd rs1 rs2 : SReg) (s : State) : Out :=
  mulOp i (.remu (lone i) rd rs1 rs2) rd rs1 rs2 remUnsigned s

/-! ### Branch and loop (R92, R96) -/

/-- The target of a branch: the scaled offset from the branch or from the instruction after it (log 5). -/
def branchTarget (pc : Word) (imm : BitVec 14) : Word :=
  pc + (if Config.branchFromNext then 4 else 0) + scaledImm imm 4

/-- A conditional branch. -/
def branchOp (i : Issue) (c : Instr) (rs1 rs2 : SReg) (imm : BitVec 14) (taken : Word → Word → Bool) (s : State) : Out :=
  .next (s.issue i c { unit := unitBr, reads := [sName rs1, sName rs2], writes := [] } fun s k =>
    .done s (if taken (k.reg rs1) (k.reg rs2) then some (branchTarget k.pc imm) else none))

/-- BEQ (R96). -/
def execBeq (i : Issue) (rs1 rs2 : SReg) (imm : BitVec 14) (s : State) : Out :=
  branchOp i (.beq (lone i) rs1 rs2 imm) rs1 rs2 imm (· == ·) s
/-- BNE (R96). -/
def execBne (i : Issue) (rs1 rs2 : SReg) (imm : BitVec 14) (s : State) : Out :=
  branchOp i (.bne (lone i) rs1 rs2 imm) rs1 rs2 imm (· != ·) s
/-- BLT (R96), signed (log 19). -/
def execBlt (i : Issue) (rs1 rs2 : SReg) (imm : BitVec 14) (s : State) : Out :=
  branchOp i (.blt (lone i) rs1 rs2 imm) rs1 rs2 imm (fun a b => a.slt b) s
/-- BGE (R96), signed (log 19). -/
def execBge (i : Issue) (rs1 rs2 : SReg) (imm : BitVec 14) (s : State) : Out :=
  branchOp i (.bge (lone i) rs1 rs2 imm) rs1 rs2 imm (fun a b => b.sle a) s
/-- J (R96). -/
def execJ (i : Issue) (imm : BitVec 14) (s : State) : Out :=
  .next (s.issue i (.j (lone i) imm)
      { unit := unitBr, reads := [], writes := [] } fun s k => .done s (some (branchTarget k.pc imm)))
/-- JAL (R96): the link is the address of the instruction after it (log 19). -/
def execJal (i : Issue) (rd : SReg) (imm : BitVec 14) (s : State) : Out :=
  .next (s.issue i (.jal (lone i) rd imm) { unit := unitBr, reads := [], writes := [sName rd] } fun s k =>
    .done (s.setCore i.core (k.setReg rd (k.pc + 4))) (some (branchTarget k.pc imm)))
/-- JR (R96). -/
def execJr (i : Issue) (rs1 : SReg) (s : State) : Out :=
  .next (s.issue i (.jr (lone i) rs1)
      { unit := unitBr, reads := [sName rs1], writes := [] } fun s k => .done s (some (k.reg rs1)))

/-- A loop around the next m bundles, run n times (R96); a third nested loop loses one, unstated which (log 5). -/
def pushLoop (k : Core) (n m : Nat) : Core :=
  let l : Loop := { armed := false, start := 0, bundles := m, done := 0, left := n }
  if k.loops.length < 2 then { k with loops := l :: k.loops }
  else if Config.loopDropsOuter then { k with loops := (l :: k.loops).take 2 }
  else k

/-- LOOP n, m (R96). A loop of no bundles repeats nothing; where n is zero the spec does not state what follows (log 5). -/
def execLoop (i : Issue) (n m : Nat) (s : State) : Out :=
  .next (s.issue i (.loop (lone i) n m) { unit := unitBr, reads := [], writes := [] } fun s k =>
    if n = 0 then .done s (some (Config.loopZeroPc k.pc))
    else if m = 0 then .done s none
    else .done (s.setCore i.core (pushLoop k n m)) none)

end Sys2Proof.Machine
end

