-- ==== Sys2Proof/Machine/Transcend.lean ====
section
/-! DEFINITION. The functions of the transcendental unit and the packing of MX blocks, up to what the spec leaves open (R104,
R129 to R135). Where it bounds a result by 2 ulp the result is a free choice among the values within that bound. -/

namespace Sys2Proof.Machine

/-! ### Exact functions to 160 fraction bits -/

/-- Numbers below are integers in units of 2^−160. -/
def fixOne : Nat := 2 ^ 160
def fixLn2 : Nat := 1013035739299659071135698605846798551586536899366
def fixPi : Nat := 4591442807048218921384805199743311128454155024418

/-- `n` more terms of the exponential series from term `k` of value `t`. -/
def expTerms (z : Nat) : Nat → Nat → Nat → Nat
  | 0, _, _ => 0
  | n + 1, k, t => t + expTerms z n (k + 1) (t * z / fixOne / (k + 1))
/-- e^z for 0 ≤ z < 1. -/
def fixExp (z : Nat) : Nat := expTerms z 48 0 fixOne

/-- `n` more terms of the series of atanh u / u from term `k` of power `p`, `u2` the square of u. -/
def atanhTerms (u2 : Nat) : Nat → Nat → Nat → Nat
  | 0, _, _ => 0
  | n + 1, k, p => p / (2 * k + 1) + atanhTerms u2 n (k + 1) (p * u2 / fixOne)
/-- log2 of v for 1 ≤ v < 2. -/
def fixLog2 (v : Nat) : Nat :=
  let u := (v - fixOne) * fixOne / (v + fixOne)
  2 * u * atanhTerms (u * u / fixOne) 56 0 fixOne / fixLn2

/-- `n` more terms of the series of sin a / a from term `k` of value `t`, `a2` the square of a. -/
def sinTerms (a2 : Nat) : Nat → Nat → Int → Int
  | 0, _, _ => 0
  | n + 1, k, t => t + sinTerms a2 n (k + 1) (-(t * a2 / fixOne / ((2 * k + 2) * (2 * k + 3))))
/-- sin πr for 0 ≤ r ≤ 1/2, in units of 2^−480. -/
def fixSinPi (r : Nat) : Nat :=
  let a := r * fixPi
  a * (sinTerms (a / fixOne * (a / fixOne) / fixOne) 24 0 fixOne).toNat

/-! ### Values within 2 ulp (R104) -/

/-- One of the FP32 numbers within 2 ulp of (−1)^neg × m × 2^e, m > 0: the two on each side of it (log 5). -/
def near2 (op : Nat) (x : F32) (neg : Bool) (m : Nat) (e : Int) : F32 :=
  let t := (f32Round 1 false m e true).1.toNat
  let l := [t - 1, t, t + 1, min (t + 2) 0x7F800000]
  BitVec.ofNat 32 (l.getD (Config.xuPick op x % 4) t) ||| f32Zero neg

/-- A finite FP32 number in units of 2^−160, exactly: m × 2^e with e at least −149. -/
def fixVal (m e : Int) : Int := m * 2 ^ (e + 160).toNat

/-- 2^x for x in units of 2^−160: mantissa and exponent. -/
def fixExp2 (x : Int) : Nat × Int :=
  (fixExp ((x % (fixOne : Int)).toNat * fixLn2 / fixOne), x / (fixOne : Int) - 160)

/-- XEXP2 (R104). -/
def f32Exp2 (x : F32) : F32 :=
  match f32Val x with
  | .fin m e =>
    let v := fixVal m e
    if 128 * (fixOne : Int) ≤ v then f32Inf false
    else if v < -160 * (fixOne : Int) then near2 0 x false 1 (-200)
    else let (n, q) := fixExp2 v; near2 0 x false n q
  | _ => Config.xuSpecial 0 x

/-- XLOG2 (R104): exact at 1, free at numbers that are not positive. -/
def f32Log2 (x : F32) : F32 :=
  match f32Val x with
  | .fin m e =>
    if m ≤ 0 then Config.xuSpecial 1 x
    else
      let b := bitlen m.natAbs
      let y : Int := ((b : Int) - 1 + e) * fixOne + fixLog2 (m.natAbs * 2 ^ (161 - b))
      if y = 0 then 0 else near2 1 x (decide (y < 0)) y.natAbs (-160)
  | _ => Config.xuSpecial 1 x

/-- sin πr for r in units of 2^−160, as an answer of operation `op` on lane x. -/
def sinPiOf (op : Nat) (x : F32) (r : Int) : F32 :=
  let a := (r % (2 * fixOne : Nat)).toNat
  let neg := decide (fixOne ≤ a)
  let b := a % fixOne
  let c := min b (fixOne - b)
  if c = 0 then f32Zero (f32Neg x && op == 5) else near2 op x neg (fixSinPi c) (-480)

/-- XSINPI and XCOSPI (R104): sin πx, and cos πx = sin π(x + 1/2). -/
def f32SinPi (x : F32) : F32 :=
  match f32Val x with
  | .fin m e => sinPiOf 5 x (fixVal m e)
  | _ => Config.xuSpecial 5 x
def f32CosPi (x : F32) : F32 :=
  match f32Val x with
  | .fin m e => sinPiOf 6 x (fixVal m e + 2 ^ 159)
  | _ => Config.xuSpecial 6 x

/-- XTANH (R104): x − x³/3 below 2^−20, otherwise (E − 1)/(E + 1) with E = e^2x, which is 2^(2x/ln 2). -/
def f32Tanh (x : F32) : F32 :=
  match f32Val x with
  | .fin m e =>
    let v := (fixVal m e).natAbs
    if v = 0 then x
    else if v < 2 ^ 140 then near2 7 x (f32Neg x) (v * (3 * 2 ^ 320 - v * v) / 3) (-480)
    else if 32 * fixOne ≤ v then near2 7 x (f32Neg x) (fixOne - 1) (-160)
    else
      let (n, q) := fixExp2 (2 * v * fixOne / fixLn2)
      let ex := n * 2 ^ (q + 160).toNat
      near2 7 x (f32Neg x) ((ex - fixOne) * fixOne / (ex + fixOne)) (-160)
  | _ => Config.xuSpecial 7 x

/-! ### MX blocks (R104, R129 to R135) -/

/-- A finite value compared with another: m × 2^e ≤ n × 2^f. -/
def leFin (m e n f : Int) : Bool :=
  let q := min e f
  decide (m * 2 ^ (e - q).toNat ≤ n * 2 ^ (f - q).toNat)

/-- Codes of an element type with a finite value in an order relation to m × 2^e. -/
def codesWith (ty : Nat) (r : Int → Int → Bool) : List Nat :=
  (List.range (2 ^ elemBits ty)).filter fun c => match decodeElem ty c with
    | .fin n f => r n f
    | _ => false

/-- The best code of a list, when `better n f n' f'` says that the first value beats the second. -/
def bestCode (ty : Nat) (better : Int → Int → Int → Int → Bool) (l : List Nat) : Option Nat :=
  l.foldl (fun acc c => match acc with
    | none => some c
    | some d => match decodeElem ty c, decodeElem ty d with
      | .fin n f, .fin n' f' => if better n f n' f' && !better n' f' n f then some c else some d
      | _, _ => some d) none

/-- One element of a packed block: one of the two codes that enclose the lane's value over the block scale, the outermost code
beyond the range; which of them is not stated, nor is the code of a lane that is not finite (log 5). -/
def packElem (ty scale : Nat) (x : F32) : Nat :=
  match f32Val x, scaleExp scale with
  | .fin m e, some sc =>
    let below := bestCode ty (fun n f n' f' => leFin n' f' n f) (codesWith ty fun n f => leFin n f m (e - sc))
    let above := bestCode ty (fun n f n' f' => leFin n f n' f') (codesWith ty fun n f => leFin m (e - sc) n f)
    let l := below.toList ++ above.toList
    l.getD (Config.packPick ty scale x % l.length) 0
  | _, _ => Config.packSpecial ty scale x % 2 ^ elemBits ty

/-- VPACK.MX (R104): the 32 lanes of va and vb make one block, its elements stored as in R135 from bit 0, its scale byte after
them; which scale a block gets is not stated, nor what fills the rest (log 5). Codes that are no MX type are as free as the rest. -/
def packMx (ty : Nat) (a b : Vec) : Vec :=
  if isMx ty then
    let scale := Config.packScale ty a b % 256
    let w := elemBits ty
    let codes := (lanes32 a ++ lanes32 b).map (packElem ty scale)
    let body := (codes.zipIdx.map fun e => e.1 * 2 ^ (w * e.2)).sum + scale * 2 ^ (32 * w)
    BitVec.ofNat 512 body ||| ((Config.vpackRest ty a b) <<< (32 * w + 8))
  else Config.vpackRest ty a b

end Sys2Proof.Machine
end

