-- ==== Sys2Proof/Machine/Vector.lean ====
section
/-! DEFINITION. The vector instructions of the core: FP32, integer, reduce, move and convert, transcendental (R96, R101 to
R104). -/

namespace Sys2Proof.Machine

/-! ### Lanes -/

/-- A lane-by-lane function of two vectors' FP32 lanes with flags. -/
def lanes2 (f : F32 → F32 → FRes) (a b : Vec) : List FRes := List.zipWith f (lanes32 a) (lanes32 b)

/-- A vector FP32 instruction of two sources (R102). -/
def fpOp (i : Issue) (c : Instr) (vd va vb : VReg) (f : BitVec 2 → F32 → F32 → FRes) (s : State) : Out :=
  .next (s.issueVec i c unitVec vd [va, vb] fun k => k.withFlags (lanes2 (f k.frm) (k.vreg va) (k.vreg vb)))

/-- A vector integer instruction on INT8 or INT32 lanes. -/
def laneOp (i : Issue) (c : Instr) (lane : Lane) (vd va vb : VReg) (f8 : BitVec 8 → BitVec 8 → BitVec 8) (f32 : F32 → F32 → F32)
    (s : State) : Out :=
  .next (s.issueVec i c unitVec vd [va, vb] fun k =>
    (k, match lane with
      | .int8 => ofLanes (List.zipWith f8 (lanesOf 8 (k.vreg va)) (lanesOf 8 (k.vreg vb)))
      | .int32 => ofLanes (List.zipWith f32 (lanes32 (k.vreg va)) (lanes32 (k.vreg vb)))))

/-! ### Vector FP32 (R102) -/

/-- VFMA (R102): va × vb + vc per lane, rounded once. -/
def execVfma (i : Issue) (vd va vb vc : VReg) (s : State) : Out :=
  .next (s.issueVec i (.vfma (lone i) vd va vb vc) unitVec vd [va, vb, vc] fun k =>
    k.withFlags (List.zipWith (fun (f : F32 → FRes) c => f c)
      (List.zipWith (fun a b c => f32Fma k.frm a b c) (lanes32 (k.vreg va)) (lanes32 (k.vreg vb))) (lanes32 (k.vreg vc))))
/-- VADD (R102). -/
def execVadd (i : Issue) (vd va vb : VReg) (s : State) : Out := fpOp i (.vadd (lone i) vd va vb) vd va vb f32Add s
/-- VSUB (R102). -/
def execVsub (i : Issue) (vd va vb : VReg) (s : State) : Out := fpOp i (.vsub (lone i) vd va vb) vd va vb f32Sub s
/-- VMUL (R102). -/
def execVmul (i : Issue) (vd va vb : VReg) (s : State) : Out := fpOp i (.vmul (lone i) vd va vb) vd va vb f32Mul s
/-- VMIN (R102); which NaN rule holds is left open (log 5). -/
def execVmin (i : Issue) (vd va vb : VReg) (s : State) : Out :=
  fpOp i (.vmin (lone i) vd va vb) vd va vb (fun _ => f32MinMax false) s
/-- VMAX (R102); which NaN rule holds is left open (log 5). -/
def execVmax (i : Issue) (vd va vb : VReg) (s : State) : Out :=
  fpOp i (.vmax (lone i) vd va vb) vd va vb (fun _ => f32MinMax true) s
/-- VCMP (R102); its lane results are not stated (log 5). -/
def execVcmp (i : Issue) (vd va vb : VReg) (func : BitVec 6) (s : State) : Out :=
  fpOp i (.vcmp (lone i) vd va vb func) vd va vb (fun _ => f32Cmp func.toNat) s

/-! ### Vector integer (R96, R101) -/

/-- A lane's shift; an amount of the lane width or more has an unstated result (log 5). -/
def laneShl8 (a b : BitVec 8) : BitVec 8 :=
  if b.toNat < 8 then a <<< b.toNat else (Config.laneShiftBeyond 8 (a.setWidth 32) (b.setWidth 32)).setWidth 8
def laneShl32 (a b : F32) : F32 := if b.toNat < 32 then a <<< b.toNat else Config.laneShiftBeyond 32 a b

/-- VADDI (R101). -/
def execVaddi (i : Issue) (lane : Lane) (vd va vb : VReg) (s : State) : Out :=
  laneOp i (.vaddi (lone i) lane vd va vb) lane vd va vb (· + ·) (· + ·) s
/-- VAND (R96). -/
def execVand (i : Issue) (vd va vb : VReg) (s : State) : Out :=
  laneOp i (.vand (lone i) vd va vb) .int32 vd va vb (· &&& ·) (· &&& ·) s
/-- VSHL (R96). -/
def execVshl (i : Issue) (lane : Lane) (vd va vb : VReg) (s : State) : Out :=
  laneOp i (.vshl (lone i) lane vd va vb) lane vd va vb laneShl8 laneShl32 s
/-- VMULI (R101). -/
def execVmuli (i : Issue) (lane : Lane) (vd va vb : VReg) (s : State) : Out :=
  laneOp i (.vmuli (lone i) lane vd va vb) lane vd va vb (· * ·) (· * ·) s
/-- One lane of VSEL: which of the two it takes is not stated (log 5). -/
def selLane (w : Nat) (a b c : BitVec w) : BitVec w :=
  if Config.vselFirst (a.setWidth 32) (b.setWidth 32) (c.setWidth 32) then a else b
/-- VSEL (R96). -/
def execVsel (i : Issue) (lane : Lane) (vd va vb vc : VReg) (s : State) : Out :=
  .next (s.issueVec i (.vsel (lone i) lane vd va vb vc) unitVec vd [va, vb, vc] fun k =>
    let pick := fun (w : Nat) =>
      ofLanes (List.zipWith (fun (f : BitVec w → BitVec w) c => f c)
        (List.zipWith (fun a b c => selLane w a b c) (lanesOf w (k.vreg va)) (lanesOf w (k.vreg vb))) (lanesOf w (k.vreg vc)))
    (k, match lane with | .int8 => pick 8 | .int32 => pick 32))

/-! ### Reduce (R96, R103) -/

/-- One level of the pairwise tree: lane i with lane i + n (R103). -/
def treeLevel (f : F32 → F32 → FRes) (n : Nat) (l : List F32) (fl : BitVec 5) : List F32 × BitVec 5 :=
  let r := List.zipWith f (l.take n) (l.drop n)
  (r.map (·.1), r.foldl (fun a x => a ||| x.2) fl)

/-- The fixed pairwise tree over 16 lanes (R103). -/
def tree16 (f : F32 → F32 → FRes) (l : List F32) : F32 × BitVec 5 :=
  let (a, f1) := treeLevel f 8 l 0
  let (b, f2) := treeLevel f 4 a f1
  let (c, f3) := treeLevel f 2 b f2
  let (d, f4) := treeLevel f 1 c f3
  (d.getD 0 0, f4)

/-- The same value in every lane. -/
def splat (x : F32) : Vec := ofLanes (List.replicate 16 x)

/-- VREDSUM (R103). -/
def execVredsum (i : Issue) (vd va : VReg) (s : State) : Out :=
  .next (s.issueVec i (.vredsum (lone i) vd va) unitVec vd [va] fun k =>
    let (x, f) := tree16 (f32Add k.frm) (lanes32 (k.vreg va))
    ({ k with fflags := k.fflags ||| f }, splat x))

/-- The signed maximum of two lanes. -/
def maxSigned (a b : F32) : F32 := if a.slt b then b else a

/-- VREDMAX (R96): the maximum of the lanes in every lane; whether they are FP32 or INT32 is not stated (log 5). -/
def execVredmax (i : Issue) (vd va : VReg) (s : State) : Out :=
  .next (s.issueVec i (.vredmax (lone i) vd va) unitVec vd [va] fun k =>
    if Config.redMaxFloat then
      let (x, f) := tree16 (f32MinMax true) (lanes32 (k.vreg va))
      ({ k with fflags := k.fflags ||| f }, splat x)
    else (k, splat (tree16 (fun a b => (maxSigned a b, 0)) (lanes32 (k.vreg va))).1))

/-! ### Move and convert (R96, R104) -/

/-- VPERM (R96): each result lane is a lane of va; the control vector's format is not stated (log 5). -/
def execVperm (i : Issue) (vd va vb : VReg) (s : State) : Out :=
  .next (s.issueVec i (.vperm (lone i) vd va vb) unitVec vd [va, vb] fun k =>
    (k, ofLanes ((List.range 16).map fun j => (lanes32 (k.vreg va)).getD (Config.permLane (k.vreg vb) j % 16) 0)))
/-- VBCAST (R96): one lane of va in every lane; how it is named is not stated (log 5). -/
def execVbcast (i : Issue) (vd va vb : VReg) (s : State) : Out :=
  .next (s.issueVec i (.vbcast (lone i) vd va vb) unitVec vd [va] fun k =>
    (k, splat ((lanes32 (k.vreg va)).getD (Config.bcastLane vb.val % 16) 0)))

/-- One FP32 lane to BF16 or FP16 (R104). -/
def to16 (eb mb bias : Nat) (x : F32) : BitVec 16 := BitVec.ofNat 16 (convertElem eb mb bias (f32Neg x) (f32Val x))
/-- A BF16 or FP16 lane to FP32. -/
def toF32 (eb mb bias : Nat) (x : BitVec 16) : F32 :=
  BitVec.ofNat 32 (convertElem 8 23 127 (x.getLsbD 15) (decodeFloat eb mb bias .ieee x.toNat))
def bfToHalf (x : BitVec 16) : BitVec 16 :=
  BitVec.ofNat 16 (convertElem 5 10 15 (x.getLsbD 15) (decodeFloat 8 7 127 .ieee x.toNat))
def halfToBf (x : BitVec 16) : BitVec 16 :=
  BitVec.ofNat 16 (convertElem 8 7 127 (x.getLsbD 15) (decodeFloat 5 10 15 .ieee x.toNat))

/-- Narrowed lanes in the low half; the rest of the register is not stated (log 5). -/
def narrowed (a b : Vec) (l : List (BitVec 16)) : Vec :=
  ofLanes l ||| ((Config.vcvtRest a b).setWidth 512 <<< 256)
/-- The sixteen 16-bit lanes that a widening conversion reads: which half is not stated (log 5). -/
def widened (kind : Nat) (a : Vec) : List (BitVec 16) :=
  if Config.vcvtHigh kind then (lanesOf 16 a).drop 16 else (lanesOf 16 a).take 16

/-- The result of VCVT. -/
def convertVec (kind : Cvt) (a b : Vec) : Vec :=
  match kind with
  | .f32ToBf16 => narrowed a b ((lanes32 a).map (to16 8 7 127))
  | .f32ToF16 => narrowed a b ((lanes32 a).map (to16 5 10 15))
  | .bf16ToF32 => ofLanes ((widened 0 a).map (toF32 8 7 127))
  | .f16ToF32 => ofLanes ((widened 1 a).map (toF32 5 10 15))
  | .bf16ToF16 => ofLanes ((lanesOf 16 a).map bfToHalf)
  | .f16ToBf16 => ofLanes ((lanesOf 16 a).map halfToBf)

/-- The flags of a transcendental or conversion, lane by lane: not stated (log 5). -/
def openFlags (op : Nat) (a : Vec) : BitVec 5 := (lanes32 a).foldl (fun f x => f ||| Config.xuFlags op x) 0

/-- VCVT (R104): nearest-even whatever CL_FRM holds. -/
def execVcvt (i : Issue) (kind : Cvt) (vd va vb : VReg) (s : State) : Out :=
  .next (s.issueVec i (.vcvt (lone i) kind vd va vb) unitVec vd [va, vb] fun k =>
    ({ k with fflags := k.fflags ||| openFlags 8 (k.vreg va) }, convertVec kind (k.vreg va) (k.vreg vb)))
/-- VPACK.MX (R104): 32 lanes packed into one block of an MX type; scale and rounding are not stated (log 5). -/
def execVpackMx (i : Issue) (elem : BitVec 4) (vd va vb : VReg) (s : State) : Out :=
  .next (s.issueVec i (.vpackMx (lone i) elem vd va vb) unitVec vd [va, vb] fun k => (k, packMx elem.toNat (k.vreg va) (k.vreg vb)))

/-! ### Transcendental (R104) -/

/-- A lane-by-lane function on the transcendental unit. -/
def xuOp (i : Issue) (c : Instr) (op : Nat) (vd va : VReg) (f : F32 → F32) (s : State) : Out :=
  .next (s.issueVec i c unitXu vd [va] fun k =>
    ({ k with fflags := k.fflags ||| openFlags op (k.vreg va) }, ofLanes ((lanes32 (k.vreg va)).map f)))

/-- XEXP2 (R104): within 2 ulp. -/
def execXexp2 (i : Issue) (vd va : VReg) (s : State) : Out := xuOp i (.xexp2 (lone i) vd va) 0 vd va f32Exp2 s
/-- XLOG2 (R104): within 2 ulp. -/
def execXlog2 (i : Issue) (vd va : VReg) (s : State) : Out := xuOp i (.xlog2 (lone i) vd va) 1 vd va f32Log2 s
/-- XRCP (R104): within 1 ulp. -/
def execXrcp (i : Issue) (vd va : VReg) (s : State) : Out := xuOp i (.xrcp (lone i) vd va) 2 vd va f32Rcp s
/-- XRSQRT (R104): within 1 ulp. -/
def execXrsqrt (i : Issue) (vd va : VReg) (s : State) : Out := xuOp i (.xrsqrt (lone i) vd va) 3 vd va f32Rsqrt s
/-- XSQRT (R104): correctly rounded. -/
def execXsqrt (i : Issue) (vd va : VReg) (s : State) : Out := xuOp i (.xsqrt (lone i) vd va) 4 vd va f32Sqrt s
/-- XSINPI (R104): within 2 ulp. -/
def execXsinpi (i : Issue) (vd va : VReg) (s : State) : Out := xuOp i (.xsinpi (lone i) vd va) 5 vd va f32SinPi s
/-- XCOSPI (R104): within 2 ulp. -/
def execXcospi (i : Issue) (vd va : VReg) (s : State) : Out := xuOp i (.xcospi (lone i) vd va) 6 vd va f32CosPi s
/-- XTANH (R104): within 2 ulp. -/
def execXtanh (i : Issue) (vd va : VReg) (s : State) : Out := xuOp i (.xtanh (lone i) vd va) 7 vd va f32Tanh s

end Sys2Proof.Machine
end

