-- ==== Sys2Proof/Machine/Dispatch.lean ====
section
/-! DEFINITION. What each command does: one arm per constructor of `Instr`, one direct call of its meaning. -/

namespace Sys2Proof.Machine

/-- The effect of a command on everything but the queue of commands. -/
def exec (i : Instr) (s : State) : Host.Outcome State Fault Refusal :=
  match i with
  | .registerWrite t => Sys2Proof.Machine.execRegisterWrite t s
  | .domainRequest via value => Sys2Proof.Machine.execDomainRequest via value s
  | .domainTransitionDone dom trained => Sys2Proof.Machine.execDomainTransitionDone dom trained s
  | .heldDomainRequest dom => Sys2Proof.Machine.execHeldDomainRequest dom s
  | .memoryHoldWrite via sub value => Sys2Proof.Machine.execMemoryHoldWrite via sub value s
  | .memoryHoldLowEntry cluster => Sys2Proof.Machine.execMemoryHoldLowEntry cluster s
  | .selfPolicyDomainOff dom => Sys2Proof.Machine.execSelfPolicyDomainOff dom s
  | .frameEdge m => Sys2Proof.Machine.execFrameEdge m s
  | .freeRunEntry m => Sys2Proof.Machine.execFreeRunEntry m s
  | .oscillatorBoundary m => Sys2Proof.Machine.execOscillatorBoundary m s
  | .nominalPeriodWrite via value => Sys2Proof.Machine.execNominalPeriodWrite via value s
  | .frameCounterPreset via value => Sys2Proof.Machine.execFrameCounterPreset via value s
  | .grantWrite via bight value => Sys2Proof.Machine.execGrantWrite via bight value s
  | .policyModeWrite via value => Sys2Proof.Machine.execPolicyModeWrite via value s
  | .launch queue answer => Sys2Proof.Machine.execLaunch queue answer s
  | .openCopyDone queue seq answer => Sys2Proof.Machine.execOpenCopyDone queue seq answer s
  | .add issue rd rs1 rs2 => Sys2Proof.Machine.execAdd issue rd rs1 rs2 s
  | .sub issue rd rs1 rs2 => Sys2Proof.Machine.execSub issue rd rs1 rs2 s
  | .and issue rd rs1 rs2 => Sys2Proof.Machine.execAnd issue rd rs1 rs2 s
  | .or issue rd rs1 rs2 => Sys2Proof.Machine.execOr issue rd rs1 rs2 s
  | .xor issue rd rs1 rs2 => Sys2Proof.Machine.execXor issue rd rs1 rs2 s
  | .shl issue rd rs1 rs2 => Sys2Proof.Machine.execShl issue rd rs1 rs2 s
  | .shr issue rd rs1 rs2 => Sys2Proof.Machine.execShr issue rd rs1 rs2 s
  | .sra issue rd rs1 rs2 => Sys2Proof.Machine.execSra issue rd rs1 rs2 s
  | .cmp issue rd rs1 rs2 func => Sys2Proof.Machine.execCmp issue rd rs1 rs2 func s
  | .sel issue rd rs1 rs2 => Sys2Proof.Machine.execSel issue rd rs1 rs2 s
  | .popc issue rd rs1 => Sys2Proof.Machine.execPopc issue rd rs1 s
  | .clz issue rd rs1 => Sys2Proof.Machine.execClz issue rd rs1 s
  | .addi issue rd rs1 imm => Sys2Proof.Machine.execAddi issue rd rs1 imm s
  | .mul issue rd rs1 rs2 => Sys2Proof.Machine.execMul issue rd rs1 rs2 s
  | .mulh issue rd rs1 rs2 => Sys2Proof.Machine.execMulh issue rd rs1 rs2 s
  | .mulhu issue rd rs1 rs2 => Sys2Proof.Machine.execMulhu issue rd rs1 rs2 s
  | .div issue rd rs1 rs2 => Sys2Proof.Machine.execDiv issue rd rs1 rs2 s
  | .divu issue rd rs1 rs2 => Sys2Proof.Machine.execDivu issue rd rs1 rs2 s
  | .rem issue rd rs1 rs2 => Sys2Proof.Machine.execRem issue rd rs1 rs2 s
  | .remu issue rd rs1 rs2 => Sys2Proof.Machine.execRemu issue rd rs1 rs2 s
  | .beq issue rs1 rs2 imm => Sys2Proof.Machine.execBeq issue rs1 rs2 imm s
  | .bne issue rs1 rs2 imm => Sys2Proof.Machine.execBne issue rs1 rs2 imm s
  | .blt issue rs1 rs2 imm => Sys2Proof.Machine.execBlt issue rs1 rs2 imm s
  | .bge issue rs1 rs2 imm => Sys2Proof.Machine.execBge issue rs1 rs2 imm s
  | .j issue imm => Sys2Proof.Machine.execJ issue imm s
  | .jal issue rd imm => Sys2Proof.Machine.execJal issue rd imm s
  | .jr issue rs1 => Sys2Proof.Machine.execJr issue rs1 s
  | .loop issue n m => Sys2Proof.Machine.execLoop issue n m s
  | .ld issue size rd rs1 imm => Sys2Proof.Machine.execLd issue size rd rs1 imm s
  | .ldu issue size rd rs1 imm => Sys2Proof.Machine.execLdu issue size rd rs1 imm s
  | .st issue size rs2 rs1 imm => Sys2Proof.Machine.execSt issue size rs2 rs1 imm s
  | .vld issue vd rs1 imm => Sys2Proof.Machine.execVld issue vd rs1 imm s
  | .vst issue vs rs1 imm => Sys2Proof.Machine.execVst issue vs rs1 imm s
  | .vldPi issue vd rs1 imm => Sys2Proof.Machine.execVldPi issue vd rs1 imm s
  | .vstPi issue vs rs1 imm => Sys2Proof.Machine.execVstPi issue vs rs1 imm s
  | .vldBc issue vd rs1 imm => Sys2Proof.Machine.execVldBc issue vd rs1 imm s
  | .amoadd issue rd rs1 rs2 => Sys2Proof.Machine.execAmoadd issue rd rs1 rs2 s
  | .amoswap issue rd rs1 rs2 => Sys2Proof.Machine.execAmoswap issue rd rs1 rs2 s
  | .amomax issue rd rs1 rs2 => Sys2Proof.Machine.execAmomax issue rd rs1 rs2 s
  | .amocas issue rd rs1 rs2 => Sys2Proof.Machine.execAmocas issue rd rs1 rs2 s
  | .vfma issue vd va vb vc => Sys2Proof.Machine.execVfma issue vd va vb vc s
  | .vadd issue vd va vb => Sys2Proof.Machine.execVadd issue vd va vb s
  | .vsub issue vd va vb => Sys2Proof.Machine.execVsub issue vd va vb s
  | .vmul issue vd va vb => Sys2Proof.Machine.execVmul issue vd va vb s
  | .vmin issue vd va vb => Sys2Proof.Machine.execVmin issue vd va vb s
  | .vmax issue vd va vb => Sys2Proof.Machine.execVmax issue vd va vb s
  | .vcmp issue vd va vb func => Sys2Proof.Machine.execVcmp issue vd va vb func s
  | .vaddi issue lane vd va vb => Sys2Proof.Machine.execVaddi issue lane vd va vb s
  | .vand issue vd va vb => Sys2Proof.Machine.execVand issue vd va vb s
  | .vshl issue lane vd va vb => Sys2Proof.Machine.execVshl issue lane vd va vb s
  | .vmuli issue lane vd va vb => Sys2Proof.Machine.execVmuli issue lane vd va vb s
  | .vsel issue lane vd va vb vc => Sys2Proof.Machine.execVsel issue lane vd va vb vc s
  | .vredsum issue vd va => Sys2Proof.Machine.execVredsum issue vd va s
  | .vredmax issue vd va => Sys2Proof.Machine.execVredmax issue vd va s
  | .vperm issue vd va vb => Sys2Proof.Machine.execVperm issue vd va vb s
  | .vbcast issue vd va vb => Sys2Proof.Machine.execVbcast issue vd va vb s
  | .vcvt issue kind vd va vb => Sys2Proof.Machine.execVcvt issue kind vd va vb s
  | .vpackMx issue elem vd va vb => Sys2Proof.Machine.execVpackMx issue elem vd va vb s
  | .xexp2 issue vd va => Sys2Proof.Machine.execXexp2 issue vd va s
  | .xlog2 issue vd va => Sys2Proof.Machine.execXlog2 issue vd va s
  | .xrcp issue vd va => Sys2Proof.Machine.execXrcp issue vd va s
  | .xrsqrt issue vd va => Sys2Proof.Machine.execXrsqrt issue vd va s
  | .xsqrt issue vd va => Sys2Proof.Machine.execXsqrt issue vd va s
  | .xsinpi issue vd va => Sys2Proof.Machine.execXsinpi issue vd va s
  | .xcospi issue vd va => Sys2Proof.Machine.execXcospi issue vd va s
  | .xtanh issue vd va => Sys2Proof.Machine.execXtanh issue vd va s
  | .send issue handle vs => Sys2Proof.Machine.execSend issue handle vs s
  | .recv issue vd handle => Sys2Proof.Machine.execRecv issue vd handle s
  | .qpush issue q vs word => Sys2Proof.Machine.execQpush issue q vs word s
  | .qpop issue vd q word => Sys2Proof.Machine.execQpop issue vd q word s
  | .csrr issue rd csr => Sys2Proof.Machine.execCsrr issue rd csr s
  | .csrw issue csr rs1 => Sys2Proof.Machine.execCsrw issue csr rs1 s
  | .cbar issue mask => Sys2Proof.Machine.execCbar issue mask s
  | .fenceFar issue => Sys2Proof.Machine.execFenceFar issue s
  | .isync issue => Sys2Proof.Machine.execIsync issue s
  | .ebreak issue => Sys2Proof.Machine.execEbreak issue s
  | .halt issue => Sys2Proof.Machine.execHalt issue s
  | .farAccessDone core req => Sys2Proof.Machine.execFarAccessDone core req s
  | .stallLimit core word => Sys2Proof.Machine.execStallLimit core word s
  | .fault n => Sys2Proof.Machine.execFault n s
  | .tileGo issue value => Sys2Proof.Machine.execTileGo issue value s
  | .tileStart cluster => Sys2Proof.Machine.execTileStart cluster s
  | .tileComplete cluster => Sys2Proof.Machine.execTileComplete cluster s
  | .vectorArrival n => Sys2Proof.Machine.execVectorArrival n s
  | .deadLetter n => Sys2Proof.Machine.execDeadLetter n s
  | .clockRatioChange half div => Sys2Proof.Machine.execClockRatioChange half div s
  | .ack n bad => Sys2Proof.Machine.execAck n bad s
  | .lash via addr answer => Sys2Proof.Machine.execLash via addr answer s
  | .lashComplete bight => Sys2Proof.Machine.execLashComplete bight s
  | .hedgeWrite via bight value => Sys2Proof.Machine.execHedgeWrite via bight value s
  | .functionLevelReset fn => Sys2Proof.Machine.execFunctionLevelReset fn s
  | .flrFunction0 => Sys2Proof.Machine.execFlrFunction0 s
  | .relash queue => Sys2Proof.Machine.execRelash queue s
  | .prepare bight half => Sys2Proof.Machine.execPrepare bight half s
  | .quiesce bight => Sys2Proof.Machine.execQuiesce bight s
  | .drainLimit bight => Sys2Proof.Machine.execDrainLimit bight s
  | .commitBoundary bight => Sys2Proof.Machine.execCommitBoundary bight s
  | .switch bight => Sys2Proof.Machine.execSwitch bight s
  | .resume bight => Sys2Proof.Machine.execResume bight s
  | .cancel bight => Sys2Proof.Machine.execCancel bight s
  | .clear bight half => Sys2Proof.Machine.execClear bight half s
  | .bightRelease via value => Sys2Proof.Machine.execBightRelease via value s
  | .releaseComplete bight => Sys2Proof.Machine.execReleaseComplete bight s
  | .idleLow bight => Sys2Proof.Machine.execIdleLow bight s
  | .sramWriteBack cluster bank => Sys2Proof.Machine.execSramWriteBack cluster bank s
  | .prunerRead cluster bank => Sys2Proof.Machine.execPrunerRead cluster bank s
  | .memerr n => Sys2Proof.Machine.execMemerr n s
  | .selfPolicyRetire region => Sys2Proof.Machine.execSelfPolicyRetire region s
  | .retire via value => Sys2Proof.Machine.execRetire via value s
  | .flipArm cluster value => Sys2Proof.Machine.execFlipArm cluster value s
  | .selfPolicyHbmLow stack => Sys2Proof.Machine.execSelfPolicyHbmLow stack s
  | .gateRelease group => Sys2Proof.Machine.execGateRelease group s
  | .hbmWriteBack group => Sys2Proof.Machine.execHbmWriteBack group s
  | .patrolRead group => Sys2Proof.Machine.execPatrolRead group s
  | .refreshSample group halfDegrees => Sys2Proof.Machine.execRefreshSample group halfDegrees s
  | .gateSetting via value => Sys2Proof.Machine.execGateSetting via value s
  | .contextTableWrite via value => Sys2Proof.Machine.execContextTableWrite via value s
  | .batchClose fn => Sys2Proof.Machine.execBatchClose fn s
  | .heldFaultWrite fn => Sys2Proof.Machine.execHeldFaultWrite fn s
  | .faultRingEnable fn value => Sys2Proof.Machine.execFaultRingEnable fn value s
  | .faultRetry fn tag => Sys2Proof.Machine.execFaultRetry fn tag s
  | .faultFail fn tag => Sys2Proof.Machine.execFaultFail fn tag s
  | .invalidateDrain value => Sys2Proof.Machine.execInvalidateDrain value s
  | .invalidateAbort value => Sys2Proof.Machine.execInvalidateAbort value s
  | .invalidationComplete => Sys2Proof.Machine.execInvalidationComplete s
  | .accessNotification die counter => Sys2Proof.Machine.execAccessNotification die counter s
  | .inboundRequest port => Sys2Proof.Machine.execInboundRequest port s
  | .inboundCloseDrain via window => Sys2Proof.Machine.execInboundCloseDrain via window s
  | .inboundCloseAbort via window => Sys2Proof.Machine.execInboundCloseAbort via window s
  | .outboundClose via window => Sys2Proof.Machine.execOutboundClose via window s
  | .apertureAccess fn offset len data => Sys2Proof.Machine.execApertureAccess fn offset len data s
  | .irqCauseClear fn value => Sys2Proof.Machine.execIrqCauseClear fn value s
  | .functionPortWrite via fn value => Sys2Proof.Machine.execFunctionPortWrite via fn value s
  | .objectTableWrite via value => Sys2Proof.Machine.execObjectTableWrite via value s
  | .queueCreate via addr answer => Sys2Proof.Machine.execQueueCreate via addr answer s
  | .queueDestroy via addr answer => Sys2Proof.Machine.execQueueDestroy via addr answer s
  | .queueStop via addr answer => Sys2Proof.Machine.execQueueStop via addr answer s
  | .queueStart via addr answer => Sys2Proof.Machine.execQueueStart via addr answer s
  | .doorbell fn localQ value => Sys2Proof.Machine.execDoorbell fn localQ value s
  | .descriptorFetch queue answer => Sys2Proof.Machine.execDescriptorFetch queue answer s
  | .run queue => Sys2Proof.Machine.execRun queue s
  | .move queue => Sys2Proof.Machine.execMove queue s
  | .sendCommand queue => Sys2Proof.Machine.execSendCommand queue s
  | .recvCommand queue => Sys2Proof.Machine.execRecvCommand queue s
  | .wait queue => Sys2Proof.Machine.execWait queue s
  | .signal queue => Sys2Proof.Machine.execSignal queue s
  | .commitGroup queue => Sys2Proof.Machine.execCommitGroup queue s
  | .commitRequest queue seq => Sys2Proof.Machine.execCommitRequest queue seq s
  | .commit bight => Sys2Proof.Machine.execCommit bight s
  | .kill bight => Sys2Proof.Machine.execKill bight s
  | .killComplete queue seq => Sys2Proof.Machine.execKillComplete queue seq s
  | .abort via value => Sys2Proof.Machine.execAbort via value s
  | .sliceEnd bight => Sys2Proof.Machine.execSliceEnd bight s
  | .switchDone bight answer => Sys2Proof.Machine.execSwitchDone bight answer s
  | .holdCeiling queue seq => Sys2Proof.Machine.execHoldCeiling queue seq s
  | .fenceCreate via addr answer => Sys2Proof.Machine.execFenceCreate via addr answer s
  | .fenceDestroy via addr answer => Sys2Proof.Machine.execFenceDestroy via addr answer s
  | .errorFenceWrite via bight value => Sys2Proof.Machine.execErrorFenceWrite via bight value s
  | .contextTeardown via addr answer => Sys2Proof.Machine.execContextTeardown via addr answer s
  | .teardownComplete asid => Sys2Proof.Machine.execTeardownComplete asid s
  | .pcieLinkDown port => Sys2Proof.Machine.execPcieLinkDown port s
  | .trainingDone port width firstLane => Sys2Proof.Machine.execTrainingDone port width firstLane s
  | .trainingTimeout port => Sys2Proof.Machine.execTrainingTimeout port s
  | .downRetry port => Sys2Proof.Machine.execDownRetry port s
  | .linkErrorDown port => Sys2Proof.Machine.execLinkErrorDown port s
  | .flitReceived port flit fec => Sys2Proof.Machine.execFlitReceived port flit fec s
  | .replayTimeout port => Sys2Proof.Machine.execReplayTimeout port s
  | .readReq port => Sys2Proof.Machine.execReadReq port s
  | .write port => Sys2Proof.Machine.execWrite port s
  | .readData port => Sys2Proof.Machine.execReadData port s
  | .writeDone port => Sys2Proof.Machine.execWriteDone port s
  | .notReadyResend req => Sys2Proof.Machine.execNotReadyResend req s
  | .reduce port => Sys2Proof.Machine.execReduce port s
  | .commitNotice port => Sys2Proof.Machine.execCommitNotice port s
  | .withdraw port => Sys2Proof.Machine.execWithdraw port s
  | .abandon port => Sys2Proof.Machine.execAbandon port s
  | .pace port => Sys2Proof.Machine.execPace port s
  | .paceNoticeExpiry group member => Sys2Proof.Machine.execPaceNoticeExpiry group member s
  | .paceHoldLimit group => Sys2Proof.Machine.execPaceHoldLimit group s
  | .txKeyWrite via port slot key => Sys2Proof.Machine.execTxKeyWrite via port slot key s
  | .rxKeyWrite via port slot key => Sys2Proof.Machine.execRxKeyWrite via port slot key s
  | .transmitSelection via port value => Sys2Proof.Machine.execTransmitSelection via port value s
  | .receiveSlotInvalidate via port value => Sys2Proof.Machine.execReceiveSlotInvalidate via port value s
  | .slotArm via slot => Sys2Proof.Machine.execSlotArm via slot s
  | .slotFree via slot => Sys2Proof.Machine.execSlotFree via slot s
  | .slotAbort via slot => Sys2Proof.Machine.execSlotAbort via slot s
  | .handoffRegionWrite via value => Sys2Proof.Machine.execHandoffRegionWrite via value s
  | .offer port => Sys2Proof.Machine.execOffer port s
  | .taken port => Sys2Proof.Machine.execTaken port s
  | .release port => Sys2Proof.Machine.execRelease port s
  | .handoffResend slot => Sys2Proof.Machine.execHandoffResend slot s
  | .handoffTimeout slot => Sys2Proof.Machine.execHandoffTimeout slot s
  | .heldTimeout slot => Sys2Proof.Machine.execHeldTimeout slot s
  | .queryRepeat slot => Sys2Proof.Machine.execQueryRepeat slot s
  | .prefetchCopyDone slot answer => Sys2Proof.Machine.execPrefetchCopyDone slot answer s
  | .verdict via value => Sys2Proof.Machine.execVerdict via value s
  | .zeroizeDone slot => Sys2Proof.Machine.execZeroizeDone slot s
  | .reportRemove via value => Sys2Proof.Machine.execReportRemove via value s
  | .powerWindow w => Sys2Proof.Machine.execPowerWindow w s
  | .limit n => Sys2Proof.Machine.execLimit n s
  | .trimRun => Sys2Proof.Machine.execTrimRun s
  | .trim mhz => Sys2Proof.Machine.execTrim mhz s
  | .capWrite via value => Sys2Proof.Machine.execCapWrite via value s
  | .fixedFrequencyWrite via value => Sys2Proof.Machine.execFixedFrequencyWrite via value s
  | .droop half cycles => Sys2Proof.Machine.execDroop half cycles s
  | .wearUnit die => Sys2Proof.Machine.execWearUnit die s
  | .junctionSample halfDegrees => Sys2Proof.Machine.execJunctionSample halfDegrees s
  | .thermal n => Sys2Proof.Machine.execThermal n s
  | .trip location halfDegrees => Sys2Proof.Machine.execTrip location halfDegrees s
  | .supplySample centivolts => Sys2Proof.Machine.execSupplySample centivolts s
  | .reefEnter => Sys2Proof.Machine.execReefEnter s
  | .reefExit => Sys2Proof.Machine.execReefExit s
  | .supplyReset => Sys2Proof.Machine.execSupplyReset s
  | .inputSwitchOn => Sys2Proof.Machine.execInputSwitchOn s
  | .supplyGood nonce => Sys2Proof.Machine.execSupplyGood nonce s
  | .bootGo port value => Sys2Proof.Machine.execBootGo port value s
  | .imageVerified => Sys2Proof.Machine.execImageVerified s
  | .ready failedStacks => Sys2Proof.Machine.execReady failedStacks s
  | .debugDisable via value => Sys2Proof.Machine.execDebugDisable via value s
  | .reportRequest via nonce => Sys2Proof.Machine.execReportRequest via nonce s
  | .reportReady => Sys2Proof.Machine.execReportReady s
  | .measure via request => Sys2Proof.Machine.execMeasure via request s
  | .measureDone answer => Sys2Proof.Machine.execMeasureDone answer s
  | .keyWrite via slot gen key => Sys2Proof.Machine.execKeyWrite via slot gen key s
  | .keyOwnerWrite via slot value => Sys2Proof.Machine.execKeyOwnerWrite via slot value s
  | .keyZeroize via slot value => Sys2Proof.Machine.execKeyZeroize via slot value s
  | .keyErase slot gen => Sys2Proof.Machine.execKeyErase slot gen s
  | .keyRotation via slot request => Sys2Proof.Machine.execKeyRotation via slot request s
  | .frameMove slot => Sys2Proof.Machine.execFrameMove slot s
  | .rotationComplete slot => Sys2Proof.Machine.execRotationComplete slot s
  | .tenantRemoval via value => Sys2Proof.Machine.execTenantRemoval via value s
  | .mboxRead port index sub len bufferOk => Sys2Proof.Machine.execMboxRead port index sub len bufferOk s
  | .mboxWrite port index sub len buffer answer => Sys2Proof.Machine.execMboxWrite port index sub len buffer answer s
  | .mboxDescribe port index sub len => Sys2Proof.Machine.execMboxDescribe port index sub len s
  | .datagramRead datagram => Sys2Proof.Machine.execDatagramRead datagram s
  | .datagramWrite datagram => Sys2Proof.Machine.execDatagramWrite datagram s
  | .datagramDescribe datagram => Sys2Proof.Machine.execDatagramDescribe datagram s
  | .modbusReadHolding conn address count => Sys2Proof.Machine.execModbusReadHolding conn address count s
  | .modbusReadInput conn address count => Sys2Proof.Machine.execModbusReadInput conn address count s
  | .networkConfigWrite via sub value => Sys2Proof.Machine.execNetworkConfigWrite via sub value s
  | .managementKeyWrite via keyId key => Sys2Proof.Machine.execManagementKeyWrite via keyId key s
  | .counterSnapshot via value => Sys2Proof.Machine.execCounterSnapshot via value s
  | .perst => Sys2Proof.Machine.execPerst s
  | .perstPort1 => Sys2Proof.Machine.execPerstPort1 s
  | .resetIn => Sys2Proof.Machine.execResetIn s
  | .watchdog => Sys2Proof.Machine.execWatchdog s
  | .dictionaryReset via value => Sys2Proof.Machine.execDictionaryReset via value s
  | .rootstockEntry => Sys2Proof.Machine.execRootstockEntry s
  | .rootstockExit via value => Sys2Proof.Machine.execRootstockExit via value s
  | .eventLogRemove via value => Sys2Proof.Machine.execEventLogRemove via value s
  | .illegalInsn issue word => Sys2Proof.Machine.execIllegalInsn issue word s
  | .fetchException core => Sys2Proof.Machine.execFetchException core s
  | .pcieCompletion req answer => Sys2Proof.Machine.execPcieCompletion req answer s
  | .completionTimeout req => Sys2Proof.Machine.execCompletionTimeout req s
  | .errorsWindowExpiry => Sys2Proof.Machine.execErrorsWindowExpiry s
  | .resetInRelease => Sys2Proof.Machine.execResetInRelease s
  | .sgmiiAutoNegotiation link mbps => Sys2Proof.Machine.execSgmiiAutoNegotiation link mbps s
  | .modbusConnection conn => Sys2Proof.Machine.execModbusConnection conn s
  | .modbusOtherFunctionCode conn code => Sys2Proof.Machine.execModbusOtherFunctionCode conn code s
  | .mboxCommandOutOfRange port op index sub len => Sys2Proof.Machine.execMboxCommandOutOfRange port op index sub len s

end Sys2Proof.Machine
end

