-- ==== Sys2Proof/Machine/Tick.lean ====
section
/-! DEFINITION. One nanosecond of time: the base-cycle count, the bights' schedule counters and program planes, static energy
cycle counts, wear, the rollback fuse, the transit plane, what waited at a gate, and the Modbus registers (R64, R65, R200, R203, R204, R222, R225,
R318, R546, R554, R632). -/

namespace Sys2Proof.Machine

/-- σ runs on a bight in these states (R203, R259, R273). -/
def Bight.runs (b : Bight) : Bool := b.state == .lashed || b.state == .prepare || b.state == .quiesce

/-- The issue duty lets group g of four cycles at the bight rate pass: of every 16 groups as many as the duty has sixteenths, spread
evenly (R207, R546; DESIGN CHOICE, log 179). -/
def dutyPasses (duty g : Nat) : Bool := decide (g % 16 * duty / 16 < (g % 16 + 1) * duty / 16)

/-- Base cycle t is a bight cycle of bight b: a cycle at the bight rate (R204) that the duty does not hold, in a run of four (R207,
R546). σ starts at, and keeps, σ mod 4 = τ mod 4 (R203, R207). -/
def State.bightAdvances (s : State) (b t : Nat) : Bool :=
  let r := s.bightDiv b
  decide (t % r = 0) && t / r % 4 == (s.bight b).sigma % 4 && dutyPasses (s.dutyOf b) (t / r / 4)

/-- A bight in one nanosecond: the base cycles that begin in it (R200, R203). -/
def State.tickBight (s : State) (before after b : Nat) : State :=
  (List.range (after - before)).foldl (fun s i =>
    if (s.bight b).runs && s.bightAdvances b (before + 1 + i) then s.bightCycle b else s) s

/-- What counts the cycles of a power domain (R64): a cluster, the routers of a half-die, a stack's two controllers, a link port. -/
def metersOf (i : Nat) : List Meter :=
  match domKind i with
  | .cluster c => [.cluster c]
  | .half h => [.half h]
  | .stack st => [.group (2 * st), .group (2 * st + 1)]
  | .port p => [.port p]
  | _ => []

/-- Who pays for the cycles of a power domain (R65): a cluster that is ON is its bight's, all else the base reserve's. -/
def State.domPayer (s : State) (i : Nat) : Payer :=
  match domKind i with
  | .cluster c => s.payerOfCluster c
  | _ => .base

/-- The cycles of a domain's clock between two base-cycle counts (R199). -/
def State.domCycles (s : State) (i before after : Nat) : Nat :=
  let r := match halfOfDomain i with | some h => s.divOf h | none => s.divOf (i - 512)
  after / r - before / r

/-- The static energy of a cluster that is ON, in one nanosecond (R64, R65, R74). -/
def State.staticTick (s : State) (i : Nat) : State :=
  match domKind i with
  | .cluster c =>
    let e := s.staticMw c
    if s.clusterOn c && e != 0 then (s.addModel (dieOfCluster c) e).charge (s.payerOfCluster c) (dieOfCluster c) e else s
  | _ => s

/-- One nanosecond of a power domain that is not OFF: its cycles are counted in its state and clock, and static energy is charged
(R64, R65). -/
def State.tickDomain (s : State) (before after i : Nat) : State :=
  let n := s.domCycles i before after
  let mhz := match halfOfDomain i with | some h => s.halfMhz h | none => s.halfMhz (i - 512)
  let s := if n = 0 then s
    else (metersOf i).foldl (fun s u => s.activity u (.cycles (s.dom i) mhz) n (s.domPayer i)) s
  s.staticTick i

/-- Domains that are not OFF; an OFF domain has no clock to count (log 169). -/
def State.liveDomains (s : State) : List Nat :=
  s.domains.filterMap fun (e : Nat × Domain) => if e.2.state = .off then none else some e.1

/-- The stress of one nanosecond on every die of a module that is READY (R554). -/
def State.tickWear (s : State) : State :=
  if s.isReady then
    { s with power := { s.power with
      stress := (List.range 16).foldl (fun (t : Tab Nat) d => addAt t d (s.stressRate d)) s.power.stress } }
  else s

/-- A lashed bight that has a running or launchable command is not idle (R286). -/
def State.noteBusy (s : State) (b : Nat) : State :=
  if (s.bight b).runs && (s.bightRuns b || s.hasLaunchable b) then s.modBight b fun x => { x with idleSince := s.now } else s

/-- What waits at a gate with no command of its own is tried again (R318), each kind in order: lash requests, ARMs, records, host
accesses, and the register writes behind these (R372, R377). -/
def State.resumeHeld (s : State) : State :=
  let lashes := s.bights.lashWaiting
  let arms := s.handoff.armWaiting
  let records := s.host.recordWaiting
  let accesses := s.host.apertureWaiting
  let regs := s.host.regWaiting
  let s := { s with
    bights := { s.bights with lashWaiting := [] }
    handoff := { s.handoff with armWaiting := [] }
    host := { s.host with apertureWaiting := [], recordWaiting := [] } }
  let s := arms.foldl (fun s i => s.slotArm i) (lashes.foldl (fun s r => s.lashWith r) s)
  let s := accesses.foldl (fun s x => s.aperture x) (records.foldl (fun s x => s.takeRecord x) s)
  regs.foldl (fun s x => s.takeReg x) { s with host := { s.host with regWaiting := [] } }

/-- The flits that the ports' payload streams have begun leave (R483, log 15). -/
def State.flushPorts (s : State) : State := (Tab.keys s.fabric.ports).foldl (fun (s : State) n => s.flushFlit n) s

/-- The rollback fuse of a module that is READY below the image's FLOOR: one step after another, each of 1 ms (R583, log 220). -/
def State.tickRollback (s : State) : State :=
  if s.isReady && decide (s.fuses.rollback < s.boot.floor) && decide (s.boot.stepAt + 1000000 ≤ s.now) then
    { s with boot := { s.boot with stepAt := s.now }, fuses := { s.fuses with rollback := s.fuses.rollback + 1 } }
  else s

/-- One nanosecond passes. Nothing else happens by itself: every other timed event is a command (log 1). -/
def tick (s : State) : State :=
  let before := s.baseCycle
  let s := { s with now := s.now + 1, mesh := { s.mesh with tau0 := s.mesh.tau0 + s.power.baseMhz } }
  let s := s.liveDomains.foldl (fun s i => s.tickDomain before s.baseCycle i) s
  let s := s.tickWear.tickRollback.tickTransit before s.baseCycle
  ((Tab.keys s.bights.tab).foldl (fun s b => (s.tickBight before s.baseCycle b).noteBusy b) s).resumeHeld.flushPorts.takeModbus

end Sys2Proof.Machine
end

