-- ==== Sys2Proof/WellFormed.lean ====
section
/-! DEFINITION. Which commands name something the module has: every number that names an object lies in its range. -/

namespace Sys2Proof

/-- A register write names a subindex, or a register of a function's BAR by an aligned access of 4 or 8 bytes (R395),
or a port's VF Enable (R391). -/
def WriteTarget.wf : WriteTarget → Bool
  | .object _ index sub _ _ => decide (index < 0x10000) && decide (sub < 0x100)
  | .mmio fn bar offset width _ =>
    decide (fn < 64) && (bar == 0 || bar == 4) && (width == 4 || width == 8) && offset % width == 0
  | .vfEnable port _ => decide (port < 2)

/-- Every number of the command that names an object of the module lies in that object's range. -/
def wellFormed : Instr → Bool
  | .registerWrite t => t.wf
  | .domainRequest _ _ => true
  | .domainTransitionDone dom _ => decide (dom < 641)
  | .heldDomainRequest dom => decide (dom < 641)
  | .memoryHoldWrite _ _ _ => true
  | .memoryHoldLowEntry cluster => decide (cluster < 512)
  | .selfPolicyDomainOff dom => decide (dom < 641)
  | .frameEdge _ => true
  | .freeRunEntry _ => true
  | .oscillatorBoundary _ => true
  | .nominalPeriodWrite _ _ => true
  | .frameCounterPreset _ _ => true
  | .grantWrite _ bight _ => (bight.all (decide <| · < 256))
  | .policyModeWrite _ _ => true
  | .launch queue _ => decide (queue < 4096)
  | .openCopyDone queue seq _ => decide (queue < 4096) && decide (seq < 68719476736)
  | .add i _ _ _ => decide (i.core < 8192)
  | .sub i _ _ _ => decide (i.core < 8192)
  | .and i _ _ _ => decide (i.core < 8192)
  | .or i _ _ _ => decide (i.core < 8192)
  | .xor i _ _ _ => decide (i.core < 8192)
  | .shl i _ _ _ => decide (i.core < 8192)
  | .shr i _ _ _ => decide (i.core < 8192)
  | .sra i _ _ _ => decide (i.core < 8192)
  | .cmp i _ _ _ _ => decide (i.core < 8192)
  | .sel i _ _ _ => decide (i.core < 8192)
  | .popc i _ _ => decide (i.core < 8192)
  | .clz i _ _ => decide (i.core < 8192)
  | .addi i _ _ _ => decide (i.core < 8192)
  | .mul i _ _ _ => decide (i.core < 8192)
  | .mulh i _ _ _ => decide (i.core < 8192)
  | .mulhu i _ _ _ => decide (i.core < 8192)
  | .div i _ _ _ => decide (i.core < 8192)
  | .divu i _ _ _ => decide (i.core < 8192)
  | .rem i _ _ _ => decide (i.core < 8192)
  | .remu i _ _ _ => decide (i.core < 8192)
  | .beq i _ _ _ => decide (i.core < 8192)
  | .bne i _ _ _ => decide (i.core < 8192)
  | .blt i _ _ _ => decide (i.core < 8192)
  | .bge i _ _ _ => decide (i.core < 8192)
  | .j i _ => decide (i.core < 8192)
  | .jal i _ _ => decide (i.core < 8192)
  | .jr i _ => decide (i.core < 8192)
  | .loop i _ _ => decide (i.core < 8192)
  | .ld i _ _ _ _ => decide (i.core < 8192)
  | .ldu i _ _ _ _ => decide (i.core < 8192)
  | .st i _ _ _ _ => decide (i.core < 8192)
  | .vld i _ _ _ => decide (i.core < 8192)
  | .vst i _ _ _ => decide (i.core < 8192)
  | .vldPi i _ _ _ => decide (i.core < 8192)
  | .vstPi i _ _ _ => decide (i.core < 8192)
  | .vldBc i _ _ _ => decide (i.core < 8192)
  | .amoadd i _ _ _ => decide (i.core < 8192)
  | .amoswap i _ _ _ => decide (i.core < 8192)
  | .amomax i _ _ _ => decide (i.core < 8192)
  | .amocas i _ _ _ => decide (i.core < 8192)
  | .vfma i _ _ _ _ => decide (i.core < 8192)
  | .vadd i _ _ _ => decide (i.core < 8192)
  | .vsub i _ _ _ => decide (i.core < 8192)
  | .vmul i _ _ _ => decide (i.core < 8192)
  | .vmin i _ _ _ => decide (i.core < 8192)
  | .vmax i _ _ _ => decide (i.core < 8192)
  | .vcmp i _ _ _ _ => decide (i.core < 8192)
  | .vaddi i _ _ _ _ => decide (i.core < 8192)
  | .vand i _ _ _ => decide (i.core < 8192)
  | .vshl i _ _ _ _ => decide (i.core < 8192)
  | .vmuli i _ _ _ _ => decide (i.core < 8192)
  | .vsel i _ _ _ _ _ => decide (i.core < 8192)
  | .vredsum i _ _ => decide (i.core < 8192)
  | .vredmax i _ _ => decide (i.core < 8192)
  | .vperm i _ _ _ => decide (i.core < 8192)
  | .vbcast i _ _ _ => decide (i.core < 8192)
  | .vcvt i _ _ _ _ => decide (i.core < 8192)
  | .vpackMx i _ _ _ _ => decide (i.core < 8192)
  | .xexp2 i _ _ => decide (i.core < 8192)
  | .xlog2 i _ _ => decide (i.core < 8192)
  | .xrcp i _ _ => decide (i.core < 8192)
  | .xrsqrt i _ _ => decide (i.core < 8192)
  | .xsqrt i _ _ => decide (i.core < 8192)
  | .xsinpi i _ _ => decide (i.core < 8192)
  | .xcospi i _ _ => decide (i.core < 8192)
  | .xtanh i _ _ => decide (i.core < 8192)
  | .send i _ _ => decide (i.core < 8192)
  | .recv i _ _ => decide (i.core < 8192)
  | .qpush i _ _ _ => decide (i.core < 8192)
  | .qpop i _ _ _ => decide (i.core < 8192)
  | .csrr i _ _ => decide (i.core < 8192)
  | .csrw i _ _ => decide (i.core < 8192)
  | .cbar i _ => decide (i.core < 8192)
  | .fenceFar i => decide (i.core < 8192)
  | .isync i => decide (i.core < 8192)
  | .ebreak i => decide (i.core < 8192)
  | .halt i => decide (i.core < 8192)
  | .farAccessDone core _ => decide (core < 8192)
  | .stallLimit core _ => decide (core < 8192)
  | .fault _ => true
  | .tileGo i _ => decide (i.core < 8192)
  | .tileStart cluster => decide (cluster < 512)
  | .tileComplete cluster => decide (cluster < 512)
  | .vectorArrival _ => true
  | .deadLetter _ => true
  | .clockRatioChange half div => decide (half < 32) && (div == 1 || div == 2 || div == 4)
  | .ack _ _ => true
  | .lash _ _ _ => true
  | .lashComplete bight => decide (bight < 256)
  | .hedgeWrite _ bight _ => decide (bight < 256)
  | .functionLevelReset fn => decide (fn < 64)
  | .flrFunction0 => true
  | .relash queue => decide (queue < 4096)
  | .prepare bight half => decide (bight < 256) && decide (half < 32)
  | .quiesce bight => decide (bight < 256)
  | .drainLimit bight => decide (bight < 256)
  | .commitBoundary bight => decide (bight < 256)
  | .switch bight => decide (bight < 256)
  | .resume bight => decide (bight < 256)
  | .cancel bight => decide (bight < 256)
  | .clear bight half => decide (bight < 256) && decide (half < 32)
  | .bightRelease _ _ => true
  | .releaseComplete bight => decide (bight < 256)
  | .idleLow bight => decide (bight < 256)
  | .sramWriteBack cluster bank => decide (cluster < 512) && decide (bank < 24)
  | .prunerRead cluster bank => decide (cluster < 512) && decide (bank < 24)
  | .memerr _ => true
  | .selfPolicyRetire region => decide (region < 4194304)
  | .retire _ _ => true
  | .flipArm cluster _ => decide (cluster < 512)
  | .selfPolicyHbmLow stack => decide (stack < 32)
  | .gateRelease group => decide (group < 64)
  | .hbmWriteBack group => decide (group < 64)
  | .patrolRead group => decide (group < 64)
  | .refreshSample group _ => decide (group < 64)
  | .gateSetting _ _ => true
  | .contextTableWrite _ _ => true
  | .batchClose fn => decide (fn < 64)
  | .heldFaultWrite fn => decide (fn < 64)
  | .faultRingEnable fn _ => decide (fn < 64)
  | .faultRetry fn _ => decide (fn < 64)
  | .faultFail fn _ => decide (fn < 64)
  | .invalidateDrain _ => true
  | .invalidateAbort _ => true
  | .invalidationComplete => true
  | .accessNotification die counter => decide (die < 16) && decide (counter < 1024)
  | .inboundRequest port => decide (port < 48)
  | .inboundCloseDrain _ window => decide (window < 256)
  | .inboundCloseAbort _ window => decide (window < 256)
  | .outboundClose _ window => decide (window < 256)
  | .apertureAccess fn _ _ _ => decide (fn < 64)
  | .irqCauseClear fn _ => decide (fn < 64)
  | .functionPortWrite _ fn _ => decide (fn < 64)
  | .objectTableWrite _ _ => true
  | .queueCreate _ _ _ => true
  | .queueDestroy _ _ _ => true
  | .queueStop _ _ _ => true
  | .queueStart _ _ _ => true
  | .doorbell fn localQ _ => decide (fn < 64) && decide (localQ < 256)
  | .descriptorFetch queue _ => decide (queue < 4096)
  | .run queue => decide (queue < 4096)
  | .move queue => decide (queue < 4096)
  | .sendCommand queue => decide (queue < 4096)
  | .recvCommand queue => decide (queue < 4096)
  | .wait queue => decide (queue < 4096)
  | .signal queue => decide (queue < 4096)
  | .commitGroup queue => decide (queue < 4096)
  | .commitRequest queue seq => decide (queue < 4096) && decide (seq < 68719476736)
  | .commit bight => decide (bight < 256)
  | .kill bight => decide (bight < 256)
  | .killComplete queue seq => decide (queue < 4096) && decide (seq < 68719476736)
  | .abort _ _ => true
  | .sliceEnd bight => decide (bight < 256)
  | .switchDone bight _ => decide (bight < 256)
  | .holdCeiling queue seq => decide (queue < 4096) && decide (seq < 68719476736)
  | .fenceCreate _ _ _ => true
  | .fenceDestroy _ _ _ => true
  | .errorFenceWrite _ bight _ => decide (bight < 256)
  | .contextTeardown _ _ _ => true
  | .teardownComplete asid => decide (asid < 4096)
  | .pcieLinkDown port => decide (port < 2)
  | .trainingDone port width _ => decide (port < 48) && (width == 2 || width == 4 || width == 8)
  | .trainingTimeout port => decide (port < 48)
  | .downRetry port => decide (port < 48)
  | .linkErrorDown port => decide (port < 48)
  | .flitReceived port _ _ => decide (port < 48)
  | .replayTimeout port => decide (port < 48)
  | .readReq port => decide (port < 48)
  | .write port => decide (port < 48)
  | .readData port => decide (port < 48)
  | .writeDone port => decide (port < 48)
  | .notReadyResend _ => true
  | .reduce port => decide (port < 48)
  | .commitNotice port => decide (port < 48)
  | .withdraw port => decide (port < 48)
  | .abandon port => decide (port < 48)
  | .pace port => decide (port < 48)
  | .paceNoticeExpiry group member => decide (group < 16) && decide (member < 64)
  | .paceHoldLimit group => decide (group < 16)
  | .txKeyWrite _ port slot key => decide (port < 48) && decide (slot < 2) && key.length == 36
  | .rxKeyWrite _ port slot key => decide (port < 48) && decide (slot < 2) && key.length == 36
  | .transmitSelection _ port _ => decide (port < 48)
  | .receiveSlotInvalidate _ port _ => decide (port < 48)
  | .slotArm _ _ => true
  | .slotFree _ _ => true
  | .slotAbort _ _ => true
  | .handoffRegionWrite _ _ => true
  | .offer port => decide (port < 48)
  | .taken port => decide (port < 48)
  | .release port => decide (port < 48)
  | .handoffResend slot => decide (slot < 256)
  | .handoffTimeout slot => decide (slot < 256)
  | .heldTimeout slot => decide (slot < 256)
  | .queryRepeat slot => decide (slot < 256)
  | .prefetchCopyDone slot _ => decide (slot < 256)
  | .verdict _ _ => true
  | .zeroizeDone slot => decide (slot < 256)
  | .reportRemove _ _ => true
  | .powerWindow w => w.samples.length == 20 && w.samples.all fun x => x.rails.length == 77
  | .limit _ => true
  | .trimRun => true
  | .trim _ => true
  | .capWrite _ _ => true
  | .fixedFrequencyWrite _ _ => true
  | .droop half _ => decide (half < 32)
  | .wearUnit die => decide (die < 16)
  | .junctionSample l => l.length == 544
  | .thermal _ => true
  | .trip location _ => decide (location < 32) || (decide (0x80 ≤ location) && decide (location < 0xA0))
  | .supplySample _ => true
  | .reefEnter => true
  | .reefExit => true
  | .supplyReset => true
  | .inputSwitchOn => true
  | .supplyGood _ => true
  | .bootGo port _ => decide (port < 2)
  | .imageVerified => true
  | .ready _ => true
  | .debugDisable _ _ => true
  | .reportRequest _ _ => true
  | .reportReady => true
  | .measure _ _ => true
  | .measureDone _ => true
  | .keyWrite _ slot gen _ => decide (slot < 64) && decide (gen < 2)
  | .keyOwnerWrite _ slot _ => decide (slot < 64)
  | .keyZeroize _ slot _ => decide (slot < 64)
  | .keyErase slot gen => decide (slot < 64) && decide (gen < 2)
  | .keyRotation _ slot _ => decide (slot < 64)
  | .frameMove slot => decide (slot < 64)
  | .rotationComplete slot => decide (slot < 64)
  | .tenantRemoval _ _ => true
  | .mboxRead port index sub len _ => decide (port < 2) && decide (index < 65536) && decide (sub < 256) && decide (len < 65536)
  | .mboxWrite port index sub len _ _ => decide (port < 2) && decide (index < 65536) && decide (sub < 256) && decide (len < 65536)
  | .mboxDescribe port index sub len => decide (port < 2) && decide (index < 65536) && decide (sub < 256) && decide (len < 65536)
  | .datagramRead _ => true
  | .datagramWrite _ => true
  | .datagramDescribe _ => true
  | .modbusReadHolding _ _ _ => true
  | .modbusReadInput _ _ _ => true
  | .networkConfigWrite _ _ _ => true
  | .managementKeyWrite _ _ _ => true
  | .counterSnapshot _ _ => true
  | .perst => true
  | .perstPort1 => true
  | .resetIn => true
  | .watchdog => true
  | .dictionaryReset _ _ => true
  | .rootstockEntry => true
  | .rootstockExit _ _ => true
  | .eventLogRemove _ _ => true
  | .illegalInsn i _ => decide (i.core < 8192)
  | .fetchException core => decide (core < 8192)
  | .pcieCompletion _ _ => true
  | .completionTimeout _ => true
  | .errorsWindowExpiry => true
  | .resetInRelease => true
  | .sgmiiAutoNegotiation _ _ => true
  | .modbusConnection _ => true
  | .modbusOtherFunctionCode _ code => decide (code < 128)
  | .mboxCommandOutOfRange port op _ _ len => decide (port < 2) && decide (op < 256) && decide (len < 65536)

end Sys2Proof
end

