-- ==== Sys2Proof/Certificates/Slice0/Obligations.lean ====
section
/-! DEFINITION. The obligations: what the machine is claimed to do. The first part names the shapes that several claims share;
each claim cites the rules it rests on. -/

namespace Sys2Proof.Claims
open Sys2Proof.Machine

/-- The command answers a next state, of which `Q` holds. -/
def Gives (c : Instr) (s : State) (Q : State → Prop) : Prop := ∃ t, exec c s = .next t ∧ Q t

/-! ### Memory and accounts -/

/-- The words that `n` bytes of SRAM from `a` touch are not retired and hold valid check bits (R292, R306). -/
def CleanSram (s : State) (a n : Nat) : Prop :=
  ∀ w, a / 8 ≤ w → w < (a + n + 7) / 8 → s.retiredWord w = false ∧ s.sramDisc w = 0

/-- No armed flip mask waits for a write of those words (R313). -/
def NoFlip (s : State) (a n : Nat) : Prop :=
  ∀ w, a / 8 ≤ w → w < (a + n + 7) / 8 → s.flipFor (wordCluster w) (wordBank w) = none

/-- A queue without what its commands have been charged. -/
def uncharged (q : Queue) : Queue := { q with cmds := q.cmds.map fun c => { c with charged := 0, frameCharged := 0 } }

/-- Bights and queues differ in what they have been charged only, the Dictionary in the activity counts, the module's energy in
the dies' models and the counts (R64, R65, R635). -/
def SameButCharges (s t : State) : Prop :=
  (∀ b, { t.bight b with charged := 0, model := [] } = { s.bight b with charged := 0, model := [] }) ∧
  t.bights = { s.bights with tab := t.bights.tab } ∧
  (∀ q, (t.queue? q).map uncharged = (s.queue? q).map uncharged) ∧
  t.dict = { s.dict with activity := t.dict.activity } ∧ 
  t.energy = { s.energy with dieModel := t.energy.dieModel, counts := t.energy.counts }

/-- Nothing differs but core `c` and energy accounts, `s` being the state with the instruction fetched. -/
def OnlyAccounts (c : Nat) (s t : State) : Prop :=
  (∀ j, j ≠ c → t.core j = s.core j) ∧ SameButCharges s t ∧
  t = { s with cores := t.cores, bights := t.bights, queues := t.queues, dict := t.dict, energy := t.energy }

/-! ### Core instructions -/

/-- The instruction issues: its core takes instructions, no register it names waits for a far load, none is out for one that acts on
more than registers, and its address is one the core may fetch from, where its fetch finds a readable word (R94 to R97, R121, R303). -/
abbrev Issues (s : State) (i : Issue) (insn : Insn) : Prop :=
  s.starts i insn = true ∧ fetchable i.core (s.issuer i insn).pc = true ∧ (s.issuer i insn).fetched.isSome = true

/-- The instruction `c` of issue `i` does this when its core waits to issue no other (R99): `Q` holds of the state after it. -/
def Runs (i : Issue) (c : Instr) (s : State) (Q : State → Prop) : Prop :=
  ((s.core i.core).held = none ∨ i.second = false ∧ (s.core i.core).held = some c) → Gives c s Q

/-- Nothing differs but the instruction's core, and what the fetch of the instruction does (`SystemInstructionsAndExceptions` says
what that is). -/
def OnlyCore (s : State) (i : Issue) (insn : Insn) (t : State) : Prop :=
  (∀ j, j ≠ i.core → t.core j = s.core j) ∧ t = { s.fetching i insn with cores := t.cores }

/-- The address of the instruction that issues (R97). -/
def pcOf (s : State) (i : Issue) (insn : Insn) : Word := (s.issuer i insn).pc

/-- The instruction retires with nothing but the scalar register `rd` written, to `w`; s0 keeps reading zero. -/
def Writes (s : State) (i : Issue) (insn : Insn) (rd : SReg) (w : Word) (t : State) : Prop :=
  (∀ r, (t.core i.core).reg r = if r = rd ∧ r.val ≠ 0 then w else (s.core i.core).reg r) ∧
  t.core i.core = { (s.issuer i insn).retire insn (s.joins i insn) (pcOf s i insn + 4) with s := (t.core i.core).s } ∧
  OnlyCore s i insn t

/-- The instruction retires with nothing but the vector register `vd` written, to `v`, and the flags `fl` added to CL_FFLAGS. -/
def WritesVec (s : State) (i : Issue) (insn : Insn) (vd : VReg) (v : Vec) (fl : BitVec 5) (t : State) : Prop :=
  (∀ r, (t.core i.core).vreg r = if r = vd then v else (s.core i.core).vreg r) ∧
  (t.core i.core).fflags = (s.core i.core).fflags ||| fl ∧
  t.core i.core = { (s.issuer i insn).retire insn (s.joins i insn) (pcOf s i insn + 4) with
    v := (t.core i.core).v, fflags := (t.core i.core).fflags } ∧
  OnlyCore s i insn t

/-- The instruction retires with no register written, and the core goes on at `pc`. -/
def GoesTo (s : State) (i : Issue) (insn : Insn) (pc : Word) (t : State) : Prop :=
  t.core i.core = (s.issuer i insn).retire insn (s.joins i insn) pc ∧ OnlyCore s i insn t

/-- A core that stands as `k` raises an exception (R121 to R126, R240): it stops at its program counter with nothing else of it
changed, and a fault report with the cause, that address and the cause value leaves for the management processor. Nothing else
differs. -/
def Raised (s : State) (core : Nat) (k : Core) (cause : Nat) (value : Word) (t : State) : Prop :=
  t.core core = { k with run := .excepted, held := none, stall := none } ∧
  (∃ m : LanMsg, t.mesh.lan = s.mesh.lan ++ [m] ∧ m.ty = 4 ∧ m.dest = stopMgmt ∧ m.src = clusterOf core ∧
    (m.payload.getD 0 0).toNat % 8192 = core % 8192 ∧
    (m.payload.getD 1 0).toNat % 256 = cause ∧
    m.payload.drop 2 = [k.pc.setWidth 32, (k.pc >>> 32).setWidth 32, value.setWidth 32, (value >>> 32).setWidth 32]) ∧
  (∀ j, j ≠ core → t.core j = s.core j) ∧
  t = { s with cores := t.cores, mesh := { s.mesh with lan := t.mesh.lan } }

/-- The bight cycle in which the instruction that a core stalls at first stalled: now, unless it has stalled already (R120). -/
def stallStart (s : State) (core : Nat) : Nat :=
  match (s.core core).stall with
  | some (_, a) => a
  | none => s.runCycles ((s.bightOfCluster (clusterOf core)).getD 256)

/-- The instruction cannot proceed for a reason (R99, R120): its core stalls at it, with the first cycle of the stall kept, and
nothing else differs. -/
def Stalls (s : State) (i : Issue) (c : Instr) (insn : Insn) (why : Stall) (t : State) : Prop :=
  t.core i.core = { s.issuer i insn with held := some c, stall := some (why, stallStart s i.core) } ∧ OnlyCore s i insn t

/-- The instruction raises an exception, with no register written, when no far load of its core is out, whose exception would come
first; else it waits for that load (R121, log 44). -/
def Excepts (s : State) (i : Issue) (c : Instr) (insn : Insn) (cause : Nat) (value : Word) (t : State) : Prop :=
  ((s.core i.core).loadsOut = false → Raised (s.fetching i insn) i.core (s.issuer i insn) cause value t) ∧
  ((s.core i.core).loadsOut = true → Stalls s i c insn (.operand insn.unit) t)

/-- An access of `n` bytes at a core address has no place to go (R83, R84, R105): a misaligned one raises MISALIGNED, in the control
window a bus error; an address that names nothing is a bus error, and so is an access to the control window that is not of 64
bits (`whole`). -/
def BadAddress (core : Nat) (a : Word) (n : Nat) (whole : Prop) (cause : Nat) : Prop :=
  match coreAddr core a with
  | .control _ => cause = 0x03 ∧ (a.toNat % n ≠ 0 ∨ ¬ whole)
  | .reserved => cause = if a.toNat % n ≠ 0 then 0x02 else 0x03
  | _ => cause = 0x02 ∧ a.toNat % n ≠ 0

/-- A system instruction, which names at most one source and one destination. -/
def systemInsn (rs rd : List SReg) : Insn := { unit := unitSys, reads := rs.map sName, writes := rd.map sName }

/-- What the issue rule knows of a scalar instruction: its unit, two sources and a destination. -/
def scalarInsn (unit : Nat) (rd rs1 rs2 : SReg) : Insn := { unit, reads := [sName rs1, sName rs2], writes := [sName rd] }
/-- The same of a vector instruction. -/
def vectorInsn (unit : Nat) (vd : VReg) (vs : List VReg) : Insn := { unit, reads := vs.map vName, writes := [vName vd] }

/-- FP32 or INT32 lane `j` of a vector, and INT8 lane `j` (R88, R96). -/
def lane (v : Vec) (j : Nat) : BitVec 32 := v.extractLsb' (32 * j) 32
def lane8 (v : Vec) (j : Nat) : BitVec 8 := v.extractLsb' (8 * j) 8

/-- The vector whose lane `j` is `f j`, and the flags that the sixteen lanes raise together. -/
def vecOf (f : Nat → BitVec 32) : Vec := ofLanes ((List.range 16).map f)
def flagsOf (f : Nat → BitVec 5) : BitVec 5 := (List.range 16).foldl (fun a j => a ||| f j) 0

/-! ### Objects of the Dictionary -/

/-- A write of an object reaches the object's own rules: its transport is open, may write the object (`eth`: the Ethernet
protocol may, too), and the object's level answers (R618, R619, R621, R622, R630). -/
abbrev Serves (s : State) (via : Via) (eth expert : Bool) : Prop :=
  s.dictOpen via = true ∧ (via = .ethernet → eth = true) ∧ s.levelOk via expert = true

/-- What it does to a domain that stands still to start towards a state (R35). -/
def Started (d e : Domain) (x : DomState) : Prop :=
  (d.state = x → e = d) ∧ (d.state ≠ x → e = { d with state := .changing, target := x, origin := d.state })

/-- What a request does to a domain (R36). -/
def Requested (d e : Domain) (x : DomState) : Prop :=
  (d.state = .changing ∨ d.held ≠ [] → e = { d with held := d.held ++ [x] }) ∧
  (d.state ≠ .changing → d.held = [] → Started d e x)

/-- Domains move, and nothing else shows it but the flip masks of clusters that so leave LOW or ON, which are disarmed, the DOMAIN
messages that start transitions, and dropped rails, which are set again (R35, R36, R239, R313, R562). -/
def OnlyDomains (s t : State) : Prop :=
  (∀ c, Tab.look 0 t.sram.flipHi c =
    if c < 512 ∧ (s.dom c = .low ∨ s.dom c = .on) ∧ t.dom c = .changing then Tab.look 0 s.sram.flipHi c &&& 0x7FFFFFFFFFFFFFFF
    else Tab.look 0 s.sram.flipHi c) ∧
  (∃ l, t.mesh.carried = l ++ s.mesh.carried ∧ ∀ m ∈ l, m.ty = 7 ∧ m.src = stopMgmt) ∧
  (∀ d ∈ t.power.railsDropped, d ∈ s.power.railsDropped) ∧
  t = { s with
    domains := t.domains, sram := { s.sram with flipHi := t.sram.flipHi }, mesh := { s.mesh with carried := t.mesh.carried }
    power := { s.power with railsDropped := t.power.railsDropped } }

/-- What follows a domain's request where it changes `s` to `u`: a DOMAIN message to the domain's stop when a transition starts
(R239), and a link port that is not ON any more carries nothing (R472). -/
def Followed (s u : State) (i : Nat) (t : State) : Prop :=
  ((s.domain i).state ≠ .changing → (u.domain i).state = .changing →
    ∃ m : LanMsg, u.mesh.carried = m :: s.mesh.carried ∧ m.ty = 7 ∧ m.src = stopMgmt ∧ m.dest = stopOfDomain i) ∧
  ((s.domain i).state = .changing ∨ (u.domain i).state ≠ .changing → u.mesh.carried = s.mesh.carried) ∧
  ((i < 576 ∨ 624 ≤ i ∨ (u.domain i).state = .on) → t = u) ∧
  (∀ p, p < 48 → i = 576 + p → (u.domain i).state ≠ .on → t = (u.loseRequests p).modPort p fun x => x.emptied 0)

/-- The command ends with status `code`, and the state is otherwise `t`. -/
def Answers (c : Instr) (s : State) (via : Via) (code : Nat) (t : State) : Prop := exec c s = .next (t.noteStatus via code)

/-- The transport of a command that writes an object, whether the Ethernet protocol may write the object (R622), and whether the
object is an expert object (the Level columns of the object tables). -/
def objectOf : Instr → Option (Via × Bool × Bool)
  | .domainRequest v _ | .frameCounterPreset v _ | .handoffRegionWrite v _ | .debugDisable v _ | .measure v _
  | .txKeyWrite v _ _ _ | .rxKeyWrite v _ _ _ | .transmitSelection v _ _ | .receiveSlotInvalidate v _ _ => some (v, true, true)
  | .memoryHoldWrite v _ _ | .nominalPeriodWrite v _ | .grantWrite v _ _ | .policyModeWrite v _ | .slotArm v _ | .slotFree v _
  | .slotAbort v _ | .verdict v _ | .reportRemove v _ | .capWrite v _ | .fixedFrequencyWrite v _ | .reportRequest v _
  | .inboundCloseDrain v _ | .inboundCloseAbort v _ | .outboundClose v _ => some (v, true, false)
  | .hedgeWrite v _ _ | .retire v _ | .gateSetting v _ | .contextTableWrite v _ | .objectTableWrite v _ | .keyWrite v _ _ _
  | .keyOwnerWrite v _ _ | .keyZeroize v _ _ | .keyRotation v _ _ | .counterSnapshot v _ | .dictionaryReset v _ =>
    some (v, false, true)
  | .lash v _ _ | .bightRelease v _ | .queueCreate v _ _ | .queueDestroy v _ _ | .queueStop v _ _ | .queueStart v _ _ | .abort v _
  | .fenceCreate v _ _ | .fenceDestroy v _ _ | .contextTeardown v _ _ | .tenantRemoval v _
  | .rootstockExit v _ | .eventLogRemove v _ => some (v, false, false)
  | .functionPortWrite v fn _ => if 1 ≤ fn ∧ fn ≤ 63 then some (v, false, true) else none
  | .errorFenceWrite v bight _ => if bight < 256 then some (v, false, false) else none
  | .managementKeyWrite v keyId _ => if keyId < 4 then some (v, false, true) else none
  | .networkConfigWrite v sub _ => if 1 ≤ sub ∧ sub ≤ 5 then some (v, false, false) else none
  | _ => none

/-! ### Handoff slots -/

/-- 0x6503.00 after an operation on a slot (R538): the sequence counts, and the slot, the operation, the state found and the
result are shown. -/
def opWord (s : State) (slot op found result : Nat) : BitVec 32 :=
  BitVec.ofNat 32 ((s.handoff.lastOp.toNat / 2 ^ 24 + 1) % 256 * 2 ^ 24 + slot * 2 ^ 16 + op * 2 ^ 12 + found * 2 ^ 8 + result)

/-- A handoff slot, which stood as `y`, changes its state in `u` to `st` with a report of a kind (R516, R530): the report is the
newest, the slot's timer restarts, a slot that goes to QUERY keeps the state it left, one that sends its packet notes when, and the new STATE byte is written to the
slot's entry in the handoff region. -/
def Moved (u : State) (i kind st : Nat) (y : Slot) (v : State) : Prop :=
  let x := { y with
    state := st, timerAt := u.now, before := if st = 5 ∧ y.state ≠ 5 then y.state else y.before
    sentAt := if kind = 1 ∨ kind = 3 then u.now else y.sentAt
    entry := splice y.entry 1 [BitVec.ofNat 8 ((if y.zeroizing then 128 else 0) + st)] }
  let report := leBytes 8 y.request ++ leBytes 4 y.epoch ++ leBytes 1 i ++ leBytes 1 kind ++ leBytes 2 y.peer
  ∃ h : Handoff,
    v = ({ u with handoff := h }).ownWrite (u.handoffBase + 64 * i + 1) [BitVec.ofNat 8 ((if y.zeroizing then 128 else 0) + st)] ∧
    v.handoff = h ∧ v.fabric = u.fabric ∧ v.fences = u.fences ∧ v.queues = u.queues ∧ v.bights = u.bights ∧
    v.slot i = x ∧ (∀ j, j ≠ i → v.slot j = u.slot j) ∧
    h = { u.handoff with
      slots := h.slots
      reports := u.handoff.reports ++ [(u.handoff.nextReport, report)]
      nextReport := u.handoff.nextReport + 1
      queries := if kind = 6 then u.handoff.queries + 1 else u.handoff.queries }

/-- The same transition while the report queue is full or the slot has others waiting (R530): the slot keeps its state, and the
transition waits behind those. -/
def Waits (u : State) (i kind st code : Nat) (y : Slot) (v : State) : Prop :=
  v.slot i = { y with waiting := y.waiting ++ [(kind, st, code)] } ∧ (∀ j, j ≠ i → v.slot j = u.slot j) ∧
  v = { u with handoff := { u.handoff with slots := v.handoff.slots, delayed := u.handoff.delayed + 1 } }

/-- The report queue has room for one more report, and no transition of slot `i` waits for room (R530). -/
abbrev Room (s : State) (i : Nat) : Prop := s.handoff.reports.length < 64 ∧ (s.slot i).waiting = []

/-- A handoff packet matches slot `i` (R527): the slot is in use, has the direction opposite to the sender's, and names the
packet's sender, request and epoch. -/
def Matches (u : State) (pk : Packet) (dir i : Nat) : Prop :=
  (u.slot i).state ≠ 0 ∧ leAt (u.slot i).entry 0 1 % 4 = dir ∧ leAt (u.slot i).entry 2 2 = pk.hdr.src ∧
  leAt (u.slot i).entry 8 8 = leAt pk.payload 0 8 ∧ leAt (u.slot i).entry 4 4 = leAt pk.payload 8 4

/-! ### The dictionary -/

/-- The index is none of the objects that R636 leaves out of the manual, or these do not exist. -/
abbrev Plain (s : State) (index : Nat) : Prop := s.boot.vendorDebug = false ∨ index < 0xA000 ∨ 0xB000 ≤ index

/-- A mailbox request that acts on `u` ends (R623 to R625): its status and length, cause bit [0] of function 0, and its vector. -/
def MboxEnds (u : State) (seq : BitVec 16) (status len : Nat) (t : State) : Prop :=
  t.dict = { u.dict with
    mboxSeq := seq, mboxStatus := status, mboxLen := len, mboxState := 2, lastStatus := Tab.set u.dict.lastStatus 0 status } ∧
  (t.fn 0).irqCause = (u.fn 0).irqCause ||| 1 ∧ (∀ n, n ≠ 0 → t.fn n = u.fn n) ∧
  (∃ l, t.sent = l ++ u.sent ∧ l.length ≤ 1) ∧
  t = { u with dict := t.dict, host := { u.host with fns := t.host.fns }, sent := t.sent }

end Sys2Proof.Claims

open Sys2Proof Sys2Proof.Machine Sys2Proof.Claims

/-- A step runs the command at the front of the queue; commands take effect in the order in which they reach the module. -/
def Obligations.FrontCommandRuns : Prop :=
  ∀ (c : Instr) (rest : List Instr) (s : State), step { s with pending := c :: rest } = exec c { s with pending := rest }

/-- The passing of time is the model's choice for an empty queue (assumption log 1): one nanosecond a step. In a module where
nothing runs and nothing waits, only the clocks, the stress of R554 in READY, and every 1 ms the registers of R632 change. -/
def Obligations.IdleStepIsOneTick : Prop :=
  ∀ s : State, s.pending = [] →
    (∃ t, step s = .next t ∧ t.now = s.now + 1 ∧ t.pending = [] ∧ (Memory.wf s.mem = true → Memory.wf t.mem = true) ∧
      (∃ l, t.sent = l ++ s.sent)) ∧
    ((∀ b, b ∈ Tab.keys s.bights.tab → (s.bight b).runs = false) → s.liveDomains = [] →
      s.mesh.transit = [] → (∀ c ∈ s.mesh.circuits, c.returnOut = 0 ∧ c.returnBack = 0) → s.mesh.ratioNext = [] →
      (∀ r, r ∈ Tab.keys s.mesh.routers → ∀ j, j ∈ (s.router r).badParity → j < 4096) →
      s.bights.lashWaiting = [] → s.handoff.armWaiting = [] → s.host.apertureWaiting = [] → s.host.recordWaiting = [] →
      s.host.regWaiting = [] → (∀ n ∈ Tab.keys s.fabric.ports, (s.port n).packing = []) →
      (s.isReady = true → s.boot.floor ≤ s.fuses.rollback) →
      ∃ t, step s = .next t ∧
        t = { s with now := s.now + 1, mesh := { s.mesh with tau0 := s.mesh.tau0 + s.power.baseMhz }
                     power := { s.power with stress := t.power.stress }, dict := { s.dict with modbusSnap := t.dict.modbusSnap } } ∧
        (s.isReady = false → t.power = s.power ∧ t.dict = s.dict) ∧
        (s.isReady = true → ∀ d, d < 16 → Tab.look 0 t.power.stress d = Tab.look 0 s.power.stress d + s.stressRate d) ∧
        ((s.now + 1) % 1000000 ≠ 0 → t.dict = s.dict) ∧
        (s.isReady = true → (s.now + 1) % 1000000 = 0 → ∀ a ∈ modbusOften, t.modbusReg a = t.modbusNow a))

/-- The canonical form of memory is an invariant of every command and of the passing of time. -/
def Obligations.EveryStepKeepsMemoryCanonical : Prop :=
  ∀ s t : State, Memory.wf s.mem = true → step s = .next t → Memory.wf t.mem = true

/-- What no command can take back, over all commands: R583's fuse steps, R589's fuse, R554's wear bits, the fuses of test, what
has left the module, and the time. -/
def Obligations.StepsNeverUndoTheIrreversible : Prop :=
  ∀ s t : State, step s = .next t →
    s.fuses.rollback ≤ t.fuses.rollback ∧
    (s.fuses.debugDisabled = true → t.fuses.debugDisabled = true) ∧
    (∀ d, min 4096 (Tab.look 0 s.fuses.wear d) ≤ Tab.look 0 t.fuses.wear d) ∧
    t.fuses = { s.fuses with
      rollback := t.fuses.rollback, debugDisabled := t.fuses.debugDisabled, wear := t.fuses.wear } ∧
    (∃ l, t.sent = l ++ s.sent) ∧
    s.now ≤ t.now

/-- Every command completes, in every state: no meaning stops. What the queue holds behind it, and the time, stay. -/
def Obligations.CommandsCompleteAndLeaveTheQueue : Prop :=
  ∀ (c : Instr) (s : State),
    ∃ t, exec c s = .next t ∧ t.pending = s.pending ∧ t.now = s.now

/-- R618, R619, R621, R622: the checks that come before an object's own rules, for every command that names its object. -/
def Obligations.DictionaryChecksComeFirst : Prop :=
  ∀ (c : Instr) (s : State) (via : Via) (eth expert : Bool), objectOf c = some (via, eth, expert) →
    (s.dictOpen via = false → exec c s = .next s) ∧
    (s.dictOpen via = true → via = .ethernet → eth = false → Answers c s via 0x08 s) ∧
    (s.dictOpen via = true → (via = .ethernet → eth = true) → expert = true → (s.expertOn via = false ∨ s.errors.rootstock = true) →
      Answers c s via 0x07 s)

/-- R88, R91, R96, R101: the integer class. A result wraps modulo 2^64; s0 ignores writes; nothing but rd and the core's own
progress changes. The results of AND to CLZ are what their names say (R96 lists them by name). -/
def Obligations.IntegerResults : Prop :=
  ∀ (s : State) (i : Issue) (rd rs1 rs2 : SReg) (imm : BitVec 14),
    let a := (s.core i.core).reg rs1
    let b := (s.core i.core).reg rs2
    let two := scalarInsn unitInt rd rs1 rs2
    let one := scalarInsn unitInt rd rs1 0
    (Issues s i two →
      Runs i (.add i rd rs1 rs2) s (Writes s i two rd (BitVec.ofInt 64 (a.toInt + b.toInt))) ∧
      Runs i (.sub i rd rs1 rs2) s (Writes s i two rd (BitVec.ofInt 64 (a.toInt - b.toInt))) ∧
      Runs i (.and i rd rs1 rs2) s (Writes s i two rd (a &&& b)) ∧
      Runs i (.or i rd rs1 rs2) s (Writes s i two rd (a ||| b)) ∧
      Runs i (.xor i rd rs1 rs2) s (Writes s i two rd (a ^^^ b)) ∧
      (b.toNat < 64 →
        Runs i (.shl i rd rs1 rs2) s (Writes s i two rd (BitVec.ofNat 64 (a.toNat * 2 ^ b.toNat))) ∧
        Runs i (.shr i rd rs1 rs2) s (Writes s i two rd (BitVec.ofNat 64 (a.toNat / 2 ^ b.toNat))) ∧
        Runs i (.sra i rd rs1 rs2) s (Writes s i two rd (BitVec.ofInt 64 (a.toInt / 2 ^ b.toNat))))) ∧
    (Issues s i one →
      Runs i (.addi i rd rs1 imm) s (Writes s i one rd (BitVec.ofInt 64 (a.toInt + imm.toInt))) ∧
      Runs i (.popc i rd rs1) s (Writes s i one rd (BitVec.ofNat 64 ((List.range 64).countP fun j => a.getLsbD j))) ∧
      (∃ n, n ≤ 64 ∧ a.toNat < 2 ^ (64 - n) ∧ (n < 64 → 2 ^ (63 - n) ≤ a.toNat) ∧
        Runs i (.clz i rd rs1) s (Writes s i one rd (BitVec.ofNat 64 n))))

/-- R96 names CMP, SEL and the shifts and does not state these results (assumption log 5): the instructions run, and the
results are free functions of what the instruction reads. -/
def Obligations.CompareSelectAndFarShiftsRun : Prop :=
  (∃ cmp : BitVec 8 → Word → Word → Word, ∀ (s : State) (i : Issue) (rd rs1 rs2 : SReg) (func : BitVec 8),
    Issues s i (scalarInsn unitInt rd rs1 rs2) →
      Runs i (.cmp i rd rs1 rs2 func) s (Writes s i (scalarInsn unitInt rd rs1 rs2) rd
        (cmp func ((s.core i.core).reg rs1) ((s.core i.core).reg rs2)))) ∧
  (∃ shl shr sra : Word → Word → Word, ∀ (s : State) (i : Issue) (rd rs1 rs2 : SReg),
    let a := (s.core i.core).reg rs1
    let b := (s.core i.core).reg rs2
    let insn := scalarInsn unitInt rd rs1 rs2
    Issues s i insn → 64 ≤ b.toNat →
      Runs i (.shl i rd rs1 rs2) s (Writes s i insn rd (shl a b)) ∧
      Runs i (.shr i rd rs1 rs2) s (Writes s i insn rd (shr a b)) ∧
      Runs i (.sra i rd rs1 rs2) s (Writes s i insn rd (sra a b))) ∧
  (∀ (s : State) (i : Issue) (rd rs1 rs2 : SReg), Issues s i (scalarInsn unitInt rd rs1 rs2) →
    ∃ w, (w = (s.core i.core).reg rs1 ∨ w = (s.core i.core).reg rs2) ∧
      Runs i (.sel i rd rs1 rs2) s (Writes s i (scalarInsn unitInt rd rs1 rs2) rd w))

/-- R101: the corners of division are the rule's; MULH and MULHU are the high words of R96, and signed division truncates toward
zero by the model's choice (assumption log 19). -/
def Obligations.MultiplyAndDivide : Prop :=
  ∀ (s : State) (i : Issue) (rd rs1 rs2 : SReg),
    let a := (s.core i.core).reg rs1
    let b := (s.core i.core).reg rs2
    let insn := scalarInsn unitAlu0 rd rs1 rs2
    Issues s i insn →
      Runs i (.mul i rd rs1 rs2) s (Writes s i insn rd (BitVec.ofInt 64 (a.toInt * b.toInt))) ∧
      Runs i (.mulh i rd rs1 rs2) s
        (Writes s i insn rd ((a.signExtend 128 * b.signExtend 128).extractLsb' 64 64)) ∧
      Runs i (.mulhu i rd rs1 rs2) s
        (Writes s i insn rd ((a.zeroExtend 128 * b.zeroExtend 128).extractLsb' 64 64)) ∧
      (b = 0 →
        Runs i (.div i rd rs1 rs2) s (Writes s i insn rd 0xFFFFFFFFFFFFFFFF) ∧
        Runs i (.divu i rd rs1 rs2) s (Writes s i insn rd 0xFFFFFFFFFFFFFFFF) ∧
        Runs i (.rem i rd rs1 rs2) s (Writes s i insn rd a) ∧
        Runs i (.remu i rd rs1 rs2) s (Writes s i insn rd a)) ∧
      (a = 0x8000000000000000 → b = 0xFFFFFFFFFFFFFFFF →
        Runs i (.div i rd rs1 rs2) s (Writes s i insn rd 0x8000000000000000) ∧
        Runs i (.rem i rd rs1 rs2) s (Writes s i insn rd 0)) ∧
      (b ≠ 0 →
        Runs i (.divu i rd rs1 rs2) s (Writes s i insn rd (BitVec.ofNat 64 (a.toNat / b.toNat))) ∧
        Runs i (.remu i rd rs1 rs2) s (Writes s i insn rd (BitVec.ofNat 64 (a.toNat % b.toNat))) ∧
        Runs i (.div i rd rs1 rs2) s (Writes s i insn rd (BitVec.ofInt 64 (a.toInt.tdiv b.toInt))) ∧
        Runs i (.rem i rd rs1 rs2) s (Writes s i insn rd (BitVec.ofInt 64 (a.toInt.tmod b.toInt))))

/-- R92, R96: the branch offset is four times the immediate. From where it counts is free (assumption log 5); the signed compare
and the link address are the model's choice (log 19). -/
def Obligations.BranchesAndJumps : Prop :=
  ∃ d : Word, (d = 0 ∨ d = 4) ∧ ∀ (s : State) (i : Issue) (rd rs1 rs2 : SReg) (imm : BitVec 14),
    let a := (s.core i.core).reg rs1
    let b := (s.core i.core).reg rs2
    let two : Insn := { unit := unitBr, reads := [sName rs1, sName rs2], writes := [] }
    let one : Insn := { unit := unitBr, reads := [sName rs1], writes := [] }
    let none' : Insn := { unit := unitBr, reads := [], writes := [] }
    let link : Insn := { unit := unitBr, reads := [], writes := [sName rd] }
    let there := fun (insn : Insn) => pcOf s i insn + d + BitVec.ofInt 64 (4 * imm.toInt)
    let next := fun (insn : Insn) => pcOf s i insn + 4
    (Issues s i two →
      Runs i (.beq i rs1 rs2 imm) s (GoesTo s i two (if a = b then there two else next two)) ∧
      Runs i (.bne i rs1 rs2 imm) s (GoesTo s i two (if a = b then next two else there two)) ∧
      Runs i (.blt i rs1 rs2 imm) s (GoesTo s i two (if a.toInt < b.toInt then there two else next two)) ∧
      Runs i (.bge i rs1 rs2 imm) s (GoesTo s i two (if a.toInt < b.toInt then next two else there two))) ∧
    (Issues s i none' → Runs i (.j i imm) s (GoesTo s i none' (there none'))) ∧
    (Issues s i one → Runs i (.jr i rs1) s (GoesTo s i one a)) ∧
    (Issues s i link → Runs i (.jal i rd imm) s fun t =>
      (∀ r, (t.core i.core).reg r = if r = rd ∧ r.val ≠ 0 then next link else (s.core i.core).reg r) ∧
      t.core i.core = { (s.issuer i link).retire link (s.joins i link) (there link) with s := (t.core i.core).s } ∧
      OnlyCore s i link t)

/-- R96: the loop instruction. The count of rounds is read as `n` passes in all. -/
def Obligations.LoopsRepeatTheirBody : Prop :=
  (∀ (s : State) (i : Issue) (n m : Nat),
    let insn : Insn := { unit := unitBr, reads := [], writes := [] }
    Issues s i insn →
      (0 < n → 0 < m → (s.issuer i insn).loops.length < 2 → Runs i (.loop i n m) s fun t =>
        t.core i.core = { (s.issuer i insn).retire insn (s.joins i insn) (pcOf s i insn + 4) with
          loops := { armed := false, start := 0, bundles := m, done := 0, left := n } :: (s.issuer i insn).loops } ∧
        OnlyCore s i insn t) ∧
      (0 < n → m = 0 → Runs i (.loop i n m) s (GoesTo s i insn (pcOf s i insn + 4))) ∧
      (∃ pc, n = 0 → Runs i (.loop i n m) s (GoesTo s i insn pc)) ∧
      (0 < n → 0 < m → 2 ≤ (s.issuer i insn).loops.length → Runs i (.loop i n m) s fun t =>
        t.core i.core = { (s.issuer i insn).retire insn (s.joins i insn) (pcOf s i insn + 4) with
          loops := (t.core i.core).loops } ∧ OnlyCore s i insn t)) ∧
  (∀ (s : State) (i : Issue) (insn : Insn) (l : Loop),
    s.joins i insn = false → (s.core i.core).openBundle = true → (s.core i.core).loops = [l] → l.armed = true →
      (l.done + 1 < l.bundles → pcOf s i insn = (s.core i.core).pc ∧
        (s.issuer i insn).loops = [{ l with done := l.done + 1 }]) ∧
      (l.done + 1 = l.bundles → 1 < l.left → pcOf s i insn = l.start ∧
        (s.issuer i insn).loops = [{ l with done := 0, left := l.left - 1 }]) ∧
      (l.done + 1 = l.bundles → l.left ≤ 1 → pcOf s i insn = (s.core i.core).pc ∧ (s.issuer i insn).loops = []))

/-- R127, R126: the control registers. CL_CYCLE is the count of bight cycles of the running command, rounded down to a multiple
of 2,500 unless the bight's fine counters are enabled (R128). -/
def Obligations.ControlRegisters : Prop :=
  ∀ (s : State) (i : Issue) (rd rs1 : SReg) (csr : BitVec 12),
    let k := s.core i.core
    let p := s.placeOf i.core
    let b := s.bightOfCluster (clusterOf i.core)
    let cycles := s.runCycles (b.getD 256)
    let fine := b.any fun n => (s.bight n).fineCounters
    let rdInsn := systemInsn [] [rd]
    let wrInsn := systemInsn [rs1] []
    let reads := fun (n : BitVec 12) (w : Word) => csr = n → Runs i (.csrr i rd csr) s (Writes s i rdInsn rd w)
    let writes := fun (n : BitVec 12) (f : Core → Core) => csr = n → Runs i (.csrw i csr rs1) s fun t =>
      t.core i.core = f ((s.issuer i wrInsn).retire wrInsn (s.joins i wrInsn) (pcOf s i wrInsn + 4)) ∧ OnlyCore s i wrInsn t
    (Issues s i rdInsn →
      reads 0x000 (BitVec.ofNat 64 (p.lcore i.core % 65536)) ∧
      reads 0x001 (BitVec.ofNat 64 (p.shape % 256 * 65536 + p.w % 256 * 256 + p.h % 256)) ∧
      reads 0x010 (BitVec.ofNat 64 (if fine then cycles else cycles % 2 ^ 64 / 2500 * 2500)) ∧
      reads 0x011 k.instret ∧
      reads 0x020 (k.fflags.setWidth 64) ∧
      reads 0x021 (k.frm.setWidth 64) ∧
      reads 0x022 (k.stallLimit.setWidth 64) ∧
      (csr ∉ [0x000, 0x001, 0x010, 0x011, 0x020, 0x021, 0x022] →
        Runs i (.csrr i rd csr) s (Excepts s i (.csrr (lone i) rd csr) rdInsn 0x0A (csr.setWidth 64)))) ∧
    (Issues s i wrInsn →
      writes 0x020 (fun c => { c with fflags := (k.reg rs1).setWidth 5 }) ∧
      writes 0x021 (fun c => { c with frm := (k.reg rs1).setWidth 2 }) ∧
      writes 0x022 (fun c => { c with stallLimit := (k.reg rs1).setWidth 32 }) ∧
      (csr ∉ [0x020, 0x021, 0x022] → Runs i (.csrw i csr rs1) s (Excepts s i (.csrw (lone i) csr rs1) wrInsn 0x0A (csr.setWidth 64))))

/-- R99, R112 to R115, R118, R213, R214: the network and operand-queue instructions. A vector sent may leave, and a credit for one
received may go, from the next bight cycle on; while one of them waits, no other instruction of the core issues. -/
def Obligations.SendReceiveAndOperandQueues : Prop :=
  ∀ (s : State) (i : Issue) (handle : BitVec 8) (q : BitVec 2) (v : VReg) (word : Flit),
    let k := s.core i.core
    let h := handle.toNat
    let e := s.handle i.core h
    let sends : Insn := { unit := unitNet, reads := [vName v], writes := [], acts := true }
    let takes : Insn := { unit := unitNet, reads := [], writes := [vName v], acts := true }
    let bars := fun (c : Instr) => ∀ x, k.held = some x → x ≠ c → exec c s = .next s
    let own := fun (insn : Insn) (f : Core → Core) (t : State) =>
      t.core i.core = f ((s.issuer i insn).retire insn (s.joins i insn) (pcOf s i insn + 4)) ∧ OnlyCore s i insn t
    (i.second = false → bars (.send i handle v) ∧ bars (.recv i v handle) ∧ bars (.qpush i q v word) ∧ bars (.qpop i v q word) ∧
      (∀ rd rs1 rs2, bars (.add i rd rs1 rs2) ∧ bars (.sub i rd rs1 rs2))) ∧
    (Issues s i sends →
      (handleDefined e = false ∨ handleRecv e = true →
        Runs i (.send i handle v) s (Excepts s i (.send (lone i) handle v) sends 0x09 (BitVec.ofNat 64 h))) ∧
      (handleDefined e = true → handleRecv e = false →
        (Tab.look 0 k.creditsUsed h < handleDepth e → Tab.find? k.inject h = none → Tab.find? k.injectNext h = none →
          Runs i (.send i handle v) s (own sends fun c => { c with
            injectNext := Tab.set c.injectNext h (k.vreg v)
            creditsUsed := Tab.put 0 c.creditsUsed h (Tab.look 0 k.creditsUsed h + 1) })) ∧
        (handleDepth e ≤ Tab.look 0 k.creditsUsed h ∨ (Tab.find? k.inject h).isSome = true ∨
            (Tab.find? k.injectNext h).isSome = true →
          Runs i (.send i handle v) s (Stalls s i (.send (lone i) handle v) sends .credit))) ∧
      (q.toNat < 2 → (k.opQueue q.toNat).length < 16 →
        Runs i (.qpush i q v word) s (own sends fun c => c.setOpQueue q.toNat (k.opQueue q.toNat ++ [k.vreg v]))) ∧
      (q.toNat < 2 → 16 ≤ (k.opQueue q.toNat).length → Runs i (.qpush i q v word) s (Stalls s i (.qpush (lone i) q v word) sends .full)) ∧
      (2 ≤ q.toNat → Runs i (.qpush i q v word) s (Excepts s i (.qpush (lone i) q v word) sends 0x01 (word.setWidth 64)))) ∧
    (Issues s i takes →
      (handleDefined e = false ∨ handleRecv e = false →
        Runs i (.recv i v handle) s (Excepts s i (.recv (lone i) v handle) takes 0x09 (BitVec.ofNat 64 h))) ∧
      (handleDefined e = true → handleRecv e = true →
        (∀ x rest, Tab.look [] k.eject h = x :: rest → Runs i (.recv i v handle) s (own takes fun c => { c.setV v x with
          eject := Tab.put [] c.eject h rest
          creditNext := c.creditNext ++ [h] })) ∧
        (Tab.look [] k.eject h = [] → Runs i (.recv i v handle) s (Stalls s i (.recv (lone i) v handle) takes .empty))) ∧
      (q = 2 →
        (∀ x rest, k.q2 = x :: rest → Runs i (.qpop i v q word) s (own takes fun c => { c.setV v x with q2 := rest })) ∧
        (k.q2 = [] → Runs i (.qpop i v q word) s
          (Stalls s i (.qpop (lone i) v q word) takes .empty))) ∧
      (q ≠ 2 → Runs i (.qpop i v q word) s (Excepts s i (.qpop (lone i) v q word) takes 0x01 (word.setWidth 64))))

/-- R83, R84, R92, R96, R105: loads from the own cluster's SRAM, and the exceptions of misaligned addresses, of addresses that name
nothing, and of accesses to the control window that are not 64-bit scalar loads. Sign and zero extension are the model's reading
of LD and LDU (assumption log 19). -/
def Obligations.OwnClusterLoads : Prop :=
  ∀ (s : State) (i : Issue) (size : Size) (usize : ULoad) (rd rs1 : SReg) (vd : VReg) (imm : BitVec 14) (off p : Nat),
    let base := (s.core i.core).reg rs1
    let n := sizeBytes size
    let u := sizeBytes (sizeOfU usize)
    let at' := fun (scale : Nat) => base + BitVec.ofInt 64 (imm.toInt * scale)
    let bytes := fun (k : Nat) => Memory.read s.mem p k
    let sInsn : Insn := { unit := unitLsu, reads := [sName rs1], writes := [sName rd] }
    let vInsn : Insn := { unit := unitLsu, reads := [sName rs1], writes := [vName vd] }
    let pInsn : Insn := { unit := unitLsu, reads := [sName rs1], writes := [vName vd, sName rs1] }
    let reaches := fun (insn : Insn) (a : Word) (k : Nat) =>
      Issues s i insn ∧ i.core < 8192 ∧ a.toNat % k = 0 ∧ coreAddr i.core a = .own off ∧
        p = sramAddr (clusterOf i.core) off ∧ CleanSram s p k
    let scalar := fun (w : Word) (t : State) =>
      (∀ r, (t.core i.core).reg r = if r = rd ∧ r.val ≠ 0 then w else (s.core i.core).reg r) ∧
      t.core i.core = { (s.issuer i sInsn).retire sInsn (s.joins i sInsn) (pcOf s i sInsn + 4) with s := (t.core i.core).s } ∧
      OnlyAccounts i.core (s.fetching i sInsn) t
    let vector := fun (insn : Insn) (v : Vec) (t : State) =>
      (∀ r, (t.core i.core).vreg r = if r = vd then v else (s.core i.core).vreg r) ∧
      t.core i.core = { (s.issuer i insn).retire insn (s.joins i insn) (pcOf s i insn + 4) with
        v := (t.core i.core).v, s := (t.core i.core).s } ∧
      OnlyAccounts i.core (s.fetching i insn) t
    (reaches sInsn (at' n) n →
      Runs i (.ld i size rd rs1 imm) s (scalar ((BitVec.ofNat (8 * n) (leNat (bytes n))).signExtend 64))) ∧
    (reaches sInsn (at' u) u →
      Runs i (.ldu i usize rd rs1 imm) s (scalar (BitVec.ofNat 64 (leNat (bytes u))))) ∧
    (reaches vInsn (at' 64) 64 → Runs i (.vld i vd rs1 imm) s fun t => vector vInsn (vecOfBytes (bytes 64)) t ∧
      ∀ r, (t.core i.core).reg r = (s.core i.core).reg r) ∧
    (reaches vInsn (at' 4) 4 → Runs i (.vldBc i vd rs1 imm) s fun t =>
      vector vInsn (ofLanes (List.replicate 16 (BitVec.ofNat 32 (leNat (bytes 4))))) t ∧
      ∀ r, (t.core i.core).reg r = (s.core i.core).reg r) ∧
    (reaches pInsn base 64 → Runs i (.vldPi i vd rs1 imm) s fun t => vector pInsn (vecOfBytes (bytes 64)) t ∧
      ∀ r, (t.core i.core).reg r = if r = rs1 ∧ r.val ≠ 0 then at' 64 else (s.core i.core).reg r) ∧
    (Issues s i sInsn →
      (∀ cause, BadAddress i.core (at' n) n (size = .d) cause →
        Runs i (.ld i size rd rs1 imm) s (Excepts s i (.ld (lone i) size rd rs1 imm) sInsn cause (at' n))) ∧
      (∀ cause, BadAddress i.core (at' u) u False cause →
        Runs i (.ldu i usize rd rs1 imm) s (Excepts s i (.ldu (lone i) usize rd rs1 imm) sInsn cause (at' u)))) ∧
    (Issues s i vInsn →
      (∀ cause, BadAddress i.core (at' 64) 64 False cause → Runs i (.vld i vd rs1 imm) s (Excepts s i (.vld (lone i) vd rs1 imm) vInsn cause (at' 64))) ∧
      (∀ cause, BadAddress i.core (at' 4) 4 False cause → Runs i (.vldBc i vd rs1 imm) s (Excepts s i (.vldBc (lone i) vd rs1 imm) vInsn cause (at' 4)))) ∧
    (Issues s i pInsn → ∀ cause, BadAddress i.core base 64 False cause →
      Runs i (.vldPi i vd rs1 imm) s (Excepts s i (.vldPi (lone i) vd rs1 imm) pInsn cause base))

/-- R83, R84, R92, R95, R96, R105: stores to the own cluster's SRAM, and their exceptions. No store changes what any core has
fetched. The address stored to is `p`, the module address of the offset
that `coreAddr` gives for the instruction's address. -/
def Obligations.OwnClusterStores : Prop :=
  ∀ (s : State) (i : Issue) (size : Size) (rs1 rs2 : SReg) (vs : VReg) (imm : BitVec 14) (off p : Nat),
    let base := (s.core i.core).reg rs1
    let n := sizeBytes size
    let at' := fun (scale : Nat) => base + BitVec.ofInt 64 (imm.toInt * scale)
    let sInsn : Insn := { unit := unitLsu, reads := [sName rs1, sName rs2], writes := [], acts := true }
    let vInsn : Insn := { unit := unitLsu, reads := [sName rs1, vName vs], writes := [], acts := true }
    let pInsn : Insn := { unit := unitLsu, reads := [sName rs1, vName vs], writes := [sName rs1], acts := true }
    let reaches := fun (insn : Insn) (a : Word) (k : Nat) =>
      Issues s i insn ∧ i.core < 8192 ∧ a.toNat % k = 0 ∧ coreAddr i.core a = .own off ∧
        p = sramAddr (clusterOf i.core) off ∧ CleanSram s p k ∧ NoFlip s p k
    let stored := fun (insn : Insn) (k : Nat) (v : Nat) (post : Core → Core) (t : State) =>
      (∀ x, Memory.byte t.mem x =
        if p ≤ x ∧ x < p + k then BitVec.ofNat 8 (v / 256 ^ (x - p)) else Memory.byte s.mem x) ∧
      (∀ w, t.sramDisc w = s.sramDisc w) ∧
      (∀ j, t.core j = if j = i.core then
        post ((s.issuer i insn).retire insn (s.joins i insn) (pcOf s i insn + 4)) else s.core j) ∧
      SameButCharges (s.fetching i insn) t ∧ t.sram.retired = s.sram.retired ∧ t.sram.flipHi = s.sram.flipHi ∧
      t = { s.fetching i insn with
        cores := t.cores, bights := t.bights, queues := t.queues, dict := t.dict, energy := t.energy
        mem := t.mem, sramCheck := t.sramCheck, sram := t.sram }
    (reaches sInsn (at' n) n →
      Runs i (.st i size rs2 rs1 imm) s (stored sInsn n ((s.core i.core).reg rs2).toNat id)) ∧
    (reaches vInsn (at' 64) 64 →
      Runs i (.vst i vs rs1 imm) s (stored vInsn 64 ((s.core i.core).vreg vs).toNat id)) ∧
    (reaches pInsn base 64 →
      Runs i (.vstPi i vs rs1 imm) s (stored pInsn 64 ((s.core i.core).vreg vs).toNat fun c => c.setReg rs1 (at' 64))) ∧
    (Issues s i sInsn → ∀ cause, BadAddress i.core (at' n) n (size = .d) cause →
      Runs i (.st i size rs2 rs1 imm) s (Excepts s i (.st (lone i) size rs2 rs1 imm) sInsn cause (at' n))) ∧
    (Issues s i vInsn → ∀ cause, BadAddress i.core (at' 64) 64 False cause →
      Runs i (.vst i vs rs1 imm) s (Excepts s i (.vst (lone i) vs rs1 imm) vInsn cause (at' 64))) ∧
    (Issues s i pInsn → ∀ cause, BadAddress i.core base 64 False cause →
      Runs i (.vstPi i vs rs1 imm) s (Excepts s i (.vstPi (lone i) vs rs1 imm) pInsn cause base))

/-- R109: the atomics. Which operand plays which part is the model's reading (assumption log 22). -/
def Obligations.AtomicsOnSharedMemory : Prop :=
  ∃ max' : Word → Word → Word,
    ((∀ x y, max' x y = if x.toInt < y.toInt then y else x) ∨ (∀ x y, max' x y = if x.toNat < y.toNat then y else x)) ∧
    ∀ (s : State) (i : Issue) (rd rs1 rs2 : SReg) (p : Nat),
      let a := (s.core i.core).reg rs1
      let x := (s.core i.core).reg rs2
      let insn : Insn := { unit := unitLsu, reads := [sName rs1, sName rs2, sName rd], writes := [sName rd], acts := true }
      let old : Word := BitVec.ofNat 64 (leNat (Memory.read s.mem p 8))
      let fits := a.toNat % 8 = 0 ∧ 0x4000000 ≤ a.toNat ∧ a.toNat < 0x6000000
      let becomes := fun (new : Word) (t : State) =>
        (∀ r, (t.core i.core).reg r = if r = rd ∧ r.val ≠ 0 then old else (s.core i.core).reg r) ∧
        t.core i.core = { (s.issuer i insn).retire insn (s.joins i insn) (pcOf s i insn + 4) with s := (t.core i.core).s } ∧
        (∀ j, j ≠ i.core → t.core j = s.core j) ∧
        (∀ y, Memory.byte t.mem y =
          if p ≤ y ∧ y < p + 8 then BitVec.ofNat 8 (new.toNat / 256 ^ (y - p)) else Memory.byte s.mem y) ∧
        (∀ w, t.sramDisc w = s.sramDisc w) ∧
        SameButCharges (s.fetching i insn) t ∧ t.sram.retired = s.sram.retired ∧ t.sram.flipHi = s.sram.flipHi ∧
        t = { s.fetching i insn with
          cores := t.cores, bights := t.bights, queues := t.queues, dict := t.dict, energy := t.energy
          mem := t.mem, sramCheck := t.sramCheck, sram := t.sram }
      Issues s i insn →
        (i.core < 8192 → fits → p = sramAddr (clusterOf i.core) a.toNat → CleanSram s p 8 → NoFlip s p 8 →
          Runs i (.amoadd i rd rs1 rs2) s (becomes (BitVec.ofNat 64 (old.toNat + x.toNat))) ∧
          Runs i (.amoswap i rd rs1 rs2) s (becomes x) ∧
          Runs i (.amomax i rd rs1 rs2) s (becomes (max' old x)) ∧
          Runs i (.amocas i rd rs1 rs2) s (becomes (if old = (s.core i.core).reg rd then x else old))) ∧
        (¬ fits →
          Runs i (.amoadd i rd rs1 rs2) s (Excepts s i (.amoadd (lone i) rd rs1 rs2) insn 0x07 a) ∧
          Runs i (.amoswap i rd rs1 rs2) s (Excepts s i (.amoswap (lone i) rd rs1 rs2) insn 0x07 a) ∧
          Runs i (.amomax i rd rs1 rs2) s (Excepts s i (.amomax (lone i) rd rs1 rs2) insn 0x07 a) ∧
          Runs i (.amocas i rd rs1 rs2) s (Excepts s i (.amocas (lone i) rd rs1 rs2) insn 0x07 a))

/-- R102: vector FP32 arithmetic, lane by lane. `f32OfInt` rounds an exact value; which corners of VMIN, VMAX and VCMP are free is
assumption log 5. -/
def Obligations.VectorFloatLaneByLane : Prop :=
  (∀ op ∈ [f32Add, f32Sub, f32Mul], ∀ rm x y,
    (f32Val x = .nan ∨ f32Val y = .nan → (op rm x y).1 = 0x7FC00000) ∧
    (f32Val (op rm x y).1 = .nan → (op rm x y).1 = 0x7FC00000)) ∧
  (∀ rm x y z, (f32Val x = .nan ∨ f32Val y = .nan ∨ f32Val z = .nan → (f32Fma rm x y z).1 = 0x7FC00000) ∧
    (f32Val (f32Fma rm x y z).1 = .nan → (f32Fma rm x y z).1 = 0x7FC00000)) ∧
  (∀ rm x y m e n f zero, f32Val x = .fin m e → f32Val y = .fin n f →
    let sum := m * 2 ^ (e - min e f).toNat + n * 2 ^ (f - min e f).toNat
    (sum ≠ 0 → f32Add rm x y = f32OfInt rm sum (min e f) zero) ∧
    (m * n ≠ 0 → f32Mul rm x y = f32OfInt rm (m * n) (e + f) zero)) ∧
  (∀ rm x y z m e n f k g, f32Val x = .fin m e → f32Val y = .fin n f → f32Val z = .fin k g →
    m * n * 2 ^ (e + f - min (e + f) g).toNat + k * 2 ^ (g - min (e + f) g).toNat ≠ 0 → ∀ zero,
    f32Fma rm x y z = f32OfInt rm (m * n * 2 ^ (e + f - min (e + f) g).toNat + k * 2 ^ (g - min (e + f) g).toNat)
      (min (e + f) g) zero) ∧
  (∀ rm x y, f32Val y ≠ .nan → f32Sub rm x y = f32Add rm x (y ^^^ 0x80000000)) ∧
  (∀ big x y, f32Val x ≠ .nan → f32Val y ≠ .nan →
    ((f32MinMax big x y).1 = x ∨ (f32MinMax big x y).1 = y) ∧ (f32MinMax big x y).2 = 0) ∧
  ∀ (s : State) (i : Issue) (vd va vb vc : VReg) (func : BitVec 6),
    let k := s.core i.core
    let a := fun j => lane (k.vreg va) j
    let b := fun j => lane (k.vreg vb) j
    let c := fun j => lane (k.vreg vc) j
    let writes := fun (insn : Insn) (r : Nat → FRes) => WritesVec s i insn vd (vecOf fun j => (r j).1) (flagsOf fun j => (r j).2)
    let two := vectorInsn unitVec vd [va, vb]
    let three := vectorInsn unitVec vd [va, vb, vc]
    (Issues s i three → Runs i (.vfma i vd va vb vc) s (writes three fun j => f32Fma k.frm (a j) (b j) (c j))) ∧
    (Issues s i two →
      Runs i (.vadd i vd va vb) s (writes two fun j => f32Add k.frm (a j) (b j)) ∧
      Runs i (.vsub i vd va vb) s (writes two fun j => f32Sub k.frm (a j) (b j)) ∧
      Runs i (.vmul i vd va vb) s (writes two fun j => f32Mul k.frm (a j) (b j)) ∧
      Runs i (.vmin i vd va vb) s (writes two fun j => f32MinMax false (a j) (b j)) ∧
      Runs i (.vmax i vd va vb) s (writes two fun j => f32MinMax true (a j) (b j)) ∧
      Runs i (.vcmp i vd va vb func) s (writes two fun j => f32Cmp func.toNat (a j) (b j)))

/-- R96, R101: vector integer arithmetic and moves; the choices the rules do not state are free (assumption log 5). -/
def Obligations.VectorIntegerAndMoves : Prop :=
  ∃ (beyond8 : BitVec 8 → BitVec 8 → BitVec 8) (beyond32 : BitVec 32 → BitVec 32 → BitVec 32) (choose : Vec → Nat → Fin 16)
    (copy : VReg → Fin 16) (float : Bool),
    ∀ (s : State) (i : Issue) (vd va vb vc : VReg),
      let a := (s.core i.core).vreg va
      let b := (s.core i.core).vreg vb
      let one := vectorInsn unitVec vd [va]
      let two := vectorInsn unitVec vd [va, vb]
      let three := vectorInsn unitVec vd [va, vb, vc]
      let lanes8 := fun (f : Nat → BitVec 8) (t : State) =>
        ∃ v, WritesVec s i two vd v 0 t ∧ ∀ j, j < 64 → lane8 v j = f j
      let lanes := fun (insn : Insn) (f : Nat → BitVec 32) (t : State) =>
        ∃ v, WritesVec s i insn vd v 0 t ∧ ∀ j, j < 16 → lane v j = f j
      (Issues s i two →
        Runs i (.vaddi i .int8 vd va vb) s (lanes8 fun j => BitVec.ofNat 8 ((lane8 a j).toNat + (lane8 b j).toNat)) ∧
        Runs i (.vaddi i .int32 vd va vb) s (lanes two fun j => BitVec.ofNat 32 ((lane a j).toNat + (lane b j).toNat)) ∧
        Runs i (.vmuli i .int8 vd va vb) s (lanes8 fun j => BitVec.ofNat 8 ((lane8 a j).toNat * (lane8 b j).toNat)) ∧
        Runs i (.vmuli i .int32 vd va vb) s (lanes two fun j => BitVec.ofNat 32 ((lane a j).toNat * (lane b j).toNat)) ∧
        Runs i (.vand i vd va vb) s (lanes two fun j => lane a j &&& lane b j) ∧
        Runs i (.vshl i .int8 vd va vb) s (lanes8 fun j =>
          if (lane8 b j).toNat < 8 then BitVec.ofNat 8 ((lane8 a j).toNat * 2 ^ (lane8 b j).toNat)
          else beyond8 (lane8 a j) (lane8 b j)) ∧
        Runs i (.vshl i .int32 vd va vb) s (lanes two fun j =>
          if (lane b j).toNat < 32 then BitVec.ofNat 32 ((lane a j).toNat * 2 ^ (lane b j).toNat)
          else beyond32 (lane a j) (lane b j)) ∧
        Runs i (.vperm i vd va vb) s (lanes two fun j => lane a (choose b j))) ∧
      (Issues s i one →
        Runs i (.vbcast i vd va vb) s (lanes one fun _ => lane a (copy vb)) ∧
        Runs i (.vredmax i vd va) s (fun t => ∃ x fl, WritesVec s i one vd (vecOf fun _ => x) fl t ∧
          (float = false → fl = 0 ∧ (∃ j, j < 16 ∧ x = lane a j) ∧ ∀ j, j < 16 → (lane a j).toInt ≤ x.toInt) ∧
          (float = true → (∀ j, j < 16 → f32Val (lane a j) ≠ .nan) →
            (∃ j, j < 16 ∧ x = lane a j) ∧ ∀ j, j < 16 → f32Key (lane a j) ≤ f32Key x))) ∧
      (Issues s i three →
        Runs i (.vsel i .int8 vd va vb vc) s (fun t => ∃ v, WritesVec s i three vd v 0 t ∧
          ∀ j, j < 64 → lane8 v j = lane8 a j ∨ lane8 v j = lane8 b j) ∧
        Runs i (.vsel i .int32 vd va vb vc) s (fun t => ∃ v, WritesVec s i three vd v 0 t ∧
          ∀ j, j < 16 → lane v j = lane a j ∨ lane v j = lane b j))

/-- R103: the tree of VREDSUM, its additions those of R102. -/
def Obligations.VredsumIsAFixedTree : Prop :=
  ∀ (s : State) (i : Issue) (vd va : VReg),
    let add := f32Add (s.core i.core).frm
    let x0 := fun j => lane ((s.core i.core).vreg va) j
    let x1 := fun j => (add (x0 j) (x0 (j + 8))).1
    let x2 := fun j => (add (x1 j) (x1 (j + 4))).1
    let x3 := fun j => (add (x2 j) (x2 (j + 2))).1
    let flags := (List.range 8).foldl (fun f j => f ||| (add (x0 j) (x0 (j + 8))).2) 0 |||
      (List.range 4).foldl (fun f j => f ||| (add (x1 j) (x1 (j + 4))).2) 0 |||
      (List.range 2).foldl (fun f j => f ||| (add (x2 j) (x2 (j + 2))).2) 0 ||| (add (x3 0) (x3 1)).2
    Issues s i (vectorInsn unitVec vd [va]) →
      Runs i (.vredsum i vd va) s (WritesVec s i (vectorInsn unitVec vd [va]) vd (vecOf fun _ => (add (x3 0) (x3 1)).1) flags)

/-- R104, R129 to R135: fixed functions of the input bits. The flags, the unused lanes and the scale of a packed block are free
(assumption log 5). -/
def Obligations.ConversionsAndTranscendentals : Prop :=
  (∀ x, (f32Val x = .nan ∨ f32Val x = .inf true ∨ (∃ m e, f32Val x = .fin m e ∧ m < 0) → f32Sqrt x = 0x7FC00000) ∧
    (∀ e, f32Val x = .fin 0 e → f32Sqrt x = x)) ∧
  (∀ x m e, f32Val x = .fin m e → 0 ≤ m * 2 ^ (e + 149).toNat - 128 * 2 ^ 149 → f32Exp2 x = 0x7F800000) ∧
  f32Log2 0x3F800000 = 0 ∧ (∀ x e, f32Val x = .fin 0 e → f32SinPi x = x ∧ f32Tanh x = x) ∧
  (∀ a b j, j < 16 →
    (convertVec .f32ToBf16 a b).extractLsb' (16 * j) 16 = to16 8 7 127 (lane a j) ∧
    (convertVec .f32ToF16 a b).extractLsb' (16 * j) 16 = to16 5 10 15 (lane a j)) ∧
  (∀ a b, ∃ half, (half = 0 ∨ half = 16) ∧ ∀ j, j < 16 →
    lane (convertVec .bf16ToF32 a b) j = toF32 8 7 127 (a.extractLsb' (16 * (half + j)) 16)) ∧
  (∀ a b, ∃ half, (half = 0 ∨ half = 16) ∧ ∀ j, j < 16 →
    lane (convertVec .f16ToF32 a b) j = toF32 5 10 15 (a.extractLsb' (16 * (half + j)) 16)) ∧
  (∀ ty a b, isMx ty = true → ∃ scale, scale < 256 ∧ (packMx ty a b).toNat / 2 ^ (32 * elemBits ty) % 256 = scale ∧
    ∀ j, j < 32 → (packMx ty a b).toNat / 2 ^ (elemBits ty * j) % 2 ^ elemBits ty =
      packElem ty scale (if j < 16 then lane a j else lane b (j - 16))) ∧
  ∀ (s : State) (i : Issue) (vd va vb : VReg) (kind : Cvt) (elem : BitVec 4),
    let a := (s.core i.core).vreg va
    let b := (s.core i.core).vreg vb
    let xu := vectorInsn unitXu vd [va]
    let two := vectorInsn unitVec vd [va, vb]
    let lanes := fun (op : Nat) (f : F32 → F32) => WritesVec s i xu vd (vecOf fun j => f (lane a j)) (openFlags op a)
    (Issues s i xu →
      Runs i (.xexp2 i vd va) s (lanes 0 f32Exp2) ∧ Runs i (.xlog2 i vd va) s (lanes 1 f32Log2) ∧
      Runs i (.xrcp i vd va) s (lanes 2 f32Rcp) ∧ Runs i (.xrsqrt i vd va) s (lanes 3 f32Rsqrt) ∧
      Runs i (.xsqrt i vd va) s (lanes 4 f32Sqrt) ∧ Runs i (.xsinpi i vd va) s (lanes 5 f32SinPi) ∧
      Runs i (.xcospi i vd va) s (lanes 6 f32CosPi) ∧ Runs i (.xtanh i vd va) s (lanes 7 f32Tanh)) ∧
    (Issues s i two →
      Runs i (.vcvt i kind vd va vb) s (WritesVec s i two vd (convertVec kind a b) (openFlags 8 a)) ∧
      Runs i (.vpackMx i elem vd va vb) s (WritesVec s i two vd (packMx elem.toNat a b) 0))

/-- R90, R93 to R95, R108, R120 to R126: the fetch of an instruction, system instructions, and the exceptions that are commands of
their own. The fetch reads the block of the program counter and the next from SRAM, unless the core holds them, whatever has been
stored there since. -/
def Obligations.SystemInstructionsAndExceptions : Prop :=
  (∀ (s : State) (i : Issue) (insn : Insn),
    let k := if s.joins i insn then s.core i.core else (s.core i.core).closeBundle
    let t := s.fetching i insn
    let b := localOffset k.pc / 64
    let holds := fun (b : Nat) => ∃ e ∈ k.ibuf, e.1 = b
    (∃ l, t.core i.core = { k with ibuf := l }) ∧ (∀ j, j ≠ i.core → t.core j = s.core j) ∧ SameButCharges s t ∧
    t = { s with cores := t.cores, dict := t.dict, energy := t.energy, queues := t.queues, bights := t.bights
                 sram := { t.sram with retired := s.sram.retired, flipHi := s.sram.flipHi }
                 mesh := { s.mesh with lan := t.mesh.lan } } ∧
    (fetchable i.core k.pc = false ∨ (holds b ∧ holds ((b + 1) % 65536)) → t = s.setCore i.core k) ∧
    (fetchable i.core k.pc = true → holds b → (t.core i.core).fetched = k.fetched) ∧
    (fetchable i.core k.pc = true → ¬ holds b → i.core < 8192 →
      (∀ e ∈ k.ibuf, e.1 < 65536) → CleanSram s (sramAddr (clusterOf i.core) (coreK i.core * 0x400000 + 64 * b)) 64 →
      (t.core i.core).fetched = some (BitVec.ofNat 64 (leNat (Memory.read s.mem
        (sramAddr (clusterOf i.core) (coreK i.core * 0x400000 + localOffset k.pc / 8 * 8)) 8))))) ∧
  (∀ (s : State) (i : Issue) (mask : BitVec 16) (word : Flit),
    let insn : Insn := { unit := unitSys, reads := [], writes := [] }
    let acting : Insn := { insn with acts := true }
    let k := s.core i.core
    let c := clusterOf i.core
    let e := s.engine c
    let others := ∀ j ∈ coresOf c, j ≠ i.core → (s.core j).run = .halted
    let on' := fun (f : Core → Core) (t : State) =>
      t.core i.core = f ((s.issuer i insn).retire insn (s.joins i insn) (pcOf s i insn + 4)) ∧ OnlyCore s i insn t
    (Issues s i insn →
      (k.far ≠ [] → Runs i (.fenceFar i) s (Stalls s i (.fenceFar (lone i)) insn .fence) ∧
        Runs i (.halt i) s (Stalls s i (.halt (lone i)) insn .fence)) ∧
      (∀ va sub, k.far = [] → k.storeError = some (va, sub) →
        Runs i (.fenceFar i) s (Excepts s i (.fenceFar (lone i)) insn 0x05 (BitVec.ofNat 64 va)) ∧
        Runs i (.halt i) s (Excepts s i (.halt (lone i)) insn 0x05 (BitVec.ofNat 64 va))) ∧
      (k.far = [] → k.storeError = none →
        Runs i (.fenceFar i) s (on' id) ∧
        (e.queue = [] → Runs i (.halt i) s fun t =>
          t.core i.core = ({ s.issuer i insn with run := .halted } : Core).retire insn (s.joins i insn) (pcOf s i insn + 4) ∧
          (∀ j, j ≠ i.core → t.core j = s.core j) ∧ (∀ j, j ≠ c → t.engine j = s.engine j) ∧
          (¬ others → t.engine c = e) ∧
          (others → i.core < 8192 → t.engine c = { e with plane0 := if e.plane0.state = .held then {} else e.plane0
                                                          plane1 := if e.plane1.state = .held then {} else e.plane1 }) ∧
          t = { s.fetching i insn with cores := t.cores, engines := t.engines })) ∧
      Runs i (.isync i) s (on' fun x => { x with ibuf := [] }) ∧
      (¬ (s.boot.vendorDebug = true ∧ s.boot.scope.getLsbD 0 = true) → Runs i (.ebreak i) s (Excepts s i (.ebreak (lone i)) insn 0x0B (pcOf s i insn))) ∧
      (s.boot.vendorDebug = true → s.boot.scope.getLsbD 0 = true → Runs i (.ebreak i) s fun t =>
        t.core i.core = ({ s.issuer i insn with run := .debug } : Core).retire insn (s.joins i insn) (pcOf s i insn) ∧
          OnlyCore s i insn t) ∧
      ((s.issuer i insn).insnWord = word →
        Runs i (.illegalInsn i word) s (Excepts s i (.illegalInsn (lone i) word) insn 0x01 (word.setWidth 64))) ∧
      ((s.issuer i insn).insnWord ≠ word → exec (.illegalInsn i word) s = .next s)) ∧
    (Issues s i acting →
      (k.released = true → k.barrier = some mask →
        Runs i (.cbar i mask) s fun t => OnlyCore s i acting t ∧
          t.core i.core = ({ s.issuer i acting with barrier := none, released := false } : Core).retire acting (s.joins i acting)
            (pcOf s i acting + 4)) ∧
      (¬ (k.released = true ∧ k.barrier = some mask) → s.allReached c i.core mask = false →
        Runs i (.cbar i mask) s fun t => t.core i.core =
          { s.issuer i acting with barrier := some mask, released := false, held := some (.cbar (lone i) mask)
                                   stall := some (.barrier, stallStart s i.core) } ∧ OnlyCore s i acting t) ∧
      (¬ (k.released = true ∧ k.barrier = some mask) → s.allReached c i.core mask = true →
        Runs i (.cbar i mask) s fun t =>
          t.core i.core = ({ s.issuer i acting with barrier := none, released := false } : Core).retire acting (s.joins i acting)
            (pcOf s i acting + 4) ∧
          (∀ j, j ≠ i.core → t.core j =
            if j ∈ coresOf c ∧ (s.core j).barrier = some mask ∧ (s.core j).released = false
            then { s.core j with released := true, stall := none } else s.core j) ∧
          t = { s.fetching i acting with cores := t.cores }))) ∧
  (∀ (s : State) (core : Nat) (word : Flit),
    let k := s.core core
    (s.coreReady core = true → fetchable core k.closeBundle.pc = false → k.loadsOut = false →
      Gives (.fetchException core) s (Raised s core k.closeBundle 0x06 k.closeBundle.pc)) ∧
    (∀ why since, k.run = .running → k.stall = some (why, since) → k.stallLimit ≠ 0 →
      k.stallLimit.toNat ≤ s.runCycles ((s.bightOfCluster (clusterOf core)).getD 256) - since → k.insnWord = word →
      Gives (.stallLimit core word) s (Raised s core k 0x08 (word.setWidth 64))) ∧
    (k.loadsOut = true → exec (.fetchException core) s = .next s) ∧
    (k.stallLimit = 0 → exec (.stallLimit core word) s = .next s))

/-- R162 to R165 and R177 to R189: the three commands of a tile's life. How a tile's products are formed is `State.runTile`;
what they add up to is `AccumulationIgnoresOrderAndSplit`. A plane left HELD after the last HALT is discarded, unless the next
tile queued for it keeps it (assumption log 174). -/
def Obligations.TilesQueueStartAndComplete : Prop :=
  (∀ (s : State) (i : Issue) (value : Word),
    let insn : Insn := { unit := unitLsu, reads := [], writes := [], acts := true }
    let c := clusterOf i.core
    let tile : Tile := { regs := (s.core i.core).staging, tag := value.setWidth 16, core := i.core, started := false }
    let retired := (s.issuer i insn).retire insn (s.joins i insn) (pcOf s i insn + 4)
    Issues s i insn →
      (8 ≤ (s.engine c).waiting.length → Runs i (.tileGo i value) s (Stalls s i (.tileGo (lone i) value) insn .tileQueue)) ∧
      ((s.engine c).waiting.length < 8 → tile.malformed = false → Runs i (.tileGo i value) s fun t =>
        t.core i.core = retired ∧ (∀ j, j ≠ i.core → t.core j = s.core j) ∧
        t.engine c = { s.engine c with queue := (s.engine c).queue ++ [tile] } ∧
        (∀ j, j ≠ c → t.engine j = s.engine j) ∧ t = { s.fetching i insn with cores := t.cores, engines := t.engines }) ∧
      ((s.engine c).waiting.length < 8 → tile.malformed = true → Runs i (.tileGo i value) s fun t =>
        t.core i.core = retired ∧ (∀ j, j ≠ i.core → t.core j = s.core j) ∧
        (∃ m : LanMsg, t.mesh.lan = (s.fetching i insn).mesh.lan ++ [m] ∧ m.ty = 4 ∧ m.dest = stopMgmt ∧
          (m.payload.getD 1 0).toNat % 256 = 0x0C) ∧
        t.engine c = { s.engine c with failed := true } ∧ (∀ j, j ≠ c → t.engine j = s.engine j) ∧
        t = { s.fetching i insn with cores := t.cores, engines := t.engines, mesh := { s.mesh with lan := t.mesh.lan } })) ∧
  (∀ (s : State) (c : Nat) (tile : Tile) (rest : List Tile), s.clusterOn c = true → (s.engine c).waiting = tile :: rest →
    let p := (s.engine c).plane tile.plane
    let ahead := (s.engine c).queue.any (·.started) = true
    (tile.ser = true → ahead → exec (.tileStart c) s = .next s) ∧
    (¬ (tile.ser = true ∧ ahead) →
      (tile.accIn = 1 → p.state = .held → exec (.tileStart c) s = .next (s.runTile c tile)) ∧
      (tile.accIn = 1 → p.state = .free → exec (.tileStart c) s = .next (s.killOn c codeEngineConfig)) ∧
      (tile.accIn = 1 → p.state ≠ .held → p.state ≠ .free → exec (.tileStart c) s = .next s) ∧
      (tile.accIn ≠ 1 → p.state = .free → exec (.tileStart c) s = .next (s.runTile c tile)) ∧
      (tile.accIn ≠ 1 → p.state ≠ .free → exec (.tileStart c) s = .next s))) ∧
  (∀ (s : State) (c : Nat) (tile : Tile) (rest : List Tile), s.clusterOn c = true → (s.engine c).queue = tile :: rest →
    let p := (s.engine c).plane tile.plane
    let rows := (List.range tile.m).map fun i => (tile.outRow p i).1
    let flags := (List.range tile.m).foldl (fun f i => f ||| (tile.outRow p i).2) (0 : BitVec 9)
    let flagged := s.modEngine c fun e => { e with accStatus := e.accStatus ||| flags }
    let ended := fun (u : State) (q : Plane) (t : State) =>
      let e : Engine := { (u.engine c).setPlane tile.plane q with
        queue := (u.engine c).queue.drop 1, tilesDone := (u.engine c).tilesDone + 1, lastTag := tile.tag
        lastAnchor := BitVec.ofInt 16 p.anchor }
      let dropped := fun (n : Nat) => (e.plane n).state = .held ∧ ∀ x, e.waiting.find? (fun x => x.plane == n) = some x → x.accIn ≠ 1
      (u.allHalted c = false → t.engine c = e) ∧
      (u.allHalted c = true →
        (dropped 0 → t.engine c = { e with plane0 := {}, plane1 := (t.engine c).plane1 }) ∧
        (¬ dropped 0 → t.engine c = { e with plane1 := (t.engine c).plane1 }) ∧
        (dropped 1 → (t.engine c).plane1 = {}) ∧ (¬ dropped 1 → (t.engine c).plane1 = e.plane1)) ∧
      (∀ j, j ≠ c → t.engine j = u.engine j) ∧ t = { u with engines := t.engines }
    (tile.started = false → exec (.tileComplete c) s = .next s) ∧
    (tile.started = true → tile.finish = false → Gives (.tileComplete c) s (ended s { p with state := .held })) ∧
    (∀ u, tile.started = true → tile.finish = true → tile.oQueue = false → flagged.writeRows c tile rows = (none, u) →
      Gives (.tileComplete c) s (ended u {})) ∧
    (∀ u a, tile.started = true → tile.finish = true → tile.oQueue = false → flagged.writeRows c tile rows = (some a, u) →
      exec (.tileComplete c) s = .next (u.engineReport c causeBus 1 a)))

/-- R139 to R141, R157 and R159: order, split and rounding of the terms of one output element. `add` folds products, each with
the exponent of its scales (none: NaN), into an accumulator. -/
def Obligations.AccumulationIgnoresOrderAndSplit : Prop :=
  ∀ (wide : Bool) (anchor : Int),
    let add := fun (l : List (Option Int × Elem × Elem)) (acc : Machine.Acc) =>
      l.foldl (fun (acc : Machine.Acc) x => acc.addProduct wide anchor x.1 x.2.1 x.2.2) acc
    (∀ l₁ l₂ acc, l₁.Perm l₂ → add l₁ acc = add l₂ acc) ∧
    (∀ l₁ l₂, add (l₁ ++ l₂) {} = (add l₁ {}).join (add l₂ {})) ∧
    (∀ l, (add l {}).terms = l.length ∧ (add l {}).sum.natAbs ≤ l.length * windowMax wide) ∧
    (∀ (acc : Machine.Acc) (m n e f sc : Int), ∃ t : Int,
      let k := e + f + sc - anchor
      let d : Int := 2 ^ (-k).toNat
      (acc.addProduct wide anchor (some sc) (.fin m e) (.fin n f)).sum = acc.sum + clampInt (windowMax wide) t ∧
      (0 ≤ k → t = m * n * 2 ^ k.toNat) ∧
      (k < 0 → 2 * (t * d - m * n).natAbs ≤ d.natAbs ∧ (2 * (t * d - m * n).natAbs = d.natAbs → t % 2 = 0)))

/-- R85, R96, R107, R121 and R122: FAR_ACCESS_DONE. A load that fails takes its core's registers back to what they were when it
issued, with what earlier loads have landed since (assumption log 44). -/
def Obligations.FarAccessesComplete : Prop :=
  ∀ (s : State) (core req : Nat),
    let k := s.core core
    (∀ (f : FarAccess) (r : Req), k.far.find? (fun f => f.req == some req) = some f → s.req? req = some r →
      let k' := { k with far := k.far.filter fun g => g.req != some req }
      let only := fun (t : State) => (∀ j, j ≠ core → t.core j = s.core j) ∧
        t = { s with cores := t.cores, reqs := s.reqs.filter fun r => r.id != req }
      (r.result = .pending ∨ r.result = .lost → exec (.farAccessDone core req) s = .next s) ∧
      (∀ d a b, r.result = .data d → f.store = false → k.far = a ++ f :: b → (∀ g ∈ a, g.req ≠ some req) →
        Gives (.farAccessDone core req) s fun t => only t ∧ t.core core = { k.land f.dest d with
          far := a ++ b.map fun g => { g with before := g.before.map fun x => ((k.withRegs x).land f.dest d).regs } }) ∧
      (∀ d rd signed r', r.result = .data d → d ≠ [] → f.store = false → f.dest = .scalar rd signed →
        Gives (.farAccessDone core req) s fun t => (t.core core).reg r' =
          if r'.val = rd ∧ rd ≠ 0 then
            (if signed then (BitVec.ofNat (8 * d.length) (leNat d)).signExtend 64 else BitVec.ofNat 64 (leNat d))
          else k.reg r') ∧
      (r.result = .stored → f.store = true → Gives (.farAccessDone core req) s fun t =>
        t.core core = k' ∧ only t) ∧
      (∀ e, r.result = .busError e → f.store = true → Gives (.farAccessDone core req) s fun t =>
        t.core core = { k' with storeError := if k.storeError.isSome then k.storeError else some (f.va, e) } ∧ only t) ∧
      (∀ e, r.result = .busError e → f.store = false → k.run ≠ .running → Gives (.farAccessDone core req) s fun t =>
        t.core core = k' ∧ only t) ∧
      (∀ e x, r.result = .busError e → f.store = false → k.run = .running → f.before = some x → Gives (.farAccessDone core req) s
        (Raised (s.dropReq req) core { k' with
          pc := f.pc, s := x.s, v := x.v, loops := x.loops, openBundle := x.openBundle, slot0 := x.slot0, instret := x.instret
          fflags := x.fflags, frm := x.frm, stallLimit := x.stallLimit } 0x03 (BitVec.ofNat 64 (2 ^ 63 + f.va)))) ∧
      (r.result = .hostError → s.residentCmd ((s.bightOfCluster (clusterOf core)).getD 256) = none →
        Gives (.farAccessDone core req) s fun t => t.core core = k' ∧ only t) ∧
      (∀ q x c, r.result = .hostError →
        s.residentCmd ((s.bightOfCluster (clusterOf core)).getD 256) = some (q, x, c) →
        exec (.farAccessDone core req) s = .next (((s.dropReq req).setCore core k').failCmd q c.seq codeHostError))) ∧
    (k.far.find? (fun f => f.req == some req) = none ∨ s.req? req = none → exec (.farAccessDone core req) s = .next s)

/-- R211, R212, R225, R230, R235 to R241 and R561: the commands of the mesh and the Lanyard. A message is taken when it is the next
to arrive. Whether a retransmission cured a bad flit is free (assumption log 3). -/
def Obligations.MeshArrivalsAndLanyardMessages : Prop :=
  (∀ (s : State) (n : Nat),
    let without := { s with mesh := { s.mesh with flights := s.mesh.flights.take n ++ s.mesh.flights.drop (n + 1) } }
    (s.mesh.flights[n]? = none → exec (.vectorArrival n) s = .next s) ∧
    (∀ f, s.mesh.flights[n]? = some f → (s.bight f.bight).sigma < f.due → exec (.vectorArrival n) s = .next s) ∧
    (∀ f, s.mesh.flights[n]? = some f → f.due ≤ (s.bight f.bight).sigma →
      let x := s.router f.router
      let x' := { x with credit := if f.credit then withOne x.credit f.port else x.credit }
      (f.vec = none → exec (.vectorArrival n) s = .next (without.setRouter f.router x')) ∧
      (∀ v, f.vec = some v → Tab.find? x.input f.port = none →
        exec (.vectorArrival n) s = .next (without.setRouter f.router { x' with input := Tab.set x.input f.port v })) ∧
      (∀ v w, f.vec = some v → Tab.find? x.input f.port = some w → ∃ i, exec (.vectorArrival n) s =
        .next ((without.setRouter f.router { x' with input := Tab.erase x.input f.port, overrunFlag := true }).schedFault
          f.bight f.router 1 i)))) ∧
  (∀ (s : State) (n half div : Nat),
    let changed := fun (s t : State) =>
      let p := { s.power with
        divider := Tab.put 1 s.power.divider half div, bankMark := Tab.set s.power.bankMark half (s.baseCycle, s.bankCycle half) }
      t.power = { p with coolHalf := if div = 1 then Tab.erase s.power.coolHalf half else s.power.coolHalf } ∧
      t.mesh = (({ s with power := p } : State).relayCrossing half).mesh ∧
      t = { s with power := t.power, mesh := t.mesh }
    let due := half < 32 ∧ div ≠ s.divOf half ∧ div = s.wantedDiv half ∧ ∀ e ∈ s.mesh.ratioNext, e.1 ≠ half
    (due → s.crossingCircuits half = [] → Gives (.clockRatioChange half div) s (changed s)) ∧
    (due → s.crossingCircuits half ≠ [] → ∃ slow, div ≤ slow ∧
      (∀ c ∈ s.crossingCircuits half, s.pathDiv c.out.path ≤ slow ∧ s.pathDiv c.back.path ≤ slow) ∧
      exec (.clockRatioChange half div) s = .next { s with
        mesh := { s.mesh with ratioNext := s.mesh.ratioNext ++ [(half, div, s.baseCycle + 4096 * slow)] } }) ∧
    (∀ at', s.mesh.ratioNext = [(half, div, at')] →
      (s.baseCycle < at' → s.ratiosDue = s) ∧
      (at' ≤ s.baseCycle → changed { s with mesh := { s.mesh with ratioNext := [] } } s.ratiosDue)) ∧
    (¬ due → exec (.clockRatioChange half div) s = .next s) ∧
    ((∀ m, s.mesh.lan[n]? = some m → s.lanNext n m = false) → ∀ bad,
      exec (.ack n bad) s = .next s ∧ exec (.fault n) s = .next s ∧ exec (.deadLetter n) s = .next s) ∧
    (∀ m, s.mesh.lan[n]? = some m →
      (s.lanNext n m = true ↔
        (∀ j k, j < n → s.mesh.lan[j]? = some k → ¬ (k.src = m.src ∧ k.dest = m.dest ∧ k.high = m.high)) ∧
        (m.high = false → ∀ k ∈ s.mesh.lan, ¬ (k.high = true ∧ k.dest = m.dest)))) ∧
    (∀ m, s.mesh.lan[n]? = some m → s.lanNext n m = true →
      let mesh := { s.mesh with lan := s.mesh.lan.take n ++ s.mesh.lan.drop (n + 1) }
      let known := stopKnown m.dest = true ∧ ¬ (0xA ≤ m.ty ∧ m.ty ≤ 0xE)
      (exec (.ack n true) s = .next { s with
        fresh := s.fresh + 1, mesh := { s.mesh with retransmissions := s.mesh.retransmissions + 1 } } ∨
       exec (.ack n true) s = .next { s with
        fresh := s.fresh + 1
        mesh := { mesh with dropsCheck := s.mesh.dropsCheck + 1, retransmissions := s.mesh.retransmissions + 1 } }) ∧
      (¬ known → exec (.ack n false) s = .next { s with mesh := { mesh with dropsCheck := s.mesh.dropsCheck + 1 } }) ∧
      (known → s.stopPowered m.dest = false →
        exec (.ack n false) s = .next { s with mesh := { mesh with dropsUnpowered := s.mesh.dropsUnpowered + 1 } }) ∧
      (known → s.stopPowered m.dest = true → m.ty = 0xF → exec (.ack n false) s = .next { s with mesh := mesh }) ∧
      (known → s.stopPowered m.dest = true → m.ty ≠ 0xF → exec (.ack n false) s = .next s) ∧
      (let id := (m.payload.getD 0 0).toNat % 8192
       let value := (m.payload.getD 4 0).toNat
       let b := s.bightOfRouter id
       let cause := (m.payload.getD 1 0).toNat % 256
       let u := { s.logFault 4 m.payload with
         mesh := { mesh with schedFaults := if cause = 0x0D then s.mesh.schedFaults + 1 else s.mesh.schedFaults } }
       (m.ty ≠ 4 → exec (.fault n) s = .next s) ∧
       let about := fun (x : Nat) => if cause = 0x0D ∧ 4096 ≤ value then s.entryOwners id (value - 4096) = [x] ∧ x < 256 else b = some x
       (m.ty = 4 → cause = 0x0D → 4096 ≤ value → (∀ x ∈ s.entryOwners id (value - 4096), x = 256) →
         exec (.fault n) s = .next u) ∧
       (m.ty = 4 → ¬ (cause = 0x0D ∧ 4096 ≤ value) → b = none → exec (.fault n) s = .next u) ∧
       (∀ x, m.ty = 4 → about x → (s.bight x).resident = none → exec (.fault n) s = .next u) ∧
       (∀ x q k r c, m.ty = 4 → about x → (s.bight x).resident = some (q, k, r) → s.cmd? q k = some c →
         c.live? = true → c.phase ≠ .killing → exec (.fault n) s = .next ((u.haltBight x).failCmd q k (codeOfCause cause)))) ∧
      (let p0 := (m.payload.getD 0 0).toNat
       let b := p0 / 2 ^ 24
       let u := { s.logFault 5 m.payload with mesh := { mesh with deadLetters := s.mesh.deadLetters + 1 } }
       (m.ty ≠ 5 → exec (.deadLetter n) s = .next s) ∧
       (m.ty = 5 → s.deadLetterCmd p0 = none → exec (.deadLetter n) s = .next u) ∧
       (∀ q k r, p0 / 2 ^ 21 % 8 = 0 → (s.bight b).resident = some (q, k, r) → s.deadLetterCmd p0 = some (q, k)) ∧
       (∀ q k c, m.ty = 5 → s.deadLetterCmd p0 = some (q, k) → s.cmd? q k = some c → c.live? = true →
         c.phase ≠ .killing → (∀ code d rerun, RegEntry.kill q k code d rerun ∉ (s.bight b).creg) →
         exec (.deadLetter n) s = .next
           (((if c.isRun then u.haltBight b else u).failCmd q k 0x0107).breakErrorFence b 0x0107 (detailCmd q k))))))

/-- R30, R36, R39, R42: requests of domains. Which transitions a dependency forbids is `State.domLegal`, the model's reading of
R30, R31, R37, R44 and R237, and which the walker circuits forbid `State.walkersLegal` (R356). -/
def Obligations.DomainRequestsAreAppliedOrRefused : Prop :=
  (∀ (s : State) (via : Via) (value : BitVec 32), Serves s via true true →
    let i := value.toNat % 1024
    let code := value.toNat / 65536 % 4
    let good := fun (x : DomState) => stateUsed i x = true ∧ ¬ (s.errors.rootstock = true ∧ x = .on) ∧ s.domLegal i x = true ∧
      s.walkersLegal i x = true
    (∀ x, (code = 0 ∧ x = .off ∨ code = 1 ∧ x = .low ∨ code = 2 ∧ x = .on) → good x →
      ∃ u t : State, Answers (.domainRequest via value) s via 0x00 t ∧ Requested (s.domain i) (u.domain i) x ∧
        (∀ j, j ≠ i → u.domain j = s.domain j) ∧ OnlyDomains s u ∧ Followed s u i t) ∧
    ((code = 3 ∨ ∃ x, (code = 0 ∧ x = .off ∨ code = 1 ∧ x = .low ∨ code = 2 ∧ x = .on) ∧ ¬ good x) →
      Answers (.domainRequest via value) s via 0x06 s)) ∧
  (∀ (s : State) (i : Nat),
    let d := s.domain i
    (d.state = .changing ∨ d.held = [] → exec (.heldDomainRequest i) s = .next s) ∧
    (∀ x rest, d.state ≠ .changing → d.held = x :: rest →
      ((s.setDomain i { d with held := rest }).domLegal i x = false ∨
        (s.setDomain i { d with held := rest }).walkersLegal i x = false) →
      exec (.heldDomainRequest i) s = .next (s.setDomain i { d with held := rest })) ∧
    (∀ x rest, d.state ≠ .changing → d.held = x :: rest →
      (s.setDomain i { d with held := rest }).domLegal i x = true →
      (s.setDomain i { d with held := rest }).walkersLegal i x = true →
      ∃ u t : State, exec (.heldDomainRequest i) s = .next t.driveNeeds ∧ Started { d with held := rest } (u.domain i) x ∧
        (∀ j, j ≠ i → u.domain j = s.domain j) ∧ OnlyDomains s u ∧ Followed s u i t)) ∧
  (∀ (s : State) (i : Nat),
    ((512 ≤ i ∧ i < 544 ∨ 624 ≤ i ∧ i < 640) → s.frame.selfPolicy = true → (s.domain i).state = .on →
      s.domLegal i .off = true →
      ∃ t : State, exec (.selfPolicyDomainOff i) s = .next t ∧ Requested (s.domain i) (t.domain i) .off ∧
        (∀ j, j ≠ i → t.domain j = s.domain j) ∧ OnlyDomains s t) ∧
    (s.frame.selfPolicy = false ∨ (s.domain i).state ≠ .on ∨ s.domLegal i .off = false →
      exec (.selfPolicyDomainOff i) s = .next s))

/-- R32, R34, R35, R274, R320: the end of a transition. A stack that fails training refuses the lashes and relashes that need it. -/
def Obligations.DomainTransitionsEnd : Prop :=
  (∀ (s : State) (i : Nat) (trained : Bool),
    let d := s.domain i
    let cluster := i < 512
    let stack := 544 ≤ i ∧ i < 576
    let failed := trained = false ∧ d.origin = .off ∧ stack
    (d.state ≠ .changing → exec (.domainTransitionDone i trained) s = .next s) ∧
    (d.state = .changing → ∃ u t : State,
      (failed → s.hbm.failed.getLsbD (i - 544) = false →
        exec (.domainTransitionDone i trained) s = .next (t.driveNeeds.refuseFailed (i - 544))) ∧
      (¬ (failed ∧ s.hbm.failed.getLsbD (i - 544) = false) → exec (.domainTransitionDone i trained) s = .next t.driveNeeds) ∧
      (t = u ∨ stack ∧ (u.domain i).state = .low ∧ t = u.reqDom i .on) ∧
      (failed → u.domain i = { d with state := .off, target := .off, origin := .off }) ∧
      (¬ failed → u.domain i = { d with state := d.target, target := .off, origin := .off }) ∧
      (∀ j, j ≠ i → u.domain j = s.domain j) ∧
      (∀ o, cluster → (d.target = .off ∨
          d.origin = .off ∧ (∀ e ∈ s.sram.retired, e.1 ≠ blockCode i o) ∧ blockCode i o ∉ s.fuses.retired) → o < sramUsed →
        Memory.byte u.mem (sramAddr i o) = 0) ∧
      (∀ a, stack → (d.target = .off ∨ d.origin = .off ∧ trained = true) →
        2 * (i - 544) * groupBytes ≤ a → a < (2 * (i - 544) + 2) * groupBytes → Memory.byte u.mem a = 0) ∧
      (∀ a, (¬ cluster ∨ a < sramAddr i 0 ∨ sramAddr i sramStride ≤ a) →
        (¬ stack ∨ a < 2 * (i - 544) * groupBytes ∨ (2 * (i - 544) + 2) * groupBytes ≤ a) →
        Memory.byte u.mem a = Memory.byte s.mem a) ∧
      (∀ a, (d.target ≠ .off ∧ (d.origin ≠ .off ∨ failed)) → Memory.byte u.mem a = Memory.byte s.mem a))) ∧
  (∀ (s : State) (st b : Nat) (pl : Place), Tab.keys s.bights.tab = [b] → (s.bight b).driving = some pl →
    (domStack st ∉ s.needs b pl → s.refuseFailed st = s) ∧
    (domStack st ∈ s.needs b pl → (s.bight b).state = .lashing →
      ((s.refuseFailed st).bight b).state = .free ∧ (s.refuseFailed st).bights.opSeq = s.bights.opSeq + 1 ∧
      (s.refuseFailed st).bights.opBight = b ∧ (s.refuseFailed st).bights.opKind = 1 ∧ (s.refuseFailed st).bights.opResult = lashResource) ∧
    (domStack st ∈ s.needs b pl → (s.bight b).state ≠ .lashing →
      s.refuseFailed st = s.cancelRelash b lashResource codeRelashRefused)) ∧
  (∀ s : State, OnlyDomains s s.driveNeeds ∧
    ∀ i, s.driveNeeds.domain i = s.domain i ∨ Requested (s.domain i) (s.driveNeeds.domain i) .on)

/-- R38, R41, R286, R319: what memory-hold bits and idleness do to domains. -/
def Obligations.MemoryHoldBitsAndIdleSteps : Prop :=
  (∀ (s : State) (via : Via) (sub : Nat) (v : BitVec 32), Serves s via true false → 1 ≤ sub → sub ≤ 16 →
    ∃ t : State, Answers (.memoryHoldWrite via sub v) s via 0x00 t ∧ OnlyDomains { s with memHold := t.memHold } t ∧
      (∀ c, c ∈ t.memHold ↔ if c / 32 + 1 = sub then v.getLsbD (c % 32) = true else c ∈ s.memHold) ∧
      (s.bights.tab = [] → s.errors.rootstock = false → ∀ c, c / 32 + 1 = sub →
        (v.getLsbD (c % 32) = true → s.domain c = {} → s.dom (512 + halfOfCluster c) = .on →
          Started {} (t.domain c) .low) ∧
        (v.getLsbD (c % 32) = false → c ∈ s.memHold → (s.domain c).final = .low → Requested (s.domain c) (t.domain c) .off))) ∧
  (∀ (s : State) (c : Nat), c < 512 → c ∈ s.memHold → s.bightOfCluster c = none → s.errors.rootstock = false →
    s.domain c = {} → s.dom (512 + halfOfCluster c) = .on →
    ∃ t : State, exec (.memoryHoldLowEntry c) s = .next t ∧ Started {} (t.domain c) .low ∧
      (∀ j, j ≠ c → t.domain j = s.domain j) ∧ OnlyDomains s t) ∧
  (∀ (s : State) (b : Nat),
    let x := s.bight b
    s.frame.selfPolicy = true → x.idleLowOk = true → x.state = .lashed → x.idleTime ≠ 0 → x.idleLow = false →
    s.bightRuns b = false → s.hasLaunchable b = false → x.idleSince + 1000 * x.idleTime ≤ s.now →
    ∃ t : State, exec (.idleLow b) s = .next t ∧ t.bight b = { x with idleLow := true } ∧
      (∀ c, c ∉ x.place.memberClusters → t.domain c = s.domain c) ∧
      (∀ c, c ∈ x.place.memberClusters → x.place.memberClusters.Nodup → Requested (s.domain c) (t.domain c) .low) ∧
      OnlyDomains { s with bights := t.bights } t ∧ ∀ j, j ≠ b → t.bight j = s.bight j) ∧
  (∀ (s : State) (st : Nat), st < 32 → s.frame.selfPolicy = true → s.dom (544 + st) = .on →
    (s.group (2 * st)).servedAt + 1000000 ≤ s.now → (s.group (2 * st + 1)).servedAt + 1000000 ≤ s.now →
    s.stackWaited st = false → s.stackOfBight st = false →
    ∃ t : State, exec (.selfPolicyHbmLow st) s = .next t ∧ Requested (s.domain (544 + st)) (t.domain (544 + st)) .low ∧
      (∀ j, j ≠ 544 + st → t.domain j = s.domain j) ∧ OnlyDomains s t)

/-- R54, R55: the counter over the four ways to a boundary (R49 to R52), and the preset. -/
def Obligations.FrameCounterCountsBoundaries : Prop :=
  State.reset.frame.counter = 0 ∧
  (∀ (s : State) (m : Measured), s.supply.good = true → s.supply.inReset = false →
    let f := s.frame
    let dt := s.now - f.boundaryAt
    let counted := fun (t : State) => t.frame.counter = f.preset.getD (f.counter + 1) ∧ t.frame.preset = none
    (f.locked = true → 7 * f.period ≤ 8 * dt → 2 * dt ≤ 3 * f.period → Gives (.frameEdge m) s counted) ∧
    (∀ e2 e1 rest, f.locked = false → f.edges = e2 :: e1 :: rest → matching (s.now - e2) (e2 - e1) = true →
      Gives (.frameEdge m) s counted) ∧
    (f.locked = true → Gives (.freeRunEntry m) s counted) ∧
    (f.locked = false → Gives (.oscillatorBoundary m) s counted)) ∧
  (2 ^ 48 - 1 : BitVec 48) + 1 = 0 ∧
  (∀ (s : State) (via : Via) (v : BitVec 64), Serves s via true true →
    (v.toNat < 2 ^ 48 → Answers (.frameCounterPreset via v) s via 0x00
      { s with frame := { s.frame with preset := some (v.setWidth 48) } }) ∧
    (2 ^ 48 ≤ v.toNat → Answers (.frameCounterPreset via v) s via 0x05 s))

/-- R49 to R53 over the three commands that can end a frame, and 0x2011.00. -/
def Obligations.EdgesLockAndFreeRun : Prop :=
  (∀ (s : State) (m : Measured), s.supply.good = true → s.supply.inReset = false →
    let f := s.frame
    let dt := s.now - f.boundaryAt
    let seen := (s.now :: f.edges).take 3
    let left := fun (t : State) => t.frame.locked = false ∧ t.frame.freeRun = true ∧ t.frame.freeEntries = f.freeEntries + 1
    (f.locked = true → 8 * dt < 7 * f.period → exec (.frameEdge m) s = .next { s with
      frame := { f with earlyEdges := f.earlyEdges + 1, earlyNow := true } }) ∧
    (f.locked = true → 7 * f.period ≤ 8 * dt → 3 * f.period < 2 * dt → exec (.frameEdge m) s = .next s) ∧
    (f.locked = true → 7 * f.period ≤ 8 * dt → 2 * dt ≤ 3 * f.period → Gives (.frameEdge m) s fun t =>
      let last := (dt :: f.intervals).take 4
      t.frame.boundaryAt = s.now ∧ t.frame.period = last.sum / last.length ∧ t.frame.lastFreeEntry = false ∧
      (f.earlyNow = true → f.earlyBefore = true → left t) ∧
      (f.earlyNow = false ∨ f.earlyBefore = false →
        t.frame.locked = true ∧ t.frame.freeRun = f.freeRun ∧ t.frame.freeEntries = f.freeEntries)) ∧
    (f.locked = false → (∀ e2 e1 rest, f.edges = e2 :: e1 :: rest → matching (s.now - e2) (e2 - e1) = false) →
      exec (.frameEdge m) s = .next { s with frame := { f with edges := seen } }) ∧
    (∀ e2 e1 rest, f.locked = false → f.edges = e2 :: e1 :: rest → matching (s.now - e2) (e2 - e1) = true →
      Gives (.frameEdge m) s fun t => t.frame.locked = true ∧ t.frame.freeRun = false ∧ t.frame.everLocked = true ∧
        t.frame.boundaryAt = s.now ∧ t.frame.period = ((s.now - e2) + (e2 - e1)) / 2 ∧ t.frame.freeEntries = f.freeEntries) ∧
    (f.locked = true → Gives (.freeRunEntry m) s fun t =>
      left t ∧ t.frame.boundaryAt = s.now ∧ t.frame.period = f.period ∧ t.frame.lastFreeEntry = true) ∧
    (f.locked = false → exec (.freeRunEntry m) s = .next s) ∧
    (f.locked = false → Gives (.oscillatorBoundary m) s fun t =>
      t.frame.boundaryAt = s.now ∧ t.frame.locked = false ∧ t.frame.freeRun = f.freeRun ∧ t.frame.freeEntries = f.freeEntries ∧
      t.frame.period = if f.everLocked = true ∨ f.freeRun = true then f.period else 1000 * f.nominalUs) ∧
    (f.locked = true → exec (.oscillatorBoundary m) s = .next s)) ∧
  (∀ (s : State) (m : Measured), s.supply.good = false ∨ s.supply.inReset = true →
    exec (.frameEdge m) s = .next s ∧ exec (.freeRunEntry m) s = .next s ∧ exec (.oscillatorBoundary m) s = .next s) ∧
  (∀ (s : State) (via : Via) (v : BitVec 32), Serves s via true false →
    (1000 ≤ v.toNat ∧ v.toNat ≤ 100000 → Answers (.nominalPeriodWrite via v) s via 0x00
      { s with frame := { s.frame with nominalUs := v.toNat } }) ∧
    (¬ (1000 ≤ v.toNat ∧ v.toNat ≤ 100000) → Answers (.nominalPeriodWrite via v) s via 0x05 s))

/-- R59, R60, R79, R264, R550, R553: objects that bound what the module may use. -/
def Obligations.WrittenLimitsAreHeld : Prop :=
  ∀ (s : State) (via : Via),
    (Serves s via true false →
      (∀ v : BitVec 32,
        let g := if v = 0xFFFFFFFF then none else some v.toNat
        Answers (.grantWrite via none v) s via 0x00
          { s with energy := { s.energy with grantNext := s.energy.grantNext ++ [(g, some s.now)] } } ∧
        (∀ b, b < 256 → b ∈ s.lashedBights → ∃ t : State, Answers (.grantWrite via (some b) v) s via 0x00 t ∧
          t.bight b = { s.bight b with grantNext := (s.bight b).grantNext ++ [(g, some s.now)] } ∧
          (∀ j, j ≠ b → t.bight j = s.bight j) ∧ t = { s with bights := t.bights }) ∧
        (∀ b, b < 256 → b ∉ s.lashedBights → Answers (.grantWrite via (some b) v) s via 0x06 s) ∧
        (∀ b, 256 ≤ b → Answers (.grantWrite via (some b) v) s via 0x01 s) ∧
        (v = 0xFFFFFFFF → Answers (.capWrite via v) s via 0x00 { s with power := { s.power with cap := none } }) ∧
        (1500 ≤ v.toNat → v.toNat ≤ 13500 →
          Answers (.capWrite via v) s via 0x00 { s with power := { s.power with cap := some v.toNat } }) ∧
        (v ≠ 0xFFFFFFFF → v.toNat < 1500 ∨ 13500 < v.toNat → Answers (.capWrite via v) s via 0x05 s)) ∧
      (∀ v : BitVec 8,
        (v.toNat ≤ 1 → Answers (.policyModeWrite via v) s via 0x00
          { s with frame := { s.frame with policyNext := s.frame.policyNext ++ [(v.toNat, some s.now)] } }) ∧
        (1 < v.toNat → Answers (.policyModeWrite via v) s via 0x05 s) ∧
        (v.toNat ≤ 1 → Answers (.fixedFrequencyWrite via v) s via 0x00
          ({ s with power := { s.power with fixedFreq := v.toNat == 1 } } : State).retune) ∧
        (1 < v.toNat → Answers (.fixedFrequencyWrite via v) s via 0x05 s))) ∧
    (Serves s via false true → ∀ (b : Nat) (v : BitVec 32),
      (b < 256 → (s.bight b).state = .lashed → (s.bight b).place.within v = true →
        Answers (.hedgeWrite via b v) s via 0x00 (s.setBight b { s.bight b with hedge := v })) ∧
      (b < 256 → ¬ ((s.bight b).state = .lashed ∧ (s.bight b).place.within v = true) →
        Answers (.hedgeWrite via b v) s via 0x06 s) ∧
      (256 ≤ b → Answers (.hedgeWrite via b v) s via 0x01 s))

/-- R540 and R541 whole, with R542's steps (the bounds 12 and 8 are assumption log 115). The account is kept in units of 0.2 µs; a mean
exceeds a limit when the sum of its samples exceeds that many times the limit. -/
def Obligations.PowerWindowsLimitAndCount : Prop :=
  State.reset.power.excursion = 50000 ∧
  ∀ (s : State) (w : Window),
    let p := s.power
    let n := w.samples.length
    let limit := n * if 0 < p.excursion then 13500 else 11000
    let input := (w.samples.map fun x => x.inputW).sum
    let rail := fun (i : Nat) => (w.samples.map fun x => x.rails.getD i 0).sum
    let moved := fun (above below : Prop) (cap r r' : Nat) =>
      (above → r' = min cap (r + 2)) ∧ (¬ above → below → r' = r - 1) ∧ (¬ above → ¬ below → r' = r)
    (s.supply.inReset = true → exec (.powerWindow w) s = .next s) ∧
    (s.supply.inReset = false → Gives (.powerWindow w) s fun t =>
      (11000 * n < input → t.power.excursion = p.excursion - 10) ∧
      (input ≤ 11000 * n → t.power.excursion = min 50000 (p.excursion + 1)) ∧
      moved (limit < input) (10 * input < 9 * limit) 12 p.inputRed t.power.inputRed ∧
      (∀ d, d < 16 →
        moved (n * 6400 < rail (4 * d) ∨ n * 1600 < rail (4 * d + 1))
          (10 * rail (4 * d) < 9 * (n * 6400) ∧ 10 * rail (4 * d + 1) < 9 * (n * 1600)) 12
          (Tab.look 0 p.dieRed d) (Tab.look 0 t.power.dieRed d) ∧
        moved (n * 600 < rail (4 * d + 3)) (10 * rail (4 * d + 3) < 9 * (n * 600)) 8
          (Tab.look 0 p.memRed d) (Tab.look 0 t.power.memRed d)) ∧
      (∀ i, i < 77 → Tab.look 0 t.power.railCurrent i = rail i / n) ∧
      t.power.inputV = (w.samples.map fun x => x.inputV).sum / n ∧
      t.power.inputLog = (s.now, input, n) :: p.inputLog.filter (fun e => decide (s.now < e.1 + 10000000)) ∧
      t.power.frameSum = (p.frameSum.1 + input, p.frameSum.2 + n))

/-- R542 to R561 and R570: the commands of the Trim controller, the clock, wear and heat. That a session's first wear unit begins
with its stress is the model's reading (log 195). -/
def Obligations.TrimHeatAndWear : Prop :=
  (∀ (s : State) (n : Nat),
    (∀ m, s.mesh.lan[n]? = some m → s.lanNext n m = true → m.ty = 3 → m.dest = stopMgmt →
      let mesh := { s.mesh with lan := s.mesh.lan.take n ++ s.mesh.lan.drop (n + 1) }
      (powerOp m = 4 → exec (.limit n) s = .next { s with
        mesh, power := { s.power with limitAt := some s.now, limitSeen := true } }) ∧
      (powerOp m = 5 → exec (.thermal n) s = .next { s with mesh }) ∧
      (powerOp m ≠ 4 → exec (.limit n) s = .next s) ∧ (powerOp m ≠ 5 → exec (.thermal n) s = .next s)) ∧
    ((∀ m, s.mesh.lan[n]? = some m → s.lanNext n m = false ∨ m.ty ≠ 3 ∨ m.dest ≠ stopMgmt) →
      exec (.limit n) s = .next s ∧ exec (.thermal n) s = .next s)) ∧
  (∀ s : State,
    let p := s.power
    let last := fun (ns : Nat) => p.inputLog.filter fun e => decide (s.now < e.1 + ns)
    let total := fun (ns : Nat) => ((last ns).map fun e => e.2.1).sum
    let count := fun (ns : Nat) => ((last ns).map fun e => e.2.2).sum
    (s.isReady = false → exec .trimRun s = .next s) ∧
    (s.isReady = true → p.cap = none → Gives .trimRun s fun t =>
      t.power.tCap = 0 ∧ t.power.capUnmet = false ∧ t.power.limitSeen = false) ∧
    (∀ c, s.isReady = true → p.cap = some c → s.frame.selfPolicy = false → p.shareSteps = [] →
      let up := c * count 1000000 < total 1000000 ∨ p.limitSeen = true
      let quiet := ∀ a, p.limitAt = some a → a + 10000000 ≤ s.now
      let down := 100 * total 10000000 < 85 * c * count 10000000 ∧ quiet ∧ p.tCapAt + 10000000 ≤ s.now
      Gives .trimRun s fun t =>
        (up → t.power.tCap = min 7 (p.tCap + 1)) ∧ (¬ up → down → t.power.tCap = p.tCap - 1) ∧
        (¬ up → ¬ down → t.power.tCap = p.tCap) ∧
        t.power.capUnmet = (t.power.tCap == 7 && decide (c * count 10000000 < total 10000000)) ∧ t.power.limitSeen = false)) ∧
  (∀ (s : State) (mhz at' : Nat) (rest : List (Nat × Nat)), s.power.clockNext = (mhz, at') :: rest →
    (at' ≤ s.baseCycle → Gives (.trim mhz) s fun t => t.power.baseMhz = mhz ∧ t.power.clockNext = rest ∧
      (∀ d, d < 16 → Tab.look 0 t.power.guardStep d = s.guardOf d) ∧ t = { s with power := t.power, mesh := t.mesh }) ∧
    (s.baseCycle < at' → exec (.trim mhz) s = .next s)) ∧
  (∀ (s : State) (half cycles : Nat),
    (s.dom (domHalf half) = .on → Gives (.droop half cycles) s fun t =>
      (∀ h, Tab.look 0 t.power.stretched h = if h / 2 = half / 2 then min 0xFFFFFFFF (Tab.look 0 s.power.stretched h + cycles)
        else Tab.look 0 s.power.stretched h) ∧
      t = { s with power := { s.power with stretched := t.power.stretched } }) ∧
    (s.dom (domHalf half) ≠ .on → exec (.droop half cycles) s = .next s)) ∧
  (∀ (s : State) (die : Nat),
    let due := s.isReady = true ∧ Tab.look 0 s.power.begun die * wearUnit ≤ Tab.look 0 s.power.stress die
    (due → Gives (.wearUnit die) s fun t =>
      Tab.look 0 t.fuses.wear die = min 4096 (Tab.look 0 s.fuses.wear die + 1) ∧
      Tab.look 0 t.power.begun die = Tab.look 0 s.power.begun die + 1 ∧
      ∀ d, d ≠ die → Tab.look 0 t.fuses.wear d = Tab.look 0 s.fuses.wear d) ∧
    (¬ due → exec (.wearUnit die) s = .next s)) ∧
  (∀ (s : State) (l : List Int),
    let sensor := fun (h : Nat) (x : Int) => x = l.getD (512 + h) 0 ∨ ∃ c, c < 512 ∧ halfOfCluster c = h ∧ x = l.getD c 0
    (s.supply.inReset = false → Gives (.junctionSample l) s fun t =>
      (∀ h, h < 32 → sensor h (Tab.look 0 t.power.halfTemp h) ∧ ∀ x, sensor h x → x ≤ Tab.look 0 t.power.halfTemp h) ∧
      (∀ h, h < 32 → 230 ≤ Tab.look 0 t.power.halfTemp h → Tab.look 0 s.power.halfTemp h < 230 →
        t.power.railsDropped = List.range 16 ∧ (s.isReady = true → t.errors.causes.getLsbD 1 = true) ∧
        (s.isReady = false → t.boot.halted = true))) ∧
    (s.supply.inReset = true → exec (.junctionSample l) s = .next s))

/-- R562 to R566, R644, R650 and R664. Temperatures are in half degrees, voltages in units of 10 mV. -/
def Obligations.SupplyReefAndTrip : Prop :=
  (∀ (s : State) (cv : Nat), Gives (.supplySample cv) s fun t =>
    t.supply = { s.supply with
      samples := cv :: s.supply.samples.take 3, goodCount := if 4800 ≤ cv then s.supply.goodCount + 1 else 0
      charging := s.supply.charging || decide (cv < 2000), converters := s.supply.converters && decide (2000 ≤ cv) } ∧
    t.power = { s.power with reefLow := if s.power.reef then min s.power.reefLow t.vf else s.power.reefLow } ∧
    t = { s with supply := t.supply, power := t.power }) ∧
  (∀ s : State,
    let enters := s.isReady = true ∧ s.power.reef = false ∧ s.errors.rootstock = false ∧ s.errors.entering = false ∧ s.vf < 4600
    let leaves := s.power.reef = true ∧ 200 ≤ s.supply.goodCount ∧ 4600 ≤ s.vf
    (enters → Gives .reefEnter s fun t => t.power.reef = true ∧ t.power.reefAt = s.now ∧ t.power.reefLow = s.vf ∧
      t.power.reefEntries = s.power.reefEntries + 1 ∧ (∀ b, t.bight b = s.bight b) ∧ t.queues = s.queues) ∧
    (¬ enters → exec .reefEnter s = .next s) ∧
    (leaves → Gives .reefExit s fun t => t.power.reef = false ∧ t.power.boostAfter = s.now + 10000000 ∧
      t.power.reefLast = min 0xFFFFFFFF ((s.now - s.power.reefAt) / 1000) ∧ t.power.reefLastLow = s.power.reefLow ∧
      (∀ b, t.bight b = s.bight b) ∧ t.queues = s.queues) ∧
    (¬ leaves → exec .reefExit s = .next s) ∧
    (s.supply.charging = true → exec .inputSwitchOn s = .next { s with
      supply := { s.supply with charging := false, converters := true } }) ∧
    (s.supply.charging = false → exec .inputSwitchOn s = .next s)) ∧
  (∀ (s : State) (loc : Nat) (t2 : Int),
    (s.supply.inReset = true ∨ t2 < 230 → exec (.trip loc t2) s = .next s) ∧
    (s.supply.inReset = false → 230 ≤ t2 → s.isReady = true → Gives (.trip loc t2) s fun t =>
      t.errors.causes.getLsbD 1 = true ∧ (s.errors.rootstock = false → t.errors.entering = true) ∧ t.power.coolAll = 0 ∧
      ∀ d, d < 16 → t.coreMv d = 0 ∧ t.sramMv d = 0) ∧
    (s.supply.inReset = false → 230 ≤ t2 → s.isReady = false → Gives (.trip loc t2) s fun t =>
      t.boot.halted = true ∧ t.power.coolAll = 0 ∧ ∀ d, d < 16 → t.coreMv d = 0 ∧ t.sramMv d = 0))

/-- R637 to R641 and R671. -/
def Obligations.ResetsLoseEverythingButTheFuses : Prop :=
  (let z := State.reset
   z.pending = [] ∧ z.frame.counter = 0 ∧ z.frame.locked = false ∧ z.power.excursion = 50000 ∧ z.bights.tab = [] ∧
   z.queues = [] ∧ z.fences = [] ∧ z.reqs = [] ∧ z.mem = [] ∧ Memory.wf z.mem = true ∧ z.errors.causes = 0 ∧
   z.errors.rootstock = false ∧ z.supply.inReset = true ∧ (∀ j, (z.core j).stallLimit = 0 ∧ (z.core j).fflags = 0) ∧
   (∀ d, z.domain d = { state := .off })) ∧
  (∀ s : State,
    let lost := fun (cause : Nat) (low : Bool) => ({ State.reset with
      pending := s.pending, now := s.now, fresh := s.fresh, nextReq := s.nextReq, sent := s.sent, fuses := s.fuses
      frame := { boundaryAt := s.now }
      sram := { retired := s.fuses.retired.map fun c => (c, true) }
      power := { guardStep := (List.range 16).foldl (fun (g : Tab Nat) d => Tab.put 0 g d (s.guardOf d)) [] }
      supply := { s.supply with goodCount := 0, good := false, inReset := true, cause
                                resetInLow := low || s.supply.resetInLow } } : State)
    let up := fun (nonce : Bytes) (t : State) =>
      t.supply = { s.supply with good := true, inReset := false, resetInLow := false } ∧
      t.boot = { s.boot with state := .waitImage, nonce := slice nonce 0 32 } ∧
      (∀ d, t.domain d = if d = 624 ∨ d = 627 ∨ d = 640 then { state := .on } else s.domain d) ∧ t.frame = { s.frame with boundaryAt := s.now } ∧
      t = { s with supply := t.supply, boot := t.boot, domains := t.domains, frame := t.frame, fresh := t.fresh }
    exec .supplyReset s = .next (lost 1 false) ∧ exec .perst s = .next (lost 2 false) ∧ exec .resetIn s = .next (lost 3 true) ∧
    (s.supply.inReset = false → exec .watchdog s = .next (lost 4 false)) ∧
    (s.supply.inReset = true → exec .watchdog s = .next s) ∧
    (∀ via v, Serves s via false true →
      (v = 0x4E475253 → Answers (.dictionaryReset via v) s via 0x00 (lost 5 false)) ∧
      (v ≠ 0x4E475253 → Answers (.dictionaryReset via v) s via 0x06 s)) ∧
    (∀ nonce, s.supply.inReset = true → 200 ≤ s.supply.goodCount → s.supply.resetInLow = false →
      Gives (.supplyGood nonce) s fun t => up nonce t ∧ t.fresh = s.fresh) ∧
    (∀ nonce, s.supply.inReset = false ∨ s.supply.goodCount < 200 ∨ s.supply.resetInLow = true →
      exec (.supplyGood nonce) s = .next s) ∧
    (s.supply.resetInLow = true → s.supply.inReset = true → 200 ≤ s.supply.goodCount →
      Gives .resetInRelease s fun t => ∃ nonce, up nonce t) ∧
    (s.supply.resetInLow = true → s.supply.inReset = false ∨ s.supply.goodCount < 200 →
      exec .resetInRelease s = .next { s with supply := { s.supply with resetInLow := false } }) ∧
    (s.supply.resetInLow = false → exec .resetInRelease s = .next s))

/-- R649 to R658: into and out of Rootstock. -/
def Obligations.RootstockEntryAndExit : Prop :=
  (∀ s : State,
    let e := s.errors
    let entered := fun (t : State) => t.errors.rootstock = true ∧ t.errors.entering = false ∧ t.errors.rootstockAt = s.now ∧
      t.errors.entries = e.entries + 1 ∧ t.errors.causes = e.causes
    (e.entering = false → exec .rootstockEntry s = .next s) ∧
    (e.entering = true → e.causes.getLsbD 1 = true ∨ e.causes.getLsbD 0 = true → Gives .rootstockEntry s fun t =>
      entered t ∧ t.memHold = [] ∧ t.power.reef = false ∧ ∀ q x, t.queue? q = some x → x.running = false) ∧
    (e.entering = true → e.causes.getLsbD 1 = false → e.causes.getLsbD 0 = false → Gives .rootstockEntry s fun t =>
      entered t ∧ t = { s with errors := t.errors }) ∧
    Gives .errorsWindowExpiry s (fun t =>
      let l := e.countedAt.filter fun a => decide (s.now - a < e.windowMs * 1000000)
      t = { s with errors := { e with countedAt := l, causes := if l = [] then e.causes &&& 6 else e.causes } })) ∧
  (∀ (s : State) (via : Via), Serves s via false false →
    let e := s.errors
    (∀ v : BitVec 8,
      (v ≠ 1 → Answers (.rootstockExit via v) s via 0x05 s) ∧
      (v = 1 → e.entering = true → Answers (.rootstockExit via v) s via 0x09 s) ∧
      (v = 1 → e.entering = false → e.rootstock = false ∨ e.causes ≠ 0 → Answers (.rootstockExit via v) s via 0x06 s) ∧
      (v = 1 → e.entering = false → e.rootstock = true → e.causes = 0 → ∃ t : State, Answers (.rootstockExit via v) s via 0x00 t ∧
        t.errors.rootstock = false ∧ t.errors.causes = 0 ∧ t.power.tTh = 0 ∧ t.power.tThAt = s.now)) ∧
    (∀ seq : BitVec 16, ∃ t : State, Answers (.eventLogRemove via seq) s via 0x00 t ∧
      (∀ x, x ∈ t.errors.events ↔ x ∈ e.events ∧ 2 ^ 15 ≤ (seq - x.2.1).toNat) ∧
      t = { s with errors := { e with events := t.errors.events } }))

/-- R294: what the code of R292 and R293 does with one and with two wrong bits. The read sees the stored data bits with `e` inverted
and the stored check bits with `f` inverted; the decoder is given how the check bits differ from those of the data it reads. -/
def Obligations.SramCodeCorrects : Prop :=
  ∀ (w : Word) (b b' : Nat), b < 81 → b' < 81 →
    let inData := fun (b : Nat) => if b < 64 then (1 : Word) <<< b else 0
    let inCheck := fun (b : Nat) => if b < 64 then (0 : BitVec 17) else 1 <<< (b - 64)
    let read := fun (e : Word) (f : BitVec 17) =>
      let d := sramDecode ((sramCheckOf w ^^^ f) ^^^ sramCheckOf (w ^^^ e))
      (d, d.deliver (w ^^^ e))
    read 0 0 = (.clean, some w) ∧
    (∃ x, read (inData b) (inCheck b) = (.corrected x, some w)) ∧
    (b ≠ b' → read (inData b ^^^ inData b') (inCheck b ^^^ inCheck b') = (.bad, none))

/-- R299 to R313: the commands of SRAM protection. -/
def Obligations.SramProtection : Prop :=
  (∀ (s : State) (c bank : Nat),
    (s.sram.writeBacks.find? (fun e => e.1 == 24 * c + bank) = none → exec (.sramWriteBack c bank) s = .next s) ∧
    (∀ k wa w, s.sram.writeBacks.find? (fun e => e.1 == 24 * c + bank) = some (k, wa) →
      (sramDecode (s.sramDisc wa)).deliver (s.sramWord wa) = some w → Gives (.sramWriteBack c bank) s fun t =>
      t.sram = { s.sram with writeBacks := s.sram.writeBacks.filter (· != (k, wa)) } ∧ SameButCharges s t ∧
      (s.retiredWord wa = true → t.mem = s.mem ∧ t.sramCheck = s.sramCheck) ∧
      (s.retiredWord wa = false → t.mem = Memory.write s.mem (8 * wa) (wordBytes w) ∧ t.sramDisc wa = 0 ∧
        ∀ x, x ≠ wa → t.sramDisc x = s.sramDisc x))) ∧
  (∀ (s : State) (c bank : Nat),
    let key := 24 * c + bank
    let next := s.nextUnretired c bank (Tab.look 0 s.sram.pruner key)
    (512 ≤ c ∨ 24 ≤ bank ∨ s.prunerRuns c = false ∨ next = none → exec (.prunerRead c bank) s = .next s) ∧
    (∀ w, c < 512 → bank < 24 → s.prunerRuns c = true → next = some w → Gives (.prunerRead c bank) s fun t =>
      let wa := bankWord c bank (w % 524288)
      t.mem = s.mem ∧ t.sramCheck = s.sramCheck ∧ SameButCharges s t ∧
      (∀ k, Tab.look 0 t.sram.pruner k = if k = key then (w + 1) % 524288 else Tab.look 0 s.sram.pruner k) ∧
      (sramDecode (s.sramDisc wa) = .clean → t.mesh = s.mesh ∧
        t.sram = { s.sram with pruner := t.sram.pruner, passes := t.sram.passes }) ∧
      (∀ x, sramDecode (s.sramDisc wa) = .corrected x → t.sram.corrected = min 0xFFFFFFFF (s.sram.corrected + 1) ∧
        (24 * wordCluster wa + wordBank wa, wa) ∈ t.sram.writeBacks) ∧
      (sramDecode (s.sramDisc wa) = .bad → t.sram.uncorrectable = min 0xFFFFFFFF (s.sram.uncorrectable + 1) ∧
        t.sram.lastBad = 8 * wa ∧ t.sram.writeBacks = s.sram.writeBacks ∧ wa ∈ t.sram.prunerSeen ∧
        t.sram.prunerDue = (if wa ∈ s.sram.prunerSeen then s.sram.prunerDue else wa :: s.sram.prunerDue) ∧
        ((wa, true) ∈ s.sram.history → wa ∈ t.sram.refound) ∧
        ∃ m : LanMsg, t.mesh.lan = s.mesh.lan ++ [m] ∧ m.ty = 9 ∧ m.dest = stopMgmt))) ∧
  (∀ (s : State) (n : Nat),
    ((∀ m, s.mesh.lan[n]? = some m → s.lanNext n m = false ∨ m.ty ≠ 9) → exec (.memerr n) s = .next s) ∧
    (∀ m p0 p1 p2 rest, s.mesh.lan[n]? = some m → s.lanNext n m = true → m.ty = 9 → m.payload = p0 :: p1 :: p2 :: rest →
      let kind := p0.toNat / 2 ^ 28
      let agent := p0.toNat / 2 ^ 24 % 16
      let wa := memerrAddr p1 p2 / 8
      let code := blockCode (wordCluster wa) (wordOffset wa)
      let near := s.sram.reported.filter fun w => blockCode (wordCluster w) (wordOffset w) == code
      let cw := memerrAddr p1 p2 / 64
      let counts := (kind = 2 ∧ (agent = 5 → wa ∈ s.sram.prunerDue)) ∨ (kind = 4 ∧ (agent = 7 → cw ∈ (s.group (cwGroup cw)).patrolDue))
      let earlier := s.errors.countedAt.filter fun a => decide (s.now - a < s.errors.windowMs * 1000000)
      (kind ≠ 2 → kind ≠ 4 → exec (.memerr n) s = .next { s with mesh := { s.mesh with lan := dropAt s.mesh.lan n } }) ∧
      (kind = 2 ∨ kind = 4 → Gives (.memerr n) s fun t =>
        t.mesh = { s.mesh with lan := dropAt s.mesh.lan n } ∧ t.mem = s.mem ∧ (∀ b, t.bight b = s.bight b)) ∧
      (kind = 2 ∨ kind = 4 → ¬ counts → Gives (.memerr n) s fun t => t.errors = s.errors ∧ t.sram.prunerDue = s.sram.prunerDue) ∧
      (counts → Gives (.memerr n) s fun t =>
        t.errors.countedAt = s.now :: earlier ∧
        (s.errors.threshold ≤ earlier.length + 1 → t.errors.causes.getLsbD 0 = true)) ∧
      (kind = 2 → wa ∈ s.sram.refound ∨ (wa ∉ s.sram.reported ∧ 3 ≤ near.length) → Gives (.memerr n) s fun t =>
        code ∈ t.sram.candidates ∨ ∃ e ∈ t.sram.retired, e.1 = code))) ∧
  (∀ (s : State) (region : Nat),
    let held := s.sram.retired.any fun e => e.1 == region
    let known := (s.sram.retired.map (·.1) ++ s.fuses.retired).dedup
    let may := s.frame.selfPolicy = true ∧ region ∈ s.sram.candidates ∧ s.isMember (region / 8192) = false ∧
      region / 8192 ∉ s.memHold ∧ (region ∈ known ∨ known.length < 64)
    (¬ may ∨ held = true → exec (.selfPolicyRetire region) s = .next s) ∧
    (may → held = false → exec (.selfPolicyRetire region) s = .next { s with
      sram := { s.sram with retired := s.sram.retired ++ [(region, false)] } })) ∧
  (∀ (s : State) (via : Via) (v : BitVec 32), Serves s via false true →
    let code := (v.extractLsb' 8 14).toNat * 256 + (v.extractLsb' 0 6).toNat
    let reserved := 16 < (v.extractLsb' 8 5).toNat
    let held := s.sram.retired.any fun e => e.1 == code
    let known := (s.sram.retired.map (·.1) ++ s.fuses.retired).dedup
    (reserved ∨ (code ∉ known ∧ 64 ≤ known.length) → Answers (.retire via v) s via 0x06 s) ∧
    (¬ reserved → held = true → Answers (.retire via v) s via 0x00 s) ∧
    (¬ reserved → held = false → code ∈ known ∨ known.length < 64 → Answers (.retire via v) s via 0x00
      { s with sram := { s.sram with retired := s.sram.retired ++ [(code, false)] } })) ∧
  (∀ (s : State) (c : Nat) (v : Word),
    (512 ≤ c ∨ s.regsOpen 0 = false → exec (.flipArm c v) s = .next s) ∧
    (c < 512 → s.regsOpen 0 = true → Gives (.flipArm c v) s fun t =>
      (∀ k, Tab.look 0 t.sram.flipHi k =
        if k = c then 0x8000000000000000 ||| (v &&& 0x3FFFFF) else Tab.look 0 s.sram.flipHi k) ∧
      t = { s with sram := { s.sram with flipHi := t.sram.flipHi } }))

/-- R317 to R346: the commands of the HBM controllers and port gates. Temperatures are in half degrees. That a patrol read is no
service is the model's reading (log 88). -/
def Obligations.HbmControllerAndGate : Prop :=
  (∀ (s : State) (g : Nat),
    let st := g / 2
    let c := Instr.gateRelease g
    let barred := s.errors.rootstock = true ∨ s.stackHeld st = false
    (64 ≤ g ∨ (s.group g).queue = [] → exec c s = .next s) ∧
    (g < 64 → (s.group g).queue ≠ [] →
      (∀ r l, barred → s.waitingReqs g = r :: l →
        exec c s = .next ((s.dequeue g r).arriveReq r.id (.busError Config.stackOffSub))) ∧
      (¬ barred → s.dom (domStack st) = .low → exec c s = .next (s.reqDom (domStack st) .on)) ∧
      (¬ barred → s.dom (domStack st) = .changing → exec c s = .next s) ∧
      (∀ r x a, ¬ barred → s.dom (domStack st) = .on → s.pickRelease g = (some r, x) → r.target = .hbm a →
        let done := (((s.setGroup g x).dequeue g r).countRelease g r r.payer).accessHbm r a
        exec c s = .next ((done.2.modGroup g fun y => { y with servedAt := done.2.now }).arriveReq r.id done.1)) ∧
      (∀ x, ¬ barred → s.dom (domStack st) = .on → s.pickRelease g = (none, x) → exec c s = .next (s.setGroup g x)))) ∧
  (∀ (s : State) (g : Nat),
    ((s.group g).writeBacks = [] ∨ s.dom (domStack (g / 2)) ≠ .on → exec (.hbmWriteBack g) s = .next s) ∧
    (∀ cw rest errs, (s.group g).writeBacks = cw :: rest → s.dom (domStack (g / 2)) = .on → hbmDecode (s.hbmDisc cw) = some errs →
      Gives (.hbmWriteBack g) s fun t =>
        (∀ k, t.group k = if k = g then { s.group g with writeBacks := rest } else s.group k) ∧ t.hbmDisc cw = 0 ∧
        (∀ x, x ≠ cw → t.hbmDisc x = s.hbmDisc x) ∧
        t.mem = Memory.write s.mem (64 * cw) (vecBytes (hbmFlip (s.hbmWord cw) errs)) ∧
        t = { s with mem := t.mem, hbmCheck := t.hbmCheck, hbm := { s.hbm with groups := t.hbm.groups } })) ∧
  (∀ (s : State) (g : Nat),
    let p := (s.group g).patrol
    let cw := g * 402653184 + p
    let pick := s.pickOf g (headsOf (s.waitingReqs g ++ [{ ownReq (64 * cw) 64 with id := s.nextReq }]))
    (64 ≤ g ∨ s.dom (domStack (g / 2)) ≠ .on ∨ (∀ q, pick.1 = some q → q.id ≠ s.nextReq) → exec (.patrolRead g) s = .next s) ∧
    (∀ q, g < 64 → s.dom (domStack (g / 2)) = .on → pick.1 = some q → q.id = s.nextReq → Gives (.patrolRead g) s fun t =>
      (t.group g).patrol = (p + 1) % 402653184 ∧
      t = { s with hbm := { s.hbm with groups := t.hbm.groups }, mesh := { s.mesh with lan := t.mesh.lan } } ∧
      (hbmDecode (s.hbmDisc cw) = some [] → t.mesh = s.mesh ∧
        ∀ k, t.group k = if k = g then { s.group g with
          patrol := (p + 1) % 402653184, masters := (t.group g).masters, released := (t.group g).released
          lastMaster := (t.group g).lastMaster }
          else s.group k) ∧
      (t.group g).bytes = (s.group g).bytes ∧ (t.group g).servedAt = (s.group g).servedAt ∧
      (∀ m, let y := (t.group g).setting m
        let y0 := (s.group g).setting m
        y.floor = y0.floor ∧ y.weight = y0.weight ∧ y.ceiling = y0.ceiling ∧ y.class0 = y0.class0) ∧
      (∀ e l, hbmDecode (s.hbmDisc cw) = some (e :: l) → cw ∈ (t.group (cwGroup cw)).writeBacks ∧
        (t.group (cwGroup cw)).corrected = min 0xFFFFFFFF ((s.group (cwGroup cw)).corrected + 1)) ∧
      (hbmDecode (s.hbmDisc cw) = none →
        (t.group (cwGroup cw)).uncorrectable = min 0xFFFFFFFF ((s.group (cwGroup cw)).uncorrectable + 1) ∧
        ∃ m : LanMsg, t.mesh.lan = s.mesh.lan ++ [m] ∧ m.ty = 9 ∧ m.dest = stopMgmt))) ∧
  (∀ (s : State) (g : Nat) (h : Int),
    let x := s.group g
    let want := if h < 170 then 0 else if h < 190 then 1 else if h < 210 then 2 else if h < 220 then 3 else 4
    let bound : Int := if x.row = 1 then 170 else if x.row = 2 then 190 else if x.row = 3 then 210 else 220
    (64 ≤ g ∨ s.domOff (domStack (g / 2)) = true → exec (.refreshSample g h) s = .next s) ∧
    let trips := 230 ≤ h ∧ x.temp < 230
    (g < 64 → s.domOff (domStack (g / 2)) = false → trips → Gives (.refreshSample g h) s fun t =>
      t.power.railsDropped = List.range 16 ∧ (s.isReady = true → t.errors.causes.getLsbD 1 = true)) ∧
    (g < 64 → s.domOff (domStack (g / 2)) = false → ¬ trips → Gives (.refreshSample g h) s fun t =>
      (t.group g).temp = h ∧ (∀ k, k ≠ g → t.group k = s.group k) ∧ t.fresh = s.fresh + 1 ∧
      ((t.group g).onDie = x.onDie ∧ (t.group g).severity = x.severity ∨ (t.group g).onDie = x.onDie + 1) ∧
      t.power = (if 170 < h then { s.power with coolAll := 0 } else s.power) ∧
      (x.row < want → (t.group g).row = want ∧ (t.group g).coolSamples = 0) ∧
      (want ≤ x.row → x.row ≠ 0 → h + 6 ≤ bound → 99 ≤ x.coolSamples → (t.group g).row = x.row - 1 ∧ (t.group g).coolSamples = 0) ∧
      (want ≤ x.row → x.row ≠ 0 → h + 6 ≤ bound → x.coolSamples < 99 →
        (t.group g).row = x.row ∧ (t.group g).coolSamples = x.coolSamples + 1) ∧
      (want ≤ x.row → x.row = 0 ∨ bound < h + 6 → (t.group g).row = x.row ∧ (t.group g).coolSamples = 0))) ∧
  (∀ (s : State) (via : Via) (v : BitVec 64), Serves s via false true →
    let g := (v.extractLsb' 0 6).toNat
    let m := (v.extractLsb' 6 9).toNat
    let f := (v.extractLsb' 29 10).toNat
    let w := (v.extractLsb' 39 8).toNat
    let c := (v.extractLsb' 47 11).toNat
    let x := s.group g
    let outOfLimits := (c ≠ 0 ∧ c < f) ∨ 1024 < c ∨ 900 < x.floorSum - (x.setting m).floor + f
    let absent := m < 256 ∧ ((s.bight m).state = .free ∨ (s.bight m).place.holdsGroup g = false)
    (306 < m → Answers (.gateSetting via v) s via 0x05 s) ∧
    (m = 306 ∨ (m < 306 ∧ (absent ∨ outOfLimits)) → Answers (.gateSetting via v) s via 0x06 s) ∧
    (m < 306 → ¬ absent → ¬ outOfLimits → ∃ t : State, Answers (.gateSetting via v) s via 0x00 t ∧
      (∀ k, k ≠ m → Tab.look {} (t.group g).masters k = Tab.look {} x.masters k) ∧
      (let y := Tab.look {} (t.group g).masters m
       y.floor = f ∧ y.weight = w ∧ y.ceiling = c ∧ y.class0 = v.getLsbD 58) ∧
      ∀ k, k ≠ g → t.group k = s.group k))

/-- R257 to R261, R265 and R279: how a bight is lashed and released. A request whose image lies in a stack that is not ON waits for
it (R318). -/
def Obligations.LashAndRelease : Prop :=
  (∀ (s : State) (via : Via) (addr : BitVec 64) (answer : HostAns), Serves s via false false →
    let c := Instr.lash via addr answer
    let s1 := s.readRecord addr.toNat 64
    (s.errors.rootstock = true → Answers c s via 0x06 s) ∧
    (s.errors.rootstock = false → answer = none → Answers c s via 0x00 ((s1.aer 0).reportLash 0 3 0x11)) ∧
    (∀ host, s.errors.rootstock = false → answer = some host →
      let req := slice host 0 64
      let b := leAt req 0 1
      let image := leAt req 8 8
      ((s1.bight b).state ≠ .free → Answers c s via 0x00 (s1.reportLash b 1 0x02)) ∧
      ((s1.bight b).state = .free → image % 65536 ≠ 0 ∨ hbmLimit ≤ image → Answers c s via 0x00 (s1.reportLash b 1 0x01)) ∧
      ((s1.bight b).state = .free → image % 65536 = 0 → image < hbmLimit →
        (∀ e s2, s1.forgetSteps.readShape .base image (leAt req 1 1) = (.error e, s2) → Answers c s via 0x00 (s2.reportLash b 1 e)) ∧
        (∀ s2, s1.forgetSteps.readShape .base image (leAt req 1 1) = (.held, s2) →
          Answers c s via 0x00 { s2 with bights := { s2.bights with lashWaiting := s2.bights.lashWaiting ++ [req] } }) ∧
        (∀ d s2, s1.forgetSteps.readShape .base image (leAt req 1 1) = (.ok d, s2) →
          let p := d.place (leAt req 1 1) (leAt req 2 1) (leAt req 3 1) (BitVec.ofNat 64 (leAt req 0x10 8))
            (BitVec.ofNat 64 (leAt req 0x18 8))
          let hedge := BitVec.ofNat 32 (leAt req 0x24 1 * 2 ^ 24 + leAt req 0x25 1 * 2 ^ 16 + leAt req 0x26 1 * 2 ^ 8 +
            leAt req 0x27 1)
          let code := s2.checkPlace b none hedge d p
          (lashRequestBad req = true → Answers c s via 0x00 (s2.reportLash b 1 0x01)) ∧
          (lashRequestBad req = false → code ≠ 0 → Answers c s via 0x00 (s2.reportLash b 1 code)) ∧
          (lashRequestBad req = false → code = 0 →
            (∀ e, s2.layShape b d p = .error e → Answers c s via 0x00 (s2.reportLash b 1 e)) ∧
            (∀ s3, s2.layShape b d p = .ok s3 → ∃ t, Answers c s via 0x00 t ∧
              (t.bight b).state = .lashing ∧ (t.bight b).place = p ∧ (t.bight b).owner = leAt req 4 2 ∧
              (t.bight b).family = image ∧ (t.bight b).hedge = hedge ∧
              ∀ r ∈ p.routers, (t.router r).claim = some b ∧ (t.router r).next = some (bankOf b d p r))))))) ∧
  (∀ (s : State) (b : Nat),
    let x := s.bight b
    let met := x.state = .lashing ∧ s.needsMet b x.place = true
    (¬ met → exec (.lashComplete b) s = .next s) ∧
    (met → Gives (.lashComplete b) s fun t =>
      t.bight b = { x with state := .lashed, sigma := 0, idleSince := s.now } ∧
      (∀ k, k ≠ b → t.bight k = s.bight k) ∧
      t.mesh = { ((s.switchBanks x.place.routers).switchCircuits b).mesh with
        lan := t.mesh.lan, carried := t.mesh.carried, dropsUnpowered := t.mesh.dropsUnpowered } ∧
      (∃ l : List LanMsg, t.mesh.lan = s.mesh.lan ++ l ∧ ∀ m ∈ l, m.ty = 0xF ∧ m.dest = stopMgmt) ∧
      t.bights.opSeq = s.bights.opSeq + 1 ∧ t.bights.opBight = b ∧ t.bights.opKind = 1 ∧ t.bights.opResult = 0)) ∧
  (∀ (s : State) (via : Via) (v : BitVec 16), Serves s via false false →
    let b := (v.extractLsb' 0 8).toNat
    let x := s.bight b
    let begun := x.state = .releasing ∨ x.due = 2
    (x.state = .free → Answers (.bightRelease via v) s via 0x00 (s.reportLash b 2 0x03)) ∧
    (x.state ≠ .free → begun → Answers (.bightRelease via v) s via 0x00 s) ∧
    (x.state ≠ .free → ¬ begun → Answers (.bightRelease via v) s via 0x00 (s.beginRelease b))) ∧
  (∀ (s : State) (b half : Nat),
    let x := s.bight b
    let quiet := x.relash = none ∧ s.bightQuiet b = true
    (half ∈ x.clearing → quiet → exec (.clear b half) s = .next ((s.clearHalf b half).relashAll 6 b x.place (x.place.stopsIn half)).ownersGo) ∧
    (half ∉ x.clearing ∨ ¬ quiet → exec (.clear b half) s = .next s) ∧
    (x.state = .releasing → x.clearing = [] → quiet →
      exec (.releaseComplete b) s = .next ((s.freeBight b).reportLash b 2 0x00).ownersGo) ∧
    (x.state ≠ .releasing ∨ x.clearing ≠ [] ∨ ¬ quiet → exec (.releaseComplete b) s = .next s) ∧
    ((s.clearHalf b half).bight b).clearing = without x.clearing half ∧ ((s.freeBight b).bight b).state = .free)

/-- R263 to R278 and R287: the phases of a relash. -/
def Obligations.RelashPhases : Prop :=
  (∀ (s : State) (qn : Nat),
    (s.active qn = none → exec (.relash qn) s = .next s) ∧
    (∀ q c, s.active qn = some (q, c) →
      let may := c.phase = .running ∧ c.begun = false ∧ (s.bight q.bight).relash = none ∧ s.power.reef = false ∧
        s.relashAhead q.bight qn c.seq = false
      (∀ r, c.payload = .relash r → may → exec (.relash qn) s = .next (s.checkRelash q.bight qn c.seq q.fn r)) ∧
      (¬ may ∨ (∀ r, c.payload ≠ .relash r) → exec (.relash qn) s = .next s))) ∧
  (∀ (s : State) (b half : Nat),
    let x := s.bight b
    (x.relash = none → exec (.prepare b half) s = .next s ∧ exec (.quiesce b) s = .next s ∧ exec (.drainLimit b) s = .next s ∧
      exec (.commitBoundary b) s = .next s ∧ exec (.switch b) s = .next s ∧ exec (.resume b) s = .next s ∧
      exec (.cancel b) s = .next s) ∧
    (∀ r, x.relash = some r →
      let goes := x.state = .prepare ∧ r.cancelled = false ∧ s.power.reef = false
      let rs := s.unloaded b r.target half
      (goes ∧ rs ≠ [] ∧ s.dom (domHalf half) = .on →
        (∀ e s', s.forgetSteps.readShape (.bight b) x.family r.target.shape = (.error e, s') →
          exec (.prepare b half) s = .next (s'.cancelRelash b e codeRelashRefused)) ∧
        (∀ s', s.forgetSteps.readShape (.bight b) x.family r.target.shape = (.held, s') → exec (.prepare b half) s = .next s') ∧
        (∀ d s', s.forgetSteps.readShape (.bight b) x.family r.target.shape = (.ok d, s') →
          exec (.prepare b half) s = .next ((s'.loadBanks b d r.target rs).relashMsg 1 b r.target (stopHalf half)))) ∧
      (¬ (goes ∧ rs ≠ [] ∧ s.dom (domHalf half) = .on) → exec (.prepare b half) s = .next s) ∧
      (let met := goes ∧ s.allLoaded b r.target = true ∧ s.needsMet b r.target = true
       (met → Gives (.quiesce b) s fun t => (t.bight b).state = .quiesce ∧
         (t.bight b).relash = some { r with quiesceAt := some s.now } ∧ (t.bight b).place = x.place) ∧
       (¬ met → exec (.quiesce b) s = .next s)) ∧
      (let due := x.state = .quiesce ∧ r.kill = false ∧ r.drainLimit ≠ 0 ∧ r.quiesceAt.getD s.now + 1000 * r.drainLimit ≤ s.now
       (due → exec (.drainLimit b) s = .next (s.relashKill b)) ∧ (¬ due → exec (.drainLimit b) s = .next s)) ∧
      (let idle := x.state = .quiesce ∧ s.otherRunning b = []
       (idle → Gives (.commitBoundary b) s fun t =>
         t.bight b = { x with state := .switchover, relash := some { r with boundaryAt := some s.now } } ∧
         ∀ k, k ≠ b → t.bight k = s.bight k) ∧
       (¬ idle → exec (.commitBoundary b) s = .next s)) ∧
      (let met := x.state = .switchover ∧ r.switched = false
       (met → Gives (.switch b) s fun t => (∀ k, t.bight k = (s.switchover b r).bight k) ∧ t.mem = (s.switchover b r).mem ∧
         (∀ k, t.router k = (s.switchover b r).router k) ∧ t.mesh.circuits = (s.switchover b r).mesh.circuits) ∧
       (¬ met → exec (.switch b) s = .next s)) ∧
      (let met := x.state = .switchover ∧ r.switched = true
       (met → x.due = 0 → Gives (.resume b) s fun t =>
         t.bight b = { x with state := .lashed, relash := none, sigma := 0, relashes := x.relashes + 1, relashResult := 0
                              tRelash := s.now - r.boundaryAt.getD s.now, idleSince := s.now } ∧
         ∀ k, k ≠ b → t.bight k = s.bight k) ∧
       (met → x.due ≠ 0 → Gives (.resume b) s fun t => (t.bight b).relash = none ∧ (t.bight b).relashes = x.relashes + 1 ∧
         (t.bight b).clearing = x.place.halves ∧ (t.bight b).due = 0) ∧
       (met → Gives (.resume b) s fun t => ∀ c ∈ (r.left.getD x.place).memberClusters, c ∉ x.place.memberClusters → c < 512 →
         (∀ e ∈ s.sram.retired, e.1 / 8192 ≠ c) → ∀ o, o < sramUsed → Memory.byte t.mem (sramAddr c o) = 0) ∧
       (¬ met → exec (.resume b) s = .next s)) ∧
      (r.cancelled = true → Gives (.cancel b) s fun t => (∀ k, t.bight k = (s.undoRelash b).bight k) ∧
        (∀ k, t.router k = (s.undoRelash b).router k) ∧ t.mem = (s.undoRelash b).mem ∧ (t.bight b).relash = none) ∧
      (r.cancelled = false → exec (.cancel b) s = .next s)))

/-- R427 to R432 and R607: function-level resets and context teardowns. -/
def Obligations.FunctionsAndContextsGo : Prop :=
  (∀ (s : State) (fn : Nat),
    let may := 1 ≤ fn ∧ fn ≤ 63 ∧ s.regsOpen fn = true ∧ fn ∉ s.host.flr
    (¬ may → exec (.functionLevelReset fn) s = .next s) ∧
    (may → s.removing fn = true → exec (.functionLevelReset fn) s = .next { s with
      host := { s.host with flrDue := withOne s.host.flrDue fn } }) ∧
    (may → s.removing fn = false → exec (.functionLevelReset fn) s = .next (s.beginFlr fn) ∧
      (let f := (s.beginFlr fn).fn fn
       f.irqCause = 0 ∧ f.msix = [] ∧ f.pba = 0 ∧ f.errMalformed = 0 ∧ f.errDoorbell = 0 ∧ f.errSignal = 0 ∧ f.errAperture = 0))) ∧
  (∀ s : State,
    (s.regsOpen 0 = false → exec .flrFunction0 s = .next s) ∧
    (s.regsOpen 0 = true → Gives .flrFunction0 s fun t => ∀ w, (t.outWin w).state = 0)) ∧
  (∀ (s : State) (via : Via) (addr : BitVec 64) (answer : HostAns), Serves s via false false →
    let c := Instr.contextTeardown via addr answer
    let s1 := s.readRecord addr.toNat 64
    let s2 := s1.forgetSteps
    let waits := fun (u : State) (rec' : Bytes) =>
      Answers c s via 0x00 { u with host := { u.host with recordWaiting := u.host.recordWaiting ++ [(3, rec')] } }
    (answer = none → Answers c s via 0x00 ((s1.aer 0).reportOp 3 8)) ∧
    (∀ rec', answer = some rec' → s.host.recordWaiting ≠ [] → waits s1 rec') ∧
    (∀ rec', answer = some rec' → s.host.recordWaiting = [] →
      let asid := leAt rec' 0 2
      let bad := 4096 ≤ asid ∨ allZero (slice rec' 2 30) = false
      (bad → Answers c s via 0x00 (s2.reportOp 3 1)) ∧
      (∀ u, ¬ bad → s2.readContext asid = (none, u) → waits u rec') ∧
      (∀ u, ¬ bad → s2.readContext asid = (some none, u) → Answers c s via 0x00 (u.reportOp 3 5)) ∧
      (∀ fn u, ¬ bad → s2.readContext asid = (some (some fn), u) →
        (u.mapOk fn (mapOf rec') = false → Answers c s via 0x00 (u.reportOp 3 6)) ∧
        (u.mapOk fn (mapOf rec') = true → u.torn asid = true → Answers c s via 0x00 (u.reportOp 3 7)) ∧
        (u.mapOk fn (mapOf rec') = true → u.torn asid = false →
          Answers c s via 0x00 (u.beginTeardown asid (mapOf rec')))))) ∧
  (∀ (s : State) (asid : Nat), s.host.tearKills = [asid] →
    (s.tearKilled asid = false → s.teardownCheck = s) ∧
    (s.tearKilled asid = true → s.teardownCheck = ({ s with host := { s.host with tearKills := [] } } : State).teardownBreak asid)) ∧
  (∀ (s : State) (asid : Nat),
    let u := { s with
      queues := List.filter (fun e : Nat × Queue => e.2.asid != asid) s.queues
      host := { s.host with teardowns := Tab.erase s.host.teardowns asid } }
    (s.teardownDue asid = true → exec (.teardownComplete asid) s = .next ((u.reportOp 3 0).cause 0 4).removalStep ∧
      u.torn asid = false ∧ ∀ e ∈ u.queues, e.2.asid ≠ asid) ∧
    (s.teardownDue asid = false → exec (.teardownComplete asid) s = .next s))

/-- R442 to R464, R412 and R494: how commands launch, run and move data. -/
def Obligations.CommandsLaunchAndRun : Prop :=
  (∀ (s : State) (qn : Nat) (answer : HostAns),
    (s.active qn = none → exec (.launch qn answer) s = .next s) ∧
    (∀ q c, s.active qn = some (q, c) →
      let x := s.bight q.bight
      let c0 := { c with writes := [], live := [], saveVa := 0 }
      let s1 := s.forgetSteps
      (c.phase ≠ .waiting → exec (.launch qn answer) s = .next s) ∧
      (c.phase = .waiting → x.launches = false → exec (.launch qn answer) s = .next s1) ∧
      (c.phase = .waiting → x.launches = true → x.permits q.fn = false →
        ((∀ r, c.payload ≠ .relash r) → exec (.launch qn answer) s = .next (s1.endFetched qn c.seq 0x0202)) ∧
        (∀ r, c.payload = .relash r → exec (.launch qn answer) s = .next ((s1.modBight q.bight fun y => { y with
          relashResult := 0x0D, relashSeq := y.relashSeq + 1 }).endFetched qn c.seq codeRelashRefused))) ∧
      (∀ pred, c.phase = .waiting → x.launches = true → x.permits q.fn = true → c.launched = false → c.objlist = 0 →
        c.isRecv = false → s.cmd? qn c.seq = some c → s1.launchTest q.bight c0 = some pred → s1.unheld qn c0 = true →
        s1.mustYield qn q c0 = false → x.idleLow = false → (∀ k ∈ x.place.memberClusters, s.dom k = .on) →
        Gives (.launch qn answer) s fun t => ∃ d, t.cmd? qn c.seq = some d ∧ d.launched = true ∧ d.pred = pred ∧
          d.phase = (if c.isRun then .listed else .running) ∧ d.payload = c.payload ∧
          (c.isRun = true → (qn, c.seq) ∈ (t.bight q.bight).runList)))) ∧
  (∀ (s : State) (qn seq : Nat) (answer : HostAns),
    (s.cmd? qn seq = none → exec (.openCopyDone qn seq answer) s = .next s) ∧
    (∀ q c, s.queue? qn = some q → q.cmd? seq = some c →
      let goes := c.phase = .opening ∧ s.doomed q.bight qn seq = false
      let copied := State.copyEntries (s.whoStream qn q c 0 0) c.copies s.forgetSteps answer
      (¬ goes → exec (.openCopyDone qn seq answer) s = .next s) ∧
      (∀ a s', goes → copied = (.ok a, s') → exec (.openCopyDone qn seq answer) s =
        .next ((s'.modCmd qn seq fun d => { d with copies := [] }).startKind qn c)) ∧
      (∀ s', goes → copied = (.fault, s') → exec (.openCopyDone qn seq answer) s = .next s') ∧
      (∀ k s', goes → copied = (.code k, s') → exec (.openCopyDone qn seq answer) s = .next (s'.failCmd qn seq k)))) ∧
  (∀ (s : State) (qn : Nat) (q : Queue) (c : Cmd) (entry : Nat) (args : Bytes), s.active qn = some (q, c) →
    c.payload = .run entry args →
    let x := s.bight q.bight
    let may := c.phase = .listed ∧ x.runList.head? = some (qn, c.seq) ∧ x.resident = none ∧ x.switching = none ∧
      s.power.reef = false ∧ x.mayRun = true ∧ s.doomed q.bight qn c.seq = false
    (¬ may → exec (.run qn) s = .next s) ∧
    (may → c.saved = true → exec (.run qn) s = .next (s.modBight q.bight fun y =>
      { y with switching := some (none, (qn, c.seq), s.now) })) ∧
    (may → c.saved = false → Gives (.run qn) s fun t =>
      (t.bight q.bight).resident = some (qn, c.seq, s.now) ∧ (t.bight q.bight).switching = none ∧
      ∀ k ∈ s.bightCores q.bight, t.core k = coreStart (x.place.lcore k) (x.place.w * x.place.h) entry)) ∧
  (∀ (s : State) (b : Nat) (head : Nat × Nat) (q seq t : Nat) (c : Cmd) (qu : Queue),
    let x := s.bight b
    x.resident = some (q, seq, t) → x.runList.head? = some head → s.residentCmd b = some (q, qu, c) →
    let due := x.slice ≠ 0 ∧ t + 1000 * x.slice ≤ s.now ∧ s.power.reef = false ∧ x.switching = none ∧
      c.phase = .running ∧ s.doomed b q seq = false
    (¬ due → exec (.sliceEnd b) s = .next s) ∧
    (due → c.direct = true → exec (.sliceEnd b) s = .next (s.holdWait q seq)) ∧
    (due → c.direct = false → exec (.sliceEnd b) s = .next ((s.requestKill q seq 0 0 true).modBight b fun y => { y with
      runList := y.runList ++ [(q, seq)], preempts := y.preempts + 1, switching := some (some (q, seq), head, s.now) }))) ∧
  (∀ (s : State) (b : Nat) (answer : HostAns),
    let x := s.bight b
    (x.switching = none ∨ x.resident ≠ none ∨ x.mayRun = false → exec (.switchDone b answer) s = .next s) ∧
    (∀ o i t, x.switching = some (o, i, t) → x.resident = none → x.mayRun = true →
      let s1 := s.forgetSteps
      (s.outgoing o = none → exec (.switchDone b answer) s = .next (s1.switchIn b i t answer)) ∧
      (∀ oq q c ans s', s.outgoing o = some (oq, q, c) → s1.moveLive oq q c true answer = (.ok ans, s') →
        exec (.switchDone b answer) s = .next (((s'.modCmd oq c.seq fun d => { d with saved := true }).modBight b fun y =>
          { y with switching := some (none, i, t) }).forgetSteps.switchIn b i t ans)))) ∧
  (∀ (s : State) (qn : Nat),
    (s.working qn = none → exec (.move qn) s = .next s ∧ exec (.sendCommand qn) s = .next s ∧ exec (.recvCommand qn) s = .next s) ∧
    (∀ q c, s.working qn = some (q, c) →
      (∀ src dst len lambda, c.payload = .move src dst len lambda →
        (c.begun = false → exec (.move qn) s = .next (s.beginTransfer qn q c lambda (cutTransfer src dst len))) ∧
        (c.begun = true → exec (.move qn) s = .next (s.stepTransfer qn q c false))) ∧
      (∀ src len mode nDst pkt lambda dst, c.payload = .send src len mode nDst pkt lambda dst →
        (c.begun = false → exec (.sendCommand qn) s =
          .next (s.beginTransfer qn q c lambda (sendParts src len mode nDst dst))) ∧
        (c.begun = true → exec (.sendCommand qn) s = .next (s.stepTransfer qn q c (pkt == 1)))) ∧
      (∀ window nSrc rtype out slots inLen outVa seed iBase iRow rowLen z ax,
        c.payload = .recv window 0 nSrc rtype out slots inLen outVa seed iBase iRow rowLen z ax →
        exec (.recvCommand qn) s = .next (s.modCmd qn c.seq fun d => { d with begun := true })) ∧
      (∀ window nSrc rtype out slots inLen outVa seed iBase iRow rowLen z ax,
        c.payload = .recv window 1 nSrc rtype out slots inLen outVa seed iBase iRow rowLen z ax → c.recv.chunks = [] →
        exec (.recvCommand qn) s = .next (s.modCmd qn c.seq fun d => { d with begun := true }))))

/-- R422 to R425 and R444 to R469: how commands wait, commit, are killed and end. -/
def Obligations.CommandsWaitCommitAndEnd : Prop :=
  (∀ (s : State) (qn : Nat),
    (s.working qn = none → exec (.wait qn) s = .next s ∧ exec (.signal qn) s = .next s ∧ exec (.commitGroup qn) s = .next s) ∧
    (∀ q c, s.working qn = some (q, c) →
      (∀ f v, c.payload = .wait f v →
        (s.liveFence f c.bound = none → f = 0xFFFF → exec (.wait qn) s = .next s) ∧
        (s.liveFence f c.bound = none → f ≠ 0xFFFF →
          exec (.wait qn) s = .next (s.endCmd qn c.seq 0x0205 (detailFence f))) ∧
        (∀ x, s.liveFence f c.bound = some x →
          (x.word.getLsbD 63 = true →
            exec (.wait qn) s = .next (s.endCmd qn c.seq (x.word.toNat % 65536) (detailFence f))) ∧
          (x.word.getLsbD 63 = false → v ≤ x.word.toNat →
            exec (.wait qn) s = .next (s.modCmd qn c.seq fun d => { d with begun := true })) ∧
          (x.word.getLsbD 63 = false → x.word.toNat < v → exec (.wait qn) s = .next s))) ∧
      (∀ f v, c.payload = .signal f v →
        (c.begun = true → exec (.signal qn) s = .next s) ∧
        (c.begun = false → exec (.signal qn) s =
          .next (((s.fenceMsg q.bight 1 f (BitVec.ofNat 64 v)).signalFence f c.bound v q.fn qn c.seq).modCmd qn c.seq
            fun d => { d with begun := true })) ∧
        (∀ x, c.begun = false → s.liveFence f c.bound = some x → x.word.getLsbD 63 = false → x.word.toNat < v → v < 2 ^ 63 →
          Gives (.signal qn) s fun t => (t.fence? f).map (·.word) = some (BitVec.ofNat 64 v) ∧
            ∀ g, g ≠ f → t.fence? g = s.fence? g)) ∧
      (∀ expect, c.payload = .commitGroup expect →
        exec (.commitGroup qn) s = .next (s.decideGroup qn q c expect) ∧
        (q.groupDone = 0 → (∀ m ∈ groupMembers q c.seq, m.phase = .held) → (groupMembers q c.seq).length = expect →
          (s.bight q.bight).creg ++ [RegEntry.commit qn c.seq] = ((s.decideGroup qn q c expect).bight q.bight).creg)))) ∧
  (∀ (s : State) (qn seq : Nat),
    (s.cmd? qn seq = none → exec (.commitRequest qn seq) s = .next s) ∧
    (∀ q c, s.queue? qn = some q → q.cmd? seq = some c →
      (s.finished qn q c = false → exec (.commitRequest qn seq) s = .next s) ∧
      (s.finished qn q c = true → Gives (.commitRequest qn seq) s fun t =>
        (t.cmd? qn seq).map (·.phase) = some (if c.grouped then .held else .requested) ∧
        (t.bight q.bight).creg = (if c.grouped then (s.bight q.bight).creg
          else (s.bight q.bight).creg ++ [RegEntry.commit qn seq]) ∧
        (t.bight q.bight).resident = (if c.isRun then none else (s.bight q.bight).resident) ∧ t.mem = s.mem))) ∧
  (∀ (s : State) (b : Nat),
    (∀ q seq rest, (s.bight b).creg = RegEntry.commit q seq :: rest →
      exec (.kill b) s = .next s ∧
      exec (.commit b) s = .next (((s.modBight b fun x => { x with creg := rest }).takeCommit q seq).ownersGo)) ∧
    (∀ q seq code detail rerun rest, (s.bight b).creg = RegEntry.kill q seq code detail rerun :: rest →
      exec (.commit b) s = .next s ∧
      let taken := (s.modBight b fun x => { x with creg := rest }).takeKill q seq code detail rerun
      exec (.kill b) s = .next taken.ownersGo ∧
      (∀ c, s.cmd? q seq = some c → c.live? = true → (taken.cmd? q seq).map (·.phase) = some .killing)) ∧
    ((s.bight b).creg = [] → exec (.commit b) s = .next s ∧ exec (.kill b) s = .next s)) ∧
  (∀ (s : State) (qn seq : Nat),
    exec (.killComplete qn seq) s = .next (s.killDone qn seq).ownersGo ∧
    (∀ q c, s.queue? qn = some q → q.cmd? seq = some c →
      (c.phase ≠ .killing ∨ s.cmdBusy qn c q.bight = true → s.killDone qn seq = s) ∧
      (c.phase = .killing → s.cmdBusy qn c q.bight = false → c.rerun = true → ∃ d, (s.killDone qn seq).cmd? qn seq = some d ∧
        d.phase = .waiting ∧ d.reruns = c.reruns + 1 ∧ d.attempt = c.attempt + 1 ∧ d.begun = false ∧ d.acc = c.acc ∧
        ∀ e, e ∈ ((s.killDone qn seq).bight q.bight).creg ↔ e ∈ (s.bight q.bight).creg ∧ e ≠ .commit qn seq ∧
          ∀ code detail rerun, e = .kill qn seq code detail rerun → code = codeAborted ∨ code = codeOwnerGone) ∧
      (c.phase = .killing → s.cmdBusy qn c q.bight = false → c.rerun = false →
        s.killDone qn seq = (s.commitMsg q.bight 4 qn seq).endCmd qn seq c.code c.detail))) ∧
  (∀ (s : State) (via : Via) (v : BitVec 64), Serves s via false false →
    let qn := (v.extractLsb' 36 12).toNat
    let seq := (v.extractLsb' 0 36).toNat
    let noted := fun (code : Nat) => { s with host := { s.host with
      abortSeq := s.host.abortSeq + 1, abortResult := code, tooLate := if code = 8 then s.host.tooLate + 1 else s.host.tooLate } }
    (s.queue? qn = none → Answers (.abort via v) s via 0x00 (noted 3)) ∧
    (∀ q, s.queue? qn = some q → q.cmd? seq = none → seq < q.next → Answers (.abort via v) s via 0x00 (noted 8)) ∧
    (∀ q, s.queue? qn = some q → q.cmd? seq = none → q.next ≤ seq → Answers (.abort via v) s via 0x00 (noted 3)) ∧
    let late := fun (c : Cmd) => c.phase = .requested ∨ c.live? = false ∨
      (c.phase = .held ∧ ∃ q, s.queue? qn = some q ∧ q.groupRequested seq = true)
    (∀ c, s.cmd? qn seq = some c → late c → Answers (.abort via v) s via 0x00 (noted 8)) ∧
    (∀ c, s.cmd? qn seq = some c → ¬ late c → Answers (.abort via v) s via 0x00
      (if c.phase = .killing then (noted 0).failAlways qn seq 0x0307 else (noted 0).killAny qn seq 0x0307 (detailCmd qn seq)))) ∧
  (∀ (s : State) (qn seq : Nat),
    (s.cmd? qn seq = none → exec (.holdCeiling qn seq) s = .next s) ∧
    (∀ q c, s.queue? qn = some q → q.cmd? seq = some c →
      let due := ∃ a, c.holdSince = some a ∧ a + (s.bight q.bight).holdCeiling * s.frame.period ≤ s.now ∧ c.direct = true ∧
        c.running = true ∧ c.phase ≠ .killing ∧ c.phase ≠ .requested ∧ s.doomed q.bight qn seq = false
      (due → exec (.holdCeiling qn seq) s = .next
        ((s.failCmd qn seq 0x0308).modBight q.bight fun y => { y with holdAborts := y.holdAborts + 1 })) ∧
      (¬ due → exec (.holdCeiling qn seq) s = .next s)))

/-- R391 to R413 and R433: queues, doorbells and descriptors. A doorbell that is accepted sends the message of R410. -/
def Obligations.QueuesAndDoorbells : Prop :=
  (∀ (s : State) (via : Via) (addr : BitVec 64) (answer : HostAns), Serves s via false false →
    let does := fun (c : Instr) =>
      let s0 := s.readRecord addr.toNat 64
      let s1 := s0.forgetSteps
      let ends := fun (code : Nat) (t : State) => Answers c s via 0x00 (t.reportOp 1 code)
      let waits := fun (u : State) (b : Bytes) =>
        Answers c s via 0x00 { u with host := { u.host with recordWaiting := u.host.recordWaiting ++ [(1, b)] } }
      let barredOp := fun (b : Bytes) => s.errors.rootstock = true ∧ (leAt b 2 1 = 1 ∨ leAt b 2 1 = 4)
      (answer = none → ends 8 (s0.aer 0)) ∧
      (∀ b, answer = some b → barredOp b → Answers c s via 0x06 s0) ∧
      (∀ b, answer = some b → ¬ barredOp b → s.host.recordWaiting ≠ [] → waits s0 b) ∧
      (∀ b, answer = some b → s.host.recordWaiting = [] →
        let op := leAt b 2 1
        let n := leAt b 0 2
        let q := queueOf b
        let x := s1.bight q.bight
        let taken := s1.queue? n ≠ none ∨ s1.localQueue q.fn q.localQ ≠ none
        let full := 256 ≤ (s1.queuesOfFn q.fn).length
        let barred := x.state = .free ∨ (x.owner ≠ q.fn ∧ x.owner ≠ 0)
        (s.errors.rootstock = false → op = 1 →
          (createBad b = true → ends 1 s1) ∧
          (createBad b = false → taken → ends 2 s1) ∧
          (createBad b = false → ¬ taken → full → ends 4 s1) ∧
          (createBad b = false → ¬ taken → ¬ full →
            (∀ u, s1.readContext q.asid = (none, u) → waits u b) ∧
            (∀ o u, s1.readContext q.asid = (some o, u) →
              (o ≠ some q.fn → ends 5 u) ∧
              (o = some q.fn → barred → ends 6 u) ∧
              (o = some q.fn → ¬ barred → u.torn q.asid = true → ends 7 u) ∧
              (o = some q.fn → ¬ barred → u.torn q.asid = false → ends 0 (u.setQueue n q))))) ∧
        (op = 2 ∨ op = 3 ∨ (op = 4 ∧ s.errors.rootstock = false) → (4096 ≤ n → ends 1 s1) ∧
          (n < 4096 → s1.queue? n = none → ends 3 s1)) ∧
        (∀ y, n < 4096 → s1.queue? n = some y →
          (op = 2 → y.running = true ∨ y.cmds ≠ [] ∨ s1.torn y.asid = true → ends 7 s1) ∧
          (op = 2 → y.running = false → y.cmds = [] → s1.torn y.asid = false → ends 0 { s1 with queues := Tab.erase s1.queues n }) ∧
          (op = 3 → ends 0 (s1.setQueue n { y with running := false })) ∧
          (op = 4 → s.errors.rootstock = false → ends 0 (s1.setQueue n { y with running := true }))) ∧
        (op = 0 ∨ 4 < op → ends 1 s1))
    does (.queueCreate via addr answer) ∧ does (.queueDestroy via addr answer) ∧ does (.queueStop via addr answer)
    ∧ does (.queueStart via addr answer)) ∧
  (∀ (s : State) (fn i : Nat) (v : Word),
    let tail := v.setWidth 32
    (64 ≤ fn ∨ 256 ≤ i ∨ s.regsOpen fn = false → exec (.doorbell fn i v) s = .next s) ∧
    (fn < 64 → i < 256 → s.regsOpen fn = true →
      let ahead := fun (q : Queue) => s.served q = true ∧ tail ≠ q.tail ∧ (tail - q.tail).toNat + (q.tail - q.head).toNat ≤ 2 ^ q.size
      let found := fun (n : Nat) (q : Queue) => s.localQueue fn i = some (n, q) ∧ n < 4096 ∧ s.queue? n = some q
      (∀ n q, found n q → ahead q → exec (.doorbell fn i v) s = .next (({ s with mesh := { s.mesh with
        carried := { ty := 0, dest := stopMgmt, src := stopPcie (s.portOfFn fn), high := false
                     payload := [BitVec.ofNat 32 (n * 2 ^ 20), tail], at' := s.now } :: s.mesh.carried } } : State).setQueue n
          { q with tail := tail })) ∧
      (s.localQueue fn i = none ∨ (∃ n q, found n q ∧ ¬ ahead q) → Gives (.doorbell fn i v) s fun t =>
        (t.fn fn).errDoorbell = satInc16 (s.fn fn).errDoorbell ∧ t.host.doorbellsDropped = s.host.doorbellsDropped + 1 ∧
        t.queues = s.queues))) ∧
  (∀ (s : State) (n : Nat) (answer : HostAns),
    (s.queue? n = none → exec (.descriptorFetch n answer) s = .next s) ∧
    (∀ q, s.queue? n = some q →
      let s1 := s.send (.hostRead q.fn (s.portOfFn q.fn) (q.ring + 128 * (q.head.toNat % 2 ^ q.size)) 128)
      (s.mayFetch q = false → exec (.descriptorFetch n answer) s = .next s) ∧
      (s.mayFetch q = true → answer = none → exec (.descriptorFetch n answer) s = .next (s1.fetchError n q)) ∧
      (∀ b, s.mayFetch q = true → answer = some b →
        exec (.descriptorFetch n answer) s = .next (s1.takeDescriptor n q (slice b 0 128)) ∧
        (∀ c, s1.commandOf q.fn n q.next (slice b 0 128) = (true, c) → Gives (.descriptorFetch n answer) s fun t =>
          t.queue? n = some { q with head := q.head + 1, next := (q.next + 1) % 2 ^ 36, cmds := q.cmds ++ [c] } ∧
          t.host.malformed = s.host.malformed)))) ∧
  (∀ (s : State) (fn : Nat) (v : Word),
    (64 ≤ fn ∨ s.regsOpen fn = false → exec (.irqCauseClear fn v) s = .next s) ∧
    (fn < 64 → s.regsOpen fn = true → Gives (.irqCauseClear fn v) s fun t =>
      (∀ k, t.fn k = if k = fn then { s.fn fn with irqCause := (s.fn fn).irqCause &&& ~~~(v.extractLsb' 0 6) } else s.fn k) ∧
      t = { s with host := { s.host with fns := t.host.fns } })) ∧
  (∀ (s : State) (via : Via) (fn : Nat) (v : BitVec 8),
    (fn = 0 ∨ 63 < fn → exec (.functionPortWrite via fn v) s = .next s) ∧
    (1 ≤ fn → fn ≤ 63 → Serves s via false true →
      (1 < v.toNat → Answers (.functionPortWrite via fn v) s via 0x05 s) ∧
      (v.toNat ≤ 1 → s.host.vfEnabled ≠ [] → Answers (.functionPortWrite via fn v) s via 0x06 s) ∧
      (v.toNat ≤ 1 → s.host.vfEnabled = [] → ∃ t : State, Answers (.functionPortWrite via fn v) s via 0x00 t ∧
        (t.fn fn).port = v.toNat ∧ (∀ k, k ≠ fn → t.fn k = s.fn k))))

/-- R417 to R429 and R639: fences, and the links to the host. -/
def Obligations.FencesAndHostLink : Prop :=
  (∀ (s : State) (via : Via) (addr : BitVec 64) (answer : HostAns), Serves s via false false →
    let does := fun (c : Instr) =>
      let s0 := s.readRecord addr.toNat 32
      let s1 := s0.forgetSteps
      let ends := fun (code : Nat) (t : State) => Answers c s via 0x00 (t.reportOp 2 code)
      let waits := fun (u : State) (b : Bytes) =>
        Answers c s via 0x00 { u with host := { u.host with recordWaiting := u.host.recordWaiting ++ [(2, b)] } }
      (answer = none → ends 8 (s0.aer 0)) ∧
      (∀ b, answer = some b → s.host.recordWaiting ≠ [] → waits s0 b) ∧
      (∀ b, answer = some b → s.host.recordWaiting = [] →
        let op := leAt b 2 1
        let f := leAt b 0 2
        let asid := leAt b 4 2
        (op = 1 → fenceBad b = true → ends 1 s1) ∧
        (op = 1 → fenceBad b = false → s1.fenceLive f = true → ends 2 s1) ∧
        (∀ u, op = 1 → fenceBad b = false → s1.fenceLive f = false → s1.readContext asid = (none, u) → waits u b) ∧
        (∀ u, op = 1 → fenceBad b = false → s1.fenceLive f = false → s1.readContext asid = (some none, u) → ends 5 u) ∧
        (∀ owner u, op = 1 → fenceBad b = false → s1.fenceLive f = false → s1.readContext asid = (some (some owner), u) →
          (u.torn asid = true → ends 7 u) ∧
          (u.torn asid = false → ∃ t, ends 0 t ∧ (∀ g, g ≠ f → t.fence? g = u.fence? g) ∧
            t.fence? f = some { word := BitVec.ofNat 64 (leAt b 0x10 8), last := BitVec.ofNat 64 (leAt b 0x10 8), asid
                                flags := BitVec.ofNat 8 (leAt b 3 1), vector := leAt b 6 1, mirror := leAt b 8 8
                                share := BitVec.ofNat 64 (leAt b 0x18 8), live := true
                                incarnation := ((u.fence? f).map (·.incarnation)).getD 0 + 1 })) ∧
        (op = 2 → f = 0xFFFF → ends 1 s1) ∧
        (op = 2 → f ≠ 0xFFFF → s1.fenceLive f = false → ends 3 s1) ∧
        (∀ x, op = 2 → f ≠ 0xFFFF → s1.fence? f = some x → x.live = true → ∃ t, ends 0 t ∧ t.fenceLive f = false ∧
          (∀ g, g ≠ f → t.fence? g = s.fence? g) ∧
          (t.fence? f).map (·.word) = some (if x.word.getLsbD 63 then x.word else brokenWord 0x0205 (detailAsid x.asid))) ∧
        (op ≠ 1 → op ≠ 2 → ends 1 s1))
    does (.fenceCreate via addr answer) ∧ does (.fenceDestroy via addr answer)) ∧
  (∀ (s : State) (via : Via) (b : Nat) (v : BitVec 16),
    let c := Instr.errorFenceWrite via b v
    (256 ≤ b → exec c s = .next s) ∧
    (b < 256 → Serves s via false false →
      let x := s.bight b
      let none' := x.state ≠ .free ∧ v = 0xFFFF
      let may := x.state ≠ .free ∧ s.mayUseFence x.owner v.toNat = true
      (none' → Answers c s via 0x00 (s.modBight b fun x => { x with errorFence := none })) ∧
      (¬ none' → may → ∃ t : State, Answers c s via 0x00 t ∧ (t.bight b).errorFence = s.bindFence v.toNat ∧
        ∀ k, k ≠ b → t.bight k = s.bight k) ∧
      (¬ none' → ¬ may → Answers c s via 0x06 s))) ∧
  (∀ (s : State) (p : Nat),
    let stops := fun (p : Nat) (t : State) => ∀ n q, s.queue? n = some q →
      t.queue? n = some (if s.portOfFn q.fn = p then { q with running := false } else q)
    (p ∉ s.host.linkUp → exec (.pcieLinkDown p) s = .next s) ∧
    (p ∈ s.host.linkUp → Gives (.pcieLinkDown p) s fun t => t.host.linkUp = without s.host.linkUp p ∧ stops p t) ∧
    Gives .perstPort1 s (fun t => 1 ∈ t.host.linkUp ∧ (0 ∈ t.host.linkUp ↔ 0 ∈ s.host.linkUp) ∧ stops 1 t)) ∧
  (∀ (s : State) (id : Nat) (answer : HostAns),
    let image := s.boot.imageRead = some id
    let token := s.boot.tokenRead = some id
    let ends := fun (c : Instr) (answer : HostAns) =>
      (∀ r, s.req? id = some r → r.hostPending = false → exec c s = .next s) ∧
      (∀ r, s.req? id = some r → r.hostPending = true → answer = none →
        exec c s = .next ((s.aer r.hostFn).arriveReq id .hostError)) ∧
      (∀ r d, s.req? id = some r → r.hostPending = true → answer = some d →
        exec c s = .next (s.arriveReq id (.data (slice d 0 r.len)))) ∧
      (s.req? id = none → ¬ image → ¬ token → exec c s = .next s) ∧
      (s.req? id = none → image ∨ token → Gives c s fun t =>
        t.boot.imageRead = (if image then none else s.boot.imageRead) ∧
        t.boot.imageData = (if image then answer else s.boot.imageData) ∧
        t.boot.tokenRead = (if ¬ image then none else s.boot.tokenRead) ∧
        t.boot.tokenData = (if ¬ image then answer else s.boot.tokenData) ∧
        t.boot.state = (if s.boot.state = .loading ∧ t.boot.imageRead = none ∧ t.boot.tokenRead = none then .verifying
          else s.boot.state) ∧
        t.sent = (if answer = none then [Sent.aer 0] else []) ++ s.sent ∧ t = { s with boot := t.boot, sent := t.sent })
    ends (.pcieCompletion id answer) answer ∧ ends (.completionTimeout id) none)

/-- R348, R365 to R373, R382, R388 and R433: the translation tables, fault rings and access counters. -/
def Obligations.TablesAndFaultRings : Prop :=
  (∀ (s : State) (via : Via) (v : BitVec 64), Serves s via false true →
    let base := (v.extractLsb' 16 32).toNat * 65536
    let kept := v &&& 0x0000FFFFFFFF0001
    (hbmLimit < base + 65536 → Answers (.contextTableWrite via v) s via 0x05 s) ∧
    (base + 65536 ≤ hbmLimit → s.allFree = false → Answers (.contextTableWrite via v) s via 0x06 s) ∧
    (base + 65536 ≤ hbmLimit → s.allFree = true →
      let t := { s with xlat := { s.xlat with contextTable := kept } }
      Answers (.contextTableWrite via v) s via 0x00 (if t.ctxBase = s.ctxBase then t else t.pinCaches)) ∧
    (hbmLimit < base + 0x1000000 → Answers (.objectTableWrite via v) s via 0x05 s) ∧
    (base + 0x1000000 ≤ hbmLimit → s.allFree = false → Answers (.objectTableWrite via v) s via 0x06 s) ∧
    (base + 0x1000000 ≤ hbmLimit → s.allFree = true → Answers (.objectTableWrite via v) s via 0x00
      { s with xlat := { s.xlat with objectTable := kept } })) ∧
  (∀ (s : State) (fn : Nat),
    let due := ∃ n a, (s.fn fn).batch = some (n, a) ∧ a + 50000 ≤ s.now
    (¬ due → exec (.batchClose fn) s = .next s) ∧
    (due → Gives (.batchClose fn) s fun t => (t.fn fn).batch = none ∧ (t.fn fn).irqCause.getLsbD 1 = true ∧
      (t.fn fn).ringProd = (s.fn fn).ringProd ∧ t.xlat = s.xlat ∧ t.mem = s.mem)) ∧
  (∀ (s : State) (fn : Nat),
    (s.heldFaults fn = [] ∨ (s.fn fn).ringFree = 0 → exec (.heldFaultWrite fn) s = .next s) ∧
    (∀ f l, s.heldFaults fn = f :: l → (s.fn fn).ringFree ≠ 0 → Gives (.heldFaultWrite fn) s fun t =>
      t.xlat.faults = s.xlat.faults.map (fun g => if g = f then { g with tag := some (s.takeTag fn).1 } else g) ∧
      (t.fn fn).ringProd = (s.fn fn).ringProd + 1 ∧ t.xlat.entriesWritten = s.xlat.entriesWritten + 1 ∧ t.mem = s.mem)) ∧
  (∀ (s : State) (fn : Nat) (v : Word),
    (s.regsOpen fn = false → exec (.faultRingEnable fn v) s = .next s) ∧
    (s.regsOpen fn = true → Gives (.faultRingEnable fn v) s fun t =>
      (t.fn fn).ringBase = (v &&& ~~~0xFE0) ||| 0x10 ∧
      (t.fn fn).ringProd = (if (s.fn fn).ringBase.getLsbD 4 then (s.fn fn).ringProd else 0) ∧
      (∀ k, k ≠ fn → t.fn k = s.fn k) ∧ t = { s with host := { s.host with fns := t.host.fns } })) ∧
  (∀ (s : State) (fn : Nat) (tag : BitVec 32),
    (s.regsOpen fn = false → exec (.faultRetry fn tag) s = .next s ∧ exec (.faultFail fn tag) s = .next s) ∧
    (s.regsOpen fn = true → s.taggedFault fn tag = none →
      let t := { s with xlat := { s.xlat with ignored := s.xlat.ignored + 1 } }
      exec (.faultRetry fn tag) s = .next t ∧ exec (.faultFail fn tag) s = .next t) ∧
    (∀ f, s.regsOpen fn = true → s.taggedFault fn tag = some f →
      let now := s.host.regWaiting = [] ∧ s.barWrites (· == fn) = false
      let waits := fun (fail : Bool) =>
        { s with host := { s.host with regWaiting := s.host.regWaiting ++ [.resolve fn tag fail] } }
      (now → exec (.faultRetry fn tag) s = .next (s.retryFault f) ∧ exec (.faultFail fn tag) s = .next (s.failFault f)) ∧
      (¬ now → exec (.faultRetry fn tag) s = .next (waits false) ∧ exec (.faultFail fn tag) s = .next (waits true)) ∧
      f ∉ (s.retryFault f).xlat.faults ∧
      (∀ k, f.requester = .core k → ((s.retryFault f).core k).stall.map (·.1) ≠ some .fault))) ∧
  (∀ (s : State) (die k : Nat),
    let list := Tab.look [] s.xlat.counters die
    ((∀ c, list[k]? = some c → c.count < s.xlat.threshold) → exec (.accessNotification die k) s = .next s) ∧
    (∀ c, list[k]? = some c → s.xlat.threshold ≤ c.count → Gives (.accessNotification die k) s fun t =>
      (Tab.look [] t.xlat.counters die)[k]? = some { c with count := 0 } ∧
      ∀ d, d ≠ die → Tab.look [] t.xlat.counters d = Tab.look [] s.xlat.counters d))

/-- R375 to R397: invalidations, windows and the aperture. -/
def Obligations.InvalidationsAndWindows : Prop :=
  (∀ (s : State) (v : Word),
    let out := (s.xlat.invs.filter fun x => x.origin.isControl).length
    let dropped := { s with xlat := { s.xlat with invDropped := true } }
    let seq := s.xlat.invIssued + 1
    let scope := invScope s.xlat.invAddr v
    let now := s.host.regWaiting = [] ∧ s.barWrites (fun _ => true) = false
    let waits := fun (abort : Bool) =>
      { s with host := { s.host with regWaiting := s.host.regWaiting ++ [.inv abort s.xlat.invAddr v] } }
    (s.regsOpen 0 = false → exec (.invalidateDrain v) s = .next s ∧ exec (.invalidateAbort v) s = .next s) ∧
    (s.regsOpen 0 = true → ¬ now →
      exec (.invalidateDrain v) s = .next (waits false) ∧ exec (.invalidateAbort v) s = .next (waits true)) ∧
    (s.regsOpen 0 = true → now → 16 ≤ out →
      exec (.invalidateDrain v) s = .next dropped ∧ exec (.invalidateAbort v) s = .next dropped) ∧
    (s.regsOpen 0 = true → now → out < 16 →
      Gives (.invalidateDrain v) s (fun t => t.xlat.invIssued = seq ∧ ∃ x, t.xlat.invs = s.xlat.invs ++ [x] ∧
        x.origin = .control seq ∧ x.abort = false ∧ x.kills = [] ∧
        x.waits = (s.reqs.filter fun r => s.usedOld scope r).map (·.id) ∧ x.moves = s.movesIn scope ∧
        ∀ k, k ∈ x.cores ↔ ∃ r ∈ s.reqs, r.owner = .far k ∧ s.storeUnreported r = true ∧
          s.inScope scope r.asid r.page (r.page + 1) = true) ∧
      Gives (.invalidateAbort v) s (fun t => t.xlat.invIssued = seq ∧
        ∃ x ∈ t.xlat.invs, x.origin = .control seq ∧ x.abort = true ∧ x.waits = []))) ∧
  (∀ s : State,
    (s.nextInv s.xlat.invs false = none → exec .invalidationComplete s = .next s) ∧
    (∀ v, s.nextInv s.xlat.invs false = some v →
      let u := { s with xlat := { s.xlat with invs := dropInv v s.xlat.invs } }
      exec .invalidationComplete s = .next (u.invEnded v) ∧
      (∀ seq, v.origin = .control seq → (u.invEnded v).xlat.invDone = seq ∧
        (u.invEnded v).xlat.completed = s.xlat.completed + 1 ∧ ((u.invEnded v).fn 0).irqCause.getLsbD 1 = true) ∧
      (∀ w, v.origin = .window w → ((u.invEnded v).inWin w).state = 0))) ∧
  (∀ (s : State) (port : Nat),
    let s1 := s.forgetSteps
    (s1.nextInbound port = none → exec (.inboundRequest port) s = .next s1) ∧
    (∀ i pk, s1.nextInbound port = some (i, pk) →
      let h := pk.hdr
      let write := h.ty == 2
      let va := (s1.inWin h.window).base + h.offset
      let refused := fun (u : State) (status : Nat) => exec (.inboundRequest port) s = .next ((u.takePacket port 0 i).respond port
        h.tag h.src h.window h.offset write status 0 [] (u.inboundPayer (u.inWin h.window).asid
          ((u.inWin h.window).base + h.offset)))
      (s1.windowRefuses h write = true → refused { s1 with xlat := { s1.xlat with refused := s1.xlat.refused + 1 } } 1) ∧
      (s1.windowRefuses h write = false → s1.meetInbound port h = none → refused s1 1) ∧
      (∀ m, s1.windowRefuses h write = false → s1.meetInbound port h = some m →
        let w := s1.whoInbound port h.window va
        (∀ d u, m.translate w va (max h.len 1) write = (.ok d, u) →
          exec (.inboundRequest port) s = .next (u.startInbound port i pk w d)) ∧
        (∀ r u, m.translate w va (max h.len 1) write = (.fault r, u) →
          exec (.inboundRequest port) s = .next (u.faultFor w va write r)) ∧
        (∀ u, m.translate w va (max h.len 1) write = (.refused, u) → refused u 3) ∧
        (∀ u, m.translate w va (max h.len 1) write = (.hold, u) → exec (.inboundRequest port) s = .next u)))) ∧
  (∀ (s : State) (via : Via) (w : Nat), Serves s via true false →
    (let does := fun (c : Instr) =>
        ((s.inWin w).state ≠ 1 → Answers c s via 0x00 s) ∧
        ((s.inWin w).state = 1 → ∃ t : State, Answers c s via 0x00 t ∧ t.inWin w = { s.inWin w with state := 3 } ∧
          (∀ k, k ≠ w → t.inWin k = s.inWin k) ∧ ∃ x ∈ t.xlat.invs, x.origin = .window w)
     does (.inboundCloseDrain via w) ∧ does (.inboundCloseAbort via w)) ∧
    Answers (.outboundClose via w) s via 0x00 (s.setOutWin w { s.outWin w with state := 0 })) ∧
  (∀ (s : State) (fn offset len : Nat) (data : Option Bytes),
    let n := (data.map (·.length)).getD len
    let c := Instr.apertureAccess fn offset len data
    let reached := n ≠ 0 ∧ offset % 4096 + n ≤ 4096 ∧ offset + n ≤ (if fn = 0 then 2 ^ 36 else 2 ^ 34) ∧ s.fnUp fn = true
    let ur := s.send (.completion fn false none)
    let atomic := data ≠ none ∧ len ≠ 0
    (¬ reached → exec c s = .next s) ∧
    (reached → atomic → exec c s = .next ur) ∧
    (reached → ¬ atomic → s.isReady = false → exec c s = .next (if data.isSome then s else ur)) ∧
    (reached → ¬ atomic → s.isReady = true → (s.fn fn).aper.getLsbD 63 = false → data = none → exec c s = .next ur) ∧
    (reached → ¬ atomic → s.isReady = true → (s.fn fn).aper.getLsbD 63 = false → data ≠ none → Gives c s fun t =>
      (t.fn fn).errAperture = satInc16 (s.fn fn).errAperture ∧ (∀ k, k ≠ fn → t.fn k = s.fn k) ∧ t.mem = s.mem) ∧
    (reached → ¬ atomic → s.isReady = true → (s.fn fn).aper.getLsbD 63 = true →
      let port := (s.entryPort fn).1
      let s1 := (s.entryPort fn).2
      let w := s1.whoAperture fn port ((s.fn fn).aper.extractLsb' 0 12).toNat
      let va := ((s.fn fn).aper.extractLsb' 30 22).toNat * 2 ^ 30 + offset
      port ∈ s.host.linkUp ∧ (fn ≠ 0 → port = (s.fn fn).port) ∧
      (∀ r s', s1.forgetSteps.translate w va n data.isSome = (.fault r, s') →
        exec c s = .next (s'.apertureMiss fn data.isSome)) ∧
      (∀ s', s1.forgetSteps.translate w va n data.isSome = (.hold, s') → exec c s = .next { s' with host := { s'.host with
        apertureWaiting := s'.host.apertureWaiting ++ [{ fn, port, offset, len, data }] } }) ∧
      (∀ d s', s1.forgetSteps.translate w va n data.isSome = (.ok d, s') → Gives c s fun t =>
        let a : Access := { who := w, owner := .aperture fn, master := 256 + port, deadline := s'.stamp
                            write := data.isSome, va, len := n, data := data.getD [] }
        let (id, u) := s'.startAccess a d
        t = (match u.req? id with
          | some r => if r.result = .pending then u else u.arriveReq id r.result
          | none => u))))

/-- R471 to R480: the link layer of a fabric port. -/
def Obligations.LinkPortLayer : Prop :=
  (∀ (s : State) (n width lane : Nat),
    let fits := lane = 0 ∨ (lane = 4 ∧ width ≠ 8)
    ((s.port n).state ≠ 1 ∨ ¬ fits → exec (.trainingDone n width lane) s = .next s) ∧
    ((s.port n).state = 1 → fits → Gives (.trainingDone n width lane) s fun t =>
      t.port n = { s.port n with state := if width = 8 then 2 else 3, width, firstLane := lane
                                 credits := [(0, 4096), (1, 4096), (2, 8192), (3, 1024)] } ∧
      ∀ k, k ≠ n → t.port k = s.port k)) ∧
  (∀ (s : State) (n : Nat),
    let p := s.port n
    ((s.portDown n).port n = { p.emptied 4 with downs := p.downs + 1 } ∧ ((s.portDown n).port n).tx = p.tx ∧
      ((s.portDown n).port n).rx = p.rx ∧ (s.portDown n).portReqs n = [] ∧
      (∀ k, k ≠ n → (s.portDown n).port k = s.port k)) ∧
    (p.state = 1 → exec (.trainingTimeout n) s = .next (s.portDown n)) ∧
    (p.state ≠ 1 → exec (.trainingTimeout n) s = .next s) ∧
    (p.state = 2 ∨ p.state = 3 → exec (.linkErrorDown n) s = .next (s.portDown n)) ∧
    (p.state ≠ 2 → p.state ≠ 3 → exec (.linkErrorDown n) s = .next s) ∧
    (p.state ≠ 4 → exec (.downRetry n) s = .next s) ∧
    (p.state = 4 → Gives (.downRetry n) s fun t => t.port n = { p with state := 1, width := 0 } ∧
      ∀ k, k ≠ n → t.port k = s.port k)) ∧
  (∀ (s : State) (n : Nat) (flit : Bytes) (fec : Fec),
    let p := s.port n
    let c := Instr.flitReceived n flit fec
    let carries := (p.state = 2 ∨ p.state = 3) ∧ flit.length = 256
    let counted := { p with fecCorrected := p.fecCorrected + BitVec.ofNat 32 fec.corrected
                            fecBad := p.fecBad + BitVec.ofNat 32 fec.uncorrectable }
    let good := fec.inBad = false ∧ crc32c (slice flit 0 252) = BitVec.ofNat 32 (leAt flit 252 4)
    (¬ carries → exec c s = .next s) ∧
    (carries → ¬ good → p.nakSent = true → Gives c s fun t => t.port n = counted ∧ t.sent = s.sent) ∧
    (carries → ¬ good → p.nakSent = false → Gives c s fun t =>
      t.port n = { counted with owed := [], nakSent := true } ∧
      t.sent = .flit n (makeFlit 2 0 p.ackField ((List.range 4).map fun v => Tab.look 0 p.owed v) []) :: s.sent) ∧
    (carries → good → exec c s = .next ((s.setPort n counted).goodFlit n flit))) ∧
  (∀ (s : State) (n : Nat),
    let p := s.port n
    let due := (p.state = 2 ∨ p.state = 3) ∧ p.replay ≠ [] ∧ p.ackAt + 4000 ≤ s.now
    (¬ due → exec (.replayTimeout n) s = .next s) ∧
    (due → 16 ≤ p.replays → exec (.replayTimeout n) s = .next (s.portDown n)) ∧
    (due → p.replays < 16 → Gives (.replayTimeout n) s fun t =>
      t.sent = (p.replay.map fun f => Sent.flit n f.2).reverse ++ s.sent ∧
      t.port n = { p with retransmissions := p.retransmissions + BitVec.ofNat 32 p.replay.length, replays := p.replays + 1
                          ackAt := s.now }))

/-- R490 to R492 and R503 to R506: requests between modules, and reductions. -/
def Obligations.LinkRequestsAndReductions : Prop :=
  (∀ (s : State) (n : Nat),
    let does := fun (c : Instr) (write : Bool) =>
      let mine := fun (r : Req) => r.write == write && r.result != .pending && !r.reduce &&
        (match r.owner with | .inbound p _ _ _ _ => p == n || p == 48 | _ => false)
      (s.reqs.find? mine = none → exec c s = .next s) ∧
      (∀ r p tag source w offset, s.reqs.find? mine = some r → r.owner = .inbound p tag source w offset →
        let u := if write = true ∧ r.result.status.1 = 0 then s.noteStored r else s
        exec c s = .next ((u.dropReq r.id).respond p tag source w offset write r.result.status.1 r.result.status.2
          (match r.result with | .data d => d | _ => []) r.pay))
    does (.readReq n) false ∧ does (.write n) true) ∧
  (∀ (s : State) (n : Nat),
    let does := fun (c : Instr) (write : Bool) =>
      let u := s.takePacket n 1 0
      let asked := fun (pk : Packet) => u.reqs.find? fun r => r.write == write && r.result == .pending && r.stage == .there && !r.resend &&
        (match r.target with | .remote _ _ p t => p == n && t == pk.hdr.tag | _ => false)
      (s.headOf n 1 (if write then 4 else 3) = none → exec c s = .next s) ∧
      (∀ pk, s.headOf n 1 (if write then 4 else 3) = some pk →
        (asked pk = none → exec c s = .next u) ∧
        (∀ r, asked pk = some r →
          (pk.hdr.status = 0 → exec c s =
            .next (u.arriveReq r.id (if write then .stored else .data (slice pk.payload 0 r.len)))) ∧
          (pk.hdr.status = 2 → exec c s = .next (u.arriveReq r.id (.busError pk.hdr.sub))) ∧
          (pk.hdr.status = 3 → r.owner ≠ .none → s.now - r.notReady.getD s.now < 2 * s.frame.period → Gives c s fun t =>
            t = u.modReq r.id fun x => { x with notReady := some (r.notReady.getD s.now), resend := true }) ∧
          (pk.hdr.status = 3 → 2 * s.frame.period ≤ s.now - r.notReady.getD s.now →
            exec c s = .next (u.arriveReq r.id .refused)) ∧
          (pk.hdr.status = 1 ∨ 3 < pk.hdr.status → exec c s = .next (u.arriveReq r.id .refused))))
    does (.readData n) false ∧ does (.writeDone n) true) ∧
  (∀ (s : State) (id : Nat),
    let waits := ∃ r w o p t, s.req? id = some r ∧ r.resend = true ∧ r.target = .remote w o p t
    (¬ waits → exec (.notReadyResend id) s = .next s) ∧
    (∀ r w o p t, s.req? id = some r → r.resend = true → r.target = .remote w o p t →
      let v := ({ s with fabric := { s.fabric with resends := s.fabric.resends + 1 } }).modReq id fun x => { x with resend := false }
      (∀ x, v.portOfReq r w o = some x → exec (.notReadyResend id) s = .next (v.sendRemote r w o x)) ∧
      (∀ res u, v.portOfReq r w o = none → v.faultRemote r o = (some res, u) →
        exec (.notReadyResend id) s = .next (u.arriveReq id res)) ∧
      (∀ u, v.portOfReq r w o = none → v.faultRemote r o = (none, u) → exec (.notReadyResend id) s = .next u))) ∧
  (∀ (s : State) (n : Nat),
    let served := (s.arrived n 2).zipIdx.find? fun e => !s.windowHeld n e.1.hdr.window
    (served = none → exec (.reduce n) s = .next s) ∧
    (∀ pk i, served = some (pk, i) →
      let h := pk.hdr
      let answers := fun (st : Nat) (u : State) => exec (.reduce n) s =
        .next ((u.takePacket n 2 i).respond n h.tag h.src h.window h.offset true st 0 []
          ((u.recvOn h.window).map fun e => (e.2.1.bight, e.1, e.2.2.seq)))
      (s.windowRefuses h true = true → answers 1 { s with xlat := { s.xlat with refused := s.xlat.refused + 1 } }) ∧
      (s.windowRefuses h true = false → (s.inWin h.window).redPort ≠ n → answers 1 s) ∧
      (s.windowRefuses h true = false → (s.inWin h.window).redPort = n → s.recvOn h.window = none → answers 3 s) ∧
      (∀ q qu c, s.windowRefuses h true = false → (s.inWin h.window).redPort = n → s.recvOn h.window = some (q, qu, c) →
        answers (s.reduceAt q c n h pk.payload).1 (s.reduceAt q c n h pk.payload).2))) ∧
  (∀ rtype a b : Nat, 1 ≤ rtype → rtype ≤ 6 → a < 2 ^ (8 * elemSize rtype) → b < 2 ^ (8 * elemSize rtype) →
    redJoin rtype a b = redJoin rtype b a)

/-- R497 to R501, R511 to R514: notices between modules. A PACE message carries 16 bits of the frame number (assumption log 181). -/
def Obligations.NoticesAndPace : Prop :=
  (∀ (s : State) (n : Nat) (ty : Nat) (c : Instr),
    (c, ty) ∈ [(Instr.commitNotice n, 0x0A), (.withdraw n, 0x0B), (.abandon n, 0x0C), (.pace n, 0x0D)] →
    s.headOf n 3 ty = none → exec c s = .next s) ∧
  (∀ (s : State) (n : Nat) (pk : Packet),
    let u := s.takePacket n 3 0
    let ignored := { u with fabric := { u.fabric with ignored := u.fabric.ignored + 1 } }
    let a := pk.hdr.attempt
    (s.headOf n 3 0x0A = some pk →
      (u.contributorOf pk.hdr = none → exec (.commitNotice n) s = .next ignored) ∧
      (∀ q c e, u.contributorOf pk.hdr = some (q, c, e) →
        let withdrawn := ∃ w, e.withdrawn = some w ∧ attemptBefore w a = false
        (withdrawn → exec (.commitNotice n) s = .next ignored) ∧
        (¬ withdrawn → exec (.commitNotice n) s =
          .next ((u.putContributor q c.seq { e with notice := some a }).noticeAtSlot q c)))) ∧
    (s.headOf n 3 0x0B = some pk →
      (u.contributorOf pk.hdr = none → exec (.withdraw n) s = .next ignored) ∧
      (∀ q c e, u.contributorOf pk.hdr = some (q, c, e) →
        let later := ∃ m, e.notice = some m ∧ attemptBefore a m = true
        (later → exec (.withdraw n) s = .next ignored) ∧
        (¬ later → ∃ w, exec (.withdraw n) s = .next (u.putContributor q c.seq { e with notice := none, withdrawn := some w }) ∧
          (w = a ∨ e.withdrawn = some w)))) ∧
    (s.headOf n 3 0x0C = some pk →
      (∀ q c e, u.contributorOf pk.hdr = some (q, c, e) → c.phase = .requested → exec (.abandon n) s = .next u) ∧
      (∀ q c e, u.contributorOf pk.hdr = some (q, c, e) → c.phase ≠ .requested →
        exec (.abandon n) s = .next (u.failAlways q c.seq 0x0503)) ∧
      (∀ q m, u.contributorOf pk.hdr = none → u.senderOf pk.hdr = some (q, m) →
        exec (.abandon n) s = .next (u.failAlways q m 0x0503)) ∧
      (u.contributorOf pk.hdr = none → u.senderOf pk.hdr = none → exec (.abandon n) s = .next u)) ∧
    (s.headOf n 3 0x0D = some pk → Gives (.pace n) s fun t =>
      let rate := leAt pk.payload 2 2
      let low := BitVec.ofNat 16 (leAt pk.payload 4 4)
      let notice : Notice := { rate, frame := nearFrame s.frame.counter low }
      let source := pk.hdr.src % 65536
      ∀ i, i < 16 →
        let mine := (s.pace i).count ≠ 0 ∧ (s.pace i).number = leAt pk.payload 0 2
        (¬ mine → t.pace i = s.pace i) ∧
        (mine → t.pace i = (s.pace i).note source notice s.frame.counter s.standing? ∧
          ∃ m ∈ t.mesh.carried, m.ty = 2 ∧ m.dest = stopMgmt ∧ m.src = stopPort n ∧
            m.payload = [BitVec.ofNat 32 (2 * 2 ^ 28 + i * 2 ^ 24 + rate), BitVec.ofNat 32 (source * 65536 + low.toNat)]) ∧
        ∀ k, k < (s.pace i).count → (s.pace i).number = leAt pk.payload 0 2 →
          Tab.look 0xFFFF (s.pace i).members k = source → Tab.find? (s.pace i).notices k = none →
          Tab.find? (t.pace i).notices k = some notice)) ∧
  (∀ (s : State) (g k : Nat),
    let x := s.pace g
    let gone := ∃ n, Tab.find? x.notices k = some n ∧ s.standing? n = false
    (¬ gone → exec (.paceNoticeExpiry g k) s = .next s) ∧
    (gone → Gives (.paceNoticeExpiry g k) s fun t => Tab.find? (t.pace g).notices k = none ∧
      (∀ j, j ≠ k → Tab.find? (t.pace g).notices j = Tab.find? x.notices j) ∧ ∀ h, h ≠ g → t.pace h = s.pace h) ∧
    (x.hold = true ∧ s.holdSpent x = true → Gives (.paceHoldLimit g) s fun t =>
      t.pace g = { x with hold := false, holdOver := true } ∧ ∀ h, h ≠ g → t.pace h = s.pace h) ∧
    (x.hold = false ∨ s.holdSpent x = false → exec (.paceHoldLimit g) s = .next s))

/-- R484 to R487: the key slots of a link port. -/
def Obligations.LinkKeySlots : Prop :=
  ∀ (s : State) (via : Via) (n : Nat), Serves s via true true →
    let p := s.port n
    let due := fun (p : Port) => { p with rekeyDue := match Tab.find? p.tx p.txSel with
      | some k => decide (2 ^ 47 ≤ k.counter)
      | none => false }
    (∀ slot key,
      let q := due { p with tx := Tab.set p.tx slot { key, counter := 0 } }
      Answers (.txKeyWrite via n slot key) s via 0x00
        (((s.setPort n { p with tx := Tab.set p.tx slot { key, counter := 0 } }).noteRekey n).pumpPort n) ∧
      (p.waiting = 0 → ∃ t : State, Answers (.txKeyWrite via n slot key) s via 0x00 t ∧ t.port n = q ∧
        Tab.find? (t.port n).tx slot = some { key, counter := 0 } ∧ (∀ k, k ≠ n → t.port k = s.port k) ∧
        t = { s with fabric := { s.fabric with ports := t.fabric.ports } }) ∧
      (∃ t : State, Answers (.rxKeyWrite via n slot key) s via 0x00 t ∧
        t.port n = { p with rx := Tab.set p.rx slot { key, counter := 0 } } ∧
        Tab.find? (t.port n).rx slot = some { key, counter := 0 } ∧ (∀ k, k ≠ n → t.port k = s.port k))) ∧
    (∀ v : BitVec 8,
      let q := due { p with txSel := if v.getLsbD 0 then 1 else 0 }
      Answers (.transmitSelection via n v) s via 0x00
        (((s.setPort n { p with txSel := v.toNat % 2 }).noteRekey n).pumpPort n) ∧
      (p.waiting = 0 → ∃ t : State, Answers (.transmitSelection via n v) s via 0x00 t ∧ t.port n = q ∧
        (∀ k, k ≠ n → t.port k = s.port k)) ∧
      ∃ t : State, Answers (.receiveSlotInvalidate via n v) s via 0x00 t ∧
        t.port n = { p with rx := (t.port n).rx } ∧ (∀ k, k ≠ n → t.port k = s.port k) ∧
        ∀ slot, Tab.find? (t.port n).rx slot =
          if (slot = 0 ∧ v.getLsbD 0 = true) ∨ (slot = 1 ∧ v.getLsbD 1 = true) then none else Tab.find? p.rx slot)

/-- R516 to R519, R525 to R528, R535 and R538: what is written to the handoff objects, the packets of the handoff and their
resending. MALFORMED is judged on the entry as read from the region (`entryMalformed`, R519's list). A packet matches at most one
slot when the fabric manager gives each handoff of two modules a request and an epoch of its own; that is the premise of the
clauses about a match. -/
def Obligations.HandoffSlotsAndPackets : Prop :=
  (∀ (s : State) (via : Via) (n : BitVec 8), Serves s via true false →
    let i := n.toNat
    let x := s.slot i
    let terminal := 6 ≤ x.state ∧ x.state ≤ 10
    (let c := Instr.slotArm via n
     let ends := fun (u : State) (r : Nat) =>
       Answers c s via 0x00 { u with handoff := { u.handoff with lastOp := opWord u i 1 x.state r } }
     (s.errors.rootstock = true → Answers c s via 0x06 s) ∧
     (s.errors.rootstock = false → s.handoff.region.getLsbD 0 = false → ends s.forgetSteps 0x01) ∧
     (∀ u, s.errors.rootstock = false → s.forgetSteps.slotEntry i = (.bad, u) → ends u 0x01) ∧
     (∀ u, s.errors.rootstock = false → s.forgetSteps.slotEntry i = (.held, u) → Answers c s via 0x00
       { u with handoff := { u.handoff with armWaiting := u.handoff.armWaiting ++ [i] } }) ∧
     (∀ b u, s.errors.rootstock = false → s.forgetSteps.slotEntry i = (.ok b, u) →
       let y : Slot := { entry := b, timerAt := u.now }
       let inUse := leAt b 0 1 % 4 = 2 ∧ ∃ j, j ≠ i ∧ leAt (u.slot j).entry 0 1 % 4 = 2 ∧
         leAt (u.slot j).entry 0x10 1 = leAt b 0x10 1 ∧ (u.slot j).state ≠ 0 ∧ ¬ (6 ≤ (u.slot j).state ∧ (u.slot j).state ≤ 10)
       (u.entryMalformed y = true → ends u 0x01) ∧
       (u.entryMalformed y = false → inUse → ends u 0x02) ∧
       (u.entryMalformed y = false → ¬ inUse → x.state ≠ 0 → ends u 0x09) ∧
       (u.entryMalformed y = false → ¬ inUse → x.state = 0 → ∃ t : State, Answers c s via 0x00 t ∧
         t.slot i = { y with state := 1, entry := splice b 1 [1] } ∧ (∀ j, j ≠ i → t.slot j = u.slot j) ∧
         t.handoff = { u.handoff with slots := t.handoff.slots, lastOp := opWord u i 1 0 0 } ∧
         ∃ v : State, v.handoff.slots = t.handoff.slots ∧
           t.mem = (v.ownWrite (u.handoffBase + 0x4000 + i * 0x400) (List.replicate 1024 0)).mem))) ∧
    (let c := Instr.slotFree via n
     (terminal → x.zeroizing = false → ∃ t : State, Answers c s via 0x00 t ∧
       t.slot i = { x with state := 0, entry := splice x.entry 1 [0] } ∧ (∀ j, j ≠ i → t.slot j = s.slot j) ∧
       t.handoff = { s.handoff with slots := t.handoff.slots, lastOp := opWord s i 2 x.state 0 } ∧
       t.fabric = s.fabric ∧ t.fences = s.fences) ∧
     (¬ terminal ∨ x.zeroizing = true →
       Answers c s via 0x00 { s with handoff := { s.handoff with lastOp := opWord s i 2 x.state 0x09 } })) ∧
    (let c := Instr.slotAbort via n
     let ended := x.ahead = 0 ∨ (6 ≤ x.ahead ∧ x.ahead ≤ 10)
     (ended → Answers c s via 0x00 { s with handoff := { s.handoff with lastOp := opWord s i 3 x.ahead 0x09 } }) ∧
     (¬ ended → Room s i → ∃ v, Moved s i 10 10 x v ∧
       let w := v.slotBreak (v.slot i) 0x0606
       let u := if leAt (v.slot i).entry 0 1 % 4 = 2 then w.zeroize i else w
       Answers c s via 0x00 { u with handoff := { u.handoff with lastOp := opWord u i 3 x.ahead 0 } }) ∧
     (¬ ended → ¬ Room s i → ∃ u, Waits s i 10 10 0x0606 x u ∧
       Answers c s via 0x00 { u with handoff := { u.handoff with lastOp := opWord u i 3 x.ahead 0 } }))) ∧
  (∀ (s : State) (via : Via) (v : BitVec 64), Serves s via true true →
    let c := Instr.handoffRegionWrite via v
    let base := (v.extractLsb' 16 32).toNat * 65536
    (hbmLimit < base + 0x44000 → Answers c s via 0x05 s) ∧
    (base + 0x44000 ≤ hbmLimit → (∃ j, (s.slot j).state ≠ 0) → Answers c s via 0x06 s) ∧
    (base + 0x44000 ≤ hbmLimit → (Tab.vals s.handoff.slots).all (fun (x : Slot) => x.state == 0) = true →
      Answers c s via 0x00 { s with handoff := { s.handoff with region := v &&& 0x0000FFFFFFFF0001 } })) ∧
  (∀ (s : State) (port : Nat),
    (s.headOf port 3 0x10 = none → exec (.offer port) s = .next s) ∧
    (s.headOf port 3 0x11 = none → exec (.taken port) s = .next s) ∧
    (s.headOf port 3 0x12 = none → exec (.release port) s = .next s)) ∧
  (∀ (s : State) (port : Nat) (pk : Packet),
    let u := s.takePacket port 3 0
    let only := fun (dir i : Nat) => Matches u pk dir i ∧ ∀ j, Matches u pk dir j → j = i
    let unmatched := { u with handoff := { u.handoff with unmatched := u.handoff.unmatched + 1 } }
    let ignored := { u with handoff := { u.handoff with ignored := u.handoff.ignored + 1 } }
    (s.headOf port 3 0x10 = some pk →
      let c := Instr.offer port
      ((∀ i, ¬ Matches u pk 2 i) → exec c s = .next unmatched) ∧
      (∀ i, only 2 i →
        let x := u.slot i
        let y := { x with peerSlot := if x.peerSlot = 0xFF then leAt pk.payload 0x0C 1 else x.peerSlot }
        (x.ahead = 1 → exec c s = .next (u.setSlot i { y with offer := some (leAt pk.payload 0x0C 1), timerAt := u.now })) ∧
        (x.ahead = 2 → Room u i → ∃ v, Moved u i 3 4 y v ∧ exec c s = .next (v.slotPacket i 0x11)) ∧
        (x.ahead = 2 → ¬ Room u i → Gives c s (Waits u i 3 4 0 y)) ∧
        (x.ahead = 4 ∨ x.ahead = 5 → x.waiting = [] → exec c s = .next ((u.setSlot i y).slotPacket i 0x11)) ∧
        (x.ahead = 4 ∨ x.ahead = 5 → x.waiting ≠ [] → exec c s = .next (u.setSlot i y)) ∧
        (x.ahead ∉ [1, 2, 4, 5] → exec c s = .next ignored))) ∧
    (s.headOf port 3 0x11 = some pk →
      let c := Instr.taken port
      ((∀ i, ¬ Matches u pk 1 i) → exec c s = .next unmatched) ∧
      (∀ i, only 1 i →
        let x := u.slot i
        let y := { x with peerSlot := if x.peerSlot = 0xFF then leAt pk.payload 0x0D 1 else x.peerSlot }
        (x.ahead = 3 ∨ x.ahead = 5 → Room u i → ∃ v, Moved u i 4 6 y v ∧
          exec c s = .next (((v.slotSignal (v.slot i)).slotPacket i 0x12).zeroize i)) ∧
        (x.ahead = 3 ∨ x.ahead = 5 → ¬ Room u i → Gives c s (Waits u i 4 6 0 y)) ∧
        (x.ahead = 6 → x.waiting = [] → exec c s = .next ((u.setSlot i y).slotPacket i 0x12)) ∧
        (x.ahead = 6 → x.waiting ≠ [] → exec c s = .next (u.setSlot i y)) ∧
        (x.ahead ∉ [3, 5, 6] → exec c s = .next ignored))) ∧
    (s.headOf port 3 0x12 = some pk →
      let c := Instr.release port
      ((∀ i, ¬ Matches u pk 2 i) → exec c s = .next unmatched) ∧
      (∀ i, only 2 i →
        let x := u.slot i
        (x.ahead = 4 ∨ x.ahead = 5 → Room u i → ∃ v, Moved u i 5 7 x v ∧ exec c s = .next (v.slotSignal (v.slot i))) ∧
        (x.ahead = 4 ∨ x.ahead = 5 → ¬ Room u i → Gives c s (Waits u i 5 7 0 x)) ∧
        (x.ahead ≠ 4 → x.ahead ≠ 5 → exec c s = .next ignored)))) ∧
  (∀ (s : State) (i : Nat),
    let x := s.slot i
    let st := if x.state = 5 then x.before else x.state
    let due := x.sentAt + 1000000 ≤ s.now
    let again := fun (ty : Nat) => exec (.handoffResend i) s = .next ((s.setSlot i { x with sentAt := s.now }).slotPacket i ty)
    (due → st = 3 → again 0x10) ∧ (due → st = 4 → again 0x11) ∧
    (¬ due ∨ (st ≠ 3 ∧ st ≠ 4) → exec (.handoffResend i) s = .next s)) ∧
  (∀ (s : State) (i ty p : Nat), ty ∈ [0x10, 0x11, 0x12] →
    let x := s.slot i
    let mine := fun (p : Nat) => p < 48 ∧ s.portUsable p = true ∧
      (if leAt x.entry 0 1 % 4 = 1 then (s.outWin (leAt x.entry 0x10 1)).ports.getLsbD p = true
       else (leAt x.entry 0x20 8).testBit p = true)
    let slots := if leAt x.entry 0 1 % 4 = 1 then leBytes 1 i ++ leBytes 1 (if ty = 0x10 then 0xFF else x.peerSlot)
      else leBytes 1 x.peerSlot ++ leBytes 1 i
    let payload := leBytes 8 (leAt x.entry 8 8) ++ leBytes 4 (leAt x.entry 4 4) ++ slots ++ leBytes 2 0
    ((∀ q, ¬ mine q) → s.slotPacket i ty = s) ∧
    (mine p → (∀ q, q < p → ¬ mine q) → s.slotPacket i ty = s.sendPacket p
      { ty, len := 16, dst := leAt x.entry 2 2, src := s.fabric.number
        epoch := if ty = 0x10 then epochOf x.bindQueue x.bindSeq else 0, attempt := if ty = 0x10 then x.attempt else 0
        window := if ty = 0x10 then (s.outWin (leAt x.entry 0x10 1)).window else 0 } payload))

/-- R523 and R528 to R531, R534: what timers, the copies of a prefetch, verdicts and the report queue do to a slot. The order of
STATE before STALE is R519's (assumption log 109), and what WON, LOST and FAILED answer is log 112. -/
def Obligations.HandoffTimersAndVerdicts : Prop :=
  (∀ (s : State) (i : Nat),
    let x := s.slot i
    let late := x.timerAt + leAt x.entry 0x31 1 * s.frame.period ≤ s.now
    let held := x.waiting = [] ∧ x.timerAt + leAt x.entry 0x34 2 * 1000000 ≤ s.now
    let times := leAt x.entry 0 1 % 4 = 2 ∧ x.state = 1 ∧ x.waiting = [] ∧ late
    let query := fun (c : Instr) (due : Prop) =>
      (due → Room s i → Gives c s (Moved s i 6 5 x)) ∧ (due → ¬ Room s i → Gives c s (Waits s i 6 5 0 x)) ∧
      (¬ due → exec c s = .next s)
    (times → x.recv = none → Room s i → ∃ v, Moved s i 9 10 x v ∧
      exec (.handoffTimeout i) s = .next ((v.slotBreak (v.slot i) 0x0603).zeroize i)) ∧
    (times → x.recv = none → ¬ Room s i → Gives (.handoffTimeout i) s (Waits s i 9 10 0x0603 x)) ∧
    (∀ q n, times → x.recv = some (q, n) →
      exec (.handoffTimeout i) s = .next ((s.failAlways q n 0x0603).slotGo i 9 10 0x0603)) ∧
    (¬ times → exec (.handoffTimeout i) s = .next s) ∧
    query (.heldTimeout i) (x.state ∈ [2, 3, 4] ∧ held) ∧ query (.queryRepeat i) (x.state = 5 ∧ held)) ∧
  (∀ (s : State) (via : Via) (v : BitVec 64), Serves s via true false →
    let i := (v.extractLsb' 56 8).toNat
    let owner := (v.extractLsb' 32 16).toNat
    let x := s.slot i
    let send := leAt x.entry 0 1 % 4 = 1
    let own := owner = s.fabric.number
    let peer := owner = leAt x.entry 2 2
    let st := x.ahead
    let won := send ∧ st ∈ [1, 3, 5] ∧ own
    let lostSend := send ∧ st ∈ [1, 3, 5] ∧ ¬ own ∧ peer
    let owned := ¬ send ∧ st ∈ [2, 4, 5] ∧ own
    let lostRecv := ¬ send ∧ ((st ∈ [2, 4, 5] ∧ ¬ own) ∨ st = 1) ∧ peer
    let already := (send ∧ st = 6 ∧ peer) ∨ (¬ send ∧ st = 7 ∧ own) ∨ (st = 8 ∧ own) ∨ (st = 9 ∧ peer) ∨
      (st = 10 ∧ ((send ∧ own) ∨ (¬ send ∧ peer)))
    let applies := won ∨ lostSend ∨ owned ∨ lostRecv ∨ already
    let stale := (v.extractLsb' 0 32).toNat < leAt x.entry 4 4
    let ends := fun (u : State) (r : Nat) => Answers (.verdict via v) s via 0x00
      { u with handoff := { u.handoff with lastOp := opWord u i 4 st r } }
    (¬ applies → ends s 0x09) ∧
    (applies → stale → ends s 0x0A) ∧
    (already → ¬ stale → ends s 0x00) ∧
    (won → ¬ stale → ends ((s.slotGo i 7 8 0x0604).killAny x.bindQueue x.bindSeq 0x0604 (detailCmd x.bindQueue x.bindSeq)) 0x00) ∧
    (lostSend → ¬ stale → ends (s.slotGo i 8 9 0x0605) 0x00) ∧
    (owned → ¬ stale → Room s i → ∃ u, Moved s i 5 7 x u ∧ ends (u.slotSignal (u.slot i)) 0x00) ∧
    (owned → ¬ stale → ¬ Room s i → ∃ u, Waits s i 5 7 0 x u ∧ ends u 0x00) ∧
    (lostRecv → ¬ stale → x.recv = none → ends (s.slotGo i 8 9 0x0605) 0x00) ∧
    (∀ q n, lostRecv → ¬ stale → x.recv = some (q, n) → ends ((s.slotGo i 8 9 0x0605).failAlways q n 0x0605) 0x00) ∧
    (Room s i → ∃ u, Moved s i 8 9 x u ∧ s.slotGo i 8 9 0x0605 = (u.slotBreak (u.slot i) 0x0605).zeroize i) ∧
    (¬ Room s i → Waits s i 8 9 0x0605 x (s.slotGo i 8 9 0x0605)) ∧
    let copy := leAt x.entry 0x18 8 ≠ 0
    let room := x.waiting = [] ∧ s.handoff.reports.length < (if copy then 64 else 63)
    (room → ∃ u, Moved s i 7 8 x u ∧
      let w := u.slotBreak (u.slot i) 0x0604
      s.slotGo i 7 8 0x0604 = if copy then w else w.postReport i 11) ∧
    (¬ room → Waits s i 7 8 0x0604 x (s.slotGo i 7 8 0x0604))) ∧
  (∀ (s : State) (via : Via) (seq : BitVec 16), Serves s via true false →
    let left := { s with handoff := { s.handoff with
      reports := s.handoff.reports.filter fun (e : BitVec 16 × Bytes) => decide (2 ^ 15 ≤ (seq - e.1).toNat) } }
    Answers (.reportRemove via seq) s via 0x00 left.slotWaiting ∧
    ((∀ j, (s.slot j).waiting = []) → Answers (.reportRemove via seq) s via 0x00 left)) ∧
  (∀ (s : State) (i : Nat),
    let x := s.slot i
    let may := x.zeroizing = true ∧ s.handoff.reports.length < 64 ∧ s.errors.rootstock = false ∧ s.slotHeld x = false
    (¬ may → exec (.zeroizeDone i) s = .next s) ∧
    (may →
      let zeroed := State.zeroPages (whoZeroize x) ((s.contextFn x.asid).getD 0) (s.slotPages x) s.forgetSteps
      (∀ u, zeroed = (false, u) → exec (.zeroizeDone i) s = .next u) ∧
      (∀ u, zeroed = (true, u) → Gives (.zeroizeDone i) s fun t =>
        t.slot i = { x with zeroizing := false, entry := splice x.entry 1 [BitVec.ofNat 8 x.state] } ∧
        (∀ j, j ≠ i → t.slot j = u.slot j) ∧
        t.handoff.reports = u.handoff.reports ++ [(u.handoff.nextReport, leBytes 8 x.request ++ leBytes 4 x.epoch ++ leBytes 1 i ++
          leBytes 1 12 ++ leBytes 2 x.peer)]))) ∧
  (∀ (s : State) (i : Nat) (answer : HostAns),
    let x := s.slot i
    let c := Instr.prefetchCopyDone i answer
    (x.recv = none → exec c s = .next s) ∧
    (∀ qn seq, x.recv = some (qn, seq) → s.working qn = none → exec c s = .next s) ∧
    (∀ qn seq q d, x.recv = some (qn, seq) → s.working qn = some (q, d) →
      let next := fun (l : Nat) => l < leAt x.entry 0x30 1 ∧ l ∉ d.recv.copied ∧ (∀ k, k < l → k ∈ d.recv.copied) ∧
        s.layerCount i l = leAt x.entry 0x14 4 * 65536
      (d.seq ≠ seq ∨ d.recv.slot ≠ some i ∨ (∀ l, ¬ next l) → exec c s = .next s) ∧
      (∀ l, d.seq = seq → d.recv.slot = some i → next l →
        let o := l * (leAt x.entry 0x14 4 * 65536)
        let copied := State.copyVirt { s.whoStream qn q d 0 0 with asid := x.asid } (leAt x.entry 0x14 4 * 65536 / 4096) s.forgetSteps
          (leAt x.entry 0x18 8 + o) (leAt x.entry 0x28 8 + o) answer
        (∀ u, copied = (.fault, u) → exec c s = .next u) ∧
        (∀ e u, copied = (.code e, u) → exec c s = .next (u.failCmd qn seq e)) ∧
        (∀ a u, copied = (.ok a, u) → exec c s = .next (u.modCmd qn seq fun d => { d with recv := { d.recv with
          copied := d.recv.copied ++ [l] } })))))

/-- R576 to R583, R588 and R641 to R643: from GO to READY. A token that an earlier GO took keeps the vendor-debug state (R584). -/
def Obligations.BootToReady : Prop :=
  (∀ (s : State) (port : Nat) (v : Word),
    let starts := port ∈ s.host.linkUp ∧ v.getLsbD 0 = true ∧ (s.boot.state = .waitImage ∨ s.boot.state = .rejected) ∧
      s.boot.halted = false
    let aligned := fun (w : Word) => w.toNat / 4096 * 4096
    let named := s.boot.token.toNat / 4096 ≠ 0
    (starts → Gives (.bootGo port v) s fun t =>
      t.boot = { s.boot with goPort := port, state := .loading, imageData := none, tokenData := none
                             imageRead := some s.nextReq, tokenRead := if named then some (s.nextReq + 1) else none } ∧
      t.sent = (if named then [Sent.hostRead 0 port (aligned s.boot.token) 16672] else []) ++
        Sent.hostRead 0 port (aligned s.boot.image) (s.boot.len.toNat % 2 ^ 26) :: s.sent ∧
      t = { s with boot := t.boot, sent := t.sent, nextReq := s.nextReq + 2 }) ∧
    (¬ starts → exec (.bootGo port v) s = .next s)) ∧
  (∀ s : State,
    let c := Instr.imageVerified
    let image := s.boot.imageData
    let token := s.boot.tokenData
    let len := s.boot.len.toNat % 2 ^ 26
    let img := slice (image.getD []) 0 len
    let signed := leAt img 0xC 4
    let message := slice img 0 signed
    let rsa := slice img signed 384
    let slh := slice img (signed + 384) 16224
    let named := s.boot.token.toNat / 4096 ≠ 0
    let judged := fun (t : State) =>
      (¬ named → t.boot.tokenResult = 0 ∧ t.boot.vendorDebug = s.boot.vendorDebug ∧ t.boot.scope = s.boot.scope) ∧
      (named → token = none → t.boot.tokenResult = s.boot.tokenResult ∧ t.boot.vendorDebug = s.boot.vendorDebug ∧
        t.boot.scope = s.boot.scope) ∧
      (∀ k, named → token = some k →
        (s.fuses.debugDisabled = true → t.boot.tokenResult = 6) ∧ t.boot.tokenResult = s.tokenCheck k ∧
        (t.boot.tokenResult = 1 → t.boot.vendorDebug = true ∧ t.boot.scope = BitVec.ofNat 32 (leAt k 0x38 4)) ∧
        (t.boot.tokenResult ≠ 1 → t.boot.vendorDebug = s.boot.vendorDebug ∧ t.boot.scope = s.boot.scope))
    let rejects := fun (code : Nat) => Gives c s fun t =>
      t.boot = { s.boot with state := .rejected, reject := code, imageData := none, tokenData := none
                             tokenResult := t.boot.tokenResult
                             vendorDebug := t.boot.vendorDebug, scope := t.boot.scope } ∧
      judged t ∧ t.fuses = s.fuses ∧ t.errors.causes = s.errors.causes ||| 4 ∧
      (s.errors.rootstock = false → t.errors.entering = true) ∧
      t.security = (if len < 17632 then s.security else { s.security with reportSeq := s.security.reportSeq + 1 }) ∧
      (len < 17632 → t.fresh = s.fresh) ∧
      t = { s with boot := t.boot, errors := t.errors, security := t.security, sent := t.sent, fresh := t.fresh }
    let failed := image = none ∨ (named ∧ token = none)
    let long := leAt img 8 4 ≠ len ∨ 0x2000000 < len
    let formed := imageFormatOk img = true
    let keyed := Crypto.sha384 (slice img 0x100 384) = s.fuses.fwRsaDigest ∧ Crypto.sha384 (slice img 0xA0 48) = s.fuses.fwSlhDigest
    let fresh := s.fuses.rollback ≤ leAt img 0x14 1
    let signedRsa := Crypto.rsaVerify (slice img 0x100 384) message rsa = true
    let signedSlh := Crypto.slhVerify (slice img 0xA0 48) (beBytes 48 (Crypto.sha384 message).toNat) slh = true
    (s.boot.state ≠ .verifying ∨ s.boot.halted = true → exec c s = .next s) ∧
    (s.boot.state = .verifying → s.boot.halted = false →
      (failed → rejects 1) ∧
      (¬ failed → long → rejects 1) ∧
      (¬ failed → ¬ long → ¬ formed → rejects 2) ∧
      (¬ failed → ¬ long → formed → ¬ keyed → rejects 3) ∧
      (¬ failed → ¬ long → formed → keyed → ¬ fresh → rejects 4) ∧
      (¬ failed → ¬ long → formed → keyed → fresh → ¬ signedRsa → rejects 5) ∧
      (¬ failed → ¬ long → formed → keyed → fresh → signedRsa → ¬ signedSlh → rejects 6) ∧
      (¬ failed → ¬ long → formed → keyed → fresh → signedRsa → signedSlh → Gives c s fun t =>
        judged t ∧
        t = { s with boot := { s.boot with
          state := .starting, imageData := none, tokenData := none, fwVersion := BitVec.ofNat 32 (leAt img 0x10 4), svn := leAt img 0x14 1, floor := leAt img 0x15 1
          buildId := BitVec.ofNat 64 (leAt img 0x18 8), imageDigest := Crypto.sha384 message
          tokenResult := t.boot.tokenResult, vendorDebug := t.boot.vendorDebug, scope := t.boot.scope } }))) ∧
  (∀ (s : State) (failed : BitVec 32),
    let met := s.boot.state = .starting ∧ s.boot.halted = false ∧ s.supply.converters = true
    (¬ met → exec (.ready failed) s = .next s) ∧
    (met → Gives (.ready failed) s fun t =>
      t.boot = { s.boot with state := .ready, stepAt := s.now } ∧ t.fuses = s.fuses ∧
      (∀ d, d < 16 → t.domain (624 + d) = { state := .on }) ∧ (∀ h, h < 32 → t.domain (512 + h) = { state := .on }) ∧
      (∀ st, st < 32 → failed.getLsbD st = false → t.domain (544 + st) = { state := .low }) ∧
      (∀ st, st < 32 → failed.getLsbD st = true → t.domain (544 + st) = s.domain (544 + st) ∧ t.hbm.failed.getLsbD st = true) ∧
      (∀ i, i < 512 ∨ (576 ≤ i ∧ i < 624) ∨ 640 ≤ i → t.domain i = s.domain i) ∧
      t.errors.events.getLast?.map (fun e => (e.2.2.1, e.2.2.2)) = some (0x0001, BitVec.ofNat 64 s.supply.cause))) ∧
  (∀ s t : State, s.pending = [] → step s = .next t →
    let blown := s.isReady = true ∧ s.fuses.rollback < s.boot.floor ∧ s.boot.stepAt + 1000000 ≤ s.now + 1
    (blown → t.fuses.rollback = s.fuses.rollback + 1 ∧ t.boot = { s.boot with stepAt := s.now + 1 }) ∧
    (¬ blown → t.fuses.rollback = s.fuses.rollback ∧ t.boot = s.boot))

/-- R572, R582 and R589 to R593: the debug fuse, attestation reports and measurements of a bight. -/
def Obligations.AttestationAndMeasurement : Prop :=
  (∀ (s : State) (via : Via) (v : BitVec 32), Serves s via true true →
    (v = 0x4E474444 → Answers (.debugDisable via v) s via 0x00 { s with fuses := { s.fuses with debugDisabled := true } }) ∧
    (v ≠ 0x4E474444 → Answers (.debugDisable via v) s via 0x06 s)) ∧
  (∀ (s : State) (via : Via) (nonce : Bytes), Serves s via true false →
    let c := Instr.reportRequest via nonce
    let bights := if s.errors.rootstock = true then [] else List.filter (fun e : Nat × Bight => decide (e.2.state ≠ .free)) s.bights.tab
    (nonce.length ≠ 32 → Answers c s via 0x04 s) ∧
    (nonce.length = 32 → s.security.generating ≠ none → Answers c s via 0x09 s) ∧
    (nonce.length = 32 → s.security.generating = none → ∃ m : Bytes,
      Answers c s via 0x00 { s with security := { s.security with generating := some m, reportState := 1, report := [] } } ∧
      m.length = 1024 + 320 * bights.length ∧
      leAt m 0 4 = 0x4E474152 ∧ leAt m 4 2 = 1 ∧ leAt m 6 2 = bights.length % 2 ^ 16 ∧
      leAt m 8 4 = (1024 + 320 * bights.length + 16608) % 2 ^ 32 ∧ leAt m 0xC 4 = (s.security.reportSeq + 1).toNat ∧
      slice m 0x10 32 = nonce ∧ leAt m 0x40 2 = 0x4E30 ∧ leAt m 0x48 8 = s.frame.counter.toNat ∧
      slice m 0x50 48 = beBytes 48 s.fuses.romDigest.toNat ∧ slice m 0x80 48 = beBytes 48 s.boot.imageDigest.toNat ∧
      leAt m 0xB0 4 = s.boot.fwVersion.toNat ∧ leAt m 0xB5 1 = s.fuses.rollback % 256 ∧
      (leAt m 0xB6 1).testBit 0 = s.boot.vendorDebug ∧ (leAt m 0xB6 1).testBit 1 = s.fuses.debugDisabled ∧
      (leAt m 0xB6 1).testBit 3 = s.errors.rootstock ∧
      ∀ k e, bights[k]? = some e → slice m (1024 + 320 * k) 320 = bightRecord e.1 e.2)) ∧
  (∀ s : State,
    (s.security.generating = none → exec .reportReady s = .next s) ∧
    (∀ m, s.security.generating = some m → Gives .reportReady s fun t =>
      ∃ (rsa slh salt random : Bytes), rsa.length = 384 ∧ slh.length = 16224 ∧ salt.length = 48 ∧ random.length = 24 ∧
        rsa = Crypto.rsaSign s.fuses.rsaModulus s.fuses.rsaPrivate m salt ∧
        slh = Crypto.slhSign (slice s.fuses.slhPrivate 0 24) (slice s.fuses.slhPrivate 24 24) s.fuses.slhPub
          (beBytes 48 (Crypto.sha384 m).toNat) random ∧
        t = { s with fresh := t.fresh, security := { s.security with
          generating := none, reportState := 2, reportSeq := s.security.reportSeq + 1, report := m ++ (rsa ++ slh) } })) ∧
  (∀ (b : Nat) (x : Bight),
    let r := bightRecord b x
    r.length = 320 ∧ leAt r 0 1 = b % 256 ∧ leAt r 2 1 = x.owner % 256 ∧ leAt r 8 8 = x.place.groups.toNat ∧
    leAt r 0x10 8 = x.place.ports.toNat ∧ (leAt r 0x18 1).testBit 0 = x.program.isSome ∧
    slice r 0x20 48 = beBytes 48 (x.program.getD 0).toNat ∧
    ∀ i, i < 4 → (leAt r 0x18 1).testBit (i + 1) = (Tab.find? x.weights i).isSome ∧
      slice r (0x50 + 48 * i) 48 = beBytes 48 ((Tab.find? x.weights i).elim 0 fun e => e.1).toNat) ∧
  (∀ (s : State) (via : Via) (r : Bytes), Serves s via true true →
    let c := Instr.measure via r
    let b := leAt r 0 1
    let kind := leAt r 1 1
    let asid := leAt r 4 2
    let va := leAt r 8 8
    let len := leAt r 0x10 8
    let shown := fun (k : Nat) => { s.security with measureSeq := s.security.measureSeq + 1, measureBight := b, measureResult := k }
    let malformed := leAt r 3 1 ≠ 0 ∨ leAt r 6 2 ≠ 0 ∨ leAt r 0x18 8 ≠ 0 ∨ 3 < leAt r 2 1 ∨
      (kind = 1 ∧ (asid ≠ 0 ∨ va ≠ 0 ∨ len ≠ 0)) ∨
      (kind = 2 ∧ (va = 0 ∨ len = 0 ∨ va % 65536 ≠ 0 ∨ len % 65536 ≠ 0)) ∨ (kind ≠ 1 ∧ kind ≠ 2)
    let foreign := kind = 2 ∧ s.contextFn asid ≠ some (s.bight b).owner
    let isOpen := kind = 2 ∧ ∃ e ∈ s.leavesOf asid va len, leafShadow e.2.2 = true ∧
      (s.object (leafF e.2.2 44 20)).isOpen = true
    let ends := fun (k : Nat) => Answers c s via 0x00 { s with security := shown k }
    (r.length ≠ 32 → Answers c s via 0x04 s) ∧
    (r.length = 32 →
      (malformed → ends 1) ∧
      (¬ malformed → (s.bight b).state = .free → ends 2) ∧
      (¬ malformed → (s.bight b).state ≠ .free → foreign → ends 1) ∧
      (¬ malformed → (s.bight b).state ≠ .free → ¬ foreign → s.security.measuring ≠ none → ends 3) ∧
      (¬ malformed → (s.bight b).state ≠ .free → ¬ foreign → s.security.measuring = none → isOpen → ends 5) ∧
      (¬ malformed → (s.bight b).state ≠ .free → ¬ foreign → s.security.measuring = none → ¬ isOpen →
        Answers c s via 0x00 { s with security := { shown 0 with
          measuring := some { bight := b, kind, index := leAt r 2 1, asid, va, len } } }))) ∧
  (∀ (s : State) (answer : HostAns),
    let c := Instr.measureDone answer
    (s.security.measuring = none → exec c s = .next s) ∧
    (∀ m, s.security.measuring = some m →
      let done := fun (u : State) (k : Nat) (t : State) =>
        t.security = { u.security with measuring := none, measureResult := k, measureBight := m.bight }
      let fails := fun (u : State) => Gives c s fun t => done u 4 t ∧ t = { u with security := t.security }
      let stores := fun (u : State) (x : Bight) => Gives c s fun t => done u 0 t ∧
        t.bight m.bight = x ∧ (∀ k, k ≠ m.bight → t.bight k = u.bight k) ∧
        t = { u with security := t.security, bights := { u.bights with tab := t.bights.tab } }
      (m.kind = 1 →
        (∀ u, s.forgetSteps.measureProgram m.bight = (.bad, u) → fails u) ∧
        (∀ u, s.forgetSteps.measureProgram m.bight = (.held, u) → exec c s = .next u) ∧
        (∀ d u, s.forgetSteps.measureProgram m.bight = (.ok d, u) →
          stores u { u.bight m.bight with program := some (Crypto.sha384 d) })) ∧
      (m.kind ≠ 1 → 2 ^ 52 < m.va + m.len → fails s) ∧
      (m.kind ≠ 1 → m.va + m.len ≤ 2 ^ 52 →
        let read := State.measureBytes (whoMeasures m.asid) (m.len / 4096) s.forgetSteps m.va answer
        (∀ u, read = (.bad, u) → fails u) ∧
        (∀ u, read = (.held, u) → exec c s = .next u) ∧
        (∀ d u, read = (.ok d, u) →
          stores u { u.bight m.bight with weights := Tab.set (u.bight m.bight).weights m.index (Crypto.sha384 d, m.len) }))))

/-- R594 to R607: key slots, their rotation and the removal of a tenant. -/
def Obligations.KeysAndRemoval : Prop :=
  (∀ (s : State) (via : Via) (slot : Nat), Serves s via false true →
    let k := s.keySlot slot
    let holds := fun (c : Instr) (x : KeySlot) => ∃ t : State, Answers c s via 0x00 t ∧ t.keySlot slot = x ∧
      (∀ j, j ≠ slot → t.keySlot j = s.keySlot j) ∧ t = { s with security := { s.security with slots := t.security.slots } }
    (64 ≤ slot → (∀ gen key, Answers (.keyWrite via slot gen key) s via 0x01 s) ∧ (∀ v, Answers (.keyOwnerWrite via slot v) s via 0x01 s) ∧
      (∀ v, Answers (.keyZeroize via slot v) s via 0x01 s) ∧ (∀ r, Answers (.keyRotation via slot r) s via 0x01 s)) ∧
    (slot < 64 →
      (∀ (gen : Nat) (key : Bytes),
        let c := Instr.keyWrite via slot gen key
        let held := if gen = 1 then k.key1 else k.key0
        (2 ≤ gen → Answers c s via 0x02 s) ∧
        (gen < 2 → key.length ≠ 64 → Answers c s via 0x04 s) ∧
        (gen < 2 → key.length = 64 → held ≠ none ∨ key.take 32 = key.drop 32 → Answers c s via 0x06 s) ∧
        (gen < 2 → key.length = 64 → held = none → key.take 32 ≠ key.drop 32 →
          holds c (if gen = 1 then { k with key1 := some (BitVec.ofNat 512 (leNat key)) }
            else { k with key0 := some (BitVec.ofNat 512 (leNat key)) }))) ∧
      (∀ v : BitVec 8,
        let c := Instr.keyOwnerWrite via slot v
        (v ≠ 0xFF → 64 ≤ v.toNat → Answers c s via 0x05 s) ∧
        (v = 0xFF ∨ v.toNat < 64 → k.key0 ≠ none ∨ k.key1 ≠ none → Answers c s via 0x06 s) ∧
        (v = 0xFF ∨ v.toNat < 64 → k.key0 = none → k.key1 = none →
          holds c { k with owner := if v = 0xFF then none else some v.toNat })) ∧
      (∀ v : BitVec 8,
        let c := Instr.keyZeroize via slot v
        (k.rotating = true → Answers c s via 0x06 s) ∧
        (k.rotating = false → holds c { k with
          erase0 := if v.getLsbD 0 = true ∧ k.key0 ≠ none ∧ k.erase0 = none then some s.now else k.erase0
          erase1 := if v.getLsbD 1 = true ∧ k.key1 ≠ none ∧ k.erase1 = none then some s.now else k.erase1 })) ∧
      (∀ r : Bytes,
        let c := Instr.keyRotation via slot r
        let n := leAt r 0 1
        let asid := fun (i : Nat) => leAt r (8 + 2 * i) 2
        let layout := 1 ≤ n ∧ n ≤ 16 ∧ leAt r 1 7 = 0 ∧ ∀ i, n ≤ i → i < 16 → asid i = 0
        let other := if k.gen then k.key0 else k.key1
        let refused := k.rotating = true ∨ other = none ∨ ∃ i, i < n ∧ ∀ f, k.owner = some f → s.contextFn (asid i) ≠ some f
        (r.length ≠ 40 → Answers c s via 0x04 s) ∧
        (r.length = 40 → ¬ layout → Answers c s via 0x05 s) ∧
        (r.length = 40 → layout → refused → Answers c s via 0x06 s) ∧
        (r.length = 40 → layout → ¬ refused → holds c { k with
          gen := !k.gen, rotating := true, retiring := false, asids := (List.range n).map asid, ahead := [], moving := none
          moved := 0 })))) ∧
  (∀ (s : State) (slot gen : Nat), gen < 2 →
    let k := s.keySlot slot
    let c := Instr.keyErase slot gen
    let refs := if gen = 1 then k.refs1 else k.refs0
    let asked := if gen = 1 then k.erase1 else k.erase0
    let removed := fun (r : Removal) => s.security.removal = some r ∧ k.owner = some r.fn ∧
      (s.drainCount r.fn = 0 ∨ r.since + 1000000 ≤ s.now)
    let retires := k.retiring = true ∧ (gen = 1 ↔ k.gen = false) ∧ refs = 0
    let due := k.rotating = false ∧ ∃ t, asked = some t ∧ (refs = 0 ∨ t + 1000000 ≤ s.now)
    let emptied := fun (k : KeySlot) => if gen = 1 then { k with key1 := none, erase1 := none }
      else { k with key0 := none, erase0 := none }
    (∀ r, removed r → exec c s = .next (s.eraseOwned r.fn).removalStep) ∧
    ((∀ r, ¬ removed r) → retires → exec c s = .next (s.endRotation slot)) ∧
    ((∀ r, ¬ removed r) → retires → s.readsOf slot (gen == 1) = [] → Gives c s fun t =>
      t.keySlot slot = { emptied k with rotating := false, retiring := false, asids := [], ahead := [], moving := none } ∧
      (∀ j, j ≠ slot → t.keySlot j = s.keySlot j) ∧ (t.fn 0).irqCause.getLsbD 4 = true) ∧
    ((∀ r, ¬ removed r) → ¬ retires → due → exec c s = .next (s.eraseKey slot (gen == 1))) ∧
    ((∀ r, ¬ removed r) → ¬ retires → due → s.readsOf slot (gen == 1) = [] → Gives c s fun t =>
      t.keySlot slot = emptied k ∧ (∀ j, j ≠ slot → t.keySlot j = s.keySlot j)) ∧
    ((∀ r, ¬ removed r) → ¬ retires → ¬ due → exec c s = .next s) ∧
    (∀ n, Tab.wf {} s.security.slots = true →
      (∀ j, ((s.eraseOwned n).keySlot j) = if (s.keySlot j).owner = some n then { s.keySlot j with
        key0 := none, key1 := none, erase0 := none, erase1 := none, rotating := false, retiring := false, asids := [], ahead := []
        moving := none }
        else s.keySlot j) ∧
      ∀ r ∈ (s.eraseOwned n).reqs, r.fn = n → r.result = .pending → r.late = true)) ∧
  (∀ (s : State) (slot : Nat),
    let k := s.keySlot slot
    let walks := k.rotating = true ∧ k.retiring = false
    let c := Instr.frameMove slot
    (¬ walks → exec c s = .next s) ∧
    (walks → k.moving = none → s.nextMove slot = none → exec c s = .next s) ∧
    (∀ m, walks → k.moving = none → s.nextMove slot = some m →
      let x := m.begin
      (∃ l, s.movesLeft slot = some l ∧ m ∈ l) ∧
      (s.moveOn x = false → exec c s = .next s) ∧
      (s.moveOn x = true → exec c s = .next ((s.setKeySlot slot { k with moving := some x }).uncacheScope
        (.range x.asid (x.va / 65536) (x.len / 65536))))) ∧
    (∀ x, walks → k.moving = some x →
      let words := State.moveWords slot (k.owner.getD 0) k.gen x.start (x.len / 64 - x.done) x.done s
      (s.moveOn x = false → exec c s = .next s) ∧
      (s.moveOn x = true → s.movingLeaf slot x = none → exec c s = .next (s.setKeySlot slot { k with moving := none })) ∧
      (∀ leaf, s.moveOn x = true → s.movingLeaf slot x = some leaf → s.frameBusy x = true → exec c s = .next s) ∧
      (∀ leaf i u, s.moveOn x = true → s.movingLeaf slot x = some leaf → s.frameBusy x = false → words = (i, u) →
        (i ≠ x.len / 64 → exec c s = .next (u.modKeySlot slot fun k => { k with moving := some { x with done := i } })) ∧
        (i = x.len / 64 → Gives c s fun t =>
          let bit : BitVec 128 := 1 <<< (if x.idx = 0 then 42 else 43)
          let entry := if (u.keySlot slot).gen then leaf ||| bit else leaf &&& ~~~bit
          t.keySlot slot = { u.keySlot slot with
            moved := (u.keySlot slot).moved + 1, moving := none
            ahead := (u.keySlot slot).ahead.filter fun i => decide (i ≠ (x.asid * 2 ^ 52 + x.addr, x.idx)) } ∧
          (∀ j, j ≠ slot → t.keySlot j = u.keySlot j) ∧
          t.mem = (u.forgetSteps.ownWrite x.addr (leBytes 8 (entry.toNat % 2 ^ 64))).mem))) ∧
    (¬ walks ∨ k.moving ≠ none ∨ s.movesLeft slot ≠ some [] → exec (.rotationComplete slot) s = .next s) ∧
    (walks → k.moving = none → s.movesLeft slot = some [] → (if k.gen then k.refs0 else k.refs1) = 0 →
      exec (.rotationComplete slot) s = .next (s.endRotation slot)) ∧
    (walks → k.moving = none → s.movesLeft slot = some [] → (if k.gen then k.refs0 else k.refs1) ≠ 0 →
      exec (.rotationComplete slot) s = .next (s.setKeySlot slot { k with retiring := true }))) ∧
  (∀ (s : State) (via : Via) (v : BitVec 16), Serves s via false false →
    let n := (v.extractLsb' 0 6).toNat
    let refuses := fun (r : Nat) => Answers (.tenantRemoval via v) s via 0x06
      { s with security := { s.security with removalSeq := s.security.removalSeq + 1, removalResult := r } }
    (n = 0 → refuses 1) ∧
    (n ≠ 0 → s.security.removal ≠ none → refuses 3) ∧
    (n ≠ 0 → s.security.removal = none → Answers (.tenantRemoval via v) s via 0x00 (s.beginRemoval n (v.getLsbD 8))))

/-- R611 to R625: requests through the mailbox, and writes of objects and registers. -/
def Obligations.MailboxAndRegisters : Prop :=
  (∀ (s : State) (port op index sub len : Nat) (ok : Bool) (buffer answer : HostAns),
    let reads := Instr.mboxRead port index sub len ok
    let writes := Instr.mboxWrite port index sub len buffer answer
    let describes := Instr.mboxDescribe port index sub len
    let wrong := Instr.mboxCommandOutOfRange port op index sub len
    let seq := s.dict.mboxSeq + 1
    let reached := s.isReady = true ∧ port ∈ s.host.linkUp
    let free := reached ∧ s.dict.mboxState ≠ 1
    let bad := 1024 < len
    (∀ c ∈ [reads, writes, describes, wrong],
      (¬ reached → exec c s = .next s) ∧
      (reached → s.dict.mboxState = 1 → c ≠ wrong ∨ bad → exec c s = .next { s with dict := { s.dict with mboxOverrun := true } }) ∧
      (free → bad → Gives c s (MboxEnds s seq 0x05 0))) ∧
    (free → op = 0 ∨ 3 < op → Gives wrong s (MboxEnds s seq 0x05 0)) ∧
    (1 ≤ op → op ≤ 3 → ¬ bad → exec wrong s = .next s) ∧
    (free → ¬ bad →
      (let returns := fun (c : Instr) (ok : Bool) (u : State) (st : Nat) (d : Bytes) =>
          (st ≠ 0 → Gives c s (MboxEnds u seq st 0)) ∧
          (st = 0 → d.length ≤ 8 → Gives c s
            (MboxEnds { u with dict := { u.dict with mboxData := BitVec.ofNat 64 (leNat d) } } seq 0 d.length)) ∧
          (st = 0 → 8 < d.length → ok = true → Gives c s
            (MboxEnds (u.hostWriteVia 0 port u.dict.mboxBuf.toNat d) seq 0 d.length)) ∧
          (st = 0 → 8 < d.length → ok = false → Gives c s (MboxEnds (u.aer 0) seq 0x0A 0))
       (∀ st d u, s.objRead .mailbox index sub = ((st, d), u) → returns reads ok u st d) ∧
       (∀ st d u, s.objDescribe .mailbox index sub = ((st, d), u) → returns describes true u st d)) ∧
      (∀ st d u, ¬ Plain s index → s.vendorAnswer (vendorWrites .mailbox) = ((st, d), u) →
        let lost := st = 0 ∧ 8 < len ∧ buffer = none
        (¬ lost → Gives writes s (MboxEnds u seq st 0)) ∧ (lost → Gives writes s (MboxEnds (u.aer 0) seq 0x0A 0))) ∧
      (Plain s index → s.objRead .mailbox index sub = (s.dictRead .mailbox index sub, s)) ∧
      (∀ e, Plain s index → findObj index sub = .error e →
        Gives describes s (MboxEnds s seq e 0) ∧ Gives writes s (MboxEnds s seq e 0)) ∧
      (∀ r, Plain s index → findObj index sub = .ok r →
        let level := r.expert = false ∨ (s.dict.expertMbox = true ∧ s.errors.rootstock = false)
        let word := BitVec.ofNat 64 (r.ty.code + 256 * r.acc.code + 65536 * r.expert.toNat + 2 ^ 32 * r.ty.len)
        (¬ level → Gives describes s (MboxEnds s seq 0x07 0) ∧ Gives writes s (MboxEnds s seq 0x07 0)) ∧
        (level → Gives describes s (MboxEnds { s with dict := { s.dict with mboxData := word } } seq 0 8)) ∧
        (level → r.acc = .ro → Gives writes s (MboxEnds s seq 0x03 0)) ∧
        (level → r.acc ≠ .ro → len ≠ r.ty.len → Gives writes s (MboxEnds s seq 0x04 0)) ∧
        (level → r.acc ≠ .ro → len = r.ty.len → 8 < len → buffer = none →
          Gives writes s (MboxEnds (s.aer 0) seq 0x0A 0)) ∧
        (∀ d st u, level → r.acc ≠ .ro → len = r.ty.len →
          (if len ≤ 8 then some (leBytes len s.dict.mboxData.toNat) else buffer.map fun b => slice b 0 len) = some d →
          objAct index sub d answer s = (st, u) → u.supply.inReset = false → Gives writes s (MboxEnds u seq st 0))))) ∧
  (∀ (s : State) (via : Via) (index sub : Nat) (d : Bytes) (answer : HostAns),
    let c := Instr.registerWrite (.object via index sub d answer)
    (s.dictOpen via = false → exec c s = .next s) ∧
    (s.dictOpen via = true → ¬ Plain s index →
      Answers c s via (s.vendorAnswer (vendorWrites via)).1.1 (s.vendorAnswer (vendorWrites via)).2) ∧
    (s.dictOpen via = true → Plain s index →
      (∀ e, findObj index sub = .error e → Answers c s via e s) ∧
      (∀ r, findObj index sub = .ok r →
        let level := r.expert = false ∨ (s.expertOn via = true ∧ s.errors.rootstock = false)
        let may := via = .mailbox ∨ ethMayWrite index = true
        (¬ may → Answers c s via 0x08 s) ∧
        (may → ¬ level → Answers c s via 0x07 s) ∧
        (may → level → r.acc = .ro → Answers c s via 0x03 s) ∧
        (may → level → r.acc ≠ .ro → d.length ≠ r.ty.len → Answers c s via 0x04 s) ∧
        (∀ st u, may → level → r.acc ≠ .ro → d.length = r.ty.len → objAct index sub d answer s = (st, u) →
          Answers c s via st u)))) ∧
  (∀ (s : State) (fn bar offset width port : Nat) (v : Word) (on : Bool),
    let c := Instr.registerWrite (.mmio fn bar offset width v)
    let boot := s.isReady = false ∧ fn = 0 ∧ bar = 0 ∧ s.supply.inReset = false ∧ s.host.linkUp.contains (s.portOfFn 0) = true
    (s.isReady = false → ¬ boot → exec c s = .next s) ∧
    (s.isReady = true → s.regsOpen fn = false → exec c s = .next s) ∧
    (boot → width = 8 →
      (offset = 0x48 → exec c s = .next { s with boot := { s.boot with image := v &&& 0xFFFFFFFFFFFFF000 } }) ∧
      (offset = 0x50 → exec c s = .next { s with boot := { s.boot with len := v &&& 0x3FFFFFF } }) ∧
      (offset = 0x58 → exec c s = .next { s with boot := { s.boot with token := v &&& 0xFFFFFFFFFFFFF000 } }) ∧
      (offset = 0x60 → exec c s = exec (.bootGo (s.portOfFn 0) v) s) ∧
      (offset ∉ [0x48, 0x50, 0x58, 0x60] → offset % 8 = 0 → exec c s = .next s)) ∧
    (s.isReady = true → s.regsOpen 0 = true → fn = 0 → bar = 0 → width = 8 →
      (offset = 0x410 → exec c s = .next { s with dict := { s.dict with mboxData := v } }) ∧
      (offset = 0x418 → exec c s = .next { s with dict := { s.dict with mboxBuf := v &&& 0xFFFFFFFFFFFFFFC0 } })) ∧
    (s.isReady = true → s.regsOpen fn = true → bar = 0 → width = 8 → offset = 0x20 → Gives c s fun t =>
      t.fn fn = { s.fn fn with bsel := v.setWidth 8 } ∧ (∀ k, k ≠ fn → t.fn k = s.fn k) ∧
      t = { s with host := { s.host with fns := t.host.fns } }) ∧
    (s.isReady = true ∧ port ∈ s.host.linkUp → Gives (.registerWrite (.vfEnable port on)) s fun t =>
      (∀ p, p ∈ t.host.vfEnabled ↔ (p ∈ s.host.vfEnabled ∧ p ≠ port) ∨ (p = port ∧ on = true)) ∧
      t = { s with host := { s.host with vfEnabled := t.host.vfEnabled } }) ∧
    (¬ (s.isReady = true ∧ port ∈ s.host.linkUp) → exec (.registerWrite (.vfEnable port on)) s = .next s))

/-- R626 to R629: the management Ethernet protocol. A response is no request, an unprotected request's COUNTER and a request's
STATUS are not looked at (assumption log 141), and the first COUNTER under a key may have any value (log 142). -/
def Obligations.Datagrams : Prop :=
  ∀ (s : State) (b : Bytes),
    let op := leAt b 8 1
    let index := leAt b 0xA 2
    let sub := leAt b 0xC 1
    let flags := leAt b 3 1
    let isProtected := flags.testBit 0 = true
    let id := fieldN flags 2 2
    let n := leAt b 0xE 2
    let counter := leAt b 0x10 8
    let k := s.mgmtKey id
    let formed := leAt b 0 2 = 0x4E44 ∧ leAt b 2 1 = 1 ∧ flags < 16 ∧ flags.testBit 1 = false ∧ leAt b 0xD 1 = 0 ∧ n ≤ 1024 ∧
      b.length = 24 + n + (if isProtected then 16 else 0)
    let iv := fun (direction c : Nat) => leBytes 1 0 ++ leBytes 1 direction ++ leBytes 1 id ++ leBytes 1 0 ++ beBytes 8 c
    let opens := k.key.bind fun key => Crypto.gcmOpen key (iv 1 counter) (slice b 0 24) (b.drop 24)
    let clear := ¬ isProtected ∧ (op = 1 ∨ op = 3) ∧ ∃ r, objRow index sub = some r ∧ r.expert = false
    let fresh := ∀ c, k.lastCounter = some c → c < counter
    let again := isProtected ∧ opens ≠ none ∧ k.lastCounter = some counter ∧ b = k.lastRequest
    let accepted := fun (d : Bytes) => formed ∧ ((clear ∧ d = slice b 24 n) ∨ (isProtected ∧ opens = some d ∧ fresh))
    let counted := fun (i : Nat) (t : State) => ∀ j, Tab.look 0 t.dict.counters j =
      if j = i then (Tab.look 0 s.dict.counters i + 1) % 2 ^ 32 else Tab.look 0 s.dict.counters j
    let header := fun (status len c : Nat) => slice b 0 3 ++ leBytes 1 (flags ||| 2) ++ slice b 4 5 ++ leBytes 1 status ++
      slice b 10 4 ++ leBytes 2 len ++ leBytes 8 c
    let answered := fun (u : State) (status : Nat) (data : Bytes) (t : State) =>
      (¬ isProtected → t.sent = .datagram (header status data.length 0 ++ data) :: u.sent ∧
        t = { u with dict := t.dict, sent := t.sent } ∧ t.dict = { u.dict with lastStatus := t.dict.lastStatus }) ∧
      (isProtected →
        let h := header status data.length (u.mgmtKey id).nextResponse
        let r := h ++ Crypto.gcmSeal ((u.mgmtKey id).key.getD []) (iv 2 (u.mgmtKey id).nextResponse) h data
        t.sent = .datagram r :: u.sent ∧ t = { u with dict := t.dict, sent := t.sent } ∧
        t.mgmtKey id = { u.mgmtKey id with lastCounter := some counter, lastRequest := b, lastResponse := r
                                           nextResponse := (u.mgmtKey id).nextResponse + 1 } ∧
        ∀ j, j ≠ id → t.mgmtKey j = u.mgmtKey j)
    ∀ c ∈ [(Instr.datagramRead b, 1), (.datagramWrite b, 2), (.datagramDescribe b, 3)],
      (s.dictOpen .ethernet = false ∨ op ≠ c.2 → exec c.1 s = .next s) ∧
      (s.dictOpen .ethernet = true → op = c.2 →
        (formed → again → Gives c.1 s fun t => counted 3 t ∧ t.sent = .datagram k.lastResponse :: s.sent ∧
          t = { s with dict := { s.dict with counters := t.dict.counters }, sent := t.sent }) ∧
        (¬ (formed ∧ again) → (∀ d, ¬ accepted d) → Gives c.1 s fun t => counted 2 t ∧
          t = { s with dict := { s.dict with counters := t.dict.counters } }) ∧
        (∀ d, accepted d → ∃ u, counted 1 u ∧ u = { s with dict := { s.dict with counters := u.dict.counters } } ∧
          (∀ st r w, op = 1 → u.objRead .ethernet index sub = ((st, r), w) → Gives c.1 s (answered w st r)) ∧
          (∀ st r w, op = 3 → u.objDescribe .ethernet index sub = ((st, r), w) → Gives c.1 s (answered w st r)) ∧
          (Plain u index → u.objRead .ethernet index sub = (u.dictRead .ethernet index sub, u) ∧
            u.objDescribe .ethernet index sub = (u.dictDescribe .ethernet index sub, u)) ∧
          (∀ st w, op = 2 → u.dictWrite .ethernet index sub d none = (st, w) → Gives c.1 s (answered w st []))))

/-- R630 to R633, R635 and R675: Modbus TCP, the transports' own objects, the counter snapshot and the management port's link. The
answer to a count of 0 is the model's choice (assumption log 74), and so is which registers change every 1 ms (log 146). -/
def Obligations.ModbusAndTransports : Prop :=
  (∀ (s : State) (conn address count code : Nat),
    let opens := s.dictOpen .ethernet = true ∧ s.dict.modbusEnabled = true
    let takes := opens ∧ conn ∈ s.dict.modbusConns
    let answers := fun (pdu : Bytes) (t : State) => t.sent = .modbus conn pdu :: s.sent ∧
      (∀ j, Tab.look 0 t.dict.counters j =
        if j = 4 then (Tab.look 0 s.dict.counters 4 + 1) % 2 ^ 32 else Tab.look 0 s.dict.counters j) ∧
      t = { s with dict := { s.dict with counters := t.dict.counters }, sent := t.sent }
    let exception := fun (code ex : Nat) => answers (leBytes 1 (code + 128) ++ leBytes 1 ex)
    (let does := fun (c : Instr) (k : Nat) =>
        (¬ takes → exec c s = .next s) ∧
        (takes → count = 0 ∨ 125 < count → Gives c s (exception k 3)) ∧
        (takes → 1 ≤ count → count ≤ 125 → (∃ a, address ≤ a ∧ a < address + count ∧ s.modbusReg a = none) →
          Gives c s (exception k 2)) ∧
        (∀ f : Nat → Nat, takes → 1 ≤ count → count ≤ 125 → (∀ i, i < count → s.modbusReg (address + i) = some (f i)) →
          Gives c s (answers (leBytes 1 k ++ leBytes 1 (2 * count) ++ (List.range count).flatMap fun i => beBytes 2 (f i))))
     does (.modbusReadHolding conn address count) 3 ∧ does (.modbusReadInput conn address count) 4) ∧
    (takes → code ≠ 3 → code ≠ 4 → Gives (.modbusOtherFunctionCode conn code) s (exception code 1)) ∧
    (¬ takes ∨ code = 3 ∨ code = 4 → exec (.modbusOtherFunctionCode conn code) s = .next s) ∧
    (let joins := opens ∧ conn ∉ s.dict.modbusConns ∧ s.dict.modbusConns.length < 4
     (joins → exec (.modbusConnection conn) s = .next { s with dict := { s.dict with modbusConns := s.dict.modbusConns ++ [conn] } }) ∧
     (¬ joins → exec (.modbusConnection conn) s = .next s)) ∧
    (∀ a ∈ modbusOften, ∀ v, Tab.find? s.dict.modbusSnap a = some v → s.modbusReg a = some v) ∧
    (∀ a, a ∉ modbusOften ∨ s.dict.modbusSnap = [] → s.modbusReg a = s.modbusNow a) ∧
    (∀ a, ((31 ≤ a ∧ a < 1000) ∨ (1512 ≤ a ∧ a < 2000) ∨ 2512 ≤ a) → s.modbusReg a = none) ∧
    (∀ k, k < 3 → s.modbusReg k = some (s.frame.counter.toNat / 2 ^ (16 * (2 - k)) % 2 ^ 16)) ∧
    (∀ bight k, bight < 256 → k < 2 →
      s.modbusReg (1000 + 2 * bight + k) = some (s.objNum (0x2100 + bight) 4 / 2 ^ (16 * (1 - k)) % 2 ^ 16) ∧
      s.modbusReg (2000 + 2 * bight + k) = some (s.objNum (0x2100 + bight) 3 / 2 ^ (16 * (1 - k)) % 2 ^ 16))) ∧
  (∀ (s : State) (via : Via) (sub : Nat) (v : BitVec 32),
    let c := Instr.networkConfigWrite via sub v
    let d := s.dict
    let n := v.toNat
    let inRange := (sub = 2 → 8 ≤ n ∧ n ≤ 30) ∧ (sub = 4 → n < 65536)
    let d' := if sub = 1 then { d with ip := n } else if sub = 2 then { d with prefixLen := n } else
      if sub = 3 then { d with gateway := n } else if sub = 4 then { d with udpPort := n } else { d with modbusEnabled := v.getLsbD 0 }
    (sub = 0 ∨ 5 < sub → Serves s via true false → Answers c s via 0x02 s) ∧
    (1 ≤ sub → sub ≤ 5 → Serves s via false false → ¬ inRange → Answers c s via 0x05 s) ∧
    (1 ≤ sub → sub ≤ 5 → Serves s via false false → inRange → d' = d → Answers c s via 0x00 s) ∧
    (1 ≤ sub → sub ≤ 5 → Serves s via false false → inRange → d' ≠ d →
      Answers c s via 0x00 { s with dict := { d' with modbusConns := [] } })) ∧
  (∀ (s : State) (via : Via) (id : Nat) (key : Bytes),
    let c := Instr.managementKeyWrite via id key
    (4 ≤ id → Serves s via true false → Answers c s via 0x02 s) ∧
    (id < 4 → Serves s via false true → key.length ≠ 32 → Answers c s via 0x04 s) ∧
    (id < 4 → Serves s via false true → key.length = 32 → ∃ t : State, Answers c s via 0x00 t ∧
      t.mgmtKey id = { key := some key, lastCounter := none, nextResponse := 1 } ∧ (∀ j, j ≠ id → t.mgmtKey j = s.mgmtKey j) ∧
      t = { s with dict := { s.dict with keys := t.dict.keys } })) ∧
  (∀ (s : State) (via : Via) (v : BitVec 8), Serves s via false true →
    (v ≠ 1 → Answers (.counterSnapshot via v) s via 0x05 s) ∧
    (v = 1 → (Tab.keys s.dict.activity).Nodup → ∃ t : State, Answers (.counterSnapshot via v) s via 0x00 t ∧
      (∀ k, Tab.look 0 t.dict.snapshot k = Tab.look 0 s.dict.activity k % 2 ^ 64) ∧
      t = { s with dict := { s.dict with snapshot := t.dict.snapshot, snapshots := s.dict.snapshots + 1 } })) ∧
  (∀ (s : State) (link : Bool) (mbps : Nat), Gives (.sgmiiAutoNegotiation link mbps) s fun t =>
    (t.dict.sgmiiUp = true ↔ link = true ∧ mbps = 1000) ∧ (¬ (link = true ∧ mbps = 1000) → t.dictOpen .ethernet = false) ∧
    t = { s with dict := { s.dict with sgmiiUp := t.dict.sgmiiUp } })
end

