-- ==== Sys2Proof/Laws/Tab.lean ====
section
/-! SUPPORT. The laws of tables and of byte memory: a read after a write, and the canonical form that every operation
keeps. -/

namespace Sys2Proof

variable {α : Type}

theorem Tab.risingFrom_weaken {lo lo' : Option Nat} {t : Tab α} (h : Tab.risingFrom lo t = true)
    (hl : ∀ j, lo.all (decide <| · < j) = true → lo'.all (decide <| · < j) = true) :
    Tab.risingFrom lo' t = true := by
  cases t with
  | nil => rfl
  | cons e t =>
    obtain ⟨j, v⟩ := e
    simp only [Tab.risingFrom, Bool.and_eq_true] at h ⊢
    exact ⟨hl j h.1, h.2⟩

/-- A key at or below the lower bound of a rising table has no entry. -/
theorem Tab.find?_none_of_rising {lo : Nat} {t : Tab α} (h : Tab.risingFrom (some lo) t = true) {k : Nat}
    (hk : k ≤ lo) : Tab.find? t k = none := by
  induction t generalizing lo with
  | nil => rfl
  | cons e t ih =>
    obtain ⟨j, v⟩ := e
    simp only [Tab.risingFrom, Option.all_some, Bool.and_eq_true, decide_eq_true_eq] at h
    have hne : ¬ j = k := by omega
    simp only [Tab.find?, if_neg hne]
    exact ih h.2 (by omega)

theorem Tab.find?_set_same (t : Tab α) (k : Nat) (v : α) : Tab.find? (Tab.set t k v) k = some v := by
  induction t with
  | nil => simp [Tab.set, Tab.find?]
  | cons e t ih =>
    obtain ⟨j, w⟩ := e
    simp only [Tab.set]
    split
    · simp [Tab.find?]
    · split
      · simp [Tab.find?]
      · next h1 h2 => simp [Tab.find?, Ne.symm h2, ih]

theorem Tab.find?_set_other (t : Tab α) {k k' : Nat} (h : k' ≠ k) (v : α) :
    Tab.find? (Tab.set t k v) k' = Tab.find? t k' := by
  induction t with
  | nil => simp [Tab.set, Tab.find?, Ne.symm h]
  | cons e t ih =>
    obtain ⟨j, w⟩ := e
    simp only [Tab.set]
    split
    · simp [Tab.find?, Ne.symm h]
    · split
      · next h2 => subst h2; simp [Tab.find?, Ne.symm h]
      · by_cases hj : j = k'
        · simp [Tab.find?, hj]
        · simp [Tab.find?, hj, ih]

/-- A look-up after a write of any key. -/
theorem Tab.find?_set (t : Tab α) (k k' : Nat) (v : α) :
    Tab.find? (Tab.set t k v) k' = if k' = k then some v else Tab.find? t k' := by
  split
  · next h => rw [h, Tab.find?_set_same]
  · next h => exact Tab.find?_set_other t h v

theorem Tab.find?_erase_other (t : Tab α) {k k' : Nat} (h : k' ≠ k) :
    Tab.find? (Tab.erase t k) k' = Tab.find? t k' := by
  induction t with
  | nil => rfl
  | cons e t ih =>
    obtain ⟨j, w⟩ := e
    simp only [Tab.erase]
    split
    · next hj => subst hj; simp [Tab.find?, Ne.symm h, ih]
    · by_cases hj : j = k'
      · simp [Tab.find?, hj]
      · simp [Tab.find?, hj, ih]

theorem Tab.find?_erase_same (t : Tab α) (k : Nat) : Tab.find? (Tab.erase t k) k = none := by
  induction t with
  | nil => rfl
  | cons e t ih =>
    obtain ⟨j, w⟩ := e
    simp only [Tab.erase]
    split
    · exact ih
    · next hj => simp [Tab.find?, hj, ih]

theorem Tab.rising_erase {lo : Option Nat} {t : Tab α} (h : Tab.risingFrom lo t = true) (k : Nat) :
    Tab.risingFrom lo (Tab.erase t k) = true := by
  induction t generalizing lo with
  | nil => rfl
  | cons e t ih =>
    obtain ⟨j, w⟩ := e
    simp only [Tab.risingFrom, Bool.and_eq_true] at h
    simp only [Tab.erase]
    split
    · apply Tab.risingFrom_weaken (ih h.2)
      intro i hi
      cases lo with
      | none => rfl
      | some l =>
        simp only [Option.all_some, decide_eq_true_eq] at hi h ⊢
        omega
    · simp only [Tab.risingFrom, Bool.and_eq_true]
      exact ⟨h.1, ih h.2⟩

theorem Tab.rising_set {lo : Option Nat} {t : Tab α} (h : Tab.risingFrom lo t = true) {k : Nat} (v : α)
    (hk : lo.all (decide <| · < k) = true) : Tab.risingFrom lo (Tab.set t k v) = true := by
  induction t generalizing lo with
  | nil => simp [Tab.set, Tab.risingFrom, hk]
  | cons e t ih =>
    obtain ⟨j, w⟩ := e
    simp only [Tab.risingFrom, Bool.and_eq_true] at h
    simp only [Tab.set]
    split
    · next hlt =>
      simp only [Tab.risingFrom, Bool.and_eq_true, Option.all_some, decide_eq_true_eq]
      exact ⟨hk, hlt, h.2⟩
    · split
      · next heq => subst heq; simp only [Tab.risingFrom, Bool.and_eq_true]; exact ⟨hk, h.2⟩
      · simp only [Tab.risingFrom, Bool.and_eq_true]
        refine ⟨h.1, ih h.2 ?_⟩
        simp only [Option.all_some, decide_eq_true_eq]
        omega

theorem Tab.all_erase {p : Nat × α → Bool} {t : Tab α} (h : t.all p = true) (k : Nat) :
    (Tab.erase t k).all p = true := by
  induction t with
  | nil => rfl
  | cons e t ih =>
    obtain ⟨j, w⟩ := e
    simp only [List.all_cons, Bool.and_eq_true] at h
    simp only [Tab.erase]
    split
    · exact ih h.2
    · simp only [List.all_cons, Bool.and_eq_true]; exact ⟨h.1, ih h.2⟩

theorem Tab.all_set {p : Nat × α → Bool} {t : Tab α} (h : t.all p = true) {k : Nat} {v : α} (hv : p (k, v) = true) :
    (Tab.set t k v).all p = true := by
  induction t with
  | nil => simp [Tab.set, hv]
  | cons e t ih =>
    obtain ⟨j, w⟩ := e
    have h' := h
    simp only [List.all_cons, Bool.and_eq_true] at h
    simp only [Tab.set]
    split
    · simp only [List.all_cons, Bool.and_eq_true]; exact ⟨hv, h.1, h.2⟩
    · split
      · simp only [List.all_cons, Bool.and_eq_true]; exact ⟨hv, h.2⟩
      · simp only [List.all_cons, Bool.and_eq_true]; exact ⟨h.1, ih h.2⟩

theorem Tab.rising_filter {lo : Option Nat} {t : Tab α} (h : Tab.risingFrom lo t = true) (p : Nat × α → Bool) :
    Tab.risingFrom lo (t.filter p) = true := by
  induction t generalizing lo with
  | nil => rfl
  | cons e t ih =>
    obtain ⟨j, w⟩ := e
    simp only [Tab.risingFrom, Bool.and_eq_true] at h
    simp only [List.filter_cons]
    split
    · simp only [Tab.risingFrom, Bool.and_eq_true]; exact ⟨h.1, ih h.2⟩
    · apply Tab.risingFrom_weaken (ih h.2)
      intro i hi
      cases lo with
      | none => rfl
      | some l => simp only [Option.all_some, decide_eq_true_eq] at hi h ⊢; omega

theorem Tab.rising_mapVals {β : Type} {lo : Option Nat} {t : Tab α} (h : Tab.risingFrom lo t = true)
    (f : Nat → α → β) : Tab.risingFrom lo (Tab.mapVals f t) = true := by
  induction t generalizing lo with
  | nil => rfl
  | cons e t ih =>
    obtain ⟨j, w⟩ := e
    simp only [Tab.risingFrom, Bool.and_eq_true] at h
    simp only [Tab.mapVals, List.map_cons, Tab.risingFrom, Bool.and_eq_true]
    exact ⟨h.1, ih h.2⟩

section
variable [DecidableEq α]

/-- A read of the key just written gives the value written. -/
theorem Tab.look_put_same (d : α) (t : Tab α) (k : Nat) (v : α) : Tab.look d (Tab.put d t k v) k = v := by
  unfold Tab.put Tab.look
  split
  · next hv => rw [Tab.find?_erase_same]; simp [hv]
  · rw [Tab.find?_set_same]; rfl

/-- A read after a write of any key. -/
theorem Tab.look_put (d : α) (t : Tab α) (k k' : Nat) (v : α) :
    Tab.look d (Tab.put d t k v) k' = if k' = k then v else Tab.look d t k' := by
  split
  · next h => rw [h, Tab.look_put_same]
  · next h =>
    unfold Tab.put Tab.look
    split
    · rw [Tab.find?_erase_other t h]
    · rw [Tab.find?_set_other t h]

/-- A write leaves every other key as it reads. -/
theorem Tab.look_put_other (d : α) (t : Tab α) {k k' : Nat} (h : k' ≠ k) (v : α) :
    Tab.look d (Tab.put d t k v) k' = Tab.look d t k' := by
  unfold Tab.put Tab.look
  split
  · rw [Tab.find?_erase_other t h]
  · rw [Tab.find?_set_other t h]

/-- A write keeps the canonical form. -/
theorem Tab.wf_put {d : α} {t : Tab α} (h : Tab.wf d t = true) (k : Nat) (v : α) :
    Tab.wf d (Tab.put d t k v) = true := by
  simp only [Tab.wf, Bool.and_eq_true] at h ⊢
  unfold Tab.put
  split
  · exact ⟨Tab.rising_erase h.1 k, Tab.all_erase h.2 k⟩
  · next hv => exact ⟨Tab.rising_set h.1 v rfl, Tab.all_set h.2 (by simpa using hv)⟩

theorem Tab.wf_filter {d : α} {t : Tab α} (h : Tab.wf d t = true) (p : Nat × α → Bool) :
    Tab.wf d (t.filter p) = true := by
  simp only [Tab.wf, Bool.and_eq_true] at h ⊢
  refine ⟨Tab.rising_filter h.1 p, ?_⟩
  simp only [List.all_eq_true] at h ⊢
  intro e he
  exact h.2 e (List.mem_of_mem_filter he)

theorem Tab.wf_mapPut {d : α} {t : Tab α} (h : Tab.wf d t = true) (f : Nat → α → α) :
    Tab.wf d (Tab.mapPut d f t) = true := by
  simp only [Tab.wf, Bool.and_eq_true] at h ⊢
  refine ⟨Tab.rising_filter (Tab.rising_mapVals h.1 f) _, ?_⟩
  simp only [List.all_eq_true]
  intro e he
  exact (List.mem_filter.mp he).2

end

/-! ### Byte memory -/

@[simp] theorem Memory.wf_nil : Memory.wf [] = true := rfl

theorem Memory.byte_setByte_same (m : Tab Byte) (a : Nat) (b : Byte) :
    Memory.byte (Memory.setByte m a b) a = b := Tab.look_put_same 0 m a b

theorem Memory.byte_setByte_other (m : Tab Byte) {a a' : Nat} (h : a' ≠ a) (b : Byte) :
    Memory.byte (Memory.setByte m a b) a' = Memory.byte m a' := Tab.look_put_other 0 m h b

theorem Memory.wf_setByte {m : Tab Byte} (h : Memory.wf m = true) (a : Nat) (b : Byte) :
    Memory.wf (Memory.setByte m a b) = true := Tab.wf_put h a b

theorem Memory.wf_write {m : Tab Byte} (h : Memory.wf m = true) (a : Nat) (bs : Bytes) :
    Memory.wf (Memory.write m a bs) = true := by
  induction bs generalizing m a with
  | nil => exact h
  | cons b bs ih => exact ih (Memory.wf_setByte h a b) (a + 1)

theorem Memory.wf_clear {m : Tab Byte} (h : Memory.wf m = true) (a n : Nat) :
    Memory.wf (Memory.clear m a n) = true := Tab.wf_filter h _

/-- A write changes no byte below its first address. -/
theorem Memory.byte_write_below (m : Tab Byte) {a a' : Nat} (bs : Bytes) (h : a' < a) :
    Memory.byte (Memory.write m a bs) a' = Memory.byte m a' := by
  induction bs generalizing m a with
  | nil => rfl
  | cons b bs ih =>
    rw [Memory.write, ih _ (by omega), Memory.byte_setByte_other m (by omega)]

/-- A write changes no byte outside the bytes it writes. -/
theorem Memory.byte_write_outside (m : Tab Byte) {a a' : Nat} (bs : Bytes) (h : a' < a ∨ a + bs.length ≤ a') :
    Memory.byte (Memory.write m a bs) a' = Memory.byte m a' := by
  induction bs generalizing m a with
  | nil => rfl
  | cons b bs ih =>
    simp only [List.length_cons] at h
    rw [Memory.write, ih _ (by omega), Memory.byte_setByte_other m (by omega)]

/-- A read of a byte just written gives the byte written. -/
theorem Memory.byte_write_inside (m : Tab Byte) (a : Nat) (bs : Bytes) {i : Nat}
    (hi : i < bs.length) : Memory.byte (Memory.write m a bs) (a + i) = bs[i] := by
  induction bs generalizing m a i with
  | nil => simp at hi
  | cons b bs ih =>
    cases i with
    | zero =>
      simp only [Memory.write, Nat.add_zero, List.getElem_cons_zero]
      rw [Memory.byte_write_below _ _ (by omega), Memory.byte_setByte_same]
    | succ i =>
      simp only [Memory.write, List.getElem_cons_succ]
      have := ih (Memory.setByte m a b) (a + 1) (i := i) (by simpa using hi)
      rwa [show a + 1 + i = a + (i + 1) by omega] at this

theorem find?_filter_keep {t : Tab α} {p : Nat × α → Bool} {k : Nat} (h : ∀ v, p (k, v) = true) :
    Tab.find? (t.filter p) k = Tab.find? t k := by
  induction t with
  | nil => rfl
  | cons e t ih =>
    obtain ⟨j, v⟩ := e
    by_cases hj : j = k
    · subst hj
      have hp := h v
      simp [hp, Tab.find?]
    · by_cases hp : p (j, v) = true
      · simp [hp, Tab.find?, hj, ih]
      · simp [hp, Tab.find?, hj, ih]

theorem find?_filter_drop {t : Tab α} {p : Nat × α → Bool} {k : Nat} (h : ∀ v, p (k, v) = false) :
    Tab.find? (t.filter p) k = none := by
  induction t with
  | nil => rfl
  | cons e t ih =>
    obtain ⟨j, v⟩ := e
    by_cases hp : p (j, v) = true
    · have hj : ¬ j = k := by intro hj; subst hj; simp [h v] at hp
      simp [hp, Tab.find?, hj, ih]
    · simp [hp, ih]

/-- A cleared byte reads zero. -/
theorem Memory.byte_clear_inside (m : Tab Byte) {a n a' : Nat} (h1 : a ≤ a') (h2 : a' < a + n) :
    Memory.byte (Memory.clear m a n) a' = 0 := by
  unfold Memory.byte Memory.clear Tab.look
  rw [find?_filter_drop (by simp [h1, h2])]
  rfl

/-- A byte outside the cleared range reads as before. -/
theorem Memory.byte_clear_outside (m : Tab Byte) {a n a' : Nat} (h : a' < a ∨ a + n ≤ a') :
    Memory.byte (Memory.clear m a n) a' = Memory.byte m a' := by
  unfold Memory.byte Memory.clear Tab.look
  rw [find?_filter_keep]
  intro v
  simp only [Bool.not_eq_true', Bool.and_eq_false_imp, decide_eq_true_eq, decide_eq_false_iff_not]
  intro h1
  omega

end Sys2Proof
end

