-- ==== Sys2Proof/Laws/State.lean ====
section
/-! SUPPORT. What each update of one object of a table leaves alone, field by field, and what reading the object gives
afterwards, so that no proof about the machine unfolds a record update. -/

namespace Sys2Proof.Machine

/-! ### setDomain -/

@[simp] theorem State.setDomain_pending (s : State) (n : Nat) (x : Domain) : (s.setDomain n x).pending = s.pending := rfl
@[simp] theorem State.setDomain_now (s : State) (n : Nat) (x : Domain) : (s.setDomain n x).now = s.now := rfl
@[simp] theorem State.setDomain_fresh (s : State) (n : Nat) (x : Domain) : (s.setDomain n x).fresh = s.fresh := rfl
@[simp] theorem State.setDomain_fuses (s : State) (n : Nat) (x : Domain) : (s.setDomain n x).fuses = s.fuses := rfl
@[simp] theorem State.setDomain_supply (s : State) (n : Nat) (x : Domain) : (s.setDomain n x).supply = s.supply := rfl
@[simp] theorem State.setDomain_boot (s : State) (n : Nat) (x : Domain) : (s.setDomain n x).boot = s.boot := rfl
@[simp] theorem State.setDomain_memHold (s : State) (n : Nat) (x : Domain) : (s.setDomain n x).memHold = s.memHold := rfl
@[simp] theorem State.setDomain_frame (s : State) (n : Nat) (x : Domain) : (s.setDomain n x).frame = s.frame := rfl
@[simp] theorem State.setDomain_energy (s : State) (n : Nat) (x : Domain) : (s.setDomain n x).energy = s.energy := rfl
@[simp] theorem State.setDomain_power (s : State) (n : Nat) (x : Domain) : (s.setDomain n x).power = s.power := rfl
@[simp] theorem State.setDomain_errors (s : State) (n : Nat) (x : Domain) : (s.setDomain n x).errors = s.errors := rfl
@[simp] theorem State.setDomain_dict (s : State) (n : Nat) (x : Domain) : (s.setDomain n x).dict = s.dict := rfl
@[simp] theorem State.setDomain_security (s : State) (n : Nat) (x : Domain) : (s.setDomain n x).security = s.security := rfl
@[simp] theorem State.setDomain_cores (s : State) (n : Nat) (x : Domain) : (s.setDomain n x).cores = s.cores := rfl
@[simp] theorem State.setDomain_engines (s : State) (n : Nat) (x : Domain) : (s.setDomain n x).engines = s.engines := rfl
@[simp] theorem State.setDomain_mesh (s : State) (n : Nat) (x : Domain) : (s.setDomain n x).mesh = s.mesh := rfl
@[simp] theorem State.setDomain_sram (s : State) (n : Nat) (x : Domain) : (s.setDomain n x).sram = s.sram := rfl
@[simp] theorem State.setDomain_hbm (s : State) (n : Nat) (x : Domain) : (s.setDomain n x).hbm = s.hbm := rfl
@[simp] theorem State.setDomain_xlat (s : State) (n : Nat) (x : Domain) : (s.setDomain n x).xlat = s.xlat := rfl
@[simp] theorem State.setDomain_host (s : State) (n : Nat) (x : Domain) : (s.setDomain n x).host = s.host := rfl
@[simp] theorem State.setDomain_queues (s : State) (n : Nat) (x : Domain) : (s.setDomain n x).queues = s.queues := rfl
@[simp] theorem State.setDomain_fences (s : State) (n : Nat) (x : Domain) : (s.setDomain n x).fences = s.fences := rfl
@[simp] theorem State.setDomain_bights (s : State) (n : Nat) (x : Domain) : (s.setDomain n x).bights = s.bights := rfl
@[simp] theorem State.setDomain_fabric (s : State) (n : Nat) (x : Domain) : (s.setDomain n x).fabric = s.fabric := rfl
@[simp] theorem State.setDomain_handoff (s : State) (n : Nat) (x : Domain) : (s.setDomain n x).handoff = s.handoff := rfl
@[simp] theorem State.setDomain_mem (s : State) (n : Nat) (x : Domain) : (s.setDomain n x).mem = s.mem := rfl
@[simp] theorem State.setDomain_sramCheck (s : State) (n : Nat) (x : Domain) : (s.setDomain n x).sramCheck = s.sramCheck := rfl
@[simp] theorem State.setDomain_hbmCheck (s : State) (n : Nat) (x : Domain) : (s.setDomain n x).hbmCheck = s.hbmCheck := rfl
@[simp] theorem State.setDomain_reqs (s : State) (n : Nat) (x : Domain) : (s.setDomain n x).reqs = s.reqs := rfl
@[simp] theorem State.setDomain_nextReq (s : State) (n : Nat) (x : Domain) : (s.setDomain n x).nextReq = s.nextReq := rfl
@[simp] theorem State.setDomain_sent (s : State) (n : Nat) (x : Domain) : (s.setDomain n x).sent = s.sent := rfl
theorem State.domain_setDomain (s : State) (n m : Nat) (x : Domain) :
    (s.setDomain n x).domain m = if m = n then x else s.domain m := Tab.look_put _ _ _ _ _
@[simp] theorem State.domain_setDomain_self (s : State) (n : Nat) (x : Domain) : (s.setDomain n x).domain n = x := by
  simp [State.domain_setDomain]
@[simp] theorem State.core_setDomain (s : State) (n m : Nat) (x : Domain) : (s.setDomain n x).core m = s.core m := rfl
@[simp] theorem State.engine_setDomain (s : State) (n m : Nat) (x : Domain) : (s.setDomain n x).engine m = s.engine m := rfl
@[simp] theorem State.router_setDomain (s : State) (n m : Nat) (x : Domain) : (s.setDomain n x).router m = s.router m := rfl
@[simp] theorem State.group_setDomain (s : State) (n m : Nat) (x : Domain) : (s.setDomain n x).group m = s.group m := rfl
@[simp] theorem State.fn_setDomain (s : State) (n m : Nat) (x : Domain) : (s.setDomain n x).fn m = s.fn m := rfl
@[simp] theorem State.bight_setDomain (s : State) (n m : Nat) (x : Domain) : (s.setDomain n x).bight m = s.bight m := rfl
@[simp] theorem State.port_setDomain (s : State) (n m : Nat) (x : Domain) : (s.setDomain n x).port m = s.port m := rfl
@[simp] theorem State.pace_setDomain (s : State) (n m : Nat) (x : Domain) : (s.setDomain n x).pace m = s.pace m := rfl
@[simp] theorem State.slot_setDomain (s : State) (n m : Nat) (x : Domain) : (s.setDomain n x).slot m = s.slot m := rfl
@[simp] theorem State.keySlot_setDomain (s : State) (n m : Nat) (x : Domain) : (s.setDomain n x).keySlot m = s.keySlot m := rfl
@[simp] theorem State.inWin_setDomain (s : State) (n m : Nat) (x : Domain) : (s.setDomain n x).inWin m = s.inWin m := rfl
@[simp] theorem State.outWin_setDomain (s : State) (n m : Nat) (x : Domain) : (s.setDomain n x).outWin m = s.outWin m := rfl
@[simp] theorem State.queue_setDomain (s : State) (n m : Nat) (x : Domain) : (s.setDomain n x).queue? m = s.queue? m := rfl
@[simp] theorem State.fence_setDomain (s : State) (n m : Nat) (x : Domain) : (s.setDomain n x).fence? m = s.fence? m := rfl

/-! ### setCore -/

@[simp] theorem State.setCore_pending (s : State) (n : Nat) (x : Core) : (s.setCore n x).pending = s.pending := rfl
@[simp] theorem State.setCore_now (s : State) (n : Nat) (x : Core) : (s.setCore n x).now = s.now := rfl
@[simp] theorem State.setCore_fresh (s : State) (n : Nat) (x : Core) : (s.setCore n x).fresh = s.fresh := rfl
@[simp] theorem State.setCore_fuses (s : State) (n : Nat) (x : Core) : (s.setCore n x).fuses = s.fuses := rfl
@[simp] theorem State.setCore_supply (s : State) (n : Nat) (x : Core) : (s.setCore n x).supply = s.supply := rfl
@[simp] theorem State.setCore_boot (s : State) (n : Nat) (x : Core) : (s.setCore n x).boot = s.boot := rfl
@[simp] theorem State.setCore_domains (s : State) (n : Nat) (x : Core) : (s.setCore n x).domains = s.domains := rfl
@[simp] theorem State.setCore_memHold (s : State) (n : Nat) (x : Core) : (s.setCore n x).memHold = s.memHold := rfl
@[simp] theorem State.setCore_frame (s : State) (n : Nat) (x : Core) : (s.setCore n x).frame = s.frame := rfl
@[simp] theorem State.setCore_energy (s : State) (n : Nat) (x : Core) : (s.setCore n x).energy = s.energy := rfl
@[simp] theorem State.setCore_power (s : State) (n : Nat) (x : Core) : (s.setCore n x).power = s.power := rfl
@[simp] theorem State.setCore_errors (s : State) (n : Nat) (x : Core) : (s.setCore n x).errors = s.errors := rfl
@[simp] theorem State.setCore_dict (s : State) (n : Nat) (x : Core) : (s.setCore n x).dict = s.dict := rfl
@[simp] theorem State.setCore_security (s : State) (n : Nat) (x : Core) : (s.setCore n x).security = s.security := rfl
@[simp] theorem State.setCore_engines (s : State) (n : Nat) (x : Core) : (s.setCore n x).engines = s.engines := rfl
@[simp] theorem State.setCore_mesh (s : State) (n : Nat) (x : Core) : (s.setCore n x).mesh = s.mesh := rfl
@[simp] theorem State.setCore_sram (s : State) (n : Nat) (x : Core) : (s.setCore n x).sram = s.sram := rfl
@[simp] theorem State.setCore_hbm (s : State) (n : Nat) (x : Core) : (s.setCore n x).hbm = s.hbm := rfl
@[simp] theorem State.setCore_xlat (s : State) (n : Nat) (x : Core) : (s.setCore n x).xlat = s.xlat := rfl
@[simp] theorem State.setCore_host (s : State) (n : Nat) (x : Core) : (s.setCore n x).host = s.host := rfl
@[simp] theorem State.setCore_queues (s : State) (n : Nat) (x : Core) : (s.setCore n x).queues = s.queues := rfl
@[simp] theorem State.setCore_fences (s : State) (n : Nat) (x : Core) : (s.setCore n x).fences = s.fences := rfl
@[simp] theorem State.setCore_bights (s : State) (n : Nat) (x : Core) : (s.setCore n x).bights = s.bights := rfl
@[simp] theorem State.setCore_fabric (s : State) (n : Nat) (x : Core) : (s.setCore n x).fabric = s.fabric := rfl
@[simp] theorem State.setCore_handoff (s : State) (n : Nat) (x : Core) : (s.setCore n x).handoff = s.handoff := rfl
@[simp] theorem State.setCore_mem (s : State) (n : Nat) (x : Core) : (s.setCore n x).mem = s.mem := rfl
@[simp] theorem State.setCore_sramCheck (s : State) (n : Nat) (x : Core) : (s.setCore n x).sramCheck = s.sramCheck := rfl
@[simp] theorem State.setCore_hbmCheck (s : State) (n : Nat) (x : Core) : (s.setCore n x).hbmCheck = s.hbmCheck := rfl
@[simp] theorem State.setCore_reqs (s : State) (n : Nat) (x : Core) : (s.setCore n x).reqs = s.reqs := rfl
@[simp] theorem State.setCore_nextReq (s : State) (n : Nat) (x : Core) : (s.setCore n x).nextReq = s.nextReq := rfl
@[simp] theorem State.setCore_sent (s : State) (n : Nat) (x : Core) : (s.setCore n x).sent = s.sent := rfl
theorem State.core_setCore (s : State) (n m : Nat) (x : Core) :
    (s.setCore n x).core m = if m = n then x else s.core m := Tab.look_put _ _ _ _ _
@[simp] theorem State.core_setCore_self (s : State) (n : Nat) (x : Core) : (s.setCore n x).core n = x := by
  simp [State.core_setCore]
@[simp] theorem State.domain_setCore (s : State) (n m : Nat) (x : Core) : (s.setCore n x).domain m = s.domain m := rfl
@[simp] theorem State.engine_setCore (s : State) (n m : Nat) (x : Core) : (s.setCore n x).engine m = s.engine m := rfl
@[simp] theorem State.router_setCore (s : State) (n m : Nat) (x : Core) : (s.setCore n x).router m = s.router m := rfl
@[simp] theorem State.group_setCore (s : State) (n m : Nat) (x : Core) : (s.setCore n x).group m = s.group m := rfl
@[simp] theorem State.fn_setCore (s : State) (n m : Nat) (x : Core) : (s.setCore n x).fn m = s.fn m := rfl
@[simp] theorem State.bight_setCore (s : State) (n m : Nat) (x : Core) : (s.setCore n x).bight m = s.bight m := rfl
@[simp] theorem State.port_setCore (s : State) (n m : Nat) (x : Core) : (s.setCore n x).port m = s.port m := rfl
@[simp] theorem State.pace_setCore (s : State) (n m : Nat) (x : Core) : (s.setCore n x).pace m = s.pace m := rfl
@[simp] theorem State.slot_setCore (s : State) (n m : Nat) (x : Core) : (s.setCore n x).slot m = s.slot m := rfl
@[simp] theorem State.keySlot_setCore (s : State) (n m : Nat) (x : Core) : (s.setCore n x).keySlot m = s.keySlot m := rfl
@[simp] theorem State.inWin_setCore (s : State) (n m : Nat) (x : Core) : (s.setCore n x).inWin m = s.inWin m := rfl
@[simp] theorem State.outWin_setCore (s : State) (n m : Nat) (x : Core) : (s.setCore n x).outWin m = s.outWin m := rfl
@[simp] theorem State.queue_setCore (s : State) (n m : Nat) (x : Core) : (s.setCore n x).queue? m = s.queue? m := rfl
@[simp] theorem State.fence_setCore (s : State) (n m : Nat) (x : Core) : (s.setCore n x).fence? m = s.fence? m := rfl

/-! ### setEngine -/

@[simp] theorem State.setEngine_pending (s : State) (n : Nat) (x : Engine) : (s.setEngine n x).pending = s.pending := rfl
@[simp] theorem State.setEngine_now (s : State) (n : Nat) (x : Engine) : (s.setEngine n x).now = s.now := rfl
@[simp] theorem State.setEngine_fresh (s : State) (n : Nat) (x : Engine) : (s.setEngine n x).fresh = s.fresh := rfl
@[simp] theorem State.setEngine_fuses (s : State) (n : Nat) (x : Engine) : (s.setEngine n x).fuses = s.fuses := rfl
@[simp] theorem State.setEngine_supply (s : State) (n : Nat) (x : Engine) : (s.setEngine n x).supply = s.supply := rfl
@[simp] theorem State.setEngine_boot (s : State) (n : Nat) (x : Engine) : (s.setEngine n x).boot = s.boot := rfl
@[simp] theorem State.setEngine_domains (s : State) (n : Nat) (x : Engine) : (s.setEngine n x).domains = s.domains := rfl
@[simp] theorem State.setEngine_memHold (s : State) (n : Nat) (x : Engine) : (s.setEngine n x).memHold = s.memHold := rfl
@[simp] theorem State.setEngine_frame (s : State) (n : Nat) (x : Engine) : (s.setEngine n x).frame = s.frame := rfl
@[simp] theorem State.setEngine_energy (s : State) (n : Nat) (x : Engine) : (s.setEngine n x).energy = s.energy := rfl
@[simp] theorem State.setEngine_power (s : State) (n : Nat) (x : Engine) : (s.setEngine n x).power = s.power := rfl
@[simp] theorem State.setEngine_errors (s : State) (n : Nat) (x : Engine) : (s.setEngine n x).errors = s.errors := rfl
@[simp] theorem State.setEngine_dict (s : State) (n : Nat) (x : Engine) : (s.setEngine n x).dict = s.dict := rfl
@[simp] theorem State.setEngine_security (s : State) (n : Nat) (x : Engine) : (s.setEngine n x).security = s.security := rfl
@[simp] theorem State.setEngine_cores (s : State) (n : Nat) (x : Engine) : (s.setEngine n x).cores = s.cores := rfl
@[simp] theorem State.setEngine_mesh (s : State) (n : Nat) (x : Engine) : (s.setEngine n x).mesh = s.mesh := rfl
@[simp] theorem State.setEngine_sram (s : State) (n : Nat) (x : Engine) : (s.setEngine n x).sram = s.sram := rfl
@[simp] theorem State.setEngine_hbm (s : State) (n : Nat) (x : Engine) : (s.setEngine n x).hbm = s.hbm := rfl
@[simp] theorem State.setEngine_xlat (s : State) (n : Nat) (x : Engine) : (s.setEngine n x).xlat = s.xlat := rfl
@[simp] theorem State.setEngine_host (s : State) (n : Nat) (x : Engine) : (s.setEngine n x).host = s.host := rfl
@[simp] theorem State.setEngine_queues (s : State) (n : Nat) (x : Engine) : (s.setEngine n x).queues = s.queues := rfl
@[simp] theorem State.setEngine_fences (s : State) (n : Nat) (x : Engine) : (s.setEngine n x).fences = s.fences := rfl
@[simp] theorem State.setEngine_bights (s : State) (n : Nat) (x : Engine) : (s.setEngine n x).bights = s.bights := rfl
@[simp] theorem State.setEngine_fabric (s : State) (n : Nat) (x : Engine) : (s.setEngine n x).fabric = s.fabric := rfl
@[simp] theorem State.setEngine_handoff (s : State) (n : Nat) (x : Engine) : (s.setEngine n x).handoff = s.handoff := rfl
@[simp] theorem State.setEngine_mem (s : State) (n : Nat) (x : Engine) : (s.setEngine n x).mem = s.mem := rfl
@[simp] theorem State.setEngine_sramCheck (s : State) (n : Nat) (x : Engine) : (s.setEngine n x).sramCheck = s.sramCheck := rfl
@[simp] theorem State.setEngine_hbmCheck (s : State) (n : Nat) (x : Engine) : (s.setEngine n x).hbmCheck = s.hbmCheck := rfl
@[simp] theorem State.setEngine_reqs (s : State) (n : Nat) (x : Engine) : (s.setEngine n x).reqs = s.reqs := rfl
@[simp] theorem State.setEngine_nextReq (s : State) (n : Nat) (x : Engine) : (s.setEngine n x).nextReq = s.nextReq := rfl
@[simp] theorem State.setEngine_sent (s : State) (n : Nat) (x : Engine) : (s.setEngine n x).sent = s.sent := rfl
theorem State.engine_setEngine (s : State) (n m : Nat) (x : Engine) :
    (s.setEngine n x).engine m = if m = n then x else s.engine m := Tab.look_put _ _ _ _ _
@[simp] theorem State.engine_setEngine_self (s : State) (n : Nat) (x : Engine) : (s.setEngine n x).engine n = x := by
  simp [State.engine_setEngine]
@[simp] theorem State.domain_setEngine (s : State) (n m : Nat) (x : Engine) : (s.setEngine n x).domain m = s.domain m := rfl
@[simp] theorem State.core_setEngine (s : State) (n m : Nat) (x : Engine) : (s.setEngine n x).core m = s.core m := rfl
@[simp] theorem State.router_setEngine (s : State) (n m : Nat) (x : Engine) : (s.setEngine n x).router m = s.router m := rfl
@[simp] theorem State.group_setEngine (s : State) (n m : Nat) (x : Engine) : (s.setEngine n x).group m = s.group m := rfl
@[simp] theorem State.fn_setEngine (s : State) (n m : Nat) (x : Engine) : (s.setEngine n x).fn m = s.fn m := rfl
@[simp] theorem State.bight_setEngine (s : State) (n m : Nat) (x : Engine) : (s.setEngine n x).bight m = s.bight m := rfl
@[simp] theorem State.port_setEngine (s : State) (n m : Nat) (x : Engine) : (s.setEngine n x).port m = s.port m := rfl
@[simp] theorem State.pace_setEngine (s : State) (n m : Nat) (x : Engine) : (s.setEngine n x).pace m = s.pace m := rfl
@[simp] theorem State.slot_setEngine (s : State) (n m : Nat) (x : Engine) : (s.setEngine n x).slot m = s.slot m := rfl
@[simp] theorem State.keySlot_setEngine (s : State) (n m : Nat) (x : Engine) : (s.setEngine n x).keySlot m = s.keySlot m := rfl
@[simp] theorem State.inWin_setEngine (s : State) (n m : Nat) (x : Engine) : (s.setEngine n x).inWin m = s.inWin m := rfl
@[simp] theorem State.outWin_setEngine (s : State) (n m : Nat) (x : Engine) : (s.setEngine n x).outWin m = s.outWin m := rfl
@[simp] theorem State.queue_setEngine (s : State) (n m : Nat) (x : Engine) : (s.setEngine n x).queue? m = s.queue? m := rfl
@[simp] theorem State.fence_setEngine (s : State) (n m : Nat) (x : Engine) : (s.setEngine n x).fence? m = s.fence? m := rfl

/-! ### setRouter -/

@[simp] theorem State.setRouter_pending (s : State) (n : Nat) (x : Router) : (s.setRouter n x).pending = s.pending := rfl
@[simp] theorem State.setRouter_now (s : State) (n : Nat) (x : Router) : (s.setRouter n x).now = s.now := rfl
@[simp] theorem State.setRouter_fresh (s : State) (n : Nat) (x : Router) : (s.setRouter n x).fresh = s.fresh := rfl
@[simp] theorem State.setRouter_fuses (s : State) (n : Nat) (x : Router) : (s.setRouter n x).fuses = s.fuses := rfl
@[simp] theorem State.setRouter_supply (s : State) (n : Nat) (x : Router) : (s.setRouter n x).supply = s.supply := rfl
@[simp] theorem State.setRouter_boot (s : State) (n : Nat) (x : Router) : (s.setRouter n x).boot = s.boot := rfl
@[simp] theorem State.setRouter_domains (s : State) (n : Nat) (x : Router) : (s.setRouter n x).domains = s.domains := rfl
@[simp] theorem State.setRouter_memHold (s : State) (n : Nat) (x : Router) : (s.setRouter n x).memHold = s.memHold := rfl
@[simp] theorem State.setRouter_frame (s : State) (n : Nat) (x : Router) : (s.setRouter n x).frame = s.frame := rfl
@[simp] theorem State.setRouter_energy (s : State) (n : Nat) (x : Router) : (s.setRouter n x).energy = s.energy := rfl
@[simp] theorem State.setRouter_power (s : State) (n : Nat) (x : Router) : (s.setRouter n x).power = s.power := rfl
@[simp] theorem State.setRouter_errors (s : State) (n : Nat) (x : Router) : (s.setRouter n x).errors = s.errors := rfl
@[simp] theorem State.setRouter_dict (s : State) (n : Nat) (x : Router) : (s.setRouter n x).dict = s.dict := rfl
@[simp] theorem State.setRouter_security (s : State) (n : Nat) (x : Router) : (s.setRouter n x).security = s.security := rfl
@[simp] theorem State.setRouter_cores (s : State) (n : Nat) (x : Router) : (s.setRouter n x).cores = s.cores := rfl
@[simp] theorem State.setRouter_engines (s : State) (n : Nat) (x : Router) : (s.setRouter n x).engines = s.engines := rfl
@[simp] theorem State.setRouter_sram (s : State) (n : Nat) (x : Router) : (s.setRouter n x).sram = s.sram := rfl
@[simp] theorem State.setRouter_hbm (s : State) (n : Nat) (x : Router) : (s.setRouter n x).hbm = s.hbm := rfl
@[simp] theorem State.setRouter_xlat (s : State) (n : Nat) (x : Router) : (s.setRouter n x).xlat = s.xlat := rfl
@[simp] theorem State.setRouter_host (s : State) (n : Nat) (x : Router) : (s.setRouter n x).host = s.host := rfl
@[simp] theorem State.setRouter_queues (s : State) (n : Nat) (x : Router) : (s.setRouter n x).queues = s.queues := rfl
@[simp] theorem State.setRouter_fences (s : State) (n : Nat) (x : Router) : (s.setRouter n x).fences = s.fences := rfl
@[simp] theorem State.setRouter_bights (s : State) (n : Nat) (x : Router) : (s.setRouter n x).bights = s.bights := rfl
@[simp] theorem State.setRouter_fabric (s : State) (n : Nat) (x : Router) : (s.setRouter n x).fabric = s.fabric := rfl
@[simp] theorem State.setRouter_handoff (s : State) (n : Nat) (x : Router) : (s.setRouter n x).handoff = s.handoff := rfl
@[simp] theorem State.setRouter_mem (s : State) (n : Nat) (x : Router) : (s.setRouter n x).mem = s.mem := rfl
@[simp] theorem State.setRouter_sramCheck (s : State) (n : Nat) (x : Router) : (s.setRouter n x).sramCheck = s.sramCheck := rfl
@[simp] theorem State.setRouter_hbmCheck (s : State) (n : Nat) (x : Router) : (s.setRouter n x).hbmCheck = s.hbmCheck := rfl
@[simp] theorem State.setRouter_reqs (s : State) (n : Nat) (x : Router) : (s.setRouter n x).reqs = s.reqs := rfl
@[simp] theorem State.setRouter_nextReq (s : State) (n : Nat) (x : Router) : (s.setRouter n x).nextReq = s.nextReq := rfl
@[simp] theorem State.setRouter_sent (s : State) (n : Nat) (x : Router) : (s.setRouter n x).sent = s.sent := rfl
@[simp] theorem State.setRouter_mesh_flights (s : State) (n : Nat) (x : Router) : (s.setRouter n x).mesh.flights = s.mesh.flights := rfl
@[simp] theorem State.setRouter_mesh_circuits (s : State) (n : Nat) (x : Router) : (s.setRouter n x).mesh.circuits = s.mesh.circuits := rfl
@[simp] theorem State.setRouter_mesh_transit (s : State) (n : Nat) (x : Router) : (s.setRouter n x).mesh.transit = s.mesh.transit := rfl
@[simp] theorem State.setRouter_mesh_ratioNext (s : State) (n : Nat) (x : Router) : (s.setRouter n x).mesh.ratioNext = s.mesh.ratioNext := rfl
@[simp] theorem State.setRouter_mesh_tau0 (s : State) (n : Nat) (x : Router) : (s.setRouter n x).mesh.tau0 = s.mesh.tau0 := rfl
@[simp] theorem State.setRouter_mesh_deadLetters (s : State) (n : Nat) (x : Router) : (s.setRouter n x).mesh.deadLetters = s.mesh.deadLetters := rfl
@[simp] theorem State.setRouter_mesh_schedFaults (s : State) (n : Nat) (x : Router) : (s.setRouter n x).mesh.schedFaults = s.mesh.schedFaults := rfl
@[simp] theorem State.setRouter_mesh_relays (s : State) (n : Nat) (x : Router) : (s.setRouter n x).mesh.relays = s.mesh.relays := rfl
@[simp] theorem State.setRouter_mesh_retransmissions (s : State) (n : Nat) (x : Router) : (s.setRouter n x).mesh.retransmissions = s.mesh.retransmissions := rfl
@[simp] theorem State.setRouter_mesh_dropsUnpowered (s : State) (n : Nat) (x : Router) : (s.setRouter n x).mesh.dropsUnpowered = s.mesh.dropsUnpowered := rfl
@[simp] theorem State.setRouter_mesh_dropsCheck (s : State) (n : Nat) (x : Router) : (s.setRouter n x).mesh.dropsCheck = s.mesh.dropsCheck := rfl
@[simp] theorem State.setRouter_mesh_lan (s : State) (n : Nat) (x : Router) : (s.setRouter n x).mesh.lan = s.mesh.lan := rfl
@[simp] theorem State.setRouter_mesh_carried (s : State) (n : Nat) (x : Router) : (s.setRouter n x).mesh.carried = s.mesh.carried := rfl
theorem State.router_setRouter (s : State) (n m : Nat) (x : Router) :
    (s.setRouter n x).router m = if m = n then x else s.router m := Tab.look_put _ _ _ _ _
@[simp] theorem State.router_setRouter_self (s : State) (n : Nat) (x : Router) : (s.setRouter n x).router n = x := by
  simp [State.router_setRouter]
@[simp] theorem State.domain_setRouter (s : State) (n m : Nat) (x : Router) : (s.setRouter n x).domain m = s.domain m := rfl
@[simp] theorem State.core_setRouter (s : State) (n m : Nat) (x : Router) : (s.setRouter n x).core m = s.core m := rfl
@[simp] theorem State.engine_setRouter (s : State) (n m : Nat) (x : Router) : (s.setRouter n x).engine m = s.engine m := rfl
@[simp] theorem State.group_setRouter (s : State) (n m : Nat) (x : Router) : (s.setRouter n x).group m = s.group m := rfl
@[simp] theorem State.fn_setRouter (s : State) (n m : Nat) (x : Router) : (s.setRouter n x).fn m = s.fn m := rfl
@[simp] theorem State.bight_setRouter (s : State) (n m : Nat) (x : Router) : (s.setRouter n x).bight m = s.bight m := rfl
@[simp] theorem State.port_setRouter (s : State) (n m : Nat) (x : Router) : (s.setRouter n x).port m = s.port m := rfl
@[simp] theorem State.pace_setRouter (s : State) (n m : Nat) (x : Router) : (s.setRouter n x).pace m = s.pace m := rfl
@[simp] theorem State.slot_setRouter (s : State) (n m : Nat) (x : Router) : (s.setRouter n x).slot m = s.slot m := rfl
@[simp] theorem State.keySlot_setRouter (s : State) (n m : Nat) (x : Router) : (s.setRouter n x).keySlot m = s.keySlot m := rfl
@[simp] theorem State.inWin_setRouter (s : State) (n m : Nat) (x : Router) : (s.setRouter n x).inWin m = s.inWin m := rfl
@[simp] theorem State.outWin_setRouter (s : State) (n m : Nat) (x : Router) : (s.setRouter n x).outWin m = s.outWin m := rfl
@[simp] theorem State.queue_setRouter (s : State) (n m : Nat) (x : Router) : (s.setRouter n x).queue? m = s.queue? m := rfl
@[simp] theorem State.fence_setRouter (s : State) (n m : Nat) (x : Router) : (s.setRouter n x).fence? m = s.fence? m := rfl

/-! ### setGroup -/

@[simp] theorem State.setGroup_pending (s : State) (n : Nat) (x : Group) : (s.setGroup n x).pending = s.pending := rfl
@[simp] theorem State.setGroup_now (s : State) (n : Nat) (x : Group) : (s.setGroup n x).now = s.now := rfl
@[simp] theorem State.setGroup_fresh (s : State) (n : Nat) (x : Group) : (s.setGroup n x).fresh = s.fresh := rfl
@[simp] theorem State.setGroup_fuses (s : State) (n : Nat) (x : Group) : (s.setGroup n x).fuses = s.fuses := rfl
@[simp] theorem State.setGroup_supply (s : State) (n : Nat) (x : Group) : (s.setGroup n x).supply = s.supply := rfl
@[simp] theorem State.setGroup_boot (s : State) (n : Nat) (x : Group) : (s.setGroup n x).boot = s.boot := rfl
@[simp] theorem State.setGroup_domains (s : State) (n : Nat) (x : Group) : (s.setGroup n x).domains = s.domains := rfl
@[simp] theorem State.setGroup_memHold (s : State) (n : Nat) (x : Group) : (s.setGroup n x).memHold = s.memHold := rfl
@[simp] theorem State.setGroup_frame (s : State) (n : Nat) (x : Group) : (s.setGroup n x).frame = s.frame := rfl
@[simp] theorem State.setGroup_energy (s : State) (n : Nat) (x : Group) : (s.setGroup n x).energy = s.energy := rfl
@[simp] theorem State.setGroup_power (s : State) (n : Nat) (x : Group) : (s.setGroup n x).power = s.power := rfl
@[simp] theorem State.setGroup_errors (s : State) (n : Nat) (x : Group) : (s.setGroup n x).errors = s.errors := rfl
@[simp] theorem State.setGroup_dict (s : State) (n : Nat) (x : Group) : (s.setGroup n x).dict = s.dict := rfl
@[simp] theorem State.setGroup_security (s : State) (n : Nat) (x : Group) : (s.setGroup n x).security = s.security := rfl
@[simp] theorem State.setGroup_cores (s : State) (n : Nat) (x : Group) : (s.setGroup n x).cores = s.cores := rfl
@[simp] theorem State.setGroup_engines (s : State) (n : Nat) (x : Group) : (s.setGroup n x).engines = s.engines := rfl
@[simp] theorem State.setGroup_mesh (s : State) (n : Nat) (x : Group) : (s.setGroup n x).mesh = s.mesh := rfl
@[simp] theorem State.setGroup_sram (s : State) (n : Nat) (x : Group) : (s.setGroup n x).sram = s.sram := rfl
@[simp] theorem State.setGroup_xlat (s : State) (n : Nat) (x : Group) : (s.setGroup n x).xlat = s.xlat := rfl
@[simp] theorem State.setGroup_host (s : State) (n : Nat) (x : Group) : (s.setGroup n x).host = s.host := rfl
@[simp] theorem State.setGroup_queues (s : State) (n : Nat) (x : Group) : (s.setGroup n x).queues = s.queues := rfl
@[simp] theorem State.setGroup_fences (s : State) (n : Nat) (x : Group) : (s.setGroup n x).fences = s.fences := rfl
@[simp] theorem State.setGroup_bights (s : State) (n : Nat) (x : Group) : (s.setGroup n x).bights = s.bights := rfl
@[simp] theorem State.setGroup_fabric (s : State) (n : Nat) (x : Group) : (s.setGroup n x).fabric = s.fabric := rfl
@[simp] theorem State.setGroup_handoff (s : State) (n : Nat) (x : Group) : (s.setGroup n x).handoff = s.handoff := rfl
@[simp] theorem State.setGroup_mem (s : State) (n : Nat) (x : Group) : (s.setGroup n x).mem = s.mem := rfl
@[simp] theorem State.setGroup_sramCheck (s : State) (n : Nat) (x : Group) : (s.setGroup n x).sramCheck = s.sramCheck := rfl
@[simp] theorem State.setGroup_hbmCheck (s : State) (n : Nat) (x : Group) : (s.setGroup n x).hbmCheck = s.hbmCheck := rfl
@[simp] theorem State.setGroup_reqs (s : State) (n : Nat) (x : Group) : (s.setGroup n x).reqs = s.reqs := rfl
@[simp] theorem State.setGroup_nextReq (s : State) (n : Nat) (x : Group) : (s.setGroup n x).nextReq = s.nextReq := rfl
@[simp] theorem State.setGroup_sent (s : State) (n : Nat) (x : Group) : (s.setGroup n x).sent = s.sent := rfl
@[simp] theorem State.setGroup_hbm_failed (s : State) (n : Nat) (x : Group) : (s.setGroup n x).hbm.failed = s.hbm.failed := rfl
@[simp] theorem State.setGroup_hbm_select (s : State) (n : Nat) (x : Group) : (s.setGroup n x).hbm.select = s.hbm.select := rfl
theorem State.group_setGroup (s : State) (n m : Nat) (x : Group) :
    (s.setGroup n x).group m = if m = n then x else s.group m := Tab.look_put _ _ _ _ _
@[simp] theorem State.group_setGroup_self (s : State) (n : Nat) (x : Group) : (s.setGroup n x).group n = x := by
  simp [State.group_setGroup]
@[simp] theorem State.domain_setGroup (s : State) (n m : Nat) (x : Group) : (s.setGroup n x).domain m = s.domain m := rfl
@[simp] theorem State.core_setGroup (s : State) (n m : Nat) (x : Group) : (s.setGroup n x).core m = s.core m := rfl
@[simp] theorem State.engine_setGroup (s : State) (n m : Nat) (x : Group) : (s.setGroup n x).engine m = s.engine m := rfl
@[simp] theorem State.router_setGroup (s : State) (n m : Nat) (x : Group) : (s.setGroup n x).router m = s.router m := rfl
@[simp] theorem State.fn_setGroup (s : State) (n m : Nat) (x : Group) : (s.setGroup n x).fn m = s.fn m := rfl
@[simp] theorem State.bight_setGroup (s : State) (n m : Nat) (x : Group) : (s.setGroup n x).bight m = s.bight m := rfl
@[simp] theorem State.port_setGroup (s : State) (n m : Nat) (x : Group) : (s.setGroup n x).port m = s.port m := rfl
@[simp] theorem State.pace_setGroup (s : State) (n m : Nat) (x : Group) : (s.setGroup n x).pace m = s.pace m := rfl
@[simp] theorem State.slot_setGroup (s : State) (n m : Nat) (x : Group) : (s.setGroup n x).slot m = s.slot m := rfl
@[simp] theorem State.keySlot_setGroup (s : State) (n m : Nat) (x : Group) : (s.setGroup n x).keySlot m = s.keySlot m := rfl
@[simp] theorem State.inWin_setGroup (s : State) (n m : Nat) (x : Group) : (s.setGroup n x).inWin m = s.inWin m := rfl
@[simp] theorem State.outWin_setGroup (s : State) (n m : Nat) (x : Group) : (s.setGroup n x).outWin m = s.outWin m := rfl
@[simp] theorem State.queue_setGroup (s : State) (n m : Nat) (x : Group) : (s.setGroup n x).queue? m = s.queue? m := rfl
@[simp] theorem State.fence_setGroup (s : State) (n m : Nat) (x : Group) : (s.setGroup n x).fence? m = s.fence? m := rfl

/-! ### setFn -/

@[simp] theorem State.setFn_pending (s : State) (n : Nat) (x : Fn) : (s.setFn n x).pending = s.pending := rfl
@[simp] theorem State.setFn_now (s : State) (n : Nat) (x : Fn) : (s.setFn n x).now = s.now := rfl
@[simp] theorem State.setFn_fresh (s : State) (n : Nat) (x : Fn) : (s.setFn n x).fresh = s.fresh := rfl
@[simp] theorem State.setFn_fuses (s : State) (n : Nat) (x : Fn) : (s.setFn n x).fuses = s.fuses := rfl
@[simp] theorem State.setFn_supply (s : State) (n : Nat) (x : Fn) : (s.setFn n x).supply = s.supply := rfl
@[simp] theorem State.setFn_boot (s : State) (n : Nat) (x : Fn) : (s.setFn n x).boot = s.boot := rfl
@[simp] theorem State.setFn_domains (s : State) (n : Nat) (x : Fn) : (s.setFn n x).domains = s.domains := rfl
@[simp] theorem State.setFn_memHold (s : State) (n : Nat) (x : Fn) : (s.setFn n x).memHold = s.memHold := rfl
@[simp] theorem State.setFn_frame (s : State) (n : Nat) (x : Fn) : (s.setFn n x).frame = s.frame := rfl
@[simp] theorem State.setFn_energy (s : State) (n : Nat) (x : Fn) : (s.setFn n x).energy = s.energy := rfl
@[simp] theorem State.setFn_power (s : State) (n : Nat) (x : Fn) : (s.setFn n x).power = s.power := rfl
@[simp] theorem State.setFn_errors (s : State) (n : Nat) (x : Fn) : (s.setFn n x).errors = s.errors := rfl
@[simp] theorem State.setFn_dict (s : State) (n : Nat) (x : Fn) : (s.setFn n x).dict = s.dict := rfl
@[simp] theorem State.setFn_security (s : State) (n : Nat) (x : Fn) : (s.setFn n x).security = s.security := rfl
@[simp] theorem State.setFn_cores (s : State) (n : Nat) (x : Fn) : (s.setFn n x).cores = s.cores := rfl
@[simp] theorem State.setFn_engines (s : State) (n : Nat) (x : Fn) : (s.setFn n x).engines = s.engines := rfl
@[simp] theorem State.setFn_mesh (s : State) (n : Nat) (x : Fn) : (s.setFn n x).mesh = s.mesh := rfl
@[simp] theorem State.setFn_sram (s : State) (n : Nat) (x : Fn) : (s.setFn n x).sram = s.sram := rfl
@[simp] theorem State.setFn_hbm (s : State) (n : Nat) (x : Fn) : (s.setFn n x).hbm = s.hbm := rfl
@[simp] theorem State.setFn_xlat (s : State) (n : Nat) (x : Fn) : (s.setFn n x).xlat = s.xlat := rfl
@[simp] theorem State.setFn_queues (s : State) (n : Nat) (x : Fn) : (s.setFn n x).queues = s.queues := rfl
@[simp] theorem State.setFn_fences (s : State) (n : Nat) (x : Fn) : (s.setFn n x).fences = s.fences := rfl
@[simp] theorem State.setFn_bights (s : State) (n : Nat) (x : Fn) : (s.setFn n x).bights = s.bights := rfl
@[simp] theorem State.setFn_fabric (s : State) (n : Nat) (x : Fn) : (s.setFn n x).fabric = s.fabric := rfl
@[simp] theorem State.setFn_handoff (s : State) (n : Nat) (x : Fn) : (s.setFn n x).handoff = s.handoff := rfl
@[simp] theorem State.setFn_mem (s : State) (n : Nat) (x : Fn) : (s.setFn n x).mem = s.mem := rfl
@[simp] theorem State.setFn_sramCheck (s : State) (n : Nat) (x : Fn) : (s.setFn n x).sramCheck = s.sramCheck := rfl
@[simp] theorem State.setFn_hbmCheck (s : State) (n : Nat) (x : Fn) : (s.setFn n x).hbmCheck = s.hbmCheck := rfl
@[simp] theorem State.setFn_reqs (s : State) (n : Nat) (x : Fn) : (s.setFn n x).reqs = s.reqs := rfl
@[simp] theorem State.setFn_nextReq (s : State) (n : Nat) (x : Fn) : (s.setFn n x).nextReq = s.nextReq := rfl
@[simp] theorem State.setFn_sent (s : State) (n : Nat) (x : Fn) : (s.setFn n x).sent = s.sent := rfl
@[simp] theorem State.setFn_host_linkUp (s : State) (n : Nat) (x : Fn) : (s.setFn n x).host.linkUp = s.host.linkUp := rfl
@[simp] theorem State.setFn_host_apertureWaiting (s : State) (n : Nat) (x : Fn) : (s.setFn n x).host.apertureWaiting = s.host.apertureWaiting := rfl
@[simp] theorem State.setFn_host_vfEnabled (s : State) (n : Nat) (x : Fn) : (s.setFn n x).host.vfEnabled = s.host.vfEnabled := rfl
@[simp] theorem State.setFn_host_opSeq (s : State) (n : Nat) (x : Fn) : (s.setFn n x).host.opSeq = s.host.opSeq := rfl
@[simp] theorem State.setFn_host_opKind (s : State) (n : Nat) (x : Fn) : (s.setFn n x).host.opKind = s.host.opKind := rfl
@[simp] theorem State.setFn_host_opResult (s : State) (n : Nat) (x : Fn) : (s.setFn n x).host.opResult = s.host.opResult := rfl
@[simp] theorem State.setFn_host_malformed (s : State) (n : Nat) (x : Fn) : (s.setFn n x).host.malformed = s.host.malformed := rfl
@[simp] theorem State.setFn_host_signalsIgnored (s : State) (n : Nat) (x : Fn) : (s.setFn n x).host.signalsIgnored = s.host.signalsIgnored := rfl
@[simp] theorem State.setFn_host_doorbellsDropped (s : State) (n : Nat) (x : Fn) : (s.setFn n x).host.doorbellsDropped = s.host.doorbellsDropped := rfl
@[simp] theorem State.setFn_host_loose (s : State) (n : Nat) (x : Fn) : (s.setFn n x).host.loose = s.host.loose := rfl
@[simp] theorem State.setFn_host_fenceSelect (s : State) (n : Nat) (x : Fn) : (s.setFn n x).host.fenceSelect = s.host.fenceSelect := rfl
@[simp] theorem State.setFn_host_teardowns (s : State) (n : Nat) (x : Fn) : (s.setFn n x).host.teardowns = s.host.teardowns := rfl
@[simp] theorem State.setFn_host_flr (s : State) (n : Nat) (x : Fn) : (s.setFn n x).host.flr = s.host.flr := rfl
@[simp] theorem State.setFn_host_flrDue (s : State) (n : Nat) (x : Fn) : (s.setFn n x).host.flrDue = s.host.flrDue := rfl
@[simp] theorem State.setFn_host_abortSeq (s : State) (n : Nat) (x : Fn) : (s.setFn n x).host.abortSeq = s.host.abortSeq := rfl
@[simp] theorem State.setFn_host_abortResult (s : State) (n : Nat) (x : Fn) : (s.setFn n x).host.abortResult = s.host.abortResult := rfl
@[simp] theorem State.setFn_host_commits (s : State) (n : Nat) (x : Fn) : (s.setFn n x).host.commits = s.host.commits := rfl
@[simp] theorem State.setFn_host_reruns (s : State) (n : Nat) (x : Fn) : (s.setFn n x).host.reruns = s.host.reruns := rfl
@[simp] theorem State.setFn_host_tooLate (s : State) (n : Nat) (x : Fn) : (s.setFn n x).host.tooLate = s.host.tooLate := rfl
theorem State.fn_setFn (s : State) (n m : Nat) (x : Fn) :
    (s.setFn n x).fn m = if m = n then x else s.fn m := Tab.look_put _ _ _ _ _
@[simp] theorem State.fn_setFn_self (s : State) (n : Nat) (x : Fn) : (s.setFn n x).fn n = x := by
  simp [State.fn_setFn]
@[simp] theorem State.domain_setFn (s : State) (n m : Nat) (x : Fn) : (s.setFn n x).domain m = s.domain m := rfl
@[simp] theorem State.core_setFn (s : State) (n m : Nat) (x : Fn) : (s.setFn n x).core m = s.core m := rfl
@[simp] theorem State.engine_setFn (s : State) (n m : Nat) (x : Fn) : (s.setFn n x).engine m = s.engine m := rfl
@[simp] theorem State.router_setFn (s : State) (n m : Nat) (x : Fn) : (s.setFn n x).router m = s.router m := rfl
@[simp] theorem State.group_setFn (s : State) (n m : Nat) (x : Fn) : (s.setFn n x).group m = s.group m := rfl
@[simp] theorem State.bight_setFn (s : State) (n m : Nat) (x : Fn) : (s.setFn n x).bight m = s.bight m := rfl
@[simp] theorem State.port_setFn (s : State) (n m : Nat) (x : Fn) : (s.setFn n x).port m = s.port m := rfl
@[simp] theorem State.pace_setFn (s : State) (n m : Nat) (x : Fn) : (s.setFn n x).pace m = s.pace m := rfl
@[simp] theorem State.slot_setFn (s : State) (n m : Nat) (x : Fn) : (s.setFn n x).slot m = s.slot m := rfl
@[simp] theorem State.keySlot_setFn (s : State) (n m : Nat) (x : Fn) : (s.setFn n x).keySlot m = s.keySlot m := rfl
@[simp] theorem State.inWin_setFn (s : State) (n m : Nat) (x : Fn) : (s.setFn n x).inWin m = s.inWin m := rfl
@[simp] theorem State.outWin_setFn (s : State) (n m : Nat) (x : Fn) : (s.setFn n x).outWin m = s.outWin m := rfl
@[simp] theorem State.queue_setFn (s : State) (n m : Nat) (x : Fn) : (s.setFn n x).queue? m = s.queue? m := rfl
@[simp] theorem State.fence_setFn (s : State) (n m : Nat) (x : Fn) : (s.setFn n x).fence? m = s.fence? m := rfl

/-! ### setBight -/

@[simp] theorem State.setBight_pending (s : State) (n : Nat) (x : Bight) : (s.setBight n x).pending = s.pending := rfl
@[simp] theorem State.setBight_now (s : State) (n : Nat) (x : Bight) : (s.setBight n x).now = s.now := rfl
@[simp] theorem State.setBight_fresh (s : State) (n : Nat) (x : Bight) : (s.setBight n x).fresh = s.fresh := rfl
@[simp] theorem State.setBight_fuses (s : State) (n : Nat) (x : Bight) : (s.setBight n x).fuses = s.fuses := rfl
@[simp] theorem State.setBight_supply (s : State) (n : Nat) (x : Bight) : (s.setBight n x).supply = s.supply := rfl
@[simp] theorem State.setBight_boot (s : State) (n : Nat) (x : Bight) : (s.setBight n x).boot = s.boot := rfl
@[simp] theorem State.setBight_domains (s : State) (n : Nat) (x : Bight) : (s.setBight n x).domains = s.domains := rfl
@[simp] theorem State.setBight_memHold (s : State) (n : Nat) (x : Bight) : (s.setBight n x).memHold = s.memHold := rfl
@[simp] theorem State.setBight_frame (s : State) (n : Nat) (x : Bight) : (s.setBight n x).frame = s.frame := rfl
@[simp] theorem State.setBight_energy (s : State) (n : Nat) (x : Bight) : (s.setBight n x).energy = s.energy := rfl
@[simp] theorem State.setBight_power (s : State) (n : Nat) (x : Bight) : (s.setBight n x).power = s.power := rfl
@[simp] theorem State.setBight_errors (s : State) (n : Nat) (x : Bight) : (s.setBight n x).errors = s.errors := rfl
@[simp] theorem State.setBight_dict (s : State) (n : Nat) (x : Bight) : (s.setBight n x).dict = s.dict := rfl
@[simp] theorem State.setBight_security (s : State) (n : Nat) (x : Bight) : (s.setBight n x).security = s.security := rfl
@[simp] theorem State.setBight_cores (s : State) (n : Nat) (x : Bight) : (s.setBight n x).cores = s.cores := rfl
@[simp] theorem State.setBight_engines (s : State) (n : Nat) (x : Bight) : (s.setBight n x).engines = s.engines := rfl
@[simp] theorem State.setBight_mesh (s : State) (n : Nat) (x : Bight) : (s.setBight n x).mesh = s.mesh := rfl
@[simp] theorem State.setBight_sram (s : State) (n : Nat) (x : Bight) : (s.setBight n x).sram = s.sram := rfl
@[simp] theorem State.setBight_hbm (s : State) (n : Nat) (x : Bight) : (s.setBight n x).hbm = s.hbm := rfl
@[simp] theorem State.setBight_xlat (s : State) (n : Nat) (x : Bight) : (s.setBight n x).xlat = s.xlat := rfl
@[simp] theorem State.setBight_host (s : State) (n : Nat) (x : Bight) : (s.setBight n x).host = s.host := rfl
@[simp] theorem State.setBight_queues (s : State) (n : Nat) (x : Bight) : (s.setBight n x).queues = s.queues := rfl
@[simp] theorem State.setBight_fences (s : State) (n : Nat) (x : Bight) : (s.setBight n x).fences = s.fences := rfl
@[simp] theorem State.setBight_fabric (s : State) (n : Nat) (x : Bight) : (s.setBight n x).fabric = s.fabric := rfl
@[simp] theorem State.setBight_handoff (s : State) (n : Nat) (x : Bight) : (s.setBight n x).handoff = s.handoff := rfl
@[simp] theorem State.setBight_mem (s : State) (n : Nat) (x : Bight) : (s.setBight n x).mem = s.mem := rfl
@[simp] theorem State.setBight_sramCheck (s : State) (n : Nat) (x : Bight) : (s.setBight n x).sramCheck = s.sramCheck := rfl
@[simp] theorem State.setBight_hbmCheck (s : State) (n : Nat) (x : Bight) : (s.setBight n x).hbmCheck = s.hbmCheck := rfl
@[simp] theorem State.setBight_reqs (s : State) (n : Nat) (x : Bight) : (s.setBight n x).reqs = s.reqs := rfl
@[simp] theorem State.setBight_nextReq (s : State) (n : Nat) (x : Bight) : (s.setBight n x).nextReq = s.nextReq := rfl
@[simp] theorem State.setBight_sent (s : State) (n : Nat) (x : Bight) : (s.setBight n x).sent = s.sent := rfl
@[simp] theorem State.setBight_bights_opSeq (s : State) (n : Nat) (x : Bight) : (s.setBight n x).bights.opSeq = s.bights.opSeq := rfl
@[simp] theorem State.setBight_bights_opBight (s : State) (n : Nat) (x : Bight) : (s.setBight n x).bights.opBight = s.bights.opBight := rfl
@[simp] theorem State.setBight_bights_opKind (s : State) (n : Nat) (x : Bight) : (s.setBight n x).bights.opKind = s.bights.opKind := rfl
@[simp] theorem State.setBight_bights_opResult (s : State) (n : Nat) (x : Bight) : (s.setBight n x).bights.opResult = s.bights.opResult := rfl
@[simp] theorem State.setBight_bights_lashWaiting (s : State) (n : Nat) (x : Bight) : (s.setBight n x).bights.lashWaiting = s.bights.lashWaiting := rfl
theorem State.bight_setBight (s : State) (n m : Nat) (x : Bight) :
    (s.setBight n x).bight m = if m = n then x else s.bight m := Tab.look_put _ _ _ _ _
@[simp] theorem State.bight_setBight_self (s : State) (n : Nat) (x : Bight) : (s.setBight n x).bight n = x := by
  simp [State.bight_setBight]
@[simp] theorem State.domain_setBight (s : State) (n m : Nat) (x : Bight) : (s.setBight n x).domain m = s.domain m := rfl
@[simp] theorem State.core_setBight (s : State) (n m : Nat) (x : Bight) : (s.setBight n x).core m = s.core m := rfl
@[simp] theorem State.engine_setBight (s : State) (n m : Nat) (x : Bight) : (s.setBight n x).engine m = s.engine m := rfl
@[simp] theorem State.router_setBight (s : State) (n m : Nat) (x : Bight) : (s.setBight n x).router m = s.router m := rfl
@[simp] theorem State.group_setBight (s : State) (n m : Nat) (x : Bight) : (s.setBight n x).group m = s.group m := rfl
@[simp] theorem State.fn_setBight (s : State) (n m : Nat) (x : Bight) : (s.setBight n x).fn m = s.fn m := rfl
@[simp] theorem State.port_setBight (s : State) (n m : Nat) (x : Bight) : (s.setBight n x).port m = s.port m := rfl
@[simp] theorem State.pace_setBight (s : State) (n m : Nat) (x : Bight) : (s.setBight n x).pace m = s.pace m := rfl
@[simp] theorem State.slot_setBight (s : State) (n m : Nat) (x : Bight) : (s.setBight n x).slot m = s.slot m := rfl
@[simp] theorem State.keySlot_setBight (s : State) (n m : Nat) (x : Bight) : (s.setBight n x).keySlot m = s.keySlot m := rfl
@[simp] theorem State.inWin_setBight (s : State) (n m : Nat) (x : Bight) : (s.setBight n x).inWin m = s.inWin m := rfl
@[simp] theorem State.outWin_setBight (s : State) (n m : Nat) (x : Bight) : (s.setBight n x).outWin m = s.outWin m := rfl
@[simp] theorem State.queue_setBight (s : State) (n m : Nat) (x : Bight) : (s.setBight n x).queue? m = s.queue? m := rfl
@[simp] theorem State.fence_setBight (s : State) (n m : Nat) (x : Bight) : (s.setBight n x).fence? m = s.fence? m := rfl

/-! ### setPort -/

@[simp] theorem State.setPort_pending (s : State) (n : Nat) (x : Port) : (s.setPort n x).pending = s.pending := rfl
@[simp] theorem State.setPort_now (s : State) (n : Nat) (x : Port) : (s.setPort n x).now = s.now := rfl
@[simp] theorem State.setPort_fresh (s : State) (n : Nat) (x : Port) : (s.setPort n x).fresh = s.fresh := rfl
@[simp] theorem State.setPort_fuses (s : State) (n : Nat) (x : Port) : (s.setPort n x).fuses = s.fuses := rfl
@[simp] theorem State.setPort_supply (s : State) (n : Nat) (x : Port) : (s.setPort n x).supply = s.supply := rfl
@[simp] theorem State.setPort_boot (s : State) (n : Nat) (x : Port) : (s.setPort n x).boot = s.boot := rfl
@[simp] theorem State.setPort_domains (s : State) (n : Nat) (x : Port) : (s.setPort n x).domains = s.domains := rfl
@[simp] theorem State.setPort_memHold (s : State) (n : Nat) (x : Port) : (s.setPort n x).memHold = s.memHold := rfl
@[simp] theorem State.setPort_frame (s : State) (n : Nat) (x : Port) : (s.setPort n x).frame = s.frame := rfl
@[simp] theorem State.setPort_energy (s : State) (n : Nat) (x : Port) : (s.setPort n x).energy = s.energy := rfl
@[simp] theorem State.setPort_power (s : State) (n : Nat) (x : Port) : (s.setPort n x).power = s.power := rfl
@[simp] theorem State.setPort_errors (s : State) (n : Nat) (x : Port) : (s.setPort n x).errors = s.errors := rfl
@[simp] theorem State.setPort_dict (s : State) (n : Nat) (x : Port) : (s.setPort n x).dict = s.dict := rfl
@[simp] theorem State.setPort_security (s : State) (n : Nat) (x : Port) : (s.setPort n x).security = s.security := rfl
@[simp] theorem State.setPort_cores (s : State) (n : Nat) (x : Port) : (s.setPort n x).cores = s.cores := rfl
@[simp] theorem State.setPort_engines (s : State) (n : Nat) (x : Port) : (s.setPort n x).engines = s.engines := rfl
@[simp] theorem State.setPort_mesh (s : State) (n : Nat) (x : Port) : (s.setPort n x).mesh = s.mesh := rfl
@[simp] theorem State.setPort_sram (s : State) (n : Nat) (x : Port) : (s.setPort n x).sram = s.sram := rfl
@[simp] theorem State.setPort_hbm (s : State) (n : Nat) (x : Port) : (s.setPort n x).hbm = s.hbm := rfl
@[simp] theorem State.setPort_xlat (s : State) (n : Nat) (x : Port) : (s.setPort n x).xlat = s.xlat := rfl
@[simp] theorem State.setPort_host (s : State) (n : Nat) (x : Port) : (s.setPort n x).host = s.host := rfl
@[simp] theorem State.setPort_queues (s : State) (n : Nat) (x : Port) : (s.setPort n x).queues = s.queues := rfl
@[simp] theorem State.setPort_fences (s : State) (n : Nat) (x : Port) : (s.setPort n x).fences = s.fences := rfl
@[simp] theorem State.setPort_bights (s : State) (n : Nat) (x : Port) : (s.setPort n x).bights = s.bights := rfl
@[simp] theorem State.setPort_handoff (s : State) (n : Nat) (x : Port) : (s.setPort n x).handoff = s.handoff := rfl
@[simp] theorem State.setPort_mem (s : State) (n : Nat) (x : Port) : (s.setPort n x).mem = s.mem := rfl
@[simp] theorem State.setPort_sramCheck (s : State) (n : Nat) (x : Port) : (s.setPort n x).sramCheck = s.sramCheck := rfl
@[simp] theorem State.setPort_hbmCheck (s : State) (n : Nat) (x : Port) : (s.setPort n x).hbmCheck = s.hbmCheck := rfl
@[simp] theorem State.setPort_reqs (s : State) (n : Nat) (x : Port) : (s.setPort n x).reqs = s.reqs := rfl
@[simp] theorem State.setPort_nextReq (s : State) (n : Nat) (x : Port) : (s.setPort n x).nextReq = s.nextReq := rfl
@[simp] theorem State.setPort_sent (s : State) (n : Nat) (x : Port) : (s.setPort n x).sent = s.sent := rfl
@[simp] theorem State.setPort_fabric_number (s : State) (n : Nat) (x : Port) : (s.setPort n x).fabric.number = s.fabric.number := rfl
@[simp] theorem State.setPort_fabric_resends (s : State) (n : Nat) (x : Port) : (s.setPort n x).fabric.resends = s.fabric.resends := rfl
@[simp] theorem State.setPort_fabric_ignored (s : State) (n : Nat) (x : Port) : (s.setPort n x).fabric.ignored = s.fabric.ignored := rfl
@[simp] theorem State.setPort_fabric_dropped (s : State) (n : Nat) (x : Port) : (s.setPort n x).fabric.dropped = s.fabric.dropped := rfl
@[simp] theorem State.setPort_fabric_pace (s : State) (n : Nat) (x : Port) : (s.setPort n x).fabric.pace = s.fabric.pace := rfl
theorem State.port_setPort (s : State) (n m : Nat) (x : Port) :
    (s.setPort n x).port m = if m = n then x else s.port m := Tab.look_put _ _ _ _ _
@[simp] theorem State.port_setPort_self (s : State) (n : Nat) (x : Port) : (s.setPort n x).port n = x := by
  simp [State.port_setPort]
@[simp] theorem State.domain_setPort (s : State) (n m : Nat) (x : Port) : (s.setPort n x).domain m = s.domain m := rfl
@[simp] theorem State.core_setPort (s : State) (n m : Nat) (x : Port) : (s.setPort n x).core m = s.core m := rfl
@[simp] theorem State.engine_setPort (s : State) (n m : Nat) (x : Port) : (s.setPort n x).engine m = s.engine m := rfl
@[simp] theorem State.router_setPort (s : State) (n m : Nat) (x : Port) : (s.setPort n x).router m = s.router m := rfl
@[simp] theorem State.group_setPort (s : State) (n m : Nat) (x : Port) : (s.setPort n x).group m = s.group m := rfl
@[simp] theorem State.fn_setPort (s : State) (n m : Nat) (x : Port) : (s.setPort n x).fn m = s.fn m := rfl
@[simp] theorem State.bight_setPort (s : State) (n m : Nat) (x : Port) : (s.setPort n x).bight m = s.bight m := rfl
@[simp] theorem State.pace_setPort (s : State) (n m : Nat) (x : Port) : (s.setPort n x).pace m = s.pace m := rfl
@[simp] theorem State.slot_setPort (s : State) (n m : Nat) (x : Port) : (s.setPort n x).slot m = s.slot m := rfl
@[simp] theorem State.keySlot_setPort (s : State) (n m : Nat) (x : Port) : (s.setPort n x).keySlot m = s.keySlot m := rfl
@[simp] theorem State.inWin_setPort (s : State) (n m : Nat) (x : Port) : (s.setPort n x).inWin m = s.inWin m := rfl
@[simp] theorem State.outWin_setPort (s : State) (n m : Nat) (x : Port) : (s.setPort n x).outWin m = s.outWin m := rfl
@[simp] theorem State.queue_setPort (s : State) (n m : Nat) (x : Port) : (s.setPort n x).queue? m = s.queue? m := rfl
@[simp] theorem State.fence_setPort (s : State) (n m : Nat) (x : Port) : (s.setPort n x).fence? m = s.fence? m := rfl

/-! ### setPace -/

@[simp] theorem State.setPace_pending (s : State) (n : Nat) (x : PaceGroup) : (s.setPace n x).pending = s.pending := rfl
@[simp] theorem State.setPace_now (s : State) (n : Nat) (x : PaceGroup) : (s.setPace n x).now = s.now := rfl
@[simp] theorem State.setPace_fresh (s : State) (n : Nat) (x : PaceGroup) : (s.setPace n x).fresh = s.fresh := rfl
@[simp] theorem State.setPace_fuses (s : State) (n : Nat) (x : PaceGroup) : (s.setPace n x).fuses = s.fuses := rfl
@[simp] theorem State.setPace_supply (s : State) (n : Nat) (x : PaceGroup) : (s.setPace n x).supply = s.supply := rfl
@[simp] theorem State.setPace_boot (s : State) (n : Nat) (x : PaceGroup) : (s.setPace n x).boot = s.boot := rfl
@[simp] theorem State.setPace_domains (s : State) (n : Nat) (x : PaceGroup) : (s.setPace n x).domains = s.domains := rfl
@[simp] theorem State.setPace_memHold (s : State) (n : Nat) (x : PaceGroup) : (s.setPace n x).memHold = s.memHold := rfl
@[simp] theorem State.setPace_frame (s : State) (n : Nat) (x : PaceGroup) : (s.setPace n x).frame = s.frame := rfl
@[simp] theorem State.setPace_energy (s : State) (n : Nat) (x : PaceGroup) : (s.setPace n x).energy = s.energy := rfl
@[simp] theorem State.setPace_power (s : State) (n : Nat) (x : PaceGroup) : (s.setPace n x).power = s.power := rfl
@[simp] theorem State.setPace_errors (s : State) (n : Nat) (x : PaceGroup) : (s.setPace n x).errors = s.errors := rfl
@[simp] theorem State.setPace_dict (s : State) (n : Nat) (x : PaceGroup) : (s.setPace n x).dict = s.dict := rfl
@[simp] theorem State.setPace_security (s : State) (n : Nat) (x : PaceGroup) : (s.setPace n x).security = s.security := rfl
@[simp] theorem State.setPace_cores (s : State) (n : Nat) (x : PaceGroup) : (s.setPace n x).cores = s.cores := rfl
@[simp] theorem State.setPace_engines (s : State) (n : Nat) (x : PaceGroup) : (s.setPace n x).engines = s.engines := rfl
@[simp] theorem State.setPace_mesh (s : State) (n : Nat) (x : PaceGroup) : (s.setPace n x).mesh = s.mesh := rfl
@[simp] theorem State.setPace_sram (s : State) (n : Nat) (x : PaceGroup) : (s.setPace n x).sram = s.sram := rfl
@[simp] theorem State.setPace_hbm (s : State) (n : Nat) (x : PaceGroup) : (s.setPace n x).hbm = s.hbm := rfl
@[simp] theorem State.setPace_xlat (s : State) (n : Nat) (x : PaceGroup) : (s.setPace n x).xlat = s.xlat := rfl
@[simp] theorem State.setPace_host (s : State) (n : Nat) (x : PaceGroup) : (s.setPace n x).host = s.host := rfl
@[simp] theorem State.setPace_queues (s : State) (n : Nat) (x : PaceGroup) : (s.setPace n x).queues = s.queues := rfl
@[simp] theorem State.setPace_fences (s : State) (n : Nat) (x : PaceGroup) : (s.setPace n x).fences = s.fences := rfl
@[simp] theorem State.setPace_bights (s : State) (n : Nat) (x : PaceGroup) : (s.setPace n x).bights = s.bights := rfl
@[simp] theorem State.setPace_handoff (s : State) (n : Nat) (x : PaceGroup) : (s.setPace n x).handoff = s.handoff := rfl
@[simp] theorem State.setPace_mem (s : State) (n : Nat) (x : PaceGroup) : (s.setPace n x).mem = s.mem := rfl
@[simp] theorem State.setPace_sramCheck (s : State) (n : Nat) (x : PaceGroup) : (s.setPace n x).sramCheck = s.sramCheck := rfl
@[simp] theorem State.setPace_hbmCheck (s : State) (n : Nat) (x : PaceGroup) : (s.setPace n x).hbmCheck = s.hbmCheck := rfl
@[simp] theorem State.setPace_reqs (s : State) (n : Nat) (x : PaceGroup) : (s.setPace n x).reqs = s.reqs := rfl
@[simp] theorem State.setPace_nextReq (s : State) (n : Nat) (x : PaceGroup) : (s.setPace n x).nextReq = s.nextReq := rfl
@[simp] theorem State.setPace_sent (s : State) (n : Nat) (x : PaceGroup) : (s.setPace n x).sent = s.sent := rfl
@[simp] theorem State.setPace_fabric_number (s : State) (n : Nat) (x : PaceGroup) : (s.setPace n x).fabric.number = s.fabric.number := rfl
@[simp] theorem State.setPace_fabric_ports (s : State) (n : Nat) (x : PaceGroup) : (s.setPace n x).fabric.ports = s.fabric.ports := rfl
@[simp] theorem State.setPace_fabric_resends (s : State) (n : Nat) (x : PaceGroup) : (s.setPace n x).fabric.resends = s.fabric.resends := rfl
@[simp] theorem State.setPace_fabric_ignored (s : State) (n : Nat) (x : PaceGroup) : (s.setPace n x).fabric.ignored = s.fabric.ignored := rfl
@[simp] theorem State.setPace_fabric_dropped (s : State) (n : Nat) (x : PaceGroup) : (s.setPace n x).fabric.dropped = s.fabric.dropped := rfl
theorem State.pace_setPace (s : State) (n m : Nat) (x : PaceGroup) :
    (s.setPace n x).pace m = if m = n then x else s.pace m := Tab.look_put _ _ _ _ _
@[simp] theorem State.pace_setPace_self (s : State) (n : Nat) (x : PaceGroup) : (s.setPace n x).pace n = x := by
  simp [State.pace_setPace]
@[simp] theorem State.domain_setPace (s : State) (n m : Nat) (x : PaceGroup) : (s.setPace n x).domain m = s.domain m := rfl
@[simp] theorem State.core_setPace (s : State) (n m : Nat) (x : PaceGroup) : (s.setPace n x).core m = s.core m := rfl
@[simp] theorem State.engine_setPace (s : State) (n m : Nat) (x : PaceGroup) : (s.setPace n x).engine m = s.engine m := rfl
@[simp] theorem State.router_setPace (s : State) (n m : Nat) (x : PaceGroup) : (s.setPace n x).router m = s.router m := rfl
@[simp] theorem State.group_setPace (s : State) (n m : Nat) (x : PaceGroup) : (s.setPace n x).group m = s.group m := rfl
@[simp] theorem State.fn_setPace (s : State) (n m : Nat) (x : PaceGroup) : (s.setPace n x).fn m = s.fn m := rfl
@[simp] theorem State.bight_setPace (s : State) (n m : Nat) (x : PaceGroup) : (s.setPace n x).bight m = s.bight m := rfl
@[simp] theorem State.port_setPace (s : State) (n m : Nat) (x : PaceGroup) : (s.setPace n x).port m = s.port m := rfl
@[simp] theorem State.slot_setPace (s : State) (n m : Nat) (x : PaceGroup) : (s.setPace n x).slot m = s.slot m := rfl
@[simp] theorem State.keySlot_setPace (s : State) (n m : Nat) (x : PaceGroup) : (s.setPace n x).keySlot m = s.keySlot m := rfl
@[simp] theorem State.inWin_setPace (s : State) (n m : Nat) (x : PaceGroup) : (s.setPace n x).inWin m = s.inWin m := rfl
@[simp] theorem State.outWin_setPace (s : State) (n m : Nat) (x : PaceGroup) : (s.setPace n x).outWin m = s.outWin m := rfl
@[simp] theorem State.queue_setPace (s : State) (n m : Nat) (x : PaceGroup) : (s.setPace n x).queue? m = s.queue? m := rfl
@[simp] theorem State.fence_setPace (s : State) (n m : Nat) (x : PaceGroup) : (s.setPace n x).fence? m = s.fence? m := rfl

/-! ### setSlot -/

@[simp] theorem State.setSlot_pending (s : State) (n : Nat) (x : Slot) : (s.setSlot n x).pending = s.pending := rfl
@[simp] theorem State.setSlot_now (s : State) (n : Nat) (x : Slot) : (s.setSlot n x).now = s.now := rfl
@[simp] theorem State.setSlot_fresh (s : State) (n : Nat) (x : Slot) : (s.setSlot n x).fresh = s.fresh := rfl
@[simp] theorem State.setSlot_fuses (s : State) (n : Nat) (x : Slot) : (s.setSlot n x).fuses = s.fuses := rfl
@[simp] theorem State.setSlot_supply (s : State) (n : Nat) (x : Slot) : (s.setSlot n x).supply = s.supply := rfl
@[simp] theorem State.setSlot_boot (s : State) (n : Nat) (x : Slot) : (s.setSlot n x).boot = s.boot := rfl
@[simp] theorem State.setSlot_domains (s : State) (n : Nat) (x : Slot) : (s.setSlot n x).domains = s.domains := rfl
@[simp] theorem State.setSlot_memHold (s : State) (n : Nat) (x : Slot) : (s.setSlot n x).memHold = s.memHold := rfl
@[simp] theorem State.setSlot_frame (s : State) (n : Nat) (x : Slot) : (s.setSlot n x).frame = s.frame := rfl
@[simp] theorem State.setSlot_energy (s : State) (n : Nat) (x : Slot) : (s.setSlot n x).energy = s.energy := rfl
@[simp] theorem State.setSlot_power (s : State) (n : Nat) (x : Slot) : (s.setSlot n x).power = s.power := rfl
@[simp] theorem State.setSlot_errors (s : State) (n : Nat) (x : Slot) : (s.setSlot n x).errors = s.errors := rfl
@[simp] theorem State.setSlot_dict (s : State) (n : Nat) (x : Slot) : (s.setSlot n x).dict = s.dict := rfl
@[simp] theorem State.setSlot_security (s : State) (n : Nat) (x : Slot) : (s.setSlot n x).security = s.security := rfl
@[simp] theorem State.setSlot_cores (s : State) (n : Nat) (x : Slot) : (s.setSlot n x).cores = s.cores := rfl
@[simp] theorem State.setSlot_engines (s : State) (n : Nat) (x : Slot) : (s.setSlot n x).engines = s.engines := rfl
@[simp] theorem State.setSlot_mesh (s : State) (n : Nat) (x : Slot) : (s.setSlot n x).mesh = s.mesh := rfl
@[simp] theorem State.setSlot_sram (s : State) (n : Nat) (x : Slot) : (s.setSlot n x).sram = s.sram := rfl
@[simp] theorem State.setSlot_hbm (s : State) (n : Nat) (x : Slot) : (s.setSlot n x).hbm = s.hbm := rfl
@[simp] theorem State.setSlot_xlat (s : State) (n : Nat) (x : Slot) : (s.setSlot n x).xlat = s.xlat := rfl
@[simp] theorem State.setSlot_host (s : State) (n : Nat) (x : Slot) : (s.setSlot n x).host = s.host := rfl
@[simp] theorem State.setSlot_queues (s : State) (n : Nat) (x : Slot) : (s.setSlot n x).queues = s.queues := rfl
@[simp] theorem State.setSlot_fences (s : State) (n : Nat) (x : Slot) : (s.setSlot n x).fences = s.fences := rfl
@[simp] theorem State.setSlot_bights (s : State) (n : Nat) (x : Slot) : (s.setSlot n x).bights = s.bights := rfl
@[simp] theorem State.setSlot_fabric (s : State) (n : Nat) (x : Slot) : (s.setSlot n x).fabric = s.fabric := rfl
@[simp] theorem State.setSlot_mem (s : State) (n : Nat) (x : Slot) : (s.setSlot n x).mem = s.mem := rfl
@[simp] theorem State.setSlot_sramCheck (s : State) (n : Nat) (x : Slot) : (s.setSlot n x).sramCheck = s.sramCheck := rfl
@[simp] theorem State.setSlot_hbmCheck (s : State) (n : Nat) (x : Slot) : (s.setSlot n x).hbmCheck = s.hbmCheck := rfl
@[simp] theorem State.setSlot_reqs (s : State) (n : Nat) (x : Slot) : (s.setSlot n x).reqs = s.reqs := rfl
@[simp] theorem State.setSlot_nextReq (s : State) (n : Nat) (x : Slot) : (s.setSlot n x).nextReq = s.nextReq := rfl
@[simp] theorem State.setSlot_sent (s : State) (n : Nat) (x : Slot) : (s.setSlot n x).sent = s.sent := rfl
@[simp] theorem State.setSlot_handoff_region (s : State) (n : Nat) (x : Slot) : (s.setSlot n x).handoff.region = s.handoff.region := rfl
@[simp] theorem State.setSlot_handoff_lastOp (s : State) (n : Nat) (x : Slot) : (s.setSlot n x).handoff.lastOp = s.handoff.lastOp := rfl
@[simp] theorem State.setSlot_handoff_unmatched (s : State) (n : Nat) (x : Slot) : (s.setSlot n x).handoff.unmatched = s.handoff.unmatched := rfl
@[simp] theorem State.setSlot_handoff_ignored (s : State) (n : Nat) (x : Slot) : (s.setSlot n x).handoff.ignored = s.handoff.ignored := rfl
@[simp] theorem State.setSlot_handoff_queries (s : State) (n : Nat) (x : Slot) : (s.setSlot n x).handoff.queries = s.handoff.queries := rfl
@[simp] theorem State.setSlot_handoff_delayed (s : State) (n : Nat) (x : Slot) : (s.setSlot n x).handoff.delayed = s.handoff.delayed := rfl
@[simp] theorem State.setSlot_handoff_reports (s : State) (n : Nat) (x : Slot) : (s.setSlot n x).handoff.reports = s.handoff.reports := rfl
@[simp] theorem State.setSlot_handoff_nextReport (s : State) (n : Nat) (x : Slot) : (s.setSlot n x).handoff.nextReport = s.handoff.nextReport := rfl
@[simp] theorem State.setSlot_handoff_select (s : State) (n : Nat) (x : Slot) : (s.setSlot n x).handoff.select = s.handoff.select := rfl
@[simp] theorem State.setSlot_handoff_armWaiting (s : State) (n : Nat) (x : Slot) : (s.setSlot n x).handoff.armWaiting = s.handoff.armWaiting := rfl
theorem State.slot_setSlot (s : State) (n m : Nat) (x : Slot) :
    (s.setSlot n x).slot m = if m = n then x else s.slot m := Tab.look_put _ _ _ _ _
@[simp] theorem State.slot_setSlot_self (s : State) (n : Nat) (x : Slot) : (s.setSlot n x).slot n = x := by
  simp [State.slot_setSlot]
@[simp] theorem State.domain_setSlot (s : State) (n m : Nat) (x : Slot) : (s.setSlot n x).domain m = s.domain m := rfl
@[simp] theorem State.core_setSlot (s : State) (n m : Nat) (x : Slot) : (s.setSlot n x).core m = s.core m := rfl
@[simp] theorem State.engine_setSlot (s : State) (n m : Nat) (x : Slot) : (s.setSlot n x).engine m = s.engine m := rfl
@[simp] theorem State.router_setSlot (s : State) (n m : Nat) (x : Slot) : (s.setSlot n x).router m = s.router m := rfl
@[simp] theorem State.group_setSlot (s : State) (n m : Nat) (x : Slot) : (s.setSlot n x).group m = s.group m := rfl
@[simp] theorem State.fn_setSlot (s : State) (n m : Nat) (x : Slot) : (s.setSlot n x).fn m = s.fn m := rfl
@[simp] theorem State.bight_setSlot (s : State) (n m : Nat) (x : Slot) : (s.setSlot n x).bight m = s.bight m := rfl
@[simp] theorem State.port_setSlot (s : State) (n m : Nat) (x : Slot) : (s.setSlot n x).port m = s.port m := rfl
@[simp] theorem State.pace_setSlot (s : State) (n m : Nat) (x : Slot) : (s.setSlot n x).pace m = s.pace m := rfl
@[simp] theorem State.keySlot_setSlot (s : State) (n m : Nat) (x : Slot) : (s.setSlot n x).keySlot m = s.keySlot m := rfl
@[simp] theorem State.inWin_setSlot (s : State) (n m : Nat) (x : Slot) : (s.setSlot n x).inWin m = s.inWin m := rfl
@[simp] theorem State.outWin_setSlot (s : State) (n m : Nat) (x : Slot) : (s.setSlot n x).outWin m = s.outWin m := rfl
@[simp] theorem State.queue_setSlot (s : State) (n m : Nat) (x : Slot) : (s.setSlot n x).queue? m = s.queue? m := rfl
@[simp] theorem State.fence_setSlot (s : State) (n m : Nat) (x : Slot) : (s.setSlot n x).fence? m = s.fence? m := rfl

/-! ### setKeySlot -/

@[simp] theorem State.setKeySlot_pending (s : State) (n : Nat) (x : KeySlot) : (s.setKeySlot n x).pending = s.pending := rfl
@[simp] theorem State.setKeySlot_now (s : State) (n : Nat) (x : KeySlot) : (s.setKeySlot n x).now = s.now := rfl
@[simp] theorem State.setKeySlot_fresh (s : State) (n : Nat) (x : KeySlot) : (s.setKeySlot n x).fresh = s.fresh := rfl
@[simp] theorem State.setKeySlot_fuses (s : State) (n : Nat) (x : KeySlot) : (s.setKeySlot n x).fuses = s.fuses := rfl
@[simp] theorem State.setKeySlot_supply (s : State) (n : Nat) (x : KeySlot) : (s.setKeySlot n x).supply = s.supply := rfl
@[simp] theorem State.setKeySlot_boot (s : State) (n : Nat) (x : KeySlot) : (s.setKeySlot n x).boot = s.boot := rfl
@[simp] theorem State.setKeySlot_domains (s : State) (n : Nat) (x : KeySlot) : (s.setKeySlot n x).domains = s.domains := rfl
@[simp] theorem State.setKeySlot_memHold (s : State) (n : Nat) (x : KeySlot) : (s.setKeySlot n x).memHold = s.memHold := rfl
@[simp] theorem State.setKeySlot_frame (s : State) (n : Nat) (x : KeySlot) : (s.setKeySlot n x).frame = s.frame := rfl
@[simp] theorem State.setKeySlot_energy (s : State) (n : Nat) (x : KeySlot) : (s.setKeySlot n x).energy = s.energy := rfl
@[simp] theorem State.setKeySlot_power (s : State) (n : Nat) (x : KeySlot) : (s.setKeySlot n x).power = s.power := rfl
@[simp] theorem State.setKeySlot_errors (s : State) (n : Nat) (x : KeySlot) : (s.setKeySlot n x).errors = s.errors := rfl
@[simp] theorem State.setKeySlot_dict (s : State) (n : Nat) (x : KeySlot) : (s.setKeySlot n x).dict = s.dict := rfl
@[simp] theorem State.setKeySlot_cores (s : State) (n : Nat) (x : KeySlot) : (s.setKeySlot n x).cores = s.cores := rfl
@[simp] theorem State.setKeySlot_engines (s : State) (n : Nat) (x : KeySlot) : (s.setKeySlot n x).engines = s.engines := rfl
@[simp] theorem State.setKeySlot_mesh (s : State) (n : Nat) (x : KeySlot) : (s.setKeySlot n x).mesh = s.mesh := rfl
@[simp] theorem State.setKeySlot_sram (s : State) (n : Nat) (x : KeySlot) : (s.setKeySlot n x).sram = s.sram := rfl
@[simp] theorem State.setKeySlot_hbm (s : State) (n : Nat) (x : KeySlot) : (s.setKeySlot n x).hbm = s.hbm := rfl
@[simp] theorem State.setKeySlot_xlat (s : State) (n : Nat) (x : KeySlot) : (s.setKeySlot n x).xlat = s.xlat := rfl
@[simp] theorem State.setKeySlot_host (s : State) (n : Nat) (x : KeySlot) : (s.setKeySlot n x).host = s.host := rfl
@[simp] theorem State.setKeySlot_queues (s : State) (n : Nat) (x : KeySlot) : (s.setKeySlot n x).queues = s.queues := rfl
@[simp] theorem State.setKeySlot_fences (s : State) (n : Nat) (x : KeySlot) : (s.setKeySlot n x).fences = s.fences := rfl
@[simp] theorem State.setKeySlot_bights (s : State) (n : Nat) (x : KeySlot) : (s.setKeySlot n x).bights = s.bights := rfl
@[simp] theorem State.setKeySlot_fabric (s : State) (n : Nat) (x : KeySlot) : (s.setKeySlot n x).fabric = s.fabric := rfl
@[simp] theorem State.setKeySlot_handoff (s : State) (n : Nat) (x : KeySlot) : (s.setKeySlot n x).handoff = s.handoff := rfl
@[simp] theorem State.setKeySlot_mem (s : State) (n : Nat) (x : KeySlot) : (s.setKeySlot n x).mem = s.mem := rfl
@[simp] theorem State.setKeySlot_sramCheck (s : State) (n : Nat) (x : KeySlot) : (s.setKeySlot n x).sramCheck = s.sramCheck := rfl
@[simp] theorem State.setKeySlot_hbmCheck (s : State) (n : Nat) (x : KeySlot) : (s.setKeySlot n x).hbmCheck = s.hbmCheck := rfl
@[simp] theorem State.setKeySlot_reqs (s : State) (n : Nat) (x : KeySlot) : (s.setKeySlot n x).reqs = s.reqs := rfl
@[simp] theorem State.setKeySlot_nextReq (s : State) (n : Nat) (x : KeySlot) : (s.setKeySlot n x).nextReq = s.nextReq := rfl
@[simp] theorem State.setKeySlot_sent (s : State) (n : Nat) (x : KeySlot) : (s.setKeySlot n x).sent = s.sent := rfl
@[simp] theorem State.setKeySlot_security_reportSeq (s : State) (n : Nat) (x : KeySlot) : (s.setKeySlot n x).security.reportSeq = s.security.reportSeq := rfl
@[simp] theorem State.setKeySlot_security_generating (s : State) (n : Nat) (x : KeySlot) : (s.setKeySlot n x).security.generating = s.security.generating := rfl
@[simp] theorem State.setKeySlot_security_report (s : State) (n : Nat) (x : KeySlot) : (s.setKeySlot n x).security.report = s.security.report := rfl
@[simp] theorem State.setKeySlot_security_reportState (s : State) (n : Nat) (x : KeySlot) : (s.setKeySlot n x).security.reportState = s.security.reportState := rfl
@[simp] theorem State.setKeySlot_security_measuring (s : State) (n : Nat) (x : KeySlot) : (s.setKeySlot n x).security.measuring = s.security.measuring := rfl
@[simp] theorem State.setKeySlot_security_measureSeq (s : State) (n : Nat) (x : KeySlot) : (s.setKeySlot n x).security.measureSeq = s.security.measureSeq := rfl
@[simp] theorem State.setKeySlot_security_measureBight (s : State) (n : Nat) (x : KeySlot) : (s.setKeySlot n x).security.measureBight = s.security.measureBight := rfl
@[simp] theorem State.setKeySlot_security_measureResult (s : State) (n : Nat) (x : KeySlot) : (s.setKeySlot n x).security.measureResult = s.security.measureResult := rfl
@[simp] theorem State.setKeySlot_security_removal (s : State) (n : Nat) (x : KeySlot) : (s.setKeySlot n x).security.removal = s.security.removal := rfl
@[simp] theorem State.setKeySlot_security_removalSeq (s : State) (n : Nat) (x : KeySlot) : (s.setKeySlot n x).security.removalSeq = s.security.removalSeq := rfl
@[simp] theorem State.setKeySlot_security_removalFn (s : State) (n : Nat) (x : KeySlot) : (s.setKeySlot n x).security.removalFn = s.security.removalFn := rfl
@[simp] theorem State.setKeySlot_security_removalState (s : State) (n : Nat) (x : KeySlot) : (s.setKeySlot n x).security.removalState = s.security.removalState := rfl
@[simp] theorem State.setKeySlot_security_removalResult (s : State) (n : Nat) (x : KeySlot) : (s.setKeySlot n x).security.removalResult = s.security.removalResult := rfl
@[simp] theorem State.setKeySlot_security_late (s : State) (n : Nat) (x : KeySlot) : (s.setKeySlot n x).security.late = s.security.late := rfl
theorem State.keySlot_setKeySlot (s : State) (n m : Nat) (x : KeySlot) :
    (s.setKeySlot n x).keySlot m = if m = n then x else s.keySlot m := Tab.look_put _ _ _ _ _
@[simp] theorem State.keySlot_setKeySlot_self (s : State) (n : Nat) (x : KeySlot) : (s.setKeySlot n x).keySlot n = x := by
  simp [State.keySlot_setKeySlot]
@[simp] theorem State.domain_setKeySlot (s : State) (n m : Nat) (x : KeySlot) : (s.setKeySlot n x).domain m = s.domain m := rfl
@[simp] theorem State.core_setKeySlot (s : State) (n m : Nat) (x : KeySlot) : (s.setKeySlot n x).core m = s.core m := rfl
@[simp] theorem State.engine_setKeySlot (s : State) (n m : Nat) (x : KeySlot) : (s.setKeySlot n x).engine m = s.engine m := rfl
@[simp] theorem State.router_setKeySlot (s : State) (n m : Nat) (x : KeySlot) : (s.setKeySlot n x).router m = s.router m := rfl
@[simp] theorem State.group_setKeySlot (s : State) (n m : Nat) (x : KeySlot) : (s.setKeySlot n x).group m = s.group m := rfl
@[simp] theorem State.fn_setKeySlot (s : State) (n m : Nat) (x : KeySlot) : (s.setKeySlot n x).fn m = s.fn m := rfl
@[simp] theorem State.bight_setKeySlot (s : State) (n m : Nat) (x : KeySlot) : (s.setKeySlot n x).bight m = s.bight m := rfl
@[simp] theorem State.port_setKeySlot (s : State) (n m : Nat) (x : KeySlot) : (s.setKeySlot n x).port m = s.port m := rfl
@[simp] theorem State.pace_setKeySlot (s : State) (n m : Nat) (x : KeySlot) : (s.setKeySlot n x).pace m = s.pace m := rfl
@[simp] theorem State.slot_setKeySlot (s : State) (n m : Nat) (x : KeySlot) : (s.setKeySlot n x).slot m = s.slot m := rfl
@[simp] theorem State.inWin_setKeySlot (s : State) (n m : Nat) (x : KeySlot) : (s.setKeySlot n x).inWin m = s.inWin m := rfl
@[simp] theorem State.outWin_setKeySlot (s : State) (n m : Nat) (x : KeySlot) : (s.setKeySlot n x).outWin m = s.outWin m := rfl
@[simp] theorem State.queue_setKeySlot (s : State) (n m : Nat) (x : KeySlot) : (s.setKeySlot n x).queue? m = s.queue? m := rfl
@[simp] theorem State.fence_setKeySlot (s : State) (n m : Nat) (x : KeySlot) : (s.setKeySlot n x).fence? m = s.fence? m := rfl

/-! ### setInWin -/

@[simp] theorem State.setInWin_pending (s : State) (n : Nat) (x : InWindow) : (s.setInWin n x).pending = s.pending := rfl
@[simp] theorem State.setInWin_now (s : State) (n : Nat) (x : InWindow) : (s.setInWin n x).now = s.now := rfl
@[simp] theorem State.setInWin_fresh (s : State) (n : Nat) (x : InWindow) : (s.setInWin n x).fresh = s.fresh := rfl
@[simp] theorem State.setInWin_fuses (s : State) (n : Nat) (x : InWindow) : (s.setInWin n x).fuses = s.fuses := rfl
@[simp] theorem State.setInWin_supply (s : State) (n : Nat) (x : InWindow) : (s.setInWin n x).supply = s.supply := rfl
@[simp] theorem State.setInWin_boot (s : State) (n : Nat) (x : InWindow) : (s.setInWin n x).boot = s.boot := rfl
@[simp] theorem State.setInWin_domains (s : State) (n : Nat) (x : InWindow) : (s.setInWin n x).domains = s.domains := rfl
@[simp] theorem State.setInWin_memHold (s : State) (n : Nat) (x : InWindow) : (s.setInWin n x).memHold = s.memHold := rfl
@[simp] theorem State.setInWin_frame (s : State) (n : Nat) (x : InWindow) : (s.setInWin n x).frame = s.frame := rfl
@[simp] theorem State.setInWin_energy (s : State) (n : Nat) (x : InWindow) : (s.setInWin n x).energy = s.energy := rfl
@[simp] theorem State.setInWin_power (s : State) (n : Nat) (x : InWindow) : (s.setInWin n x).power = s.power := rfl
@[simp] theorem State.setInWin_errors (s : State) (n : Nat) (x : InWindow) : (s.setInWin n x).errors = s.errors := rfl
@[simp] theorem State.setInWin_dict (s : State) (n : Nat) (x : InWindow) : (s.setInWin n x).dict = s.dict := rfl
@[simp] theorem State.setInWin_security (s : State) (n : Nat) (x : InWindow) : (s.setInWin n x).security = s.security := rfl
@[simp] theorem State.setInWin_cores (s : State) (n : Nat) (x : InWindow) : (s.setInWin n x).cores = s.cores := rfl
@[simp] theorem State.setInWin_engines (s : State) (n : Nat) (x : InWindow) : (s.setInWin n x).engines = s.engines := rfl
@[simp] theorem State.setInWin_mesh (s : State) (n : Nat) (x : InWindow) : (s.setInWin n x).mesh = s.mesh := rfl
@[simp] theorem State.setInWin_sram (s : State) (n : Nat) (x : InWindow) : (s.setInWin n x).sram = s.sram := rfl
@[simp] theorem State.setInWin_hbm (s : State) (n : Nat) (x : InWindow) : (s.setInWin n x).hbm = s.hbm := rfl
@[simp] theorem State.setInWin_host (s : State) (n : Nat) (x : InWindow) : (s.setInWin n x).host = s.host := rfl
@[simp] theorem State.setInWin_queues (s : State) (n : Nat) (x : InWindow) : (s.setInWin n x).queues = s.queues := rfl
@[simp] theorem State.setInWin_fences (s : State) (n : Nat) (x : InWindow) : (s.setInWin n x).fences = s.fences := rfl
@[simp] theorem State.setInWin_bights (s : State) (n : Nat) (x : InWindow) : (s.setInWin n x).bights = s.bights := rfl
@[simp] theorem State.setInWin_fabric (s : State) (n : Nat) (x : InWindow) : (s.setInWin n x).fabric = s.fabric := rfl
@[simp] theorem State.setInWin_handoff (s : State) (n : Nat) (x : InWindow) : (s.setInWin n x).handoff = s.handoff := rfl
@[simp] theorem State.setInWin_mem (s : State) (n : Nat) (x : InWindow) : (s.setInWin n x).mem = s.mem := rfl
@[simp] theorem State.setInWin_sramCheck (s : State) (n : Nat) (x : InWindow) : (s.setInWin n x).sramCheck = s.sramCheck := rfl
@[simp] theorem State.setInWin_hbmCheck (s : State) (n : Nat) (x : InWindow) : (s.setInWin n x).hbmCheck = s.hbmCheck := rfl
@[simp] theorem State.setInWin_reqs (s : State) (n : Nat) (x : InWindow) : (s.setInWin n x).reqs = s.reqs := rfl
@[simp] theorem State.setInWin_nextReq (s : State) (n : Nat) (x : InWindow) : (s.setInWin n x).nextReq = s.nextReq := rfl
@[simp] theorem State.setInWin_sent (s : State) (n : Nat) (x : InWindow) : (s.setInWin n x).sent = s.sent := rfl
@[simp] theorem State.setInWin_xlat_contextTable (s : State) (n : Nat) (x : InWindow) : (s.setInWin n x).xlat.contextTable = s.xlat.contextTable := rfl
@[simp] theorem State.setInWin_xlat_objectTable (s : State) (n : Nat) (x : InWindow) : (s.setInWin n x).xlat.objectTable = s.xlat.objectTable := rfl
@[simp] theorem State.setInWin_xlat_cache (s : State) (n : Nat) (x : InWindow) : (s.setInWin n x).xlat.cache = s.xlat.cache := rfl
@[simp] theorem State.setInWin_xlat_walkCache (s : State) (n : Nat) (x : InWindow) : (s.setInWin n x).xlat.walkCache = s.xlat.walkCache := rfl
@[simp] theorem State.setInWin_xlat_faults (s : State) (n : Nat) (x : InWindow) : (s.setInWin n x).xlat.faults = s.xlat.faults := rfl
@[simp] theorem State.setInWin_xlat_invAddr (s : State) (n : Nat) (x : InWindow) : (s.setInWin n x).xlat.invAddr = s.xlat.invAddr := rfl
@[simp] theorem State.setInWin_xlat_invIssued (s : State) (n : Nat) (x : InWindow) : (s.setInWin n x).xlat.invIssued = s.xlat.invIssued := rfl
@[simp] theorem State.setInWin_xlat_invDone (s : State) (n : Nat) (x : InWindow) : (s.setInWin n x).xlat.invDone = s.xlat.invDone := rfl
@[simp] theorem State.setInWin_xlat_invDropped (s : State) (n : Nat) (x : InWindow) : (s.setInWin n x).xlat.invDropped = s.xlat.invDropped := rfl
@[simp] theorem State.setInWin_xlat_invs (s : State) (n : Nat) (x : InWindow) : (s.setInWin n x).xlat.invs = s.xlat.invs := rfl
@[simp] theorem State.setInWin_xlat_counters (s : State) (n : Nat) (x : InWindow) : (s.setInWin n x).xlat.counters = s.xlat.counters := rfl
@[simp] theorem State.setInWin_xlat_threshold (s : State) (n : Nat) (x : InWindow) : (s.setInWin n x).xlat.threshold = s.xlat.threshold := rfl
@[simp] theorem State.setInWin_xlat_entriesWritten (s : State) (n : Nat) (x : InWindow) : (s.setInWin n x).xlat.entriesWritten = s.xlat.entriesWritten := rfl
@[simp] theorem State.setInWin_xlat_overflows (s : State) (n : Nat) (x : InWindow) : (s.setInWin n x).xlat.overflows = s.xlat.overflows := rfl
@[simp] theorem State.setInWin_xlat_ignored (s : State) (n : Nat) (x : InWindow) : (s.setInWin n x).xlat.ignored = s.xlat.ignored := rfl
@[simp] theorem State.setInWin_xlat_walks (s : State) (n : Nat) (x : InWindow) : (s.setInWin n x).xlat.walks = s.xlat.walks := rfl
@[simp] theorem State.setInWin_xlat_refused (s : State) (n : Nat) (x : InWindow) : (s.setInWin n x).xlat.refused = s.xlat.refused := rfl
@[simp] theorem State.setInWin_xlat_completed (s : State) (n : Nat) (x : InWindow) : (s.setInWin n x).xlat.completed = s.xlat.completed := rfl
@[simp] theorem State.setInWin_xlat_outbound (s : State) (n : Nat) (x : InWindow) : (s.setInWin n x).xlat.outbound = s.xlat.outbound := rfl
theorem State.inWin_setInWin (s : State) (n m : Nat) (x : InWindow) :
    (s.setInWin n x).inWin m = if m = n then x else s.inWin m := Tab.look_put _ _ _ _ _
@[simp] theorem State.inWin_setInWin_self (s : State) (n : Nat) (x : InWindow) : (s.setInWin n x).inWin n = x := by
  simp [State.inWin_setInWin]
@[simp] theorem State.domain_setInWin (s : State) (n m : Nat) (x : InWindow) : (s.setInWin n x).domain m = s.domain m := rfl
@[simp] theorem State.core_setInWin (s : State) (n m : Nat) (x : InWindow) : (s.setInWin n x).core m = s.core m := rfl
@[simp] theorem State.engine_setInWin (s : State) (n m : Nat) (x : InWindow) : (s.setInWin n x).engine m = s.engine m := rfl
@[simp] theorem State.router_setInWin (s : State) (n m : Nat) (x : InWindow) : (s.setInWin n x).router m = s.router m := rfl
@[simp] theorem State.group_setInWin (s : State) (n m : Nat) (x : InWindow) : (s.setInWin n x).group m = s.group m := rfl
@[simp] theorem State.fn_setInWin (s : State) (n m : Nat) (x : InWindow) : (s.setInWin n x).fn m = s.fn m := rfl
@[simp] theorem State.bight_setInWin (s : State) (n m : Nat) (x : InWindow) : (s.setInWin n x).bight m = s.bight m := rfl
@[simp] theorem State.port_setInWin (s : State) (n m : Nat) (x : InWindow) : (s.setInWin n x).port m = s.port m := rfl
@[simp] theorem State.pace_setInWin (s : State) (n m : Nat) (x : InWindow) : (s.setInWin n x).pace m = s.pace m := rfl
@[simp] theorem State.slot_setInWin (s : State) (n m : Nat) (x : InWindow) : (s.setInWin n x).slot m = s.slot m := rfl
@[simp] theorem State.keySlot_setInWin (s : State) (n m : Nat) (x : InWindow) : (s.setInWin n x).keySlot m = s.keySlot m := rfl
@[simp] theorem State.outWin_setInWin (s : State) (n m : Nat) (x : InWindow) : (s.setInWin n x).outWin m = s.outWin m := rfl
@[simp] theorem State.queue_setInWin (s : State) (n m : Nat) (x : InWindow) : (s.setInWin n x).queue? m = s.queue? m := rfl
@[simp] theorem State.fence_setInWin (s : State) (n m : Nat) (x : InWindow) : (s.setInWin n x).fence? m = s.fence? m := rfl

/-! ### setOutWin -/

@[simp] theorem State.setOutWin_pending (s : State) (n : Nat) (x : OutWindow) : (s.setOutWin n x).pending = s.pending := rfl
@[simp] theorem State.setOutWin_now (s : State) (n : Nat) (x : OutWindow) : (s.setOutWin n x).now = s.now := rfl
@[simp] theorem State.setOutWin_fresh (s : State) (n : Nat) (x : OutWindow) : (s.setOutWin n x).fresh = s.fresh := rfl
@[simp] theorem State.setOutWin_fuses (s : State) (n : Nat) (x : OutWindow) : (s.setOutWin n x).fuses = s.fuses := rfl
@[simp] theorem State.setOutWin_supply (s : State) (n : Nat) (x : OutWindow) : (s.setOutWin n x).supply = s.supply := rfl
@[simp] theorem State.setOutWin_boot (s : State) (n : Nat) (x : OutWindow) : (s.setOutWin n x).boot = s.boot := rfl
@[simp] theorem State.setOutWin_domains (s : State) (n : Nat) (x : OutWindow) : (s.setOutWin n x).domains = s.domains := rfl
@[simp] theorem State.setOutWin_memHold (s : State) (n : Nat) (x : OutWindow) : (s.setOutWin n x).memHold = s.memHold := rfl
@[simp] theorem State.setOutWin_frame (s : State) (n : Nat) (x : OutWindow) : (s.setOutWin n x).frame = s.frame := rfl
@[simp] theorem State.setOutWin_energy (s : State) (n : Nat) (x : OutWindow) : (s.setOutWin n x).energy = s.energy := rfl
@[simp] theorem State.setOutWin_power (s : State) (n : Nat) (x : OutWindow) : (s.setOutWin n x).power = s.power := rfl
@[simp] theorem State.setOutWin_errors (s : State) (n : Nat) (x : OutWindow) : (s.setOutWin n x).errors = s.errors := rfl
@[simp] theorem State.setOutWin_dict (s : State) (n : Nat) (x : OutWindow) : (s.setOutWin n x).dict = s.dict := rfl
@[simp] theorem State.setOutWin_security (s : State) (n : Nat) (x : OutWindow) : (s.setOutWin n x).security = s.security := rfl
@[simp] theorem State.setOutWin_cores (s : State) (n : Nat) (x : OutWindow) : (s.setOutWin n x).cores = s.cores := rfl
@[simp] theorem State.setOutWin_engines (s : State) (n : Nat) (x : OutWindow) : (s.setOutWin n x).engines = s.engines := rfl
@[simp] theorem State.setOutWin_mesh (s : State) (n : Nat) (x : OutWindow) : (s.setOutWin n x).mesh = s.mesh := rfl
@[simp] theorem State.setOutWin_sram (s : State) (n : Nat) (x : OutWindow) : (s.setOutWin n x).sram = s.sram := rfl
@[simp] theorem State.setOutWin_hbm (s : State) (n : Nat) (x : OutWindow) : (s.setOutWin n x).hbm = s.hbm := rfl
@[simp] theorem State.setOutWin_host (s : State) (n : Nat) (x : OutWindow) : (s.setOutWin n x).host = s.host := rfl
@[simp] theorem State.setOutWin_queues (s : State) (n : Nat) (x : OutWindow) : (s.setOutWin n x).queues = s.queues := rfl
@[simp] theorem State.setOutWin_fences (s : State) (n : Nat) (x : OutWindow) : (s.setOutWin n x).fences = s.fences := rfl
@[simp] theorem State.setOutWin_bights (s : State) (n : Nat) (x : OutWindow) : (s.setOutWin n x).bights = s.bights := rfl
@[simp] theorem State.setOutWin_fabric (s : State) (n : Nat) (x : OutWindow) : (s.setOutWin n x).fabric = s.fabric := rfl
@[simp] theorem State.setOutWin_handoff (s : State) (n : Nat) (x : OutWindow) : (s.setOutWin n x).handoff = s.handoff := rfl
@[simp] theorem State.setOutWin_mem (s : State) (n : Nat) (x : OutWindow) : (s.setOutWin n x).mem = s.mem := rfl
@[simp] theorem State.setOutWin_sramCheck (s : State) (n : Nat) (x : OutWindow) : (s.setOutWin n x).sramCheck = s.sramCheck := rfl
@[simp] theorem State.setOutWin_hbmCheck (s : State) (n : Nat) (x : OutWindow) : (s.setOutWin n x).hbmCheck = s.hbmCheck := rfl
@[simp] theorem State.setOutWin_reqs (s : State) (n : Nat) (x : OutWindow) : (s.setOutWin n x).reqs = s.reqs := rfl
@[simp] theorem State.setOutWin_nextReq (s : State) (n : Nat) (x : OutWindow) : (s.setOutWin n x).nextReq = s.nextReq := rfl
@[simp] theorem State.setOutWin_sent (s : State) (n : Nat) (x : OutWindow) : (s.setOutWin n x).sent = s.sent := rfl
@[simp] theorem State.setOutWin_xlat_contextTable (s : State) (n : Nat) (x : OutWindow) : (s.setOutWin n x).xlat.contextTable = s.xlat.contextTable := rfl
@[simp] theorem State.setOutWin_xlat_objectTable (s : State) (n : Nat) (x : OutWindow) : (s.setOutWin n x).xlat.objectTable = s.xlat.objectTable := rfl
@[simp] theorem State.setOutWin_xlat_cache (s : State) (n : Nat) (x : OutWindow) : (s.setOutWin n x).xlat.cache = s.xlat.cache := rfl
@[simp] theorem State.setOutWin_xlat_walkCache (s : State) (n : Nat) (x : OutWindow) : (s.setOutWin n x).xlat.walkCache = s.xlat.walkCache := rfl
@[simp] theorem State.setOutWin_xlat_faults (s : State) (n : Nat) (x : OutWindow) : (s.setOutWin n x).xlat.faults = s.xlat.faults := rfl
@[simp] theorem State.setOutWin_xlat_invAddr (s : State) (n : Nat) (x : OutWindow) : (s.setOutWin n x).xlat.invAddr = s.xlat.invAddr := rfl
@[simp] theorem State.setOutWin_xlat_invIssued (s : State) (n : Nat) (x : OutWindow) : (s.setOutWin n x).xlat.invIssued = s.xlat.invIssued := rfl
@[simp] theorem State.setOutWin_xlat_invDone (s : State) (n : Nat) (x : OutWindow) : (s.setOutWin n x).xlat.invDone = s.xlat.invDone := rfl
@[simp] theorem State.setOutWin_xlat_invDropped (s : State) (n : Nat) (x : OutWindow) : (s.setOutWin n x).xlat.invDropped = s.xlat.invDropped := rfl
@[simp] theorem State.setOutWin_xlat_invs (s : State) (n : Nat) (x : OutWindow) : (s.setOutWin n x).xlat.invs = s.xlat.invs := rfl
@[simp] theorem State.setOutWin_xlat_counters (s : State) (n : Nat) (x : OutWindow) : (s.setOutWin n x).xlat.counters = s.xlat.counters := rfl
@[simp] theorem State.setOutWin_xlat_threshold (s : State) (n : Nat) (x : OutWindow) : (s.setOutWin n x).xlat.threshold = s.xlat.threshold := rfl
@[simp] theorem State.setOutWin_xlat_entriesWritten (s : State) (n : Nat) (x : OutWindow) : (s.setOutWin n x).xlat.entriesWritten = s.xlat.entriesWritten := rfl
@[simp] theorem State.setOutWin_xlat_overflows (s : State) (n : Nat) (x : OutWindow) : (s.setOutWin n x).xlat.overflows = s.xlat.overflows := rfl
@[simp] theorem State.setOutWin_xlat_ignored (s : State) (n : Nat) (x : OutWindow) : (s.setOutWin n x).xlat.ignored = s.xlat.ignored := rfl
@[simp] theorem State.setOutWin_xlat_walks (s : State) (n : Nat) (x : OutWindow) : (s.setOutWin n x).xlat.walks = s.xlat.walks := rfl
@[simp] theorem State.setOutWin_xlat_refused (s : State) (n : Nat) (x : OutWindow) : (s.setOutWin n x).xlat.refused = s.xlat.refused := rfl
@[simp] theorem State.setOutWin_xlat_completed (s : State) (n : Nat) (x : OutWindow) : (s.setOutWin n x).xlat.completed = s.xlat.completed := rfl
@[simp] theorem State.setOutWin_xlat_inbound (s : State) (n : Nat) (x : OutWindow) : (s.setOutWin n x).xlat.inbound = s.xlat.inbound := rfl
theorem State.outWin_setOutWin (s : State) (n m : Nat) (x : OutWindow) :
    (s.setOutWin n x).outWin m = if m = n then x else s.outWin m := Tab.look_put _ _ _ _ _
@[simp] theorem State.outWin_setOutWin_self (s : State) (n : Nat) (x : OutWindow) : (s.setOutWin n x).outWin n = x := by
  simp [State.outWin_setOutWin]
@[simp] theorem State.domain_setOutWin (s : State) (n m : Nat) (x : OutWindow) : (s.setOutWin n x).domain m = s.domain m := rfl
@[simp] theorem State.core_setOutWin (s : State) (n m : Nat) (x : OutWindow) : (s.setOutWin n x).core m = s.core m := rfl
@[simp] theorem State.engine_setOutWin (s : State) (n m : Nat) (x : OutWindow) : (s.setOutWin n x).engine m = s.engine m := rfl
@[simp] theorem State.router_setOutWin (s : State) (n m : Nat) (x : OutWindow) : (s.setOutWin n x).router m = s.router m := rfl
@[simp] theorem State.group_setOutWin (s : State) (n m : Nat) (x : OutWindow) : (s.setOutWin n x).group m = s.group m := rfl
@[simp] theorem State.fn_setOutWin (s : State) (n m : Nat) (x : OutWindow) : (s.setOutWin n x).fn m = s.fn m := rfl
@[simp] theorem State.bight_setOutWin (s : State) (n m : Nat) (x : OutWindow) : (s.setOutWin n x).bight m = s.bight m := rfl
@[simp] theorem State.port_setOutWin (s : State) (n m : Nat) (x : OutWindow) : (s.setOutWin n x).port m = s.port m := rfl
@[simp] theorem State.pace_setOutWin (s : State) (n m : Nat) (x : OutWindow) : (s.setOutWin n x).pace m = s.pace m := rfl
@[simp] theorem State.slot_setOutWin (s : State) (n m : Nat) (x : OutWindow) : (s.setOutWin n x).slot m = s.slot m := rfl
@[simp] theorem State.keySlot_setOutWin (s : State) (n m : Nat) (x : OutWindow) : (s.setOutWin n x).keySlot m = s.keySlot m := rfl
@[simp] theorem State.inWin_setOutWin (s : State) (n m : Nat) (x : OutWindow) : (s.setOutWin n x).inWin m = s.inWin m := rfl
@[simp] theorem State.queue_setOutWin (s : State) (n m : Nat) (x : OutWindow) : (s.setOutWin n x).queue? m = s.queue? m := rfl
@[simp] theorem State.fence_setOutWin (s : State) (n m : Nat) (x : OutWindow) : (s.setOutWin n x).fence? m = s.fence? m := rfl

/-! ### setQueue -/

@[simp] theorem State.setQueue_pending (s : State) (n : Nat) (x : Queue) : (s.setQueue n x).pending = s.pending := rfl
@[simp] theorem State.setQueue_now (s : State) (n : Nat) (x : Queue) : (s.setQueue n x).now = s.now := rfl
@[simp] theorem State.setQueue_fresh (s : State) (n : Nat) (x : Queue) : (s.setQueue n x).fresh = s.fresh := rfl
@[simp] theorem State.setQueue_fuses (s : State) (n : Nat) (x : Queue) : (s.setQueue n x).fuses = s.fuses := rfl
@[simp] theorem State.setQueue_supply (s : State) (n : Nat) (x : Queue) : (s.setQueue n x).supply = s.supply := rfl
@[simp] theorem State.setQueue_boot (s : State) (n : Nat) (x : Queue) : (s.setQueue n x).boot = s.boot := rfl
@[simp] theorem State.setQueue_domains (s : State) (n : Nat) (x : Queue) : (s.setQueue n x).domains = s.domains := rfl
@[simp] theorem State.setQueue_memHold (s : State) (n : Nat) (x : Queue) : (s.setQueue n x).memHold = s.memHold := rfl
@[simp] theorem State.setQueue_frame (s : State) (n : Nat) (x : Queue) : (s.setQueue n x).frame = s.frame := rfl
@[simp] theorem State.setQueue_energy (s : State) (n : Nat) (x : Queue) : (s.setQueue n x).energy = s.energy := rfl
@[simp] theorem State.setQueue_power (s : State) (n : Nat) (x : Queue) : (s.setQueue n x).power = s.power := rfl
@[simp] theorem State.setQueue_errors (s : State) (n : Nat) (x : Queue) : (s.setQueue n x).errors = s.errors := rfl
@[simp] theorem State.setQueue_dict (s : State) (n : Nat) (x : Queue) : (s.setQueue n x).dict = s.dict := rfl
@[simp] theorem State.setQueue_security (s : State) (n : Nat) (x : Queue) : (s.setQueue n x).security = s.security := rfl
@[simp] theorem State.setQueue_cores (s : State) (n : Nat) (x : Queue) : (s.setQueue n x).cores = s.cores := rfl
@[simp] theorem State.setQueue_engines (s : State) (n : Nat) (x : Queue) : (s.setQueue n x).engines = s.engines := rfl
@[simp] theorem State.setQueue_mesh (s : State) (n : Nat) (x : Queue) : (s.setQueue n x).mesh = s.mesh := rfl
@[simp] theorem State.setQueue_sram (s : State) (n : Nat) (x : Queue) : (s.setQueue n x).sram = s.sram := rfl
@[simp] theorem State.setQueue_hbm (s : State) (n : Nat) (x : Queue) : (s.setQueue n x).hbm = s.hbm := rfl
@[simp] theorem State.setQueue_xlat (s : State) (n : Nat) (x : Queue) : (s.setQueue n x).xlat = s.xlat := rfl
@[simp] theorem State.setQueue_host (s : State) (n : Nat) (x : Queue) : (s.setQueue n x).host = s.host := rfl
@[simp] theorem State.setQueue_fences (s : State) (n : Nat) (x : Queue) : (s.setQueue n x).fences = s.fences := rfl
@[simp] theorem State.setQueue_bights (s : State) (n : Nat) (x : Queue) : (s.setQueue n x).bights = s.bights := rfl
@[simp] theorem State.setQueue_fabric (s : State) (n : Nat) (x : Queue) : (s.setQueue n x).fabric = s.fabric := rfl
@[simp] theorem State.setQueue_handoff (s : State) (n : Nat) (x : Queue) : (s.setQueue n x).handoff = s.handoff := rfl
@[simp] theorem State.setQueue_mem (s : State) (n : Nat) (x : Queue) : (s.setQueue n x).mem = s.mem := rfl
@[simp] theorem State.setQueue_sramCheck (s : State) (n : Nat) (x : Queue) : (s.setQueue n x).sramCheck = s.sramCheck := rfl
@[simp] theorem State.setQueue_hbmCheck (s : State) (n : Nat) (x : Queue) : (s.setQueue n x).hbmCheck = s.hbmCheck := rfl
@[simp] theorem State.setQueue_reqs (s : State) (n : Nat) (x : Queue) : (s.setQueue n x).reqs = s.reqs := rfl
@[simp] theorem State.setQueue_nextReq (s : State) (n : Nat) (x : Queue) : (s.setQueue n x).nextReq = s.nextReq := rfl
@[simp] theorem State.setQueue_sent (s : State) (n : Nat) (x : Queue) : (s.setQueue n x).sent = s.sent := rfl
theorem State.queue_setQueue (s : State) (n m : Nat) (x : Queue) :
    (s.setQueue n x).queue? m = if m = n then some x else s.queue? m := Tab.find?_set _ _ _ _
@[simp] theorem State.domain_setQueue (s : State) (n m : Nat) (x : Queue) : (s.setQueue n x).domain m = s.domain m := rfl
@[simp] theorem State.core_setQueue (s : State) (n m : Nat) (x : Queue) : (s.setQueue n x).core m = s.core m := rfl
@[simp] theorem State.engine_setQueue (s : State) (n m : Nat) (x : Queue) : (s.setQueue n x).engine m = s.engine m := rfl
@[simp] theorem State.router_setQueue (s : State) (n m : Nat) (x : Queue) : (s.setQueue n x).router m = s.router m := rfl
@[simp] theorem State.group_setQueue (s : State) (n m : Nat) (x : Queue) : (s.setQueue n x).group m = s.group m := rfl
@[simp] theorem State.fn_setQueue (s : State) (n m : Nat) (x : Queue) : (s.setQueue n x).fn m = s.fn m := rfl
@[simp] theorem State.bight_setQueue (s : State) (n m : Nat) (x : Queue) : (s.setQueue n x).bight m = s.bight m := rfl
@[simp] theorem State.port_setQueue (s : State) (n m : Nat) (x : Queue) : (s.setQueue n x).port m = s.port m := rfl
@[simp] theorem State.pace_setQueue (s : State) (n m : Nat) (x : Queue) : (s.setQueue n x).pace m = s.pace m := rfl
@[simp] theorem State.slot_setQueue (s : State) (n m : Nat) (x : Queue) : (s.setQueue n x).slot m = s.slot m := rfl
@[simp] theorem State.keySlot_setQueue (s : State) (n m : Nat) (x : Queue) : (s.setQueue n x).keySlot m = s.keySlot m := rfl
@[simp] theorem State.inWin_setQueue (s : State) (n m : Nat) (x : Queue) : (s.setQueue n x).inWin m = s.inWin m := rfl
@[simp] theorem State.outWin_setQueue (s : State) (n m : Nat) (x : Queue) : (s.setQueue n x).outWin m = s.outWin m := rfl
@[simp] theorem State.fence_setQueue (s : State) (n m : Nat) (x : Queue) : (s.setQueue n x).fence? m = s.fence? m := rfl

/-! ### setFence -/

@[simp] theorem State.setFence_pending (s : State) (n : Nat) (x : Fence) : (s.setFence n x).pending = s.pending := rfl
@[simp] theorem State.setFence_now (s : State) (n : Nat) (x : Fence) : (s.setFence n x).now = s.now := rfl
@[simp] theorem State.setFence_fresh (s : State) (n : Nat) (x : Fence) : (s.setFence n x).fresh = s.fresh := rfl
@[simp] theorem State.setFence_fuses (s : State) (n : Nat) (x : Fence) : (s.setFence n x).fuses = s.fuses := rfl
@[simp] theorem State.setFence_supply (s : State) (n : Nat) (x : Fence) : (s.setFence n x).supply = s.supply := rfl
@[simp] theorem State.setFence_boot (s : State) (n : Nat) (x : Fence) : (s.setFence n x).boot = s.boot := rfl
@[simp] theorem State.setFence_domains (s : State) (n : Nat) (x : Fence) : (s.setFence n x).domains = s.domains := rfl
@[simp] theorem State.setFence_memHold (s : State) (n : Nat) (x : Fence) : (s.setFence n x).memHold = s.memHold := rfl
@[simp] theorem State.setFence_frame (s : State) (n : Nat) (x : Fence) : (s.setFence n x).frame = s.frame := rfl
@[simp] theorem State.setFence_energy (s : State) (n : Nat) (x : Fence) : (s.setFence n x).energy = s.energy := rfl
@[simp] theorem State.setFence_power (s : State) (n : Nat) (x : Fence) : (s.setFence n x).power = s.power := rfl
@[simp] theorem State.setFence_errors (s : State) (n : Nat) (x : Fence) : (s.setFence n x).errors = s.errors := rfl
@[simp] theorem State.setFence_dict (s : State) (n : Nat) (x : Fence) : (s.setFence n x).dict = s.dict := rfl
@[simp] theorem State.setFence_security (s : State) (n : Nat) (x : Fence) : (s.setFence n x).security = s.security := rfl
@[simp] theorem State.setFence_cores (s : State) (n : Nat) (x : Fence) : (s.setFence n x).cores = s.cores := rfl
@[simp] theorem State.setFence_engines (s : State) (n : Nat) (x : Fence) : (s.setFence n x).engines = s.engines := rfl
@[simp] theorem State.setFence_mesh (s : State) (n : Nat) (x : Fence) : (s.setFence n x).mesh = s.mesh := rfl
@[simp] theorem State.setFence_sram (s : State) (n : Nat) (x : Fence) : (s.setFence n x).sram = s.sram := rfl
@[simp] theorem State.setFence_hbm (s : State) (n : Nat) (x : Fence) : (s.setFence n x).hbm = s.hbm := rfl
@[simp] theorem State.setFence_xlat (s : State) (n : Nat) (x : Fence) : (s.setFence n x).xlat = s.xlat := rfl
@[simp] theorem State.setFence_host (s : State) (n : Nat) (x : Fence) : (s.setFence n x).host = s.host := rfl
@[simp] theorem State.setFence_queues (s : State) (n : Nat) (x : Fence) : (s.setFence n x).queues = s.queues := rfl
@[simp] theorem State.setFence_bights (s : State) (n : Nat) (x : Fence) : (s.setFence n x).bights = s.bights := rfl
@[simp] theorem State.setFence_fabric (s : State) (n : Nat) (x : Fence) : (s.setFence n x).fabric = s.fabric := rfl
@[simp] theorem State.setFence_handoff (s : State) (n : Nat) (x : Fence) : (s.setFence n x).handoff = s.handoff := rfl
@[simp] theorem State.setFence_mem (s : State) (n : Nat) (x : Fence) : (s.setFence n x).mem = s.mem := rfl
@[simp] theorem State.setFence_sramCheck (s : State) (n : Nat) (x : Fence) : (s.setFence n x).sramCheck = s.sramCheck := rfl
@[simp] theorem State.setFence_hbmCheck (s : State) (n : Nat) (x : Fence) : (s.setFence n x).hbmCheck = s.hbmCheck := rfl
@[simp] theorem State.setFence_reqs (s : State) (n : Nat) (x : Fence) : (s.setFence n x).reqs = s.reqs := rfl
@[simp] theorem State.setFence_nextReq (s : State) (n : Nat) (x : Fence) : (s.setFence n x).nextReq = s.nextReq := rfl
@[simp] theorem State.setFence_sent (s : State) (n : Nat) (x : Fence) : (s.setFence n x).sent = s.sent := rfl
theorem State.fence_setFence (s : State) (n m : Nat) (x : Fence) :
    (s.setFence n x).fence? m = if m = n then some x else s.fence? m := Tab.find?_set _ _ _ _
@[simp] theorem State.domain_setFence (s : State) (n m : Nat) (x : Fence) : (s.setFence n x).domain m = s.domain m := rfl
@[simp] theorem State.core_setFence (s : State) (n m : Nat) (x : Fence) : (s.setFence n x).core m = s.core m := rfl
@[simp] theorem State.engine_setFence (s : State) (n m : Nat) (x : Fence) : (s.setFence n x).engine m = s.engine m := rfl
@[simp] theorem State.router_setFence (s : State) (n m : Nat) (x : Fence) : (s.setFence n x).router m = s.router m := rfl
@[simp] theorem State.group_setFence (s : State) (n m : Nat) (x : Fence) : (s.setFence n x).group m = s.group m := rfl
@[simp] theorem State.fn_setFence (s : State) (n m : Nat) (x : Fence) : (s.setFence n x).fn m = s.fn m := rfl
@[simp] theorem State.bight_setFence (s : State) (n m : Nat) (x : Fence) : (s.setFence n x).bight m = s.bight m := rfl
@[simp] theorem State.port_setFence (s : State) (n m : Nat) (x : Fence) : (s.setFence n x).port m = s.port m := rfl
@[simp] theorem State.pace_setFence (s : State) (n m : Nat) (x : Fence) : (s.setFence n x).pace m = s.pace m := rfl
@[simp] theorem State.slot_setFence (s : State) (n m : Nat) (x : Fence) : (s.setFence n x).slot m = s.slot m := rfl
@[simp] theorem State.keySlot_setFence (s : State) (n m : Nat) (x : Fence) : (s.setFence n x).keySlot m = s.keySlot m := rfl
@[simp] theorem State.inWin_setFence (s : State) (n m : Nat) (x : Fence) : (s.setFence n x).inWin m = s.inWin m := rfl
@[simp] theorem State.outWin_setFence (s : State) (n m : Nat) (x : Fence) : (s.setFence n x).outWin m = s.outWin m := rfl
@[simp] theorem State.queue_setFence (s : State) (n m : Nat) (x : Fence) : (s.setFence n x).queue? m = s.queue? m := rfl

/-! ### What is sent -/

@[simp] theorem State.send_pending (s : State) (x : Sent) : (s.send x).pending = s.pending := rfl
@[simp] theorem State.send_now (s : State) (x : Sent) : (s.send x).now = s.now := rfl
@[simp] theorem State.send_fresh (s : State) (x : Sent) : (s.send x).fresh = s.fresh := rfl
@[simp] theorem State.send_fuses (s : State) (x : Sent) : (s.send x).fuses = s.fuses := rfl
@[simp] theorem State.send_supply (s : State) (x : Sent) : (s.send x).supply = s.supply := rfl
@[simp] theorem State.send_boot (s : State) (x : Sent) : (s.send x).boot = s.boot := rfl
@[simp] theorem State.send_domains (s : State) (x : Sent) : (s.send x).domains = s.domains := rfl
@[simp] theorem State.send_memHold (s : State) (x : Sent) : (s.send x).memHold = s.memHold := rfl
@[simp] theorem State.send_frame (s : State) (x : Sent) : (s.send x).frame = s.frame := rfl
@[simp] theorem State.send_energy (s : State) (x : Sent) : (s.send x).energy = s.energy := rfl
@[simp] theorem State.send_power (s : State) (x : Sent) : (s.send x).power = s.power := rfl
@[simp] theorem State.send_errors (s : State) (x : Sent) : (s.send x).errors = s.errors := rfl
@[simp] theorem State.send_dict (s : State) (x : Sent) : (s.send x).dict = s.dict := rfl
@[simp] theorem State.send_security (s : State) (x : Sent) : (s.send x).security = s.security := rfl
@[simp] theorem State.send_cores (s : State) (x : Sent) : (s.send x).cores = s.cores := rfl
@[simp] theorem State.send_engines (s : State) (x : Sent) : (s.send x).engines = s.engines := rfl
@[simp] theorem State.send_mesh (s : State) (x : Sent) : (s.send x).mesh = s.mesh := rfl
@[simp] theorem State.send_sram (s : State) (x : Sent) : (s.send x).sram = s.sram := rfl
@[simp] theorem State.send_hbm (s : State) (x : Sent) : (s.send x).hbm = s.hbm := rfl
@[simp] theorem State.send_xlat (s : State) (x : Sent) : (s.send x).xlat = s.xlat := rfl
@[simp] theorem State.send_host (s : State) (x : Sent) : (s.send x).host = s.host := rfl
@[simp] theorem State.send_queues (s : State) (x : Sent) : (s.send x).queues = s.queues := rfl
@[simp] theorem State.send_fences (s : State) (x : Sent) : (s.send x).fences = s.fences := rfl
@[simp] theorem State.send_bights (s : State) (x : Sent) : (s.send x).bights = s.bights := rfl
@[simp] theorem State.send_fabric (s : State) (x : Sent) : (s.send x).fabric = s.fabric := rfl
@[simp] theorem State.send_handoff (s : State) (x : Sent) : (s.send x).handoff = s.handoff := rfl
@[simp] theorem State.send_mem (s : State) (x : Sent) : (s.send x).mem = s.mem := rfl
@[simp] theorem State.send_sramCheck (s : State) (x : Sent) : (s.send x).sramCheck = s.sramCheck := rfl
@[simp] theorem State.send_hbmCheck (s : State) (x : Sent) : (s.send x).hbmCheck = s.hbmCheck := rfl
@[simp] theorem State.send_reqs (s : State) (x : Sent) : (s.send x).reqs = s.reqs := rfl
@[simp] theorem State.send_nextReq (s : State) (x : Sent) : (s.send x).nextReq = s.nextReq := rfl
@[simp] theorem State.send_sent (s : State) (x : Sent) : (s.send x).sent = x :: s.sent := rfl
end Sys2Proof.Machine
end

