-- ==== Sys2Proof/Laws/Issue.lean ====
section
/-! SUPPORT. What issuing an instruction on a core does (R97 to R99), once for all instructions, and how the registers of a
core read after a write of one of them (R88). -/

namespace Sys2Proof.Machine

theorem Core.reg_setReg (k : Core) (rd r : SReg) (w : Word) :
    (k.setReg rd w).reg r = if r = rd ∧ r.val ≠ 0 then w else k.reg r := by
  unfold Core.reg Core.setReg
  by_cases h0 : r.val = 0
  · simp [h0]
  · by_cases hr : r = rd
    · subst hr; simp [h0, Tab.look_put_same]
    · have : r.val ≠ rd.val := fun h => hr (Fin.ext h)
      by_cases hd : rd.val = 0
      · simp [h0, hd, hr]
      · simp [h0, hd, hr, Tab.look_put_other _ _ this]

theorem Core.vreg_setV (k : Core) (vd r : VReg) (v : Vec) :
    (k.setV vd v).vreg r = if r = vd then v else k.vreg r := by
  unfold Core.vreg Core.setV
  by_cases hr : r = vd
  · subst hr; simp [Tab.look_put_same]
  · have : r.val ≠ vd.val := fun h => hr (Fin.ext h)
    simp [hr, Tab.look_put_other _ _ this]

@[simp] theorem Core.vreg_setReg (k : Core) (rd : SReg) (r : VReg) (w : Word) : (k.setReg rd w).vreg r = k.vreg r := by
  unfold Core.setReg Core.vreg; split <;> rfl

@[simp] theorem Core.reg_setV (k : Core) (vd : VReg) (r : SReg) (v : Vec) : (k.setV vd v).reg r = k.reg r := rfl

/-- The rest of a core is as before when a scalar register is written. -/
theorem Core.setReg_frame (k : Core) (rd : SReg) (w : Word) : k.setReg rd w = { k with s := (k.setReg rd w).s } := by
  unfold Core.setReg; split <;> rfl

/-- Ending a bundle moves the program counter and the loops only. -/
theorem Core.closeBundle_frame (k : Core) :
    k.closeBundle = { k with pc := k.closeBundle.pc, loops := k.closeBundle.loops, openBundle := k.closeBundle.openBundle,
                             slot0 := k.closeBundle.slot0 } := by
  unfold Core.closeBundle; split <;> rfl

/-! ### The fetch (R94, R95) -/

/-- Counting an activity changes the die's energy model, the activity counts and the payer's charges, nothing else. -/
theorem State.activity_frame (s : State) (u : Meter) (k : Activity) (n : Nat) (p : Payer) :
    s.activity u k n p = { s with
      dict := { s.dict with activity := (s.activity u k n p).dict.activity }
      energy := { s.energy with
        dieModel := (s.activity u k n p).energy.dieModel, counts := (s.activity u k n p).energy.counts }
      bights := { s.bights with tab := (s.activity u k n p).bights.tab }
      queues := (s.activity u k n p).queues } := by
  unfold State.activity State.charge State.modBight State.modCmd State.modQueue State.addModel
  cases p with
  | base => rfl
  | bight b => rfl
  | cmd b q m => dsimp only; split <;> rfl

/-- A read of an SRAM word changes what the SRAM notes of it and what it reports, and nothing else (R293, R299, R304). -/
theorem State.readSram_frame (s : State) (agent : Nat) (rmw : Bool) (wa : Nat) :
    ∃ sram mesh, (s.readSram agent rmw wa).2 = { s with sram, mesh } := by
  unfold State.readSram State.sramCorrected State.sramBad State.lanSend
  dsimp only
  repeat' first | exact ⟨_, _, rfl⟩ | split

theorem State.readEachSram_frame (agent n : Nat) (s : State) (wa : Nat) :
    ∃ sram mesh, (s.readEachSram agent wa n).2 = { s with sram, mesh } := by
  induction n generalizing s wa with
  | zero => exact ⟨s.sram, s.mesh, rfl⟩
  | succ n ih =>
    obtain ⟨a, b, h⟩ := s.readSram_frame agent false wa
    obtain ⟨c, d, h'⟩ := ih (s.readSram agent false wa).2 (wa + 1)
    refine ⟨c, d, ?_⟩
    unfold State.readEachSram
    dsimp only
    rw [h', h]

/-- Filling a block of the instruction buffer changes, outside the cores, what a read of SRAM changes (R95). -/
theorem State.fillBlock_frame (s : State) (n keep b : Nat) : ∃ dict energy queues bights sram mesh cores,
    s.fillBlock n keep b = { s with dict, energy, queues, bights, sram, mesh, cores } := by
  unfold State.fillBlock
  split
  · exact ⟨s.dict, s.energy, s.queues, s.bights, s.sram, s.mesh, s.cores, rfl⟩
  · have h := s.activity_frame (.cluster (clusterOf n)) (.sramRead 64) 1 (s.clusterPayer (clusterOf n))
    obtain ⟨y, m, h'⟩ := State.readEachSram_frame agentCore 8 (s.activity (.cluster (clusterOf n)) (.sramRead 64) 1
      (s.clusterPayer (clusterOf n))) (sramAddr (clusterOf n) (coreK n * 0x400000 + 64 * b) / 8)
    dsimp only
    rw [h', h]
    exact ⟨_, _, _, _, y, m, _, rfl⟩

/-- Filling a block of the instruction buffer changes nothing else of the cores (R95). -/
theorem State.fillBlock_core (s : State) (n keep b : Nat) : ∃ l, ∀ j, (s.fillBlock n keep b).core j =
    if j = n then { s.core n with ibuf := l } else s.core j := by
  unfold State.fillBlock
  split
  · refine ⟨(s.core n).ibuf, fun j => ?_⟩
    split
    · next h => rw [h]
    · rfl
  · have h := s.activity_frame (.cluster (clusterOf n)) (.sramRead 64) 1 (s.clusterPayer (clusterOf n))
    obtain ⟨y, m, h'⟩ := State.readEachSram_frame agentCore 8 (s.activity (.cluster (clusterOf n)) (.sramRead 64) 1
      (s.clusterPayer (clusterOf n))) (sramAddr (clusterOf n) (coreK n * 0x400000 + 64 * b) / 8)
    dsimp only
    rw [h', h]
    exact ⟨_, fun j => State.core_setCore _ n j _⟩

/-- A fetch changes, outside the cores, what a read of SRAM changes (R95). -/
theorem State.fetchInto_frame (s : State) (n : Nat) : ∃ dict energy queues bights sram mesh cores,
    s.fetchInto n = { s with dict, energy, queues, bights, sram, mesh, cores } := by
  unfold State.fetchInto
  dsimp only
  split
  · obtain ⟨d, e, q, x, y, m, c, h⟩ := s.fillBlock_frame n (localOffset (s.core n).pc / 64) (localOffset (s.core n).pc / 64)
    obtain ⟨d', e', q', x', y', m', c', h'⟩ := (s.fillBlock n (localOffset (s.core n).pc / 64) (localOffset (s.core n).pc / 64)).fillBlock_frame
      n (localOffset (s.core n).pc / 64) ((localOffset (s.core n).pc / 64 + 1) % 65536)
    refine ⟨d', e', q', x', y', m', c', ?_⟩
    rw [h', h]
  · exact ⟨s.dict, s.energy, s.queues, s.bights, s.sram, s.mesh, s.cores, rfl⟩

/-- A fetch fills the instruction buffer and changes nothing else of the cores (R95). -/
theorem State.fetchInto_core (s : State) (n : Nat) : ∃ l, ∀ j, (s.fetchInto n).core j =
    if j = n then { s.core n with ibuf := l } else s.core j := by
  unfold State.fetchInto
  dsimp only
  split
  · obtain ⟨l, h⟩ := s.fillBlock_core n (localOffset (s.core n).pc / 64) (localOffset (s.core n).pc / 64)
    obtain ⟨l', h'⟩ := (s.fillBlock n (localOffset (s.core n).pc / 64) (localOffset (s.core n).pc / 64)).fillBlock_core
      n (localOffset (s.core n).pc / 64) ((localOffset (s.core n).pc / 64 + 1) % 65536)
    refine ⟨l', fun j => ?_⟩
    rw [h', h, h]
    by_cases hj : j = n <;> simp [hj]
  · refine ⟨(s.core n).ibuf, fun j => ?_⟩
    by_cases hj : j = n <;> simp [hj]

/-- The fetch of an instruction changes, outside the cores, what a read of SRAM changes (R95). -/
theorem State.fetching_frame (s : State) (i : Issue) (insn : Insn) : ∃ dict energy queues bights sram mesh cores,
    s.fetching i insn = { s with dict, energy, queues, bights, sram, mesh, cores } := by
  unfold State.fetching
  exact State.fetchInto_frame _ _

/-- The core as an instruction finds it differs from the core by the end of a bundle and by what it has fetched. -/
theorem State.issuer_frame (s : State) (i : Issue) (insn : Insn) :
    ∃ pc loops o slot0 ibuf, s.issuer i insn =
      { s.core i.core with pc := pc, loops := loops, openBundle := o, slot0 := slot0, ibuf := ibuf } := by
  unfold State.issuer State.fetching
  obtain ⟨l, h⟩ := (s.setCore i.core (if s.joins i insn = true then s.core i.core else (s.core i.core).closeBundle)).fetchInto_core i.core
  rw [h i.core, if_pos rfl, State.core_setCore_self]
  split
  · exact ⟨_, _, _, _, l, rfl⟩
  · rw [Core.closeBundle_frame]
    exact ⟨_, _, _, _, l, rfl⟩

/-- The fetch of an instruction leaves the other cores alone. -/
theorem State.core_fetching_other (s : State) (i : Issue) (insn : Insn) {j : Nat} (hj : j ≠ i.core) :
    (s.fetching i insn).core j = s.core j := by
  unfold State.fetching
  obtain ⟨l, h⟩ := (s.setCore i.core (if s.joins i insn = true then s.core i.core else (s.core i.core).closeBundle)).fetchInto_core i.core
  rw [h j, if_neg hj, State.core_setCore, if_neg hj]

@[simp] theorem State.issuer_reg (s : State) (i : Issue) (insn : Insn) (r : SReg) :
    (s.issuer i insn).reg r = (s.core i.core).reg r := by obtain ⟨_, _, _, _, _, h⟩ := s.issuer_frame i insn; rw [h]; rfl
@[simp] theorem State.issuer_vreg (s : State) (i : Issue) (insn : Insn) (r : VReg) :
    (s.issuer i insn).vreg r = (s.core i.core).vreg r := by obtain ⟨_, _, _, _, _, h⟩ := s.issuer_frame i insn; rw [h]; rfl
@[simp] theorem State.issuer_fflags (s : State) (i : Issue) (insn : Insn) :
    (s.issuer i insn).fflags = (s.core i.core).fflags := by obtain ⟨_, _, _, _, _, h⟩ := s.issuer_frame i insn; rw [h]
@[simp] theorem State.issuer_frm (s : State) (i : Issue) (insn : Insn) :
    (s.issuer i insn).frm = (s.core i.core).frm := by obtain ⟨_, _, _, _, _, h⟩ := s.issuer_frame i insn; rw [h]
@[simp] theorem State.issuer_instret (s : State) (i : Issue) (insn : Insn) :
    (s.issuer i insn).instret = (s.core i.core).instret := by obtain ⟨_, _, _, _, _, h⟩ := s.issuer_frame i insn; rw [h]

@[simp] theorem Core.retire_reg (k : Core) (insn : Insn) (j : Bool) (pc : Word) (r : SReg) :
    (k.retire insn j pc).reg r = k.reg r := rfl
@[simp] theorem Core.retire_vreg (k : Core) (insn : Insn) (j : Bool) (pc : Word) (r : VReg) :
    (k.retire insn j pc).vreg r = k.vreg r := rfl

/-- What a load lands in its destination (R96): a scalar register, a vector register, or every lane of one. -/
theorem Core.land_scalar (k : Core) (rd : SReg) (signed : Bool) (b : Bytes) : k.land (.scalar rd.val signed) b =
    k.setReg rd (if signed then wordOfInt (sext (8 * b.length) (leNat b)) else wordOfBytes b) := rfl
theorem Core.land_vector (k : Core) (vd : VReg) (b : Bytes) : k.land (.vector vd.val) b = k.setV vd (vecOfBytes b) := rfl
theorem Core.land_broadcast (k : Core) (vd : VReg) (b : Bytes) : k.land (.broadcast vd.val) b =
    k.setV vd (ofLanes (List.replicate 16 (BitVec.ofNat 32 (leNat b)))) := rfl

/-- An instruction that can start, whose own part completes, retires: its core goes on to the target or the next word. -/
theorem State.issue_done {s t : State} {i : Issue} {x : Instr} {insn : Insn} {body : State → Core → Did} {target : Option Word}
    (h : s.starts i insn = true) (hm : (s.core i.core).mayIssue x = true) (hf : fetchable i.core (s.issuer i insn).pc = true)
    (hx : (s.issuer i insn).fetched.isSome = true) (hb : body (s.fetching i insn) (s.issuer i insn) = .done t target) :
    s.issue i x insn body =
      t.modCore i.core fun c => c.retire insn (s.joins i insn) (target.getD ((s.issuer i insn).pc + 4)) := by
  have hr : s.coreReady i.core = true := by
    unfold State.starts at h; simp only [Bool.and_eq_true] at h; exact h.1.1
  have hn : (s.issuer i insn).fetched.isNone = false := by
    cases h : (s.issuer i insn).fetched <;> simp_all
  unfold State.issue
  simp only [h, hr, hm, hf, hb, hn, Bool.not_true, Bool.and_self, Bool.false_eq_true, if_false]

/-- An instruction that can start and whose own part raises an exception raises it, when no far load of its core is out (R121 to
R126). -/
theorem State.issue_raise {s t : State} {i : Issue} {x : Instr} {insn : Insn} {body : State → Core → Did} {c b u : Nat} {w : Word}
    (h : s.starts i insn = true) (hm : (s.core i.core).mayIssue x = true) (hf : fetchable i.core (s.issuer i insn).pc = true)
    (hx : (s.issuer i insn).fetched.isSome = true) (hl : (s.issuer i insn).loadsOut = false)
    (hb : body (s.fetching i insn) (s.issuer i insn) = .raise t c b u w) :
    s.issue i x insn body = t.raise i.core c b u w := by
  have hr : s.coreReady i.core = true := by
    unfold State.starts at h; simp only [Bool.and_eq_true] at h; exact h.1.1
  have hn : (s.issuer i insn).fetched.isNone = false := by
    cases h : (s.issuer i insn).fetched <;> simp_all
  unfold State.issue
  simp only [h, hr, hm, hf, hb, hn, hl, Bool.not_true, Bool.and_self, Bool.false_eq_true, if_false]

/-- An instruction that can start and whose own part cannot proceed stalls its core (R99, R120). -/
theorem State.issue_stall {s t : State} {i : Issue} {x : Instr} {insn : Insn} {body : State → Core → Did} {w : Stall}
    (h : s.starts i insn = true) (hm : (s.core i.core).mayIssue x = true) (hf : fetchable i.core (s.issuer i insn).pc = true)
    (hx : (s.issuer i insn).fetched.isSome = true) (hb : body (s.fetching i insn) (s.issuer i insn) = .stall t w) :
    s.issue i x insn body = t.stallCore i.core x w := by
  have hr : s.coreReady i.core = true := by
    unfold State.starts at h; simp only [Bool.and_eq_true] at h; exact h.1.1
  have hn : (s.issuer i insn).fetched.isNone = false := by
    cases h : (s.issuer i insn).fetched <;> simp_all
  unfold State.issue
  simp only [h, hr, hm, hf, hb, hn, Bool.not_true, Bool.and_self, Bool.false_eq_true, if_false]

/-- An instruction that only changes registers of its core leaves the core with that change, retired, and every other core
as it was. -/
theorem State.issueReg_core {s : State} {i : Issue} {x : Instr} {insn : Insn} {f : Core → Core}
    (h : s.starts i insn = true) (hm : (s.core i.core).mayIssue x = true) (hf : fetchable i.core (s.issuer i insn).pc = true)
    (hx : (s.issuer i insn).fetched.isSome = true) (j : Nat) :
    (s.issueReg i x insn f).core j = if j = i.core then
      (f (s.issuer i insn)).retire insn (s.joins i insn) ((s.issuer i insn).pc + 4) else s.core j := by
  unfold State.issueReg
  rw [State.issue_done h hm hf hx rfl]
  simp only [State.modCore, State.core_setCore, Option.getD_none]
  by_cases hj : j = i.core
  · simp [hj]
  · simp [hj, State.core_fetching_other]

/-- Changes of one core leave everything but the cores alone. -/
theorem State.twoCores (s : State) (n : Nat) (b : Core) (g : Core → Core) :
    ∃ cores, (s.setCore n b).modCore n g = { s with cores := cores } := ⟨_, rfl⟩

/-- An instruction that only changes registers of its core changes, outside the cores, what its fetch changes. -/
theorem State.issueReg_frame {s : State} {i : Issue} {x : Instr} {insn : Insn} {f : Core → Core}
    (h : s.starts i insn = true) (hm : (s.core i.core).mayIssue x = true) (hf : fetchable i.core (s.issuer i insn).pc = true)
    (hx : (s.issuer i insn).fetched.isSome = true) :
    ∃ cores, s.issueReg i x insn f = { s.fetching i insn with cores := cores } := by
  unfold State.issueReg
  rw [State.issue_done h hm hf hx rfl]
  exact State.twoCores _ _ _ _

/-! ### Exceptions and stalls (R99, R120 to R126) -/

/-- An exception stops its core and changes no other. -/
theorem State.raise_core (s : State) (n cause sub unit : Nat) (w : Word) (j : Nat) :
    (s.raise n cause sub unit w).core j =
      if j = n then { s.core n with run := .excepted, held := none, stall := none } else s.core j :=
  State.core_setCore s n j { s.core n with run := .excepted, held := none, stall := none }

/-- A stall changes nothing but the instruction, the reason and the time its core waits for. -/
theorem State.stallCore_core (s : State) (n : Nat) (x : Instr) (w : Stall) :
    ∃ since, (s.stallCore n x w).core n = { s.core n with held := some x, stall := some (w, since) } := by
  simp only [State.stallCore, State.modCore, State.core_setCore_self]
  exact ⟨_, rfl⟩

/-- An instruction that waits bars every other of its core (R99). -/
theorem State.issue_other {s : State} {i : Issue} {x : Instr} {insn : Insn} {body : State → Core → Did}
    (hm : (s.core i.core).mayIssue x = false) : s.issue i x insn body = s := by
  unfold State.issue
  simp [hm]

theorem State.stallCore_other (s : State) (n : Nat) (x : Instr) (w : Stall) {j : Nat} (h : j ≠ n) :
    (s.stallCore n x w).core j = s.core j := by
  simp [State.stallCore, State.modCore, State.core_setCore, h]

end Sys2Proof.Machine
end

