-- ==== Sys2Proof/Laws/Sram.lean ====
section
/-! SUPPORT. Reads and writes of SRAM words whose check bits are valid, that are not retired and that no armed flip mask
touches (R292 to R299, R306, R313): a read gives the bytes stored and changes nothing, a write changes exactly the bytes
written. -/

namespace Sys2Proof

/-! ### Bytes of a word -/

theorem leNat_lt (b : Bytes) : leNat b < 256 ^ b.length := by
  induction b with
  | nil => simp [leNat]
  | cons x b ih =>
    have hx := x.isLt
    simp only [leNat, List.length_cons, Nat.pow_succ]
    omega

theorem leBytes_leNat (b : Bytes) : leBytes b.length (leNat b) = b := by
  induction b with
  | nil => rfl
  | cons x b ih =>
    have hx := x.isLt
    simp only [List.length_cons, leBytes, leNat]
    congr 1
    · apply BitVec.eq_of_toNat_eq; simp; omega
    · rw [show (x.toNat + 256 * leNat b) / 256 = leNat b by omega, ih]

@[simp] theorem leBytes_length (n x : Nat) : (leBytes n x).length = n := by
  induction n generalizing x with
  | zero => rfl
  | succ n ih => simp [leBytes, ih]

theorem wordBytes_wordOfBytes {b : Bytes} (h : b.length = 8) : wordBytes (wordOfBytes b) = b := by
  unfold wordBytes wordOfBytes
  have := leNat_lt b
  rw [h] at this
  rw [BitVec.toNat_ofNat, Nat.mod_eq_of_lt (by norm_num at this ⊢; exact this)]
  conv_rhs => rw [← leBytes_leNat b, h]

@[simp] theorem wordBytes_length (w : Word) : (wordBytes w).length = 8 := leBytes_length _ _

@[simp] theorem Memory.read_length (m : Tab Byte) (a n : Nat) : (Memory.read m a n).length = n := by simp [Memory.read]

theorem Memory.read_getElem (m : Tab Byte) (a n i : Nat) (h : i < (Memory.read m a n).length) :
    (Memory.read m a n)[i] = Memory.byte m (a + i) := by simp [Memory.read]

theorem Memory.read_add (m : Tab Byte) (a n k : Nat) :
    Memory.read m a (n + k) = Memory.read m a n ++ Memory.read m (a + n) k := by
  apply List.ext_getElem
  · simp
  · intro i h1 h2
    rw [Memory.read_getElem]
    by_cases hi : i < n
    · rw [List.getElem_append_left (by simpa using hi), Memory.read_getElem]
    · rw [List.getElem_append_right (by simpa using hi), Memory.read_getElem]
      simp only [Memory.read_length]
      congr 1; omega

/-- A part of a read is a read. -/
theorem Memory.read_drop_take (m : Tab Byte) (a k o n : Nat) (h : o + n ≤ k) :
    ((Memory.read m a k).drop o).take n = Memory.read m (a + o) n := by
  apply List.ext_getElem
  · simp; omega
  · intro i h1 h2
    simp only [List.getElem_take, List.getElem_drop, Memory.read_getElem]
    congr 1; omega

/-- Reading bytes after a write of bytes. -/
theorem Memory.byte_write (m : Tab Byte) (a : Nat) (d : Bytes) (x : Nat) :
    Memory.byte (Memory.write m a d) x =
      if a ≤ x ∧ x < a + d.length then d.getD (x - a) 0 else Memory.byte m x := by
  split
  · next h =>
    obtain ⟨i, rfl⟩ : ∃ i, x = a + i := ⟨x - a, by omega⟩
    rw [Memory.byte_write_inside m a d (by omega : i < d.length), Nat.add_sub_cancel_left, List.getD_eq_getElem?_getD,
      List.getElem?_eq_getElem (by omega)]
    rfl
  · next h => exact Memory.byte_write_outside m d (by omega)

theorem splice_length {b d : Bytes} {o : Nat} (h : o + d.length ≤ b.length) : (splice b o d).length = b.length := by
  simp [splice]; omega

theorem splice_getD {b d : Bytes} {o i : Nat} (h : o + d.length ≤ b.length) (hi : i < b.length) :
    (splice b o d).getD i 0 = if o ≤ i ∧ i < o + d.length then d.getD (i - o) 0 else b.getD i 0 := by
  unfold splice
  simp only [List.getD_eq_getElem?_getD]
  by_cases h1 : i < o
  · rw [if_neg (by omega), List.append_assoc, List.getElem?_append_left (by simp; omega), List.getElem?_take, if_pos h1]
  · by_cases h2 : i < o + d.length
    · rw [if_pos (by omega), List.append_assoc, List.getElem?_append_right (by simp; omega),
        List.getElem?_append_left (by simp; omega)]
      simp only [List.length_take]
      congr 2; omega
    · rw [if_neg (by omega), List.getElem?_append_right (by simp; omega), List.getElem?_drop]
      congr 2
      simp; omega

namespace Machine

theorem sramDecode_zero : sramDecode 0 = .clean := by decide

/-- A read of a word that is not retired and whose check bits are valid. -/
theorem State.readSram_clean {s : State} {wa : Nat} (hr : s.retiredWord wa = false) (hd : s.sramDisc wa = 0)
    (agent : Nat) (rmw : Bool) : s.readSram agent rmw wa = (some (s.sramWord wa), s) := by
  unfold State.readSram
  simp only [hr, hd, sramDecode_zero, Decoded.deliver, Bool.false_eq_true, if_false]

theorem State.readSramWords_clean {s : State} (agent : Nat) (n : Nat) : ∀ wa,
    (∀ w, wa ≤ w → w < wa + n → s.retiredWord w = false ∧ s.sramDisc w = 0) →
    s.readSramWords agent wa n = (some ((List.range n).map fun j => s.sramWord (wa + j)), s) := by
  induction n with
  | zero => intro wa _; rfl
  | succ n ih =>
    intro wa h
    have h0 := h wa (by omega) (by omega)
    have ih' := ih (wa + 1) (fun w h1 h2 => h w (by omega) (by omega))
    simp only [State.readSramWords, State.readSram_clean h0.1 h0.2, ih', List.range_succ_eq_map, List.map_cons, List.map_map,
      Nat.add_zero, Prod.mk.injEq, Option.some.injEq, List.cons.injEq, true_and, and_true]
    apply List.map_congr_left
    intro j _
    simp only [Function.comp]
    congr 1; omega

theorem flatMap_words (s : State) (wa n : Nat) :
    ((List.range n).map fun j => s.sramWord (wa + j)).flatMap wordBytes = Memory.read s.mem (8 * wa) (8 * n) := by
  induction n with
  | zero => simp [Memory.read]
  | succ n ih =>
    rw [List.range_succ, List.map_append, List.flatMap_append, ih, show 8 * (n + 1) = 8 * n + 8 by ring, Memory.read_add]
    congr 1
    simp only [List.map_cons, List.map_nil, List.flatMap_cons, List.flatMap_nil, List.append_nil, State.sramWord]
    rw [wordBytes_wordOfBytes (by simp)]
    congr 1; ring

/-- The words that `n` bytes from `a` touch hold valid check bits and are not retired. -/
theorem State.readSramBytes_clean {s : State} {a n : Nat} (agent : Nat)
    (h : ∀ w, a / 8 ≤ w → w < (a + n + 7) / 8 → s.retiredWord w = false ∧ s.sramDisc w = 0) :
    s.readSramBytes agent a n = (some (Memory.read s.mem a n), s) := by
  unfold State.readSramBytes
  have hw := State.readSramWords_clean agent ((a + n + 7) / 8 - a / 8) (a / 8)
    (fun w h1 h2 => h w h1 (by omega))
  simp only [hw, Option.map_some, flatMap_words]
  rw [Memory.read_drop_take _ _ _ _ _ (by omega), show 8 * (a / 8) + a % 8 = a by omega]

/-! ### Writes -/

theorem State.writeSram_clean {s : State} {wa : Nat} (hr : s.retiredWord wa = false)
    (hf : s.flipFor (wordCluster wa) (wordBank wa) = none) (w : Word) :
    ∃ r, s.writeSram wa w = { s with
        mem := Memory.write s.mem (8 * wa) (wordBytes w), sramCheck := Tab.put 0 s.sramCheck wa 0, sram := r } ∧
      r.retired = s.sram.retired ∧ r.flipHi = s.sram.flipHi ∧ r.flipLo = s.sram.flipLo := by
  unfold State.writeSram
  simp only [hr, Bool.false_eq_true, if_false]
  have hf' : ∀ r : Sram, r.flipHi = s.sram.flipHi → r.flipLo = s.sram.flipLo →
      ({ s with sram := r } : State).flipFor (wordCluster wa) (wordBank wa) = none := by
    intro r h1 h2
    rw [← hf]
    unfold State.flipFor
    simp only [h1, h2]
  by_cases hc : s.sram.writeBacks.contains (24 * wordCluster wa + wordBank wa, wa) = true
  · simp only [hc, if_true, hf' (Sram.written { s.sram with
      writeBacks := s.sram.writeBacks.filter (· != (24 * wordCluster wa + wordBank wa, wa))
      cancelled := s.sram.cancelled + 1 } (· == wa)) rfl rfl, State.putSram]
    exact ⟨_, rfl, rfl, rfl, rfl⟩
  · simp only [if_neg hc, hf' (s.sram.written (· == wa)) rfl rfl, State.putSram]
    exact ⟨_, rfl, rfl, rfl, rfl⟩

/-- A write of part of a clean word changes exactly the bytes written. -/
theorem State.writeSramPart_clean {s : State} {wa o : Nat} {d : Bytes} (agent : Nat) (hr : s.retiredWord wa = false)
    (hd : s.sramDisc wa = 0) (hf : s.flipFor (wordCluster wa) (wordBank wa) = none) (h : o + d.length ≤ 8) :
    ∃ m r, s.writeSramPart agent wa o d =
        (true, { s with mem := m, sramCheck := Tab.put 0 s.sramCheck wa 0, sram := r }) ∧
      (∀ x, Memory.byte m x = if 8 * wa + o ≤ x ∧ x < 8 * wa + o + d.length then d.getD (x - (8 * wa + o)) 0
        else Memory.byte s.mem x) ∧
      r.retired = s.sram.retired ∧ r.flipHi = s.sram.flipHi ∧ r.flipLo = s.sram.flipLo := by
  unfold State.writeSramPart
  simp only [hr, Bool.false_eq_true, if_false]
  split
  · next h8 =>
    obtain ⟨r, e, h1, h2, h3⟩ := State.writeSram_clean hr hf (wordOfBytes d)
    refine ⟨_, r, by rw [e], ?_, h1, h2, h3⟩
    intro x
    have ho : o = 0 := by omega
    rw [wordBytes_wordOfBytes h8, Memory.byte_write, ho, Nat.add_zero]
  · next h8 =>
    rw [State.readSram_clean hr hd]
    obtain ⟨r, e, h1, h2, h3⟩ := State.writeSram_clean hr hf (wordOfBytes (splice (wordBytes (s.sramWord wa)) o d))
    refine ⟨_, r, by dsimp only; rw [e], ?_, h1, h2, h3⟩
    intro x
    have hl : (splice (wordBytes (s.sramWord wa)) o d).length = 8 := by
      rw [splice_length (by simpa using h)]; simp
    rw [wordBytes_wordOfBytes hl, Memory.byte_write, hl]
    by_cases hx : 8 * wa ≤ x ∧ x < 8 * wa + 8
    · rw [if_pos hx, splice_getD (by simpa using h) (by simp; omega)]
      by_cases hy : o ≤ x - 8 * wa ∧ x - 8 * wa < o + d.length
      · rw [if_pos hy, if_pos (by omega)]; congr 1; omega
      · rw [if_neg hy, if_neg (by omega)]
        have : x - 8 * wa < 8 := by omega
        rw [State.sramWord, wordBytes_wordOfBytes (by simp), List.getD_eq_getElem?_getD,
          List.getElem?_eq_getElem (by simpa using this)]
        simp only [Option.getD_some, Memory.read_getElem]
        congr 1; omega
    · rw [if_neg hx, if_neg (by omega)]

/-- A write of bytes over clean words changes exactly the bytes written. -/
theorem State.writeSramBytes_clean (agent : Nat) (fuel : Nat) : ∀ {s : State} {a : Nat} {d : Bytes}, d.length ≤ fuel →
    (∀ w, a / 8 ≤ w → w < (a + d.length + 7) / 8 → s.retiredWord w = false ∧ s.sramDisc w = 0 ∧
      s.flipFor (wordCluster w) (wordBank w) = none) →
    ∃ m k r, s.writeSramBytes agent fuel a d = (true, { s with mem := m, sramCheck := k, sram := r }) ∧
      (∀ x, Memory.byte m x = if a ≤ x ∧ x < a + d.length then d.getD (x - a) 0 else Memory.byte s.mem x) ∧
      (∀ w, Tab.look 0 k w = Tab.look 0 s.sramCheck w) ∧
      r.retired = s.sram.retired ∧ r.flipHi = s.sram.flipHi ∧ r.flipLo = s.sram.flipLo := by
  induction fuel with
  | zero =>
    intro s a d hl h
    have : d = [] := List.length_eq_zero_iff.mp (by omega)
    subst this
    refine ⟨s.mem, s.sramCheck, s.sram, rfl, fun x => ?_, fun _ => rfl, rfl, rfl, rfl⟩
    rw [if_neg (by simp)]
  | succ fuel ih =>
    intro s a d hl h
    cases d with
    | nil =>
      refine ⟨s.mem, s.sramCheck, s.sram, rfl, fun x => ?_, fun _ => rfl, rfl, rfl, rfl⟩
      rw [if_neg (by simp)]
    | cons b0 ds =>
      generalize hd : b0 :: ds = d at *
      have hpos : 0 < d.length := by rw [← hd]; simp
      have h0 := h (a / 8) (le_refl _) (by omega)
      have hn : min d.length (8 - a % 8) ≤ d.length := min_le_left _ _
      have hn2 : min d.length (8 - a % 8) ≤ 8 - a % 8 := min_le_right _ _
      have hn3 : 0 < min d.length (8 - a % 8) := by omega
      have hn4 : min d.length (8 - a % 8) = d.length ∨ min d.length (8 - a % 8) = 8 - a % 8 := by omega
      generalize hN : min d.length (8 - a % 8) = n at *
      have htl : (d.take n).length = n := by simp; omega
      obtain ⟨m1, r1, e1, hb1, hr1, hf1, hg1⟩ := State.writeSramPart_clean (s := s) (wa := a / 8) (o := a % 8) (d := d.take n)
        agent h0.1 h0.2.1 h0.2.2 (by rw [htl]; omega)
      have hflip : ∀ c bk, ({ s with mem := m1, sramCheck := Tab.put 0 s.sramCheck (a / 8) 0, sram := r1 } : State).flipFor c bk =
          s.flipFor c bk := by
        intro c bk; unfold State.flipFor; simp only [hf1, hg1]
      obtain ⟨m2, k2, r2, e2, hb2, hk2, hr2, hf2, hg2⟩ := ih
        (s := { s with mem := m1, sramCheck := Tab.put 0 s.sramCheck (a / 8) 0, sram := r1 }) (a := a + n) (d := d.drop n)
        (by simp; omega) (by
          intro w h1 h2
          simp only [List.length_drop] at h2
          have hw := h w (by omega) (by omega)
          refine ⟨?_, ?_, ?_⟩
          · have := hw.1; unfold State.retiredWord at this ⊢; simpa only [hr1] using this
          · have := hw.2.1; unfold State.sramDisc at this ⊢
            rw [Tab.look_put]; split
            · rfl
            · exact this
          · rw [hflip]; exact hw.2.2)
      refine ⟨m2, k2, r2, ?_, ?_, ?_, by rw [hr2]; exact hr1, by rw [hf2]; exact hf1, by rw [hg2]; exact hg1⟩
      · subst hd
        simp only [State.writeSramBytes]
        simp only [hN, e1, e2, Bool.and_self]
      · intro x
        rw [hb2]
        simp only [List.length_drop]
        have hx1 := hb1 x
        rw [show 8 * (a / 8) + a % 8 = a by omega, htl] at hx1
        by_cases hx : a + n ≤ x ∧ x < a + n + (d.length - n)
        · rw [if_pos hx, if_pos (by omega)]
          simp only [List.getD_eq_getElem?_getD, List.getElem?_drop]
          congr 2; omega
        · rw [if_neg hx, hx1]
          by_cases hy : a ≤ x ∧ x < a + n
          · rw [if_pos hy, if_pos (by omega)]
            simp only [List.getD_eq_getElem?_getD, List.getElem?_take]
            rw [if_pos (by omega)]
          · rw [if_neg hy, if_neg (by omega)]
      · intro w
        rw [hk2 w]
        show Tab.look 0 (Tab.put 0 s.sramCheck (a / 8) 0) w = _
        rw [Tab.look_put]
        split
        · next hw => rw [hw]; exact h0.2.1.symm
        · rfl

/-- The bytes of a number. -/
theorem leBytes_getD (n x j : Nat) (h : j < n) : (leBytes n x).getD j 0 = BitVec.ofNat 8 (x / 256 ^ j) := by
  induction n generalizing x j with
  | zero => omega
  | succ n ih =>
    cases j with
    | zero => simp [leBytes]
    | succ j =>
      simp only [leBytes, List.getD_cons_succ]
      rw [ih _ _ (by omega), Nat.div_div_eq_div_mul, Nat.pow_succ']

end Machine
end Sys2Proof
end

