-- ==== Sys2Proof/Laws/CoreMem.lean ====
section
/-! SUPPORT. Energy accounting leaves everything but accounts and counts alone (R64, R65, R635), and what a core's access to its
own cluster's SRAM does when the words are clean (R83, R84, R105). -/

namespace Sys2Proof.Machine

/-! ### Accounting -/

@[simp] theorem State.activity_mem (s : State) (u : Meter) (k : Activity) (n : Nat) (p : Payer) : (s.activity u k n p).mem = s.mem := by
  unfold State.activity State.charge State.modBight State.modCmd State.modQueue State.addModel
  cases p with
  | base => rfl
  | bight b => rfl
  | cmd b q m => dsimp only; split <;> rfl

theorem State.charge_bight (s : State) (p : Payer) (d e j : Nat) :
    { (s.charge p d e).bight j with charged := 0, model := [] } = { s.bight j with charged := 0, model := [] } := by
  unfold State.charge
  have h : ∀ b, { (s.modBight b fun x => { x with
        charged := x.charged + e * s.scaleOf d / 0x4000, model := addAt x.model d e }).bight j with charged := 0, model := [] } =
      { s.bight j with charged := 0, model := [] } := by
    intro b
    simp only [State.modBight, State.bight_setBight]
    split
    · next h => subst h; rfl
    · rfl
  cases p with
  | base => rfl
  | bight b => exact h b
  | cmd b q m =>
    dsimp only
    have e2 : ∀ (x : State) (f : Cmd → Cmd), (x.modCmd q m f).bight j = x.bight j := by
      intro x f; unfold State.modCmd State.modQueue; split <;> rfl
    rw [e2]; exact h b

/-- A bight's registers but for its energy account are as before. -/
theorem State.activity_bight (s : State) (u : Meter) (k : Activity) (n : Nat) (p : Payer) (j : Nat) :
    { (s.activity u k n p).bight j with charged := 0, model := [] } = { s.bight j with charged := 0, model := [] } :=
  State.charge_bight _ _ _ _ _

/-- A queue without its commands' charges. -/
def Queue.uncharged (q : Queue) : Queue := { q with cmds := q.cmds.map fun c => { c with charged := 0, frameCharged := 0 } }

theorem State.modCmd_uncharged (s : State) (q m : Nat) (f : Cmd → Cmd)
    (hf : ∀ c, { f c with charged := 0, frameCharged := 0 } = { c with charged := 0, frameCharged := 0 }) (j : Nat) :
    ((s.modCmd q m f).queue? j).map Queue.uncharged = (s.queue? j).map Queue.uncharged := by
  unfold State.modCmd State.modQueue
  cases h : s.queue? q with
  | none => rfl
  | some x =>
    dsimp only
    rw [State.queue_setQueue]
    split
    · next hj =>
      subst hj
      rw [h]
      simp only [Option.map_some, Option.some.injEq, Queue.uncharged, Queue.modCmd, List.map_map]
      congr 1
      apply List.map_congr_left
      intro c _
      simp only [Function.comp]
      split
      · exact hf c
      · rfl
    · rfl

theorem State.charge_queue (s : State) (p : Payer) (d e j : Nat) :
    ((s.charge p d e).queue? j).map Queue.uncharged = (s.queue? j).map Queue.uncharged := by
  unfold State.charge
  cases p with
  | base => rfl
  | bight b => rfl
  | cmd b q m =>
    dsimp only
    generalize hx : s.modBight b _ = x
    have hq : x.queue? j = s.queue? j := by rw [← hx]; rfl
    generalize hf : (fun c : Cmd => _) = f
    have hf' : ∀ c, { f c with charged := 0, frameCharged := 0 } = { c with charged := 0, frameCharged := 0 } := by
      intro c; rw [← hf]
    rw [State.modCmd_uncharged x q m f hf', hq]

theorem State.activity_queue (s : State) (u : Meter) (k : Activity) (n : Nat) (p : Payer) (j : Nat) :
    ((s.activity u k n p).queue? j).map Queue.uncharged = (s.queue? j).map Queue.uncharged := by
  unfold State.activity
  dsimp only
  rw [State.charge_queue]
  rfl

@[simp] theorem State.activity_core (s : State) (u : Meter) (k : Activity) (n : Nat) (p : Payer) (j : Nat) :
    (s.activity u k n p).core j = s.core j := by
  rw [State.activity_frame]; rfl

/-! ### Access to the own cluster's SRAM -/

theorem regionOf_sram {c off : Nat} (hc : c < 512) (ho : off < sramUsed) : regionOf (sramAddr c off) = .sram c := by
  have h1 : sramAddr c off - sramBase = sramStride * c + off := by
    unfold sramAddr; rw [Nat.add_sub_cancel_left]
  unfold regionOf
  rw [h1]
  unfold sramAddr sramUsed hbmLimit sramBase sramStride at *
  rw [if_neg (by omega), if_neg (by omega), if_pos (by omega), if_pos (by omega)]
  exact congrArg Region.sram (by omega)

theorem sramAddr_add (c off k : Nat) : sramAddr c off + k = sramAddr c (off + k) := by
  unfold sramAddr
  rw [Nat.add_assoc, Nat.add_assoc]

theorem State.accessError_sram {s : State} {a c n : Nat} (h0 : regionOf a = .sram c) (h1 : regionOf (a + (n - 1)) = .sram c)
    (hl : s.sramLive c = true) : s.accessError a n = none := by
  unfold State.accessError
  rw [h0, h1]
  dsimp only
  rw [if_neg (by simp), if_pos hl]

/-- An access that lies in the SRAM of a live cluster meets no error. -/
theorem State.accessError_own {s : State} {c off n : Nat} (hc : c < 512) (hn : 0 < n) (ho : off + n ≤ sramUsed)
    (hl : s.sramLive c = true) : s.accessError (sramAddr c off) n = none := by
  have h1 : off < sramUsed := by generalize sramUsed = u at *; omega
  have h2 : off + (n - 1) < sramUsed := by generalize sramUsed = u at *; omega
  have h3 := regionOf_sram hc h2
  have h4 := sramAddr_add c off (n - 1)
  have h0 := regionOf_sram hc h1
  generalize sramAddr c off = a at *
  generalize sramAddr c (off + (n - 1)) = b at *
  subst h4
  exact accessError_sram h0 h3 hl

/-- Reading clean words of a live cluster gives their bytes; only the accounts change. -/
theorem State.physRead_clean {s : State} {a c n : Nat} (agent : Nat) (key : Option (Nat × Bool)) (p : Payer)
    (h0 : regionOf a = .sram c) (he : s.accessError a n = none)
    (h : ∀ w, a / 8 ≤ w → w < (a + n + 7) / 8 → s.retiredWord w = false ∧ s.sramDisc w = 0) :
    s.physRead agent key p a n = (.ok (Memory.read s.mem a n), s.activity (.cluster c) (.sramRead n) (divUp n 64) p) := by
  unfold State.physRead
  rw [he, h0]
  dsimp only
  rw [State.readSramBytes_clean agent (s := s.activity (.cluster c) (.sramRead n) (divUp n 64) p)]
  · simp only [State.activity_mem]
  · intro w h1 h2
    have := h w h1 h2
    rw [State.activity_frame]
    exact this

/-- Writing clean words of a live cluster changes exactly the bytes written and the accounts. -/
theorem State.physWrite_clean {s : State} {a c : Nat} {d : Bytes} (agent : Nat) (key : Option (Nat × Bool)) (p : Payer)
    (h0 : regionOf a = .sram c) (he : s.accessError a d.length = none)
    (h : ∀ w, a / 8 ≤ w → w < (a + d.length + 7) / 8 → s.retiredWord w = false ∧ s.sramDisc w = 0 ∧
      s.flipFor (wordCluster w) (wordBank w) = none) :
    ∃ m k r, s.physWrite agent key p a d =
        (none, { s.activity (.cluster c) (.sramWrite d.length) (divUp d.length 64) p with mem := m, sramCheck := k, sram := r }) ∧
      (∀ x, Memory.byte m x = if a ≤ x ∧ x < a + d.length then d.getD (x - a) 0 else Memory.byte s.mem x) ∧
      (∀ w, Tab.look 0 k w = Tab.look 0 s.sramCheck w) ∧
      r.retired = s.sram.retired ∧ r.flipHi = s.sram.flipHi ∧ r.flipLo = s.sram.flipLo := by
  unfold State.physWrite
  rw [he, h0]
  dsimp only
  obtain ⟨m, k, r, e, h1, hk, h2, h3, h4⟩ := State.writeSramBytes_clean agent d.length
    (s := s.activity (.cluster c) (.sramWrite d.length) (divUp d.length 64) p) (a := a) (d := d) (le_refl _) (by
      intro w h1 h2
      have := h w h1 h2
      rw [State.activity_frame]
      exact this)
  refine ⟨m, k, r, by rw [e]; rfl, ?_, ?_, ?_, ?_, ?_⟩
  · intro x; rw [h1 x, State.activity_mem]
  · intro w; rw [hk w, State.activity_frame]
  · rw [h2, State.activity_frame]
  · rw [h3, State.activity_frame]
  · rw [h4, State.activity_frame]

/-- A core's address within its own cluster: through the cluster's range or through the core's own local range (R83). -/
theorem coreAddr_own_cases {core : Nat} {a : Word} {off : Nat} (h : coreAddr core a = .own off) :
    (off = a.toNat ∧ a.toNat < 0x06000000) ∨
      (0x08000000 ≤ a.toNat ∧ a.toNat < 0x08400000 ∧ off = coreK core * 0x400000 + (a.toNat - 0x08000000)) := by
  unfold coreAddr at h
  dsimp only at h
  generalize a.toNat = x at *
  by_cases h1 : x < 0x06000000
  · rw [if_pos h1] at h; exact .inl ⟨(CoreAddr.own.inj h).symm, h1⟩
  · rw [if_neg h1] at h
    by_cases h2 : 0x08000000 ≤ x ∧ x < 0x08400000
    · rw [if_pos h2] at h; exact .inr ⟨h2.1, h2.2, (CoreAddr.own.inj h).symm⟩
    · rw [if_neg h2] at h
      by_cases h3 : 0x0C000000 ≤ x ∧ x < 0x0C008000
      · rw [if_pos h3] at h; exact CoreAddr.noConfusion h
      · rw [if_neg h3] at h
        by_cases h4 : 2 ^ 63 ≤ x ∧ x < 2 ^ 63 + 2 ^ 52
        · rw [if_pos h4] at h; exact CoreAddr.noConfusion h
        · rw [if_neg h4] at h; exact CoreAddr.noConfusion h
theorem own_lt {off x k : Nat} (hk : k < 16)
    (h : (off = x ∧ x < 0x06000000) ∨ (0x08000000 ≤ x ∧ x < 0x08400000 ∧ off = k * 0x400000 + (x - 0x08000000))) :
    off < 0x06000000 := by omega

theorem own_fits {off n x k : Nat} (hk : k < 16)
    (h : (off = x ∧ x < 0x06000000) ∨ (0x08000000 ≤ x ∧ x < 0x08400000 ∧ off = k * 0x400000 + (x - 0x08000000)))
    (hn : n = 1 ∨ n = 2 ∨ n = 4 ∨ n = 8 ∨ n = 64) (ha : x % n = 0) : off + n ≤ 0x06000000 := by
  rcases hn with rfl | rfl | rfl | rfl | rfl <;> omega

theorem coreK_lt (core : Nat) : coreK core < 16 := by unfold coreK; omega

theorem coreAddr_own {core : Nat} {a : Word} {off : Nat} (h : coreAddr core a = .own off) : off < sramUsed :=
  own_lt (coreK_lt core) (coreAddr_own_cases h)

/-- An aligned access of the own cluster does not leave it. -/
theorem coreAddr_own_fits {core n : Nat} {a : Word} {off : Nat} (h : coreAddr core a = .own off)
    (hn : n = 1 ∨ n = 2 ∨ n = 4 ∨ n = 8 ∨ n = 64) (ha : a.toNat % n = 0) : off + n ≤ sramUsed :=
  own_fits (coreK_lt core) (coreAddr_own_cases h) hn ha

theorem clusterOf_lt {core : Nat} (h : core < 8192) : clusterOf core < 512 := by
  unfold clusterOf coreY coreX; omega

/-- Reading clean words of the own cluster. -/
theorem State.loadOwn_clean {s : State} {core off n p : Nat} (a : Word) (dest : LoadDest) (post : Core → Core)
    (hp : p = sramAddr (clusterOf core) off) (h0 : regionOf p = .sram (clusterOf core)) (he : s.accessError p n = none)
    (h : ∀ w, p / 8 ≤ w → w < (p + n + 7) / 8 → s.retiredWord w = false ∧ s.sramDisc w = 0) :
    s.loadOwn core a off n dest post =
      .done ((s.activity (.cluster (clusterOf core)) (.sramRead n) (divUp n 64) (s.clusterPayer (clusterOf core))).modCore core
        fun k => post (k.land dest (Memory.read s.mem p n))) none := by
  unfold State.loadOwn
  dsimp only
  rw [← hp, State.physRead_clean agentCore none (s.clusterPayer (clusterOf core)) h0 he h]

/-- A load of clean words of the own cluster lands the bytes in its destination. -/
theorem State.loadAt_own {s : State} {core n off : Nat} {a : Word} {scalar : Bool} {dest : LoadDest} {post : Core → Core}
    (hc : core < 8192) (hn : n = 1 ∨ n = 2 ∨ n = 4 ∨ n = 8 ∨ n = 64) (ha : a.toNat % n = 0) (ho : coreAddr core a = .own off)
    (hl : s.sramLive (clusterOf core) = true) {p : Nat} (hp : p = sramAddr (clusterOf core) off)
    (h : ∀ w, p / 8 ≤ w → w < (p + n + 7) / 8 → s.retiredWord w = false ∧ s.sramDisc w = 0) :
    s.loadAt core a n n scalar dest post =
      .done ((s.activity (.cluster (clusterOf core)) (.sramRead n) (divUp n 64) (s.clusterPayer (clusterOf core))).modCore core
        fun k => post (k.land dest (Memory.read s.mem p n))) none := by
  have hpos : 0 < n := by omega
  have hf := coreAddr_own_fits ho hn ha
  have he := State.accessError_own (s := s) (clusterOf_lt hc) hpos hf hl
  have h0 := regionOf_sram (clusterOf_lt hc) (coreAddr_own ho)
  rw [← hp] at he h0
  unfold State.loadAt
  rw [if_neg (not_not.mpr ha), ho]
  exact State.loadOwn_clean a dest post hp h0 he h

/-- Writing clean words of the own cluster. -/
theorem State.storeOwn_clean {s : State} {core off p : Nat} {d : Bytes} (a : Word) (post : Core → Core)
    (hp : p = sramAddr (clusterOf core) off) (h0 : regionOf p = .sram (clusterOf core)) (he : s.accessError p d.length = none)
    (h : ∀ w, p / 8 ≤ w → w < (p + d.length + 7) / 8 → s.retiredWord w = false ∧ s.sramDisc w = 0 ∧
      s.flipFor (wordCluster w) (wordBank w) = none) :
    ∃ m k r, s.storeOwn core a off d post =
        .done ((({ s.activity (.cluster (clusterOf core)) (.sramWrite d.length) (divUp d.length 64) (s.clusterPayer (clusterOf core)) with
          mem := m, sramCheck := k, sram := r } : State)).modCore core post) none ∧
      (∀ x, Memory.byte m x = if p ≤ x ∧ x < p + d.length then d.getD (x - p) 0 else Memory.byte s.mem x) ∧
      (∀ w, Tab.look 0 k w = Tab.look 0 s.sramCheck w) ∧
      r.retired = s.sram.retired ∧ r.flipHi = s.sram.flipHi ∧ r.flipLo = s.sram.flipLo := by
  obtain ⟨m, k, r, e, h1⟩ := State.physWrite_clean agentCore none (s.clusterPayer (clusterOf core)) h0 he h
  refine ⟨m, k, r, ?_, h1⟩
  unfold State.storeOwn
  dsimp only
  rw [← hp, e]

/-- A store over clean words of the own cluster changes exactly the bytes written. -/
theorem State.storeAt_own {s : State} {core off n : Nat} {a : Word} {d : Bytes} {scalar : Bool} {post : Core → Core}
    (hc : core < 8192) (hd : d.length = n) (hn : n = 1 ∨ n = 2 ∨ n = 4 ∨ n = 8 ∨ n = 64) (ha : a.toNat % n = 0)
    (ho : coreAddr core a = .own off) (hl : s.sramLive (clusterOf core) = true) {p : Nat}
    (hp : p = sramAddr (clusterOf core) off)
    (h : ∀ w, p / 8 ≤ w → w < (p + n + 7) / 8 → s.retiredWord w = false ∧ s.sramDisc w = 0 ∧
      s.flipFor (wordCluster w) (wordBank w) = none) :
    ∃ m k r, s.storeAt core a d n scalar post =
        .done ((({ s.activity (.cluster (clusterOf core)) (.sramWrite n) (divUp n 64) (s.clusterPayer (clusterOf core)) with
          mem := m, sramCheck := k, sram := r } : State)).modCore core post) none ∧
      (∀ x, Memory.byte m x = if p ≤ x ∧ x < p + n then d.getD (x - p) 0 else Memory.byte s.mem x) ∧
      (∀ w, Tab.look 0 k w = Tab.look 0 s.sramCheck w) ∧
      r.retired = s.sram.retired ∧ r.flipHi = s.sram.flipHi ∧ r.flipLo = s.sram.flipLo := by
  subst hd
  have hpos : 0 < d.length := by omega
  have hf := coreAddr_own_fits ho hn ha
  have he := State.accessError_own (s := s) (clusterOf_lt hc) hpos hf hl
  have h0 := regionOf_sram (clusterOf_lt hc) (coreAddr_own ho)
  rw [← hp] at he h0
  obtain ⟨m, k, r, e, h1⟩ := State.storeOwn_clean a post hp h0 he h
  refine ⟨m, k, r, ?_, h1⟩
  unfold State.storeAt
  rw [if_neg (not_not.mpr ha), ho]
  exact e

end Sys2Proof.Machine
end

