-- ==== Sys2Proof/Laws/Hbm.lean ====
section
/-! SUPPORT. What decoding and reading a valid HBM code word gives (R321, R322). -/

namespace Sys2Proof.Machine

/-- Zero times anything is zero (R321). -/
theorem gfMul_zero_left (b : Nat) : gfMul 0 b = 0 := by
  have go : ∀ n b, gfMulAux n 0 b = 0 := by
    intro n
    induction n with
    | zero => intro b; rfl
    | succ n ih => intro b; simp [gfMulAux, gfTwice, ih]
  exact go 16 b

/-- A code word whose check symbols are valid decodes with no error (R322). -/
theorem hbmDecode_valid : hbmDecode 0 = some [] := by
  have h : ∀ j, rsSyndrome 0 j = 0 := fun j => by simp [rsSyndrome, checkSymbols, fieldN, xorAll, gfMul_zero_left]
  unfold hbmDecode
  simp only [h, and_self, if_true]

/-- A read of a valid code word gives the word as stored and changes nothing (R322). -/
theorem readCw_valid (s : State) (agent cw : Nat) (rmw : Bool) (h : s.hbmDisc cw = 0) :
    s.readCw agent rmw cw = (some (s.hbmWord cw), s) := by
  unfold State.readCw
  rw [h, hbmDecode_valid]

end Sys2Proof.Machine
end

