-- ==== Sys2Proof/Laws/Keeps.lean ====
section
/-! SUPPORT. What every operation of the module leaves alone, as one relation between the state before and the state after:
the queue of commands and the time stay, the memory's canonical form is kept, fuses only blow, and what has been sent stays
sent. One lemma for each operation says that it keeps this; the lemmas of the operations are in the files Keeps*.lean. -/

namespace Sys2Proof.Machine

/-- Fuses only blow (R583, R589, R554); what test fixed stays. -/
structure Fuses.Grow (f g : Fuses) : Prop where
  fixed : g = { f with rollback := g.rollback, debugDisabled := g.debugDisabled, wear := g.wear }
  rollback : f.rollback ≤ g.rollback
  debug : f.debugDisabled = true → g.debugDisabled = true
  wear : ∀ d, min 4096 (Tab.look 0 f.wear d) ≤ Tab.look 0 g.wear d

theorem Fuses.Grow.refl (f : Fuses) : f.Grow f := ⟨rfl, Nat.le_refl _, id, fun _ => Nat.min_le_right _ _⟩

theorem Fuses.Grow.trans {f g h : Fuses} (a : f.Grow g) (b : g.Grow h) : f.Grow h := by
  refine ⟨?_, Nat.le_trans a.rollback b.rollback, fun x => b.debug (a.debug x), fun d => ?_⟩
  · rw [b.fixed, a.fixed]
  · have h1 := a.wear d
    have h2 := b.wear d
    omega

/-- What no operation but the queue's head and the passing of time may change. -/
structure Keeps (r s : State) : Prop where
  pending : s.pending = r.pending
  now : s.now = r.now
  mem : Memory.wf r.mem = true → Memory.wf s.mem = true
  fuses : r.fuses.Grow s.fuses
  sent : ∃ l, s.sent = l ++ r.sent

variable {r s t : State}

theorem Keeps.refl (s : State) : Keeps s s := ⟨rfl, rfl, id, .refl _, [], rfl⟩

theorem Keeps.trans (a : Keeps r s) (b : Keeps s t) : Keeps r t := by
  obtain ⟨l, hl⟩ := a.sent
  obtain ⟨m, hm⟩ := b.sent
  exact ⟨b.pending.trans a.pending, b.now.trans a.now, fun h => b.mem (a.mem h), a.fuses.trans b.fuses,
    m ++ l, by rw [hm, hl, List.append_assoc]⟩

/-- A state that differs only in the other fields. -/
theorem Keeps.upd (h : Keeps r s) {fresh supply boot domains memHold frame energy power errors dict security cores engines
    mesh sram hbm xlat host queues fences bights fabric handoff sramCheck hbmCheck reqs nextReq} :
    Keeps r (State.mk s.pending s.now fresh s.fuses supply boot domains memHold frame energy power errors dict security
      cores engines mesh sram hbm xlat host queues fences bights fabric handoff s.mem sramCheck hbmCheck reqs nextReq
      s.sent) := ⟨h.pending, h.now, h.mem, h.fuses, h.sent⟩

/-- A state whose memory differs, in canonical form when it was before. -/
theorem Keeps.updMem (h : Keeps r s) {mem : List Host.Cell} (hm : Memory.wf s.mem = true → Memory.wf mem = true)
    {fresh supply boot domains memHold frame energy power errors dict security cores engines mesh sram hbm xlat host queues
    fences bights fabric handoff sramCheck hbmCheck reqs nextReq} :
    Keeps r (State.mk s.pending s.now fresh s.fuses supply boot domains memHold frame energy power errors dict security
      cores engines mesh sram hbm xlat host queues fences bights fabric handoff mem sramCheck hbmCheck reqs nextReq
      s.sent) := ⟨h.pending, h.now, fun x => hm (h.mem x), h.fuses, h.sent⟩

/-- A state with fuses blown. -/
theorem Keeps.updFuses (h : Keeps r s) {fuses : Fuses} (hf : s.fuses.Grow fuses)
    {fresh supply boot domains memHold frame energy power errors dict security cores engines mesh sram hbm xlat host queues
    fences bights fabric handoff sramCheck hbmCheck reqs nextReq} :
    Keeps r (State.mk s.pending s.now fresh fuses supply boot domains memHold frame energy power errors dict security
      cores engines mesh sram hbm xlat host queues fences bights fabric handoff s.mem sramCheck hbmCheck reqs nextReq
      s.sent) := ⟨h.pending, h.now, h.mem, h.fuses.trans hf, h.sent⟩

/-- A state that has sent one thing more. -/
theorem Keeps.updSent {x : Sent} (h : Keeps r s) : Keeps r { s with sent := x :: s.sent } := by
  obtain ⟨l, hl⟩ := h.sent
  exact ⟨h.pending, h.now, h.mem, h.fuses, x :: l, by simp [hl]⟩

theorem Keeps.foldl {α : Type} {f : State → α → State} (h : Keeps r s) (hf : ∀ s x, Keeps r s → Keeps r (f s x))
    (l : List α) : Keeps r (l.foldl f s) := by
  induction l generalizing s with
  | nil => exact h
  | cons x l ih => exact ih (hf s x h)

/-- An operation that also answers a value: its state keeps this. -/
structure KeepsP {α : Type} (r : State) (p : α × State) : Prop where
  keeps : Keeps r p.2

theorem KeepsP.pair {α : Type} {a : α} (h : Keeps r s) : KeepsP r (a, s) := ⟨h⟩

theorem KeepsP.foldl {α β : Type} {f : β × State → α → β × State} {a : β × State} (h : KeepsP r a)
    (hf : ∀ a x, KeepsP r a → KeepsP r (f a x)) (l : List α) : KeepsP r (l.foldl f a) := by
  induction l generalizing a with
  | nil => exact h
  | cons x l ih => exact ih (hf a x h)

theorem KeepsP.ite {α : Type} {c : Prop} [Decidable c] {p q : α × State} (h : KeepsP r p) (h' : KeepsP r q) :
    KeepsP r (if c then p else q) := by
  split <;> assumption

/-- A fold that carries the state first. -/
theorem Keeps.foldlFst {α β : Type} {f : State × β → α → State × β} {a : State × β} (h : Keeps r a.1)
    (hf : ∀ a x, Keeps r a.1 → Keeps r (f a x).1) (l : List α) : Keeps r (l.foldl f a).1 := by
  induction l generalizing a with
  | nil => exact h
  | cons x l ih => exact ih (hf a x h)

theorem Keeps.ite {c : Prop} [Decidable c] (h : Keeps r s) (h' : Keeps r t) : Keeps r (if c then s else t) := by
  split <;> assumption

/-- The state of a pair read through a match. -/
theorem KeepsP.of_eq {α : Type} {p : α × State} {a : α} (h : KeepsP r p) (e : p = (a, s)) : Keeps r s := by
  have := h.keeps
  rwa [e] at this

/-- Cut at a state that has a name. -/
theorem Keeps.cut {P : Prop} (h : Keeps r s) (k : Keeps r s → P) : P := k h

theorem KeepsP.cut {α : Type} {p : α × State} {P : Prop} (h : KeepsP r p) (k : KeepsP r p → P) : P := k h

/-- Cut at any statement. -/
theorem Keeps.cutAt (Q : Prop) {P : Prop} (h : Q) (k : Q → P) : P := k h

/-- What a command's outcome keeps, when it answers a next state. -/
def KeepsOut (r : State) : Host.Outcome State Fault Refusal → Prop
  | .next t => Keeps r t
  | _ => True

theorem KeepsOut.next (h : Keeps r s) : KeepsOut r (.next s) := h

end Sys2Proof.Machine
end

