-- ==== Sys2Proof/Laws/KeepsMemory.lean ====
section
/-! SUPPORT. The operations of memory, links and translation keep what `Keeps` says. -/

set_option linter.all false

namespace Sys2Proof.Machine

variable {r : State}

/-! ### Ops -/

theorem Keeps.setDomain {s i d} (h : Keeps r s) : Keeps r (State.setDomain s i d) := by
  generalize hf : @State.setDomain = f; delta State.setDomain at hf; subst hf; beta_reduce
  with_reducible repeat' first
    | assumption | (fail_if_no_progress apply Keeps.upd)

theorem Keeps.setCore {s k c} (h : Keeps r s) : Keeps r (State.setCore s k c) := by
  generalize hf : @State.setCore = f; delta State.setCore at hf; subst hf; beta_reduce
  with_reducible repeat' first
    | assumption | (fail_if_no_progress apply Keeps.upd)

theorem Keeps.modCore {s k f} (h : Keeps r s) : Keeps r (State.modCore s k f) := by
  generalize hf : @State.modCore = f; delta State.modCore at hf; subst hf; beta_reduce
  with_reducible repeat' first
    | assumption | apply Keeps.setCore

theorem Keeps.setEngine {s c e} (h : Keeps r s) : Keeps r (State.setEngine s c e) := by
  generalize hf : @State.setEngine = f; delta State.setEngine at hf; subst hf; beta_reduce
  with_reducible repeat' first
    | assumption | (fail_if_no_progress apply Keeps.upd)

theorem Keeps.modEngine {s c f} (h : Keeps r s) : Keeps r (State.modEngine s c f) := by
  generalize hf : @State.modEngine = f; delta State.modEngine at hf; subst hf; beta_reduce
  with_reducible repeat' first
    | assumption | apply Keeps.setEngine

theorem Keeps.setRouter {s r' x'} (h : Keeps r s) : Keeps r (State.setRouter s r' x') := by
  generalize hf : @State.setRouter = f; delta State.setRouter at hf; subst hf; beta_reduce
  with_reducible repeat' first
    | assumption | (fail_if_no_progress apply Keeps.upd)

theorem Keeps.modRouter {s r' f} (h : Keeps r s) : Keeps r (State.modRouter s r' f) := by
  generalize hf : @State.modRouter = f; delta State.modRouter at hf; subst hf; beta_reduce
  with_reducible repeat' first
    | assumption | apply Keeps.setRouter

theorem Keeps.setGroup {s g x'} (h : Keeps r s) : Keeps r (State.setGroup s g x') := by
  generalize hf : @State.setGroup = f; delta State.setGroup at hf; subst hf; beta_reduce
  with_reducible repeat' first
    | assumption | (fail_if_no_progress apply Keeps.upd)

theorem Keeps.modGroup {s g f} (h : Keeps r s) : Keeps r (State.modGroup s g f) := by
  generalize hf : @State.modGroup = f; delta State.modGroup at hf; subst hf; beta_reduce
  with_reducible repeat' first
    | assumption | apply Keeps.setGroup

theorem Keeps.setFn {s n x'} (h : Keeps r s) : Keeps r (State.setFn s n x') := by
  generalize hf : @State.setFn = f; delta State.setFn at hf; subst hf; beta_reduce
  with_reducible repeat' first
    | assumption | (fail_if_no_progress apply Keeps.upd)

theorem Keeps.modFn {s n f} (h : Keeps r s) : Keeps r (State.modFn s n f) := by
  generalize hf : @State.modFn = f; delta State.modFn at hf; subst hf; beta_reduce
  with_reducible repeat' first
    | assumption | apply Keeps.setFn

theorem Keeps.setBight {s b x'} (h : Keeps r s) : Keeps r (State.setBight s b x') := by
  generalize hf : @State.setBight = f; delta State.setBight at hf; subst hf; beta_reduce
  with_reducible repeat' first
    | assumption | (fail_if_no_progress apply Keeps.upd)

theorem Keeps.modBight {s b f} (h : Keeps r s) : Keeps r (State.modBight s b f) := by
  generalize hf : @State.modBight = f; delta State.modBight at hf; subst hf; beta_reduce
  with_reducible repeat' first
    | assumption | apply Keeps.setBight

theorem Keeps.setQueue {s q x'} (h : Keeps r s) : Keeps r (State.setQueue s q x') := by
  generalize hf : @State.setQueue = f; delta State.setQueue at hf; subst hf; beta_reduce
  with_reducible repeat' first
    | assumption | (fail_if_no_progress apply Keeps.upd)

theorem Keeps.modQueue {s q f} (h : Keeps r s) : Keeps r (State.modQueue s q f) := by
  generalize hf : @State.modQueue = f; delta State.modQueue at hf; subst hf; beta_reduce
  with_reducible repeat' first
    | assumption | apply Keeps.setQueue | (fail_if_no_progress apply Keeps.upd) | split
    | refine KeepsP.of_eq ?_ (by assumption)

theorem Keeps.setFence {s f x'} (h : Keeps r s) : Keeps r (State.setFence s f x') := by
  generalize hf : @State.setFence = f; delta State.setFence at hf; subst hf; beta_reduce
  with_reducible repeat' first
    | assumption | (fail_if_no_progress apply Keeps.upd)

theorem Keeps.setPort {s p x'} (h : Keeps r s) : Keeps r (State.setPort s p x') := by
  generalize hf : @State.setPort = f; delta State.setPort at hf; subst hf; beta_reduce
  with_reducible repeat' first
    | assumption | (fail_if_no_progress apply Keeps.upd)

theorem Keeps.modPort {s p f} (h : Keeps r s) : Keeps r (State.modPort s p f) := by
  generalize hf : @State.modPort = f; delta State.modPort at hf; subst hf; beta_reduce
  with_reducible repeat' first
    | assumption | apply Keeps.setPort

theorem Keeps.setPace {s i x'} (h : Keeps r s) : Keeps r (State.setPace s i x') := by
  generalize hf : @State.setPace = f; delta State.setPace at hf; subst hf; beta_reduce
  with_reducible repeat' first
    | assumption | (fail_if_no_progress apply Keeps.upd)

theorem Keeps.setSlot {s i x'} (h : Keeps r s) : Keeps r (State.setSlot s i x') := by
  generalize hf : @State.setSlot = f; delta State.setSlot at hf; subst hf; beta_reduce
  with_reducible repeat' first
    | assumption | (fail_if_no_progress apply Keeps.upd)

theorem Keeps.modSlot {s i f} (h : Keeps r s) : Keeps r (State.modSlot s i f) := by
  generalize hf : @State.modSlot = f; delta State.modSlot at hf; subst hf; beta_reduce
  with_reducible repeat' first
    | assumption | apply Keeps.setSlot

theorem Keeps.setKeySlot {s i x'} (h : Keeps r s) : Keeps r (State.setKeySlot s i x') := by
  generalize hf : @State.setKeySlot = f; delta State.setKeySlot at hf; subst hf; beta_reduce
  with_reducible repeat' first
    | assumption | (fail_if_no_progress apply Keeps.upd)

theorem Keeps.modKeySlot {s i f} (h : Keeps r s) : Keeps r (State.modKeySlot s i f) := by
  generalize hf : @State.modKeySlot = f; delta State.modKeySlot at hf; subst hf; beta_reduce
  with_reducible repeat' first
    | assumption | apply Keeps.setKeySlot

theorem Keeps.setInWin {s w x'} (h : Keeps r s) : Keeps r (State.setInWin s w x') := by
  generalize hf : @State.setInWin = f; delta State.setInWin at hf; subst hf; beta_reduce
  with_reducible repeat' first
    | assumption | (fail_if_no_progress apply Keeps.upd)

theorem Keeps.setOutWin {s w x'} (h : Keeps r s) : Keeps r (State.setOutWin s w x') := by
  generalize hf : @State.setOutWin = f; delta State.setOutWin at hf; subst hf; beta_reduce
  with_reducible repeat' first
    | assumption | (fail_if_no_progress apply Keeps.upd)

theorem Keeps.modCmd {s q seq f} (h : Keeps r s) : Keeps r (State.modCmd s q seq f) := by
  generalize hf : @State.modCmd = f; delta State.modCmd at hf; subst hf; beta_reduce
  with_reducible repeat' first
    | assumption | apply Keeps.modQueue

theorem Keeps.freeNat {s} (h : Keeps r s) : KeepsP r (State.freeNat s) := by
  generalize hf : @State.freeNat = f; delta State.freeNat at hf; subst hf; beta_reduce
  with_reducible repeat' first
    | assumption | (fail_if_no_progress apply Keeps.upd) | apply KeepsP.pair

theorem Keeps.freeWord {s} (h : Keeps r s) : KeepsP r (State.freeWord s) := by
  generalize hf : @State.freeWord = f; delta State.freeWord at hf; subst hf; beta_reduce
  with_reducible repeat' first
    | assumption | (fail_if_no_progress apply Keeps.upd) | apply KeepsP.pair

theorem Keeps.freeBytes {s} (h : Keeps r s) : KeepsP r (State.freeBytes s) := by
  generalize hf : @State.freeBytes = f; delta State.freeBytes at hf; subst hf; beta_reduce
  with_reducible repeat' first
    | assumption | (fail_if_no_progress apply Keeps.upd) | apply KeepsP.pair

theorem Keeps.send {r s : State} {x : Sent} (h : Keeps r s) : Keeps r (s.send x) := Keeps.updSent h

theorem Keeps.event {s code arg} (h : Keeps r s) : Keeps r (State.event s code arg) := by
  generalize hf : @State.event = f; delta State.event at hf; subst hf; beta_reduce
  with_reducible repeat' first
    | assumption | apply Keeps.ite | (fail_if_no_progress apply Keeps.upd)
    | (extract_lets +onlyGivenNames -underBinder x; clear_value x; revert x; intro _)

theorem Keeps.logFault {s ty payload} (h : Keeps r s) : Keeps r (State.logFault s ty payload) := by
  generalize hf : @State.logFault = f; delta State.logFault at hf; subst hf; beta_reduce
  with_reducible repeat' first
    | assumption | (fail_if_no_progress apply Keeps.upd)

theorem Keeps.hostWriteVia {r : State} {s : State} {n : Nat} {port : Nat} {addr : Nat} {d : Bytes} (h : Keeps r s) :
    Keeps r (State.hostWriteVia s n port addr d) := by
  generalize hf : @State.hostWriteVia = f; delta State.hostWriteVia at hf; subst hf; beta_reduce
  repeat' (first | with_reducible assumption  | with_reducible apply Keeps.send | with_reducible apply Keeps.ite | with_reducible apply KeepsP.ite | fail_if_no_progress with_reducible apply Keeps.upd | with_reducible apply KeepsOut.next | exact trivial | with_reducible apply KeepsDid.done | with_reducible apply KeepsDid.raise | with_reducible apply KeepsDid.stall | (with_reducible refine Keeps.foldl ?_ ?_ _; rotate_left; intros; beta_reduce) | (with_reducible refine KeepsP.foldl ?_ ?_ _; rotate_left; intros; beta_reduce) | with_reducible apply KeepsP.keeps | (extract_lets +onlyGivenNames -underBinder x; first | (refine Keeps.cut (r := r) (s := x) ?_ ?_; rotate_left; clear_value x; revert x; intro _ _; rotate_left; dsimp -zeta -iota -proj only [x]; clear x) | (refine KeepsP.cut (r := r) (p := x) ?_ ?_; rotate_left; clear_value x; revert x; intro _ _; rotate_left; dsimp -zeta -iota -proj only [x]; clear x) | clear_value x) | split | exact KeepsP.keeps (p := (_, _)) (by assumption) | (refine KeepsP.of_eq ?_ (by assumption)) | dsimp +zetaDelta -zeta -iota -proj only | with_reducible apply KeepsP.pair)

theorem Keeps.aer {r : State} {s : State} {fn : Nat} (h : Keeps r s) :
    Keeps r (State.aer s fn) := by
  generalize hf : @State.aer = f; delta State.aer at hf; subst hf; beta_reduce
  repeat' (first | with_reducible assumption  | with_reducible apply Keeps.send | with_reducible apply Keeps.ite | with_reducible apply KeepsP.ite | fail_if_no_progress with_reducible apply Keeps.upd | with_reducible apply KeepsOut.next | exact trivial | with_reducible apply KeepsDid.done | with_reducible apply KeepsDid.raise | with_reducible apply KeepsDid.stall | (with_reducible refine Keeps.foldl ?_ ?_ _; rotate_left; intros; beta_reduce) | (with_reducible refine KeepsP.foldl ?_ ?_ _; rotate_left; intros; beta_reduce) | with_reducible apply KeepsP.keeps | (extract_lets +onlyGivenNames -underBinder x; first | (refine Keeps.cut (r := r) (s := x) ?_ ?_; rotate_left; clear_value x; revert x; intro _ _; rotate_left; dsimp -zeta -iota -proj only [x]; clear x) | (refine KeepsP.cut (r := r) (p := x) ?_ ?_; rotate_left; clear_value x; revert x; intro _ _; rotate_left; dsimp -zeta -iota -proj only [x]; clear x) | clear_value x) | split | exact KeepsP.keeps (p := (_, _)) (by assumption) | (refine KeepsP.of_eq ?_ (by assumption)) | dsimp +zetaDelta -zeta -iota -proj only | with_reducible apply KeepsP.pair)

theorem Keeps.hostWrite {s n addr d} (h : Keeps r s) : Keeps r (State.hostWrite s n addr d) := by
  generalize hf : @State.hostWrite = f; delta State.hostWrite at hf; subst hf; beta_reduce
  with_reducible repeat' first
    | assumption | apply Keeps.hostWriteVia

theorem Keeps.irq {s n v} (h : Keeps r s) : Keeps r (State.irq s n v) := by
  generalize hf : @State.irq = f; delta State.irq at hf; subst hf; beta_reduce
  with_reducible repeat' first
    | assumption | apply Keeps.modFn | apply Keeps.send | apply Keeps.ite | (fail_if_no_progress apply Keeps.upd)
    | (extract_lets +onlyGivenNames -underBinder x; clear_value x; revert x; intro _)

theorem Keeps.cause {s n bit} (h : Keeps r s) : Keeps r (State.cause s n bit) := by
  generalize hf : @State.cause = f; delta State.cause at hf; subst hf; beta_reduce
  with_reducible repeat' first
    | assumption | apply Keeps.irq | apply Keeps.modFn | apply Keeps.ite | (fail_if_no_progress apply Keeps.upd)

theorem Keeps.moduleEvent {s} (h : Keeps r s) : Keeps r (State.moduleEvent s) := by
  generalize hf : @State.moduleEvent = f; delta State.moduleEvent at hf; subst hf; beta_reduce
  with_reducible repeat' first
    | assumption | apply Keeps.cause

theorem Keeps.disarm {s c} (h : Keeps r s) : Keeps r (State.disarm s c) := by
  generalize hf : @State.disarm = f; delta State.disarm at hf; subst hf; beta_reduce
  with_reducible repeat' first
    | assumption 
    | apply Keeps.ite | (fail_if_no_progress apply Keeps.upd)
    | (extract_lets +onlyGivenNames -underBinder x; first | (refine Keeps.cut (s := x) (r := r) ?_ ?_; rotate_left; clear_value x; revert x; intro _ _; rotate_left; dsimp -zeta -iota -proj only [x]; clear x) | (clear_value x; revert x; intro _))
    | split | exact KeepsP.keeps (p := (_, _)) (by assumption) | refine KeepsP.of_eq ?_ (by assumption)

theorem Keeps.lanSend {s ty dest src high payload} (h : Keeps r s) :
    Keeps r (State.lanSend s ty dest src high payload) := by
  generalize hf : @State.lanSend = f; delta State.lanSend at hf; subst hf; beta_reduce
  with_reducible repeat' first
    | assumption | (fail_if_no_progress apply Keeps.upd)

theorem Keeps.lanCarry {s ty dest src payload} (h : Keeps r s) : Keeps r (State.lanCarry s ty dest src payload) := by
  generalize hf : @State.lanCarry = f; delta State.lanCarry at hf; subst hf; beta_reduce
  with_reducible repeat' first
    | assumption 
    | apply Keeps.ite | (fail_if_no_progress apply Keeps.upd)
    | (extract_lets +onlyGivenNames -underBinder x; first | (refine Keeps.cut (s := x) (r := r) ?_ ?_; rotate_left; clear_value x; revert x; intro _ _; rotate_left; dsimp -zeta -iota -proj only [x]; clear x) | (clear_value x; revert x; intro _))
    | split | exact KeepsP.keeps (p := (_, _)) (by assumption) | refine KeepsP.of_eq ?_ (by assumption)

theorem Keeps.lanTake {r s t : State} {n : Nat} {m : LanMsg} (h : Keeps r s) (e : s.lanTake n = some (m, t)) :
    Keeps r t := by
  simp only [State.lanTake, Option.bind_eq_some_iff] at e
  obtain ⟨_, _, e⟩ := e
  split at e
  · cases e
    exact Keeps.upd h
  · cases e

theorem Keeps.domainMsg {r : State} {s : State} {back : Bool} {i : Nat} {x' : DomState} (h : Keeps r s) :
    Keeps r (State.domainMsg s back i x') := by
  generalize hf : @State.domainMsg = f; delta State.domainMsg at hf; subst hf; beta_reduce
  repeat' (first | with_reducible assumption  | with_reducible apply Keeps.ite | with_reducible apply KeepsP.ite | fail_if_no_progress with_reducible apply Keeps.upd | with_reducible apply KeepsOut.next | exact trivial | with_reducible apply KeepsDid.done | with_reducible apply KeepsDid.raise | with_reducible apply KeepsDid.stall | (with_reducible refine Keeps.foldl ?_ ?_ _; rotate_left; intros; beta_reduce) | (with_reducible refine KeepsP.foldl ?_ ?_ _; rotate_left; intros; beta_reduce) | with_reducible apply KeepsP.keeps | (extract_lets +onlyGivenNames -underBinder x; first | (refine Keeps.cut (r := r) (s := x) ?_ ?_; rotate_left; clear_value x; revert x; intro _ _; rotate_left; dsimp -zeta -iota -proj only [x]; clear x) | (refine KeepsP.cut (r := r) (p := x) ?_ ?_; rotate_left; clear_value x; revert x; intro _ _; rotate_left; dsimp -zeta -iota -proj only [x]; clear x) | clear_value x) | split | exact KeepsP.keeps (p := (_, _)) (by assumption) | (refine KeepsP.of_eq ?_ (by assumption)) | dsimp +zetaDelta -zeta -iota -proj only | with_reducible apply KeepsP.pair)

theorem Keeps.moveDom {s i d} (h : Keeps r s) : Keeps r (State.moveDom s i d) := by
  generalize hf : @State.moveDom = f; delta State.moveDom at hf; subst hf; beta_reduce
  with_reducible repeat' first
    | assumption | apply Keeps.domainMsg | apply Keeps.setDomain | apply Keeps.disarm
    | apply Keeps.ite | (fail_if_no_progress apply Keeps.upd)
    | (extract_lets +onlyGivenNames -underBinder x; first | (refine Keeps.cut (s := x) (r := r) ?_ ?_; rotate_left; clear_value x; revert x; intro _ _; rotate_left; dsimp -zeta -iota -proj only [x]; clear x) | (clear_value x; revert x; intro _))
    | split | exact KeepsP.keeps (p := (_, _)) (by assumption) | refine KeepsP.of_eq ?_ (by assumption)

theorem Keeps.reqDom {s i x'} (h : Keeps r s) : Keeps r (State.reqDom s i x') := by
  generalize hf : @State.reqDom = f; delta State.reqDom at hf; subst hf; beta_reduce
  with_reducible repeat' first
    | assumption | apply Keeps.moveDom | apply Keeps.setDomain

/-! ### Energy -/

theorem Keeps.charge {s p d e} (h : Keeps r s) : Keeps r (State.charge s p d e) := by
  generalize hf : @State.charge = f; delta State.charge at hf; subst hf; beta_reduce
  with_reducible repeat' first
    | assumption | apply hfn | intro _ | apply Keeps.modBight | apply Keeps.modCmd
    | (fail_if_no_progress apply Keeps.upd)
    | (extract_lets +onlyGivenNames -underBinder x; first | (refine Keeps.cutAt (∀ (s : State), Keeps r s → Keeps r (x s)) ?_ ?_; rotate_left; clear_value x; revert x; intro _ hfn; rotate_left; dsimp -zeta -iota -proj only [x]; clear x) | (refine Keeps.cutAt (∀ (s : State) a, Keeps r s → Keeps r (x s a)) ?_ ?_; rotate_left; clear_value x; revert x; intro _ hfn; rotate_left; dsimp -zeta -iota -proj only [x]; clear x) | (refine Keeps.cutAt (∀ (s : State) a b, Keeps r s → Keeps r (x s a b)) ?_ ?_; rotate_left; clear_value x; revert x; intro _ hfn; rotate_left; dsimp -zeta -iota -proj only [x]; clear x) | (refine Keeps.cutAt (∀ (s : State) a b c, Keeps r s → Keeps r (x s a b c)) ?_ ?_; rotate_left; clear_value x; revert x; intro _ hfn; rotate_left; dsimp -zeta -iota -proj only [x]; clear x) | (refine Keeps.cutAt (∀ (s : State), Keeps r s → KeepsP r (x s)) ?_ ?_; rotate_left; clear_value x; revert x; intro _ hfn; rotate_left; dsimp -zeta -iota -proj only [x]; clear x) | (refine Keeps.cutAt (∀ (s : State) a, Keeps r s → KeepsP r (x s a)) ?_ ?_; rotate_left; clear_value x; revert x; intro _ hfn; rotate_left; dsimp -zeta -iota -proj only [x]; clear x) | (refine Keeps.cutAt (∀ (s : State) a b, Keeps r s → KeepsP r (x s a b)) ?_ ?_; rotate_left; clear_value x; revert x; intro _ hfn; rotate_left; dsimp -zeta -iota -proj only [x]; clear x) | (refine Keeps.cutAt (∀ (s : State) a b c, Keeps r s → KeepsP r (x s a b c)) ?_ ?_; rotate_left; clear_value x; revert x; intro _ hfn; rotate_left; dsimp -zeta -iota -proj only [x]; clear x) | (refine Keeps.cutAt (∀ (s : State), Keeps r s → KeepsDid r (x s)) ?_ ?_; rotate_left; clear_value x; revert x; intro _ hfn; rotate_left; dsimp -zeta -iota -proj only [x]; clear x) | (refine Keeps.cutAt (∀ (s : State) a, Keeps r s → KeepsDid r (x s a)) ?_ ?_; rotate_left; clear_value x; revert x; intro _ hfn; rotate_left; dsimp -zeta -iota -proj only [x]; clear x) | (refine Keeps.cutAt (∀ (s : State) a b, Keeps r s → KeepsDid r (x s a b)) ?_ ?_; rotate_left; clear_value x; revert x; intro _ hfn; rotate_left; dsimp -zeta -iota -proj only [x]; clear x) | (refine Keeps.cutAt (∀ (s : State) a b c, Keeps r s → KeepsDid r (x s a b c)) ?_ ?_; rotate_left; clear_value x; revert x; intro _ hfn; rotate_left; dsimp -zeta -iota -proj only [x]; clear x) | (clear_value x; revert x; intro _))
    | split | refine KeepsP.of_eq ?_ (by assumption) | dsimp +zetaDelta -zeta -iota -proj only

theorem Keeps.addModel {s d e} (h : Keeps r s) : Keeps r (State.addModel s d e) := by
  generalize hf : @State.addModel = f; delta State.addModel at hf; subst hf; beta_reduce
  with_reducible repeat' first
    | assumption | (fail_if_no_progress apply Keeps.upd)

theorem Keeps.activity {s d k amount p} (h : Keeps r s) : Keeps r (State.activity s d k amount p) := by
  generalize hf : @State.activity = f; delta State.activity at hf; subst hf; beta_reduce
  with_reducible repeat' first
    | assumption | apply Keeps.charge | apply Keeps.addModel | (fail_if_no_progress apply Keeps.upd)
    | (extract_lets +onlyGivenNames -underBinder x; clear_value x; revert x; intro _)

theorem Keeps.pathActivity {s path n p} (h : Keeps r s) : Keeps r (State.pathActivity s path n p) := by
  generalize hf : @State.pathActivity = f; delta State.pathActivity at hf; subst hf; beta_reduce
  with_reducible repeat' first
    | assumption | apply Keeps.activity
    | apply Keeps.ite | (fail_if_no_progress apply Keeps.upd)
    | (refine Keeps.foldl ?_ ?_ _; rotate_left; intros; beta_reduce)
    | (refine KeepsP.foldl ?_ ?_ _; rotate_left; intros; beta_reduce)
    | (extract_lets +onlyGivenNames -underBinder x; first | (refine Keeps.cut (s := x) (r := r) ?_ ?_; rotate_left; clear_value x; revert x; intro _ _; rotate_left; dsimp -zeta -iota -proj only [x]; clear x) | (clear_value x; revert x; intro _))
    | split | exact KeepsP.keeps (p := (_, _)) (by assumption) | refine KeepsP.of_eq ?_ (by assumption)

/-! ### SramOps -/

theorem Keeps.putSram {r s : State} {wa : Nat} {w : Word} {disc : BitVec 17} (h : Keeps r s) :
    Keeps r (s.putSram wa w disc) := Keeps.updMem h fun x => Memory.wf_write x _ _

theorem Keeps.sramCorrected {s agent wa disc} (h : Keeps r s) : Keeps r (State.sramCorrected s agent wa disc) := by
  generalize hf : @State.sramCorrected = f; delta State.sramCorrected at hf; subst hf; beta_reduce
  with_reducible repeat' first
    | assumption | apply Keeps.lanSend | apply Keeps.ite | (fail_if_no_progress apply Keeps.upd)
    | (extract_lets +onlyGivenNames -underBinder x; first | (refine Keeps.cut (s := x) (r := r) ?_ ?_; rotate_left; clear_value x; revert x; intro _ _; rotate_left; dsimp -zeta -iota -proj only [x]; clear x) | (clear_value x; revert x; intro _))
    | split | refine KeepsP.of_eq ?_ (by assumption)

theorem Keeps.sramBad {s agent wa disc} (h : Keeps r s) : Keeps r (State.sramBad s agent wa disc) := by
  generalize hf : @State.sramBad = f; delta State.sramBad at hf; subst hf; beta_reduce
  with_reducible repeat' first
    | assumption | apply Keeps.lanSend | (fail_if_no_progress apply Keeps.upd)

theorem Keeps.readSram {s agent rmw wa} (h : Keeps r s) : KeepsP r (State.readSram s agent rmw wa) := by
  generalize hf : @State.readSram = f; delta State.readSram at hf; subst hf; beta_reduce
  with_reducible repeat' first
    | assumption | apply Keeps.sramCorrected | apply Keeps.sramBad | apply Keeps.ite | apply KeepsP.ite
    | (fail_if_no_progress apply Keeps.upd) | apply KeepsP.keeps
    | (extract_lets +onlyGivenNames -underBinder x; first | (refine Keeps.cut (s := x) (r := r) ?_ ?_; rotate_left; clear_value x; revert x; intro _ _; rotate_left; dsimp -zeta -iota -proj only [x]; clear x) | (clear_value x; revert x; intro _))
    | split | refine KeepsP.of_eq ?_ (by assumption) | apply KeepsP.pair

theorem Keeps.writeSram {s wa w} (h : Keeps r s) : Keeps r (State.writeSram s wa w) := by
  generalize hf : @State.writeSram = f; delta State.writeSram at hf; subst hf; beta_reduce
  with_reducible repeat' first
    | assumption | apply Keeps.putSram | apply Keeps.ite | (fail_if_no_progress apply Keeps.upd)
    | (extract_lets +onlyGivenNames -underBinder x; first | (refine Keeps.cut (s := x) (r := r) ?_ ?_; rotate_left; clear_value x; revert x; intro _ _; rotate_left; dsimp -zeta -iota -proj only [x]; clear x) | (clear_value x; revert x; intro _))
    | split | refine KeepsP.of_eq ?_ (by assumption)

theorem Keeps.writeSramPart {s agent wa o d} (h : Keeps r s) : KeepsP r (State.writeSramPart s agent wa o d) := by
  generalize hf : @State.writeSramPart = f; delta State.writeSramPart at hf; subst hf; beta_reduce
  with_reducible repeat' first
    | assumption | apply Keeps.writeSram | apply Keeps.readSram | apply KeepsP.ite
    | (fail_if_no_progress apply Keeps.upd) | split | refine KeepsP.of_eq ?_ (by assumption) | apply KeepsP.pair

theorem Keeps.amoSram {s agent wa f} (h : Keeps r s) : KeepsP r (State.amoSram s agent wa f) := by
  generalize hf : @State.amoSram = f; delta State.amoSram at hf; subst hf; beta_reduce
  with_reducible repeat' first
    | assumption | apply Keeps.readSram | apply Keeps.writeSram
    | apply Keeps.ite | apply KeepsP.ite | (fail_if_no_progress apply Keeps.upd)
    | apply KeepsP.keeps
    | (extract_lets +onlyGivenNames -underBinder x; first | (refine Keeps.cut (s := x) (r := r) ?_ ?_; rotate_left; clear_value x; revert x; intro _ _; rotate_left; dsimp -zeta -iota -proj only [x]; clear x) | (clear_value x; revert x; intro _))
    | split | exact KeepsP.keeps (p := (_, _)) (by assumption) | refine KeepsP.of_eq ?_ (by assumption) | apply KeepsP.pair

theorem Keeps.readSramWords {s agent x1 x2} (h : Keeps r s) : KeepsP r (State.readSramWords s agent x1 x2) := by
  induction x2 generalizing s x1 with
  | zero =>
    unfold State.readSramWords
    with_reducible repeat' first
      | assumption | apply Keeps.readSram | (fail_if_no_progress apply Keeps.upd) | apply KeepsP.keeps
      | (extract_lets +onlyGivenNames -underBinder x; clear_value x; revert x; intro _) | split
      | refine KeepsP.of_eq ?_ (by assumption) | apply KeepsP.pair
  | succ n ih =>
    unfold State.readSramWords
    with_reducible repeat' first
      | assumption | apply ih | apply Keeps.readSram | (fail_if_no_progress apply Keeps.upd) | apply KeepsP.keeps
      | (extract_lets +onlyGivenNames -underBinder x; clear_value x; revert x; intro _) | split
      | refine KeepsP.of_eq ?_ (by assumption) | apply KeepsP.pair

theorem Keeps.readEachSram {r s : State} {agent wa n : Nat} (h : Keeps r s) : KeepsP r (State.readEachSram s agent wa n) := by
  induction n generalizing s wa with
  | zero => exact KeepsP.pair h
  | succ n ih => exact KeepsP.pair (ih (Keeps.readSram h).keeps).keeps

theorem Keeps.readSramBytes {s agent a n} (h : Keeps r s) : KeepsP r (State.readSramBytes s agent a n) := by
  generalize hf : @State.readSramBytes = f; delta State.readSramBytes at hf; subst hf; beta_reduce
  with_reducible repeat' first
    | assumption | apply Keeps.readSramWords | apply KeepsP.keeps
    | (extract_lets +onlyGivenNames -underBinder x; clear_value x; revert x; intro _) | split
    | refine KeepsP.of_eq ?_ (by assumption) | apply KeepsP.pair

theorem Keeps.writeSramBytes {s agent x1 x2 x3} (h : Keeps r s) :
    KeepsP r (State.writeSramBytes s agent x1 x2 x3) := by
  induction x1 generalizing s x2 x3 with
  | zero =>
    unfold State.writeSramBytes
    with_reducible repeat' first
      | assumption | apply Keeps.writeSramPart | (fail_if_no_progress apply Keeps.upd) | apply KeepsP.keeps
      | (extract_lets +onlyGivenNames -underBinder x; clear_value x; revert x; intro _) | split
      | refine KeepsP.of_eq ?_ (by assumption) | apply KeepsP.pair
  | succ n ih =>
    unfold State.writeSramBytes
    with_reducible repeat' first
      | assumption | apply ih | apply Keeps.writeSramPart | (fail_if_no_progress apply Keeps.upd) | apply KeepsP.keeps
      | (extract_lets +onlyGivenNames -underBinder x; clear_value x; revert x; intro _) | split
      | refine KeepsP.of_eq ?_ (by assumption) | apply KeepsP.pair

theorem Keeps.clearSramRange {r s : State} {c a n : Nat} (h : Keeps r s) : Keeps r (s.clearSramRange c a n) :=
  Keeps.updMem h fun x => Tab.wf_filter x _

theorem Keeps.cancelBacks {s c a n} (h : Keeps r s) : Keeps r (State.cancelBacks s c a n) := by
  generalize hf : @State.cancelBacks = f; delta State.cancelBacks at hf; subst hf; beta_reduce
  with_reducible repeat' first
    | assumption 
    | apply Keeps.ite | (fail_if_no_progress apply Keeps.upd)
    | (extract_lets +onlyGivenNames -underBinder x; first | (refine Keeps.cut (s := x) (r := r) ?_ ?_; rotate_left; clear_value x; revert x; intro _ _; rotate_left; dsimp -zeta -iota -proj only [x]; clear x) | (clear_value x; revert x; intro _))
    | split | exact KeepsP.keeps (p := (_, _)) (by assumption) | refine KeepsP.of_eq ?_ (by assumption)

theorem Keeps.applyFuses {s c} (h : Keeps r s) : Keeps r (State.applyFuses s c) := by
  generalize hf : @State.applyFuses = f; delta State.applyFuses at hf; subst hf; beta_reduce
  with_reducible repeat' first
    | assumption 
    | apply Keeps.ite | (fail_if_no_progress apply Keeps.upd)
    | (extract_lets +onlyGivenNames -underBinder x; first | (refine Keeps.cut (s := x) (r := r) ?_ ?_; rotate_left; clear_value x; revert x; intro _ _; rotate_left; dsimp -zeta -iota -proj only [x]; clear x) | (clear_value x; revert x; intro _))
    | split | exact KeepsP.keeps (p := (_, _)) (by assumption) | refine KeepsP.of_eq ?_ (by assumption)

theorem Keeps.clearCluster {s c} (h : Keeps r s) : Keeps r (State.clearCluster s c) := by
  generalize hf : @State.clearCluster = f; delta State.clearCluster at hf; subst hf; beta_reduce
  with_reducible repeat' first
    | assumption | apply Keeps.clearSramRange | (fail_if_no_progress apply Keeps.upd)
    | (extract_lets +onlyGivenNames -underBinder x; first | (refine Keeps.cut (s := x) (r := r) ?_ ?_; rotate_left; clear_value x; revert x; intro _ _; rotate_left; dsimp -zeta -iota -proj only [x]; clear x) | (clear_value x; revert x; intro _))

theorem Keeps.loseCluster {r s : State} {c : Nat} (h : Keeps r s) : Keeps r (s.loseCluster c) :=
  Keeps.updMem h fun x => Tab.wf_filter x _

/-! ### HbmOps -/

theorem Keeps.putHbm {r s : State} {cw : Nat} {w : BitVec 512} {disc : BitVec 64} (h : Keeps r s) :
    Keeps r (s.putHbm cw w disc) := Keeps.updMem h fun x => Memory.wf_write x _ _

theorem Keeps.hbmCorrected {s agent cw n} (h : Keeps r s) : Keeps r (State.hbmCorrected s agent cw n) := by
  generalize hf : @State.hbmCorrected = f; delta State.hbmCorrected at hf; subst hf; beta_reduce
  with_reducible repeat' first
    | assumption | apply Keeps.lanSend | apply Keeps.setGroup | apply Keeps.ite
    | (fail_if_no_progress apply Keeps.upd)
    | (extract_lets +onlyGivenNames -underBinder x; clear_value x; revert x; intro _) | split
    | refine KeepsP.of_eq ?_ (by assumption)

theorem Keeps.hbmBad {s agent cw} (h : Keeps r s) : Keeps r (State.hbmBad s agent cw) := by
  generalize hf : @State.hbmBad = f; delta State.hbmBad at hf; subst hf; beta_reduce
  with_reducible repeat' first
    | assumption | apply Keeps.lanSend | apply Keeps.setGroup | (fail_if_no_progress apply Keeps.upd)
    | (extract_lets +onlyGivenNames -underBinder x; clear_value x; revert x; intro _)

theorem Keeps.readCw {s agent rmw cw} (h : Keeps r s) : KeepsP r (State.readCw s agent rmw cw) := by
  generalize hf : @State.readCw = f; delta State.readCw at hf; subst hf; beta_reduce
  with_reducible repeat' first
    | assumption | apply Keeps.hbmBad | apply Keeps.hbmCorrected | apply Keeps.modGroup | apply Keeps.ite
    | apply KeepsP.ite | (fail_if_no_progress apply Keeps.upd) | apply KeepsP.keeps
    | (extract_lets +onlyGivenNames -underBinder x; first | (refine Keeps.cut (s := x) (r := r) ?_ ?_; rotate_left; clear_value x; revert x; intro _ _; rotate_left; dsimp -zeta -iota -proj only [x]; clear x) | (clear_value x; revert x; intro _))
    | split | refine KeepsP.of_eq ?_ (by assumption) | apply KeepsP.pair

theorem Keeps.writeCw {s cw w} (h : Keeps r s) : Keeps r (State.writeCw s cw w) := by
  generalize hf : @State.writeCw = f; delta State.writeCw at hf; subst hf; beta_reduce
  with_reducible repeat' first
    | assumption | apply Keeps.putHbm | apply Keeps.modGroup | (fail_if_no_progress apply Keeps.upd)

theorem Keeps.readCws {s agent key x1 x2} (h : Keeps r s) : KeepsP r (State.readCws s agent key x1 x2) := by
  induction x2 generalizing s x1 with
  | zero =>
    unfold State.readCws
    with_reducible repeat' first
      | assumption | apply Keeps.readCw | (fail_if_no_progress apply Keeps.upd) | apply KeepsP.keeps
      | (extract_lets +onlyGivenNames -underBinder x; clear_value x; revert x; intro _) | split
      | refine KeepsP.of_eq ?_ (by assumption) | apply KeepsP.pair
  | succ n ih =>
    unfold State.readCws
    with_reducible repeat' first
      | assumption | apply ih | apply Keeps.readCw | (fail_if_no_progress apply Keeps.upd) | apply KeepsP.keeps
      | (extract_lets +onlyGivenNames -underBinder x; clear_value x; revert x; intro _) | split
      | refine KeepsP.of_eq ?_ (by assumption) | apply KeepsP.pair

theorem Keeps.readHbmBytes {s agent key a n} (h : Keeps r s) : KeepsP r (State.readHbmBytes s agent key a n) := by
  generalize hf : @State.readHbmBytes = f; delta State.readHbmBytes at hf; subst hf; beta_reduce
  with_reducible repeat' first
    | assumption | apply Keeps.readCws | apply KeepsP.keeps
    | (extract_lets +onlyGivenNames -underBinder x; clear_value x; revert x; intro _) | split
    | refine KeepsP.of_eq ?_ (by assumption) | apply KeepsP.pair

theorem Keeps.writeCwPart {s agent key cw o d} (h : Keeps r s) : KeepsP r (State.writeCwPart s agent key cw o d) := by
  generalize hf : @State.writeCwPart = f; delta State.writeCwPart at hf; subst hf; beta_reduce
  with_reducible repeat' first
    | assumption | apply Keeps.writeCw | apply Keeps.readCw | apply KeepsP.ite | (fail_if_no_progress apply Keeps.upd)
    | split | refine KeepsP.of_eq ?_ (by assumption) | apply KeepsP.pair

theorem Keeps.writeHbmBytes {s agent key x1 x2 x3} (h : Keeps r s) :
    KeepsP r (State.writeHbmBytes s agent key x1 x2 x3) := by
  induction x1 generalizing s x2 x3 with
  | zero =>
    unfold State.writeHbmBytes
    with_reducible repeat' first
      | assumption | apply Keeps.writeCwPart | (fail_if_no_progress apply Keeps.upd) | apply KeepsP.keeps
      | (extract_lets +onlyGivenNames -underBinder x; clear_value x; revert x; intro _) | split
      | refine KeepsP.of_eq ?_ (by assumption) | apply KeepsP.pair
  | succ n ih =>
    unfold State.writeHbmBytes
    with_reducible repeat' first
      | assumption | apply ih | apply Keeps.writeCwPart | (fail_if_no_progress apply Keeps.upd) | apply KeepsP.keeps
      | (extract_lets +onlyGivenNames -underBinder x; clear_value x; revert x; intro _) | split
      | refine KeepsP.of_eq ?_ (by assumption) | apply KeepsP.pair

theorem Keeps.clearStack {r s : State} {st : Nat} (h : Keeps r s) : Keeps r (s.clearStack st) := by
  unfold State.clearStack
  apply Keeps.modGroup
  apply Keeps.modGroup
  exact Keeps.updMem h fun x => Tab.wf_filter x _

/-! ### PhysOps -/

theorem Keeps.physRead {s agent key p a n} (h : Keeps r s) : KeepsP r (State.physRead s agent key p a n) := by
  generalize hf : @State.physRead = f; delta State.physRead at hf; subst hf; beta_reduce
  with_reducible repeat' first
    | assumption | apply Keeps.readSramBytes | apply Keeps.activity | apply Keeps.readHbmBytes
    | (fail_if_no_progress apply Keeps.upd) | apply KeepsP.keeps
    | (extract_lets +onlyGivenNames -underBinder x; clear_value x; revert x; intro _) | split
    | refine KeepsP.of_eq ?_ (by assumption) | apply KeepsP.pair

theorem Keeps.physWrite {s agent key p a d} (h : Keeps r s) : KeepsP r (State.physWrite s agent key p a d) := by
  generalize hf : @State.physWrite = f; delta State.physWrite at hf; subst hf; beta_reduce
  with_reducible repeat' first
    | assumption | apply Keeps.writeSramBytes | apply Keeps.activity | apply Keeps.writeHbmBytes | apply Keeps.ite
    | apply KeepsP.ite | (fail_if_no_progress apply Keeps.upd) | apply KeepsP.keeps
    | (extract_lets +onlyGivenNames -underBinder x; clear_value x; revert x; intro _) | split
    | refine KeepsP.of_eq ?_ (by assumption) | apply KeepsP.pair

theorem Keeps.gateBytes {s g cls n p} (h : Keeps r s) : Keeps r (State.gateBytes s g cls n p) := by
  generalize hf : @State.gateBytes = f; delta State.gateBytes at hf; subst hf; beta_reduce
  with_reducible repeat' first
    | assumption | apply Keeps.activity | apply Keeps.modGroup | (fail_if_no_progress apply Keeps.upd)

theorem Keeps.wakeStack {s st} (h : Keeps r s) : Keeps r (State.wakeStack s st) := by
  generalize hf : @State.wakeStack = f; delta State.wakeStack at hf; subst hf; beta_reduce
  with_reducible repeat' first
    | assumption | apply Keeps.reqDom | apply Keeps.ite

/-! ### GateOps -/

theorem Keeps.modReq {s id f} (h : Keeps r s) : Keeps r (State.modReq s id f) := by
  generalize hf : @State.modReq = f; delta State.modReq at hf; subst hf; beta_reduce
  with_reducible repeat' first
    | assumption | apply Keeps.ite | (fail_if_no_progress apply Keeps.upd)

theorem Keeps.dropReq {s id} (h : Keeps r s) : Keeps r (State.dropReq s id) := by
  generalize hf : @State.dropReq = f; delta State.dropReq at hf; subst hf; beta_reduce
  with_reducible repeat' first
    | assumption | (fail_if_no_progress apply Keeps.upd)

theorem Keeps.addReq {s r'} (h : Keeps r s) : KeepsP r (State.addReq s r') := by
  generalize hf : @State.addReq = f; delta State.addReq at hf; subst hf; beta_reduce
  with_reducible repeat' first
    | assumption | (fail_if_no_progress apply Keeps.upd) | apply KeepsP.pair

theorem Keeps.modCircuit {s x f} (h : Keeps r s) : Keeps r (State.modCircuit s x f) := by
  generalize hf : @State.modCircuit = f; delta State.modCircuit at hf; subst hf; beta_reduce
  with_reducible repeat' first
    | assumption 
    | apply Keeps.ite | (fail_if_no_progress apply Keeps.upd)
    | (extract_lets +onlyGivenNames -underBinder x; first | (refine Keeps.cut (s := x) (r := r) ?_ ?_; rotate_left; clear_value x; revert x; intro _ _; rotate_left; dsimp -zeta -iota -proj only [x]; clear x) | (clear_value x; revert x; intro _))
    | split | exact KeepsP.keeps (p := (_, _)) (by assumption) | refine KeepsP.of_eq ?_ (by assumption)

theorem Keeps.oweCredit {s x} (h : Keeps r s) : Keeps r (State.oweCredit s x) := by
  generalize hf : @State.oweCredit = f; delta State.oweCredit at hf; subst hf; beta_reduce
  with_reducible repeat' first
    | assumption | apply Keeps.modCircuit
    | apply Keeps.ite | (fail_if_no_progress apply Keeps.upd)
    | (extract_lets +onlyGivenNames -underBinder x; first | (refine Keeps.cut (s := x) (r := r) ?_ ?_; rotate_left; clear_value x; revert x; intro _ _; rotate_left; dsimp -zeta -iota -proj only [x]; clear x) | (clear_value x; revert x; intro _))
    | split | exact KeepsP.keeps (p := (_, _)) (by assumption) | refine KeepsP.of_eq ?_ (by assumption)

theorem Keeps.refKey {s r' up} (h : Keeps r s) : Keeps r (State.refKey s r' up) := by
  generalize hf : @State.refKey = f; delta State.refKey at hf; subst hf; beta_reduce
  with_reducible repeat' first
    | assumption | apply Keeps.modKeySlot | apply Keeps.ite | (fail_if_no_progress apply Keeps.upd)
    | (extract_lets +onlyGivenNames -underBinder x; clear_value x; revert x; intro _) | split
    | refine KeepsP.of_eq ?_ (by assumption)

theorem Keeps.settle {s id res} (h : Keeps r s) : Keeps r (State.settle s id res) := by
  generalize hf : @State.settle = f; delta State.settle at hf; subst hf; beta_reduce
  with_reducible repeat' first
    | assumption | apply Keeps.refKey | apply Keeps.modReq | (fail_if_no_progress apply Keeps.upd)
    | (extract_lets +onlyGivenNames -underBinder x; first | (refine Keeps.cut (s := x) (r := r) ?_ ?_; rotate_left; clear_value x; revert x; intro _ _; rotate_left; dsimp -zeta -iota -proj only [x]; clear x) | (clear_value x; revert x; intro _))
    | split | refine KeepsP.of_eq ?_ (by assumption)

theorem Keeps.sendVec {s c b id res} (h : Keeps r s) : Keeps r (State.sendVec s c b id res) := by
  generalize hf : @State.sendVec = f; delta State.sendVec at hf; subst hf; beta_reduce
  with_reducible repeat' first
    | assumption 
    | apply Keeps.ite | (fail_if_no_progress apply Keeps.upd)
    | (refine Keeps.foldl ?_ ?_ _; rotate_left; intros; beta_reduce)
    | (refine KeepsP.foldl ?_ ?_ _; rotate_left; intros; beta_reduce)
    | apply KeepsP.keeps
    | (extract_lets +onlyGivenNames -underBinder x; first | (refine Keeps.cut (s := x) (r := r) ?_ ?_; rotate_left; clear_value x; revert x; intro _ _; rotate_left; dsimp -zeta -iota -proj only [x]; clear x) | (clear_value x; revert x; intro _))
    | split | exact KeepsP.keeps (p := (_, _)) (by assumption) | refine KeepsP.of_eq ?_ (by assumption)

theorem Keeps.gateReq {s g id} (h : Keeps r s) : Keeps r (State.gateReq s g id) := by
  generalize hf : @State.gateReq = f; delta State.gateReq at hf; subst hf; beta_reduce
  with_reducible repeat' first
    | assumption | apply Keeps.modGroup
    | apply Keeps.ite | (fail_if_no_progress apply Keeps.upd)
    | (extract_lets +onlyGivenNames -underBinder x; first | (refine Keeps.cut (s := x) (r := r) ?_ ?_; rotate_left; clear_value x; revert x; intro _ _; rotate_left; dsimp -zeta -iota -proj only [x]; clear x) | (clear_value x; revert x; intro _))
    | split | exact KeepsP.keeps (p := (_, _)) (by assumption) | refine KeepsP.of_eq ?_ (by assumption)

theorem Keeps.dequeue {s g q} (h : Keeps r s) : Keeps r (State.dequeue s g q) := by
  generalize hf : @State.dequeue = f; delta State.dequeue at hf; subst hf; beta_reduce
  with_reducible repeat' first
    | assumption | apply Keeps.modGroup | apply Keeps.oweCredit
    | apply Keeps.ite | (fail_if_no_progress apply Keeps.upd)
    | (refine Keeps.foldl ?_ ?_ _; rotate_left; intros; beta_reduce)
    | (refine KeepsP.foldl ?_ ?_ _; rotate_left; intros; beta_reduce)
    | apply KeepsP.keeps
    | (extract_lets +onlyGivenNames -underBinder x; first | (refine Keeps.cut (s := x) (r := r) ?_ ?_; rotate_left; clear_value x; revert x; intro _ _; rotate_left; dsimp -zeta -iota -proj only [x]; clear x) | (clear_value x; revert x; intro _))
    | split | exact KeepsP.keeps (p := (_, _)) (by assumption) | refine KeepsP.of_eq ?_ (by assumption)

theorem Keeps.countUnkeyed {s r'} (h : Keeps r s) : Keeps r (State.countUnkeyed s r') := by
  generalize hf : @State.countUnkeyed = f; delta State.countUnkeyed at hf; subst hf; beta_reduce
  with_reducible repeat' first
    | assumption | apply Keeps.modKeySlot | apply Keeps.ite | (fail_if_no_progress apply Keeps.upd) | split
    | refine KeepsP.of_eq ?_ (by assumption)

theorem Keeps.accessNow {r : State} {s : State} {r' : Req} {a : Nat} (h : Keeps r s) :
    KeepsP r (State.accessNow s r' a) := by
  generalize hf : @State.accessNow = f; delta State.accessNow at hf; subst hf; beta_reduce
  repeat' (first | with_reducible assumption  | with_reducible apply Keeps.physWrite | with_reducible apply Keeps.physRead | with_reducible apply Keeps.ite | with_reducible apply KeepsP.ite | fail_if_no_progress with_reducible apply Keeps.upd | with_reducible apply KeepsOut.next | exact trivial | with_reducible apply KeepsDid.done | with_reducible apply KeepsDid.raise | with_reducible apply KeepsDid.stall | (with_reducible refine Keeps.foldl ?_ ?_ _; rotate_left; intros; beta_reduce) | (with_reducible refine KeepsP.foldl ?_ ?_ _; rotate_left; intros; beta_reduce) | with_reducible apply KeepsP.keeps | (extract_lets +onlyGivenNames -underBinder x; first | (refine Keeps.cut (r := r) (s := x) ?_ ?_; rotate_left; clear_value x; revert x; intro _ _; rotate_left; dsimp -zeta -iota -proj only [x]; clear x) | (refine KeepsP.cut (r := r) (p := x) ?_ ?_; rotate_left; clear_value x; revert x; intro _ _; rotate_left; dsimp -zeta -iota -proj only [x]; clear x) | clear_value x) | split | exact KeepsP.keeps (p := (_, _)) (by assumption) | (refine KeepsP.of_eq ?_ (by assumption)) | dsimp +zetaDelta -zeta -iota -proj only | with_reducible apply KeepsP.pair)

theorem Keeps.accessHbm {s r' a} (h : Keeps r s) : KeepsP r (State.accessHbm s r' a) := by
  generalize hf : @State.accessHbm = f; delta State.accessHbm at hf; subst hf; beta_reduce
  with_reducible repeat' first
    | assumption | apply Keeps.accessNow | apply Keeps.countUnkeyed | apply Keeps.physWrite | apply Keeps.physRead | apply KeepsP.ite
    | (fail_if_no_progress apply Keeps.upd) | split | refine KeepsP.of_eq ?_ (by assumption) | apply KeepsP.pair

theorem Keeps.scaleFloors {s g} (h : Keeps r s) : Keeps r (State.scaleFloors s g) := by
  generalize hf : @State.scaleFloors = f; delta State.scaleFloors at hf; subst hf; beta_reduce
  with_reducible repeat' first
    | assumption | apply Keeps.event | apply Keeps.setGroup | apply Keeps.ite | (fail_if_no_progress apply Keeps.upd)
    | (extract_lets +onlyGivenNames -underBinder x; clear_value x; revert x; intro _)

theorem Keeps.scaleAll {s} (h : Keeps r s) : Keeps r (State.scaleAll s) := by
  generalize hf : @State.scaleAll = f; delta State.scaleAll at hf; subst hf; beta_reduce
  with_reducible repeat' first
    | assumption | apply Keeps.scaleFloors | (refine Keeps.foldl ?_ ?_ _; rotate_left; intros; beta_reduce)

theorem Keeps.countRelease {s g q p} (h : Keeps r s) : Keeps r (State.countRelease s g q p) := by
  generalize hf : @State.countRelease = f; delta State.countRelease at hf; subst hf; beta_reduce
  with_reducible repeat' first
    | assumption | apply Keeps.setGroup | apply Keeps.gateBytes | apply Keeps.event
    | apply Keeps.ite | (fail_if_no_progress apply Keeps.upd)
    | (refine Keeps.foldl ?_ ?_ _; rotate_left; intros; beta_reduce)
    | (refine KeepsP.foldl ?_ ?_ _; rotate_left; intros; beta_reduce)
    | apply KeepsP.keeps
    | (extract_lets +onlyGivenNames -underBinder x; first | (refine Keeps.cut (s := x) (r := r) ?_ ?_; rotate_left; clear_value x; revert x; intro _ _; rotate_left; dsimp -zeta -iota -proj only [x]; clear x) | (clear_value x; revert x; intro _))
    | split | exact KeepsP.keeps (p := (_, _)) (by assumption) | refine KeepsP.of_eq ?_ (by assumption)

theorem Keeps.serveReq {r : State} {s : State} {g : Nat} {x' : Group} {r' : Req} (h : Keeps r s) :
    KeepsP r (State.serveReq s g x' r') := by
  generalize hf : @State.serveReq = f; delta State.serveReq at hf; subst hf; beta_reduce
  repeat' (first | with_reducible assumption  | with_reducible apply Keeps.setGroup | with_reducible apply Keeps.dequeue | with_reducible apply Keeps.countRelease | with_reducible apply Keeps.accessHbm | with_reducible apply Keeps.modGroup | with_reducible apply Keeps.ite | with_reducible apply KeepsP.ite | fail_if_no_progress with_reducible apply Keeps.upd | with_reducible apply KeepsOut.next | exact trivial | with_reducible apply KeepsDid.done | with_reducible apply KeepsDid.raise | with_reducible apply KeepsDid.stall | (with_reducible refine Keeps.foldl ?_ ?_ _; rotate_left; intros; beta_reduce) | (with_reducible refine KeepsP.foldl ?_ ?_ _; rotate_left; intros; beta_reduce) | with_reducible apply KeepsP.keeps | (extract_lets +onlyGivenNames -underBinder x; first | (refine Keeps.cut (r := r) (s := x) ?_ ?_; rotate_left; clear_value x; revert x; intro _ _; rotate_left; dsimp -zeta -iota -proj only [x]; clear x) | (refine KeepsP.cut (r := r) (p := x) ?_ ?_; rotate_left; clear_value x; revert x; intro _ _; rotate_left; dsimp -zeta -iota -proj only [x]; clear x) | clear_value x) | split | exact KeepsP.keeps (p := (_, _)) (by assumption) | (refine KeepsP.of_eq ?_ (by assumption)) | dsimp +zetaDelta -zeta -iota -proj only | with_reducible apply KeepsP.pair)

theorem Keeps.forgetSteps {r : State} {s : State} (h : Keeps r s) :
    Keeps r (State.forgetSteps s) := by
  generalize hf : @State.forgetSteps = f; delta State.forgetSteps at hf; subst hf; beta_reduce
  repeat' (first | with_reducible assumption  | with_reducible apply Keeps.ite | with_reducible apply KeepsP.ite | fail_if_no_progress with_reducible apply Keeps.upd | with_reducible apply KeepsOut.next | exact trivial | with_reducible apply KeepsDid.done | with_reducible apply KeepsDid.raise | with_reducible apply KeepsDid.stall | (with_reducible refine Keeps.foldl ?_ ?_ _; rotate_left; intros; beta_reduce) | (with_reducible refine KeepsP.foldl ?_ ?_ _; rotate_left; intros; beta_reduce) | with_reducible apply KeepsP.keeps | (extract_lets +onlyGivenNames -underBinder x; first | (refine Keeps.cut (r := r) (s := x) ?_ ?_; rotate_left; clear_value x; revert x; intro _ _; rotate_left; dsimp -zeta -iota -proj only [x]; clear x) | (refine KeepsP.cut (r := r) (p := x) ?_ ?_; rotate_left; clear_value x; revert x; intro _ _; rotate_left; dsimp -zeta -iota -proj only [x]; clear x) | clear_value x) | split | exact KeepsP.keeps (p := (_, _)) (by assumption) | (refine KeepsP.of_eq ?_ (by assumption)) | dsimp +zetaDelta -zeta -iota -proj only | with_reducible apply KeepsP.pair)

theorem Keeps.keepSteps {r : State} {s : State} (h : Keeps r s) :
    Keeps r (State.keepSteps s) := by
  generalize hf : @State.keepSteps = f; delta State.keepSteps at hf; subst hf; beta_reduce
  repeat' (first | with_reducible assumption  | with_reducible apply Keeps.ite | with_reducible apply KeepsP.ite | fail_if_no_progress with_reducible apply Keeps.upd | with_reducible apply KeepsOut.next | exact trivial | with_reducible apply KeepsDid.done | with_reducible apply KeepsDid.raise | with_reducible apply KeepsDid.stall | (with_reducible refine Keeps.foldl ?_ ?_ _; rotate_left; intros; beta_reduce) | (with_reducible refine KeepsP.foldl ?_ ?_ _; rotate_left; intros; beta_reduce) | with_reducible apply KeepsP.keeps | (extract_lets +onlyGivenNames -underBinder x; first | (refine Keeps.cut (r := r) (s := x) ?_ ?_; rotate_left; clear_value x; revert x; intro _ _; rotate_left; dsimp -zeta -iota -proj only [x]; clear x) | (refine KeepsP.cut (r := r) (p := x) ?_ ?_; rotate_left; clear_value x; revert x; intro _ _; rotate_left; dsimp -zeta -iota -proj only [x]; clear x) | clear_value x) | split | exact KeepsP.keeps (p := (_, _)) (by assumption) | (refine KeepsP.of_eq ?_ (by assumption)) | dsimp +zetaDelta -zeta -iota -proj only | with_reducible apply KeepsP.pair)

theorem Keeps.walkDone {r : State} {s : State} {x' : Requester} (h : Keeps r s) :
    Keeps r (State.walkDone s x') := by
  generalize hf : @State.walkDone = f; delta State.walkDone at hf; subst hf; beta_reduce
  repeat' (first | with_reducible assumption  | with_reducible apply Keeps.ite | with_reducible apply KeepsP.ite | fail_if_no_progress with_reducible apply Keeps.upd | with_reducible apply KeepsOut.next | exact trivial | with_reducible apply KeepsDid.done | with_reducible apply KeepsDid.raise | with_reducible apply KeepsDid.stall | (with_reducible refine Keeps.foldl ?_ ?_ _; rotate_left; intros; beta_reduce) | (with_reducible refine KeepsP.foldl ?_ ?_ _; rotate_left; intros; beta_reduce) | with_reducible apply KeepsP.keeps | (extract_lets +onlyGivenNames -underBinder x; first | (refine Keeps.cut (r := r) (s := x) ?_ ?_; rotate_left; clear_value x; revert x; intro _ _; rotate_left; dsimp -zeta -iota -proj only [x]; clear x) | (refine KeepsP.cut (r := r) (p := x) ?_ ?_; rotate_left; clear_value x; revert x; intro _ _; rotate_left; dsimp -zeta -iota -proj only [x]; clear x) | clear_value x) | split | exact KeepsP.keeps (p := (_, _)) (by assumption) | (refine KeepsP.of_eq ?_ (by assumption)) | dsimp +zetaDelta -zeta -iota -proj only | with_reducible apply KeepsP.pair)

theorem Keeps.takeStep {r : State} {s : State} {id : Nat} {res : ReqResult} (h : Keeps r s) :
    KeepsP r (State.takeStep s id res) := by
  generalize hf : @State.takeStep = f; delta State.takeStep at hf; subst hf; beta_reduce
  repeat' (first | with_reducible assumption  | with_reducible apply Keeps.settle | with_reducible apply Keeps.modReq | with_reducible apply Keeps.ite | with_reducible apply KeepsP.ite | fail_if_no_progress with_reducible apply Keeps.upd | with_reducible apply KeepsOut.next | exact trivial | with_reducible apply KeepsDid.done | with_reducible apply KeepsDid.raise | with_reducible apply KeepsDid.stall | (with_reducible refine Keeps.foldl ?_ ?_ _; rotate_left; intros; beta_reduce) | (with_reducible refine KeepsP.foldl ?_ ?_ _; rotate_left; intros; beta_reduce) | with_reducible apply KeepsP.keeps | (extract_lets +onlyGivenNames -underBinder x; first | (refine Keeps.cut (r := r) (s := x) ?_ ?_; rotate_left; clear_value x; revert x; intro _ _; rotate_left; dsimp -zeta -iota -proj only [x]; clear x) | (refine KeepsP.cut (r := r) (p := x) ?_ ?_; rotate_left; clear_value x; revert x; intro _ _; rotate_left; dsimp -zeta -iota -proj only [x]; clear x) | clear_value x) | split | exact KeepsP.keeps (p := (_, _)) (by assumption) | (refine KeepsP.of_eq ?_ (by assumption)) | dsimp +zetaDelta -zeta -iota -proj only | with_reducible apply KeepsP.pair)

theorem Keeps.tryStep {r : State} {s : State} {g : Nat} {r' : Req} (h : Keeps r s) :
    KeepsP r (State.tryStep s g r') := by
  generalize hf : @State.tryStep = f; delta State.tryStep at hf; subst hf; beta_reduce
  repeat' (first | with_reducible assumption  | with_reducible apply Keeps.serveReq | with_reducible apply Keeps.takeStep | with_reducible apply Keeps.ite | with_reducible apply KeepsP.ite | fail_if_no_progress with_reducible apply Keeps.upd | with_reducible apply KeepsOut.next | exact trivial | with_reducible apply KeepsDid.done | with_reducible apply KeepsDid.raise | with_reducible apply KeepsDid.stall | (with_reducible refine Keeps.foldl ?_ ?_ _; rotate_left; intros; beta_reduce) | (with_reducible refine KeepsP.foldl ?_ ?_ _; rotate_left; intros; beta_reduce) | with_reducible apply KeepsP.keeps | (extract_lets +onlyGivenNames -underBinder x; first | (refine Keeps.cut (r := r) (s := x) ?_ ?_; rotate_left; clear_value x; revert x; intro _ _; rotate_left; dsimp -zeta -iota -proj only [x]; clear x) | (refine KeepsP.cut (r := r) (p := x) ?_ ?_; rotate_left; clear_value x; revert x; intro _ _; rotate_left; dsimp -zeta -iota -proj only [x]; clear x) | clear_value x) | split | exact KeepsP.keeps (p := (_, _)) (by assumption) | (refine KeepsP.of_eq ?_ (by assumption)) | dsimp +zetaDelta -zeta -iota -proj only | with_reducible apply KeepsP.pair)

theorem Keeps.newStep {r : State} {s : State} {r' : Req} {a : Nat} {x' : Option CircRef} (h : Keeps r s) :
    KeepsP r (State.newStep s r' a x') := by
  generalize hf : @State.newStep = f; delta State.newStep at hf; subst hf; beta_reduce
  repeat' (first | with_reducible assumption  | with_reducible apply Keeps.addReq | with_reducible apply Keeps.refKey | with_reducible apply Keeps.sendVec | with_reducible apply Keeps.gateReq | with_reducible apply Keeps.wakeStack | with_reducible apply Keeps.tryStep | with_reducible apply Keeps.accessNow | with_reducible apply Keeps.takeStep | with_reducible apply Keeps.ite | with_reducible apply KeepsP.ite | fail_if_no_progress with_reducible apply Keeps.upd | with_reducible apply KeepsOut.next | exact trivial | with_reducible apply KeepsDid.done | with_reducible apply KeepsDid.raise | with_reducible apply KeepsDid.stall | (with_reducible refine Keeps.foldl ?_ ?_ _; rotate_left; intros; beta_reduce) | (with_reducible refine KeepsP.foldl ?_ ?_ _; rotate_left; intros; beta_reduce) | with_reducible apply KeepsP.keeps | (extract_lets +onlyGivenNames -underBinder x; first | (refine Keeps.cut (r := r) (s := x) ?_ ?_; rotate_left; clear_value x; revert x; intro _ _; rotate_left; dsimp -zeta -iota -proj only [x]; clear x) | (refine KeepsP.cut (r := r) (p := x) ?_ ?_; rotate_left; clear_value x; revert x; intro _ _; rotate_left; dsimp -zeta -iota -proj only [x]; clear x) | clear_value x) | split | exact KeepsP.keeps (p := (_, _)) (by assumption) | (refine KeepsP.of_eq ?_ (by assumption)) | dsimp +zetaDelta -zeta -iota -proj only | with_reducible apply KeepsP.pair)

theorem Keeps.orKeep {r : State} {x : Option ReqResult × State} (h : KeepsP r x) : KeepsP r (orKeep x) := by
  obtain ⟨v, s⟩ := x
  cases v with
  | none => exact KeepsP.pair (Keeps.keepSteps h.keeps)
  | some _ => exact h

theorem Keeps.stepAccess {r : State} {s : State} {r' : Req} {a : Nat} {x' : Option CircRef} (h : Keeps r s) :
    KeepsP r (State.stepAccess s r' a x') := by
  generalize hf : @State.stepAccess = f; delta State.stepAccess at hf; subst hf; beta_reduce
  repeat' (first | with_reducible assumption  | with_reducible apply Keeps.modReq | with_reducible apply Keeps.orKeep | with_reducible apply Keeps.tryStep | with_reducible apply Keeps.keepSteps | with_reducible apply Keeps.newStep | with_reducible apply Keeps.ite | with_reducible apply KeepsP.ite | fail_if_no_progress with_reducible apply Keeps.upd | with_reducible apply KeepsOut.next | exact trivial | with_reducible apply KeepsDid.done | with_reducible apply KeepsDid.raise | with_reducible apply KeepsDid.stall | (with_reducible refine Keeps.foldl ?_ ?_ _; rotate_left; intros; beta_reduce) | (with_reducible refine KeepsP.foldl ?_ ?_ _; rotate_left; intros; beta_reduce) | with_reducible apply KeepsP.keeps | (extract_lets +onlyGivenNames -underBinder x; first | (refine Keeps.cut (r := r) (s := x) ?_ ?_; rotate_left; clear_value x; revert x; intro _ _; rotate_left; dsimp -zeta -iota -proj only [x]; clear x) | (refine KeepsP.cut (r := r) (p := x) ?_ ?_; rotate_left; clear_value x; revert x; intro _ _; rotate_left; dsimp -zeta -iota -proj only [x]; clear x) | clear_value x) | split | exact KeepsP.keeps (p := (_, _)) (by assumption) | (refine KeepsP.of_eq ?_ (by assumption)) | dsimp +zetaDelta -zeta -iota -proj only | with_reducible apply KeepsP.pair)

theorem Keeps.ownReads {r : State} {p : Payer} {x1 : List (Nat × Nat)} {x2 : State} (h : Keeps r x2) :
    KeepsP r (State.ownReads p x1 x2) := by
  induction x1 generalizing x2 with
  | nil =>
    unfold State.ownReads
    repeat' (first | with_reducible assumption  | with_reducible apply Keeps.stepAccess | with_reducible apply Keeps.ite | with_reducible apply KeepsP.ite | fail_if_no_progress with_reducible apply Keeps.upd | with_reducible apply KeepsOut.next | exact trivial | with_reducible apply KeepsDid.done | with_reducible apply KeepsDid.raise | with_reducible apply KeepsDid.stall | (with_reducible refine Keeps.foldl ?_ ?_ _; rotate_left; intros; beta_reduce) | (with_reducible refine KeepsP.foldl ?_ ?_ _; rotate_left; intros; beta_reduce) | with_reducible apply KeepsP.keeps | (extract_lets +onlyGivenNames -underBinder x; first | (refine Keeps.cut (r := r) (s := x) ?_ ?_; rotate_left; clear_value x; revert x; intro _ _; rotate_left; dsimp -zeta -iota -proj only [x]; clear x) | (refine KeepsP.cut (r := r) (p := x) ?_ ?_; rotate_left; clear_value x; revert x; intro _ _; rotate_left; dsimp -zeta -iota -proj only [x]; clear x) | clear_value x) | split | exact KeepsP.keeps (p := (_, _)) (by assumption) | (refine KeepsP.of_eq ?_ (by assumption)) | dsimp +zetaDelta -zeta -iota -proj only | with_reducible apply KeepsP.pair)
  | cons e t ih =>
    unfold State.ownReads
    repeat' (first | with_reducible assumption  | with_reducible apply ih | with_reducible apply Keeps.stepAccess | with_reducible apply Keeps.ite | with_reducible apply KeepsP.ite | fail_if_no_progress with_reducible apply Keeps.upd | with_reducible apply KeepsOut.next | exact trivial | with_reducible apply KeepsDid.done | with_reducible apply KeepsDid.raise | with_reducible apply KeepsDid.stall | (with_reducible refine Keeps.foldl ?_ ?_ _; rotate_left; intros; beta_reduce) | (with_reducible refine KeepsP.foldl ?_ ?_ _; rotate_left; intros; beta_reduce) | with_reducible apply KeepsP.keeps | (extract_lets +onlyGivenNames -underBinder x; first | (refine Keeps.cut (r := r) (s := x) ?_ ?_; rotate_left; clear_value x; revert x; intro _ _; rotate_left; dsimp -zeta -iota -proj only [x]; clear x) | (refine KeepsP.cut (r := r) (p := x) ?_ ?_; rotate_left; clear_value x; revert x; intro _ _; rotate_left; dsimp -zeta -iota -proj only [x]; clear x) | clear_value x) | split | exact KeepsP.keeps (p := (_, _)) (by assumption) | (refine KeepsP.of_eq ?_ (by assumption)) | dsimp +zetaDelta -zeta -iota -proj only | with_reducible apply KeepsP.pair)

theorem Keeps.ownRead {s p a n} (h : Keeps r s) : KeepsP r (State.ownRead s p a n) := by
  generalize hf : @State.ownRead = f; delta State.ownRead at hf; subst hf; beta_reduce
  with_reducible repeat' first
    | assumption | apply Keeps.ownReads | apply Keeps.physRead
    | apply Keeps.ite | apply KeepsP.ite | (fail_if_no_progress apply Keeps.upd)
    | (refine Keeps.foldl ?_ ?_ _; rotate_left; intros; beta_reduce)
    | (refine KeepsP.foldl ?_ ?_ _; rotate_left; intros; beta_reduce)
    | apply KeepsP.keeps
    | (extract_lets +onlyGivenNames -underBinder x; first | (refine Keeps.cut (s := x) (r := r) ?_ ?_; rotate_left; clear_value x; revert x; intro _ _; rotate_left; dsimp -zeta -iota -proj only [x]; clear x) | (clear_value x; revert x; intro _))
    | split | exact KeepsP.keeps (p := (_, _)) (by assumption) | refine KeepsP.of_eq ?_ (by assumption) | apply KeepsP.pair

theorem Keeps.dropSteps {r : State} {s : State} {a : Nat} {n : Nat} (h : Keeps r s) :
    Keeps r (State.dropSteps s a n) := by
  generalize hf : @State.dropSteps = f; delta State.dropSteps at hf; subst hf; beta_reduce
  repeat' (first | with_reducible assumption  | with_reducible apply Keeps.ite | with_reducible apply KeepsP.ite | fail_if_no_progress with_reducible apply Keeps.upd | with_reducible apply KeepsOut.next | exact trivial | with_reducible apply KeepsDid.done | with_reducible apply KeepsDid.raise | with_reducible apply KeepsDid.stall | (with_reducible refine Keeps.foldl ?_ ?_ _; rotate_left; intros; beta_reduce) | (with_reducible refine KeepsP.foldl ?_ ?_ _; rotate_left; intros; beta_reduce) | with_reducible apply KeepsP.keeps | (extract_lets +onlyGivenNames -underBinder x; first | (refine Keeps.cut (r := r) (s := x) ?_ ?_; rotate_left; clear_value x; revert x; intro _ _; rotate_left; dsimp -zeta -iota -proj only [x]; clear x) | (refine KeepsP.cut (r := r) (p := x) ?_ ?_; rotate_left; clear_value x; revert x; intro _ _; rotate_left; dsimp -zeta -iota -proj only [x]; clear x) | clear_value x) | split | exact KeepsP.keeps (p := (_, _)) (by assumption) | (refine KeepsP.of_eq ?_ (by assumption)) | dsimp +zetaDelta -zeta -iota -proj only | with_reducible apply KeepsP.pair)

theorem Keeps.ownPut {r : State} {s : State} {a : Nat} {d : Bytes} (h : Keeps r s) :
    Keeps r (State.ownPut s a d) := by
  generalize hf : @State.ownPut = f; delta State.ownPut at hf; subst hf; beta_reduce
  repeat' (first | with_reducible assumption  | with_reducible apply Keeps.dropSteps | with_reducible apply Keeps.addReq | with_reducible apply Keeps.gateReq | with_reducible apply Keeps.wakeStack | with_reducible apply Keeps.tryStep | with_reducible apply Keeps.dropReq | with_reducible apply Keeps.accessNow | with_reducible apply Keeps.ite | with_reducible apply KeepsP.ite | fail_if_no_progress with_reducible apply Keeps.upd | with_reducible apply KeepsOut.next | exact trivial | with_reducible apply KeepsDid.done | with_reducible apply KeepsDid.raise | with_reducible apply KeepsDid.stall | (with_reducible refine Keeps.foldl ?_ ?_ _; rotate_left; intros; beta_reduce) | (with_reducible refine KeepsP.foldl ?_ ?_ _; rotate_left; intros; beta_reduce) | with_reducible apply KeepsP.keeps | (extract_lets +onlyGivenNames -underBinder x; first | (refine Keeps.cut (r := r) (s := x) ?_ ?_; rotate_left; clear_value x; revert x; intro _ _; rotate_left; dsimp -zeta -iota -proj only [x]; clear x) | (refine KeepsP.cut (r := r) (p := x) ?_ ?_; rotate_left; clear_value x; revert x; intro _ _; rotate_left; dsimp -zeta -iota -proj only [x]; clear x) | clear_value x) | split | exact KeepsP.keeps (p := (_, _)) (by assumption) | (refine KeepsP.of_eq ?_ (by assumption)) | dsimp +zetaDelta -zeta -iota -proj only | with_reducible apply KeepsP.pair)

theorem Keeps.ownWrite {s a d} (h : Keeps r s) : Keeps r (State.ownWrite s a d) := by
  generalize hf : @State.ownWrite = f; delta State.ownWrite at hf; subst hf; beta_reduce
  with_reducible repeat' first
    | assumption | apply Keeps.ownPut | apply Keeps.physWrite
    | apply Keeps.ite | (fail_if_no_progress apply Keeps.upd)
    | (refine Keeps.foldl ?_ ?_ _; rotate_left; intros; beta_reduce)
    | (refine KeepsP.foldl ?_ ?_ _; rotate_left; intros; beta_reduce)
    | apply KeepsP.keeps
    | (extract_lets +onlyGivenNames -underBinder x; first | (refine Keeps.cut (s := x) (r := r) ?_ ?_; rotate_left; clear_value x; revert x; intro _ _; rotate_left; dsimp -zeta -iota -proj only [x]; clear x) | (clear_value x; revert x; intro _))
    | split | exact KeepsP.keeps (p := (_, _)) (by assumption) | refine KeepsP.of_eq ?_ (by assumption)

/-! ### FenceOps -/

theorem Keeps.readContext {r : State} {s : State} {asid : Nat} (h : Keeps r s) :
    KeepsP r (State.readContext s asid) := by
  generalize hf : @State.readContext = f; delta State.readContext at hf; subst hf; beta_reduce
  repeat' (first | with_reducible assumption  | with_reducible apply Keeps.ownRead | with_reducible apply Keeps.ite | with_reducible apply KeepsP.ite | fail_if_no_progress with_reducible apply Keeps.upd | with_reducible apply KeepsOut.next | exact trivial | with_reducible apply KeepsDid.done | with_reducible apply KeepsDid.raise | with_reducible apply KeepsDid.stall | (with_reducible refine Keeps.foldl ?_ ?_ _; rotate_left; intros; beta_reduce) | (with_reducible refine KeepsP.foldl ?_ ?_ _; rotate_left; intros; beta_reduce) | with_reducible apply KeepsP.keeps | (extract_lets +onlyGivenNames -underBinder x; first | (refine Keeps.cut (r := r) (s := x) ?_ ?_; rotate_left; clear_value x; revert x; intro _ _; rotate_left; dsimp -zeta -iota -proj only [x]; clear x) | (refine KeepsP.cut (r := r) (p := x) ?_ ?_; rotate_left; clear_value x; revert x; intro _ _; rotate_left; dsimp -zeta -iota -proj only [x]; clear x) | clear_value x) | split | exact KeepsP.keeps (p := (_, _)) (by assumption) | (refine KeepsP.of_eq ?_ (by assumption)) | dsimp +zetaDelta -zeta -iota -proj only | with_reducible apply KeepsP.pair)

theorem Keeps.fenceMsg {s b op f w} (h : Keeps r s) : Keeps r (State.fenceMsg s b op f w) := by
  generalize hf : @State.fenceMsg = f; delta State.fenceMsg at hf; subst hf; beta_reduce
  with_reducible repeat' first
    | assumption | apply Keeps.lanCarry
    | apply Keeps.ite | (fail_if_no_progress apply Keeps.upd)
    | (extract_lets +onlyGivenNames -underBinder x; first | (refine Keeps.cut (s := x) (r := r) ?_ ?_; rotate_left; clear_value x; revert x; intro _ _; rotate_left; dsimp -zeta -iota -proj only [x]; clear x) | (clear_value x; revert x; intro _))
    | split | exact KeepsP.keeps (p := (_, _)) (by assumption) | refine KeepsP.of_eq ?_ (by assumption)

theorem Keeps.notifyWaits {s f inc w} (h : Keeps r s) : Keeps r (State.notifyWaits s f inc w) := by
  generalize hf : @State.notifyWaits = f; delta State.notifyWaits at hf; subst hf; beta_reduce
  with_reducible repeat' first
    | assumption | apply Keeps.lanCarry
    | apply Keeps.ite | (fail_if_no_progress apply Keeps.upd)
    | (refine Keeps.foldl ?_ ?_ _; rotate_left; intros; beta_reduce)
    | (refine KeepsP.foldl ?_ ?_ _; rotate_left; intros; beta_reduce)
    | (extract_lets +onlyGivenNames -underBinder x; first | (refine Keeps.cut (s := x) (r := r) ?_ ?_; rotate_left; clear_value x; revert x; intro _ _; rotate_left; dsimp -zeta -iota -proj only [x]; clear x) | (clear_value x; revert x; intro _))
    | split | exact KeepsP.keeps (p := (_, _)) (by assumption) | refine KeepsP.of_eq ?_ (by assumption)

theorem Keeps.fenceSet {s f x' w} (h : Keeps r s) : Keeps r (State.fenceSet s f x' w) := by
  generalize hf : @State.fenceSet = f; delta State.fenceSet at hf; subst hf; beta_reduce
  with_reducible repeat' first
    | assumption | apply Keeps.notifyWaits | apply Keeps.setFence | apply Keeps.hostWrite | apply Keeps.irq | apply Keeps.ite
    | (fail_if_no_progress apply Keeps.upd)
    | (extract_lets +onlyGivenNames -underBinder x; first | (refine Keeps.cut (s := x) (r := r) ?_ ?_; rotate_left; clear_value x; revert x; intro _ _; rotate_left; dsimp -zeta -iota -proj only [x]; clear x) | (clear_value x; revert x; intro _))

theorem Keeps.breakFence {s f inc code detail} (h : Keeps r s) : Keeps r (State.breakFence s f inc code detail) := by
  generalize hf : @State.breakFence = f; delta State.breakFence at hf; subst hf; beta_reduce
  with_reducible repeat' first
    | assumption | apply Keeps.fenceSet | apply Keeps.ite | (fail_if_no_progress apply Keeps.upd) | split
    | refine KeepsP.of_eq ?_ (by assumption)

theorem Keeps.signalFence {s f inc v fn q seq} (h : Keeps r s) : Keeps r (State.signalFence s f inc v fn q seq) := by
  generalize hf : @State.signalFence = f; delta State.signalFence at hf; subst hf; beta_reduce
  with_reducible repeat' first
    | assumption | apply Keeps.fenceSet | apply Keeps.modFn | apply Keeps.ite | (fail_if_no_progress apply Keeps.upd)
    | (extract_lets +onlyGivenNames -underBinder x; first | (refine Keeps.cut (s := x) (r := r) ?_ ?_; rotate_left; clear_value x; revert x; intro _ _; rotate_left; dsimp -zeta -iota -proj only [x]; clear x) | (clear_value x; revert x; intro _))
    | split | refine KeepsP.of_eq ?_ (by assumption)

theorem Keeps.looseError {s} (h : Keeps r s) : Keeps r (State.looseError s) := by
  generalize hf : @State.looseError = f; delta State.looseError at hf; subst hf; beta_reduce
  with_reducible repeat' first
    | assumption | (fail_if_no_progress apply Keeps.upd)

end Sys2Proof.Machine
end

