-- ==== Sys2Proof/Laws/KeepsBight.lean ====
section
/-! SUPPORT. The operations of commands, power, meshes and slots keep what `Keeps` says. -/

set_option linter.all false

namespace Sys2Proof.Machine

variable {r : State}

/-! ### FenceOps -/

theorem Keeps.breakErrorFence {s b code detail} (h : Keeps r s) :
    Keeps r (State.breakErrorFence s b code detail) := by
  generalize hf : @State.breakErrorFence = f; delta State.breakErrorFence at hf; subst hf; beta_reduce
  with_reducible repeat' first
    | assumption | apply Keeps.looseError | apply Keeps.cause | apply Keeps.breakFence | apply Keeps.ite
    | (fail_if_no_progress apply Keeps.upd)
    | (extract_lets +onlyGivenNames -underBinder x; first | (refine Keeps.cut (s := x) (r := r) ?_ ?_; rotate_left; clear_value x; revert x; intro _ _; rotate_left; dsimp -zeta -iota -proj only [x]; clear x) | (clear_value x; revert x; intro _))
    | split | refine KeepsP.of_eq ?_ (by assumption)

theorem Keeps.breakCmdFence {s b c code detail} (h : Keeps r s) :
    Keeps r (State.breakCmdFence s b c code detail) := by
  generalize hf : @State.breakCmdFence = f; delta State.breakCmdFence at hf; subst hf; beta_reduce
  with_reducible repeat' first
    | assumption | apply Keeps.fenceMsg | apply Keeps.breakFence | apply Keeps.breakErrorFence | (fail_if_no_progress apply Keeps.upd)
    | split | refine KeepsP.of_eq ?_ (by assumption)

theorem Keeps.updateFence {s qn q c} (h : Keeps r s) : Keeps r (State.updateFence s qn q c) := by
  generalize hf : @State.updateFence = f; delta State.updateFence at hf; subst hf; beta_reduce
  with_reducible repeat' first
    | assumption | apply Keeps.fenceMsg | apply Keeps.breakCmdFence | apply Keeps.signalFence | apply Keeps.ite
    | (fail_if_no_progress apply Keeps.upd) | split | refine KeepsP.of_eq ?_ (by assumption)

theorem Keeps.completeCmd {s qn q c} (h : Keeps r s) : Keeps r (State.completeCmd s qn q c) := by
  generalize hf : @State.completeCmd = f; delta State.completeCmd at hf; subst hf; beta_reduce
  with_reducible repeat' first
    | assumption | apply Keeps.updateFence | apply Keeps.hostWrite | apply Keeps.irq | apply Keeps.ite
    | (extract_lets +onlyGivenNames -underBinder x; first | (refine Keeps.cut (s := x) (r := r) ?_ ?_; rotate_left; clear_value x; revert x; intro _ _; rotate_left; dsimp -zeta -iota -proj only [x]; clear x) | (clear_value x; revert x; intro _))

theorem Keeps.drainQueue {x1 x2 x3} (h : Keeps r x2) : Keeps r (State.drainQueue x1 x2 x3) := by
  induction x1 generalizing x2 x3 with
  | zero =>
    unfold State.drainQueue
    with_reducible repeat' first
      | assumption | apply Keeps.updateFence | apply Keeps.completeCmd | apply Keeps.modQueue | apply Keeps.modBight
      | apply Keeps.ite | (fail_if_no_progress apply Keeps.upd)
      | (extract_lets +onlyGivenNames -underBinder x; first | (refine Keeps.cut (s := x) (r := r) ?_ ?_; rotate_left; clear_value x; revert x; intro _ _; rotate_left; dsimp -zeta -iota -proj only [x]; clear x) | (clear_value x; revert x; intro _))
      | split | refine KeepsP.of_eq ?_ (by assumption)
  | succ n ih =>
    unfold State.drainQueue
    with_reducible repeat' first
      | assumption | apply ih | apply Keeps.updateFence | apply Keeps.completeCmd | apply Keeps.modQueue
      | apply Keeps.modBight | apply Keeps.ite | (fail_if_no_progress apply Keeps.upd)
      | (extract_lets +onlyGivenNames -underBinder x; first | (refine Keeps.cut (s := x) (r := r) ?_ ?_; rotate_left; clear_value x; revert x; intro _ _; rotate_left; dsimp -zeta -iota -proj only [x]; clear x) | (clear_value x; revert x; intro _))
      | split | refine KeepsP.of_eq ?_ (by assumption)

theorem Keeps.drain {s qn} (h : Keeps r s) : Keeps r (State.drain s qn) := by
  generalize hf : @State.drain = f; delta State.drain at hf; subst hf; beta_reduce
  with_reducible repeat' first
    | assumption | apply Keeps.drainQueue

/-! ### LinkOps -/

theorem Keeps.owe {s n v len} (h : Keeps r s) : Keeps r (State.owe s n v len) := by
  generalize hf : @State.owe = f; delta State.owe at hf; subst hf; beta_reduce
  with_reducible repeat' first
    | assumption | apply Keeps.modPort | (fail_if_no_progress apply Keeps.upd)

theorem Keeps.sendIdle {s n} (h : Keeps r s) : Keeps r (State.sendIdle s n) := by
  generalize hf : @State.sendIdle = f; delta State.sendIdle at hf; subst hf; beta_reduce
  with_reducible repeat' first
    | assumption | apply Keeps.send | apply Keeps.setPort | apply Keeps.ite
    | (extract_lets +onlyGivenNames -underBinder x; clear_value x; revert x; intro _) | split
    | refine KeepsP.of_eq ?_ (by assumption)

theorem Keeps.sendData {s n payload} (h : Keeps r s) : Keeps r (State.sendData s n payload) := by
  generalize hf : @State.sendData = f; delta State.sendData at hf; subst hf; beta_reduce
  with_reducible repeat' first
    | assumption | apply Keeps.send | apply Keeps.setPort | apply Keeps.ite | (fail_if_no_progress apply Keeps.upd)
    | (extract_lets +onlyGivenNames -underBinder x; clear_value x; revert x; intro _) | split
    | refine KeepsP.of_eq ?_ (by assumption)

theorem Keeps.packBytes {r : State} {s : State} {n : Nat} {b : Bytes} (h : Keeps r s) :
    Keeps r (State.packBytes s n b) := by
  generalize hf : @State.packBytes = f; delta State.packBytes at hf; subst hf; beta_reduce
  repeat' (first | with_reducible assumption  | with_reducible apply Keeps.sendData | with_reducible apply Keeps.modPort | with_reducible apply Keeps.ite | with_reducible apply KeepsP.ite | fail_if_no_progress with_reducible apply Keeps.upd | with_reducible apply KeepsOut.next | exact trivial | with_reducible apply KeepsDid.done | with_reducible apply KeepsDid.raise | with_reducible apply KeepsDid.stall | (with_reducible refine Keeps.foldl ?_ ?_ _; rotate_left; intros; beta_reduce) | (with_reducible refine KeepsP.foldl ?_ ?_ _; rotate_left; intros; beta_reduce) | with_reducible apply KeepsP.keeps | (extract_lets +onlyGivenNames -underBinder x; first | (refine Keeps.cut (r := r) (s := x) ?_ ?_; rotate_left; clear_value x; revert x; intro _ _; rotate_left; dsimp -zeta -iota -proj only [x]; clear x) | (refine KeepsP.cut (r := r) (p := x) ?_ ?_; rotate_left; clear_value x; revert x; intro _ _; rotate_left; dsimp -zeta -iota -proj only [x]; clear x) | clear_value x) | split | exact KeepsP.keeps (p := (_, _)) (by assumption) | (refine KeepsP.of_eq ?_ (by assumption)) | dsimp +zetaDelta -zeta -iota -proj only | with_reducible apply KeepsP.pair)

theorem Keeps.flushFlit {r : State} {s : State} {n : Nat} (h : Keeps r s) :
    Keeps r (State.flushFlit s n) := by
  generalize hf : @State.flushFlit = f; delta State.flushFlit at hf; subst hf; beta_reduce
  repeat' (first | with_reducible assumption  | with_reducible apply Keeps.sendData | with_reducible apply Keeps.modPort | with_reducible apply Keeps.ite | with_reducible apply KeepsP.ite | fail_if_no_progress with_reducible apply Keeps.upd | with_reducible apply KeepsOut.next | exact trivial | with_reducible apply KeepsDid.done | with_reducible apply KeepsDid.raise | with_reducible apply KeepsDid.stall | (with_reducible refine Keeps.foldl ?_ ?_ _; rotate_left; intros; beta_reduce) | (with_reducible refine KeepsP.foldl ?_ ?_ _; rotate_left; intros; beta_reduce) | with_reducible apply KeepsP.keeps | (extract_lets +onlyGivenNames -underBinder x; first | (refine Keeps.cut (r := r) (s := x) ?_ ?_; rotate_left; clear_value x; revert x; intro _ _; rotate_left; dsimp -zeta -iota -proj only [x]; clear x) | (refine KeepsP.cut (r := r) (p := x) ?_ ?_; rotate_left; clear_value x; revert x; intro _ _; rotate_left; dsimp -zeta -iota -proj only [x]; clear x) | clear_value x) | split | exact KeepsP.keeps (p := (_, _)) (by assumption) | (refine KeepsP.of_eq ?_ (by assumption)) | dsimp +zetaDelta -zeta -iota -proj only | with_reducible apply KeepsP.pair)

theorem Keeps.countPacket {s n} (h : Keeps r s) : Keeps r (State.countPacket s n) := by
  generalize hf : @State.countPacket = f; delta State.countPacket at hf; subst hf; beta_reduce
  with_reducible repeat' first
    | assumption | apply Keeps.setPort | apply Keeps.moduleEvent | apply Keeps.modPort | apply Keeps.ite
    | (fail_if_no_progress apply Keeps.upd)
    | (extract_lets +onlyGivenNames -underBinder x; first | (refine Keeps.cut (s := x) (r := r) ?_ ?_; rotate_left; clear_value x; revert x; intro _ _; rotate_left; dsimp -zeta -iota -proj only [x]; clear x) | (clear_value x; revert x; intro _))
    | split | refine KeepsP.of_eq ?_ (by assumption)

theorem Keeps.emitPacket {s n pk} (h : Keeps r s) : Keeps r (State.emitPacket s n pk) := by
  generalize hf : @State.emitPacket = f; delta State.emitPacket at hf; subst hf; beta_reduce
  with_reducible repeat' first
    | assumption | apply Keeps.packBytes | apply Keeps.activity | apply Keeps.countPacket | apply Keeps.modPort | apply Keeps.sendData
    | apply Keeps.ite | (fail_if_no_progress apply Keeps.upd)
    | (refine Keeps.foldl ?_ ?_ _; rotate_left; intros; beta_reduce)
    | (refine KeepsP.foldl ?_ ?_ _; rotate_left; intros; beta_reduce)
    | (extract_lets +onlyGivenNames -underBinder x; first | (refine Keeps.cut (s := x) (r := r) ?_ ?_; rotate_left; clear_value x; revert x; intro _ _; rotate_left; dsimp -zeta -iota -proj only [x]; clear x) | (clear_value x; revert x; intro _))
    | split | exact KeepsP.keeps (p := (_, _)) (by assumption) | refine KeepsP.of_eq ?_ (by assumption)

theorem Keeps.pumpVc {r s t : State} {n v : Nat} (h : Keeps r s) (e : s.pumpVc n v = some t) : Keeps r t := by
  unfold State.pumpVc at e
  dsimp only at e
  split at e
  · cases e
  · split at e
    · cases e
      exact Keeps.emitPacket (Keeps.setPort h)
    · cases e

theorem Keeps.pump {r s : State} {k n : Nat} (h : Keeps r s) : Keeps r (State.pump k s n) := by
  induction k generalizing s with
  | zero => exact h
  | succ k ih =>
    unfold State.pump
    split
    · next e =>
      obtain ⟨_, _, e⟩ := List.exists_of_findSome?_eq_some e
      exact ih (Keeps.pumpVc h e)
    · exact h

theorem Keeps.pumpPort {s n} (h : Keeps r s) : Keeps r (State.pumpPort s n) := by
  generalize hf : @State.pumpPort = f; delta State.pumpPort at hf; subst hf; beta_reduce
  with_reducible repeat' first
    | assumption | apply Keeps.pump

theorem Keeps.sendPacket {s n h' payload pay} (h : Keeps r s) : Keeps r (State.sendPacket s n h' payload pay) := by
  generalize hf : @State.sendPacket = f; delta State.sendPacket at hf; subst hf; beta_reduce
  with_reducible repeat' first
    | assumption | apply Keeps.pumpPort | apply Keeps.modPort | (fail_if_no_progress apply Keeps.upd)
    | (extract_lets +onlyGivenNames -underBinder x; clear_value x; revert x; intro _)

theorem Keeps.replayPort {s n} (h : Keeps r s) : Keeps r (State.replayPort s n) := by
  generalize hf : @State.replayPort = f; delta State.replayPort at hf; subst hf; beta_reduce
  with_reducible repeat' first
    | assumption | apply Keeps.send | apply Keeps.setPort | (fail_if_no_progress apply Keeps.upd)
    | (refine Keeps.foldl ?_ ?_ _; rotate_left; intros; beta_reduce)
    | (refine KeepsP.foldl ?_ ?_ _; rotate_left; intros; beta_reduce) | apply KeepsP.keeps
    | (extract_lets +onlyGivenNames -underBinder x; first | (refine Keeps.cut (s := x) (r := r) ?_ ?_; rotate_left; clear_value x; revert x; intro _ _; rotate_left; dsimp -zeta -iota -proj only [x]; clear x) | (clear_value x; revert x; intro _))

theorem Keeps.startTraining {s n} (h : Keeps r s) : Keeps r (State.startTraining s n) := by
  generalize hf : @State.startTraining = f; delta State.startTraining at hf; subst hf; beta_reduce
  with_reducible repeat' first
    | assumption | apply Keeps.modPort | (fail_if_no_progress apply Keeps.upd)

theorem Keeps.loseRequests {s n} (h : Keeps r s) : Keeps r (State.loseRequests s n) := by
  generalize hf : @State.loseRequests = f; delta State.loseRequests at hf; subst hf; beta_reduce
  with_reducible repeat' first
    | assumption | apply Keeps.ite | (fail_if_no_progress apply Keeps.upd)
    | (extract_lets +onlyGivenNames -underBinder x; clear_value x; revert x; intro _) | split
    | refine KeepsP.of_eq ?_ (by assumption)

theorem Keeps.portDown {s n} (h : Keeps r s) : Keeps r (State.portDown s n) := by
  generalize hf : @State.portDown = f; delta State.portDown at hf; subst hf; beta_reduce
  with_reducible repeat' first
    | assumption | apply Keeps.modPort | apply Keeps.loseRequests | apply Keeps.moduleEvent | apply Keeps.event
    | (fail_if_no_progress apply Keeps.upd)
    | (extract_lets +onlyGivenNames -underBinder x; first | (refine Keeps.cut (s := x) (r := r) ?_ ?_; rotate_left; clear_value x; revert x; intro _ _; rotate_left; dsimp -zeta -iota -proj only [x]; clear x) | (clear_value x; revert x; intro _))

theorem Keeps.portOff {s n} (h : Keeps r s) : Keeps r (State.portOff s n) := by
  generalize hf : @State.portOff = f; delta State.portOff at hf; subst hf; beta_reduce
  with_reducible repeat' first
    | assumption | apply Keeps.modPort | apply Keeps.loseRequests | (fail_if_no_progress apply Keeps.upd)

/-! ### XlatOps -/

theorem Keeps.setObject {s n w} (h : Keeps r s) : Keeps r (State.setObject s n w) := by
  generalize hf : @State.setObject = f; delta State.setObject at hf; subst hf; beta_reduce
  with_reducible repeat' first
    | assumption | apply Keeps.ownWrite
    | apply Keeps.ite | (fail_if_no_progress apply Keeps.upd)
    | (refine Keeps.foldl ?_ ?_ _; rotate_left; intros; beta_reduce)
    | (refine KeepsP.foldl ?_ ?_ _; rotate_left; intros; beta_reduce)
    | apply KeepsP.keeps
    | (extract_lets +onlyGivenNames -underBinder x; first | (refine Keeps.cut (s := x) (r := r) ?_ ?_; rotate_left; clear_value x; revert x; intro _ _; rotate_left; dsimp -zeta -iota -proj only [x]; clear x) | (clear_value x; revert x; intro _))
    | split | exact KeepsP.keeps (p := (_, _)) (by assumption) | refine KeepsP.of_eq ?_ (by assumption)

theorem Keeps.readEntry {r : State} {s : State} {w : Who} {a : Nat} (h : Keeps r s) :
    KeepsP r (State.readEntry s w a) := by
  generalize hf : @State.readEntry = f; delta State.readEntry at hf; subst hf; beta_reduce
  repeat' (first | with_reducible assumption  | with_reducible apply Keeps.keepSteps | with_reducible apply Keeps.stepAccess | with_reducible apply Keeps.ite | with_reducible apply KeepsP.ite | fail_if_no_progress with_reducible apply Keeps.upd | with_reducible apply KeepsOut.next | exact trivial | with_reducible apply KeepsDid.done | with_reducible apply KeepsDid.raise | with_reducible apply KeepsDid.stall | (with_reducible refine Keeps.foldl ?_ ?_ _; rotate_left; intros; beta_reduce) | (with_reducible refine KeepsP.foldl ?_ ?_ _; rotate_left; intros; beta_reduce) | with_reducible apply KeepsP.keeps | (extract_lets +onlyGivenNames -underBinder x; first | (refine Keeps.cut (r := r) (s := x) ?_ ?_; rotate_left; clear_value x; revert x; intro _ _; rotate_left; dsimp -zeta -iota -proj only [x]; clear x) | (refine KeepsP.cut (r := r) (p := x) ?_ ?_; rotate_left; clear_value x; revert x; intro _ _; rotate_left; dsimp -zeta -iota -proj only [x]; clear x) | clear_value x) | split | exact KeepsP.keeps (p := (_, _)) (by assumption) | (refine KeepsP.of_eq ?_ (by assumption)) | dsimp +zetaDelta -zeta -iota -proj only | with_reducible apply KeepsP.pair)

theorem Keeps.readTable {s w p} (h : Keeps r s) : KeepsP r (State.readTable s w p) := by
  generalize hf : @State.readTable = f; delta State.readTable at hf; subst hf; beta_reduce
  with_reducible repeat' first
    | assumption | apply Keeps.readEntry | apply Keeps.physRead
    | apply Keeps.ite | apply KeepsP.ite | (fail_if_no_progress apply Keeps.upd)
    | (refine Keeps.foldl ?_ ?_ _; rotate_left; intros; beta_reduce)
    | (refine KeepsP.foldl ?_ ?_ _; rotate_left; intros; beta_reduce)
    | apply KeepsP.keeps
    | (extract_lets +onlyGivenNames -underBinder x; first | (refine Keeps.cut (s := x) (r := r) ?_ ?_; rotate_left; clear_value x; revert x; intro _ _; rotate_left; dsimp -zeta -iota -proj only [x]; clear x) | (clear_value x; revert x; intro _))
    | split | exact KeepsP.keeps (p := (_, _)) (by assumption) | refine KeepsP.of_eq ?_ (by assumption) | apply KeepsP.pair

theorem Keeps.readObject {r : State} {s : State} {w : Who} {n : Nat} (h : Keeps r s) :
    KeepsP r (State.readObject s w n) := by
  generalize hf : @State.readObject = f; delta State.readObject at hf; subst hf; beta_reduce
  repeat' (first | with_reducible assumption  | with_reducible apply Keeps.readEntry | with_reducible apply Keeps.ite | with_reducible apply KeepsP.ite | fail_if_no_progress with_reducible apply Keeps.upd | with_reducible apply KeepsOut.next | exact trivial | with_reducible apply KeepsDid.done | with_reducible apply KeepsDid.raise | with_reducible apply KeepsDid.stall | (with_reducible refine Keeps.foldl ?_ ?_ _; rotate_left; intros; beta_reduce) | (with_reducible refine KeepsP.foldl ?_ ?_ _; rotate_left; intros; beta_reduce) | with_reducible apply KeepsP.keeps | (extract_lets +onlyGivenNames -underBinder x; first | (refine Keeps.cut (r := r) (s := x) ?_ ?_; rotate_left; clear_value x; revert x; intro _ _; rotate_left; dsimp -zeta -iota -proj only [x]; clear x) | (refine KeepsP.cut (r := r) (p := x) ?_ ?_; rotate_left; clear_value x; revert x; intro _ _; rotate_left; dsimp -zeta -iota -proj only [x]; clear x) | clear_value x) | split | exact KeepsP.keeps (p := (_, _)) (by assumption) | (refine KeepsP.of_eq ?_ (by assumption)) | dsimp +zetaDelta -zeta -iota -proj only | with_reducible apply KeepsP.pair)

theorem Keeps.either {r : State} {α : Type} [DecidableEq α] {s : State} {a : α} {b : α} (h : Keeps r s) : KeepsP r (State.either s a b) := by
  generalize hf : @State.either = f; delta State.either at hf; subst hf; beta_reduce
  with_reducible repeat' first
    | assumption | apply Keeps.freeNat | apply Keeps.ite | apply KeepsP.ite | apply KeepsP.keeps
    | (extract_lets +onlyGivenNames -underBinder x; clear_value x; revert x; intro _) | split
    | refine KeepsP.of_eq ?_ (by assumption) | apply KeepsP.pair

theorem Keeps.walkEntry {s w level va a} (h : Keeps r s) : KeepsP r (State.walkEntry s w level va a) := by
  generalize hf : @State.walkEntry = f; delta State.walkEntry at hf; subst hf; beta_reduce
  with_reducible repeat' first
    | assumption | apply Keeps.readTable | apply Keeps.either
    | apply Keeps.ite | apply KeepsP.ite | (fail_if_no_progress apply Keeps.upd)
    | (refine Keeps.foldl ?_ ?_ _; rotate_left; intros; beta_reduce)
    | (refine KeepsP.foldl ?_ ?_ _; rotate_left; intros; beta_reduce)
    | apply KeepsP.keeps
    | (extract_lets +onlyGivenNames -underBinder x; first | (refine Keeps.cut (s := x) (r := r) ?_ ?_; rotate_left; clear_value x; revert x; intro _ _; rotate_left; dsimp -zeta -iota -proj only [x]; clear x) | (clear_value x; revert x; intro _))
    | split | exact KeepsP.keeps (p := (_, _)) (by assumption) | refine KeepsP.of_eq ?_ (by assumption) | apply KeepsP.pair

theorem Keeps.cacheNonLeaf {r : State} {s : State} {die : Nat} {asid : Nat} {level : Nat} {va : Nat} {addr : Nat} {e : BitVec 128} (h : Keeps r s) :
    Keeps r (State.cacheNonLeaf s die asid level va addr e) := by
  generalize hf : @State.cacheNonLeaf = f; delta State.cacheNonLeaf at hf; subst hf; beta_reduce
  repeat' (first | with_reducible assumption  | with_reducible apply Keeps.ite | with_reducible apply KeepsP.ite | fail_if_no_progress with_reducible apply Keeps.upd | with_reducible apply KeepsOut.next | exact trivial | with_reducible apply KeepsDid.done | with_reducible apply KeepsDid.raise | with_reducible apply KeepsDid.stall | (with_reducible refine Keeps.foldl ?_ ?_ _; rotate_left; intros; beta_reduce) | (with_reducible refine KeepsP.foldl ?_ ?_ _; rotate_left; intros; beta_reduce) | with_reducible apply KeepsP.keeps | (extract_lets +onlyGivenNames -underBinder x; first | (refine Keeps.cut (r := r) (s := x) ?_ ?_; rotate_left; clear_value x; revert x; intro _ _; rotate_left; dsimp -zeta -iota -proj only [x]; clear x) | (refine KeepsP.cut (r := r) (p := x) ?_ ?_; rotate_left; clear_value x; revert x; intro _ _; rotate_left; dsimp -zeta -iota -proj only [x]; clear x) | clear_value x) | split | exact KeepsP.keeps (p := (_, _)) (by assumption) | (refine KeepsP.of_eq ?_ (by assumption)) | dsimp +zetaDelta -zeta -iota -proj only | with_reducible apply KeepsP.pair)

theorem Keeps.walkFrom {r s : State} {w : Who} {va fn : Nat} {accEn : Bool} {l base : Nat} (h : Keeps r s) :
    KeepsP r (State.walkFrom w va fn accEn l s base) := by
  induction l generalizing s base with
  | zero =>
    unfold State.walkFrom
    extract_lets
    split
    all_goals have h' := KeepsP.of_eq (Keeps.walkEntry h) (by assumption)
    · exact ⟨h'⟩
    · exact ⟨h'⟩
    · exact KeepsP.ite ⟨h'⟩ (KeepsP.ite ⟨h'⟩ (KeepsP.ite (KeepsP.ite ⟨h'⟩ ⟨h'⟩) ⟨h'⟩))
  | succ l ih =>
    unfold State.walkFrom
    extract_lets
    split
    all_goals have h' := KeepsP.of_eq (Keeps.walkEntry h) (by assumption)
    · exact ⟨h'⟩
    · exact ⟨h'⟩
    · exact KeepsP.ite ⟨h'⟩ (KeepsP.ite ⟨h'⟩ (KeepsP.ite (KeepsP.ite ⟨h'⟩ ⟨h'⟩)
        (KeepsP.ite ⟨h'⟩ (ih (Keeps.cacheNonLeaf h')))))

theorem Keeps.walkReads {r : State} {s : State} {w : Who} {va : Nat} (h : Keeps r s) :
    KeepsP r (State.walkReads s w va) := by
  generalize hf : @State.walkReads = f; delta State.walkReads at hf; subst hf; beta_reduce
  repeat' (first | with_reducible assumption  | with_reducible apply Keeps.readTable | with_reducible apply Keeps.walkFrom | with_reducible apply Keeps.ite | with_reducible apply KeepsP.ite | fail_if_no_progress with_reducible apply Keeps.upd | with_reducible apply KeepsOut.next | exact trivial | with_reducible apply KeepsDid.done | with_reducible apply KeepsDid.raise | with_reducible apply KeepsDid.stall | (with_reducible refine Keeps.foldl ?_ ?_ _; rotate_left; intros; beta_reduce) | (with_reducible refine KeepsP.foldl ?_ ?_ _; rotate_left; intros; beta_reduce) | with_reducible apply KeepsP.keeps | (extract_lets +onlyGivenNames -underBinder x; first | (refine Keeps.cut (r := r) (s := x) ?_ ?_; rotate_left; clear_value x; revert x; intro _ _; rotate_left; dsimp -zeta -iota -proj only [x]; clear x) | (refine KeepsP.cut (r := r) (p := x) ?_ ?_; rotate_left; clear_value x; revert x; intro _ _; rotate_left; dsimp -zeta -iota -proj only [x]; clear x) | clear_value x) | split | exact KeepsP.keeps (p := (_, _)) (by assumption) | (refine KeepsP.of_eq ?_ (by assumption)) | dsimp +zetaDelta -zeta -iota -proj only | with_reducible apply KeepsP.pair)

theorem Keeps.walk {s w va} (h : Keeps r s) : KeepsP r (State.walk s w va) := by
  generalize hf : @State.walk = f; delta State.walk at hf; subst hf; beta_reduce
  with_reducible repeat' first
    | assumption | apply Keeps.walkReads | apply Keeps.walkDone | apply Keeps.readTable | apply Keeps.walkFrom | apply Keeps.ite | apply KeepsP.ite
    | (fail_if_no_progress apply Keeps.upd) | apply KeepsP.keeps
    | (extract_lets +onlyGivenNames -underBinder x; first | (refine Keeps.cut (s := x) (r := r) ?_ ?_; rotate_left; clear_value x; revert x; intro _ _; rotate_left; dsimp -zeta -iota -proj only [x]; clear x) | (clear_value x; revert x; intro _))
    | split | refine KeepsP.of_eq ?_ (by assumption) | apply KeepsP.pair

theorem Keeps.cacheLeaf {s x'} (h : Keeps r s) : Keeps r (State.cacheLeaf s x') := by
  generalize hf : @State.cacheLeaf = f; delta State.cacheLeaf at hf; subst hf; beta_reduce
  with_reducible repeat' first
    | assumption | (fail_if_no_progress apply Keeps.upd)
    | (extract_lets +onlyGivenNames -underBinder x; clear_value x; revert x; intro _)

theorem Keeps.uncache {s cache asid va} (h : Keeps r s) : Keeps r (State.uncache s cache asid va) := by
  generalize hf : @State.uncache = f; delta State.uncache at hf; subst hf; beta_reduce
  with_reducible repeat' first
    | assumption | (fail_if_no_progress apply Keeps.upd)

theorem Keeps.pinCaches {r : State} {s : State} (h : Keeps r s) :
    Keeps r (State.pinCaches s) := by
  generalize hf : @State.pinCaches = f; delta State.pinCaches at hf; subst hf; beta_reduce
  repeat' (first | with_reducible assumption  | with_reducible apply Keeps.ite | with_reducible apply KeepsP.ite | fail_if_no_progress with_reducible apply Keeps.upd | with_reducible apply KeepsOut.next | exact trivial | with_reducible apply KeepsDid.done | with_reducible apply KeepsDid.raise | with_reducible apply KeepsDid.stall | (with_reducible refine Keeps.foldl ?_ ?_ _; rotate_left; intros; beta_reduce) | (with_reducible refine KeepsP.foldl ?_ ?_ _; rotate_left; intros; beta_reduce) | with_reducible apply KeepsP.keeps | (extract_lets +onlyGivenNames -underBinder x; first | (refine Keeps.cut (r := r) (s := x) ?_ ?_; rotate_left; clear_value x; revert x; intro _ _; rotate_left; dsimp -zeta -iota -proj only [x]; clear x) | (refine KeepsP.cut (r := r) (p := x) ?_ ?_; rotate_left; clear_value x; revert x; intro _ _; rotate_left; dsimp -zeta -iota -proj only [x]; clear x) | clear_value x) | split | exact KeepsP.keeps (p := (_, _)) (by assumption) | (refine KeepsP.of_eq ?_ (by assumption)) | dsimp +zetaDelta -zeta -iota -proj only | with_reducible apply KeepsP.pair)

theorem Keeps.forget {s w va} (h : Keeps r s) : Keeps r (State.forget s w va) := Keeps.uncache (Keeps.uncache h)

theorem Keeps.keepLeaf {r : State} {s : State} {w : Who} {x' : Option (Bool × CacheEntry)} (h : Keeps r s) :
    Keeps r (State.keepLeaf s w x') := by
  generalize hf : @State.keepLeaf = f; delta State.keepLeaf at hf; subst hf; beta_reduce
  repeat' (first | with_reducible assumption  | with_reducible apply Keeps.cacheLeaf | with_reducible apply Keeps.ite | with_reducible apply KeepsP.ite | fail_if_no_progress with_reducible apply Keeps.upd | with_reducible apply KeepsOut.next | exact trivial | with_reducible apply KeepsDid.done | with_reducible apply KeepsDid.raise | with_reducible apply KeepsDid.stall | (with_reducible refine Keeps.foldl ?_ ?_ _; rotate_left; intros; beta_reduce) | (with_reducible refine KeepsP.foldl ?_ ?_ _; rotate_left; intros; beta_reduce) | with_reducible apply KeepsP.keeps | (extract_lets +onlyGivenNames -underBinder x; first | (refine Keeps.cut (r := r) (s := x) ?_ ?_; rotate_left; clear_value x; revert x; intro _ _; rotate_left; dsimp -zeta -iota -proj only [x]; clear x) | (refine KeepsP.cut (r := r) (p := x) ?_ ?_; rotate_left; clear_value x; revert x; intro _ _; rotate_left; dsimp -zeta -iota -proj only [x]; clear x) | clear_value x) | split | exact KeepsP.keeps (p := (_, _)) (by assumption) | (refine KeepsP.of_eq ?_ (by assumption)) | dsimp +zetaDelta -zeta -iota -proj only | with_reducible apply KeepsP.pair)

theorem Keeps.findLeaf {r : State} {s : State} {w : Who} {va : Nat} {write : Bool} (h : Keeps r s) :
    KeepsP r (State.findLeaf s w va write) := by
  generalize hf : @State.findLeaf = f; delta State.findLeaf at hf; subst hf; beta_reduce
  repeat' (first | with_reducible assumption  | with_reducible apply Keeps.walk | with_reducible apply Keeps.either | with_reducible apply Keeps.forget | with_reducible apply Keeps.ite | with_reducible apply KeepsP.ite | fail_if_no_progress with_reducible apply Keeps.upd | with_reducible apply KeepsOut.next | exact trivial | with_reducible apply KeepsDid.done | with_reducible apply KeepsDid.raise | with_reducible apply KeepsDid.stall | (with_reducible refine Keeps.foldl ?_ ?_ _; rotate_left; intros; beta_reduce) | (with_reducible refine KeepsP.foldl ?_ ?_ _; rotate_left; intros; beta_reduce) | with_reducible apply KeepsP.keeps | apply hfn | intro _ | (extract_lets +onlyGivenNames -underBinder x; first | (refine Keeps.cut (r := r) (s := x) ?_ ?_; rotate_left; clear_value x; revert x; intro _ _; rotate_left; dsimp -zeta -iota -proj only [x]; clear x) | (refine KeepsP.cut (r := r) (p := x) ?_ ?_; rotate_left; clear_value x; revert x; intro _ _; rotate_left; dsimp -zeta -iota -proj only [x]; clear x) | (refine Keeps.cutAt (∀ (s : State), Keeps r s → Keeps r (x s)) ?_ ?_; rotate_left; clear_value x; revert x; intro _ hfn; rotate_left; dsimp -zeta -iota -proj only [x]; clear x) | (refine Keeps.cutAt (∀ (s : State) a, Keeps r s → Keeps r (x s a)) ?_ ?_; rotate_left; clear_value x; revert x; intro _ hfn; rotate_left; dsimp -zeta -iota -proj only [x]; clear x) | (refine Keeps.cutAt (∀ (s : State) a b, Keeps r s → Keeps r (x s a b)) ?_ ?_; rotate_left; clear_value x; revert x; intro _ hfn; rotate_left; dsimp -zeta -iota -proj only [x]; clear x) | (refine Keeps.cutAt (∀ (s : State) a b c, Keeps r s → Keeps r (x s a b c)) ?_ ?_; rotate_left; clear_value x; revert x; intro _ hfn; rotate_left; dsimp -zeta -iota -proj only [x]; clear x) | (refine Keeps.cutAt (∀ (s : State) a b c d, Keeps r s → Keeps r (x s a b c d)) ?_ ?_; rotate_left; clear_value x; revert x; intro _ hfn; rotate_left; dsimp -zeta -iota -proj only [x]; clear x) | (refine Keeps.cutAt (∀ (s : State), Keeps r s → KeepsP r (x s)) ?_ ?_; rotate_left; clear_value x; revert x; intro _ hfn; rotate_left; dsimp -zeta -iota -proj only [x]; clear x) | (refine Keeps.cutAt (∀ (s : State) a, Keeps r s → KeepsP r (x s a)) ?_ ?_; rotate_left; clear_value x; revert x; intro _ hfn; rotate_left; dsimp -zeta -iota -proj only [x]; clear x) | (refine Keeps.cutAt (∀ (s : State) a b, Keeps r s → KeepsP r (x s a b)) ?_ ?_; rotate_left; clear_value x; revert x; intro _ hfn; rotate_left; dsimp -zeta -iota -proj only [x]; clear x) | (refine Keeps.cutAt (∀ (s : State) a b c, Keeps r s → KeepsP r (x s a b c)) ?_ ?_; rotate_left; clear_value x; revert x; intro _ hfn; rotate_left; dsimp -zeta -iota -proj only [x]; clear x) | (refine Keeps.cutAt (∀ (s : State) a b c d, Keeps r s → KeepsP r (x s a b c d)) ?_ ?_; rotate_left; clear_value x; revert x; intro _ hfn; rotate_left; dsimp -zeta -iota -proj only [x]; clear x) | (refine Keeps.cutAt (∀ (s : State), Keeps r s → KeepsDid r (x s)) ?_ ?_; rotate_left; clear_value x; revert x; intro _ hfn; rotate_left; dsimp -zeta -iota -proj only [x]; clear x) | (refine Keeps.cutAt (∀ (s : State) a, Keeps r s → KeepsDid r (x s a)) ?_ ?_; rotate_left; clear_value x; revert x; intro _ hfn; rotate_left; dsimp -zeta -iota -proj only [x]; clear x) | (refine Keeps.cutAt (∀ (s : State) a b, Keeps r s → KeepsDid r (x s a b)) ?_ ?_; rotate_left; clear_value x; revert x; intro _ hfn; rotate_left; dsimp -zeta -iota -proj only [x]; clear x) | (refine Keeps.cutAt (∀ (s : State) a b c, Keeps r s → KeepsDid r (x s a b c)) ?_ ?_; rotate_left; clear_value x; revert x; intro _ hfn; rotate_left; dsimp -zeta -iota -proj only [x]; clear x) | (refine Keeps.cutAt (∀ (s : State) a b c d, Keeps r s → KeepsDid r (x s a b c d)) ?_ ?_; rotate_left; clear_value x; revert x; intro _ hfn; rotate_left; dsimp -zeta -iota -proj only [x]; clear x) | (refine Keeps.cutAt (∀ p, KeepsP r p → KeepsP r (x p)) ?_ ?_; rotate_left; clear_value x; revert x; intro _ hfn; rotate_left; dsimp -zeta -iota -proj only [x]; clear x) | (refine Keeps.cutAt (∀ p a, KeepsP r p → KeepsP r (x p a)) ?_ ?_; rotate_left; clear_value x; revert x; intro _ hfn; rotate_left; dsimp -zeta -iota -proj only [x]; clear x) | (refine Keeps.cutAt (∀ a (s : State), Keeps r s → KeepsP r (x a s)) ?_ ?_; rotate_left; clear_value x; revert x; intro _ hfn; rotate_left; dsimp -zeta -iota -proj only [x]; clear x) | (clear_value x; revert x; intro _)) | split | exact KeepsP.keeps (p := (_, _)) (by assumption) | (refine KeepsP.of_eq ?_ (by assumption)) | dsimp +zetaDelta -zeta -iota -proj only | with_reducible apply KeepsP.pair)

theorem Keeps.closeBatch {s n} (h : Keeps r s) : Keeps r (State.closeBatch s n) := by
  generalize hf : @State.closeBatch = f; delta State.closeBatch at hf; subst hf; beta_reduce
  with_reducible repeat' first
    | assumption | apply Keeps.setFn | apply Keeps.hostWrite | apply Keeps.cause | apply Keeps.ite
    | (fail_if_no_progress apply Keeps.upd)
    | (extract_lets +onlyGivenNames -underBinder x; first | (refine Keeps.cut (s := x) (r := r) ?_ ?_; rotate_left; clear_value x; revert x; intro _ _; rotate_left; dsimp -zeta -iota -proj only [x]; clear x) | (clear_value x; revert x; intro _))
    | split | refine KeepsP.of_eq ?_ (by assumption)

theorem Keeps.ringWrite {s n entry} (h : Keeps r s) : Keeps r (State.ringWrite s n entry) := by
  generalize hf : @State.ringWrite = f; delta State.ringWrite at hf; subst hf; beta_reduce
  with_reducible repeat' first
    | assumption | apply Keeps.hostWrite | apply Keeps.setFn | apply Keeps.closeBatch | apply Keeps.ite
    | (fail_if_no_progress apply Keeps.upd) | apply KeepsP.keeps
    | (extract_lets +onlyGivenNames -underBinder x; first | (refine Keeps.cut (s := x) (r := r) ?_ ?_; rotate_left; clear_value x; revert x; intro _ _; rotate_left; dsimp -zeta -iota -proj only [x]; clear x) | (clear_value x; revert x; intro _))

theorem Keeps.takeTag {s n} (h : Keeps r s) : KeepsP r (State.takeTag s n) := by
  generalize hf : @State.takeTag = f; delta State.takeTag at hf; subst hf; beta_reduce
  with_reducible repeat' first
    | assumption | apply Keeps.setFn | apply Keeps.ite | apply KeepsP.ite | (fail_if_no_progress apply Keeps.upd)
    | apply KeepsP.keeps | (extract_lets +onlyGivenNames -underBinder x; clear_value x; revert x; intro _)
    | apply KeepsP.pair

theorem Keeps.addFault {s f} (h : Keeps r s) : Keeps r (State.addFault s f) := by
  generalize hf : @State.addFault = f; delta State.addFault at hf; subst hf; beta_reduce
  have hc0 := @Keeps.takeTag r; obtain ⟨g, hg⟩ : ∃ g, g = @State.takeTag := ⟨_, rfl⟩; rw [← hg] at hc0 ⊢; clear hg
  with_reducible repeat' first
    | assumption | apply Keeps.setFn | apply Keeps.cause | apply hc0 | apply Keeps.ringWrite | apply Keeps.ite
    | apply KeepsP.ite | (fail_if_no_progress apply Keeps.upd) | apply KeepsP.keeps
    | (extract_lets +onlyGivenNames -underBinder x; first | (refine Keeps.cut (s := x) (r := r) ?_ ?_; rotate_left; clear_value x; revert x; intro _ _; rotate_left; dsimp -zeta -iota -proj only [x]; clear x) | (refine KeepsP.cut (p := x) (r := r) ?_ ?_; rotate_left; clear_value x; revert x; intro _ _; rotate_left; dsimp -zeta -iota -proj only [x]; clear x) | (clear_value x; revert x; intro _))
    | split | exact KeepsP.keeps (p := (_, _)) (by assumption) | refine KeepsP.of_eq ?_ (by assumption)
    | dsimp +zetaDelta -zeta -iota -proj only | apply KeepsP.pair

theorem Keeps.faultFor {s w va write reason} (h : Keeps r s) : Keeps r (State.faultFor s w va write reason) := by
  generalize hf : @State.faultFor = f; delta State.faultFor at hf; subst hf; beta_reduce
  with_reducible repeat' first
    | assumption | apply Keeps.addFault | apply Keeps.ite | (fail_if_no_progress apply Keeps.upd)
    | (extract_lets +onlyGivenNames -underBinder x; clear_value x; revert x; intro _) | split
    | refine KeepsP.of_eq ?_ (by assumption)

theorem Keeps.notify {s fn die asid region} (h : Keeps r s) : Keeps r (State.notify s fn die asid region) := by
  generalize hf : @State.notify = f; delta State.notify at hf; subst hf; beta_reduce
  with_reducible repeat' first
    | assumption | apply Keeps.setFn | apply Keeps.ringWrite | apply Keeps.ite | (fail_if_no_progress apply Keeps.upd)
    | (extract_lets +onlyGivenNames -underBinder x; clear_value x; revert x; intro _)

theorem Keeps.countAccess {s die asid va n} (h : Keeps r s) : Keeps r (State.countAccess s die asid va n) := by
  generalize hf : @State.countAccess = f; delta State.countAccess at hf; subst hf; beta_reduce
  with_reducible repeat' first
    | assumption | (fail_if_no_progress apply Keeps.upd)
    | (extract_lets +onlyGivenNames -underBinder x; clear_value x; revert x; intro _) | split
    | refine KeepsP.of_eq ?_ (by assumption)

theorem Keeps.translateBy {r : State} {s : State} {w : Who} {va : Nat} {n : Nat} {write : Bool} (h : Keeps r s) :
    KeepsP r (State.translateBy s w va n write) := by
  generalize hf : @State.translateBy = f; delta State.translateBy at hf; subst hf; beta_reduce
  repeat' (first | with_reducible assumption  | with_reducible apply Keeps.findLeaf | with_reducible apply Keeps.keepLeaf | with_reducible apply Keeps.modKeySlot | with_reducible apply Keeps.countAccess | with_reducible apply Keeps.readObject | with_reducible apply Keeps.ite | with_reducible apply KeepsP.ite | fail_if_no_progress with_reducible apply Keeps.upd | with_reducible apply KeepsOut.next | exact trivial | with_reducible apply KeepsDid.done | with_reducible apply KeepsDid.raise | with_reducible apply KeepsDid.stall | (with_reducible refine Keeps.foldl ?_ ?_ _; rotate_left; intros; beta_reduce) | (with_reducible refine KeepsP.foldl ?_ ?_ _; rotate_left; intros; beta_reduce) | with_reducible apply KeepsP.keeps | apply hfn | intro _ | (extract_lets +onlyGivenNames -underBinder x; first | (refine Keeps.cut (r := r) (s := x) ?_ ?_; rotate_left; clear_value x; revert x; intro _ _; rotate_left; dsimp -zeta -iota -proj only [x]; clear x) | (refine KeepsP.cut (r := r) (p := x) ?_ ?_; rotate_left; clear_value x; revert x; intro _ _; rotate_left; dsimp -zeta -iota -proj only [x]; clear x) | (refine Keeps.cutAt (∀ (s : State), Keeps r s → Keeps r (x s)) ?_ ?_; rotate_left; clear_value x; revert x; intro _ hfn; rotate_left; dsimp -zeta -iota -proj only [x]; clear x) | (refine Keeps.cutAt (∀ (s : State) a, Keeps r s → Keeps r (x s a)) ?_ ?_; rotate_left; clear_value x; revert x; intro _ hfn; rotate_left; dsimp -zeta -iota -proj only [x]; clear x) | (refine Keeps.cutAt (∀ (s : State) a b, Keeps r s → Keeps r (x s a b)) ?_ ?_; rotate_left; clear_value x; revert x; intro _ hfn; rotate_left; dsimp -zeta -iota -proj only [x]; clear x) | (refine Keeps.cutAt (∀ (s : State) a b c, Keeps r s → Keeps r (x s a b c)) ?_ ?_; rotate_left; clear_value x; revert x; intro _ hfn; rotate_left; dsimp -zeta -iota -proj only [x]; clear x) | (refine Keeps.cutAt (∀ (s : State) a b c d, Keeps r s → Keeps r (x s a b c d)) ?_ ?_; rotate_left; clear_value x; revert x; intro _ hfn; rotate_left; dsimp -zeta -iota -proj only [x]; clear x) | (refine Keeps.cutAt (∀ (s : State), Keeps r s → KeepsP r (x s)) ?_ ?_; rotate_left; clear_value x; revert x; intro _ hfn; rotate_left; dsimp -zeta -iota -proj only [x]; clear x) | (refine Keeps.cutAt (∀ (s : State) a, Keeps r s → KeepsP r (x s a)) ?_ ?_; rotate_left; clear_value x; revert x; intro _ hfn; rotate_left; dsimp -zeta -iota -proj only [x]; clear x) | (refine Keeps.cutAt (∀ (s : State) a b, Keeps r s → KeepsP r (x s a b)) ?_ ?_; rotate_left; clear_value x; revert x; intro _ hfn; rotate_left; dsimp -zeta -iota -proj only [x]; clear x) | (refine Keeps.cutAt (∀ (s : State) a b c, Keeps r s → KeepsP r (x s a b c)) ?_ ?_; rotate_left; clear_value x; revert x; intro _ hfn; rotate_left; dsimp -zeta -iota -proj only [x]; clear x) | (refine Keeps.cutAt (∀ (s : State) a b c d, Keeps r s → KeepsP r (x s a b c d)) ?_ ?_; rotate_left; clear_value x; revert x; intro _ hfn; rotate_left; dsimp -zeta -iota -proj only [x]; clear x) | (refine Keeps.cutAt (∀ (s : State), Keeps r s → KeepsDid r (x s)) ?_ ?_; rotate_left; clear_value x; revert x; intro _ hfn; rotate_left; dsimp -zeta -iota -proj only [x]; clear x) | (refine Keeps.cutAt (∀ (s : State) a, Keeps r s → KeepsDid r (x s a)) ?_ ?_; rotate_left; clear_value x; revert x; intro _ hfn; rotate_left; dsimp -zeta -iota -proj only [x]; clear x) | (refine Keeps.cutAt (∀ (s : State) a b, Keeps r s → KeepsDid r (x s a b)) ?_ ?_; rotate_left; clear_value x; revert x; intro _ hfn; rotate_left; dsimp -zeta -iota -proj only [x]; clear x) | (refine Keeps.cutAt (∀ (s : State) a b c, Keeps r s → KeepsDid r (x s a b c)) ?_ ?_; rotate_left; clear_value x; revert x; intro _ hfn; rotate_left; dsimp -zeta -iota -proj only [x]; clear x) | (refine Keeps.cutAt (∀ (s : State) a b c d, Keeps r s → KeepsDid r (x s a b c d)) ?_ ?_; rotate_left; clear_value x; revert x; intro _ hfn; rotate_left; dsimp -zeta -iota -proj only [x]; clear x) | (refine Keeps.cutAt (∀ p, KeepsP r p → KeepsP r (x p)) ?_ ?_; rotate_left; clear_value x; revert x; intro _ hfn; rotate_left; dsimp -zeta -iota -proj only [x]; clear x) | (refine Keeps.cutAt (∀ p a, KeepsP r p → KeepsP r (x p a)) ?_ ?_; rotate_left; clear_value x; revert x; intro _ hfn; rotate_left; dsimp -zeta -iota -proj only [x]; clear x) | (refine Keeps.cutAt (∀ a (s : State), Keeps r s → KeepsP r (x a s)) ?_ ?_; rotate_left; clear_value x; revert x; intro _ hfn; rotate_left; dsimp -zeta -iota -proj only [x]; clear x) | (clear_value x; revert x; intro _)) | split | exact KeepsP.keeps (p := (_, _)) (by assumption) | (refine KeepsP.of_eq ?_ (by assumption)) | dsimp +zetaDelta -zeta -iota -proj only | with_reducible apply KeepsP.pair)

theorem Keeps.translate {s w va n write} (h : Keeps r s) : KeepsP r (State.translate s w va n write) := by
  unfold State.translate
  have h1 := Keeps.translateBy (w := w) (va := va) (n := n) (write := write) h
  split
  · rename_i t e
    rw [e] at h1
    exact KeepsP.ite (Keeps.translateBy (Keeps.forget h1.1)) h1
  · exact h1

theorem Keeps.dropFaults {s q seq} (h : Keeps r s) : Keeps r (State.dropFaults s q seq) := by
  generalize hf : @State.dropFaults = f; delta State.dropFaults at hf; subst hf; beta_reduce
  with_reducible repeat' first
    | assumption | (fail_if_no_progress apply Keeps.upd)

/-! ### CmdOps -/

theorem Keeps.commitMsg {s b op q seq} (h : Keeps r s) : Keeps r (State.commitMsg s b op q seq) := by
  generalize hf : @State.commitMsg = f; delta State.commitMsg at hf; subst hf; beta_reduce
  with_reducible repeat' first
    | assumption | apply Keeps.lanCarry
    | apply Keeps.ite | (fail_if_no_progress apply Keeps.upd)
    | (extract_lets +onlyGivenNames -underBinder x; first | (refine Keeps.cut (s := x) (r := r) ?_ ?_; rotate_left; clear_value x; revert x; intro _ _; rotate_left; dsimp -zeta -iota -proj only [x]; clear x) | (clear_value x; revert x; intro _))
    | split | exact KeepsP.keeps (p := (_, _)) (by assumption) | refine KeepsP.of_eq ?_ (by assumption)

theorem Keeps.register {s b e} (h : Keeps r s) : Keeps r (State.register s b e) := by
  generalize hf : @State.register = f; delta State.register at hf; subst hf; beta_reduce
  with_reducible repeat' first
    | assumption | apply Keeps.lanCarry | apply Keeps.modBight
    | apply Keeps.ite | (fail_if_no_progress apply Keeps.upd)
    | (extract_lets +onlyGivenNames -underBinder x; first | (refine Keeps.cut (s := x) (r := r) ?_ ?_; rotate_left; clear_value x; revert x; intro _ _; rotate_left; dsimp -zeta -iota -proj only [x]; clear x) | (clear_value x; revert x; intro _))
    | split | exact KeepsP.keeps (p := (_, _)) (by assumption) | refine KeepsP.of_eq ?_ (by assumption)

theorem Keeps.requestKill {s q seq code detail rerun} (h : Keeps r s) :
    Keeps r (State.requestKill s q seq code detail rerun) := by
  generalize hf : @State.requestKill = f; delta State.requestKill at hf; subst hf; beta_reduce
  with_reducible repeat' first
    | assumption | apply Keeps.register | apply Keeps.ite | (fail_if_no_progress apply Keeps.upd) | split
    | refine KeepsP.of_eq ?_ (by assumption)

theorem Keeps.failCmd {s q seq code} (h : Keeps r s) : Keeps r (State.failCmd s q seq code) := by
  generalize hf : @State.failCmd = f; delta State.failCmd at hf; subst hf; beta_reduce
  with_reducible repeat' first
    | assumption | apply Keeps.requestKill

theorem Keeps.failAlways {s qn seq code} (h : Keeps r s) : Keeps r (State.failAlways s qn seq code) := by
  generalize hf : @State.failAlways = f; delta State.failAlways at hf; subst hf; beta_reduce
  with_reducible repeat' first
    | assumption | apply Keeps.modCmd | apply Keeps.failCmd | apply Keeps.ite | (fail_if_no_progress apply Keeps.upd)
    | split | refine KeepsP.of_eq ?_ (by assumption)

theorem Keeps.closeObject {s toggle n} (h : Keeps r s) : Keeps r (State.closeObject s toggle n) := by
  generalize hf : @State.closeObject = f; delta State.closeObject at hf; subst hf; beta_reduce
  with_reducible repeat' first
    | assumption | apply Keeps.setObject
    | (extract_lets +onlyGivenNames -underBinder x; clear_value x; revert x; intro _)

theorem Keeps.closeObjects {s toggle q seq} (h : Keeps r s) : Keeps r (State.closeObjects s toggle q seq) := by
  generalize hf : @State.closeObjects = f; delta State.closeObjects at hf; subst hf; beta_reduce
  with_reducible repeat' first
    | assumption | apply Keeps.modCmd | apply Keeps.closeObject | (fail_if_no_progress apply Keeps.upd)
    | (refine Keeps.foldl ?_ ?_ _; rotate_left; intros; beta_reduce)
    | (refine KeepsP.foldl ?_ ?_ _; rotate_left; intros; beta_reduce) | split
    | exact KeepsP.keeps (p := (_, _)) (by assumption) | refine KeepsP.of_eq ?_ (by assumption)

theorem Keeps.openObjects {s q c} (h : Keeps r s) : KeepsP r (State.openObjects s q c) := by
  generalize hf : @State.openObjects = f; delta State.openObjects at hf; subst hf; beta_reduce
  with_reducible repeat' first
    | assumption | apply Keeps.modCmd | apply Keeps.setObject | apply Keeps.ite | apply KeepsP.ite
    | (fail_if_no_progress apply Keeps.upd) | (refine KeepsP.foldl ?_ ?_ _; rotate_left; intros; beta_reduce)
    | apply KeepsP.keeps
    | (extract_lets +onlyGivenNames -underBinder x; first | (refine Keeps.cut (s := x) (r := r) ?_ ?_; rotate_left; clear_value x; revert x; intro _ _; rotate_left; dsimp -zeta -iota -proj only [x]; clear x) | (clear_value x; revert x; intro _))
    | split | exact KeepsP.keeps (p := (_, _)) (by assumption) | refine KeepsP.of_eq ?_ (by assumption)
    | apply KeepsP.pair

theorem Keeps.stopCores {s b} (h : Keeps r s) : Keeps r (State.stopCores s b) := by
  generalize hf : @State.stopCores = f; delta State.stopCores at hf; subst hf; beta_reduce
  with_reducible repeat' first
    | assumption | apply Keeps.setCore | apply Keeps.setEngine | apply Keeps.modRouter
    | (fail_if_no_progress apply Keeps.upd) | (refine Keeps.foldl ?_ ?_ _; rotate_left; intros; beta_reduce)
    | (extract_lets +onlyGivenNames -underBinder x; first | (refine Keeps.cut (s := x) (r := r) ?_ ?_; rotate_left; clear_value x; revert x; intro _ _; rotate_left; dsimp -zeta -iota -proj only [x]; clear x) | (clear_value x; revert x; intro _))

theorem Keeps.ungate {s ids} (h : Keeps r s) : Keeps r (State.ungate s ids) := by
  generalize hf : @State.ungate = f; delta State.ungate at hf; subst hf; beta_reduce
  with_reducible repeat' first
    | assumption | apply Keeps.oweCredit
    | apply Keeps.ite | (fail_if_no_progress apply Keeps.upd)
    | (refine Keeps.foldl ?_ ?_ _; rotate_left; intros; beta_reduce)
    | (refine KeepsP.foldl ?_ ?_ _; rotate_left; intros; beta_reduce)
    | apply KeepsP.keeps
    | (extract_lets +onlyGivenNames -underBinder x; first | (refine Keeps.cut (s := x) (r := r) ?_ ?_; rotate_left; clear_value x; revert x; intro _ _; rotate_left; dsimp -zeta -iota -proj only [x]; clear x) | (clear_value x; revert x; intro _))
    | split | exact KeepsP.keeps (p := (_, _)) (by assumption) | refine KeepsP.of_eq ?_ (by assumption)

theorem Keeps.abandonReqs {s p} (h : Keeps r s) : Keeps r (State.abandonReqs s p) := by
  generalize hf : @State.abandonReqs = f; delta State.abandonReqs at hf; subst hf; beta_reduce
  with_reducible repeat' first
    | assumption | apply Keeps.refKey | apply Keeps.ungate | apply Keeps.ite | (fail_if_no_progress apply Keeps.upd)
    | (refine Keeps.foldl ?_ ?_ _; rotate_left; intros; beta_reduce)
    | (refine KeepsP.foldl ?_ ?_ _; rotate_left; intros; beta_reduce)
    | (extract_lets +onlyGivenNames -underBinder x; first | (refine Keeps.cut (s := x) (r := r) ?_ ?_; rotate_left; clear_value x; revert x; intro _ _; rotate_left; dsimp -zeta -iota -proj only [x]; clear x) | (clear_value x; revert x; intro _))
    | split | exact KeepsP.keeps (p := (_, _)) (by assumption) | refine KeepsP.of_eq ?_ (by assumption)

theorem Keeps.abandonCmd {s q c b} (h : Keeps r s) : Keeps r (State.abandonCmd s q c b) := by
  generalize hf : @State.abandonCmd = f; delta State.abandonCmd at hf; subst hf; beta_reduce
  with_reducible repeat' first
    | assumption | apply Keeps.abandonReqs

theorem Keeps.sendRemote {s q w o p} (h : Keeps r s) : Keeps r (State.sendRemote s q w o p) := by
  generalize hf : @State.sendRemote = f; delta State.sendRemote at hf; subst hf; beta_reduce
  with_reducible repeat' first
    | assumption | apply Keeps.modReq | apply Keeps.modPort | apply Keeps.sendPacket
    | apply Keeps.ite | (fail_if_no_progress apply Keeps.upd)
    | (refine Keeps.foldl ?_ ?_ _; rotate_left; intros; beta_reduce)
    | (refine KeepsP.foldl ?_ ?_ _; rotate_left; intros; beta_reduce)
    | apply KeepsP.keeps
    | (extract_lets +onlyGivenNames -underBinder x; first | (refine Keeps.cut (s := x) (r := r) ?_ ?_; rotate_left; clear_value x; revert x; intro _ _; rotate_left; dsimp -zeta -iota -proj only [x]; clear x) | (clear_value x; revert x; intro _))
    | split | exact KeepsP.keeps (p := (_, _)) (by assumption) | refine KeepsP.of_eq ?_ (by assumption)

theorem Keeps.notePeer {s q seq win id} (h : Keeps r s) : Keeps r (State.notePeer s q seq win id) := by
  generalize hf : @State.notePeer = f; delta State.notePeer at hf; subst hf; beta_reduce
  with_reducible repeat' first
    | assumption | apply Keeps.modCmd | apply Keeps.ite | (fail_if_no_progress apply Keeps.upd) | apply KeepsP.keeps
    | (extract_lets +onlyGivenNames -underBinder x; clear_value x; revert x; intro _) | split
    | refine KeepsP.of_eq ?_ (by assumption)

/-! ### PowerOps -/

theorem Keeps.clockTarget {r : State} {s : State} {op : Nat} (h : Keeps r s) :
    KeepsP r (State.clockTarget s op) := by
  generalize hf : @State.clockTarget = f; delta State.clockTarget at hf; subst hf; beta_reduce
  repeat' (first | with_reducible assumption  | with_reducible apply Keeps.freeNat | with_reducible apply Keeps.ite | with_reducible apply KeepsP.ite | fail_if_no_progress with_reducible apply Keeps.upd | with_reducible apply KeepsOut.next | exact trivial | with_reducible apply KeepsDid.done | with_reducible apply KeepsDid.raise | with_reducible apply KeepsDid.stall | (with_reducible refine Keeps.foldl ?_ ?_ _; rotate_left; intros; beta_reduce) | (with_reducible refine KeepsP.foldl ?_ ?_ _; rotate_left; intros; beta_reduce) | with_reducible apply KeepsP.keeps | (extract_lets +onlyGivenNames -underBinder x; first | (refine Keeps.cut (r := r) (s := x) ?_ ?_; rotate_left; clear_value x; revert x; intro _ _; rotate_left; dsimp -zeta -iota -proj only [x]; clear x) | (refine KeepsP.cut (r := r) (p := x) ?_ ?_; rotate_left; clear_value x; revert x; intro _ _; rotate_left; dsimp -zeta -iota -proj only [x]; clear x) | clear_value x) | split | exact KeepsP.keeps (p := (_, _)) (by assumption) | (refine KeepsP.of_eq ?_ (by assumption)) | dsimp +zetaDelta -zeta -iota -proj only | with_reducible apply KeepsP.pair)

theorem Keeps.announce {r : State} {s : State} {op : Nat} {mhz : Nat} (h : Keeps r s) :
    Keeps r (State.announce s op mhz) := by
  generalize hf : @State.announce = f; delta State.announce at hf; subst hf; beta_reduce
  repeat' (first | with_reducible assumption  | with_reducible apply Keeps.clockTarget | with_reducible apply Keeps.lanSend | with_reducible apply Keeps.ite | with_reducible apply KeepsP.ite | fail_if_no_progress with_reducible apply Keeps.upd | with_reducible apply KeepsOut.next | exact trivial | with_reducible apply KeepsDid.done | with_reducible apply KeepsDid.raise | with_reducible apply KeepsDid.stall | (with_reducible refine Keeps.foldl ?_ ?_ _; rotate_left; intros; beta_reduce) | (with_reducible refine KeepsP.foldl ?_ ?_ _; rotate_left; intros; beta_reduce) | with_reducible apply KeepsP.keeps | (extract_lets +onlyGivenNames -underBinder x; first | (refine Keeps.cut (r := r) (s := x) ?_ ?_; rotate_left; clear_value x; revert x; intro _ _; rotate_left; dsimp -zeta -iota -proj only [x]; clear x) | (refine KeepsP.cut (r := r) (p := x) ?_ ?_; rotate_left; clear_value x; revert x; intro _ _; rotate_left; dsimp -zeta -iota -proj only [x]; clear x) | clear_value x) | split | exact KeepsP.keeps (p := (_, _)) (by assumption) | (refine KeepsP.of_eq ?_ (by assumption)) | dsimp +zetaDelta -zeta -iota -proj only | with_reducible apply KeepsP.pair)

theorem Keeps.retune {s} (h : Keeps r s) : Keeps r (State.retune s) := by
  generalize hf : @State.retune = f; delta State.retune at hf; subst hf; beta_reduce
  with_reducible repeat' first
    | assumption | apply Keeps.announce | apply Keeps.ite

/-! ### DictOps -/

theorem Keeps.noteStatus {s v st} (h : Keeps r s) : Keeps r (State.noteStatus s v st) := by
  generalize hf : @State.noteStatus = f; delta State.noteStatus at hf; subst hf; beta_reduce
  with_reducible repeat' first
    | assumption | apply Keeps.ite | (fail_if_no_progress apply Keeps.upd)

theorem Keeps.readRecord {s addr n} (h : Keeps r s) : Keeps r (State.readRecord s addr n) := by
  generalize hf : @State.readRecord = f; delta State.readRecord at hf; subst hf; beta_reduce
  with_reducible repeat' first
    | assumption | apply Keeps.send

theorem Keeps.guardWrite {r s : State} {v : Via} {eth expert : Bool} {act : Act} (h : Keeps r s)
    (ha : ∀ s, Keeps r s → KeepsP r (act s)) : KeepsP r (s.guardWrite v eth expert act) :=
  KeepsP.ite ⟨h⟩ (KeepsP.ite ⟨h⟩ (ha s h))

theorem Keeps.objWrite {r s : State} {v : Via} {eth expert : Bool} {act : Act} (h : Keeps r s)
    (ha : ∀ s, Keeps r s → KeepsP r (act s)) : Keeps r (s.objWrite v eth expert act) := by
  unfold State.objWrite
  refine Keeps.ite ?_ h
  split
  exact Keeps.noteStatus (KeepsP.of_eq (Keeps.guardWrite h ha) (by assumption))

/-! ### FrameOps -/

theorem Keeps.factor {s measured modelled} (h : Keeps r s) : KeepsP r (State.factor s measured modelled) := by
  generalize hf : @State.factor = f; delta State.factor at hf; subst hf; beta_reduce
  with_reducible repeat' first
    | assumption | apply Keeps.freeNat | apply Keeps.ite | apply KeepsP.ite | apply KeepsP.keeps
    | (extract_lets +onlyGivenNames -underBinder x; clear_value x; revert x; intro _) | split
    | refine KeepsP.of_eq ?_ (by assumption) | apply KeepsP.pair

theorem Keeps.scaleFactors {r s : State} {m : Measured} (h : Keeps r s) : Keeps r (s.scaleFactors m) := by
  unfold State.scaleFactors
  generalize hx : List.foldl _ _ _ = x
  have hk : Keeps r x.1 := by
    rw [← hx]
    refine Keeps.foldlFst h (fun a d ha => ?_) _
    split
    split
    next e => exact KeepsP.of_eq (Keeps.factor ha) e
  clear hx
  obtain ⟨s', t, bits⟩ := x
  exact Keeps.ite (Keeps.upd hk) (Keeps.event (Keeps.upd hk))

theorem Keeps.settleBight {s b length} (h : Keeps r s) : Keeps r (State.settleBight s b length) := by
  generalize hf : @State.settleBight = f; delta State.settleBight at hf; subst hf; beta_reduce
  with_reducible repeat' first
    | assumption | apply Keeps.setBight | apply Keeps.modQueue | apply Keeps.ite
    | (fail_if_no_progress apply Keeps.upd) | (refine Keeps.foldl ?_ ?_ _; rotate_left; intros; beta_reduce)
    | (refine KeepsP.foldl ?_ ?_ _; rotate_left; intros; beta_reduce)
    | (extract_lets +onlyGivenNames -underBinder x; first | (refine Keeps.cut (s := x) (r := r) ?_ ?_; rotate_left; clear_value x; revert x; intro _ _; rotate_left; dsimp -zeta -iota -proj only [x]; clear x) | (clear_value x; revert x; intro _))
    | split | exact KeepsP.keeps (p := (_, _)) (by assumption) | refine KeepsP.of_eq ?_ (by assumption)

theorem Keeps.settleFrame {s m length} (h : Keeps r s) : Keeps r (State.settleFrame s m length) := by
  generalize hf : @State.settleFrame = f; delta State.settleFrame at hf; subst hf; beta_reduce
  with_reducible repeat' first
    | assumption | apply Keeps.scaleFactors | apply Keeps.settleBight | apply Keeps.ite
    | (fail_if_no_progress apply Keeps.upd) | (refine Keeps.foldl ?_ ?_ _; rotate_left; intros; beta_reduce)
    | (refine KeepsP.foldl ?_ ?_ _; rotate_left; intros; beta_reduce)
    | (extract_lets +onlyGivenNames -underBinder x; first | (refine Keeps.cut (s := x) (r := r) ?_ ?_; rotate_left; clear_value x; revert x; intro _ _; rotate_left; dsimp -zeta -iota -proj only [x]; clear x) | (clear_value x; revert x; intro _))
    | split | exact KeepsP.keeps (p := (_, _)) (by assumption) | refine KeepsP.of_eq ?_ (by assumption)

theorem Keeps.wakeMembers {s b} (h : Keeps r s) : Keeps r (State.wakeMembers s b) := by
  generalize hf : @State.wakeMembers = f; delta State.wakeMembers at hf; subst hf; beta_reduce
  with_reducible repeat' first
    | assumption | apply Keeps.reqDom | apply Keeps.modBight
    | apply Keeps.ite | (fail_if_no_progress apply Keeps.upd)
    | (refine Keeps.foldl ?_ ?_ _; rotate_left; intros; beta_reduce)
    | (refine KeepsP.foldl ?_ ?_ _; rotate_left; intros; beta_reduce)
    | (extract_lets +onlyGivenNames -underBinder x; first | (refine Keeps.cut (s := x) (r := r) ?_ ?_; rotate_left; clear_value x; revert x; intro _ _; rotate_left; dsimp -zeta -iota -proj only [x]; clear x) | (clear_value x; revert x; intro _))
    | split | exact KeepsP.keeps (p := (_, _)) (by assumption) | refine KeepsP.of_eq ?_ (by assumption)

theorem Keeps.applyWrites {s} (h : Keeps r s) : Keeps r (State.applyWrites s) := by
  generalize hf : @State.applyWrites = f; delta State.applyWrites at hf; subst hf; beta_reduce
  with_reducible repeat' first
    | assumption | apply Keeps.wakeMembers | apply Keeps.modBight | apply Keeps.setBight | apply Keeps.ite | (fail_if_no_progress apply Keeps.upd)
    | (refine Keeps.foldl ?_ ?_ _; rotate_left; intros; beta_reduce)
    | (refine KeepsP.foldl ?_ ?_ _; rotate_left; intros; beta_reduce)
    | (extract_lets +onlyGivenNames -underBinder x; first | (refine Keeps.cut (s := x) (r := r) ?_ ?_; rotate_left; clear_value x; revert x; intro _ _; rotate_left; dsimp -zeta -iota -proj only [x]; clear x) | (clear_value x; revert x; intro _))
    | split | exact KeepsP.keeps (p := (_, _)) (by assumption) | refine KeepsP.of_eq ?_ (by assumption)

theorem Keeps.effectiveGrants {s} (h : Keeps r s) : Keeps r (State.effectiveGrants s) := by
  generalize hf : @State.effectiveGrants = f; delta State.effectiveGrants at hf; subst hf; beta_reduce
  with_reducible repeat' first
    | assumption | apply Keeps.modBight | apply Keeps.ite | (fail_if_no_progress apply Keeps.upd)
    | (refine Keeps.foldl ?_ ?_ _; rotate_left; intros; beta_reduce)
    | (extract_lets +onlyGivenNames -underBinder x; first | (refine Keeps.cut (s := x) (r := r) ?_ ?_; rotate_left; clear_value x; revert x; intro _ _; rotate_left; dsimp -zeta -iota -proj only [x]; clear x) | (clear_value x; revert x; intro _))

theorem Keeps.paceAct {s i} (h : Keeps r s) : Keeps r (State.paceAct s i) := by
  generalize hf : @State.paceAct = f; delta State.paceAct at hf; subst hf; beta_reduce
  with_reducible repeat' first
    | assumption | apply Keeps.setPace | apply Keeps.ite | (fail_if_no_progress apply Keeps.upd)
    | (extract_lets +onlyGivenNames -underBinder x; clear_value x; revert x; intro _)

theorem Keeps.paceAtPort {s p number member m} (h : Keeps r s) : Keeps r (State.paceAtPort s p number member m) := by
  generalize hf : @State.paceAtPort = f; delta State.paceAtPort at hf; subst hf; beta_reduce
  with_reducible repeat' first
    | assumption | apply Keeps.sendPacket
    | apply Keeps.ite | (fail_if_no_progress apply Keeps.upd)
    | (extract_lets +onlyGivenNames -underBinder x; first | (refine Keeps.cut (s := x) (r := r) ?_ ?_; rotate_left; clear_value x; revert x; intro _ _; rotate_left; dsimp -zeta -iota -proj only [x]; clear x) | (clear_value x; revert x; intro _))
    | split | exact KeepsP.keeps (p := (_, _)) (by assumption) | refine KeepsP.of_eq ?_ (by assumption)

theorem Keeps.pacePackets {s i x' rate} (h : Keeps r s) : Keeps r (State.pacePackets s i x' rate) := by
  generalize hf : @State.pacePackets = f; delta State.pacePackets at hf; subst hf; beta_reduce
  with_reducible repeat' first
    | assumption | apply Keeps.paceAtPort | apply Keeps.lanCarry | apply Keeps.freeNat | apply Keeps.sendPacket | (fail_if_no_progress apply Keeps.upd)
    | (refine Keeps.foldl ?_ ?_ _; rotate_left; intros; beta_reduce)
    | (refine KeepsP.foldl ?_ ?_ _; rotate_left; intros; beta_reduce)
    | (extract_lets +onlyGivenNames -underBinder x; first | (refine Keeps.cut (s := x) (r := r) ?_ ?_; rotate_left; clear_value x; revert x; intro _ _; rotate_left; dsimp -zeta -iota -proj only [x]; clear x) | (clear_value x; revert x; intro _)) | split
    | exact KeepsP.keeps (p := (_, _)) (by assumption) | refine KeepsP.of_eq ?_ (by assumption)

theorem Keeps.paceSend {s i} (h : Keeps r s) : Keeps r (State.paceSend s i) := by
  generalize hf : @State.paceSend = f; delta State.paceSend at hf; subst hf; beta_reduce
  with_reducible repeat' first
    | assumption | apply Keeps.pacePackets | apply Keeps.setPace | apply Keeps.ite
    | (fail_if_no_progress apply Keeps.upd)
    | (extract_lets +onlyGivenNames -underBinder x; first | (refine Keeps.cut (s := x) (r := r) ?_ ?_; rotate_left; clear_value x; revert x; intro _ _; rotate_left; dsimp -zeta -iota -proj only [x]; clear x) | (clear_value x; revert x; intro _))
    | split | refine KeepsP.of_eq ?_ (by assumption)

theorem Keeps.paceBoundary {s} (h : Keeps r s) : Keeps r (State.paceBoundary s) := by
  generalize hf : @State.paceBoundary = f; delta State.paceBoundary at hf; subst hf; beta_reduce
  with_reducible repeat' first
    | assumption | apply Keeps.paceAct | apply Keeps.paceSend
    | (refine Keeps.foldl ?_ ?_ _; rotate_left; intros; beta_reduce)
    | (extract_lets +onlyGivenNames -underBinder x; first | (refine Keeps.cut (s := x) (r := r) ?_ ?_; rotate_left; clear_value x; revert x; intro _ _; rotate_left; dsimp -zeta -iota -proj only [x]; clear x) | (clear_value x; revert x; intro _))

theorem Keeps.enterFreeRun {s} (h : Keeps r s) : Keeps r (State.enterFreeRun s) := by
  generalize hf : @State.enterFreeRun = f; delta State.enterFreeRun at hf; subst hf; beta_reduce
  with_reducible repeat' first
    | assumption | apply Keeps.moduleEvent | apply Keeps.event | (fail_if_no_progress apply Keeps.upd)
    | (extract_lets +onlyGivenNames -underBinder x; clear_value x; revert x; intro _)

theorem Keeps.powerFrame {s} (h : Keeps r s) : Keeps r (State.powerFrame s) := by
  generalize hf : @State.powerFrame = f; delta State.powerFrame at hf; subst hf; beta_reduce
  with_reducible repeat' first
    | assumption | apply Keeps.ite | (fail_if_no_progress apply Keeps.upd)
    | (extract_lets +onlyGivenNames -underBinder x; clear_value x; revert x; intro _) | split
    | refine KeepsP.of_eq ?_ (by assumption)

theorem Keeps.boundary {s m entry} (h : Keeps r s) : Keeps r (State.boundary s m entry) := by
  generalize hf : @State.boundary = f; delta State.boundary at hf; subst hf; beta_reduce
  with_reducible repeat' first
    | assumption | apply Keeps.enterFreeRun | apply Keeps.retune | apply Keeps.paceBoundary
    | apply Keeps.effectiveGrants | apply Keeps.applyWrites | apply Keeps.powerFrame | apply Keeps.settleFrame
    | apply Keeps.ite | (fail_if_no_progress apply Keeps.upd)
    | (extract_lets +onlyGivenNames -underBinder x; first | (refine Keeps.cut (s := x) (r := r) ?_ ?_; rotate_left; clear_value x; revert x; intro _ _; rotate_left; dsimp -zeta -iota -proj only [x]; clear x) | (clear_value x; revert x; intro _))

theorem Keeps.noteEdge {s} (h : Keeps r s) : Keeps r (State.noteEdge s) := by
  generalize hf : @State.noteEdge = f; delta State.noteEdge at hf; subst hf; beta_reduce
  with_reducible repeat' first
    | assumption | (fail_if_no_progress apply Keeps.upd)

/-! ### ReqOps -/

theorem Keeps.landPhys {s q a} (h : Keeps r s) : KeepsP r (State.landPhys s q a) := by
  generalize hf : @State.landPhys = f; delta State.landPhys at hf; subst hf; beta_reduce
  with_reducible repeat' first
    | assumption | apply Keeps.gateReq | apply Keeps.wakeStack | apply Keeps.physWrite | apply Keeps.physRead
    | apply Keeps.ite | apply KeepsP.ite | (fail_if_no_progress apply Keeps.upd)
    | (refine Keeps.foldl ?_ ?_ _; rotate_left; intros; beta_reduce)
    | (refine KeepsP.foldl ?_ ?_ _; rotate_left; intros; beta_reduce)
    | apply KeepsP.keeps
    | (extract_lets +onlyGivenNames -underBinder x; first | (refine Keeps.cut (s := x) (r := r) ?_ ?_; rotate_left; clear_value x; revert x; intro _ _; rotate_left; dsimp -zeta -iota -proj only [x]; clear x) | (clear_value x; revert x; intro _))
    | split | exact KeepsP.keeps (p := (_, _)) (by assumption) | refine KeepsP.of_eq ?_ (by assumption) | apply KeepsP.pair

theorem Keeps.landHost {s q fn p a} (h : Keeps r s) : KeepsP r (State.landHost s q fn p a) := by
  generalize hf : @State.landHost = f; delta State.landHost at hf; subst hf; beta_reduce
  with_reducible repeat' first
    | assumption | apply Keeps.hostWriteVia | apply Keeps.send
    | apply Keeps.ite | apply KeepsP.ite | (fail_if_no_progress apply Keeps.upd)
    | (refine Keeps.foldl ?_ ?_ _; rotate_left; intros; beta_reduce)
    | (refine KeepsP.foldl ?_ ?_ _; rotate_left; intros; beta_reduce)
    | apply KeepsP.keeps
    | (extract_lets +onlyGivenNames -underBinder x; first | (refine Keeps.cut (s := x) (r := r) ?_ ?_; rotate_left; clear_value x; revert x; intro _ _; rotate_left; dsimp -zeta -iota -proj only [x]; clear x) | (clear_value x; revert x; intro _))
    | split | exact KeepsP.keeps (p := (_, _)) (by assumption) | refine KeepsP.of_eq ?_ (by assumption) | apply KeepsP.pair

theorem Keeps.faultRemote {r : State} {s : State} {r' : Req} {off : Nat} (h : Keeps r s) :
    KeepsP r (State.faultRemote s r' off) := by
  generalize hf : @State.faultRemote = f; delta State.faultRemote at hf; subst hf; beta_reduce
  repeat' (first | with_reducible assumption  | with_reducible apply Keeps.faultFor | with_reducible apply Keeps.dropReq | with_reducible apply Keeps.modCmd | with_reducible apply Keeps.modReq | with_reducible apply Keeps.modCore | with_reducible apply Keeps.ite | with_reducible apply KeepsP.ite | fail_if_no_progress with_reducible apply Keeps.upd | with_reducible apply KeepsOut.next | exact trivial | with_reducible apply KeepsDid.done | with_reducible apply KeepsDid.raise | with_reducible apply KeepsDid.stall | (with_reducible refine Keeps.foldl ?_ ?_ _; rotate_left; intros; beta_reduce) | (with_reducible refine KeepsP.foldl ?_ ?_ _; rotate_left; intros; beta_reduce) | with_reducible apply KeepsP.keeps | (extract_lets +onlyGivenNames -underBinder x; first | (refine Keeps.cut (r := r) (s := x) ?_ ?_; rotate_left; clear_value x; revert x; intro _ _; rotate_left; dsimp -zeta -iota -proj only [x]; clear x) | (refine KeepsP.cut (r := r) (p := x) ?_ ?_; rotate_left; clear_value x; revert x; intro _ _; rotate_left; dsimp -zeta -iota -proj only [x]; clear x) | clear_value x) | split | exact KeepsP.keeps (p := (_, _)) (by assumption) | (refine KeepsP.of_eq ?_ (by assumption)) | dsimp +zetaDelta -zeta -iota -proj only | with_reducible apply KeepsP.pair)

theorem Keeps.landRemote {s q w o} (h : Keeps r s) : KeepsP r (State.landRemote s q w o) := by
  generalize hf : @State.landRemote = f; delta State.landRemote at hf; subst hf; beta_reduce
  with_reducible repeat' first
    | assumption | apply Keeps.faultRemote | apply Keeps.sendRemote | apply Keeps.notePeer
    | apply Keeps.ite | apply KeepsP.ite | (fail_if_no_progress apply Keeps.upd)
    | (refine Keeps.foldl ?_ ?_ _; rotate_left; intros; beta_reduce)
    | (refine KeepsP.foldl ?_ ?_ _; rotate_left; intros; beta_reduce)
    | apply KeepsP.keeps
    | (extract_lets +onlyGivenNames -underBinder x; first | (refine Keeps.cut (s := x) (r := r) ?_ ?_; rotate_left; clear_value x; revert x; intro _ _; rotate_left; dsimp -zeta -iota -proj only [x]; clear x) | (clear_value x; revert x; intro _))
    | split | exact KeepsP.keeps (p := (_, _)) (by assumption) | refine KeepsP.of_eq ?_ (by assumption) | apply KeepsP.pair

theorem Keeps.land {s q} (h : Keeps r s) : KeepsP r (State.land s q) := by
  generalize hf : @State.land = f; delta State.land at hf; subst hf; beta_reduce
  with_reducible repeat' first
    | assumption | apply Keeps.landPhys | apply Keeps.landHost | apply Keeps.landRemote
    | apply Keeps.ite | apply KeepsP.ite | (fail_if_no_progress apply Keeps.upd)
    | (refine Keeps.foldl ?_ ?_ _; rotate_left; intros; beta_reduce)
    | (refine KeepsP.foldl ?_ ?_ _; rotate_left; intros; beta_reduce)
    | apply KeepsP.keeps
    | (extract_lets +onlyGivenNames -underBinder x; first | (refine Keeps.cut (s := x) (r := r) ?_ ?_; rotate_left; clear_value x; revert x; intro _ _; rotate_left; dsimp -zeta -iota -proj only [x]; clear x) | (clear_value x; revert x; intro _))
    | split | exact KeepsP.keeps (p := (_, _)) (by assumption) | refine KeepsP.of_eq ?_ (by assumption) | apply KeepsP.pair

theorem Keeps.startAccess {s a d} (h : Keeps r s) : KeepsP r (State.startAccess s a d) := by
  generalize hf : @State.startAccess = f; delta State.startAccess at hf; subst hf; beta_reduce
  have hc0 := @Keeps.addReq r; obtain ⟨g, hg⟩ : ∃ g, g = @State.addReq := ⟨_, rfl⟩; rw [← hg] at hc0 ⊢; clear hg
  with_reducible repeat' first
    | assumption | apply hc0 | apply Keeps.sendVec | apply Keeps.refKey | apply Keeps.land | apply Keeps.settle
    | apply Keeps.ite | apply KeepsP.ite | (fail_if_no_progress apply Keeps.upd) | apply KeepsP.keeps
    | (extract_lets +onlyGivenNames -underBinder x; first | (refine Keeps.cut (s := x) (r := r) ?_ ?_; rotate_left; clear_value x; revert x; intro _ _; rotate_left; dsimp -zeta -iota -proj only [x]; clear x) | (refine KeepsP.cut (p := x) (r := r) ?_ ?_; rotate_left; clear_value x; revert x; intro _ _; rotate_left; dsimp -zeta -iota -proj only [x]; clear x) | (clear_value x; revert x; intro _))
    | split | exact KeepsP.keeps (p := (_, _)) (by assumption) | refine KeepsP.of_eq ?_ (by assumption)
    | dsimp +zetaDelta -zeta -iota -proj only | apply KeepsP.pair

/-! ### CircuitOps -/

theorem Keeps.setCircuits {s cs} (h : Keeps r s) : Keeps r (State.setCircuits s cs) := by
  generalize hf : @State.setCircuits = f; delta State.setCircuits at hf; subst hf; beta_reduce
  with_reducible repeat' first
    | assumption | (fail_if_no_progress apply Keeps.upd)

theorem Keeps.addWalkers {s halves groups} (h : Keeps r s) : Keeps r (State.addWalkers s halves groups) := by
  generalize hf : @State.addWalkers = f; delta State.addWalkers at hf; subst hf; beta_reduce
  with_reducible repeat' first
    | assumption | apply Keeps.setCircuits | apply KeepsP.keeps

theorem Keeps.dropWalkers {s halves groups} (h : Keeps r s) : Keeps r (State.dropWalkers s halves groups) := by
  generalize hf : @State.dropWalkers = f; delta State.dropWalkers at hf; subst hf; beta_reduce
  with_reducible repeat' first
    | assumption | apply Keeps.setCircuits

theorem Keeps.relayCrossing {s h'} (h : Keeps r s) : Keeps r (State.relayCrossing s h') := by
  generalize hf : @State.relayCrossing = f; delta State.relayCrossing at hf; subst hf; beta_reduce
  with_reducible repeat' first
    | assumption | apply Keeps.ite | (fail_if_no_progress apply Keeps.upd)
    | (refine Keeps.foldl ?_ ?_ _; rotate_left; intros; beta_reduce)
    | (refine KeepsP.foldl ?_ ?_ _; rotate_left; intros; beta_reduce) | apply KeepsP.keeps
    | (extract_lets +onlyGivenNames -underBinder x; clear_value x; revert x; intro _) | split
    | exact KeepsP.keeps (p := (_, _)) (by assumption) | refine KeepsP.of_eq ?_ (by assumption)

/-! ### DomainOps -/

theorem Keeps.drive {s i x'} (h : Keeps r s) : Keeps r (State.drive s i x') := by
  generalize hf : @State.drive = f; delta State.drive at hf; subst hf; beta_reduce
  with_reducible repeat' first
    | assumption | apply Keeps.reqDom | apply Keeps.ite

theorem Keeps.driveNeeds {s} (h : Keeps r s) : Keeps r (State.driveNeeds s) := by
  generalize hf : @State.driveNeeds = f; delta State.driveNeeds at hf; subst hf; beta_reduce
  with_reducible repeat' first
    | assumption | apply Keeps.drive | apply Keeps.ite | (fail_if_no_progress apply Keeps.upd)
    | (refine Keeps.foldl ?_ ?_ _; rotate_left; intros; beta_reduce)
    | (refine KeepsP.foldl ?_ ?_ _; rotate_left; intros; beta_reduce)
    | (extract_lets +onlyGivenNames -underBinder x; first | (refine Keeps.cut (s := x) (r := r) ?_ ?_; rotate_left; clear_value x; revert x; intro _ _; rotate_left; dsimp -zeta -iota -proj only [x]; clear x) | (clear_value x; revert x; intro _))
    | split | exact KeepsP.keeps (p := (_, _)) (by assumption) | refine KeepsP.of_eq ?_ (by assumption)

theorem Keeps.loseCompute {s c} (h : Keeps r s) : Keeps r (State.loseCompute s c) := by
  generalize hf : @State.loseCompute = f; delta State.loseCompute at hf; subst hf; beta_reduce
  with_reducible repeat' first
    | assumption | apply Keeps.setCore | apply Keeps.setEngine
    | (refine Keeps.foldl ?_ ?_ _; rotate_left; intros; beta_reduce)

theorem Keeps.clusterReached {s c from' into} (h : Keeps r s) : Keeps r (State.clusterReached s c from' into) := by
  generalize hf : @State.clusterReached = f; delta State.clusterReached at hf; subst hf; beta_reduce
  with_reducible repeat' first
    | assumption | apply Keeps.applyFuses | apply Keeps.loseCompute | apply Keeps.loseCluster | apply Keeps.clearCluster | apply Keeps.disarm
    | apply Keeps.ite | (fail_if_no_progress apply Keeps.upd)
    | (extract_lets +onlyGivenNames -underBinder x; first | (refine Keeps.cut (s := x) (r := r) ?_ ?_; rotate_left; clear_value x; revert x; intro _ _; rotate_left; dsimp -zeta -iota -proj only [x]; clear x) | (clear_value x; revert x; intro _))
    | split | refine KeepsP.of_eq ?_ (by assumption)

theorem Keeps.dropOwnWrites {r : State} {s : State} {st : Nat} (h : Keeps r s) :
    Keeps r (State.dropOwnWrites s st) := by
  generalize hf : @State.dropOwnWrites = f; delta State.dropOwnWrites at hf; subst hf; beta_reduce
  repeat' (first | with_reducible assumption  | with_reducible apply Keeps.ungate | with_reducible apply Keeps.ite | with_reducible apply KeepsP.ite | fail_if_no_progress with_reducible apply Keeps.upd | with_reducible apply KeepsOut.next | exact trivial | with_reducible apply KeepsDid.done | with_reducible apply KeepsDid.raise | with_reducible apply KeepsDid.stall | (with_reducible refine Keeps.foldl ?_ ?_ _; rotate_left; intros; beta_reduce) | (with_reducible refine KeepsP.foldl ?_ ?_ _; rotate_left; intros; beta_reduce) | with_reducible apply KeepsP.keeps | (extract_lets +onlyGivenNames -underBinder x; first | (refine Keeps.cut (r := r) (s := x) ?_ ?_; rotate_left; clear_value x; revert x; intro _ _; rotate_left; dsimp -zeta -iota -proj only [x]; clear x) | (refine KeepsP.cut (r := r) (p := x) ?_ ?_; rotate_left; clear_value x; revert x; intro _ _; rotate_left; dsimp -zeta -iota -proj only [x]; clear x) | clear_value x) | split | exact KeepsP.keeps (p := (_, _)) (by assumption) | (refine KeepsP.of_eq ?_ (by assumption)) | dsimp +zetaDelta -zeta -iota -proj only | with_reducible apply KeepsP.pair)

theorem Keeps.stackReached {s st from' into trained} (h : Keeps r s) :
    Keeps r (State.stackReached s st from' into trained) := by
  generalize hf : @State.stackReached = f; delta State.stackReached at hf; subst hf; beta_reduce
  with_reducible repeat' first
    | assumption | apply Keeps.dropOwnWrites | apply Keeps.pinCaches | apply Keeps.dropWalkers | apply Keeps.clearStack | apply Keeps.addWalkers | apply Keeps.event
    | apply Keeps.ite | (fail_if_no_progress apply Keeps.upd)

theorem Keeps.halfReached {s h' into} (h : Keeps r s) : Keeps r (State.halfReached s h' into) := by
  generalize hf : @State.halfReached = f; delta State.halfReached at hf; subst hf; beta_reduce
  with_reducible repeat' first
    | assumption | apply Keeps.addWalkers | apply Keeps.setCircuits | apply Keeps.dropWalkers | apply Keeps.ite
    | (fail_if_no_progress apply Keeps.upd) | apply KeepsP.keeps
    | (extract_lets +onlyGivenNames -underBinder x; first | (refine Keeps.cut (s := x) (r := r) ?_ ?_; rotate_left; clear_value x; revert x; intro _ _; rotate_left; dsimp -zeta -iota -proj only [x]; clear x) | (clear_value x; revert x; intro _))
    | split | refine KeepsP.of_eq ?_ (by assumption)

theorem Keeps.dieReached {s d into} (h : Keeps r s) : Keeps r (State.dieReached s d into) := by
  generalize hf : @State.dieReached = f; delta State.dieReached at hf; subst hf; beta_reduce
  with_reducible repeat' first
    | assumption | apply Keeps.ite | (fail_if_no_progress apply Keeps.upd)

theorem Keeps.domReached {s i from' into trained} (h : Keeps r s) :
    Keeps r (State.domReached s i from' into trained) := by
  generalize hf : @State.domReached = f; delta State.domReached at hf; subst hf; beta_reduce
  with_reducible repeat' first
    | assumption | apply Keeps.clusterReached | apply Keeps.stackReached | apply Keeps.halfReached
    | apply Keeps.startTraining | apply Keeps.portOff | apply Keeps.dieReached | apply Keeps.ite
    | (fail_if_no_progress apply Keeps.upd) | split | refine KeepsP.of_eq ?_ (by assumption)

theorem Keeps.portStop {r : State} {s : State} {i : Nat} (h : Keeps r s) :
    Keeps r (State.portStop s i) := by
  generalize hf : @State.portStop = f; delta State.portStop at hf; subst hf; beta_reduce
  repeat' (first | with_reducible assumption  | with_reducible apply Keeps.loseRequests | with_reducible apply Keeps.modPort | with_reducible apply Keeps.ite | with_reducible apply KeepsP.ite | fail_if_no_progress with_reducible apply Keeps.upd | with_reducible apply KeepsOut.next | exact trivial | with_reducible apply KeepsDid.done | with_reducible apply KeepsDid.raise | with_reducible apply KeepsDid.stall | (with_reducible refine Keeps.foldl ?_ ?_ _; rotate_left; intros; beta_reduce) | (with_reducible refine KeepsP.foldl ?_ ?_ _; rotate_left; intros; beta_reduce) | with_reducible apply KeepsP.keeps | (extract_lets +onlyGivenNames -underBinder x; first | (refine Keeps.cut (r := r) (s := x) ?_ ?_; rotate_left; clear_value x; revert x; intro _ _; rotate_left; dsimp -zeta -iota -proj only [x]; clear x) | (refine KeepsP.cut (r := r) (p := x) ?_ ?_; rotate_left; clear_value x; revert x; intro _ _; rotate_left; dsimp -zeta -iota -proj only [x]; clear x) | clear_value x) | split | exact KeepsP.keeps (p := (_, _)) (by assumption) | (refine KeepsP.of_eq ?_ (by assumption)) | dsimp +zetaDelta -zeta -iota -proj only | with_reducible apply KeepsP.pair)

theorem Keeps.domDone {s i trained} (h : Keeps r s) : Keeps r (State.domDone s i trained) := by
  generalize hf : @State.domDone = f; delta State.domDone at hf; subst hf; beta_reduce
  with_reducible repeat' first
    | assumption | apply Keeps.domainMsg | apply Keeps.setDomain | apply Keeps.domReached | apply Keeps.reqDom | apply Keeps.driveNeeds
    | apply Keeps.ite | (fail_if_no_progress apply Keeps.upd)
    | (extract_lets +onlyGivenNames -underBinder x; first | (refine Keeps.cut (s := x) (r := r) ?_ ?_; rotate_left; clear_value x; revert x; intro _ _; rotate_left; dsimp -zeta -iota -proj only [x]; clear x) | (clear_value x; revert x; intro _))
    | split | refine KeepsP.of_eq ?_ (by assumption)

theorem Keeps.settleCluster {s c} (h : Keeps r s) : Keeps r (State.settleCluster s c) := by
  generalize hf : @State.settleCluster = f; delta State.settleCluster at hf; subst hf; beta_reduce
  with_reducible repeat' first
    | assumption | apply Keeps.drive | apply Keeps.reqDom | apply Keeps.ite

/-! ### MeshOps -/

theorem Keeps.schedFault {s b r' sub entry} (h : Keeps r s) : Keeps r (State.schedFault s b r' sub entry) := by
  generalize hf : @State.schedFault = f; delta State.schedFault at hf; subst hf; beta_reduce
  with_reducible repeat' first
    | assumption | apply Keeps.lanSend

theorem Keeps.deadLetterMsg {s b kind handle r' entry reason} (h : Keeps r s) :
    Keeps r (State.deadLetterMsg s b kind handle r' entry reason) := by
  generalize hf : @State.deadLetterMsg = f; delta State.deadLetterMsg at hf; subst hf; beta_reduce
  with_reducible repeat' first
    | assumption | apply Keeps.lanSend | apply Keeps.modRouter | (fail_if_no_progress apply Keeps.upd)

theorem Keeps.takeData {s r' src inj} (h : Keeps r s) : KeepsP r (State.takeData s r' src inj) := by
  generalize hf : @State.takeData = f; delta State.takeData at hf; subst hf; beta_reduce
  with_reducible repeat' first
    | assumption | apply Keeps.modCore | apply Keeps.modRouter | apply KeepsP.ite
    | (fail_if_no_progress apply Keeps.upd) | apply KeepsP.pair

theorem Keeps.takeCredit {s r' src cri} (h : Keeps r s) : KeepsP r (State.takeCredit s r' src cri) := by
  generalize hf : @State.takeCredit = f; delta State.takeCredit at hf; subst hf; beta_reduce
  with_reducible repeat' first
    | assumption | apply Keeps.modCore | apply Keeps.modRouter | apply Keeps.ite | apply KeepsP.ite
    | (fail_if_no_progress apply Keeps.upd) | apply KeepsP.keeps
    | (extract_lets +onlyGivenNames -underBinder x; clear_value x; revert x; intro _) | apply KeepsP.pair

theorem Keeps.putFlight {s b r' out v credit} (h : Keeps r s) : Keeps r (State.putFlight s b r' out v credit) := by
  generalize hf : @State.putFlight = f; delta State.putFlight at hf; subst hf; beta_reduce
  with_reducible repeat' first
    | assumption | apply Keeps.activity | apply Keeps.ite | (fail_if_no_progress apply Keeps.upd)
    | (extract_lets +onlyGivenNames -underBinder x; first | (refine Keeps.cut (s := x) (r := r) ?_ ?_; rotate_left; clear_value x; revert x; intro _ _; rotate_left; dsimp -zeta -iota -proj only [x]; clear x) | (clear_value x; revert x; intro _))
    | split | refine KeepsP.of_eq ?_ (by assumption)

theorem Keeps.ejectVec {s b r' h' entry v} (h : Keeps r s) : Keeps r (State.ejectVec s b r' h' entry v) := by
  generalize hf : @State.ejectVec = f; delta State.ejectVec at hf; subst hf; beta_reduce
  with_reducible repeat' first
    | assumption | apply Keeps.modCore | apply Keeps.deadLetterMsg | apply Keeps.schedFault | apply Keeps.modRouter
    | apply Keeps.ite | (fail_if_no_progress apply Keeps.upd)
    | (extract_lets +onlyGivenNames -underBinder x; clear_value x; revert x; intro _) | split
    | refine KeepsP.of_eq ?_ (by assumption)

theorem Keeps.driveOut {s b r' e o} (h : Keeps r s) : Keeps r (State.driveOut s b r' e o) := by
  generalize hf : @State.driveOut = f; delta State.driveOut at hf; subst hf; beta_reduce
  with_reducible repeat' first
    | assumption | apply Keeps.takeData | apply Keeps.putFlight | apply Keeps.takeCredit | apply Keeps.ite
    | (fail_if_no_progress apply Keeps.upd)
    | (extract_lets +onlyGivenNames -underBinder x; first | (refine Keeps.cut (s := x) (r := r) ?_ ?_; rotate_left; clear_value x; revert x; intro _ _; rotate_left; dsimp -zeta -iota -proj only [x]; clear x) | (clear_value x; revert x; intro _))
    | split | refine KeepsP.of_eq ?_ (by assumption)

theorem Keeps.useEntry {s b r' i e} (h : Keeps r s) : Keeps r (State.useEntry s b r' i e) := by
  generalize hf : @State.useEntry = f; delta State.useEntry at hf; subst hf; beta_reduce
  with_reducible repeat' first
    | assumption | apply Keeps.driveOut | apply Keeps.takeData | apply Keeps.ejectVec | apply Keeps.takeCredit
    | apply Keeps.modCore | apply Keeps.ite | (fail_if_no_progress apply Keeps.upd)
    | (refine Keeps.foldl ?_ ?_ _; rotate_left; intros; beta_reduce)
    | (refine KeepsP.foldl ?_ ?_ _; rotate_left; intros; beta_reduce)
    | (extract_lets +onlyGivenNames -underBinder x; first | (refine Keeps.cut (s := x) (r := r) ?_ ?_; rotate_left; clear_value x; revert x; intro _ _; rotate_left; dsimp -zeta -iota -proj only [x]; clear x) | (clear_value x; revert x; intro _))
    | split | exact KeepsP.keeps (p := (_, _)) (by assumption) | refine KeepsP.of_eq ?_ (by assumption)

theorem Keeps.routerCycle {s b r'} (h : Keeps r s) : Keeps r (State.routerCycle s b r') := by
  generalize hf : @State.routerCycle = f; delta State.routerCycle at hf; subst hf; beta_reduce
  with_reducible repeat' first
    | assumption | apply Keeps.schedFault | apply Keeps.setRouter | apply Keeps.useEntry | apply Keeps.ite
    | (fail_if_no_progress apply Keeps.upd)
    | (extract_lets +onlyGivenNames -underBinder x; clear_value x; revert x; intro _) | split
    | refine KeepsP.of_eq ?_ (by assumption)

end Sys2Proof.Machine
end

