-- ==== Sys2Proof/Laws/KeepsCompute.lean ====
section
/-! SUPPORT. The operations of lash, commit and launch keep what `Keeps` says. -/

set_option linter.all false

namespace Sys2Proof.Machine

variable {r : State}

/-! ### MeshOps -/

theorem Keeps.deliverFlight {s f} (h : Keeps r s) : Keeps r (State.deliverFlight s f) := by
  generalize hf : @State.deliverFlight = f; delta State.deliverFlight at hf; subst hf; beta_reduce
  with_reducible repeat' first
    | assumption | apply Keeps.setRouter | apply Keeps.schedFault | apply Keeps.ite
    | (fail_if_no_progress apply Keeps.upd)
    | (extract_lets +onlyGivenNames -underBinder x; clear_value x; revert x; intro _) | split
    | refine KeepsP.of_eq ?_ (by assumption)

theorem Keeps.deliverDue {s b} (h : Keeps r s) : Keeps r (State.deliverDue s b) := by
  generalize hf : @State.deliverDue = f; delta State.deliverDue at hf; subst hf; beta_reduce
  with_reducible repeat' first
    | assumption | apply Keeps.deliverFlight | (fail_if_no_progress apply Keeps.upd)
    | (refine Keeps.foldl ?_ ?_ _; rotate_left; intros; beta_reduce)
    | (extract_lets +onlyGivenNames -underBinder x; clear_value x; revert x; intro _)

theorem Keeps.bightCycle {s b} (h : Keeps r s) : Keeps r (State.bightCycle s b) := by
  generalize hf : @State.bightCycle = f; delta State.bightCycle at hf; subst hf; beta_reduce
  with_reducible repeat' first
    | assumption | apply Keeps.modCore | apply Keeps.deliverDue | apply Keeps.routerCycle | apply Keeps.modBight
    | (fail_if_no_progress apply Keeps.upd) | (refine Keeps.foldl ?_ ?_ _; rotate_left; intros; beta_reduce)
    | (extract_lets +onlyGivenNames -underBinder x; first | (refine Keeps.cut (s := x) (r := r) ?_ ?_; rotate_left; clear_value x; revert x; intro _ _; rotate_left; dsimp -zeta -iota -proj only [x]; clear x) | (clear_value x; revert x; intro _))

/-! ### LashOps -/

theorem Keeps.readImage {s pay a n} (h : Keeps r s) : KeepsP r (State.readImage s pay a n) := by
  generalize hf : @State.readImage = f; delta State.readImage at hf; subst hf; beta_reduce
  with_reducible repeat' first
    | assumption | apply Keeps.ownRead | apply Keeps.ite | apply KeepsP.ite
    | (fail_if_no_progress apply Keeps.upd) | apply KeepsP.keeps
    | (extract_lets +onlyGivenNames -underBinder x; clear_value x; revert x; intro _) | split
    | refine KeepsP.of_eq ?_ (by assumption) | apply KeepsP.pair

theorem Keeps.readRecords {s pay l x1 x2} (h : Keeps r s) : KeepsP r (State.readRecords s pay l x1 x2) := by
  induction x2 generalizing s x1 with
  | zero =>
    unfold State.readRecords
    with_reducible repeat' first
      | assumption | apply Keeps.readImage | (fail_if_no_progress apply Keeps.upd) | apply KeepsP.keeps
      | (extract_lets +onlyGivenNames -underBinder x; clear_value x; revert x; intro _) | split
      | refine KeepsP.of_eq ?_ (by assumption) | apply KeepsP.pair
  | succ n ih =>
    unfold State.readRecords
    with_reducible repeat' first
      | assumption | apply ih | apply Keeps.readImage | (fail_if_no_progress apply Keeps.upd) | apply KeepsP.keeps
      | (extract_lets +onlyGivenNames -underBinder x; clear_value x; revert x; intro _) | split
      | refine KeepsP.of_eq ?_ (by assumption) | apply KeepsP.pair

theorem Keeps.readShape {s pay addr shape} (h : Keeps r s) : KeepsP r (State.readShape s pay addr shape) := by
  generalize hf : @State.readShape = f; delta State.readShape at hf; subst hf; beta_reduce
  with_reducible repeat' first
    | assumption | apply Keeps.readImage | apply Keeps.readRecords | apply Keeps.ite | apply KeepsP.ite
    | (fail_if_no_progress apply Keeps.upd) | apply KeepsP.keeps
    | (extract_lets +onlyGivenNames -underBinder x; clear_value x; revert x; intro _) | split
    | refine KeepsP.of_eq ?_ (by assumption) | apply KeepsP.pair

theorem Keeps.claimRouters {s b p} (h : Keeps r s) : Keeps r (State.claimRouters s b p) := by
  generalize hf : @State.claimRouters = f; delta State.claimRouters at hf; subst hf; beta_reduce
  with_reducible repeat' first
    | assumption | apply Keeps.modRouter | (fail_if_no_progress apply Keeps.upd)
    | (refine Keeps.foldl ?_ ?_ _; rotate_left; intros; beta_reduce)

theorem Keeps.loadBanks {s b d p rs} (h : Keeps r s) : Keeps r (State.loadBanks s b d p rs) := by
  generalize hf : @State.loadBanks = f; delta State.loadBanks at hf; subst hf; beta_reduce
  with_reducible repeat' first
    | assumption | apply Keeps.activity | apply Keeps.modRouter | (fail_if_no_progress apply Keeps.upd)
    | (refine Keeps.foldl ?_ ?_ _; rotate_left; intros; beta_reduce)

theorem Keeps.layShape {r s t : State} {b : Nat} {d : ShapeData} {p : Place} (h : Keeps r s)
    (e : s.layShape b d p = .ok t) : Keeps r t := by
  unfold State.layShape at e
  split at e
  · cases e
    exact Keeps.setCircuits h
  · cases e

theorem Keeps.switchBanks {s rs} (h : Keeps r s) : Keeps r (State.switchBanks s rs) := by
  generalize hf : @State.switchBanks = f; delta State.switchBanks at hf; subst hf; beta_reduce
  with_reducible repeat' first
    | assumption | apply Keeps.modRouter | (refine Keeps.foldl ?_ ?_ _; rotate_left; intros; beta_reduce)

theorem Keeps.switchCircuits {s b} (h : Keeps r s) : Keeps r (State.switchCircuits s b) := by
  generalize hf : @State.switchCircuits = f; delta State.switchCircuits at hf; subst hf; beta_reduce
  with_reducible repeat' first
    | assumption | apply Keeps.setCircuits | apply Keeps.ite | (fail_if_no_progress apply Keeps.upd)

theorem Keeps.dropCircuits {s b inactiveOnly} (h : Keeps r s) : Keeps r (State.dropCircuits s b inactiveOnly) := by
  generalize hf : @State.dropCircuits = f; delta State.dropCircuits at hf; subst hf; beta_reduce
  with_reducible repeat' first
    | assumption | apply Keeps.setCircuits

theorem Keeps.freeRouters {s rs} (h : Keeps r s) : Keeps r (State.freeRouters s rs) := by
  generalize hf : @State.freeRouters = f; delta State.freeRouters at hf; subst hf; beta_reduce
  with_reducible repeat' first
    | assumption | apply Keeps.modRouter | (fail_if_no_progress apply Keeps.upd)
    | (refine Keeps.foldl ?_ ?_ _; rotate_left; intros; beta_reduce)

theorem Keeps.reportLash {s b kind result} (h : Keeps r s) : Keeps r (State.reportLash s b kind result) := by
  generalize hf : @State.reportLash = f; delta State.reportLash at hf; subst hf; beta_reduce
  with_reducible repeat' first
    | assumption | apply Keeps.moduleEvent | (fail_if_no_progress apply Keeps.upd)

theorem Keeps.refuseRelash {s b q seq result} (h : Keeps r s) : Keeps r (State.refuseRelash s b q seq result) := by
  generalize hf : @State.refuseRelash = f; delta State.refuseRelash at hf; subst hf; beta_reduce
  with_reducible repeat' first
    | assumption | apply Keeps.failCmd | apply Keeps.modBight | (fail_if_no_progress apply Keeps.upd)

theorem Keeps.cancelRelash {s b result code} (h : Keeps r s) : Keeps r (State.cancelRelash s b result code) := by
  generalize hf : @State.cancelRelash = f; delta State.cancelRelash at hf; subst hf; beta_reduce
  with_reducible repeat' first
    | assumption | apply Keeps.failCmd | apply Keeps.setBight | apply Keeps.ite
    | (fail_if_no_progress apply Keeps.upd)
    | (extract_lets +onlyGivenNames -underBinder x; clear_value x; revert x; intro _) | split
    | refine KeepsP.of_eq ?_ (by assumption)

theorem Keeps.beginLash {s b req d p} (h : Keeps r s) : Keeps r (State.beginLash s b req d p) := by
  generalize hf : @State.beginLash = f; delta State.beginLash at hf; subst hf; beta_reduce
  with_reducible repeat' first
    | assumption | refine Keeps.layShape ?_ (by assumption) | apply Keeps.reportLash | apply Keeps.driveNeeds
    | apply Keeps.loadBanks | apply Keeps.claimRouters | apply Keeps.setBight | (fail_if_no_progress apply Keeps.upd)
    | (extract_lets +onlyGivenNames -underBinder x; clear_value x; revert x; intro _) | split
    | refine KeepsP.of_eq ?_ (by assumption)

theorem Keeps.lashWith {s req} (h : Keeps r s) : Keeps r (State.lashWith s req) := by
  generalize hf : @State.lashWith = f; delta State.lashWith at hf; subst hf; beta_reduce
  with_reducible repeat' first
    | assumption | apply Keeps.forgetSteps | apply Keeps.reportLash | apply Keeps.readShape | apply Keeps.beginLash | apply Keeps.ite
    | (fail_if_no_progress apply Keeps.upd)
    | (extract_lets +onlyGivenNames -underBinder x; clear_value x; revert x; intro _) | split
    | refine KeepsP.of_eq ?_ (by assumption)

theorem Keeps.beginRelash {s b q seq r' d p} (h : Keeps r s) : Keeps r (State.beginRelash s b q seq r' d p) := by
  generalize hf : @State.beginRelash = f; delta State.beginRelash at hf; subst hf; beta_reduce
  with_reducible repeat' first
    | assumption | refine Keeps.layShape ?_ (by assumption) | apply Keeps.refuseRelash | apply Keeps.modBight
    | apply Keeps.driveNeeds | apply Keeps.claimRouters | apply Keeps.modCmd | (fail_if_no_progress apply Keeps.upd)
    | (extract_lets +onlyGivenNames -underBinder x; first | (refine Keeps.cut (s := x) (r := r) ?_ ?_; rotate_left; clear_value x; revert x; intro _ _; rotate_left; dsimp -zeta -iota -proj only [x]; clear x) | (clear_value x; revert x; intro _))
    | split | refine KeepsP.of_eq ?_ (by assumption)

theorem Keeps.checkRelash {s b q seq fn r'} (h : Keeps r s) : Keeps r (State.checkRelash s b q seq fn r') := by
  generalize hf : @State.checkRelash = f; delta State.checkRelash at hf; subst hf; beta_reduce
  with_reducible repeat' first
    | assumption | apply Keeps.forgetSteps | apply Keeps.refuseRelash | apply Keeps.readShape | apply Keeps.beginRelash | apply Keeps.ite
    | (fail_if_no_progress apply Keeps.upd)
    | (extract_lets +onlyGivenNames -underBinder x; clear_value x; revert x; intro _) | split
    | refine KeepsP.of_eq ?_ (by assumption)

theorem Keeps.undoRelash {s b} (h : Keeps r s) : Keeps r (State.undoRelash s b) := by
  generalize hf : @State.undoRelash = f; delta State.undoRelash at hf; subst hf; beta_reduce
  with_reducible repeat' first
    | assumption | apply Keeps.modRouter | apply Keeps.dropCircuits | apply Keeps.settleCluster
    | apply Keeps.clearCluster | apply Keeps.modBight | apply Keeps.ite | (fail_if_no_progress apply Keeps.upd)
    | (refine Keeps.foldl ?_ ?_ _; rotate_left; intros; beta_reduce)
    | (refine KeepsP.foldl ?_ ?_ _; rotate_left; intros; beta_reduce)
    | (extract_lets +onlyGivenNames -underBinder x; first | (refine Keeps.cut (s := x) (r := r) ?_ ?_; rotate_left; clear_value x; revert x; intro _ _; rotate_left; dsimp -zeta -iota -proj only [x]; clear x) | (clear_value x; revert x; intro _))
    | split | exact KeepsP.keeps (p := (_, _)) (by assumption) | refine KeepsP.of_eq ?_ (by assumption)

theorem Keeps.carryRange {s b src dst n} (h : Keeps r s) : Keeps r (State.carryRange s b src dst n) := by
  generalize hf : @State.carryRange = f; delta State.carryRange at hf; subst hf; beta_reduce
  with_reducible repeat' first
    | assumption | apply Keeps.cancelBacks | apply Keeps.clearSramRange | apply Keeps.readSram | apply Keeps.putSram | apply Keeps.activity
    | apply Keeps.ite | (fail_if_no_progress apply Keeps.upd)
    | exact Keeps.updMem (by assumption) fun x => Memory.wf_setByte x _ _
    | (refine Keeps.foldl ?_ ?_ _; rotate_left; intros; beta_reduce)
    | (refine KeepsP.foldl ?_ ?_ _; rotate_left; intros; beta_reduce) | apply KeepsP.keeps
    | (extract_lets +onlyGivenNames -underBinder x; first | (refine Keeps.cut (s := x) (r := r) ?_ ?_; rotate_left; clear_value x; revert x; intro _ _; rotate_left; dsimp -zeta -iota -proj only [x]; clear x) | (clear_value x; revert x; intro _))
    | split | exact KeepsP.keeps (p := (_, _)) (by assumption) | refine KeepsP.of_eq ?_ (by assumption)

theorem Keeps.carryFlows {s b sc dc} (h : Keeps r s) : Keeps r (State.carryFlows s b sc dc) := by
  generalize hf : @State.carryFlows = f; delta State.carryFlows at hf; subst hf; beta_reduce
  with_reducible repeat' first
    | assumption | apply Keeps.pathActivity
    | apply Keeps.ite | (fail_if_no_progress apply Keeps.upd)
    | (refine Keeps.foldl ?_ ?_ _; rotate_left; intros; beta_reduce)
    | (refine KeepsP.foldl ?_ ?_ _; rotate_left; intros; beta_reduce)
    | (extract_lets +onlyGivenNames -underBinder x; first | (refine Keeps.cut (s := x) (r := r) ?_ ?_; rotate_left; clear_value x; revert x; intro _ _; rotate_left; dsimp -zeta -iota -proj only [x]; clear x) | (clear_value x; revert x; intro _))
    | split | exact KeepsP.keeps (p := (_, _)) (by assumption) | refine KeepsP.of_eq ?_ (by assumption)

theorem Keeps.carryMember {s b sc dc} (h : Keeps r s) : Keeps r (State.carryMember s b sc dc) := by
  generalize hf : @State.carryMember = f; delta State.carryMember at hf; subst hf; beta_reduce
  with_reducible repeat' first
    | assumption | apply Keeps.carryFlows | apply Keeps.carryRange | (refine Keeps.foldl ?_ ?_ _; rotate_left; intros; beta_reduce)
    | (extract_lets +onlyGivenNames -underBinder x; first | (refine Keeps.cut (s := x) (r := r) ?_ ?_; rotate_left; clear_value x; revert x; intro _ _; rotate_left; dsimp -zeta -iota -proj only [x]; clear x) | (clear_value x; revert x; intro _))

theorem Keeps.carryCopy {s b cur new} (h : Keeps r s) : Keeps r (State.carryCopy s b cur new) := by
  generalize hf : @State.carryCopy = f; delta State.carryCopy at hf; subst hf; beta_reduce
  with_reducible repeat' first
    | assumption | apply Keeps.carryMember | apply Keeps.ite
    | (refine Keeps.foldl ?_ ?_ _; rotate_left; intros; beta_reduce)
    | (refine KeepsP.foldl ?_ ?_ _; rotate_left; intros; beta_reduce) | apply KeepsP.keeps

theorem Keeps.dropMaster {s m groups} (h : Keeps r s) : Keeps r (State.dropMaster s m groups) := by
  generalize hf : @State.dropMaster = f; delta State.dropMaster at hf; subst hf; beta_reduce
  with_reducible repeat' first
    | assumption | apply Keeps.modGroup | apply Keeps.scaleFloors
    | apply Keeps.ite | (fail_if_no_progress apply Keeps.upd)
    | (refine Keeps.foldl ?_ ?_ _; rotate_left; intros; beta_reduce)
    | (refine KeepsP.foldl ?_ ?_ _; rotate_left; intros; beta_reduce)
    | apply KeepsP.keeps
    | (extract_lets +onlyGivenNames -underBinder x; first | (refine Keeps.cut (s := x) (r := r) ?_ ?_; rotate_left; clear_value x; revert x; intro _ _; rotate_left; dsimp -zeta -iota -proj only [x]; clear x) | (clear_value x; revert x; intro _))
    | split | exact KeepsP.keeps (p := (_, _)) (by assumption) | refine KeepsP.of_eq ?_ (by assumption)

theorem Keeps.switchover {s b r'} (h : Keeps r s) : Keeps r (State.switchover s b r') := by
  generalize hf : @State.switchover = f; delta State.switchover at hf; subst hf; beta_reduce
  with_reducible repeat' first
    | assumption | apply Keeps.dropMaster | apply Keeps.stopCores | apply Keeps.setCore | apply Keeps.carryCopy | apply Keeps.freeRouters
    | apply Keeps.switchCircuits | apply Keeps.switchBanks | apply Keeps.modBight | apply Keeps.settleCluster
    | apply Keeps.clearCluster | (fail_if_no_progress apply Keeps.upd)
    | (refine Keeps.foldl ?_ ?_ _; rotate_left; intros; beta_reduce)
    | (extract_lets +onlyGivenNames -underBinder x; first | (refine Keeps.cut (s := x) (r := r) ?_ ?_; rotate_left; clear_value x; revert x; intro _ _; rotate_left; dsimp -zeta -iota -proj only [x]; clear x) | (clear_value x; revert x; intro _))

theorem Keeps.leaveOld {r : State} {s : State} {old : Place} {new : Place} (h : Keeps r s) :
    Keeps r (State.leaveOld s old new) := by
  generalize hf : @State.leaveOld = f; delta State.leaveOld at hf; subst hf; beta_reduce
  repeat' (first | with_reducible assumption  | with_reducible apply Keeps.freeRouters | with_reducible apply Keeps.clearCluster | with_reducible apply Keeps.settleCluster | with_reducible apply Keeps.ite | with_reducible apply KeepsP.ite | fail_if_no_progress with_reducible apply Keeps.upd | with_reducible apply KeepsOut.next | exact trivial | with_reducible apply KeepsDid.done | with_reducible apply KeepsDid.raise | with_reducible apply KeepsDid.stall | (with_reducible refine Keeps.foldl ?_ ?_ _; rotate_left; intros; beta_reduce) | (with_reducible refine KeepsP.foldl ?_ ?_ _; rotate_left; intros; beta_reduce) | with_reducible apply KeepsP.keeps | (extract_lets +onlyGivenNames -underBinder x; first | (refine Keeps.cut (r := r) (s := x) ?_ ?_; rotate_left; clear_value x; revert x; intro _ _; rotate_left; dsimp -zeta -iota -proj only [x]; clear x) | (refine KeepsP.cut (r := r) (p := x) ?_ ?_; rotate_left; clear_value x; revert x; intro _ _; rotate_left; dsimp -zeta -iota -proj only [x]; clear x) | clear_value x) | split | exact KeepsP.keeps (p := (_, _)) (by assumption) | (refine KeepsP.of_eq ?_ (by assumption)) | dsimp +zetaDelta -zeta -iota -proj only | with_reducible apply KeepsP.pair)

theorem Keeps.dueClear {s b due} (h : Keeps r s) : Keeps r (State.dueClear s b due) := by
  generalize hf : @State.dueClear = f; delta State.dueClear at hf; subst hf; beta_reduce
  with_reducible repeat' first
    | assumption | apply Keeps.switchover | apply Keeps.setBight | apply Keeps.ite | (fail_if_no_progress apply Keeps.upd)
    | (extract_lets +onlyGivenNames -underBinder x; clear_value x; revert x; intro _)

theorem Keeps.clearHalf {s b h'} (h : Keeps r s) : Keeps r (State.clearHalf s b h') := by
  generalize hf : @State.clearHalf = f; delta State.clearHalf at hf; subst hf; beta_reduce
  with_reducible repeat' first
    | assumption | apply Keeps.clearCluster | apply Keeps.freeRouters | apply Keeps.settleCluster
    | apply Keeps.dropCircuits | apply Keeps.modBight | apply Keeps.ite | (fail_if_no_progress apply Keeps.upd)
    | (refine Keeps.foldl ?_ ?_ _; rotate_left; intros; beta_reduce)
    | (extract_lets +onlyGivenNames -underBinder x; first | (refine Keeps.cut (s := x) (r := r) ?_ ?_; rotate_left; clear_value x; revert x; intro _ _; rotate_left; dsimp -zeta -iota -proj only [x]; clear x) | (clear_value x; revert x; intro _))
    | split | exact KeepsP.keeps (p := (_, _)) (by assumption) | refine KeepsP.of_eq ?_ (by assumption)

theorem Keeps.freeBight {s b} (h : Keeps r s) : Keeps r (State.freeBight s b) := by
  generalize hf : @State.freeBight = f; delta State.freeBight at hf; subst hf; beta_reduce
  with_reducible repeat' first
    | assumption | apply Keeps.dropMaster | apply Keeps.dropBight | apply Keeps.setBight | (fail_if_no_progress apply Keeps.upd)
    | (refine Keeps.foldl ?_ ?_ _; rotate_left; intros; beta_reduce)
    | (refine KeepsP.foldl ?_ ?_ _; rotate_left; intros; beta_reduce) | apply KeepsP.keeps
    | (extract_lets +onlyGivenNames -underBinder x; first | (refine Keeps.cut (s := x) (r := r) ?_ ?_; rotate_left; clear_value x; revert x; intro _ _; rotate_left; dsimp -zeta -iota -proj only [x]; clear x) | (clear_value x; revert x; intro _))
    | split | exact KeepsP.keeps (p := (_, _)) (by assumption) | refine KeepsP.of_eq ?_ (by assumption)

theorem Keeps.flrCheck {s} (h : Keeps r s) : Keeps r (State.flrCheck s) := by
  generalize hf : @State.flrCheck = f; delta State.flrCheck at hf; subst hf; beta_reduce
  with_reducible repeat' first
    | assumption | apply Keeps.cause | apply Keeps.ite | (fail_if_no_progress apply Keeps.upd)
    | (refine Keeps.foldl ?_ ?_ _; rotate_left; intros; beta_reduce) | split
    | exact KeepsP.keeps (p := (_, _)) (by assumption) | refine KeepsP.of_eq ?_ (by assumption)

/-! ### HandoffOps -/

theorem Keeps.putSlot {s i x'} (h : Keeps r s) : Keeps r (State.putSlot s i x') := by
  generalize hf : @State.putSlot = f; delta State.putSlot at hf; subst hf; beta_reduce
  with_reducible repeat' first
    | assumption | apply Keeps.ownWrite | apply Keeps.physWrite | apply Keeps.setSlot | (fail_if_no_progress apply Keeps.upd)
    | apply KeepsP.keeps | (extract_lets +onlyGivenNames -underBinder x; clear_value x; revert x; intro _)

theorem Keeps.setLayer {s i l n} (h : Keeps r s) : Keeps r (State.setLayer s i l n) := by
  generalize hf : @State.setLayer = f; delta State.setLayer at hf; subst hf; beta_reduce
  with_reducible repeat' first
    | assumption | apply Keeps.ownWrite | apply Keeps.physWrite | apply KeepsP.keeps

theorem Keeps.clearLayers {s i} (h : Keeps r s) : Keeps r (State.clearLayers s i) := by
  generalize hf : @State.clearLayers = f; delta State.clearLayers at hf; subst hf; beta_reduce
  with_reducible repeat' first
    | assumption | apply Keeps.ownWrite | apply Keeps.physWrite | apply KeepsP.keeps

theorem Keeps.slotSignal {s x'} (h : Keeps r s) : Keeps r (State.slotSignal s x') := by
  generalize hf : @State.slotSignal = f; delta State.slotSignal at hf; subst hf; beta_reduce
  with_reducible repeat' first
    | assumption | apply Keeps.signalFence | (fail_if_no_progress apply Keeps.upd) | split
    | refine KeepsP.of_eq ?_ (by assumption)

theorem Keeps.slotBreak {s x' code} (h : Keeps r s) : Keeps r (State.slotBreak s x' code) := by
  generalize hf : @State.slotBreak = f; delta State.slotBreak at hf; subst hf; beta_reduce
  with_reducible repeat' first
    | assumption | apply Keeps.breakFence | (fail_if_no_progress apply Keeps.upd) | split
    | refine KeepsP.of_eq ?_ (by assumption)

theorem Keeps.postReport {s i kind} (h : Keeps r s) : Keeps r (State.postReport s i kind) := by
  generalize hf : @State.postReport = f; delta State.postReport at hf; subst hf; beta_reduce
  with_reducible repeat' first
    | assumption | apply Keeps.ite | (fail_if_no_progress apply Keeps.upd)
    | (extract_lets +onlyGivenNames -underBinder x; clear_value x; revert x; intro _)

theorem Keeps.slotPacket {s i ty} (h : Keeps r s) : Keeps r (State.slotPacket s i ty) := by
  generalize hf : @State.slotPacket = f; delta State.slotPacket at hf; subst hf; beta_reduce
  with_reducible repeat' first
    | assumption | apply Keeps.sendPacket | apply Keeps.ite | (fail_if_no_progress apply Keeps.upd)
    | (extract_lets +onlyGivenNames -underBinder x; clear_value x; revert x; intro _) | split
    | refine KeepsP.of_eq ?_ (by assumption)

theorem Keeps.zeroize {s i} (h : Keeps r s) : Keeps r (State.zeroize s i) := by
  generalize hf : @State.zeroize = f; delta State.zeroize at hf; subst hf; beta_reduce
  with_reducible repeat' first
    | assumption | apply Keeps.putSlot | apply Keeps.failAlways | apply Keeps.ite | (fail_if_no_progress apply Keeps.upd)
    | (refine Keeps.foldl ?_ ?_ _; rotate_left; intros; beta_reduce)
    | (refine KeepsP.foldl ?_ ?_ _; rotate_left; intros; beta_reduce) | apply KeepsP.keeps
    | (extract_lets +onlyGivenNames -underBinder x; first | (refine Keeps.cut (s := x) (r := r) ?_ ?_; rotate_left; clear_value x; revert x; intro _ _; rotate_left; dsimp -zeta -iota -proj only [x]; clear x) | (clear_value x; revert x; intro _))

theorem Keeps.slotAct {s i kind code} (h : Keeps r s) : Keeps r (State.slotAct s i kind code) := by
  generalize hf : @State.slotAct = f; delta State.slotAct at hf; subst hf; beta_reduce
  with_reducible repeat' first
    | assumption | apply Keeps.slotPacket | apply Keeps.zeroize | apply Keeps.slotSignal | apply Keeps.slotBreak
    | apply Keeps.postReport | apply Keeps.setSlot | apply Keeps.ite | (fail_if_no_progress apply Keeps.upd)
    | (extract_lets +onlyGivenNames -underBinder x; first | (refine Keeps.cut (s := x) (r := r) ?_ ?_; rotate_left; clear_value x; revert x; intro _ _; rotate_left; dsimp -zeta -iota -proj only [x]; clear x) | (clear_value x; revert x; intro _))
    | split | refine KeepsP.of_eq ?_ (by assumption)

theorem Keeps.slotMove {r : State} {s : State} {i : Nat} {kind : Nat} {st : Nat} {code : Nat} (h : Keeps r s) :
    Keeps r (State.slotMove s i kind st code) := by
  generalize hf : @State.slotMove = f; delta State.slotMove at hf; subst hf; beta_reduce
  repeat' (first | with_reducible assumption  | with_reducible apply Keeps.postReport | with_reducible apply Keeps.putSlot | with_reducible apply Keeps.slotAct | with_reducible apply Keeps.ite | with_reducible apply KeepsP.ite | fail_if_no_progress with_reducible apply Keeps.upd | with_reducible apply KeepsOut.next | exact trivial | with_reducible apply KeepsDid.done | with_reducible apply KeepsDid.raise | with_reducible apply KeepsDid.stall | (with_reducible refine Keeps.foldl ?_ ?_ _; rotate_left; intros; beta_reduce) | (with_reducible refine KeepsP.foldl ?_ ?_ _; rotate_left; intros; beta_reduce) | with_reducible apply KeepsP.keeps | (extract_lets +onlyGivenNames -underBinder x; first | (refine Keeps.cut (r := r) (s := x) ?_ ?_; rotate_left; clear_value x; revert x; intro _ _; rotate_left; dsimp -zeta -iota -proj only [x]; clear x) | (refine KeepsP.cut (r := r) (p := x) ?_ ?_; rotate_left; clear_value x; revert x; intro _ _; rotate_left; dsimp -zeta -iota -proj only [x]; clear x) | clear_value x) | split | exact KeepsP.keeps (p := (_, _)) (by assumption) | (refine KeepsP.of_eq ?_ (by assumption)) | dsimp +zetaDelta -zeta -iota -proj only | with_reducible apply KeepsP.pair)

theorem Keeps.slotGo {s i kind st code} (h : Keeps r s) : Keeps r (State.slotGo s i kind st code) := by
  generalize hf : @State.slotGo = f; delta State.slotGo at hf; subst hf; beta_reduce
  with_reducible repeat' first
    | assumption | apply Keeps.slotMove | apply Keeps.modSlot | apply Keeps.postReport | apply Keeps.putSlot | apply Keeps.slotAct | apply Keeps.setSlot
    | apply Keeps.ite | (fail_if_no_progress apply Keeps.upd)
    | (extract_lets +onlyGivenNames -underBinder x; first | (refine Keeps.cut (s := x) (r := r) ?_ ?_; rotate_left; clear_value x; revert x; intro _ _; rotate_left; dsimp -zeta -iota -proj only [x]; clear x) | (clear_value x; revert x; intro _))

theorem Keeps.slotDrain {r : State} {s : State} {i : Nat} {x1 : Nat} (h : Keeps r s) :
    Keeps r (State.slotDrain s i x1) := by
  induction x1 generalizing s with
  | zero =>
    unfold State.slotDrain
    repeat' (first | with_reducible assumption  | with_reducible apply Keeps.modSlot | with_reducible apply Keeps.slotMove | with_reducible apply Keeps.ite | with_reducible apply KeepsP.ite | fail_if_no_progress with_reducible apply Keeps.upd | with_reducible apply KeepsOut.next | exact trivial | with_reducible apply KeepsDid.done | with_reducible apply KeepsDid.raise | with_reducible apply KeepsDid.stall | (with_reducible refine Keeps.foldl ?_ ?_ _; rotate_left; intros; beta_reduce) | (with_reducible refine KeepsP.foldl ?_ ?_ _; rotate_left; intros; beta_reduce) | with_reducible apply KeepsP.keeps | (extract_lets +onlyGivenNames -underBinder x; first | (refine Keeps.cut (r := r) (s := x) ?_ ?_; rotate_left; clear_value x; revert x; intro _ _; rotate_left; dsimp -zeta -iota -proj only [x]; clear x) | (refine KeepsP.cut (r := r) (p := x) ?_ ?_; rotate_left; clear_value x; revert x; intro _ _; rotate_left; dsimp -zeta -iota -proj only [x]; clear x) | clear_value x) | split | exact KeepsP.keeps (p := (_, _)) (by assumption) | (refine KeepsP.of_eq ?_ (by assumption)) | dsimp +zetaDelta -zeta -iota -proj only | with_reducible apply KeepsP.pair)
  | succ n ih =>
    unfold State.slotDrain
    repeat' (first | with_reducible assumption  | with_reducible apply ih | with_reducible apply Keeps.modSlot | with_reducible apply Keeps.slotMove | with_reducible apply Keeps.ite | with_reducible apply KeepsP.ite | fail_if_no_progress with_reducible apply Keeps.upd | with_reducible apply KeepsOut.next | exact trivial | with_reducible apply KeepsDid.done | with_reducible apply KeepsDid.raise | with_reducible apply KeepsDid.stall | (with_reducible refine Keeps.foldl ?_ ?_ _; rotate_left; intros; beta_reduce) | (with_reducible refine KeepsP.foldl ?_ ?_ _; rotate_left; intros; beta_reduce) | with_reducible apply KeepsP.keeps | (extract_lets +onlyGivenNames -underBinder x; first | (refine Keeps.cut (r := r) (s := x) ?_ ?_; rotate_left; clear_value x; revert x; intro _ _; rotate_left; dsimp -zeta -iota -proj only [x]; clear x) | (refine KeepsP.cut (r := r) (p := x) ?_ ?_; rotate_left; clear_value x; revert x; intro _ _; rotate_left; dsimp -zeta -iota -proj only [x]; clear x) | clear_value x) | split | exact KeepsP.keeps (p := (_, _)) (by assumption) | (refine KeepsP.of_eq ?_ (by assumption)) | dsimp +zetaDelta -zeta -iota -proj only | with_reducible apply KeepsP.pair)

theorem Keeps.slotWaiting {s} (h : Keeps r s) : Keeps r (State.slotWaiting s) := by
  generalize hf : @State.slotWaiting = f; delta State.slotWaiting at hf; subst hf; beta_reduce
  with_reducible repeat' first
    | assumption | apply Keeps.slotDrain | apply Keeps.slotGo | apply Keeps.ite | (fail_if_no_progress apply Keeps.upd)
    | (refine Keeps.foldl ?_ ?_ _; rotate_left; intros; beta_reduce)
    | (refine KeepsP.foldl ?_ ?_ _; rotate_left; intros; beta_reduce) | split
    | exact KeepsP.keeps (p := (_, _)) (by assumption) | refine KeepsP.of_eq ?_ (by assumption)

theorem Keeps.slotCommit {s q seq attempt} (h : Keeps r s) : Keeps r (State.slotCommit s q seq attempt) := by
  generalize hf : @State.slotCommit = f; delta State.slotCommit at hf; subst hf; beta_reduce
  with_reducible repeat' first
    | assumption | apply Keeps.slotGo | apply Keeps.modSlot | apply Keeps.ite | (fail_if_no_progress apply Keeps.upd)
    | (refine Keeps.foldl ?_ ?_ _; rotate_left; intros; beta_reduce)
    | (extract_lets +onlyGivenNames -underBinder x; first | (refine Keeps.cut (s := x) (r := r) ?_ ?_; rotate_left; clear_value x; revert x; intro _ _; rotate_left; dsimp -zeta -iota -proj only [x]; clear x) | (clear_value x; revert x; intro _))

theorem Keeps.slotEnd {s q seq} (h : Keeps r s) : Keeps r (State.slotEnd s q seq) := by
  generalize hf : @State.slotEnd = f; delta State.slotEnd at hf; subst hf; beta_reduce
  with_reducible repeat' first
    | assumption | apply Keeps.slotGo | apply Keeps.ite
    | (refine Keeps.foldl ?_ ?_ _; rotate_left; intros; beta_reduce)
    | (extract_lets +onlyGivenNames -underBinder x; first | (refine Keeps.cut (s := x) (r := r) ?_ ?_; rotate_left; clear_value x; revert x; intro _ _; rotate_left; dsimp -zeta -iota -proj only [x]; clear x) | (clear_value x; revert x; intro _))

theorem Keeps.slotGone {s i code} (h : Keeps r s) : Keeps r (State.slotGone s i code) := by
  generalize hf : @State.slotGone = f; delta State.slotGone at hf; subst hf; beta_reduce
  with_reducible repeat' first
    | assumption | apply Keeps.slotGo | apply Keeps.ite
    | (extract_lets +onlyGivenNames -underBinder x; clear_value x; revert x; intro _)

/-! ### CommitOps -/

theorem Keeps.settleCmd {s b c} (h : Keeps r s) : Keeps r (State.settleCmd s b c) := by
  generalize hf : @State.settleCmd = f; delta State.settleCmd at hf; subst hf; beta_reduce
  with_reducible repeat' first
    | assumption | apply Keeps.modBight | apply Keeps.ite | (fail_if_no_progress apply Keeps.upd)

theorem Keeps.retireRun {s b q seq} (h : Keeps r s) : Keeps r (State.retireRun s b q seq) := by
  generalize hf : @State.retireRun = f; delta State.retireRun at hf; subst hf; beta_reduce
  with_reducible repeat' first
    | assumption | apply Keeps.modBight | apply Keeps.ite | (fail_if_no_progress apply Keeps.upd) | split
    | refine KeepsP.of_eq ?_ (by assumption)

theorem Keeps.freeChunks {s c} (h : Keeps r s) : Keeps r (State.freeChunks s c) := by
  generalize hf : @State.freeChunks = f; delta State.freeChunks at hf; subst hf; beta_reduce
  with_reducible repeat' first
    | assumption | apply Keeps.modPort | (fail_if_no_progress apply Keeps.upd) | split
    | refine KeepsP.of_eq ?_ (by assumption)

theorem Keeps.peerPackets {s ty q c} (h : Keeps r s) : Keeps r (State.peerPackets s ty q c) := by
  generalize hf : @State.peerPackets = f; delta State.peerPackets at hf; subst hf; beta_reduce
  with_reducible repeat' first
    | assumption | apply Keeps.sendPacket | (refine Keeps.foldl ?_ ?_ _; rotate_left; intros; beta_reduce)
    | (refine KeepsP.foldl ?_ ?_ _; rotate_left; intros; beta_reduce) | apply KeepsP.keeps

theorem Keeps.drainSend {r : State} {s : State} {qn : Nat} (h : Keeps r s) :
    Keeps r (State.drainSend s qn) := by
  generalize hf : @State.drainSend = f; delta State.drainSend at hf; subst hf; beta_reduce
  repeat' (first | with_reducible assumption  | with_reducible apply Keeps.peerPackets | with_reducible apply Keeps.drain | with_reducible apply Keeps.ite | with_reducible apply KeepsP.ite | fail_if_no_progress with_reducible apply Keeps.upd | with_reducible apply KeepsOut.next | exact trivial | with_reducible apply KeepsDid.done | with_reducible apply KeepsDid.raise | with_reducible apply KeepsDid.stall | (with_reducible refine Keeps.foldl ?_ ?_ _; rotate_left; intros; beta_reduce) | (with_reducible refine KeepsP.foldl ?_ ?_ _; rotate_left; intros; beta_reduce) | with_reducible apply KeepsP.keeps | (extract_lets +onlyGivenNames -underBinder x; first | (refine Keeps.cut (r := r) (s := x) ?_ ?_; rotate_left; clear_value x; revert x; intro _ _; rotate_left; dsimp -zeta -iota -proj only [x]; clear x) | (refine KeepsP.cut (r := r) (p := x) ?_ ?_; rotate_left; clear_value x; revert x; intro _ _; rotate_left; dsimp -zeta -iota -proj only [x]; clear x) | clear_value x) | split | exact KeepsP.keeps (p := (_, _)) (by assumption) | (refine KeepsP.of_eq ?_ (by assumption)) | dsimp +zetaDelta -zeta -iota -proj only | with_reducible apply KeepsP.pair)

theorem Keeps.abandonSources {r : State} {s : State} {b : Nat} {q : Nat} {c : Cmd} (h : Keeps r s) :
    Keeps r (State.abandonSources s b q c) := by
  generalize hf : @State.abandonSources = f; delta State.abandonSources at hf; subst hf; beta_reduce
  with_reducible repeat' first
    | assumption | apply Keeps.sendPacket | (fail_if_no_progress apply Keeps.upd)
    | (refine Keeps.foldl ?_ ?_ _; rotate_left; intros; beta_reduce)
    | (refine KeepsP.foldl ?_ ?_ _; rotate_left; intros; beta_reduce) | split
    | exact KeepsP.keeps (p := (_, _)) (by assumption) | refine KeepsP.of_eq ?_ (by assumption)

theorem Keeps.endCmd {r : State} {s : State} {qn : Nat} {seq : Nat} {code : Nat} {detail : BitVec 24} (h : Keeps r s) :
    Keeps r (State.endCmd s qn seq code detail) := by
  generalize hf : @State.endCmd = f; delta State.endCmd at hf; subst hf; beta_reduce
  with_reducible repeat' first
    | assumption | apply Keeps.drainSend | apply Keeps.dropFaults | apply Keeps.retireRun | apply Keeps.closeObjects | apply Keeps.settleCmd
    | apply Keeps.slotEnd | apply Keeps.freeChunks | apply Keeps.modCmd | apply Keeps.drain
    | apply Keeps.abandonSources | apply Keeps.peerPackets | (fail_if_no_progress apply Keeps.upd)
    | (extract_lets +onlyGivenNames -underBinder x; first | (refine Keeps.cut (s := x) (r := r) ?_ ?_; rotate_left; clear_value x; revert x; intro _ _; rotate_left; dsimp -zeta -iota -proj only [x]; clear x) | (clear_value x; revert x; intro _))
    | split | refine KeepsP.of_eq ?_ (by assumption)

theorem Keeps.endFetched {s q seq code} (h : Keeps r s) : Keeps r (State.endFetched s q seq code) := by
  generalize hf : @State.endFetched = f; delta State.endFetched at hf; subst hf; beta_reduce
  with_reducible repeat' first
    | assumption | apply Keeps.endCmd

theorem Keeps.commitCmd {s qn seq} (h : Keeps r s) : Keeps r (State.commitCmd s qn seq) := by
  generalize hf : @State.commitCmd = f; delta State.commitCmd at hf; subst hf; beta_reduce
  with_reducible repeat' first
    | assumption | apply Keeps.drainSend | apply Keeps.freeChunks | apply Keeps.retireRun | apply Keeps.closeObjects | apply Keeps.modCmd
    | apply Keeps.settleCmd | apply Keeps.slotCommit | apply Keeps.peerPackets | apply Keeps.drain
    | (fail_if_no_progress apply Keeps.upd)
    | (extract_lets +onlyGivenNames -underBinder x; first | (refine Keeps.cut (s := x) (r := r) ?_ ?_; rotate_left; clear_value x; revert x; intro _ _; rotate_left; dsimp -zeta -iota -proj only [x]; clear x) | (clear_value x; revert x; intro _))
    | split | refine KeepsP.of_eq ?_ (by assumption)

theorem Keeps.takeCommit {s qn seq} (h : Keeps r s) : Keeps r (State.takeCommit s qn seq) := by
  generalize hf : @State.takeCommit = f; delta State.takeCommit at hf; subst hf; beta_reduce
  with_reducible repeat' first
    | assumption | apply Keeps.commitMsg | apply Keeps.commitCmd | apply Keeps.modQueue | apply Keeps.ite
    | (fail_if_no_progress apply Keeps.upd) | (refine Keeps.foldl ?_ ?_ _; rotate_left; intros; beta_reduce)
    | (refine KeepsP.foldl ?_ ?_ _; rotate_left; intros; beta_reduce)
    | (extract_lets +onlyGivenNames -underBinder x; first | (refine Keeps.cut (s := x) (r := r) ?_ ?_; rotate_left; clear_value x; revert x; intro _ _; rotate_left; dsimp -zeta -iota -proj only [x]; clear x) | (clear_value x; revert x; intro _))
    | split | exact KeepsP.keeps (p := (_, _)) (by assumption) | refine KeepsP.of_eq ?_ (by assumption)

theorem Keeps.keepPlace {s b q seq} (h : Keeps r s) : Keeps r (State.keepPlace s b q seq) := by
  generalize hf : @State.keepPlace = f; delta State.keepPlace at hf; subst hf; beta_reduce
  with_reducible repeat' first
    | assumption | apply Keeps.modBight | apply Keeps.ite | (fail_if_no_progress apply Keeps.upd)

theorem Keeps.killWins {s b code rerun} (h : Keeps r s) : Keeps r (State.killWins s b code rerun) := by
  generalize hf : @State.killWins = f; delta State.killWins at hf; subst hf; beta_reduce
  with_reducible repeat' first
    | assumption 
    | apply Keeps.ite | (fail_if_no_progress apply Keeps.upd)
    | (extract_lets +onlyGivenNames -underBinder x; first | (refine Keeps.cut (s := x) (r := r) ?_ ?_; rotate_left; clear_value x; revert x; intro _ _; rotate_left; dsimp -zeta -iota -proj only [x]; clear x) | (clear_value x; revert x; intro _))
    | split | exact KeepsP.keeps (p := (_, _)) (by assumption) | refine KeepsP.of_eq ?_ (by assumption)

theorem Keeps.endRerun {s qn c code detail} (h : Keeps r s) : Keeps r (State.endRerun s qn c code detail) := by
  generalize hf : @State.endRerun = f; delta State.endRerun at hf; subst hf; beta_reduce
  with_reducible repeat' first | assumption | apply Keeps.modCmd | apply Keeps.ite | split

theorem Keeps.takeKill {s qn seq code detail rerun} (h : Keeps r s) :
    Keeps r (State.takeKill s qn seq code detail rerun) := by
  generalize hf : @State.takeKill = f; delta State.takeKill at hf; subst hf; beta_reduce
  with_reducible repeat' first
    | assumption | apply Keeps.endRerun | apply Keeps.killWins | apply Keeps.stopCores | apply Keeps.modBight | apply Keeps.keepPlace | apply Keeps.retireRun
    | apply Keeps.abandonCmd | apply Keeps.closeObjects | apply Keeps.dropFaults | apply Keeps.modCmd
    | apply Keeps.ite | (fail_if_no_progress apply Keeps.upd)
    | (extract_lets +onlyGivenNames -underBinder x; first | (refine Keeps.cut (s := x) (r := r) ?_ ?_; rotate_left; clear_value x; revert x; intro _ _; rotate_left; dsimp -zeta -iota -proj only [x]; clear x) | (clear_value x; revert x; intro _))
    | split | refine KeepsP.of_eq ?_ (by assumption)

theorem Keeps.killDone {s qn seq} (h : Keeps r s) : Keeps r (State.killDone s qn seq) := by
  generalize hf : @State.killDone = f; delta State.killDone at hf; subst hf; beta_reduce
  with_reducible repeat' first
    | assumption | apply Keeps.modBight | apply Keeps.commitMsg | apply Keeps.peerPackets | apply Keeps.modCmd | apply Keeps.endCmd | apply Keeps.ite
    | (fail_if_no_progress apply Keeps.upd)
    | (extract_lets +onlyGivenNames -underBinder x; first | (refine Keeps.cut (s := x) (r := r) ?_ ?_; rotate_left; clear_value x; revert x; intro _ _; rotate_left; dsimp -zeta -iota -proj only [x]; clear x) | (clear_value x; revert x; intro _))
    | split | refine KeepsP.of_eq ?_ (by assumption)

theorem Keeps.killAny {s qn seq code detail} (h : Keeps r s) : Keeps r (State.killAny s qn seq code detail) := by
  generalize hf : @State.killAny = f; delta State.killAny at hf; subst hf; beta_reduce
  with_reducible repeat' first
    | assumption | apply Keeps.endCmd | apply Keeps.requestKill | apply Keeps.ite
    | (fail_if_no_progress apply Keeps.upd) | split | refine KeepsP.of_eq ?_ (by assumption)

theorem Keeps.abortGroup {s qn q c code} (h : Keeps r s) : Keeps r (State.abortGroup s qn q c code) := by
  generalize hf : @State.abortGroup = f; delta State.abortGroup at hf; subst hf; beta_reduce
  with_reducible repeat' first
    | assumption | apply Keeps.endCmd | apply Keeps.modQueue | apply Keeps.ite | (fail_if_no_progress apply Keeps.upd)
    | (refine Keeps.foldl ?_ ?_ _; rotate_left; intros; beta_reduce)
    | (extract_lets +onlyGivenNames -underBinder x; first | (refine Keeps.cut (s := x) (r := r) ?_ ?_; rotate_left; clear_value x; revert x; intro _ _; rotate_left; dsimp -zeta -iota -proj only [x]; clear x) | (clear_value x; revert x; intro _))
    | split | exact KeepsP.keeps (p := (_, _)) (by assumption) | refine KeepsP.of_eq ?_ (by assumption)

theorem Keeps.decideGroup {s qn q c expect} (h : Keeps r s) : Keeps r (State.decideGroup s qn q c expect) := by
  generalize hf : @State.decideGroup = f; delta State.decideGroup at hf; subst hf; beta_reduce
  with_reducible repeat' first
    | assumption | apply Keeps.abortGroup | apply Keeps.register | apply Keeps.modCmd | apply Keeps.ite
    | (fail_if_no_progress apply Keeps.upd)
    | (extract_lets +onlyGivenNames -underBinder x; first | (refine Keeps.cut (s := x) (r := r) ?_ ?_; rotate_left; clear_value x; revert x; intro _ _; rotate_left; dsimp -zeta -iota -proj only [x]; clear x) | (clear_value x; revert x; intro _))
    | split | refine KeepsP.of_eq ?_ (by assumption)

theorem Keeps.startCores {s b q seq entry args} (h : Keeps r s) :
    Keeps r (State.startCores s b q seq entry args) := by
  generalize hf : @State.startCores = f; delta State.startCores at hf; subst hf; beta_reduce
  with_reducible repeat' first
    | assumption | apply Keeps.physWrite | apply Keeps.setCore | apply Keeps.setEngine | apply Keeps.modRouter
    | apply Keeps.modCmd | apply Keeps.modBight | (fail_if_no_progress apply Keeps.upd)
    | (refine Keeps.foldl ?_ ?_ _; rotate_left; intros; beta_reduce)
    | (refine KeepsP.foldl ?_ ?_ _; rotate_left; intros; beta_reduce) | apply KeepsP.keeps
    | (extract_lets +onlyGivenNames -underBinder x; first | (refine Keeps.cut (s := x) (r := r) ?_ ?_; rotate_left; clear_value x; revert x; intro _ _; rotate_left; dsimp -zeta -iota -proj only [x]; clear x) | (clear_value x; revert x; intro _))

/-! ### LaunchOps -/

theorem Keeps.physParts {r : State} {w : Who} {agent : Nat} {key : Option (Nat × Bool)} {fn : Nat} {a : Nat} {data : Option Bytes} {x1 : List (Nat × Nat)} {x2 : State} (h : Keeps r x2) :
    KeepsP r (State.physParts w agent key fn a data x1 x2) := by
  induction x1 generalizing x2 with
  | nil =>
    unfold State.physParts
    repeat' (first | with_reducible assumption  | with_reducible apply Keeps.stepAccess | with_reducible apply Keeps.ite | with_reducible apply KeepsP.ite | fail_if_no_progress with_reducible apply Keeps.upd | with_reducible apply KeepsOut.next | exact trivial | with_reducible apply KeepsDid.done | with_reducible apply KeepsDid.raise | with_reducible apply KeepsDid.stall | (with_reducible refine Keeps.foldl ?_ ?_ _; rotate_left; intros; beta_reduce) | (with_reducible refine KeepsP.foldl ?_ ?_ _; rotate_left; intros; beta_reduce) | with_reducible apply KeepsP.keeps | (extract_lets +onlyGivenNames -underBinder x; first | (refine Keeps.cut (r := r) (s := x) ?_ ?_; rotate_left; clear_value x; revert x; intro _ _; rotate_left; dsimp -zeta -iota -proj only [x]; clear x) | (refine KeepsP.cut (r := r) (p := x) ?_ ?_; rotate_left; clear_value x; revert x; intro _ _; rotate_left; dsimp -zeta -iota -proj only [x]; clear x) | clear_value x) | split | exact KeepsP.keeps (p := (_, _)) (by assumption) | (refine KeepsP.of_eq ?_ (by assumption)) | dsimp +zetaDelta -zeta -iota -proj only | with_reducible apply KeepsP.pair)
  | cons e t ih =>
    unfold State.physParts
    repeat' (first | with_reducible assumption  | with_reducible apply ih | with_reducible apply Keeps.stepAccess | with_reducible apply Keeps.ite | with_reducible apply KeepsP.ite | fail_if_no_progress with_reducible apply Keeps.upd | with_reducible apply KeepsOut.next | exact trivial | with_reducible apply KeepsDid.done | with_reducible apply KeepsDid.raise | with_reducible apply KeepsDid.stall | (with_reducible refine Keeps.foldl ?_ ?_ _; rotate_left; intros; beta_reduce) | (with_reducible refine KeepsP.foldl ?_ ?_ _; rotate_left; intros; beta_reduce) | with_reducible apply KeepsP.keeps | (extract_lets +onlyGivenNames -underBinder x; first | (refine Keeps.cut (r := r) (s := x) ?_ ?_; rotate_left; clear_value x; revert x; intro _ _; rotate_left; dsimp -zeta -iota -proj only [x]; clear x) | (refine KeepsP.cut (r := r) (p := x) ?_ ?_; rotate_left; clear_value x; revert x; intro _ _; rotate_left; dsimp -zeta -iota -proj only [x]; clear x) | clear_value x) | split | exact KeepsP.keeps (p := (_, _)) (by assumption) | (refine KeepsP.of_eq ?_ (by assumption)) | dsimp +zetaDelta -zeta -iota -proj only | with_reducible apply KeepsP.pair)

theorem Keeps.physNow {s w agent addr key fn n data} (h : Keeps r s) :
    KeepsP r (State.physNow s w agent addr key fn n data) := by
  generalize hf : @State.physNow = f; delta State.physNow at hf; subst hf; beta_reduce
  with_reducible repeat' first
    | assumption | apply Keeps.physParts | apply Keeps.wakeStack | apply Keeps.gateBytes | apply Keeps.modKeySlot | apply Keeps.physRead
    | apply Keeps.physWrite | apply Keeps.ite | apply KeepsP.ite | (fail_if_no_progress apply Keeps.upd)
    | apply KeepsP.keeps
    | (extract_lets +onlyGivenNames -underBinder x; first | (refine Keeps.cut (s := x) (r := r) ?_ ?_; rotate_left; clear_value x; revert x; intro _ _; rotate_left; dsimp -zeta -iota -proj only [x]; clear x) | (clear_value x; revert x; intro _))
    | split | refine KeepsP.of_eq ?_ (by assumption) | apply KeepsP.pair

theorem Keeps.readDest {s w agent n d ans} (h : Keeps r s) : KeepsP r (State.readDest s w agent n d ans) := by
  generalize hf : @State.readDest = f; delta State.readDest at hf; subst hf; beta_reduce
  with_reducible repeat' first
    | assumption | apply Keeps.aer | apply Keeps.physNow | apply Keeps.send | apply Keeps.ite | apply KeepsP.ite
    | (fail_if_no_progress apply Keeps.upd) | apply KeepsP.keeps
    | (extract_lets +onlyGivenNames -underBinder x; first | (refine Keeps.cut (s := x) (r := r) ?_ ?_; rotate_left; clear_value x; revert x; intro _ _; rotate_left; dsimp -zeta -iota -proj only [x]; clear x) | (clear_value x; revert x; intro _))
    | split | refine KeepsP.of_eq ?_ (by assumption) | apply KeepsP.pair

theorem Keeps.writeDest {s w agent d data} (h : Keeps r s) : KeepsP r (State.writeDest s w agent d data) := by
  generalize hf : @State.writeDest = f; delta State.writeDest at hf; subst hf; beta_reduce
  with_reducible repeat' first
    | assumption | apply Keeps.physNow | apply Keeps.hostWriteVia | apply KeepsP.ite
    | (fail_if_no_progress apply Keeps.upd) | split | refine KeepsP.of_eq ?_ (by assumption) | apply KeepsP.pair

theorem Keeps.xres {s w va write x'} (h : Keeps r s) : KeepsP r (State.xres s w va write x') := by
  generalize hf : @State.xres = f; delta State.xres at hf; subst hf; beta_reduce
  with_reducible repeat' first
    | assumption | apply Keeps.faultFor | (fail_if_no_progress apply Keeps.upd) | split
    | refine KeepsP.of_eq ?_ (by assumption) | apply KeepsP.pair

theorem Keeps.virtDest {r : State} {s : State} {w : Who} {va : Nat} {n : Nat} {write : Bool} (h : Keeps r s) :
    KeepsP r (State.virtDest s w va n write) := by
  generalize hf : @State.virtDest = f; delta State.virtDest at hf; subst hf; beta_reduce
  repeat' (first | with_reducible assumption  | with_reducible apply Keeps.translate | with_reducible apply Keeps.xres | with_reducible apply Keeps.ite | with_reducible apply KeepsP.ite | fail_if_no_progress with_reducible apply Keeps.upd | with_reducible apply KeepsOut.next | exact trivial | with_reducible apply KeepsDid.done | with_reducible apply KeepsDid.raise | with_reducible apply KeepsDid.stall | (with_reducible refine Keeps.foldl ?_ ?_ _; rotate_left; intros; beta_reduce) | (with_reducible refine KeepsP.foldl ?_ ?_ _; rotate_left; intros; beta_reduce) | with_reducible apply KeepsP.keeps | (extract_lets +onlyGivenNames -underBinder x; first | (refine Keeps.cut (r := r) (s := x) ?_ ?_; rotate_left; clear_value x; revert x; intro _ _; rotate_left; dsimp -zeta -iota -proj only [x]; clear x) | (refine KeepsP.cut (r := r) (p := x) ?_ ?_; rotate_left; clear_value x; revert x; intro _ _; rotate_left; dsimp -zeta -iota -proj only [x]; clear x) | clear_value x) | split | exact KeepsP.keeps (p := (_, _)) (by assumption) | (refine KeepsP.of_eq ?_ (by assumption)) | dsimp +zetaDelta -zeta -iota -proj only | with_reducible apply KeepsP.pair)

theorem Keeps.readVirt {w agent x1 x2 x3 x4 x5} (h : Keeps r x2) :
    KeepsP r (State.readVirt w agent x1 x2 x3 x4 x5) := by
  induction x1 generalizing w x2 x3 x4 x5 with
  | zero => exact ⟨h⟩
  | succ n ih =>
    unfold State.readVirt
    refine KeepsP.ite ⟨h⟩ ?_
    have h1 := Keeps.virtDest (w := { w with page := x3 / 65536 }) (va := x3) (n := blockRest x3 x4) (write := false) h
    dsimp only
    split <;> rename_i e <;> rw [e] at h1
    · exact ⟨h1.1⟩
    · exact ⟨h1.1⟩
    · rename_i d t
      have h2 := Keeps.readDest (w := { w with page := x3 / 65536 }) (agent := agent) (n := blockRest x3 x4) (d := d) (ans := x5) h1.1
      split <;> rename_i e <;> rw [e] at h2
      · exact ⟨h2.1⟩
      · exact ⟨h2.1⟩
      · rename_i b a u
        have h3 := ih (w := { w with page := x3 / 65536 }) (x2 := u) (x3 := x3 + blockRest x3 x4) (x4 := x4 - blockRest x3 x4) (x5 := a) h2.1
        split
        · rename_i e
          rw [e] at h3
          exact ⟨h3.1⟩
        · exact h3

theorem Keeps.writeVirt {w agent x1 x2 x3 x4} (h : Keeps r x2) :
    KeepsP r (State.writeVirt w agent x1 x2 x3 x4) := by
  induction x1 generalizing w x2 x3 x4 with
  | zero => exact ⟨h⟩
  | succ n ih =>
    unfold State.writeVirt
    split
    · exact ⟨h⟩
    · have h1 := Keeps.virtDest (w := { w with page := x3 / 65536 }) (va := x3) (n := blockRest x3 x4.length) (write := true) h
      dsimp only
      split <;> rename_i e <;> rw [e] at h1
      · exact ⟨h1.1⟩
      · exact ⟨h1.1⟩
      · rename_i d t
        have h2 := Keeps.writeDest (w := { w with page := x3 / 65536 }) (agent := agent) (d := d)
          (data := x4.take (blockRest x3 x4.length)) h1.1
        split
        · rename_i e
          rw [e] at h2
          exact ih h2.1
        · exact h2

theorem Keeps.listedOk {s asid n} (h : Keeps r s) : KeepsP r (State.listedOk s asid n) := by
  generalize hf : @State.listedOk = f; delta State.listedOk at hf; subst hf; beta_reduce
  with_reducible repeat' first
    | assumption | apply Keeps.readObject | (fail_if_no_progress apply Keeps.upd) | split
    | refine KeepsP.of_eq ?_ (by assumption) | apply KeepsP.pair

theorem Keeps.allListedOk {asid x1 x2} (h : Keeps r x1) : KeepsP r (State.allListedOk asid x1 x2) := by
  induction x2 generalizing x1 with
  | nil =>
    unfold State.allListedOk
    with_reducible repeat' first
      | assumption | apply Keeps.listedOk | (fail_if_no_progress apply Keeps.upd) | split
      | refine KeepsP.of_eq ?_ (by assumption) | apply KeepsP.pair
  | cons e l ih =>
    unfold State.allListedOk
    with_reducible repeat' first
      | assumption | apply ih | apply Keeps.listedOk | (fail_if_no_progress apply Keeps.upd) | split
      | refine KeepsP.of_eq ?_ (by assumption) | apply KeepsP.pair

theorem Keeps.savePageOk {r : State} {s : State} {w : Who} {va : Nat} (h : Keeps r s) :
    KeepsP r (State.savePageOk s w va) := by
  generalize hf : @State.savePageOk = f; delta State.savePageOk at hf; subst hf; beta_reduce
  repeat' (first | with_reducible assumption  | with_reducible apply Keeps.findLeaf | with_reducible apply Keeps.keepLeaf | with_reducible apply Keeps.readObject | with_reducible apply Keeps.ite | with_reducible apply KeepsP.ite | fail_if_no_progress with_reducible apply Keeps.upd | with_reducible apply KeepsOut.next | exact trivial | with_reducible apply KeepsDid.done | with_reducible apply KeepsDid.raise | with_reducible apply KeepsDid.stall | (with_reducible refine Keeps.foldl ?_ ?_ _; rotate_left; intros; beta_reduce) | (with_reducible refine KeepsP.foldl ?_ ?_ _; rotate_left; intros; beta_reduce) | with_reducible apply KeepsP.keeps | (extract_lets +onlyGivenNames -underBinder x; first | (refine Keeps.cut (r := r) (s := x) ?_ ?_; rotate_left; clear_value x; revert x; intro _ _; rotate_left; dsimp -zeta -iota -proj only [x]; clear x) | (refine KeepsP.cut (r := r) (p := x) ?_ ?_; rotate_left; clear_value x; revert x; intro _ _; rotate_left; dsimp -zeta -iota -proj only [x]; clear x) | clear_value x) | split | exact KeepsP.keeps (p := (_, _)) (by assumption) | (refine KeepsP.of_eq ?_ (by assumption)) | dsimp +zetaDelta -zeta -iota -proj only | with_reducible apply KeepsP.pair)

theorem Keeps.saveAreaOk {r : State} {w : Who} {x1 : Nat} {x2 : State} {x3 : Nat} (h : Keeps r x2) :
    KeepsP r (State.saveAreaOk w x1 x2 x3) := by
  induction x1 generalizing x2 x3 with
  | zero =>
    unfold State.saveAreaOk
    repeat' (first | with_reducible assumption  | with_reducible apply Keeps.savePageOk | with_reducible apply Keeps.ite | with_reducible apply KeepsP.ite | fail_if_no_progress with_reducible apply Keeps.upd | with_reducible apply KeepsOut.next | exact trivial | with_reducible apply KeepsDid.done | with_reducible apply KeepsDid.raise | with_reducible apply KeepsDid.stall | (with_reducible refine Keeps.foldl ?_ ?_ _; rotate_left; intros; beta_reduce) | (with_reducible refine KeepsP.foldl ?_ ?_ _; rotate_left; intros; beta_reduce) | with_reducible apply KeepsP.keeps | (extract_lets +onlyGivenNames -underBinder x; first | (refine Keeps.cut (r := r) (s := x) ?_ ?_; rotate_left; clear_value x; revert x; intro _ _; rotate_left; dsimp -zeta -iota -proj only [x]; clear x) | (refine KeepsP.cut (r := r) (p := x) ?_ ?_; rotate_left; clear_value x; revert x; intro _ _; rotate_left; dsimp -zeta -iota -proj only [x]; clear x) | clear_value x) | split | exact KeepsP.keeps (p := (_, _)) (by assumption) | (refine KeepsP.of_eq ?_ (by assumption)) | dsimp +zetaDelta -zeta -iota -proj only | with_reducible apply KeepsP.pair)
  | succ n ih =>
    unfold State.saveAreaOk
    repeat' (first | with_reducible assumption  | with_reducible apply ih | with_reducible apply Keeps.savePageOk | with_reducible apply Keeps.ite | with_reducible apply KeepsP.ite | fail_if_no_progress with_reducible apply Keeps.upd | with_reducible apply KeepsOut.next | exact trivial | with_reducible apply KeepsDid.done | with_reducible apply KeepsDid.raise | with_reducible apply KeepsDid.stall | (with_reducible refine Keeps.foldl ?_ ?_ _; rotate_left; intros; beta_reduce) | (with_reducible refine KeepsP.foldl ?_ ?_ _; rotate_left; intros; beta_reduce) | with_reducible apply KeepsP.keeps | (extract_lets +onlyGivenNames -underBinder x; first | (refine Keeps.cut (r := r) (s := x) ?_ ?_; rotate_left; clear_value x; revert x; intro _ _; rotate_left; dsimp -zeta -iota -proj only [x]; clear x) | (refine KeepsP.cut (r := r) (p := x) ?_ ?_; rotate_left; clear_value x; revert x; intro _ _; rotate_left; dsimp -zeta -iota -proj only [x]; clear x) | clear_value x) | split | exact KeepsP.keeps (p := (_, _)) (by assumption) | (refine KeepsP.of_eq ?_ (by assumption)) | dsimp +zetaDelta -zeta -iota -proj only | with_reducible apply KeepsP.pair)

theorem Keeps.listRefersOk {r : State} {s : State} {w : Who} {o : ObjList} (h : Keeps r s) :
    KeepsP r (State.listRefersOk s w o) := by
  generalize hf : @State.listRefersOk = f; delta State.listRefersOk at hf; subst hf; beta_reduce
  repeat' (first | with_reducible assumption  | with_reducible apply Keeps.saveAreaOk | with_reducible apply Keeps.faultFor | with_reducible apply Keeps.allListedOk | with_reducible apply Keeps.ite | with_reducible apply KeepsP.ite | fail_if_no_progress with_reducible apply Keeps.upd | with_reducible apply KeepsOut.next | exact trivial | with_reducible apply KeepsDid.done | with_reducible apply KeepsDid.raise | with_reducible apply KeepsDid.stall | (with_reducible refine Keeps.foldl ?_ ?_ _; rotate_left; intros; beta_reduce) | (with_reducible refine KeepsP.foldl ?_ ?_ _; rotate_left; intros; beta_reduce) | with_reducible apply KeepsP.keeps | (extract_lets +onlyGivenNames -underBinder x; first | (refine Keeps.cut (r := r) (s := x) ?_ ?_; rotate_left; clear_value x; revert x; intro _ _; rotate_left; dsimp -zeta -iota -proj only [x]; clear x) | (refine KeepsP.cut (r := r) (p := x) ?_ ?_; rotate_left; clear_value x; revert x; intro _ _; rotate_left; dsimp -zeta -iota -proj only [x]; clear x) | clear_value x) | split | exact KeepsP.keeps (p := (_, _)) (by assumption) | (refine KeepsP.of_eq ?_ (by assumption)) | dsimp +zetaDelta -zeta -iota -proj only | with_reducible apply KeepsP.pair)

theorem Keeps.readListAs {r : State} {s : State} {w : Who} {q : Queue} {c : Cmd} {ans : HostAns} (h : Keeps r s) :
    KeepsP r (State.readListAs s w q c ans) := by
  generalize hf : @State.readListAs = f; delta State.readListAs at hf; subst hf; beta_reduce
  repeat' (first | with_reducible assumption  | with_reducible apply Keeps.readVirt | with_reducible apply Keeps.listRefersOk | with_reducible apply Keeps.ite | with_reducible apply KeepsP.ite | fail_if_no_progress with_reducible apply Keeps.upd | with_reducible apply KeepsOut.next | exact trivial | with_reducible apply KeepsDid.done | with_reducible apply KeepsDid.raise | with_reducible apply KeepsDid.stall | (with_reducible refine Keeps.foldl ?_ ?_ _; rotate_left; intros; beta_reduce) | (with_reducible refine KeepsP.foldl ?_ ?_ _; rotate_left; intros; beta_reduce) | with_reducible apply KeepsP.keeps | (extract_lets +onlyGivenNames -underBinder x; first | (refine Keeps.cut (r := r) (s := x) ?_ ?_; rotate_left; clear_value x; revert x; intro _ _; rotate_left; dsimp -zeta -iota -proj only [x]; clear x) | (refine KeepsP.cut (r := r) (p := x) ?_ ?_; rotate_left; clear_value x; revert x; intro _ _; rotate_left; dsimp -zeta -iota -proj only [x]; clear x) | clear_value x) | split | exact KeepsP.keeps (p := (_, _)) (by assumption) | (refine KeepsP.of_eq ?_ (by assumption)) | dsimp +zetaDelta -zeta -iota -proj only | with_reducible apply KeepsP.pair)

theorem Keeps.readList {s qn q c ans} (h : Keeps r s) : KeepsP r (State.readList s qn q c ans) := by
  generalize hf : @State.readList = f; delta State.readList at hf; subst hf; beta_reduce
  with_reducible repeat' first
    | assumption | apply Keeps.readListAs | apply Keeps.readVirt | apply Keeps.allListedOk | apply Keeps.ite | apply KeepsP.ite
    | (fail_if_no_progress apply Keeps.upd) | apply KeepsP.keeps
    | (extract_lets +onlyGivenNames -underBinder x; clear_value x; revert x; intro _) | split
    | refine KeepsP.of_eq ?_ (by assumption) | apply KeepsP.pair

theorem Keeps.startKind {r : State} {s : State} {qn : Nat} {c : Cmd} (h : Keeps r s) :
    Keeps r (State.startKind s qn c) := by
  generalize hf : @State.startKind = f; delta State.startKind at hf; subst hf; beta_reduce
  with_reducible repeat' first
    | assumption | apply Keeps.modBight | apply Keeps.modCmd | apply Keeps.ite | (fail_if_no_progress apply Keeps.upd)

theorem Keeps.joinRunList {r : State} {s : State} {qn : Nat} {q : Queue} {c : Cmd} (h : Keeps r s) :
    Keeps r (State.joinRunList s qn q c) := by
  generalize hf : @State.joinRunList = f; delta State.joinRunList at hf; subst hf; beta_reduce
  repeat' (first | with_reducible assumption  | with_reducible apply Keeps.modBight | with_reducible apply Keeps.ite | with_reducible apply KeepsP.ite | fail_if_no_progress with_reducible apply Keeps.upd | with_reducible apply KeepsOut.next | exact trivial | with_reducible apply KeepsDid.done | with_reducible apply KeepsDid.raise | with_reducible apply KeepsDid.stall | (with_reducible refine Keeps.foldl ?_ ?_ _; rotate_left; intros; beta_reduce) | (with_reducible refine KeepsP.foldl ?_ ?_ _; rotate_left; intros; beta_reduce) | with_reducible apply KeepsP.keeps | (extract_lets +onlyGivenNames -underBinder x; first | (refine Keeps.cut (r := r) (s := x) ?_ ?_; rotate_left; clear_value x; revert x; intro _ _; rotate_left; dsimp -zeta -iota -proj only [x]; clear x) | (refine KeepsP.cut (r := r) (p := x) ?_ ?_; rotate_left; clear_value x; revert x; intro _ _; rotate_left; dsimp -zeta -iota -proj only [x]; clear x) | clear_value x) | split | exact KeepsP.keeps (p := (_, _)) (by assumption) | (refine KeepsP.of_eq ?_ (by assumption)) | dsimp +zetaDelta -zeta -iota -proj only | with_reducible apply KeepsP.pair)

theorem Keeps.startRecv {s qn c role} (h : Keeps r s) : Keeps r (State.startRecv s qn c role) := by
  generalize hf : @State.startRecv = f; delta State.startRecv at hf; subst hf; beta_reduce
  with_reducible repeat' first
    | assumption | apply Keeps.modCmd | apply Keeps.modPort | apply Keeps.modSlot
    | (fail_if_no_progress apply Keeps.upd)
    | (extract_lets +onlyGivenNames -underBinder x; first | (refine Keeps.cut (s := x) (r := r) ?_ ?_; rotate_left; clear_value x; revert x; intro _ _; rotate_left; dsimp -zeta -iota -proj only [x]; clear x) | (clear_value x; revert x; intro _))
    | split | refine KeepsP.of_eq ?_ (by assumption)

theorem Keeps.openAndStart {s qn q c} (h : Keeps r s) : Keeps r (State.openAndStart s qn q c) := by
  generalize hf : @State.openAndStart = f; delta State.openAndStart at hf; subst hf; beta_reduce
  have hc0 := @Keeps.openObjects r; obtain ⟨g, hg⟩ : ∃ g, g = @State.openObjects := ⟨_, rfl⟩; rw [← hg] at hc0 ⊢; clear hg
  with_reducible repeat' first
    | assumption | apply Keeps.joinRunList | apply hc0 | apply Keeps.startKind | apply Keeps.modCmd | apply Keeps.ite | apply KeepsP.ite
    | (fail_if_no_progress apply Keeps.upd) | apply KeepsP.keeps
    | (extract_lets +onlyGivenNames -underBinder x; first | (refine Keeps.cut (s := x) (r := r) ?_ ?_; rotate_left; clear_value x; revert x; intro _ _; rotate_left; dsimp -zeta -iota -proj only [x]; clear x) | (refine KeepsP.cut (p := x) (r := r) ?_ ?_; rotate_left; clear_value x; revert x; intro _ _; rotate_left; dsimp -zeta -iota -proj only [x]; clear x) | (clear_value x; revert x; intro _))
    | split | exact KeepsP.keeps (p := (_, _)) (by assumption) | refine KeepsP.of_eq ?_ (by assumption)
    | dsimp +zetaDelta -zeta -iota -proj only | apply KeepsP.pair

theorem Keeps.wakeBight {s b} (h : Keeps r s) : KeepsP r (State.wakeBight s b) := by
  generalize hf : @State.wakeBight = f; delta State.wakeBight at hf; subst hf; beta_reduce
  with_reducible repeat' first
    | assumption | apply Keeps.wakeMembers | apply Keeps.modBight | apply Keeps.reqDom | apply Keeps.ite | apply KeepsP.ite
    | (fail_if_no_progress apply Keeps.upd) | (refine Keeps.foldl ?_ ?_ _; rotate_left; intros; beta_reduce)
    | (refine KeepsP.foldl ?_ ?_ _; rotate_left; intros; beta_reduce) | apply KeepsP.keeps
    | (extract_lets +onlyGivenNames -underBinder x; first | (refine Keeps.cut (s := x) (r := r) ?_ ?_; rotate_left; clear_value x; revert x; intro _ _; rotate_left; dsimp -zeta -iota -proj only [x]; clear x) | (refine KeepsP.cut (p := x) (r := r) ?_ ?_; rotate_left; clear_value x; revert x; intro _ _; rotate_left; dsimp -zeta -iota -proj only [x]; clear x) | (clear_value x; revert x; intro _))
    | split | exact KeepsP.keeps (p := (_, _)) (by assumption) | refine KeepsP.of_eq ?_ (by assumption)
    | dsimp +zetaDelta -zeta -iota -proj only | apply KeepsP.pair

theorem Keeps.passOver {s qn seq} (h : Keeps r s) : Keeps r (State.passOver s qn seq) := by
  generalize hf : @State.passOver = f; delta State.passOver at hf; subst hf; beta_reduce
  with_reducible repeat' first
    | assumption | apply Keeps.modCmd | (fail_if_no_progress apply Keeps.upd)

theorem Keeps.doLaunch {s qn q c pred role} (h : Keeps r s) : Keeps r (State.doLaunch s qn q c pred role) := by
  generalize hf : @State.doLaunch = f; delta State.doLaunch at hf; subst hf; beta_reduce
  have hc0 := @Keeps.wakeBight r; obtain ⟨g, hg⟩ : ∃ g, g = @State.wakeBight := ⟨_, rfl⟩; rw [← hg] at hc0 ⊢; clear hg
  with_reducible repeat' first
    | assumption | apply Keeps.endFetched | apply hc0 | apply Keeps.modCmd | apply Keeps.openAndStart | apply Keeps.startRecv | apply Keeps.ite
    | apply KeepsP.ite | (fail_if_no_progress apply Keeps.upd) | apply KeepsP.keeps
    | (extract_lets +onlyGivenNames -underBinder x; first | (refine Keeps.cut (s := x) (r := r) ?_ ?_; rotate_left; clear_value x; revert x; intro _ _; rotate_left; dsimp -zeta -iota -proj only [x]; clear x) | (refine KeepsP.cut (p := x) (r := r) ?_ ?_; rotate_left; clear_value x; revert x; intro _ _; rotate_left; dsimp -zeta -iota -proj only [x]; clear x) | (clear_value x; revert x; intro _))
    | split | exact KeepsP.keeps (p := (_, _)) (by assumption) | refine KeepsP.of_eq ?_ (by assumption)
    | dsimp +zetaDelta -zeta -iota -proj only | apply KeepsP.pair

theorem Keeps.notPermitted {s qn q c} (h : Keeps r s) : Keeps r (State.notPermitted s qn q c) := by
  generalize hf : @State.notPermitted = f; delta State.notPermitted at hf; subst hf; beta_reduce
  with_reducible repeat' first
    | assumption | apply Keeps.endFetched | apply Keeps.modBight
    | apply Keeps.ite | (fail_if_no_progress apply Keeps.upd)
    | (extract_lets +onlyGivenNames -underBinder x; first | (refine Keeps.cut (s := x) (r := r) ?_ ?_; rotate_left; clear_value x; revert x; intro _ _; rotate_left; dsimp -zeta -iota -proj only [x]; clear x) | (clear_value x; revert x; intro _))
    | split | exact KeepsP.keeps (p := (_, _)) (by assumption) | refine KeepsP.of_eq ?_ (by assumption)

theorem Keeps.relaunch {r : State} {s : State} {qn : Nat} {q : Queue} {c : Cmd} (h : Keeps r s) :
    Keeps r (State.relaunch s qn q c) := by
  generalize hf : @State.relaunch = f; delta State.relaunch at hf; subst hf; beta_reduce
  repeat' (first | with_reducible assumption  | with_reducible apply Keeps.wakeBight | with_reducible apply Keeps.allListedOk | with_reducible apply Keeps.failCmd | with_reducible apply Keeps.openAndStart | with_reducible apply Keeps.ite | with_reducible apply KeepsP.ite | fail_if_no_progress with_reducible apply Keeps.upd | with_reducible apply KeepsOut.next | exact trivial | with_reducible apply KeepsDid.done | with_reducible apply KeepsDid.raise | with_reducible apply KeepsDid.stall | (with_reducible refine Keeps.foldl ?_ ?_ _; rotate_left; intros; beta_reduce) | (with_reducible refine KeepsP.foldl ?_ ?_ _; rotate_left; intros; beta_reduce) | with_reducible apply KeepsP.keeps | (extract_lets +onlyGivenNames -underBinder x; first | (refine Keeps.cut (r := r) (s := x) ?_ ?_; rotate_left; clear_value x; revert x; intro _ _; rotate_left; dsimp -zeta -iota -proj only [x]; clear x) | (refine KeepsP.cut (r := r) (p := x) ?_ ?_; rotate_left; clear_value x; revert x; intro _ _; rotate_left; dsimp -zeta -iota -proj only [x]; clear x) | clear_value x) | split | exact KeepsP.keeps (p := (_, _)) (by assumption) | (refine KeepsP.of_eq ?_ (by assumption)) | dsimp +zetaDelta -zeta -iota -proj only | with_reducible apply KeepsP.pair)

theorem Keeps.launchHead {s qn q c ans} (h : Keeps r s) : Keeps r (State.launchHead s qn q c ans) := by
  unfold State.launchHead
  have h0 := Keeps.forgetSteps h
  refine Keeps.ite h0 (Keeps.ite (Keeps.notPermitted h0) (Keeps.ite (Keeps.relaunch h0) ?_))
  have h1 := Keeps.readList (qn := qn) (q := q) (c := c) (ans := ans) h0
  split <;> rename_i e <;> rw [e] at h1
  · exact h1.1
  · exact Keeps.endFetched h1.1
  · refine Keeps.ite (Keeps.endFetched h1.1) (Keeps.ite (Keeps.endFetched h1.1) ?_)
    split
    · exact Keeps.passOver h1.1
    · exact Keeps.ite (Keeps.passOver h1.1) (Keeps.ite h1.1 (Keeps.doLaunch h1.1))

theorem Keeps.pageFramesBy {s w va obj} (h : Keeps r s) : KeepsP r (State.pageFramesBy s w va obj) := by
  unfold State.pageFramesBy
  have kept : ∀ (x : PageRes × State) (found : Option (Bool × CacheEntry)), KeepsP r x → KeepsP r
      (match x with
        | (.fault write e, s) => (PageRes.fault write e, s)
        | (x, s) => (x, s.keepLeaf w found)) := by
    intro x found hx
    split
    · exact ⟨hx.1⟩
    · exact ⟨Keeps.keepLeaf hx.1⟩
  have h1 := Keeps.findLeaf (w := w) (va := va) (write := false) h
  dsimp only
  split <;> rename_i e <;> rw [e] at h1
  · exact ⟨h1.1⟩
  · exact ⟨h1.1⟩
  · refine kept _ _ ?_
    refine KeepsP.ite ⟨h1.1⟩ (KeepsP.ite ⟨h1.1⟩ (KeepsP.ite ⟨h1.1⟩ ?_))
    have h2 := Keeps.readObject (w := w) (n := obj) h1.1
    split <;> rename_i e <;> rw [e] at h2
    · exact ⟨h2.1⟩
    · exact ⟨h2.1⟩
    · refine KeepsP.ite ⟨h2.1⟩ ?_
      repeat' first | exact ⟨h2.1⟩ | exact KeepsP.pair (Keeps.modKeySlot h2.keeps) | split

theorem Keeps.pageFramesNow {s w va obj} (h : Keeps r s) : KeepsP r (State.pageFramesNow s w va obj) := by
  unfold State.pageFramesNow
  have h1 := Keeps.pageFramesBy (w := w) (va := va) (obj := obj) h
  split
  · rename_i t e
    rw [e] at h1
    exact KeepsP.ite (Keeps.pageFramesBy (Keeps.forget h1.1)) h1
  · exact h1

theorem Keeps.pageFrames {s w va obj} (h : Keeps r s) : KeepsP r (State.pageFrames s w va obj) := by
  unfold State.pageFrames
  refine KeepsP.ite ⟨h⟩ ?_
  have h1 := Keeps.pageFramesNow (w := w) (va := va) (obj := obj) h
  split <;> rename_i e <;> rw [e] at h1
  · exact ⟨h1.1⟩
  · exact ⟨h1.1⟩
  · exact ⟨Keeps.faultFor h1.1⟩
  · exact ⟨h1.1⟩

theorem Keeps.copyBlocks {w a b x1 x2 x3 x4} (h : Keeps r x3) : KeepsP r (State.copyBlocks w a b x1 x2 x3 x4) := by
  induction x1 generalizing x2 x3 x4 with
  | zero =>
    unfold State.copyBlocks
    with_reducible repeat' first
      | assumption | apply Keeps.readDest | apply Keeps.writeDest | (fail_if_no_progress apply Keeps.upd) | split
      | refine KeepsP.of_eq ?_ (by assumption) | apply KeepsP.pair
  | succ n ih =>
    unfold State.copyBlocks
    with_reducible repeat' first
      | assumption | apply ih | apply Keeps.readDest | apply Keeps.writeDest | (fail_if_no_progress apply Keeps.upd)
      | split | refine KeepsP.of_eq ?_ (by assumption) | apply KeepsP.pair

theorem Keeps.copyPages {w obj x1 x2 x3 x4} (h : Keeps r x3) : KeepsP r (State.copyPages w obj x1 x2 x3 x4) := by
  induction x1 generalizing x2 x3 x4 with
  | zero =>
    unfold State.copyPages
    with_reducible repeat' first
      | assumption | apply Keeps.pageFrames | apply Keeps.copyBlocks | (fail_if_no_progress apply Keeps.upd) | split
      | refine KeepsP.of_eq ?_ (by assumption) | apply KeepsP.pair
  | succ n ih =>
    unfold State.copyPages
    with_reducible repeat' first
      | assumption | apply ih | apply Keeps.pageFrames | apply Keeps.copyBlocks
      | (fail_if_no_progress apply Keeps.upd) | split | refine KeepsP.of_eq ?_ (by assumption) | apply KeepsP.pair

theorem Keeps.copyEntries {w x1 x2 x3} (h : Keeps r x2) : KeepsP r (State.copyEntries w x1 x2 x3) := by
  induction x1 generalizing x2 x3 with
  | nil =>
    unfold State.copyEntries
    with_reducible repeat' first
      | assumption | apply Keeps.copyPages | (fail_if_no_progress apply Keeps.upd) | split
      | refine KeepsP.of_eq ?_ (by assumption) | apply KeepsP.pair
  | cons e l ih =>
    unfold State.copyEntries
    with_reducible repeat' first
      | assumption | apply ih | apply Keeps.copyPages | (fail_if_no_progress apply Keeps.upd) | split
      | refine KeepsP.of_eq ?_ (by assumption) | apply KeepsP.pair

theorem Keeps.saveRanges {w x1 x2 x3} (h : Keeps r x3) : KeepsP r (State.saveRanges w x1 x2 x3) := by
  induction x1 generalizing x2 x3 with
  | nil =>
    unfold State.saveRanges
    with_reducible repeat' first
      | assumption | apply Keeps.physRead | apply Keeps.writeVirt | (fail_if_no_progress apply Keeps.upd) | split
      | refine KeepsP.of_eq ?_ (by assumption) | apply KeepsP.pair
  | cons e l ih =>
    unfold State.saveRanges
    with_reducible repeat' first
      | assumption | apply ih | apply Keeps.physRead | apply Keeps.writeVirt | (fail_if_no_progress apply Keeps.upd)
      | split | refine KeepsP.of_eq ?_ (by assumption) | apply KeepsP.pair

theorem Keeps.restoreRanges {w x1 x2 x3 x4} (h : Keeps r x3) : KeepsP r (State.restoreRanges w x1 x2 x3 x4) := by
  induction x1 generalizing x2 x3 x4 with
  | nil =>
    unfold State.restoreRanges
    with_reducible repeat' first
      | assumption | apply Keeps.readVirt | apply Keeps.physWrite | (fail_if_no_progress apply Keeps.upd)
      | apply KeepsP.keeps | split | refine KeepsP.of_eq ?_ (by assumption) | apply KeepsP.pair
  | cons e l ih =>
    unfold State.restoreRanges
    with_reducible repeat' first
      | assumption | apply ih | apply Keeps.readVirt | apply Keeps.physWrite | (fail_if_no_progress apply Keeps.upd)
      | apply KeepsP.keeps | split | refine KeepsP.of_eq ?_ (by assumption) | apply KeepsP.pair

theorem Keeps.moveLive {s0 qn q c save ans} (h : Keeps r s0) : KeepsP r (State.moveLive s0 qn q c save ans) := by
  generalize hf : @State.moveLive = f; delta State.moveLive at hf; subst hf; beta_reduce
  with_reducible repeat' first
    | assumption | apply Keeps.saveRanges | apply Keeps.restoreRanges | apply Keeps.ite | apply KeepsP.ite
    | (fail_if_no_progress apply Keeps.upd) | (refine KeepsP.foldl ?_ ?_ _; rotate_left; intros; beta_reduce)
    | apply KeepsP.keeps | (extract_lets +onlyGivenNames -underBinder x; clear_value x; revert x; intro _) | split
    | exact KeepsP.keeps (p := (_, _)) (by assumption) | refine KeepsP.of_eq ?_ (by assumption) | apply KeepsP.pair

/-! ### DmaOps -/

theorem Keeps.beginTransfer {s qn q c lambda parts} (h : Keeps r s) :
    Keeps r (State.beginTransfer s qn q c lambda parts) := by
  generalize hf : @State.beginTransfer = f; delta State.beginTransfer at hf; subst hf; beta_reduce
  with_reducible repeat' first
    | assumption | apply Keeps.failCmd | apply Keeps.modCmd | (fail_if_no_progress apply Keeps.upd)
    | (extract_lets +onlyGivenNames -underBinder x; clear_value x; revert x; intro _) | split
    | refine KeepsP.of_eq ?_ (by assumption)

theorem Keeps.setPiece {s qn seq i x'} (h : Keeps r s) : Keeps r (State.setPiece s qn seq i x') := by
  generalize hf : @State.setPiece = f; delta State.setPiece at hf; subst hf; beta_reduce
  with_reducible repeat' first
    | assumption | apply Keeps.modCmd | (fail_if_no_progress apply Keeps.upd) | split
    | refine KeepsP.of_eq ?_ (by assumption)

theorem Keeps.startPiece {s qn q c i p write reduce data} (h : Keeps r s) :
    Keeps r (State.startPiece s qn q c i p write reduce data) := by
  generalize hf : @State.startPiece = f; delta State.startPiece at hf; subst hf; beta_reduce
  have hc0 := @Keeps.translate r; obtain ⟨g, hg⟩ : ∃ g, g = @State.translate := ⟨_, rfl⟩; rw [← hg] at hc0 ⊢; clear hg
  have hc1 := @Keeps.startAccess r; obtain ⟨g, hg⟩ : ∃ g, g = @State.startAccess := ⟨_, rfl⟩; rw [← hg] at hc1 ⊢; clear hg
  with_reducible repeat' first
    | assumption | apply Keeps.forgetSteps | apply hc0 | apply hc1 | apply Keeps.setPiece | apply Keeps.faultFor | apply Keeps.failCmd
    | apply Keeps.ite | apply KeepsP.ite | (fail_if_no_progress apply Keeps.upd) | apply KeepsP.keeps
    | (extract_lets +onlyGivenNames -underBinder x; first | (refine Keeps.cut (s := x) (r := r) ?_ ?_; rotate_left; clear_value x; revert x; intro _ _; rotate_left; dsimp -zeta -iota -proj only [x]; clear x) | (refine KeepsP.cut (p := x) (r := r) ?_ ?_; rotate_left; clear_value x; revert x; intro _ _; rotate_left; dsimp -zeta -iota -proj only [x]; clear x) | (clear_value x; revert x; intro _))
    | split | exact KeepsP.keeps (p := (_, _)) (by assumption) | refine KeepsP.of_eq ?_ (by assumption)
    | dsimp +zetaDelta -zeta -iota -proj only | apply KeepsP.pair

theorem Keeps.startChunk {r : State} {s : State} {qn : Nat} {q : Queue} {c : Cmd} {i : Nat} {n : Nat} {p : Piece} {own : Bytes} {all : Bytes} (h : Keeps r s) :
    Keeps r (State.startChunk s qn q c i n p own all) := by
  generalize hf : @State.startChunk = f; delta State.startChunk at hf; subst hf; beta_reduce
  repeat' (first | with_reducible assumption  | with_reducible apply Keeps.startPiece | with_reducible apply Keeps.setPiece | with_reducible apply Keeps.ite | with_reducible apply KeepsP.ite | fail_if_no_progress with_reducible apply Keeps.upd | with_reducible apply KeepsOut.next | exact trivial | with_reducible apply KeepsDid.done | with_reducible apply KeepsDid.raise | with_reducible apply KeepsDid.stall | (with_reducible refine Keeps.foldl ?_ ?_ _; rotate_left; intros; beta_reduce) | (with_reducible refine KeepsP.foldl ?_ ?_ _; rotate_left; intros; beta_reduce) | with_reducible apply KeepsP.keeps | (extract_lets +onlyGivenNames -underBinder x; first | (refine Keeps.cut (r := r) (s := x) ?_ ?_; rotate_left; clear_value x; revert x; intro _ _; rotate_left; dsimp -zeta -iota -proj only [x]; clear x) | (refine KeepsP.cut (r := r) (p := x) ?_ ?_; rotate_left; clear_value x; revert x; intro _ _; rotate_left; dsimp -zeta -iota -proj only [x]; clear x) | clear_value x) | split | exact KeepsP.keeps (p := (_, _)) (by assumption) | (refine KeepsP.of_eq ?_ (by assumption)) | dsimp +zetaDelta -zeta -iota -proj only | with_reducible apply KeepsP.pair)

theorem Keeps.stepPiece {s qn q seq reduce i} (h : Keeps r s) : Keeps r (State.stepPiece s qn q seq reduce i) := by
  generalize hf : @State.stepPiece = f; delta State.stepPiece at hf; subst hf; beta_reduce
  with_reducible repeat' first
    | assumption | apply Keeps.startChunk | apply Keeps.startPiece | apply Keeps.setPiece | apply Keeps.dropReq | apply Keeps.failCmd
    | apply Keeps.ite | (fail_if_no_progress apply Keeps.upd)
    | (refine Keeps.foldl ?_ ?_ _; rotate_left; intros; beta_reduce)
    | (refine KeepsP.foldl ?_ ?_ _; rotate_left; intros; beta_reduce)
    | (extract_lets +onlyGivenNames -underBinder x; first | (refine Keeps.cut (s := x) (r := r) ?_ ?_; rotate_left; clear_value x; revert x; intro _ _; rotate_left; dsimp -zeta -iota -proj only [x]; clear x) | (clear_value x; revert x; intro _))
    | split | exact KeepsP.keeps (p := (_, _)) (by assumption) | refine KeepsP.of_eq ?_ (by assumption)

theorem Keeps.stepTransfer {s qn q c reduce} (h : Keeps r s) : Keeps r (State.stepTransfer s qn q c reduce) := by
  generalize hf : @State.stepTransfer = f; delta State.stepTransfer at hf; subst hf; beta_reduce
  with_reducible repeat' first
    | assumption | apply Keeps.stepPiece | (refine Keeps.foldl ?_ ?_ _; rotate_left; intros; beta_reduce)

theorem Keeps.writeChunk {s qn q c k} (h : Keeps r s) : Keeps r (State.writeChunk s qn q c k) := by
  generalize hf : @State.writeChunk = f; delta State.writeChunk at hf; subst hf; beta_reduce
  with_reducible repeat' first
    | assumption | apply Keeps.forgetSteps | apply Keeps.writeVirt | apply Keeps.failCmd | apply Keeps.modCmd
    | (fail_if_no_progress apply Keeps.upd)
    | (extract_lets +onlyGivenNames -underBinder x; clear_value x; revert x; intro _) | split
    | refine KeepsP.of_eq ?_ (by assumption)

/-! ### InvOps -/

theorem Keeps.uncacheScope {s x'} (h : Keeps r s) : Keeps r (State.uncacheScope s x') := by
  generalize hf : @State.uncacheScope = f; delta State.uncacheScope at hf; subst hf; beta_reduce
  with_reducible repeat' first
    | assumption | (fail_if_no_progress apply Keeps.upd) | split | refine KeepsP.of_eq ?_ (by assumption)

theorem Keeps.restartWalks {r : State} {s : State} {x' : InvScope} (h : Keeps r s) :
    Keeps r (State.restartWalks s x') := by
  generalize hf : @State.restartWalks = f; delta State.restartWalks at hf; subst hf; beta_reduce
  repeat' (first | with_reducible assumption  | with_reducible apply Keeps.ungate | with_reducible apply Keeps.ite | with_reducible apply KeepsP.ite | fail_if_no_progress with_reducible apply Keeps.upd | with_reducible apply KeepsOut.next | exact trivial | with_reducible apply KeepsDid.done | with_reducible apply KeepsDid.raise | with_reducible apply KeepsDid.stall | (with_reducible refine Keeps.foldl ?_ ?_ _; rotate_left; intros; beta_reduce) | (with_reducible refine KeepsP.foldl ?_ ?_ _; rotate_left; intros; beta_reduce) | with_reducible apply KeepsP.keeps | (extract_lets +onlyGivenNames -underBinder x; first | (refine Keeps.cut (r := r) (s := x) ?_ ?_; rotate_left; clear_value x; revert x; intro _ _; rotate_left; dsimp -zeta -iota -proj only [x]; clear x) | (refine KeepsP.cut (r := r) (p := x) ?_ ?_; rotate_left; clear_value x; revert x; intro _ _; rotate_left; dsimp -zeta -iota -proj only [x]; clear x) | clear_value x) | split | exact KeepsP.keeps (p := (_, _)) (by assumption) | (refine KeepsP.of_eq ?_ (by assumption)) | dsimp +zetaDelta -zeta -iota -proj only | with_reducible apply KeepsP.pair)

theorem Keeps.respond {r : State} {s : State} {port : Nat} {tag : Nat} {source : Nat} {window : Nat} {offset : Nat} {write : Bool} {status : Nat} {sub : Nat} {data : Bytes} {pay : Option (Nat × Nat × Nat)} (h : Keeps r s) :
    Keeps r (State.respond s port tag source window offset write status sub data pay) := by
  generalize hf : @State.respond = f; delta State.respond at hf; subst hf; beta_reduce
  with_reducible repeat' first
    | assumption | apply Keeps.sendPacket | apply Keeps.ite

theorem Keeps.refuseReq {s r'} (h : Keeps r s) : Keeps r (State.refuseReq s r') := by
  generalize hf : @State.refuseReq = f; delta State.refuseReq at hf; subst hf; beta_reduce
  with_reducible repeat' first
    | assumption | apply Keeps.dropReq | apply Keeps.refKey | apply Keeps.ungate | apply Keeps.respond
    | (fail_if_no_progress apply Keeps.upd)
    | (extract_lets +onlyGivenNames -underBinder x; first | (refine Keeps.cut (s := x) (r := r) ?_ ?_; rotate_left; clear_value x; revert x; intro _ _; rotate_left; dsimp -zeta -iota -proj only [x]; clear x) | (clear_value x; revert x; intro _))
    | split | refine KeepsP.of_eq ?_ (by assumption)

theorem Keeps.invalidate {s origin abort x'} (h : Keeps r s) : Keeps r (State.invalidate s origin abort x') := by
  generalize hf : @State.invalidate = f; delta State.invalidate at hf; subst hf; beta_reduce
  with_reducible repeat' first
    | assumption | apply Keeps.restartWalks | apply Keeps.uncacheScope | apply Keeps.requestKill | apply Keeps.refuseReq | apply Keeps.ite
    | (fail_if_no_progress apply Keeps.upd) | (refine Keeps.foldl ?_ ?_ _; rotate_left; intros; beta_reduce)
    | (refine KeepsP.foldl ?_ ?_ _; rotate_left; intros; beta_reduce) | apply KeepsP.keeps
    | (extract_lets +onlyGivenNames -underBinder x; first | (refine Keeps.cut (s := x) (r := r) ?_ ?_; rotate_left; clear_value x; revert x; intro _ _; rotate_left; dsimp -zeta -iota -proj only [x]; clear x) | (clear_value x; revert x; intro _))
    | split | exact KeepsP.keeps (p := (_, _)) (by assumption) | refine KeepsP.of_eq ?_ (by assumption)

theorem Keeps.closeInbound {s w abort} (h : Keeps r s) : Keeps r (State.closeInbound s w abort) := by
  generalize hf : @State.closeInbound = f; delta State.closeInbound at hf; subst hf; beta_reduce
  with_reducible repeat' first
    | assumption | apply Keeps.invalidate | apply Keeps.setInWin | apply Keeps.ite
    | (fail_if_no_progress apply Keeps.upd)
    | (extract_lets +onlyGivenNames -underBinder x; clear_value x; revert x; intro _)

theorem Keeps.addLayers {s i offset len} (h : Keeps r s) : Keeps r (State.addLayers s i offset len) := by
  generalize hf : @State.addLayers = f; delta State.addLayers at hf; subst hf; beta_reduce
  with_reducible repeat' first
    | assumption | apply Keeps.setLayer | apply Keeps.ite
    | (refine Keeps.foldl ?_ ?_ _; rotate_left; intros; beta_reduce)
    | (extract_lets +onlyGivenNames -underBinder x; clear_value x; revert x; intro _) | split
    | exact KeepsP.keeps (p := (_, _)) (by assumption) | refine KeepsP.of_eq ?_ (by assumption)

theorem Keeps.countHandoff {s q seq i source epoch attempt offset len} (h : Keeps r s) :
    Keeps r (State.countHandoff s q seq i source epoch attempt offset len) := by
  generalize hf : @State.countHandoff = f; delta State.countHandoff at hf; subst hf; beta_reduce
  with_reducible repeat' first
    | assumption | apply Keeps.clearLayers | apply Keeps.modCmd | apply Keeps.modSlot | apply Keeps.addLayers
    | apply Keeps.failAlways | apply Keeps.ite | (fail_if_no_progress apply Keeps.upd)
    | (extract_lets +onlyGivenNames -underBinder x; first | (refine Keeps.cut (s := x) (r := r) ?_ ?_; rotate_left; clear_value x; revert x; intro _ _; rotate_left; dsimp -zeta -iota -proj only [x]; clear x) | (clear_value x; revert x; intro _))
    | split | refine KeepsP.of_eq ?_ (by assumption)

end Sys2Proof.Machine
end

