-- ==== Sys2Proof/Laws/KeepsLash.lean ====
section
/-! SUPPORT. The operations of windows, cores and requests keep what `Keeps` says. -/

set_option linter.all false

namespace Sys2Proof.Machine

variable {r : State}

/-! ### InvOps -/

theorem Keeps.noteStored {s r'} (h : Keeps r s) : Keeps r (State.noteStored s r') := by
  generalize hf : @State.noteStored = f; delta State.noteStored at hf; subst hf; beta_reduce
  with_reducible repeat' first
    | assumption | apply Keeps.countHandoff | (fail_if_no_progress apply Keeps.upd) | split
    | refine KeepsP.of_eq ?_ (by assumption)

theorem Keeps.takePacket {s port v i} (h : Keeps r s) : Keeps r (State.takePacket s port v i) := by
  generalize hf : @State.takePacket = f; delta State.takePacket at hf; subst hf; beta_reduce
  with_reducible repeat' first
    | assumption | apply Keeps.modPort | apply Keeps.sendIdle | apply Keeps.owe | apply Keeps.ite
    | (fail_if_no_progress apply Keeps.upd)
    | (extract_lets +onlyGivenNames -underBinder x; first | (refine Keeps.cut (s := x) (r := r) ?_ ?_; rotate_left; clear_value x; revert x; intro _ _; rotate_left; dsimp -zeta -iota -proj only [x]; clear x) | (clear_value x; revert x; intro _))
    | split | refine KeepsP.of_eq ?_ (by assumption)

theorem Keeps.countRefused {s} (h : Keeps r s) : Keeps r (State.countRefused s) := by
  generalize hf : @State.countRefused = f; delta State.countRefused at hf; subst hf; beta_reduce
  with_reducible repeat' first
    | assumption | (fail_if_no_progress apply Keeps.upd)

theorem Keeps.startInbound {s port i pk w d} (h : Keeps r s) : Keeps r (State.startInbound s port i pk w d) := by
  generalize hf : @State.startInbound = f; delta State.startInbound at hf; subst hf; beta_reduce
  have hc0 := @Keeps.startAccess r; obtain ⟨g, hg⟩ : ∃ g, g = @State.startAccess := ⟨_, rfl⟩; rw [← hg] at hc0 ⊢; clear hg
  with_reducible repeat' first
    | assumption | apply hc0 | apply Keeps.takePacket | apply Keeps.modReq | apply Keeps.ite | apply KeepsP.ite
    | (fail_if_no_progress apply Keeps.upd) | apply KeepsP.keeps
    | (extract_lets +onlyGivenNames -underBinder x; first | (refine Keeps.cut (s := x) (r := r) ?_ ?_; rotate_left; clear_value x; revert x; intro _ _; rotate_left; dsimp -zeta -iota -proj only [x]; clear x) | (refine KeepsP.cut (p := x) (r := r) ?_ ?_; rotate_left; clear_value x; revert x; intro _ _; rotate_left; dsimp -zeta -iota -proj only [x]; clear x) | (clear_value x; revert x; intro _))
    | split | exact KeepsP.keeps (p := (_, _)) (by assumption) | refine KeepsP.of_eq ?_ (by assumption)
    | dsimp +zetaDelta -zeta -iota -proj only | apply KeepsP.pair

theorem Keeps.meetInbound {r s t : State} {port : Nat} {x : Header} (h : Keeps r s)
    (e : s.meetInbound port x = some t) : Keeps r t := by
  unfold State.meetInbound at e
  split at e
  · cases e
    exact h
  · split at e
    · cases e
      exact h
    · simp only [Option.map_eq_some_iff] at e
      obtain ⟨_, _, e⟩ := e
      cases e
      exact Keeps.modCmd h

theorem Keeps.serveInbound {s port} (h : Keeps r s) : Keeps r (State.serveInbound s port) := by
  unfold State.serveInbound
  have h0 := Keeps.forgetSteps h
  dsimp only
  split
  · exact h0
  · refine Keeps.ite (Keeps.respond (Keeps.takePacket (Keeps.countRefused h0))) ?_
    split
    · exact Keeps.respond (Keeps.takePacket h0)
    · rename_i e
      have h1 := Keeps.meetInbound h0 e
      generalize hx : State.translate _ _ _ _ _ = x
      have h2 : KeepsP r x := hx ▸ Keeps.translate h1
      split
      · exact Keeps.startInbound h2.keeps
      · exact Keeps.faultFor h2.keeps
      · exact Keeps.respond (Keeps.takePacket h2.keeps)
      · exact Keeps.respond (Keeps.takePacket h2.keeps)
      · exact h2.keeps

theorem Keeps.answerInbound {s port write} (h : Keeps r s) : Keeps r (State.answerInbound s port write) := by
  generalize hf : @State.answerInbound = f; delta State.answerInbound at hf; subst hf; beta_reduce
  with_reducible repeat' first
    | assumption | apply Keeps.noteStored | apply Keeps.respond | apply Keeps.dropReq | apply Keeps.ite
    | (fail_if_no_progress apply Keeps.upd)
    | (extract_lets +onlyGivenNames -underBinder x; first | (refine Keeps.cut (s := x) (r := r) ?_ ?_; rotate_left; clear_value x; revert x; intro _ _; rotate_left; dsimp -zeta -iota -proj only [x]; clear x) | (clear_value x; revert x; intro _))
    | split | refine KeepsP.of_eq ?_ (by assumption)

theorem Keeps.endAperture {s r' fn res} (h : Keeps r s) : Keeps r (State.endAperture s r' fn res) := by
  generalize hf : @State.endAperture = f; delta State.endAperture at hf; subst hf; beta_reduce
  with_reducible repeat' first
    | assumption | apply Keeps.dropReq | apply Keeps.modFn | apply Keeps.send | apply Keeps.ite
    | (fail_if_no_progress apply Keeps.upd)
    | (extract_lets +onlyGivenNames -underBinder x; first | (refine Keeps.cut (s := x) (r := r) ?_ ?_; rotate_left; clear_value x; revert x; intro _ _; rotate_left; dsimp -zeta -iota -proj only [x]; clear x) | (clear_value x; revert x; intro _))
    | split | refine KeepsP.of_eq ?_ (by assumption)

theorem Keeps.lateResult {s id res} (h : Keeps r s) : KeepsP r (State.lateResult s id res) := by
  generalize hf : @State.lateResult = f; delta State.lateResult at hf; subst hf; beta_reduce
  with_reducible repeat' first
    | assumption | apply KeepsP.ite | (fail_if_no_progress apply Keeps.upd) | split
    | refine KeepsP.of_eq ?_ (by assumption) | apply KeepsP.pair

theorem Keeps.endReq {s id res} (h : Keeps r s) : Keeps r (State.endReq s id res) := by
  generalize hf : @State.endReq = f; delta State.endReq at hf; subst hf; beta_reduce
  with_reducible repeat' first
    | assumption | apply Keeps.aperture | apply Keeps.modReq | apply Keeps.lateResult | apply Keeps.settle | apply Keeps.dropReq | apply Keeps.endAperture
    | (fail_if_no_progress apply Keeps.upd)
    | (extract_lets +onlyGivenNames -underBinder x; first | (refine Keeps.cut (s := x) (r := r) ?_ ?_; rotate_left; clear_value x; revert x; intro _ _; rotate_left; dsimp -zeta -iota -proj only [x]; clear x) | (clear_value x; revert x; intro _))
    | split | refine KeepsP.of_eq ?_ (by assumption)

theorem Keeps.arriveReq {s id res} (h : Keeps r s) : Keeps r (State.arriveReq s id res) := by
  generalize hf : @State.arriveReq = f; delta State.arriveReq at hf; subst hf; beta_reduce
  with_reducible repeat' first
    | assumption | apply Keeps.modReq | apply Keeps.sendVec | apply Keeps.endReq
    | apply Keeps.ite | (fail_if_no_progress apply Keeps.upd)
    | (refine Keeps.foldl ?_ ?_ _; rotate_left; intros; beta_reduce)
    | (refine KeepsP.foldl ?_ ?_ _; rotate_left; intros; beta_reduce)
    | apply KeepsP.keeps
    | (extract_lets +onlyGivenNames -underBinder x; first | (refine Keeps.cut (s := x) (r := r) ?_ ?_; rotate_left; clear_value x; revert x; intro _ _; rotate_left; dsimp -zeta -iota -proj only [x]; clear x) | (clear_value x; revert x; intro _))
    | split | exact KeepsP.keeps (p := (_, _)) (by assumption) | refine KeepsP.of_eq ?_ (by assumption)

/-! ### Reduce -/

theorem Keeps.reduceAt {s qn c port h' d} (h : Keeps r s) : KeepsP r (State.reduceAt s qn c port h' d) := by
  generalize hf : @State.reduceAt = f; delta State.reduceAt at hf; subst hf; beta_reduce
  with_reducible repeat' first
    | assumption | apply Keeps.modCmd | apply Keeps.failAlways | apply Keeps.ite | apply KeepsP.ite
    | (fail_if_no_progress apply Keeps.upd) | apply KeepsP.keeps
    | (extract_lets +onlyGivenNames -underBinder x; first | (refine Keeps.cut (s := x) (r := r) ?_ ?_; rotate_left; clear_value x; revert x; intro _ _; rotate_left; dsimp -zeta -iota -proj only [x]; clear x) | (clear_value x; revert x; intro _))
    | split | refine KeepsP.of_eq ?_ (by assumption) | apply KeepsP.pair

theorem Keeps.serveReduce {s port} (h : Keeps r s) : Keeps r (State.serveReduce s port) := by
  generalize hf : @State.serveReduce = f; delta State.serveReduce at hf; subst hf; beta_reduce
  have hc0 := @Keeps.reduceAt r; obtain ⟨g, hg⟩ : ∃ g, g = @State.reduceAt := ⟨_, rfl⟩; rw [← hg] at hc0 ⊢; clear hg
  with_reducible repeat' first
    | assumption | apply Keeps.countRefused | apply hc0 | apply Keeps.respond | apply Keeps.takePacket
    | apply Keeps.ite | apply KeepsP.ite | (fail_if_no_progress apply Keeps.upd) | apply KeepsP.keeps
    | (extract_lets +onlyGivenNames -underBinder x; first | (refine Keeps.cut (s := x) (r := r) ?_ ?_; rotate_left; clear_value x; revert x; intro _ _; rotate_left; dsimp -zeta -iota -proj only [x]; clear x) | (refine KeepsP.cut (p := x) (r := r) ?_ ?_; rotate_left; clear_value x; revert x; intro _ _; rotate_left; dsimp -zeta -iota -proj only [x]; clear x) | (clear_value x; revert x; intro _))
    | split | exact KeepsP.keeps (p := (_, _)) (by assumption) | refine KeepsP.of_eq ?_ (by assumption)
    | dsimp +zetaDelta -zeta -iota -proj only | apply KeepsP.pair

/-! ### LinkRx -/

theorem Keeps.replayOrDown {s n} (h : Keeps r s) : Keeps r (State.replayOrDown s n) := by
  generalize hf : @State.replayOrDown = f; delta State.replayOrDown at hf; subst hf; beta_reduce
  with_reducible repeat' first
    | assumption | apply Keeps.portDown | apply Keeps.replayPort | apply Keeps.ite

theorem Keeps.takeAck {s n ack credit} (h : Keeps r s) : Keeps r (State.takeAck s n ack credit) := by
  generalize hf : @State.takeAck = f; delta State.takeAck at hf; subst hf; beta_reduce
  with_reducible repeat' first
    | assumption | apply Keeps.setPort | (fail_if_no_progress apply Keeps.upd)
    | (refine Keeps.foldl ?_ ?_ _; rotate_left; intros; beta_reduce)
    | (refine KeepsP.foldl ?_ ?_ _; rotate_left; intros; beta_reduce)
    | (extract_lets +onlyGivenNames -underBinder x; clear_value x; revert x; intro _) | split
    | exact KeepsP.keeps (p := (_, _)) (by assumption) | refine KeepsP.of_eq ?_ (by assumption)

theorem Keeps.discardPacket {s n ty len} (h : Keeps r s) : Keeps r (State.discardPacket s n ty len) := by
  generalize hf : @State.discardPacket = f; delta State.discardPacket at hf; subst hf; beta_reduce
  with_reducible repeat' first
    | assumption | apply Keeps.owe | (fail_if_no_progress apply Keeps.upd) | split
    | refine KeepsP.of_eq ?_ (by assumption)

theorem Keeps.countRejected {s n} (h : Keeps r s) : Keeps r (State.countRejected s n) := by
  generalize hf : @State.countRejected = f; delta State.countRejected at hf; subst hf; beta_reduce
  with_reducible repeat' first
    | assumption | apply Keeps.modPort | (fail_if_no_progress apply Keeps.upd)

theorem Keeps.acceptPacket {s n b} (h : Keeps r s) : Keeps r (State.acceptPacket s n b) := by
  generalize hf : @State.acceptPacket = f; delta State.acceptPacket at hf; subst hf; beta_reduce
  with_reducible repeat' first
    | assumption | apply hfn | intro _ | apply Keeps.portDown | apply Keeps.countRejected | apply Keeps.discardPacket
    | apply Keeps.event | apply Keeps.modPort | apply Keeps.activity | apply Keeps.ite
    | (fail_if_no_progress apply Keeps.upd)
    | (extract_lets +onlyGivenNames -underBinder x; first | (refine Keeps.cut (s := x) (r := r) ?_ ?_; rotate_left; clear_value x; revert x; intro _ _; rotate_left; dsimp -zeta -iota -proj only [x]; clear x) | (refine Keeps.cutAt (∀ (s : State), Keeps r s → Keeps r (x s)) ?_ ?_; rotate_left; clear_value x; revert x; intro _ hfn; rotate_left; dsimp -zeta -iota -proj only [x]; clear x) | (refine Keeps.cutAt (∀ (s : State) a, Keeps r s → Keeps r (x s a)) ?_ ?_; rotate_left; clear_value x; revert x; intro _ hfn; rotate_left; dsimp -zeta -iota -proj only [x]; clear x) | (refine Keeps.cutAt (∀ (s : State) a b, Keeps r s → Keeps r (x s a b)) ?_ ?_; rotate_left; clear_value x; revert x; intro _ hfn; rotate_left; dsimp -zeta -iota -proj only [x]; clear x) | (refine Keeps.cutAt (∀ (s : State) a b c, Keeps r s → Keeps r (x s a b c)) ?_ ?_; rotate_left; clear_value x; revert x; intro _ hfn; rotate_left; dsimp -zeta -iota -proj only [x]; clear x) | (refine Keeps.cutAt (∀ (s : State), Keeps r s → KeepsP r (x s)) ?_ ?_; rotate_left; clear_value x; revert x; intro _ hfn; rotate_left; dsimp -zeta -iota -proj only [x]; clear x) | (refine Keeps.cutAt (∀ (s : State) a, Keeps r s → KeepsP r (x s a)) ?_ ?_; rotate_left; clear_value x; revert x; intro _ hfn; rotate_left; dsimp -zeta -iota -proj only [x]; clear x) | (refine Keeps.cutAt (∀ (s : State) a b, Keeps r s → KeepsP r (x s a b)) ?_ ?_; rotate_left; clear_value x; revert x; intro _ hfn; rotate_left; dsimp -zeta -iota -proj only [x]; clear x) | (refine Keeps.cutAt (∀ (s : State) a b c, Keeps r s → KeepsP r (x s a b c)) ?_ ?_; rotate_left; clear_value x; revert x; intro _ hfn; rotate_left; dsimp -zeta -iota -proj only [x]; clear x) | (refine Keeps.cutAt (∀ (s : State), Keeps r s → KeepsDid r (x s)) ?_ ?_; rotate_left; clear_value x; revert x; intro _ hfn; rotate_left; dsimp -zeta -iota -proj only [x]; clear x) | (refine Keeps.cutAt (∀ (s : State) a, Keeps r s → KeepsDid r (x s a)) ?_ ?_; rotate_left; clear_value x; revert x; intro _ hfn; rotate_left; dsimp -zeta -iota -proj only [x]; clear x) | (refine Keeps.cutAt (∀ (s : State) a b, Keeps r s → KeepsDid r (x s a b)) ?_ ?_; rotate_left; clear_value x; revert x; intro _ hfn; rotate_left; dsimp -zeta -iota -proj only [x]; clear x) | (refine Keeps.cutAt (∀ (s : State) a b c, Keeps r s → KeepsDid r (x s a b c)) ?_ ?_; rotate_left; clear_value x; revert x; intro _ hfn; rotate_left; dsimp -zeta -iota -proj only [x]; clear x) | (clear_value x; revert x; intro _))
    | split | refine KeepsP.of_eq ?_ (by assumption) | dsimp +zetaDelta -zeta -iota -proj only

theorem Keeps.parsePackets {x1 x2 x3} (h : Keeps r x2) : Keeps r (State.parsePackets x1 x2 x3) := by
  induction x1 generalizing x2 x3 with
  | zero =>
    unfold State.parsePackets
    with_reducible repeat' first
      | assumption | apply Keeps.modPort | apply Keeps.acceptPacket | apply Keeps.ite
      | (fail_if_no_progress apply Keeps.upd)
      | (extract_lets +onlyGivenNames -underBinder x; clear_value x; revert x; intro _)
  | succ n ih =>
    unfold State.parsePackets
    with_reducible repeat' first
      | assumption | apply ih | apply Keeps.modPort | apply Keeps.acceptPacket | apply Keeps.ite
      | (fail_if_no_progress apply Keeps.upd)
      | (extract_lets +onlyGivenNames -underBinder x; clear_value x; revert x; intro _)

theorem Keeps.openGap {s n} (h : Keeps r s) : Keeps r (State.openGap s n) := by
  generalize hf : @State.openGap = f; delta State.openGap at hf; subst hf; beta_reduce
  with_reducible repeat' first
    | assumption | apply Keeps.send | apply Keeps.setPort | apply Keeps.ite | (fail_if_no_progress apply Keeps.upd)
    | (extract_lets +onlyGivenNames -underBinder x; clear_value x; revert x; intro _) | split
    | refine KeepsP.of_eq ?_ (by assumption)

theorem Keeps.goodFlit {s n f} (h : Keeps r s) : Keeps r (State.goodFlit s n f) := by
  generalize hf : @State.goodFlit = f; delta State.goodFlit at hf; subst hf; beta_reduce
  with_reducible repeat' first
    | assumption | apply Keeps.pumpPort | apply Keeps.takeAck | apply Keeps.modPort | apply Keeps.parsePackets
    | apply Keeps.sendIdle | apply Keeps.openGap | apply Keeps.replayOrDown | apply Keeps.ite
    | (fail_if_no_progress apply Keeps.upd)
    | (extract_lets +onlyGivenNames -underBinder x; first | (refine Keeps.cut (s := x) (r := r) ?_ ?_; rotate_left; clear_value x; revert x; intro _ _; rotate_left; dsimp -zeta -iota -proj only [x]; clear x) | (clear_value x; revert x; intro _))
    | split | refine KeepsP.of_eq ?_ (by assumption)

/-! ### Links -/

theorem Keeps.notReadyYet {s r'} (h : Keeps r s) : Keeps r (State.notReadyYet s r') := by
  generalize hf : @State.notReadyYet = f; delta State.notReadyYet at hf; subst hf; beta_reduce
  with_reducible repeat' first
    | assumption | apply Keeps.arriveReq | apply Keeps.modReq | apply Keeps.ite
    | (fail_if_no_progress apply Keeps.upd)
    | (extract_lets +onlyGivenNames -underBinder x; first | (refine Keeps.cut (s := x) (r := r) ?_ ?_; rotate_left; clear_value x; revert x; intro _ _; rotate_left; dsimp -zeta -iota -proj only [x]; clear x) | (clear_value x; revert x; intro _))

theorem Keeps.takeResponse {s port write} (h : Keeps r s) : Keeps r (State.takeResponse s port write) := by
  generalize hf : @State.takeResponse = f; delta State.takeResponse at hf; subst hf; beta_reduce
  with_reducible repeat' first
    | assumption | apply Keeps.takePacket | apply Keeps.arriveReq | apply Keeps.notReadyYet | apply Keeps.ite
    | (fail_if_no_progress apply Keeps.upd)
    | (extract_lets +onlyGivenNames -underBinder x; first | (refine Keeps.cut (s := x) (r := r) ?_ ?_; rotate_left; clear_value x; revert x; intro _ _; rotate_left; dsimp -zeta -iota -proj only [x]; clear x) | (clear_value x; revert x; intro _))
    | split | refine KeepsP.of_eq ?_ (by assumption)

theorem Keeps.countIgnored {s} (h : Keeps r s) : Keeps r (State.countIgnored s) := by
  generalize hf : @State.countIgnored = f; delta State.countIgnored at hf; subst hf; beta_reduce
  with_reducible repeat' first
    | assumption | (fail_if_no_progress apply Keeps.upd)

theorem Keeps.putContributor {s q seq e} (h : Keeps r s) : Keeps r (State.putContributor s q seq e) := by
  generalize hf : @State.putContributor = f; delta State.putContributor at hf; subst hf; beta_reduce
  with_reducible repeat' first
    | assumption | apply Keeps.modCmd | (fail_if_no_progress apply Keeps.upd)

theorem Keeps.noticeAtSlot {s q c} (h : Keeps r s) : Keeps r (State.noticeAtSlot s q c) := by
  generalize hf : @State.noticeAtSlot = f; delta State.noticeAtSlot at hf; subst hf; beta_reduce
  with_reducible repeat' first
    | assumption | apply Keeps.modSlot | apply Keeps.failAlways | apply Keeps.ite
    | (fail_if_no_progress apply Keeps.upd)
    | (extract_lets +onlyGivenNames -underBinder x; first | (refine Keeps.cut (s := x) (r := r) ?_ ?_; rotate_left; clear_value x; revert x; intro _ _; rotate_left; dsimp -zeta -iota -proj only [x]; clear x) | (clear_value x; revert x; intro _))
    | split | refine KeepsP.of_eq ?_ (by assumption)

theorem Keeps.takePace {s i m} (h : Keeps r s) : Keeps r (State.takePace s i m) := by
  generalize hf : @State.takePace = f; delta State.takePace at hf; subst hf; beta_reduce
  with_reducible repeat' first
    | assumption | apply Keeps.setPace
    | apply Keeps.ite | (fail_if_no_progress apply Keeps.upd)
    | (extract_lets +onlyGivenNames -underBinder x; first | (refine Keeps.cut (s := x) (r := r) ?_ ?_; rotate_left; clear_value x; revert x; intro _ _; rotate_left; dsimp -zeta -iota -proj only [x]; clear x) | (clear_value x; revert x; intro _))
    | split | exact KeepsP.keeps (p := (_, _)) (by assumption) | refine KeepsP.of_eq ?_ (by assumption)

theorem Keeps.noteRekey {s n} (h : Keeps r s) : Keeps r (State.noteRekey s n) := by
  generalize hf : @State.noteRekey = f; delta State.noteRekey at hf; subst hf; beta_reduce
  with_reducible repeat' first
    | assumption | apply Keeps.modPort | (fail_if_no_progress apply Keeps.upd) | split
    | refine KeepsP.of_eq ?_ (by assumption)

theorem Keeps.putTxKey {n slot key x1} (h : Keeps r x1) : KeepsP r (Machine.putTxKey n slot key x1) := by
  generalize hf : @Machine.putTxKey = f; delta Machine.putTxKey at hf; subst hf; beta_reduce
  with_reducible repeat' first
    | assumption | apply Keeps.pumpPort | apply Keeps.noteRekey | apply Keeps.modPort
    | (fail_if_no_progress apply Keeps.upd) | apply KeepsP.pair

theorem Keeps.putRxKey {n slot key x1} (h : Keeps r x1) : KeepsP r (Machine.putRxKey n slot key x1) := by
  generalize hf : @Machine.putRxKey = f; delta Machine.putRxKey at hf; subst hf; beta_reduce
  with_reducible repeat' first
    | assumption | apply Keeps.modPort | (fail_if_no_progress apply Keeps.upd) | apply KeepsP.pair

theorem Keeps.putTxSel {n v x1} (h : Keeps r x1) : KeepsP r (Machine.putTxSel n v x1) := by
  generalize hf : @Machine.putTxSel = f; delta Machine.putTxSel at hf; subst hf; beta_reduce
  with_reducible repeat' first
    | assumption | apply Keeps.pumpPort | apply Keeps.noteRekey | apply Keeps.modPort
    | (fail_if_no_progress apply Keeps.upd) | apply KeepsP.pair

theorem Keeps.putRxInvalid {n v x1} (h : Keeps r x1) : KeepsP r (Machine.putRxInvalid n v x1) := by
  generalize hf : @Machine.putRxInvalid = f; delta Machine.putRxInvalid at hf; subst hf; beta_reduce
  with_reducible repeat' first
    | assumption | apply Keeps.modPort | apply Keeps.ite | apply KeepsP.ite | (fail_if_no_progress apply Keeps.upd)
    | apply KeepsP.keeps | (extract_lets +onlyGivenNames -underBinder x; clear_value x; revert x; intro _)
    | apply KeepsP.pair

/-! ### OwnerOps -/

theorem Keeps.killGone {s q seq} (h : Keeps r s) : Keeps r (State.killGone s q seq) := by
  generalize hf : @State.killGone = f; delta State.killGone at hf; subst hf; beta_reduce
  with_reducible repeat' first
    | assumption | apply Keeps.failAlways | apply Keeps.killAny | apply Keeps.ite
    | (fail_if_no_progress apply Keeps.upd) | split | refine KeepsP.of_eq ?_ (by assumption)

theorem Keeps.killQueue {s q} (h : Keeps r s) : Keeps r (State.killQueue s q) := by
  generalize hf : @State.killQueue = f; delta State.killQueue at hf; subst hf; beta_reduce
  with_reducible repeat' first
    | assumption | apply Keeps.killGone | (fail_if_no_progress apply Keeps.upd)
    | (refine Keeps.foldl ?_ ?_ _; rotate_left; intros; beta_reduce)
    | (refine KeepsP.foldl ?_ ?_ _; rotate_left; intros; beta_reduce) | split
    | exact KeepsP.keeps (p := (_, _)) (by assumption) | refine KeepsP.of_eq ?_ (by assumption)

theorem Keeps.breakOwned {s p} (h : Keeps r s) : Keeps r (State.breakOwned s p) := by
  generalize hf : @State.breakOwned = f; delta State.breakOwned at hf; subst hf; beta_reduce
  with_reducible repeat' first
    | assumption | apply Keeps.breakFence | apply Keeps.ite
    | (refine Keeps.foldl ?_ ?_ _; rotate_left; intros; beta_reduce)
    | (refine KeepsP.foldl ?_ ?_ _; rotate_left; intros; beta_reduce) | apply KeepsP.keeps | split
    | exact KeepsP.keeps (p := (_, _)) (by assumption) | refine KeepsP.of_eq ?_ (by assumption)

theorem Keeps.slotsGone {s p} (h : Keeps r s) : Keeps r (State.slotsGone s p) := by
  generalize hf : @State.slotsGone = f; delta State.slotsGone at hf; subst hf; beta_reduce
  with_reducible repeat' first
    | assumption | apply Keeps.slotGone | apply Keeps.ite
    | (refine Keeps.foldl ?_ ?_ _; rotate_left; intros; beta_reduce) | split
    | exact KeepsP.keeps (p := (_, _)) (by assumption) | refine KeepsP.of_eq ?_ (by assumption)

theorem Keeps.killBight {s b} (h : Keeps r s) : Keeps r (State.killBight s b) := by
  generalize hf : @State.killBight = f; delta State.killBight at hf; subst hf; beta_reduce
  with_reducible repeat' first
    | assumption | apply Keeps.killGone | apply Keeps.ite
    | (refine Keeps.foldl ?_ ?_ _; rotate_left; intros; beta_reduce)
    | (refine KeepsP.foldl ?_ ?_ _; rotate_left; intros; beta_reduce) | apply KeepsP.keeps | split
    | exact KeepsP.keeps (p := (_, _)) (by assumption) | refine KeepsP.of_eq ?_ (by assumption)

theorem Keeps.beginRelease {s b} (h : Keeps r s) : Keeps r (State.beginRelease s b) := by
  generalize hf : @State.beginRelease = f; delta State.beginRelease at hf; subst hf; beta_reduce
  with_reducible repeat' first
    | assumption | apply Keeps.reportLash | apply Keeps.dueClear | apply Keeps.killBight | apply Keeps.cancelRelash
    | apply Keeps.ite
    | (extract_lets +onlyGivenNames -underBinder x; first | (refine Keeps.cut (s := x) (r := r) ?_ ?_; rotate_left; clear_value x; revert x; intro _ _; rotate_left; dsimp -zeta -iota -proj only [x]; clear x) | (clear_value x; revert x; intro _))

theorem Keeps.releaseAll {s l} (h : Keeps r s) : Keeps r (State.releaseAll s l) := by
  generalize hf : @State.releaseAll = f; delta State.releaseAll at hf; subst hf; beta_reduce
  with_reducible repeat' first
    | assumption | apply Keeps.beginRelease | apply Keeps.ite
    | (refine Keeps.foldl ?_ ?_ _; rotate_left; intros; beta_reduce) | split
    | exact KeepsP.keeps (p := (_, _)) (by assumption) | refine KeepsP.of_eq ?_ (by assumption)

theorem Keeps.dropFnFaults {s fn} (h : Keeps r s) : Keeps r (State.dropFnFaults s fn) := by
  generalize hf : @State.dropFnFaults = f; delta State.dropFnFaults at hf; subst hf; beta_reduce
  with_reducible repeat' first
    | assumption | (fail_if_no_progress apply Keeps.upd)

theorem Keeps.resetBight {s b} (h : Keeps r s) : Keeps r (State.resetBight s b) := by
  generalize hf : @State.resetBight = f; delta State.resetBight at hf; subst hf; beta_reduce
  with_reducible repeat' first
    | assumption | apply Keeps.dueClear | apply Keeps.killBight | apply Keeps.cancelRelash
    | (fail_if_no_progress apply Keeps.upd) | split | refine KeepsP.of_eq ?_ (by assumption)

theorem Keeps.cancelNow {r : State} {s : State} {b : Nat} (h : Keeps r s) :
    Keeps r (State.cancelNow s b) := by
  generalize hf : @State.cancelNow = f; delta State.cancelNow at hf; subst hf; beta_reduce
  repeat' (first | with_reducible assumption  | with_reducible apply Keeps.cancelRelash | with_reducible apply Keeps.breakFence | with_reducible apply Keeps.ite | with_reducible apply KeepsP.ite | fail_if_no_progress with_reducible apply Keeps.upd | with_reducible apply KeepsOut.next | exact trivial | with_reducible apply KeepsDid.done | with_reducible apply KeepsDid.raise | with_reducible apply KeepsDid.stall | (with_reducible refine Keeps.foldl ?_ ?_ _; rotate_left; intros; beta_reduce) | (with_reducible refine KeepsP.foldl ?_ ?_ _; rotate_left; intros; beta_reduce) | with_reducible apply KeepsP.keeps | (extract_lets +onlyGivenNames -underBinder x; first | (refine Keeps.cut (r := r) (s := x) ?_ ?_; rotate_left; clear_value x; revert x; intro _ _; rotate_left; dsimp -zeta -iota -proj only [x]; clear x) | (refine KeepsP.cut (r := r) (p := x) ?_ ?_; rotate_left; clear_value x; revert x; intro _ _; rotate_left; dsimp -zeta -iota -proj only [x]; clear x) | clear_value x) | split | exact KeepsP.keeps (p := (_, _)) (by assumption) | (refine KeepsP.of_eq ?_ (by assumption)) | dsimp +zetaDelta -zeta -iota -proj only | with_reducible apply KeepsP.pair)

theorem Keeps.beginFlr {s fn} (h : Keeps r s) : Keeps r (State.beginFlr s fn) := by
  generalize hf : @State.beginFlr = f; delta State.beginFlr at hf; subst hf; beta_reduce
  with_reducible repeat' first
    | assumption | apply Keeps.cancelNow | apply Keeps.cancelRelash | apply Keeps.slotsGone | apply Keeps.breakOwned | apply Keeps.killQueue | apply Keeps.modQueue
    | apply Keeps.resetBight | apply Keeps.modFn | apply Keeps.dropFnFaults | apply Keeps.flrCheck
    | (fail_if_no_progress apply Keeps.upd) | (refine Keeps.foldl ?_ ?_ _; rotate_left; intros; beta_reduce)
    | (extract_lets +onlyGivenNames -underBinder x; first | (refine Keeps.cut (s := x) (r := r) ?_ ?_; rotate_left; clear_value x; revert x; intro _ _; rotate_left; dsimp -zeta -iota -proj only [x]; clear x) | (clear_value x; revert x; intro _))
    | split | exact KeepsP.keeps (p := (_, _)) (by assumption) | refine KeepsP.of_eq ?_ (by assumption)

theorem Keeps.closeWindows {s p abort} (h : Keeps r s) : Keeps r (State.closeWindows s p abort) := by
  generalize hf : @State.closeWindows = f; delta State.closeWindows at hf; subst hf; beta_reduce
  with_reducible repeat' first
    | assumption | apply Keeps.closeInbound | apply Keeps.ite
    | (refine Keeps.foldl ?_ ?_ _; rotate_left; intros; beta_reduce) | split
    | exact KeepsP.keeps (p := (_, _)) (by assumption) | refine KeepsP.of_eq ?_ (by assumption)

theorem Keeps.breakWould {r : State} {s : State} {q : Nat} {c : Cmd} (h : Keeps r s) :
    Keeps r (State.breakWould s q c) := by
  generalize hf : @State.breakWould = f; delta State.breakWould at hf; subst hf; beta_reduce
  repeat' (first | with_reducible assumption  | with_reducible apply Keeps.breakFence | with_reducible apply Keeps.ite | with_reducible apply KeepsP.ite | fail_if_no_progress with_reducible apply Keeps.upd | with_reducible apply KeepsOut.next | exact trivial | with_reducible apply KeepsDid.done | with_reducible apply KeepsDid.raise | with_reducible apply KeepsDid.stall | (with_reducible refine Keeps.foldl ?_ ?_ _; rotate_left; intros; beta_reduce) | (with_reducible refine KeepsP.foldl ?_ ?_ _; rotate_left; intros; beta_reduce) | with_reducible apply KeepsP.keeps | (extract_lets +onlyGivenNames -underBinder x; first | (refine Keeps.cut (r := r) (s := x) ?_ ?_; rotate_left; clear_value x; revert x; intro _ _; rotate_left; dsimp -zeta -iota -proj only [x]; clear x) | (refine KeepsP.cut (r := r) (p := x) ?_ ?_; rotate_left; clear_value x; revert x; intro _ _; rotate_left; dsimp -zeta -iota -proj only [x]; clear x) | clear_value x) | split | exact KeepsP.keeps (p := (_, _)) (by assumption) | (refine KeepsP.of_eq ?_ (by assumption)) | dsimp +zetaDelta -zeta -iota -proj only | with_reducible apply KeepsP.pair)

theorem Keeps.teardownBreak {r : State} {s : State} {asid : Nat} (h : Keeps r s) :
    Keeps r (State.teardownBreak s asid) := by
  generalize hf : @State.teardownBreak = f; delta State.teardownBreak at hf; subst hf; beta_reduce
  repeat' (first | with_reducible assumption  | with_reducible apply Keeps.breakOwned | with_reducible apply Keeps.slotsGone | with_reducible apply Keeps.breakWould | with_reducible apply Keeps.closeWindows | with_reducible apply Keeps.invalidate | with_reducible apply Keeps.ite | with_reducible apply KeepsP.ite | fail_if_no_progress with_reducible apply Keeps.upd | with_reducible apply KeepsOut.next | exact trivial | with_reducible apply KeepsDid.done | with_reducible apply KeepsDid.raise | with_reducible apply KeepsDid.stall | (with_reducible refine Keeps.foldl ?_ ?_ _; rotate_left; intros; beta_reduce) | (with_reducible refine KeepsP.foldl ?_ ?_ _; rotate_left; intros; beta_reduce) | with_reducible apply KeepsP.keeps | (extract_lets +onlyGivenNames -underBinder x; first | (refine Keeps.cut (r := r) (s := x) ?_ ?_; rotate_left; clear_value x; revert x; intro _ _; rotate_left; dsimp -zeta -iota -proj only [x]; clear x) | (refine KeepsP.cut (r := r) (p := x) ?_ ?_; rotate_left; clear_value x; revert x; intro _ _; rotate_left; dsimp -zeta -iota -proj only [x]; clear x) | clear_value x) | split | exact KeepsP.keeps (p := (_, _)) (by assumption) | (refine KeepsP.of_eq ?_ (by assumption)) | dsimp +zetaDelta -zeta -iota -proj only | with_reducible apply KeepsP.pair)

theorem Keeps.teardownCheck {r : State} {s : State} (h : Keeps r s) :
    Keeps r (State.teardownCheck s) := by
  generalize hf : @State.teardownCheck = f; delta State.teardownCheck at hf; subst hf; beta_reduce
  repeat' (first | with_reducible assumption  | with_reducible apply Keeps.teardownBreak | with_reducible apply Keeps.ite | with_reducible apply KeepsP.ite | fail_if_no_progress with_reducible apply Keeps.upd | with_reducible apply KeepsOut.next | exact trivial | with_reducible apply KeepsDid.done | with_reducible apply KeepsDid.raise | with_reducible apply KeepsDid.stall | (with_reducible refine Keeps.foldl ?_ ?_ _; rotate_left; intros; beta_reduce) | (with_reducible refine KeepsP.foldl ?_ ?_ _; rotate_left; intros; beta_reduce) | with_reducible apply KeepsP.keeps | (extract_lets +onlyGivenNames -underBinder x; first | (refine Keeps.cut (r := r) (s := x) ?_ ?_; rotate_left; clear_value x; revert x; intro _ _; rotate_left; dsimp -zeta -iota -proj only [x]; clear x) | (refine KeepsP.cut (r := r) (p := x) ?_ ?_; rotate_left; clear_value x; revert x; intro _ _; rotate_left; dsimp -zeta -iota -proj only [x]; clear x) | clear_value x) | split | exact KeepsP.keeps (p := (_, _)) (by assumption) | (refine KeepsP.of_eq ?_ (by assumption)) | dsimp +zetaDelta -zeta -iota -proj only | with_reducible apply KeepsP.pair)

theorem Keeps.teardownStep {s asid} (h : Keeps r s) : Keeps r (State.teardownStep s asid) := by
  generalize hf : @State.teardownStep = f; delta State.teardownStep at hf; subst hf; beta_reduce
  with_reducible repeat' first
    | assumption | apply Keeps.releaseAll

theorem Keeps.clearOwners {s fn} (h : Keeps r s) : Keeps r (State.clearOwners s fn) := by
  generalize hf : @State.clearOwners = f; delta State.clearOwners at hf; subst hf; beta_reduce
  with_reducible repeat' first
    | assumption | apply Keeps.ite | (fail_if_no_progress apply Keeps.upd) | split
    | refine KeepsP.of_eq ?_ (by assumption)

theorem Keeps.removalStep {s} (h : Keeps r s) : Keeps r (State.removalStep s) := by
  generalize hf : @State.removalStep = f; delta State.removalStep at hf; subst hf; beta_reduce
  with_reducible repeat' first
    | assumption | apply Keeps.releaseAll | apply Keeps.clearOwners | apply Keeps.cause | apply Keeps.beginFlr
    | apply Keeps.ite | (fail_if_no_progress apply Keeps.upd)
    | (extract_lets +onlyGivenNames -underBinder x; first | (refine Keeps.cut (s := x) (r := r) ?_ ?_; rotate_left; clear_value x; revert x; intro _ _; rotate_left; dsimp -zeta -iota -proj only [x]; clear x) | (clear_value x; revert x; intro _))
    | split | refine KeepsP.of_eq ?_ (by assumption)

theorem Keeps.ownersGo {s} (h : Keeps r s) : Keeps r (State.ownersGo s) := by
  generalize hf : @State.ownersGo = f; delta State.ownersGo at hf; subst hf; beta_reduce
  with_reducible repeat' first
    | assumption | apply Keeps.teardownCheck | apply Keeps.removalStep | apply Keeps.flrCheck

/-! ### Operands -/

theorem Keeps.fillBlock {r : State} {s : State} {core : Nat} {keep : Nat} {b : Nat} (h : Keeps r s) :
    Keeps r (State.fillBlock s core keep b) := by
  generalize hf : @State.fillBlock = f; delta State.fillBlock at hf; subst hf; beta_reduce
  repeat' (first | with_reducible assumption  | with_reducible apply Keeps.activity | with_reducible apply Keeps.readEachSram | with_reducible apply Keeps.modCore | with_reducible apply Keeps.ite | with_reducible apply KeepsP.ite | fail_if_no_progress with_reducible apply Keeps.upd | with_reducible apply KeepsOut.next | exact trivial | with_reducible apply KeepsDid.done | with_reducible apply KeepsDid.raise | with_reducible apply KeepsDid.stall | (with_reducible refine Keeps.foldl ?_ ?_ _; rotate_left; intros; beta_reduce) | (with_reducible refine KeepsP.foldl ?_ ?_ _; rotate_left; intros; beta_reduce) | with_reducible apply KeepsP.keeps | (extract_lets +onlyGivenNames -underBinder x; first | (refine Keeps.cut (r := r) (s := x) ?_ ?_; rotate_left; clear_value x; revert x; intro _ _; rotate_left; dsimp -zeta -iota -proj only [x]; clear x) | (refine KeepsP.cut (r := r) (p := x) ?_ ?_; rotate_left; clear_value x; revert x; intro _ _; rotate_left; dsimp -zeta -iota -proj only [x]; clear x) | clear_value x) | split | exact KeepsP.keeps (p := (_, _)) (by assumption) | (refine KeepsP.of_eq ?_ (by assumption)) | dsimp +zetaDelta -zeta -iota -proj only | with_reducible apply KeepsP.pair)

theorem Keeps.fetchInto {r : State} {s : State} {core : Nat} (h : Keeps r s) :
    Keeps r (State.fetchInto s core) := by
  generalize hf : @State.fetchInto = f; delta State.fetchInto at hf; subst hf; beta_reduce
  repeat' (first | with_reducible assumption  | with_reducible apply Keeps.fillBlock | with_reducible apply Keeps.ite | with_reducible apply KeepsP.ite | fail_if_no_progress with_reducible apply Keeps.upd | with_reducible apply KeepsOut.next | exact trivial | with_reducible apply KeepsDid.done | with_reducible apply KeepsDid.raise | with_reducible apply KeepsDid.stall | (with_reducible refine Keeps.foldl ?_ ?_ _; rotate_left; intros; beta_reduce) | (with_reducible refine KeepsP.foldl ?_ ?_ _; rotate_left; intros; beta_reduce) | with_reducible apply KeepsP.keeps | (extract_lets +onlyGivenNames -underBinder x; first | (refine Keeps.cut (r := r) (s := x) ?_ ?_; rotate_left; clear_value x; revert x; intro _ _; rotate_left; dsimp -zeta -iota -proj only [x]; clear x) | (refine KeepsP.cut (r := r) (p := x) ?_ ?_; rotate_left; clear_value x; revert x; intro _ _; rotate_left; dsimp -zeta -iota -proj only [x]; clear x) | clear_value x) | split | exact KeepsP.keeps (p := (_, _)) (by assumption) | (refine KeepsP.of_eq ?_ (by assumption)) | dsimp +zetaDelta -zeta -iota -proj only | with_reducible apply KeepsP.pair)

theorem Keeps.raise {s core cause sub unit value} (h : Keeps r s) :
    Keeps r (State.raise s core cause sub unit value) := by
  generalize hf : @State.raise = f; delta State.raise at hf; subst hf; beta_reduce
  with_reducible repeat' first
    | assumption | apply Keeps.cause | apply Keeps.lanSend | apply Keeps.setCore | (fail_if_no_progress apply Keeps.upd)
    | (extract_lets +onlyGivenNames -underBinder x; clear_value x; revert x; intro _) | split
    | refine KeepsP.of_eq ?_ (by assumption)

theorem Keeps.stallCore {s core c why} (h : Keeps r s) : Keeps r (State.stallCore s core c why) := by
  generalize hf : @State.stallCore = f; delta State.stallCore at hf; subst hf; beta_reduce
  with_reducible repeat' first
    | assumption | apply Keeps.modCore
    | apply Keeps.ite | (fail_if_no_progress apply Keeps.upd)
    | (refine Keeps.foldl ?_ ?_ _; rotate_left; intros; beta_reduce)
    | (refine KeepsP.foldl ?_ ?_ _; rotate_left; intros; beta_reduce)
    | apply KeepsP.keeps
    | (extract_lets +onlyGivenNames -underBinder x; first | (refine Keeps.cut (s := x) (r := r) ?_ ?_; rotate_left; clear_value x; revert x; intro _ _; rotate_left; dsimp -zeta -iota -proj only [x]; clear x) | (clear_value x; revert x; intro _))
    | split | exact KeepsP.keeps (p := (_, _)) (by assumption) | refine KeepsP.of_eq ?_ (by assumption)

/-- What an instruction's own part keeps. -/
def KeepsDid (r : State) : Did → Prop
  | .done s _ => Keeps r s
  | .raise s _ _ _ _ => Keeps r s
  | .stall s _ => Keeps r s

theorem KeepsDid.done {r s : State} {t : Option Word} (h : Keeps r s) : KeepsDid r (.done s t) := h

theorem KeepsDid.raise {r s : State} {a b c : Nat} {w : Word} (h : Keeps r s) : KeepsDid r (.raise s a b c w) := h

theorem KeepsDid.stall {r s : State} {w : Stall} (h : Keeps r s) : KeepsDid r (.stall s w) := h

theorem Keeps.fetching {r : State} {s : State} {i : Issue} {insn : Insn} (h : Keeps r s) :
    Keeps r (State.fetching s i insn) := by
  generalize hf : @State.fetching = f; delta State.fetching at hf; subst hf; beta_reduce
  repeat' (first | with_reducible assumption  | with_reducible apply Keeps.setCore | with_reducible apply Keeps.fetchInto | with_reducible apply Keeps.ite | with_reducible apply KeepsP.ite | fail_if_no_progress with_reducible apply Keeps.upd | with_reducible apply KeepsOut.next | exact trivial | with_reducible apply KeepsDid.done | with_reducible apply KeepsDid.raise | with_reducible apply KeepsDid.stall | (with_reducible refine Keeps.foldl ?_ ?_ _; rotate_left; intros; beta_reduce) | (with_reducible refine KeepsP.foldl ?_ ?_ _; rotate_left; intros; beta_reduce) | with_reducible apply KeepsP.keeps | (extract_lets +onlyGivenNames -underBinder x; first | (refine Keeps.cut (r := r) (s := x) ?_ ?_; rotate_left; clear_value x; revert x; intro _ _; rotate_left; dsimp -zeta -iota -proj only [x]; clear x) | (refine KeepsP.cut (r := r) (p := x) ?_ ?_; rotate_left; clear_value x; revert x; intro _ _; rotate_left; dsimp -zeta -iota -proj only [x]; clear x) | clear_value x) | split | exact KeepsP.keeps (p := (_, _)) (by assumption) | (refine KeepsP.of_eq ?_ (by assumption)) | dsimp +zetaDelta -zeta -iota -proj only | with_reducible apply KeepsP.pair)

theorem Keeps.issue {r s : State} {i : Issue} {c : Instr} {insn : Insn} {body : State → Core → Did} (h : Keeps r s)
    (hb : ∀ s k, Keeps r s → KeepsDid r (body s k)) : Keeps r (s.issue i c insn body) := by
  unfold State.issue
  have hf := Keeps.fetching (i := i) (insn := insn) h
  have raise : ∀ (p : Prop) [Decidable p] (t : State) (a b u : Nat) (w : Word) (st : Stall), Keeps r t →
      Keeps r (if p then (s.fetching i insn).stallCore i.core c st else t.raise i.core a b u w) :=
    fun p _ t a b u w st ht => Keeps.ite (Keeps.stallCore hf) (Keeps.raise ht)
  dsimp only
  refine Keeps.ite h (Keeps.ite (Keeps.stallCore hf) (Keeps.ite (raise _ _ _ _ _ _ _ hf) (Keeps.ite (raise _ _ _ _ _ _ _ hf) ?_)))
  generalize hd : body _ _ = d
  have h' : KeepsDid r d := by
    rw [← hd]
    exact hb _ _ hf
  cases d with
  | done s t => exact Keeps.modCore h'
  | raise s a b c w => exact raise _ _ _ _ _ _ _ h'
  | stall s w => exact Keeps.stallCore h'

theorem Keeps.issueReg {s i c insn f} (h : Keeps r s) : Keeps r (State.issueReg s i c insn f) :=
  Keeps.issue h fun _ _ h => KeepsDid.done (Keeps.setCore h)

theorem Keeps.issueAlu {s i c unit rd rs1 rs2 f} (h : Keeps r s) :
    Keeps r (State.issueAlu s i c unit rd rs1 rs2 f) := by
  generalize hf : @State.issueAlu = f; delta State.issueAlu at hf; subst hf; beta_reduce
  with_reducible repeat' first
    | assumption | apply Keeps.issueReg

theorem Keeps.issueVec {s i c unit vd vs f} (h : Keeps r s) : Keeps r (State.issueVec s i c unit vd vs f) := by
  generalize hf : @State.issueVec = f; delta State.issueVec at hf; subst hf; beta_reduce
  with_reducible repeat' first
    | assumption | apply Keeps.issueReg
    | (extract_lets +onlyGivenNames -underBinder x; clear_value x; revert x; intro _) | split
    | refine KeepsP.of_eq ?_ (by assumption)

/-! ### Xlat -/

theorem Keeps.regWrite {r s : State} {fn : Nat} {act : State → State} (h : Keeps r s)
    (ha : ∀ s, Keeps r s → Keeps r (act s)) : Keeps r (s.regWrite fn act) := Keeps.ite (ha _ h) h

theorem Keeps.putContextTable {r : State} {v : BitVec 64} {x1 : State} (h : Keeps r x1) :
    KeepsP r (Machine.putContextTable v x1) := by
  generalize hf : @Machine.putContextTable = f; delta Machine.putContextTable at hf; subst hf; beta_reduce
  repeat' (first | with_reducible assumption  | with_reducible apply Keeps.pinCaches | with_reducible apply Keeps.ite | with_reducible apply KeepsP.ite | fail_if_no_progress with_reducible apply Keeps.upd | with_reducible apply KeepsOut.next | exact trivial | with_reducible apply KeepsDid.done | with_reducible apply KeepsDid.raise | with_reducible apply KeepsDid.stall | (with_reducible refine Keeps.foldl ?_ ?_ _; rotate_left; intros; beta_reduce) | (with_reducible refine KeepsP.foldl ?_ ?_ _; rotate_left; intros; beta_reduce) | with_reducible apply KeepsP.keeps | (extract_lets +onlyGivenNames -underBinder x; first | (refine Keeps.cut (r := r) (s := x) ?_ ?_; rotate_left; clear_value x; revert x; intro _ _; rotate_left; dsimp -zeta -iota -proj only [x]; clear x) | (refine KeepsP.cut (r := r) (p := x) ?_ ?_; rotate_left; clear_value x; revert x; intro _ _; rotate_left; dsimp -zeta -iota -proj only [x]; clear x) | clear_value x) | split | exact KeepsP.keeps (p := (_, _)) (by assumption) | (refine KeepsP.of_eq ?_ (by assumption)) | dsimp +zetaDelta -zeta -iota -proj only | with_reducible apply KeepsP.pair)

theorem Keeps.putObjectTable {v x1} (h : Keeps r x1) : KeepsP r (Machine.putObjectTable v x1) := by
  generalize hf : @Machine.putObjectTable = f; delta Machine.putObjectTable at hf; subst hf; beta_reduce
  with_reducible repeat' first
    | assumption | apply KeepsP.ite | (fail_if_no_progress apply Keeps.upd) | apply KeepsP.pair

theorem Keeps.ringRoom {s fn} (h : Keeps r s) : Keeps r (State.ringRoom s fn) := by
  generalize hf : @State.ringRoom = f; delta State.ringRoom at hf; subst hf; beta_reduce
  with_reducible repeat' first
    | assumption | apply Keeps.modFn | apply Keeps.ite | (fail_if_no_progress apply Keeps.upd)

theorem Keeps.putRingBase {s fn v} (h : Keeps r s) : Keeps r (State.putRingBase s fn v) := by
  generalize hf : @State.putRingBase = f; delta State.putRingBase at hf; subst hf; beta_reduce
  with_reducible repeat' first
    | assumption | apply Keeps.ringRoom | apply Keeps.modFn | apply Keeps.ite | (fail_if_no_progress apply Keeps.upd)
    | (extract_lets +onlyGivenNames -underBinder x; clear_value x; revert x; intro _)

theorem Keeps.staleResolve {s} (h : Keeps r s) : Keeps r (State.staleResolve s) := by
  generalize hf : @State.staleResolve = f; delta State.staleResolve at hf; subst hf; beta_reduce
  with_reducible repeat' first
    | assumption | (fail_if_no_progress apply Keeps.upd)

theorem Keeps.dropFault {s f} (h : Keeps r s) : Keeps r (State.dropFault s f) := by
  generalize hf : @State.dropFault = f; delta State.dropFault at hf; subst hf; beta_reduce
  with_reducible repeat' first
    | assumption | (fail_if_no_progress apply Keeps.upd)

theorem Keeps.unfault {s core} (h : Keeps r s) : Keeps r (State.unfault s core) := by
  generalize hf : @State.unfault = f; delta State.unfault at hf; subst hf; beta_reduce
  with_reducible repeat' first
    | assumption | apply Keeps.modCore | (fail_if_no_progress apply Keeps.upd) | split
    | refine KeepsP.of_eq ?_ (by assumption)

theorem Keeps.retryFault {s f} (h : Keeps r s) : Keeps r (State.retryFault s f) := by
  generalize hf : @State.retryFault = f; delta State.retryFault at hf; subst hf; beta_reduce
  with_reducible repeat' first
    | assumption | apply Keeps.dropFault | apply Keeps.modCmd | apply Keeps.unfault | apply Keeps.ite
    | (fail_if_no_progress apply Keeps.upd) | (refine Keeps.foldl ?_ ?_ _; rotate_left; intros; beta_reduce)
    | (refine KeepsP.foldl ?_ ?_ _; rotate_left; intros; beta_reduce) | apply KeepsP.keeps
    | (extract_lets +onlyGivenNames -underBinder x; first | (refine Keeps.cut (s := x) (r := r) ?_ ?_; rotate_left; clear_value x; revert x; intro _ _; rotate_left; dsimp -zeta -iota -proj only [x]; clear x) | (clear_value x; revert x; intro _))
    | split | exact KeepsP.keeps (p := (_, _)) (by assumption) | refine KeepsP.of_eq ?_ (by assumption)

theorem Keeps.refuseWindow {r : State} {s : State} {port : Nat} {w : Nat} (h : Keeps r s) :
    Keeps r (State.refuseWindow s port w) := by
  generalize hf : @State.refuseWindow = f; delta State.refuseWindow at hf; subst hf; beta_reduce
  repeat' (first | with_reducible assumption  | with_reducible apply Keeps.takePacket | with_reducible apply Keeps.respond | with_reducible apply Keeps.ite | with_reducible apply KeepsP.ite | fail_if_no_progress with_reducible apply Keeps.upd | with_reducible apply KeepsOut.next | exact trivial | with_reducible apply KeepsDid.done | with_reducible apply KeepsDid.raise | with_reducible apply KeepsDid.stall | (with_reducible refine Keeps.foldl ?_ ?_ _; rotate_left; intros; beta_reduce) | (with_reducible refine KeepsP.foldl ?_ ?_ _; rotate_left; intros; beta_reduce) | with_reducible apply KeepsP.keeps | (extract_lets +onlyGivenNames -underBinder x; first | (refine Keeps.cut (r := r) (s := x) ?_ ?_; rotate_left; clear_value x; revert x; intro _ _; rotate_left; dsimp -zeta -iota -proj only [x]; clear x) | (refine KeepsP.cut (r := r) (p := x) ?_ ?_; rotate_left; clear_value x; revert x; intro _ _; rotate_left; dsimp -zeta -iota -proj only [x]; clear x) | clear_value x) | split | exact KeepsP.keeps (p := (_, _)) (by assumption) | (refine KeepsP.of_eq ?_ (by assumption)) | dsimp +zetaDelta -zeta -iota -proj only | with_reducible apply KeepsP.pair)

theorem Keeps.failFault {s f} (h : Keeps r s) : Keeps r (State.failFault s f) := by
  generalize hf : @State.failFault = f; delta State.failFault at hf; subst hf; beta_reduce
  with_reducible repeat' first
    | assumption | apply Keeps.refuseWindow | apply Keeps.dropFault | apply Keeps.failCmd | apply Keeps.failAlways | apply Keeps.killAny
    | apply Keeps.raise | apply Keeps.unfault | apply Keeps.respond | apply Keeps.takePacket | apply Keeps.ite
    | (fail_if_no_progress apply Keeps.upd) | (refine Keeps.foldl ?_ ?_ _; rotate_left; intros; beta_reduce)
    | (refine KeepsP.foldl ?_ ?_ _; rotate_left; intros; beta_reduce) | apply KeepsP.keeps
    | (extract_lets +onlyGivenNames -underBinder x; first | (refine Keeps.cut (s := x) (r := r) ?_ ?_; rotate_left; clear_value x; revert x; intro _ _; rotate_left; dsimp -zeta -iota -proj only [x]; clear x) | (clear_value x; revert x; intro _))
    | split | exact KeepsP.keeps (p := (_, _)) (by assumption) | refine KeepsP.of_eq ?_ (by assumption)

theorem Keeps.resolve {r : State} {s : State} {fn : Nat} {tag : BitVec 32} {fail : Bool} (h : Keeps r s) :
    Keeps r (State.resolve s fn tag fail) := by
  generalize hf : @State.resolve = f; delta State.resolve at hf; subst hf; beta_reduce
  repeat' (first | with_reducible assumption  | with_reducible apply Keeps.failFault | with_reducible apply Keeps.retryFault | with_reducible apply Keeps.staleResolve | with_reducible apply Keeps.ite | with_reducible apply KeepsP.ite | fail_if_no_progress with_reducible apply Keeps.upd | with_reducible apply KeepsOut.next | exact trivial | with_reducible apply KeepsDid.done | with_reducible apply KeepsDid.raise | with_reducible apply KeepsDid.stall | (with_reducible refine Keeps.foldl ?_ ?_ _; rotate_left; intros; beta_reduce) | (with_reducible refine KeepsP.foldl ?_ ?_ _; rotate_left; intros; beta_reduce) | with_reducible apply KeepsP.keeps | (extract_lets +onlyGivenNames -underBinder x; first | (refine Keeps.cut (r := r) (s := x) ?_ ?_; rotate_left; clear_value x; revert x; intro _ _; rotate_left; dsimp -zeta -iota -proj only [x]; clear x) | (refine KeepsP.cut (r := r) (p := x) ?_ ?_; rotate_left; clear_value x; revert x; intro _ _; rotate_left; dsimp -zeta -iota -proj only [x]; clear x) | clear_value x) | split | exact KeepsP.keeps (p := (_, _)) (by assumption) | (refine KeepsP.of_eq ?_ (by assumption)) | dsimp +zetaDelta -zeta -iota -proj only | with_reducible apply KeepsP.pair)

theorem Keeps.issueInv {r : State} {s : State} {abort : Bool} {addr : Word} {v : Word} (h : Keeps r s) :
    Keeps r (State.issueInv s abort addr v) := by
  generalize hf : @State.issueInv = f; delta State.issueInv at hf; subst hf; beta_reduce
  repeat' (first | with_reducible assumption  | with_reducible apply Keeps.invalidate | with_reducible apply Keeps.ite | with_reducible apply KeepsP.ite | fail_if_no_progress with_reducible apply Keeps.upd | with_reducible apply KeepsOut.next | exact trivial | with_reducible apply KeepsDid.done | with_reducible apply KeepsDid.raise | with_reducible apply KeepsDid.stall | (with_reducible refine Keeps.foldl ?_ ?_ _; rotate_left; intros; beta_reduce) | (with_reducible refine KeepsP.foldl ?_ ?_ _; rotate_left; intros; beta_reduce) | with_reducible apply KeepsP.keeps | (extract_lets +onlyGivenNames -underBinder x; first | (refine Keeps.cut (r := r) (s := x) ?_ ?_; rotate_left; clear_value x; revert x; intro _ _; rotate_left; dsimp -zeta -iota -proj only [x]; clear x) | (refine KeepsP.cut (r := r) (p := x) ?_ ?_; rotate_left; clear_value x; revert x; intro _ _; rotate_left; dsimp -zeta -iota -proj only [x]; clear x) | clear_value x) | split | exact KeepsP.keeps (p := (_, _)) (by assumption) | (refine KeepsP.of_eq ?_ (by assumption)) | dsimp +zetaDelta -zeta -iota -proj only | with_reducible apply KeepsP.pair)

theorem Keeps.doReg {r : State} {s : State} {x1 : RegWait} (h : Keeps r s) :
    Keeps r (State.doReg s x1) := by
  generalize hf : @State.doReg = f; delta State.doReg at hf; subst hf; beta_reduce
  repeat' (first | with_reducible assumption  | with_reducible apply Keeps.resolve | with_reducible apply Keeps.issueInv | with_reducible apply Keeps.ite | with_reducible apply KeepsP.ite | fail_if_no_progress with_reducible apply Keeps.upd | with_reducible apply KeepsOut.next | exact trivial | with_reducible apply KeepsDid.done | with_reducible apply KeepsDid.raise | with_reducible apply KeepsDid.stall | (with_reducible refine Keeps.foldl ?_ ?_ _; rotate_left; intros; beta_reduce) | (with_reducible refine KeepsP.foldl ?_ ?_ _; rotate_left; intros; beta_reduce) | with_reducible apply KeepsP.keeps | (extract_lets +onlyGivenNames -underBinder x; first | (refine Keeps.cut (r := r) (s := x) ?_ ?_; rotate_left; clear_value x; revert x; intro _ _; rotate_left; dsimp -zeta -iota -proj only [x]; clear x) | (refine KeepsP.cut (r := r) (p := x) ?_ ?_; rotate_left; clear_value x; revert x; intro _ _; rotate_left; dsimp -zeta -iota -proj only [x]; clear x) | clear_value x) | split | exact KeepsP.keeps (p := (_, _)) (by assumption) | (refine KeepsP.of_eq ?_ (by assumption)) | dsimp +zetaDelta -zeta -iota -proj only | with_reducible apply KeepsP.pair)

theorem Keeps.takeReg {r : State} {s : State} {x' : RegWait} (h : Keeps r s) :
    Keeps r (State.takeReg s x') := by
  generalize hf : @State.takeReg = f; delta State.takeReg at hf; subst hf; beta_reduce
  repeat' (first | with_reducible assumption  | with_reducible apply Keeps.doReg | with_reducible apply Keeps.ite | with_reducible apply KeepsP.ite | fail_if_no_progress with_reducible apply Keeps.upd | with_reducible apply KeepsOut.next | exact trivial | with_reducible apply KeepsDid.done | with_reducible apply KeepsDid.raise | with_reducible apply KeepsDid.stall | (with_reducible refine Keeps.foldl ?_ ?_ _; rotate_left; intros; beta_reduce) | (with_reducible refine KeepsP.foldl ?_ ?_ _; rotate_left; intros; beta_reduce) | with_reducible apply KeepsP.keeps | (extract_lets +onlyGivenNames -underBinder x; first | (refine Keeps.cut (r := r) (s := x) ?_ ?_; rotate_left; clear_value x; revert x; intro _ _; rotate_left; dsimp -zeta -iota -proj only [x]; clear x) | (refine KeepsP.cut (r := r) (p := x) ?_ ?_; rotate_left; clear_value x; revert x; intro _ _; rotate_left; dsimp -zeta -iota -proj only [x]; clear x) | clear_value x) | split | exact KeepsP.keeps (p := (_, _)) (by assumption) | (refine KeepsP.of_eq ?_ (by assumption)) | dsimp +zetaDelta -zeta -iota -proj only | with_reducible apply KeepsP.pair)

theorem Keeps.takeResolve {r : State} {s : State} {fn : Nat} {tag : BitVec 32} {fail : Bool} (h : Keeps r s) :
    Keeps r (State.takeResolve s fn tag fail) := by
  generalize hf : @State.takeResolve = f; delta State.takeResolve at hf; subst hf; beta_reduce
  repeat' (first | with_reducible assumption  | with_reducible apply Keeps.takeReg | with_reducible apply Keeps.resolve | with_reducible apply Keeps.staleResolve | with_reducible apply Keeps.ite | with_reducible apply KeepsP.ite | fail_if_no_progress with_reducible apply Keeps.upd | with_reducible apply KeepsOut.next | exact trivial | with_reducible apply KeepsDid.done | with_reducible apply KeepsDid.raise | with_reducible apply KeepsDid.stall | (with_reducible refine Keeps.foldl ?_ ?_ _; rotate_left; intros; beta_reduce) | (with_reducible refine KeepsP.foldl ?_ ?_ _; rotate_left; intros; beta_reduce) | with_reducible apply KeepsP.keeps | (extract_lets +onlyGivenNames -underBinder x; first | (refine Keeps.cut (r := r) (s := x) ?_ ?_; rotate_left; clear_value x; revert x; intro _ _; rotate_left; dsimp -zeta -iota -proj only [x]; clear x) | (refine KeepsP.cut (r := r) (p := x) ?_ ?_; rotate_left; clear_value x; revert x; intro _ _; rotate_left; dsimp -zeta -iota -proj only [x]; clear x) | clear_value x) | split | exact KeepsP.keeps (p := (_, _)) (by assumption) | (refine KeepsP.of_eq ?_ (by assumption)) | dsimp +zetaDelta -zeta -iota -proj only | with_reducible apply KeepsP.pair)

theorem Keeps.putInvCtrl {s abort v} (h : Keeps r s) : Keeps r (State.putInvCtrl s abort v) := by
  generalize hf : @State.putInvCtrl = f; delta State.putInvCtrl at hf; subst hf; beta_reduce
  with_reducible repeat' first
    | assumption | apply Keeps.takeReg | apply Keeps.invalidate | apply Keeps.ite | (fail_if_no_progress apply Keeps.upd)
    | (extract_lets +onlyGivenNames -underBinder x; first | (refine Keeps.cut (s := x) (r := r) ?_ ?_; rotate_left; clear_value x; revert x; intro _ _; rotate_left; dsimp -zeta -iota -proj only [x]; clear x) | (clear_value x; revert x; intro _))

theorem Keeps.invEnded {s v} (h : Keeps r s) : Keeps r (State.invEnded s v) := by
  generalize hf : @State.invEnded = f; delta State.invEnded at hf; subst hf; beta_reduce
  with_reducible repeat' first
    | assumption | apply Keeps.reset | apply Keeps.cause | apply Keeps.setInWin | apply Keeps.teardownStep | apply Keeps.removalStep
    | (fail_if_no_progress apply Keeps.upd)
    | (extract_lets +onlyGivenNames -underBinder x; first | (refine Keeps.cut (s := x) (r := r) ?_ ?_; rotate_left; clear_value x; revert x; intro _ _; rotate_left; dsimp -zeta -iota -proj only [x]; clear x) | (clear_value x; revert x; intro _))
    | split | refine KeepsP.of_eq ?_ (by assumption)

theorem Keeps.putInState {w v x1} (h : Keeps r x1) : KeepsP r (Machine.putInState w v x1) := by
  generalize hf : @Machine.putInState = f; delta Machine.putInState at hf; subst hf; beta_reduce
  with_reducible repeat' first
    | assumption | apply Keeps.closeInbound | apply Keeps.setInWin | apply Keeps.ite | apply KeepsP.ite
    | (fail_if_no_progress apply Keeps.upd) | apply KeepsP.keeps
    | (extract_lets +onlyGivenNames -underBinder x; clear_value x; revert x; intro _) | split
    | refine KeepsP.of_eq ?_ (by assumption) | apply KeepsP.pair

theorem Keeps.putOutState {w v x1} (h : Keeps r x1) : KeepsP r (Machine.putOutState w v x1) := by
  generalize hf : @Machine.putOutState = f; delta Machine.putOutState at hf; subst hf; beta_reduce
  with_reducible repeat' first
    | assumption | apply Keeps.setOutWin | apply KeepsP.ite | (fail_if_no_progress apply Keeps.upd)
    | apply KeepsP.pair

theorem Keeps.apertureMiss {s fn write} (h : Keeps r s) : Keeps r (State.apertureMiss s fn write) := by
  generalize hf : @State.apertureMiss = f; delta State.apertureMiss at hf; subst hf; beta_reduce
  with_reducible repeat' first
    | assumption | apply Keeps.modFn | apply Keeps.send | apply Keeps.ite | (fail_if_no_progress apply Keeps.upd)

theorem Keeps.aperture {s x} (h : Keeps r s) : Keeps r (State.aperture s x) := by
  generalize hf : @State.aperture = f; delta State.aperture at hf; subst hf; beta_reduce
  with_reducible repeat' first
    | assumption | apply Keeps.forgetSteps | apply Keeps.translate | apply Keeps.startAccess | apply Keeps.arriveReq | apply Keeps.apertureMiss
    | apply Keeps.ite | (fail_if_no_progress apply Keeps.upd)
    | (refine Keeps.foldl ?_ ?_ _; rotate_left; intros; beta_reduce)
    | (refine KeepsP.foldl ?_ ?_ _; rotate_left; intros; beta_reduce)
    | apply KeepsP.keeps
    | (extract_lets +onlyGivenNames -underBinder x; first | (refine Keeps.cut (s := x) (r := r) ?_ ?_; rotate_left; clear_value x; revert x; intro _ _; rotate_left; dsimp -zeta -iota -proj only [x]; clear x) | (clear_value x; revert x; intro _))
    | split | exact KeepsP.keeps (p := (_, _)) (by assumption) | refine KeepsP.of_eq ?_ (by assumption)

theorem Keeps.entryPort {r : State} {s : State} {fn : Nat} (h : Keeps r s) :
    KeepsP r (State.entryPort s fn) := by
  generalize hf : @State.entryPort = f; delta State.entryPort at hf; subst hf; beta_reduce
  repeat' (first | with_reducible assumption  | with_reducible apply Keeps.freeNat | with_reducible apply Keeps.ite | with_reducible apply KeepsP.ite | fail_if_no_progress with_reducible apply Keeps.upd | with_reducible apply KeepsOut.next | exact trivial | with_reducible apply KeepsDid.done | with_reducible apply KeepsDid.raise | with_reducible apply KeepsDid.stall | (with_reducible refine Keeps.foldl ?_ ?_ _; rotate_left; intros; beta_reduce) | (with_reducible refine KeepsP.foldl ?_ ?_ _; rotate_left; intros; beta_reduce) | with_reducible apply KeepsP.keeps | (extract_lets +onlyGivenNames -underBinder x; first | (refine Keeps.cut (r := r) (s := x) ?_ ?_; rotate_left; clear_value x; revert x; intro _ _; rotate_left; dsimp -zeta -iota -proj only [x]; clear x) | (refine KeepsP.cut (r := r) (p := x) ?_ ?_; rotate_left; clear_value x; revert x; intro _ _; rotate_left; dsimp -zeta -iota -proj only [x]; clear x) | clear_value x) | split | exact KeepsP.keeps (p := (_, _)) (by assumption) | (refine KeepsP.of_eq ?_ (by assumption)) | dsimp +zetaDelta -zeta -iota -proj only | with_reducible apply KeepsP.pair)

/-! ### Handoff -/

theorem Keeps.slotResult {s i op found result} (h : Keeps r s) : Keeps r (State.slotResult s i op found result) := by
  generalize hf : @State.slotResult = f; delta State.slotResult at hf; subst hf; beta_reduce
  with_reducible repeat' first
    | assumption | (fail_if_no_progress apply Keeps.upd)
    | (extract_lets +onlyGivenNames -underBinder x; first | (refine Keeps.cut (s := x) (r := r) ?_ ?_; rotate_left; clear_value x; revert x; intro _ _; rotate_left; dsimp -zeta -iota -proj only [x]; clear x) | (clear_value x; revert x; intro _))

theorem Keeps.slotEntry {s i} (h : Keeps r s) : KeepsP r (State.slotEntry s i) := by
  generalize hf : @State.slotEntry = f; delta State.slotEntry at hf; subst hf; beta_reduce
  with_reducible repeat' first
    | assumption | apply Keeps.ownRead | apply Keeps.physRead | apply KeepsP.ite | (fail_if_no_progress apply Keeps.upd) | split
    | refine KeepsP.of_eq ?_ (by assumption) | apply KeepsP.pair

theorem Keeps.slotArm {s i} (h : Keeps r s) : Keeps r (State.slotArm s i) := by
  generalize hf : @State.slotArm = f; delta State.slotArm at hf; subst hf; beta_reduce
  with_reducible repeat' first
    | assumption | apply Keeps.forgetSteps | apply hfn | intro _ | apply Keeps.slotResult | apply Keeps.slotEntry | apply Keeps.clearLayers
    | apply Keeps.putSlot | apply Keeps.ite | (fail_if_no_progress apply Keeps.upd)
    | (extract_lets +onlyGivenNames -underBinder x; first | (refine Keeps.cutAt (∀ (s : State), Keeps r s → Keeps r (x s)) ?_ ?_; rotate_left; clear_value x; revert x; intro _ hfn; rotate_left; dsimp -zeta -iota -proj only [x]; clear x) | (refine Keeps.cutAt (∀ (s : State) a, Keeps r s → Keeps r (x s a)) ?_ ?_; rotate_left; clear_value x; revert x; intro _ hfn; rotate_left; dsimp -zeta -iota -proj only [x]; clear x) | (refine Keeps.cutAt (∀ (s : State) a b, Keeps r s → Keeps r (x s a b)) ?_ ?_; rotate_left; clear_value x; revert x; intro _ hfn; rotate_left; dsimp -zeta -iota -proj only [x]; clear x) | (refine Keeps.cutAt (∀ (s : State) a b c, Keeps r s → Keeps r (x s a b c)) ?_ ?_; rotate_left; clear_value x; revert x; intro _ hfn; rotate_left; dsimp -zeta -iota -proj only [x]; clear x) | (refine Keeps.cutAt (∀ (s : State), Keeps r s → KeepsP r (x s)) ?_ ?_; rotate_left; clear_value x; revert x; intro _ hfn; rotate_left; dsimp -zeta -iota -proj only [x]; clear x) | (refine Keeps.cutAt (∀ (s : State) a, Keeps r s → KeepsP r (x s a)) ?_ ?_; rotate_left; clear_value x; revert x; intro _ hfn; rotate_left; dsimp -zeta -iota -proj only [x]; clear x) | (refine Keeps.cutAt (∀ (s : State) a b, Keeps r s → KeepsP r (x s a b)) ?_ ?_; rotate_left; clear_value x; revert x; intro _ hfn; rotate_left; dsimp -zeta -iota -proj only [x]; clear x) | (refine Keeps.cutAt (∀ (s : State) a b c, Keeps r s → KeepsP r (x s a b c)) ?_ ?_; rotate_left; clear_value x; revert x; intro _ hfn; rotate_left; dsimp -zeta -iota -proj only [x]; clear x) | (refine Keeps.cutAt (∀ (s : State), Keeps r s → KeepsDid r (x s)) ?_ ?_; rotate_left; clear_value x; revert x; intro _ hfn; rotate_left; dsimp -zeta -iota -proj only [x]; clear x) | (refine Keeps.cutAt (∀ (s : State) a, Keeps r s → KeepsDid r (x s a)) ?_ ?_; rotate_left; clear_value x; revert x; intro _ hfn; rotate_left; dsimp -zeta -iota -proj only [x]; clear x) | (refine Keeps.cutAt (∀ (s : State) a b, Keeps r s → KeepsDid r (x s a b)) ?_ ?_; rotate_left; clear_value x; revert x; intro _ hfn; rotate_left; dsimp -zeta -iota -proj only [x]; clear x) | (refine Keeps.cutAt (∀ (s : State) a b c, Keeps r s → KeepsDid r (x s a b c)) ?_ ?_; rotate_left; clear_value x; revert x; intro _ hfn; rotate_left; dsimp -zeta -iota -proj only [x]; clear x) | (clear_value x; revert x; intro _))
    | split | refine KeepsP.of_eq ?_ (by assumption) | dsimp +zetaDelta -zeta -iota -proj only

theorem Keeps.slotFree {s i} (h : Keeps r s) : Keeps r (State.slotFree s i) := by
  generalize hf : @State.slotFree = f; delta State.slotFree at hf; subst hf; beta_reduce
  with_reducible repeat' first
    | assumption | apply Keeps.slotResult | apply Keeps.putSlot | apply Keeps.ite
    | (fail_if_no_progress apply Keeps.upd)
    | (extract_lets +onlyGivenNames -underBinder x; clear_value x; revert x; intro _)

theorem Keeps.slotAbort {s i} (h : Keeps r s) : Keeps r (State.slotAbort s i) := by
  generalize hf : @State.slotAbort = f; delta State.slotAbort at hf; subst hf; beta_reduce
  with_reducible repeat' first
    | assumption | apply Keeps.slotResult | apply Keeps.slotGo | apply Keeps.ite
    | (extract_lets +onlyGivenNames -underBinder x; clear_value x; revert x; intro _)

theorem Keeps.putSlotOp {v x1} (h : Keeps r x1) : KeepsP r (Machine.putSlotOp v x1) := by
  generalize hf : @Machine.putSlotOp = f; delta Machine.putSlotOp at hf; subst hf; beta_reduce
  with_reducible repeat' first
    | assumption | apply Keeps.slotArm | apply Keeps.slotFree | apply Keeps.slotAbort | apply Keeps.ite
    | apply KeepsP.ite | (fail_if_no_progress apply Keeps.upd) | apply KeepsP.keeps
    | (extract_lets +onlyGivenNames -underBinder x; clear_value x; revert x; intro _) | split
    | refine KeepsP.of_eq ?_ (by assumption) | apply KeepsP.pair

theorem Keeps.putHandoffRegion {v x1} (h : Keeps r x1) : KeepsP r (Machine.putHandoffRegion v x1) := by
  generalize hf : @Machine.putHandoffRegion = f; delta Machine.putHandoffRegion at hf; subst hf; beta_reduce
  with_reducible repeat' first
    | assumption | apply KeepsP.ite | (fail_if_no_progress apply Keeps.upd) | split
    | refine KeepsP.of_eq ?_ (by assumption) | apply KeepsP.pair

theorem Keeps.noSlot {s} (h : Keeps r s) : Keeps r (State.noSlot s) := by
  generalize hf : @State.noSlot = f; delta State.noSlot at hf; subst hf; beta_reduce
  with_reducible repeat' first
    | assumption | (fail_if_no_progress apply Keeps.upd) | split | refine KeepsP.of_eq ?_ (by assumption)

theorem Keeps.slotIgnores {s} (h : Keeps r s) : Keeps r (State.slotIgnores s) := by
  generalize hf : @State.slotIgnores = f; delta State.slotIgnores at hf; subst hf; beta_reduce
  with_reducible repeat' first
    | assumption | (fail_if_no_progress apply Keeps.upd)

theorem Keeps.handoffPacket {r s : State} {port ty dir : Nat} {act : State → Nat → Bytes → State} (h : Keeps r s)
    (ha : ∀ s i d, Keeps r s → Keeps r (act s i d)) : Keeps r (s.handoffPacket port ty dir act) := by
  unfold State.handoffPacket
  split
  · exact h
  · extract_lets
    split
    · exact Keeps.noSlot (Keeps.takePacket h)
    · exact ha _ _ _ (Keeps.takePacket h)

theorem Keeps.slotAgain {r : State} {s : State} {i : Nat} {ty : Nat} (h : Keeps r s) :
    Keeps r (State.slotAgain s i ty) := by
  generalize hf : @State.slotAgain = f; delta State.slotAgain at hf; subst hf; beta_reduce
  repeat' (first | with_reducible assumption  | with_reducible apply Keeps.slotPacket | with_reducible apply Keeps.ite | with_reducible apply KeepsP.ite | fail_if_no_progress with_reducible apply Keeps.upd | with_reducible apply KeepsOut.next | exact trivial | with_reducible apply KeepsDid.done | with_reducible apply KeepsDid.raise | with_reducible apply KeepsDid.stall | (with_reducible refine Keeps.foldl ?_ ?_ _; rotate_left; intros; beta_reduce) | (with_reducible refine KeepsP.foldl ?_ ?_ _; rotate_left; intros; beta_reduce) | with_reducible apply KeepsP.keeps | (extract_lets +onlyGivenNames -underBinder x; first | (refine Keeps.cut (r := r) (s := x) ?_ ?_; rotate_left; clear_value x; revert x; intro _ _; rotate_left; dsimp -zeta -iota -proj only [x]; clear x) | (refine KeepsP.cut (r := r) (p := x) ?_ ?_; rotate_left; clear_value x; revert x; intro _ _; rotate_left; dsimp -zeta -iota -proj only [x]; clear x) | clear_value x) | split | exact KeepsP.keeps (p := (_, _)) (by assumption) | (refine KeepsP.of_eq ?_ (by assumption)) | dsimp +zetaDelta -zeta -iota -proj only | with_reducible apply KeepsP.pair)

theorem Keeps.takeOffer {s i d} (h : Keeps r s) : Keeps r (State.takeOffer s i d) := by
  generalize hf : @State.takeOffer = f; delta State.takeOffer at hf; subst hf; beta_reduce
  with_reducible repeat' first
    | assumption | apply Keeps.slotAgain | apply Keeps.setSlot | apply Keeps.slotGo | apply Keeps.slotPacket | apply Keeps.slotIgnores
    | apply Keeps.ite | (fail_if_no_progress apply Keeps.upd)
    | (extract_lets +onlyGivenNames -underBinder x; first | (refine Keeps.cut (s := x) (r := r) ?_ ?_; rotate_left; clear_value x; revert x; intro _ _; rotate_left; dsimp -zeta -iota -proj only [x]; clear x) | (clear_value x; revert x; intro _))

theorem Keeps.takeTaken {s i d} (h : Keeps r s) : Keeps r (State.takeTaken s i d) := by
  generalize hf : @State.takeTaken = f; delta State.takeTaken at hf; subst hf; beta_reduce
  with_reducible repeat' first
    | assumption | apply Keeps.slotAgain | apply Keeps.setSlot | apply Keeps.slotGo | apply Keeps.slotPacket | apply Keeps.slotIgnores
    | apply Keeps.ite | (fail_if_no_progress apply Keeps.upd)
    | (extract_lets +onlyGivenNames -underBinder x; first | (refine Keeps.cut (s := x) (r := r) ?_ ?_; rotate_left; clear_value x; revert x; intro _ _; rotate_left; dsimp -zeta -iota -proj only [x]; clear x) | (clear_value x; revert x; intro _))

theorem Keeps.takeRelease {s i x1} (h : Keeps r s) : Keeps r (State.takeRelease s i x1) := by
  generalize hf : @State.takeRelease = f; delta State.takeRelease at hf; subst hf; beta_reduce
  with_reducible repeat' first
    | assumption | apply Keeps.slotGo | apply Keeps.slotIgnores | apply Keeps.ite

theorem Keeps.copyVirt {w x1 x2 x3 x4 x5} (h : Keeps r x2) : KeepsP r (State.copyVirt w x1 x2 x3 x4 x5) := by
  induction x1 generalizing x2 x3 x4 x5 with
  | zero =>
    unfold State.copyVirt
    with_reducible repeat' first
      | assumption | apply Keeps.readVirt | apply Keeps.writeVirt | (fail_if_no_progress apply Keeps.upd) | split
      | refine KeepsP.of_eq ?_ (by assumption) | apply KeepsP.pair
  | succ n ih =>
    unfold State.copyVirt
    with_reducible repeat' first
      | assumption | apply ih | apply Keeps.readVirt | apply Keeps.writeVirt | (fail_if_no_progress apply Keeps.upd)
      | split | refine KeepsP.of_eq ?_ (by assumption) | apply KeepsP.pair

theorem Keeps.verdictKills {s x' kind} (h : Keeps r s) : Keeps r (State.verdictKills s x' kind) := by
  generalize hf : @State.verdictKills = f; delta State.verdictKills at hf; subst hf; beta_reduce
  with_reducible repeat' first
    | assumption | apply Keeps.killAny | apply Keeps.failAlways | apply Keeps.ite
    | (fail_if_no_progress apply Keeps.upd) | split | refine KeepsP.of_eq ?_ (by assumption)

theorem Keeps.putVerdict {v x1} (h : Keeps r x1) : KeepsP r (Machine.putVerdict v x1) := by
  generalize hf : @Machine.putVerdict = f; delta Machine.putVerdict at hf; subst hf; beta_reduce
  with_reducible repeat' first
    | assumption | apply hfn | intro _ | apply Keeps.slotResult | apply Keeps.verdictKills | apply Keeps.slotGo
    | apply Keeps.ite | apply KeepsP.ite | (fail_if_no_progress apply Keeps.upd) | apply KeepsP.keeps
    | (extract_lets +onlyGivenNames -underBinder x; first | (refine Keeps.cutAt (∀ (s : State), Keeps r s → Keeps r (x s)) ?_ ?_; rotate_left; clear_value x; revert x; intro _ hfn; rotate_left; dsimp -zeta -iota -proj only [x]; clear x) | (refine Keeps.cutAt (∀ (s : State) a, Keeps r s → Keeps r (x s a)) ?_ ?_; rotate_left; clear_value x; revert x; intro _ hfn; rotate_left; dsimp -zeta -iota -proj only [x]; clear x) | (refine Keeps.cutAt (∀ (s : State) a b, Keeps r s → Keeps r (x s a b)) ?_ ?_; rotate_left; clear_value x; revert x; intro _ hfn; rotate_left; dsimp -zeta -iota -proj only [x]; clear x) | (refine Keeps.cutAt (∀ (s : State) a b c, Keeps r s → Keeps r (x s a b c)) ?_ ?_; rotate_left; clear_value x; revert x; intro _ hfn; rotate_left; dsimp -zeta -iota -proj only [x]; clear x) | (refine Keeps.cutAt (∀ (s : State), Keeps r s → KeepsP r (x s)) ?_ ?_; rotate_left; clear_value x; revert x; intro _ hfn; rotate_left; dsimp -zeta -iota -proj only [x]; clear x) | (refine Keeps.cutAt (∀ (s : State) a, Keeps r s → KeepsP r (x s a)) ?_ ?_; rotate_left; clear_value x; revert x; intro _ hfn; rotate_left; dsimp -zeta -iota -proj only [x]; clear x) | (refine Keeps.cutAt (∀ (s : State) a b, Keeps r s → KeepsP r (x s a b)) ?_ ?_; rotate_left; clear_value x; revert x; intro _ hfn; rotate_left; dsimp -zeta -iota -proj only [x]; clear x) | (refine Keeps.cutAt (∀ (s : State) a b c, Keeps r s → KeepsP r (x s a b c)) ?_ ?_; rotate_left; clear_value x; revert x; intro _ hfn; rotate_left; dsimp -zeta -iota -proj only [x]; clear x) | (refine Keeps.cutAt (∀ (s : State), Keeps r s → KeepsDid r (x s)) ?_ ?_; rotate_left; clear_value x; revert x; intro _ hfn; rotate_left; dsimp -zeta -iota -proj only [x]; clear x) | (refine Keeps.cutAt (∀ (s : State) a, Keeps r s → KeepsDid r (x s a)) ?_ ?_; rotate_left; clear_value x; revert x; intro _ hfn; rotate_left; dsimp -zeta -iota -proj only [x]; clear x) | (refine Keeps.cutAt (∀ (s : State) a b, Keeps r s → KeepsDid r (x s a b)) ?_ ?_; rotate_left; clear_value x; revert x; intro _ hfn; rotate_left; dsimp -zeta -iota -proj only [x]; clear x) | (refine Keeps.cutAt (∀ (s : State) a b c, Keeps r s → KeepsDid r (x s a b c)) ?_ ?_; rotate_left; clear_value x; revert x; intro _ hfn; rotate_left; dsimp -zeta -iota -proj only [x]; clear x) | (clear_value x; revert x; intro _))
    | split | refine KeepsP.of_eq ?_ (by assumption) | dsimp +zetaDelta -zeta -iota -proj only | apply KeepsP.pair

theorem Keeps.zeroBlocks {s w d n} (h : Keeps r s) : KeepsP r (State.zeroBlocks s w d n) := by
  induction n with
  | zero => exact ⟨h⟩
  | succ n ih =>
    unfold State.zeroBlocks
    split
    · have h' := KeepsP.of_eq ih (by assumption)
      have h2 := fun w' a d' l => (Keeps.writeDest (w := w') (agent := a) (d := d') (data := l) h')
      split <;> exact ⟨KeepsP.of_eq (h2 _ _ _ _) (by assumption)⟩
    · exact ih

theorem Keeps.zeroFrame {s w fn e lo g} (h : Keeps r s) : KeepsP r (State.zeroFrame s w fn e lo g) := by
  generalize hf : @State.zeroFrame = f; delta State.zeroFrame at hf; subst hf; beta_reduce
  with_reducible repeat' first
    | assumption | apply Keeps.zeroBlocks
    | apply Keeps.ite | apply KeepsP.ite | (fail_if_no_progress apply Keeps.upd)
    | (refine Keeps.foldl ?_ ?_ _; rotate_left; intros; beta_reduce)
    | (refine KeepsP.foldl ?_ ?_ _; rotate_left; intros; beta_reduce)
    | apply KeepsP.keeps
    | (extract_lets +onlyGivenNames -underBinder x; first | (refine Keeps.cut (s := x) (r := r) ?_ ?_; rotate_left; clear_value x; revert x; intro _ _; rotate_left; dsimp -zeta -iota -proj only [x]; clear x) | (clear_value x; revert x; intro _))
    | split | exact KeepsP.keeps (p := (_, _)) (by assumption) | refine KeepsP.of_eq ?_ (by assumption) | apply KeepsP.pair

theorem Keeps.zeroPage {s w fn e} (h : Keeps r s) : KeepsP r (State.zeroPage s w fn e) := by
  generalize hf : @State.zeroPage = f; delta State.zeroPage at hf; subst hf; beta_reduce
  with_reducible repeat' first
    | assumption | apply Keeps.zeroFrame
    | apply Keeps.ite | apply KeepsP.ite | (fail_if_no_progress apply Keeps.upd)
    | (refine Keeps.foldl ?_ ?_ _; rotate_left; intros; beta_reduce)
    | (refine KeepsP.foldl ?_ ?_ _; rotate_left; intros; beta_reduce)
    | apply KeepsP.keeps
    | (extract_lets +onlyGivenNames -underBinder x; first | (refine Keeps.cut (s := x) (r := r) ?_ ?_; rotate_left; clear_value x; revert x; intro _ _; rotate_left; dsimp -zeta -iota -proj only [x]; clear x) | (clear_value x; revert x; intro _))
    | split | exact KeepsP.keeps (p := (_, _)) (by assumption) | refine KeepsP.of_eq ?_ (by assumption) | apply KeepsP.pair

theorem Keeps.zeroPages {w fn} {l : List (Nat × Nat × BitVec 128)} {s : State} (h : Keeps r s) :
    KeepsP r (State.zeroPages w fn l s) := by
  induction l generalizing s with
  | nil => exact ⟨h⟩
  | cons e t ih =>
    unfold State.zeroPages
    split
    · exact ih (KeepsP.of_eq (Keeps.zeroPage h) (by assumption))
    · exact Keeps.zeroPage h

theorem Keeps.zeroizeStep {r : State} {s : State} {i : Nat} (h : Keeps r s) :
    Keeps r (State.zeroizeStep s i) := by
  generalize hf : @State.zeroizeStep = f; delta State.zeroizeStep at hf; subst hf; beta_reduce
  repeat' (first | with_reducible assumption  | with_reducible apply Keeps.zeroPages | with_reducible apply Keeps.forgetSteps | with_reducible apply Keeps.putSlot | with_reducible apply Keeps.postReport | with_reducible apply Keeps.ite | with_reducible apply KeepsP.ite | fail_if_no_progress with_reducible apply Keeps.upd | with_reducible apply KeepsOut.next | exact trivial | with_reducible apply KeepsDid.done | with_reducible apply KeepsDid.raise | with_reducible apply KeepsDid.stall | (with_reducible refine Keeps.foldl ?_ ?_ _; rotate_left; intros; beta_reduce) | (with_reducible refine KeepsP.foldl ?_ ?_ _; rotate_left; intros; beta_reduce) | with_reducible apply KeepsP.keeps | (extract_lets +onlyGivenNames -underBinder x; first | (refine Keeps.cut (r := r) (s := x) ?_ ?_; rotate_left; clear_value x; revert x; intro _ _; rotate_left; dsimp -zeta -iota -proj only [x]; clear x) | (refine KeepsP.cut (r := r) (p := x) ?_ ?_; rotate_left; clear_value x; revert x; intro _ _; rotate_left; dsimp -zeta -iota -proj only [x]; clear x) | clear_value x) | split | exact KeepsP.keeps (p := (_, _)) (by assumption) | (refine KeepsP.of_eq ?_ (by assumption)) | dsimp +zetaDelta -zeta -iota -proj only | with_reducible apply KeepsP.pair)

theorem Keeps.putReportRemove {v x1} (h : Keeps r x1) : KeepsP r (Machine.putReportRemove v x1) := by
  generalize hf : @Machine.putReportRemove = f; delta Machine.putReportRemove at hf; subst hf; beta_reduce
  with_reducible repeat' first
    | assumption | apply Keeps.slotWaiting | (fail_if_no_progress apply Keeps.upd) | split
    | refine KeepsP.of_eq ?_ (by assumption) | apply KeepsP.pair

/-! ### Sram -/

theorem Keeps.addCandidate {s code} (h : Keeps r s) : Keeps r (State.addCandidate s code) := by
  generalize hf : @State.addCandidate = f; delta State.addCandidate at hf; subst hf; beta_reduce
  with_reducible repeat' first
    | assumption | apply Keeps.moduleEvent | apply Keeps.ite | (fail_if_no_progress apply Keeps.upd)

theorem Keeps.noteBadWord {s wa} (h : Keeps r s) : Keeps r (State.noteBadWord s wa) := by
  generalize hf : @State.noteBadWord = f; delta State.noteBadWord at hf; subst hf; beta_reduce
  with_reducible repeat' first
    | assumption | apply Keeps.addCandidate | apply Keeps.ite | (fail_if_no_progress apply Keeps.upd)
    | (extract_lets +onlyGivenNames -underBinder x; first | (refine Keeps.cut (s := x) (r := r) ?_ ?_; rotate_left; clear_value x; revert x; intro _ _; rotate_left; dsimp -zeta -iota -proj only [x]; clear x) | (clear_value x; revert x; intro _))

theorem Keeps.rootstockCause {s bit} (h : Keeps r s) : Keeps r (State.rootstockCause s bit) := by
  generalize hf : @State.rootstockCause = f; delta State.rootstockCause at hf; subst hf; beta_reduce
  with_reducible repeat' first
    | assumption | (fail_if_no_progress apply Keeps.upd)
    | (extract_lets +onlyGivenNames -underBinder x; clear_value x; revert x; intro _)

theorem Keeps.countBad {s addr} (h : Keeps r s) : Keeps r (State.countBad s addr) := by
  generalize hf : @State.countBad = f; delta State.countBad at hf; subst hf; beta_reduce
  with_reducible repeat' first
    | assumption | apply Keeps.event | apply Keeps.rootstockCause | apply Keeps.ite
    | (fail_if_no_progress apply Keeps.upd)
    | (extract_lets +onlyGivenNames -underBinder x; first | (refine Keeps.cut (s := x) (r := r) ?_ ?_; rotate_left; clear_value x; revert x; intro _ _; rotate_left; dsimp -zeta -iota -proj only [x]; clear x) | (clear_value x; revert x; intro _))

theorem Keeps.retireBlock {s code} (h : Keeps r s) : Keeps r (State.retireBlock s code) := by
  generalize hf : @State.retireBlock = f; delta State.retireBlock at hf; subst hf; beta_reduce
  with_reducible repeat' first
    | assumption | (fail_if_no_progress apply Keeps.upd)

theorem Keeps.retireOnce {s code} (h : Keeps r s) : Keeps r (State.retireOnce s code) := by
  generalize hf : @State.retireOnce = f; delta State.retireOnce at hf; subst hf; beta_reduce
  with_reducible repeat' first
    | assumption | apply Keeps.retireBlock | apply Keeps.ite

theorem Keeps.putRetire {v x1} (h : Keeps r x1) : KeepsP r (Machine.putRetire v x1) := by
  generalize hf : @Machine.putRetire = f; delta Machine.putRetire at hf; subst hf; beta_reduce
  with_reducible repeat' first
    | assumption | apply Keeps.retireOnce | apply Keeps.ite | apply KeepsP.ite | apply KeepsP.keeps
    | (extract_lets +onlyGivenNames -underBinder x; clear_value x; revert x; intro _) | apply KeepsP.pair

theorem Keeps.putFlipHi {s c v} (h : Keeps r s) : Keeps r (State.putFlipHi s c v) := by
  generalize hf : @State.putFlipHi = f; delta State.putFlipHi at hf; subst hf; beta_reduce
  with_reducible repeat' first
    | assumption | (fail_if_no_progress apply Keeps.upd)

/-! ### TransitOps -/

theorem Keeps.hopActivity {s v} (h : Keeps r s) : Keeps r (State.hopActivity s v) := by
  generalize hf : @State.hopActivity = f; delta State.hopActivity at hf; subst hf; beta_reduce
  with_reducible repeat' first
    | assumption | apply Keeps.activity
    | apply Keeps.ite | (fail_if_no_progress apply Keeps.upd)
    | (refine Keeps.foldl ?_ ?_ _; rotate_left; intros; beta_reduce)
    | (refine KeepsP.foldl ?_ ?_ _; rotate_left; intros; beta_reduce)
    | apply KeepsP.keeps
    | (extract_lets +onlyGivenNames -underBinder x; first | (refine Keeps.cut (s := x) (r := r) ?_ ?_; rotate_left; clear_value x; revert x; intro _ _; rotate_left; dsimp -zeta -iota -proj only [x]; clear x) | (clear_value x; revert x; intro _))
    | split | exact KeepsP.keeps (p := (_, _)) (by assumption) | refine KeepsP.of_eq ?_ (by assumption)

theorem Keeps.sendSlot {s t c b} (h : Keeps r s) : Keeps r (State.sendSlot s t c b) := by
  generalize hf : @State.sendSlot = f; delta State.sendSlot at hf; subst hf; beta_reduce
  with_reducible repeat' first
    | assumption | apply Keeps.modCircuit | apply Keeps.hopActivity
    | apply Keeps.ite | (fail_if_no_progress apply Keeps.upd)
    | (refine Keeps.foldl ?_ ?_ _; rotate_left; intros; beta_reduce)
    | (refine KeepsP.foldl ?_ ?_ _; rotate_left; intros; beta_reduce)
    | apply KeepsP.keeps
    | (extract_lets +onlyGivenNames -underBinder x; first | (refine Keeps.cut (s := x) (r := r) ?_ ?_; rotate_left; clear_value x; revert x; intro _ _; rotate_left; dsimp -zeta -iota -proj only [x]; clear x) | (clear_value x; revert x; intro _))
    | split | exact KeepsP.keeps (p := (_, _)) (by assumption) | refine KeepsP.of_eq ?_ (by assumption)

end Sys2Proof.Machine
end

