-- ==== Sys2Proof/Laws/KeepsHost.lean ====
section
/-! SUPPORT. The operations of records, Rootstock and power keep what `Keeps` says. -/

set_option linter.all false

namespace Sys2Proof.Machine

variable {r : State}

/-! ### TransitOps -/

theorem Keeps.takeCredits {s v} (h : Keeps r s) : Keeps r (State.takeCredits s v) := by
  generalize hf : @State.takeCredits = f; delta State.takeCredits at hf; subst hf; beta_reduce
  with_reducible repeat' first
    | assumption | apply Keeps.modCircuit
    | apply Keeps.ite | (fail_if_no_progress apply Keeps.upd)
    | (refine Keeps.foldl ?_ ?_ _; rotate_left; intros; beta_reduce)
    | (refine KeepsP.foldl ?_ ?_ _; rotate_left; intros; beta_reduce)
    | apply KeepsP.keeps
    | (extract_lets +onlyGivenNames -underBinder x; first | (refine Keeps.cut (s := x) (r := r) ?_ ?_; rotate_left; clear_value x; revert x; intro _ _; rotate_left; dsimp -zeta -iota -proj only [x]; clear x) | (clear_value x; revert x; intro _))
    | split | exact KeepsP.keeps (p := (_, _)) (by assumption) | refine KeepsP.of_eq ?_ (by assumption)

theorem Keeps.loseReq {s id} (h : Keeps r s) : Keeps r (State.loseReq s id) := by
  generalize hf : @State.loseReq = f; delta State.loseReq at hf; subst hf; beta_reduce
  with_reducible repeat' first
    | assumption | apply Keeps.settle | apply Keeps.dropReq
    | apply Keeps.ite | (fail_if_no_progress apply Keeps.upd)
    | (refine Keeps.foldl ?_ ?_ _; rotate_left; intros; beta_reduce)
    | (refine KeepsP.foldl ?_ ?_ _; rotate_left; intros; beta_reduce)
    | apply KeepsP.keeps
    | (extract_lets +onlyGivenNames -underBinder x; first | (refine Keeps.cut (s := x) (r := r) ?_ ?_; rotate_left; clear_value x; revert x; intro _ _; rotate_left; dsimp -zeta -iota -proj only [x]; clear x) | (clear_value x; revert x; intro _))
    | split | exact KeepsP.keeps (p := (_, _)) (by assumption) | refine KeepsP.of_eq ?_ (by assumption)

theorem Keeps.deadVec {s v id j k e} (h : Keeps r s) : Keeps r (State.deadVec s v id j k e) := by
  generalize hf : @State.deadVec = f; delta State.deadVec at hf; subst hf; beta_reduce
  with_reducible repeat' first
    | assumption | apply Keeps.oweCredit | apply Keeps.loseReq | apply Keeps.deadLetterMsg
    | apply Keeps.ite | (fail_if_no_progress apply Keeps.upd)
    | (refine Keeps.foldl ?_ ?_ _; rotate_left; intros; beta_reduce)
    | (refine KeepsP.foldl ?_ ?_ _; rotate_left; intros; beta_reduce)
    | apply KeepsP.keeps
    | (extract_lets +onlyGivenNames -underBinder x; first | (refine Keeps.cut (s := x) (r := r) ?_ ?_; rotate_left; clear_value x; revert x; intro _ _; rotate_left; dsimp -zeta -iota -proj only [x]; clear x) | (clear_value x; revert x; intro _))
    | split | exact KeepsP.keeps (p := (_, _)) (by assumption) | refine KeepsP.of_eq ?_ (by assumption)

theorem Keeps.deliverVec {s j v} (h : Keeps r s) : Keeps r (State.deliverVec s j v) := by
  generalize hf : @State.deliverVec = f; delta State.deliverVec at hf; subst hf; beta_reduce
  with_reducible repeat' first
    | assumption | apply Keeps.takeCredits | apply Keeps.oweCredit | apply Keeps.deadVec | apply Keeps.endReq | apply Keeps.modReq | apply Keeps.land | apply Keeps.arriveReq
    | apply Keeps.ite | (fail_if_no_progress apply Keeps.upd)
    | (refine Keeps.foldl ?_ ?_ _; rotate_left; intros; beta_reduce)
    | (refine KeepsP.foldl ?_ ?_ _; rotate_left; intros; beta_reduce)
    | apply KeepsP.keeps
    | (extract_lets +onlyGivenNames -underBinder x; first | (refine Keeps.cut (s := x) (r := r) ?_ ?_; rotate_left; clear_value x; revert x; intro _ _; rotate_left; dsimp -zeta -iota -proj only [x]; clear x) | (clear_value x; revert x; intro _))
    | split | exact KeepsP.keeps (p := (_, _)) (by assumption) | refine KeepsP.of_eq ?_ (by assumption)

theorem Keeps.transitCycle {s t} (h : Keeps r s) : Keeps r (State.transitCycle s t) := by
  generalize hf : @State.transitCycle = f; delta State.transitCycle at hf; subst hf; beta_reduce
  with_reducible repeat' first
    | assumption | apply Keeps.hopActivity | apply Keeps.sendSlot | apply Keeps.deliverVec
    | apply Keeps.ite | (fail_if_no_progress apply Keeps.upd)
    | (refine Keeps.foldl ?_ ?_ _; rotate_left; intros; beta_reduce)
    | (refine KeepsP.foldl ?_ ?_ _; rotate_left; intros; beta_reduce)
    | apply KeepsP.keeps
    | (extract_lets +onlyGivenNames -underBinder x; first | (refine Keeps.cut (s := x) (r := r) ?_ ?_; rotate_left; clear_value x; revert x; intro _ _; rotate_left; dsimp -zeta -iota -proj only [x]; clear x) | (clear_value x; revert x; intro _))
    | split | exact KeepsP.keeps (p := (_, _)) (by assumption) | refine KeepsP.of_eq ?_ (by assumption)

theorem Keeps.transitCheck {s t q} (h : Keeps r s) : Keeps r (State.transitCheck s t q) := by
  generalize hf : @State.transitCheck = f; delta State.transitCheck at hf; subst hf; beta_reduce
  with_reducible repeat' first
    | assumption | apply Keeps.schedFault | apply Keeps.modRouter
    | apply Keeps.ite | (fail_if_no_progress apply Keeps.upd)
    | (refine Keeps.foldl ?_ ?_ _; rotate_left; intros; beta_reduce)
    | (refine KeepsP.foldl ?_ ?_ _; rotate_left; intros; beta_reduce)
    | apply KeepsP.keeps
    | (extract_lets +onlyGivenNames -underBinder x; first | (refine Keeps.cut (s := x) (r := r) ?_ ?_; rotate_left; clear_value x; revert x; intro _ _; rotate_left; dsimp -zeta -iota -proj only [x]; clear x) | (clear_value x; revert x; intro _))
    | split | exact KeepsP.keeps (p := (_, _)) (by assumption) | refine KeepsP.of_eq ?_ (by assumption)

theorem Keeps.changeRatio {s x d} (h : Keeps r s) : Keeps r (State.changeRatio s x d) := by
  generalize hf : @State.changeRatio = f; delta State.changeRatio at hf; subst hf; beta_reduce
  with_reducible repeat' first
    | assumption | apply Keeps.relayCrossing
    | apply Keeps.ite | (fail_if_no_progress apply Keeps.upd)
    | (refine Keeps.foldl ?_ ?_ _; rotate_left; intros; beta_reduce)
    | (refine KeepsP.foldl ?_ ?_ _; rotate_left; intros; beta_reduce)
    | apply KeepsP.keeps
    | (extract_lets +onlyGivenNames -underBinder x; first | (refine Keeps.cut (s := x) (r := r) ?_ ?_; rotate_left; clear_value x; revert x; intro _ _; rotate_left; dsimp -zeta -iota -proj only [x]; clear x) | (clear_value x; revert x; intro _))
    | split | exact KeepsP.keeps (p := (_, _)) (by assumption) | refine KeepsP.of_eq ?_ (by assumption)

theorem Keeps.beginRatio {s x d} (h : Keeps r s) : Keeps r (State.beginRatio s x d) := by
  generalize hf : @State.beginRatio = f; delta State.beginRatio at hf; subst hf; beta_reduce
  with_reducible repeat' first
    | assumption | apply Keeps.changeRatio
    | apply Keeps.ite | (fail_if_no_progress apply Keeps.upd)
    | (refine Keeps.foldl ?_ ?_ _; rotate_left; intros; beta_reduce)
    | (refine KeepsP.foldl ?_ ?_ _; rotate_left; intros; beta_reduce)
    | apply KeepsP.keeps
    | (extract_lets +onlyGivenNames -underBinder x; first | (refine Keeps.cut (s := x) (r := r) ?_ ?_; rotate_left; clear_value x; revert x; intro _ _; rotate_left; dsimp -zeta -iota -proj only [x]; clear x) | (clear_value x; revert x; intro _))
    | split | exact KeepsP.keeps (p := (_, _)) (by assumption) | refine KeepsP.of_eq ?_ (by assumption)

theorem Keeps.ratiosDue {s} (h : Keeps r s) : Keeps r (State.ratiosDue s) := by
  generalize hf : @State.ratiosDue = f; delta State.ratiosDue at hf; subst hf; beta_reduce
  with_reducible repeat' first
    | assumption | apply Keeps.changeRatio
    | apply Keeps.ite | (fail_if_no_progress apply Keeps.upd)
    | (refine Keeps.foldl ?_ ?_ _; rotate_left; intros; beta_reduce)
    | (refine KeepsP.foldl ?_ ?_ _; rotate_left; intros; beta_reduce)
    | apply KeepsP.keeps
    | (extract_lets +onlyGivenNames -underBinder x; first | (refine Keeps.cut (s := x) (r := r) ?_ ?_; rotate_left; clear_value x; revert x; intro _ _; rotate_left; dsimp -zeta -iota -proj only [x]; clear x) | (clear_value x; revert x; intro _))
    | split | exact KeepsP.keeps (p := (_, _)) (by assumption) | refine KeepsP.of_eq ?_ (by assumption)

theorem Keeps.tickTransit {s a b} (h : Keeps r s) : Keeps r (State.tickTransit s a b) := by
  generalize hf : @State.tickTransit = f; delta State.tickTransit at hf; subst hf; beta_reduce
  with_reducible repeat' first
    | assumption | apply Keeps.transitCheck | apply Keeps.transitCycle | apply Keeps.ratiosDue
    | apply Keeps.ite | (fail_if_no_progress apply Keeps.upd)
    | (refine Keeps.foldl ?_ ?_ _; rotate_left; intros; beta_reduce)
    | (refine KeepsP.foldl ?_ ?_ _; rotate_left; intros; beta_reduce)
    | apply KeepsP.keeps
    | (extract_lets +onlyGivenNames -underBinder x; first | (refine Keeps.cut (s := x) (r := r) ?_ ?_; rotate_left; clear_value x; revert x; intro _ _; rotate_left; dsimp -zeta -iota -proj only [x]; clear x) | (clear_value x; revert x; intro _))
    | split | exact KeepsP.keeps (p := (_, _)) (by assumption) | refine KeepsP.of_eq ?_ (by assumption)

/-! ### Mesh -/

theorem Keeps.relashMsg {s op b p h'} (h : Keeps r s) : Keeps r (State.relashMsg s op b p h') := by
  generalize hf : @State.relashMsg = f; delta State.relashMsg at hf; subst hf; beta_reduce
  with_reducible repeat' first
    | assumption | apply Keeps.lanCarry | apply Keeps.lanSend
    | apply Keeps.ite | (fail_if_no_progress apply Keeps.upd)
    | (extract_lets +onlyGivenNames -underBinder x; first | (refine Keeps.cut (s := x) (r := r) ?_ ?_; rotate_left; clear_value x; revert x; intro _ _; rotate_left; dsimp -zeta -iota -proj only [x]; clear x) | (clear_value x; revert x; intro _))
    | split | exact KeepsP.keeps (p := (_, _)) (by assumption) | refine KeepsP.of_eq ?_ (by assumption)

theorem Keeps.relashAll {s op b p hs} (h : Keeps r s) : Keeps r (State.relashAll s op b p hs) := by
  generalize hf : @State.relashAll = f; delta State.relashAll at hf; subst hf; beta_reduce
  with_reducible repeat' first
    | assumption | apply Keeps.relashMsg
    | apply Keeps.ite | (fail_if_no_progress apply Keeps.upd)
    | (refine Keeps.foldl ?_ ?_ _; rotate_left; intros; beta_reduce)
    | (refine KeepsP.foldl ?_ ?_ _; rotate_left; intros; beta_reduce)
    | (extract_lets +onlyGivenNames -underBinder x; first | (refine Keeps.cut (s := x) (r := r) ?_ ?_; rotate_left; clear_value x; revert x; intro _ _; rotate_left; dsimp -zeta -iota -proj only [x]; clear x) | (clear_value x; revert x; intro _))
    | split | exact KeepsP.keeps (p := (_, _)) (by assumption) | refine KeepsP.of_eq ?_ (by assumption)

/-! ### Lash -/

theorem Keeps.putLash {addr answer x1} (h : Keeps r x1) : KeepsP r (Machine.putLash addr answer x1) := by
  generalize hf : @Machine.putLash = f; delta Machine.putLash at hf; subst hf; beta_reduce
  with_reducible repeat' first
    | assumption | apply Keeps.aer | apply Keeps.readRecord | apply Keeps.reportLash | apply Keeps.lashWith | apply Keeps.ite
    | apply KeepsP.ite | (fail_if_no_progress apply Keeps.upd) | apply KeepsP.keeps
    | (extract_lets +onlyGivenNames -underBinder x; first | (refine Keeps.cut (s := x) (r := r) ?_ ?_; rotate_left; clear_value x; revert x; intro _ _; rotate_left; dsimp -zeta -iota -proj only [x]; clear x) | (clear_value x; revert x; intro _))
    | split | refine KeepsP.of_eq ?_ (by assumption) | apply KeepsP.pair

theorem Keeps.putHedge {b v x1} (h : Keeps r x1) : KeepsP r (Machine.putHedge b v x1) := by
  generalize hf : @Machine.putHedge = f; delta Machine.putHedge at hf; subst hf; beta_reduce
  with_reducible repeat' first
    | assumption | apply Keeps.setBight | apply Keeps.ite | apply KeepsP.ite | (fail_if_no_progress apply Keeps.upd)
    | apply KeepsP.keeps | (extract_lets +onlyGivenNames -underBinder x; clear_value x; revert x; intro _)
    | apply KeepsP.pair

theorem Keeps.relashKill {s b} (h : Keeps r s) : Keeps r (State.relashKill s b) := by
  generalize hf : @State.relashKill = f; delta State.relashKill at hf; subst hf; beta_reduce
  with_reducible repeat' first
    | assumption | apply Keeps.requestKill | apply Keeps.ite
    | (refine Keeps.foldl ?_ ?_ _; rotate_left; intros; beta_reduce)
    | (refine KeepsP.foldl ?_ ?_ _; rotate_left; intros; beta_reduce) | apply KeepsP.keeps

theorem Keeps.holdWait {s q seq} (h : Keeps r s) : Keeps r (State.holdWait s q seq) := by
  generalize hf : @State.holdWait = f; delta State.holdWait at hf; subst hf; beta_reduce
  with_reducible repeat' first
    | assumption | apply Keeps.modCmd | (fail_if_no_progress apply Keeps.upd)

theorem Keeps.putRelease {v x1} (h : Keeps r x1) : KeepsP r (Machine.putRelease v x1) := by
  generalize hf : @Machine.putRelease = f; delta Machine.putRelease at hf; subst hf; beta_reduce
  with_reducible repeat' first
    | assumption | apply Keeps.reportLash | apply Keeps.beginRelease | apply Keeps.ite | apply KeepsP.ite
    | apply KeepsP.keeps | (extract_lets +onlyGivenNames -underBinder x; clear_value x; revert x; intro _)
    | apply KeepsP.pair

/-! ### QueueOps -/

theorem Keeps.reportOp {s kind code} (h : Keeps r s) : Keeps r (State.reportOp s kind code) := by
  generalize hf : @State.reportOp = f; delta State.reportOp at hf; subst hf; beta_reduce
  with_reducible repeat' first
    | assumption | (fail_if_no_progress apply Keeps.upd)

theorem Keeps.createQueue {s b} (h : Keeps r s) : KeepsP r (State.createQueue s b) := by
  unfold State.createQueue
  refine KeepsP.ite ⟨h⟩ (KeepsP.ite ⟨h⟩ (KeepsP.ite ⟨h⟩ ?_))
  have h1 := Keeps.readContext (asid := (queueOf b).asid) h
  split <;> rename_i e <;> rw [e] at h1
  · exact ⟨h1.1⟩
  · exact KeepsP.ite ⟨h1.1⟩ (KeepsP.ite ⟨h1.1⟩ (KeepsP.ite ⟨h1.1⟩ (KeepsP.pair (Keeps.setQueue h1.keeps))))

theorem Keeps.onQueue {r s : State} {b : Bytes} {f : Nat → Queue → Nat × State} (h : Keeps r s)
    (hf : ∀ n q, KeepsP r (f n q)) : KeepsP r (s.onQueue b f) := by
  unfold State.onQueue
  refine ⟨?_⟩
  have h1 : KeepsP r (if 4096 ≤ leAt b 0 2 then (opMalformed, s)
      else match s.queue? (leAt b 0 2) with
        | none => (opNotFound, s)
        | some q => f (leAt b 0 2) q) := by
    refine KeepsP.ite ⟨h⟩ ?_
    split
    · exact ⟨h⟩
    · exact hf _ _
  exact h1.keeps

theorem Keeps.destroyQueue {s b} (h : Keeps r s) : KeepsP r (State.destroyQueue s b) := by
  generalize hf : @State.destroyQueue = f; delta State.destroyQueue at hf; subst hf; beta_reduce
  with_reducible repeat' first
    | assumption | (refine Keeps.onQueue ?_ ?_; rotate_left; intros; beta_reduce) | apply KeepsP.ite
    | (fail_if_no_progress apply Keeps.upd) | apply KeepsP.pair

theorem Keeps.stopQueue {s b} (h : Keeps r s) : KeepsP r (State.stopQueue s b) := by
  generalize hf : @State.stopQueue = f; delta State.stopQueue at hf; subst hf; beta_reduce
  with_reducible repeat' first
    | assumption | (refine Keeps.onQueue ?_ ?_; rotate_left; intros; beta_reduce) | apply Keeps.setQueue
    | (fail_if_no_progress apply Keeps.upd) | apply KeepsP.pair

theorem Keeps.startQueue {s b} (h : Keeps r s) : KeepsP r (State.startQueue s b) := by
  generalize hf : @State.startQueue = f; delta State.startQueue at hf; subst hf; beta_reduce
  with_reducible repeat' first
    | assumption | (refine Keeps.onQueue ?_ ?_; rotate_left; intros; beta_reduce) | apply Keeps.setQueue
    | (fail_if_no_progress apply Keeps.upd) | apply KeepsP.pair

theorem Keeps.queueRecord {r : State} {s : State} {b : Bytes} (h : Keeps r s) :
    KeepsP r (State.queueRecord s b) := by
  generalize hf : @State.queueRecord = f; delta State.queueRecord at hf; subst hf; beta_reduce
  repeat' (first | with_reducible assumption  | with_reducible apply Keeps.createQueue | with_reducible apply Keeps.destroyQueue | with_reducible apply Keeps.stopQueue | with_reducible apply Keeps.startQueue | with_reducible apply Keeps.ite | with_reducible apply KeepsP.ite | fail_if_no_progress with_reducible apply Keeps.upd | with_reducible apply KeepsOut.next | exact trivial | with_reducible apply KeepsDid.done | with_reducible apply KeepsDid.raise | with_reducible apply KeepsDid.stall | (with_reducible refine Keeps.foldl ?_ ?_ _; rotate_left; intros; beta_reduce) | (with_reducible refine KeepsP.foldl ?_ ?_ _; rotate_left; intros; beta_reduce) | with_reducible apply KeepsP.keeps | (extract_lets +onlyGivenNames -underBinder x; first | (refine Keeps.cut (r := r) (s := x) ?_ ?_; rotate_left; clear_value x; revert x; intro _ _; rotate_left; dsimp -zeta -iota -proj only [x]; clear x) | (refine KeepsP.cut (r := r) (p := x) ?_ ?_; rotate_left; clear_value x; revert x; intro _ _; rotate_left; dsimp -zeta -iota -proj only [x]; clear x) | clear_value x) | split | exact KeepsP.keeps (p := (_, _)) (by assumption) | (refine KeepsP.of_eq ?_ (by assumption)) | dsimp +zetaDelta -zeta -iota -proj only | with_reducible apply KeepsP.pair)

theorem Keeps.dropDoorbell {s fn} (h : Keeps r s) : Keeps r (State.dropDoorbell s fn) := by
  generalize hf : @State.dropDoorbell = f; delta State.dropDoorbell at hf; subst hf; beta_reduce
  with_reducible repeat' first
    | assumption | apply Keeps.modFn | (fail_if_no_progress apply Keeps.upd)
    | (extract_lets +onlyGivenNames -underBinder x; first | (refine Keeps.cut (s := x) (r := r) ?_ ?_; rotate_left; clear_value x; revert x; intro _ _; rotate_left; dsimp -zeta -iota -proj only [x]; clear x) | (clear_value x; revert x; intro _))

theorem Keeps.takeDoorbell {s fn p} (h : Keeps r s) : Keeps r (State.takeDoorbell s fn p) := by
  generalize hf : @State.takeDoorbell = f; delta State.takeDoorbell at hf; subst hf; beta_reduce
  with_reducible repeat' first
    | assumption | apply Keeps.setQueue | apply Keeps.dropDoorbell
    | apply Keeps.ite | (fail_if_no_progress apply Keeps.upd)
    | (extract_lets +onlyGivenNames -underBinder x; first | (refine Keeps.cut (s := x) (r := r) ?_ ?_; rotate_left; clear_value x; revert x; intro _ _; rotate_left; dsimp -zeta -iota -proj only [x]; clear x) | (clear_value x; revert x; intro _))
    | split | exact KeepsP.keeps (p := (_, _)) (by assumption) | refine KeepsP.of_eq ?_ (by assumption)

theorem Keeps.ringDoorbell {s fn localQ t} (h : Keeps r s) : Keeps r (State.ringDoorbell s fn localQ t) := by
  generalize hf : @State.ringDoorbell = f; delta State.ringDoorbell at hf; subst hf; beta_reduce
  with_reducible repeat' first
    | assumption | apply Keeps.takeDoorbell | apply Keeps.lanCarry | apply Keeps.setQueue | apply Keeps.dropDoorbell | apply Keeps.ite
    | (fail_if_no_progress apply Keeps.upd) | split | refine KeepsP.of_eq ?_ (by assumption)

theorem Keeps.fetchError {s n q} (h : Keeps r s) : Keeps r (State.fetchError s n q) := by
  generalize hf : @State.fetchError = f; delta State.fetchError at hf; subst hf; beta_reduce
  with_reducible repeat' first
    | assumption | apply Keeps.aer | apply Keeps.cause | apply Keeps.breakErrorFence | apply Keeps.setQueue
    | (fail_if_no_progress apply Keeps.upd)

theorem Keeps.takeDescriptor {s n q b} (h : Keeps r s) : Keeps r (State.takeDescriptor s n q b) := by
  generalize hf : @State.takeDescriptor = f; delta State.takeDescriptor at hf; subst hf; beta_reduce
  with_reducible repeat' first
    | assumption | apply Keeps.setQueue | apply Keeps.hostWrite | apply Keeps.modFn | apply Keeps.drain
    | apply Keeps.ite | (fail_if_no_progress apply Keeps.upd)
    | (extract_lets +onlyGivenNames -underBinder x; first | (refine Keeps.cut (s := x) (r := r) ?_ ?_; rotate_left; clear_value x; revert x; intro _ _; rotate_left; dsimp -zeta -iota -proj only [x]; clear x) | (clear_value x; revert x; intro _))
    | split | refine KeepsP.of_eq ?_ (by assumption)

theorem Keeps.createFence {s b} (h : Keeps r s) : KeepsP r (State.createFence s b) := by
  generalize hf : @State.createFence = f; delta State.createFence at hf; subst hf; beta_reduce
  with_reducible repeat' first
    | assumption | apply Keeps.readContext | apply Keeps.setFence | apply Keeps.hostWrite | apply Keeps.ite | apply KeepsP.ite
    | (fail_if_no_progress apply Keeps.upd) | apply KeepsP.keeps
    | (extract_lets +onlyGivenNames -underBinder x; first | (refine Keeps.cut (s := x) (r := r) ?_ ?_; rotate_left; clear_value x; revert x; intro _ _; rotate_left; dsimp -zeta -iota -proj only [x]; clear x) | (clear_value x; revert x; intro _))
    | split | refine KeepsP.of_eq ?_ (by assumption) | apply KeepsP.pair

theorem Keeps.destroyFence {s b} (h : Keeps r s) : KeepsP r (State.destroyFence s b) := by
  generalize hf : @State.destroyFence = f; delta State.destroyFence at hf; subst hf; beta_reduce
  with_reducible repeat' first
    | assumption | apply Keeps.breakFence | apply Keeps.setFence | apply Keeps.ite | apply KeepsP.ite
    | (fail_if_no_progress apply Keeps.upd) | apply KeepsP.keeps
    | (extract_lets +onlyGivenNames -underBinder x; first | (refine Keeps.cut (s := x) (r := r) ?_ ?_; rotate_left; clear_value x; revert x; intro _ _; rotate_left; dsimp -zeta -iota -proj only [x]; clear x) | (clear_value x; revert x; intro _))
    | split | refine KeepsP.of_eq ?_ (by assumption) | apply KeepsP.pair

theorem Keeps.fenceRecord {r : State} {s : State} {b : Bytes} (h : Keeps r s) :
    KeepsP r (State.fenceRecord s b) := by
  generalize hf : @State.fenceRecord = f; delta State.fenceRecord at hf; subst hf; beta_reduce
  repeat' (first | with_reducible assumption  | with_reducible apply Keeps.createFence | with_reducible apply Keeps.destroyFence | with_reducible apply Keeps.ite | with_reducible apply KeepsP.ite | fail_if_no_progress with_reducible apply Keeps.upd | with_reducible apply KeepsOut.next | exact trivial | with_reducible apply KeepsDid.done | with_reducible apply KeepsDid.raise | with_reducible apply KeepsDid.stall | (with_reducible refine Keeps.foldl ?_ ?_ _; rotate_left; intros; beta_reduce) | (with_reducible refine KeepsP.foldl ?_ ?_ _; rotate_left; intros; beta_reduce) | with_reducible apply KeepsP.keeps | (extract_lets +onlyGivenNames -underBinder x; first | (refine Keeps.cut (r := r) (s := x) ?_ ?_; rotate_left; clear_value x; revert x; intro _ _; rotate_left; dsimp -zeta -iota -proj only [x]; clear x) | (refine KeepsP.cut (r := r) (p := x) ?_ ?_; rotate_left; clear_value x; revert x; intro _ _; rotate_left; dsimp -zeta -iota -proj only [x]; clear x) | clear_value x) | split | exact KeepsP.keeps (p := (_, _)) (by assumption) | (refine KeepsP.of_eq ?_ (by assumption)) | dsimp +zetaDelta -zeta -iota -proj only | with_reducible apply KeepsP.pair)

theorem Keeps.beginTeardown {s asid l} (h : Keeps r s) : Keeps r (State.beginTeardown s asid l) := by
  generalize hf : @State.beginTeardown = f; delta State.beginTeardown at hf; subst hf; beta_reduce
  with_reducible repeat' first
    | assumption | apply Keeps.teardownCheck | apply Keeps.slotsGone | apply Keeps.breakOwned | apply Keeps.killQueue | apply Keeps.modQueue
    | apply Keeps.invalidate | apply Keeps.closeWindows | (fail_if_no_progress apply Keeps.upd)
    | (refine Keeps.foldl ?_ ?_ _; rotate_left; intros; beta_reduce)
    | (extract_lets +onlyGivenNames -underBinder x; first | (refine Keeps.cut (s := x) (r := r) ?_ ?_; rotate_left; clear_value x; revert x; intro _ _; rotate_left; dsimp -zeta -iota -proj only [x]; clear x) | (clear_value x; revert x; intro _))
    | split | exact KeepsP.keeps (p := (_, _)) (by assumption) | refine KeepsP.of_eq ?_ (by assumption)

theorem Keeps.teardownRecord {r : State} {s : State} {b : Bytes} (h : Keeps r s) :
    KeepsP r (State.teardownRecord s b) := by
  generalize hf : @State.teardownRecord = f; delta State.teardownRecord at hf; subst hf; beta_reduce
  repeat' (first | with_reducible assumption  | with_reducible apply Keeps.readContext | with_reducible apply Keeps.beginTeardown | with_reducible apply Keeps.ite | with_reducible apply KeepsP.ite | fail_if_no_progress with_reducible apply Keeps.upd | with_reducible apply KeepsOut.next | exact trivial | with_reducible apply KeepsDid.done | with_reducible apply KeepsDid.raise | with_reducible apply KeepsDid.stall | (with_reducible refine Keeps.foldl ?_ ?_ _; rotate_left; intros; beta_reduce) | (with_reducible refine KeepsP.foldl ?_ ?_ _; rotate_left; intros; beta_reduce) | with_reducible apply KeepsP.keeps | (extract_lets +onlyGivenNames -underBinder x; first | (refine Keeps.cut (r := r) (s := x) ?_ ?_; rotate_left; clear_value x; revert x; intro _ _; rotate_left; dsimp -zeta -iota -proj only [x]; clear x) | (refine KeepsP.cut (r := r) (p := x) ?_ ?_; rotate_left; clear_value x; revert x; intro _ _; rotate_left; dsimp -zeta -iota -proj only [x]; clear x) | clear_value x) | split | exact KeepsP.keeps (p := (_, _)) (by assumption) | (refine KeepsP.of_eq ?_ (by assumption)) | dsimp +zetaDelta -zeta -iota -proj only | with_reducible apply KeepsP.pair)

theorem Keeps.doRecord {r : State} {s : State} {x' : Nat × Bytes} (h : Keeps r s) :
    Keeps r (State.doRecord s x') := by
  generalize hf : @State.doRecord = f; delta State.doRecord at hf; subst hf; beta_reduce
  repeat' (first | with_reducible assumption  | with_reducible apply Keeps.forgetSteps | with_reducible apply Keeps.queueRecord | with_reducible apply Keeps.fenceRecord | with_reducible apply Keeps.teardownRecord | with_reducible apply Keeps.reportOp | with_reducible apply Keeps.ite | with_reducible apply KeepsP.ite | fail_if_no_progress with_reducible apply Keeps.upd | with_reducible apply KeepsOut.next | exact trivial | with_reducible apply KeepsDid.done | with_reducible apply KeepsDid.raise | with_reducible apply KeepsDid.stall | (with_reducible refine Keeps.foldl ?_ ?_ _; rotate_left; intros; beta_reduce) | (with_reducible refine KeepsP.foldl ?_ ?_ _; rotate_left; intros; beta_reduce) | with_reducible apply KeepsP.keeps | (extract_lets +onlyGivenNames -underBinder x; first | (refine Keeps.cut (r := r) (s := x) ?_ ?_; rotate_left; clear_value x; revert x; intro _ _; rotate_left; dsimp -zeta -iota -proj only [x]; clear x) | (refine KeepsP.cut (r := r) (p := x) ?_ ?_; rotate_left; clear_value x; revert x; intro _ _; rotate_left; dsimp -zeta -iota -proj only [x]; clear x) | clear_value x) | split | exact KeepsP.keeps (p := (_, _)) (by assumption) | (refine KeepsP.of_eq ?_ (by assumption)) | dsimp +zetaDelta -zeta -iota -proj only | with_reducible apply KeepsP.pair)

theorem Keeps.takeRecord {r : State} {s : State} {x' : Nat × Bytes} (h : Keeps r s) :
    Keeps r (State.takeRecord s x') := by
  generalize hf : @State.takeRecord = f; delta State.takeRecord at hf; subst hf; beta_reduce
  repeat' (first | with_reducible assumption  | with_reducible apply Keeps.doRecord | with_reducible apply Keeps.ite | with_reducible apply KeepsP.ite | fail_if_no_progress with_reducible apply Keeps.upd | with_reducible apply KeepsOut.next | exact trivial | with_reducible apply KeepsDid.done | with_reducible apply KeepsDid.raise | with_reducible apply KeepsDid.stall | (with_reducible refine Keeps.foldl ?_ ?_ _; rotate_left; intros; beta_reduce) | (with_reducible refine KeepsP.foldl ?_ ?_ _; rotate_left; intros; beta_reduce) | with_reducible apply KeepsP.keeps | (extract_lets +onlyGivenNames -underBinder x; first | (refine Keeps.cut (r := r) (s := x) ?_ ?_; rotate_left; clear_value x; revert x; intro _ _; rotate_left; dsimp -zeta -iota -proj only [x]; clear x) | (refine KeepsP.cut (r := r) (p := x) ?_ ?_; rotate_left; clear_value x; revert x; intro _ _; rotate_left; dsimp -zeta -iota -proj only [x]; clear x) | clear_value x) | split | exact KeepsP.keeps (p := (_, _)) (by assumption) | (refine KeepsP.of_eq ?_ (by assumption)) | dsimp +zetaDelta -zeta -iota -proj only | with_reducible apply KeepsP.pair)

theorem Keeps.gotRecord {r : State} {s : State} {kind : Nat} {answer : HostAns} (h : Keeps r s) :
    Keeps r (State.gotRecord s kind answer) := by
  generalize hf : @State.gotRecord = f; delta State.gotRecord at hf; subst hf; beta_reduce
  repeat' (first | with_reducible assumption  | with_reducible apply Keeps.aer | with_reducible apply Keeps.reportOp | with_reducible apply Keeps.takeRecord | with_reducible apply Keeps.ite | with_reducible apply KeepsP.ite | fail_if_no_progress with_reducible apply Keeps.upd | with_reducible apply KeepsOut.next | exact trivial | with_reducible apply KeepsDid.done | with_reducible apply KeepsDid.raise | with_reducible apply KeepsDid.stall | (with_reducible refine Keeps.foldl ?_ ?_ _; rotate_left; intros; beta_reduce) | (with_reducible refine KeepsP.foldl ?_ ?_ _; rotate_left; intros; beta_reduce) | with_reducible apply KeepsP.keeps | (extract_lets +onlyGivenNames -underBinder x; first | (refine Keeps.cut (r := r) (s := x) ?_ ?_; rotate_left; clear_value x; revert x; intro _ _; rotate_left; dsimp -zeta -iota -proj only [x]; clear x) | (refine KeepsP.cut (r := r) (p := x) ?_ ?_; rotate_left; clear_value x; revert x; intro _ _; rotate_left; dsimp -zeta -iota -proj only [x]; clear x) | clear_value x) | split | exact KeepsP.keeps (p := (_, _)) (by assumption) | (refine KeepsP.of_eq ?_ (by assumption)) | dsimp +zetaDelta -zeta -iota -proj only | with_reducible apply KeepsP.pair)

theorem Keeps.putQueueRecord {addr answer x1} (h : Keeps r x1) :
    KeepsP r (Machine.putQueueRecord addr answer x1) := by
  generalize hf : @Machine.putQueueRecord = f; delta Machine.putQueueRecord at hf; subst hf; beta_reduce
  with_reducible repeat' first
    | assumption | apply Keeps.gotRecord | apply Keeps.readRecord | apply Keeps.reportOp | apply Keeps.createQueue | apply Keeps.destroyQueue
    | apply Keeps.stopQueue | apply Keeps.startQueue | apply Keeps.ite | apply KeepsP.ite
    | (fail_if_no_progress apply Keeps.upd) | apply KeepsP.keeps
    | (extract_lets +onlyGivenNames -underBinder x; first | (refine Keeps.cut (s := x) (r := r) ?_ ?_; rotate_left; clear_value x; revert x; intro _ _; rotate_left; dsimp -zeta -iota -proj only [x]; clear x) | (clear_value x; revert x; intro _))
    | split | refine KeepsP.of_eq ?_ (by assumption) | apply KeepsP.pair

theorem Keeps.putFenceRecord {addr answer x1} (h : Keeps r x1) :
    KeepsP r (Machine.putFenceRecord addr answer x1) := by
  generalize hf : @Machine.putFenceRecord = f; delta Machine.putFenceRecord at hf; subst hf; beta_reduce
  with_reducible repeat' first
    | assumption | apply Keeps.gotRecord | apply Keeps.readRecord | apply Keeps.reportOp | apply Keeps.createFence | apply Keeps.destroyFence
    | (fail_if_no_progress apply Keeps.upd) | apply KeepsP.keeps
    | (extract_lets +onlyGivenNames -underBinder x; first | (refine Keeps.cut (s := x) (r := r) ?_ ?_; rotate_left; clear_value x; revert x; intro _ _; rotate_left; dsimp -zeta -iota -proj only [x]; clear x) | (clear_value x; revert x; intro _))
    | split | refine KeepsP.of_eq ?_ (by assumption) | apply KeepsP.pair

theorem Keeps.putTeardownRecord {addr answer x1} (h : Keeps r x1) :
    KeepsP r (Machine.putTeardownRecord addr answer x1) := by
  generalize hf : @Machine.putTeardownRecord = f; delta Machine.putTeardownRecord at hf; subst hf; beta_reduce
  with_reducible repeat' first
    | assumption | apply Keeps.gotRecord | apply Keeps.readRecord | apply Keeps.reportOp | apply Keeps.beginTeardown | apply Keeps.ite
    | apply KeepsP.ite | (fail_if_no_progress apply Keeps.upd) | apply KeepsP.keeps
    | (extract_lets +onlyGivenNames -underBinder x; first | (refine Keeps.cut (s := x) (r := r) ?_ ?_; rotate_left; clear_value x; revert x; intro _ _; rotate_left; dsimp -zeta -iota -proj only [x]; clear x) | (clear_value x; revert x; intro _))
    | split | refine KeepsP.of_eq ?_ (by assumption) | apply KeepsP.pair

/-! ### Queues -/

theorem Keeps.putIrqCause {s fn v} (h : Keeps r s) : Keeps r (State.putIrqCause s fn v) := by
  generalize hf : @State.putIrqCause = f; delta State.putIrqCause at hf; subst hf; beta_reduce
  with_reducible repeat' first
    | assumption | apply Keeps.modFn | (fail_if_no_progress apply Keeps.upd)

theorem Keeps.putFunctionPort {fn v x1} (h : Keeps r x1) : KeepsP r (Machine.putFunctionPort fn v x1) := by
  generalize hf : @Machine.putFunctionPort = f; delta Machine.putFunctionPort at hf; subst hf; beta_reduce
  with_reducible repeat' first
    | assumption | apply Keeps.modFn | apply KeepsP.ite | (fail_if_no_progress apply Keeps.upd) | apply KeepsP.pair

theorem Keeps.putErrorFence {b v x1} (h : Keeps r x1) : KeepsP r (Machine.putErrorFence b v x1) := by
  generalize hf : @Machine.putErrorFence = f; delta Machine.putErrorFence at hf; subst hf; beta_reduce
  with_reducible repeat' first
    | assumption | apply Keeps.modBight | apply Keeps.ite | apply KeepsP.ite | (fail_if_no_progress apply Keeps.upd)
    | apply KeepsP.keeps | (extract_lets +onlyGivenNames -underBinder x; clear_value x; revert x; intro _)
    | apply KeepsP.pair

theorem Keeps.bootArrive {r : State} {s : State} {req : Nat} {answer : HostAns} (h : Keeps r s) :
    Keeps r (State.bootArrive s req answer) := by
  generalize hf : @State.bootArrive = f; delta State.bootArrive at hf; subst hf; beta_reduce
  repeat' (first | with_reducible assumption  | with_reducible apply Keeps.aer | with_reducible apply Keeps.ite | with_reducible apply KeepsP.ite | fail_if_no_progress with_reducible apply Keeps.upd | with_reducible apply KeepsOut.next | exact trivial | with_reducible apply KeepsDid.done | with_reducible apply KeepsDid.raise | with_reducible apply KeepsDid.stall | (with_reducible refine Keeps.foldl ?_ ?_ _; rotate_left; intros; beta_reduce) | (with_reducible refine KeepsP.foldl ?_ ?_ _; rotate_left; intros; beta_reduce) | with_reducible apply KeepsP.keeps | (extract_lets +onlyGivenNames -underBinder x; first | (refine Keeps.cut (r := r) (s := x) ?_ ?_; rotate_left; clear_value x; revert x; intro _ _; rotate_left; dsimp -zeta -iota -proj only [x]; clear x) | (refine KeepsP.cut (r := r) (p := x) ?_ ?_; rotate_left; clear_value x; revert x; intro _ _; rotate_left; dsimp -zeta -iota -proj only [x]; clear x) | clear_value x) | split | exact KeepsP.keeps (p := (_, _)) (by assumption) | (refine KeepsP.of_eq ?_ (by assumption)) | dsimp +zetaDelta -zeta -iota -proj only | with_reducible apply KeepsP.pair)

theorem Keeps.pcieDown {s port} (h : Keeps r s) : Keeps r (State.pcieDown s port) := by
  generalize hf : @State.pcieDown = f; delta State.pcieDown at hf; subst hf; beta_reduce
  with_reducible repeat' first
    | assumption | apply Keeps.aperture | apply Keeps.bootArrive | apply Keeps.abandonReqs | apply Keeps.arriveReq | apply Keeps.ite
    | (fail_if_no_progress apply Keeps.upd) | (refine Keeps.foldl ?_ ?_ _; rotate_left; intros; beta_reduce)
    | (refine KeepsP.foldl ?_ ?_ _; rotate_left; intros; beta_reduce)
    | (extract_lets +onlyGivenNames -underBinder x; first | (refine Keeps.cut (s := x) (r := r) ?_ ?_; rotate_left; clear_value x; revert x; intro _ _; rotate_left; dsimp -zeta -iota -proj only [x]; clear x) | (clear_value x; revert x; intro _))
    | split | exact KeepsP.keeps (p := (_, _)) (by assumption) | refine KeepsP.of_eq ?_ (by assumption)

/-! ### RootOps -/

theorem Keeps.forceDom {s i x'} (h : Keeps r s) : Keeps r (State.forceDom s i x') := by
  generalize hf : @State.forceDom = f; delta State.forceDom at hf; subst hf; beta_reduce
  with_reducible repeat' first
    | assumption | apply Keeps.setDomain | apply Keeps.domReached | apply Keeps.ite
    | (fail_if_no_progress apply Keeps.upd)
    | (extract_lets +onlyGivenNames -underBinder x; clear_value x; revert x; intro _)

theorem Keeps.clustersOff {s} (h : Keeps r s) : Keeps r (State.clustersOff s) := by
  generalize hf : @State.clustersOff = f; delta State.clustersOff at hf; subst hf; beta_reduce
  with_reducible repeat' first
    | assumption | apply Keeps.forceDom | (refine Keeps.foldl ?_ ?_ _; rotate_left; intros; beta_reduce) | split
    | exact KeepsP.keeps (p := (_, _)) (by assumption) | refine KeepsP.of_eq ?_ (by assumption)

theorem Keeps.portsOff {s} (h : Keeps r s) : Keeps r (State.portsOff s) := by
  generalize hf : @State.portsOff = f; delta State.portsOff at hf; subst hf; beta_reduce
  with_reducible repeat' first
    | assumption | apply Keeps.portOff | apply Keeps.forceDom | (refine Keeps.foldl ?_ ?_ _; rotate_left; intros; beta_reduce) | split
    | exact KeepsP.keeps (p := (_, _)) (by assumption) | refine KeepsP.of_eq ?_ (by assumption)

theorem Keeps.stacksLow {s} (h : Keeps r s) : Keeps r (State.stacksLow s) := by
  generalize hf : @State.stacksLow = f; delta State.stacksLow at hf; subst hf; beta_reduce
  with_reducible repeat' first
    | assumption | apply Keeps.forceDom | apply Keeps.ite
    | (refine Keeps.foldl ?_ ?_ _; rotate_left; intros; beta_reduce)
    | (extract_lets +onlyGivenNames -underBinder x; clear_value x; revert x; intro _) | split
    | exact KeepsP.keeps (p := (_, _)) (by assumption) | refine KeepsP.of_eq ?_ (by assumption)

theorem Keeps.flushRegister {s b} (h : Keeps r s) : Keeps r (State.flushRegister s b) := by
  generalize hf : @State.flushRegister = f; delta State.flushRegister at hf; subst hf; beta_reduce
  with_reducible repeat' first
    | assumption | apply Keeps.takeCommit | apply Keeps.takeKill | apply Keeps.modBight
    | (fail_if_no_progress apply Keeps.upd) | (refine Keeps.foldl ?_ ?_ _; rotate_left; intros; beta_reduce)
    | (refine KeepsP.foldl ?_ ?_ _; rotate_left; intros; beta_reduce) | split
    | exact KeepsP.keeps (p := (_, _)) (by assumption) | refine KeepsP.of_eq ?_ (by assumption)

theorem Keeps.orphanReqs {s q seq run b} (h : Keeps r s) : Keeps r (State.orphanReqs s q seq run b) := by
  generalize hf : @State.orphanReqs = f; delta State.orphanReqs at hf; subst hf; beta_reduce
  with_reducible repeat' first
    | assumption | apply Keeps.ite | (fail_if_no_progress apply Keeps.upd)

theorem Keeps.endNow {s q seq code} (h : Keeps r s) : Keeps r (State.endNow s q seq code) := by
  generalize hf : @State.endNow = f; delta State.endNow at hf; subst hf; beta_reduce
  with_reducible repeat' first
    | assumption | apply Keeps.takeKill | apply Keeps.orphanReqs | apply Keeps.endCmd | apply Keeps.ite
    | (fail_if_no_progress apply Keeps.upd)
    | (extract_lets +onlyGivenNames -underBinder x; first | (refine Keeps.cut (s := x) (r := r) ?_ ?_; rotate_left; clear_value x; revert x; intro _ _; rotate_left; dsimp -zeta -iota -proj only [x]; clear x) | (clear_value x; revert x; intro _))
    | split | refine KeepsP.of_eq ?_ (by assumption)

theorem Keeps.endAll {s code running} (h : Keeps r s) : Keeps r (State.endAll s code running) := by
  generalize hf : @State.endAll = f; delta State.endAll at hf; subst hf; beta_reduce
  with_reducible repeat' first
    | assumption | apply Keeps.flushRegister | apply Keeps.endNow | apply Keeps.ite
    | (refine Keeps.foldl ?_ ?_ _; rotate_left; intros; beta_reduce)
    | (extract_lets +onlyGivenNames -underBinder x; first | (refine Keeps.cut (s := x) (r := r) ?_ ?_; rotate_left; clear_value x; revert x; intro _ _; rotate_left; dsimp -zeta -iota -proj only [x]; clear x) | (clear_value x; revert x; intro _))
    | split | exact KeepsP.keeps (p := (_, _)) (by assumption) | refine KeepsP.of_eq ?_ (by assumption)

theorem Keeps.tripMessages {location halfDegrees s} (h : Keeps r s) : Keeps r (State.tripMessages s location halfDegrees) := by
  unfold State.tripMessages
  exact Keeps.lanCarry (Keeps.lanCarry h)

theorem Keeps.tripActions {r : State} {s : State} (h : Keeps r s) :
    Keeps r (State.tripActions s) := by
  generalize hf : @State.tripActions = f; delta State.tripActions at hf; subst hf; beta_reduce
  repeat' (first | with_reducible assumption  | with_reducible apply Keeps.endAll | with_reducible apply Keeps.clustersOff | with_reducible apply Keeps.portsOff | with_reducible apply Keeps.stacksLow | with_reducible apply Keeps.ite | with_reducible apply KeepsP.ite | fail_if_no_progress with_reducible apply Keeps.upd | with_reducible apply KeepsOut.next | exact trivial | with_reducible apply KeepsDid.done | with_reducible apply KeepsDid.raise | with_reducible apply KeepsDid.stall | (with_reducible refine Keeps.foldl ?_ ?_ _; rotate_left; intros; beta_reduce) | (with_reducible refine KeepsP.foldl ?_ ?_ _; rotate_left; intros; beta_reduce) | with_reducible apply KeepsP.keeps | (extract_lets +onlyGivenNames -underBinder x; first | (refine Keeps.cut (r := r) (s := x) ?_ ?_; rotate_left; clear_value x; revert x; intro _ _; rotate_left; dsimp -zeta -iota -proj only [x]; clear x) | (refine KeepsP.cut (r := r) (p := x) ?_ ?_; rotate_left; clear_value x; revert x; intro _ _; rotate_left; dsimp -zeta -iota -proj only [x]; clear x) | clear_value x) | split | exact KeepsP.keeps (p := (_, _)) (by assumption) | (refine KeepsP.of_eq ?_ (by assumption)) | dsimp +zetaDelta -zeta -iota -proj only | with_reducible apply KeepsP.pair)

theorem Keeps.tripAt {r : State} {s : State} {location : Nat} {halfDegrees : Int} (h : Keeps r s) :
    Keeps r (State.tripAt s location halfDegrees) := by
  generalize hf : @State.tripAt = f; delta State.tripAt at hf; subst hf; beta_reduce
  repeat' (first | with_reducible assumption  | with_reducible apply Keeps.tripMessages | with_reducible apply Keeps.tripActions | with_reducible apply Keeps.event | with_reducible apply Keeps.rootstockCause | with_reducible apply Keeps.ite | with_reducible apply KeepsP.ite | fail_if_no_progress with_reducible apply Keeps.upd | with_reducible apply KeepsOut.next | exact trivial | with_reducible apply KeepsDid.done | with_reducible apply KeepsDid.raise | with_reducible apply KeepsDid.stall | (with_reducible refine Keeps.foldl ?_ ?_ _; rotate_left; intros; beta_reduce) | (with_reducible refine KeepsP.foldl ?_ ?_ _; rotate_left; intros; beta_reduce) | with_reducible apply KeepsP.keeps | (extract_lets +onlyGivenNames -underBinder x; first | (refine Keeps.cut (r := r) (s := x) ?_ ?_; rotate_left; clear_value x; revert x; intro _ _; rotate_left; dsimp -zeta -iota -proj only [x]; clear x) | (refine KeepsP.cut (r := r) (p := x) ?_ ?_; rotate_left; clear_value x; revert x; intro _ _; rotate_left; dsimp -zeta -iota -proj only [x]; clear x) | clear_value x) | split | exact KeepsP.keeps (p := (_, _)) (by assumption) | (refine KeepsP.of_eq ?_ (by assumption)) | dsimp +zetaDelta -zeta -iota -proj only | with_reducible apply KeepsP.pair)

theorem Keeps.reefEnds {s} (h : Keeps r s) : Keeps r (State.reefEnds s) := by
  generalize hf : @State.reefEnds = f; delta State.reefEnds at hf; subst hf; beta_reduce
  with_reducible repeat' first
    | assumption | apply Keeps.event | (fail_if_no_progress apply Keeps.upd)
    | (extract_lets +onlyGivenNames -underBinder x; clear_value x; revert x; intro _)

theorem Keeps.enterReef {s} (h : Keeps r s) : Keeps r (State.enterReef s) := by
  generalize hf : @State.enterReef = f; delta State.enterReef at hf; subst hf; beta_reduce
  with_reducible repeat' first
    | assumption | apply Keeps.event | apply Keeps.scaleAll | apply Keeps.announce | apply Keeps.ite
    | (fail_if_no_progress apply Keeps.upd)
    | (extract_lets +onlyGivenNames -underBinder x; first | (refine Keeps.cut (s := x) (r := r) ?_ ?_; rotate_left; clear_value x; revert x; intro _ _; rotate_left; dsimp -zeta -iota -proj only [x]; clear x) | (clear_value x; revert x; intro _))

theorem Keeps.stopQueues {s} (h : Keeps r s) : Keeps r (State.stopQueues s) := by
  generalize hf : @State.stopQueues = f; delta State.stopQueues at hf; subst hf; beta_reduce
  with_reducible repeat' first
    | assumption | apply Keeps.cause | (fail_if_no_progress apply Keeps.upd)
    | (refine Keeps.foldl ?_ ?_ _; rotate_left; intros; beta_reduce)
    | (extract_lets +onlyGivenNames -underBinder x; first | (refine Keeps.cut (s := x) (r := r) ?_ ?_; rotate_left; clear_value x; revert x; intro _ _; rotate_left; dsimp -zeta -iota -proj only [x]; clear x) | (clear_value x; revert x; intro _))
    | split | exact KeepsP.keeps (p := (_, _)) (by assumption) | refine KeepsP.of_eq ?_ (by assumption)

theorem Keeps.endRelash {s b} (h : Keeps r s) : Keeps r (State.endRelash s b) := by
  generalize hf : @State.endRelash = f; delta State.endRelash at hf; subst hf; beta_reduce
  with_reducible repeat' first
    | assumption | apply Keeps.relashAll | apply Keeps.modBight | (fail_if_no_progress apply Keeps.upd) | split
    | refine KeepsP.of_eq ?_ (by assumption)

theorem Keeps.dropBight {s b} (h : Keeps r s) : Keeps r (State.dropBight s b) := by
  generalize hf : @State.dropBight = f; delta State.dropBight at hf; subst hf; beta_reduce
  with_reducible repeat' first
    | assumption | apply Keeps.relashAll | apply Keeps.reportLash | apply Keeps.freeBight | apply Keeps.dropCircuits | apply Keeps.freeRouters
    | apply Keeps.ite | apply KeepsP.keeps
    | (extract_lets +onlyGivenNames -underBinder x; first | (refine Keeps.cut (s := x) (r := r) ?_ ?_; rotate_left; clear_value x; revert x; intro _ _; rotate_left; dsimp -zeta -iota -proj only [x]; clear x) | (clear_value x; revert x; intro _))
    | split | refine KeepsP.of_eq ?_ (by assumption)

theorem Keeps.slotsFail {s code} (h : Keeps r s) : Keeps r (State.slotsFail s code) := by
  generalize hf : @State.slotsFail = f; delta State.slotsFail at hf; subst hf; beta_reduce
  with_reducible repeat' first
    | assumption | apply Keeps.slotGone | apply Keeps.postReport | apply Keeps.setSlot | apply Keeps.slotBreak | apply Keeps.putSlot
    | apply Keeps.ite | (fail_if_no_progress apply Keeps.upd)
    | (refine Keeps.foldl ?_ ?_ _; rotate_left; intros; beta_reduce)
    | (extract_lets +onlyGivenNames -underBinder x; first | (refine Keeps.cut (s := x) (r := r) ?_ ?_; rotate_left; clear_value x; revert x; intro _ _; rotate_left; dsimp -zeta -iota -proj only [x]; clear x) | (clear_value x; revert x; intro _))
    | split | exact KeepsP.keeps (p := (_, _)) (by assumption) | refine KeepsP.of_eq ?_ (by assumption)

theorem Keeps.enterRootstock {s trip} (h : Keeps r s) : Keeps r (State.enterRootstock s trip) := by
  generalize hf : @State.enterRootstock = f; delta State.enterRootstock at hf; subst hf; beta_reduce
  with_reducible repeat' first
    | assumption | apply Keeps.stopQueues | apply Keeps.endAll | apply Keeps.endRelash | apply Keeps.dropBight
    | apply Keeps.stacksLow | apply Keeps.portsOff | apply Keeps.clustersOff | apply Keeps.slotsFail
    | apply Keeps.reefEnds | apply Keeps.ownersGo | apply Keeps.retune | apply Keeps.scaleAll | apply Keeps.event
    | apply Keeps.ite | (fail_if_no_progress apply Keeps.upd)
    | (refine Keeps.foldl ?_ ?_ _; rotate_left; intros; beta_reduce)
    | (extract_lets +onlyGivenNames -underBinder x; first | (refine Keeps.cut (s := x) (r := r) ?_ ?_; rotate_left; clear_value x; revert x; intro _ _; rotate_left; dsimp -zeta -iota -proj only [x]; clear x) | (clear_value x; revert x; intro _))
    | split | exact KeepsP.keeps (p := (_, _)) (by assumption) | refine KeepsP.of_eq ?_ (by assumption)

/-! ### Hbm -/

theorem Keeps.putGateSetting {v x1} (h : Keeps r x1) : KeepsP r (Machine.putGateSetting v x1) := by
  generalize hf : @Machine.putGateSetting = f; delta Machine.putGateSetting at hf; subst hf; beta_reduce
  with_reducible repeat' first
    | assumption | apply Keeps.scaleFloors | apply Keeps.setGroup | apply Keeps.ite | apply KeepsP.ite
    | (fail_if_no_progress apply Keeps.upd) | apply KeepsP.keeps
    | (extract_lets +onlyGivenNames -underBinder x; clear_value x; revert x; intro _) | apply KeepsP.pair

/-! ### Power -/

theorem Keeps.sendLimit {s src index windows} (h : Keeps r s) : Keeps r (State.sendLimit s src index windows) := by
  generalize hf : @State.sendLimit = f; delta State.sendLimit at hf; subst hf; beta_reduce
  with_reducible repeat' first
    | assumption | apply Keeps.lanSend

theorem Keeps.railWindow {s i l} (h : Keeps r s) : Keeps r (State.railWindow s i l) := by
  generalize hf : @State.railWindow = f; delta State.railWindow at hf; subst hf; beta_reduce
  with_reducible repeat' first
    | assumption | apply Keeps.sendLimit | apply Keeps.event | apply Keeps.ite | (fail_if_no_progress apply Keeps.upd)
    | (extract_lets +onlyGivenNames -underBinder x; first | (refine Keeps.cut (s := x) (r := r) ?_ ?_; rotate_left; clear_value x; revert x; intro _ _; rotate_left; dsimp -zeta -iota -proj only [x]; clear x) | (clear_value x; revert x; intro _))

theorem Keeps.inputWindow {r : State} {s : State} {w : Nat} {n : Nat} (h : Keeps r s) :
    Keeps r (State.inputWindow s w n) := by
  generalize hf : @State.inputWindow = f; delta State.inputWindow at hf; subst hf; beta_reduce
  with_reducible repeat' first
    | assumption | apply Keeps.sendLimit | apply Keeps.ite | (fail_if_no_progress apply Keeps.upd)
    | apply KeepsP.keeps
    | (extract_lets +onlyGivenNames -underBinder x; first | (refine Keeps.cut (s := x) (r := r) ?_ ?_; rotate_left; clear_value x; revert x; intro _ _; rotate_left; dsimp -zeta -iota -proj only [x]; clear x) | (clear_value x; revert x; intro _))

theorem Keeps.takePower {r s t : State} {n op : Nat} (h : Keeps r s) (e : s.takePower n op = some t) : Keeps r t := by
  unfold State.takePower at e
  split at e
  · next e' =>
    split at e
    · cases e
      exact Keeps.lanTake h e'
    · cases e
  · cases e

theorem Keeps.setTCap {s t} (h : Keeps r s) : Keeps r (State.setTCap s t) := by
  generalize hf : @State.setTCap = f; delta State.setTCap at hf; subst hf; beta_reduce
  with_reducible repeat' first
    | assumption | apply Keeps.ite | (fail_if_no_progress apply Keeps.upd)

theorem Keeps.trimUp {s} (h : Keeps r s) : Keeps r (State.trimUp s) := by
  generalize hf : @State.trimUp = f; delta State.trimUp at hf; subst hf; beta_reduce
  with_reducible repeat' first
    | assumption | apply Keeps.modBight | apply Keeps.setTCap | apply Keeps.ite
    | (fail_if_no_progress apply Keeps.upd)
    | (extract_lets +onlyGivenNames -underBinder x; first | (refine Keeps.cut (s := x) (r := r) ?_ ?_; rotate_left; clear_value x; revert x; intro _ _; rotate_left; dsimp -zeta -iota -proj only [x]; clear x) | (clear_value x; revert x; intro _))
    | split | refine KeepsP.of_eq ?_ (by assumption)

theorem Keeps.trimDown {s} (h : Keeps r s) : Keeps r (State.trimDown s) := by
  generalize hf : @State.trimDown = f; delta State.trimDown at hf; subst hf; beta_reduce
  with_reducible repeat' first
    | assumption | apply Keeps.modBight | apply Keeps.setTCap | (fail_if_no_progress apply Keeps.upd) | split
    | refine KeepsP.of_eq ?_ (by assumption)

theorem Keeps.dropShares {s} (h : Keeps r s) : Keeps r (State.dropShares s) := by
  generalize hf : @State.dropShares = f; delta State.dropShares at hf; subst hf; beta_reduce
  with_reducible repeat' first
    | assumption | apply Keeps.modBight | (fail_if_no_progress apply Keeps.upd)
    | (refine Keeps.foldl ?_ ?_ _; rotate_left; intros; beta_reduce)
    | (extract_lets +onlyGivenNames -underBinder x; first | (refine Keeps.cut (s := x) (r := r) ?_ ?_; rotate_left; clear_value x; revert x; intro _ _; rotate_left; dsimp -zeta -iota -proj only [x]; clear x) | (clear_value x; revert x; intro _))
    | split | exact KeepsP.keeps (p := (_, _)) (by assumption) | refine KeepsP.of_eq ?_ (by assumption)

theorem Keeps.noteUnmet {r : State} {s : State} {cap : Nat} (h : Keeps r s) :
    Keeps r (State.noteUnmet s cap) := by
  generalize hf : @State.noteUnmet = f; delta State.noteUnmet at hf; subst hf; beta_reduce
  with_reducible repeat' first
    | assumption | apply Keeps.moduleEvent | apply Keeps.event | apply Keeps.ite
    | (fail_if_no_progress apply Keeps.upd)
    | (extract_lets +onlyGivenNames -underBinder x; first | (refine Keeps.cut (s := x) (r := r) ?_ ?_; rotate_left; clear_value x; revert x; intro _ _; rotate_left; dsimp -zeta -iota -proj only [x]; clear x) | (clear_value x; revert x; intro _))

theorem Keeps.putCap {v x1} (h : Keeps r x1) : KeepsP r (Machine.putCap v x1) := by
  generalize hf : @Machine.putCap = f; delta Machine.putCap at hf; subst hf; beta_reduce
  with_reducible repeat' first
    | assumption | apply KeepsP.ite | (fail_if_no_progress apply Keeps.upd) | apply KeepsP.pair

theorem Keeps.putFixedFreq {v x1} (h : Keeps r x1) : KeepsP r (Machine.putFixedFreq v x1) := by
  generalize hf : @Machine.putFixedFreq = f; delta Machine.putFixedFreq at hf; subst hf; beta_reduce
  with_reducible repeat' first
    | assumption | apply Keeps.retune | apply KeepsP.ite | (fail_if_no_progress apply Keeps.upd) | apply KeepsP.pair

theorem Keeps.halfSample {s h' t} (h : Keeps r s) : Keeps r (State.halfSample s h' t) := by
  generalize hf : @State.halfSample = f; delta State.halfSample at hf; subst hf; beta_reduce
  with_reducible repeat' first
    | assumption | apply Keeps.lanSend | apply Keeps.ite | (fail_if_no_progress apply Keeps.upd)
    | (extract_lets +onlyGivenNames -underBinder x; first | (refine Keeps.cut (s := x) (r := r) ?_ ?_; rotate_left; clear_value x; revert x; intro _ _; rotate_left; dsimp -zeta -iota -proj only [x]; clear x) | (clear_value x; revert x; intro _))

theorem Keeps.thermalLoop {s l} (h : Keeps r s) : Keeps r (State.thermalLoop s l) := by
  generalize hf : @State.thermalLoop = f; delta State.thermalLoop at hf; subst hf; beta_reduce
  with_reducible repeat' first
    | assumption | apply Keeps.ite | (fail_if_no_progress apply Keeps.upd)
    | (extract_lets +onlyGivenNames -underBinder x; clear_value x; revert x; intro _)

theorem Keeps.coolDown {s l} (h : Keeps r s) : Keeps r (State.coolDown s l) := by
  generalize hf : @State.coolDown = f; delta State.coolDown at hf; subst hf; beta_reduce
  with_reducible repeat' first
    | assumption | apply Keeps.ite | (fail_if_no_progress apply Keeps.upd)
    | (extract_lets +onlyGivenNames -underBinder x; first | (refine Keeps.cut (s := x) (r := r) ?_ ?_; rotate_left; clear_value x; revert x; intro _ _; rotate_left; dsimp -zeta -iota -proj only [x]; clear x) | (clear_value x; revert x; intro _))

/-! ### Rootstock -/

theorem Keeps.enterImage {s} (h : Keeps r s) : Keeps r (State.enterImage s) := by
  generalize hf : @State.enterImage = f; delta State.enterImage at hf; subst hf; beta_reduce
  with_reducible repeat' first
    | assumption | apply Keeps.event | (fail_if_no_progress apply Keeps.upd)
    | (extract_lets +onlyGivenNames -underBinder x; first | (refine Keeps.cut (s := x) (r := r) ?_ ?_; rotate_left; clear_value x; revert x; intro _ _; rotate_left; dsimp -zeta -iota -proj only [x]; clear x) | (clear_value x; revert x; intro _))

theorem Keeps.exitZeroize {s i} (h : Keeps r s) : Keeps r (State.exitZeroize s i) := by
  generalize hf : @State.exitZeroize = f; delta State.exitZeroize at hf; subst hf; beta_reduce
  with_reducible repeat' first
    | assumption | apply Keeps.zeroizeStep | apply Keeps.zeroPages | apply Keeps.zeroPage | apply Keeps.putSlot | apply Keeps.postReport | apply Keeps.setSlot
    | apply Keeps.ite | (fail_if_no_progress apply Keeps.upd)
    | (refine Keeps.foldl ?_ ?_ _; rotate_left; intros; beta_reduce)
    | (extract_lets +onlyGivenNames -underBinder x; first | (refine Keeps.cut (s := x) (r := r) ?_ ?_; rotate_left; clear_value x; revert x; intro _ _; rotate_left; dsimp -zeta -iota -proj only [x]; clear x) | (clear_value x; revert x; intro _))
    | split | exact KeepsP.keeps (p := (_, _)) (by assumption) | refine KeepsP.of_eq ?_ (by assumption)

theorem Keeps.exitRootstock {s} (h : Keeps r s) : Keeps r (State.exitRootstock s) := by
  generalize hf : @State.exitRootstock = f; delta State.exitRootstock at hf; subst hf; beta_reduce
  with_reducible repeat' first
    | assumption | apply Keeps.exitZeroize | apply Keeps.event | apply Keeps.scaleAll | apply Keeps.retune
    | apply Keeps.enterReef | (fail_if_no_progress apply Keeps.upd)
    | (refine Keeps.foldl ?_ ?_ _; rotate_left; intros; beta_reduce)
    | (extract_lets +onlyGivenNames -underBinder x; first | (refine Keeps.cut (s := x) (r := r) ?_ ?_; rotate_left; clear_value x; revert x; intro _ _; rotate_left; dsimp -zeta -iota -proj only [x]; clear x) | (clear_value x; revert x; intro _))
    | split | exact KeepsP.keeps (p := (_, _)) (by assumption) | refine KeepsP.of_eq ?_ (by assumption)

theorem Keeps.putExit {v x1} (h : Keeps r x1) : KeepsP r (Machine.putExit v x1) := by
  generalize hf : @Machine.putExit = f; delta Machine.putExit at hf; subst hf; beta_reduce
  with_reducible repeat' first
    | assumption | apply Keeps.exitRootstock | apply KeepsP.ite | apply KeepsP.pair

theorem Keeps.putEventRemove {v x1} (h : Keeps r x1) : KeepsP r (Machine.putEventRemove v x1) := by
  generalize hf : @Machine.putEventRemove = f; delta Machine.putEventRemove at hf; subst hf; beta_reduce
  with_reducible repeat' first
    | assumption | (fail_if_no_progress apply Keeps.upd) | apply KeepsP.keeps | split
    | refine KeepsP.of_eq ?_ (by assumption) | apply KeepsP.pair

/-! ### Attest -/

theorem Keeps.signPair {r : State} {s : State} {message : Bytes} (h : Keeps r s) :
    KeepsP r (State.signPair s message) := by
  generalize hf : @State.signPair = f; delta State.signPair at hf; subst hf; beta_reduce
  repeat' (first | with_reducible assumption  | with_reducible apply Keeps.freeBytes | with_reducible apply Keeps.ite | with_reducible apply KeepsP.ite | fail_if_no_progress with_reducible apply Keeps.upd | with_reducible apply KeepsOut.next | exact trivial | with_reducible apply KeepsDid.done | with_reducible apply KeepsDid.raise | with_reducible apply KeepsDid.stall | (with_reducible refine Keeps.foldl ?_ ?_ _; rotate_left; intros; beta_reduce) | (with_reducible refine KeepsP.foldl ?_ ?_ _; rotate_left; intros; beta_reduce) | with_reducible apply KeepsP.keeps | (extract_lets +onlyGivenNames -underBinder x; first | (refine Keeps.cut (r := r) (s := x) ?_ ?_; rotate_left; clear_value x; revert x; intro _ _; rotate_left; dsimp -zeta -iota -proj only [x]; clear x) | (refine KeepsP.cut (r := r) (p := x) ?_ ?_; rotate_left; clear_value x; revert x; intro _ _; rotate_left; dsimp -zeta -iota -proj only [x]; clear x) | clear_value x) | split | exact KeepsP.keeps (p := (_, _)) (by assumption) | (refine KeepsP.of_eq ?_ (by assumption)) | dsimp +zetaDelta -zeta -iota -proj only | with_reducible apply KeepsP.pair)

theorem Keeps.takeToken {s t} (h : Keeps r s) : Keeps r (State.takeToken s t) := by
  generalize hf : @State.takeToken = f; delta State.takeToken at hf; subst hf; beta_reduce
  with_reducible repeat' first
    | assumption | apply Keeps.ite | (fail_if_no_progress apply Keeps.upd)
    | (extract_lets +onlyGivenNames -underBinder x; clear_value x; revert x; intro _)

theorem Keeps.bootReport {r : State} {s : State} (h : Keeps r s) :
    Keeps r (State.bootReport s) := by
  generalize hf : @State.bootReport = f; delta State.bootReport at hf; subst hf; beta_reduce
  repeat' (first | with_reducible assumption  | with_reducible apply Keeps.signPair | with_reducible apply Keeps.hostWriteVia | with_reducible apply Keeps.ite | with_reducible apply KeepsP.ite | fail_if_no_progress with_reducible apply Keeps.upd | with_reducible apply KeepsOut.next | exact trivial | with_reducible apply KeepsDid.done | with_reducible apply KeepsDid.raise | with_reducible apply KeepsDid.stall | (with_reducible refine Keeps.foldl ?_ ?_ _; rotate_left; intros; beta_reduce) | (with_reducible refine KeepsP.foldl ?_ ?_ _; rotate_left; intros; beta_reduce) | with_reducible apply KeepsP.keeps | (extract_lets +onlyGivenNames -underBinder x; first | (refine Keeps.cut (r := r) (s := x) ?_ ?_; rotate_left; clear_value x; revert x; intro _ _; rotate_left; dsimp -zeta -iota -proj only [x]; clear x) | (refine KeepsP.cut (r := r) (p := x) ?_ ?_; rotate_left; clear_value x; revert x; intro _ _; rotate_left; dsimp -zeta -iota -proj only [x]; clear x) | clear_value x) | split | exact KeepsP.keeps (p := (_, _)) (by assumption) | (refine KeepsP.of_eq ?_ (by assumption)) | dsimp +zetaDelta -zeta -iota -proj only | with_reducible apply KeepsP.pair)

/-! ### Boot -/

theorem Keeps.startLoad {r : State} {s : State} {port : Nat} (h : Keeps r s) :
    Keeps r (State.startLoad s port) := by
  generalize hf : @State.startLoad = f; delta State.startLoad at hf; subst hf; beta_reduce
  repeat' (first | with_reducible assumption  | with_reducible apply Keeps.send | with_reducible apply Keeps.ite | with_reducible apply KeepsP.ite | fail_if_no_progress with_reducible apply Keeps.upd | with_reducible apply KeepsOut.next | exact trivial | with_reducible apply KeepsDid.done | with_reducible apply KeepsDid.raise | with_reducible apply KeepsDid.stall | (with_reducible refine Keeps.foldl ?_ ?_ _; rotate_left; intros; beta_reduce) | (with_reducible refine KeepsP.foldl ?_ ?_ _; rotate_left; intros; beta_reduce) | with_reducible apply KeepsP.keeps | (extract_lets +onlyGivenNames -underBinder x; first | (refine Keeps.cut (r := r) (s := x) ?_ ?_; rotate_left; clear_value x; revert x; intro _ _; rotate_left; dsimp -zeta -iota -proj only [x]; clear x) | (refine KeepsP.cut (r := r) (p := x) ?_ ?_; rotate_left; clear_value x; revert x; intro _ _; rotate_left; dsimp -zeta -iota -proj only [x]; clear x) | clear_value x) | split | exact KeepsP.keeps (p := (_, _)) (by assumption) | (refine KeepsP.of_eq ?_ (by assumption)) | dsimp +zetaDelta -zeta -iota -proj only | with_reducible apply KeepsP.pair)

theorem Keeps.bootGo {s port value} (h : Keeps r s) : Keeps r (State.bootGo s port value) := by
  generalize hf : @State.bootGo = f; delta State.bootGo at hf; subst hf; beta_reduce
  with_reducible repeat' first
    | assumption | apply Keeps.startLoad | apply Keeps.ite | (fail_if_no_progress apply Keeps.upd)

theorem Keeps.judgeToken {r : State} {s : State} (h : Keeps r s) :
    Keeps r (State.judgeToken s) := by
  generalize hf : @State.judgeToken = f; delta State.judgeToken at hf; subst hf; beta_reduce
  with_reducible repeat' first
    | assumption | apply Keeps.takeToken | apply Keeps.ite | (fail_if_no_progress apply Keeps.upd) | split
    | refine KeepsP.of_eq ?_ (by assumption)

theorem Keeps.acceptImage {s img} (h : Keeps r s) : Keeps r (State.acceptImage s img) := by
  generalize hf : @State.acceptImage = f; delta State.acceptImage at hf; subst hf; beta_reduce
  with_reducible repeat' first
    | assumption | (fail_if_no_progress apply Keeps.upd)

theorem Keeps.rejectImage {s code} (h : Keeps r s) : Keeps r (State.rejectImage s code) := by
  generalize hf : @State.rejectImage = f; delta State.rejectImage at hf; subst hf; beta_reduce
  with_reducible repeat' first
    | assumption | apply Keeps.bootReport | apply Keeps.rootstockCause | (fail_if_no_progress apply Keeps.upd)
    | (extract_lets +onlyGivenNames -underBinder x; first | (refine Keeps.cut (s := x) (r := r) ?_ ?_; rotate_left; clear_value x; revert x; intro _ _; rotate_left; dsimp -zeta -iota -proj only [x]; clear x) | (clear_value x; revert x; intro _))

theorem Keeps.bringUp {s failed} (h : Keeps r s) : Keeps r (State.bringUp s failed) := by
  generalize hf : @State.bringUp = f; delta State.bringUp at hf; subst hf; beta_reduce
  with_reducible repeat' first
    | assumption | apply Keeps.forceDom | apply Keeps.stackReached | apply Keeps.ite
    | (refine Keeps.foldl ?_ ?_ _; rotate_left; intros; beta_reduce)
    | (extract_lets +onlyGivenNames -underBinder x; first | (refine Keeps.cut (s := x) (r := r) ?_ ?_; rotate_left; clear_value x; revert x; intro _ _; rotate_left; dsimp -zeta -iota -proj only [x]; clear x) | (clear_value x; revert x; intro _))
    | split | exact KeepsP.keeps (p := (_, _)) (by assumption) | refine KeepsP.of_eq ?_ (by assumption)

theorem Keeps.putDebugDisable {r s : State} {v : BitVec 32} (h : Keeps r s) : KeepsP r (putDebugDisable v s) := by
  unfold Machine.putDebugDisable
  split
  · refine KeepsP.pair (Keeps.updFuses h ?_)
    exact ⟨rfl, Nat.le_refl _, fun _ => rfl, fun _ => Nat.min_le_right _ _⟩
  · exact ⟨h⟩

theorem Keeps.putReportRequest {nonce x1} (h : Keeps r x1) : KeepsP r (Machine.putReportRequest nonce x1) := by
  generalize hf : @Machine.putReportRequest = f; delta Machine.putReportRequest at hf; subst hf; beta_reduce
  with_reducible repeat' first
    | assumption | apply KeepsP.ite | (fail_if_no_progress apply Keeps.upd) | apply KeepsP.pair

/-! ### EngineOps -/

theorem Keeps.engineReport {s c cause sub value} (h : Keeps r s) :
    Keeps r (State.engineReport s c cause sub value) := by
  generalize hf : @State.engineReport = f; delta State.engineReport at hf; subst hf; beta_reduce
  with_reducible repeat' first
    | assumption | apply Keeps.cause | apply Keeps.modEngine | apply Keeps.lanSend | (fail_if_no_progress apply Keeps.upd)
    | (extract_lets +onlyGivenNames -underBinder x; clear_value x; revert x; intro _) | split
    | refine KeepsP.of_eq ?_ (by assumption)

theorem Keeps.killOn {s c code} (h : Keeps r s) : Keeps r (State.killOn s c code) := by
  generalize hf : @State.killOn = f; delta State.killOn at hf; subst hf; beta_reduce
  with_reducible repeat' first
    | assumption | apply Keeps.failCmd | (fail_if_no_progress apply Keeps.upd) | split
    | refine KeepsP.of_eq ?_ (by assumption)

theorem Keeps.lateFrom {s c} (h : Keeps r s) : Keeps r (State.lateFrom s c) := by
  generalize hf : @State.lateFrom = f; delta State.lateFrom at hf; subst hf; beta_reduce
  with_reducible repeat' first
    | assumption | apply Keeps.modEngine
    | apply Keeps.ite | (fail_if_no_progress apply Keeps.upd)
    | (extract_lets +onlyGivenNames -underBinder x; first | (refine Keeps.cut (s := x) (r := r) ?_ ?_; rotate_left; clear_value x; revert x; intro _ _; rotate_left; dsimp -zeta -iota -proj only [x]; clear x) | (clear_value x; revert x; intro _))
    | split | exact KeepsP.keeps (p := (_, _)) (by assumption) | refine KeepsP.of_eq ?_ (by assumption)

theorem Keeps.lateDone {s c} (h : Keeps r s) : Keeps r (State.lateDone s c) := by
  generalize hf : @State.lateDone = f; delta State.lateDone at hf; subst hf; beta_reduce
  with_reducible repeat' first
    | assumption | apply Keeps.modEngine
    | apply Keeps.ite | (fail_if_no_progress apply Keeps.upd)
    | (extract_lets +onlyGivenNames -underBinder x; first | (refine Keeps.cut (s := x) (r := r) ?_ ?_; rotate_left; clear_value x; revert x; intro _ _; rotate_left; dsimp -zeta -iota -proj only [x]; clear x) | (clear_value x; revert x; intro _))
    | split | exact KeepsP.keeps (p := (_, _)) (by assumption) | refine KeepsP.of_eq ?_ (by assumption)

theorem Keeps.readMx {s core off} (h : Keeps r s) : KeepsP r (State.readMx s core off) := by
  generalize hf : @State.readMx = f; delta State.readMx at hf; subst hf; beta_reduce
  with_reducible repeat' first
    | assumption | apply Keeps.freeWord | apply Keeps.ite | apply KeepsP.ite | (fail_if_no_progress apply Keeps.upd)
    | apply KeepsP.keeps | (extract_lets +onlyGivenNames -underBinder x; clear_value x; revert x; intro _) | split
    | refine KeepsP.of_eq ?_ (by assumption) | apply KeepsP.pair

theorem Keeps.tileGo {r s t : State} {core : Nat} {v : Word} (h : Keeps r s) (e : s.tileGo core v = .done t) :
    Keeps r t := by
  unfold State.tileGo at e
  dsimp only at e
  split at e
  · cases e
  · split at e <;> cases e
    · exact Keeps.engineReport h
    · exact Keeps.setEngine h

theorem Keeps.writeMx {r s t : State} {core off : Nat} {v : Word} (h : Keeps r s) (e : s.writeMx core off v = .done t) :
    Keeps r t := by
  unfold State.writeMx at e
  split at e
  · cases e
    exact Keeps.modCore h
  · split at e
    · exact Keeps.tileGo h e
    all_goals first | (cases e; exact h) | cases e

theorem Keeps.engineRead {s c a n} (h : Keeps r s) : KeepsP r (State.engineRead s c a n) := by
  generalize hf : @State.engineRead = f; delta State.engineRead at hf; subst hf; beta_reduce
  with_reducible repeat' first
    | assumption | apply Keeps.physRead | (fail_if_no_progress apply Keeps.upd) | apply KeepsP.keeps
    | (extract_lets +onlyGivenNames -underBinder x; clear_value x; revert x; intro _) | split
    | refine KeepsP.of_eq ?_ (by assumption) | apply KeepsP.pair

theorem Keeps.engineRows {s c r'} (h : Keeps r s) : KeepsP r (State.engineRows s c r') := by
  generalize hf : @State.engineRows = f; delta State.engineRows at hf; subst hf; beta_reduce
  have hc0 := @Keeps.engineRead r; obtain ⟨g, hg⟩ : ∃ g, g = @State.engineRead := ⟨_, rfl⟩; rw [← hg] at hc0 ⊢; clear hg
  with_reducible repeat' first
    | assumption | apply hc0 | (fail_if_no_progress apply Keeps.upd)
    | (refine KeepsP.foldl ?_ ?_ _; rotate_left; intros; beta_reduce) | apply KeepsP.keeps
    | (extract_lets +onlyGivenNames -underBinder x; clear_value x; revert x; intro _) | split
    | exact KeepsP.keeps (p := (_, _)) (by assumption) | refine KeepsP.of_eq ?_ (by assumption) | apply KeepsP.pair

theorem Keeps.takeFeed {s c q rows rowBytes} (h : Keeps r s) : Keeps r (State.takeFeed s c q rows rowBytes) := by
  generalize hf : @State.takeFeed = f; delta State.takeFeed at hf; subst hf; beta_reduce
  with_reducible repeat' first
    | assumption | apply Keeps.modCore | apply Keeps.setEngine | (fail_if_no_progress apply Keeps.upd)
    | (refine Keeps.foldl ?_ ?_ _; rotate_left; intros; beta_reduce)
    | (extract_lets +onlyGivenNames -underBinder x; first | (refine Keeps.cut (s := x) (r := r) ?_ ?_; rotate_left; clear_value x; revert x; intro _ _; rotate_left; dsimp -zeta -iota -proj only [x]; clear x) | (clear_value x; revert x; intro _))

theorem Keeps.dropHeld {s c} (h : Keeps r s) : Keeps r (State.dropHeld s c) := by
  generalize hf : @State.dropHeld = f; delta State.dropHeld at hf; subst hf; beta_reduce
  with_reducible repeat' first
    | assumption | apply Keeps.modEngine | apply Keeps.ite | (fail_if_no_progress apply Keeps.upd)

theorem Keeps.starve {s c t} (h : Keeps r s) : Keeps r (State.starve s c t) := by
  generalize hf : @State.starve = f; delta State.starve at hf; subst hf; beta_reduce
  with_reducible repeat' first
    | assumption | apply Keeps.engineReport | apply Keeps.ite

/-! ### CoreMem -/

theorem Keeps.farAccess {s core store va len data dest post} (h : Keeps r s) :
    KeepsDid r (State.farAccess s core store va len data dest post) := by
  generalize hf : @State.farAccess = f; delta State.farAccess at hf; subst hf; beta_reduce
  have hc0 := @Keeps.translate r; obtain ⟨g, hg⟩ : ∃ g, g = @State.translate := ⟨_, rfl⟩; rw [← hg] at hc0 ⊢; clear hg
  have hc1 := @Keeps.startAccess r; obtain ⟨g, hg⟩ : ∃ g, g = @State.startAccess := ⟨_, rfl⟩; rw [← hg] at hc1 ⊢; clear hg
  with_reducible repeat' first
    | assumption | apply Keeps.forgetSteps | apply Keeps.raise | apply hc0 | apply hc1 | apply Keeps.modCore | apply Keeps.faultFor | apply Keeps.failCmd
    | apply KeepsDid.done | apply KeepsDid.raise | apply KeepsDid.stall | apply Keeps.ite | apply KeepsP.ite
    | (fail_if_no_progress apply Keeps.upd) | apply KeepsP.keeps
    | (extract_lets +onlyGivenNames -underBinder x; first | (refine Keeps.cut (s := x) (r := r) ?_ ?_; rotate_left; clear_value x; revert x; intro _ _; rotate_left; dsimp -zeta -iota -proj only [x]; clear x) | (refine KeepsP.cut (p := x) (r := r) ?_ ?_; rotate_left; clear_value x; revert x; intro _ _; rotate_left; dsimp -zeta -iota -proj only [x]; clear x) | (clear_value x; revert x; intro _))
    | split | exact KeepsP.keeps (p := (_, _)) (by assumption) | refine KeepsP.of_eq ?_ (by assumption)
    | dsimp +zetaDelta -zeta -iota -proj only | apply KeepsP.pair

theorem Keeps.busRaise {a s sub} (h : Keeps r s) : KeepsDid r (Machine.busRaise a s sub) := by
  generalize hf : @Machine.busRaise = f; delta Machine.busRaise at hf; subst hf; beta_reduce
  with_reducible repeat' first
    | assumption | apply Keeps.raise | apply KeepsDid.raise

theorem Keeps.loadOwn {s core a off n dest post} (h : Keeps r s) :
    KeepsDid r (State.loadOwn s core a off n dest post) := by
  generalize hf : @State.loadOwn = f; delta State.loadOwn at hf; subst hf; beta_reduce
  with_reducible repeat' first
    | assumption | apply Keeps.land | apply Keeps.physRead | apply Keeps.modCore | apply Keeps.busRaise | apply KeepsDid.done
    | (fail_if_no_progress apply Keeps.upd)
    | (extract_lets +onlyGivenNames -underBinder x; clear_value x; revert x; intro _) | split
    | refine KeepsP.of_eq ?_ (by assumption)

theorem Keeps.loadControl {s core a off n scalar dest post} (h : Keeps r s) :
    KeepsDid r (State.loadControl s core a off n scalar dest post) := by
  generalize hf : @State.loadControl = f; delta State.loadControl at hf; subst hf; beta_reduce
  with_reducible repeat' first
    | assumption | apply Keeps.land | apply Keeps.readMx | apply Keeps.modCore | apply Keeps.busRaise | apply KeepsDid.done
    | apply Keeps.ite | (fail_if_no_progress apply Keeps.upd) | split | refine KeepsP.of_eq ?_ (by assumption)

theorem Keeps.storeOwn {s core a off d post} (h : Keeps r s) : KeepsDid r (State.storeOwn s core a off d post) := by
  generalize hf : @State.storeOwn = f; delta State.storeOwn at hf; subst hf; beta_reduce
  with_reducible repeat' first
    | assumption | apply Keeps.physWrite | apply Keeps.modCore | apply Keeps.busRaise
    | apply KeepsDid.done | (fail_if_no_progress apply Keeps.upd)
    | (extract_lets +onlyGivenNames -underBinder x; clear_value x; revert x; intro _) | split
    | refine KeepsP.of_eq ?_ (by assumption)

theorem Keeps.storeControl {s core a off d scalar post} (h : Keeps r s) :
    KeepsDid r (State.storeControl s core a off d scalar post) := by
  generalize hf : @State.storeControl = f; delta State.storeControl at hf; subst hf; beta_reduce
  with_reducible repeat' first
    | assumption | refine Keeps.writeMx ?_ (by assumption) | apply Keeps.modCore | apply Keeps.busRaise
    | apply KeepsDid.done | apply KeepsDid.stall | apply Keeps.ite | (fail_if_no_progress apply Keeps.upd) | split
    | refine KeepsP.of_eq ?_ (by assumption)

theorem Keeps.misaligned {core a al s} (h : Keeps r s) : KeepsDid r (Machine.misaligned core a al s) := by
  generalize hf : @Machine.misaligned = f; delta Machine.misaligned at hf; subst hf; beta_reduce
  with_reducible repeat' first
    | assumption | apply Keeps.raise | apply Keeps.busRaise | apply KeepsDid.raise | split

theorem Keeps.loadAt {s core a n al scalar dest post} (h : Keeps r s) :
    KeepsDid r (State.loadAt s core a n al scalar dest post) := by
  generalize hf : @State.loadAt = f; delta State.loadAt at hf; subst hf; beta_reduce
  with_reducible repeat' first
    | assumption | apply Keeps.misaligned | apply Keeps.loadOwn | apply Keeps.loadControl | apply Keeps.farAccess | apply Keeps.busRaise
    | apply KeepsDid.raise | apply Keeps.ite | (fail_if_no_progress apply Keeps.upd) | split
    | refine KeepsP.of_eq ?_ (by assumption)

theorem Keeps.storeAt {s core a d al scalar post} (h : Keeps r s) :
    KeepsDid r (State.storeAt s core a d al scalar post) := by
  generalize hf : @State.storeAt = f; delta State.storeAt at hf; subst hf; beta_reduce
  with_reducible repeat' first
    | assumption | apply Keeps.misaligned | apply Keeps.storeOwn | apply Keeps.storeControl | apply Keeps.farAccess | apply Keeps.busRaise
    | apply KeepsDid.raise | apply Keeps.ite | (fail_if_no_progress apply Keeps.upd) | split
    | refine KeepsP.of_eq ?_ (by assumption)

theorem Keeps.loadScalar {i c size signed rd rs1 imm s} (h : Keeps r s) :
    KeepsOut r (Machine.loadScalar i c size signed rd rs1 imm s) := by
  generalize hf : @Machine.loadScalar = f; delta Machine.loadScalar at hf; subst hf; beta_reduce
  with_reducible repeat' first
    | assumption | (refine Keeps.issue ?_ ?_; rotate_left; intros; beta_reduce) | apply Keeps.loadAt
    | apply KeepsOut.next | (extract_lets +onlyGivenNames -underBinder x; clear_value x; revert x; intro _)

theorem Keeps.amoAt {s core a rd f} (h : Keeps r s) : KeepsDid r (State.amoAt s core a rd f) := by
  generalize hf : @State.amoAt = f; delta State.amoAt at hf; subst hf; beta_reduce
  with_reducible repeat' first
    | assumption | apply Keeps.activity | apply Keeps.amoSram | apply Keeps.busRaise | apply Keeps.modCore
    | apply KeepsDid.done | apply Keeps.ite | (fail_if_no_progress apply Keeps.upd)
    | (extract_lets +onlyGivenNames -underBinder x; first | (refine Keeps.cut (s := x) (r := r) ?_ ?_; rotate_left; clear_value x; revert x; intro _ _; rotate_left; dsimp -zeta -iota -proj only [x]; clear x) | (clear_value x; revert x; intro _))
    | split | exact KeepsP.keeps (p := (_, _)) (by assumption) | refine KeepsP.of_eq ?_ (by assumption)

theorem Keeps.amoOp {i c rd rs1 rs2 f s} (h : Keeps r s) : KeepsOut r (Machine.amoOp i c rd rs1 rs2 f s) := by
  generalize hf : @Machine.amoOp = f; delta Machine.amoOp at hf; subst hf; beta_reduce
  with_reducible repeat' first
    | assumption | apply Keeps.raise | (refine Keeps.issue ?_ ?_; rotate_left; intros; beta_reduce) | apply Keeps.amoAt
    | apply KeepsOut.next | apply KeepsDid.done | apply KeepsDid.raise | apply KeepsDid.stall | apply Keeps.ite
    | (fail_if_no_progress apply Keeps.upd) | apply KeepsP.keeps
    | (extract_lets +onlyGivenNames -underBinder x; first | (refine Keeps.cut (s := x) (r := r) ?_ ?_; rotate_left; clear_value x; revert x; intro _ _; rotate_left; dsimp -zeta -iota -proj only [x]; clear x) | (refine KeepsP.cut (p := x) (r := r) ?_ ?_; rotate_left; clear_value x; revert x; intro _ _; rotate_left; dsimp -zeta -iota -proj only [x]; clear x) | (clear_value x; revert x; intro _))
    | split | exact KeepsP.keeps (p := (_, _)) (by assumption) | refine KeepsP.of_eq ?_ (by assumption)
    | dsimp +zetaDelta -zeta -iota -proj only | apply KeepsP.pair

end Sys2Proof.Machine
end

