-- ==== Sys2Proof/Laws/KeepsModule.lean ====
section
/-! SUPPORT. The operations of boot, security, the dictionary and time keep what `Keeps` says. -/

set_option linter.all false

namespace Sys2Proof.Machine

variable {r : State}

/-! ### CoreNet -/

theorem Keeps.releaseBarrier {s c m} (h : Keeps r s) : Keeps r (State.releaseBarrier s c m) := by
  generalize hf : @State.releaseBarrier = f; delta State.releaseBarrier at hf; subst hf; beta_reduce
  with_reducible repeat' first
    | assumption | apply Keeps.modCore | apply Keeps.ite | (fail_if_no_progress apply Keeps.upd)
    | (refine Keeps.foldl ?_ ?_ _; rotate_left; intros; beta_reduce)

theorem Keeps.afterHalt {s c} (h : Keeps r s) : Keeps r (State.afterHalt s c) := by
  generalize hf : @State.afterHalt = f; delta State.afterHalt at hf; subst hf; beta_reduce
  with_reducible repeat' first
    | assumption | apply Keeps.dropHeld | apply Keeps.starve | apply Keeps.ite | (fail_if_no_progress apply Keeps.upd)
    | (extract_lets +onlyGivenNames -underBinder x; first | (refine Keeps.cut (s := x) (r := r) ?_ ?_; rotate_left; clear_value x; revert x; intro _ _; rotate_left; dsimp -zeta -iota -proj only [x]; clear x) | (clear_value x; revert x; intro _))
    | split | refine KeepsP.of_eq ?_ (by assumption)

theorem Keeps.haltBight {s b} (h : Keeps r s) : Keeps r (State.haltBight s b) := by
  generalize hf : @State.haltBight = f; delta State.haltBight at hf; subst hf; beta_reduce
  with_reducible repeat' first
    | assumption | apply Keeps.modCore | apply Keeps.ite | (fail_if_no_progress apply Keeps.upd)
    | (refine Keeps.foldl ?_ ?_ _; rotate_left; intros; beta_reduce)

theorem Keeps.faultEnds {s b cause} (h : Keeps r s) : Keeps r (State.faultEnds s b cause) := by
  generalize hf : @State.faultEnds = f; delta State.faultEnds at hf; subst hf; beta_reduce
  with_reducible repeat' first
    | assumption | apply Keeps.cause | apply Keeps.failCmd | apply Keeps.haltBight
    | apply Keeps.ite | (fail_if_no_progress apply Keeps.upd)
    | (refine Keeps.foldl ?_ ?_ _; rotate_left; intros; beta_reduce)
    | (refine KeepsP.foldl ?_ ?_ _; rotate_left; intros; beta_reduce)
    | apply KeepsP.keeps
    | (extract_lets +onlyGivenNames -underBinder x; first | (refine Keeps.cut (s := x) (r := r) ?_ ?_; rotate_left; clear_value x; revert x; intro _ _; rotate_left; dsimp -zeta -iota -proj only [x]; clear x) | (clear_value x; revert x; intro _))
    | split | exact KeepsP.keeps (p := (_, _)) (by assumption) | refine KeepsP.of_eq ?_ (by assumption)

theorem Keeps.faultArrives {s m} (h : Keeps r s) : Keeps r (State.faultArrives s m) := by
  generalize hf : @State.faultArrives = f; delta State.faultArrives at hf; subst hf; beta_reduce
  with_reducible repeat' first
    | assumption | apply Keeps.cause | apply Keeps.logFault | apply Keeps.faultEnds
    | apply Keeps.ite | (fail_if_no_progress apply Keeps.upd)
    | (refine Keeps.foldl ?_ ?_ _; rotate_left; intros; beta_reduce)
    | (refine KeepsP.foldl ?_ ?_ _; rotate_left; intros; beta_reduce)
    | apply KeepsP.keeps
    | (extract_lets +onlyGivenNames -underBinder x; first | (refine Keeps.cut (s := x) (r := r) ?_ ?_; rotate_left; clear_value x; revert x; intro _ _; rotate_left; dsimp -zeta -iota -proj only [x]; clear x) | (clear_value x; revert x; intro _))
    | split | exact KeepsP.keeps (p := (_, _)) (by assumption) | refine KeepsP.of_eq ?_ (by assumption)

theorem Keeps.deadLetterArrives {s m} (h : Keeps r s) : Keeps r (State.deadLetterArrives s m) := by
  generalize hf : @State.deadLetterArrives = f; delta State.deadLetterArrives at hf; subst hf; beta_reduce
  with_reducible repeat' first
    | assumption | apply Keeps.logFault | apply Keeps.breakErrorFence | apply Keeps.failCmd | apply Keeps.haltBight
    | apply Keeps.ite | (fail_if_no_progress apply Keeps.upd)
    | (extract_lets +onlyGivenNames -underBinder x; first | (refine Keeps.cut (s := x) (r := r) ?_ ?_; rotate_left; clear_value x; revert x; intro _ _; rotate_left; dsimp -zeta -iota -proj only [x]; clear x) | (clear_value x; revert x; intro _))
    | split | refine KeepsP.of_eq ?_ (by assumption)

/-! ### Security -/

theorem Keeps.measureResult {s b result} (h : Keeps r s) : Keeps r (State.measureResult s b result) := by
  generalize hf : @State.measureResult = f; delta State.measureResult at hf; subst hf; beta_reduce
  with_reducible repeat' first
    | assumption | (fail_if_no_progress apply Keeps.upd)

theorem Keeps.putMeasure {r' x1} (h : Keeps r x1) : KeepsP r (Machine.putMeasure r' x1) := by
  generalize hf : @Machine.putMeasure = f; delta Machine.putMeasure at hf; subst hf; beta_reduce
  with_reducible repeat' first
    | assumption | apply Keeps.measureResult | apply Keeps.ite | apply KeepsP.ite
    | (fail_if_no_progress apply Keeps.upd) | apply KeepsP.keeps
    | (extract_lets +onlyGivenNames -underBinder x; first | (refine Keeps.cut (s := x) (r := r) ?_ ?_; rotate_left; clear_value x; revert x; intro _ _; rotate_left; dsimp -zeta -iota -proj only [x]; clear x) | (clear_value x; revert x; intro _))
    | apply KeepsP.pair

theorem Keeps.measureBytes {w x1 x2 x3 x4} (h : Keeps r x2) : KeepsP r (State.measureBytes w x1 x2 x3 x4) := by
  induction x1 generalizing x2 x3 x4 with
  | zero =>
    unfold State.measureBytes
    with_reducible repeat' first
      | assumption | apply Keeps.translate | apply Keeps.readDest | (fail_if_no_progress apply Keeps.upd) | split
      | refine KeepsP.of_eq ?_ (by assumption) | apply KeepsP.pair
  | succ n ih =>
    unfold State.measureBytes
    with_reducible repeat' first
      | assumption | apply ih | apply Keeps.translate | apply Keeps.readDest | (fail_if_no_progress apply Keeps.upd)
      | split | refine KeepsP.of_eq ?_ (by assumption) | apply KeepsP.pair

theorem Keeps.measureProgram {s b} (h : Keeps r s) : KeepsP r (State.measureProgram s b) := by
  generalize hf : @State.measureProgram = f; delta State.measureProgram at hf; subst hf; beta_reduce
  with_reducible repeat' first
    | assumption | apply Keeps.readImage | (fail_if_no_progress apply Keeps.upd) | apply KeepsP.keeps
    | (extract_lets +onlyGivenNames -underBinder x; clear_value x; revert x; intro _) | split
    | refine KeepsP.of_eq ?_ (by assumption) | apply KeepsP.pair

theorem Keeps.putKey {slot g key x1} (h : Keeps r x1) : KeepsP r (Machine.putKey slot g key x1) := by
  generalize hf : @Machine.putKey = f; delta Machine.putKey at hf; subst hf; beta_reduce
  with_reducible repeat' first
    | assumption | apply Keeps.setKeySlot | apply Keeps.ite | apply KeepsP.ite | (fail_if_no_progress apply Keeps.upd)
    | apply KeepsP.keeps | (extract_lets +onlyGivenNames -underBinder x; clear_value x; revert x; intro _)
    | apply KeepsP.pair

theorem Keeps.slotWrite {r s : State} {via : Via} {slot : Nat} {act : Act} (h : Keeps r s)
    (ha : ∀ s, Keeps r s → KeepsP r (act s)) : Keeps r (s.slotWrite via slot act) := by
  refine Keeps.objWrite h fun s h => ?_
  split
  · exact ha s h
  · exact KeepsP.pair h

theorem Keeps.putKeyOwner {slot v x1} (h : Keeps r x1) : KeepsP r (Machine.putKeyOwner slot v x1) := by
  generalize hf : @Machine.putKeyOwner = f; delta Machine.putKeyOwner at hf; subst hf; beta_reduce
  with_reducible repeat' first
    | assumption | apply Keeps.setKeySlot | apply Keeps.ite | apply KeepsP.ite | (fail_if_no_progress apply Keeps.upd)
    | apply KeepsP.keeps | (extract_lets +onlyGivenNames -underBinder x; clear_value x; revert x; intro _)
    | apply KeepsP.pair

theorem Keeps.putZeroize {slot v x1} (h : Keeps r x1) : KeepsP r (Machine.putZeroize slot v x1) := by
  generalize hf : @Machine.putZeroize = f; delta Machine.putZeroize at hf; subst hf; beta_reduce
  with_reducible repeat' first
    | assumption | apply Keeps.setKeySlot | apply Keeps.ite | apply KeepsP.ite | (fail_if_no_progress apply Keeps.upd)
    | apply KeepsP.keeps | (extract_lets +onlyGivenNames -underBinder x; clear_value x; revert x; intro _)
    | apply KeepsP.pair

theorem Keeps.eraseKey {r : State} {s : State} {slot : Nat} {g : Bool} (h : Keeps r s) :
    Keeps r (State.eraseKey s slot g) := by
  generalize hf : @State.eraseKey = f; delta State.eraseKey at hf; subst hf; beta_reduce
  repeat' (first | with_reducible assumption  | with_reducible apply Keeps.modKeySlot | with_reducible apply Keeps.ungate | with_reducible apply Keeps.arriveReq | with_reducible apply Keeps.ite | with_reducible apply KeepsP.ite | fail_if_no_progress with_reducible apply Keeps.upd | with_reducible apply KeepsOut.next | exact trivial | with_reducible apply KeepsDid.done | with_reducible apply KeepsDid.raise | with_reducible apply KeepsDid.stall | (with_reducible refine Keeps.foldl ?_ ?_ _; rotate_left; intros; beta_reduce) | (with_reducible refine KeepsP.foldl ?_ ?_ _; rotate_left; intros; beta_reduce) | with_reducible apply KeepsP.keeps | (extract_lets +onlyGivenNames -underBinder x; first | (refine Keeps.cut (r := r) (s := x) ?_ ?_; rotate_left; clear_value x; revert x; intro _ _; rotate_left; dsimp -zeta -iota -proj only [x]; clear x) | (refine KeepsP.cut (r := r) (p := x) ?_ ?_; rotate_left; clear_value x; revert x; intro _ _; rotate_left; dsimp -zeta -iota -proj only [x]; clear x) | clear_value x) | split | exact KeepsP.keeps (p := (_, _)) (by assumption) | (refine KeepsP.of_eq ?_ (by assumption)) | dsimp +zetaDelta -zeta -iota -proj only | with_reducible apply KeepsP.pair)

theorem Keeps.eraseOwned {s n} (h : Keeps r s) : Keeps r (State.eraseOwned s n) := by
  generalize hf : @State.eraseOwned = f; delta State.eraseOwned at hf; subst hf; beta_reduce
  with_reducible repeat' first
    | assumption | apply Keeps.ite | (fail_if_no_progress apply Keeps.upd)
    | (extract_lets +onlyGivenNames -underBinder x; first | (refine Keeps.cut (s := x) (r := r) ?_ ?_; rotate_left; clear_value x; revert x; intro _ _; rotate_left; dsimp -zeta -iota -proj only [x]; clear x) | (clear_value x; revert x; intro _))
    | split | refine KeepsP.of_eq ?_ (by assumption)

theorem Keeps.endRotation {s slot} (h : Keeps r s) : Keeps r (State.endRotation s slot) := by
  generalize hf : @State.endRotation = f; delta State.endRotation at hf; subst hf; beta_reduce
  with_reducible repeat' first
    | assumption | apply Keeps.eraseKey | apply Keeps.cause | apply Keeps.modKeySlot
    | (fail_if_no_progress apply Keeps.upd)
    | (extract_lets +onlyGivenNames -underBinder x; first | (refine Keeps.cut (s := x) (r := r) ?_ ?_; rotate_left; clear_value x; revert x; intro _ _; rotate_left; dsimp -zeta -iota -proj only [x]; clear x) | (clear_value x; revert x; intro _))

theorem Keeps.putRotation {slot r' x1} (h : Keeps r x1) : KeepsP r (Machine.putRotation slot r' x1) := by
  generalize hf : @Machine.putRotation = f; delta Machine.putRotation at hf; subst hf; beta_reduce
  with_reducible repeat' first
    | assumption | apply Keeps.setKeySlot | apply Keeps.ite | apply KeepsP.ite | (fail_if_no_progress apply Keeps.upd)
    | apply KeepsP.keeps | (extract_lets +onlyGivenNames -underBinder x; clear_value x; revert x; intro _)
    | apply KeepsP.pair

theorem Keeps.moveWord {r : State} {s : State} {slot : Nat} {fn : Nat} {g : Bool} {a : Nat} (h : Keeps r s) :
    KeepsP r (State.moveWord s slot fn g a) := by
  generalize hf : @State.moveWord = f; delta State.moveWord at hf; subst hf; beta_reduce
  repeat' (first | with_reducible assumption  | with_reducible apply Keeps.forgetSteps | with_reducible apply Keeps.stepAccess | with_reducible apply Keeps.ite | with_reducible apply KeepsP.ite | fail_if_no_progress with_reducible apply Keeps.upd | with_reducible apply KeepsOut.next | exact trivial | with_reducible apply KeepsDid.done | with_reducible apply KeepsDid.raise | with_reducible apply KeepsDid.stall | (with_reducible refine Keeps.foldl ?_ ?_ _; rotate_left; intros; beta_reduce) | (with_reducible refine KeepsP.foldl ?_ ?_ _; rotate_left; intros; beta_reduce) | with_reducible apply KeepsP.keeps | (extract_lets +onlyGivenNames -underBinder x; first | (refine Keeps.cut (r := r) (s := x) ?_ ?_; rotate_left; clear_value x; revert x; intro _ _; rotate_left; dsimp -zeta -iota -proj only [x]; clear x) | (refine KeepsP.cut (r := r) (p := x) ?_ ?_; rotate_left; clear_value x; revert x; intro _ _; rotate_left; dsimp -zeta -iota -proj only [x]; clear x) | clear_value x) | split | exact KeepsP.keeps (p := (_, _)) (by assumption) | (refine KeepsP.of_eq ?_ (by assumption)) | dsimp +zetaDelta -zeta -iota -proj only | with_reducible apply KeepsP.pair)

theorem Keeps.moveWords {r : State} {slot : Nat} {fn : Nat} {g : Bool} {start : Nat} {x1 : Nat} {x2 : Nat} {x3 : State} (h : Keeps r x3) :
    KeepsP r (State.moveWords slot fn g start x1 x2 x3) := by
  induction x1 generalizing x3 x2 with
  | zero =>
    unfold State.moveWords
    repeat' (first | with_reducible assumption  | with_reducible apply Keeps.moveWord | with_reducible apply Keeps.ite | with_reducible apply KeepsP.ite | fail_if_no_progress with_reducible apply Keeps.upd | with_reducible apply KeepsOut.next | exact trivial | with_reducible apply KeepsDid.done | with_reducible apply KeepsDid.raise | with_reducible apply KeepsDid.stall | (with_reducible refine Keeps.foldl ?_ ?_ _; rotate_left; intros; beta_reduce) | (with_reducible refine KeepsP.foldl ?_ ?_ _; rotate_left; intros; beta_reduce) | with_reducible apply KeepsP.keeps | (extract_lets +onlyGivenNames -underBinder x; first | (refine Keeps.cut (r := r) (s := x) ?_ ?_; rotate_left; clear_value x; revert x; intro _ _; rotate_left; dsimp -zeta -iota -proj only [x]; clear x) | (refine KeepsP.cut (r := r) (p := x) ?_ ?_; rotate_left; clear_value x; revert x; intro _ _; rotate_left; dsimp -zeta -iota -proj only [x]; clear x) | clear_value x) | split | exact KeepsP.keeps (p := (_, _)) (by assumption) | (refine KeepsP.of_eq ?_ (by assumption)) | dsimp +zetaDelta -zeta -iota -proj only | with_reducible apply KeepsP.pair)
  | succ n ih =>
    unfold State.moveWords
    repeat' (first | with_reducible assumption  | with_reducible apply ih | with_reducible apply Keeps.moveWord | with_reducible apply Keeps.ite | with_reducible apply KeepsP.ite | fail_if_no_progress with_reducible apply Keeps.upd | with_reducible apply KeepsOut.next | exact trivial | with_reducible apply KeepsDid.done | with_reducible apply KeepsDid.raise | with_reducible apply KeepsDid.stall | (with_reducible refine Keeps.foldl ?_ ?_ _; rotate_left; intros; beta_reduce) | (with_reducible refine KeepsP.foldl ?_ ?_ _; rotate_left; intros; beta_reduce) | with_reducible apply KeepsP.keeps | (extract_lets +onlyGivenNames -underBinder x; first | (refine Keeps.cut (r := r) (s := x) ?_ ?_; rotate_left; clear_value x; revert x; intro _ _; rotate_left; dsimp -zeta -iota -proj only [x]; clear x) | (refine KeepsP.cut (r := r) (p := x) ?_ ?_; rotate_left; clear_value x; revert x; intro _ _; rotate_left; dsimp -zeta -iota -proj only [x]; clear x) | clear_value x) | split | exact KeepsP.keeps (p := (_, _)) (by assumption) | (refine KeepsP.of_eq ?_ (by assumption)) | dsimp +zetaDelta -zeta -iota -proj only | with_reducible apply KeepsP.pair)

theorem Keeps.endMove {r : State} {s : State} {slot : Nat} {m : Moving} {leaf : BitVec 128} (h : Keeps r s) :
    Keeps r (State.endMove s slot m leaf) := by
  generalize hf : @State.endMove = f; delta State.endMove at hf; subst hf; beta_reduce
  repeat' (first | with_reducible assumption  | with_reducible apply Keeps.forgetSteps | with_reducible apply Keeps.ownWrite | with_reducible apply Keeps.uncacheScope | with_reducible apply Keeps.modKeySlot | with_reducible apply Keeps.ite | with_reducible apply KeepsP.ite | fail_if_no_progress with_reducible apply Keeps.upd | with_reducible apply KeepsOut.next | exact trivial | with_reducible apply KeepsDid.done | with_reducible apply KeepsDid.raise | with_reducible apply KeepsDid.stall | (with_reducible refine Keeps.foldl ?_ ?_ _; rotate_left; intros; beta_reduce) | (with_reducible refine KeepsP.foldl ?_ ?_ _; rotate_left; intros; beta_reduce) | with_reducible apply KeepsP.keeps | (extract_lets +onlyGivenNames -underBinder x; first | (refine Keeps.cut (r := r) (s := x) ?_ ?_; rotate_left; clear_value x; revert x; intro _ _; rotate_left; dsimp -zeta -iota -proj only [x]; clear x) | (refine KeepsP.cut (r := r) (p := x) ?_ ?_; rotate_left; clear_value x; revert x; intro _ _; rotate_left; dsimp -zeta -iota -proj only [x]; clear x) | clear_value x) | split | exact KeepsP.keeps (p := (_, _)) (by assumption) | (refine KeepsP.of_eq ?_ (by assumption)) | dsimp +zetaDelta -zeta -iota -proj only | with_reducible apply KeepsP.pair)

theorem Keeps.moveOnward {r : State} {s : State} {slot : Nat} {m : Moving} (h : Keeps r s) :
    Keeps r (State.moveOnward s slot m) := by
  generalize hf : @State.moveOnward = f; delta State.moveOnward at hf; subst hf; beta_reduce
  repeat' (first | with_reducible assumption  | with_reducible apply Keeps.modKeySlot | with_reducible apply Keeps.moveWords | with_reducible apply Keeps.endMove | with_reducible apply Keeps.ite | with_reducible apply KeepsP.ite | fail_if_no_progress with_reducible apply Keeps.upd | with_reducible apply KeepsOut.next | exact trivial | with_reducible apply KeepsDid.done | with_reducible apply KeepsDid.raise | with_reducible apply KeepsDid.stall | (with_reducible refine Keeps.foldl ?_ ?_ _; rotate_left; intros; beta_reduce) | (with_reducible refine KeepsP.foldl ?_ ?_ _; rotate_left; intros; beta_reduce) | with_reducible apply KeepsP.keeps | (extract_lets +onlyGivenNames -underBinder x; first | (refine Keeps.cut (r := r) (s := x) ?_ ?_; rotate_left; clear_value x; revert x; intro _ _; rotate_left; dsimp -zeta -iota -proj only [x]; clear x) | (refine KeepsP.cut (r := r) (p := x) ?_ ?_; rotate_left; clear_value x; revert x; intro _ _; rotate_left; dsimp -zeta -iota -proj only [x]; clear x) | clear_value x) | split | exact KeepsP.keeps (p := (_, _)) (by assumption) | (refine KeepsP.of_eq ?_ (by assumption)) | dsimp +zetaDelta -zeta -iota -proj only | with_reducible apply KeepsP.pair)

theorem Keeps.closeWindowsOf {s fn abort} (h : Keeps r s) : Keeps r (State.closeWindowsOf s fn abort) := by
  generalize hf : @State.closeWindowsOf = f; delta State.closeWindowsOf at hf; subst hf; beta_reduce
  with_reducible repeat' first
    | assumption | apply Keeps.closeInbound | apply Keeps.ite
    | (refine Keeps.foldl ?_ ?_ _; rotate_left; intros; beta_reduce) | split
    | exact KeepsP.keeps (p := (_, _)) (by assumption) | refine KeepsP.of_eq ?_ (by assumption)

theorem Keeps.beginRemoval {s n abort} (h : Keeps r s) : Keeps r (State.beginRemoval s n abort) := by
  generalize hf : @State.beginRemoval = f; delta State.beginRemoval at hf; subst hf; beta_reduce
  with_reducible repeat' first
    | assumption | apply Keeps.modQueue | apply Keeps.modFn | apply Keeps.killQueue | apply Keeps.breakOwned
    | apply Keeps.slotsGone | apply Keeps.closeWindowsOf | apply Keeps.dropFnFaults | apply Keeps.invalidate
    | apply Keeps.removalStep | apply Keeps.eraseOwned | apply Keeps.ite | (fail_if_no_progress apply Keeps.upd)
    | (refine Keeps.foldl ?_ ?_ _; rotate_left; intros; beta_reduce)
    | (extract_lets +onlyGivenNames -underBinder x; first | (refine Keeps.cut (s := x) (r := r) ?_ ?_; rotate_left; clear_value x; revert x; intro _ _; rotate_left; dsimp -zeta -iota -proj only [x]; clear x) | (clear_value x; revert x; intro _))
    | split | exact KeepsP.keeps (p := (_, _)) (by assumption) | refine KeepsP.of_eq ?_ (by assumption)

theorem Keeps.putRemoval {v x1} (h : Keeps r x1) : KeepsP r (Machine.putRemoval v x1) := by
  generalize hf : @Machine.putRemoval = f; delta Machine.putRemoval at hf; subst hf; beta_reduce
  with_reducible repeat' first
    | assumption | apply hfn | intro _ | apply Keeps.beginRemoval | apply Keeps.ite | apply KeepsP.ite
    | (fail_if_no_progress apply Keeps.upd) | apply KeepsP.keeps
    | (extract_lets +onlyGivenNames -underBinder x; first | (refine Keeps.cutAt (∀ (s : State), Keeps r s → Keeps r (x s)) ?_ ?_; rotate_left; clear_value x; revert x; intro _ hfn; rotate_left; dsimp -zeta -iota -proj only [x]; clear x) | (refine Keeps.cutAt (∀ (s : State) a, Keeps r s → Keeps r (x s a)) ?_ ?_; rotate_left; clear_value x; revert x; intro _ hfn; rotate_left; dsimp -zeta -iota -proj only [x]; clear x) | (refine Keeps.cutAt (∀ (s : State) a b, Keeps r s → Keeps r (x s a b)) ?_ ?_; rotate_left; clear_value x; revert x; intro _ hfn; rotate_left; dsimp -zeta -iota -proj only [x]; clear x) | (refine Keeps.cutAt (∀ (s : State) a b c, Keeps r s → Keeps r (x s a b c)) ?_ ?_; rotate_left; clear_value x; revert x; intro _ hfn; rotate_left; dsimp -zeta -iota -proj only [x]; clear x) | (refine Keeps.cutAt (∀ (s : State), Keeps r s → KeepsP r (x s)) ?_ ?_; rotate_left; clear_value x; revert x; intro _ hfn; rotate_left; dsimp -zeta -iota -proj only [x]; clear x) | (refine Keeps.cutAt (∀ (s : State) a, Keeps r s → KeepsP r (x s a)) ?_ ?_; rotate_left; clear_value x; revert x; intro _ hfn; rotate_left; dsimp -zeta -iota -proj only [x]; clear x) | (refine Keeps.cutAt (∀ (s : State) a b, Keeps r s → KeepsP r (x s a b)) ?_ ?_; rotate_left; clear_value x; revert x; intro _ hfn; rotate_left; dsimp -zeta -iota -proj only [x]; clear x) | (refine Keeps.cutAt (∀ (s : State) a b c, Keeps r s → KeepsP r (x s a b c)) ?_ ?_; rotate_left; clear_value x; revert x; intro _ hfn; rotate_left; dsimp -zeta -iota -proj only [x]; clear x) | (refine Keeps.cutAt (∀ (s : State), Keeps r s → KeepsDid r (x s)) ?_ ?_; rotate_left; clear_value x; revert x; intro _ hfn; rotate_left; dsimp -zeta -iota -proj only [x]; clear x) | (refine Keeps.cutAt (∀ (s : State) a, Keeps r s → KeepsDid r (x s a)) ?_ ?_; rotate_left; clear_value x; revert x; intro _ hfn; rotate_left; dsimp -zeta -iota -proj only [x]; clear x) | (refine Keeps.cutAt (∀ (s : State) a b, Keeps r s → KeepsDid r (x s a b)) ?_ ?_; rotate_left; clear_value x; revert x; intro _ hfn; rotate_left; dsimp -zeta -iota -proj only [x]; clear x) | (refine Keeps.cutAt (∀ (s : State) a b c, Keeps r s → KeepsDid r (x s a b c)) ?_ ?_; rotate_left; clear_value x; revert x; intro _ hfn; rotate_left; dsimp -zeta -iota -proj only [x]; clear x) | (clear_value x; revert x; intro _))
    | split | refine KeepsP.of_eq ?_ (by assumption) | dsimp +zetaDelta -zeta -iota -proj only | apply KeepsP.pair

/-! ### Frame -/

theorem Keeps.lockedEdge {s m} (h : Keeps r s) : Keeps r (State.lockedEdge s m) := by
  generalize hf : @State.lockedEdge = f; delta State.lockedEdge at hf; subst hf; beta_reduce
  with_reducible repeat' first
    | assumption | apply Keeps.boundary | apply Keeps.ite | (fail_if_no_progress apply Keeps.upd)
    | (extract_lets +onlyGivenNames -underBinder x; clear_value x; revert x; intro _)

theorem Keeps.freeEdge {s m} (h : Keeps r s) : Keeps r (State.freeEdge s m) := by
  generalize hf : @State.freeEdge = f; delta State.freeEdge at hf; subst hf; beta_reduce
  with_reducible repeat' first
    | assumption | apply Keeps.boundary | apply Keeps.ite | (fail_if_no_progress apply Keeps.upd)
    | (extract_lets +onlyGivenNames -underBinder x; clear_value x; revert x; intro _) | split
    | refine KeepsP.of_eq ?_ (by assumption)

theorem Keeps.putNominal {v x1} (h : Keeps r x1) : KeepsP r (Machine.putNominal v x1) := by
  generalize hf : @Machine.putNominal = f; delta Machine.putNominal at hf; subst hf; beta_reduce
  with_reducible repeat' first
    | assumption | apply KeepsP.ite | (fail_if_no_progress apply Keeps.upd) | apply KeepsP.pair

theorem Keeps.putPreset {v x1} (h : Keeps r x1) : KeepsP r (Machine.putPreset v x1) := by
  generalize hf : @Machine.putPreset = f; delta Machine.putPreset at hf; subst hf; beta_reduce
  with_reducible repeat' first
    | assumption | apply KeepsP.ite | (fail_if_no_progress apply Keeps.upd) | apply KeepsP.pair

theorem Keeps.putModuleGrant {v x1} (h : Keeps r x1) : KeepsP r (Machine.putModuleGrant v x1) := by
  generalize hf : @Machine.putModuleGrant = f; delta Machine.putModuleGrant at hf; subst hf; beta_reduce
  with_reducible repeat' first
    | assumption | (fail_if_no_progress apply Keeps.upd) | apply KeepsP.pair

theorem Keeps.putBightGrant {b v x1} (h : Keeps r x1) : KeepsP r (Machine.putBightGrant b v x1) := by
  generalize hf : @Machine.putBightGrant = f; delta Machine.putBightGrant at hf; subst hf; beta_reduce
  with_reducible repeat' first
    | assumption | apply Keeps.modBight | apply KeepsP.ite | (fail_if_no_progress apply Keeps.upd) | apply KeepsP.pair

theorem Keeps.putPolicyMode {v x1} (h : Keeps r x1) : KeepsP r (Machine.putPolicyMode v x1) := by
  generalize hf : @Machine.putPolicyMode = f; delta Machine.putPolicyMode at hf; subst hf; beta_reduce
  with_reducible repeat' first
    | assumption | apply KeepsP.ite | (fail_if_no_progress apply Keeps.upd) | apply KeepsP.pair

/-! ### Domains -/

theorem Keeps.putDomainRequest {value x1} (h : Keeps r x1) : KeepsP r (Machine.putDomainRequest value x1) := by
  generalize hf : @Machine.putDomainRequest = f; delta Machine.putDomainRequest at hf; subst hf; beta_reduce
  with_reducible repeat' first
    | assumption | apply Keeps.portStop | apply Keeps.reqDom | apply Keeps.ite | apply KeepsP.ite | (fail_if_no_progress apply Keeps.upd)
    | apply KeepsP.keeps | (extract_lets +onlyGivenNames -underBinder x; clear_value x; revert x; intro _) | split
    | refine KeepsP.of_eq ?_ (by assumption) | apply KeepsP.pair

theorem Keeps.undoLash {r : State} {s : State} {b : Nat} {result : Nat} (h : Keeps r s) :
    Keeps r (State.undoLash s b result) := by
  generalize hf : @State.undoLash = f; delta State.undoLash at hf; subst hf; beta_reduce
  repeat' (first | with_reducible assumption  | with_reducible apply Keeps.freeRouters | with_reducible apply Keeps.dropCircuits | with_reducible apply Keeps.freeBight | with_reducible apply Keeps.clearCluster | with_reducible apply Keeps.settleCluster | with_reducible apply Keeps.reportLash | with_reducible apply Keeps.ite | with_reducible apply KeepsP.ite | fail_if_no_progress with_reducible apply Keeps.upd | with_reducible apply KeepsOut.next | exact trivial | with_reducible apply KeepsDid.done | with_reducible apply KeepsDid.raise | with_reducible apply KeepsDid.stall | (with_reducible refine Keeps.foldl ?_ ?_ _; rotate_left; intros; beta_reduce) | (with_reducible refine KeepsP.foldl ?_ ?_ _; rotate_left; intros; beta_reduce) | with_reducible apply KeepsP.keeps | (extract_lets +onlyGivenNames -underBinder x; first | (refine Keeps.cut (r := r) (s := x) ?_ ?_; rotate_left; clear_value x; revert x; intro _ _; rotate_left; dsimp -zeta -iota -proj only [x]; clear x) | (refine KeepsP.cut (r := r) (p := x) ?_ ?_; rotate_left; clear_value x; revert x; intro _ _; rotate_left; dsimp -zeta -iota -proj only [x]; clear x) | clear_value x) | split | exact KeepsP.keeps (p := (_, _)) (by assumption) | (refine KeepsP.of_eq ?_ (by assumption)) | dsimp +zetaDelta -zeta -iota -proj only | with_reducible apply KeepsP.pair)

theorem Keeps.refuseFailed {r : State} {s : State} {st : Nat} (h : Keeps r s) :
    Keeps r (State.refuseFailed s st) := by
  generalize hf : @State.refuseFailed = f; delta State.refuseFailed at hf; subst hf; beta_reduce
  repeat' (first | with_reducible assumption  | with_reducible apply Keeps.undoLash | with_reducible apply Keeps.cancelRelash | with_reducible apply Keeps.ite | with_reducible apply KeepsP.ite | fail_if_no_progress with_reducible apply Keeps.upd | with_reducible apply KeepsOut.next | exact trivial | with_reducible apply KeepsDid.done | with_reducible apply KeepsDid.raise | with_reducible apply KeepsDid.stall | (with_reducible refine Keeps.foldl ?_ ?_ _; rotate_left; intros; beta_reduce) | (with_reducible refine KeepsP.foldl ?_ ?_ _; rotate_left; intros; beta_reduce) | with_reducible apply KeepsP.keeps | (extract_lets +onlyGivenNames -underBinder x; first | (refine Keeps.cut (r := r) (s := x) ?_ ?_; rotate_left; clear_value x; revert x; intro _ _; rotate_left; dsimp -zeta -iota -proj only [x]; clear x) | (refine KeepsP.cut (r := r) (p := x) ?_ ?_; rotate_left; clear_value x; revert x; intro _ _; rotate_left; dsimp -zeta -iota -proj only [x]; clear x) | clear_value x) | split | exact KeepsP.keeps (p := (_, _)) (by assumption) | (refine KeepsP.of_eq ?_ (by assumption)) | dsimp +zetaDelta -zeta -iota -proj only | with_reducible apply KeepsP.pair)

theorem Keeps.putMemoryHold {sub v x1} (h : Keeps r x1) : KeepsP r (Machine.putMemoryHold sub v x1) := by
  generalize hf : @Machine.putMemoryHold = f; delta Machine.putMemoryHold at hf; subst hf; beta_reduce
  with_reducible repeat' first
    | assumption | apply Keeps.reqDom | apply Keeps.drive | apply Keeps.driveNeeds | apply Keeps.ite
    | apply KeepsP.ite | (fail_if_no_progress apply Keeps.upd)
    | (refine Keeps.foldl ?_ ?_ _; rotate_left; intros; beta_reduce)
    | (refine KeepsP.foldl ?_ ?_ _; rotate_left; intros; beta_reduce) | apply KeepsP.keeps
    | (extract_lets +onlyGivenNames -underBinder x; first | (refine Keeps.cut (s := x) (r := r) ?_ ?_; rotate_left; clear_value x; revert x; intro _ _; rotate_left; dsimp -zeta -iota -proj only [x]; clear x) | (refine KeepsP.cut (p := x) (r := r) ?_ ?_; rotate_left; clear_value x; revert x; intro _ _; rotate_left; dsimp -zeta -iota -proj only [x]; clear x) | (clear_value x; revert x; intro _))
    | split | exact KeepsP.keeps (p := (_, _)) (by assumption) | refine KeepsP.of_eq ?_ (by assumption)
    | dsimp +zetaDelta -zeta -iota -proj only | apply KeepsP.pair

/-! ### Exec -/

theorem Keeps.switchIn {s b i since answer} (h : Keeps r s) : Keeps r (State.switchIn s b i since answer) := by
  generalize hf : @State.switchIn = f; delta State.switchIn at hf; subst hf; beta_reduce
  with_reducible repeat' first
    | assumption | apply hfn | intro _ | apply Keeps.modBight | apply Keeps.startCores | apply Keeps.moveLive
    | apply Keeps.failAlways | apply Keeps.ite | (fail_if_no_progress apply Keeps.upd) | apply KeepsP.keeps
    | (extract_lets +onlyGivenNames -underBinder x; first | (refine Keeps.cut (s := x) (r := r) ?_ ?_; rotate_left; clear_value x; revert x; intro _ _; rotate_left; dsimp -zeta -iota -proj only [x]; clear x) | (refine Keeps.cutAt (∀ (s : State), Keeps r s → Keeps r (x s)) ?_ ?_; rotate_left; clear_value x; revert x; intro _ hfn; rotate_left; dsimp -zeta -iota -proj only [x]; clear x) | (refine Keeps.cutAt (∀ (s : State) a, Keeps r s → Keeps r (x s a)) ?_ ?_; rotate_left; clear_value x; revert x; intro _ hfn; rotate_left; dsimp -zeta -iota -proj only [x]; clear x) | (refine Keeps.cutAt (∀ (s : State) a b, Keeps r s → Keeps r (x s a b)) ?_ ?_; rotate_left; clear_value x; revert x; intro _ hfn; rotate_left; dsimp -zeta -iota -proj only [x]; clear x) | (refine Keeps.cutAt (∀ (s : State) a b c, Keeps r s → Keeps r (x s a b c)) ?_ ?_; rotate_left; clear_value x; revert x; intro _ hfn; rotate_left; dsimp -zeta -iota -proj only [x]; clear x) | (refine Keeps.cutAt (∀ (s : State), Keeps r s → KeepsP r (x s)) ?_ ?_; rotate_left; clear_value x; revert x; intro _ hfn; rotate_left; dsimp -zeta -iota -proj only [x]; clear x) | (refine Keeps.cutAt (∀ (s : State) a, Keeps r s → KeepsP r (x s a)) ?_ ?_; rotate_left; clear_value x; revert x; intro _ hfn; rotate_left; dsimp -zeta -iota -proj only [x]; clear x) | (refine Keeps.cutAt (∀ (s : State) a b, Keeps r s → KeepsP r (x s a b)) ?_ ?_; rotate_left; clear_value x; revert x; intro _ hfn; rotate_left; dsimp -zeta -iota -proj only [x]; clear x) | (refine Keeps.cutAt (∀ (s : State) a b c, Keeps r s → KeepsP r (x s a b c)) ?_ ?_; rotate_left; clear_value x; revert x; intro _ hfn; rotate_left; dsimp -zeta -iota -proj only [x]; clear x) | (refine Keeps.cutAt (∀ (s : State), Keeps r s → KeepsDid r (x s)) ?_ ?_; rotate_left; clear_value x; revert x; intro _ hfn; rotate_left; dsimp -zeta -iota -proj only [x]; clear x) | (refine Keeps.cutAt (∀ (s : State) a, Keeps r s → KeepsDid r (x s a)) ?_ ?_; rotate_left; clear_value x; revert x; intro _ hfn; rotate_left; dsimp -zeta -iota -proj only [x]; clear x) | (refine Keeps.cutAt (∀ (s : State) a b, Keeps r s → KeepsDid r (x s a b)) ?_ ?_; rotate_left; clear_value x; revert x; intro _ hfn; rotate_left; dsimp -zeta -iota -proj only [x]; clear x) | (refine Keeps.cutAt (∀ (s : State) a b c, Keeps r s → KeepsDid r (x s a b c)) ?_ ?_; rotate_left; clear_value x; revert x; intro _ hfn; rotate_left; dsimp -zeta -iota -proj only [x]; clear x) | (clear_value x; revert x; intro _))
    | split | refine KeepsP.of_eq ?_ (by assumption) | dsimp +zetaDelta -zeta -iota -proj only

theorem Keeps.leaveResidency {s b} (h : Keeps r s) : Keeps r (State.leaveResidency s b) := by
  generalize hf : @State.leaveResidency = f; delta State.leaveResidency at hf; subst hf; beta_reduce
  with_reducible repeat' first
    | assumption | apply Keeps.modBight | apply Keeps.ite | (fail_if_no_progress apply Keeps.upd) | split
    | refine KeepsP.of_eq ?_ (by assumption)

theorem Keeps.putAbort {v x1} (h : Keeps r x1) : KeepsP r (Machine.putAbort v x1) := by
  generalize hf : @Machine.putAbort = f; delta Machine.putAbort at hf; subst hf; beta_reduce
  with_reducible repeat' first
    | assumption | apply Keeps.failAlways | apply Keeps.killAny | apply Keeps.ite | apply KeepsP.ite
    | (fail_if_no_progress apply Keeps.upd) | apply KeepsP.keeps
    | (extract_lets +onlyGivenNames -underBinder x; first | (refine Keeps.cut (s := x) (r := r) ?_ ?_; rotate_left; clear_value x; revert x; intro _ _; rotate_left; dsimp -zeta -iota -proj only [x]; clear x) | (clear_value x; revert x; intro _))
    | split | refine KeepsP.of_eq ?_ (by assumption) | apply KeepsP.pair

/-! ### Reset -/

theorem Keeps.resetFor {r s : State} {cause : Nat} (h : Keeps r s) : Keeps r (s.resetFor cause) :=
  ⟨h.pending, h.now, fun _ => rfl, h.fuses, h.sent⟩

theorem Keeps.deassert {s nonce} (h : Keeps r s) : Keeps r (State.deassert s nonce) := by
  generalize hf : @State.deassert = f; delta State.deassert at hf; subst hf; beta_reduce
  with_reducible repeat' first
    | assumption | (fail_if_no_progress apply Keeps.upd)

theorem Keeps.putReset {v x1} (h : Keeps r x1) : KeepsP r (Machine.putReset v x1) := by
  generalize hf : @Machine.putReset = f; delta Machine.putReset at hf; subst hf; beta_reduce
  with_reducible repeat' first
    | assumption | apply Keeps.resetFor | apply KeepsP.ite | apply KeepsP.pair

/-! ### DictWrite -/

theorem Keeps.putNetwork {sub v x1} (h : Keeps r x1) : KeepsP r (Machine.putNetwork sub v x1) := by
  generalize hf : @Machine.putNetwork = f; delta Machine.putNetwork at hf; subst hf; beta_reduce
  with_reducible repeat' first
    | assumption | apply Keeps.ite | apply KeepsP.ite | (fail_if_no_progress apply Keeps.upd) | apply KeepsP.keeps
    | (extract_lets +onlyGivenNames -underBinder x; clear_value x; revert x; intro _) | split
    | refine KeepsP.of_eq ?_ (by assumption) | apply KeepsP.pair

theorem Keeps.putManagementKey {k key x1} (h : Keeps r x1) : KeepsP r (Machine.putManagementKey k key x1) := by
  generalize hf : @Machine.putManagementKey = f; delta Machine.putManagementKey at hf; subst hf; beta_reduce
  with_reducible repeat' first
    | assumption | apply KeepsP.ite | (fail_if_no_progress apply Keeps.upd) | apply KeepsP.pair

theorem Keeps.putFlag {r s : State} {v : Nat} {act : Bool → State → State} (h : Keeps r s)
    (ha : ∀ b s, Keeps r s → Keeps r (act b s)) : KeepsP r (putFlag v act s) :=
  KeepsP.ite ⟨h⟩ ⟨ha _ _ h⟩

theorem Keeps.putExpert {sub v x1} (h : Keeps r x1) : KeepsP r (Machine.putExpert sub v x1) := by
  generalize hf : @Machine.putExpert = f; delta Machine.putExpert at hf; subst hf; beta_reduce
  with_reducible repeat' first
    | assumption | (refine Keeps.putFlag ?_ ?_; rotate_left; intros; beta_reduce) | apply KeepsP.ite
    | (fail_if_no_progress apply Keeps.upd) | apply KeepsP.pair

theorem Keeps.putAper {fn v x1} (h : Keeps r x1) : KeepsP r (Machine.putAper fn v x1) := by
  generalize hf : @Machine.putAper = f; delta Machine.putAper at hf; subst hf; beta_reduce
  with_reducible repeat' first
    | assumption | apply Keeps.modFn | (fail_if_no_progress apply Keeps.upd) | apply KeepsP.pair

theorem Keeps.putLabel {sub v x1} (h : Keeps r x1) : KeepsP r (Machine.putLabel sub v x1) := by
  generalize hf : @Machine.putLabel = f; delta Machine.putLabel at hf; subst hf; beta_reduce
  with_reducible repeat' first
    | assumption | (fail_if_no_progress apply Keeps.upd) | apply KeepsP.pair

theorem Keeps.putLashed {b f x1} (h : Keeps r x1) : KeepsP r (Machine.putLashed b f x1) := by
  generalize hf : @Machine.putLashed = f; delta Machine.putLashed at hf; subst hf; beta_reduce
  with_reducible repeat' first
    | assumption | apply Keeps.modBight | apply KeepsP.ite | apply KeepsP.pair

theorem Keeps.putUsed {b f x1} (h : Keeps r x1) : KeepsP r (Machine.putUsed b f x1) := by
  generalize hf : @Machine.putUsed = f; delta Machine.putUsed at hf; subst hf; beta_reduce
  with_reducible repeat' first
    | assumption | apply Keeps.modBight | apply KeepsP.ite | apply KeepsP.pair

theorem Keeps.putTrimFloor {b v x1} (h : Keeps r x1) : KeepsP r (Machine.putTrimFloor b v x1) := by
  generalize hf : @Machine.putTrimFloor = f; delta Machine.putTrimFloor at hf; subst hf; beta_reduce
  with_reducible repeat' first
    | assumption | apply Keeps.putUsed | apply Keeps.retune | apply Keeps.ite | apply KeepsP.ite
    | (fail_if_no_progress apply Keeps.upd) | apply KeepsP.keeps
    | (extract_lets +onlyGivenNames -underBinder x; clear_value x; revert x; intro _) | split
    | refine KeepsP.of_eq ?_ (by assumption) | apply KeepsP.pair

theorem Keeps.putBoostPermit {v x1} (h : Keeps r x1) : KeepsP r (Machine.putBoostPermit v x1) := by
  generalize hf : @Machine.putBoostPermit = f; delta Machine.putBoostPermit at hf; subst hf; beta_reduce
  with_reducible repeat' first
    | assumption | (refine Keeps.putFlag ?_ ?_; rotate_left; intros; beta_reduce) | apply Keeps.retune
    | (fail_if_no_progress apply Keeps.upd) | apply KeepsP.pair

theorem Keeps.putHoldCeiling {b v x1} (h : Keeps r x1) : KeepsP r (Machine.putHoldCeiling b v x1) := by
  generalize hf : @Machine.putHoldCeiling = f; delta Machine.putHoldCeiling at hf; subst hf; beta_reduce
  with_reducible repeat' first
    | assumption | apply Keeps.putUsed | apply KeepsP.ite | (fail_if_no_progress apply Keeps.upd) | apply KeepsP.pair

theorem Keeps.putFineCounters {sub v x1} (h : Keeps r x1) : KeepsP r (Machine.putFineCounters sub v x1) := by
  generalize hf : @Machine.putFineCounters = f; delta Machine.putFineCounters at hf; subst hf; beta_reduce
  with_reducible repeat' first
    | assumption | apply Keeps.modBight | apply Keeps.ite | apply KeepsP.ite | (fail_if_no_progress apply Keeps.upd)
    | (refine Keeps.foldl ?_ ?_ _; rotate_left; intros; beta_reduce)
    | (refine KeepsP.foldl ?_ ?_ _; rotate_left; intros; beta_reduce) | apply KeepsP.keeps | split
    | exact KeepsP.keeps (p := (_, _)) (by assumption) | refine KeepsP.of_eq ?_ (by assumption)
    | dsimp +zetaDelta -zeta -iota -proj only | apply KeepsP.pair

theorem Keeps.putInWindow {w sub v x1} (h : Keeps r x1) : KeepsP r (Machine.putInWindow w sub v x1) := by
  generalize hf : @Machine.putInWindow = f; delta Machine.putInWindow at hf; subst hf; beta_reduce
  with_reducible repeat' first
    | assumption | apply Keeps.setInWin | apply Keeps.ite | apply KeepsP.ite | (fail_if_no_progress apply Keeps.upd)
    | apply KeepsP.keeps | (extract_lets +onlyGivenNames -underBinder x; clear_value x; revert x; intro _) | split
    | refine KeepsP.of_eq ?_ (by assumption) | apply KeepsP.pair

theorem Keeps.putOutWindow {w sub v x1} (h : Keeps r x1) : KeepsP r (Machine.putOutWindow w sub v x1) := by
  generalize hf : @Machine.putOutWindow = f; delta Machine.putOutWindow at hf; subst hf; beta_reduce
  with_reducible repeat' first
    | assumption | apply Keeps.setOutWin | apply Keeps.ite | apply KeepsP.ite | (fail_if_no_progress apply Keeps.upd)
    | apply KeepsP.keeps | (extract_lets +onlyGivenNames -underBinder x; clear_value x; revert x; intro _) | split
    | refine KeepsP.of_eq ?_ (by assumption) | apply KeepsP.pair

theorem Keeps.putReductionPort {w v x1} (h : Keeps r x1) : KeepsP r (Machine.putReductionPort w v x1) := by
  generalize hf : @Machine.putReductionPort = f; delta Machine.putReductionPort at hf; subst hf; beta_reduce
  with_reducible repeat' first
    | assumption | apply Keeps.setInWin | apply KeepsP.ite | (fail_if_no_progress apply Keeps.upd) | apply KeepsP.pair

theorem Keeps.putPace {r s : State} {i sub v : Nat} (h : Keeps r s) : KeepsP r (putPace i sub v s) := by
  unfold Machine.putPace
  extract_lets x ok
  have hok : ∀ y, KeepsP r (ok y) := fun y => KeepsP.pair (Keeps.setPace h)
  split
  all_goals first | exact hok _ | exact KeepsP.ite (KeepsP.pair h) (hok _) | exact KeepsP.ite (hok _) (hok _)

theorem Keeps.putErrorWindow {sub v x1} (h : Keeps r x1) : KeepsP r (Machine.putErrorWindow sub v x1) := by
  generalize hf : @Machine.putErrorWindow = f; delta Machine.putErrorWindow at hf; subst hf; beta_reduce
  with_reducible repeat' first
    | assumption | apply KeepsP.ite | (fail_if_no_progress apply Keeps.upd) | apply KeepsP.pair

theorem Keeps.putSnapshot {v x1} (h : Keeps r x1) : KeepsP r (Machine.putSnapshot v x1) := by
  generalize hf : @Machine.putSnapshot = f; delta Machine.putSnapshot at hf; subst hf; beta_reduce
  with_reducible repeat' first
    | assumption | apply Keeps.activity | apply KeepsP.ite | (fail_if_no_progress apply Keeps.upd) | split
    | refine KeepsP.of_eq ?_ (by assumption) | apply KeepsP.pair

theorem Keeps.actLow {i sub v d x1} (h : Keeps r x1) : KeepsP r (Machine.actLow i sub v d x1) := by
  generalize hf : @Machine.actLow = f; delta Machine.actLow at hf; subst hf; beta_reduce
  with_reducible repeat' first
    | assumption | apply Keeps.putNetwork | apply Keeps.putManagementKey | apply Keeps.putExpert
    | apply Keeps.putFunctionPort | apply Keeps.putAper | apply Keeps.putLabel | apply Keeps.putPolicyMode
    | apply Keeps.putNominal | apply Keeps.putPreset | apply Keeps.putModuleGrant | apply Keeps.putCap
    | apply Keeps.putFixedFreq | apply Keeps.putBoostPermit | apply Keeps.putMemoryHold | apply Keeps.putDomainRequest
    | apply Keeps.putBightGrant | apply Keeps.putLashed | apply Keeps.putTrimFloor | apply Keeps.ite
    | apply KeepsP.ite | (fail_if_no_progress apply Keeps.upd) | apply KeepsP.keeps
    | (extract_lets +onlyGivenNames -underBinder x; clear_value x; revert x; intro _) | split
    | refine KeepsP.of_eq ?_ (by assumption) | apply KeepsP.pair

theorem Keeps.actMid {i sub v answer x1} (h : Keeps r x1) : KeepsP r (Machine.actMid i sub v answer x1) := by
  generalize hf : @Machine.actMid = f; delta Machine.actMid at hf; subst hf; beta_reduce
  with_reducible repeat' first
    | assumption | apply Keeps.putLash | apply Keeps.putRelease | apply Keeps.putQueueRecord
    | apply Keeps.putFenceRecord | apply Keeps.putTeardownRecord | apply Keeps.putAbort | apply Keeps.putRetire
    | apply Keeps.putGateSetting | apply Keeps.putContextTable | apply Keeps.putObjectTable | apply Keeps.putHedge
    | apply Keeps.putUsed | apply Keeps.putErrorFence | apply Keeps.putHoldCeiling | apply Keeps.putInState
    | apply Keeps.putInWindow | apply Keeps.putOutState | apply Keeps.putOutWindow | apply Keeps.ite
    | apply KeepsP.ite | (fail_if_no_progress apply Keeps.upd) | apply KeepsP.keeps
    | (extract_lets +onlyGivenNames -underBinder x; clear_value x; revert x; intro _) | split
    | refine KeepsP.of_eq ?_ (by assumption) | apply KeepsP.pair

theorem Keeps.actFabric {i sub v d x1} (h : Keeps r x1) : KeepsP r (Machine.actFabric i sub v d x1) := by
  generalize hf : @Machine.actFabric = f; delta Machine.actFabric at hf; subst hf; beta_reduce
  with_reducible repeat' first
    | assumption | apply Keeps.putHandoffRegion | apply Keeps.putSlotOp | apply Keeps.putVerdict
    | apply Keeps.putReportRemove | apply Keeps.putTxKey | apply Keeps.putRxKey | apply Keeps.putTxSel
    | apply Keeps.putRxInvalid | apply Keeps.putReductionPort | apply Keeps.putPace | apply Keeps.ite
    | apply KeepsP.ite | (fail_if_no_progress apply Keeps.upd) | apply KeepsP.keeps
    | (extract_lets +onlyGivenNames -underBinder x; clear_value x; revert x; intro _) | split
    | refine KeepsP.of_eq ?_ (by assumption) | apply KeepsP.pair

theorem Keeps.actHigh {i sub v d x1} (h : Keeps r x1) : KeepsP r (Machine.actHigh i sub v d x1) := by
  generalize hf : @Machine.actHigh = f; delta Machine.actHigh at hf; subst hf; beta_reduce
  with_reducible repeat' first
    | assumption | apply Keeps.putReportRequest | apply Keeps.putMeasure | apply Keeps.putRemoval
    | apply Keeps.putFineCounters | apply Keeps.putDebugDisable | apply Keeps.putExit | apply Keeps.putReset
    | apply Keeps.putErrorWindow | apply Keeps.putEventRemove | apply Keeps.putSnapshot | apply Keeps.putKeyOwner
    | apply Keeps.putKey | apply Keeps.putRotation | apply Keeps.putZeroize | apply Keeps.ite | apply KeepsP.ite
    | (fail_if_no_progress apply Keeps.upd) | apply KeepsP.keeps
    | (extract_lets +onlyGivenNames -underBinder x; clear_value x; revert x; intro _) | split
    | refine KeepsP.of_eq ?_ (by assumption) | apply KeepsP.pair

theorem Keeps.objAct {i sub d answer x1} (h : Keeps r x1) : KeepsP r (Machine.objAct i sub d answer x1) := by
  generalize hf : @Machine.objAct = f; delta Machine.objAct at hf; subst hf; beta_reduce
  have hc0 := @Keeps.actLow r; obtain ⟨g, hg⟩ : ∃ g, g = @Machine.actLow := ⟨_, rfl⟩; rw [← hg] at hc0 ⊢; clear hg
  have hc1 := @Keeps.actMid r; obtain ⟨g, hg⟩ : ∃ g, g = @Machine.actMid := ⟨_, rfl⟩; rw [← hg] at hc1 ⊢; clear hg
  have hc2 := @Keeps.actFabric r; obtain ⟨g, hg⟩ : ∃ g, g = @Machine.actFabric := ⟨_, rfl⟩; rw [← hg] at hc2 ⊢; clear hg
  have hc3 := @Keeps.actHigh r; obtain ⟨g, hg⟩ : ∃ g, g = @Machine.actHigh := ⟨_, rfl⟩; rw [← hg] at hc3 ⊢; clear hg
  with_reducible repeat' first
    | assumption | apply hc0 | apply hc1 | apply hc2 | apply hc3 | apply Keeps.ite | apply KeepsP.ite
    | (fail_if_no_progress apply Keeps.upd) | apply KeepsP.keeps
    | (extract_lets +onlyGivenNames -underBinder x; first | (refine Keeps.cut (s := x) (r := r) ?_ ?_; rotate_left; clear_value x; revert x; intro _ _; rotate_left; dsimp -zeta -iota -proj only [x]; clear x) | (refine KeepsP.cut (p := x) (r := r) ?_ ?_; rotate_left; clear_value x; revert x; intro _ _; rotate_left; dsimp -zeta -iota -proj only [x]; clear x) | (clear_value x; revert x; intro _))
    | split | exact KeepsP.keeps (p := (_, _)) (by assumption) | refine KeepsP.of_eq ?_ (by assumption)
    | dsimp +zetaDelta -zeta -iota -proj only | apply KeepsP.pair

theorem Keeps.vendorAnswer {r : State} {s : State} {statuses : List Nat} (h : Keeps r s) :
    KeepsP r (State.vendorAnswer s statuses) := by
  generalize hf : @State.vendorAnswer = f; delta State.vendorAnswer at hf; subst hf; beta_reduce
  repeat' (first | with_reducible assumption  | with_reducible apply Keeps.freeNat | with_reducible apply Keeps.freeBytes | with_reducible apply Keeps.ite | with_reducible apply KeepsP.ite | fail_if_no_progress with_reducible apply Keeps.upd | with_reducible apply KeepsOut.next | exact trivial | with_reducible apply KeepsDid.done | with_reducible apply KeepsDid.raise | with_reducible apply KeepsDid.stall | (with_reducible refine Keeps.foldl ?_ ?_ _; rotate_left; intros; beta_reduce) | (with_reducible refine KeepsP.foldl ?_ ?_ _; rotate_left; intros; beta_reduce) | with_reducible apply KeepsP.keeps | (extract_lets +onlyGivenNames -underBinder x; first | (refine Keeps.cut (r := r) (s := x) ?_ ?_; rotate_left; clear_value x; revert x; intro _ _; rotate_left; dsimp -zeta -iota -proj only [x]; clear x) | (refine KeepsP.cut (r := r) (p := x) ?_ ?_; rotate_left; clear_value x; revert x; intro _ _; rotate_left; dsimp -zeta -iota -proj only [x]; clear x) | clear_value x) | split | exact KeepsP.keeps (p := (_, _)) (by assumption) | (refine KeepsP.of_eq ?_ (by assumption)) | dsimp +zetaDelta -zeta -iota -proj only | with_reducible apply KeepsP.pair)

theorem Keeps.objRead {r : State} {s : State} {v : Via} {i : Nat} {sub : Nat} (h : Keeps r s) :
    KeepsP r (State.objRead s v i sub) := by
  generalize hf : @State.objRead = f; delta State.objRead at hf; subst hf; beta_reduce
  repeat' (first | with_reducible assumption  | with_reducible apply Keeps.vendorAnswer | with_reducible apply Keeps.ite | with_reducible apply KeepsP.ite | fail_if_no_progress with_reducible apply Keeps.upd | with_reducible apply KeepsOut.next | exact trivial | with_reducible apply KeepsDid.done | with_reducible apply KeepsDid.raise | with_reducible apply KeepsDid.stall | (with_reducible refine Keeps.foldl ?_ ?_ _; rotate_left; intros; beta_reduce) | (with_reducible refine KeepsP.foldl ?_ ?_ _; rotate_left; intros; beta_reduce) | with_reducible apply KeepsP.keeps | (extract_lets +onlyGivenNames -underBinder x; first | (refine Keeps.cut (r := r) (s := x) ?_ ?_; rotate_left; clear_value x; revert x; intro _ _; rotate_left; dsimp -zeta -iota -proj only [x]; clear x) | (refine KeepsP.cut (r := r) (p := x) ?_ ?_; rotate_left; clear_value x; revert x; intro _ _; rotate_left; dsimp -zeta -iota -proj only [x]; clear x) | clear_value x) | split | exact KeepsP.keeps (p := (_, _)) (by assumption) | (refine KeepsP.of_eq ?_ (by assumption)) | dsimp +zetaDelta -zeta -iota -proj only | with_reducible apply KeepsP.pair)

theorem Keeps.objDescribe {r : State} {s : State} {v : Via} {i : Nat} {sub : Nat} (h : Keeps r s) :
    KeepsP r (State.objDescribe s v i sub) := by
  generalize hf : @State.objDescribe = f; delta State.objDescribe at hf; subst hf; beta_reduce
  repeat' (first | with_reducible assumption  | with_reducible apply Keeps.vendorAnswer | with_reducible apply Keeps.ite | with_reducible apply KeepsP.ite | fail_if_no_progress with_reducible apply Keeps.upd | with_reducible apply KeepsOut.next | exact trivial | with_reducible apply KeepsDid.done | with_reducible apply KeepsDid.raise | with_reducible apply KeepsDid.stall | (with_reducible refine Keeps.foldl ?_ ?_ _; rotate_left; intros; beta_reduce) | (with_reducible refine KeepsP.foldl ?_ ?_ _; rotate_left; intros; beta_reduce) | with_reducible apply KeepsP.keeps | (extract_lets +onlyGivenNames -underBinder x; first | (refine Keeps.cut (r := r) (s := x) ?_ ?_; rotate_left; clear_value x; revert x; intro _ _; rotate_left; dsimp -zeta -iota -proj only [x]; clear x) | (refine KeepsP.cut (r := r) (p := x) ?_ ?_; rotate_left; clear_value x; revert x; intro _ _; rotate_left; dsimp -zeta -iota -proj only [x]; clear x) | clear_value x) | split | exact KeepsP.keeps (p := (_, _)) (by assumption) | (refine KeepsP.of_eq ?_ (by assumption)) | dsimp +zetaDelta -zeta -iota -proj only | with_reducible apply KeepsP.pair)

theorem Keeps.dictWrite {s v i sub d answer} (h : Keeps r s) : KeepsP r (State.dictWrite s v i sub d answer) := by
  generalize hf : @State.dictWrite = f; delta State.dictWrite at hf; subst hf; beta_reduce
  have hc0 := @Keeps.objAct r; obtain ⟨g, hg⟩ : ∃ g, g = @Machine.objAct := ⟨_, rfl⟩; rw [← hg] at hc0 ⊢; clear hg
  with_reducible repeat' first
    | assumption | apply Keeps.vendorAnswer | apply hc0 | (fail_if_no_progress apply Keeps.upd) | split | refine KeepsP.of_eq ?_ (by assumption)
    | apply KeepsP.pair

theorem Keeps.putMsix {s fn offset width v} (h : Keeps r s) : Keeps r (State.putMsix s fn offset width v) := by
  generalize hf : @State.putMsix = f; delta State.putMsix at hf; subst hf; beta_reduce
  with_reducible repeat' first
    | assumption | apply Keeps.modFn | apply Keeps.irq | apply Keeps.ite | (fail_if_no_progress apply Keeps.upd)
    | apply KeepsP.keeps
    | (extract_lets +onlyGivenNames -underBinder x; first | (refine Keeps.cut (s := x) (r := r) ?_ ?_; rotate_left; clear_value x; revert x; intro _ _; rotate_left; dsimp -zeta -iota -proj only [x]; clear x) | (clear_value x; revert x; intro _))

theorem Keeps.putResolve {s fn v} (h : Keeps r s) : Keeps r (State.putResolve s fn v) := by
  generalize hf : @State.putResolve = f; delta State.putResolve at hf; subst hf; beta_reduce
  with_reducible repeat' first
    | assumption | apply Keeps.takeResolve | apply Keeps.retryFault | apply Keeps.failFault | apply Keeps.staleResolve
    | (fail_if_no_progress apply Keeps.upd) | split | refine KeepsP.of_eq ?_ (by assumption)

theorem Keeps.putRingCons {s fn v} (h : Keeps r s) : Keeps r (State.putRingCons s fn v) := by
  generalize hf : @State.putRingCons = f; delta State.putRingCons at hf; subst hf; beta_reduce
  with_reducible repeat' first
    | assumption | apply Keeps.ringRoom | apply Keeps.modFn | (fail_if_no_progress apply Keeps.upd)

theorem Keeps.putBootReg {s port offset width v} (h : Keeps r s) :
    Keeps r (State.putBootReg s port offset width v) := by
  generalize hf : @State.putBootReg = f; delta State.putBootReg at hf; subst hf; beta_reduce
  with_reducible repeat' first
    | assumption | apply Keeps.bootGo | (fail_if_no_progress apply Keeps.upd)
    | (extract_lets +onlyGivenNames -underBinder x; clear_value x; revert x; intro _) | split
    | refine KeepsP.of_eq ?_ (by assumption)

theorem Keeps.putFnReg {s fn port offset width v} (h : Keeps r s) :
    Keeps r (State.putFnReg s fn port offset width v) := by
  generalize hf : @State.putFnReg = f; delta State.putFnReg at hf; subst hf; beta_reduce
  with_reducible repeat' first
    | assumption | apply Keeps.ringDoorbell | apply Keeps.putMsix | apply Keeps.putIrqCause | apply Keeps.modFn
    | apply Keeps.putRingBase | apply Keeps.putRingCons | apply Keeps.putResolve | apply Keeps.putInvCtrl
    | apply Keeps.putBootReg | apply Keeps.ite | (fail_if_no_progress apply Keeps.upd)
    | (extract_lets +onlyGivenNames -underBinder x; clear_value x; revert x; intro _) | split
    | refine KeepsP.of_eq ?_ (by assumption)

theorem Keeps.putClusterReg {s c offset width v} (h : Keeps r s) :
    Keeps r (State.putClusterReg s c offset width v) := by
  generalize hf : @State.putClusterReg = f; delta State.putClusterReg at hf; subst hf; beta_reduce
  with_reducible repeat' first
    | assumption | apply Keeps.putFlipHi | (fail_if_no_progress apply Keeps.upd) | split
    | refine KeepsP.of_eq ?_ (by assumption)

theorem Keeps.putMmio {s port offset width v} (h : Keeps r s) : Keeps r (State.putMmio s port offset width v) := by
  generalize hf : @State.putMmio = f; delta State.putMmio at hf; subst hf; beta_reduce
  with_reducible repeat' first
    | assumption | apply Keeps.putFnReg | apply Keeps.putClusterReg | apply Keeps.ite

theorem Keeps.hostRegWrite {s fn bar offset width v} (h : Keeps r s) :
    Keeps r (State.hostRegWrite s fn bar offset width v) := by
  generalize hf : @State.hostRegWrite = f; delta State.hostRegWrite at hf; subst hf; beta_reduce
  with_reducible repeat' first
    | assumption | apply Keeps.putBootReg | apply Keeps.putFnReg | apply Keeps.putMmio | apply Keeps.ite
    | (extract_lets +onlyGivenNames -underBinder x; clear_value x; revert x; intro _)

/-! ### Dictionary -/

theorem Keeps.mboxDone {s seq status len} (h : Keeps r s) : Keeps r (State.mboxDone s seq status len) := by
  generalize hf : @State.mboxDone = f; delta State.mboxDone at hf; subst hf; beta_reduce
  with_reducible repeat' first
    | assumption | apply Keeps.noteStatus | apply Keeps.cause | apply Keeps.ite
    | (fail_if_no_progress apply Keeps.upd)

theorem Keeps.mboxCommand {r s : State} {port : Nat} {act : State → State} (h : Keeps r s)
    (ha : ∀ s, Keeps r s → Keeps r (act s)) : Keeps r (s.mboxCommand port act) :=
  Keeps.ite h (Keeps.ite (Keeps.upd h) (ha _ h))

theorem Keeps.mboxReturn {s port r' bufferOk} (h : Keeps r s) : Keeps r (State.mboxReturn s port r' bufferOk) := by
  generalize hf : @State.mboxReturn = f; delta State.mboxReturn at hf; subst hf; beta_reduce
  with_reducible repeat' first
    | assumption | apply Keeps.aer | apply Keeps.mboxDone | apply Keeps.hostWriteVia | apply Keeps.ite
    | (fail_if_no_progress apply Keeps.upd)
    | (extract_lets +onlyGivenNames -underBinder x; first | (refine Keeps.cut (s := x) (r := r) ?_ ?_; rotate_left; clear_value x; revert x; intro _ _; rotate_left; dsimp -zeta -iota -proj only [x]; clear x) | (clear_value x; revert x; intro _))
    | split | refine KeepsP.of_eq ?_ (by assumption)

theorem Keeps.mboxWrite {s index sub len buffer answer} (h : Keeps r s) :
    Keeps r (State.mboxWrite s index sub len buffer answer) := by
  generalize hf : @State.mboxWrite = f; delta State.mboxWrite at hf; subst hf; beta_reduce
  have hc0 := @Keeps.objAct r; obtain ⟨g, hg⟩ : ∃ g, g = @Machine.objAct := ⟨_, rfl⟩; rw [← hg] at hc0 ⊢; clear hg
  with_reducible repeat' first
    | assumption | apply Keeps.vendorAnswer | apply Keeps.aer | apply Keeps.mboxDone | apply hc0 | apply Keeps.ite | apply KeepsP.ite
    | (fail_if_no_progress apply Keeps.upd) | apply KeepsP.keeps
    | (extract_lets +onlyGivenNames -underBinder x; first | (refine Keeps.cut (s := x) (r := r) ?_ ?_; rotate_left; clear_value x; revert x; intro _ _; rotate_left; dsimp -zeta -iota -proj only [x]; clear x) | (refine KeepsP.cut (p := x) (r := r) ?_ ?_; rotate_left; clear_value x; revert x; intro _ _; rotate_left; dsimp -zeta -iota -proj only [x]; clear x) | (clear_value x; revert x; intro _))
    | split | exact KeepsP.keeps (p := (_, _)) (by assumption) | refine KeepsP.of_eq ?_ (by assumption)
    | dsimp +zetaDelta -zeta -iota -proj only | apply KeepsP.pair

theorem Keeps.dgCount {s i} (h : Keeps r s) : Keeps r (State.dgCount s i) := by
  generalize hf : @State.dgCount = f; delta State.dgCount at hf; subst hf; beta_reduce
  with_reducible repeat' first
    | assumption | (fail_if_no_progress apply Keeps.upd)

theorem Keeps.dgRespond {s b status data} (h : Keeps r s) : Keeps r (State.dgRespond s b status data) := by
  generalize hf : @State.dgRespond = f; delta State.dgRespond at hf; subst hf; beta_reduce
  with_reducible repeat' first
    | assumption | apply Keeps.send | apply Keeps.ite | (fail_if_no_progress apply Keeps.upd)
    | (extract_lets +onlyGivenNames -underBinder x; clear_value x; revert x; intro _) | split
    | refine KeepsP.of_eq ?_ (by assumption)

theorem Keeps.dgServe {r s : State} {op : Nat} {b : Bytes} {act : State → DgHeader → Bytes → Nat × Bytes × State}
    (h : Keeps r s) (ha : ∀ s x d, Keeps r s → KeepsP r (act s x d).2) : Keeps r (s.dgServe op b act) := by
  unfold State.dgServe
  extract_lets
  refine Keeps.ite ?_ h
  split
  · exact Keeps.dgCount h
  · exact Keeps.send (Keeps.dgCount h)
  · next d _ =>
    split
    next e =>
      refine Keeps.noteStatus (Keeps.dgRespond ?_)
      have := (ha _ (dgHeader b) d (Keeps.dgCount (i := 1) h)).keeps
      rw [e] at this
      exact this

theorem Keeps.takeModbus {s : State} (h : Keeps r s) : Keeps r s.takeModbus := by
  unfold State.takeModbus
  split
  · exact Keeps.upd h
  · exact h

theorem Keeps.modbusAnswer {s conn pdu} (h : Keeps r s) : Keeps r (State.modbusAnswer s conn pdu) := by
  generalize hf : @State.modbusAnswer = f; delta State.modbusAnswer at hf; subst hf; beta_reduce
  with_reducible repeat' first
    | assumption | apply Keeps.send | apply Keeps.dgCount

theorem Keeps.modbusRead {s conn code address count} (h : Keeps r s) :
    Keeps r (State.modbusRead s conn code address count) := by
  generalize hf : @State.modbusRead = f; delta State.modbusRead at hf; subst hf; beta_reduce
  with_reducible repeat' first
    | assumption | apply Keeps.modbusAnswer | apply Keeps.ite
    | (extract_lets +onlyGivenNames -underBinder x; clear_value x; revert x; intro _)

/-! ### Engine -/

theorem Keeps.tileRows {s c q off fromQueue t rows rowBytes} (h : Keeps r s) :
    KeepsP r (State.tileRows s c q off fromQueue t rows rowBytes) := by
  generalize hf : @State.tileRows = f; delta State.tileRows at hf; subst hf; beta_reduce
  with_reducible repeat' first
    | assumption | apply Keeps.takeFeed | apply Keeps.setEngine | apply Keeps.engineRows | apply Keeps.ite
    | apply KeepsP.ite | apply KeepsP.keeps
    | (extract_lets +onlyGivenNames -underBinder x; first | (refine Keeps.cut (s := x) (r := r) ?_ ?_; rotate_left; clear_value x; revert x; intro _ _; rotate_left; dsimp -zeta -iota -proj only [x]; clear x) | (clear_value x; revert x; intro _))
    | split | refine KeepsP.of_eq ?_ (by assumption) | apply KeepsP.pair

theorem Keeps.scaleRows {s c off t rows first n} (h : Keeps r s) : KeepsP r (State.scaleRows s c off t rows first n) := by
  generalize hf : @State.scaleRows = f; delta State.scaleRows at hf; subst hf; beta_reduce
  with_reducible repeat' first
    | assumption | apply Keeps.engineRows
    | apply Keeps.ite | apply KeepsP.ite | (fail_if_no_progress apply Keeps.upd)
    | apply KeepsP.keeps
    | (extract_lets +onlyGivenNames -underBinder x; first | (refine Keeps.cut (s := x) (r := r) ?_ ?_; rotate_left; clear_value x; revert x; intro _ _; rotate_left; dsimp -zeta -iota -proj only [x]; clear x) | (clear_value x; revert x; intro _))
    | split | exact KeepsP.keeps (p := (_, _)) (by assumption) | refine KeepsP.of_eq ?_ (by assumption) | apply KeepsP.pair

theorem Keeps.tileScales {s c off t rows} (h : Keeps r s) : KeepsP r (State.tileScales s c off t rows) := by
  generalize hf : @State.tileScales = f; delta State.tileScales at hf; subst hf; beta_reduce
  with_reducible repeat' first
    | assumption | apply Keeps.scaleRows
    | apply Keeps.ite | apply KeepsP.ite | (fail_if_no_progress apply Keeps.upd)
    | apply KeepsP.keeps
    | (extract_lets +onlyGivenNames -underBinder x; first | (refine Keeps.cut (s := x) (r := r) ?_ ?_; rotate_left; clear_value x; revert x; intro _ _; rotate_left; dsimp -zeta -iota -proj only [x]; clear x) | (clear_value x; revert x; intro _))
    | split | exact KeepsP.keeps (p := (_, _)) (by assumption) | refine KeepsP.of_eq ?_ (by assumption) | apply KeepsP.pair

theorem Keeps.loadPartials {s c t anchor} (h : Keeps r s) : KeepsP r (State.loadPartials s c t anchor) := by
  generalize hf : @State.loadPartials = f; delta State.loadPartials at hf; subst hf; beta_reduce
  with_reducible repeat' first
    | assumption | apply Keeps.engineRows | apply Keeps.ite | apply KeepsP.ite | (fail_if_no_progress apply Keeps.upd)
    | (refine KeepsP.foldl ?_ ?_ _; rotate_left; intros; beta_reduce) | apply KeepsP.keeps
    | (extract_lets +onlyGivenNames -underBinder x; clear_value x; revert x; intro _) | split
    | exact KeepsP.keeps (p := (_, _)) (by assumption) | refine KeepsP.of_eq ?_ (by assumption) | apply KeepsP.pair

theorem Keeps.planeStart {s c t anchor} (h : Keeps r s) : KeepsP r (State.planeStart s c t anchor) := by
  generalize hf : @State.planeStart = f; delta State.planeStart at hf; subst hf; beta_reduce
  with_reducible repeat' first
    | assumption | apply Keeps.loadPartials | apply Keeps.ite | apply KeepsP.ite
    | (fail_if_no_progress apply Keeps.upd) | apply KeepsP.keeps
    | (extract_lets +onlyGivenNames -underBinder x; clear_value x; revert x; intro _) | split
    | refine KeepsP.of_eq ?_ (by assumption) | apply KeepsP.pair

theorem Keeps.tileProducts {s c t a w metas as ws} (h : Keeps r s) :
    Keeps r (State.tileProducts s c t a w metas as ws) := by
  generalize hf : @State.tileProducts = f; delta State.tileProducts at hf; subst hf; beta_reduce
  with_reducible repeat' first
    | assumption | apply Keeps.modEngine | apply Keeps.planeStart | apply Keeps.killOn | apply Keeps.engineReport
    | apply Keeps.activity | apply Keeps.ite | (fail_if_no_progress apply Keeps.upd) | apply KeepsP.keeps
    | (extract_lets +onlyGivenNames -underBinder x; first | (refine Keeps.cut (s := x) (r := r) ?_ ?_; rotate_left; clear_value x; revert x; intro _ _; rotate_left; dsimp -zeta -iota -proj only [x]; clear x) | (clear_value x; revert x; intro _))
    | split | refine KeepsP.of_eq ?_ (by assumption)

theorem Keeps.runTile {s c t} (h : Keeps r s) : Keeps r (State.runTile s c t) := by
  generalize hf : @State.runTile = f; delta State.runTile at hf; subst hf; beta_reduce
  with_reducible repeat' first
    | assumption | apply Keeps.lateFrom | apply Keeps.lateDone | apply hfn | intro _ | apply Keeps.engineReport | apply Keeps.takeFeed | apply Keeps.tileRows
    | apply Keeps.starve | apply Keeps.tileScales | apply Keeps.engineRows | apply Keeps.tileProducts
    | apply Keeps.ite | (fail_if_no_progress apply Keeps.upd)
    | (extract_lets +onlyGivenNames -underBinder x; first | (refine Keeps.cut (s := x) (r := r) ?_ ?_; rotate_left; clear_value x; revert x; intro _ _; rotate_left; dsimp -zeta -iota -proj only [x]; clear x) | (refine Keeps.cutAt (∀ (s : State), Keeps r s → Keeps r (x s)) ?_ ?_; rotate_left; clear_value x; revert x; intro _ hfn; rotate_left; dsimp -zeta -iota -proj only [x]; clear x) | (refine Keeps.cutAt (∀ (s : State) a, Keeps r s → Keeps r (x s a)) ?_ ?_; rotate_left; clear_value x; revert x; intro _ hfn; rotate_left; dsimp -zeta -iota -proj only [x]; clear x) | (refine Keeps.cutAt (∀ (s : State) a b, Keeps r s → Keeps r (x s a b)) ?_ ?_; rotate_left; clear_value x; revert x; intro _ hfn; rotate_left; dsimp -zeta -iota -proj only [x]; clear x) | (refine Keeps.cutAt (∀ (s : State) a b c, Keeps r s → Keeps r (x s a b c)) ?_ ?_; rotate_left; clear_value x; revert x; intro _ hfn; rotate_left; dsimp -zeta -iota -proj only [x]; clear x) | (refine Keeps.cutAt (∀ (s : State), Keeps r s → KeepsP r (x s)) ?_ ?_; rotate_left; clear_value x; revert x; intro _ hfn; rotate_left; dsimp -zeta -iota -proj only [x]; clear x) | (refine Keeps.cutAt (∀ (s : State) a, Keeps r s → KeepsP r (x s a)) ?_ ?_; rotate_left; clear_value x; revert x; intro _ hfn; rotate_left; dsimp -zeta -iota -proj only [x]; clear x) | (refine Keeps.cutAt (∀ (s : State) a b, Keeps r s → KeepsP r (x s a b)) ?_ ?_; rotate_left; clear_value x; revert x; intro _ hfn; rotate_left; dsimp -zeta -iota -proj only [x]; clear x) | (refine Keeps.cutAt (∀ (s : State) a b c, Keeps r s → KeepsP r (x s a b c)) ?_ ?_; rotate_left; clear_value x; revert x; intro _ hfn; rotate_left; dsimp -zeta -iota -proj only [x]; clear x) | (refine Keeps.cutAt (∀ (s : State), Keeps r s → KeepsDid r (x s)) ?_ ?_; rotate_left; clear_value x; revert x; intro _ hfn; rotate_left; dsimp -zeta -iota -proj only [x]; clear x) | (refine Keeps.cutAt (∀ (s : State) a, Keeps r s → KeepsDid r (x s a)) ?_ ?_; rotate_left; clear_value x; revert x; intro _ hfn; rotate_left; dsimp -zeta -iota -proj only [x]; clear x) | (refine Keeps.cutAt (∀ (s : State) a b, Keeps r s → KeepsDid r (x s a b)) ?_ ?_; rotate_left; clear_value x; revert x; intro _ hfn; rotate_left; dsimp -zeta -iota -proj only [x]; clear x) | (refine Keeps.cutAt (∀ (s : State) a b c, Keeps r s → KeepsDid r (x s a b c)) ?_ ?_; rotate_left; clear_value x; revert x; intro _ hfn; rotate_left; dsimp -zeta -iota -proj only [x]; clear x) | (clear_value x; revert x; intro _))
    | split | refine KeepsP.of_eq ?_ (by assumption) | dsimp +zetaDelta -zeta -iota -proj only

theorem Keeps.drainRows {s c t rows} (h : Keeps r s) : Keeps r (State.drainRows s c t rows) := by
  generalize hf : @State.drainRows = f; delta State.drainRows at hf; subst hf; beta_reduce
  with_reducible repeat' first
    | assumption | apply Keeps.modCore | apply Keeps.modEngine | (fail_if_no_progress apply Keeps.upd)
    | (refine Keeps.foldl ?_ ?_ _; rotate_left; intros; beta_reduce)
    | (extract_lets +onlyGivenNames -underBinder x; first | (refine Keeps.cut (s := x) (r := r) ?_ ?_; rotate_left; clear_value x; revert x; intro _ _; rotate_left; dsimp -zeta -iota -proj only [x]; clear x) | (clear_value x; revert x; intro _))

theorem Keeps.writeRows {s c t rows} (h : Keeps r s) : KeepsP r (State.writeRows s c t rows) := by
  generalize hf : @State.writeRows = f; delta State.writeRows at hf; subst hf; beta_reduce
  have hc0 := @Keeps.physWrite r; obtain ⟨g, hg⟩ : ∃ g, g = @State.physWrite := ⟨_, rfl⟩; rw [← hg] at hc0 ⊢; clear hg
  with_reducible repeat' first
    | assumption | apply hc0 | (fail_if_no_progress apply Keeps.upd)
    | (refine KeepsP.foldl ?_ ?_ _; rotate_left; intros; beta_reduce) | apply KeepsP.keeps
    | (extract_lets +onlyGivenNames -underBinder x; clear_value x; revert x; intro _) | split
    | exact KeepsP.keeps (p := (_, _)) (by assumption) | refine KeepsP.of_eq ?_ (by assumption) | apply KeepsP.pair

theorem Keeps.tileDone {r : State} {s : State} {c : Nat} {t : Tile} {p : Plane} {anchor : Int} (h : Keeps r s) :
    Keeps r (State.tileDone s c t p anchor) := by
  generalize hf : @State.tileDone = f; delta State.tileDone at hf; subst hf; beta_reduce
  with_reducible repeat' first
    | assumption | apply Keeps.dropHeld | apply Keeps.modEngine | (fail_if_no_progress apply Keeps.upd)

/-! ### Scalar -/

theorem Keeps.intOp {i c rd rs1 rs2 f s} (h : Keeps r s) : KeepsOut r (Machine.intOp i c rd rs1 rs2 f s) := by
  generalize hf : @Machine.intOp = f; delta Machine.intOp at hf; subst hf; beta_reduce
  with_reducible repeat' first
    | assumption | apply Keeps.issueAlu | apply KeepsOut.next

theorem Keeps.mulOp {i c rd rs1 rs2 f s} (h : Keeps r s) : KeepsOut r (Machine.mulOp i c rd rs1 rs2 f s) := by
  generalize hf : @Machine.mulOp = f; delta Machine.mulOp at hf; subst hf; beta_reduce
  with_reducible repeat' first
    | assumption | apply Keeps.issueAlu | apply KeepsOut.next

theorem Keeps.branchOp {i c rs1 rs2 imm taken s} (h : Keeps r s) :
    KeepsOut r (Machine.branchOp i c rs1 rs2 imm taken s) := by
  generalize hf : @Machine.branchOp = f; delta Machine.branchOp at hf; subst hf; beta_reduce
  with_reducible repeat' first
    | assumption | (refine Keeps.issue ?_ ?_; rotate_left; intros; beta_reduce) | apply KeepsOut.next
    | apply KeepsDid.done | apply Keeps.ite

/-! ### Vector -/

theorem Keeps.fpOp {i c vd va vb f s} (h : Keeps r s) : KeepsOut r (Machine.fpOp i c vd va vb f s) := by
  generalize hf : @Machine.fpOp = f; delta Machine.fpOp at hf; subst hf; beta_reduce
  with_reducible repeat' first
    | assumption | apply Keeps.issueVec | apply KeepsOut.next

theorem Keeps.laneOp {i c lane vd va vb f8 f32 s} (h : Keeps r s) :
    KeepsOut r (Machine.laneOp i c lane vd va vb f8 f32 s) := by
  generalize hf : @Machine.laneOp = f; delta Machine.laneOp at hf; subst hf; beta_reduce
  with_reducible repeat' first
    | assumption | apply Keeps.issueVec | apply KeepsOut.next | (fail_if_no_progress apply Keeps.upd) | split
    | refine KeepsP.of_eq ?_ (by assumption)

theorem Keeps.xuOp {i c op vd va f s} (h : Keeps r s) : KeepsOut r (Machine.xuOp i c op vd va f s) := by
  generalize hf : @Machine.xuOp = f; delta Machine.xuOp at hf; subst hf; beta_reduce
  with_reducible repeat' first
    | assumption | apply Keeps.issueVec | apply KeepsOut.next | (fail_if_no_progress apply Keeps.upd)

/-! ### Tick -/

theorem Keeps.tickBight {s before after b} (h : Keeps r s) : Keeps r (State.tickBight s before after b) := by
  generalize hf : @State.tickBight = f; delta State.tickBight at hf; subst hf; beta_reduce
  with_reducible repeat' first
    | assumption | apply Keeps.noteBusy | apply Keeps.bightCycle
    | apply Keeps.ite | (fail_if_no_progress apply Keeps.upd)
    | (refine Keeps.foldl ?_ ?_ _; rotate_left; intros; beta_reduce)
    | (refine KeepsP.foldl ?_ ?_ _; rotate_left; intros; beta_reduce)
    | apply KeepsP.keeps
    | (extract_lets +onlyGivenNames -underBinder x; first | (refine Keeps.cut (s := x) (r := r) ?_ ?_; rotate_left; clear_value x; revert x; intro _ _; rotate_left; dsimp -zeta -iota -proj only [x]; clear x) | (clear_value x; revert x; intro _))
    | split | exact KeepsP.keeps (p := (_, _)) (by assumption) | refine KeepsP.of_eq ?_ (by assumption)

theorem Keeps.staticTick {s i} (h : Keeps r s) : Keeps r (State.staticTick s i) := by
  generalize hf : @State.staticTick = f; delta State.staticTick at hf; subst hf; beta_reduce
  with_reducible repeat' first
    | assumption | apply Keeps.charge | apply Keeps.addModel
    | apply Keeps.ite | (fail_if_no_progress apply Keeps.upd)
    | (refine Keeps.foldl ?_ ?_ _; rotate_left; intros; beta_reduce)
    | (refine KeepsP.foldl ?_ ?_ _; rotate_left; intros; beta_reduce)
    | apply KeepsP.keeps
    | (extract_lets +onlyGivenNames -underBinder x; first | (refine Keeps.cut (s := x) (r := r) ?_ ?_; rotate_left; clear_value x; revert x; intro _ _; rotate_left; dsimp -zeta -iota -proj only [x]; clear x) | (clear_value x; revert x; intro _))
    | split | exact KeepsP.keeps (p := (_, _)) (by assumption) | refine KeepsP.of_eq ?_ (by assumption)

theorem Keeps.tickDomain {s before after i} (h : Keeps r s) : Keeps r (State.tickDomain s before after i) := by
  generalize hf : @State.tickDomain = f; delta State.tickDomain at hf; subst hf; beta_reduce
  with_reducible repeat' first
    | assumption | apply Keeps.staticTick | apply Keeps.activity
    | apply Keeps.ite | (fail_if_no_progress apply Keeps.upd)
    | (refine Keeps.foldl ?_ ?_ _; rotate_left; intros; beta_reduce)
    | (refine KeepsP.foldl ?_ ?_ _; rotate_left; intros; beta_reduce)
    | apply KeepsP.keeps
    | (extract_lets +onlyGivenNames -underBinder x; first | (refine Keeps.cut (s := x) (r := r) ?_ ?_; rotate_left; clear_value x; revert x; intro _ _; rotate_left; dsimp -zeta -iota -proj only [x]; clear x) | (clear_value x; revert x; intro _))
    | split | exact KeepsP.keeps (p := (_, _)) (by assumption) | refine KeepsP.of_eq ?_ (by assumption)

theorem Keeps.tickWear {s : State} (h : Keeps r s) : Keeps r s.tickWear := by
  unfold State.tickWear
  split
  · exact Keeps.upd h
  · exact h

theorem Keeps.noteBusy {s b} (h : Keeps r s) : Keeps r (State.noteBusy s b) := by
  generalize hf : @State.noteBusy = f; delta State.noteBusy at hf; subst hf; beta_reduce
  with_reducible repeat' first
    | assumption | apply Keeps.modBight
    | apply Keeps.ite | (fail_if_no_progress apply Keeps.upd)
    | (extract_lets +onlyGivenNames -underBinder x; first | (refine Keeps.cut (s := x) (r := r) ?_ ?_; rotate_left; clear_value x; revert x; intro _ _; rotate_left; dsimp -zeta -iota -proj only [x]; clear x) | (clear_value x; revert x; intro _))
    | split | exact KeepsP.keeps (p := (_, _)) (by assumption) | refine KeepsP.of_eq ?_ (by assumption)

theorem Keeps.resumeHeld {s} (h : Keeps r s) : Keeps r (State.resumeHeld s) := by
  generalize hf : @State.resumeHeld = f; delta State.resumeHeld at hf; subst hf; beta_reduce
  with_reducible repeat' first
    | assumption | apply Keeps.takeRecord | apply Keeps.takeReg | apply Keeps.aperture | apply Keeps.slotArm | apply Keeps.lashWith
    | apply Keeps.ite | (fail_if_no_progress apply Keeps.upd)
    | (refine Keeps.foldl ?_ ?_ _; rotate_left; intros; beta_reduce)
    | (refine KeepsP.foldl ?_ ?_ _; rotate_left; intros; beta_reduce)
    | apply KeepsP.keeps
    | (extract_lets +onlyGivenNames -underBinder x; first | (refine Keeps.cut (s := x) (r := r) ?_ ?_; rotate_left; clear_value x; revert x; intro _ _; rotate_left; dsimp -zeta -iota -proj only [x]; clear x) | (clear_value x; revert x; intro _))
    | split | exact KeepsP.keeps (p := (_, _)) (by assumption) | refine KeepsP.of_eq ?_ (by assumption)

theorem Keeps.flushPorts {r : State} {s : State} (h : Keeps r s) :
    Keeps r (State.flushPorts s) := by
  generalize hf : @State.flushPorts = f; delta State.flushPorts at hf; subst hf; beta_reduce
  repeat' (first | with_reducible assumption  | with_reducible apply Keeps.flushFlit | with_reducible apply Keeps.ite | with_reducible apply KeepsP.ite | fail_if_no_progress with_reducible apply Keeps.upd | with_reducible apply KeepsOut.next | exact trivial | with_reducible apply KeepsDid.done | with_reducible apply KeepsDid.raise | with_reducible apply KeepsDid.stall | (with_reducible refine Keeps.foldl ?_ ?_ _; rotate_left; intros; beta_reduce) | (with_reducible refine KeepsP.foldl ?_ ?_ _; rotate_left; intros; beta_reduce) | with_reducible apply KeepsP.keeps | (extract_lets +onlyGivenNames -underBinder x; first | (refine Keeps.cut (r := r) (s := x) ?_ ?_; rotate_left; clear_value x; revert x; intro _ _; rotate_left; dsimp -zeta -iota -proj only [x]; clear x) | (refine KeepsP.cut (r := r) (p := x) ?_ ?_; rotate_left; clear_value x; revert x; intro _ _; rotate_left; dsimp -zeta -iota -proj only [x]; clear x) | clear_value x) | split | exact KeepsP.keeps (p := (_, _)) (by assumption) | (refine KeepsP.of_eq ?_ (by assumption)) | dsimp +zetaDelta -zeta -iota -proj only | with_reducible apply KeepsP.pair)

theorem Keeps.tickRollback {s : State} (h : Keeps r s) : Keeps r s.tickRollback := by
  unfold State.tickRollback
  refine Keeps.ite (Keeps.updFuses h ?_) h
  exact ⟨rfl, Nat.le_succ _, id, fun _ => Nat.min_le_right _ _⟩

theorem Keeps.tick {s : State} : Keeps { s with now := s.now + 1 } (tick s) := by
  unfold Machine.tick
  refine Keeps.takeModbus (Keeps.flushPorts (Keeps.resumeHeld (Keeps.foldl (Keeps.tickTransit (Keeps.tickRollback
    (Keeps.tickWear (Keeps.foldl ?_ (fun _ _ h => Keeps.tickDomain h) _)))) (fun _ _ h => Keeps.noteBusy (Keeps.tickBight h)) _)))
  exact Keeps.upd (Keeps.refl _)

end Sys2Proof.Machine
end

