-- ==== Sys2Proof/Laws/KeepsExec.lean ====
section
/-! SUPPORT. Every command's meaning keeps what `Keeps` says, when it answers a next state. -/

set_option linter.all false

namespace Sys2Proof.Machine

variable {r : State}

/-! ### Links -/

theorem Keeps.execTrainingDone {port width firstLane s} (h : Keeps r s) :
    KeepsOut r (Machine.execTrainingDone port width firstLane s) := by
  generalize hf : @Machine.execTrainingDone = f; delta Machine.execTrainingDone at hf; subst hf; beta_reduce
  with_reducible repeat' first
    | assumption | apply Keeps.modPort | apply KeepsOut.next | apply Keeps.ite | (fail_if_no_progress apply Keeps.upd)

theorem Keeps.execTrainingTimeout {port s} (h : Keeps r s) : KeepsOut r (Machine.execTrainingTimeout port s) := by
  generalize hf : @Machine.execTrainingTimeout = f; delta Machine.execTrainingTimeout at hf; subst hf; beta_reduce
  with_reducible repeat' first
    | assumption | apply Keeps.portDown | apply KeepsOut.next | apply Keeps.ite

theorem Keeps.execDownRetry {port s} (h : Keeps r s) : KeepsOut r (Machine.execDownRetry port s) := by
  generalize hf : @Machine.execDownRetry = f; delta Machine.execDownRetry at hf; subst hf; beta_reduce
  with_reducible repeat' first
    | assumption | apply Keeps.startTraining | apply KeepsOut.next | apply Keeps.ite

theorem Keeps.execLinkErrorDown {port s} (h : Keeps r s) : KeepsOut r (Machine.execLinkErrorDown port s) := by
  generalize hf : @Machine.execLinkErrorDown = f; delta Machine.execLinkErrorDown at hf; subst hf; beta_reduce
  with_reducible repeat' first
    | assumption | apply Keeps.portDown | apply KeepsOut.next | apply Keeps.ite

theorem Keeps.execFlitReceived {port flit fec s} (h : Keeps r s) :
    KeepsOut r (Machine.execFlitReceived port flit fec s) := by
  generalize hf : @Machine.execFlitReceived = f; delta Machine.execFlitReceived at hf; subst hf; beta_reduce
  with_reducible repeat' first
    | assumption | apply Keeps.modPort | apply Keeps.openGap | apply Keeps.goodFlit | apply KeepsOut.next
    | apply Keeps.ite | (fail_if_no_progress apply Keeps.upd)
    | (extract_lets +onlyGivenNames -underBinder x; first | (refine Keeps.cut (s := x) (r := r) ?_ ?_; rotate_left; clear_value x; revert x; intro _ _; rotate_left; dsimp -zeta -iota -proj only [x]; clear x) | (clear_value x; revert x; intro _))
    | split | refine KeepsP.of_eq ?_ (by assumption)

theorem Keeps.execReplayTimeout {port s} (h : Keeps r s) : KeepsOut r (Machine.execReplayTimeout port s) := by
  generalize hf : @Machine.execReplayTimeout = f; delta Machine.execReplayTimeout at hf; subst hf; beta_reduce
  with_reducible repeat' first
    | assumption | apply Keeps.replayOrDown | apply KeepsOut.next | apply Keeps.ite

theorem Keeps.execReadReq {port s} (h : Keeps r s) : KeepsOut r (Machine.execReadReq port s) := KeepsOut.next (Keeps.answerInbound h)

theorem Keeps.execWrite {port s} (h : Keeps r s) : KeepsOut r (Machine.execWrite port s) := KeepsOut.next (Keeps.answerInbound h)

theorem Keeps.execReadData {port s} (h : Keeps r s) : KeepsOut r (Machine.execReadData port s) := KeepsOut.next (Keeps.takeResponse h)

theorem Keeps.execWriteDone {port s} (h : Keeps r s) : KeepsOut r (Machine.execWriteDone port s) := KeepsOut.next (Keeps.takeResponse h)

theorem Keeps.execNotReadyResend {req s} (h : Keeps r s) : KeepsOut r (Machine.execNotReadyResend req s) := by
  generalize hf : @Machine.execNotReadyResend = f; delta Machine.execNotReadyResend at hf; subst hf; beta_reduce
  with_reducible repeat' first
    | assumption | apply Keeps.faultRemote | apply Keeps.sendRemote | apply Keeps.modReq | apply Keeps.arriveReq | apply KeepsOut.next
    | apply Keeps.ite | (fail_if_no_progress apply Keeps.upd)
    | (extract_lets +onlyGivenNames -underBinder x; first | (refine Keeps.cut (s := x) (r := r) ?_ ?_; rotate_left; clear_value x; revert x; intro _ _; rotate_left; dsimp -zeta -iota -proj only [x]; clear x) | (clear_value x; revert x; intro _))
    | split | refine KeepsP.of_eq ?_ (by assumption)

theorem Keeps.execReduce {port s} (h : Keeps r s) : KeepsOut r (Machine.execReduce port s) := KeepsOut.next (Keeps.serveReduce h)

theorem Keeps.execCommitNotice {port s} (h : Keeps r s) : KeepsOut r (Machine.execCommitNotice port s) := by
  generalize hf : @Machine.execCommitNotice = f; delta Machine.execCommitNotice at hf; subst hf; beta_reduce
  with_reducible repeat' first
    | assumption | apply Keeps.takePacket | apply Keeps.countIgnored | apply Keeps.noticeAtSlot
    | apply Keeps.putContributor | apply KeepsOut.next | apply Keeps.ite | (fail_if_no_progress apply Keeps.upd)
    | (extract_lets +onlyGivenNames -underBinder x; first | (refine Keeps.cut (s := x) (r := r) ?_ ?_; rotate_left; clear_value x; revert x; intro _ _; rotate_left; dsimp -zeta -iota -proj only [x]; clear x) | (clear_value x; revert x; intro _))
    | split | refine KeepsP.of_eq ?_ (by assumption)

theorem Keeps.execWithdraw {port s} (h : Keeps r s) : KeepsOut r (Machine.execWithdraw port s) := by
  generalize hf : @Machine.execWithdraw = f; delta Machine.execWithdraw at hf; subst hf; beta_reduce
  with_reducible repeat' first
    | assumption | apply Keeps.takePacket | apply Keeps.countIgnored | apply Keeps.putContributor
    | apply KeepsOut.next | apply Keeps.ite | (fail_if_no_progress apply Keeps.upd)
    | (extract_lets +onlyGivenNames -underBinder x; first | (refine Keeps.cut (s := x) (r := r) ?_ ?_; rotate_left; clear_value x; revert x; intro _ _; rotate_left; dsimp -zeta -iota -proj only [x]; clear x) | (clear_value x; revert x; intro _))
    | split | refine KeepsP.of_eq ?_ (by assumption)

theorem Keeps.execAbandon {port s} (h : Keeps r s) : KeepsOut r (Machine.execAbandon port s) := by
  generalize hf : @Machine.execAbandon = f; delta Machine.execAbandon at hf; subst hf; beta_reduce
  with_reducible repeat' first
    | assumption | apply Keeps.takePacket | apply Keeps.failAlways | apply KeepsOut.next | apply Keeps.ite
    | (fail_if_no_progress apply Keeps.upd)
    | (extract_lets +onlyGivenNames -underBinder x; first | (refine Keeps.cut (s := x) (r := r) ?_ ?_; rotate_left; clear_value x; revert x; intro _ _; rotate_left; dsimp -zeta -iota -proj only [x]; clear x) | (clear_value x; revert x; intro _))
    | split | refine KeepsP.of_eq ?_ (by assumption)

theorem Keeps.execPace {port s} (h : Keeps r s) : KeepsOut r (Machine.execPace port s) := by
  generalize hf : @Machine.execPace = f; delta Machine.execPace at hf; subst hf; beta_reduce
  with_reducible repeat' first
    | assumption | apply Keeps.takePace | apply Keeps.lanCarry | apply Keeps.takePacket | apply Keeps.setPace | apply KeepsOut.next | apply Keeps.ite
    | (fail_if_no_progress apply Keeps.upd) | (refine Keeps.foldl ?_ ?_ _; rotate_left; intros; beta_reduce)
    | (refine KeepsP.foldl ?_ ?_ _; rotate_left; intros; beta_reduce)
    | (extract_lets +onlyGivenNames -underBinder x; first | (refine Keeps.cut (s := x) (r := r) ?_ ?_; rotate_left; clear_value x; revert x; intro _ _; rotate_left; dsimp -zeta -iota -proj only [x]; clear x) | (clear_value x; revert x; intro _))
    | split | exact KeepsP.keeps (p := (_, _)) (by assumption) | refine KeepsP.of_eq ?_ (by assumption)

theorem Keeps.execPaceNoticeExpiry {group member s} (h : Keeps r s) :
    KeepsOut r (Machine.execPaceNoticeExpiry group member s) := by
  generalize hf : @Machine.execPaceNoticeExpiry = f; delta Machine.execPaceNoticeExpiry at hf; subst hf; beta_reduce
  with_reducible repeat' first
    | assumption | apply Keeps.setPace | apply KeepsOut.next | apply Keeps.ite | (fail_if_no_progress apply Keeps.upd)
    | split | refine KeepsP.of_eq ?_ (by assumption)

theorem Keeps.execPaceHoldLimit {group s} (h : Keeps r s) : KeepsOut r (Machine.execPaceHoldLimit group s) := by
  generalize hf : @Machine.execPaceHoldLimit = f; delta Machine.execPaceHoldLimit at hf; subst hf; beta_reduce
  with_reducible repeat' first
    | assumption | apply Keeps.setPace | apply KeepsOut.next | apply Keeps.ite | (fail_if_no_progress apply Keeps.upd)

theorem Keeps.execTxKeyWrite {via port slot key s} (h : Keeps r s) :
    KeepsOut r (Machine.execTxKeyWrite via port slot key s) := KeepsOut.next (Keeps.objWrite h fun _ => Keeps.putTxKey)

theorem Keeps.execRxKeyWrite {via port slot key s} (h : Keeps r s) :
    KeepsOut r (Machine.execRxKeyWrite via port slot key s) := KeepsOut.next (Keeps.objWrite h fun _ => Keeps.putRxKey)

theorem Keeps.execTransmitSelection {via port value s} (h : Keeps r s) :
    KeepsOut r (Machine.execTransmitSelection via port value s) := KeepsOut.next (Keeps.objWrite h fun _ => Keeps.putTxSel)

theorem Keeps.execReceiveSlotInvalidate {via port value s} (h : Keeps r s) :
    KeepsOut r (Machine.execReceiveSlotInvalidate via port value s) := KeepsOut.next (Keeps.objWrite h fun _ => Keeps.putRxInvalid)

/-! ### Xlat -/

theorem Keeps.execContextTableWrite {via value s} (h : Keeps r s) :
    KeepsOut r (Machine.execContextTableWrite via value s) := KeepsOut.next (Keeps.objWrite h fun _ => Keeps.putContextTable)

theorem Keeps.execObjectTableWrite {via value s} (h : Keeps r s) :
    KeepsOut r (Machine.execObjectTableWrite via value s) := KeepsOut.next (Keeps.objWrite h fun _ => Keeps.putObjectTable)

theorem Keeps.execBatchClose {fn s} (h : Keeps r s) : KeepsOut r (Machine.execBatchClose fn s) := by
  generalize hf : @Machine.execBatchClose = f; delta Machine.execBatchClose at hf; subst hf; beta_reduce
  with_reducible repeat' first
    | assumption | apply Keeps.closeBatch | apply KeepsOut.next | apply Keeps.ite
    | (fail_if_no_progress apply Keeps.upd) | split | refine KeepsP.of_eq ?_ (by assumption)

theorem Keeps.execHeldFaultWrite {fn s} (h : Keeps r s) : KeepsOut r (Machine.execHeldFaultWrite fn s) := by
  generalize hf : @Machine.execHeldFaultWrite = f; delta Machine.execHeldFaultWrite at hf; subst hf; beta_reduce
  have hc0 := @Keeps.takeTag r; obtain ⟨g, hg⟩ : ∃ g, g = @State.takeTag := ⟨_, rfl⟩; rw [← hg] at hc0 ⊢; clear hg
  with_reducible repeat' first
    | assumption | apply hc0 | apply Keeps.ringRoom | apply Keeps.ringWrite | apply KeepsOut.next | apply Keeps.ite
    | apply KeepsP.ite | (fail_if_no_progress apply Keeps.upd) | apply KeepsP.keeps
    | (extract_lets +onlyGivenNames -underBinder x; first | (refine Keeps.cut (s := x) (r := r) ?_ ?_; rotate_left; clear_value x; revert x; intro _ _; rotate_left; dsimp -zeta -iota -proj only [x]; clear x) | (refine KeepsP.cut (p := x) (r := r) ?_ ?_; rotate_left; clear_value x; revert x; intro _ _; rotate_left; dsimp -zeta -iota -proj only [x]; clear x) | (clear_value x; revert x; intro _))
    | split | exact KeepsP.keeps (p := (_, _)) (by assumption) | refine KeepsP.of_eq ?_ (by assumption)
    | dsimp +zetaDelta -zeta -iota -proj only | apply KeepsP.pair

theorem Keeps.execFaultRingEnable {fn value s} (h : Keeps r s) :
    KeepsOut r (Machine.execFaultRingEnable fn value s) := by
  generalize hf : @Machine.execFaultRingEnable = f; delta Machine.execFaultRingEnable at hf; subst hf; beta_reduce
  with_reducible repeat' first
    | assumption | (refine Keeps.regWrite ?_ ?_; rotate_left; intros; beta_reduce) | apply Keeps.putRingBase
    | apply KeepsOut.next

theorem Keeps.execFaultRetry {fn tag s} (h : Keeps r s) : KeepsOut r (Machine.execFaultRetry fn tag s) := by
  generalize hf : @Machine.execFaultRetry = f; delta Machine.execFaultRetry at hf; subst hf; beta_reduce
  with_reducible repeat' first
    | assumption | apply Keeps.takeResolve | (refine Keeps.regWrite ?_ ?_; rotate_left; intros; beta_reduce) | apply Keeps.retryFault
    | apply Keeps.staleResolve | apply KeepsOut.next | (fail_if_no_progress apply Keeps.upd) | split
    | refine KeepsP.of_eq ?_ (by assumption)

theorem Keeps.execFaultFail {fn tag s} (h : Keeps r s) : KeepsOut r (Machine.execFaultFail fn tag s) := by
  generalize hf : @Machine.execFaultFail = f; delta Machine.execFaultFail at hf; subst hf; beta_reduce
  with_reducible repeat' first
    | assumption | apply Keeps.takeResolve | (refine Keeps.regWrite ?_ ?_; rotate_left; intros; beta_reduce) | apply Keeps.failFault
    | apply Keeps.staleResolve | apply KeepsOut.next | (fail_if_no_progress apply Keeps.upd) | split
    | refine KeepsP.of_eq ?_ (by assumption)

theorem Keeps.execInvalidateDrain {value s} (h : Keeps r s) : KeepsOut r (Machine.execInvalidateDrain value s) := by
  generalize hf : @Machine.execInvalidateDrain = f; delta Machine.execInvalidateDrain at hf; subst hf; beta_reduce
  with_reducible repeat' first
    | assumption | (refine Keeps.regWrite ?_ ?_; rotate_left; intros; beta_reduce) | apply Keeps.putInvCtrl
    | apply KeepsOut.next

theorem Keeps.execInvalidateAbort {value s} (h : Keeps r s) : KeepsOut r (Machine.execInvalidateAbort value s) := by
  generalize hf : @Machine.execInvalidateAbort = f; delta Machine.execInvalidateAbort at hf; subst hf; beta_reduce
  with_reducible repeat' first
    | assumption | (refine Keeps.regWrite ?_ ?_; rotate_left; intros; beta_reduce) | apply Keeps.putInvCtrl
    | apply KeepsOut.next

theorem Keeps.execInvalidationComplete {s} (h : Keeps r s) : KeepsOut r (Machine.execInvalidationComplete s) := by
  generalize hf : @Machine.execInvalidationComplete = f; delta Machine.execInvalidationComplete at hf; subst hf; beta_reduce
  with_reducible repeat' first
    | assumption | apply Keeps.invEnded | apply KeepsOut.next | (fail_if_no_progress apply Keeps.upd) | split
    | refine KeepsP.of_eq ?_ (by assumption)

theorem Keeps.execAccessNotification {die counter s} (h : Keeps r s) :
    KeepsOut r (Machine.execAccessNotification die counter s) := by
  generalize hf : @Machine.execAccessNotification = f; delta Machine.execAccessNotification at hf; subst hf; beta_reduce
  with_reducible repeat' first
    | assumption | apply Keeps.notify | apply KeepsOut.next | apply Keeps.ite | (fail_if_no_progress apply Keeps.upd)
    | (extract_lets +onlyGivenNames -underBinder x; first | (refine Keeps.cut (s := x) (r := r) ?_ ?_; rotate_left; clear_value x; revert x; intro _ _; rotate_left; dsimp -zeta -iota -proj only [x]; clear x) | (clear_value x; revert x; intro _))
    | split | refine KeepsP.of_eq ?_ (by assumption)

theorem Keeps.execInboundRequest {port s} (h : Keeps r s) : KeepsOut r (Machine.execInboundRequest port s) := KeepsOut.next (Keeps.serveInbound h)

theorem Keeps.execInboundCloseDrain {via window s} (h : Keeps r s) :
    KeepsOut r (Machine.execInboundCloseDrain via window s) := KeepsOut.next (Keeps.objWrite h fun _ => Keeps.putInState)

theorem Keeps.execInboundCloseAbort {via window s} (h : Keeps r s) :
    KeepsOut r (Machine.execInboundCloseAbort via window s) := KeepsOut.next (Keeps.objWrite h fun _ => Keeps.putInState)

theorem Keeps.execOutboundClose {via window s} (h : Keeps r s) :
    KeepsOut r (Machine.execOutboundClose via window s) := KeepsOut.next (Keeps.objWrite h fun _ => Keeps.putOutState)

theorem Keeps.execApertureAccess {r : State} {fn : Nat} {offset : Nat} {len : Nat} {data : Option Bytes} {s : State} (h : Keeps r s) :
    KeepsOut r (Machine.execApertureAccess fn offset len data s) := by
  generalize hf : @Machine.execApertureAccess = f; delta Machine.execApertureAccess at hf; subst hf; beta_reduce
  repeat' (first | with_reducible assumption  | with_reducible apply Keeps.send | with_reducible apply Keeps.apertureMiss | with_reducible apply Keeps.entryPort | with_reducible apply Keeps.aperture | with_reducible apply Keeps.ite | with_reducible apply KeepsP.ite | fail_if_no_progress with_reducible apply Keeps.upd | with_reducible apply KeepsOut.next | exact trivial | with_reducible apply KeepsDid.done | with_reducible apply KeepsDid.raise | with_reducible apply KeepsDid.stall | (with_reducible refine Keeps.foldl ?_ ?_ _; rotate_left; intros; beta_reduce) | (with_reducible refine KeepsP.foldl ?_ ?_ _; rotate_left; intros; beta_reduce) | with_reducible apply KeepsP.keeps | (extract_lets +onlyGivenNames -underBinder x; first | (refine Keeps.cut (r := r) (s := x) ?_ ?_; rotate_left; clear_value x; revert x; intro _ _; rotate_left; dsimp -zeta -iota -proj only [x]; clear x) | (refine KeepsP.cut (r := r) (p := x) ?_ ?_; rotate_left; clear_value x; revert x; intro _ _; rotate_left; dsimp -zeta -iota -proj only [x]; clear x) | clear_value x) | split | exact KeepsP.keeps (p := (_, _)) (by assumption) | (refine KeepsP.of_eq ?_ (by assumption)) | dsimp +zetaDelta -zeta -iota -proj only | with_reducible apply KeepsP.pair)

/-! ### Handoff -/

theorem Keeps.execSlotArm {via slot s} (h : Keeps r s) : KeepsOut r (Machine.execSlotArm via slot s) := KeepsOut.next (Keeps.objWrite h fun _ => Keeps.putSlotOp)

theorem Keeps.execSlotFree {via slot s} (h : Keeps r s) : KeepsOut r (Machine.execSlotFree via slot s) := KeepsOut.next (Keeps.objWrite h fun _ => Keeps.putSlotOp)

theorem Keeps.execSlotAbort {via slot s} (h : Keeps r s) : KeepsOut r (Machine.execSlotAbort via slot s) := KeepsOut.next (Keeps.objWrite h fun _ => Keeps.putSlotOp)

theorem Keeps.execHandoffRegionWrite {via value s} (h : Keeps r s) :
    KeepsOut r (Machine.execHandoffRegionWrite via value s) := KeepsOut.next (Keeps.objWrite h fun _ => Keeps.putHandoffRegion)

theorem Keeps.execOffer {port s} (h : Keeps r s) : KeepsOut r (Machine.execOffer port s) := by
  generalize hf : @Machine.execOffer = f; delta Machine.execOffer at hf; subst hf; beta_reduce
  with_reducible repeat' first
    | assumption | (refine Keeps.handoffPacket ?_ ?_; rotate_left; intros; beta_reduce) | apply Keeps.takeOffer
    | apply KeepsOut.next

theorem Keeps.execTaken {port s} (h : Keeps r s) : KeepsOut r (Machine.execTaken port s) := by
  generalize hf : @Machine.execTaken = f; delta Machine.execTaken at hf; subst hf; beta_reduce
  with_reducible repeat' first
    | assumption | (refine Keeps.handoffPacket ?_ ?_; rotate_left; intros; beta_reduce) | apply Keeps.takeTaken
    | apply KeepsOut.next

theorem Keeps.execRelease {port s} (h : Keeps r s) : KeepsOut r (Machine.execRelease port s) := by
  generalize hf : @Machine.execRelease = f; delta Machine.execRelease at hf; subst hf; beta_reduce
  with_reducible repeat' first
    | assumption | (refine Keeps.handoffPacket ?_ ?_; rotate_left; intros; beta_reduce) | apply Keeps.takeRelease
    | apply KeepsOut.next

theorem Keeps.execHandoffResend {slot s} (h : Keeps r s) : KeepsOut r (Machine.execHandoffResend slot s) := by
  generalize hf : @Machine.execHandoffResend = f; delta Machine.execHandoffResend at hf; subst hf; beta_reduce
  with_reducible repeat' first
    | assumption | apply Keeps.setSlot | apply Keeps.slotPacket | apply KeepsOut.next | apply Keeps.ite
    | (extract_lets +onlyGivenNames -underBinder x; first | (refine Keeps.cut (s := x) (r := r) ?_ ?_; rotate_left; clear_value x; revert x; intro _ _; rotate_left; dsimp -zeta -iota -proj only [x]; clear x) | (clear_value x; revert x; intro _))

theorem Keeps.execHandoffTimeout {slot s} (h : Keeps r s) : KeepsOut r (Machine.execHandoffTimeout slot s) := by
  generalize hf : @Machine.execHandoffTimeout = f; delta Machine.execHandoffTimeout at hf; subst hf; beta_reduce
  with_reducible repeat' first
    | assumption | apply Keeps.failAlways | apply Keeps.slotGo | apply KeepsOut.next | apply Keeps.ite
    | (fail_if_no_progress apply Keeps.upd)
    | (extract_lets +onlyGivenNames -underBinder x; first | (refine Keeps.cut (s := x) (r := r) ?_ ?_; rotate_left; clear_value x; revert x; intro _ _; rotate_left; dsimp -zeta -iota -proj only [x]; clear x) | (clear_value x; revert x; intro _))
    | split | refine KeepsP.of_eq ?_ (by assumption)

theorem Keeps.execHeldTimeout {slot s} (h : Keeps r s) : KeepsOut r (Machine.execHeldTimeout slot s) := by
  generalize hf : @Machine.execHeldTimeout = f; delta Machine.execHeldTimeout at hf; subst hf; beta_reduce
  with_reducible repeat' first
    | assumption | apply Keeps.slotGo | apply KeepsOut.next | apply Keeps.ite
    | (extract_lets +onlyGivenNames -underBinder x; clear_value x; revert x; intro _)

theorem Keeps.execQueryRepeat {slot s} (h : Keeps r s) : KeepsOut r (Machine.execQueryRepeat slot s) := by
  generalize hf : @Machine.execQueryRepeat = f; delta Machine.execQueryRepeat at hf; subst hf; beta_reduce
  with_reducible repeat' first
    | assumption | apply Keeps.slotGo | apply KeepsOut.next | apply Keeps.ite
    | (extract_lets +onlyGivenNames -underBinder x; clear_value x; revert x; intro _)

theorem Keeps.execPrefetchCopyDone {slot answer s} (h : Keeps r s) :
    KeepsOut r (Machine.execPrefetchCopyDone slot answer s) := by
  generalize hf : @Machine.execPrefetchCopyDone = f; delta Machine.execPrefetchCopyDone at hf; subst hf; beta_reduce
  with_reducible repeat' first
    | assumption | apply Keeps.forgetSteps | apply Keeps.copyVirt | apply Keeps.failCmd | apply Keeps.modCmd | apply KeepsOut.next
    | apply Keeps.ite | (fail_if_no_progress apply Keeps.upd)
    | (extract_lets +onlyGivenNames -underBinder x; clear_value x; revert x; intro _) | split
    | refine KeepsP.of_eq ?_ (by assumption)

theorem Keeps.execVerdict {via value s} (h : Keeps r s) : KeepsOut r (Machine.execVerdict via value s) := KeepsOut.next (Keeps.objWrite h fun _ => Keeps.putVerdict)

theorem Keeps.execZeroizeDone {slot s} (h : Keeps r s) : KeepsOut r (Machine.execZeroizeDone slot s) := by
  generalize hf : @Machine.execZeroizeDone = f; delta Machine.execZeroizeDone at hf; subst hf; beta_reduce
  with_reducible repeat' first
    | assumption | apply Keeps.zeroizeStep | apply Keeps.zeroPages | apply Keeps.postReport | apply Keeps.putSlot | apply KeepsOut.next
    | apply Keeps.ite | (fail_if_no_progress apply Keeps.upd)
    | (refine Keeps.foldl ?_ ?_ _; rotate_left; intros; beta_reduce)
    | (extract_lets +onlyGivenNames -underBinder x; first | (refine Keeps.cut (s := x) (r := r) ?_ ?_; rotate_left; clear_value x; revert x; intro _ _; rotate_left; dsimp -zeta -iota -proj only [x]; clear x) | (clear_value x; revert x; intro _))
    | split | exact KeepsP.keeps (p := (_, _)) (by assumption) | refine KeepsP.of_eq ?_ (by assumption)

theorem Keeps.execReportRemove {via value s} (h : Keeps r s) : KeepsOut r (Machine.execReportRemove via value s) := KeepsOut.next (Keeps.objWrite h fun _ => Keeps.putReportRemove)

/-! ### Sram -/

theorem Keeps.execSramWriteBack {cluster bank s} (h : Keeps r s) :
    KeepsOut r (Machine.execSramWriteBack cluster bank s) := by
  generalize hf : @Machine.execSramWriteBack = f; delta Machine.execSramWriteBack at hf; subst hf; beta_reduce
  with_reducible repeat' first
    | assumption | apply Keeps.activity | apply Keeps.putSram | apply KeepsOut.next | apply Keeps.ite
    | (fail_if_no_progress apply Keeps.upd) | apply KeepsP.keeps
    | (extract_lets +onlyGivenNames -underBinder x; first | (refine Keeps.cut (s := x) (r := r) ?_ ?_; rotate_left; clear_value x; revert x; intro _ _; rotate_left; dsimp -zeta -iota -proj only [x]; clear x) | (clear_value x; revert x; intro _))
    | split | refine KeepsP.of_eq ?_ (by assumption)

theorem Keeps.execPrunerRead {cluster bank s} (h : Keeps r s) :
    KeepsOut r (Machine.execPrunerRead cluster bank s) := by
  generalize hf : @Machine.execPrunerRead = f; delta Machine.execPrunerRead at hf; subst hf; beta_reduce
  with_reducible repeat' first
    | assumption | apply Keeps.activity | apply Keeps.readSram | apply KeepsOut.next | apply Keeps.ite
    | (fail_if_no_progress apply Keeps.upd) | apply KeepsP.keeps
    | (extract_lets +onlyGivenNames -underBinder x; first | (refine Keeps.cut (s := x) (r := r) ?_ ?_; rotate_left; clear_value x; revert x; intro _ _; rotate_left; dsimp -zeta -iota -proj only [x]; clear x) | (clear_value x; revert x; intro _))
    | split | refine KeepsP.of_eq ?_ (by assumption)

theorem Keeps.execMemerr {n s} (h : Keeps r s) : KeepsOut r (Machine.execMemerr n s) := by
  generalize hf : @Machine.execMemerr = f; delta Machine.execMemerr at hf; subst hf; beta_reduce
  with_reducible repeat' first
    | assumption | refine Keeps.lanTake ?_ (by assumption) | apply Keeps.noteBadWord | apply Keeps.countBad
    | apply Keeps.modGroup | apply KeepsOut.next | apply Keeps.ite | (fail_if_no_progress apply Keeps.upd)
    | (extract_lets +onlyGivenNames -underBinder x; first | (refine Keeps.cut (s := x) (r := r) ?_ ?_; rotate_left; clear_value x; revert x; intro _ _; rotate_left; dsimp -zeta -iota -proj only [x]; clear x) | (clear_value x; revert x; intro _))
    | split | refine KeepsP.of_eq ?_ (by assumption)

theorem Keeps.execSelfPolicyRetire {region s} (h : Keeps r s) :
    KeepsOut r (Machine.execSelfPolicyRetire region s) := by
  generalize hf : @Machine.execSelfPolicyRetire = f; delta Machine.execSelfPolicyRetire at hf; subst hf; beta_reduce
  with_reducible repeat' first
    | assumption | apply Keeps.retireOnce | apply KeepsOut.next | apply Keeps.ite
    | (extract_lets +onlyGivenNames -underBinder x; clear_value x; revert x; intro _)

theorem Keeps.execRetire {via value s} (h : Keeps r s) : KeepsOut r (Machine.execRetire via value s) := KeepsOut.next (Keeps.objWrite h fun _ => Keeps.putRetire)

theorem Keeps.execFlipArm {cluster value s} (h : Keeps r s) : KeepsOut r (Machine.execFlipArm cluster value s) := by
  generalize hf : @Machine.execFlipArm = f; delta Machine.execFlipArm at hf; subst hf; beta_reduce
  with_reducible repeat' first
    | assumption | (refine Keeps.regWrite ?_ ?_; rotate_left; intros; beta_reduce) | apply Keeps.putFlipHi
    | apply KeepsOut.next | apply Keeps.ite

/-! ### Mesh -/

theorem Keeps.execVectorArrival {n s} (h : Keeps r s) : KeepsOut r (Machine.execVectorArrival n s) := by
  generalize hf : @Machine.execVectorArrival = f; delta Machine.execVectorArrival at hf; subst hf; beta_reduce
  with_reducible repeat' first
    | assumption | apply Keeps.deliverFlight | apply KeepsOut.next | (fail_if_no_progress apply Keeps.upd) | split
    | refine KeepsP.of_eq ?_ (by assumption)

theorem Keeps.execClockRatioChange {half div s} (h : Keeps r s) :
    KeepsOut r (Machine.execClockRatioChange half div s) := by
  generalize hf : @Machine.execClockRatioChange = f; delta Machine.execClockRatioChange at hf; subst hf; beta_reduce
  with_reducible repeat' first
    | assumption | apply Keeps.beginRatio | apply Keeps.relayCrossing | apply KeepsOut.next | apply Keeps.ite
    | (fail_if_no_progress apply Keeps.upd)
    | (extract_lets +onlyGivenNames -underBinder x; clear_value x; revert x; intro _)

theorem Keeps.execAck {n bad s} (h : Keeps r s) : KeepsOut r (Machine.execAck n bad s) := by
  generalize hf : @Machine.execAck = f; delta Machine.execAck at hf; subst hf; beta_reduce
  with_reducible repeat' first
    | assumption | apply KeepsP.keeps | apply Keeps.freeNat | refine Keeps.lanTake ?_ (by assumption) | apply KeepsOut.next | apply Keeps.ite
    | (fail_if_no_progress apply Keeps.upd) | split | refine KeepsP.of_eq ?_ (by assumption)

/-! ### Lash -/

theorem Keeps.execLash {via addr answer s} (h : Keeps r s) : KeepsOut r (Machine.execLash via addr answer s) := KeepsOut.next (Keeps.objWrite h fun _ => Keeps.putLash)

theorem Keeps.execLashComplete {bight s} (h : Keeps r s) : KeepsOut r (Machine.execLashComplete bight s) := by
  generalize hf : @Machine.execLashComplete = f; delta Machine.execLashComplete at hf; subst hf; beta_reduce
  with_reducible repeat' first
    | assumption | apply Keeps.relashAll | apply Keeps.switchCircuits | apply Keeps.switchBanks | apply Keeps.modBight
    | apply Keeps.reportLash | apply KeepsOut.next | apply Keeps.ite | (fail_if_no_progress apply Keeps.upd)
    | (extract_lets +onlyGivenNames -underBinder x; first | (refine Keeps.cut (s := x) (r := r) ?_ ?_; rotate_left; clear_value x; revert x; intro _ _; rotate_left; dsimp -zeta -iota -proj only [x]; clear x) | (clear_value x; revert x; intro _))

theorem Keeps.execHedgeWrite {via bight value s} (h : Keeps r s) :
    KeepsOut r (Machine.execHedgeWrite via bight value s) := by
  generalize hf : @Machine.execHedgeWrite = f; delta Machine.execHedgeWrite at hf; subst hf; beta_reduce
  have hc0 := @Keeps.putHedge r; obtain ⟨g, hg⟩ : ∃ g, g = @Machine.putHedge := ⟨_, rfl⟩; rw [← hg] at hc0 ⊢; clear hg
  with_reducible repeat' first
    | assumption | (refine Keeps.objWrite ?_ ?_; rotate_left; intros; beta_reduce) | apply hc0 | apply KeepsOut.next
    | apply Keeps.ite | (fail_if_no_progress apply Keeps.upd) | apply KeepsP.keeps | split
    | exact KeepsP.keeps (p := (_, _)) (by assumption) | refine KeepsP.of_eq ?_ (by assumption)
    | dsimp +zetaDelta -zeta -iota -proj only | apply KeepsP.pair

theorem Keeps.execRelash {queue s} (h : Keeps r s) : KeepsOut r (Machine.execRelash queue s) := by
  generalize hf : @Machine.execRelash = f; delta Machine.execRelash at hf; subst hf; beta_reduce
  with_reducible repeat' first
    | assumption | apply Keeps.checkRelash | apply KeepsOut.next | apply Keeps.ite
    | (fail_if_no_progress apply Keeps.upd) | split | refine KeepsP.of_eq ?_ (by assumption)

theorem Keeps.execPrepare {bight half s} (h : Keeps r s) : KeepsOut r (Machine.execPrepare bight half s) := by
  generalize hf : @Machine.execPrepare = f; delta Machine.execPrepare at hf; subst hf; beta_reduce
  with_reducible repeat' first
    | assumption | apply Keeps.forgetSteps | apply Keeps.readShape | apply Keeps.cancelRelash | apply Keeps.relashMsg | apply Keeps.relashAll | apply Keeps.loadBanks
    | apply KeepsOut.next | apply Keeps.ite | (fail_if_no_progress apply Keeps.upd)
    | (extract_lets +onlyGivenNames -underBinder x; clear_value x; revert x; intro _) | split
    | refine KeepsP.of_eq ?_ (by assumption)

theorem Keeps.execQuiesce {bight s} (h : Keeps r s) : KeepsOut r (Machine.execQuiesce bight s) := by
  generalize hf : @Machine.execQuiesce = f; delta Machine.execQuiesce at hf; subst hf; beta_reduce
  with_reducible repeat' first
    | assumption | apply Keeps.setBight | apply Keeps.holdWait | apply Keeps.relashMsg | apply Keeps.relashAll | apply Keeps.relashKill
    | apply KeepsOut.next | apply Keeps.ite | (fail_if_no_progress apply Keeps.upd)
    | (refine Keeps.foldl ?_ ?_ _; rotate_left; intros; beta_reduce)
    | (refine KeepsP.foldl ?_ ?_ _; rotate_left; intros; beta_reduce) | apply KeepsP.keeps
    | (extract_lets +onlyGivenNames -underBinder x; first | (refine Keeps.cut (s := x) (r := r) ?_ ?_; rotate_left; clear_value x; revert x; intro _ _; rotate_left; dsimp -zeta -iota -proj only [x]; clear x) | (clear_value x; revert x; intro _))
    | split | exact KeepsP.keeps (p := (_, _)) (by assumption) | refine KeepsP.of_eq ?_ (by assumption)

theorem Keeps.execDrainLimit {bight s} (h : Keeps r s) : KeepsOut r (Machine.execDrainLimit bight s) := by
  generalize hf : @Machine.execDrainLimit = f; delta Machine.execDrainLimit at hf; subst hf; beta_reduce
  with_reducible repeat' first
    | assumption | apply Keeps.relashKill | apply KeepsOut.next | apply Keeps.ite
    | (fail_if_no_progress apply Keeps.upd)
    | (extract_lets +onlyGivenNames -underBinder x; clear_value x; revert x; intro _) | split
    | refine KeepsP.of_eq ?_ (by assumption)

theorem Keeps.execCommitBoundary {bight s} (h : Keeps r s) : KeepsOut r (Machine.execCommitBoundary bight s) := by
  generalize hf : @Machine.execCommitBoundary = f; delta Machine.execCommitBoundary at hf; subst hf; beta_reduce
  with_reducible repeat' first
    | assumption | apply Keeps.switchover | apply Keeps.setBight | apply KeepsOut.next | apply Keeps.ite
    | (fail_if_no_progress apply Keeps.upd)
    | (extract_lets +onlyGivenNames -underBinder x; clear_value x; revert x; intro _) | split
    | refine KeepsP.of_eq ?_ (by assumption)

theorem Keeps.execSwitch {bight s} (h : Keeps r s) : KeepsOut r (Machine.execSwitch bight s) := by
  generalize hf : @Machine.execSwitch = f; delta Machine.execSwitch at hf; subst hf; beta_reduce
  with_reducible repeat' first
    | assumption | apply Keeps.relashMsg | apply Keeps.relashAll | apply Keeps.switchover | apply KeepsOut.next | apply Keeps.ite
    | (fail_if_no_progress apply Keeps.upd) | (refine Keeps.foldl ?_ ?_ _; rotate_left; intros; beta_reduce)
    | (refine KeepsP.foldl ?_ ?_ _; rotate_left; intros; beta_reduce)
    | (extract_lets +onlyGivenNames -underBinder x; clear_value x; revert x; intro _) | split
    | exact KeepsP.keeps (p := (_, _)) (by assumption) | refine KeepsP.of_eq ?_ (by assumption)

theorem Keeps.execResume {bight s} (h : Keeps r s) : KeepsOut r (Machine.execResume bight s) := by
  generalize hf : @Machine.execResume = f; delta Machine.execResume at hf; subst hf; beta_reduce
  with_reducible repeat' first
    | assumption | apply Keeps.leaveOld | apply Keeps.switchover | apply Keeps.setBight | apply Keeps.relashMsg | apply Keeps.relashAll | apply Keeps.dueClear | apply KeepsOut.next
    | apply Keeps.ite | (fail_if_no_progress apply Keeps.upd)
    | (refine Keeps.foldl ?_ ?_ _; rotate_left; intros; beta_reduce)
    | (refine KeepsP.foldl ?_ ?_ _; rotate_left; intros; beta_reduce)
    | (extract_lets +onlyGivenNames -underBinder x; first | (refine Keeps.cut (s := x) (r := r) ?_ ?_; rotate_left; clear_value x; revert x; intro _ _; rotate_left; dsimp -zeta -iota -proj only [x]; clear x) | (clear_value x; revert x; intro _))
    | split | exact KeepsP.keeps (p := (_, _)) (by assumption) | refine KeepsP.of_eq ?_ (by assumption)

theorem Keeps.execCancel {bight s} (h : Keeps r s) : KeepsOut r (Machine.execCancel bight s) := by
  generalize hf : @Machine.execCancel = f; delta Machine.execCancel at hf; subst hf; beta_reduce
  with_reducible repeat' first
    | assumption | apply Keeps.relashMsg | apply Keeps.relashAll | apply Keeps.undoRelash | apply KeepsOut.next | apply Keeps.ite
    | (fail_if_no_progress apply Keeps.upd) | (refine Keeps.foldl ?_ ?_ _; rotate_left; intros; beta_reduce)
    | (refine KeepsP.foldl ?_ ?_ _; rotate_left; intros; beta_reduce) | split
    | exact KeepsP.keeps (p := (_, _)) (by assumption) | refine KeepsP.of_eq ?_ (by assumption)

theorem Keeps.execClear {bight half s} (h : Keeps r s) : KeepsOut r (Machine.execClear bight half s) := by
  generalize hf : @Machine.execClear = f; delta Machine.execClear at hf; subst hf; beta_reduce
  with_reducible repeat' first
    | assumption | apply Keeps.ownersGo | apply Keeps.relashMsg | apply Keeps.relashAll | apply Keeps.clearHalf | apply KeepsOut.next
    | apply Keeps.ite | (extract_lets +onlyGivenNames -underBinder x; clear_value x; revert x; intro _)

theorem Keeps.execBightRelease {via value s} (h : Keeps r s) : KeepsOut r (Machine.execBightRelease via value s) := KeepsOut.next (Keeps.objWrite h fun _ => Keeps.putRelease)

theorem Keeps.execReleaseComplete {bight s} (h : Keeps r s) : KeepsOut r (Machine.execReleaseComplete bight s) := by
  generalize hf : @Machine.execReleaseComplete = f; delta Machine.execReleaseComplete at hf; subst hf; beta_reduce
  with_reducible repeat' first
    | assumption | apply Keeps.ownersGo | apply Keeps.reportLash | apply Keeps.freeBight | apply KeepsOut.next
    | apply Keeps.ite | (extract_lets +onlyGivenNames -underBinder x; clear_value x; revert x; intro _)

theorem Keeps.execIdleLow {bight s} (h : Keeps r s) : KeepsOut r (Machine.execIdleLow bight s) := by
  generalize hf : @Machine.execIdleLow = f; delta Machine.execIdleLow at hf; subst hf; beta_reduce
  with_reducible repeat' first
    | assumption | apply Keeps.reqDom | apply Keeps.modBight | apply KeepsOut.next | apply Keeps.ite
    | (fail_if_no_progress apply Keeps.upd) | (refine Keeps.foldl ?_ ?_ _; rotate_left; intros; beta_reduce)
    | (extract_lets +onlyGivenNames -underBinder x; first | (refine Keeps.cut (s := x) (r := r) ?_ ?_; rotate_left; clear_value x; revert x; intro _ _; rotate_left; dsimp -zeta -iota -proj only [x]; clear x) | (clear_value x; revert x; intro _))

/-! ### Queues -/

theorem Keeps.execIrqCauseClear {fn value s} (h : Keeps r s) : KeepsOut r (Machine.execIrqCauseClear fn value s) := by
  generalize hf : @Machine.execIrqCauseClear = f; delta Machine.execIrqCauseClear at hf; subst hf; beta_reduce
  with_reducible repeat' first
    | assumption | (refine Keeps.regWrite ?_ ?_; rotate_left; intros; beta_reduce) | apply Keeps.putIrqCause
    | apply KeepsOut.next | apply Keeps.ite

theorem Keeps.execFunctionPortWrite {via fn value s} (h : Keeps r s) :
    KeepsOut r (Machine.execFunctionPortWrite via fn value s) := by
  generalize hf : @Machine.execFunctionPortWrite = f; delta Machine.execFunctionPortWrite at hf; subst hf; beta_reduce
  with_reducible repeat' first
    | assumption | (refine Keeps.objWrite ?_ ?_; rotate_left; intros; beta_reduce) | apply Keeps.putFunctionPort
    | apply KeepsOut.next | apply Keeps.ite

theorem Keeps.execQueueCreate {via addr answer s} (h : Keeps r s) :
    KeepsOut r (Machine.execQueueCreate via addr answer s) := KeepsOut.next (Keeps.objWrite h fun _ => Keeps.putQueueRecord)

theorem Keeps.execQueueDestroy {via addr answer s} (h : Keeps r s) :
    KeepsOut r (Machine.execQueueDestroy via addr answer s) := KeepsOut.next (Keeps.objWrite h fun _ => Keeps.putQueueRecord)

theorem Keeps.execQueueStop {via addr answer s} (h : Keeps r s) :
    KeepsOut r (Machine.execQueueStop via addr answer s) := KeepsOut.next (Keeps.objWrite h fun _ => Keeps.putQueueRecord)

theorem Keeps.execQueueStart {via addr answer s} (h : Keeps r s) :
    KeepsOut r (Machine.execQueueStart via addr answer s) := KeepsOut.next (Keeps.objWrite h fun _ => Keeps.putQueueRecord)

theorem Keeps.execDoorbell {fn localQ value s} (h : Keeps r s) :
    KeepsOut r (Machine.execDoorbell fn localQ value s) := by
  generalize hf : @Machine.execDoorbell = f; delta Machine.execDoorbell at hf; subst hf; beta_reduce
  with_reducible repeat' first
    | assumption | (refine Keeps.regWrite ?_ ?_; rotate_left; intros; beta_reduce) | apply Keeps.ringDoorbell
    | apply KeepsOut.next | apply Keeps.ite

theorem Keeps.execDescriptorFetch {queue answer s} (h : Keeps r s) :
    KeepsOut r (Machine.execDescriptorFetch queue answer s) := by
  generalize hf : @Machine.execDescriptorFetch = f; delta Machine.execDescriptorFetch at hf; subst hf; beta_reduce
  with_reducible repeat' first
    | assumption | apply Keeps.send | apply Keeps.fetchError | apply Keeps.takeDescriptor | apply KeepsOut.next
    | apply Keeps.ite | (fail_if_no_progress apply Keeps.upd)
    | (extract_lets +onlyGivenNames -underBinder x; first | (refine Keeps.cut (s := x) (r := r) ?_ ?_; rotate_left; clear_value x; revert x; intro _ _; rotate_left; dsimp -zeta -iota -proj only [x]; clear x) | (clear_value x; revert x; intro _))
    | split | refine KeepsP.of_eq ?_ (by assumption)

theorem Keeps.execFenceCreate {via addr answer s} (h : Keeps r s) :
    KeepsOut r (Machine.execFenceCreate via addr answer s) := KeepsOut.next (Keeps.objWrite h fun _ => Keeps.putFenceRecord)

theorem Keeps.execFenceDestroy {via addr answer s} (h : Keeps r s) :
    KeepsOut r (Machine.execFenceDestroy via addr answer s) := KeepsOut.next (Keeps.objWrite h fun _ => Keeps.putFenceRecord)

theorem Keeps.execErrorFenceWrite {via bight value s} (h : Keeps r s) :
    KeepsOut r (Machine.execErrorFenceWrite via bight value s) := by
  generalize hf : @Machine.execErrorFenceWrite = f; delta Machine.execErrorFenceWrite at hf; subst hf; beta_reduce
  with_reducible repeat' first
    | assumption | (refine Keeps.objWrite ?_ ?_; rotate_left; intros; beta_reduce) | apply Keeps.putErrorFence
    | apply KeepsOut.next | apply Keeps.ite

theorem Keeps.execContextTeardown {via addr answer s} (h : Keeps r s) :
    KeepsOut r (Machine.execContextTeardown via addr answer s) := KeepsOut.next (Keeps.objWrite h fun _ => Keeps.putTeardownRecord)

theorem Keeps.execTeardownComplete {asid s} (h : Keeps r s) : KeepsOut r (Machine.execTeardownComplete asid s) := by
  generalize hf : @Machine.execTeardownComplete = f; delta Machine.execTeardownComplete at hf; subst hf; beta_reduce
  with_reducible repeat' first
    | assumption | apply Keeps.removalStep | apply Keeps.cause | apply Keeps.reportOp | apply KeepsOut.next
    | apply Keeps.ite | (fail_if_no_progress apply Keeps.upd) | apply KeepsP.keeps
    | (extract_lets +onlyGivenNames -underBinder x; first | (refine Keeps.cut (s := x) (r := r) ?_ ?_; rotate_left; clear_value x; revert x; intro _ _; rotate_left; dsimp -zeta -iota -proj only [x]; clear x) | (clear_value x; revert x; intro _))

theorem Keeps.execFunctionLevelReset {fn s} (h : Keeps r s) : KeepsOut r (Machine.execFunctionLevelReset fn s) := by
  generalize hf : @Machine.execFunctionLevelReset = f; delta Machine.execFunctionLevelReset at hf; subst hf; beta_reduce
  with_reducible repeat' first
    | assumption | apply Keeps.beginFlr | apply KeepsOut.next | apply Keeps.ite
    | (fail_if_no_progress apply Keeps.upd)

theorem Keeps.execFlrFunction0 {s} (h : Keeps r s) : KeepsOut r (Machine.execFlrFunction0 s) := by
  generalize hf : @Machine.execFlrFunction0 = f; delta Machine.execFlrFunction0 at hf; subst hf; beta_reduce
  with_reducible repeat' first
    | assumption | apply Keeps.reset | apply Keeps.beginFlr | apply Keeps.releaseAll | apply Keeps.closeWindows | apply Keeps.invalidate
    | apply KeepsOut.next | apply Keeps.ite | (fail_if_no_progress apply Keeps.upd)
    | (refine Keeps.foldl ?_ ?_ _; rotate_left; intros; beta_reduce)
    | (extract_lets +onlyGivenNames -underBinder x; first | (refine Keeps.cut (s := x) (r := r) ?_ ?_; rotate_left; clear_value x; revert x; intro _ _; rotate_left; dsimp -zeta -iota -proj only [x]; clear x) | (clear_value x; revert x; intro _))
    | split | exact KeepsP.keeps (p := (_, _)) (by assumption) | refine KeepsP.of_eq ?_ (by assumption)

theorem Keeps.execPcieCompletion {req answer s} (h : Keeps r s) :
    KeepsOut r (Machine.execPcieCompletion req answer s) := by
  generalize hf : @Machine.execPcieCompletion = f; delta Machine.execPcieCompletion at hf; subst hf; beta_reduce
  with_reducible repeat' first
    | assumption | apply Keeps.aer | apply Keeps.bootArrive | apply Keeps.arriveReq | apply KeepsOut.next | apply Keeps.ite
    | (fail_if_no_progress apply Keeps.upd) | split | refine KeepsP.of_eq ?_ (by assumption)

theorem Keeps.execCompletionTimeout {req s} (h : Keeps r s) : KeepsOut r (Machine.execCompletionTimeout req s) := by
  generalize hf : @Machine.execCompletionTimeout = f; delta Machine.execCompletionTimeout at hf; subst hf; beta_reduce
  with_reducible repeat' first
    | assumption | apply Keeps.aer | apply Keeps.bootArrive | apply Keeps.arriveReq | apply KeepsOut.next | apply Keeps.ite
    | (fail_if_no_progress apply Keeps.upd) | split | refine KeepsP.of_eq ?_ (by assumption)

theorem Keeps.execPcieLinkDown {port s} (h : Keeps r s) : KeepsOut r (Machine.execPcieLinkDown port s) := by
  generalize hf : @Machine.execPcieLinkDown = f; delta Machine.execPcieLinkDown at hf; subst hf; beta_reduce
  with_reducible repeat' first
    | assumption | apply Keeps.pcieDown | apply KeepsOut.next | apply Keeps.ite

/-! ### Hbm -/

theorem Keeps.execSelfPolicyHbmLow {stack s} (h : Keeps r s) : KeepsOut r (Machine.execSelfPolicyHbmLow stack s) := by
  generalize hf : @Machine.execSelfPolicyHbmLow = f; delta Machine.execSelfPolicyHbmLow at hf; subst hf; beta_reduce
  with_reducible repeat' first
    | assumption | apply Keeps.reqDom | apply KeepsOut.next | apply Keeps.ite
    | (extract_lets +onlyGivenNames -underBinder x; clear_value x; revert x; intro _) | split
    | refine KeepsP.of_eq ?_ (by assumption)

theorem Keeps.execGateRelease {r : State} {group : Nat} {s : State} (h : Keeps r s) :
    KeepsOut r (Machine.execGateRelease group s) := by
  generalize hf : @Machine.execGateRelease = f; delta Machine.execGateRelease at hf; subst hf; beta_reduce
  repeat' (first | with_reducible assumption  | with_reducible apply Keeps.dequeue | with_reducible apply Keeps.arriveReq | with_reducible apply Keeps.setGroup | with_reducible apply Keeps.serveReq | with_reducible apply Keeps.wakeStack | with_reducible apply Keeps.ite | with_reducible apply KeepsP.ite | fail_if_no_progress with_reducible apply Keeps.upd | with_reducible apply KeepsOut.next | exact trivial | with_reducible apply KeepsDid.done | with_reducible apply KeepsDid.raise | with_reducible apply KeepsDid.stall | (with_reducible refine Keeps.foldl ?_ ?_ _; rotate_left; intros; beta_reduce) | (with_reducible refine KeepsP.foldl ?_ ?_ _; rotate_left; intros; beta_reduce) | with_reducible apply KeepsP.keeps | (extract_lets +onlyGivenNames -underBinder x; first | (refine Keeps.cut (r := r) (s := x) ?_ ?_; rotate_left; clear_value x; revert x; intro _ _; rotate_left; dsimp -zeta -iota -proj only [x]; clear x) | (refine KeepsP.cut (r := r) (p := x) ?_ ?_; rotate_left; clear_value x; revert x; intro _ _; rotate_left; dsimp -zeta -iota -proj only [x]; clear x) | clear_value x) | split | exact KeepsP.keeps (p := (_, _)) (by assumption) | (refine KeepsP.of_eq ?_ (by assumption)) | dsimp +zetaDelta -zeta -iota -proj only | with_reducible apply KeepsP.pair)

theorem Keeps.execHbmWriteBack {group s} (h : Keeps r s) : KeepsOut r (Machine.execHbmWriteBack group s) := by
  generalize hf : @Machine.execHbmWriteBack = f; delta Machine.execHbmWriteBack at hf; subst hf; beta_reduce
  with_reducible repeat' first
    | assumption | apply Keeps.modGroup | apply Keeps.putHbm | apply KeepsOut.next | apply Keeps.ite
    | (fail_if_no_progress apply Keeps.upd)
    | (extract_lets +onlyGivenNames -underBinder x; first | (refine Keeps.cut (s := x) (r := r) ?_ ?_; rotate_left; clear_value x; revert x; intro _ _; rotate_left; dsimp -zeta -iota -proj only [x]; clear x) | (clear_value x; revert x; intro _))
    | split | refine KeepsP.of_eq ?_ (by assumption)

theorem Keeps.execPatrolRead {r : State} {group : Nat} {s : State} (h : Keeps r s) :
    KeepsOut r (Machine.execPatrolRead group s) := by
  generalize hf : @Machine.execPatrolRead = f; delta Machine.execPatrolRead at hf; subst hf; beta_reduce
  repeat' (first | with_reducible assumption  | with_reducible apply Keeps.setGroup | with_reducible apply Keeps.readCw | with_reducible apply Keeps.modGroup | with_reducible apply Keeps.ite | with_reducible apply KeepsP.ite | fail_if_no_progress with_reducible apply Keeps.upd | with_reducible apply KeepsOut.next | exact trivial | with_reducible apply KeepsDid.done | with_reducible apply KeepsDid.raise | with_reducible apply KeepsDid.stall | (with_reducible refine Keeps.foldl ?_ ?_ _; rotate_left; intros; beta_reduce) | (with_reducible refine KeepsP.foldl ?_ ?_ _; rotate_left; intros; beta_reduce) | with_reducible apply KeepsP.keeps | (extract_lets +onlyGivenNames -underBinder x; first | (refine Keeps.cut (r := r) (s := x) ?_ ?_; rotate_left; clear_value x; revert x; intro _ _; rotate_left; dsimp -zeta -iota -proj only [x]; clear x) | (refine KeepsP.cut (r := r) (p := x) ?_ ?_; rotate_left; clear_value x; revert x; intro _ _; rotate_left; dsimp -zeta -iota -proj only [x]; clear x) | clear_value x) | split | exact KeepsP.keeps (p := (_, _)) (by assumption) | (refine KeepsP.of_eq ?_ (by assumption)) | dsimp +zetaDelta -zeta -iota -proj only | with_reducible apply KeepsP.pair)

theorem Keeps.execRefreshSample {group halfDegrees s} (h : Keeps r s) :
    KeepsOut r (Machine.execRefreshSample group halfDegrees s) := by
  generalize hf : @Machine.execRefreshSample = f; delta Machine.execRefreshSample at hf; subst hf; beta_reduce
  with_reducible repeat' first
    | assumption | apply Keeps.tripAt | apply Keeps.freeNat | apply KeepsP.keeps | apply Keeps.scaleFloors | apply Keeps.modGroup | apply KeepsOut.next | apply Keeps.ite
    | (fail_if_no_progress apply Keeps.upd)
    | (extract_lets +onlyGivenNames -underBinder x; first | (refine Keeps.cut (s := x) (r := r) ?_ ?_; rotate_left; clear_value x; revert x; intro _ _; rotate_left; dsimp -zeta -iota -proj only [x]; clear x) | (clear_value x; revert x; intro _))

theorem Keeps.execGateSetting {via value s} (h : Keeps r s) : KeepsOut r (Machine.execGateSetting via value s) := KeepsOut.next (Keeps.objWrite h fun _ => Keeps.putGateSetting)

/-! ### Power -/

theorem Keeps.execPowerWindow {w s} (h : Keeps r s) : KeepsOut r (Machine.execPowerWindow w s) := by
  generalize hf : @Machine.execPowerWindow = f; delta Machine.execPowerWindow at hf; subst hf; beta_reduce
  with_reducible repeat' first
    | assumption | apply Keeps.inputWindow | apply Keeps.railWindow | apply Keeps.scaleAll | apply KeepsOut.next
    | apply Keeps.ite | (fail_if_no_progress apply Keeps.upd)
    | (refine Keeps.foldl ?_ ?_ _; rotate_left; intros; beta_reduce)
    | (extract_lets +onlyGivenNames -underBinder x; first | (refine Keeps.cut (s := x) (r := r) ?_ ?_; rotate_left; clear_value x; revert x; intro _ _; rotate_left; dsimp -zeta -iota -proj only [x]; clear x) | (clear_value x; revert x; intro _))
    | split | exact KeepsP.keeps (p := (_, _)) (by assumption) | refine KeepsP.of_eq ?_ (by assumption)

theorem Keeps.execLimit {n s} (h : Keeps r s) : KeepsOut r (Machine.execLimit n s) := by
  generalize hf : @Machine.execLimit = f; delta Machine.execLimit at hf; subst hf; beta_reduce
  with_reducible repeat' first
    | assumption | refine Keeps.takePower ?_ (by assumption) | apply KeepsOut.next
    | (fail_if_no_progress apply Keeps.upd) | split | refine KeepsP.of_eq ?_ (by assumption)

theorem Keeps.execTrimRun {r : State} {s : State} (h : Keeps r s) :
    KeepsOut r (Machine.execTrimRun s) := by
  generalize hf : @Machine.execTrimRun = f; delta Machine.execTrimRun at hf; subst hf; beta_reduce
  with_reducible repeat' first
    | assumption | apply Keeps.dropShares | apply Keeps.setTCap | apply Keeps.trimUp | apply Keeps.trimDown
    | apply Keeps.noteUnmet | apply Keeps.scaleAll | apply Keeps.retune | apply KeepsOut.next | apply Keeps.ite
    | (fail_if_no_progress apply Keeps.upd)
    | (extract_lets +onlyGivenNames -underBinder x; first | (refine Keeps.cut (s := x) (r := r) ?_ ?_; rotate_left; clear_value x; revert x; intro _ _; rotate_left; dsimp -zeta -iota -proj only [x]; clear x) | (clear_value x; revert x; intro _))
    | split | refine KeepsP.of_eq ?_ (by assumption)

theorem Keeps.execCapWrite {via value s} (h : Keeps r s) : KeepsOut r (Machine.execCapWrite via value s) := KeepsOut.next (Keeps.objWrite h fun _ => Keeps.putCap)

theorem Keeps.execTrim {mhz s} (h : Keeps r s) : KeepsOut r (Machine.execTrim mhz s) := by
  generalize hf : @Machine.execTrim = f; delta Machine.execTrim at hf; subst hf; beta_reduce
  with_reducible repeat' first
    | assumption | apply KeepsOut.next | apply Keeps.ite | (fail_if_no_progress apply Keeps.upd)
    | (refine Keeps.foldl ?_ ?_ _; rotate_left; intros; beta_reduce)
    | (refine KeepsP.foldl ?_ ?_ _; rotate_left; intros; beta_reduce)
    | (extract_lets +onlyGivenNames -underBinder x; first | (refine Keeps.cut (s := x) (r := r) ?_ ?_; rotate_left; clear_value x; revert x; intro _ _; rotate_left; dsimp -zeta -iota -proj only [x]; clear x) | (clear_value x; revert x; intro _))
    | split | exact KeepsP.keeps (p := (_, _)) (by assumption) | refine KeepsP.of_eq ?_ (by assumption)

theorem Keeps.execFixedFrequencyWrite {via value s} (h : Keeps r s) :
    KeepsOut r (Machine.execFixedFrequencyWrite via value s) := KeepsOut.next (Keeps.objWrite h fun _ => Keeps.putFixedFreq)

theorem Keeps.execDroop {half cycles s} (h : Keeps r s) : KeepsOut r (Machine.execDroop half cycles s) := by
  generalize hf : @Machine.execDroop = f; delta Machine.execDroop at hf; subst hf; beta_reduce
  with_reducible repeat' first
    | assumption | apply KeepsOut.next | apply Keeps.ite | (fail_if_no_progress apply Keeps.upd)
    | (extract_lets +onlyGivenNames -underBinder x; clear_value x; revert x; intro _) | split
    | refine KeepsP.of_eq ?_ (by assumption)

theorem Keeps.execWearUnit {r s : State} {die : Nat} (h : Keeps r s) : KeepsOut r (execWearUnit die s) := by
  unfold Machine.execWearUnit
  refine KeepsOut.next (Keeps.ite (Keeps.retune (Keeps.updFuses (Keeps.upd h) ?_)) h)
  refine ⟨rfl, Nat.le_refl _, id, fun d => ?_⟩
  have hp : min 4096 (s.wearOf die + 1) ≠ 0 := by omega
  show _ ≤ Tab.look 0 (Tab.put 0 s.fuses.wear die (min 4096 (s.wearOf die + 1))) d
  by_cases hd : d = die
  · subst hd
    simp only [Tab.put, if_neg hp, Tab.look, Tab.find?_set_same, Option.getD_some]
    simp only [State.wearOf, Tab.look]
    omega
  · rw [Tab.look_put_other 0 _ hd]
    exact Nat.min_le_right _ _

theorem Keeps.execJunctionSample {r : State} {halfDegrees : List Int} {s : State} (h : Keeps r s) :
    KeepsOut r (Machine.execJunctionSample halfDegrees s) := by
  generalize hf : @Machine.execJunctionSample = f; delta Machine.execJunctionSample at hf; subst hf; beta_reduce
  repeat' (first | with_reducible assumption  | with_reducible apply Keeps.halfSample | with_reducible apply Keeps.thermalLoop | with_reducible apply Keeps.coolDown | with_reducible apply Keeps.retune | with_reducible apply Keeps.scaleAll | with_reducible apply Keeps.tripAt | with_reducible apply Keeps.ite | with_reducible apply KeepsP.ite | fail_if_no_progress with_reducible apply Keeps.upd | with_reducible apply KeepsOut.next | exact trivial | with_reducible apply KeepsDid.done | with_reducible apply KeepsDid.raise | with_reducible apply KeepsDid.stall | (with_reducible refine Keeps.foldl ?_ ?_ _; rotate_left; intros; beta_reduce) | (with_reducible refine KeepsP.foldl ?_ ?_ _; rotate_left; intros; beta_reduce) | with_reducible apply KeepsP.keeps | (extract_lets +onlyGivenNames -underBinder x; first | (refine Keeps.cut (r := r) (s := x) ?_ ?_; rotate_left; clear_value x; revert x; intro _ _; rotate_left; dsimp -zeta -iota -proj only [x]; clear x) | (refine KeepsP.cut (r := r) (p := x) ?_ ?_; rotate_left; clear_value x; revert x; intro _ _; rotate_left; dsimp -zeta -iota -proj only [x]; clear x) | clear_value x) | split | exact KeepsP.keeps (p := (_, _)) (by assumption) | (refine KeepsP.of_eq ?_ (by assumption)) | dsimp +zetaDelta -zeta -iota -proj only | with_reducible apply KeepsP.pair)

theorem Keeps.execThermal {r s : State} {n : Nat} (h : Keeps r s) : KeepsOut r (execThermal n s) := by
  unfold Machine.execThermal
  refine KeepsOut.next ?_
  cases e : s.takePower n 5 with
  | none => exact h
  | some t => exact Keeps.takePower h e

theorem Keeps.execTrip {location halfDegrees s} (h : Keeps r s) :
    KeepsOut r (Machine.execTrip location halfDegrees s) := by
  generalize hf : @Machine.execTrip = f; delta Machine.execTrip at hf; subst hf; beta_reduce
  with_reducible repeat' first
    | assumption | apply Keeps.tripAt | apply Keeps.event | apply Keeps.tripMessages | apply Keeps.tripActions | apply Keeps.rootstockCause | apply KeepsOut.next
    | apply Keeps.ite | (fail_if_no_progress apply Keeps.upd)
    | (extract_lets +onlyGivenNames -underBinder x; first | (refine Keeps.cut (s := x) (r := r) ?_ ?_; rotate_left; clear_value x; revert x; intro _ _; rotate_left; dsimp -zeta -iota -proj only [x]; clear x) | (clear_value x; revert x; intro _))

theorem Keeps.execSupplySample {centivolts s} (h : Keeps r s) :
    KeepsOut r (Machine.execSupplySample centivolts s) := by
  generalize hf : @Machine.execSupplySample = f; delta Machine.execSupplySample at hf; subst hf; beta_reduce
  with_reducible repeat' first
    | assumption | apply KeepsOut.next | apply Keeps.ite | (fail_if_no_progress apply Keeps.upd)
    | (extract_lets +onlyGivenNames -underBinder x; first | (refine Keeps.cut (s := x) (r := r) ?_ ?_; rotate_left; clear_value x; revert x; intro _ _; rotate_left; dsimp -zeta -iota -proj only [x]; clear x) | (clear_value x; revert x; intro _))

theorem Keeps.execReefEnter {s} (h : Keeps r s) : KeepsOut r (Machine.execReefEnter s) := by
  generalize hf : @Machine.execReefEnter = f; delta Machine.execReefEnter at hf; subst hf; beta_reduce
  with_reducible repeat' first
    | assumption | apply Keeps.enterReef | apply KeepsOut.next

theorem Keeps.execReefExit {s} (h : Keeps r s) : KeepsOut r (Machine.execReefExit s) := by
  generalize hf : @Machine.execReefExit = f; delta Machine.execReefExit at hf; subst hf; beta_reduce
  with_reducible repeat' first
    | assumption | apply Keeps.reefEnds | apply Keeps.scaleAll | apply Keeps.announce | apply KeepsOut.next
    | apply Keeps.ite
    | (extract_lets +onlyGivenNames -underBinder x; first | (refine Keeps.cut (s := x) (r := r) ?_ ?_; rotate_left; clear_value x; revert x; intro _ _; rotate_left; dsimp -zeta -iota -proj only [x]; clear x) | (clear_value x; revert x; intro _))

/-! ### Rootstock -/

theorem Keeps.execRootstockEntry {s} (h : Keeps r s) : KeepsOut r (Machine.execRootstockEntry s) := by
  generalize hf : @Machine.execRootstockEntry = f; delta Machine.execRootstockEntry at hf; subst hf; beta_reduce
  with_reducible repeat' first
    | assumption | apply Keeps.enterRootstock | apply Keeps.enterImage | apply KeepsOut.next | apply Keeps.ite
    | (extract_lets +onlyGivenNames -underBinder x; clear_value x; revert x; intro _)

theorem Keeps.execErrorsWindowExpiry {s} (h : Keeps r s) : KeepsOut r (Machine.execErrorsWindowExpiry s) := by
  generalize hf : @Machine.execErrorsWindowExpiry = f; delta Machine.execErrorsWindowExpiry at hf; subst hf; beta_reduce
  with_reducible repeat' first
    | assumption | apply KeepsOut.next | apply Keeps.ite | (fail_if_no_progress apply Keeps.upd)
    | (extract_lets +onlyGivenNames -underBinder x; clear_value x; revert x; intro _)

theorem Keeps.execRootstockExit {via value s} (h : Keeps r s) :
    KeepsOut r (Machine.execRootstockExit via value s) := KeepsOut.next (Keeps.objWrite h fun _ => Keeps.putExit)

theorem Keeps.execEventLogRemove {via value s} (h : Keeps r s) :
    KeepsOut r (Machine.execEventLogRemove via value s) := KeepsOut.next (Keeps.objWrite h fun _ => Keeps.putEventRemove)

/-! ### Boot -/

theorem Keeps.execBootGo {port value s} (h : Keeps r s) : KeepsOut r (Machine.execBootGo port value s) := by
  generalize hf : @Machine.execBootGo = f; delta Machine.execBootGo at hf; subst hf; beta_reduce
  with_reducible repeat' first
    | assumption | apply Keeps.bootGo | apply KeepsOut.next | apply Keeps.ite

theorem Keeps.execImageVerified {r : State} {s : State} (h : Keeps r s) :
    KeepsOut r (Machine.execImageVerified s) := by
  generalize hf : @Machine.execImageVerified = f; delta Machine.execImageVerified at hf; subst hf; beta_reduce
  with_reducible repeat' first
    | assumption | apply Keeps.judgeToken | apply Keeps.acceptImage | apply Keeps.rejectImage | apply KeepsOut.next
    | apply Keeps.ite | (fail_if_no_progress apply Keeps.upd)
    | (extract_lets +onlyGivenNames -underBinder x; first | (refine Keeps.cut (s := x) (r := r) ?_ ?_; rotate_left; clear_value x; revert x; intro _ _; rotate_left; dsimp -zeta -iota -proj only [x]; clear x) | (clear_value x; revert x; intro _))
    | split | refine KeepsP.of_eq ?_ (by assumption)

theorem Keeps.execReady {r : State} {failedStacks : BitVec 32} {s : State} (h : Keeps r s) :
    KeepsOut r (Machine.execReady failedStacks s) := by
  generalize hf : @Machine.execReady = f; delta Machine.execReady at hf; subst hf; beta_reduce
  repeat' (first | with_reducible assumption  | with_reducible apply Keeps.bringUp | with_reducible apply Keeps.event | with_reducible apply Keeps.cause | with_reducible apply Keeps.ite | with_reducible apply KeepsP.ite | fail_if_no_progress with_reducible apply Keeps.upd | with_reducible apply KeepsOut.next | exact trivial | with_reducible apply KeepsDid.done | with_reducible apply KeepsDid.raise | with_reducible apply KeepsDid.stall | (with_reducible refine Keeps.foldl ?_ ?_ _; rotate_left; intros; beta_reduce) | (with_reducible refine KeepsP.foldl ?_ ?_ _; rotate_left; intros; beta_reduce) | with_reducible apply KeepsP.keeps | (extract_lets +onlyGivenNames -underBinder x; first | (refine Keeps.cut (r := r) (s := x) ?_ ?_; rotate_left; clear_value x; revert x; intro _ _; rotate_left; dsimp -zeta -iota -proj only [x]; clear x) | (refine KeepsP.cut (r := r) (p := x) ?_ ?_; rotate_left; clear_value x; revert x; intro _ _; rotate_left; dsimp -zeta -iota -proj only [x]; clear x) | clear_value x) | split | exact KeepsP.keeps (p := (_, _)) (by assumption) | (refine KeepsP.of_eq ?_ (by assumption)) | dsimp +zetaDelta -zeta -iota -proj only | with_reducible apply KeepsP.pair)

theorem Keeps.execDebugDisable {via value s} (h : Keeps r s) : KeepsOut r (Machine.execDebugDisable via value s) := KeepsOut.next (Keeps.objWrite h fun _ => Keeps.putDebugDisable)

theorem Keeps.execReportRequest {via nonce s} (h : Keeps r s) :
    KeepsOut r (Machine.execReportRequest via nonce s) := KeepsOut.next (Keeps.objWrite h fun _ => Keeps.putReportRequest)

theorem Keeps.execReportReady {r : State} {s : State} (h : Keeps r s) :
    KeepsOut r (Machine.execReportReady s) := by
  generalize hf : @Machine.execReportReady = f; delta Machine.execReportReady at hf; subst hf; beta_reduce
  repeat' (first | with_reducible assumption  | with_reducible apply Keeps.signPair | with_reducible apply Keeps.ite | with_reducible apply KeepsP.ite | fail_if_no_progress with_reducible apply Keeps.upd | with_reducible apply KeepsOut.next | exact trivial | with_reducible apply KeepsDid.done | with_reducible apply KeepsDid.raise | with_reducible apply KeepsDid.stall | (with_reducible refine Keeps.foldl ?_ ?_ _; rotate_left; intros; beta_reduce) | (with_reducible refine KeepsP.foldl ?_ ?_ _; rotate_left; intros; beta_reduce) | with_reducible apply KeepsP.keeps | (extract_lets +onlyGivenNames -underBinder x; first | (refine Keeps.cut (r := r) (s := x) ?_ ?_; rotate_left; clear_value x; revert x; intro _ _; rotate_left; dsimp -zeta -iota -proj only [x]; clear x) | (refine KeepsP.cut (r := r) (p := x) ?_ ?_; rotate_left; clear_value x; revert x; intro _ _; rotate_left; dsimp -zeta -iota -proj only [x]; clear x) | clear_value x) | split | exact KeepsP.keeps (p := (_, _)) (by assumption) | (refine KeepsP.of_eq ?_ (by assumption)) | dsimp +zetaDelta -zeta -iota -proj only | with_reducible apply KeepsP.pair)

/-! ### CoreMem -/

theorem Keeps.execLd {i size rd rs1 imm s} (h : Keeps r s) : KeepsOut r (Machine.execLd i size rd rs1 imm s) := by
  generalize hf : @Machine.execLd = f; delta Machine.execLd at hf; subst hf; beta_reduce
  with_reducible repeat' first
    | assumption | apply Keeps.loadScalar | apply KeepsOut.next

theorem Keeps.execLdu {i size rd rs1 imm s} (h : Keeps r s) : KeepsOut r (Machine.execLdu i size rd rs1 imm s) := by
  generalize hf : @Machine.execLdu = f; delta Machine.execLdu at hf; subst hf; beta_reduce
  with_reducible repeat' first
    | assumption | apply Keeps.loadScalar | apply KeepsOut.next

theorem Keeps.execSt {i size rs2 rs1 imm s} (h : Keeps r s) : KeepsOut r (Machine.execSt i size rs2 rs1 imm s) := by
  generalize hf : @Machine.execSt = f; delta Machine.execSt at hf; subst hf; beta_reduce
  with_reducible repeat' first
    | assumption | (refine Keeps.issue ?_ ?_; rotate_left; intros; beta_reduce) | apply Keeps.storeAt
    | apply KeepsOut.next | (extract_lets +onlyGivenNames -underBinder x; clear_value x; revert x; intro _)

theorem Keeps.execVld {i vd rs1 imm s} (h : Keeps r s) : KeepsOut r (Machine.execVld i vd rs1 imm s) := by
  generalize hf : @Machine.execVld = f; delta Machine.execVld at hf; subst hf; beta_reduce
  with_reducible repeat' first
    | assumption | (refine Keeps.issue ?_ ?_; rotate_left; intros; beta_reduce) | apply Keeps.loadAt
    | apply KeepsOut.next

theorem Keeps.execVst {i vs rs1 imm s} (h : Keeps r s) : KeepsOut r (Machine.execVst i vs rs1 imm s) := by
  generalize hf : @Machine.execVst = f; delta Machine.execVst at hf; subst hf; beta_reduce
  with_reducible repeat' first
    | assumption | (refine Keeps.issue ?_ ?_; rotate_left; intros; beta_reduce) | apply Keeps.storeAt
    | apply KeepsOut.next

theorem Keeps.execVldPi {i vd rs1 imm s} (h : Keeps r s) : KeepsOut r (Machine.execVldPi i vd rs1 imm s) := by
  generalize hf : @Machine.execVldPi = f; delta Machine.execVldPi at hf; subst hf; beta_reduce
  with_reducible repeat' first
    | assumption | (refine Keeps.issue ?_ ?_; rotate_left; intros; beta_reduce) | apply Keeps.loadAt
    | apply KeepsOut.next

theorem Keeps.execVstPi {i vs rs1 imm s} (h : Keeps r s) : KeepsOut r (Machine.execVstPi i vs rs1 imm s) := by
  generalize hf : @Machine.execVstPi = f; delta Machine.execVstPi at hf; subst hf; beta_reduce
  with_reducible repeat' first
    | assumption | (refine Keeps.issue ?_ ?_; rotate_left; intros; beta_reduce) | apply Keeps.storeAt
    | apply KeepsOut.next

theorem Keeps.execVldBc {i vd rs1 imm s} (h : Keeps r s) : KeepsOut r (Machine.execVldBc i vd rs1 imm s) := by
  generalize hf : @Machine.execVldBc = f; delta Machine.execVldBc at hf; subst hf; beta_reduce
  with_reducible repeat' first
    | assumption | (refine Keeps.issue ?_ ?_; rotate_left; intros; beta_reduce) | apply Keeps.loadAt
    | apply KeepsOut.next

theorem Keeps.execAmoadd {i rd rs1 rs2 s} (h : Keeps r s) : KeepsOut r (Machine.execAmoadd i rd rs1 rs2 s) := by
  generalize hf : @Machine.execAmoadd = f; delta Machine.execAmoadd at hf; subst hf; beta_reduce
  with_reducible repeat' first
    | assumption | apply Keeps.amoOp | apply KeepsOut.next

theorem Keeps.execAmoswap {i rd rs1 rs2 s} (h : Keeps r s) : KeepsOut r (Machine.execAmoswap i rd rs1 rs2 s) := by
  generalize hf : @Machine.execAmoswap = f; delta Machine.execAmoswap at hf; subst hf; beta_reduce
  with_reducible repeat' first
    | assumption | apply Keeps.amoOp | apply KeepsOut.next

theorem Keeps.execAmomax {i rd rs1 rs2 s} (h : Keeps r s) : KeepsOut r (Machine.execAmomax i rd rs1 rs2 s) := by
  generalize hf : @Machine.execAmomax = f; delta Machine.execAmomax at hf; subst hf; beta_reduce
  with_reducible repeat' first
    | assumption | apply Keeps.amoOp | apply KeepsOut.next | apply Keeps.ite

theorem Keeps.execAmocas {i rd rs1 rs2 s} (h : Keeps r s) : KeepsOut r (Machine.execAmocas i rd rs1 rs2 s) := by
  generalize hf : @Machine.execAmocas = f; delta Machine.execAmocas at hf; subst hf; beta_reduce
  with_reducible repeat' first
    | assumption | apply Keeps.amoOp | apply KeepsOut.next | apply Keeps.ite

theorem Keeps.execFarAccessDone {core req s} (h : Keeps r s) : KeepsOut r (Machine.execFarAccessDone core req s) := by
  generalize hf : @Machine.execFarAccessDone = f; delta Machine.execFarAccessDone at hf; subst hf; beta_reduce
  with_reducible repeat' first
    | assumption | apply Keeps.setCore | apply Keeps.dropReq | apply Keeps.failCmd | apply Keeps.modCore
    | apply Keeps.raise | apply KeepsOut.next | apply Keeps.ite | (fail_if_no_progress apply Keeps.upd)
    | (extract_lets +onlyGivenNames -underBinder x; clear_value x; revert x; intro _) | split
    | refine KeepsP.of_eq ?_ (by assumption)

theorem Keeps.execFenceFar {i s} (h : Keeps r s) : KeepsOut r (Machine.execFenceFar i s) := by
  generalize hf : @Machine.execFenceFar = f; delta Machine.execFenceFar at hf; subst hf; beta_reduce
  with_reducible repeat' first
    | assumption | apply Keeps.raise | (refine Keeps.issue ?_ ?_; rotate_left; intros; beta_reduce) | apply KeepsOut.next
    | apply KeepsDid.done | apply KeepsDid.raise | apply KeepsDid.stall | apply Keeps.ite
    | (fail_if_no_progress apply Keeps.upd) | split | refine KeepsP.of_eq ?_ (by assumption)

/-! ### CoreNet -/

theorem Keeps.execSend {i handle vs s} (h : Keeps r s) : KeepsOut r (Machine.execSend i handle vs s) := by
  generalize hf : @Machine.execSend = f; delta Machine.execSend at hf; subst hf; beta_reduce
  with_reducible repeat' first
    | assumption | apply Keeps.raise | apply Keeps.send | (refine Keeps.issue ?_ ?_; rotate_left; intros; beta_reduce) | apply Keeps.modCore
    | apply KeepsOut.next | apply KeepsDid.done | apply KeepsDid.raise | apply KeepsDid.stall | apply Keeps.ite
    | (fail_if_no_progress apply Keeps.upd) | apply KeepsP.keeps
    | (extract_lets +onlyGivenNames -underBinder x; first | (refine Keeps.cut (s := x) (r := r) ?_ ?_; rotate_left; clear_value x; revert x; intro _ _; rotate_left; dsimp -zeta -iota -proj only [x]; clear x) | (refine KeepsP.cut (p := x) (r := r) ?_ ?_; rotate_left; clear_value x; revert x; intro _ _; rotate_left; dsimp -zeta -iota -proj only [x]; clear x) | (clear_value x; revert x; intro _))
    | split | exact KeepsP.keeps (p := (_, _)) (by assumption) | refine KeepsP.of_eq ?_ (by assumption)
    | dsimp +zetaDelta -zeta -iota -proj only | apply KeepsP.pair

theorem Keeps.execRecv {i vd handle s} (h : Keeps r s) : KeepsOut r (Machine.execRecv i vd handle s) := by
  generalize hf : @Machine.execRecv = f; delta Machine.execRecv at hf; subst hf; beta_reduce
  with_reducible repeat' first
    | assumption | apply Keeps.raise | (refine Keeps.issue ?_ ?_; rotate_left; intros; beta_reduce) | apply Keeps.modCore
    | apply KeepsOut.next | apply KeepsDid.done | apply KeepsDid.raise | apply KeepsDid.stall | apply Keeps.ite
    | (fail_if_no_progress apply Keeps.upd)
    | (extract_lets +onlyGivenNames -underBinder x; clear_value x; revert x; intro _) | split
    | refine KeepsP.of_eq ?_ (by assumption)

theorem Keeps.execQpush {i q vs word s} (h : Keeps r s) : KeepsOut r (Machine.execQpush i q vs word s) := by
  generalize hf : @Machine.execQpush = f; delta Machine.execQpush at hf; subst hf; beta_reduce
  with_reducible repeat' first
    | assumption | apply Keeps.raise | (refine Keeps.issue ?_ ?_; rotate_left; intros; beta_reduce) | apply Keeps.modCore
    | apply KeepsOut.next | apply KeepsDid.done | apply KeepsDid.raise | apply KeepsDid.stall | apply Keeps.ite
    | (fail_if_no_progress apply Keeps.upd) | apply KeepsP.keeps | split
    | exact KeepsP.keeps (p := (_, _)) (by assumption) | refine KeepsP.of_eq ?_ (by assumption)
    | dsimp +zetaDelta -zeta -iota -proj only | apply KeepsP.pair

theorem Keeps.execQpop {i vd q word s} (h : Keeps r s) : KeepsOut r (Machine.execQpop i vd q word s) := by
  generalize hf : @Machine.execQpop = f; delta Machine.execQpop at hf; subst hf; beta_reduce
  with_reducible repeat' first
    | assumption | apply Keeps.raise | (refine Keeps.issue ?_ ?_; rotate_left; intros; beta_reduce) | apply Keeps.modCore
    | apply KeepsOut.next | apply KeepsDid.done | apply KeepsDid.raise | apply KeepsDid.stall | apply Keeps.ite
    | (fail_if_no_progress apply Keeps.upd) | split | refine KeepsP.of_eq ?_ (by assumption)

theorem Keeps.execCsrr {i rd csr s} (h : Keeps r s) : KeepsOut r (Machine.execCsrr i rd csr s) := by
  generalize hf : @Machine.execCsrr = f; delta Machine.execCsrr at hf; subst hf; beta_reduce
  with_reducible repeat' first
    | assumption | apply Keeps.raise | (refine Keeps.issue ?_ ?_; rotate_left; intros; beta_reduce) | apply Keeps.modCore
    | apply KeepsOut.next | apply KeepsDid.done | apply KeepsDid.raise | (fail_if_no_progress apply Keeps.upd) | split
    | refine KeepsP.of_eq ?_ (by assumption)

theorem Keeps.execCsrw {i csr rs1 s} (h : Keeps r s) : KeepsOut r (Machine.execCsrw i csr rs1 s) := by
  generalize hf : @Machine.execCsrw = f; delta Machine.execCsrw at hf; subst hf; beta_reduce
  with_reducible repeat' first
    | assumption | apply Keeps.raise | (refine Keeps.issue ?_ ?_; rotate_left; intros; beta_reduce) | apply Keeps.modCore
    | apply KeepsOut.next | apply KeepsDid.done | apply KeepsDid.raise | (fail_if_no_progress apply Keeps.upd)
    | (extract_lets +onlyGivenNames -underBinder x; clear_value x; revert x; intro _) | split
    | refine KeepsP.of_eq ?_ (by assumption)

theorem Keeps.execCbar {i mask s} (h : Keeps r s) : KeepsOut r (Machine.execCbar i mask s) := by
  generalize hf : @Machine.execCbar = f; delta Machine.execCbar at hf; subst hf; beta_reduce
  with_reducible repeat' first
    | assumption | (refine Keeps.issue ?_ ?_; rotate_left; intros; beta_reduce) | apply Keeps.modCore
    | apply Keeps.releaseBarrier | apply KeepsOut.next | apply KeepsDid.done | apply KeepsDid.stall | apply Keeps.ite
    | (fail_if_no_progress apply Keeps.upd)
    | (extract_lets +onlyGivenNames -underBinder x; clear_value x; revert x; intro _) | split
    | refine KeepsP.of_eq ?_ (by assumption)

theorem Keeps.execIsync {i s} (h : Keeps r s) : KeepsOut r (Machine.execIsync i s) := by
  generalize hf : @Machine.execIsync = f; delta Machine.execIsync at hf; subst hf; beta_reduce
  with_reducible repeat' first
    | assumption | (refine Keeps.issue ?_ ?_; rotate_left; intros; beta_reduce) | apply Keeps.modCore
    | apply KeepsOut.next | apply KeepsDid.done | (fail_if_no_progress apply Keeps.upd)

theorem Keeps.execEbreak {i s} (h : Keeps r s) : KeepsOut r (Machine.execEbreak i s) := by
  generalize hf : @Machine.execEbreak = f; delta Machine.execEbreak at hf; subst hf; beta_reduce
  with_reducible repeat' first
    | assumption | apply Keeps.raise | (refine Keeps.issue ?_ ?_; rotate_left; intros; beta_reduce) | apply Keeps.modCore
    | apply KeepsOut.next | apply KeepsDid.done | apply KeepsDid.raise | apply KeepsDid.stall | apply Keeps.ite
    | (fail_if_no_progress apply Keeps.upd) | apply KeepsP.keeps | split
    | exact KeepsP.keeps (p := (_, _)) (by assumption) | refine KeepsP.of_eq ?_ (by assumption)
    | dsimp +zetaDelta -zeta -iota -proj only | apply KeepsP.pair

theorem Keeps.execHalt {i s} (h : Keeps r s) : KeepsOut r (Machine.execHalt i s) := by
  generalize hf : @Machine.execHalt = f; delta Machine.execHalt at hf; subst hf; beta_reduce
  with_reducible repeat' first
    | assumption | apply Keeps.raise | (refine Keeps.issue ?_ ?_; rotate_left; intros; beta_reduce) | apply Keeps.afterHalt
    | apply Keeps.modCore | apply KeepsOut.next | apply KeepsDid.done | apply KeepsDid.raise | apply KeepsDid.stall
    | apply Keeps.ite | (fail_if_no_progress apply Keeps.upd) | split | refine KeepsP.of_eq ?_ (by assumption)

theorem Keeps.execStallLimit {core word s} (h : Keeps r s) : KeepsOut r (Machine.execStallLimit core word s) := by
  generalize hf : @Machine.execStallLimit = f; delta Machine.execStallLimit at hf; subst hf; beta_reduce
  with_reducible repeat' first
    | assumption | apply Keeps.raise | apply KeepsOut.next | apply Keeps.ite | (fail_if_no_progress apply Keeps.upd)
    | (extract_lets +onlyGivenNames -underBinder x; clear_value x; revert x; intro _) | split
    | refine KeepsP.of_eq ?_ (by assumption)

theorem Keeps.execIllegalInsn {i word s} (h : Keeps r s) : KeepsOut r (Machine.execIllegalInsn i word s) := by
  generalize hf : @Machine.execIllegalInsn = f; delta Machine.execIllegalInsn at hf; subst hf; beta_reduce
  with_reducible repeat' first
    | assumption | apply Keeps.raise | apply Keeps.ite | (refine Keeps.issue ?_ ?_; rotate_left; intros; beta_reduce) | apply KeepsOut.next
    | apply KeepsDid.raise

theorem Keeps.execFetchException {core s} (h : Keeps r s) : KeepsOut r (Machine.execFetchException core s) := by
  generalize hf : @Machine.execFetchException = f; delta Machine.execFetchException at hf; subst hf; beta_reduce
  with_reducible repeat' first
    | assumption | apply Keeps.raise | apply Keeps.setCore | apply KeepsOut.next | apply Keeps.ite
    | (extract_lets +onlyGivenNames -underBinder x; clear_value x; revert x; intro _)

theorem Keeps.execTileGo {i value s} (h : Keeps r s) : KeepsOut r (Machine.execTileGo i value s) := by
  generalize hf : @Machine.execTileGo = f; delta Machine.execTileGo at hf; subst hf; beta_reduce
  with_reducible repeat' first
    | assumption | apply Keeps.raise | (refine Keeps.issue ?_ ?_; rotate_left; intros; beta_reduce)
    | refine Keeps.writeMx ?_ (by assumption) | apply KeepsOut.next | apply KeepsDid.done | apply KeepsDid.raise
    | apply KeepsDid.stall | (fail_if_no_progress apply Keeps.upd) | split | refine KeepsP.of_eq ?_ (by assumption)

theorem Keeps.execFault {n s} (h : Keeps r s) : KeepsOut r (Machine.execFault n s) := by
  generalize hf : @Machine.execFault = f; delta Machine.execFault at hf; subst hf; beta_reduce
  with_reducible repeat' first
    | assumption | refine Keeps.lanTake ?_ (by assumption) | apply Keeps.faultArrives | apply KeepsOut.next
    | apply Keeps.ite | (fail_if_no_progress apply Keeps.upd) | split | refine KeepsP.of_eq ?_ (by assumption)

theorem Keeps.execDeadLetter {n s} (h : Keeps r s) : KeepsOut r (Machine.execDeadLetter n s) := by
  generalize hf : @Machine.execDeadLetter = f; delta Machine.execDeadLetter at hf; subst hf; beta_reduce
  with_reducible repeat' first
    | assumption | refine Keeps.lanTake ?_ (by assumption) | apply Keeps.deadLetterArrives | apply KeepsOut.next
    | apply Keeps.ite | (fail_if_no_progress apply Keeps.upd) | split | refine KeepsP.of_eq ?_ (by assumption)

/-! ### Security -/

theorem Keeps.execMeasure {via request s} (h : Keeps r s) : KeepsOut r (Machine.execMeasure via request s) := KeepsOut.next (Keeps.objWrite h fun _ => Keeps.putMeasure)

theorem Keeps.execMeasureDone {answer s} (h : Keeps r s) : KeepsOut r (Machine.execMeasureDone answer s) := by
  generalize hf : @Machine.execMeasureDone = f; delta Machine.execMeasureDone at hf; subst hf; beta_reduce
  have hc0 := @Keeps.measureProgram r; obtain ⟨g, hg⟩ : ∃ g, g = @State.measureProgram := ⟨_, rfl⟩; rw [← hg] at hc0 ⊢; clear hg
  have hc1 := @Keeps.measureBytes r; obtain ⟨g, hg⟩ : ∃ g, g = @State.measureBytes := ⟨_, rfl⟩; rw [← hg] at hc1 ⊢; clear hg
  with_reducible repeat' first
    | assumption | apply Keeps.forgetSteps | apply Keeps.measureResult | apply hfn | intro _ | apply hc0 | apply hc1 | apply Keeps.modBight | apply KeepsOut.next
    | apply Keeps.ite | apply KeepsP.ite | (fail_if_no_progress apply Keeps.upd) | apply KeepsP.keeps
    | (extract_lets +onlyGivenNames -underBinder x; first | (refine Keeps.cut (s := x) (r := r) ?_ ?_; rotate_left; clear_value x; revert x; intro _ _; rotate_left; dsimp -zeta -iota -proj only [x]; clear x) | (refine KeepsP.cut (p := x) (r := r) ?_ ?_; rotate_left; clear_value x; revert x; intro _ _; rotate_left; dsimp -zeta -iota -proj only [x]; clear x) | (refine Keeps.cutAt (∀ (s : State), Keeps r s → Keeps r (x s)) ?_ ?_; rotate_left; clear_value x; revert x; intro _ hfn; rotate_left; dsimp -zeta -iota -proj only [x]; clear x) | (refine Keeps.cutAt (∀ (s : State) a, Keeps r s → Keeps r (x s a)) ?_ ?_; rotate_left; clear_value x; revert x; intro _ hfn; rotate_left; dsimp -zeta -iota -proj only [x]; clear x) | (refine Keeps.cutAt (∀ (s : State) a b, Keeps r s → Keeps r (x s a b)) ?_ ?_; rotate_left; clear_value x; revert x; intro _ hfn; rotate_left; dsimp -zeta -iota -proj only [x]; clear x) | (refine Keeps.cutAt (∀ (s : State) a b c, Keeps r s → Keeps r (x s a b c)) ?_ ?_; rotate_left; clear_value x; revert x; intro _ hfn; rotate_left; dsimp -zeta -iota -proj only [x]; clear x) | (refine Keeps.cutAt (∀ (s : State), Keeps r s → KeepsP r (x s)) ?_ ?_; rotate_left; clear_value x; revert x; intro _ hfn; rotate_left; dsimp -zeta -iota -proj only [x]; clear x) | (refine Keeps.cutAt (∀ (s : State) a, Keeps r s → KeepsP r (x s a)) ?_ ?_; rotate_left; clear_value x; revert x; intro _ hfn; rotate_left; dsimp -zeta -iota -proj only [x]; clear x) | (refine Keeps.cutAt (∀ (s : State) a b, Keeps r s → KeepsP r (x s a b)) ?_ ?_; rotate_left; clear_value x; revert x; intro _ hfn; rotate_left; dsimp -zeta -iota -proj only [x]; clear x) | (refine Keeps.cutAt (∀ (s : State) a b c, Keeps r s → KeepsP r (x s a b c)) ?_ ?_; rotate_left; clear_value x; revert x; intro _ hfn; rotate_left; dsimp -zeta -iota -proj only [x]; clear x) | (refine Keeps.cutAt (∀ (s : State), Keeps r s → KeepsDid r (x s)) ?_ ?_; rotate_left; clear_value x; revert x; intro _ hfn; rotate_left; dsimp -zeta -iota -proj only [x]; clear x) | (refine Keeps.cutAt (∀ (s : State) a, Keeps r s → KeepsDid r (x s a)) ?_ ?_; rotate_left; clear_value x; revert x; intro _ hfn; rotate_left; dsimp -zeta -iota -proj only [x]; clear x) | (refine Keeps.cutAt (∀ (s : State) a b, Keeps r s → KeepsDid r (x s a b)) ?_ ?_; rotate_left; clear_value x; revert x; intro _ hfn; rotate_left; dsimp -zeta -iota -proj only [x]; clear x) | (refine Keeps.cutAt (∀ (s : State) a b c, Keeps r s → KeepsDid r (x s a b c)) ?_ ?_; rotate_left; clear_value x; revert x; intro _ hfn; rotate_left; dsimp -zeta -iota -proj only [x]; clear x) | (clear_value x; revert x; intro _))
    | split | exact KeepsP.keeps (p := (_, _)) (by assumption) | refine KeepsP.of_eq ?_ (by assumption)
    | dsimp +zetaDelta -zeta -iota -proj only | apply KeepsP.pair

theorem Keeps.execKeyWrite {via slot gen key s} (h : Keeps r s) :
    KeepsOut r (Machine.execKeyWrite via slot gen key s) := by
  generalize hf : @Machine.execKeyWrite = f; delta Machine.execKeyWrite at hf; subst hf; beta_reduce
  have hc0 := @Keeps.putKey r; obtain ⟨g, hg⟩ : ∃ g, g = @Machine.putKey := ⟨_, rfl⟩; rw [← hg] at hc0 ⊢; clear hg
  with_reducible repeat' first
    | assumption | (refine Keeps.slotWrite ?_ ?_; rotate_left; intros; beta_reduce) | apply hc0 | apply KeepsOut.next
    | apply Keeps.ite | (fail_if_no_progress apply Keeps.upd) | apply KeepsP.keeps | split
    | exact KeepsP.keeps (p := (_, _)) (by assumption) | refine KeepsP.of_eq ?_ (by assumption)
    | dsimp +zetaDelta -zeta -iota -proj only | apply KeepsP.pair

theorem Keeps.execKeyOwnerWrite {via slot value s} (h : Keeps r s) :
    KeepsOut r (Machine.execKeyOwnerWrite via slot value s) := KeepsOut.next (Keeps.slotWrite h fun _ => Keeps.putKeyOwner)

theorem Keeps.execKeyZeroize {via slot value s} (h : Keeps r s) :
    KeepsOut r (Machine.execKeyZeroize via slot value s) := KeepsOut.next (Keeps.slotWrite h fun _ => Keeps.putZeroize)

theorem Keeps.execKeyErase {slot gen s} (h : Keeps r s) : KeepsOut r (Machine.execKeyErase slot gen s) := by
  generalize hf : @Machine.execKeyErase = f; delta Machine.execKeyErase at hf; subst hf; beta_reduce
  with_reducible repeat' first
    | assumption | apply Keeps.removalStep | apply Keeps.eraseOwned | apply Keeps.endRotation | apply Keeps.eraseKey
    | apply KeepsOut.next | apply Keeps.ite | (fail_if_no_progress apply Keeps.upd)
    | (extract_lets +onlyGivenNames -underBinder x; clear_value x; revert x; intro _) | split
    | refine KeepsP.of_eq ?_ (by assumption)

theorem Keeps.execKeyRotation {via slot request s} (h : Keeps r s) :
    KeepsOut r (Machine.execKeyRotation via slot request s) := KeepsOut.next (Keeps.slotWrite h fun _ => Keeps.putRotation)

theorem Keeps.execFrameMove {slot s} (h : Keeps r s) : KeepsOut r (Machine.execFrameMove slot s) := by
  generalize hf : @Machine.execFrameMove = f; delta Machine.execFrameMove at hf; subst hf; beta_reduce
  with_reducible repeat' first
    | assumption | apply Keeps.moveOnward | apply Keeps.modKeySlot | apply Keeps.uncacheScope | apply KeepsOut.next | apply Keeps.ite
    | (fail_if_no_progress apply Keeps.upd)
    | (extract_lets +onlyGivenNames -underBinder x; clear_value x; revert x; intro _) | split
    | refine KeepsP.of_eq ?_ (by assumption)

theorem Keeps.execRotationComplete {slot s} (h : Keeps r s) : KeepsOut r (Machine.execRotationComplete slot s) := by
  generalize hf : @Machine.execRotationComplete = f; delta Machine.execRotationComplete at hf; subst hf; beta_reduce
  with_reducible repeat' first
    | assumption | apply Keeps.endRotation | apply Keeps.setKeySlot | apply KeepsOut.next | apply Keeps.ite
    | (fail_if_no_progress apply Keeps.upd)
    | (extract_lets +onlyGivenNames -underBinder x; clear_value x; revert x; intro _)

theorem Keeps.execTenantRemoval {via value s} (h : Keeps r s) :
    KeepsOut r (Machine.execTenantRemoval via value s) := KeepsOut.next (Keeps.objWrite h fun _ => Keeps.putRemoval)

/-! ### Frame -/

theorem Keeps.execFrameEdge {m s} (h : Keeps r s) : KeepsOut r (Machine.execFrameEdge m s) := by
  generalize hf : @Machine.execFrameEdge = f; delta Machine.execFrameEdge at hf; subst hf; beta_reduce
  with_reducible repeat' first
    | assumption | apply Keeps.noteEdge | apply Keeps.lockedEdge | apply Keeps.freeEdge | apply KeepsOut.next
    | apply Keeps.ite
    | (extract_lets +onlyGivenNames -underBinder x; first | (refine Keeps.cut (s := x) (r := r) ?_ ?_; rotate_left; clear_value x; revert x; intro _ _; rotate_left; dsimp -zeta -iota -proj only [x]; clear x) | (clear_value x; revert x; intro _))

theorem Keeps.execFreeRunEntry {m s} (h : Keeps r s) : KeepsOut r (Machine.execFreeRunEntry m s) := by
  generalize hf : @Machine.execFreeRunEntry = f; delta Machine.execFreeRunEntry at hf; subst hf; beta_reduce
  with_reducible repeat' first
    | assumption | apply Keeps.boundary | apply Keeps.enterFreeRun | apply KeepsOut.next | apply Keeps.ite

theorem Keeps.execOscillatorBoundary {m s} (h : Keeps r s) : KeepsOut r (Machine.execOscillatorBoundary m s) := by
  generalize hf : @Machine.execOscillatorBoundary = f; delta Machine.execOscillatorBoundary at hf; subst hf; beta_reduce
  with_reducible repeat' first
    | assumption | apply Keeps.boundary | apply KeepsOut.next | apply Keeps.ite
    | (fail_if_no_progress apply Keeps.upd)
    | (extract_lets +onlyGivenNames -underBinder x; clear_value x; revert x; intro _)

theorem Keeps.execNominalPeriodWrite {via value s} (h : Keeps r s) :
    KeepsOut r (Machine.execNominalPeriodWrite via value s) := KeepsOut.next (Keeps.objWrite h fun _ => Keeps.putNominal)

theorem Keeps.execFrameCounterPreset {via value s} (h : Keeps r s) :
    KeepsOut r (Machine.execFrameCounterPreset via value s) := KeepsOut.next (Keeps.objWrite h fun _ => Keeps.putPreset)

theorem Keeps.execGrantWrite {via bight value s} (h : Keeps r s) :
    KeepsOut r (Machine.execGrantWrite via bight value s) := by
  generalize hf : @Machine.execGrantWrite = f; delta Machine.execGrantWrite at hf; subst hf; beta_reduce
  have hc0 := @Keeps.putModuleGrant r; obtain ⟨g, hg⟩ : ∃ g, g = @Machine.putModuleGrant := ⟨_, rfl⟩; rw [← hg] at hc0 ⊢; clear hg
  have hc1 := @Keeps.putBightGrant r; obtain ⟨g, hg⟩ : ∃ g, g = @Machine.putBightGrant := ⟨_, rfl⟩; rw [← hg] at hc1 ⊢; clear hg
  with_reducible repeat' first
    | assumption | (refine Keeps.objWrite ?_ ?_; rotate_left; intros; beta_reduce) | apply hc0 | apply hc1
    | apply KeepsOut.next | apply Keeps.ite | apply KeepsP.ite | (fail_if_no_progress apply Keeps.upd)
    | apply KeepsP.keeps | split | exact KeepsP.keeps (p := (_, _)) (by assumption)
    | refine KeepsP.of_eq ?_ (by assumption) | dsimp +zetaDelta -zeta -iota -proj only | apply KeepsP.pair

theorem Keeps.execPolicyModeWrite {via value s} (h : Keeps r s) :
    KeepsOut r (Machine.execPolicyModeWrite via value s) := KeepsOut.next (Keeps.objWrite h fun _ => Keeps.putPolicyMode)

/-! ### Domains -/

theorem Keeps.execDomainRequest {via value s} (h : Keeps r s) :
    KeepsOut r (Machine.execDomainRequest via value s) := KeepsOut.next (Keeps.objWrite h fun _ => Keeps.putDomainRequest)

theorem Keeps.execDomainTransitionDone {r : State} {dom : Nat} {trained : Bool} {s : State} (h : Keeps r s) :
    KeepsOut r (Machine.execDomainTransitionDone dom trained s) := by
  generalize hf : @Machine.execDomainTransitionDone = f; delta Machine.execDomainTransitionDone at hf; subst hf; beta_reduce
  repeat' (first | with_reducible assumption  | with_reducible apply Keeps.domDone | with_reducible apply Keeps.refuseFailed | with_reducible apply Keeps.ite | with_reducible apply KeepsP.ite | fail_if_no_progress with_reducible apply Keeps.upd | with_reducible apply KeepsOut.next | exact trivial | with_reducible apply KeepsDid.done | with_reducible apply KeepsDid.raise | with_reducible apply KeepsDid.stall | (with_reducible refine Keeps.foldl ?_ ?_ _; rotate_left; intros; beta_reduce) | (with_reducible refine KeepsP.foldl ?_ ?_ _; rotate_left; intros; beta_reduce) | with_reducible apply KeepsP.keeps | (extract_lets +onlyGivenNames -underBinder x; first | (refine Keeps.cut (r := r) (s := x) ?_ ?_; rotate_left; clear_value x; revert x; intro _ _; rotate_left; dsimp -zeta -iota -proj only [x]; clear x) | (refine KeepsP.cut (r := r) (p := x) ?_ ?_; rotate_left; clear_value x; revert x; intro _ _; rotate_left; dsimp -zeta -iota -proj only [x]; clear x) | clear_value x) | split | exact KeepsP.keeps (p := (_, _)) (by assumption) | (refine KeepsP.of_eq ?_ (by assumption)) | dsimp +zetaDelta -zeta -iota -proj only | with_reducible apply KeepsP.pair)

theorem Keeps.execHeldDomainRequest {dom s} (h : Keeps r s) : KeepsOut r (Machine.execHeldDomainRequest dom s) := by
  generalize hf : @Machine.execHeldDomainRequest = f; delta Machine.execHeldDomainRequest at hf; subst hf; beta_reduce
  with_reducible repeat' first
    | assumption | apply Keeps.portStop | apply Keeps.moveDom | apply Keeps.setDomain | apply Keeps.driveNeeds | apply Keeps.reqDom | apply KeepsOut.next
    | apply Keeps.ite | (fail_if_no_progress apply Keeps.upd)
    | (extract_lets +onlyGivenNames -underBinder x; first | (refine Keeps.cut (s := x) (r := r) ?_ ?_; rotate_left; clear_value x; revert x; intro _ _; rotate_left; dsimp -zeta -iota -proj only [x]; clear x) | (clear_value x; revert x; intro _))
    | split | refine KeepsP.of_eq ?_ (by assumption)

theorem Keeps.execMemoryHoldWrite {via sub value s} (h : Keeps r s) :
    KeepsOut r (Machine.execMemoryHoldWrite via sub value s) := by
  generalize hf : @Machine.execMemoryHoldWrite = f; delta Machine.execMemoryHoldWrite at hf; subst hf; beta_reduce
  have hc0 := @Keeps.putMemoryHold r; obtain ⟨g, hg⟩ : ∃ g, g = @Machine.putMemoryHold := ⟨_, rfl⟩; rw [← hg] at hc0 ⊢; clear hg
  with_reducible repeat' first
    | assumption | (refine Keeps.objWrite ?_ ?_; rotate_left; intros; beta_reduce) | apply hc0 | apply KeepsOut.next
    | apply Keeps.ite | (fail_if_no_progress apply Keeps.upd) | apply KeepsP.keeps | split
    | exact KeepsP.keeps (p := (_, _)) (by assumption) | refine KeepsP.of_eq ?_ (by assumption)
    | dsimp +zetaDelta -zeta -iota -proj only | apply KeepsP.pair

theorem Keeps.execMemoryHoldLowEntry {cluster s} (h : Keeps r s) :
    KeepsOut r (Machine.execMemoryHoldLowEntry cluster s) := by
  generalize hf : @Machine.execMemoryHoldLowEntry = f; delta Machine.execMemoryHoldLowEntry at hf; subst hf; beta_reduce
  with_reducible repeat' first
    | assumption | apply Keeps.drive | apply KeepsOut.next | apply Keeps.ite

theorem Keeps.execSelfPolicyDomainOff {dom s} (h : Keeps r s) :
    KeepsOut r (Machine.execSelfPolicyDomainOff dom s) := by
  generalize hf : @Machine.execSelfPolicyDomainOff = f; delta Machine.execSelfPolicyDomainOff at hf; subst hf; beta_reduce
  with_reducible repeat' first
    | assumption | apply Keeps.reqDom | apply KeepsOut.next | apply Keeps.ite | (fail_if_no_progress apply Keeps.upd)
    | (extract_lets +onlyGivenNames -underBinder x; clear_value x; revert x; intro _) | split
    | refine KeepsP.of_eq ?_ (by assumption)

/-! ### Exec -/

theorem Keeps.execLaunch {queue answer s} (h : Keeps r s) : KeepsOut r (Machine.execLaunch queue answer s) := by
  generalize hf : @Machine.execLaunch = f; delta Machine.execLaunch at hf; subst hf; beta_reduce
  with_reducible repeat' first
    | assumption | apply Keeps.launchHead | apply KeepsOut.next | apply Keeps.ite
    | (fail_if_no_progress apply Keeps.upd) | split | refine KeepsP.of_eq ?_ (by assumption)

theorem Keeps.execOpenCopyDone {queue seq answer s} (h : Keeps r s) :
    KeepsOut r (Machine.execOpenCopyDone queue seq answer s) := by
  generalize hf : @Machine.execOpenCopyDone = f; delta Machine.execOpenCopyDone at hf; subst hf; beta_reduce
  with_reducible repeat' first
    | assumption | apply Keeps.forgetSteps | apply Keeps.copyEntries | apply Keeps.startKind | apply Keeps.modCmd | apply Keeps.failCmd
    | apply KeepsOut.next | apply Keeps.ite | (fail_if_no_progress apply Keeps.upd) | split
    | refine KeepsP.of_eq ?_ (by assumption)

theorem Keeps.execRun {queue s} (h : Keeps r s) : KeepsOut r (Machine.execRun queue s) := by
  generalize hf : @Machine.execRun = f; delta Machine.execRun at hf; subst hf; beta_reduce
  with_reducible repeat' first
    | assumption | apply Keeps.modBight | apply Keeps.startCores | apply KeepsOut.next | apply Keeps.ite
    | (fail_if_no_progress apply Keeps.upd)
    | (extract_lets +onlyGivenNames -underBinder x; clear_value x; revert x; intro _) | split
    | refine KeepsP.of_eq ?_ (by assumption)

theorem Keeps.execSliceEnd {bight s} (h : Keeps r s) : KeepsOut r (Machine.execSliceEnd bight s) := by
  generalize hf : @Machine.execSliceEnd = f; delta Machine.execSliceEnd at hf; subst hf; beta_reduce
  with_reducible repeat' first
    | assumption | apply Keeps.holdWait | apply Keeps.modBight | apply Keeps.requestKill | apply KeepsOut.next
    | apply Keeps.ite | (fail_if_no_progress apply Keeps.upd) | apply KeepsP.keeps
    | (extract_lets +onlyGivenNames -underBinder x; clear_value x; revert x; intro _) | split
    | refine KeepsP.of_eq ?_ (by assumption)

theorem Keeps.execSwitchDone {r : State} {bight : Nat} {answer : HostAns} {s : State} (h : Keeps r s) :
    KeepsOut r (Machine.execSwitchDone bight answer s) := by
  generalize hf : @Machine.execSwitchDone = f; delta Machine.execSwitchDone at hf; subst hf; beta_reduce
  repeat' (first | with_reducible assumption  | with_reducible apply Keeps.forgetSteps | with_reducible apply Keeps.switchIn | with_reducible apply Keeps.moveLive | with_reducible apply Keeps.modCmd | with_reducible apply Keeps.modBight | with_reducible apply Keeps.failAlways | with_reducible apply Keeps.ite | with_reducible apply KeepsP.ite | fail_if_no_progress with_reducible apply Keeps.upd | with_reducible apply KeepsOut.next | exact trivial | with_reducible apply KeepsDid.done | with_reducible apply KeepsDid.raise | with_reducible apply KeepsDid.stall | (with_reducible refine Keeps.foldl ?_ ?_ _; rotate_left; intros; beta_reduce) | (with_reducible refine KeepsP.foldl ?_ ?_ _; rotate_left; intros; beta_reduce) | with_reducible apply KeepsP.keeps | (extract_lets +onlyGivenNames -underBinder x; first | (refine Keeps.cut (r := r) (s := x) ?_ ?_; rotate_left; clear_value x; revert x; intro _ _; rotate_left; dsimp -zeta -iota -proj only [x]; clear x) | (refine KeepsP.cut (r := r) (p := x) ?_ ?_; rotate_left; clear_value x; revert x; intro _ _; rotate_left; dsimp -zeta -iota -proj only [x]; clear x) | clear_value x) | split | exact KeepsP.keeps (p := (_, _)) (by assumption) | (refine KeepsP.of_eq ?_ (by assumption)) | dsimp +zetaDelta -zeta -iota -proj only | with_reducible apply KeepsP.pair)

theorem Keeps.execMove {queue s} (h : Keeps r s) : KeepsOut r (Machine.execMove queue s) := by
  generalize hf : @Machine.execMove = f; delta Machine.execMove at hf; subst hf; beta_reduce
  with_reducible repeat' first
    | assumption | apply Keeps.stepTransfer | apply Keeps.beginTransfer | apply KeepsOut.next | apply Keeps.ite
    | (fail_if_no_progress apply Keeps.upd) | split | refine KeepsP.of_eq ?_ (by assumption)

theorem Keeps.execSendCommand {queue s} (h : Keeps r s) : KeepsOut r (Machine.execSendCommand queue s) := by
  generalize hf : @Machine.execSendCommand = f; delta Machine.execSendCommand at hf; subst hf; beta_reduce
  with_reducible repeat' first
    | assumption | apply Keeps.send | apply Keeps.stepTransfer | apply Keeps.beginTransfer | apply KeepsOut.next | apply Keeps.ite
    | (fail_if_no_progress apply Keeps.upd) | split | refine KeepsP.of_eq ?_ (by assumption)

theorem Keeps.execRecvCommand {queue s} (h : Keeps r s) : KeepsOut r (Machine.execRecvCommand queue s) := by
  generalize hf : @Machine.execRecvCommand = f; delta Machine.execRecvCommand at hf; subst hf; beta_reduce
  with_reducible repeat' first
    | assumption | apply Keeps.modCmd | apply Keeps.writeChunk | apply KeepsOut.next | apply Keeps.ite
    | (fail_if_no_progress apply Keeps.upd) | (refine Keeps.foldl ?_ ?_ _; rotate_left; intros; beta_reduce)
    | (refine KeepsP.foldl ?_ ?_ _; rotate_left; intros; beta_reduce)
    | (extract_lets +onlyGivenNames -underBinder x; first | (refine Keeps.cut (s := x) (r := r) ?_ ?_; rotate_left; clear_value x; revert x; intro _ _; rotate_left; dsimp -zeta -iota -proj only [x]; clear x) | (clear_value x; revert x; intro _))
    | split | exact KeepsP.keeps (p := (_, _)) (by assumption) | refine KeepsP.of_eq ?_ (by assumption)

theorem Keeps.execWait {r s : State} {queue : Nat} (h : Keeps r s) : KeepsOut r (execWait queue s) := by
  unfold Machine.execWait
  refine KeepsOut.next ?_
  split
  · split
    · extract_lets fail
      have hf : ∀ code, Keeps r (fail code) := fun code => Keeps.endCmd h
      split
      · exact Keeps.ite h (hf _)
      · exact Keeps.ite (hf _) (Keeps.ite (Keeps.modCmd h) h)
    · exact h
  · exact h

theorem Keeps.execSignal {queue s} (h : Keeps r s) : KeepsOut r (Machine.execSignal queue s) := by
  generalize hf : @Machine.execSignal = f; delta Machine.execSignal at hf; subst hf; beta_reduce
  with_reducible repeat' first
    | assumption | apply Keeps.fenceMsg | apply Keeps.modCmd | apply Keeps.signalFence | apply KeepsOut.next | apply Keeps.ite
    | (fail_if_no_progress apply Keeps.upd) | split | refine KeepsP.of_eq ?_ (by assumption)

theorem Keeps.execCommitGroup {queue s} (h : Keeps r s) : KeepsOut r (Machine.execCommitGroup queue s) := by
  generalize hf : @Machine.execCommitGroup = f; delta Machine.execCommitGroup at hf; subst hf; beta_reduce
  with_reducible repeat' first
    | assumption | apply Keeps.decideGroup | apply KeepsOut.next | (fail_if_no_progress apply Keeps.upd) | split
    | refine KeepsP.of_eq ?_ (by assumption)

theorem Keeps.execCommitRequest {queue seq s} (h : Keeps r s) :
    KeepsOut r (Machine.execCommitRequest queue seq s) := by
  generalize hf : @Machine.execCommitRequest = f; delta Machine.execCommitRequest at hf; subst hf; beta_reduce
  with_reducible repeat' first
    | assumption | apply Keeps.leaveResidency | apply Keeps.modCmd | apply Keeps.register | apply KeepsOut.next
    | apply Keeps.ite | (fail_if_no_progress apply Keeps.upd)
    | (extract_lets +onlyGivenNames -underBinder x; first | (refine Keeps.cut (s := x) (r := r) ?_ ?_; rotate_left; clear_value x; revert x; intro _ _; rotate_left; dsimp -zeta -iota -proj only [x]; clear x) | (clear_value x; revert x; intro _))
    | split | refine KeepsP.of_eq ?_ (by assumption)

theorem Keeps.execCommit {bight s} (h : Keeps r s) : KeepsOut r (Machine.execCommit bight s) := by
  generalize hf : @Machine.execCommit = f; delta Machine.execCommit at hf; subst hf; beta_reduce
  with_reducible repeat' first
    | assumption | apply Keeps.ownersGo | apply Keeps.takeCommit | apply Keeps.modBight | apply KeepsOut.next
    | (fail_if_no_progress apply Keeps.upd) | split | refine KeepsP.of_eq ?_ (by assumption)

theorem Keeps.execKill {bight s} (h : Keeps r s) : KeepsOut r (Machine.execKill bight s) := by
  generalize hf : @Machine.execKill = f; delta Machine.execKill at hf; subst hf; beta_reduce
  with_reducible repeat' first
    | assumption | apply Keeps.ownersGo | apply Keeps.takeKill | apply Keeps.modBight | apply KeepsOut.next
    | (fail_if_no_progress apply Keeps.upd) | split | refine KeepsP.of_eq ?_ (by assumption)

theorem Keeps.execKillComplete {queue seq s} (h : Keeps r s) : KeepsOut r (Machine.execKillComplete queue seq s) := by
  generalize hf : @Machine.execKillComplete = f; delta Machine.execKillComplete at hf; subst hf; beta_reduce
  with_reducible repeat' first
    | assumption | apply Keeps.ownersGo | apply Keeps.killDone | apply KeepsOut.next

theorem Keeps.execAbort {via value s} (h : Keeps r s) : KeepsOut r (Machine.execAbort via value s) := KeepsOut.next (Keeps.objWrite h fun _ => Keeps.putAbort)

theorem Keeps.execHoldCeiling {queue seq s} (h : Keeps r s) : KeepsOut r (Machine.execHoldCeiling queue seq s) := by
  generalize hf : @Machine.execHoldCeiling = f; delta Machine.execHoldCeiling at hf; subst hf; beta_reduce
  with_reducible repeat' first
    | assumption | apply Keeps.modBight | apply Keeps.failCmd | apply KeepsOut.next | apply Keeps.ite
    | (fail_if_no_progress apply Keeps.upd)
    | (extract_lets +onlyGivenNames -underBinder x; clear_value x; revert x; intro _) | split
    | refine KeepsP.of_eq ?_ (by assumption)

/-! ### Reset -/

theorem Keeps.execSupplyGood {nonce s} (h : Keeps r s) : KeepsOut r (Machine.execSupplyGood nonce s) := by
  generalize hf : @Machine.execSupplyGood = f; delta Machine.execSupplyGood at hf; subst hf; beta_reduce
  with_reducible repeat' first
    | assumption | apply Keeps.deassert | apply KeepsOut.next | apply Keeps.ite

theorem Keeps.execSupplyReset {s} (h : Keeps r s) : KeepsOut r (Machine.execSupplyReset s) := KeepsOut.next (Keeps.resetFor h)

theorem Keeps.execInputSwitchOn {s} (h : Keeps r s) : KeepsOut r (Machine.execInputSwitchOn s) := by
  generalize hf : @Machine.execInputSwitchOn = f; delta Machine.execInputSwitchOn at hf; subst hf; beta_reduce
  with_reducible repeat' first
    | assumption | apply KeepsOut.next | apply Keeps.ite | (fail_if_no_progress apply Keeps.upd)

theorem Keeps.execPerst {s} (h : Keeps r s) : KeepsOut r (Machine.execPerst s) := KeepsOut.next (Keeps.resetFor h)

theorem Keeps.execPerstPort1 {s} (h : Keeps r s) : KeepsOut r (Machine.execPerstPort1 s) := by
  generalize hf : @Machine.execPerstPort1 = f; delta Machine.execPerstPort1 at hf; subst hf; beta_reduce
  with_reducible repeat' first
    | assumption | apply Keeps.pcieDown | apply KeepsOut.next | (fail_if_no_progress apply Keeps.upd)

theorem Keeps.execResetIn {s} (h : Keeps r s) : KeepsOut r (Machine.execResetIn s) := by
  generalize hf : @Machine.execResetIn = f; delta Machine.execResetIn at hf; subst hf; beta_reduce
  with_reducible repeat' first
    | assumption | apply Keeps.resetFor | apply KeepsOut.next | (fail_if_no_progress apply Keeps.upd)

theorem Keeps.execResetInRelease {s} (h : Keeps r s) : KeepsOut r (Machine.execResetInRelease s) := by
  generalize hf : @Machine.execResetInRelease = f; delta Machine.execResetInRelease at hf; subst hf; beta_reduce
  have hc0 := @Keeps.freeBytes r; obtain ⟨g, hg⟩ : ∃ g, g = @State.freeBytes := ⟨_, rfl⟩; rw [← hg] at hc0 ⊢; clear hg
  with_reducible repeat' first
    | assumption | apply hc0 | apply Keeps.deassert | apply KeepsOut.next | apply Keeps.ite | apply KeepsP.ite
    | (fail_if_no_progress apply Keeps.upd) | apply KeepsP.keeps
    | (extract_lets +onlyGivenNames -underBinder x; first | (refine Keeps.cut (s := x) (r := r) ?_ ?_; rotate_left; clear_value x; revert x; intro _ _; rotate_left; dsimp -zeta -iota -proj only [x]; clear x) | (refine KeepsP.cut (p := x) (r := r) ?_ ?_; rotate_left; clear_value x; revert x; intro _ _; rotate_left; dsimp -zeta -iota -proj only [x]; clear x) | (clear_value x; revert x; intro _))
    | split | exact KeepsP.keeps (p := (_, _)) (by assumption) | refine KeepsP.of_eq ?_ (by assumption)
    | dsimp +zetaDelta -zeta -iota -proj only | apply KeepsP.pair

theorem Keeps.execWatchdog {s} (h : Keeps r s) : KeepsOut r (Machine.execWatchdog s) := by
  generalize hf : @Machine.execWatchdog = f; delta Machine.execWatchdog at hf; subst hf; beta_reduce
  with_reducible repeat' first
    | assumption | apply Keeps.resetFor | apply KeepsOut.next | apply Keeps.ite

theorem Keeps.execDictionaryReset {via value s} (h : Keeps r s) :
    KeepsOut r (Machine.execDictionaryReset via value s) := KeepsOut.next (Keeps.objWrite h fun _ => Keeps.putReset)

theorem Keeps.execSgmiiAutoNegotiation {link mbps s} (h : Keeps r s) :
    KeepsOut r (Machine.execSgmiiAutoNegotiation link mbps s) := by
  generalize hf : @Machine.execSgmiiAutoNegotiation = f; delta Machine.execSgmiiAutoNegotiation at hf; subst hf; beta_reduce
  with_reducible repeat' first
    | assumption | apply KeepsOut.next | (fail_if_no_progress apply Keeps.upd)

/-! ### DictWrite -/

theorem Keeps.execRegisterWrite {r : State} {t : WriteTarget} {s : State} (h : Keeps r s) : KeepsOut r (Machine.execRegisterWrite t s) := by
  generalize hf : @Machine.execRegisterWrite = f; delta Machine.execRegisterWrite at hf; subst hf; beta_reduce
  have hc0 := @Keeps.dictWrite r; obtain ⟨g, hg⟩ : ∃ g, g = @State.dictWrite := ⟨_, rfl⟩; rw [← hg] at hc0 ⊢; clear hg
  repeat' (first | with_reducible assumption | with_reducible apply hc0 | with_reducible apply Keeps.noteStatus | with_reducible apply Keeps.hostRegWrite | with_reducible apply Keeps.ite | with_reducible apply KeepsP.ite | fail_if_no_progress with_reducible apply Keeps.upd | with_reducible apply KeepsOut.next | exact trivial | with_reducible apply KeepsDid.done | with_reducible apply KeepsDid.raise | with_reducible apply KeepsDid.stall | (with_reducible refine Keeps.foldl ?_ ?_ _; rotate_left; intros; beta_reduce) | (with_reducible refine KeepsP.foldl ?_ ?_ _; rotate_left; intros; beta_reduce) | with_reducible apply KeepsP.keeps | (extract_lets +onlyGivenNames -underBinder x; first | (refine Keeps.cut (r := r) (s := x) ?_ ?_; rotate_left; clear_value x; revert x; intro _ _; rotate_left; dsimp -zeta -iota -proj only [x]; clear x) | (refine KeepsP.cut (r := r) (p := x) ?_ ?_; rotate_left; clear_value x; revert x; intro _ _; rotate_left; dsimp -zeta -iota -proj only [x]; clear x) | clear_value x) | split | exact KeepsP.keeps (p := (_, _)) (by assumption) | (refine KeepsP.of_eq ?_ (by assumption)) | dsimp +zetaDelta -zeta -iota -proj only | with_reducible apply KeepsP.pair)

/-! ### Dictionary -/

theorem Keeps.execMboxRead {r : State} {port : Nat} {index : Nat} {sub : Nat} {len : Nat} {bufferOk : Bool} {s : State} (h : Keeps r s) : KeepsOut r (Machine.execMboxRead port index sub len bufferOk s) := by
  generalize hf : @Machine.execMboxRead = f; delta Machine.execMboxRead at hf; subst hf; beta_reduce
  repeat' (first | with_reducible assumption | with_reducible apply Keeps.objRead | (with_reducible refine Keeps.mboxCommand ?_ ?_; rotate_left; intros; beta_reduce) | with_reducible apply Keeps.mboxReturn | with_reducible apply Keeps.ite | with_reducible apply KeepsP.ite | fail_if_no_progress with_reducible apply Keeps.upd | with_reducible apply KeepsOut.next | exact trivial | with_reducible apply KeepsDid.done | with_reducible apply KeepsDid.raise | with_reducible apply KeepsDid.stall | (with_reducible refine Keeps.foldl ?_ ?_ _; rotate_left; intros; beta_reduce) | (with_reducible refine KeepsP.foldl ?_ ?_ _; rotate_left; intros; beta_reduce) | with_reducible apply KeepsP.keeps | (extract_lets +onlyGivenNames -underBinder x; first | (refine Keeps.cut (r := r) (s := x) ?_ ?_; rotate_left; clear_value x; revert x; intro _ _; rotate_left; dsimp -zeta -iota -proj only [x]; clear x) | (refine KeepsP.cut (r := r) (p := x) ?_ ?_; rotate_left; clear_value x; revert x; intro _ _; rotate_left; dsimp -zeta -iota -proj only [x]; clear x) | clear_value x) | split | exact KeepsP.keeps (p := (_, _)) (by assumption) | (refine KeepsP.of_eq ?_ (by assumption)) | dsimp +zetaDelta -zeta -iota -proj only | with_reducible apply KeepsP.pair)

theorem Keeps.execMboxWrite {r : State} {port : Nat} {index : Nat} {sub : Nat} {len : Nat} {buffer : HostAns} {answer : HostAns} {s : State} (h : Keeps r s) : KeepsOut r (Machine.execMboxWrite port index sub len buffer answer s) := by
  generalize hf : @Machine.execMboxWrite = f; delta Machine.execMboxWrite at hf; subst hf; beta_reduce
  repeat' (first | with_reducible assumption | (with_reducible refine Keeps.mboxCommand ?_ ?_; rotate_left; intros; beta_reduce) | with_reducible apply Keeps.mboxDone | with_reducible apply Keeps.mboxWrite | with_reducible apply Keeps.ite | with_reducible apply KeepsP.ite | fail_if_no_progress with_reducible apply Keeps.upd | with_reducible apply KeepsOut.next | exact trivial | with_reducible apply KeepsDid.done | with_reducible apply KeepsDid.raise | with_reducible apply KeepsDid.stall | (with_reducible refine Keeps.foldl ?_ ?_ _; rotate_left; intros; beta_reduce) | (with_reducible refine KeepsP.foldl ?_ ?_ _; rotate_left; intros; beta_reduce) | with_reducible apply KeepsP.keeps | (extract_lets +onlyGivenNames -underBinder x; first | (refine Keeps.cut (r := r) (s := x) ?_ ?_; rotate_left; clear_value x; revert x; intro _ _; rotate_left; dsimp -zeta -iota -proj only [x]; clear x) | (refine KeepsP.cut (r := r) (p := x) ?_ ?_; rotate_left; clear_value x; revert x; intro _ _; rotate_left; dsimp -zeta -iota -proj only [x]; clear x) | clear_value x) | split | exact KeepsP.keeps (p := (_, _)) (by assumption) | (refine KeepsP.of_eq ?_ (by assumption)) | dsimp +zetaDelta -zeta -iota -proj only | with_reducible apply KeepsP.pair)

theorem Keeps.execMboxDescribe {r : State} {port : Nat} {index : Nat} {sub : Nat} {len : Nat} {s : State} (h : Keeps r s) : KeepsOut r (Machine.execMboxDescribe port index sub len s) := by
  generalize hf : @Machine.execMboxDescribe = f; delta Machine.execMboxDescribe at hf; subst hf; beta_reduce
  repeat' (first | with_reducible assumption | with_reducible apply Keeps.objDescribe | (with_reducible refine Keeps.mboxCommand ?_ ?_; rotate_left; intros; beta_reduce) | with_reducible apply Keeps.mboxReturn | with_reducible apply Keeps.ite | with_reducible apply KeepsP.ite | fail_if_no_progress with_reducible apply Keeps.upd | with_reducible apply KeepsOut.next | exact trivial | with_reducible apply KeepsDid.done | with_reducible apply KeepsDid.raise | with_reducible apply KeepsDid.stall | (with_reducible refine Keeps.foldl ?_ ?_ _; rotate_left; intros; beta_reduce) | (with_reducible refine KeepsP.foldl ?_ ?_ _; rotate_left; intros; beta_reduce) | with_reducible apply KeepsP.keeps | (extract_lets +onlyGivenNames -underBinder x; first | (refine Keeps.cut (r := r) (s := x) ?_ ?_; rotate_left; clear_value x; revert x; intro _ _; rotate_left; dsimp -zeta -iota -proj only [x]; clear x) | (refine KeepsP.cut (r := r) (p := x) ?_ ?_; rotate_left; clear_value x; revert x; intro _ _; rotate_left; dsimp -zeta -iota -proj only [x]; clear x) | clear_value x) | split | exact KeepsP.keeps (p := (_, _)) (by assumption) | (refine KeepsP.of_eq ?_ (by assumption)) | dsimp +zetaDelta -zeta -iota -proj only | with_reducible apply KeepsP.pair)

theorem Keeps.execMboxCommandOutOfRange {port op _index _sub len s} (h : Keeps r s) :
    KeepsOut r (Machine.execMboxCommandOutOfRange port op _index _sub len s) := by
  generalize hf : @Machine.execMboxCommandOutOfRange = f; delta Machine.execMboxCommandOutOfRange at hf; subst hf; beta_reduce
  with_reducible repeat' first
    | assumption | (refine Keeps.mboxCommand ?_ ?_; rotate_left; intros; beta_reduce) | apply Keeps.mboxDone
    | apply KeepsOut.next | apply Keeps.ite

theorem Keeps.execDatagramRead {r : State} {datagram : Bytes} {s : State} (h : Keeps r s) : KeepsOut r (Machine.execDatagramRead datagram s) := by
  generalize hf : @Machine.execDatagramRead = f; delta Machine.execDatagramRead at hf; subst hf; beta_reduce
  repeat' (first | with_reducible assumption | with_reducible apply Keeps.objRead | (with_reducible refine Keeps.dgServe ?_ ?_; rotate_left; intros; beta_reduce) | with_reducible apply Keeps.ite | with_reducible apply KeepsP.ite | fail_if_no_progress with_reducible apply Keeps.upd | with_reducible apply KeepsOut.next | exact trivial | with_reducible apply KeepsDid.done | with_reducible apply KeepsDid.raise | with_reducible apply KeepsDid.stall | (with_reducible refine Keeps.foldl ?_ ?_ _; rotate_left; intros; beta_reduce) | (with_reducible refine KeepsP.foldl ?_ ?_ _; rotate_left; intros; beta_reduce) | with_reducible apply KeepsP.keeps | (extract_lets +onlyGivenNames -underBinder x; first | (refine Keeps.cut (r := r) (s := x) ?_ ?_; rotate_left; clear_value x; revert x; intro _ _; rotate_left; dsimp -zeta -iota -proj only [x]; clear x) | (refine KeepsP.cut (r := r) (p := x) ?_ ?_; rotate_left; clear_value x; revert x; intro _ _; rotate_left; dsimp -zeta -iota -proj only [x]; clear x) | clear_value x) | split | exact KeepsP.keeps (p := (_, _)) (by assumption) | (refine KeepsP.of_eq ?_ (by assumption)) | dsimp +zetaDelta -zeta -iota -proj only | with_reducible apply KeepsP.pair)

theorem Keeps.execDatagramWrite {r : State} {datagram : Bytes} {s : State} (h : Keeps r s) : KeepsOut r (Machine.execDatagramWrite datagram s) := by
  generalize hf : @Machine.execDatagramWrite = f; delta Machine.execDatagramWrite at hf; subst hf; beta_reduce
  have hc0 := @Keeps.dictWrite r; obtain ⟨g, hg⟩ : ∃ g, g = @State.dictWrite := ⟨_, rfl⟩; rw [← hg] at hc0 ⊢; clear hg
  repeat' (first | with_reducible assumption | (with_reducible refine Keeps.dgServe ?_ ?_; rotate_left; intros; beta_reduce) | with_reducible apply hc0 | with_reducible apply Keeps.ite | with_reducible apply KeepsP.ite | fail_if_no_progress with_reducible apply Keeps.upd | with_reducible apply KeepsOut.next | exact trivial | with_reducible apply KeepsDid.done | with_reducible apply KeepsDid.raise | with_reducible apply KeepsDid.stall | (with_reducible refine Keeps.foldl ?_ ?_ _; rotate_left; intros; beta_reduce) | (with_reducible refine KeepsP.foldl ?_ ?_ _; rotate_left; intros; beta_reduce) | with_reducible apply KeepsP.keeps | (extract_lets +onlyGivenNames -underBinder x; first | (refine Keeps.cut (r := r) (s := x) ?_ ?_; rotate_left; clear_value x; revert x; intro _ _; rotate_left; dsimp -zeta -iota -proj only [x]; clear x) | (refine KeepsP.cut (r := r) (p := x) ?_ ?_; rotate_left; clear_value x; revert x; intro _ _; rotate_left; dsimp -zeta -iota -proj only [x]; clear x) | clear_value x) | split | exact KeepsP.keeps (p := (_, _)) (by assumption) | (refine KeepsP.of_eq ?_ (by assumption)) | dsimp +zetaDelta -zeta -iota -proj only | with_reducible apply KeepsP.pair)

theorem Keeps.execDatagramDescribe {r : State} {datagram : Bytes} {s : State} (h : Keeps r s) : KeepsOut r (Machine.execDatagramDescribe datagram s) := by
  generalize hf : @Machine.execDatagramDescribe = f; delta Machine.execDatagramDescribe at hf; subst hf; beta_reduce
  repeat' (first | with_reducible assumption | with_reducible apply Keeps.objDescribe | (with_reducible refine Keeps.dgServe ?_ ?_; rotate_left; intros; beta_reduce) | with_reducible apply Keeps.ite | with_reducible apply KeepsP.ite | fail_if_no_progress with_reducible apply Keeps.upd | with_reducible apply KeepsOut.next | exact trivial | with_reducible apply KeepsDid.done | with_reducible apply KeepsDid.raise | with_reducible apply KeepsDid.stall | (with_reducible refine Keeps.foldl ?_ ?_ _; rotate_left; intros; beta_reduce) | (with_reducible refine KeepsP.foldl ?_ ?_ _; rotate_left; intros; beta_reduce) | with_reducible apply KeepsP.keeps | (extract_lets +onlyGivenNames -underBinder x; first | (refine Keeps.cut (r := r) (s := x) ?_ ?_; rotate_left; clear_value x; revert x; intro _ _; rotate_left; dsimp -zeta -iota -proj only [x]; clear x) | (refine KeepsP.cut (r := r) (p := x) ?_ ?_; rotate_left; clear_value x; revert x; intro _ _; rotate_left; dsimp -zeta -iota -proj only [x]; clear x) | clear_value x) | split | exact KeepsP.keeps (p := (_, _)) (by assumption) | (refine KeepsP.of_eq ?_ (by assumption)) | dsimp +zetaDelta -zeta -iota -proj only | with_reducible apply KeepsP.pair)

theorem Keeps.execModbusReadHolding {conn address count s} (h : Keeps r s) :
    KeepsOut r (Machine.execModbusReadHolding conn address count s) := KeepsOut.next (Keeps.modbusRead h)

theorem Keeps.execModbusReadInput {conn address count s} (h : Keeps r s) :
    KeepsOut r (Machine.execModbusReadInput conn address count s) := KeepsOut.next (Keeps.modbusRead h)

theorem Keeps.execModbusConnection {conn s} (h : Keeps r s) : KeepsOut r (Machine.execModbusConnection conn s) := by
  generalize hf : @Machine.execModbusConnection = f; delta Machine.execModbusConnection at hf; subst hf; beta_reduce
  with_reducible repeat' first
    | assumption | apply KeepsOut.next | apply Keeps.ite | (fail_if_no_progress apply Keeps.upd)

theorem Keeps.execModbusOtherFunctionCode {conn code s} (h : Keeps r s) :
    KeepsOut r (Machine.execModbusOtherFunctionCode conn code s) := by
  generalize hf : @Machine.execModbusOtherFunctionCode = f; delta Machine.execModbusOtherFunctionCode at hf; subst hf; beta_reduce
  with_reducible repeat' first
    | assumption | apply Keeps.modbusAnswer | apply KeepsOut.next | apply Keeps.ite

theorem Keeps.execNetworkConfigWrite {via sub value s} (h : Keeps r s) :
    KeepsOut r (Machine.execNetworkConfigWrite via sub value s) := by
  generalize hf : @Machine.execNetworkConfigWrite = f; delta Machine.execNetworkConfigWrite at hf; subst hf; beta_reduce
  have hc0 := @Keeps.putNetwork r; obtain ⟨g, hg⟩ : ∃ g, g = @Machine.putNetwork := ⟨_, rfl⟩; rw [← hg] at hc0 ⊢; clear hg
  with_reducible repeat' first
    | assumption | (refine Keeps.objWrite ?_ ?_; rotate_left; intros; beta_reduce) | apply hc0 | apply KeepsOut.next
    | apply Keeps.ite | (fail_if_no_progress apply Keeps.upd) | apply KeepsP.keeps | split
    | exact KeepsP.keeps (p := (_, _)) (by assumption) | refine KeepsP.of_eq ?_ (by assumption)
    | dsimp +zetaDelta -zeta -iota -proj only | apply KeepsP.pair

theorem Keeps.execManagementKeyWrite {via keyId key s} (h : Keeps r s) :
    KeepsOut r (Machine.execManagementKeyWrite via keyId key s) := by
  generalize hf : @Machine.execManagementKeyWrite = f; delta Machine.execManagementKeyWrite at hf; subst hf; beta_reduce
  have hc0 := @Keeps.putManagementKey r; obtain ⟨g, hg⟩ : ∃ g, g = @Machine.putManagementKey := ⟨_, rfl⟩; rw [← hg] at hc0 ⊢; clear hg
  with_reducible repeat' first
    | assumption | (refine Keeps.objWrite ?_ ?_; rotate_left; intros; beta_reduce) | apply hc0 | apply KeepsOut.next
    | apply Keeps.ite | (fail_if_no_progress apply Keeps.upd) | apply KeepsP.keeps | split
    | exact KeepsP.keeps (p := (_, _)) (by assumption) | refine KeepsP.of_eq ?_ (by assumption)
    | dsimp +zetaDelta -zeta -iota -proj only | apply KeepsP.pair

theorem Keeps.execCounterSnapshot {via value s} (h : Keeps r s) :
    KeepsOut r (Machine.execCounterSnapshot via value s) := KeepsOut.next (Keeps.objWrite h fun _ => Keeps.putSnapshot)

/-! ### Engine -/

theorem Keeps.execTileStart {cluster s} (h : Keeps r s) : KeepsOut r (Machine.execTileStart cluster s) := by
  generalize hf : @Machine.execTileStart = f; delta Machine.execTileStart at hf; subst hf; beta_reduce
  with_reducible repeat' first
    | assumption | apply Keeps.killOn | apply Keeps.runTile | apply KeepsOut.next | apply Keeps.ite
    | (fail_if_no_progress apply Keeps.upd)
    | (extract_lets +onlyGivenNames -underBinder x; clear_value x; revert x; intro _) | split
    | refine KeepsP.of_eq ?_ (by assumption)

theorem Keeps.execTileComplete {cluster s} (h : Keeps r s) : KeepsOut r (Machine.execTileComplete cluster s) := by
  generalize hf : @Machine.execTileComplete = f; delta Machine.execTileComplete at hf; subst hf; beta_reduce
  with_reducible repeat' first
    | assumption | apply Keeps.tileDone | apply Keeps.modEngine | apply Keeps.drainRows | apply Keeps.starve
    | apply Keeps.writeRows | apply Keeps.engineReport | apply KeepsOut.next | apply Keeps.ite
    | (fail_if_no_progress apply Keeps.upd) | (refine Keeps.foldl ?_ ?_ _; rotate_left; intros; beta_reduce)
    | (refine KeepsP.foldl ?_ ?_ _; rotate_left; intros; beta_reduce) | apply KeepsP.keeps
    | (extract_lets +onlyGivenNames -underBinder x; first | (refine Keeps.cut (s := x) (r := r) ?_ ?_; rotate_left; clear_value x; revert x; intro _ _; rotate_left; dsimp -zeta -iota -proj only [x]; clear x) | (clear_value x; revert x; intro _))
    | split | exact KeepsP.keeps (p := (_, _)) (by assumption) | refine KeepsP.of_eq ?_ (by assumption)

/-! ### Scalar -/

theorem Keeps.execAdd {i rd rs1 rs2 s} (h : Keeps r s) : KeepsOut r (Machine.execAdd i rd rs1 rs2 s) := Keeps.intOp h

theorem Keeps.execSub {i rd rs1 rs2 s} (h : Keeps r s) : KeepsOut r (Machine.execSub i rd rs1 rs2 s) := Keeps.intOp h

theorem Keeps.execAnd {i rd rs1 rs2 s} (h : Keeps r s) : KeepsOut r (Machine.execAnd i rd rs1 rs2 s) := Keeps.intOp h

theorem Keeps.execOr {i rd rs1 rs2 s} (h : Keeps r s) : KeepsOut r (Machine.execOr i rd rs1 rs2 s) := Keeps.intOp h

theorem Keeps.execXor {i rd rs1 rs2 s} (h : Keeps r s) : KeepsOut r (Machine.execXor i rd rs1 rs2 s) := Keeps.intOp h

theorem Keeps.execShl {i rd rs1 rs2 s} (h : Keeps r s) : KeepsOut r (Machine.execShl i rd rs1 rs2 s) := Keeps.intOp h

theorem Keeps.execShr {i rd rs1 rs2 s} (h : Keeps r s) : KeepsOut r (Machine.execShr i rd rs1 rs2 s) := Keeps.intOp h

theorem Keeps.execSra {i rd rs1 rs2 s} (h : Keeps r s) : KeepsOut r (Machine.execSra i rd rs1 rs2 s) := Keeps.intOp h

theorem Keeps.execCmp {i rd rs1 rs2 func s} (h : Keeps r s) : KeepsOut r (Machine.execCmp i rd rs1 rs2 func s) := Keeps.intOp h

theorem Keeps.execSel {i rd rs1 rs2 s} (h : Keeps r s) : KeepsOut r (Machine.execSel i rd rs1 rs2 s) := KeepsOut.next (Keeps.issueReg h)

theorem Keeps.execPopc {i rd rs1 s} (h : Keeps r s) : KeepsOut r (Machine.execPopc i rd rs1 s) := Keeps.intOp h

theorem Keeps.execClz {i rd rs1 s} (h : Keeps r s) : KeepsOut r (Machine.execClz i rd rs1 s) := Keeps.intOp h

theorem Keeps.execAddi {i rd rs1 imm s} (h : Keeps r s) : KeepsOut r (Machine.execAddi i rd rs1 imm s) := Keeps.intOp h

theorem Keeps.execMul {i rd rs1 rs2 s} (h : Keeps r s) : KeepsOut r (Machine.execMul i rd rs1 rs2 s) := Keeps.mulOp h

theorem Keeps.execMulh {i rd rs1 rs2 s} (h : Keeps r s) : KeepsOut r (Machine.execMulh i rd rs1 rs2 s) := Keeps.mulOp h

theorem Keeps.execMulhu {i rd rs1 rs2 s} (h : Keeps r s) : KeepsOut r (Machine.execMulhu i rd rs1 rs2 s) := Keeps.mulOp h

theorem Keeps.execDiv {i rd rs1 rs2 s} (h : Keeps r s) : KeepsOut r (Machine.execDiv i rd rs1 rs2 s) := Keeps.mulOp h

theorem Keeps.execDivu {i rd rs1 rs2 s} (h : Keeps r s) : KeepsOut r (Machine.execDivu i rd rs1 rs2 s) := Keeps.mulOp h

theorem Keeps.execRem {i rd rs1 rs2 s} (h : Keeps r s) : KeepsOut r (Machine.execRem i rd rs1 rs2 s) := Keeps.mulOp h

theorem Keeps.execRemu {i rd rs1 rs2 s} (h : Keeps r s) : KeepsOut r (Machine.execRemu i rd rs1 rs2 s) := Keeps.mulOp h

theorem Keeps.execBeq {i rs1 rs2 imm s} (h : Keeps r s) : KeepsOut r (Machine.execBeq i rs1 rs2 imm s) := Keeps.branchOp h

theorem Keeps.execBne {i rs1 rs2 imm s} (h : Keeps r s) : KeepsOut r (Machine.execBne i rs1 rs2 imm s) := Keeps.branchOp h

theorem Keeps.execBlt {i rs1 rs2 imm s} (h : Keeps r s) : KeepsOut r (Machine.execBlt i rs1 rs2 imm s) := Keeps.branchOp h

theorem Keeps.execBge {i rs1 rs2 imm s} (h : Keeps r s) : KeepsOut r (Machine.execBge i rs1 rs2 imm s) := Keeps.branchOp h

theorem Keeps.execJ {i imm s} (h : Keeps r s) : KeepsOut r (Machine.execJ i imm s) := by
  generalize hf : @Machine.execJ = f; delta Machine.execJ at hf; subst hf; beta_reduce
  with_reducible repeat' first
    | assumption | (refine Keeps.issue ?_ ?_; rotate_left; intros; beta_reduce) | apply KeepsOut.next
    | apply KeepsDid.done

theorem Keeps.execJal {i rd imm s} (h : Keeps r s) : KeepsOut r (Machine.execJal i rd imm s) := by
  generalize hf : @Machine.execJal = f; delta Machine.execJal at hf; subst hf; beta_reduce
  with_reducible repeat' first
    | assumption | (refine Keeps.issue ?_ ?_; rotate_left; intros; beta_reduce) | apply Keeps.setCore
    | apply KeepsOut.next | apply KeepsDid.done

theorem Keeps.execJr {i rs1 s} (h : Keeps r s) : KeepsOut r (Machine.execJr i rs1 s) := by
  generalize hf : @Machine.execJr = f; delta Machine.execJr at hf; subst hf; beta_reduce
  with_reducible repeat' first
    | assumption | (refine Keeps.issue ?_ ?_; rotate_left; intros; beta_reduce) | apply KeepsOut.next
    | apply KeepsDid.done

theorem Keeps.execLoop {i n m s} (h : Keeps r s) : KeepsOut r (Machine.execLoop i n m s) := by
  generalize hf : @Machine.execLoop = f; delta Machine.execLoop at hf; subst hf; beta_reduce
  with_reducible repeat' first
    | assumption | (refine Keeps.issue ?_ ?_; rotate_left; intros; beta_reduce) | apply Keeps.setCore
    | apply KeepsOut.next | apply KeepsDid.done | apply KeepsDid.raise | apply KeepsDid.stall | apply Keeps.ite
    | (fail_if_no_progress apply Keeps.upd) | apply KeepsP.keeps | split
    | exact KeepsP.keeps (p := (_, _)) (by assumption) | refine KeepsP.of_eq ?_ (by assumption)
    | dsimp +zetaDelta -zeta -iota -proj only | apply KeepsP.pair

/-! ### Vector -/

theorem Keeps.execVfma {i vd va vb vc s} (h : Keeps r s) : KeepsOut r (Machine.execVfma i vd va vb vc s) := KeepsOut.next (Keeps.issueVec h)

theorem Keeps.execVadd {i vd va vb s} (h : Keeps r s) : KeepsOut r (Machine.execVadd i vd va vb s) := Keeps.fpOp h

theorem Keeps.execVsub {i vd va vb s} (h : Keeps r s) : KeepsOut r (Machine.execVsub i vd va vb s) := Keeps.fpOp h

theorem Keeps.execVmul {i vd va vb s} (h : Keeps r s) : KeepsOut r (Machine.execVmul i vd va vb s) := Keeps.fpOp h

theorem Keeps.execVmin {i vd va vb s} (h : Keeps r s) : KeepsOut r (Machine.execVmin i vd va vb s) := Keeps.fpOp h

theorem Keeps.execVmax {i vd va vb s} (h : Keeps r s) : KeepsOut r (Machine.execVmax i vd va vb s) := Keeps.fpOp h

theorem Keeps.execVcmp {i vd va vb func s} (h : Keeps r s) : KeepsOut r (Machine.execVcmp i vd va vb func s) := Keeps.fpOp h

theorem Keeps.execVaddi {i lane vd va vb s} (h : Keeps r s) : KeepsOut r (Machine.execVaddi i lane vd va vb s) := Keeps.laneOp h

theorem Keeps.execVand {i vd va vb s} (h : Keeps r s) : KeepsOut r (Machine.execVand i vd va vb s) := Keeps.laneOp h

theorem Keeps.execVshl {i lane vd va vb s} (h : Keeps r s) : KeepsOut r (Machine.execVshl i lane vd va vb s) := Keeps.laneOp h

theorem Keeps.execVmuli {i lane vd va vb s} (h : Keeps r s) : KeepsOut r (Machine.execVmuli i lane vd va vb s) := Keeps.laneOp h

theorem Keeps.execVsel {i lane vd va vb vc s} (h : Keeps r s) :
    KeepsOut r (Machine.execVsel i lane vd va vb vc s) := by
  generalize hf : @Machine.execVsel = f; delta Machine.execVsel at hf; subst hf; beta_reduce
  with_reducible repeat' first
    | assumption | apply Keeps.issueVec | apply KeepsOut.next | (fail_if_no_progress apply Keeps.upd)
    | (extract_lets +onlyGivenNames -underBinder x; clear_value x; revert x; intro _) | split
    | refine KeepsP.of_eq ?_ (by assumption)

theorem Keeps.execVredsum {i vd va s} (h : Keeps r s) : KeepsOut r (Machine.execVredsum i vd va s) := by
  generalize hf : @Machine.execVredsum = f; delta Machine.execVredsum at hf; subst hf; beta_reduce
  with_reducible repeat' first
    | assumption | apply Keeps.issueVec | apply KeepsOut.next | (fail_if_no_progress apply Keeps.upd)
    | (extract_lets +onlyGivenNames -underBinder x; clear_value x; revert x; intro _) | split
    | refine KeepsP.of_eq ?_ (by assumption)

theorem Keeps.execVredmax {i vd va s} (h : Keeps r s) : KeepsOut r (Machine.execVredmax i vd va s) := by
  generalize hf : @Machine.execVredmax = f; delta Machine.execVredmax at hf; subst hf; beta_reduce
  with_reducible repeat' first
    | assumption | apply Keeps.issueVec | apply KeepsOut.next | apply Keeps.ite
    | (fail_if_no_progress apply Keeps.upd)
    | (extract_lets +onlyGivenNames -underBinder x; clear_value x; revert x; intro _) | split
    | refine KeepsP.of_eq ?_ (by assumption)

theorem Keeps.execVperm {i vd va vb s} (h : Keeps r s) : KeepsOut r (Machine.execVperm i vd va vb s) := KeepsOut.next (Keeps.issueVec h)

theorem Keeps.execVbcast {i vd va vb s} (h : Keeps r s) : KeepsOut r (Machine.execVbcast i vd va vb s) := KeepsOut.next (Keeps.issueVec h)

theorem Keeps.execVcvt {i kind vd va vb s} (h : Keeps r s) : KeepsOut r (Machine.execVcvt i kind vd va vb s) := by
  generalize hf : @Machine.execVcvt = f; delta Machine.execVcvt at hf; subst hf; beta_reduce
  with_reducible repeat' first
    | assumption | apply Keeps.issueVec | apply KeepsOut.next | (fail_if_no_progress apply Keeps.upd)

theorem Keeps.execVpackMx {i elem vd va vb s} (h : Keeps r s) :
    KeepsOut r (Machine.execVpackMx i elem vd va vb s) := KeepsOut.next (Keeps.issueVec h)

theorem Keeps.execXexp2 {i vd va s} (h : Keeps r s) : KeepsOut r (Machine.execXexp2 i vd va s) := Keeps.xuOp h

theorem Keeps.execXlog2 {i vd va s} (h : Keeps r s) : KeepsOut r (Machine.execXlog2 i vd va s) := Keeps.xuOp h

theorem Keeps.execXrcp {i vd va s} (h : Keeps r s) : KeepsOut r (Machine.execXrcp i vd va s) := Keeps.xuOp h

theorem Keeps.execXrsqrt {i vd va s} (h : Keeps r s) : KeepsOut r (Machine.execXrsqrt i vd va s) := Keeps.xuOp h

theorem Keeps.execXsqrt {i vd va s} (h : Keeps r s) : KeepsOut r (Machine.execXsqrt i vd va s) := Keeps.xuOp h

theorem Keeps.execXsinpi {i vd va s} (h : Keeps r s) : KeepsOut r (Machine.execXsinpi i vd va s) := Keeps.xuOp h

theorem Keeps.execXcospi {i vd va s} (h : Keeps r s) : KeepsOut r (Machine.execXcospi i vd va s) := Keeps.xuOp h

theorem Keeps.execXtanh {i vd va s} (h : Keeps r s) : KeepsOut r (Machine.execXtanh i vd va s) := Keeps.xuOp h

end Sys2Proof.Machine
end

