-- ==== Sys2Proof/Laws/Lanes.lean ====
section
/-! SUPPORT. Lanes: what a lane of a vector built from lanes reads, and what a vector instruction leaves (R88, R96, R102). -/

namespace Sys2Proof.Machine

variable {w : Nat}

theorem ofLanes_getLsbD (hw : 0 < w) (l : List (BitVec w)) (i : Nat) (hi : i < 512) :
    (ofLanes l).getLsbD i = (l.getD (i / w) 0).getLsbD (i % w) := by
  induction l generalizing i with
  | nil => simp [ofLanes]
  | cons b l ih =>
    simp only [ofLanes, BitVec.getLsbD_or, BitVec.getLsbD_setWidth, BitVec.getLsbD_shiftLeft, hi, decide_true, Bool.true_and]
    by_cases h : i < w
    · simp [h, Nat.div_eq_of_lt h, Nat.mod_eq_of_lt h]
    · have h1 : b.getLsbD i = false := BitVec.getLsbD_of_ge b i (by omega)
      have h2 : i / w = (i - w) / w + 1 := by
        rw [← Nat.add_div_right _ hw, Nat.sub_add_cancel (by omega)]
      have h3 : i % w = (i - w) % w := by rw [Nat.mod_eq_sub_mod (by omega)]
      rw [h1, ih (i - w) (by omega), h2, h3]
      simp [h]

/-- Lane `j` of a vector built from lanes. -/
theorem extract_ofLanes (hw : 0 < w) (l : List (BitVec w)) (j : Nat) (hj : w * j + w ≤ 512) :
    (ofLanes l).extractLsb' (w * j) w = l.getD j 0 := by
  apply BitVec.eq_of_getLsbD_eq
  intro i hi
  rw [BitVec.getLsbD_extractLsb', ofLanes_getLsbD hw l (w * j + i) (by omega)]
  simp [hi, Nat.mul_add_div hw, Nat.div_eq_of_lt hi, Nat.mod_eq_of_lt hi]

theorem lanesOf_getD (v : Vec) (j : Nat) (hj : j < 512 / w) : (lanesOf w v).getD j 0 = v.extractLsb' (w * j) w := by
  simp [lanesOf, List.getD_eq_getElem?_getD, hj]

theorem lanes32_getD (v : Vec) (j : Nat) (hj : j < 16) : (lanes32 v).getD j 0 = v.extractLsb' (32 * j) 32 := by
  simp [lanes32, List.getD_eq_getElem?_getD, hj]

@[simp] theorem lanes32_length (v : Vec) : (lanes32 v).length = 16 := by simp [lanes32]
@[simp] theorem lanesOf_length (v : Vec) : (lanesOf w v).length = 512 / w := by simp [lanesOf]

theorem zipWith_getD {α β γ : Type} (f : α → β → γ) (a : List α) (b : List β) (j : Nat) (x : α) (y : β) (z : γ)
    (ha : j < a.length) (hb : j < b.length) : (List.zipWith f a b).getD j z = f (a.getD j x) (b.getD j y) := by
  simp [List.getD_eq_getElem?_getD, ha, hb]

theorem map_getD {α β : Type} (f : α → β) (a : List α) (j : Nat) (x : α) (z : β) (ha : j < a.length) :
    (a.map f).getD j z = f (a.getD j x) := by
  simp [List.getD_eq_getElem?_getD, ha]

end Sys2Proof.Machine
end

