-- ==== Sys2Proof/Machine/RegRead.lean ====
section
/-! DEFINITION. What a host read of a register returns and what it clears (R242, R312, R367, R375, R390 to R395, R576, R609, R623).
The table of commands has no row for a register read, so no command performs one: `State.hostRegRead` says what one would give. -/

namespace Sys2Proof.Machine

/-! ### Function blocks (R367, R375, R395, R576, R609, R623) -/

/-- The restated energy of a bight's last frame as a percentage of its effective grant (R609). -/
def Bight.grantPercent (x : Bight) : Nat :=
  match x.lastEffective with
  | none => 255
  | some 0 => if x.restated = 0 then 0 else 250
  | some mj => min 250 (100 * x.restated / (mj * pjPerMj))

/-- MG_FN_BREPORT (R609): zero unless the function owns the selected bight or is function 0. -/
def State.breport (s : State) (fn : Nat) : Word :=
  let b := (s.fn fn).bsel.toNat
  let x := s.bight b
  if x.state = .free ∨ (fn ≠ 0 ∧ x.owner ≠ fn) then 0
  else
    BitVec.ofNat 64 (2 ^ 63 + x.grantPercent * 2 ^ 48 + min 0xFFFFFF (divNearest x.restated pjPerMj) * 2 ^ 24 +
      wattsOf x.restated x.lastFrame % 2 ^ 24)

/-- The number of a boot state (R576). -/
def bootCode : BootState → Nat
  | .reset => 0
  | .waitImage => 1
  | .loading => 2
  | .verifying => 3
  | .starting => 4
  | .ready => 5
  | .rejected => 6

/-- SC_BOOT_STATUS (R576). -/
def State.bootStatus (s : State) : Word :=
  BitVec.ofNat 64 (s.boot.vendorDebug.toNat * 2 ^ 32 + s.boot.tokenResult % 256 * 2 ^ 24 + s.boot.reject % 256 * 2 ^ 16 +
    s.fuses.rollback % 256 * 256 + bootCode s.boot.state)

/-- A boot register (R576). -/
def State.bootReg (s : State) (offset : Nat) : Option Word :=
  match offset with
  | 0x40 => some s.bootStatus
  | 0x48 => some s.boot.image
  | 0x50 => some s.boot.len
  | 0x58 => some s.boot.token
  | _ => if 0x80 ≤ offset ∧ offset < 0xA0 then some (wordOfBytes (slice s.boot.nonce (offset - 0x80) 8)) else none

/-- MG_FRING_STAT (R367, R370). -/
def State.ringStat (s : State) (fn : Nat) : Word :=
  let f := s.fn fn
  let full := f.ringSize.any fun n => decide ((f.ringProd - f.ringCons).toNat = n)
  BitVec.ofNat 64 (f.ringOverflow.toNat * 2 ^ 32 + (s.heldFaults fn).length % 2 ^ 16 * 2 ^ 16 + full.toNat)

/-- MG_MBOX_STATUS (R623). -/
def State.mboxStatusWord (s : State) : Word :=
  let d := s.dict
  BitVec.ofNat 64 (d.mboxSeq.toNat * 2 ^ 48 + d.mboxLen % 2 ^ 16 * 2 ^ 32 + d.mboxOverrun.toNat * 2 ^ 16 +
    d.mboxStatus % 256 * 256 + d.mboxState % 256)

/-- MG_INV_STATUS (R375). -/
def State.invStatus (s : State) : Word :=
  BitVec.ofNat 64 (s.xlat.invDropped.toNat * 2 ^ 32 + s.xlat.invIssued.toNat * 2 ^ 16 + s.xlat.invDone.toNat)

/-- A register of function 0's block only. -/
def State.fn0Reg (s : State) (offset : Nat) : Option Word :=
  match offset with
  | 0x0408 => some s.mboxStatusWord
  | 0x0410 => some s.dict.mboxData
  | 0x0418 => some s.dict.mboxBuf
  | 0x0840 => some s.xlat.invAddr
  | 0x0850 => some s.invStatus
  | _ => s.bootReg offset

/-- A register of function `fn`'s block (R395): none at an offset that the block lacks, which completes as Unsupported Request.
The spec gives a
read of a write-only register no value; it is taken as one of these. -/
def State.fnReg (s : State) (fn offset : Nat) : Option Word :=
  let f := s.fn fn
  match offset with
  | 0x0000 => some (BitVec.ofNat 64 (s.portOfFn fn * 256 + fn))
  | 0x0008 => some f.aper
  | 0x0010 => some (f.irqCause.setWidth 64)
  | 0x0018 => some (f.errMalformed ++ f.errDoorbell ++ f.errSignal ++ f.errAperture)
  | 0x0020 => some (f.bsel.setWidth 64)
  | 0x0028 => some (s.breport fn)
  | 0x0800 => some f.ringBase
  | 0x0808 => some (f.ringProd.setWidth 64)
  | 0x0810 => some (f.ringCons.setWidth 64)
  | 0x0818 => some f.ringPaddr
  | 0x0820 => some (s.ringStat fn)
  | 0x0830 => some (f.notifyDrop.setWidth 64)
  | 0x3000 => some f.pba
  | _ =>
    if 0x2000 ≤ offset ∧ offset < 0x2400 then
      let w := (Tab.look ({} : Msix) f.msix ((offset - 0x2000) / 16)).words
      some (if offset % 16 < 8 then w.1 else w.2)
    else if fn = 0 then s.fn0Reg offset
    else none

/-- What a read of a register of a function's block clears: DROPPED and OVERRUN (R375, R623). -/
def State.fnRegRead (s : State) (fn offset : Nat) : State :=
  if fn = 0 ∧ offset = 0x0850 then { s with xlat := { s.xlat with invDropped := false } }
  else if fn = 0 ∧ offset = 0x0408 then { s with dict := { s.dict with mboxOverrun := false } }
  else s

/-! ### The SR-IOV capability of a port (R390, R391)

Function 0 is on both ports; the other functions are virtual functions of the port that 0x1020 gives them. -/

/-- The module functions that are virtual functions of a port, lowest first: VF j is entry j - 1, and TotalVFs is how many there
are (R391). -/
def State.vfsOf (s : State) (port : Nat) : List Nat := (List.range' 1 63).filter fun n => (s.fn n).port == port

def State.totalVfs (s : State) (port : Nat) : Nat := (s.vfsOf port).length

/-- The module function that is VF j of a port, from 1 up (R391). -/
def State.vfFunction (s : State) (port j : Nat) : Option Nat := if j = 0 then none else (s.vfsOf port)[j - 1]?

/-! ### Cluster and router blocks (R242, R312) -/

def State.clusterReg (s : State) (c offset : Nat) : Option Word :=
  match offset with
  | 0x0200 => some (Tab.look 0 s.sram.flipLo c)
  | 0x0208 => some (Tab.look 0 s.sram.flipHi c)
  | _ => none

/-- The router at an offset of the router blocks: h in [28:24] and 16v + u in [23:16] (R394). -/
def routerOfOffset (o : Nat) : Nat := routerAt (o / 2 ^ 24) (o / 2 ^ 16 % 16) (o / 2 ^ 20 % 16)

/-- RT_PLACE (R242). -/
def State.rtPlace (s : State) (r : Nat) : Word :=
  match (s.router r).bank with
  | none => 0
  | some k => BitVec.ofNat 64 (2 ^ 63 + k.bight % 256 * 2 ^ 40 + k.x0 % 32 * 2 ^ 35 + k.y0 % 16 * 2 ^ 31 +
      divCode (s.bightDiv k.bight / s.divOf (halfOfRouter r)) * 2 ^ 29 + k.period % 2 ^ 13 * 2 ^ 13 + k.logical % 2 ^ 13)

/-- RT_SIGMA (R203, R242). -/
def State.rtSigma (s : State) (r : Nat) : Word :=
  match (s.router r).bank with
  | none => 0
  | some k => BitVec.ofNat 64 ((s.bight k.bight).sigma % max 1 k.period)

/-- RT_STATUS (R242). -/
def Router.statusWord (x : Router) : Word :=
  BitVec.ofNat 64 (x.deadLetters % 2 ^ 16 * 2 ^ 16 + x.parityFlag.toNat * 128 + x.overrunFlag.toNat * 64)

/-- RT_TAU (R200): τ of the router's half-die. -/
def State.rtTau (s : State) (r : Nat) : Word := BitVec.ofNat 64 (s.mesh.tau0 / 1000 / s.divOf (halfOfRouter r))

/-- A register of a router's block (R242). -/
def State.routerReg (s : State) (r offset : Nat) : Option Word :=
  let x := s.router r
  match offset with
  | 0x0000 => some (s.rtPlace r)
  | 0x0008 => some (s.rtSigma r)
  | 0x0010 => some x.statusWord
  | 0x0018 => some (s.rtTau r)
  | _ =>
    if 0x1000 ≤ offset ∧ offset < 0x9000 then some ((x.bank.bind fun k => k.ptab[(offset - 0x1000) / 8]?).getD 0)
    else if 0x9000 ≤ offset ∧ offset < 0xD000 then
      some (((s.transitEntry r ((offset - 0x9000) / 16)) >>> (offset % 16 * 8)).setWidth 64)
    else if 0xD000 ≤ offset ∧ offset < 0xD200 then
      some (BitVec.ofNat 64 (((List.range 4).map fun i =>
        ((x.bank.bind fun k => k.htab[(offset - 0xD000) / 2 + i]?).getD 0).toNat * 2 ^ (16 * i)).sum))
    else none

/-! ### The BARs (R393, R394, R576) -/

/-- A host read of 8 bytes at an aligned offset of BAR0 or BAR4 of a function: the value, none for Unsupported Request, and the
state after what the read clears. -/
def State.hostRegRead (s : State) (fn bar offset : Nat) : Option Word × State :=
  if !s.isReady then (if fn = 0 ∧ bar = 0 ∧ s.supply.inReset = false then s.bootReg offset else none, s)
  else if bar = 0 then (s.fnReg fn offset, s.fnRegRead fn offset)
  else if fn ≠ 0 ∨ bar ≠ 4 then (none, s)
  else if offset < 0x400000 then (s.fnReg (offset / 65536) (offset % 65536), s.fnRegRead (offset / 65536) (offset % 65536))
  else if 0x10000000 ≤ offset ∧ offset < 0x12000000 then (s.clusterReg ((offset - 0x10000000) / 65536) (offset % 65536), s)
  else if 0x20000000 ≤ offset ∧ offset < 0x40000000 then (s.routerReg (routerOfOffset (offset - 0x20000000)) (offset % 65536), s)
  else (none, s)

end Sys2Proof.Machine
end

