-- ==== Sys2Proof/Safety.lean ====
section
/-! DEFINITION. What counts as a safe run: one that neither faults nor is refused. -/

namespace Sys2Proof

/-- A step that answers a next state. -/
def Completes (s : Machine.State) : Prop := ∃ t, Machine.step s = .next t

end Sys2Proof
end

