-- ==== Sys2Proof/Tests/Slice0.lean ====
section
/-! SUPPORT. The tests: ill-formed commands that the check refuses, and for every obligation with hypotheses a concrete state
and operands that meet them all. -/

namespace Sys2Proof.Tests
open Sys2Proof Sys2Proof.Machine Sys2Proof.Claims
set_option Elab.async false

/-! ### Well-formedness: an ill-formed command for each check -/

def first : Issue := { core := 0, second := false }

theorem test_core_out_of_range : wellFormed (.add { core := 8192, second := false } 1 2 3) = false := by decide +kernel
theorem test_core_in_range : wellFormed (.add { core := 8191, second := true } 1 2 3) = true := by decide +kernel
theorem test_register_object_out_of_range : wellFormed (.registerWrite (.object .mailbox 0x10000 0 [] none)) = false := by decide +kernel
theorem test_register_subindex_out_of_range : wellFormed (.registerWrite (.object .mailbox 0x1000 256 [] none)) = false := by
  decide +kernel
theorem test_register_function_out_of_range : wellFormed (.registerWrite (.mmio 64 0 0 8 0)) = false := by decide +kernel
theorem test_register_bar_out_of_range : wellFormed (.registerWrite (.mmio 0 1 0 8 0)) = false := by decide +kernel
theorem test_register_width_out_of_range : wellFormed (.registerWrite (.mmio 0 0 0 2 0)) = false := by decide +kernel
theorem test_register_misaligned : wellFormed (.registerWrite (.mmio 0 0 4 8 0)) = false := by decide +kernel
theorem test_vf_port_out_of_range : wellFormed (.registerWrite (.vfEnable 2 true)) = false := by decide +kernel
theorem test_domain_out_of_range : wellFormed (.domainTransitionDone 641 true) = false := by decide +kernel
theorem test_cluster_out_of_range : wellFormed (.memoryHoldLowEntry 512) = false := by decide +kernel
theorem test_bank_out_of_range : wellFormed (.prunerRead 0 24) = false := by decide +kernel
theorem test_bight_out_of_range : wellFormed (.lashComplete 256) = false := by decide +kernel
theorem test_module_grant_in_range : wellFormed (.grantWrite .mailbox none 0) = true := by decide +kernel
theorem test_queue_out_of_range : wellFormed (.run 4096) = false := by decide +kernel
theorem test_sequence_out_of_range : wellFormed (.commitRequest 0 68719476736) = false := by decide +kernel
theorem test_half_out_of_range : wellFormed (.clockRatioChange 32 1) = false := by decide +kernel
theorem test_divider_out_of_range : wellFormed (.clockRatioChange 0 3) = false := by decide +kernel
theorem test_region_out_of_range : wellFormed (.selfPolicyRetire 4194304) = false := by decide +kernel
theorem test_stack_out_of_range : wellFormed (.selfPolicyHbmLow 32) = false := by decide +kernel
theorem test_group_out_of_range : wellFormed (.patrolRead 64) = false := by decide +kernel
theorem test_function_out_of_range : wellFormed (.functionLevelReset 64) = false := by decide +kernel
theorem test_counter_out_of_range : wellFormed (.accessNotification 0 1024) = false := by decide +kernel
theorem test_die_out_of_range : wellFormed (.wearUnit 16) = false := by decide +kernel
theorem test_port_out_of_range : wellFormed (.readReq 48) = false := by decide +kernel
theorem test_pcie_port_out_of_range : wellFormed (.pcieLinkDown 2) = false := by decide +kernel
theorem test_window_out_of_range : wellFormed (.outboundClose .mailbox 256) = false := by decide +kernel
theorem test_local_queue_out_of_range : wellFormed (.doorbell 0 256 0) = false := by decide +kernel
theorem test_context_out_of_range : wellFormed (.teardownComplete 4096) = false := by decide +kernel
theorem test_link_width_out_of_range : wellFormed (.trainingDone 0 3 0) = false := by decide +kernel
theorem test_pace_group_out_of_range : wellFormed (.paceHoldLimit 16) = false := by decide +kernel
theorem test_pace_member_out_of_range : wellFormed (.paceNoticeExpiry 0 64) = false := by decide +kernel
theorem test_link_key_short : wellFormed (.txKeyWrite .mailbox 0 0 []) = false := by decide +kernel
theorem test_key_slot_out_of_range : wellFormed (.keyErase 64 0) = false := by decide +kernel
theorem test_key_generation_out_of_range : wellFormed (.keyErase 0 2) = false := by decide +kernel
theorem test_handoff_slot_out_of_range : wellFormed (.heldTimeout 256) = false := by decide +kernel
theorem test_trip_location_out_of_range : wellFormed (.trip 64 0) = false := by decide +kernel
theorem test_trip_stack_in_range : wellFormed (.trip 0x9F 0) = true ∧ wellFormed (.trip 0xA0 0) = false := by decide +kernel
theorem test_window_samples_short : wellFormed (.powerWindow { samples := [] }) = false := by decide +kernel
theorem test_window_rails_short :
    wellFormed (.powerWindow { samples := List.replicate 20 { inputV := 0, inputW := 0, rails := [] } }) = false := by decide +kernel
theorem test_junction_sample_short : wellFormed (.junctionSample []) = false := by decide +kernel
theorem test_mailbox_index_out_of_range : wellFormed (.mboxDescribe 0 65536 0 0) = false := by decide +kernel
theorem test_mailbox_code_out_of_range : wellFormed (.mboxCommandOutOfRange 0 256 0 0 0) = false := by decide +kernel
theorem test_modbus_code_out_of_range : wellFormed (.modbusOtherFunctionCode 0 128) = false := by decide +kernel
theorem test_no_word_spells_a_command : decodeTableWord 32 0 = none := by decide +kernel

/-! ### States that the witnesses use -/

/-- Cluster 0 is on, and its core 0 runs at the start of its own memory. -/
def running : State := { domains := [(0, { state := .on })], cores := [(0, { run := .running })] }

/-- The same core, its scalar registers set. -/
def runningWith (regs : Tab Word) : State := { running with cores := [(0, { run := .running, s := regs })] }

/-- A module in READY whose transports are open and whose expert objects answer. -/
def serving : State :=
  { boot := { state := .ready }, supply := { inReset := false }
    dict := { ip := 1, sgmiiUp := true, expertMbox := true, expertEth := true } }

/-- No flip mask is armed. -/
theorem noFlip_reset (c b : Nat) : State.reset.flipFor c b = none := by
  have : (Tab.look 0 State.reset.sram.flipHi c : Word).getLsbD 63 = false := by
    show (0 : Word).getLsbD 63 = false; decide
  unfold State.flipFor; simp only [this, Bool.false_and, Bool.false_eq_true, if_false]

/-! ### Witnesses: the hypotheses of each obligation hold of something -/

theorem witness_IdleStepIsOneTick : State.reset.pending = [] ∧ State.reset.liveDomains = [] ∧
    ∀ b, b ∈ Tab.keys State.reset.bights.tab → (State.reset.bight b).runs = false := by decide +kernel

theorem witness_IdleStepIsOneTick_ready : let s := { serving with now := 999999 }
    s.pending = [] ∧ s.liveDomains = [] ∧ s.bights.tab = [] ∧ s.isReady = true ∧ (s.now + 1) % 1000000 = 0 ∧
    ({ s with now := 7 }.now + 1) % 1000000 ≠ 0 ∧ s.mesh.transit = [] ∧ s.mesh.circuits = [] ∧ s.mesh.ratioNext = [] ∧
    s.mesh.routers = [] ∧ s.bights.lashWaiting = [] ∧ s.handoff.armWaiting = [] ∧ s.host.apertureWaiting = [] ∧
    s.host.recordWaiting = [] ∧ s.host.regWaiting = [] ∧ s.fabric.ports = [] ∧ s.boot.floor ≤ s.fuses.rollback := by decide +kernel

theorem witness_EveryStepKeepsMemoryCanonical :
    Memory.wf State.reset.mem = true ∧ step State.reset = .next (tick State.reset) := ⟨rfl, rfl⟩

theorem witness_StepsNeverUndoTheIrreversible : step { State.reset with pending := [.reportReady] } =
    exec .reportReady State.reset ∧ step State.reset = .next (tick State.reset) := ⟨rfl, rfl⟩

theorem witness_DictionaryChecksComeFirst :
    objectOf (.hedgeWrite .ethernet 0 0) = some (.ethernet, false, true) ∧ State.reset.dictOpen .ethernet = false ∧
    serving.dictOpen .ethernet = true ∧ objectOf (.domainRequest .ethernet 0) = some (.ethernet, true, true) ∧
    { serving with dict := { serving.dict with expertEth := false } }.expertOn .ethernet = false := by decide +kernel

theorem witness_IntegerResults : Issues running first (scalarInsn unitInt 1 2 3) ∧ Issues running first (scalarInsn unitInt 1 2 0) ∧
    ((running.core 0).reg 3).toNat < 64 := by decide +kernel
theorem witness_IntegerResults_shift_by_63 : Issues (runningWith [(3, 63)]) first (scalarInsn unitInt 1 2 3) ∧
    (((runningWith [(3, 63)]).core 0).reg 3).toNat < 64 := by decide +kernel

theorem witness_CompareSelectAndFarShiftsRun : Issues (runningWith [(3, 64)]) first (scalarInsn unitInt 1 2 3) ∧
    64 ≤ (((runningWith [(3, 64)]).core 0).reg 3).toNat := by decide +kernel

theorem witness_MultiplyAndDivide_zero : Issues running first (scalarInsn unitAlu0 1 2 3) ∧ (running.core 0).reg 3 = 0 := by
  decide +kernel
theorem witness_MultiplyAndDivide_most_negative :
    let s := runningWith [(2, 0x8000000000000000), (3, 0xFFFFFFFFFFFFFFFF)]
    Issues s first (scalarInsn unitAlu0 1 2 3) ∧ (s.core 0).reg 2 = 0x8000000000000000 ∧
      (s.core 0).reg 3 = 0xFFFFFFFFFFFFFFFF ∧ (s.core 0).reg 3 ≠ 0 := by
  dsimp only; decide +kernel

theorem witness_BranchesAndJumps : Issues running first { unit := unitBr, reads := [sName 1, sName 2], writes := [] } ∧
    Issues running first { unit := unitBr, reads := [sName 1], writes := [] } ∧
    Issues running first { unit := unitBr, reads := [], writes := [] } ∧
    Issues running first { unit := unitBr, reads := [], writes := [sName 1] } := by decide +kernel

/-- Core 0 with `n` loops around the bundle that is open. -/
def looping (n : Nat) (l : Loop) : State :=
  { running with cores := [(0, { run := .running, openBundle := true, loops := List.replicate n l })] }
theorem witness_LoopsRepeatTheirBody : Issues running first { unit := unitBr, reads := [], writes := [] } ∧
    (running.issuer first { unit := unitBr, reads := [], writes := [] }).loops.length < 2 := by decide +kernel
theorem witness_LoopsRepeatTheirBody_nested :
    let s := looping 2 { armed := true, start := 0, bundles := 3, done := 0, left := 2 }
    Issues s first { unit := unitBr, reads := [], writes := [] } ∧
      2 ≤ (s.issuer first { unit := unitBr, reads := [], writes := [] }).loops.length := by
  dsimp only; decide +kernel
theorem witness_LoopsRepeatTheirBody_end :
    let l : Loop := { armed := true, start := 0, bundles := 3, done := 2, left := 2 }
    let s := looping 1 l
    s.joins first { unit := unitBr, reads := [], writes := [] } = false ∧ (s.core 0).openBundle = true ∧
      (s.core 0).loops = [l] ∧ l.armed = true ∧ l.done + 1 = l.bundles ∧ 1 < l.left := by
  dsimp only; decide +kernel
theorem witness_LoopsRepeatTheirBody_last :
    let l : Loop := { armed := true, start := 0, bundles := 3, done := 2, left := 1 }
    let s := looping 1 l
    s.joins first { unit := unitBr, reads := [], writes := [] } = false ∧ (s.core 0).openBundle = true ∧
      (s.core 0).loops = [l] ∧ l.armed = true ∧ l.done + 1 = l.bundles ∧ l.left ≤ 1 := by
  dsimp only; decide +kernel
theorem witness_LoopsRepeatTheirBody_inside :
    let l : Loop := { armed := true, start := 0, bundles := 3, done := 1, left := 1 }
    let s := looping 1 l
    s.joins first { unit := unitBr, reads := [], writes := [] } = false ∧ (s.core 0).openBundle = true ∧
      (s.core 0).loops = [l] ∧ l.armed = true ∧ l.done + 1 < l.bundles := by
  dsimp only; decide +kernel

theorem witness_ControlRegisters : Issues running first (systemInsn [] [1]) ∧ Issues running first (systemInsn [1] []) ∧
    (0x023 : BitVec 12) ∉ [0x000, 0x001, 0x010, 0x011, 0x020, 0x021, 0x022] ∧ (0x000 : BitVec 12) ∉ [0x020, 0x021, 0x022] := by
  decide +kernel

theorem witness_SendReceiveAndOperandQueues :
    Issues running first { unit := unitNet, reads := [vName 1], writes := [], acts := true } ∧
    Issues running first { unit := unitNet, reads := [], writes := [vName 1], acts := true } ∧
    (running.core 0).held = none ∧ handleDefined (running.handle 0 0) = false ∧ (1 : BitVec 2).toNat < 2 ∧ ((running.core 0).opQueue 1).length < 16 ∧
    (running.core 0).q2 = [] ∧ 2 ≤ (3 : BitVec 2).toNat := by decide +kernel
/-- Core 0 with a full operand queue and a vector in its result queue. -/
def queued : State := { running with cores := [(0, { run := .running, q1 := List.replicate 16 0, q2 := [7] })] }
theorem witness_SendReceiveAndOperandQueues_full :
    Issues queued first { unit := unitNet, reads := [vName 1], writes := [], acts := true } ∧
    Issues queued first { unit := unitNet, reads := [], writes := [vName 1], acts := true } ∧
    16 ≤ ((queued.core 0).opQueue 1).length ∧ (queued.core 0).q2 = 7 :: [] := by decide +kernel

theorem witness_OwnClusterLoads :
    let s := runningWith [(2, 64)]
    let sInsn : Insn := { unit := unitLsu, reads := [sName 2], writes := [sName 1] }
    let vInsn : Insn := { unit := unitLsu, reads := [sName 2], writes := [vName 1] }
    let pInsn : Insn := { unit := unitLsu, reads := [sName 2], writes := [vName 1, sName 2] }
    Issues s first sInsn ∧ Issues s first vInsn ∧ Issues s first pInsn ∧ coreAddr 0 64 = .own 64 ∧
      CleanSram s (sramAddr (clusterOf 0) 64) 64 := by
  dsimp only; refine ⟨by decide +kernel, by decide +kernel, by decide +kernel, by decide +kernel, fun w _ _ => ⟨rfl, rfl⟩⟩
theorem witness_OwnClusterLoads_misaligned :
    let s := runningWith [(2, 1)]
    Issues s first { unit := unitLsu, reads := [sName 2], writes := [sName 1] } ∧
      Issues s first { unit := unitLsu, reads := [sName 2], writes := [vName 1] } ∧
      Issues s first { unit := unitLsu, reads := [sName 2], writes := [vName 1, sName 2] } ∧
      BadAddress 0 ((s.core 0).reg 2) 2 True 0x02 ∧ BadAddress 0 ((s.core 0).reg 2) 64 False 0x02 := by
  dsimp only; refine ⟨by decide +kernel, by decide +kernel, by decide +kernel, ?_, ?_⟩ <;> exact ⟨rfl, by decide +kernel⟩
/-- Misaligned in the control window, a 32-bit access there, and an address that names nothing. -/
theorem witness_BadAddress : BadAddress 0 0x0C000001 8 True 0x03 ∧ BadAddress 0 0x0C000100 4 False 0x03 ∧
    BadAddress 0 0x06000000 8 True 0x03 ∧ BadAddress 0 0x06000001 8 True 0x02 :=
  ⟨⟨rfl, .inl (by decide)⟩, ⟨rfl, .inr id⟩, rfl, rfl⟩

theorem witness_OwnClusterStores :
    let s := runningWith [(2, 64)]
    let sInsn : Insn := { unit := unitLsu, reads := [sName 2, sName 1], writes := [], acts := true }
    let vInsn : Insn := { unit := unitLsu, reads := [sName 2, vName 1], writes := [], acts := true }
    let pInsn : Insn := { unit := unitLsu, reads := [sName 2, vName 1], writes := [sName 2], acts := true }
    Issues s first sInsn ∧ Issues s first vInsn ∧ Issues s first pInsn ∧ coreAddr 0 64 = .own 64 ∧
      CleanSram s (sramAddr (clusterOf 0) 64) 64 ∧ NoFlip s (sramAddr (clusterOf 0) 64) 64 := by
  dsimp only; refine ⟨by decide +kernel, by decide +kernel, by decide +kernel, by decide +kernel, fun w _ _ => ⟨rfl, rfl⟩, fun w _ _ => noFlip_reset _ _⟩
theorem witness_OwnClusterStores_misaligned :
    let s := runningWith [(2, 1)]
    Issues s first { unit := unitLsu, reads := [sName 2, sName 1], writes := [], acts := true } ∧
      Issues s first { unit := unitLsu, reads := [sName 2, vName 1], writes := [], acts := true } ∧
      Issues s first { unit := unitLsu, reads := [sName 2, vName 1], writes := [sName 2], acts := true } ∧
      BadAddress 0 ((s.core 0).reg 2) 2 True 0x02 ∧ BadAddress 0 ((s.core 0).reg 2) 64 False 0x02 := by
  dsimp only; refine ⟨by decide +kernel, by decide +kernel, by decide +kernel, ?_, ?_⟩ <;> exact ⟨rfl, by decide +kernel⟩

theorem witness_AtomicsOnSharedMemory :
    let s := runningWith [(2, 0x5FFFFF8)]
    Issues s first { unit := unitLsu, reads := [sName 2, sName 3, sName 1], writes := [sName 1], acts := true } ∧
      ((s.core 0).reg 2).toNat % 8 = 0 ∧ 0x4000000 ≤ ((s.core 0).reg 2).toNat ∧ ((s.core 0).reg 2).toNat < 0x6000000 ∧
      CleanSram s (sramAddr (clusterOf 0) 0x5FFFFF8) 8 ∧ NoFlip s (sramAddr (clusterOf 0) 0x5FFFFF8) 8 := by
  dsimp only; refine ⟨by decide +kernel, by decide +kernel, by decide +kernel, by decide +kernel, fun w _ _ => ⟨rfl, rfl⟩, fun w _ _ => noFlip_reset _ _⟩
theorem witness_AtomicsOnSharedMemory_outside :
    let s := runningWith [(2, 0x6000000)]
    Issues s first { unit := unitLsu, reads := [sName 2, sName 3, sName 1], writes := [sName 1], acts := true } ∧
      ¬ ((s.core 0).reg 2).toNat < 0x6000000 := by
  dsimp only; decide +kernel

theorem witness_VectorFloatLaneByLane : Issues running first (vectorInsn unitVec 1 [2, 3, 4]) ∧
    Issues running first (vectorInsn unitVec 1 [2, 3]) ∧ f32Val 0 ≠ .nan ∧ f32Val 0x7F800001 = .nan := by decide +kernel
theorem witness_VectorFloat_fma : f32Val 0x3F800000 = .fin 8388608 (-23) ∧
    (8388608 * 8388608 * 2 ^ (-23 + -23 - min (-23 + -23) (-23) : Int).toNat +
      8388608 * 2 ^ (-23 - min (-23 + -23) (-23) : Int).toNat : Int) ≠ 0 := by decide +kernel

theorem witness_VectorIntegerAndMoves : Issues running first (vectorInsn unitVec 1 [2]) ∧
    Issues running first (vectorInsn unitVec 1 [2, 3]) ∧ Issues running first (vectorInsn unitVec 1 [2, 3, 4]) := by decide +kernel

theorem witness_VredsumIsAFixedTree : Issues running first (vectorInsn unitVec 1 [2]) := by decide +kernel

theorem witness_ConversionsAndTranscendentals : Issues running first (vectorInsn unitXu 1 [2]) ∧
    Issues running first (vectorInsn unitVec 1 [2, 3]) ∧ f32Val 0x80000000 = .fin 0 (-149) ∧ f32Val 0xFF800000 = .inf true := by
  decide +kernel

/-- The system instructions' hypotheses, on a core that runs with nothing outstanding. -/
theorem witness_SystemInstructions : Issues running first (systemInsn [] []) ∧
    Issues running first { systemInsn [] [] with acts := true } ∧ (running.core 0).far = [] ∧ (running.core 0).loadsOut = false ∧
    (running.core 0).storeError = none ∧ (running.engine 0).queue = [] ∧ running.boot.vendorDebug = false ∧
    ¬ ((running.core 0).released = true ∧ (running.core 0).barrier = some 3) ∧ running.allReached 0 0 3 = false ∧
    running.allReached 0 0 1 = true ∧ (running.core 0).held = none ∧ (running.issuer first (systemInsn [] [])).insnWord = 0 := by
  decide +kernel
/-- Core 0 as `f` has it. -/
def runningAs (f : Core → Core) : State := running.modCore 0 f
theorem witness_SystemInstructions_waiting :
    Issues (runningAs fun k => { k with far := [{ req := none, store := true, va := 0, len := 8, data := [], dest := .none, pc := 0 }] }) first (systemInsn [] []) ∧
    Issues (runningAs fun k => { k with storeError := some (8, 1) }) first (systemInsn [] []) ∧
    Issues (runningAs fun k => { k with barrier := some 3, released := true }) first (systemInsn [] []) ∧
    Issues { running with boot := { running.boot with vendorDebug := true, scope := 1 } } first (systemInsn [] []) ∧
    (1 : BitVec 32).getLsbD 0 = true ∧
    ((runningAs fun k => { k with far := [{ req := none, store := false, va := 0, len := 8, data := [], dest := .none, pc := 0 }] }).core 0).loadsOut
      = true := by decide +kernel
/-- Core 0 that holds the blocks of its program counter, and one that holds none. -/
theorem witness_SystemInstructions_fetch :
    let holding := runningAs fun k => { k with ibuf := [(0, List.replicate 8 (some 0)), (1, List.replicate 8 (some 0))] }
    fetchable 0 (running.core 0).closeBundle.pc = true ∧ (running.core 0).ibuf = [] ∧ CleanSram running (sramAddr (clusterOf 0) 0) 64 ∧
    (holding.core 0).ibuf.map (·.1) = [0, 1] ∧ localOffset (holding.core 0).pc / 64 = 0 ∧ fetchable 0 0x40000000 = false := by
  refine ⟨by decide +kernel, by decide +kernel, fun w _ _ => ⟨rfl, rfl⟩, by decide +kernel, by decide +kernel, by decide +kernel⟩
theorem witness_FetchException : (runningAs fun k => { k with pc := 0x40000000 }).coreReady 0 = true ∧
    ((runningAs fun k => { k with pc := 0x40000000 }).core 0).loadsOut = false ∧
    fetchable 0 ((runningAs fun k => { k with pc := 0x40000000 }).core 0).closeBundle.pc = false := by decide +kernel
theorem witness_StallLimit :
    let s := { runningAs fun k => { k with stall := some (.fence, 0), stallLimit := 1 } with
      bights := { tab := [(256, { ran := 1 })] } }
    (s.core 0).run = .running ∧ (s.core 0).stall = some (.fence, 0) ∧ (s.core 0).stallLimit ≠ 0#32 ∧
    (s.core 0).stallLimit.toNat ≤ s.runCycles ((s.bightOfCluster (clusterOf 0)).getD 256) - 0 ∧
    (s.core 0).insnWord = 0 := by decide +kernel

/-- Core 0 runs with the staging registers of a 1 × 1 INT8 tile of two products, finished to an INT32 in SRAM. -/
def tiling (q : List Tile) : State :=
  { running with
    cores := [(0, { run := .running, staging := [(0x000, 0x080220C000000000), (0x008, 0x0000000200000002)] })]
    engines := [(0, { queue := q })] }
def waitingTile : Tile := { regs := [], tag := 1, core := 0, started := false }
theorem witness_Tiles_go : Issues (tiling []) first { unit := unitLsu, reads := [], writes := [], acts := true } ∧
    ((tiling []).engine 0).waiting.length < 8 ∧
    ({ regs := ((tiling []).core 0).staging, tag := 1, core := 0, started := false } : Tile).malformed = false ∧
    8 ≤ ((tiling (List.replicate 8 waitingTile)).engine 0).waiting.length ∧
    ({ regs := [], tag := 1, core := 0, started := false } : Tile).malformed = true := by decide +kernel
theorem witness_Tiles_start : (tiling [waitingTile]).clusterOn 0 = true ∧
    ((tiling [waitingTile]).engine 0).waiting = [waitingTile] ∧
    (((tiling [waitingTile]).engine 0).plane waitingTile.plane).state = .free ∧ waitingTile.accIn ≠ 1 ∧
    ({ waitingTile with regs := [(0x000, 0x1000000000000000)] } : Tile).accIn = 1 := by decide +kernel
theorem witness_Tiles_complete : ((tiling [{ waitingTile with started := true }]).engine 0).queue =
    [{ waitingTile with started := true }] ∧ waitingTile.finish = false := by decide +kernel

theorem witness_Accumulation : List.Perm [(some (0 : Int), Elem.fin 3 0, Elem.fin 5 (-2)), (none, .nan, .nan)]
    [(none, .nan, .nan), (some 0, .fin 3 0, .fin 5 (-2))] := List.Perm.swap _ _ _

/-- Core 0 waits for request 5, a load of 4 bytes into s3. -/
def loading (store : Bool) (x : ReqResult) : State :=
  { running with
    cores := [(0, { run := .running, far := [{ req := some 5, store := store, va := 0x1000, len := 4, data := []
                                               dest := if store then .none else .scalar 3 true, pc := 8
                                               before := if store then none else some ({} : Core).regs }] })]
    reqs := [{ id := 5, owner := .far 0, target := .hbm 0x1000, write := store, len := 4, result := x }] }
theorem witness_FarAccesses (x : ReqResult) (store : Bool) :
    ((((loading store x).core 0).far.find? (fun f => f.req == some 5)).map (·.store)) = some store ∧
    (((loading store x).req? 5).map (·.result)) = some x ∧
    ((loading store x).core 0).far.map (fun f => f.before.isSome) = [!store] ∧
    (loading store x).residentCmd (((loading store x).bightOfCluster (clusterOf 0)).getD 256) = none := by
  cases store <;> exact ⟨rfl, rfl, rfl, rfl⟩
theorem witness_FarAccesses_none : (loading true .stored).req? 6 = none := rfl

/-- A vector and a credit on their hops to router 0, and two messages on the Lanyard. -/
def carrying : State :=
  { running with mesh :=
      { flights := [{ bight := 0, router := 0, port := 1, vec := some 7, credit := true, due := 0 }]
        lan := [{ ty := 4, dest := stopMgmt, src := 0, high := false, payload := [0, 0x0D, 0, 0, 0, 0] },
                { ty := 5, dest := stopMgmt, src := 0, high := false, payload := [0, 0] }] } }
theorem witness_Mesh : (carrying.mesh.flights[0]?).map (·.vec) = some (some 7) ∧
    Tab.find? (carrying.router 0).input 1 = none ∧ (carrying.mesh.lan[0]?).map (·.ty) = some 4 ∧
    (carrying.mesh.flights[0]?).map (·.due) = some 0 ∧ 0 ≤ (carrying.bight 0).sigma ∧
    (carrying.mesh.lan[1]?).map (·.ty) = some 5 ∧ (carrying.bight 0).resident = none ∧ carrying.mesh.lan[2]? = none := by
  decide +kernel
theorem witness_Mesh_ratio : let s := { running with power := { halfTemp := [(0, 210)] } }
    (0 : Nat) < 32 ∧ (2 : Nat) ≠ s.divOf 0 ∧ 2 = s.wantedDiv 0 := by decide +kernel

theorem witness_DomainRequests : Serves serving .ethernet true true ∧ serving.domLegal 0 .off = true ∧ stateUsed 640 .off = false := by
  decide +kernel

/-- Cluster 0 on its way from OFF to LOW, and stack 0 failing to leave OFF. -/
def switching : State :=
  { domains := [(0, { state := .changing, target := .low, origin := .off }), (544, { state := .changing, target := .on, origin := .off })] }
theorem witness_DomainTransitionsEnd : (switching.domain 0).state = .changing ∧ (switching.domain 0).origin = .off ∧
    switching.sram.retired = [] ∧ (switching.domain 544).state = .changing ∧ (switching.domain 544).target ≠ .off ∧
    (switching.domain 1).state ≠ .changing := by decide +kernel

/-- Self-policy mode, half-die 0 and stack 0 ON, cluster 0 held for memory. -/
def quietModule : State :=
  { serving with frame := { selfPolicy := true }, now := 1000000, memHold := [0]
                 domains := [(512, { state := .on }), (544, { state := .on })] }
theorem witness_MemoryHoldBits : Serves quietModule .mailbox true false ∧ quietModule.bights.tab = [] ∧
    quietModule.errors.rootstock = false ∧ quietModule.domain 31 = {} ∧ quietModule.dom (512 + halfOfCluster 0) = .on ∧
    quietModule.bightOfCluster 0 = none ∧ (0 ∈ quietModule.memHold) := by decide +kernel
theorem witness_MemoryHoldBits_cleared :
    ({ quietModule with domains := [(0, { state := .low })] }.domain 0).final = .low := by decide +kernel
theorem witness_SelfPolicyHbmLow : quietModule.frame.selfPolicy = true ∧ quietModule.dom (544 + 0) = .on ∧
    (quietModule.group 0).servedAt + 1000000 ≤ quietModule.now ∧ quietModule.stackWaited 0 = false ∧
    quietModule.stackOfBight 0 = false := by decide +kernel
/-- A lashed bight 0 of one cluster that has been idle for its idle time of 1 µs. -/
def idling : State :=
  { quietModule with bights := { tab := [(0, { state := .lashed, idleLowOk := true, idleTime := 1
                                               place := { w := 1, h := 1 } })] } }
theorem witness_IdleLow : idling.frame.selfPolicy = true ∧ (idling.bight 0).idleLowOk = true ∧ (idling.bight 0).state = .lashed ∧
    (idling.bight 0).idleTime ≠ 0 ∧ (idling.bight 0).idleLow = false ∧ idling.bightRuns 0 = false ∧
    idling.hasLaunchable 0 = false ∧ (idling.bight 0).idleSince + 1000 * (idling.bight 0).idleTime ≤ idling.now ∧
    (idling.bight 0).place.memberClusters.Nodup := by decide +kernel

/-- A module that keeps frames: its supply is good and it is out of reset. -/
def framed (f : Frame) (now : Nat) : State := { serving with supply := { good := true, inReset := false }, frame := f, now := now }
/-- An edge 10 ms after the last boundary of a locked frame of 10 ms counts, as does the earliest at 8.75 ms and the latest at
15 ms. -/
theorem witness_FrameCounter_edge (dt : Nat) (h : dt ∈ [8750000, 10000000, 15000000]) :
    let s := framed { locked := true, period := 10000000 } dt
    s.supply.good = true ∧ s.supply.inReset = false ∧ s.frame.locked = true ∧
    7 * s.frame.period ≤ 8 * (s.now - s.frame.boundaryAt) ∧ 2 * (s.now - s.frame.boundaryAt) ≤ 3 * s.frame.period := by
  simp only [List.mem_cons, List.not_mem_nil, or_false] at h
  rcases h with rfl | rfl | rfl <;> decide
theorem witness_FrameCounter_lock : let s := framed { edges := [20000000, 10000000] } 30000000
    s.frame.locked = false ∧ s.frame.edges = 20000000 :: 10000000 :: [] ∧
    matching (s.now - 20000000) (20000000 - 10000000) = true := by decide
theorem witness_FrameCounter_preset : Serves serving .mailbox true true ∧ (5 : BitVec 64).toNat < 2 ^ 48 ∧
    2 ^ 48 ≤ (0x0001000000000000 : BitVec 64).toNat := by decide +kernel

theorem witness_Edges : let f := framed { locked := true, period := 10000000, earlyNow := true, earlyBefore := true }
    8 * ((f 8749999).now - 0) < 7 * (f 0).frame.period ∧ 3 * (f 0).frame.period < 2 * ((f 15000001).now - 0) ∧
    (f 10000000).supply.good = true ∧ (f 10000000).supply.inReset = false ∧ (f 0).frame.earlyNow = true ∧
    (f 0).frame.earlyBefore = true := by decide
theorem witness_Edges_unlocked : let s := framed { edges := [2000000, 1] } 4010000
    s.frame.locked = false ∧ matching (s.now - 2000000) (2000000 - 1) = true ∧
    matching (s.now + 11000 - 2000000) (2000000 - 1) = false := by decide
theorem witness_Edges_off : State.reset.supply.good = false ∨ State.reset.supply.inReset = true := by decide
theorem witness_NominalPeriod : Serves serving .ethernet true false ∧ 1000 ≤ (1000 : BitVec 32).toNat ∧
    (100000 : BitVec 32).toNat ≤ 100000 ∧ ¬ 1000 ≤ (999 : BitVec 32).toNat := by decide +kernel

/-- Bight 0 is lashed on cluster 0, with a hedge of that rectangle. -/
def lashedOne : State :=
  { serving with bights := { tab := [(0, { state := .lashed, place := { w := 1, h := 1 } })] } }
theorem witness_WrittenLimits : Serves lashedOne .mailbox true false ∧ Serves lashedOne .mailbox false true ∧
    (0 ∈ lashedOne.lashedBights) ∧ ¬ (1 ∈ lashedOne.lashedBights) ∧ (lashedOne.bight 0).state = .lashed := by decide +kernel
theorem witness_WrittenLimits_hedge : (lashedOne.bight 0).place.within 0x1F0F0000 = true := by decide +kernel

/-- A window of 12,000 W and one of 11,000 W, outside reset; State.reset is the case in reset. -/
theorem witness_PowerWindows : serving.supply.inReset = false ∧ State.reset.supply.inReset = true ∧
    11000 * 2 < ((List.replicate 2 { inputV := 800, inputW := 12000, rails := [] : PowerSample }).map fun x => x.inputW).sum ∧
    ((List.replicate 2 { inputV := 800, inputW := 11000, rails := [] : PowerSample }).map fun x => x.inputW).sum ≤ 11000 * 2 := by
  decide +kernel

/-- READY in host-policy mode under a cap of 5,000 W, with two POWER messages on the Lanyard and a clock change announced. -/
def capped : State :=
  { running with
    boot := { state := .ready }, supply := { inReset := false }, now := 20000000
    power := { cap := some 5000, clockNext := [(2200, 0)] }
    mesh := { lan := [{ ty := 3, dest := stopMgmt, src := 0, high := false, payload := [0x40000000] },
                      { ty := 3, dest := stopMgmt, src := 0, high := false, payload := [0x50000000] }] }
    domains := [(512, { state := .on })] }
theorem witness_Trim : capped.isReady = true ∧ State.reset.isReady = false ∧ capped.power.cap = some 5000 ∧
    capped.frame.selfPolicy = false ∧ capped.power.shareSteps = [] ∧ (0 : Nat) ≤ capped.baseCycle ∧
    (capped.mesh.lan[0]?).map powerOp = some 4 ∧ (capped.mesh.lan[1]?).map powerOp = some 5 ∧
    capped.dom (domHalf 0) = .on ∧ capped.dom (domHalf 1) ≠ .on ∧ capped.mesh.lan[2]? = none := by decide +kernel

/-- A wear unit of die 0 is due, and none of die 1, which has begun one. -/
def worn : State := { serving with power := { begun := [(1, 1)] } }
theorem witness_Wear : worn.isReady = true ∧
    Tab.look 0 worn.power.begun 0 * wearUnit ≤ Tab.look 0 worn.power.stress 0 ∧
    ¬ Tab.look 0 worn.power.begun 1 * wearUnit ≤ Tab.look 0 worn.power.stress 1 := by decide +kernel

/-- READY with a low supply, and in Reef with a supply that has come back. -/
def sagging : State :=
  { serving with supply := { inReset := false, samples := [4500, 4500, 4500, 4500], charging := true } }
def risen : State :=
  { serving with
    supply := { inReset := false, samples := [4800, 4800, 4800, 4800], goodCount := 200, charging := false }, power := { reef := true } }
theorem witness_Supply : sagging.isReady = true ∧ sagging.power.reef = false ∧ sagging.errors.rootstock = false ∧
    sagging.errors.entering = false ∧ sagging.vf < 4600 ∧ sagging.supply.charging = true ∧ risen.supply.charging = false ∧
    ¬ risen.vf < 4600 ∧ risen.power.reef = true ∧ 200 ≤ risen.supply.goodCount ∧ 4600 ≤ risen.vf := by decide +kernel
/-- A sample of 115 °C at every sensor, where the last was cooler: it trips. -/
theorem witness_JunctionSample : serving.supply.inReset = false ∧ Tab.look 0 serving.power.halfTemp 0 < 230 ∧
    (List.replicate 544 (230 : Int)).getD (512 + 31) 0 = 230 ∧ halfOfCluster 511 = 31 := by decide +kernel
theorem witness_Trip : State.reset.supply.inReset = true ∧ serving.supply.inReset = false ∧ serving.isReady = true ∧
    ({ serving with boot := {} } : State).isReady = false ∧ (230 : Int) ≤ 230 ∧ (229 : Int) < 230 := by decide +kernel

/-- In reset with 200 good samples, RESET_IN# high or low. -/
def ready200 (low : Bool) : State := { State.reset with supply := { goodCount := 200, resetInLow := low } }
theorem witness_Resets : (ready200 false).supply.inReset = true ∧ 200 ≤ (ready200 false).supply.goodCount ∧
    (ready200 false).supply.resetInLow = false ∧ (ready200 true).supply.resetInLow = true ∧
    State.reset.supply.goodCount < 200 ∧ serving.supply.inReset = false ∧ Serves serving .mailbox false true := by
  decide +kernel

/-- A module whose entry to Rootstock a cause has begun, and one in Rootstock with no cause left. -/
def entering (causes : BitVec 3) : State := { serving with errors := { entering := true, causes := causes } }
def inRootstock : State :=
  { serving with errors := { rootstock := true, events := [(0, 5, 0x40, 0), (0, 6, 0x41, 0)] } }
theorem witness_Rootstock : (entering 1).errors.entering = true ∧ (entering 1).errors.causes.getLsbD 0 = true ∧
    (entering 4).errors.causes.getLsbD 1 = false ∧ (entering 4).errors.causes.getLsbD 0 = false ∧
    Serves inRootstock .mailbox false false ∧ inRootstock.errors.entering = false ∧ inRootstock.errors.rootstock = true ∧
    inRootstock.errors.causes = 0 ∧ Serves (entering 1) .mailbox false false ∧ Serves serving .mailbox false false := by
  decide +kernel

theorem witness_SramCode : (0 : Nat) < 81 ∧ (80 : Nat) < 81 ∧ (0 : Nat) ≠ 80 ∧ (63 : Nat) < 81 ∧ (64 : Nat) < 81 ∧ (63 : Nat) ≠ 64 := by
  decide

/-- A pending write-back of the first word of cluster 0, which a wrong check bit made; one report of each kind on the Lanyard;
row block 0 is a candidate, in self-policy mode. -/
def protecting : State :=
  { serving with
    domains := [(0, { state := .on })], frame := { serving.frame with selfPolicy := true }
    host := { serving.host with linkUp := [0] }
    sram := { writeBacks := [(0, sramBase / 8)], history := [(sramBase / 8, true)], candidates := [0] }
    sramCheck := [(sramBase / 8, 1)]
    mesh := { lan := [{ ty := 9, dest := stopMgmt, src := 0, high := false, payload := [0x20000000, 0, 0x40000000] },
                      { ty := 9, dest := stopMgmt, src := 0, high := false, payload := [0x40000000, 0, 0] },
                      { ty := 9, dest := stopMgmt, src := 0, high := false, payload := [0x10000000, 0, 0] }] } }
theorem witness_SramProtection : protecting.sram.writeBacks.find? (fun e => e.1 == 0) = some (0, sramBase / 8) ∧
    (sramDecode (protecting.sramDisc (sramBase / 8))).deliver (protecting.sramWord (sramBase / 8)) = some 0 ∧
    protecting.retiredWord (sramBase / 8) = false ∧ protecting.prunerRuns 0 = true ∧
    protecting.nextUnretired 0 0 0 = some 0 ∧ sramDecode (protecting.sramDisc (bankWord 0 0 0)) = .corrected none ∧
    sramDecode (protecting.sramDisc (bankWord 0 1 0)) = .clean ∧ sramDecode 3 = .bad := by decide +kernel
theorem witness_SramReports : (protecting.mesh.lan.map fun m => (m.payload.getD 0 0).toNat / 2 ^ 28) = [2, 4, 1] ∧
    (memerrAddr 0 0x40000000 / 8, true) ∈ protecting.sram.history ∧ 0 ∈ protecting.sram.candidates ∧
    protecting.isMember 0 = false ∧ protecting.memHold = [] ∧ Serves protecting .mailbox false true ∧
    protecting.regsOpen 0 = true ∧ State.reset.regsOpen 0 = false := by decide +kernel

/-- A read waiting at the gate of group 0, whose stack is in the given state; a code word of group 0 to be written back; a cool
group 0 in row 1. -/
def gated (x : DomState) : State :=
  { serving with
    domains := [(domStack 0, { state := x })]
    hbm := { groups := [(0, { queue := [5], writeBacks := [0], row := 1, coolSamples := 99 })] }
    reqs := [{ id := 5, owner := .aperture 0, target := .hbm 0x1000, write := false, len := 4, master := 3 }] }
theorem witness_Gate : ((gated .on).group 0).queue ≠ [] ∧ (gated .on).stackHeld 0 = true ∧ (gated .off).stackHeld 0 = false ∧
    (gated .low).dom (domStack 0) = .low ∧ (gated .low).stackHeld 0 = true ∧ ((gated .off).waitingReqs 0).map (·.id) = [5] ∧
    ((gated .on).pickRelease 0).1.map (·.id) = some 5 ∧ (gated .on).errors.rootstock = false ∧
    (gated .on).domOff (domStack 0) = false := by decide +kernel
/-- The patrol's read is the one that the gate of a group in service releases; with no read due, no request passes. -/
theorem witness_Patrol : let s := { gated .on with now := 1000, hbm := {}, reqs := [] }
    (s.pickOf 0 (headsOf (s.waitingReqs 0 ++ [{ ownReq 0 64 with id := s.nextReq }]))).1.map (·.id) = some s.nextReq ∧
    (let v := { gated .on with now := 1000, reqs := [{ ownReq 0x1000 64 with id := 5 }] }
     (v.pickOf 0 (headsOf (v.waitingReqs 0 ++ [{ ownReq 0 64 with id := 9 }]))).1.map (·.id) = some 5) ∧
    (s.group 0).temp < 230 ∧ s.domOff (domStack 0) = false := by decide +kernel
theorem witness_Gate_setting : Serves (gated .on) .mailbox false true ∧ ((gated .on).group 1).floorSum = 0 ∧
    ((gated .on).bight 0).state = .free ∧ ((0 : BitVec 64).extractLsb' 6 9).toNat = 0 ∧
    ((0x4000 : BitVec 64).extractLsb' 6 9).toNat = 256 ∧ ((0x4C80 : BitVec 64).extractLsb' 6 9).toNat = 306 ∧
    ((0x4CC0 : BitVec 64).extractLsb' 6 9).toNat = 307 := by decide +kernel

/-- Bight 0 LASHING with nothing to wait for, bight 1 RELEASING with half-die 0 to clear, bight 2 RELEASING and clear. -/
def releasing : State :=
  { serving with
    domains := [(0, { state := .on })]
    bights := { tab := [(0, { state := .lashing }), (1, { state := .releasing, clearing := [0] }), (2, { state := .releasing })] } }
theorem witness_Lash : Serves releasing .mailbox false false ∧ releasing.errors.rootstock = false ∧
    Serves inRootstock .mailbox false false ∧ inRootstock.errors.rootstock = true ∧
    (releasing.bight 0).state ≠ .free ∧ (releasing.bight 3).state = .free ∧
    releasing.needsMet 0 (releasing.bight 0).place = true ∧ (0 : Nat) ∈ (releasing.bight 1).clearing ∧
    (releasing.bight 1).relash = none ∧ releasing.bightQuiet 1 = true ∧ (releasing.bight 2).clearing = [] ∧
    (releasing.bight 2).relash = none ∧ releasing.bightQuiet 2 = true := by decide +kernel

/-- A command of a kind, in a phase; a queue of function 0 on bight 0 that holds one command. -/
def aCmd (payload : Payload) (phase : Phase) : Cmd :=
  { seq := 0, flags := 0, cls := 0, deadline := 0, est := 0, fence := none, fenceValue := 0, objlist := 0, payload, phase }
def queueWith (c : Cmd) : Queue :=
  { fn := 0, localQ := 0, asid := 0, bight := 0, size := 6, vector := 2, ring := 0x1000, cring := 0x2000, headMirror := 0, cmds := [c] }
/-- Bight 0 with a relash in the given state, to the rectangle it has; queue 0 has a RELASH that runs. -/
def relashing (x : BightState) (r : Option Relash) : State :=
  { serving with
    now := 5000
    bights := { tab := [(0, { state := x, relash := r })] }
    queues := [(0, queueWith (aCmd (.relash []) .running))] }
theorem witness_Relash : let r : Relash := { queue := 0, seq := 0, target := {}, kill := false, drainLimit := 1, quiesceAt := some 0 }
    ((relashing .prepare (some r)).bight 0).relash = some r ∧ (relashing .prepare (some r)).allLoaded 0 r.target = true ∧
    (relashing .prepare (some r)).needsMet 0 r.target = true ∧ (relashing .quiesce (some r)).now = 5000 ∧
    (relashing .quiesce (some r)).otherRunning 0 = [] ∧ (relashing .prepare (some r)).power.reef = false ∧
    ((relashing .lashed none).active 0).map (·.2.phase) = some .running ∧
    ((relashing .lashed none).bight 0).relash = none ∧
    ((relashing .switchover (some r)).bight 0).due = 0 ∧ r.switched = false ∧ r.cancelled = false ∧
    ({ r with switched := true, cancelled := true } : Relash).cancelled = true := by dsimp only; decide +kernel

/-- A module whose ports are up; ASID 7 is being torn down and nothing is left of it. -/
def tearing : State :=
  { serving with host := { serving.host with linkUp := [0, 1], teardowns := [(7, [])] } }
theorem witness_Flr : tearing.regsOpen 1 = true ∧ 1 ∉ tearing.host.flr ∧ tearing.removing 1 = false ∧
    tearing.regsOpen 63 = true ∧ tearing.regsOpen 0 = true ∧ State.reset.regsOpen 0 = false ∧
    tearing.teardownDue 7 = true ∧ tearing.teardownDue 8 = false ∧ Serves tearing .mailbox false false ∧
    (tearing.readRecord 0 64).forgetSteps.readContext 0 = (some none, (tearing.readRecord 0 64).forgetSteps) ∧
    tearing.host.recordWaiting = [] ∧ allZero (slice [0, 0] 2 30) = true := by decide +kernel

/-- A command at the head of a queue on bight 0, which is LASHED on cluster 0 and serves it. -/
def heading (c : Cmd) : State :=
  { serving with
    domains := [(0, { state := .on })], bights := { tab := [(0, { state := .lashed, place := { w := 1, h := 1 }, runList := [(0, 0)] })] }
    queues := [(0, queueWith c)] }
theorem witness_Launch : let c := aCmd (.signal 0xFFFF 0) .waiting
    let s := heading c
    (s.active 0).map (·.2) = some c ∧ (s.bight 0).launches = true ∧ (s.bight 0).permits 0 = true ∧ (s.bight 0).permits 1 = false ∧
    c.launched = false ∧ c.objlist = 0 ∧ c.isRecv = false ∧ s.cmd? 0 0 = some c ∧ s.launchTest 0 c = some 0 ∧
    s.unheld 0 c = true ∧ s.mustYield 0 (queueWith c) c = false ∧ (s.bight 0).idleLow = false ∧
    (∀ k ∈ (s.bight 0).place.memberClusters, s.dom k = .on) := by dsimp only; decide +kernel
theorem witness_Run : let c := aCmd (.run 0 []) .listed
    let s := heading c
    (s.active 0).map (·.2) = some c ∧ (s.bight 0).runList.head? = some (0, 0) ∧ (s.bight 0).resident = none ∧
    (s.bight 0).switching = none ∧ s.power.reef = false ∧ (s.bight 0).mayRun = true ∧ s.doomed 0 0 0 = false ∧
    c.saved = false ∧ (heading (aCmd (.move 0 0 64 0) .running)).working 0 = some (queueWith (aCmd (.move 0 0 64 0) .running), aCmd (.move 0 0 64 0) .running) ∧
    (heading (aCmd (.run 0 []) .opening)).cmd? 0 0 = some (aCmd (.run 0 []) .opening) := by dsimp only; decide +kernel
/-- A RUN is resident, its slice is over and another waits; a switch to a listed RUN with nothing to save. -/
def slicing : State :=
  { serving with
    now := 5000
    bights := { tab := [(0, { state := .lashed, resident := some (0, 0, 0), slice := 1, runList := [(1, 0)] }),
                        (1, { state := .lashed, switching := some (none, (1, 0), 0) })] }
    queues := [(0, queueWith (aCmd (.run 0 []) .running)), (1, queueWith (aCmd (.run 0 []) .listed))] }
theorem witness_Slice : (slicing.bight 0).resident = some (0, 0, 0) ∧ (slicing.bight 0).runList.head? = some (1, 0) ∧
    (slicing.residentCmd 0).map (·.2.2.phase) = some .running ∧ (slicing.cmd? 1 0).map (·.phase) = some .listed ∧
    slicing.power.reef = false ∧ (slicing.bight 0).switching = none ∧ slicing.doomed 0 0 0 = false ∧ (slicing.bight 1).switching = some (none, (1, 0), 0) ∧
    (slicing.bight 1).resident = none ∧ (slicing.bight 1).mayRun = true ∧ slicing.outgoing none = none ∧
    ((slicing.residentCmd 0).map fun e => e.2.2.direct) = some false ∧ slicing.working 2 = none := by decide +kernel

/-- A working WAIT, SIGNAL and COMMIT-GROUP, and a fence at 5. -/
def fenced (payload : Payload) : State :=
  { heading { aCmd payload .running with bound := 1 } with
    fences := [(9, { word := 5, last := 5, asid := 0, flags := 0, vector := 2, mirror := 0, share := 0, incarnation := 1 })] }
theorem witness_Fences : ((fenced (.wait 9 4)).working 0).map (·.2.payload) = some (.wait 9 4) ∧
    ((fenced (.wait 9 4)).liveFence 9 1).map (·.word) = some 5 ∧ (fenced (.wait 9 4)).liveFence 8 1 = none ∧
    ((fenced (.signal 9 6)).working 0).map (·.2.begun) = some false ∧ (5 : Nat) < 6 ∧
    ((fenced (.commitGroup 0)).working 0).map (·.1.groupDone) = some 0 ∧
    groupMembers (queueWith (aCmd (.commitGroup 0) .running)) 0 = [] := by decide +kernel
/-- A finished WAIT on a bight whose register holds the given entries. -/
def registering (l : List RegEntry) : State :=
  { heading { aCmd (.wait 9 4) .running with begun := true } with bights := { tab := [(0, { state := .lashed, creg := l })] } }
theorem witness_Register : let s := registering []
    ((s.cmd? 0 0).map fun c => s.finished 0 (queueWith c) c) = some true ∧ ((registering [.commit 0 0]).bight 0).creg = [.commit 0 0] ∧
    ((registering [.kill 0 0 1 2 true]).bight 0).creg = [.kill 0 0 1 2 true] ∧ ((s.cmd? 0 0).map Cmd.live?) = some true ∧
    s.cmdBusy 0 (aCmd (.wait 9 4) .killing) 0 = false ∧ (s.queue? 7).isNone = true ∧ ((s.queue? 0).map (·.next)) = some 0 ∧
    Serves s .mailbox false false ∧ ({ aCmd (.wait 9 4) .running with flags := 1 } : Cmd).direct = true := by
  dsimp only; decide +kernel

/-- Queue 0 RUNNING with a descriptor to fetch, on a module whose ports are up. -/
def ringing : State :=
  { serving with
    host := { serving.host with linkUp := [0, 1] }, queues := [(0, { queueWith (aCmd (.wait 0 0) .running) with tail := 1, cmds := [] })] }
theorem witness_Queues : Serves ringing .mailbox false false ∧ Serves inRootstock .mailbox false false ∧
    inRootstock.errors.rootstock = true ∧ ringing.errors.rootstock = false ∧ ringing.regsOpen 0 = true ∧
    ((ringing.queue? 0).map ringing.mayFetch) = some true ∧ ((ringing.queue? 0).map ringing.served) = some true ∧
    ringing.localQueue 0 1 = none ∧ (ringing.localQueue 0 0).isSome = true ∧ ringing.queue? 1 = none ∧
    Serves ringing .mailbox false true ∧ ringing.host.vfEnabled = [] ∧ ringing.regsOpen 63 = true ∧
    (0xFF : BitVec 8).toNat = 255 ∧ State.reset.regsOpen 0 = false := by decide +kernel

/-- Fence 9 live, and a read of host memory that waits. -/
def hosting : State :=
  { ringing with
    fences := [(9, { word := 5, last := 5, asid := 0, flags := 0, vector := 2, mirror := 0, share := 0, incarnation := 1 })]
    bights := { tab := [(0, { state := .lashed })] }
    reqs := [{ id := 3, owner := .none, target := .host 0 0 0x1000, write := false, len := 4 }] }
theorem witness_HostLink : Serves hosting .mailbox false false ∧ hosting.boot.imageRead = none ∧ hosting.fenceLive 9 = true ∧ hosting.fenceLive 8 = false ∧
    (hosting.fence? 9).map (·.live) = some true ∧ hosting.contextFn 0 = none ∧ (hosting.bight 0).state ≠ .free ∧
    (hosting.bight 1).state = .free ∧ 0 ∈ hosting.host.linkUp ∧ 2 ∉ hosting.host.linkUp ∧
    ((hosting.req? 3).map Req.hostPending) = some true ∧ hosting.req? 4 = none ∧ hosting.host.recordWaiting = [] := by decide +kernel
/-- The image's read and the token's are under way; a record waits. -/
def fetchingImage : State :=
  { hosting with
    boot := { hosting.boot with state := .loading, imageRead := some 4, tokenRead := some 5 }
    host := { hosting.host with recordWaiting := [(2, [])] } }
theorem witness_HostLink_image : fetchingImage.boot.imageRead = some 4 ∧ fetchingImage.boot.tokenRead = some 5 ∧
    fetchingImage.req? 4 = none ∧ fetchingImage.req? 5 = none ∧ fetchingImage.req? 6 = none ∧
    fetchingImage.host.recordWaiting ≠ [] ∧ fetchingImage.boot.state = .loading := by decide +kernel
/-- A context whose owner the module has read: the entry's read has passed its gate. -/
def contexts (b : Bytes) : State :=
  { serving with
    domains := [(512, { state := .on }), (544, { state := .on })], xlat := { contextTable := 1 }
    reqs := [{ ownReq 16 16 with step := .passed, result := .data b }] }
theorem witness_HostLink_context : let owned := contexts (List.replicate 9 0 ++ [1] ++ List.replicate 6 0)
    (owned.forgetSteps.readContext 1).1 = some (some 0) ∧ owned.torn 1 = false ∧
    ((contexts (List.replicate 16 0)).forgetSteps.readContext 1).1 = some none ∧
    (({ gated .low with xlat := { contextTable := 1 } } : State).readContext 1).1 = none := by dsimp only; decide +kernel
theorem witness_TeardownCheck : let s := { serving with host := { serving.host with tearKills := [7] } }
    let busy := { s with queues := [(0, { queueWith (aCmd (.wait 9 4) .running) with asid := 7 })] }
    s.host.tearKills = [7] ∧ s.tearKilled 7 = true ∧ busy.tearKilled 7 = false := by dsimp only; decide +kernel

/-- Function 1 with an enabled ring, an open batch, a held and a tagged fault, and a counter on die 0 at the threshold. -/
def faulting : State :=
  { ringing with
    now := 60000, dict := { ringing.dict with expertMbox := true }
    host := { ringing.host with fns := [(1, { batch := some (1, 0), ringBase := 0x10 })] }
    xlat := { counters := [(0, [{ asid := 0, region := 0, count := 0xFFFFFFFF }])]
              faults := [{ fn := 1, tag := none, requester := .core 0, page := 0, asid := 0, va := 0, reason := 1, write := false
                           bight := none, queue := 0, seq := 0, stamp := 0 },
                         { fn := 1, tag := some 7, requester := .core 1, page := 0, asid := 0, va := 0, reason := 1, write := false
                           bight := none, queue := 0, seq := 0, stamp := 0 }] } }
theorem witness_Tables : Serves faulting .mailbox false true ∧ faulting.allFree = true ∧ lashedOne.allFree = false ∧
    Serves lashedOne .mailbox false true ∧ ((0xFFFFFFFF0001 : BitVec 64).extractLsb' 16 32).toNat * 65536 + 65536 > hbmLimit ∧
    (0 : Nat) + 0x1000000 ≤ hbmLimit := by decide +kernel
theorem witness_Faults : (faulting.fn 1).batch = some (1, 0) ∧ (faulting.heldFaults 1).length = 1 ∧
    (faulting.fn 1).ringFree ≠ 0 ∧ faulting.regsOpen 1 = true ∧ (faulting.taggedFault 1 7).isSome = true ∧
    faulting.taggedFault 1 8 = none ∧ (faulting.fn 2).batch = none ∧ State.reset.regsOpen 1 = false ∧
    ((Tab.look [] faulting.xlat.counters 0)[0]?).map (·.count) = some 0xFFFFFFFF ∧
    faulting.xlat.threshold ≤ 0xFFFFFFFF ∧ faulting.host.regWaiting = [] ∧ faulting.barWrites (· == 1) = false ∧ (Tab.look [] faulting.xlat.counters 1)[0]? = none := by decide +kernel

/-- Sixteen outstanding invalidations or fewer; window 3 open and one that an invalidation closes; a request at port 0. -/
def invalidating (n : Nat) : State :=
  { ringing with
    dict := { ringing.dict with expertMbox := true }
    xlat := { inbound := [(3, { state := 1 })]
              invs := { origin := .window 4, abort := false, waits := [], kills := [] } ::
                List.replicate n { origin := .control 1, abort := false, waits := [9], kills := [] } } }
theorem witness_Inv : (invalidating 16).regsOpen 0 = true ∧
    ((invalidating 16).xlat.invs.filter fun x => x.origin.isControl).length = 16 ∧
    ((invalidating 15).xlat.invs.filter fun x => x.origin.isControl).length = 15 ∧
    ((invalidating 15).nextInv (invalidating 15).xlat.invs false).map (·.origin) = some (.window 4) ∧
    State.reset.nextInv State.reset.xlat.invs false = none ∧ Serves (invalidating 0) .mailbox true false ∧
    ((invalidating 0).inWin 3).state = 1 ∧ ((invalidating 0).inWin 4).state ≠ 1 := by decide +kernel
/-- A write through BAR2 of function 1 waits at its gate: a resolution and an invalidation wait behind it. -/
theorem witness_RegWaiting : let s := { faulting with
      reqs := [{ id := 5, owner := .aperture 1, target := .hbm 0x1000, write := true, len := 4, data := [0, 0, 0, 0] }] }
    s.barWrites (· == 1) = true ∧ s.barWrites (· == 2) = false ∧ s.barWrites (fun _ => true) = true ∧
    (s.taggedFault 1 7).isSome = true := by dsimp only; decide +kernel
theorem witness_Aperture : let s := ringing
    s.fnUp 1 = true ∧ s.fnUp 0 = true ∧ s.entryPort 1 = (s.portOfFn 1, s) ∧ 0x3FFFFFFC0 + 64 ≤ 2 ^ 34 ∧ (4096 - 64) % 4096 + 64 ≤ 4096 ∧ s.isReady = true ∧ (s.fn 1).aper.getLsbD 63 = false ∧
    ({ s with boot := {} } : State).isReady = false ∧
    (({ s with host := { s.host with fns := [(1, { aper := 0x8000000000000000 })] } } : State).fn 1).aper.getLsbD 63 = true := by
  decide +kernel

/-- Port 0 in the given state with a flit to replay. -/
def linked (st : Nat) : State :=
  { serving with
    now := 4000
    fabric := { number := 1, ports := [(0, { state := st, replay := [(0, [])], replays := 3 })] } }
theorem witness_Port : ((linked 1).port 0).state = 1 ∧ ((linked 2).port 0).state = 2 ∧ ((linked 4).port 0).state = 4 ∧
    ((linked 2).port 0).nakSent = false ∧ ((linked 2).port 0).replay ≠ [] ∧ ((linked 2).port 0).ackAt + 4000 ≤ (linked 2).now ∧
    ((linked 2).port 0).replays < 16 ∧ (List.replicate 256 (0 : Byte)).length = 256 ∧ ((linked 1).port 1).state = 0 := by
  decide +kernel
/-- A flit whose CRC holds. -/
theorem witness_Port_crc : ∃ flit : Bytes, flit.length = 256 ∧ crc32c (slice flit 0 252) = BitVec.ofNat 32 (leAt flit 252 4) := by
  have front : ∀ p q : Bytes, slice (p ++ q) 0 p.length = p := fun p q => by
    apply List.ext_getElem
    · simp [slice]
    · intro i h1 h2
      simp [slice, List.getElem?_append_left h2, List.getElem?_eq_getElem h2]
  have back : ∀ p q : Bytes, slice (p ++ q) p.length q.length = q := fun p q => by
    apply List.ext_getElem
    · simp [slice]
    · intro i h1 h2
      simp [slice, List.getElem?_append_right, List.getElem?_eq_getElem h2]
  obtain ⟨p, hp⟩ : ∃ p : Bytes, p.length = 252 := ⟨List.replicate 252 0, List.length_replicate⟩
  obtain ⟨c, hc⟩ : ∃ c, c = crc32c p := ⟨_, rfl⟩
  have hl : (leBytes 4 c.toNat).length = 4 := rfl
  refine ⟨p ++ leBytes 4 c.toNat, by rw [List.length_append, hp, hl], ?_⟩
  have h1 := front p (leBytes 4 c.toNat)
  have h2 := back p (leBytes 4 c.toNat)
  rw [hp] at h1 h2
  rw [hl] at h2
  have h3 : leNat (leBytes 4 c.toNat) = c.toNat := by
    have := c.isLt
    simp only [leBytes, leNat, BitVec.toNat_ofNat]
    omega
  rw [h1, leAt, h2, h3, ← hc, BitVec.ofNat_toNat, BitVec.setWidth_eq]

/-- Port 0 UP: a read of another module that is finished, a read of this module that waits, one to be resent, a response to the
second, and a REDUCE for a closed window. -/
def exchanging : State :=
  { linked 2 with
    fabric := { (linked 2).fabric with ports := [(0, { state := 2, rxq := [
      (1, [{ header := (Header.bytes { ty := 3, len := 4, dst := 1, src := 2, tag := 5 } 0 0), payload := [0, 0, 0, 0], loop := true }]),
      (2, [{ header := (Header.bytes { ty := 8, len := 4, dst := 1, src := 2 } 0 0), payload := [0, 0, 0, 0], loop := true }])] })] }
    reqs := [{ id := 1, owner := .inbound 0 0 2 0 0, target := .hbm 0, write := false, len := 4, result := .data [1, 2, 3, 4] },
             { id := 2, owner := .far 0, target := .remote 0 0 0 5, write := false, len := 4 },
             { id := 3, owner := .far 0, target := .remote 0 0 0 6, write := false, len := 4, resend := true }] }
/-- A read of another module at the head of VC 0 of port 0, through window 4. -/
def inbounding (w : InWindow) : State :=
  { linked 2 with
    xlat := { inbound := [(4, w)] }
    fabric := { (linked 2).fabric with ports := [(0, { state := 2, rxq := [
      (0, [{ header := (Header.bytes { ty := 1, len := 4, dst := 1, src := 2, window := 4 } 0 0), payload := [], loop := true }])] })] } }
theorem witness_Inbound : let open' : InWindow := { state := 1, perm := 0xFF, length := 65536 }
    let s := (inbounding open').forgetSteps
    (s.nextInbound 0).map (·.1) = some 0 ∧ (s.nextInbound 1) = none ∧
    ((s.nextInbound 0).map fun e => s.windowRefuses e.2.hdr false) = some false ∧
    ((s.nextInbound 0).map fun e => (s.meetInbound 0 e.2.hdr).isSome) = some true ∧
    (match (s.translate (s.whoInbound 0 4 0) 0 4 false).1 with | .fault _ => true | _ => false) = true ∧
    (((inbounding {}).nextInbound 0).map fun e => (inbounding {}).windowRefuses e.2.hdr false) = some true := by
  dsimp only; decide +kernel
theorem witness_Exchange : ((exchanging.headOf 0 1 3).map fun pk => (pk.hdr.tag, pk.hdr.status)) = some (5, 0) ∧
    exchanging.headOf 0 1 4 = none ∧ ((exchanging.req? 3).map (·.resend)) = some true ∧
    (((exchanging.takePacket 0 1 0).reqs.find? fun r => r.id == 2).map (·.result)) = some .pending ∧
    (exchanging.arrived 0 2).length = 1 ∧ (exchanging.arrived 1 2) = [] ∧ exchanging.recvOn 0 = none ∧
    ((exchanging.arrived 0 2).map fun pk => exchanging.windowRefuses pk.hdr true) = [true] ∧
    (1 : Nat) < 2 ^ (8 * elemSize 6) := by decide +kernel

/-- Port 0 with a packet of a type at the head of VC 3; a RECV of window 0 with a contributor; a pace group that holds. -/
def noticing (ty : Nat) : State :=
  { linked 2 with
    now := 0
    frame := { (linked 2).frame with counter := 100 }
    fabric := { (linked 2).fabric with
      ports := [(0, { state := 2, rxq := [(3, [{ header := (Header.bytes { ty, len := 0, dst := 1, src := 2, attempt := 1 } 0 0)
                                                 payload := [0, 0, 0, 0, 0, 0, 0, 0], loop := true }])] })]
      pace := [(0, { count := 1, members := [(0, 2)], hold := true, notices := [(1, { rate := 1000, frame := 0 })] })] }
    queues := [(0, queueWith { aCmd (.recv 0 0 1 0 0 0 0 0 0 0 0 0 0 0) .running with
      launched := true, recv := { contributors := [{ epoch := 0, source := 2, port := 0 }] } })] }
theorem witness_Notices : (noticing 0x0A).headOf 0 3 0x0B = none ∧
    ((noticing 0x0A).headOf 0 3 0x0A).map (·.hdr.attempt) = some 1 ∧
    (((noticing 0x0B).headOf 0 3 0x0B).bind fun pk => ((noticing 0x0B).takePacket 0 3 0).contributorOf pk.hdr).isSome = true ∧
    (((noticing 0x0C).headOf 0 3 0x0C).bind fun pk => ((noticing 0x0C).takePacket 0 3 0).contributorOf pk.hdr).map (·.2.1.phase) =
      some .running ∧ ((noticing 0x0D).headOf 0 3 0x0D).map (·.hdr.src) = some 2 := by decide +kernel
theorem witness_Pace : let s := noticing 0x0D
    Tab.find? (s.pace 0).notices 1 = some { rate := 1000, frame := 0 } ∧ s.standing? { rate := 1000, frame := 0 } = false ∧
    Tab.look 0xFFFF (s.pace 0).members 0 = 2 ∧ Tab.find? (s.pace 0).notices 0 = none ∧ (s.pace 0).count = 1 ∧
    (s.pace 0).hold = true ∧ s.holdSpent (s.pace 0) = true ∧ (s.pace 1).hold = false := by dsimp only; decide +kernel

theorem witness_LinkKeys : Serves (linked 2) .mailbox true true ∧ Serves (linked 2) .ethernet true true ∧
    ((linked 2).port 0).waiting = 0 ∧ (3 : BitVec 8).getLsbD 1 = true ∧ (2 : BitVec 8).getLsbD 0 = false := by
  decide +kernel

/-- Slot 63 in a state, of a direction, with request 7, epoch 3 and peer 2, and its timer run out; port 0, UP, has a packet of a
type at the head of VC 3 that names that handoff. -/
def handing (ty dir st : Nat) (recv : Option (Nat × Nat)) (reports : List (BitVec 16 × Bytes)) : State :=
  { linked 2 with
    now := 10 ^ 9, domains := [(512, { state := .on }), (544, { state := .on })]
    xlat := { outbound := [(0, { state := 1, dest := 2, ports := 1 })] }
    handoff := { region := 1, reports
                 slots := [(63, { entry := [BitVec.ofNat 8 dir, BitVec.ofNat 8 st, 2, 0, 3, 0, 0, 0, 7, 0, 0, 0, 0, 0, 0, 0, 0, 2] ++
                                    List.replicate 31 0 ++ [1, 0xFF, 0xFF, 1, 0, 0, 0] ++ List.replicate 8 0
                                  state := st, recv })] }
    fabric := { (linked 2).fabric with
      ports := [(0, { state := 2, rxq := [(3, [{ header := (Header.bytes { ty, len := 16, dst := 1, src := 2 } 0 0)
                                                 payload := [7, 0, 0, 0, 0, 0, 0, 0, 3, 0, 0, 0, 9, 63, 0, 0], loop := true }])] })] } }

/-- Of the packets that arrive, one matches slot 63 and no other slot. -/
theorem witness_HandoffPackets_match (ty dir j : Nat) (recv : Option (Nat × Nat)) (pk : Packet)
    (h : Matches ((handing ty dir 2 recv []).takePacket 0 3 0) pk 2 j) : j = 63 := by
  have e : ((handing ty dir 2 recv []).takePacket 0 3 0).handoff = (handing ty dir 2 recv []).handoff := rfl
  by_contra hj
  apply h.1
  unfold State.slot
  rw [e]
  show (Tab.look ({} : Slot) [(63, _)] j).state = 0
  simp only [Tab.look, Tab.find?]
  simp [Ne.symm hj]
theorem witness_HandoffPackets : let s := handing 0x10 2 2 none []
    let u := s.takePacket 0 3 0
    ∃ pk, s.headOf 0 3 0x10 = some pk ∧ Matches u pk 2 63 ∧ ¬ Matches u pk 1 63 ∧ (u.slot 63).ahead = 2 ∧ Room u 63 := by
  refine ⟨_, rfl, ?_⟩
  unfold Matches
  decide +kernel
theorem witness_HandoffPackets_others : (handing 0x10 2 2 none []).headOf 0 3 0x11 = none ∧
    (handing 0x11 1 3 none []).headOf 0 3 0x11 ≠ none ∧ (handing 0x12 2 4 none []).headOf 0 3 0x12 ≠ none ∧
    ¬ Room (handing 0x10 2 2 none (List.replicate 64 (0, []))) 63 ∧ Room (handing 0x10 2 2 none (List.replicate 63 (0, []))) 63 ∧
    ((handing 0x10 1 3 none []).slot 63).ahead = 3 ∧ leAt ((handing 0x10 1 3 none []).slot 63).entry 0 1 % 4 = 1 ∧
    (handing 0x10 1 3 none []).portUsable 0 = true ∧ ((handing 0x10 1 3 none []).outWin 0).ports.getLsbD 0 = true := by
  decide +kernel
/-- The entry of slot 255 and the header of the program have passed their gates. -/
def passing (a : Nat) : State :=
  { handing 0x10 2 0 none [] with
    reqs := [{ ownReq a 64 with step := .passed, result := .data (List.replicate 64 0) }] }
theorem witness_HandoffSlotOperations_entry : let s := passing ((handing 0x10 2 0 none []).handoffBase + 64 * 255)
    (match (s.forgetSteps.slotEntry 255).1 with | .ok b => b == List.replicate 64 0 | _ => false) = true ∧
    (match (serving.slotEntry 255).1 with | .bad => true | _ => false) = true := by dsimp only; decide +kernel
theorem witness_measured :
    (match ((passing 0).forgetSteps.measureProgram 0).1 with | .ok b => b == [] | _ => false) = true := by decide +kernel
/-- Two transitions of slot 63 wait: the state that is ahead is the last one's. -/
theorem witness_HandoffPackets_ahead :
    ({ waiting := [(3, 4, 0), (5, 7, 0)], state := 2 } : Slot).ahead = 7 ∧ ({ state := 4 } : Slot).ahead = 4 := by decide +kernel
theorem witness_HandoffSlotOperations : let s := handing 0x10 2 0 none []
    Serves s .mailbox true false ∧ Serves s .ethernet true true ∧ s.errors.rootstock = false ∧ inRootstock.errors.rootstock = true ∧
    Serves inRootstock .mailbox true false ∧ serving.handoff.region.getLsbD 0 = false ∧ s.handoff.region.getLsbD 0 = true ∧
    s.handoffOn = true ∧ (s.slot 0).state = 0 ∧ ((handing 0x10 2 10 none []).slot 63).state = 10 ∧
    ((handing 0x10 2 10 none []).slot 63).zeroizing = false ∧ ((handing 0x10 2 5 none []).slot 63).state = 5 ∧ Room s 0 ∧
    hbmLimit < ((0xFFFFFFFF0001 : BitVec 64).extractLsb' 16 32).toNat * 65536 + 0x44000 ∧
    (Tab.vals serving.handoff.slots).all (fun (x : Slot) => x.state == 0) = true := by
  decide +kernel
theorem witness_HandoffTimers : let s := handing 0x10 2 1 none []
    let x := s.slot 63
    x.timerAt + leAt x.entry 0x31 1 * s.frame.period ≤ s.now ∧ x.state = 1 ∧ x.waiting = [] ∧ x.recv = none ∧ Room s 63 ∧
    x.sentAt + 1000000 ≤ s.now ∧
    ((handing 0x10 2 1 (some (0, 0)) []).slot 63).recv = some (0, 0) ∧ x.timerAt + leAt x.entry 0x34 2 * 1000000 ≤ s.now ∧
    ((handing 0x10 2 5 none []).slot 63).waiting = [] ∧ x.zeroizing = false ∧ leAt x.entry 4 4 = 3 := by
  decide +kernel
/-- A verdict on slot 63, of epoch 3 or 2, for module 1 or 2. -/
theorem witness_Verdicts : let s := handing 0x10 1 3 none []
    let v := fun (owner epoch : Nat) => BitVec.ofNat 64 (63 * 2 ^ 56 + owner * 2 ^ 32 + epoch)
    Serves s .mailbox true false ∧ ((v 1 3).extractLsb' 56 8).toNat = 63 ∧ ((v 1 3).extractLsb' 32 16).toNat = s.fabric.number ∧
    ((v 2 3).extractLsb' 32 16).toNat = leAt (s.slot 63).entry 2 2 ∧ s.fabric.number ≠ leAt (s.slot 63).entry 2 2 ∧
    ¬ ((v 1 3).extractLsb' 0 32).toNat < leAt (s.slot 63).entry 4 4 ∧ ((v 1 2).extractLsb' 0 32).toNat < leAt (s.slot 63).entry 4 4 ∧
    leAt (s.slot 63).entry 0 1 % 4 = 1 ∧ (s.slot 63).state = 3 := by
  decide +kernel

/-- A prefetch of layer 0 that is complete, and a state range of no pages to zeroize. -/
def prefetching : State :=
  { handing 0x10 2 6 (some (0, 0)) [] with
    domains := []
    handoff := { (handing 0x10 2 6 (some (0, 0)) []).handoff with
      slots := [(63, { entry := List.replicate 48 0 ++ [1] ++ List.replicate 15 0
                       state := 6, recv := some (0, 0), zeroizing := true })] }
    queues := [(0, queueWith { aCmd (.recv 0 0 1 0 0 0 0 0 0 0 0 0 0 0) .running with
      launched := true, recv := { slot := some 63 } })] }
theorem witness_HandoffCopies : let s := prefetching
    let x := s.slot 63
    x.recv = some (0, 0) ∧ ((s.working 0).map fun e => (e.2.seq, e.2.recv.slot)) = some (0, some 63) ∧
    0 < leAt x.entry 0x30 1 ∧ s.layerCount 63 0 = leAt x.entry 0x14 4 * 65536 ∧ x.zeroizing = true ∧ s.handoff.reports.length < 64 ∧
    s.errors.rootstock = false ∧ s.slotHeld x = false := by
  decide +kernel

/-- WAIT_IMAGE, and LOADING of an image of 17,632 bytes. -/
def booting (st : BootState) : State :=
  { serving with
    boot := { state := st, len := 17632 }, host := { linkUp := [3] }
    supply := { inReset := false, good := true, converters := true } }
/-- The head of an image of one empty section. -/
def imageHead (svn floor : Byte) : Bytes :=
  [0x57, 0x46, 0x47, 0x4E, 1, 0, 0x30, 0x4E, 0xE0, 0x44, 0, 0, 0, 4, 0, 0, 5, 0, 0, 0, svn, floor, 1, 0] ++ List.replicate 8 0 ++
    [1, 0, 0, 0, 0, 4, 0, 0]
theorem slice_of_slice (b : Bytes) (o n k : Nat) (h : o + n ≤ k) : slice (slice b 0 k) o n = slice b o n := by
  apply List.ext_getElem
  · simp [slice]
  · intro i h1 h2
    have hi : i < n := by simpa [slice] using h1
    have hk : o + i < k := by omega
    simp [slice, hk]
/-- VERIFYING an image that is there, and READY with the rollback fuse two steps behind. -/
theorem witness_BootToReady_verify : let s := booting .verifying
    let v := { s with boot := { s.boot with imageData := some [] } }
    let r := { booting .ready with now := 999999 }
    let b := { r with boot := { r.boot with floor := 2 } }
    v.boot.state = .verifying ∧ v.boot.halted = false ∧ v.boot.imageData = some [] ∧ s.boot.imageData = none ∧
    b.pending = [] ∧ b.isReady = true ∧ b.fuses.rollback < b.boot.floor ∧ b.boot.stepAt + 1000000 ≤ b.now + 1 ∧
    r.fuses.rollback = r.boot.floor := by dsimp only; decide +kernel
theorem witness_BootToReady : (3 : Nat) ∈ (booting .waitImage).host.linkUp ∧ (booting .rejected).boot.halted = false ∧
    (booting .starting).supply.converters = true ∧ (booting .loading).boot.len.toNat % 2 ^ 26 = 17632 ∧
    (booting .loading).boot.token.toNat / 4096 = 0 := by
  decide +kernel
/-- A read of an image's header does not see how far the image goes on. -/
theorem imageFormatOk_slice (b : Bytes) (k : Nat) (hk : 1024 ≤ k) (h : leAt b 0x16 1 = 1) :
    imageFormatOk (slice b 0 k) = imageFormatOk b ∧ ∀ o n, o + n ≤ 1024 → leAt (slice b 0 k) o n = leAt b o n := by
  have f : ∀ o n, o + n ≤ 1024 → slice (slice b 0 k) o n = slice b o n :=
    fun o n h => slice_of_slice _ _ _ _ (by omega)
  have r : List.range 8 = [0, 1, 2, 3, 4, 5, 6, 7] := rfl
  have g : ∀ o n, o + n ≤ 1024 → leAt (slice b 0 k) o n = leAt b o n := fun o n h => by unfold leAt; rw [f o n h]
  refine ⟨?_, g⟩
  unfold imageFormatOk sectsOk imageReservedBad imageSect
  simp (disch := decide) only [r, List.any_cons, List.any_nil, List.all_cons, List.all_nil, f, g, h]
  simp (disch := decide) only [show List.range 1 = [0] from rfl, List.map_cons, List.map_nil, f]
theorem witness_BootToReady_image (k : Nat) (hk : k = 17632) : let img := slice (imageHead 64 64) 0 k
    leAt img 8 4 = k ∧ ¬ 0x2000000 < k ∧ imageFormatOk img = true ∧
    imageFormatOk (slice (imageHead 65 64) 0 k) = false ∧ imageFormatOk (slice (imageHead 63 64) 0 k) = false := by
  obtain ⟨a, b⟩ := imageFormatOk_slice (imageHead 64 64) k (by omega) (by decide +kernel)
  obtain ⟨c, -⟩ := imageFormatOk_slice (imageHead 65 64) k (by omega) (by decide +kernel)
  obtain ⟨d, -⟩ := imageFormatOk_slice (imageHead 63 64) k (by omega) (by decide +kernel)
  dsimp only
  rw [a, b 8 4 (by decide), c, d, hk]
  decide +kernel

/-- Bight 0 lashed by function 1, and a measurement in a state. -/
def measuring (m : Option Measurement) : State :=
  { lashedOne with dict := serving.dict, supply := serving.supply, security := { lashedOne.security with measuring := m } }
theorem witness_AttestationAndMeasurement : let s := measuring none
    let r := fun (kind : Byte) (va : Byte) => [0, kind] ++ List.replicate 8 0 ++ [va] ++ List.replicate 5 0 ++ [0, 0, va] ++
      List.replicate 13 (0 : Byte)
    Serves s .mailbox true true ∧ Serves s .ethernet true true ∧ Serves inRootstock .mailbox true false ∧
    inRootstock.errors.rootstock = true ∧ (List.replicate 32 (1 : Byte)).length = 32 ∧ s.security.generating = none ∧
    (r 1 0).length = 32 ∧ leAt (r 1 0) 1 1 = 1 ∧ leAt (r 1 0) 8 8 = 0 ∧ (s.bight 0).state ≠ .free ∧ (s.bight 255).state = .free ∧
    leAt (r 2 1) 8 8 = 65536 ∧ leAt (r 2 1) 0x10 8 = 65536 ∧ leAt (r 2 1) 0x18 8 = 0 ∧ s.contextFn 0 ≠ some (s.bight 0).owner ∧
    (measuring (some { bight := 0, kind := 1, index := 0, asid := 0, va := 0, len := 0 })).security.measuring ≠ none ∧
    2 ^ 52 < 0xFFFFFFFFF0000 + 0x20000 := by
  decide +kernel

/-- Key slots: 63 with a key of generation 0 whose zeroize is asked and has waited, 62 that retires generation 1 with nothing
read, 61 that rotates over no context, 60 of function 1, which is being removed. -/
def keyed : State :=
  { serving with
    now := 5000000, reqs := []
    security := { removal := some { fn := 1, abort := false, since := 0, bights := [] }
                  slots := [(60, { owner := some 1, key0 := some 1 }), (61, { rotating := true, key1 := some 1, gen := true }),
                            (62, { retiring := true, rotating := true, key1 := some 1 }),
                            (63, { key0 := some 1, erase0 := some 0 })] } }
theorem witness_KeysAndRemoval : let s := keyed
    Serves s .mailbox false true ∧ Serves s .mailbox false false ∧ (s.keySlot 63).key0 ≠ none ∧ (s.keySlot 63).key1 = none ∧
    (List.replicate 32 (0 : Byte) ++ List.replicate 32 1).length = 64 ∧
    (List.replicate 32 (0 : Byte) ++ List.replicate 32 1).take 32 ≠ (List.replicate 32 (0 : Byte) ++ List.replicate 32 1).drop 32 ∧
    (s.keySlot 0).key0 = none ∧ (s.keySlot 61).rotating = true ∧ (s.keySlot 63).rotating = false ∧
    leAt ([1] ++ List.replicate 39 (0 : Byte)) 0 1 = 1 ∧ leAt ([16] ++ List.replicate 39 (0 : Byte)) 0 1 = 16 ∧
    (s.keySlot 63).erase0 = some 0 ∧ s.readsOf 63 false = [] ∧ (s.keySlot 62).retiring = true ∧ (s.keySlot 62).gen = false ∧
    s.readsOf 62 true = [] ∧ (s.keySlot 60).owner = some 1 ∧ s.drainCount 1 = 0 ∧ Tab.wf {} s.security.slots = true ∧
    s.movesLeft 61 = some [] ∧ s.nextMove 61 = none ∧ (s.keySlot 61).moving = none ∧ s.security.removal ≠ none ∧ serving.security.removal = none ∧
    ((0x103F : BitVec 16).extractLsb' 0 6).toNat = 63 ∧ ((0x0100 : BitVec 16).extractLsb' 0 6).toNat = 0 := by
  decide +kernel

/-- A frame of slot 61 that is being moved: its groups are ON and no access is left; its group is OFF; its leaf names it no longer. -/
def aMoving : Moving := { asid := 0, va := 0, level := 0, addr := 0x100000, idx := 0, start := 0x40000000 }
theorem witness_KeysAndRemoval_move : let s := { keyed with domains := [(544, { state := .on })] }
    let busy := { s with reqs := [{ id := 5, owner := .aperture 1, target := .hbm 0x40000040, write := false, len := 4 }] }
    s.moveOn aMoving = true ∧ keyed.moveOn aMoving = false ∧ s.frameBusy aMoving = false ∧ busy.frameBusy aMoving = true ∧
    aMoving.len / 64 = 1024 := by dsimp only; decide +kernel

/-- The dictionary's rows that the witnesses use: 0x3001.01 is read-only, 0x1030.01 may be written, 0x1000.00 exists. -/
theorem witness_MailboxAndRegisters : let s := ringing
    s.isReady = true ∧ 1 ∈ s.host.linkUp ∧ s.dict.mboxState ≠ 1 ∧ Plain s 0x3001 ∧ s.regsOpen 0 = true ∧ s.regsOpen 63 = true ∧
    State.reset.isReady = false ∧ ((objRow 0x3001 1).map fun r => (r.acc, r.expert, r.ty.len)) = some (.ro, false, 4) ∧
    ((objRow 0x1030 1).map fun r => (r.acc, r.expert, r.ty.len)) = some (.rw, false, 4) ∧ (objRow 0x1030 5).isSome = false ∧
    (indexExists 0x1030) = true ∧ ethMayWrite 0x1030 = true ∧ ethMayWrite 0x4000 = false ∧
    s.dictOpen .mailbox = true ∧ (booting .waitImage).isReady = false ∧ (booting .waitImage).supply.inReset = false := by
  decide +kernel
/-- A vendor-debug module, where an index of its objects is not plain. -/
theorem witness_vendor : let s := { serving with boot := { serving.boot with vendorDebug := true } }
    ¬ Plain s 0xA000 ∧ ¬ Plain s 0xAFFF ∧ Plain s 0x9FFF ∧ Plain s 0xB000 ∧ s.dictOpen .mailbox = true := by dsimp only; decide +kernel
theorem witness_MailboxAndRegisters_write : findObj 0x1030 5 = .error 0x02 ∧ findObj 0x0FFF 0 = .error 0x01 ∧
    (objAct 0x1030 1 [1, 0, 0, 0] none ringing).2.supply.inReset = false := by
  decide +kernel

/-- The worked example: a READ of 0x3001.01, TAG 0x1234, from a module that draws 9,431 W. -/
def request : Bytes :=
  [0x44, 0x4E, 1, 0, 0x34, 0x12, 0, 0, 1, 0, 1, 0x30, 1, 0, 0, 0] ++ List.replicate 8 0
def drawing : State := { serving with power := { inputLog := [(0, 9431, 1)] }, dict := { serving.dict with modbusConns := [5] } }
theorem witness_Datagrams : drawing.dictOpen .ethernet = true ∧ leAt request 8 1 = 1 ∧ Plain drawing 0x3001 ∧
    leAt request 0 2 = 0x4E44 ∧ leAt request 2 1 = 1 ∧ leAt request 3 1 < 16 ∧ leAt request 0xE 2 ≤ 1024 ∧ request.length = 24 ∧
    ((objRow 0x3001 1).map (·.expert)) = some false ∧ (drawing.mgmtKey 3).lastCounter = none := by decide +kernel
theorem test_datagram_read : (match exec (.datagramRead request) drawing with
    | .next t => t.sent
    | _ => []) = [.datagram ([0x44, 0x4E, 1, 2, 0x34, 0x12, 0, 0, 1, 0, 1, 0x30, 1, 0, 4, 0] ++ List.replicate 8 0 ++
      [0xD7, 0x24, 0, 0])] := by decide +kernel
/-- The mean power that the Modbus registers took 1 ms ago stays in them (R632). -/
theorem test_modbus_snapshot : let s := { drawing with dict := { drawing.dict with modbusSnap := [(18, 9000)] } }
    s.modbusReg 18 = some 9000 ∧ s.modbusNow 18 = some 9431 ∧ 18 ∈ modbusOften ∧ 31 ∉ modbusOften := by decide +kernel
theorem test_modbus_read : (match exec (.modbusReadInput 5 17 2) drawing with
    | .next t => t.sent
    | _ => []) = [.modbus 5 [4, 4, 0, 0, 0x24, 0xD7]] := by decide +kernel
theorem witness_ModbusAndTransports : let s := drawing
    s.dictOpen .ethernet = true ∧ s.dict.modbusEnabled = true ∧ 5 ∈ s.dict.modbusConns ∧ 4 ∉ s.dict.modbusConns ∧
    s.dict.modbusConns.length < 4 ∧ s.modbusReg 17 = some 0 ∧ s.modbusReg 18 = some 9431 ∧ s.modbusReg 31 = none ∧
    s.modbusReg 1511 = some 0 ∧ s.modbusReg 1512 = none ∧ s.modbusReg 2511 = some 0 ∧ Serves s .ethernet true false ∧
    Serves s .mailbox false false ∧ Serves s .mailbox false true ∧ (8 : BitVec 32).toNat = 8 ∧ s.dict.prefixLen = 24 ∧
    (List.replicate 32 (0 : Byte)).length = 32 ∧ (Tab.keys s.dict.activity).Nodup := by
  decide +kernel

/-! ### Further witnesses: clauses that need a state of their own -/

/-- Bight 0 with a resident command, and the given messages on the Lanyard. -/
def messaging (lan : List LanMsg) : State :=
  { carrying with
    mesh := { lan }
    bights := { tab := [(0, { state := .lashed, resident := some (0, 0, 0), place := { w := 1, h := 1 } })] }
    queues := [(0, queueWith (aCmd (.run 0 []) .running))] }
def aMsg (ty : Nat) (payload : List Flit) (high : Bool) : LanMsg := { ty, dest := stopMgmt, src := 0, high, payload }
theorem witness_Mesh_order : let s := messaging [aMsg 4 [] false, aMsg 4 [] false, aMsg 7 [] true]
    (s.mesh.lan.map fun m => s.lanNext 0 m) = [false, false, true] ∧ s.lanNext 2 (aMsg 7 [] true) = true ∧
    (messaging [aMsg 4 [] false, aMsg 4 [] false]).lanNext 1 (aMsg 4 [] false) = false ∧
    carrying.lanNext 0 (aMsg 4 [0, 0x0D, 0, 0, 0, 0] false) = true := by dsimp only; decide +kernel
/-- A transit entry that no circuit uses, an entry of the program, and a dead letter of the resident command's and of no command. -/
theorem witness_Mesh_reports :
    let f := fun v => aMsg 4 [0, 0x0D, 0, 0, v, 0] false
    let s := fun m => messaging [m]
    (s (f 4096)).lanNext 0 (f 4096) = true ∧ (s (f 4096)).entryOwners 0 0 = [] ∧
    (s (f 4095)).bightOfRouter 0 = some 0 ∧ ((s (f 4095)).bight 0).resident = some (0, 0, 0) ∧
    ((s (f 4095)).cmd? 0 0).map (fun c => (c.live?, c.phase)) = some (true, .running) ∧
    (s (aMsg 5 [0, 0] false)).deadLetterCmd 0 = some (0, 0) ∧ (s (aMsg 5 [0, 0] false)).deadLetterCmd (2 ^ 21) = none := by
  dsimp only; decide +kernel
/-- A circuit of bight 0 from half-die 0 into half-die 1, in slot 0, and a change of half-die 0 that waits for base cycle 8. -/
def crossing : State :=
  { running with
    power := { halfTemp := [(0, 210)] }
    mesh := { ratioNext := [(0, 2, 8)]
              circuits := [{ owner := 0, inactive := false, kind := 3, target := 1, src := routerAt 0 15 0, srcNum := 0, dst := routerAt 1 0 0, dstNum := 0
                             out := ⟨[routerAt 0 15 0, routerAt 1 0 0], [0], 1⟩
                             back := ⟨[routerAt 1 0 0, routerAt 0 15 0], [0], 1⟩, slotsOut := 1, slotsBack := 1
                             creditsOut := 8, creditsBack := 8 }] } }
theorem witness_Mesh_crossing : (crossing.crossingCircuits 0).length = 1 ∧ crossing.mesh.ratioNext = [(0, 2, 8)] ∧
    crossing.baseCycle < 8 ∧ 8 ≤ { crossing with mesh := { crossing.mesh with tau0 := 8000 } }.baseCycle ∧ crossing.entryOwners (routerAt 0 15 0) 0 = [0] ∧
    (running.crossingCircuits 0) = [] := by decide +kernel

/-- One report of a word or code word on the Lanyard; the word's next report counts, and was found again after a full write. -/
def reporting (p0 p1 p2 : Flit) : State :=
  { protecting with
    sram := { protecting.sram with prunerDue := [memerrAddr p1 p2 / 8], refound := [memerrAddr p1 p2 / 8] }
    hbm := { groups := [(0, { patrolDue := [0] })] }
    errors := { threshold := 1 }
    mesh := { lan := [{ ty := 9, dest := stopMgmt, src := 0, high := false, payload := [p0, p1, p2] }] } }
theorem witness_SramReports_counted : let s := reporting 0x25000000 0 0x40000000
    (s.mesh.lan[0]?).map (s.lanNext 0) = some true ∧ memerrAddr 0 0x40000000 / 8 ∈ s.sram.prunerDue ∧
    memerrAddr 0 0x40000000 / 8 ∈ s.sram.refound ∧ memerrAddr 0 8 / 8 ∉ s.sram.prunerDue ∧
    s.errors.countedAt = [] ∧ s.errors.threshold ≤ 0 + 1 ∧
    (0 : Nat) ∈ ((reporting 0x47000000 0 0).group (cwGroup (memerrAddr 0 0 / 64))).patrolDue ∧
    64 ∉ ((reporting 0x47000000 0 0).group (cwGroup 64)).patrolDue ∧ (protecting.sram.prunerSeen) = [] := by
  dsimp only; decide +kernel

/-- Stack 0 ON, and a gate router of half-die 31 with no circuit number left. -/
def crowded : State :=
  { serving with
    domains := [(544, { state := .on })]
    mesh := { circuits := (List.range 256).map fun n =>
                { owner := 256, inactive := false, kind := 4, target := 63, src := walkerGate 31, srcNum := n, dst := 0, dstNum := 0
                  out := ⟨[], [], 1⟩, back := ⟨[], [], 1⟩, slotsOut := 1, slotsBack := 1, creditsOut := 8, creditsBack := 8 } } }
theorem witness_DomainRequests_walkers : serving.walkersLegal 0 .off = true ∧ serving.walkersLegal (512 + 31) .on = true ∧
    crowded.walkersLegal (512 + 31) .on = false := by decide +kernel

/-- Bight 0 LASHING with a channel group of stack 0 on its list, and in PREPARE. -/
def training (x : BightState) : State :=
  { serving with
    mesh := { circuits := [{ owner := 0, inactive := false, kind := 0, target := 0, src := 0, srcNum := 0, dst := 0, dstNum := 0
                             out := ⟨[], [], 1⟩, back := ⟨[], [], 1⟩, slotsOut := 1, slotsBack := 1, creditsOut := 8, creditsBack := 8 }] }
    bights := { tab := [(0, { state := x, relash := some { queue := 0, seq := 0, target := {}, kill := false, drainLimit := 1 } })] } }
theorem witness_DomainTransitionsEnd_failed : Tab.keys (training .lashing).bights.tab = [0] ∧
    ((training .lashing).bight 0).driving = some {} ∧ ((training .prepare).bight 0).driving = some {} ∧
    domStack 0 ∈ (training .lashing).needs 0 {} ∧ domStack 1 ∉ (training .lashing).needs 0 {} ∧
    domStack 0 ∈ (training .prepare).needs 0 {} ∧ ((training .prepare).bight 0).state ≠ .lashing ∧
    (training .lashing).hbm.failed.getLsbD 0 = false := by decide +kernel
theorem witness_held : let s := { gated .low with handoff := { region := 1 }, xlat := { contextTable := 1 } }
    (match (s.readShape .base 0 0).1 with | .held => true | _ => false) = true ∧
    (match (s.slotEntry 255).1 with | .held => true | _ => false) = true ∧
    (match (s.measureProgram 0).1 with | .held => true | _ => false) = true ∧
    (match (s.translate (s.whoAperture 1 0 0) 0 4 false).1 with | .hold => true | _ => false) = true := by
  dsimp only; decide +kernel
theorem witness_Relash_first : (relashing .lashed none).relashAhead 0 0 0 = false := by decide +kernel
theorem witness_Launch_notPermitted : ((heading (aCmd (.relash []) .waiting)).bight 0).permits 2 = false := by decide +kernel
theorem witness_Queues_found : (ringing.localQueue 0 0).map (·.1) = some 0 ∧
    (ringing.localQueue 0 0).map (·.2) = ringing.queue? 0 ∧ (ringing.queue? 0).map (fun q => (q.tail, q.head)) = some (1, 0) := by decide +kernel
theorem witness_Exchange_ports : (exchanging.req? 3).bind (fun r => exchanging.portOfReq r 0 0) = none ∧
    ({ exchanging with domains := (handing 0 0 0 none []).domains, xlat := (handing 0 0 0 none []).xlat } : State).portFor 0 0 none = some 0 ∧ (exchanging.req? 2).map (·.stage) = some .there := by decide +kernel
theorem witness_Pace_number : ((noticing 0x0D).pace 0).number = 0 ∧
    ((noticing 0x0D).headOf 0 3 0x0D).map (fun pk => leAt pk.payload 0 2) = some 0 := by decide +kernel
theorem witness_HandoffCopies_pages : prefetching.slotPages (prefetching.slot 63) = [] := by decide +kernel
end Sys2Proof.Tests
end

/-! ### What every step keeps (R4, R554, R579, R583, R589) -/

namespace Sys2Proof.Machine

variable {r s t : State}

/-- Every command keeps what `Keeps` says: the arms of the dispatch, each by the law of its meaning. -/
theorem Keeps.exec (h : Keeps r s) (c : Instr) : KeepsOut r (Machine.exec c s) := by
  unfold Machine.exec
  cases c with
  | registerWrite => exact Keeps.execRegisterWrite h
  | domainRequest => exact Keeps.execDomainRequest h
  | domainTransitionDone => exact Keeps.execDomainTransitionDone h
  | heldDomainRequest => exact Keeps.execHeldDomainRequest h
  | memoryHoldWrite => exact Keeps.execMemoryHoldWrite h
  | memoryHoldLowEntry => exact Keeps.execMemoryHoldLowEntry h
  | selfPolicyDomainOff => exact Keeps.execSelfPolicyDomainOff h
  | frameEdge => exact Keeps.execFrameEdge h
  | freeRunEntry => exact Keeps.execFreeRunEntry h
  | oscillatorBoundary => exact Keeps.execOscillatorBoundary h
  | nominalPeriodWrite => exact Keeps.execNominalPeriodWrite h
  | frameCounterPreset => exact Keeps.execFrameCounterPreset h
  | grantWrite => exact Keeps.execGrantWrite h
  | policyModeWrite => exact Keeps.execPolicyModeWrite h
  | launch => exact Keeps.execLaunch h
  | openCopyDone => exact Keeps.execOpenCopyDone h
  | add => exact Keeps.execAdd h
  | sub => exact Keeps.execSub h
  | and => exact Keeps.execAnd h
  | or => exact Keeps.execOr h
  | xor => exact Keeps.execXor h
  | shl => exact Keeps.execShl h
  | shr => exact Keeps.execShr h
  | sra => exact Keeps.execSra h
  | cmp => exact Keeps.execCmp h
  | sel => exact Keeps.execSel h
  | popc => exact Keeps.execPopc h
  | clz => exact Keeps.execClz h
  | addi => exact Keeps.execAddi h
  | mul => exact Keeps.execMul h
  | mulh => exact Keeps.execMulh h
  | mulhu => exact Keeps.execMulhu h
  | div => exact Keeps.execDiv h
  | divu => exact Keeps.execDivu h
  | rem => exact Keeps.execRem h
  | remu => exact Keeps.execRemu h
  | beq => exact Keeps.execBeq h
  | bne => exact Keeps.execBne h
  | blt => exact Keeps.execBlt h
  | bge => exact Keeps.execBge h
  | j => exact Keeps.execJ h
  | jal => exact Keeps.execJal h
  | jr => exact Keeps.execJr h
  | loop => exact Keeps.execLoop h
  | ld => exact Keeps.execLd h
  | ldu => exact Keeps.execLdu h
  | st => exact Keeps.execSt h
  | vld => exact Keeps.execVld h
  | vst => exact Keeps.execVst h
  | vldPi => exact Keeps.execVldPi h
  | vstPi => exact Keeps.execVstPi h
  | vldBc => exact Keeps.execVldBc h
  | amoadd => exact Keeps.execAmoadd h
  | amoswap => exact Keeps.execAmoswap h
  | amomax => exact Keeps.execAmomax h
  | amocas => exact Keeps.execAmocas h
  | vfma => exact Keeps.execVfma h
  | vadd => exact Keeps.execVadd h
  | vsub => exact Keeps.execVsub h
  | vmul => exact Keeps.execVmul h
  | vmin => exact Keeps.execVmin h
  | vmax => exact Keeps.execVmax h
  | vcmp => exact Keeps.execVcmp h
  | vaddi => exact Keeps.execVaddi h
  | vand => exact Keeps.execVand h
  | vshl => exact Keeps.execVshl h
  | vmuli => exact Keeps.execVmuli h
  | vsel => exact Keeps.execVsel h
  | vredsum => exact Keeps.execVredsum h
  | vredmax => exact Keeps.execVredmax h
  | vperm => exact Keeps.execVperm h
  | vbcast => exact Keeps.execVbcast h
  | vcvt => exact Keeps.execVcvt h
  | vpackMx => exact Keeps.execVpackMx h
  | xexp2 => exact Keeps.execXexp2 h
  | xlog2 => exact Keeps.execXlog2 h
  | xrcp => exact Keeps.execXrcp h
  | xrsqrt => exact Keeps.execXrsqrt h
  | xsqrt => exact Keeps.execXsqrt h
  | xsinpi => exact Keeps.execXsinpi h
  | xcospi => exact Keeps.execXcospi h
  | xtanh => exact Keeps.execXtanh h
  | send => exact Keeps.execSend h
  | recv => exact Keeps.execRecv h
  | qpush => exact Keeps.execQpush h
  | qpop => exact Keeps.execQpop h
  | csrr => exact Keeps.execCsrr h
  | csrw => exact Keeps.execCsrw h
  | cbar => exact Keeps.execCbar h
  | fenceFar => exact Keeps.execFenceFar h
  | isync => exact Keeps.execIsync h
  | ebreak => exact Keeps.execEbreak h
  | halt => exact Keeps.execHalt h
  | farAccessDone => exact Keeps.execFarAccessDone h
  | stallLimit => exact Keeps.execStallLimit h
  | fault => exact Keeps.execFault h
  | tileGo => exact Keeps.execTileGo h
  | tileStart => exact Keeps.execTileStart h
  | tileComplete => exact Keeps.execTileComplete h
  | vectorArrival => exact Keeps.execVectorArrival h
  | deadLetter => exact Keeps.execDeadLetter h
  | clockRatioChange => exact Keeps.execClockRatioChange h
  | ack => exact Keeps.execAck h
  | lash => exact Keeps.execLash h
  | lashComplete => exact Keeps.execLashComplete h
  | hedgeWrite => exact Keeps.execHedgeWrite h
  | functionLevelReset => exact Keeps.execFunctionLevelReset h
  | flrFunction0 => exact Keeps.execFlrFunction0 h
  | relash => exact Keeps.execRelash h
  | prepare => exact Keeps.execPrepare h
  | quiesce => exact Keeps.execQuiesce h
  | drainLimit => exact Keeps.execDrainLimit h
  | commitBoundary => exact Keeps.execCommitBoundary h
  | switch => exact Keeps.execSwitch h
  | resume => exact Keeps.execResume h
  | cancel => exact Keeps.execCancel h
  | clear => exact Keeps.execClear h
  | bightRelease => exact Keeps.execBightRelease h
  | releaseComplete => exact Keeps.execReleaseComplete h
  | idleLow => exact Keeps.execIdleLow h
  | sramWriteBack => exact Keeps.execSramWriteBack h
  | prunerRead => exact Keeps.execPrunerRead h
  | memerr => exact Keeps.execMemerr h
  | selfPolicyRetire => exact Keeps.execSelfPolicyRetire h
  | retire => exact Keeps.execRetire h
  | flipArm => exact Keeps.execFlipArm h
  | selfPolicyHbmLow => exact Keeps.execSelfPolicyHbmLow h
  | gateRelease => exact Keeps.execGateRelease h
  | hbmWriteBack => exact Keeps.execHbmWriteBack h
  | patrolRead => exact Keeps.execPatrolRead h
  | refreshSample => exact Keeps.execRefreshSample h
  | gateSetting => exact Keeps.execGateSetting h
  | contextTableWrite => exact Keeps.execContextTableWrite h
  | batchClose => exact Keeps.execBatchClose h
  | heldFaultWrite => exact Keeps.execHeldFaultWrite h
  | faultRingEnable => exact Keeps.execFaultRingEnable h
  | faultRetry => exact Keeps.execFaultRetry h
  | faultFail => exact Keeps.execFaultFail h
  | invalidateDrain => exact Keeps.execInvalidateDrain h
  | invalidateAbort => exact Keeps.execInvalidateAbort h
  | invalidationComplete => exact Keeps.execInvalidationComplete h
  | accessNotification => exact Keeps.execAccessNotification h
  | inboundRequest => exact Keeps.execInboundRequest h
  | inboundCloseDrain => exact Keeps.execInboundCloseDrain h
  | inboundCloseAbort => exact Keeps.execInboundCloseAbort h
  | outboundClose => exact Keeps.execOutboundClose h
  | apertureAccess => exact Keeps.execApertureAccess h
  | irqCauseClear => exact Keeps.execIrqCauseClear h
  | functionPortWrite => exact Keeps.execFunctionPortWrite h
  | objectTableWrite => exact Keeps.execObjectTableWrite h
  | queueCreate => exact Keeps.execQueueCreate h
  | queueDestroy => exact Keeps.execQueueDestroy h
  | queueStop => exact Keeps.execQueueStop h
  | queueStart => exact Keeps.execQueueStart h
  | doorbell => exact Keeps.execDoorbell h
  | descriptorFetch => exact Keeps.execDescriptorFetch h
  | run => exact Keeps.execRun h
  | move => exact Keeps.execMove h
  | sendCommand => exact Keeps.execSendCommand h
  | recvCommand => exact Keeps.execRecvCommand h
  | wait => exact Keeps.execWait h
  | signal => exact Keeps.execSignal h
  | commitGroup => exact Keeps.execCommitGroup h
  | commitRequest => exact Keeps.execCommitRequest h
  | commit => exact Keeps.execCommit h
  | kill => exact Keeps.execKill h
  | killComplete => exact Keeps.execKillComplete h
  | abort => exact Keeps.execAbort h
  | sliceEnd => exact Keeps.execSliceEnd h
  | switchDone => exact Keeps.execSwitchDone h
  | holdCeiling => exact Keeps.execHoldCeiling h
  | fenceCreate => exact Keeps.execFenceCreate h
  | fenceDestroy => exact Keeps.execFenceDestroy h
  | errorFenceWrite => exact Keeps.execErrorFenceWrite h
  | contextTeardown => exact Keeps.execContextTeardown h
  | teardownComplete => exact Keeps.execTeardownComplete h
  | pcieLinkDown => exact Keeps.execPcieLinkDown h
  | trainingDone => exact Keeps.execTrainingDone h
  | trainingTimeout => exact Keeps.execTrainingTimeout h
  | downRetry => exact Keeps.execDownRetry h
  | linkErrorDown => exact Keeps.execLinkErrorDown h
  | flitReceived => exact Keeps.execFlitReceived h
  | replayTimeout => exact Keeps.execReplayTimeout h
  | readReq => exact Keeps.execReadReq h
  | write => exact Keeps.execWrite h
  | readData => exact Keeps.execReadData h
  | writeDone => exact Keeps.execWriteDone h
  | notReadyResend => exact Keeps.execNotReadyResend h
  | reduce => exact Keeps.execReduce h
  | commitNotice => exact Keeps.execCommitNotice h
  | withdraw => exact Keeps.execWithdraw h
  | abandon => exact Keeps.execAbandon h
  | pace => exact Keeps.execPace h
  | paceNoticeExpiry => exact Keeps.execPaceNoticeExpiry h
  | paceHoldLimit => exact Keeps.execPaceHoldLimit h
  | txKeyWrite => exact Keeps.execTxKeyWrite h
  | rxKeyWrite => exact Keeps.execRxKeyWrite h
  | transmitSelection => exact Keeps.execTransmitSelection h
  | receiveSlotInvalidate => exact Keeps.execReceiveSlotInvalidate h
  | slotArm => exact Keeps.execSlotArm h
  | slotFree => exact Keeps.execSlotFree h
  | slotAbort => exact Keeps.execSlotAbort h
  | handoffRegionWrite => exact Keeps.execHandoffRegionWrite h
  | offer => exact Keeps.execOffer h
  | taken => exact Keeps.execTaken h
  | release => exact Keeps.execRelease h
  | handoffResend => exact Keeps.execHandoffResend h
  | handoffTimeout => exact Keeps.execHandoffTimeout h
  | heldTimeout => exact Keeps.execHeldTimeout h
  | queryRepeat => exact Keeps.execQueryRepeat h
  | prefetchCopyDone => exact Keeps.execPrefetchCopyDone h
  | verdict => exact Keeps.execVerdict h
  | zeroizeDone => exact Keeps.execZeroizeDone h
  | reportRemove => exact Keeps.execReportRemove h
  | powerWindow => exact Keeps.execPowerWindow h
  | limit => exact Keeps.execLimit h
  | trimRun => exact Keeps.execTrimRun h
  | trim => exact Keeps.execTrim h
  | capWrite => exact Keeps.execCapWrite h
  | fixedFrequencyWrite => exact Keeps.execFixedFrequencyWrite h
  | droop => exact Keeps.execDroop h
  | wearUnit => exact Keeps.execWearUnit h
  | junctionSample => exact Keeps.execJunctionSample h
  | thermal => exact Keeps.execThermal h
  | trip => exact Keeps.execTrip h
  | supplySample => exact Keeps.execSupplySample h
  | reefEnter => exact Keeps.execReefEnter h
  | reefExit => exact Keeps.execReefExit h
  | supplyReset => exact Keeps.execSupplyReset h
  | inputSwitchOn => exact Keeps.execInputSwitchOn h
  | supplyGood => exact Keeps.execSupplyGood h
  | bootGo => exact Keeps.execBootGo h
  | imageVerified => exact Keeps.execImageVerified h
  | ready => exact Keeps.execReady h
  | debugDisable => exact Keeps.execDebugDisable h
  | reportRequest => exact Keeps.execReportRequest h
  | reportReady => exact Keeps.execReportReady h
  | measure => exact Keeps.execMeasure h
  | measureDone => exact Keeps.execMeasureDone h
  | keyWrite => exact Keeps.execKeyWrite h
  | keyOwnerWrite => exact Keeps.execKeyOwnerWrite h
  | keyZeroize => exact Keeps.execKeyZeroize h
  | keyErase => exact Keeps.execKeyErase h
  | keyRotation => exact Keeps.execKeyRotation h
  | frameMove => exact Keeps.execFrameMove h
  | rotationComplete => exact Keeps.execRotationComplete h
  | tenantRemoval => exact Keeps.execTenantRemoval h
  | mboxRead => exact Keeps.execMboxRead h
  | mboxWrite => exact Keeps.execMboxWrite h
  | mboxDescribe => exact Keeps.execMboxDescribe h
  | datagramRead => exact Keeps.execDatagramRead h
  | datagramWrite => exact Keeps.execDatagramWrite h
  | datagramDescribe => exact Keeps.execDatagramDescribe h
  | modbusReadHolding => exact Keeps.execModbusReadHolding h
  | modbusReadInput => exact Keeps.execModbusReadInput h
  | networkConfigWrite => exact Keeps.execNetworkConfigWrite h
  | managementKeyWrite => exact Keeps.execManagementKeyWrite h
  | counterSnapshot => exact Keeps.execCounterSnapshot h
  | perst => exact Keeps.execPerst h
  | perstPort1 => exact Keeps.execPerstPort1 h
  | resetIn => exact Keeps.execResetIn h
  | watchdog => exact Keeps.execWatchdog h
  | dictionaryReset => exact Keeps.execDictionaryReset h
  | rootstockEntry => exact Keeps.execRootstockEntry h
  | rootstockExit => exact Keeps.execRootstockExit h
  | eventLogRemove => exact Keeps.execEventLogRemove h
  | illegalInsn => exact Keeps.execIllegalInsn h
  | fetchException => exact Keeps.execFetchException h
  | pcieCompletion => exact Keeps.execPcieCompletion h
  | completionTimeout => exact Keeps.execCompletionTimeout h
  | errorsWindowExpiry => exact Keeps.execErrorsWindowExpiry h
  | resetInRelease => exact Keeps.execResetInRelease h
  | sgmiiAutoNegotiation => exact Keeps.execSgmiiAutoNegotiation h
  | modbusConnection => exact Keeps.execModbusConnection h
  | modbusOtherFunctionCode => exact Keeps.execModbusOtherFunctionCode h
  | mboxCommandOutOfRange => exact Keeps.execMboxCommandOutOfRange h

/-- What a step can do, whichever command is at the front of the queue: the queue and the time move on, and from there on the
state keeps what `Keeps` says. -/
theorem step_keeps (h : step s = .next t) :
    ∃ cmds time, s.now ≤ time ∧ Keeps { s with pending := cmds, now := time } t := by
  unfold step at h
  split at h
  · cases h
    exact ⟨s.pending, s.now + 1, Nat.le_succ _, Keeps.tick⟩
  · next c rest _ =>
    have hk := Keeps.exec (Keeps.refl { s with pending := rest }) c
    rw [h] at hk
    exact ⟨rest, s.now, Nat.le_refl _, hk⟩

end Sys2Proof.Machine

section
open Sys2Proof.Machine

/-- Settles O3: what a step keeps of the memory. -/
theorem everyStepKeepsMemoryCanonical : Obligations.EveryStepKeepsMemoryCanonical := by
  intro s t hm h
  obtain ⟨_, _, _, hk⟩ := step_keeps h
  exact hk.mem hm

/-- Settles O4: what a step keeps of the fuses and of what has been sent, and that its time does not fall. -/
theorem stepsNeverUndoTheIrreversible : Obligations.StepsNeverUndoTheIrreversible := by
  intro s t h
  obtain ⟨_, _, hnow, hk⟩ := step_keeps h
  exact ⟨hk.fuses.rollback, hk.fuses.debug, hk.fuses.wear, hk.fuses.fixed, hk.sent, hk.now.symm ▸ hnow⟩

end

namespace Sys2Proof.Machine

/-! ### What a read of SRAM leaves of the SRAM's own record (R303, R306, R313) -/

/-- The same words are retired, and the same flip masks wait. -/
structure State.SameGuards (s t : State) : Prop where
  retired : t.sram.retired = s.sram.retired
  flipHi : t.sram.flipHi = s.sram.flipHi
  flipLo : t.sram.flipLo = s.sram.flipLo

variable {s t u : State}

theorem State.SameGuards.refl (s : State) : s.SameGuards s := ⟨rfl, rfl, rfl⟩

theorem State.SameGuards.trans (h : s.SameGuards t) (h' : t.SameGuards u) : s.SameGuards u :=
  ⟨h'.retired.trans h.retired, h'.flipHi.trans h.flipHi, h'.flipLo.trans h.flipLo⟩

theorem State.SameGuards.of_sram (h : t.sram = s.sram) : s.SameGuards t := ⟨by rw [h], by rw [h], by rw [h]⟩

theorem State.SameGuards.retiredWord (h : s.SameGuards t) (wa : Nat) : t.retiredWord wa = s.retiredWord wa := by
  unfold State.retiredWord; rw [h.retired]

theorem State.SameGuards.flipFor (h : s.SameGuards t) (c bank : Nat) : t.flipFor c bank = s.flipFor c bank := by
  unfold State.flipFor; rw [h.flipHi, h.flipLo]

theorem State.sramCorrected_guards (s : State) (agent wa : Nat) (disc : BitVec 17) :
    s.SameGuards (s.sramCorrected agent wa disc) := by
  unfold State.sramCorrected
  dsimp only
  split <;> exact ⟨rfl, rfl, rfl⟩

theorem State.readSram_guards (s : State) (agent : Nat) (rmw : Bool) (wa : Nat) :
    s.SameGuards (s.readSram agent rmw wa).2 := by
  unfold State.readSram
  dsimp only
  split
  · exact .refl _
  · split
    · exact .refl _
    · refine (s.sramCorrected_guards agent wa (s.sramDisc wa)).trans ?_
      split <;> exact ⟨rfl, rfl, rfl⟩
    · exact ⟨rfl, rfl, rfl⟩

theorem State.readEachSram_guards (agent n : Nat) (s : State) (wa : Nat) :
    s.SameGuards (s.readEachSram agent wa n).2 := by
  induction n generalizing s wa with
  | zero => exact .refl _
  | succ n ih => exact (s.readSram_guards agent false wa).trans (ih _ _)

theorem State.activity_guards (s : State) (u : Meter) (k : Activity) (n : Nat) (p : Payer) :
    s.SameGuards (s.activity u k n p) := .of_sram (by rw [State.activity_frame])

theorem State.setCore_guards (s : State) (n : Nat) (k : Core) : s.SameGuards (s.setCore n k) := .of_sram rfl

theorem State.modCore_guards (s : State) (n : Nat) (f : Core → Core) : s.SameGuards (s.modCore n f) := s.setCore_guards n _

theorem State.fillBlock_guards (s : State) (n keep b : Nat) : s.SameGuards (s.fillBlock n keep b) := by
  unfold State.fillBlock
  split
  · exact .refl _
  · dsimp only
    exact ((s.activity_guards _ _ _ _).trans (State.readEachSram_guards agentCore 8 _ _)).trans (State.modCore_guards _ n _)

theorem State.fetchInto_guards (s : State) (n : Nat) : s.SameGuards (s.fetchInto n) := by
  unfold State.fetchInto
  dsimp only
  split
  · exact (s.fillBlock_guards n _ _).trans (State.fillBlock_guards _ n _ _)
  · exact .refl _

theorem State.fetching_guards (s : State) (i : Issue) (insn : Insn) : s.SameGuards (s.fetching i insn) := by
  unfold State.fetching
  exact (s.setCore_guards _ _).trans (State.fetchInto_guards _ _)

/-! ### What else the fetch leaves alone (R94, R95) -/

@[simp] theorem State.fetching_mem (s : State) (i : Issue) (insn : Insn) : (s.fetching i insn).mem = s.mem := by
  obtain ⟨_, _, _, _, _, _, _, h⟩ := s.fetching_frame i insn
  rw [h]

@[simp] theorem State.fetching_sramDisc (s : State) (i : Issue) (insn : Insn) (w : Nat) :
    (s.fetching i insn).sramDisc w = s.sramDisc w := by
  obtain ⟨_, _, _, _, _, _, _, h⟩ := s.fetching_frame i insn
  rw [h]; rfl

@[simp] theorem State.fetching_sramLive (s : State) (i : Issue) (insn : Insn) (c : Nat) :
    (s.fetching i insn).sramLive c = s.sramLive c := by
  obtain ⟨_, _, _, _, _, _, _, h⟩ := s.fetching_frame i insn
  rw [h]; rfl

@[simp] theorem State.issuer_loadsOut (s : State) (i : Issue) (insn : Insn) :
    (s.issuer i insn).loadsOut = (s.core i.core).loadsOut := by
  obtain ⟨_, _, _, _, _, h⟩ := s.issuer_frame i insn
  rw [h]; rfl

/-! ### Issuing -/

theorem State.sramLive_of_starts {s : State} {i : Issue} {insn : Insn} (h : s.starts i insn = true) :
    s.sramLive (clusterOf i.core) = true := by
  simp only [State.starts, State.coreReady, Bool.and_eq_true] at h
  obtain ⟨⟨⟨⟨-, hon⟩, -⟩, -⟩, -⟩ := h
  exact Bool.or_eq_true_iff.mpr (.inr hon)

/-- An instruction that acts on more than the registers of its core starts when no far load of the core is out (R121, log 44). -/
theorem State.loadsOut_of_starts {s : State} {i : Issue} {insn : Insn} (h : s.starts i insn = true) (ha : insn.acts = true) :
    (s.core i.core).loadsOut = false := by
  simpa [State.starts, ha] using (Bool.and_eq_true_iff.mp h).2

/-- A core that waits for nothing, or for the instruction of this very issue, may issue it (R99). -/
theorem Core.mayIssue_lone {k : Core} {i : Issue} (c : Issue → Instr)
    (h : k.held = none ∨ i.second = false ∧ k.held = some (c i)) : k.mayIssue (c (lone i)) = true := by
  unfold Core.mayIssue
  obtain hn | ⟨h2, hc⟩ := h
  · simp [hn]
  · have : lone i = i := by unfold lone; rw [← h2]
    simp [hc, this]

/-- Writing a scalar register commutes with retiring. -/
theorem Core.setReg_retire (k : Core) (r : SReg) (w : Word) (insn : Insn) (joined : Bool) (pc : Word) :
    (k.retire insn joined pc).setReg r w = (k.setReg r w).retire insn joined pc := by
  unfold Core.setReg
  split <;> rfl

/-- Two changes of one core, one after the other. -/
theorem State.modCore_modCore (s : State) (n : Nat) (f g : Core → Core) :
    ∃ cores, (s.modCore n f).modCore n g = { s with cores := cores } ∧
      ∀ j, ({ s with cores := cores } : State).core j = if j = n then g (f (s.core n)) else s.core j := by
  refine ⟨_, rfl, fun j => ?_⟩
  show ((s.modCore n f).modCore n g).core j = _
  simp only [State.modCore, State.core_setCore]
  by_cases hj : j = n <;> simp [hj]

end Sys2Proof.Machine

namespace Sys2Proof.Claims
open Sys2Proof.Machine

variable {s : State} {i : Issue} {insn : Insn} {c : Instr} {body : State → Core → Did}

/-- An instruction runs when its core may issue it: what its meaning issues is what the command does. -/
theorem runs_of_issue {Q : State → Prop} (c : Issue → Instr)
    (hx : exec (c i) s = .next (s.issue i (c (lone i)) insn body))
    (h : (s.core i.core).mayIssue (c (lone i)) = true → Q (s.issue i (c (lone i)) insn body)) : Runs i (c i) s Q :=
  fun hw => ⟨_, hx, h (Core.mayIssue_lone c hw)⟩

/-! ### Exceptions of a store (R105, R121 to R126) -/

/-- The exception that the model raises is the one that the claims speak of: a core that stops, and one report (R123, R240). -/
theorem raised_raise (s : State) (n : Nat) {cause : Nat} (hc : cause < 256) (sub unit : Nat) (value : Word) :
    Raised s n (s.core n) cause value (s.raise n cause sub unit value) := by
  refine ⟨?_, ⟨_, rfl, rfl, rfl, rfl, ?_, ?_, rfl⟩, fun j hj => ?_, rfl⟩
  · rw [State.raise_core, if_pos rfl]
  · simp only [faultPayload, List.getD_cons_zero, BitVec.toNat_ofNat]
    omega
  · simp only [faultPayload, List.getD_cons_succ, List.getD_cons_zero, BitVec.toNat_ofNat]
    omega
  · rw [State.raise_core, if_neg hj]

/-- An instruction that acts on more than the registers of its core, and whose own part raises an exception, raises it: no far load
of its core is out. -/
theorem excepts_of_raise {cause sub unit : Nat} {value : Word} (hI : Issues s i insn) (ha : insn.acts = true)
    (hm : (s.core i.core).mayIssue c = true) (hc : cause < 256)
    (hb : body (s.fetching i insn) (s.issuer i insn) = .raise (s.fetching i insn) cause sub unit value) :
    Excepts s i c insn cause value (s.issue i c insn body) := by
  obtain ⟨hs, hf, hx⟩ := hI
  have hl : (s.issuer i insn).loadsOut = false := by
    rw [State.issuer_loadsOut, State.loadsOut_of_starts hs ha]
  refine ⟨fun _ => ?_, fun hl' => absurd (hl'.symm.trans (State.loadsOut_of_starts hs ha)) (by decide)⟩
  rw [State.issue_raise hs hm hf hx hl hb]
  exact raised_raise _ _ hc _ _ _

theorem badAddress_cause_lt {core n cause : Nat} {a : Word} {whole : Prop} (h : BadAddress core a n whole cause) :
    cause < 256 := by
  unfold BadAddress at h
  split at h
  · omega
  · split at h <;> omega
  · omega

/-- A misaligned access raises the exception of its address. -/
theorem misaligned_badAddress (s : State) {core n cause : Nat} {a : Word} {whole : Prop} (ha : a.toNat % n ≠ 0)
    (h : BadAddress core a n whole cause) : ∃ sub, misaligned core a n s = .raise s cause sub unitLsu a := by
  unfold BadAddress at h
  unfold misaligned
  cases hca : coreAddr core a with
  | own off => simp only [hca] at h; exact ⟨_, by rw [h.1]; rfl⟩
  | far va => simp only [hca] at h; exact ⟨_, by rw [h.1]; rfl⟩
  | reserved => simp only [hca, if_pos ha] at h; exact ⟨_, by rw [h]; rfl⟩
  | control off => simp only [hca] at h; exact ⟨_, by rw [h.1]; rfl⟩

/-- An aligned access has no place to go where its address names nothing, and in the control window where it is not of the 64 bits
of a register. -/
theorem badAddress_of_aligned {core n cause : Nat} {a : Word} {whole : Prop} (ha : a.toNat % n = 0)
    (h : BadAddress core a n whole cause) :
    cause = causeBus ∧ (coreAddr core a = .reserved ∨ ¬ whole ∧ ∃ off, coreAddr core a = .control off) := by
  unfold BadAddress at h
  cases hca : coreAddr core a with
  | own off => simp [hca, ha] at h
  | far va => simp [hca, ha] at h
  | reserved => simp only [hca, ha, ne_eq, not_true_eq_false, if_false] at h; exact ⟨h, .inl rfl⟩
  | control off =>
    simp only [hca, ha, ne_eq, not_true_eq_false, false_or] at h
    exact ⟨h.1, .inr ⟨h.2, off, rfl⟩⟩

/-- A store at an address that has no place to go raises the exception of that address. -/
theorem storeAt_badAddress (s : State) {core n cause : Nat} {a : Word} {whole : Prop} {d : Bytes} {scalar : Bool}
    {post : Core → Core} (hd : d.length = n) (hw : scalar = true → n = 8 → whole) (h : BadAddress core a n whole cause) :
    ∃ sub, s.storeAt core a d n scalar post = .raise s cause sub unitLsu a := by
  unfold State.storeAt
  by_cases ha : a.toNat % n = 0
  · rw [if_neg (not_not.mpr ha)]
    obtain ⟨rfl, hres | ⟨hnw, off, hctl⟩⟩ := badAddress_of_aligned ha h
    · rw [hres]; exact ⟨_, rfl⟩
    · have hform : ¬ (scalar && d.length == 8) = true := by
        simpa [hd] using fun hs h8 => hnw (hw hs h8)
      rw [hctl]
      exact ⟨_, if_neg hform⟩
  · rw [if_pos ha]
    exact misaligned_badAddress s ha h

/-- A store instruction at an address that has no place to go raises the exception of that address, and stores nothing. -/
theorem excepts_of_storeAt {n cause : Nat} {a : Word} {whole : Prop} {d : Bytes} {scalar : Bool} {post : Core → Core}
    (hI : Issues s i insn) (ha : insn.acts = true) (hm : (s.core i.core).mayIssue c = true)
    (hb : body (s.fetching i insn) (s.issuer i insn) = (s.fetching i insn).storeAt i.core a d n scalar post)
    (hd : d.length = n) (hw : scalar = true → n = 8 → whole) (h : BadAddress i.core a n whole cause) :
    Excepts s i c insn cause a (s.issue i c insn body) := by
  obtain ⟨sub, hs⟩ := storeAt_badAddress (s.fetching i insn) (post := post) hd hw h
  exact excepts_of_raise hI ha hm (badAddress_cause_lt h) (hb.trans hs)

/-! ### Stores that reach the own cluster (R83, R96, R105) -/

/-- A store of the low `k` bytes of `v` at module address `p` has retired: those bytes are written, least significant first, and
`post` has been done to the core's registers; nothing else but accounts and the SRAM's record of written words differs. -/
def Stored (s : State) (i : Issue) (insn : Insn) (p k v : Nat) (post : Core → Core) (t : State) : Prop :=
  (∀ x, Memory.byte t.mem x =
    if p ≤ x ∧ x < p + k then BitVec.ofNat 8 (v / 256 ^ (x - p)) else Memory.byte s.mem x) ∧
  (∀ w, t.sramDisc w = s.sramDisc w) ∧
  (∀ j, t.core j = if j = i.core then
    post ((s.issuer i insn).retire insn (s.joins i insn) (pcOf s i insn + 4)) else s.core j) ∧
  SameButCharges (s.fetching i insn) t ∧ t.sram.retired = s.sram.retired ∧ t.sram.flipHi = s.sram.flipHi ∧
  t = { s.fetching i insn with
    cores := t.cores, bights := t.bights, queues := t.queues, dict := t.dict, energy := t.energy
    mem := t.mem, sramCheck := t.sramCheck, sram := t.sram }

/-- The store can issue, is aligned to its `k` bytes, and its address `a` lies in the own cluster, at offset `off`, over words that
are fit for it; `p` is the module address. -/
def Reaches (s : State) (i : Issue) (insn : Insn) (a : Word) (k off p : Nat) : Prop :=
  Issues s i insn ∧ i.core < 8192 ∧ a.toNat % k = 0 ∧ coreAddr i.core a = .own off ∧
    p = sramAddr (clusterOf i.core) off ∧ CleanSram s p k ∧ NoFlip s p k

/-- Counting an activity changes charges only. -/
theorem sameButCharges_activity (s : State) (u : Meter) (k : Activity) (n : Nat) (p : Payer) :
    SameButCharges s (s.activity u k n p) := by
  refine ⟨s.activity_bight u k n p, ?_, s.activity_queue u k n p, ?_, ?_⟩ <;> rw [State.activity_frame]

/-- Charges are read from the bights, the queues, the Dictionary and the energy accounts alone. -/
theorem SameButCharges.congr {s t u : State} (h : SameButCharges s t) (hb : u.bights = t.bights) (hq : u.queues = t.queues)
    (hd : u.dict = t.dict) (he : u.energy = t.energy) : SameButCharges s u := by
  obtain ⟨h1, h2, h3, h4, h5⟩ := h
  refine ⟨fun b => ?_, by rw [hb]; exact h2, fun q => ?_, by rw [hd]; exact h4, by rw [he]; exact h5⟩
  · rw [← h1 b]; unfold State.bight; rw [hb]
  · rw [← h3 q]; unfold State.queue?; rw [hq]

/-- The words that a store touches are as fit for it after the fetch as before. -/
theorem fetching_fit {p k : Nat} (hs : CleanSram s p k) (hf : NoFlip s p k) (w : Nat) (h1 : p / 8 ≤ w)
    (h2 : w < (p + k + 7) / 8) :
    (s.fetching i insn).retiredWord w = false ∧ (s.fetching i insn).sramDisc w = 0 ∧
      (s.fetching i insn).flipFor (wordCluster w) (wordBank w) = none := by
  have hg := s.fetching_guards i insn
  rw [hg.retiredWord, hg.flipFor, State.fetching_sramDisc]
  exact ⟨(hs w h1 h2).1, (hs w h1 h2).2, hf w h1 h2⟩

/-- What a store that reaches clean words of the own cluster stores, before its core has retired it. -/
theorem storeAt_stores {s : State} {core k off p v : Nat} {a : Word} {scalar : Bool} {post : Core → Core} (hc : core < 8192)
    (hk : k = 1 ∨ k = 2 ∨ k = 4 ∨ k = 8 ∨ k = 64) (ha : a.toNat % k = 0) (ho : coreAddr core a = .own off)
    (hl : s.sramLive (clusterOf core) = true) (hp : p = sramAddr (clusterOf core) off)
    (h : ∀ w, p / 8 ≤ w → w < (p + k + 7) / 8 → s.retiredWord w = false ∧ s.sramDisc w = 0 ∧
      s.flipFor (wordCluster w) (wordBank w) = none) :
    ∃ u, s.storeAt core a (leBytes k v) k scalar post = .done (u.modCore core post) none ∧
      (∀ x, Memory.byte u.mem x =
        if p ≤ x ∧ x < p + k then BitVec.ofNat 8 (v / 256 ^ (x - p)) else Memory.byte s.mem x) ∧
      (∀ w, u.sramDisc w = s.sramDisc w) ∧ (∀ j, u.core j = s.core j) ∧ SameButCharges s u ∧
      s.SameGuards u ∧
      u = { s with
        bights := u.bights, queues := u.queues, dict := u.dict, energy := u.energy
        mem := u.mem, sramCheck := u.sramCheck, sram := u.sram } := by
  obtain ⟨m, ch, r, e, hbytes, hdisc, hret, hhi, hlo⟩ := State.storeAt_own (s := s) (scalar := scalar) (post := post)
    hc (leBytes_length k v) hk ha ho hl hp h
  generalize Meter.cluster (clusterOf core) = meter, s.clusterPayer (clusterOf core) = payer at e
  have hact := s.activity_frame meter (.sramWrite k) (divUp k 64) payer
  have hch := sameButCharges_activity s meter (.sramWrite k) (divUp k 64) payer
  have hcore := s.activity_core meter (.sramWrite k) (divUp k 64) payer
  generalize s.activity meter (.sramWrite k) (divUp k 64) payer = y at *
  refine ⟨_, e, fun x => ?_, hdisc, hcore, hch.congr rfl rfl rfl rfl, ⟨hret, hhi, hlo⟩, by rw [hact]⟩
  rw [hbytes x]
  split
  · exact leBytes_getD k v (x - p) (by omega)
  · rfl

/-! `pcOf` and `State.issuer` unfolded, as functions: where they have arguments, the kernel would run the fetch to compare the two
sides. -/

theorem pcOf_eq : pcOf = fun s i insn => (s.issuer i insn).pc := rfl

theorem issuer_eq : State.issuer = fun s i insn => (s.fetching i insn).core i.core := rfl

/-- What a store changes, with its core retired. -/
theorem with_cores_of_stored {s u : State} (hu : u = { s with
      bights := u.bights, queues := u.queues, dict := u.dict, energy := u.energy
      mem := u.mem, sramCheck := u.sramCheck, sram := u.sram }) (cores : Tab Core) :
    ({ u with cores := cores } : State) = { s with
      cores := cores, bights := u.bights, queues := u.queues, dict := u.dict, energy := u.energy
      mem := u.mem, sramCheck := u.sramCheck, sram := u.sram } := by
  generalize u.bights = b, u.queues = q, u.dict = d, u.energy = e, u.mem = m, u.sramCheck = k, u.sram = r at hu ⊢
  subst hu
  rfl

/-- A store instruction that reaches clean words of the own cluster stores, and retires. -/
theorem stored_of_storeAt {a : Word} {off p k v : Nat} {scalar : Bool} {post : Core → Core}
    (hk : k = 1 ∨ k = 2 ∨ k = 4 ∨ k = 8 ∨ k = 64) (hm : (s.core i.core).mayIssue c = true)
    (hr : Reaches s i insn a k off p)
    (hpost : ∀ (c : Core) (j : Bool) (pc : Word), post (c.retire insn j pc) = (post c).retire insn j pc)
    (hb : body (s.fetching i insn) (s.issuer i insn) =
      (s.fetching i insn).storeAt i.core a (leBytes k v) k scalar post) :
    Stored s i insn p k v post (s.issue i c insn body) := by
  obtain ⟨⟨hs, hf, hx⟩, hc, ha, ho, hp, hclean, hflip⟩ := hr
  have hg := s.fetching_guards i insn
  have hl : (s.fetching i insn).sramLive (clusterOf i.core) = true := by
    rw [State.fetching_sramLive, State.sramLive_of_starts hs]
  obtain ⟨u, e, hbytes, hdisc, hcore, hch, hgu, hu⟩ := storeAt_stores (scalar := scalar) (post := post) (v := v)
    hc hk ha ho hl hp (fetching_fit hclean hflip)
  rw [State.issue_done hs hm hf hx (hb.trans e), Option.getD_none]
  obtain ⟨cores, ht, htc⟩ := u.modCore_modCore i.core post
    fun k => k.retire insn (s.joins i insn) ((s.issuer i insn).pc + 4)
  rw [ht]
  refine ⟨fun x => ?_, fun w => (hdisc w).trans (s.fetching_sramDisc i insn w), fun j => ?_, hch.congr rfl rfl rfl rfl,
    hgu.retired.trans hg.retired, hgu.flipHi.trans hg.flipHi, ?_⟩
  · exact (hbytes x).trans (by rw [State.fetching_mem])
  · rw [htc, ← hpost]
    by_cases hj : j = i.core
    · rw [if_pos hj, if_pos hj, hcore, pcOf_eq, issuer_eq]
    · rw [if_neg hj, if_neg hj, hcore, State.core_fetching_other s i insn hj]
  · exact with_cores_of_stored hu cores

theorem sizeBytes_cases (size : Size) :
    sizeBytes size = 1 ∨ sizeBytes size = 2 ∨ sizeBytes size = 4 ∨ sizeBytes size = 8 ∨ sizeBytes size = 64 := by
  cases size <;> simp [sizeBytes]

theorem size_of_sizeBytes {size : Size} (h : sizeBytes size = 8) : size = .d := by
  revert h; cases size <;> decide

end Sys2Proof.Claims

section
open Sys2Proof Sys2Proof.Machine Sys2Proof.Claims

/-- Settles O15: each store is a case of `stored_of_storeAt` where it reaches the own cluster, and of `excepts_of_storeAt` where its
address has no place to go. -/
theorem ownClusterStores : Obligations.OwnClusterStores := by
  intro s i size rs1 rs2 vs imm off p
  refine ⟨fun hr => ?_, fun hr => ?_, fun hr => ?_, fun hI cause hb => ?_, fun hI cause hb => ?_, fun hI cause hb => ?_⟩
  · refine runs_of_issue (fun i => .st i size rs2 rs1 imm) rfl fun hm => ?_
    refine stored_of_storeAt (scalar := true) (sizeBytes_cases size) hm hr (fun _ _ _ => rfl) ?_
    simp only [State.issuer_reg, scaledImm]
  · refine runs_of_issue (fun i => .vst i vs rs1 imm) rfl fun hm => ?_
    refine stored_of_storeAt (scalar := false) (by decide) hm hr (fun _ _ _ => rfl) ?_
    simp only [State.issuer_reg, State.issuer_vreg, scaledImm, vecBytes]
  · refine runs_of_issue (fun i => .vstPi i vs rs1 imm) rfl fun hm => ?_
    refine stored_of_storeAt (scalar := false) (post := fun k => k.setReg rs1 _) (by decide) hm hr
      (fun k j pc => k.setReg_retire rs1 _ _ j pc) ?_
    simp only [State.issuer_reg, State.issuer_vreg, scaledImm, vecBytes]
  · refine runs_of_issue (fun i => .st i size rs2 rs1 imm) rfl fun hm => ?_
    refine excepts_of_storeAt (d := leBytes _ ((s.core i.core).reg rs2).toNat) (scalar := true) (post := id) hI rfl hm ?_
      (leBytes_length _ _) (fun _ h8 => size_of_sizeBytes h8) hb
    simp only [State.issuer_reg, scaledImm]
  · refine runs_of_issue (fun i => .vst i vs rs1 imm) rfl fun hm => ?_
    refine excepts_of_storeAt (d := vecBytes ((s.core i.core).vreg vs)) (scalar := false) (post := id) hI rfl hm ?_
      (leBytes_length _ _) (fun h => nomatch h) hb
    simp only [State.issuer_reg, State.issuer_vreg, scaledImm]
  · refine runs_of_issue (fun i => .vstPi i vs rs1 imm) rfl fun hm => ?_
    refine excepts_of_storeAt (d := vecBytes ((s.core i.core).vreg vs)) (scalar := false)
      (post := fun k => k.setReg rs1 ((s.core i.core).reg rs1 + scaledImm imm 64)) hI rfl hm ?_
      (leBytes_length _ _) (fun h => nomatch h) hb
    simp only [State.issuer_reg, State.issuer_vreg]

end

namespace Sys2Proof.Claims
open Sys2Proof.Machine

/-! ### One domain moves (R35, R36, R239, R313, R562) -/

/-- A domain in LOW or ON stands still, so that it has no flip mask to disarm. -/
theorem not_low_or_on_of_changing {x : DomState} : ¬ ((x = .low ∨ x = .on) ∧ x = .changing) := by
  rintro ⟨h, rfl⟩
  exact absurd h (by decide)

theorem started_start (d : Domain) (x : DomState) : Started d (d.start x) x := by
  unfold Started Domain.start
  exact ⟨fun h => if_pos h, fun h => if_neg h⟩

theorem requested_request (d : Domain) (x : DomState) : Requested d (d.request x) x := by
  unfold Requested Domain.request
  refine ⟨fun h => if_pos h, fun hs hh => ?_⟩
  rw [if_neg (by simp [hs, hh])]
  exact started_start d x

/-- A domain that starts towards a state is at its old state or CHANGING. -/
theorem start_state (d : Domain) (x : DomState) : (d.start x).state = d.state ∨ (d.start x).state = .changing := by
  unfold Domain.start
  split
  · exact .inl rfl
  · exact .inr rfl

theorem request_state (d : Domain) (x : DomState) : (d.request x).state = d.state ∨ (d.request x).state = .changing := by
  unfold Domain.request
  split
  · exact .inl rfl
  · exact start_state d x

theorem domain_moveDom (s : State) (i j : Nat) (d : Domain) : (s.moveDom i d).domain j = if j = i then d else s.domain j := by
  rw [← State.domain_setDomain]
  unfold State.moveDom
  dsimp only
  split_ifs <;> rfl

theorem domain_moveDom_self (s : State) (i : Nat) (d : Domain) : (s.moveDom i d).domain i = d := by
  rw [domain_moveDom, if_pos rfl]

theorem domain_moveDom_other (s : State) {i j : Nat} (d : Domain) (h : j ≠ i) : (s.moveDom i d).domain j = s.domain j := by
  rw [domain_moveDom, if_neg h]

/-- The transition of a domain that stood still is started by one DOMAIN message to its stop. -/
theorem carried_moveDom_starts (s : State) (i : Nat) {d : Domain} (ho : (s.domain i).state ≠ .changing)
    (hd : d.state = .changing) : ∃ m : LanMsg, (s.moveDom i d).mesh.carried = m :: s.mesh.carried ∧
      m.ty = 7 ∧ m.src = stopMgmt ∧ m.dest = stopOfDomain i := by
  unfold State.moveDom
  simp only [hd, bne_iff_ne.mpr ho, beq_self_eq_true, Bool.and_self, Bool.and_true, if_true]
  split_ifs <;> exact ⟨_, rfl, rfl, rfl, rfl⟩

theorem carried_moveDom_same (s : State) (i : Nat) {d : Domain} (h : (s.domain i).state = .changing ∨ d.state ≠ .changing) :
    (s.moveDom i d).mesh.carried = s.mesh.carried := by
  unfold State.moveDom
  have hn : ((s.domain i).state != .changing && d.state == .changing) = false := by
    rcases h with h | h <;> simp [h]
  simp only [hn, Bool.false_eq_true, if_false]
  split_ifs <;> rfl

/-- Only the flip mask of a cluster that leaves LOW or ON changes: it is disarmed (R313). -/
theorem flipHi_moveDom (s : State) (i : Nat) (d : Domain) :
    (s.moveDom i d).sram.flipHi =
      if (decide (i < 512) && ((s.domain i).state == .low || (s.domain i).state == .on) && d.state == .changing) = true then
        Tab.put 0 s.sram.flipHi i (Tab.look 0 s.sram.flipHi i &&& 0x7FFFFFFFFFFFFFFF)
      else s.sram.flipHi := by
  unfold State.moveDom
  dsimp only
  split_ifs <;> rfl

/-- Only a cluster that leaves OFF has its die's rails set again (R562). -/
theorem railsDropped_moveDom (s : State) (i : Nat) (d : Domain) :
    (s.moveDom i d).power.railsDropped =
      if (decide (i < 512) && (s.domain i).state == .off && d.state == .changing) = true then
        without s.power.railsDropped (dieOfCluster i)
      else s.power.railsDropped := by
  unfold State.moveDom
  dsimp only
  split_ifs <;> rfl

theorem moveDom_frame (s : State) (i : Nat) (d : Domain) :
    s.moveDom i d = { s with
      domains := (s.moveDom i d).domains, sram := { s.sram with flipHi := (s.moveDom i d).sram.flipHi }
      mesh := { s.mesh with carried := (s.moveDom i d).mesh.carried }
      power := { s.power with railsDropped := (s.moveDom i d).power.railsDropped } } := by
  unfold State.moveDom
  dsimp only
  split_ifs <;> rfl

theorem onlyDomains_moveDom (s : State) (i : Nat) (d : Domain) : OnlyDomains s (s.moveDom i d) := by
  refine ⟨fun c => ?_, ?_, ?_, moveDom_frame s i d⟩
  · have hdom : (s.moveDom i d).dom c = if c = i then d.state else s.dom c := by
      unfold State.dom; rw [domain_moveDom]; split <;> rfl
    rw [flipHi_moveDom, hdom]
    by_cases hc : c = i
    · subst hc
      simp only [if_true, Bool.and_eq_true, Bool.or_eq_true, decide_eq_true_eq, beq_iff_eq, and_assoc, State.dom]
      split
      · rw [Tab.look_put_same]
      · rfl
    · rw [if_neg hc, if_neg (c := c < 512 ∧ _) (fun h => not_low_or_on_of_changing h.2)]
      split
      · rw [Tab.look_put_other _ _ hc]
      · rfl
  · by_cases h : (s.domain i).state ≠ .changing ∧ d.state = .changing
    · obtain ⟨m, hm, hty, hsrc, -⟩ := carried_moveDom_starts s i h.1 h.2
      exact ⟨[m], hm, by simp [hty, hsrc]⟩
    · refine ⟨[], carried_moveDom_same s i ?_, by simp⟩
      tauto
  · rw [railsDropped_moveDom]
    split
    · exact fun _ h => List.mem_of_mem_filter h
    · exact fun _ h => h

/-! ### Domains move one after another -/

/-- Nothing but domains moves, each of which stays where it is or is then CHANGING: what any number of requests does. -/
def DomainsMove (s t : State) : Prop := OnlyDomains s t ∧ ∀ i, t.dom i = s.dom i ∨ t.dom i = .changing

section
variable {s t u : State}

theorem OnlyDomains.frame (h : OnlyDomains s t) : t = { s with
    domains := t.domains, sram := { s.sram with flipHi := t.sram.flipHi }, mesh := { s.mesh with carried := t.mesh.carried }
    power := { s.power with railsDropped := t.power.railsDropped } } := h.2.2.2

theorem OnlyDomains.bights (h : OnlyDomains s t) : t.bights = s.bights := by rw [h.frame]
theorem OnlyDomains.memHold (h : OnlyDomains s t) : t.memHold = s.memHold := by rw [h.frame]
theorem OnlyDomains.errors (h : OnlyDomains s t) : t.errors = s.errors := by rw [h.frame]

/-- Bights may change beside the domains. -/
theorem OnlyDomains.with_bights (h : OnlyDomains s t) (B : Bights) :
    OnlyDomains { s with bights := B } { t with bights := B } := by
  obtain ⟨hflip, hcar, hrails, hframe⟩ := h
  exact ⟨hflip, hcar, hrails, congrArg (fun v : State => { v with bights := B }) hframe⟩

theorem DomainsMove.of_same_states (h : OnlyDomains s t) (hd : ∀ i, t.dom i = s.dom i) : DomainsMove s t :=
  ⟨h, fun i => .inl (hd i)⟩

theorem DomainsMove.trans (h : DomainsMove s t) (h' : DomainsMove t u) : DomainsMove s u := by
  obtain ⟨⟨hflip, ⟨l, hl, hml⟩, hrails, hframe⟩, hd⟩ := h
  obtain ⟨⟨hflip', ⟨l', hl', hml'⟩, hrails', hframe'⟩, hd'⟩ := h'
  refine ⟨⟨fun c => ?_, ⟨l' ++ l, by rw [hl', hl, List.append_assoc], ?_⟩, fun d h => hrails d (hrails' d h), ?_⟩, fun i => ?_⟩
  · rw [hflip', hflip]
    rcases hd c with h | h <;> rcases hd' c with h' | h' <;> simp [h, h', not_low_or_on_of_changing]
  · simp only [List.mem_append]
    exact fun m hm => hm.elim (hml' m) (hml m)
  · rw [hframe', hframe]
  · rcases hd' i with h | h
    · rw [h]; exact hd i
    · exact .inr h

theorem DomainsMove.refl (s : State) : DomainsMove s s :=
  .of_same_states ⟨fun _ => (if_neg fun h => not_low_or_on_of_changing h.2).symm, ⟨[], rfl, by simp⟩, fun _ h => h, rfl⟩
    fun _ => rfl

theorem domainsMove_moveDom (s : State) (i : Nat) {d : Domain} (h : d.state = (s.domain i).state ∨ d.state = .changing) :
    DomainsMove s (s.moveDom i d) := by
  refine ⟨onlyDomains_moveDom s i d, fun j => ?_⟩
  unfold State.dom
  rw [domain_moveDom]
  split
  · next hj => rw [hj]; exact h
  · exact .inl rfl

theorem domainsMove_reqDom (s : State) (i : Nat) (x : DomState) : DomainsMove s (s.reqDom i x) :=
  domainsMove_moveDom s i (request_state (s.domain i) x)

/-- Taking a request off a domain's held ones moves nothing. -/
theorem domainsMove_setHeld (s : State) (i : Nat) (held : List DomState) :
    DomainsMove s (s.setDomain i { s.domain i with held := held }) := by
  have hd : ∀ j, (s.setDomain i { s.domain i with held := held }).dom j = s.dom j := fun j => by
    unfold State.dom
    rw [State.domain_setDomain]
    split
    · next h => rw [h]
    · rfl
  refine .of_same_states ⟨fun c => ?_, ⟨[], rfl, by simp⟩, fun _ h => h, rfl⟩ hd
  rw [hd, State.setDomain_sram, if_neg fun h => not_low_or_on_of_changing h.2]

/-- Driving a domain leaves the state alone or requests the domain's state (R37, R38). -/
theorem drive_cases (s : State) (i : Nat) (x : DomState) :
    s.drive i x = s ∨ (s.domain i).final ≠ x ∧ s.drive i x = s.reqDom i x := by
  unfold State.drive
  split
  · exact .inl rfl
  · next h =>
    split
    · exact .inr ⟨h, rfl⟩
    · exact .inl rfl

theorem domainsMove_drive (s : State) (i : Nat) (x : DomState) : DomainsMove s (s.drive i x) := by
  rcases drive_cases s i x with h | ⟨-, h⟩ <;> rw [h]
  · exact .refl s
  · exact domainsMove_reqDom s i x

theorem DomainsMove.foldl {f : State → Nat → State} (hf : ∀ s a, DomainsMove s (f s a)) (l : List Nat) (s : State) :
    DomainsMove s (l.foldl f s) := by
  induction l generalizing s with
  | nil => exact .refl s
  | cons a l ih => exact (hf s a).trans (ih _)

theorem domainsMove_driveNeeds (s : State) : DomainsMove s s.driveNeeds := by
  unfold State.driveNeeds
  refine DomainsMove.trans (t := (Tab.keys s.bights.tab).foldl _ s) (.foldl (fun s b => ?_) _ s) (.foldl (fun s c => ?_) _ _)
  · split
    · exact .foldl (fun s i => domainsMove_drive s i .on) _ s
    · exact .refl s
  · dsimp only
    split_ifs
    · exact .refl s
    · exact (domainsMove_drive s _ _).trans (domainsMove_drive _ _ _)
    · exact .refl s

theorem domain_reqDom_self (s : State) (i : Nat) (x : DomState) : (s.reqDom i x).domain i = (s.domain i).request x :=
  domain_moveDom_self s i _

theorem domain_reqDom_other (s : State) {i j : Nat} (x : DomState) (h : j ≠ i) : (s.reqDom i x).domain j = s.domain j :=
  domain_moveDom_other s _ h

theorem requested_reqDom (s : State) (i : Nat) (x : DomState) : Requested (s.domain i) ((s.reqDom i x).domain i) x := by
  rw [domain_reqDom_self]
  exact requested_request _ x

theorem domain_drive_other (s : State) {i j : Nat} (x : DomState) (h : j ≠ i) : (s.drive i x).domain j = s.domain j := by
  rcases drive_cases s i x with hs | ⟨-, hs⟩ <;> rw [hs]
  exact domain_reqDom_other s x h

end

/-! ### Requests of the Dictionary (R42, R472) -/

section
variable {s : State} {via : Via}

/-- A served write of an object ends with the status and the state of the object's own rules. -/
theorem answers_of_objWrite {eth expert : Bool} {act : Act} {c : Instr} (h : Serves s via eth expert)
    (hc : exec c s = .next (s.objWrite via eth expert act)) {code : Nat} {t : State} (ha : act s = (code, t)) :
    Answers c s via code t := by
  obtain ⟨hopen, heth, hlevel⟩ := h
  unfold Answers
  rw [hc]
  unfold State.objWrite State.guardWrite
  rw [if_pos hopen, if_neg (by rintro ⟨hv, he⟩; rw [heth hv] at he; exact absurd he (by decide)), hlevel, ha]
  rfl

/-- A domain that is no port's, or that is ON, loses nothing at a port. -/
theorem portStop_of_kept (s : State) (i : Nat) (h : i < 576 ∨ 624 ≤ i ∨ (s.domain i).state = .on) : s.portStop i = s := by
  unfold State.portStop domKind
  split
  · next p hp =>
    have hi : ¬ i < 576 ∧ i < 624 := by split_ifs at hp; omega
    rw [if_pos]
    rcases h with h | h | h
    · omega
    · omega
    · unfold State.domOn State.domIs State.dom; rw [h]; rfl
  · rfl

theorem domKind_port {p : Nat} (h : p < 48) : domKind (576 + p) = .port p := by
  unfold domKind
  rw [if_neg (by omega), if_neg (by omega), if_neg (by omega), if_pos (by omega), Nat.add_sub_cancel_left]

theorem portStop_of_stopped (s : State) {p : Nat} (h : p < 48) (hs : (s.domain (576 + p)).state ≠ .on) :
    s.portStop (576 + p) = (s.loseRequests p).modPort p fun x => x.emptied 0 := by
  unfold State.portStop
  rw [domKind_port h]
  exact if_neg (by unfold State.domOn State.domIs State.dom; simpa using hs)

/-- What follows a move of a domain is the start of its transition, and the stop of its port. -/
theorem followed_moveDom (s : State) (i : Nat) (d : Domain) : Followed s (s.moveDom i d) i ((s.moveDom i d).portStop i) := by
  refine ⟨fun ho hd => ?_, fun h => ?_, portStop_of_kept _ i, ?_⟩
  · rw [domain_moveDom_self] at hd
    exact carried_moveDom_starts s i ho hd
  · rw [domain_moveDom_self] at h
    exact carried_moveDom_same s i h
  · rintro p hp rfl hs
    exact portStop_of_stopped _ hp hs

theorem stateOfCode_eq_some {code : Nat} {x : DomState} :
    stateOfCode code = some x ↔ code = 0 ∧ x = .off ∨ code = 1 ∧ x = .low ∨ code = 2 ∧ x = .on := by
  unfold stateOfCode
  split <;> simp_all [eq_comm]

/-- R42 and R356 allow a request of the Dictionary. -/
def RequestAllowed (s : State) (i : Nat) (x : DomState) : Prop :=
  stateUsed i x = true ∧ ¬ (s.errors.rootstock = true ∧ x = .on) ∧ s.domLegal i x = true ∧ s.walkersLegal i x = true

theorem putDomainRequest_allowed {value : BitVec 32} {x : DomState} (hx : stateOfCode (value.toNat / 65536 % 4) = some x)
    (h : RequestAllowed s (value.toNat % 1024) x) :
    putDomainRequest value s =
      (0x00, (s.reqDom (value.toNat % 1024) x).portStop (value.toNat % 1024)) := by
  obtain ⟨hused, hroot, hlegal, hwalk⟩ := h
  simp [putDomainRequest, fieldN, hx, hused, hroot, hlegal, hwalk, dOk]

theorem putDomainRequest_refused {value : BitVec 32}
    (h : ∀ x, stateOfCode (value.toNat / 65536 % 4) = some x → ¬ RequestAllowed s (value.toNat % 1024) x) :
    putDomainRequest value s = (0x06, s) := by
  unfold putDomainRequest
  simp only [fieldN, Nat.pow_zero, Nat.div_one, Nat.reducePow]
  split
  · rfl
  · next x hx =>
    split_ifs with hused hroot hlegal
    · rfl
    · rfl
    · rfl
    · refine absurd ⟨?_, hroot, ?_⟩ (h x hx)
      · simpa using hused
      · simpa using hlegal

/-- A domain's oldest held request is applied when it is still legal (R36). -/
theorem exec_heldDomainRequest {i : Nat} {x : DomState} {rest : List DomState} (hs : (s.domain i).state ≠ .changing)
    (hh : (s.domain i).held = x :: rest) :
    exec (.heldDomainRequest i) s = .next
      (let s' := s.setDomain i { s.domain i with held := rest }
       if s'.domLegal i x && s'.walkersLegal i x then
         ((s'.moveDom i (({ s.domain i with held := rest } : Domain).start x)).portStop i).driveNeeds else s') := by
  show execHeldDomainRequest i s = _
  unfold execHeldDomainRequest
  dsimp only
  split
  · next h => exact absurd h hs
  · next h _ => rw [hh] at h; cases h
  · next y l h _ =>
    rw [hh] at h
    cases h
    rw [State.domain_setDomain_self]

theorem exec_heldDomainRequest_of_none {i : Nat} (h : (s.domain i).state = .changing ∨ (s.domain i).held = []) :
    exec (.heldDomainRequest i) s = .next s := by
  show execHeldDomainRequest i s = _
  unfold execHeldDomainRequest
  dsimp only
  split
  · rfl
  · rfl
  · next hheld hstate =>
    rcases h with h | h
    · exact absurd h hstate
    · rw [hheld] at h; cases h

/-- A request that was held moves its domain as a request that has just come does, after it has been taken off the held ones. -/
theorem moves_of_held (s : State) (i : Nat) (x : DomState) (rest : List DomState) :
    let d : Domain := { s.domain i with held := rest }
    let u := (s.setDomain i d).moveDom i (d.start x)
    Started d (u.domain i) x ∧ (∀ j, j ≠ i → u.domain j = s.domain j) ∧ OnlyDomains s u ∧ Followed s u i (u.portStop i) := by
  intro d u
  have hself : (s.setDomain i d).domain i = d := State.domain_setDomain_self s i d
  have hstart : (d.start x).state = ((s.setDomain i d).domain i).state ∨ (d.start x).state = .changing := by
    rw [hself]; exact start_state d x
  refine ⟨?_, fun j hj => ?_, ((domainsMove_setHeld s i rest).trans (domainsMove_moveDom _ i hstart)).1, ?_⟩
  · rw [domain_moveDom_self]; exact started_start d x
  · rw [domain_moveDom_other _ _ hj, State.domain_setDomain, if_neg hj]
  · have hfollowed := followed_moveDom (s.setDomain i d) i (d.start x)
    unfold Followed at hfollowed
    rwa [hself, State.setDomain_mesh] at hfollowed

/-- Half-dies and die uncores are the domains that self-policy switches OFF (R39). -/
theorem domKind_half_or_die {i : Nat} (h : 512 ≤ i ∧ i < 544 ∨ 624 ≤ i ∧ i < 640) :
    domKind i = .half (i - 512) ∨ domKind i = .die (i - 624) := by
  unfold domKind
  rcases h with ⟨h, h'⟩ | ⟨h, h'⟩
  · rw [if_neg (by omega), if_pos h']; exact .inl rfl
  · rw [if_neg (by omega), if_neg (by omega), if_neg (by omega), if_neg (by omega), if_pos h']; exact .inr rfl

theorem exec_selfPolicyDomainOff {i : Nat} (hi : 512 ≤ i ∧ i < 544 ∨ 624 ≤ i ∧ i < 640) :
    exec (.selfPolicyDomainOff i) s = .next
      (if s.frame.selfPolicy = true ∧ (s.domain i).state = .on ∧ s.domLegal i .off = true then s.reqDom i .off else s) := by
  show execSelfPolicyDomainOff i s = _
  unfold execSelfPolicyDomainOff
  rcases domKind_half_or_die hi with hk | hk <;>
    simp only [hk, State.selfPolicy, State.domOn, State.domIs, State.dom, Bool.and_true, Bool.and_eq_true, beq_iff_eq, and_assoc]

theorem exec_selfPolicyDomainOff_of_needed {i : Nat}
    (h : s.frame.selfPolicy = false ∨ (s.domain i).state ≠ .on ∨ s.domLegal i .off = false) :
    exec (.selfPolicyDomainOff i) s = .next s := by
  show execSelfPolicyDomainOff i s = _
  unfold execSelfPolicyDomainOff
  dsimp only
  rw [if_neg]
  simp only [State.selfPolicy, State.domOn, State.domIs, State.dom, Bool.and_eq_true, beq_iff_eq]
  rintro ⟨⟨⟨hpolicy, -⟩, hon⟩, hlegal⟩
  rcases h with h | h | h
  · rw [h] at hpolicy; cases hpolicy
  · exact h hon
  · rw [h] at hlegal; cases hlegal

end

end Sys2Proof.Claims

section
open Sys2Proof Sys2Proof.Machine Sys2Proof.Claims

/-- Settles O26: a request is one `State.moveDom` and the port stop that follows it, whether the Dictionary makes it, it was held, or
self-policy asks for it. -/
theorem domainRequestsAreAppliedOrRefused : Obligations.DomainRequestsAreAppliedOrRefused := by
  refine ⟨fun s via value hserves => ⟨fun x hcode hgood => ?_, fun hbad => ?_⟩, fun s i => ⟨?_, ?_, ?_⟩, fun s i => ⟨?_, ?_⟩⟩
  · have hmove := domainsMove_reqDom s (value.toNat % 1024) x
    exact ⟨s.reqDom _ x, _, answers_of_objWrite hserves rfl (putDomainRequest_allowed (stateOfCode_eq_some.mpr hcode) hgood),
      requested_reqDom s _ x, fun j => domain_reqDom_other s x, hmove.1, followed_moveDom s _ _⟩
  · refine answers_of_objWrite hserves rfl (putDomainRequest_refused fun x hx hgood => ?_)
    rcases hbad with hcode | ⟨y, hcode, hbad⟩
    · rw [stateOfCode_eq_some] at hx
      omega
    · rw [stateOfCode_eq_some.mpr hcode] at hx
      cases hx
      exact hbad hgood
  · exact exec_heldDomainRequest_of_none
  · intro x rest hs hh hillegal
    rw [exec_heldDomainRequest hs hh]
    rcases hillegal with h | h <;> simp only [h, Bool.false_and, Bool.and_false, Bool.false_eq_true, if_false]
  · intro x rest hs hh hlegal hwalk
    rw [exec_heldDomainRequest hs hh]
    dsimp only
    rw [if_pos (by rw [hlegal, hwalk]; rfl)]
    exact ⟨_, _, rfl, moves_of_held s i x rest⟩
  · intro hi hpolicy hon hlegal
    refine ⟨s.reqDom i .off, ?_, requested_reqDom s i .off, fun j => domain_reqDom_other s .off, (domainsMove_reqDom s i .off).1⟩
    rw [exec_selfPolicyDomainOff hi, if_pos ⟨hpolicy, hon, hlegal⟩]
  · intro h
    exact exec_selfPolicyDomainOff_of_needed h

end

namespace Sys2Proof.Claims
open Sys2Proof.Machine

/-! ### Folds of steps that each touch one domain -/

section
variable {f : State → Nat → State}

/-- Steps that each leave every domain but one alone leave the domains alone that no step is for. -/
theorem domain_foldl_other (hf : ∀ s a j, j ≠ a → (f s a).domain j = s.domain j) {l : List Nat} {j : Nat} (hj : j ∉ l) (s : State) :
    (l.foldl f s).domain j = s.domain j := by
  induction l generalizing s with
  | nil => rfl
  | cons a l ih =>
    rw [List.mem_cons, not_or] at hj
    exact (ih hj.2 _).trans (hf s a j hj.1)

/-- The one step for a domain decides it, from a state that the steps before have reached and that has the domain as it was. -/
theorem domain_foldl_self (hf : ∀ s a j, j ≠ a → (f s a).domain j = s.domain j) (hm : ∀ s a, DomainsMove s (f s a)) {l : List Nat}
    (hl : l.Nodup) {j : Nat} (hj : j ∈ l) (s : State) :
    ∃ s', DomainsMove s s' ∧ (∀ i, i = j ∨ i ∉ l → s'.domain i = s.domain i) ∧ (l.foldl f s).domain j = (f s' j).domain j := by
  obtain ⟨a, b, rfl⟩ := List.append_of_mem hj
  obtain ⟨-, hb, hab⟩ := List.nodup_append.mp hl
  refine ⟨a.foldl f s, .foldl hm a s, fun i hi => domain_foldl_other hf (fun hia => ?_) s, ?_⟩
  · rcases hi with rfl | hi
    · exact hab i hia i (List.mem_cons_self ..) rfl
    · exact hi (List.mem_append_left _ hia)
  · rw [List.foldl_append, List.foldl_cons]
    exact domain_foldl_other hf (List.nodup_cons.mp hb).1 _

end

/-! ### Clusters held for memory (R38, R41) -/

section
variable {s t : State}

/-- A cluster that is OFF and stands still is driven to LOW when its half-die is ON. -/
theorem drive_low_of_half_on {c : Nat} (hc : c < 512) (hd : s.domain c = {}) (hh : s.dom (512 + halfOfCluster c) = .on) :
    s.drive c .low = s.reqDom c .low := by
  have hkind : domKind c = .cluster c := by unfold domKind; exact if_pos hc
  have hhalf : s.domOn (domHalf (halfOfCluster c)) = true := by
    unfold State.domOn State.domIs domHalf; rw [hh]; rfl
  unfold State.drive
  rw [hd, if_neg (by decide), if_pos]
  unfold State.domLegal State.walkersLegal
  simp only [hkind, hhalf, Bool.or_true, Bool.and_true]

theorem started_low_of_off {c : Nat} (hd : s.domain c = {}) : Started {} ((s.reqDom c .low).domain c) .low := by
  rw [domain_reqDom_self, hd]
  exact started_start {} .low

/-- A cluster that is held for memory, OFF and of no bight waits for LOW. -/
theorem holdDue_of_off {c : Nat} (hmem : c ∈ s.memHold) (hb : s.bightOfCluster c = none) (hr : s.errors.rootstock = false)
    (hd : s.domain c = {}) : s.holdDue c = true := by
  simp [State.holdDue, hmem, hb, hr, hd, Domain.final]

theorem halfOfCluster_lt {c : Nat} (hc : c < 512) : halfOfCluster c < 32 := by
  unfold halfOfCluster dieOfCluster clusterX clusterY
  split <;> omega

theorem bightOfCluster_of_no_bights (h : s.bights.tab = []) (c : Nat) : s.bightOfCluster c = none := by
  unfold State.bightOfCluster
  rw [h]
  rfl

/-- The half-die of a held cluster that waits, and its die uncore, are switched on (R38, R39). -/
def driveHeld (s : State) (c : Nat) : State :=
  if s.holdDue c then
    if s.domOn (domHalf (halfOfCluster c)) then s
    else (s.drive (domDie (halfOfCluster c / 2)) .on).drive (domHalf (halfOfCluster c)) .on
  else s

theorem driveNeeds_of_no_bights (hb : s.bights.tab = []) : s.driveNeeds = s.memHold.foldl driveHeld s := by
  unfold State.driveNeeds
  simp only [hb, Tab.keys, List.map_nil, List.foldl_nil]
  rfl

/-- Driving what a held cluster waits for leaves every cluster alone, and every half-die that is ON. -/
theorem domain_driveHeld (s : State) (c : Nat) {j : Nat} (hj : j < 512 ∨ j < 544 ∧ s.dom j = .on) :
    (driveHeld s c).domain j = s.domain j := by
  have hdie : j ≠ domDie (halfOfCluster c / 2) := by unfold domDie; omega
  unfold driveHeld
  split_ifs with hdue hhalf
  · rfl
  · have hne : j ≠ domHalf (halfOfCluster c) := by
      rintro rfl
      rcases hj with h | ⟨-, hon⟩
      · unfold domHalf at h; omega
      · exact hhalf (beq_iff_eq.mpr hon)
    rw [domain_drive_other _ _ hne, domain_drive_other _ _ hdie]
  · rfl

theorem domain_foldl_driveHeld (held : List Nat) (s : State) {j : Nat} (hj : j < 512 ∨ j < 544 ∧ s.dom j = .on) :
    (held.foldl driveHeld s).domain j = s.domain j := by
  induction held generalizing s with
  | nil => rfl
  | cons c held ih =>
    have hc := domain_driveHeld s c hj
    rw [List.foldl_cons, ih _ (by unfold State.dom at *; rwa [hc]), hc]

/-! ### The memory-hold word -/

theorem mem_holdWith {hold : List Nat} {sub : Nat} {v : BitVec 32} (hsub : 1 ≤ sub) (c : Nat) :
    c ∈ holdWith hold sub v ↔ if c / 32 + 1 = sub then v.getLsbD (c % 32) = true else c ∈ hold := by
  simp only [holdWith, List.mem_mergeSort, List.mem_append, List.mem_filter, List.mem_map, List.mem_range, bne_iff_ne, ne_eq]
  constructor
  · rintro (⟨hmem, hne⟩ | ⟨i, ⟨hi, hv⟩, rfl⟩)
    · rwa [if_neg hne]
    · rw [if_pos (by omega), show (32 * (sub - 1) + i) % 32 = i by omega]
      exact hv
  · split
    · next hc => exact fun hv => .inr ⟨c % 32, ⟨by omega, hv⟩, by omega⟩
    · next hc => exact fun hmem => .inl ⟨hmem, hc⟩

/-- The clusters of a memory-hold word (R41). -/
def holdWord (sub : Nat) : List Nat := (List.range 32).map fun i => 32 * (sub - 1) + i

theorem mem_holdWord {sub c : Nat} (hsub : 1 ≤ sub) : c ∈ holdWord sub ↔ c / 32 + 1 = sub := by
  simp only [holdWord, List.mem_map, List.mem_range]
  constructor
  · rintro ⟨i, hi, rfl⟩; omega
  · exact fun h => ⟨c % 32, by omega, by omega⟩

theorem nodup_holdWord (sub : Nat) : (holdWord sub).Nodup :=
  List.Nodup.map (fun a b h => by simpa using h) List.nodup_range

/-- A cluster whose bit is cleared in LOW is bound for OFF. -/
def holdClear (old : List Nat) (s : State) (c : Nat) : State :=
  if (s.bightOfCluster c).isSome then s
  else if old.contains c && !s.memHold.contains c && (s.domain c).final == .low then s.reqDom c .off
  else s

/-- A cluster that waits for LOW under a half-die that is ON is bound for LOW. -/
def holdEnter (s : State) (c : Nat) : State :=
  if s.holdDue c && s.domOn (domHalf (halfOfCluster c)) then s.drive c .low else s

theorem putMemoryHold_status (sub : Nat) (v : BitVec 32) (s : State) :
    putMemoryHold sub v s = (0x00, (putMemoryHold sub v s).2) := by
  unfold putMemoryHold dOk
  dsimp only

theorem putMemoryHold_state (sub : Nat) (v : BitVec 32) (s : State) :
    (putMemoryHold sub v s).2 = (holdWord sub).foldl holdEnter
      ((holdWord sub).foldl (holdClear s.memHold) { s with memHold := holdWith s.memHold sub v }).driveNeeds := by
  unfold putMemoryHold holdWord holdEnter holdClear
  dsimp only

theorem domainsMove_holdClear (old : List Nat) (s : State) (c : Nat) : DomainsMove s (holdClear old s c) := by
  unfold holdClear
  split_ifs
  · exact .refl s
  · exact domainsMove_reqDom s c .off
  · exact .refl s

theorem domain_holdClear_other (old : List Nat) (s : State) (c j : Nat) (h : j ≠ c) :
    (holdClear old s c).domain j = s.domain j := by
  unfold holdClear
  split_ifs
  · rfl
  · exact domain_reqDom_other s .off h
  · rfl

theorem domainsMove_holdEnter (s : State) (c : Nat) : DomainsMove s (holdEnter s c) := by
  unfold holdEnter
  split_ifs
  · exact domainsMove_drive s c .low
  · exact .refl s

theorem domain_holdEnter_other (s : State) (c j : Nat) (h : j ≠ c) : (holdEnter s c).domain j = s.domain j := by
  unfold holdEnter
  split_ifs
  · exact domain_drive_other s .low h
  · rfl

theorem dom_eq_of_domain_eq {i : Nat} (h : t.domain i = s.domain i) : t.dom i = s.dom i := congrArg Domain.state h

/-- Without bights a cluster of the word is decided by the two steps that are for it, each from a state that has the cluster as it was
before, and its half-die ON where it was. -/
theorem domain_putMemoryHold {sub c : Nat} {v : BitVec 32} (hsub : 1 ≤ sub) (hsub' : sub ≤ 16) (hb : s.bights.tab = [])
    (hc : c / 32 + 1 = sub) :
    ∃ s' s'', DomainsMove { s with memHold := holdWith s.memHold sub v } s' ∧
      DomainsMove { s with memHold := holdWith s.memHold sub v } s'' ∧
      s'.domain c = s.domain c ∧ s''.domain c = (holdClear s.memHold s' c).domain c ∧
      (s.dom (512 + halfOfCluster c) = .on → s''.dom (512 + halfOfCluster c) = .on) ∧
      (putMemoryHold sub v s).2.domain c = (holdEnter s'' c).domain c := by
  have hmem := (mem_holdWord hsub).mpr hc
  have hhalf := halfOfCluster_lt (c := c) (by omega)
  have hnot : 512 + halfOfCluster c ∉ holdWord sub := fun h => by
    have := (mem_holdWord hsub).mp h; omega
  rw [putMemoryHold_state]
  generalize hs₀ : ({ s with memHold := holdWith s.memHold sub v } : State) = s₀
  have hb₀ : s₀.bights.tab = [] := by rw [← hs₀]; exact hb
  have hd₀ : ∀ i, s₀.domain i = s.domain i := by rw [← hs₀]; exact fun _ => rfl
  have hmove := DomainsMove.foldl (domainsMove_holdClear s.memHold) (holdWord sub) s₀
  obtain ⟨s', hs', hkeep', hclear⟩ := domain_foldl_self (domain_holdClear_other s.memHold) (domainsMove_holdClear s.memHold)
    (nodup_holdWord sub) hmem s₀
  have hhalfClear := domain_foldl_other (domain_holdClear_other s.memHold) hnot s₀
  generalize (holdWord sub).foldl (holdClear s.memHold) s₀ = u at *
  have hneeds := domainsMove_driveNeeds u
  have hdrive : ∀ {j}, j < 512 ∨ j < 544 ∧ u.dom j = .on → u.driveNeeds.domain j = u.domain j := fun hj => by
    rw [driveNeeds_of_no_bights (by rw [hmove.1.bights, hb₀])]
    exact domain_foldl_driveHeld _ u hj
  obtain ⟨s'', hs'', hkeep'', henter⟩ := domain_foldl_self domain_holdEnter_other domainsMove_holdEnter (nodup_holdWord sub) hmem
    u.driveNeeds
  refine ⟨s', s'', hs', (hmove.trans hneeds).trans hs'', ?_, ?_, fun hon => ?_, henter⟩
  · rw [hkeep' c (.inl rfl), hd₀]
  · rw [hkeep'' c (.inl rfl), hdrive (.inl (by omega)), hclear]
  · have hu : u.dom (512 + halfOfCluster c) = .on := by
      rw [dom_eq_of_domain_eq hhalfClear, dom_eq_of_domain_eq (hd₀ _), hon]
    rw [dom_eq_of_domain_eq (hkeep'' _ (.inr hnot)), dom_eq_of_domain_eq (hdrive (.inr ⟨by omega, hu⟩)), hu]

theorem domainsMove_putMemoryHold (sub : Nat) (v : BitVec 32) (s : State) :
    DomainsMove { s with memHold := holdWith s.memHold sub v } (putMemoryHold sub v s).2 := by
  rw [putMemoryHold_state]
  exact ((DomainsMove.foldl (domainsMove_holdClear _) _ _).trans (domainsMove_driveNeeds _)).trans
    (.foldl domainsMove_holdEnter _ _)

theorem holdClear_of_held {old : List Nat} {c : Nat} (h : c ∈ s.memHold) : holdClear old s c = s := by
  unfold holdClear
  split_ifs with hb hold
  · rfl
  · simp [h] at hold
  · rfl

theorem holdClear_of_cleared {old : List Nat} {c : Nat} (hb : s.bightOfCluster c = none) (ho : c ∈ old) (h : c ∉ s.memHold)
    (hf : (s.domain c).final = .low) : holdClear old s c = s.reqDom c .off := by
  simp [holdClear, hb, ho, h, hf]

theorem holdEnter_of_not_held {c : Nat} (h : c ∉ s.memHold) : holdEnter s c = s := by
  simp [holdEnter, State.holdDue, h]

theorem holdEnter_of_due {c : Nat} (hc : c < 512) (hdue : s.holdDue c = true) (hd : s.domain c = {})
    (hh : s.dom (512 + halfOfCluster c) = .on) : holdEnter s c = s.reqDom c .low := by
  unfold holdEnter
  rw [if_pos, drive_low_of_half_on hc hd hh]
  unfold State.domOn State.domIs domHalf
  rw [hdue, hh]
  rfl

theorem started_low_of_bit_set {sub c : Nat} {v : BitVec 32} (hsub : 1 ≤ sub) (hsub' : sub ≤ 16) (hb : s.bights.tab = [])
    (hr : s.errors.rootstock = false) (hc : c / 32 + 1 = sub) (hv : v.getLsbD (c % 32) = true) (hd : s.domain c = {})
    (hh : s.dom (512 + halfOfCluster c) = .on) : Started {} ((putMemoryHold sub v s).2.domain c) .low := by
  obtain ⟨s', s'', hs', hs'', hkeep, hcleared, hon, hput⟩ := domain_putMemoryHold (v := v) hsub hsub' hb hc
  have hheld : c ∈ holdWith s.memHold sub v := (mem_holdWith hsub c).mpr (by rw [if_pos hc]; exact hv)
  rw [holdClear_of_held (by rw [hs'.1.memHold]; exact hheld), hkeep, hd] at hcleared
  have hdue : s''.holdDue c = true := holdDue_of_off (by rw [hs''.1.memHold]; exact hheld)
    (bightOfCluster_of_no_bights (by rw [hs''.1.bights]; exact hb) c) (by rw [hs''.1.errors]; exact hr) hcleared
  rw [hput, holdEnter_of_due (by omega) hdue hcleared (hon hh)]
  exact started_low_of_off hcleared

theorem answers_memoryHoldWrite {via : Via} {sub : Nat} (v : BitVec 32) (h : Serves s via true false) (hsub : 1 ≤ sub)
    (hsub' : sub ≤ 16) : Answers (.memoryHoldWrite via sub v) s via 0x00 (putMemoryHold sub v s).2 :=
  answers_of_objWrite h rfl ((if_pos ⟨hsub, hsub'⟩).trans (putMemoryHold_status sub v s))

theorem requested_off_of_bit_cleared {sub c : Nat} {v : BitVec 32} (hsub : 1 ≤ sub) (hsub' : sub ≤ 16) (hb : s.bights.tab = [])
    (hc : c / 32 + 1 = sub) (hv : v.getLsbD (c % 32) = false) (hold : c ∈ s.memHold) (hf : (s.domain c).final = .low) :
    Requested (s.domain c) ((putMemoryHold sub v s).2.domain c) .off := by
  obtain ⟨s', s'', hs', hs'', hkeep, hcleared, -, hput⟩ := domain_putMemoryHold (v := v) hsub hsub' hb hc
  have hfree : c ∉ holdWith s.memHold sub v := fun h => by
    have := (mem_holdWith hsub c).mp h
    rw [if_pos hc, hv] at this
    cases this
  rw [hput, holdEnter_of_not_held (by rw [hs''.1.memHold]; exact hfree), hcleared,
    holdClear_of_cleared (bightOfCluster_of_no_bights (by rw [hs'.1.bights]; exact hb) c) hold (by rw [hs'.1.memHold]; exact hfree)
      (by rw [hkeep]; exact hf), ← hkeep]
  exact requested_reqDom s' c .off

/-! ### Idle members (R286) -/

/-- LOW is requested of every cluster of a list. -/
def requestLow (l : List Nat) (s : State) : State := l.foldl (fun s c => s.reqDom c .low) s

theorem domainsMove_requestLow (l : List Nat) (s : State) : DomainsMove s (requestLow l s) :=
  .foldl (fun s c => domainsMove_reqDom s c .low) l s

theorem domain_requestLow_other {l : List Nat} {c : Nat} (hc : c ∉ l) (s : State) : (requestLow l s).domain c = s.domain c :=
  domain_foldl_other (fun s _ _ h => domain_reqDom_other s .low h) hc s

theorem requested_requestLow {l : List Nat} (hl : l.Nodup) {c : Nat} (hc : c ∈ l) (s : State) :
    Requested (s.domain c) ((requestLow l s).domain c) .low := by
  obtain ⟨s', -, hkeep, hself⟩ := domain_foldl_self (fun s _ _ h => domain_reqDom_other s .low h)
    (fun s c => domainsMove_reqDom s c .low) hl hc s
  rw [requestLow, hself, ← hkeep c (.inl rfl)]
  exact requested_reqDom s' c .low

end

end Sys2Proof.Claims

section
open Sys2Proof Sys2Proof.Machine Sys2Proof.Claims

/-- Settles O28: each step is a fold of requests, in which the one step for a domain decides it. -/
theorem memoryHoldBitsAndIdleSteps : Obligations.MemoryHoldBitsAndIdleSteps := by
  refine ⟨fun s via sub v hserves hsub hsub' => ?_, fun s c hc hheld hb hr hd hh => ?_,
    fun s b hpolicy hok hlashed htime hidle hruns hlaunch hdue => ?_,
    fun s st hst hpolicy hon hidle hidle' hwaited hfree => ?_⟩
  · have hmove := domainsMove_putMemoryHold sub v s
    have hheld := hmove.1.memHold
    refine ⟨(putMemoryHold sub v s).2, answers_memoryHoldWrite v hserves hsub hsub', ?_, fun c => ?_,
      fun hb hr c hc => ⟨started_low_of_bit_set hsub hsub' hb hr hc, requested_off_of_bit_cleared hsub hsub' hb hc⟩⟩
    · rw [hheld]; exact hmove.1
    · rw [hheld]; exact mem_holdWith hsub c
  · refine ⟨s.reqDom c .low, ?_, started_low_of_off hd, fun j => domain_reqDom_other s .low, (domainsMove_reqDom s c .low).1⟩
    show execMemoryHoldLowEntry c s = _
    unfold execMemoryHoldLowEntry
    rw [holdDue_of_off hheld hb hr hd, drive_low_of_half_on hc hd hh]
    simp [hc]
  · have hmove := domainsMove_requestLow (s.bight b).place.memberClusters s
    have hbight : ∀ j, (requestLow (s.bight b).place.memberClusters s).bight j = s.bight j := fun j => by
      rw [State.bight, hmove.1.bights]; rfl
    refine ⟨(requestLow (s.bight b).place.memberClusters s).modBight b fun y => { y with idleLow := true }, ?_, ?_,
      fun c hc => domain_requestLow_other hc s, fun c hc hnodup => requested_requestLow hnodup hc s, hmove.1.with_bights _,
      fun j hj => ?_⟩
    · show execIdleLow b s = _
      unfold execIdleLow
      dsimp only
      rw [if_pos]
      · rfl
      · simp [State.selfPolicy, hpolicy, hok, hlashed, htime, hidle, hruns, hlaunch, hdue]
    · rw [State.modBight, State.bight_setBight_self, hbight]
    · rw [State.modBight, State.bight_setBight, if_neg hj, hbight]
  · refine ⟨s.reqDom (544 + st) .low, ?_, requested_reqDom s _ .low, fun j => domain_reqDom_other s .low,
      (domainsMove_reqDom s _ .low).1⟩
    show execSelfPolicyHbmLow st s = _
    unfold execSelfPolicyHbmLow
    dsimp only
    rw [if_pos]
    · rfl
    · simp [State.selfPolicy, State.domOn, State.domIs, domStack, hst, hpolicy, hon, hidle, hidle', hwaited, hfree]

end

namespace Sys2Proof.Claims
open Sys2Proof.Machine

/-! ### Refused lashes stay refused (R274, R320) -/

/-- No bight is lashing that was not, and no circuit is new: what refusing lashes and cancelling relashes does at most. -/
def NoNewLash (s t : State) : Prop :=
  (∀ c ∈ t.mesh.circuits, c ∈ s.mesh.circuits) ∧ ∀ b, (t.bight b).state = .lashing → (s.bight b).state = .lashing

/-- Bight `b` is lashing, with a circuit to a channel group of the stack. -/
def LashNeedsStack (s : State) (st b : Nat) : Prop :=
  (s.bight b).state = .lashing ∧ ∃ c ∈ s.mesh.circuits, c.owner = b ∧ c.kind = 0 ∧ stackOfGroup c.target = st

section
variable {s t u : State}

theorem NoNewLash.refl (s : State) : NoNewLash s s := ⟨fun _ h => h, fun _ h => h⟩

theorem NoNewLash.trans (h : NoNewLash s t) (h' : NoNewLash t u) : NoNewLash s u :=
  ⟨fun c hc => h.1 c (h'.1 c hc), fun b hb => h.2 b (h'.2 b hb)⟩

theorem NoNewLash.of_same (hc : t.mesh.circuits = s.mesh.circuits) (hb : t.bights.tab = s.bights.tab) : NoNewLash s t :=
  ⟨fun _ h => hc ▸ h, fun b h => by unfold State.bight at *; rwa [hb] at h⟩

theorem NoNewLash.foldl {f : State → Nat → State} (hf : ∀ s a, NoNewLash s (f s a)) (l : List Nat) (s : State) :
    NoNewLash s (l.foldl f s) := by
  induction l generalizing s with
  | nil => exact .refl s
  | cons a l ih => exact (hf s a).trans (ih _)

/-- A bight may be changed to one that lashes only if it lashes now. -/
theorem noNewLash_setBight (s : State) {b : Nat} {x : Bight} (h : x.state = .lashing → (s.bight b).state = .lashing) :
    NoNewLash s (s.setBight b x) := by
  refine ⟨fun _ h => h, fun j hj => ?_⟩
  rw [State.bight_setBight] at hj
  split at hj
  · next hjb => exact hjb ▸ h hj
  · exact hj

theorem DomainsMove.noNewLash (h : DomainsMove s t) : NoNewLash s t :=
  .of_same (by rw [h.1.frame]) (by rw [h.1.bights])

theorem LashNeedsStack.of_noNewLash {st b : Nat} (h : NoNewLash s t) (ht : LashNeedsStack t st b) : LashNeedsStack s st b := by
  obtain ⟨hlash, c, hc, hneeds⟩ := ht
  exact ⟨h.2 b hlash, c, h.1 c hc, hneeds⟩

/-! ### What undoing a lash and cancelling a relash leave -/

theorem noNewLash_freeRouters (s : State) (rs : List Nat) : NoNewLash s (s.freeRouters rs) := by
  unfold State.freeRouters
  refine .foldl (fun s r => ?_) rs s
  exact .of_same rfl rfl

theorem noNewLash_dropCircuits (s : State) (b : Nat) (inactiveOnly : Bool) : NoNewLash s (s.dropCircuits b inactiveOnly) :=
  ⟨fun _ h => List.mem_of_mem_filter h, fun _ h => h⟩

theorem noNewLash_scaleFloors (s : State) (g : Nat) : NoNewLash s (s.scaleFloors g) := by
  unfold State.scaleFloors
  dsimp only
  split_ifs <;> exact .of_same rfl rfl

theorem noNewLash_dropMaster (s : State) (m : Nat) (groups : List Nat) : NoNewLash s (s.dropMaster m groups) :=
  .foldl (fun s g => NoNewLash.trans (t := s.modGroup g _) (.of_same rfl rfl) (noNewLash_scaleFloors _ g)) groups s

theorem noNewLash_settleCluster (s : State) (c : Nat) : NoNewLash s (s.settleCluster c) := by
  unfold State.settleCluster
  dsimp only
  split_ifs
  · exact (domainsMove_reqDom s c .off).noNewLash
  · exact (domainsMove_reqDom s c .low).noNewLash
  · exact (((domainsMove_reqDom s c .off).trans (domainsMove_drive _ _ .on)).trans (domainsMove_drive _ _ .on)).noNewLash

theorem noNewLash_reportLash (s : State) (b kind result : Nat) : NoNewLash s (s.reportLash b kind result) := by
  unfold State.reportLash State.moduleEvent State.cause State.irq
  dsimp only
  split_ifs <;> exact .of_same rfl rfl

/-- A bight that becomes free does not lash. -/
theorem noNewLash_freeBight (s : State) (b : Nat) : NoNewLash s (s.freeBight b) ∧ ((s.freeBight b).bight b).state ≠ .lashing := by
  unfold State.freeBight
  dsimp only
  generalize hs' : ({ s with energy := _, power := _, mesh := _, host := _, security := _ } : State) = s'
  have hsame : NoNewLash s s' := by rw [← hs']; exact .of_same rfl rfl
  have hdrop := noNewLash_dropMaster (s'.setBight b {}) b (bitsOf (s.bight b).place.groups)
  refine ⟨(hsame.trans (noNewLash_setBight s' (fun h => absurd h (by decide)))).trans hdrop, fun h => ?_⟩
  have := hdrop.2 b h
  rw [State.bight_setBight_self] at this
  cases this

theorem noNewLash_undoLash (s : State) (b result : Nat) :
    NoNewLash s (s.undoLash b result) ∧ ((s.undoLash b result).bight b).state ≠ .lashing := by
  unfold State.undoLash
  dsimp only
  have hdrop := (noNewLash_freeRouters s (s.bight b).place.routers).trans (noNewLash_dropCircuits _ b false)
  generalize (s.freeRouters _).dropCircuits b false = s' at *
  obtain ⟨hfree, hnot⟩ := noNewLash_freeBight s' b
  have hrest := (NoNewLash.foldl (f := fun s c => (s.clearCluster c).settleCluster c)
    (fun s c => NoNewLash.trans (t := s.clearCluster c) (.of_same rfl rfl) (noNewLash_settleCluster _ c))
    (s.bight b).place.memberClusters (s'.freeBight b)).trans (noNewLash_reportLash _ b 1 result)
  exact ⟨(hdrop.trans hfree).trans hrest, fun h => hnot (hrest.2 b h)⟩

theorem noNewLash_lanCarry (s : State) (ty dest src : Nat) (payload : List Flit) :
    NoNewLash s (s.lanCarry ty dest src payload) := by
  unfold State.lanCarry
  split <;> exact .of_same rfl rfl

theorem noNewLash_register (s : State) (b : Nat) (e : RegEntry) : NoNewLash s (s.register b e) := by
  have hcreg : ∀ s' : State, NoNewLash s' (s'.modBight b fun x => { x with creg := x.creg ++ [e] }) := fun s' =>
    noNewLash_setBight s' (by exact fun h => h)
  unfold State.register
  refine NoNewLash.trans ?_ (hcreg _)
  cases e with
  | commit q seq => exact noNewLash_lanCarry ..
  | kill q seq code detail rerun =>
    dsimp only
    split <;> exact noNewLash_lanCarry ..

theorem noNewLash_failCmd (s : State) (q seq code : Nat) : NoNewLash s (s.failCmd q seq code) := by
  unfold State.failCmd State.requestKill
  split
  · exact .refl s
  · split
    · exact .refl s
    · split
      · exact noNewLash_register s _ _
      · exact .refl s

theorem noNewLash_cancelRelash (s : State) (b result code : Nat) : NoNewLash s (s.cancelRelash b result code) := by
  unfold State.cancelRelash
  dsimp only
  split
  · split
    · refine NoNewLash.trans (noNewLash_setBight s ?_) (noNewLash_failCmd _ _ _ _)
      exact fun h => h
    · exact .refl s
  · exact .refl s

/-! ### A stack that has failed -/

/-- What the failure of a stack does to one bight. -/
def refuseAt (st : Nat) (s : State) (b : Nat) : State :=
  match (s.bight b).driving with
  | some pl =>
    if !(s.needs b pl).contains (domStack st) then s
    else if (s.bight b).state = .lashing then s.undoLash b lashResource
    else s.cancelRelash b lashResource codeRelashRefused
  | none => s

theorem refuseFailed_eq (s : State) (st : Nat) : s.refuseFailed st = (Tab.keys s.bights.tab).foldl (refuseAt st) s := rfl

theorem noNewLash_refuseAt (st : Nat) (s : State) (b : Nat) : NoNewLash s (refuseAt st s b) := by
  unfold refuseAt
  split
  · split_ifs
    · exact .refl s
    · exact (noNewLash_undoLash s b _).1
    · exact noNewLash_cancelRelash s b _ _
  · exact .refl s

theorem LashNeedsStack.mem_needs {st b : Nat} (h : LashNeedsStack s st b) (pl : Place) : domStack st ∈ s.needs b pl := by
  obtain ⟨-, c, hc, rfl, hkind, rfl⟩ := h
  unfold State.needs
  simp only [List.mem_append, List.mem_map, List.mem_dedup, List.mem_filterMap, List.mem_filter]
  exact .inl (.inl (.inr ⟨_, ⟨c, ⟨hc, by simp⟩, by rw [if_pos hkind]⟩, rfl⟩))

/-- A lash that needs the stack is undone. -/
theorem not_lashNeedsStack_refuseAt (st : Nat) (s : State) (b : Nat) : ¬ LashNeedsStack (refuseAt st s b) st b := by
  intro h
  have hs := h.of_noNewLash (noNewLash_refuseAt st s b)
  have hdriving : (s.bight b).driving = some (s.bight b).place := by unfold Bight.driving; rw [hs.1]
  have hstep : refuseAt st s b = s.undoLash b lashResource := by
    unfold refuseAt
    rw [hdriving]
    simp [hs.mem_needs, hs.1]
  rw [hstep] at h
  exact (noNewLash_undoLash s b lashResource).2 h.1

theorem find?_of_not_mem_keys {α : Type} {t : Tab α} {k : Nat} (h : k ∉ Tab.keys t) : Tab.find? t k = none := by
  induction t with
  | nil => rfl
  | cons e t ih =>
    obtain ⟨j, v⟩ := e
    rw [Tab.keys, List.map_cons, List.mem_cons, not_or] at h
    rw [Tab.find?, if_neg (Ne.symm h.1)]
    exact ih h.2

theorem mem_keys_of_lashing {b : Nat} (h : (s.bight b).state = .lashing) : b ∈ Tab.keys s.bights.tab := by
  by_contra hb
  rw [State.bight, Tab.look, find?_of_not_mem_keys hb] at h
  exact absurd h (by decide)

/-- Once the stack's failure has been dealt with, no bight lashes that needs it. -/
theorem not_lashNeedsStack_refuseFailed (s : State) (st b : Nat) : ¬ LashNeedsStack (s.refuseFailed st) st b := by
  intro h
  rw [refuseFailed_eq] at h
  have hs := h.of_noNewLash (.foldl (noNewLash_refuseAt st) _ s)
  obtain ⟨before, after, hkeys⟩ := List.append_of_mem (mem_keys_of_lashing hs.1)
  rw [hkeys, List.foldl_append, List.foldl_cons] at h
  exact not_lashNeedsStack_refuseAt st _ b (h.of_noNewLash (.foldl (noNewLash_refuseAt st) after _))

/-! ### A stack on its way from OFF to OFF -/

/-- Stack 0 is CHANGING from OFF to OFF, and bight 0 lashes with a circuit to it. -/
def lashingOverIdleStack : State :=
  { domains := [(544, { state := .changing })]
    mesh := { circuits := [{ owner := 0, inactive := false, kind := 0, target := 0, src := 0, srcNum := 0, dst := 0, dstNum := 0
                             out := ⟨[], [], 1⟩, back := ⟨[], [], 1⟩, slotsOut := 1, slotsBack := 1, creditsOut := 8, creditsBack := 8 }] }
    bights := { tab := [(0, { state := .lashing })] } }

theorem lashNeedsStack_domDone : LashNeedsStack (lashingOverIdleStack.domDone 544 false) 0 0 := by
  unfold LashNeedsStack; decide +kernel

/-- The stack that reaches OFF is not recorded as failed, so that nothing is refused. -/
theorem exec_domainTransitionDone_idleStack :
    exec (.domainTransitionDone 544 false) lashingOverIdleStack = .next (lashingOverIdleStack.domDone 544 false) := by
  have hfailed : (lashingOverIdleStack.domDone 544 false).hbm.failed.getLsbD 0 = false := by decide +kernel
  show Host.Outcome.next (if (lashingOverIdleStack.domDone 544 false).hbm.failed.getLsbD 0 && _ then _ else _) = _
  rw [hfailed]
  rfl

end

end Sys2Proof.Claims

section
open Sys2Proof Sys2Proof.Machine Sys2Proof.Claims

/-- Refutes O27: where the target of the transition is OFF as its origin is, a stack whose training is reported as failed reaches OFF
without a record of a failure, so the lashes that need it are not refused; the statement refuses them, and after a refusal none is
left.
No request starts a transition from OFF to OFF (R35, `Domain.start`), but the statement is about every state. -/
theorem not_domainTransitionsEnd : ¬ Obligations.DomainTransitionsEnd := by
  intro h
  obtain ⟨u, t, hfailed, -⟩ := (h.1 lashingOverIdleStack 544 false).2 rfl
  have hexec := hfailed ⟨rfl, rfl, by decide⟩ rfl
  rw [exec_domainTransitionDone_idleStack] at hexec
  have hlash := lashNeedsStack_domDone
  rw [Host.Outcome.next.inj hexec] at hlash
  exact not_lashNeedsStack_refuseFailed _ 0 0 hlash

end

namespace Sys2Proof.Machine

/-! ### What a frame boundary leaves of the frame's clock (R49 to R55) -/

section
variable {α β γ : Type}

/-- A fold of steps that each leave a view of the state alone leaves it alone. -/
theorem view_foldl (view : β → γ) {f : β → α → β} (hf : ∀ s a, view (f s a) = view s) (l : List α) (s : β) :
    view (l.foldl f s) = view s := by
  induction l generalizing s with
  | nil => rfl
  | cons a l ih => exact (ih _).trans (hf s a)

end

theorem State.frame_irq (s : State) (n v : Nat) : (s.irq n v).frame = s.frame := by
  unfold State.irq State.modFn
  dsimp only
  split_ifs <;> rfl

theorem State.frame_moduleEvent (s : State) : s.moduleEvent.frame = s.frame := State.frame_irq _ 0 0

theorem State.frame_activity (s : State) (u : Meter) (k : Activity) (n : Nat) (p : Payer) :
    (s.activity u k n p).frame = s.frame := by rw [State.activity_frame]

theorem State.frame_modPort (s : State) (n : Nat) (f : Port → Port) : (s.modPort n f).frame = s.frame := rfl

theorem State.frame_packBytes (s : State) (n : Nat) (b : Bytes) : (s.packBytes n b).frame = s.frame :=
  view_foldl State.frame (fun _ _ => by rfl) _ s

theorem State.frame_countPacket (s : State) (n : Nat) : (s.countPacket n).frame = s.frame := by
  unfold State.countPacket
  dsimp only
  split
  · rfl
  · split
    · exact State.frame_moduleEvent _
    · rfl

theorem State.frame_emitPacket (s : State) (n : Nat) (pk : Packet) : (s.emitPacket n pk).frame = s.frame := by
  unfold State.emitPacket
  dsimp only
  split
  · rfl
  · split
    · rw [State.frame_modPort, State.frame_activity, State.frame_countPacket]
    · rw [State.frame_packBytes, State.frame_activity, State.frame_countPacket]

theorem State.frame_pumpVc {s t : State} {n v : Nat} (h : s.pumpVc n v = some t) : t.frame = s.frame := by
  unfold State.pumpVc at h
  dsimp only at h
  split at h
  · cases h
  · split at h
    · cases h
      rw [State.frame_emitPacket, State.setPort_frame]
    · cases h

theorem State.frame_pump (fuel : Nat) (s : State) (n : Nat) : (State.pump fuel s n).frame = s.frame := by
  induction fuel generalizing s with
  | zero => rfl
  | succ fuel ih =>
    unfold State.pump
    split
    · next h =>
      obtain ⟨v, -, h⟩ := List.exists_of_findSome?_eq_some h
      exact (ih _).trans (State.frame_pumpVc h)
    · rfl

theorem State.frame_sendPacket (s : State) (n : Nat) (h : Header) (d : Bytes) (pay : Option (Nat × Nat × Nat)) :
    (s.sendPacket n h d pay).frame = s.frame := State.frame_pump _ _ n

theorem State.frame_pacePackets (s : State) (i : Nat) (x : PaceGroup) (rate : Nat) : (s.pacePackets i x rate).frame = s.frame := by
  refine view_foldl State.frame (fun s m => ?_) _ s
  dsimp only
  split
  · split
    · exact State.frame_sendPacket ..
    · rfl
  · rfl

theorem State.frame_paceSend (s : State) (i : Nat) : (s.paceSend i).frame = s.frame := by
  unfold State.paceSend
  dsimp only
  split
  · rfl
  · split_ifs
    · rfl
    · exact State.frame_pacePackets ..
    · rfl
    · exact State.frame_pacePackets ..
    · rfl

theorem State.frame_paceBoundary (s : State) : s.paceBoundary.frame = s.frame :=
  (view_foldl State.frame State.frame_paceSend _ _).trans (view_foldl State.frame (fun _ _ => by rfl) _ s)

theorem State.frame_retune (s : State) : s.retune.frame = s.frame := by
  unfold State.retune
  split <;> rfl

theorem State.frame_reqDom (s : State) (i : Nat) (x : DomState) : (s.reqDom i x).frame = s.frame := by
  unfold State.reqDom
  rw [Claims.moveDom_frame]

theorem State.frame_wakeMembers (s : State) (b : Nat) : (s.wakeMembers b).frame = s.frame := by
  unfold State.wakeMembers
  dsimp only
  split
  · exact view_foldl State.frame (fun s c => s.frame_reqDom c .on) _ s
  · rfl

theorem State.frame_effectiveGrants (s : State) : s.effectiveGrants.frame = s.frame :=
  view_foldl State.frame (fun _ _ => by rfl) _ _

theorem State.frame_factor (s : State) (measured modelled : Nat) : (s.factor measured modelled).2.frame = s.frame := by
  unfold State.factor
  split_ifs <;> rfl

theorem State.frame_scaleFactors (s : State) (m : Measured) : (s.scaleFactors m).frame = s.frame := by
  unfold State.scaleFactors
  generalize List.range 16 = l
  extract_lets r
  have h : r.1.frame = s.frame :=
    view_foldl (fun r : State × Tab Nat × Nat => r.1.frame) (fun r d => by exact State.frame_factor r.1 _ _) l _
  clear_value r
  obtain ⟨u, t, bits⟩ := r
  dsimp only at h ⊢
  split
  · exact h
  · exact h

/-- The frame but for what only counts dropped debt and holds the policy mode. -/
def Frame.clock (f : Frame) : Frame := { f with droppedDebt := 0, selfPolicy := false, policyNext := [] }

theorem State.frame_modQueue (s : State) (q : Nat) (f : Queue → Queue) : (s.modQueue q f).frame = s.frame := by
  unfold State.modQueue
  split <;> rfl

theorem State.clock_settleBight (s : State) (b length : Nat) : (s.settleBight b length).frame.clock = s.frame.clock := by
  have h : ∀ (l : Tab Queue) (u : State), (l.foldl (fun (s : State) e =>
      s.modQueue e.1 fun q => { q with cmds := q.cmds.map fun c => { c with frameCharged := 0 } }) u).frame = u.frame :=
    view_foldl State.frame fun s e => s.frame_modQueue _ _
  unfold State.settleBight
  extract_lets x
  split
  extract_lets u v
  have hv : v.frame = s.frame := h _ _
  split
  · show Frame.clock { v.frame with droppedDebt := _ } = _
    rw [hv]; rfl
  · rw [hv]

theorem State.clock_settleFrame (s : State) (m : Measured) (length : Nat) : (s.settleFrame m length).frame.clock = s.frame.clock := by
  have h : ∀ (l : List Nat) (u : State), (l.foldl (fun s b => s.settleBight b length) u).frame.clock = u.frame.clock :=
    view_foldl (fun s : State => s.frame.clock) fun s b => s.clock_settleBight b length
  unfold State.settleFrame
  extract_lets
  split
  exact (h _ _).trans (congrArg Frame.clock (s.frame_scaleFactors m))

theorem State.clock_applyWrites (s : State) : s.applyWrites.frame.clock = s.frame.clock := by
  unfold State.applyWrites
  split
  split
  extract_lets _ _ u v
  have hv : v.frame = u.frame := view_foldl State.frame (fun _ _ => by rfl) _ _
  have h : v.frame.clock = s.frame.clock := by rw [hv]; rfl
  split
  · exact h
  · exact (congrArg Frame.clock (view_foldl State.frame (fun s b => s.frame_wakeMembers b) _ _)).trans h

/-- What settling the accounts and the grants of a frame, and its pace notices, leave of the frame. -/
theorem State.clock_settled (s : State) (m : Measured) (length : Nat) :
    ((((s.settleFrame m length).powerFrame.applyWrites).effectiveGrants).paceBoundary.retune).frame.clock = s.frame.clock := by
  rw [State.frame_retune, State.frame_paceBoundary, State.frame_effectiveGrants, State.clock_applyWrites]
  exact s.clock_settleFrame m length

end Sys2Proof.Machine

namespace Sys2Proof.Machine

/-! ### The frame that a boundary begins (R51, R53 to R55) -/

/-- The frame once free-run is entered (R51). -/
def Frame.freed (f : Frame) : Frame :=
  { f with locked := false, freeRun := true, freeEntries := f.freeEntries + 1, earlyNow := false, earlyBefore := false
           edges := [], intervals := [] }

/-- The frame that begins at a boundary, before lock is given up for early edges (R53 to R55). -/
def Frame.opened (f : Frame) (now : Nat) (entry : Bool) : Frame :=
  { f with counter := f.preset.getD (f.counter + 1), preset := none, boundaryAt := now, lastFreeEntry := entry
           earlyBefore := f.earlyNow, earlyNow := false }

/-- The frame that begins at a boundary: lock is given up when this frame and the one before ignored an early edge (R53). -/
def Frame.next (f : Frame) (now : Nat) (entry : Bool) : Frame :=
  if f.earlyNow && f.earlyBefore && f.locked then (f.opened now entry).freed else f.opened now entry

theorem State.frame_enterFreeRun (s : State) : s.enterFreeRun.frame = s.frame.freed := State.frame_moduleEvent _

theorem State.clock_boundary (s : State) (m : Measured) (entry : Bool) :
    (s.boundary m entry).frame.clock = (s.frame.next s.now entry).clock := by
  unfold State.boundary Frame.next
  refine (State.clock_settled _ m _).trans (congrArg Frame.clock ?_)
  dsimp only
  split
  · exact State.frame_enterFreeRun _
  · rfl

section
variable {f g : Frame} (h : g.clock = f.clock)
include h

theorem Frame.counter_of_clock : g.counter = f.counter := congrArg (·.counter) h
theorem Frame.preset_of_clock : g.preset = f.preset := congrArg (·.preset) h
theorem Frame.locked_of_clock : g.locked = f.locked := congrArg (·.locked) h
theorem Frame.freeRun_of_clock : g.freeRun = f.freeRun := congrArg (·.freeRun) h
theorem Frame.freeEntries_of_clock : g.freeEntries = f.freeEntries := congrArg (·.freeEntries) h
theorem Frame.period_of_clock : g.period = f.period := congrArg (·.period) h
theorem Frame.boundaryAt_of_clock : g.boundaryAt = f.boundaryAt := congrArg (·.boundaryAt) h
theorem Frame.lastFreeEntry_of_clock : g.lastFreeEntry = f.lastFreeEntry := congrArg (·.lastFreeEntry) h
theorem Frame.everLocked_of_clock : g.everLocked = f.everLocked := congrArg (·.everLocked) h

end

section
variable (f : Frame) (now : Nat) (entry : Bool)

theorem Frame.next_counts : (f.next now entry).counter = f.preset.getD (f.counter + 1) ∧ (f.next now entry).preset = none := by
  unfold Frame.next
  split <;> exact ⟨rfl, rfl⟩

theorem Frame.next_begins : (f.next now entry).boundaryAt = now ∧ (f.next now entry).period = f.period ∧
    (f.next now entry).lastFreeEntry = entry ∧ (f.next now entry).everLocked = f.everLocked := by
  unfold Frame.next
  split <;> exact ⟨rfl, rfl, rfl, rfl⟩

variable {f}

/-- Lock stays as it is unless two frames in a row ignored an early edge. -/
theorem Frame.next_keeps_lock (h : f.earlyNow = false ∨ f.earlyBefore = false ∨ f.locked = false) :
    f.next now entry = f.opened now entry := by
  unfold Frame.next
  rw [if_neg]
  rcases h with h | h | h <;> simp [h]

theorem Frame.next_leaves_lock (h : f.earlyNow = true) (h' : f.earlyBefore = true) (hl : f.locked = true) :
    f.next now entry = (f.opened now entry).freed := by
  unfold Frame.next
  rw [if_pos (by rw [h, h', hl]; rfl)]

end

/-! ### The three commands that can end a frame (R49 to R52) -/

section
variable {s : State} (m : Measured)

/-- The frame after an accepted edge, which is the newest of the intervals that P is the mean of (R49, R50). -/
def Frame.accepted (f : Frame) (dt : Nat) : Frame :=
  { f with intervals := (dt :: f.intervals).take 4, period := meanOf ((dt :: f.intervals).take 4) }

/-- The frame after the third of three matching edges, with the intervals `i1` and `i2` between them (R52). -/
def Frame.lockedAt (f : Frame) (i1 i2 : Nat) : Frame :=
  { f with locked := true, freeRun := false, everLocked := true, edges := [], intervals := [i1, i2], period := meanOf [i1, i2]
           earlyNow := false, earlyBefore := false }

/-- The frame with the period that the oscillator keeps to (R49, R51). -/
def Frame.paced (f : Frame) : Frame :=
  { f with period := if f.everLocked || f.freeRun then f.period else 1000 * f.nominalUs }

theorem State.framing_of (hg : s.supply.good = true) (hr : s.supply.inReset = false) : s.framing = true := by
  simp [State.framing, hg, hr]

section
variable (hf : s.framing = true)
include hf

theorem exec_frameEdge_locked (hl : s.frame.locked = true) : exec (.frameEdge m) s = .next (s.lockedEdge m) := by
  show execFrameEdge m s = _
  simp only [execFrameEdge, hf, hl, if_true]

theorem exec_frameEdge_unlocked (hl : s.frame.locked = false) : exec (.frameEdge m) s = .next (s.noteEdge.freeEdge m) := by
  show execFrameEdge m s = _
  simp only [execFrameEdge, hf, hl, if_true, Bool.false_eq_true, if_false]

theorem exec_frameEdge_accepted (hl : s.frame.locked = true) (h : 7 * s.frame.period ≤ 8 * (s.now - s.frame.boundaryAt))
    (h' : 2 * (s.now - s.frame.boundaryAt) ≤ 3 * s.frame.period) : exec (.frameEdge m) s = .next
      (State.boundary { s with frame := s.frame.accepted (s.now - s.frame.boundaryAt) } m false) := by
  rw [exec_frameEdge_locked m hf hl]
  unfold State.lockedEdge
  rw [if_neg (by omega), if_pos h']
  rfl

theorem exec_frameEdge_locks {e2 e1 : Nat} {rest : List Nat} (hl : s.frame.locked = false) (he : s.frame.edges = e2 :: e1 :: rest)
    (hm : matching (s.now - e2) (e2 - e1) = true) : exec (.frameEdge m) s = .next
      (State.boundary { s with frame := s.frame.lockedAt (s.now - e2) (e2 - e1) } m false) := by
  have hedges : s.noteEdge.frame.edges = [s.now, e2, e1] := congrArg (fun l => (s.now :: l).take 3) he
  rw [exec_frameEdge_unlocked m hf hl]
  unfold State.freeEdge
  simp only [hedges, hm, if_true]
  rfl

theorem exec_freeRunEntry_locked (hl : s.frame.locked = true) : exec (.freeRunEntry m) s = .next (s.enterFreeRun.boundary m true) := by
  show execFreeRunEntry m s = _
  simp only [execFreeRunEntry, hf, hl, Bool.and_self, if_true]

theorem exec_oscillatorBoundary_unlocked (hl : s.frame.locked = false) : exec (.oscillatorBoundary m) s = .next
    (State.boundary { s with frame := s.frame.paced } m false) := by
  show execOscillatorBoundary m s = _
  simp only [execOscillatorBoundary, Frame.paced, hf, hl, Bool.not_false, Bool.and_self, if_true]

end
end

end Sys2Proof.Machine

namespace Sys2Proof.Claims
open Sys2Proof.Machine

/-- A command that ends in a boundary counts it, or takes the preset (R54, R55). -/
theorem counted_of_boundary {c : Instr} {s u : State} {m : Measured} {entry : Bool} (h : exec c s = .next (u.boundary m entry))
    (hp : u.frame.preset = s.frame.preset) (hc : u.frame.counter = s.frame.counter) :
    Gives c s fun t => t.frame.counter = s.frame.preset.getD (s.frame.counter + 1) ∧ t.frame.preset = none := by
  have hb := u.clock_boundary m entry
  obtain ⟨hcount, hpre⟩ := u.frame.next_counts u.now entry
  refine ⟨_, h, (Frame.counter_of_clock hb).trans ?_, (Frame.preset_of_clock hb).trans hpre⟩
  rw [hcount, hp, hc]

theorem putPreset_small {v : BitVec 64} (h : v.toNat < 2 ^ 48) (s : State) :
    putPreset v s = (0x00, { s with frame := { s.frame with preset := some (v.setWidth 48) } }) := if_pos h

theorem putPreset_large {v : BitVec 64} (h : 2 ^ 48 ≤ v.toNat) (s : State) : putPreset v s = (0x05, s) := if_neg (by omega)

end Sys2Proof.Claims

section
open Sys2Proof Sys2Proof.Machine Sys2Proof.Claims

/-- Settles O29: each of the four ways to a boundary is one `State.boundary`, which counts or takes the preset. -/
theorem frameCounterCountsBoundaries : Obligations.FrameCounterCountsBoundaries := by
  refine ⟨rfl, fun s m hg hr => ?_, rfl, fun s via v hserves => ⟨fun h => ?_, fun h => ?_⟩⟩
  · have hf := State.framing_of hg hr
    refine ⟨fun hl h h' => ?_, fun e2 e1 rest hl he hm => ?_, fun hl => ?_, fun hl => ?_⟩
    · exact counted_of_boundary (exec_frameEdge_accepted m hf hl h h') rfl rfl
    · exact counted_of_boundary (exec_frameEdge_locks m hf hl he hm) rfl rfl
    · refine counted_of_boundary (exec_freeRunEntry_locked m hf hl) ?_ ?_ <;> rw [State.frame_enterFreeRun] <;> rfl
    · exact counted_of_boundary (exec_oscillatorBoundary_unlocked m hf hl) rfl rfl
  · exact answers_of_objWrite hserves rfl (putPreset_small h s)
  · exact answers_of_objWrite hserves rfl (putPreset_large h s)

end

namespace Sys2Proof.Claims
open Sys2Proof.Machine

section
variable {s : State} (m : Measured)

/-- An edge that is not the third of three matching ones is remembered, and nothing more (R52). -/
theorem freeEdge_noteEdge_of_unmatched
    (h : ∀ e2 e1 rest, s.frame.edges = e2 :: e1 :: rest → matching (s.now - e2) (e2 - e1) = false) :
    s.noteEdge.freeEdge m = s.noteEdge := by
  have hedges : s.noteEdge.frame.edges = (s.now :: s.frame.edges).take 3 := rfl
  unfold State.freeEdge
  split
  · next t3 t2 t1 ht =>
    rw [hedges] at ht
    cases he : s.frame.edges with
    | nil => simp [he] at ht
    | cons e2 l =>
      cases l with
      | nil => simp [he] at ht
      | cons e1 rest =>
        simp only [he, List.take_succ_cons, List.take_zero, List.cons.injEq, and_true] at ht
        obtain ⟨rfl, rfl, rfl⟩ := ht
        exact if_neg (by rw [h _ _ _ he]; decide)
  · rfl

/-- In a module that keeps no frames, and in the other state of lock, the commands that end a frame have no effect (R49 to R51). -/
theorem exec_frameEdge_off (hf : s.framing = false) : exec (.frameEdge m) s = .next s := by
  show execFrameEdge m s = _
  simp only [execFrameEdge, hf, Bool.false_eq_true, if_false]

theorem exec_freeRunEntry_idle (h : s.framing = false ∨ s.frame.locked = false) : exec (.freeRunEntry m) s = .next s := by
  show execFreeRunEntry m s = _
  rcases h with h | h <;> simp [execFreeRunEntry, h]

theorem exec_oscillatorBoundary_idle (h : s.framing = false ∨ s.frame.locked = true) :
    exec (.oscillatorBoundary m) s = .next s := by
  show execOscillatorBoundary m s = _
  rcases h with h | h <;> simp [execOscillatorBoundary, h]

variable {m}

/-- What a command that ends in a boundary gives: the frame that begins, but for dropped debt and the policy mode. -/
theorem gives_of_boundary {c : Instr} {u : State} {f : Frame} {entry : Bool} {Q : State → Prop}
    (h : exec c s = .next (u.boundary m entry)) (hf : u.frame = f) (hnow : u.now = s.now)
    (hQ : ∀ t : State, t.frame.clock = (f.next s.now entry).clock → Q t) : Gives c s Q :=
  ⟨_, h, hQ _ (by rw [u.clock_boundary m entry, hf, hnow])⟩

/-- The boundary of an accepted edge (R49, R50, R53). -/
theorem gives_frameEdge_accepted (hf : s.framing = true) (hl : s.frame.locked = true)
    (h : 7 * s.frame.period ≤ 8 * (s.now - s.frame.boundaryAt)) (h' : 2 * (s.now - s.frame.boundaryAt) ≤ 3 * s.frame.period) :
    Gives (.frameEdge m) s fun t =>
      let last := ((s.now - s.frame.boundaryAt) :: s.frame.intervals).take 4
      t.frame.boundaryAt = s.now ∧ t.frame.period = last.sum / last.length ∧ t.frame.lastFreeEntry = false ∧
      (s.frame.earlyNow = true → s.frame.earlyBefore = true →
        t.frame.locked = false ∧ t.frame.freeRun = true ∧ t.frame.freeEntries = s.frame.freeEntries + 1) ∧
      (s.frame.earlyNow = false ∨ s.frame.earlyBefore = false →
        t.frame.locked = true ∧ t.frame.freeRun = s.frame.freeRun ∧ t.frame.freeEntries = s.frame.freeEntries) := by
  refine gives_of_boundary (f := s.frame.accepted _) (exec_frameEdge_accepted m hf hl h h') rfl rfl fun t ht => ?_
  obtain ⟨hat, hperiod, hentry, -⟩ := (s.frame.accepted (s.now - s.frame.boundaryAt)).next_begins s.now false
  refine ⟨(Frame.boundaryAt_of_clock ht).trans hat, (Frame.period_of_clock ht).trans hperiod,
    (Frame.lastFreeEntry_of_clock ht).trans hentry, fun hnow hbefore => ?_, fun hcalm => ?_⟩
  · rw [Frame.next_leaves_lock (f := s.frame.accepted _) _ _ hnow hbefore hl] at ht
    exact ⟨(Frame.locked_of_clock ht :), (Frame.freeRun_of_clock ht :), (Frame.freeEntries_of_clock ht :)⟩
  · rw [Frame.next_keeps_lock (f := s.frame.accepted _) _ _ (hcalm.imp_right .inl)] at ht
    exact ⟨(Frame.locked_of_clock ht).trans hl, (Frame.freeRun_of_clock ht :), (Frame.freeEntries_of_clock ht :)⟩

/-- The boundary of the third of three matching edges (R52). -/
theorem gives_frameEdge_locks {e2 e1 : Nat} {rest : List Nat} (hf : s.framing = true) (hl : s.frame.locked = false)
    (he : s.frame.edges = e2 :: e1 :: rest) (hm : matching (s.now - e2) (e2 - e1) = true) :
    Gives (.frameEdge m) s fun t => t.frame.locked = true ∧ t.frame.freeRun = false ∧ t.frame.everLocked = true ∧
      t.frame.boundaryAt = s.now ∧ t.frame.period = ((s.now - e2) + (e2 - e1)) / 2 ∧
      t.frame.freeEntries = s.frame.freeEntries := by
  refine gives_of_boundary (f := s.frame.lockedAt _ _) (exec_frameEdge_locks m hf hl he hm) rfl rfl fun t ht => ?_
  rw [Frame.next_keeps_lock (f := s.frame.lockedAt _ _) _ _ (.inl rfl)] at ht
  exact ⟨(Frame.locked_of_clock ht :), (Frame.freeRun_of_clock ht :), (Frame.everLocked_of_clock ht :), (Frame.boundaryAt_of_clock ht :),
    (Frame.period_of_clock ht :), (Frame.freeEntries_of_clock ht :)⟩

/-- The boundary of an entry to free-run (R51). -/
theorem gives_freeRunEntry (hf : s.framing = true) (hl : s.frame.locked = true) : Gives (.freeRunEntry m) s fun t =>
    (t.frame.locked = false ∧ t.frame.freeRun = true ∧ t.frame.freeEntries = s.frame.freeEntries + 1) ∧
      t.frame.boundaryAt = s.now ∧ t.frame.period = s.frame.period ∧ t.frame.lastFreeEntry = true := by
  refine gives_of_boundary (exec_freeRunEntry_locked m hf hl) s.frame_enterFreeRun (Keeps.enterFreeRun (.refl s)).now fun t ht => ?_
  rw [Frame.next_keeps_lock (f := s.frame.freed) _ _ (.inl rfl)] at ht
  exact ⟨⟨(Frame.locked_of_clock ht :), (Frame.freeRun_of_clock ht :), (Frame.freeEntries_of_clock ht :)⟩, (Frame.boundaryAt_of_clock ht :),
    (Frame.period_of_clock ht :), (Frame.lastFreeEntry_of_clock ht :)⟩

/-- A boundary that the oscillator places (R49, R51). -/
theorem gives_oscillatorBoundary (hf : s.framing = true) (hl : s.frame.locked = false) : Gives (.oscillatorBoundary m) s fun t =>
    t.frame.boundaryAt = s.now ∧ t.frame.locked = false ∧ t.frame.freeRun = s.frame.freeRun ∧
      t.frame.freeEntries = s.frame.freeEntries ∧
      t.frame.period = if s.frame.everLocked = true ∨ s.frame.freeRun = true then s.frame.period else 1000 * s.frame.nominalUs := by
  refine gives_of_boundary (f := s.frame.paced) (exec_oscillatorBoundary_unlocked m hf hl) rfl rfl fun t ht => ?_
  rw [Frame.next_keeps_lock (f := s.frame.paced) _ _ (.inr (.inr hl))] at ht
  refine ⟨(Frame.boundaryAt_of_clock ht :), (Frame.locked_of_clock ht).trans hl, (Frame.freeRun_of_clock ht :),
    (Frame.freeEntries_of_clock ht :), ?_⟩
  simp only [(Frame.period_of_clock ht :), Frame.opened, Frame.paced, Bool.or_eq_true]

end

end Sys2Proof.Claims

section
open Sys2Proof Sys2Proof.Machine Sys2Proof.Claims

/-- Settles O30: an edge is early, too late or accepted while locked, and the third of three matching ones or not while it is not;
each boundary is one `State.boundary` on the frame that the command leaves. -/
theorem edgesLockAndFreeRun : Obligations.EdgesLockAndFreeRun := by
  refine ⟨fun s m hg hr => ?_, fun s m hoff => ?_, fun s via v hserves => ⟨fun h => ?_, fun h => ?_⟩⟩
  · have hf := State.framing_of hg hr
    refine ⟨fun hl h => ?_, fun hl h h' => ?_, fun hl h h' => gives_frameEdge_accepted hf hl h h', fun hl hu => ?_,
      fun e2 e1 rest hl he hm => gives_frameEdge_locks hf hl he hm, fun hl => gives_freeRunEntry hf hl,
      fun hl => exec_freeRunEntry_idle m (.inr hl), fun hl => gives_oscillatorBoundary hf hl,
      fun hl => exec_oscillatorBoundary_idle m (.inr hl)⟩
    · rw [exec_frameEdge_locked m hf hl]
      exact congrArg _ (if_pos h)
    · rw [exec_frameEdge_locked m hf hl]
      exact congrArg _ ((if_neg (by omega)).trans (if_neg (by omega)))
    · rw [exec_frameEdge_unlocked m hf hl, freeEdge_noteEdge_of_unmatched m hu]
      rfl
  · have hf : s.framing = false := by
      rcases hoff with h | h <;> simp [State.framing, h]
    exact ⟨exec_frameEdge_off m hf, exec_freeRunEntry_idle m (.inl hf), exec_oscillatorBoundary_idle m (.inl hf)⟩
  · exact answers_of_objWrite hserves rfl (if_pos h)
  · exact answers_of_objWrite hserves rfl (if_neg h)

end

namespace Sys2Proof.Claims
open Sys2Proof.Machine

/-! ### What is written bounds what the module may use (R59, R60, R79, R264, R550, R553) -/

section
variable {s : State}

theorem isLashed_eq_true {b : Nat} : s.isLashed b = true ↔ b ∈ s.lashedBights := List.contains_iff_mem

theorem putBightGrant_lashed {b : Nat} (v : BitVec 32) (h : b ∈ s.lashedBights) :
    putBightGrant b v s =
      (0x00, s.modBight b fun x => { x with grantNext := x.grantNext ++ [(grantOf v, some s.now)] }) :=
  if_pos (isLashed_eq_true.mpr h)

theorem putBightGrant_refused {b : Nat} (v : BitVec 32) (h : b ∉ s.lashedBights) : putBightGrant b v s = (0x06, s) :=
  if_neg (mt isLashed_eq_true.mp h)

theorem putCap_none (s : State) : putCap 0xFFFFFFFF s = (0x00, { s with power := { s.power with cap := none } }) := if_pos rfl

/-- The largest cap that may be written is far below the value that stands for no cap. -/
theorem putCap_inRange {v : BitVec 32} (h : 1500 ≤ v.toNat) (h' : v.toNat ≤ 13500) (s : State) :
    putCap v s = (0x00, { s with power := { s.power with cap := some v.toNat } }) := by
  have hv : v ≠ 0xFFFFFFFF := by
    rintro rfl
    exact absurd h' (by decide)
  exact (if_neg hv).trans (if_pos ⟨h, h'⟩)

theorem putCap_outside {v : BitVec 32} (hv : v ≠ 0xFFFFFFFF) (h : v.toNat < 1500 ∨ 13500 < v.toNat) (s : State) :
    putCap v s = (0x05, s) := (if_neg hv).trans (if_neg (by omega))

end

end Sys2Proof.Claims

section
open Sys2Proof Sys2Proof.Machine Sys2Proof.Claims

/-- Settles O31: each write is one served write of an object, whose own rules are cases of its range. -/
theorem writtenLimitsAreHeld : Obligations.WrittenLimitsAreHeld := by
  intro s via
  refine ⟨fun hserves => ⟨fun v => ?_, fun v => ⟨fun h => ?_, fun h => ?_, fun h => ?_, fun h => ?_⟩⟩,
    fun hserves b v => ⟨fun hb hl hw => ?_, fun hb hn => ?_, fun hb => ?_⟩⟩
  · refine ⟨answers_of_objWrite hserves rfl rfl, fun b hb hl => ?_, fun b hb hl => ?_, fun b hb => ?_, fun hv => ?_,
      fun h h' => ?_, fun hv h => ?_⟩
    · exact ⟨_, answers_of_objWrite hserves rfl ((if_pos hb).trans (putBightGrant_lashed v hl)), State.bight_setBight_self ..,
        fun j hj => (State.bight_setBight ..).trans (if_neg hj), rfl⟩
    · exact answers_of_objWrite hserves rfl ((if_pos hb).trans (putBightGrant_refused v hl))
    · exact answers_of_objWrite hserves rfl (if_neg (Nat.not_lt.mpr hb))
    · subst hv
      exact answers_of_objWrite hserves rfl (putCap_none s)
    · exact answers_of_objWrite hserves rfl (putCap_inRange h h' s)
    · exact answers_of_objWrite hserves rfl (putCap_outside hv h s)
  · exact answers_of_objWrite hserves rfl (if_pos h)
  · exact answers_of_objWrite hserves rfl (if_neg (Nat.not_le.mpr h))
  · exact answers_of_objWrite hserves rfl (if_neg (Nat.not_lt.mpr h))
  · exact answers_of_objWrite hserves rfl (if_pos h)
  · exact answers_of_objWrite hserves rfl ((if_pos hb).trans (if_pos ⟨hl, hw⟩))
  · exact answers_of_objWrite hserves rfl ((if_pos hb).trans (if_neg hn))
  · exact answers_of_objWrite hserves rfl (if_neg (Nat.not_lt.mpr hb))

end

namespace Sys2Proof.Claims
open Sys2Proof.Machine

/-! ### Resets (R637 to R641, R671) -/

section
variable {s : State}

theorem supplyMet_iff : s.supplyMet = true ↔ s.supply.inReset = true ∧ 200 ≤ s.supply.goodCount := by
  simp [State.supplyMet]

theorem supplyMet_eq_false (h : s.supply.inReset = false ∨ s.supply.goodCount < 200) : s.supplyMet = false := by
  rw [Bool.eq_false_iff, Ne, supplyMet_iff]
  rcases h with h | h
  · simp [h]
  · omega

theorem putReset_word (s : State) : putReset 0x4E475253 s = (0x00, s.resetFor 5) := if_pos rfl

theorem putReset_other {v : BitVec 32} (h : v ≠ 0x4E475253) (s : State) : putReset v s = (0x06, s) := if_neg h

theorem exec_supplyGood_met {nonce : Bytes} (h : s.supply.inReset = true) (h' : 200 ≤ s.supply.goodCount)
    (hl : s.supply.resetInLow = false) : exec (.supplyGood nonce) s = .next (s.deassert nonce) := by
  show execSupplyGood nonce s = _
  simp [execSupplyGood, supplyMet_iff.mpr ⟨h, h'⟩, hl]

theorem exec_supplyGood_unmet {nonce : Bytes}
    (h : s.supply.inReset = false ∨ s.supply.goodCount < 200 ∨ s.supply.resetInLow = true) :
    exec (.supplyGood nonce) s = .next s := by
  show execSupplyGood nonce s = _
  rcases or_assoc.mpr h with h | h
  · simp [execSupplyGood, supplyMet_eq_false h]
  · simp [execSupplyGood, h]

theorem exec_watchdog_running (h : s.supply.inReset = false) : exec .watchdog s = .next (s.resetFor 4) := by
  show execWatchdog s = _
  simp [execWatchdog, h]

theorem exec_watchdog_inReset (h : s.supply.inReset = true) : exec .watchdog s = .next s := by
  show execWatchdog s = _
  simp [execWatchdog, h]

theorem exec_resetInRelease_high (h : s.supply.resetInLow = false) : exec .resetInRelease s = .next s := by
  show execResetInRelease s = _
  simp [execResetInRelease, h]

/-- The state once RESET_IN# is high again (R671). -/
def resetInHigh (s : State) : State := { s with supply := { s.supply with resetInLow := false } }

theorem exec_resetInRelease_low (h : s.supply.resetInLow = true) : exec .resetInRelease s = .next
    (if (resetInHigh s).supplyMet then (resetInHigh s).freeBytes.2.deassert (resetInHigh s).freeBytes.1 else resetInHigh s) := by
  show execResetInRelease s = _
  simp only [execResetInRelease, h, Bool.not_true, Bool.false_eq_true, if_false]
  rfl

/-- Reset deasserts with these three domains ON and the others as they were (R30, R640). -/
theorem domain_deassert (s : State) (nonce : Bytes) (d : Nat) :
    (s.deassert nonce).domain d = if d = 624 ∨ d = 627 ∨ d = 640 then { state := .on } else s.domain d := by
  show Tab.look {} (Tab.set (Tab.set (Tab.set s.domains 624 { state := .on }) 627 { state := .on }) 640 { state := .on }) d = _
  unfold State.domain Tab.look
  split
  · next h => rcases h with rfl | rfl | rfl <;> simp [Tab.find?_set]
  · next h =>
    simp only [not_or] at h
    simp [Tab.find?_set, h]

end

end Sys2Proof.Claims

section
open Sys2Proof Sys2Proof.Machine Sys2Proof.Claims

/-- Settles O35: each cause of a reset is `State.resetFor`, and each way out of it `State.deassert`. -/
theorem resetsLoseEverythingButTheFuses : Obligations.ResetsLoseEverythingButTheFuses := by
  refine ⟨⟨rfl, rfl, rfl, rfl, rfl, rfl, rfl, rfl, rfl, rfl, rfl, rfl, rfl, fun _ => ⟨rfl, rfl⟩, fun _ => rfl⟩, fun s => ?_⟩
  refine ⟨rfl, rfl, rfl, exec_watchdog_running, exec_watchdog_inReset, fun via v hserves => ⟨fun hv => ?_, fun hv => ?_⟩,
    fun nonce h h' hl => ⟨_, exec_supplyGood_met h h' hl, ⟨?_, rfl, domain_deassert s nonce, rfl, rfl⟩, rfl⟩,
    fun nonce => exec_supplyGood_unmet, fun hl h h' => ?_, fun hl h => ?_, exec_resetInRelease_high⟩
  · subst hv
    exact answers_of_objWrite hserves rfl (putReset_word s)
  · exact answers_of_objWrite hserves rfl (putReset_other hv s)
  · show ({ s.supply with good := true, inReset := false } : Supply) = _
    rw [← hl]
  · have hmet : (resetInHigh s).supplyMet = true := supplyMet_iff.mpr ⟨h, h'⟩
    refine ⟨_, exec_resetInRelease_low hl, ?_⟩
    rw [if_pos hmet]
    exact ⟨_, rfl, rfl, domain_deassert _ _, rfl, rfl⟩
  · rw [exec_resetInRelease_low hl, if_neg (by rw [supplyMet_eq_false (s := resetInHigh s) h]; decide)]
    rfl

end

namespace Sys2Proof.Claims
open Sys2Proof.Machine

/-! ### A load that waits behind a far load, in a module whose bights are listed out of order -/

/-- The place of cluster 0 alone. -/
def cornerPlace : Place := { w := 1, h := 1 }

/-- Cluster 0 belongs to bight 7, which is being released and is listed before bight 5, which is lashed over it and pays for it; they
have run for 1 and for 2 bight cycles. Core 0 has a far load out, and 1 in register 2. -/
def loadingOutOfOrder : State :=
  { domains := [(0, { state := .on })]
    cores := [(0, { run := .running, s := [(2, 1)]
                    far := [{ req := some 0, store := false, va := 0, len := 8, data := [], dest := .scalar 9 true, pc := 0 }] })]
    bights := { tab := [(7, { state := .releasing, place := cornerPlace, ran := 1 }),
                        (5, { state := .lashed, place := cornerPlace, ran := 2 })] } }

/-- The issue rule's view of a load from [s2] to s1. -/
def loadInsn : Insn := { unit := unitLsu, reads := [sName 2], writes := [sName 1] }

def firstIssue : Issue := { core := 0, second := false }

/-- Core 0's stall in the state that a command answers. -/
def stallAfter (o : Out) : Option (Stall × Nat) :=
  match o with
  | .next t => (t.core 0).stall
  | _ => none

theorem issues_loadingOutOfOrder : Issues loadingOutOfOrder firstIssue loadInsn := by
  decide +kernel

theorem stallStart_loadingOutOfOrder : stallStart loadingOutOfOrder 0 = 1 := by decide +kernel

theorem stallAfter_loadingOutOfOrder :
    stallAfter (exec (.ld firstIssue .d 1 2 0) loadingOutOfOrder) = some (.operand unitLsu, 2) := by
  decide +kernel

theorem loadsOut_loadingOutOfOrder : (loadingOutOfOrder.core 0).loadsOut = true := by decide

/-- The load of 8 bytes at address 1 is misaligned. -/
theorem badAddress_loadingOutOfOrder :
    BadAddress 0 ((loadingOutOfOrder.core 0).reg 2 + BitVec.ofInt 64 ((0 : BitVec 14).toInt * (sizeBytes .d : Nat)))
      (sizeBytes .d) (Size.d = .d) 0x02 := ⟨rfl, by decide⟩

end Sys2Proof.Claims

section
open Sys2Proof Sys2Proof.Machine Sys2Proof.Claims

/-- Refutes O14: what the fetch of an instruction reads is charged to the paying bight, and where the bights are not listed in the
order of their numbers, the charge moves that bight's entry before another's that holds the same cluster. A misaligned load that
waits behind a far load then notes the cycle of the wrong bight as the one in which its stall began: cycle 2 of bight 5, where the
statement takes the cycle of the cluster's bight before the fetch, cycle 1 of bight 7.
A table that commands write keeps its keys rising (`Tab.wf_put`), but the statement is about every state. -/
theorem not_ownClusterLoads : ¬ Obligations.OwnClusterLoads := by
  intro h
  obtain ⟨-, -, -, -, -, hbad, -⟩ := h loadingOutOfOrder firstIssue .d .b 1 2 1 0 0 0
  obtain ⟨hld, -⟩ := hbad issues_loadingOutOfOrder
  obtain ⟨t, hexec, -, hstalls⟩ := hld 0x02 badAddress_loadingOutOfOrder (.inl rfl)
  obtain ⟨hcore, -⟩ := hstalls loadsOut_loadingOutOfOrder
  have hafter := stallAfter_loadingOutOfOrder
  rw [hexec] at hafter
  have hstall : (t.core 0).stall = some (.operand unitLsu, stallStart loadingOutOfOrder 0) := congrArg (·.stall) hcore
  rw [stallStart_loadingOutOfOrder] at hstall
  exact absurd (hstall.symm.trans hafter) (by decide)

end

namespace Sys2Proof.Machine

/-! ### A nanosecond in which nothing runs and nothing waits (R48, R204, R554, R632) -/

section
variable {α β : Type}

/-- A fold of steps that all leave the start alone ends there. -/
theorem foldl_still {f : β → α → β} {s : β} {l : List α} (h : ∀ a ∈ l, f s a = s) : l.foldl f s = s := by
  induction l with
  | nil => rfl
  | cons a l ih =>
    rw [List.foldl_cons, h a (List.mem_cons_self ..)]
    exact ih fun b hb => h b (List.mem_cons_of_mem _ hb)

end

/-- No bight runs its schedule, no domain is out of OFF, the transit plane is at rest, nothing waits at a gate or to be taken, no
port's flit is part filled, and the rollback fuse stands at the floor in READY. -/
structure Quiet (s : State) : Prop where
  bights : ∀ b, b ∈ Tab.keys s.bights.tab → (s.bight b).runs = false
  live : s.liveDomains = []
  transit : s.mesh.transit = []
  ratio : s.mesh.ratioNext = []
  lash : s.bights.lashWaiting = []
  arm : s.handoff.armWaiting = []
  aperture : s.host.apertureWaiting = []
  record : s.host.recordWaiting = []
  reg : s.host.regWaiting = []
  packing : ∀ n ∈ Tab.keys s.fabric.ports, (s.port n).packing = []
  rollback : s.isReady = true → s.boot.floor ≤ s.fuses.rollback

section
variable {s : State}

theorem Tab.mem_of_find? {α : Type} {t : Tab α} {k : Nat} {v : α} (h : Tab.find? t k = some v) : (k, v) ∈ t := by
  induction t with
  | nil => cases h
  | cons e t ih =>
    obtain ⟨j, w⟩ := e
    rw [Tab.find?] at h
    split at h
    · next hj =>
      cases h
      rw [hj]
      exact List.mem_cons_self ..
    · exact List.mem_cons_of_mem _ (ih h)

/-- Where no domain is listed as out of OFF, every domain is OFF. -/
theorem State.dom_of_liveDomains_nil (h : s.liveDomains = []) (i : Nat) : s.dom i = .off := by
  unfold State.dom State.domain Tab.look
  cases hf : Tab.find? s.domains i with
  | none => rfl
  | some d =>
    unfold State.liveDomains at h
    rw [List.filterMap_eq_nil_iff] at h
    have hoff := h _ (Tab.mem_of_find? hf)
    split at hoff
    · next hd => exact hd
    · cases hoff

theorem State.transitTau_of_off (h : s.liveDomains = []) (half t : Nat) : s.transitTau half t = none := by
  unfold State.transitTau State.domIs
  rw [State.dom_of_liveDomains_nil h]
  rfl

theorem State.transitCheck_of_off (h : s.liveDomains = []) (t r : Nat) : s.transitCheck t r = s := by
  unfold State.transitCheck
  rw [State.transitTau_of_off h]

theorem State.sendSlot_of_off (h : s.liveDomains = []) (t : Nat) (c : Circuit) (back : Bool) : s.sendSlot t c back = s := by
  have hopen : ∀ l, s.slotOpen l 0 t = false := fun l => by
    unfold State.slotOpen
    dsimp only
    rw [State.transitTau_of_off h]
  unfold State.sendSlot
  simp only [hopen, Bool.not_false, Bool.or_true, Bool.true_or, if_true]

/-- With nothing on its way and no half-die ON, a transit cycle changes nothing. -/
theorem State.transitCycle_of_quiet (h : Quiet s) (t : Nat) : s.transitCycle t = s := by
  have hkept : ({ s with mesh := { s.mesh with transit := [] } } : State) = s := by rw [← h.transit]
  unfold State.transitCycle
  rw [h.transit]
  simp only [List.foldl_nil, hkept]
  refine foldl_still fun c _ => ?_
  split
  · rfl
  · rw [State.sendSlot_of_off h.live, State.sendSlot_of_off h.live]

theorem State.ratiosDue_of_quiet (h : Quiet s) : s.ratiosDue = s := by
  have hnext : ({ s with mesh := { s.mesh with ratioNext := [] } } : State) = s := by rw [← h.ratio]
  unfold State.ratiosDue
  rw [h.ratio]
  exact hnext

theorem State.tickTransit_of_quiet (h : Quiet s) (before after : Nat) : s.tickTransit before after = s := by
  have hcycles : ∀ i ∈ List.range (after - before), ((Tab.keys s.mesh.routers).foldl (fun (s : State) r =>
      s.transitCheck (before + 1 + i) r) s).transitCycle (before + 1 + i) = s := fun i _ => by
    rw [foldl_still fun r _ => State.transitCheck_of_off h.live _ r, State.transitCycle_of_quiet h]
  unfold State.tickTransit
  exact (congrArg State.ratiosDue (foldl_still hcycles)).trans (State.ratiosDue_of_quiet h)

theorem State.tickRollback_of_quiet (h : Quiet s) : s.tickRollback = s := by
  unfold State.tickRollback
  refine if_neg fun hr => ?_
  simp only [Bool.and_eq_true, decide_eq_true_eq] at hr
  exact absurd (h.rollback hr.1.1) (by omega)

theorem State.tickBight_of_rest {b : Nat} (h : (s.bight b).runs = false) (before after : Nat) : s.tickBight before after b = s := by
  refine foldl_still fun i _ => ?_
  rw [h]
  rfl

theorem State.noteBusy_of_rest {b : Nat} (h : (s.bight b).runs = false) : s.noteBusy b = s := by
  unfold State.noteBusy
  rw [h]
  rfl

theorem State.resumeHeld_of_quiet (h : Quiet s) : s.resumeHeld = s := by
  have hsame : ({ s with
      bights := { s.bights with lashWaiting := [] }, handoff := { s.handoff with armWaiting := [] }
      host := { s.host with apertureWaiting := [], recordWaiting := [], regWaiting := [] } } : State) = s := by
    have hbights : ({ s.bights with lashWaiting := [] } : Bights) = s.bights := by rw [← h.lash]
    have hhandoff : ({ s.handoff with armWaiting := [] } : Handoff) = s.handoff := by rw [← h.arm]
    have hhost : ({ s.host with apertureWaiting := [], recordWaiting := [], regWaiting := [] } : HostIf) = s.host := by
      rw [← h.aperture, ← h.record, ← h.reg]
    rw [hbights, hhandoff, hhost]
  unfold State.resumeHeld
  rw [h.lash, h.arm, h.aperture, h.record, h.reg]
  exact hsame

theorem State.flushPorts_of_quiet (h : Quiet s) : s.flushPorts = s := by
  refine foldl_still fun n hn => ?_
  unfold State.flushFlit
  dsimp only
  rw [h.packing n hn]
  rfl

end

/-! ### What such a nanosecond does -/

/-- The dies' stress after one nanosecond (R554). -/
def State.wornStress (s : State) : Tab Nat :=
  if s.isReady then (List.range 16).foldl (fun (t : Tab Nat) d => addAt t d (s.stressRate d)) s.power.stress else s.power.stress

/-- The state with one nanosecond passed on the clocks and on the dies, and nothing else of it done. -/
def State.worn (s : State) : State :=
  { s with now := s.now + 1, mesh := { s.mesh with tau0 := s.mesh.tau0 + s.power.baseMhz }
           power := { s.power with stress := s.wornStress } }

theorem State.tickWear_eq (s : State) : s.tickWear = { s with power := { s.power with stress := s.wornStress } } := by
  unfold State.tickWear State.wornStress
  split <;> rfl

theorem State.liveDomains_worn (s : State) : s.worn.liveDomains = s.liveDomains := rfl

theorem Quiet.worn {s : State} (h : Quiet s) : Quiet s.worn :=
  ⟨h.bights, h.live, h.transit, h.ratio, h.lash, h.arm, h.aperture, h.record, h.reg, h.packing, h.rollback⟩

/-- The clocks one nanosecond on, and nothing else. -/
def State.clocked (s : State) : State :=
  { s with now := s.now + 1, mesh := { s.mesh with tau0 := s.mesh.tau0 + s.power.baseMhz } }

theorem State.tickWear_clocked (s : State) : s.clocked.tickWear = s.worn := s.clocked.tickWear_eq

/-- In a module where nothing runs and nothing waits, a nanosecond moves the clocks on and wears the dies, and every millisecond takes
the Modbus registers of that pace. -/
theorem tick_of_quiet {s : State} (h : Quiet s) : tick s = s.worn.takeModbus := by
  have hw := h.worn
  have hlive : s.clocked.liveDomains = [] := h.live
  have hbights : (Tab.keys s.worn.bights.tab).foldl (fun (u : State) b =>
      (u.tickBight s.baseCycle u.baseCycle b).noteBusy b) s.worn = s.worn := by
    refine foldl_still fun b hb => ?_
    rw [State.tickBight_of_rest (hw.bights b hb), State.noteBusy_of_rest (hw.bights b hb)]
  unfold tick
  extract_lets before _ clocked counted worn
  have hcounted : counted = s.clocked := congrArg (List.foldl _ s.clocked) hlive
  have hworn : worn = s.worn := by
    show counted.tickWear.tickRollback.tickTransit before counted.baseCycle = _
    rw [hcounted, State.tickWear_clocked, State.tickRollback_of_quiet hw, State.tickTransit_of_quiet hw]
  rw [hworn, hbights, State.resumeHeld_of_quiet hw, State.flushPorts_of_quiet hw]

end Sys2Proof.Machine

namespace Sys2Proof.Machine

/-! ### The stress of one nanosecond (R554) -/

theorem look_foldl_addAt (r : Nat → Nat) {l : List Nat} (hl : l.Nodup) (t : Tab Nat) (d : Nat) :
    Tab.look 0 (l.foldl (fun t d => addAt t d (r d)) t) d = Tab.look 0 t d + if d ∈ l then r d else 0 := by
  induction l generalizing t with
  | nil => rfl
  | cons a l ih =>
    obtain ⟨ha, hl⟩ := List.nodup_cons.mp hl
    rw [List.foldl_cons, ih hl, addAt, Tab.look_put]
    by_cases hd : d = a
    · subst hd
      simp [ha]
    · simp [hd]

theorem State.look_wornStress {s : State} (h : s.isReady = true) {d : Nat} (hd : d < 16) :
    Tab.look 0 s.wornStress d = Tab.look 0 s.power.stress d + s.stressRate d := by
  unfold State.wornStress
  rw [if_pos h, look_foldl_addAt s.stressRate List.nodup_range, if_pos (List.mem_range.mpr hd)]

theorem State.wornStress_of_not_ready {s : State} (h : s.isReady = false) : s.wornStress = s.power.stress := by
  unfold State.wornStress
  rw [h]
  rfl

/-! ### The Modbus registers that are taken every millisecond (R632, log 146) -/

/-- The figures of those registers after a nanosecond has passed. -/
def State.snapNow (s : State) : Tab Nat :=
  if s.isReady && s.now % 1000000 == 0 then modbusOften.map fun a => (a, (s.modbusNow a).getD 0) else s.dict.modbusSnap

theorem State.takeModbus_eq (s : State) : s.takeModbus = { s with dict := { s.dict with modbusSnap := s.snapNow } } := by
  unfold State.takeModbus State.snapNow
  split <;> rfl

theorem State.snapNow_of_kept {s : State} (h : s.isReady = false ∨ s.now % 1000000 ≠ 0) : s.snapNow = s.dict.modbusSnap := by
  unfold State.snapNow
  rcases h with h | h <;> simp [h]

theorem State.snapNow_of_due {s : State} (h : s.isReady = true) (h' : s.now % 1000000 = 0) :
    s.snapNow = modbusOften.map fun a => (a, (s.modbusNow a).getD 0) := by
  unfold State.snapNow
  simp [h, h']

theorem Tab.find?_map_of_mem {α : Type} (f : Nat → α) {l : List Nat} {a : Nat} (h : a ∈ l) :
    Tab.find? (l.map fun a => (a, f a)) a = some (f a) := by
  induction l with
  | nil => cases h
  | cons b l ih =>
    rw [List.map_cons, Tab.find?]
    split
    · next hb => rw [hb]
    · next hb => exact ih ((List.mem_cons.mp h).resolve_left fun e => hb e.symm)

/-- The map gives every register of that pace. -/
theorem State.modbusNow_isSome (s : State) {a : Nat} (h : a ∈ modbusOften) : (s.modbusNow a).isSome = true := by
  have hmap : ∀ a ∈ modbusOften, a = 29 ∨
      (a < 1000 ∧ (modbusMap.find? fun e => decide (e.1 ≤ a) && decide (a < e.1 + e.2.1)).isSome = true) := by decide
  unfold State.modbusNow
  rcases hmap a h with ha | ⟨ha, hfound⟩
  · rw [if_pos ha]
    rfl
  · split
    · rfl
    · rw [if_neg (by omega), if_neg (by omega)]
      split
      · rfl
      · next hnone => rw [hnone] at hfound; cases hfound

/-- No object holds what was taken, so that a register reads at this moment as it would without it. -/
theorem State.modbusNow_modbusSnap (s : State) (snap : Tab Nat) (a : Nat) :
    ({ s with dict := { s.dict with modbusSnap := snap } } : State).modbusNow a = s.modbusNow a := by
  rfl

theorem State.modbusReg_takeModbus {s : State} (h : s.isReady = true) (h' : s.now % 1000000 = 0) {a : Nat} (ha : a ∈ modbusOften) :
    s.takeModbus.modbusReg a = s.takeModbus.modbusNow a := by
  have hnow : s.takeModbus.modbusNow a = s.modbusNow a := by
    rw [State.takeModbus_eq, State.modbusNow_modbusSnap]
  obtain ⟨v, hv⟩ := Option.isSome_iff_exists.mp (s.modbusNow_isSome ha)
  have hfound : Tab.find? s.takeModbus.dict.modbusSnap a = some v := by
    rw [State.takeModbus_eq, State.snapNow_of_due h h', Tab.find?_map_of_mem _ ha, hv]
    rfl
  unfold State.modbusReg
  rw [if_pos (List.contains_iff_mem.mpr ha), hfound, hnow, hv]
  rfl

/-! ### The step on an empty queue -/

theorem step_of_idle {s : State} (h : s.pending = []) : step s = .next (tick s) := by
  unfold step
  rw [h]

end Sys2Proof.Machine

section
open Sys2Proof Sys2Proof.Machine Sys2Proof.Claims

/-- Settles O2: the passing of time keeps what every operation keeps, and where nothing runs and nothing waits it is `State.worn` and
the Modbus registers. -/
theorem idleStepIsOneTick : Obligations.IdleStepIsOneTick := by
  intro s hpending
  have hstep := step_of_idle hpending
  refine ⟨?_, fun hbights hlive htransit _ hratio _ hlash harm haperture hrecord hreg hpacking hrollback => ?_⟩
  · obtain ⟨hqueue, hnow, hmem, -, hsent⟩ := Keeps.tick (s := s)
    exact ⟨tick s, hstep, hnow, hqueue.trans hpending, hmem, hsent⟩
  · have htick := tick_of_quiet ⟨hbights, hlive, htransit, hratio, hlash, harm, haperture, hrecord, hreg, hpacking, hrollback⟩
    rw [htick] at hstep
    refine ⟨_, hstep, ?_, fun hr => ?_, fun hr d hd => ?_, fun hn => ?_, 
      fun hr hn a ha => State.modbusReg_takeModbus (s := s.worn) hr hn ha⟩
    · rw [State.takeModbus_eq]
      rfl
    · rw [State.takeModbus_eq, State.snapNow_of_kept (s := s.worn) (.inl hr)]
      exact ⟨congrArg (fun x => ({ s.power with stress := x } : Power)) (State.wornStress_of_not_ready hr), rfl⟩
    · rw [State.takeModbus_eq]
      exact State.look_wornStress hr hd
    · rw [State.takeModbus_eq, State.snapNow_of_kept (s := s.worn) (.inr hn)]
      rfl

end

namespace Sys2Proof.Machine

/-! ### What a write of physical memory leaves of the cores (R293, R297, R323) -/

theorem State.core_of_cores {s t : State} (h : t.cores = s.cores) (k : Nat) : t.core k = s.core k := by
  unfold State.core
  rw [h]

theorem State.cores_readSram (s : State) (agent : Nat) (rmw : Bool) (wa : Nat) : (s.readSram agent rmw wa).2.cores = s.cores := by
  obtain ⟨a, b, h⟩ := s.readSram_frame agent rmw wa
  rw [h]

theorem State.cores_writeSram (s : State) (wa : Nat) (w : Word) : (s.writeSram wa w).cores = s.cores := by
  unfold State.writeSram
  split
  · rfl
  · extract_lets c bank key backs u v masks taken
    have hv : v.cores = s.cores := by
      show u.cores = _
      unfold u
      split <;> rfl
    have htaken : taken.cores = s.cores := by
      unfold taken
      split <;> exact hv
    clear_value v taken
    split
    · exact hv
    · exact htaken

theorem State.cores_writeSramPart (s : State) (agent wa o : Nat) (d : Bytes) :
    (s.writeSramPart agent wa o d).2.cores = s.cores := by
  have hread := s.cores_readSram agent true wa
  unfold State.writeSramPart
  split
  · rfl
  · split
    · exact s.cores_writeSram _ _
    · split
      · next h => rw [h] at hread; exact (State.cores_writeSram _ _ _).trans hread
      · next h => rw [h] at hread; exact hread

theorem State.cores_writeSramBytes (agent fuel : Nat) (s : State) (a : Nat) (d : Bytes) :
    (s.writeSramBytes agent fuel a d).2.cores = s.cores := by
  induction fuel generalizing s a d with
  | zero => rfl
  | succ fuel ih =>
    unfold State.writeSramBytes
    split
    · rfl
    · exact (ih _ _ _).trans (s.cores_writeSramPart ..)

theorem State.cores_hbmCorrected (s : State) (agent cw n : Nat) : (s.hbmCorrected agent cw n).cores = s.cores := by
  unfold State.hbmCorrected
  extract_lets
  split <;> rfl

theorem State.cores_readCw (s : State) (agent : Nat) (rmw : Bool) (cw : Nat) : (s.readCw agent rmw cw).2.cores = s.cores := by
  unfold State.readCw
  split
  · rfl
  · rfl
  · extract_lets _ u
    have hu : u.cores = s.cores := s.cores_hbmCorrected ..
    dsimp only
    split
    · exact hu
    · exact hu

theorem State.cores_writeCwPart (s : State) (agent : Nat) (key : Option (Nat × Bool)) (cw o : Nat) (d : Bytes) :
    (s.writeCwPart agent key cw o d).2.cores = s.cores := by
  have hread := s.cores_readCw agent true cw
  unfold State.writeCwPart
  split
  · rfl
  · split
    · next h => rw [h] at hread; exact hread
    · next h => rw [h] at hread; exact hread

theorem State.cores_writeHbmBytes (agent : Nat) (key : Option (Nat × Bool)) (fuel : Nat) (s : State) (a : Nat) (d : Bytes) :
    (s.writeHbmBytes agent key fuel a d).2.cores = s.cores := by
  induction fuel generalizing s a d with
  | zero => rfl
  | succ fuel ih =>
    unfold State.writeHbmBytes
    split
    · rfl
    · exact (ih _ _ _).trans (s.cores_writeCwPart ..)

theorem State.cores_activity (s : State) (u : Meter) (k : Activity) (n : Nat) (p : Payer) :
    (s.activity u k n p).cores = s.cores := by rw [State.activity_frame]

theorem State.cores_physWrite (s : State) (agent : Nat) (key : Option (Nat × Bool)) (p : Payer) (a : Nat) (d : Bytes) :
    (s.physWrite agent key p a d).2.cores = s.cores := by
  unfold State.physWrite
  split
  · rfl
  · split
    · exact (State.cores_writeSramBytes ..).trans (s.cores_activity ..)
    · exact State.cores_writeHbmBytes ..

theorem State.core_physWrite (s : State) (agent : Nat) (key : Option (Nat × Bool)) (p : Payer) (a : Nat) (d : Bytes) (j : Nat) :
    (s.physWrite agent key p a d).2.core j = s.core j :=
  State.core_of_cores (s.cores_physWrite ..) j

theorem State.now_physWrite (s : State) (agent : Nat) (key : Option (Nat × Bool)) (p : Payer) (a : Nat) (d : Bytes) :
    (s.physWrite agent key p a d).2.now = s.now := (Keeps.physWrite (Keeps.refl s)).keeps.now

/-! ### The start of a RUN's cores (R88, R459) -/

theorem State.core_modCmd (s : State) (q m : Nat) (f : Cmd → Cmd) (j : Nat) : (s.modCmd q m f).core j = s.core j := by
  unfold State.modCmd State.modQueue
  split <;> rfl

theorem State.bight_modCmd (s : State) (q m : Nat) (f : Cmd → Cmd) (b : Nat) : (s.modCmd q m f).bight b = s.bight b := by
  unfold State.modCmd State.modQueue
  split <;> rfl

/-- One core's start: its argument block is written and its registers are set. -/
def State.startCore (p : Place) (pay : Payer) (entry : Nat) (args : Bytes) (s : State) (k : Nat) : State :=
  (s.physWrite agentDma none pay (sramAddr (clusterOf k) (coreK k * 0x400000 + 0x3FFFC0)) (slice args 0 64)).2.setCore k
    (coreStart (p.lcore k) (p.w * p.h) entry)

section
variable (p : Place) (pay : Payer) (entry : Nat) (args : Bytes)

theorem State.core_startCore (s : State) (k j : Nat) : (s.startCore p pay entry args k).core j =
    if j = k then coreStart (p.lcore k) (p.w * p.h) entry else s.core j := by
  unfold State.startCore
  rw [State.core_setCore, State.core_physWrite]

theorem State.now_startCore (s : State) (k : Nat) : (s.startCore p pay entry args k).now = s.now := by
  unfold State.startCore
  rw [State.setCore_now, State.now_physWrite]

/-- Every core that is started has the registers a start gives, in whatever order the cores come. -/
theorem State.core_foldl_startCore (l : List Nat) (s : State) (j : Nat) : (l.foldl (State.startCore p pay entry args) s).core j =
    if j ∈ l then coreStart (p.lcore j) (p.w * p.h) entry else s.core j := by
  induction l generalizing s with
  | nil => simp
  | cons k l ih =>
    rw [List.foldl_cons, ih, State.core_startCore]
    by_cases hl : j ∈ l
    · simp [hl]
    · by_cases hk : j = k
      · simp [hk]
      · simp [hl, hk]

end

/-- The cores and the time. -/
def State.coresNow (s : State) : Tab Core × Nat := (s.cores, s.now)

theorem State.coresNow_foldl_setEngine (l : List Nat) (s : State) : (l.foldl (fun s c => s.setEngine c {}) s).coresNow = s.coresNow :=
  view_foldl State.coresNow (fun _ _ => by rfl) l s

theorem State.coresNow_foldl_modRouter (f : Router → Router) (l : List Nat) (s : State) :
    (l.foldl (fun s r => s.modRouter r f) s).coresNow = s.coresNow :=
  view_foldl State.coresNow (fun _ _ => by rfl) l s

theorem State.startCores_spec (s : State) (b q seq entry : Nat) (args : Bytes) :
    let t := s.startCores b q seq entry args
    (t.bight b).resident = some (q, seq, s.now) ∧ (t.bight b).switching = none ∧
      ∀ k ∈ s.bightCores b, t.core k = coreStart ((s.bight b).place.lcore k) ((s.bight b).place.w * (s.bight b).place.h) entry := by
  have hcore := State.core_foldl_startCore (s.bight b).place (.cmd b q seq) entry args (s.bightCores b) s
  have hnow := view_foldl State.now (State.now_startCore (s.bight b).place (.cmd b q seq) entry args) (s.bightCores b) s
  unfold State.startCores
  extract_lets p pay started fresh routed mesh idle t
  have hidle : idle.coresNow = started.coresNow :=
    (State.coresNow_foldl_modRouter _ _ fresh).trans (State.coresNow_foldl_setEngine _ started)
  obtain ⟨hcores, hnow'⟩ := Prod.mk.inj hidle
  have hbight : t.bight b = _ := (State.bight_modCmd ..).trans (State.bight_setBight_self ..)
  refine ⟨?_, ?_, fun k hk => ?_⟩
  · have hstarted : started.now = s.now := hnow
    rw [hbight]
    show some (q, seq, idle.now) = _
    rw [hnow', hstarted]
  · rw [hbight]
  · calc t.core k = idle.core k := State.core_modCmd ..
      _ = started.core k := State.core_of_cores hcores k
      _ = _ := (hcore k).trans (if_pos hk)

end Sys2Proof.Machine

namespace Sys2Proof.Machine

section
variable {s : State} {qn seq : Nat} {q : Queue} {c : Cmd}

/-! ### A command that is changed in its place -/

theorem State.cmd_modCmd_self {f : Cmd → Cmd} (h : s.cmd? qn seq = some c) (hf : ∀ d, (f d).seq = d.seq) :
    (s.modCmd qn seq f).cmd? qn seq = some (f c) := by
  obtain ⟨x, hx, hc⟩ := Option.bind_eq_some_iff.mp h
  unfold State.modCmd State.modQueue State.cmd?
  rw [hx]
  dsimp only
  rw [State.queue_setQueue, if_pos rfl, Option.bind_some]
  unfold Queue.cmd? Queue.modCmd at *
  have hseq : (c.seq == seq) = true := by simpa using List.find?_some hc
  have hkept : ((fun d : Cmd => d.seq == seq) ∘ fun d => if d.seq == seq then f d else d) = fun d => d.seq == seq := by
    funext d
    dsimp only [Function.comp]
    split
    · rw [hf]
    · rfl
  dsimp only
  rw [List.find?_map, hkept, hc, Option.map_some, if_pos hseq]

theorem State.cmd_modBight (b : Nat) (f : Bight → Bight) : (s.modBight b f).cmd? qn seq = s.cmd? qn seq := rfl

/-! ### LAUNCH (R71, R73, R408, R442, R443) -/

theorem launch_of_no_head (answer : HostAns) (h : s.active qn = none) : exec (.launch qn answer) s = .next s := by
  show execLaunch qn answer s = _
  unfold execLaunch
  rw [h]

theorem launch_of_head (answer : HostAns) (h : s.active qn = some (q, c)) : exec (.launch qn answer) s =
    .next (if c.phase = .waiting then s.launchHead qn q c answer else s) := by
  show execLaunch qn answer s = _
  unfold execLaunch
  rw [h]

theorem State.launchHead_of_held (answer : HostAns) (h : (s.bight q.bight).launches = false) :
    s.launchHead qn q c answer = s.forgetSteps := by
  unfold State.launchHead
  dsimp only
  rw [if_pos (by rw [h]; rfl)]

theorem State.launchHead_of_not_permitted (answer : HostAns) (h : (s.bight q.bight).launches = true)
    (hp : (s.bight q.bight).permits q.fn = false) : s.launchHead qn q c answer = s.forgetSteps.notPermitted qn q c := by
  unfold State.launchHead
  dsimp only
  rw [if_neg (by rw [h]; decide), if_pos (by rw [hp]; rfl)]

theorem State.notPermitted_of_not_relash (h : ∀ r, c.payload ≠ .relash r) :
    s.notPermitted qn q c = s.endFetched qn c.seq codeNotPermitted := by
  unfold State.notPermitted
  split
  · next r hr => exact absurd hr (h r)
  · rfl

theorem State.notPermitted_of_relash {r : Bytes} (h : c.payload = .relash r) : s.notPermitted qn q c =
    (s.modBight q.bight fun x => { x with relashResult := lashNotPermitted, relashSeq := x.relashSeq + 1 }).endFetched qn c.seq
      codeRelashRefused := by
  unfold State.notPermitted
  rw [h]

/-- A command with what an empty object list says. -/
def Cmd.unlisted (c : Cmd) : Cmd := { c with writes := [], live := [], saveVa := 0 }

theorem State.readList_of_none (answer : HostAns) (h : c.objlist = 0) :
    s.readList qn q c answer = (.ok { writes := [], live := [], saveVa := 0, saveLen := 0 }, s) := by
  unfold State.readList State.readListAs
  rw [if_pos h]

theorem State.groupConflict_unlisted : s.groupConflict qn c.unlisted = false := Bool.and_false _

theorem State.collectiveBad_of_not_recv (h : c.isRecv = false) : s.collectiveBad c = false := by
  unfold State.collectiveBad
  unfold Cmd.isRecv at h
  split
  · next hp => rw [hp] at h; cases h
  · rfl

theorem State.handoffRole_of_not_recv (h : c.isRecv = false) : s.handoffRole c = .none := by
  unfold State.handoffRole
  unfold Cmd.isRecv at h
  split
  · next hp => rw [hp] at h; cases h
  · rfl

theorem State.startRecv_of_not_recv (h : c.isRecv = false) : s.startRecv qn c .none = s := by
  unfold State.startRecv
  unfold Cmd.isRecv at h
  dsimp only
  split
  · next hp => rw [hp] at h; cases h
  · rfl

/-- A head without an object list that nothing holds goes to its launch. -/
theorem State.launchHead_of_free (answer : HostAns) {pred : Nat} (hl : (s.bight q.bight).launches = true)
    (hp : (s.bight q.bight).permits q.fn = true) (hfirst : c.launched = false) (hlist : c.objlist = 0) (hr : c.isRecv = false)
    (htest : s.forgetSteps.launchTest q.bight c.unlisted = some pred) (hfree : s.forgetSteps.unheld qn c.unlisted = true)
    (hturn : s.forgetSteps.mustYield qn q c.unlisted = false) :
    s.launchHead qn q c answer = s.forgetSteps.doLaunch qn q c.unlisted pred .none := by
  have hr' : c.unlisted.isRecv = false := hr
  have hnone : s.forgetSteps.handoffRole c.unlisted = .none := State.handoffRole_of_not_recv hr'
  have hcoll : s.forgetSteps.collectiveBad c.unlisted = false := State.collectiveBad_of_not_recv hr'
  have hc : c.withList { writes := [], live := [], saveVa := 0, saveLen := 0 } = c.unlisted := rfl
  unfold State.launchHead
  dsimp only
  rw [if_neg (by rw [hl]; decide), if_neg (by rw [hp]; decide), if_neg (by rw [hfirst]; decide), State.readList_of_none answer hlist]
  dsimp only
  rw [hc, State.groupConflict_unlisted, if_neg (by decide), hcoll, if_neg (by decide), htest]
  dsimp only
  rw [if_neg (by rw [hfree]; decide), if_neg (by rw [hturn]; decide), hnone]

theorem State.openObjects_of_nil (h : c.writes = []) : s.openObjects qn c = ([], s) := by
  unfold State.openObjects
  rw [h]
  rfl

/-- A write list that is empty opens nothing: the command's own work begins at once. -/
theorem State.openAndStart_of_nil (h : c.writes = []) : s.openAndStart qn q c = (s.joinRunList qn q c).startKind qn c := by
  unfold State.openAndStart
  rw [State.openObjects_of_nil h]
  rfl

theorem State.wakeBight_of_awake {b : Nat} (hi : (s.bight b).idleLow = false)
    (hon : ∀ k ∈ (s.bight b).place.memberClusters, s.dom k = .on) : s.wakeBight b = (true, s) := by
  have hwake : s.wakeMembers b = s := by
    unfold State.wakeMembers
    dsimp only
    rw [hi]
    rfl
  have hall : ((s.bight b).place.memberClusters.all fun k => s.clusterOn k) = true :=
    List.all_eq_true.mpr fun k hk => beq_iff_eq.mpr (hon k hk)
  unfold State.wakeBight
  dsimp only
  rw [hwake, hall]

/-- What a launch records in a command: it is launched with its prediction and what its object list says. -/
def Cmd.launchedAs (c : Cmd) (pred : Nat) (d : Cmd) : Cmd :=
  { d with launched := true, pred := pred, preCharged := d.charged, failedAt := none, writes := c.writes, live := c.live, saveVa := c.saveVa }

theorem State.doLaunch_of_awake {pred : Nat} (hi : (s.bight q.bight).idleLow = false)
    (hon : ∀ k ∈ (s.bight q.bight).place.memberClusters, s.dom k = .on) (hr : c.isRecv = false) (hw : c.writes = []) :
    s.doLaunch qn q c pred .none = ((s.modCmd qn c.seq (c.launchedAs pred)).joinRunList qn q c).startKind qn c := by
  unfold State.doLaunch
  rw [State.wakeBight_of_awake hi hon]
  dsimp only
  rw [if_neg (by decide), if_neg (by decide), State.startRecv_of_not_recv hr, State.openAndStart_of_nil hw]
  rfl

theorem State.cmd_joinRunList (m : Nat) : (s.joinRunList qn q c).cmd? qn m = s.cmd? qn m := by
  unfold State.joinRunList
  split <;> rfl

theorem State.mem_runList_joinRunList (h : c.isRun = true) :
    (qn, c.seq) ∈ ((s.joinRunList qn q c).bight q.bight).runList := by
  unfold State.joinRunList State.modBight
  rw [if_pos h, State.bight_setBight_self]
  dsimp only
  split
  · next hin => exact List.contains_iff_mem.mp hin
  · exact List.mem_append_right _ (List.mem_singleton.mpr rfl)

/-- A command that launches with nothing to open is launched with its prediction and begins its work, a RUN on the run list. -/
theorem State.doLaunch_spec {pred : Nat} {d : Cmd} (hd : s.cmd? qn c.seq = some d) (hi : (s.bight q.bight).idleLow = false)
    (hon : ∀ k ∈ (s.bight q.bight).place.memberClusters, s.dom k = .on) (hr : c.isRecv = false) (hw : c.writes = []) :
    let t := s.doLaunch qn q c pred .none
    ∃ e, t.cmd? qn c.seq = some e ∧ e.launched = true ∧ e.pred = pred ∧ e.phase = (if c.isRun then .listed else .running) ∧
      e.payload = d.payload ∧ (c.isRun = true → (qn, c.seq) ∈ (t.bight q.bight).runList) := by
  rw [State.doLaunch_of_awake hi hon hr hw]
  have hlaunched : (s.modCmd qn c.seq (c.launchedAs pred)).cmd? qn c.seq = some (c.launchedAs pred d) :=
    State.cmd_modCmd_self hd fun _ => rfl
  refine ⟨_, State.cmd_modCmd_self ((State.cmd_joinRunList c.seq).trans hlaunched) fun _ => rfl, rfl, rfl, rfl, rfl, fun hrun => ?_⟩
  unfold State.startKind
  rw [State.bight_modCmd]
  exact State.mem_runList_joinRunList hrun

/-! ### OPEN_COPY_DONE (R443) -/

section
variable {answer : HostAns}

theorem openCopyDone_of_no_cmd (h : s.cmd? qn seq = none) : exec (.openCopyDone qn seq answer) s = .next s := by
  show execOpenCopyDone qn seq answer s = _
  unfold State.cmd? at h
  unfold execOpenCopyDone
  cases hq : s.queue? qn with
  | none => rfl
  | some q =>
    rw [hq, Option.bind_some] at h
    dsimp only
    rw [h]

/-- What the end of a command's copies makes of it: its own work starts, it waits for another try, or it fails. -/
def State.afterCopies (qn seq : Nat) (c : Cmd) : VEnd HostAns × State → State
  | (.ok _, s) => (s.modCmd qn seq fun d => { d with copies := [] }).startKind qn c
  | (.fault, s) => s
  | (.code k, s) => s.failCmd qn seq k

theorem openCopyDone_of_cmd (hq : s.queue? qn = some q) (hc : q.cmd? seq = some c) : exec (.openCopyDone qn seq answer) s =
    .next (if c.phase ≠ .opening ∨ s.doomed q.bight qn seq = true then s
      else State.afterCopies qn seq c (State.copyEntries (s.whoStream qn q c 0 0) c.copies s.forgetSteps answer)) := by
  show execOpenCopyDone qn seq answer s = _
  unfold execOpenCopyDone
  rw [hq]
  dsimp only
  rw [hc]
  rfl

/-! ### RUN and SLICE_END (R88, R457, R458, R463, R464) -/

theorem run_of_head {entry : Nat} {args : Bytes} (h : s.active qn = some (q, c)) (hp : c.payload = .run entry args) :
    exec (.run qn) s = .next (if c.phase = .listed ∧ (s.bight q.bight).runList.head? = some (qn, c.seq) ∧
        (s.bight q.bight).resident = none ∧ (s.bight q.bight).switching = none ∧ s.power.reef = false ∧
        (s.bight q.bight).mayRun = true ∧ s.doomed q.bight qn c.seq = false then
      if c.saved then s.modBight q.bight fun y => { y with switching := some (none, (qn, c.seq), s.now) }
      else s.startCores q.bight qn c.seq entry args
    else s) := by
  show execRun qn s = _
  unfold execRun
  rw [h]
  dsimp only
  rw [hp]

theorem sliceEnd_of_resident {b : Nat} {head : Nat × Nat} {m n t : Nat} (hres : (s.bight b).resident = some (m, n, t))
    (hhead : (s.bight b).runList.head? = some head) (hcmd : s.residentCmd b = some (m, q, c)) :
    exec (.sliceEnd b) s = .next (if (s.bight b).slice ≠ 0 ∧ t + 1000 * (s.bight b).slice ≤ s.now ∧ s.power.reef = false ∧
        (s.bight b).switching = none ∧
        c.phase = .running ∧ s.doomed b m n = false then
      if c.direct then s.holdWait m n
      else (s.requestKill m n 0 0 true).modBight b fun y => { y with
        runList := y.runList ++ [(m, n)], preempts := y.preempts + 1, switching := some (some (m, n), head, s.now) }
    else s) := by
  show execSliceEnd b s = _
  unfold execSliceEnd
  dsimp only
  rw [hres, hhead, hcmd]

/-! ### SWITCH_DONE (R459 to R461) -/

/-- What the end of a switch's save makes of it: the incoming RUN is restored, the save is tried again, or the outgoing one fails. -/
def State.afterSave (b oq seq t : Nat) (i : Nat × Nat) : VEnd HostAns × State → State
  | (.ok ans, s) =>
    (((s.modCmd oq seq fun d => { d with saved := true }).modBight b fun y => { y with
      switching := some (none, i, t) }).forgetSteps).switchIn b i t ans
  | (.fault, s) => s
  | (.code k, s) => s.failAlways oq seq k

theorem switchDone_of_none {b : Nat} (h : (s.bight b).switching = none ∨ (s.bight b).resident ≠ none ∨ (s.bight b).mayRun = false) :
    exec (.switchDone b answer) s = .next s := by
  show execSwitchDone b answer s = _
  unfold execSwitchDone
  dsimp only
  split
  · next hsw hres =>
    have hmay : (s.bight b).mayRun = false := by
      rcases h with h | h | h
      · rw [h] at hsw; cases hsw
      · exact absurd hres h
      · exact h
    rw [if_pos (by rw [hmay]; rfl)]
  · rfl

section
variable {b t : Nat} {o : Option (Nat × Nat)} {i : Nat × Nat}

theorem switchDone_of_incoming (hsw : (s.bight b).switching = some (o, i, t)) (hres : (s.bight b).resident = none)
    (hmay : (s.bight b).mayRun = true) (ho : s.outgoing o = none) :
    exec (.switchDone b answer) s = .next (s.forgetSteps.switchIn b i t answer) := by
  have ho' : s.forgetSteps.outgoing o = none := ho
  show execSwitchDone b answer s = _
  unfold execSwitchDone
  dsimp only
  rw [hsw, hres]
  dsimp only
  rw [if_neg (by rw [hmay]; decide), ho']

theorem switchDone_of_outgoing {oq : Nat} (hsw : (s.bight b).switching = some (o, i, t)) (hres : (s.bight b).resident = none)
    (hmay : (s.bight b).mayRun = true) (ho : s.outgoing o = some (oq, q, c)) :
    exec (.switchDone b answer) s = .next (State.afterSave b oq c.seq t i (s.forgetSteps.moveLive oq q c true answer)) := by
  have ho' : s.forgetSteps.outgoing o = some (oq, q, c) := ho
  show execSwitchDone b answer s = _
  unfold execSwitchDone
  dsimp only
  rw [hsw, hres]
  dsimp only
  rw [if_neg (by rw [hmay]; decide), ho']
  rfl

end

end

/-! ### MOVE, SEND_COMMAND and RECV_COMMAND (R412, R494, R496) -/

theorem transfers_of_no_work (h : s.working qn = none) :
    exec (.move qn) s = .next s ∧ exec (.sendCommand qn) s = .next s ∧ exec (.recvCommand qn) s = .next s := by
  show execMove qn s = _ ∧ execSendCommand qn s = _ ∧ execRecvCommand qn s = _
  unfold execMove execSendCommand execRecvCommand
  rw [h]
  exact ⟨rfl, rfl, rfl⟩

theorem move_of_work {src dst len lambda : Nat} (h : s.working qn = some (q, c)) (hp : c.payload = .move src dst len lambda) :
    exec (.move qn) s = .next (if c.begun then s.stepTransfer qn q c false
      else s.beginTransfer qn q c lambda (cutTransfer src dst len)) := by
  show execMove qn s = _
  unfold execMove
  rw [h]
  dsimp only
  rw [hp]

theorem sendCommand_of_work {src len mode nDst pkt lambda dst} (h : s.working qn = some (q, c))
    (hp : c.payload = .send src len mode nDst pkt lambda dst) :
    exec (.sendCommand qn) s = .next (if c.begun then s.stepTransfer qn q c (pkt == 1)
      else s.beginTransfer qn q c lambda (sendParts src len mode nDst dst)) := by
  show execSendCommand qn s = _
  unfold execSendCommand
  rw [h]
  dsimp only
  rw [hp]

/-- A RECV that has no chunk to write only holds its window's objects. -/
theorem recvCommand_of_no_chunk {window op nSrc rtype out slots inLen outVa seed iBase iRow rowLen z ax}
    (h : s.working qn = some (q, c))
    (hp : c.payload = .recv window op nSrc rtype out slots inLen outVa seed iBase iRow rowLen z ax)
    (hnone : op = 1 → c.recv.chunks = []) :
    exec (.recvCommand qn) s = .next (s.modCmd qn c.seq fun d => { d with begun := true }) := by
  show execRecvCommand qn s = _
  unfold execRecvCommand
  rw [h]
  dsimp only
  rw [hp]
  dsimp only
  split
  · next hop => rw [hnone hop]; rfl
  · rfl

end

end Sys2Proof.Machine

section
open Sys2Proof Sys2Proof.Machine Sys2Proof.Claims

/-- Settles O43: one equation for each command's step, and for the RUN that starts what `State.startCores` leaves. -/
theorem commandsLaunchAndRun : Obligations.CommandsLaunchAndRun := by
  refine ⟨fun s qn answer => ⟨launch_of_no_head answer, fun q c hact => ?launch⟩,
    fun s qn seq answer => ⟨openCopyDone_of_no_cmd, fun q c hq hc => ?copied⟩,
    fun s qn q c entry args hact hp => ?run, fun s b head m seq t c q hres hhead hcmd => ?slice,
    fun s b answer => ⟨switchDone_of_none, fun o i t hsw hres hmay => ?switch⟩,
    fun s qn => ⟨transfers_of_no_work, fun q c hwork => ⟨fun src dst len lambda hp => ?move,
      fun src len mode nDst pkt lambda dst hp => ?send, ?hold, ?reduce⟩⟩⟩
  case launch =>
    have hexec := launch_of_head answer hact
    refine ⟨fun hphase => ?_, fun hphase hl => ?_, fun hphase hl hp => ⟨fun hr => ?_, fun r hr => ?_⟩,
      fun pred hphase hl hp hfirst hlist hrecv hcmd htest hfree hturn hidle hon => ?_⟩
    · rw [hexec, if_neg hphase]
    · rw [hexec, if_pos hphase, State.launchHead_of_held answer hl]
    · rw [hexec, if_pos hphase, State.launchHead_of_not_permitted answer hl hp, State.notPermitted_of_not_relash hr]
      rfl
    · rw [hexec, if_pos hphase, State.launchHead_of_not_permitted answer hl hp, State.notPermitted_of_relash hr]
      rfl
    · rw [if_pos hphase, State.launchHead_of_free answer hl hp hfirst hlist hrecv htest hfree hturn] at hexec
      exact ⟨_, hexec, State.doLaunch_spec (c := c.unlisted) hcmd hidle hon hrecv rfl⟩
  case copied =>
    have hexec := openCopyDone_of_cmd (answer := answer) hq hc
    have hgoes : ¬ (c.phase ≠ .opening ∨ s.doomed q.bight qn seq = true) ↔ c.phase = .opening ∧ s.doomed q.bight qn seq = false := by
      rw [not_or, not_not, Bool.not_eq_true]
    refine ⟨fun h => ?_, fun a u h he => ?_, fun u h he => ?_, fun k u h he => ?_⟩
    · rw [hexec, if_pos (not_not.mp (mt hgoes.mp h))]
    · rw [hexec, if_neg (hgoes.mpr h), he]
      rfl
    · rw [hexec, if_neg (hgoes.mpr h), he]
      rfl
    · rw [hexec, if_neg (hgoes.mpr h), he]
      rfl
  case run =>
    have hexec := run_of_head hact hp
    refine ⟨fun h => ?_, fun h hs => ?_, fun h hs => ?_⟩
    · rw [hexec, if_neg h]
    · rw [hexec, if_pos h, if_pos hs]
    · rw [if_pos h, if_neg (by rw [hs]; decide)] at hexec
      exact ⟨_, hexec, s.startCores_spec q.bight qn c.seq entry args⟩
  case slice =>
    have hexec := sliceEnd_of_resident hres hhead hcmd
    refine ⟨fun h => ?_, fun h hd => ?_, fun h hd => ?_⟩
    · rw [hexec, if_neg h]
    · rw [hexec, if_pos h, if_pos hd]
    · rw [hexec, if_pos h, if_neg (by rw [hd]; decide)]
  case switch =>
    exact ⟨switchDone_of_incoming hsw hres hmay, fun oq q c ans u ho hm => by
      rw [switchDone_of_outgoing hsw hres hmay ho, hm]
      rfl⟩
  case move =>
    have hexec := move_of_work hwork hp
    exact ⟨fun hb => by rw [hexec, hb]; rfl, fun hb => by rw [hexec, hb]; rfl⟩
  case send =>
    have hexec := sendCommand_of_work hwork hp
    exact ⟨fun hb => by rw [hexec, hb]; rfl, fun hb => by rw [hexec, hb]; rfl⟩
  case hold =>
    intros
    exact recvCommand_of_no_chunk hwork (by assumption) fun h => absurd h (by decide)
  case reduce =>
    intros
    exact recvCommand_of_no_chunk hwork (by assumption) fun _ => by assumption

end

namespace Sys2Proof.Machine

/-! ### The results of core instructions, and the rest of their core (R88, R102, R127) -/

variable {insn : Insn}

/-- Retiring leaves the scalar registers, and a core with another scalar register file is otherwise the same. -/
theorem Core.setReg_retire_frame (k : Core) (rd : SReg) (w : Word) (joined : Bool) (pc : Word) :
    (k.setReg rd w).retire insn joined pc =
      { k.retire insn joined pc with s := ((k.setReg rd w).retire insn joined pc).s } := by
  rw [Core.setReg_frame]; rfl

/-- A core with the flags `fl` added to CL_FFLAGS. -/
def Core.addFlags (k : Core) (fl : BitVec 5) : Core := { k with fflags := k.fflags ||| fl }

theorem Core.addFlags_zero (k : Core) : k.addFlags 0 = k := by
  simp [Core.addFlags]

/-- A core with `v` written to a vector register and the flags `fl` added. -/
def Core.withResult (k : Core) (vd : VReg) (v : Vec) (fl : BitVec 5) : Core := (k.addFlags fl).setV vd v

theorem Core.vreg_withResult (k : Core) (vd : VReg) (v : Vec) (fl : BitVec 5) (r : VReg) :
    (k.withResult vd v fl).vreg r = if r = vd then v else k.vreg r := Core.vreg_setV ..

theorem Core.withResult_retire_frame (k : Core) (vd : VReg) (v : Vec) (fl : BitVec 5) (joined : Bool) (pc : Word) :
    (k.withResult vd v fl).retire insn joined pc =
      { k.retire insn joined pc with
        v := ((k.withResult vd v fl).retire insn joined pc).v
        fflags := ((k.withResult vd v fl).retire insn joined pc).fflags } := rfl

end Sys2Proof.Machine

namespace Sys2Proof.Claims
open Sys2Proof.Machine

/-! ### Instructions that change their own core only (R88, R97) -/

variable {s u : State} {i : Issue} {insn : Insn} {c : Instr} {body : State → Core → Did} {target : Option Word}

/-- A change of one core of a state that differs from `v` in that core alone. -/
theorem modCore_leaves {v : State} {n : Nat} {core : Nat → Core} (g : Core → Core) (hu : u = { v with cores := u.cores })
    (ho : ∀ j, j ≠ n → u.core j = core j) :
    (u.modCore n g).core n = g (u.core n) ∧ (∀ j, j ≠ n → (u.modCore n g).core j = core j) ∧
      u.modCore n g = { v with cores := (u.modCore n g).cores } := by
  refine ⟨State.core_setCore_self .., fun j hj => ?_, ?_⟩
  · exact (State.core_setCore ..).trans ((if_neg hj).trans (ho j hj))
  · rw [hu]; rfl

/-- An instruction that can issue and whose own part changes nothing but its core retires that core, and changes nothing else. -/
theorem retired_of_done (hI : Issues s i insn) (hm : (s.core i.core).mayIssue c = true)
    (hb : body (s.fetching i insn) (s.issuer i insn) = .done u target)
    (hu : u = { s.fetching i insn with cores := u.cores }) (ho : ∀ j, j ≠ i.core → u.core j = s.core j) :
    (s.issue i c insn body).core i.core = (u.core i.core).retire insn (s.joins i insn) (target.getD (pcOf s i insn + 4)) ∧
      OnlyCore s i insn (s.issue i c insn body) := by
  obtain ⟨hs, hf, hx⟩ := hI
  rw [State.issue_done hs hm hf hx hb, pcOf_eq]
  exact modCore_leaves _ hu ho

/-- An instruction whose own part changes its core to `k` leaves that core, retired, and changes nothing else. -/
theorem runs_of_setCore {k : Core} {Q : State → Prop} (c : Issue → Instr)
    (hx : exec (c i) s = .next (s.issue i (c (lone i)) insn body)) (hI : Issues s i insn)
    (hb : body (s.fetching i insn) (s.issuer i insn) = .done ((s.fetching i insn).setCore i.core k) target)
    (h : ∀ t, t.core i.core = k.retire insn (s.joins i insn) (target.getD (pcOf s i insn + 4)) → OnlyCore s i insn t → Q t) :
    Runs i (c i) s Q := by
  refine runs_of_issue c hx fun hm => ?_
  obtain ⟨hk, ho⟩ := retired_of_done hI hm hb rfl fun j hj =>
    (State.core_setCore ..).trans ((if_neg hj).trans (State.core_fetching_other s i insn hj))
  rw [State.core_setCore_self] at hk
  exact h _ hk ho

/-- An instruction that only changes registers of its core, as `f` says, leaves its core with that change, retired. -/
theorem runs_of_issueReg {f : Core → Core} {Q : State → Prop} (c : Issue → Instr)
    (hx : exec (c i) s = .next (s.issueReg i (c (lone i)) insn f)) (hI : Issues s i insn)
    (h : ∀ t, t.core i.core = (f (s.issuer i insn)).retire insn (s.joins i insn) (pcOf s i insn + 4) →
      OnlyCore s i insn t → Q t) : Runs i (c i) s Q :=
  runs_of_setCore c hx hI rfl h

/-- An instruction that retires with register `rd` of its core written. -/
theorem writes_of_retired {rd : SReg} {w : Word} {t : State}
    (hk : t.core i.core = ((s.issuer i insn).setReg rd w).retire insn (s.joins i insn) (pcOf s i insn + 4))
    (ho : OnlyCore s i insn t) : Writes s i insn rd w t := by
  refine ⟨fun r => ?_, ?_, ho⟩
  · rw [hk, Core.retire_reg, Core.reg_setReg, State.issuer_reg]
  · rw [hk]; exact Core.setReg_retire_frame ..

/-- An instruction that only writes a register, as its registers say, writes it. -/
theorem runs_of_write {rd : SReg} {w : Word} {f : Core → Core} (c : Issue → Instr)
    (hx : exec (c i) s = .next (s.issueReg i (c (lone i)) insn f)) (hI : Issues s i insn)
    (hf : ∀ k : Core, (∀ r, k.reg r = (s.core i.core).reg r) → f k = k.setReg rd w) :
    Runs i (c i) s (Writes s i insn rd w) := by
  refine runs_of_issueReg c hx hI fun t hk ho => writes_of_retired ?_ ho
  rwa [hf _ fun r => State.issuer_reg ..] at hk

/-- A scalar instruction of two sources writes what `f` makes of them. -/
theorem runs_of_issueAlu {unit : Nat} {rd rs1 rs2 : SReg} {f : Word → Word → Word} {w : Word} (c : Issue → Instr)
    (hx : exec (c i) s = .next (s.issueAlu i (c (lone i)) unit rd rs1 rs2 f))
    (hI : Issues s i (scalarInsn unit rd rs1 rs2)) (hw : f ((s.core i.core).reg rs1) ((s.core i.core).reg rs2) = w) :
    Runs i (c i) s (Writes s i (scalarInsn unit rd rs1 rs2) rd w) :=
  runs_of_write c hx hI fun k hk => by rw [hk, hk, hw]

/-! ### Vector instructions (R88, R102, R127) -/

/-- An instruction that retires with the vector register `vd` of its core written and flags added. -/
theorem writesVec_of_retired {vd : VReg} {v : Vec} {fl : BitVec 5} {t : State}
    (hk : t.core i.core = ((s.issuer i insn).withResult vd v fl).retire insn (s.joins i insn) (pcOf s i insn + 4))
    (ho : OnlyCore s i insn t) : WritesVec s i insn vd v fl t := by
  refine ⟨fun r => ?_, ?_, ?_, ho⟩
  · rw [hk, Core.retire_vreg, Core.vreg_withResult, State.issuer_vreg]
  · rw [hk, ← State.issuer_fflags s i insn]; rfl
  · rw [hk]; exact Core.withResult_retire_frame ..

/-- A vector instruction writes its destination and adds its flags, as its registers and CL_FRM say. -/
theorem runs_of_issueVec {unit : Nat} {vd : VReg} {vs : List VReg} {f : Core → Core × Vec} {v : Vec} {fl : BitVec 5}
    (c : Issue → Instr) (hx : exec (c i) s = .next (s.issueVec i (c (lone i)) unit vd vs f))
    (hI : Issues s i (vectorInsn unit vd vs))
    (hf : ∀ k : Core, (∀ r, k.vreg r = (s.core i.core).vreg r) → k.frm = (s.core i.core).frm → f k = (k.addFlags fl, v)) :
    Runs i (c i) s (WritesVec s i (vectorInsn unit vd vs) vd v fl) := by
  refine runs_of_issueReg c hx hI fun t hk ho => writesVec_of_retired ?_ ho
  rwa [hf _ (fun r => State.issuer_vreg ..) (State.issuer_frm ..)] at hk

/-- A vector instruction that adds no flags. -/
theorem runs_of_issueVec_no_flags {unit : Nat} {vd : VReg} {vs : List VReg} {f : Core → Core × Vec} {v : Vec} (c : Issue → Instr)
    (hx : exec (c i) s = .next (s.issueVec i (c (lone i)) unit vd vs f)) (hI : Issues s i (vectorInsn unit vd vs))
    (hf : ∀ k : Core, (∀ r, k.vreg r = (s.core i.core).vreg r) → f k = (k, v)) :
    Runs i (c i) s (WritesVec s i (vectorInsn unit vd vs) vd v 0) :=
  runs_of_issueVec c hx hI fun k hv _ => by rw [hf k hv, Core.addFlags_zero]

end Sys2Proof.Claims

namespace Sys2Proof.Machine

/-! ### Results of the integer class (R91, R101) -/

theorem shiftBy_below {kind : Nat} {f : Word → Nat → Word} {a b : Word} (h : b.toNat < 64) :
    shiftBy kind f a b = f a b.toNat := if_pos h

theorem shiftBy_beyond {kind : Nat} {f : Word → Nat → Word} {a b : Word} (h : 64 ≤ b.toNat) :
    shiftBy kind f a b = Config.shiftBeyond kind a b := if_neg (Nat.not_lt.mpr h)

theorem add_eq_ofInt (a b : Word) : a + b = BitVec.ofInt 64 (a.toInt + b.toInt) := by
  rw [BitVec.ofInt_add, BitVec.ofInt_toInt, BitVec.ofInt_toInt]

theorem sub_eq_ofInt (a b : Word) : a - b = BitVec.ofInt 64 (a.toInt - b.toInt) := by
  apply BitVec.eq_of_toInt_eq
  rw [BitVec.toInt_sub, BitVec.toInt_ofInt]

theorem add_scaledImm_one (a : Word) (imm : BitVec 14) :
    a + scaledImm imm 1 = BitVec.ofInt 64 (a.toInt + imm.toInt) := by
  rw [BitVec.ofInt_add, BitVec.ofInt_toInt, scaledImm, Nat.cast_one, mul_one]

theorem shiftLeft_eq_ofNat {w : Nat} (a : BitVec w) (n : Nat) : a <<< n = BitVec.ofNat w (a.toNat * 2 ^ n) := by
  apply BitVec.eq_of_toNat_eq
  rw [BitVec.toNat_shiftLeft, Nat.shiftLeft_eq, BitVec.toNat_ofNat]

theorem ushiftRight_eq_ofNat (a : Word) (n : Nat) : a >>> n = BitVec.ofNat 64 (a.toNat / 2 ^ n) := by
  rw [← Nat.shiftRight_eq_div_pow, ← BitVec.toNat_ushiftRight, BitVec.ofNat_toNat, BitVec.setWidth_eq]

theorem sshiftRight_eq_ofInt (a : Word) (n : Nat) : a.sshiftRight n = BitVec.ofInt 64 (a.toInt / 2 ^ n) := by
  rw [BitVec.sshiftRight, Int.shiftRight_eq_div_pow]
  norm_cast

theorem popCount_eq (w : Word) : popCount w = (List.range 64).countP fun j => w.getLsbD j := by
  rw [popCount, List.countP_eq_length_filter]

theorem leadingZeros_le (w : Word) : leadingZeros w ≤ 64 := by
  unfold leadingZeros
  split <;> omega

/-- No bit of a word is set above its leading zeros. -/
theorem lt_two_pow_leadingZeros (w : Word) : w.toNat < 2 ^ (64 - leadingZeros w) := by
  unfold leadingZeros
  split
  · next h => simp [h]
  · next h =>
    have h0 : w.toNat ≠ 0 := fun h' => h (BitVec.eq_of_toNat_eq h')
    have hlt : Nat.log2 w.toNat < 64 := (Nat.log2_lt h0).mpr w.isLt
    rw [show 64 - (63 - Nat.log2 w.toNat) = Nat.log2 w.toNat + 1 by omega]
    exact Nat.lt_log2_self

/-- The bit below the leading zeros of a word is set. -/
theorem two_pow_leadingZeros_le (w : Word) (h : leadingZeros w < 64) : 2 ^ (63 - leadingZeros w) ≤ w.toNat := by
  unfold leadingZeros at h ⊢
  split at h
  · omega
  · next hw =>
    have h0 : w.toNat ≠ 0 := fun h' => hw (BitVec.eq_of_toNat_eq h')
    have hlt : Nat.log2 w.toNat < 64 := (Nat.log2_lt h0).mpr w.isLt
    rw [if_neg hw, show 63 - (63 - Nat.log2 w.toNat) = Nat.log2 w.toNat by omega]
    exact Nat.log2_self_le h0

end Sys2Proof.Machine

section
open Sys2Proof Sys2Proof.Machine Sys2Proof.Claims

/-- Settles O7: each instruction is `runs_of_issueAlu` with the fact about its result. -/
theorem integerResults : Obligations.IntegerResults := by
  intro s i rd rs1 rs2 imm
  refine ⟨fun hI => ⟨?_, ?_, ?_, ?_, ?_, fun hb => ⟨?_, ?_, ?_⟩⟩, fun hI => ⟨?_, ?_, ?_⟩⟩
  · exact runs_of_issueAlu (fun i => .add i rd rs1 rs2) rfl hI (add_eq_ofInt _ _)
  · exact runs_of_issueAlu (fun i => .sub i rd rs1 rs2) rfl hI (sub_eq_ofInt _ _)
  · exact runs_of_issueAlu (fun i => .and i rd rs1 rs2) rfl hI rfl
  · exact runs_of_issueAlu (fun i => .or i rd rs1 rs2) rfl hI rfl
  · exact runs_of_issueAlu (fun i => .xor i rd rs1 rs2) rfl hI rfl
  · exact runs_of_issueAlu (fun i => .shl i rd rs1 rs2) rfl hI ((shiftBy_below hb).trans (shiftLeft_eq_ofNat _ _))
  · exact runs_of_issueAlu (fun i => .shr i rd rs1 rs2) rfl hI ((shiftBy_below hb).trans (ushiftRight_eq_ofNat _ _))
  · exact runs_of_issueAlu (fun i => .sra i rd rs1 rs2) rfl hI ((shiftBy_below hb).trans (sshiftRight_eq_ofInt _ _))
  · exact runs_of_issueAlu (fun i => .addi i rd rs1 imm) rfl hI (add_scaledImm_one _ _)
  · exact runs_of_issueAlu (fun i => .popc i rd rs1) rfl hI (congrArg _ (popCount_eq _))
  · exact ⟨_, leadingZeros_le _, lt_two_pow_leadingZeros _, two_pow_leadingZeros_le _,
      runs_of_issueAlu (fun i => .clz i rd rs1) rfl hI rfl⟩

/-- Settles O8: the free results are the model's open constants. -/
theorem compareSelectAndFarShiftsRun : Obligations.CompareSelectAndFarShiftsRun := by
  refine ⟨⟨fun func => Config.cmp func.toNat, fun s i rd rs1 rs2 func hI => ?_⟩,
    ⟨Config.shiftBeyond 0, Config.shiftBeyond 1, Config.shiftBeyond 2, fun s i rd rs1 rs2 hI hb => ⟨?_, ?_, ?_⟩⟩,
    fun s i rd rs1 rs2 hI => ?_⟩
  · exact runs_of_issueAlu (fun i => .cmp i rd rs1 rs2 func) rfl hI rfl
  · exact runs_of_issueAlu (fun i => .shl i rd rs1 rs2) rfl hI (shiftBy_beyond hb)
  · exact runs_of_issueAlu (fun i => .shr i rd rs1 rs2) rfl hI (shiftBy_beyond hb)
  · exact runs_of_issueAlu (fun i => .sra i rd rs1 rs2) rfl hI (shiftBy_beyond hb)
  · refine ⟨if Config.selFirst ((s.core i.core).reg rd) ((s.core i.core).reg rs1) ((s.core i.core).reg rs2)
      then (s.core i.core).reg rs1 else (s.core i.core).reg rs2, ite_eq_or_eq _ _ _, ?_⟩
    exact runs_of_write (fun i => .sel i rd rs1 rs2) rfl hI fun k hk => by simp only [hk]

end

namespace Sys2Proof.Machine

/-! ### Results of the multiply and divide class (R96, R101) -/

theorem mul_eq_ofInt (a b : Word) : a * b = BitVec.ofInt 64 (a.toInt * b.toInt) := by
  rw [BitVec.ofInt_mul, BitVec.ofInt_toInt, BitVec.ofInt_toInt]

/-- The high half of a product of two numbers of 64 bits is that of the 128-bit product of their extensions. -/
theorem high_ofInt (z : Int) : BitVec.ofInt 64 (z / 2 ^ 64) = (BitVec.ofInt 128 z).extractLsb' 64 64 := by
  apply BitVec.eq_of_toNat_eq
  rw [BitVec.extractLsb'_toNat, BitVec.toNat_ofInt, BitVec.toNat_ofInt, Nat.shiftRight_eq_div_pow]
  omega

theorem mulHigh_eq (a b : Word) : mulHigh a b = (a.signExtend 128 * b.signExtend 128).extractLsb' 64 64 := by
  rw [mulHigh, high_ofInt, BitVec.ofInt_mul]
  rfl

theorem mulHighU_eq (a b : Word) : mulHighU a b = (a.zeroExtend 128 * b.zeroExtend 128).extractLsb' 64 64 := by
  apply BitVec.eq_of_toNat_eq
  have ha := a.isLt
  have hb := b.isLt
  have hab : a.toNat * b.toNat < 2 ^ 128 := by
    rw [show 128 = 64 + 64 from rfl, Nat.pow_add]; exact Nat.mul_lt_mul'' ha hb
  simp only [mulHighU, BitVec.extractLsb'_toNat, BitVec.toNat_ofNat, BitVec.toNat_mul, BitVec.truncate_eq_setWidth,
    BitVec.toNat_setWidth, Nat.shiftRight_eq_div_pow]
  rw [Nat.mod_eq_of_lt (a := a.toNat) (by omega), Nat.mod_eq_of_lt (a := b.toNat) (by omega), Nat.mod_eq_of_lt hab]

theorem divUnsigned_eq {a b : Word} (h : b ≠ 0) : divUnsigned a b = BitVec.ofNat 64 (a.toNat / b.toNat) := by
  rw [divUnsigned, if_neg h, BitVec.udiv_eq, BitVec.udiv_def]

theorem remUnsigned_eq {a b : Word} (h : b ≠ 0) : remUnsigned a b = BitVec.ofNat 64 (a.toNat % b.toNat) := by
  rw [remUnsigned, if_neg h, BitVec.umod_eq, BitVec.umod_def]

theorem divSigned_eq {a b : Word} (h : b ≠ 0) : divSigned a b = BitVec.ofInt 64 (a.toInt.tdiv b.toInt) := by
  apply BitVec.eq_of_toInt_eq
  rw [divSigned, if_neg h, BitVec.toInt_sdiv, BitVec.toInt_ofInt]

theorem remSigned_eq {a b : Word} (h : b ≠ 0) : remSigned a b = BitVec.ofInt 64 (a.toInt.tmod b.toInt) := by
  rw [remSigned, if_neg h, ← BitVec.toInt_srem, BitVec.ofInt_toInt]

end Sys2Proof.Machine

section
open Sys2Proof Sys2Proof.Machine Sys2Proof.Claims

/-- Settles O9: each instruction is `runs_of_issueAlu` with the fact about its result, corner by corner. -/
theorem multiplyAndDivide : Obligations.MultiplyAndDivide := by
  intro s i rd rs1 rs2 a b insn hI
  have hdiv : ∀ w, divSigned a b = w → Runs i (.div i rd rs1 rs2) s (Writes s i insn rd w) := fun _ =>
    runs_of_issueAlu (fun i => .div i rd rs1 rs2) rfl hI
  have hdivu : ∀ w, divUnsigned a b = w → Runs i (.divu i rd rs1 rs2) s (Writes s i insn rd w) := fun _ =>
    runs_of_issueAlu (fun i => .divu i rd rs1 rs2) rfl hI
  have hrem : ∀ w, remSigned a b = w → Runs i (.rem i rd rs1 rs2) s (Writes s i insn rd w) := fun _ =>
    runs_of_issueAlu (fun i => .rem i rd rs1 rs2) rfl hI
  have hremu : ∀ w, remUnsigned a b = w → Runs i (.remu i rd rs1 rs2) s (Writes s i insn rd w) := fun _ =>
    runs_of_issueAlu (fun i => .remu i rd rs1 rs2) rfl hI
  refine ⟨?_, ?_, ?_, fun hb => ⟨hdiv _ (if_pos hb), hdivu _ (if_pos hb), hrem _ (if_pos hb), hremu _ (if_pos hb)⟩,
    fun ha hb => ⟨hdiv _ ?_, hrem _ ?_⟩,
    fun hb => ⟨hdivu _ (divUnsigned_eq hb), hremu _ (remUnsigned_eq hb), hdiv _ (divSigned_eq hb), hrem _ (remSigned_eq hb)⟩⟩
  · exact runs_of_issueAlu (fun i => .mul i rd rs1 rs2) rfl hI (mul_eq_ofInt _ _)
  · exact runs_of_issueAlu (fun i => .mulh i rd rs1 rs2) rfl hI (mulHigh_eq _ _)
  · exact runs_of_issueAlu (fun i => .mulhu i rd rs1 rs2) rfl hI (mulHighU_eq _ _)
  · rw [ha, hb]; decide
  · rw [ha, hb]; decide

end

namespace Sys2Proof.Machine

/-! ### Branches (R92) -/

/-- Where a branch's offset counts from: the branch or the word after it (log 5). -/
def branchBase : Word := if Config.branchFromNext then 4 else 0

theorem branchBase_cases : branchBase = 0 ∨ branchBase = 4 := (ite_eq_or_eq ..).symm

theorem branchTarget_eq (pc : Word) (imm : BitVec 14) :
    branchTarget pc imm = pc + branchBase + BitVec.ofInt 64 (4 * imm.toInt) := by
  rw [branchTarget, scaledImm, Int.mul_comm]; rfl

end Sys2Proof.Machine

namespace Sys2Proof.Claims
open Sys2Proof.Machine

variable {s : State} {i : Issue} {insn : Insn}

theorem with_cores_of_eq {u v : State} (h : u = v) : u = { v with cores := u.cores } := by subst h; rfl

/-- A branch or jump that changes no register goes to its target, or to the next word. -/
theorem runs_of_branch {body : State → Core → Did} {target : Option Word} {pc : Word} (c : Issue → Instr)
    (hx : exec (c i) s = .next (s.issue i (c (lone i)) insn body)) (hI : Issues s i insn)
    (hb : body (s.fetching i insn) (s.issuer i insn) = .done (s.fetching i insn) target)
    (hpc : target.getD ((s.issuer i insn).pc + 4) = pc) : Runs i (c i) s (GoesTo s i insn pc) := by
  refine runs_of_issue c hx fun hm => ?_
  have h := retired_of_done hI hm hb (with_cores_of_eq rfl) fun _ hj => State.core_fetching_other s i insn hj
  rw [pcOf_eq] at h
  rw [hpc] at h
  rwa [GoesTo, issuer_eq]

/-- A conditional branch goes to its target when its condition holds. -/
theorem runs_of_branchOp {rs1 rs2 : SReg} {imm : BitVec 14} {taken : Word → Word → Bool} (c : Issue → Instr)
    (hx : exec (c i) s = branchOp i (c (lone i)) rs1 rs2 imm taken s)
    (hI : Issues s i { unit := unitBr, reads := [sName rs1, sName rs2], writes := [] }) :
    Runs i (c i) s (GoesTo s i { unit := unitBr, reads := [sName rs1, sName rs2], writes := [] }
      (if taken ((s.core i.core).reg rs1) ((s.core i.core).reg rs2) then
        branchTarget (pcOf s i { unit := unitBr, reads := [sName rs1, sName rs2], writes := [] }) imm
      else pcOf s i { unit := unitBr, reads := [sName rs1, sName rs2], writes := [] } + 4)) := by
  refine runs_of_branch c hx hI rfl ?_
  rw [State.issuer_reg, State.issuer_reg, pcOf_eq]
  split <;> rfl

end Sys2Proof.Claims

section
open Sys2Proof Sys2Proof.Machine Sys2Proof.Claims

/-- Settles O10: the conditional branches are cases of `runs_of_branchOp`, the jumps of `runs_of_branch` and `retired_of_done`. -/
theorem branchesAndJumps : Obligations.BranchesAndJumps := by
  refine ⟨branchBase, branchBase_cases, fun s i rd rs1 rs2 imm => ?_⟩
  simp only [← branchTarget_eq]
  refine ⟨fun hI => ⟨?_, ?_, ?_, ?_⟩, fun hI => ?_, fun hI => ?_, fun hI => ?_⟩
  · simpa only [beq_iff_eq] using runs_of_branchOp (fun i => .beq i rs1 rs2 imm) rfl hI
  · simpa only [bne_iff_ne, ite_not] using runs_of_branchOp (fun i => .bne i rs1 rs2 imm) rfl hI
  · simpa only [BitVec.slt_iff_toInt_lt] using runs_of_branchOp (fun i => .blt i rs1 rs2 imm) rfl hI
  · have h := runs_of_branchOp (imm := imm) (taken := fun a b => b.sle a) (fun i => .bge i rs1 rs2 imm) rfl hI
    simpa only [BitVec.sle_iff_toInt_le, ← not_lt, ite_not] using h
  · exact runs_of_branch (fun i => .j i imm) rfl hI rfl (by rw [pcOf_eq]; rfl)
  · exact runs_of_branch (fun i => .jr i rs1) rfl hI rfl (State.issuer_reg ..)
  · refine runs_of_setCore (fun i => .jal i rd imm) rfl hI rfl fun t hk ho => ?_
    rw [Option.getD_some] at hk
    refine ⟨fun r => ?_, ?_, ho⟩
    · rw [hk, Core.retire_reg, Core.reg_setReg, State.issuer_reg, pcOf_eq, issuer_eq]
    · rw [hk, pcOf_eq]; exact Core.setReg_retire_frame ..

end

namespace Sys2Proof.Claims
open Sys2Proof.Machine

/-! ### Lanes (R88, R96, R102) -/

theorem lanes32_eq (v : Vec) : lanes32 v = (List.range 16).map (lane v) := rfl

theorem lanesOf_eight (v : Vec) : lanesOf 8 v = (List.range 64).map (lane8 v) := rfl

theorem zipWith_range {α β γ : Type} (f : α → β → γ) (n : Nat) (x : Nat → α) (y : Nat → β) :
    List.zipWith f ((List.range n).map x) ((List.range n).map y) = (List.range n).map fun j => f (x j) (y j) := by
  rw [List.zipWith_map, List.zipWith_self]

theorem zipWith_lanes32 {γ : Type} (f : F32 → F32 → γ) (a b : Vec) :
    List.zipWith f (lanes32 a) (lanes32 b) = (List.range 16).map fun j => f (lane a j) (lane b j) :=
  zipWith_range f 16 (lane a) (lane b)

theorem zipWith_lanes8 {γ : Type} (f : BitVec 8 → BitVec 8 → γ) (a b : Vec) :
    List.zipWith f (lanesOf 8 a) (lanesOf 8 b) = (List.range 64).map fun j => f (lane8 a j) (lane8 b j) :=
  zipWith_range f 64 (lane8 a) (lane8 b)

theorem range_getD {α : Type} {n j : Nat} (f : Nat → α) (d : α) (hj : j < n) : ((List.range n).map f).getD j d = f j := by
  simp [List.getD_eq_getElem?_getD, hj]

/-- Lane `j` of the vector whose lanes `f` names. -/
theorem lane_ofLanes (f : Nat → F32) {j : Nat} (hj : j < 16) : lane (ofLanes ((List.range 16).map f)) j = f j := by
  rw [lane, extract_ofLanes (by decide) _ j (by omega), range_getD f _ hj]

theorem lane8_ofLanes (f : Nat → BitVec 8) {j : Nat} (hj : j < 64) : lane8 (ofLanes ((List.range 64).map f)) j = f j := by
  rw [lane8, extract_ofLanes (by decide) _ j (by omega), range_getD f _ hj]

theorem splat_eq (x : F32) : splat x = vecOf fun _ => x := rfl

/-- Flags added one after another are added together. -/
theorem foldl_or_eq {α : Type} (g : α → BitVec 5) (l : List α) (a : BitVec 5) :
    l.foldl (fun f x => f ||| g x) a = a ||| l.foldl (fun f x => f ||| g x) 0 := by
  induction l generalizing a with
  | nil => simp
  | cons x l ih => simp only [List.foldl_cons, ih (_ ||| g x), BitVec.or_assoc]; simp

/-! ### The tree of the reductions (R103) -/

section
variable (f : F32 → F32 → FRes) (x : Nat → F32)

/-- The results of one level of the tree, lane `j` with lane `j + n`. -/
def treeStep (n : Nat) : Nat → F32 := fun j => (f (x j) (x (j + n))).1

theorem treeLevel_range (n : Nat) (fl : BitVec 5) : treeLevel f n ((List.range (n + n)).map x) fl =
    ((List.range n).map (treeStep f x n), (List.range n).foldl (fun a j => a ||| (f (x j) (x (j + n))).2) fl) := by
  have htake : ((List.range (n + n)).map x).take n = (List.range n).map x := by
    rw [← List.map_take, List.take_range, Nat.min_eq_left (Nat.le_add_left n n)]
  have hdrop : ((List.range (n + n)).map x).drop n = (List.range n).map fun j => x (j + n) := by
    rw [List.range_add, List.map_append, List.drop_left' (by simp), List.map_map]
    exact List.map_congr_left fun j _ => congrArg x (Nat.add_comm n j)
  rw [treeLevel, htake, hdrop, zipWith_range, List.map_map, List.foldl_map]
  rfl

/-- The four levels of the tree over sixteen lanes. -/
theorem tree16_range : tree16 f ((List.range 16).map x) =
    let x1 := treeStep f x 8
    let x2 := treeStep f x1 4
    let x3 := treeStep f x2 2
    (treeStep f x3 1 0,
      (List.range 8).foldl (fun a j => a ||| (f (x j) (x (j + 8))).2) 0 |||
        (List.range 4).foldl (fun a j => a ||| (f (x1 j) (x1 (j + 4))).2) 0 |||
        (List.range 2).foldl (fun a j => a ||| (f (x2 j) (x2 (j + 2))).2) 0 ||| (f (x3 0) (x3 1)).2) := by
  unfold tree16
  rw [treeLevel_range f x 8]
  dsimp only
  rw [treeLevel_range f _ 4]
  dsimp only
  rw [treeLevel_range f _ 2]
  dsimp only
  rw [treeLevel_range f _ 1]
  dsimp only
  rw [foldl_or_eq _ (List.range 4), foldl_or_eq _ (List.range 2)]
  rfl

end

end Sys2Proof.Claims

section
open Sys2Proof Sys2Proof.Machine Sys2Proof.Claims

/-- Settles O19: the levels of the tree, one after another. -/
theorem vredsumIsAFixedTree : Obligations.VredsumIsAFixedTree := by
  intro s i vd va add x0 x1 x2 x3 flags hI
  refine runs_of_issueVec (fun i => .vredsum i vd va) rfl hI fun k hv hfrm => ?_
  have htree : tree16 (f32Add k.frm) (lanes32 (k.vreg va)) = ((add (x3 0) (x3 1)).1, flags) := by
    rw [hv, hfrm, lanes32_eq, tree16_range]; rfl
  simp only [htree]
  rfl

end

namespace Sys2Proof.Claims
open Sys2Proof.Machine

/-! ### Vector integer and moves (R96, R101) -/

variable {s : State} {i : Issue} {insn : Insn} {vd va vb vc : VReg}

theorem Runs.imp {c : Instr} {Q Q' : State → Prop} (h : Runs i c s Q) (hQ : ∀ t, Q t → Q' t) : Runs i c s Q' := fun hw =>
  let ⟨t, hx, ht⟩ := h hw
  ⟨t, hx, hQ t ht⟩

/-- The instruction writes to `vd` the vector whose 32-bit lanes `f` names, and adds no flags. -/
def WritesLanes (s : State) (i : Issue) (insn : Insn) (vd : VReg) (f : Nat → F32) (t : State) : Prop :=
  ∃ v, WritesVec s i insn vd v 0 t ∧ ∀ j, j < 16 → lane v j = f j

/-- The same with 8-bit lanes. -/
def WritesLanes8 (s : State) (i : Issue) (insn : Insn) (vd : VReg) (f : Nat → BitVec 8) (t : State) : Prop :=
  ∃ v, WritesVec s i insn vd v 0 t ∧ ∀ j, j < 64 → lane8 v j = f j

theorem writesLanes_of_writesVec {g : Nat → F32} {t : State} (h : WritesVec s i insn vd (ofLanes ((List.range 16).map g)) 0 t) :
    WritesLanes s i insn vd g t := ⟨_, h, fun _ hj => lane_ofLanes g hj⟩

theorem writesLanes8_of_writesVec {g : Nat → BitVec 8} {t : State}
    (h : WritesVec s i insn vd (ofLanes ((List.range 64).map g)) 0 t) : WritesLanes8 s i insn vd g t :=
  ⟨_, h, fun _ hj => lane8_ofLanes g hj⟩

/-- A vector integer instruction on 8-bit lanes. -/
theorem runs_of_laneOp8 {f : BitVec 8 → BitVec 8 → BitVec 8} {g : Nat → BitVec 8} (c : Issue → Instr)
    (hx : exec (c i) s = .next (s.issueVec i (c (lone i)) unitVec vd [va, vb] fun k =>
      (k, ofLanes (List.zipWith f (lanesOf 8 (k.vreg va)) (lanesOf 8 (k.vreg vb))))))
    (hI : Issues s i (vectorInsn unitVec vd [va, vb]))
    (hg : ∀ j, f (lane8 ((s.core i.core).vreg va) j) (lane8 ((s.core i.core).vreg vb) j) = g j) :
    Runs i (c i) s (WritesLanes8 s i (vectorInsn unitVec vd [va, vb]) vd g) := by
  have h := runs_of_issueVec_no_flags c hx hI fun k hv => congrArg (Prod.mk k)
    (congrArg ofLanes (by rw [zipWith_lanes8, hv, hv, funext hg]))
  exact h.imp fun _ => writesLanes8_of_writesVec

/-- A vector integer instruction on 32-bit lanes. -/
theorem runs_of_laneOp32 {f : F32 → F32 → F32} {g : Nat → F32} (c : Issue → Instr)
    (hx : exec (c i) s = .next (s.issueVec i (c (lone i)) unitVec vd [va, vb] fun k =>
      (k, ofLanes (List.zipWith f (lanes32 (k.vreg va)) (lanes32 (k.vreg vb))))))
    (hI : Issues s i (vectorInsn unitVec vd [va, vb]))
    (hg : ∀ j, f (lane ((s.core i.core).vreg va) j) (lane ((s.core i.core).vreg vb) j) = g j) :
    Runs i (c i) s (WritesLanes s i (vectorInsn unitVec vd [va, vb]) vd g) := by
  have h := runs_of_issueVec_no_flags c hx hI fun k hv => congrArg (Prod.mk k)
    (congrArg ofLanes (by rw [zipWith_lanes32, hv, hv, funext hg]))
  exact h.imp fun _ => writesLanes_of_writesVec

theorem add_eq_ofNat {w : Nat} (a b : BitVec w) : a + b = BitVec.ofNat w (a.toNat + b.toNat) := by
  apply BitVec.eq_of_toNat_eq
  rw [BitVec.toNat_add, BitVec.toNat_ofNat]

theorem mul_eq_ofNat {w : Nat} (a b : BitVec w) : a * b = BitVec.ofNat w (a.toNat * b.toNat) := by
  apply BitVec.eq_of_toNat_eq
  rw [BitVec.toNat_mul, BitVec.toNat_ofNat]

theorem laneShl8_eq (a b : BitVec 8) : laneShl8 a b =
    if b.toNat < 8 then BitVec.ofNat 8 (a.toNat * 2 ^ b.toNat)
    else (Config.laneShiftBeyond 8 (a.setWidth 32) (b.setWidth 32)).setWidth 8 := by
  rw [laneShl8, shiftLeft_eq_ofNat]

theorem laneShl32_eq (a b : F32) : laneShl32 a b =
    if b.toNat < 32 then BitVec.ofNat 32 (a.toNat * 2 ^ b.toNat) else Config.laneShiftBeyond 32 a b := by
  rw [laneShl32, shiftLeft_eq_ofNat]

theorem selLane_cases {w : Nat} (a b c : BitVec w) : selLane w a b c = a ∨ selLane w a b c = b := ite_eq_or_eq ..

/-- Sixteen lanes, chosen from those of a vector. -/
theorem lanes32_getD_lane (v : Vec) (n : Nat) : (lanes32 v).getD (n % 16) 0 = lane v (n % 16) :=
  lanes32_getD v _ (Nat.mod_lt _ (by decide))

/-- One lane of a vector in every lane. -/
theorem splat_getD (v : Vec) (n : Nat) :
    splat ((lanes32 v).getD (n % 16) 0) = ofLanes ((List.range 16).map fun _ => lane v (n % 16)) := by
  rw [lanes32_getD_lane]; rfl

theorem map_lanes32_getD (v : Vec) (choose : Nat → Nat) :
    (List.range 16).map (fun j => (lanes32 v).getD (choose j % 16) 0) = (List.range 16).map fun j => lane v (choose j % 16) :=
  List.map_congr_left fun j _ => lanes32_getD_lane v (choose j)

/-- A selection of lanes takes each from one of two vectors. -/
theorem zipWith_selLane_lanes32 (a b c : Vec) :
    List.zipWith (fun (f : F32 → F32) z => f z) (List.zipWith (fun x y z => selLane 32 x y z) (lanesOf 32 a) (lanesOf 32 b))
      (lanesOf 32 c) = (List.range 16).map fun j => selLane 32 (lane a j) (lane b j) (lane c j) := by
  rw [show lanesOf 32 a = _ from lanes32_eq a, show lanesOf 32 b = _ from lanes32_eq b,
    show lanesOf 32 c = _ from lanes32_eq c, zipWith_range, zipWith_range]

theorem zipWith_selLane_lanes8 (a b c : Vec) :
    List.zipWith (fun (f : BitVec 8 → BitVec 8) z => f z) (List.zipWith (fun x y z => selLane 8 x y z) (lanesOf 8 a) (lanesOf 8 b))
      (lanesOf 8 c) = (List.range 64).map fun j => selLane 8 (lane8 a j) (lane8 b j) (lane8 c j) := by
  rw [lanesOf_eight, lanesOf_eight, lanesOf_eight, zipWith_range, zipWith_range]

/-! ### The greatest lane (R96) -/

/-- Every one of `n` values is among those of the sixteen lanes `x`, and each lane's key is at most that of one of them. -/
def Covers (key : F32 → Int) (x : Nat → F32) (n : Nat) (y : Nat → F32) : Prop :=
  (∀ j, j < n → ∃ l, l < 16 ∧ y j = x l) ∧ ∀ l, l < 16 → ∃ j, j < n ∧ key (x l) ≤ key (y j)

/-- A function picks the greater of two numbers of a set by a key. -/
def PicksGreater (key : F32 → Int) (ok : F32 → Prop) (f : F32 → F32 → FRes) : Prop :=
  ∀ a b, ok a → ok b → ((f a b).1 = a ∨ (f a b).1 = b) ∧ key a ≤ key (f a b).1 ∧ key b ≤ key (f a b).1

variable {key : F32 → Int} {ok : F32 → Prop} {f : F32 → F32 → FRes} {x : Nat → F32}

/-- A level of the tree keeps the greatest lanes. -/
theorem Covers.treeStep {n : Nat} {y : Nat → F32} (hf : PicksGreater key ok f) (hx : ∀ l, l < 16 → ok (x l))
    (h : Covers key x (n + n) y) : Covers key x n (treeStep f y n) := by
  obtain ⟨hmem, hle⟩ := h
  have hok : ∀ j, j < n + n → ok (y j) := fun j hj => by
    obtain ⟨l, hl, e⟩ := hmem j hj
    exact e ▸ hx l hl
  have hpick : ∀ j, j < n → _ := fun j hj => hf (y j) (y (j + n)) (hok j (by omega)) (hok (j + n) (by omega))
  refine ⟨fun j hj => ?_, fun l hl => ?_⟩
  · obtain ⟨e | e, -⟩ := hpick j hj
    · obtain ⟨l, hl, e'⟩ := hmem j (by omega)
      exact ⟨l, hl, e.trans e'⟩
    · obtain ⟨l, hl, e'⟩ := hmem (j + n) (by omega)
      exact ⟨l, hl, e.trans e'⟩
  · obtain ⟨j, hj, hjl⟩ := hle l hl
    by_cases hjn : j < n
    · exact ⟨j, hjn, hjl.trans (hpick j hjn).2.1⟩
    · obtain ⟨m, rfl⟩ : ∃ m, j = m + n := ⟨j - n, by omega⟩
      exact ⟨m, by omega, hjl.trans (hpick m (by omega)).2.2⟩

/-- The tree over sixteen lanes gives the greatest of them. -/
theorem tree16_greatest (hf : PicksGreater key ok f) (hx : ∀ l, l < 16 → ok (x l)) :
    (∃ l, l < 16 ∧ (tree16 f ((List.range 16).map x)).1 = x l) ∧
      ∀ l, l < 16 → key (x l) ≤ key (tree16 f ((List.range 16).map x)).1 := by
  have h0 : Covers key x (8 + 8) x := ⟨fun j hj => ⟨j, hj, rfl⟩, fun l hl => ⟨l, hl, le_refl _⟩⟩
  have h4 : Covers key x 1 _ := Covers.treeStep hf hx (Covers.treeStep (n := 2) hf hx
    (Covers.treeStep (n := 4) hf hx (Covers.treeStep (n := 8) hf hx h0)))
  rw [tree16_range]
  refine ⟨h4.1 0 (by decide), fun l hl => ?_⟩
  obtain ⟨j, hj, hle⟩ := h4.2 l hl
  obtain rfl : j = 0 := by omega
  exact hle

theorem maxSigned_picks : PicksGreater BitVec.toInt (fun _ => True) fun a b => (maxSigned a b, 0) := by
  intro a b _ _
  simp only [maxSigned]
  by_cases h : a.slt b = true
  · rw [if_pos h]
    exact ⟨.inr rfl, (BitVec.slt_iff_toInt_lt.mp h).le, le_refl _⟩
  · rw [if_neg h]
    exact ⟨.inl rfl, le_refl _, not_lt.mp fun h' => h (BitVec.slt_iff_toInt_lt.mpr h')⟩

theorem f32Nan_eq_false {y : F32} (h : f32Val y ≠ .nan) : f32Nan y = false := beq_eq_false_iff_ne.mpr h

/-- Minimum and maximum of numbers: one of the two, by their order, and no flag. -/
theorem f32MinMax_of_numbers {big : Bool} {a b : F32} (ha : f32Val a ≠ .nan) (hb : f32Val b ≠ .nan) :
    f32MinMax big a b = (if decide (f32Key a ≤ f32Key b) = big then b else a, 0) := by
  simp [f32MinMax, snanFlag, f32Snan, f32Nan_eq_false ha, f32Nan_eq_false hb]

theorem f32Max_picks : PicksGreater f32Key (fun y => f32Val y ≠ .nan) (f32MinMax true) := by
  intro a b ha hb
  rw [f32MinMax_of_numbers ha hb]
  by_cases h : f32Key a ≤ f32Key b
  · simp [h]
  · simp [h]; omega

/-- What VREDMAX makes of the lanes, as FP32 or as signed numbers (log 5). -/
def redMax (l : List F32) : FRes :=
  if Config.redMaxFloat then tree16 (f32MinMax true) l else ((tree16 (fun a b => (maxSigned a b, 0)) l).1, 0)

theorem redMax_signed (v : Vec) (h : Config.redMaxFloat = false) : (redMax (lanes32 v)).2 = 0 ∧
    (∃ j, j < 16 ∧ (redMax (lanes32 v)).1 = lane v j) ∧ ∀ j, j < 16 → (lane v j).toInt ≤ (redMax (lanes32 v)).1.toInt := by
  rw [redMax, if_neg (by simp [h]), lanes32_eq]
  dsimp only
  exact ⟨rfl, tree16_greatest maxSigned_picks fun _ _ => trivial⟩

theorem redMax_float (v : Vec) (h : Config.redMaxFloat = true) (hv : ∀ j, j < 16 → f32Val (lane v j) ≠ .nan) :
    (∃ j, j < 16 ∧ (redMax (lanes32 v)).1 = lane v j) ∧ ∀ j, j < 16 → f32Key (lane v j) ≤ f32Key (redMax (lanes32 v)).1 := by
  rw [redMax, if_pos h, lanes32_eq]
  exact tree16_greatest f32Max_picks hv

theorem runs_of_vredmax (hI : Issues s i (vectorInsn unitVec vd [va])) : Runs i (.vredmax i vd va) s
    (WritesVec s i (vectorInsn unitVec vd [va]) vd (vecOf fun _ => (redMax (lanes32 ((s.core i.core).vreg va))).1)
      (redMax (lanes32 ((s.core i.core).vreg va))).2) := by
  refine runs_of_issueVec (fun i => .vredmax i vd va) rfl hI fun k hv _ => ?_
  rw [← hv, ← splat_eq, redMax]
  dsimp only
  split
  · rfl
  · rw [Core.addFlags_zero]

end Sys2Proof.Claims

section
open Sys2Proof Sys2Proof.Machine Sys2Proof.Claims

/-- Settles O18: the lane-wise instructions are cases of `runs_of_laneOp8` and `runs_of_laneOp32`; VREDMAX is `tree16_greatest`. -/
theorem vectorIntegerAndMoves : Obligations.VectorIntegerAndMoves := by
  refine ⟨fun a b => (Config.laneShiftBeyond 8 (a.setWidth 32) (b.setWidth 32)).setWidth 8, Config.laneShiftBeyond 32,
    fun v j => ⟨Config.permLane v j % 16, Nat.mod_lt _ (by decide)⟩,
    fun r => ⟨Config.bcastLane r.val % 16, Nat.mod_lt _ (by decide)⟩, Config.redMaxFloat,
    fun s i vd va vb vc => ?_⟩
  refine ⟨fun hI => ⟨?_, ?_, ?_, ?_, ?_, ?_, ?_, ?_⟩, fun hI => ⟨?_, ?_⟩, fun hI => ⟨?_, ?_⟩⟩
  · exact runs_of_laneOp8 (fun i => .vaddi i .int8 vd va vb) rfl hI fun _ => add_eq_ofNat ..
  · exact runs_of_laneOp32 (fun i => .vaddi i .int32 vd va vb) rfl hI fun _ => add_eq_ofNat ..
  · exact runs_of_laneOp8 (fun i => .vmuli i .int8 vd va vb) rfl hI fun _ => mul_eq_ofNat ..
  · exact runs_of_laneOp32 (fun i => .vmuli i .int32 vd va vb) rfl hI fun _ => mul_eq_ofNat ..
  · exact runs_of_laneOp32 (fun i => .vand i vd va vb) rfl hI fun _ => rfl
  · exact runs_of_laneOp8 (fun i => .vshl i .int8 vd va vb) rfl hI fun _ => laneShl8_eq ..
  · exact runs_of_laneOp32 (fun i => .vshl i .int32 vd va vb) rfl hI fun _ => laneShl32_eq ..
  · have h := runs_of_issueVec_no_flags (fun i => .vperm i vd va vb) rfl hI fun k hv => congrArg (Prod.mk k)
      (congrArg ofLanes ((map_lanes32_getD _ _).trans (by rw [hv, hv])))
    exact h.imp fun _ => writesLanes_of_writesVec
  · have h := runs_of_issueVec_no_flags (fun i => .vbcast i vd va vb) rfl hI fun k hv => congrArg (Prod.mk k)
      ((splat_getD _ _).trans (by rw [hv]))
    exact h.imp fun _ => writesLanes_of_writesVec
  · exact (runs_of_vredmax hI).imp fun t ht => ⟨_, _, ht, redMax_signed _, redMax_float _⟩
  · have h := runs_of_issueVec_no_flags (fun i => .vsel i .int8 vd va vb vc) rfl hI fun k hv => congrArg (Prod.mk k)
      (congrArg ofLanes ((zipWith_selLane_lanes8 _ _ _).trans (by rw [hv, hv, hv])))
    exact h.imp fun t ht => ⟨_, ht, fun j hj => lane8_ofLanes _ hj ▸ selLane_cases ..⟩
  · have h := runs_of_issueVec_no_flags (fun i => .vsel i .int32 vd va vb vc) rfl hI fun k hv => congrArg (Prod.mk k)
      (congrArg ofLanes ((zipWith_selLane_lanes32 _ _ _).trans (by rw [hv, hv, hv])))
    exact h.imp fun t ht => ⟨_, ht, fun j hj => lane_ofLanes _ hj ▸ selLane_cases ..⟩

end

namespace Sys2Proof.Machine

/-! ### Values of FP32 numbers (R102, R131) -/

/-- The NaNs are the encodings above those of the infinities. -/
theorem f32Val_eq_nan_iff (x : F32) : f32Val x = .nan ↔ 0x7F800000 < x.toNat % 2 ^ 31 := by
  have hex : fieldN x.toNat 23 8 = x.toNat / 2 ^ 23 % 2 ^ 8 := rfl
  have hman : fieldN x.toNat 0 23 = x.toNat % 2 ^ 23 := by simp [fieldN]
  simp only [f32Val, decodeFloat]
  generalize fieldN x.toNat 23 8 = ex, fieldN x.toNat 0 23 = man at *
  split
  · next h =>
    simp only [decide_eq_true_eq] at h
    simp only [reduceCtorEq, false_iff]; omega
  · next h =>
    simp only [decide_eq_true_eq] at h
    split
    · next h' =>
      simp only [decide_eq_true_eq] at h'
      simp only [true_iff]; omega
    · next h' =>
      simp only [decide_eq_true_eq] at h'
      split <;> simp only [reduceCtorEq, false_iff] <;> omega

theorem f32Zero_toNat (neg : Bool) : (f32Zero neg).toNat = if neg then 2 ^ 31 else 0 := by cases neg <;> rfl

/-- A magnitude with a sign is a NaN only where the magnitude is one. -/
theorem f32Val_signed_ne_nan {b : Nat} (hb : b ≤ 0x7F800000) (neg : Bool) : f32Val (BitVec.ofNat 32 b ||| f32Zero neg) ≠ .nan := by
  have hz : (f32Zero neg).toNat % 2 ^ 31 = 0 := by rw [f32Zero_toNat]; cases neg <;> rfl
  rw [Ne, f32Val_eq_nan_iff, BitVec.toNat_or, Nat.or_mod_two_pow, hz, Nat.or_zero, BitVec.toNat_ofNat]
  omega

theorem f32Val_f32Zero (neg : Bool) : f32Val (f32Zero neg) ≠ .nan := by cases neg <;> decide

theorem f32Val_f32Inf (neg : Bool) : f32Val (f32Inf neg) ≠ .nan := by cases neg <;> decide

theorem capped_le {top bits : Nat} {toInf : Bool} {f g : BitVec 5} :
    (if top ≤ bits then (if toInf then top else top - 1, f) else (bits, g)).1 ≤ top := by
  split
  · dsimp only; split <;> omega
  · dsimp only; omega

/-- Rounding gives no magnitude above that of an infinity. -/
theorem ieeeRound_le (eb mb bias : Nat) (rm : BitVec 2) (neg : Bool) (m : Nat) (e : Int) (sticky : Bool) :
    (ieeeRound eb mb bias rm neg m e sticky).1 ≤ (2 ^ eb - 1) * 2 ^ mb := by
  unfold ieeeRound
  exact capped_le

/-- `f32Round` gives a magnitude that rounding gave, with a sign. It is unfolded as a function: under its arguments the kernel
would run `ieeeRound` to compare the two sides. -/
theorem f32Round_exists : ∃ g, f32Round = g ∧ ∀ rm neg m e sticky, ∃ r : Nat × BitVec 5,
    r.1 ≤ (2 ^ 8 - 1) * 2 ^ 23 ∧ g rm neg m e sticky = (BitVec.ofNat 32 r.1 ||| f32Zero neg, r.2) := by
  delta f32Round
  refine ⟨_, rfl, fun rm neg m e sticky => ?_⟩
  have h := ieeeRound_le 8 23 127 rm neg m e sticky
  generalize ieeeRound 8 23 127 rm neg m e sticky = r at h ⊢
  obtain ⟨b, f⟩ := r
  exact ⟨(b, f), h, rfl⟩

theorem f32Val_f32Round (rm : BitVec 2) (neg : Bool) (m : Nat) (e : Int) (sticky : Bool) :
    f32Val (f32Round rm neg m e sticky).1 ≠ .nan := by
  obtain ⟨g, hg, hround⟩ := f32Round_exists
  obtain ⟨r, hr, heq⟩ := hround rm neg m e sticky
  rw [hg, heq]
  exact f32Val_signed_ne_nan (hr.trans (by norm_num)) neg

theorem f32Val_f32OfInt (rm : BitVec 2) (m e : Int) {zero : F32} (h : f32Val zero ≠ .nan) : f32Val (f32OfInt rm m e zero).1 ≠ .nan := by
  unfold f32OfInt
  split
  · exact h
  · exact f32Val_f32Round _ _ _ _ _

/-- The exact value of a result that is not zero is rounded whatever a zero result would be. -/
theorem f32OfInt_of_ne_zero (rm : BitVec 2) {m : Int} (e : Int) (zero zero' : F32) (h : m ≠ 0) :
    f32OfInt rm m e zero = f32OfInt rm m e zero' := by
  rw [f32OfInt, f32OfInt, if_neg h, if_neg h]

/-! ### Results of FP32 arithmetic (R102) -/

/-- A result is no NaN but the canonical one. -/
def QuietOnly (r : F32) : Prop := f32Val r = .nan → r = 0x7FC00000

theorem quietOnly_of_ne_nan {r : F32} (h : f32Val r ≠ .nan) : QuietOnly r := fun h' => absurd h' h

theorem f32Add_nan (rm : BitVec 2) {x y : F32} (h : f32Val x = .nan ∨ f32Val y = .nan) : (f32Add rm x y).1 = 0x7FC00000 := by
  unfold f32Add
  obtain h | h := h
  · rw [h]; rfl
  · rw [h]; cases f32Val x <;> rfl

theorem f32Add_quietOnly (rm : BitVec 2) (x y : F32) : QuietOnly (f32Add rm x y).1 := by
  unfold f32Add
  split
  · exact fun _ => rfl
  · exact fun _ => rfl
  · split
    · exact quietOnly_of_ne_nan (f32Val_f32Inf _)
    · exact fun _ => rfl
  · exact quietOnly_of_ne_nan (f32Val_f32Inf _)
  · exact quietOnly_of_ne_nan (f32Val_f32Inf _)
  · refine quietOnly_of_ne_nan (f32Val_f32OfInt _ _ _ ?_)
    split <;> exact f32Val_f32Zero _

theorem f32Add_fin (rm : BitVec 2) {x y : F32} {m e n f : Int} (hx : f32Val x = .fin m e) (hy : f32Val y = .fin n f)
    (h : m * 2 ^ (e - min e f).toNat + n * 2 ^ (f - min e f).toNat ≠ 0) (zero : F32) :
    f32Add rm x y = f32OfInt rm (m * 2 ^ (e - min e f).toNat + n * 2 ^ (f - min e f).toNat) (min e f) zero := by
  unfold f32Add
  rw [hx, hy]
  exact f32OfInt_of_ne_zero rm _ _ _ h

theorem f32Sub_of_number (rm : BitVec 2) (x : F32) {y : F32} (h : f32Val y ≠ .nan) :
    f32Sub rm x y = f32Add rm x (y ^^^ 0x80000000) := by
  rw [f32Sub, Claims.f32Nan_eq_false h]; rfl

theorem f32Sub_of_nan (rm : BitVec 2) (x : F32) {y : F32} (h : f32Val y = .nan) : (f32Sub rm x y).1 = 0x7FC00000 := by
  rw [f32Sub, f32Nan, h]; rfl

theorem f32Sub_nan (rm : BitVec 2) {x y : F32} (h : f32Val x = .nan ∨ f32Val y = .nan) : (f32Sub rm x y).1 = 0x7FC00000 := by
  by_cases hy : f32Val y = .nan
  · exact f32Sub_of_nan rm x hy
  · rw [f32Sub_of_number rm x hy]
    exact f32Add_nan rm (.inl (h.resolve_right hy))

theorem f32Sub_quietOnly (rm : BitVec 2) (x y : F32) : QuietOnly (f32Sub rm x y).1 := by
  by_cases hy : f32Val y = .nan
  · exact fun _ => f32Sub_of_nan rm x hy
  · rw [f32Sub_of_number rm x hy]
    exact f32Add_quietOnly _ _ _

theorem f32Mul_nan (rm : BitVec 2) {x y : F32} (h : f32Val x = .nan ∨ f32Val y = .nan) : (f32Mul rm x y).1 = 0x7FC00000 := by
  unfold f32Mul
  obtain h | h := h
  · rw [h]; rfl
  · rw [h]; cases f32Val x <;> rfl

theorem f32Mul_quietOnly (rm : BitVec 2) (x y : F32) : QuietOnly (f32Mul rm x y).1 := by
  unfold f32Mul
  dsimp only
  split
  iterate 4 exact fun _ => rfl
  · exact quietOnly_of_ne_nan (f32Val_f32Inf _)
  · exact quietOnly_of_ne_nan (f32Val_f32Inf _)
  · exact quietOnly_of_ne_nan (f32Val_f32OfInt _ _ _ (f32Val_f32Zero _))

theorem f32Mul_fin (rm : BitVec 2) {x y : F32} {m e n f : Int} (hx : f32Val x = .fin m e) (hy : f32Val y = .fin n f)
    (h : m * n ≠ 0) (zero : F32) : f32Mul rm x y = f32OfInt rm (m * n) (e + f) zero := by
  unfold f32Mul
  rw [hx, hy]
  exact f32OfInt_of_ne_zero rm _ _ _ h

theorem f32Fma_nan (rm : BitVec 2) {x y z : F32} (h : f32Val x = .nan ∨ f32Val y = .nan ∨ f32Val z = .nan) :
    (f32Fma rm x y z).1 = 0x7FC00000 := by
  unfold f32Fma
  dsimp only
  split
  iterate 7 rfl
  all_goals simp_all

theorem f32Fma_quietOnly (rm : BitVec 2) (x y z : F32) : QuietOnly (f32Fma rm x y z).1 := by
  have hinf : ∀ s sp : Bool, QuietOnly (if s = sp then (f32Inf s, 0) else (qnan32, ffInvalid) : FRes).1 := fun s sp => by
    split
    · exact quietOnly_of_ne_nan (f32Val_f32Inf s)
    · exact fun _ => rfl
  unfold f32Fma
  dsimp only
  split
  iterate 7 exact fun _ => rfl
  · exact hinf _ _
  · exact hinf _ _
  iterate 3 exact quietOnly_of_ne_nan (f32Val_f32Inf _)
  · refine quietOnly_of_ne_nan (f32Val_f32OfInt _ _ _ ?_)
    split <;> exact f32Val_f32Zero _

theorem f32Fma_fin (rm : BitVec 2) {x y z : F32} {m e n f k g : Int} (hx : f32Val x = .fin m e) (hy : f32Val y = .fin n f)
    (hz : f32Val z = .fin k g)
    (h : m * n * 2 ^ (e + f - min (e + f) g).toNat + k * 2 ^ (g - min (e + f) g).toNat ≠ 0) (zero : F32) :
    f32Fma rm x y z = f32OfInt rm (m * n * 2 ^ (e + f - min (e + f) g).toNat + k * 2 ^ (g - min (e + f) g).toNat)
      (min (e + f) g) zero := by
  unfold f32Fma
  rw [hx, hy, hz]
  exact f32OfInt_of_ne_zero rm _ _ _ h

end Sys2Proof.Machine

namespace Sys2Proof.Claims
open Sys2Proof.Machine

/-! ### Vector FP32 instructions (R102) -/

variable {s : State} {i : Issue} {vd va vb vc : VReg}

/-- Results of sixteen lanes: the flags are added, the values are a vector's lanes. -/
theorem withFlags_range (k : Core) (r : Nat → FRes) :
    k.withFlags ((List.range 16).map r) = (k.addFlags (flagsOf fun j => (r j).2), vecOf fun j => (r j).1) := by
  rw [Core.withFlags, List.foldl_map, foldl_or_eq, List.map_map]
  rfl

/-- A vector FP32 instruction of two sources gives what `f` makes of each lane. -/
theorem runs_of_fpOp {f : BitVec 2 → F32 → F32 → FRes} {r : Nat → FRes} (c : Issue → Instr)
    (hx : exec (c i) s = fpOp i (c (lone i)) vd va vb f s) (hI : Issues s i (vectorInsn unitVec vd [va, vb]))
    (hr : ∀ j, f (s.core i.core).frm (lane ((s.core i.core).vreg va) j) (lane ((s.core i.core).vreg vb) j) = r j) :
    Runs i (c i) s (WritesVec s i (vectorInsn unitVec vd [va, vb]) vd (vecOf fun j => (r j).1) (flagsOf fun j => (r j).2)) := by
  refine runs_of_issueVec c hx hI fun k hv hfrm => ?_
  have hlanes : lanes2 (f k.frm) (k.vreg va) (k.vreg vb) = (List.range 16).map r := by
    rw [lanes2, zipWith_lanes32, hv, hv, hfrm, funext hr]
  rw [hlanes, withFlags_range]

theorem zipWith_three_lanes32 (f : F32 → F32 → F32 → FRes) (a b c : Vec) :
    List.zipWith (fun (g : F32 → FRes) z => g z) (List.zipWith f (lanes32 a) (lanes32 b)) (lanes32 c) =
      (List.range 16).map fun j => f (lane a j) (lane b j) (lane c j) := by
  rw [lanes32_eq a, lanes32_eq b, lanes32_eq c, zipWith_range, zipWith_range]

theorem runs_of_vfma (hI : Issues s i (vectorInsn unitVec vd [va, vb, vc])) :
    let k := s.core i.core
    let r := fun j => f32Fma k.frm (lane (k.vreg va) j) (lane (k.vreg vb) j) (lane (k.vreg vc) j)
    Runs i (.vfma i vd va vb vc) s
      (WritesVec s i (vectorInsn unitVec vd [va, vb, vc]) vd (vecOf fun j => (r j).1) (flagsOf fun j => (r j).2)) := by
  intro k r
  refine runs_of_issueVec (fun i => .vfma i vd va vb vc) rfl hI fun k' hv hfrm => ?_
  have hlanes := zipWith_three_lanes32 (f32Fma k'.frm) (k'.vreg va) (k'.vreg vb) (k'.vreg vc)
  have hr : (fun j => f32Fma k'.frm (lane (k'.vreg va) j) (lane (k'.vreg vb) j) (lane (k'.vreg vc) j)) = r := by
    rw [hv, hv, hv, hfrm]
  rw [hr] at hlanes
  exact (congrArg k'.withFlags hlanes).trans (withFlags_range ..)

theorem f32MinMax_cases (big : Bool) {x y : F32} (hx : f32Val x ≠ .nan) (hy : f32Val y ≠ .nan) :
    ((f32MinMax big x y).1 = x ∨ (f32MinMax big x y).1 = y) ∧ (f32MinMax big x y).2 = 0 := by
  rw [f32MinMax_of_numbers hx hy]
  exact ⟨(ite_eq_or_eq ..).symm, rfl⟩

end Sys2Proof.Claims

section
open Sys2Proof Sys2Proof.Machine Sys2Proof.Claims

/-- Settles O17: the results of FP32 arithmetic case by case, then each instruction lane by lane. -/
theorem vectorFloatLaneByLane : Obligations.VectorFloatLaneByLane := by
  refine ⟨?_, fun rm x y z => ⟨f32Fma_nan rm, f32Fma_quietOnly rm x y z⟩, ?_, ?_, f32Sub_of_number, ?_, ?_⟩
  · simp only [List.forall_mem_cons]
    refine ⟨?_, ?_, ?_, by simp⟩
    · exact fun rm x y => ⟨f32Add_nan rm, f32Add_quietOnly rm x y⟩
    · exact fun rm x y => ⟨f32Sub_nan rm, f32Sub_quietOnly rm x y⟩
    · exact fun rm x y => ⟨f32Mul_nan rm, f32Mul_quietOnly rm x y⟩
  · exact fun rm x y m e n f zero hx hy => ⟨(f32Add_fin rm hx hy · zero), (f32Mul_fin rm hx hy · zero)⟩
  · exact fun rm x y z m e n f k g hx hy hz h zero => f32Fma_fin rm hx hy hz h zero
  · exact fun big x y hx hy => f32MinMax_cases big hx hy
  · intro s i vd va vb vc func
    refine ⟨runs_of_vfma, fun hI => ⟨?_, ?_, ?_, ?_, ?_, ?_⟩⟩
    · exact runs_of_fpOp (f := f32Add) (fun i => .vadd i vd va vb) rfl hI fun _ => rfl
    · exact runs_of_fpOp (f := f32Sub) (fun i => .vsub i vd va vb) rfl hI fun _ => rfl
    · exact runs_of_fpOp (f := f32Mul) (fun i => .vmul i vd va vb) rfl hI fun _ => rfl
    · exact runs_of_fpOp (f := fun _ => f32MinMax false) (fun i => .vmin i vd va vb) rfl hI fun _ => rfl
    · exact runs_of_fpOp (f := fun _ => f32MinMax true) (fun i => .vmax i vd va vb) rfl hI fun _ => rfl
    · exact runs_of_fpOp (f := fun _ => f32Cmp func.toNat) (fun i => .vcmp i vd va vb func) rfl hI fun _ => rfl

end

namespace Sys2Proof.Machine

/-! ### Transcendental functions of FP32 numbers (R104) -/

/-- A finite FP32 number is a multiple of 2^−149, and one of value zero is a zero. -/
theorem f32Val_fin {x : F32} {m e : Int} (h : f32Val x = .fin m e) : -149 ≤ e ∧ (m = 0 → x.toNat % 2 ^ 31 = 0) := by
  have hex : fieldN x.toNat 23 8 = x.toNat / 2 ^ 23 % 2 ^ 8 := rfl
  have hman : fieldN x.toNat 0 23 = x.toNat % 2 ^ 23 := by simp [fieldN]
  simp only [f32Val, decodeFloat] at h
  generalize fieldN x.toNat 23 8 = ex, fieldN x.toNat 0 23 = man at *
  generalize hsg : (if x.toNat.testBit (8 + 23) = true then (-1 : Int) else 1) = sg at h
  have hsg' : sg = 1 ∨ sg = -1 := by rw [← hsg]; exact (ite_eq_or_eq ..).symm
  split at h
  · cases h
  · split at h
    · cases h
    · split at h
      · next h0 =>
        injection h with hm he
        refine ⟨by omega, fun h' => ?_⟩
        obtain rfl | rfl := hsg' <;> omega
      · next h0 =>
        injection h with hm he
        refine ⟨by omega, fun h' => ?_⟩
        obtain rfl | rfl := hsg' <;> omega

/-- A zero is one of the two zeros. -/
theorem eq_f32Zero {x : F32} {e : Int} (h : f32Val x = .fin 0 e) : f32Zero (f32Neg x) = x := by
  have hx : x.toNat % 2 ^ 31 = 0 := (f32Val_fin h).2 rfl
  have hneg : f32Neg x = decide (2 ^ 31 ≤ x.toNat) := by
    rw [f32Neg, ← BitVec.msb_eq_getLsbD_last, BitVec.msb_eq_decide]
  apply BitVec.eq_of_toNat_eq
  have hlt := x.isLt
  rw [f32Zero_toNat, hneg]
  split
  · next h' => rw [decide_eq_true_eq] at h'; omega
  · next h' => rw [decide_eq_true_eq] at h'; omega

theorem f32Sqrt_invalid {x : F32} (h : f32Val x = .nan ∨ f32Val x = .inf true ∨ ∃ m e, f32Val x = .fin m e ∧ m < 0) :
    f32Sqrt x = 0x7FC00000 := by
  unfold f32Sqrt
  obtain h | h | ⟨m, e, h, hm⟩ := h
  · rw [h]; rfl
  · rw [h]; rfl
  · rw [h]
    dsimp only
    rw [if_neg (by omega), if_pos hm]
    rfl

theorem f32Sqrt_zero {x : F32} {e : Int} (h : f32Val x = .fin 0 e) : f32Sqrt x = x := by
  unfold f32Sqrt
  rw [h]
  exact if_pos rfl

theorem f32Exp2_overflow {x : F32} {m e : Int} (h : f32Val x = .fin m e)
    (hm : 0 ≤ m * 2 ^ (e + 149).toNat - 128 * 2 ^ 149) : f32Exp2 x = 0x7F800000 := by
  have he := (f32Val_fin h).1
  have hpow : fixVal m e = m * 2 ^ (e + 149).toNat * 2 ^ 11 := by
    rw [fixVal, mul_assoc, ← pow_add]
    congr 2
    omega
  have hge : 128 * (fixOne : Int) ≤ fixVal m e := by
    rw [hpow, fixOne]
    push_cast
    omega
  unfold f32Exp2
  rw [h]
  exact if_pos hge

theorem f32Log2_one : f32Log2 0x3F800000 = 0 := by decide +kernel

theorem f32SinPi_zero {x : F32} {e : Int} (h : f32Val x = .fin 0 e) : f32SinPi x = x := by
  have hzero : sinPiOf 5 x (fixVal 0 e) = f32Zero (f32Neg x) := by
    rw [fixVal, zero_mul]
    simp [sinPiOf]
  unfold f32SinPi
  rw [h]
  exact hzero.trans (eq_f32Zero h)

theorem f32Tanh_zero {x : F32} {e : Int} (h : f32Val x = .fin 0 e) : f32Tanh x = x := by
  unfold f32Tanh
  rw [h]
  exact if_pos (by simp [fixVal])

end Sys2Proof.Machine

namespace Sys2Proof.Claims
open Sys2Proof.Machine

/-! ### Conversions of lanes (R104) -/

theorem getD_map_lanesOf {w w' : Nat} (f : BitVec w → BitVec w') (v : Vec) {j : Nat} (hj : j < 512 / w) :
    ((lanesOf w v).map f).getD j 0 = f (v.extractLsb' (w * j) w) := by
  simp [lanesOf, List.getD_eq_getElem?_getD, hj]

/-- The low lanes of a narrowed vector are the lanes given. -/
theorem extract_narrowed (a b : Vec) (l : List (BitVec 16)) {j : Nat} (hj : j < 16) :
    (narrowed a b l).extractLsb' (16 * j) 16 = l.getD j 0 := by
  rw [← extract_ofLanes (by decide) l j (by omega)]
  apply BitVec.eq_of_getLsbD_eq
  intro i hi
  have hlow : 16 * j + i < 256 := by omega
  simp [narrowed, hlow]

theorem narrowed_map_lanes (a b : Vec) (f : F32 → BitVec 16) {j : Nat} (hj : j < 16) :
    (narrowed a b ((lanes32 a).map f)).extractLsb' (16 * j) 16 = f (lane a j) := by
  rw [extract_narrowed a b _ hj]
  exact getD_map_lanesOf (w := 32) f a hj

/-- A widening conversion reads the lanes of one half. -/
theorem lane_widened (kind : Nat) (a : Vec) (f : BitVec 16 → F32) : ∃ half, (half = 0 ∨ half = 16) ∧ ∀ j, j < 16 →
    lane (ofLanes ((widened kind a).map f)) j = f (a.extractLsb' (16 * (half + j)) 16) := by
  by_cases h : Config.vcvtHigh kind = true
  · refine ⟨16, .inr rfl, fun j hj => ?_⟩
    rw [lane, extract_ofLanes (by decide) _ j (by omega), widened, if_pos h]
    simp [lanesOf, List.getD_eq_getElem?_getD, hj]
  · refine ⟨0, .inl rfl, fun j hj => ?_⟩
    rw [lane, extract_ofLanes (by decide) _ j (by omega), widened, if_neg h]
    simp [lanesOf, List.getD_eq_getElem?_getD, hj]

/-! ### Packed blocks (R104, R135) -/

/-- A digit of a number whose lowest digits are `l`. -/
theorem ofDigits_digit {b : Nat} (hb : 0 < b) (l : List Nat) (hl : ∀ x ∈ l, x < b) (c : Nat) {j : Nat} (hj : j < l.length) :
    (Nat.ofDigits b l + b ^ l.length * c) / b ^ j % b = l[j] := by
  induction l generalizing j with
  | nil => simp at hj
  | cons x l ih =>
    have hx : x < b := hl x List.mem_cons_self
    have hsplit : Nat.ofDigits b (x :: l) + b ^ (x :: l).length * c = x + b * (Nat.ofDigits b l + b ^ l.length * c) := by
      rw [Nat.ofDigits_cons, List.length_cons]; ring
    rw [hsplit]
    cases j with
    | zero => simp [Nat.mod_eq_of_lt hx]
    | succ j =>
      rw [pow_succ', ← Nat.div_div_eq_div_mul, Nat.add_mul_div_left _ _ hb, Nat.div_eq_of_lt hx, Nat.zero_add]
      exact ih (fun y hy => hl y (List.mem_cons_of_mem x hy)) (by simpa using hj)

theorem sum_zipIdx_eq_ofDigits (w : Nat) (l : List Nat) :
    (l.zipIdx.map fun e => e.1 * 2 ^ (w * e.2)).sum = Nat.ofDigits (2 ^ w) l := by
  rw [Nat.ofDigits_eq_sum_mapIdx, List.mapIdx_eq_zipIdx_map]
  simp only [pow_mul]

/-- Bits below `k` of a vector do not see what is shifted in above. -/
theorem toNat_or_shiftLeft_field (n : Nat) (r : Vec) {k p q : Nat} (hk : p + q ≤ k) (h512 : k ≤ 512) :
    (BitVec.ofNat 512 n ||| r <<< k).toNat / 2 ^ p % 2 ^ q = n / 2 ^ p % 2 ^ q := by
  apply Nat.eq_of_testBit_eq
  intro i
  rw [Nat.testBit_mod_two_pow, Nat.testBit_mod_two_pow, Nat.testBit_div_two_pow, Nat.testBit_div_two_pow]
  by_cases hi : i < q
  · have h1 : i + p < k := by omega
    have h2 : i + p < 512 := by omega
    simp only [BitVec.testBit_toNat, BitVec.getLsbD_or, BitVec.getLsbD_shiftLeft, BitVec.getLsbD_ofNat]
    simp [hi, h1, h2]
  · simp only [hi, decide_false, Bool.false_and]

theorem elemBits_bounds (ty : Nat) (h : isMx ty = true) : 0 < elemBits ty ∧ elemBits ty ≤ 8 := by
  have hty : ty ≤ 5 := of_decide_eq_true h
  interval_cases ty <;> decide

/-- A fold that keeps its element or takes the next one gives one of the list. -/
theorem mem_of_foldl_eq_some {α : Type} {g : Option α → α → Option α} (hg : ∀ acc x c, g acc x = some c → acc = some c ∨ x = c)
    (l : List α) (acc : Option α) {c : α} (h : l.foldl g acc = some c) : acc = some c ∨ c ∈ l := by
  induction l generalizing acc with
  | nil => exact .inl h
  | cons x l ih =>
    obtain h' | h' := ih _ h
    · exact (hg _ _ _ h').imp_right fun (e : x = c) => e ▸ List.mem_cons_self
    · exact .inr (List.mem_cons_of_mem x h')

theorem bestCode_mem {ty : Nat} {better : Int → Int → Int → Int → Bool} {l : List Nat} {c : Nat}
    (h : bestCode ty better l = some c) : c ∈ l := by
  refine (mem_of_foldl_eq_some (fun acc x d hd => ?_) l none h).resolve_left (by simp)
  cases acc with
  | none => exact .inr (Option.some.inj hd)
  | some y =>
    dsimp only at hd
    split at hd
    · split at hd
      · exact .inr (Option.some.inj hd)
      · exact .inl hd
    · exact .inl hd

theorem getD_lt {l : List Nat} {n d : Nat} (hd : d < n) (hl : ∀ x ∈ l, x < n) (j : Nat) : l.getD j d < n := by
  rw [List.getD_eq_getElem?_getD]
  cases h : l[j]? with
  | none => exact hd
  | some x => exact hl x (List.mem_of_getElem? h)

theorem packElem_lt (ty scale : Nat) (x : F32) : packElem ty scale x < 2 ^ elemBits ty := by
  have hpos : 0 < 2 ^ elemBits ty := Nat.two_pow_pos _
  have hmem : ∀ better r, ∀ c ∈ (bestCode ty better (codesWith ty r)).toList, c < 2 ^ elemBits ty := fun better r c hc =>
    List.mem_range.mp (List.mem_filter.mp (bestCode_mem (Option.mem_toList.mp hc))).1
  unfold packElem
  split
  · exact getD_lt hpos (fun c hc => (List.mem_append.mp hc).elim (hmem _ _ c) (hmem _ _ c)) _
  · exact Nat.mod_lt _ hpos

/-- Element `j` of the two vectors that make a block. -/
theorem getElem_packed (f : F32 → Nat) (a b : Vec) {j : Nat} (hj : j < ((lanes32 a ++ lanes32 b).map f).length) :
    ((lanes32 a ++ lanes32 b).map f)[j] = f (if j < 16 then lane a j else lane b (j - 16)) := by
  rw [List.getElem_map, List.getElem_append]
  simp only [lanes32_eq, List.length_map, List.length_range]
  split <;> simp

/-- A packed block holds its scale byte above its 32 elements. -/
theorem packMx_fields (ty : Nat) (a b : Vec) (h : isMx ty = true) : ∃ scale, scale < 256 ∧
    (packMx ty a b).toNat / 2 ^ (32 * elemBits ty) % 256 = scale ∧
    ∀ j, j < 32 → (packMx ty a b).toNat / 2 ^ (elemBits ty * j) % 2 ^ elemBits ty =
      packElem ty scale (if j < 16 then lane a j else lane b (j - 16)) := by
  obtain ⟨hpos, hw⟩ := elemBits_bounds ty h
  have hscale : Config.packScale ty a b % 256 < 256 := Nat.mod_lt _ (by decide)
  rw [packMx, if_pos h]
  dsimp only
  generalize Config.packScale ty a b % 256 = scale at hscale ⊢
  have hl : ∀ x ∈ (lanes32 a ++ lanes32 b).map (packElem ty scale), x < 2 ^ elemBits ty := fun x hx => by
    obtain ⟨y, -, rfl⟩ := List.mem_map.mp hx
    exact packElem_lt ty scale y
  have hlen : ((lanes32 a ++ lanes32 b).map (packElem ty scale)).length = 32 := by simp [lanes32_eq]
  have hget := fun j hj => getElem_packed (packElem ty scale) a b (j := j) hj
  rw [sum_zipIdx_eq_ofDigits]
  generalize (lanes32 a ++ lanes32 b).map (packElem ty scale) = l at *
  generalize elemBits ty = w at *
  have hlt := Nat.ofDigits_lt_base_pow_length (Nat.one_lt_two_pow hpos.ne') hl
  have hbody : Nat.ofDigits (2 ^ w) l + scale * 2 ^ (32 * w) = Nat.ofDigits (2 ^ w) l + (2 ^ w) ^ l.length * scale := by
    rw [hlen, ← pow_mul, Nat.mul_comm w, Nat.mul_comm scale]
  refine ⟨scale, hscale, ?_, fun j hj => ?_⟩
  · rw [show 256 = 2 ^ 8 from rfl, toNat_or_shiftLeft_field _ _ (by omega) (by omega), hbody, Nat.mul_comm 32, pow_mul, ← hlen,
      Nat.add_mul_div_left _ _ (by positivity), Nat.div_eq_of_lt hlt, Nat.zero_add,
      Nat.mod_eq_of_lt (b := 2 ^ 8) hscale]
  · rw [toNat_or_shiftLeft_field _ _ (by nlinarith) (by omega), hbody, pow_mul, ofDigits_digit (by positivity) l hl scale (by omega)]
    exact hget j (by omega)

/-! ### Conversions and transcendental functions run (R88, R104) -/

variable {s : State} {i : Issue} {vd va vb : VReg}

/-- An instruction of the transcendental unit writes what `f` makes of each lane. -/
theorem runs_of_xuOp {op : Nat} {f : F32 → F32} (c : Issue → Instr) (hx : exec (c i) s = xuOp i (c (lone i)) op vd va f s)
    (hI : Issues s i (vectorInsn unitXu vd [va])) :
    Runs i (c i) s (WritesVec s i (vectorInsn unitXu vd [va]) vd (vecOf fun j => f (lane ((s.core i.core).vreg va) j))
      (openFlags op ((s.core i.core).vreg va))) := by
  refine runs_of_issueVec c hx hI fun k hv _ => ?_
  rw [hv, lanes32_eq, List.map_map]
  rfl

theorem runs_of_vcvt (kind : Cvt) (hI : Issues s i (vectorInsn unitVec vd [va, vb])) :
    Runs i (.vcvt i kind vd va vb) s (WritesVec s i (vectorInsn unitVec vd [va, vb]) vd
      (convertVec kind ((s.core i.core).vreg va) ((s.core i.core).vreg vb)) (openFlags 8 ((s.core i.core).vreg va))) := by
  refine runs_of_issueVec (fun i => .vcvt i kind vd va vb) rfl hI fun k hv _ => ?_
  rw [hv, hv]
  rfl

theorem runs_of_vpackMx (elem : BitVec 4) (hI : Issues s i (vectorInsn unitVec vd [va, vb])) :
    Runs i (.vpackMx i elem vd va vb) s (WritesVec s i (vectorInsn unitVec vd [va, vb]) vd
      (packMx elem.toNat ((s.core i.core).vreg va) ((s.core i.core).vreg vb)) 0) :=
  runs_of_issueVec_no_flags (fun i => .vpackMx i elem vd va vb) rfl hI fun k hv => by rw [hv, hv]

end Sys2Proof.Claims

section
open Sys2Proof Sys2Proof.Machine Sys2Proof.Claims

/-- Settles O20: the exact values by the cases of each function, the lanes of VCVT and VPACK.MX, then the instructions. -/
theorem conversionsAndTranscendentals : Obligations.ConversionsAndTranscendentals := by
  refine ⟨fun x => ⟨f32Sqrt_invalid, fun e => f32Sqrt_zero⟩, fun x m e => f32Exp2_overflow, f32Log2_one,
    fun x e h => ⟨f32SinPi_zero h, f32Tanh_zero h⟩,
    fun a b j hj => ⟨narrowed_map_lanes a b _ hj, narrowed_map_lanes a b _ hj⟩, fun a b => lane_widened 0 a _,
    fun a b => lane_widened 1 a _, packMx_fields, fun s i vd va vb kind elem => ⟨fun hI => ?_, fun hI => ?_⟩⟩
  · refine ⟨?_, ?_, ?_, ?_, ?_, ?_, ?_, ?_⟩
    · exact runs_of_xuOp (fun i => .xexp2 i vd va) rfl hI
    · exact runs_of_xuOp (fun i => .xlog2 i vd va) rfl hI
    · exact runs_of_xuOp (fun i => .xrcp i vd va) rfl hI
    · exact runs_of_xuOp (fun i => .xrsqrt i vd va) rfl hI
    · exact runs_of_xuOp (fun i => .xsqrt i vd va) rfl hI
    · exact runs_of_xuOp (fun i => .xsinpi i vd va) rfl hI
    · exact runs_of_xuOp (fun i => .xcospi i vd va) rfl hI
    · exact runs_of_xuOp (fun i => .xtanh i vd va) rfl hI
  · exact ⟨runs_of_vcvt kind hI, runs_of_vpackMx elem hI⟩

end

namespace Sys2Proof.Claims
open Sys2Proof.Machine

/-! ### What an instruction stores in the own cluster (R83, R105, R109) -/

variable {s u : State} {i : Issue} {insn : Insn} {c : Instr} {body : State → Core → Did}

/-- The low `k` bytes of `v` stand at module address `p`; nothing else but accounts and the SRAM's record of written words
differs. -/
def WritesMem (s : State) (p k v : Nat) (u : State) : Prop :=
  (∀ x, Memory.byte u.mem x =
    if p ≤ x ∧ x < p + k then BitVec.ofNat 8 (v / 256 ^ (x - p)) else Memory.byte s.mem x) ∧
  (∀ w, u.sramDisc w = s.sramDisc w) ∧ (∀ j, u.core j = s.core j) ∧ SameButCharges s u ∧ s.SameGuards u ∧
  u = { s with
    bights := u.bights, queues := u.queues, dict := u.dict, energy := u.energy
    mem := u.mem, sramCheck := u.sramCheck, sram := u.sram }

/-- An instruction that stores in the own cluster and changes registers of its core as `post` says retires with that done. -/
theorem stored_of_done {p k v : Nat} {post : Core → Core} (hI : Issues s i insn) (hm : (s.core i.core).mayIssue c = true)
    (hpost : ∀ (c : Core) (j : Bool) (pc : Word), post (c.retire insn j pc) = (post c).retire insn j pc)
    (hb : body (s.fetching i insn) (s.issuer i insn) = .done (u.modCore i.core post) none)
    (h : WritesMem (s.fetching i insn) p k v u) : Stored s i insn p k v post (s.issue i c insn body) := by
  obtain ⟨hs, hf, hx⟩ := hI
  have hg := s.fetching_guards i insn
  obtain ⟨hbytes, hdisc, hcore, hch, hgu, hu⟩ := h
  rw [State.issue_done hs hm hf hx hb, Option.getD_none]
  obtain ⟨cores, ht, htc⟩ := u.modCore_modCore i.core post
    fun k => k.retire insn (s.joins i insn) ((s.issuer i insn).pc + 4)
  rw [ht]
  refine ⟨fun x => ?_, fun w => (hdisc w).trans (s.fetching_sramDisc i insn w), fun j => ?_, hch.congr rfl rfl rfl rfl,
    hgu.retired.trans hg.retired, hgu.flipHi.trans hg.flipHi, ?_⟩
  · exact (hbytes x).trans (by rw [State.fetching_mem])
  · rw [htc, ← hpost]
    by_cases hj : j = i.core
    · rw [if_pos hj, if_pos hj, hcore, pcOf_eq, issuer_eq]
    · rw [if_neg hj, if_neg hj, hcore, State.core_fetching_other s i insn hj]
  · exact with_cores_of_stored hu cores

/-! ### Atomics (R109) -/

theorem sameButCharges_trans {s t u : State} (h : SameButCharges s t) (h' : SameButCharges t u) : SameButCharges s u := by
  obtain ⟨h1, h2, h3, h4, h5⟩ := h
  obtain ⟨g1, g2, g3, g4, g5⟩ := h'
  refine ⟨fun b => (g1 b).trans (h1 b), ?_, fun q => (g3 q).trans (h3 q), ?_, ?_⟩
  · rw [g2, h2]
  · rw [g4, h4]
  · rw [g5, h5]

theorem activity_sramDisc (s : State) (m : Meter) (a : Activity) (n : Nat) (pay : Payer) (w : Nat) :
    (s.activity m a n pay).sramDisc w = s.sramDisc w := by
  rw [State.activity_frame]; rfl

theorem activity_sramWord (s : State) (m : Meter) (a : Activity) (n : Nat) (pay : Payer) (w : Nat) :
    (s.activity m a n pay).sramWord w = s.sramWord w := by
  rw [State.sramWord, State.activity_mem]; rfl

section
variable {p k v : Nat} (m : Meter) (a : Activity) (n : Nat) (pay : Payer)

/-- Counting an activity after a store changes accounts only. -/
theorem WritesMem.charge_after (h : WritesMem s p k v u) : WritesMem s p k v (u.activity m a n pay) := by
  obtain ⟨hbytes, hdisc, hcore, hch, hg, hu⟩ := h
  refine ⟨fun x => ?_, fun w => ?_, fun j => ?_, sameButCharges_trans hch (sameButCharges_activity ..),
    hg.trans (u.activity_guards ..), ?_⟩
  · rw [State.activity_mem]; exact hbytes x
  · rw [activity_sramDisc]; exact hdisc w
  · rw [State.activity_core]; exact hcore j
  · rw [State.activity_frame]
    generalize (u.activity m a n pay).dict.activity = d, (u.activity m a n pay).energy.dieModel = e,
      (u.activity m a n pay).energy.counts = e', (u.activity m a n pay).bights.tab = b, (u.activity m a n pay).queues = q
    generalize u.bights = b0, u.queues = q0, u.dict = d0, u.energy = e0, u.mem = m0, u.sramCheck = k0, u.sram = r0 at hu ⊢
    subst hu
    rfl

/-- Counting an activity before a store changes accounts only. -/
theorem WritesMem.charge_before (h : WritesMem (s.activity m a n pay) p k v u) : WritesMem s p k v u := by
  obtain ⟨hbytes, hdisc, hcore, hch, hg, hu⟩ := h
  refine ⟨fun x => ?_, fun w => ?_, fun j => ?_, sameButCharges_trans (sameButCharges_activity ..) hch,
    (s.activity_guards ..).trans hg, ?_⟩
  · rw [hbytes, State.activity_mem]
  · rw [hdisc, activity_sramDisc]
  · rw [hcore, State.activity_core]
  · rw [State.activity_frame] at hu
    exact hu

end

/-- A write of a word that is not retired, holds valid check bits and awaits no flip mask. -/
theorem writesMem_writeSram {p : Nat} {w : Word} (hp : p % 8 = 0) (hr : s.retiredWord (p / 8) = false)
    (hd : s.sramDisc (p / 8) = 0) (hf : s.flipFor (wordCluster (p / 8)) (wordBank (p / 8)) = none) :
    WritesMem s p 8 w.toNat (s.writeSram (p / 8) w) := by
  obtain ⟨r, e, hret, hhi, hlo⟩ := State.writeSram_clean hr hf w
  rw [e]
  refine ⟨fun x => ?_, fun x => ?_, fun _ => rfl, ⟨fun _ => rfl, rfl, fun _ => rfl, rfl, rfl⟩, ⟨hret, hhi, hlo⟩, rfl⟩
  · have hlen : (wordBytes w).length = 8 := leBytes_length 8 _
    rw [Memory.byte_write, hlen, show 8 * (p / 8) = p by omega]
    split
    · exact leBytes_getD 8 _ _ (by omega)
    · rfl
  · show Tab.look 0 (Tab.put 0 s.sramCheck (p / 8) 0) x = Tab.look 0 s.sramCheck x
    rw [Tab.look_put]
    split
    · next hx => rw [hx]; exact hd.symm
    · rfl

theorem amoSram_clean {agent wa : Nat} {f : Word → Word} (hr : s.retiredWord wa = false) (hd : s.sramDisc wa = 0) :
    s.amoSram agent wa f = (some (s.sramWord wa), s.writeSram wa (f (s.sramWord wa))) := by
  unfold State.amoSram
  rw [if_neg (by simp [hr]), State.readSram_clean hr hd]

/-- What the issue rule sees of an atomic. -/
abbrev amoInsn (rd rs1 rs2 : SReg) : Insn :=
  { unit := unitLsu, reads := [sName rs1, sName rs2, sName rd], writes := [sName rd], acts := true }

/-- The address of an atomic is aligned and of the own cluster's shared memory. -/
abbrev AmoFits (a : Word) : Prop := a.toNat % 8 = 0 ∧ 0x4000000 ≤ a.toNat ∧ a.toNat < 0x6000000

/-- An atomic at an aligned offset of the own cluster, over a word that is fit for it, stores what `f` makes of the old word, which
goes to `rd`. -/
theorem amoAt_stores {core p : Nat} {a : Word} {rd : SReg} {f : Word → Word} (hc : core < 8192) (h8 : a.toNat % 8 = 0)
    (ha : a.toNat < 0x6000000) (hl : s.sramLive (clusterOf core) = true) (hp : p = sramAddr (clusterOf core) a.toNat)
    (hr : s.retiredWord (p / 8) = false) (hd : s.sramDisc (p / 8) = 0)
    (hf : s.flipFor (wordCluster (p / 8)) (wordBank (p / 8)) = none) :
    ∃ u, s.amoAt core a rd f = .done (u.modCore core fun k => k.setReg rd (s.sramWord (p / 8))) none ∧
      WritesMem s p 8 (f (s.sramWord (p / 8))).toNat u := by
  have hp8 : p % 8 = 0 := by rw [hp]; unfold sramAddr sramBase sramStride; omega
  have he := State.accessError_own (s := s) (n := 8) (clusterOf_lt hc) (by decide)
    (show a.toNat + 8 ≤ sramUsed by unfold sramUsed; omega) hl
  unfold State.amoAt
  dsimp only
  rw [he, ← hp]
  dsimp only
  generalize Meter.cluster (clusterOf core) = meter, s.clusterPayer (clusterOf core) = payer
  have hg := s.activity_guards meter (.sramRead 8) 1 payer
  have hr' := (hg.retiredWord (p / 8)).trans hr
  have hf' := (hg.flipFor (wordCluster (p / 8)) (wordBank (p / 8))).trans hf
  have hd' := (activity_sramDisc s meter (.sramRead 8) 1 payer (p / 8)).trans hd
  rw [amoSram_clean hr' hd', activity_sramWord]
  exact ⟨_, rfl, .charge_after _ _ _ _ (.charge_before _ _ _ _ (writesMem_writeSram hp8 hr' hd' hf'))⟩

/-- An atomic that fits leaves the old word in `rd` and what `f` makes of it in memory. -/
theorem runs_of_amoOp {rd rs1 rs2 : SReg} {f : Word → Word → Word → Word} {new : Word} {p : Nat} (c : Issue → Instr)
    (hx : exec (c i) s = amoOp i (c (lone i)) rd rs1 rs2 f s) (hI : Issues s i (amoInsn rd rs1 rs2)) (hc : i.core < 8192)
    (hfit : AmoFits ((s.core i.core).reg rs1)) (hp : p = sramAddr (clusterOf i.core) ((s.core i.core).reg rs1).toNat)
    (hclean : CleanSram s p 8) (hflip : NoFlip s p 8)
    (hnew : f ((s.core i.core).reg rd) (s.sramWord (p / 8)) ((s.core i.core).reg rs2) = new) :
    Runs i (c i) s (Stored s i (amoInsn rd rs1 rs2) p 8 new.toNat fun k => k.setReg rd (s.sramWord (p / 8))) := by
  obtain ⟨h8, hlo, hhi⟩ := hfit
  obtain ⟨hr, hd, hf⟩ := fetching_fit (i := i) (insn := amoInsn rd rs1 rs2) hclean hflip (p / 8) (le_refl _) (by omega)
  have hl : (s.fetching i (amoInsn rd rs1 rs2)).sramLive (clusterOf i.core) = true := by
    rw [State.fetching_sramLive, State.sramLive_of_starts hI.1]
  have hw : (s.fetching i (amoInsn rd rs1 rs2)).sramWord (p / 8) = s.sramWord (p / 8) := by
    rw [State.sramWord, State.fetching_mem]; rfl
  refine runs_of_issue c hx fun hm => ?_
  obtain ⟨u, e, hu⟩ := amoAt_stores (rd := rd) (f := fun old => f ((s.core i.core).reg rd) old ((s.core i.core).reg rs2))
    hc h8 hhi hl hp hr hd hf
  rw [hw] at e hu
  rw [hnew] at hu
  refine stored_of_done hI hm (fun k j pc => k.setReg_retire rd _ _ j pc) ?_ hu
  simp only [State.issuer_reg]
  rw [if_neg (by simp [h8, hlo, hhi])]
  exact e

/-- An atomic of any other address raises ATOMIC_ADDR. -/
theorem runs_of_amoOp_unfit {rd rs1 rs2 : SReg} {f : Word → Word → Word → Word} (c : Issue → Instr)
    (hx : exec (c i) s = amoOp i (c (lone i)) rd rs1 rs2 f s) (hI : Issues s i (amoInsn rd rs1 rs2))
    (hfit : ¬ AmoFits ((s.core i.core).reg rs1)) :
    Runs i (c i) s (Excepts s i (c (lone i)) (amoInsn rd rs1 rs2) 0x07 ((s.core i.core).reg rs1)) := by
  refine runs_of_issue c hx fun hm => excepts_of_raise (sub := 0) (unit := unitLsu) hI rfl hm (by decide) ?_
  simp only [State.issuer_reg]
  refine if_pos ?_
  rw [Bool.not_eq_true', Bool.eq_false_iff]
  simpa [and_assoc] using hfit

/-- What a retired atomic leaves of the registers of its core. -/
theorem core_of_stored {p k v : Nat} {rd : SReg} {w : Word} {t : State} (h : Stored s i insn p k v (fun k => k.setReg rd w) t) :
    (∀ r, (t.core i.core).reg r = if r = rd ∧ r.val ≠ 0 then w else (s.core i.core).reg r) ∧
    t.core i.core = { (s.issuer i insn).retire insn (s.joins i insn) (pcOf s i insn + 4) with s := (t.core i.core).s } ∧
    ∀ j, j ≠ i.core → t.core j = s.core j := by
  obtain ⟨-, -, hcore, -⟩ := h
  have hk := (hcore i.core).trans (if_pos rfl)
  refine ⟨fun r => ?_, ?_, fun j hj => (hcore j).trans (if_neg hj)⟩
  · rw [hk, Core.reg_setReg, Core.retire_reg, State.issuer_reg]
  · rw [hk]; exact Core.setReg_frame ..

/-- The greater of two words, as AMOMAX takes it: signed or unsigned (log 5). -/
def amoMax (old x : Word) : Word := if (if Config.amoMaxSigned then old.slt x else old.ult x) then x else old

/-- What AMOCAS stores: `x` where the old word is the expected one (log 22). -/
def amoCas (expect old x : Word) : Word := if old = expect then x else old

theorem amoMax_cases : (∀ x y, amoMax x y = if x.toInt < y.toInt then y else x) ∨
    (∀ x y, amoMax x y = if x.toNat < y.toNat then y else x) := by
  by_cases h : Config.amoMaxSigned = true
  · exact .inl fun x y => by simp [amoMax, h, BitVec.slt_iff_toInt_lt]
  · exact .inr fun x y => by simp [amoMax, h, BitVec.ult_iff_lt, BitVec.lt_def]

end Sys2Proof.Claims

section
open Sys2Proof Sys2Proof.Machine Sys2Proof.Claims

/-- Settles O16: each atomic is a case of `runs_of_amoOp` on a word that fits, and of `runs_of_amoOp_unfit` elsewhere. -/
theorem atomicsOnSharedMemory : Obligations.AtomicsOnSharedMemory := by
  refine ⟨amoMax, amoMax_cases, ?_⟩
  intro s i rd rs1 rs2 p a x insn old fits becomes hI
  refine ⟨fun hc hfit hp hclean hflip => ?_, fun hfit => ?_⟩
  · have hold : s.sramWord (p / 8) = old := by
      have hp8 : 8 * (p / 8) = p := by have := hfit.1; rw [hp]; unfold sramAddr sramBase sramStride; omega
      rw [State.sramWord, hp8]; rfl
    have hbecomes : ∀ new t, Stored s i insn p 8 new.toNat (fun k => k.setReg rd (s.sramWord (p / 8))) t → becomes new t :=
      fun new t h => by
        rw [hold] at h
        obtain ⟨hreg, hframe, hothers⟩ := core_of_stored h
        obtain ⟨hbytes, hdisc, -, hrest⟩ := h
        exact ⟨hreg, hframe, hothers, hbytes, hdisc, hrest⟩
    refine ⟨?_, ?_, ?_, ?_⟩
    · exact (runs_of_amoOp (f := fun _ old x => old + x) (fun i => .amoadd i rd rs1 rs2) rfl hI hc hfit hp hclean hflip
        (by rw [hold]; exact add_eq_ofNat ..)).imp (hbecomes _)
    · exact (runs_of_amoOp (f := fun _ _ x => x) (fun i => .amoswap i rd rs1 rs2) rfl hI hc hfit hp hclean hflip rfl).imp
        (hbecomes _)
    · exact (runs_of_amoOp (f := fun _ => amoMax) (fun i => .amomax i rd rs1 rs2) rfl hI hc hfit hp hclean hflip
        (by rw [hold])).imp (hbecomes _)
    · exact (runs_of_amoOp (f := amoCas) (fun i => .amocas i rd rs1 rs2) rfl hI hc hfit hp hclean hflip
        (by rw [hold]; rfl)).imp (hbecomes _)
  · refine ⟨?_, ?_, ?_, ?_⟩
    · exact runs_of_amoOp_unfit (f := fun _ old x => old + x) (fun i => .amoadd i rd rs1 rs2) rfl hI hfit
    · exact runs_of_amoOp_unfit (f := fun _ _ x => x) (fun i => .amoswap i rd rs1 rs2) rfl hI hfit
    · exact runs_of_amoOp_unfit (f := fun _ => amoMax) (fun i => .amomax i rd rs1 rs2) rfl hI hfit
    · exact runs_of_amoOp_unfit (f := amoCas) (fun i => .amocas i rd rs1 rs2) rfl hI hfit

end

namespace Sys2Proof.Claims
open Sys2Proof.Machine

/-! ### Data that lands in a core (R96, R107, R121) -/

theorem ofInt_sext {n : Nat} (hn : 0 < n) (x : Nat) : wordOfInt (sext n x) = (BitVec.ofNat n x).signExtend 64 := by
  have hpow : 2 ^ n = 2 * 2 ^ (n - 1) := by rw [← Nat.pow_succ']; congr 1; omega
  have hsext : sext n x = (BitVec.ofNat n x).toInt := by
    rw [sext, BitVec.toInt_eq_toNat_cond, BitVec.toNat_ofNat]
    push_cast
    exact if_congr (by omega) rfl rfl
  rw [hsext]
  rfl

/-- The scalar that data `d` make. -/
def scalarOf (signed : Bool) (d : Bytes) : Word :=
  if signed then (BitVec.ofNat (8 * d.length) (leNat d)).signExtend 64 else BitVec.ofNat 64 (leNat d)

theorem land_scalar (k : Core) (rd : Nat) (signed : Bool) {d : Bytes} (hd : d ≠ []) :
    k.land (.scalar rd signed) d = if rd = 0 then k else { k with s := Tab.put 0 k.s rd (scalarOf signed d) } := by
  have hlen : 0 < 8 * d.length := by have := List.length_pos_iff.mpr hd; omega
  unfold Core.land scalarOf
  dsimp only
  rw [ofInt_sext hlen]
  rfl

theorem reg_land_scalar (k : Core) (rd : Nat) (signed : Bool) {d : Bytes} (hd : d ≠ []) (r : SReg) :
    (k.land (.scalar rd signed) d).reg r = if r.val = rd ∧ rd ≠ 0 then scalarOf signed d else k.reg r := by
  rw [land_scalar k rd signed hd]
  by_cases h0 : rd = 0
  · rw [if_pos h0, if_neg (by simp [h0])]
  · rw [if_neg h0]
    unfold Core.reg
    dsimp only
    rw [Tab.look_put]
    by_cases hr : r.val = rd
    · rw [if_neg (hr ▸ h0), if_pos hr, if_pos ⟨hr, h0⟩]
    · rw [if_neg hr, if_neg fun h : r.val = rd ∧ rd ≠ 0 => hr h.1]

/-- A later far load as the data of an earlier one leave it. -/
abbrev landLater (k : Core) (d : LoadDest) (b : Bytes) (g : FarAccess) : FarAccess :=
  { g with before := g.before.map fun x => ((k.withRegs x).land d b).regs }

section
variable {α : Type} (p : α → Bool) (g : α → α)

/-- One step of a walk that drops the first element that `p` picks and changes those behind it by `g`. -/
def afterStep (acc : Bool × List α) (x : α) : Bool × List α :=
  if acc.1 then (true, acc.2 ++ [g x]) else if p x then (true, acc.2) else (false, acc.2 ++ [x])

theorem foldl_afterStep_behind (l acc : List α) : l.foldl (afterStep p g) (true, acc) = (true, acc ++ l.map g) := by
  induction l generalizing acc with
  | nil => simp
  | cons x l ih => rw [List.foldl_cons, afterStep, if_pos rfl, ih]; simp

theorem foldl_afterStep {x : α} (a b acc : List α) (ha : ∀ y ∈ a, p y = false) (hx : p x = true) :
    (a ++ x :: b).foldl (afterStep p g) (false, acc) = (true, acc ++ a ++ b.map g) := by
  induction a generalizing acc with
  | nil =>
    rw [List.nil_append, List.foldl_cons, afterStep, if_neg (by simp), if_pos hx, foldl_afterStep_behind, List.append_nil]
  | cons y a ih =>
    have hy : p y = false := ha y List.mem_cons_self
    rw [List.cons_append, List.foldl_cons, afterStep, if_neg (by simp), if_neg (by simp [hy]),
      ih _ fun z hz => ha z (List.mem_cons_of_mem y hz)]
    simp

end

/-- The far accesses that are left when the load `f` has landed: those before it as they were, those behind it with its data. -/
theorem landFar_eq {k : Core} {req : Nat} {f : FarAccess} {a b : List FarAccess} (hk : k.far = a ++ f :: b)
    (ha : ∀ g ∈ a, g.req ≠ some req) (hf : f.req = some req) (d : LoadDest) (x : Bytes) :
    k.landFar req d x = { k.land d x with far := a ++ b.map (landLater k d x) } := by
  have hwalk := foldl_afterStep (fun g : FarAccess => g.req == some req) (landLater k d x) (x := f) a b []
    (fun g hg => beq_eq_false_iff_ne.mpr (ha g hg)) (beq_iff_eq.mpr hf)
  have hput : k.landFar req d x = { k.land d x with far := (k.far.foldl (afterStep (fun g : FarAccess => g.req == some req)
    (landLater k d x)) (false, [])).2 } := rfl
  rw [hput, hk, hwalk]
  rfl

/-! ### FAR_ACCESS_DONE by its result (R107, R121, R122, R429, R491) -/

section
variable {s : State} {core req : Nat} {f : FarAccess} {r : Req}

/-- The core with the completed access gone. -/
def doneFar (k : Core) (req : Nat) : Core := { k with far := k.far.filter fun g => g.req != some req }

/-- The completion changes core `core` to `k`, and takes the request away. -/
theorem farDone_frame (s : State) (core req : Nat) (k : Core) :
    ((s.dropReq req).setCore core k).core core = k ∧ (∀ j, j ≠ core → ((s.dropReq req).setCore core k).core j = s.core j) ∧
      (s.dropReq req).setCore core k =
        { s with cores := ((s.dropReq req).setCore core k).cores, reqs := s.reqs.filter fun r => r.id != req } :=
  ⟨State.core_setCore_self .., fun _ hj => (State.core_setCore ..).trans (if_neg hj), rfl⟩

variable (hf : (s.core core).far.find? (fun f => f.req == some req) = some f) (hr : s.req? req = some r)
include hf hr

theorem farDone_waits (h : r.result = .pending ∨ r.result = .lost) : exec (.farAccessDone core req) s = .next s := by
  show execFarAccessDone core req s = .next s
  unfold execFarAccessDone
  obtain h | h := h <;> simp only [hf, hr, h, ReqResult.forCore]

theorem farDone_load {d : Bytes} (h : r.result = .data d) (hl : f.store = false) :
    exec (.farAccessDone core req) s = .next ((s.dropReq req).setCore core ((s.core core).landFar req f.dest d)) := by
  show execFarAccessDone core req s = _
  unfold execFarAccessDone
  simp only [hf, hr, h, ReqResult.forCore, hl, Bool.false_eq_true, if_false]

theorem farDone_store (h : r.result = .stored) (hl : f.store = true) :
    exec (.farAccessDone core req) s = .next ((s.dropReq req).setCore core (doneFar (s.core core) req)) := by
  show execFarAccessDone core req s = _
  unfold execFarAccessDone
  simp only [hf, hr, h, ReqResult.forCore, hl, if_true]
  rfl

theorem farDone_storeError {e : Nat} (h : r.result = .busError e) (hl : f.store = true) :
    exec (.farAccessDone core req) s = .next (((s.dropReq req).setCore core (doneFar (s.core core) req)).modCore core fun k =>
      { k with storeError := if k.storeError.isSome then k.storeError else some (f.va, e) }) := by
  show execFarAccessDone core req s = _
  unfold execFarAccessDone
  simp only [hf, hr, h, ReqResult.forCore, hl, if_true]
  rfl

theorem farDone_stopped {e : Nat} (h : r.result = .busError e) (hl : f.store = false) (hk : (s.core core).run ≠ .running) :
    exec (.farAccessDone core req) s = .next ((s.dropReq req).setCore core (doneFar (s.core core) req)) := by
  show execFarAccessDone core req s = _
  unfold execFarAccessDone
  simp only [hf, hr, h, ReqResult.forCore, hl, Bool.false_eq_true, if_false, if_pos hk]
  rfl

theorem farDone_raise {e : Nat} (h : r.result = .busError e) (hl : f.store = false) (hk : (s.core core).run = .running) :
    exec (.farAccessDone core req) s = .next ((((s.dropReq req).setCore core (doneFar (s.core core) req)).modCore core fun k =>
      k.back f).raise core causeBus e unitLsu (BitVec.ofNat 64 (2 ^ 63 + f.va))) := by
  show execFarAccessDone core req s = _
  unfold execFarAccessDone
  simp only [hf, hr, h, ReqResult.forCore, hl, Bool.false_eq_true, if_false, if_neg (not_not.mpr hk)]
  rfl

theorem farDone_hostError (h : r.result = .hostError) : exec (.farAccessDone core req) s =
    .next (match s.residentCmd ((s.bightOfCluster (clusterOf core)).getD 256) with
      | some (q, _, c) => ((s.dropReq req).setCore core (doneFar (s.core core) req)).failCmd q c.seq codeHostError
      | none => (s.dropReq req).setCore core (doneFar (s.core core) req)) := by
  show execFarAccessDone core req s = _
  unfold execFarAccessDone
  simp only [hf, hr, h]
  rfl

end

/-- A request that the core does not wait for, or that is no more, changes nothing. -/
theorem farDone_unknown {s : State} {core req : Nat}
    (h : (s.core core).far.find? (fun f => f.req == some req) = none ∨ s.req? req = none) :
    exec (.farAccessDone core req) s = .next s := by
  show execFarAccessDone core req s = .next s
  unfold execFarAccessDone
  obtain h | h := h
  · simp only [h]
  · simp only [h]
    cases (s.core core).far.find? (fun f => f.req == some req) <;> rfl

/-- An exception of a core speaks of the rest of the state, so a change of that core before it does not matter. -/
theorem raised_of_cores {s u t : State} {core cause : Nat} {k : Core} {value : Word} (hu : u = { s with cores := u.cores })
    (ho : ∀ j, j ≠ core → u.core j = s.core j) (h : Raised u core k cause value t) : Raised s core k cause value t := by
  obtain ⟨hk, hm, ho', ht⟩ := h
  rw [hu] at hm ht
  exact ⟨hk, hm, fun j hj => (ho' j hj).trans (ho j hj), ht⟩

/-- A load that failed takes its core back to what it was when it issued, and raises a bus error. -/
theorem raised_of_back {s : State} {core : Nat} {k : Core} {f : FarAccess} {x : Regs} (hx : f.before = some x) (e : Nat) :
    Raised s core { k with
        pc := f.pc, s := x.s, v := x.v, loops := x.loops, openBundle := x.openBundle, slot0 := x.slot0, instret := x.instret
        fflags := x.fflags, frm := x.frm, stallLimit := x.stallLimit } 0x03 (BitVec.ofNat 64 (2 ^ 63 + f.va))
      (((s.setCore core k).modCore core fun k => k.back f).raise core causeBus e unitLsu (BitVec.ofNat 64 (2 ^ 63 + f.va))) := by
  have hback : ((s.setCore core k).modCore core fun k => k.back f).core core = { k with
      pc := f.pc, s := x.s, v := x.v, loops := x.loops, openBundle := x.openBundle, slot0 := x.slot0, instret := x.instret
      fflags := x.fflags, frm := x.frm, stallLimit := x.stallLimit } := by
    rw [State.modCore, State.core_setCore_self, State.core_setCore_self, Core.back, hx]
    rfl
  have hraise := raised_raise ((s.setCore core k).modCore core fun k => k.back f) core (cause := causeBus) (by decide) e unitLsu
    (BitVec.ofNat 64 (2 ^ 63 + f.va))
  rw [hback] at hraise
  refine raised_of_cores rfl (fun j hj => ?_) hraise
  exact (State.core_setCore ..).trans ((if_neg hj).trans ((State.core_setCore ..).trans (if_neg hj)))

end Sys2Proof.Claims

section
open Sys2Proof Sys2Proof.Machine Sys2Proof.Claims

/-- Settles O24: a completion by the result of its request. -/
theorem farAccessesComplete : Obligations.FarAccessesComplete := by
  intro s core req k
  refine ⟨fun f r hf hr => ?_, farDone_unknown⟩
  intro k' only
  have hgone := farDone_frame s core req (doneFar k req)
  refine ⟨farDone_waits hf hr, ?_, ?_, ?_, ?_, ?_, ?_, ?_, ?_⟩
  · intro d a b hd hl hk ha
    have hland := landFar_eq hk ha (by simpa using List.find?_some hf) f.dest d
    obtain ⟨hcore, ho, ht⟩ := farDone_frame s core req (k.landFar req f.dest d)
    exact ⟨_, farDone_load hf hr hd hl, ⟨ho, ht⟩, hcore.trans hland⟩
  · intro d rd signed r' hd hne hl hdest
    refine ⟨_, farDone_load hf hr hd hl, ?_⟩
    have hland : (k.landFar req f.dest d).reg r' = (k.land (.scalar rd signed) d).reg r' := hdest ▸ rfl
    exact (congrArg (Core.reg · r') (State.core_setCore_self (s.dropReq req) core _)).trans
      (hland.trans (reg_land_scalar k rd signed hne r'))
  · intro hd hl
    obtain ⟨hcore, ho, ht⟩ := hgone
    exact ⟨_, farDone_store hf hr hd hl, hcore, ho, ht⟩
  · intro e hd hl
    obtain ⟨hcore, ho, ht⟩ := hgone
    obtain ⟨hcore', ho', ht'⟩ := modCore_leaves (v := s.dropReq req)
      (fun k => { k with storeError := if k.storeError.isSome then k.storeError else some (f.va, e) }) ht ho
    rw [hcore] at hcore'
    exact ⟨_, farDone_storeError hf hr hd hl, hcore', ho', ht'⟩
  · intro e hd hl hrun
    obtain ⟨hcore, ho, ht⟩ := hgone
    exact ⟨_, farDone_stopped hf hr hd hl hrun, hcore, ho, ht⟩
  · intro e x hd hl hrun hx
    exact ⟨_, farDone_raise hf hr hd hl hrun, raised_of_back hx e⟩
  · intro hd hres
    obtain ⟨hcore, ho, ht⟩ := hgone
    refine ⟨_, farDone_hostError hf hr hd, ?_⟩
    rw [hres]
    exact ⟨hcore, ho, ht⟩
  · intro q x c hd hres
    rw [farDone_hostError hf hr hd, hres]
    rfl

end

namespace Sys2Proof.Claims
open Sys2Proof.Machine

/-! ### Stalls in a module whose bights are listed out of order

What the fetch of an instruction reads is charged to the paying bight. Where the bights are not listed in the order of their
numbers, the charge moves that bight's entry before another's that holds the same cluster: a stall then begins at a cycle of bight 5,
where `stallStart` takes the cycle of the cluster's bight before the fetch, bight 7. A table that commands write keeps its keys
rising (`Tab.wf_put`), but the statements are about every state. -/

/-- `loadingOutOfOrder` with no far load. -/
def runningOutOfOrder : State := { loadingOutOfOrder with cores := [(0, { run := .running })] }

theorem stallStart_runningOutOfOrder : stallStart runningOutOfOrder 0 = 1 := by decide +kernel

/-- A core that stalls first notes the cycle of the state that the statements name. -/
theorem not_stalls_of_stallAfter {s : State} {c c' : Instr} {insn : Insn} {why why' : Stall} (hs : stallStart s 0 = 1)
    (ha : stallAfter (exec c s) = some (why', 2)) : ¬ Gives c s (Stalls s firstIssue c' insn why) := by
  rintro ⟨t, hexec, hcore, -⟩
  rw [hexec] at ha
  have hstall : (t.core 0).stall = some (why, stallStart s 0) := congrArg (·.stall) hcore
  rw [hs] at hstall
  have heq := hstall.symm.trans ha
  injection heq with heq
  injection heq with _ heq
  exact absurd heq (by decide)

theorem issues_loadingOutOfOrder_csrr : Issues loadingOutOfOrder firstIssue (systemInsn [] [1]) := by decide +kernel

theorem stallAfter_csrr : stallAfter (exec (.csrr firstIssue 1 0x3FF) loadingOutOfOrder) = some (.operand unitSys, 2) := by
  decide +kernel

theorem issues_runningOutOfOrder_qpop :
    Issues runningOutOfOrder firstIssue { unit := unitNet, reads := [], writes := [vName 0], acts := true } := by decide +kernel

theorem stallAfter_qpop : stallAfter (exec (.qpop firstIssue 0 2 0) runningOutOfOrder) = some (.empty, 2) := by decide +kernel

theorem issues_loadingOutOfOrder_fence : Issues loadingOutOfOrder firstIssue { unit := unitSys, reads := [], writes := [] } := by
  decide +kernel

theorem stallAfter_fenceFar : stallAfter (exec (.fenceFar firstIssue) loadingOutOfOrder) = some (.fence, 2) := by decide +kernel

end Sys2Proof.Claims

section
open Sys2Proof Sys2Proof.Machine Sys2Proof.Claims

/-- Refutes O12: CSRR of a number that is not in the table, behind a far load of `loadingOutOfOrder`, stalls since cycle 2 of
bight 5, where the statement has cycle 1 of bight 7. -/
theorem not_controlRegisters : ¬ Obligations.ControlRegisters := by
  intro h
  obtain ⟨hread, -⟩ := h loadingOutOfOrder firstIssue 1 0 0x3FF
  obtain ⟨-, -, -, -, -, -, -, hbad⟩ := hread issues_loadingOutOfOrder_csrr
  obtain ⟨t, hexec, -, hstalls⟩ := hbad (by decide) (.inl rfl)
  exact not_stalls_of_stallAfter stallStart_loadingOutOfOrder stallAfter_csrr ⟨t, hexec, hstalls loadsOut_loadingOutOfOrder⟩

/-- Refutes O13: QPOP of the empty queue 2 in `runningOutOfOrder` stalls since cycle 2 of bight 5, where the statement has cycle 1 of
bight 7. -/
theorem not_sendReceiveAndOperandQueues : ¬ Obligations.SendReceiveAndOperandQueues := by
  intro h
  obtain ⟨-, -, htakes⟩ := h runningOutOfOrder firstIssue 0 2 0 0
  obtain ⟨-, -, hpop, -⟩ := htakes issues_runningOutOfOrder_qpop
  obtain ⟨-, hempty⟩ := hpop rfl
  exact not_stalls_of_stallAfter stallStart_runningOutOfOrder stallAfter_qpop (hempty rfl (.inl rfl))

/-- Refutes O21: FENCE.FAR behind the far load of `loadingOutOfOrder` stalls since cycle 2 of bight 5, where the statement has cycle 1
of bight 7. -/
theorem not_systemInstructionsAndExceptions : ¬ Obligations.SystemInstructionsAndExceptions := by
  intro h
  obtain ⟨-, hsystem, -⟩ := h
  obtain ⟨hissues, -⟩ := hsystem loadingOutOfOrder firstIssue 0 0
  obtain ⟨hfence, -⟩ := hissues issues_loadingOutOfOrder_fence
  obtain ⟨hstalls, -⟩ := hfence (by decide)
  exact not_stalls_of_stallAfter stallStart_loadingOutOfOrder stallAfter_fenceFar (hstalls (.inl rfl))

end

namespace Sys2Proof.Claims
open Sys2Proof.Machine

/-! ### VECTOR_ARRIVAL (R211, R212) -/

theorem dropAt_eq {α : Type} (l : List α) (n : Nat) : dropAt l n = l.take n ++ l.drop (n + 1) := by
  induction l generalizing n with
  | nil => simp [dropAt]
  | cons x l ih =>
    cases n with
    | zero => rfl
    | succ n => exact congrArg (x :: ·) (ih n)

/-- A router with the credit that a flight brings. -/
def withCredit (x : Router) (f : Flight) : Router := { x with credit := if f.credit then withOne x.credit f.port else x.credit }

theorem withCredit_eq (x : Router) (f : Flight) :
    (if f.credit then { x with credit := withOne x.credit f.port } else x) = withCredit x f := by
  unfold withCredit
  split <;> rfl

section
variable {s : State} {f : Flight}

theorem deliverFlight_credit (h : f.vec = none) :
    s.deliverFlight f = s.setRouter f.router (withCredit (s.router f.router) f) := by
  unfold State.deliverFlight
  simp only [withCredit_eq, h]

theorem deliverFlight_vector {v : Vec} (h : f.vec = some v) (he : Tab.find? (s.router f.router).input f.port = none) :
    s.deliverFlight f = s.setRouter f.router { withCredit (s.router f.router) f with
      input := Tab.set (s.router f.router).input f.port v } := by
  have he' : Tab.find? (withCredit (s.router f.router) f).input f.port = none := he
  unfold State.deliverFlight
  simp only [withCredit_eq, h, he']
  rfl

theorem deliverFlight_overrun {v w : Vec} (h : f.vec = some v) (he : Tab.find? (s.router f.router).input f.port = some w) :
    ∃ i, s.deliverFlight f = (s.setRouter f.router { withCredit (s.router f.router) f with
      input := Tab.erase (s.router f.router).input f.port, overrunFlag := true }).schedFault f.bight f.router 1 i := by
  have he' : Tab.find? (withCredit (s.router f.router) f).input f.port = some w := he
  unfold State.deliverFlight
  simp only [withCredit_eq, h, he']
  exact ⟨_, rfl⟩

end

theorem vectorArrival_none {s : State} {n : Nat} (h : s.mesh.flights[n]? = none) : exec (.vectorArrival n) s = .next s := by
  show execVectorArrival n s = .next s
  unfold execVectorArrival
  rw [h]

theorem vectorArrival_early {s : State} {n : Nat} {f : Flight} (h : s.mesh.flights[n]? = some f)
    (hd : (s.bight f.bight).sigma < f.due) : exec (.vectorArrival n) s = .next s := by
  show execVectorArrival n s = .next s
  unfold execVectorArrival
  rw [h]
  exact congrArg _ (if_neg (by omega))

theorem vectorArrival_due {s : State} {n : Nat} {f : Flight} (h : s.mesh.flights[n]? = some f)
    (hd : f.due ≤ (s.bight f.bight).sigma) : exec (.vectorArrival n) s = .next (({ s with mesh := { s.mesh with
      flights := s.mesh.flights.take n ++ s.mesh.flights.drop (n + 1) } } : State).deliverFlight f) := by
  show execVectorArrival n s = _
  unfold execVectorArrival
  rw [h, ← dropAt_eq]
  exact congrArg _ (if_pos hd)

/-! ### CLOCK_RATIO_CHANGE (R199, R225, R561) -/

/-- `t` is `s` with the divider of a half-die changed, the count of its bank cycles kept, and the circuits that cross its edges laid
again. -/
def RatioChanged (half div : Nat) (s t : State) : Prop :=
  let p := { s.power with
    divider := Tab.put 1 s.power.divider half div, bankMark := Tab.set s.power.bankMark half (s.baseCycle, s.bankCycle half) }
  t.power = { p with coolHalf := if div = 1 then Tab.erase s.power.coolHalf half else s.power.coolHalf } ∧
  t.mesh = (({ s with power := p } : State).relayCrossing half).mesh ∧
  t = { s with power := t.power, mesh := t.mesh }

theorem relayCrossing_frame (s : State) (h : Nat) : s.relayCrossing h = { s with mesh := (s.relayCrossing h).mesh } := rfl

theorem ratioChanged_changeRatio (s : State) (half div : Nat) : RatioChanged half div s (s.changeRatio half div) := by
  unfold State.changeRatio
  dsimp only
  rw [relayCrossing_frame]
  exact ⟨rfl, rfl, rfl⟩

/-- A clock change is due: the half-die is there, wants the divider and has another one, and no change of it waits. -/
abbrev RatioDue (s : State) (half div : Nat) : Prop :=
  half < 32 ∧ div ≠ s.divOf half ∧ div = s.wantedDiv half ∧ ∀ e ∈ s.mesh.ratioNext, e.1 ≠ half

theorem ratioDue_iff {s : State} {half div : Nat} : (half < 32 ∧ div ≠ s.divOf half ∧ div = s.wantedDiv half ∧
    s.mesh.ratioNext.all (fun e => e.1 != half) = true) ↔ RatioDue s half div := by
  rw [List.all_eq_true, forall₂_congr fun _ _ => bne_iff_ne]

theorem clockRatioChange_due {s : State} {half div : Nat} (h : RatioDue s half div) :
    exec (.clockRatioChange half div) s = .next (s.beginRatio half div) := by
  show execClockRatioChange half div s = _
  exact congrArg _ (if_pos (ratioDue_iff.mpr h))

theorem clockRatioChange_not_due {s : State} {half div : Nat} (h : ¬ RatioDue s half div) :
    exec (.clockRatioChange half div) s = .next s := by
  show execClockRatioChange half div s = _
  exact congrArg _ (if_neg fun h' => h (ratioDue_iff.mp h'))

theorem beginRatio_none {s : State} {half : Nat} (h : s.crossingCircuits half = []) (div : Nat) :
    s.beginRatio half div = s.changeRatio half div := by
  unfold State.beginRatio
  rw [h]

/-- The greatest of some numbers and `d` is at least each of them. -/
theorem le_foldl_max (l : List Nat) (d : Nat) : d ≤ l.foldl max d ∧ ∀ x ∈ l, x ≤ l.foldl max d := by
  induction l generalizing d with
  | nil => simp
  | cons x l ih =>
    obtain ⟨h, hl⟩ := ih (max d x)
    rw [List.foldl_cons]
    refine ⟨(le_max_left d x).trans h, fun y hy => ?_⟩
    obtain rfl | hy := List.mem_cons.mp hy
    · exact (le_max_right d y).trans h
    · exact hl y hy

theorem beginRatio_waits {s : State} {half : Nat} (h : s.crossingCircuits half ≠ []) (div : Nat) : ∃ slow, div ≤ slow ∧
    (∀ c ∈ s.crossingCircuits half, s.pathDiv c.out.path ≤ slow ∧ s.pathDiv c.back.path ≤ slow) ∧
    s.beginRatio half div = { s with
      mesh := { s.mesh with ratioNext := s.mesh.ratioNext ++ [(half, div, s.baseCycle + 4096 * slow)] } } := by
  obtain ⟨hdiv, hall⟩ := le_foldl_max ((s.crossingCircuits half).map fun c => max (s.pathDiv c.out.path) (s.pathDiv c.back.path)) div
  refine ⟨_, hdiv, fun c hc => max_le_iff.mp (hall _ (List.mem_map_of_mem hc)), ?_⟩
  unfold State.beginRatio
  cases hl : s.crossingCircuits half with
  | nil => exact absurd hl h
  | cons c l => rfl

section
variable {s : State} {half div at' : Nat} (h : s.mesh.ratioNext = [(half, div, at')])
include h

theorem ratiosDue_early (ht : s.baseCycle < at') : s.ratiosDue = s := by
  have hnext : ({ s with mesh := { s.mesh with ratioNext := [(half, div, at')] } } : State) = s := by rw [← h]
  have hnot : ¬ at' ≤ s.baseCycle := by omega
  unfold State.ratiosDue
  simpa [h, hnot] using hnext

theorem ratiosDue_due (ht : at' ≤ s.baseCycle) :
    s.ratiosDue = ({ s with mesh := { s.mesh with ratioNext := [] } } : State).changeRatio half div := by
  unfold State.ratiosDue
  rw [h]
  simp [ht]

end

end Sys2Proof.Claims

namespace Sys2Proof.Claims
open Sys2Proof.Machine

/-! ### Messages that are taken off the Lanyard (R235) -/

variable {s : State} {n : Nat} {m : LanMsg}

/-- The mesh without the `n`-th message. -/
abbrev withoutMsg (s : State) (n : Nat) : Mesh := { s.mesh with lan := s.mesh.lan.take n ++ s.mesh.lan.drop (n + 1) }

theorem lanTake_none (h : ∀ m, s.mesh.lan[n]? = some m → s.lanNext n m = false) : s.lanTake n = none := by
  unfold State.lanTake
  cases hm : s.mesh.lan[n]? with
  | none => rfl
  | some m => exact if_neg (by simp [h m hm])

theorem lanTake_some (hm : s.mesh.lan[n]? = some m) (hn : s.lanNext n m = true) :
    s.lanTake n = some (m, { s with mesh := withoutMsg s n }) := by
  unfold State.lanTake
  rw [hm, Option.bind_some, if_pos hn, dropAt_eq]

theorem lanNext_iff : s.lanNext n m = true ↔
    (∀ j k, j < n → s.mesh.lan[j]? = some k → ¬ (k.src = m.src ∧ k.dest = m.dest ∧ k.high = m.high)) ∧
    (m.high = false → ∀ k ∈ s.mesh.lan, ¬ (k.high = true ∧ k.dest = m.dest)) := by
  have hsame : ∀ k : LanMsg, (!(k.src == m.src && k.dest == m.dest && k.high == m.high)) = true ↔
      ¬ (k.src = m.src ∧ k.dest = m.dest ∧ k.high = m.high) := fun k => by
    simp only [Bool.not_eq_true', Bool.eq_false_iff, ne_eq, Bool.and_eq_true, beq_iff_eq, and_assoc]
  have hpass : ∀ k : LanMsg, (!(k.high && k.dest == m.dest)) = true ↔ ¬ (k.high = true ∧ k.dest = m.dest) := fun k => by
    simp only [Bool.not_eq_true', Bool.eq_false_iff, ne_eq, Bool.and_eq_true, beq_iff_eq]
  have htake : (∀ k ∈ s.mesh.lan.take n, ¬ (k.src = m.src ∧ k.dest = m.dest ∧ k.high = m.high)) ↔
      ∀ j k, j < n → s.mesh.lan[j]? = some k → ¬ (k.src = m.src ∧ k.dest = m.dest ∧ k.high = m.high) := by
    constructor
    · intro h j k hj hk
      exact h k (List.mem_of_getElem? (i := j) (by rw [List.getElem?_take, if_pos hj, hk]))
    · intro h k hk
      obtain ⟨j, hj⟩ := List.getElem?_of_mem hk
      rw [List.getElem?_take] at hj
      split at hj
      · next hjn => exact h j k hjn hj
      · cases hj
  unfold State.lanNext
  rw [Bool.and_eq_true, Bool.or_eq_true, List.all_eq_true, List.all_eq_true, forall₂_congr fun k _ => hsame k,
    forall₂_congr fun k _ => hpass k, htake]
  refine and_congr_right fun _ => ?_
  cases m.high <;> simp only [Bool.false_eq_true, false_or, true_or, forall_const, reduceCtorEq, false_implies]

/-- Without a message that is the next to arrive, no command of the Lanyard does anything. -/
theorem lanyard_still (h : ∀ m, s.mesh.lan[n]? = some m → s.lanNext n m = false) (bad : Bool) :
    exec (.ack n bad) s = .next s ∧ exec (.fault n) s = .next s ∧ exec (.deadLetter n) s = .next s := by
  have ht := lanTake_none h
  refine ⟨?_, ?_, ?_⟩
  · show execAck n bad s = _
    unfold execAck; rw [ht]
  · show execFault n s = _
    unfold execFault; rw [ht]
  · show execDeadLetter n s = _
    unfold execDeadLetter; rw [ht]

section
variable (hm : s.mesh.lan[n]? = some m) (hn : s.lanNext n m = true)
include hm hn

/-! ### ACK (R236, R238, R239) -/

/-- A flit that failed its check is sent again, which cures it or not (log 3). -/
theorem ack_bad : exec (.ack n true) s = .next { s with
      fresh := s.fresh + 1, mesh := { s.mesh with retransmissions := s.mesh.retransmissions + 1 } } ∨
    exec (.ack n true) s = .next { s with
      fresh := s.fresh + 1
      mesh := { withoutMsg s n with dropsCheck := s.mesh.dropsCheck + 1, retransmissions := s.mesh.retransmissions + 1 } } := by
  have hack : exec (.ack n true) s = execAck n true s := rfl
  rw [hack]
  unfold execAck
  rw [lanTake_some hm hn]
  by_cases hk : s.freeNat.1 % 2 = 0
  · exact .inl (congrArg _ (if_pos hk))
  · exact .inr (congrArg _ (if_neg hk))

/-- A message of a stop and a type that the Lanyard knows. -/
abbrev KnownMsg (m : LanMsg) : Prop := stopKnown m.dest = true ∧ ¬ (0xA ≤ m.ty ∧ m.ty ≤ 0xE)

theorem ack_good : exec (.ack n false) s = .next (if ¬ KnownMsg m then
      { s with mesh := { withoutMsg s n with dropsCheck := s.mesh.dropsCheck + 1 } }
    else if s.stopPowered m.dest = false then
      { s with mesh := { withoutMsg s n with dropsUnpowered := s.mesh.dropsUnpowered + 1 } }
    else if m.ty = 0xF then { s with mesh := withoutMsg s n } else s) := by
  have hack : exec (.ack n false) s = execAck n false s := rfl
  have hknown : (!stopKnown m.dest || (decide (0xA ≤ m.ty) && decide (m.ty ≤ 0xE))) = true ↔ ¬ KnownMsg m := by
    simp only [KnownMsg]
    cases stopKnown m.dest <;> simp
  rw [hack]
  unfold execAck
  rw [lanTake_some hm hn]
  simp only [Bool.false_eq_true, if_false, if_congr hknown rfl rfl, Bool.not_eq_true']

/-! ### FAULT (R123, R124, R240) -/

omit hm hn in
theorem faultBights_congr {t u : State} (hc : t.mesh.circuits = u.mesh.circuits) (hr : t.mesh.routers = u.mesh.routers)
    (hb : t.bights = u.bights) (hp : t.power = u.power) : t.faultBights = u.faultBights := by
  have hlay : ∀ l i j p, t.layUses l i j p = u.layUses l i j p := fun l i j p => by
    simp only [State.layUses, State.divOf, hp]
  have howners : t.entryOwners = u.entryOwners := by
    funext r j
    simp only [State.entryOwners, hc, hlay]
  have hbight : t.bightOfRouter = u.bightOfRouter := by
    funext r
    simp only [State.bightOfRouter, State.router, hr, State.bightOfCluster, hb]
  funext id cause value
  rw [State.faultBights, State.faultBights, howners, hbight]

/-- The state with a fault report taken, recorded, and counted where it is a schedule fault's. -/
abbrev faultRecorded (s : State) (n : Nat) (m : LanMsg) : State := { s.logFault 4 m.payload with
  mesh := { withoutMsg s n with
    schedFaults := if (m.payload.getD 1 0).toNat % 256 = 0x0D then s.mesh.schedFaults + 1 else s.mesh.schedFaults } }

omit hm hn in
theorem faultArrives_eq : ({ s with mesh := withoutMsg s n } : State).faultArrives m =
    (s.faultBights ((m.payload.getD 0 0).toNat % 8192) ((m.payload.getD 1 0).toNat % 256) (m.payload.getD 4 0).toNat).foldl
      (fun (s : State) b => s.faultEnds b ((m.payload.getD 1 0).toNat % 256)) (faultRecorded s n m) := by
  have hbights : (faultRecorded s n m).faultBights = s.faultBights := faultBights_congr rfl rfl rfl rfl
  have hrecorded : (if (m.payload.getD 1 0).toNat % 256 = causeSched then
      { ({ s with mesh := withoutMsg s n } : State).logFault 4 m.payload with
        mesh := { withoutMsg s n with schedFaults := s.mesh.schedFaults + 1 } }
      else ({ s with mesh := withoutMsg s n } : State).logFault 4 m.payload) = faultRecorded s n m := by
    by_cases hc : (m.payload.getD 1 0).toNat % 256 = causeSched
    · rw [if_pos hc, faultRecorded, if_pos (show _ = 0x0D from hc)]; rfl
    · rw [if_neg hc, faultRecorded, if_neg (show ¬ _ = 0x0D from hc)]; rfl
  unfold State.faultArrives
  dsimp only
  rw [← hbights, ← hrecorded]
  rfl

theorem fault_other (h : m.ty ≠ 4) : exec (.fault n) s = .next s := by
  show execFault n s = _
  unfold execFault
  rw [lanTake_some hm hn]
  exact congrArg _ (if_neg h)

theorem fault_eq (h : m.ty = 4) : exec (.fault n) s = .next
    ((s.faultBights ((m.payload.getD 0 0).toNat % 8192) ((m.payload.getD 1 0).toNat % 256) (m.payload.getD 4 0).toNat).foldl
      (fun (s : State) b => s.faultEnds b ((m.payload.getD 1 0).toNat % 256)) (faultRecorded s n m)) := by
  have hfault : exec (.fault n) s = execFault n s := rfl
  rw [hfault]
  unfold execFault
  rw [lanTake_some hm hn]
  exact congrArg _ ((if_pos h).trans faultArrives_eq)

end

/-- The bights that a fault report is about: for an entry of a transit table those whose circuits use it, otherwise that of the core
or router. -/
theorem faultBights_entry {id cause value : Nat} (hc : cause = 0x0D) (hv : 4096 ≤ value) :
    s.faultBights id cause value = (s.entryOwners id (value - 4096)).filter fun b => decide (b < 256) := if_pos ⟨hc, hv⟩

theorem faultBights_router {id cause value : Nat} (h : ¬ (cause = 0x0D ∧ 4096 ≤ value)) :
    s.faultBights id cause value = (s.bightOfRouter id).toList := if_neg h

/-- A report is about one bight. -/
theorem faultBights_one {id cause value x : Nat}
    (h : if cause = 0x0D ∧ 4096 ≤ value then s.entryOwners id (value - 4096) = [x] ∧ x < 256 else s.bightOfRouter id = some x) :
    s.faultBights id cause value = [x] := by
  split at h
  · next hc =>
    obtain ⟨howner, hx⟩ := h
    rw [faultBights_entry hc.1 hc.2, howner]
    simp [hx]
  · next hc => rw [faultBights_router hc, h, Option.toList_some]

theorem faultEnds_idle {t : State} {b : Nat} (h : (t.bight b).resident = none) (cause : Nat) : t.faultEnds b cause = t := by
  unfold State.faultEnds
  rw [h]

theorem faultEnds_running {t : State} {b q k : Nat} {r : Nat} {c : Cmd} (h : (t.bight b).resident = some (q, k, r))
    (hc : t.cmd? q k = some c) (hl : c.live? = true) (hp : c.phase ≠ .killing) (cause : Nat) :
    t.faultEnds b cause = (t.haltBight b).failCmd q k (codeOfCause cause) := by
  unfold State.faultEnds
  rw [h]
  dsimp only
  rw [hc]
  exact if_pos (by simp [hl, hp])

/-! ### DEAD_LETTER (R229, R230, R241) -/

/-- The state with a dead letter taken, recorded and counted. -/
abbrev deadLetterRecorded (s : State) (n : Nat) (m : LanMsg) : State :=
  { s.logFault 5 m.payload with mesh := { withoutMsg s n with deadLetters := s.mesh.deadLetters + 1 } }

theorem deadLetterCmd_resident {p0 q k r : Nat} (hp : p0 / 2 ^ 21 % 8 = 0) (h : (s.bight (p0 / 2 ^ 24)).resident = some (q, k, r)) :
    s.deadLetterCmd p0 = some (q, k) := by
  unfold State.deadLetterCmd
  dsimp only
  rw [if_pos (show fieldN p0 21 3 = 0 from hp), h]
  rfl

section
variable (hm : s.mesh.lan[n]? = some m) (hn : s.lanNext n m = true)
include hm hn

theorem deadLetter_other (h : m.ty ≠ 5) : exec (.deadLetter n) s = .next s := by
  show execDeadLetter n s = _
  unfold execDeadLetter
  rw [lanTake_some hm hn]
  exact congrArg _ (if_neg h)

theorem deadLetter_eq (h : m.ty = 5) :
    exec (.deadLetter n) s = .next (({ s with mesh := withoutMsg s n } : State).deadLetterArrives m) := by
  have hletter : exec (.deadLetter n) s = execDeadLetter n s := rfl
  rw [hletter]
  unfold execDeadLetter
  rw [lanTake_some hm hn]
  exact congrArg _ (if_pos h)

end

theorem deadLetterArrives_none (h : s.deadLetterCmd (m.payload.getD 0 0).toNat = none) :
    ({ s with mesh := withoutMsg s n } : State).deadLetterArrives m = deadLetterRecorded s n m := by
  have h' : (deadLetterRecorded s n m).deadLetterCmd (m.payload.getD 0 0).toNat = none := h
  unfold State.deadLetterArrives
  dsimp only
  split
  · rfl
  · next heq => exact nomatch h'.symm.trans heq

/-- A dead letter of a command that lives and that no kill register waits for kills it and breaks the error fence of its bight. -/
theorem deadLetterArrives_some {q k : Nat} {c : Cmd} (h : s.deadLetterCmd (m.payload.getD 0 0).toNat = some (q, k))
    (hc : s.cmd? q k = some c) (hl : c.live? = true) (hp : c.phase ≠ .killing)
    (hk : ∀ code d rerun, RegEntry.kill q k code d rerun ∉ (s.bight ((m.payload.getD 0 0).toNat / 2 ^ 24)).creg) :
    ({ s with mesh := withoutMsg s n } : State).deadLetterArrives m =
      ((if c.isRun then (deadLetterRecorded s n m).haltBight ((m.payload.getD 0 0).toNat / 2 ^ 24)
        else deadLetterRecorded s n m).failCmd q k 0x0107).breakErrorFence ((m.payload.getD 0 0).toNat / 2 ^ 24) 0x0107 (detailCmd q k) := by
  have h' : (deadLetterRecorded s n m).deadLetterCmd (m.payload.getD 0 0).toNat = some (q, k) := h
  have hc' : (deadLetterRecorded s n m).cmd? q k = some c := hc
  unfold State.deadLetterArrives
  dsimp only
  split
  · next heq => exact nomatch h'.symm.trans heq
  · next q' k' heq =>
    obtain ⟨rfl, rfl⟩ : q = q' ∧ k = k' := by simpa using h'.symm.trans heq
    split
    · next hnone => exact nomatch hc'.symm.trans hnone
    · next c' hsome =>
      obtain rfl : c = c' := by simpa using hc'.symm.trans hsome
      refine if_pos ?_
      rw [hl, bne_iff_ne.mpr hp, Bool.true_and, Bool.true_and, Bool.not_eq_true', List.any_eq_false]
      intro e he
      cases e with
      | commit => exact Bool.false_ne_true
      | kill q' k' code d rerun =>
        intro hsame
        obtain ⟨rfl, rfl⟩ : q' = q ∧ k' = k := by simpa using hsame
        exact hk code d rerun he

end Sys2Proof.Claims

section
open Sys2Proof Sys2Proof.Machine Sys2Proof.Claims

/-- Settles O25: each command by what it finds, a flight, a clock change or a message. -/
theorem meshArrivalsAndLanyardMessages : Obligations.MeshArrivalsAndLanyardMessages := by
  refine ⟨fun s n => ?_, fun s n half div => ?_⟩
  · intro without
    refine ⟨vectorArrival_none, fun f => vectorArrival_early, fun f hf hd => ?_⟩
    have hdue := vectorArrival_due hf hd
    refine ⟨fun hv => ?_, fun v hv he => ?_, fun v w hv he => ?_⟩
    · exact hdue.trans (congrArg _ (deliverFlight_credit (s := without) hv))
    · exact hdue.trans (congrArg _ (deliverFlight_vector (s := without) hv he))
    · obtain ⟨i, hi⟩ := deliverFlight_overrun (s := without) hv he
      exact ⟨i, hdue.trans (congrArg _ hi)⟩
  · intro changed due
    refine ⟨fun hdue hnone => ?_, fun hdue hsome => ?_, fun at' h => ⟨ratiosDue_early h, fun ht => ?_⟩, clockRatioChange_not_due,
      fun h bad => lanyard_still h bad, fun m hm => lanNext_iff, fun m hm hn => ?_⟩
    · refine ⟨_, clockRatioChange_due hdue, ?_⟩
      rw [beginRatio_none hnone]
      exact ratioChanged_changeRatio s half div
    · obtain ⟨slow, hdiv, hall, hwait⟩ := beginRatio_waits hsome div
      exact ⟨slow, hdiv, hall, (clockRatioChange_due hdue).trans (congrArg _ hwait)⟩
    · rw [ratiosDue_due h ht]
      exact ratioChanged_changeRatio _ half div
    · intro mesh known
      have hack := ack_good hm hn
      refine ⟨ack_bad hm hn, fun hk => ?_, fun hk hp => ?_, fun hk hp ht => ?_, fun hk hp ht => ?_, ?_, ?_⟩
      · exact hack.trans (congrArg _ (if_pos hk))
      · exact hack.trans (congrArg _ ((if_neg (not_not.mpr hk)).trans (if_pos hp)))
      · exact hack.trans (congrArg _ ((if_neg (not_not.mpr hk)).trans ((if_neg (by simp [hp])).trans (if_pos ht))))
      · exact hack.trans (congrArg _ ((if_neg (not_not.mpr hk)).trans ((if_neg (by simp [hp])).trans (if_neg ht))))
      · intro id value b cause u
        refine ⟨fault_other hm hn, ?_⟩
        intro about
        refine ⟨fun ht hc hv hall => ?_, fun ht hc hb => ?_, fun x ht hx hr => ?_, fun x q k r c ht hx hr hc hl hp => ?_⟩
        · have hnobody : s.faultBights id cause value = [] := by
            rw [faultBights_entry hc hv, List.filter_eq_nil_iff]
            exact fun x hx => by rw [hall x hx]; decide
          rw [fault_eq hm hn ht, hnobody]; rfl
        · have hnobody : s.faultBights id cause value = [] := by 
            rw [faultBights_router hc, show s.bightOfRouter id = none from hb]; rfl
          rw [fault_eq hm hn ht, hnobody]; rfl
        · rw [fault_eq hm hn ht, faultBights_one hx]
          exact congrArg _ (faultEnds_idle (t := u) hr _)
        · rw [fault_eq hm hn ht, faultBights_one hx]
          exact congrArg _ (faultEnds_running (t := u) hr hc hl hp _)
      · intro p0 b u
        refine ⟨deadLetter_other hm hn, fun ht hd => ?_, fun q k r => deadLetterCmd_resident, fun q k c ht hd hc hl hp hk => ?_⟩
        · exact (deadLetter_eq hm hn ht).trans (congrArg _ (deadLetterArrives_none hd))
        · exact (deadLetter_eq hm hn ht).trans (congrArg _ (deadLetterArrives_some hd hc hl hp hk))

end

/-! Anchored accumulation (R138 to R141 and R157). An accumulator with one more product is `Acc.join` of the accumulator and of
what the product alone gives, and `join` is commutative and associative with the empty accumulator as its unit: so neither the
order of the products nor a split of them shows in the result. -/

namespace Sys2Proof.Machine

/-! ### Combining accumulators -/

@[simp] theorem Acc.join_empty (a : Acc) : a.join {} = a := by
  simp [Acc.join]

theorem Acc.join_comm (a b : Acc) : a.join b = b.join a := by
  simp [Acc.join, Int.add_comm, Nat.add_comm, Bool.or_comm]

theorem Acc.join_assoc (a b c : Acc) : (a.join b).join c = a.join (b.join c) := by
  simp [Acc.join, Int.add_assoc, Nat.add_assoc, Bool.or_assoc]

theorem Acc.join_right_comm (a b c : Acc) : (a.join b).join c = (a.join c).join b := by
  rw [Acc.join_assoc, Acc.join_comm b c, ← Acc.join_assoc]

/-! ### Rounding and clamping a term -/

theorem clampInt_natAbs_le (max : Nat) (x : Int) : (clampInt max x).natAbs ≤ max := by
  unfold clampInt
  split_ifs <;> omega

/-- Twice the distance from the nearest quotient to the exact one is at most the divisor, and reaches it only at an even
quotient. -/
theorem divNearest_nearest (a : Nat) {b : Nat} (hb : 0 < b) :
    2 * (divNearest a b * b - a : Int).natAbs ≤ b ∧
      (2 * (divNearest a b * b - a : Int).natAbs = b → divNearest a b % 2 = 0) := by
  have hsplit : (a : Int) = (a / b : Nat) * b + (a % b : Nat) := by
    exact_mod_cast (Nat.div_add_mod' a b).symm
  have hrem := Nat.mod_lt a hb
  have hdown : ((a / b : Nat) : Int) * b - a = -(a % b : Nat) := by omega
  have hup : ((a / b + 1 : Nat) : Int) * b - a = b - (a % b : Nat) := by
    rw [Nat.cast_succ, add_one_mul]; omega
  unfold divNearest
  dsimp only
  split_ifs
  · rw [hdown]; omega
  · rw [hup]; omega
  · rw [hdown]; omega
  · rw [hup]; omega

theorem roundShift_of_nonneg (m : Int) {k : Int} (hk : 0 ≤ k) : roundShift m k = m * 2 ^ k.toNat := if_pos hk

theorem roundShift_nearest (m : Int) {k : Int} (hk : k < 0) :
    2 * (roundShift m k * 2 ^ (-k).toNat - m).natAbs ≤ ((2 : Int) ^ (-k).toNat).natAbs ∧
      (2 * (roundShift m k * 2 ^ (-k).toNat - m).natAbs = ((2 : Int) ^ (-k).toNat).natAbs → roundShift m k % 2 = 0) := by
  have hnear := divNearest_nearest m.natAbs (Nat.two_pow_pos (-k).toNat)
  rw [Nat.cast_pow, Nat.cast_ofNat] at hnear
  rw [Int.natAbs_pow, show Int.natAbs 2 = 2 from rfl, roundShift, if_neg (not_le.mpr hk)]
  dsimp only
  split_ifs
  · rw [neg_mul]
    omega
  · omega

/-! ### Adding products -/

/-- What a product adds to an accumulator: one term, of a magnitude in the window, and flags. The accumulator has no part in
it. -/
theorem Acc.addProduct_adds (wide : Bool) (anchor : Int) (sc : Option Int) (a w : Elem) :
    ∃ c : Acc, c.terms = 1 ∧ c.sum.natAbs ≤ windowMax wide ∧ ∀ acc : Acc, acc.addProduct wide anchor sc a w = acc.join c := by
  refine ⟨({} : Acc).addProduct wide anchor sc a w, ?_⟩
  unfold addProduct
  dsimp only
  split
  · simp [join]
  · simp [join]
  · simp [join]
  · split_ifs <;> simp [join]
  · split_ifs <;> simp [join]
  · split_ifs <;> simp [join]
  · simp [join, clampInt_natAbs_le]

theorem Acc.addProduct_fin_sum (wide : Bool) (anchor : Int) (acc : Acc) (m n e f sc : Int) :
    (acc.addProduct wide anchor (some sc) (.fin m e) (.fin n f)).sum =
      acc.sum + clampInt (windowMax wide) (roundShift (m * n) (e + f + sc - anchor)) := rfl

/-- The products of a list added one after another, each with the exponent of its scales. -/
def Acc.addProducts (wide : Bool) (anchor : Int) (l : List (Option Int × Elem × Elem)) (acc : Acc) : Acc :=
  l.foldl (fun acc x => acc.addProduct wide anchor x.1 x.2.1 x.2.2) acc

section
variable {wide : Bool} {anchor : Int}

theorem Acc.addProduct_right_comm (x y : Option Int × Elem × Elem) (acc : Acc) :
    (acc.addProduct wide anchor x.1 x.2.1 x.2.2).addProduct wide anchor y.1 y.2.1 y.2.2 =
      (acc.addProduct wide anchor y.1 y.2.1 y.2.2).addProduct wide anchor x.1 x.2.1 x.2.2 := by
  obtain ⟨c, -, -, hx⟩ := addProduct_adds wide anchor x.1 x.2.1 x.2.2
  obtain ⟨d, -, -, hy⟩ := addProduct_adds wide anchor y.1 y.2.1 y.2.2
  simp only [hx, hy, join_right_comm acc c d]

theorem Acc.addProducts_perm {l₁ l₂ : List (Option Int × Elem × Elem)} (h : l₁.Perm l₂) (acc : Acc) :
    addProducts wide anchor l₁ acc = addProducts wide anchor l₂ acc :=
  h.foldl_eq' (fun x _ y _ z => addProduct_right_comm x y z) acc

theorem Acc.addProducts_join (l : List (Option Int × Elem × Elem)) (a b : Acc) :
    addProducts wide anchor l (a.join b) = a.join (addProducts wide anchor l b) := by
  induction l generalizing b with
  | nil => rfl
  | cons x l ih =>
    obtain ⟨c, -, -, hx⟩ := addProduct_adds wide anchor x.1 x.2.1 x.2.2
    simp only [addProducts, List.foldl_cons, hx, join_assoc] at ih ⊢
    exact ih _

theorem Acc.addProducts_append (l₁ l₂ : List (Option Int × Elem × Elem)) (acc : Acc) :
    addProducts wide anchor (l₁ ++ l₂) acc = (addProducts wide anchor l₁ acc).join (addProducts wide anchor l₂ {}) := by
  rw [← addProducts_join, join_empty]
  exact List.foldl_append

theorem Acc.addProducts_terms (l : List (Option Int × Elem × Elem)) (acc : Acc) :
    (addProducts wide anchor l acc).terms = acc.terms + l.length := by
  induction l generalizing acc with
  | nil => rfl
  | cons x l ih =>
    obtain ⟨c, hterms, -, hx⟩ := addProduct_adds wide anchor x.1 x.2.1 x.2.2
    refine (ih _).trans ?_
    simp only [hx, join, hterms, List.length_cons]
    omega

theorem Acc.addProducts_sum_natAbs_le (l : List (Option Int × Elem × Elem)) (acc : Acc) :
    (addProducts wide anchor l acc).sum.natAbs ≤ acc.sum.natAbs + l.length * windowMax wide := by
  induction l generalizing acc with
  | nil => exact Nat.le_add_right _ _
  | cons x l ih =>
    obtain ⟨c, -, hsum, hx⟩ := addProduct_adds wide anchor x.1 x.2.1 x.2.2
    refine (ih _).trans ?_
    have hadd := Int.natAbs_add_le acc.sum c.sum
    simp only [hx, join, List.length_cons, Nat.succ_mul]
    omega

end

end Sys2Proof.Machine

section
open Sys2Proof Sys2Proof.Machine Sys2Proof.Claims

/-- Settles O23: order and split because a product is joined to the accumulator, the bound term by term, and the rounding as
`roundShift` does it. -/
theorem accumulationIgnoresOrderAndSplit : Obligations.AccumulationIgnoresOrderAndSplit := by
  intro wide anchor add
  refine ⟨fun l₁ l₂ acc h => Acc.addProducts_perm h acc, fun l₁ l₂ => Acc.addProducts_append l₁ l₂ {}, fun l => ⟨?_, ?_⟩,
    fun acc m n e f sc => ⟨_, Acc.addProduct_fin_sum wide anchor acc m n e f sc, roundShift_of_nonneg _, roundShift_nearest _⟩⟩
  · exact (Acc.addProducts_terms l {}).trans (Nat.zero_add _)
  · exact (Acc.addProducts_sum_natAbs_le l {}).trans (Nat.zero_add _).le

end

namespace Sys2Proof.Claims
open Sys2Proof.Machine

/-! ### A full tile queue in a module whose bights are listed out of order (R120, R179) -/

/-- A tile of core 0 that waits to start, its staging registers at their reset values. -/
def waitingTile : Tile := { regs := [], tag := 0, core := 0, started := false }

/-- `runningOutOfOrder` with eight tiles waiting in the queue of cluster 0's engine. -/
def fullQueueOutOfOrder : State :=
  { runningOutOfOrder with engines := [(0, { queue := List.replicate 8 waitingTile })] }

/-- The issue rule's view of MX_TILE_GO. -/
def tileGoInsn : Insn := { unit := unitLsu, reads := [], writes := [], acts := true }

theorem issues_fullQueueOutOfOrder : Issues fullQueueOutOfOrder firstIssue tileGoInsn := by decide +kernel

theorem waiting_fullQueueOutOfOrder : (fullQueueOutOfOrder.engine 0).waiting.length = 8 := by decide

theorem stallStart_fullQueueOutOfOrder : stallStart fullQueueOutOfOrder 0 = 1 := by decide +kernel

theorem stallAfter_tileGo : stallAfter (exec (.tileGo firstIssue 0) fullQueueOutOfOrder) = some (.tileQueue, 2) := by
  decide +kernel

end Sys2Proof.Claims

section
open Sys2Proof Sys2Proof.Machine Sys2Proof.Claims

/-- Refutes O22: MX_TILE_GO on the full queue of `fullQueueOutOfOrder` stalls since cycle 2 of bight 5, where the statement has cycle 1
of bight 7: the fetch charges bight 5 and so moves its entry to the front, before the stall reads the cluster's bight. -/
theorem not_tilesQueueStartAndComplete : ¬ Obligations.TilesQueueStartAndComplete := by
  intro h
  obtain ⟨hgo, -⟩ := h
  obtain ⟨hstalls, -⟩ := hgo fullQueueOutOfOrder firstIssue 0 issues_fullQueueOutOfOrder
  exact not_stalls_of_stallAfter stallStart_fullQueueOutOfOrder stallAfter_tileGo
    (hstalls waiting_fullQueueOutOfOrder.ge (.inl rfl))

end

namespace Sys2Proof.Machine

/-! ### What the messages of a lash, a relash or a release leave (R239, R287) -/

/-- RELASH messages have gone out from `s`: the powered stops have acknowledged them, and nothing but the Lanyard shows it. -/
structure State.RelashTold (s t : State) : Prop where
  acks : ∃ l : List LanMsg, t.mesh.lan = s.mesh.lan ++ l ∧ ∀ m ∈ l, m.ty = 0xF ∧ m.dest = stopMgmt
  frame : t = { s with mesh := { s.mesh with
    lan := t.mesh.lan, carried := t.mesh.carried, dropsUnpowered := t.mesh.dropsUnpowered } }

section
variable {s t u : State}

theorem State.RelashTold.refl (s : State) : s.RelashTold s := ⟨⟨[], (List.append_nil _).symm, by simp⟩, rfl⟩

theorem State.RelashTold.trans (h : s.RelashTold t) (h' : t.RelashTold u) : s.RelashTold u := by
  obtain ⟨⟨l, hl, hml⟩, hframe⟩ := h
  obtain ⟨⟨l', hl', hml'⟩, hframe'⟩ := h'
  refine ⟨⟨l ++ l', by rw [hl', hl, List.append_assoc], fun m hm => ?_⟩, by rw [hframe', hframe]⟩
  exact (List.mem_append.mp hm).elim (hml m) (hml' m)

theorem State.relashTold_lanCarry (s : State) (ty dest src : Nat) (payload : List Flit) :
    s.RelashTold (s.lanCarry ty dest src payload) := by
  unfold State.lanCarry
  split <;> exact ⟨⟨[], (List.append_nil _).symm, by simp⟩, rfl⟩

theorem State.relashTold_ack (s : State) (stop : Nat) (payload : List Flit) :
    s.RelashTold (s.lanSend 0xF stopMgmt stop false payload) := ⟨⟨_, rfl, by simp⟩, rfl⟩

theorem State.relashTold_relashMsg (s : State) (op b : Nat) (p : Place) (stop : Nat) : s.RelashTold (s.relashMsg op b p stop) := by
  unfold State.relashMsg
  dsimp only
  split
  · exact (s.relashTold_lanCarry ..).trans (State.relashTold_ack ..)
  · exact s.relashTold_lanCarry ..

theorem State.relashTold_relashAll (s : State) (op b : Nat) (p : Place) (stops : List Nat) :
    s.RelashTold (s.relashAll op b p stops) := by
  induction stops generalizing s with
  | nil => exact .refl s
  | cons a stops ih => exact (s.relashTold_relashMsg op b p a).trans (ih _)

theorem State.RelashTold.mesh (h : s.RelashTold t) : t.mesh = { s.mesh with
    lan := t.mesh.lan, carried := t.mesh.carried, dropsUnpowered := t.mesh.dropsUnpowered } := by rw [h.frame]
theorem State.RelashTold.bights (h : s.RelashTold t) : t.bights = s.bights := by rw [h.frame]
theorem State.RelashTold.now (h : s.RelashTold t) : t.now = s.now := by rw [h.frame]
theorem State.RelashTold.mem (h : s.RelashTold t) : t.mem = s.mem := by rw [h.frame]
theorem State.RelashTold.sram (h : s.RelashTold t) : t.sram = s.sram := by rw [h.frame]
theorem State.RelashTold.circuits (h : s.RelashTold t) : t.mesh.circuits = s.mesh.circuits := by rw [h.frame]
theorem State.RelashTold.router (h : s.RelashTold t) (r : Nat) : t.router r = s.router r := by
  unfold State.router; rw [h.frame]
end

/-! ### Interrupts and reports leave everything but the function's registers (R261, R396) -/

section
variable (s : State)

theorem State.cause_frame (n bit : Nat) : s.cause n bit = { s with
    host := { s.host with fns := (s.cause n bit).host.fns }, sent := (s.cause n bit).sent } := by
  unfold State.cause State.irq
  dsimp only
  split_ifs <;> rfl

theorem State.reportLash_frame (b kind result : Nat) : s.reportLash b kind result = { s with
    bights := { s.bights with opSeq := s.bights.opSeq + 1, opBight := b, opKind := kind, opResult := result }
    host := { s.host with fns := (s.reportLash b kind result).host.fns }, sent := (s.reportLash b kind result).sent } :=
  State.cause_frame _ 0 5

theorem State.reportLash_mesh (b kind result : Nat) : (s.reportLash b kind result).mesh = s.mesh := by rw [State.reportLash_frame]

theorem State.reportLash_bights (b kind result : Nat) : (s.reportLash b kind result).bights =
    { s.bights with opSeq := s.bights.opSeq + 1, opBight := b, opKind := kind, opResult := result } := by
  rw [State.reportLash_frame]

theorem State.bight_reportLash (b kind result k : Nat) : (s.reportLash b kind result).bight k = s.bight k := by
  unfold State.bight; rw [State.reportLash_bights]

theorem State.bight_of_bights {s t : State} (h : t.bights = s.bights) (k : Nat) : t.bight k = s.bight k := by
  unfold State.bight; rw [h]

/-! ### Tables of a placement (R259, R268, R273) -/

/-- A fold that changes one router at each step changes each of its routers, by a change that is the same when made twice. -/
theorem State.router_foldl {g : State → Nat → State} {f : Nat → Router → Router}
    (hg : ∀ s a r, (g s a).router r = if r = a then f a (s.router a) else s.router r) (hf : ∀ a x, f a (f a x) = f a x)
    (l : List Nat) (r : Nat) : (l.foldl g s).router r = if r ∈ l then f r (s.router r) else s.router r := by
  induction l generalizing s with
  | nil => rfl
  | cons a l ih =>
    rw [List.foldl_cons, ih, hg]
    by_cases hra : r = a
    · subst hra
      simp [hf]
    · simp [hra]

theorem State.router_modRouter (a r : Nat) (f : Router → Router) :
    (s.modRouter a f).router r = if r = a then f (s.router a) else s.router r := State.router_setRouter ..

theorem State.router_activity (u : Meter) (k : Activity) (n : Nat) (p : Payer) (r : Nat) :
    (s.activity u k n p).router r = s.router r := by
  unfold State.router
  rw [State.activity_frame]

theorem State.router_claimRouters (b : Nat) (p : Place) (r : Nat) : (s.claimRouters b p).router r =
    if r ∈ p.routers then { s.router r with claim := some b } else s.router r := by
  unfold State.claimRouters
  exact State.router_foldl (f := fun _ x => { x with claim := some b }) s (fun s a r => s.router_modRouter a r _) (fun _ _ => rfl) _ r

theorem State.router_loadBanks (b : Nat) (d : ShapeData) (p : Place) (rs : List Nat) (r : Nat) : (s.loadBanks b d p rs).router r =
    if r ∈ rs then { s.router r with next := some (bankOf b d p r) } else s.router r := by
  unfold State.loadBanks
  dsimp only
  refine State.router_foldl (f := fun a x => { x with next := some (bankOf b d p a) }) s (fun s a r => ?_) (fun _ _ => rfl) _ r
  rw [State.router_activity, State.router_modRouter]

theorem State.bights_claimRouters (b : Nat) (p : Place) : (s.claimRouters b p).bights = s.bights :=
  view_foldl State.bights (f := fun (s : State) r => s.modRouter r fun x => { x with claim := some b }) (fun _ _ => rfl) _ s

/-- The tables of a lash, unlike a relash's, are charged to no bight (R65, R278). -/
theorem State.bights_loadBanks_of_no_relash {b : Nat} (h : (s.bight b).relash = none) (d : ShapeData) (p : Place) (rs : List Nat) :
    (s.loadBanks b d p rs).bights = s.bights := by
  unfold State.loadBanks
  rw [h]
  exact view_foldl State.bights (f := fun (s : State) r => (s.modRouter r fun x =>
    { x with next := some (bankOf b d p r) }).activity (.router r) .table (256 + p.period) .base) (fun _ _ => rfl) rs s

/-- The routers' part of the mesh, each of a list having switched to its prepared bank. -/
def switchedBanks (t : Tab Router) (rs : List Nat) : Tab Router :=
  rs.foldl (fun t r => Tab.put {} t r { bank := (Tab.look {} t r).next }) t

theorem State.switchBanks_eq (rs : List Nat) :
    s.switchBanks rs = { s with mesh := { s.mesh with routers := switchedBanks s.mesh.routers rs } } := by
  induction rs generalizing s with
  | nil => rfl
  | cons r rs ih => exact ih _

theorem State.switched_frame (rs : List Nat) (b : Nat) : (s.switchBanks rs).switchCircuits b =
    { s with mesh := ((s.switchBanks rs).switchCircuits b).mesh } := by
  rw [State.switchBanks_eq]
  rfl

theorem State.RelashTold.mesh_switched {s t : State} (h : s.RelashTold t) (rs : List Nat) (b : Nat) :
    ((t.switchBanks rs).switchCircuits b).mesh = { ((s.switchBanks rs).switchCircuits b).mesh with
      lan := t.mesh.lan, carried := t.mesh.carried, dropsUnpowered := t.mesh.dropsUnpowered } := by
  have hmesh := h.mesh
  simp only [State.switchBanks_eq, State.switchCircuits, State.setCircuits]
  rw [hmesh]

end

end Sys2Proof.Machine

namespace Sys2Proof.Machine

/-! ### LASH (R257 to R259, R654) -/

section
variable {s : State} {addr : Nat}

theorem putLash_rootstock (answer : HostAns) (h : s.errors.rootstock = true) : putLash addr answer s = (0x06, s) := if_pos h

section
variable (hr : s.errors.rootstock = false)
include hr

theorem putLash_host_error : putLash addr none s = (0x00, ((s.readRecord addr 64).aer 0).reportLash 0 3 0x11) :=
  if_neg (by rw [hr]; decide)

theorem putLash_answered (host : Bytes) : putLash addr (some host) s = (0x00, (s.readRecord addr 64).lashWith (slice host 0 64)) :=
  if_neg (by rw [hr]; decide)

end

section
variable {req : Bytes}

theorem State.lashWith_of_used (h : (s.bight (leAt req 0 1)).state ≠ .free) :
    s.lashWith req = s.reportLash (leAt req 0 1) 1 0x02 := if_pos h

variable (hf : (s.bight (leAt req 0 1)).state = .free)
include hf

theorem State.lashWith_of_misplaced (h : leAt req 8 8 % 65536 ≠ 0 ∨ hbmLimit ≤ leAt req 8 8) :
    s.lashWith req = s.reportLash (leAt req 0 1) 1 0x01 := (if_neg (not_not.mpr hf)).trans (if_pos h)

/-- The placement that a lash request asks for, and its hedge. -/
def lashPlace (req : Bytes) (d : ShapeData) : Place :=
  d.place (leAt req 1 1) (leAt req 2 1) (leAt req 3 1) (BitVec.ofNat 64 (leAt req 0x10 8)) (BitVec.ofNat 64 (leAt req 0x18 8))
def lashHedgeOf (req : Bytes) : BitVec 32 :=
  BitVec.ofNat 32 (leAt req 0x24 1 * 2 ^ 24 + leAt req 0x25 1 * 2 ^ 16 + leAt req 0x26 1 * 2 ^ 8 + leAt req 0x27 1)

/-- What a lash request does once its image has been read. -/
def State.lashAfterRead (req : Bytes) : ShapeRead × State → State
  | (.error e, s) => s.reportLash (leAt req 0 1) 1 e
  | (.held, s) => { s with bights := { s.bights with lashWaiting := s.bights.lashWaiting ++ [req] } }
  | (.ok d, s) =>
    if lashRequestBad req then s.reportLash (leAt req 0 1) 1 lashMalformed
    else
      match s.checkPlace (leAt req 0 1) none (lashHedgeOf req) d (lashPlace req d) with
      | 0 => s.beginLash (leAt req 0 1) req d (lashPlace req d)
      | e => s.reportLash (leAt req 0 1) 1 e

theorem State.lashWith_of_placed (h : leAt req 8 8 % 65536 = 0) (h' : leAt req 8 8 < hbmLimit) :
    s.lashWith req = State.lashAfterRead req (s.forgetSteps.readShape .base (leAt req 8 8) (leAt req 1 1)) := by
  unfold State.lashWith
  dsimp only
  rw [if_neg (not_not.mpr hf), if_neg (by omega)]
  generalize s.forgetSteps.readShape .base (leAt req 8 8) (leAt req 1 1) = r
  obtain ⟨x, u⟩ := r
  cases x <;> rfl

end

section
variable {req : Bytes} {d : ShapeData}

theorem State.lashAfterRead_malformed (h : lashRequestBad req = true) :
    State.lashAfterRead req (.ok d, s) = s.reportLash (leAt req 0 1) 1 0x01 := if_pos h

variable (hb : lashRequestBad req = false)
include hb

theorem State.lashAfterRead_refused (h : s.checkPlace (leAt req 0 1) none (lashHedgeOf req) d (lashPlace req d) ≠ 0) :
    State.lashAfterRead req (.ok d, s) = s.reportLash (leAt req 0 1) 1
      (s.checkPlace (leAt req 0 1) none (lashHedgeOf req) d (lashPlace req d)) := by
  refine (if_neg (by rw [hb]; decide)).trans ?_
  split
  · next h0 => exact absurd h0 h
  · rfl

theorem State.lashAfterRead_passed (h : s.checkPlace (leAt req 0 1) none (lashHedgeOf req) d (lashPlace req d) = 0) :
    State.lashAfterRead req (.ok d, s) = s.beginLash (leAt req 0 1) req d (lashPlace req d) := by
  refine (if_neg (by rw [hb]; decide)).trans ?_
  split
  · rfl
  · next h0 => exact absurd h h0

end

section
variable {b : Nat} {req : Bytes} {d : ShapeData} {p : Place}

theorem State.beginLash_of_no_lay {e : Nat} (h : s.layShape b d p = .error e) : s.beginLash b req d p = s.reportLash b 1 e := by
  unfold State.beginLash
  rw [h]

/-- The bight that a lash request makes of what stands in its place. -/
def lashedBight (old : Bight) (req : Bytes) (p : Place) : Bight :=
  { state := .lashing, place := p, fineCounters := old.fineCounters, owner := leAt req 4 2, idleLowOk := (leAt req 6 1).testBit 1
    vfRelash := (leAt req 6 1).testBit 0, carryLocal := leAt req 0x20 2, carryShared := leAt req 0x22 2
    family := leAt req 8 8, hedge := lashHedgeOf req }

theorem State.beginLash_of_lay {s' : State} (h : s.layShape b d p = .ok s') : s.beginLash b req d p =
    (((s'.setBight b (lashedBight (s'.bight b) req p)).claimRouters b p).loadBanks b d p p.routers).driveNeeds := by
  unfold State.beginLash
  rw [h]
  rfl

theorem State.bight_driveNeeds (k : Nat) : s.driveNeeds.bight k = s.bight k :=
  State.bight_of_bights (Claims.domainsMove_driveNeeds s).1.bights k

theorem State.router_driveNeeds (r : Nat) : s.driveNeeds.router r = s.router r := by
  unfold State.router
  rw [(Claims.domainsMove_driveNeeds s).1.frame]

/-- What a lash leaves of its bight and of its routers. -/
theorem State.bight_beginLash {s' : State} (h : s.layShape b d p = .ok s') :
    (s.beginLash b req d p).bight b = lashedBight (s'.bight b) req p := by
  rw [State.beginLash_of_lay h, State.bight_driveNeeds]
  have hx : (s'.setBight b (lashedBight (s'.bight b) req p)).bight b = lashedBight (s'.bight b) req p := by simp
  generalize s'.setBight b _ = u at hx ⊢
  have hclaim : (u.claimRouters b p).bight b = lashedBight (s'.bight b) req p :=
    (State.bight_of_bights (u.bights_claimRouters b p) b).trans hx
  have hload := (u.claimRouters b p).bights_loadBanks_of_no_relash (by rw [hclaim]; rfl) d p p.routers
  exact (State.bight_of_bights hload b).trans hclaim

theorem State.router_beginLash {s' : State} (h : s.layShape b d p = .ok s') {r : Nat} (hr : r ∈ p.routers) :
    (s.beginLash b req d p).router r = { s'.router r with claim := some b, next := some (bankOf b d p r) } := by
  rw [State.beginLash_of_lay h, State.router_driveNeeds, State.router_loadBanks, if_pos hr, State.router_claimRouters, if_pos hr]
  rfl

end
end

/-! ### LASH_COMPLETE, BIGHT_RELEASE, CLEAR and RELEASE_COMPLETE (R259, R261, R265, R279) -/

section
variable {s : State} {b : Nat}

/-- The half-dies of a lash have been told to prepare and all its stops to switch. -/
abbrev State.lashTold (s : State) (b : Nat) : State :=
  (s.relashAll relashPrepare b (s.bight b).place ((s.bight b).place.halves.map stopHalf)).relashAll relashSwitch b
    (s.bight b).place (s.bight b).place.stops

/-- The bight is LASHED, its tables and circuits in force. -/
abbrev State.lashInForce (s : State) (b : Nat) : State :=
  let u := ((s.lashTold b).switchBanks (s.bight b).place.routers).switchCircuits b
  u.modBight b fun y => { y with state := .lashed, sigma := 0, idleSince := u.now }

theorem lashComplete_met (h : (s.bight b).state = .lashing ∧ s.needsMet b (s.bight b).place = true) :
    exec (.lashComplete b) s = .next (((s.lashInForce b).relashAll relashResume b (s.bight b).place
      (s.bight b).place.stops).reportLash b 1 0x00) := congrArg _ (if_pos h)

theorem lashComplete_unmet (h : ¬ ((s.bight b).state = .lashing ∧ s.needsMet b (s.bight b).place = true)) :
    exec (.lashComplete b) s = .next s := congrArg _ (if_neg h)

theorem State.relashTold_lashTold (s : State) (b : Nat) : s.RelashTold (s.lashTold b) :=
  (s.relashTold_relashAll ..).trans (State.relashTold_relashAll ..)

theorem State.bight_lashInForce (k : Nat) : (s.lashInForce b).bight k =
    if k = b then { s.bight b with state := .lashed, sigma := 0, idleSince := s.now } else s.bight k := by
  have htold := s.relashTold_lashTold b
  have hframe := (s.lashTold b).switched_frame (s.bight b).place.routers b
  have hbight : ∀ j, (((s.lashTold b).switchBanks (s.bight b).place.routers).switchCircuits b).bight j = s.bight j :=
    State.bight_of_bights (by rw [hframe, htold.bights])
  have hnow : (((s.lashTold b).switchBanks (s.bight b).place.routers).switchCircuits b).now = s.now := by
    rw [hframe, htold.now]
  rw [State.lashInForce, State.modBight, State.bight_setBight, hbight, hbight, hnow]

theorem State.mesh_lashInForce : (s.lashInForce b).mesh =
    { ((s.switchBanks (s.bight b).place.routers).switchCircuits b).mesh with
      lan := (s.lashTold b).mesh.lan, carried := (s.lashTold b).mesh.carried
      dropsUnpowered := (s.lashTold b).mesh.dropsUnpowered } :=
  (s.relashTold_lashTold b).mesh_switched (s.bight b).place.routers b

theorem State.opSeq_lashInForce : (s.lashInForce b).bights.opSeq = s.bights.opSeq := by
  rw [← (s.relashTold_lashTold b).bights, State.lashInForce, State.switched_frame]
  rfl

end

section
variable {s : State} {v : BitVec 16}

theorem toNat_low_byte (v : BitVec 16) : v.toNat % 256 = (v.extractLsb' 0 8).toNat := by simp

theorem putRelease_free (h : (s.bight (v.extractLsb' 0 8).toNat).state = .free) :
    putRelease v s = (0x00, s.reportLash (v.extractLsb' 0 8).toNat 2 0x03) := by
  unfold putRelease
  dsimp only
  rw [toNat_low_byte, if_pos h]
  rfl

theorem Bight.releaseBegun_iff {x : Bight} : x.releaseBegun = true ↔ x.state = .releasing ∨ x.due = 2 := by
  rw [Bight.releaseBegun, Bool.or_eq_true, beq_iff_eq, beq_iff_eq]

section
variable (h : (s.bight (v.extractLsb' 0 8).toNat).state ≠ .free)
include h

theorem putRelease_begun (hb : (s.bight (v.extractLsb' 0 8).toNat).releaseBegun = true) : putRelease v s = (0x00, s) := by
  unfold putRelease
  dsimp only
  rw [toNat_low_byte, if_neg h, if_pos hb]
  rfl

theorem putRelease_begins (hb : (s.bight (v.extractLsb' 0 8).toNat).releaseBegun = false) :
    putRelease v s = (0x00, s.beginRelease (v.extractLsb' 0 8).toNat) := by
  unfold putRelease
  dsimp only
  rw [toNat_low_byte, if_neg h, if_neg (by rw [hb]; decide)]
  rfl

end
end

section
variable {s : State} {b half : Nat}

theorem clear_due (hc : half ∈ (s.bight b).clearing) (hr : (s.bight b).relash = none) (hq : s.bightQuiet b = true) :
    exec (.clear b half) s = .next ((s.clearHalf b half).relashAll 6 b (s.bight b).place ((s.bight b).place.stopsIn half)).ownersGo :=
  congrArg _ (if_pos (by simp [hc, hr, hq]))

theorem clear_not_due (h : half ∉ (s.bight b).clearing ∨ ¬ ((s.bight b).relash = none ∧ s.bightQuiet b = true)) :
    exec (.clear b half) s = .next s := by
  refine congrArg _ (if_neg ?_)
  simp only [Bool.and_eq_true, List.contains_iff_mem, Option.isNone_iff_eq_none]
  tauto

theorem releaseComplete_due (hs : (s.bight b).state = .releasing) (hc : (s.bight b).clearing = [])
    (hr : (s.bight b).relash = none) (hq : s.bightQuiet b = true) :
    exec (.releaseComplete b) s = .next ((s.freeBight b).reportLash b 2 0x00).ownersGo :=
  congrArg _ (if_pos (by simp [hs, hc, hr, hq]))

theorem releaseComplete_not_due (h : (s.bight b).state ≠ .releasing ∨ (s.bight b).clearing ≠ [] ∨
    ¬ ((s.bight b).relash = none ∧ s.bightQuiet b = true)) : exec (.releaseComplete b) s = .next s := by
  refine congrArg _ (if_neg ?_)
  simp only [Bool.and_eq_true, beq_iff_eq, List.isEmpty_iff, Option.isNone_iff_eq_none]
  tauto

/-! ### What clears and frees leave of the bights -/

theorem State.bights_clearCluster (c : Nat) : (s.clearCluster c).bights = s.bights := rfl

theorem State.bights_freeRouters (rs : List Nat) : (s.freeRouters rs).bights = s.bights :=
  view_foldl State.bights (f := fun (s : State) r => s.modRouter r fun x =>
    { x with bank := none, next := none, claim := none, input := [], credit := [], badParity := [] }) (fun _ _ => rfl) rs s

theorem domainsMove_settleCluster (s : State) (c : Nat) : Claims.DomainsMove s (s.settleCluster c) := by
  unfold State.settleCluster
  dsimp only
  split_ifs
  · exact Claims.domainsMove_reqDom s c .off
  · exact Claims.domainsMove_reqDom s c .low
  · exact ((Claims.domainsMove_reqDom s c .off).trans (Claims.domainsMove_drive _ _ .on)).trans (Claims.domainsMove_drive _ _ .on)

theorem State.bights_settleCluster (c : Nat) : (s.settleCluster c).bights = s.bights := (domainsMove_settleCluster s c).1.bights

theorem State.clearing_clearHalf : ((s.clearHalf b half).bight b).clearing = without (s.bight b).clearing half := by
  unfold State.clearHalf
  dsimp only
  rw [State.modBight, State.bight_setBight_self]
  refine congrArg (fun y : Bight => without y.clearing half) (State.bight_of_bights ?_ b)
  split
  · refine (view_foldl State.bights (fun s c => s.bights_settleCluster c) _ _).trans ?_
    exact (State.bights_freeRouters _).trans (view_foldl State.bights (fun s c => s.bights_clearCluster c) _ s)
  · exact view_foldl State.bights (fun s c => s.bights_clearCluster c) _ s

theorem State.bights_scaleFloors (g : Nat) : (s.scaleFloors g).bights = s.bights := by
  unfold State.scaleFloors
  dsimp only
  split_ifs <;> rfl

theorem State.bights_dropMaster (m : Nat) (groups : List Nat) : (s.dropMaster m groups).bights = s.bights :=
  view_foldl State.bights (fun s g => (State.bights_scaleFloors g).trans (by rfl)) groups s

theorem State.bight_freeBight : (s.freeBight b).bight b = {} := by
  unfold State.freeBight
  dsimp only
  rw [State.bight_of_bights (State.bights_dropMaster ..), State.bight_setBight_self]

end

end Sys2Proof.Machine

namespace Sys2Proof.Claims
open Sys2Proof.Machine

/-- A lash whose circuits can be laid begins: the bight is LASHING, its routers are claimed and their banks are loaded. -/
theorem begun_beginLash {s s' : State} {b : Nat} {d : ShapeData} {p : Place} (req : Bytes) (h : s.layShape b d p = .ok s') :
    let t := s.beginLash b req d p
    (t.bight b).state = .lashing ∧ (t.bight b).place = p ∧ (t.bight b).owner = leAt req 4 2 ∧ (t.bight b).family = leAt req 8 8 ∧
      (t.bight b).hedge = lashHedgeOf req ∧
      ∀ r ∈ p.routers, (t.router r).claim = some b ∧ (t.router r).next = some (bankOf b d p r) := by
  dsimp only
  rw [State.bight_beginLash h]
  refine ⟨rfl, rfl, rfl, rfl, rfl, fun r hr => ?_⟩
  rw [State.router_beginLash h hr]
  exact ⟨rfl, rfl⟩

/-- LASH_COMPLETE once every domain that the bight needs is ON. -/
theorem gives_lashComplete {s : State} {b : Nat} (h : (s.bight b).state = .lashing ∧ s.needsMet b (s.bight b).place = true) :
    Gives (.lashComplete b) s fun t =>
      t.bight b = { s.bight b with state := .lashed, sigma := 0, idleSince := s.now } ∧ (∀ k, k ≠ b → t.bight k = s.bight k) ∧
      t.mesh = { ((s.switchBanks (s.bight b).place.routers).switchCircuits b).mesh with
        lan := t.mesh.lan, carried := t.mesh.carried, dropsUnpowered := t.mesh.dropsUnpowered } ∧
      (∃ l : List LanMsg, t.mesh.lan = s.mesh.lan ++ l ∧ ∀ m ∈ l, m.ty = 0xF ∧ m.dest = stopMgmt) ∧
      t.bights.opSeq = s.bights.opSeq + 1 ∧ t.bights.opBight = b ∧ t.bights.opKind = 1 ∧ t.bights.opResult = 0 := by
  refine ⟨_, lashComplete_met h, ?_⟩
  have hresume := State.relashTold_relashAll (s.lashInForce b) relashResume b (s.bight b).place (s.bight b).place.stops
  generalize (s.lashInForce b).relashAll .. = u at hresume
  have hbight : ∀ k, (u.reportLash b 1 0x00).bight k = _ := fun k =>
    (u.bight_reportLash b 1 0 k).trans ((State.bight_of_bights hresume.bights k).trans (s.bight_lashInForce k))
  refine ⟨(hbight b).trans (if_pos rfl), fun k hk => (hbight k).trans (if_neg hk), ?_, ?_, ?_, ?_⟩
  · rw [State.reportLash_mesh, hresume.mesh, State.mesh_lashInForce]
  · obtain ⟨l, hl, hml⟩ := hresume.acks
    obtain ⟨l', hl', hml'⟩ := (s.relashTold_lashTold b).acks
    refine ⟨l' ++ l, ?_, fun m hm => (List.mem_append.mp hm).elim (hml' m) (hml m)⟩
    rw [State.reportLash_mesh, hl, State.mesh_lashInForce, ← List.append_assoc, ← hl']
  · rw [State.reportLash_bights, hresume.bights, ← s.opSeq_lashInForce (b := b)]
  · rw [State.reportLash_bights]
    exact ⟨rfl, rfl, rfl⟩

end Sys2Proof.Claims

section
open Sys2Proof Sys2Proof.Machine Sys2Proof.Claims

/-- Settles O40: LASH by the checks of its request, and each of the other steps where its condition holds and where it does not. -/
theorem lashAndRelease : Obligations.LashAndRelease := by
  refine ⟨fun s via addr answer hv => ?_, fun s b => ⟨lashComplete_unmet, gives_lashComplete⟩, fun s via v hv => ?_,
    fun s b half => ?_⟩
  · have hlash : ∀ {code t}, putLash addr.toNat answer s = (code, t) → Answers (.lash via addr answer) s via code t :=
      answers_of_objWrite hv rfl
    refine ⟨fun hr => hlash (putLash_rootstock answer hr), fun hr ha => hlash (ha ▸ putLash_host_error hr), fun host hr ha => ?_⟩
    have hread : putLash addr.toNat answer s = (0x00, (s.readRecord addr.toNat 64).lashWith (slice host 0 64)) :=
      ha ▸ putLash_answered hr host
    refine ⟨fun hu => hlash (hread.trans (congrArg _ (State.lashWith_of_used hu))),
      fun hf hm => hlash (hread.trans (congrArg _ (State.lashWith_of_misplaced hf hm))), fun hf ha hl => ?_⟩
    have himage : ∀ {r}, (s.readRecord addr.toNat 64).forgetSteps.readShape .base _ _ = r →
        putLash addr.toNat answer s = (0x00, State.lashAfterRead (slice host 0 64) r) := fun h =>
      hread.trans (congrArg _ ((State.lashWith_of_placed hf ha hl).trans (congrArg _ h)))
    refine ⟨fun e s2 h => hlash (himage h), fun s2 h => hlash (himage h),
      fun d s2 h => ⟨fun hb => ?_, fun hb hc => ?_, fun hb hc => ?_⟩⟩
    · exact hlash ((himage h).trans (congrArg _ (State.lashAfterRead_malformed hb)))
    · exact hlash ((himage h).trans (congrArg _ (State.lashAfterRead_refused hb hc)))
    · have hpass := (himage h).trans (congrArg _ (State.lashAfterRead_passed hb hc))
      exact ⟨fun e he => hlash (hpass.trans (congrArg _ (State.beginLash_of_no_lay he))),
        fun s3 hs3 => ⟨_, hlash hpass, begun_beginLash _ hs3⟩⟩
  · have hrelease : ∀ {code t}, putRelease v s = (code, t) → Answers (.bightRelease via v) s via code t := answers_of_objWrite hv rfl
    exact ⟨fun h => hrelease (putRelease_free h), fun h hb => hrelease (putRelease_begun h (Bight.releaseBegun_iff.mpr hb)),
      fun h hb => hrelease (putRelease_begins h (Bool.eq_false_iff.mpr (mt Bight.releaseBegun_iff.mp hb)))⟩
  · exact ⟨fun hc hq => clear_due hc hq.1 hq.2, clear_not_due, fun hs hc hq => releaseComplete_due hs hc hq.1 hq.2,
      releaseComplete_not_due, State.clearing_clearHalf, congrArg Bight.state State.bight_freeBight⟩

end

namespace Sys2Proof

/-- Memory of which only the bytes at some addresses are kept. -/
theorem Memory.byte_filter (m : Tab Byte) (p : Nat → Bool) (a : Nat) :
    Memory.byte (m.filter fun e => p e.1) a = if p a = true then Memory.byte m a else 0 := by
  unfold Memory.byte Tab.look
  split
  · next h => rw [find?_filter_keep fun _ => h]
  · next h => rw [find?_filter_drop fun _ => Bool.eq_false_iff.mpr h]; rfl

end Sys2Proof

namespace Sys2Proof.Machine

/-! ### RELASH and PREPARE (R263, R267, R268, R274, R278) -/

section
variable {s : State} {qn : Nat} {q : Queue} {c : Cmd}

theorem relash_of_no_head (h : s.active qn = none) : exec (.relash qn) s = .next s := by
  show execRelash qn s = _
  unfold execRelash
  rw [h]

section
variable (h : s.active qn = some (q, c))
include h

/-- The head of the queue may be checked: it runs, has not begun, and no other relash of its bight is under way or ahead of it. -/
abbrev State.RelashMay (s : State) (qn : Nat) (q : Queue) (c : Cmd) : Prop :=
  c.phase = .running ∧ c.begun = false ∧ (s.bight q.bight).relash = none ∧ s.power.reef = false ∧
    s.relashAhead q.bight qn c.seq = false

theorem relash_of_head {r : Bytes} (hp : c.payload = .relash r) : exec (.relash qn) s =
    .next (if s.RelashMay qn q c then s.checkRelash q.bight qn c.seq q.fn r else s) := by
  show execRelash qn s = _
  unfold execRelash
  rw [h]
  dsimp only
  rw [hp]

theorem relash_of_other_head (hp : ∀ r, c.payload ≠ .relash r) : exec (.relash qn) s = .next s := by
  show execRelash qn s = _
  unfold execRelash
  rw [h]
  dsimp only
  split
  · next r hr => exact absurd hr (hp r)
  · rfl

theorem relash_of_held_head (hm : ¬ s.RelashMay qn q c ∨ ∀ r, c.payload ≠ .relash r) : exec (.relash qn) s = .next s := by
  by_cases hp : ∃ r, c.payload = .relash r
  · obtain ⟨r, hr⟩ := hp
    rw [relash_of_head h hr, if_neg (hm.resolve_right fun hno => hno r hr)]
  · exact relash_of_other_head h fun r hr => hp ⟨r, hr⟩

end
end

section
variable {s : State} {b half : Nat}

/-- Without a relash no phase of one does anything. -/
theorem phases_of_no_relash (h : (s.bight b).relash = none) : exec (.prepare b half) s = .next s ∧ exec (.quiesce b) s = .next s ∧
    exec (.drainLimit b) s = .next s ∧ exec (.commitBoundary b) s = .next s ∧ exec (.switch b) s = .next s ∧
    exec (.resume b) s = .next s ∧ exec (.cancel b) s = .next s := by
  refine ⟨?_, ?_, ?_, ?_, ?_, ?_, ?_⟩
  · show execPrepare b half s = _; unfold execPrepare; dsimp only; rw [h]
  · show execQuiesce b s = _; unfold execQuiesce; dsimp only; rw [h]
  · show execDrainLimit b s = _; unfold execDrainLimit; dsimp only; rw [h]
  · show execCommitBoundary b s = _; unfold execCommitBoundary; dsimp only; rw [h]
  · show execSwitch b s = _; unfold execSwitch; dsimp only; rw [h]
  · show execResume b s = _; unfold execResume; dsimp only; rw [h]
  · show execCancel b s = _; unfold execCancel; rw [h]

theorem State.domOn_iff {i : Nat} : s.domOn i = true ↔ s.dom i = .on := beq_iff_eq

variable {r : Relash} (h : (s.bight b).relash = some r)

/-- A half-die has banks to load for a relash in prepare. -/
abbrev State.PrepareDue (s : State) (b half : Nat) (r : Relash) : Prop :=
  ((s.bight b).state = .prepare ∧ r.cancelled = false ∧ s.power.reef = false) ∧ s.unloaded b r.target half ≠ [] ∧
    s.dom (domHalf half) = .on

/-- What PREPARE does with the target's shape: it is refused, waits, or its banks are loaded and the half-die told. -/
def State.prepareAfterRead (b half : Nat) (r : Relash) (rs : List Nat) : ShapeRead × State → State
  | (.error e, s) => s.cancelRelash b e codeRelashRefused
  | (.held, s) => s
  | (.ok d, s) => (s.loadBanks b d r.target rs).relashMsg relashPrepare b r.target (stopHalf half)

include h

theorem prepare_due (hd : s.PrepareDue b half r) : exec (.prepare b half) s = .next (State.prepareAfterRead b half r
    (s.unloaded b r.target half) (s.forgetSteps.readShape (.bight b) (s.bight b).family r.target.shape)) := by
  obtain ⟨⟨hs, hc, hr⟩, hu, hon⟩ := hd
  show execPrepare b half s = _
  unfold execPrepare
  dsimp only
  rw [h]
  dsimp only
  rw [if_pos ⟨hs, hc, hr, hu, State.domOn_iff.mpr hon⟩]
  generalize s.forgetSteps.readShape .. = x
  obtain ⟨x, u⟩ := x
  cases x <;> rfl

theorem prepare_not_due (hd : ¬ s.PrepareDue b half r) : exec (.prepare b half) s = .next s := by
  show execPrepare b half s = _
  unfold execPrepare
  dsimp only
  rw [h]
  refine congrArg _ (if_neg ?_)
  rintro ⟨hs, hc, hr, hu, hon⟩
  exact hd ⟨⟨hs, hc, hr⟩, hu, State.domOn_iff.mp hon⟩

/-! ### QUIESCE, DRAIN_LIMIT and COMMIT_BOUNDARY (R271, R272) -/

/-- Prepare is complete. -/
abbrev State.QuiesceDue (s : State) (b : Nat) (r : Relash) : Prop :=
  ((s.bight b).state = .prepare ∧ r.cancelled = false ∧ s.power.reef = false) ∧ s.allLoaded b r.target = true ∧
    s.needsMet b r.target = true

/-- The bight of a relash goes to quiesce. -/
def State.quiesced (s : State) (b : Nat) (r : Relash) : State :=
  s.setBight b { s.bight b with state := .quiesce, relash := some { r with quiesceAt := some s.now } }

/-- The wait of each direct-write command that runs on the bight is noted. -/
def State.holdDirect (s : State) (b : Nat) : State :=
  (s.otherRunning b).foldl (fun s e => if e.2.direct then s.holdWait e.1 e.2.seq else s) s

theorem quiesce_due (hd : s.QuiesceDue b r) : exec (.quiesce b) s = .next
    (let u := ((s.quiesced b r).holdDirect b).relashAll relashQuiesce b r.target ((s.bight b).place.stops ++ r.target.stops).dedup
     if r.kill then u.relashKill b else u) := by
  obtain ⟨⟨hs, hc, hr⟩, ha, hn⟩ := hd
  show execQuiesce b s = _
  unfold execQuiesce
  dsimp only
  rw [h]
  exact congrArg _ (if_pos ⟨hs, hc, hr, ha, hn⟩)

theorem quiesce_not_due (hd : ¬ s.QuiesceDue b r) : exec (.quiesce b) s = .next s := by
  show execQuiesce b s = _
  unfold execQuiesce
  dsimp only
  rw [h]
  refine congrArg _ (if_neg ?_)
  rintro ⟨hs, hc, hr, ha, hn⟩
  exact hd ⟨⟨hs, hc, hr⟩, ha, hn⟩

/-- The limit of a DRAIN has expired. -/
abbrev State.DrainOver (s : State) (b : Nat) (r : Relash) : Prop :=
  (s.bight b).state = .quiesce ∧ r.kill = false ∧ r.drainLimit ≠ 0 ∧ r.quiesceAt.getD s.now + 1000 * r.drainLimit ≤ s.now

theorem drainLimit_eq : exec (.drainLimit b) s = .next (if s.DrainOver b r then s.relashKill b else s) := by
  show execDrainLimit b s = _
  unfold execDrainLimit
  dsimp only
  rw [h]

theorem commitBoundary_eq : exec (.commitBoundary b) s = .next
    (if (s.bight b).state = .quiesce ∧ s.otherRunning b = [] then
      s.setBight b { s.bight b with state := .switchover, relash := some { r with boundaryAt := some s.now } } else s) := by
  show execCommitBoundary b s = _
  unfold execCommitBoundary
  dsimp only
  rw [h]
  simp only [List.isEmpty_iff]

/-! ### SWITCH, RESUME and CANCEL (R273, R274, R287) -/

theorem switch_eq : exec (.switch b) s = .next (if (s.bight b).state = .switchover ∧ r.switched = false then
    (s.switchover b r).relashAll relashSwitch b r.target ((s.bight b).place.stops ++ r.target.stops).dedup else s) := by
  show execSwitch b s = _
  unfold execSwitch
  dsimp only
  rw [h]

/-- A bight whose relash has ended with success. -/
def relashedBight (x : Bight) (r : Relash) (now : Nat) : Bight :=
  { x with state := .lashed, relash := none, sigma := 0, relashes := x.relashes + 1, relashResult := lashOk
           tRelash := now - r.boundaryAt.getD now, idleSince := now }

/-- The relash has ended, all stops are told, and what the bight leaves is cleared. -/
def State.resumed (s : State) (b : Nat) (r : Relash) : State :=
  ((s.setBight b (relashedBight (s.bight b) r s.now)).relashAll relashResume b (s.bight b).place (s.bight b).place.stops).leaveOld
    (r.left.getD (s.bight b).place) (s.bight b).place

theorem resume_eq : exec (.resume b) s = .next (if (s.bight b).state = .switchover ∧ r.switched = true then
    (if (s.bight b).due = 0 then s.resumed b r else (s.resumed b r).dueClear b (s.bight b).due) else s) := by
  show execResume b s = _
  unfold execResume
  dsimp only
  rw [h]
  rfl

theorem cancel_eq : exec (.cancel b) s = .next (if r.cancelled = true then
    (s.undoRelash b).relashAll relashCancel b r.target (r.target.halves.map stopHalf) else s) := by
  show execCancel b s = _
  unfold execCancel
  rw [h]

end

/-! ### What kills and waits leave of a bight: all but its commit register -/

section
variable (s : State)

/-- A bight without its commit register. -/
def State.bightButRegister (b : Nat) : Bight := { s.bight b with creg := [] }

theorem State.bightButRegister_of_bights {s t : State} (h : t.bights = s.bights) (b : Nat) :
    t.bightButRegister b = s.bightButRegister b := by
  unfold State.bightButRegister
  rw [State.bight_of_bights h]

theorem State.relash_parts_of_butRegister {s t : State} {b : Nat} (h : t.bightButRegister b = s.bightButRegister b) :
    (t.bight b).state = (s.bight b).state ∧ (t.bight b).relash = (s.bight b).relash ∧ (t.bight b).place = (s.bight b).place :=
  ⟨(congrArg Bight.state h :), (congrArg Bight.relash h :), (congrArg Bight.place h :)⟩

theorem State.bightButRegister_register (k : Nat) (e : RegEntry) (b : Nat) :
    (s.register k e).bightButRegister b = s.bightButRegister b := by
  have hcreg : ∀ u : State, (u.modBight k fun x => { x with creg := x.creg ++ [e] }).bightButRegister b = u.bightButRegister b := by
    intro u
    unfold State.bightButRegister State.modBight
    rw [State.bight_setBight]
    split
    · next hb => rw [hb]
    · rfl
  have hcarry : ∀ ty dest src payload, (s.lanCarry ty dest src payload).bightButRegister b = s.bightButRegister b :=
    fun ty dest src payload => State.bightButRegister_of_bights (s.relashTold_lanCarry ty dest src payload).bights b
  unfold State.register
  refine (hcreg _).trans ?_
  cases e with
  | commit q seq => exact hcarry ..
  | kill q seq code detail rerun =>
    dsimp only
    split <;> exact hcarry ..

theorem State.bightButRegister_requestKill (q seq code : Nat) (detail : BitVec 24) (rerun : Bool) (b : Nat) :
    (s.requestKill q seq code detail rerun).bightButRegister b = s.bightButRegister b := by
  unfold State.requestKill
  split
  · rfl
  · split
    · rfl
    · split
      · exact s.bightButRegister_register ..
      · rfl

theorem State.bightButRegister_relashKill (k b : Nat) : (s.relashKill k).bightButRegister b = s.bightButRegister b := by
  refine view_foldl (State.bightButRegister · b) (fun s e => ?_) _ s
  split
  · rfl
  · exact s.bightButRegister_requestKill ..

theorem State.bights_modCmd (q seq : Nat) (f : Cmd → Cmd) : (s.modCmd q seq f).bights = s.bights := by
  unfold State.modCmd State.modQueue
  split <;> rfl

theorem State.bights_holdDirect (b : Nat) : (s.holdDirect b).bights = s.bights := by
  refine view_foldl State.bights (fun s e => ?_) _ s
  split
  · exact s.bights_modCmd ..
  · rfl

/-! ### What a bight leaves behind when it moves (R38, R273, R280) -/

/-- The SRAM of cluster `c` reads zero. -/
def State.SramZero (c : Nat) : Prop := ∀ o, o < sramUsed → Memory.byte s.mem (sramAddr c o) = 0

theorem blockCode_div (c : Nat) {o : Nat} (h : o < sramUsed) : blockCode c o / 8192 = c := by
  unfold blockCode
  unfold sramUsed at h
  split <;> omega

/-- A clear zeroes a cluster of which nothing is retired. -/
theorem State.sramZero_clearCluster {c : Nat} (h : ∀ e ∈ s.sram.retired, e.1 / 8192 ≠ c) : (s.clearCluster c).SramZero c := by
  intro o ho
  have hoff : (sramAddr c o - sramBase) % sramStride = o := by
    unfold sramUsed at ho
    unfold sramAddr sramBase sramStride
    omega
  have hkept : (s.sram.retired.any fun e => e.1 == blockCode c ((sramAddr c o - sramBase) % sramStride)) = false := by
    rw [hoff, List.any_eq_false]
    intro e he heq
    exact h e he (by rw [beq_iff_eq.mp heq, blockCode_div c ho])
  refine (Memory.byte_filter s.mem (fun a => !(decide (sramAddr c 0 ≤ a) && decide (a < sramAddr c 0 + sramUsed) &&
    !(s.sram.retired.any fun e => e.1 == blockCode c ((a - sramBase) % sramStride)))) (sramAddr c o)).trans (if_neg ?_)
  have hlo : sramAddr c 0 ≤ sramAddr c o := by unfold sramAddr; omega
  have hhi : sramAddr c o < sramAddr c 0 + sramUsed := by unfold sramAddr; omega
  simp [hkept, hlo, hhi]

theorem State.SramZero.clearCluster {s : State} {c : Nat} (h : s.SramZero c) (k : Nat) : (s.clearCluster k).SramZero c := by
  intro o ho
  refine (Memory.byte_filter s.mem (fun a => !(decide (sramAddr k 0 ≤ a) && decide (a < sramAddr k 0 + sramUsed) &&
    !(s.sram.retired.any fun e => e.1 == blockCode k ((a - sramBase) % sramStride)))) (sramAddr c o)).trans ?_
  split
  · exact h o ho
  · rfl

theorem State.SramZero.of_mem {s t : State} {c : Nat} (h : s.SramZero c) (hm : t.mem = s.mem) : t.SramZero c := fun o ho => by
  rw [hm]; exact h o ho

/-- One cluster leaves a bight. -/
def State.leaveCluster (s : State) (c : Nat) : State := (s.clearCluster c).settleCluster c

theorem State.leaveOld_eq (old new : Place) : s.leaveOld old new =
    (old.memberClusters.filter fun c => !new.memberClusters.contains c).foldl State.leaveCluster
      (s.freeRouters (old.routers.filter fun k => !new.routers.contains k)) := rfl

theorem State.bights_leaveCluster (c : Nat) : (s.leaveCluster c).bights = s.bights := State.bights_settleCluster c

theorem State.mem_settleCluster (c : Nat) : (s.settleCluster c).mem = s.mem := by rw [(domainsMove_settleCluster s c).1.frame]

theorem State.retired_leaveCluster (c : Nat) : (s.leaveCluster c).sram.retired = s.sram.retired := by
  unfold State.leaveCluster
  rw [(domainsMove_settleCluster (s.clearCluster c) c).1.frame]
  rfl

/-- Every cluster of a list that leaves, and of which nothing is retired, reads zero afterwards. -/
theorem State.sramZero_foldl_leaveCluster (l : List Nat) {c : Nat} (hr : ∀ e ∈ s.sram.retired, e.1 / 8192 ≠ c)
    (h : c ∈ l ∨ s.SramZero c) : (l.foldl State.leaveCluster s).SramZero c := by
  induction l generalizing s with
  | nil => exact h.resolve_left (List.not_mem_nil)
  | cons k l ih =>
    refine ih (s.leaveCluster k) (by rwa [State.retired_leaveCluster]) ?_
    have hzero : (s.clearCluster k).SramZero c → (s.leaveCluster k).SramZero c := fun hz => hz.of_mem (State.mem_settleCluster _ k)
    obtain hmem | hz := h
    · obtain rfl | hl := List.mem_cons.mp hmem
      · exact .inr (hzero (s.sramZero_clearCluster hr))
      · exact .inl hl
    · exact .inr (hzero (hz.clearCluster k))

theorem State.bights_leaveOld (old new : Place) : (s.leaveOld old new).bights = s.bights :=
  (view_foldl State.bights State.bights_leaveCluster _ _).trans (State.bights_freeRouters _)

theorem State.sramZero_leaveOld {old new : Place} {c : Nat} (hold : c ∈ old.memberClusters) (hnew : c ∉ new.memberClusters)
    (hr : ∀ e ∈ s.sram.retired, e.1 / 8192 ≠ c) : (s.leaveOld old new).SramZero c := by
  rw [State.leaveOld_eq]
  have hsram : (s.freeRouters (old.routers.filter fun k => !new.routers.contains k)).sram = s.sram :=
    view_foldl State.sram (f := fun (s : State) r => s.modRouter r fun x =>
      { x with bank := none, next := none, claim := none, input := [], credit := [], badParity := [] }) (fun _ _ => rfl) _ s
  refine State.sramZero_foldl_leaveCluster _ _ (by rwa [hsram]) (.inl (List.mem_filter.mpr ⟨hold, ?_⟩))
  simpa using hnew

end

/-! ### What RESUME and CANCEL leave (R265, R273, R274, R279) -/

section
variable {s : State} {b : Nat} {r : Relash}

theorem State.bight_resumed (k : Nat) :
    (s.resumed b r).bight k = if k = b then relashedBight (s.bight b) r s.now else s.bight k := by
  have hbights : (s.resumed b r).bights = (s.setBight b (relashedBight (s.bight b) r s.now)).bights :=
    (State.bights_leaveOld ..).trans (State.relashTold_relashAll ..).bights
  exact (State.bight_of_bights hbights k).trans (State.bight_setBight ..)

theorem State.sramZero_resumed {c : Nat} (hold : c ∈ (r.left.getD (s.bight b).place).memberClusters)
    (hnew : c ∉ (s.bight b).place.memberClusters) (hr : ∀ e ∈ s.sram.retired, e.1 / 8192 ≠ c) : (s.resumed b r).SramZero c := by
  refine State.sramZero_leaveOld _ hold hnew ?_
  rw [(State.relashTold_relashAll ..).sram]
  exact hr

theorem State.dueClear_of_settled {due : Nat} (h : (s.bight b).state = .lashed) : s.dueClear b due = s.setBight b { s.bight b with
    state := if due = 2 then .releasing else .lashed, clearing := (s.bight b).place.halves, due := 0 } := by
  unfold State.dueClear
  dsimp only
  rw [h]
  rfl

theorem State.mem_dueClear (due : Nat) : (s.dueClear b due).mem = s.mem := by
  unfold State.dueClear
  dsimp only
  split <;> rfl

/-- CANCEL leaves no relash. -/
theorem State.relash_undoRelash (s : State) (b : Nat) : ((s.undoRelash b).bight b).relash = none := by
  unfold State.undoRelash
  dsimp only
  split
  · next h => exact h
  · rw [State.modBight, State.bight_setBight_self]

end

end Sys2Proof.Machine

namespace Sys2Proof.Claims
open Sys2Proof.Machine

section
variable {s : State} {b : Nat} {r : Relash} (h : (s.bight b).relash = some r)
include h

/-- QUIESCE leaves of the bight all but its state, its relash and what waits in its commit register. -/
theorem gives_quiesce (hd : s.QuiesceDue b r) : Gives (.quiesce b) s fun t => (t.bight b).state = .quiesce ∧
    (t.bight b).relash = some { r with quiesceAt := some s.now } ∧ (t.bight b).place = (s.bight b).place := by
  refine ⟨_, quiesce_due h hd, ?_⟩
  have htold := State.relashTold_relashAll ((s.quiesced b r).holdDirect b) relashQuiesce b r.target
    ((s.bight b).place.stops ++ r.target.stops).dedup
  dsimp only
  generalize ((s.quiesced b r).holdDirect b).relashAll .. = u at htold ⊢
  have hu : u.bightButRegister b = (s.quiesced b r).bightButRegister b :=
    State.bightButRegister_of_bights (htold.bights.trans (State.bights_holdDirect ..)) b
  have hkill : (if r.kill then u.relashKill b else u).bightButRegister b = (s.quiesced b r).bightButRegister b := by
    split
    · exact (u.bightButRegister_relashKill b b).trans hu
    · exact hu
  obtain ⟨hstate, hrelash, hplace⟩ := State.relash_parts_of_butRegister hkill
  rw [hstate, hrelash, hplace, State.quiesced, State.bight_setBight_self]
  exact ⟨rfl, rfl, rfl⟩

theorem gives_commitBoundary (hi : (s.bight b).state = .quiesce ∧ s.otherRunning b = []) : Gives (.commitBoundary b) s fun t =>
    t.bight b = { s.bight b with state := .switchover, relash := some { r with boundaryAt := some s.now } } ∧
    ∀ k, k ≠ b → t.bight k = s.bight k :=
  ⟨_, (commitBoundary_eq h).trans (congrArg _ (if_pos hi)), State.bight_setBight_self ..,
    fun _ hk => (State.bight_setBight ..).trans (if_neg hk)⟩

theorem gives_switch (hm : (s.bight b).state = .switchover ∧ r.switched = false) : Gives (.switch b) s fun t =>
    (∀ k, t.bight k = (s.switchover b r).bight k) ∧ t.mem = (s.switchover b r).mem ∧
    (∀ k, t.router k = (s.switchover b r).router k) ∧ t.mesh.circuits = (s.switchover b r).mesh.circuits := by
  have htold := (s.switchover b r).relashTold_relashAll relashSwitch b r.target ((s.bight b).place.stops ++ r.target.stops).dedup
  exact ⟨_, (switch_eq h).trans (congrArg _ (if_pos hm)), State.bight_of_bights htold.bights, htold.mem, htold.router, htold.circuits⟩

theorem gives_cancel (hc : r.cancelled = true) : Gives (.cancel b) s fun t => (∀ k, t.bight k = (s.undoRelash b).bight k) ∧
    (∀ k, t.router k = (s.undoRelash b).router k) ∧ t.mem = (s.undoRelash b).mem ∧ (t.bight b).relash = none := by
  have htold := (s.undoRelash b).relashTold_relashAll relashCancel b r.target (r.target.halves.map stopHalf)
  have hbight := State.bight_of_bights htold.bights
  exact ⟨_, (cancel_eq h).trans (congrArg _ (if_pos hc)), hbight, htold.router, htold.mem,
    (congrArg Bight.relash (hbight b)).trans (s.relash_undoRelash b)⟩

section
variable (hm : (s.bight b).state = .switchover ∧ r.switched = true)
include hm

theorem resume_due : exec (.resume b) s = .next
    (if (s.bight b).due = 0 then s.resumed b r else (s.resumed b r).dueClear b (s.bight b).due) :=
  (resume_eq h).trans (congrArg _ (if_pos hm))

theorem gives_resume_alone (hd : (s.bight b).due = 0) : Gives (.resume b) s fun t =>
    t.bight b = relashedBight (s.bight b) r s.now ∧ ∀ k, k ≠ b → t.bight k = s.bight k :=
  ⟨_, (resume_due h hm).trans (congrArg _ (if_pos hd)), (State.bight_resumed b).trans (if_pos rfl),
    fun k hk => (State.bight_resumed k).trans (if_neg hk)⟩

/-- A reset or release that waited for the relash begins with its clears. -/
theorem gives_resume_due (hd : (s.bight b).due ≠ 0) : Gives (.resume b) s fun t =>
    (t.bight b).relash = none ∧ (t.bight b).relashes = (s.bight b).relashes + 1 ∧
    (t.bight b).clearing = (s.bight b).place.halves ∧ (t.bight b).due = 0 := by
  refine ⟨_, (resume_due h hm).trans (congrArg _ (if_neg hd)), ?_⟩
  have hbight : (s.resumed b r).bight b = relashedBight (s.bight b) r s.now := (State.bight_resumed b).trans (if_pos rfl)
  dsimp only
  rw [State.dueClear_of_settled (by rw [hbight]; rfl), State.bight_setBight_self, hbight]
  exact ⟨rfl, rfl, rfl, rfl⟩

theorem gives_resume_zero : Gives (.resume b) s fun t =>
    ∀ c ∈ (r.left.getD (s.bight b).place).memberClusters, c ∉ (s.bight b).place.memberClusters → c < 512 →
      (∀ e ∈ s.sram.retired, e.1 / 8192 ≠ c) → ∀ o, o < sramUsed → Memory.byte t.mem (sramAddr c o) = 0 := by
  refine ⟨_, resume_due h hm, fun c hold hnew _ hr => ?_⟩
  have hzero : (s.resumed b r).SramZero c := State.sramZero_resumed hold hnew hr
  split
  · exact hzero
  · exact hzero.of_mem (State.mem_dueClear _)

end
end

end Sys2Proof.Claims

section
open Sys2Proof Sys2Proof.Machine Sys2Proof.Claims

/-- Settles O41: each phase by its condition, a step of the relash where it holds and nothing where it does not. -/
theorem relashPhases : Obligations.RelashPhases := by
  refine ⟨fun s qn => ⟨relash_of_no_head, fun q c hq => ⟨fun r hp hm => ?_, relash_of_held_head hq⟩⟩,
    fun s b half => ⟨phases_of_no_relash, fun r hr => ?_⟩⟩
  · exact (relash_of_head hq hp).trans (congrArg _ (if_pos hm))
  · refine ⟨fun hd => ?_, prepare_not_due hr, ⟨gives_quiesce hr, quiesce_not_due hr⟩, ⟨fun hd => ?_, fun hd => ?_⟩,
      ⟨gives_commitBoundary hr, fun hi => ?_⟩, ⟨gives_switch hr, fun hm => ?_⟩,
      ⟨gives_resume_alone hr, gives_resume_due hr, gives_resume_zero hr, fun hm => ?_⟩, gives_cancel hr, fun hc => ?_⟩
    · have hprepare := prepare_due hr hd
      exact ⟨fun e s' h => hprepare.trans (by rw [h]; rfl), fun s' h => hprepare.trans (by rw [h]; rfl),
        fun d s' h => hprepare.trans (by rw [h]; rfl)⟩
    · exact (drainLimit_eq hr).trans (congrArg _ (if_pos hd))
    · exact (drainLimit_eq hr).trans (congrArg _ (if_neg hd))
    · exact (commitBoundary_eq hr).trans (congrArg _ (if_neg hi))
    · exact (switch_eq hr).trans (congrArg _ (if_neg hm))
    · exact (resume_eq hr).trans (congrArg _ (if_neg hm))
    · exact (cancel_eq hr).trans (congrArg _ (if_neg (by rw [hc]; decide)))

end

namespace Sys2Proof

/-- What holds of the default and of every new value holds of what a table reads after all its values have changed. -/
theorem Tab.look_mapPut {α : Type} [DecidableEq α] {P : α → Prop} {d : α} (hd : P d) {f : Nat → α → α} (hf : ∀ k v, P (f k v))
    (t : Tab α) (k : Nat) : P (Tab.look d (Tab.mapPut d f t) k) := by
  unfold Tab.look
  cases h : Tab.find? (Tab.mapPut d f t) k with
  | none => exact hd
  | some v =>
    obtain ⟨e, -, he⟩ := List.mem_map.mp (List.mem_of_mem_filter (Machine.Tab.mem_of_find? h))
    have hv : f e.1 e.2 = v := congrArg Prod.snd he
    exact hv ▸ hf e.1 e.2

theorem Tab.not_mem_keys_erase {α : Type} (t : Tab α) (k : Nat) : k ∉ Tab.keys (Tab.erase t k) := by
  induction t with
  | nil => exact List.not_mem_nil
  | cons e t ih =>
    unfold Tab.erase
    split
    · exact ih
    · next hne => exact fun h => (List.mem_cons.mp h).elim (fun h => hne h.symm) ih

end Sys2Proof

namespace Sys2Proof.Machine

/-! ### Function-level resets (R427, R428, R607) -/

section
variable (s : State)

theorem State.fn_irq_other {n m : Nat} (h : m ≠ n) (v : Nat) : (s.irq n v).fn m = s.fn m := by
  unfold State.irq
  dsimp only
  split_ifs
  · exact (State.fn_setFn ..).trans (if_neg h)
  · rfl
  · rfl

theorem State.fn_cause_other {n m : Nat} (h : m ≠ n) (bit : Nat) : (s.cause n bit).fn m = s.fn m :=
  (State.fn_irq_other _ h _).trans ((State.fn_setFn ..).trans (if_neg h))

/-- The report of resets that are complete is function 0's affair. -/
theorem State.fn_flrCheck {m : Nat} (h : m ≠ 0) : s.flrCheck.fn m = s.fn m := by
  refine view_foldl (State.fn · m) (fun s fn => ?_) s.host.flr s
  split
  · exact State.fn_cause_other _ h 4
  · rfl

theorem State.fn_beginFlr {fn : Nat} (h : fn ≠ 0) : ∃ f : Fn, (s.beginFlr fn).fn fn = f.flr := by
  unfold State.beginFlr
  dsimp only
  rw [State.fn_flrCheck _ h]
  generalize State.dropFnFaults _ fn = u
  exact ⟨u.fn fn, State.fn_setFn_self u fn (u.fn fn).flr⟩

/-! ### Windows (R387) -/

theorem State.outbound_ungate (ids : List Nat) : (s.ungate ids).xlat.outbound = s.xlat.outbound :=
  view_foldl (fun s : State => s.xlat.outbound) (f := fun (s : State) x => s.oweCredit x) (fun _ _ => rfl) _ _

theorem State.outWin_invalidate_drain (origin : InvOrigin) (x : InvScope) (w : Nat) :
    (s.invalidate origin false x).outWin w = s.outWin w :=
  congrArg (fun t => Tab.look ({} : OutWindow) t w) ((s.uncacheScope x).outbound_ungate _)

end

section
variable {s : State} {fn : Nat}

/-- The host reaches the registers of a virtual function that is not being reset. -/
abbrev State.FlrMay (s : State) (fn : Nat) : Prop := 1 ≤ fn ∧ fn ≤ 63 ∧ s.regsOpen fn = true ∧ fn ∉ s.host.flr

theorem functionLevelReset_eq : exec (.functionLevelReset fn) s = .next (if s.FlrMay fn then
    (if s.removing fn then { s with host := { s.host with flrDue := withOne s.host.flrDue fn } } else s.beginFlr fn) else s) := by
  refine congrArg _ (if_congr ?_ rfl rfl)
  simp [State.FlrMay, and_assoc]

theorem flrFunction0_closed (h : s.regsOpen 0 = false) : exec .flrFunction0 s = .next s :=
  congrArg _ (if_neg (by rw [h]; decide))

theorem flrFunction0_open (h : s.regsOpen 0 = true) : ∃ u : State, exec .flrFunction0 s = .next
    (({ u with xlat := { u.xlat with
      outbound := Tab.mapPut {} (fun (_ : Nat) (w : OutWindow) => { w with state := 0 }) u.xlat.outbound } } : State).invalidate
        .reset false .all) :=
  ⟨_, congrArg _ (if_pos h)⟩

/-! ### CONTEXT_TEARDOWN (R430, R431, R433) -/

theorem putTeardownRecord_waits {addr : Nat} {b : Bytes} (h : s.host.recordWaiting ≠ []) : putTeardownRecord addr (some b) s =
    (0x00, let u := s.readRecord addr 64
      { u with host := { u.host with recordWaiting := u.host.recordWaiting ++ [(3, b)] } }) := by
  have hw : (s.readRecord addr 64).host.recordWaiting.isEmpty ≠ true := fun he => h (List.isEmpty_iff.mp he)
  exact congrArg (Prod.mk 0x00) (if_neg hw)

theorem putTeardownRecord_done {addr : Nat} {b : Bytes} (h : s.host.recordWaiting = []) :
    putTeardownRecord addr (some b) s = (0x00, (s.readRecord addr 64).doRecord (3, b)) :=
  congrArg (Prod.mk 0x00) (if_pos (List.isEmpty_iff.mpr (show (s.readRecord addr 64).host.recordWaiting = [] from h)))

section
variable {b : Bytes} {u : State}

theorem State.doRecord_of_held (h : s.forgetSteps.teardownRecord b = (none, u)) : s.doRecord (3, b) =
    { u with host := { u.host with recordWaiting := u.host.recordWaiting ++ [(3, b)] } } := by
  unfold State.doRecord
  dsimp only
  rw [h]
  rfl

theorem State.doRecord_of_refused {c : Nat} (h : s.forgetSteps.teardownRecord b = (some c, u)) (hc : c ≠ 0) :
    s.doRecord (3, b) = u.reportOp 3 c := by
  unfold State.doRecord
  dsimp only
  rw [h]
  exact if_neg fun h' => hc h'.2

theorem State.doRecord_of_begun (h : s.forgetSteps.teardownRecord b = (some 0, u)) : s.doRecord (3, b) = u := by
  unfold State.doRecord
  dsimp only
  rw [h]
  rfl

/-- A range or a reserved field of a teardown record is wrong. -/
abbrev teardownBad (b : Bytes) : Prop := 4096 ≤ leAt b 0 2 ∨ allZero (slice b 2 30) = false

theorem State.teardownRecord_malformed (h : teardownBad b) : s.teardownRecord b = (some 1, s) := if_pos h

section
variable (hb : ¬ teardownBad b)
include hb

theorem State.teardownRecord_held (h : s.readContext (leAt b 0 2) = (none, u)) : s.teardownRecord b = (none, u) := by
  refine (if_neg hb).trans ?_
  rw [h]

theorem State.teardownRecord_no_context (h : s.readContext (leAt b 0 2) = (some none, u)) : s.teardownRecord b = (some 5, u) := by
  refine (if_neg hb).trans ?_
  rw [h]
  rfl

section
variable (h : s.readContext (leAt b 0 2) = (some (some fn), u))
include h

theorem State.teardownRecord_not_permitted (hm : u.mapOk fn (mapOf b) = false) : s.teardownRecord b = (some 6, u) := by
  refine (if_neg hb).trans ?_
  rw [h]
  exact if_pos (by rw [hm]; rfl)

variable (hm : u.mapOk fn (mapOf b) = true)
include hm

theorem State.teardownRecord_busy (ht : u.torn (leAt b 0 2) = true) : s.teardownRecord b = (some 7, u) := by
  refine (if_neg hb).trans ?_
  rw [h]
  exact (if_neg (by rw [hm]; decide)).trans (if_pos ht)

theorem State.teardownRecord_begins (ht : u.torn (leAt b 0 2) = false) :
    s.teardownRecord b = (some 0, u.beginTeardown (leAt b 0 2) (mapOf b)) := by
  refine (if_neg hb).trans ?_
  rw [h]
  exact (if_neg (by rw [hm]; decide)).trans (if_neg (by rw [ht]; decide))

end
end
end

/-! ### A teardown goes on and ends (R431, R432) -/

section
variable {asid : Nat}

theorem State.teardownCheck_of_one (h : s.host.tearKills = [asid]) : s.teardownCheck = if s.tearKilled asid then
    ({ s with host := { s.host with tearKills := [] } } : State).teardownBreak asid else s := by
  have hnone : without s.host.tearKills asid = [] := by simp [h, without]
  unfold State.teardownCheck
  rw [h, List.foldl_cons, List.foldl_nil, hnone]

/-- The queues of the context are destroyed, and its teardown runs no more. -/
abbrev State.tornDown (s : State) (asid : Nat) : State := { s with
  queues := List.filter (fun e : Nat × Queue => e.2.asid != asid) s.queues
  host := { s.host with teardowns := Tab.erase s.host.teardowns asid } }

theorem teardownComplete_eq : exec (.teardownComplete asid) s = .next (if s.teardownDue asid then
    (((s.tornDown asid).reportOp 3 0).cause 0 4).removalStep else s) := rfl

theorem State.torn_tornDown (s : State) (asid : Nat) : (s.tornDown asid).torn asid = false :=
  Bool.eq_false_iff.mpr fun h => Tab.not_mem_keys_erase _ asid (List.contains_iff_mem.mp h)

theorem State.asid_of_mem_tornDown {e : Nat × Queue} (h : e ∈ (s.tornDown asid).queues) : e.2.asid ≠ asid :=
  bne_iff_ne.mp (List.mem_filter.mp h).2

end
end

end Sys2Proof.Machine

section
open Sys2Proof Sys2Proof.Machine Sys2Proof.Claims

/-- Settles O42: each reset by whether it may begin, a teardown record by its checks in order, and a teardown by whether its kills
have been taken and whether all it waits for has happened. -/
theorem functionsAndContextsGo : Obligations.FunctionsAndContextsGo := by
  refine ⟨fun s fn => ?_, fun s => ⟨flrFunction0_closed, fun h => ?_⟩, fun s via addr answer hv => ?_, fun s asid h => ?_,
    fun s asid => ⟨fun h => ⟨?_, s.torn_tornDown asid, fun _ => State.asid_of_mem_tornDown⟩, fun h => ?_⟩⟩
  · refine ⟨fun hm => ?_, fun hm hr => ?_, fun hm hr => ⟨?_, ?_⟩⟩
    · exact functionLevelReset_eq.trans (congrArg _ (if_neg hm))
    · exact functionLevelReset_eq.trans (congrArg _ ((if_pos hm).trans (if_pos hr)))
    · exact functionLevelReset_eq.trans (congrArg _ ((if_pos hm).trans (if_neg (by rw [hr]; decide))))
    · obtain ⟨f, hf⟩ := s.fn_beginFlr (show fn ≠ 0 by have := hm.1; omega)
      dsimp only
      rw [hf]
      exact ⟨rfl, rfl, rfl, rfl, rfl, rfl, rfl⟩
  · obtain ⟨u, hu⟩ := flrFunction0_open h
    refine ⟨_, hu, fun w => ?_⟩
    rw [State.outWin_invalidate_drain]
    exact Tab.look_mapPut (P := fun w : OutWindow => w.state = 0) rfl (fun _ _ => rfl) _ w
  · have hteardown : ∀ {t}, putTeardownRecord addr.toNat answer s = (0x00, t) →
        Answers (.contextTeardown via addr answer) s via 0x00 t :=
      answers_of_objWrite hv rfl
    refine ⟨fun ha => hteardown (ha ▸ rfl), fun b ha hw => hteardown (ha ▸ putTeardownRecord_waits hw), fun b ha hw => ?_⟩
    have hrecord : ∀ {t}, (s.readRecord addr.toNat 64).doRecord (3, b) = t → Answers (.contextTeardown via addr answer) s via 0x00 t :=
      fun hd => hteardown (ha ▸ (putTeardownRecord_done hw).trans (congrArg _ hd))
    refine ⟨fun hb => ?_, fun u hb hc => ?_, fun u hb hc => ?_, fun fn u hb hc => ⟨fun hm => ?_, fun hm ht => ?_, fun hm ht => ?_⟩⟩
    · exact hrecord (State.doRecord_of_refused (State.teardownRecord_malformed hb) (by decide))
    · exact hrecord (State.doRecord_of_held (State.teardownRecord_held hb hc))
    · exact hrecord (State.doRecord_of_refused (State.teardownRecord_no_context hb hc) (by decide))
    · exact hrecord (State.doRecord_of_refused (State.teardownRecord_not_permitted hb hc hm) (by decide))
    · exact hrecord (State.doRecord_of_refused (State.teardownRecord_busy hb hc hm ht) (by decide))
    · exact hrecord (State.doRecord_of_begun (State.teardownRecord_begins hb hc hm ht))
  · rw [State.teardownCheck_of_one h]
    exact ⟨fun hk => if_neg (by rw [hk]; decide), fun hk => if_pos hk⟩
  · exact teardownComplete_eq.trans (congrArg _ (if_pos h))
  · exact teardownComplete_eq.trans (congrArg _ (if_neg (by rw [h]; decide)))

end

namespace Sys2Proof.Machine

/-! ### Parities and fields of an exclusive or (R292) -/

theorem bool_xor_xor_xor_comm : ∀ a b c d : Bool, xor (xor a b) (xor c d) = xor (xor a c) (xor b d) := by decide

theorem parity_succ (n x : Nat) : parity (n + 1) x = xor (parity n x) (x.testBit n) := by
  unfold parity
  rw [List.range_succ, List.filter_append, List.length_append, List.filter_singleton]
  cases x.testBit n
  · simp
  · simp only [cond_true, List.length_singleton, Bool.xor_true]
    rcases Nat.mod_two_eq_zero_or_one ((List.range n).filter fun i => x.testBit i).length with h | h <;>
      simp [Nat.add_mod, h]

theorem parity_xor (n x y : Nat) : parity n (x ^^^ y) = xor (parity n x) (parity n y) := by
  induction n with
  | zero => rfl
  | succ n ih => rw [parity_succ, parity_succ, parity_succ, ih, Nat.testBit_xor, bool_xor_xor_xor_comm]

theorem fieldN_xor (x y lo w : Nat) : fieldN (x ^^^ y) lo w = fieldN x lo w ^^^ fieldN y lo w := by
  unfold fieldN
  simp only [← Nat.shiftRight_eq_div_pow, Nat.shiftRight_xor_distrib, Nat.xor_mod_two_pow]

theorem fieldN_lt (x lo w : Nat) : fieldN x lo w < 2 ^ w := Nat.mod_lt _ (Nat.two_pow_pos w)

/-- Two numbers in two fields each: their exclusive or goes field by field. -/
theorem add_mul_two_pow_xor {k a a' : Nat} (h : a < 2 ^ k) (h' : a' < 2 ^ k) (b b' : Nat) :
    (a + 2 ^ k * b) ^^^ (a' + 2 ^ k * b') = (a ^^^ a') + 2 ^ k * (b ^^^ b') := by
  refine Nat.eq_of_testBit_eq fun i => ?_
  rw [Nat.testBit_xor, Nat.add_comm a, Nat.add_comm a', Nat.add_comm (a ^^^ a'), Nat.testBit_two_pow_mul_add _ h,
    Nat.testBit_two_pow_mul_add _ h', Nat.testBit_two_pow_mul_add _ (Nat.xor_lt_two_pow h h'), Nat.testBit_xor, Nat.testBit_xor]
  split <;> rfl

/-- The number whose bit `i` is `p i`, below `2 ^ n`, summed as R292's row parities are. -/
def packBits (n : Nat) (p : Nat → Bool) : Nat := (List.range n).foldl (fun a i => a + (if p i then 2 ^ i else 0)) 0

theorem packBits_succ (n : Nat) (p : Nat → Bool) : packBits (n + 1) p = packBits n p + 2 ^ n * (p n).toNat := by
  unfold packBits
  rw [List.range_succ, List.foldl_append]
  cases h : p n <;> simp [h]

theorem packBits_lt (n : Nat) (p : Nat → Bool) : packBits n p < 2 ^ n := by
  induction n with
  | zero => exact Nat.one_pos
  | succ n ih =>
    have hb : 2 ^ n * (p n).toNat ≤ 2 ^ n * 1 := Nat.mul_le_mul_left _ (p n).toNat_le
    rw [packBits_succ, Nat.pow_succ]
    omega

theorem packBits_xor (n : Nat) (p q : Nat → Bool) : packBits n (fun i => xor (p i) (q i)) = packBits n p ^^^ packBits n q := by
  induction n with
  | zero => exact (Nat.xor_self 0).symm
  | succ n ih =>
    have hb : (xor (p n) (q n)).toNat = (p n).toNat ^^^ (q n).toNat := by cases p n <;> cases q n <;> rfl
    rw [packBits_succ, packBits_succ, packBits_succ, add_mul_two_pow_xor (packBits_lt n p) (packBits_lt n q), ih, hb]

theorem foldl_xor_xor {α : Type} (f g : α → Nat) (l : List α) (a b : Nat) :
    (l.map fun i => f i ^^^ g i).foldl (· ^^^ ·) (a ^^^ b) = (l.map f).foldl (· ^^^ ·) a ^^^ (l.map g).foldl (· ^^^ ·) b := by
  induction l generalizing a b with
  | nil => rfl
  | cons i l ih =>
    simp only [List.map_cons, List.foldl_cons]
    rw [← ih]
    congr 1
    ac_rfl

theorem foldl_xor_lt {k : Nat} (l : List Nat) {a : Nat} (ha : a < 2 ^ k) (hl : ∀ x ∈ l, x < 2 ^ k) :
    l.foldl (· ^^^ ·) a < 2 ^ k := by
  induction l generalizing a with
  | nil => exact ha
  | cons x l ih =>
    exact ih (Nat.xor_lt_two_pow ha (hl x List.mem_cons_self)) fun y hy => hl y (List.mem_cons_of_mem x hy)

/-! ### The check bits are linear (R292) -/

/-- RP of a data word, CP of it, and OP over both. -/
def rowParities (x : Nat) : Nat := packBits 8 fun r => parity 8 (fieldN x (8 * r) 8)
def colParities (x : Nat) : Nat := xorAll ((List.range 8).map fun r => fieldN x (8 * r) 8)
def wholeParity (x : Nat) : Bool := xor (parity 64 x) (xor (parity 8 (rowParities x)) (parity 8 (colParities x)))

theorem rowParities_xor (x y : Nat) : rowParities (x ^^^ y) = rowParities x ^^^ rowParities y := by
  unfold rowParities
  simp only [fieldN_xor, parity_xor]
  exact packBits_xor 8 _ _

theorem colParities_xor (x y : Nat) : colParities (x ^^^ y) = colParities x ^^^ colParities y := by
  unfold colParities xorAll
  simp only [fieldN_xor]
  exact foldl_xor_xor _ _ _ 0 0

theorem wholeParity_xor (x y : Nat) : wholeParity (x ^^^ y) = xor (wholeParity x) (wholeParity y) := by
  unfold wholeParity
  rw [rowParities_xor, colParities_xor, parity_xor, parity_xor, parity_xor, bool_xor_xor_xor_comm (parity 8 (rowParities x)),
    bool_xor_xor_xor_comm (parity 64 x)]

theorem rowParities_lt (x : Nat) : rowParities x < 2 ^ 8 := packBits_lt 8 _

theorem colParities_lt (x : Nat) : colParities x < 2 ^ 8 := by
  refine foldl_xor_lt _ (by decide) fun y hy => ?_
  obtain ⟨r, _, rfl⟩ := List.mem_map.mp hy
  exact fieldN_lt x _ 8

/-- The check bits field by field, as R292 lays them out. -/
theorem sramCheckOf_eq (w : Word) : sramCheckOf w =
    BitVec.ofNat 17 (rowParities w.toNat + 2 ^ 8 * (colParities w.toNat + 2 ^ 8 * (wholeParity w.toNat).toNat)) := by
  have ho : sramCheckOf w = BitVec.ofNat 17 (rowParities w.toNat + 256 * colParities w.toNat +
    if wholeParity w.toNat then 65536 else 0) := rfl
  rw [ho]
  congr 1
  cases wholeParity w.toNat <;> simp only [Bool.toNat_true, Bool.toNat_false, if_true, if_false, Bool.false_eq_true] <;> omega

theorem sramCheckOf_xor (w e : Word) : sramCheckOf (w ^^^ e) = sramCheckOf w ^^^ sramCheckOf e := by
  have hb : ∀ p q : Bool, (xor p q).toNat = p.toNat ^^^ q.toNat := by decide
  rw [sramCheckOf_eq, sramCheckOf_eq, sramCheckOf_eq, ← BitVec.ofNat_xor, BitVec.toNat_xor,
    add_mul_two_pow_xor (rowParities_lt _) (rowParities_lt _), add_mul_two_pow_xor (colParities_lt _) (colParities_lt _),
    rowParities_xor, colParities_xor, wholeParity_xor, hb]

/-! ### What the decoder sees of wrong bits (R293, R294) -/

/-- The difference of the check bits that a word shows to the decoder depends on the wrong bits only. -/
theorem sramCheckOf_disc (w e : Word) (f : BitVec 17) :
    (sramCheckOf w ^^^ f) ^^^ sramCheckOf (w ^^^ e) = f ^^^ sramCheckOf e := by
  rw [sramCheckOf_xor, BitVec.xor_comm (sramCheckOf w) f, BitVec.xor_assoc, ← BitVec.xor_assoc (sramCheckOf w),
    BitVec.xor_self, BitVec.zero_xor]

/-- Stored bit `b` inverted, of the 64 data bits and of the 17 check bits. -/
def dataFlip (b : Nat) : Word := if b < 64 then 1 <<< b else 0
def checkFlip (b : Nat) : BitVec 17 := if b < 64 then 0 else 1 <<< (b - 64)

/-- What the decoder sees when stored bit `b` is wrong. -/
def flipDisc (b : Nat) : BitVec 17 := checkFlip b ^^^ sramCheckOf (dataFlip b)

theorem flipDisc_xor (b b' : Nat) :
    (checkFlip b ^^^ checkFlip b') ^^^ sramCheckOf (dataFlip b ^^^ dataFlip b') = flipDisc b ^^^ flipDisc b' := by
  unfold flipDisc
  rw [sramCheckOf_xor]
  ac_rfl

/-- The rows of the decoding table for one wrong bit. -/
theorem sramDecode_flipDisc : ∀ b < 81, sramDecode (flipDisc b) = .corrected (if b < 64 then some b else none) := by
  decide +kernel

theorem checkBit_injective : ∀ i < (17 : Nat), ∀ j < (17 : Nat), (1 : BitVec 17) <<< i = 1 <<< j → i = j := by decide +kernel

/-- A wrong check bit shows as itself. -/
theorem flipDisc_check {b : Nat} (h : ¬ b < 64) : flipDisc b = 1 <<< (b - 64) := by
  unfold flipDisc checkFlip dataFlip
  rw [if_neg h, if_neg h, show sramCheckOf 0 = 0 by decide]
  exact BitVec.xor_zero

/-- The decoder tells a wrong data bit from every other wrong bit, and wrong check bits differ as such. -/
theorem flipDisc_injective {b b' : Nat} (h : b < 81) (h' : b' < 81) (he : flipDisc b = flipDisc b') : b = b' := by
  have hbit : (if b < 64 then some b else none) = if b' < 64 then some b' else none := by
    have hd := congrArg sramDecode he
    rw [sramDecode_flipDisc b h, sramDecode_flipDisc b' h'] at hd
    exact Decoded.corrected.inj hd
  by_cases hb : b < 64
  · rw [if_pos hb] at hbit
    exact (Option.some.inj (Option.ite_none_right_eq_some.mp hbit.symm).2).symm
  · have hb' : ¬ b' < 64 := fun hb' => by simp [hb, hb'] at hbit
    rw [flipDisc_check hb, flipDisc_check hb'] at he
    have := checkBit_injective _ (by omega) _ (by omega) he
    omega

theorem parity_of_corrected {disc : BitVec 17} {x : Option Nat} (h : sramDecode disc = .corrected x) :
    parity 17 disc.toNat = true := by
  by_contra hp
  unfold sramDecode syndromes at h
  rw [Bool.not_eq_true] at hp
  simp only [hp] at h
  split at h <;> simp_all

theorem weight8_eq_zero : ∀ x < 256, weight8 x = 0 → x = 0 := by decide +kernel

/-- An even number of wrong bits is never corrected: what differs is uncorrectable. -/
theorem sramDecode_of_even {disc : BitVec 17} (hp : parity 17 disc.toNat = false) (h0 : disc ≠ 0) : sramDecode disc = .bad := by
  unfold sramDecode syndromes
  simp only [hp]
  split
  · next hr hc =>
    exfalso
    have hlt := disc.isLt
    have hr := weight8_eq_zero _ (Nat.mod_lt _ (by decide)) hr
    have hc := weight8_eq_zero _ (Nat.mod_lt _ (by decide)) hc
    have hcases : disc.toNat = 0 ∨ disc.toNat = 65536 := by omega
    rcases hcases with h | h
    · exact h0 (BitVec.eq_of_toNat_eq h)
    · rw [h] at hp
      exact absurd hp (by decide)
  all_goals simp_all

theorem sramDecode_two_flips {b b' : Nat} (h : b < 81) (h' : b' < 81) (hne : b ≠ b') :
    sramDecode (flipDisc b ^^^ flipDisc b') = .bad := by
  refine sramDecode_of_even ?_ fun h0 => hne (flipDisc_injective h h' (BitVec.xor_eq_zero_iff.mp h0))
  rw [BitVec.toNat_xor, parity_xor, parity_of_corrected (sramDecode_flipDisc b h), parity_of_corrected (sramDecode_flipDisc b' h')]
  rfl

/-- The correction of one wrong bit gives the word back. -/
theorem deliver_dataFlip (w : Word) (b : Nat) :
    (Decoded.corrected (if b < 64 then some b else none)).deliver (w ^^^ dataFlip b) = some w := by
  unfold dataFlip
  split
  · exact congrArg some (by rw [BitVec.xor_assoc, BitVec.xor_self, BitVec.xor_zero])
  · exact congrArg some BitVec.xor_zero

end Sys2Proof.Machine

section
open Sys2Proof Sys2Proof.Machine Sys2Proof.Claims

/-- Settles O37: the decoder sees the wrong bits only, one of which is a row of its table; two differ and have even parity. -/
theorem sramCodeCorrects : Obligations.SramCodeCorrects := by
  intro w b b' hb hb'
  refine ⟨?_, ⟨if b < 64 then some b else none, ?_⟩, fun hne => ?_⟩
  · have hd : sramDecode ((sramCheckOf w ^^^ 0) ^^^ sramCheckOf (w ^^^ 0)) = .clean := by rw [sramCheckOf_disc]; decide
    exact Prod.ext hd ((congrArg (Decoded.deliver · _) hd).trans (congrArg some BitVec.xor_zero))
  · have hd : sramDecode ((sramCheckOf w ^^^ checkFlip b) ^^^ sramCheckOf (w ^^^ dataFlip b)) = _ :=
      (congrArg sramDecode (sramCheckOf_disc w _ _)).trans (sramDecode_flipDisc b hb)
    exact Prod.ext hd ((congrArg (Decoded.deliver · _) hd).trans (deliver_dataFlip w b))
  · have hd : sramDecode ((sramCheckOf w ^^^ (checkFlip b ^^^ checkFlip b')) ^^^
        sramCheckOf (w ^^^ (dataFlip b ^^^ dataFlip b'))) = .bad := by
      rw [sramCheckOf_disc, flipDisc_xor, sramDecode_two_flips hb hb' hne]
    exact Prod.ext hd (congrArg (Decoded.deliver · _) hd)

end

namespace Sys2Proof.Machine

/-! ### What counting an activity leaves of the SRAM and the mesh (R64) -/

section
variable (s : State) (u : Meter) (k : Activity) (n : Nat) (p : Payer)

theorem State.sram_activity : (s.activity u k n p).sram = s.sram := by rw [State.activity_frame]

theorem State.sramCheck_activity : (s.activity u k n p).sramCheck = s.sramCheck := by rw [State.activity_frame]

theorem State.mesh_activity : (s.activity u k n p).mesh = s.mesh := by rw [State.activity_frame]

end

/-! ### Pending write-backs (R299, R306) -/

section
variable {s : State} {c bank : Nat} {e : Nat × Nat} {w : Word}

/-- The state without a pending write-back. -/
abbrev State.takeBack (s : State) (e : Nat × Nat) : State :=
  { s with sram := { s.sram with writeBacks := s.sram.writeBacks.filter (· != e) } }

/-- The write that a write-back makes is counted for the cluster. -/
abbrev State.countBack (s : State) (c : Nat) : State := s.activity (.cluster c) (.sramWrite 8) 1 (s.payerOfCluster c)

theorem sramWriteBack_none (h : s.sram.writeBacks.find? (fun e => e.1 == 24 * c + bank) = none) :
    exec (.sramWriteBack c bank) s = .next s := by
  show execSramWriteBack c bank s = _
  unfold execSramWriteBack
  rw [h]

theorem sramWriteBack_retired (h : s.sram.writeBacks.find? (fun e => e.1 == 24 * c + bank) = some e)
    (hr : s.retiredWord e.2 = true) : exec (.sramWriteBack c bank) s = .next (s.takeBack e) := by
  show execSramWriteBack c bank s = _
  unfold execSramWriteBack
  rw [h]
  exact congrArg _ (if_pos hr)

theorem sramWriteBack_stored (h : s.sram.writeBacks.find? (fun e => e.1 == 24 * c + bank) = some e)
    (hr : s.retiredWord e.2 = false) (hw : (sramDecode (s.sramDisc e.2)).deliver (s.sramWord e.2) = some w) :
    exec (.sramWriteBack c bank) s = .next (((s.takeBack e).countBack c).putSram e.2 w 0) := by
  have hr' : ¬ (s.takeBack e).retiredWord e.2 = true := by rw [show (s.takeBack e).retiredWord e.2 = false from hr]; decide
  have hd : (sramDecode (((s.takeBack e).countBack c).sramDisc e.2)).deliver (((s.takeBack e).countBack c).sramWord e.2) = some w := by
    rw [Claims.activity_sramDisc, Claims.activity_sramWord]
    exact hw
  show execSramWriteBack c bank s = _
  unfold execSramWriteBack
  rw [h]
  dsimp only
  rw [if_neg hr', hd]

theorem State.sramDisc_putSram (s : State) (wa x : Nat) (w : Word) (disc : BitVec 17) :
    (s.putSram wa w disc).sramDisc x = if x = wa then disc else s.sramDisc x := Tab.look_put ..

end

/-! ### A Pruner read (R293, R299, R301, R305) -/

section
variable {s : State} {c bank wa : Nat}

/-- The Pruner engine of a bank has read word `w`. -/
def State.prunerPast (s : State) (key w : Nat) : State :=
  { s with sram := { s.sram with
      pruner := Tab.put 0 s.sram.pruner key ((w + 1) % bankWords)
      passes := if key = 0 ∧ bankWords ≤ w + 1 then s.sram.passes + 1 else s.sram.passes } }

/-- The read that the Pruner makes is counted for the cluster. -/
abbrev State.countPrune (s : State) (c : Nat) : State := s.activity (.cluster c) (.sramRead 8) 1 (s.payerOfCluster c)

/-- The state after the Pruner's read of a word. -/
abbrev State.pruned (s : State) (c wa : Nat) : State := ((s.countPrune c).readSram agentPruner false wa).2

theorem prunerRead_still (h : 512 ≤ c ∨ 24 ≤ bank ∨ s.prunerRuns c = false ∨
    s.nextUnretired c bank (Tab.look 0 s.sram.pruner (24 * c + bank)) = none) : exec (.prunerRead c bank) s = .next s := by
  show execPrunerRead c bank s = _
  unfold execPrunerRead
  dsimp only
  split
  · next hruns =>
    rw [Bool.and_eq_true, Bool.and_eq_true, decide_eq_true_eq, decide_eq_true_eq] at hruns
    obtain ⟨⟨hc, hbank⟩, hp⟩ := hruns
    rcases h with h | h | h | h
    · omega
    · omega
    · rw [h] at hp; cases hp
    · rw [h]
  · rfl

theorem prunerRead_reads {w : Nat} (hc : c < 512) (hb : bank < 24) (hp : s.prunerRuns c = true)
    (hw : s.nextUnretired c bank (Tab.look 0 s.sram.pruner (24 * c + bank)) = some w) : exec (.prunerRead c bank) s =
      .next ((s.pruned c (bankWord c bank (w % bankWords))).prunerPast (24 * c + bank) w) := by
  show execPrunerRead c bank s = _
  unfold execPrunerRead
  dsimp only
  rw [if_pos (by simp [hc, hb, hp]), hw]
  rfl

/-- The word that the Pruner reads next is not retired. -/
theorem State.nextUnretired_unretired {i w : Nat} (h : s.nextUnretired c bank i = some w) :
    s.retiredWord (bankWord c bank (w % bankWords)) = false := by
  obtain ⟨j, -, hj⟩ := List.exists_of_findSome?_eq_some h
  rw [Option.ite_none_left_eq_some, Option.some.injEq] at hj
  obtain ⟨hr, hw⟩ := hj
  rw [← hw]
  exact Bool.eq_false_iff.mpr hr

/-- The pending write-backs with one more, unless it is among them. -/
abbrev State.leaveBack (s : State) (key : Nat × Nat) : State := if s.sram.writeBacks.contains key then s
  else { s with sram := { s.sram with writeBacks := s.sram.writeBacks ++ [key] } }

theorem State.mem_leaveBack (s : State) (key : Nat × Nat) : key ∈ (s.leaveBack key).sram.writeBacks := by
  unfold State.leaveBack
  split
  · next h => exact List.contains_iff_mem.mp h
  · exact List.mem_append_right _ List.mem_cons_self

theorem State.readSram_of_clean {agent : Nat} {rmw : Bool} (hr : s.retiredWord wa = false)
    (hd : sramDecode (s.sramDisc wa) = .clean) : (s.readSram agent rmw wa).2 = s := by
  unfold State.readSram
  simp only [hr, hd, Bool.false_eq_true, if_false]

theorem State.readSram_of_corrected {agent : Nat} {x : Option Nat} (hr : s.retiredWord wa = false)
    (hd : sramDecode (s.sramDisc wa) = .corrected x) : (s.readSram agent false wa).2 =
      (s.sramCorrected agent wa (s.sramDisc wa)).leaveBack (24 * wordCluster wa + wordBank wa, wa) := by
  unfold State.readSram
  simp only [hr, hd, Bool.false_eq_true, if_false, Bool.false_or]

theorem State.readSram_of_bad {agent : Nat} {rmw : Bool} (hr : s.retiredWord wa = false)
    (hd : sramDecode (s.sramDisc wa) = .bad) : (s.readSram agent rmw wa).2 = s.sramBad agent wa (s.sramDisc wa) := by
  unfold State.readSram
  simp only [hr, hd, Bool.false_eq_true, if_false]

theorem State.sramCorrected_sram (s : State) (agent wa : Nat) (disc : BitVec 17) :
    (s.sramCorrected agent wa disc).sram = { s.sram with
      corrected := min 0xFFFFFFFF (s.sram.corrected + 1), lastMsg := (s.sramCorrected agent wa disc).sram.lastMsg
      notSent := (s.sramCorrected agent wa disc).sram.notSent } := by
  unfold State.sramCorrected
  dsimp only
  split_ifs <;> rfl

theorem State.leaveBack_sram (s : State) (key : Nat × Nat) :
    (s.leaveBack key).sram = { s.sram with writeBacks := (s.leaveBack key).sram.writeBacks } := by
  unfold State.leaveBack
  split_ifs <;> rfl

theorem State.readSram_pruner (s : State) (agent wa : Nat) : (s.readSram agent false wa).2.sram.pruner = s.sram.pruner := by
  by_cases hr : s.retiredWord wa = true
  · unfold State.readSram; rw [if_pos hr]
  · rw [Bool.not_eq_true] at hr
    cases hd : sramDecode (s.sramDisc wa) with
    | clean => rw [State.readSram_of_clean hr hd]
    | corrected x => rw [State.readSram_of_corrected hr hd, State.leaveBack_sram, State.sramCorrected_sram]
    | bad => rw [State.readSram_of_bad hr hd]; rfl

end

/-- What the Pruner's find of an uncorrectable word leaves for its report (R305, R309). -/
theorem Sram.foundBad_pruner (x : Sram) (wa : Nat) :
    wa ∈ (x.foundBad agentPruner wa).prunerSeen ∧
    (x.foundBad agentPruner wa).prunerDue = (if wa ∈ x.prunerSeen then x.prunerDue else wa :: x.prunerDue) ∧
    ((wa, true) ∈ x.history → wa ∈ (x.foundBad agentPruner wa).refound) := by
  have hwith : ∀ l : List Nat, wa ∈ withOne l wa := fun l => by
    unfold withOne
    split
    · next h => exact List.contains_iff_mem.mp h
    · exact List.mem_append_right _ List.mem_cons_self
  refine ⟨?_, ?_, fun h => ?_⟩
  · by_cases hs : wa ∈ x.prunerSeen <;> simp [Sram.foundBad, hs]
  · by_cases hs : wa ∈ x.prunerSeen <;> simp [Sram.foundBad, hs]
  · have hc : x.history.contains (wa, true) = true := List.contains_iff_mem.mpr h
    unfold Sram.foundBad
    dsimp only
    rw [if_pos hc]
    exact hwith _

section
variable {s : State} {wa : Nat}

/-- A corrected read is counted and its word left for a write-back (R299, R304). -/
theorem State.readSram_sram_of_corrected {agent : Nat} {x : Option Nat} (hr : s.retiredWord wa = false)
    (hd : sramDecode (s.sramDisc wa) = .corrected x) :
    (s.readSram agent false wa).2.sram.corrected = min 0xFFFFFFFF (s.sram.corrected + 1) ∧
    (24 * wordCluster wa + wordBank wa, wa) ∈ (s.readSram agent false wa).2.sram.writeBacks := by
  rw [State.readSram_of_corrected hr hd]
  exact ⟨by rw [State.leaveBack_sram, State.sramCorrected_sram], State.mem_leaveBack _ _⟩

/-- An uncorrectable read is counted, noted and reported (R304, R314). -/
theorem State.readSram_sram_of_bad {agent : Nat} {rmw : Bool} (hr : s.retiredWord wa = false)
    (hd : sramDecode (s.sramDisc wa) = .bad) : (s.readSram agent rmw wa).2.sram = { s.sram.foundBad agent wa with
      uncorrectable := min 0xFFFFFFFF (s.sram.uncorrectable + 1), lastBad := 8 * wa } := by
  rw [State.readSram_of_bad hr hd]
  rfl

theorem State.readSram_lan_of_bad {agent : Nat} {rmw : Bool} (hr : s.retiredWord wa = false)
    (hd : sramDecode (s.sramDisc wa) = .bad) :
    ∃ m : LanMsg, (s.readSram agent rmw wa).2.mesh.lan = s.mesh.lan ++ [m] ∧ m.ty = 9 ∧ m.dest = stopMgmt := by
  rw [State.readSram_of_bad hr hd]
  exact ⟨_, rfl, rfl, rfl⟩

end

section
variable {s : State} {c wa : Nat}

theorem State.countPrune_retiredWord (s : State) (c wa : Nat) : (s.countPrune c).retiredWord wa = s.retiredWord wa :=
  (State.activity_guards ..).retiredWord wa

/-- The Pruner stores nothing: its read leaves charges, and what the SRAM notes and reports. -/
theorem State.pruned_frame (s : State) (c wa : Nat) : (s.pruned c wa).mem = s.mem ∧ (s.pruned c wa).sramCheck = s.sramCheck ∧
    Claims.SameButCharges s (s.pruned c wa) := by
  obtain ⟨sram, mesh, hread⟩ := (s.countPrune c).readSram_frame agentPruner false wa
  unfold State.pruned
  rw [hread]
  exact ⟨State.activity_mem .., State.sramCheck_activity ..,
    (Claims.sameButCharges_activity s _ _ _ _).congr rfl rfl rfl rfl⟩

theorem State.pruned_of_clean (hr : s.retiredWord wa = false) (hd : sramDecode (s.sramDisc wa) = .clean) :
    s.pruned c wa = s.countPrune c :=
  State.readSram_of_clean (hr ▸ s.countPrune_retiredWord c wa) ((Claims.activity_sramDisc ..).symm ▸ hd)

theorem State.pruned_of_corrected {x : Option Nat} (hr : s.retiredWord wa = false)
    (hd : sramDecode (s.sramDisc wa) = .corrected x) :
    (s.pruned c wa).sram.corrected = min 0xFFFFFFFF (s.sram.corrected + 1) ∧
    (24 * wordCluster wa + wordBank wa, wa) ∈ (s.pruned c wa).sram.writeBacks := by
  rw [← State.sram_activity s (.cluster c) (.sramRead 8) 1 (s.payerOfCluster c)]
  exact State.readSram_sram_of_corrected (hr ▸ s.countPrune_retiredWord c wa) ((Claims.activity_sramDisc ..).symm ▸ hd)

theorem State.pruned_of_bad (hr : s.retiredWord wa = false) (hd : sramDecode (s.sramDisc wa) = .bad) :
    (s.pruned c wa).sram = { s.sram.foundBad agentPruner wa with
      uncorrectable := min 0xFFFFFFFF (s.sram.uncorrectable + 1), lastBad := 8 * wa } ∧
    ∃ m : LanMsg, (s.pruned c wa).mesh.lan = s.mesh.lan ++ [m] ∧ m.ty = 9 ∧ m.dest = stopMgmt := by
  have hr' : (s.countPrune c).retiredWord wa = false := hr ▸ s.countPrune_retiredWord c wa
  have hd' : sramDecode ((s.countPrune c).sramDisc wa) = .bad := (Claims.activity_sramDisc ..).symm ▸ hd
  rw [← State.sram_activity s (.cluster c) (.sramRead 8) 1 (s.payerOfCluster c),
    ← State.mesh_activity s (.cluster c) (.sramRead 8) 1 (s.payerOfCluster c)]
  exact ⟨State.readSram_sram_of_bad hr' hd', State.readSram_lan_of_bad hr' hd'⟩

theorem State.pruned_pruner (s : State) (c wa : Nat) : (s.pruned c wa).sram.pruner = s.sram.pruner :=
  (State.readSram_pruner ..).trans (congrArg Sram.pruner (State.sram_activity ..))

end

/-! ### Reports of uncorrectable words (R304, R305, R309, R328, R649) -/

section
variable {s : State}

theorem State.addCandidate_frame (s : State) (code : Nat) : s.addCandidate code = { s with
    sram := { s.sram with candidates := (s.addCandidate code).sram.candidates }
    host := { s.host with fns := (s.addCandidate code).host.fns }, sent := (s.addCandidate code).sent } := by
  unfold State.addCandidate
  split
  · rfl
  · unfold State.moduleEvent
    rw [State.cause_frame]

theorem State.addCandidate_held (s : State) (code : Nat) :
    code ∈ (s.addCandidate code).sram.candidates ∨ ∃ e ∈ (s.addCandidate code).sram.retired, e.1 = code := by
  unfold State.addCandidate
  split
  · next h =>
    rw [Bool.or_eq_true, List.contains_iff_mem, List.any_eq_true] at h
    exact h.imp_right fun ⟨e, he, hc⟩ => ⟨e, he, beq_iff_eq.mp hc⟩
  · refine .inl ?_
    unfold State.moduleEvent
    rw [State.cause_frame]
    exact List.mem_cons_self

/-- The report of a word is put on record: the word is reported, and no longer a find whose report is on its way. -/
abbrev State.putReported (s : State) (wa : Nat) : State :=
  { s with sram := { s.sram with refound := without s.sram.refound wa, reported := withOne s.sram.reported wa } }

/-- The row block of a word. -/
abbrev wordBlock (wa : Nat) : Nat := blockCode (wordCluster wa) (wordOffset wa)

/-- The words of the row block of `wa` that have been reported. -/
abbrev State.reportedNear (s : State) (wa : Nat) : List Nat := s.sram.reported.filter fun w => wordBlock w == wordBlock wa

theorem State.noteBadWord_eq (s : State) (wa : Nat) : s.noteBadWord wa =
    if wa ∈ s.sram.refound ∨ 4 ≤ ((s.putReported wa).reportedNear wa).length then (s.putReported wa).addCandidate (wordBlock wa)
    else s.putReported wa := by
  refine if_congr ?_ rfl rfl
  rw [Bool.or_eq_true, List.contains_iff_mem, decide_eq_true_eq]

theorem State.noteBadWord_frame (s : State) (wa : Nat) : s.noteBadWord wa = { s with
    sram := { (s.putReported wa).sram with candidates := (s.noteBadWord wa).sram.candidates }
    host := { s.host with fns := (s.noteBadWord wa).host.fns }, sent := (s.noteBadWord wa).sent } := by
  rw [State.noteBadWord_eq]
  split_ifs
  · exact State.addCandidate_frame _ _
  · rfl

/-- A word found again after a full write, and the fourth word of a row block, make the row block a candidate. -/
theorem State.noteBadWord_candidate {wa : Nat}
    (h : wa ∈ s.sram.refound ∨ (wa ∉ s.sram.reported ∧ 3 ≤ (s.reportedNear wa).length)) :
    wordBlock wa ∈ (s.noteBadWord wa).sram.candidates ∨ ∃ e ∈ (s.noteBadWord wa).sram.retired, e.1 = wordBlock wa := by
  rw [State.noteBadWord_eq, if_pos]
  · exact State.addCandidate_held _ _
  · refine h.imp_right fun ⟨hnew, hnear⟩ => ?_
    have hrep : (s.putReported wa).sram.reported = s.sram.reported ++ [wa] := if_neg (by rwa [List.contains_iff_mem])
    unfold State.reportedNear at hnear ⊢
    rw [hrep, List.filter_append, List.length_append, List.filter_singleton, beq_self_eq_true]
    exact Nat.succ_le_succ hnear

/-- What counting a read for the Rootstock rule leaves (R647, R649, R650). -/
theorem State.countBad_frame (s : State) (a : Nat) : s.countBad a = { s with errors := (s.countBad a).errors } := by
  unfold State.countBad State.rootstockCause State.event
  dsimp only
  split_ifs <;> rfl

theorem State.countBad_countedAt (s : State) (a : Nat) : (s.countBad a).errors.countedAt = s.now :: s.countedNow := by
  unfold State.countBad State.rootstockCause State.event
  dsimp only
  split_ifs <;> rfl

theorem State.countBad_cause {a : Nat} (h : s.errors.threshold ≤ s.countedNow.length + 1) :
    (s.countBad a).errors.causes.getLsbD 0 = true := by
  have hc : s.countBad a = ({ s.event 0x0023 a with
      errors := { (s.event 0x0023 a).errors with countedAt := s.now :: s.countedNow } } : State).rootstockCause 0 := if_pos h
  rw [hc]
  unfold State.rootstockCause
  simp

/-- What a report leaves before it is counted: nothing of the mesh, the memory, the bights, the time or the error record. -/
structure State.OnlyNoted (s u : State) : Prop where
  mesh : u.mesh = s.mesh
  mem : u.mem = s.mem
  bights : u.bights = s.bights
  now : u.now = s.now
  errors : u.errors = s.errors

/-- The report of an uncorrectable word of SRAM has been noted: the Pruner's find of it is due no more. -/
def State.notedSram (s : State) (agent wa : Nat) : State :=
  if agent = agentPruner ∧ wa ∈ s.sram.prunerDue then
    { s.noteBadWord wa with sram := { (s.noteBadWord wa).sram with prunerDue := s.sram.prunerDue.erase wa } }
  else s.noteBadWord wa

/-- The report of an uncorrectable word of HBM has been noted: the patrol's find of it is due no more. -/
def State.notedHbm (s : State) (agent cw : Nat) : State :=
  if agent = agentPatrol ∧ cw ∈ (s.group (cwGroup cw)).patrolDue then
    s.modGroup (cwGroup cw) fun x => { x with patrolDue := x.patrolDue.erase cw }
  else s

theorem State.noteBadWord_prunerDue (s : State) (wa : Nat) : (s.noteBadWord wa).sram.prunerDue = s.sram.prunerDue := by
  rw [State.noteBadWord_frame]

theorem State.noteBadWord_onlyNoted (s : State) (wa : Nat) : s.OnlyNoted (s.noteBadWord wa) := by
  constructor <;> rw [State.noteBadWord_frame]

theorem State.notedSram_onlyNoted (s : State) (agent wa : Nat) : s.OnlyNoted (s.notedSram agent wa) := by
  obtain ⟨hmesh, hmem, hbights, hnow, herrors⟩ := s.noteBadWord_onlyNoted wa
  unfold State.notedSram
  split_ifs <;> exact ⟨hmesh, hmem, hbights, hnow, herrors⟩

theorem State.notedHbm_onlyNoted (s : State) (agent cw : Nat) : s.OnlyNoted (s.notedHbm agent cw) := by
  unfold State.notedHbm
  split_ifs <;> exact ⟨rfl, rfl, rfl, rfl, rfl⟩

theorem State.notedHbm_sram (s : State) (agent cw : Nat) : (s.notedHbm agent cw).sram = s.sram := by
  unfold State.notedHbm
  split_ifs <;> rfl

/-- A report that is not to count leaves the Pruner's finds due as they are. -/
theorem State.notedSram_prunerDue {agent wa : Nat} (h : ¬ (agent = agentPruner → wa ∈ s.sram.prunerDue)) :
    (s.notedSram agent wa).sram.prunerDue = s.sram.prunerDue := by
  unfold State.notedSram
  rw [if_neg fun ⟨ha, hw⟩ => h fun _ => hw, State.noteBadWord_prunerDue]

theorem State.notedSram_candidate {agent wa : Nat}
    (h : wa ∈ s.sram.refound ∨ (wa ∉ s.sram.reported ∧ 3 ≤ (s.reportedNear wa).length)) :
    wordBlock wa ∈ (s.notedSram agent wa).sram.candidates ∨ ∃ e ∈ (s.notedSram agent wa).sram.retired, e.1 = wordBlock wa := by
  have hc := State.noteBadWord_candidate h
  unfold State.notedSram
  split_ifs <;> exact hc

end

/-! ### MEMERR (R304, R305, R327, R328, R649) -/

section
variable {s : State} {n : Nat} {m : LanMsg} {p0 p1 p2 : Flit} {rest : List Flit}

/-- The state without the `n`-th message in flight. -/
abbrev State.lanDrop (s : State) (n : Nat) : State := { s with mesh := { s.mesh with lan := dropAt s.mesh.lan n } }

/-- The kind of read that a MEMERR message reports, 2 an uncorrectable one of SRAM and 4 one of HBM, and its agent. -/
abbrev memerrKind (p0 : Flit) : Nat := p0.toNat / 2 ^ 28
abbrev memerrAgent (p0 : Flit) : Nat := p0.toNat / 2 ^ 24 % 16

/-- The reported read counts for the Rootstock rule: no engine that scrubs found it, or its find is due to count. -/
abbrev State.sramCounts (s : State) (agent wa : Nat) : Prop := agent = agentPruner → wa ∈ s.sram.prunerDue
abbrev State.hbmCounts (s : State) (agent cw : Nat) : Prop := agent = agentPatrol → cw ∈ (s.group (cwGroup cw)).patrolDue

/-- The report counts for the Rootstock rule. -/
def State.reportCounts (s : State) (p0 p1 p2 : Flit) : Prop :=
  (memerrKind p0 = 2 ∧ s.sramCounts (memerrAgent p0) (memerrAddr p1 p2 / 8)) ∨
  (memerrKind p0 = 4 ∧ s.hbmCounts (memerrAgent p0) (memerrAddr p1 p2 / 64))

theorem memerr_still (h : ∀ m, s.mesh.lan[n]? = some m → s.lanNext n m = false ∨ m.ty ≠ 9) : exec (.memerr n) s = .next s := by
  show execMemerr n s = _
  unfold execMemerr State.lanTake
  cases hm : s.mesh.lan[n]? with
  | none => rfl
  | some m =>
    rw [Option.bind_some]
    rcases h m hm with hn | hty
    · rw [if_neg (by rw [hn]; decide)]
    · by_cases hn : s.lanNext n m = true
      · rw [if_pos hn]
        exact congrArg _ (if_pos hty)
      · rw [if_neg hn]

theorem fieldN_flit_top (p : Flit) : fieldN p.toNat 28 4 = memerrKind p :=
  Nat.mod_eq_of_lt (Nat.div_lt_of_lt_mul p.isLt)

theorem State.lanTake_eq_drop (hm : s.mesh.lan[n]? = some m) (hn : s.lanNext n m = true) :
    s.lanTake n = some (m, s.lanDrop n) := by
  rw [Claims.lanTake_some hm hn, State.lanDrop, Claims.dropAt_eq]

/-- A report of SRAM is noted, and counted when it counts. -/
theorem State.noted_sram (s : State) (agent wa a : Nat) :
    (if agent = agentPruner then
      if (s.noteBadWord wa).sram.prunerDue.contains wa then
        ({ s.noteBadWord wa with sram := { (s.noteBadWord wa).sram with
            prunerDue := (s.noteBadWord wa).sram.prunerDue.erase wa } } : State).countBad a
      else s.noteBadWord wa
    else (s.noteBadWord wa).countBad a) =
    if s.sramCounts agent wa then (s.notedSram agent wa).countBad a else s.notedSram agent wa := by
  unfold State.notedSram State.sramCounts
  rw [State.noteBadWord_prunerDue, List.contains_eq_mem]
  by_cases ha : agent = agentPruner <;> by_cases hw : wa ∈ s.sram.prunerDue <;> simp [ha, hw]

/-- A report of HBM is noted, and counted when it counts. -/
theorem State.noted_hbm (s : State) (agent cw a : Nat) :
    (if agent = agentPatrol then
      if (s.group (cwGroup cw)).patrolDue.contains cw then
        (s.modGroup (cwGroup cw) fun x => { x with patrolDue := x.patrolDue.erase cw }).countBad a
      else s
    else s.countBad a) =
    if s.hbmCounts agent cw then (s.notedHbm agent cw).countBad a else s.notedHbm agent cw := by
  unfold State.notedHbm State.hbmCounts
  rw [List.contains_eq_mem]
  by_cases ha : agent = agentPatrol <;> by_cases hw : cw ∈ (s.group (cwGroup cw)).patrolDue <;> simp [ha, hw]

section
variable (hm : s.mesh.lan[n]? = some m) (hn : s.lanNext n m = true) (hty : m.ty = 9) (hp : m.payload = p0 :: p1 :: p2 :: rest)
include hm hn hty hp

theorem memerr_other (h2 : memerrKind p0 ≠ 2) (h4 : memerrKind p0 ≠ 4) : exec (.memerr n) s = .next (s.lanDrop n) := by
  show execMemerr n s = _
  unfold execMemerr
  rw [State.lanTake_eq_drop hm hn]
  dsimp only
  rw [if_neg (not_not.mpr hty), hp]
  dsimp only
  rw [fieldN_flit_top, if_neg h2, if_neg h4]

theorem memerr_sram (h : memerrKind p0 = 2) : exec (.memerr n) s = .next
    (if s.sramCounts (memerrAgent p0) (memerrAddr p1 p2 / 8) then
      ((s.lanDrop n).notedSram (memerrAgent p0) (memerrAddr p1 p2 / 8)).countBad (memerrAddr p1 p2)
    else (s.lanDrop n).notedSram (memerrAgent p0) (memerrAddr p1 p2 / 8)) := by
  show execMemerr n s = _
  unfold execMemerr
  rw [State.lanTake_eq_drop hm hn]
  dsimp only
  rw [if_neg (not_not.mpr hty), hp]
  dsimp only
  rw [fieldN_flit_top, if_pos h]
  exact congrArg _ (State.noted_sram (s.lanDrop n) _ _ _)

theorem memerr_hbm (h : memerrKind p0 = 4) : exec (.memerr n) s = .next
    (if s.hbmCounts (memerrAgent p0) (memerrAddr p1 p2 / 64) then
      ((s.lanDrop n).notedHbm (memerrAgent p0) (memerrAddr p1 p2 / 64)).countBad (memerrAddr p1 p2)
    else (s.lanDrop n).notedHbm (memerrAgent p0) (memerrAddr p1 p2 / 64)) := by
  show execMemerr n s = _
  unfold execMemerr
  rw [State.lanTake_eq_drop hm hn]
  dsimp only
  rw [if_neg (not_not.mpr hty), hp]
  dsimp only
  rw [fieldN_flit_top, if_neg (by rw [h]; decide), if_pos h]
  exact congrArg _ (State.noted_hbm (s.lanDrop n) _ _ _)

/-- A report of an uncorrectable read is noted, and counted when it counts. -/
theorem memerr_noted (hk : memerrKind p0 = 2 ∨ memerrKind p0 = 4) : ∃ (u : State) (a : Nat), (s.lanDrop n).OnlyNoted u ∧
    (s.reportCounts p0 p1 p2 → exec (.memerr n) s = .next (u.countBad a)) ∧
    (¬ s.reportCounts p0 p1 p2 → exec (.memerr n) s = .next u ∧ u.sram.prunerDue = s.sram.prunerDue) := by
  unfold State.reportCounts
  rcases hk with h | h
  · refine ⟨_, memerrAddr p1 p2, (s.lanDrop n).notedSram_onlyNoted (memerrAgent p0) (memerrAddr p1 p2 / 8), fun hc => ?_, fun hc => ?_⟩
    · have hcounts := (hc.resolve_right fun h4 => absurd (h.symm.trans h4.1) (by decide)).2
      rw [memerr_sram hm hn hty hp h, if_pos hcounts]
    · have hcounts := fun hs => hc (.inl ⟨h, hs⟩)
      exact ⟨by rw [memerr_sram hm hn hty hp h, if_neg hcounts], State.notedSram_prunerDue hcounts⟩
  · refine ⟨_, memerrAddr p1 p2, (s.lanDrop n).notedHbm_onlyNoted (memerrAgent p0) (memerrAddr p1 p2 / 64), fun hc => ?_, fun hc => ?_⟩
    · have hcounts := (hc.resolve_left fun h2 => absurd (h.symm.trans h2.1) (by decide)).2
      rw [memerr_hbm hm hn hty hp h, if_pos hcounts]
    · have hcounts := fun hs => hc (.inr ⟨h, hs⟩)
      exact ⟨by rw [memerr_hbm hm hn hty hp h, if_neg hcounts], by rw [State.notedHbm_sram]⟩

end
end

end Sys2Proof.Machine

namespace Sys2Proof.Machine

/-! ### Retirement and fault injection (R307 to R309, R312, R313) -/

section
variable {s : State} {code : Nat}

/-- The row blocks that are retired or that the fuses name. -/
abbrev State.knownRetired (s : State) : List Nat := (s.sram.retired.map (·.1) ++ s.fuses.retired).dedup

/-- The row block is retired. -/
abbrev State.isRetired (s : State) (code : Nat) : Bool := s.sram.retired.any fun e => e.1 == code

theorem State.mayRetire_iff : s.mayRetire code = true ↔ code ∈ s.knownRetired ∨ s.knownRetired.length < 64 := by
  unfold State.mayRetire
  rw [Bool.or_eq_true, decide_eq_true_eq, List.contains_iff_mem, or_comm]

theorem State.mayRetire_of_retired (h : s.isRetired code = true) : s.mayRetire code = true := by
  obtain ⟨e, he, hc⟩ := List.any_eq_true.mp h
  refine State.mayRetire_iff.mpr (.inl (List.mem_dedup.mpr (List.mem_append_left _ (List.mem_map.mpr ⟨e, he, ?_⟩))))
  exact beq_iff_eq.mp hc

theorem State.retireOnce_of_retired (h : s.isRetired code = true) : s.retireOnce code = s := if_pos h

theorem State.retireOnce_of_not_retired (h : s.isRetired code = false) : s.retireOnce code = s.retireBlock code :=
  if_neg (Bool.eq_false_iff.mp h)

/-- Self-policy mode may retire the row block (R309). -/
def State.SelfRetires (s : State) (region : Nat) : Prop :=
  s.frame.selfPolicy = true ∧ region ∈ s.sram.candidates ∧ s.isMember (region / 8192) = false ∧ region / 8192 ∉ s.memHold ∧
    (region ∈ s.knownRetired ∨ s.knownRetired.length < 64)

theorem selfPolicyRetire_of_may {region : Nat} (h : s.SelfRetires region) :
    exec (.selfPolicyRetire region) s = .next (s.retireOnce region) := by
  obtain ⟨hmode, hcand, hmember, hhold, hroom⟩ := h
  show execSelfPolicyRetire region s = _
  unfold execSelfPolicyRetire
  rw [State.mayRetire_iff.mpr hroom]
  simp [State.selfPolicy, hmode, hcand, hmember, hhold]

theorem selfPolicyRetire_of_not_may {region : Nat} (h : ¬ s.SelfRetires region) :
    exec (.selfPolicyRetire region) s = .next s := by
  refine congrArg Host.Outcome.next (if_neg fun hall => h ?_)
  simp only [Bool.and_eq_true, Bool.not_eq_true', List.contains_eq_mem, decide_eq_true_eq, decide_eq_false_iff_not] at hall
  obtain ⟨⟨⟨⟨hmode, hcand⟩, hmember⟩, hhold⟩, hroom⟩ := hall
  exact ⟨hmode, hcand, hmember, hhold, State.mayRetire_iff.mp hroom⟩

/-- The region that a value of 0x5012.00 names, and whether its bank field names none (R306, R314). -/
abbrev retireCode (v : BitVec 32) : Nat := (v.extractLsb' 8 14).toNat * 256 + (v.extractLsb' 0 6).toNat
abbrev RetireReserved (v : BitVec 32) : Prop := 16 < (v.extractLsb' 8 5).toNat

theorem fieldN_toNat {k : Nat} (v : BitVec k) (lo w : Nat) : fieldN v.toNat lo w = (v.extractLsb' lo w).toNat := by
  rw [BitVec.extractLsb'_toNat, Nat.shiftRight_eq_div_pow]
  rfl

theorem putRetire_eq (v : BitVec 32) : putRetire v s = if RetireReserved v then (0x06, s)
    else if s.mayRetire (retireCode v) = false then (0x06, s) else (0x00, s.retireOnce (retireCode v)) := by
  unfold putRetire
  simp only [fieldN_toNat, dRefused, dOk, Bool.not_eq_true']

theorem putRetire_refused {v : BitVec 32}
    (h : RetireReserved v ∨ (retireCode v ∉ s.knownRetired ∧ 64 ≤ s.knownRetired.length)) : putRetire v s = (0x06, s) := by
  rw [putRetire_eq]
  split_ifs with hres hmay
  · rfl
  · rfl
  · obtain ⟨hnew, hfull⟩ := h.resolve_left hres
    rw [Bool.not_eq_false, State.mayRetire_iff] at hmay
    exact absurd (hmay.resolve_left hnew) (Nat.not_lt.mpr hfull)

theorem putRetire_accepted {v : BitVec 32} (hres : ¬ RetireReserved v) (hmay : s.mayRetire (retireCode v) = true) :
    putRetire v s = (0x00, s.retireOnce (retireCode v)) := by
  rw [putRetire_eq, if_neg hres, if_neg (by rw [hmay]; decide)]

theorem word_or_and_or (a b v : Word) : (a ||| v) &&& (a ||| b) = a ||| (v &&& b) := by
  ext i hi
  simp only [BitVec.getElem_and, BitVec.getElem_or, Bool.or_and_distrib_left]

/-- The value that CL_FLIP_HI keeps of one written with ARM. -/
theorem flipHi_armed (v : Word) :
    (v ||| 0x8000000000000000) &&& 0x80000000003FFFFF = 0x8000000000000000 ||| (v &&& 0x3FFFFF) := by
  rw [show (0x80000000003FFFFF : Word) = 0x8000000000000000 ||| 0x3FFFFF by decide, BitVec.or_comm v,
    word_or_and_or]

theorem flipArm_closed {c : Nat} {v : Word} (h : 512 ≤ c ∨ s.regsOpen 0 = false) : exec (.flipArm c v) s = .next s := by
  refine congrArg Host.Outcome.next ?_
  split_ifs with hc
  · exact if_neg (Bool.eq_false_iff.mp (h.resolve_left (Nat.not_le.mpr hc)))
  · rfl

theorem flipArm_open {c : Nat} {v : Word} (hc : c < 512) (h : s.regsOpen 0 = true) :
    exec (.flipArm c v) s = .next (s.putFlipHi c (v ||| 0x8000000000000000)) :=
  congrArg Host.Outcome.next ((if_pos hc).trans (if_pos h))

end

end Sys2Proof.Machine

section
open Sys2Proof Sys2Proof.Machine Sys2Proof.Claims

/-- Settles O38: each command by its condition; a Pruner read by the decoding of its word, and a report by whether it counts. -/
theorem sramProtection : Obligations.SramProtection := by
  refine ⟨fun s c bank => ⟨sramWriteBack_none, fun k wa w hfind hw => ?_⟩,
    fun s c bank => ⟨prunerRead_still, fun w hc hb hp hw => ?_⟩,
    fun s n => ⟨memerr_still, fun m p0 p1 p2 rest hm hn hty hpl => ?_⟩, fun s region => ⟨fun h => ?_, fun h hheld => ?_⟩,
    fun s via v hv => ⟨fun h => ?_, fun hres hheld => ?_, fun hres hheld hroom => ?_⟩,
    fun s c v => ⟨flipArm_closed, fun hc ho => ?_⟩⟩
  · by_cases hr : s.retiredWord wa = true
    · exact ⟨_, sramWriteBack_retired hfind hr, rfl, ⟨fun _ => rfl, rfl, fun _ => rfl, rfl, rfl⟩, fun _ => ⟨rfl, rfl⟩,
        fun h => absurd hr (by rw [h]; decide)⟩
    · refine ⟨_, sramWriteBack_stored hfind (Bool.eq_false_iff.mpr hr) hw, ?_, ?_, fun h => absurd h hr, fun _ => ⟨?_, ?_, ?_⟩⟩
      · exact State.sram_activity ..
      · exact (sameButCharges_activity (s.takeBack (k, wa)) _ _ _ _).congr rfl rfl rfl rfl
      · exact congrArg (Memory.write · (8 * wa) (wordBytes w)) (State.activity_mem ..)
      · exact (State.sramDisc_putSram ..).trans (if_pos rfl)
      · exact fun x hx => ((State.sramDisc_putSram ..).trans (if_neg hx)).trans (activity_sramDisc ..)
  · have hr := State.nextUnretired_unretired hw
    obtain ⟨hmem, hcheck, hcharges⟩ := s.pruned_frame c (bankWord c bank (w % bankWords))
    refine ⟨_, prunerRead_reads hc hb hp hw, hmem, hcheck, hcharges.congr rfl rfl rfl rfl, fun k => ?_, fun hd => ?_,
      fun x hd => State.pruned_of_corrected hr hd, fun hd => ?_⟩
    · refine (Tab.look_put ..).trans ?_
      rw [State.pruned_pruner]
      rfl
    · unfold State.prunerPast
      rw [State.pruned_of_clean hr hd, State.sram_activity]
      exact ⟨State.mesh_activity .., rfl⟩
    · obtain ⟨hsram, hlan⟩ := State.pruned_of_bad (c := c) hr hd
      obtain ⟨hseen, hdue, hagain⟩ := s.sram.foundBad_pruner (bankWord c bank (w % bankWords))
      unfold State.prunerPast
      rw [hsram]
      exact ⟨rfl, rfl, rfl, hseen, hdue, hagain, hlan⟩
  · have hmade := memerr_noted hm hn hty hpl
    refine ⟨memerr_other hm hn hty hpl, fun hk => ?_, fun hk hnot => ?_, fun hcounts => ?_, fun hk hcand => ?_⟩
    · obtain ⟨u, a, ⟨hmesh, hmem, hbights, -, -⟩, hyes, hno⟩ := hmade hk
      by_cases hcounts : s.reportCounts p0 p1 p2
      · refine ⟨_, hyes hcounts, ?_⟩
        rw [State.countBad_frame]
        exact ⟨hmesh, hmem, State.bight_of_bights hbights⟩
      · exact ⟨_, (hno hcounts).1, hmesh, hmem, State.bight_of_bights hbights⟩
    · obtain ⟨u, a, hu, -, hno⟩ := hmade hk
      obtain ⟨hexec, hdue⟩ := hno hnot
      exact ⟨_, hexec, hu.errors, hdue⟩
    · obtain ⟨u, a, hu, hyes, -⟩ := hmade (hcounts.imp And.left And.left)
      have hnow : u.now :: u.countedNow = s.now :: s.countedNow := by
        unfold State.countedNow
        rw [hu.now, hu.errors]
      refine ⟨_, hyes hcounts, (State.countBad_countedAt u a).trans hnow, fun hmany => State.countBad_cause ?_⟩
      rw [hu.errors, (List.cons.inj hnow).2]
      exact hmany
    · have hheld := (s.lanDrop n).notedSram_candidate (agent := memerrAgent p0) hcand
      refine ⟨_, memerr_sram hm hn hty hpl hk, ?_⟩
      split_ifs
      · rw [State.countBad_frame]
        exact hheld
      · exact hheld
  · rcases h with h | h
    · exact selfPolicyRetire_of_not_may h
    · by_cases hmay : s.SelfRetires region
      · exact (selfPolicyRetire_of_may hmay).trans (congrArg _ (State.retireOnce_of_retired h))
      · exact selfPolicyRetire_of_not_may hmay
  · exact (selfPolicyRetire_of_may h).trans (congrArg _ (State.retireOnce_of_not_retired hheld))
  · exact answers_of_objWrite hv rfl (putRetire_refused h)
  · refine answers_of_objWrite hv rfl ((putRetire_accepted hres (State.mayRetire_of_retired hheld)).trans ?_)
    rw [State.retireOnce_of_retired hheld]
  · refine answers_of_objWrite hv rfl ((putRetire_accepted hres (State.mayRetire_iff.mpr hroom)).trans ?_)
    rw [State.retireOnce_of_not_retired hheld]
    rfl
  · refine ⟨_, flipArm_open hc ho, fun k => ?_, rfl⟩
    rw [← flipHi_armed]
    exact Tab.look_put ..

end

namespace Sys2Proof.Machine

/-! ### What no end of a command and no move of a domain touches (R562, R651) -/

/-- What belongs to the module as a whole: supply, boot, memory-hold bits, frame, power apart from the dropped rails, and errors apart
from the event log. -/
structure Chassis where
  supply : Supply
  boot : Boot
  memHold : List Nat
  frame : Frame
  power : Power
  errors : Errors

def State.chassis (s : State) : Chassis :=
  { supply := s.supply, boot := s.boot, memHold := s.memHold, frame := s.frame, power := { s.power with railsDropped := [] }
    errors := { s.errors with events := [], nextEvent := 0, replaced := 0 } }

@[simp] theorem State.chassis_with (s : State) (pending now fresh fuses domains energy dict security cores engines mesh sram hbm xlat
    host queues fences bights fabric handoff mem sramCheck hbmCheck reqs nextReq sent) :
    (State.mk pending now fresh fuses s.supply s.boot domains s.memHold s.frame energy s.power s.errors dict security cores engines
      mesh sram hbm xlat host queues fences bights fabric handoff mem sramCheck hbmCheck reqs nextReq sent).chassis = s.chassis := rfl

@[simp] theorem State.chassis_ite {c : Prop} [Decidable c] (s t : State) :
    (if c then s else t).chassis = if c then s.chassis else t.chassis := apply_ite ..

@[simp] theorem chassis_foldl {α : Type} {f : State → α → State} (hf : ∀ s a, (f s a).chassis = s.chassis) (l : List α) (s : State) :
    (l.foldl f s).chassis = s.chassis := view_foldl State.chassis hf l s

theorem chassis_of_eq {α : Type} {p : α × State} {a : α} {s t : State} (e : p = (a, t)) (h : p.2.chassis = s.chassis) :
    t.chassis = s.chassis := by
  rw [e] at h
  exact h

section
variable (s : State)

/-! Parts of the state, the host interface, the Lanyard and domains -/

@[simp] theorem State.chassis_setDomain (i d) : (s.setDomain i d).chassis = s.chassis := by simp [State.setDomain]
@[simp] theorem State.chassis_setCore (k c) : (s.setCore k c).chassis = s.chassis := by simp [State.setCore]
@[simp] theorem State.chassis_setEngine (c e) : (s.setEngine c e).chassis = s.chassis := by simp [State.setEngine]
@[simp] theorem State.chassis_setRouter (r x) : (s.setRouter r x).chassis = s.chassis := by simp [State.setRouter]
@[simp] theorem State.chassis_modRouter (r f) : (s.modRouter r f).chassis = s.chassis := by simp [State.modRouter]
@[simp] theorem State.chassis_setGroup (g x) : (s.setGroup g x).chassis = s.chassis := by simp [State.setGroup]
@[simp] theorem State.chassis_modGroup (g f) : (s.modGroup g f).chassis = s.chassis := by simp [State.modGroup]
@[simp] theorem State.chassis_setFn (n x) : (s.setFn n x).chassis = s.chassis := by simp [State.setFn]
@[simp] theorem State.chassis_modFn (n f) : (s.modFn n f).chassis = s.chassis := by simp [State.modFn]
@[simp] theorem State.chassis_setBight (b x) : (s.setBight b x).chassis = s.chassis := by simp [State.setBight]
@[simp] theorem State.chassis_modBight (b f) : (s.modBight b f).chassis = s.chassis := by simp [State.modBight]
@[simp] theorem State.chassis_setQueue (q x) : (s.setQueue q x).chassis = s.chassis := by simp [State.setQueue]

@[simp] theorem State.chassis_modQueue (q f) : (s.modQueue q f).chassis = s.chassis := by
  unfold State.modQueue
  split <;> simp

@[simp] theorem State.chassis_setFence (f x) : (s.setFence f x).chassis = s.chassis := by simp [State.setFence]
@[simp] theorem State.chassis_setPort (p x) : (s.setPort p x).chassis = s.chassis := by simp [State.setPort]
@[simp] theorem State.chassis_modPort (p f) : (s.modPort p f).chassis = s.chassis := by simp [State.modPort]
@[simp] theorem State.chassis_setSlot (i x) : (s.setSlot i x).chassis = s.chassis := by simp [State.setSlot]
@[simp] theorem State.chassis_modSlot (i f) : (s.modSlot i f).chassis = s.chassis := by simp [State.modSlot]
@[simp] theorem State.chassis_setKeySlot (i x) : (s.setKeySlot i x).chassis = s.chassis := by simp [State.setKeySlot]
@[simp] theorem State.chassis_modKeySlot (i f) : (s.modKeySlot i f).chassis = s.chassis := by simp [State.modKeySlot]
@[simp] theorem State.chassis_modCmd (q seq f) : (s.modCmd q seq f).chassis = s.chassis := by simp [State.modCmd]
@[simp] theorem State.chassis_send (x) : (s.send x).chassis = s.chassis := by simp [State.send]

@[simp] theorem State.chassis_event (code arg) : (s.event code arg).chassis = s.chassis := by
  unfold State.event
  dsimp only
  split_ifs <;> rfl

@[simp] theorem State.chassis_hostWriteVia (n port addr d) :
    (s.hostWriteVia n port addr d).chassis = s.chassis := by simp [State.hostWriteVia]

@[simp] theorem State.chassis_hostWrite (n addr d) : (s.hostWrite n addr d).chassis = s.chassis := by simp [State.hostWrite]
@[simp] theorem State.chassis_irq (n v) : (s.irq n v).chassis = s.chassis := by simp [State.irq]
@[simp] theorem State.chassis_cause (n bit) : (s.cause n bit).chassis = s.chassis := by simp [State.cause]
@[simp] theorem State.chassis_moduleEvent : s.moduleEvent.chassis = s.chassis := by simp [State.moduleEvent]

@[simp] theorem State.chassis_lanSend (ty dest src high payload) :
    (s.lanSend ty dest src high payload).chassis = s.chassis := by simp [State.lanSend]

@[simp] theorem State.chassis_lanCarry (ty dest src payload) :
    (s.lanCarry ty dest src payload).chassis = s.chassis := by simp [State.lanCarry]

@[simp] theorem State.chassis_moveDom (i d) : (s.moveDom i d).chassis = s.chassis := by
  unfold State.moveDom
  dsimp only
  split_ifs <;> rfl

@[simp] theorem State.chassis_reqDom (i x) : (s.reqDom i x).chassis = s.chassis := by simp [State.reqDom]

/-! Activity -/

@[simp] theorem State.chassis_charge (p d e) : (s.charge p d e).chassis = s.chassis := by
  unfold State.charge
  split <;> simp

@[simp] theorem State.chassis_addModel (d e) : (s.addModel d e).chassis = s.chassis := by simp [State.addModel]
@[simp] theorem State.chassis_activity (u k n p) : (s.activity u k n p).chassis = s.chassis := by simp [State.activity]

/-! SRAM -/

@[simp] theorem State.chassis_putSram (wa w disc) : (s.putSram wa w disc).chassis = s.chassis := by simp [State.putSram]

@[simp] theorem State.chassis_sramCorrected (agent wa disc) :
    (s.sramCorrected agent wa disc).chassis = s.chassis := by simp [State.sramCorrected]

@[simp] theorem State.chassis_sramBad (agent wa disc) : (s.sramBad agent wa disc).chassis = s.chassis := by simp [State.sramBad]

@[simp] theorem State.chassis_readSram (agent rmw wa) : (s.readSram agent rmw wa).2.chassis = s.chassis := by
  unfold State.readSram
  dsimp only
  split
  · rfl
  · split <;> simp

@[simp] theorem State.chassis_writeSram (wa w) : (s.writeSram wa w).chassis = s.chassis := by
  unfold State.writeSram
  dsimp only
  split
  · rfl
  · split <;> simp

@[simp] theorem State.chassis_writeSramPart (agent wa o : Nat) (d : Bytes) :
    (s.writeSramPart agent wa o d).2.chassis = s.chassis := by
  unfold State.writeSramPart
  split
  · rfl
  · split
    · simp
    · split
      · next h => simpa using chassis_of_eq h (State.chassis_readSram ..)
      · next h => simpa using chassis_of_eq h (State.chassis_readSram ..)

@[simp] theorem State.chassis_readSramWords (agent wa n : Nat) : (s.readSramWords agent wa n).2.chassis = s.chassis := by
  induction n generalizing s wa with
  | zero => rfl
  | succ n ih => exact (ih _ _).trans (s.chassis_readSram ..)

@[simp] theorem State.chassis_readSramBytes (agent a n) :
    (s.readSramBytes agent a n).2.chassis = s.chassis := by simp [State.readSramBytes]

@[simp] theorem State.chassis_writeSramBytes (agent fuel a : Nat) (d : Bytes) :
    (s.writeSramBytes agent fuel a d).2.chassis = s.chassis := by
  induction fuel generalizing s a d with
  | zero => rfl
  | succ fuel ih =>
    unfold State.writeSramBytes
    split
    · rfl
    · exact (ih _ _ _).trans (s.chassis_writeSramPart ..)

@[simp] theorem State.chassis_clearSramRange (c a n) :
    (s.clearSramRange c a n).chassis = s.chassis := by simp [State.clearSramRange]

@[simp] theorem State.chassis_applyFuses (c) : (s.applyFuses c).chassis = s.chassis := by simp [State.applyFuses]
@[simp] theorem State.chassis_clearCluster (c) : (s.clearCluster c).chassis = s.chassis := by simp [State.clearCluster]
@[simp] theorem State.chassis_loseCluster (c) : (s.loseCluster c).chassis = s.chassis := by simp [State.loseCluster]

/-! HBM -/

@[simp] theorem State.chassis_putHbm (cw w disc) : (s.putHbm cw w disc).chassis = s.chassis := by simp [State.putHbm]

@[simp] theorem State.chassis_hbmCorrected (agent cw n) :
    (s.hbmCorrected agent cw n).chassis = s.chassis := by simp [State.hbmCorrected]

@[simp] theorem State.chassis_hbmBad (agent cw) : (s.hbmBad agent cw).chassis = s.chassis := by simp [State.hbmBad]

@[simp] theorem State.chassis_readCw (agent rmw cw) : (s.readCw agent rmw cw).2.chassis = s.chassis := by
  unfold State.readCw
  split <;> simp

@[simp] theorem State.chassis_writeCw (cw w) : (s.writeCw cw w).chassis = s.chassis := by simp [State.writeCw]

@[simp] theorem State.chassis_readCws (agent : Nat) (key : Option (Nat × Bool)) (cw n : Nat) :
    (s.readCws agent key cw n).2.chassis = s.chassis := by
  induction n generalizing s cw with
  | zero => rfl
  | succ n ih => exact (ih _ _).trans (s.chassis_readCw ..)

@[simp] theorem State.chassis_readHbmBytes (agent key a n) :
    (s.readHbmBytes agent key a n).2.chassis = s.chassis := by simp [State.readHbmBytes]

@[simp] theorem State.chassis_writeCwPart (agent : Nat) (key : Option (Nat × Bool)) (cw o : Nat) (d : Bytes) :
    (s.writeCwPart agent key cw o d).2.chassis = s.chassis := by
  unfold State.writeCwPart
  split
  · simp
  · split
    · next h => simpa using chassis_of_eq h (State.chassis_readCw ..)
    · next h => exact chassis_of_eq h (State.chassis_readCw ..)

@[simp] theorem State.chassis_writeHbmBytes (agent : Nat) (key : Option (Nat × Bool)) (fuel a : Nat) (d : Bytes) :
    (s.writeHbmBytes agent key fuel a d).2.chassis = s.chassis := by
  induction fuel generalizing s a d with
  | zero => rfl
  | succ fuel ih =>
    unfold State.writeHbmBytes
    split
    · rfl
    · exact (ih _ _ _).trans (s.chassis_writeCwPart ..)

@[simp] theorem State.chassis_clearStack (st) : (s.clearStack st).chassis = s.chassis := by simp [State.clearStack]

/-! Physical memory -/

@[simp] theorem State.chassis_physRead (agent key p a n) : (s.physRead agent key p a n).2.chassis = s.chassis := by
  unfold State.physRead
  split
  · rfl
  · split <;> simp

@[simp] theorem State.chassis_physWrite (agent key p a d) : (s.physWrite agent key p a d).2.chassis = s.chassis := by
  unfold State.physWrite
  split
  · rfl
  · split <;> simp

@[simp] theorem State.chassis_gateBytes (g cls n p) : (s.gateBytes g cls n p).chassis = s.chassis := by simp [State.gateBytes]
@[simp] theorem State.chassis_wakeStack (st) : (s.wakeStack st).chassis = s.chassis := by simp [State.wakeStack]

/-! Gates, circuits and the accesses of a step -/

@[simp] theorem State.chassis_modReq (id f) : (s.modReq id f).chassis = s.chassis := by simp [State.modReq]
@[simp] theorem State.chassis_dropReq (id) : (s.dropReq id).chassis = s.chassis := by simp [State.dropReq]
@[simp] theorem State.chassis_addReq (r) : (s.addReq r).2.chassis = s.chassis := by simp [State.addReq]
@[simp] theorem State.chassis_modCircuit (x f) : (s.modCircuit x f).chassis = s.chassis := by simp [State.modCircuit]
@[simp] theorem State.chassis_oweCredit (x) : (s.oweCredit x).chassis = s.chassis := by simp [State.oweCredit]

@[simp] theorem State.chassis_refKey (r up) : (s.refKey r up).chassis = s.chassis := by
  unfold State.refKey
  split <;> simp

@[simp] theorem State.chassis_settle (id res) : (s.settle id res).chassis = s.chassis := by
  unfold State.settle
  split <;> simp

@[simp] theorem State.chassis_gateReq (g id) : (s.gateReq g id).chassis = s.chassis := by simp [State.gateReq]

@[simp] theorem State.chassis_dequeue (g r) : (s.dequeue g r).chassis = s.chassis := by
  unfold State.dequeue
  split <;> simp

@[simp] theorem State.chassis_countUnkeyed (r) : (s.countUnkeyed r).chassis = s.chassis := by
  unfold State.countUnkeyed
  split
  · rfl
  · split <;> simp

@[simp] theorem State.chassis_accessNow (r : Req) (a : Nat) : (s.accessNow r a).2.chassis = s.chassis := by
  unfold State.accessNow
  split
  · split
    · next h => exact chassis_of_eq h (State.chassis_physWrite ..)
    · next h => exact chassis_of_eq h (State.chassis_physWrite ..)
  · split
    · next h => exact chassis_of_eq h (State.chassis_physRead ..)
    · next h => exact chassis_of_eq h (State.chassis_physRead ..)

@[simp] theorem State.chassis_accessHbm (r a) : (s.accessHbm r a).2.chassis = s.chassis := by
  unfold State.accessHbm
  split
  · rfl
  · split <;> simp

@[simp] theorem State.chassis_countRelease (g r p) : (s.countRelease g r p).chassis = s.chassis := by simp [State.countRelease]
@[simp] theorem State.chassis_serveReq (g x r) : (s.serveReq g x r).2.chassis = s.chassis := by simp [State.serveReq]
@[simp] theorem State.chassis_takeStep (id res) : (s.takeStep id res).2.chassis = s.chassis := by simp [State.takeStep]

@[simp] theorem State.chassis_tryStep (g : Nat) (r : Req) : (s.tryStep g r).2.chassis = s.chassis := by
  unfold State.tryStep
  split
  · rfl
  · split
    · split
      · simp
      · rfl
    · rfl

@[simp] theorem State.chassis_dropSteps (a n) : (s.dropSteps a n).chassis = s.chassis := by simp [State.dropSteps]

@[simp] theorem State.chassis_ownPut (a : Nat) (d : Bytes) : (s.ownPut a d).chassis = s.chassis := by
  unfold State.ownPut
  split
  · rfl
  · dsimp only
    split
    · split
      · next h => simpa using chassis_of_eq h (State.chassis_tryStep ..)
      · next h => simpa using chassis_of_eq h (State.chassis_tryStep ..)
    · simp

@[simp] theorem State.chassis_ownWrite (a d) : (s.ownWrite a d).chassis = s.chassis := by simp [State.ownWrite]

/-! Fences and completions -/

@[simp] theorem State.chassis_fenceMsg (b op f w) : (s.fenceMsg b op f w).chassis = s.chassis := by simp [State.fenceMsg]
@[simp] theorem State.chassis_notifyWaits (f inc w) : (s.notifyWaits f inc w).chassis = s.chassis := by simp [State.notifyWaits]
@[simp] theorem State.chassis_fenceSet (f x w) : (s.fenceSet f x w).chassis = s.chassis := by simp [State.fenceSet]

@[simp] theorem State.chassis_breakFence (f inc code detail) : (s.breakFence f inc code detail).chassis = s.chassis := by
  unfold State.breakFence
  split <;> simp

@[simp] theorem State.chassis_signalFence (f inc v fn q seq) : (s.signalFence f inc v fn q seq).chassis = s.chassis := by
  unfold State.signalFence
  split <;> simp

@[simp] theorem State.chassis_looseError : s.looseError.chassis = s.chassis := by simp [State.looseError]

@[simp] theorem State.chassis_breakErrorFence (b code detail) : (s.breakErrorFence b code detail).chassis = s.chassis := by
  unfold State.breakErrorFence
  dsimp only
  split
  · rfl
  · split <;> simp

@[simp] theorem State.chassis_breakCmdFence (b c code detail) : (s.breakCmdFence b c code detail).chassis = s.chassis := by
  unfold State.breakCmdFence
  split <;> simp

@[simp] theorem State.chassis_updateFence (qn q c) : (s.updateFence qn q c).chassis = s.chassis := by
  unfold State.updateFence
  split
  · split <;> simp
  · split <;> simp

@[simp] theorem State.chassis_completeCmd (qn q c) : (s.completeCmd qn q c).chassis = s.chassis := by simp [State.completeCmd]

@[simp] theorem State.chassis_drainQueue (n : Nat) (s : State) (qn : Nat) : (State.drainQueue n s qn).chassis = s.chassis := by
  induction n generalizing s with
  | zero => rfl
  | succ n ih =>
    unfold State.drainQueue
    split
    · rfl
    · split
      · rfl
      · split
        · simp [ih]
        · rfl

@[simp] theorem State.chassis_drain (qn) : (s.drain qn).chassis = s.chassis := by simp [State.drain]

/-! Link ports -/

@[simp] theorem State.chassis_sendData (n payload) : (s.sendData n payload).chassis = s.chassis := by simp [State.sendData]
@[simp] theorem State.chassis_packBytes (n b) : (s.packBytes n b).chassis = s.chassis := by simp [State.packBytes]

@[simp] theorem State.chassis_countPacket (n) : (s.countPacket n).chassis = s.chassis := by
  unfold State.countPacket
  dsimp only
  split
  · rfl
  · split <;> simp

@[simp] theorem State.chassis_emitPacket (n pk) : (s.emitPacket n pk).chassis = s.chassis := by
  unfold State.emitPacket
  dsimp only
  split
  · rfl
  · split <;> simp

theorem State.chassis_pumpVc {s t : State} {n v : Nat} (h : s.pumpVc n v = some t) : t.chassis = s.chassis := by
  unfold State.pumpVc at h
  dsimp only at h
  split at h
  · cases h
  · split at h
    · cases h
      simp
    · cases h

@[simp] theorem State.chassis_pump (fuel : Nat) (s : State) (n : Nat) : (State.pump fuel s n).chassis = s.chassis := by
  induction fuel generalizing s with
  | zero => rfl
  | succ fuel ih =>
    unfold State.pump
    split
    · next h =>
      obtain ⟨v, -, h⟩ := List.exists_of_findSome?_eq_some h
      exact (ih _).trans (State.chassis_pumpVc h)
    · rfl

@[simp] theorem State.chassis_pumpPort (n) : (s.pumpPort n).chassis = s.chassis := by simp [State.pumpPort]

@[simp] theorem State.chassis_sendPacket (n h payload pay) :
    (s.sendPacket n h payload pay).chassis = s.chassis := by simp [State.sendPacket]

@[simp] theorem State.chassis_startTraining (n) : (s.startTraining n).chassis = s.chassis := by simp [State.startTraining]
@[simp] theorem State.chassis_loseRequests (n) : (s.loseRequests n).chassis = s.chassis := by simp [State.loseRequests]
@[simp] theorem State.chassis_portOff (n) : (s.portOff n).chassis = s.chassis := by simp [State.portOff]

/-! Translation -/

@[simp] theorem State.chassis_setObject (n w) : (s.setObject n w).chassis = s.chassis := by simp [State.setObject]
@[simp] theorem State.chassis_pinCaches : s.pinCaches.chassis = s.chassis := by simp [State.pinCaches]
@[simp] theorem State.chassis_dropFaults (q seq) : (s.dropFaults q seq).chassis = s.chassis := by simp [State.dropFaults]

/-! Commands -/

@[simp] theorem State.chassis_commitMsg (b op q seq) : (s.commitMsg b op q seq).chassis = s.chassis := by simp [State.commitMsg]

@[simp] theorem State.chassis_register (b e) : (s.register b e).chassis = s.chassis := by
  unfold State.register
  split <;> simp

@[simp] theorem State.chassis_requestKill (q seq code detail rerun) :
    (s.requestKill q seq code detail rerun).chassis = s.chassis := by
  unfold State.requestKill
  split
  · rfl
  · split <;> simp

@[simp] theorem State.chassis_failCmd (q seq code) : (s.failCmd q seq code).chassis = s.chassis := by simp [State.failCmd]

@[simp] theorem State.chassis_failAlways (qn seq code) : (s.failAlways qn seq code).chassis = s.chassis := by
  unfold State.failAlways
  split <;> simp

@[simp] theorem State.chassis_closeObject (toggle n) : (s.closeObject toggle n).chassis = s.chassis := by simp [State.closeObject]

@[simp] theorem State.chassis_closeObjects (toggle q seq) : (s.closeObjects toggle q seq).chassis = s.chassis := by
  unfold State.closeObjects
  split <;> simp

@[simp] theorem State.chassis_stopCores (b) : (s.stopCores b).chassis = s.chassis := by simp [State.stopCores]
@[simp] theorem State.chassis_ungate (ids) : (s.ungate ids).chassis = s.chassis := by simp [State.ungate]
@[simp] theorem State.chassis_abandonReqs (p) : (s.abandonReqs p).chassis = s.chassis := by simp [State.abandonReqs]
@[simp] theorem State.chassis_abandonCmd (q c b) : (s.abandonCmd q c b).chassis = s.chassis := by simp [State.abandonCmd]

/-! Handoff slots -/

@[simp] theorem State.chassis_putSlot (i x) : (s.putSlot i x).chassis = s.chassis := by simp [State.putSlot]

@[simp] theorem State.chassis_slotSignal (x) : (s.slotSignal x).chassis = s.chassis := by
  unfold State.slotSignal
  split <;> simp

@[simp] theorem State.chassis_slotBreak (x code) : (s.slotBreak x code).chassis = s.chassis := by
  unfold State.slotBreak
  split <;> simp

@[simp] theorem State.chassis_postReport (i kind) : (s.postReport i kind).chassis = s.chassis := by simp [State.postReport]

@[simp] theorem State.chassis_slotPacket (i ty) : (s.slotPacket i ty).chassis = s.chassis := by
  unfold State.slotPacket
  dsimp only
  split
  · rfl
  · split <;> simp

@[simp] theorem State.chassis_zeroize (i) : (s.zeroize i).chassis = s.chassis := by simp [State.zeroize]

@[simp] theorem State.chassis_slotAct (i kind code) : (s.slotAct i kind code).chassis = s.chassis := by
  unfold State.slotAct
  split <;> simp

@[simp] theorem State.chassis_slotMove (i kind st code) :
    (s.slotMove i kind st code).chassis = s.chassis := by simp [State.slotMove]

@[simp] theorem State.chassis_slotGo (i kind st code) : (s.slotGo i kind st code).chassis = s.chassis := by simp [State.slotGo]

@[simp] theorem State.chassis_slotCommit (q seq attempt) :
    (s.slotCommit q seq attempt).chassis = s.chassis := by simp [State.slotCommit]

@[simp] theorem State.chassis_slotEnd (q seq) : (s.slotEnd q seq).chassis = s.chassis := by simp [State.slotEnd]

/-! Walker circuits -/

@[simp] theorem State.chassis_setCircuits (cs) : (s.setCircuits cs).chassis = s.chassis := by simp [State.setCircuits]

@[simp] theorem State.chassis_addWalkers (halves groups) :
    (s.addWalkers halves groups).chassis = s.chassis := by simp [State.addWalkers]

@[simp] theorem State.chassis_dropWalkers (halves groups) :
    (s.dropWalkers halves groups).chassis = s.chassis := by simp [State.dropWalkers]

/-! Domains that reach a state -/

@[simp] theorem State.chassis_loseCompute (c) : (s.loseCompute c).chassis = s.chassis := by simp [State.loseCompute]

@[simp] theorem State.chassis_clusterReached (c from' into) :
    (s.clusterReached c from' into).chassis = s.chassis := by simp [State.clusterReached]

@[simp] theorem State.chassis_dropOwnWrites (st) : (s.dropOwnWrites st).chassis = s.chassis := by simp [State.dropOwnWrites]

@[simp] theorem State.chassis_stackReached (st from' into trained) :
    (s.stackReached st from' into trained).chassis = s.chassis := by simp [State.stackReached]

@[simp] theorem State.chassis_halfReached (h into) : (s.halfReached h into).chassis = s.chassis := by simp [State.halfReached]
@[simp] theorem State.chassis_dieReached (d into) : (s.dieReached d into).chassis = s.chassis := by simp [State.dieReached]

@[simp] theorem State.chassis_domReached (i from' into trained) : (s.domReached i from' into trained).chassis = s.chassis := by
  unfold State.domReached
  split <;> simp

/-! The end of a command -/

@[simp] theorem State.chassis_settleCmd (b c) : (s.settleCmd b c).chassis = s.chassis := by simp [State.settleCmd]
@[simp] theorem State.chassis_retireRun (b q seq) : (s.retireRun b q seq).chassis = s.chassis := by simp [State.retireRun]

@[simp] theorem State.chassis_freeChunks (c) : (s.freeChunks c).chassis = s.chassis := by
  unfold State.freeChunks
  split <;> simp

@[simp] theorem State.chassis_peerPackets (ty q c) : (s.peerPackets ty q c).chassis = s.chassis := by simp [State.peerPackets]

@[simp] theorem State.chassis_drainSend (qn) : (s.drainSend qn).chassis = s.chassis := by
  unfold State.drainSend
  split <;> simp

@[simp] theorem State.chassis_abandonSources (b q c) : (s.abandonSources b q c).chassis = s.chassis := by
  unfold State.abandonSources
  split <;> simp

@[simp] theorem State.chassis_endCmd (qn seq code detail) : (s.endCmd qn seq code detail).chassis = s.chassis := by
  unfold State.endCmd
  split
  · rfl
  · split <;> simp

@[simp] theorem State.chassis_commitCmd (qn seq) : (s.commitCmd qn seq).chassis = s.chassis := by
  unfold State.commitCmd
  split
  · rfl
  · split <;> simp

@[simp] theorem State.chassis_takeCommit (qn seq : Nat) : (s.takeCommit qn seq).chassis = s.chassis := by
  unfold State.takeCommit
  split
  · rfl
  · split
    · rfl
    · split
      · rfl
      · simp only [State.chassis_commitMsg, State.chassis_commitCmd]
        split <;> simp

@[simp] theorem State.chassis_keepPlace (b q seq) : (s.keepPlace b q seq).chassis = s.chassis := by simp [State.keepPlace]
@[simp] theorem State.chassis_killWins (b code rerun) : (s.killWins b code rerun).chassis = s.chassis := by simp [State.killWins]

@[simp] theorem State.chassis_endRerun (qn c code detail) :
    (s.endRerun qn c code detail).chassis = s.chassis := by simp [State.endRerun]

@[simp] theorem State.chassis_takeKill (qn seq code : Nat) (detail : BitVec 24) (rerun : Bool) :
    (s.takeKill qn seq code detail rerun).chassis = s.chassis := by
  unfold State.takeKill
  split
  · rfl
  · split
    · rfl
    · split
      · simp
      · split
        · rfl
        · dsimp only
          split <;> simp

/-! A trip -/

@[simp] theorem State.chassis_forceDom (i x) : (s.forceDom i x).chassis = s.chassis := by simp [State.forceDom]
@[simp] theorem State.chassis_clustersOff : s.clustersOff.chassis = s.chassis := by simp [State.clustersOff]
@[simp] theorem State.chassis_portsOff : s.portsOff.chassis = s.chassis := by simp [State.portsOff]
@[simp] theorem State.chassis_stacksLow : s.stacksLow.chassis = s.chassis := by simp [State.stacksLow]

@[simp] theorem State.chassis_flushRegister (b : Nat) : (s.flushRegister b).chassis = s.chassis := by
  refine (chassis_foldl (fun s e => ?_) _ _).trans (by simp)
  cases e <;> simp

@[simp] theorem State.chassis_orphanReqs (q seq run b) :
    (s.orphanReqs q seq run b).chassis = s.chassis := by simp [State.orphanReqs]

@[simp] theorem State.chassis_endNow (q seq code) : (s.endNow q seq code).chassis = s.chassis := by
  unfold State.endNow
  split
  · rfl
  · split <;> simp

@[simp] theorem State.chassis_endAll (code running) : (s.endAll code running).chassis = s.chassis := by simp [State.endAll]

@[simp] theorem State.chassis_tripMessages (location halfDegrees) :
    (s.tripMessages location halfDegrees).chassis = s.chassis := by simp [State.tripMessages]

theorem State.chassis_with_rails (rails : List Nat) :
    ({ s with power := { s.power with railsDropped := rails } } : State).chassis = s.chassis := rfl

@[simp] theorem State.chassis_tripActions : s.tripActions.chassis = s.chassis := by
  unfold State.tripActions
  rw [State.chassis_with_rails]
  simp

end
end Sys2Proof.Machine

namespace Sys2Proof.Machine
open Sys2Proof.Claims

variable {s : State}

/-! ### Supply samples, Reef and the input switch (R563 to R566, R640, R664) -/

/-- The input switch opens below 20.0 V (R664). -/
theorem Supply.switch_eq (u : Supply) (cv : Nat) : (if cv < 2000 then { u with charging := true, converters := false } else u) =
    { u with charging := u.charging || decide (cv < 2000), converters := u.converters && decide (2000 ≤ cv) } := by
  by_cases h : cv < 2000
  · simp [h, Nat.not_le.mpr h]
  · simp [h, Nat.not_lt.mp h]

theorem supplySample_eq (cv : Nat) : exec (.supplySample cv) s = .next { s with
    supply := { s.supply with
      samples := cv :: s.supply.samples.take 3, goodCount := if 4800 ≤ cv then s.supply.goodCount + 1 else 0
      charging := s.supply.charging || decide (cv < 2000), converters := s.supply.converters && decide (2000 ≤ cv) }
    power := { s.power with
      reefLow := if s.power.reef then min s.power.reefLow ((cv :: s.supply.samples.take 3).sum / 4) else s.power.reefLow } } := by
  show execSupplySample cv s = _
  unfold execSupplySample
  dsimp only
  rw [Supply.switch_eq]
  by_cases h : s.power.reef = true
  · rw [if_pos h, if_pos h]
    rfl
  · rw [if_neg h, if_neg h]

theorem State.scaleFloors_frame (g : Nat) : s.scaleFloors g =
    { s with hbm := { s.hbm with groups := (s.scaleFloors g).hbm.groups }, errors := (s.scaleFloors g).errors } := by
  unfold State.scaleFloors
  dsimp only
  split_ifs <;> rfl

theorem State.power_scaleAll : s.scaleAll.power = s.power :=
  view_foldl State.power (fun s g => by rw [s.scaleFloors_frame]) _ s
theorem State.bights_scaleAll : s.scaleAll.bights = s.bights :=
  view_foldl State.bights (fun s g => by rw [s.scaleFloors_frame]) _ s
theorem State.queues_scaleAll : s.scaleAll.queues = s.queues :=
  view_foldl State.queues (fun s g => by rw [s.scaleFloors_frame]) _ s

theorem State.power_event (code arg : Nat) : (s.event code arg).power = s.power := rfl
theorem State.bights_event (code arg : Nat) : (s.event code arg).bights = s.bights := rfl
theorem State.queues_event (code arg : Nat) : (s.event code arg).queues = s.queues := rfl

/-- Reef is called for (R564). -/
abbrev State.ReefDue (s : State) : Prop :=
  s.isReady = true ∧ s.power.reef = false ∧ s.errors.rootstock = false ∧ s.errors.entering = false ∧ s.vf < 4600

/-- A Reef may end (R566). -/
abbrev State.ReefOver (s : State) : Prop := s.power.reef = true ∧ 200 ≤ s.supply.goodCount ∧ 4600 ≤ s.vf

/-- A Reef has begun: it is counted and dated (R564). -/
abbrev State.inReef (s : State) : State := { s with power := { s.power with
  reef := true, reefAt := s.now, reefLow := s.vf, reefEntries := s.power.reefEntries + 1 } }

theorem reefEnter_due (h : s.ReefDue) :
    exec .reefEnter s = .next (((s.inReef.announce 2 1200).scaleAll).event 0x0010 s.vf) := by
  show Host.Outcome.next s.enterReef = _
  unfold State.enterReef
  rw [if_pos (by simpa [and_assoc] using h)]
  rfl

theorem reefEnter_not_due (h : ¬ s.ReefDue) : exec .reefEnter s = .next s := by
  show Host.Outcome.next s.enterReef = _
  unfold State.enterReef
  rw [if_neg (by simpa [and_assoc] using h)]

theorem reefExit_over (h : s.ReefOver) :
    exec .reefExit s = .next ((s.reefEnds.announce 3 s.reefEnds.wantedMhz).scaleAll) := by
  show execReefExit s = _
  unfold execReefExit
  rw [if_pos (by simpa [and_assoc] using h)]

theorem reefExit_not_over (h : ¬ s.ReefOver) : exec .reefExit s = .next s := by
  show execReefExit s = _
  unfold execReefExit
  rw [if_neg (by simpa [and_assoc] using h)]

theorem gives_reefEnter (h : s.ReefDue) : Gives .reefEnter s fun t => t.power.reef = true ∧ t.power.reefAt = s.now ∧
    t.power.reefLow = s.vf ∧ t.power.reefEntries = s.power.reefEntries + 1 ∧ (∀ b, t.bight b = s.bight b) ∧ t.queues = s.queues := by
  refine ⟨_, reefEnter_due h, ?_⟩
  dsimp only
  rw [State.power_event, State.power_scaleAll]
  exact ⟨rfl, rfl, rfl, rfl, State.bight_of_bights ((State.bights_event ..).trans State.bights_scaleAll),
    (State.queues_event ..).trans State.queues_scaleAll⟩

theorem gives_reefExit (h : s.ReefOver) : Gives .reefExit s fun t => t.power.reef = false ∧
    t.power.boostAfter = s.now + 10000000 ∧ t.power.reefLast = min 0xFFFFFFFF ((s.now - s.power.reefAt) / 1000) ∧
    t.power.reefLastLow = s.power.reefLow ∧ (∀ b, t.bight b = s.bight b) ∧ t.queues = s.queues := by
  refine ⟨_, reefExit_over h, ?_⟩
  dsimp only
  rw [State.power_scaleAll]
  exact ⟨rfl, rfl, rfl, rfl, State.bight_of_bights State.bights_scaleAll, State.queues_scaleAll⟩

/-! ### The thermal trip (R330, R562, R644, R650) -/

/-- A trip's messages and actions, and its entry in the event log; the time that everything has been cool starts again (R562,
R655). -/
def State.tripped (s : State) (loc : Nat) (t2 : Int) : State :=
  let u := (s.tripMessages loc t2).tripActions.event 0x0014 loc
  { u with power := { u.power with coolAll := 0 } }

theorem State.chassis_tripped (loc : Nat) (t2 : Int) : (s.tripped loc t2).chassis =
    { s.chassis with power := { s.chassis.power with coolAll := 0 } } := by
  have h : ((s.tripMessages loc t2).tripActions.event 0x0014 loc).chassis = s.chassis := by simp
  rw [← h]
  rfl

theorem State.power_tripped (loc : Nat) (t2 : Int) :
    (s.tripped loc t2).power.railsDropped = List.range 16 ∧ (s.tripped loc t2).power.coolAll = 0 := ⟨rfl, rfl⟩

theorem State.rootstock_of_chassis {t : State} {p : Power} (h : t.chassis = { s.chassis with power := p }) :
    t.errors.rootstock = s.errors.rootstock := congrArg (fun c : Chassis => c.errors.rootstock) h

theorem State.isReady_of_chassis {t : State} {p : Power} (h : t.chassis = { s.chassis with power := p }) : t.isReady = s.isReady := by
  have hboot : t.boot = s.boot := congrArg Chassis.boot h
  have hsupply : t.supply = s.supply := congrArg Chassis.supply h
  unfold State.isReady
  rw [hboot, hsupply]

theorem State.isReady_tripped (loc : Nat) (t2 : Int) : (s.tripped loc t2).isReady = s.isReady :=
  State.isReady_of_chassis (State.chassis_tripped loc t2)

theorem State.tripAt_eq (loc : Nat) (t2 : Int) : s.tripAt loc t2 = if s.isReady then (s.tripped loc t2).rootstockCause 1
    else { s.tripped loc t2 with boot := { (s.tripped loc t2).boot with halted := true } } := by
  rw [← State.isReady_tripped loc t2]
  rfl

theorem State.tripAt_of_ready (h : s.isReady = true) (loc : Nat) (t2 : Int) :
    s.tripAt loc t2 = (s.tripped loc t2).rootstockCause 1 := by rw [State.tripAt_eq, if_pos h]

theorem State.tripAt_of_not_ready (h : s.isReady = false) (loc : Nat) (t2 : Int) :
    s.tripAt loc t2 = { s.tripped loc t2 with boot := { (s.tripped loc t2).boot with halted := true } } := by
  rw [State.tripAt_eq, if_neg (ne_true_of_eq_false h)]

theorem State.power_tripAt (loc : Nat) (t2 : Int) : (s.tripAt loc t2).power = (s.tripped loc t2).power := by
  cases h : s.isReady
  · rw [State.tripAt_of_not_ready h]
  · rw [State.tripAt_of_ready h]
    rfl

theorem State.railsDropped_tripAt (loc : Nat) (t2 : Int) : (s.tripAt loc t2).power.railsDropped = List.range 16 := by
  rw [State.power_tripAt]
  exact (State.power_tripped loc t2).1

theorem State.coolAll_tripAt (loc : Nat) (t2 : Int) : (s.tripAt loc t2).power.coolAll = 0 := by
  rw [State.power_tripAt]
  exact (State.power_tripped loc t2).2

/-- Dropped rails hold no voltage (R562). -/
theorem State.rails_off {d : Nat} (h : s.power.railsDropped = List.range 16) (hd : d < 16) : s.coreMv d = 0 ∧ s.sramMv d = 0 := by
  have hin : s.power.railsDropped.contains d = true := by simpa [h] using hd
  unfold State.coreMv State.sramMv
  exact ⟨if_pos hin, if_pos hin⟩

theorem State.cause_rootstockCause_trip : (s.rootstockCause 1).errors.causes.getLsbD 1 = true := by
  show (s.errors.causes ||| (1 <<< 1)).getLsbD 1 = true
  simp

theorem State.causes_tripAt (h : s.isReady = true) (loc : Nat) (t2 : Int) : (s.tripAt loc t2).errors.causes.getLsbD 1 = true := by
  rw [State.tripAt_of_ready h]
  exact State.cause_rootstockCause_trip

theorem State.entering_rootstockCause (h : s.errors.rootstock = false) (bit : Nat) : (s.rootstockCause bit).errors.entering = true := by
  show (s.errors.entering || !s.errors.rootstock) = true
  simp [h]

theorem State.entering_tripAt (h : s.isReady = true) (hr : s.errors.rootstock = false) (loc : Nat) (t2 : Int) :
    (s.tripAt loc t2).errors.entering = true := by
  rw [State.tripAt_of_ready h]
  exact State.entering_rootstockCause ((State.rootstock_of_chassis (State.chassis_tripped loc t2)).trans hr) 1

theorem trip_not_due {loc : Nat} {t2 : Int} (h : s.supply.inReset = true ∨ t2 < 230) : exec (.trip loc t2) s = .next s := by
  show execTrip loc t2 s = _
  unfold execTrip
  rw [if_pos (by simpa using h)]

theorem trip_due {loc : Nat} {t2 : Int} (hr : s.supply.inReset = false) (ht : 230 ≤ t2) :
    exec (.trip loc t2) s = .next (s.tripAt loc t2) := by
  show execTrip loc t2 s = _
  unfold execTrip
  rw [if_neg (by simp [hr]; omega)]

end Sys2Proof.Machine

section
open Sys2Proof Sys2Proof.Machine Sys2Proof.Claims

/-- Settles O34: the equations of the supply's commands, and of a trip with what no end of a command and no move of a domain
touches. -/
theorem supplyReefAndTrip : Obligations.SupplyReefAndTrip := by
  unfold Obligations.SupplyReefAndTrip
  refine ⟨fun s cv => ⟨_, supplySample_eq cv, rfl, rfl, rfl⟩, fun s => ⟨gives_reefEnter, reefEnter_not_due, gives_reefExit,
    reefExit_not_over, fun h => ?_, fun h => ?_⟩, fun s loc t2 => ⟨trip_not_due, fun hr ht hready => ?_, fun hr ht hready => ?_⟩⟩
  · exact congrArg Host.Outcome.next (if_pos h)
  · exact congrArg Host.Outcome.next (if_neg (ne_true_of_eq_false h))
  · exact ⟨_, trip_due hr ht, State.causes_tripAt hready .., fun h => State.entering_tripAt hready h .., State.coolAll_tripAt ..,
      fun d hd => State.rails_off (State.railsDropped_tripAt ..) hd⟩
  · refine ⟨_, trip_due hr ht, ?_, State.coolAll_tripAt .., fun d hd => State.rails_off (State.railsDropped_tripAt ..) hd⟩
    rw [State.tripAt_of_not_ready hready]

end

namespace Sys2Proof.Machine
open Sys2Proof.Claims

section
variable {s : State} {g : Nat}

/-! ### GATE_RELEASE (R318, R340, R651) -/

theorem State.domIs_iff {i : Nat} {x : DomState} : s.domIs i x = true ↔ s.dom i = x := beq_iff_eq

/-- The gate's stack answers every request with a bus error: in Rootstock, and OFF or on its way into or out of OFF (R34, R651). -/
abbrev State.Barred (s : State) (st : Nat) : Prop := s.errors.rootstock = true ∨ s.stackHeld st = false

theorem gateRelease_empty (h : 64 ≤ g ∨ (s.group g).queue = []) : exec (.gateRelease g) s = .next s :=
  congrArg Host.Outcome.next (if_pos h)

theorem gateRelease_barred {r : Req} {l : List Req} (hg : g < 64) (hq : (s.group g).queue ≠ []) (hb : s.Barred (stackOfGroup g))
    (hr : s.waitingReqs g = r :: l) :
    exec (.gateRelease g) s = .next ((s.dequeue g r).arriveReq r.id (.busError Config.stackOffSub)) := by
  show execGateRelease g s = _
  unfold execGateRelease
  dsimp only
  rw [if_neg (by simp [hq]; omega), if_pos (by simpa using hb), hr]

/-- What the gate does at a stack that answers: it releases what its rule picks, or wakes the stack (R318, R340). -/
def State.openGate (s : State) (g : Nat) : State :=
  match s.dom (domStack (stackOfGroup g)) with
  | .on =>
    match s.pickRelease g with
    | (none, x) => s.setGroup g x
    | (some r, x) => (s.serveReq g x r).2.arriveReq r.id (s.serveReq g x r).1
  | _ => s.wakeStack (stackOfGroup g)

theorem gateRelease_open (hg : g < 64) (hq : (s.group g).queue ≠ []) (hb : ¬ s.Barred (stackOfGroup g)) :
    exec (.gateRelease g) s = .next (s.openGate g) := by
  show execGateRelease g s = _
  unfold execGateRelease State.openGate State.dom
  dsimp only
  rw [if_neg (by simp [hq]; omega), if_neg (by simpa using hb)]
  obtain ⟨_ | r, x⟩ := s.pickRelease g <;> rfl

theorem State.openGate_low (hd : s.dom (domStack (stackOfGroup g)) = .low) :
    s.openGate g = s.reqDom (domStack (stackOfGroup g)) .on := by
  unfold State.openGate
  rw [hd]
  exact if_pos (State.domIs_iff.mpr hd)

theorem State.openGate_changing (hd : s.dom (domStack (stackOfGroup g)) = .changing) : s.openGate g = s := by
  unfold State.openGate
  rw [hd]
  exact if_neg (by rw [State.domIs_iff, hd]; decide)

theorem State.openGate_waits {x : Group} (hd : s.dom (domStack (stackOfGroup g)) = .on) (hp : s.pickRelease g = (none, x)) :
    s.openGate g = s.setGroup g x := by
  unfold State.openGate
  rw [hd, hp]

theorem State.openGate_picks {r : Req} {x : Group} {a : Nat} (hd : s.dom (domStack (stackOfGroup g)) = .on)
    (hp : s.pickRelease g = (some r, x)) (ha : r.target = .hbm a) : s.openGate g =
      let done := (((s.setGroup g x).dequeue g r).countRelease g r r.payer).accessHbm r a
      (done.2.modGroup g fun y => { y with servedAt := done.2.now }).arriveReq r.id done.1 := by
  unfold State.openGate State.serveReq
  rw [hd, hp]
  dsimp only
  rw [ha]

/-! ### HBM_WRITE_BACK (R324) -/

theorem State.groupOn_iff : s.groupOn g = true ↔ s.dom (domStack (stackOfGroup g)) = .on := State.domIs_iff

theorem hbmWriteBack_none (h : (s.group g).writeBacks = [] ∨ s.dom (domStack (stackOfGroup g)) ≠ .on) :
    exec (.hbmWriteBack g) s = .next s := by
  show execHbmWriteBack g s = _
  unfold execHbmWriteBack
  split
  · rfl
  · next hw =>
    rw [if_neg (by rw [State.groupOn_iff]; simpa [hw] using h)]

theorem hbmWriteBack_due {cw : Nat} {rest : List Nat} {errs : List (Nat × Nat)} (hw : (s.group g).writeBacks = cw :: rest)
    (hd : s.dom (domStack (stackOfGroup g)) = .on) (he : hbmDecode (s.hbmDisc cw) = some errs) : exec (.hbmWriteBack g) s = .next
      ((s.setGroup g { s.group g with writeBacks := rest }).putHbm cw (hbmFlip (s.hbmWord cw) errs) 0) := by
  show execHbmWriteBack g s = _
  unfold execHbmWriteBack
  rw [hw]
  dsimp only
  rw [if_pos (State.groupOn_iff.mpr hd)]
  show Host.Outcome.next (match hbmDecode (s.hbmDisc cw) with | some errs => _ | none => _) = _
  rw [he]
  rfl

theorem State.hbmDisc_putHbm (cw x : Nat) (w : BitVec 512) (disc : BitVec 64) :
    (s.putHbm cw w disc).hbmDisc x = if x = cw then disc else s.hbmDisc x := Tab.look_put ..

end

/-! ### What the release rule leaves of the settings (R335, R340) -/

theorem Tab.look_set {α : Type} (d : α) (t : Tab α) (k k' : Nat) (v : α) :
    Tab.look d (Tab.set t k v) k' = if k' = k then v else Tab.look d t k' := by
  unfold Tab.look
  rw [Tab.find?_set]
  split <;> rfl

/-- What is set of a master at a gate (R335): all but the buckets and the deficit that its releases move. -/
def GateSetting.limits (v : GateSetting) : Nat × Nat × Nat × Bool := (v.floor, v.weight, v.ceiling, v.class0)

/-- Two tables hold the same limits of every master but 306, whose limits are fixed. -/
def SameLimits (t t' : Tab GateSetting) : Prop := ∀ m, m ≠ 306 → (Tab.look {} t' m).limits = (Tab.look {} t m).limits

theorem SameLimits.refl (t : Tab GateSetting) : SameLimits t t := fun _ _ => rfl

theorem SameLimits.trans {t t' t'' : Tab GateSetting} (h : SameLimits t t') (h' : SameLimits t' t'') : SameLimits t t'' :=
  fun m hm => (h' m hm).trans (h m hm)

theorem SameLimits.set {t : Tab GateSetting} {m : Nat} {v : GateSetting} (h : m ≠ 306 → v.limits = (Tab.look {} t m).limits) :
    SameLimits t (Tab.set t m v) := by
  intro k hk
  rw [Tab.look_set]
  split
  · next hkm => exact hkm ▸ h (hkm ▸ hk)
  · rfl

theorem Group.setting_of_ne (x : Group) {m : Nat} (h : m ≠ 306) : x.setting m = Tab.look {} x.masters m := if_neg h

theorem Group.limits_setting {x y : Group} (h : SameLimits x.masters y.masters) (m : Nat) :
    (y.setting m).limits = (x.setting m).limits := by
  unfold Group.setting
  by_cases hm : m = 306
  · rw [if_pos hm, if_pos hm]
    rfl
  · rw [if_neg hm, if_neg hm]
    exact h m hm

/-- The masters of the waiting requests have their buckets refilled. -/
theorem sameLimits_refilled (s : State) (g : Nat) (x : Group) (heads : List Req) : SameLimits x.masters
    (heads.foldl (fun t r => Tab.set t r.master (s.refill g (x.setting r.master) s.now)) x.masters) := by
  suffices h : ∀ t, SameLimits x.masters t → SameLimits x.masters
      (heads.foldl (fun t r => Tab.set t r.master (s.refill g (x.setting r.master) s.now)) t) from h _ (.refl _)
  induction heads with
  | nil => exact fun t h => h
  | cons r l ih =>
    refine fun t h => ih _ (h.trans (.set fun hr => ?_))
    rw [x.setting_of_ne hr]
    exact (h _ hr).symm

theorem sameLimits_drrPick (fuel : Nat) (masters : Tab GateSetting) (first : Bool) (l : List (Req × GateSetting))
    (hl : ∀ e ∈ l, e.1.master ≠ 306 → e.2.limits = (Tab.look {} masters e.1.master).limits) :
    SameLimits masters (drrPick masters fuel first l).2 := by
  induction fuel generalizing masters first l with
  | zero => exact .refl _
  | succ fuel ih =>
    match l with
    | [] => exact .refl _
    | (r, v) :: rest =>
      have hv := hl (r, v) (List.mem_cons_self ..)
      unfold drrPick
      extract_lets v'
      have hv' : v'.limits = v.limits := by
        unfold v'
        split <;> rfl
      have hset : SameLimits masters (Tab.set masters r.master v') := .set fun hr => hv'.trans (hv hr)
      split
      · exact .set fun hr => hv'.trans (hv hr)
      · refine hset.trans (ih _ _ _ fun e he hr => ?_)
        rw [hset _ hr]
        rcases List.mem_append.mp he with he | he
        · exact hl e (List.mem_cons_of_mem _ he) hr
        · rw [List.mem_singleton.mp he] at hr ⊢
          exact hv'.trans (hv hr)

/-- A release of the gate's rule moves nothing of a group but buckets, deficits, the releases and the master served last. -/
structure Group.Released (x y : Group) : Prop where
  frame : y = { x with masters := y.masters, released := y.released, lastMaster := y.lastMaster }
  limits : SameLimits x.masters y.masters

theorem Group.Released.of_masters {x : Group} {t : Tab GateSetting} (h : SameLimits x.masters t) (l : Nat) :
    x.Released { x with masters := t, lastMaster := l } := ⟨rfl, h⟩

theorem Group.Released.debit {x y : Group} (h : x.Released y) (m n : Nat) (l : List (Nat × Nat)) :
    x.Released { y with masters := Tab.set y.masters m ((Tab.look {} y.masters m).debit n), released := l } := by
  refine ⟨?_, h.limits.trans (.set fun _ => rfl)⟩
  rw [h.frame]

theorem State.pickOf_released (s : State) (g : Nat) (heads : List Req) : (s.group g).Released (s.pickOf g heads).2 := by
  unfold State.pickOf
  extract_lets x0 masters x cfg cand go rest
  have hx : x0.Released x := .of_masters (sameLimits_refilled s g x0 heads) x0.lastMaster
  have hgo : ∀ y r, x0.Released y → x0.Released (go y r).2 := by
    intro y r hy
    unfold go
    split
    · exact hx
    · exact hy.debit ..
  split
  · exact hgo _ _ hx
  · split
    · exact hx
    · extract_lets best order fuel
      have hdrr := sameLimits_drrPick fuel x.masters (order.any fun e => e.1.master == x.lastMaster) order (by
        intro e he hr
        obtain ⟨r, -, rfl⟩ := List.mem_map.mp he
        rfl)
      split
      · next h =>
        rw [h] at hdrr
        exact hgo _ _ (.of_masters (hx.limits.trans hdrr) _)
      · next h =>
        rw [h] at hdrr
        exact .of_masters (hx.limits.trans hdrr) _


/-! ### Reads of a code word (R322, R324, R327) -/

/-- What a read of a code word changes of a group: the counts and notes of errors, and the write-backs. -/
def Group.Noted (x y : Group) : Prop := y = { x with
  corrected := y.corrected, uncorrectable := y.uncorrectable, notSent := y.notSent, lastMsg := y.lastMsg, writeBacks := y.writeBacks
  patrolSeen := y.patrolSeen, patrolDue := y.patrolDue }

theorem Group.Noted.refl (x : Group) : x.Noted x := rfl

theorem Group.Noted.trans {x y z : Group} (h : x.Noted y) (h' : y.Noted z) : x.Noted z := by
  unfold Group.Noted at h h' ⊢
  rw [h', h]

section
variable {s t u : State} {g : Nat}

/-- What a read of a code word changes: notes of groups, and the messages on the Lanyard. -/
structure State.CwRead (s t : State) : Prop where
  frame : t = { s with hbm := { s.hbm with groups := t.hbm.groups }, mesh := { s.mesh with lan := t.mesh.lan } }
  noted : ∀ k, (s.group k).Noted (t.group k)

theorem State.CwRead.refl (s : State) : s.CwRead s := ⟨rfl, fun _ => rfl⟩

theorem State.CwRead.trans (h : s.CwRead t) (h' : t.CwRead u) : s.CwRead u := by
  refine ⟨?_, fun k => (h.noted k).trans (h'.noted k)⟩
  rw [h'.frame, h.frame]

theorem State.cwRead_setGroup {x : Group} (h : (s.group g).Noted x) : s.CwRead (s.setGroup g x) := by
  refine ⟨rfl, fun k => ?_⟩
  rw [State.group_setGroup]
  split
  · next hk => exact hk ▸ h
  · exact .refl _

theorem State.cwRead_hbmBad (s : State) (agent cw : Nat) : s.CwRead (s.hbmBad agent cw) :=
  .trans (State.cwRead_setGroup (by rfl)) ⟨rfl, fun _ => rfl⟩

theorem State.cwRead_hbmCorrected (s : State) (agent cw n : Nat) : s.CwRead (s.hbmCorrected agent cw n) := by
  unfold State.hbmCorrected
  dsimp only
  split
  · exact .trans (State.cwRead_setGroup (by rfl)) ⟨rfl, fun _ => rfl⟩
  · exact State.cwRead_setGroup (by rfl)

theorem State.corrected_hbmCorrected (s : State) (agent cw n : Nat) :
    ((s.hbmCorrected agent cw n).group (cwGroup cw)).corrected = min 0xFFFFFFFF ((s.group (cwGroup cw)).corrected + 1) := by
  have hlan : ∀ (u : State) k ty dest src high payload, (u.lanSend ty dest src high payload).group k = u.group k :=
    fun _ _ _ _ _ _ _ => rfl
  unfold State.hbmCorrected
  dsimp only
  split
  · rw [hlan, State.group_setGroup_self]
    rfl
  · rw [State.group_setGroup_self]
    rfl

theorem State.readCw_clean {agent cw : Nat} {rmw : Bool} (h : hbmDecode (s.hbmDisc cw) = some []) :
    (s.readCw agent rmw cw).2 = s := by
  unfold State.readCw
  rw [h]

theorem State.readCw_corrects {agent cw : Nat} {e : Nat × Nat} {l : List (Nat × Nat)}
    (h : hbmDecode (s.hbmDisc cw) = some (e :: l)) :
    (s.readCw agent false cw).2 =
      let u := s.hbmCorrected agent cw (l.length + 1)
      if cw ∈ (u.group (cwGroup cw)).writeBacks then u
      else u.modGroup (cwGroup cw) fun x => { x with writeBacks := x.writeBacks ++ [cw] } := by
  unfold State.readCw
  rw [h]
  simp

theorem State.cwRead_readCw (s : State) (agent cw : Nat) : s.CwRead (s.readCw agent false cw).2 := by
  rcases h : hbmDecode (s.hbmDisc cw) with _ | _ | ⟨e, l⟩
  · unfold State.readCw
    rw [h]
    exact s.cwRead_hbmBad agent cw
  · rw [State.readCw_clean h]
    exact .refl s
  · have hc := s.cwRead_hbmCorrected agent cw (l.length + 1)
    rw [State.readCw_corrects h]
    dsimp only
    split
    · exact hc
    · exact hc.trans (State.cwRead_setGroup (by rfl))

/-- A read that decoding corrects is counted and leaves a write-back pending (R324, R327). -/
theorem State.readCw_corrected {agent cw : Nat} {e : Nat × Nat} {l : List (Nat × Nat)}
    (h : hbmDecode (s.hbmDisc cw) = some (e :: l)) :
    cw ∈ ((s.readCw agent false cw).2.group (cwGroup cw)).writeBacks ∧
      ((s.readCw agent false cw).2.group (cwGroup cw)).corrected = min 0xFFFFFFFF ((s.group (cwGroup cw)).corrected + 1) := by
  have hc := s.corrected_hbmCorrected agent cw (l.length + 1)
  rw [State.readCw_corrects h]
  dsimp only
  split
  · next hin => exact ⟨hin, hc⟩
  · rw [State.modGroup, State.group_setGroup_self]
    exact ⟨by simp, hc⟩

/-- An uncorrectable read is counted, and a report of it leaves for the management processor (R327). -/
theorem State.readCw_bad {agent cw : Nat} (h : hbmDecode (s.hbmDisc cw) = none) :
    ((s.readCw agent false cw).2.group (cwGroup cw)).uncorrectable = min 0xFFFFFFFF ((s.group (cwGroup cw)).uncorrectable + 1) ∧
      ∃ m : LanMsg, (s.readCw agent false cw).2.mesh.lan = s.mesh.lan ++ [m] ∧ m.ty = 9 ∧ m.dest = stopMgmt := by
  unfold State.readCw
  rw [h]
  exact ⟨congrArg Group.uncorrectable (State.group_setGroup_self ..), _, rfl, rfl, rfl⟩

/-! ### PATROL_READ (R325, R326, R328, R334, R340) -/

/-- The code word that the patrol reads next, and the request that stands for its read. -/
abbrev State.patrolWord (s : State) (g : Nat) : Nat := g * 402653184 + (s.group g).patrol
abbrev State.patrolReq (s : State) (g : Nat) : Req := { ownReq (64 * s.patrolWord g) 64 with id := s.nextReq }

/-- What the gate's rule picks with the patrol's read behind what waits. -/
abbrev State.patrolPick (s : State) (g : Nat) : Option Req × Group := s.pickOf g (headsOf (s.waitingReqs g ++ [s.patrolReq g]))

theorem State.patrolPasses_picked {q : Req} (hq : (s.patrolPick g).1 = some q) (hid : q.id = s.nextReq) :
    s.patrolPasses g = some (s.patrolPick g).2 := by
  rcases hp : s.patrolPick g with ⟨o, x⟩
  rw [hp] at hq
  obtain rfl : o = some q := hq
  unfold State.patrolPasses
  show (match s.patrolPick g with | (some q, x) => if q.id = s.nextReq then some x else none | (none, _) => none) = _
  rw [hp]
  exact if_pos hid

theorem State.patrolPasses_not_picked (h : ∀ q, (s.patrolPick g).1 = some q → q.id ≠ s.nextReq) :
    s.patrolPasses g = none := by
  unfold State.patrolPasses
  show (match s.patrolPick g with | (some q, x) => if q.id = s.nextReq then some x else none | (none, _) => none) = _
  rcases hp : s.patrolPick g with ⟨_ | q, x⟩
  · rfl
  · exact if_neg (h q (by rw [hp]))

/-- The patrol after its read: it goes on to the next code word (R325). -/
def State.patrolled (s : State) (g : Nat) : State :=
  (((s.setGroup g (s.patrolPick g).2).readCw agentPatrol false (s.patrolWord g)).2).modGroup g fun y =>
    { y with patrol := ((s.group g).patrol + 1) % 402653184 }

theorem patrolRead_pauses
    (h : 64 ≤ g ∨ s.dom (domStack (stackOfGroup g)) ≠ .on ∨ ∀ q, (s.patrolPick g).1 = some q → q.id ≠ s.nextReq) :
    exec (.patrolRead g) s = .next s := by
  show execPatrolRead g s = _
  unfold execPatrolRead
  split
  · next hon =>
    obtain ⟨hg, hd⟩ := Bool.and_eq_true_iff.mp hon
    have hg := of_decide_eq_true hg
    have hd := State.groupOn_iff.mp hd
    rw [State.patrolPasses_not_picked ((h.resolve_left (by omega)).resolve_left (not_not.mpr hd))]
  · rfl

theorem patrolRead_picked {q : Req} (hg : g < 64) (hd : s.dom (domStack (stackOfGroup g)) = .on) (hq : (s.patrolPick g).1 = some q)
    (hid : q.id = s.nextReq) : exec (.patrolRead g) s = .next (s.patrolled g) := by
  have hpatrol : (s.patrolPick g).2.patrol = (s.group g).patrol := by rw [(State.pickOf_released ..).frame]
  show execPatrolRead g s = _
  unfold execPatrolRead State.patrolled
  rw [if_pos (Bool.and_eq_true_iff.mpr ⟨decide_eq_true hg, State.groupOn_iff.mpr hd⟩), State.patrolPasses_picked hq hid]
  dsimp only
  rw [hpatrol]
  rfl

theorem State.group_patrolled (k : Nat) : (s.patrolled g).group k =
    let u := ((s.setGroup g (s.patrolPick g).2).readCw agentPatrol false (s.patrolWord g)).2
    if k = g then { u.group g with patrol := ((s.group g).patrol + 1) % 402653184 } else u.group k := State.group_setGroup ..

/-- What the patrol's release leaves of any group. -/
theorem State.released_setGroup_pick (k : Nat) : (s.group k).Released ((s.setGroup g (s.patrolPick g).2).group k) := by
  rw [State.group_setGroup]
  split
  · next hk => exact hk ▸ s.pickOf_released ..
  · exact ⟨rfl, .refl _⟩

theorem State.patrolled_frame : s.patrolled g =
    { s with hbm := { s.hbm with groups := (s.patrolled g).hbm.groups }
             mesh := { s.mesh with lan := (s.patrolled g).mesh.lan } } := by
  have h := (State.cwRead_readCw (s.setGroup g (s.patrolPick g).2) agentPatrol (s.patrolWord g)).frame
  unfold State.patrolled
  rw [State.modGroup, h]
  rfl

/-- The patrol's read, clean or not, moves of a group nothing but what a release and a read move, and the patrol's place. -/
theorem State.patrolled_keeps : ((s.patrolled g).group g).bytes = (s.group g).bytes ∧
    ((s.patrolled g).group g).servedAt = (s.group g).servedAt ∧
      SameLimits (s.group g).masters ((s.patrolled g).group g).masters := by
  have hnoted := (State.cwRead_readCw (s.setGroup g (s.patrolPick g).2) agentPatrol (s.patrolWord g)).noted g
  have hreleased := State.released_setGroup_pick (s := s) (g := g) g
  rw [State.group_patrolled, if_pos rfl, hnoted]
  refine ⟨?_, ?_, hreleased.limits⟩
  · show ((s.setGroup g (s.patrolPick g).2).group g).bytes = _
    rw [hreleased.frame]
  · show ((s.setGroup g (s.patrolPick g).2).group g).servedAt = _
    rw [hreleased.frame]

theorem State.patrolled_clean (h : hbmDecode (s.hbmDisc (s.patrolWord g)) = some []) : (s.patrolled g).mesh = s.mesh ∧
    ∀ k, (s.patrolled g).group k = if k = g then { s.group g with
      patrol := ((s.group g).patrol + 1) % 402653184, masters := ((s.patrolled g).group g).masters
      released := ((s.patrolled g).group g).released, lastMaster := ((s.patrolled g).group g).lastMaster } else s.group k := by
  have hu : ((s.setGroup g (s.patrolPick g).2).readCw agentPatrol false (s.patrolWord g)).2 = s.setGroup g (s.patrolPick g).2 :=
    State.readCw_clean h
  have hgroup : ∀ k, (s.patrolled g).group k = if k = g then
      { (s.patrolPick g).2 with patrol := ((s.group g).patrol + 1) % 402653184 } else s.group k := by
    intro k
    rw [State.group_patrolled, hu]
    dsimp only
    rw [State.group_setGroup_self, State.group_setGroup]
    split <;> rfl
  refine ⟨?_, fun k => ?_⟩
  · unfold State.patrolled
    rw [hu]
    rfl
  · rw [hgroup g, if_pos rfl, hgroup k]
    split
    · rw [(State.pickOf_released ..).frame]
    · rfl

theorem State.patrolled_counts (k : Nat) :
    let u := ((s.setGroup g (s.patrolPick g).2).readCw agentPatrol false (s.patrolWord g)).2
    ((s.patrolled g).group k).writeBacks = (u.group k).writeBacks ∧
      ((s.patrolled g).group k).corrected = (u.group k).corrected ∧
      ((s.patrolled g).group k).uncorrectable = (u.group k).uncorrectable := by
  intro u
  rw [State.group_patrolled]
  dsimp only
  split
  · next hk => rw [hk]; exact ⟨rfl, rfl, rfl⟩
  · exact ⟨rfl, rfl, rfl⟩

theorem State.patrolled_corrected {e : Nat × Nat} {l : List (Nat × Nat)}
    (h : hbmDecode (s.hbmDisc (s.patrolWord g)) = some (e :: l)) :
    s.patrolWord g ∈ ((s.patrolled g).group (cwGroup (s.patrolWord g))).writeBacks ∧
      ((s.patrolled g).group (cwGroup (s.patrolWord g))).corrected =
        min 0xFFFFFFFF ((s.group (cwGroup (s.patrolWord g))).corrected + 1) := by
  obtain ⟨hback, hcount, -⟩ := State.patrolled_counts (s := s) (g := g) (cwGroup (s.patrolWord g))
  obtain ⟨hin, hcorr⟩ := State.readCw_corrected (s := s.setGroup g (s.patrolPick g).2) (agent := agentPatrol) h
  rw [(State.released_setGroup_pick _).frame] at hcorr
  exact ⟨hback ▸ hin, hcount.trans hcorr⟩

theorem State.patrolled_bad (h : hbmDecode (s.hbmDisc (s.patrolWord g)) = none) :
    ((s.patrolled g).group (cwGroup (s.patrolWord g))).uncorrectable =
        min 0xFFFFFFFF ((s.group (cwGroup (s.patrolWord g))).uncorrectable + 1) ∧
      ∃ m : LanMsg, (s.patrolled g).mesh.lan = s.mesh.lan ++ [m] ∧ m.ty = 9 ∧ m.dest = stopMgmt := by
  obtain ⟨-, -, hcount⟩ := State.patrolled_counts (s := s) (g := g) (cwGroup (s.patrolWord g))
  obtain ⟨hbad, hmsg⟩ := State.readCw_bad (s := s.setGroup g (s.patrolPick g).2) (agent := agentPatrol) h
  rw [(State.released_setGroup_pick _).frame] at hbad
  exact ⟨hcount.trans hbad, hmsg⟩

end

section
variable {s : State} {g : Nat}

/-! ### REFRESH_SAMPLE (R329, R330, R343, R346, R655) -/

/-- Floors that are scaled, or no longer scaled, change nothing else of a group (R343). -/
theorem State.group_scaleFloors (k : Nat) : (s.scaleFloors g).group k =
    { s.group k with floorsScaled := ((s.scaleFloors g).group k).floorsScaled } := by
  have hset : ∀ b, (s.setGroup g { s.group g with floorsScaled := b }).group k =
      { s.group k with floorsScaled := if k = g then b else (s.group k).floorsScaled } := by
    intro b
    rw [State.group_setGroup]
    split
    · next hk => rw [hk]
    · rfl
  have hevent : ∀ (u : State) code arg, (u.event code arg).group k = u.group k := fun _ _ _ => rfl
  unfold State.scaleFloors
  dsimp only
  split_ifs
  · rw [hevent, hset]
  · rw [hset]
  · rfl

theorem State.group_scaleFloors_other {k : Nat} (h : k ≠ g) : (s.scaleFloors g).group k = s.group k := by
  have hset : ∀ x, (s.setGroup g x).group k = s.group k := fun x => (State.group_setGroup ..).trans (if_neg h)
  have hevent : ∀ (u : State) code arg, (u.event code arg).group k = u.group k := fun _ _ _ => rfl
  unfold State.scaleFloors
  dsimp only
  split_ifs
  · rw [hevent, hset]
  · rw [hset]
  · rfl

/-- The row, and the count of cool samples, that a temperature sample leaves (R329). -/
theorem Group.sample_row_up {x : Group} {h : Int} (hw : x.row < refreshRow h) :
    (x.sample h).row = refreshRow h ∧ (x.sample h).coolSamples = 0 := by
  unfold Group.sample
  rw [if_pos hw]
  exact ⟨rfl, rfl⟩

theorem Group.sample_row_down {x : Group} {h : Int} (hw : refreshRow h ≤ x.row) (hr : x.row ≠ 0) (hc : h + 6 ≤ rowBound x.row)
    (hn : 99 ≤ x.coolSamples) : (x.sample h).row = x.row - 1 ∧ (x.sample h).coolSamples = 0 := by
  unfold Group.sample
  rw [if_neg (Nat.not_lt.mpr hw), if_pos ⟨hr, hc⟩, if_pos (Nat.succ_le_succ hn)]
  exact ⟨rfl, rfl⟩

theorem Group.sample_row_cool {x : Group} {h : Int} (hw : refreshRow h ≤ x.row) (hr : x.row ≠ 0) (hc : h + 6 ≤ rowBound x.row)
    (hn : x.coolSamples < 99) : (x.sample h).row = x.row ∧ (x.sample h).coolSamples = x.coolSamples + 1 := by
  unfold Group.sample
  rw [if_neg (Nat.not_lt.mpr hw), if_pos ⟨hr, hc⟩, if_neg (by dsimp only; omega)]
  exact ⟨rfl, rfl⟩

theorem Group.sample_row_kept {x : Group} {h : Int} (hw : refreshRow h ≤ x.row) (hc : x.row = 0 ∨ rowBound x.row < h + 6) :
    (x.sample h).row = x.row ∧ (x.sample h).coolSamples = 0 := by
  unfold Group.sample
  have hcool : ¬ (x.row ≠ 0 ∧ h + 6 ≤ rowBound x.row) := fun ⟨hr, hb⟩ => hc.elim hr (Int.not_lt.mpr hb)
  rw [if_neg (Nat.not_lt.mpr hw), if_neg hcool]
  exact ⟨rfl, rfl⟩

theorem Group.sample_frame (x : Group) (h : Int) :
    x.sample h = { x with temp := h, row := (x.sample h).row, coolSamples := (x.sample h).coolSamples } := by
  unfold Group.sample
  dsimp only
  split_ifs <;> rfl

theorem Group.onDieReport_frame (x : Group) (k : Nat) :
    x.onDieReport k = { x with onDie := (x.onDieReport k).onDie, severity := (x.onDieReport k).severity } := by
  unfold Group.onDieReport
  split <;> rfl

theorem Group.onDieReport_cases (x : Group) (k : Nat) :
    (x.onDieReport k).onDie = x.onDie ∧ (x.onDieReport k).severity = x.severity ∨ (x.onDieReport k).onDie = x.onDie + 1 := by
  unfold Group.onDieReport
  split
  · exact .inl ⟨rfl, rfl⟩
  · exact .inr rfl

theorem rowBound_eq (row : Nat) :
    rowBound row = if row = 1 then 170 else if row = 2 then 190 else if row = 3 then 210 else 220 := by
  unfold rowBound
  split
  · rfl
  · rfl
  · rfl
  · next h1 h2 h3 => rw [if_neg h1, if_neg h2, if_neg h3]

/-- The state after a sample that trips nothing. -/
def State.sampled (s : State) (g : Nat) (h : Int) : State :=
  let u := (s.modGroup g fun x => x.sample h).scaleFloors g
  let v := ({ u with fresh := u.fresh + 1 } : State).modGroup g fun x => x.onDieReport (Config.freeNat u.fresh)
  if 170 < h then { v with power := { v.power with coolAll := 0 } } else v

theorem refreshSample_off {h : Int} (hg : 64 ≤ g ∨ s.domOff (domStack (stackOfGroup g)) = true) :
    exec (.refreshSample g h) s = .next s :=
  congrArg Host.Outcome.next (if_pos hg)

theorem refreshSample_eq {h : Int} (hg : g < 64) (hd : s.domOff (domStack (stackOfGroup g)) = false) : exec (.refreshSample g h) s =
    .next (if 230 ≤ h ∧ (s.group g).temp < 230 then (s.sampled g h).tripAt (0x80 + stackOfGroup g) h else s.sampled g h) := by
  show execRefreshSample g h s = _
  unfold execRefreshSample
  rw [if_neg (by simp [hd]; omega)]
  rfl

theorem State.isReady_sampled (h : Int) : (s.sampled g h).isReady = s.isReady := by
  unfold State.sampled
  rw [State.scaleFloors_frame]
  dsimp only
  split <;> rfl

theorem State.power_sampled (h : Int) :
    (s.sampled g h).power = if 170 < h then { s.power with coolAll := 0 } else s.power := by
  unfold State.sampled
  rw [State.scaleFloors_frame]
  dsimp only
  split <;> rfl

theorem State.fresh_sampled (h : Int) : (s.sampled g h).fresh = s.fresh + 1 := by
  unfold State.sampled
  rw [State.scaleFloors_frame]
  dsimp only
  split <;> rfl

/-- The groups after a sample. -/
theorem State.group_sampled (h : Int) (k : Nat) : (s.sampled g h).group k =
    let u := (s.modGroup g fun x => x.sample h).scaleFloors g
    if k = g then (u.group g).onDieReport (Config.freeNat u.fresh) else u.group k := by
  have hmod : ∀ (u : State) (f : Group → Group), (({ u with fresh := u.fresh + 1 } : State).modGroup g f).group k =
      if k = g then f (u.group g) else u.group k := fun u _ =>
    State.group_setGroup ({ u with fresh := u.fresh + 1 } : State) ..
  have hcool : ∀ v : State, (if 170 < h then { v with power := { v.power with coolAll := 0 } } else v).group k = v.group k := by
    intro v
    split <;> rfl
  unfold State.sampled
  dsimp only
  rw [hcool, hmod]

theorem State.group_sampled_other {h : Int} {k : Nat} (hk : k ≠ g) : (s.sampled g h).group k = s.group k := by
  rw [State.group_sampled]
  dsimp only
  rw [if_neg hk, State.group_scaleFloors_other hk]
  exact (State.group_setGroup ..).trans (if_neg hk)

/-- What a sample leaves of its own group. -/
theorem State.group_sampled_self (h : Int) : ∃ k scaled, (s.sampled g h).group g =
    Group.onDieReport { (s.group g).sample h with floorsScaled := scaled } k := by
  refine ⟨Config.freeNat ((s.modGroup g fun x => x.sample h).scaleFloors g).fresh,
    (((s.modGroup g fun x => x.sample h).scaleFloors g).group g).floorsScaled, ?_⟩
  have hself : (s.modGroup g fun x => x.sample h).group g = (s.group g).sample h := State.group_setGroup_self ..
  rw [State.group_sampled, ← hself, ← State.group_scaleFloors]
  exact if_pos rfl

theorem State.temp_sampled (h : Int) : ((s.sampled g h).group g).temp = h := by
  obtain ⟨k, scaled, hself⟩ := State.group_sampled_self (s := s) (g := g) h
  rw [hself, Group.onDieReport_frame, Group.sample_frame]

theorem State.onDie_sampled (h : Int) :
    ((s.sampled g h).group g).onDie = (s.group g).onDie ∧ ((s.sampled g h).group g).severity = (s.group g).severity ∨
      ((s.sampled g h).group g).onDie = (s.group g).onDie + 1 := by
  obtain ⟨k, scaled, hself⟩ := State.group_sampled_self (s := s) (g := g) h
  have hcases := Group.onDieReport_cases { (s.group g).sample h with floorsScaled := scaled } k
  rw [hself]
  rw [Group.sample_frame] at hcases ⊢
  exact hcases

theorem State.row_sampled (h : Int) : ((s.sampled g h).group g).row = ((s.group g).sample h).row ∧
    ((s.sampled g h).group g).coolSamples = ((s.group g).sample h).coolSamples := by
  obtain ⟨k, scaled, hself⟩ := State.group_sampled_self (s := s) (g := g) h
  rw [hself, Group.onDieReport_frame]
  exact ⟨rfl, rfl⟩

/-- A sample that first reaches 115 °C trips the module (R330). -/
theorem gives_refreshSample_trips {h : Int} (hg : g < 64) (hd : s.domOff (domStack (stackOfGroup g)) = false)
    (ht : 230 ≤ h ∧ (s.group g).temp < 230) : Gives (.refreshSample g h) s fun t =>
      t.power.railsDropped = List.range 16 ∧ (s.isReady = true → t.errors.causes.getLsbD 1 = true) :=
  ⟨_, (refreshSample_eq hg hd).trans (congrArg _ (if_pos ht)), State.railsDropped_tripAt .., fun hr =>
    State.causes_tripAt ((State.isReady_sampled h).trans hr) ..⟩

theorem refreshSample_keeps {h : Int} (hg : g < 64) (hd : s.domOff (domStack (stackOfGroup g)) = false)
    (ht : ¬ (230 ≤ h ∧ (s.group g).temp < 230)) : exec (.refreshSample g h) s = .next (s.sampled g h) :=
  (refreshSample_eq hg hd).trans (congrArg _ (if_neg ht))

/-! ### GATE_SETTING (R335, R342, R344) -/

/-- The fields of the word of a GATE_SETTING (R335). -/
abbrev gateOf (v : BitVec 64) : Nat := (v.extractLsb' 0 6).toNat
abbrev masterOf (v : BitVec 64) : Nat := (v.extractLsb' 6 9).toNat
abbrev floorOf (v : BitVec 64) : Nat := (v.extractLsb' 29 10).toNat
abbrev weightOf (v : BitVec 64) : Nat := (v.extractLsb' 39 8).toNat
abbrev ceilingOf (v : BitVec 64) : Nat := (v.extractLsb' 47 11).toNat

variable {v : BitVec 64}

/-- The setting is out of limits at this gate (R342, R344). -/
abbrev State.BadSetting (s : State) (v : BitVec 64) : Prop :=
  (ceilingOf v ≠ 0 ∧ ceilingOf v < floorOf v) ∨ 1024 < ceilingOf v ∨
    900 < (s.group (gateOf v)).floorSum - ((s.group (gateOf v)).setting (masterOf v)).floor + floorOf v

/-- The master is a bight that does not hold the group (R335). -/
abbrev State.AbsentMaster (s : State) (v : BitVec 64) : Prop :=
  masterOf v < 256 ∧ ((s.bight (masterOf v)).state = .free ∨ (s.bight (masterOf v)).place.holdsGroup (gateOf v) = false)

/-- What the module then holds of the master at the gate. -/
def State.gateSet (s : State) (v : BitVec 64) : GateSetting :=
  { s.refill (gateOf v) ((s.group (gateOf v)).setting (masterOf v)) s.now with
    floor := floorOf v, weight := weightOf v, ceiling := ceilingOf v, class0 := v.getLsbD 58 }

theorem State.bightHolds_eq_false {b k : Nat} :
    s.bightHolds b k = false ↔ (s.bight b).state = .free ∨ (s.bight b).place.holdsGroup k = false := by
  unfold State.bightHolds
  simp [imp_iff_not_or]

theorem putGateSetting_range (h : 306 < masterOf v) : putGateSetting v s = (dRange, s) := by
  unfold putGateSetting
  simp only [fieldN_toNat]
  rw [if_pos h]

theorem putGateSetting_refused (h : masterOf v = 306 ∨ masterOf v < 306 ∧ (s.AbsentMaster v ∨ s.BadSetting v)) :
    putGateSetting v s = (dRefused, s) := by
  unfold putGateSetting
  simp only [fieldN_toNat]
  rw [if_neg (show ¬ 306 < masterOf v by omega)]
  split_ifs with h306 habsent hceiling hsum
  · rfl
  · rfl
  · rfl
  · rfl
  · obtain hm | ⟨-, habs | hbad⟩ := h
    · exact absurd hm h306
    · exact absurd ⟨habs.1, State.bightHolds_eq_false.mpr habs.2⟩ habsent
    · rcases hbad with hc | hc | hc
      · exact absurd (.inl hc) hceiling
      · exact absurd (.inr (.inr hc)) hceiling
      · exact absurd hc hsum

theorem putGateSetting_stores (hm : masterOf v < 306) (habs : ¬ s.AbsentMaster v) (hbad : ¬ s.BadSetting v) :
    putGateSetting v s = (dOk, (s.setGroup (gateOf v) { s.group (gateOf v) with
      masters := Tab.put {} (s.group (gateOf v)).masters (masterOf v) (s.gateSet v) }).scaleFloors (gateOf v)) := by
  have hten : floorOf v < 1024 := BitVec.isLt _
  obtain ⟨hlow, hbad⟩ := not_or.mp hbad
  obtain ⟨hhigh, hsum⟩ := not_or.mp hbad
  unfold putGateSetting
  simp only [fieldN_toNat]
  rw [if_neg (show ¬ 306 < masterOf v by omega), if_neg (show ¬ masterOf v = 306 by omega),
    if_neg (fun h => habs ⟨h.1, State.bightHolds_eq_false.mp h.2⟩),
    if_neg (by rintro (h | h | h) <;> [exact hlow h; omega; exact hhigh h]), if_neg hsum]
  rfl

end
end Sys2Proof.Machine

section
open Sys2Proof Sys2Proof.Machine Sys2Proof.Claims

/-- Settles O39: each command's cases, each with the state that the model gives; the patrol goes through what the release rule
and a read of a code word leave of a group, the sample through what it leaves of its group's row. -/
theorem hbmControllerAndGate : Obligations.HbmControllerAndGate := by
  refine ⟨fun s g => ⟨gateRelease_empty, fun hg hq => ⟨fun r l => gateRelease_barred hg hq, fun hb hd => ?_, fun hb hd => ?_,
    fun r x a hb hd hp ha => ?_, fun x hb hd hp => ?_⟩⟩, fun s g => ⟨hbmWriteBack_none, fun cw rest errs hw hd he => ⟨_,
      hbmWriteBack_due hw hd he, fun k => State.group_setGroup .., (State.hbmDisc_putHbm ..).trans (if_pos rfl),
      fun x hx => (State.hbmDisc_putHbm ..).trans (if_neg hx), rfl, rfl⟩⟩,
    fun s g => ⟨patrolRead_pauses, fun q hg hd hq hid => ?_⟩,
    fun s g h => ⟨refreshSample_off, gives_refreshSample_trips, fun hg hd ht => ?_⟩,
    fun s via v hserves => ⟨fun hm => ?_, fun hbad => ?_, fun hm habs hbad => ?_⟩⟩
  · exact (gateRelease_open hg hq hb).trans (congrArg _ (State.openGate_low hd))
  · exact (gateRelease_open hg hq hb).trans (congrArg _ (State.openGate_changing hd))
  · exact (gateRelease_open hg hq hb).trans (congrArg _ (State.openGate_picks hd hp ha))
  · exact (gateRelease_open hg hq hb).trans (congrArg _ (State.openGate_waits hd hp))
  · obtain ⟨hbytes, hserved, hmasters⟩ := State.patrolled_keeps (s := s) (g := g)
    refine ⟨s.patrolled g, patrolRead_picked hg hd hq hid, congrArg Group.patrol ((State.group_patrolled g).trans (if_pos rfl)),
      State.patrolled_frame, State.patrolled_clean, hbytes, hserved, fun m => ?_, fun e l => State.patrolled_corrected,
      State.patrolled_bad⟩
    have hlimits := Group.limits_setting hmasters m
    simpa [GateSetting.limits] using hlimits
  · obtain ⟨hrow, hcool⟩ := State.row_sampled (s := s) (g := g) h
    refine ⟨s.sampled g h, refreshSample_keeps hg hd ht, State.temp_sampled h, fun k => State.group_sampled_other,
      State.fresh_sampled h, State.onDie_sampled h, State.power_sampled h, ?_⟩
    rw [hrow, hcool, ← rowBound_eq]
    exact ⟨Group.sample_row_up, Group.sample_row_down, Group.sample_row_cool, Group.sample_row_kept⟩
  · exact answers_of_objWrite hserves rfl (putGateSetting_range hm)
  · exact answers_of_objWrite hserves rfl (putGateSetting_refused hbad)
  · refine ⟨_, answers_of_objWrite hserves rfl (putGateSetting_stores hm habs hbad), ?_, ?_, fun k hk => ?_⟩
    · intro k hk
      rw [State.group_scaleFloors, State.group_setGroup_self]
      exact (Tab.look_put ..).trans (if_neg hk)
    · rw [State.group_scaleFloors, State.group_setGroup_self]
      dsimp only
      rw [Tab.look_put_same]
      exact ⟨rfl, rfl, rfl, rfl⟩
    · rw [State.group_scaleFloors_other hk]
      exact (State.group_setGroup ..).trans (if_neg hk)

end

namespace Sys2Proof.Machine
open Sys2Proof.Claims

section
variable (s : State)

/-! ### What leaves translation alone: reports, packets and kills (R379, R475, R484) -/

@[simp] theorem State.xlat_irq (n v : Nat) : (s.irq n v).xlat = s.xlat := by
  unfold State.irq State.modFn
  dsimp only
  split_ifs <;> rfl

@[simp] theorem State.xlat_cause (n bit : Nat) : (s.cause n bit).xlat = s.xlat := State.xlat_irq ..
@[simp] theorem State.xlat_moduleEvent : s.moduleEvent.xlat = s.xlat := State.xlat_cause ..
@[simp] theorem State.xlat_modPort (n : Nat) (f : Port → Port) : (s.modPort n f).xlat = s.xlat := rfl
@[simp] theorem State.xlat_modBight (b : Nat) (f : Bight → Bight) : (s.modBight b f).xlat = s.xlat := rfl

@[simp] theorem State.xlat_activity (u : Meter) (k : Activity) (n : Nat) (p : Payer) : (s.activity u k n p).xlat = s.xlat := by
  rw [State.activity_frame]

@[simp] theorem State.xlat_packBytes (n : Nat) (b : Bytes) : (s.packBytes n b).xlat = s.xlat :=
  view_foldl State.xlat (fun _ _ => by rfl) _ s

@[simp] theorem State.xlat_countPacket (n : Nat) : (s.countPacket n).xlat = s.xlat := by
  unfold State.countPacket
  dsimp only
  split
  · rfl
  · split <;> simp

@[simp] theorem State.xlat_emitPacket (n : Nat) (pk : Packet) : (s.emitPacket n pk).xlat = s.xlat := by
  unfold State.emitPacket
  dsimp only
  split
  · rfl
  · split <;> simp

variable {s} in
theorem State.xlat_pumpVc {t : State} {n v : Nat} (h : s.pumpVc n v = some t) : t.xlat = s.xlat := by
  unfold State.pumpVc at h
  dsimp only at h
  split at h
  · cases h
  · split at h
    · cases h
      simp
    · cases h

@[simp] theorem State.xlat_pump (fuel : Nat) (n : Nat) : (State.pump fuel s n).xlat = s.xlat := by
  induction fuel generalizing s with
  | zero => rfl
  | succ fuel ih =>
    unfold State.pump
    split
    · next h =>
      obtain ⟨v, -, h⟩ := List.exists_of_findSome?_eq_some h
      exact (ih _).trans (State.xlat_pumpVc h)
    · rfl

@[simp] theorem State.xlat_sendPacket (n : Nat) (h : Header) (d : Bytes) (pay : Option (Nat × Nat × Nat)) :
    (s.sendPacket n h d pay).xlat = s.xlat := State.xlat_pump ..

@[simp] theorem State.xlat_respond (port tag source window offset : Nat) (write : Bool) (status sub : Nat) (data : Bytes)
    (pay : Option (Nat × Nat × Nat)) : (s.respond port tag source window offset write status sub data pay).xlat = s.xlat := by
  unfold State.respond
  split <;> simp

@[simp] theorem State.xlat_ungate (ids : List Nat) : (s.ungate ids).xlat = s.xlat :=
  view_foldl State.xlat (f := fun (s : State) x => s.oweCredit x) (fun _ _ => rfl) _ _

@[simp] theorem State.xlat_refKey (r : Req) (up : Bool) : (s.refKey r up).xlat = s.xlat := by
  unfold State.refKey
  split
  · split <;> rfl
  · rfl

@[simp] theorem State.xlat_dropReq (id : Nat) : (s.dropReq id).xlat = s.xlat := rfl

@[simp] theorem State.xlat_refuseReq (r : Req) : (s.refuseReq r).xlat = s.xlat := by
  unfold State.refuseReq
  split <;> simp

@[simp] theorem State.xlat_lanCarry (ty dest src : Nat) (payload : List Flit) :
    (s.lanCarry ty dest src payload).xlat = s.xlat := rfl

@[simp] theorem State.xlat_register (b : Nat) (e : RegEntry) : (s.register b e).xlat = s.xlat := by
  unfold State.register
  split
  · simp
  · split <;> simp

@[simp] theorem State.xlat_requestKill (q seq code : Nat) (detail : BitVec 24) (rerun : Bool) :
    (s.requestKill q seq code detail rerun).xlat = s.xlat := by
  unfold State.requestKill
  split
  · rfl
  · split
    · rfl
    · split <;> simp

@[simp] theorem State.xlat_restartWalks (x : InvScope) : (s.restartWalks x).xlat = s.xlat := by
  unfold State.restartWalks
  simp

/-! ### What an invalidation leaves of translation (R376 to R379) -/

/-- A drain waits for what used the scope's translations, for the moves in it, and for the cores with a failed store there. -/
theorem State.invalidate_drain (origin : InvOrigin) (x : InvScope) : ∃ i : Invalidation,
    (s.invalidate origin false x).xlat = { (s.uncacheScope x).xlat with invs := s.xlat.invs ++ [i] } ∧
      i.origin = origin ∧ i.abort = false ∧ i.kills = [] ∧ i.waits = (s.reqs.filter fun r => s.usedOld x r).map (·.id) ∧
      i.moves = s.movesIn x ∧ ∀ k, k ∈ i.cores ↔ ∃ r ∈ s.reqs, r.owner = .far k ∧ s.storeUnreported r = true ∧
        s.inScope x r.asid r.page (r.page + 1) = true := by
  unfold State.invalidate
  dsimp only
  rw [State.xlat_restartWalks]
  refine ⟨_, rfl, rfl, rfl, rfl, rfl, rfl, fun k => ?_⟩
  rw [if_neg Bool.false_ne_true, List.mem_dedup, List.mem_filterMap]
  refine exists_congr fun r => and_congr_right fun _ => ?_
  rcases r.owner with _ | k' | _ | _ | _ <;> simp
  tauto

/-- The kill of a command that used the old translations (R379). -/
def State.abortCmd (s : State) (e : Nat × Nat) : State :=
  match s.cmd? e.1 e.2 with
  | some c =>
    if c.direct then s.requestKill e.1 e.2 codeAborted (detailCmd e.1 e.2) false else s.requestKill e.1 e.2 0 0 true
  | none => s

@[simp] theorem State.xlat_abortCmd (e : Nat × Nat) : (s.abortCmd e).xlat = s.xlat := by
  unfold State.abortCmd
  split
  · split <;> simp
  · rfl

/-- The kills and refusals of an abort. -/
def State.abortUsers (s : State) (cmds : List (Nat × Nat)) (used : List Req) : State :=
  used.foldl (fun s r => s.refuseReq r) (cmds.foldl State.abortCmd s)

@[simp] theorem State.xlat_abortUsers (cmds : List (Nat × Nat)) (used : List Req) : (s.abortUsers cmds used).xlat = s.xlat :=
  (view_foldl State.xlat State.xlat_refuseReq _ _).trans (view_foldl State.xlat State.xlat_abortCmd _ _)

theorem State.invalidate_abort_eq (origin : InvOrigin) (x : InvScope) :
    let cmds := ((s.reqs.filter fun r => s.usedOld x r).filterMap fun r => ((s.uncacheScope x).restartWalks x).cmdOfReq r).dedup
    let u := ((s.uncacheScope x).restartWalks x).abortUsers cmds (s.reqs.filter fun r => s.usedOld x r)
    s.invalidate origin true x = { u with xlat := { u.xlat with
      invs := u.xlat.invs ++ [{ origin, abort := true, waits := [], moves := s.movesIn x, kills := cmds }] } } := rfl

/-- An abort kills the commands that used the scope's translations, and waits for no request. -/
theorem State.invalidate_abort (origin : InvOrigin) (x : InvScope) : ∃ i : Invalidation,
    (s.invalidate origin true x).xlat = { (s.uncacheScope x).xlat with invs := s.xlat.invs ++ [i] } ∧
      i.origin = origin ∧ i.abort = true ∧ i.waits = [] := by
  rw [State.invalidate_abort_eq]
  dsimp only
  rw [State.xlat_abortUsers, State.xlat_restartWalks]
  exact ⟨_, rfl, rfl, rfl, rfl⟩

/-- An invalidation is added, whether it drains or aborts, and the windows stay. -/
theorem State.invalidate_adds (origin : InvOrigin) (abort : Bool) (x : InvScope) : ∃ i : Invalidation,
    (s.invalidate origin abort x).xlat = { (s.uncacheScope x).xlat with invs := s.xlat.invs ++ [i] } ∧ i.origin = origin := by
  cases abort with
  | false =>
    obtain ⟨i, h, horigin, -⟩ := s.invalidate_drain origin x
    exact ⟨i, h, horigin⟩
  | true =>
    obtain ⟨i, h, horigin, -⟩ := s.invalidate_abort origin x
    exact ⟨i, h, horigin⟩

end

section
variable {s : State}

/-! ### INVALIDATE_DRAIN and INVALIDATE_ABORT (R375 to R379) -/

/-- The invalidations of the host that are outstanding. -/
abbrev State.hostInvs (s : State) : Nat := (s.xlat.invs.filter fun x => x.origin.isControl).length

/-- The next number of the host's is given out (R376). -/
abbrev State.numbered (s : State) : State := { s with xlat := { s.xlat with invIssued := s.xlat.invIssued + 1 } }

/-- A write of MG_INV_CTRL goes on at once: no register write and no write through BAR2 is ahead of it (R377). -/
abbrev State.InvNow (s : State) : Prop := s.host.regWaiting = [] ∧ s.barWrites (fun _ => true) = false

theorem State.putInvCtrl_waits (h : ¬ s.InvNow) (abort : Bool) (v : Word) : s.putInvCtrl abort v =
    { s with host := { s.host with regWaiting := s.host.regWaiting ++ [.inv abort s.xlat.invAddr v] } } :=
  if_neg (by simpa [State.regHeld] using h)

theorem State.putInvCtrl_now (h : s.InvNow) (abort : Bool) (v : Word) : s.putInvCtrl abort v = s.issueInv abort s.xlat.invAddr v :=
  if_pos (by simpa [State.regHeld] using h)

theorem State.issueInv_dropped (h : 16 ≤ s.hostInvs) (abort : Bool) (addr v : Word) :
    s.issueInv abort addr v = { s with xlat := { s.xlat with invDropped := true } } := if_pos h

theorem State.issueInv_issued (h : s.hostInvs < 16) (abort : Bool) (addr v : Word) :
    s.issueInv abort addr v = s.numbered.invalidate (.control (s.xlat.invIssued + 1)) abort (invScope addr v) :=
  if_neg (Nat.not_le.mpr h)

theorem invalidateDrain_open (h : s.regsOpen 0 = true) (v : Word) : exec (.invalidateDrain v) s = .next (s.putInvCtrl false v) :=
  congrArg Host.Outcome.next (if_pos h)

theorem invalidateAbort_open (h : s.regsOpen 0 = true) (v : Word) : exec (.invalidateAbort v) s = .next (s.putInvCtrl true v) :=
  congrArg Host.Outcome.next (if_pos h)

theorem invalidate_closed (h : s.regsOpen 0 = false) (v : Word) :
    exec (.invalidateDrain v) s = .next s ∧ exec (.invalidateAbort v) s = .next s := by
  have hneg : ¬ s.regsOpen 0 = true := by simp [h]
  exact ⟨congrArg Host.Outcome.next (if_neg hneg), congrArg Host.Outcome.next (if_neg hneg)⟩

theorem gives_invalidateDrain (h : s.regsOpen 0 = true) (hnow : s.InvNow) (hout : s.hostInvs < 16) (v : Word) :
    Gives (.invalidateDrain v) s fun t => t.xlat.invIssued = s.xlat.invIssued + 1 ∧ ∃ x, t.xlat.invs = s.xlat.invs ++ [x] ∧
      x.origin = .control (s.xlat.invIssued + 1) ∧ x.abort = false ∧ x.kills = [] ∧
      x.waits = (s.reqs.filter fun r => s.usedOld (invScope s.xlat.invAddr v) r).map (·.id) ∧
      x.moves = s.movesIn (invScope s.xlat.invAddr v) ∧
      ∀ k, k ∈ x.cores ↔ ∃ r ∈ s.reqs, r.owner = .far k ∧ s.storeUnreported r = true ∧
        s.inScope (invScope s.xlat.invAddr v) r.asid r.page (r.page + 1) = true := by
  refine ⟨_, invalidateDrain_open h v, ?_⟩
  rw [State.putInvCtrl_now hnow, State.issueInv_issued hout]
  obtain ⟨i, hi, hfields⟩ := s.numbered.invalidate_drain (.control (s.xlat.invIssued + 1)) (invScope s.xlat.invAddr v)
  rw [hi]
  exact ⟨rfl, i, rfl, hfields⟩

theorem gives_invalidateAbort (h : s.regsOpen 0 = true) (hnow : s.InvNow) (hout : s.hostInvs < 16) (v : Word) :
    Gives (.invalidateAbort v) s fun t => t.xlat.invIssued = s.xlat.invIssued + 1 ∧
      ∃ x ∈ t.xlat.invs, x.origin = .control (s.xlat.invIssued + 1) ∧ x.abort = true ∧ x.waits = [] := by
  refine ⟨_, invalidateAbort_open h v, ?_⟩
  rw [State.putInvCtrl_now hnow, State.issueInv_issued hout]
  obtain ⟨i, hi, hfields⟩ := s.numbered.invalidate_abort (.control (s.xlat.invIssued + 1)) (invScope s.xlat.invAddr v)
  rw [hi]
  exact ⟨rfl, i, List.mem_append_right _ (List.mem_singleton_self i), hfields⟩

/-! ### INVALIDATION_COMPLETE (R376, R387) -/

theorem invalidationComplete_none (h : s.nextInv s.xlat.invs false = none) : exec .invalidationComplete s = .next s := by
  show execInvalidationComplete s = _
  unfold execInvalidationComplete
  rw [h]

theorem invalidationComplete_some {v : Invalidation} (h : s.nextInv s.xlat.invs false = some v) :
    exec .invalidationComplete s =
      .next (({ s with xlat := { s.xlat with invs := dropInv v s.xlat.invs } } : State).invEnded v) := by
  show execInvalidationComplete s = _
  unfold execInvalidationComplete
  rw [h]

theorem State.irqCause_irq (n v k : Nat) : ((s.irq n v).fn k).irqCause = (s.fn k).irqCause := by
  unfold State.irq
  dsimp only
  split_ifs
  · rw [State.modFn, State.fn_setFn]
    split
    · next h => rw [h]
    · rfl
  · rfl
  · rfl

/-- The cause of completed invalidations is set (R396). -/
theorem State.irqCause_cause_one (n : Nat) : ((s.cause n 1).fn n).irqCause.getLsbD 1 = true := by
  unfold State.cause
  rw [State.irqCause_irq, State.modFn, State.fn_setFn_self]
  simp

/-- The end of an invalidation of the host: its number is the completed one, and the host is told (R376). -/
theorem State.invEnded_control {v : Invalidation} {seq} (h : v.origin = .control seq) :
    (s.invEnded v).xlat.invDone = seq ∧ (s.invEnded v).xlat.completed = s.xlat.completed + 1 ∧
      ((s.invEnded v).fn 0).irqCause.getLsbD 1 = true := by
  unfold State.invEnded
  rw [h]
  dsimp only
  rw [State.xlat_cause]
  exact ⟨rfl, rfl, State.irqCause_cause_one 0⟩

/-- The end of an invalidation of a window that closes: it is closed (R387). -/
theorem State.invEnded_window {v : Invalidation} {w : Nat} (h : v.origin = .window w) : ((s.invEnded v).inWin w).state = 0 := by
  unfold State.invEnded
  rw [h]
  dsimp only
  rw [State.inWin_setInWin_self]

/-! ### INBOUND_REQUEST (R386, R491, R499) -/

/-- A request is answered without an access: its packet leaves the buffer (R491). -/
def State.answerAtOnce (s : State) (port i : Nat) (h : Header) (status : Nat) : State :=
  (s.takePacket port 0 i).respond port h.tag h.src h.window h.offset (h.ty == 2) status 0 []
    (s.inboundPayer (s.inWin h.window).asid ((s.inWin h.window).base + h.offset))

/-- What the outcome of its translation makes of a request (R386). -/
def afterXlate (port i : Nat) (pk : Packet) (w : Who) (va : Nat) : Xres × State → State
  | (.ok d, s) => s.startInbound port i pk w d
  | (.fault r, s) => s.faultFor w va (pk.hdr.ty == 2) r
  | (.refused, s) => s.answerAtOnce port i pk.hdr 3
  | (.kill _, s) => s.answerAtOnce port i pk.hdr 1
  | (.hold, s) => s

section
variable {port i : Nat} {pk : Packet}

theorem inboundRequest_none (h : s.forgetSteps.nextInbound port = none) : exec (.inboundRequest port) s = .next s.forgetSteps := by
  show Host.Outcome.next (s.serveInbound port) = _
  unfold State.serveInbound
  dsimp only
  rw [h]

variable (h : s.forgetSteps.nextInbound port = some (i, pk))
include h

theorem inboundRequest_refused (hw : s.forgetSteps.windowRefuses pk.hdr (pk.hdr.ty == 2) = true) :
    exec (.inboundRequest port) s = .next (s.forgetSteps.countRefused.answerAtOnce port i pk.hdr 1) := by
  show Host.Outcome.next (s.serveInbound port) = _
  unfold State.serveInbound
  dsimp only
  rw [h]
  dsimp only
  rw [if_pos hw]
  rfl

variable (hw : s.forgetSteps.windowRefuses pk.hdr (pk.hdr.ty == 2) = false)
include hw

theorem inboundRequest_unmet (hm : s.forgetSteps.meetInbound port pk.hdr = none) :
    exec (.inboundRequest port) s = .next (s.forgetSteps.answerAtOnce port i pk.hdr 1) := by
  show Host.Outcome.next (s.serveInbound port) = _
  unfold State.serveInbound
  dsimp only
  rw [h]
  dsimp only
  rw [if_neg (by simp [hw]), hm]
  rfl

/-- A request that its window and its RECV let pass goes on as its translation says (R386). -/
theorem inboundRequest_met {m : State} {va : Nat} {w : Who} {r : Xres × State}
    (hm : s.forgetSteps.meetInbound port pk.hdr = some m)
    (hva : va = (s.forgetSteps.inWin pk.hdr.window).base + pk.hdr.offset)
    (hwho : w = s.forgetSteps.whoInbound port pk.hdr.window va)
    (hx : m.translate w va (max pk.hdr.len 1) (pk.hdr.ty == 2) = r) :
    exec (.inboundRequest port) s = .next (afterXlate port i pk w va r) := by
  subst hva hwho
  show Host.Outcome.next (s.serveInbound port) = _
  unfold State.serveInbound
  dsimp only
  rw [h]
  dsimp only
  rw [if_neg (by simp [hw]), hm]
  dsimp only
  rw [hx]
  obtain ⟨x, u⟩ := r
  cases x <;> rfl

end

/-! ### Windows (R384, R387) -/

theorem State.closeInbound_kept {w : Nat} (h : (s.inWin w).state ≠ 1) (abort : Bool) : s.closeInbound w abort = s := if_neg h

/-- A window that closes is CLOSING until its invalidation completes (R387). -/
theorem State.closeInbound_open {w : Nat} (h : (s.inWin w).state = 1) (abort : Bool) :
    (s.closeInbound w abort).inWin w = { s.inWin w with state := 3 } ∧
      (∀ k, k ≠ w → (s.closeInbound w abort).inWin k = s.inWin k) ∧
      ∃ x ∈ (s.closeInbound w abort).xlat.invs, x.origin = .window w := by
  have heq : s.closeInbound w abort = (s.setInWin w { s.inWin w with state := 3 }).invalidate (.window w) abort (.window w) :=
    if_pos h
  obtain ⟨i, hi, horigin⟩ := (s.setInWin w { s.inWin w with state := 3 }).invalidate_adds (.window w) abort (.window w)
  have hwin : ∀ k, (s.closeInbound w abort).inWin k = (s.setInWin w { s.inWin w with state := 3 }).inWin k := by
    intro k
    unfold State.inWin
    rw [heq, hi]
    rfl
  refine ⟨(hwin w).trans (State.inWin_setInWin_self ..), fun k hk => (hwin k).trans ?_, i, ?_, horigin⟩
  · exact (State.inWin_setInWin ..).trans (if_neg hk)
  · rw [heq, hi]
    exact List.mem_append_right _ (List.mem_singleton_self i)

/-- Either way to close an inbound window (R387). -/
theorem closes_inbound {via : Via} {w : Nat} (hserves : Serves s via true false) {c : Instr} {abort : Bool} {v : BitVec 8}
    (hc : exec c s = .next (s.objWrite via true false (putInState w v))) (hv : putInState w v s = (dOk, s.closeInbound w abort)) :
    ((s.inWin w).state ≠ 1 → Answers c s via 0x00 s) ∧
      ((s.inWin w).state = 1 → ∃ t : State, Answers c s via 0x00 t ∧ t.inWin w = { s.inWin w with state := 3 } ∧
        (∀ k, k ≠ w → t.inWin k = s.inWin k) ∧ ∃ x ∈ t.xlat.invs, x.origin = .window w) := by
  have hanswers := answers_of_objWrite hserves hc hv
  refine ⟨fun h => ?_, fun h => ⟨_, hanswers, State.closeInbound_open h abort⟩⟩
  rw [State.closeInbound_kept h] at hanswers
  exact hanswers

/-! ### APERTURE_ACCESS (R393, R397, R576) -/

section
variable {fn offset len : Nat} {data : Option Bytes}

/-- The bytes of a host access. -/
abbrev hostBytes (len : Nat) (data : Option Bytes) : Nat := (data.map (·.length)).getD len

/-- A host access of one 4 KiB block within the BAR, of a function whose port is up (R389, R393). -/
abbrev State.Reached (s : State) (fn offset n : Nat) : Prop :=
  n ≠ 0 ∧ offset % 4096 + n ≤ 4096 ∧ offset + n ≤ aperBytes fn ∧ s.fnUp fn = true

/-- What an access that reaches its function does. -/
def State.hostAccess (s : State) (fn offset len : Nat) (data : Option Bytes) : State :=
  if data.isSome && len != 0 then s.send (.completion fn false none)
  else if !s.isReady then (if data.isSome then s else s.send (.completion fn false none))
  else if !(s.fn fn).aper.getLsbD 63 then s.apertureMiss fn data.isSome
  else (s.entryPort fn).2.aperture { fn, port := (s.entryPort fn).1, offset, len, data }

/-- The model's test that an access does not reach its function. -/
abbrev State.misses (s : State) (fn offset n : Nat) : Bool :=
  n == 0 || decide (4096 < offset % 4096 + n) || decide (aperBytes fn < offset + n) || !s.fnUp fn

theorem State.misses_iff {n : Nat} : s.misses fn offset n = true ↔ ¬ s.Reached fn offset n := by
  simp only [Bool.or_eq_true, beq_iff_eq, decide_eq_true_eq, Bool.not_eq_true', ← Nat.not_le, ← Bool.not_eq_true]
  tauto

theorem apertureAccess_cases : exec (.apertureAccess fn offset len data) s =
    .next (if s.misses fn offset (hostBytes len data) then s else s.hostAccess fn offset len data) := by
  cases data <;> rfl

theorem apertureAccess_unreached (h : ¬ s.Reached fn offset (hostBytes len data)) :
    exec (.apertureAccess fn offset len data) s = .next s :=
  apertureAccess_cases.trans (congrArg _ (if_pos (State.misses_iff.mpr h)))

variable (h : s.Reached fn offset (hostBytes len data))
include h

theorem apertureAccess_reached : exec (.apertureAccess fn offset len data) s = .next (s.hostAccess fn offset len data) :=
  apertureAccess_cases.trans (congrArg _ (if_neg fun hm => State.misses_iff.mp hm h))

theorem apertureAccess_atomic (ha : data ≠ none ∧ len ≠ 0) :
    exec (.apertureAccess fn offset len data) s = .next (s.send (.completion fn false none)) := by
  refine (apertureAccess_reached h).trans (congrArg _ (if_pos ?_))
  simpa [Option.isSome_iff_ne_none] using ha

variable (ha : ¬ (data ≠ none ∧ len ≠ 0))
include ha

theorem apertureAccess_early (hr : s.isReady = false) : exec (.apertureAccess fn offset len data) s =
    .next (if data.isSome then s else s.send (.completion fn false none)) := by
  rw [apertureAccess_reached h]
  unfold State.hostAccess
  rw [if_neg (by simpa [Option.isSome_iff_ne_none] using ha), if_pos (by simp [hr])]

theorem apertureAccess_disabled (hr : s.isReady = true) (hd : (s.fn fn).aper.getLsbD 63 = false) :
    exec (.apertureAccess fn offset len data) s = .next (s.apertureMiss fn data.isSome) := by
  rw [apertureAccess_reached h]
  unfold State.hostAccess
  rw [if_neg (by simpa [Option.isSome_iff_ne_none] using ha), if_neg (by simp [hr]), if_pos (by rw [hd]; rfl)]

theorem apertureAccess_enabled (hr : s.isReady = true) (hd : (s.fn fn).aper.getLsbD 63 = true) :
    exec (.apertureAccess fn offset len data) s =
      .next ((s.entryPort fn).2.aperture { fn, port := (s.entryPort fn).1, offset, len, data }) := by
  rw [apertureAccess_reached h]
  unfold State.hostAccess
  rw [if_neg (by simpa [Option.isSome_iff_ne_none] using ha), if_neg (by simp [hr]), if_neg (by rw [hd]; decide)]

end

/-- The port that an access comes by has its link up, and is the function's own unless the function is 0 (R390). -/
theorem State.entryPort_up {fn : Nat} (h : s.fnUp fn = true) :
    (s.entryPort fn).1 ∈ s.host.linkUp ∧ (fn ≠ 0 → (s.entryPort fn).1 = (s.fn fn).port) := by
  have hport : s.portOfFn fn ∈ s.host.linkUp := List.contains_iff_mem.mp h
  unfold State.entryPort
  split
  · next hboth =>
    obtain ⟨h0, hlow, hhigh⟩ := hboth
    refine ⟨?_, fun hfn => absurd h0 hfn⟩
    show s.freeNat.1 % 2 ∈ _
    rcases Nat.mod_two_eq_zero_or_one s.freeNat.1 with hn | hn <;> rw [hn]
    · exact List.contains_iff_mem.mp hlow
    · exact List.contains_iff_mem.mp hhigh
  · exact ⟨hport, fun hfn => if_neg hfn⟩

/-- The choice of a port changes nothing that a host access reads (R390). -/
theorem State.fn_entryPort (fn k : Nat) : (s.entryPort fn).2.fn k = s.fn k := by
  unfold State.entryPort
  split <;> rfl

/-- What the outcome of its translation makes of a host access (R397). -/
def afterAperture (x : HostAccess) (w : Who) (va : Nat) : Xres × State → State
  | (.ok d, s) =>
    let a : Access := { who := w, owner := .aperture x.fn, master := 256 + x.port, deadline := s.stamp, write := x.data.isSome, va
                        len := hostBytes x.len x.data, data := x.data.getD [] }
    let (id, u) := s.startAccess a d
    (match u.req? id with
      | some r => if r.result = .pending then u else u.arriveReq id r.result
      | none => u)
  | (.hold, s) => { s with host := { s.host with apertureWaiting := s.host.apertureWaiting ++ [x] } }
  | (_, s) => s.apertureMiss x.fn x.data.isSome

/-- A host access goes on as its translation says (R397). -/
theorem State.aperture_eq {x : HostAccess} {f : Fn} {r : Xres × State} (hf : s.fn x.fn = f) :
    let w := s.whoAperture x.fn x.port (f.aper.extractLsb' 0 12).toNat
    let va := (f.aper.extractLsb' 30 22).toNat * 2 ^ 30 + x.offset
    s.forgetSteps.translate w va (hostBytes x.len x.data) x.data.isSome = r → s.aperture x = afterAperture x w va r := by
  intro w va hx
  subst hf
  obtain ⟨fn, port, offset, len, data⟩ := x
  unfold State.aperture
  dsimp only
  rw [fieldN_toNat, fieldN_toNat]
  generalize hq : State.translate _ _ _ _ _ = q
  obtain rfl : q = r := hq.symm.trans (by cases data <;> exact hx)
  obtain ⟨_ | _, u⟩ := q <;> cases data <;> rfl

section
variable {fn offset len : Nat} {data : Option Bytes}

/-- A host access through an enabled aperture goes on as its translation says (R397). -/
theorem apertureAccess_translated {r : Xres × State} (h : s.Reached fn offset (hostBytes len data))
    (ha : ¬ (data ≠ none ∧ len ≠ 0)) (hr : s.isReady = true) (hd : (s.fn fn).aper.getLsbD 63 = true) :
    let port := (s.entryPort fn).1
    let u := (s.entryPort fn).2
    let w := u.whoAperture fn port ((s.fn fn).aper.extractLsb' 0 12).toNat
    let va := ((s.fn fn).aper.extractLsb' 30 22).toNat * 2 ^ 30 + offset
    u.forgetSteps.translate w va (hostBytes len data) data.isSome = r →
      exec (.apertureAccess fn offset len data) s = .next (afterAperture { fn, port, offset, len, data } w va r) := by
  intro port u w va hx
  have haper := State.aperture_eq (s := u) (x := { fn, port, offset, len, data }) (State.fn_entryPort fn fn) hx
  rw [apertureAccess_enabled h ha hr hd, haper]

end

end
end Sys2Proof.Machine

section
open Sys2Proof Sys2Proof.Machine Sys2Proof.Claims

/-- Settles O48: an invalidation is followed through the kills and refusals it makes, which leave translation alone; a request and a
host access go on as what their translation answers says. -/
theorem invalidationsAndWindows : Obligations.InvalidationsAndWindows := by
  refine ⟨fun s v => ⟨fun h => invalidate_closed h v, fun h hnow => ⟨?_, ?_⟩, fun h hnow hout => ⟨?_, ?_⟩,
      fun h hnow hout => ⟨gives_invalidateDrain h hnow hout v, gives_invalidateAbort h hnow hout v⟩⟩,
    fun s => ⟨invalidationComplete_none, fun v h => ⟨invalidationComplete_some h, fun seq => State.invEnded_control,
      fun w => State.invEnded_window⟩⟩,
    fun s port => ⟨inboundRequest_none, fun i pk h =>
      ⟨inboundRequest_refused h, inboundRequest_unmet h, fun m hw hm => ?_⟩⟩,
    fun s via w hserves => ⟨⟨closes_inbound hserves rfl rfl, closes_inbound hserves rfl rfl⟩,
      answers_of_objWrite hserves rfl rfl⟩,
    fun s fn offset len data => ⟨apertureAccess_unreached, apertureAccess_atomic, apertureAccess_early,
      fun h ha hr hd hdata => ?_, fun h ha hr hd hdata => ?_, fun h ha hr hd => ?_⟩⟩
  · exact (invalidateDrain_open h v).trans (congrArg _ (State.putInvCtrl_waits hnow false v))
  · exact (invalidateAbort_open h v).trans (congrArg _ (State.putInvCtrl_waits hnow true v))
  · rw [invalidateDrain_open h, State.putInvCtrl_now hnow, State.issueInv_dropped hout]
  · rw [invalidateAbort_open h, State.putInvCtrl_now hnow, State.issueInv_dropped hout]
  · exact ⟨fun d u => inboundRequest_met h hw hm rfl rfl, fun r u => inboundRequest_met h hw hm rfl rfl,
      fun u => inboundRequest_met h hw hm rfl rfl, fun u => inboundRequest_met h hw hm rfl rfl⟩
  · subst hdata
    exact apertureAccess_disabled h ha hr hd
  · refine ⟨_, apertureAccess_disabled h ha hr hd, ?_⟩
    obtain ⟨d, rfl⟩ := Option.ne_none_iff_exists'.mp hdata
    exact ⟨congrArg Fn.errAperture (State.fn_setFn_self ..), fun k hk => (State.fn_setFn ..).trans (if_neg hk), rfl⟩
  · have ⟨_, _, _, hup⟩ := h
    obtain ⟨hport, hown⟩ := State.entryPort_up hup
    exact ⟨hport, hown, fun r u => apertureAccess_translated h ha hr hd, fun u => apertureAccess_translated h ha hr hd,
      fun d u hx => ⟨_, apertureAccess_translated h ha hr hd hx, rfl⟩⟩

end

namespace Sys2Proof.Machine
open Sys2Proof.Claims

section
variable {s : State}

/-! ### The table registers (R15, R388, R433) -/

/-- A table register keeps the address and EN of what is written to it. -/
theorem tableReg_eq (v : BitVec 64) : tableReg v = v &&& 0x0000FFFFFFFF0001 := by
  have hmask (i : Nat) : (0x0000FFFFFFFF0001 : BitVec 64).getLsbD i = (2 ^ 16 * (2 ^ 32 - 1) + (2 ^ 1 - 1)).testBit i := rfl
  have hreg : fieldN v.toNat 16 32 * 65536 + v.toNat % 2 = 2 ^ 16 * (v.toNat / 2 ^ 16 % 2 ^ 32) + v.toNat % 2 ^ 1 := by
    unfold fieldN
    omega
  refine BitVec.eq_of_getLsbD_eq fun i hi => ?_
  unfold tableReg
  rw [BitVec.getLsbD_and, BitVec.getLsbD_ofNat, hmask, hreg, Nat.testBit_two_pow_mul_add _ (by omega),
    Nat.testBit_two_pow_mul_add _ (by decide), Nat.testBit_mod_two_pow, Nat.testBit_mod_two_pow, Nat.testBit_two_pow_sub_one,
    Nat.testBit_two_pow_sub_one, BitVec.getLsbD, decide_eq_true hi, Bool.true_and]
  split
  · exact Bool.and_comm ..
  · rw [Nat.testBit_div_two_pow, Nat.sub_add_cancel (by omega), Bool.and_comm]

theorem tableFits_eq (v : BitVec 64) (n : Nat) :
    tableFits v n = decide ((v.extractLsb' 16 32).toNat * 65536 + n ≤ hbmLimit) := by
  unfold tableFits
  rw [fieldN_toNat]

/-- A write of a table's address answers RANGE where the table does not fit, REFUSED while a bight is not free, and else is made. -/
theorem putContextTable_eq (v : BitVec 64) : putContextTable v s =
    if hbmLimit < (v.extractLsb' 16 32).toNat * 65536 + 65536 then (0x05, s)
    else if s.allFree = false then (0x06, s)
    else
      let t := { s with xlat := { s.xlat with contextTable := v &&& 0x0000FFFFFFFF0001 } }
      (0x00, if t.ctxBase = s.ctxBase then t else t.pinCaches) := by
  unfold putContextTable
  simp only [tableFits_eq, tableReg_eq, Bool.not_eq_true', decide_eq_false_iff_not, Nat.not_le]
  rfl

theorem putObjectTable_eq (v : BitVec 64) : putObjectTable v s =
    if hbmLimit < (v.extractLsb' 16 32).toNat * 65536 + 0x1000000 then (0x05, s)
    else if s.allFree = false then (0x06, s)
    else (0x00, { s with xlat := { s.xlat with objectTable := v &&& 0x0000FFFFFFFF0001 } }) := by
  unfold putObjectTable
  simp only [tableFits_eq, tableReg_eq, Bool.not_eq_true', decide_eq_false_iff_not, Nat.not_le]
  rfl

/-- A write of a table's address by what it answers: RANGE, REFUSED or the state it makes (R388, R433). -/
theorem answers_of_tableWrite {via : Via} (hserves : Serves s via false true) {c : Instr} {act : Act}
    (hc : exec c s = .next (s.objWrite via false true act)) {last : Nat} {t : State} (hact : act s =
      if hbmLimit < last then (0x05, s) else if s.allFree = false then (0x06, s) else (0x00, t)) :
    (hbmLimit < last → Answers c s via 0x05 s) ∧ (last ≤ hbmLimit → s.allFree = false → Answers c s via 0x06 s) ∧
      (last ≤ hbmLimit → s.allFree = true → Answers c s via 0x00 t) := by
  refine ⟨fun hr => ?_, fun hr hf => ?_, fun hr hf => ?_⟩ <;> refine answers_of_objWrite hserves hc (hact.trans ?_)
  · exact if_pos hr
  · exact (if_neg (Nat.not_lt.mpr hr)).trans (if_pos hf)
  · exact (if_neg (Nat.not_lt.mpr hr)).trans (if_neg (by simp [hf]))

/-! ### What a write to a fault ring leaves (R365 to R370) -/

/-- `t` differs from `s` in the registers of functions and in what has been sent only. -/
def State.ToHost (s t : State) : Prop := ∃ fns sent, t = { s with host := { s.host with fns }, sent }

theorem State.ToHost.trans {s t u : State} (h : s.ToHost t) (h' : t.ToHost u) : s.ToHost u := by
  obtain ⟨_, _, rfl⟩ := h
  obtain ⟨fns, sent, rfl⟩ := h'
  exact ⟨fns, sent, rfl⟩

theorem State.ToHost.xlat {s t : State} (h : s.ToHost t) : t.xlat = s.xlat := by
  obtain ⟨_, _, rfl⟩ := h
  rfl

theorem State.ToHost.mem {s t : State} (h : s.ToHost t) : t.mem = s.mem := by
  obtain ⟨_, _, rfl⟩ := h
  rfl

variable (s)

theorem State.ToHost.refl : s.ToHost s := ⟨_, _, rfl⟩

theorem State.toHost_foldl {α : Type} {f : State → α → State} (hf : ∀ (s : State) a, s.ToHost (f s a)) (l : List α) :
    s.ToHost (l.foldl f s) := by
  induction l generalizing s with
  | nil => exact .refl s
  | cons a l ih => exact (hf s a).trans (ih _)

theorem State.toHost_setFn (n : Nat) (x : Fn) : s.ToHost (s.setFn n x) := ⟨_, _, rfl⟩

theorem State.toHost_cause (n bit : Nat) : s.ToHost (s.cause n bit) := ⟨_, _, s.cause_frame n bit⟩

theorem State.toHost_hostWrite (n addr : Nat) (d : Bytes) : s.ToHost (s.hostWrite n addr d) := by
  unfold State.hostWrite State.hostWriteVia
  split
  · exact s.toHost_foldl (fun _ _ => ⟨_, _, rfl⟩) _
  · exact .refl s

theorem State.fn_hostWrite (n addr : Nat) (d : Bytes) (k : Nat) : (s.hostWrite n addr d).fn k = s.fn k := by
  unfold State.hostWrite State.hostWriteVia
  split
  · exact view_foldl (State.fn · k) (fun _ _ => by rfl) _ s
  · rfl

/-- An interrupt changes at most the pending bits of its function (R395). -/
theorem State.fn_irq_self (n v : Nat) : ∃ p, (s.irq n v).fn n = { s.fn n with pba := p } := by
  unfold State.irq
  dsimp only
  split_ifs
  · exact ⟨_, State.fn_setFn_self ..⟩
  · exact ⟨_, rfl⟩
  · exact ⟨_, rfl⟩

theorem State.fn_cause_self (n bit : Nat) : ∃ p, (s.cause n bit).fn n =
    { s.fn n with irqCause := (s.fn n).irqCause ||| (1 <<< bit), pba := p } := by
  obtain ⟨p, hp⟩ := (s.modFn n fun f => { f with irqCause := f.irqCause ||| (1 <<< bit) }).fn_irq_self n (if bit = 1 then 1 else 0)
  refine ⟨p, hp.trans ?_⟩
  rw [State.modFn, State.fn_setFn_self]

/-- A batch that closes: its function is told, and the ring's place stays (R369). -/
theorem State.closeBatch_open {n : Nat} {e : Nat × Nat} (h : (s.fn n).batch = some e) : ∃ u : State, s.ToHost u ∧
    u.fn n = { s.fn n with batch := none } ∧ s.closeBatch n = u.cause n 1 := by
  unfold State.closeBatch
  dsimp only
  rw [h]
  dsimp only
  split
  · exact ⟨_, s.toHost_setFn .., State.fn_setFn_self .., rfl⟩
  · refine ⟨_, (s.toHost_setFn ..).trans (State.toHost_hostWrite ..), ?_, rfl⟩
    rw [State.fn_hostWrite, State.fn_setFn_self]

theorem State.closeBatch_none {n : Nat} (h : (s.fn n).batch = none) : s.closeBatch n = s := by
  unfold State.closeBatch
  dsimp only
  rw [h]

theorem State.toHost_closeBatch (n : Nat) : s.ToHost (s.closeBatch n) := by
  cases h : (s.fn n).batch with
  | none => exact (s.closeBatch_none h).symm ▸ .refl s
  | some e =>
    obtain ⟨u, hu, -, hclose⟩ := s.closeBatch_open h
    exact hclose ▸ hu.trans (u.toHost_cause n 1)

theorem State.ringProd_closeBatch (n : Nat) : ((s.closeBatch n).fn n).ringProd = (s.fn n).ringProd := by
  cases h : (s.fn n).batch with
  | none => rw [s.closeBatch_none h]
  | some e =>
    obtain ⟨u, -, hfn, hclose⟩ := s.closeBatch_open h
    obtain ⟨p, hp⟩ := u.fn_cause_self n 1
    rw [hclose, hp, hfn]

theorem State.toHost_ringWrite (n : Nat) (entry : Bytes) : s.ToHost (s.ringWrite n entry) := by
  unfold State.ringWrite
  extract_lets f size base u count at0 f' v
  have hv : s.ToHost v := (s.toHost_hostWrite ..).trans (u.toHost_setFn n f')
  split
  · exact hv.trans (v.toHost_closeBatch n)
  · exact hv

/-- An entry takes one place of the ring (R368). -/
theorem State.ringProd_ringWrite (n : Nat) (entry : Bytes) : ((s.ringWrite n entry).fn n).ringProd = (s.fn n).ringProd + 1 := by
  unfold State.ringWrite
  extract_lets f size base u count at0 f' v
  have hv : (v.fn n).ringProd = (s.fn n).ringProd + 1 := congrArg Fn.ringProd (u.fn_setFn_self n f')
  split
  · exact (v.ringProd_closeBatch n).trans hv
  · exact hv

/-- Space in the ring changes at most whether an overflow of its function counts anew (R370). -/
theorem State.ringRoom_cases (n : Nat) : s.ringRoom n = s ∨ s.ringRoom n = s.setFn n { s.fn n with ringOverflowed := false } :=
  (ite_eq_or_eq ..).symm

theorem State.fn_ringRoom_self (n : Nat) : ∃ b, (s.ringRoom n).fn n = { s.fn n with ringOverflowed := b } := by
  rcases s.ringRoom_cases n with h | h <;> rw [h]
  · exact ⟨_, rfl⟩
  · exact ⟨_, State.fn_setFn_self ..⟩

theorem State.fn_ringRoom_other {n k : Nat} (hk : k ≠ n) : (s.ringRoom n).fn k = s.fn k := by
  rcases s.ringRoom_cases n with h | h <;> rw [h]
  rw [State.fn_setFn, if_neg hk]

theorem State.ringRoom_frame (n : Nat) : s.ringRoom n = { s with host := { s.host with fns := (s.ringRoom n).host.fns } } := by
  rcases s.ringRoom_cases n with h | h <;> rw [h]
  rfl

end

/-! ### BATCH_CLOSE, HELD_FAULT_WRITE and FAULT_RING_ENABLE (R367 to R370) -/

section
variable {s : State} {fn : Nat}

/-- The batch of a function has been open for 50 µs (R369). -/
abbrev State.BatchDue (s : State) (fn : Nat) : Prop := ∃ n a, (s.fn fn).batch = some (n, a) ∧ a + 50000 ≤ s.now

theorem batchClose_kept (h : ¬ s.BatchDue fn) : exec (.batchClose fn) s = .next s := by
  show execBatchClose fn s = _
  unfold execBatchClose
  split
  · next n a hb => rw [if_neg fun ha => h ⟨n, a, hb, ha⟩]
  · rfl

theorem batchClose_due (h : s.BatchDue fn) : exec (.batchClose fn) s = .next (s.closeBatch fn) := by
  obtain ⟨n, a, hb, ha⟩ := h
  show execBatchClose fn s = _
  unfold execBatchClose
  rw [hb]
  exact congrArg _ (if_pos ha)

theorem gives_batchClose (h : s.BatchDue fn) : Gives (.batchClose fn) s fun t => (t.fn fn).batch = none ∧
    (t.fn fn).irqCause.getLsbD 1 = true ∧ (t.fn fn).ringProd = (s.fn fn).ringProd ∧ t.xlat = s.xlat ∧ t.mem = s.mem := by
  have hclosed := batchClose_due h
  obtain ⟨n, a, hb, -⟩ := h
  obtain ⟨u, -, hfn, hclose⟩ := s.closeBatch_open hb
  obtain ⟨p, hp⟩ := u.fn_cause_self fn 1
  have htoHost := s.toHost_closeBatch fn
  refine ⟨_, hclosed, ?_, ?_, s.ringProd_closeBatch fn, htoHost.xlat, htoHost.mem⟩
  · rw [hclose, hp, hfn]
  · rw [hclose]
    exact u.irqCause_cause_one fn

theorem heldFaultWrite_kept (h : s.heldFaults fn = [] ∨ (s.fn fn).ringFree = 0) : exec (.heldFaultWrite fn) s = .next s := by
  show execHeldFaultWrite fn s = _
  unfold execHeldFaultWrite
  split
  · rfl
  · next hheld =>
    rw [if_pos (h.resolve_left (by simp [hheld]))]

/-- A held fault takes a tag, before its entry is written (R366, R370). -/
def State.tagHeld (s : State) (fn : Nat) (f : PendFault) : State :=
  { (s.takeTag fn).2 with xlat := { s.xlat with
    faults := s.xlat.faults.map fun g => if g = f then { g with tag := some (s.takeTag fn).1 } else g
    entriesWritten := s.xlat.entriesWritten + 1 } }

theorem heldFaultWrite_written {f : PendFault} {l : List PendFault} (h : s.heldFaults fn = f :: l) (hfree : (s.fn fn).ringFree ≠ 0) :
    exec (.heldFaultWrite fn) s = .next (((s.tagHeld fn f).ringWrite fn
      ((s.tagHeld fn f).faultEntry f (s.takeTag fn).1 true)).ringRoom fn) := by
  show execHeldFaultWrite fn s = _
  unfold execHeldFaultWrite
  rw [h]
  exact congrArg _ (if_neg hfree)

theorem gives_heldFaultWrite {f : PendFault} {l : List PendFault} (h : s.heldFaults fn = f :: l) (hfree : (s.fn fn).ringFree ≠ 0) :
    Gives (.heldFaultWrite fn) s fun t =>
      t.xlat.faults = s.xlat.faults.map (fun g => if g = f then { g with tag := some (s.takeTag fn).1 } else g) ∧
      (t.fn fn).ringProd = (s.fn fn).ringProd + 1 ∧ t.xlat.entriesWritten = s.xlat.entriesWritten + 1 ∧ t.mem = s.mem := by
  have htoHost := ((s.tagHeld fn f).toHost_ringWrite fn ((s.tagHeld fn f).faultEntry f (s.takeTag fn).1 true)).trans
    ⟨_, _, State.ringRoom_frame _ fn⟩
  refine ⟨_, heldFaultWrite_written h hfree, ?_, ?_, ?_, htoHost.mem⟩
  · rw [htoHost.xlat]
    rfl
  · obtain ⟨b, hb⟩ := ((s.tagHeld fn f).ringWrite fn ((s.tagHeld fn f).faultEntry f (s.takeTag fn).1 true)).fn_ringRoom_self fn
    rw [hb]
    exact (State.ringProd_ringWrite ..).trans (congrArg (·.ringProd + 1) (State.fn_setFn_self ..))
  · rw [htoHost.xlat]
    rfl

theorem faultRingEnable_closed (h : s.regsOpen fn = false) (v : Word) : exec (.faultRingEnable fn v) s = .next s :=
  congrArg Host.Outcome.next (if_neg (by simp [h]))

theorem faultRingEnable_open (h : s.regsOpen fn = true) (v : Word) :
    exec (.faultRingEnable fn v) s = .next (s.putRingBase fn (v ||| 0x10)) := congrArg Host.Outcome.next (if_pos h)

/-- EN is set with the other bits that the register has, whatever the value's (R367). -/
theorem ringBase_enabled (v : Word) : (v ||| 0x10) &&& ~~~0xFE0 = (v &&& ~~~0xFE0) ||| 0x10 :=
  BitVec.and_or_distrib_right.trans (congrArg _ (by decide))

/-- A ring with EN set: where EN rises its producer count goes to 0 (R368). -/
def State.ringEnabled (s : State) (fn : Nat) (v : Word) : State := s.setFn fn { s.fn fn with
  ringBase := (v &&& ~~~0xFE0) ||| 0x10
  ringProd := if (s.fn fn).ringBase.getLsbD 4 then (s.fn fn).ringProd else 0 }

theorem State.putRingBase_enabled (v : Word) : s.putRingBase fn (v ||| 0x10) = (s.ringEnabled fn v).ringRoom fn := by
  have hen : (v ||| 0x10).getLsbD 4 = true := by simp
  unfold State.putRingBase State.ringEnabled State.modFn
  dsimp only
  rw [ringBase_enabled, hen]
  cases (s.fn fn).ringBase.getLsbD 4 <;> rfl

theorem gives_faultRingEnable (h : s.regsOpen fn = true) (v : Word) : Gives (.faultRingEnable fn v) s fun t =>
    (t.fn fn).ringBase = (v &&& ~~~0xFE0) ||| 0x10 ∧
    (t.fn fn).ringProd = (if (s.fn fn).ringBase.getLsbD 4 then (s.fn fn).ringProd else 0) ∧
    (∀ k, k ≠ fn → t.fn k = s.fn k) ∧ t = { s with host := { s.host with fns := t.host.fns } } := by
  obtain ⟨b, hb⟩ := (s.ringEnabled fn v).fn_ringRoom_self fn
  rw [State.ringEnabled, State.fn_setFn_self] at hb
  refine ⟨_, faultRingEnable_open h v, ?_, ?_, fun k hk => ?_, ?_⟩ <;> rw [State.putRingBase_enabled]
  · exact congrArg Fn.ringBase hb
  · exact congrArg Fn.ringProd hb
  · exact (State.fn_ringRoom_other _ hk).trans ((State.fn_setFn ..).trans (if_neg hk))
  · exact State.ringRoom_frame ..

/-! ### FAULT_RETRY and FAULT_FAIL (R371 to R373) -/

section
variable {tag : BitVec 32}

theorem faultResolve_closed (h : s.regsOpen fn = false) (tag : BitVec 32) :
    exec (.faultRetry fn tag) s = .next s ∧ exec (.faultFail fn tag) s = .next s := by
  have hneg : ¬ s.regsOpen fn = true := by simp [h]
  exact ⟨congrArg Host.Outcome.next (if_neg hneg), congrArg Host.Outcome.next (if_neg hneg)⟩

theorem faultResolve_open (h : s.regsOpen fn = true) {t : Bool → State} (ht : ∀ fail, s.takeResolve fn tag fail = t fail) :
    exec (.faultRetry fn tag) s = .next (t false) ∧ exec (.faultFail fn tag) s = .next (t true) :=
  ⟨congrArg Host.Outcome.next ((if_pos h).trans (ht false)), congrArg Host.Outcome.next ((if_pos h).trans (ht true))⟩

theorem State.takeResolve_stale (h : s.taggedFault fn tag = none) (fail : Bool) : s.takeResolve fn tag fail = s.staleResolve :=
  if_neg (by simp [h])

/-- A resolution goes on at once: no register write and no write through BAR2 of its function is ahead of it (R372). -/
abbrev State.ResolveNow (s : State) (fn : Nat) : Prop := s.host.regWaiting = [] ∧ s.barWrites (· == fn) = false

variable {f : PendFault} (h : s.taggedFault fn tag = some f)
include h

theorem State.takeResolve_taken (fail : Bool) : s.takeResolve fn tag fail = s.takeReg (.resolve fn tag fail) :=
  if_pos (by simp [h])

theorem State.takeResolve_now (hnow : s.ResolveNow fn) (fail : Bool) :
    s.takeResolve fn tag fail = if fail then s.failFault f else s.retryFault f := by
  rw [State.takeResolve_taken h]
  unfold State.takeReg
  rw [if_pos (by simpa [State.regHeld] using hnow)]
  unfold State.doReg State.resolve
  dsimp only
  rw [h]

theorem State.takeResolve_waits (hnow : ¬ s.ResolveNow fn) (fail : Bool) : s.takeResolve fn tag fail =
    { s with host := { s.host with regWaiting := s.host.regWaiting ++ [.resolve fn tag fail] } } := by
  rw [State.takeResolve_taken h]
  exact if_neg (by simpa [State.regHeld] using hnow)

end

theorem State.xlat_modCmd (s : State) (q n : Nat) (f : Cmd → Cmd) : (s.modCmd q n f).xlat = s.xlat := by
  unfold State.modCmd State.modQueue
  split <;> rfl

theorem State.xlat_retryFault (s : State) (f : PendFault) : (s.retryFault f).xlat = (s.dropFault f).xlat := by
  unfold State.retryFault
  dsimp only
  split
  · exact view_foldl State.xlat (fun _ _ => State.xlat_modCmd ..) _ _
  · rfl
  · rfl

/-- A fault that is retried is not pending any more (R371). -/
theorem State.not_mem_retryFault (s : State) (f : PendFault) : f ∉ (s.retryFault f).xlat.faults := by
  rw [State.xlat_retryFault]
  simp [State.dropFault]

/-- A core whose fault is retried does not stall at a fault (R86, R371). -/
theorem State.stall_retryFault {f : PendFault} {k : Nat} (h : f.requester = .core k) :
    ((s.retryFault f).core k).stall.map (·.1) ≠ some .fault := by
  unfold State.retryFault State.unfault State.modCore
  rw [h]
  dsimp only
  rw [State.core_setCore_self]
  split
  · simp
  · next hstall =>
    intro hfault
    obtain ⟨⟨x, t⟩, hx, rfl⟩ := Option.map_eq_some_iff.mp hfault
    exact hstall t hx

/-! ### ACCESS_NOTIFICATION (R381, R382) -/

/-- The counters of a die (R381). -/
abbrev State.counters (s : State) (die : Nat) : List Counter := Tab.look [] s.xlat.counters die

theorem getElem?_modifyAt_self {α : Type} (f : α → α) (l : List α) (i : Nat) : (modifyAt f l i)[i]? = l[i]?.map f := by
  induction l generalizing i with
  | nil => rfl
  | cons a l ih =>
    cases i with
    | zero => rfl
    | succ i => exact ih i

theorem State.counters_notify (s : State) (fn die asid region : Nat) :
    (s.notify fn die asid region).xlat.counters = s.xlat.counters := by
  unfold State.notify
  dsimp only
  split
  · rfl
  · rw [(State.toHost_ringWrite _ _ _).xlat]

/-- A counter at the threshold is set to zero, before it is notified (R382). -/
def State.zeroCounter (s : State) (die k : Nat) : State :=
  { s with xlat := { s.xlat with
      counters := Tab.put [] s.xlat.counters die (modifyAt (fun c => { c with count := 0 }) (s.counters die) k) } }

variable {die k : Nat}

theorem accessNotification_below (h : ∀ c, (s.counters die)[k]? = some c → c.count < s.xlat.threshold) :
    exec (.accessNotification die k) s = .next s := by
  show execAccessNotification die k s = _
  unfold execAccessNotification
  dsimp only
  split
  · next c hc => rw [if_pos (h c hc)]
  · rfl

variable {c : Counter} (h : (s.counters die)[k]? = some c) (hc : s.xlat.threshold ≤ c.count)
include h hc

theorem accessNotification_reached : exec (.accessNotification die k) s =
    .next ((s.zeroCounter die k).notify (((s.zeroCounter die k).contextFn c.asid).getD 0) die c.asid c.region) := by
  show execAccessNotification die k s = _
  unfold execAccessNotification
  dsimp only
  rw [h]
  exact congrArg _ (if_neg (Nat.not_lt.mpr hc))

theorem gives_accessNotification : Gives (.accessNotification die k) s fun t =>
    (t.counters die)[k]? = some { c with count := 0 } ∧ ∀ d, d ≠ die → t.counters d = s.counters d := by
  refine ⟨_, accessNotification_reached h hc, ?_, fun d hd => ?_⟩
  · rw [State.counters, State.counters_notify]
    exact (congrArg (·[k]?) (Tab.look_put_same ..)).trans ((getElem?_modifyAt_self ..).trans (congrArg (Option.map _) h))
  · rw [State.counters, State.counters_notify]
    exact Tab.look_put_other _ _ hd _

end
end Sys2Proof.Machine

section
open Sys2Proof Sys2Proof.Machine Sys2Proof.Claims

/-- Settles O47: each command by whether its condition holds; a write to a ring goes to the host and leaves translation and memory
alone. -/
theorem tablesAndFaultRings : Obligations.TablesAndFaultRings := by
  refine ⟨fun s via v hserves => ?_,
    fun s fn => ⟨batchClose_kept, gives_batchClose⟩,
    fun s fn => ⟨heldFaultWrite_kept, fun f l => gives_heldFaultWrite⟩,
    fun s fn v => ⟨fun h => faultRingEnable_closed h v, fun h => gives_faultRingEnable h v⟩,
    fun s fn tag => ⟨fun h => faultResolve_closed h tag, fun h htag => faultResolve_open h (State.takeResolve_stale htag),
      fun f h htag => ⟨fun hnow => faultResolve_open h (State.takeResolve_now htag hnow),
        fun hnow => faultResolve_open h (State.takeResolve_waits htag hnow), s.not_mem_retryFault f,
        fun k => State.stall_retryFault⟩⟩,
    fun s die k => ⟨accessNotification_below, fun c => gives_accessNotification⟩⟩
  obtain ⟨hcRange, hcRefused, hcKept⟩ := answers_of_tableWrite hserves (c := .contextTableWrite via v) rfl (putContextTable_eq v)
  exact ⟨hcRange, hcRefused, hcKept, answers_of_tableWrite hserves (c := .objectTableWrite via v) rfl (putObjectTable_eq v)⟩

end

namespace Sys2Proof.Machine
open Sys2Proof.Claims

section
variable {s : State} {n : Nat} {write : Bool}

/-! ### READ_REQ and WRITE (R480, R490, R491, R521) -/

/-- A finished request of another module that a port answers with READ_DATA or WRITE_DONE (R491). -/
def Req.answeredBy (n : Nat) (write : Bool) (r : Req) : Bool :=
  r.write == write && r.result != .pending && !r.reduce &&
    (match r.owner with | .inbound p _ _ _ _ => p == n || p == 48 | _ => false)

/-- The bytes that a result brings. -/
def ReqResult.bytes : ReqResult → Bytes
  | .data d => d
  | _ => []

theorem State.answerInbound_none (h : s.reqs.find? (Req.answeredBy n write) = none) : s.answerInbound n write = s := by
  unfold State.answerInbound
  extract_lets mine
  rw [show s.reqs.find? mine = none from h]

theorem State.answerInbound_some {r : Req} {p tag source w offset : Nat} (h : s.reqs.find? (Req.answeredBy n write) = some r)
    (ho : r.owner = .inbound p tag source w offset) : s.answerInbound n write =
      ((if write = true ∧ r.result.status.1 = 0 then s.noteStored r else s).dropReq r.id).respond p tag source w offset write
        r.result.status.1 r.result.status.2 r.result.bytes r.pay := by
  unfold State.answerInbound
  extract_lets mine
  rw [show s.reqs.find? mine = some r from h]
  dsimp only
  rw [ho]
  simp only [Bool.and_eq_true, beq_iff_eq]
  rfl

/-- Either command that answers a request of another module (R480, R490). -/
theorem answers_request {c : Instr} (hc : exec c s = .next (s.answerInbound n write)) :
    (s.reqs.find? (Req.answeredBy n write) = none → exec c s = .next s) ∧
      ∀ r p tag source w offset, s.reqs.find? (Req.answeredBy n write) = some r → r.owner = .inbound p tag source w offset →
        exec c s = .next (((if write = true ∧ r.result.status.1 = 0 then s.noteStored r else s).dropReq r.id).respond p tag
          source w offset write r.result.status.1 r.result.status.2 r.result.bytes r.pay) :=
  ⟨fun h => hc.trans (congrArg _ (State.answerInbound_none h)),
    fun _ _ _ _ _ _ h ho => hc.trans (congrArg _ (State.answerInbound_some h ho))⟩

/-! ### READ_DATA and WRITE_DONE (R490 to R492) -/

theorem State.frame_sendIdle (s : State) (n : Nat) : (s.sendIdle n).frame = s.frame := by
  unfold State.sendIdle
  dsimp only
  split <;> rfl

theorem State.frame_takePacket (s : State) (n v i : Nat) : (s.takePacket n v i).frame = s.frame := by
  unfold State.takePacket
  split
  · rfl
  · dsimp only
    split
    · rfl
    · exact State.frame_sendIdle ..

theorem State.now_takePacket (s : State) (n v i : Nat) : (s.takePacket n v i).now = s.now :=
  (Keeps.takePacket (Keeps.refl s)).now

/-- A request that waits for the response with a tag at a port (R491). -/
def Req.awaits (n : Nat) (write : Bool) (tag : Nat) (r : Req) : Bool :=
  r.write == write && r.result == .pending && r.stage == .there && !r.resend &&
    (match r.target with | .remote _ _ p t => p == n && t == tag | _ => false)

/-- What a response does to its request, by its status (R491). -/
def State.takeStatus (s : State) (r : Req) (write : Bool) (pk : Packet) : State :=
  match pk.hdr.status with
  | 0 => s.arriveReq r.id (if write then .stored else .data (slice pk.payload 0 r.len))
  | 2 => s.arriveReq r.id (.busError pk.hdr.sub)
  | 3 => s.notReadyYet r
  | _ => s.arriveReq r.id .refused

theorem State.takeResponse_none (h : s.headOf n 1 (if write then 4 else 3) = none) : s.takeResponse n write = s := by
  unfold State.takeResponse
  rw [h]

section
variable {pk : Packet} (h : s.headOf n 1 (if write then 4 else 3) = some pk)
include h

theorem State.takeResponse_unasked (hr : (s.takePacket n 1 0).reqs.find? (Req.awaits n write pk.hdr.tag) = none) :
    s.takeResponse n write = s.takePacket n 1 0 := by
  unfold State.takeResponse
  rw [h]
  dsimp only
  generalize hq : List.find? _ (s.takePacket n 1 0).reqs = q
  obtain rfl : q = none := hq.symm.trans hr
  rfl

theorem State.takeResponse_asked {r : Req} (hr : (s.takePacket n 1 0).reqs.find? (Req.awaits n write pk.hdr.tag) = some r) :
    s.takeResponse n write = (s.takePacket n 1 0).takeStatus r write pk := by
  unfold State.takeResponse
  rw [h]
  dsimp only
  generalize hq : List.find? _ (s.takePacket n 1 0).reqs = q
  obtain rfl : q = some r := hq.symm.trans hr
  rfl

end

section
variable {pk : Packet} {r : Req}

theorem State.takeStatus_ok (h : pk.hdr.status = 0) :
    s.takeStatus r write pk = s.arriveReq r.id (if write then .stored else .data (slice pk.payload 0 r.len)) := by
  simp only [State.takeStatus, h]

theorem State.takeStatus_busError (h : pk.hdr.status = 2) : s.takeStatus r write pk = s.arriveReq r.id (.busError pk.hdr.sub) := by
  simp only [State.takeStatus, h]

theorem State.takeStatus_notReady (h : pk.hdr.status = 3) : s.takeStatus r write pk = s.notReadyYet r := by
  simp only [State.takeStatus, h]

/-- A reserved status counts as REFUSED (log 100). -/
theorem State.takeStatus_refused (h : pk.hdr.status = 1 ∨ 3 < pk.hdr.status) :
    s.takeStatus r write pk = s.arriveReq r.id .refused := by
  unfold State.takeStatus
  split
  · omega
  · omega
  · omega
  · rfl

theorem State.notReadyYet_refused (h : 2 * s.frame.period ≤ s.now - r.notReady.getD s.now) :
    s.notReadyYet r = s.arriveReq r.id .refused := if_pos h

theorem State.notReadyYet_waits (h : s.now - r.notReady.getD s.now < 2 * s.frame.period) (ho : r.owner ≠ .none) :
    s.notReadyYet r = s.modReq r.id fun x => { x with notReady := some (r.notReady.getD s.now), resend := true } :=
  (if_neg (Nat.not_le.mpr h)).trans (if_neg ho)

end

/-- Either command that takes a response (R490 to R492). -/
theorem takes_response {c : Instr} (hc : exec c s = .next (s.takeResponse n write)) :
    let u := s.takePacket n 1 0
    (s.headOf n 1 (if write then 4 else 3) = none → exec c s = .next s) ∧
    ∀ pk, s.headOf n 1 (if write then 4 else 3) = some pk →
      (u.reqs.find? (Req.awaits n write pk.hdr.tag) = none → exec c s = .next u) ∧
      ∀ r, u.reqs.find? (Req.awaits n write pk.hdr.tag) = some r →
        (pk.hdr.status = 0 → exec c s =
          .next (u.arriveReq r.id (if write then .stored else .data (slice pk.payload 0 r.len)))) ∧
        (pk.hdr.status = 2 → exec c s = .next (u.arriveReq r.id (.busError pk.hdr.sub))) ∧
        (pk.hdr.status = 3 → r.owner ≠ .none → s.now - r.notReady.getD s.now < 2 * s.frame.period → Gives c s fun t =>
          t = u.modReq r.id fun x => { x with notReady := some (r.notReady.getD s.now), resend := true }) ∧
        (pk.hdr.status = 3 → 2 * s.frame.period ≤ s.now - r.notReady.getD s.now → exec c s = .next (u.arriveReq r.id .refused)) ∧
        (pk.hdr.status = 1 ∨ 3 < pk.hdr.status → exec c s = .next (u.arriveReq r.id .refused)) := by
  intro u
  refine ⟨fun h => hc.trans (congrArg _ (State.takeResponse_none h)), fun pk h =>
    ⟨fun hr => hc.trans (congrArg _ (State.takeResponse_unasked h hr)), fun r hr => ?_⟩⟩
  have htaken : exec c s = .next (u.takeStatus r write pk) := hc.trans (congrArg _ (State.takeResponse_asked h hr))
  have hnow : u.now = s.now := s.now_takePacket n 1 0
  have hframe : u.frame = s.frame := s.frame_takePacket n 1 0
  rw [htaken, ← hnow, ← hframe]
  refine ⟨fun hst => congrArg _ (State.takeStatus_ok hst), fun hst => congrArg _ (State.takeStatus_busError hst),
    fun hst ho hlt => ⟨_, htaken, ?_⟩, fun hst hle => congrArg _ ?_, fun hst => congrArg _ (State.takeStatus_refused hst)⟩
  · exact (State.takeStatus_notReady hst).trans (State.notReadyYet_waits hlt ho)
  · exact (State.takeStatus_notReady hst).trans (State.notReadyYet_refused hle)

/-! ### NOT_READY_RESEND (R489, R492) -/

/-- A request waits to be sent again to another module (R492). -/
abbrev State.WaitsResend (s : State) (id : Nat) : Prop :=
  ∃ r w o p t, s.req? id = some r ∧ r.resend = true ∧ r.target = .remote w o p t

theorem notReadyResend_kept {id : Nat} (h : ¬ s.WaitsResend id) : exec (.notReadyResend id) s = .next s := by
  show execNotReadyResend id s = _
  unfold execNotReadyResend
  split
  · next r hr =>
    split
    · next w o p t hresend htarget => exact absurd ⟨r, w, o, p, t, hr, hresend, htarget⟩ h
    · rfl
  · rfl

/-- A resend is counted, and its request waits for one no more (R492). -/
def State.countResend (s : State) (id : Nat) : State :=
  ({ s with fabric := { s.fabric with resends := s.fabric.resends + 1 } }).modReq id fun x => { x with resend := false }

/-- What the fault of a request that no port can send makes of it (R489, log 196). -/
def afterFault (id : Nat) : Option ReqResult × State → State
  | (some res, s) => s.arriveReq id res
  | (none, s) => s

/-- Where a request that is sent again goes: to a port, or to the fault that none is usable (R489). -/
def State.resent (s : State) (r : Req) (id w o : Nat) : State :=
  match s.portOfReq r w o with
  | some p => s.sendRemote r w o p
  | none => afterFault id (s.faultRemote r o)

theorem notReadyResend_resent {id w o p t : Nat} {r : Req} (hr : s.req? id = some r) (hresend : r.resend = true)
    (htarget : r.target = .remote w o p t) : exec (.notReadyResend id) s = .next ((s.countResend id).resent r id w o) := by
  show execNotReadyResend id s = _
  unfold execNotReadyResend
  rw [hr]
  dsimp only
  rw [hresend, htarget]
  rfl

theorem State.resent_port {r : Req} {id w o x : Nat} (h : s.portOfReq r w o = some x) :
    s.resent r id w o = s.sendRemote r w o x := by
  unfold State.resent
  rw [h]

theorem State.resent_fault {r : Req} {id w o : Nat} (h : s.portOfReq r w o = none) :
    s.resent r id w o = afterFault id (s.faultRemote r o) := by
  unfold State.resent
  rw [h]

/-! ### REDUCE (R386, R491, R504 to R506) -/

/-- A REDUCE packet is answered and leaves its buffer (R491). -/
def State.answerReduce (u : State) (n i : Nat) (h : Header) (st : Nat) : State :=
  (u.takePacket n 2 i).respond n h.tag h.src h.window h.offset true st 0 []
    ((u.recvOn h.window).map fun e => (e.2.1.bight, e.1, e.2.2.seq))

/-- The oldest REDUCE packet at a port whose window is not held, and its place (R363). -/
def State.nextReduce (s : State) (n : Nat) : Option (Packet × Nat) :=
  (s.arrived n 2).zipIdx.find? fun e => !s.windowHeld n e.1.hdr.window

theorem reduce_none (h : s.nextReduce n = none) : exec (.reduce n) s = .next s := by
  show Host.Outcome.next (s.serveReduce n) = _
  unfold State.serveReduce
  rw [show List.find? _ (s.arrived n 2).zipIdx = none from h]

/-- What a REDUCE packet is answered, and the state it makes (R386, R504 to R506). -/
def State.takeReduce (s : State) (n : Nat) (pk : Packet) : Nat × State :=
  if s.windowRefuses pk.hdr true then (1, s.countRefused)
  else if (s.inWin pk.hdr.window).redPort ≠ n then (1, s)
  else
    match s.recvOn pk.hdr.window with
    | none => (3, s)
    | some (q, _, c) => s.reduceAt q c n pk.hdr pk.payload

theorem reduce_served {pk : Packet} {i st : Nat} {u : State} (h : s.nextReduce n = some (pk, i))
    (hu : s.takeReduce n pk = (st, u)) : exec (.reduce n) s = .next (u.answerReduce n i pk.hdr st) := by
  show Host.Outcome.next (s.serveReduce n) = _
  unfold State.serveReduce
  rw [show List.find? _ (s.arrived n 2).zipIdx = some (pk, i) from h]
  dsimp only
  generalize hq : (if s.windowRefuses pk.hdr true = true then _ else _ : Nat × State) = q
  obtain rfl : q = (st, u) := hq.symm.trans hu
  rfl

section
variable {pk : Packet}

theorem State.takeReduce_refused (hw : s.windowRefuses pk.hdr true = true) : s.takeReduce n pk = (1, s.countRefused) := if_pos hw

variable (hw : s.windowRefuses pk.hdr true = false)
include hw

theorem State.takeReduce_elsewhere (hn : (s.inWin pk.hdr.window).redPort ≠ n) : s.takeReduce n pk = (1, s) :=
  (if_neg (by simp [hw])).trans (if_pos hn)

variable (hn : (s.inWin pk.hdr.window).redPort = n)
include hn

theorem State.takeReduce_early (hr : s.recvOn pk.hdr.window = none) : s.takeReduce n pk = (3, s) := by
  unfold State.takeReduce
  rw [if_neg (by simp [hw]), if_neg (not_not.mpr hn), hr]

theorem State.takeReduce_joins {q : Nat} {x : Queue} {c : Cmd} (hr : s.recvOn pk.hdr.window = some (q, x, c)) :
    s.takeReduce n pk = s.reduceAt q c n pk.hdr pk.payload := by
  unfold State.takeReduce
  rw [if_neg (by simp [hw]), if_neg (not_not.mpr hn), hr]

end

end

/-! ### Integers, maxima and minima combine in either order (R503) -/

section
variable {rtype a b : Nat}

/-- The bits of a float of a reduction type but its sign. -/
abbrev redBits (rtype : Nat) : Nat := (redFloat rtype).1 + (redFloat rtype).2

theorem redKey_eq (rtype a : Nat) :
    redKey rtype a = let mag : Int := (a % 2 ^ redBits rtype : Nat); if a.testBit (redBits rtype) then -mag - 1 else mag := by
  simp [redKey, bitN, fieldN]

/-- Two floats in one place of the order are one: zeros of either sign are apart (R503). -/
theorem redKey_inj (ha : a < 2 ^ (redBits rtype + 1)) (hb : b < 2 ^ (redBits rtype + 1))
    (h : redKey rtype a = redKey rtype b) : a = b := by
  rw [redKey_eq, redKey_eq] at h
  rw [← Nat.mod_eq_of_lt ha, ← Nat.mod_eq_of_lt hb, Nat.mod_pow_succ, Nat.mod_pow_succ, ← Nat.toNat_testBit, ← Nat.toNat_testBit]
  generalize a.testBit (redBits rtype) = sa, b.testBit (redBits rtype) = sb, a % 2 ^ redBits rtype = x,
    b % 2 ^ redBits rtype = y at h ⊢
  cases sa <;> cases sb
  · simpa using h
  · simp at h
    omega
  · simp at h
    omega
  · simpa using h

theorem redSelect_comm (ha : a < 2 ^ (redBits rtype + 1)) (hb : b < 2 ^ (redBits rtype + 1)) :
    redSelect rtype a b = redSelect rtype b a := by
  unfold redSelect
  rw [Bool.or_comm]
  split
  · rfl
  · rcases lt_trichotomy (redKey rtype a) (redKey rtype b) with hlt | heq | hgt
    · cases rtype % 2 == 1 <;> simp [hlt, hlt.not_gt]
    · rw [redKey_inj ha hb heq]
    · cases rtype % 2 == 1 <;> simp [hgt, hgt.not_gt]

theorem redJoin_comm (h1 : 1 ≤ rtype) (h6 : rtype ≤ 6) (ha : a < 2 ^ (8 * elemSize rtype)) (hb : b < 2 ^ (8 * elemSize rtype)) :
    redJoin rtype a b = redJoin rtype b a := by
  obtain rfl | rfl | h3 : rtype = 1 ∨ rtype = 2 ∨ 3 ≤ rtype := by omega
  · exact congrArg (· % 2 ^ 32) (Nat.add_comm a b)
  · exact congrArg (· % 2 ^ 64) (Nat.add_comm a b)
  · interval_cases rtype <;> exact redSelect_comm ha hb

end
end Sys2Proof.Machine

section
open Sys2Proof Sys2Proof.Machine Sys2Proof.Claims

/-- Settles O50: a request or a response by what is found and by its status, a REDUCE by its window, its port and its RECV; two
floats in one place of the order are one, so that it does not matter which is taken. -/
theorem linkRequestsAndReductions : Obligations.LinkRequestsAndReductions := by
  refine ⟨fun s n => ⟨answers_request rfl, answers_request rfl⟩, fun s n => ⟨takes_response rfl, takes_response rfl⟩,
    fun s id => ⟨notReadyResend_kept, fun r w o p t hr hresend htarget => ?_⟩,
    fun s n => ⟨reduce_none, fun pk i h => ⟨fun hw => reduce_served h (State.takeReduce_refused hw),
      fun hw hn => reduce_served h (State.takeReduce_elsewhere hw hn),
      fun hw hn hr => reduce_served h (State.takeReduce_early hw hn hr),
      fun q x c hw hn hr => reduce_served h (State.takeReduce_joins hw hn hr)⟩⟩,
    fun rtype a b => redJoin_comm⟩
  rw [notReadyResend_resent hr hresend htarget]
  exact ⟨fun x hx => congrArg _ (State.resent_port hx),
    fun res u hx hf => congrArg _ ((State.resent_fault hx).trans (congrArg (afterFault id) hf)),
    fun u hx hf => congrArg _ ((State.resent_fault hx).trans (congrArg (afterFault id) hf))⟩

end

namespace Sys2Proof.Machine

/-! ### The queues and the commit registers, whatever is charged (R65, R445) -/

/-- The queues with their commands, but for what these have been charged, and the commit registers of the bights. -/
def State.roster (s : State) : (Nat → Option Queue) × (Nat → List RegEntry) :=
  (fun n => (s.queue? n).map Queue.uncharged, fun b => (s.bight b).creg)

/-- A command without its charges. -/
def Cmd.uncharged (c : Cmd) : Cmd := { c with charged := 0, frameCharged := 0 }

theorem State.roster_ext {s t : State} (hq : ∀ n, (t.queue? n).map Queue.uncharged = (s.queue? n).map Queue.uncharged)
    (hb : ∀ b, (t.bight b).creg = (s.bight b).creg) : t.roster = s.roster :=
  congrArg₂ Prod.mk (funext hq) (funext hb)

theorem State.creg_of_roster {s t : State} (h : t.roster = s.roster) (b : Nat) : (t.bight b).creg = (s.bight b).creg :=
  congrFun (congrArg Prod.snd h) b

theorem Queue.cmd_uncharged (q : Queue) (n : Nat) : q.uncharged.cmd? n = (q.cmd? n).map Cmd.uncharged := List.find?_map ..

theorem State.cmd_of_roster {s t : State} (h : t.roster = s.roster) (q n : Nat) :
    (t.cmd? q n).map Cmd.uncharged = (s.cmd? q n).map Cmd.uncharged := by
  have hcmd (u : State) : (u.cmd? q n).map Cmd.uncharged = (u.roster.1 q).bind (·.cmd? n) := by
    unfold State.cmd? State.roster
    dsimp only
    cases u.queue? q with
    | none => rfl
    | some x => exact (x.cmd_uncharged n).symm
  rw [hcmd, hcmd, h]

/-- A command keeps its place in the roster: it is there, and differs at most in what it has been charged. -/
theorem State.cmd_kept {s t : State} (h : t.roster = s.roster) {q n : Nat} {c : Cmd} (hc : s.cmd? q n = some c) :
    ∃ d, t.cmd? q n = some d ∧ d.uncharged = c.uncharged := by
  have hkept := State.cmd_of_roster h q n
  rw [hc] at hkept
  exact Option.map_eq_some_iff.mp hkept

@[simp] theorem State.roster_with (s : State) (pending now fresh fuses supply boot domains memHold frame energy power errors dict
    security cores engines mesh sram hbm xlat host fences fabric handoff mem sramCheck hbmCheck reqs nextReq sent) :
    (State.mk pending now fresh fuses supply boot domains memHold frame energy power errors dict security cores engines mesh sram hbm
      xlat host s.queues fences s.bights fabric handoff mem sramCheck hbmCheck reqs nextReq sent).roster = s.roster := rfl

@[simp] theorem State.roster_ite {c : Prop} [Decidable c] (s t : State) :
    (if c then s else t).roster = if c then s.roster else t.roster := apply_ite ..

@[simp] theorem roster_foldl {α : Type} {f : State → α → State} (hf : ∀ s a, (f s a).roster = s.roster) (l : List α) (s : State) :
    (l.foldl f s).roster = s.roster := view_foldl State.roster hf l s

theorem roster_of_eq {α : Type} {p : α × State} {a : α} {s t : State} (e : p = (a, t)) (h : p.2.roster = s.roster) :
    t.roster = s.roster := by
  rw [e] at h
  exact h

section
variable (s : State)

/-! Parts of the state, reports, messages and domains -/

theorem State.roster_modBight (b : Nat) {f : Bight → Bight} (hf : ∀ x, (f x).creg = x.creg) :
    (s.modBight b f).roster = s.roster := by
  refine State.roster_ext (fun _ => rfl) fun k => ?_
  unfold State.modBight
  rw [State.bight_setBight]
  split
  · next h => rw [h, hf]
  · rfl

@[simp] theorem State.roster_setGroup (g x) : (s.setGroup g x).roster = s.roster := rfl
@[simp] theorem State.roster_modGroup (g f) : (s.modGroup g f).roster = s.roster := rfl
@[simp] theorem State.roster_modPort (n f) : (s.modPort n f).roster = s.roster := rfl
@[simp] theorem State.roster_modRouter (r f) : (s.modRouter r f).roster = s.roster := rfl
@[simp] theorem State.roster_setCore (k c) : (s.setCore k c).roster = s.roster := rfl
@[simp] theorem State.roster_setEngine (c e) : (s.setEngine c e).roster = s.roster := rfl
@[simp] theorem State.roster_send (x) : (s.send x).roster = s.roster := rfl
@[simp] theorem State.roster_lanCarry (ty dest src payload) : (s.lanCarry ty dest src payload).roster = s.roster := rfl
@[simp] theorem State.roster_event (code arg) : (s.event code arg).roster = s.roster := rfl
@[simp] theorem State.roster_irq (n v) : (s.irq n v).roster = s.roster := by simp [State.irq, State.modFn, State.setFn, State.send]
@[simp] theorem State.roster_moduleEvent : s.moduleEvent.roster = s.roster := State.roster_irq _ 0 0

@[simp] theorem State.roster_reqDom (i x) : (s.reqDom i x).roster = s.roster := by
  unfold State.reqDom State.moveDom
  dsimp only
  split_ifs <;> rfl

@[simp] theorem State.roster_activity (u k n p) : (s.activity u k n p).roster = s.roster := by
  refine State.roster_ext (s.activity_queue u k n p) fun b => ?_
  have hkept := congrArg Bight.creg (s.activity_bight u k n p b)
  exact hkept

/-! Physical memory -/

@[simp] theorem State.roster_readSram (agent rmw wa) : (s.readSram agent rmw wa).2.roster = s.roster := by
  obtain ⟨sram, mesh, h⟩ := s.readSram_frame agent rmw wa
  rw [h]
  rfl

@[simp] theorem State.roster_writeSram (wa w) : (s.writeSram wa w).roster = s.roster := by
  unfold State.writeSram
  dsimp only
  split
  · rfl
  · split <;> simp [State.putSram]

@[simp] theorem State.roster_writeSramPart (agent wa o : Nat) (d : Bytes) : (s.writeSramPart agent wa o d).2.roster = s.roster := by
  unfold State.writeSramPart
  split
  · rfl
  · split
    · simp
    · split
      · next h => simpa using roster_of_eq h (State.roster_readSram ..)
      · next h => simpa using roster_of_eq h (State.roster_readSram ..)

@[simp] theorem State.roster_writeSramBytes (agent fuel a : Nat) (d : Bytes) :
    (s.writeSramBytes agent fuel a d).2.roster = s.roster := by
  induction fuel generalizing s a d with
  | zero => rfl
  | succ fuel ih =>
    unfold State.writeSramBytes
    split
    · rfl
    · exact (ih _ _ _).trans (s.roster_writeSramPart ..)

@[simp] theorem State.roster_readCw (agent rmw cw) : (s.readCw agent rmw cw).2.roster = s.roster := by
  unfold State.readCw
  split <;> simp [State.hbmCorrected, State.hbmBad, State.lanSend]

@[simp] theorem State.roster_writeCwPart (agent : Nat) (key : Option (Nat × Bool)) (cw o : Nat) (d : Bytes) :
    (s.writeCwPart agent key cw o d).2.roster = s.roster := by
  unfold State.writeCwPart
  split
  · rfl
  · split
    · next h => simpa [State.writeCw, State.putHbm] using roster_of_eq h (State.roster_readCw ..)
    · next h => exact roster_of_eq h (State.roster_readCw ..)

@[simp] theorem State.roster_writeHbmBytes (agent : Nat) (key : Option (Nat × Bool)) (fuel a : Nat) (d : Bytes) :
    (s.writeHbmBytes agent key fuel a d).2.roster = s.roster := by
  induction fuel generalizing s a d with
  | zero => rfl
  | succ fuel ih =>
    unfold State.writeHbmBytes
    split
    · rfl
    · exact (ih _ _ _).trans (s.roster_writeCwPart ..)

@[simp] theorem State.roster_physWrite (agent key p a d) : (s.physWrite agent key p a d).2.roster = s.roster := by
  unfold State.physWrite
  split
  · rfl
  · split <;> simp

@[simp] theorem State.roster_readSramWords (agent wa n : Nat) : (s.readSramWords agent wa n).2.roster = s.roster := by
  induction n generalizing s wa with
  | zero => rfl
  | succ n ih => exact (ih _ _).trans (s.roster_readSram ..)

@[simp] theorem State.roster_readCws (agent : Nat) (key : Option (Nat × Bool)) (cw n : Nat) :
    (s.readCws agent key cw n).2.roster = s.roster := by
  induction n generalizing s cw with
  | zero => rfl
  | succ n ih => exact (ih _ _).trans (s.roster_readCw ..)

@[simp] theorem State.roster_physRead (agent key p a n) : (s.physRead agent key p a n).2.roster = s.roster := by
  unfold State.physRead
  split
  · rfl
  · split <;> simp [State.readSramBytes, State.readHbmBytes]

/-! The module's own writes at a gate -/

@[simp] theorem State.roster_accessNow (r : Req) (a : Nat) : (s.accessNow r a).2.roster = s.roster := by
  unfold State.accessNow
  split
  · split
    · next h => exact roster_of_eq h (State.roster_physWrite ..)
    · next h => exact roster_of_eq h (State.roster_physWrite ..)
  · split
    · next h => exact roster_of_eq h (State.roster_physRead ..)
    · next h => exact roster_of_eq h (State.roster_physRead ..)

@[simp] theorem State.roster_refKey (r up) : (s.refKey r up).roster = s.roster := by
  unfold State.refKey
  split
  · split <;> rfl
  · rfl

@[simp] theorem State.roster_accessHbm (r a) : (s.accessHbm r a).2.roster = s.roster := by
  unfold State.accessHbm
  split
  · rfl
  · split
    · unfold State.countUnkeyed
      split
      · rfl
      · split <;> rfl
    · simp

@[simp] theorem State.roster_dequeue (g r) : (s.dequeue g r).roster = s.roster := by
  unfold State.dequeue
  split <;> rfl

@[simp] theorem State.roster_countRelease (g r p) : (s.countRelease g r p).roster = s.roster := by
  simp [State.countRelease, State.gateBytes]

@[simp] theorem State.roster_serveReq (g x r) : (s.serveReq g x r).2.roster = s.roster := by simp [State.serveReq]

@[simp] theorem State.roster_settle (id res) : (s.settle id res).roster = s.roster := by
  unfold State.settle
  split
  · rfl
  · simp [State.modReq]

@[simp] theorem State.roster_takeStep (id res) : (s.takeStep id res).2.roster = s.roster := by simp [State.takeStep, State.modReq]

@[simp] theorem State.roster_tryStep (g : Nat) (r : Req) : (s.tryStep g r).2.roster = s.roster := by
  unfold State.tryStep
  split
  · rfl
  · split
    · split
      · simp
      · rfl
    · rfl

@[simp] theorem State.roster_ownPut (a : Nat) (d : Bytes) : (s.ownPut a d).roster = s.roster := by
  unfold State.ownPut
  split
  · rfl
  · dsimp only
    split
    · split
      · next h => simpa [State.wakeStack, State.gateReq, State.addReq, State.dropSteps, State.dropReq] using roster_of_eq h (State.roster_tryStep ..)
      · next h => simpa [State.wakeStack, State.gateReq, State.addReq, State.dropSteps] using roster_of_eq h (State.roster_tryStep ..)
    · simp

@[simp] theorem State.roster_ownWrite (a d) : (s.ownWrite a d).roster = s.roster := by simp [State.ownWrite]
@[simp] theorem State.roster_closeObject (toggle n) : (s.closeObject toggle n).roster = s.roster := State.roster_ownWrite ..

/-! Packets -/

@[simp] theorem State.roster_packBytes (n b) : (s.packBytes n b).roster = s.roster :=
  view_foldl State.roster (fun _ _ => by rfl) _ s

@[simp] theorem State.roster_countPacket (n) : (s.countPacket n).roster = s.roster := by
  unfold State.countPacket
  dsimp only
  split
  · rfl
  · split
    · exact State.roster_moduleEvent _
    · rfl

@[simp] theorem State.roster_emitPacket (n pk) : (s.emitPacket n pk).roster = s.roster := by
  unfold State.emitPacket
  dsimp only
  split
  · rfl
  · split <;> simp

variable {s} in
theorem State.roster_pumpVc {t : State} {n v : Nat} (h : s.pumpVc n v = some t) : t.roster = s.roster := by
  unfold State.pumpVc at h
  dsimp only at h
  split at h
  · cases h
  · split at h
    · cases h
      exact State.roster_emitPacket _ n _
    · cases h

@[simp] theorem State.roster_pump (fuel : Nat) (n : Nat) : (State.pump fuel s n).roster = s.roster := by
  induction fuel generalizing s with
  | zero => rfl
  | succ fuel ih =>
    unfold State.pump
    split
    · next h =>
      obtain ⟨v, -, h⟩ := List.exists_of_findSome?_eq_some h
      exact (ih _).trans (State.roster_pumpVc h)
    · rfl

@[simp] theorem State.roster_sendPacket (n h payload pay) : (s.sendPacket n h payload pay).roster = s.roster := State.roster_pump ..
@[simp] theorem State.roster_peerPackets (ty q c) : (s.peerPackets ty q c).roster = s.roster := by simp [State.peerPackets]

/-! A kill's stop of what its command does -/

@[simp] theorem State.roster_commitMsg (b op q seq) : (s.commitMsg b op q seq).roster = s.roster := rfl
@[simp] theorem State.roster_dropFaults (q seq) : (s.dropFaults q seq).roster = s.roster := rfl
@[simp] theorem State.roster_killWins (b code rerun) : (s.killWins b code rerun).roster = s.roster := by simp [State.killWins]
@[simp] theorem State.roster_stopCores (b) : (s.stopCores b).roster = s.roster := by
  unfold State.stopCores
  refine (view_foldl State.roster (fun _ _ => by rfl) _ _).trans ?_
  exact (view_foldl State.roster (fun _ _ => by rfl) _ _).trans (view_foldl State.roster (fun _ _ => by rfl) _ s)

@[simp] theorem State.roster_keepPlace (b q seq) : (s.keepPlace b q seq).roster = s.roster :=
  s.roster_modBight b fun _ => rfl

@[simp] theorem State.roster_retireRun (b q seq) : (s.retireRun b q seq).roster = s.roster :=
  s.roster_modBight b fun _ => rfl

@[simp] theorem State.roster_ungate (ids) : (s.ungate ids).roster = s.roster :=
  view_foldl State.roster (f := fun (s : State) x => s.oweCredit x) (fun _ _ => rfl) _ _

@[simp] theorem State.roster_abandonReqs (p) : (s.abandonReqs p).roster = s.roster := by simp [State.abandonReqs]
@[simp] theorem State.roster_abandonCmd (q c b) : (s.abandonCmd q c b).roster = s.roster := State.roster_abandonReqs ..

end
end Sys2Proof.Machine

namespace Sys2Proof.Machine
open Sys2Proof.Claims

section
variable {s : State} {qn seq : Nat} {q : Queue} {c : Cmd}

/-! ### WAIT (R422, R425) -/

theorem works_of_no_work (h : s.working qn = none) :
    exec (.wait qn) s = .next s ∧ exec (.signal qn) s = .next s ∧ exec (.commitGroup qn) s = .next s := by
  show execWait qn s = _ ∧ execSignal qn s = _ ∧ execCommitGroup qn s = _
  unfold execWait execSignal execCommitGroup
  rw [h]
  exact ⟨rfl, rfl, rfl⟩

section
variable {f v : Nat} {x : Fence}

theorem wait_of_no_fence (h : s.working qn = some (q, c)) (hp : c.payload = .wait f v) (hf : s.liveFence f c.bound = none) :
    exec (.wait qn) s = .next (if f = 0xFFFF then s else s.endCmd qn c.seq codeOwnerGone (detailFence f)) := by
  show execWait qn s = _
  unfold execWait
  rw [h]
  dsimp only
  rw [hp]
  dsimp only
  rw [hf]

theorem wait_of_fence (h : s.working qn = some (q, c)) (hp : c.payload = .wait f v) (hf : s.liveFence f c.bound = some x) :
    exec (.wait qn) s = .next (if x.word.getLsbD 63 then s.endCmd qn c.seq (x.word.toNat % 65536) (detailFence f)
      else if v ≤ x.word.toNat then s.modCmd qn c.seq fun d => { d with begun := true } else s) := by
  show execWait qn s = _
  unfold execWait
  rw [h]
  dsimp only
  rw [hp]
  dsimp only
  rw [hf]
  rfl

/-! ### SIGNAL (R420, R425, R444) -/

/-- A SIGNAL tells the management processor its value, which reaches the fence. -/
def State.signalled (s : State) (qn : Nat) (q : Queue) (c : Cmd) (f v : Nat) : State :=
  ((s.fenceMsg q.bight 1 f (BitVec.ofNat 64 v)).signalFence f c.bound v q.fn qn c.seq).modCmd qn c.seq
    fun d => { d with begun := true }

theorem signal_of_work (h : s.working qn = some (q, c)) (hp : c.payload = .signal f v) :
    exec (.signal qn) s = .next (if c.begun then s else s.signalled qn q c f v) := by
  show execSignal qn s = _
  unfold execSignal
  rw [h]
  dsimp only
  rw [hp]
  rfl

end

/-! What the fences are after a fence message, a host write or an interrupt -/

section
variable (s)

theorem State.fences_hostWrite (n addr : Nat) (d : Bytes) : (s.hostWrite n addr d).fences = s.fences := by
  obtain ⟨_, _, h⟩ := s.toHost_hostWrite n addr d
  rw [h]

theorem State.fences_irq (n v : Nat) : (s.irq n v).fences = s.fences := by
  unfold State.irq
  dsimp only
  split_ifs <;> rfl

theorem State.fences_modCmd (qn m : Nat) (f : Cmd → Cmd) : (s.modCmd qn m f).fences = s.fences := by
  unfold State.modCmd State.modQueue
  split <;> rfl

theorem State.fences_notifyWaits (f inc : Nat) (w : Word) : (s.notifyWaits f inc w).fences = s.fences :=
  view_foldl State.fences (f := fun (s : State) (e : Nat × Queue) => s.lanCarry 1 (s.stopOfBight e.2.bight) stopMgmt (fenceFlits 3 f w))
    (fun _ _ => rfl) _ s

/-- A fence whose word changes keeps the last value it had before it broke (R419, R425). -/
def Fence.setTo (x : Fence) (w : Word) : Fence := { x with word := w, last := if fenceBroken w then x.last else w }

theorem State.fences_fenceSet (f : Nat) (x : Fence) (w : Word) :
    (s.fenceSet f x w).fences = (s.setFence f (x.setTo w)).fences := by
  unfold State.fenceSet
  extract_lets owner told set mirrored
  have hset : set.fences = (s.setFence f (x.setTo w)).fences :=
    congrArg (Tab.set · f (x.setTo w)) (s.fences_notifyWaits f x.incarnation w)
  have hmirrored : mirrored.fences = set.fences := by
    unfold mirrored
    split
    · rfl
    · exact State.fences_hostWrite ..
  split
  · exact (State.fences_irq ..).trans (hmirrored.trans hset)
  · exact hmirrored.trans hset

/-- A fence reads as its new word says, and every other as before. -/
theorem State.fence_fenceSet (f g : Nat) (x : Fence) (w : Word) :
    (s.fenceSet f x w).fence? g = if g = f then some (x.setTo w) else s.fence? g := by
  refine Eq.trans ?_ (s.fence_setFence f g (x.setTo w))
  exact congrArg (Tab.find? · g) (s.fences_fenceSet f x w)

end

/-- A value above an unbroken fence's is what the fence then holds. -/
theorem State.signalFence_raises {f inc v : Nat} {x : Fence} (hf : s.liveFence f inc = some x) (hb : fenceBroken x.word = false)
    (hlt : x.word.toNat < v) (hv : v < 2 ^ 63) (fn qn seq : Nat) :
    s.signalFence f inc v fn qn seq = s.fenceSet f x (BitVec.ofNat 64 v) := by
  unfold State.signalFence
  rw [hf]
  dsimp only
  rw [if_neg (Bool.eq_false_iff.mp hb), if_neg (Nat.not_le.mpr hv), if_pos hlt]

theorem State.fence_signalled {f v : Nat} {x : Fence} (hf : s.liveFence f c.bound = some x) (hb : fenceBroken x.word = false)
    (hlt : x.word.toNat < v) (hv : v < 2 ^ 63) (g : Nat) :
    (s.signalled qn q c f v).fence? g = if g = f then some (x.setTo (BitVec.ofNat 64 v)) else s.fence? g := by
  have hf' : (s.fenceMsg q.bight 1 f (BitVec.ofNat 64 v)).liveFence f c.bound = some x := hf
  unfold State.signalled
  rw [State.signalFence_raises hf' hb hlt hv]
  refine Eq.trans ?_ ((s.fenceMsg q.bight 1 f (BitVec.ofNat 64 v)).fence_fenceSet f g x (BitVec.ofNat 64 v))
  exact congrArg (Tab.find? · g) (State.fences_modCmd ..)

/-! ### The commit register (R444, R445, R468) -/

/-- A request stands at the end of its bight's commit register, and nothing else of the bight changes. -/
theorem State.bight_register_self (b : Nat) (e : RegEntry) :
    (s.register b e).bight b = { s.bight b with creg := (s.bight b).creg ++ [e] } := by
  unfold State.register
  cases e with
  | commit q m => exact State.bight_setBight_self ..
  | kill q m code detail rerun =>
    dsimp only
    split_ifs
    · exact State.bight_setBight_self ..
    · exact State.bight_setBight_self ..

theorem State.cmd_register (b : Nat) (e : RegEntry) (m : Nat) : (s.register b e).cmd? qn m = s.cmd? qn m := by
  unfold State.register
  split
  · rfl
  · split_ifs <;> rfl

theorem State.mem_register (b : Nat) (e : RegEntry) : (s.register b e).mem = s.mem := by
  unfold State.register
  split
  · rfl
  · split_ifs <;> rfl

theorem State.mem_modCmd (m : Nat) (f : Cmd → Cmd) : (s.modCmd qn m f).mem = s.mem := by
  unfold State.modCmd State.modQueue
  split <;> rfl

theorem State.cmd_eq (hq : s.queue? qn = some q) (hc : q.cmd? seq = some c) : s.cmd? qn seq = some c := by
  unfold State.cmd?
  rw [hq]
  exact hc

/-- A found command has the number it was looked for by. -/
theorem Queue.seq_of_cmd (hc : q.cmd? seq = some c) : c.seq = seq := by simpa using List.find?_some hc

/-! ### COMMIT_GROUP (R449, R450) -/

theorem commitGroup_of_work {expect : Nat} (h : s.working qn = some (q, c)) (hp : c.payload = .commitGroup expect) :
    exec (.commitGroup qn) s = .next (s.decideGroup qn q c expect) := by
  show execCommitGroup qn s = _
  unfold execCommitGroup
  rw [h]
  dsimp only
  rw [hp]

/-- A group whose members are all held, as many as it expects, asks for its commit. -/
theorem State.decideGroup_of_held {expect : Nat} (hdone : q.groupDone = 0) (hheld : ∀ m ∈ groupMembers q c.seq, m.phase = .held)
    (hcount : (groupMembers q c.seq).length = expect) : s.decideGroup qn q c expect =
      (s.modCmd qn c.seq fun c => { c with phase := .requested }).register q.bight (.commit qn c.seq) := by
  have hready : ((groupMembers q c.seq).all fun m => m.phase == .held || m.phase == .ended) = true :=
    List.all_eq_true.mpr fun m hm => by rw [hheld m hm]; rfl
  have hended : ((groupMembers q c.seq).any fun m => m.phase == .ended) = false :=
    List.any_eq_false.mpr fun m hm => by rw [hheld m hm]; decide
  unfold State.decideGroup
  dsimp only
  rw [hready, hended, hdone, hcount]
  simp

/-! ### COMMIT_REQUEST (R444, R445, R449, R463) -/

theorem commitRequest_of_no_cmd (h : s.cmd? qn seq = none) : exec (.commitRequest qn seq) s = .next s := by
  show execCommitRequest qn seq s = _
  unfold State.cmd? at h
  unfold execCommitRequest
  cases hq : s.queue? qn with
  | none => rfl
  | some q =>
    rw [hq, Option.bind_some] at h
    dsimp only
    rw [h]

/-- A command in another phase. -/
def Cmd.inPhase (p : Phase) (c : Cmd) : Cmd := { c with phase := p }

/-- A finished RUN leaves residency with the flags of its engines; any other command leaves nothing. -/
def State.leaves (s : State) (qn seq : Nat) (q : Queue) (c : Cmd) : State :=
  if c.isRun then (s.modCmd qn seq fun d => { d with acc := d.acc ||| s.accOf q.bight }).leaveResidency q.bight else s

theorem commitRequest_of_cmd (hq : s.queue? qn = some q) (hc : q.cmd? seq = some c) : exec (.commitRequest qn seq) s =
    .next (if !s.finished qn q c then s
      else if c.grouped then (s.leaves qn seq q c).modCmd qn seq (Cmd.inPhase .held)
      else ((s.leaves qn seq q c).modCmd qn seq (Cmd.inPhase .requested)).register q.bight (.commit qn seq)) := by
  show execCommitRequest qn seq s = _
  unfold execCommitRequest
  rw [hq]
  dsimp only
  rw [hc]
  rfl

theorem State.leaves_spec (h : s.cmd? qn seq = some c) :
    (∃ d, (s.leaves qn seq q c).cmd? qn seq = some d) ∧ ((s.leaves qn seq q c).bight q.bight).creg = (s.bight q.bight).creg ∧
    ((s.leaves qn seq q c).bight q.bight).resident = (if c.isRun then none else (s.bight q.bight).resident) ∧
    (s.leaves qn seq q c).mem = s.mem := by
  unfold State.leaves
  split
  · refine ⟨⟨_, State.cmd_modCmd_self h fun _ => rfl⟩, ?_, ?_, State.mem_modCmd ..⟩
    · rw [State.leaveResidency, State.modBight, State.bight_setBight_self, State.bight_modCmd]
    · rw [State.leaveResidency, State.modBight, State.bight_setBight_self]
  · exact ⟨⟨c, h⟩, rfl, rfl, rfl⟩

theorem gives_commitRequest (hq : s.queue? qn = some q) (hc : q.cmd? seq = some c) (hfin : s.finished qn q c = true) :
    Gives (.commitRequest qn seq) s fun t =>
      (t.cmd? qn seq).map (·.phase) = some (if c.grouped then .held else .requested) ∧
      (t.bight q.bight).creg = (if c.grouped then (s.bight q.bight).creg
        else (s.bight q.bight).creg ++ [RegEntry.commit qn seq]) ∧
      (t.bight q.bight).resident = (if c.isRun then none else (s.bight q.bight).resident) ∧ t.mem = s.mem := by
  obtain ⟨⟨d, hd⟩, hcreg, hres, hmem⟩ := State.leaves_spec (q := q) (State.cmd_eq hq hc)
  refine ⟨_, (commitRequest_of_cmd hq hc).trans (congrArg _ (if_neg (by simp [hfin]))), ?_⟩
  have hphase (p : Phase) : ((s.leaves qn seq q c).modCmd qn seq (Cmd.inPhase p)).cmd? qn seq = some (d.inPhase p) :=
    State.cmd_modCmd_self hd fun _ => rfl
  dsimp only
  split
  · rw [hphase, State.bight_modCmd, State.mem_modCmd, hcreg, hres, hmem]
    exact ⟨rfl, rfl, rfl, rfl⟩
  · rw [State.cmd_register, hphase, State.bight_register_self, State.mem_register, State.bight_modCmd,
      State.mem_modCmd, hcreg, hres, hmem]
    exact ⟨rfl, rfl, rfl, rfl⟩

theorem commitRequest_unfinished (hq : s.queue? qn = some q) (hc : q.cmd? seq = some c) (hfin : s.finished qn q c = false) :
    exec (.commitRequest qn seq) s = .next s :=
  (commitRequest_of_cmd hq hc).trans (congrArg _ (if_pos (by rw [hfin]; rfl)))

/-! ### COMMIT and KILL (R446, R453, R454, R468) -/

section
variable {b code : Nat} {detail : BitVec 24} {rerun : Bool} {rest : List RegEntry}

theorem register_empty (h : (s.bight b).creg = []) : exec (.commit b) s = .next s ∧ exec (.kill b) s = .next s := by
  show execCommit b s = _ ∧ execKill b s = _
  unfold execCommit execKill
  rw [h]
  exact ⟨rfl, rfl⟩

theorem register_commit (h : (s.bight b).creg = .commit qn seq :: rest) : exec (.kill b) s = .next s ∧
    exec (.commit b) s = .next (((s.modBight b fun x => { x with creg := rest }).takeCommit qn seq).ownersGo) := by
  show execKill b s = _ ∧ execCommit b s = _
  unfold execCommit execKill
  rw [h]
  exact ⟨rfl, rfl⟩

theorem register_kill (h : (s.bight b).creg = .kill qn seq code detail rerun :: rest) : exec (.commit b) s = .next s ∧
    exec (.kill b) s =
      .next (((s.modBight b fun x => { x with creg := rest }).takeKill qn seq code detail rerun).ownersGo) := by
  show execCommit b s = _ ∧ execKill b s = _
  unfold execCommit execKill
  rw [h]
  exact ⟨rfl, rfl⟩

end

theorem State.cmd_closeObjects (h : s.cmd? qn seq = some c) (toggle : Bool) :
    ∃ d, (s.closeObjects toggle qn seq).cmd? qn seq = some d := by
  unfold State.closeObjects
  rw [h]
  have hroster := roster_foldl (fun (s : State) n => s.roster_closeObject toggle n) c.holds s
  obtain ⟨d, hd, -⟩ := State.cmd_kept hroster h
  exact ⟨_, State.cmd_modCmd_self hd fun _ => rfl⟩

/-- A command that a kill reaches is being killed (R453). -/
theorem State.phase_takeKill (hc : s.cmd? qn seq = some c) (hl : c.live? = true) (code : Nat) (detail : BitVec 24) (rerun : Bool) :
    ((s.takeKill qn seq code detail rerun).cmd? qn seq).map (·.phase) = some .killing := by
  obtain ⟨q, hq, hc'⟩ := Option.bind_eq_some_iff.mp hc
  have hseq := Queue.seq_of_cmd hc'
  unfold State.takeKill
  rw [hq]
  dsimp -zeta only
  rw [hc']
  dsimp -zeta only
  by_cases hk : c.phase = .killing
  · rw [if_pos hk]
    unfold State.endRerun
    split
    · rw [hseq]
      exact Eq.trans (congrArg (Option.map Cmd.phase) (State.cmd_modCmd_self hc fun _ => rfl)) (congrArg some hk)
    · rw [hc]
      exact congrArg some hk
  · rw [if_neg hk, if_neg (by rw [hl]; decide)]
    extract_lets res acc stopped unlisted left abandoned closed dropped killed
    have hstopped : stopped.roster = s.roster := by
      unfold stopped
      split
      · exact (State.roster_stopCores ..).trans (State.roster_killWins ..)
      · rfl
    have hunlisted : unlisted.roster = stopped.roster := stopped.roster_modBight q.bight fun _ => rfl
    have hleft : left.roster = stopped.roster := by
      unfold left
      split
      · split
        · exact (State.roster_keepPlace ..).trans hunlisted
        · exact (State.roster_retireRun ..).trans hunlisted
      · rfl
    obtain ⟨d, hd, -⟩ := State.cmd_kept ((left.roster_abandonCmd qn c q.bight).trans (hleft.trans hstopped)) hc
    obtain ⟨e, he⟩ : ∃ e, closed.cmd? qn seq = some e := by
      unfold closed
      split
      · exact ⟨d, hd⟩
      · exact State.cmd_closeObjects hd false
    obtain ⟨k, hkilled, hphase⟩ : ∃ k, killed.cmd? qn seq = some k ∧ k.phase = .killing :=
      ⟨_, State.cmd_modCmd_self (show dropped.cmd? qn seq = some e from he) fun _ => rfl, rfl⟩
    have hdone : (killed.cmd? qn seq).map (·.phase) = some .killing := by rw [hkilled, Option.map_some, hphase]
    split
    · split
      · exact hdone
      · exact hdone
    · exact hdone

/-! ### KILL_COMPLETE (R453, R455, R464, R468) -/

/-- What the register still holds of an attempt that a re-run follows decides nothing, but for an abort and the end of its owner
(R468, log 191). -/
def RegEntry.stale (qn seq : Nat) : RegEntry → Bool
  | .kill q n code _ _ => q == qn && n == seq && code != codeAborted && code != codeOwnerGone
  | .commit q n => q == qn && n == seq

theorem RegEntry.not_stale_iff (e : RegEntry) : e.stale qn seq = false ↔ e ≠ .commit qn seq ∧
    ∀ code detail rerun, e = .kill qn seq code detail rerun → code = codeAborted ∨ code = codeOwnerGone := by
  cases e with
  | commit q n => simp [RegEntry.stale]
  | kill q n code detail rerun =>
    have hstale : (RegEntry.kill q n code detail rerun).stale qn seq = false ↔
        (q = qn → n = seq → code = codeAborted ∨ code = codeOwnerGone) := by
      simp [RegEntry.stale, or_iff_not_imp_left]
    rw [hstale]
    refine ⟨fun h => ⟨nofun, fun code' detail' rerun' heq => ?_⟩, fun h hq hn => ?_⟩
    · cases heq
      exact h rfl rfl
    · subst hq hn
      exact h.2 _ _ _ rfl

/-- A command as it waits to run again (R455). -/
def Cmd.again (c : Cmd) : Cmd :=
  { c with phase := .waiting, reruns := c.reruns + 1, attempt := c.attempt + 1, peers := [], begun := false, rerun := false
           holdSince := none }

/-- A kill for a re-run is over: the bight and the peers of the command are told, and the re-run is counted (R448, R498, R470). -/
def State.tellRerun (s : State) (b qn seq : Nat) (c : Cmd) : State :=
  let u := (s.commitMsg b 4 qn seq).peerPackets 0x0B qn c
  { u with host := { u.host with reruns := u.host.reruns + 1 } }

theorem State.roster_tellRerun (s : State) (b qn seq : Nat) (c : Cmd) : (s.tellRerun b qn seq c).roster = s.roster :=
  (State.roster_peerPackets ..).trans (s.roster_commitMsg b 4 qn seq)

section
variable (hq : s.queue? qn = some q) (hc : q.cmd? seq = some c)
include hq hc

theorem State.killDone_waits (h : c.phase ≠ .killing ∨ s.cmdBusy qn c q.bight = true) : s.killDone qn seq = s := by
  unfold State.killDone
  rw [hq]
  dsimp only
  rw [hc]
  exact if_pos h

variable (hk : c.phase = .killing) (hb : s.cmdBusy qn c q.bight = false)
include hk hb

theorem State.killDone_ends (hr : c.rerun = false) :
    s.killDone qn seq = (s.commitMsg q.bight 4 qn seq).endCmd qn seq c.code c.detail := by
  unfold State.killDone
  rw [hq]
  dsimp only
  rw [hc]
  dsimp only
  rw [if_neg (by simp [hk, hb]), if_neg (by rw [hr]; decide)]

theorem State.killDone_reruns (hr : c.rerun = true) : s.killDone qn seq =
    ((s.tellRerun q.bight qn seq c).modBight q.bight fun x => { x with
      creg := x.creg.filter fun e => !e.stale qn seq }).modCmd qn seq Cmd.again := by
  unfold State.killDone
  rw [hq]
  dsimp only
  rw [hc]
  dsimp only
  rw [if_neg (by simp [hk, hb]), if_pos hr]
  rfl

theorem State.killDone_rerun_spec (hr : c.rerun = true) : ∃ d, (s.killDone qn seq).cmd? qn seq = some d ∧
    d.phase = .waiting ∧ d.reruns = c.reruns + 1 ∧ d.attempt = c.attempt + 1 ∧ d.begun = false ∧ d.acc = c.acc ∧
    ∀ e, e ∈ ((s.killDone qn seq).bight q.bight).creg ↔ e ∈ (s.bight q.bight).creg ∧ e ≠ .commit qn seq ∧
      ∀ code detail rerun, e = .kill qn seq code detail rerun → code = codeAborted ∨ code = codeOwnerGone := by
  have hu := s.roster_tellRerun q.bight qn seq c
  obtain ⟨d, hd, hkept⟩ := State.cmd_kept hu (State.cmd_eq hq hc)
  rw [State.killDone_reruns hq hc hk hb hr]
  refine ⟨d.again, State.cmd_modCmd_self hd fun _ => rfl, rfl, ?_, ?_, rfl, ?_, fun e => ?_⟩
  · show d.uncharged.reruns + 1 = c.uncharged.reruns + 1
    rw [hkept]
  · show d.uncharged.attempt + 1 = c.uncharged.attempt + 1
    rw [hkept]
  · show d.uncharged.acc = c.uncharged.acc
    rw [hkept]
  · rw [State.bight_modCmd, State.modBight, State.bight_setBight_self]
    dsimp only
    rw [State.creg_of_roster hu, List.mem_filter, Bool.not_eq_true', RegEntry.not_stale_iff]

end

/-! ### ABORT (R467 to R469) -/

/-- The result of an abort is recorded (R467, R470). -/
def State.noteAbort (s : State) (code : Nat) : State :=
  { s with host := { s.host with
    abortSeq := s.host.abortSeq + 1, abortResult := code, tooLate := if code = 8 then s.host.tooLate + 1 else s.host.tooLate } }

/-- A command that an abort comes too late for: its commit request, or that of its group, is in the register, or it is over (R467). -/
def State.abortLate (s : State) (qn seq : Nat) (c : Cmd) : Prop :=
  c.phase = .requested ∨ c.live? = false ∨ (c.phase = .held ∧ ∃ q, s.queue? qn = some q ∧ q.groupRequested seq = true)

theorem State.abortCode_of_no_queue (h : s.queue? qn = none) : s.abortCode qn seq = 3 := by
  unfold State.abortCode
  rw [h]

theorem State.abortCode_of_no_cmd (hq : s.queue? qn = some q) (hc : q.cmd? seq = none) :
    s.abortCode qn seq = if seq < q.next then 8 else 3 := by
  unfold State.abortCode
  rw [hq]
  dsimp only
  rw [hc]

theorem State.abortCode_of_cmd (h : s.cmd? qn seq = some c) [Decidable (s.abortLate qn seq c)] :
    s.abortCode qn seq = if s.abortLate qn seq c then 8 else 0 := by
  obtain ⟨q, hq, hc⟩ := Option.bind_eq_some_iff.mp h
  unfold State.abortCode
  rw [hq]
  dsimp only
  rw [hc]
  refine if_congr ?_ rfl rfl
  unfold State.abortLate
  simp [hq]

section
variable {v : BitVec 64} {code : Nat} (hqn : qn = (v.extractLsb' 36 12).toNat) (hseq : seq = (v.extractLsb' 0 36).toNat)
include hqn hseq

theorem putAbort_refused (h : s.abortCode qn seq = code) (hne : code ≠ 0) : putAbort v s = (0x00, s.noteAbort code) := by
  subst hqn hseq h
  unfold putAbort
  rw [fieldN_toNat, fieldN_toNat]
  exact if_pos hne

theorem putAbort_taken (h : s.abortCode qn seq = 0) (hc : s.cmd? qn seq = some c) : putAbort v s =
    (0x00, if c.phase = .killing then (s.noteAbort 0).failAlways qn seq 0x0307
      else (s.noteAbort 0).killAny qn seq 0x0307 (detailCmd qn seq)) := by
  subst hqn hseq
  unfold putAbort
  rw [fieldN_toNat, fieldN_toNat]
  dsimp only
  rw [h, if_neg (by decide)]
  split
  · next d hd =>
    obtain rfl : d = c := Option.some.inj (hd.symm.trans hc)
    split <;> rfl
  · next hd => exact absurd (hd.symm.trans hc) nofun

end

/-! ### HOLD_CEILING (R465) -/

theorem holdCeiling_of_no_cmd (h : s.cmd? qn seq = none) : exec (.holdCeiling qn seq) s = .next s := by
  show execHoldCeiling qn seq s = _
  unfold State.cmd? at h
  unfold execHoldCeiling
  cases hq : s.queue? qn with
  | none => rfl
  | some q =>
    rw [hq, Option.bind_some] at h
    dsimp only
    rw [h]

/-- A direct-write command has run for its ceiling of periods since the first wait for it began (R465). -/
abbrev State.HoldOver (s : State) (qn seq : Nat) (q : Queue) (c : Cmd) : Prop :=
  ∃ a, c.holdSince = some a ∧ a + (s.bight q.bight).holdCeiling * s.frame.period ≤ s.now ∧ c.direct = true ∧
    c.running = true ∧ c.phase ≠ .killing ∧ c.phase ≠ .requested ∧ s.doomed q.bight qn seq = false

section
variable (hq : s.queue? qn = some q) (hc : q.cmd? seq = some c)
include hq hc

theorem holdCeiling_over (h : s.HoldOver qn seq q c) : exec (.holdCeiling qn seq) s = .next
    ((s.failCmd qn seq codeHoldCeiling).modBight q.bight fun y => { y with holdAborts := y.holdAborts + 1 }) := by
  obtain ⟨a, ha, hover, hdirect, hrun, hkill, hreq, hdoom⟩ := h
  show execHoldCeiling qn seq s = _
  unfold execHoldCeiling
  rw [hq]
  dsimp only
  rw [hc]
  dsimp only
  rw [ha]
  exact congrArg _ (if_pos ⟨hdirect, hrun, hkill, hreq, hdoom, hover⟩)

theorem holdCeiling_not_over (h : ¬ s.HoldOver qn seq q c) : exec (.holdCeiling qn seq) s = .next s := by
  show execHoldCeiling qn seq s = _
  unfold execHoldCeiling
  rw [hq]
  dsimp only
  rw [hc]
  dsimp only
  split
  · rfl
  · next a ha =>
    refine congrArg _ (if_neg ?_)
    rintro ⟨hdirect, hrun, hkill, hreq, hdoom, hover⟩
    exact h ⟨a, ha, hover, hdirect, hrun, hkill, hreq, hdoom⟩

end

end
end Sys2Proof.Machine

section
open Sys2Proof Sys2Proof.Machine Sys2Proof.Claims

/-- Settles O44: each command by what it finds, and a kill followed through all it stops, which leaves the queues and the commit
registers but for charges. -/
theorem commandsWaitCommitAndEnd : Obligations.CommandsWaitCommitAndEnd := by
  refine ⟨fun s qn => ⟨works_of_no_work, fun q c hwork => ⟨fun f v hp => ?wait, fun f v hp => ?signal, fun expect hp => ?group⟩⟩,
    fun s qn seq => ⟨commitRequest_of_no_cmd, fun q c hq hc => ⟨commitRequest_unfinished hq hc, gives_commitRequest hq hc⟩⟩,
    fun s b => ⟨fun q seq rest => register_commit, fun q seq code detail rerun rest h => ?kill, register_empty⟩,
    fun s qn seq => ⟨rfl, fun q c hq hc => ⟨State.killDone_waits hq hc, State.killDone_rerun_spec hq hc, State.killDone_ends hq hc⟩⟩,
    fun s via v hserves => ?abort,
    fun s qn seq => ⟨holdCeiling_of_no_cmd, fun q c hq hc => ⟨holdCeiling_over hq hc, holdCeiling_not_over hq hc⟩⟩⟩
  case wait =>
    refine ⟨fun hf h => ?_, fun hf h => ?_, fun x hf => ⟨fun hb => ?_, fun hb hv => ?_, fun hb hv => ?_⟩⟩
    · rw [wait_of_no_fence hwork hp hf, if_pos h]
    · rw [wait_of_no_fence hwork hp hf, if_neg h]
      rfl
    · rw [wait_of_fence hwork hp hf, if_pos hb]
    · rw [wait_of_fence hwork hp hf, if_neg (Bool.eq_false_iff.mp hb), if_pos hv]
    · rw [wait_of_fence hwork hp hf, if_neg (Bool.eq_false_iff.mp hb), if_neg (Nat.not_le.mpr hv)]
  case signal =>
    have hexec := signal_of_work hwork hp
    refine ⟨fun hb => hexec.trans (congrArg _ (if_pos hb)), fun hb => hexec.trans (congrArg _ (if_neg (by simp [hb]))),
      fun x hb hf hunbroken hlt hv => ⟨_, hexec.trans (congrArg _ (if_neg (by simp [hb]))), ?_, fun g hg => ?_⟩⟩
    · rw [State.fence_signalled hf hunbroken hlt hv, if_pos rfl]
      rfl
    · rw [State.fence_signalled hf hunbroken hlt hv, if_neg hg]
  case group =>
    refine ⟨commitGroup_of_work hwork hp, fun hdone hheld hcount => ?_⟩
    rw [State.decideGroup_of_held hdone hheld hcount, State.bight_register_self, State.bight_modCmd]
  case kill =>
    obtain ⟨hcommit, hkill⟩ := register_kill h
    exact ⟨hcommit, hkill, fun c hc hl => State.phase_takeKill (s := s.modBight b fun x => { x with creg := rest }) hc hl code detail rerun⟩
  case abort =>
    intro qn seq noted
    have hanswer {t : State} : putAbort v s = (0x00, t) → Answers (.abort via v) s via 0x00 t := answers_of_objWrite hserves rfl
    refine ⟨fun hq => hanswer (putAbort_refused rfl rfl (State.abortCode_of_no_queue hq) (by decide)), fun q hq hc hlt => ?_,
      fun q hq hc hle => ?_, ?_⟩
    · exact hanswer (putAbort_refused rfl rfl ((State.abortCode_of_no_cmd hq hc).trans (if_pos hlt)) (by decide))
    · exact hanswer (putAbort_refused rfl rfl ((State.abortCode_of_no_cmd hq hc).trans (if_neg (Nat.not_lt.mpr hle))) (by decide))
    · classical
      intro late
      refine ⟨fun c hc hlate => ?_, fun c hc hlate => ?_⟩
      · exact hanswer (putAbort_refused rfl rfl ((State.abortCode_of_cmd hc).trans (if_pos hlate)) (by decide))
      · exact hanswer (putAbort_taken rfl rfl ((State.abortCode_of_cmd hc).trans (if_neg hlate)) hc)

end

namespace Sys2Proof.Machine
open Sys2Proof.Claims

section
variable {s : State}

/-! ### Records of queues and fences (R318, R405, R419, R433) -/

/-- A record whose operation is held waits, behind those that wait. -/
def State.waitRecord (s : State) (kind : Nat) (b : Bytes) : State :=
  { s with host := { s.host with recordWaiting := s.host.recordWaiting ++ [(kind, b)] } }

/-- What the operation of a record makes of it: its result is reported, or it waits. -/
def afterRecord (kind : Nat) (b : Bytes) : Option Nat × State → State
  | (none, s) => s.waitRecord kind b
  | (some code, s) => s.reportOp kind code

theorem State.doRecord_queue (b : Bytes) : s.doRecord (1, b) = afterRecord 1 b (s.forgetSteps.queueRecord b) := by
  unfold State.doRecord
  dsimp only
  obtain ⟨_ | code, u⟩ := s.forgetSteps.queueRecord b
  · rfl
  · exact if_neg (by simp)

theorem State.doRecord_fence (b : Bytes) : s.doRecord (2, b) = afterRecord 2 b (s.forgetSteps.fenceRecord b) := by
  unfold State.doRecord
  dsimp only
  obtain ⟨_ | code, u⟩ := s.forgetSteps.fenceRecord b
  · rfl
  · exact if_neg (by simp)

theorem State.takeRecord_waits {x : Nat × Bytes} (h : s.host.recordWaiting ≠ []) : s.takeRecord x = s.waitRecord x.1 x.2 :=
  if_neg fun he => h (List.isEmpty_iff.mp he)

theorem State.takeRecord_done {x : Nat × Bytes} (h : s.host.recordWaiting = []) : s.takeRecord x = s.doRecord x :=
  if_pos (List.isEmpty_iff.mpr h)

/-! ### QUEUE_CREATE, QUEUE_DESTROY, QUEUE_STOP and QUEUE_START (R404, R405, R409, R654) -/

section
variable {addr : Nat} {b : Bytes}

theorem putQueueRecord_error : putQueueRecord addr none s = (0x00, ((s.readRecord addr 64).aer 0).reportOp 1 8) :=
  if_neg (by simp)

/-- In Rootstock a create or a start is refused (R654). -/
abbrev State.barsRecord (s : State) (b : Bytes) : Prop := s.errors.rootstock = true ∧ (leAt b 2 1 = 1 ∨ leAt b 2 1 = 4)

theorem State.not_barsRecord_of_rootstock (h : s.errors.rootstock = false) : ¬ s.barsRecord b :=
  fun hb => Bool.eq_false_iff.mp h hb.1

theorem State.not_barsRecord_of_op (h : leAt b 2 1 = 0 ∨ leAt b 2 1 = 2 ∨ leAt b 2 1 = 3 ∨ 4 < leAt b 2 1) : ¬ s.barsRecord b :=
  fun ⟨_, hb⟩ => by omega

theorem putQueueRecord_barred (h : s.barsRecord b) : putQueueRecord addr (some b) s = (0x06, s.readRecord addr 64) :=
  if_pos (by simpa using (show (s.readRecord addr 64).barsRecord b from h))

theorem putQueueRecord_taken (h : ¬ s.barsRecord b) :
    putQueueRecord addr (some b) s = (0x00, (s.readRecord addr 64).takeRecord (1, b)) :=
  if_neg (mt (fun h => by simpa using h : _ → (s.readRecord addr 64).barsRecord b) h)

end

section
variable {b : Bytes} {u : State}

theorem State.queueRecord_create (h : leAt b 2 1 = 1) : s.queueRecord b = s.createQueue b := by
  simp only [State.queueRecord, h]

theorem State.queueRecord_destroy (h : leAt b 2 1 = 2) : s.queueRecord b = s.destroyQueue b := by
  simp only [State.queueRecord, h]

theorem State.queueRecord_stop (h : leAt b 2 1 = 3) : s.queueRecord b = s.stopQueue b := by
  simp only [State.queueRecord, h]

theorem State.queueRecord_start (h : leAt b 2 1 = 4) : s.queueRecord b = s.startQueue b := by
  simp only [State.queueRecord, h]

theorem State.queueRecord_malformed (h : leAt b 2 1 = 0 ∨ 4 < leAt b 2 1) : s.queueRecord b = (some 1, s) := by
  unfold State.queueRecord
  split
  · omega
  · omega
  · omega
  · omega
  · rfl

/-! The checks of a create, in their order (R405) -/

theorem State.createQueue_malformed (hb : createBad b = true) : s.createQueue b = (some 1, s) := if_pos hb

section
variable (hb : createBad b = false)
include hb

/-- The number or the function's local index of a create is taken. -/
abbrev State.takenBy (s : State) (b : Bytes) : Prop :=
  s.queue? (leAt b 0 2) ≠ none ∨ s.localQueue (queueOf b).fn (queueOf b).localQ ≠ none

theorem State.createQueue_inUse (ht : s.takenBy b) : s.createQueue b = (some 2, s) :=
  (if_neg (Bool.eq_false_iff.mp hb)).trans (if_pos (by simpa [Option.isSome_iff_ne_none] using ht))

variable (ht : ¬ s.takenBy b)
include ht

theorem State.createQueue_limit (hl : 256 ≤ (s.queuesOfFn (queueOf b).fn).length) : s.createQueue b = (some 4, s) :=
  (if_neg (Bool.eq_false_iff.mp hb)).trans
    ((if_neg (by simpa [Option.isSome_iff_ne_none] using ht)).trans (if_pos hl))

variable (hl : ¬ 256 ≤ (s.queuesOfFn (queueOf b).fn).length)
include hl

/-- A bight may not be used by the queues of a function: it is free, or it is neither the function's nor function 0's (R405). -/
abbrev Bight.closedTo (x : Bight) (fn : Nat) : Prop := x.state = .free ∨ (x.owner ≠ fn ∧ x.owner ≠ 0)

/-- What a create does once its context is read. -/
def createAfter (x : Bight) (n : Nat) (q : Queue) : Option (Option Nat) × State → Option Nat × State
  | (none, s) => (none, s)
  | (some owner, s) =>
    if owner ≠ some q.fn then (some opContext, s)
    else if x.closedTo q.fn then (some opBight, s)
    else if s.torn q.asid then (some opBusy, s)
    else (some opOk, s.setQueue n q)

theorem State.createQueue_checked : s.createQueue b =
    createAfter (s.bight (queueOf b).bight) (leAt b 0 2) (queueOf b) (s.readContext (queueOf b).asid) := by
  refine (if_neg (Bool.eq_false_iff.mp hb)).trans
    ((if_neg (by simpa [Option.isSome_iff_ne_none] using ht)).trans ((if_neg hl).trans ?_))
  obtain ⟨_ | owner, u⟩ := s.readContext (queueOf b).asid <;> rfl

end

section
variable {x : Bight} {n : Nat} {q : Queue} {owner : Option Nat}

theorem createAfter_context (ho : owner ≠ some q.fn) : createAfter x n q (some owner, u) = (some 5, u) := if_pos ho

variable (ho : owner = some q.fn)
include ho

theorem createAfter_bight (hx : x.closedTo q.fn) : createAfter x n q (some owner, u) = (some 6, u) :=
  (if_neg (not_not.mpr ho)).trans (if_pos hx)

variable (hx : ¬ x.closedTo q.fn)
include hx

theorem createAfter_busy (ht : u.torn q.asid = true) : createAfter x n q (some owner, u) = (some 7, u) :=
  (if_neg (not_not.mpr ho)).trans ((if_neg hx).trans (if_pos ht))

theorem createAfter_made (ht : u.torn q.asid = false) : createAfter x n q (some owner, u) = (some 0, u.setQueue n q) :=
  (if_neg (not_not.mpr ho)).trans ((if_neg hx).trans (if_neg (Bool.eq_false_iff.mp ht)))

end

/-! An operation on a queue that exists (R404, R409) -/

section
variable {f : Nat → Queue → Nat × State}

theorem State.onQueue_malformed (h : 4096 ≤ leAt b 0 2) : s.onQueue b f = (some 1, s) := by
  unfold State.onQueue
  dsimp only
  rw [if_pos h]
  rfl

variable (h : leAt b 0 2 < 4096)
include h

theorem State.onQueue_missing (hq : s.queue? (leAt b 0 2) = none) : s.onQueue b f = (some 3, s) := by
  unfold State.onQueue
  dsimp only
  rw [if_neg (Nat.not_le.mpr h), hq]
  rfl

theorem State.onQueue_found {q : Queue} (hq : s.queue? (leAt b 0 2) = some q) :
    s.onQueue b f = (some (f (leAt b 0 2) q).1, (f (leAt b 0 2) q).2) := by
  unfold State.onQueue
  dsimp only
  rw [if_neg (Nat.not_le.mpr h), hq]

theorem State.destroyQueue_busy {q : Queue} (hq : s.queue? (leAt b 0 2) = some q)
    (hbusy : q.running = true ∨ q.cmds ≠ [] ∨ s.torn q.asid = true) : s.destroyQueue b = (some 7, s) := by
  unfold State.destroyQueue
  rw [State.onQueue_found h hq, if_pos (by simpa [or_assoc] using hbusy)]
  rfl

theorem State.destroyQueue_idle {q : Queue} (hq : s.queue? (leAt b 0 2) = some q) (hrun : q.running = false) (hcmds : q.cmds = [])
    (htorn : s.torn q.asid = false) : s.destroyQueue b = (some 0, { s with queues := Tab.erase s.queues (leAt b 0 2) }) := by
  unfold State.destroyQueue
  rw [State.onQueue_found h hq, if_neg (by simp [hrun, hcmds, htorn])]
  rfl

theorem State.stopQueue_found {q : Queue} (hq : s.queue? (leAt b 0 2) = some q) :
    s.stopQueue b = (some 0, s.setQueue (leAt b 0 2) { q with running := false }) := State.onQueue_found h hq

theorem State.startQueue_found {q : Queue} (hq : s.queue? (leAt b 0 2) = some q) :
    s.startQueue b = (some 0, s.setQueue (leAt b 0 2) { q with running := true }) := State.onQueue_found h hq

end

/-- An operation on a queue answers MALFORMED or NOT_FOUND whichever of the three it is. -/
theorem State.queueRecord_of_no_queue (hop : leAt b 2 1 = 2 ∨ leAt b 2 1 = 3 ∨ leAt b 2 1 = 4) :
    (4096 ≤ leAt b 0 2 → s.queueRecord b = (some 1, s)) ∧
    (leAt b 0 2 < 4096 → s.queue? (leAt b 0 2) = none → s.queueRecord b = (some 3, s)) := by
  obtain ⟨f, hf⟩ : ∃ f, s.queueRecord b = s.onQueue b f := by
    rcases hop with hop | hop | hop
    · exact ⟨_, State.queueRecord_destroy hop⟩
    · exact ⟨_, State.queueRecord_stop hop⟩
    · exact ⟨_, State.queueRecord_start hop⟩
  rw [hf]
  exact ⟨State.onQueue_malformed, State.onQueue_missing⟩

end

/-! ### DOORBELL (R407, R410) -/

section
variable {fn i : Nat} {v : Word}

theorem doorbell_closed (h : 64 ≤ fn ∨ 256 ≤ i ∨ s.regsOpen fn = false) : exec (.doorbell fn i v) s = .next s := by
  refine congrArg Host.Outcome.next ?_
  rcases h with h | h | h
  · exact if_neg (by simp [h])
  · exact if_neg (by simp [h])
  · split
    · exact if_neg (Bool.eq_false_iff.mp h)
    · rfl

theorem doorbell_open (hfn : fn < 64) (hi : i < 256) (h : s.regsOpen fn = true) :
    exec (.doorbell fn i v) s = .next (s.ringDoorbell fn i (v.setWidth 32)) :=
  congrArg Host.Outcome.next ((if_pos (by simp [hfn, hi])).trans (if_pos h))

variable {n : Nat} {q : Queue} {t : BitVec 32}

theorem State.stopPowered_mgmt (s : State) : s.stopPowered stopMgmt = true := by
  have h : domainOfStop stopMgmt = some domMgmt := by simp [domainOfStop, stopMgmt]
  simp only [State.stopPowered, h, beq_self_eq_true, Bool.true_or]

/-- A DOORBELL message of a function's port with the queue and the TAIL (R410). -/
def State.doorbellMsg (s : State) (fn n : Nat) (t : BitVec 32) : State :=
  s.lanCarry 0 stopMgmt (stopPcie (s.portOfFn fn)) (doorbellFlits n t)

/-- The management processor is always powered: the message is carried (R238). -/
theorem State.doorbellMsg_eq (fn n : Nat) (t : BitVec 32) : s.doorbellMsg fn n t = { s with mesh := { s.mesh with
    carried := { ty := 0, dest := stopMgmt, src := stopPcie (s.portOfFn fn), high := false
                 payload := [BitVec.ofNat 32 (n * 2 ^ 20), t], at' := s.now } :: s.mesh.carried } } := by
  unfold State.doorbellMsg State.lanCarry
  rw [if_pos s.stopPowered_mgmt]
  rfl

/-- The queue that a DOORBELL message names. -/
theorem doorbell_queue (hn : n < 4096) (t : BitVec 32) : fieldN ((doorbellFlits n t).getD 0 0).toNat 20 12 = n := by
  have hflit : (doorbellFlits n t).getD 0 0 = BitVec.ofNat 32 (n * 2 ^ 20) := rfl
  rw [hflit, BitVec.toNat_ofNat]
  unfold fieldN
  omega

theorem takesTail_iff : q.takesTail t = true ↔ t ≠ q.tail ∧ (t - q.tail).toNat + (q.tail - q.head).toNat ≤ 2 ^ q.size := by
  have hpos : 0 < (t - q.tail).toNat ↔ t ≠ q.tail := by bv_omega
  unfold Queue.takesTail
  rw [Bool.and_eq_true, decide_eq_true_eq, decide_eq_true_eq, hpos]

/-- A new TAIL lies ahead of a queue that is served (R407). -/
abbrev State.ahead (s : State) (q : Queue) (t : BitVec 32) : Prop :=
  s.served q = true ∧ t ≠ q.tail ∧ (t - q.tail).toNat + (q.tail - q.head).toNat ≤ 2 ^ q.size

theorem State.ringDoorbell_found (hl : s.localQueue fn i = some (n, q)) (hn : n < 4096) (hq : s.queue? n = some q) :
    s.ringDoorbell fn i t = if s.served q = true ∧ q.takesTail t = true then (s.doorbellMsg fn n t).setQueue n { q with tail := t }
      else (s.doorbellMsg fn n t).dropDoorbell fn := by
  unfold State.ringDoorbell
  rw [hl]
  dsimp only
  unfold State.takeDoorbell
  dsimp only
  rw [doorbell_queue hn]
  have hq' : (s.doorbellMsg fn n t).queue? n = some q := hq
  have hserved : (s.doorbellMsg fn n t).served q = s.served q := rfl
  unfold State.doorbellMsg at *
  rw [hq', ← hserved]
  exact if_congr (iff_of_eq (Bool.and_eq_true ..)) rfl rfl

theorem State.ringDoorbell_missing (hl : s.localQueue fn i = none) : s.ringDoorbell fn i t = s.dropDoorbell fn := by
  unfold State.ringDoorbell
  rw [hl]

/-- A dropped doorbell is counted with its function and with the module (R407, R433). -/
theorem State.dropDoorbell_spec (s : State) (fn : Nat) : ((s.dropDoorbell fn).fn fn).errDoorbell = satInc16 (s.fn fn).errDoorbell ∧
    (s.dropDoorbell fn).host.doorbellsDropped = s.host.doorbellsDropped + 1 ∧ (s.dropDoorbell fn).queues = s.queues :=
  ⟨congrArg Fn.errDoorbell (State.fn_setFn_self ..), rfl, rfl⟩

end

/-! ### DESCRIPTOR_FETCH (R406, R413, R429) -/

section
variable {n : Nat} {q : Queue} {b : Bytes} {answer : HostAns}

/-- The descriptor at a queue's HEAD is asked for. -/
def State.askDescriptor (s : State) (q : Queue) : State :=
  s.send (.hostRead q.fn (s.portOfFn q.fn) (q.ring + 128 * (q.head.toNat % 2 ^ q.size)) 128)

theorem descriptorFetch_of_no_queue (h : s.queue? n = none) : exec (.descriptorFetch n answer) s = .next s := by
  show execDescriptorFetch n answer s = _
  unfold execDescriptorFetch
  rw [h]

section
variable (hq : s.queue? n = some q)
include hq

theorem descriptorFetch_held (h : s.mayFetch q = false) : exec (.descriptorFetch n answer) s = .next s := by
  show execDescriptorFetch n answer s = _
  unfold execDescriptorFetch
  rw [hq]
  exact congrArg _ (if_pos (by rw [h]; rfl))

theorem descriptorFetch_error (h : s.mayFetch q = true) :
    exec (.descriptorFetch n none) s = .next ((s.askDescriptor q).fetchError n q) := by
  show execDescriptorFetch n none s = _
  unfold execDescriptorFetch
  rw [hq]
  exact congrArg _ (if_neg (by rw [h]; decide))

theorem descriptorFetch_taken (h : s.mayFetch q = true) : exec (.descriptorFetch n (some b)) s =
    .next ((s.askDescriptor q).takeDescriptor n q (slice b 0 128)) := by
  show execDescriptorFetch n (some b) s = _
  unfold execDescriptorFetch
  rw [hq]
  exact congrArg _ (if_neg (by rw [h]; decide))

end

theorem State.queues_hostWrite (k addr : Nat) (d : Bytes) : (s.hostWrite k addr d).queues = s.queues := by
  obtain ⟨_, _, h⟩ := s.toHost_hostWrite k addr d
  rw [h]

theorem State.malformed_hostWrite (k addr : Nat) (d : Bytes) : (s.hostWrite k addr d).host.malformed = s.host.malformed := by
  obtain ⟨_, _, h⟩ := s.toHost_hostWrite k addr d
  rw [h]

/-- A well-formed descriptor moves HEAD and the sequence on, and its command joins the queue. -/
theorem State.takeDescriptor_good {c : Cmd} (h : s.commandOf q.fn n q.next b = (true, c)) :
    (s.takeDescriptor n q b).queue? n =
      some { q with head := q.head + 1, next := (q.next + 1) % 2 ^ 36, cmds := q.cmds ++ [c] } ∧
    (s.takeDescriptor n q b).host.malformed = s.host.malformed := by
  unfold State.takeDescriptor
  rw [h]
  dsimp only
  rw [if_pos rfl]
  split
  · exact ⟨(State.queue_setQueue ..).trans (if_pos rfl), rfl⟩
  · refine ⟨?_, State.malformed_hostWrite ..⟩
    refine (congrArg (Tab.find? · n) (State.queues_hostWrite ..)).trans ?_
    exact (State.queue_setQueue ..).trans (if_pos rfl)

end

/-! ### IRQ_CAUSE_CLEAR and FUNCTION_PORT_WRITE (R391, R395) -/

section
variable {fn : Nat}

theorem irqCauseClear_closed {v : Word} (h : 64 ≤ fn ∨ s.regsOpen fn = false) : exec (.irqCauseClear fn v) s = .next s := by
  refine congrArg Host.Outcome.next ?_
  rcases h with h | h
  · exact if_neg (Nat.not_lt.mpr h)
  · split
    · exact if_neg (Bool.eq_false_iff.mp h)
    · rfl

theorem irqCauseClear_open {v : Word} (hfn : fn < 64) (h : s.regsOpen fn = true) :
    exec (.irqCauseClear fn v) s = .next (s.putIrqCause fn v) :=
  congrArg Host.Outcome.next ((if_pos hfn).trans (if_pos h))

/-- The written bits of MG_IRQ_CAUSE are cleared. -/
theorem State.fn_putIrqCause (v : Word) (k : Nat) : (s.putIrqCause fn v).fn k =
    if k = fn then { s.fn fn with irqCause := (s.fn fn).irqCause &&& ~~~(v.extractLsb' 0 6) } else s.fn k := by
  unfold State.putIrqCause State.modFn
  rw [State.fn_setFn, ← BitVec.setWidth_eq_extractLsb' (by decide)]

theorem functionPortWrite_none {via : Via} {v : BitVec 8} (h : fn = 0 ∨ 63 < fn) :
    exec (.functionPortWrite via fn v) s = .next s :=
  congrArg Host.Outcome.next (if_neg (by omega))

theorem answers_functionPortWrite {via : Via} {v : BitVec 8} (hserves : Serves s via false true) (h1 : 1 ≤ fn) (h63 : fn ≤ 63)
    {code : Nat} {t : State} (h : putFunctionPort fn v s = (code, t)) : Answers (.functionPortWrite via fn v) s via code t :=
  answers_of_objWrite hserves
    (show exec (.functionPortWrite via fn v) s = .next (s.objWrite via false true (putFunctionPort fn v)) from
      congrArg Host.Outcome.next (if_pos ⟨h1, h63⟩)) h

theorem putFunctionPort_range {v : BitVec 8} (h : 1 < v.toNat) : putFunctionPort fn v s = (0x05, s) := if_pos h

theorem putFunctionPort_refused {v : BitVec 8} (h : v.toNat ≤ 1) (hvf : s.host.vfEnabled ≠ []) :
    putFunctionPort fn v s = (0x06, s) :=
  (if_neg (Nat.not_lt.mpr h)).trans (if_pos (by simpa using hvf))

theorem putFunctionPort_set {v : BitVec 8} (h : v.toNat ≤ 1) (hvf : s.host.vfEnabled = []) :
    putFunctionPort fn v s = (0x00, s.modFn fn fun f => { f with port := v.toNat }) :=
  (if_neg (Nat.not_lt.mpr h)).trans (if_neg (by simp [hvf]))

end

end
end Sys2Proof.Machine

section
open Sys2Proof Sys2Proof.Machine Sys2Proof.Claims

/-- Settles O45: a record by its operation and that operation's checks in order, and each other command by its conditions. -/
theorem queuesAndDoorbells : Obligations.QueuesAndDoorbells := by
  refine ⟨fun s via addr answer hserves => ?records, fun s fn i v => ⟨doorbell_closed, fun hfn hi h => ?doorbell⟩,
    fun s n answer => ⟨descriptorFetch_of_no_queue, fun q hq => ?fetch⟩,
    fun s fn v => ⟨irqCauseClear_closed, fun hfn h => ⟨_, irqCauseClear_open hfn h, State.fn_putIrqCause v, rfl⟩⟩,
    fun s via fn v => ⟨functionPortWrite_none, fun h1 h63 hserves => ?port⟩⟩
  case records =>
    intro does
    suffices h : ∀ c, exec c s = .next (s.objWrite via false false (putQueueRecord addr.toNat answer)) → does c from
      ⟨h _ rfl, h _ rfl, h _ rfl, h _ rfl⟩
    intro c hc
    dsimp -zeta only [does]
    intro s0 s1 ends waits barredOp
    have hanswer {code : Nat} {t : State} : putQueueRecord addr.toNat answer s = (code, t) → Answers c s via code t :=
      answers_of_objWrite hserves hc
    refine ⟨fun ha => hanswer (ha ▸ putQueueRecord_error), fun b ha hbar => hanswer (ha ▸ putQueueRecord_barred hbar),
      fun b ha hbar hw => hanswer (ha ▸ (putQueueRecord_taken hbar).trans (congrArg _ (State.takeRecord_waits hw))),
      fun b ha hw => ?_⟩
    intro op n q x taken full barred
    have hrecord {r : Option Nat × State} (hbar : ¬ s.barsRecord b) (hr : s1.queueRecord b = r) :
        Answers c s via 0x00 (afterRecord 1 b r) := by
      refine hanswer (ha ▸ (putQueueRecord_taken hbar).trans (congrArg _ ?_))
      exact (State.takeRecord_done (s := s.readRecord addr.toNat 64) hw).trans
        ((State.doRecord_queue b).trans (congrArg (afterRecord 1 b) hr))
    have hdestroy (hop : op = 2) {r : Option Nat × State} (hr : s1.destroyQueue b = r) : Answers c s via 0x00 (afterRecord 1 b r) :=
      hrecord (State.not_barsRecord_of_op (.inr (.inl hop))) ((State.queueRecord_destroy hop).trans hr)
    refine ⟨fun hroot hop => ?create, fun hop => ?missing, fun y hn hy => ⟨fun hop hbusy => ?busy,
      fun hop hrun hcmds htorn => ?idle, fun hop => ?stop, fun hop hroot => ?start⟩, fun hop => ?malformed⟩
    case create =>
      have hcreate {r : Option Nat × State} (hr : s1.createQueue b = r) : Answers c s via 0x00 (afterRecord 1 b r) :=
        hrecord (State.not_barsRecord_of_rootstock hroot) ((State.queueRecord_create hop).trans hr)
      refine ⟨fun hb => hcreate (State.createQueue_malformed hb), fun hb ht => hcreate (State.createQueue_inUse hb ht),
        fun hb ht hl => hcreate (State.createQueue_limit hb ht hl), fun hb ht hl => ?_⟩
      have hchecked {u : State} {o : Option (Option Nat)} {r : Option Nat × State} (hread : s1.readContext q.asid = (o, u))
          (hr : createAfter x n q (o, u) = r) : Answers c s via 0x00 (afterRecord 1 b r) :=
        hcreate ((State.createQueue_checked hb ht hl).trans ((congrArg _ hread).trans hr))
      exact ⟨fun u hread => hchecked hread rfl, fun o u hread => ⟨fun ho => hchecked hread (createAfter_context ho),
        fun ho hx => hchecked hread (createAfter_bight ho hx), fun ho hx ht => hchecked hread (createAfter_busy ho hx ht),
        fun ho hx ht => hchecked hread (createAfter_made ho hx ht)⟩⟩
    case missing =>
      have hbar : ¬ s.barsRecord b := by
        rcases hop with hop | hop | ⟨-, hroot⟩
        · exact State.not_barsRecord_of_op (.inr (.inl hop))
        · exact State.not_barsRecord_of_op (.inr (.inr (.inl hop)))
        · exact State.not_barsRecord_of_rootstock hroot
      have hop' : leAt b 2 1 = 2 ∨ leAt b 2 1 = 3 ∨ leAt b 2 1 = 4 := hop.imp_right (Or.imp_right And.left)
      exact ⟨fun hn => hrecord hbar ((State.queueRecord_of_no_queue hop').1 hn),
        fun hn hnone => hrecord hbar ((State.queueRecord_of_no_queue hop').2 hn hnone)⟩
    case busy => exact hdestroy hop (State.destroyQueue_busy hn hy hbusy)
    case idle => exact hdestroy hop (State.destroyQueue_idle hn hy hrun hcmds htorn)
    case stop =>
      exact hrecord (State.not_barsRecord_of_op (.inr (.inr (.inl hop))))
        ((State.queueRecord_stop hop).trans (State.stopQueue_found hn hy))
    case start =>
      exact hrecord (State.not_barsRecord_of_rootstock hroot) ((State.queueRecord_start hop).trans (State.startQueue_found hn hy))
    case malformed =>
      exact hrecord (State.not_barsRecord_of_op (hop.imp_right fun h => .inr (.inr h))) (State.queueRecord_malformed hop)
  case doorbell =>
    have hring : exec (.doorbell fn i v) s = .next (s.ringDoorbell fn i (v.setWidth 32)) := doorbell_open hfn hi h
    refine ⟨fun n q hf ha => ?rung, fun hd => ⟨_, hring, ?dropped⟩⟩
    case rung =>
      obtain ⟨hl, hn, hq⟩ := hf
      obtain ⟨hserved, htail⟩ := ha
      rw [hring, State.ringDoorbell_found hl hn hq, if_pos ⟨hserved, takesTail_iff.mpr htail⟩, State.doorbellMsg_eq]
    case dropped =>
      rcases hd with hl | ⟨n, q, ⟨hl, hn, hq⟩, ha⟩
      · rw [State.ringDoorbell_missing hl]
        exact s.dropDoorbell_spec fn
      · rw [State.ringDoorbell_found hl hn hq, if_neg fun ht => ha ⟨ht.1, takesTail_iff.mp ht.2⟩]
        exact (s.doorbellMsg fn n _).dropDoorbell_spec fn
  case fetch =>
    refine ⟨descriptorFetch_held hq, fun hf ha => ha ▸ descriptorFetch_error hq hf, fun b hf ha => ?_⟩
    have htaken : exec (.descriptorFetch n answer) s = .next ((s.askDescriptor q).takeDescriptor n q (slice b 0 128)) :=
      ha ▸ descriptorFetch_taken hq hf
    exact ⟨htaken, fun c hc => ⟨_, htaken, State.takeDescriptor_good (s := s.askDescriptor q) hc⟩⟩
  case port =>
    have hanswer {code : Nat} {t : State} : putFunctionPort fn v s = (code, t) →
        Answers (.functionPortWrite via fn v) s via code t :=
      answers_functionPortWrite hserves h1 h63
    exact ⟨fun hv => hanswer (putFunctionPort_range hv), fun hv hvf => hanswer (putFunctionPort_refused hv hvf),
      fun hv hvf => ⟨_, hanswer (putFunctionPort_set hv hvf), congrArg Fn.port (State.fn_setFn_self ..),
        fun k hk => (State.fn_setFn ..).trans (if_neg hk)⟩⟩

end

namespace Sys2Proof.Machine
open Sys2Proof.Claims

section
variable {s : State}

/-! ### FENCE_CREATE and FENCE_DESTROY (R418, R419, R421, R425) -/

section
variable {addr : Nat} {b : Bytes} {u : State}

theorem putFenceRecord_error : putFenceRecord addr none s = (0x00, ((s.readRecord addr 32).aer 0).reportOp 2 8) := rfl

theorem putFenceRecord_taken : putFenceRecord addr (some b) s = (0x00, (s.readRecord addr 32).takeRecord (2, b)) := rfl

theorem State.fenceRecord_create (h : leAt b 2 1 = 1) : s.fenceRecord b = s.createFence b := by simp only [State.fenceRecord, h]

theorem State.fenceRecord_destroy (h : leAt b 2 1 = 2) : s.fenceRecord b = s.destroyFence b := by simp only [State.fenceRecord, h]

theorem State.fenceRecord_malformed (h1 : leAt b 2 1 ≠ 1) (h2 : leAt b 2 1 ≠ 2) : s.fenceRecord b = (some 1, s) := by
  unfold State.fenceRecord
  split
  · contradiction
  · contradiction
  · rfl

/-! The checks of a create, in their order (R419) -/

theorem State.createFence_malformed (hb : fenceBad b = true) : s.createFence b = (some 1, s) := if_pos hb

section
variable (hb : fenceBad b = false)
include hb

theorem State.createFence_inUse (hl : s.fenceLive (leAt b 0 2) = true) : s.createFence b = (some 2, s) :=
  (if_neg (Bool.eq_false_iff.mp hb)).trans (if_pos hl)

/-- The fence that a record creates; its incarnation follows the number's last one (R425). -/
def State.fenceOf (s : State) (b : Bytes) : Fence :=
  { word := BitVec.ofNat 64 (leAt b 0x10 8), last := BitVec.ofNat 64 (leAt b 0x10 8), asid := leAt b 4 2
    flags := BitVec.ofNat 8 (leAt b 3 1), vector := leAt b 6 1, mirror := leAt b 8 8, share := BitVec.ofNat 64 (leAt b 0x18 8)
    live := true, incarnation := ((s.fence? (leAt b 0 2)).map (·.incarnation)).getD 0 + 1 }

/-- A fence is made, and its mirror in the owner's memory with it. -/
def State.makeFence (s : State) (b : Bytes) (owner : Nat) : State :=
  let t := s.setFence (leAt b 0 2) (s.fenceOf b)
  if leAt b 8 8 = 0 then t else t.hostWrite owner (leAt b 8 8) (wordBytes (BitVec.ofNat 64 (leAt b 0x10 8)))

variable (hl : s.fenceLive (leAt b 0 2) = false)
include hl

theorem State.createFence_held (hr : s.readContext (leAt b 4 2) = (none, u)) : s.createFence b = (none, u) := by
  refine (if_neg (Bool.eq_false_iff.mp hb)).trans ((if_neg (Bool.eq_false_iff.mp hl)).trans ?_)
  rw [hr]

theorem State.createFence_context (hr : s.readContext (leAt b 4 2) = (some none, u)) : s.createFence b = (some 5, u) := by
  refine (if_neg (Bool.eq_false_iff.mp hb)).trans ((if_neg (Bool.eq_false_iff.mp hl)).trans ?_)
  rw [hr]
  rfl

variable {owner : Nat} (hr : s.readContext (leAt b 4 2) = (some (some owner), u))
include hr

theorem State.createFence_busy (ht : u.torn (leAt b 4 2) = true) : s.createFence b = (some 7, u) := by
  refine (if_neg (Bool.eq_false_iff.mp hb)).trans ((if_neg (Bool.eq_false_iff.mp hl)).trans ?_)
  rw [hr]
  exact if_pos ht

theorem State.createFence_made (ht : u.torn (leAt b 4 2) = false) : s.createFence b = (some 0, u.makeFence b owner) := by
  refine (if_neg (Bool.eq_false_iff.mp hb)).trans ((if_neg (Bool.eq_false_iff.mp hl)).trans ?_)
  rw [hr]
  exact if_neg (Bool.eq_false_iff.mp ht)

end

theorem State.fence_makeFence (owner g : Nat) :
    (s.makeFence b owner).fence? g = if g = leAt b 0 2 then some (s.fenceOf b) else s.fence? g := by
  refine Eq.trans (congrArg (Tab.find? · g) ?_) (s.fence_setFence (leAt b 0 2) g (s.fenceOf b))
  unfold State.makeFence
  extract_lets t
  split
  · rfl
  · exact State.fences_hostWrite ..

/-! A destroy: the fence breaks, and its number is free (R421, R425) -/

theorem State.destroyFence_malformed (h : leAt b 0 2 = 0xFFFF) : s.destroyFence b = (some 1, s) := if_pos h

theorem State.destroyFence_missing (h : leAt b 0 2 ≠ 0xFFFF) (hl : s.fenceLive (leAt b 0 2) = false) :
    s.destroyFence b = (some 3, s) :=
  (if_neg h).trans (if_pos (by rw [hl]; rfl))

/-- What a broken fence holds: an already broken one stays as it is (R421). -/
def Fence.broken (x : Fence) (code : Nat) (detail : BitVec 24) : Fence :=
  if fenceBroken x.word then x else x.setTo (brokenWord code detail)

theorem Fence.word_broken (x : Fence) (code : Nat) (detail : BitVec 24) :
    (x.broken code detail).word = if x.word.getLsbD 63 then x.word else brokenWord code detail := by
  unfold Fence.broken
  exact apply_ite Fence.word ..

theorem State.fence_breakFence {f inc code : Nat} {detail : BitVec 24} {x : Fence} (hf : s.liveFence f inc = some x)
    (hx : s.fence? f = some x) (g : Nat) :
    (s.breakFence f inc code detail).fence? g = if g = f then some (x.broken code detail) else s.fence? g := by
  unfold State.breakFence Fence.broken
  rw [hf]
  dsimp only
  split
  · split
    · next hg => rw [hg, hx]
    · rfl
  · exact State.fence_fenceSet ..

theorem State.liveFence_self {f : Nat} {x : Fence} (hx : s.fence? f = some x) (hl : x.live = true) :
    s.liveFence f x.incarnation = some x := by
  unfold State.liveFence
  rw [hx]
  exact if_pos (by simp [hl])

/-- A live fence that is destroyed is broken with OWNER_GONE and no longer live; no other fence changes. -/
theorem State.destroyFence_live {x : Fence} (h : leAt b 0 2 ≠ 0xFFFF) (hx : s.fence? (leAt b 0 2) = some x) (hl : x.live = true) :
    ∃ t, s.destroyFence b = (some 0, t) ∧ ∀ g, t.fence? g =
      if g = leAt b 0 2 then some { x.broken codeOwnerGone (detailAsid x.asid) with live := false } else s.fence? g := by
  have hlive : s.fenceLive (leAt b 0 2) = true := by
    unfold State.fenceLive
    rw [hx]
    exact hl
  have hbreak := State.fence_breakFence (code := codeOwnerGone) (detail := detailAsid x.asid) (State.liveFence_self hx hl) hx
  refine ⟨(s.breakFence (leAt b 0 2) x.incarnation codeOwnerGone (detailAsid x.asid)).setFence (leAt b 0 2)
    { x.broken codeOwnerGone (detailAsid x.asid) with live := false },
    (if_neg h).trans ((if_neg (by simp [hlive])).trans ?_), fun g => ?_⟩
  · rw [hx]
    dsimp only
    rw [hbreak, if_pos rfl]
    rfl
  · refine (State.fence_setFence ..).trans ?_
    split
    · rfl
    · next hg => exact (hbreak g).trans (if_neg hg)

end

/-! ### ERROR_FENCE_WRITE (R417, R424) -/

section
variable {via : Via} {b : Nat} {v : BitVec 16}

theorem errorFenceWrite_none (h : 256 ≤ b) : exec (.errorFenceWrite via b v) s = .next s :=
  congrArg Host.Outcome.next (if_neg (Nat.not_lt.mpr h))

theorem answers_errorFenceWrite (hserves : Serves s via false false) (hb : b < 256) {code : Nat} {t : State}
    (h : putErrorFence b v s = (code, t)) : Answers (.errorFenceWrite via b v) s via code t :=
  answers_of_objWrite hserves
    (show exec (.errorFenceWrite via b v) s = .next (s.objWrite via false false (putErrorFence b v)) from
      congrArg Host.Outcome.next (if_pos hb)) h

theorem putErrorFence_none (hb : (s.bight b).state ≠ .free) (hv : v = 0xFFFF) :
    putErrorFence b v s = (0x00, s.modBight b fun x => { x with errorFence := none }) := by
  subst hv
  exact (if_neg hb).trans (if_pos rfl)

theorem putErrorFence_bound (hb : (s.bight b).state ≠ .free) (hv : v ≠ 0xFFFF)
    (hf : s.mayUseFence (s.bight b).owner v.toNat = true) :
    putErrorFence b v s = (0x00, s.modBight b fun x => { x with errorFence := s.bindFence v.toNat }) :=
  (if_neg hb).trans ((if_neg fun h => hv (BitVec.eq_of_toNat_eq h)).trans (if_pos hf))

theorem putErrorFence_refused (hnone : ¬ ((s.bight b).state ≠ .free ∧ v = 0xFFFF))
    (hmay : ¬ ((s.bight b).state ≠ .free ∧ s.mayUseFence (s.bight b).owner v.toNat = true)) :
    putErrorFence b v s = (0x06, s) := by
  by_cases hfree : (s.bight b).state = .free
  · exact if_pos hfree
  · exact (if_neg hfree).trans ((if_neg fun h => hnone ⟨hfree, BitVec.eq_of_toNat_eq h⟩).trans (if_neg fun h => hmay ⟨hfree, h⟩))

end

/-! ### PCIE_LINK_DOWN and PERST_PORT_1 (R429, R639) -/

/-- The queues, and the PCIe ports whose link is up. -/
def State.hostSide (s : State) : Tab Queue × List Nat := (s.queues, s.host.linkUp)

section
variable (s)

theorem State.hostSide_refKey (r : Req) (up : Bool) : (s.refKey r up).hostSide = s.hostSide := by
  unfold State.refKey
  split
  · split <;> rfl
  · rfl

theorem State.hostSide_ungate (ids : List Nat) : (s.ungate ids).hostSide = s.hostSide :=
  view_foldl State.hostSide (f := fun (s : State) x => s.oweCredit x) (fun _ _ => rfl) _ _

theorem State.hostSide_abandonReqs (p : Req → Bool) : (s.abandonReqs p).hostSide = s.hostSide :=
  (State.hostSide_ungate ..).trans (view_foldl State.hostSide (fun s r => s.hostSide_refKey r false) _ s)

theorem State.hostSide_settle (id : Nat) (res : ReqResult) : (s.settle id res).hostSide = s.hostSide := by
  unfold State.settle
  split
  · rfl
  · exact State.hostSide_refKey ..

theorem State.hostSide_lateResult (id : Nat) (res : ReqResult) : (s.lateResult id res).2.hostSide = s.hostSide := by
  unfold State.lateResult
  split
  · split <;> rfl
  · rfl

theorem State.hostSide_endAperture (r : Req) (fn : Nat) (res : ReqResult) : (s.endAperture r fn res).hostSide = s.hostSide := by
  unfold State.endAperture
  extract_lets dropped
  split
  · split <;> rfl
  · split <;> rfl

theorem State.hostSide_endReq (id : Nat) (res : ReqResult) : (s.endReq id res).hostSide = s.hostSide := by
  have hsettled : ((s.lateResult id res).2.settle id (s.lateResult id res).1).hostSide = s.hostSide :=
    (State.hostSide_settle ..).trans (State.hostSide_lateResult ..)
  unfold State.endReq
  dsimp only
  split
  · refine Eq.trans ?_ hsettled
    split
    · split <;> rfl
    · exact State.hostSide_endAperture ..
    · rfl
  · exact hsettled

theorem State.hostSide_arriveReq (id : Nat) (res : ReqResult) : (s.arriveReq id res).hostSide = s.hostSide := by
  unfold State.arriveReq
  split
  · rfl
  · split
    · exact State.hostSide_endReq ..
    · split
      · rfl
      · split
        · rfl
        · exact State.hostSide_endReq ..

theorem State.hostSide_bootArrive (req : Nat) (answer : HostAns) : (s.bootArrive req answer).hostSide = s.hostSide := by
  unfold State.bootArrive
  extract_lets _ image token _ _ told
  split
  · rfl
  · unfold told
    split <;> rfl

/-- The queues of a port stop, and its link is down. -/
theorem State.hostSide_pcieDown (port : Nat) : (s.pcieDown port).hostSide =
    (Tab.mapVals (fun _ q => if s.portOfFn q.fn == port then { q with running := false } else q) s.queues,
      without s.host.linkUp port) := by
  unfold State.pcieDown
  extract_lets on host stopped abandoned lost answered
  have hanswered : answered.hostSide = stopped.hostSide :=
    (view_foldl State.hostSide (fun s (r : Req) => s.hostSide_arriveReq r.id .hostError) lost abandoned).trans
      (State.hostSide_abandonReqs ..)
  split
  · exact (view_foldl State.hostSide (fun s r => s.hostSide_bootArrive r none) _ answered).trans hanswered
  · exact hanswered

theorem State.linkUp_pcieDown (port : Nat) : (s.pcieDown port).host.linkUp = without s.host.linkUp port :=
  congrArg Prod.snd (s.hostSide_pcieDown port)

end

theorem Tab.find?_mapVals {α β : Type} (f : Nat → α → β) (t : Tab α) (k : Nat) :
    Tab.find? (Tab.mapVals f t) k = (Tab.find? t k).map (f k) := by
  induction t with
  | nil => rfl
  | cons e t ih =>
    obtain ⟨j, v⟩ := e
    show (if j = k then some (f j v) else Tab.find? (Tab.mapVals f t) k) = (if j = k then some v else Tab.find? t k).map (f k)
    split
    · next h => rw [h]; rfl
    · exact ih

/-- A queue of the port stops, and any other stays as it is. -/
theorem State.queue_pcieDown {port n : Nat} {q : Queue} (hq : s.queue? n = some q) :
    (s.pcieDown port).queue? n = some (if s.portOfFn q.fn = port then { q with running := false } else q) := by
  have hqueues : (s.pcieDown port).queues = _ := congrArg Prod.fst (s.hostSide_pcieDown port)
  unfold State.queue?
  rw [hqueues, Tab.find?_mapVals]
  rw [show Tab.find? s.queues n = some q from hq, Option.map_some]
  exact congrArg some (if_congr beq_iff_eq rfl rfl)

section
variable {p : Nat}

theorem pcieLinkDown_none (h : p ∉ s.host.linkUp) : exec (.pcieLinkDown p) s = .next s :=
  congrArg Host.Outcome.next (if_neg (by simpa using h))

theorem pcieLinkDown_down (h : p ∈ s.host.linkUp) : exec (.pcieLinkDown p) s = .next (s.pcieDown p) :=
  congrArg Host.Outcome.next (if_pos (by simpa using h))

end

/-- Port 1 trains again (R639). -/
def State.train (s : State) : State :=
  { s with host := { s.host with linkUp := [0, 1].filter fun p => p == 1 || s.host.linkUp.contains p } }

theorem perstPort1_trains : exec .perstPort1 s = .next (s.pcieDown 1).train := rfl

theorem State.queue_train (n : Nat) : s.train.queue? n = s.queue? n := rfl

theorem State.mem_linkUp_train (p : Nat) : p ∈ s.train.host.linkUp ↔ p = 1 ∨ p = 0 ∧ 0 ∈ s.host.linkUp := by
  unfold State.train
  simp only [List.mem_filter, List.mem_cons, List.not_mem_nil, Bool.or_eq_true, beq_iff_eq, List.contains_iff_mem]
  constructor
  · rintro ⟨rfl | rfl | h, hp⟩
    · exact .inr ⟨rfl, hp.resolve_left (by decide)⟩
    · exact .inl rfl
    · exact h.elim
  · rintro (rfl | ⟨rfl, h⟩)
    · exact ⟨.inr (.inl rfl), .inl rfl⟩
    · exact ⟨.inl rfl, .inr h⟩

/-! ### PCIE_COMPLETION and COMPLETION_TIMEOUT (R429, R577) -/

section
variable {id : Nat} {answer : HostAns} {r : Req}

/-- What the end of a read of host memory brings: data, or a host error that is reported. -/
def State.hostReadEnds (s : State) (id : Nat) (answer : HostAns) : State :=
  match s.req? id with
  | some r =>
    if r.hostPending then
      match answer with
      | some d => s.arriveReq id (.data (slice d 0 r.len))
      | none => (s.aer r.hostFn).arriveReq id .hostError
    else s
  | none => s.bootArrive id answer

theorem pcieCompletion_ends : exec (.pcieCompletion id answer) s = .next (s.hostReadEnds id answer) := rfl

theorem completionTimeout_ends : exec (.completionTimeout id) s = .next (s.hostReadEnds id none) := rfl

theorem State.hostReadEnds_other (hr : s.req? id = some r) (hp : r.hostPending = false) : s.hostReadEnds id answer = s := by
  unfold State.hostReadEnds
  rw [hr]
  exact if_neg (Bool.eq_false_iff.mp hp)

theorem State.hostReadEnds_error (hr : s.req? id = some r) (hp : r.hostPending = true) :
    s.hostReadEnds id none = (s.aer r.hostFn).arriveReq id .hostError := by
  unfold State.hostReadEnds
  rw [hr]
  exact if_pos hp

theorem State.hostReadEnds_data {d : Bytes} (hr : s.req? id = some r) (hp : r.hostPending = true) :
    s.hostReadEnds id (some d) = s.arriveReq id (.data (slice d 0 r.len)) := by
  unfold State.hostReadEnds
  rw [hr]
  exact if_pos hp

theorem State.hostReadEnds_boot (hr : s.req? id = none) : s.hostReadEnds id answer = s.bootArrive id answer := by
  unfold State.hostReadEnds
  rw [hr]

/-! The reads of the boot ROM -/

theorem State.bootArrive_other (hi : s.boot.imageRead ≠ some id) (ht : s.boot.tokenRead ≠ some id) : s.bootArrive id answer = s :=
  if_pos (by simp [hi, ht])

/-- The answer of the boot ROM stands where its read was. -/
def Boot.answered (b : Boot) (id : Nat) (answer : HostAns) : Boot :=
  if b.imageRead = some id then { b with imageRead := none, imageData := answer }
  else { b with tokenRead := none, tokenData := answer }

section
variable (b : Boot) (id : Nat) (answer : HostAns)

theorem Boot.imageRead_answered : (b.answered id answer).imageRead = if b.imageRead = some id then none else b.imageRead :=
  apply_ite Boot.imageRead ..

theorem Boot.imageData_answered : (b.answered id answer).imageData = if b.imageRead = some id then answer else b.imageData :=
  apply_ite Boot.imageData ..

theorem Boot.tokenRead_answered : (b.answered id answer).tokenRead = if ¬ b.imageRead = some id then none else b.tokenRead :=
  (apply_ite Boot.tokenRead ..).trans (ite_not ..).symm

theorem Boot.tokenData_answered : (b.answered id answer).tokenData = if ¬ b.imageRead = some id then answer else b.tokenData :=
  (apply_ite Boot.tokenData ..).trans (ite_not ..).symm

theorem Boot.state_answered : (b.answered id answer).state = b.state := by
  unfold Boot.answered
  split <;> rfl

end

/-- With both reads answered the boot goes from LOADING to VERIFYING. -/
def Boot.verified (b : Boot) : Boot :=
  { b with state := if b.state = .loading ∧ b.imageRead = none ∧ b.tokenRead = none then .verifying else b.state }

theorem Boot.state_verified_answered (b : Boot) (id : Nat) (answer : HostAns) : (b.answered id answer).verified.state =
    if b.state = .loading ∧ (b.answered id answer).imageRead = none ∧ (b.answered id answer).tokenRead = none then .verifying
    else b.state := by
  unfold Boot.verified
  rw [b.state_answered]

theorem Boot.verified_eq (b : Boot) : b.verified =
    if b.imageRead.isNone && b.tokenRead.isNone && b.state == .loading then { b with state := .verifying } else b := by
  have hdone : (b.imageRead.isNone && b.tokenRead.isNone && b.state == .loading) = true ↔
      b.state = .loading ∧ b.imageRead = none ∧ b.tokenRead = none := by
    simp [and_comm]
  unfold Boot.verified
  rw [if_congr hdone rfl rfl]
  split <;> rfl

/-- A host error of a boot read is reported on function 0 (R429). -/
theorem State.aer_of_error (s : State) (answer : HostAns) : (if answer.isNone then s.aer 0 else s) =
    { s with sent := (if answer = none then [Sent.aer 0] else []) ++ s.sent } := by
  cases answer <;> rfl

theorem State.bootArrive_read (h : s.boot.imageRead = some id ∨ s.boot.tokenRead = some id) : s.bootArrive id answer =
    { s with boot := (s.boot.answered id answer).verified, sent := (if answer = none then [Sent.aer 0] else []) ++ s.sent } := by
  have hread : ¬ (!(s.boot.imageRead == some id) && !(s.boot.tokenRead == some id)) = true := by
    simpa [or_iff_not_imp_left] using h
  refine (if_neg hread).trans ?_
  rw [State.aer_of_error, if_congr beq_iff_eq rfl rfl, Boot.verified_eq]
  rfl

end

end
end Sys2Proof.Machine

section
open Sys2Proof Sys2Proof.Machine Sys2Proof.Claims

/-- Settles O46: a record by its operation and that operation's checks in order; what a link that goes down leaves alone is one view
of the state, kept by the end of each request. -/
theorem fencesAndHostLink : Obligations.FencesAndHostLink := by
  refine ⟨fun s via addr answer hserves => ?records, fun s via b v => ⟨errorFenceWrite_none, fun hb hserves => ?bind⟩,
    fun s p => ⟨pcieLinkDown_none, fun hp => ⟨_, pcieLinkDown_down hp, s.linkUp_pcieDown p, fun n q => State.queue_pcieDown⟩,
      _, perstPort1_trains, ?up, ?other, fun n q hq => (State.queue_train n).trans (State.queue_pcieDown hq)⟩,
    fun s id answer => ?reads⟩
  case records =>
    intro does
    suffices h : ∀ c, exec c s = .next (s.objWrite via false false (putFenceRecord addr.toNat answer)) → does c from
      ⟨h _ rfl, h _ rfl⟩
    intro c hc
    dsimp -zeta only [does]
    intro s0 s1 ends waits
    have hanswer {code : Nat} {t : State} : putFenceRecord addr.toNat answer s = (code, t) → Answers c s via code t :=
      answers_of_objWrite hserves hc
    refine ⟨fun ha => hanswer (ha ▸ putFenceRecord_error),
      fun b ha hw => hanswer (ha ▸ putFenceRecord_taken.trans (congrArg _ (State.takeRecord_waits hw))), fun b ha hw => ?_⟩
    intro op f asid
    have hrecord {r : Option Nat × State} (hr : s1.fenceRecord b = r) : Answers c s via 0x00 (afterRecord 2 b r) := by
      refine hanswer (ha ▸ putFenceRecord_taken.trans (congrArg _ ?_))
      exact (State.takeRecord_done (s := s.readRecord addr.toNat 32) hw).trans
        ((State.doRecord_fence b).trans (congrArg (afterRecord 2 b) hr))
    have hcreate (hop : op = 1) {code : Nat} {t : State} (hr : s1.createFence b = (some code, t)) : ends code t :=
      hrecord ((State.fenceRecord_create hop).trans hr)
    have hdestroy (hop : op = 2) {code : Nat} {t : State} (hr : s1.destroyFence b = (some code, t)) : ends code t :=
      hrecord ((State.fenceRecord_destroy hop).trans hr)
    refine ⟨fun hop hb => hcreate hop (State.createFence_malformed hb), fun hop hb hl => hcreate hop (State.createFence_inUse hb hl),
      fun u hop hb hl hr => hrecord ((State.fenceRecord_create hop).trans (State.createFence_held hb hl hr)),
      fun u hop hb hl hr => hcreate hop (State.createFence_context hb hl hr),
      fun owner u hop hb hl hr => ⟨fun ht => hcreate hop (State.createFence_busy hb hl hr ht),
        fun ht => ⟨_, hcreate hop (State.createFence_made hb hl hr ht), fun g hg => (State.fence_makeFence ..).trans (if_neg hg),
          (State.fence_makeFence ..).trans (if_pos rfl)⟩⟩,
      fun hop hf => hdestroy hop (State.destroyFence_malformed hf),
      fun hop hf hl => hdestroy hop (State.destroyFence_missing hf hl),
      fun x hop hf hx hl => ?destroyed, fun h1 h2 => hrecord (State.fenceRecord_malformed h1 h2)⟩
    case destroyed =>
      obtain ⟨t, ht, hfence⟩ := State.destroyFence_live hf hx hl
      have hself : t.fence? f = some { x.broken codeOwnerGone (detailAsid x.asid) with live := false } := (hfence f).trans (if_pos rfl)
      refine ⟨t, hdestroy hop ht, ?_, fun g hg => (hfence g).trans (if_neg hg), ?_⟩
      · unfold State.fenceLive
        rw [hself]
      · rw [hself]
        exact congrArg some (x.word_broken ..)
  case bind =>
    intro x none' may
    refine ⟨fun ⟨hb', hv⟩ => answers_errorFenceWrite hserves hb (putErrorFence_none hb' hv),
      fun hnone ⟨hb', hf⟩ => ⟨_, answers_errorFenceWrite hserves hb (putErrorFence_bound hb' (fun hv => hnone ⟨hb', hv⟩) hf),
        congrArg Bight.errorFence (State.bight_setBight_self ..), fun k hk => (State.bight_setBight ..).trans (if_neg hk)⟩,
      fun hnone hmay => answers_errorFenceWrite hserves hb (putErrorFence_refused hnone hmay)⟩
  case up => exact (State.mem_linkUp_train 1).mpr (.inl rfl)
  case other =>
    rw [State.mem_linkUp_train, State.linkUp_pcieDown]
    simp [without]
  case reads =>
    intro image token ends
    suffices h : ∀ c answer, exec c s = .next (s.hostReadEnds id answer) → ends c answer from
      ⟨h _ _ pcieCompletion_ends, h _ _ completionTimeout_ends⟩
    intro c answer hc
    dsimp -zeta only [ends]
    refine ⟨fun r hr hp => ?_, fun r hr hp ha => ?_, fun r d hr hp ha => ?_, fun hr hi ht => ?_, fun hr h => ?boot⟩
    · rw [hc, State.hostReadEnds_other hr hp]
    · rw [hc, ha, State.hostReadEnds_error hr hp]
    · rw [hc, ha, State.hostReadEnds_data hr hp]
    · rw [hc, State.hostReadEnds_boot hr, State.bootArrive_other hi ht]
    case boot =>
      refine ⟨_, hc.trans (congrArg _ ((State.hostReadEnds_boot hr).trans (State.bootArrive_read h))), ?_⟩
      exact ⟨s.boot.imageRead_answered .., s.boot.imageData_answered .., s.boot.tokenRead_answered .., s.boot.tokenData_answered ..,
        s.boot.state_verified_answered .., rfl, rfl⟩

end

namespace Sys2Proof.Machine
open Sys2Proof.Claims

variable {s : State} {c : Instr} {via : Via} {eth expert : Bool}

/-! ### Every command answers (R615, R616) -/

/-- No arm of the dispatch stops: only the write of a register and the end of a far access choose between two answers. -/
theorem exec_answers (c : Instr) (s : State) : ∃ t, exec c s = .next t := by
  cases c
  case registerWrite target =>
    cases target with
    | object via =>
      by_cases h : s.dictOpen via = true
      · exact ⟨_, if_pos h⟩
      · exact ⟨_, if_neg h⟩
    | mmio => exact ⟨_, rfl⟩
    | vfEnable => exact ⟨_, rfl⟩
  case farAccessDone core req =>
    change ∃ t, execFarAccessDone core req s = .next t
    unfold execFarAccessDone
    dsimp only
    cases (s.core core).far.find? (fun f => f.req == some req) <;> cases s.req? req <;> exact ⟨_, rfl⟩
  all_goals exact ⟨_, rfl⟩

/-! ### The checks before an object's own rules (R618, R619, R621, R622) -/

theorem objWrite_of_guarded {p : Prop} [Decidable p] {v : Via} {e x : Bool} {act : Act} {t : State}
    (h : (if p then some (v, e, x) else none) = some (via, eth, expert))
    (hc : exec c s = .next (if p then s.objWrite v e x act else t)) :
    ∃ act : Act, exec c s = .next (s.objWrite via eth expert act) := by
  obtain ⟨hp, hv⟩ := Option.ite_none_right_eq_some.mp h
  cases hv
  exact ⟨act, hc.trans (by rw [if_pos hp])⟩

/-- A command that names its object is a guarded write of that object. -/
theorem exec_of_objectOf (h : objectOf c = some (via, eth, expert)) :
    ∃ act : Act, exec c s = .next (s.objWrite via eth expert act) := by
  cases c
  all_goals dsimp only [objectOf] at h
  case functionPortWrite => exact objWrite_of_guarded h rfl
  case errorFenceWrite => exact objWrite_of_guarded h rfl
  case managementKeyWrite => exact objWrite_of_guarded h rfl
  case networkConfigWrite => exact objWrite_of_guarded h rfl
  all_goals cases h <;> exact ⟨_, rfl⟩

theorem State.objWrite_closed {act : Act} (h : s.dictOpen via = false) : s.objWrite via eth expert act = s :=
  if_neg (by simp [h])

theorem State.objWrite_open {act : Act} (h : s.dictOpen via = true) :
    s.objWrite via eth expert act = (s.guardWrite via eth expert act).2.noteStatus via (s.guardWrite via eth expert act).1 := if_pos h

theorem State.guardWrite_transport {act : Act} (hv : via = .ethernet) (he : eth = false) :
    s.guardWrite via eth expert act = (0x08, s) := if_pos ⟨hv, he⟩

theorem State.guardWrite_level {act : Act} (hv : via = .ethernet → eth = true)
    (hx : expert = true) (hl : s.expertOn via = false ∨ s.errors.rootstock = true) :
    s.guardWrite via eth expert act = (0x07, s) := by
  have htransport : ¬ (via = .ethernet ∧ eth = false) := fun ⟨he, hf⟩ => by simp [hv he] at hf
  have hlevel : s.levelOk via expert = false := by
    unfold State.levelOk
    rcases hl with h | h <;> simp [hx, h]
  exact (if_neg htransport).trans (if_pos (by simp [hlevel]))

end Sys2Proof.Machine

section
open Sys2Proof Sys2Proof.Machine Sys2Proof.Claims

/-- Settles O1: a step takes the front of the queue. -/
theorem frontCommandRuns : Obligations.FrontCommandRuns := fun _ _ _ => rfl

/-- Settles O5: no arm stops, and what every command keeps holds the queue and the time. -/
theorem commandsCompleteAndLeaveTheQueue : Obligations.CommandsCompleteAndLeaveTheQueue := by
  intro c s
  obtain ⟨t, ht⟩ := exec_answers c s
  have hk := Keeps.exec (Keeps.refl s) c
  rw [ht] at hk
  exact ⟨t, ht, hk.pending, hk.now⟩

/-- Settles O6: a command that names its object meets the transport first, then the level. -/
theorem dictionaryChecksComeFirst : Obligations.DictionaryChecksComeFirst := by
  intro c s via eth expert hc
  obtain ⟨act, he⟩ := exec_of_objectOf (s := s) hc
  unfold Answers
  rw [he]
  refine ⟨fun h => ?_, fun h hv hf => ?_, fun h hv hx hl => ?_⟩
  · rw [State.objWrite_closed h]
  · rw [State.objWrite_open h, State.guardWrite_transport hv hf]
  · rw [State.objWrite_open h, State.guardWrite_level hv hx hl]

end

namespace Sys2Proof.Machine
open Sys2Proof.Claims

variable {s : State}

/-! ### Tables built by a fold of writes -/

section
variable {α : Type} [DecidableEq α]

/-- Each key of a list is written once, by a rule that reads what stood there. -/
theorem look_foldl_put (d : α) (g : Nat → α → α) {l : List Nat} (hl : l.Nodup) (t : Tab α) (k : Nat) :
    Tab.look d (l.foldl (fun t i => Tab.put d t i (g i (Tab.look d t i))) t) k =
      if k ∈ l then g k (Tab.look d t k) else Tab.look d t k := by
  induction l generalizing t with
  | nil => rfl
  | cons i l ih =>
    obtain ⟨hi, hl⟩ := List.nodup_cons.mp hl
    rw [List.foldl_cons, ih hl, Tab.look_put]
    by_cases hk : k = i
    · subst hk
      simp [hi]
    · simp [hk]

theorem look_foldl_range (d : α) (g : Nat → α → α) (n : Nat) (t : Tab α) {k : Nat} (hk : k < n) :
    Tab.look d ((List.range n).foldl (fun t i => Tab.put d t i (g i (Tab.look d t i))) t) k = g k (Tab.look d t k) :=
  (look_foldl_put d g List.nodup_range t k).trans (if_pos (List.mem_range.mpr hk))

end

/-! ### What a window does to the accounts of power (R540 to R542) -/

/-- Windows move everything of the power block but what the limiters keep of their own history. -/
def State.limiting (s : State) : Power :=
  { s.power with limiterHistory := [], limiterWindows := [], railLogged := [] }

theorem State.limiting_railWindow (i : Nat) (l : Level) : (s.railWindow i l).limiting = s.limiting := by
  unfold State.railWindow
  dsimp only
  split_ifs <;> rfl

/-- The reductions of one die after a window, from the levels of its limiters (R542). -/
def State.dieWindow (core mem : Nat → Level) (s : State) (d : Nat) : State :=
  { s with power := { s.power with
      dieRed := Tab.put 0 s.power.dieRed d ((core d).step 12 (Tab.look 0 s.power.dieRed d))
      memRed := Tab.put 0 s.power.memRed d ((mem d).step 8 (Tab.look 0 s.power.memRed d)) } }

theorem State.power_foldl_dieWindow (core mem : Nat → Level) (l : List Nat) : (l.foldl (State.dieWindow core mem) s).power =
    { s.power with
      dieRed := l.foldl (fun t d => Tab.put 0 t d ((core d).step 12 (Tab.look 0 t d))) s.power.dieRed
      memRed := l.foldl (fun t d => Tab.put 0 t d ((mem d).step 8 (Tab.look 0 t d))) s.power.memRed } := by
  induction l generalizing s with
  | nil => rfl
  | cons d l ih => exact ih

theorem State.limiting_inputWindow (w n : Nat) : (s.inputWindow w n).limiting = { s.limiting with
    excursion := if 11000 * n < w then s.power.excursion - 10 else min 50000 (s.power.excursion + 1)
    inputRed := (limitLevel w (n * if 0 < s.power.excursion then 13500 else 11000)).step 12 s.power.inputRed
    inputHistory := (s.inputWindow w n).power.inputHistory
    inputWindows := (s.inputWindow w n).power.inputWindows
    inputLog := (s.now, w, n) :: s.power.inputLog.filter fun e => decide (s.now < e.1 + 10000000)
    frameSum := (s.power.frameSum.1 + w, s.power.frameSum.2 + n) } := by
  unfold State.inputWindow
  dsimp only
  split_ifs <;> rfl

/-- The sums of the input's and of a rail's samples, and what it says of the rail's limit. -/
abbrev railSum (w : Window) (i : Nat) : Nat := (w.samples.map fun x => x.rails.getD i 0).sum
abbrev inputSum (w : Window) : Nat := (w.samples.map fun x => x.inputW).sum
abbrev railLevel (w : Window) (i : Nat) : Level := limitLevel (railSum w i) (w.samples.length * railLimit i)

/-- The state once the rails and the reductions have met the window. -/
@[irreducible] def State.windowed (s : State) (w : Window) : State :=
  (List.range 16).foldl (State.dieWindow (fun d => (railLevel w (4 * d)).worse (railLevel w (4 * d + 1))) fun d => railLevel w (4 * d + 3))
    ((List.range 77).foldl (fun (s : State) i => s.railWindow i (railLevel w i))
      (s.inputWindow (inputSum w) w.samples.length))

theorem powerWindow_inReset {w : Window} (h : s.supply.inReset = true) : exec (.powerWindow w) s = .next s :=
  congrArg Host.Outcome.next (if_pos h)

theorem powerWindow_taken {w : Window} (h : s.supply.inReset = false) : exec (.powerWindow w) s = .next
    ({ s.windowed w with power := { (s.windowed w).power with
        inputV := windowSum w (·.inputV) / w.samples.length
        railCurrent := (List.range 77).foldl (fun (t : Tab Nat) i => Tab.put 0 t i (railSum w i / w.samples.length)) [] } }).scaleAll := by
  unfold State.windowed
  exact congrArg Host.Outcome.next (if_neg (by simp [h]))

/-- The input power and the rails of a window, before the reductions of the dies. -/
abbrev State.railsWindowed (s : State) (w : Window) : State :=
  (List.range 77).foldl (fun (s : State) i => s.railWindow i (railLevel w i)) (s.inputWindow (inputSum w) w.samples.length)

theorem State.limiting_railsWindowed (w : Window) :
    (s.railsWindowed w).limiting = (s.inputWindow (inputSum w) w.samples.length).limiting :=
  view_foldl State.limiting (fun s i => s.limiting_railWindow i (railLevel w i)) _ _

theorem State.limiting_windowed (w : Window) : (s.windowed w).limiting =
    { (s.inputWindow (inputSum w) w.samples.length).limiting with
      dieRed := (s.windowed w).power.dieRed, memRed := (s.windowed w).power.memRed } := by
  rw [← State.limiting_railsWindowed]
  unfold State.limiting State.windowed
  rw [State.power_foldl_dieWindow]

theorem State.dieRed_windowed (w : Window) {d : Nat} (hd : d < 16) : Tab.look 0 (s.windowed w).power.dieRed d =
    ((railLevel w (4 * d)).worse (railLevel w (4 * d + 1))).step 12 (Tab.look 0 s.power.dieRed d) := by
  have hrails : (s.railsWindowed w).power.dieRed = s.power.dieRed :=
    (congrArg Power.dieRed ((State.limiting_railsWindowed w).trans (State.limiting_inputWindow ..)) :)
  unfold State.windowed
  rw [State.power_foldl_dieWindow, ← hrails]
  exact look_foldl_range 0 (fun d => ((railLevel w (4 * d)).worse (railLevel w (4 * d + 1))).step 12) 16 _ hd

theorem State.memRed_windowed (w : Window) {d : Nat} (hd : d < 16) : Tab.look 0 (s.windowed w).power.memRed d =
    (railLevel w (4 * d + 3)).step 8 (Tab.look 0 s.power.memRed d) := by
  have hrails : (s.railsWindowed w).power.memRed = s.power.memRed :=
    (congrArg Power.memRed ((State.limiting_railsWindowed w).trans (State.limiting_inputWindow ..)) :)
  unfold State.windowed
  rw [State.power_foldl_dieWindow, ← hrails]
  exact look_foldl_range 0 (fun d => (railLevel w (4 * d + 3)).step 8) 16 _ hd

/-- What a limiter's reduction becomes: two units more above the limit, one less below 90 % of it (R542). -/
abbrev Moved (above below : Prop) (cap r r' : Nat) : Prop :=
  (above → r' = min cap (r + 2)) ∧ (¬ above → below → r' = r - 1) ∧ (¬ above → ¬ below → r' = r)

theorem moved_limitLevel (value limit cap r : Nat) :
    Moved (limit < value) (10 * value < 9 * limit) cap r ((limitLevel value limit).step cap r) := by
  unfold limitLevel
  refine ⟨fun h => ?_, fun h h' => ?_, fun h h' => ?_⟩
  · rw [if_pos h]; rfl
  · rw [if_neg h, if_pos h']; rfl
  · rw [if_neg h, if_neg h']; rfl

/-- Of two limits, one exceeded is enough to raise the reduction, and both must be kept by 10 % to lower it. -/
theorem moved_worse (v v' l l' cap r : Nat) : Moved (l < v ∨ l' < v') (10 * v < 9 * l ∧ 10 * v' < 9 * l') cap r
    (((limitLevel v l).worse (limitLevel v' l')).step cap r) := by
  unfold limitLevel
  refine ⟨fun h => ?_, fun h h' => ?_, fun h h' => ?_⟩
  · by_cases ha : l < v
    · rw [if_pos ha]; rfl
    · rw [if_pos (h.resolve_left ha)]
      cases (if l < v then Level.above else if 10 * v < 9 * l then .below else .middle) <;> rfl
  · obtain ⟨ha, hb⟩ := not_or.mp h
    rw [if_neg ha, if_neg hb, if_pos h'.1, if_pos h'.2]; rfl
  · obtain ⟨ha, hb⟩ := not_or.mp h
    rw [if_neg ha, if_neg hb]
    by_cases h1 : 10 * v < 9 * l
    · rw [if_neg fun h2 => h' ⟨h1, h2⟩, if_pos h1]; rfl
    · rw [if_neg h1]
      split_ifs <;> rfl

theorem railLimit_core {d : Nat} (hd : d < 16) : railLimit (4 * d) = 6400 := by
  unfold railLimit
  rw [if_pos (by omega), show 4 * d % 4 = 0 by omega]
  rfl

theorem railLimit_sram {d : Nat} (hd : d < 16) : railLimit (4 * d + 1) = 1600 := by
  unfold railLimit
  rw [if_pos (by omega), show (4 * d + 1) % 4 = 1 by omega]
  rfl

theorem railLimit_hbm {d : Nat} (hd : d < 16) : railLimit (4 * d + 3) = 600 := by
  unfold railLimit
  rw [if_pos (by omega), show (4 * d + 3) % 4 = 3 by omega]
  rfl

/-- The limit that a window's sum is held against (R541). -/
abbrev State.inputLimit (s : State) (w : Window) : Nat := w.samples.length * if 0 < s.power.excursion then 13500 else 11000

theorem State.moved_inputRed (w : Window) :
    Moved (s.inputLimit w < inputSum w) (10 * inputSum w < 9 * s.inputLimit w) 12 s.power.inputRed
      (s.windowed w).power.inputRed := by
  have hred := congrArg Power.inputRed ((State.limiting_windowed w).trans (by rw [State.limiting_inputWindow (s := s)]))
  rw [show (s.windowed w).power.inputRed = _ from hred]
  exact moved_limitLevel ..

theorem State.moved_dieRed (w : Window) {d : Nat} (hd : d < 16) :
    Moved (w.samples.length * 6400 < railSum w (4 * d) ∨ w.samples.length * 1600 < railSum w (4 * d + 1))
      (10 * railSum w (4 * d) < 9 * (w.samples.length * 6400) ∧ 10 * railSum w (4 * d + 1) < 9 * (w.samples.length * 1600)) 12
      (Tab.look 0 s.power.dieRed d) (Tab.look 0 (s.windowed w).power.dieRed d) := by
  rw [State.dieRed_windowed w hd, railLevel, railLevel, railLimit_core hd, railLimit_sram hd]
  exact moved_worse ..

theorem State.moved_memRed (w : Window) {d : Nat} (hd : d < 16) :
    Moved (w.samples.length * 600 < railSum w (4 * d + 3)) (10 * railSum w (4 * d + 3) < 9 * (w.samples.length * 600)) 8
      (Tab.look 0 s.power.memRed d) (Tab.look 0 (s.windowed w).power.memRed d) := by
  rw [State.memRed_windowed w hd, railLevel, railLimit_hbm hd]
  exact moved_limitLevel ..

end Sys2Proof.Machine

section
open Sys2Proof Sys2Proof.Machine Sys2Proof.Claims

/-- Settles O32: the window's accounts, read field by field, and the three ways of a limiter's reduction. -/
theorem powerWindowsLimitAndCount : Obligations.PowerWindowsLimitAndCount := by
  refine ⟨rfl, fun s w => ?_⟩
  dsimp only
  refine ⟨powerWindow_inReset, fun h => ⟨_, powerWindow_taken h, ?_⟩⟩
  beta_reduce
  rw [State.power_scaleAll]
  have hpower := (State.limiting_windowed w).trans (by rw [State.limiting_inputWindow (s := s)])
  have hexcursion := congrArg Power.excursion hpower
  refine ⟨fun h => hexcursion.trans (if_pos h), fun h => hexcursion.trans (if_neg (Nat.not_lt.mpr h)), ?_, fun d hd => ⟨?_, ?_⟩, fun i hi => ?_,
    rfl, congrArg Power.inputLog hpower, congrArg Power.frameSum hpower⟩
  · exact State.moved_inputRed w
  · exact State.moved_dieRed w hd
  · exact State.moved_memRed w hd
  · exact look_foldl_range 0 (fun i _ => railSum w i / w.samples.length) 77 [] hi

end

namespace Sys2Proof.Machine
open Sys2Proof.Claims

variable {s : State}

/-! ### The base clock (R544) -/

/-- A retuning announces at most one change of the clock: a free value is drawn and a POWER message leaves. -/
theorem State.retune_frame (s : State) : s.retune = { s with
    power := { s.power with clockNext := s.retune.power.clockNext }, mesh := s.retune.mesh, fresh := s.retune.fresh } := by
  unfold State.retune
  split <;> rfl

theorem State.isReady_retune : s.retune.isReady = s.isReady := by rw [State.retune_frame]; rfl

theorem State.isReady_scaleAll : s.scaleAll.isReady = s.isReady :=
  view_foldl State.isReady (fun s g => by rw [s.scaleFloors_frame]; rfl) _ s

/-! ### POWER messages to the management processor (R542, R549, R570) -/

section
variable {n op : Nat} {m : LanMsg}

theorem State.takePower_some (hm : s.mesh.lan[n]? = some m) (hn : s.lanNext n m = true) (hty : m.ty = 3) (hd : m.dest = stopMgmt)
    (hop : powerOp m = op) : s.takePower n op = some { s with mesh := withoutMsg s n } := by
  unfold State.takePower
  rw [lanTake_some hm hn]
  exact if_pos ⟨hty, hop, hd⟩

theorem State.takePower_other_op (hm : s.mesh.lan[n]? = some m) (hop : powerOp m ≠ op) : s.takePower n op = none := by
  unfold State.takePower
  cases hn : s.lanNext n m
  · rw [lanTake_none (by simpa [hm] using hn)]
  · rw [lanTake_some hm hn]
    exact if_neg fun h => hop h.2.1

theorem State.takePower_none (h : ∀ m, s.mesh.lan[n]? = some m → s.lanNext n m = false ∨ m.ty ≠ 3 ∨ m.dest ≠ stopMgmt) :
    s.takePower n op = none := by
  unfold State.takePower
  by_cases hnext : ∀ m, s.mesh.lan[n]? = some m → s.lanNext n m = false
  · rw [lanTake_none hnext]
  · push Not at hnext
    obtain ⟨m, hm, hn⟩ := hnext
    replace hn : s.lanNext n m = true := by simpa using hn
    rw [lanTake_some hm hn]
    refine if_neg fun ⟨hty, _, hd⟩ => ?_
    rcases h m hm with h | h | h
    · simp [hn] at h
    · exact h hty
    · exact h hd

theorem limit_taken {t : State} (h : s.takePower n 4 = some t) :
    exec (.limit n) s = .next { t with power := { t.power with limitAt := some t.now, limitSeen := true } } := by
  show execLimit n s = _
  unfold execLimit
  rw [h]

theorem limit_still (h : s.takePower n 4 = none) : exec (.limit n) s = .next s := by
  show execLimit n s = _
  unfold execLimit
  rw [h]

theorem thermal_eq : exec (.thermal n) s = .next ((s.takePower n 5).getD s) := rfl

end

/-! ### The Trim controller (R549 to R551) -/

/-- The windows of a time, and what they bring to the mean (R549). -/
theorem State.inputOver_eq (ns : Nat) : s.inputOver ns =
    (((s.power.inputLog.filter fun e => decide (s.now < e.1 + ns)).map fun e => e.2.1).sum,
      ((s.power.inputLog.filter fun e => decide (s.now < e.1 + ns)).map fun e => e.2.2).sum) := by
  have hfold (l : List (Nat × Nat × Nat)) (a : Nat × Nat) : l.foldl (fun a e => (a.1 + e.2.1, a.2 + e.2.2)) a =
      (a.1 + (l.map fun e => e.2.1).sum, a.2 + (l.map fun e => e.2.2).sum) := by
    induction l generalizing a with
    | nil => rfl
    | cons e l ih => rw [List.foldl_cons, ih]; simp [Nat.add_assoc]
  exact (hfold _ _).trans (by simp)

theorem State.power_setTCap (t : Nat) : (s.setTCap t).power = { s.power with tCap := t, tCapAt := (s.setTCap t).power.tCapAt } := by
  unfold State.setTCap
  split
  · next h => rw [h]
  · rfl

theorem State.now_setTCap (t : Nat) : (s.setTCap t).now = s.now := by
  unfold State.setTCap
  split <;> rfl

/-- Undoing the sharing levels touches nothing but the bights and the list of steps. -/
theorem State.dropShares_frame (s : State) : s.dropShares =
    { s with bights := s.dropShares.bights, power := { s.power with shareSteps := [] } } := by
  have hfold := view_foldl (fun s : State => { s with bights := {} })
    (f := fun (s : State) b => s.modBight b fun x => { x with shareLevel := x.shareLevel - 1 }) (fun _ _ => rfl) s.power.shareSteps s
  have hsame (u : State) (h : { u with bights := {} } = ({ s with bights := {} } : State)) : u = { s with bights := u.bights } :=
    congrArg (fun v : State => { v with bights := u.bights }) h
  unfold State.dropShares
  dsimp only
  rw [hsame _ hfold]

theorem State.power_noteUnmet (cap : Nat) : (s.noteUnmet cap).power = { s.power with
    capUnmet := s.power.tCap == 7 && decide (cap * (s.inputOver 10000000).2 < (s.inputOver 10000000).1) } := by
  unfold State.noteUnmet
  dsimp only
  split
  · unfold State.moduleEvent State.cause State.irq
    dsimp only
    split_ifs <;> rfl
  · rfl

/-- The run begins: it is noted, the limits seen are forgotten, and sharing levels fall away in host-policy mode (R549, R551). -/
def State.trimBegun (s : State) : State :=
  let u := { s with power := { s.power with trimRan := true, limitSeen := false } }
  if u.selfPolicy then u else u.dropShares

theorem State.trimBegun_frame (s : State) : s.trimBegun = { s with
    bights := s.trimBegun.bights
    power := { s.power with trimRan := true, limitSeen := false, shareSteps := s.trimBegun.power.shareSteps } } := by
  unfold State.trimBegun
  dsimp only
  split
  · rfl
  · rw [State.dropShares_frame]

theorem State.trimBegun_hostPolicy (h : s.frame.selfPolicy = false) : s.trimBegun.power.shareSteps = [] := by
  unfold State.trimBegun State.selfPolicy
  dsimp only
  rw [if_neg (by simp [h]), State.dropShares_frame]

/-- No limit has been reported in the last 10 ms (R549). -/
def State.limitsQuiet (s : State) : Bool := match s.power.limitAt with | some t => decide (t + 10000000 ≤ s.now) | none => true

theorem State.limitsQuiet_iff : s.limitsQuiet = true ↔ ∀ a, s.power.limitAt = some a → a + 10000000 ≤ s.now := by
  unfold State.limitsQuiet
  cases s.power.limitAt <;> simp

/-- The conditions of a step up and of a step down (R549). -/
abbrev State.TrimsUp (s : State) (c : Nat) : Prop :=
  c * (s.inputOver 1000000).2 < (s.inputOver 1000000).1 ∨ s.power.limitSeen = true
abbrev State.TrimsDown (s : State) (c : Nat) : Prop :=
  100 * (s.inputOver 10000000).1 < 85 * c * (s.inputOver 10000000).2 ∧ s.limitsQuiet = true ∧ s.power.tCapAt + 10000000 ≤ s.now

theorem State.inputOver_trimBegun (ns : Nat) : s.trimBegun.inputOver ns = s.inputOver ns := by
  rw [State.trimBegun_frame]
  rfl

/-- The step that a run takes under a cap. -/
def State.trimStep (s : State) (c : Nat) : State :=
  if s.TrimsUp c then s.trimBegun.trimUp else if s.TrimsDown c then s.trimBegun.trimDown else s.trimBegun

theorem trimRun_not_ready (h : s.isReady = false) : exec .trimRun s = .next s :=
  congrArg Host.Outcome.next (if_pos (by simp [h]))

/-- Without a cap no level of it stands (R549, R550). -/
def State.uncapped (s : State) : State :=
  { s.dropShares.setTCap 0 with power := { (s.dropShares.setTCap 0).power with capUnmet := false } }

theorem trimRun_uncapped (h : s.isReady = true) (hc : s.power.cap = none) :
    exec .trimRun s = .next s.trimBegun.uncapped.retune.scaleAll := by
  show execTrimRun s = _
  unfold execTrimRun
  rw [if_neg (by simp [h])]
  extract_lets p seen quiet noted begun ended
  have hended : ended = begun.uncapped := by
    simp only [ended]
    rw [show p.cap = none from hc]
    rfl
  rw [hended]
  rfl

theorem trimRun_capped {c : Nat} (h : s.isReady = true) (hc : s.power.cap = some c) :
    exec .trimRun s = .next ((s.trimStep c).noteUnmet c).retune.scaleAll := by
  show execTrimRun s = _
  unfold execTrimRun
  rw [if_neg (by simp [h])]
  extract_lets p seen quiet noted begun ended
  have hbegun : begun = s.trimBegun := rfl
  have hended : ended = (s.trimStep c).noteUnmet c := by
    simp only [ended]
    rw [show p.cap = some c from hc, hbegun]
    dsimp only
    rw [State.inputOver_trimBegun, State.inputOver_trimBegun, show s.trimBegun.now = s.now by rw [State.trimBegun_frame]]
    rfl
  rw [hended]

theorem State.trimUp_hostPolicy (h : s.frame.selfPolicy = false) : s.trimUp = s.setTCap (min 7 (s.power.tCap + 1)) := by
  unfold State.trimUp State.selfPolicy
  rw [h]
  rfl

theorem State.trimDown_unshared (h : s.power.shareSteps = []) : s.trimDown = s.setTCap (s.power.tCap - 1) := by
  unfold State.trimDown
  rw [h]

/-- A step in host-policy mode moves T_cap alone (R549). -/
theorem State.trimStep_hostPolicy (h : s.frame.selfPolicy = false) (c : Nat) : ∃ n,
    s.trimStep c = s.trimBegun.setTCap n ∧ (s.TrimsUp c → n = min 7 (s.power.tCap + 1)) ∧
    (¬ s.TrimsUp c → s.TrimsDown c → n = s.power.tCap - 1) ∧ (¬ s.TrimsUp c → ¬ s.TrimsDown c → n = s.power.tCap) := by
  have hself : s.trimBegun.frame.selfPolicy = false := by rw [State.trimBegun_frame]; exact h
  have htCap : s.trimBegun.power.tCap = s.power.tCap := by rw [State.trimBegun_frame]
  unfold State.trimStep
  by_cases hup : s.TrimsUp c
  · refine ⟨_, ?_, fun _ => rfl, absurd hup, absurd hup⟩
    rw [if_pos hup, State.trimUp_hostPolicy hself, htCap]
  · by_cases hdown : s.TrimsDown c
    · refine ⟨_, ?_, (absurd · hup), fun _ _ => rfl, fun _ hn => absurd hdown hn⟩
      rw [if_neg hup, if_pos hdown, State.trimDown_unshared (State.trimBegun_hostPolicy h), htCap]
    · refine ⟨_, ?_, (absurd · hup), fun _ hd => absurd hd hdown, fun _ _ => rfl⟩
      rw [if_neg hup, if_neg hdown, ← htCap]
      exact (if_pos rfl).symm

theorem gives_trimRun_uncapped (h : s.isReady = true) (hc : s.power.cap = none) :
    Gives .trimRun s fun t => t.power.tCap = 0 ∧ t.power.capUnmet = false ∧ t.power.limitSeen = false := by
  refine ⟨_, trimRun_uncapped h hc, ?_⟩
  beta_reduce
  rw [State.power_scaleAll, State.retune_frame]
  unfold State.uncapped
  dsimp only
  rw [State.power_setTCap, State.dropShares_frame, State.trimBegun_frame]
  exact ⟨rfl, rfl, rfl⟩

theorem gives_trimRun_capped {c : Nat} (h : s.isReady = true) (hc : s.power.cap = some c) (hself : s.frame.selfPolicy = false) :
    Gives .trimRun s fun t =>
      (s.TrimsUp c → t.power.tCap = min 7 (s.power.tCap + 1)) ∧
      (¬ s.TrimsUp c → s.TrimsDown c → t.power.tCap = s.power.tCap - 1) ∧
      (¬ s.TrimsUp c → ¬ s.TrimsDown c → t.power.tCap = s.power.tCap) ∧
      t.power.capUnmet = (t.power.tCap == 7 && decide (c * (s.inputOver 10000000).2 < (s.inputOver 10000000).1)) ∧
      t.power.limitSeen = false := by
  obtain ⟨n, hstep, hup, hdown, hkeep⟩ := State.trimStep_hostPolicy hself c
  refine ⟨_, trimRun_capped h hc, ?_⟩
  beta_reduce
  rw [State.power_scaleAll, State.retune_frame]
  dsimp only
  have hover : (s.trimBegun.setTCap n).inputOver 10000000 = s.inputOver 10000000 := by
    rw [← State.inputOver_trimBegun (s := s)]
    unfold State.inputOver
    rw [State.now_setTCap, State.power_setTCap]
  rw [State.power_noteUnmet, hstep, hover, State.power_setTCap, State.trimBegun_frame]
  exact ⟨hup, hdown, hkeep, rfl, rfl⟩

/-! ### The base clock's announced change, droops and wear (R543, R544, R554, R558) -/

theorem trim_reached {mhz at' : Nat} {rest : List (Nat × Nat)} (h : s.power.clockNext = (mhz, at') :: rest) (hat : at' ≤ s.baseCycle) :
    exec (.trim mhz) s = .next { s with
      power := { s.power with
        baseMhz := mhz, clockNext := rest
        guardStep := (List.range 16).foldl (fun (g : Tab Nat) d => Tab.put 0 g d (s.guardOf d)) [] }
      mesh := { s.mesh with lan := dropAnnounce (at' % 65536) s.mesh.lan } } := by
  show execTrim mhz s = _
  unfold execTrim
  rw [h]
  exact congrArg Host.Outcome.next (if_pos ⟨rfl, hat⟩)

theorem trim_ahead {mhz at' : Nat} {rest : List (Nat × Nat)} (h : s.power.clockNext = (mhz, at') :: rest) (hat : s.baseCycle < at') :
    exec (.trim mhz) s = .next s := by
  show execTrim mhz s = _
  unfold execTrim
  rw [h]
  exact congrArg Host.Outcome.next (if_neg fun h => absurd h.2 (Nat.not_le.mpr hat))

/-- The stretched cycles of a half-die after a droop (R543, R571). -/
def stretch (t : Tab Nat) (cycles h : Nat) : Tab Nat := Tab.put 0 t h (satAdd 0xFFFFFFFF (Tab.look 0 t h) cycles)

theorem droop_on {half cycles : Nat} (h : s.dom (domHalf half) = .on) : exec (.droop half cycles) s = .next { s with
    power := { s.power with
      stretched := stretch (stretch s.power.stretched cycles (2 * (half / 2))) cycles (2 * (half / 2) + 1) } } :=
  congrArg Host.Outcome.next (if_pos (State.domIs_iff.mpr h))

theorem droop_off {half cycles : Nat} (h : s.dom (domHalf half) ≠ .on) : exec (.droop half cycles) s = .next s :=
  congrArg Host.Outcome.next (if_neg fun hon => h (State.domIs_iff.mp hon))

theorem look_stretch_die (t : Tab Nat) (cycles d h : Nat) :
    Tab.look 0 (stretch (stretch t cycles (2 * d)) cycles (2 * d + 1)) h =
      if h / 2 = d then min 0xFFFFFFFF (Tab.look 0 t h + cycles) else Tab.look 0 t h := by
  simp only [stretch, satAdd, Tab.look_put]
  by_cases h1 : h = 2 * d + 1
  · subst h1
    rw [if_pos rfl, if_neg (by omega), if_pos (by omega)]
  · by_cases h2 : h = 2 * d
    · subst h2
      rw [if_neg h1, if_pos rfl, if_pos (by omega)]
    · rw [if_neg h1, if_neg h2, if_neg (by omega)]

/-- A die's wear unit is due (R554, log 195). -/
abbrev State.WearDue (s : State) (die : Nat) : Prop :=
  s.isReady = true ∧ Tab.look 0 s.power.begun die * wearUnit ≤ Tab.look 0 s.power.stress die

theorem wearUnit_due {die : Nat} (h : s.WearDue die) : exec (.wearUnit die) s = .next
    ({ s with
      power := { s.power with begun := addAt s.power.begun die 1 }
      fuses := { s.fuses with wear := Tab.put 0 s.fuses.wear die (min 4096 (s.wearOf die + 1)) } } : State).retune :=
  congrArg Host.Outcome.next (if_pos (by simpa [State.wearDue] using h))

theorem wearUnit_not_due {die : Nat} (h : ¬ s.WearDue die) : exec (.wearUnit die) s = .next s :=
  congrArg Host.Outcome.next (if_neg (by simpa [State.wearDue] using h))

/-! ### Junction temperatures (R560 to R562) -/

/-- The greatest of some values and a first one. -/
theorem foldl_max_le_iff (f : Nat → Int) (l : List Nat) (d x : Int) :
    l.foldl (fun m i => max m (f i)) d ≤ x ↔ d ≤ x ∧ ∀ i ∈ l, f i ≤ x := by
  induction l generalizing d with
  | nil => simp
  | cons i l ih => rw [List.foldl_cons, ih]; simp [and_assoc]

theorem foldl_max_eq (f : Nat → Int) (l : List Nat) (d : Int) :
    l.foldl (fun m i => max m (f i)) d = d ∨ ∃ i ∈ l, l.foldl (fun m i => max m (f i)) d = f i := by
  induction l generalizing d with
  | nil => exact .inl rfl
  | cons i l ih =>
    rw [List.foldl_cons]
    rcases ih (max d (f i)) with h | ⟨j, hj, h⟩
    · rcases max_choice d (f i) with hm | hm
      · exact .inl (h.trans hm)
      · exact .inr ⟨i, List.mem_cons_self, h.trans hm⟩
    · exact .inr ⟨j, List.mem_cons_of_mem _ hj, h⟩

/-- The table of the 544 sensors, as a sample brings them. -/
@[irreducible] def sensorTable (l : List Int) : Tab Int := (List.range 544).foldl (fun (t : Tab Int) i => Tab.put 0 t i (l.getD i 0)) []

theorem look_sensorTable (l : List Int) {i : Nat} (hi : i < 544) : Tab.look 0 (sensorTable l) i = l.getD i 0 := by
  unfold sensorTable
  exact look_foldl_range 0 (fun i _ => l.getD i 0) 544 [] hi

/-- `x` is the reading of one of the sensors of a half-die (R560). -/
abbrev SensorOf (l : List Int) (h : Nat) (x : Int) : Prop :=
  x = l.getD (512 + h) 0 ∨ ∃ c, c < 512 ∧ halfOfCluster c = h ∧ x = l.getD c 0

theorem sensorOf_iff {l : List Int} {h : Nat} (hh : h < 32) {x : Int} :
    SensorOf l h x ↔ ∃ i ∈ sensorsOf h, x = Tab.look 0 (sensorTable l) i := by
  unfold sensorsOf
  constructor
  · rintro (rfl | ⟨c, hc, hd, rfl⟩)
    · exact ⟨512 + h, List.mem_cons_self, (look_sensorTable l (by omega)).symm⟩
    · exact ⟨c, List.mem_cons_of_mem _ (by simpa [hc] using hd), (look_sensorTable l (by omega)).symm⟩
  · rintro ⟨i, hi, rfl⟩
    rcases List.mem_cons.mp hi with rfl | hi
    · exact .inl (look_sensorTable l (by omega))
    · obtain ⟨hi, hd⟩ := List.mem_filter.mp hi
      have hlt := List.mem_range.mp hi
      exact .inr ⟨i, hlt, by simpa using hd, look_sensorTable l (by omega)⟩

theorem hottest_spec {l : List Int} {h : Nat} (hh : h < 32) :
    SensorOf l h (Machine.hottest (sensorTable l) h) ∧ ∀ x, SensorOf l h x → x ≤ Machine.hottest (sensorTable l) h := by
  constructor
  · rw [sensorOf_iff hh]
    rcases foldl_max_eq (Tab.look 0 (sensorTable l)) (sensorsOf h) (Tab.look 0 (sensorTable l) (512 + h)) with he | ⟨i, hi, he⟩
    · exact ⟨512 + h, List.mem_cons_self, he⟩
    · exact ⟨i, hi, he⟩
  · intro x hx
    obtain ⟨i, hi, rfl⟩ := (sensorOf_iff hh).mp hx
    exact ((foldl_max_le_iff (Tab.look 0 (sensorTable l)) _ _ _).mp le_rfl).2 i hi

theorem State.halfTemp_halfSample (h : Nat) (t : Int) : (s.halfSample h t).power.halfTemp = Tab.put 0 s.power.halfTemp h t := by
  unfold State.halfSample
  dsimp only
  split_ifs <;> rfl

theorem State.isReady_halfSample (h : Nat) (t : Int) : (s.halfSample h t).isReady = s.isReady := by
  unfold State.halfSample
  dsimp only
  split_ifs <;> rfl

theorem State.thermalLoop_frame (l : List Int) : (s.thermalLoop l).power.halfTemp = s.power.halfTemp ∧
    (s.thermalLoop l).isReady = s.isReady := by
  unfold State.thermalLoop
  dsimp only
  split_ifs <;> exact ⟨rfl, rfl⟩

theorem State.coolDown_frame (l : List Int) : (s.coolDown l).power.halfTemp = s.power.halfTemp ∧ (s.coolDown l).isReady = s.isReady := by
  unfold State.coolDown
  dsimp only
  split_ifs <;> exact ⟨rfl, rfl⟩

theorem State.halfTemp_of_chassis {t : State} (h : t.chassis = { s.chassis with power := { s.chassis.power with coolAll := 0 } }) :
    t.power.halfTemp = s.power.halfTemp := congrArg (fun c : Chassis => c.power.halfTemp) h

theorem State.halfTemp_tripAt (loc : Nat) (t2 : Int) : (s.tripAt loc t2).power.halfTemp = s.power.halfTemp := by
  rw [State.power_tripAt]
  exact State.halfTemp_of_chassis (State.chassis_tripped loc t2)

/-- The state once every half-die has its sample. -/
@[irreducible] def State.halvesSampled (s : State) (l : List Int) : State :=
  ((List.range 32).map (Machine.hottest (sensorTable l))).zipIdx.foldl (fun (s : State) e => s.halfSample e.2 e.1)
    { s with power := { s.power with sensors := sensorTable l } }

/-- The state once the module's thermal rules have met the sample, before a trip. -/
def State.junctionSampled (s : State) (l : List Int) : State :=
  (((s.halvesSampled l).thermalLoop ((List.range 32).map (Machine.hottest (sensorTable l)))).coolDown
    ((List.range 32).map (Machine.hottest (sensorTable l)))).retune.scaleAll

theorem zipIdx_map_range {α : Type} (f : Nat → α) (n : Nat) : ((List.range n).map f).zipIdx = (List.range n).map fun h => (f h, h) :=
  List.ext_getElem (by simp) (by simp)

theorem State.halfTemp_halvesSampled (l : List Int) {h : Nat} (hh : h < 32) :
    Tab.look 0 (s.halvesSampled l).power.halfTemp h = Machine.hottest (sensorTable l) h := by
  have hfold (hs : List Nat) (u : State) : (hs.foldl (fun u h => u.halfSample h (Machine.hottest (sensorTable l) h)) u).power.halfTemp =
      hs.foldl (fun t h => Tab.put 0 t h (Machine.hottest (sensorTable l) h)) u.power.halfTemp := by
    induction hs generalizing u with
    | nil => rfl
    | cons h hs ih => rw [List.foldl_cons, ih, State.halfTemp_halfSample, List.foldl_cons]
  unfold State.halvesSampled
  rw [zipIdx_map_range, List.foldl_map, hfold]
  exact look_foldl_range 0 (fun h _ => Machine.hottest (sensorTable l) h) 32 _ hh

theorem State.isReady_halvesSampled (l : List Int) : (s.halvesSampled l).isReady = s.isReady := by
  unfold State.halvesSampled
  rw [view_foldl State.isReady fun (s : State) (e : Int × Nat) => State.isReady_halfSample (s := s) e.2 e.1]
  rfl

theorem State.halfTemp_junctionSampled (l : List Int) {h : Nat} (hh : h < 32) :
    Tab.look 0 (s.junctionSampled l).power.halfTemp h = Machine.hottest (sensorTable l) h := by
  unfold State.junctionSampled
  rw [State.power_scaleAll, State.retune_frame]
  dsimp only
  rw [(State.coolDown_frame _).1, (State.thermalLoop_frame _).1, State.halfTemp_halvesSampled l hh]

theorem State.isReady_junctionSampled (l : List Int) : (s.junctionSampled l).isReady = s.isReady := by
  unfold State.junctionSampled
  rw [State.isReady_scaleAll, State.isReady_retune, (State.coolDown_frame _).2, (State.thermalLoop_frame _).2, State.isReady_halvesSampled]

/-- The half-die that trips at a sample: it has come to 115 °C (R562). -/
def State.tripHalf (s : State) (l : List Int) : Option Nat :=
  (List.range 32).find? fun h => decide (230 ≤ Machine.hottest (sensorTable l) h) && decide (Tab.look 0 s.power.halfTemp h < 230)

theorem junctionSample_inReset {l : List Int} (h : s.supply.inReset = true) : exec (.junctionSample l) s = .next s :=
  congrArg Host.Outcome.next (if_pos h)

theorem State.tripHalf_eq (s : State) (l : List Int) : s.tripHalf l =
    (List.range 32).find? fun h => decide (230 ≤ ((List.range 32).map (Machine.hottest (sensorTable l))).getD h 0) &&
      decide (Tab.look 0 s.power.halfTemp h < 230) := by
  unfold State.tripHalf
  refine List.find?_congr fun h hh => ?_
  have hlt : h < 32 := List.mem_range.mp hh
  rw [List.getD_eq_getElem _ _ (by simpa using hlt)]
  simp

section
variable {l : List Int} (h : s.supply.inReset = false)
include h

theorem junctionSample_calm (hf : s.tripHalf l = none) : exec (.junctionSample l) s = .next (s.junctionSampled l) := by
  change execJunctionSample l s = _
  rw [State.tripHalf_eq] at hf
  unfold sensorTable at hf
  unfold execJunctionSample
  rw [if_neg (by simp [h])]
  dsimp only
  rw [hf]
  unfold State.junctionSampled State.halvesSampled sensorTable
  rfl

theorem junctionSample_trips {k : Nat} (hf : s.tripHalf l = some k) : exec (.junctionSample l) s =
    .next ((s.junctionSampled l).tripAt k (((List.range 32).map (Machine.hottest (sensorTable l))).getD k 0)) := by
  change execJunctionSample l s = _
  rw [State.tripHalf_eq] at hf
  unfold sensorTable at hf
  unfold execJunctionSample
  rw [if_neg (by simp [h])]
  dsimp only
  rw [hf]
  unfold State.junctionSampled State.halvesSampled sensorTable
  rfl
end

theorem State.tripHalf_isSome {l : List Int} {h : Nat} (hh : h < 32) (ht : 230 ≤ Machine.hottest (sensorTable l) h)
    (hold : Tab.look 0 s.power.halfTemp h < 230) : ∃ k, s.tripHalf l = some k := by
  unfold State.tripHalf
  rw [← Option.isSome_iff_exists, List.find?_isSome]
  exact ⟨h, List.mem_range.mpr hh, by simp [ht, hold]⟩

theorem gives_junctionSample {l : List Int} (h : s.supply.inReset = false) : Gives (.junctionSample l) s fun t =>
    (∀ h, h < 32 → SensorOf l h (Tab.look 0 t.power.halfTemp h) ∧ ∀ x, SensorOf l h x → x ≤ Tab.look 0 t.power.halfTemp h) ∧
    (∀ h, h < 32 → 230 ≤ Tab.look 0 t.power.halfTemp h → Tab.look 0 s.power.halfTemp h < 230 →
      t.power.railsDropped = List.range 16 ∧ (s.isReady = true → t.errors.causes.getLsbD 1 = true) ∧
      (s.isReady = false → t.boot.halted = true)) := by
  have htemp {h : Nat} (hh : h < 32) := State.halfTemp_junctionSampled (s := s) l hh
  have hready := State.isReady_junctionSampled (s := s) l
  cases hf : s.tripHalf l with
  | none =>
    refine ⟨_, junctionSample_calm h hf, fun h hh => ?_, fun h hh ht hold => ?_⟩
    · rw [htemp hh]
      exact hottest_spec hh
    · rw [htemp hh] at ht
      obtain ⟨k, hk⟩ := State.tripHalf_isSome hh ht hold
      rw [hk] at hf
      cases hf
  | some k =>
    refine ⟨_, junctionSample_trips h hf, fun h hh => ?_,
      fun h hh ht hold => ⟨State.railsDropped_tripAt .., fun hr => State.causes_tripAt (hready.trans hr) .., fun hr => ?_⟩⟩
    · rw [State.halfTemp_tripAt, htemp hh]
      exact hottest_spec hh
    · rw [State.tripAt_of_not_ready (hready.trans hr)]

end Sys2Proof.Machine

section
open Sys2Proof Sys2Proof.Machine Sys2Proof.Claims

/-- Settles O33: the Trim controller's run by what it decides on, and a sample by the hottest of each half-die's sensors. -/
theorem trimHeatAndWear : Obligations.TrimHeatAndWear := by
  refine ⟨fun s n => ⟨fun m hm hn hty hd => ⟨fun hop => ?_, fun hop => ?_, fun hop => ?_, fun hop => ?_⟩, fun h => ⟨?_, ?_⟩⟩,
    fun s => ⟨trimRun_not_ready, gives_trimRun_uncapped, fun c hr hc hself _ => ?_⟩, fun s mhz at' rest h => ⟨fun hat => ?_, trim_ahead h⟩,
    fun s half cycles => ⟨fun h => ⟨_, droop_on h, look_stretch_die _ _ _, rfl⟩, droop_off⟩, fun s die => ⟨fun h => ⟨_, wearUnit_due h, ?_⟩, wearUnit_not_due⟩,
    fun s l => ⟨gives_junctionSample, junctionSample_inReset⟩⟩
  · exact limit_taken (State.takePower_some hm hn hty hd hop)
  · rw [thermal_eq, State.takePower_some hm hn hty hd hop]
    rfl
  · exact limit_still (State.takePower_other_op hm hop)
  · rw [thermal_eq, State.takePower_other_op hm hop]
    rfl
  · exact limit_still (State.takePower_none h)
  · rw [thermal_eq, State.takePower_none h]
    rfl
  · have hgives := gives_trimRun_capped hr hc hself
    simp only [State.TrimsUp, State.TrimsDown, State.limitsQuiet_iff, State.inputOver_eq] at hgives
    exact hgives
  · refine ⟨_, trim_reached h hat, rfl, rfl, fun d hd => ?_, rfl⟩
    exact look_foldl_range 0 (fun d _ => s.guardOf d) 16 [] hd
  · rw [State.retune_frame]
    dsimp only
    exact ⟨Tab.look_put_same .., Tab.look_put_same .., fun d hd => Tab.look_put_other _ _ hd _⟩

end

namespace Sys2Proof.Machine
open Sys2Proof.Claims

variable {s : State}

/-! ### A port's entry to DOWN (R472, R473, R480) -/

theorem State.port_of_fabric {s t : State} (h : t.fabric = s.fabric) (k : Nat) : t.port k = s.port k := by
  unfold State.port; rw [h]

theorem State.fabric_moduleEvent (s : State) : s.moduleEvent.fabric = s.fabric := by
  unfold State.moduleEvent; rw [State.cause_frame]

theorem State.reqs_moduleEvent (s : State) : s.moduleEvent.reqs = s.reqs := by
  unfold State.moduleEvent; rw [State.cause_frame]

theorem State.port_portDown (s : State) (n k : Nat) :
    (s.portDown n).port k = if k = n then { (s.port n).emptied 4 with downs := (s.port n).downs + 1 } else s.port k := by
  calc (s.portDown n).port k
      = ((s.loseRequests n).modPort n fun p => { p.emptied 4 with downs := p.downs + 1 }).port k :=
        State.port_of_fabric (State.fabric_moduleEvent _) k
    _ = _ := State.port_setPort ..

/-- What the entry of a port to DOWN makes of a request, `ids` naming those sent through the port (R480). -/
def Req.portLost (n : Nat) (ids : List Nat) (r : Req) : Req :=
  let r := if ids.contains r.id then { r with result := .linkDown } else r
  match r.owner with
  | .inbound p t src w o => if p = n then { r with owner := .inbound 48 t src w o } else r
  | _ => r

theorem Req.portLost_target (n : Nat) (ids : List Nat) (r : Req) : (r.portLost n ids).target = r.target := by
  unfold Req.portLost
  dsimp only
  split <;> split_ifs <;> rfl

theorem Req.portLost_resend (n : Nat) (ids : List Nat) (r : Req) : (r.portLost n ids).resend = r.resend := by
  unfold Req.portLost
  dsimp only
  split <;> split_ifs <;> rfl

theorem Req.portLost_result (n : Nat) (ids : List Nat) (r : Req) :
    (r.portLost n ids).result = if ids.contains r.id then .linkDown else r.result := by
  unfold Req.portLost
  dsimp only
  split <;> split_ifs <;> rfl

theorem State.reqs_portDown (s : State) (n : Nat) : (s.portDown n).reqs =
    (s.reqs.filter fun r => !((s.portReqs n).contains r.id && r.owner == .none)).map (Req.portLost n (s.portReqs n)) :=
  State.reqs_moduleEvent _

/-- A request counts for a port when it was sent through it and has no response (R480). -/
def Req.outAt (n : Nat) (r : Req) : Option Nat :=
  match r.target with
  | .remote _ _ p _ => if p == n && r.result == .pending && !r.resend then some r.id else none
  | _ => none

theorem State.portReqs_eq (s : State) (n : Nat) : s.portReqs n = s.reqs.filterMap (Req.outAt n) := rfl

/-- A lost request is pending through the port no more, and the others were not. -/
theorem Req.outAt_portLost {n : Nat} {ids : List Nat} {r : Req} (h : ∀ i, r.outAt n = some i → i ∈ ids) :
    (r.portLost n ids).outAt n = none := by
  unfold Req.outAt at h ⊢
  rw [Req.portLost_target, Req.portLost_resend, Req.portLost_result]
  split
  case h_1 w o p t ht =>
    rw [ht] at h
    by_cases hi : ids.contains r.id
    · exact if_neg (by rw [if_pos hi]; simp)
    · rw [if_neg hi]
      refine if_neg fun hp => hi ?_
      exact List.contains_iff_mem.2 (h r.id (if_pos hp))
  case h_2 => rfl

theorem State.portReqs_portDown (s : State) (n : Nat) : (s.portDown n).portReqs n = [] := by
  rw [State.portReqs_eq, State.reqs_portDown]
  refine List.filterMap_eq_nil_iff.2 fun r' hr' => ?_
  obtain ⟨r, hr, rfl⟩ := List.mem_map.1 hr'
  refine Req.outAt_portLost fun i hi => ?_
  rw [State.portReqs_eq]
  exact List.mem_filterMap.2 ⟨r, List.mem_of_mem_filter hr, hi⟩

/-! ### Training, flits and replay (R473 to R475, R478, R479) -/

theorem State.portUsable_iff (s : State) (n : Nat) : s.portUsable n = true ↔ (s.port n).state = 2 ∨ (s.port n).state = 3 := by
  simp [State.portUsable, Port.usable]

theorem exec_trainingDone {n width lane : Nat} (h : (s.port n).state = 1) (hf : lane = 0 ∨ (lane = 4 ∧ width ≠ 8)) :
    exec (.trainingDone n width lane) s = .next (s.setPort n { s.port n with
      state := if width = 8 then 2 else 3, width, firstLane := lane
      credits := [(0, 4096), (1, 4096), (2, 8192), (3, 1024)] }) :=
  congrArg Host.Outcome.next ((if_neg (not_not_intro h)).trans (if_pos hf))

theorem exec_trainingDone_none {n width lane : Nat} (h : (s.port n).state ≠ 1 ∨ ¬ (lane = 0 ∨ (lane = 4 ∧ width ≠ 8))) :
    exec (.trainingDone n width lane) s = .next s := by
  refine congrArg Host.Outcome.next ?_
  by_cases h1 : (s.port n).state = 1
  · exact (if_neg (not_not_intro h1)).trans (if_neg (h.resolve_left (not_not_intro h1)))
  · exact if_pos h1

/-- The flit of a NAK, its ACK field naming the last good flit (R478). -/
theorem State.openGap_sent (h : (s.port n).nakSent = true) : s.openGap n = s := if_pos h

theorem State.openGap_fresh (h : (s.port n).nakSent = false) : s.openGap n =
    (s.setPort n { s.port n with owed := [], nakSent := true }).send
      (.flit n (makeFlit 2 0 (s.port n).ackField ((List.range 4).map fun v => Tab.look 0 (s.port n).owed v) [])) := by
  unfold State.openGap
  exact if_neg (by simp [h])

/-- A port with the code words that the decoder corrected and could not correct counted (R478). -/
def Port.fecCounted (p : Port) (fec : Fec) : Port :=
  { p with fecCorrected := p.fecCorrected + BitVec.ofNat 32 fec.corrected
           fecBad := p.fecBad + BitVec.ofNat 32 fec.uncorrectable }

theorem exec_flitReceived_none {n : Nat} {flit : Bytes} {fec : Fec}
    (h : ¬ (((s.port n).state = 2 ∨ (s.port n).state = 3) ∧ flit.length = 256)) :
    exec (.flitReceived n flit fec) s = .next s := by
  refine congrArg Host.Outcome.next (if_pos ?_)
  rw [← State.portUsable_iff] at h
  simpa [imp_iff_not_or] using h

section
variable {n : Nat} {flit : Bytes} {fec : Fec} (h : ((s.port n).state = 2 ∨ (s.port n).state = 3) ∧ flit.length = 256)
include h

theorem exec_flitReceived : exec (.flitReceived n flit fec) s = .next (
    if fec.inBad = true ∨ crc32c (slice flit 0 252) ≠ BitVec.ofNat 32 (leAt flit 252 4) then
      (s.setPort n ((s.port n).fecCounted fec)).openGap n
    else (s.setPort n ((s.port n).fecCounted fec)).goodFlit n flit) := by
  refine congrArg Host.Outcome.next (if_neg ?_)
  rw [← State.portUsable_iff] at h
  simp [h]

theorem exec_flitReceived_good (hg : fec.inBad = false ∧ crc32c (slice flit 0 252) = BitVec.ofNat 32 (leAt flit 252 4)) :
    exec (.flitReceived n flit fec) s = .next ((s.setPort n ((s.port n).fecCounted fec)).goodFlit n flit) := by
  rw [exec_flitReceived h, if_neg]
  simp [hg]

theorem exec_flitReceived_bad (hg : ¬ (fec.inBad = false ∧ crc32c (slice flit 0 252) = BitVec.ofNat 32 (leAt flit 252 4))) :
    exec (.flitReceived n flit fec) s = .next ((s.setPort n ((s.port n).fecCounted fec)).openGap n) := by
  rw [exec_flitReceived h, if_pos]
  simpa [imp_iff_not_or] using hg
end

theorem State.send_flits (s : State) (n : Nat) (l : List (Nat × Bytes)) :
    l.foldl (fun s f => s.send (.flit n f.2)) s = { s with sent := (l.map fun f => Sent.flit n f.2).reverse ++ s.sent } := by
  induction l generalizing s with
  | nil => rfl
  | cons f l ih => rw [List.foldl_cons, ih]; simp [State.send]

theorem State.replayPort_eq (s : State) (n : Nat) : s.replayPort n =
    ({ s with sent := ((s.port n).replay.map fun f => Sent.flit n (f.2 : Bytes)).reverse ++ s.sent } : State).setPort n { s.port n with
      retransmissions := (s.port n).retransmissions + BitVec.ofNat 32 (s.port n).replay.length
      replays := (s.port n).replays + 1, ackAt := s.now } := by
  unfold State.replayPort
  dsimp only
  rw [State.send_flits]

/-- Flits are unacknowledged and no ACK has advanced for 4 µs (R479). -/
abbrev State.replayDue (s : State) (n : Nat) : Prop :=
  ((s.port n).state = 2 ∨ (s.port n).state = 3) ∧ (s.port n).replay ≠ [] ∧ (s.port n).ackAt + 4000 ≤ s.now

theorem exec_replayTimeout (s : State) (n : Nat) :
    exec (.replayTimeout n) s = .next (if s.replayDue n then s.replayOrDown n else s) := by
  refine congrArg Host.Outcome.next (if_congr ?_ rfl rfl)
  simp [State.replayDue, State.portUsable_iff, and_assoc]

theorem State.replayOrDown_down {n : Nat} (h : 16 ≤ (s.port n).replays) : s.replayOrDown n = s.portDown n := if_pos h

theorem State.replayOrDown_replay {n : Nat} (h : (s.port n).replays < 16) (hr : (s.port n).replay ≠ []) :
    s.replayOrDown n = s.replayPort n :=
  (if_neg (by omega)).trans (if_neg (by simpa using hr))

end Sys2Proof.Machine

section
open Sys2Proof Sys2Proof.Machine Sys2Proof.Claims

/-- Settles O49: case by case along the conditions of the port layer's commands; entry to DOWN loses every request that is
pending through the port. -/
theorem linkPortLayer : Obligations.LinkPortLayer := by
  refine ⟨fun s n width lane => ⟨exec_trainingDone_none, fun h hf => ⟨_, exec_trainingDone h hf, ?_, fun k hk => ?_⟩⟩,
    fun s n => ⟨⟨?_, ?_, ?_, State.portReqs_portDown s n, fun k hk => ?_⟩, fun h => congrArg Host.Outcome.next (if_pos h),
      fun h => congrArg Host.Outcome.next (if_neg h), fun h => congrArg Host.Outcome.next (if_pos ((State.portUsable_iff s n).2 h)),
      fun h2 h3 => congrArg Host.Outcome.next (if_neg fun hu => ((State.portUsable_iff s n).1 hu).elim h2 h3),
      fun h => congrArg Host.Outcome.next (if_neg h), fun h => ⟨_, congrArg Host.Outcome.next (if_pos h), ?_, fun k hk => ?_⟩⟩,
    fun s n flit fec => ⟨exec_flitReceived_none, fun h hg hn => ⟨_, exec_flitReceived_bad h hg, ?_⟩,
      fun h hg hn => ⟨_, exec_flitReceived_bad h hg, ?_⟩, exec_flitReceived_good⟩,
    fun s n => ⟨fun h => ?_, fun h hr => ?_, fun h hr => ⟨_, (exec_replayTimeout s n).trans
      (congrArg Host.Outcome.next ((if_pos h).trans (State.replayOrDown_replay hr h.2.1))), ?_⟩⟩⟩
  · exact State.port_setPort_self ..
  · exact (State.port_setPort ..).trans (if_neg hk)
  · rw [State.port_portDown, if_pos rfl]
  · rw [State.port_portDown, if_pos rfl]; rfl
  · rw [State.port_portDown, if_pos rfl]; rfl
  · rw [State.port_portDown, if_neg hk]
  · exact State.port_setPort_self ..
  · exact (State.port_setPort ..).trans (if_neg hk)
  · rw [State.openGap_sent (by rw [State.port_setPort_self]; exact hn)]
    exact ⟨State.port_setPort_self .., rfl⟩
  · rw [State.openGap_fresh (by rw [State.port_setPort_self]; exact hn), State.port_setPort_self]
    exact ⟨State.port_setPort_self .., rfl⟩
  · exact (exec_replayTimeout s n).trans (congrArg Host.Outcome.next (if_neg h))
  · exact (exec_replayTimeout s n).trans (congrArg Host.Outcome.next ((if_pos h).trans (State.replayOrDown_down hr)))
  · rw [State.replayPort_eq]
    exact ⟨rfl, State.port_setPort_self ..⟩
end

namespace Sys2Proof.Machine
open Sys2Proof.Claims

variable {s : State} {n : Nat} {pk : Packet}

/-! ### COMMIT_NOTICE and WITHDRAW (R500) -/

section
variable (h : s.headOf n 3 0x0A = some pk)
include h

theorem exec_commitNotice_unmatched (hc : (s.takePacket n 3 0).contributorOf pk.hdr = none) :
    exec (.commitNotice n) s = .next (s.takePacket n 3 0).countIgnored := by
  change execCommitNotice n s = _
  unfold execCommitNotice
  rw [h]
  dsimp only
  rw [hc]

variable {q : Nat} {c : Cmd} {e : Contributor} (hc : (s.takePacket n 3 0).contributorOf pk.hdr = some (q, c, e))
include hc

theorem exec_commitNotice_withdrawn {w : Nat} (hw : e.withdrawn = some w) (ha : attemptBefore w pk.hdr.attempt = false) :
    exec (.commitNotice n) s = .next (s.takePacket n 3 0).countIgnored := by
  change execCommitNotice n s = _
  unfold execCommitNotice
  rw [h]
  dsimp only
  rw [hc]
  dsimp only
  rw [hw]
  exact congrArg Host.Outcome.next (if_neg (ne_true_of_eq_false ha))

theorem exec_commitNotice_accepted (hw : ¬ ∃ w, e.withdrawn = some w ∧ attemptBefore w pk.hdr.attempt = false) :
    exec (.commitNotice n) s = .next
      (((s.takePacket n 3 0).putContributor q c.seq { e with notice := some pk.hdr.attempt }).noticeAtSlot q c) := by
  change execCommitNotice n s = _
  unfold execCommitNotice
  rw [h]
  dsimp only
  rw [hc]
  dsimp only
  refine congrArg Host.Outcome.next (if_pos ?_)
  cases hd : e.withdrawn with
  | none => rfl
  | some w => exact Bool.of_not_eq_false fun ha => hw ⟨w, hd, ha⟩
end

section
variable (h : s.headOf n 3 0x0B = some pk)
include h

theorem exec_withdraw_unmatched (hc : (s.takePacket n 3 0).contributorOf pk.hdr = none) :
    exec (.withdraw n) s = .next (s.takePacket n 3 0).countIgnored := by
  change execWithdraw n s = _
  unfold execWithdraw
  rw [h]
  dsimp only
  rw [hc]

variable {q : Nat} {c : Cmd} {e : Contributor} (hc : (s.takePacket n 3 0).contributorOf pk.hdr = some (q, c, e))
include hc

theorem exec_withdraw_late {m : Nat} (hm : e.notice = some m) (ha : attemptBefore pk.hdr.attempt m = true) :
    exec (.withdraw n) s = .next (s.takePacket n 3 0).countIgnored := by
  change execWithdraw n s = _
  unfold execWithdraw
  rw [h]
  dsimp only
  rw [hc]
  dsimp only
  rw [hm]
  exact congrArg Host.Outcome.next (if_pos ha)

/-- The attempt up to which notices are withdrawn: the WITHDRAW's, unless a later one has been taken. -/
theorem exec_withdraw_accepted (hm : ¬ ∃ m, e.notice = some m ∧ attemptBefore pk.hdr.attempt m = true) :
    ∃ w, exec (.withdraw n) s = .next
        ((s.takePacket n 3 0).putContributor q c.seq { e with notice := none, withdrawn := some w }) ∧
      (w = pk.hdr.attempt ∨ e.withdrawn = some w) := by
  change ∃ w, execWithdraw n s = _ ∧ _
  unfold execWithdraw
  rw [h]
  dsimp only
  rw [hc]
  dsimp only
  rw [if_neg]
  · refine ⟨_, rfl, ?_⟩
    cases e.withdrawn with
    | none => exact .inl rfl
    | some w =>
      dsimp only
      split_ifs
      · exact .inr rfl
      · exact .inl rfl
  · cases hn : e.notice with
    | none => exact Bool.false_ne_true
    | some m => exact fun ha => hm ⟨m, hn, ha⟩
end

/-! ### ABANDON (R500, R501) -/

section
variable (h : s.headOf n 3 0x0C = some pk)
include h

theorem exec_abandon_requested {q : Nat} {c : Cmd} {e : Contributor}
    (hc : (s.takePacket n 3 0).contributorOf pk.hdr = some (q, c, e)) (hp : c.phase = .requested) :
    exec (.abandon n) s = .next (s.takePacket n 3 0) := by
  change execAbandon n s = _
  unfold execAbandon
  rw [h]
  dsimp only
  rw [hc]
  exact congrArg Host.Outcome.next (if_pos hp)

theorem exec_abandon_recv {q : Nat} {c : Cmd} {e : Contributor}
    (hc : (s.takePacket n 3 0).contributorOf pk.hdr = some (q, c, e)) (hp : c.phase ≠ .requested) :
    exec (.abandon n) s = .next ((s.takePacket n 3 0).failAlways q c.seq 0x0503) := by
  change execAbandon n s = _
  unfold execAbandon
  rw [h]
  dsimp only
  rw [hc]
  exact congrArg Host.Outcome.next (if_neg hp)

variable (hc : (s.takePacket n 3 0).contributorOf pk.hdr = none)
include hc

theorem exec_abandon_sender {q m : Nat} (hm : (s.takePacket n 3 0).senderOf pk.hdr = some (q, m)) :
    exec (.abandon n) s = .next ((s.takePacket n 3 0).failAlways q m 0x0503) := by
  change execAbandon n s = _
  unfold execAbandon
  rw [h]
  dsimp only
  rw [hc]
  dsimp only
  rw [hm]
  rfl

theorem exec_abandon_nobody (hm : (s.takePacket n 3 0).senderOf pk.hdr = none) :
    exec (.abandon n) s = .next (s.takePacket n 3 0) := by
  change execAbandon n s = _
  unfold execAbandon
  rw [h]
  dsimp only
  rw [hc]
  dsimp only
  rw [hm]
end

theorem exec_notice_none {ty : Nat} {c : Instr}
    (hc : (c, ty) ∈ [(Instr.commitNotice n, 0x0A), (.withdraw n, 0x0B), (.abandon n, 0x0C), (.pace n, 0x0D)])
    (h : s.headOf n 3 ty = none) : exec c s = .next s := by
  simp only [List.mem_cons, Prod.mk.injEq, List.not_mem_nil, or_false] at hc
  obtain ⟨rfl, rfl⟩ | ⟨rfl, rfl⟩ | ⟨rfl, rfl⟩ | ⟨rfl, rfl⟩ := hc
  · change execCommitNotice n s = _
    unfold execCommitNotice
    rw [h]
  · change execWithdraw n s = _
    unfold execWithdraw
    rw [h]
  · change execAbandon n s = _
    unfold execAbandon
    rw [h]
  · change execPace n s = _
    unfold execPace
    rw [h]

/-! ### PACE (R511, R513, R514) -/

theorem leAt_lt (b : Bytes) (o n : Nat) : leAt b o n < 256 ^ n := by
  unfold leAt slice
  refine (leNat_lt _).trans_le (Nat.pow_le_pow_right (by decide) ?_)
  simp

/-- One member's place when a notice is recorded in its group (R511). -/
def PaceGroup.noteAt (m : Notice) (now : BitVec 48) (standing : Notice → Bool) (y : PaceGroup) (k : Nat) : PaceGroup :=
  let old := match Tab.find? y.notices k with
    | some o => standing o && decide (2 ^ 31 ≤ (m.frame - o.frame).toNat)
    | none => false
  if old then y else { y with notices := Tab.set y.notices k m, holdFrom := some now, holdOver := false }

section
variable (m : Notice) (now : BitVec 48) (standing : Notice → Bool) {y : PaceGroup} {k : Nat}

theorem PaceGroup.note_eq (x : PaceGroup) (source : Nat) : x.note source m now standing =
    ((List.range x.count).filter fun k => Tab.look 0xFFFF x.members k == source).foldl (PaceGroup.noteAt m now standing) x := rfl

theorem PaceGroup.noteAt_fresh (h : Tab.find? y.notices k = none) :
    Tab.find? (y.noteAt m now standing k).notices k = some m := by
  unfold PaceGroup.noteAt
  rw [h]
  exact Tab.find?_set_same ..

theorem PaceGroup.noteAt_other (y : PaceGroup) {j : Nat} (h : k ≠ j) :
    Tab.find? (y.noteAt m now standing j).notices k = Tab.find? y.notices k := by
  unfold PaceGroup.noteAt
  extract_lets old
  split
  · rfl
  · exact Tab.find?_set_other _ h _

theorem PaceGroup.find?_foldl_noteAt (l : List Nat) (y : PaceGroup) (h : k ∉ l) :
    Tab.find? (l.foldl (PaceGroup.noteAt m now standing) y).notices k = Tab.find? y.notices k := by
  induction l generalizing y with
  | nil => rfl
  | cons j l ih =>
    rw [List.mem_cons, not_or] at h
    rw [List.foldl_cons, ih _ h.2, PaceGroup.noteAt_other _ _ _ _ h.1]

/-- A member that has no notice has the new one afterwards. -/
theorem PaceGroup.note_fresh {x : PaceGroup} {source : Nat} (hk : k < x.count) (hs : Tab.look 0xFFFF x.members k = source)
    (h : Tab.find? x.notices k = none) : Tab.find? (x.note source m now standing).notices k = some m := by
  rw [PaceGroup.note_eq]
  have hmem : k ∈ (List.range x.count).filter fun k => Tab.look 0xFFFF x.members k == source := by simp [hk, hs]
  have hnodup : ((List.range x.count).filter fun k => Tab.look 0xFFFF x.members k == source).Nodup := List.nodup_range.filter _
  obtain ⟨a, b, hab⟩ := List.append_of_mem hmem
  rw [hab] at hnodup ⊢
  have hb : k ∉ b := (List.nodup_cons.1 (List.nodup_append.1 hnodup).2.1).1
  have ha : k ∉ a := fun hka => (List.nodup_append.1 hnodup).2.2 k hka k List.mem_cons_self rfl
  rw [List.foldl_append, List.foldl_cons, PaceGroup.find?_foldl_noteAt _ _ _ _ _ hb]
  exact PaceGroup.noteAt_fresh _ _ _ ((PaceGroup.find?_foldl_noteAt _ _ _ _ _ ha).trans h)
end

theorem State.pace_sendIdle (s : State) (n k : Nat) : (s.sendIdle n).pace k = s.pace k := by
  unfold State.sendIdle
  dsimp only
  split <;> rfl

theorem State.pace_takePacket (s : State) (n v i k : Nat) : (s.takePacket n v i).pace k = s.pace k := by
  unfold State.takePacket
  split
  · rfl
  · dsimp only
    split
    · rfl
    · exact State.pace_sendIdle ..

theorem State.standing?_of_frame {s t : State} (h : t.frame = s.frame) : t.standing? = s.standing? := by
  funext x
  unfold State.standing?
  rw [h]

/-- What a PACE packet does for group `i` (R511, R513, R514). -/
def State.paceStep (port : Nat) (pk : Packet) (s : State) (i : Nat) : State :=
  if (s.pace i).count = 0 ∨ (s.pace i).number ≠ leAt pk.payload 0 2 then s
  else
    let m := paceFlits 2 i (leAt pk.payload 2 2) pk.hdr.src (BitVec.ofNat 16 (leAt pk.payload 4 4))
    (s.lanCarry 2 stopMgmt (stopPort port) m).takePace i m

/-- The notice that a PACE packet brings (R513, R514). -/
def State.paceNotice (s : State) (pk : Packet) : Notice :=
  { rate := leAt pk.payload 2 2, frame := nearFrame s.frame.counter (BitVec.ofNat 16 (leAt pk.payload 4 4)) }

/-- The message that tells the management processor of a PACE packet for group `i` (R514). -/
def State.paceMsg (s : State) (port : Nat) (pk : Packet) (i : Nat) : LanMsg :=
  { ty := 2, dest := stopMgmt, src := stopPort port, high := false, at' := s.now
    payload := [BitVec.ofNat 32 (2 * 2 ^ 28 + i * 2 ^ 24 + leAt pk.payload 2 2),
      BitVec.ofNat 32 (pk.hdr.src % 65536 * 65536 + (BitVec.ofNat 16 (leAt pk.payload 4 4)).toNat)] }

theorem exec_pace (h : s.headOf n 3 0x0D = some pk) :
    exec (.pace n) s = .next ((List.range 16).foldl (State.paceStep n pk) (s.takePacket n 3 0)) := by
  change execPace n s = _
  unfold execPace
  rw [h]
  rfl

section
variable {i : Nat}

theorem paceFlits_rate {rate : Nat} (src : Nat) (low : BitVec 16) (hr : rate < 65536) :
    fieldN ((paceFlits 2 i rate src low).getD 0 0).toNat 0 16 = rate := by
  simp only [paceFlits, fieldN, List.getD_cons_zero, BitVec.toNat_ofNat]
  omega

theorem paceFlits_source (rate src : Nat) (low : BitVec 16) :
    fieldN ((paceFlits 2 i rate src low).getD 1 0).toNat 16 16 = src % 65536 := by
  have := low.isLt
  simp only [paceFlits, fieldN, List.getD_cons_succ, List.getD_cons_zero, BitVec.toNat_ofNat]
  omega

theorem paceFlits_frame (rate src : Nat) (low : BitVec 16) :
    BitVec.ofNat 16 ((paceFlits 2 i rate src low).getD 1 0).toNat = low := by
  have := low.isLt
  apply BitVec.eq_of_toNat_eq
  simp only [paceFlits, List.getD_cons_succ, List.getD_cons_zero, BitVec.toNat_ofNat]
  omega

theorem State.paceStep_other (h : ¬ ((s.pace i).count ≠ 0 ∧ (s.pace i).number = leAt pk.payload 0 2)) :
    s.paceStep n pk i = s := by
  refine if_pos ?_
  by_cases hc : (s.pace i).count = 0
  · exact .inl hc
  · exact .inr fun hn => h ⟨hc, hn⟩

/-- A group of the packet's number records the notice, and a message says so. -/
theorem State.paceStep_mine (h : (s.pace i).count ≠ 0 ∧ (s.pace i).number = leAt pk.payload 0 2) :
    s.paceStep n pk i = { s with mesh := { s.mesh with carried := s.paceMsg n pk i :: s.mesh.carried } }.setPace i
      ((s.pace i).note (pk.hdr.src % 65536) (s.paceNotice pk) s.frame.counter s.standing?) := by
  unfold State.paceStep
  rw [if_neg (by simp [h])]
  have hr : leAt pk.payload 2 2 < 65536 := leAt_lt ..
  dsimp only
  unfold State.takePace State.lanCarry
  rw [if_pos (State.stopPowered_mgmt s)]
  dsimp only
  rw [paceFlits_rate _ _ hr, paceFlits_source, paceFlits_frame]
  unfold paceFlits
  rw [Nat.mod_eq_of_lt hr]
  rfl
end

section
variable (n pk)

theorem State.paceStep_keeps (s : State) (i : Nat) : (s.paceStep n pk i).frame = s.frame ∧
    (∀ j, j ≠ i → (s.paceStep n pk i).pace j = s.pace j) ∧ ∀ m ∈ s.mesh.carried, m ∈ (s.paceStep n pk i).mesh.carried := by
  by_cases h : (s.pace i).count ≠ 0 ∧ (s.pace i).number = leAt pk.payload 0 2
  · rw [State.paceStep_mine h]
    exact ⟨rfl, fun j hj => (State.pace_setPace ..).trans (if_neg hj), fun m hm => List.mem_cons_of_mem _ hm⟩
  · rw [State.paceStep_other h]
    exact ⟨rfl, fun _ _ => rfl, fun _ hm => hm⟩

theorem State.foldl_paceStep_keeps (l : List Nat) (s : State) :
    (l.foldl (State.paceStep n pk) s).frame = s.frame ∧
    (∀ j, j ∉ l → (l.foldl (State.paceStep n pk) s).pace j = s.pace j) ∧
    ∀ m ∈ s.mesh.carried, m ∈ (l.foldl (State.paceStep n pk) s).mesh.carried := by
  induction l generalizing s with
  | nil => exact ⟨rfl, fun _ _ => rfl, fun _ hm => hm⟩
  | cons i l ih =>
    obtain ⟨hframe, hpace, hcarried⟩ := State.paceStep_keeps n pk s i
    obtain ⟨hframe', hpace', hcarried'⟩ := ih (s.paceStep n pk i)
    refine ⟨hframe'.trans hframe, fun j hj => ?_, fun m hm => hcarried' m (hcarried m hm)⟩
    rw [List.mem_cons, not_or] at hj
    exact (hpace' j hj.2).trans (hpace j hj.1)

/-- A fold of the sixteen groups turns at group `i` once, from a state that has group and frame as they were. -/
theorem State.foldl_paceStep_at (s : State) {i : Nat} (hi : i < 16) :
    ∃ u : State, u.frame = s.frame ∧ u.pace i = s.pace i ∧
      ((List.range 16).foldl (State.paceStep n pk) s).pace i = (u.paceStep n pk i).pace i ∧
      ∀ m ∈ (u.paceStep n pk i).mesh.carried, m ∈ ((List.range 16).foldl (State.paceStep n pk) s).mesh.carried := by
  obtain ⟨a, b, hab⟩ := List.append_of_mem (List.mem_range.2 hi)
  have hnodup : (a ++ i :: b).Nodup := hab ▸ List.nodup_range
  obtain ⟨-, hib, hdisjoint⟩ := List.nodup_append.1 hnodup
  have hb := (List.nodup_cons.1 hib).1
  have ha : i ∉ a := fun h => hdisjoint i h i List.mem_cons_self rfl
  obtain ⟨hframe, hpace, -⟩ := State.foldl_paceStep_keeps n pk a s
  obtain ⟨-, hpace', hcarried⟩ := State.foldl_paceStep_keeps n pk b
    ((a.foldl (State.paceStep n pk) s).paceStep n pk i)
  rw [hab, List.foldl_append, List.foldl_cons]
  exact ⟨_, hframe, hpace i ha, hpace' i hb, hcarried⟩

variable {i : Nat} (hi : i < 16)
include hi

theorem State.foldl_paceStep_other (h : ¬ ((s.pace i).count ≠ 0 ∧ (s.pace i).number = leAt pk.payload 0 2)) :
    ((List.range 16).foldl (State.paceStep n pk) s).pace i = s.pace i := by
  obtain ⟨u, -, hp, ht, -⟩ := State.foldl_paceStep_at n pk s hi
  rw [ht, State.paceStep_other (hp.symm ▸ h), hp]

theorem State.foldl_paceStep_mine (h : (s.pace i).count ≠ 0 ∧ (s.pace i).number = leAt pk.payload 0 2) :
    ((List.range 16).foldl (State.paceStep n pk) s).pace i =
      (s.pace i).note (pk.hdr.src % 65536) (s.paceNotice pk) s.frame.counter s.standing? ∧
    ∃ u : State, u.paceMsg n pk i ∈ ((List.range 16).foldl (State.paceStep n pk) s).mesh.carried := by
  obtain ⟨u, hf, hp, ht, hcarried⟩ := State.foldl_paceStep_at n pk s hi
  rw [State.paceStep_mine (hp.symm ▸ h)] at ht hcarried
  refine ⟨?_, u, hcarried _ List.mem_cons_self⟩
  rw [ht, State.pace_setPace_self, hp, hf, State.standing?_of_frame hf]
  unfold State.paceNotice
  rw [hf]
end

/-- PACE, group by group. -/
theorem gives_pace (h : s.headOf n 3 0x0D = some pk) : Gives (.pace n) s fun t =>
    ∀ i, i < 16 →
      (¬ ((s.pace i).count ≠ 0 ∧ (s.pace i).number = leAt pk.payload 0 2) → t.pace i = s.pace i) ∧
      ((s.pace i).count ≠ 0 ∧ (s.pace i).number = leAt pk.payload 0 2 →
        t.pace i = (s.pace i).note (pk.hdr.src % 65536) (s.paceNotice pk) s.frame.counter s.standing? ∧
        ∃ u : State, u.paceMsg n pk i ∈ t.mesh.carried) := by
  refine ⟨_, exec_pace h, fun i hi => ?_⟩
  have hp := State.pace_takePacket s n 3 0 i
  have hf := State.frame_takePacket s n 3 0
  rw [← hp]
  refine ⟨State.foldl_paceStep_other n pk hi, fun hm => ?_⟩
  have hmine := State.foldl_paceStep_mine n pk hi hm
  unfold State.paceNotice at hmine ⊢
  rwa [hf, State.standing?_of_frame hf] at hmine

/-! ### PACE_NOTICE_EXPIRY and PACE_HOLD_LIMIT (R511) -/

section
variable {g k : Nat}

theorem exec_paceNoticeExpiry_gone {m : Notice} (hm : Tab.find? (s.pace g).notices k = some m) (h : s.standing? m = false) :
    exec (.paceNoticeExpiry g k) s =
      .next (s.setPace g { s.pace g with notices := Tab.erase (s.pace g).notices k }) := by
  change execPaceNoticeExpiry g k s = _
  unfold execPaceNoticeExpiry
  rw [hm]
  exact congrArg Host.Outcome.next (if_neg (by rw [h]; exact Bool.false_ne_true))

theorem exec_paceNoticeExpiry_none (h : ¬ ∃ m, Tab.find? (s.pace g).notices k = some m ∧ s.standing? m = false) :
    exec (.paceNoticeExpiry g k) s = .next s := by
  change execPaceNoticeExpiry g k s = _
  unfold execPaceNoticeExpiry
  cases hm : Tab.find? (s.pace g).notices k with
  | none => rfl
  | some m => exact congrArg Host.Outcome.next (if_pos (Bool.of_not_eq_false fun hs => h ⟨m, hm, hs⟩))

theorem exec_paceHoldLimit_over (h : (s.pace g).hold = true ∧ s.holdSpent (s.pace g) = true) :
    exec (.paceHoldLimit g) s = .next (s.setPace g { s.pace g with hold := false, holdOver := true }) :=
  congrArg Host.Outcome.next (if_pos (by simp [h]))

theorem exec_paceHoldLimit_none (h : (s.pace g).hold = false ∨ s.holdSpent (s.pace g) = false) :
    exec (.paceHoldLimit g) s = .next s :=
  congrArg Host.Outcome.next (if_neg (by rcases h with h | h <;> simp [h]))
end

end Sys2Proof.Machine

section
open Sys2Proof Sys2Proof.Machine Sys2Proof.Claims

/-- Settles O51: each notice by what its packet matches, and PACE group by group. -/
theorem noticesAndPace : Obligations.NoticesAndPace := by
  refine ⟨fun s n ty c => exec_notice_none, fun s n pk =>
    ⟨fun h => ⟨exec_commitNotice_unmatched h, fun q c e hc => ⟨fun ⟨w, hw, ha⟩ => exec_commitNotice_withdrawn h hc hw ha,
        exec_commitNotice_accepted h hc⟩⟩,
      fun h => ⟨exec_withdraw_unmatched h, fun q c e hc => ⟨fun ⟨m, hm, ha⟩ => exec_withdraw_late h hc hm ha,
        exec_withdraw_accepted h hc⟩⟩,
      fun h => ⟨fun q c e => exec_abandon_requested h, fun q c e => exec_abandon_recv h,
        fun q m hc => exec_abandon_sender h hc, exec_abandon_nobody h⟩, fun h => ?_⟩,
    fun s g k => ⟨exec_paceNoticeExpiry_none, fun ⟨m, hm, h⟩ => ⟨_, exec_paceNoticeExpiry_gone hm h, ?_⟩,
      fun h => ⟨_, exec_paceHoldLimit_over h, State.pace_setPace_self .., fun j hj => (State.pace_setPace ..).trans (if_neg hj)⟩,
      exec_paceHoldLimit_none⟩⟩
  · obtain ⟨t, ht, hgroups⟩ := gives_pace h
    refine ⟨t, ht, fun i hi => ⟨(hgroups i hi).1, fun hm => ?_, fun k hk hnumber hsource hnone => ?_⟩⟩
    · obtain ⟨hnote, u, hu⟩ := (hgroups i hi).2 hm
      exact ⟨hnote, _, hu, rfl, rfl, rfl, rfl⟩
    · have hcount : (s.pace i).count ≠ 0 := by omega
      rw [((hgroups i hi).2 ⟨hcount, hnumber⟩).1]
      exact PaceGroup.note_fresh _ _ _ hk hsource hnone
  · beta_reduce
    rw [State.pace_setPace_self]
    exact ⟨Tab.find?_erase_same .., fun j hj => Tab.find?_erase_other _ hj, fun j hj => (State.pace_setPace ..).trans (if_neg hj)⟩
end

namespace Sys2Proof.Machine
open Sys2Proof.Claims

variable {s : State} {via : Via} {n : Nat}

/-! ### Link keys (R484, R486, R487) -/

/-- A port with REKEY_DUE as its selected transmit slot has it (R487). -/
def Port.rekeyNoted (p : Port) : Port :=
  { p with rekeyDue := match Tab.find? p.tx p.txSel with
    | some k => decide (2 ^ 47 ≤ k.counter)
    | none => false }

theorem State.noteRekey_setPort (s : State) (n : Nat) (p : Port) :
    (s.setPort n p).noteRekey n = (s.setPort n p).setPort n p.rekeyNoted := by
  unfold State.noteRekey State.modPort
  rw [State.port_setPort_self]
  rfl

/-- With no packet waiting at a port, none may leave. -/
theorem State.pumpPort_of_idle (h : (s.port n).waiting = 0) : s.pumpPort n = s := by
  unfold State.pumpPort
  rw [h]
  rfl

/-- What a key or a selection written to a port does to the state while no packet waits there. -/
theorem State.pump_noteRekey {p : Port} (h : p.waiting = 0) :
    ((s.setPort n p).noteRekey n).pumpPort n = (s.setPort n p).setPort n p.rekeyNoted := by
  rw [State.noteRekey_setPort]
  refine State.pumpPort_of_idle ?_
  rw [State.port_setPort_self]
  exact h

theorem State.port_setPort_twice (s : State) {n k : Nat} (p q : Port) (h : k ≠ n) :
    ((s.setPort n p).setPort n q).port k = s.port k := by
  rw [State.port_setPort, if_neg h, State.port_setPort, if_neg h]

section
variable (h : Serves s via true true)
include h

theorem answers_txKeyWrite (slot : Nat) (key : Bytes) : Answers (.txKeyWrite via n slot key) s via 0x00
    (((s.setPort n { s.port n with tx := Tab.set (s.port n).tx slot { key, counter := 0 } }).noteRekey n).pumpPort n) :=
  answers_of_objWrite h (act := putTxKey n slot key) rfl (by unfold putTxKey State.modPort; rfl)

theorem answers_rxKeyWrite (slot : Nat) (key : Bytes) : Answers (.rxKeyWrite via n slot key) s via 0x00
    (s.setPort n { s.port n with rx := Tab.set (s.port n).rx slot { key, counter := 0 } }) :=
  answers_of_objWrite h rfl rfl

theorem answers_transmitSelection (v : BitVec 8) : Answers (.transmitSelection via n v) s via 0x00
    (((s.setPort n { s.port n with txSel := v.toNat % 2 }).noteRekey n).pumpPort n) :=
  answers_of_objWrite h (act := putTxSel n v) rfl (by unfold putTxSel State.modPort; rfl)

/-- The receive slots that are left when bits [1:0] of a byte invalidate slots 1 and 0 (R487). -/
def keptSlots (rx : Tab LinkKey) (v : BitVec 8) : Tab LinkKey :=
  let rx := if v.getLsbD 0 then Tab.erase rx 0 else rx
  if v.getLsbD 1 then Tab.erase rx 1 else rx

theorem answers_receiveSlotInvalidate (v : BitVec 8) : Answers (.receiveSlotInvalidate via n v) s via 0x00
    (s.setPort n { s.port n with rx := keptSlots (s.port n).rx v }) :=
  answers_of_objWrite h rfl rfl
end

theorem find?_eraseIf {α : Type} (t : Tab α) (b : Bool) (j slot : Nat) :
    Tab.find? (if b then Tab.erase t j else t) slot = if slot = j ∧ b = true then none else Tab.find? t slot := by
  cases b
  · simp
  · by_cases hs : slot = j
    · subst hs; simp [Tab.find?_erase_same]
    · simp [hs, Tab.find?_erase_other]

theorem find?_keptSlots (rx : Tab LinkKey) (v : BitVec 8) (slot : Nat) : Tab.find? (keptSlots rx v) slot =
    if (slot = 0 ∧ v.getLsbD 0 = true) ∨ (slot = 1 ∧ v.getLsbD 1 = true) then none else Tab.find? rx slot := by
  unfold keptSlots
  rw [find?_eraseIf, find?_eraseIf, ← ite_or]
  simp only [or_comm]

theorem toNat_mod_two (v : BitVec 8) : v.toNat % 2 = if v.getLsbD 0 then 1 else 0 := by
  have hbit : v.getLsbD 0 = decide (v.toNat % 2 = 1) := by
    rw [BitVec.getLsbD, Nat.testBit_zero]
  rw [hbit]
  rcases Nat.mod_two_eq_zero_or_one v.toNat with h | h <;> simp [h]

end Sys2Proof.Machine

section
open Sys2Proof Sys2Proof.Machine Sys2Proof.Claims

/-- Settles O52: each write sets its field of the port, and with no packet waiting nothing leaves. -/
theorem linkKeySlots : Obligations.LinkKeySlots := by
  intro s via n h
  refine ⟨fun slot key => ⟨answers_txKeyWrite h slot key, fun hw => ⟨_, answers_txKeyWrite h slot key, ?_⟩,
      ⟨_, answers_rxKeyWrite h slot key, State.port_setPort_self .., ?_, fun k hk => (State.port_setPort ..).trans (if_neg hk)⟩⟩,
    fun v => ⟨answers_transmitSelection h v, fun hw => ⟨_, answers_transmitSelection h v, ?_⟩,
      ⟨_, answers_receiveSlotInvalidate h v, ?_⟩⟩⟩
  · rw [State.pump_noteRekey (s := s) (n := n) (p := { s.port n with tx := Tab.set (s.port n).tx slot { key, counter := 0 } }) hw,
      State.port_setPort_self]
    exact ⟨rfl, Tab.find?_set_same .., fun k hk => State.port_setPort_twice _ _ _ hk, rfl⟩
  · rw [State.port_setPort_self]
    exact Tab.find?_set_same ..
  · rw [State.pump_noteRekey (s := s) (n := n) (p := { s.port n with txSel := v.toNat % 2 }) hw, State.port_setPort_self,
      toNat_mod_two]
    exact ⟨rfl, fun k hk => State.port_setPort_twice _ _ _ hk⟩
  · rw [State.port_setPort_self]
    exact ⟨rfl, fun k hk => (State.port_setPort ..).trans (if_neg hk), find?_keptSlots _ v⟩
end

namespace Sys2Proof.Machine
open Sys2Proof.Claims

variable {s : State}

/-! ### Modbus TCP (R630 to R632) -/

/-- A count of the management port's own counters steps by one (R633). -/
theorem State.look_dgCount (s : State) (i j : Nat) : Tab.look 0 (s.dgCount i).dict.counters j =
    if j = i then (Tab.look 0 s.dict.counters i + 1) % 2 ^ 32 else Tab.look 0 s.dict.counters j :=
  Tab.look_put ..

/-- A Modbus request on this connection is served (R619, R630, R631). -/
abbrev State.modbusTakes (s : State) (conn : Nat) : Prop :=
  (s.dictOpen .ethernet = true ∧ s.dict.modbusEnabled = true) ∧ conn ∈ s.dict.modbusConns

theorem State.modbusTakes_iff (s : State) (conn : Nat) :
    s.modbusTakes conn ↔ (s.modbusOpen && s.dict.modbusConns.contains conn) = true := by
  simp [State.modbusTakes, State.modbusOpen]

/-- The register that an address names, when it is one of the map's (R632). -/
theorem State.modbusReg_often {a v : Nat} (ha : a ∈ modbusOften) (h : Tab.find? s.dict.modbusSnap a = some v) :
    s.modbusReg a = some v := by
  unfold State.modbusReg
  rw [if_pos (List.contains_iff_mem.2 ha), h]
  rfl

theorem State.modbusReg_now {a : Nat} (h : a ∉ modbusOften ∨ s.dict.modbusSnap = []) : s.modbusReg a = s.modbusNow a := by
  unfold State.modbusReg
  split
  · next hc =>
    rw [h.resolve_left (not_not_intro (List.contains_iff_mem.1 hc))]
    rfl
  · rfl

theorem lt_of_mem_modbusOften : ∀ a ∈ modbusOften, 3 ≤ a ∧ a < 31 := by decide

theorem modbusMap_below : ∀ e ∈ modbusMap, e.1 + e.2.1 ≤ 31 := by decide

theorem State.modbusReg_outside {a : Nat} (h : (31 ≤ a ∧ a < 1000) ∨ (1512 ≤ a ∧ a < 2000) ∨ 2512 ≤ a) :
    s.modbusReg a = none := by
  rw [State.modbusReg_now (.inl fun ha => by have := lt_of_mem_modbusOften a ha; omega)]
  have hnone : modbusMap.find? (fun e => decide (e.1 ≤ a) && decide (a < e.1 + e.2.1)) = none := by
    refine List.find?_eq_none.2 fun e he => ?_
    have := modbusMap_below e he
    simp only [Bool.and_eq_true, decide_eq_true_eq, not_and, not_lt]
    omega
  unfold State.modbusNow
  rw [if_neg (by omega), if_neg (by omega), if_neg (by omega), hnone]

theorem State.modbusReg_frame {k : Nat} (h : k < 3) :
    s.modbusReg k = some (s.frame.counter.toNat / 2 ^ (16 * (2 - k)) % 2 ^ 16) := by
  rw [State.modbusReg_now (.inl fun ha => by have := lt_of_mem_modbusOften k ha; omega)]
  have h29 : ¬ k = 29 := by omega
  have h1000 : ¬ (1000 ≤ k ∧ k < 1512) := by omega
  have h2000 : ¬ (2000 ≤ k ∧ k < 2512) := by omega
  have hmap : modbusMap.find? (fun e => decide (e.1 ≤ k) && decide (k < e.1 + e.2.1)) = some (0, 3, 0x2010, 0) :=
    List.find?_cons_of_pos (by simp; omega)
  have hnum : s.objNum 0x2010 0 = s.frame.counter.toNat := by
    unfold State.objNum
    rw [if_neg (by decide), if_pos (by decide)]
    rfl
  unfold State.modbusNow
  rw [if_neg h29, if_neg h1000, if_neg h2000, hmap]
  dsimp only
  rw [hnum]
  rfl

theorem State.modbusNow_charged {a : Nat} (h : 1000 ≤ a) (h' : a < 1512) :
    s.modbusNow a = some (regWord (s.objNum (0x2100 + (a - 1000) / 2) 4) 2 (a % 2)) :=
  (if_neg (by omega)).trans (if_pos ⟨h, h'⟩)

theorem State.modbusNow_measured {a : Nat} (h : 2000 ≤ a) (h' : a < 2512) :
    s.modbusNow a = some (regWord (s.objNum (0x2100 + (a - 2000) / 2) 3) 2 (a % 2)) :=
  (if_neg (by omega)).trans ((if_neg (by omega)).trans (if_pos ⟨h, h'⟩))

theorem State.modbusReg_bight {bight k : Nat} (hb : bight < 256) (hk : k < 2) :
    s.modbusReg (1000 + 2 * bight + k) = some (s.objNum (0x2100 + bight) 4 / 2 ^ (16 * (1 - k)) % 2 ^ 16) ∧
    s.modbusReg (2000 + 2 * bight + k) = some (s.objNum (0x2100 + bight) 3 / 2 ^ (16 * (1 - k)) % 2 ^ 16) := by
  have hout {a : Nat} (ha : 31 ≤ a) : a ∉ modbusOften := fun hm => by have := lt_of_mem_modbusOften a hm; omega
  have hhalf : (2 * bight + k) / 2 = bight := by omega
  have h1 : (1000 + 2 * bight + k - 1000) / 2 = bight := by rw [Nat.add_assoc, Nat.add_sub_cancel_left, hhalf]
  have h2 : (2000 + 2 * bight + k - 2000) / 2 = bight := by rw [Nat.add_assoc, Nat.add_sub_cancel_left, hhalf]
  have h3 : (1000 + 2 * bight + k) % 2 = k := by omega
  have h4 : (2000 + 2 * bight + k) % 2 = k := by omega
  rw [State.modbusReg_now (.inl (hout (by omega))), State.modbusReg_now (.inl (hout (by omega))),
    State.modbusNow_charged (by omega) (by omega), State.modbusNow_measured (by omega) (by omega), h1, h2, h3, h4]
  exact ⟨rfl, rfl⟩

section
variable {conn code address count : Nat}

theorem State.modbusRead_closed (h : ¬ s.modbusTakes conn) : s.modbusRead conn code address count = s := by
  rw [State.modbusTakes_iff] at h
  exact if_pos (by simpa [imp_iff_not_or] using h)

section
variable (h : s.modbusTakes conn)
include h

theorem State.modbusRead_open : s.modbusRead conn code address count =
    if count = 0 ∨ 125 < count then s.modbusAnswer conn (modbusException code 3)
    else if ((List.range count).map fun k => s.modbusReg (address + k)).any Option.isNone then
      s.modbusAnswer conn (modbusException code 2)
    else s.modbusAnswer conn (leBytes 1 code ++ leBytes 1 (2 * count) ++
      ((List.range count).map fun k => s.modbusReg (address + k)).flatMap fun r => beBytes 2 (r.getD 0)) := by
  rw [State.modbusTakes_iff] at h
  exact if_neg (by simpa using h)

theorem State.modbusRead_count (hc : count = 0 ∨ 125 < count) :
    s.modbusRead conn code address count = s.modbusAnswer conn (modbusException code 3) :=
  (State.modbusRead_open h).trans (if_pos hc)

theorem State.modbusRead_unmapped (h1 : 1 ≤ count) (h125 : count ≤ 125)
    (ha : ∃ a, address ≤ a ∧ a < address + count ∧ s.modbusReg a = none) :
    s.modbusRead conn code address count = s.modbusAnswer conn (modbusException code 2) := by
  obtain ⟨a, hlo, hhi, ha⟩ := ha
  rw [State.modbusRead_open h, if_neg (by omega), if_pos]
  refine List.any_eq_true.2 ⟨none, List.mem_map.2 ⟨a - address, List.mem_range.2 (by omega), ?_⟩, rfl⟩
  rw [show address + (a - address) = a by omega, ha]

theorem State.modbusRead_mapped {f : Nat → Nat} (h1 : 1 ≤ count) (h125 : count ≤ 125)
    (hf : ∀ i, i < count → s.modbusReg (address + i) = some (f i)) :
    s.modbusRead conn code address count = s.modbusAnswer conn
      (leBytes 1 code ++ leBytes 1 (2 * count) ++ (List.range count).flatMap fun i => beBytes 2 (f i)) := by
  have hregs : ((List.range count).map fun k => s.modbusReg (address + k)) = (List.range count).map fun k => some (f k) :=
    List.map_congr_left fun k hk => hf k (List.mem_range.1 hk)
  rw [State.modbusRead_open h, if_neg (by omega), hregs, if_neg (by simp), List.flatMap_map]
  rfl
end

theorem exec_modbusOther_served (h : s.modbusTakes conn) (h3 : code ≠ 3) (h4 : code ≠ 4) :
    exec (.modbusOtherFunctionCode conn code) s = .next (s.modbusAnswer conn (modbusException code 1)) := by
  rw [State.modbusTakes_iff] at h
  exact congrArg Host.Outcome.next (if_pos (by rw [h]; simp [h3, h4]))

theorem exec_modbusOther_none (h : ¬ s.modbusTakes conn ∨ code = 3 ∨ code = 4) :
    exec (.modbusOtherFunctionCode conn code) s = .next s := by
  rw [State.modbusTakes_iff] at h
  refine congrArg Host.Outcome.next (if_neg ?_)
  rcases h with h | rfl | rfl
  · rw [Bool.eq_false_of_not_eq_true h]; simp
  · simp
  · simp

theorem exec_modbusConnection (s : State) (conn : Nat) : exec (.modbusConnection conn) s =
    .next (if (s.dictOpen .ethernet = true ∧ s.dict.modbusEnabled = true) ∧ conn ∉ s.dict.modbusConns ∧
        s.dict.modbusConns.length < 4 then
      { s with dict := { s.dict with modbusConns := s.dict.modbusConns ++ [conn] } } else s) :=
  congrArg Host.Outcome.next (if_congr (by simp [State.modbusOpen, and_assoc]) rfl rfl)

end

/-- A request on a connection is answered with a PDU and counted, and nothing else changes (R631, R633). -/
def ModbusAnswered (s : State) (conn : Nat) (pdu : Bytes) (t : State) : Prop :=
  t.sent = .modbus conn pdu :: s.sent ∧
  (∀ j, Tab.look 0 t.dict.counters j =
    if j = 4 then (Tab.look 0 s.dict.counters 4 + 1) % 2 ^ 32 else Tab.look 0 s.dict.counters j) ∧
  t = { s with dict := { s.dict with counters := t.dict.counters }, sent := t.sent }

theorem State.modbusAnswer_spec (s : State) (conn : Nat) (pdu : Bytes) : ModbusAnswered s conn pdu (s.modbusAnswer conn pdu) :=
  ⟨rfl, s.look_dgCount 4, rfl⟩

section
variable {conn code address count : Nat} {c : Instr} (hc : exec c s = .next (s.modbusRead conn code address count))
include hc

theorem modbusRead_none (h : ¬ s.modbusTakes conn) : exec c s = .next s :=
  hc.trans (congrArg _ (State.modbusRead_closed h))

theorem gives_modbusRead_count (h : s.modbusTakes conn) (hn : count = 0 ∨ 125 < count) :
    Gives c s (ModbusAnswered s conn (modbusException code 3)) :=
  ⟨_, hc.trans (congrArg _ (State.modbusRead_count h hn)), s.modbusAnswer_spec ..⟩

theorem gives_modbusRead_unmapped (h : s.modbusTakes conn) (h1 : 1 ≤ count) (h125 : count ≤ 125)
    (ha : ∃ a, address ≤ a ∧ a < address + count ∧ s.modbusReg a = none) :
    Gives c s (ModbusAnswered s conn (modbusException code 2)) :=
  ⟨_, hc.trans (congrArg _ (State.modbusRead_unmapped h h1 h125 ha)), s.modbusAnswer_spec ..⟩

theorem gives_modbusRead_mapped (f : Nat → Nat) (h : s.modbusTakes conn) (h1 : 1 ≤ count) (h125 : count ≤ 125)
    (hf : ∀ i, i < count → s.modbusReg (address + i) = some (f i)) : Gives c s (ModbusAnswered s conn
      (leBytes 1 code ++ leBytes 1 (2 * count) ++ (List.range count).flatMap fun i => beBytes 2 (f i))) :=
  ⟨_, hc.trans (congrArg _ (State.modbusRead_mapped h h1 h125 hf)), s.modbusAnswer_spec ..⟩
end

/-! ### Objects of the transports (R630, R633, R635) -/

section
variable {via : Via}

/-- The network fields with one of them set (R633). -/
def Dict.withNetwork (d : Dict) (sub : Nat) (v : BitVec 32) : Dict :=
  if sub = 1 then { d with ip := v.toNat } else if sub = 2 then { d with prefixLen := v.toNat } else
    if sub = 3 then { d with gateway := v.toNat } else if sub = 4 then { d with udpPort := v.toNat } else
      { d with modbusEnabled := v.getLsbD 0 }

theorem ite_bnot_iff {α : Type} {ok : Bool} {P : Prop} [Decidable P] (h : ok = true ↔ P) (a b : α) :
    (if !ok then a else b) = if P then b else a := by
  cases ok <;> simp [← h]

theorem putNetwork_eq {sub : Nat} (h1 : 1 ≤ sub) (h5 : sub ≤ 5) (v : BitVec 32) (s : State) : putNetwork sub v.toNat s =
    if (sub = 2 → 8 ≤ v.toNat ∧ v.toNat ≤ 30) ∧ (sub = 4 → v.toNat < 65536) then
      (dOk, { s with dict := if s.dict.withNetwork sub v = s.dict then s.dict
        else { s.dict.withNetwork sub v with modbusConns := [] } })
    else (dRange, s) := by
  have hbit : v.getLsbD 0 = (v.toNat % 2 == 1) := by
    rw [BitVec.getLsbD, Nat.testBit_zero]
    rfl
  unfold Dict.withNetwork
  rw [hbit]
  obtain rfl | rfl | rfl | rfl | rfl : sub = 1 ∨ sub = 2 ∨ sub = 3 ∨ sub = 4 ∨ sub = 5 := by omega
  · exact ite_bnot_iff (iff_of_true rfl ⟨fun h => absurd h (by decide), fun h => absurd h (by decide)⟩) _ _
  · exact ite_bnot_iff (ok := decide (8 ≤ v.toNat) && decide (v.toNat ≤ 30)) (by simp) _ _
  · exact ite_bnot_iff (iff_of_true rfl ⟨fun h => absurd h (by decide), fun h => absurd h (by decide)⟩) _ _
  · exact ite_bnot_iff (ok := decide (v.toNat < 65536)) (by simp) _ _
  · exact ite_bnot_iff (iff_of_true rfl ⟨fun h => absurd h (by decide), fun h => absurd h (by decide)⟩) _ _

theorem not_mem_keys_mapPut {α : Type} [DecidableEq α] {d : α} {f : Nat → α → α} {t : Tab α} {k : Nat} (h : k ∉ Tab.keys t) :
    k ∉ Tab.keys (Tab.mapPut d f t) := by
  rintro hk
  obtain ⟨e, he, rfl⟩ := List.mem_map.1 hk
  obtain ⟨a, ha, rfl⟩ := List.mem_map.1 (List.mem_of_mem_filter he)
  exact h (List.mem_map.2 ⟨a, ha, rfl⟩)

/-- With each key once, what a table reads after all its values have changed is the change of what it read. -/
theorem look_mapPut_of_nodup {α : Type} [DecidableEq α] {d : α} {f : Nat → α → α} (hf : ∀ k, f k d = d) {t : Tab α}
    (h : (Tab.keys t).Nodup) (k : Nat) : Tab.look d (Tab.mapPut d f t) k = f k (Tab.look d t k) := by
  induction t with
  | nil => exact (hf k).symm
  | cons e t ih =>
    obtain ⟨j, v⟩ := e
    obtain ⟨hj, ht⟩ := List.nodup_cons.1 h
    have hrest := ih ht
    have hnone : Tab.find? (Tab.mapPut d f t) j = none := find?_of_not_mem_keys (not_mem_keys_mapPut hj)
    unfold Tab.look Tab.mapPut Tab.mapVals at hrest hnone ⊢
    by_cases hv : f j v = d
    · rw [List.map_cons, List.filter_cons_of_neg (by simp [hv])]
      change (Tab.find? _ k).getD d = f k ((if j = k then some v else Tab.find? t k).getD d)
      split
      · next hjk => subst hjk; rw [hnone]; exact hv.symm
      · exact hrest
    · rw [List.map_cons, List.filter_cons_of_pos (by simp [hv])]
      change (if j = k then some (f j v) else Tab.find? _ k).getD d = f k ((if j = k then some v else Tab.find? t k).getD d)
      split
      · next hjk => subst hjk; rfl
      · exact hrest

theorem exec_networkConfigWrite {sub : Nat} (h1 : 1 ≤ sub) (h5 : sub ≤ 5) (v : BitVec 32) :
    exec (.networkConfigWrite via sub v) s = .next (s.objWrite via false false (putNetwork sub v.toNat)) :=
  congrArg Host.Outcome.next (if_pos ⟨h1, h5⟩)

theorem exec_networkConfigWrite_none {sub : Nat} (h : sub = 0 ∨ 5 < sub) (v : BitVec 32) :
    exec (.networkConfigWrite via sub v) s = .next (s.objWrite via true false fun s => (dNoSubindex, s)) :=
  congrArg Host.Outcome.next (if_neg (by omega))

theorem exec_managementKeyWrite {id : Nat} (h : id < 4) (key : Bytes) :
    exec (.managementKeyWrite via id key) s = .next (s.objWrite via false true (putManagementKey id key)) :=
  congrArg Host.Outcome.next (if_pos h)

theorem exec_managementKeyWrite_none {id : Nat} (h : 4 ≤ id) (key : Bytes) :
    exec (.managementKeyWrite via id key) s = .next (s.objWrite via true false fun s => (dNoSubindex, s)) :=
  congrArg Host.Outcome.next (if_neg (by omega))

theorem State.mgmtKey_set (s : State) (id j : Nat) (k : MgmtKey) :
    ({ s with dict := { s.dict with keys := Tab.set s.dict.keys id k } } : State).mgmtKey j =
      if j = id then k else s.mgmtKey j := Tab.look_set ..

end

end Sys2Proof.Machine

section
open Sys2Proof Sys2Proof.Machine Sys2Proof.Claims

/-- Settles O60: a read by its count and its registers, each write by its range, and the snapshot count by count. -/
theorem modbusAndTransports : Obligations.ModbusAndTransports := by
  refine ⟨fun s conn address count code => ?_, fun s via sub v => ⟨fun h hs => ?_, fun h1 h5 hs hr => ?_, fun h1 h5 hs hr hd => ?_,
      fun h1 h5 hs hr hd => ?_⟩, fun s via id key => ⟨fun h hs => ?_, fun h hs hl => ?_, fun h hs hl => ?_⟩,
    fun s via v hs => ⟨fun hv => ?_, fun hv hn => ?_⟩, fun s link mbps => ⟨_, rfl, ?_, ?_, rfl⟩⟩
  · exact ⟨⟨⟨modbusRead_none rfl, gives_modbusRead_count rfl, gives_modbusRead_unmapped rfl, gives_modbusRead_mapped rfl⟩,
        modbusRead_none rfl, gives_modbusRead_count rfl, gives_modbusRead_unmapped rfl, gives_modbusRead_mapped rfl⟩, fun h h3 h4 => ⟨_, exec_modbusOther_served h h3 h4, s.modbusAnswer_spec conn _⟩,
      exec_modbusOther_none, ⟨fun h => (exec_modbusConnection s conn).trans (congrArg _ (if_pos h)),
        fun h => (exec_modbusConnection s conn).trans (congrArg _ (if_neg h))⟩,
      fun a ha v => State.modbusReg_often ha, fun a => State.modbusReg_now, fun a => State.modbusReg_outside,
      fun k => State.modbusReg_frame, fun bight k => State.modbusReg_bight⟩
  · exact answers_of_objWrite hs (exec_networkConfigWrite_none h v) rfl
  · exact answers_of_objWrite hs (exec_networkConfigWrite h1 h5 v) ((putNetwork_eq h1 h5 v s).trans (if_neg hr))
  · refine answers_of_objWrite hs (exec_networkConfigWrite h1 h5 v) ((putNetwork_eq h1 h5 v s).trans ((if_pos hr).trans ?_))
    rw [if_pos (show s.dict.withNetwork sub v = s.dict from hd)]
    rfl
  · refine answers_of_objWrite hs (exec_networkConfigWrite h1 h5 v) ((putNetwork_eq h1 h5 v s).trans ((if_pos hr).trans ?_))
    rw [if_neg (show s.dict.withNetwork sub v ≠ s.dict from hd)]
    rfl
  · exact answers_of_objWrite hs (exec_managementKeyWrite_none h key) rfl
  · exact answers_of_objWrite hs (exec_managementKeyWrite h key) (if_pos hl)
  · refine ⟨_, answers_of_objWrite hs (exec_managementKeyWrite h key) (if_neg (not_not_intro hl)), ?_, fun j hj => ?_, rfl⟩
    · exact (s.mgmtKey_set id id _).trans (if_pos rfl)
    · exact (s.mgmtKey_set id j _).trans (if_neg hj)
  · refine answers_of_objWrite hs rfl (if_neg fun h => hv ?_)
    exact BitVec.eq_of_toNat_eq h
  · subst hv
    refine ⟨_, answers_of_objWrite hs rfl (if_pos rfl), fun k => ?_, rfl⟩
    exact look_mapPut_of_nodup (f := fun _ n => n % 2 ^ 64) (fun _ => rfl) hn k
  · simp
  · intro h
    have hdown : (link && mbps == 1000) = false := Bool.eq_false_iff.2 fun hup => h (by simpa using hup)
    show (_ && (_ && (link && mbps == 1000))) = false
    rw [hdown, Bool.and_false, Bool.and_false]
end

namespace Sys2Proof.Machine
open Sys2Proof.Claims

variable {s : State} {b d : Bytes}

/-! ### What becomes of a datagram (R626 to R629) -/

/-- The datagram has the form of a request (R626, R629). -/
def DgFormed (b : Bytes) : Prop :=
  leAt b 0 2 = 0x4E44 ∧ leAt b 2 1 = 1 ∧ (dgHeader b).flags < 16 ∧ (dgHeader b).flags.testBit 1 = false ∧ leAt b 0xD 1 = 0 ∧
    (dgHeader b).len ≤ 1024 ∧ b.length = 24 + (dgHeader b).len + (if (dgHeader b).isProtected then 16 else 0)

/-- The key that a datagram names. -/
def State.dgKey (s : State) (b : Bytes) : MgmtKey := s.mgmtKey (dgHeader b).keyId

/-- The data of a protected datagram that opens under its key (R627). -/
def State.dgOpens (s : State) (b : Bytes) : Option Bytes := (s.dgKey b).key.bind fun key =>
  Crypto.gcmOpen key (dgIv 1 (dgHeader b).keyId (dgHeader b).counter) (slice b 0 24) (b.drop 24)

/-- An unprotected request for a READ or a DESCRIBE of an object that is not an expert object (R628). -/
def DgClear (b : Bytes) : Prop :=
  ¬ (dgHeader b).isProtected = true ∧ ((dgHeader b).op = 1 ∨ (dgHeader b).op = 3) ∧
    ∃ r, objRow (dgHeader b).index (dgHeader b).sub = some r ∧ r.expert = false

/-- The COUNTER of a protected request is above the last one accepted, if there is one (R629). -/
def State.DgFresh (s : State) (b : Bytes) : Prop := ∀ c, (s.dgKey b).lastCounter = some c → c < (dgHeader b).counter

/-- The datagram repeats the last protected request accepted (R629). -/
def State.DgAgain (s : State) (b : Bytes) : Prop :=
  (dgHeader b).isProtected = true ∧ s.dgOpens b ≠ none ∧ (s.dgKey b).lastCounter = some (dgHeader b).counter ∧
    b = (s.dgKey b).lastRequest

/-- The request is accepted with these data (R628, R629). -/
def State.DgAccepted (s : State) (b d : Bytes) : Prop :=
  DgFormed b ∧ ((DgClear b ∧ d = slice b 24 (dgHeader b).len) ∨
    ((dgHeader b).isProtected = true ∧ s.dgOpens b = some d ∧ s.DgFresh b))

theorem dgMalformed_iff (b : Bytes) : dgMalformed b = false ↔ DgFormed b := by
  unfold dgMalformed DgFormed
  simp [and_assoc]

theorem basicObject_iff (index sub : Nat) :
    basicObject index sub = true ↔ ∃ r, objRow index sub = some r ∧ r.expert = false := by
  unfold basicObject
  cases objRow index sub <;> simp

theorem State.dgFate_malformed (h : ¬ DgFormed b) : s.dgFate b = .drop := by
  rw [← dgMalformed_iff, Bool.not_eq_false] at h
  exact if_pos h

section
variable (h : DgFormed b)
include h

theorem State.dgFate_protected (hp : (dgHeader b).isProtected = true) : s.dgFate b = s.dgProtected b := by
  rw [← dgMalformed_iff] at h
  exact (if_neg (by rw [h]; exact Bool.false_ne_true)).trans (if_pos hp)

theorem State.dgFate_clear (hc : DgClear b) : s.dgFate b = .accept (slice b 24 (dgHeader b).len) := by
  obtain ⟨hp, hop, hbasic⟩ := hc
  rw [← dgMalformed_iff] at h
  exact (if_neg (by rw [h]; exact Bool.false_ne_true)).trans
    ((if_neg hp).trans (if_pos ⟨hop, (basicObject_iff _ _).2 hbasic⟩))

theorem State.dgFate_unclear (hp : ¬ (dgHeader b).isProtected = true) (hc : ¬ DgClear b) : s.dgFate b = .drop := by
  rw [← dgMalformed_iff] at h
  refine (if_neg (by rw [h]; exact Bool.false_ne_true)).trans ((if_neg hp).trans (if_neg fun ha => hc ⟨hp, ha.1, ?_⟩))
  exact (basicObject_iff _ _).1 ha.2
end

theorem State.dgProtected_shut (h : s.dgOpens b = none) : s.dgProtected b = .drop := by
  unfold State.dgOpens State.dgKey at h
  unfold State.dgProtected
  cases hk : (s.mgmtKey (dgHeader b).keyId).key with
  | none => dsimp only; rw [hk]
  | some key =>
    rw [hk] at h
    dsimp only
    rw [hk]
    dsimp only
    rw [show Crypto.gcmOpen key _ _ _ = none from h]

/-- What becomes of a protected request that opens. -/
theorem State.dgProtected_open (h : s.dgOpens b = some d) :
    (s.DgFresh b → s.dgProtected b = .accept d) ∧
    (¬ s.DgFresh b → (s.dgKey b).lastCounter = some (dgHeader b).counter → b = (s.dgKey b).lastRequest →
      s.dgProtected b = .resend (s.dgKey b).lastResponse) ∧
    (¬ s.DgFresh b → ¬ ((s.dgKey b).lastCounter = some (dgHeader b).counter ∧ b = (s.dgKey b).lastRequest) →
      s.dgProtected b = .drop) := by
  unfold State.dgOpens State.dgKey at h
  unfold State.DgFresh State.dgProtected State.dgKey
  cases hk : (s.mgmtKey (dgHeader b).keyId).key with
  | none => rw [hk] at h; cases h
  | some key =>
    rw [hk] at h
    dsimp only
    rw [hk]
    dsimp only
    rw [show Crypto.gcmOpen key _ _ _ = some d from h]
    dsimp only
    cases hl : (s.mgmtKey (dgHeader b).keyId).lastCounter with
    | none => exact ⟨fun _ => rfl, fun _ hc => (by cases hc), fun hf => absurd (fun _ hc => by cases hc) hf⟩
    | some c =>
      simp only [Option.some.injEq, forall_eq']
      refine ⟨fun hf => if_pos hf, fun hf hc hr => (if_neg hf).trans (if_pos ⟨hc.symm, hr⟩),
        fun hf hn => (if_neg hf).trans (if_neg fun hc => hn ⟨hc.1.symm, hc.2⟩)⟩

theorem State.DgAgain.not_fresh (h : s.DgAgain b) : ¬ s.DgFresh b := fun hf => (hf _ h.2.2.1).false

theorem State.dgFate_again (h : DgFormed b) (ha : s.DgAgain b) : s.dgFate b = .resend (s.dgKey b).lastResponse := by
  have hfresh := ha.not_fresh
  obtain ⟨hp, hopen, hcounter, hrequest⟩ := ha
  obtain ⟨d, hd⟩ := Option.ne_none_iff_exists'.1 hopen
  exact (State.dgFate_protected h hp).trans ((State.dgProtected_open hd).2.1 hfresh hcounter hrequest)

theorem State.dgFate_accepted (h : s.DgAccepted b d) : s.dgFate b = .accept d := by
  obtain ⟨hform, ⟨hclear, rfl⟩ | ⟨hp, hopen, hfresh⟩⟩ := h
  · exact State.dgFate_clear hform hclear
  · exact (State.dgFate_protected hform hp).trans ((State.dgProtected_open hopen).1 hfresh)

theorem State.dgFate_dropped (hagain : ¬ (DgFormed b ∧ s.DgAgain b)) (h : ∀ d, ¬ s.DgAccepted b d) : s.dgFate b = .drop := by
  by_cases hform : DgFormed b
  · by_cases hp : (dgHeader b).isProtected = true
    · rw [State.dgFate_protected hform hp]
      cases hopen : s.dgOpens b with
      | none => exact State.dgProtected_shut hopen
      | some d =>
        refine (State.dgProtected_open hopen).2.2 (fun hfresh => h d ⟨hform, .inr ⟨hp, hopen, hfresh⟩⟩) fun hlast => ?_
        exact hagain ⟨hform, hp, by rw [hopen]; exact Option.some_ne_none d, hlast⟩
    · exact State.dgFate_unclear hform hp fun hclear => h _ ⟨hform, .inl ⟨hclear, rfl⟩⟩
  · exact State.dgFate_malformed hform

/-! ### The answer (R626, R627, R629) -/

section
variable {op : Nat} {act : State → DgHeader → Bytes → Nat × Bytes × State}

theorem State.dgServe_other (h : s.dictOpen .ethernet = false ∨ (dgHeader b).op ≠ op) : s.dgServe op b act = s :=
  if_neg (by rcases h with h | h <;> simp [h])

section
variable (hopen : s.dictOpen .ethernet = true) (hop : (dgHeader b).op = op)
include hopen hop

theorem State.dgServe_again (h : DgFormed b) (ha : s.DgAgain b) :
    s.dgServe op b act = (s.dgCount 3).send (.datagram (s.dgKey b).lastResponse) := by
  unfold State.dgServe
  rw [if_pos (by simp [hopen, hop]), State.dgFate_again h ha]

theorem State.dgServe_dropped (hagain : ¬ (DgFormed b ∧ s.DgAgain b)) (h : ∀ d, ¬ s.DgAccepted b d) :
    s.dgServe op b act = s.dgCount 2 := by
  unfold State.dgServe
  rw [if_pos (by simp [hopen, hop]), State.dgFate_dropped hagain h]

theorem State.dgServe_accepted (h : s.DgAccepted b d) {status : Nat} {data : Bytes} {w : State}
    (ha : act (s.dgCount 1) (dgHeader b) d = (status, data, w)) :
    s.dgServe op b act = (w.dgRespond b status data).noteStatus .ethernet status := by
  unfold State.dgServe
  rw [if_pos (by simp [hopen, hop]), State.dgFate_accepted h]
  dsimp only
  rw [ha]
end
end

/-- The header of the response to a request (R626). -/
def dgReply (b : Bytes) (status len counter : Nat) : Bytes :=
  slice b 0 3 ++ leBytes 1 ((dgHeader b).flags ||| 2) ++ slice b 4 5 ++ leBytes 1 status ++ slice b 10 4 ++ leBytes 2 len ++
    leBytes 8 counter

/-- The sealed response to a protected request (R627). -/
def State.dgSealed (s : State) (b : Bytes) (status : Nat) (data : Bytes) : Bytes :=
  dgReply b status data.length (s.dgKey b).nextResponse ++
    Crypto.gcmSeal ((s.dgKey b).key.getD []) (dgIv 2 (dgHeader b).keyId (s.dgKey b).nextResponse)
      (dgReply b status data.length (s.dgKey b).nextResponse) data

theorem State.noteStatus_frame (s : State) (via : Via) (st : Nat) :
    s.noteStatus via st = { s with dict := { s.dict with lastStatus := (s.noteStatus via st).dict.lastStatus } } := by
  unfold State.noteStatus
  split <;> rfl

/-- Noting a status leaves the keys and what is sent. -/
theorem State.mgmtKey_noteStatus (s : State) (via : Via) (st j : Nat) : (s.noteStatus via st).mgmtKey j = s.mgmtKey j := by
  rw [State.noteStatus_frame]
  rfl

theorem State.sent_noteStatus (s : State) (via : Via) (st : Nat) : (s.noteStatus via st).sent = s.sent := by
  rw [State.noteStatus_frame]

section
variable (w : State) (b : Bytes) (status : Nat) (data : Bytes)

theorem State.dgRespond_clear (h : ¬ (dgHeader b).isProtected = true) :
    w.dgRespond b status data = w.send (.datagram (dgReply b status data.length 0 ++ data)) :=
  if_pos (by simpa using h)

theorem State.dgRespond_protected (h : (dgHeader b).isProtected = true) : w.dgRespond b status data =
    ({ w with dict := { w.dict with keys := Tab.set w.dict.keys (dgHeader b).keyId { w.dgKey b with
        lastCounter := some (dgHeader b).counter, lastRequest := b, lastResponse := w.dgSealed b status data
        nextResponse := (w.dgKey b).nextResponse + 1 } } } : State).send (.datagram (w.dgSealed b status data)) :=
  if_neg (by simpa using h)

/-- An unprotected request is answered, and only the last status is kept. -/
theorem State.dgRespond_clear_spec (h : ¬ (dgHeader b).isProtected = true) :
    ((w.dgRespond b status data).noteStatus .ethernet status).sent =
      .datagram (dgReply b status data.length 0 ++ data) :: w.sent ∧
    (w.dgRespond b status data).noteStatus .ethernet status = { w with
      dict := ((w.dgRespond b status data).noteStatus .ethernet status).dict
      sent := ((w.dgRespond b status data).noteStatus .ethernet status).sent } ∧
    ((w.dgRespond b status data).noteStatus .ethernet status).dict =
      { w.dict with lastStatus := ((w.dgRespond b status data).noteStatus .ethernet status).dict.lastStatus } := by
  rw [State.dgRespond_clear w b status data h]
  generalize hu : w.send _ = u
  rw [State.noteStatus_frame]
  subst hu
  exact ⟨rfl, rfl, rfl⟩

/-- A protected request is answered under its key, which keeps COUNTER, request and response. -/
theorem State.dgRespond_protected_spec (h : (dgHeader b).isProtected = true) :
    ((w.dgRespond b status data).noteStatus .ethernet status).sent = .datagram (w.dgSealed b status data) :: w.sent ∧
    (w.dgRespond b status data).noteStatus .ethernet status = { w with
      dict := ((w.dgRespond b status data).noteStatus .ethernet status).dict
      sent := ((w.dgRespond b status data).noteStatus .ethernet status).sent } ∧
    ((w.dgRespond b status data).noteStatus .ethernet status).mgmtKey (dgHeader b).keyId = { w.dgKey b with
      lastCounter := some (dgHeader b).counter, lastRequest := b, lastResponse := w.dgSealed b status data
      nextResponse := (w.dgKey b).nextResponse + 1 } ∧
    ∀ j, j ≠ (dgHeader b).keyId →
      ((w.dgRespond b status data).noteStatus .ethernet status).mgmtKey j = w.mgmtKey j := by
  refine ⟨?_, ?_, ?_, fun j hj => ?_⟩
  · rw [State.sent_noteStatus, State.dgRespond_protected w b status data h]
    rfl
  · rw [State.dgRespond_protected w b status data h, State.noteStatus_frame]
    rfl
  · rw [State.mgmtKey_noteStatus, State.dgRespond_protected w b status data h]
    exact (w.mgmtKey_set _ _ _).trans (if_pos rfl)
  · rw [State.mgmtKey_noteStatus, State.dgRespond_protected w b status data h]
    exact (w.mgmtKey_set _ j _).trans (if_neg hj)
end

/-! ### Objects of the manual, and the vendor's (R621, R636) -/

theorem vendorHas_of_plain {index : Nat} (h : Plain s index) : s.vendorHas index = false := by
  unfold State.vendorHas
  rcases h with h | h | h
  · simp [h]
  · simp [Nat.not_le.2 h]
  · simp [Nat.not_lt.2 h]

theorem objRead_of_plain {index : Nat} (h : Plain s index) (via : Via) (sub : Nat) :
    s.objRead via index sub = (s.dictRead via index sub, s) :=
  if_neg (by rw [vendorHas_of_plain h]; exact Bool.false_ne_true)

theorem objDescribe_of_plain {index : Nat} (h : Plain s index) (via : Via) (sub : Nat) :
    s.objDescribe via index sub = (s.dictDescribe via index sub, s) :=
  if_neg (by rw [vendorHas_of_plain h]; exact Bool.false_ne_true)

/-! ### The three commands -/

section
variable {c : Instr} {op : Nat} {act : State → DgHeader → Bytes → Nat × Bytes × State}
  (hc : exec c s = .next (s.dgServe op b act))
include hc

theorem exec_datagram_other (h : s.dictOpen .ethernet = false ∨ (dgHeader b).op ≠ op) : exec c s = .next s :=
  hc.trans (congrArg _ (State.dgServe_other h))

variable (hopen : s.dictOpen .ethernet = true) (hop : (dgHeader b).op = op)
include hopen hop

theorem exec_datagram_again (h : DgFormed b) (ha : s.DgAgain b) :
    exec c s = .next ((s.dgCount 3).send (.datagram (s.dgKey b).lastResponse)) :=
  hc.trans (congrArg _ (State.dgServe_again hopen hop h ha))

theorem exec_datagram_dropped (hagain : ¬ (DgFormed b ∧ s.DgAgain b)) (h : ∀ d, ¬ s.DgAccepted b d) :
    exec c s = .next (s.dgCount 2) :=
  hc.trans (congrArg _ (State.dgServe_dropped hopen hop hagain h))
end

section
variable (hopen : s.dictOpen .ethernet = true) (h : s.DgAccepted b d) {st : Nat} {r : Bytes} {w : State}
include hopen h

theorem exec_datagramRead (hop : (dgHeader b).op = 1)
    (hr : (s.dgCount 1).objRead .ethernet (dgHeader b).index (dgHeader b).sub = ((st, r), w)) :
    exec (.datagramRead b) s = .next ((w.dgRespond b st r).noteStatus .ethernet st) :=
  congrArg Host.Outcome.next (State.dgServe_accepted hopen hop h (by rw [hr]))

theorem exec_datagramDescribe (hop : (dgHeader b).op = 3)
    (hr : (s.dgCount 1).objDescribe .ethernet (dgHeader b).index (dgHeader b).sub = ((st, r), w)) :
    exec (.datagramDescribe b) s = .next ((w.dgRespond b st r).noteStatus .ethernet st) :=
  congrArg Host.Outcome.next (State.dgServe_accepted hopen hop h (by rw [hr]))

theorem exec_datagramWrite (hop : (dgHeader b).op = 2)
    (hr : (s.dgCount 1).dictWrite .ethernet (dgHeader b).index (dgHeader b).sub d none = (st, w)) :
    exec (.datagramWrite b) s = .next ((w.dgRespond b st []).noteStatus .ethernet st) :=
  congrArg Host.Outcome.next (State.dgServe_accepted hopen hop h (by rw [hr]))
end

section
variable {c : Instr × Nat} (h : c ∈ [(Instr.datagramRead b, 1), (.datagramWrite b, 2), (.datagramDescribe b, 3)])
include h

theorem exec_dgCommand (s : State) : ∃ act, exec c.1 s = .next (s.dgServe c.2 b act) := by
  simp only [List.mem_cons, List.not_mem_nil, or_false] at h
  obtain rfl | rfl | rfl := h <;> exact ⟨_, rfl⟩

theorem dgCommand_eq :
    (c.2 = 1 → c.1 = .datagramRead b) ∧ (c.2 = 2 → c.1 = .datagramWrite b) ∧ (c.2 = 3 → c.1 = .datagramDescribe b) := by
  simp only [List.mem_cons, List.not_mem_nil, or_false] at h
  obtain rfl | rfl | rfl := h <;> simp
end

end Sys2Proof.Machine

section
open Sys2Proof Sys2Proof.Machine Sys2Proof.Claims

/-- Settles O59: by the datagram's fate, which is to be answered again, dropped or accepted. -/
theorem datagrams : Obligations.Datagrams := by
  intro s b op index sub flags isProtected id n counter k formed iv opens clear fresh again accepted counted header answered c hc
  obtain ⟨act, hact⟩ := exec_dgCommand hc s
  obtain ⟨hread, hwrite, hdescribe⟩ := dgCommand_eq hc
  have hanswered (w : State) (st : Nat) (r : Bytes) : answered w st r ((w.dgRespond b st r).noteStatus .ethernet st) :=
    ⟨State.dgRespond_clear_spec w b st r, State.dgRespond_protected_spec w b st r⟩
  refine ⟨exec_datagram_other hact, fun hopen hop =>
    ⟨fun hf ha => ⟨_, exec_datagram_again hact hopen hop hf ha, s.look_dgCount 3, rfl, rfl⟩,
      fun hagain hd => ⟨_, exec_datagram_dropped hact hopen hop hagain hd, s.look_dgCount 2, rfl⟩,
      fun d ha => ⟨s.dgCount 1, s.look_dgCount 1, rfl, fun st r w h1 hr => ?_, fun st r w h3 hr => ?_,
        fun hplain => ⟨objRead_of_plain hplain .ethernet sub, objDescribe_of_plain hplain .ethernet sub⟩,
        fun st w h2 hw => ?_⟩⟩⟩
  · exact ⟨_, (congrArg (exec · s) (hread (hop.symm.trans h1))).trans (exec_datagramRead hopen ha h1 hr), hanswered w st r⟩
  · exact ⟨_, (congrArg (exec · s) (hdescribe (hop.symm.trans h3))).trans (exec_datagramDescribe hopen ha h3 hr), hanswered w st r⟩
  · exact ⟨_, (congrArg (exec · s) (hwrite (hop.symm.trans h2))).trans (exec_datagramWrite hopen ha h2 hw), hanswered w st []⟩
end

namespace Sys2Proof.Machine
open Sys2Proof.Claims

variable {s : State}

/-! ### The end of a mailbox request (R623 to R625) -/

theorem inReset_of_isReady (h : s.isReady = true) : s.supply.inReset = false := by
  unfold State.isReady at h
  simpa using (Bool.and_eq_true_iff.1 h).2

theorem State.sent_irq (s : State) (n v : Nat) : ∃ l, (s.irq n v).sent = l ++ s.sent ∧ l.length ≤ 1 := by
  unfold State.irq
  dsimp only
  split_ifs
  · exact ⟨[], rfl, Nat.zero_le 1⟩
  · exact ⟨[_], rfl, Nat.le_refl 1⟩
  · exact ⟨[], rfl, Nat.zero_le 1⟩

theorem State.sent_cause (s : State) (n bit : Nat) : ∃ l, (s.cause n bit).sent = l ++ s.sent ∧ l.length ≤ 1 :=
  State.sent_irq _ n _

theorem mboxEnds_mboxDone {u : State} (h : u.supply.inReset = false) (seq : BitVec 16) (status len : Nat) :
    MboxEnds u seq status len (u.mboxDone seq status len) := by
  unfold State.mboxDone
  rw [if_neg (by rw [h]; exact Bool.false_ne_true)]
  generalize hv : ({ u with dict := { u.dict with
    mboxSeq := seq, mboxStatus := status, mboxLen := len, mboxState := 2 } } : State) = v
  have hframe := State.cause_frame v 0 0
  have hnote : (v.cause 0 0).noteStatus .mailbox status = { v.cause 0 0 with
      dict := { v.dict with lastStatus := Tab.set v.dict.lastStatus 0 status } } := by
    rw [hframe]
    refine if_neg ?_
    subst hv
    rw [show u.supply.inReset = false from h]
    exact Bool.false_ne_true
  rw [hnote]
  have hsent := State.sent_cause v 0 0
  obtain ⟨p, hfn⟩ := State.fn_cause_self (s := v) 0 0
  refine ⟨by subst hv; rfl, ?_, fun n hn => ?_, ?_, ?_⟩
  · subst hv
    exact congrArg Fn.irqCause hfn
  · exact (State.fn_cause_other _ hn 0).trans (by subst hv; rfl)
  · subst hv
    exact hsent
  · rw [hframe]
    subst hv
    rfl

/-! ### Mailbox commands -/

section
variable {port : Nat} {act : State → State}

theorem State.mboxCommand_unreached (h : ¬ (s.isReady = true ∧ port ∈ s.host.linkUp)) : s.mboxCommand port act = s :=
  if_pos (by simpa [State.mboxOpen, imp_iff_not_or] using h)

section
variable (h : s.isReady = true ∧ port ∈ s.host.linkUp)
include h

theorem State.mboxCommand_busy (hb : s.dict.mboxState = 1) :
    s.mboxCommand port act = { s with dict := { s.dict with mboxOverrun := true } } :=
  (if_neg (by simp [State.mboxOpen, h])).trans (if_pos hb)

theorem State.mboxCommand_free (hb : s.dict.mboxState ≠ 1) : s.mboxCommand port act = act s :=
  (if_neg (by simp [State.mboxOpen, h])).trans (if_neg hb)
end
end

theorem lenBad_iff (len : Nat) : lenBad len = true ↔ 1024 < len := decide_eq_true_iff

/-- What a READ or a DESCRIBE returns, by its status, its length and whether the host's buffer could be written (R624). -/
theorem mboxEnds_mboxReturn {u : State} (h : u.supply.inReset = false) (port : Nat) (st : Nat) (d : Bytes) (ok : Bool) :
    (st ≠ 0 → MboxEnds u (u.dict.mboxSeq + 1) st 0 (u.mboxReturn port (st, d) ok)) ∧
    (st = 0 → d.length ≤ 8 → MboxEnds { u with dict := { u.dict with mboxData := BitVec.ofNat 64 (leNat d) } }
      (u.dict.mboxSeq + 1) 0 d.length (u.mboxReturn port (st, d) ok)) ∧
    (st = 0 → 8 < d.length → ok = true → MboxEnds (u.hostWriteVia 0 port u.dict.mboxBuf.toNat d) (u.dict.mboxSeq + 1) 0
      d.length (u.mboxReturn port (st, d) ok)) ∧
    (st = 0 → 8 < d.length → ok = false → MboxEnds (u.aer 0) (u.dict.mboxSeq + 1) 0x0A 0 (u.mboxReturn port (st, d) ok)) := by
  unfold State.mboxReturn
  dsimp only
  refine ⟨fun hst => ?_, fun hst hd => ?_, fun hst hd hok => ?_, fun hst hd hok => ?_⟩
  · rw [if_pos (show st ≠ dOk from hst)]
    exact mboxEnds_mboxDone h _ _ _
  · subst hst
    rw [if_neg (show ¬ 0 ≠ dOk from not_not_intro rfl), if_pos hd]
    exact mboxEnds_mboxDone (u := { u with dict := { u.dict with mboxData := BitVec.ofNat 64 (leNat d) } }) h _ _ _
  · subst hst
    rw [if_neg (show ¬ 0 ≠ dOk from not_not_intro rfl), if_neg (by omega), if_pos hok]
    refine mboxEnds_mboxDone ?_ _ _ _
    have hsupply : (u.hostWriteVia 0 port u.dict.mboxBuf.toNat d).supply = u.supply :=
      congrArg Chassis.supply (u.chassis_hostWriteVia 0 port u.dict.mboxBuf.toNat d)
    rw [hsupply, h]
  · subst hst
    rw [if_neg (show ¬ 0 ≠ dOk from not_not_intro rfl), if_neg (by omega), if_neg (by rw [hok]; exact Bool.false_ne_true)]
    exact mboxEnds_mboxDone (u := u.aer 0) h _ _ _

/-- A READ changes at most the free values drawn. -/
theorem State.objRead_state (s : State) (via : Via) (index sub : Nat) :
    (s.objRead via index sub).2 = { s with fresh := (s.objRead via index sub).2.fresh } := by
  unfold State.objRead
  split <;> rfl

theorem State.objDescribe_state (s : State) (via : Via) (index sub : Nat) :
    (s.objDescribe via index sub).2 = { s with fresh := (s.objDescribe via index sub).2.fresh } := by
  unfold State.objDescribe
  split <;> rfl

section
variable {port index sub len : Nat} {ok : Bool} {buffer answer : HostAns}
  (h : s.isReady = true ∧ port ∈ s.host.linkUp) (hb : s.dict.mboxState ≠ 1)
include h hb

section
variable (hlen : 1024 < len)
include hlen

theorem exec_mboxRead_bad :
    exec (.mboxRead port index sub len ok) s = .next (s.mboxDone (s.dict.mboxSeq + 1) 0x05 0) := by
  refine congrArg Host.Outcome.next ((State.mboxCommand_free h hb).trans ((if_pos ((lenBad_iff len).2 hlen)).trans ?_))
  rfl

theorem exec_mboxDescribe_bad :
    exec (.mboxDescribe port index sub len) s = .next (s.mboxDone (s.dict.mboxSeq + 1) 0x05 0) := by
  refine congrArg Host.Outcome.next ((State.mboxCommand_free h hb).trans ((if_pos ((lenBad_iff len).2 hlen)).trans ?_))
  rfl

theorem exec_mboxWrite_bad :
    exec (.mboxWrite port index sub len buffer answer) s = .next (s.mboxDone (s.dict.mboxSeq + 1) 0x05 0) :=
  congrArg Host.Outcome.next ((State.mboxCommand_free h hb).trans (if_pos ((lenBad_iff len).2 hlen)))
end

theorem exec_mboxWrong {op : Nat} (hop : (op = 0 ∨ 3 < op) ∨ 1024 < len) :
    exec (.mboxCommandOutOfRange port op index sub len) s = .next (s.mboxDone (s.dict.mboxSeq + 1) 0x05 0) := by
  refine congrArg Host.Outcome.next ((if_neg ?_).trans (State.mboxCommand_free h hb))
  rintro ⟨⟨h1, h3⟩, hl⟩
  rw [← lenBad_iff] at hop
  rcases hop with hop | hop
  · omega
  · rw [hl] at hop; cases hop

section
variable (hlen : ¬ 1024 < len)
include hlen

theorem exec_mboxRead : exec (.mboxRead port index sub len ok) s =
    .next ((s.objRead .mailbox index sub).2.mboxReturn port (s.objRead .mailbox index sub).1 ok) := by
  rw [← lenBad_iff] at hlen
  exact congrArg Host.Outcome.next ((State.mboxCommand_free h hb).trans (if_neg hlen))

theorem exec_mboxDescribe : exec (.mboxDescribe port index sub len) s =
    .next ((s.objDescribe .mailbox index sub).2.mboxReturn port (s.objDescribe .mailbox index sub).1 true) := by
  rw [← lenBad_iff] at hlen
  exact congrArg Host.Outcome.next ((State.mboxCommand_free h hb).trans (if_neg hlen))

theorem exec_mboxWrite :
    exec (.mboxWrite port index sub len buffer answer) s = .next (s.mboxWrite index sub len buffer answer) := by
  rw [← lenBad_iff] at hlen
  exact congrArg Host.Outcome.next ((State.mboxCommand_free h hb).trans (if_neg hlen))
end
end

/-- The four commands of the mailbox (R624, R625). -/
theorem exec_mbox_unreached {port op index sub len : Nat} {ok : Bool} {buffer answer : HostAns}
    (h : ¬ (s.isReady = true ∧ port ∈ s.host.linkUp)) {c : Instr} (hc : c ∈ [Instr.mboxRead port index sub len ok,
      .mboxWrite port index sub len buffer answer, .mboxDescribe port index sub len, .mboxCommandOutOfRange port op index sub len]) :
    exec c s = .next s := by
  simp only [List.mem_cons, List.not_mem_nil, or_false] at hc
  obtain rfl | rfl | rfl | rfl := hc
  · exact congrArg Host.Outcome.next (State.mboxCommand_unreached h)
  · exact congrArg Host.Outcome.next (State.mboxCommand_unreached h)
  · exact congrArg Host.Outcome.next (State.mboxCommand_unreached h)
  · refine congrArg Host.Outcome.next ?_
    rw [State.mboxCommand_unreached h, ite_self]

section
variable {port op index sub len : Nat} {ok : Bool} {buffer answer : HostAns} (h : s.isReady = true ∧ port ∈ s.host.linkUp)
  {c : Instr} (hc : c ∈ [Instr.mboxRead port index sub len ok, .mboxWrite port index sub len buffer answer,
    .mboxDescribe port index sub len, .mboxCommandOutOfRange port op index sub len])
include h hc

theorem exec_mbox_busy (hb : s.dict.mboxState = 1) (hw : c ≠ .mboxCommandOutOfRange port op index sub len ∨ 1024 < len) :
    exec c s = .next { s with dict := { s.dict with mboxOverrun := true } } := by
  simp only [List.mem_cons, List.not_mem_nil, or_false] at hc
  obtain rfl | rfl | rfl | rfl := hc
  · exact congrArg Host.Outcome.next (State.mboxCommand_busy h hb)
  · exact congrArg Host.Outcome.next (State.mboxCommand_busy h hb)
  · exact congrArg Host.Outcome.next (State.mboxCommand_busy h hb)
  · have hlen := (lenBad_iff len).2 (hw.resolve_left (not_not_intro rfl))
    refine congrArg Host.Outcome.next ((if_neg ?_).trans (State.mboxCommand_busy h hb))
    rw [hlen]
    exact fun hc => Bool.noConfusion hc.2

theorem exec_mbox_bad (hb : s.dict.mboxState ≠ 1) (hlen : 1024 < len) :
    exec c s = .next (s.mboxDone (s.dict.mboxSeq + 1) 0x05 0) := by
  simp only [List.mem_cons, List.not_mem_nil, or_false] at hc
  obtain rfl | rfl | rfl | rfl := hc
  · exact exec_mboxRead_bad h hb hlen
  · exact exec_mboxWrite_bad h hb hlen
  · exact exec_mboxDescribe_bad h hb hlen
  · exact exec_mboxWrong h hb (.inr hlen)
end

theorem exec_mboxWrong_none {port op index sub len : Nat} (h1 : 1 ≤ op) (h3 : op ≤ 3) (hlen : ¬ 1024 < len) :
    exec (.mboxCommandOutOfRange port op index sub len) s = .next s := by
  rw [← lenBad_iff] at hlen
  exact congrArg Host.Outcome.next (if_pos ⟨⟨h1, h3⟩, Bool.eq_false_of_not_eq_true hlen⟩)

/-- What a READ or a DESCRIBE returns (R624), its answer `u` differing from `s` in the free values drawn at most. -/
theorem mboxReturns {c : Instr} {port : Nat} {ok : Bool} {p : (Nat × Bytes) × State} {st : Nat} {d : Bytes} {u : State}
    (hreset : s.supply.inReset = false) (hp : p.2 = { s with fresh := p.2.fresh }) (hu : p = ((st, d), u))
    (hc : exec c s = .next (u.mboxReturn port (st, d) ok)) :
    (st ≠ 0 → Gives c s (MboxEnds u (s.dict.mboxSeq + 1) st 0)) ∧
    (st = 0 → d.length ≤ 8 → Gives c s (MboxEnds { u with dict := { u.dict with mboxData := BitVec.ofNat 64 (leNat d) } }
      (s.dict.mboxSeq + 1) 0 d.length)) ∧
    (st = 0 → 8 < d.length → ok = true → Gives c s (MboxEnds (u.hostWriteVia 0 port u.dict.mboxBuf.toNat d)
      (s.dict.mboxSeq + 1) 0 d.length)) ∧
    (st = 0 → 8 < d.length → ok = false → Gives c s (MboxEnds (u.aer 0) (s.dict.mboxSeq + 1) 0x0A 0)) := by
  rw [hu] at hp
  have hdict : u.dict = s.dict := (congrArg State.dict hp :)
  have hsupply : u.supply = s.supply := (congrArg State.supply hp :)
  obtain ⟨hother, hshort, hlong, hlost⟩ := mboxEnds_mboxReturn (u := u) (by rw [hsupply, hreset]) port st d ok
  rw [← congrArg (·.mboxSeq + 1) hdict]
  exact ⟨fun h => ⟨_, hc, hother h⟩, fun h h8 => ⟨_, hc, hshort h h8⟩, fun h h8 ho => ⟨_, hc, hlong h h8 ho⟩,
    fun h h8 ho => ⟨_, hc, hlost h h8 ho⟩⟩

/-! ### A WRITE through the mailbox (R621, R624) -/

theorem vendorHas_of_not_plain {index : Nat} (h : ¬ Plain s index) : s.vendorHas index = true := by
  unfold State.vendorHas
  simp only [not_or, Bool.not_eq_false, not_lt, not_le] at h
  simp [h]

theorem State.mboxPayload_none {len : Nat} {buffer : HostAns} :
    (s.mboxPayload len buffer).isNone = true ↔ 8 < len ∧ buffer = none := by
  unfold State.mboxPayload
  split
  · next h => simp [h]
  · next h => simp [Nat.lt_of_not_le h]

section
variable {index sub len : Nat} {buffer answer : HostAns}

section
variable (hv : ¬ Plain s index) {st : Nat} {d : Bytes} {u : State}
  (h : s.vendorAnswer (vendorWrites .mailbox) = ((st, d), u))
include hv h

theorem State.mboxWrite_vendor (hl : ¬ (st = 0 ∧ 8 < len ∧ buffer = none)) :
    s.mboxWrite index sub len buffer answer = u.mboxDone (s.dict.mboxSeq + 1) st 0 := by
  have hpayload : (u.mboxPayload len buffer).isNone = true ↔ 8 < len ∧ buffer = none := State.mboxPayload_none
  unfold State.mboxWrite
  rw [if_pos (vendorHas_of_not_plain hv), h]
  exact if_neg fun hc => hl ⟨hc.1, hpayload.1 hc.2⟩

theorem State.mboxWrite_vendor_lost (hl : st = 0 ∧ 8 < len ∧ buffer = none) :
    s.mboxWrite index sub len buffer answer = (u.aer 0).mboxDone (s.dict.mboxSeq + 1) 0x0A 0 := by
  have hpayload : (u.mboxPayload len buffer).isNone = true ↔ 8 < len ∧ buffer = none := State.mboxPayload_none
  unfold State.mboxWrite
  rw [if_pos (vendorHas_of_not_plain hv), h]
  exact if_pos ⟨hl.1, hpayload.2 hl.2⟩
end

section
variable (hp : Plain s index)
include hp

theorem State.mboxWrite_error {e : Nat} (h : s.writable .mailbox index sub len = .error e) :
    s.mboxWrite index sub len buffer answer = s.mboxDone (s.dict.mboxSeq + 1) e 0 := by
  refine (if_neg (by rw [vendorHas_of_plain hp]; exact Bool.false_ne_true)).trans ?_
  rw [h]

theorem State.mboxWrite_unread {r : ObjRow} (h : s.writable .mailbox index sub len = .ok r)
    (hd : s.mboxPayload len buffer = none) :
    s.mboxWrite index sub len buffer answer = (s.aer 0).mboxDone (s.dict.mboxSeq + 1) 0x0A 0 := by
  refine (if_neg (by rw [vendorHas_of_plain hp]; exact Bool.false_ne_true)).trans ?_
  rw [h]
  dsimp only
  rw [hd]
  rfl

theorem State.mboxWrite_acts {r : ObjRow} (h : s.writable .mailbox index sub len = .ok r) {d : Bytes}
    (hd : s.mboxPayload len buffer = some d) {st : Nat} {u : State} (ha : objAct index sub d answer s = (st, u)) :
    s.mboxWrite index sub len buffer answer = u.mboxDone (s.dict.mboxSeq + 1) st 0 := by
  refine (if_neg (by rw [vendorHas_of_plain hp]; exact Bool.false_ne_true)).trans ?_
  rw [h]
  dsimp only
  rw [hd]
  dsimp only
  rw [ha]
end
end

/-! ### The checks of a write, in their order (R621, R622) -/

section
variable {via : Via} {index sub len : Nat}

theorem levelOk_iff (s : State) (via : Via) (expert : Bool) :
    s.levelOk via expert = true ↔ expert = false ∨ (s.expertOn via = true ∧ s.errors.rootstock = false) := by
  simp [State.levelOk]

theorem writable_missing {e : Nat} (h : findObj index sub = .error e) : s.writable via index sub len = .error e := by
  unfold State.writable
  rw [h]

section
variable {r : ObjRow} (h : findObj index sub = .ok r)
include h

theorem writable_found : s.writable via index sub len =
    if via = .ethernet ∧ ethMayWrite index = false then .error dTransport
    else if !s.levelOk via r.expert then .error dLevel
    else if r.acc = .ro then .error dAccess
    else if len ≠ r.ty.len then .error dLength
    else .ok r := by
  unfold State.writable
  rw [h]

theorem writable_transport (ht : ¬ (via = .mailbox ∨ ethMayWrite index = true)) :
    s.writable via index sub len = .error 0x08 := by
  rw [not_or, Bool.not_eq_true] at ht
  refine (writable_found h).trans (if_pos ⟨?_, ht.2⟩)
  cases via
  · exact absurd rfl ht.1
  · rfl

variable (ht : via = .mailbox ∨ ethMayWrite index = true)
include ht

theorem writable_carried : s.writable via index sub len =
    if !s.levelOk via r.expert then .error dLevel
    else if r.acc = .ro then .error dAccess
    else if len ≠ r.ty.len then .error dLength
    else .ok r := by
  refine (writable_found h).trans (if_neg ?_)
  rintro ⟨rfl, he⟩
  rcases ht with ht | ht
  · cases ht
  · rw [he] at ht; cases ht

theorem writable_level (hl : ¬ (r.expert = false ∨ (s.expertOn via = true ∧ s.errors.rootstock = false))) :
    s.writable via index sub len = .error 0x07 := by
  rw [← levelOk_iff] at hl
  exact (writable_carried h ht).trans (if_pos (by simpa using hl))

variable (hl : r.expert = false ∨ (s.expertOn via = true ∧ s.errors.rootstock = false))
include hl

theorem writable_access (ha : r.acc = .ro) : s.writable via index sub len = .error 0x03 := by
  rw [← levelOk_iff] at hl
  exact (writable_carried h ht).trans ((if_neg (by simpa using hl)).trans (if_pos ha))

variable (ha : r.acc ≠ .ro)
include ha

theorem writable_length (hn : len ≠ r.ty.len) : s.writable via index sub len = .error 0x04 := by
  rw [← levelOk_iff] at hl
  exact (writable_carried h ht).trans ((if_neg (by simpa using hl)).trans ((if_neg ha).trans (if_pos hn)))

theorem writable_ok (hn : len = r.ty.len) : s.writable via index sub len = .ok r := by
  rw [← levelOk_iff] at hl
  exact (writable_carried h ht).trans
    ((if_neg (by simpa using hl)).trans ((if_neg ha).trans (if_neg (not_not_intro hn))))
end
end

/-! ### DESCRIBE (R624) -/

section
variable {index sub : Nat}

theorem findObj_error_ne {e : Nat} (h : findObj index sub = .error e) : e ≠ 0 := by
  unfold findObj at h
  split at h
  · cases h
  · cases h
    split_ifs <;> decide

theorem dictDescribe_missing {via : Via} {e : Nat} (h : findObj index sub = .error e) :
    s.dictDescribe via index sub = (e, []) := by
  unfold State.dictDescribe
  rw [h]

variable {via : Via} {r : ObjRow} (h : findObj index sub = .ok r)
include h

theorem dictDescribe_level (hl : ¬ (r.expert = false ∨ (s.expertOn via = true ∧ s.errors.rootstock = false))) :
    s.dictDescribe via index sub = (0x07, []) := by
  rw [← levelOk_iff] at hl
  unfold State.dictDescribe
  rw [h]
  exact if_pos (by simpa using hl)

theorem dictDescribe_found (hl : r.expert = false ∨ (s.expertOn via = true ∧ s.errors.rootstock = false)) :
    s.dictDescribe via index sub = (0, wordBytes r.describe) := by
  rw [← levelOk_iff] at hl
  unfold State.dictDescribe
  rw [h]
  exact if_neg (by simpa using hl)
end

theorem leNat_leBytes (n x : Nat) : leNat (leBytes n x) = x % 256 ^ n := by
  induction n generalizing x with
  | zero => simp [leBytes, leNat, Nat.mod_one]
  | succ n ih =>
    unfold leBytes leNat
    rw [ih, BitVec.toNat_ofNat, Nat.pow_succ' (n := n)]
    exact (Nat.mod_mul ..).symm

theorem wordOfBytes_wordBytes (w : Word) : wordOfBytes (wordBytes w) = w := by
  unfold wordOfBytes wordBytes
  rw [leNat_leBytes, Nat.mod_eq_of_lt (show w.toNat < 256 ^ 8 from w.isLt), BitVec.ofNat_toNat, BitVec.setWidth_eq]

theorem ObjRow.describe_eq (r : ObjRow) : BitVec.ofNat 64 (leNat (wordBytes r.describe)) =
    BitVec.ofNat 64 (r.ty.code + 256 * r.acc.code + 65536 * r.expert.toNat + 2 ^ 32 * r.ty.len) := by
  refine (wordOfBytes_wordBytes r.describe).trans (congrArg (BitVec.ofNat 64) ?_)
  ring

/-! ### Writes of an object that are REGISTER_WRITEs (R621) -/

section
variable {via : Via} {index sub : Nat} {d : Bytes} {answer : HostAns}

theorem exec_objectWrite_closed (h : s.dictOpen via = false) :
    exec (.registerWrite (.object via index sub d answer)) s = .next s :=
  if_neg (by rw [h]; exact Bool.false_ne_true)

theorem answers_objectWrite (h : s.dictOpen via = true) : Answers (.registerWrite (.object via index sub d answer)) s via
    (s.dictWrite via index sub d answer).1 (s.dictWrite via index sub d answer).2 :=
  if_pos h

theorem dictWrite_vendor (h : ¬ Plain s index) : s.dictWrite via index sub d answer =
    ((s.vendorAnswer (vendorWrites via)).1.1, (s.vendorAnswer (vendorWrites via)).2) :=
  if_pos (vendorHas_of_not_plain h)

section
variable (h : Plain s index)
include h

theorem dictWrite_error {e : Nat} (he : s.writable via index sub d.length = .error e) :
    s.dictWrite via index sub d answer = (e, s) := by
  refine (if_neg (by rw [vendorHas_of_plain h]; exact Bool.false_ne_true)).trans ?_
  rw [he]

theorem dictWrite_ok {r : ObjRow} (hr : s.writable via index sub d.length = .ok r) :
    s.dictWrite via index sub d answer = objAct index sub d answer s := by
  refine (if_neg (by rw [vendorHas_of_plain h]; exact Bool.false_ne_true)).trans ?_
  rw [hr]

variable (ho : s.dictOpen via = true)
include ho

theorem answers_objectWrite_error {e : Nat} (he : s.writable via index sub d.length = .error e) :
    Answers (.registerWrite (.object via index sub d answer)) s via e s := by
  have hans := answers_objectWrite (index := index) (sub := sub) (d := d) (answer := answer) ho
  rwa [dictWrite_error h he] at hans

theorem answers_objectWrite_ok {r : ObjRow} (hr : s.writable via index sub d.length = .ok r) {st : Nat} {u : State}
    (ha : objAct index sub d answer s = (st, u)) :
    Answers (.registerWrite (.object via index sub d answer)) s via st u := by
  have hans := answers_objectWrite (index := index) (sub := sub) (d := d) (answer := answer) ho
  rwa [dictWrite_ok h hr, ha] at hans
end
end

/-! ### Writes of registers (R391, R395, R576) -/

section
variable {fn bar offset width port : Nat} {v : Word}

theorem exec_mmio_early (h : s.isReady = false) : exec (.registerWrite (.mmio fn bar offset width v)) s =
    .next (if fn = 0 ∧ bar = 0 ∧ s.supply.inReset = false ∧ s.fnUp fn = true then
      s.putBootReg (s.portOfFn fn) offset width v else s) :=
  congrArg Host.Outcome.next (if_pos (by rw [h]; rfl))

theorem exec_mmio_boot (h : s.isReady = false ∧ fn = 0 ∧ bar = 0 ∧ s.supply.inReset = false ∧
      s.host.linkUp.contains (s.portOfFn 0) = true) :
    exec (.registerWrite (.mmio fn bar offset width v)) s = .next (s.putBootReg (s.portOfFn 0) offset width v) := by
  obtain ⟨hr, rfl, hrest⟩ := h
  exact (exec_mmio_early hr).trans (congrArg Host.Outcome.next (if_pos ⟨rfl, hrest⟩))

theorem exec_mmio_unbooted (hr : s.isReady = false) (h : ¬ (s.isReady = false ∧ fn = 0 ∧ bar = 0 ∧ s.supply.inReset = false ∧
      s.host.linkUp.contains (s.portOfFn 0) = true)) :
    exec (.registerWrite (.mmio fn bar offset width v)) s = .next s := by
  refine (exec_mmio_early hr).trans (congrArg Host.Outcome.next (if_neg ?_))
  rintro ⟨rfl, hrest⟩
  exact h ⟨hr, rfl, hrest⟩

theorem exec_mmio_shut (hr : s.isReady = true) (ho : s.regsOpen fn = false) :
    exec (.registerWrite (.mmio fn bar offset width v)) s = .next s :=
  congrArg Host.Outcome.next ((if_neg (by rw [hr]; exact Bool.false_ne_true)).trans (if_pos (by rw [ho]; rfl)))

theorem exec_mmio_fnReg (hr : s.isReady = true) (ho : s.regsOpen fn = true) (hlo : offset < 65536) :
    exec (.registerWrite (.mmio fn 0 offset width v)) s = .next (s.putFnReg fn (s.portOfFn fn) offset width v) :=
  congrArg Host.Outcome.next ((if_neg (by rw [hr]; exact Bool.false_ne_true)).trans
    ((if_neg (by rw [ho]; exact Bool.false_ne_true)).trans ((if_pos rfl).trans (if_pos hlo))))

/-- Offsets of BAR0 before READY that are no boot register's. -/
theorem State.putBootReg_other (ho : offset ∉ [0x48, 0x50, 0x58, 0x60]) (h8 : offset % 8 = 0) :
    s.putBootReg port offset width v = s := by
  have halign : offset / 8 * 8 = offset := by omega
  simp only [List.mem_cons, List.not_mem_nil, or_false, not_or] at ho
  unfold State.putBootReg
  dsimp only
  rw [halign]
  split
  · exact absurd rfl ho.1
  · exact absurd rfl ho.2.1
  · exact absurd rfl ho.2.2.1
  · exact absurd rfl ho.2.2.2
  · rfl

theorem exec_vfEnable (s : State) (port : Nat) (on : Bool) : exec (.registerWrite (.vfEnable port on)) s =
    .next (if s.isReady = true ∧ port ∈ s.host.linkUp then
      { s with host := { s.host with vfEnabled := if on then withOne s.host.vfEnabled port else without s.host.vfEnabled port } }
      else s) :=
  congrArg Host.Outcome.next (if_congr (by simp) rfl rfl)

theorem mem_vfEnabled (l : List Nat) (port : Nat) (on : Bool) (p : Nat) :
    p ∈ (if on then withOne l port else without l port) ↔ (p ∈ l ∧ p ≠ port) ∨ (p = port ∧ on = true) := by
  cases on
  · simp [without]
  · by_cases hp : p = port
    · subst hp
      by_cases hm : p ∈ l <;> simp [withOne, hm]
    · by_cases hm : port ∈ l <;> simp [withOne, hm, hp]
end

end Sys2Proof.Machine

section
open Sys2Proof Sys2Proof.Machine Sys2Proof.Claims

/-- Settles O58: a mailbox request by its length and by the checks in their order, a write by its target. -/
theorem mailboxAndRegisters : Obligations.MailboxAndRegisters := by
  refine ⟨fun s port op index sub len ok buffer answer => ?_, fun s via index sub d answer => ?_,
    fun s fn bar offset width port v on => ?_⟩
  · refine ⟨fun c hc => ⟨fun h => exec_mbox_unreached h hc, fun h => exec_mbox_busy h hc,
        fun h hlen => ⟨_, exec_mbox_bad h.1 hc h.2 hlen, mboxEnds_mboxDone (inReset_of_isReady h.1.1) ..⟩⟩,
      fun h hop => ⟨_, exec_mboxWrong h.1 h.2 (.inl hop), mboxEnds_mboxDone (inReset_of_isReady h.1.1) ..⟩,
      exec_mboxWrong_none, fun h hlen => ?_⟩
    obtain ⟨h, hb⟩ := h
    have hreset := inReset_of_isReady h.1
    have hwrite {u : State} {st : Nat} (hu : u.supply.inReset = false)
        (hw : s.mboxWrite index sub len buffer answer = u.mboxDone (s.dict.mboxSeq + 1) st 0) :
        Gives (.mboxWrite port index sub len buffer answer) s (MboxEnds u (s.dict.mboxSeq + 1) st 0) :=
      ⟨_, (exec_mboxWrite h hb hlen).trans (congrArg _ hw), mboxEnds_mboxDone hu ..⟩
    have hrefuse {e : Nat} (hp : Plain s index) (he : s.writable .mailbox index sub len = .error e) :=
      hwrite hreset (State.mboxWrite_error (buffer := buffer) (answer := answer) hp he)
    have hdescribe {st : Nat} {d : Bytes} {u : State} (hu : s.objDescribe .mailbox index sub = ((st, d), u)) :=
      mboxReturns hreset (s.objDescribe_state .mailbox index sub) hu
        ((exec_mboxDescribe h hb hlen).trans (by rw [hu]))
    refine ⟨⟨fun st d u hu => mboxReturns hreset (s.objRead_state .mailbox index sub) hu
          ((exec_mboxRead h hb hlen).trans (by rw [hu])), fun st d u hu => hdescribe hu⟩,
      fun st d u hp hu => ⟨fun hl => hwrite ?_ (State.mboxWrite_vendor hp hu hl), fun hl => hwrite ?_ (State.mboxWrite_vendor_lost hp hu hl)⟩,
      fun hp => objRead_of_plain hp .mailbox sub, fun e hp he => ⟨?_, hrefuse hp (writable_missing he)⟩,
      fun r hp hr => ⟨fun hl => ⟨?_, hrefuse hp (writable_level hr (.inl rfl) hl)⟩, fun hl => ?_,
        fun hl ha => hrefuse hp (writable_access hr (.inl rfl) hl ha), fun hl ha hn => hrefuse hp (writable_length hr (.inl rfl) hl ha hn),
        fun hl ha hn h8 hbuf => hwrite hreset (State.mboxWrite_unread hp (writable_ok hr (.inl rfl) hl ha hn) ?_),
        fun d st u hl ha hn hd hact hu => hwrite hu (State.mboxWrite_acts hp (writable_ok hr (.inl rfl) hl ha hn) hd hact)⟩⟩
    · exact (congrArg (·.2.supply.inReset) hu).symm.trans hreset
    · exact (congrArg (·.2.supply.inReset) hu).symm.trans hreset
    · refine (hdescribe (d := []) ((objDescribe_of_plain hp .mailbox sub).trans ?_)).1 (findObj_error_ne he)
      rw [dictDescribe_missing he]
    · refine (hdescribe (d := []) ((objDescribe_of_plain hp .mailbox sub).trans ?_)).1 (by decide)
      rw [dictDescribe_level (s := s) (via := .mailbox) hr hl]
    · have hfound : s.objDescribe .mailbox index sub = ((0, wordBytes r.describe), s) := by
        rw [objDescribe_of_plain hp, dictDescribe_found (s := s) (via := .mailbox) hr hl]
      have hends := (hdescribe hfound).2.1 rfl (by rw [wordBytes_length])
      rwa [ObjRow.describe_eq, wordBytes_length] at hends
    · subst hbuf
      exact if_neg (Nat.not_le.2 h8)
  · refine ⟨exec_objectWrite_closed, fun ho hv => ?_, fun ho hp => ⟨fun e he => answers_objectWrite_error hp ho (writable_missing he),
      fun r hr => ⟨fun hm => answers_objectWrite_error hp ho (writable_transport hr hm),
        fun hm hl => answers_objectWrite_error hp ho (writable_level hr hm hl),
        fun hm hl ha => answers_objectWrite_error hp ho (writable_access hr hm hl ha),
        fun hm hl ha hn => answers_objectWrite_error hp ho (writable_length hr hm hl ha hn),
        fun st u hm hl ha hn => answers_objectWrite_ok hp ho (writable_ok hr hm hl ha hn)⟩⟩⟩
    have hans := answers_objectWrite (index := index) (sub := sub) (d := d) (answer := answer) ho
    rwa [dictWrite_vendor hv] at hans
  · refine ⟨exec_mmio_unbooted, exec_mmio_shut, fun hb hw => ?_, fun hr ho hf hbar hw => ?_, fun hr ho hbar hw hoff => ?_,
      fun h => ⟨_, (exec_vfEnable s port on).trans (congrArg _ (if_pos h)), mem_vfEnabled _ port on, rfl⟩,
      fun h => (exec_vfEnable s port on).trans (congrArg _ (if_neg h))⟩
    · subst hw
      refine ⟨fun ho => ?_, fun ho => ?_, fun ho => ?_, fun ho => ?_, fun ho h8 => ?_⟩
      · subst ho; exact exec_mmio_boot hb
      · subst ho; exact exec_mmio_boot hb
      · subst ho; exact exec_mmio_boot hb
      · subst ho
        exact (exec_mmio_boot hb).trans (congrArg Host.Outcome.next (if_pos hb.2.2.2.2).symm)
      · exact (exec_mmio_boot hb).trans (congrArg _ (State.putBootReg_other ho h8))
    · subst hf hbar hw
      refine ⟨fun hoff => ?_, fun hoff => ?_⟩ <;> subst hoff <;> exact exec_mmio_fnReg hr ho (by decide)
    · subst hbar hw hoff
      refine ⟨_, exec_mmio_fnReg hr ho (by decide), State.fn_setFn_self .., fun k hk => (State.fn_setFn ..).trans (if_neg hk), rfl⟩
end

namespace Sys2Proof.Crypto

/-! ### Lengths of digests and of SLH-DSA signatures (FIPS 180-4, FIPS 205) -/

theorem length_flatMap_of_forall {α : Type} {l : List α} {f : α → Bytes} {n : Nat} (h : ∀ x, (f x).length = n) :
    (l.flatMap f).length = l.length * n := by
  rw [List.length_flatMap, List.map_congr_left (g := fun _ => n) fun x _ => h x, List.map_const', List.sum_replicate_nat]

@[simp] theorem beBytes_length (n x : Nat) : (beBytes n x).length = n := by
  rw [beBytes, List.length_reverse, leBytes_length]

theorem shaRound_length {w : Nat} (h : List (BitVec w)) (kw : BitVec w × BitVec w) : (shaRound h kw).length = h.length := by
  unfold shaRound
  split <;> rfl

theorem foldl_shaRound_length {w : Nat} (l : List (BitVec w × BitVec w)) (h : List (BitVec w)) :
    (l.foldl shaRound h).length = h.length := by
  induction l generalizing h with
  | nil => rfl
  | cons kw l ih => rw [List.foldl_cons, ih, shaRound_length]

theorem shaBlock_length {w : Nat} (h : List (BitVec w)) (b : Bytes) : (shaBlock h b).length = h.length := by
  unfold shaBlock
  rw [List.length_zipWith, foldl_shaRound_length, Nat.min_self]

theorem foldl_shaBlock_length {w : Nat} (f : Nat → Bytes) (l : List Nat) (h : List (BitVec w)) :
    (l.foldl (fun h i => shaBlock h (f i)) h).length = h.length := by
  induction l generalizing h with
  | nil => rfl
  | cons i l ih => rw [List.foldl_cons, ih, shaBlock_length]

theorem sha2_length (w : Nat) (start : List (BitVec w)) (m : Bytes) : (sha2 w start m).length = start.length * (w / 8) := by
  unfold sha2
  rw [length_flatMap_of_forall fun x => beBytes_length _ _, foldl_shaBlock_length]

@[simp] theorem sha256_length (m : Bytes) : (sha256 m).length = 32 := by
  unfold sha256
  rw [sha2_length, List.length_map]
  rfl

@[simp] theorem sha512_length (m : Bytes) : (sha512 m).length = 64 := by
  unfold sha512
  rw [sha2_length, List.length_map]
  rfl

@[simp] theorem slhF_length (seed : Bytes) (x : Adrs) (m : Bytes) : (slhF seed x m).length = 24 := by
  simp [slhF, slhN]

@[simp] theorem slhH_length (seed : Bytes) (x : Adrs) (m : Bytes) : (slhH seed x m).length = 24 := by
  simp [slhH, slhN]

theorem wotsChain_length (seed : Bytes) (x : Adrs) (i n : Nat) (m : Bytes) (h : m.length = 24) :
    (wotsChain seed x i n m).length = 24 := by
  induction n generalizing i m with
  | zero => exact h
  | succ n ih => exact ih _ _ (slhF_length ..)

theorem wotsSign_length (secret seed : Bytes) (x : Adrs) (m : Bytes) : (wotsSign secret seed x m).length = 51 * 24 := by
  have hpart (i : Nat) : (wotsChain seed { x with b := i } 0 ((wotsDigits m).getD i 0) (wotsSecret secret seed x i)).length = 24 :=
    wotsChain_length _ _ _ _ _ (slhF_length ..)
  unfold wotsSign
  dsimp only
  rw [length_flatMap_of_forall hpart, List.length_range]
  rfl

/-- Nodes of a tree whose leaves and joined nodes have one length have that length. -/
theorem treeNode_length {join : Nat → Nat → Bytes → Bytes} {leaf : Nat → Bytes} {n : Nat}
    (hj : ∀ z i m, (join z i m).length = n) (hl : ∀ i, (leaf i).length = n) (z i : Nat) : (treeNode join leaf z i).length = n := by
  cases z with
  | zero => exact hl i
  | succ z => exact hj _ _ _

theorem xmssSign_length (secret seed : Bytes) (x : Adrs) (i : Nat) (m : Bytes) :
    (xmssSign secret seed x i m).length = 1440 := by
  have hpath (z : Nat) : (xmssNode secret seed x z (sibling i z)).length = 24 :=
    treeNode_length (fun _ _ _ => slhH_length ..) (fun _ => slhH_length ..) _ _
  unfold xmssSign
  rw [List.length_append, wotsSign_length, length_flatMap_of_forall hpath, List.length_range]
  rfl

theorem hyperSign_length (secret seed : Bytes) (n l t i : Nat) (m : Bytes) :
    (hyperSign secret seed n l t i m).length = n * 1440 := by
  induction n generalizing l t i m with
  | zero => exact (Nat.zero_mul _).symm
  | succ n ih =>
    unfold hyperSign
    rw [List.length_append, ih, xmssSign_length, Nat.succ_mul, Nat.add_comm]

theorem forsSign_length (secret seed : Bytes) (x : Adrs) (md : Bytes) : (forsSign secret seed x md).length = 6120 := by
  have hnode (i z : Nat) : (treeNode (forsJoin seed x) (fun p => forsLeaf seed x p (forsSecret secret seed x p)) z i).length = 24 :=
    treeNode_length (fun _ _ _ => slhH_length ..) (fun _ => slhF_length ..) _ _
  have htree (i : Nat) : (forsSecret secret seed x i ++ (List.range forsLevels).flatMap fun z =>
      treeNode (forsJoin seed x) (fun p => forsLeaf seed x p (forsSecret secret seed x p)) z (sibling i z)).length = 360 := by
    rw [List.length_append, length_flatMap_of_forall fun z => hnode _ z, List.length_range, forsSecret, slhF_length]
    rfl
  unfold forsSign
  rw [length_flatMap_of_forall fun j => htree _, List.length_range]
  rfl

theorem slhSign_length (secret prf key m random : Bytes) : (slhSign secret prf key m random).length = 16224 := by
  unfold slhSign
  simp [hyperSign_length, forsSign_length, hmacSha512, slhN, slhLayers]

theorem rsaSign_length (modulus priv m salt : Bytes) : (rsaSign modulus priv m salt).length = 384 := by
  unfold rsaSign
  exact beBytes_length _ _

end Sys2Proof.Crypto

namespace Sys2Proof

/-! ### Fields of byte strings -/

@[simp] theorem slice_length (b : Bytes) (o n : Nat) : (slice b o n).length = n := by
  simp [slice]

theorem slice_append_left {a b : Bytes} {o n : Nat} (h : o + n ≤ a.length) : slice (a ++ b) o n = slice a o n := by
  refine List.map_congr_left fun i hi => ?_
  have hi : i < n := List.mem_range.1 hi
  exact List.getD_append _ _ _ _ (by omega)

theorem slice_append_right (a b : Bytes) (o n : Nat) : slice (a ++ b) (a.length + o) n = slice b o n := by
  refine List.map_congr_left fun i _ => ?_
  rw [Nat.add_assoc, List.getD_append_right _ _ _ _ (Nat.le_add_right ..), Nat.add_sub_cancel_left]

theorem slice_self (a : Bytes) : slice a 0 a.length = a := by
  refine List.ext_getElem (slice_length ..) fun i h1 h2 => ?_
  simp [slice, h2]

/-- A byte string in parts: the part that `k` others precede. -/
theorem slice_flatten {parts : List Bytes} {k o n : Nat} {p : Bytes} (hp : parts[k]? = some p)
    (ho : ((parts.map List.length).take k).sum = o) (hn : p.length = n) : slice parts.flatten o n = p := by
  subst hn
  subst ho
  induction parts generalizing k with
  | nil => cases hp
  | cons q parts ih =>
    cases k with
    | zero =>
      cases hp
      refine (slice_append_left ?_).trans (slice_self p)
      exact (Nat.zero_add _).le
    | succ k => exact (slice_append_right q _ _ _).trans (ih hp)

theorem allZero_iff_leNat (b : Bytes) : allZero b = true ↔ leNat b = 0 := by
  induction b with
  | nil => exact iff_of_true rfl rfl
  | cons x b ih =>
    have hx : x = 0#8 ↔ x.toNat = 0 := ⟨fun h => h ▸ rfl, fun h => BitVec.eq_of_toNat_eq h⟩
    unfold allZero at ih ⊢
    unfold leNat
    rw [List.all_cons, Bool.and_eq_true, ih, beq_iff_eq]
    refine (and_congr_left' hx).trans ?_
    omega

theorem allZero_slice (b : Bytes) (o n : Nat) : allZero (slice b o n) = true ↔ leAt b o n = 0 := allZero_iff_leNat _

end Sys2Proof

namespace Sys2Proof.Machine
open Sys2Proof.Claims Sys2Proof.Crypto

variable {s : State} {via : Via}

/-! ### Flags in a byte -/

theorem testBit_foldr (l : List Bool) (i : Nat) :
    (l.foldr (fun (b : Bool) n => 2 * n + b.toNat) 0).testBit i = l.getD i false := by
  induction l generalizing i with
  | nil => exact (Nat.zero_testBit i).trans (List.getD_nil ..).symm
  | cons b l ih =>
    rw [List.foldr_cons]
    cases i with
    | zero => cases b <;> simp [Nat.testBit_zero]
    | succ i =>
      rw [Nat.testBit_succ, List.getD_cons_succ, ← ih i]
      congr 1
      have := b.toNat_le
      omega

theorem testBit_packByte (l : List Bool) (i : Nat) (h : i < 8) : (leNat [packByte l]).testBit i = l.getD i false := by
  unfold leNat packByte leNat
  rw [Nat.mul_zero, Nat.add_zero, BitVec.toNat_ofNat, Nat.testBit_mod_two_pow, testBit_foldr]
  exact (congrArg (· && _) (decide_eq_true h)).trans (Bool.true_and _)

/-! ### A bight's record in a report (R591) -/

/-- The fields of a bight's record. -/
def recordParts (b : Nat) (x : Bight) : List Bytes :=
  let digest := fun (i : Nat) => digestBytes (((Tab.find? x.weights i).map (·.1)).getD 0)
  let length := fun (i : Nat) => leBytes 8 (((Tab.find? x.weights i).map (·.2)).getD 0)
  [leBytes 1 b, leBytes 1 x.stateCode, leBytes 1 x.owner, [0], leBytes 4 x.placementWord, leBytes 8 x.place.groups.toNat,
    leBytes 8 x.place.ports.toNat, [packByte (x.program.isSome :: (List.range 4).map fun i => (Tab.find? x.weights i).isSome)],
    List.replicate 7 0, digestBytes (x.program.getD 0), digest 0, digest 1, digest 2, digest 3,
    length 0, length 1, length 2, length 3, List.replicate 16 0]

theorem bightRecord_eq (b : Nat) (x : Bight) : bightRecord b x = (recordParts b x).flatten := by
  have h4 (f : Nat → Bytes) : (List.range 4).flatMap f = f 0 ++ (f 1 ++ (f 2 ++ f 3)) := by simp [List.range_succ]
  unfold bightRecord recordParts
  simp only [h4, List.flatten_cons, List.flatten_nil, List.append_assoc, List.append_nil]

theorem recordParts_lengths (b : Nat) (x : Bight) :
    (recordParts b x).map List.length = [1, 1, 1, 1, 4, 8, 8, 1, 7, 48, 48, 48, 48, 48, 8, 8, 8, 8, 16] := by
  simp [recordParts, digestBytes]

theorem bightRecord_length (b : Nat) (x : Bight) : (bightRecord b x).length = 320 := by
  rw [bightRecord_eq, List.length_flatten, recordParts_lengths]
  rfl

section
variable {b : Nat} {x : Bight} {k o n : Nat} {p : Bytes} (hp : (recordParts b x)[k]? = some p)
  (ho : ([1, 1, 1, 1, 4, 8, 8, 1, 7, 48, 48, 48, 48, 48, 8, 8, 8, 8, 16].take k).sum = o) (hn : p.length = n)
include hp ho hn

theorem slice_bightRecord : slice (bightRecord b x) o n = p := by
  rw [bightRecord_eq]
  exact slice_flatten hp (by rw [recordParts_lengths]; exact ho) hn

theorem leAt_bightRecord : leAt (bightRecord b x) o n = leNat p := by
  unfold leAt
  rw [slice_bightRecord hp ho hn]
end

theorem getD_map_fst {α β : Type} (o : Option (α × β)) (d : α) : (o.map (·.1)).getD d = o.elim d fun e => e.1 := by
  cases o <;> rfl

theorem bightRecord_weight (b : Nat) (x : Bight) (i : Nat) (hi : i < 4) :
    (leAt (bightRecord b x) 0x18 1).testBit (i + 1) = (Tab.find? x.weights i).isSome ∧
    slice (bightRecord b x) (0x50 + 48 * i) 48 = beBytes 48 ((Tab.find? x.weights i).elim 0 fun e => e.1).toNat := by
  constructor
  · rw [leAt_bightRecord (k := 7) (o := 0x18) (n := 1) rfl rfl rfl, testBit_packByte _ _ (by omega), List.getD_cons_succ]
    simp [hi]
  · rw [← getD_map_fst]
    match i, hi with
    | 0, _ => exact slice_bightRecord (k := 10) rfl rfl (beBytes_length ..)
    | 1, _ => exact slice_bightRecord (k := 11) rfl rfl (beBytes_length ..)
    | 2, _ => exact slice_bightRecord (k := 12) rfl rfl (beBytes_length ..)
    | 3, _ => exact slice_bightRecord (k := 13) rfl rfl (beBytes_length ..)

/-! ### The body of a report (R591) -/

/-- The fields of a report's body that stand before its reserved end. -/
def State.reportParts (s : State) (nonce : Bytes) (n : Nat) : List Bytes :=
  [leBytes 4 0x4E474152, leBytes 2 1, leBytes 2 n, leBytes 4 (1024 + 320 * n + pairLen),
    leBytes 4 (s.security.reportSeq + 1).toNat, slice nonce 0 32, s.fuses.moduleId, leBytes 2 0x4E30,
    leBytes 1 s.fuses.grade, [0], leBytes 2 s.fuses.goodCount, leBytes 2 0, leBytes 8 s.frame.counter.toNat,
    digestBytes s.fuses.romDigest, digestBytes s.boot.imageDigest,
    leBytes 4 s.boot.fwVersion.toNat, leBytes 1 s.boot.svn, leBytes 1 s.fuses.rollback, [s.reportState false], [0],
    leBytes 4 (if s.boot.vendorDebug then s.boot.scope.toNat else 0), leBytes 4 0, s.fuses.goodMap,
    (List.range 64).map fun i => s.vfByte i, leBytes 1 s.policyValue, List.replicate 7 0,
    (List.range 64).map fun i => BitVec.ofNat 8 ((s.keySlot i).owner.getD 0xFF)]

theorem reportBody_eq (s : State) (nonce : Bytes) (n : Nat) :
    s.reportBody nonce n false = slice (s.reportParts nonce n).flatten 0 1024 := by
  unfold State.reportBody State.reportParts
  simp only [List.flatten_cons, List.flatten_nil, List.append_assoc, List.append_nil, List.cons_append, List.nil_append,
    Bool.false_eq_true, if_false]

/-- The lengths of those fields. -/
def reportLengths : List Nat := [4, 2, 2, 4, 4, 32, 16, 2, 1, 1, 2, 2, 8, 48, 48, 4, 1, 1, 1, 1, 4, 4, 64, 64, 1, 7, 64]

theorem reportParts_lengths (s : State) (nonce : Bytes) (n : Nat) :
    (s.reportParts nonce n).map List.length = reportLengths := by
  simp [State.reportParts, reportLengths, digestBytes, Fuses.moduleId, Fuses.goodMap]

theorem reportMessage_eq (s : State) (nonce : Bytes) : s.reportMessage nonce =
    slice (s.reportParts nonce s.reportBights.length).flatten 0 1024 ++ (s.reportBights.map fun e => bightRecord e.1 e.2).flatten := by
  rw [← reportBody_eq]
  rfl

theorem reportMessage_length (s : State) (nonce : Bytes) :
    (s.reportMessage nonce).length = 1024 + 320 * s.reportBights.length := by
  have hrec (e : Nat × Bight) : (bightRecord e.1 e.2).length = 320 := bightRecord_length ..
  rw [reportMessage_eq, List.length_append, slice_length, ← List.flatMap_def, length_flatMap_of_forall hrec, Nat.mul_comm]

section
variable {nonce : Bytes} {k o n : Nat} {p : Bytes} (hp : (s.reportParts nonce s.reportBights.length)[k]? = some p)
  (ho : (reportLengths.take k).sum = o) (hn : p.length = n) (hle : o + n ≤ 1024)
include hp ho hn hle

theorem slice_reportMessage : slice (s.reportMessage nonce) o n = p := by
  rw [reportMessage_eq, slice_append_left (by rw [slice_length]; exact hle), Tests.slice_of_slice _ _ _ _ hle]
  exact slice_flatten hp (by rw [reportParts_lengths]; exact ho) hn

theorem leAt_reportMessage : leAt (s.reportMessage nonce) o n = leNat p := by
  unfold leAt
  rw [slice_reportMessage hp ho hn hle]
end

theorem leAt_reportMessage_number {nonce : Bytes} {k o n v : Nat}
    (hp : (s.reportParts nonce s.reportBights.length)[k]? = some (leBytes n v)) (ho : (reportLengths.take k).sum = o)
    (hle : o + n ≤ 1024) : leAt (s.reportMessage nonce) o n = v % 256 ^ n := by
  rw [leAt_reportMessage hp ho (leBytes_length ..) hle, leNat_leBytes]

theorem map_length_records (l : List (Nat × Bight)) :
    (l.map fun e => bightRecord e.1 e.2).map List.length = List.replicate l.length 320 := by
  refine List.eq_replicate_iff.2 ⟨by rw [List.length_map, List.length_map], fun n hn => ?_⟩
  obtain ⟨r, hr, rfl⟩ := List.mem_map.1 hn
  obtain ⟨e, -, rfl⟩ := List.mem_map.1 hr
  exact bightRecord_length ..

theorem slice_reportMessage_record (s : State) (nonce : Bytes) (k : Nat) (e : Nat × Bight) (h : s.reportBights[k]? = some e) :
    slice (s.reportMessage nonce) (1024 + 320 * k) 320 = bightRecord e.1 e.2 := by
  have hk : k < s.reportBights.length := (List.getElem?_eq_some_iff.1 h).1
  have hskip := slice_append_right (slice (s.reportParts nonce s.reportBights.length).flatten 0 1024)
    (s.reportBights.map fun e => bightRecord e.1 e.2).flatten (320 * k) 320
  rw [slice_length, ← reportMessage_eq] at hskip
  refine hskip.trans ?_
  refine slice_flatten (k := k) ?_ ?_ (bightRecord_length ..)
  · rw [List.getElem?_map, h]
    rfl
  · rw [map_length_records, List.take_replicate, Nat.min_eq_left hk.le, List.sum_replicate_nat, Nat.mul_comm]

/-! ### REPORT_REQUEST and REPORT_READY (R590, R591) -/

section
variable (h : Serves s via true false)
include h

theorem answers_reportRequest_length {nonce : Bytes} (hn : nonce.length ≠ 32) : Answers (.reportRequest via nonce) s via 0x04 s :=
  answers_of_objWrite h (act := putReportRequest nonce) rfl (if_pos hn)

variable {nonce : Bytes} (hn : nonce.length = 32)
include hn

theorem answers_reportRequest_busy (hg : s.security.generating ≠ none) : Answers (.reportRequest via nonce) s via 0x09 s := by
  refine answers_of_objWrite h (act := putReportRequest nonce) rfl ?_
  unfold putReportRequest
  rw [if_neg (not_not_intro hn), if_pos (Option.isSome_iff_ne_none.2 hg)]
  rfl

theorem answers_reportRequest_starts (hg : s.security.generating = none) : Answers (.reportRequest via nonce) s via 0x00
    { s with security := { s.security with generating := some (s.reportMessage nonce), reportState := 1, report := [] } } := by
  refine answers_of_objWrite h (act := putReportRequest nonce) rfl ?_
  unfold putReportRequest
  rw [if_neg (not_not_intro hn), hg]
  rfl
end

theorem exec_reportReady_idle (h : s.security.generating = none) : exec .reportReady s = .next s := by
  change execReportReady s = _
  unfold execReportReady
  rw [h]

/-- The fields of 0x7030.00 to 0x7033.00 when a report has been signed. -/
theorem exec_reportReady_signs {m : Bytes} (h : s.security.generating = some m) :
    exec .reportReady s = .next { s with fresh := s.fresh + 1 + 1, security := { s.security with
      generating := none, reportState := 2, reportSeq := s.security.reportSeq + 1
      report := m ++ (rsaSign s.fuses.rsaModulus s.fuses.rsaPrivate m (slice (Config.freeBytes s.fresh) 0 48) ++
        slhSign (slice s.fuses.slhPrivate 0 24) (slice s.fuses.slhPrivate 24 24) s.fuses.slhPub (sha384Bytes m)
          (slice (Config.freeBytes (s.fresh + 1)) 0 24)) } } := by
  change execReportReady s = _
  unfold execReportReady
  rw [h]
  rfl

/-! ### MEASURE (R592, R593) -/

theorem measureBad_iff (r : Bytes) : measureBad r = true ↔
    leAt r 3 1 ≠ 0 ∨ leAt r 6 2 ≠ 0 ∨ leAt r 0x18 8 ≠ 0 ∨ 3 < leAt r 2 1 ∨
      (leAt r 1 1 = 1 ∧ (leAt r 4 2 ≠ 0 ∨ leAt r 8 8 ≠ 0 ∨ leAt r 0x10 8 ≠ 0)) ∨
      (leAt r 1 1 = 2 ∧ (leAt r 8 8 = 0 ∨ leAt r 0x10 8 = 0 ∨ leAt r 8 8 % 65536 ≠ 0 ∨ leAt r 0x10 8 % 65536 ≠ 0)) ∨
      (leAt r 1 1 ≠ 1 ∧ leAt r 1 1 ≠ 2) := by
  have hz (o n : Nat) : (!allZero (slice r o n)) = true ↔ leAt r o n ≠ 0 := by
    rw [Bool.not_eq_true', ← Bool.not_eq_true, allZero_slice]
  unfold measureBad measurementOf
  dsimp only
  simp only [Bool.or_eq_true, hz, decide_eq_true_iff]
  split
  next hk => simp [hk, or_assoc]
  next hk => simp [hk, or_assoc]
  next h1 h2 =>
    have hkind : leAt r 1 1 ≠ 1 ∧ leAt r 1 1 ≠ 2 := ⟨h1, h2⟩
    exact iff_of_true (Or.inr rfl) (.inr (.inr (.inr (.inr (.inr (.inr hkind))))))

theorem contextOf_eq_false_iff (s : State) (fn asid : Nat) : s.contextOf fn asid = false ↔ s.contextFn asid ≠ some fn := by
  simp [State.contextOf]

theorem openIn_iff (s : State) (m : Measurement) : (∃ e ∈ s.leavesOf m.asid m.va m.len, leafShadow e.2.2 = true ∧
    (s.object (leafF e.2.2 44 20)).isOpen = true) ↔ s.openIn m = true := by
  simp [State.openIn]

section
variable (h : Serves s via true true) {r : Bytes}
include h

theorem answers_measure_length (hr : r.length ≠ 32) : Answers (.measure via r) s via 0x04 s :=
  answers_of_objWrite h (act := putMeasure r) rfl (if_pos hr)

theorem serves_not_rootstock : s.errors.rootstock = false := by
  obtain ⟨-, -, hl⟩ := h
  rcases (levelOk_iff s via true).1 hl with he | ⟨-, hr⟩
  · cases he
  · exact hr

variable (hr : r.length = 32)
include hr

theorem putMeasure_checked : putMeasure r s =
    let m := measurementOf r
    if measureBad r then (dOk, s.measureResult m.bight 1)
    else if (s.bight m.bight).state = .free then (dOk, s.measureResult m.bight 2)
    else if m.kind = 2 ∧ s.contextOf (s.bight m.bight).owner m.asid = false then (dOk, s.measureResult m.bight 1)
    else if s.security.measuring.isSome then (dOk, s.measureResult m.bight 3)
    else if m.kind = 2 ∧ s.openIn m = true then (dOk, s.measureResult m.bight 5)
    else
      let s := s.measureResult m.bight 0
      (dOk, { s with security := { s.security with measuring := some m } }) := by
  unfold putMeasure
  rw [if_neg (not_not_intro hr), if_neg (by rw [serves_not_rootstock h]; exact Bool.false_ne_true)]

theorem answers_measure_bad (hb : measureBad r = true) : Answers (.measure via r) s via 0x00 (s.measureResult (leAt r 0 1) 1) :=
  answers_of_objWrite h (act := putMeasure r) rfl ((putMeasure_checked h hr).trans (if_pos hb))

variable (hb : ¬ measureBad r = true)
include hb

theorem answers_measure_free (hf : (s.bight (leAt r 0 1)).state = .free) :
    Answers (.measure via r) s via 0x00 (s.measureResult (leAt r 0 1) 2) := by
  refine answers_of_objWrite h (act := putMeasure r) rfl ((putMeasure_checked h hr).trans ?_)
  exact (if_neg hb).trans (if_pos hf)

variable (hf : (s.bight (leAt r 0 1)).state ≠ .free)
include hf

theorem answers_measure_foreign
    (hc : (measurementOf r).kind = 2 ∧ s.contextOf (s.bight (measurementOf r).bight).owner (measurementOf r).asid = false) :
    Answers (.measure via r) s via 0x00 (s.measureResult (leAt r 0 1) 1) := by
  refine answers_of_objWrite h (act := putMeasure r) rfl ((putMeasure_checked h hr).trans ?_)
  exact (if_neg hb).trans ((if_neg hf).trans (if_pos hc))

variable (hc : ¬ ((measurementOf r).kind = 2 ∧ s.contextOf (s.bight (measurementOf r).bight).owner (measurementOf r).asid = false))
include hc

theorem answers_measure_busy (hm : s.security.measuring ≠ none) :
    Answers (.measure via r) s via 0x00 (s.measureResult (leAt r 0 1) 3) := by
  refine answers_of_objWrite h (act := putMeasure r) rfl ((putMeasure_checked h hr).trans ?_)
  exact (if_neg hb).trans ((if_neg hf).trans ((if_neg hc).trans (if_pos (Option.isSome_iff_ne_none.2 hm))))

variable (hm : s.security.measuring = none)
include hm

theorem answers_measure_open (ho : (measurementOf r).kind = 2 ∧ s.openIn (measurementOf r) = true) :
    Answers (.measure via r) s via 0x00 (s.measureResult (leAt r 0 1) 5) := by
  refine answers_of_objWrite h (act := putMeasure r) rfl ((putMeasure_checked h hr).trans ?_)
  have hm' : ¬ s.security.measuring.isSome = true := by rw [hm]; exact Bool.false_ne_true
  exact (if_neg hb).trans ((if_neg hf).trans ((if_neg hc).trans ((if_neg hm').trans (if_pos ho))))

theorem answers_measure_starts (ho : ¬ ((measurementOf r).kind = 2 ∧ s.openIn (measurementOf r) = true)) :
    Answers (.measure via r) s via 0x00 { s.measureResult (leAt r 0 1) 0 with
      security := { (s.measureResult (leAt r 0 1) 0).security with measuring := some (measurementOf r) } } := by
  refine answers_of_objWrite h (act := putMeasure r) rfl ((putMeasure_checked h hr).trans ?_)
  have hm' : ¬ s.security.measuring.isSome = true := by rw [hm]; exact Bool.false_ne_true
  exact (if_neg hb).trans ((if_neg hf).trans ((if_neg hc).trans ((if_neg hm').trans (if_neg ho))))
end

/-! ### MEASURE_DONE (R593) -/

theorem State.bight_modBight (s : State) (b : Nat) (f : Bight → Bight) : (s.modBight b f).bight b = f (s.bight b) :=
  State.bight_setBight_self ..

theorem State.bight_modBight_other (s : State) {b k : Nat} (f : Bight → Bight) (h : k ≠ b) :
    (s.modBight b f).bight k = s.bight k :=
  (State.bight_setBight ..).trans (if_neg h)

/-- The measurement of a bight ends with a result. -/
def State.measured (s : State) (b k : Nat) : State :=
  { s with security := { s.security with measuring := none, measureResult := k, measureBight := b } }

theorem State.bight_measured (s : State) (b k n : Nat) : (s.measured b k).bight n = s.bight n := rfl

/-- What is read for a measurement. -/
def State.measureRead (s : State) (m : Measurement) (answer : HostAns) : Got Bytes × State :=
  if m.kind = 1 then s.forgetSteps.measureProgram m.bight
  else if 2 ^ 52 < m.va + m.len then (Got.bad, s)
  else State.measureBytes (whoMeasures m.asid) (m.len / 4096) s.forgetSteps m.va answer

section
variable {m : Measurement} {answer : HostAns} {u : State}

theorem exec_measureDone_idle (h : s.security.measuring = none) : exec (.measureDone answer) s = .next s := by
  change execMeasureDone answer s = _
  unfold execMeasureDone
  rw [h]

variable (h : s.security.measuring = some m)
include h

theorem exec_measureDone_bad (hr : s.measureRead m answer = (.bad, u)) :
    exec (.measureDone answer) s = .next (u.measured m.bight 4) := by
  change execMeasureDone answer s = _
  unfold execMeasureDone
  unfold State.measureRead at hr
  rw [h]
  dsimp only
  rw [hr]
  rfl

theorem exec_measureDone_held (hr : s.measureRead m answer = (.held, u)) : exec (.measureDone answer) s = .next u := by
  change execMeasureDone answer s = _
  unfold execMeasureDone
  unfold State.measureRead at hr
  rw [h]
  dsimp only
  rw [hr]

theorem exec_measureDone_ok {d : Bytes} (hr : s.measureRead m answer = (.ok d, u)) : exec (.measureDone answer) s = .next
    ((u.modBight m.bight fun x => if m.kind = 1 then { x with program := some (sha384 d) }
      else { x with weights := Tab.set x.weights m.index (sha384 d, m.len) }).measured m.bight 0) := by
  change execMeasureDone answer s = _
  unfold execMeasureDone
  unfold State.measureRead at hr
  rw [h]
  dsimp only
  rw [hr]
  rfl
end

end Sys2Proof.Machine

section
open Sys2Proof Sys2Proof.Machine Sys2Proof.Claims Sys2Proof.Crypto

/-- Settles O56: the report is read field by field from the list of its parts, a measurement in the order of its checks. -/
theorem attestationAndMeasurement : Obligations.AttestationAndMeasurement := by
  unfold Obligations.AttestationAndMeasurement
  refine ⟨fun s via v h => ⟨fun hv => ?_, fun hv => ?_⟩, fun s via nonce h => ?_, fun s => ⟨exec_reportReady_idle, fun m hm => ?_⟩,
    fun b x => ?_, fun s via r h => ?_, fun s answer => ⟨exec_measureDone_idle, fun m hm => ?_⟩⟩
  · exact answers_of_objWrite h (act := putDebugDisable v) rfl (if_pos hv)
  · exact answers_of_objWrite h (act := putDebugDisable v) rfl (if_neg hv)
  · have hbights : (if s.errors.rootstock = true then [] else
        List.filter (fun e : Nat × Bight => decide (e.2.state ≠ .free)) s.bights.tab) = s.reportBights := by
      unfold State.reportBights
      simp only [ne_eq, decide_not, bne, BEq.beq]
    dsimp only
    rw [hbights]
    refine ⟨answers_reportRequest_length h, answers_reportRequest_busy h, fun hn hg => ⟨_, answers_reportRequest_starts h hn hg,
      reportMessage_length s nonce, ?_, ?_, ?_, ?_, ?_, ?_, ?_, ?_, ?_, ?_, ?_, ?_, ?_, ?_, ?_, ?_⟩⟩
    · exact leAt_reportMessage_number (k := 0) rfl rfl (by decide)
    · exact leAt_reportMessage_number (k := 1) rfl rfl (by decide)
    · exact leAt_reportMessage_number (k := 2) rfl rfl (by decide)
    · exact leAt_reportMessage_number (k := 3) rfl rfl (by decide)
    · exact (leAt_reportMessage_number (k := 4) rfl rfl (by decide)).trans (Nat.mod_eq_of_lt (BitVec.isLt _))
    · refine (slice_reportMessage (k := 5) rfl rfl (slice_length ..) (by decide)).trans ?_
      rw [← hn, slice_self]
    · exact leAt_reportMessage_number (k := 7) rfl rfl (by decide)
    · exact (leAt_reportMessage_number (k := 12) rfl rfl (by decide)).trans (Nat.mod_eq_of_lt (s.frame.counter.isLt.trans (by decide)))
    · exact slice_reportMessage (k := 13) rfl rfl (beBytes_length ..) (by decide)
    · exact slice_reportMessage (k := 14) rfl rfl (beBytes_length ..) (by decide)
    · exact (leAt_reportMessage_number (k := 15) rfl rfl (by decide)).trans (Nat.mod_eq_of_lt (BitVec.isLt _))
    · exact leAt_reportMessage_number (k := 17) rfl rfl (by decide)
    · rw [leAt_reportMessage (k := 18) (o := 0xB6) (n := 1) rfl rfl rfl (by decide)]
      exact testBit_packByte _ 0 (by decide)
    · rw [leAt_reportMessage (k := 18) (o := 0xB6) (n := 1) rfl rfl rfl (by decide)]
      exact testBit_packByte _ 1 (by decide)
    · rw [leAt_reportMessage (k := 18) (o := 0xB6) (n := 1) rfl rfl rfl (by decide)]
      exact testBit_packByte _ 3 (by decide)
    · exact slice_reportMessage_record s nonce
  · exact ⟨_, exec_reportReady_signs hm, _, _, _, _, rsaSign_length .., slhSign_length .., slice_length .., slice_length ..,
      rfl, rfl, rfl⟩
  · refine ⟨bightRecord_length b x, ?_, ?_, ?_, ?_, ?_, ?_, bightRecord_weight b x⟩
    · exact (leAt_bightRecord (k := 0) rfl rfl rfl).trans (leNat_leBytes ..)
    · exact (leAt_bightRecord (k := 2) rfl rfl rfl).trans (leNat_leBytes ..)
    · exact (leAt_bightRecord (k := 5) rfl rfl rfl).trans ((leNat_leBytes ..).trans (Nat.mod_eq_of_lt (BitVec.isLt _)))
    · exact (leAt_bightRecord (k := 6) rfl rfl rfl).trans ((leNat_leBytes ..).trans (Nat.mod_eq_of_lt (BitVec.isLt _)))
    · exact (congrArg (Nat.testBit · 0) (leAt_bightRecord (k := 7) rfl rfl rfl)).trans (testBit_packByte _ 0 (by decide))
    · exact slice_bightRecord (k := 9) rfl rfl (beBytes_length ..)
  · dsimp only
    rw [← measureBad_iff, ← contextOf_eq_false_iff]
    have ho := and_congr_right' (a := (measurementOf r).kind = 2) (openIn_iff s (measurementOf r))
    exact ⟨answers_measure_length h, fun hr => ⟨answers_measure_bad h hr, answers_measure_free h hr,
      answers_measure_foreign h hr, answers_measure_busy h hr,
      fun hb hf hc hm hopen => answers_measure_open h hr hb hf hc hm (ho.1 hopen),
      fun hb hf hc hm hopen => answers_measure_starts h hr hb hf hc hm (mt ho.2 hopen)⟩⟩
  · dsimp only
    refine ⟨fun hk => ⟨fun u hu => ?_, fun u hu => ?_, fun d u hu => ?_⟩, fun hk hlong => ?_,
      fun hk hle => ⟨fun u hu => ?_, fun u hu => ?_, fun d u hu => ?_⟩⟩
    · exact ⟨_, exec_measureDone_bad hm ((if_pos hk).trans hu), rfl, rfl⟩
    · exact exec_measureDone_held hm ((if_pos hk).trans hu)
    · refine ⟨_, exec_measureDone_ok hm ((if_pos hk).trans hu), rfl, ?_, ?_, rfl⟩
      · rw [State.bight_measured, State.bight_modBight, if_pos hk]
      · intro k hne
        exact (State.bight_measured ..).trans (State.bight_modBight_other _ _ hne)
    · exact ⟨_, exec_measureDone_bad hm ((if_neg hk).trans (if_pos hlong)), rfl, rfl⟩
    · exact ⟨_, exec_measureDone_bad hm ((if_neg hk).trans ((if_neg (Nat.not_lt.2 hle)).trans hu)), rfl, rfl⟩
    · exact exec_measureDone_held hm ((if_neg hk).trans ((if_neg (Nat.not_lt.2 hle)).trans hu))
    · refine ⟨_, exec_measureDone_ok hm ((if_neg hk).trans ((if_neg (Nat.not_lt.2 hle)).trans hu)), rfl, ?_, ?_, rfl⟩
      · rw [State.bight_measured, State.bight_modBight, if_neg hk]
      · intro k hne
        exact (State.bight_measured ..).trans (State.bight_modBight_other _ _ hne)

end

namespace Sys2Proof.Machine
open Sys2Proof.Claims

/-! ### Key slots and requests, which a write to HBM leaves alone until a request is settled (R355) -/

section
variable (s : State)

/-- The key slots and the requests. -/
def State.ledger : Tab KeySlot × List Req := (s.security.slots, s.reqs)

theorem ledger_of_eq {α : Type} {p : α × State} {a : α} {s t : State} (e : p = (a, t)) (h : p.2.ledger = s.ledger) :
    t.ledger = s.ledger := by
  rw [e] at h
  exact h

@[simp] theorem State.ledger_ite {c : Prop} [Decidable c] (s t : State) :
    (if c then s else t).ledger = if c then s.ledger else t.ledger := apply_ite ..

@[simp] theorem State.ledger_setGroup (g : Nat) (x : Group) : (s.setGroup g x).ledger = s.ledger := rfl

@[simp] theorem State.ledger_event (code arg : Nat) : (s.event code arg).ledger = s.ledger := by
  unfold State.event
  dsimp only
  split_ifs <;> rfl

theorem State.ledger_activity (u : Meter) (k : Activity) (n : Nat) (p : Payer) : (s.activity u k n p).ledger = s.ledger := by
  rw [State.activity_frame]
  rfl

theorem State.ledger_dequeue (g : Nat) (r : Req) : (s.dequeue g r).ledger = s.ledger := by
  unfold State.dequeue
  split <;> rfl

@[simp] theorem State.ledger_gateBytes (g cls n : Nat) (p : Payer) : (s.gateBytes g cls n p).ledger = s.ledger :=
  State.ledger_activity ..

theorem State.ledger_countRelease (g : Nat) (r : Req) (p : Payer) : (s.countRelease g r p).ledger = s.ledger := by
  simp [State.countRelease]

theorem State.ledger_readCw (agent : Nat) (rmw : Bool) (cw : Nat) : (s.readCw agent rmw cw).2.ledger = s.ledger := by
  have hc (n : Nat) : (s.hbmCorrected agent cw n).ledger = s.ledger := by
    unfold State.hbmCorrected
    dsimp only
    split_ifs <;> rfl
  unfold State.readCw
  split
  · rfl
  · rfl
  · dsimp only
    split_ifs
    · exact hc _
    · exact hc _

theorem State.ledger_writeCwPart (agent : Nat) (key : Option (Nat × Bool)) (cw o : Nat) (d : Bytes) :
    (s.writeCwPart agent key cw o d).2.ledger = s.ledger := by
  unfold State.writeCwPart
  split
  · rfl
  · split
    · next h => exact (ledger_of_eq h (State.ledger_readCw ..) :)
    · next h => exact (ledger_of_eq h (State.ledger_readCw ..) :)

theorem State.ledger_writeHbmBytes (agent : Nat) (key : Option (Nat × Bool)) (fuel a : Nat) (d : Bytes) :
    (s.writeHbmBytes agent key fuel a d).2.ledger = s.ledger := by
  induction fuel generalizing s a d with
  | zero => rfl
  | succ fuel ih =>
    unfold State.writeHbmBytes
    split
    · rfl
    · exact (ih _ _ _).trans (State.ledger_writeCwPart ..)

/-- A request that writes HBM with no key. -/
structure Req.WritesHbm (r : Req) (a g : Nat) : Prop where
  target : r.target = .hbm a
  region : regionOf a = .hbm g
  write : r.write = true
  late : r.late = false
  key : r.key = none

variable {s}

theorem State.ledger_physWrite {a g : Nat} (hg : regionOf a = .hbm g) (agent : Nat) (key : Option (Nat × Bool)) (p : Payer)
    (d : Bytes) : (s.physWrite agent key p a d).2.ledger = s.ledger := by
  unfold State.physWrite
  split
  · rfl
  · split
    · next h => rw [hg] at h; cases h
    · exact State.ledger_writeHbmBytes ..

theorem State.ledger_accessHbm {r : Req} {a g : Nat} (h : r.WritesHbm a g) : (s.accessHbm r a).2.ledger = s.ledger := by
  obtain ⟨-, hg, hw, hl, hk⟩ := h
  unfold State.accessHbm
  split
  · rfl
  · rw [hl, hk, if_neg (by simp [State.keyed])]
    unfold State.accessNow
    rw [if_pos hw]
    split
    · next h => exact ledger_of_eq h (State.ledger_physWrite hg ..)
    · next h => exact ledger_of_eq h (State.ledger_physWrite hg ..)

theorem State.ledger_serveReq {r : Req} {a g : Nat} (h : r.WritesHbm a g) (x : Group) :
    (s.serveReq g x r).2.ledger = s.ledger := by
  unfold State.serveReq
  rw [h.target]
  exact (State.ledger_accessHbm h).trans ((State.ledger_countRelease ..).trans (State.ledger_dequeue ..))

/-- What a settled read's reference does to the key slots (R355). -/
theorem State.keySlot_settle {id k : Nat} {q : Req} (res : ReqResult) (hq : s.req? id = some q) (hk : q.key = some (k, false))
    (hw : q.write = false) : (s.settle id res).keySlot k = { s.keySlot k with refs0 := (s.keySlot k).refs0 - 1 } := by
  unfold State.settle
  rw [hq]
  change (s.refKey q false).keySlot k = _
  unfold State.refKey
  rw [hk]
  dsimp only
  rw [hw]
  exact Tab.look_put_same ..

theorem State.keySlot_ledger {t : State} (h : t.ledger = s.ledger) (k : Nat) : t.keySlot k = s.keySlot k := by
  unfold State.keySlot
  exact congrArg (fun l : Tab KeySlot × List Req => Tab.look ({} : KeySlot) l.1 k) h

theorem State.req?_ledger {t : State} (h : t.ledger = s.ledger) (id : Nat) : t.req? id = s.req? id := by
  unfold State.req?
  exact congrArg (fun l : Tab KeySlot × List Req => l.2.find? fun r : Req => r.id == id) h

/-- A write that the gate lets go at once settles the first request of its number: where that is another one, an encrypted read,
that read's reference goes. -/
theorem State.keySlot_tryStep {r p q : Req} {a g k : Nat} (h : r.WritesHbm a g)
    (hgo : (r.circ.isSome || !(s.group g).queue.contains r.id || !s.groupOn g) = false)
    (hp : (s.pickRelease g).1 = some p) (hid : p.id = r.id) (hq : s.req? r.id = some q) (hk : q.key = some (k, false))
    (hw : q.write = false) : (s.tryStep g r).2.keySlot k = { s.keySlot k with refs0 := (s.keySlot k).refs0 - 1 } := by
  have hl := s.ledger_serveReq h (s.pickRelease g).2
  have hpick : s.pickRelease g = (some p, (s.pickRelease g).2) := Prod.ext hp rfl
  unfold State.tryStep
  rw [hgo, hpick]
  dsimp only
  rw [if_neg Bool.false_ne_true, if_pos hid]
  refine (State.keySlot_settle _ ((State.req?_ledger hl _).trans hq) hk hw).trans ?_
  rw [State.keySlot_ledger hl]

/-- The state in which the gate of group `g` is asked for a write of the module's own. -/
def State.asksWrite (s : State) (a g : Nat) (d : Bytes) : State :=
  (((s.dropSteps a d.length).addReq { ownReq a d.length with write := true, data := d }).2.gateReq g s.nextReq).wakeStack
    (stackOfGroup g)

/-- What a write of the module's own does to key slot `k` when a pending read under it bears the number that the write gets. -/
theorem State.keySlot_ownPut {a g k : Nat} {d : Bytes} {p q : Req} (he : s.accessError a d.length = none) (hg : regionOf a = .hbm g)
    (hgo : ((false || !((s.asksWrite a g d).group g).queue.contains s.nextReq) || !(s.asksWrite a g d).groupOn g) = false)
    (hp : ((s.asksWrite a g d).pickRelease g).1 = some p) (hid : p.id = s.nextReq)
    (hq : (s.asksWrite a g d).req? s.nextReq = some q) (hk : q.key = some (k, false)) (hw : q.write = false) :
    (s.ownPut a d).keySlot k =
      { (s.asksWrite a g d).keySlot k with refs0 := ((s.asksWrite a g d).keySlot k).refs0 - 1 } := by
  have hr : ({ ownReq a d.length with id := s.nextReq, write := true, data := d } : Req).WritesHbm a g := ⟨rfl, hg, rfl, rfl, rfl⟩
  rw [← State.keySlot_tryStep hr hgo hp hid hq hk hw]
  unfold State.ownPut
  rw [he, hg]
  dsimp only
  split
  · next h => exact (congrArg (fun x : Option ReqResult × State => x.2.keySlot k) h).symm
  · next h => exact (congrArg (fun x : Option ReqResult × State => x.2.keySlot k) h).symm

/-- The bytes that the end of a move writes into the leaf. -/
def State.endedBytes (s : State) (slot : Nat) (m : Moving) (leaf : BitVec 128) : Bytes :=
  let bit : BitVec 128 := 1 <<< genBit m.idx
  leBytes 8 ((if (s.keySlot slot).gen then leaf ||| bit else leaf &&& ~~~bit).toNat % 2 ^ 64)

theorem State.keySlot_modKeySlot (s : State) (k : Nat) (f : KeySlot → KeySlot) : (s.modKeySlot k f).keySlot k = f (s.keySlot k) :=
  Tab.look_put_same ..

theorem State.refs0_endMove (s : State) (slot : Nat) (m : Moving) (leaf : BitVec 128) :
    ((s.endMove slot m leaf).keySlot slot).refs0 =
      ((s.forgetSteps.ownWrite m.addr (s.endedBytes slot m leaf)).keySlot slot).refs0 := by
  unfold State.endMove
  dsimp only
  rw [State.keySlot_modKeySlot]
  rfl

theorem State.ownWrite_one {a n : Nat} {d : Bytes} (h : ownParts a d.length = [(a, n)]) (hd : slice d 0 n = d) (s : State) :
    s.ownWrite a d = s.ownPut a d := by
  unfold State.ownWrite
  rw [h, List.foldl_cons, List.foldl_nil, Nat.sub_self, hd]

/-- A table entry in one valid code word of HBM reads as it is stored. -/
theorem State.peek_word {a n g : Nat} (he : s.accessError a n = none) (hg : regionOf a = .hbm g)
    (hn : (a + n + 63) / 64 - a / 64 = 1) (hd : s.hbmDisc (a / 64) = 0) :
    s.peek a n = some (s.withDue a (((vecBytes (s.hbmWord (a / 64)) ++ []).drop (a % 64)).take n)) := by
  unfold State.peek State.physRead
  rw [he, hg]
  dsimp only
  unfold State.readHbmBytes
  rw [hn]
  unfold State.readCws State.readCws
  rw [readCw_valid s _ _ _ hd]
  rfl

end

/-! ### FRAME_MOVE writes the leaf while a pending encrypted read bears the number of the write (R355, R600) -/

/-- The leaf of an encrypted page of slot 61, and its frame, all of whose code words have been moved. -/
def movedLeaf : BitVec 128 := 0x4000 <<< 64 ||| 61 <<< 36 ||| 1 <<< 35 ||| 3
def movedFrame : Moving := { asid := 0, va := 0, level := 0, addr := 0x100000, idx := 0, start := 0x40000000, done := 1024 }

/-- A read under the old key of slot 61 that bears the number 9. -/
def staleRead : Req := { id := 9, owner := .aperture 1, target := .hbm 0, write := false, len := 0, master := 1, key := some (61, false) }

/-- That read is pending, the next request is to have its number, and slot 61 rotates. -/
def renumbered : State :=
  { boot := { state := .ready }, supply := { inReset := false }
    domains := [(544, { state := .on })], nextReq := 9, reqs := [staleRead]
    security := { slots := [(61, { rotating := true, gen := true, key1 := some 1, refs0 := 1, moving := some movedFrame })] }
    mem := Memory.write [] 0x100000 (leBytes 16 movedLeaf.toNat) }

theorem renumbered_tableEntry : renumbered.tableEntry 0x100000 = .ok movedLeaf := by
  have hpeek := State.peek_word (s := renumbered) (a := 0x100000) (n := 16) (g := 0) (by decide +kernel) (by decide +kernel)
    (by decide) (by decide +kernel)
  have hb : renumbered.withDue 0x100000 (((vecBytes (renumbered.hbmWord (0x100000 / 64)) ++ []).drop (0x100000 % 64)).take 16) =
      leBytes 16 movedLeaf.toNat := by decide +kernel
  unfold State.tableEntry
  rw [hpeek, hb]
  decide +kernel

theorem renumbered_movingLeaf : renumbered.movingLeaf 61 movedFrame = some movedLeaf := by
  unfold State.movingLeaf
  rw [show movedFrame.addr = 0x100000 from rfl, renumbered_tableEntry]
  decide +kernel

/-- The bytes of the leaf that the end of the move writes. -/
def movedBytes : Bytes := renumbered.endedBytes 61 movedFrame movedLeaf

theorem refs0_renumbered_ownPut : ((renumbered.forgetSteps.ownPut 0x100000 movedBytes).keySlot 61).refs0 = 0 := by
  rw [State.keySlot_ownPut (g := 0) (k := 61) (p := staleRead) (q := staleRead)
    (by decide +kernel) (by decide +kernel) (by decide +kernel) (by decide +kernel) rfl (by decide +kernel) rfl rfl]
  decide +kernel

theorem exec_frameMove_renumbered : exec (.frameMove 61) renumbered = .next (renumbered.endMove 61 movedFrame movedLeaf) := by
  have hon : (!renumbered.moveOn movedFrame) = false := by decide +kernel
  have hbusy : renumbered.frameBusy movedFrame = false := by decide +kernel
  have hwords : State.moveWords 61 ((renumbered.keySlot 61).owner.getD 0) (renumbered.keySlot 61).gen movedFrame.start
      (movedFrame.len / 64 - movedFrame.done) movedFrame.done renumbered = (1024, renumbered) := rfl
  refine congrArg Host.Outcome.next (?_ : renumbered.moveOnward 61 movedFrame = _)
  unfold State.moveOnward
  rw [hon, renumbered_movingLeaf]
  dsimp only
  rw [if_neg Bool.false_ne_true, hbusy, if_neg Bool.false_ne_true, hwords]
  exact if_pos rfl

theorem refs0_renumbered_moved : ((renumbered.endMove 61 movedFrame movedLeaf).keySlot 61).refs0 = 0 := by
  rw [State.refs0_endMove, ← movedBytes, show movedFrame.addr = 0x100000 from rfl,
    State.ownWrite_one (n := 8) (by decide +kernel) (by decide +kernel)]
  exact refs0_renumbered_ownPut

end Sys2Proof.Machine

section
open Sys2Proof Sys2Proof.Machine Sys2Proof.Claims

/-- Refutes O57: the write of the leaf that ends a FRAME_MOVE settles the first request that bears its number, and where that is a
pending encrypted read the slot loses a reference, which the clause says it keeps. -/
theorem not_keysAndRemoval : ¬ Obligations.KeysAndRemoval := by
  unfold Obligations.KeysAndRemoval
  intro h
  obtain ⟨-, -, hmove, -⟩ := h
  obtain ⟨-, -, -, hgoes, -⟩ := hmove renumbered 61
  obtain ⟨-, -, -, hends⟩ := hgoes movedFrame (by decide +kernel) rfl
  obtain ⟨-, hdone⟩ := hends movedLeaf 1024 renumbered (by decide +kernel) renumbered_movingLeaf (by decide +kernel) rfl
  obtain ⟨t, ht, hslot, -⟩ := hdone rfl
  cases exec_frameMove_renumbered.symm.trans ht
  have hrefs := congrArg KeySlot.refs0 hslot
  rw [refs0_renumbered_moved] at hrefs
  exact absurd hrefs (by decide +kernel)

end

namespace Sys2Proof.Machine
open Sys2Proof.Claims

/-! ### What a write of the module's own tables leaves alone (R318, R334) -/

section
variable (s : State)

/-- The handoff, the fabric, fences, queues and bights. -/
def State.estate : Handoff × Fabric × Tab Fence × Tab Queue × Bights := (s.handoff, s.fabric, s.fences, s.queues, s.bights)

@[simp] theorem State.estate_with (pending now fresh fuses supply boot domains memHold frame energy power errors dict security cores
    engines mesh sram hbm xlat host mem sramCheck hbmCheck reqs nextReq sent) :
    (State.mk pending now fresh fuses supply boot domains memHold frame energy power errors dict security cores engines mesh sram hbm
      xlat host s.queues s.fences s.bights s.fabric s.handoff mem sramCheck hbmCheck reqs nextReq sent).estate = s.estate := rfl

@[simp] theorem State.estate_ite {c : Prop} [Decidable c] (s t : State) :
    (if c then s else t).estate = if c then s.estate else t.estate := apply_ite ..

theorem estate_of_eq {α : Type} {p : α × State} {a : α} {s t : State} (e : p = (a, t)) (h : p.2.estate = s.estate) :
    t.estate = s.estate := by
  rw [e] at h
  exact h

@[simp] theorem State.estate_setGroup (g : Nat) (x : Group) : (s.setGroup g x).estate = s.estate := rfl
@[simp] theorem State.estate_modGroup (g : Nat) (f : Group → Group) : (s.modGroup g f).estate = s.estate := rfl
@[simp] theorem State.estate_modReq (id : Nat) (f : Req → Req) : (s.modReq id f).estate = s.estate := rfl

@[simp] theorem State.estate_event (code arg : Nat) : (s.event code arg).estate = s.estate := by
  unfold State.event
  dsimp only
  split_ifs <;> rfl

@[simp] theorem State.estate_activity_base (u : Meter) (k : Activity) (n : Nat) : (s.activity u k n .base).estate = s.estate := rfl

@[simp] theorem State.estate_wakeStack (st : Nat) : (s.wakeStack st).estate = s.estate := by
  unfold State.wakeStack
  split
  · unfold State.reqDom
    rw [moveDom_frame]
    rfl
  · rfl

theorem State.estate_readSram (agent : Nat) (rmw : Bool) (wa : Nat) : (s.readSram agent rmw wa).2.estate = s.estate := by
  obtain ⟨a, b, h⟩ := s.readSram_frame agent rmw wa
  rw [h]
  rfl

theorem State.estate_writeSram (wa : Nat) (w : Word) : (s.writeSram wa w).estate = s.estate := by
  unfold State.writeSram
  dsimp only
  split
  · rfl
  · split <;> simp [State.putSram]

theorem State.estate_writeSramPart (agent wa o : Nat) (d : Bytes) : (s.writeSramPart agent wa o d).2.estate = s.estate := by
  unfold State.writeSramPart
  split
  · rfl
  · split
    · exact s.estate_writeSram ..
    · split
      · next h => exact (State.estate_writeSram ..).trans (estate_of_eq h (s.estate_readSram ..))
      · next h => exact (estate_of_eq h (s.estate_readSram ..) :)

theorem State.estate_writeSramBytes (agent fuel a : Nat) (d : Bytes) :
    (s.writeSramBytes agent fuel a d).2.estate = s.estate := by
  induction fuel generalizing s a d with
  | zero => rfl
  | succ fuel ih =>
    unfold State.writeSramBytes
    split
    · rfl
    · exact (ih _ _ _).trans (s.estate_writeSramPart ..)

theorem State.estate_readCw (agent : Nat) (rmw : Bool) (cw : Nat) : (s.readCw agent rmw cw).2.estate = s.estate := by
  unfold State.readCw
  split
  · rfl
  · rfl
  · simp [State.hbmCorrected, State.lanSend]

theorem State.estate_writeCwPart (agent : Nat) (key : Option (Nat × Bool)) (cw o : Nat) (d : Bytes) :
    (s.writeCwPart agent key cw o d).2.estate = s.estate := by
  unfold State.writeCwPart
  split
  · rfl
  · split
    · next h => exact (estate_of_eq h (s.estate_readCw ..) :)
    · next h => exact (estate_of_eq h (s.estate_readCw ..) :)

theorem State.estate_writeHbmBytes (agent : Nat) (key : Option (Nat × Bool)) (fuel a : Nat) (d : Bytes) :
    (s.writeHbmBytes agent key fuel a d).2.estate = s.estate := by
  induction fuel generalizing s a d with
  | zero => rfl
  | succ fuel ih =>
    unfold State.writeHbmBytes
    split
    · rfl
    · exact (ih _ _ _).trans (s.estate_writeCwPart ..)

theorem State.estate_physWrite_base (agent : Nat) (key : Option (Nat × Bool)) (a : Nat) (d : Bytes) :
    (s.physWrite agent key .base a d).2.estate = s.estate := by
  unfold State.physWrite
  split
  · rfl
  · split
    · exact (State.estate_writeSramBytes ..).trans (s.estate_activity_base ..)
    · exact State.estate_writeHbmBytes ..

@[simp] theorem State.estate_oweCredit (x : CircRef) : (s.oweCredit x).estate = s.estate := rfl

@[simp] theorem State.estate_dequeue (g : Nat) (r : Req) : (s.dequeue g r).estate = s.estate := by
  unfold State.dequeue
  split <;> rfl

@[simp] theorem State.estate_gateBytes_base (g cls n : Nat) : (s.gateBytes g cls n .base).estate = s.estate := rfl

@[simp] theorem State.estate_countRelease_base (g : Nat) (r : Req) : (s.countRelease g r .base).estate = s.estate := by
  simp [State.countRelease]

@[simp] theorem State.estate_refKey (r : Req) (up : Bool) : (s.refKey r up).estate = s.estate := by
  unfold State.refKey
  split
  · split_ifs <;> rfl
  · rfl

@[simp] theorem State.estate_settle (id : Nat) (res : ReqResult) : (s.settle id res).estate = s.estate := by
  unfold State.settle
  split <;> simp

@[simp] theorem State.estate_countUnkeyed (r : Req) : (s.countUnkeyed r).estate = s.estate := by
  unfold State.countUnkeyed
  split
  · rfl
  · split <;> rfl

/-- A write that the base reserve pays for (R65). -/
structure Req.WritesBase (r : Req) : Prop where
  write : r.write = true
  payer : r.payer = .base

variable {s} {r : Req} (h : r.WritesBase)
include h

theorem State.estate_accessNow (a : Nat) : (s.accessNow r a).2.estate = s.estate := by
  unfold State.accessNow
  rw [if_pos h.write, h.payer]
  split
  · next e => exact estate_of_eq e (s.estate_physWrite_base ..)
  · next e => exact estate_of_eq e (s.estate_physWrite_base ..)

theorem State.estate_serveReq (g : Nat) (x : Group) : (s.serveReq g x r).2.estate = s.estate := by
  have hacc (u : State) (a : Nat) : (u.accessHbm r a).2.estate = u.estate := by
    unfold State.accessHbm
    split
    · rfl
    · split
      · exact State.estate_countUnkeyed ..
      · exact State.estate_accessNow h a
  unfold State.serveReq
  rw [h.payer]
  exact (hacc _ _).trans (by simp)

theorem State.estate_tryStep (g : Nat) : (s.tryStep g r).2.estate = s.estate := by
  unfold State.tryStep
  split
  · rfl
  · split
    · split
      · exact (State.estate_settle ..).trans (State.estate_serveReq h ..)
      · rfl
    · rfl

omit h in
theorem State.estate_ownPut (s : State) (a : Nat) (d : Bytes) : (s.ownPut a d).estate = s.estate := by
  have hr (id : Nat) : ({ ownReq a d.length with id := id, write := true, data := d } : Req).WritesBase := ⟨rfl, rfl⟩
  unfold State.ownPut
  split
  · rfl
  · dsimp only
    split
    · split
      · next e => exact (estate_of_eq e (State.estate_tryStep (hr _) _)).trans (State.estate_wakeStack ..)
      · next e => exact (estate_of_eq e (State.estate_tryStep (hr _) _)).trans (State.estate_wakeStack ..)
    · exact State.estate_accessNow (hr 0) a

omit h in
theorem State.estate_ownWrite (s : State) (a : Nat) (d : Bytes) : (s.ownWrite a d).estate = s.estate :=
  view_foldl State.estate (f := fun (s : State) (e : Nat × Nat) => s.ownPut e.1 (slice d (e.1 - a) e.2))
    (fun _ _ => State.estate_ownPut ..) _ _

end

variable {s : State} {i kind st code : Nat}

theorem handoff_of_estate {s t : State} (h : t.estate = s.estate) : t.handoff = s.handoff := congrArg (·.1) h

theorem State.slot_of_handoff {s t : State} (h : t.handoff = s.handoff) (i : Nat) : t.slot i = s.slot i := by
  unfold State.slot
  rw [h]

/-! ### A slot's STATE byte in its entry (R516, R517) -/

theorem slice_splice_one (e : Bytes) (b : Byte) {o : Nat} (n : Nat) (h : 2 ≤ o) : slice (splice e 1 [b]) o n = slice e o n := by
  refine List.map_congr_left fun k _ => ?_
  obtain ⟨j, hj⟩ : ∃ j, o + k = j + 2 := ⟨o + k - 2, by omega⟩
  rw [hj]
  cases e with
  | nil => rfl
  | cons a t => cases t <;> rfl

theorem leAt_splice_one (e : Bytes) (b : Byte) {o : Nat} (n : Nat) (h : 2 ≤ o) : leAt (splice e 1 [b]) o n = leAt e o n :=
  congrArg leNat (slice_splice_one e b n h)

theorem State.handoff_putSlot (s : State) (i : Nat) (x : Slot) :
    (s.putSlot i x).handoff = (s.setSlot i { x with entry := splice x.entry 1 [x.stateByte] }).handoff :=
  handoff_of_estate (State.estate_ownWrite ..)

theorem State.slot_putSlot (s : State) (i j : Nat) (x : Slot) :
    (s.putSlot i x).slot j = if j = i then { x with entry := splice x.entry 1 [x.stateByte] } else s.slot j := by
  rw [State.slot_of_handoff (s.handoff_putSlot i x)]
  exact Tab.look_put ..

theorem State.slot_postReport (s : State) (i kind j : Nat) : (s.postReport i kind).slot j = s.slot j := rfl

/-! ### Transitions of a slot (R530) -/

/-- A slot in its next state. -/
def Slot.moved (x : Slot) (kind st now : Nat) : Slot := { x with
  state := st, timerAt := now, before := if st = stQuery && x.state != stQuery then x.state else x.before
  sentAt := if kind = 1 || kind = 3 then now else x.sentAt }

/-- A transition up to what it does in its kind. -/
def State.slotMoved (s : State) (i kind st : Nat) : State :=
  (s.postReport i kind).putSlot i ((s.slot i).moved kind st s.now)

theorem Slot.moved_stateByte (x : Slot) (kind st now : Nat) :
    (x.moved kind st now).stateByte = BitVec.ofNat 8 ((if x.zeroizing then 128 else 0) + st) := rfl

theorem Slot.moved_eq (x : Slot) (kind st now : Nat) : x.moved kind st now = { x with
    state := st, timerAt := now, before := if st = 5 ∧ x.state ≠ 5 then x.state else x.before
    sentAt := if kind = 1 ∨ kind = 3 then now else x.sentAt } := by
  unfold Slot.moved
  simp only [Bool.and_eq_true, Bool.or_eq_true, decide_eq_true_iff, bne_iff_ne]
  rfl

theorem moved_slotMoved (s : State) (i kind st : Nat) : Claims.Moved s i kind st (s.slot i) (s.slotMoved i kind st) := by
  have hpost := s.slot_postReport i kind
  have hmoved := Slot.moved_eq (s.slot i) kind st s.now
  refine ⟨((s.postReport i kind).setSlot i { (s.slot i).moved kind st s.now with
    entry := splice (s.slot i).entry 1 [((s.slot i).moved kind st s.now).stateByte] }).handoff, rfl, ?_⟩
  have hest := State.estate_ownWrite ((s.postReport i kind).setSlot i { (s.slot i).moved kind st s.now with
    entry := splice (s.slot i).entry 1 [((s.slot i).moved kind st s.now).stateByte] }) (s.handoffBase + 64 * i + 1)
    [((s.slot i).moved kind st s.now).stateByte]
  obtain ⟨hh, hf, hfen, hq, hb⟩ : _ ∧ _ ∧ _ ∧ _ ∧ _ := by simpa only [State.estate, Prod.mk.injEq] using hest
  refine ⟨hh, hf, hfen, hq, hb, ?_, ?_, rfl⟩
  · refine (State.slot_putSlot ..).trans ((if_pos rfl).trans ?_)
    rw [Slot.moved_stateByte, hmoved]
  · intro j hj
    exact (State.slot_putSlot ..).trans (if_neg hj)

/-- A transition that nothing holds takes place. -/
theorem State.slotGo_moves (hw : (s.slot i).waiting = []) (hr : s.roomFor i kind = true) :
    s.slotGo i kind st code = (s.slotMoved i kind st).slotAct i kind code := by
  unfold State.slotGo
  rw [hw, hr]
  rfl

/-- A transition waits behind those of its slot, or for room for its reports. -/
theorem waits_slotGo (h : ¬ ((s.slot i).waiting = [] ∧ s.roomFor i kind = true)) :
    Waits s i kind st code (s.slot i) (s.slotGo i kind st code) := by
  have hcond : ((s.slot i).waiting.isEmpty && s.roomFor i kind) = false := by
    rw [← Bool.not_eq_true, Bool.and_eq_true, List.isEmpty_iff]
    exact h
  unfold State.slotGo
  rw [hcond, if_neg Bool.false_ne_true]
  refine ⟨?_, fun j hj => ?_, rfl⟩
  · exact (State.slot_setSlot ..).trans (if_pos rfl)
  · exact (State.slot_setSlot ..).trans (if_neg hj)

theorem State.roomFor_iff (h : kind ≠ 7) : s.roomFor i kind = true ↔ s.handoff.reports.length < 64 := by
  unfold State.roomFor Slot.reportsOf
  rw [if_neg fun hc => h hc.1, decide_eq_true_iff]
  exact Nat.succ_le_iff.trans Nat.lt_succ_iff |>.trans Nat.lt_succ_iff.symm

theorem State.roomFor_won : s.roomFor i 7 = true ↔
    s.handoff.reports.length < (if leAt (s.slot i).entry 0x18 8 ≠ 0 then 64 else 63) := by
  unfold State.roomFor Slot.reportsOf Slot.stateVa
  rw [decide_eq_true_iff]
  split_ifs <;> omega

section
variable (hk : kind ≠ 7)
include hk

theorem State.slotGo_of_room (h : Room s i) : s.slotGo i kind st code = (s.slotMoved i kind st).slotAct i kind code :=
  State.slotGo_moves h.2 ((State.roomFor_iff hk).2 h.1)

theorem waits_of_no_room (h : ¬ Room s i) : Waits s i kind st code (s.slot i) (s.slotGo i kind st code) :=
  waits_slotGo fun hc => h ⟨(State.roomFor_iff hk).1 hc.2, hc.1⟩
end

theorem State.slot_slotMoved (s : State) (i kind st : Nat) : (s.slotMoved i kind st).slot i =
    { (s.slot i).moved kind st s.now with entry := splice (s.slot i).entry 1 [((s.slot i).moved kind st s.now).stateByte] } :=
  (State.slot_putSlot ..).trans (if_pos rfl)

/-- What transitions of some kinds do. -/
theorem State.slotAct_owned (s : State) (i code : Nat) : s.slotAct i 5 code = s.slotSignal (s.slot i) := rfl
theorem State.slotAct_query (s : State) (i code : Nat) : s.slotAct i 6 code = s := rfl
theorem State.slotAct_lost (s : State) (i code : Nat) : s.slotAct i 8 code = (s.slotBreak (s.slot i) code).zeroize i := rfl
theorem State.slotAct_timedOut (s : State) (i code : Nat) : s.slotAct i 9 code = (s.slotBreak (s.slot i) code).zeroize i := rfl
theorem State.slotAct_reverted (s : State) (i code : Nat) : s.slotAct i 7 code =
    let w := s.slotBreak (s.slot i) code
    if (s.slot i).stateVa ≠ 0 then w else w.postReport i 11 := rfl

/-- What follows when a slot is WON: NO_COPY is reported too, unless the module has a copy (R534). -/
theorem State.slotAct_won (s : State) (i st code : Nat) : (s.slotMoved i 7 st).slotAct i 7 code =
    let w := (s.slotMoved i 7 st).slotBreak ((s.slotMoved i 7 st).slot i) code
    if leAt (s.slot i).entry 0x18 8 ≠ 0 then w else w.postReport i 11 := by
  have hcopy : ((s.slotMoved i 7 st).slot i).stateVa = leAt (s.slot i).entry 0x18 8 := by
    rw [State.slot_slotMoved]
    exact leAt_splice_one _ _ _ (by decide)
  rw [← hcopy, State.slotAct_reverted]

/-! ### HANDOFF_TIMEOUT, HELD_TIMEOUT and QUERY_REPEAT (R529) -/

/-- A receiving ARMED slot's timer has run out. -/
def State.timesOut (s : State) (x : Slot) : Prop :=
  leAt x.entry 0 1 % 4 = 2 ∧ x.state = 1 ∧ x.waiting = [] ∧ x.timerAt + leAt x.entry 0x31 1 * s.frame.period ≤ s.now

theorem timesOut_iff (s : State) (x : Slot) : (x.dir == 2 && x.state == stArmed && x.waiting.isEmpty &&
    decide (x.timerAt + x.timeout * s.frame.period ≤ s.now)) = true ↔ s.timesOut x := by
  rw [Bool.and_eq_true, Bool.and_eq_true, Bool.and_eq_true, beq_iff_eq, beq_iff_eq, List.isEmpty_iff, decide_eq_true_iff,
    and_assoc, and_assoc]
  exact Iff.rfl

theorem exec_handoffTimeout_early (h : ¬ s.timesOut (s.slot i)) : exec (.handoffTimeout i) s = .next s :=
  congrArg Host.Outcome.next (if_neg (mt (timesOut_iff s _).1 h))

theorem exec_handoffTimeout_alone (h : s.timesOut (s.slot i)) (hr : (s.slot i).recv = none) :
    exec (.handoffTimeout i) s = .next (s.slotGo i 9 10 0x0603) := by
  change execHandoffTimeout i s = _
  unfold execHandoffTimeout
  dsimp only
  rw [if_pos ((timesOut_iff s _).2 h), hr]
  rfl

theorem exec_handoffTimeout_recv (h : s.timesOut (s.slot i)) {q n : Nat} (hr : (s.slot i).recv = some (q, n)) :
    exec (.handoffTimeout i) s = .next ((s.failAlways q n 0x0603).slotGo i 9 10 0x0603) := by
  change execHandoffTimeout i s = _
  unfold execHandoffTimeout
  dsimp only
  rw [if_pos ((timesOut_iff s _).2 h), hr]
  rfl

/-- HELD ms have passed since the slot's timer restarted, with no transition waiting. -/
def State.heldLong (s : State) (x : Slot) : Prop := x.waiting = [] ∧ x.timerAt + leAt x.entry 0x34 2 * 1000000 ≤ s.now

theorem heldOver_iff (s : State) (x : Slot) : s.heldOver x = true ↔ s.heldLong x := by
  unfold State.heldOver
  rw [Bool.and_eq_true, List.isEmpty_iff, decide_eq_true_iff]
  exact Iff.rfl

theorem heldTimeout_due (s : State) (x : Slot) :
    ((x.state == stCommitted || x.state == stOffered || x.state == stTaken) && s.heldOver x) = true ↔
      x.state ∈ [2, 3, 4] ∧ s.heldLong x := by
  rw [Bool.and_eq_true, heldOver_iff]
  simp [stCommitted, stOffered, stTaken, or_assoc]

theorem queryRepeat_due (s : State) (x : Slot) : (x.state == stQuery && s.heldOver x) = true ↔ x.state = 5 ∧ s.heldLong x := by
  rw [Bool.and_eq_true, heldOver_iff, beq_iff_eq]
  rfl

/-- What a command does that sends a slot to QUERY when it is due. -/
theorem queries {c : Instr} {b : Bool} {due : Prop} (hc : exec c s = .next (if b then s.slotGo i 6 stQuery 0 else s))
    (hb : b = true ↔ due) :
    (due → Room s i → Gives c s (Claims.Moved s i 6 5 (s.slot i))) ∧
    (due → ¬ Room s i → Gives c s (Waits s i 6 5 0 (s.slot i))) ∧ (¬ due → exec c s = .next s) := by
  refine ⟨fun hd hr => ⟨_, hc, ?_⟩, fun hd hr => ⟨_, hc, ?_⟩, fun hd => ?_⟩
  · rw [if_pos (hb.2 hd), State.slotGo_of_room (by decide) hr, State.slotAct_query]
    exact moved_slotMoved s i 6 5
  · rw [if_pos (hb.2 hd)]
    exact waits_of_no_room (by decide) hr
  · rw [hc, if_neg (mt hb.1 hd)]

/-! ### VERDICT (R531) -/

/-- The table of R531 by direction, state, and who is named as owner. -/
def verdictTable (send own peer : Bool) (st : Nat) : Verdict :=
  if send && (st == stArmed || st == stOffered || st == stQuery) && own then .go 7 stWon codeHandoffReverted
  else if send && (st == stArmed || st == stOffered || st == stQuery) && peer then .go 8 stLost codeHandoffLost
  else if send && st == stReleased && peer then .same
  else if !send && (st == stCommitted || st == stTaken || st == stQuery) && own then .go 5 stOwned 0
  else if !send && (st == stArmed || st == stCommitted || st == stTaken || st == stQuery) && peer then .go 8 stLost codeHandoffLost
  else if !send && st == stOwned && own then .same
  else if (st == stWon && own) || (st == stLost && peer) || (st == stFailed && (if send then own else peer)) then .same
  else .refuse

theorem verdictTable_won : ∀ st ∈ [1, 3, 5], ∀ peer, verdictTable true true peer st = .go 7 8 0x0604 := by decide
theorem verdictTable_lostSend : ∀ st ∈ [1, 3, 5], verdictTable true false true st = .go 8 9 0x0605 := by decide
theorem verdictTable_owned : ∀ st ∈ [2, 4, 5], ∀ peer, verdictTable false true peer st = .go 5 7 0 := by decide
theorem verdictTable_lostRecv : ∀ st ∈ [2, 4, 5], verdictTable false false true st = .go 8 9 0x0605 := by decide
theorem verdictTable_lostArmed : ∀ own, verdictTable false own true 1 = .go 8 9 0x0605 := by decide

/-- The rows of R531 that leave a slot as it is. -/
abbrev Already (send own peer : Bool) (st : Nat) : Prop :=
  (send = true ∧ st = 6 ∧ peer = true) ∨ (send = false ∧ st = 7 ∧ own = true) ∨ (st = 8 ∧ own = true) ∨
    (st = 9 ∧ peer = true) ∨ (st = 10 ∧ ((send = true ∧ own = true) ∨ (send = false ∧ peer = true)))

theorem verdictTable_already {send own peer : Bool} {st : Nat} (h : Already send own peer st) :
    verdictTable send own peer st = .same := by
  rcases h with ⟨rfl, rfl, rfl⟩ | ⟨rfl, rfl, rfl⟩ | ⟨rfl, rfl⟩ | ⟨rfl, rfl⟩ | ⟨rfl, ⟨rfl, rfl⟩ | ⟨rfl, rfl⟩⟩
  · revert own; decide
  · revert peer; decide
  · revert send peer; decide
  · revert send own; decide
  · revert peer; decide
  · revert own; decide

theorem verdictTable_refuse {send own peer : Bool} {st : Nat} (hwon : ¬ (send = true ∧ st ∈ [1, 3, 5] ∧ (own = true ∨ peer = true)))
    (howned : ¬ (send = false ∧ st ∈ [2, 4, 5] ∧ (own = true ∨ peer = true))) (harmed : ¬ (send = false ∧ st = 1 ∧ peer = true))
    (h : ¬ Already send own peer st) : verdictTable send own peer st = .refuse := by
  have hlist (a b c : Nat) : st ∈ [a, b, c] ↔ st = a ∨ st = b ∨ st = c := by simp
  rw [hlist] at hwon howned
  cases send with
  | true => grind [verdictTable, stArmed, stOffered, stQuery, stReleased, stWon, stLost, stFailed]
  | false => grind [verdictTable, stArmed, stCommitted, stTaken, stQuery, stOwned, stWon, stLost, stFailed]

theorem verdictTable_idle : ∀ send own peer, verdictTable send own peer 0 = .refuse := by decide

/-- What a verdict that names `owner` finds for the slot it names (R519, R531). -/
def State.verdictOn (s : State) (i owner : Nat) : Verdict :=
  verdictTable (decide (leAt (s.slot i).entry 0 1 % 4 = 1)) (decide (owner = s.fabric.number))
    (decide (owner = leAt (s.slot i).entry 2 2)) (s.slot i).ahead

theorem verdictOn_eq (s : State) (i owner : Nat) : s.verdictOn i owner =
    if (s.slot i).ahead = stIdle then .refuse else (s.slot i).verdict (owner == s.fabric.number) (owner == (s.slot i).peer) := by
  split
  · next h =>
    unfold State.verdictOn
    rw [h]
    exact verdictTable_idle ..
  · rfl

theorem slotResult_eq (s : State) (i op found r : Nat) :
    s.slotResult i op found r = { s with handoff := { s.handoff with lastOp := opWord s i op found r } } := by
  exact congrArg (fun q => { s with handoff := { s.handoff with
    lastOp := BitVec.ofNat 32 (q * 2 ^ 24 + i * 2 ^ 16 + op * 4096 + found * 256 + r) } }) (Nat.mod_add_mod ..)

theorem fieldN_extract (v : BitVec 64) (lo w : Nat) : fieldN v.toNat lo w = (v.extractLsb' lo w).toNat := by
  rw [BitVec.extractLsb'_toNat, Nat.shiftRight_eq_div_pow]
  rfl

section
variable {via : Via} {v : BitVec 64} {owner : Nat} (hi : (v.extractLsb' 56 8).toNat = i) (ho : (v.extractLsb' 32 16).toNat = owner)
include hi ho

theorem putVerdict_eq : putVerdict v s =
    let x := s.slot i
    let done := fun (s : State) (r : Nat) => (dOk, s.slotResult i 4 x.ahead r)
    match s.verdictOn i owner with
    | .refuse => done s slotBadState
    | .same => if (v.extractLsb' 0 32).toNat < x.epoch then done s slotStale else done s slotOk
    | .go kind st code =>
      if (v.extractLsb' 0 32).toNat < x.epoch then done s slotStale
      else done ((s.slotGo i kind st code).verdictKills x kind) slotOk := by
  rw [verdictOn_eq, ← fieldN_extract, ← hi, ← ho, ← fieldN_extract, ← fieldN_extract]
  rfl

/-- 0x6503.00 shows the end of a verdict. -/
def State.verdictEnds (u s : State) (i r : Nat) : State :=
  { u with handoff := { u.handoff with lastOp := opWord u i 4 (s.slot i).ahead r } }

variable (h : Serves s via true false)
include h

omit hi ho in
theorem answers_verdict {u : State} {r : Nat} (hact : putVerdict v s = (dOk, u.slotResult i 4 (s.slot i).ahead r)) :
    Answers (.verdict via v) s via 0x00 (u.verdictEnds s i r) := by
  rw [State.verdictEnds, ← slotResult_eq]
  exact answers_of_objWrite h (act := putVerdict v) rfl hact

theorem answers_verdict_refused (hw : s.verdictOn i owner = .refuse) :
    Answers (.verdict via v) s via 0x00 (s.verdictEnds s i 0x09) :=
  answers_verdict h (by rw [putVerdict_eq hi ho, hw]; rfl)

theorem answers_verdict_stale (hw : s.verdictOn i owner ≠ .refuse)
    (hold : (v.extractLsb' 0 32).toNat < leAt (s.slot i).entry 4 4) :
    Answers (.verdict via v) s via 0x00 (s.verdictEnds s i 0x0A) := by
  refine answers_verdict h ?_
  rw [putVerdict_eq hi ho]
  cases hw' : s.verdictOn i owner with
  | refuse => exact absurd hw' hw
  | same => exact if_pos hold
  | go kind st code => exact if_pos hold

variable (hnew : ¬ (v.extractLsb' 0 32).toNat < leAt (s.slot i).entry 4 4)
include hnew

theorem answers_verdict_same (hw : s.verdictOn i owner = .same) :
    Answers (.verdict via v) s via 0x00 (s.verdictEnds s i 0x00) :=
  answers_verdict h (by rw [putVerdict_eq hi ho, hw]; exact if_neg hnew)

theorem answers_verdict_goes (hw : s.verdictOn i owner = .go kind st code) : Answers (.verdict via v) s via 0x00
    (((s.slotGo i kind st code).verdictKills (s.slot i) kind).verdictEnds s i 0x00) :=
  answers_verdict h (by rw [putVerdict_eq hi ho, hw]; exact if_neg hnew)
end

section
variable {x : Slot}

theorem verdictKills_won (h : leAt x.entry 0 1 % 4 = 1) :
    s.verdictKills x 7 = s.killAny x.bindQueue x.bindSeq 0x0604 (detailCmd x.bindQueue x.bindSeq) := if_pos h

theorem verdictKills_lostSend (h : leAt x.entry 0 1 % 4 = 1) : s.verdictKills x 8 = s := if_pos h

theorem verdictKills_owned (h : ¬ leAt x.entry 0 1 % 4 = 1) : s.verdictKills x 5 = s := if_neg h

theorem verdictKills_lostRecv (h : ¬ leAt x.entry 0 1 % 4 = 1) {q n : Nat} (hr : x.recv = some (q, n)) :
    s.verdictKills x 8 = s.failAlways q n 0x0605 := by
  refine (if_neg h).trans ((if_pos rfl).trans ?_)
  rw [hr]
  rfl

theorem verdictKills_lostAlone (h : ¬ leAt x.entry 0 1 % 4 = 1) (hr : x.recv = none) : s.verdictKills x 8 = s := by
  refine (if_neg h).trans ((if_pos rfl).trans ?_)
  rw [hr]
end

/-- What the verdict table answers for the slot that a verdict names, by the conditions of R531. -/
theorem verdictOn_won (i owner : Nat) (hs : leAt (s.slot i).entry 0 1 % 4 = 1) (hst : (s.slot i).ahead ∈ [1, 3, 5])
    (ho : owner = s.fabric.number) : s.verdictOn i owner = .go 7 8 0x0604 := by
  unfold State.verdictOn
  rw [decide_eq_true hs, decide_eq_true ho]
  exact verdictTable_won _ hst _

theorem verdictOn_lostSend (i owner : Nat) (hs : leAt (s.slot i).entry 0 1 % 4 = 1) (hst : (s.slot i).ahead ∈ [1, 3, 5])
    (ho : ¬ owner = s.fabric.number) (hp : owner = leAt (s.slot i).entry 2 2) : s.verdictOn i owner = .go 8 9 0x0605 := by
  unfold State.verdictOn
  rw [decide_eq_true hs, decide_eq_false ho, decide_eq_true hp]
  exact verdictTable_lostSend _ hst

theorem verdictOn_owned (i owner : Nat) (hs : ¬ leAt (s.slot i).entry 0 1 % 4 = 1) (hst : (s.slot i).ahead ∈ [2, 4, 5])
    (ho : owner = s.fabric.number) : s.verdictOn i owner = .go 5 7 0 := by
  unfold State.verdictOn
  rw [decide_eq_false hs, decide_eq_true ho]
  exact verdictTable_owned _ hst _

theorem verdictOn_lostRecv (i owner : Nat) (hs : ¬ leAt (s.slot i).entry 0 1 % 4 = 1)
    (hst : ((s.slot i).ahead ∈ [2, 4, 5] ∧ ¬ owner = s.fabric.number) ∨ (s.slot i).ahead = 1)
    (hp : owner = leAt (s.slot i).entry 2 2) : s.verdictOn i owner = .go 8 9 0x0605 := by
  unfold State.verdictOn
  rw [decide_eq_false hs, decide_eq_true hp]
  rcases hst with ⟨hst, ho⟩ | hst
  · rw [decide_eq_false ho]
    exact verdictTable_lostRecv _ hst
  · rw [hst]
    exact verdictTable_lostArmed _

section
variable {via : Via} {v : BitVec 64} {owner : Nat} (hi : (v.extractLsb' 56 8).toNat = i) (ho : (v.extractLsb' 32 16).toNat = owner)
  (h : Serves s via true false) (hnew : ¬ (v.extractLsb' 0 32).toNat < leAt (s.slot i).entry 4 4)
include hi ho h hnew

section
variable (hs : leAt (s.slot i).entry 0 1 % 4 = 1) (hst : (s.slot i).ahead ∈ [1, 3, 5])
include hs hst

theorem answers_verdict_won (how : owner = s.fabric.number) : Answers (.verdict via v) s via 0x00
    (((s.slotGo i 7 8 0x0604).killAny (s.slot i).bindQueue (s.slot i).bindSeq 0x0604
      (detailCmd (s.slot i).bindQueue (s.slot i).bindSeq)).verdictEnds s i 0x00) := by
  rw [← verdictKills_won hs]
  exact answers_verdict_goes hi ho h hnew (verdictOn_won i owner hs hst how)

theorem answers_verdict_lostSend (how : ¬ owner = s.fabric.number) (hp : owner = leAt (s.slot i).entry 2 2) :
    Answers (.verdict via v) s via 0x00 ((s.slotGo i 8 9 0x0605).verdictEnds s i 0x00) := by
  have ha := answers_verdict_goes hi ho h hnew (verdictOn_lostSend i owner hs hst how hp)
  rw [verdictKills_lostSend hs] at ha
  exact ha
end

variable (hs : ¬ leAt (s.slot i).entry 0 1 % 4 = 1)
include hs

theorem answers_verdict_ownedWaits (hst : (s.slot i).ahead ∈ [2, 4, 5]) (how : owner = s.fabric.number) :
    Answers (.verdict via v) s via 0x00 ((s.slotGo i 5 7 0).verdictEnds s i 0x00) := by
  have ha := answers_verdict_goes hi ho h hnew (verdictOn_owned i owner hs hst how)
  rw [verdictKills_owned hs] at ha
  exact ha

theorem answers_verdict_owned (hst : (s.slot i).ahead ∈ [2, 4, 5]) (how : owner = s.fabric.number) (hr : Room s i) :
    Answers (.verdict via v) s via 0x00
      (((s.slotMoved i 5 7).slotSignal ((s.slotMoved i 5 7).slot i)).verdictEnds s i 0x00) := by
  have ha := answers_verdict_ownedWaits hi ho h hnew hs hst how
  rw [State.slotGo_of_room (by decide) hr, State.slotAct_owned] at ha
  exact ha

variable (hst : ((s.slot i).ahead ∈ [2, 4, 5] ∧ ¬ owner = s.fabric.number) ∨ (s.slot i).ahead = 1)
  (hp : owner = leAt (s.slot i).entry 2 2)
include hst hp

theorem answers_verdict_lostAlone (hrecv : (s.slot i).recv = none) :
    Answers (.verdict via v) s via 0x00 ((s.slotGo i 8 9 0x0605).verdictEnds s i 0x00) := by
  have ha := answers_verdict_goes hi ho h hnew (verdictOn_lostRecv i owner hs hst hp)
  rw [verdictKills_lostAlone hs hrecv] at ha
  exact ha

theorem answers_verdict_lostRecv {q n : Nat} (hrecv : (s.slot i).recv = some (q, n)) :
    Answers (.verdict via v) s via 0x00 (((s.slotGo i 8 9 0x0605).failAlways q n 0x0605).verdictEnds s i 0x00) := by
  have ha := answers_verdict_goes hi ho h hnew (verdictOn_lostRecv i owner hs hst hp)
  rw [verdictKills_lostRecv hs hrecv] at ha
  exact ha
end

/-- The states, directions and owners that leave a slot as it is (R531). -/
def State.stays (s : State) (i owner : Nat) : Prop :=
  let send := leAt (s.slot i).entry 0 1 % 4 = 1
  let st := (s.slot i).ahead
  let own := owner = s.fabric.number
  let peer := owner = leAt (s.slot i).entry 2 2
  (send ∧ st = 6 ∧ peer) ∨ (¬ send ∧ st = 7 ∧ own) ∨ (st = 8 ∧ own) ∨ (st = 9 ∧ peer) ∨ (st = 10 ∧ ((send ∧ own) ∨ (¬ send ∧ peer)))

theorem stays_iff (i owner : Nat) : s.stays i owner ↔ Already (decide (leAt (s.slot i).entry 0 1 % 4 = 1))
    (decide (owner = s.fabric.number)) (decide (owner = leAt (s.slot i).entry 2 2)) (s.slot i).ahead := by
  unfold State.stays
  dsimp only
  simp only [Already, decide_eq_true_iff, decide_eq_false_iff_not]

theorem verdictOn_same (i owner : Nat) (h : s.stays i owner) : s.verdictOn i owner = .same :=
  verdictTable_already ((stays_iff i owner).1 h)

theorem verdictOn_refuse (i owner : Nat)
    (hsend : ¬ (leAt (s.slot i).entry 0 1 % 4 = 1 ∧ (s.slot i).ahead ∈ [1, 3, 5] ∧
      (owner = s.fabric.number ∨ owner = leAt (s.slot i).entry 2 2)))
    (hrecv : ¬ (¬ leAt (s.slot i).entry 0 1 % 4 = 1 ∧ (s.slot i).ahead ∈ [2, 4, 5] ∧
      (owner = s.fabric.number ∨ owner = leAt (s.slot i).entry 2 2)))
    (harmed : ¬ (¬ leAt (s.slot i).entry 0 1 % 4 = 1 ∧ (s.slot i).ahead = 1 ∧ owner = leAt (s.slot i).entry 2 2))
    (hs : ¬ s.stays i owner) : s.verdictOn i owner = .refuse := by
  refine verdictTable_refuse ?_ ?_ ?_ (mt (stays_iff i owner).2 hs)
  · simpa only [decide_eq_true_iff] using hsend
  · simpa only [decide_eq_true_iff, decide_eq_false_iff_not] using hrecv
  · simpa only [decide_eq_true_iff, decide_eq_false_iff_not] using harmed

/-! ### REPORT_REMOVE (R530) -/

theorem slotWaiting_of_none (h : ∀ j, (s.slot j).waiting = []) : s.slotWaiting = s := by
  have hfold : ∀ l : List Nat, l.foldl (fun s i => s.slotDrain i (s.slot i).waiting.length) s = s := by
    intro l
    induction l with
    | nil => rfl
    | cons j l ih =>
      rw [List.foldl_cons, h j]
      exact ih
  exact hfold _

/-! ### ZEROIZE_DONE (R534) -/

/-- The slot's pages may be written with zero. -/
def State.zeroizes (s : State) (x : Slot) : Prop :=
  x.zeroizing = true ∧ s.handoff.reports.length < 64 ∧ s.errors.rootstock = false ∧ s.slotHeld x = false

theorem zeroizes_iff (s : State) (x : Slot) :
    (x.zeroizing && s.reportRoom && !s.errors.rootstock && !s.slotHeld x) = true ↔ s.zeroizes x := by
  unfold State.reportRoom
  rw [Bool.and_eq_true, Bool.and_eq_true, Bool.and_eq_true, decide_eq_true_iff, Bool.not_eq_true', Bool.not_eq_true', and_assoc,
    and_assoc]
  exact Iff.rfl

theorem exec_zeroizeDone_waits (h : ¬ s.zeroizes (s.slot i)) : exec (.zeroizeDone i) s = .next s :=
  congrArg Host.Outcome.next (if_neg (mt (zeroizes_iff s _).1 h))

section
variable (h : s.zeroizes (s.slot i)) {u : State}
include h

theorem exec_zeroizeDone_held (hz : State.zeroPages (whoZeroize (s.slot i)) ((s.contextFn (s.slot i).asid).getD 0)
    (s.slotPages (s.slot i)) s.forgetSteps = (false, u)) : exec (.zeroizeDone i) s = .next u := by
  change execZeroizeDone i s = _
  rw [execZeroizeDone, if_pos ((zeroizes_iff s _).2 h), State.zeroizeStep, hz]

theorem exec_zeroizeDone_zeroed (hz : State.zeroPages (whoZeroize (s.slot i)) ((s.contextFn (s.slot i).asid).getD 0)
    (s.slotPages (s.slot i)) s.forgetSteps = (true, u)) :
    exec (.zeroizeDone i) s = .next ((u.putSlot i { s.slot i with zeroizing := false }).postReport i 12) := by
  change execZeroizeDone i s = _
  rw [execZeroizeDone, if_pos ((zeroizes_iff s _).2 h), State.zeroizeStep, hz]
end

/-- The newest report after a slot has been put: it names the fields of the slot's entry that its STATE byte does not touch. -/
theorem reports_postReport_putSlot (u : State) (i kind : Nat) (x : Slot) :
    ((u.putSlot i x).postReport i kind).handoff.reports = u.handoff.reports ++ [(u.handoff.nextReport,
      leBytes 8 x.request ++ leBytes 4 x.epoch ++ leBytes 1 i ++ leBytes 1 kind ++ leBytes 2 x.peer)] := by
  have hh := u.handoff_putSlot i x
  have hslot : (u.putSlot i x).slot i = { x with entry := splice x.entry 1 [x.stateByte] } :=
    (State.slot_putSlot ..).trans (if_pos rfl)
  unfold State.postReport reportBytes
  dsimp only
  rw [hslot, hh]
  unfold Slot.request Slot.epoch Slot.peer
  dsimp only
  rw [leAt_splice_one _ _ _ (by decide), leAt_splice_one _ _ _ (by decide), leAt_splice_one _ _ _ (by decide)]
  rfl

theorem slot_zeroized (u : State) (i : Nat) (x : Slot) :
    ((u.putSlot i { x with zeroizing := false }).postReport i 12).slot i =
      { x with zeroizing := false, entry := splice x.entry 1 [BitVec.ofNat 8 x.state] } := by
  have hbyte : ({ x with zeroizing := false } : Slot).stateByte = BitVec.ofNat 8 x.state :=
    congrArg (BitVec.ofNat 8) (Nat.zero_add _)
  rw [State.slot_postReport, State.slot_putSlot, if_pos rfl, hbyte]

theorem slot_zeroized_other (u : State) {i j : Nat} (x : Slot) (h : j ≠ i) :
    ((u.putSlot i { x with zeroizing := false }).postReport i 12).slot j = u.slot j := by
  rw [State.slot_postReport, State.slot_putSlot, if_neg h]

/-! ### PREFETCH_COPY_DONE (R523) -/

/-- Layer `l` is the next to be copied: the first that has not been, and it is complete. -/
def State.copiesNext (s : State) (i : Nat) (d : Cmd) (l : Nat) : Prop :=
  l < leAt (s.slot i).entry 0x30 1 ∧ l ∉ d.recv.copied ∧ (∀ k, k < l → k ∈ d.recv.copied) ∧
    s.layerCount i l = leAt (s.slot i).entry 0x14 4 * 65536

theorem nextLayer_iff (s : State) (i : Nat) (d : Cmd) (l : Nat) : s.nextLayer i d = some l ↔ s.copiesNext i d l := by
  have hfind (k : Nat) : (List.range (s.slot i).pfLayers).find? (fun l => !d.recv.copied.contains l) = some k ↔
      k ∉ d.recv.copied ∧ k < (s.slot i).pfLayers ∧ ∀ j, j < k → j ∈ d.recv.copied := by
    rw [List.find?_range_eq_some]
    simp
  have hnext : s.copiesNext i d l ↔ (List.range (s.slot i).pfLayers).find? (fun l => !d.recv.copied.contains l) = some l ∧
      s.layerCount i l = (s.slot i).layerLen := by
    rw [hfind]
    exact ⟨fun ⟨h1, h2, h3, h4⟩ => ⟨⟨h2, h1, h3⟩, h4⟩, fun ⟨⟨h2, h1, h3⟩, h4⟩ => ⟨h1, h2, h3, h4⟩⟩
  rw [hnext]
  unfold State.nextLayer
  cases (List.range (s.slot i).pfLayers).find? fun l => !d.recv.copied.contains l with
  | none => simp
  | some k =>
    dsimp only
    split_ifs with hc
    · refine ⟨fun h => ?_, fun h => h.1⟩
      cases h
      exact ⟨rfl, hc⟩
    · refine ⟨nofun, fun ⟨h, hl⟩ => ?_⟩
      cases h
      exact absurd hl hc

/-- How the copy of layer `l` by a command ends. -/
def State.copyEnds (qn seq l : Nat) : VEnd HostAns × State → State
  | (.fault, u) => u
  | (.code e, u) => u.failCmd qn seq e
  | (.ok _, u) => u.modCmd qn seq fun d => { d with recv := { d.recv with copied := d.recv.copied ++ [l] } }

section
variable {answer : HostAns} {qn seq : Nat}

theorem exec_prefetchCopyDone_idle (h : (s.slot i).recv = none) : exec (.prefetchCopyDone i answer) s = .next s := by
  change execPrefetchCopyDone i answer s = _
  rw [execPrefetchCopyDone, h]

variable (h : (s.slot i).recv = some (qn, seq))
include h

theorem exec_prefetchCopyDone_resting (hw : s.working qn = none) : exec (.prefetchCopyDone i answer) s = .next s := by
  change execPrefetchCopyDone i answer s = _
  rw [execPrefetchCopyDone, h]
  dsimp only
  rw [hw]

variable {q : Queue} {d : Cmd} (hw : s.working qn = some (q, d))
include hw

theorem exec_prefetchCopyDone_none (hn : d.seq ≠ seq ∨ d.recv.slot ≠ some i ∨ ∀ l, ¬ s.copiesNext i d l) :
    exec (.prefetchCopyDone i answer) s = .next s := by
  change execPrefetchCopyDone i answer s = _
  rw [execPrefetchCopyDone, h]
  dsimp only
  rw [hw]
  dsimp only
  split
  · rfl
  · next hc =>
    have hnone : s.nextLayer i d = none := by
      refine Option.eq_none_iff_forall_ne_some.2 fun l hl => ?_
      obtain ⟨hseq, hslot⟩ := not_or.1 hc
      rcases hn with hn | hn | hn
      · exact hseq hn
      · exact hslot hn
      · exact hn l ((nextLayer_iff s i d l).1 hl)
    rw [hnone]

variable {l : Nat} (hseq : d.seq = seq) (hslot : d.recv.slot = some i) (hl : s.copiesNext i d l)
include hseq hslot hl

theorem exec_prefetchCopyDone_copies : exec (.prefetchCopyDone i answer) s = .next (State.copyEnds qn seq l
    (State.copyVirt { s.whoStream qn q d 0 0 with asid := (s.slot i).asid } ((s.slot i).layerLen / 4096) s.forgetSteps
      ((s.slot i).stateVa + l * (s.slot i).layerLen) ((s.slot i).pfVa + l * (s.slot i).layerLen) answer)) := by
  change execPrefetchCopyDone i answer s = _
  rw [execPrefetchCopyDone, h]
  dsimp only
  rw [hw]
  dsimp only
  rw [if_neg (not_or.2 ⟨not_not_intro hseq, not_not_intro hslot⟩), (nextLayer_iff s i d l).2 hl]
  dsimp only
  generalize State.copyVirt _ _ _ _ _ _ = r
  obtain ⟨_ | _ | _, u⟩ := r <;> rfl
end

end Sys2Proof.Machine

section
open Sys2Proof Sys2Proof.Machine Sys2Proof.Claims

/-- Settles O54: a transition is `slotMoved`, whose write of the STATE byte touches none of the handoff, and then what its kind does. -/
theorem handoffTimersAndVerdicts : Obligations.HandoffTimersAndVerdicts := by
  unfold Obligations.HandoffTimersAndVerdicts
  refine ⟨fun s i => ?_, fun s via v h => ?_, fun s via seq h => ?_, fun s i => ?_, fun s i answer => ?_⟩
  · refine ⟨fun ht hr hroom => ⟨_, moved_slotMoved s i 9 10, ?_⟩, fun ht hr hroom => ⟨_, exec_handoffTimeout_alone ht hr, ?_⟩,
      fun q n ht hr => exec_handoffTimeout_recv ht hr, exec_handoffTimeout_early,
      queries rfl (heldTimeout_due s (s.slot i)), queries rfl (queryRepeat_due s (s.slot i))⟩
    · rw [exec_handoffTimeout_alone ht hr, State.slotGo_of_room (by decide) hroom, State.slotAct_timedOut]
    · exact waits_of_no_room (by decide) hroom
  · intro i owner x send own peer st won lostSend owned lostRecv already applies stale ends
    have hlost (hr : Room s i) : s.slotGo i 8 9 0x0605 = ((s.slotMoved i 8 9).slotBreak ((s.slotMoved i 8 9).slot i) 0x0605).zeroize i := by
      rw [State.slotGo_of_room (by decide) hr, State.slotAct_lost]
    have hgo : applies → s.verdictOn i owner ≠ .refuse := by
      rintro (⟨hs, hst, ho⟩ | ⟨hs, hst, ho, hp⟩ | ⟨hs, hst, ho⟩ | ⟨hs, hst, hp⟩ | hsame) hw
      · cases (verdictOn_won i owner hs hst ho).symm.trans hw
      · cases (verdictOn_lostSend i owner hs hst ho hp).symm.trans hw
      · cases (verdictOn_owned i owner hs hst ho).symm.trans hw
      · cases (verdictOn_lostRecv i owner hs hst hp).symm.trans hw
      · cases (verdictOn_same i owner hsame).symm.trans hw
    refine ⟨fun hno => ?_, fun ha hold => answers_verdict_stale rfl rfl h (hgo ha) hold,
      fun hsame hnew => answers_verdict_same rfl rfl h hnew (verdictOn_same i owner hsame),
      fun ⟨hs, hst, how⟩ hnew => ?_, fun ⟨hs, hst, how, hp⟩ hnew => ?_, fun ⟨hs, hst, how⟩ hnew hr => ?_,
      fun ⟨hs, hst, how⟩ hnew hr => ?_, fun ⟨hs, hst, hp⟩ hnew hrecv => ?_, fun q n ⟨hs, hst, hp⟩ hnew hrecv => ?_,
      fun hr => ⟨_, moved_slotMoved s i 8 9, hlost hr⟩, waits_of_no_room (by decide), fun hr => ?_, fun hr => ?_⟩
    · refine answers_verdict_refused rfl rfl h (verdictOn_refuse i owner ?_ ?_ ?_ ?_)
      · rintro ⟨hs, hst, how⟩
        by_cases hown : own
        · exact hno (.inl ⟨hs, hst, hown⟩)
        · exact hno (.inr (.inl ⟨hs, hst, hown, how.resolve_left hown⟩))
      · rintro ⟨hs, hst, how⟩
        by_cases hown : own
        · exact hno (.inr (.inr (.inl ⟨hs, hst, hown⟩)))
        · exact hno (.inr (.inr (.inr (.inl ⟨hs, .inl ⟨hst, hown⟩, how.resolve_left hown⟩))))
      · rintro ⟨hs, hst, hp⟩
        exact hno (.inr (.inr (.inr (.inl ⟨hs, .inr hst, hp⟩))))
      · exact fun hsame => hno (.inr (.inr (.inr (.inr hsame))))
    · exact answers_verdict_won rfl rfl h hnew hs hst how
    · exact answers_verdict_lostSend rfl rfl h hnew hs hst how hp
    · exact ⟨_, moved_slotMoved s i 5 7, answers_verdict_owned rfl rfl h hnew hs hst how hr⟩
    · exact ⟨_, waits_of_no_room (by decide) hr, answers_verdict_ownedWaits rfl rfl h hnew hs hst how⟩
    · exact answers_verdict_lostAlone rfl rfl h hnew hs hst hp hrecv
    · exact answers_verdict_lostRecv rfl rfl h hnew hs hst hp hrecv
    · refine ⟨_, moved_slotMoved s i 7 8, ?_⟩
      rw [State.slotGo_moves hr.1 (State.roomFor_won.2 hr.2), State.slotAct_won]
    · exact waits_slotGo fun hc => hr ⟨hc.1, State.roomFor_won.1 hc.2⟩
  · refine ⟨answers_of_objWrite h (act := putReportRemove seq) rfl rfl, fun hnone => ?_⟩
    refine answers_of_objWrite h (act := putReportRemove seq) rfl ?_
    exact congrArg (Prod.mk dOk) (slotWaiting_of_none hnone)
  · refine ⟨exec_zeroizeDone_waits, fun hmay => ⟨fun u hz => exec_zeroizeDone_held hmay hz, fun u hz =>
      ⟨_, exec_zeroizeDone_zeroed hmay hz, ?_, fun j hj => ?_, ?_⟩⟩⟩
    · exact slot_zeroized u i (s.slot i)
    · exact slot_zeroized_other u (s.slot i) hj
    · exact reports_postReport_putSlot u i 12 { s.slot i with zeroizing := false }
  · refine ⟨exec_prefetchCopyDone_idle, fun qn seq h hw => exec_prefetchCopyDone_resting h hw, fun qn seq q d h hw =>
      ⟨exec_prefetchCopyDone_none h hw, fun l hseq hslot hl => ?_⟩⟩
    have hgo := exec_prefetchCopyDone_copies (answer := answer) h hw hseq hslot hl
    refine ⟨fun u hu => hgo.trans ?_, fun e u hu => hgo.trans ?_, fun a u hu => hgo.trans ?_⟩
    · exact congrArg (fun r => Host.Outcome.next (State.copyEnds qn seq l r)) hu
    · exact congrArg (fun r => Host.Outcome.next (State.copyEnds qn seq l r)) hu
    · exact congrArg (fun r => Host.Outcome.next (State.copyEnds qn seq l r)) hu

end

namespace Sys2Proof.Machine
open Sys2Proof.Claims

/-! ### What only a few commands touch: time, boot state, fuses, memory-hold bits, Reef, Rootstock, which queues run (R583, R651) -/

/-- The parts of the state that no end of a command, move of a domain or step of time touches but by the rules that name them. -/
structure Keel where
  now : Nat
  boot : Boot
  fuses : Fuses
  memHold : List Nat
  reef : Bool
  errors : Errors
  runs : Nat → Option Bool

/-- They, without the event log. -/
def State.keel (s : State) : Keel :=
  { now := s.now, boot := s.boot, fuses := s.fuses, memHold := s.memHold, reef := s.power.reef
    errors := { s.errors with events := [], nextEvent := 0, replaced := 0 }, runs := fun q => (s.queue? q).map (·.running) }

@[simp] theorem State.keel_with (s : State) (pending fresh supply domains frame energy power dict security cores engines mesh sram
    hbm xlat host fences bights fabric handoff mem sramCheck hbmCheck reqs nextReq sent) (h : power.reef = s.power.reef) :
    (State.mk pending s.now fresh s.fuses supply s.boot domains s.memHold frame energy power s.errors dict security cores engines
      mesh sram hbm xlat host s.queues fences bights fabric handoff mem sramCheck hbmCheck reqs nextReq sent).keel = s.keel := by
  rw [State.keel, h]
  rfl

@[simp] theorem State.keel_ite {c : Prop} [Decidable c] (s t : State) :
    (if c then s else t).keel = if c then s.keel else t.keel := apply_ite ..

@[simp] theorem keel_foldl {α : Type} {f : State → α → State} (hf : ∀ s a, (f s a).keel = s.keel) (l : List α) (s : State) :
    (l.foldl f s).keel = s.keel := view_foldl State.keel hf l s

theorem keel_snd {α : Type} {p : α × State} {a : α} {t : State} (e : p = (a, t)) : t.keel = p.2.keel := by rw [e]

theorem keel_of_eq {α : Type} {p : α × State} {a : α} {s t : State} (e : p = (a, t)) (h : p.2.keel = s.keel) :
    t.keel = s.keel := by
  rw [e] at h
  exact h

section
variable (s : State)

/-! Parts of the state, the host interface, the Lanyard and domains -/

@[simp] theorem State.keel_setDomain (i d) : (s.setDomain i d).keel = s.keel := by simp [State.setDomain]
@[simp] theorem State.keel_setCore (k c) : (s.setCore k c).keel = s.keel := by simp [State.setCore]
@[simp] theorem State.keel_setEngine (c e) : (s.setEngine c e).keel = s.keel := by simp [State.setEngine]
@[simp] theorem State.keel_setRouter (r x) : (s.setRouter r x).keel = s.keel := by simp [State.setRouter]
@[simp] theorem State.keel_modRouter (r f) : (s.modRouter r f).keel = s.keel := by simp [State.modRouter]
@[simp] theorem State.keel_setGroup (g x) : (s.setGroup g x).keel = s.keel := by simp [State.setGroup]
@[simp] theorem State.keel_modGroup (g f) : (s.modGroup g f).keel = s.keel := by simp [State.modGroup]
@[simp] theorem State.keel_setFn (n x) : (s.setFn n x).keel = s.keel := by simp [State.setFn]
@[simp] theorem State.keel_modFn (n f) : (s.modFn n f).keel = s.keel := by simp [State.modFn]
@[simp] theorem State.keel_setBight (b x) : (s.setBight b x).keel = s.keel := by simp [State.setBight]
@[simp] theorem State.keel_modBight (b f) : (s.modBight b f).keel = s.keel := by simp [State.modBight]
theorem State.queue?_setQueue (q k : Nat) (x : Queue) : (s.setQueue q x).queue? k = if k = q then some x else s.queue? k :=
  Tab.find?_set ..

theorem State.keel_setQueue (q : Nat) (x : Queue) (h : (s.queue? q).map (·.running) = some x.running) :
    (s.setQueue q x).keel = s.keel := by
  have hruns : (fun k => ((s.setQueue q x).queue? k).map (·.running)) = fun k => (s.queue? k).map (·.running) := by
    funext k
    rw [State.queue?_setQueue]
    split
    · next hk => rw [hk, h]; rfl
    · rfl
  exact congrArg (fun r => { s.keel with runs := r }) hruns

@[simp] theorem State.keel_modQueue (q : Nat) (f : Queue → Queue) (hf : ∀ x, (f x).running = x.running) :
    (s.modQueue q f).keel = s.keel := by
  unfold State.modQueue
  split
  · next h => exact s.keel_setQueue q _ (by rw [h, hf]; rfl)
  · rfl

@[simp] theorem State.keel_setFence (f x) : (s.setFence f x).keel = s.keel := by simp [State.setFence]
@[simp] theorem State.keel_setPort (p x) : (s.setPort p x).keel = s.keel := by simp [State.setPort]
@[simp] theorem State.keel_modPort (p f) : (s.modPort p f).keel = s.keel := by simp [State.modPort]
@[simp] theorem State.keel_setSlot (i x) : (s.setSlot i x).keel = s.keel := by simp [State.setSlot]
@[simp] theorem State.keel_modSlot (i f) : (s.modSlot i f).keel = s.keel := by simp [State.modSlot]
@[simp] theorem State.keel_setKeySlot (i x) : (s.setKeySlot i x).keel = s.keel := by simp [State.setKeySlot]
@[simp] theorem State.keel_modKeySlot (i f) : (s.modKeySlot i f).keel = s.keel := by simp [State.modKeySlot]
@[simp] theorem State.keel_modCmd (q seq f) : (s.modCmd q seq f).keel = s.keel :=
  s.keel_modQueue q _ fun _ => rfl
@[simp] theorem State.keel_send (x) : (s.send x).keel = s.keel := by simp [State.send]

@[simp] theorem State.keel_event (code arg) : (s.event code arg).keel = s.keel := by
  unfold State.event
  dsimp only
  split_ifs <;> rfl

@[simp] theorem State.keel_hostWriteVia (n port addr d) :
    (s.hostWriteVia n port addr d).keel = s.keel := by simp [State.hostWriteVia]

@[simp] theorem State.keel_hostWrite (n addr d) : (s.hostWrite n addr d).keel = s.keel := by simp [State.hostWrite]
@[simp] theorem State.keel_irq (n v) : (s.irq n v).keel = s.keel := by simp [State.irq]
@[simp] theorem State.keel_cause (n bit) : (s.cause n bit).keel = s.keel := by simp [State.cause]
@[simp] theorem State.keel_moduleEvent : s.moduleEvent.keel = s.keel := by simp [State.moduleEvent]

@[simp] theorem State.keel_lanSend (ty dest src high payload) :
    (s.lanSend ty dest src high payload).keel = s.keel := by simp [State.lanSend]

@[simp] theorem State.keel_lanCarry (ty dest src payload) :
    (s.lanCarry ty dest src payload).keel = s.keel := by simp [State.lanCarry]

@[simp] theorem State.keel_moveDom (i d) : (s.moveDom i d).keel = s.keel := by
  unfold State.moveDom
  dsimp only
  split_ifs <;> rfl

@[simp] theorem State.keel_reqDom (i x) : (s.reqDom i x).keel = s.keel := by simp [State.reqDom]

/-! Activity -/

@[simp] theorem State.keel_charge (p d e) : (s.charge p d e).keel = s.keel := by
  unfold State.charge
  split <;> simp

@[simp] theorem State.keel_addModel (d e) : (s.addModel d e).keel = s.keel := by simp [State.addModel]
@[simp] theorem State.keel_activity (u k n p) : (s.activity u k n p).keel = s.keel := by simp [State.activity]

/-! SRAM -/

@[simp] theorem State.keel_putSram (wa w disc) : (s.putSram wa w disc).keel = s.keel := by simp [State.putSram]

@[simp] theorem State.keel_sramCorrected (agent wa disc) :
    (s.sramCorrected agent wa disc).keel = s.keel := by simp [State.sramCorrected]

@[simp] theorem State.keel_sramBad (agent wa disc) : (s.sramBad agent wa disc).keel = s.keel := by simp [State.sramBad]

@[simp] theorem State.keel_readSram (agent rmw wa) : (s.readSram agent rmw wa).2.keel = s.keel := by
  unfold State.readSram
  dsimp only
  split
  · rfl
  · split <;> simp

@[simp] theorem State.keel_writeSram (wa w) : (s.writeSram wa w).keel = s.keel := by
  unfold State.writeSram
  dsimp only
  split
  · rfl
  · split <;> simp

@[simp] theorem State.keel_writeSramPart (agent wa o : Nat) (d : Bytes) :
    (s.writeSramPart agent wa o d).2.keel = s.keel := by
  unfold State.writeSramPart
  split
  · rfl
  · split
    · simp
    · split
      · next h => simpa using keel_of_eq h (State.keel_readSram ..)
      · next h => simpa using keel_of_eq h (State.keel_readSram ..)

@[simp] theorem State.keel_readSramWords (agent wa n : Nat) : (s.readSramWords agent wa n).2.keel = s.keel := by
  induction n generalizing s wa with
  | zero => rfl
  | succ n ih => exact (ih _ _).trans (s.keel_readSram ..)

@[simp] theorem State.keel_readSramBytes (agent a n) :
    (s.readSramBytes agent a n).2.keel = s.keel := by simp [State.readSramBytes]

@[simp] theorem State.keel_writeSramBytes (agent fuel a : Nat) (d : Bytes) :
    (s.writeSramBytes agent fuel a d).2.keel = s.keel := by
  induction fuel generalizing s a d with
  | zero => rfl
  | succ fuel ih =>
    unfold State.writeSramBytes
    split
    · rfl
    · exact (ih _ _ _).trans (s.keel_writeSramPart ..)

@[simp] theorem State.keel_clearSramRange (c a n) :
    (s.clearSramRange c a n).keel = s.keel := by simp [State.clearSramRange]

@[simp] theorem State.keel_applyFuses (c) : (s.applyFuses c).keel = s.keel := by simp [State.applyFuses]
@[simp] theorem State.keel_clearCluster (c) : (s.clearCluster c).keel = s.keel := by simp [State.clearCluster]
@[simp] theorem State.keel_loseCluster (c) : (s.loseCluster c).keel = s.keel := by simp [State.loseCluster]

/-! HBM -/

@[simp] theorem State.keel_putHbm (cw w disc) : (s.putHbm cw w disc).keel = s.keel := by simp [State.putHbm]

@[simp] theorem State.keel_hbmCorrected (agent cw n) :
    (s.hbmCorrected agent cw n).keel = s.keel := by simp [State.hbmCorrected]

@[simp] theorem State.keel_hbmBad (agent cw) : (s.hbmBad agent cw).keel = s.keel := by simp [State.hbmBad]

@[simp] theorem State.keel_readCw (agent rmw cw) : (s.readCw agent rmw cw).2.keel = s.keel := by
  unfold State.readCw
  split <;> simp

@[simp] theorem State.keel_writeCw (cw w) : (s.writeCw cw w).keel = s.keel := by simp [State.writeCw]

@[simp] theorem State.keel_readCws (agent : Nat) (key : Option (Nat × Bool)) (cw n : Nat) :
    (s.readCws agent key cw n).2.keel = s.keel := by
  induction n generalizing s cw with
  | zero => rfl
  | succ n ih => exact (ih _ _).trans (s.keel_readCw ..)

@[simp] theorem State.keel_readHbmBytes (agent key a n) :
    (s.readHbmBytes agent key a n).2.keel = s.keel := by simp [State.readHbmBytes]

@[simp] theorem State.keel_writeCwPart (agent : Nat) (key : Option (Nat × Bool)) (cw o : Nat) (d : Bytes) :
    (s.writeCwPart agent key cw o d).2.keel = s.keel := by
  unfold State.writeCwPart
  split
  · simp
  · split
    · next h => simpa using keel_of_eq h (State.keel_readCw ..)
    · next h => exact keel_of_eq h (State.keel_readCw ..)

@[simp] theorem State.keel_writeHbmBytes (agent : Nat) (key : Option (Nat × Bool)) (fuel a : Nat) (d : Bytes) :
    (s.writeHbmBytes agent key fuel a d).2.keel = s.keel := by
  induction fuel generalizing s a d with
  | zero => rfl
  | succ fuel ih =>
    unfold State.writeHbmBytes
    split
    · rfl
    · exact (ih _ _ _).trans (s.keel_writeCwPart ..)

@[simp] theorem State.keel_clearStack (st) : (s.clearStack st).keel = s.keel := by simp [State.clearStack]

/-! Physical memory -/

@[simp] theorem State.keel_physRead (agent key p a n) : (s.physRead agent key p a n).2.keel = s.keel := by
  unfold State.physRead
  split
  · rfl
  · split <;> simp

@[simp] theorem State.keel_physWrite (agent key p a d) : (s.physWrite agent key p a d).2.keel = s.keel := by
  unfold State.physWrite
  split
  · rfl
  · split <;> simp

@[simp] theorem State.keel_gateBytes (g cls n p) : (s.gateBytes g cls n p).keel = s.keel := by simp [State.gateBytes]
@[simp] theorem State.keel_wakeStack (st) : (s.wakeStack st).keel = s.keel := by simp [State.wakeStack]

/-! Gates, circuits and the accesses of a step -/

@[simp] theorem State.keel_modReq (id f) : (s.modReq id f).keel = s.keel := by simp [State.modReq]
@[simp] theorem State.keel_dropReq (id) : (s.dropReq id).keel = s.keel := by simp [State.dropReq]
@[simp] theorem State.keel_addReq (r) : (s.addReq r).2.keel = s.keel := by simp [State.addReq]
@[simp] theorem State.keel_modCircuit (x f) : (s.modCircuit x f).keel = s.keel := by simp [State.modCircuit]
@[simp] theorem State.keel_oweCredit (x) : (s.oweCredit x).keel = s.keel := by simp [State.oweCredit]

@[simp] theorem State.keel_refKey (r up) : (s.refKey r up).keel = s.keel := by
  unfold State.refKey
  split <;> simp

@[simp] theorem State.keel_settle (id res) : (s.settle id res).keel = s.keel := by
  unfold State.settle
  split <;> simp

@[simp] theorem State.keel_gateReq (g id) : (s.gateReq g id).keel = s.keel := by simp [State.gateReq]

@[simp] theorem State.keel_dequeue (g r) : (s.dequeue g r).keel = s.keel := by
  unfold State.dequeue
  split <;> simp

@[simp] theorem State.keel_countUnkeyed (r) : (s.countUnkeyed r).keel = s.keel := by
  unfold State.countUnkeyed
  split
  · rfl
  · split <;> simp

@[simp] theorem State.keel_accessNow (r : Req) (a : Nat) : (s.accessNow r a).2.keel = s.keel := by
  unfold State.accessNow
  split
  · split
    · next h => exact keel_of_eq h (State.keel_physWrite ..)
    · next h => exact keel_of_eq h (State.keel_physWrite ..)
  · split
    · next h => exact keel_of_eq h (State.keel_physRead ..)
    · next h => exact keel_of_eq h (State.keel_physRead ..)

@[simp] theorem State.keel_accessHbm (r a) : (s.accessHbm r a).2.keel = s.keel := by
  unfold State.accessHbm
  split
  · rfl
  · split <;> simp

@[simp] theorem State.keel_countRelease (g r p) : (s.countRelease g r p).keel = s.keel := by simp [State.countRelease]
@[simp] theorem State.keel_serveReq (g x r) : (s.serveReq g x r).2.keel = s.keel := by simp [State.serveReq]
@[simp] theorem State.keel_takeStep (id res) : (s.takeStep id res).2.keel = s.keel := by simp [State.takeStep]

@[simp] theorem State.keel_tryStep (g : Nat) (r : Req) : (s.tryStep g r).2.keel = s.keel := by
  unfold State.tryStep
  split
  · rfl
  · split
    · split
      · simp
      · rfl
    · rfl

@[simp] theorem State.keel_dropSteps (a n) : (s.dropSteps a n).keel = s.keel := by simp [State.dropSteps]

@[simp] theorem State.keel_ownPut (a : Nat) (d : Bytes) : (s.ownPut a d).keel = s.keel := by
  unfold State.ownPut
  split
  · rfl
  · dsimp only
    split
    · split
      · next h => simpa using keel_of_eq h (State.keel_tryStep ..)
      · next h => simpa using keel_of_eq h (State.keel_tryStep ..)
    · simp

@[simp] theorem State.keel_ownWrite (a d) : (s.ownWrite a d).keel = s.keel := by simp [State.ownWrite]

/-! Fences and completions -/

@[simp] theorem State.keel_fenceMsg (b op f w) : (s.fenceMsg b op f w).keel = s.keel := by simp [State.fenceMsg]
@[simp] theorem State.keel_notifyWaits (f inc w) : (s.notifyWaits f inc w).keel = s.keel := by simp [State.notifyWaits]
@[simp] theorem State.keel_fenceSet (f x w) : (s.fenceSet f x w).keel = s.keel := by simp [State.fenceSet]

@[simp] theorem State.keel_breakFence (f inc code detail) : (s.breakFence f inc code detail).keel = s.keel := by
  unfold State.breakFence
  split <;> simp

@[simp] theorem State.keel_signalFence (f inc v fn q seq) : (s.signalFence f inc v fn q seq).keel = s.keel := by
  unfold State.signalFence
  split <;> simp

@[simp] theorem State.keel_looseError : s.looseError.keel = s.keel := by simp [State.looseError]

@[simp] theorem State.keel_breakErrorFence (b code detail) : (s.breakErrorFence b code detail).keel = s.keel := by
  unfold State.breakErrorFence
  dsimp only
  split
  · rfl
  · split <;> simp

@[simp] theorem State.keel_breakCmdFence (b c code detail) : (s.breakCmdFence b c code detail).keel = s.keel := by
  unfold State.breakCmdFence
  split <;> simp

@[simp] theorem State.keel_updateFence (qn q c) : (s.updateFence qn q c).keel = s.keel := by
  unfold State.updateFence
  split
  · split <;> simp
  · split <;> simp

@[simp] theorem State.keel_completeCmd (qn q c) : (s.completeCmd qn q c).keel = s.keel := by simp [State.completeCmd]

@[simp] theorem State.keel_drainQueue (n : Nat) (s : State) (qn : Nat) : (State.drainQueue n s qn).keel = s.keel := by
  induction n generalizing s with
  | zero => rfl
  | succ n ih =>
    unfold State.drainQueue
    split
    · rfl
    · split
      · rfl
      · split
        · simp [ih]
        · rfl

@[simp] theorem State.keel_drain (qn) : (s.drain qn).keel = s.keel := by simp [State.drain]

/-! Link ports -/

@[simp] theorem State.keel_sendData (n payload) : (s.sendData n payload).keel = s.keel := by simp [State.sendData]
@[simp] theorem State.keel_packBytes (n b) : (s.packBytes n b).keel = s.keel := by simp [State.packBytes]

@[simp] theorem State.keel_countPacket (n) : (s.countPacket n).keel = s.keel := by
  unfold State.countPacket
  dsimp only
  split
  · rfl
  · split <;> simp

@[simp] theorem State.keel_emitPacket (n pk) : (s.emitPacket n pk).keel = s.keel := by
  unfold State.emitPacket
  dsimp only
  split
  · rfl
  · split <;> simp

theorem State.keel_pumpVc {s t : State} {n v : Nat} (h : s.pumpVc n v = some t) : t.keel = s.keel := by
  unfold State.pumpVc at h
  dsimp only at h
  split at h
  · cases h
  · split at h
    · cases h
      simp
    · cases h

@[simp] theorem State.keel_pump (fuel : Nat) (s : State) (n : Nat) : (State.pump fuel s n).keel = s.keel := by
  induction fuel generalizing s with
  | zero => rfl
  | succ fuel ih =>
    unfold State.pump
    split
    · next h =>
      obtain ⟨v, -, h⟩ := List.exists_of_findSome?_eq_some h
      exact (ih _).trans (State.keel_pumpVc h)
    · rfl

@[simp] theorem State.keel_pumpPort (n) : (s.pumpPort n).keel = s.keel := by simp [State.pumpPort]

@[simp] theorem State.keel_sendPacket (n h payload pay) :
    (s.sendPacket n h payload pay).keel = s.keel := by simp [State.sendPacket]

@[simp] theorem State.keel_startTraining (n) : (s.startTraining n).keel = s.keel := by simp [State.startTraining]
@[simp] theorem State.keel_loseRequests (n) : (s.loseRequests n).keel = s.keel := by simp [State.loseRequests]
@[simp] theorem State.keel_portOff (n) : (s.portOff n).keel = s.keel := by simp [State.portOff]

/-! Translation -/

@[simp] theorem State.keel_setObject (n w) : (s.setObject n w).keel = s.keel := by simp [State.setObject]
@[simp] theorem State.keel_pinCaches : s.pinCaches.keel = s.keel := by simp [State.pinCaches]
@[simp] theorem State.keel_dropFaults (q seq) : (s.dropFaults q seq).keel = s.keel := by simp [State.dropFaults]

/-! Commands -/

@[simp] theorem State.keel_commitMsg (b op q seq) : (s.commitMsg b op q seq).keel = s.keel := by simp [State.commitMsg]

@[simp] theorem State.keel_register (b e) : (s.register b e).keel = s.keel := by
  unfold State.register
  split <;> simp

@[simp] theorem State.keel_requestKill (q seq code detail rerun) :
    (s.requestKill q seq code detail rerun).keel = s.keel := by
  unfold State.requestKill
  split
  · rfl
  · split <;> simp

@[simp] theorem State.keel_failCmd (q seq code) : (s.failCmd q seq code).keel = s.keel := by simp [State.failCmd]

@[simp] theorem State.keel_failAlways (qn seq code) : (s.failAlways qn seq code).keel = s.keel := by
  unfold State.failAlways
  split <;> simp

@[simp] theorem State.keel_closeObject (toggle n) : (s.closeObject toggle n).keel = s.keel := by simp [State.closeObject]

@[simp] theorem State.keel_closeObjects (toggle q seq) : (s.closeObjects toggle q seq).keel = s.keel := by
  unfold State.closeObjects
  split <;> simp

@[simp] theorem State.keel_stopCores (b) : (s.stopCores b).keel = s.keel := by simp [State.stopCores]
@[simp] theorem State.keel_ungate (ids) : (s.ungate ids).keel = s.keel := by simp [State.ungate]
@[simp] theorem State.keel_abandonReqs (p) : (s.abandonReqs p).keel = s.keel := by simp [State.abandonReqs]
@[simp] theorem State.keel_abandonCmd (q c b) : (s.abandonCmd q c b).keel = s.keel := by simp [State.abandonCmd]

/-! Handoff slots -/

@[simp] theorem State.keel_putSlot (i x) : (s.putSlot i x).keel = s.keel := by simp [State.putSlot]

@[simp] theorem State.keel_slotSignal (x) : (s.slotSignal x).keel = s.keel := by
  unfold State.slotSignal
  split <;> simp

@[simp] theorem State.keel_slotBreak (x code) : (s.slotBreak x code).keel = s.keel := by
  unfold State.slotBreak
  split <;> simp

@[simp] theorem State.keel_postReport (i kind) : (s.postReport i kind).keel = s.keel := by simp [State.postReport]

@[simp] theorem State.keel_slotPacket (i ty) : (s.slotPacket i ty).keel = s.keel := by
  unfold State.slotPacket
  dsimp only
  split
  · rfl
  · split <;> simp

@[simp] theorem State.keel_zeroize (i) : (s.zeroize i).keel = s.keel := by simp [State.zeroize]

@[simp] theorem State.keel_slotAct (i kind code) : (s.slotAct i kind code).keel = s.keel := by
  unfold State.slotAct
  split <;> simp

@[simp] theorem State.keel_slotMove (i kind st code) :
    (s.slotMove i kind st code).keel = s.keel := by simp [State.slotMove]

@[simp] theorem State.keel_slotGo (i kind st code) : (s.slotGo i kind st code).keel = s.keel := by simp [State.slotGo]

@[simp] theorem State.keel_slotCommit (q seq attempt) :
    (s.slotCommit q seq attempt).keel = s.keel := by simp [State.slotCommit]

@[simp] theorem State.keel_slotEnd (q seq) : (s.slotEnd q seq).keel = s.keel := by simp [State.slotEnd]

/-! Walker circuits -/

@[simp] theorem State.keel_setCircuits (cs) : (s.setCircuits cs).keel = s.keel := by simp [State.setCircuits]

@[simp] theorem State.keel_addWalkers (halves groups) :
    (s.addWalkers halves groups).keel = s.keel := by simp [State.addWalkers]

@[simp] theorem State.keel_dropWalkers (halves groups) :
    (s.dropWalkers halves groups).keel = s.keel := by simp [State.dropWalkers]

/-! Domains that reach a state -/

@[simp] theorem State.keel_loseCompute (c) : (s.loseCompute c).keel = s.keel := by simp [State.loseCompute]

@[simp] theorem State.keel_clusterReached (c from' into) :
    (s.clusterReached c from' into).keel = s.keel := by simp [State.clusterReached]

@[simp] theorem State.keel_dropOwnWrites (st) : (s.dropOwnWrites st).keel = s.keel := by simp [State.dropOwnWrites]

@[simp] theorem State.keel_stackReached (st from' into trained) :
    (s.stackReached st from' into trained).keel = s.keel := by simp [State.stackReached]

@[simp] theorem State.keel_halfReached (h into) : (s.halfReached h into).keel = s.keel := by simp [State.halfReached]
@[simp] theorem State.keel_dieReached (d into) : (s.dieReached d into).keel = s.keel := by simp [State.dieReached]

@[simp] theorem State.keel_domReached (i from' into trained) : (s.domReached i from' into trained).keel = s.keel := by
  unfold State.domReached
  split <;> simp

/-! The end of a command -/

@[simp] theorem State.keel_settleCmd (b c) : (s.settleCmd b c).keel = s.keel := by simp [State.settleCmd]
@[simp] theorem State.keel_retireRun (b q seq) : (s.retireRun b q seq).keel = s.keel := by simp [State.retireRun]

@[simp] theorem State.keel_freeChunks (c) : (s.freeChunks c).keel = s.keel := by
  unfold State.freeChunks
  split <;> simp

@[simp] theorem State.keel_peerPackets (ty q c) : (s.peerPackets ty q c).keel = s.keel := by simp [State.peerPackets]

@[simp] theorem State.keel_drainSend (qn) : (s.drainSend qn).keel = s.keel := by
  unfold State.drainSend
  split <;> simp

@[simp] theorem State.keel_abandonSources (b q c) : (s.abandonSources b q c).keel = s.keel := by
  unfold State.abandonSources
  split <;> simp

@[simp] theorem State.keel_endCmd (qn seq code detail) : (s.endCmd qn seq code detail).keel = s.keel := by
  unfold State.endCmd
  split
  · rfl
  · split <;> simp

@[simp] theorem State.keel_commitCmd (qn seq) : (s.commitCmd qn seq).keel = s.keel := by
  unfold State.commitCmd
  split
  · rfl
  · split <;> simp

@[simp] theorem State.keel_takeCommit (qn seq : Nat) : (s.takeCommit qn seq).keel = s.keel := by
  unfold State.takeCommit
  split
  · rfl
  · split
    · rfl
    · split
      · rfl
      · simp only [State.keel_commitMsg, State.keel_commitCmd]
        split <;> simp

@[simp] theorem State.keel_keepPlace (b q seq) : (s.keepPlace b q seq).keel = s.keel := by simp [State.keepPlace]
@[simp] theorem State.keel_killWins (b code rerun) : (s.killWins b code rerun).keel = s.keel := by simp [State.killWins]

@[simp] theorem State.keel_endRerun (qn c code detail) :
    (s.endRerun qn c code detail).keel = s.keel := by simp [State.endRerun]

@[simp] theorem State.keel_takeKill (qn seq code : Nat) (detail : BitVec 24) (rerun : Bool) :
    (s.takeKill qn seq code detail rerun).keel = s.keel := by
  unfold State.takeKill
  split
  · rfl
  · split
    · rfl
    · split
      · simp
      · split
        · rfl
        · dsimp only
          split <;> simp

/-! A trip -/

@[simp] theorem State.keel_forceDom (i x) : (s.forceDom i x).keel = s.keel := by simp [State.forceDom]
@[simp] theorem State.keel_clustersOff : s.clustersOff.keel = s.keel := by simp [State.clustersOff]
@[simp] theorem State.keel_portsOff : s.portsOff.keel = s.keel := by simp [State.portsOff]
@[simp] theorem State.keel_stacksLow : s.stacksLow.keel = s.keel := by simp [State.stacksLow]

@[simp] theorem State.keel_flushRegister (b : Nat) : (s.flushRegister b).keel = s.keel := by
  refine (keel_foldl (fun s e => ?_) _ _).trans (by simp)
  cases e <;> simp

@[simp] theorem State.keel_orphanReqs (q seq run b) :
    (s.orphanReqs q seq run b).keel = s.keel := by simp [State.orphanReqs]

@[simp] theorem State.keel_endNow (q seq code) : (s.endNow q seq code).keel = s.keel := by
  unfold State.endNow
  split
  · rfl
  · split <;> simp

@[simp] theorem State.keel_endAll (code running) : (s.endAll code running).keel = s.keel := by simp [State.endAll]

end

end Sys2Proof.Machine

namespace Sys2Proof.Machine
open Sys2Proof.Claims

section
variable (s : State)

/-! Parts of the state, activity and scale factors -/

@[simp] theorem State.keel_modCore (k f) : (s.modCore k f).keel = s.keel := by simp [State.modCore]
@[simp] theorem State.keel_setInWin (w x) : (s.setInWin w x).keel = s.keel := by simp [State.setInWin]
@[simp] theorem State.keel_freeNat : (s.freeNat).2.keel = s.keel := by simp [State.freeNat]
@[simp] theorem State.keel_sendVec (c back id res) : (s.sendVec c back id res).keel = s.keel := by simp [State.sendVec]
@[simp] theorem State.keel_scaleFloors (g) : (s.scaleFloors g).keel = s.keel := by simp [State.scaleFloors]
@[simp] theorem State.keel_scaleAll : s.scaleAll.keel = s.keel := by simp [State.scaleAll]

/-! Reads and writes that a step makes -/

@[simp] theorem State.keel_forgetSteps : s.forgetSteps.keel = s.keel := by simp [State.forgetSteps]
@[simp] theorem State.keel_keepSteps : s.keepSteps.keel = s.keel := by simp [State.keepSteps]
@[simp] theorem State.keel_walkDone (x) : (s.walkDone x).keel = s.keel := by simp [State.walkDone]

@[simp] theorem State.keel_newStep (r a x) : (s.newStep r a x).2.keel = s.keel := by
  unfold State.newStep
  split
  · simp
  · split <;> simp

@[simp] theorem keel_orKeep (x : Option ReqResult × State) : (orKeep x).2.keel = x.2.keel := by
  unfold orKeep
  split <;> simp

@[simp] theorem State.keel_stepAccess (r a x) : (s.stepAccess r a x).2.keel = s.keel := by
  unfold State.stepAccess
  split
  · rfl
  · split
    · simp
    · split
      · split <;> simp
      · simp

@[simp] theorem State.keel_ownReads (p : Payer) (l : List (Nat × Nat)) : (State.ownReads p l s).2.keel = s.keel := by
  induction l generalizing s with
  | nil => rfl
  | cons x l ih =>
    unfold State.ownReads
    split
    · next h => simp [keel_snd h]
    · next h =>
      have hs := keel_snd h
      split
      · next h' => simpa [hs, ih] using keel_snd h'
      · simp [hs, ih]
    · next h => simp [keel_snd h]

@[simp] theorem State.keel_ownRead (p a n) : (s.ownRead p a n).2.keel = s.keel := by simp [State.ownRead]

@[simp] theorem State.keel_readContext (asid) : (s.readContext asid).2.keel = s.keel := by
  unfold State.readContext
  split
  · rfl
  · split <;> next h => simp [keel_snd h]

@[simp] theorem State.keel_sendIdle (n) : (s.sendIdle n).keel = s.keel := by simp [State.sendIdle]
@[simp] theorem State.keel_flushFlit (n) : (s.flushFlit n).keel = s.keel := by simp [State.flushFlit]

/-! Translation -/

@[simp] theorem State.keel_readEntry (w a) : (s.readEntry w a).2.keel = s.keel := by
  unfold State.readEntry
  split
  · split <;> rfl
  · extract_lets a0 x
    split
    · simp
    · split <;> next h => simp [keel_snd h]

@[simp] theorem State.keel_readTable (w a) : (s.readTable w a).2.keel = s.keel := by
  unfold State.readTable
  split <;> next h => simp [keel_snd h]

@[simp] theorem State.keel_readObject (w n) : (s.readObject w n).2.keel = s.keel := by
  unfold State.readObject
  split
  · rfl
  · split <;> next h => simp [keel_snd h]

@[simp] theorem State.keel_either {α : Type} [DecidableEq α] (a b : α) : (s.either a b).2.keel = s.keel := by
  unfold State.either
  split <;> simp

@[simp] theorem State.keel_walkEntry (w level va a) : (s.walkEntry w level va a).2.keel = s.keel := by
  unfold State.walkEntry
  dsimp only
  split
  · simp
  · split
    · split <;> simp
    · rfl

@[simp] theorem State.keel_cacheNonLeaf (die asid level va addr e) : (s.cacheNonLeaf die asid level va addr e).keel = s.keel :=
  by simp [State.cacheNonLeaf]

@[simp] theorem State.keel_walkFrom (w va fn accEn level base) : (State.walkFrom w va fn accEn level s base).2.keel = s.keel := by
  induction level generalizing s base with
  | zero =>
    unfold State.walkFrom
    dsimp only
    split
    · next h => simp [keel_snd h]
    · next h => simp [keel_snd h]
    · next h => split_ifs <;> simp [keel_snd h]
  | succ level ih =>
    unfold State.walkFrom
    dsimp only
    split
    · next h => simp [keel_snd h]
    · next h => simp [keel_snd h]
    · next h => split_ifs <;> simp [keel_snd h, ih]

@[simp] theorem State.keel_walkReads (w va) : (s.walkReads w va).2.keel = s.keel := by
  unfold State.walkReads
  split
  · rfl
  · split
    · next h => simp [keel_snd h]
    · next h => simp [keel_snd h]
    · next h =>
      dsimp only
      split_ifs <;> simp [keel_snd h]

@[simp] theorem State.keel_walk (w va) : (s.walk w va).2.keel = s.keel := by
  unfold State.walk
  split
  · simp
  · dsimp only
    split
    · next h => simp [keel_snd h]
    · next h => simp [keel_snd h]

@[simp] theorem State.keel_cacheLeaf (x) : (s.cacheLeaf x).keel = s.keel := by simp [State.cacheLeaf]
@[simp] theorem State.keel_uncache (cache asid va) : (s.uncache cache asid va).keel = s.keel := by simp [State.uncache]
@[simp] theorem State.keel_forget (w va) : (s.forget w va).keel = s.keel := by simp [State.forget]

@[simp] theorem State.keel_keepLeaf (w x) : (s.keepLeaf w x).keel = s.keel := by
  unfold State.keepLeaf
  split <;> simp

@[simp] theorem State.keel_findLeaf (w va write) : (s.findLeaf w va write).2.keel = s.keel := by
  unfold State.findLeaf
  extract_lets walkIn
  have hwalk : ∀ t : State, (walkIn t).2.keel = t.keel := fun t => by
    dsimp only [walkIn]
    split <;> next h => simp [keel_snd h]
  clear_value walkIn
  split
  · exact hwalk s
  · dsimp only
    split_ifs <;> simp [hwalk]

@[simp] theorem State.keel_closeBatch (n) : (s.closeBatch n).keel = s.keel := by
  unfold State.closeBatch
  dsimp only
  split <;> simp

@[simp] theorem State.keel_ringWrite (n entry) : (s.ringWrite n entry).keel = s.keel := by simp [State.ringWrite]
@[simp] theorem State.keel_takeTag (n) : (s.takeTag n).2.keel = s.keel := by simp [State.takeTag]
@[simp] theorem State.keel_addFault (f) : (s.addFault f).keel = s.keel := by simp [State.addFault]
@[simp] theorem State.keel_faultFor (w va write reason) : (s.faultFor w va write reason).keel = s.keel := by simp [State.faultFor]
@[simp] theorem State.keel_countAccess (die asid va n) : (s.countAccess die asid va n).keel = s.keel :=
  by simp [State.countAccess]

@[simp] theorem State.keel_translateBy (w va n write) : (s.translateBy w va n write).2.keel = s.keel := by
  unfold State.translateBy
  rcases h : s.findLeaf w va write with ⟨⟨r, found⟩, t⟩
  have ht : t.keel = s.keel := by simp [keel_snd h]
  rw [← ht]
  dsimp -zeta only
  extract_lets kept
  have hkept : ∀ x : Xres × State, (kept x).2.keel = x.2.keel := fun x => by
    dsimp only [kept]
    split <;> simp
  rw [hkept]
  clear_value kept
  split
  · rfl
  · rfl
  · split
    · rfl
    · extract_lets k finish f0 f1
      have hfinish : ∀ (t : State) (frame : Nat) (gen : Bool) (idx : Nat), (finish t frame gen idx).2.keel = t.keel :=
          fun t frame gen idx => by
          dsimp only [finish]
          split
          · simp
          · split <;> simp
      clear_value finish
      split
      · split
        · next h => simp [keel_snd h]
        · next h => simp [keel_snd h]
        · next h =>
          split
          · simp [keel_snd h]
          · split
            · simp [keel_snd h]
            · split <;> simp [hfinish, keel_snd h]
      · split
        · exact hfinish ..
        · split
          · rfl
          · split
            · next h => simp [keel_snd h]
            · next h => simp [keel_snd h]
            · next h => split_ifs <;> simp [hfinish, keel_snd h]

@[simp] theorem State.keel_translate (w va n write) : (s.translate w va n write).2.keel = s.keel := by
  unfold State.translate
  split
  · next h =>
    have hs := keel_snd h
    split <;> simp [hs]
  · simp

/-! Accesses -/

@[simp] theorem State.keel_sendRemote (r win offset p) : (s.sendRemote r win offset p).keel = s.keel := by simp [State.sendRemote]

@[simp] theorem State.keel_notePeer (q seq win id) : (s.notePeer q seq win id).keel = s.keel := by
  unfold State.notePeer
  split
  · split <;> simp
  · rfl

/-! The base clock -/

@[simp] theorem State.keel_clockTarget (op) : (s.clockTarget op).2.keel = s.keel := by simp [State.clockTarget]

@[simp] theorem State.keel_announce (op mhz) : (s.announce op mhz).keel = s.keel := by
  unfold State.announce
  simp

@[simp] theorem State.keel_retune : s.retune.keel = s.keel := by simp [State.retune]

@[simp] theorem State.keel_clearLayers (i) : (s.clearLayers i).keel = s.keel := by
  exact s.keel_ownWrite ..

/-! Handoff slots -/

@[simp] theorem State.keel_slotGone (i code) : (s.slotGone i code).keel = s.keel := by simp [State.slotGone]

/-! Accesses that land -/

@[simp] theorem State.keel_landPhys (r addr) : (s.landPhys r addr).2.keel = s.keel := by
  unfold State.landPhys
  split
  · rfl
  · split
    · simp
    · split
      · split <;> next h => simp [keel_snd h]
      · split <;> next h => simp [keel_snd h]

@[simp] theorem State.keel_landHost (r fn port addr) : (s.landHost r fn port addr).2.keel = s.keel := by
  unfold State.landHost
  split_ifs <;> simp

@[simp] theorem State.keel_faultRemote (r off) : (s.faultRemote r off).2.keel = s.keel := by
  unfold State.faultRemote
  dsimp only
  split
  · split
    · split
      · split <;> simp
      · rfl
    · rfl
  · split <;> simp
  · rfl

@[simp] theorem State.keel_landRemote (r win off) : (s.landRemote r win off).2.keel = s.keel := by
  unfold State.landRemote
  split
  · simp
  · dsimp only
    split <;> simp

@[simp] theorem State.keel_land (r) : (s.land r).2.keel = s.keel := by
  unfold State.land
  split <;> simp

@[simp] theorem State.keel_startAccess (a d) : (s.startAccess a d).2.keel = s.keel := by
  unfold State.startAccess
  dsimp only
  split
  · simp
  · split <;> next h => simp [keel_snd h]

/-! Circuits, domains and the schedule -/

@[simp] theorem State.keel_relayCrossing (h) : (s.relayCrossing h).keel = s.keel := by simp [State.relayCrossing]
@[simp] theorem State.keel_drive (i x) : (s.drive i x).keel = s.keel := by simp [State.drive]

@[simp] theorem State.keel_driveNeeds : s.driveNeeds.keel = s.keel := by
  unfold State.driveNeeds
  dsimp only
  refine (keel_foldl (fun s c => ?_) _ _).trans (keel_foldl (fun s b => ?_) _ _)
  · simp
  · split <;> simp

@[simp] theorem State.keel_schedFault (b r sub entry) : (s.schedFault b r sub entry).keel = s.keel := by simp [State.schedFault]
@[simp] theorem State.keel_deadLetterMsg (b kind handle r entry reason) :
    (s.deadLetterMsg b kind handle r entry reason).keel = s.keel :=
  by simp [State.deadLetterMsg]

@[simp] theorem State.keel_takeData (r src inj) : (s.takeData r src inj).2.keel = s.keel := by
  unfold State.takeData
  split <;> simp

@[simp] theorem State.keel_takeCredit (r src cri) : (s.takeCredit r src cri).2.keel = s.keel := by
  unfold State.takeCredit
  split <;> simp

@[simp] theorem State.keel_putFlight (b r out v credit) : (s.putFlight b r out v credit).keel = s.keel := by
  unfold State.putFlight
  split <;> simp

@[simp] theorem State.keel_ejectVec (b r h entry v) : (s.ejectVec b r h entry v).keel = s.keel := by
  unfold State.ejectVec
  split <;> simp

@[simp] theorem State.keel_driveOut (b r e o) : (s.driveOut b r e o).keel = s.keel := by
  unfold State.driveOut
  extract_lets u
  have hu : u.keel = s.keel := by
    dsimp only [u]
    split
    · rfl
    · split <;> next h => simp [keel_snd h]
  split
  · exact hu
  · split <;> next h => simp [keel_snd h, hu]

@[simp] theorem State.keel_useEntry (b r i e) : (s.useEntry b r i e).keel = s.keel := by
  unfold State.useEntry
  extract_lets v u
  have hv : v.keel = s.keel := by simp [v]
  have hu : u.keel = s.keel := by
    dsimp only [u]
    split
    · exact hv
    · split <;> next h => simp [keel_snd h, hv]
  split
  · exact hu
  · split <;> next h => simp [keel_snd h, hu]

@[simp] theorem State.keel_routerCycle (b r) : (s.routerCycle b r).keel = s.keel := by
  unfold State.routerCycle
  dsimp only
  split <;> simp

@[simp] theorem State.keel_deliverFlight (f) : (s.deliverFlight f).keel = s.keel := by
  unfold State.deliverFlight
  dsimp only
  split
  · simp
  · split <;> simp

@[simp] theorem State.keel_deliverDue (b) : (s.deliverDue b).keel = s.keel := by simp [State.deliverDue]
@[simp] theorem State.keel_bightCycle (b) : (s.bightCycle b).keel = s.keel := by simp [State.bightCycle]

/-! Lashing -/

@[simp] theorem State.keel_readImage (pay a n) : (s.readImage pay a n).2.keel = s.keel := by
  unfold State.readImage
  dsimp only
  split
  · rfl
  · split
    · next h =>
      have hs := keel_snd h
      split
      · simp [hs]
      · split
        · next h' => simp [keel_snd h', hs]
        · simp [hs]
    · simp

@[simp] theorem State.keel_readRecords (pay : Payer) (l a n : Nat) : (s.readRecords pay l a n).2.keel = s.keel := by
  induction n generalizing s a with
  | zero => rfl
  | succ n ih =>
    unfold State.readRecords
    split
    · next h => simp [keel_snd h]
    · next h => simp [keel_snd h]
    · next h =>
      have hs := keel_snd h
      split
      · next h' => simp [keel_snd h', ih, hs]
      · simp [ih, hs]

@[simp] theorem State.keel_readShape (pay addr shape) : (s.readShape pay addr shape).2.keel = s.keel := by
  unfold State.readShape
  split
  · next h =>
    split
    · simp [keel_snd h]
    · split
      · next h' =>
        split
        · simp [keel_snd h', keel_snd h]
        · split
          · next h₃ =>
            split
            · next h₄ => split <;> next h₅ => simp [keel_snd h₅, keel_snd h₄, keel_snd h₃, keel_snd h', keel_snd h]
            · next h₄ => simp [keel_snd h₄, keel_snd h₃, keel_snd h', keel_snd h]
          · next h₃ => simp [keel_snd h₃, keel_snd h', keel_snd h]
      · next h' => simp [keel_snd h', keel_snd h]
  · next h => simp [keel_snd h]

@[simp] theorem State.keel_claimRouters (b p) : (s.claimRouters b p).keel = s.keel := by simp [State.claimRouters]
@[simp] theorem State.keel_loadBanks (b d p rs) : (s.loadBanks b d p rs).keel = s.keel := by simp [State.loadBanks]
@[simp] theorem State.keel_dropCircuits (b inactiveOnly) : (s.dropCircuits b inactiveOnly).keel = s.keel :=
  by simp [State.dropCircuits]
@[simp] theorem State.keel_freeRouters (rs) : (s.freeRouters rs).keel = s.keel := by simp [State.freeRouters]
@[simp] theorem State.keel_reportLash (b kind result) : (s.reportLash b kind result).keel = s.keel := by simp [State.reportLash]

@[simp] theorem State.keel_cancelRelash (b result code) : (s.cancelRelash b result code).keel = s.keel := by
  unfold State.cancelRelash
  dsimp only
  split <;> simp

theorem State.keel_layShape {t : State} {b : Nat} {d : ShapeData} {p : Place} (h : s.layShape b d p = .ok t) :
    t.keel = s.keel := by
  unfold State.layShape at h
  split at h
  · cases h
    simp [State.setCircuits]
  · cases h

@[simp] theorem State.keel_beginLash (b req d p) : (s.beginLash b req d p).keel = s.keel := by
  unfold State.beginLash
  split
  · simp
  · next h => simp [s.keel_layShape h]

@[simp] theorem State.keel_lashWith (req) : (s.lashWith req).keel = s.keel := by
  unfold State.lashWith
  dsimp only
  split
  · simp
  · split
    · simp
    · split
      · next h => simp [keel_snd h]
      · next h => simp [keel_snd h]
      · next h =>
        have hs := keel_snd h
        split
        · simp [hs]
        · split <;> simp [hs]

@[simp] theorem State.keel_dropMaster (m groups) : (s.dropMaster m groups).keel = s.keel := by simp [State.dropMaster]
@[simp] theorem State.keel_dueClear (b due) : (s.dueClear b due).keel = s.keel := by simp [State.dueClear]

@[simp] theorem State.keel_freeBight (b) : (s.freeBight b).keel = s.keel := by
  unfold State.freeBight
  simp

@[simp] theorem State.keel_flrCheck : s.flrCheck.keel = s.keel := by simp [State.flrCheck]

/-! Commands and accesses that end -/

@[simp] theorem State.keel_killAny (qn seq code detail) : (s.killAny qn seq code detail).keel = s.keel := by
  unfold State.killAny
  split <;> simp

@[simp] theorem State.keel_physParts (w agent key fn a data) (l : List (Nat × Nat)) :
    (State.physParts w agent key fn a data l s).2.keel = s.keel := by
  induction l generalizing s with
  | nil => rfl
  | cons x l ih =>
    unfold State.physParts
    dsimp only
    split
    · next h => simp [keel_snd h]
    · next h =>
      have hs := keel_snd h
      split
      · next h' => simp [keel_snd h', ih, hs]
      · simp [ih, hs]
    · next h => simp [ih, keel_snd h]
    · next h => simp [keel_snd h]

@[simp] theorem State.keel_physNow (w agent addr key fn n data) : (s.physNow w agent addr key fn n data).2.keel = s.keel := by
  unfold State.physNow
  split
  · split <;> next h => simp [keel_snd h]
  · simp

@[simp] theorem State.keel_writeDest (w agent d data) : (s.writeDest w agent d data).2.keel = s.keel := by
  unfold State.writeDest
  split
  · split <;> next h => simp [keel_snd h]
  · split <;> simp
  · rfl

/-! Invalidations -/

@[simp] theorem State.keel_uncacheScope (x) : (s.uncacheScope x).keel = s.keel := by simp [State.uncacheScope]
@[simp] theorem State.keel_restartWalks (x) : (s.restartWalks x).keel = s.keel := by simp [State.restartWalks]
@[simp] theorem State.keel_respond (port tag source window offset write status sub data pay) :
    (s.respond port tag source window offset write status sub data pay).keel = s.keel :=
  by simp [State.respond]

@[simp] theorem State.keel_refuseReq (r) : (s.refuseReq r).keel = s.keel := by
  unfold State.refuseReq
  split <;> simp

@[simp] theorem State.keel_invalidate (origin abort x) : (s.invalidate origin abort x).keel = s.keel := by
  unfold State.invalidate
  dsimp only
  split
  · refine (State.keel_with (h := rfl) ..).trans ?_
    refine (keel_foldl (fun s r => s.keel_refuseReq r) _ _).trans ((keel_foldl (fun s e => ?_) _ _).trans (by simp))
    split <;> simp
  · simp

@[simp] theorem State.keel_closeInbound (w abort) : (s.closeInbound w abort).keel = s.keel := by simp [State.closeInbound]

@[simp] theorem State.keel_takePacket (port v i) : (s.takePacket port v i).keel = s.keel := by
  unfold State.takePacket
  split
  · rfl
  · dsimp only
    split <;> simp [State.owe]

@[simp] theorem State.keel_endAperture (r fn res) : (s.endAperture r fn res).keel = s.keel := by
  unfold State.endAperture
  dsimp only
  split
  · split <;> simp
  · split <;> simp

@[simp] theorem State.keel_lateResult (id res) : (s.lateResult id res).2.keel = s.keel := by
  unfold State.lateResult
  split
  · split <;> simp
  · rfl

@[simp] theorem State.keel_endReq (id res) : (s.endReq id res).keel = s.keel := by
  unfold State.endReq
  dsimp only
  split
  · split <;> simp
  · simp

@[simp] theorem State.keel_arriveReq (id res) : (s.arriveReq id res).keel = s.keel := by
  unfold State.arriveReq
  split
  · rfl
  · split
    · simp
    · split
      · rfl
      · split <;> simp

@[simp] theorem State.keel_raise (core cause sub unit value) : (s.raise core cause sub unit value).keel = s.keel :=
  by simp [State.raise]

/-! Owners that go -/

@[simp] theorem State.keel_killGone (q seq) : (s.killGone q seq).keel = s.keel := by
  unfold State.killGone
  split <;> simp

@[simp] theorem State.keel_killQueue (q) : (s.killQueue q).keel = s.keel := by
  unfold State.killQueue
  split <;> simp

@[simp] theorem State.keel_breakOwned (p) : (s.breakOwned p).keel = s.keel := by simp [State.breakOwned]
@[simp] theorem State.keel_slotsGone (p) : (s.slotsGone p).keel = s.keel := by simp [State.slotsGone]
@[simp] theorem State.keel_killBight (b) : (s.killBight b).keel = s.keel := by simp [State.killBight]
@[simp] theorem State.keel_beginRelease (b) : (s.beginRelease b).keel = s.keel := by simp [State.beginRelease]
@[simp] theorem State.keel_releaseAll (l) : (s.releaseAll l).keel = s.keel := by simp [State.releaseAll]
@[simp] theorem State.keel_dropFnFaults (fn) : (s.dropFnFaults fn).keel = s.keel := by simp [State.dropFnFaults]

@[simp] theorem State.keel_resetBight (b) : (s.resetBight b).keel = s.keel := by
  unfold State.resetBight
  split <;> simp

@[simp] theorem State.keel_cancelNow (b) : (s.cancelNow b).keel = s.keel := by
  unfold State.cancelNow
  dsimp only
  split
  · split <;> simp
  · simp

@[simp] theorem State.keel_closeWindows (p abort) : (s.closeWindows p abort).keel = s.keel := by simp [State.closeWindows]

@[simp] theorem State.keel_breakWould (q c) : (s.breakWould q c).keel = s.keel := by
  unfold State.breakWould
  dsimp only
  split
  · rfl
  · split <;> split <;> simp

@[simp] theorem State.keel_teardownBreak (asid) : (s.teardownBreak asid).keel = s.keel := by
  unfold State.teardownBreak
  dsimp only
  rw [State.keel_invalidate, State.keel_closeWindows]
  refine (keel_foldl (fun s q => ?_) _ _).trans (by simp)
  split <;> simp

@[simp] theorem State.keel_teardownCheck : s.teardownCheck.keel = s.keel := by simp [State.teardownCheck]
@[simp] theorem State.keel_clearOwners (fn) : (s.clearOwners fn).keel = s.keel := by simp [State.clearOwners]

/-! Registers and the aperture -/

@[simp] theorem State.keel_staleResolve : s.staleResolve.keel = s.keel := by simp [State.staleResolve]
@[simp] theorem State.keel_unfault (core) : (s.unfault core).keel = s.keel := by simp [State.unfault]

@[simp] theorem State.keel_dropFault (f) : (s.dropFault f).keel = s.keel := by simp [State.dropFault]

@[simp] theorem State.keel_retryFault (f) : (s.retryFault f).keel = s.keel := by
  unfold State.retryFault
  dsimp only
  split <;> simp

@[simp] theorem State.keel_refuseWindow (port w) : (s.refuseWindow port w).keel = s.keel := by
  unfold State.refuseWindow
  split <;> simp

@[simp] theorem State.keel_failFault (f) : (s.failFault f).keel = s.keel := by
  unfold State.failFault
  dsimp only
  split
  · split <;> simp
  · simp
  · simp

@[simp] theorem State.keel_resolve (fn tag fail) : (s.resolve fn tag fail).keel = s.keel := by
  unfold State.resolve
  split <;> simp

@[simp] theorem State.keel_issueInv (abort addr v) : (s.issueInv abort addr v).keel = s.keel := by simp [State.issueInv]

@[simp] theorem State.keel_doReg (x) : (s.doReg x).keel = s.keel := by
  unfold State.doReg
  split <;> simp

@[simp] theorem State.keel_takeReg (x) : (s.takeReg x).keel = s.keel := by simp [State.takeReg]
@[simp] theorem State.keel_apertureMiss (fn write) : (s.apertureMiss fn write).keel = s.keel := by simp [State.apertureMiss]

@[simp] theorem State.keel_aperture (x) : (s.aperture x).keel = s.keel := by
  unfold State.aperture
  dsimp only
  split
  · next h =>
    have hs := keel_snd h
    split <;> simp [hs]
  · next h => simp [keel_snd h]
  · next h => simp [keel_snd h]

/-! Handoff: ARM and zeroization -/

@[simp] theorem State.keel_slotResult (i op found result) : (s.slotResult i op found result).keel = s.keel := by
  unfold State.slotResult
  simp

@[simp] theorem State.keel_slotEntry (i) : (s.slotEntry i).2.keel = s.keel := by
  unfold State.slotEntry
  split <;> simp

@[simp] theorem State.keel_slotArm (i) : (s.slotArm i).keel = s.keel := by
  unfold State.slotArm
  dsimp only
  split
  · next h => simp [keel_snd h]
  · next h => simp [keel_snd h]
  · next h =>
    split
    · simp [keel_snd h]
    · split
      · simp [keel_snd h]
      · split <;> simp [keel_snd h]

@[simp] theorem State.keel_zeroBlocks (w d) (n : Nat) : (s.zeroBlocks w d n).2.keel = s.keel := by
  induction n with
  | zero => rfl
  | succ n ih =>
    unfold State.zeroBlocks
    split
    · next h =>
      have hs := (keel_snd h).trans ih
      split <;> next h' => exact (keel_snd h').trans ((State.keel_writeDest ..).trans hs)
    · exact ih

@[simp] theorem State.keel_zeroFrame (w fn e lo gen) : (s.zeroFrame w fn e lo gen).2.keel = s.keel := by
  unfold State.zeroFrame
  dsimp only
  split <;> simp

@[simp] theorem State.keel_zeroPage (w fn e) : (s.zeroPage w fn e).2.keel = s.keel := by
  unfold State.zeroPage
  split
  · next h =>
    have hs := keel_snd h
    split <;> simp [hs]
  · simp

@[simp] theorem State.keel_zeroPages (w fn) (l : List (Nat × Nat × BitVec 128)) : (State.zeroPages w fn l s).2.keel = s.keel := by
  induction l generalizing s with
  | nil => rfl
  | cons e l ih =>
    unfold State.zeroPages
    split
    · next h => simp [ih, keel_snd h]
    · simp

@[simp] theorem State.keel_zeroizeStep (i) : (s.zeroizeStep i).keel = s.keel := by
  unfold State.zeroizeStep
  dsimp only
  split <;> next h => simp [keel_snd h]

/-! The transit plane -/

@[simp] theorem State.keel_hopActivity (v) : (s.hopActivity v).keel = s.keel := by
  unfold State.hopActivity
  split <;> simp

@[simp] theorem State.keel_sendSlot (t c back) : (s.sendSlot t c back).keel = s.keel := by
  unfold State.sendSlot
  dsimp only
  split
  · rfl
  · split <;> simp

@[simp] theorem State.keel_takeCredits (v) : (s.takeCredits v).keel = s.keel := by simp [State.takeCredits]

@[simp] theorem State.keel_loseReq (id) : (s.loseReq id).keel = s.keel := by
  unfold State.loseReq
  dsimp only
  split <;> simp

@[simp] theorem State.keel_deadVec (v id j kind reason) : (s.deadVec v id j kind reason).keel = s.keel := by
  unfold State.deadVec
  simp

@[simp] theorem State.keel_deliverVec (j v) : (s.deliverVec j v).keel = s.keel := by
  unfold State.deliverVec
  dsimp only
  split
  · simp
  · split
    · simp
    · split
      · simp
      · split
        · simp
        · split
          · simp
          · split <;> next h => simp [keel_snd h]

@[simp] theorem State.keel_transitCycle (t) : (s.transitCycle t).keel = s.keel := by simp [State.transitCycle]

@[simp] theorem State.keel_transitCheck (t r) : (s.transitCheck t r).keel = s.keel := by
  unfold State.transitCheck
  split <;> simp

@[simp] theorem State.keel_changeRatio (h div) : (s.changeRatio h div).keel = s.keel := by
  unfold State.changeRatio
  simp

@[simp] theorem State.keel_ratiosDue : s.ratiosDue.keel = s.keel := by simp [State.ratiosDue]
@[simp] theorem State.keel_tickTransit (before after) : (s.tickTransit before after).keel = s.keel := by simp [State.tickTransit]
@[simp] theorem State.keel_relashMsg (op b p stop) : (s.relashMsg op b p stop).keel = s.keel := by simp [State.relashMsg]
@[simp] theorem State.keel_relashAll (op b p stops) : (s.relashAll op b p stops).keel = s.keel := by simp [State.relashAll]

/-! Records -/

@[simp] theorem State.keel_reportOp (kind code) : (s.reportOp kind code).keel = s.keel := by simp [State.reportOp]

@[simp] theorem State.keel_createFence (b) : (s.createFence b).2.keel = s.keel := by
  unfold State.createFence
  dsimp only
  split
  · rfl
  · split
    · rfl
    · split
      · next h => simp [keel_snd h]
      · next h => simp [keel_snd h]
      · next h => split_ifs <;> simp [keel_snd h]

@[simp] theorem State.keel_destroyFence (b) : (s.destroyFence b).2.keel = s.keel := by
  unfold State.destroyFence
  dsimp only
  split
  · rfl
  · split
    · rfl
    · split
      · rfl
      · split <;> simp

@[simp] theorem State.keel_fenceRecord (b) : (s.fenceRecord b).2.keel = s.keel := by
  unfold State.fenceRecord
  split <;> simp

/-! Rootstock -/

@[simp] theorem State.keel_endRelash (b) : (s.endRelash b).keel = s.keel := by
  unfold State.endRelash
  split <;> simp

@[simp] theorem State.keel_dropBight (b) : (s.dropBight b).keel = s.keel := by simp [State.dropBight]
@[simp] theorem State.keel_slotsFail (code) : (s.slotsFail code).keel = s.keel := by simp [State.slotsFail]
@[simp] theorem State.keel_exitZeroize (i) : (s.exitZeroize i).keel = s.keel := by simp [State.exitZeroize]

/-! Time -/

@[simp] theorem State.keel_takeModbus : s.takeModbus.keel = s.keel := by simp [State.takeModbus]
@[simp] theorem State.keel_tickBight (before after b) : (s.tickBight before after b).keel = s.keel := by simp [State.tickBight]

@[simp] theorem State.keel_staticTick (i) : (s.staticTick i).keel = s.keel := by
  unfold State.staticTick
  split <;> simp

@[simp] theorem State.keel_tickDomain (before after i) : (s.tickDomain before after i).keel = s.keel := by simp [State.tickDomain]
@[simp] theorem State.keel_noteBusy (b) : (s.noteBusy b).keel = s.keel := by simp [State.noteBusy]
@[simp] theorem State.keel_flushPorts : s.flushPorts.keel = s.keel := by simp [State.flushPorts]

end

end Sys2Proof.Machine

namespace Sys2Proof.Machine
open Sys2Proof.Claims

/-! ### Queues that stop, and records (R427, R435, R651) -/

/-- Of what `State.keel` shows, queues may have stopped and nothing else has moved. -/
structure Hushed (s t : State) : Prop where
  rest : t.keel = { s.keel with runs := t.keel.runs }
  runs : ∀ q, t.keel.runs q = some true → s.keel.runs q = some true

theorem Hushed.of_keel {s t : State} (h : t.keel = s.keel) : Hushed s t := ⟨by rw [h], fun q => by rw [h]; exact id⟩

theorem Hushed.trans {s t u : State} (h : Hushed s t) (h' : Hushed t u) : Hushed s u :=
  ⟨h'.rest.trans (by rw [h.rest]), fun q hq => h.runs q (h'.runs q hq)⟩

theorem Hushed.foldl {α : Type} {f : State → α → State} (hf : ∀ s a, Hushed s (f s a)) (l : List α) (s : State) :
    Hushed s (l.foldl f s) := by
  induction l generalizing s with
  | nil => exact .of_keel rfl
  | cons a l ih => exact (hf s a).trans (ih _)

/-- The view without which queues run. -/
def State.hull (s : State) : Keel := { s.keel with runs := fun _ => none }

theorem State.hull_of_keel {s t : State} (h : t.keel = s.keel) : t.hull = s.hull := by rw [State.hull, h]; rfl

section
variable (s : State)

theorem State.hushed_modQueue (q : Nat) (f : Queue → Queue) (hf : ∀ x, (f x).running = true → x.running = true) :
    Hushed s (s.modQueue q f) := by
  unfold State.modQueue
  split
  · next x hx =>
    refine ⟨rfl, fun k hk => ?_⟩
    change ((s.setQueue q (f x)).queue? k).map (·.running) = some true at hk
    change (s.queue? k).map (·.running) = some true
    rw [State.queue?_setQueue] at hk
    split at hk
    · next hkq =>
      rw [hkq, hx]
      exact congrArg some (hf x (Option.some.inj hk))
    · exact hk
  · exact .of_keel rfl

theorem State.hushed_beginFlr (fn : Nat) : Hushed s (s.beginFlr fn) := by
  unfold State.beginFlr
  extract_lets s₁ s₂ s₃ s₄ s₅
  have hbefore : s₂.keel = s.keel := by simp [s₂, s₁]
  have hqueues : Hushed s₂ s₃ := .foldl (fun s q =>
    (s.hushed_modQueue q _ fun _ h => Bool.noConfusion h).trans (.of_keel (State.keel_killQueue ..))) _ _
  exact ((Hushed.of_keel hbefore).trans hqueues).trans (.of_keel (by simp [s₅, s₄]))

theorem State.hushed_removalStep : Hushed s s.removalStep := by
  unfold State.removalStep
  split
  · exact .of_keel rfl
  · split
    · exact .of_keel rfl
    · next r _ _ =>
      have hbefore : ((s.clearOwners r.fn).releaseAll r.bights).keel = s.keel := by simp
      dsimp only
      split
      · split
        · split
          · exact .trans (.of_keel (by simp [hbefore])) (State.hushed_beginFlr ..)
          · exact .of_keel (by simp [hbefore])
        · exact .of_keel hbefore
      · exact .of_keel hbefore

theorem State.hushed_ownersGo : Hushed s s.ownersGo := .trans (.of_keel (by simp)) (State.hushed_removalStep _)

/-! Records -/

theorem State.hull_createQueue (b : Bytes) : (s.createQueue b).2.hull = s.hull := by
  unfold State.createQueue
  dsimp only
  split
  · rfl
  · split
    · rfl
    · split
      · rfl
      · split
        · next h => exact State.hull_of_keel (by simp [keel_snd h])
        · next t h =>
          have ht : t.hull = s.hull := State.hull_of_keel (by simp [keel_snd h])
          split_ifs <;> exact ht

theorem State.hull_onQueue (b : Bytes) {f : Nat → Queue → Nat × State} (hf : ∀ n q, (f n q).2.hull = s.hull) :
    (s.onQueue b f).2.hull = s.hull := by
  unfold State.onQueue
  dsimp only
  split
  · rfl
  · split
    · rfl
    · exact hf ..

theorem State.hull_queueRecord (b : Bytes) : (s.queueRecord b).2.hull = s.hull := by
  unfold State.queueRecord
  split
  · exact s.hull_createQueue b
  · exact s.hull_onQueue b fun n q => by split <;> rfl
  · exact s.hull_onQueue b fun n q => rfl
  · exact s.hull_onQueue b fun n q => rfl
  · rfl

theorem State.keel_beginTeardown (asid l) : (s.beginTeardown asid l).keel = s.keel := by
  unfold State.beginTeardown
  dsimp only
  rw [State.keel_teardownCheck]
  refine (keel_foldl (fun s q => ?_) _ _).trans (by simp)
  rw [State.keel_killQueue]
  exact s.keel_modQueue q _ fun _ => rfl

theorem State.keel_teardownRecord (b : Bytes) : (s.teardownRecord b).2.keel = s.keel := by
  unfold State.teardownRecord
  dsimp only
  split
  · rfl
  · split
    · next h => simp [keel_snd h]
    · next h => simp [keel_snd h]
    · next h => split_ifs <;> simp [keel_snd h, State.keel_beginTeardown]

theorem State.hull_doRecord (x : Nat × Bytes) : (s.doRecord x).hull = s.hull := by
  unfold State.doRecord
  extract_lets s₁
  have hs : s₁.hull = s.hull := State.hull_of_keel (by simp [s₁])
  split
  next code t h =>
  have ht : t.hull = s.hull := by
    split at h
    · exact (congrArg (State.hull ∘ Prod.snd) h).symm.trans ((s₁.hull_queueRecord _).trans hs)
    · exact (congrArg (State.hull ∘ Prod.snd) h).symm.trans ((State.hull_of_keel (by simp)).trans hs)
    · exact (congrArg (State.hull ∘ Prod.snd) h).symm.trans ((State.hull_of_keel (s₁.keel_teardownRecord _)).trans hs)
  split
  · exact ht
  · split
    · exact ht
    · exact (State.hull_of_keel (by simp)).trans ht

theorem State.hull_takeRecord (x : Nat × Bytes) : (s.takeRecord x).hull = s.hull := by
  unfold State.takeRecord
  split
  · exact s.hull_doRecord x
  · rfl

theorem State.hull_resumeHeld : s.resumeHeld.hull = s.hull := by
  unfold State.resumeHeld
  dsimp only
  refine (State.hull_of_keel ((keel_foldl (fun s x => s.keel_takeReg x) _ _).trans
    ((State.keel_with (h := rfl) ..).trans (keel_foldl (fun s x => s.keel_aperture x) _ _)))).trans ?_
  refine (view_foldl State.hull (fun s x => s.hull_takeRecord x) _ _).trans (State.hull_of_keel ?_)
  refine (keel_foldl (fun s i => s.keel_slotArm i) _ _).trans ((keel_foldl (fun s r => s.keel_lashWith r) _ _).trans ?_)
  simp

end

end Sys2Proof.Machine

namespace Sys2Proof.Machine
open Sys2Proof.Claims

/-! ### Into and out of Rootstock (R649 to R658) -/

section
variable (s : State)

theorem State.keel_memHold (l : List Nat) : ({ s with memHold := l } : State).keel = { s.keel with memHold := l } := rfl

theorem State.keel_causes (c : BitVec 3) : ({ s with errors := { s.errors with causes := c } } : State).keel =
    { s.keel with errors := { s.keel.errors with causes := c } } := rfl

theorem State.keel_stopQueues : s.stopQueues.keel = { s.keel with runs := fun q => (s.queue? q).map fun _ => false } := by
  unfold State.stopQueues
  dsimp only
  refine (keel_foldl (fun s n => s.keel_cause n 3) _ _).trans (congrArg (fun r => { s.keel with runs := r }) (funext fun q => ?_))
  unfold State.queue?
  rw [Tab.find?_mapVals, Option.map_map]
  rfl

theorem State.keel_reefEnds : s.reefEnds.keel = { s.keel with reef := false } := by
  unfold State.reefEnds
  dsimp only
  rw [State.keel_event]
  rfl

theorem State.keel_endReef : (if s.power.reef then s.reefEnds else s).keel = { s.keel with reef := false } := by
  split
  · exact s.keel_reefEnds
  · next h =>
    have hreef : s.keel.reef = false := Bool.eq_false_iff.mpr h
    rw [← hreef]

/-- The errors as an entry leaves them (R651). -/
def Errors.entered (e : Errors) (now : Nat) : Errors :=
  { e with rootstock := true, entering := false, rootstockAt := now, entries := e.entries + 1 }

theorem State.keel_declare : ({ s with errors := s.errors.entered s.now } : State).keel =
    { s.keel with errors := s.keel.errors.entered s.keel.now } := rfl

/-- What an entry for ERRORS or TRIP leaves, before what waited for its commands goes on (R651). -/
def State.rooted : Keel :=
  { s.keel with
    memHold := [], reef := false, errors := s.keel.errors.entered s.now, runs := fun q => (s.queue? q).map fun _ => false }

theorem State.enterRootstock_rooted (trip : Bool) : ∃ u : State, u.keel = s.rooted ∧ Hushed u (s.enterRootstock trip) := by
  unfold State.enterRootstock
  extract_lets code s₁ s₂ s₃ s₄ s₅ s₆ s₇ e s₈
  have h₄ : s₄.keel = s.stopQueues.keel := by simp [s₄, s₃, s₂, s₁]
  have h₅ : s₅.keel = { s₄.keel with memHold := [] } := by simp [s₅, State.keel_memHold]
  clear_value s₄
  have h₆ : s₆.keel = s₅.keel := by simp [s₆]
  clear_value s₅
  have h₇ : s₇.keel = { s₆.keel with reef := false } := by
    simp only [s₇]
    exact s₆.keel_endReef
  clear_value s₆
  have h₈ : s₈.keel = { s₇.keel with errors := s₇.keel.errors.entered s₇.keel.now } := s₇.keel_declare
  clear_value s₇ s₈
  refine ⟨s₈, ?_, .trans (.of_keel (by simp)) (State.hushed_ownersGo _)⟩
  rw [h₈, h₇, h₆, h₅, h₄, State.keel_stopQueues]
  rfl

theorem State.enterRootstock_errors (trip : Bool) : let e := (s.enterRootstock trip).errors
    e.rootstock = true ∧ e.entering = false ∧ e.rootstockAt = s.now ∧ e.entries = s.errors.entries + 1 ∧
      e.causes = s.errors.causes := by
  obtain ⟨u, hu, hushed⟩ := s.enterRootstock_rooted trip
  generalize s.enterRootstock trip = t at hushed
  have herr : t.keel.errors = s.rooted.errors := by rw [hushed.rest, hu]
  exact ⟨(congrArg Errors.rootstock herr :), (congrArg Errors.entering herr :), (congrArg Errors.rootstockAt herr :),
    (congrArg Errors.entries herr :), (congrArg Errors.causes herr :)⟩

theorem State.enterRootstock_quiet (trip : Bool) : (s.enterRootstock trip).memHold = [] ∧
    (s.enterRootstock trip).power.reef = false ∧
    ∀ q x, (s.enterRootstock trip).queue? q = some x → x.running = false := by
  obtain ⟨u, hu, hushed⟩ := s.enterRootstock_rooted trip
  generalize s.enterRootstock trip = t at hushed
  have hkeel := hushed.rest
  rw [hu] at hkeel
  refine ⟨(congrArg Keel.memHold hkeel :), (congrArg Keel.reef hkeel :), fun q x hx => ?_⟩
  refine Bool.eq_false_iff.mpr fun hrun => ?_
  have hnow : t.keel.runs q = some true := by
    change (t.queue? q).map (·.running) = some true
    rw [hx, ← hrun]
    rfl
  have hbefore := hushed.runs q hnow
  rw [hu] at hbefore
  obtain ⟨y, -, hy⟩ := Option.map_eq_some_iff.mp hbefore
  exact Bool.noConfusion hy

/-! The exit -/

/-- When and at what level the thermal throttle was last set (R560). -/
def State.heat (s : State) : Nat × Nat := (s.power.tTh, s.power.tThAt)

theorem State.heat_event (code arg) : (s.event code arg).heat = s.heat := rfl

theorem State.heat_scaleFloors (g : Nat) : (s.scaleFloors g).heat = s.heat := by
  unfold State.scaleFloors
  dsimp only
  split
  · exact State.heat_event ..
  · split <;> rfl

theorem State.heat_scaleAll : s.scaleAll.heat = s.heat := view_foldl State.heat (fun s g => s.heat_scaleFloors g) _ s

theorem State.heat_retune : s.retune.heat = s.heat := by
  unfold State.retune
  split <;> rfl

theorem State.heat_enterReef : s.enterReef.heat = s.heat := by
  unfold State.enterReef
  split
  · exact (State.heat_event ..).trans ((State.heat_scaleAll _).trans rfl)
  · rfl

theorem State.errors_enterReef : s.enterReef.keel.errors = s.keel.errors := by
  unfold State.enterReef
  split
  · simp only [State.keel_event, State.keel_scaleAll, State.keel_announce]
    rfl
  · rfl

/-- The exit up to its event: what it zeroizes (R656, steps 1 and 2). -/
def State.unrooted (s : State) : State :=
  let s := { s with errors := { s.errors with rootstock := false } }
  (Tab.keys s.handoff.slots).foldl (fun (s : State) i => s.exitZeroize i) s

/-- The exit's end of throttling and of the causes (R656, steps 3 and 4). -/
def State.cooled (s : State) (ms : Nat) : State :=
  let s := ({ s with power := { s.power with tTh := 0, tThAt := s.now } } : State).event 0x0041 ms
  { s with errors := { s.errors with causes := 0 } }

theorem State.exitRootstock_eq : s.exitRootstock =
    (s.unrooted.cooled ((s.now - s.errors.rootstockAt) / 1000000)).enterReef.retune.scaleAll := rfl

theorem State.keel_unrooted : s.unrooted.keel = { s.keel with errors := { s.keel.errors with rootstock := false } } := by
  unfold State.unrooted
  exact keel_foldl (fun s i => s.keel_exitZeroize i) _ _

theorem State.keel_cooled (ms : Nat) : (s.cooled ms).keel = { s.keel with errors := { s.keel.errors with causes := 0 } } := by
  unfold State.cooled
  dsimp only
  rw [State.keel_causes, State.keel_event]
  rfl

theorem State.heat_cooled (ms : Nat) : (s.cooled ms).heat = (0, s.keel.now) := by
  unfold State.cooled
  exact (State.heat_event { s with power := { s.power with tTh := 0, tThAt := s.now } } 0x0041 ms :)

theorem State.exitRootstock_cool :
    s.exitRootstock.errors.rootstock = false ∧ s.exitRootstock.errors.causes = 0 ∧
      s.exitRootstock.power.tTh = 0 ∧ s.exitRootstock.power.tThAt = s.now := by
  rw [State.exitRootstock_eq]
  generalize (s.now - s.errors.rootstockAt) / 1000000 = ms
  have herr : ((s.unrooted.cooled ms).enterReef.retune.scaleAll).keel.errors =
      { s.keel.errors with rootstock := false, causes := 0 } := by
    rw [State.keel_scaleAll, State.keel_retune, State.errors_enterReef, State.keel_cooled, State.keel_unrooted]
  have hheat : ((s.unrooted.cooled ms).enterReef.retune.scaleAll).heat = (0, s.now) := by
    rw [State.heat_scaleAll, State.heat_retune, State.heat_enterReef, State.heat_cooled, State.keel_unrooted]
    rfl
  generalize (s.unrooted.cooled ms).enterReef.retune.scaleAll = t at herr hheat ⊢
  exact ⟨(congrArg Errors.rootstock herr :), (congrArg Errors.causes herr :), (congrArg Prod.fst hheat :),
    (congrArg Prod.snd hheat :)⟩

end

/-! What the commands answer -/

section
variable {s : State} {via : Via}

theorem exec_rootstockEntry_image (hent : s.errors.entering = true) (htrip : s.errors.causes.getLsbD 1 = false)
    (herr : s.errors.causes.getLsbD 0 = false) : exec .rootstockEntry s = .next s.enterImage := by
  change execRootstockEntry s = _
  unfold execRootstockEntry
  dsimp only
  rw [hent, htrip, herr]
  rfl

theorem exec_rootstockEntry_full (hent : s.errors.entering = true)
    (hcause : s.errors.causes.getLsbD 1 = true ∨ s.errors.causes.getLsbD 0 = true) :
    ∃ trip, exec .rootstockEntry s = .next (s.enterRootstock trip) := by
  change ∃ trip, execRootstockEntry s = _
  unfold execRootstockEntry
  dsimp only
  rw [hent]
  by_cases htrip : s.errors.causes.getLsbD 1 = true
  · exact ⟨true, congrArg Host.Outcome.next ((if_neg Bool.noConfusion).trans (if_pos htrip))⟩
  · have herr := hcause.resolve_left htrip
    exact ⟨false, congrArg Host.Outcome.next ((if_neg Bool.noConfusion).trans ((if_neg htrip).trans (if_pos herr)))⟩

theorem errors_enterImage : s.enterImage.errors.rootstock = true ∧ s.enterImage.errors.entering = false ∧
    s.enterImage.errors.rootstockAt = s.now ∧ s.enterImage.errors.entries = s.errors.entries + 1 ∧
    s.enterImage.errors.causes = s.errors.causes := ⟨rfl, rfl, rfl, rfl, rfl⟩

theorem exec_errorsWindowExpiry : exec .errorsWindowExpiry s = .next { s with errors := { s.errors with
    countedAt := s.countedNow
    causes := if s.countedNow = [] then s.errors.causes &&& 6 else s.errors.causes } } := by
  change execErrorsWindowExpiry s = _
  unfold execErrorsWindowExpiry
  simp only [List.isEmpty_iff]

theorem exec_rootstockEntry_none (hent : s.errors.entering = false) : exec .rootstockEntry s = .next s := by
  change execRootstockEntry s = _
  unfold execRootstockEntry
  dsimp only
  rw [hent]
  rfl

/-! The writes of 0x8001.01 and 0x8020.02 -/

theorem putExit_range {v : BitVec 8} (h : v ≠ 1) : putExit v s = (dRange, s) := if_pos h

theorem putExit_busy (h : s.errors.entering = true) : putExit 1 s = (dBusy, s) :=
  (if_neg (not_not_intro rfl)).trans (if_pos h)

theorem putExit_refused (hent : s.errors.entering = false) (h : s.errors.rootstock = false ∨ s.errors.causes ≠ 0) :
    putExit 1 s = (dRefused, s) := by
  unfold putExit
  rw [if_neg (not_not_intro rfl), hent, if_neg Bool.noConfusion, if_pos]
  simpa using h

theorem putExit_ok (hent : s.errors.entering = false) (hroot : s.errors.rootstock = true) (h : s.errors.causes = 0) :
    putExit 1 s = (dOk, s.exitRootstock) := by
  unfold putExit
  simp [hent, hroot, h]

theorem answers_rootstockExit (hs : Serves s via false false) {v : BitVec 8} {code : Nat} {t : State}
    (h : putExit v s = (code, t)) : Answers (.rootstockExit via v) s via code t := answers_of_objWrite hs (act := putExit v) rfl h

theorem mem_eventsKept (seq : BitVec 16) (x : BitVec 24 × BitVec 16 × BitVec 16 × BitVec 64) :
    x ∈ (putEventRemove seq s).2.errors.events ↔ x ∈ s.errors.events ∧ 2 ^ 15 ≤ (seq - x.2.1).toNat := by
  refine List.mem_filter.trans (and_congr_right fun _ => ?_)
  exact decide_eq_true_iff

end

end Sys2Proof.Machine

section
open Sys2Proof Sys2Proof.Machine Sys2Proof.Claims

/-- Settles O36: of an entry for ERRORS or TRIP, `State.keel` says what its steps leave once all queues are stopped. -/
theorem rootstockEntryAndExit : Obligations.RootstockEntryAndExit := by
  refine ⟨fun s => ⟨exec_rootstockEntry_none, fun hent hcause => ?_, fun hent htrip herr => ?_, ?_⟩,
    fun s via hs => ⟨fun v => ⟨fun hv => ?_, ?_, ?_, ?_⟩, fun seq => ?_⟩⟩
  · obtain ⟨trip, hexec⟩ := exec_rootstockEntry_full hent hcause
    exact ⟨_, hexec, s.enterRootstock_errors trip, s.enterRootstock_quiet trip⟩
  · exact ⟨_, exec_rootstockEntry_image hent htrip herr, errors_enterImage, rfl⟩
  · exact ⟨_, exec_errorsWindowExpiry, rfl⟩
  · exact answers_rootstockExit hs (putExit_range hv)
  · rintro rfl hent
    exact answers_rootstockExit hs (putExit_busy hent)
  · rintro rfl hent h
    exact answers_rootstockExit hs (putExit_refused hent h)
  · rintro rfl hent hroot hcauses
    exact ⟨_, answers_rootstockExit hs (putExit_ok hent hroot hcauses), s.exitRootstock_cool⟩
  · exact ⟨_, answers_of_objWrite hs (act := putEventRemove seq) rfl rfl, mem_eventsKept seq, rfl⟩

end

namespace Sys2Proof.Machine
open Sys2Proof.Claims

/-! ### GO and the image (R576 to R588) -/

section
variable {s : State}

theorem exec_bootGo (port : Nat) (v : Word) :
    exec (.bootGo port v) s = .next (if s.host.linkUp.contains port then s.bootGo port v else s) := rfl

/-- A GO starts a load (R577). -/
def State.goStarts (s : State) (port : Nat) (v : Word) : Prop :=
  port ∈ s.host.linkUp ∧ v.getLsbD 0 = true ∧ (s.boot.state = .waitImage ∨ s.boot.state = .rejected) ∧ s.boot.halted = false

theorem exec_bootGo_starts {port : Nat} {v : Word} (h : s.goStarts port v) :
    exec (.bootGo port v) s = .next (s.startLoad port) := by
  obtain ⟨hlink, hgo, hstate, hhalt⟩ := h
  rw [exec_bootGo, if_pos (List.contains_iff_mem.mpr hlink), State.bootGo, if_pos]
  rcases hstate with h | h <;> simp only [hgo, h, hhalt] <;> rfl

theorem exec_bootGo_ignored {port : Nat} {v : Word} (h : ¬ s.goStarts port v) : exec (.bootGo port v) s = .next s := by
  rw [exec_bootGo]
  split
  · next hlink =>
    rw [State.bootGo, if_neg]
    intro hgo
    simp only [Bool.and_eq_true, Bool.or_eq_true, beq_iff_eq, Bool.not_eq_true'] at hgo
    obtain ⟨⟨hgo, hstate⟩, hhalt⟩ := hgo
    exact h ⟨List.contains_iff_mem.mp hlink, hgo, hstate, hhalt⟩
  · rfl

theorem Boot.named_iff (b : Boot) : b.named = true ↔ b.token.toNat / 4096 ≠ 0 := decide_eq_true_iff

theorem State.startLoad_eq (port : Nat) :
    let named := s.boot.token.toNat / 4096 ≠ 0
    s.startLoad port = { s with
      boot := { s.boot with goPort := port, state := .loading, imageData := none, tokenData := none, imageRead := some s.nextReq
                            tokenRead := if named then some (s.nextReq + 1) else none }
      sent := (if named then [Sent.hostRead 0 port (s.boot.token.toNat / 4096 * 4096) 16672] else []) ++
        Sent.hostRead 0 port (s.boot.image.toNat / 4096 * 4096) (s.boot.len.toNat % 2 ^ 26) :: s.sent
      nextReq := s.nextReq + 2 } := by
  intro named
  by_cases hnamed : named
  · have h : s.boot.named = true := s.boot.named_iff.mpr hnamed
    rw [if_pos hnamed, if_pos hnamed]
    unfold State.startLoad
    simp only [h]
    rfl
  · have h : s.boot.named = false := Bool.eq_false_iff.mpr fun h => hnamed (s.boot.named_iff.mp h)
    rw [if_neg hnamed, if_neg hnamed]
    unfold State.startLoad
    simp only [h]
    rfl

/-! The token and the image -/

theorem slice_slice (b : Bytes) (o n a k : Nat) (h : a + k ≤ n) : slice (slice b o n) a k = slice b (o + a) k := by
  refine List.map_congr_left fun i hi => ?_
  rw [List.mem_range] at hi
  rw [slice, List.getD_eq_getElem _ _ (by simp; omega)]
  simp [Nat.add_assoc]

theorem State.judgeToken_frame : s.judgeToken = { s with boot := { s.boot with
    tokenResult := s.judgeToken.boot.tokenResult, vendorDebug := s.judgeToken.boot.vendorDebug
    scope := s.judgeToken.boot.scope } } := by
  unfold State.judgeToken State.takeToken
  split
  · split
    · rfl
    · dsimp only
      split <;> rfl
  · rfl

/-- What the boot ROM's judgement of a token leaves (R584, R588). -/
def Judged (s t : State) : Prop :=
  let named := s.boot.token.toNat / 4096 ≠ 0
  (¬ named → t.boot.tokenResult = 0 ∧ t.boot.vendorDebug = s.boot.vendorDebug ∧ t.boot.scope = s.boot.scope) ∧
  (named → s.boot.tokenData = none → t.boot.tokenResult = s.boot.tokenResult ∧ t.boot.vendorDebug = s.boot.vendorDebug ∧
    t.boot.scope = s.boot.scope) ∧
  (∀ k, named → s.boot.tokenData = some k →
    (s.fuses.debugDisabled = true → t.boot.tokenResult = 6) ∧ t.boot.tokenResult = s.tokenCheck k ∧
    (t.boot.tokenResult = 1 → t.boot.vendorDebug = true ∧ t.boot.scope = BitVec.ofNat 32 (leAt k 0x38 4)) ∧
    (t.boot.tokenResult ≠ 1 → t.boot.vendorDebug = s.boot.vendorDebug ∧ t.boot.scope = s.boot.scope))

theorem State.tokenCheck_disabled (k : Bytes) (h : s.fuses.debugDisabled = true) : s.tokenCheck k = 6 := if_pos h

theorem State.judgeToken_unnamed (h : ¬ s.boot.token.toNat / 4096 ≠ 0) :
    s.judgeToken = { s with boot := { s.boot with tokenResult := 0 } } :=
  if_neg fun hn => h (s.boot.named_iff.mp hn)

theorem State.judgeToken_unread (hn : s.boot.token.toNat / 4096 ≠ 0) (h : s.boot.tokenData = none) : s.judgeToken = s := by
  rw [State.judgeToken, if_pos (s.boot.named_iff.mpr hn), h]

theorem State.judgeToken_read (hn : s.boot.token.toNat / 4096 ≠ 0) {k : Bytes} (h : s.boot.tokenData = some k) :
    s.judgeToken = s.takeToken k := by
  rw [State.judgeToken, if_pos (s.boot.named_iff.mpr hn), h]

theorem judged_takeToken (k : Bytes) :
    (s.takeToken k).boot.tokenResult = s.tokenCheck k ∧
    ((s.takeToken k).boot.tokenResult = 1 →
      (s.takeToken k).boot.vendorDebug = true ∧ (s.takeToken k).boot.scope = BitVec.ofNat 32 (leAt k 0x38 4)) ∧
    ((s.takeToken k).boot.tokenResult ≠ 1 →
      (s.takeToken k).boot.vendorDebug = s.boot.vendorDebug ∧ (s.takeToken k).boot.scope = s.boot.scope) := by
  unfold State.takeToken
  dsimp only
  split
  · next h => exact ⟨h.symm, fun _ => ⟨rfl, rfl⟩, fun hne => absurd rfl hne⟩
  · next h => exact ⟨rfl, fun heq => absurd heq h, fun _ => ⟨rfl, rfl⟩⟩

theorem judged_judgeToken : Judged s s.judgeToken := by
  refine ⟨fun hn => ?_, fun hn hd => ?_, fun k hn hk => ?_⟩
  · rw [State.judgeToken_unnamed hn]
    exact ⟨rfl, rfl, rfl⟩
  · rw [State.judgeToken_unread hn hd]
    exact ⟨rfl, rfl, rfl⟩
  · rw [State.judgeToken_read hn hk]
    obtain ⟨hresult, htaken⟩ := judged_takeToken (s := s) k
    exact ⟨fun hdis => hresult.trans (State.tokenCheck_disabled k hdis), hresult, htaken⟩

/-- A judgement that the boot state shows. -/
theorem Judged.of_boot {t u : State} (h : Judged s t) (hresult : u.boot.tokenResult = t.boot.tokenResult)
    (hdebug : u.boot.vendorDebug = t.boot.vendorDebug) (hscope : u.boot.scope = t.boot.scope) : Judged s u := by
  unfold Judged
  rw [hresult, hdebug, hscope]
  exact h

/-! The verdict (R580) -/

/-- The reject code of the load, 0 when the image passes. -/
def State.imageVerdict (s : State) : Nat := if s.boot.loadFails then 1 else s.imageCheck s.boot.imageLen s.boot.imageData

theorem Boot.loadFails_iff (b : Boot) :
    b.loadFails = true ↔ b.imageData = none ∨ (b.token.toNat / 4096 ≠ 0 ∧ b.tokenData = none) := by
  simp [Boot.loadFails, Boot.named_iff]

theorem State.imageVerdict_failed (h : s.boot.loadFails = true) : s.imageVerdict = 1 := if_pos h

theorem State.imageVerdict_read (h : ¬ s.boot.loadFails = true) :
    let len := s.boot.imageLen
    let img := slice (s.boot.imageData.getD []) 0 len
    let signed := leAt img 0xC 4
    let message := slice img 0 signed
    s.imageVerdict =
      if leAt img 8 4 ≠ len ∨ 0x2000000 < len then 1
      else if ¬ imageFormatOk img = true then 2
      else if ¬ (Crypto.sha384 (slice img 0x100 384) = s.fuses.fwRsaDigest ∧
        Crypto.sha384 (slice img 0xA0 48) = s.fuses.fwSlhDigest) then 3
      else if ¬ s.fuses.rollback ≤ leAt img 0x14 1 then 4
      else if ¬ Crypto.rsaVerify (slice img 0x100 384) message (slice img signed 384) = true then 5
      else if ¬ Crypto.slhVerify (slice img 0xA0 48) (beBytes 48 (Crypto.sha384 message).toNat)
        (slice img (signed + 384) 16224) = true then 6
      else 0 := by
  obtain ⟨b, hb⟩ : ∃ b, s.boot.imageData = some b := by
    refine Option.ne_none_iff_exists'.mp fun hnone => h ?_
    exact s.boot.loadFails_iff.mpr (.inl hnone)
  have hrsa : ∀ b : Bytes, ∀ n, slice (slice b n pairLen) 0 384 = slice b n 384 :=
    fun b n => slice_slice _ _ _ _ _ (by decide)
  have hslh : ∀ b : Bytes, ∀ n, slice (slice b n pairLen) 384 16224 = slice b (n + 384) 16224 :=
    fun b n => slice_slice _ _ _ _ _ (by decide)
  rw [State.imageVerdict, if_neg h, hb]
  unfold State.imageCheck rsaPartOk slhPartOk
  simp only [Option.getD_some, hrsa, hslh]
  have hnot : ∀ b : Bool, ((!b) = true) ↔ ¬ b = true := fun b => by rw [Bool.not_eq_true', Bool.not_eq_true]
  exact if_congr Iff.rfl rfl (if_congr (hnot _) rfl (if_congr Decidable.not_and_iff_or_not.symm rfl
    (if_congr Nat.not_le.symm rfl (if_congr (hnot _) rfl (if_congr (hnot _) rfl rfl)))))

/-! The boot ROM's report, and what each verdict leaves (R577, R581, R652) -/

theorem foldl_send_frame {α : Type} (g : α → Sent) (l : List α) (s : State) :
    l.foldl (fun (s : State) e => s.send (g e)) s = { s with sent := (l.foldl (fun (s : State) e => s.send (g e)) s).sent } := by
  induction l generalizing s with
  | nil => rfl
  | cons e l ih => exact (ih (s.send (g e))).trans rfl

theorem State.hostWriteVia_frame (s : State) (n port addr : Nat) (d : Bytes) :
    s.hostWriteVia n port addr d = { s with sent := (s.hostWriteVia n port addr d).sent } := by
  unfold State.hostWriteVia
  split
  · exact foldl_send_frame _ _ _
  · rfl

theorem State.bootReport_short (h : s.boot.len.toNat % 2 ^ 26 < 17632) : s.bootReport = s := if_pos h

theorem State.bootReport_long (h : ¬ s.boot.len.toNat % 2 ^ 26 < 17632) :
    s.bootReport = { s with
      sent := s.bootReport.sent, fresh := s.bootReport.fresh
      security := { s.security with reportSeq := s.security.reportSeq + 1 } } := by
  unfold State.bootReport
  rw [if_neg h]
  dsimp only
  rw [State.hostWriteVia_frame]
  rfl

/-- A rejected image (R581): the report is all that its length decides. -/
theorem State.rejectImage_eq (code : Nat) : s.rejectImage code = { s with
    boot := { s.boot with state := .rejected, reject := code, imageData := none, tokenData := none }
    errors := { s.errors with causes := s.errors.causes ||| 4, entering := s.errors.entering || !s.errors.rootstock }
    sent := s.bootReport.sent, fresh := s.bootReport.fresh
    security := if s.boot.len.toNat % 2 ^ 26 < 17632 then s.security
      else { s.security with reportSeq := s.security.reportSeq + 1 } } := by
  unfold State.rejectImage
  by_cases h : s.boot.len.toNat % 2 ^ 26 < 17632
  · rw [State.bootReport_short h, if_pos h]
    rfl
  · rw [State.bootReport_long h, if_neg h]
    rfl

theorem State.imageCheck_judgeToken (len : Nat) (answer : HostAns) :
    s.judgeToken.imageCheck len answer = s.imageCheck len answer := by
  rw [State.judgeToken_frame]
  rfl

theorem exec_imageVerified_idle (h : s.boot.state ≠ .verifying ∨ s.boot.halted = true) : exec .imageVerified s = .next s :=
  congrArg Host.Outcome.next (if_pos h)

theorem State.imageVerdict_judged :
    (if s.boot.loadFails then 1 else s.judgeToken.imageCheck s.boot.imageLen s.boot.imageData) = s.imageVerdict := by
  rw [State.imageCheck_judgeToken]
  rfl

theorem exec_imageVerified_reject (hstate : s.boot.state = .verifying) (hhalt : s.boot.halted = false) {code : Nat}
    (h : s.imageVerdict = code + 1) : exec .imageVerified s = .next (s.judgeToken.rejectImage (code + 1)) := by
  change execImageVerified s = _
  unfold execImageVerified
  rw [if_neg (by rw [hstate, hhalt]; simp)]
  dsimp only
  rw [State.imageVerdict_judged, h]
  rfl

theorem exec_imageVerified_accept (hstate : s.boot.state = .verifying) (hhalt : s.boot.halted = false)
    (h : s.imageVerdict = 0) : exec .imageVerified s =
      .next (s.judgeToken.acceptImage (slice (s.boot.imageData.getD []) 0 s.boot.imageLen)) := by
  change execImageVerified s = _
  unfold execImageVerified
  rw [if_neg (by rw [hstate, hhalt]; simp)]
  dsimp only
  rw [State.imageVerdict_judged, h]
  rfl

/-- What a rejection leaves (R581, R652). -/
def Rejected (s : State) (code : Nat) (t : State) : Prop :=
  t.boot = { s.boot with state := .rejected, reject := code, imageData := none, tokenData := none
                         tokenResult := t.boot.tokenResult
                         vendorDebug := t.boot.vendorDebug, scope := t.boot.scope } ∧
  Judged s t ∧ t.fuses = s.fuses ∧ t.errors.causes = s.errors.causes ||| 4 ∧
  (s.errors.rootstock = false → t.errors.entering = true) ∧
  t.security = (if s.boot.len.toNat % 2 ^ 26 < 17632 then s.security
    else { s.security with reportSeq := s.security.reportSeq + 1 }) ∧
  (s.boot.len.toNat % 2 ^ 26 < 17632 → t.fresh = s.fresh) ∧
  t = { s with boot := t.boot, errors := t.errors, security := t.security, sent := t.sent, fresh := t.fresh }

theorem rejected_rejectImage (code : Nat) : Rejected s code (s.judgeToken.rejectImage code) := by
  rw [State.rejectImage_eq]
  have hframe := s.judgeToken_frame
  refine ⟨?_, judged_judgeToken.of_boot rfl rfl rfl, ?_, ?_, fun hroot => ?_, ?_, fun hshort => ?_, ?_⟩
  · rw [hframe]
  · rw [hframe]
  · rw [hframe]
  · rw [hframe]
    simp [hroot]
  · rw [hframe]
  · rw [State.bootReport_short (by rw [hframe]; exact hshort), hframe]
  · rw [hframe]

theorem gives_rejected (hstate : s.boot.state = .verifying) (hhalt : s.boot.halted = false) {code : Nat}
    (h : s.imageVerdict = code + 1) : Gives .imageVerified s (Rejected s (code + 1)) :=
  ⟨_, exec_imageVerified_reject hstate hhalt h, rejected_rejectImage _⟩

theorem State.acceptImage_judged (img : Bytes) : s.judgeToken.acceptImage img = { s with boot := { s.boot with
    state := .starting, imageData := none, tokenData := none, fwVersion := BitVec.ofNat 32 (leAt img 0x10 4)
    svn := leAt img 0x14 1, floor := leAt img 0x15 1, buildId := BitVec.ofNat 64 (leAt img 0x18 8)
    imageDigest := Crypto.sha384 (slice img 0 (leAt img 0xC 4))
    tokenResult := s.judgeToken.boot.tokenResult, vendorDebug := s.judgeToken.boot.vendorDebug
    scope := s.judgeToken.boot.scope } } := by
  rw [State.acceptImage, s.judgeToken_frame]
  rfl

end

end Sys2Proof.Machine

namespace Sys2Proof.Machine
open Sys2Proof.Claims

/-! ### READY (R40, R583, R641 to R643) -/

theorem domKind_die {d : Nat} (h : d < 16) : domKind (domDie d) = .die d := by
  unfold domKind domDie
  rw [if_neg (by omega), if_neg (by omega), if_neg (by omega), if_neg (by omega), if_pos (by omega), Nat.add_sub_cancel_left]

theorem domKind_half {h : Nat} (hh : h < 32) : domKind (domHalf h) = .half h := by
  unfold domKind domHalf
  rw [if_neg (by omega), if_pos (by omega), Nat.add_sub_cancel_left]

theorem domKind_stack {st : Nat} (h : st < 32) : domKind (domStack st) = .stack st := by
  unfold domKind domStack
  rw [if_neg (by omega), if_neg (by omega), if_pos (by omega), Nat.add_sub_cancel_left]

/-- The domains and the stacks that have failed. -/
def State.ground (s : State) : Tab Domain × BitVec 32 := (s.domains, s.hbm.failed)

/-- The domains that READY brings up, each to its state. -/
inductive Rises : Nat → DomState → Prop
  | die {d : Nat} (h : d < 16) : Rises (domDie d) .on
  | half {h : Nat} (hh : h < 32) : Rises (domHalf h) .on
  | stack {st : Nat} (h : st < 32) : Rises (domStack st) .low

section
variable {s : State} {i : Nat} {x : DomState}

theorem State.ground_pinCaches (s : State) : s.pinCaches.ground = s.ground := rfl

theorem State.ground_addWalkers (s : State) (halves groups : List Nat) : (s.addWalkers halves groups).ground = s.ground := rfl

theorem State.ground_clearStack (s : State) (st : Nat) : (s.clearStack st).ground = s.ground := rfl

theorem State.ground_trained (s : State) (st : Nat) (d : DomState) : (s.stackReached st d .low true).ground = s.ground := by
  unfold State.stackReached
  rw [if_neg DomState.noConfusion]
  split
  · rw [if_pos rfl, State.ground_pinCaches, State.ground_addWalkers, State.ground_clearStack]
  · rfl

theorem State.ground_domReached (h : Rises i x) (d : DomState) : (s.domReached i d x true).ground = s.ground := by
  unfold State.domReached
  cases h with
  | die hd => rw [domKind_die hd]; rfl
  | half hh => rw [domKind_half hh]; rfl
  | stack hst => rw [domKind_stack hst]; exact s.ground_trained _ d

theorem State.ground_forceDom (h : Rises i x) : (s.forceDom i x).ground = (s.setDomain i { state := x }).ground := by
  unfold State.forceDom
  dsimp only
  split
  · rfl
  · exact State.ground_domReached h _

theorem State.domain_of_ground {t : State} (h : t.ground = s.ground) (j : Nat) : t.domain j = s.domain j :=
  congrArg (fun g : Tab Domain × BitVec 32 => Tab.look ({} : Domain) g.1 j) h

theorem State.domain_forceDom (h : Rises i x) (j : Nat) :
    (s.forceDom i x).domain j = if j = i then { state := x } else s.domain j :=
  (State.domain_of_ground (State.ground_forceDom h) j).trans (State.domain_setDomain ..)

theorem State.failed_forceDom (h : Rises i x) : (s.forceDom i x).hbm.failed = s.hbm.failed :=
  (congrArg Prod.snd (State.ground_forceDom h)).trans rfl

end

/-- A fold that sets the domains `g a` of the `a` with `p`, and no others. -/
theorem domain_foldl_sets {f : State → Nat → State} {g : Nat → Nat} {p : Nat → Prop} {x : Domain} {l : List Nat}
    (hset : ∀ s, ∀ a ∈ l, p a → (f s a).domain (g a) = x)
    (hkeep : ∀ s, ∀ a ∈ l, ∀ j, (p a → j ≠ g a) → (f s a).domain j = s.domain j) (s : State) (j : Nat) :
    (∀ a ∈ l, p a → j = g a → (l.foldl f s).domain j = x) ∧
    ((∀ a ∈ l, p a → j ≠ g a) → (l.foldl f s).domain j = s.domain j) := by
  induction l generalizing s with
  | nil => exact ⟨fun a ha => absurd ha List.not_mem_nil, fun _ => rfl⟩
  | cons b l ih =>
    obtain ⟨hin, hout⟩ := ih (fun s a ha => hset s a (List.mem_cons_of_mem _ ha))
      (fun s a ha => hkeep s a (List.mem_cons_of_mem _ ha)) (f s b)
    refine ⟨fun a ha hp hj => ?_, fun hall => ?_⟩
    · by_cases hlater : ∃ c ∈ l, p c ∧ j = g c
      · obtain ⟨c, hc, hpc, hjc⟩ := hlater
        exact hin c hc hpc hjc
      · have hrest := hout fun c hc hpc hjc => hlater ⟨c, hc, hpc, hjc⟩
        rcases List.mem_cons.mp ha with rfl | ha
        · rw [List.foldl_cons, hrest, hj]
          exact hset s a List.mem_cons_self hp
        · exact absurd ⟨a, ha, hp, hj⟩ hlater
    · rw [List.foldl_cons, hout fun c hc => hall c (List.mem_cons_of_mem _ hc)]
      exact hkeep s b List.mem_cons_self j (hall b List.mem_cons_self)

/-- Domains forced one after another, each to `x`. -/
theorem domain_foldl_forceDom {g : Nat → Nat} {n : Nat} {x : DomState} (h : ∀ a, a < n → Rises (g a) x) (s : State)
    (j : Nat) :
    (∀ a, a < n → j = g a → ((List.range n).foldl (fun (s : State) a => s.forceDom (g a) x) s).domain j = { state := x }) ∧
    ((∀ a, a < n → j ≠ g a) →
      ((List.range n).foldl (fun (s : State) a => s.forceDom (g a) x) s).domain j = s.domain j) := by
  obtain ⟨hin, hout⟩ := domain_foldl_sets (p := fun _ => True) (x := { state := x })
    (f := fun (s : State) a => s.forceDom (g a) x) (g := g) (l := List.range n)
    (fun s a ha _ => by rw [State.domain_forceDom (h a (List.mem_range.mp ha)), if_pos rfl])
    (fun s a ha j hj => by rw [State.domain_forceDom (h a (List.mem_range.mp ha)), if_neg (hj trivial)]) s j
  exact ⟨fun a ha hj => hin a (List.mem_range.mpr ha) trivial hj, fun hj => hout fun a ha _ => hj a (List.mem_range.mp ha)⟩

/-- A stack comes up, unless its training failed. -/
def raiseStack (failed : BitVec 32) (s : State) (st : Nat) : State :=
  if failed.getLsbD st then s.stackReached st .off .low false else s.forceDom (domStack st) .low

section
variable (s : State) (failed : BitVec 32)

/-- The dies' uncores come up, -/
def State.raiseDies : State := (List.range 16).foldl (fun (s : State) d => s.forceDom (domDie d) .on) s
/-- then the half-dies. -/
def State.raiseHalves : State := (List.range 32).foldl (fun (s : State) h => s.forceDom (domHalf h) .on) s

theorem State.bringUp_eq : s.bringUp failed = (List.range 32).foldl (raiseStack failed) s.raiseDies.raiseHalves := rfl

theorem raiseStack_failed {failed : BitVec 32} {st : Nat} (h : failed.getLsbD st = true) :
    raiseStack failed s st =
      ({ s with hbm := { s.hbm with failed := s.hbm.failed ||| (1 <<< st) } } : State).event 0x0020 st := by
  unfold raiseStack State.stackReached
  rw [if_pos h, if_neg DomState.noConfusion, if_pos rfl, if_neg Bool.noConfusion]

theorem raiseStack_trained {failed : BitVec 32} {st : Nat} (h : failed.getLsbD st = false) :
    raiseStack failed s st = s.forceDom (domStack st) .low := by
  unfold raiseStack
  rw [h]
  rfl

theorem State.domain_bringUp (j : Nat) :
    (∀ st, st < 32 → failed.getLsbD st = false → j = domStack st → (s.bringUp failed).domain j = { state := .low }) ∧
    ((∀ st, st < 32 → failed.getLsbD st = false → j ≠ domStack st) →
      (s.bringUp failed).domain j = s.raiseDies.raiseHalves.domain j) := by
  obtain ⟨hin, hout⟩ := domain_foldl_sets (p := fun st => failed.getLsbD st = false) (x := { state := .low })
    (f := raiseStack failed) (g := domStack) (l := List.range 32)
    (fun s st hst h => by
      rw [raiseStack_trained s h, State.domain_forceDom (.stack (List.mem_range.mp hst)), if_pos rfl])
    (fun s st hst j hj => by
      cases h : failed.getLsbD st with
      | false => rw [raiseStack_trained s h, State.domain_forceDom (.stack (List.mem_range.mp hst)), if_neg (hj h)]
      | true => rw [raiseStack_failed s h]; rfl) s.raiseDies.raiseHalves j
  rw [State.bringUp_eq]
  exact ⟨fun st hst h hj => hin st (List.mem_range.mpr hst) h hj,
    fun hall => hout fun st hst => hall st (List.mem_range.mp hst)⟩

theorem State.domain_raiseHalves (j : Nat) :
    (∀ h, h < 32 → j = domHalf h → s.raiseHalves.domain j = { state := .on }) ∧
    ((∀ h, h < 32 → j ≠ domHalf h) → s.raiseHalves.domain j = s.domain j) := domain_foldl_forceDom (fun _ => .half) s j

theorem State.domain_raiseDies (j : Nat) :
    (∀ d, d < 16 → j = domDie d → s.raiseDies.domain j = { state := .on }) ∧
    ((∀ d, d < 16 → j ≠ domDie d) → s.raiseDies.domain j = s.domain j) := domain_foldl_forceDom (fun _ => .die) s j

theorem State.domain_bringUp_die {d : Nat} (hd : d < 16) : (s.bringUp failed).domain (domDie d) = { state := .on } := by
  rw [(s.domain_bringUp failed _).2 fun st hst _ => by unfold domDie domStack; omega,
    (s.raiseDies.domain_raiseHalves _).2 fun h hh => by unfold domDie domHalf; omega]
  exact (s.domain_raiseDies _).1 d hd rfl

theorem State.domain_bringUp_half {h : Nat} (hh : h < 32) : (s.bringUp failed).domain (domHalf h) = { state := .on } := by
  rw [(s.domain_bringUp failed _).2 fun st hst _ => by unfold domHalf domStack; omega]
  exact (s.raiseDies.domain_raiseHalves _).1 h hh rfl

theorem State.domain_bringUp_other {j : Nat} (hst : ∀ st, st < 32 → failed.getLsbD st = false → j ≠ domStack st)
    (hh : ∀ h, h < 32 → j ≠ domHalf h) (hd : ∀ d, d < 16 → j ≠ domDie d) :
    (s.bringUp failed).domain j = s.domain j := by
  rw [(s.domain_bringUp failed j).2 hst, (s.raiseDies.domain_raiseHalves j).2 hh, (s.domain_raiseDies j).2 hd]

theorem State.domain_bringUp_failed {st : Nat} (hst : st < 32) (hf : failed.getLsbD st = true) :
    (s.bringUp failed).domain (domStack st) = s.domain (domStack st) := by
  refine s.domain_bringUp_other failed (fun k hk hfk hkst => ?_) (fun h hh => by unfold domHalf domStack; omega)
    (fun d hd => by unfold domDie domStack; omega)
  rw [Nat.add_left_cancel hkst, hfk] at hf
  exact Bool.noConfusion hf

theorem State.domain_bringUp_rest {i : Nat} (hi : i < 512 ∨ (576 ≤ i ∧ i < 624) ∨ 640 ≤ i) :
    (s.bringUp failed).domain i = s.domain i :=
  s.domain_bringUp_other failed (fun st hst _ => by unfold domStack; omega) (fun h hh => by unfold domHalf; omega)
    (fun d hd => by unfold domDie; omega)

theorem raiseStack_keeps_failed {st k : Nat} (hst : st < 32) (h : s.hbm.failed.getLsbD k = true) :
    (raiseStack failed s st).hbm.failed.getLsbD k = true := by
  cases hf : failed.getLsbD st with
  | false => rw [raiseStack_trained s hf, State.failed_forceDom (.stack hst), h]
  | true =>
    rw [raiseStack_failed s hf]
    exact (BitVec.getLsbD_or ..).trans (by rw [h]; rfl)

theorem raiseStack_failed_bit {st : Nat} (hst : st < 32) (h : failed.getLsbD st = true) :
    (raiseStack failed s st).hbm.failed.getLsbD st = true := by
  rw [raiseStack_failed s h]
  refine (BitVec.getLsbD_or ..).trans ?_
  have hbit : 2 ^ st % 4294967296 = 2 ^ st := Nat.mod_eq_of_lt (Nat.pow_lt_pow_right (n := 32) (by decide : 1 < 2) hst)
  simp [hst, Nat.one_shiftLeft, BitVec.getElem_eq_testBit_toNat, hbit]

theorem failed_foldl_raiseStack {l : List Nat} (hl : ∀ st ∈ l, st < 32) {k : Nat}
    (h : s.hbm.failed.getLsbD k = true ∨ k ∈ l ∧ failed.getLsbD k = true) :
    (l.foldl (raiseStack failed) s).hbm.failed.getLsbD k = true := by
  induction l generalizing s with
  | nil => exact h.resolve_right fun hk => absurd hk.1 List.not_mem_nil
  | cons st l ih =>
    have hst := hl st List.mem_cons_self
    refine ih (raiseStack failed s st) (fun x hx => hl x (List.mem_cons_of_mem _ hx)) ?_
    rcases h with h | ⟨hk, h⟩
    · exact .inl (raiseStack_keeps_failed s failed hst h)
    · rcases List.mem_cons.mp hk with rfl | hk
      · exact .inl (raiseStack_failed_bit s failed hst h)
      · exact .inr ⟨hk, h⟩

theorem State.failed_bringUp {st : Nat} (hst : st < 32) (h : failed.getLsbD st = true) :
    (s.bringUp failed).hbm.failed.getLsbD st = true := by
  rw [State.bringUp_eq]
  exact failed_foldl_raiseStack _ failed (fun x hx => List.mem_range.mp hx) (.inr ⟨List.mem_range.mpr hst, h⟩)

theorem State.keel_bringUp : (s.bringUp failed).keel = s.keel := by simp [State.bringUp]

theorem State.chassis_bringUp : (s.bringUp failed).chassis = s.chassis := by simp [State.bringUp]

/-- The module as READY leaves it but for its event. -/
def State.readied : State :=
  let u := s.bringUp failed
  { u with boot := { u.boot with state := .ready, stepAt := u.now } }

theorem exec_ready_idle (h : ¬ (s.boot.state = .starting ∧ s.boot.halted = false ∧ s.supply.converters = true)) :
    exec (.ready failed) s = .next s := by
  refine congrArg Host.Outcome.next (if_pos ?_)
  by_contra hnot
  rw [not_or, not_or, not_not, Bool.not_eq_true, Bool.not_eq_false] at hnot
  exact h hnot

theorem exec_ready (h : s.boot.state = .starting ∧ s.boot.halted = false ∧ s.supply.converters = true) :
    exec (.ready failed) s = .next ((s.readied failed).event 0x0001 s.supply.cause) := by
  have hsupply : (s.readied failed).supply = s.supply := congrArg Chassis.supply (s.chassis_bringUp failed)
  obtain ⟨hstate, hhalt, hconv⟩ := h
  rw [← hsupply]
  exact congrArg Host.Outcome.next (if_neg (by rw [hstate, hhalt, hconv]; simp))

theorem State.boot_readied : (s.readied failed).boot = { s.boot with state := .ready, stepAt := s.now } :=
  congrArg (fun k : Keel => { k.boot with state := .ready, stepAt := k.now }) (s.keel_bringUp failed)

theorem State.fuses_readied : (s.readied failed).fuses = s.fuses := congrArg Keel.fuses (s.keel_bringUp failed)

theorem State.last_event (code arg : Nat) :
    (s.event code arg).errors.events.getLast?.map (fun e => (e.2.2.1, e.2.2.2)) =
      some (BitVec.ofNat 16 code, BitVec.ofNat 64 arg) := by
  unfold State.event
  dsimp only
  rw [List.getLast?_append_of_ne_nil _ (List.cons_ne_nil _ _)]
  rfl

end

/-! ### Time (R583) -/

section
variable (s : State)

theorem State.keel_tickWear : s.tickWear.keel = s.keel := by
  unfold State.tickWear
  split <;> simp

/-- The module before the rollback fuse's step of a nanosecond. -/
def State.ticked (s : State) : State :=
  let before := s.baseCycle
  let s := { s with now := s.now + 1, mesh := { s.mesh with tau0 := s.mesh.tau0 + s.power.baseMhz } }
  (s.liveDomains.foldl (fun s i => s.tickDomain before s.baseCycle i) s).tickWear

theorem State.keel_ticked : s.ticked.keel = { s.keel with now := s.now + 1 } := by
  unfold State.ticked
  dsimp only
  rw [State.keel_tickWear]
  exact keel_foldl (fun s i => s.keel_tickDomain _ _ i) _ _

theorem State.hull_tick : (tick s).hull = s.ticked.tickRollback.hull := by
  unfold tick
  dsimp only
  refine (State.hull_of_keel ((State.keel_takeModbus _).trans (State.keel_flushPorts _))).trans
    ((State.hull_resumeHeld _).trans (State.hull_of_keel ((keel_foldl (fun s b => ?_) _ _).trans (State.keel_tickTransit ..))))
  simp

theorem State.chassis_tickDomain (before after i) : (s.tickDomain before after i).chassis = s.chassis := by
  unfold State.tickDomain State.staticTick
  dsimp only
  split <;> simp

theorem State.supply_ticked : s.ticked.supply = s.supply := by
  unfold State.ticked
  dsimp only
  rw [State.tickWear_eq]
  exact congrArg Chassis.supply (chassis_foldl (fun s i => s.chassis_tickDomain _ _ i) _ _)

theorem State.boot_ticked : s.ticked.boot = s.boot := (congrArg Keel.boot s.keel_ticked :)
theorem State.fuses_ticked : s.ticked.fuses = s.fuses := (congrArg Keel.fuses s.keel_ticked :)
theorem State.now_ticked : s.ticked.now = s.now + 1 := (congrArg Keel.now s.keel_ticked :)

theorem State.isReady_ticked : s.ticked.isReady = s.isReady := by
  unfold State.isReady
  rw [State.supply_ticked, State.boot_ticked]

/-- The fuse's step of this nanosecond is due (R583, log 220). -/
def State.blows (s : State) : Prop :=
  s.isReady = true ∧ s.fuses.rollback < s.boot.floor ∧ s.boot.stepAt + 1000000 ≤ s.now + 1

theorem State.tickRollback_ticked_due (h : s.blows) : s.ticked.tickRollback = { s.ticked with
    boot := { s.ticked.boot with stepAt := s.ticked.now }
    fuses := { s.ticked.fuses with rollback := s.ticked.fuses.rollback + 1 } } := by
  obtain ⟨hready, hfloor, htime⟩ := h
  refine if_pos ?_
  rw [State.isReady_ticked, hready, State.boot_ticked,
    State.fuses_ticked, State.now_ticked]
  simp [hfloor, htime]

theorem State.tickRollback_ticked_not (h : ¬ s.blows) : s.ticked.tickRollback = s.ticked := by
  refine if_neg fun hdue => h ?_
  rw [State.isReady_ticked, State.boot_ticked,
    State.fuses_ticked, State.now_ticked,
    Bool.and_eq_true, Bool.and_eq_true, decide_eq_true_iff, decide_eq_true_iff] at hdue
  exact ⟨hdue.1.1, hdue.1.2, hdue.2⟩

theorem State.boot_of_hull {s t : State} (h : t.hull = s.hull) : t.boot = s.boot := congrArg Keel.boot h
theorem State.fuses_of_hull {s t : State} (h : t.hull = s.hull) : t.fuses = s.fuses := congrArg Keel.fuses h

theorem State.tick_blows (h : s.blows) :
    (tick s).fuses.rollback = s.fuses.rollback + 1 ∧ (tick s).boot = { s.boot with stepAt := s.now + 1 } := by
  rw [State.boot_of_hull s.hull_tick, State.fuses_of_hull s.hull_tick, s.tickRollback_ticked_due h, s.boot_ticked, s.fuses_ticked,
    s.now_ticked]
  exact ⟨rfl, rfl⟩

theorem State.tick_idle (h : ¬ s.blows) : (tick s).fuses.rollback = s.fuses.rollback ∧ (tick s).boot = s.boot := by
  rw [State.boot_of_hull s.hull_tick, State.fuses_of_hull s.hull_tick, s.tickRollback_ticked_not h, s.boot_ticked, s.fuses_ticked]
  exact ⟨rfl, rfl⟩

end

end Sys2Proof.Machine

section
open Sys2Proof Sys2Proof.Machine Sys2Proof.Claims

/-- Settles O55: GO and the image by the boot ROM's verdict, READY domain by domain, and time by `State.keel`, which no part of a
nanosecond but the rollback fuse's step changes. -/
theorem bootToReady : Obligations.BootToReady := by
  refine ⟨fun s port v => ?_, ?_, fun s failed => ?_, fun s t hidle hstep => ?_⟩
  · intro starts aligned named
    refine ⟨fun h => ⟨_, exec_bootGo_starts h, ?_⟩, exec_bootGo_ignored⟩
    rw [State.startLoad_eq]
    exact ⟨rfl, rfl, rfl⟩
  · intro s c image token len img signed message rsa slh named judged rejects failed long formed keyed fresh signedRsa signedSlh
    refine ⟨exec_imageVerified_idle, fun hstate hhalt => ?_⟩
    have hrejects : ∀ code, s.imageVerdict = code + 1 → rejects (code + 1) := fun code h => gives_rejected hstate hhalt h
    have hread : ¬ failed → s.imageVerdict = if long then 1 else if ¬ formed then 2 else if ¬ keyed then 3
        else if ¬ fresh then 4 else if ¬ signedRsa then 5 else if ¬ signedSlh then 6 else 0 := fun hfailed =>
      State.imageVerdict_read fun h => hfailed (s.boot.loadFails_iff.mp h)
    refine ⟨fun hfailed => hrejects 0 (State.imageVerdict_failed (s.boot.loadFails_iff.mpr hfailed)),
      fun hfailed hlong => hrejects 0 ?_, fun hfailed hlong hform => hrejects 1 ?_,
      fun hfailed hlong hform hkey => hrejects 2 ?_, fun hfailed hlong hform hkey hsvn => hrejects 3 ?_,
      fun hfailed hlong hform hkey hsvn hrsa => hrejects 4 ?_, fun hfailed hlong hform hkey hsvn hrsa hslh => hrejects 5 ?_,
      fun hfailed hlong hform hkey hsvn hrsa hslh => ⟨_, exec_imageVerified_accept hstate hhalt ?_, ?_⟩⟩
    · rw [hread hfailed, if_pos hlong]
    · rw [hread hfailed, if_neg hlong, if_pos hform]
    · rw [hread hfailed, if_neg hlong, if_neg (not_not_intro hform), if_pos hkey]
    · rw [hread hfailed, if_neg hlong, if_neg (not_not_intro hform), if_neg (not_not_intro hkey), if_pos hsvn]
    · rw [hread hfailed, if_neg hlong, if_neg (not_not_intro hform), if_neg (not_not_intro hkey), if_neg (not_not_intro hsvn),
        if_pos hrsa]
    · rw [hread hfailed, if_neg hlong, if_neg (not_not_intro hform), if_neg (not_not_intro hkey), if_neg (not_not_intro hsvn),
        if_neg (not_not_intro hrsa), if_pos hslh]
    · rw [hread hfailed, if_neg hlong, if_neg (not_not_intro hform), if_neg (not_not_intro hkey), if_neg (not_not_intro hsvn),
        if_neg (not_not_intro hrsa), if_neg (not_not_intro hslh)]
    · rw [State.acceptImage_judged]
      exact ⟨judged_judgeToken.of_boot rfl rfl rfl, rfl⟩
  · intro met
    exact ⟨exec_ready_idle s failed, fun h => ⟨_, exec_ready s failed h, s.boot_readied failed, s.fuses_readied failed,
      fun d hd => s.domain_bringUp_die failed hd, fun k hk => s.domain_bringUp_half failed hk,
      fun st hst hf => (s.domain_bringUp failed _).1 st hst hf rfl,
      fun st hst hf => ⟨s.domain_bringUp_failed failed hst hf, s.failed_bringUp failed hst hf⟩,
      fun i hi => s.domain_bringUp_rest failed hi, State.last_event ..⟩⟩
  · obtain ht : tick s = t := Host.Outcome.next.inj ((step_of_idle hidle).symm.trans hstep)
    rw [← ht]
    intro blown
    exact ⟨fun h => s.tick_blows h, fun h => s.tick_idle h⟩
end
